-- ==== Sys2Proof/Word.lean ====
section
/-! DEFINITION. The word types of the SY7-M60 and their plainest arithmetic. -/

namespace Sys2Proof

/-- One byte of any memory (R2). -/
abbrev Byte := BitVec 8

/-- A 64-bit register or word (R3, R45). -/
abbrev Word := BitVec 64

/-- A 32-bit word: an FP32 value, a tumbler count, a CRC. -/
abbrev Word32 := BitVec 32

/-- A module core number, 0-47 (R12). -/
abbrev CoreId := Fin 48

/-- A fabric port number, P0-P19 (R20, R240). -/
abbrev PortId := Fin 20

end Sys2Proof
end

