-- ==== Sys2Proof/Syntax.lean ====
section
/-! DEFINITION. The commands the module takes: one constructor of `Instr` per row of the table of
operations and events, with the row's operands.  An operand that names a happening of the physical
world (a reading of a sensor, a word found bad by its check bits, a packet off the fibre) is the
environment's; everything else a step needs is in the state. -/

namespace Sys2Proof

/-- Fields of a base word shared by every Tuida instruction, with its extension word (R70, R72). -/
structure Hdr where
  q   : Fin 16
  dw  : Fin 256
  var : Bool
  sat : Bool
  gn  : Bool
  gp  : Fin 8
  ext : Option Word
  deriving DecidableEq, Repr

/-- Operand b of formats A and B (R76): a register, or IMM25. -/
inductive SrcB where
  | reg (rb : Fin 64)
  | imm (v : BitVec 25)
  deriving DecidableEq, Repr

/-- Operand b of format C (R76): a register, or IMM22. -/
inductive SrcC where
  | reg (rb : Fin 64)
  | imm (v : BitVec 22)
  deriving DecidableEq, Repr

/-- Format G: local tumbler instructions; under VAR = 1 the register is n[5:0] (R76). -/
structure FmtG where
  tn      : Fin 256
  scope   : Fin 4
  consume : Bool
  n       : BitVec 26
  deriving DecidableEq, Repr

/-- Format H: global tumbler instructions (R76). -/
structure FmtH where
  ra      : Fin 64
  rb      : Fin 64
  scope   : Fin 4
  consume : Bool
  cls     : Fin 4
  n       : BitVec 20
  deriving DecidableEq, Repr

/-- Format I: GET, PUT, PUT.SIG (R76). -/
structure FmtI where
  td    : Fin 32
  ra    : Fin 64
  rb    : Fin 64
  rc    : Fin 64
  cls   : Fin 4
  hint  : Fin 4
  scope : Fin 4
  deriving DecidableEq, Repr

/-- Format J: PUT.MC (R76). -/
structure FmtJ where
  td   : Fin 32
  ra   : Fin 64
  rb   : Fin 64
  rc   : Fin 64
  rd   : Fin 64
  cls  : Fin 4
  hint : Fin 4
  deriving DecidableEq, Repr

/-- Format K: COPY, COPY.T (R76). -/
structure FmtK where
  td : Fin 32
  ts : Fin 32
  deriving DecidableEq, Repr

/-- Format L: ATOM (R76). -/
structure FmtL where
  ra    : Fin 64
  rb    : Fin 64
  rc    : Fin 64
  rd    : Fin 64
  scope : Fin 4
  cls   : Fin 4
  w64   : Bool
  aop   : Fin 8
  deriving DecidableEq, Repr

/-- Format M: MM.LDS (R101). -/
structure FmtM where
  ts    : Fin 32
  rk    : Fin 64
  rn    : Fin 64
  shape : Fin 4
  sslot : Fin 2
  deriving DecidableEq, Repr

/-- Format N: MM (R101). -/
structure FmtN where
  ts    : Fin 32
  rk    : Fin 64
  sslot : Fin 2
  deriving DecidableEq, Repr

/-- Format O: MM.DRAIN (R101). -/
structure FmtO where
  td  : Fin 32
  ra  : Fin 64
  h   : Fin 8
  add : Bool
  deriving DecidableEq, Repr

/-- Format S: MV (R101). -/
structure FmtS where
  td : Fin 32
  ts : Fin 32
  tx : Fin 32
  deriving DecidableEq, Repr

/-- Format T: register vector instructions (R101). -/
structure FmtT where
  vd   : Fin 32
  va   : Fin 32
  vb   : Fin 32
  vc   : Fin 32
  rs   : Fin 64
  mode : Fin 8
  ty   : Bool
  sr   : Bool
  deriving DecidableEq, Repr

/-- Format U: VLD, VST, VTLOAD (R101). -/
structure FmtU where
  vd : Fin 32
  ts : Fin 32
  ra : Fin 64
  rb : Fin 64
  ty : Bool
  sr : Bool
  deriving DecidableEq, Repr

/-- Format W: row instructions (R101). -/
structure FmtW where
  td   : Fin 32
  ts   : Fin 32
  tx   : Fin 32
  tg   : Fin 32
  ra   : Fin 64
  rb   : Fin 64
  mode : Fin 16
  deriving DecidableEq, Repr

/-- Format X: sampling instructions (R101). -/
structure FmtX where
  ts : Fin 32
  tq : Fin 32
  ra : Fin 64
  rb : Fin 64
  rc : Fin 64
  rd : Fin 64
  deriving DecidableEq, Repr

/-- Format Y: KV instructions (R101). -/
structure FmtY where
  ts : Fin 32
  ra : Fin 64
  rb : Fin 64
  rc : Fin 64
  rd : Fin 64
  deriving DecidableEq, Repr

/-- Format Z: COLL.OPEN, COLL.PUB (R101). -/
structure FmtZ where
  ts : Fin 32
  ra : Fin 64
  rb : Fin 64
  h  : Fin 8
  deriving DecidableEq, Repr

/-- What the check bits or the residue code find while a step runs (R139, R357, R422). -/
inductive Upset where
  | lmUncorrectable (off : Nat)
  | lmCorrected (off : Nat)
  | hmUncorrectable (off : Nat)
  | hmCorrected (off : Nat)
  | spUncorrectable (c : CoreId) (off : Nat)
  | spCorrected (c : CoreId) (off : Nat)
  | arrayResidue (me : Fin 4)
  deriving DecidableEq, Repr

/-- The two moments of an engine instruction's row: its issue by the sequencer with the fields of its
words, and its run by the engine once DISPATCH has dispatched it (R46, R52). -/
inductive EngOp (α : Type) where
  | issue (h : Hdr) (o : α)
  | run (id : Nat) (u : List Upset)
  deriving DecidableEq, Repr

/-- A mask pair (R281): in-rack mask and rack mask. -/
structure MaskPair where
  inRack : Word
  racks  : Word
  deriving DecidableEq, Repr

/-- A BLP packet (R275-R278): the header's fields, the payload bytes, and for data types the fields of
the header extension. -/
structure Packet where
  typ      : Fin 32
  cls      : Fin 4
  dl       : Bool
  dt       : Bool
  hops     : Nat
  dst      : Nat
  src      : Nat
  job      : Nat
  len      : Nat
  tag      : Nat
  space    : Nat
  offset   : BitVec 40
  count    : Nat
  xt       : Bool
  payload  : List Byte
  pcrc     : Word32
  sigref   : Nat
  sig      : Bool
  opid     : Word32
  inc      : Nat
  sigtum   : Nat
  sigbytes : Nat
  mask     : MaskPair
  digest   : Word32
  ccrc     : Word32
  deriving DecidableEq, Repr

/-- Link-control flits (R271). -/
inductive LinkFlit where
  | heartbeat (module port state : Nat) (time : Word)
  | vcsel (vc : Nat)
  | abort (vc : Nat)
  | syncReq
  | sync (counts : List Nat)
  | laneMask (mask : BitVec 16) (mgen : Nat)
  | laneReq (lane : Nat) (restore : Bool)
  | violation (code vc recent : Nat)
  | down (cause : Nat)
  | key (module port : Nat) (adapter retry matched : Bool) (key : Word)
  | creditInit (counts : List Nat)
  | reject (status module port : Nat)
  | reserved (ltype : Nat)
  deriving DecidableEq, Repr

/-- A flit slot of a frame (R266). -/
inductive Flit where
  | null
  | head (p : Packet)
  | body (data : List Byte)
  | link (l : LinkFlit)
  deriving DecidableEq, Repr

/-- A frame with its trailer's fields (R266). -/
structure Frame where
  slots   : List Flit
  fseq    : Nat
  ack     : Nat
  nak     : Bool
  empty   : Bool
  credits : List (Nat × Nat)
  deriving DecidableEq, Repr

/-- What a read of host memory answers (R372). -/
inductive HostRead where
  | data (bytes : List Byte)
  | failed
  deriving DecidableEq, Repr

/-- A host or TE register access: whole, or one 32-bit half, or another width (R3). -/
inductive Width where
  | full
  | low
  | high
  | other
  deriving DecidableEq, Repr

/-- A die sensor (R406): sensor 0-63 of a leaf, or 0-31 of the hub die. -/
inductive Sensor where
  | leaf (l : Fin 4) (i : Fin 64)
  | hub (i : Fin 32)
  deriving DecidableEq, Repr

/-- What the check bits find on a line that is scrubbed, or in a retained copy that is read (R306, R307, R358). -/
inductive ScrubFind where
  | clean
  | corrected
  | uncorrectable
  deriving DecidableEq, Repr

/-- The 20 bytes that one physical receive lane brings as an alignment marker (R263). -/
structure LaneMarker where
  phys  : Fin 16
  bytes : List Byte
  deriving DecidableEq, Repr

/-- Outcome of a UCIe lane test (R343, R344): failed data lanes by direction, and whether a clock,
valid or track lane failed beyond its redundant lane. -/
structure LaneTest where
  failedTx : List Nat
  failedRx : List Nat
  clockBad : Bool
  deriving DecidableEq, Repr

/-- What each end reports of one UCIe module at the end of the parameter exchange; and, where the reports differ, the lane
test run afresh and the widths that the two ends then propose (R347). -/
structure ModuleReport where
  hub      : Nat
  leaf     : Nat
  again    : LaneTest
  hubNext  : Nat
  leafNext : Nat
  deriving DecidableEq, Repr

/-- An image as FW_WRITE and the ROM judge it (R380): its header's fields and whether the key hash and
the signature verify. -/
structure FwImage where
  magic    : Word32
  stage    : Nat
  body     : Nat
  svn      : Nat
  build    : Word
  keyOk    : Bool
  sigOk    : Bool
  digest   : BitVec 512
  deriving DecidableEq, Repr

/-- What the checks of an image's key hash and signature find, and the digest of its header bytes 0-1,023 and body (R380,
R392). -/
structure ImageCheck where
  keyOk  : Bool
  sigOk  : Bool
  digest : BitVec 512
  deriving DecidableEq, Repr

/-- Physical outcomes of a boot (R386, R388): what each test and training found. -/
structure BootFind where
  /-- what the strap pads hold as PERST_N is released (R16) -/
  straps         : BitVec 7
  channelsFailed : List Nat
  memoryOk       : Bool
  domainsOk      : Bool
  leaves         : List (List LaneTest)
  leafReports    : List (List ModuleReport)
  arraysFailed   : List (Nat × Nat)
  deriving DecidableEq, Repr

/-- An operand of a command, and the soft errors that its fillers' residue checks find. -/
structure Struck (α : Type) where
  arg    : α
  upsets : List Upset
  deriving DecidableEq, Repr

/-- A calibration slot of a port's transmit direction: the unlocked rings whose relock holds (R319, R320). -/
structure CalFind where
  port : PortId
  held : BitVec 16
  deriving DecidableEq, Repr

/-- A received frame: its bytes, the codewords that the decoder has corrected or found uncorrectable since the last
frame, and whether one of the latter holds a byte of the frame (R261, R266). -/
structure RxFrame where
  bytes     : List Byte
  corrected : Nat
  uncorr    : Nat
  bad       : Bool
  deriving DecidableEq, Repr

/-- The commands, one constructor per row of the table of operations and events. -/
inductive Instr where
  | nop (c : CoreId) (o : EngOp Unit)
  | endOp (c : CoreId) (h : Struck Hdr)
  | endFinish (c : CoreId)
  | add (c : CoreId) (h : Hdr) (rd ra : Fin 64) (b : SrcB)
  | sub (c : CoreId) (h : Hdr) (rd ra : Fin 64) (b : SrcB)
  | mul (c : CoreId) (h : Hdr) (rd ra : Fin 64) (b : SrcB)
  | and (c : CoreId) (h : Hdr) (rd ra : Fin 64) (b : SrcB)
  | or (c : CoreId) (h : Hdr) (rd ra : Fin 64) (b : SrcB)
  | xor (c : CoreId) (h : Hdr) (rd ra : Fin 64) (b : SrcB)
  | shl (c : CoreId) (h : Hdr) (rd ra : Fin 64) (b : SrcB)
  | shr (c : CoreId) (h : Hdr) (rd ra : Fin 64) (b : SrcB)
  | sra (c : CoreId) (h : Hdr) (rd ra : Fin 64) (b : SrcB)
  | min (c : CoreId) (h : Hdr) (rd ra : Fin 64) (b : SrcB)
  | max (c : CoreId) (h : Hdr) (rd ra : Fin 64) (b : SrcB)
  | minu (c : CoreId) (h : Hdr) (rd ra : Fin 64) (b : SrcB)
  | maxu (c : CoreId) (h : Hdr) (rd ra : Fin 64) (b : SrcB)
  | li (c : CoreId) (h : Hdr) (rd : Fin 64) (imm : BitVec 25)
  | ld (c : CoreId) (h : Hdr) (rd ra : Fin 64) (imm : BitVec 25) (u : List Upset)
  | st (c : CoreId) (h : Hdr) (rd ra : Fin 64) (imm : BitVec 25)
  | cmpEq (c : CoreId) (h : Hdr) (pd : Fin 8) (ra : Fin 64) (b : SrcC)
  | cmpNe (c : CoreId) (h : Hdr) (pd : Fin 8) (ra : Fin 64) (b : SrcC)
  | cmpLt (c : CoreId) (h : Hdr) (pd : Fin 8) (ra : Fin 64) (b : SrcC)
  | cmpLtu (c : CoreId) (h : Hdr) (pd : Fin 8) (ra : Fin 64) (b : SrcC)
  | cmpGe (c : CoreId) (h : Hdr) (pd : Fin 8) (ra : Fin 64) (b : SrcC)
  | cmpGeu (c : CoreId) (h : Hdr) (pd : Fin 8) (ra : Fin 64) (b : SrcC)
  | pand (c : CoreId) (h : Hdr) (pd pa pb : Fin 8)
  | por (c : CoreId) (h : Hdr) (pd pa pb : Fin 8)
  | pxor (c : CoreId) (h : Hdr) (pd pa pb : Fin 8)
  | pnot (c : CoreId) (h : Hdr) (pd pa : Fin 8)
  | br (c : CoreId) (h : Hdr) (off : BitVec 16)
  | loop (c : CoreId) (h : Hdr) (ra : Fin 64) (off : BitVec 16)
  | jr (c : CoreId) (h : Hdr) (ra : Fin 64)
  | tdSet (c : CoreId) (h : Hdr) (td : Fin 32) (rx ry : Fin 64)
  | tdSetf (c : CoreId) (h : Hdr) (td : Fin 32) (fsel : Fin 16) (rx : Fin 64)
  | tdSetfi (c : CoreId) (h : Hdr) (td : Fin 32) (fsel : Fin 16) (imm : BitVec 22)
  | tdAddf (c : CoreId) (h : Hdr) (td : Fin 32) (fsel : Fin 16) (imm : BitVec 22)
  | tdGetf (c : CoreId) (h : Hdr) (td : Fin 32) (fsel : Fin 16) (rx : Fin 64)
  | tumAdd (c : CoreId) (o : EngOp FmtG)
  | tumWait (c : CoreId) (o : EngOp FmtG)
  | tumSet (c : CoreId) (o : EngOp FmtG)
  | tumRead (c : CoreId) (h : Hdr) (o : FmtG)
  | tumWaitG (c : CoreId) (h : Hdr) (o : FmtH)
  | tumAlloc (c : CoreId) (h : Hdr) (o : FmtH)
  | tumFree (c : CoreId) (h : Hdr) (o : FmtH)
  | tumAddG (c : CoreId) (o : EngOp FmtH)
  | tumSetG (c : CoreId) (o : EngOp FmtH)
  | tumReadG (c : CoreId) (o : EngOp FmtH)
  | fenceCore (c : CoreId) (h : Hdr)
  | fenceModule (c : CoreId) (h : Hdr)
  | fenceSystem (c : CoreId) (h : Hdr)
  | get (c : CoreId) (o : EngOp FmtI)
  | put (c : CoreId) (o : EngOp FmtI)
  | putSig (c : CoreId) (o : EngOp FmtI)
  | putMc (c : CoreId) (o : EngOp FmtJ)
  | copy (c : CoreId) (o : EngOp FmtK)
  | copyT (c : CoreId) (o : EngOp FmtK)
  | atom (c : CoreId) (o : EngOp FmtL)
  | mmLds (c : CoreId) (o : EngOp FmtM)
  | mm (c : CoreId) (o : EngOp FmtN)
  | mmDrain (c : CoreId) (o : EngOp FmtO)
  | mmFill (c : CoreId) (o : EngOp (BitVec 12))
  | mv (c : CoreId) (o : EngOp FmtS)
  | vld (c : CoreId) (o : EngOp FmtU)
  | vst (c : CoreId) (o : EngOp FmtU)
  | vadd (c : CoreId) (o : EngOp FmtT)
  | vsub (c : CoreId) (o : EngOp FmtT)
  | vmul (c : CoreId) (o : EngOp FmtT)
  | vfma (c : CoreId) (o : EngOp FmtT)
  | vmax (c : CoreId) (o : EngOp FmtT)
  | vmin (c : CoreId) (o : EngOp FmtT)
  | vcvt (c : CoreId) (o : EngOp FmtT)
  | vred (c : CoreId) (o : EngOp FmtT)
  | vfn (c : CoreId) (o : EngOp FmtT)
  | vfnD (c : CoreId) (o : EngOp FmtT)
  | vtload (c : CoreId) (o : EngOp FmtU)
  | vrowNorm (c : CoreId) (o : EngOp FmtW)
  | vrowNormb (c : CoreId) (o : EngOp FmtW)
  | vrowSmax (c : CoreId) (o : EngOp FmtW)
  | vrowSmaxb (c : CoreId) (o : EngOp FmtW)
  | sampSlice (c : CoreId) (o : EngOp FmtX)
  | sampMerge (c : CoreId) (o : EngOp FmtX)
  | sampAccept (c : CoreId) (o : EngOp FmtX)
  | kvNew (c : CoreId) (o : EngOp FmtY)
  | kvFree (c : CoreId) (o : EngOp FmtY)
  | kvExt (c : CoreId) (o : EngOp FmtY)
  | kvPut (c : CoreId) (o : EngOp FmtY)
  | kvGet (c : CoreId) (o : EngOp FmtY)
  | kvDetent (c : CoreId) (o : EngOp FmtY)
  | kvCommit (c : CoreId) (o : EngOp FmtY)
  | kvRollback (c : CoreId) (o : EngOp FmtY)
  | collOpen (c : CoreId) (o : EngOp FmtZ)
  | collPub (c : CoreId) (o : EngOp FmtZ)
  | collGroupAdmit (c : CoreId) (id : Nat)
  | dispatch (c : CoreId) (q : Struck (Fin 9))
  | instructionComplete (c : CoreId) (id : Nat)
  | sequencerWake (c : CoreId)
  | runAheadReadReturn (c : CoreId) (ip : Nat) (u : List Upset)
  | fillerRampDown (c : CoreId) (me : Fin 4) (u : List Upset)
  | arraySelfTest (c : CoreId) (me : Fin 4) (pass : Bool)
  | doorbellTail (q : Fin 64) (width : Nat) (v : Word)
  | doorbellCplHead (q : Fin 64) (width : Nat) (v : Word)
  | commandRead (q : Fin 64) (r : HostRead)
  | cmdNop (q : Fin 64)
  | submit (q : Fin 64) (u : List Upset)
  | kill (q : Fin 64)
  | barrier (q : Fin 64)
  | completionEntryWrite (q : Fin 64)
  | taskPlace (t : Nat) (pick : Option (List CoreId)) (u : List Upset)
  | taskStart (t : Nat)
  | preemptRequest (t : Nat) (pick : Option (List Nat))
  | preemptSave (t : Struck Nat)
  | preemptAbandon (t : Nat)
  | preemptSaveDone (t : Nat) (u : List Upset)
  | taskRestore (t : Nat)
  | taskRestoreDone (t : Nat) (u : List Upset)
  | taskEnd (t : Nat)
  | tumHostAdd (v : Word)
  | parkRetry (c : CoreId) (id : Nat)
  | deadlockSample (t : Nat)
  | deadlockFire (t : Nat)
  | c0TokenRefill
  | cacheFlush
  | cacheFlushDone
  | cacheUnprotect
  | cacheUnprotectDone
  | scrubLine (q : Fin 4) (off : Nat) (f : ScrubFind)
  | refresh (ch : Fin 64) (bank : Fin 16)
  | oscSample (ch : Fin 64) (driftPs corrections : Nat)
  | lmRetrainDone (ch : Fin 64) (pass : Bool)
  | lmRepairDone (ch : Fin 64) (pass : Bool)
  | marginSlice (m : Fin 4) (last : Bool) (pins : List (List Byte))
  | pageMoveDone (i : Nat) (u : List Upset)
  | pageReclaim
  | kvClear
  | kvConfigApply
  | storeSlotGrant
  | collConsumedTimeout (gid seq chunk : Nat)
  | abortTripleExpiry (gid seq : Nat)
  | putPacket (p : Packet)
  | putSigPacket (p : Packet)
  | putMcPacket (p : Packet)
  | getPacket (p : Packet) (u : List Upset)
  | atomPacket (p : Packet) (u : List Upset)
  | tumAddPacket (p : Packet)
  | tumSetPacket (p : Packet)
  | tumReadPacket (p : Packet)
  | kvUpdate (p : Packet)
  | ack (p : Packet)
  | getResp (p : Packet)
  | atomResp (p : Packet)
  | tumResp (p : Packet)
  | mcMiss (p : Packet)
  | collDataPacket (p : Packet)
  | receipt (p : Packet)
  | consumed (p : Packet)
  | resend (p : Packet) (copy : ScrubFind) (u : List Upset)
  | collAbort (p : Packet)
  | done (p : Packet)
  | miss (p : Packet)
  | frameTx (port : PortId)
  | frameRx (port : PortId) (f : RxFrame)
  | markerTx (port : PortId)
  | markerRx (port : PortId) (lanes : List LaneMarker)
  | trainingMarkerRx (port : PortId) (phys : Fin 16) (sync body : List Byte) (adapted : Bool)
  | trainingTimeout (port : PortId)
  | trainingRetry (port : PortId)
  | heartbeat (port : PortId) (module nport state : Nat) (time : Word)
  | vcsel (port : PortId) (vc : Nat)
  | abort (port : PortId) (vc : Nat)
  | syncReq (port : PortId)
  | sync (port : PortId) (counts : List Nat)
  | laneMask (port : PortId) (mask : BitVec 16) (mgen : Nat)
  | laneReq (port : PortId) (lane : Fin 16) (restore : Bool)
  | violation (port : PortId) (code vc recent : Nat)
  | down (port : PortId) (cause : Nat)
  | key (port : PortId) (module nport : Nat) (adapter retry matched : Bool) (key : Word)
  | creditInit (port : PortId) (counts : List Nat)
  | reject (port : PortId) (status module nport : Nat)
  | heartbeatTimeout (port : PortId)
  | keyingRepeat (port : PortId)
  | linkEnterService (port : PortId)
  | linkDown (port : PortId) (cause : Nat)
  | wardExpiry (port : PortId)
  | lkEnableWrite (port : PortId) (enable : Bool)
  | retrain (port : PortId)
  | packetRoute (p : Packet) (arrived : Option PortId)
  | routerHeadTimeout (i : Nat)
  | linkDownNotice (module nport cause : Nat)
  | linkUpNotice (module nport : Nat)
  | recompute
  | tableFlip
  | partitionTimeout
  | declaration (m cause : Nat)
  | padlockSet (m : Nat)
  | jobFatalNotice (job status origin : Nat)
  | holdNotice (tag : Nat)
  | holdNoticeSend
  | requestResend (tag : Nat)
  | requestTimeout (tag : Nat)
  | dedupRowGrant (src : Nat)
  | dedupRowFree (src : Nat)
  | putSigCountExpiry (src sigref : Nat)
  | faultHandle
  | errIrqDeferred
  | moduleFailStop (cause info : Nat)
  | failStopPortsDown
  | fdRejoinModule (m : Fin 4096)
  | fdRejoinAll
  | errRingWrite (v : Word)
  | latchSample (angle : Nat)
  | moduleLeave
  | leavePortsDown
  | padTouch (ms : Nat)
  | connectorRemoved (e : Fin 10)
  | connectorSeated (e : Fin 10)
  | safePowerExit (port : PortId)
  | emitterSample (e : Fin 10) (k : Fin 12) (fade : Nat)
  | spareCheck (e : Fin 10) (k : Fin 12) (fade : Nat)
  | swapStart (e : Fin 10) (k : Fin 12)
  | swapWarmDone (e : Fin 10)
  | swapSwitchDone (e : Fin 10)
  | swapComplete (e : Fin 10)
  | calSlot (f : CalFind)
  | calRestoreTimeout (port : PortId)
  | ringUnlock (port : PortId) (lane : Fin 16)
  | budgetDivide (otherW : Nat)
  | grant (l : Fin 4) (seq watts : Nat) (capDrop : Bool) (time : Word)
  | report (l : Fin 4) (seq request draw temp : Nat) (thermal droop stretched : Bool) (active : BitVec 12)
  | grantTimeout (l : Fin 4)
  | reportTimeout (l : Fin 4)
  | clockAdjust (l : Fin 4) (est : List Nat)
  | droop (c : Option CoreId) (quarterCycles : Nat)
  | droopRelease (c : Option CoreId)
  | thermalSample (x : Sensor) (temp : Int)
  | capWrite (watts : BitVec 12)
  | inputLow (volt10mV : Nat)
  | inputUndervoltage
  | inputHigh (volt10mV : Nat)
  | inputOvervoltage
  | powerRestore
  | prsntMate
  | softStartDone
  | prsntBreak
  | ibcFail (i : Fin 2)
  | refclkLoss
  | corePairOff (l : Fin 4) (j : Fin 6)
  | corePairOn (l : Fin 4) (j : Fin 6)
  | corePairOnDone (l : Fin 4) (j : Fin 6)
  | timeSync (offsetPs : Int)
  | flitRetry (l : Fin 4) (m : Fin 32)
  | ucieRetrainDone (l : Fin 4) (m : Fin 32) (t : LaneTest)
  | leafLinkTrain (l : Fin 4) (t : List LaneTest) (r : List ModuleReport)
  | partialReset (l : Fin 4)
  | partialResetDone (l : Fin 4)
  | boot (img : List FwImage) (f : BootFind)
  | bootTimeout
  | perstAssert
  | moduleReset
  | powerOn (volt10mV : Nat)
  | functionReset
  | msixUnmask (v : Fin 64)
  | bar2Access (off : Nat) (wr : Option (List Byte)) (len : Nat) (en : List Bool) (u : List Upset)
  | registerWrite (off : Nat) (w : Width) (v : Word)
  | watchdogExpiry (core : Fin 4)
  | mbxNop (m : Fin 4)
  | lmMargin (m : Fin 4)
  | cfgWrite (m : Fin 4) (flashOk : Bool)
  | cfgRead (m : Fin 4)
  | fwWrite (m : Fin 4) (chk : ImageCheck) (flashOk : Bool)
  | fwSelect (m : Fin 4) (flashOk : Bool)
  | fwCommit (m : Fin 4) (fuseOk : Bool)
  | logRead (m : Fin 4)
  | atbMeasure (m : Fin 4) (codes : List Nat) (value : BitVec 16)
  | serdesEye (m : Fin 4) (eyes : List Byte)
  | ucieMargin (m : Fin 4)
  | optLoopback (m : Fin 4) (errors : Nat)
  | mailboxComplete (m : Fin 4)
  | entdaa (addr : BitVec 7)
  | setdasa (addr : BitVec 7)
  | rstdaa
  | getpid
  | getbcr
  | getdcr
  | getstatus
  | enec
  | disec
  | i3cIndexWrite (index : Byte)
  | beaconToggle
  | ctlModuleReset
  | ibiRetry (accepted : Bool)
  | fruRead (off : Fin 8192)
  | getVersion
  | getCapabilities (version : Byte)
  | negotiateAlgorithms (version : Byte) (asym hash : Word32)
  | getDigests (version : Byte)
  | getCertificate (version slot : Byte) (off len : Nat)
  | challenge (version slot : Byte) (nonce : BitVec 256)
  | getMeasurements (version : Byte) (op : Byte) (nonce : BitVec 256) (signed : Bool)
  | doeDiscovery (index : Byte)
  | leafManagerUncorrectableError (l : Fin 4)
  | kvClearDone
  | controlCoreException (core : Fin 4)
  | testModeNChange (low : Bool)
  | idcode (die : Fin 5)
  | samplePreload (die : Fin 5) (v : List Bool)
  | extest (die : Fin 5) (v : List Bool)
  | clamp (die : Fin 5)
  | highz (die : Fin 5)
  | ijtag (die : Fin 5)
  | bypass (die : Fin 5) (opcode : Byte)
  | inputOperating (volt10mV : Nat)
  | lossOfSignal (port : PortId) (lane : Fin 16)
  | signalDetect (port : PortId) (lane : Fin 16)
  | ucieMarginSlice (m : Fin 4) (last : Bool) (res : List Byte)
  | jobFatalIgnoreExpiry (job : Nat)
  deriving DecidableEq, Repr

end Sys2Proof
end

