-- ==== Sys2Proof/Config.lean ====
section
/-! DEFINITION. What one SY7-M60 fixes and its manual leaves open: constants without a body.  No proof
can see their values, so a claim holds whatever they are. -/

namespace Sys2Proof.Config

/-- Bytes that memory holds where the manual says its contents are unspecified (R65, R230, R399):
byte `a` of generation `g` of such contents. -/
opaque junkByte : Nat → Nat → BitVec 8

/-- FP32 elements that an accumulator holds where the manual says they are unspecified (R139). -/
opaque junkWord : Nat → Nat → BitVec 32

/-- The n-th free 64-bit value: what an unspecified result holds, fresh at each use. -/
opaque freeValue : Nat → BitVec 64

/-- The draw of the VE's stochastic rounding generator (R36): its sequence is not architectural. -/
opaque stochastic : Nat → BitVec 16

/-- The value a built-in function table gives, where it lies within the bound of R148: part 0 is the
forward part and part 1 the derivative part of the slot. -/
opaque builtin : Nat → Nat → BitVec 32 → BitVec 32

/-- The value the MVE's own summation order gives, where it lies within the bound of R39 (R109). -/
opaque mveSum : Nat → BitVec 32

/-- Which entry a draw takes where rounding leaves no running sum above it (R115, R116, R213). -/
opaque samplePick : BitVec 32 → List (BitVec 32 × BitVec 32) → Nat

/-- The cache set of a line (R161, R165): not architectural. -/
opaque cacheSet : Nat → Nat

/-- The row of a channel in which an LM line lies (R363, R165): not architectural. -/
opaque lmRow : Nat → Nat

/-- Does the table entry of a sequence, or of the i-th allocated page, hold a byte of the table region from the first
offset up to the second (R203)?  The layout of the region is not architectural. -/
opaque kvSeqHit : Nat → Nat → Nat → Bool
opaque kvPageHit : Nat → Nat → Nat → Bool

/-- Which of several minimal first hops the firmware's table computation takes (R256). -/
opaque routeChoice : Nat → Nat → Nat

/-- Bytes per core of a pre-emption save beyond the live SP ranges: registers, queues and the rest of R68 and
R108, whose layout in the save area the manual does not give (R228, R230); less than 2 MiB, which holds all of that
state (1 MiB of accumulators, 384 KiB of stationary slots, 64 KiB of tables, 32 KiB of vector registers, the queues and
the small registers). -/
opaque saveExtra : Fin 0x200000

/-- Where sensor i of leaf l lies (R406): core pair 0-5, or 6 for the leaf network. -/
opaque sensorPair : Nat → Nat → Nat

/-- What the input sensors find at a clock: power (field 0), current (32) and efficiency (48) of POW_INPUT (R410). -/
opaque inputReading : Nat → Nat → BitVec 16

/-- State of the PRBS31 generator of a port's lane at its first training block (R265). -/
opaque prbsSeed : Nat → Nat → BitVec 31

/-- How the PCI Express link trains with the host port (R368, R393): rate Gen1-Gen6 less 1, lanes as a power of 2, Flit mode. -/
opaque hostLink : Nat → Fin 6 × Fin 3 × Bool

/-- Osinmon's PCI-SIG vendor identifier (R18). -/
opaque vendorId : BitVec 16

/-- What manufacture writes into the FRU memory (R17): the maker's name and the serial number, each a length and bytes, and
the date, in minutes since the start of 1996. -/
opaque fruMaker : Fin 33 × (Nat → BitVec 8)
opaque fruSerial : Fin 33 × (Nat → BitVec 8)
opaque fruDate : BitVec 24

/-- Osinmon's JEDEC manufacturer code (R437). -/
opaque jedecId : BitVec 11

/-- The 48-bit I3C provisioned ID, the BCR and the DCR of the target (R374). -/
opaque i3cPid : BitVec 48
opaque i3cBcr : BitVec 8
opaque i3cDcr : BitVec 8

/-- The signature that the device identity key makes over a transcript (R391). -/
opaque deviceSign : List (BitVec 8) → List (BitVec 8)

/-- The SHA-512 digest function of R380 and R392. -/
opaque sha512 : List (BitVec 8) → BitVec 512

/-- The digest of the boot ROM, which no manual prints (R392). -/
opaque romDigest : BitVec 512

/-- The type byte of measurement block i in DMTF measurement format (R392). -/
opaque measType : Nat → BitVec 8

/-- The bytes of an SPDM message that DSP0274 defines and this manual does not repeat: a message code and the contents
that the manual gives the message (R391). -/
opaque spdmMsg : Nat → List (BitVec 8) → List (BitVec 8)

end Sys2Proof.Config
end

