-- ==== Sys2Proof/Machine/State.lean ====
section
/-! DEFINITION. The state of one SY7-M60 as plain data, the reasons a step can stop, and the state
after reset.  Every BAR0 register has its home in `regs`, under its offset, unless the line of another
field says that the register is a view of that field. -/

namespace Sys2Proof.Machine

/-- A sparse table in one canonical form: keys strictly rising. -/
abbrev Tab (α : Type) := List (Nat × α)

/-- A byte memory: the listed bytes, the generation of unspecified contents that every other byte has
(generation 0 means that an unlisted byte reads 0), and zones of unspecified contents: first byte, bytes and
generation, the newest first. -/
structure Mem where
  cells : List Host.Cell
  junk  : Nat
  zones : List (Nat × Nat × Nat)
  deriving DecidableEq, Repr

/-- An exact value: a NaN, an infinity, or (−1)^neg × m × 2^e. -/
inductive Num where
  | nan
  | inf (neg : Bool)
  | fin (neg : Bool) (m : Nat) (e : Int)
  deriving DecidableEq, Repr

/-- A tile descriptor as captured at issue (R46, R47). -/
abbrev TileWord := BitVec 128

/-- An engine instruction with the operand values that the sequencer copied at issue (R46). -/
inductive EInst where
  | nop
  | tumAdd (tn : Nat) (n : Int) (scope : Nat)
  | tumWait (tn n scope : Nat) (consume : Bool)
  | tumSet (tn : Nat) (v : Word32)
  | tumAddG (ta : Word) (n : Int) (scope cls : Nat)
  | tumSetG (ta : Word) (v : Word32) (cls : Nat)
  | tumReadG (ta rb : Word) (cls : Nat)
  | get (td : TileWord) (ra rb : Word) (cls hint : Nat)
  | put (td : TileWord) (ra rb : Word) (cls hint : Nat) (log : Bool)
  | putSig (td : TileWord) (ra rb rc : Word) (cls hint scope : Nat) (log : Bool)
  | putMc (td : TileWord) (ra rb rc rd : Word) (cls hint : Nat)
  | copy (td ts : TileWord)
  | copyT (td ts : TileWord)
  | atom (ra rb rc rd : Word) (scope cls : Nat) (w64 nr : Bool) (aop : Nat)
  | mmLds (ts : TileWord) (rk rn : Word) (shape sslot : Nat) (trans : Bool)
  | mm (ts : TileWord) (rk : Word) (sslot : Nat) (acc : Bool)
  | mmDrain (td : TileWord) (ra : Word) (h : Nat) (add pub : Bool)
  | mmFill (n : Nat)
  | mv (td ts tx : TileWord) (acc : Bool)
  | vld (vd : Nat) (ts : TileWord) (ra rb : Word) (ty : Bool)
  | vst (vd : Nat) (ts : TileWord) (ra rb : Word) (ty sr : Bool)
  | velem (f : Nat) (vd va vb vc : Nat) (rs : Option Word32) (ty sr : Bool)
  | vcvt (vd va mode : Nat) (sr : Bool)
  | vred (vd va mode : Nat) (ty sr : Bool)
  | vfn (vd va tbl : Nat) (deriv ty sr : Bool)
  | vtload (n : Nat) (ts : TileWord)
  | vrow (kind : Nat) (td ts tx tg : TileWord) (ra rb : Word) (mode : Nat)
  | sampSlice (ts : TileWord) (rb rc rd : Word)
  | sampMerge (ts : TileWord) (ra rb rc rd : Word)
  | sampAccept (ts tq : TileWord) (ra rb rc rd : Word)
  | kvNew (ra rb : Word)
  | kvFree (ra : Word)
  | kvExt (ra rb rc : Word) (try_ : Bool)
  | kvPut (ts : TileWord) (ra rb rc : Word)
  | kvGet (td : TileWord) (ra rb rc rd : Word)
  | kvDetent (ra : Word)
  | kvCommit (ra rb rc rd : Word) (mc : Bool)
  | kvRollback (ra rc rd : Word) (mc : Bool)
  | collOpen (td : TileWord) (ra rb : Word) (h : Nat)
  | collPub (ts : TileWord) (ra : Word) (h : Nat)
  deriving DecidableEq, Repr

/-- Where an issued instruction stands: queued, dispatched, under way with packets or results
outstanding, or completed with a status and about to retire (R57, R59). -/
inductive Phase where
  | queued
  | dispatched
  | waiting
  | done (status : Nat)
  deriving DecidableEq, Repr

/-- An instruction of the window (R59): its queue entry with the captured operands and the fields of its
words. -/
structure Entry where
  id     : Nat
  ip     : Nat
  q      : Nat
  dw     : Nat
  cs     : Nat
  slotEn : Bool
  slot   : Nat
  inc    : Nat
  uses   : Nat
  sat    : Bool
  word   : Word
  op     : EInst
  phase  : Phase
  /-- outstanding packets of the instruction -/
  left   : Nat
  /-- first status other than OK that a part of the instruction met -/
  bad    : Nat
  /-- cause, address and INFO0 of the record that its task-fatal status logs (R413) -/
  cause  : Nat
  addr   : Word
  info   : Word
  /-- a packet of it has been sent (R417) -/
  sent   : Bool
  /-- missed destinations of a multicast so far, 64 in-rack masks by rack (R95, R311) -/
  missed : Tab Word
  /-- rack time at issue (R432) -/
  time   : Word
  /-- SIGREF of a PUT.SIG whose packet with the signal is withheld until its release (R91) -/
  sigDue : Option Nat
  /-- every packet is answered, and a copy of one sent again may still land (R418): completes with `bad` later -/
  late   : Bool
  /-- 8-byte words of the destination that have landed before the instruction runs (R169, R170, R174) -/
  landed : List Nat
  deriving DecidableEq, Repr

/-- What a stalled sequencer waits for (R53), with the words of the instruction that waits. -/
inductive Stall where
  | dispatchWait (n : Nat)
  | tum (tn n scope : Nat) (consume : Bool) (words : Nat)
  | hub (h n scope : Nat) (consume : Bool) (words : Nat)
  | fence (scope words : Nat)
  | queueFull (q : Nat)
  | windowFull
  | ending
  deriving DecidableEq, Repr

/-- A pre-issued read (R61-R63). -/
structure PreRead where
  pid    : Nat
  ip     : Nat
  td     : TileWord
  ra     : Word
  rb     : Word
  hint   : Nat
  cls    : Nat
  uses   : Nat
  /-- packets of a read from another module that are still to be answered -/
  left   : Nat
  /-- first status other than OK that a packet of it met -/
  bad    : Nat
  /-- the data that has returned: SP offset and bytes -/
  parts  : List (Nat × List Byte)
  /-- the read's status, once all of it has returned -/
  data   : Option Nat
  /-- a write of this core overlapped its source meanwhile -/
  dirty  : Bool
  /-- a fence or an acquire covering the source has passed -/
  stale  : Bool
  /-- the issued instruction that has kept the read while its data is on the way -/
  bound  : Option Nat
  deriving DecidableEq, Repr

/-- A stationary slot (R102): its shape, whether it has been loaded in this task, the format that sets
its rate, and its elements, keyed k × Ns + n, each 16 bits of code below 8 bits of block scale. -/
structure Slot where
  shape  : Nat
  loaded : Bool
  fmt    : Nat
  elems  : Tab (BitVec 24)
  deriving DecidableEq, Repr

/-- An accumulator (R45, R103): FP32 elements by flat index, the shape of the last MM, and the chunk
left open under R104: its products' sums are exact dyadic numbers, by flat index. -/
structure Acc where
  cells  : Tab Word32
  junk   : Nat
  rows   : Nat
  cols   : Nat
  row0   : Nat
  /-- next k0 that continues the open chunk (R104) -/
  openK  : Option Nat
  /-- products of the open chunk by flat index, and the length of the row they fill -/
  chunk  : Tab (List Num)
  openN  : Nat
  /-- the task has written the accumulator -/
  written : Bool
  deriving DecidableEq, Repr

/-- The current filler of one array (R135-R138): running since a clock, the slot and the rows it repeats. -/
structure Filler where
  running  : Bool
  since    : Nat
  slot     : Nat
  /-- the array has streamed an MM in the task -/
  streamed : Bool
  /-- rows retained: the last r rows streamed -/
  rows     : Nat
  deriving DecidableEq, Repr

/-- A core (R45, R69, R102, R138, R151). -/
structure Core where
  /-- scalar registers s0-s63, 64 bits each (R45) -/
  sreg    : Tab Word
  /-- predicates p0-p7 (R45) -/
  preg    : BitVec 8
  /-- tile descriptors t0-t31, 128 bits each (R45, R47) -/
  treg    : Tab TileWord
  /-- vector registers v0-v31, byte b of register r at r × 1,024 + b (R45) -/
  vreg    : Mem
  /-- accumulators c0-c3 (R45) -/
  acc     : Vector Acc 4
  /-- stationary slots: slot s of MEi at 2i + s (R102) -/
  slots   : Vector Slot 8
  /-- FILL_MAX of each engine (R107, R138) -/
  fillMax : Vector Nat 4
  /-- current fillers (R135) -/
  filler  : Vector Filler 4
  /-- instruction pointer: word index (R45) -/
  ip      : Nat
  /-- local tumblers lt0-lt255, 32 bits each (R45, R180) -/
  lt      : Tab Word32
  /-- start values of the local tumblers in the task (R65, R191) -/
  ltStart : Tab Word32
  /-- scratchpad, 40 MiB (R45) -/
  sp      : Mem
  /-- uncorrectable 64-bit words of SP (R422) -/
  spBad   : List Nat
  /-- instruction buffer, 32,768 words (R50) -/
  ibuf    : Tab Word
  /-- window: queued and dispatched instructions in issue order (R52, R59) -/
  window  : List Entry
  /-- number of the next instruction issued -/
  nextId  : Nat
  /-- CORE_STATUS.STATE: 0 idle, 1 running, 2 stopped, 3 pre-empted (R69) -/
  state   : Nat
  /-- END has been executed and the core waits for its instructions (R66) -/
  ending  : Bool
  /-- CORE_STATUS.FINISHED (R67) -/
  finished : Bool
  /-- issue stopped by the scheduler for a pre-emption (R229) -/
  draining : Bool
  /-- CORE_STATUS.LAST_STATUS (R69) -/
  lastStatus : Nat
  /-- what the sequencer is stalled on (R53) -/
  stall   : Option Stall
  /-- the dispatch wait of the queue-0 instruction at ip has been consumed (R53) -/
  dwTaken : Bool
  /-- pre-issued reads of the run-ahead buffer (R61-R63) -/
  preRead : List PreRead
  /-- bit i: array MEi enabled (R140) -/
  arrays  : BitVec 4
  /-- clocks of the last two check failures of each array, newest first, for the 24 h of R140 -/
  fails   : Vector (List Nat) 4
  /-- arrays whose self-test is owed before the next task (R140) -/
  owed    : BitVec 4
  /-- VE table slots 8-15: byte b of slot n at n × 8,192 + b, and which are loaded (R149-R151) -/
  vtab    : Mem
  vtabLoaded : BitVec 16
  /-- collective handles h0-h7: GID and SEQ of the collective open on each (R120) -/
  handles : Vector (Option (Nat × Nat)) 8
  /-- the task running on the core, 0 for none (R197) -/
  task    : Nat
  deriving DecidableEq, Repr

/-- A program image's header and records as accepted (R221). -/
structure Image where
  at_    : Word
  text   : Nat
  entry  : Nat
  nLoad  : Nat
  nLive  : Nat
  nTum   : Nat
  textAt : Nat
  loadAt : Nat
  liveAt : Nat
  tumAt  : Nat
  live   : List (Nat × Nat)
  loads  : List (Nat × Nat × Nat)
  tums   : List (Nat × Word32)
  deriving DecidableEq, Repr

/-- The send log of a core beyond its registers (R432): where the next entry goes in the ring, and the entries in
it, the oldest first: SEQ, offset in the ring, bytes. -/
structure SendLog where
  pos     : Nat
  entries : List (Nat × Nat × Nat)
  deriving DecidableEq, Repr

/-- Where a task stands (R224-R232). -/
inductive TaskState where
  | pending
  | loading
  | running
  | draining
  | saving
  | preempted
  | restoring
  | ended
  deriving DecidableEq, Repr

/-- A task accepted and not yet released (R220-R232). -/
structure Task where
  num     : Nat
  queue   : Nat
  tag     : Nat
  cls     : Nat
  ordered : Bool
  fourMe  : Bool
  leafAff : Bool
  leafMask : BitVec 4
  coresN  : Nat
  image   : Image
  arg     : Word
  hmKib   : Nat
  lmMib   : Nat
  job     : Nat
  seq     : Nat
  /-- sequence number in its queue, for ORDERED and BARRIER -/
  qseq    : Nat
  state   : TaskState
  cores   : List Nat
  started : Nat
  /-- first task-fatal status, its core and IP (R232) -/
  fatal   : Option (Nat × Nat × Nat)
  /-- originating status of a job-fatal fault (R428) -/
  jobFatal : Option Nat
  killed  : Bool
  /-- first non-fatal status other than OK (R218) -/
  nonFatal : Nat
  /-- modules from which requests carrying the JOB have arrived (R425) -/
  peers   : List Nat
  /-- saved cores of a pre-empted task, and where its save lies in LM (R230, R231) -/
  saved   : List (Nat × Core)
  saveAt  : Nat
  /-- stalled samples of the deadlock detector in a row (R194) -/
  stalled : Nat
  /-- dispatched work abandoned at a job-fatal fault or KILL (R417) -/
  abandoned : Bool
  /-- a read of the image failed while it was copied (R226) -/
  loadBad : Bool
  deriving DecidableEq, Repr

/-- A completion entry not yet written (R218). -/
structure Cpl where
  tag    : Nat
  status : Nat
  flags  : Nat
  task   : Nat
  core   : Nat
  nonFatal : Nat
  ip     : Nat
  deriving DecidableEq, Repr

/-- A host command accepted and not yet applied, or outstanding (R217, R219). -/
structure HostCmd where
  seq   : Nat
  bytes : List Byte
  deriving DecidableEq, Repr

/-- A command queue beyond its registers: the RING and CPL fields latched when ENABLE went from 0 to 1,
the command just accepted, those not yet completed, and the entries that wait (R217, R218, R239). -/
structure Queue where
  ring     : Word
  cpl      : Word
  cplHead  : Nat
  accepted : Option HostCmd
  nextSeq  : Nat
  /-- sequence numbers and tags of commands accepted and not complete -/
  open_    : List Nat
  /-- a BARRIER outstanding: its sequence number and tag -/
  barrier  : Option (Nat × Nat)
  /-- KILLs outstanding: sequence number, tag and tasks awaited -/
  kills    : List (Nat × Nat × List Nat)
  waiting  : List Cpl
  deriving DecidableEq, Repr

/-- What the module sends to the host: reads of command slots, and what it writes and answers (R217, R218, R371,
R372). -/
inductive HostMsg where
  | fetch (at_ : Word) (bytes : Nat)
  | cpl (at_ : Word) (bytes : List Byte)
  | msix (v : Nat) (at_ : Word) (data : Word32)
  | read (bytes : List Byte) (poisoned : Bool)
  deriving DecidableEq, Repr

/-- What the module answers on the management bus, over DOE, or on the TAP (R374, R375, R391, R437), and the GRANT
messages of the hub (R351). -/
inductive SideMsg where
  | i3c (bytes : List Byte)
  | ibi (b : Byte)
  | fru (b : Byte)
  | spdm (bytes : List Byte)
  | doe (bytes : List Byte)
  | tap (die : Nat) (bits : List Bool)
  | grant (l : Nat) (bytes : List Byte)
  deriving DecidableEq, Repr

/-- An allocation of hub tumblers (R86, R181). -/
structure Alloc where
  first : Nat
  len   : Nat
  task  : Nat
  deriving DecidableEq, Repr

/-- A TUM.WAIT.G waiter registered with the hub (R185). -/
structure Waiter where
  tum     : Nat
  core    : Nat
  n       : Nat
  consume : Bool
  /-- the hub has satisfied it and its wake message is on the way -/
  woken   : Bool
  deriving DecidableEq, Repr

/-- Who issued an operation on a tumbler or an atomic: nobody, an instruction of this module, or a
request of another module, named by its reply. -/
inductive Issuer where
  | none
  | local_ (core id : Nat)
  | remote (src tag cls : Nat)
  deriving DecidableEq, Repr

/-- An operation on one tumbler (R81, R94). -/
inductive TumOp where
  | add (n : Int)
  | set (v : Word32)
  | read
  | atom (aop : Nat) (b c : Word)
  deriving DecidableEq, Repr

/-- An operation parked for a pre-empted task (R188). -/
structure Parked where
  core   : Nat
  tum    : Nat
  task   : Nat
  op     : TumOp
  issuer : Issuer
  sender : Nat
  opid   : Option Word32
  deriving DecidableEq, Repr

/-- A line of the hub cache (R159-R162); the list of lines runs from the most to the least recently used. -/
structure CLine where
  line   : Nat
  data   : List Byte
  dirty  : Bool
  prot   : Bool
  /-- target of DISCARD_AFTER and the count so far -/
  disc   : Option (Nat × Nat)
  poison : Bool
  /-- present when the flush under way started (R179) -/
  flush  : Bool
  deriving DecidableEq, Repr

/-- A request packet in flight, with what its reply will do (R418). -/
structure Txn where
  tag    : Nat
  core   : Nat
  id     : Nat
  pkt    : Packet
  /-- SP bytes that a GET's reply fills, in order of the payload -/
  dest   : List (Nat × Nat)
  charge : Nat
  first  : Nat
  last   : Nat
  resent : Bool
  /-- pre-issued read that the request belongs to -/
  pre    : Option Nat
  /-- held at its source by the window of R282 or for a C0 token (R235) -/
  held   : Bool
  /-- its bytes have been charged to the window (R282) -/
  paid   : Bool
  /-- destinations of a multicast copy not yet answered (R177) -/
  mcLeft : List Nat
  /-- when it was first sent, or its last hold notice came (R421, R424) -/
  heard  : Nat
  /-- SP bytes that its payload is read from again when it is sent again (R418) -/
  source : List (Nat × Nat)
  /-- answered, but sent again before: the entry is not reused until 4 ms after its first send (R418) -/
  spent  : Bool
  deriving DecidableEq, Repr

/-- A row of the dedup store (R419). -/
structure DRow where
  src  : Nat
  ids  : List (Word32 × Nat × Word)
  last : Nat
  deriving DecidableEq, Repr

/-- A byte count of a PUT.SIG at its destination (R280, R420). -/
structure SigCount where
  src    : Nat
  sigref : Nat
  landed : Nat
  tags   : List Nat
  sig    : Option (Word32 × Nat × Nat × Nat)
  job    : Nat
  last   : Nat
  deriving DecidableEq, Repr

/-- A request that this module holds for another (R424). -/
structure HeldReq where
  src  : Nat
  tag  : Nat
  pkt  : Packet
  deriving DecidableEq, Repr

/-- A fault as the error queue holds it (R412, R416). -/
structure Fault_ where
  sev    : Nat
  status : Nat
  cause  : Nat
  core   : Nat
  unit   : Nat
  task   : Nat
  job    : Nat
  ip     : Nat
  replace : Bool
  nested : Bool
  addr   : Word
  info0  : Word
  info1  : Word
  other  : Nat
  oport  : Nat
  time   : Word
  deriving DecidableEq, Repr

/-- A sequence of the KV page manager (R198, R208). -/
structure KvSeq where
  geom    : Nat
  policy  : Nat
  len     : Nat
  detent  : Option (Nat × Word)
  epoch   : BitVec 16
  key     : BitVec 128
  counter : Word
  deriving DecidableEq, Repr

/-- A page of a sequence: block, layer group, where it lies, its scales and which are set
(R199, R202). -/
structure KvPage where
  seq    : Nat
  block  : Nat
  group  : Nat
  pool   : Nat
  index  : Nat
  scales : Tab Word32
  /-- a move under way to this page of this pool, and that a move found no free page: it is tried again at the next
  extension (R206) -/
  move   : Option (Nat × Nat)
  stuck  : Bool
  deriving DecidableEq, Repr

/-- A handle that a member core has open on a collective: its instruction, its result tile, and the chunks
written into it. -/
structure CollOpen where
  core   : Nat
  id     : Nat
  handle : Nat
  td     : TileWord
  got    : List Nat
  fin    : Bool
  deriving DecidableEq, Repr

/-- Elements that a core has published: its tile, the first element and their number (R121, R303). -/
structure CollPub where
  core   : Nat
  handle : Nat
  ts     : TileWord
  first  : Nat
  num    : Nat
  deriving DecidableEq, Repr

/-- A collective on the module, from the first COLL.OPEN until its last duty is done (R292-R308). -/
structure Coll where
  gid    : Nat
  seq    : Nat
  kind   : Nat
  op     : Nat
  typ    : Nat
  count  : Nat
  /-- descriptor bytes 0-63 as read when the first handle was registered, and where they lie in HM -/
  desc   : List Byte
  descAt : Nat
  digest : Word32
  job    : Nat
  opens  : List CollOpen
  pubs   : List CollPub
  /-- chunks to which this module's contribution has been taken -/
  sent   : List Nat
  /-- result packets received so far, by chunk (R301, R306) -/
  recv   : List (Nat × Nat × List Byte)
  /-- results held whole, for cores that have not all written them yet -/
  full   : List (Nat × List Byte)
  /-- chunks whose CONSUMED has been sent, and whose DONE has arrived (R306) -/
  used   : List Nat
  dones  : List Nat
  /-- generation of a chunk (R307) -/
  gens   : Tab Nat
  /-- missed members of a broadcast (R311) -/
  missed : Tab Word
  /-- the group's status bytes have counted its end -/
  counted : Bool
  deriving DecidableEq, Repr

/-- A slot of the reduction store: one chunk of one collective (R300, R306). -/
structure CSlot where
  gid    : Nat
  seq    : Nat
  chunk  : Nat
  /-- inputs in their order of arrival: source, packet index, payload (R301) -/
  inputs : List (Nat × Nat × List Byte)
  /-- output of the stage, retained -/
  out    : Option (List Byte)
  /-- the output is the chunk's final result; the clock of its release -/
  final  : Option Nat
  /-- member modules that have sent CONSUMED -/
  consumed : List Nat
  /-- inputs held for a collective not yet open on the module -/
  held   : List Packet
  deriving DecidableEq, Repr

/-- An aborted collective, kept for 1 s (R305), with what forwarding its ABORT takes. -/
structure Aborted where
  coll   : Coll
  status : Nat
  passed : Bool
  deriving DecidableEq, Repr

/-- A packet, or a copy of one, that the router holds, with the port by which it came (R246). -/
structure Held where
  pkt     : Packet
  arrived : Option Nat
  /-- receive-buffer record of the port whose flits the copy still needs; 0 for none (R246, R272) -/
  buf     : Nat
  /-- payload flits still to come: they are forwarded as they arrive (R274) -/
  due     : Nat
  /-- its header has been looked up -/
  started : Bool
  deriving DecidableEq, Repr

/-- A packet in a port's receive buffer (R268, R272): its channel, its flits, those received and those freed.  It is in
progress while flits of it are due. -/
structure RxPkt where
  id    : Nat
  vc    : Nat
  /-- its header, where it was not refused -/
  pkt   : Option Packet
  total : Nat
  got   : Nat
  freed : Nat
  deriving DecidableEq, Repr

/-- A packet that has begun to leave a port (R268, R274): its channel, the payload flits at hand, those still to come,
the buffer that it came from, and its flits sent. -/
structure TxPkt where
  vc      : Nat
  flits   : List (List Byte)
  due     : Nat
  arrived : Option Nat
  buf     : Nat
  sent    : Nat
  deriving DecidableEq, Repr

/-- A block that a lane sends outside the codewords: an alignment marker (R263), or a training block of which `block`
counts those before it (R265). -/
inductive LaneBlock where
  | align (lane mgen : Nat) (mask : BitVec 16) (cwc : Word32)
  | train (lane stage : Nat) (rxReady : BitVec 16) (block : Nat)
  deriving DecidableEq, Repr

/-- One direction-independent port record beyond the LK registers (R260-R288, R320-R327). -/
structure Port where
  /-- receive lanes with signal detect (R285, R327) -/
  signal   : BitVec 16
  /-- receive lanes adapted; STAGE sent; partner's STAGE and RX_READY (R265) -/
  adapted  : BitVec 16
  stage    : Nat
  pStage   : Nat
  pReady   : BitVec 16
  restarts : Nat
  framed   : Bool
  /-- passing frames in a row toward frame lock (R265) -/
  goodRun  : Nat
  /-- lanes with alignment-marker lock and bad markers in a row (R263) -/
  mLock    : BitVec 16
  mBad     : Tab Nat
  /-- keying (R283) -/
  matched  : Bool
  pMatch   : Bool
  rejected : Bool
  pState   : Nat
  lastBeat : Nat
  beats    : Bool
  clean    : Option Nat
  /-- credits (R272): initial at the partner, sent and freed on each channel, last reports -/
  initCr   : Tab Nat
  avail    : Tab Nat
  sentFl   : Tab Nat
  report   : Tab Nat
  freed    : Tab Nat
  rxCount  : Tab Nat
  /-- sequence numbers and replay (R269) -/
  nextSeq  : Nat
  expSeq   : Nat
  ackOut   : Nat
  nakOut   : Bool
  replay   : List (Frame × Nat)
  resend   : List Frame
  nakSeen  : Option Nat
  /-- receive: selected channel, packets in the buffers (R268, R272) -/
  rxSel    : Nat
  rxProg   : List RxPkt
  /-- transmit: selected channel, packets waiting by channel (as they will leave, and as the router held
  them), packet in progress by channel -/
  txSel    : Nat
  txq      : List (Nat × Packet × Held)
  txProg   : List TxPkt
  linkq    : List LinkFlit
  /-- lane-mask change announced (R264) and requests pending -/
  newMask  : Option (BitVec 16)
  /-- mask that the partner has announced for its direction -/
  rxNext   : Option (BitVec 16)
  mgen     : Nat
  markers  : Nat
  cwc      : Word32
  laneReqs : List (Nat × Bool)
  /-- lane out for calibration, lanes left out for good, relock attempts (R319, R320, R324) -/
  calLane  : Option Nat
  outLanes : BitVec 16
  unlocked : Tab Nat
  /-- clocks of discarded frames and violations in the last 1 ms (R285, R288) -/
  discards : List Nat
  viols    : List Nat
  /-- frames and flits that left the port -/
  wire     : List Frame
  /-- alignment markers and training blocks that left (R263, R265) -/
  marks    : List LaneBlock
  /-- logical lane that each physical receive lane last named, where it is not its own number (R263) -/
  laneOf   : Tab Nat
  /-- training blocks sent on each lane since the port's last down (R265) -/
  blocks   : Nat
  /-- weighted round robin of C1-C3 (R233): the class served last and its slots in the turn; transit flits among the last
  255 slots in which other flits waited (R254) -/
  rr       : Nat × Nat
  transit  : List Bool
  groups   : List (Nat × Nat)
  /-- clocks of the last HEARTBEAT and the last KEY sent -/
  beatAt   : Option Nat
  keyAt    : Option Nat
  /-- bytes charged by an edge adapter toward each destination, and the destination of its request of each TAG (R282) -/
  edgeWin  : Tab Nat
  edgeTag  : Tab Nat
  /-- credit reports (R272): channel that the next one starts from, count last reported, frames since the last report -/
  crNext   : Nat
  crSent   : Tab Nat
  crAge    : Tab Nat
  /-- clock of the last down, for the 10 µs of DOWN flits, and its cause (R271) -/
  downAt   : Option (Nat × Nat)
  /-- loopback holds the port (R443) -/
  loop     : Bool
  /-- mailbox whose eye scan runs on the port (R440) -/
  eye      : Option Nat
  deriving DecidableEq, Repr

/-- A table computation under way (R256). -/
structure Compute where
  start : Nat
  all   : Bool
  deriving DecidableEq, Repr

/-- An optical engine beyond its registers (R319-R325). -/
structure Engine where
  seated  : Bool
  /-- last samples of each emitter's fade, newest first (R322) -/
  fades   : Tab (List Nat)
  /-- emitters found dark (R325) -/
  dark    : List Nat
  /-- samples of 1 ms that each emitter has been on since its last whole hour (R335) -/
  onMs    : Tab Nat
  deriving DecidableEq, Repr

/-- A UCIe module of a leaf link (R337-R344). -/
structure Ucie where
  failedTx : List Nat
  failedRx : List Nat
  disabled : Bool
  retraining : Bool
  retries  : List Nat
  /-- mailbox whose margin test runs on the module (R441) -/
  margin   : Option Nat
  deriving DecidableEq, Repr

/-- A leaf beyond its registers (R345-R352). -/
structure Leaf where
  mods    : Vector Ucie 32
  /-- budget in force at the leaf manager, in W -/
  budget  : Nat
  grantSeq : Nat
  /-- chosen rail voltage follows the fastest core; cores busy in the last report -/
  active  : BitVec 12
  thermal : Bool
  droop   : Bool
  stretched : Bool
  capDrop : Bool
  /-- weighted round robin toward the leaf and toward the hub (R340): the module that carried the last
  packet and its packets in the turn -/
  turnDown : Nat × Nat
  turnUp   : Nat × Nat
  deriving DecidableEq, Repr

/-- An LPDDR channel beyond its registers (R359-R365). -/
structure Chan where
  lastTrain : Nat
  fails     : Nat
  debt      : Nat
  /-- corrected errors of the last 24 h: row and clock (R363) -/
  rows      : List (Nat × Nat)
  /-- mailbox whose sweep runs on the channel (R365) -/
  margining : Option Nat
  deriving DecidableEq, Repr

/-- A mailbox beyond its registers (R377): GO order, the command running and its result. -/
structure Mailbox where
  order   : Nat
  running : Bool
  result  : Option (Nat × Nat × Nat)
  deriving DecidableEq, Repr

/-- The flash (R379): boot control, stage images, configuration copies and records. -/
structure Flash where
  pref    : Nat
  failA   : Nat
  failB   : Nat
  images  : List (Nat × FwImage)
  cfg0    : List Byte
  cfg1    : List Byte
  arrays  : List (Nat × Nat)
  roles   : Tab Nat
  hours   : Tab Nat
  /-- emitters 12e + k turned off without a spare (R324) -/
  emitOff : List Nat
  rows    : List Nat
  cert    : List Byte
  deriving DecidableEq, Repr

/-- The fuses (R12, R380, R382). -/
structure Fuses where
  fused   : Vector Nat 4
  keyHash : BitVec 512
  counter : Nat
  deriving DecidableEq, Repr

/-- A die sensor's history (R406): its readings of the last 1 ms, the newest first; whether it is ignored; whether a
rise that has made a thermal step goes on; samples since the ceiling last fell or rose for it, and samples for which
it has not changed. -/
structure SensorRec where
  vals    : List Int
  ignored : Bool
  rising  : Bool
  wait    : Nat
  same    : Nat
  deriving DecidableEq, Repr

/-- The TAP of one die (R437). -/
structure Tap where
  ir       : Nat
  boundary : List Bool
  driven   : Bool
  hiz      : Bool
  deriving DecidableEq, Repr

/-- Names of the faults that stop the machine: none, since the spec gives every command an effect. -/
inductive Fault where
  /-- raised by nothing: kept so that the type is inhabited. Safe. -/
  | never
  deriving DecidableEq, Repr

/-- Names of the refusals. -/
inductive Refusal where
  /-- an arm of exec whose command has no meaning yet. Safe: it stops. -/
  | notModelled (mnemonic : String)
  deriving DecidableEq, Repr

/-- The state of the module. -/
structure State where
  /-- commands that wait, first in first out -/
  pending  : List Instr
  /-- ticks of 0.8 ns since power-on: the time against which intervals are measured -/
  clock    : Nat
  /-- the model's own counter of free values -/
  freeCtr  : Nat
  /-- rack time, 64 bits (R408), and the backward correction still to be met -/
  rackTime : Word
  rackHold : Nat
  /-- correction still to be slewed in, in ticks (R408) -/
  rackSlew : Int
  /-- successive offsets within 5 ns (R409) -/
  timeGood : Nat
  /-- BAR0 register fields, at offset × 64 + low bit: the values that differ from the reset value (R3, R445) -/
  regs     : Tab Nat
  /-- counts below one unit of the registers that count in units of 1,024 -/
  sub      : Tab Nat
  /-- the value with which a field acts until its safe point, where a write has come since the last one (R7) -/
  lag      : Tab Nat
  /-- the 60 V input and the tray connector: PRSNT_N mated, PERST_N asserted, power good, the input
  state of R395 (0 operating, 1 low, 2 high, 3 off), input voltage -/
  prsnt    : Bool
  perst    : Bool
  powered  : Bool
  input    : Nat
  volt     : Nat
  /-- straps SID[3:0] and TID[2:0] as sampled, and that the next release of PERST_N samples them (R16) -/
  straps   : BitVec 7
  strapsDue : Bool
  /-- FRU memory (R17) -/
  fru      : Mem
  /-- the flash that the firmware and the records live in (R379) -/
  flash    : Flash
  /-- the fuses (R12, R380, R382) -/
  fuses    : Fuses
  /-- measurement log, blocks 1-6 (R392) -/
  meas     : Tab (BitVec 512)
  /-- the installed configuration record in force (R384, R385); empty when invalid -/
  config   : List Byte
  /-- S5 raised; fail-stopped (R414) -/
  failed   : Bool
  /-- cores 0-47, core c on leaf c / 12 (R45) -/
  cores    : Vector Core 48
  /-- hub memory and its uncorrectable words (R158, R422) -/
  hm       : Mem
  hmBad    : List Nat
  /-- LPDDR memory, poisoned lines in it, and the hub cache (R157-R162, R357) -/
  lm       : Mem
  lmPoison : List Nat
  cache    : List CLine
  /-- SLOG_RING of each core as latched at its last task start (R433, R434) -/
  slogRing : Tab Word
  slogs    : Tab SendLog
  /-- transaction table (R418), next TAG and OPID per destination (R419) -/
  txns     : List Txn
  nextTag  : Nat
  nextSig  : Nat
  opids    : Tab Nat
  /-- bytes charged toward each destination (R282) -/
  winUse   : Tab Nat
  /-- next pre-issued read, and per core the clock of the last replay record and the packets sent again since (R418) -/
  nextPre  : Nat
  replays  : Tab (Nat × Nat)
  /-- dedup store: the requests applied, by source (R419), and requests that wait for a row -/
  dedup    : List DRow
  dedupWait : List Packet
  /-- byte counts of PUT.SIGs that land here (R280, R420) -/
  sigs     : List SigCount
  /-- requests of other modules that the module holds (R424) -/
  heldReqs : List HeldReq
  /-- C0 packets that wait for tokens, with their core and the tokens they take, in issue order, and the
  core that took a token last (R235) -/
  c0Held   : List (Nat × Nat × Packet)
  c0Last   : Nat
  /-- hub tumblers hub0-hub4095, allocations and waiters (R180, R185) -/
  hubTum   : Tab Word32
  allocs   : List Alloc
  waiters  : List Waiter
  /-- the park of R188, and operations refused by a full park and held by their TE -/
  park     : List Parked
  refused  : List Parked
  /-- tasks accepted and not ended (R217), next task number, acceptance sequence -/
  tasks    : List Task
  /-- number of the next task (R220) -/
  nextTask : Nat
  /-- acceptance sequence of tasks, the order of R224 -/
  nextSeq  : Nat
  /-- command queues 0-63 (R216) -/
  queues   : Vector Queue 64
  /-- the queue whose command was read last, for the round robin (R217) -/
  lastQ    : Nat
  /-- writes to the host and on the side interfaces -/
  hostOut  : List HostMsg
  sideOut  : List SideMsg
  /-- queue of faults, the one being handled first, and S3 or S4 faults that found it full (R416) -/
  faultq   : List Fault_
  faultWait : List Fault_
  errSeq   : Nat
  lastIrq  : Option Nat
  irqDue   : Bool
  /-- KV page manager (R198-R207): sequences, pages, pages whose entries await clearing, latched
  geometries and pools, KV.PUTs held by a move, instructions waiting for a clear -/
  kvSeqs   : Tab KvSeq
  kvPages  : List KvPage
  kvLazy   : List (Nat × Nat)
  kvGeom   : Tab Word
  kvPoolLo : Tab Word
  kvPoolHi : Tab Word
  /-- collectives (R292-R309): open ones, reduction store, kept aborted triples, opens waiting for a
  group place, inputs waiting for a slot -/
  colls    : List Coll
  store    : List CSlot
  triples  : List Aborted
  collWait : List (Nat × Nat)
  storeWait : List Packet
  /-- the router (R244-R258): held packets, packets delivered to the hub, links known to be down, the
  computation under way, direction bits of the last one, PADLOCKs owed, partition check -/
  held     : List Held
  /-- number of the next receive-buffer record -/
  nextBuf  : Nat
  hubIn    : List Packet
  downLinks : List (Nat × Nat)
  /-- links that the last computation took as down, and ports whose link carries traffic (R257) -/
  lastDown : List (Nat × Nat)
  routable : List Nat
  /-- the table computation under way, its direction bits, PADLOCKs owed, and the partition check (R256, R427, R429) -/
  compute  : Option Compute
  dirBits  : Word × Word
  padDue   : List Nat
  partWait : List (Nat × List Nat)
  /-- notices: JOBs whose job-fatal notices are ignored (R428) -/
  jobIgnore : List Nat
  /-- an in-rack link has been in service since module reset; declarations sent; every fabric port is held
  down until module reset (R414, R427, R330) -/
  everUp   : Bool
  declSent : List Nat
  portsOff : Bool
  /-- fabric ports P0-P19 (R260) -/
  ports    : Vector Port 20
  /-- optical engines OE0-OE9 (R315) -/
  engines  : Vector Engine 10
  /-- leaves L0-L3 (R345) -/
  leaves   : Vector Leaf 4
  /-- LPDDR channels 0-63 (R354) -/
  chans    : Vector Chan 64
  /-- mailboxes 0-3 and the order of their commands (R375, R377) -/
  mboxes   : Vector Mailbox 4
  goOrder  : Nat
  /-- service face: clock when OPEN became 1, last toggle of the pad (R329, R331) -/
  openAt   : Option Nat
  padAt    : Option Nat
  /-- power: domains off for idleness wait, core pairs switching on, converter failed, sensors,
  thermal factor of avail in per cent (R399, R402, R406) -/
  pairsOn  : List Nat
  sensors  : List (Sensor × SensorRec)
  /-- stretch of each core's island (key 48: the hub die) in quarters of a cycle; thermal ceilings by core in MHz;
  clocks of cores at a thermal step that their leaf manager has still to act on; per cent of avail -/
  stretch  : Tab Nat
  heat     : Tab Nat
  steps    : Tab Nat
  hubHot   : Nat
  /-- the cap has fallen since the last GRANT; the soft start runs -/
  capFell  : Bool
  charging : Bool
  /-- management bus (R374, R375): dynamic address, index, in-band interrupts enabled and pending -/
  i3cAddr  : Option (BitVec 7)
  i3cIndex : Byte
  ibiOn    : Bool
  ibis     : List Byte
  /-- SPDM: negotiated version and algorithms, transcript (R391) -/
  spdmVer  : Option Byte
  spdmAlgs : Bool
  spdmLog  : List Byte
  /-- TAPs and the TEST_MODE_N pad (R437, R438) -/
  taps     : Vector Tap 5
  testLow  : Bool
  deriving DecidableEq, Repr

def Mem.empty : Mem := { cells := [], junk := 0, zones := [] }

def Acc.reset : Acc :=
  { cells := [], junk := 0, rows := 0, cols := 0, row0 := 0, openK := none, chunk := [], openN := 0, written := false }

def Slot.reset : Slot := { shape := 0, loaded := false, fmt := 1, elems := [] }

def Filler.reset : Filler :=
  { running := false, since := 0, slot := 0, streamed := false, rows := 0 }

/-- A core after reset (R69; register contents DESIGN CHOICE, assumption 1). -/
def Core.reset : Core :=
  { sreg := [], preg := 1#8, treg := [], vreg := Mem.empty, acc := Vector.replicate 4 Acc.reset,
    slots := Vector.replicate 8 Slot.reset, fillMax := Vector.replicate 4 256,
    filler := Vector.replicate 4 Filler.reset, ip := 0, lt := [], ltStart := [], sp := Mem.empty, spBad := [],
    ibuf := [], window := [], nextId := 0, state := 0, ending := false, finished := false,
    draining := false, lastStatus := 0, stall := none, dwTaken := false, preRead := [], arrays := 15#4,
    fails := Vector.replicate 4 [], owed := 0#4, vtab := Mem.empty, vtabLoaded := 0#16,
    handles := Vector.replicate 8 none, task := 0 }

def Queue.reset : Queue :=
  { ring := 0, cpl := 0, cplHead := 0, accepted := none, nextSeq := 0, open_ := [], barrier := none,
    kills := [], waiting := [] }

def Port.reset : Port :=
  { signal := 0, adapted := 0, stage := 0, pStage := 0, pReady := 0, restarts := 0,
    framed := false, goodRun := 0, mLock := 0, mBad := [], 
    matched := false, pMatch := false, rejected := false, pState := 0, lastBeat := 0, beats := false,
    clean := none, initCr := [], avail := [], sentFl := [], report := [], freed := [], rxCount := [],
    nextSeq := 0, expSeq := 0, ackOut := 4095, nakOut := false, replay := [],
    resend := [], nakSeen := none, rxSel := 0, rxProg := [], txSel := 0, txq := [],
    txProg := [], linkq := [], newMask := none, rxNext := none, mgen := 0, markers := 0, cwc := 0, laneReqs := [],
    calLane := none, outLanes := 0, unlocked := [], discards := [], viols := [], wire := [],
    marks := [], laneOf := [], blocks := 0, rr := (3, 255), transit := [], groups := [], beatAt := none, keyAt := none,
    edgeWin := [], edgeTag := [], crNext := 0, crSent := [], crAge := [], downAt := none, loop := false, eye := none }

def Engine.reset : Engine := { seated := false, fades := [], dark := [], onMs := [] }

def Ucie.reset : Ucie :=
  { failedTx := [], failedRx := [], disabled := false, retraining := false, retries := [], margin := none }

def Leaf.reset : Leaf :=
  { mods := Vector.replicate 32 Ucie.reset, budget := 150, grantSeq := 0, active := 0, thermal := false,
    droop := false, stretched := false, capDrop := false, turnDown := (31, 2), turnUp := (31, 2) }

def Chan.reset : Chan := { lastTrain := 0, fails := 0, debt := 0, rows := [], margining := none }

def Mailbox.reset : Mailbox := { order := 0, running := false, result := none }

/-- Emitter roles at manufacture (R315): 3w port A, 3w + 1 port B, 3w + 2 spare; keyed 12e + k, unlisted
roles are those. (DESIGN CHOICE, assumption 54.) -/
def Flash.reset : Flash :=
  { pref := 0, failA := 0, failB := 0, images := [], cfg0 := [], cfg1 := [], arrays := [], roles := [],
    hours := [], emitOff := [], rows := [], cert := [] }

/-- DESIGN CHOICE, assumption 54. -/
def Fuses.reset : Fuses := { fused := Vector.replicate 4 12, keyHash := 0, counter := 0 }

def Tap.reset : Tap := { ir := 1, boundary := [], driven := false, hiz := false }

/-- The module right after reset: PERST_N released, STAGE 0, every register at its reset value.
(DESIGN CHOICE, assumption 1; DESIGN CHOICE, assumption 8; DESIGN CHOICE, assumption 54.) -/
def State.reset : State :=
  { pending := [], clock := 0, freeCtr := 0, rackTime := 0, rackHold := 0, rackSlew := 0, timeGood := 0, regs := [],
    sub := [], lag := [], prsnt := true, perst := false, powered := true, input := 0, volt := 6000, straps := 8#7, strapsDue := true,
    fru := { cells := [], junk := 0, zones := [(0, 8192, 0)] }, flash := Flash.reset, fuses := Fuses.reset, meas := [], config := [],
    failed := false, cores := Vector.replicate 48 Core.reset, hm := Mem.empty, hmBad := [],
    lm := Mem.empty, lmPoison := [], cache := [], slogRing := [], slogs := [], txns := [], nextTag := 0, nextSig := 1, opids := [], winUse := [], nextPre := 0, replays := [],
    dedup := [], dedupWait := [], sigs := [], heldReqs := [], c0Held := [], c0Last := 0, hubTum := [], allocs := [],
    waiters := [], park := [], refused := [], tasks := [], nextTask := 1, nextSeq := 0,
    queues := Vector.replicate 64 Queue.reset, lastQ := 63, hostOut := [], sideOut := [], faultq := [],
    faultWait := [], errSeq := 1, lastIrq := none, irqDue := false, kvSeqs := [], kvPages := [],
    kvLazy := [], kvGeom := [], kvPoolLo := [], kvPoolHi := [], colls := [], store := [],
    triples := [], collWait := [], storeWait := [], held := [], nextBuf := 1, hubIn := [], downLinks := [], lastDown := [], routable := [], compute := none,
    dirBits := (0, 0), padDue := [], partWait := [], jobIgnore := [], everUp := false, declSent := [], portsOff := false,
    ports := Vector.replicate 20 Port.reset, engines := Vector.replicate 10 Engine.reset,
    leaves := Vector.replicate 4 Leaf.reset, chans := Vector.replicate 64 Chan.reset,
    mboxes := Vector.replicate 4 Mailbox.reset, goOrder := 1, openAt := none, padAt := none,
    pairsOn := [], sensors := [], stretch := [], heat := [], steps := [], hubHot := 100, capFell := false, charging := false, i3cAddr := none, i3cIndex := 0,
    ibiOn := false, ibis := [], spdmVer := none, spdmAlgs := false, spdmLog := [],
    taps := Vector.replicate 5 Tap.reset, testLow := false }

end Sys2Proof.Machine
end

