-- ==== Sys2Proof/Machine/Ops.lean ====
section
/-! DEFINITION. The named operations over tables, memories, cores, ports and free values, and the status
codes of R8.  Every meaning goes through these. -/

namespace Sys2Proof.Machine

/-! ### Sparse tables -/

/-- The entry of a table at a key, or the table's default. -/
def Tab.get {α : Type} (t : Tab α) (d : α) (k : Nat) : α := (t.lookup k).getD d

/-- Enter a value at a key, keeping the keys strictly rising. -/
def Tab.put {α : Type} (t : Tab α) (k : Nat) (v : α) : Tab α :=
  match t with
  | [] => [(k, v)]
  | (a, b) :: r =>
    if k < a then (k, v) :: (a, b) :: r
    else if k = a then (k, v) :: r
    else (a, b) :: Tab.put r k v

/-- Remove the entry at a key. -/
def Tab.del {α : Type} (t : Tab α) (k : Nat) : Tab α := t.filter (fun p => p.1 != k)

/-- Enter a value at a key, listing nothing that equals the default. -/
def Tab.set {α : Type} [DecidableEq α] (t : Tab α) (d : α) (k : Nat) (v : α) : Tab α :=
  if v = d then t.del k else t.put k v

/-! ### Byte memories -/

/-- What a byte that the memory does not list reads as: 0, or an unspecified byte (R65, R139, R230, R417). (DESIGN CHOICE, assumption 8.) -/
def Mem.default (m : Mem) (a : Nat) : Byte :=
  match m.zones.find? (fun z => decide (z.1 ≤ a) && decide (a < z.1 + z.2.1)) with
  | some z => Config.junkByte z.2.2 a
  | none => if m.junk = 0 then 0 else Config.junkByte m.junk a

/-- One byte. -/
def Mem.read (m : Mem) (a : Nat) : Byte := Tab.get m.cells (m.default a) a

/-- Store one byte, keeping the canonical form. -/
def Mem.write (m : Mem) (a : Nat) (b : Byte) : Mem := { m with cells := Tab.set m.cells (m.default a) a b }

/-- `n` bytes from `a`. -/
def Mem.readN (m : Mem) (a n : Nat) : List Byte := (List.range n).map (fun i => m.read (a + i))

/-- Store bytes from `a` on. -/
def Mem.writeN (m : Mem) (a : Nat) : List Byte → Mem
  | [] => m
  | b :: bs => (m.write a b).writeN (a + 1) bs

/-- The `n` bytes from `a` become unspecified, of generation `g`: what they held is lost. (DESIGN CHOICE, assumption 9.) -/
def Mem.smudge (m : Mem) (a n g : Nat) : Mem :=
  { m with cells := m.cells.filter (fun c => decide (c.1 < a) || decide (a + n ≤ c.1)),
           zones := (a, n, g) :: m.zones.filter (fun z => !(decide (a ≤ z.1) && decide (z.1 + z.2.1 ≤ a + n))) }

/-- Little-endian value of bytes (R2). -/
def leNat : List Byte → Nat
  | [] => 0
  | b :: bs => b.toNat + 256 * leNat bs

/-- The `n` little-endian bytes of a number (R2). -/
def leBytes : Nat → Nat → List Byte
  | 0, _ => []
  | n + 1, v => BitVec.ofNat 8 v :: leBytes n (v / 256)

/-- A bit field of a number, `x[lo + w - 1 : lo]`. -/
def fld (x lo w : Nat) : Nat := x / 2 ^ lo % 2 ^ w

/-- A number with one bit field replaced. -/
def setFld (x lo w v : Nat) : Nat := x - fld x lo w * 2 ^ lo + v % 2 ^ w * 2 ^ lo

/-- Two's complement value of a `w`-bit field. -/
def sext (w x : Nat) : Int := if x % 2 ^ w < 2 ^ (w - 1) then (x % 2 ^ w : Nat) else (x % 2 ^ w : Nat) - (2 ^ w : Nat)

/-- Positions of the one bits of a mask below `n`, ascending. -/
def onesBelow (n m : Nat) : List Nat := (List.range n).filter (fun i => m.testBit i)

/-! ### Status codes (R8) -/

namespace Status
def ok : Nat := 0x00
def addrRange : Nat := 0x01
def targetDead : Nat := 0x02
def padlocked : Nat := 0x03
def partialDelivery : Nat := 0x04
def collMismatch : Nat := 0x05
def collAborted : Nat := 0x06
def tainted : Nat := 0x07
end Status

/-! Tumblers, tasks and what recovery reports. -/

namespace Status
def ownerGone : Nat := 0x08
def tumUnderflow : Nat := 0x09
def tumOverflow : Nat := 0x0A
def tumblerResidue : Nat := 0x0B
def deadlock : Nat := 0x0C
def preempted : Nat := 0x0D
def replayed : Nat := 0x0E
def eccUncorrected : Nat := 0x0F
def partitioned : Nat := 0x10
def wrongNeighbour : Nat := 0x11
end Status

/-! Partner violations. -/

namespace Status
def pvCredit : Nat := 0x40
def pvType : Nat := 0x41
def pvLength : Nat := 0x42
def pvSequence : Nat := 0x43
def pvVc : Nat := 0x44
def pvMask : Nat := 0x45
def pvWindow : Nat := 0x46
end Status

/-! ### Parts of the state -/

namespace State

/-- Core number `c`; numbers past 47 name core 0 and are never used. -/
def core (s : State) (c : Nat) : Core := s.cores.getD c Core.reset

def modCore (s : State) (c : Nat) (f : Core → Core) : State :=
  { s with cores := s.cores.setIfInBounds c (f (s.core c)) }

def port (s : State) (p : Nat) : Port := s.ports.getD p Port.reset

def modPort (s : State) (p : Nat) (f : Port → Port) : State :=
  { s with ports := s.ports.setIfInBounds p (f (s.port p)) }

def queue (s : State) (q : Nat) : Queue := s.queues.getD q Queue.reset

def modQueue (s : State) (q : Nat) (f : Queue → Queue) : State :=
  { s with queues := s.queues.setIfInBounds q (f (s.queue q)) }

def engine (s : State) (e : Nat) : Engine := s.engines.getD e Engine.reset

def modEngine (s : State) (e : Nat) (f : Engine → Engine) : State :=
  { s with engines := s.engines.setIfInBounds e (f (s.engine e)) }

def leaf (s : State) (l : Nat) : Leaf := s.leaves.getD l Leaf.reset

def modLeaf (s : State) (l : Nat) (f : Leaf → Leaf) : State :=
  { s with leaves := s.leaves.setIfInBounds l (f (s.leaf l)) }

def chan (s : State) (ch : Nat) : Chan := s.chans.getD ch Chan.reset

def modChan (s : State) (ch : Nat) (f : Chan → Chan) : State :=
  { s with chans := s.chans.setIfInBounds ch (f (s.chan ch)) }

def mbox (s : State) (m : Nat) : Mailbox := s.mboxes.getD m Mailbox.reset

def modMbox (s : State) (m : Nat) (f : Mailbox → Mailbox) : State :=
  { s with mboxes := s.mboxes.setIfInBounds m (f (s.mbox m)) }

def tap (s : State) (d : Nat) : Tap := s.taps.getD d Tap.reset

def modTap (s : State) (d : Nat) (f : Tap → Tap) : State :=
  { s with taps := s.taps.setIfInBounds d (f (s.tap d)) }

/-- A fresh free value, and the state that has drawn it. (DESIGN CHOICE, assumption 10.) -/
def free (s : State) : Word × State := (Config.freeValue s.freeCtr, { s with freeCtr := s.freeCtr + 1 })

/-- A fresh generation of unspecified contents (never 0). (DESIGN CHOICE, assumption 9.) -/
def freshJunk (s : State) : Nat × State := (s.freeCtr + 1, { s with freeCtr := s.freeCtr + 1 })

/-- A clock interval in ticks of 0.8 ns (R408): `n` microseconds. -/
def usTicks (n : Nat) : Nat := n * 1250

/-- `n` milliseconds in ticks. -/
def msTicks (n : Nat) : Nat := n * 1250000

/-- One tick of 0.8 ns with no command (DESIGN CHOICE, assumption 2): the clock and rack time advance.  A backward
correction of R408 holds rack time back until it is met; a small one changes its rate by 100 ppm. -/
def tick (s : State) : State :=
  let s := { s with clock := s.clock + 1 }
  if s.rackHold ≠ 0 then { s with rackHold := s.rackHold - 1 }
  else if s.clock % 10000 ≠ 0 ∨ s.rackSlew = 0 then { s with rackTime := s.rackTime + 1 }
  else if s.rackSlew > 0 then { s with rackTime := s.rackTime + 2, rackSlew := s.rackSlew - 1 }
  else { s with rackSlew := s.rackSlew + 1 }

end State

/-- The outcome of a command that has its effect: the next state. -/
abbrev Res := Host.Outcome State Fault Refusal

end Sys2Proof.Machine
end

