-- ==== Sys2Proof/Machine/Float.lean ====
section
/-! DEFINITION. Number formats and their arithmetic (R24-R43): exact values, decoding, rounding into every
format, and FP32 arithmetic with one rounding. -/

namespace Sys2Proof.Machine

/-- The layout of a floating-point format (R25, R28): exponent and mantissa bits, bias, largest finite
magnitude code, magnitude code of infinity, canonical NaN code. -/
structure FloatFmt where
  eb   : Nat
  mb   : Nat
  bias : Nat
  maxc : Nat
  infc : Option Nat
  nanc : Option Nat
  /-- an all-ones exponent with a nonzero mantissa is a NaN, with a zero mantissa infinity -/
  ieee : Bool
  deriving DecidableEq, Repr

def fmtFp32 : FloatFmt := ⟨8, 23, 127, 0x7F7FFFFF, some 0x7F800000, some 0x7FC00000, true⟩
def fmtBf16 : FloatFmt := ⟨8, 7, 127, 0x7F7F, some 0x7F80, some 0x7FC0, true⟩
def fmtFp16 : FloatFmt := ⟨5, 10, 15, 0x7BFF, some 0x7C00, some 0x7E00, true⟩
def fmtE4m3 : FloatFmt := ⟨4, 3, 7, 0x7E, none, some 0x7F, false⟩
def fmtE5m2 : FloatFmt := ⟨5, 2, 15, 0x7B, some 0x7C, some 0x7E, true⟩
def fmtE3m2 : FloatFmt := ⟨3, 2, 3, 0x1F, none, none, false⟩
def fmtE2m3 : FloatFmt := ⟨2, 3, 1, 0x1F, none, none, false⟩
def fmtE2m1 : FloatFmt := ⟨2, 1, 1, 0x7, none, none, false⟩

/-- Value of a code of a floating-point format (R25, R28). -/
def FloatFmt.dec (f : FloatFmt) (code : Nat) : Num :=
  let neg := code.testBit (f.eb + f.mb)
  let e := fld code f.mb f.eb
  let m := fld code 0 f.mb
  if f.ieee = true ∧ e = 2 ^ f.eb - 1 then (if m = 0 then .inf neg else .nan)
  else if f.ieee = false ∧ f.nanc = some (code % 2 ^ (f.eb + f.mb)) then .nan
  else if e = 0 then .fin neg m (1 - (f.bias : Int) - f.mb)
  else .fin neg (2 ^ f.mb + m) ((e : Int) - f.bias - f.mb)

/-- Shift a significand right by `d`, rounding to nearest, ties to even (R33). -/
def rneShift (m d : Nat) : Nat :=
  let n := m / 2 ^ d
  let r := m % 2 ^ d
  if 2 * r > 2 ^ d ∨ (2 * r = 2 ^ d ∧ n % 2 = 1) then n + 1 else n

/-- Significand m × 2^e in units of 2^q, rounded to nearest even. -/
def toUnits (m : Nat) (e q : Int) : Nat :=
  if q ≤ e then m * 2 ^ (e - q).toNat else rneShift m (q - e).toNat

/-- Magnitude code of a nonzero finite value rounded by R33, before the check for overflow.  The code of
magnitude n × 2^q is its place in the sequence of magnitudes, so a carry runs on into the exponent. -/
def FloatFmt.magCode (f : FloatFmt) (m : Nat) (e : Int) : Nat :=
  let qmin : Int := 1 - (f.bias : Int) - f.mb
  let q := max (e + Nat.log2 m - f.mb) qmin
  toUnits m e q + (q - qmin).toNat * 2 ^ f.mb

/-- A sign with a magnitude code. -/
def FloatFmt.withSign (f : FloatFmt) (neg : Bool) (c : Nat) : Nat := if neg then c + 2 ^ (f.eb + f.mb) else c

/-- Canonical NaN; formats without a NaN are reached only with finite values (R34). -/
def FloatFmt.nanCode (f : FloatFmt) : Nat := f.nanc.getD 0

/-- What a value too large for the format becomes (R33, R34). -/
def FloatFmt.overflow (f : FloatFmt) (sat neg : Bool) : Nat :=
  if sat then f.withSign neg f.maxc
  else match f.infc with
    | some c => f.withSign neg c
    | none => match f.nanc with
      | some c => c
      | none => f.withSign neg f.maxc

/-- Conversion into a scalar format (R33, R34).  An infinity under SAT becomes the largest finite value
in the 8-bit formats only. -/
def FloatFmt.enc (f : FloatFmt) (sat : Bool) : Num → Nat
  | .nan => f.nanCode
  | .inf neg => if f.eb + f.mb = 7 then f.overflow sat neg else f.overflow false neg
  | .fin neg m e =>
    if m = 0 then f.withSign neg 0
    else
      let c := f.magCode m e
      if c > f.maxc then f.overflow sat neg else f.withSign neg c

/-- Exact product. -/
def Num.mul : Num → Num → Num
  | .nan, _ => .nan
  | _, .nan => .nan
  | .inf a, .inf b => .inf (a != b)
  | .inf a, .fin b m _ => if m = 0 then .nan else .inf (a != b)
  | .fin a m _, .inf b => if m = 0 then .nan else .inf (a != b)
  | .fin a m e, .fin b n g => .fin (a != b) (m * n) (e + g)

/-- Signed significand of a finite value in units of 2^q, for q ≤ e. -/
def signedUnits (neg : Bool) (m : Nat) (e q : Int) : Int :=
  let v : Int := (m * 2 ^ (e - q).toNat : Nat)
  if neg then -v else v

/-- Exact sum; a sum of opposite values is +0, of two negative zeros −0 (IEEE 754). -/
def Num.add : Num → Num → Num
  | .nan, _ => .nan
  | _, .nan => .nan
  | .inf a, .inf b => if a = b then .inf a else .nan
  | .inf a, .fin _ _ _ => .inf a
  | .fin _ _ _, .inf b => .inf b
  | .fin a m e, .fin b n g =>
    if m = 0 ∧ n = 0 then .fin (a && b) 0 0
    else
      let q := min e g
      let v := signedUnits a m e q + signedUnits b n g q
      .fin (v < 0) v.natAbs q

def Num.neg : Num → Num
  | .nan => .nan
  | .inf a => .inf (!a)
  | .fin a m e => .fin (!a) m e

def Num.abs : Num → Num
  | .nan => .nan
  | .inf _ => .inf false
  | .fin _ m e => .fin false m e

def Num.isNan : Num → Bool
  | .nan => true
  | _ => false

def Num.isInf : Num → Bool
  | .inf _ => true
  | _ => false

def Num.isFin : Num → Bool
  | .fin _ _ _ => true
  | _ => false

/-- Order of two values that are not NaN; the two zeros are equal. -/
def Num.lt : Num → Num → Bool
  | .nan, _ => false
  | _, .nan => false
  | .inf a, .inf b => a && !b
  | .inf a, .fin _ _ _ => a
  | .fin _ _ _, .inf b => !b
  | .fin a m e, .fin b n g =>
    let q := min e g
    signedUnits a m e q < signedUnits b n g q

def Num.le (a b : Num) : Bool := !(a.isNan) && !(b.isNan) && !(b.lt a)

/-- Value times a power of two. -/
def Num.scale (k : Int) : Num → Num
  | .nan => .nan
  | .inf a => .inf a
  | .fin a m e => .fin a m (e + k)

def Num.zero : Num := .fin false 0 0
def Num.ofNat (n : Nat) : Num := .fin false n 0
def Num.one : Num := .ofNat 1

/-- FP32 value and encoding. -/
def f32 (w : Word32) : Num := fmtFp32.dec w.toNat

def toF32 (x : Num) : Word32 := BitVec.ofNat 32 (fmtFp32.enc false x)

/-- FP32 arithmetic with one rounding (R41). -/
def fadd (a b : Word32) : Word32 := toF32 ((f32 a).add (f32 b))
def fsub (a b : Word32) : Word32 := toF32 ((f32 a).add (f32 b).neg)
def fmul (a b : Word32) : Word32 := toF32 ((f32 a).mul (f32 b))
def ffma (a b c : Word32) : Word32 := toF32 (((f32 a).mul (f32 b)).add (f32 c))

/-! ### Format codes (R24) -/

namespace Fmt
def fp32 : Nat := 0x0
def bf16 : Nat := 0x1
def fp16 : Nat := 0x2
def e4m3 : Nat := 0x3
def e5m2 : Nat := 0x4

/-- Codes 0xD-0xF are reserved (R24). -/
def valid (f : Nat) : Bool := f < 0xD

/-- Element bits (R24). -/
def bits (f : Nat) : Nat :=
  match f with
  | 0x0 => 32 | 0x1 => 16 | 0x2 => 16 | 0x3 => 8 | 0x4 => 8 | 0x5 => 8 | 0x6 => 8 | 0x7 => 6 | 0x8 => 6
  | 0x9 => 4 | 0xA => 8 | 0xB => 4 | 0xC => 2 | _ => 8

/-- Does the format carry a block scale (R24)? -/
def block (f : Nat) : Bool := 5 ≤ f && f ≤ 0xC

/-- Exponent of the largest power of two of the element format (R28). -/
def emax (f : Nat) : Int :=
  match f with
  | 0x5 => 8 | 0x6 => 15 | 0x7 => 4 | 0x8 => 2 | 0x9 => 2 | _ => 0

/-- Layout of the element where it is a floating-point format. -/
def float (f : Nat) : FloatFmt :=
  match f with
  | 0x0 => fmtFp32 | 0x1 => fmtBf16 | 0x2 => fmtFp16 | 0x3 => fmtE4m3 | 0x4 => fmtE5m2 | 0x5 => fmtE4m3
  | 0x6 => fmtE5m2 | 0x7 => fmtE3m2 | 0x8 => fmtE2m3 | _ => fmtE2m1

/-- Value of an element code before its block scale (R25, R28, R32). -/
def decElem (f code : Nat) : Num :=
  match f with
  | 0xA => let v := sext 8 code; .fin (v < 0) v.natAbs (-6)
  | 0xB => let v := sext 4 code; .fin (v < 0) v.natAbs (-2)
  | 0xC => match code % 4 with
    | 1 => .fin false 1 0
    | 3 => .fin true 1 0
    | _ => .zero
  | _ => (float f).dec code

/-- Value of an element under its scale byte (R29). -/
def decScaled (f code scale : Nat) : Num :=
  if scale = 0xFF then .nan else (decElem f code).scale ((scale : Int) - 127)

/-- An integer element: round to the step 2^q, ties to even, then saturate at ±top (R35). -/
def encInt (q : Int) (w top : Nat) : Num → Nat
  | .fin neg m e =>
    let n := min (toUnits m e q) top
    if neg && n != 0 then 2 ^ w - n else n
  | _ => 0

/-- Element of a block format, always saturating (R33, R35). -/
def encElem (f : Nat) (x : Num) : Nat :=
  match f with
  | 0xA => encInt (-6) 8 127 x
  | 0xB => encInt (-2) 4 7 x
  | 0xC => encInt 0 2 1 x
  | _ => (float f).enc true x

end Fmt

/-- Floor of the binary logarithm of a nonzero finite magnitude. -/
def Num.log2 : Num → Int
  | .fin _ m e => e + Nat.log2 m
  | _ => 0

/-- The greatest of a list of magnitudes. -/
def Num.maxAbs (xs : List Num) : Num := xs.foldl (fun a x => if a.lt x.abs then x.abs else a) .zero

/-- Conversion of one block (R35): the scale byte and the element codes. -/
def encBlock (f : Nat) (sat : Bool) (vs : List Num) : Nat × List Nat :=
  if vs.any (fun v => v.isNan || (!sat && v.isInf)) then (0xFF, vs.map (fun _ => 0))
  else
    let top := fmtFp32.dec fmtFp32.maxc
    let ws := vs.map (fun v => match v with | .inf n => (if n then top.neg else top) | w => w)
    let amax := Num.maxAbs ws
    if amax.le .zero then (0, vs.map (fun _ => 0))
    else
      let e := max (-127) (min (amax.log2 - Fmt.emax f) 127)
      ((e + 127).toNat, ws.map (fun w => Fmt.encElem f (w.scale (-e))))

/-- Stochastic conversion of an FP32 value to BF16 with the 16-bit draw `r` (R36). -/
def stochBf16 (sat : Bool) (w : Word32) (r : BitVec 16) : Nat :=
  match f32 w with
  | .nan => fmtBf16.nanCode
  | .inf neg => fmtBf16.overflow false neg
  | .fin neg _ _ =>
    let c := (w.toNat % 2 ^ 31 + r.toNat) / 2 ^ 16
    if c > fmtBf16.maxc then fmtBf16.overflow sat neg else fmtBf16.withSign neg c

/-- Special value of a sum of products: NaN if any is a NaN or infinities differ in sign, else the
infinity, else none. -/
def specialSum (xs : List Num) : Option Num :=
  if xs.any Num.isNan then some .nan
  else
    let p := xs.any (fun x => x == .inf false)
    let n := xs.any (fun x => x == .inf true)
    if p && n then some .nan else if p then some (.inf false) else if n then some (.inf true) else none

/-- Truncation of a signed value in units of 2^q toward minus infinity. (DEDUCED, assumption 16.) -/
def floorUnits (neg : Bool) (m : Nat) (e q : Int) : Int :=
  let v : Int := if neg then -(m : Int) else m
  if q ≤ e then v * 2 ^ (e - q).toNat else v / 2 ^ (q - e).toNat

/-- A chunk sum (R38): the products aligned to the largest product exponent E in a 64-bit adder whose least
significant bit is 2^(E − 62), each truncated toward minus infinity, and the sum rounded once to FP32. (DEDUCED, assumption 16.) -/
def chunkSum (ps : List Num) : Word32 :=
  match specialSum ps with
  | some x => toF32 x
  | none =>
    let nz := ps.filter (fun p => match p with | .fin _ m _ => m != 0 | _ => false)
    match nz with
    | [] => 0
    | p :: _ =>
      let top := nz.foldl (fun a x => max a x.log2) p.log2
      let q := top - 62
      let t := nz.foldl (fun a x => match x with | .fin neg m e => a + floorUnits neg m e q | _ => a) (0 : Int)
      toF32 (.fin (t < 0) t.natAbs q)

/-- Rational comparison |x| ≤ bound, both finite. -/
def Num.absLe (x bound : Num) : Bool := x.abs.le bound

end Sys2Proof.Machine
end

