-- ==== Sys2Proof/Machine/RegMap.lean ====
section
/-! DEFINITION. The BAR0 register map: the offset of every register, and every field's place, access code
and reset value, as the register tables of the chapters give them (R3-R6, R445).  Offsets are as the block
map of R445 lays them out.  A reset value that a table words (fuses, straps, the flash record) stands as 0
here and is given by the view of the field. -/

namespace Sys2Proof.Machine

/-- Access codes (R4). -/
inductive Access where
  | rw | ro | wo | w1c | w1s | rwl
  deriving DecidableEq, Repr

/-- A field of the map: low bit, width, access code, reset value; `idx` adds the instance number to the
reset value. -/
structure FieldSpec where
  lo  : Nat
  w   : Nat
  acc : Access
  rst : Nat
  idx : Bool
  deriving DecidableEq, Repr

/-- A register of the map with its instances: `n1` at stride `s1`, each `n2` at stride `s2`. -/
structure RegKind where
  base : Nat
  n1   : Nat
  s1   : Nat
  n2   : Nat
  s2   : Nat
  fields : List FieldSpec
  deriving DecidableEq, Repr

/-- A field of one register: the register's BAR0 offset, low bit, width and reset value. -/
structure Fld where
  off : Nat
  lo  : Nat
  w   : Nat
  rst : Nat
  deriving DecidableEq, Repr

namespace Reg

/-- MOD_IDENT (R18). -/
def MOD_IDENT : Nat := 0x00000000
def MOD_IDENT_VENDOR_ID : Fld := ⟨MOD_IDENT, 0, 16, 0⟩
def MOD_IDENT_DEVICE_ID : Fld := ⟨MOD_IDENT, 16, 16, 1888⟩
def MOD_IDENT_REVISION_ID : Fld := ⟨MOD_IDENT, 32, 8, 176⟩
def MOD_IDENT_CORE_COUNT : Fld := ⟨MOD_IDENT, 40, 8, 48⟩
/-- MOD_CORE_MAP (R18). -/
def MOD_CORE_MAP : Nat := 0x00000008
def MOD_CORE_MAP_L0_FUSED : Fld := ⟨MOD_CORE_MAP, 0, 4, 0⟩
def MOD_CORE_MAP_L1_FUSED : Fld := ⟨MOD_CORE_MAP, 4, 4, 0⟩
def MOD_CORE_MAP_L2_FUSED : Fld := ⟨MOD_CORE_MAP, 8, 4, 0⟩
def MOD_CORE_MAP_L3_FUSED : Fld := ⟨MOD_CORE_MAP, 12, 4, 0⟩
/-- MOD_POSITION (R18). -/
def MOD_POSITION : Nat := 0x00000010
def MOD_POSITION_X : Fld := ⟨MOD_POSITION, 0, 3, 0⟩
def MOD_POSITION_Y : Fld := ⟨MOD_POSITION, 3, 3, 0⟩
def MOD_POSITION_Z : Fld := ⟨MOD_POSITION, 6, 3, 0⟩
def MOD_POSITION_W : Fld := ⟨MOD_POSITION, 9, 3, 0⟩
def MOD_POSITION_SID_PARITY_ERR : Fld := ⟨MOD_POSITION, 12, 1, 0⟩
def MOD_POSITION_MODULE_NUMBER : Fld := ⟨MOD_POSITION, 16, 12, 0⟩
/-- CORE_STATUS (R69). -/
def CORE_STATUS (c : Nat) : Nat := 0x02000000 + c / 12 * 0x800000 + c % 12 * 0x40000
def CORE_STATUS_STATE (c : Nat) : Fld := ⟨CORE_STATUS c, 0, 2, 0⟩
def CORE_STATUS_LAST_STATUS (c : Nat) : Fld := ⟨CORE_STATUS c, 8, 8, 0⟩
def CORE_STATUS_UNRETIRED (c : Nat) : Fld := ⟨CORE_STATUS c, 16, 10, 0⟩
def CORE_STATUS_STALL_TUM (c : Nat) : Fld := ⟨CORE_STATUS c, 26, 8, 255⟩
def CORE_STATUS_ARRAYS_EN (c : Nat) : Fld := ⟨CORE_STATUS c, 34, 4, 15⟩
def CORE_STATUS_RUNAHEAD (c : Nat) : Fld := ⟨CORE_STATUS c, 38, 1, 0⟩
def CORE_STATUS_STALL_HUB (c : Nat) : Fld := ⟨CORE_STATUS c, 39, 1, 0⟩
def CORE_STATUS_FINISHED (c : Nat) : Fld := ⟨CORE_STATUS c, 40, 1, 0⟩
/-- CORE_IP (R69). -/
def CORE_IP (c : Nat) : Nat := 0x02000008 + c / 12 * 0x800000 + c % 12 * 0x40000
def CORE_IP_IP (c : Nat) : Fld := ⟨CORE_IP c, 3, 15, 0⟩
/-- CORE_QUEUE_FILL (R69). -/
def CORE_QUEUE_FILL (c : Nat) : Nat := 0x02000010 + c / 12 * 0x800000 + c % 12 * 0x40000
def CORE_QUEUE_FILL_ME0 (c : Nat) : Fld := ⟨CORE_QUEUE_FILL c, 0, 8, 0⟩
def CORE_QUEUE_FILL_ME1 (c : Nat) : Fld := ⟨CORE_QUEUE_FILL c, 8, 8, 0⟩
def CORE_QUEUE_FILL_ME2 (c : Nat) : Fld := ⟨CORE_QUEUE_FILL c, 16, 8, 0⟩
def CORE_QUEUE_FILL_ME3 (c : Nat) : Fld := ⟨CORE_QUEUE_FILL c, 24, 8, 0⟩
def CORE_QUEUE_FILL_MVE (c : Nat) : Fld := ⟨CORE_QUEUE_FILL c, 32, 8, 0⟩
def CORE_QUEUE_FILL_VE (c : Nat) : Fld := ⟨CORE_QUEUE_FILL c, 40, 8, 0⟩
def CORE_QUEUE_FILL_TE (c : Nat) : Fld := ⟨CORE_QUEUE_FILL c, 48, 8, 0⟩
/-- CORE_RUNAHEAD_CTL (R69). -/
def CORE_RUNAHEAD_CTL (c : Nat) : Nat := 0x02000018 + c / 12 * 0x800000 + c % 12 * 0x40000
def CORE_RUNAHEAD_CTL_RA_ENABLE (c : Nat) : Fld := ⟨CORE_RUNAHEAD_CTL c, 0, 1, 1⟩
def CORE_RUNAHEAD_CTL_RA_DEPTH (c : Nat) : Fld := ⟨CORE_RUNAHEAD_CTL c, 8, 6, 32⟩
/-- CORE_RUNAHEAD_STAT (R69). -/
def CORE_RUNAHEAD_STAT (c : Nat) : Nat := 0x02000020 + c / 12 * 0x800000 + c % 12 * 0x40000
def CORE_RUNAHEAD_STAT_RA_KEPT (c : Nat) : Fld := ⟨CORE_RUNAHEAD_STAT c, 0, 32, 0⟩
def CORE_RUNAHEAD_STAT_RA_DISCARDED (c : Nat) : Fld := ⟨CORE_RUNAHEAD_STAT c, 32, 32, 0⟩
/-- LEAF_ARRAY_EN (R142). -/
def LEAF_ARRAY_EN (l : Nat) : Nat := 0x02340000 + l * 0x800000
def LEAF_ARRAY_EN_EN (l : Nat) : Fld := ⟨LEAF_ARRAY_EN l, 0, 48, 0⟩
/-- LEAF_ARRAY_FAIL (R142). -/
def LEAF_ARRAY_FAIL (l : Nat) : Nat := 0x02340008 + l * 0x800000
def LEAF_ARRAY_FAIL_FAIL (l : Nat) : Fld := ⟨LEAF_ARRAY_FAIL l, 0, 48, 0⟩
def LEAF_ARRAY_FAIL_REPLACE (l : Nat) : Fld := ⟨LEAF_ARRAY_FAIL l, 48, 1, 0⟩
/-- LEAF_ARRAY_CHECK (R142). -/
def LEAF_ARRAY_CHECK (l : Nat) : Nat := 0x02340010 + l * 0x800000
def LEAF_ARRAY_CHECK_CHECK_ERRS (l : Nat) : Fld := ⟨LEAF_ARRAY_CHECK l, 0, 32, 0⟩
def LEAF_ARRAY_CHECK_SELFTESTS (l : Nat) : Fld := ⟨LEAF_ARRAY_CHECK l, 32, 16, 0⟩
/-- LEAF_FILL_CTL (R142). -/
def LEAF_FILL_CTL (l : Nat) : Nat := 0x02340018 + l * 0x800000
def LEAF_FILL_CTL_FILL_FLOOR (l : Nat) : Fld := ⟨LEAF_FILL_CTL l, 0, 12, 0⟩
/-- LEAF_FILL_STAT (R142). -/
def LEAF_FILL_STAT (l : Nat) : Nat := 0x02340020 + l * 0x800000
def LEAF_FILL_STAT_FILL_KCYCLES (l : Nat) : Fld := ⟨LEAF_FILL_STAT l, 0, 48, 0⟩
/-- HM_SPLIT (R179). -/
def HM_SPLIT : Nat := 0x00C00000
def HM_SPLIT_DIRECT : Fld := ⟨HM_SPLIT, 0, 3, 1⟩
def HM_SPLIT_DIRECT_MIB : Fld := ⟨HM_SPLIT, 16, 16, 64⟩
def HM_SPLIT_CACHE_MIB : Fld := ⟨HM_SPLIT, 32, 16, 192⟩
/-- HM_KEEP_QUOTA (R179). -/
def HM_KEEP_QUOTA : Nat := 0x00C00008
def HM_KEEP_QUOTA_QUOTA_MIB : Fld := ⟨HM_KEEP_QUOTA, 0, 8, 32⟩
def HM_KEEP_QUOTA_USED_Q0 : Fld := ⟨HM_KEEP_QUOTA, 16, 8, 0⟩
def HM_KEEP_QUOTA_USED_Q1 : Fld := ⟨HM_KEEP_QUOTA, 24, 8, 0⟩
def HM_KEEP_QUOTA_USED_Q2 : Fld := ⟨HM_KEEP_QUOTA, 32, 8, 0⟩
def HM_KEEP_QUOTA_USED_Q3 : Fld := ⟨HM_KEEP_QUOTA, 40, 8, 0⟩
/-- HM_LM_MAP (R179). -/
def HM_LM_MAP : Nat := 0x00C00010
def HM_LM_MAP_SPREAD : Fld := ⟨HM_LM_MAP, 0, 4, 4⟩
def HM_LM_MAP_QWIN_GIB : Fld := ⟨HM_LM_MAP, 8, 12, 92⟩
def HM_LM_MAP_SWIN_GIB : Fld := ⟨HM_LM_MAP, 20, 12, 128⟩
/-- HM_CACHE_CTL (R179). -/
def HM_CACHE_CTL : Nat := 0x00C00018
def HM_CACHE_CTL_FLUSH : Fld := ⟨HM_CACHE_CTL, 0, 1, 0⟩
def HM_CACHE_CTL_UNPROTECT : Fld := ⟨HM_CACHE_CTL, 1, 1, 0⟩
/-- HM_CACHE_STAT (R179). -/
def HM_CACHE_STAT : Nat := 0x00C00020
def HM_CACHE_STAT_HITS : Fld := ⟨HM_CACHE_STAT, 0, 32, 0⟩
def HM_CACHE_STAT_DROPS : Fld := ⟨HM_CACHE_STAT, 32, 16, 0⟩
/-- TUM_HUB_OWNER (R197). -/
def TUM_HUB_OWNER (h : Nat) : Nat := 0x00330000 + h * 0x8
def TUM_HUB_OWNER_TASK (h : Nat) : Fld := ⟨TUM_HUB_OWNER h, 0, 16, 0⟩
def TUM_HUB_OWNER_ALLOC (h : Nat) : Fld := ⟨TUM_HUB_OWNER h, 16, 1, 0⟩
def TUM_HUB_OWNER_FIRST (h : Nat) : Fld := ⟨TUM_HUB_OWNER h, 17, 1, 0⟩
def TUM_HUB_OWNER_LEN (h : Nat) : Fld := ⟨TUM_HUB_OWNER h, 18, 7, 0⟩
def TUM_HUB_OWNER_PRE (h : Nat) : Fld := ⟨TUM_HUB_OWNER h, 25, 1, 0⟩
/-- TUM_CORE_OWNER (R197). -/
def TUM_CORE_OWNER (c : Nat) : Nat := 0x00338000 + c * 0x8
def TUM_CORE_OWNER_TASK (c : Nat) : Fld := ⟨TUM_CORE_OWNER c, 0, 16, 0⟩
def TUM_CORE_OWNER_OCCUPIED (c : Nat) : Fld := ⟨TUM_CORE_OWNER c, 16, 1, 0⟩
def TUM_CORE_OWNER_PRE_HELD (c : Nat) : Fld := ⟨TUM_CORE_OWNER c, 17, 1, 0⟩
def TUM_CORE_OWNER_PARKED (c : Nat) : Fld := ⟨TUM_CORE_OWNER c, 32, 11, 0⟩
/-- TUM_HOST_ADD (R197). -/
def TUM_HOST_ADD : Nat := 0x00339000
def TUM_HOST_ADD_INDEX : Fld := ⟨TUM_HOST_ADD, 0, 15, 0⟩
def TUM_HOST_ADD_N : Fld := ⟨TUM_HOST_ADD, 32, 32, 0⟩
/-- TUM_DL_CTL (R197). -/
def TUM_DL_CTL : Nat := 0x00339008
def TUM_DL_CTL_WINDOW_US : Fld := ⟨TUM_DL_CTL, 0, 20, 1000⟩
/-- TUM_DL_SNAP (R197). -/
def TUM_DL_SNAP : Nat := 0x00339010
def TUM_DL_SNAP_BASE : Fld := ⟨TUM_DL_SNAP, 6, 22, 1048448⟩
/-- TUM_DL_STAT (R197). -/
def TUM_DL_STAT : Nat := 0x00339018
def TUM_DL_STAT_FIRED : Fld := ⟨TUM_DL_STAT, 0, 16, 0⟩
def TUM_DL_STAT_LAST_TASK : Fld := ⟨TUM_DL_STAT, 16, 16, 0⟩
def TUM_DL_STAT_LAST_ENTRIES : Fld := ⟨TUM_DL_STAT, 32, 9, 0⟩
def TUM_DL_STAT_SNAP_LOST : Fld := ⟨TUM_DL_STAT, 41, 1, 0⟩
/-- TUM_PARK_STAT (R197). -/
def TUM_PARK_STAT : Nat := 0x00339020
def TUM_PARK_STAT_PARKED : Fld := ⟨TUM_PARK_STAT, 0, 11, 0⟩
def TUM_PARK_STAT_REFUSED : Fld := ⟨TUM_PARK_STAT, 16, 32, 0⟩
/-- TUM_RESIDUE (R197). -/
def TUM_RESIDUE : Nat := 0x00339028
def TUM_RESIDUE_RESIDUES : Fld := ⟨TUM_RESIDUE, 0, 16, 0⟩
def TUM_RESIDUE_TASK : Fld := ⟨TUM_RESIDUE, 16, 16, 0⟩
def TUM_RESIDUE_CHECKED : Fld := ⟨TUM_RESIDUE, 32, 32, 0⟩
/-- TUM_RESIDUE_FIRST (R197). -/
def TUM_RESIDUE_FIRST : Nat := 0x00339030
def TUM_RESIDUE_FIRST_INDEX : Fld := ⟨TUM_RESIDUE_FIRST, 0, 15, 0⟩
def TUM_RESIDUE_FIRST_VALUE : Fld := ⟨TUM_RESIDUE_FIRST, 32, 32, 0⟩
/-- KV_CTL (R215). -/
def KV_CTL : Nat := 0x00280000
def KV_CTL_TABLE_BASE_MIB : Fld := ⟨KV_CTL, 0, 8, 0⟩
def KV_CTL_TABLE_MIB : Fld := ⟨KV_CTL, 8, 8, 16⟩
def KV_CTL_HOT_DEPTH : Fld := ⟨KV_CTL, 16, 8, 16⟩
def KV_CTL_MOVE_EN : Fld := ⟨KV_CTL, 24, 1, 1⟩
def KV_CTL_CLEAR : Fld := ⟨KV_CTL, 25, 1, 0⟩
/-- KV_SEQ_SEL (R215). -/
def KV_SEQ_SEL : Nat := 0x00280008
def KV_SEQ_SEL_SEQ : Fld := ⟨KV_SEQ_SEL, 0, 12, 0⟩
/-- KV_SEQ_STATE (R215). -/
def KV_SEQ_STATE : Nat := 0x00280010
def KV_SEQ_STATE_STATE : Fld := ⟨KV_SEQ_STATE, 0, 2, 0⟩
def KV_SEQ_STATE_GEOM : Fld := ⟨KV_SEQ_STATE, 2, 4, 0⟩
def KV_SEQ_STATE_POLICY : Fld := ⟨KV_SEQ_STATE, 6, 2, 0⟩
def KV_SEQ_STATE_EPOCH : Fld := ⟨KV_SEQ_STATE, 8, 16, 0⟩
def KV_SEQ_STATE_LENGTH : Fld := ⟨KV_SEQ_STATE, 24, 21, 0⟩
def KV_SEQ_STATE_SPEC : Fld := ⟨KV_SEQ_STATE, 45, 7, 0⟩
/-- KV_SEQ_COUNTER (R215). -/
def KV_SEQ_COUNTER : Nat := 0x00280018
def KV_SEQ_COUNTER_COUNTER : Fld := ⟨KV_SEQ_COUNTER, 0, 64, 0⟩
/-- KV_STAT (R215). -/
def KV_STAT : Nat := 0x00280020
def KV_STAT_SEQS : Fld := ⟨KV_STAT, 0, 13, 0⟩
def KV_STAT_DISABLED : Fld := ⟨KV_STAT, 13, 1, 0⟩
def KV_STAT_MC_STALE : Fld := ⟨KV_STAT, 16, 16, 0⟩
def KV_STAT_MOVES : Fld := ⟨KV_STAT, 32, 32, 0⟩
/-- KV_GEOM (R215). -/
def KV_GEOM (g : Nat) : Nat := 0x00280100 + g * 0x8
def KV_GEOM_VALID (g : Nat) : Fld := ⟨KV_GEOM g, 0, 1, 0⟩
def KV_GEOM_HEADS (g : Nat) : Fld := ⟨KV_GEOM g, 1, 6, 1⟩
def KV_GEOM_WIDTH (g : Nat) : Fld := ⟨KV_GEOM g, 7, 9, 128⟩
def KV_GEOM_ILV_LOG2 (g : Nat) : Fld := ⟨KV_GEOM g, 16, 3, 0⟩
def KV_GEOM_PHASE (g : Nat) : Fld := ⟨KV_GEOM g, 19, 3, 0⟩
def KV_GEOM_SCALE_MODE (g : Nat) : Fld := ⟨KV_GEOM g, 22, 1, 0⟩
def KV_GEOM_HEADROOM_LOG2 (g : Nat) : Fld := ⟨KV_GEOM g, 23, 2, 2⟩
def KV_GEOM_LAYERS (g : Nat) : Fld := ⟨KV_GEOM g, 32, 11, 1⟩
def KV_GEOM_GROUP (g : Nat) : Fld := ⟨KV_GEOM g, 48, 6, 16⟩
def KV_GEOM_FIXED_E8M0 (g : Nat) : Fld := ⟨KV_GEOM g, 56, 8, 127⟩
/-- KV_POOL_LO (R215). -/
def KV_POOL_LO (p : Nat) : Nat := 0x00280200 + p * 0x10
def KV_POOL_LO_SPACE (p : Nat) : Fld := ⟨KV_POOL_LO p, 0, 2, 0⟩
def KV_POOL_LO_CORE (p : Nat) : Fld := ⟨KV_POOL_LO p, 2, 6, 0⟩
def KV_POOL_LO_HINT (p : Nat) : Fld := ⟨KV_POOL_LO p, 8, 2, 0⟩
def KV_POOL_LO_TIER (p : Nat) : Fld := ⟨KV_POOL_LO p, 10, 1, 0⟩
def KV_POOL_LO_VALID (p : Nat) : Fld := ⟨KV_POOL_LO p, 11, 1, 0⟩
def KV_POOL_LO_BAD (p : Nat) : Fld := ⟨KV_POOL_LO p, 12, 1, 0⟩
def KV_POOL_LO_BASE (p : Nat) : Fld := ⟨KV_POOL_LO p, 16, 32, 0⟩
/-- KV_POOL_HI (R215). -/
def KV_POOL_HI (p : Nat) : Nat := 0x00280208 + p * 0x10
def KV_POOL_HI_PAGES (p : Nat) : Fld := ⟨KV_POOL_HI p, 0, 32, 0⟩
def KV_POOL_HI_FREE (p : Nat) : Fld := ⟨KV_POOL_HI p, 32, 32, 0⟩
/-- SCHED_Q_RING (R239). -/
def SCHED_Q_RING (q : Nat) : Nat := 0x00200000 + q * 0x20
def SCHED_Q_RING_SIZE_LOG2 (q : Nat) : Fld := ⟨SCHED_Q_RING q, 0, 4, 6⟩
def SCHED_Q_RING_ENABLE (q : Nat) : Fld := ⟨SCHED_Q_RING q, 4, 1, 0⟩
def SCHED_Q_RING_BASE (q : Nat) : Fld := ⟨SCHED_Q_RING q, 12, 52, 0⟩
/-- SCHED_Q_CPL (R239). -/
def SCHED_Q_CPL (q : Nat) : Nat := 0x00200008 + q * 0x20
def SCHED_Q_CPL_VECTOR (q : Nat) : Fld := ⟨SCHED_Q_CPL q, 0, 6, q⟩
def SCHED_Q_CPL_BASE (q : Nat) : Fld := ⟨SCHED_Q_CPL q, 12, 52, 0⟩
/-- SCHED_Q_STATE (R239). -/
def SCHED_Q_STATE (q : Nat) : Nat := 0x00200010 + q * 0x20
def SCHED_Q_STATE_HEAD (q : Nat) : Fld := ⟨SCHED_Q_STATE q, 0, 16, 0⟩
def SCHED_Q_STATE_TAIL (q : Nat) : Fld := ⟨SCHED_Q_STATE q, 16, 16, 0⟩
def SCHED_Q_STATE_CPL_TAIL (q : Nat) : Fld := ⟨SCHED_Q_STATE q, 32, 16, 0⟩
def SCHED_Q_STATE_CPL_FULL (q : Nat) : Fld := ⟨SCHED_Q_STATE q, 48, 1, 0⟩
def SCHED_Q_STATE_PHASE (q : Nat) : Fld := ⟨SCHED_Q_STATE q, 49, 1, 1⟩
/-- SCHED_RES (R239). -/
def SCHED_RES : Nat := 0x00201000
def SCHED_RES_HM_KIB : Fld := ⟨SCHED_RES, 0, 32, 65536⟩
def SCHED_RES_LM_MIB : Fld := ⟨SCHED_RES, 32, 32, 507904⟩
/-- SCHED_SAVE (R239). -/
def SCHED_SAVE : Nat := 0x00201008
def SCHED_SAVE_BASE_MIB : Fld := ⟨SCHED_SAVE, 0, 32, 0⟩
def SCHED_SAVE_SIZE_MIB : Fld := ⟨SCHED_SAVE, 32, 32, 0⟩
/-- SCHED_PRE_CTL (R239). -/
def SCHED_PRE_CTL : Nat := 0x00201010
def SCHED_PRE_CTL_SAFE_WAIT_US : Fld := ⟨SCHED_PRE_CTL, 0, 20, 1000⟩
def SCHED_PRE_CTL_PRE_EN : Fld := ⟨SCHED_PRE_CTL, 20, 1, 1⟩
/-- SCHED_C0_STAT (R239). -/
def SCHED_C0_STAT : Nat := 0x00201018
def SCHED_C0_STAT_TOKENS : Fld := ⟨SCHED_C0_STAT, 0, 5, 16⟩
def SCHED_C0_STAT_HELD : Fld := ⟨SCHED_C0_STAT, 16, 16, 0⟩
def SCHED_C0_STAT_HELD_TOTAL : Fld := ⟨SCHED_C0_STAT, 32, 32, 0⟩
/-- SCHED_STAT (R239). -/
def SCHED_STAT : Nat := 0x00201020
def SCHED_STAT_TASKS : Fld := ⟨SCHED_STAT, 0, 9, 0⟩
def SCHED_STAT_PREEMPTIONS : Fld := ⟨SCHED_STAT, 16, 16, 0⟩
def SCHED_STAT_ABANDONED : Fld := ⟨SCHED_STAT, 32, 16, 0⟩
def SCHED_STAT_REFUSED : Fld := ⟨SCHED_STAT, 48, 16, 0⟩
/-- RT_CTL (R259). -/
def RT_CTL : Nat := 0x00400000
def RT_CTL_ZLEN : Fld := ⟨RT_CTL, 0, 4, 1⟩
def RT_CTL_WLEN : Fld := ⟨RT_CTL, 4, 4, 1⟩
def RT_CTL_ACTIVE_BANK : Fld := ⟨RT_CTL, 8, 1, 0⟩
def RT_CTL_RECOMPUTE : Fld := ⟨RT_CTL, 9, 1, 0⟩
/-- RT_JOB (R259). -/
def RT_JOB : Nat := 0x00400008
def RT_JOB_JOB : Fld := ⟨RT_JOB, 0, 16, 0⟩
/-- RT_TRANSIT (R259). -/
def RT_TRANSIT : Nat := 0x00400010
def RT_TRANSIT_SHARE_PCT : Fld := ⟨RT_TRANSIT, 0, 7, 25⟩
/-- RT_ARB (R259). -/
def RT_ARB : Nat := 0x00400018
def RT_ARB_C1_W : Fld := ⟨RT_ARB, 0, 8, 8⟩
def RT_ARB_C2_W : Fld := ⟨RT_ARB, 8, 8, 4⟩
def RT_ARB_C3_W : Fld := ⟨RT_ARB, 16, 8, 1⟩
/-- RT_ZDIR (R259). -/
def RT_ZDIR : Nat := 0x00400020
def RT_ZDIR_DIR : Fld := ⟨RT_ZDIR, 0, 64, 0⟩
/-- RT_WDIR (R259). -/
def RT_WDIR : Nat := 0x00400028
def RT_WDIR_DIR : Fld := ⟨RT_WDIR, 0, 64, 0⟩
/-- RT_LINKS (R259). -/
def RT_LINKS : Nat := 0x00400030
def RT_LINKS_USABLE : Fld := ⟨RT_LINKS, 0, 20, 0⟩
def RT_LINKS_MAPPED : Fld := ⟨RT_LINKS, 20, 20, 0⟩
/-- RT_STAT (R259). -/
def RT_STAT : Nat := 0x00400038
def RT_STAT_DETOURS : Fld := ⟨RT_STAT, 0, 16, 0⟩
def RT_STAT_REPAIRS : Fld := ⟨RT_STAT, 16, 16, 0⟩
def RT_STAT_HOP_DROPS : Fld := ⟨RT_STAT, 32, 16, 0⟩
def RT_STAT_NO_ROUTE : Fld := ⟨RT_STAT, 48, 16, 0⟩
/-- RT_REPAIR_TIME (R259). -/
def RT_REPAIR_TIME : Nat := 0x00400040
def RT_REPAIR_TIME_LAST_US : Fld := ⟨RT_REPAIR_TIME, 0, 32, 0⟩
def RT_REPAIR_TIME_MAX_US : Fld := ⟨RT_REPAIR_TIME, 32, 32, 0⟩
/-- RT_TRANSIT_STAT (R259). -/
def RT_TRANSIT_STAT : Nat := 0x00400048
def RT_TRANSIT_STAT_TRANSIT_KFLITS : Fld := ⟨RT_TRANSIT_STAT, 0, 32, 0⟩
def RT_TRANSIT_STAT_SHARE_WAITS : Fld := ⟨RT_TRANSIT_STAT, 32, 32, 0⟩
/-- LK_CTL (R290). -/
def LK_CTL (p : Nat) : Nat := 0x00600000 + p * 0x10000
def LK_CTL_ENABLE (p : Nat) : Fld := ⟨LK_CTL p, 0, 1, 1⟩
def LK_CTL_WORMHOLE (p : Nat) : Fld := ⟨LK_CTL p, 1, 3, 0⟩
def LK_CTL_RETRAIN (p : Nat) : Fld := ⟨LK_CTL p, 4, 1, 0⟩
/-- LK_STATE (R290). -/
def LK_STATE (p : Nat) : Nat := 0x00600008 + p * 0x10000
def LK_STATE_STATE (p : Nat) : Fld := ⟨LK_STATE p, 0, 3, 0⟩
def LK_STATE_RETRY (p : Nat) : Fld := ⟨LK_STATE p, 3, 1, 0⟩
def LK_STATE_FEC (p : Nat) : Fld := ⟨LK_STATE p, 4, 1, 0⟩
def LK_STATE_TX_MASK (p : Nat) : Fld := ⟨LK_STATE p, 8, 16, 0⟩
def LK_STATE_RX_MASK (p : Nat) : Fld := ⟨LK_STATE p, 24, 16, 0⟩
/-- LK_NBR (R290). -/
def LK_NBR (p : Nat) : Nat := 0x00600010 + p * 0x10000
def LK_NBR_SEEN_MODULE (p : Nat) : Fld := ⟨LK_NBR p, 0, 12, 0⟩
def LK_NBR_SEEN_PORT (p : Nat) : Fld := ⟨LK_NBR p, 12, 5, 0⟩
def LK_NBR_SEEN_VALID (p : Nat) : Fld := ⟨LK_NBR p, 17, 1, 0⟩
def LK_NBR_EXP_MODULE (p : Nat) : Fld := ⟨LK_NBR p, 32, 12, 0⟩
def LK_NBR_EXP_PORT (p : Nat) : Fld := ⟨LK_NBR p, 44, 5, 0⟩
def LK_NBR_EXP_ADAPTER (p : Nat) : Fld := ⟨LK_NBR p, 49, 1, 0⟩
/-- LK_DOWN (R290). -/
def LK_DOWN (p : Nat) : Nat := 0x00600018 + p * 0x10000
def LK_DOWN_CAUSE (p : Nat) : Fld := ⟨LK_DOWN p, 0, 4, 0⟩
def LK_DOWN_DOWNS (p : Nat) : Fld := ⟨LK_DOWN p, 16, 16, 0⟩
def LK_DOWN_TIME (p : Nat) : Fld := ⟨LK_DOWN p, 32, 32, 0⟩
/-- LK_ERR (R290). -/
def LK_ERR (p : Nat) : Nat := 0x00600020 + p * 0x10000
def LK_ERR_CRC_FAILS (p : Nat) : Fld := ⟨LK_ERR p, 0, 32, 0⟩
def LK_ERR_REPLAYS (p : Nat) : Fld := ⟨LK_ERR p, 32, 16, 0⟩
def LK_ERR_DISCARDS (p : Nat) : Fld := ⟨LK_ERR p, 48, 16, 0⟩
/-- LK_PV (R290). -/
def LK_PV (p : Nat) : Nat := 0x00600028 + p * 0x10000
def LK_PV_LAST_CODE (p : Nat) : Fld := ⟨LK_PV p, 0, 8, 0⟩
def LK_PV_LAST_VC (p : Nat) : Fld := ⟨LK_PV p, 8, 5, 0⟩
def LK_PV_COUNT (p : Nat) : Fld := ⟨LK_PV p, 16, 16, 0⟩
def LK_PV_WARDS (p : Nat) : Fld := ⟨LK_PV p, 32, 16, 0⟩
/-- LK_FEC (R290). -/
def LK_FEC (p : Nat) : Nat := 0x00600030 + p * 0x10000
def LK_FEC_CORR_KCW (p : Nat) : Fld := ⟨LK_FEC p, 0, 32, 0⟩
def LK_FEC_UNCORR_CW (p : Nat) : Fld := ⟨LK_FEC p, 32, 32, 0⟩
/-- LK_KEY (R291). -/
def LK_KEY : Nat := 0x00740000
def LK_KEY_KEY : Fld := ⟨LK_KEY, 0, 64, 0⟩
/-- LK_WINDOW (R291). -/
def LK_WINDOW : Nat := 0x00740008
def LK_WINDOW_WINDOW_KIB : Fld := ⟨LK_WINDOW, 0, 16, 256⟩
/-- OE_CTL (R335). -/
def OE_CTL (e : Nat) : Nat := 0x00800000 + e * 0x20000
def OE_CTL_CAL_EN (e : Nat) : Fld := ⟨OE_CTL e, 0, 1, 1⟩
def OE_CTL_PLAN_EN (e : Nat) : Fld := ⟨OE_CTL e, 1, 1, 1⟩
def OE_CTL_CAL_PERIOD_MS (e : Nat) : Fld := ⟨OE_CTL e, 8, 10, 100⟩
/-- OE_STATUS (R335). -/
def OE_STATUS (e : Nat) : Nat := 0x00800008 + e * 0x20000
def OE_STATUS_SEATED (e : Nat) : Fld := ⟨OE_STATUS e, 0, 1, 0⟩
def OE_STATUS_SAFE_A (e : Nat) : Fld := ⟨OE_STATUS e, 1, 1, 1⟩
def OE_STATUS_SAFE_B (e : Nat) : Fld := ⟨OE_STATUS e, 2, 1, 1⟩
def OE_STATUS_SWAP_STATE (e : Nat) : Fld := ⟨OE_STATUS e, 3, 3, 0⟩
def OE_STATUS_SWAP_EMITTER (e : Nat) : Fld := ⟨OE_STATUS e, 6, 4, 15⟩
def OE_STATUS_SWAP_SPARE (e : Nat) : Fld := ⟨OE_STATUS e, 10, 4, 15⟩
def OE_STATUS_SERVICE (e : Nat) : Fld := ⟨OE_STATUS e, 14, 1, 0⟩
/-- OE_EMIT (R335). -/
def OE_EMIT (e k : Nat) : Nat := 0x00800010 + e * 0x20000 + k * 0x8
def OE_EMIT_ROLE (e k : Nat) : Fld := ⟨OE_EMIT e k, 0, 2, (k + 1) % 3⟩
def OE_EMIT_LEVEL (e k : Nat) : Fld := ⟨OE_EMIT e k, 2, 2, 0⟩
def OE_EMIT_FADE_DDB (e k : Nat) : Fld := ⟨OE_EMIT e k, 8, 8, 0⟩
def OE_EMIT_ON_HOURS (e k : Nat) : Fld := ⟨OE_EMIT e k, 32, 32, 0⟩
/-- OE_LOCK (R335). -/
def OE_LOCK (e : Nat) : Nat := 0x00800070 + e * 0x20000
def OE_LOCK_LOCKED (e : Nat) : Fld := ⟨OE_LOCK e, 0, 32, 0⟩
def OE_LOCK_RELOCKS (e : Nat) : Fld := ⟨OE_LOCK e, 32, 16, 0⟩
/-- OE_CAL (R335). -/
def OE_CAL (e i : Nat) : Nat := 0x00800078 + e * 0x20000 + i * 0x8
def OE_CAL_NEXT_LANE (e i : Nat) : Fld := ⟨OE_CAL e i, 0, 4, 0⟩
def OE_CAL_ACTIVE (e i : Nat) : Fld := ⟨OE_CAL e i, 4, 1, 0⟩
def OE_CAL_CALS (e i : Nat) : Fld := ⟨OE_CAL e i, 8, 24, 0⟩
def OE_CAL_SKIPPED (e i : Nat) : Fld := ⟨OE_CAL e i, 32, 16, 0⟩
def OE_CAL_NO_RESTORE (e i : Nat) : Fld := ⟨OE_CAL e i, 48, 16, 0⟩
/-- SF_LATCH (R336). -/
def SF_LATCH : Nat := 0x00940000
def SF_LATCH_ANGLE : Fld := ⟨SF_LATCH, 0, 8, 0⟩
def SF_LATCH_OPEN : Fld := ⟨SF_LATCH, 8, 1, 0⟩
def SF_LATCH_WITHDRAW : Fld := ⟨SF_LATCH, 9, 1, 0⟩
def SF_LATCH_DRAIN : Fld := ⟨SF_LATCH, 10, 1, 0⟩
def SF_LATCH_LEFT : Fld := ⟨SF_LATCH, 11, 1, 0⟩
def SF_LATCH_OPEN_TIME : Fld := ⟨SF_LATCH, 16, 16, 0⟩
def SF_LATCH_OPENINGS : Fld := ⟨SF_LATCH, 32, 16, 0⟩
/-- SF_CONN (R336). -/
def SF_CONN : Nat := 0x00940008
def SF_CONN_SEATED : Fld := ⟨SF_CONN, 0, 10, 0⟩
def SF_CONN_REMOVALS : Fld := ⟨SF_CONN, 16, 32, 0⟩
/-- SF_BEACON (R336). -/
def SF_BEACON : Nat := 0x00940010
def SF_BEACON_BEACON : Fld := ⟨SF_BEACON, 0, 1, 0⟩
def SF_BEACON_PAD_EN : Fld := ⟨SF_BEACON, 1, 1, 1⟩
/-- SF_BAR (R336). -/
def SF_BAR : Nat := 0x00940018
def SF_BAR_MODE : Fld := ⟨SF_BAR, 0, 2, 0⟩
def SF_BAR_BRIGHT : Fld := ⟨SF_BAR, 2, 6, 32⟩
/-- LL_CTL (R353). -/
def LL_CTL (l : Nat) : Nat := 0x02300000 + l * 0x800000
def LL_CTL_RESET (l : Nat) : Fld := ⟨LL_CTL l, 0, 1, 0⟩
def LL_CTL_RETRAIN_THRESH (l : Nat) : Fld := ⟨LL_CTL l, 8, 8, 16⟩
/-- LL_STATE (R353). -/
def LL_STATE (l : Nat) : Nat := 0x02300008 + l * 0x800000
def LL_STATE_STATE (l : Nat) : Fld := ⟨LL_STATE l, 0, 2, 0⟩
def LL_STATE_FULL (l : Nat) : Fld := ⟨LL_STATE l, 2, 6, 0⟩
def LL_STATE_HALF (l : Nat) : Fld := ⟨LL_STATE l, 8, 6, 0⟩
def LL_STATE_DISABLED (l : Nat) : Fld := ⟨LL_STATE l, 14, 6, 0⟩
def LL_STATE_DISAGREE (l : Nat) : Fld := ⟨LL_STATE l, 20, 2, 0⟩
def LL_STATE_RATE_64THS (l : Nat) : Fld := ⟨LL_STATE l, 22, 7, 0⟩
/-- LL_WIDTH (R353). -/
def LL_WIDTH (l : Nat) : Nat := 0x02300010 + l * 0x800000
def LL_WIDTH_MOD (l m : Nat) : Fld := ⟨LL_WIDTH l, 2 * m, 2, 0⟩
/-- LL_SPARE (R353). -/
def LL_SPARE (l : Nat) : Nat := 0x02300018 + l * 0x800000
def LL_SPARE_EXHAUSTED (l : Nat) : Fld := ⟨LL_SPARE l, 0, 32, 0⟩
def LL_SPARE_REPAIRS (l : Nat) : Fld := ⟨LL_SPARE l, 32, 16, 0⟩
/-- LL_ERR (R353). -/
def LL_ERR (l : Nat) : Nat := 0x02300020 + l * 0x800000
def LL_ERR_RETRIES (l : Nat) : Fld := ⟨LL_ERR l, 0, 32, 0⟩
def LL_ERR_RETRAINS (l : Nat) : Fld := ⟨LL_ERR l, 32, 16, 0⟩
/-- LL_BUDGET (R353). -/
def LL_BUDGET (l : Nat) : Nat := 0x02300028 + l * 0x800000
def LL_BUDGET_GRANT_W (l : Nat) : Fld := ⟨LL_BUDGET l, 0, 10, 0⟩
def LL_BUDGET_REQUEST_W (l : Nat) : Fld := ⟨LL_BUDGET l, 10, 10, 0⟩
def LL_BUDGET_DRAW_W (l : Nat) : Fld := ⟨LL_BUDGET l, 20, 10, 0⟩
def LL_BUDGET_TEMP_C (l : Nat) : Fld := ⟨LL_BUDGET l, 30, 8, 0⟩
def LL_BUDGET_STALE (l : Nat) : Fld := ⟨LL_BUDGET l, 38, 1, 0⟩
/-- LMC_CTL (R367). -/
def LMC_CTL (q : Nat) : Nat := 0x00A00000 + q * 0x80000
def LMC_CTL_SCRUB_EN (q : Nat) : Fld := ⟨LMC_CTL q, 0, 1, 1⟩
def LMC_CTL_DRIFT_PS (q : Nat) : Fld := ⟨LMC_CTL q, 8, 5, 6⟩
def LMC_CTL_SCRUB_HOURS (q : Nat) : Fld := ⟨LMC_CTL q, 16, 8, 24⟩
def LMC_CTL_REPAIR_THRESH (q : Nat) : Fld := ⟨LMC_CTL q, 24, 8, 64⟩
/-- LMC_ECC_LAST (R367). -/
def LMC_ECC_LAST (q : Nat) : Nat := 0x00A00008 + q * 0x80000
def LMC_ECC_LAST_OFFSET (q : Nat) : Fld := ⟨LMC_ECC_LAST q, 0, 40, 0⟩
def LMC_ECC_LAST_CHANNEL (q : Nat) : Fld := ⟨LMC_ECC_LAST q, 40, 6, 0⟩
def LMC_ECC_LAST_LATENT (q : Nat) : Fld := ⟨LMC_ECC_LAST q, 46, 1, 0⟩
def LMC_ECC_LAST_VALID (q : Nat) : Fld := ⟨LMC_ECC_LAST q, 47, 1, 0⟩
/-- LMC_STAT (R367). -/
def LMC_STAT (q : Nat) : Nat := 0x00A00010 + q * 0x80000
def LMC_STAT_LINK_KCORR (q : Nat) : Fld := ⟨LMC_STAT q, 0, 32, 0⟩
def LMC_STAT_SCRUB_PASSES (q : Nat) : Fld := ⟨LMC_STAT q, 32, 16, 0⟩
def LMC_STAT_POISONED (q : Nat) : Fld := ⟨LMC_STAT q, 48, 16, 0⟩
/-- LMC_CH (R367). -/
def LMC_CH (q i : Nat) : Nat := 0x00A00100 + q * 0x80000 + i * 0x8
def LMC_CH_STATE (q i : Nat) : Fld := ⟨LMC_CH q i, 0, 2, 0⟩
def LMC_CH_CORRECTED (q i : Nat) : Fld := ⟨LMC_CH q i, 8, 16, 0⟩
def LMC_CH_UNCORR (q i : Nat) : Fld := ⟨LMC_CH q i, 24, 8, 0⟩
def LMC_CH_RETRAINS (q i : Nat) : Fld := ⟨LMC_CH q i, 32, 16, 0⟩
def LMC_CH_REPAIRS (q i : Nat) : Fld := ⟨LMC_CH q i, 48, 8, 0⟩
/-- GLB_BOOT (R393). -/
def GLB_BOOT : Nat := 0x00000018
def GLB_BOOT_STAGE : Fld := ⟨GLB_BOOT, 0, 3, 0⟩
def GLB_BOOT_SLOT : Fld := ⟨GLB_BOOT, 3, 1, 0⟩
def GLB_BOOT_CFG_VALID : Fld := ⟨GLB_BOOT, 4, 1, 0⟩
def GLB_BOOT_FAIL_CODE : Fld := ⟨GLB_BOOT, 8, 8, 0⟩
def GLB_BOOT_SVN_FUSE : Fld := ⟨GLB_BOOT, 16, 7, 0⟩
def GLB_BOOT_SVN_IMAGE : Fld := ⟨GLB_BOOT, 24, 7, 0⟩
def GLB_BOOT_READY_MS : Fld := ⟨GLB_BOOT, 32, 32, 0⟩
/-- GLB_CTL (R393). -/
def GLB_CTL : Nat := 0x00000020
def GLB_CTL_MODULE_RESET : Fld := ⟨GLB_CTL, 0, 1, 0⟩
/-- HOST_IRQ (R393). -/
def HOST_IRQ : Nat := 0x00000028
def HOST_IRQ_ERR_VEC : Fld := ⟨HOST_IRQ, 0, 6, 0⟩
def HOST_IRQ_SVC_VEC : Fld := ⟨HOST_IRQ, 8, 6, 0⟩
def HOST_IRQ_MBX_VEC : Fld := ⟨HOST_IRQ, 16, 6, 0⟩
/-- HOST_IRQ_CAUSE (R393). -/
def HOST_IRQ_CAUSE : Nat := 0x00000030
def HOST_IRQ_CAUSE_ERR : Fld := ⟨HOST_IRQ_CAUSE, 0, 1, 0⟩
def HOST_IRQ_CAUSE_LATCH : Fld := ⟨HOST_IRQ_CAUSE, 1, 1, 0⟩
def HOST_IRQ_CAUSE_LEFT : Fld := ⟨HOST_IRQ_CAUSE, 2, 1, 0⟩
def HOST_IRQ_CAUSE_READY : Fld := ⟨HOST_IRQ_CAUSE, 3, 1, 0⟩
def HOST_IRQ_CAUSE_MBX : Fld := ⟨HOST_IRQ_CAUSE, 4, 4, 0⟩
/-- HOST_STAT (R393). -/
def HOST_STAT : Nat := 0x00000038
def HOST_STAT_SPEED : Fld := ⟨HOST_STAT, 0, 3, 0⟩
def HOST_STAT_WIDTH : Fld := ⟨HOST_STAT, 3, 3, 0⟩
def HOST_STAT_FLIT : Fld := ⟨HOST_STAT, 6, 1, 0⟩
def HOST_STAT_CPL_DROPPED : Fld := ⟨HOST_STAT, 16, 16, 0⟩
def HOST_STAT_RING_ERRS : Fld := ⟨HOST_STAT, 32, 16, 0⟩
/-- MBX_CMD (R394). -/
def MBX_CMD (m : Nat) : Nat := 0x00100000 + m * 0x100
def MBX_CMD_OPC (m : Nat) : Fld := ⟨MBX_CMD m, 0, 8, 0⟩
def MBX_CMD_TAG (m : Nat) : Fld := ⟨MBX_CMD m, 8, 16, 0⟩
def MBX_CMD_GO (m : Nat) : Fld := ⟨MBX_CMD m, 32, 1, 0⟩
/-- MBX_ARG (R394). -/
def MBX_ARG (m i : Nat) : Nat := 0x00100008 + m * 0x100 + i * 0x8
def MBX_ARG_ARG (m i : Nat) : Fld := ⟨MBX_ARG m i, 0, 64, 0⟩
/-- MBX_RESULT (R394). -/
def MBX_RESULT (m : Nat) : Nat := 0x00100028 + m * 0x100
def MBX_RESULT_STATUS (m : Nat) : Fld := ⟨MBX_RESULT m, 0, 8, 0⟩
def MBX_RESULT_DETAIL (m : Nat) : Fld := ⟨MBX_RESULT m, 8, 8, 0⟩
def MBX_RESULT_DONE (m : Nat) : Fld := ⟨MBX_RESULT m, 16, 1, 0⟩
def MBX_RESULT_TAG (m : Nat) : Fld := ⟨MBX_RESULT m, 32, 16, 0⟩
def MBX_RESULT_VALUE (m : Nat) : Fld := ⟨MBX_RESULT m, 48, 16, 0⟩
/-- POW_CAP (R410). -/
def POW_CAP : Nat := 0x00D00000
def POW_CAP_CAP_W : Fld := ⟨POW_CAP, 0, 12, 2600⟩
def POW_CAP_AVAIL_W : Fld := ⟨POW_CAP, 16, 12, 0⟩
def POW_CAP_LIMITED : Fld := ⟨POW_CAP, 28, 1, 0⟩
/-- POW_INPUT (R410). -/
def POW_INPUT : Nat := 0x00D00008
def POW_INPUT_POWER_W : Fld := ⟨POW_INPUT, 0, 16, 0⟩
def POW_INPUT_VOLT_10MV : Fld := ⟨POW_INPUT, 16, 16, 0⟩
def POW_INPUT_CURR_10MA : Fld := ⟨POW_INPUT, 32, 16, 0⟩
def POW_INPUT_EFF_PCT : Fld := ⟨POW_INPUT, 48, 7, 91⟩
/-- POW_DOMAINS (R410). -/
def POW_DOMAINS : Nat := 0x00D00010
def POW_DOMAINS_ON : Fld := ⟨POW_DOMAINS, 0, 50, 0⟩
/-- POW_CTL (R410). -/
def POW_CTL : Nat := 0x00D00018
def POW_CTL_CP_IDLE_MS : Fld := ⟨POW_CTL, 0, 8, 10⟩
def POW_CTL_CP_KEEP : Fld := ⟨POW_CTL, 8, 1, 0⟩
def POW_CTL_CLK_MAX_MHZ : Fld := ⟨POW_CTL, 16, 11, 1600⟩
/-- POW_STAT (R410). -/
def POW_STAT : Nat := 0x00D00020
def POW_STAT_DROOPS : Fld := ⟨POW_STAT, 0, 16, 0⟩
def POW_STAT_CP_SWITCHES : Fld := ⟨POW_STAT, 16, 16, 0⟩
def POW_STAT_IBC_FAIL : Fld := ⟨POW_STAT, 32, 1, 0⟩
/-- THERM_CTL (R410). -/
def THERM_CTL : Nat := 0x00D00028
def THERM_CTL_T_HOT_C : Fld := ⟨THERM_CTL, 0, 8, 95⟩
/-- THERM_STAT (R410). -/
def THERM_STAT : Nat := 0x00D00030
def THERM_STAT_LEAF_C : Fld := ⟨THERM_STAT, 0, 32, 0⟩
def THERM_STAT_HUB_C : Fld := ⟨THERM_STAT, 32, 8, 0⟩
def THERM_STAT_BAD_SENSORS : Fld := ⟨THERM_STAT, 40, 8, 0⟩
def THERM_STAT_STEPS : Fld := ⟨THERM_STAT, 48, 16, 0⟩
/-- TIME_NOW (R410). -/
def TIME_NOW : Nat := 0x00D00038
def TIME_NOW_RACK_TIME : Fld := ⟨TIME_NOW, 0, 64, 0⟩
/-- TIME_STAT (R410). -/
def TIME_STAT : Nat := 0x00D00040
def TIME_STAT_LOCK : Fld := ⟨TIME_STAT, 0, 1, 0⟩
def TIME_STAT_MASTER : Fld := ⟨TIME_STAT, 1, 1, 0⟩
def TIME_STAT_SOURCE : Fld := ⟨TIME_STAT, 2, 12, 0⟩
def TIME_STAT_OFFSET_PS : Fld := ⟨TIME_STAT, 32, 32, 0⟩
/-- CLK_CORE (R410). -/
def CLK_CORE (c : Nat) : Nat := 0x00D00100 + c * 0x8
def CLK_CORE_MHZ (c : Nat) : Fld := ⟨CLK_CORE c, 0, 11, 1200⟩
def CLK_CORE_CEIL_MHZ (c : Nat) : Fld := ⟨CLK_CORE c, 11, 11, 1600⟩
def CLK_CORE_STRETCHED (c : Nat) : Fld := ⟨CLK_CORE c, 22, 1, 0⟩
def CLK_CORE_STRETCHES (c : Nat) : Fld := ⟨CLK_CORE c, 32, 32, 0⟩
/-- ERR_RING (R433). -/
def ERR_RING : Nat := 0x00E00000
def ERR_RING_BASE : Fld := ⟨ERR_RING, 6, 22, 1047936⟩
/-- ERR_PTR (R433). -/
def ERR_PTR : Nat := 0x00E00008
def ERR_PTR_TAIL : Fld := ⟨ERR_PTR, 0, 9, 0⟩
def ERR_PTR_HEAD : Fld := ⟨ERR_PTR, 16, 9, 0⟩
def ERR_PTR_FULL : Fld := ⟨ERR_PTR, 32, 1, 0⟩
/-- ERR_STAT (R433). -/
def ERR_STAT : Nat := 0x00E00010
def ERR_STAT_LOST : Fld := ⟨ERR_STAT, 0, 32, 0⟩
def ERR_STAT_S0_COUNT : Fld := ⟨ERR_STAT, 32, 16, 0⟩
def ERR_STAT_REPLAY_K : Fld := ⟨ERR_STAT, 48, 16, 0⟩
/-- ERR_CTL (R433). -/
def ERR_CTL : Nat := 0x00E00018
def ERR_CTL_COALESCE_US : Fld := ⟨ERR_CTL, 0, 8, 10⟩
def ERR_CTL_S0_EN : Fld := ⟨ERR_CTL, 8, 1, 1⟩
/-- FD_STATE (R433). -/
def FD_STATE : Nat := 0x00E00020
def FD_STATE_SELF_DECLARED : Fld := ⟨FD_STATE, 0, 1, 0⟩
def FD_STATE_PARTITION : Fld := ⟨FD_STATE, 1, 1, 0⟩
def FD_STATE_LAST_DEAD : Fld := ⟨FD_STATE, 16, 12, 0⟩
def FD_STATE_DECLARATIONS : Fld := ⟨FD_STATE, 32, 16, 0⟩
def FD_STATE_JOB_FATALS : Fld := ⟨FD_STATE, 48, 16, 0⟩
/-- FD_REJOIN (R433). -/
def FD_REJOIN : Nat := 0x00E00028
def FD_REJOIN_MODULE : Fld := ⟨FD_REJOIN, 0, 12, 0⟩
def FD_REJOIN_ALL : Fld := ⟨FD_REJOIN, 12, 1, 0⟩
/-- FD_DEAD (R433). -/
def FD_DEAD (i : Nat) : Nat := 0x00E00100 + i * 0x8
def FD_DEAD_DEAD (i : Nat) : Fld := ⟨FD_DEAD i, 0, 64, 0⟩
/-- SLOG_RING (R434). -/
def SLOG_RING (c : Nat) : Nat := 0x00E01000 + c * 0x20
def SLOG_RING_BASE_64K (c : Nat) : Fld := ⟨SLOG_RING c, 0, 32, 0⟩
def SLOG_RING_SIZE_64K (c : Nat) : Fld := ⟨SLOG_RING c, 32, 16, 1⟩
def SLOG_RING_EN (c : Nat) : Fld := ⟨SLOG_RING c, 48, 1, 0⟩
def SLOG_RING_BAD (c : Nat) : Fld := ⟨SLOG_RING c, 49, 1, 0⟩
/-- SLOG_NEXT (R434). -/
def SLOG_NEXT (c : Nat) : Nat := 0x00E01008 + c * 0x20
def SLOG_NEXT_SEQ (c : Nat) : Fld := ⟨SLOG_NEXT c, 0, 64, 0⟩
/-- SLOG_TRIM (R434). -/
def SLOG_TRIM (c : Nat) : Nat := 0x00E01010 + c * 0x20
def SLOG_TRIM_SEQ (c : Nat) : Fld := ⟨SLOG_TRIM c, 0, 64, 0⟩
/-- SLOG_STAT (R434). -/
def SLOG_STAT (c : Nat) : Nat := 0x00E01018 + c * 0x20
def SLOG_STAT_WRAPPED (c : Nat) : Fld := ⟨SLOG_STAT c, 0, 1, 0⟩
def SLOG_STAT_IGNORED (c : Nat) : Fld := ⟨SLOG_STAT c, 32, 16, 0⟩
def SLOG_STAT_OVERWRITTEN (c : Nat) : Fld := ⟨SLOG_STAT c, 48, 16, 0⟩
/-- TEST_ATB_LAST (R444). -/
def TEST_ATB_LAST : Nat := 0x00F00000
def TEST_ATB_LAST_VALUE : Fld := ⟨TEST_ATB_LAST, 0, 16, 0⟩
def TEST_ATB_LAST_CODE : Fld := ⟨TEST_ATB_LAST, 16, 12, 0⟩
def TEST_ATB_LAST_DIE : Fld := ⟨TEST_ATB_LAST, 28, 3, 0⟩
def TEST_ATB_LAST_BUS : Fld := ⟨TEST_ATB_LAST, 31, 1, 0⟩
def TEST_ATB_LAST_NODE : Fld := ⟨TEST_ATB_LAST, 32, 6, 0⟩
def TEST_ATB_LAST_VALID : Fld := ⟨TEST_ATB_LAST, 38, 1, 0⟩
/-- TEST_CTL (R444). -/
def TEST_CTL : Nat := 0x00F00008
def TEST_CTL_FIELD_EN : Fld := ⟨TEST_CTL, 0, 1, 1⟩
def TEST_CTL_TEST_MODE : Fld := ⟨TEST_CTL, 1, 1, 0⟩
/-- TEST_STAT (R444). -/
def TEST_STAT : Nat := 0x00F00010
def TEST_STAT_ATB_MEAS : Fld := ⟨TEST_STAT, 0, 16, 0⟩
def TEST_STAT_EYE_SCANS : Fld := ⟨TEST_STAT, 16, 16, 0⟩
def TEST_STAT_UCIE_MARGINS : Fld := ⟨TEST_STAT, 32, 16, 0⟩
def TEST_STAT_LOOPBACKS : Fld := ⟨TEST_STAT, 48, 16, 0⟩
/-- TEST_IDCODE (R444). -/
def TEST_IDCODE : Nat := 0x00F00018
def TEST_IDCODE_HUB : Fld := ⟨TEST_IDCODE, 0, 32, 0⟩
def TEST_IDCODE_LEAF : Fld := ⟨TEST_IDCODE, 32, 32, 0⟩

end Reg

/-- Register kinds, part 0. -/
def regKinds0 : List RegKind := [
  ⟨0x00000000, 1, 0x0, 1, 0x0, [⟨0, 16, .ro, 0, false⟩, ⟨16, 16, .ro, 1888, false⟩, ⟨32, 8, .ro, 176, false⟩, ⟨40, 8, .ro, 48, false⟩]⟩,
  ⟨0x00000008, 1, 0x0, 1, 0x0, [⟨0, 4, .ro, 0, false⟩, ⟨4, 4, .ro, 0, false⟩, ⟨8, 4, .ro, 0, false⟩, ⟨12, 4, .ro, 0, false⟩]⟩,
  ⟨0x00000010, 1, 0x0, 1, 0x0, [⟨0, 3, .ro, 0, false⟩, ⟨3, 3, .ro, 0, false⟩, ⟨6, 3, .rwl, 0, false⟩, ⟨9, 3, .rwl, 0, false⟩, ⟨12, 1, .ro, 0, false⟩, ⟨16, 12, .ro, 0, false⟩]⟩,
  ⟨0x02000000, 4, 0x800000, 12, 0x40000, [⟨0, 2, .ro, 0, false⟩, ⟨8, 8, .ro, 0, false⟩, ⟨16, 10, .ro, 0, false⟩, ⟨26, 8, .ro, 255, false⟩, ⟨34, 4, .ro, 15, false⟩, ⟨38, 1, .ro, 0, false⟩, ⟨39, 1, .ro, 0, false⟩, ⟨40, 1, .ro, 0, false⟩]⟩,
  ⟨0x02000008, 4, 0x800000, 12, 0x40000, [⟨3, 15, .ro, 0, false⟩]⟩,
  ⟨0x02000010, 4, 0x800000, 12, 0x40000, [⟨0, 8, .ro, 0, false⟩, ⟨8, 8, .ro, 0, false⟩, ⟨16, 8, .ro, 0, false⟩, ⟨24, 8, .ro, 0, false⟩, ⟨32, 8, .ro, 0, false⟩, ⟨40, 8, .ro, 0, false⟩, ⟨48, 8, .ro, 0, false⟩]⟩,
  ⟨0x02000018, 4, 0x800000, 12, 0x40000, [⟨0, 1, .rw, 1, false⟩, ⟨8, 6, .rw, 32, false⟩]⟩,
  ⟨0x02000020, 4, 0x800000, 12, 0x40000, [⟨0, 32, .ro, 0, false⟩, ⟨32, 32, .ro, 0, false⟩]⟩,
  ⟨0x02340000, 4, 0x800000, 1, 0x0, [⟨0, 48, .ro, 0, false⟩]⟩,
  ⟨0x02340008, 4, 0x800000, 1, 0x0, [⟨0, 48, .w1c, 0, false⟩, ⟨48, 1, .ro, 0, false⟩]⟩,
  ⟨0x02340010, 4, 0x800000, 1, 0x0, [⟨0, 32, .ro, 0, false⟩, ⟨32, 16, .ro, 0, false⟩]⟩,
  ⟨0x02340018, 4, 0x800000, 1, 0x0, [⟨0, 12, .rw, 0, false⟩]⟩]

/-- Register kinds, part 1. -/
def regKinds1 : List RegKind := [
  ⟨0x02340020, 4, 0x800000, 1, 0x0, [⟨0, 48, .ro, 0, false⟩]⟩,
  ⟨0x00C00000, 1, 0x0, 1, 0x0, [⟨0, 3, .rwl, 1, false⟩, ⟨16, 16, .ro, 64, false⟩, ⟨32, 16, .ro, 192, false⟩]⟩,
  ⟨0x00C00008, 1, 0x0, 1, 0x0, [⟨0, 8, .rw, 32, false⟩, ⟨16, 8, .ro, 0, false⟩, ⟨24, 8, .ro, 0, false⟩, ⟨32, 8, .ro, 0, false⟩, ⟨40, 8, .ro, 0, false⟩]⟩,
  ⟨0x00C00010, 1, 0x0, 1, 0x0, [⟨0, 4, .rwl, 4, false⟩, ⟨8, 12, .ro, 92, false⟩, ⟨20, 12, .ro, 128, false⟩]⟩,
  ⟨0x00C00018, 1, 0x0, 1, 0x0, [⟨0, 1, .w1s, 0, false⟩, ⟨1, 1, .w1s, 0, false⟩]⟩,
  ⟨0x00C00020, 1, 0x0, 1, 0x0, [⟨0, 32, .ro, 0, false⟩, ⟨32, 16, .ro, 0, false⟩]⟩,
  ⟨0x00330000, 4096, 0x8, 1, 0x0, [⟨0, 16, .ro, 0, false⟩, ⟨16, 1, .ro, 0, false⟩, ⟨17, 1, .ro, 0, false⟩, ⟨18, 7, .ro, 0, false⟩, ⟨25, 1, .ro, 0, false⟩]⟩,
  ⟨0x00338000, 48, 0x8, 1, 0x0, [⟨0, 16, .ro, 0, false⟩, ⟨16, 1, .ro, 0, false⟩, ⟨17, 1, .ro, 0, false⟩, ⟨32, 11, .ro, 0, false⟩]⟩,
  ⟨0x00339000, 1, 0x0, 1, 0x0, [⟨0, 15, .wo, 0, false⟩, ⟨32, 32, .wo, 0, false⟩]⟩,
  ⟨0x00339008, 1, 0x0, 1, 0x0, [⟨0, 20, .rw, 1000, false⟩]⟩,
  ⟨0x00339010, 1, 0x0, 1, 0x0, [⟨6, 22, .rw, 1048448, false⟩]⟩,
  ⟨0x00339018, 1, 0x0, 1, 0x0, [⟨0, 16, .ro, 0, false⟩, ⟨16, 16, .ro, 0, false⟩, ⟨32, 9, .ro, 0, false⟩, ⟨41, 1, .w1c, 0, false⟩]⟩]

/-- Register kinds, part 2. -/
def regKinds2 : List RegKind := [
  ⟨0x00339020, 1, 0x0, 1, 0x0, [⟨0, 11, .ro, 0, false⟩, ⟨16, 32, .ro, 0, false⟩]⟩,
  ⟨0x00339028, 1, 0x0, 1, 0x0, [⟨0, 16, .ro, 0, false⟩, ⟨16, 16, .ro, 0, false⟩, ⟨32, 32, .ro, 0, false⟩]⟩,
  ⟨0x00339030, 1, 0x0, 1, 0x0, [⟨0, 15, .ro, 0, false⟩, ⟨32, 32, .ro, 0, false⟩]⟩,
  ⟨0x00280000, 1, 0x0, 1, 0x0, [⟨0, 8, .rwl, 0, false⟩, ⟨8, 8, .rwl, 16, false⟩, ⟨16, 8, .rw, 16, false⟩, ⟨24, 1, .rw, 1, false⟩, ⟨25, 1, .w1s, 0, false⟩]⟩,
  ⟨0x00280008, 1, 0x0, 1, 0x0, [⟨0, 12, .rw, 0, false⟩]⟩,
  ⟨0x00280010, 1, 0x0, 1, 0x0, [⟨0, 2, .ro, 0, false⟩, ⟨2, 4, .ro, 0, false⟩, ⟨6, 2, .ro, 0, false⟩, ⟨8, 16, .ro, 0, false⟩, ⟨24, 21, .ro, 0, false⟩, ⟨45, 7, .ro, 0, false⟩]⟩,
  ⟨0x00280018, 1, 0x0, 1, 0x0, [⟨0, 64, .ro, 0, false⟩]⟩,
  ⟨0x00280020, 1, 0x0, 1, 0x0, [⟨0, 13, .ro, 0, false⟩, ⟨13, 1, .ro, 0, false⟩, ⟨16, 16, .ro, 0, false⟩, ⟨32, 32, .ro, 0, false⟩]⟩,
  ⟨0x00280100, 16, 0x8, 1, 0x0, [⟨0, 1, .rw, 0, false⟩, ⟨1, 6, .rw, 1, false⟩, ⟨7, 9, .rw, 128, false⟩, ⟨16, 3, .rw, 0, false⟩, ⟨19, 3, .rw, 0, false⟩, ⟨22, 1, .rw, 0, false⟩, ⟨23, 2, .rw, 2, false⟩, ⟨32, 11, .rw, 1, false⟩, ⟨48, 6, .ro, 16, false⟩, ⟨56, 8, .rw, 127, false⟩]⟩,
  ⟨0x00280200, 16, 0x10, 1, 0x0, [⟨0, 2, .rw, 0, false⟩, ⟨2, 6, .rw, 0, false⟩, ⟨8, 2, .rw, 0, false⟩, ⟨10, 1, .rw, 0, false⟩, ⟨11, 1, .rw, 0, false⟩, ⟨12, 1, .ro, 0, false⟩, ⟨16, 32, .rw, 0, false⟩]⟩,
  ⟨0x00280208, 16, 0x10, 1, 0x0, [⟨0, 32, .rw, 0, false⟩, ⟨32, 32, .ro, 0, false⟩]⟩,
  ⟨0x00200000, 64, 0x20, 1, 0x0, [⟨0, 4, .rw, 6, false⟩, ⟨4, 1, .rw, 0, false⟩, ⟨12, 52, .rw, 0, false⟩]⟩]

/-- Register kinds, part 3. -/
def regKinds3 : List RegKind := [
  ⟨0x00200008, 64, 0x20, 1, 0x0, [⟨0, 6, .rw, 0, true⟩, ⟨12, 52, .rw, 0, false⟩]⟩,
  ⟨0x00200010, 64, 0x20, 1, 0x0, [⟨0, 16, .ro, 0, false⟩, ⟨16, 16, .ro, 0, false⟩, ⟨32, 16, .ro, 0, false⟩, ⟨48, 1, .ro, 0, false⟩, ⟨49, 1, .ro, 1, false⟩]⟩,
  ⟨0x00201000, 1, 0x0, 1, 0x0, [⟨0, 32, .rw, 65536, false⟩, ⟨32, 32, .rw, 507904, false⟩]⟩,
  ⟨0x00201008, 1, 0x0, 1, 0x0, [⟨0, 32, .rwl, 0, false⟩, ⟨32, 32, .rwl, 0, false⟩]⟩,
  ⟨0x00201010, 1, 0x0, 1, 0x0, [⟨0, 20, .rw, 1000, false⟩, ⟨20, 1, .rw, 1, false⟩]⟩,
  ⟨0x00201018, 1, 0x0, 1, 0x0, [⟨0, 5, .ro, 16, false⟩, ⟨16, 16, .ro, 0, false⟩, ⟨32, 32, .ro, 0, false⟩]⟩,
  ⟨0x00201020, 1, 0x0, 1, 0x0, [⟨0, 9, .ro, 0, false⟩, ⟨16, 16, .ro, 0, false⟩, ⟨32, 16, .ro, 0, false⟩, ⟨48, 16, .ro, 0, false⟩]⟩,
  ⟨0x00400000, 1, 0x0, 1, 0x0, [⟨0, 4, .rwl, 1, false⟩, ⟨4, 4, .rwl, 1, false⟩, ⟨8, 1, .rw, 0, false⟩, ⟨9, 1, .w1s, 0, false⟩]⟩,
  ⟨0x00400008, 1, 0x0, 1, 0x0, [⟨0, 16, .rw, 0, false⟩]⟩,
  ⟨0x00400010, 1, 0x0, 1, 0x0, [⟨0, 7, .rw, 25, false⟩]⟩,
  ⟨0x00400018, 1, 0x0, 1, 0x0, [⟨0, 8, .rw, 8, false⟩, ⟨8, 8, .rw, 4, false⟩, ⟨16, 8, .rw, 1, false⟩]⟩,
  ⟨0x00400020, 1, 0x0, 1, 0x0, [⟨0, 64, .rw, 0, false⟩]⟩]

/-- Register kinds, part 4. -/
def regKinds4 : List RegKind := [
  ⟨0x00400028, 1, 0x0, 1, 0x0, [⟨0, 64, .rw, 0, false⟩]⟩,
  ⟨0x00400030, 1, 0x0, 1, 0x0, [⟨0, 20, .ro, 0, false⟩, ⟨20, 20, .ro, 0, false⟩]⟩,
  ⟨0x00400038, 1, 0x0, 1, 0x0, [⟨0, 16, .ro, 0, false⟩, ⟨16, 16, .ro, 0, false⟩, ⟨32, 16, .ro, 0, false⟩, ⟨48, 16, .ro, 0, false⟩]⟩,
  ⟨0x00400040, 1, 0x0, 1, 0x0, [⟨0, 32, .ro, 0, false⟩, ⟨32, 32, .ro, 0, false⟩]⟩,
  ⟨0x00400048, 1, 0x0, 1, 0x0, [⟨0, 32, .ro, 0, false⟩, ⟨32, 32, .ro, 0, false⟩]⟩,
  ⟨0x00600000, 20, 0x10000, 1, 0x0, [⟨0, 1, .rw, 1, false⟩, ⟨1, 3, .rw, 0, false⟩, ⟨4, 1, .w1s, 0, false⟩]⟩,
  ⟨0x00600008, 20, 0x10000, 1, 0x0, [⟨0, 3, .ro, 0, false⟩, ⟨3, 1, .ro, 0, false⟩, ⟨4, 1, .ro, 0, false⟩, ⟨8, 16, .ro, 0, false⟩, ⟨24, 16, .ro, 0, false⟩]⟩,
  ⟨0x00600010, 20, 0x10000, 1, 0x0, [⟨0, 12, .ro, 0, false⟩, ⟨12, 5, .ro, 0, false⟩, ⟨17, 1, .ro, 0, false⟩, ⟨32, 12, .ro, 0, false⟩, ⟨44, 5, .ro, 0, false⟩, ⟨49, 1, .ro, 0, false⟩]⟩,
  ⟨0x00600018, 20, 0x10000, 1, 0x0, [⟨0, 4, .ro, 0, false⟩, ⟨16, 16, .ro, 0, false⟩, ⟨32, 32, .ro, 0, false⟩]⟩,
  ⟨0x00600020, 20, 0x10000, 1, 0x0, [⟨0, 32, .ro, 0, false⟩, ⟨32, 16, .ro, 0, false⟩, ⟨48, 16, .ro, 0, false⟩]⟩,
  ⟨0x00600028, 20, 0x10000, 1, 0x0, [⟨0, 8, .ro, 0, false⟩, ⟨8, 5, .ro, 0, false⟩, ⟨16, 16, .ro, 0, false⟩, ⟨32, 16, .ro, 0, false⟩]⟩,
  ⟨0x00600030, 20, 0x10000, 1, 0x0, [⟨0, 32, .ro, 0, false⟩, ⟨32, 32, .ro, 0, false⟩]⟩]

/-- Register kinds, part 5. -/
def regKinds5 : List RegKind := [
  ⟨0x00740000, 1, 0x0, 1, 0x0, [⟨0, 64, .rwl, 0, false⟩]⟩,
  ⟨0x00740008, 1, 0x0, 1, 0x0, [⟨0, 16, .rw, 256, false⟩]⟩,
  ⟨0x00800000, 10, 0x20000, 1, 0x0, [⟨0, 1, .rw, 1, false⟩, ⟨1, 1, .rw, 1, false⟩, ⟨8, 10, .rw, 100, false⟩]⟩,
  ⟨0x00800008, 10, 0x20000, 1, 0x0, [⟨0, 1, .ro, 0, false⟩, ⟨1, 1, .ro, 1, false⟩, ⟨2, 1, .ro, 1, false⟩, ⟨3, 3, .ro, 0, false⟩, ⟨6, 4, .ro, 15, false⟩, ⟨10, 4, .ro, 15, false⟩, ⟨14, 1, .ro, 0, false⟩]⟩,
  ⟨0x00800010, 10, 0x20000, 12, 0x8, [⟨0, 2, .ro, 0, false⟩, ⟨2, 2, .ro, 0, false⟩, ⟨8, 8, .ro, 0, false⟩, ⟨32, 32, .ro, 0, false⟩]⟩,
  ⟨0x00800070, 10, 0x20000, 1, 0x0, [⟨0, 32, .ro, 0, false⟩, ⟨32, 16, .ro, 0, false⟩]⟩,
  ⟨0x00800078, 10, 0x20000, 2, 0x8, [⟨0, 4, .ro, 0, false⟩, ⟨4, 1, .ro, 0, false⟩, ⟨8, 24, .ro, 0, false⟩, ⟨32, 16, .ro, 0, false⟩, ⟨48, 16, .ro, 0, false⟩]⟩,
  ⟨0x00940000, 1, 0x0, 1, 0x0, [⟨0, 8, .ro, 0, false⟩, ⟨8, 1, .ro, 0, false⟩, ⟨9, 1, .ro, 0, false⟩, ⟨10, 1, .ro, 0, false⟩, ⟨11, 1, .ro, 0, false⟩, ⟨16, 16, .ro, 0, false⟩, ⟨32, 16, .ro, 0, false⟩]⟩,
  ⟨0x00940008, 1, 0x0, 1, 0x0, [⟨0, 10, .ro, 0, false⟩, ⟨16, 32, .ro, 0, false⟩]⟩,
  ⟨0x00940010, 1, 0x0, 1, 0x0, [⟨0, 1, .rw, 0, false⟩, ⟨1, 1, .rw, 1, false⟩]⟩,
  ⟨0x00940018, 1, 0x0, 1, 0x0, [⟨0, 2, .rw, 0, false⟩, ⟨2, 6, .rw, 32, false⟩]⟩,
  ⟨0x02300000, 4, 0x800000, 1, 0x0, [⟨0, 1, .w1s, 0, false⟩, ⟨8, 8, .rw, 16, false⟩]⟩]

/-- Register kinds, part 6. -/
def regKinds6 : List RegKind := [
  ⟨0x02300008, 4, 0x800000, 1, 0x0, [⟨0, 2, .ro, 0, false⟩, ⟨2, 6, .ro, 0, false⟩, ⟨8, 6, .ro, 0, false⟩, ⟨14, 6, .ro, 0, false⟩, ⟨20, 2, .ro, 0, false⟩, ⟨22, 7, .ro, 0, false⟩]⟩,
  ⟨0x02300010, 4, 0x800000, 1, 0x0, [⟨0, 2, .ro, 0, false⟩, ⟨2, 2, .ro, 0, false⟩, ⟨4, 2, .ro, 0, false⟩, ⟨6, 2, .ro, 0, false⟩, ⟨8, 2, .ro, 0, false⟩, ⟨10, 2, .ro, 0, false⟩, ⟨12, 2, .ro, 0, false⟩, ⟨14, 2, .ro, 0, false⟩, ⟨16, 2, .ro, 0, false⟩, ⟨18, 2, .ro, 0, false⟩, ⟨20, 2, .ro, 0, false⟩, ⟨22, 2, .ro, 0, false⟩, ⟨24, 2, .ro, 0, false⟩, ⟨26, 2, .ro, 0, false⟩, ⟨28, 2, .ro, 0, false⟩, ⟨30, 2, .ro, 0, false⟩, ⟨32, 2, .ro, 0, false⟩, ⟨34, 2, .ro, 0, false⟩, ⟨36, 2, .ro, 0, false⟩, ⟨38, 2, .ro, 0, false⟩, ⟨40, 2, .ro, 0, false⟩, ⟨42, 2, .ro, 0, false⟩, ⟨44, 2, .ro, 0, false⟩, ⟨46, 2, .ro, 0, false⟩, ⟨48, 2, .ro, 0, false⟩, ⟨50, 2, .ro, 0, false⟩, ⟨52, 2, .ro, 0, false⟩, ⟨54, 2, .ro, 0, false⟩, ⟨56, 2, .ro, 0, false⟩, ⟨58, 2, .ro, 0, false⟩, ⟨60, 2, .ro, 0, false⟩, ⟨62, 2, .ro, 0, false⟩]⟩,
  ⟨0x02300018, 4, 0x800000, 1, 0x0, [⟨0, 32, .ro, 0, false⟩, ⟨32, 16, .ro, 0, false⟩]⟩,
  ⟨0x02300020, 4, 0x800000, 1, 0x0, [⟨0, 32, .ro, 0, false⟩, ⟨32, 16, .ro, 0, false⟩]⟩,
  ⟨0x02300028, 4, 0x800000, 1, 0x0, [⟨0, 10, .ro, 0, false⟩, ⟨10, 10, .ro, 0, false⟩, ⟨20, 10, .ro, 0, false⟩, ⟨30, 8, .ro, 0, false⟩, ⟨38, 1, .ro, 0, false⟩]⟩,
  ⟨0x00A00000, 4, 0x80000, 1, 0x0, [⟨0, 1, .rw, 1, false⟩, ⟨8, 5, .rw, 6, false⟩, ⟨16, 8, .rw, 24, false⟩, ⟨24, 8, .rw, 64, false⟩]⟩,
  ⟨0x00A00008, 4, 0x80000, 1, 0x0, [⟨0, 40, .ro, 0, false⟩, ⟨40, 6, .ro, 0, false⟩, ⟨46, 1, .ro, 0, false⟩, ⟨47, 1, .w1c, 0, false⟩]⟩,
  ⟨0x00A00010, 4, 0x80000, 1, 0x0, [⟨0, 32, .ro, 0, false⟩, ⟨32, 16, .ro, 0, false⟩, ⟨48, 16, .ro, 0, false⟩]⟩,
  ⟨0x00A00100, 4, 0x80000, 16, 0x8, [⟨0, 2, .ro, 0, false⟩, ⟨8, 16, .ro, 0, false⟩, ⟨24, 8, .ro, 0, false⟩, ⟨32, 16, .ro, 0, false⟩, ⟨48, 8, .ro, 0, false⟩]⟩,
  ⟨0x00000018, 1, 0x0, 1, 0x0, [⟨0, 3, .ro, 0, false⟩, ⟨3, 1, .ro, 0, false⟩, ⟨4, 1, .ro, 0, false⟩, ⟨8, 8, .ro, 0, false⟩, ⟨16, 7, .ro, 0, false⟩, ⟨24, 7, .ro, 0, false⟩, ⟨32, 32, .ro, 0, false⟩]⟩,
  ⟨0x00000020, 1, 0x0, 1, 0x0, [⟨0, 1, .w1s, 0, false⟩]⟩,
  ⟨0x00000028, 1, 0x0, 1, 0x0, [⟨0, 6, .rw, 0, false⟩, ⟨8, 6, .rw, 0, false⟩, ⟨16, 6, .rw, 0, false⟩]⟩]

/-- Register kinds, part 7. -/
def regKinds7 : List RegKind := [
  ⟨0x00000030, 1, 0x0, 1, 0x0, [⟨0, 1, .w1c, 0, false⟩, ⟨1, 1, .w1c, 0, false⟩, ⟨2, 1, .w1c, 0, false⟩, ⟨3, 1, .w1c, 0, false⟩, ⟨4, 4, .w1c, 0, false⟩]⟩,
  ⟨0x00000038, 1, 0x0, 1, 0x0, [⟨0, 3, .ro, 0, false⟩, ⟨3, 3, .ro, 0, false⟩, ⟨6, 1, .ro, 0, false⟩, ⟨16, 16, .ro, 0, false⟩, ⟨32, 16, .ro, 0, false⟩]⟩,
  ⟨0x00100000, 4, 0x100, 1, 0x0, [⟨0, 8, .rw, 0, false⟩, ⟨8, 16, .rw, 0, false⟩, ⟨32, 1, .w1s, 0, false⟩]⟩,
  ⟨0x00100008, 4, 0x100, 4, 0x8, [⟨0, 64, .rw, 0, false⟩]⟩,
  ⟨0x00100028, 4, 0x100, 1, 0x0, [⟨0, 8, .ro, 0, false⟩, ⟨8, 8, .ro, 0, false⟩, ⟨16, 1, .w1c, 0, false⟩, ⟨32, 16, .ro, 0, false⟩, ⟨48, 16, .ro, 0, false⟩]⟩,
  ⟨0x00D00000, 1, 0x0, 1, 0x0, [⟨0, 12, .rw, 2600, false⟩, ⟨16, 12, .ro, 0, false⟩, ⟨28, 1, .ro, 0, false⟩]⟩,
  ⟨0x00D00008, 1, 0x0, 1, 0x0, [⟨0, 16, .ro, 0, false⟩, ⟨16, 16, .ro, 0, false⟩, ⟨32, 16, .ro, 0, false⟩, ⟨48, 7, .ro, 91, false⟩]⟩,
  ⟨0x00D00010, 1, 0x0, 1, 0x0, [⟨0, 50, .ro, 0, false⟩]⟩,
  ⟨0x00D00018, 1, 0x0, 1, 0x0, [⟨0, 8, .rw, 10, false⟩, ⟨8, 1, .rw, 0, false⟩, ⟨16, 11, .rw, 1600, false⟩]⟩,
  ⟨0x00D00020, 1, 0x0, 1, 0x0, [⟨0, 16, .ro, 0, false⟩, ⟨16, 16, .ro, 0, false⟩, ⟨32, 1, .ro, 0, false⟩]⟩,
  ⟨0x00D00028, 1, 0x0, 1, 0x0, [⟨0, 8, .rw, 95, false⟩]⟩,
  ⟨0x00D00030, 1, 0x0, 1, 0x0, [⟨0, 32, .ro, 0, false⟩, ⟨32, 8, .ro, 0, false⟩, ⟨40, 8, .ro, 0, false⟩, ⟨48, 16, .ro, 0, false⟩]⟩]

/-- Register kinds, part 8. -/
def regKinds8 : List RegKind := [
  ⟨0x00D00038, 1, 0x0, 1, 0x0, [⟨0, 64, .ro, 0, false⟩]⟩,
  ⟨0x00D00040, 1, 0x0, 1, 0x0, [⟨0, 1, .ro, 0, false⟩, ⟨1, 1, .ro, 0, false⟩, ⟨2, 12, .ro, 0, false⟩, ⟨32, 32, .ro, 0, false⟩]⟩,
  ⟨0x00D00100, 48, 0x8, 1, 0x0, [⟨0, 11, .ro, 1200, false⟩, ⟨11, 11, .ro, 1600, false⟩, ⟨22, 1, .ro, 0, false⟩, ⟨32, 32, .ro, 0, false⟩]⟩,
  ⟨0x00E00000, 1, 0x0, 1, 0x0, [⟨6, 22, .rw, 1047936, false⟩]⟩,
  ⟨0x00E00008, 1, 0x0, 1, 0x0, [⟨0, 9, .ro, 0, false⟩, ⟨16, 9, .rw, 0, false⟩, ⟨32, 1, .ro, 0, false⟩]⟩,
  ⟨0x00E00010, 1, 0x0, 1, 0x0, [⟨0, 32, .ro, 0, false⟩, ⟨32, 16, .ro, 0, false⟩, ⟨48, 16, .ro, 0, false⟩]⟩,
  ⟨0x00E00018, 1, 0x0, 1, 0x0, [⟨0, 8, .rw, 10, false⟩, ⟨8, 1, .rw, 1, false⟩]⟩,
  ⟨0x00E00020, 1, 0x0, 1, 0x0, [⟨0, 1, .ro, 0, false⟩, ⟨1, 1, .ro, 0, false⟩, ⟨16, 12, .ro, 0, false⟩, ⟨32, 16, .ro, 0, false⟩, ⟨48, 16, .ro, 0, false⟩]⟩,
  ⟨0x00E00028, 1, 0x0, 1, 0x0, [⟨0, 12, .wo, 0, false⟩, ⟨12, 1, .wo, 0, false⟩]⟩,
  ⟨0x00E00100, 64, 0x8, 1, 0x0, [⟨0, 64, .ro, 0, false⟩]⟩,
  ⟨0x00E01000, 48, 0x20, 1, 0x0, [⟨0, 32, .rw, 0, false⟩, ⟨32, 16, .rw, 1, false⟩, ⟨48, 1, .rw, 0, false⟩, ⟨49, 1, .ro, 0, false⟩]⟩,
  ⟨0x00E01008, 48, 0x20, 1, 0x0, [⟨0, 64, .ro, 0, false⟩]⟩]

/-- Register kinds, part 9. -/
def regKinds9 : List RegKind := [
  ⟨0x00E01010, 48, 0x20, 1, 0x0, [⟨0, 64, .rw, 0, false⟩]⟩,
  ⟨0x00E01018, 48, 0x20, 1, 0x0, [⟨0, 1, .w1c, 0, false⟩, ⟨32, 16, .ro, 0, false⟩, ⟨48, 16, .ro, 0, false⟩]⟩,
  ⟨0x00F00000, 1, 0x0, 1, 0x0, [⟨0, 16, .ro, 0, false⟩, ⟨16, 12, .ro, 0, false⟩, ⟨28, 3, .ro, 0, false⟩, ⟨31, 1, .ro, 0, false⟩, ⟨32, 6, .ro, 0, false⟩, ⟨38, 1, .w1c, 0, false⟩]⟩,
  ⟨0x00F00008, 1, 0x0, 1, 0x0, [⟨0, 1, .rw, 1, false⟩, ⟨1, 1, .ro, 0, false⟩]⟩,
  ⟨0x00F00010, 1, 0x0, 1, 0x0, [⟨0, 16, .ro, 0, false⟩, ⟨16, 16, .ro, 0, false⟩, ⟨32, 16, .ro, 0, false⟩, ⟨48, 16, .ro, 0, false⟩]⟩,
  ⟨0x00F00018, 1, 0x0, 1, 0x0, [⟨0, 32, .ro, 0, false⟩, ⟨32, 32, .ro, 0, false⟩]⟩]

/-- The register map but for the tumbler counts and the routing tables, which are views. -/
def regKinds : List RegKind :=
  regKinds0 ++ regKinds1 ++ regKinds2 ++ regKinds3 ++ regKinds4 ++ regKinds5 ++ regKinds6 ++ regKinds7 ++ regKinds8 ++ regKinds9

end Sys2Proof.Machine
end

