-- ==== Sys2Proof/Machine/Regs.lean ====
section
/-! DEFINITION. Reading, setting and counting the fields of BAR0 registers. -/

namespace Sys2Proof.Machine

/-- The key of a field in `State.regs`. -/
def Fld.key (f : Fld) : Nat := f.off * 64 + f.lo

/-- The value a field holds. -/
def State.rd (s : State) (f : Fld) : Nat := Tab.get s.regs f.rst f.key

/-- Set a field, keeping the low `w` bits of the value. -/
def State.wr (s : State) (f : Fld) (v : Nat) : State := { s with regs := Tab.set s.regs f.rst f.key (v % 2 ^ f.w) }

/-- The value a field acts with: where a write has come since its safe point, the value it had there (R7). -/
def State.act (s : State) (f : Fld) : Nat := (s.lag.lookup f.key).getD (s.rd f)

/-- The safe point of a field: what has been written to it acts from now on (R7). -/
def State.settle (s : State) (f : Fld) : State := { s with lag := s.lag.del f.key }

/-- A field that acts only from its next safe point on is changed: until there it acts with the value that it acted with
before the write (R7). -/
def State.wrLater (s : State) (f : Fld) (v : Nat) : State := { s.wr f v with lag := s.lag.put f.key (s.act f) }

/-- Add to a counter field, which holds at its top value ("holds at 2^w - 1"). -/
def State.bump (s : State) (f : Fld) (n : Nat) : State := s.wr f (min (s.rd f + n) (2 ^ f.w - 1))

/-- Set a one-bit field. -/
def State.wrb (s : State) (f : Fld) (b : Bool) : State := s.wr f (if b then 1 else 0)

/-- Is a one-bit field 1? -/
def State.rdb (s : State) (f : Fld) : Bool := s.rd f == 1

/-- Add to a counter that counts in units of 1,024: the part below one unit stays in `sub`. -/
def State.bumpK (s : State) (f : Fld) (n : Nat) : State :=
  let t := Tab.get s.sub 0 f.key + n
  { s with sub := Tab.set s.sub 0 f.key (t % 1024) }.bump f (t / 1024)

/-- Add to a counter field that wraps at its top value. -/
def State.wrapAdd (s : State) (f : Fld) (n : Nat) : State := s.wr f (s.rd f + n)

end Sys2Proof.Machine
end

