-- ==== Sys2Proof/Machine/Flags.lean ====
section
/-! DEFINITION. What the module flags to the outside: comparisons of the CMP instructions, MSI-X messages and
their cause bits (R371), fault records and the record ring (R411-R416). -/

namespace Sys2Proof.Machine

/-! ### Comparisons (R77) -/

/-- Condition codes of CMP. -/
inductive Cond where
  | eq | ne | lt | ltu | ge | geu
  deriving DecidableEq, Repr

/-- `ra cc b`, signed for LT and GE, unsigned for LTU and GEU. -/
def Cond.holds (cc : Cond) (a b : Word) : Bool :=
  match cc with
  | .eq => a == b
  | .ne => a != b
  | .lt => a.slt b
  | .ltu => a.ult b
  | .ge => !(a.slt b)
  | .geu => !(a.ult b)

/-! ### Position -/

/-- SID[3:0] has an even number of ones (R16). -/
def State.sidParityErr (s : State) : Bool :=
  ((s.straps.toNat.testBit 0).toNat + (s.straps.toNat.testBit 1).toNat + (s.straps.toNat.testBit 2).toNat
    + (s.straps.toNat.testBit 3).toNat) % 2 = 0

/-- Slot X of the straps: SID[2:0] in bits [2:0]. -/
def State.posX (s : State) : Nat := fld s.straps.toNat 0 3

/-- Tray Y of the straps: TID[2:0] in bits [6:4]. -/
def State.posY (s : State) : Nat := fld s.straps.toNat 4 3

def State.posZ (s : State) : Nat := s.rd Reg.MOD_POSITION_Z
def State.posW (s : State) : Nat := s.rd Reg.MOD_POSITION_W

/-- The module number (R19). -/
def State.modNum (s : State) : Nat := s.posW * 512 + s.posZ * 64 + s.posY * 8 + s.posX

/-! ### Direct HM -/

/-- Bytes of direct HM (R158). -/
def State.directBytes (s : State) : Nat := s.rd Reg.HM_SPLIT_DIRECT * 0x4000000

/-- Words of a byte range that the range covers whole. -/
def fullWords (off n : Nat) : List Nat := ((List.range (n / 8 + 2)).map (fun i => off / 8 + i)).filter (fun w => off ≤ 8 * w ∧ 8 * w + 8 ≤ off + n)

/-- Words that a byte range touches. -/
def touchedWords (off n : Nat) : List Nat := if n = 0 then [] else (List.range ((off + n - 1) / 8 - off / 8 + 1)).map (fun i => off / 8 + i)

/-- The KV page manager's table region in direct HM: first byte and bytes (R203). -/
def State.kvRegion (s : State) : Nat × Nat := (s.rd Reg.KV_CTL_TABLE_BASE_MIB * 0x100000, max 1 (s.rd Reg.KV_CTL_TABLE_MIB) * 0x100000)

/-- What a corrupted sequence entry holds: free values, or nothing. (DESIGN CHOICE, assumption 81.) -/
def spoiledSeq (n : Nat) : Option KvSeq :=
  let w := fun i => (Config.freeValue (n + i)).toNat
  if w 0 % 4 = 0 then none
  else some { geom := fld (w 0) 2 4, policy := min 2 (fld (w 0) 6 2), len := min 1048576 (fld (w 0) 8 21),
              detent := if w 0 % 4 = 1 then none else some (min 1048576 (fld (w 0) 32 21), Config.freeValue (n + 1)),
              epoch := BitVec.ofNat 16 (w 2), key := BitVec.ofNat 128 (w 3 + 2 ^ 64 * w 4), counter := Config.freeValue (n + 5) }

/-- What a corrupted page entry holds: free values. (DESIGN CHOICE, assumption 81.) -/
def spoiledPage (n : Nat) (p : KvPage) : KvPage :=
  let w := fun i => (Config.freeValue (n + i)).toNat
  { p with seq := w 0 % 4096, block := w 1 % 65536, group := w 2 % 1024, pool := w 3 % 16, index := w 4 % 2 ^ 32,
           scales := (List.range 32).map (fun i => (i, BitVec.ofNat 32 (w (5 + i)))) }

/-- A write of HM bytes by any party but the manager corrupts the table entries that it overwrites (R203). (DESIGN
CHOICE, assumption 81.) -/
def State.kvSpoil (s : State) (off n : Nat) : State :=
  let lo := max off s.kvRegion.1
  let hi := min (off + n) (s.kvRegion.1 + s.kvRegion.2)
  if hi ≤ lo then s
  else
    { s with
      freeCtr := s.freeCtr + 8 * 4096 + 64 * s.kvPages.length,
      kvSeqs := (List.range 4096).filterMap (fun q =>
        (if Config.kvSeqHit q lo hi then spoiledSeq (s.freeCtr + 8 * q) else s.kvSeqs.lookup q).map (fun x => (q, x))),
      kvPages := s.kvPages.zipIdx.map (fun p =>
        if Config.kvPageHit p.2 lo hi then spoiledPage (s.freeCtr + 8 * 4096 + 64 * p.2) p.1 else p.1) }

/-- The manager writes its tables: what the region's bytes hold is not architectural (R203). (DESIGN CHOICE, assumption
81.) -/
def State.kvTouch (s : State) : State :=
  let (g, s) := s.freshJunk
  { s with hm := s.hm.smudge s.kvRegion.1 s.kvRegion.2 g }

/-- Store bytes in HM: a full 64-bit write replaces an uncorrectable word (R422). -/
def State.hmStore (s : State) (off : Nat) (bs : List Byte) : State :=
  { s.kvSpoil off bs.length with
    hm := s.hm.writeN off bs, hmBad := s.hmBad.filter (fun w => !(off ≤ 8 * w && 8 * w + 8 ≤ off + bs.length)) }

/-! ### MSI-X (R371) -/

namespace Reg
/-- MSI-X table entry v: message address, message data and vector control (R370). -/
def MSIX_ADDR (v : Nat) : Fld := ⟨0x8000 + 16 * v, 0, 64, 0⟩
def MSIX_DATA (v : Nat) : Fld := ⟨0x8008 + 16 * v, 0, 32, 0⟩
/-- Vector control: bit 0 masks the vector, and is 1 at reset (PRESUMED from the PCI Express definition). -/
def MSIX_CTRL (v : Nat) : Fld := ⟨0x8008 + 16 * v, 32, 32, 1⟩
/-- Pending-bit array, at 0x9000. -/
def MSIX_PBA : Fld := ⟨0x9000, 0, 64, 0⟩
end Reg

/-- Is vector v masked? (PRESUMED, assumption 64.) -/
def State.vecMasked (s : State) (v : Nat) : Bool := s.rd (Reg.MSIX_CTRL v) % 2 == 1

/-- Raise a vector: the message leaves, or a masked vector's pending bit is set (R371). -/
def State.raiseVec (s : State) (v : Nat) : State :=
  if s.vecMasked v then s.wr Reg.MSIX_PBA (s.rd Reg.MSIX_PBA ||| 2 ^ v)
  else { s with hostOut := s.hostOut ++ [.msix v (BitVec.ofNat 64 (s.rd (Reg.MSIX_ADDR v))) (BitVec.ofNat 32 (s.rd (Reg.MSIX_DATA v)))] }

/-- A service event: its cause bit, then SVC_VEC (R371). -/
def State.svcEvent (s : State) (cause : Fld) : State := (s.wr cause 1).raiseVec (s.rd Reg.HOST_IRQ_SVC_VEC)

/-! ### CRC-32C (R267) -/

/-- One byte into the reflected CRC register. -/
def crcByte (c : Nat) (b : Byte) : Nat :=
  (List.range 8).foldl (fun x _ => if x % 2 = 1 then (x / 2) ^^^ 0x82F63B78 else x / 2) (c ^^^ b.toNat)

/-- CRC-32C of bytes: reflected polynomial 0x1EDC_6F41, initial value and final XOR all ones. -/
def crc32c (bs : List Byte) : Nat := (bs.foldl crcByte 0xFFFFFFFF) ^^^ 0xFFFFFFFF

/-! ### Fault records -/

/-- A fault with no core, task or detail. (DEDUCED, assumption 13.) -/
def Fault_.blank (sev status cause : Nat) : Fault_ :=
  { sev := sev, status := status, cause := cause, core := 0xFF, unit := 0xFF, task := 0, job := 0, ip := 0,
    replace := false, nested := false, addr := 0, info0 := 0, info1 := 0, other := 0, oport := 0, time := 0 }

/-- The 60 bytes of an error record before its CRC (R412). -/
def Fault_.body (f : Fault_) (seq m : Nat) : List Byte :=
  leBytes 8 seq ++ leBytes 8 f.time.toNat ++ leBytes 1 f.sev
    ++ leBytes 1 (if f.sev = 2 then Status.replayed else f.status) ++ leBytes 2 f.cause ++ leBytes 2 m
    ++ leBytes 1 f.core ++ leBytes 1 f.unit ++ leBytes 2 f.task ++ leBytes 2 f.job ++ leBytes 2 f.ip
    ++ leBytes 1 ((if f.replace then 1 else 0) + (if f.nested then 2 else 0)) ++ leBytes 1 0
    ++ leBytes 8 f.addr.toNat ++ leBytes 8 f.info0.toNat ++ leBytes 8 f.info1.toNat
    ++ leBytes 4 (f.other % 4096 + f.oport % 32 * 4096)

/-- The 64 bytes of an error record (R412). -/
def Fault_.bytes (f : Fault_) (seq m : Nat) : List Byte :=
  let b := f.body seq m
  b ++ leBytes 4 (crc32c b)

/-- ERR_RING.BASE as an HM offset. -/
def State.errBase (s : State) : Nat := s.rd Reg.ERR_RING_BASE * 64

/-- The record ring lies wholly inside direct HM (R415). -/
def State.errRingOk (s : State) : Bool := s.errBase + 512 * 64 ≤ s.directBytes

/-- The ring is full: TAIL + 1 equals HEAD modulo 512 (R415). -/
def State.errFull (s : State) : Bool := (s.rd Reg.ERR_PTR_TAIL + 1) % 512 == s.rd Reg.ERR_PTR_HEAD % 512

/-- Interrupt of a record written: at once, or held back for COALESCE_US (R415). -/
def State.errIrq (s : State) : State :=
  let s := s.wr Reg.HOST_IRQ_CAUSE_ERR 1
  let held := match s.lastIrq with
    | some t => decide (s.clock < t + State.usTicks (s.rd Reg.ERR_CTL_COALESCE_US))
    | none => false
  if held then { s with irqDue := true }
  else { s.raiseVec (s.rd Reg.HOST_IRQ_ERR_VEC) with lastIrq := some s.clock }

/-- Put a record into a slot of the ring. -/
def State.putRecord (s : State) (f : Fault_) (slot : Nat) : State :=
  { s.hmStore (s.errBase + 64 * slot) (f.bytes s.errSeq s.modNum) with errSeq := s.errSeq + 1 }

/-- The oldest unconsumed slot that holds a record of S0-S2 (R415). -/
def State.oldestMinor (s : State) : Option Nat :=
  let h := s.rd Reg.ERR_PTR_HEAD
  let n := (s.rd Reg.ERR_PTR_TAIL + 512 - h) % 512
  ((List.range n).map (fun i => (h + i) % 512)).find? (fun k => (s.hm.read (s.errBase + 64 * k + 16)).toNat ≤ 2)

/-- Write a record, or count it (R415). (DEDUCED, assumption 14.) -/
def State.writeRecord (s : State) (f : Fault_) : State :=
  if f.sev = 0 ∧ s.rd Reg.ERR_CTL_S0_EN = 0 then s.bump Reg.ERR_STAT_S0_COUNT 1
  else if !s.errRingOk then s.bump Reg.ERR_STAT_LOST 1
  else if s.errFull then
    if f.sev ≤ 2 then s.bump Reg.ERR_STAT_LOST 1
    else match s.oldestMinor with
      | some k => ((s.putRecord f k).bump Reg.ERR_STAT_LOST 1).errIrq
      | none => s.bump Reg.ERR_STAT_LOST 1
  else
    let t := s.rd Reg.ERR_PTR_TAIL
    ((s.putRecord f t).wr Reg.ERR_PTR_TAIL (t + 1)).errIrq

/-- A fault arises inside the handling of another while one is queued, or while a task ended by an S3 or S4
has not yet left (R416). (DEDUCED, assumption 14.) -/
def State.handlingFault (s : State) : Bool :=
  !s.faultq.isEmpty || s.tasks.any (fun t => (t.fatal.isSome || t.jobFatal.isSome) && t.state != .ended)

/-- Put a fault into the queue: in front when it is more severe than the one being handled (R416). (DEDUCED, assumption 14.) -/
def enqueueFault (q : List Fault_) (f : Fault_) : List Fault_ :=
  match q with
  | [] => [f]
  | g :: _ => if g.sev < f.sev then f :: q else q ++ [f]

/-- A fault is detected (R416): it is queued; when the queue of 256 is full, an S0-S2 fault is only
recorded and an S3 or S4 waits with the unit that met it. (DEDUCED, assumption 14.) -/
def State.raise (s : State) (f : Fault_) : State :=
  let f := { f with time := s.rackTime, nested := s.handlingFault }
  if s.faultq.length < 256 then { s with faultq := enqueueFault s.faultq f }
  else if f.sev ≤ 2 then s.writeRecord f
  else { s with faultWait := s.faultWait ++ [f] }

/-- Log an S0 record with a status, a cause and its INFO0. -/
def State.logS0 (s : State) (status cause : Nat) (info0 : Nat) : State :=
  s.raise { Fault_.blank 0 status cause with info0 := BitVec.ofNat 64 info0 }

/-- S0 record of a configuration access that R3 or R7 drops: INFO0 holds the offset (R413). (DEDUCED, assumption 13.) -/
def State.logDropped (s : State) (off : Nat) : State := s.logS0 Status.ok 0x0801 off

end Sys2Proof.Machine
end

