-- ==== Sys2Proof/Machine/Memory.lean ====
section
/-! DEFINITION. The memories: scratchpads, direct HM, and LM behind the hub cache (R156-R166, R355-R358,
R422). -/

namespace Sys2Proof.Machine

/-! ### LM windows and channels (R157, R164, R165) -/

def spSize : Nat := 0x2800000

def gib : Nat := 0x40000000

/-- Base of the spread window. -/
def spreadBase : Nat := 0x8000000000

/-- S of R164. -/
def State.spread (s : State) : Nat := s.rd Reg.HM_LM_MAP_SPREAD

/-- Bytes of a quadrant window (R164). -/
def State.qwin (s : State) : Nat := (124 - 8 * s.spread) * gib

/-- Bytes of the spread window (R164). -/
def State.swin (s : State) : Nat := 32 * s.spread * gib

/-- A range of LM offsets lies wholly inside one window (R157). -/
def State.lmRange (s : State) (off n : Nat) : Bool :=
  if off < spreadBase then
    decide (off / 0x2000000000 < 4) && decide (off % 0x2000000000 + n ≤ s.qwin)
  else decide (off - spreadBase + n ≤ s.swin)

/-- A range of HM offsets lies in direct HM (R157). -/
def State.hmRange (s : State) (off n : Nat) : Bool := decide (off + n ≤ s.directBytes)

/-- XOR of the fields of `w` bits of `o` that start at the listed bits. -/
def xorFold (o : Nat) (fs : List (Nat × Nat)) : Nat := fs.foldl (fun a f => a ^^^ fld o f.1 f.2) 0

/-- The channel that holds an LM offset (R165). -/
def lmChannel (off : Nat) : Nat :=
  if off < spreadBase then
    let o := off % 0x2000000000
    16 * (off / 0x2000000000) + xorFold o [(8, 4), (12, 4), (16, 4), (20, 4), (24, 4), (28, 4), (32, 4)]
  else
    xorFold (off - spreadBase) [(8, 6), (14, 6), (20, 6), (26, 6), (32, 4)]

/-- A channel that has failed answers every access with ECC_UNCORRECTED (R363). -/
def State.chanFailed (s : State) (off : Nat) : Bool :=
  let ch := lmChannel off
  s.rd (Reg.LMC_CH_STATE (ch / 16) (ch % 16)) == 3

/-- A channel is out of service, retraining or being repaired (R362). -/
def State.chanOut (s : State) (ch : Nat) : Bool :=
  let st := s.rd (Reg.LMC_CH_STATE (ch / 16) (ch % 16))
  st == 1 || st == 2

/-! ### What the check bits find -/

/-- What an access to memory met: nothing, a word or line already bad, or a word now found bad, with its
offset. -/
inductive Bad where
  | none
  | old (off : Nat)
  | found (off : Nat)
  deriving DecidableEq, Repr

def Bad.isBad : Bad → Bool
  | .none => false
  | _ => true

/-- Where the bad word lies. -/
def Bad.at? : Bad → Option Nat
  | .none => Option.none
  | .old o => some o
  | .found o => some o

/-- The first of two findings. -/
def Bad.or : Bad → Bad → Bad
  | .none, b => b
  | a, _ => a

/-- A single-bit error in a 64-byte word of LM: corrected, counted and logged S1 (R357, R363). -/
def State.lmCorrected (s : State) (off : Nat) : State :=
  let ch := lmChannel off
  let row := Config.lmRow (off / 256)
  let recent := (s.chan ch).rows.filter (fun r => s.clock < r.2 + State.msTicks 86400000)
  let s := s.bump (Reg.LMC_CH_CORRECTED (ch / 16) (ch % 16)) 1
  let s := s.modChan ch (fun c => { c with rows := (row, s.clock) :: recent })
  let s := if (recent.filter (fun r => r.1 == row)).length + 1 ≥ 3 ∧ ¬ (s.flash.rows.contains (ch * 2 ^ 40 + row))
    then { s with flash := { s.flash with rows := s.flash.rows ++ [ch * 2 ^ 40 + row] } } else s
  s.raise { Fault_.blank 1 Status.ok 0x0201 with addr := BitVec.ofNat 64 off, info1 := BitVec.ofNat 64 ch }

/-- Poison that LM itself holds for a line, as bad or inverted check bits (R357, R160). -/
def State.poisonLm (s : State) (line : Nat) (p : Bool) : State :=
  let rest := s.lmPoison.filter (fun x => x != line)
  { s with lmPoison := if p then line :: rest else rest }

/-- An uncorrectable word of LM: its line is poisoned, which is counted once, and recorded in the LMC registers (R357, R367). -/
def State.lmUncorrectable (s : State) (off : Nat) (latent : Bool) : State :=
  let ch := lmChannel off
  let q := ch / 16
  let s := s.bump (Reg.LMC_CH_UNCORR q (ch % 16)) 1
  let s := s.wr (Reg.LMC_ECC_LAST_OFFSET q) (off / 256 * 256)
  let s := s.wr (Reg.LMC_ECC_LAST_CHANNEL q) ch
  let s := s.wrb (Reg.LMC_ECC_LAST_LATENT q) latent
  let s := s.wr (Reg.LMC_ECC_LAST_VALID q) 1
  if s.lmPoison.contains (off / 256) then s else (s.bump (Reg.LMC_STAT_POISONED q) 1).poisonLm (off / 256) true

/-- What the check bits of LM find on a read of one line: corrected words are logged, an uncorrectable one
answers with its offset. -/
def State.lmUpsets (s : State) (us : List Upset) (line : Nat) : Option Nat × State :=
  us.foldl (fun r u => match u with
    | .lmCorrected off => if off / 256 = line then (r.1, r.2.lmCorrected off) else r
    | .lmUncorrectable off => if off / 256 = line then (some off, r.2.lmUncorrectable off false) else r
    | _ => r) (none, s)

/-- Errors of SP and HM words that a step meets (R422): corrected ones are logged S1, an uncorrectable word
stays bad until a full write. -/
def State.sramUpsets (s : State) (us : List Upset) : State :=
  us.foldl (fun s u => match u with
    | .hmCorrected off => s.raise { Fault_.blank 1 Status.ok 0x0201 with addr := BitVec.ofNat 64 off, info0 := 1 }
    | .hmUncorrectable off => if s.hmBad.contains (off / 8) then s else { s with hmBad := off / 8 :: s.hmBad }
    | .spCorrected c off => s.raise { Fault_.blank 1 Status.ok 0x0201 with core := c.val, addr := BitVec.ofNat 64 off, info0 := 2 }
    | .spUncorrectable c off => s.modCore c.val (fun k => if k.spBad.contains (off / 8) then k else { k with spBad := off / 8 :: k.spBad })
    | _ => s) s

/-! ### The hub cache (R158-R162) -/

/-- Sets of one cache quadrant: 16 ways of 256-byte lines (R158, R159). -/
def State.cacheSets (s : State) : Nat := (4 - s.rd Reg.HM_SPLIT_DIRECT) * 4096

/-- The cache quadrant of a line: that of its channel (R159). -/
def lineQuad (line : Nat) : Nat := lmChannel (line * 256) / 16

/-- The set of a line within its quadrant. (DESIGN CHOICE, assumption 10.) -/
def State.lineSet (s : State) (line : Nat) : Nat := Config.cacheSet line % s.cacheSets

/-- Two lines share a set. -/
def State.sameSet (s : State) (a b : Nat) : Bool := lineQuad a == lineQuad b && s.lineSet a == s.lineSet b

/-- Write a line's bytes back to LM; a poisoned line keeps its poison there (R357). -/
def State.writeBack (s : State) (l : CLine) : State :=
  if l.dirty then
    let rest := s.lmPoison.filter (fun x => x != l.line)
    { s with lm := s.lm.writeN (l.line * 256) l.data, lmPoison := if l.poison then l.line :: rest else rest }
  else s

/-- Make room in the set of a line: the least recently used unprotected line goes when 16 are held (R161). (DEDUCED, assumption 15.) -/
def State.makeRoom (s : State) (line : Nat) : State :=
  let inSet := s.cache.filter (fun l => s.sameSet l.line line)
  if inSet.length < 16 then s
  else match (inSet.filter (fun l => !l.prot)).getLast? with
    | some v => { s.writeBack v with cache := s.cache.filter (fun l => l.line != v.line) }
    | none => s

/-- The key of QUOTA_MIB's value as a cache quadrant acts with it. -/
def quotaKey (q : Nat) : Nat := Reg.HM_KEEP_QUOTA_QUOTA_MIB.key + 56 + q

/-- QUOTA_MIB as a cache quadrant acts with it: a written value acts from its next allocation on (R179). -/
def State.quota (s : State) (q : Nat) : Nat := (s.lag.lookup (quotaKey q)).getD (s.rd Reg.HM_KEEP_QUOTA_QUOTA_MIB)

/-- QUOTA_MIB is written: each quadrant keeps its own until its next allocation (R179). -/
def State.quotaLater (old s : State) : State :=
  { s with lag := (List.range 4).foldl (fun t q => Tab.put t (quotaKey q) (old.quota q)) s.lag }

/-- The quadrant of a line allocates (R179). -/
def State.quotaNow (s : State) (line : Nat) : State := { s with lag := s.lag.del (quotaKey (lineQuad line)) }

/-- May a line of this quadrant and set be marked protected (R161)? -/
def State.mayProtect (s : State) (line : Nat) : Bool :=
  let prot := s.cache.filter (fun l => l.prot)
  decide ((prot.filter (fun l => lineQuad l.line == lineQuad line)).length * 256 < s.quota (lineQuad line) * 0x100000)
    && decide ((prot.filter (fun l => s.sameSet l.line line)).length < 12)

/-- The line of the cache, if it is there. -/
def State.cached (s : State) (line : Nat) : Option CLine := s.cache.find? (fun l => l.line == line)

/-- Put a line back, at the front when the access counts as its latest use. -/
def State.putLine (s : State) (l : CLine) (touch : Bool) : State :=
  if touch then { s with cache := l :: s.cache.filter (fun x => x.line != l.line) }
  else { s with cache := s.cache.map (fun x => if x.line == l.line then l else x) }

/-- Read a line from LM with its check bits (R357). -/
def State.fetchLine (s : State) (us : List Upset) (line : Nat) : CLine × Bad × State :=
  let old := s.lmPoison.contains line
  let (u, s) := s.lmUpsets us line
  let l : CLine := { line := line, data := s.lm.readN (line * 256) 256, dirty := false, prot := false, disc := none,
                     poison := old || u.isSome, flush := false }
  let b := if old then .old (line * 256) else match u with | some o => .found o | none => .none
  (l, b, s)

/-- Hints of R76. -/
def hintStream : Nat := 1
def hintKeep : Nat := 2
def hintDiscard : Nat := 3

/-- Mark a line protected under KEEP where the quota and the set allow (R161). -/
def State.keepMark (s : State) (hint : Nat) (l : CLine) : CLine :=
  if hint = hintKeep ∧ l.prot = false ∧ s.mayProtect l.line then { l with prot := true } else l

/-- A read of one line: its 256 bytes, what was met, and the state after (R161, R162, R357, R363). (DEDUCED, assumption 15.) -/
def State.lmReadLine (s : State) (us : List Upset) (hint uses line : Nat) : List Byte × Bad × State :=
  if s.chanFailed (line * 256) then (s.lm.readN (line * 256) 256, .old (line * 256), s)
  else if s.cacheSets = 0 then
    let (l, b, s) := s.fetchLine us line
    (l.data, b, s)
  else match s.cached line with
    | some l =>
      let s := s.bumpK Reg.HM_CACHE_STAT_HITS 1
      let b := if l.poison then Bad.old (line * 256) else .none
      if hint = hintDiscard then
        let (t, n) := l.disc.getD (uses, 0)
        if n + 1 ≥ t then
          (l.data, b, { s with cache := s.cache.filter (fun x => x.line != line) }.bumpK Reg.HM_CACHE_STAT_DROPS 1)
        else (l.data, b, s.putLine { l with disc := some (t, n + 1) } true)
      else if hint = hintStream then (l.data, b, s)
      else (l.data, b, s.putLine (s.keepMark hint l) true)
    | none =>
      let (l, b, s) := s.fetchLine us line
      if hint = hintStream then (l.data, b, s)
      else
        let s := (s.makeRoom line).quotaNow line
        if hint = hintDiscard ∧ uses ≤ 1 then (l.data, b, s.bumpK Reg.HM_CACHE_STAT_DROPS 1)
        else
        let l := if hint = hintDiscard then { l with disc := some (uses, 1) } else s.keepMark hint l
        (l.data, b, { s with cache := l :: s.cache })

/-- Replace bytes of a line. -/
def patch (data : List Byte) (pos : Nat) (bs : List Byte) : List Byte :=
  data.take pos ++ bs ++ data.drop (pos + bs.length)

/-- A write of bytes of one line from `pos` (R161, R162, R357).  A write of the whole line clears the poison,
a write of part of it leaves the line as it is. (DEDUCED, assumption 15.) -/
def State.lmWriteLine (s : State) (us : List Upset) (hint uses line pos : Nat) (bs : List Byte) : Bad × State :=
  let whole := bs.length == 256
  let disc := if hint = hintDiscard then some (uses, 0) else none
  if s.chanFailed (line * 256) then (.old (line * 256), s)
  else match (if s.cacheSets = 0 then none else s.cached line) with
    | some l =>
      let s := s.bumpK Reg.HM_CACHE_STAT_HITS 1
      let l := { l with data := patch l.data pos bs, dirty := true, poison := l.poison && !whole, disc := disc }
      (.none, if hint = hintStream then s.putLine l false else s.putLine (s.keepMark hint l) true)
    | none =>
      let (l, b, s) := if whole then ({ line := line, data := bs, dirty := true, prot := false, disc := disc, poison := false, flush := false }, Bad.none, s)
        else s.fetchLine us line
      let s := match b with
        | .found off => s.raise { Fault_.blank 3 Status.eccUncorrected 0x0202 with addr := BitVec.ofNat 64 off }
        | _ => s
      let l := { l with data := patch l.data pos bs, dirty := true, disc := disc }
      if hint = hintStream ∨ s.cacheSets = 0 then (.none, s.writeBack l)
      else
        let s := (s.makeRoom line).quotaNow line
        (.none, { s with cache := s.keepMark hint l :: s.cache })

/-- An atomic on one line: one access, which reads the line and writes `f` of the n bytes at `pos` into it; a line found bad
is not written (R159, R160, R176, R357). -/
def State.lmAtomLine (s : State) (us : List Upset) (line pos n : Nat) (f : List Byte → List Byte) : List Byte × Bad × State :=
  let (d, b, s) := s.lmReadLine us 0 1 line
  let old := (d.drop pos).take n
  let new := patch d pos (f old)
  if b.isBad then (old, b, s)
  else match (if s.cacheSets = 0 then none else s.cached line) with
    | some l => (old, b, s.putLine { l with data := new, dirty := true, disc := none } false)
    | none => (old, b, s.writeBack { line := line, data := new, dirty := true, prot := false, disc := none, poison := false, flush := false })

/-- The pieces of a range by line: line, first byte in it, bytes. -/
def linePieces (off n : Nat) : List (Nat × Nat × Nat) :=
  if n = 0 then []
  else (List.range ((off + n - 1) / 256 - off / 256 + 1)).map (fun i =>
    let line := off / 256 + i
    let a := max off (line * 256)
    let b := min (off + n) (line * 256 + 256)
    (line, a - line * 256, b - a))

/-- An access to a range of LM waits: one of its lines is not in the hub cache, and its channel is out of service (R362).
(DEDUCED, assumption 49.) -/
def State.lmWaits (s : State) (off n : Nat) : Bool :=
  (linePieces off n).any (fun p => s.chanOut (lmChannel (p.1 * 256)) && (s.cacheSets == 0 || (s.cached p.1).isNone))

/-- An access to a range of a space of this module waits for a channel. (DEDUCED, assumption 22.) -/
def State.memWaits (s : State) (space off n : Nat) : Bool := space == 0 && s.lmWaits off n

/-- Read a range of LM. -/
def State.lmRead (s : State) (us : List Upset) (hint uses off n : Nat) : List Byte × Bad × State :=
  (linePieces off n).foldl (fun (r : List Byte × Bad × State) p =>
    let (d, b, s) := r.2.2.lmReadLine us hint uses p.1
    (r.1 ++ (d.drop p.2.1).take p.2.2, r.2.1.or b, s)) ([], .none, s)

/-- Write a range of LM. -/
def State.lmWrite (s : State) (us : List Upset) (hint uses off : Nat) (bs : List Byte) : Bad × State :=
  let r := (linePieces off bs.length).foldl (fun (r : Bad × State × List Byte) p =>
    let (b, s) := r.2.1.lmWriteLine us hint uses p.1 p.2.1 (r.2.2.take p.2.2)
    (r.1.or b, s, r.2.2.drop p.2.2)) (.none, s, bs)
  (r.1, r.2.1)

/-- Read ranges of LM as one access, which reads each line once, whatever number of ranges touch it (R162). -/
def State.lmReadAll (s : State) (us : List Upset) (hint uses : Nat) (rs : List (Nat × Nat)) : List (List Byte) × Bad × State :=
  let lines := (rs.flatMap (fun r => (linePieces r.1 r.2).map (fun p => p.1))).dedup
  let (t, b, s) := lines.foldl (fun (r : List (Nat × List Byte) × Bad × State) line =>
    let (d, b, s) := r.2.2.lmReadLine us hint uses line
    (r.1 ++ [(line, d)], r.2.1.or b, s)) ([], .none, s)
  (rs.map (fun r => (linePieces r.1 r.2).flatMap (fun p => ((Tab.get t [] p.1).drop p.2.1).take p.2.2)), b, s)

/-- A range of LM becomes unspecified (R417): in the lines that the cache holds, and below them. -/
def State.lmSmudge (s : State) (off n g : Nat) : State :=
  { s with
    cache := s.cache.map (fun l => { l with data := l.data.zipIdx.map (fun d =>
      if off ≤ l.line * 256 + d.2 ∧ l.line * 256 + d.2 < off + n then Config.junkByte g (l.line * 256 + d.2) else d.1) }),
    lm := s.lm.smudge off n g }

/-! ### Direct HM and SP -/

/-- Read a range of direct HM; an uncorrectable word is found bad (R422). -/
def State.hmRead (s : State) (off n : Nat) : List Byte × Bad :=
  (s.hm.readN off n, match (touchedWords off n).find? s.hmBad.contains with | some w => .old (8 * w) | none => .none)

/-- Read a range of a core's SP; an uncorrectable word is found bad (R422). -/
def Core.spRead (c : Core) (off n : Nat) : List Byte × Bad :=
  (c.sp.readN off n, match (touchedWords off n).find? c.spBad.contains with | some w => .old (8 * w) | none => .none)

/-- Store bytes in a core's SP: a full 64-bit write replaces an uncorrectable word (R422). -/
def Core.spWrite (c : Core) (off : Nat) (bs : List Byte) : Core :=
  { c with sp := c.sp.writeN off bs, spBad := c.spBad.filter (fun w => !(off ≤ 8 * w && 8 * w + 8 ≤ off + bs.length)) }

def State.spWrite (s : State) (c off : Nat) (bs : List Byte) : State := s.modCore c (fun k => k.spWrite off bs)

end Sys2Proof.Machine
end

