-- ==== Sys2Proof/Machine/Operands.lean ====
section
/-! DEFINITION. Operand forms: Tuida words and their packing (R70-R76, R100, R101), global addresses and
their checks (R84, R88, R157), and tiles (R30, R47-R49). -/

namespace Sys2Proof.Machine

/-! ### Tuida words -/

/-- A base word from its fields and its operand bits (R70). -/
def baseWord (h : Hdr) (opc operands : Nat) : Word :=
  BitVec.ofNat 64 (opc * 2 ^ 56 + h.q.val * 2 ^ 52 + h.dw.val * 2 ^ 44 + h.var.toNat * 2 ^ 43 + h.sat.toNat * 2 ^ 42
    + h.gn.toNat * 2 ^ 41 + h.ext.isSome.toNat * 2 ^ 40 + h.gp.val * 2 ^ 37 + operands % 2 ^ 37)

/-- Operand bits of the formats (R76, R101). -/
def packG (o : FmtG) : Nat := o.tn.val * 2 ^ 29 + o.scope.val * 2 ^ 27 + o.consume.toNat * 2 ^ 26 + o.n.toNat
def packH (o : FmtH) : Nat :=
  o.ra.val * 2 ^ 31 + o.rb.val * 2 ^ 25 + o.scope.val * 2 ^ 23 + o.consume.toNat * 2 ^ 22 + o.cls.val * 2 ^ 20 + o.n.toNat
def packI (o : FmtI) : Nat :=
  o.td.val * 2 ^ 32 + o.ra.val * 2 ^ 26 + o.rb.val * 2 ^ 20 + o.rc.val * 2 ^ 14 + o.cls.val * 2 ^ 12 + o.hint.val * 2 ^ 10 + o.scope.val * 2 ^ 8
def packJ (o : FmtJ) : Nat :=
  o.td.val * 2 ^ 32 + o.ra.val * 2 ^ 26 + o.rb.val * 2 ^ 20 + o.rc.val * 2 ^ 14 + o.rd.val * 2 ^ 8 + o.cls.val * 2 ^ 6 + o.hint.val * 2 ^ 4
def packK (o : FmtK) : Nat := o.td.val * 2 ^ 32 + o.ts.val * 2 ^ 27
def packL (o : FmtL) : Nat :=
  o.ra.val * 2 ^ 31 + o.rb.val * 2 ^ 25 + o.rc.val * 2 ^ 19 + o.rd.val * 2 ^ 13 + o.scope.val * 2 ^ 11 + o.cls.val * 2 ^ 9 + o.w64.toNat * 2 ^ 8 + o.aop.val * 2 ^ 5
def packM (o : FmtM) : Nat := o.ts.val * 2 ^ 32 + o.rk.val * 2 ^ 26 + o.rn.val * 2 ^ 20 + o.shape.val * 2 ^ 18 + o.sslot.val * 2 ^ 17
def packN (o : FmtN) : Nat := o.ts.val * 2 ^ 32 + o.rk.val * 2 ^ 26 + o.sslot.val * 2 ^ 17
def packO (o : FmtO) : Nat := o.td.val * 2 ^ 32 + o.ra.val * 2 ^ 26 + o.h.val * 2 ^ 23 + o.add.toNat * 2 ^ 22
def packS (o : FmtS) : Nat := o.td.val * 2 ^ 32 + o.ts.val * 2 ^ 27 + o.tx.val * 2 ^ 22
def packT (o : FmtT) : Nat :=
  o.vd.val * 2 ^ 32 + o.va.val * 2 ^ 27 + o.vb.val * 2 ^ 22 + o.vc.val * 2 ^ 17 + o.rs.val * 2 ^ 11 + o.mode.val * 2 ^ 8 + o.ty.toNat * 2 ^ 7 + o.sr.toNat * 2 ^ 6
def packU (o : FmtU) : Nat :=
  o.vd.val * 2 ^ 32 + o.ts.val * 2 ^ 27 + o.ra.val * 2 ^ 21 + o.rb.val * 2 ^ 15 + o.ty.toNat * 2 ^ 14 + o.sr.toNat * 2 ^ 13
def packW (o : FmtW) : Nat :=
  o.td.val * 2 ^ 32 + o.ts.val * 2 ^ 27 + o.tx.val * 2 ^ 22 + o.tg.val * 2 ^ 17 + o.ra.val * 2 ^ 11 + o.rb.val * 2 ^ 5 + o.mode.val * 2
def packX (o : FmtX) : Nat :=
  o.ts.val * 2 ^ 32 + o.tq.val * 2 ^ 27 + o.ra.val * 2 ^ 21 + o.rb.val * 2 ^ 15 + o.rc.val * 2 ^ 9 + o.rd.val * 2 ^ 3
def packY (o : FmtY) : Nat := o.ts.val * 2 ^ 32 + o.ra.val * 2 ^ 26 + o.rb.val * 2 ^ 20 + o.rc.val * 2 ^ 14 + o.rd.val * 2 ^ 8
def packZ (o : FmtZ) : Nat := o.ts.val * 2 ^ 32 + o.ra.val * 2 ^ 26 + o.rb.val * 2 ^ 20 + o.h.val * 2 ^ 17

/-- The queues that the opcode map allows for an opcode; none for an opcode with no entry (R75, R100). -/
def opcQueues (opc : Nat) : Option (List Nat) :=
  if opc = 0x00 then some (List.range 9)
  else if opc = 0x01 ∨ (0x02 ≤ opc ∧ opc ≤ 0x1C) ∨ opc = 0x1E ∨ opc = 0x1F ∨ (0x20 ≤ opc ∧ opc ≤ 0x32)
    ∨ (0x34 ≤ opc ∧ opc ≤ 0x38) then some [0]
  else if 0x40 ≤ opc ∧ opc ≤ 0x42 then some (List.range 9)
  else if (0x43 ≤ opc ∧ opc ≤ 0x46) ∨ (0x50 ≤ opc ∧ opc ≤ 0x52) then some [0]
  else if (0x48 ≤ opc ∧ opc ≤ 0x4A) ∨ (0x60 ≤ opc ∧ opc ≤ 0x66) then some [7]
  else if 0x80 ≤ opc ∧ opc ≤ 0x83 then some [1, 2, 3, 4, 8]
  else if opc = 0x90 then some [5]
  else if (0xA0 ≤ opc ∧ opc ≤ 0xAC) ∨ (0xB0 ≤ opc ∧ opc ≤ 0xB3) ∨ (0xB8 ≤ opc ∧ opc ≤ 0xBA) then some [6]
  else if (0xC0 ≤ opc ∧ opc ≤ 0xC7) ∨ opc = 0xE0 ∨ opc = 0xE1 then some [7]
  else none

/-- Fields of a word that every instruction shares (R70). -/
def wordOpc (w : Word) : Nat := fld w.toNat 56 8
def wordQ (w : Word) : Nat := fld w.toNat 52 4
def wordDw (w : Word) : Nat := fld w.toNat 44 8
def wordExt (w : Word) : Bool := w.toNat.testBit 40

/-- UNIT of a record about a word: its queue value, ME0 for the entries of queue 8, none for an undefined queue
(R52, R412). (DEDUCED, assumption 13.) -/
def wordUnit (w : Word) : Nat := if wordQ w ≤ 7 then wordQ w else if wordQ w = 8 then 1 else 0xFF

/-- Operand fields of the formats, as low bit and width (R76, R101). -/
def fieldsA : List (Nat × Nat) := [(31, 6), (25, 6), (19, 6)]
def fieldsB : List (Nat × Nat) := [(31, 6), (25, 6), (0, 25)]
def fieldsG : List (Nat × Nat) := [(29, 8), (27, 2), (26, 1), (0, 26)]
def fieldsH : List (Nat × Nat) := [(31, 6), (25, 6), (23, 2), (22, 1), (20, 2), (0, 20)]
def fieldsI : List (Nat × Nat) := [(32, 5), (26, 6), (20, 6), (14, 6), (12, 2), (10, 2), (8, 2)]
def fieldsT : List (Nat × Nat) := [(32, 5), (27, 5), (22, 5), (17, 5), (11, 6), (8, 3), (7, 1), (6, 1)]
def fieldsU : List (Nat × Nat) := [(32, 5), (27, 5), (21, 6), (15, 6), (14, 1), (13, 1)]
def fieldsW : List (Nat × Nat) := [(32, 5), (27, 5), (22, 5), (17, 5), (11, 6), (5, 6), (1, 4)]
def fieldsX : List (Nat × Nat) := [(32, 5), (27, 5), (21, 6), (15, 6), (9, 6), (3, 6)]
def fieldsY : List (Nat × Nat) := [(32, 5), (26, 6), (20, 6), (14, 6), (8, 6)]
def fieldsZ : List (Nat × Nat) := [(32, 5), (26, 6), (20, 6), (17, 3)]

/-- The operand fields that an instruction of queue 0 takes from its base word (R75, R76). -/
def scalarFields (opc : Nat) : List (Nat × Nat) :=
  if opc < 0x02 then []
  else if opc = 0x1C then [(31, 6), (0, 25)]
  else if opc = 0x1E ∨ opc = 0x1F then fieldsB
  else if opc < 0x1C then (if opc % 2 = 0 then fieldsA else fieldsB)
  else if opc < 0x26 then [(34, 3), (28, 6), (22, 6)]
  else if opc < 0x2C then [(34, 3), (28, 6), (0, 22)]
  else if opc < 0x2F then [(34, 3), (31, 3), (28, 3)]
  else match opc with
    | 0x2F => [(34, 3), (31, 3)]
    | 0x30 => [(0, 16)]
    | 0x31 => [(31, 6), (0, 16)]
    | 0x32 => [(31, 6)]
    | 0x34 => [(32, 5), (22, 6), (16, 6)]
    | 0x35 => [(32, 5), (28, 4), (22, 6)]
    | 0x36 => [(32, 5), (28, 4), (0, 22)]
    | 0x37 => [(32, 5), (28, 4), (0, 22)]
    | 0x38 => [(32, 5), (28, 4), (22, 6)]
    | _ => []

/-- The operand fields that an instruction takes from its base word; every other operand bit is reserved and ignored
(R73, R75, R76, R100, R101). -/
def opcFields (opc : Nat) : List (Nat × Nat) :=
  if opc < 0x40 then scalarFields opc
  else if opc < 0x44 then fieldsG
  else if opc < 0x50 then fieldsH
  else if opc < 0x60 then []
  else if opc < 0x63 then fieldsI
  else if opc = 0x63 then [(32, 5), (26, 6), (20, 6), (14, 6), (8, 6), (6, 2), (4, 2)]
  else if opc < 0x66 then [(32, 5), (27, 5)]
  else if opc = 0x66 then [(31, 6), (25, 6), (19, 6), (13, 6), (11, 2), (9, 2), (8, 1), (5, 3)]
  else if opc < 0xA0 then (match opc with
    | 0x80 => [(32, 5), (26, 6), (20, 6), (18, 2), (17, 1)]
    | 0x81 => [(32, 5), (26, 6), (17, 1)]
    | 0x82 => [(32, 5), (26, 6), (23, 3), (22, 1)]
    | 0x83 => [(0, 12)]
    | 0x90 => [(32, 5), (27, 5), (22, 5)]
    | _ => [])
  else if opc = 0xA0 ∨ opc = 0xA1 ∨ opc = 0xAC then fieldsU
  else if opc < 0xB0 then fieldsT
  else if opc < 0xB8 then fieldsW
  else if opc < 0xC0 then fieldsX
  else if opc < 0xE0 then fieldsY
  else fieldsZ

/-- The listed fields of a word, in place, and 0 elsewhere. -/
def keepFields (fs : List (Nat × Nat)) (w : Nat) : Nat := (fs.map (fun f => fld w f.1 f.2 * 2 ^ f.1)).sum

/-- A base word without its reserved operand bits: what an instruction takes from it (R70, R73). (DESIGN CHOICE, assumption 5.) -/
def usedBits (w : Word) : Nat := w.toNat / 2 ^ 37 * 2 ^ 37 + keepFields (opcFields (wordOpc w)) w.toNat

/-- An encoding undefined at issue (R74): an opcode with no entry, a queue that the map does not allow, or a
release scope on a queue-0 TUM.ADD. -/
def undefinedWord (w : Word) : Bool :=
  match opcQueues (wordOpc w) with
  | none => true
  | some qs => !(qs.contains (wordQ w)) || (wordOpc w == 0x40 && wordQ w == 0 && fld w.toNat 27 2 != 0)

/-- A branch (R80). -/
def isBranch (w : Word) : Bool := 0x30 ≤ wordOpc w && wordOpc w ≤ 0x32

/-- A queue-0 instruction that writes a scalar register, a predicate or a tile descriptor (R77-R79, R81, R86). -/
def writesReg (w : Word) : Bool :=
  let o := wordOpc w
  (0x02 ≤ o && o ≤ 0x1C) || o == 0x1E || (0x20 ≤ o && o ≤ 0x2F) || (0x34 ≤ o && o ≤ 0x38) || o == 0x43 || o == 0x45

/-- A FENCE or tumbler instruction (R81, R85-R87). -/
def syncWord (w : Word) : Bool :=
  let o := wordOpc w
  (0x40 ≤ o && o ≤ 0x4A) || (0x50 ≤ o && o ≤ 0x52)

/-- What leaves the instructions behind a stalled one unknown, or their operands unfixed: a branch, END, or a write of a
register (R61). (DEDUCED, assumption 19.) -/
def blindStall (w : Word) : Bool := isBranch w || writesReg w || wordOpc w == 0x01

/-- What the run-ahead scan stops at (R61). -/
def scanStops (w : Word) : Bool := undefinedWord w || blindStall w || syncWord w

/-! ### Global addresses (R84, R88, R157) -/

/-- Fields of a global address. -/
def gMod (a : Word) : Nat := fld a.toNat 52 12
def gSpace (a : Word) : Nat := fld a.toNat 48 4
def gOff (a : Word) : Nat := fld a.toNat 0 48

/-- A global address of this hall. -/
def gAddr (m space off : Nat) : Word := BitVec.ofNat 64 (m % 4096 * 2 ^ 52 + space % 16 * 2 ^ 48 + off % 2 ^ 48)

/-- Space codes (R157). -/
def spLM : Nat := 0
def spHM : Nat := 1
def spSP : Nat := 2
def spCSR : Nat := 3
def spTUM : Nat := 4

/-- The module that an address names: 0xFFF names the issuing module (R19). -/
def State.target (s : State) (a : Word) : Nat := if gMod a = 0xFFF then s.modNum else gMod a

/-- The address names this module. -/
def State.isHere (s : State) (a : Word) : Bool := s.target a == s.modNum

/-- Core and byte of an SP offset (R157). -/
def spCore (off : Nat) : Nat := fld off 42 6
def spByte (off : Nat) : Nat := fld off 0 26

/-- A tumbler-space offset that R84 lists: hub tumbler `Sum.inl h`, or local tumbler n of core c. -/
def tumOfOff (off : Nat) : Option (Nat ⊕ (Nat × Nat)) :=
  if off % 8 ≠ 0 then none
  else if off < 0x8000 then some (.inl (off / 8))
  else if 0x10000 ≤ off ∧ off < 0x28000 then some (.inr ((off - 0x10000) / 0x800, (off - 0x10000) % 0x800 / 8))
  else none

/-- Offset in tumbler space of local tumbler n of core c (R84). -/
def ltOff (c n : Nat) : Nat := 0x10000 + c * 0x800 + n * 8

namespace Reg
/-- Entry of destination d in routing-table bank b (R259). -/
def RT_ENTRY (b d : Nat) : Fld := ⟨0x410000 + b * 0x8000 + d * 8, 0, 64, 0⟩
end Reg

/-- The entry of a destination in the active bank (R244). -/
def State.route (s : State) (d : Nat) : Nat := s.rd (Reg.RT_ENTRY (s.rd Reg.RT_CTL_ACTIVE_BANK) d)

/-- Entry fields (R245). -/
def rtValid (e : Nat) : Bool := e.testBit 0
def rtLocal (e : Nat) : Bool := e.testBit 1
def rtPadlock (e : Nat) : Bool := e.testBit 2

/-- A destination is padlocked at this module (R246, R258). -/
def State.padlocked (s : State) (m : Nat) : Bool := rtPadlock (s.route m)

/-- A module is declared dead here (R425). -/
def State.fdDead (s : State) (m : Nat) : Bool := (s.rd (Reg.FD_DEAD_DEAD (m / 64))).testBit (m % 64)

/-- A byte range of a space that exists on a module laid out as this one (R88, R157). -/
def State.rangeOk (s : State) (space off n : Nat) : Bool :=
  match space with
  | 0 => s.lmRange off n
  | 1 => s.hmRange off n
  | 2 => fld off 26 16 == 0 && decide (spCore off < 48) && decide (spByte off + n ≤ spSize)
  | 3 => off % 8 == 0 && n % 8 == 0 && decide (off + n ≤ 0x4000000)
  | 4 => (tumOfOff off).isSome
  | _ => false

/-- The module field names this module, or a module present in the routing table (R88). -/
def State.modOk (s : State) (a : Word) : Bool := s.isHere a || rtValid (s.route (gMod a))

/-- The checks of R88 on an address over `n` bytes; `tum` says that the instruction may name space 0x4.
LM and HM of another module are checked again by its hub. -/
def State.addrOk (s : State) (a : Word) (n : Nat) (tum : Bool) : Bool :=
  s.modOk a && s.rangeOk (gSpace a) (gOff a) n && (tum || gSpace a != spTUM)

/-! ### Tiles (R47-R49) -/

/-- A tile descriptor after the clamps of R49. -/
structure Tile where
  base   : Nat
  fmt    : Nat
  rows   : Nat
  cols   : Nat
  scale  : Nat
  stride : Nat
  deriving DecidableEq, Repr

/-- Fields of a descriptor before any clamp (R47). -/
def Tile.raw (w : TileWord) : Tile :=
  { base := fld w.toNat 0 26, fmt := fld w.toNat 26 4, rows := fld w.toNat 32 16, cols := fld w.toNat 48 16,
    scale := fld w.toNat 64 26, stride := fld w.toNat 96 24 }

/-- Bytes of a row of a format that is not a block format (R48). -/
def rowBytes (fmt cols : Nat) : Nat := cols * (Fmt.bits fmt / 8)

/-- The clamps of R49. -/
def Tile.clamp (t : Tile) : Tile :=
  let rows := max t.rows 1
  let cols0 := max t.cols 1
  let cols := if Fmt.block t.fmt then max (cols0 / 32 * 32) 32 else cols0
  let len := rowBytes t.fmt cols
  let stride := if Fmt.block t.fmt then t.stride
    else if t.stride < len then (len + 63) / 64 * 64 else (t.stride + 63) / 64 * 64
  { t with rows := rows, cols := cols, stride := stride }

def Tile.of (w : TileWord) : Tile := (Tile.raw w).clamp

/-- Block length in bytes (R30). -/
def blockLen (fmt : Nat) : Nat := 4 * Fmt.bits fmt

/-- Bytes of a row as it lies in the far packed form and in SP (R48, R89). -/
def Tile.rowLen (t : Tile) : Nat := if Fmt.block t.fmt then t.cols / 32 * blockLen t.fmt else rowBytes t.fmt t.cols

/-- SP offset of row r (R48). -/
def Tile.rowAt (t : Tile) (r : Nat) : Nat := if Fmt.block t.fmt then t.base + r * t.rowLen else t.base + r * t.stride

/-- First byte past the element plane. -/
def Tile.planeEnd (t : Tile) : Nat := t.rowAt (t.rows - 1) + t.rowLen

/-- Bytes of the scale plane. -/
def Tile.scaleLen (t : Tile) : Nat := if Fmt.block t.fmt then t.rows * t.cols / 32 else 0

/-- Outcome of the checks of R49 that end an instruction. -/
inductive TileBad where
  | undefined
  | range
  deriving DecidableEq, Repr

/-- The checks of R49 at dispatch. -/
def Tile.check (t : Tile) : Option TileBad :=
  if !Fmt.valid t.fmt then some .undefined
  else if t.base % 64 ≠ 0 ∨ (Fmt.block t.fmt ∧ t.scale % 64 ≠ 0) then some .range
  else if t.planeEnd > spSize ∨ (Fmt.block t.fmt ∧ t.scale + t.scaleLen > spSize) then some .range
  else none

/-- Bytes of a tile in the packed far form (R89, R95). -/
def Tile.packedLen (t : Tile) : Nat := t.rows * t.rowLen + t.scaleLen

/-- Bit position in SP of the code of element (r, c), from its row's first byte (R30, R48). -/
def Tile.bitAt (t : Tile) (c : Nat) : Nat :=
  if Fmt.block t.fmt then c / 32 * blockLen t.fmt * 8 + c % 32 * Fmt.bits t.fmt else c * Fmt.bits t.fmt

/-- Code of element (r, c). -/
def Tile.code (t : Tile) (m : Mem) (r c : Nat) : Nat :=
  let b := t.bitAt c
  let a := t.rowAt r + b / 8
  fld (leNat (m.readN a 5)) (b % 8) (Fmt.bits t.fmt)

/-- SP offset of the scale byte of element (r, c) (R30). -/
def Tile.scaleAt (t : Tile) (r c : Nat) : Nat := t.scale + (r * t.cols + c) / 32

/-- Value of element (r, c) (R25, R28, R29). -/
def Tile.elem (t : Tile) (m : Mem) (r c : Nat) : Num :=
  if Fmt.block t.fmt then Fmt.decScaled t.fmt (t.code m r c) (m.read (t.scaleAt r c)).toNat
  else Fmt.decElem t.fmt (t.code m r c)

/-- Set `w` bits at bit `b` of the bytes from `a`. -/
def Mem.setBits (m : Mem) (a b w v : Nat) : Mem :=
  let a0 := a + b / 8
  m.writeN a0 (leBytes ((b % 8 + w + 7) / 8) (setFld (leNat (m.readN a0 ((b % 8 + w + 7) / 8))) (b % 8) w v))

/-- Write the code of element (r, c). -/
def Tile.setCode (t : Tile) (m : Mem) (r c v : Nat) : Mem := m.setBits (t.rowAt r) (t.bitAt c) (Fmt.bits t.fmt) v

/-- Convert and write block b of row r, from the values of its 32 elements (R35). -/
def Tile.setBlock (t : Tile) (sat : Bool) (m : Mem) (r b : Nat) (vs : List Num) : Mem :=
  let (sc, codes) := encBlock t.fmt sat vs
  let m := m.write (t.scaleAt r (32 * b)) (BitVec.ofNat 8 sc)
  (codes.zipIdx).foldl (fun m p => t.setCode m r (32 * b + p.2) p.1) m

/-- Write columns 0 on of row r, converting each value by `enc` or, for a block format, block by block; a
block that the values cover in part is converted again as a whole with its old values outside (R93). -/
def Tile.storeRow (t : Tile) (sat : Bool) (m : Mem) (r : Nat) (vs : List Num) : Mem :=
  if Fmt.block t.fmt then
    (List.range ((vs.length + 31) / 32)).foldl (fun m b =>
      t.setBlock sat m r b ((List.range 32).map (fun i => (vs[32 * b + i]?).getD (t.elem m r (32 * b + i))))) m
  else (vs.zipIdx).foldl (fun m p => t.setCode m r p.2 ((Fmt.float t.fmt).enc sat p.1)) m

/-- The byte ranges of SP that a tile touches, as (offset, bytes). -/
def Tile.ranges (t : Tile) : List (Nat × Nat) :=
  (if Fmt.block t.fmt then [(t.base, t.rows * t.rowLen), (t.scale, t.scaleLen)]
   else (List.range t.rows).map (fun r => (t.rowAt r, t.rowLen)))

/-- The byte ranges of SP that hold the elements of at most rn rows from r0 on and cn columns from c0 on of a tile. -/
def Tile.partRanges (t : Tile) (r0 rn c0 cn : Nat) : List (Nat × Nat) :=
  let last := c0 + min cn (t.cols - c0) - 1
  let lo := t.bitAt c0 / 8
  let hi := (t.bitAt last + Fmt.bits t.fmt + 7) / 8
  if last < c0 then []
  else ((List.range (min rn (t.rows - r0))).map (fun i => r0 + i)).flatMap (fun r =>
    (t.rowAt r + lo, hi - lo) :: (if Fmt.block t.fmt then [(t.scaleAt r c0, t.scaleAt r last + 1 - t.scaleAt r c0)] else []))

/-- First uncorrectable word of SP in the ranges (R422). -/
def Core.badIn (c : Core) (rs : List (Nat × Nat)) : Option Nat :=
  (c.spBad.find? (fun w => rs.any (fun r => r.1 < 8 * w + 8 && 8 * w < r.1 + r.2))).map (fun w => 8 * w)

/-- Bytes that a GET moves. -/
def getBytes (td : TileWord) : Nat := (Tile.of td).packedLen

/-- Far bytes that a GET or PUT spans (R89): first offset and length. -/
def farSpan (t : Tile) (rb : Word) : Nat :=
  if Fmt.block t.fmt then t.packedLen
  else
    let st := if rb.toNat < t.rowLen then t.rowLen else rb.toNat
    (t.rows - 1) * st + t.rowLen

/-! ### The far side of a transfer (R48, R89) -/

/-- The pieces of a tile in far order: far offset from the start, SP offset, bytes. (DESIGN CHOICE, assumption 12.) -/
def farPieces (t : Tile) (rb : Word) : List (Nat × Nat × Nat) :=
  if Fmt.block t.fmt then [(0, t.base, t.rows * t.rowLen), (t.rows * t.rowLen, t.scale, t.scaleLen)]
  else
    let st := if rb.toNat < t.rowLen then t.rowLen else rb.toNat
    (List.range t.rows).map (fun r => (r * st, t.rowAt r, t.rowLen))

/-- A piece that begins at far address `a` and at SP offset `b`, cut at the far 4 KiB boundaries. (DESIGN CHOICE, assumption 12.) -/
def cutPiece (a b n : Nat) : List (Nat × Nat × Nat) :=
  (List.range ((a % 4096 + n + 4095) / 4096)).map (fun i =>
    let lo := max a ((a / 4096 + i) * 4096)
    let hi := min (a + n) ((a / 4096 + i + 1) * 4096)
    (lo, b + (lo - a), hi - lo))

/-- The runs of far bytes that pieces in far order make, `joins` saying which neighbours one run takes: far address,
bytes, and the SP ranges in order. -/
def joinPieces (joins : Nat → Nat → Bool) (ps : List (Nat × Nat × Nat)) : List (Nat × Nat × List (Nat × Nat)) :=
  (ps.foldl (fun (r : List (Nat × Nat × List (Nat × Nat))) p => match r with
    | q :: rest =>
      if q.1 + q.2.1 = p.1 ∧ joins q.1 p.1 then (q.1, q.2.1 + p.2.2, q.2.2 ++ [(p.2.1, p.2.2)]) :: rest
      else (p.1, p.2.2, [(p.2.1, p.2.2)]) :: r
    | [] => [(p.1, p.2.2, [(p.2.1, p.2.2)])]) []).reverse

/-- The runs of far bytes of a transfer from far offset `off`, without gaps (R89). (DESIGN CHOICE, assumption 12.) -/
def farRuns (t : Tile) (off : Nat) (rb : Word) : List (Nat × Nat × List (Nat × Nat)) :=
  joinPieces (fun _ _ => true) ((farPieces t rb).map (fun p => (off + p.1, p.2.1, p.2.2)))

/-- The packets of a transfer from far offset `off`, each a run inside one far 4 KiB: far offset, bytes, and the SP
ranges in order (R275-R277).  How a transfer is cut is a DESIGN CHOICE (assumption 12). -/
def farPackets (t : Tile) (off : Nat) (rb : Word) : List (Nat × Nat × List (Nat × Nat)) :=
  joinPieces (fun a b => a / 4096 == b / 4096) ((farPieces t rb).flatMap (fun p => cutPiece (off + p.1) p.2.1 p.2.2))

end Sys2Proof.Machine
end

