-- ==== Sys2Proof/Machine/Tumblers.lean ====
section
/-! DEFINITION. Tumblers: counts and saturation (R81), local and hub tumblers, hub waiters (R185), and how a
task-fatal status stops a core and its task (R60, R232, R417). -/

namespace Sys2Proof.Machine

/-! ### Counts -/

/-- An addition to a count, held at 0 or at 2^32 − 1 with its status (R81). -/
def tumAdd (count : Word32) (n : Int) : Word32 × Nat :=
  let v := (count.toNat : Int) + n
  if v < 0 then (0, Status.tumUnderflow)
  else if v > 2 ^ 32 - 1 then (BitVec.allOnes 32, Status.tumOverflow)
  else (BitVec.ofInt 32 v, Status.ok)

/-- New value of an atomic operation on a word of `w` bits, from the old value and operands b and c; the
comparisons of MIN and MAX are signed unless `uns` (R94).  AOP 7 is undefined and never reaches here. -/
def atomVal (aop w old b c : Nat) (uns : Bool) : Nat :=
  let b := b % 2 ^ w
  let lt := fun (x y : Nat) => if uns then decide (x < y) else decide (sext w x < sext w y)
  match aop with
  | 0 => (old + b) % 2 ^ w
  | 1 => if lt b old then b else old
  | 2 => if lt old b then b else old
  | 3 => b
  | 4 => if old = c % 2 ^ w then b else old
  | 5 => min old b
  | _ => max old b

/-- The count after an operation, and its status: in space 0x4 comparisons are unsigned and ADD follows R81
(R94). -/
def TumOp.run (op : TumOp) (count : Word32) : Word32 × Nat :=
  match op with
  | .add n => tumAdd count n
  | .set v => (v, Status.ok)
  | .read => (count, Status.ok)
  | .atom aop b c =>
    if aop = 0 then tumAdd count (sext 32 b.toNat)
    else (BitVec.ofNat 32 (atomVal aop 32 count.toNat b.toNat c.toNat true), Status.ok)

/-! ### Local tumblers -/

def Core.ltGet (k : Core) (n : Nat) : Word32 := Tab.get k.lt 0 n

def Core.ltSet (k : Core) (n : Nat) (v : Word32) : Core := { k with lt := Tab.set k.lt 0 n v }

/-- Take n from a count that holds at least n. -/
def Core.ltTake (k : Core) (n amount : Nat) : Core := k.ltSet n (k.ltGet n - BitVec.ofNat 32 amount)

/-! ### Tasks -/

/-- The task with a number. -/
def State.task? (s : State) (t : Nat) : Option Task := s.tasks.find? (fun x => x.num == t)

def State.modTask (s : State) (t : Nat) (f : Task → Task) : State :=
  { s with tasks := s.tasks.map (fun x => if x.num == t then f x else x) }

/-- Job of the task that a core runs, 0 for none. -/
def State.coreJob (s : State) (c : Nat) : Nat := match s.task? (s.core c).task with | some t => t.job | none => 0

/-- A COPY or COPY.T runs on when a task-fatal status ends its task; another TE instruction only once a
packet of it has been sent (R417). -/
def Entry.runsOn (e : Entry) : Bool :=
  match e.op with
  | .copy _ _ => true
  | .copyT _ _ => true
  | _ => e.q != 7 || e.sent

/-- The reads that the run-ahead buffer holds: a read that an issued instruction has kept is that instruction's own
(R63). -/
def Core.ahead (k : Core) : List PreRead := k.preRead.filter (fun p => p.bound.isNone)

/-- A core stops at a task-fatal status (R60): issue ends, undispatched instructions go without effect with the reads
they had kept, what has been dispatched runs on as R417 states, and the run-ahead buffer is emptied (R64). -/
def Core.stop (k : Core) : Core :=
  let w := k.window.filter (fun e => e.phase != .queued && e.runsOn)
  { k with state := 2, stall := none, dwTaken := false, draining := false, ending := false, window := w,
           preRead := k.preRead.filter (fun p => w.any (fun e => p.bound == some e.id)) }

/-- The run-ahead buffer of a core is emptied without effect, and its reads count as discarded (R64). -/
def State.dropAhead (s : State) (c : Nat) : State :=
  (s.bump (Reg.CORE_RUNAHEAD_STAT_RA_DISCARDED c) (s.core c).ahead.length).modCore c (fun k => { k with preRead := k.preRead.filter (fun p => p.bound.isSome) })

/-- Every core of a task that has not finished stops (R232). (DEDUCED, assumption 20.) -/
def State.stopTask (s : State) (t : Nat) : State :=
  let s := ((List.range 48).filter (fun c => (s.core c).task == t && t != 0)).foldl (fun s c => s.dropAhead c) s
  { s with cores := s.cores.map (fun k => if k.task = t ∧ t ≠ 0 ∧ k.state = 1 ∧ k.finished = false then k.stop else k),
           waiters := s.waiters.filter (fun w => (s.core w.core).task != t) }

/-- The status a core last reported, other than OK (R69). (DEDUCED, assumption 38.) -/
def State.lastStatus (s : State) (c status : Nat) : State :=
  if status = 0 then s else s.modCore c (fun k => { k with lastStatus := status })

/-- A non-fatal status other than OK that an instruction of the core's task reports (R218). -/
def State.nonFatal (s : State) (c status : Nat) : State :=
  if status = 0 then s
  else (s.lastStatus c status).modTask (s.core c).task (fun t => if t.nonFatal = 0 then { t with nonFatal := status } else t)

/-- Detail of a task-fatal status: the record's cause, unit, IP, address and INFO0. -/
structure Fatal where
  status : Nat
  cause  : Nat
  unit   : Nat
  ip     : Nat
  addr   : Word
  info   : Word
  deriving DecidableEq, Repr

/-- The first task-fatal status of a task fixes its result, with its core and IP (R232), unless a job-fatal fault
or KILL has ended it already (R430, R232); a pre-emption under way ends without save (R231). -/
def Task.failWith (t : Task) (status c ip : Nat) : Task :=
  { t with fatal := if t.killed || t.jobFatal.isSome then t.fatal else match t.fatal with | none => some (status, c, ip) | some f => some f,
           state := if t.state = .draining then .running else t.state }

/-- An instruction of a core completes with a task-fatal status: the record, the stop of the core and of
its task's other cores (R60, R232). (DEDUCED, assumption 13; DEDUCED, assumption 20.) -/
def State.coreFatal (s : State) (c : Nat) (f : Fatal) : State :=
  let t := (s.core c).task
  let s := s.raise { Fault_.blank 3 f.status f.cause with
    core := c, unit := f.unit, task := t, job := s.coreJob c, ip := f.ip, addr := f.addr, info0 := f.info }
  let s := (s.lastStatus c f.status).modTask t (fun x => x.failWith f.status c f.ip)
  ((s.dropAhead c).modCore c (fun k => if k.finished then k else k.stop)).stopTask t

/-! ### Hub tumblers -/

def State.hubGet (s : State) (h : Nat) : Word32 := Tab.get s.hubTum 0 h

def State.hubSet (s : State) (h : Nat) (v : Word32) : State := { s with hubTum := Tab.set s.hubTum 0 h v }

/-- The allocation that holds a hub tumbler (R181). -/
def State.hubAlloc (s : State) (h : Nat) : Option Alloc := s.allocs.find? (fun a => a.first ≤ h && h < a.first + a.len)

/-- The hub tests the waiters of a tumbler in order of registration: each satisfied one is woken, and a
consuming one subtracts before the next tests (R185). -/
def wakeList (h : Nat) : List Waiter → Word32 → List Waiter × Word32
  | [], v => ([], v)
  | w :: ws, v =>
    if w.tum = h ∧ w.woken = false ∧ w.n ≤ v.toNat then
      let r := wakeList h ws (if w.consume then v - BitVec.ofNat 32 w.n else v)
      ({ w with woken := true } :: r.1, r.2)
    else
      let r := wakeList h ws v
      (w :: r.1, r.2)

/-- A hub tumbler's count has changed: wake messages leave (R184, R185). -/
def State.hubWake (s : State) (h : Nat) : State :=
  let r := wakeList h s.waiters (s.hubGet h)
  { s with waiters := r.1 }.hubSet h r.2

/-! ### Operations that reach a tumbler through space 0x4 -/

/-- What became of an operation on a tumbler: applied with a status and the old count, parked, refused by a
full park, or without an owner (R182, R188). -/
inductive TumRes where
  | applied (status : Nat) (old : Word32)
  | parked
  | refused
  | noOwner
  deriving DecidableEq, Repr

/-- An operation waiting in the park: the host's own add carries no job and no issuer. -/
structure TumReq where
  off    : Nat
  op     : TumOp
  /-- job of the issuing task; none for a host addition (R183) -/
  job    : Option Nat
  issuer : Issuer
  sender : Nat
  opid   : Option Word32
  deriving DecidableEq, Repr

/-- The link of a leaf is active: its cores can be placed (R345, R346). -/
def State.leafUp (s : State) (l : Nat) : Bool := s.rd (Reg.LL_STATE_STATE l) == 2

/-- The leaf has been withdrawn: its cores leave placement (R345). -/
def State.leafGone (s : State) (l : Nat) : Bool := s.rd (Reg.LL_STATE_STATE l) == 3

/-- The power domain of a core is on (R398). -/
def State.coreOn (s : State) (c : Nat) : Bool := (s.rd Reg.POW_DOMAINS_ON).testBit (7 * (c / 12) + c % 12 / 2)

/-! ### Traffic on a leaf link (R340, R343, R348) -/

/-- UCIe module m of a leaf link. -/
def Leaf.mod (k : Leaf) (m : Nat) : Ucie := k.mods.getD m Ucie.reset

/-- Width code of a module: 0 ×64, 1 ×32 on half 0, 2 ×32 on half 1, 3 disabled (R353). -/
def State.width (s : State) (l m : Nat) : Nat := s.rd (Reg.LL_WIDTH_MOD l m)

/-- Weight of a module in the round robin: 2 at ×64, 1 at ×32, 0 while it retrains or is disabled (R340, R343). (DESIGN CHOICE, assumption 83.) -/
def State.turnWeight (s : State) (l m : Nat) : Nat :=
  if ((s.leaf l).mod m).retraining then 0
  else match s.width l m with
    | 0 => 2
    | 3 => 0
    | _ => 1

/-- The leaf link takes new packets: at least 28 of its modules are active (R339, R348). -/
def State.linkOpen (s : State) (l : Nat) : Bool := decide (28 ≤ ((List.range 32).filter (fun m => s.turnWeight l m != 0)).length)

/-- The module of the next packet after `t`, the module of the last one and the packets that it has had in its turn: the
same while its turn lasts, else the next active one (R340). (DESIGN CHOICE, assumption 83.) -/
def nextTurn (weight : Nat → Nat) (t : Nat × Nat) : Nat × Nat :=
  if t.2 < weight t.1 then (t.1, t.2 + 1)
  else match ((List.range 32).map (fun i => (t.1 + 1 + i) % 32)).find? (fun m => weight m != 0) with
    | some m => (m, 1)
    | none => t

/-- A request and its reply cross the link of a leaf, each on one module (R340, R341). (DESIGN CHOICE, assumption 83.) -/
def State.crossLink (s : State) (l : Nat) : State :=
  s.modLeaf l (fun k => { k with turnDown := nextTurn (s.turnWeight l) k.turnDown, turnUp := nextTurn (s.turnWeight l) k.turnUp })

/-- An instruction of core c asks the hub: the request crosses its leaf's link, or the instruction, its dispatch wait
consumed, waits while the link takes no packet (R53, R340, R348). -/
def State.viaLink (s : State) (c : Nat) (f : State → State) : State :=
  if s.linkOpen (c / 12) then (f s).crossLink (c / 12) else s.modCore c (fun k => { k with dwTaken := true })

/-- The task running on core c of a leaf in service, if the operation's job admits it (R182, R183, R346). -/
def State.tumRunning (s : State) (c : Nat) (job : Option Nat) : Bool :=
  let t := (s.core c).task
  t != 0 && s.leafUp (c / 12) && (match job with | none => true | some j => s.coreJob c == j)

/-- The pre-empted task that holds core c, if the operation's job admits it (R182, R183). -/
def State.tumPreempted (s : State) (c : Nat) (job : Option Nat) : Option Task :=
  s.tasks.find? (fun t => (t.state == .preempted || t.state == .saving || t.state == .restoring) && t.cores.contains c
    && t.saved.any (fun x => x.1 == c) && (match job with | none => true | some j => t.job == j))

/-- Apply an operation to a local tumbler of the task running on core c. -/
def State.ltApply (s : State) (c n : Nat) (op : TumOp) : TumRes × State :=
  let old := (s.core c).ltGet n
  let (v, st) := op.run old
  (.applied st old, s.modCore c (fun k => k.ltSet n v))

/-- Apply an operation to an owned hub tumbler. -/
def State.hubApply (s : State) (h : Nat) (op : TumOp) : TumRes × State :=
  let old := s.hubGet h
  let (v, st) := op.run old
  (.applied st old, (s.hubSet h v).hubWake h)

/-- Park an operation for a pre-empted task, or refuse it (R188). -/
def State.parkOp (s : State) (t : Task) (c n : Nat) (r : TumReq) : TumRes × State :=
  if s.park.length < 1024 then
    (.parked, { s with park := s.park ++ [{ core := c, tum := n, task := t.num, op := r.op, issuer := r.issuer, sender := r.sender, opid := r.opid }] })
  else (.refused, s.bump Reg.TUM_PARK_STAT_REFUSED 1)

/-- An operation reaches a tumbler of this module through its address (R181-R183, R188). -/
def State.tumReach (s : State) (r : TumReq) : TumRes × State :=
  match tumOfOff r.off with
  | none => (.noOwner, s)
  | some (.inl h) => if (s.hubAlloc h).isSome then s.hubApply h r.op else (.noOwner, s)
  | some (.inr (c, n)) =>
    if s.tumRunning c r.job then s.ltApply c n r.op
    else match s.tumPreempted c r.job with
      | some t => s.parkOp t c n r
      | none => (.noOwner, s)

/-- The task that owns a tumbler-space offset (R181). -/
def State.tumOwner (s : State) (off : Nat) : Nat :=
  match tumOfOff off with
  | some (.inl h) => match s.hubAlloc h with | some a => a.task | none => 0
  | some (.inr (c, _)) => (s.core c).task
  | none => 0

/-- An addition whose issuer has already completed saturates or underflows: the status is charged to the
task that owns the tumbler, task-fatal there, and the S3 record names the sender; no instruction of that task failed, so
its result names no core (R187, R218). -/
def State.chargeOwner (s : State) (off sender scCore status : Nat) : State :=
  if status = 0 then s
  else
    let t := s.tumOwner off
    let job := match s.task? t with | some x => x.job | none => 0
    let c := match tumOfOff off with
      | some (.inr (c, _)) => c
      | _ => match s.task? t with | some x => x.cores.headD 0xFF | none => 0xFF
    let s := s.raise { Fault_.blank 3 status 0x0107 with core := c, task := t, job := job, info0 := BitVec.ofNat 64 off, other := sender, info1 := BitVec.ofNat 64 scCore }
    (s.modTask t (fun x => x.failWith status 0xFF 0)).stopTask t

end Sys2Proof.Machine
end

