-- ==== Sys2Proof/Machine/KvPages.lean ====
section
/-! DEFINITION. Where the KV page manager keeps the rows of a sequence: geometries, pools, page addresses and positions
(R199-R204). -/

namespace Sys2Proof.Machine

/-! ### Geometries and pools -/

/-- A geometry with its clamps and derived values (R199, R215). -/
structure KvGeom where
  valid  : Bool
  heads  : Nat
  width  : Nat
  ilv    : Nat
  phase  : Nat
  fixed1 : Bool
  head2  : Nat
  layers : Nat
  e8m0   : Nat
  deriving DecidableEq, Repr

/-- The greatest power of two at most n, for n ≥ 1. -/
def pow2Floor (n : Nat) : Nat := 2 ^ Nat.log2 n

/-- HEADS as it is taken. -/
def clampHeads (h : Nat) : Nat := min 32 (pow2Floor (max h 1))

/-- WIDTH as it is taken: a power of two in 16-256, halved until H × W ≤ 2,048. -/
def clampWidth (h w : Nat) : Nat := min (min 256 (max 16 (pow2Floor (max w 1)))) (2048 / h)

/-- A KV_GEOM word with its clamps. -/
def geomOf (w : Word) : KvGeom :=
  let x := w.toNat
  let h := clampHeads (fld x 1 6)
  let i := min 3 (fld x 16 3)
  { valid := x.testBit 0, heads := h, width := clampWidth h (fld x 7 9), ilv := i, phase := fld x 19 3 % 2 ^ i,
    fixed1 := x.testBit 22, head2 := fld x 23 2, layers := max 1 (min 1024 (fld x 32 11)), e8m0 := fld x 56 8 }

/-- G, the layers of a page. -/
def KvGeom.perPage (g : KvGeom) : Nat := min (2048 / (g.heads * g.width)) (32 / g.heads)

/-- Γ, the layer groups of a sequence. -/
def KvGeom.groups (g : KvGeom) : Nat := (g.layers + g.perPage - 1) / g.perPage

/-- Bytes of a row: keys and values of one position of one layer. -/
def KvGeom.rowLen (g : KvGeom) : Nat := 2 * g.heads * g.width

/-- Does the module hold a block (R201)? -/
def KvGeom.holds (g : KvGeom) (b : Nat) : Bool := b % 2 ^ g.ilv == g.phase

/-- The register word of a geometry as accepted, over the fields that KV_GEOM holds. -/
def State.geomWord (s : State) (g : Nat) : Word :=
  BitVec.ofNat 64 (s.rd (Reg.KV_GEOM_VALID g) + s.rd (Reg.KV_GEOM_HEADS g) * 2 ^ 1 + s.rd (Reg.KV_GEOM_WIDTH g) * 2 ^ 7
    + s.rd (Reg.KV_GEOM_ILV_LOG2 g) * 2 ^ 16 + s.rd (Reg.KV_GEOM_PHASE g) * 2 ^ 19 + s.rd (Reg.KV_GEOM_SCALE_MODE g) * 2 ^ 22
    + s.rd (Reg.KV_GEOM_HEADROOM_LOG2 g) * 2 ^ 23 + s.rd (Reg.KV_GEOM_LAYERS g) * 2 ^ 32 + s.rd (Reg.KV_GEOM_FIXED_E8M0 g) * 2 ^ 56)

/-- The pool registers as accepted: LO without BAD, and PAGES. -/
def State.poolLoWord (s : State) (p : Nat) : Word :=
  BitVec.ofNat 64 (s.rd (Reg.KV_POOL_LO_SPACE p) + s.rd (Reg.KV_POOL_LO_CORE p) * 2 ^ 2 + s.rd (Reg.KV_POOL_LO_HINT p) * 2 ^ 8
    + s.rd (Reg.KV_POOL_LO_TIER p) * 2 ^ 10 + s.rd (Reg.KV_POOL_LO_VALID p) * 2 ^ 11 + s.rd (Reg.KV_POOL_LO_BASE p) * 2 ^ 16)

def State.poolHiWord (s : State) (p : Nat) : Word := BitVec.ofNat 64 (s.rd (Reg.KV_POOL_HI_PAGES p))

/-- The geometry in effect (R215). -/
def State.geom (s : State) (g : Nat) : KvGeom := geomOf (Tab.get s.kvGeom (s.geomWord g) g)

/-- A pool in effect (R204). -/
structure KvPool where
  space : Nat
  core  : Nat
  hint  : Nat
  cold  : Bool
  valid : Bool
  base  : Nat
  pages : Nat
  deriving DecidableEq, Repr

def poolOf (lo hi : Word) : KvPool :=
  let x := lo.toNat
  { space := fld x 0 2, core := fld x 2 6, hint := (if fld x 8 2 = 3 then 0 else fld x 8 2), cold := x.testBit 10, valid := x.testBit 11,
    base := fld x 16 32 * 65536, pages := fld hi.toNat 0 32 }

def State.pool (s : State) (p : Nat) : KvPool := poolOf (Tab.get s.kvPoolLo (s.poolLoWord p) p) (Tab.get s.kvPoolHi (s.poolHiWord p) p)

/-- KV_STAT.DISABLED. -/
def State.kvDisabled (s : State) : Bool := !(s.hmRange s.kvRegion.1 s.kvRegion.2)

/-- Bytes of a pool. -/
def KvPool.len (p : KvPool) : Nat := p.pages * 65536

/-- Ranges of two pools overlap; an empty range overlaps nothing (R204). -/
def KvPool.overlaps (p q : KvPool) : Bool :=
  p.space == q.space && (p.space != 2 || p.core == q.core) && decide (0 < p.len) && decide (0 < q.len)
    && decide (p.base < q.base + q.len) && decide (q.base < p.base + p.len)

/-- BAD of a pool (R204). -/
def State.poolBad (s : State) (i : Nat) : Bool :=
  let p := s.pool i
  let inside := match p.space with
    | 0 => s.lmRange p.base p.len
    | 1 => s.hmRange p.base p.len
    | 2 => decide (p.core < 48) && decide (p.base + p.len ≤ spSize)
    | _ => false
  let table := p.space == 1 && decide (p.base < s.kvRegion.1 + s.kvRegion.2) && decide (s.kvRegion.1 < p.base + p.len)
  p.valid && (!inside || p.pages == 0 || table || (List.range 16).any (fun j => j != i && (s.pool j).valid && p.overlaps (s.pool j)))

def State.poolUsed (s : State) (i : Nat) : Bool := (s.pool i).valid && !s.poolBad i

/-- A pool's page is taken: by a sequence, or as the target of a move. -/
def State.pageTaken (s : State) (p i : Nat) : Bool :=
  s.kvPages.any (fun g => (g.pool == p && g.index == i) || g.move == some (p, i))

/-- Pages of a pool in use. -/
def State.poolBusy (s : State) (p : Nat) : Nat :=
  (s.kvPages.filter (fun g => g.pool == p)).length + (s.kvPages.filter (fun g => match g.move with | some (q, _) => q == p | none => false)).length

/-- A sequence that exists. -/
def State.seq? (s : State) (q : Nat) : Option KvSeq := s.kvSeqs.lookup q

/-- Address of a page: space and offset. -/
def State.pageAt (s : State) (p i : Nat) : Nat × Nat :=
  let k := s.pool p
  (k.space, (if k.space = 2 then k.core * 2 ^ 42 else 0) + k.base + i * 65536)

/-! ### Positions (R200, R201) -/

/-- The n held positions from `p`, in increasing order. -/
def KvGeom.run (g : KvGeom) : Nat → Nat → List Nat
  | 0, _ => []
  | n + 1, p =>
    let q := if g.holds (p / 16) then p else 16 * (p / 16 / 2 ^ g.ilv * 2 ^ g.ilv + g.phase + (if p / 16 % 2 ^ g.ilv > g.phase then 2 ^ g.ilv else 0))
    q :: g.run n (q + 1)

/-- The checks of R117 and R201 on a run of rows of a layer: the positions, or none. -/
def State.kvRun (s : State) (x : KvSeq) (layer start : Word) (n : Nat) : Option (List Nat) :=
  let g := s.geom x.geom
  if layer.toNat ≥ g.layers ∨ start.toNat ≥ x.len ∨ g.holds (start.toNat / 16) = false then none
  else
    let ps := g.run (min n (x.len + 1)) start.toNat
    if n > x.len ∨ ps.any (fun p => p ≥ x.len) then none else some ps

/-- Page of a sequence that holds a layer of a position. -/
def State.pageOf (s : State) (q : Nat) (g : KvGeom) (layer p : Nat) : Option KvPage :=
  s.kvPages.find? (fun x => x.seq == q && x.block == p / 16 && x.group == layer / g.perPage)

/-- Byte of a row in its page (R200). -/
def KvGeom.rowAt (g : KvGeom) (layer p : Nat) : Nat := ((layer % g.perPage) * 16 + p % 16) * g.rowLen

/-- The bytes of this module that a KV.PUT writes: space, offset and bytes of each row (R117, R200). -/
def State.kvPutRows (s : State) (ts : TileWord) (ra rb rc : Word) : List (Nat × Nat × Nat) :=
  match s.seq? ra.toNat with
  | none => []
  | some x =>
    let g := s.geom x.geom
    ((s.kvRun x rb rc (Tile.of ts).rows).getD []).filterMap (fun p => (s.pageOf ra.toNat g rb.toNat p).map (fun pg =>
      let a := s.pageAt pg.pool pg.index
      (a.1, a.2 + g.rowAt rb.toNat p, g.rowLen)))

end Sys2Proof.Machine
end

