-- ==== Sys2Proof/Machine/Packets.lean ====
section
/-! DEFINITION. BLP packets as the hub builds, holds and sends them: types and payloads (R275-R281), C0 tokens
(R235), windows (R282), the transaction table and its replies (R418). -/

namespace Sys2Proof.Machine

/-! ### Packet types (R276) -/

namespace PT
def put : Nat := 0x01
def putData : Nat := 0x02
def putSig : Nat := 0x03
def putSigData : Nat := 0x04
def putMc : Nat := 0x05
def putMcData : Nat := 0x06
def get : Nat := 0x07
def atom : Nat := 0x08
def tumAdd : Nat := 0x09
def tumSet : Nat := 0x0A
def tumRead : Nat := 0x0B
end PT

/-! Types that draw no reply by their kind, and the replies. -/

namespace PT
def kvUpdate : Nat := 0x0C
def notice : Nat := 0x0D
def collData : Nat := 0x0E
def collCtl : Nat := 0x0F
def ack : Nat := 0x10
def getResp : Nat := 0x11
def getRespData : Nat := 0x12
def atomResp : Nat := 0x13
def tumResp : Nat := 0x14
def mcMiss : Nat := 0x15

/-- Data types carry LEN BODY flits; every other type is one flit (R276). -/
def isData (t : Nat) : Bool := t == 0x02 || t == 0x04 || t == 0x06 || t == 0x0E || t == 0x12

/-- Reply types (R276). -/
def isReply (t : Nat) : Bool := 0x10 ≤ t && t ≤ 0x15

/-- Reserved types (R276). -/
def reserved (t : Nat) : Bool := t == 0 || t ≥ 0x16

/-- Types whose DST is a mask pair. -/
def multicast (t : Nat) : Bool := t == 0x05 || t == 0x06 || t == 0x0C
end PT

/-- A header with every field 0. -/
def blankPkt : Packet :=
  { typ := 0, cls := 0, dl := false, dt := false, hops := 0, dst := 0, src := 0, job := 0, len := 0, tag := 0,
    space := 0, offset := 0, count := 0, xt := false, payload := [], pcrc := 0, sigref := 0, sig := false, opid := 0,
    inc := 0, sigtum := 0, sigbytes := 0, mask := { inRack := 0, racks := 0 }, digest := 0, ccrc := 0 }

/-- A type number as the header carries it. -/
def ptype (t : Nat) : Fin 32 := Fin.ofNat 32 t

def pclass (c : Nat) : Fin 4 := Fin.ofNat 4 c

/-- Payload flits of a data packet and bytes of its last flit (R275). -/
def dataLen (n : Nat) : Nat × Nat := ((n + 63) / 64, n % 64)

/-- Payload bytes of a data packet: the last flit's COUNT, 0 meaning 64 (R275). -/
def dataBytes (k : Packet) : Nat := (k.len - 1) * 64 + (if k.count = 0 then 64 else k.count)

/-- The packed offset of a global offset (R275): SP holds the core in [37:32] and the byte in [25:0]. -/
def packOff (space off : Nat) : BitVec 40 :=
  if space = 2 then BitVec.ofNat 40 (spCore off * 2 ^ 32 + spByte off) else BitVec.ofNat 40 off

/-- The global offset of a packed offset. -/
def unpackOff (space : Nat) (o : BitVec 40) : Nat :=
  if space = 2 then fld o.toNat 32 6 * 2 ^ 42 + fld o.toNat 0 26 else o.toNat

/-- A control packet from this module (R277). -/
def State.ctl (s : State) (typ cls dst job space off : Nat) (payload : List Byte) : Packet :=
  { blankPkt with
    typ := ptype typ, cls := pclass cls, dst := dst, src := s.modNum, job := job, space := space,
    offset := packOff space off, count := payload.length, payload := payload }

/-- A data packet from this module: C0 data travels in C1 (R234, R278). -/
def State.dataPkt (s : State) (typ cls dst job space off : Nat) (payload : List Byte) : Packet :=
  let (l, c) := dataLen payload.length
  { blankPkt with
    typ := ptype typ, cls := pclass (if cls = 0 then 1 else cls), dst := dst, src := s.modNum, job := job,
    space := space, offset := packOff space off, len := l, count := c, payload := payload,
    pcrc := BitVec.ofNat 32 (crc32c payload) }

/-- A reply to a request (R279). -/
def State.replyTo (s : State) (p : Packet) (typ : Nat) (payload : List Byte) : Packet :=
  let b := if PT.isData typ then s.dataPkt typ p.cls.val p.src p.job 0 0 payload else s.ctl typ p.cls.val p.src p.job 0 0 payload
  { b with tag := p.tag }

/-- Payload of an ACK: status, and the bytes of window that it returns (R277, R282). -/
def ackPayload (status win : Nat) : List Byte := leBytes 4 status ++ leBytes 4 win

/-! ### Injection -/

/-- A packet enters the router from the hub. -/
def State.inject (s : State) (p : Packet) : State := { s with held := s.held ++ [{ pkt := p, arrived := none, buf := 0, due := 0, started := false }] }

/-- A packet delivered to the hub is taken from it. -/
def State.takeHub (s : State) (p : Packet) : State := { s with hubIn := s.hubIn.erase p }

/-- An ACK to a request. -/
def State.ackTo (s : State) (p : Packet) (status win : Nat) : State := s.inject (s.replyTo p PT.ack (ackPayload status win))

/-- Payload bytes that a request charges against its window (R282). -/
def chargeOf (p : Packet) : Nat :=
  if p.typ.val ≤ 0x04 then (if PT.isData p.typ.val then dataBytes p else p.count)
  else if 0x08 ≤ p.typ.val ∧ p.typ.val ≤ 0x0B then p.count
  else 0

/-- Requests that one reply answers (R276). -/
def isRequest (t : Nat) : Bool := 0x01 ≤ t && t ≤ 0x0B

/-- A request that goes no further is answered with its reply type and a status (R246, R288). -/
def State.answerStatus (s : State) (p : Packet) (st : Nat) : State :=
  let t := p.typ.val
  if !isRequest t then s
  else if t = PT.atom then s.inject (s.replyTo p PT.atomResp (leBytes 8 st ++ leBytes 8 0))
  else if t = PT.tumRead then s.inject (s.replyTo p PT.tumResp (leBytes 4 st ++ leBytes 4 0))
  else s.ackTo p st (chargeOf p)

/-! ### C0 tokens (R235) -/

/-- Tokens that a packet takes: a request two, any other one. -/
def tokenCost (p : Packet) : Nat :=
  if p.typ.val = PT.putMc ∨ p.typ.val = PT.kvUpdate ∨ p.typ.val = PT.notice ∨ p.typ.val = PT.collCtl then 1 else 2

/-- A packet of core `c` leaves the hub: in C0 by taking its tokens, or it is held. -/
def State.sendC0 (s : State) (c : Nat) (p : Packet) : State × Bool :=
  let n := tokenCost p
  let t := s.rd Reg.SCHED_C0_STAT_TOKENS
  if s.c0Held.isEmpty ∧ t ≥ n then ((s.wr Reg.SCHED_C0_STAT_TOKENS (t - n)).inject p, true)
  else ({ s with c0Held := s.c0Held ++ [(c, n, p)] }.bump Reg.SCHED_C0_STAT_HELD_TOTAL 1, false)

/-- Core number under which the hub itself asks for C0 tokens. -/
def hubCore : Nat := 48

/-- Send a packet that draws no reply, under the C0 allowance where it is in C0. -/
def State.sendFree (s : State) (c : Nat) (p : Packet) : State :=
  if p.cls.val = 0 then (s.sendC0 c p).1 else s.inject p

/-- The held packet served next: the first of each core, cores in turn after the one served last (R235). -/
def State.nextC0 (s : State) : Option (Nat × Nat × Packet) :=
  let key := fun (c : Nat) => (c + 64 - s.c0Last - 1) % 64
  s.c0Held.foldl (fun b x => match b with
    | none => some x
    | some y => if key x.1 < key y.1 then some x else b) none

/-- Held packets take tokens while there are enough. -/
def State.drainC0 : Nat → State → State
  | 0, s => s
  | n + 1, s =>
    match s.nextC0 with
    | some (c, k, p) =>
      let t := s.rd Reg.SCHED_C0_STAT_TOKENS
      if t ≥ k then
        State.drainC0 n { (s.wr Reg.SCHED_C0_STAT_TOKENS (t - k)).inject p with
          c0Held := s.c0Held.erase (c, k, p), c0Last := c,
          txns := s.txns.map (fun x => if x.held && x.pkt == p then { x with held := false, first := s.clock, last := s.clock, heard := s.clock } else x) }
      else s
    | none => s

/-! ### Transactions (R418, R282) -/

/-- Charged bytes toward a destination (R282). -/
def State.charged (s : State) (dst : Nat) : Nat := Tab.get s.winUse 0 dst

/-- A request is charged. -/
def State.winCharge (s : State) (dst n : Nat) : State := { s with winUse := Tab.set s.winUse 0 dst (s.charged dst + n) }

/-- Charged bytes are released. -/
def State.winRelease (s : State) (dst n : Nat) : State := { s with winUse := Tab.set s.winUse 0 dst (s.charged dst - n) }

/-- A free TAG, from the last one on (R418). -/
def State.freeTag (s : State) : Nat → Nat → Nat
  | 0, t => t % 32768
  | n + 1, t => if s.txns.any (fun x => x.tag == t % 32768) then s.freeTag n (t + 1) else t % 32768

/-- Requests that carry an OPID (R419). -/
def carriesOpid (p : Packet) : Bool := p.typ.val == 0x03 || p.typ.val == 0x08 || p.typ.val == 0x09 || p.typ.val == 0x0A || (p.typ.val == 0x04 && p.sig)

/-- The window lets a request go (R282), and at most 4,096 OPIDs toward a module are unresolved (R419). (DEDUCED, assumption 74.) -/
def State.windowOpen (s : State) (p : Packet) : Bool :=
  (chargeOf p == 0 || decide (s.charged p.dst + chargeOf p ≤ s.rd Reg.LK_WINDOW_WINDOW_KIB * 1024))
    && (!carriesOpid p || decide ((s.txns.filter (fun x => x.pkt.dst == p.dst && x.paid && !x.spent && carriesOpid x.pkt)).length < 4096))

/-- 4 ms, in which a copy of a packet may survive (R418). -/
def State.copyLife : Nat := State.msTicks 4

/-- Entries whose 4 ms are over are free again. -/
def State.purgeTxns (s : State) : State :=
  { s with txns := s.txns.filter (fun x => !(x.spent && decide (x.first + State.copyLife ≤ s.clock))) }

/-- Start a request: it takes a transaction-table entry and leaves, or is held by its window, by the table's
32,768 entries or for C0 tokens.  `source` is where its data came from in SP. -/
def State.requestFrom (s : State) (source : List (Nat × Nat)) (c id : Nat) (p : Packet) (dest : List (Nat × Nat)) (pre : Option Nat)
    (mc : List Nat) : State :=
  let s := s.purgeTxns
  let tag := s.freeTag 32768 s.nextTag
  let p := { p with tag := tag }
  let n := chargeOf p
  let open_ := s.windowOpen p && decide (s.txns.length < 32768)
  let x : Txn :=
    { tag := tag, core := c, id := id, pkt := p, dest := dest, charge := n, first := s.clock, last := s.clock,
      resent := false, pre := pre, held := true, paid := false, mcLeft := mc, heard := s.clock,
      source := source, spent := false }
  let s := { s with nextTag := (tag + 1) % 32768 }
  if !open_ then { s with txns := s.txns ++ [x] }
  else
    let s := s.winCharge p.dst n
    if p.cls.val = 0 then
      let r := s.sendC0 c p
      { r.1 with txns := r.1.txns ++ [{ x with held := !r.2, paid := true }] }
    else { s.inject p with txns := s.txns ++ [{ x with held := false, paid := true }] }

/-- Start a request whose payload holds no data of SP. -/
def State.request (s : State) (c id : Nat) (p : Packet) (dest : List (Nat × Nat)) (pre : Option Nat) (mc : List Nat) : State :=
  s.requestFrom [] c id p dest pre mc

/-- Requests that a window held back leave when it opens, in order. -/
def State.pumpWindow (s : State) : State :=
  s.txns.foldl (fun s x =>
    if !x.paid && s.windowOpen x.pkt then
      let s := s.winCharge x.pkt.dst x.charge
      let r := if x.pkt.cls.val = 0 then s.sendC0 x.core x.pkt else (s.inject x.pkt, true)
      { r.1 with txns := r.1.txns.map (fun y => if y.tag == x.tag then { y with held := !r.2, paid := true, first := s.clock, last := s.clock, heard := s.clock } else y) }
    else s) s

/-- Close a transaction, releasing some bytes of its charge (R282).  The entry of a packet that was sent again stays taken
for 4 ms after its first send (R418). -/
def State.closeTxnWin (s : State) (tag win : Nat) : State :=
  let s := match s.txns.find? (fun (x : Txn) => x.tag == tag && !x.spent && x.paid) with
    | some x => s.winRelease x.pkt.dst win
    | none => s
  let rest := (s.txns.filter (fun (x : Txn) => x.tag != tag || x.resent)).map (fun (x : Txn) => if x.tag == tag then { x with spent := true } else x)
  ({ s with txns := rest }.purgeTxns).pumpWindow

/-- Close a transaction, releasing its whole charge (R282). -/
def State.closeTxn (s : State) (tag : Nat) : State :=
  s.closeTxnWin tag (((s.txns.find? (fun (x : Txn) => x.tag == tag && !x.spent)).map Txn.charge).getD 0)

/-- The outstanding transaction that a reply answers, by its TAG (R279). -/
def State.txnOf (s : State) (p : Packet) : Option Txn := s.txns.find? (fun x => x.tag == p.tag && !x.held && !x.spent)

/-- A reply that matches no transaction is discarded with an S0 record (R279). -/
def State.strayReply (s : State) (p : Packet) : State :=
  s.raise { Fault_.blank 0 Status.ok 0x0305 with other := p.src, info0 := BitVec.ofNat 64 p.typ.val }

/-- A next operation identifier toward a module, counted from 1 (R419). -/
def State.nextOpid (s : State) (dst : Nat) : Word32 × State :=
  let n := Tab.get s.opids 0 dst + 1
  (BitVec.ofNat 32 n, { s with opids := Tab.set s.opids 0 dst (n % 2 ^ 32) })

/-- A PUT.SIG toward a destination that has not completed uses a SIGREF (R280): a packet of it is outstanding, or its
signal is still withheld. -/
def State.sigBusy (s : State) (dst ref : Nat) : Bool :=
  s.txns.any (fun x => x.pkt.dst == dst && x.pkt.sigref == ref && !x.spent)
    || s.cores.any (fun k => k.window.any (fun e => e.sigDue == some ref))

/-- The SIGREF after one; 0 is none. -/
def sigAfter (n : Nat) : Nat := if n ≥ 65535 then 1 else n + 1

/-- A SIGREF that no PUT.SIG in flight toward a destination uses, from the next one on (R280). -/
def State.freeSig (s : State) (dst : Nat) : Nat → Nat → Nat
  | 0, n => n
  | k + 1, n => if s.sigBusy dst n then s.freeSig dst k (sigAfter n) else n

/-- Take such a SIGREF. -/
def State.freshSig (s : State) (dst : Nat) : Nat × State :=
  let n := s.freeSig dst 65535 s.nextSig
  (n, { s with nextSig := sigAfter n })

/-- An operation that a module's OPID names has been applied: its status and old value stay in the row of the dedup
store, with the last 4,096 (R419). -/
def State.dedupNote (s : State) (src : Nat) (opid : Word32) (status : Nat) (old : Word) : State :=
  { s with dedup := s.dedup.map (fun (r : DRow) => if r.src == src then { r with ids := ((opid, status, old) :: r.ids).take 4096, last := s.clock } else r) }

/-- Held requests come back to the hub, which serves, refuses or holds them (R345, R362, R399). -/
def State.returnWaiting (s : State) (back : HeldReq → Bool) : State :=
  { s with hubIn := s.hubIn ++ (s.heldReqs.filter back).map HeldReq.pkt, heldReqs := s.heldReqs.filter (fun h => !back h) }

/-- Requests held for the domains or the leaf link of some cores come back. -/
def State.returnHeld (s : State) (cs : List Nat) : State :=
  s.returnWaiting (fun h => h.pkt.space == spSP && cs.contains (spCore (unpackOff h.pkt.space h.pkt.offset)))

/-! ### Masks (R95, R281) -/

/-- In-rack bit of a module: Y × 8 + X. -/
def inRackBit (m : Nat) : Nat := m % 64

/-- Rack bit of a module: W × 8 + Z. -/
def rackBit (m : Nat) : Nat := m / 64

/-- A mask pair names a module. -/
def maskNames (p : MaskPair) (m : Nat) : Bool := p.inRack.getLsbD (inRackBit m) && p.racks.getLsbD (rackBit m)

/-- A mask pair from 16 bytes (R281). -/
def maskOf (b : List Byte) : MaskPair :=
  { inRack := BitVec.ofNat 64 (leNat (b.take 8)), racks := BitVec.ofNat 64 (leNat ((b.drop 8).take 8)) }

/-- The 16 bytes of a mask pair. -/
def maskBytes (m : MaskPair) : List Byte := leBytes 8 m.inRack.toNat ++ leBytes 8 m.racks.toNat

/-- The modules that a mask pair names. -/
def maskMembers (p : MaskPair) : List Nat := (List.range 4096).filter (maskNames p)

end Sys2Proof.Machine
end

