-- ==== Sys2Proof/Machine/Sequencer.lean ====
section
/-! DEFINITION. The sequencer: registers, issue with its guard, dispatch wait and stalls (R46, R51-R55, R71-R74),
entries of the window and queues, run-ahead (R61-R64), and the conditions of fences and releases (R82, R87). -/

namespace Sys2Proof

open Machine (fld)

/-! ### Extension words (R72) -/

/-- Words of an instruction. -/
def Hdr.words (h : Hdr) : Nat := if h.ext.isSome then 2 else 1

/-- A signed immediate field of a queue-0 instruction, replaced by IMM64 when EXT is set. -/
def Hdr.immS {w : Nat} (h : Hdr) (imm : BitVec w) : Word := match h.ext with | some x => x | none => imm.signExtend 64

/-- An unsigned immediate field of a queue-0 instruction, replaced by IMM64 when EXT is set. -/
def Hdr.immU {w : Nat} (h : Hdr) (imm : BitVec w) : Nat := match h.ext with | some x => x.toNat | none => imm.toNat

/-- Completion signal field, 0xFF for none. -/
def Hdr.cs (h : Hdr) : Nat := match h.ext with | some x => fld x.toNat 56 8 | none => 0xFF

/-- Status slot as SP offset ÷ 8. -/
def Hdr.slot (h : Hdr) : Nat := match h.ext with | some x => fld x.toNat 32 24 | none => 0

def Hdr.slotEn (h : Hdr) : Bool := match h.ext with | some x => x.toNat.testBit 31 | none => false

/-- Signal increment, 0 clamped to 1. -/
def Hdr.inc (h : Hdr) : Nat := match h.ext with | some x => max (fld x.toNat 16 15) 1 | none => 1

/-- Use count of DISCARD_AFTER, 0 clamped to 1. -/
def Hdr.uses (h : Hdr) : Nat := match h.ext with | some x => max (fld x.toNat 0 16) 1 | none => 1

end Sys2Proof

namespace Sys2Proof.Machine

/-! ### Registers (R45) -/

/-- Scalar register: s0 reads 0. -/
def Core.sget (k : Core) (r : Nat) : Word := if r = 0 then 0 else Tab.get k.sreg 0 r

/-- Write a scalar register: writes to s0 are discarded. -/
def Core.sset (k : Core) (r : Nat) (v : Word) : Core := if r = 0 then k else { k with sreg := Tab.set k.sreg 0 r v }

/-- Predicate: p0 reads 1. -/
def Core.pget (k : Core) (p : Nat) : Bool := p == 0 || k.preg.getLsbD p

/-- Write a predicate: writes to p0 are discarded. -/
def Core.pset (k : Core) (p : Nat) (b : Bool) : Core :=
  if p = 0 then k
  else { k with preg := if b then k.preg ||| BitVec.twoPow 8 p else k.preg &&& ~~~ BitVec.twoPow 8 p }

/-- Tile descriptor register. -/
def Core.tget (k : Core) (t : Nat) : TileWord := Tab.get k.treg 0 t

def Core.tset (k : Core) (t : Nat) (v : TileWord) : Core := { k with treg := Tab.set k.treg 0 t v }

/-- An instruction executes when p[GP] XOR GN is 1 (R71). -/
def Core.guard (k : Core) (h : Hdr) : Bool := k.pget h.gp.val != h.gn

/-! ### Queues and window (R52-R54, R59) -/

/-- Queue values whose queue an entry occupies: a queue-8 instruction is in all four ME queues (R54). -/
def Entry.inQueue (e : Entry) (q : Nat) : Bool := e.q == q || (e.q == 8 && 1 ≤ q && q ≤ 4)

/-- Entries of an engine queue, in order (R52). -/
def Core.queued (k : Core) (q : Nat) : List Entry := k.window.filter (fun e => e.phase == .queued && e.inQueue q)

/-- Entries that a queue holds: those not dispatched, and a TUM.WAIT that holds its head (R52, R81). -/
def Core.queueFill (k : Core) (q : Nat) : Nat :=
  (k.window.filter (fun e => e.inQueue q && (e.phase == .queued || (e.phase == .dispatched && (match e.op with | .tumWait .. => true | _ => false))))).length

/-- Entries that a queue holds at most (R52). -/
def queueCap (q : Nat) : Nat := if q = 7 then 128 else 64

/-- The target queue is full; for queue 8, any of the four ME queues (R53). -/
def Core.queueFull (k : Core) (q : Nat) : Bool :=
  if q = 8 then [1, 2, 3, 4].any (fun i => decide (k.queueFill i ≥ 64)) else decide (k.queueFill q ≥ queueCap q)

/-- The window holds 512 unretired instructions (R53, R59). -/
def Core.windowFull (k : Core) : Bool := decide (k.window.length ≥ 512)

/-- The sequencer can issue: the core runs a task, has not met END, is not being pre-empted and does not
stall. -/
def Core.canIssue (k : Core) : Bool := k.state == 1 && !k.finished && !k.ending && !k.draining && k.stall.isNone

/-! ### Fetch (R51) -/

/-- The word at the instruction pointer. -/
def Core.fetched (k : Core) : Word := Tab.get k.ibuf 0 k.ip

/-- The extension word that the fetched word names. -/
def Core.fetchedExt (k : Core) : Option Word := if wordExt k.fetched then some (Tab.get k.ibuf 0 (k.ip + 1)) else none

/-- The instruction that the core fetches has these fields: every bit that its format uses agrees, and so does its
extension word; reserved bits are ignored (R51, R70, R72, R73). (DESIGN CHOICE, assumption 5.) -/
def Core.fetches (k : Core) (h : Hdr) (opc operands : Nat) : Bool :=
  usedBits k.fetched == usedBits (baseWord h opc operands) && k.fetchedExt == h.ext

/-- Entry by its number. -/
def Core.entry? (k : Core) (id : Nat) : Option Entry := k.window.find? (fun e => e.id == id)

def Core.modEntry (k : Core) (id : Nat) (f : Entry → Entry) : Core :=
  { k with window := k.window.map (fun e => if e.id == id then f e else e) }

def State.modEntry (s : State) (c id : Nat) (f : Entry → Entry) : State := s.modCore c (fun k => k.modEntry id f)

/-- Does the instruction write SP, HM, LM, CSR space or a tumbler? -/
def EInst.writes (i : EInst) : Bool :=
  match i with
  | .nop | .tumWait .. | .mmLds .. | .mm .. | .mmFill .. | .vld .. | .velem .. | .vcvt .. | .vred .. | .vfn .. | .vtload ..
  | .collPub .. => false
  | _ => true

/-- Does the instruction read or write SP, HM, LM, CSR space or a tumbler (R87)? -/
def EInst.touches (i : EInst) : Bool :=
  match i with
  | .nop | .mmFill .. | .velem .. | .vcvt .. | .vred .. | .vfn .. => false
  | _ => true

/-- Every write issued before entry `id` is visible at every scope: it has landed or its instruction has
completed (R82). (DEDUCED, assumption 76.) -/
def Core.released (k : Core) (id : Nat) : Bool :=
  k.window.all (fun e => !(decide (e.id < id) && e.op.writes) || (match e.phase with | .done _ => true | _ => false))

/-- Every instruction that a FENCE covers has completed (R87). (DEDUCED, assumption 76.) -/
def Core.fenceDone (k : Core) : Bool := k.window.all (fun e => !e.op.touches)

/-- One part of an instruction has ended with a status: the instruction completes once no part is left, with
the first status other than OK. -/
def Entry.partDone (e : Entry) (status : Nat) : Entry :=
  let bad := if e.bad = 0 then status else e.bad
  if e.left ≤ 1 then { e with left := 0, bad := bad, phase := .done bad } else { e with left := e.left - 1, bad := bad }

def State.partDone (s : State) (c id status : Nat) : State := s.modEntry c id (fun e => e.partDone status)

/-! ### Run-ahead (R61-R64) -/

/-- Run-ahead is enabled with a buffer depth. -/
def State.raDepth (s : State) (c : Nat) : Nat :=
  if s.rdb (Reg.CORE_RUNAHEAD_CTL_RA_ENABLE c) then min (s.rd (Reg.CORE_RUNAHEAD_CTL_RA_DEPTH c)) 32 else 0

/-- Two ranges of global addresses overlap. -/
def State.overlap (s : State) (a : Word) (n : Nat) (b : Word) (m : Nat) : Bool :=
  s.target a == s.target b && gSpace a == gSpace b && decide (gOff a < gOff b + m) && decide (gOff b < gOff a + n)

/-- A range of a space of this module overlaps a range of global addresses. -/
def State.meets (s : State) (space off n : Nat) (b : Word) (m : Nat) : Bool :=
  s.isHere b && gSpace b == space && decide (off < gOff b + m) && decide (gOff b < off + n)

/-- The send log of a core mirrors: its ring as latched at the task start has EN set (R432). -/
def State.slogOn (s : State) (c : Nat) : Bool := (Tab.get s.slogRing 0 c).getLsbD 48

/-- LM offset and bytes of a core's ring. -/
def State.slogBase (s : State) (c : Nat) : Nat := fld (Tab.get s.slogRing 0 c).toNat 0 32 * 65536
def State.slogSize (s : State) (c : Nat) : Nat := fld (Tab.get s.slogRing 0 c).toNat 32 16 * 65536

/-- Bytes of the log entry of a tile: a header of 64 bytes and the packed tile, padded to 64 (R432). -/
def slogLen (t : Tile) : Nat := (64 + t.packedLen + 63) / 64 * 64

/-- Bytes that a dispatched PUT or PUT.SIG will mirror. -/
def EInst.mirrors (i : EInst) : Nat :=
  match i with
  | .put td _ _ _ _ true => slogLen (Tile.of td)
  | .putSig td _ _ _ _ _ _ true => slogLen (Tile.of td)
  | _ => 0

/-- The mirror writes of a core in flight overlap a range: they go to the ring's next bytes, round its end. -/
def State.slogMeets (s : State) (c : Nat) (a : Word) (n : Nat) : Bool :=
  let due := (((s.core c).window.filter (fun e => e.phase == .dispatched)).map (fun e => e.op.mirrors)).sum
  let pos := (Tab.get s.slogs { pos := 0, entries := [] } c).pos
  let z := s.slogSize c
  s.slogOn c && (s.meets spLM (s.slogBase c + pos) (min due (z - pos)) a n || s.meets spLM (s.slogBase c) (pos + due - z) a n)

/-- An instruction of core c writes a far range that overlaps the n bytes at `a` (R63). -/
def State.writesTo (s : State) (c : Nat) (i : EInst) (a : Word) (n : Nat) : Bool :=
  match i with
  | .put td ra rb _ _ log => s.overlap ra (farSpan (Tile.of td) rb) a n || (log && s.slogMeets c a n)
  | .putSig td ra rb _ _ _ _ log => s.overlap ra (farSpan (Tile.of td) rb) a n || (log && s.slogMeets c a n)
  | .putMc td ra rb rc _ _ _ =>
    maskNames { inRack := rb, racks := rc } (s.target a) && s.overlap (gAddr (s.target a) (gSpace ra) (gOff ra)) (Tile.of td).packedLen a n
  | .atom ra _ _ _ _ _ w64 _ _ => s.overlap ra (if w64 then 8 else 4) a n
  | .kvPut ts ra rb rc => (s.kvPutRows ts ra rb rc).any (fun w => s.meets w.1 w.2.1 w.2.2 a n)
  | _ => false

/-- A write of this core to a range that overlaps the n bytes at `a` is in flight, whatever its engine (R63). -/
def State.writeInFlight (s : State) (c : Nat) (a : Word) (n : Nat) : Bool :=
  (s.core c).window.any (fun e => e.phase != .queued && s.writesTo c e.op a n)

/-- Reads of the run-ahead buffer that a write of the core overlaps become unusable (R63). -/
def State.markDirty (s : State) (c : Nat) (i : EInst) : State :=
  s.modCore c (fun k => { k with preRead := k.preRead.map (fun p =>
    if s.writesTo c i p.ra (farSpan (Tile.of p.td) p.rb) then { p with dirty := true } else p) })

/-- A GET of the scan that qualifies for pre-issue (R61). (DEDUCED, assumption 19.) -/
def State.raQualifies (s : State) (c : Nat) (w : Word) : Bool :=
  let k := s.core c
  let td := k.tget (fld w.toNat 32 5)
  let ra := k.sget (fld w.toNat 26 6)
  wordOpc w == 0x60 && wordQ w == 7 && wordDw w == 0xFF && s.linkOpen (c / 12) && (k.pget (fld w.toNat 37 3) != w.toNat.testBit 41)
    && decide (getBytes td ≤ 0x10000)
    && (gSpace ra ≤ 1 || (gSpace ra == 2 && !(s.isHere ra && spCore (gOff ra) == c)))

/-- Data bytes that the run-ahead buffer holds or awaits. -/
def Core.raBytes (k : Core) : Nat := (k.ahead.map (fun p => getBytes p.td)).sum

/-- TE descriptor slots in use: dispatched TE entries and pre-issued reads (R59, R62). -/
def Core.teInFlight (k : Core) : Nat :=
  (k.window.filter (fun e => e.q == 7 && e.phase != .queued && (match e.phase with | .done _ => false | _ => true))).length + k.ahead.length

/-- Pre-issue one GET: a read of this module's memory, or the request packets of a read of another module's; an
address that R88 refuses or a padlocked module gives the read a status other than OK at once (R61, R64).
(DEDUCED, assumption 19; DEDUCED, assumption 61.) -/
def State.preIssue (s : State) (c ip : Nat) (td : TileWord) (ra rb : Word) (cls hint uses : Nat) : State :=
  let t := Tile.of td
  let n := farSpan t rb
  let here := s.isHere ra
  let bad := if !(s.addrOk ra n false) ∨ t.check.isSome then Status.addrRange else if !here ∧ s.padlocked (gMod ra) then Status.padlocked else 0
  let chunks := if here ∨ bad ≠ 0 then [] else farPackets t (gOff ra) rb
  let p : PreRead :=
    { pid := s.nextPre, ip := ip, td := td, ra := ra, rb := rb, hint := hint, cls := cls, uses := uses, left := chunks.length,
      bad := 0, parts := [], data := if bad = 0 then none else some bad, dirty := s.writeInFlight c ra n, stale := false, bound := none }
  let s := { s with nextPre := s.nextPre + 1 }.modCore c (fun k => { k with preRead := k.preRead ++ [p] })
  chunks.foldl (fun s x => s.request c 0
    (s.ctl PT.get cls (gMod ra) (s.coreJob c) (gSpace ra) x.1 (leBytes 2 x.2.1)) x.2.2 (some p.pid) []) s

/-- Scan at most `n` words from `ip` and pre-issue the GETs that qualify and are not pre-issued already, until a limit of
R62 holds.  A GET whose base word is the last of the 64 qualifies, its extension word lying past them. (DESIGN CHOICE,
assumption 5; DEDUCED, assumption 19.) -/
def State.scan (s : State) (c : Nat) : Nat → Nat → State
  | 0, _ => s
  | n + 1, ip =>
    let k := s.core c
    let w := Tab.get k.ibuf 0 ip
    if ip > 32767 || scanStops w || decide (k.ahead.length ≥ s.raDepth c) || decide (k.raBytes ≥ 0x100000) || decide (256 - k.teInFlight < 64) then s
    else
      let x := Tab.get k.ibuf 0 (ip + 1)
      let hasExt := wordExt w
      let noSignal := !hasExt || fld x.toNat 56 8 == 0xFF
      let s := if s.raQualifies c w && noSignal && !(k.ahead.any (fun p => p.ip == ip)) then
        let td := k.tget (fld w.toNat 32 5)
        let ra := k.sget (fld w.toNat 26 6)
        let rb := k.sget (fld w.toNat 20 6)
        let uses := if hasExt then max (fld x.toNat 0 16) 1 else 1
        s.preIssue c ip td ra rb (fld w.toNat 12 2) (fld w.toNat 10 2) uses
      else s
      if hasExt then (match n with | 0 => s | m + 1 => s.scan c m (ip + 2)) else s.scan c n (ip + 1)

/-- The sequencer stalls, and runs ahead from the words behind the stalled instruction where the stall is on a tumbler or
a FENCE (R53, R61). -/
def State.stallOn (s : State) (c : Nat) (st : Stall) (words : Nat) (ahead : Bool) : State :=
  let s := s.modCore c (fun k => { k with stall := some st })
  if ahead then s.scan c 64 ((s.core c).ip + words) else s

/-- The run-ahead reads that an acquire or a FENCE of a scope covers go stale (R63): this module's memory
under MODULE and SYSTEM, another module's under SYSTEM. -/
def State.staleReads (s : State) (c scope : Nat) : State :=
  s.modCore c (fun k => { k with preRead := k.preRead.map (fun p =>
    if scope = 3 ∨ (scope = 2 ∧ s.isHere p.ra) then { p with stale := true } else p) })

/-! ### Issue -/

/-- Advance the instruction pointer past an instruction; an advance past word 32,767 completes the task on
that core with ADDR_RANGE (R51). -/
def State.advance (s : State) (c : Nat) (words : Nat) : State :=
  let ip := (s.core c).ip
  if ip + words > 32767 then s.coreFatal c { status := Status.addrRange, cause := 0x0102, unit := 0, ip := ip, addr := 0, info := 0 }
  else s.modCore c (fun k => { k with ip := ip + words, dwTaken := false, stall := none })

/-- The fatal status of a queue-0 instruction, at its IP. -/
def State.seqFatal (s : State) (c status cause : Nat) (info : Word) : State :=
  s.coreFatal c { status := status, cause := cause, unit := 0, ip := (s.core c).ip, addr := 0, info := info }

/-- Issue of an instruction (R51-R55, R71, R74): nothing while the sequencer cannot issue; an extension word past the
buffer and an undefined encoding at the instruction pointer complete the task with ADDR_RANGE; an instruction that is
not the one fetched does not issue; a full window stalls; a false guard retires the instruction; a queue-0 dispatch wait
is tested and consumed; then `k` does the rest. (DESIGN CHOICE, assumption 5; DEDUCED, assumption 69.) -/
def State.issue (s : State) (c : Nat) (h : Hdr) (opc operands : Nat) (k : State → State) : State :=
  let core := s.core c
  let w := core.fetched
  if s.failed || !core.canIssue then s
  else if wordExt w && decide (core.ip + 1 > 32767) then s.seqFatal c Status.addrRange 0x0102 0
  else if undefinedWord w then
    s.coreFatal c { status := Status.addrRange, cause := 0x0101, unit := wordUnit w, ip := core.ip, addr := 0, info := w }
  else if !core.fetches h opc operands then s
  else if core.windowFull then s.stallOn c .windowFull h.words false
  else if !core.guard h then s.advance c h.words
  else if h.q.val = 0 ∧ h.dw.val ≠ 0xFF ∧ core.dwTaken = false then
    if (core.ltGet h.dw.val).toNat ≥ 1 then k (s.modCore c (fun k => k.ltTake h.dw.val 1))
    else s.stallOn c (.dispatchWait h.dw.val) h.words (!blindStall w)
  else k s

/-- A queue-0 instruction that changes only the core's registers or SP and goes on to the next word. -/
def State.issueCore (s : State) (c : Nat) (h : Hdr) (opc operands : Nat) (f : Core → Core) : State :=
  s.issue c h opc operands (fun s => (s.modCore c f).advance c h.words)

/-- Issue of an engine instruction: a full queue stalls; otherwise the operand values are captured and the
entry joins its queue and the window (R46, R52, R53). -/
def State.enqueue (s : State) (c : Nat) (h : Hdr) (op : EInst) : State :=
  let k := s.core c
  if k.queueFull h.q.val then s.stallOn c (.queueFull h.q.val) h.words false
  else
    let e : Entry :=
      { id := k.nextId, ip := k.ip, q := h.q.val, dw := h.dw.val, cs := h.cs, slotEn := h.slotEn, slot := h.slot,
        inc := h.inc, uses := h.uses, sat := h.sat, word := k.fetched, op := op, phase := .queued, left := 0, bad := 0,
        cause := 0x0102, addr := 0, info := 0, sent := false, missed := [], time := s.rackTime, sigDue := none, late := false,
        landed := [] }
    (s.modCore c (fun k => { k with window := k.window ++ [e], nextId := k.nextId + 1 })).advance c h.words

/-- Issue of an instruction for an engine queue, its operands captured from the core (R46). -/
def State.issueEngine (s : State) (c : Nat) (h : Hdr) (opc operands : Nat) (mk : Core → EInst) : State :=
  s.issue c h opc operands (fun s => s.enqueue c h (mk (s.core c)))

/-! ### Running an engine instruction -/

/-- The entry that a run command names: it has been dispatched and, in an engine other than the TE, no
earlier instruction of the same queue is still to run (R170). -/
def Core.runnable (k : Core) (id : Nat) : Option Entry :=
  match k.entry? id with
  | some e =>
    if e.phase = .dispatched ∧ (e.q = 7 ∨ k.window.all (fun x => !(decide (x.id < id) && (x.phase == .dispatched) && (x.inQueue e.q || e.inQueue x.q)))) then some e
    else none
  | none => none

/-- The array of an ME queue is disabled; for queue 8, every array of the core (R141). -/
def Core.noArray (k : Core) (q : Nat) : Bool :=
  if q = 8 then k.arrays == 0 else decide (1 ≤ q) && decide (q ≤ 4) && !(k.arrays.getLsbD (q - 1))

/-- An instruction completes with a status and is about to retire (R57, R59). -/
def State.finish (s : State) (c id status : Nat) : State := s.modEntry c id (fun e => { e with phase := .done status })

/-- Completion with ADDR_RANGE. -/
def State.finishRange (s : State) (c id : Nat) : State := s.finish c id Status.addrRange

/-- The packets of an instruction are under way. -/
def State.await (s : State) (c id n : Nat) (sent : Bool) : State :=
  s.modEntry c id (fun e => { e with phase := .waiting, left := n, sent := e.sent || sent })

/-- A global address lies outside the leaf of core c: in another space or module than the SP and the local tumblers of its
own leaf. -/
def State.outside (s : State) (c : Nat) (a : Word) : Bool :=
  !(s.isHere a && (match gSpace a with
    | 2 => spCore (gOff a) / 12 == c / 12
    | 4 => (match tumOfOff (gOff a) with | some (.inr (k, _)) => k / 12 == c / 12 | _ => false)
    | _ => false))

/-- The instruction sends a packet over the leaf link of core c (R340). (DESIGN CHOICE, assumption 83.) -/
def State.crosses (s : State) (c : Nat) (i : EInst) : Bool :=
  match i with
  | .get _ ra .. => s.outside c ra
  | .put _ ra .. => s.outside c ra
  | .putSig _ ra .. => s.outside c ra
  | .putMc .. => true
  | .atom ra .. => s.outside c ra
  | .tumAddG a .. => s.outside c a
  | .tumSetG a .. => s.outside c a
  | .tumReadG a .. => s.outside c a
  | .kvNew .. | .kvFree .. | .kvExt .. | .kvPut .. | .kvGet .. | .kvDetent .. | .kvCommit .. | .kvRollback .. => true
  | .collOpen .. | .collPub .. => true
  | _ => false

/-- Run a dispatched instruction of core c over its leaf link where it needs it: it waits while the link takes no packet,
and crosses once it has started (R340, R348). -/
def State.overLink (s : State) (c : Nat) (e : Entry) (f : State → Entry → State) : State :=
  if !s.crosses c e.op then f s e
  else if !s.linkOpen (c / 12) then s
  else
    let s' := f s e
    match (s'.core c).entry? e.id with
    | some x => if x.phase = .dispatched then s' else s'.crossLink (c / 12)
    | none => s'.crossLink (c / 12)

/-- Run a dispatched instruction of core c: `f` gives the state after its effect.  A SLOT past SP, and the queue of a
disabled array, complete it with ADDR_RANGE (R97, R141). (DESIGN CHOICE, assumption 7.) -/
def State.runEntry (s : State) (c id : Nat) (us : List Upset) (f : State → Entry → State) : State :=
  match (s.core c).runnable id with
  | some e =>
    if s.failed then s
    else if (e.slotEn && decide (e.slot > 0x4FFFFF)) || (e.q != 8 && (s.core c).noArray e.q) then s.finishRange c id
    else (s.sramUpsets us).overLink c e f
  | none => s

/-- An instruction completes with a status whose record has a cause, an address and a detail (R413). -/
def State.finishBad (s : State) (c id status cause : Nat) (addr info : Word) : State :=
  s.modEntry c id (fun e => { e with phase := .done status, cause := cause, addr := addr, info := info })

/-- Completion of an undefined encoding that R74 detects at dispatch. (DEDUCED, assumption 69.) -/
def State.finishUndef (s : State) (c id : Nat) (e : Entry) : State := s.finishBad c id Status.addrRange 0x0101 0 e.word

/-- Completion with ECC_UNCORRECTED: the record names the space and the offset (R413, R422). -/
def State.finishEcc (s : State) (c id space off : Nat) : State :=
  s.finishBad c id Status.eccUncorrected 0x0202 (BitVec.ofNat 64 off) (BitVec.ofNat 64 space)

end Sys2Proof.Machine
end

