-- ==== Sys2Proof/Machine/Engines.lean ====
section
/-! DEFINITION. Engines: dispatch with its wait and interlocks (R54, R56, R59, R82, R105), completion, status
records and completion signals (R57, R97, R98, R123), the run-ahead buffer's returns (R63), current fillers
(R135-R138) and array self-tests (R140). -/

namespace Sys2Proof.Machine

/-! ### Dispatch -/

/-- An entry that has been dispatched and whose effect is still to come. -/
def Entry.active (e : Entry) : Bool := e.phase == .dispatched || e.phase == .waiting

/-- Two entries share an engine. -/
def Entry.shares (a b : Entry) : Bool :=
  a.q == b.q || (a.q == 8 && 1 ≤ b.q && b.q ≤ 4) || (b.q == 8 && 1 ≤ a.q && a.q ≤ 4)

/-- Vector registers that an instruction reads: VA and VB, VB not where a scalar register supplies b, and VC of
VFMA (R110, R111). -/
def EInst.vReads (i : EInst) : List Nat :=
  match i with
  | .vst vs .. => [vs]
  | .velem f _ va vb vc rs _ _ => va :: ((if rs.isSome then [] else [vb]) ++ (if f = 3 then [vc] else []))
  | .vcvt _ va .. => [va]
  | .vred _ va .. => [va]
  | .vfn _ va .. => [va]
  | _ => []

/-- The vector register that an instruction writes. -/
def EInst.vWrites (i : EInst) : Option Nat :=
  match i with
  | .vld vd .. => some vd
  | .velem _ vd .. => some vd
  | .vcvt vd .. => some vd
  | .vred vd .. => some vd
  | .vfn vd .. => some vd
  | _ => none

/-- The unit of the VE that an instruction holds until it completes: 1 the row unit, 2 the sampling unit (R145). -/
def EInst.vUnit (i : EInst) : Nat :=
  match i with
  | .vrow .. => 1
  | .sampSlice .. => 2
  | .sampMerge .. => 2
  | .sampAccept .. => 2
  | _ => 0

/-- An earlier VE instruction that has not completed lets a later one dispatch: it writes none of its registers and
holds no unit that it needs (R144, R145). -/
def EInst.veClear (x i : EInst) : Bool :=
  (match x.vWrites with | some r => !(i.vReads.contains r) && i.vWrites != some r | none => true)
    && (i.vUnit == 0 || i.vUnit != x.vUnit)

/-- The interlocks of R105, R144 and R145 and the holds of R81 and R82 on an entry at its queue's head. -/
def Core.interlock (k : Core) (e : Entry) : Bool :=
  let same := k.window.filter (fun x => decide (x.id < e.id) && x.active && x.shares e)
  same.all (fun x => (match x.op with | .tumWait .. => false | _ => true) && x.op.veClear e.op)
    && (match e.op with
      | .tumAdd _ _ scope => scope == 0 || k.released e.id
      | .tumAddG _ _ scope _ => scope == 0 || k.released e.id
      | .atom _ _ _ _ scope _ _ _ _ => scope == 0 || k.released e.id
      | .mmLds _ _ _ _ slot _ =>
        same.all (fun x => match x.op with | .mm _ _ sl _ => sl != slot | _ => true)
          && k.window.all (fun x => !x.active || (match x.op with | .mmLds .. => false | _ => true))
      | .mm _ _ slot _ => same.all (fun x => match x.op with | .mmLds _ _ _ _ sl _ => sl != slot | .mmDrain .. => false | _ => true)
      | .mmDrain .. => same.all (fun x => match x.op with | .mm .. => false | _ => true)
      | _ => true)

/-- The entry at the head of a queue that can dispatch as far as its interlocks go; a queue-8 entry must be at
the head of all four ME queues (R54). -/
def Core.headOf (k : Core) (q : Nat) : Option Entry :=
  let h := if q = 8 then
      match k.queued 1 with
      | e :: _ => if e.q = 8 ∧ [2, 3, 4].all (fun i => (k.queued i).head? == some e) then some e else none
      | [] => none
    else match k.queued q with
      | e :: _ => if e.q = q then some e else none
      | [] => none
  match h with
  | some e => if k.interlock e && (q != 7 || decide (k.teInFlight < 256)) then some e else none
  | none => none

/-- The waits on local tumbler n in the order of R83, the sequencer first and then the queues by increasing value: rank,
the count that each needs, and what it takes. -/
def Core.waitsOn (k : Core) (n : Nat) : List (Nat × Nat × Nat) :=
  (match k.stall with
    | some (.dispatchWait m) => if m = n then [(0, 1, 1)] else []
    | some (.tum m need _ consume _) => if m = n then [(0, need, if consume then need else 0)] else []
    | _ => [])
  ++ ((List.range 9).drop 1).flatMap (fun q =>
    (k.window.filter (fun e => e.q == q && e.phase == .dispatched)).filterMap (fun e => match e.op with
      | .tumWait m need _ consume => if m = n then some (q, need, if consume then need else 0) else none
      | _ => none)
    ++ (match k.headOf q with | some e => if e.dw = n then [(q, 1, 1)] else [] | none => []))

/-- The count that is left for a wait of queue value q: each wait that comes before it and is satisfied takes its own
first (R56, R83). -/
def Core.countFor (k : Core) (n q : Nat) : Nat :=
  ((k.waitsOn n).filter (fun w => decide (w.1 < q))).foldl (fun v w => if w.2.1 ≤ v then v - w.2.2 else v) (k.ltGet n).toNat

/-- A dispatch wait on a tumbler is satisfied for the head of queue q (R56). -/
def Core.dwSatisfied (k : Core) (q dw : Nat) : Bool := dw == 0xFF || decide (1 ≤ k.countFor dw q)

/-- Arrays that an ME entry uses: its own, or every enabled one for queue 8 (R141). -/
def Core.arraysOf (k : Core) (q : Nat) : List Nat :=
  if q = 8 then (List.range 4).filter (fun i => k.arrays.getLsbD i) else [q - 1]

/-- The filler of an array. -/
def Core.fillerOf (k : Core) (i : Nat) : Filler := k.filler.getD i Filler.reset

def Core.modFiller (k : Core) (i : Nat) (f : Filler → Filler) : Core := { k with filler := k.filler.setIfInBounds i (f (k.fillerOf i)) }

/-- A check failure of an array: its bit and count, and the self-test that it owes (R139, R140, R142). -/
def State.checkFail (s : State) (c i : Nat) : State :=
  let l := c / 12
  let s := s.wr (Reg.LEAF_ARRAY_FAIL_FAIL l) (s.rd (Reg.LEAF_ARRAY_FAIL_FAIL l) ||| 2 ^ (4 * (c % 12) + i))
  let s := s.bump (Reg.LEAF_ARRAY_CHECK_CHECK_ERRS l) 1
  s.modCore c (fun k => { k with owed := k.owed ||| BitVec.twoPow 4 i, fails := k.fails.setIfInBounds i ((s.clock :: k.fails.getD i []).take 2) })

/-- The residue checks that fail during a command, by array. (DEDUCED, assumption 31.) -/
def residues (us : List Upset) (arrays : List Nat) : List Nat :=
  arrays.filter (fun i => us.any (fun u => match u with | .arrayResidue me => me.val == i | _ => false))

/-- A residue check of the filler fails: the array's bit, an S0 record, no instruction (R139). (DEDUCED, assumption 31.) -/
def State.fillerResidue (s : State) (c i : Nat) : State :=
  (s.checkFail c i).raise { Fault_.blank 0 Status.ok 0x0103 with core := c, unit := i + 1, info0 := BitVec.ofNat 64 i }

/-- Cycles of a core's clock in an interval. (DESIGN CHOICE, assumption 23.) -/
def State.cyclesIn (s : State) (c ticks : Nat) : Nat := ticks * s.rd (Reg.CLK_CORE_MHZ c) * 4 / 5000

/-- A running filler of an array ends: the check failures of its chunks are reported, and its cycles, at most FILL_MAX,
are counted (R139, R142). (DESIGN CHOICE, assumption 23.) -/
def State.endFiller (s : State) (c i : Nat) (us : List Upset) : State :=
  let k := s.core c
  let f := k.fillerOf i
  if f.running then
    let s := (residues us [i]).foldl (fun s i => s.fillerResidue c i) s
    (s.bumpK (Reg.LEAF_FILL_STAT_FILL_KCYCLES (c / 12)) (min (s.cyclesIn c (s.clock - f.since)) (k.fillMax.getD i 0))).modCore c
      (fun k => k.modFiller i (fun f => { f with running := false }))
  else s

/-- Every filler of a core ends (R137). -/
def State.endFillers (s : State) (c : Nat) (us : List Upset) : State := (List.range 4).foldl (fun s i => s.endFiller c i us) s

/-- An MM that becomes ready ends the filler of its arrays; a load into the slot that a filler uses moves the
filler to the other slot when that has been loaded in the task, and else ends it (R136, R137). -/
def State.fillerAtDispatch (s : State) (c : Nat) (e : Entry) (us : List Upset) : State :=
  match e.op with
  | .mm .. => ((s.core c).arraysOf e.q).foldl (fun s i => s.endFiller c i us) s
  | .mmLds _ _ _ _ slot _ => ((s.core c).arraysOf e.q).foldl (fun s i =>
      let k := s.core c
      let f := k.fillerOf i
      if f.running ∧ f.slot = slot then
        if (k.slots.getD (2 * i + (1 - slot)) Slot.reset).loaded then s.modCore c (fun k => k.modFiller i (fun f => { f with slot := 1 - slot }))
        else s.endFiller c i us
      else s) s
  | _ => s

/-- DISPATCH: the entry at the head of a queue starts once its dispatch wait and interlocks are satisfied; the
wait consumes 1 (R56). (DESIGN CHOICE, assumption 4.) -/
def execDispatch (c : CoreId) (x : Struck (Fin 9)) (s : State) : Res :=
  let q := x.arg
  let k := s.core c.val
  .next (if s.failed || k.state != 1 || k.draining || q.val = 0 then s
    else match k.headOf q.val with
    | none => s
    | some e =>
      if k.dwSatisfied q.val e.dw then
        ((s.fillerAtDispatch c.val e x.upsets).modCore c.val (fun k =>
          (if e.dw = 0xFF then k else k.ltTake e.dw 1).modEntry e.id (fun x => { x with phase := .dispatched }))).markDirty c.val e.op
      else s)

/-! ### Completion -/

/-- Statuses that are task-fatal for an instruction (R98, R123). -/
def fatalStatus (op : EInst) (st : Nat) : Bool :=
  st == Status.addrRange || st == Status.eccUncorrected || st == Status.ownerGone || st == Status.collMismatch
    || ((st == Status.tumUnderflow || st == Status.tumOverflow) && (match op with | .putSig .. => false | _ => true))

/-- The status record: status in [7:0], instruction pointer at issue in [22:8] (R97). (DEDUCED, assumption 24.) -/
def statusRecord (st ip : Nat) : List Byte := leBytes 8 (st + ip % 2 ^ 15 * 2 ^ 8)

/-- The completion signal adds 1 to its tumbler; past 2^32 − 1 it raises TUM_OVERFLOW (R57). -/
def State.signal (s : State) (c : Nat) (e : Entry) : State :=
  if e.cs = 0xFF then s
  else
    let (v, st) := tumAdd ((s.core c).ltGet e.cs) 1
    let s := s.modCore c (fun k => k.ltSet e.cs v)
    if st = 0 then s else s.coreFatal c { status := st, cause := 0x0102, unit := if e.q = 8 then 1 else e.q, ip := e.ip, addr := 0, info := 0 }

/-- An MM has completed on an array and no MM is ready there: the filler starts (R135, R137). (DESIGN CHOICE, assumption 23.) -/
def State.startFiller (s : State) (c : Nat) (e : Entry) : State :=
  match e.op with
  | .mm .. => ((s.core c).arraysOf e.q).foldl (fun s i =>
      let k := s.core c
      let ready := k.window.any (fun x => x.active && x.inQueue (i + 1) && (match x.op with | .mm .. => true | _ => false))
      if k.fillMax.getD i 0 ≠ 0 ∧ (k.fillerOf i).streamed ∧ k.arrays.getLsbD i ∧ k.ending = false ∧ k.state = 1 ∧ ready = false
      then s.modCore c (fun k => k.modFiller i (fun f => { f with running := true, since := s.clock })) else s) s
  | _ => s

/-- A copy of a packet that the instruction sent again may still land (R418). (DEDUCED, assumption 61.) -/
def State.lateCopy (s : State) (c id : Nat) : Bool :=
  s.txns.any (fun x => x.spent && x.core == c && x.id == id && decide (s.clock < x.first + State.copyLife))

/-- INSTRUCTION_COMPLETE: a completed instruction retires.  A status that is not task-fatal writes the status
record and then sends the completion signal; a task-fatal one stops the core; TAINTED is job-fatal (R57, R59, R60,
R97, R98, R123). (DEDUCED, assumption 20; DEDUCED, assumption 24.) -/
def execInstructionComplete (c : CoreId) (id : Nat) (s : State) : Res :=
  let k := s.core c.val
  .next (match k.entry? id with
    | none => s
    | some e =>
      match (if e.late then (if s.lateCopy c.val id then none else some e.bad) else match e.phase with | .done st => some st | _ => none) with
      | some st =>
        let s := s.modCore c.val (fun k => { k with window := k.window.filter (fun x => x.id != id) })
        let s := match e.op with | .atom _ _ _ _ scope _ _ _ _ => if st = 0 then s.staleReads c.val scope else s | _ => s
        let unit := if e.cause = 0x0103 then e.info.toNat + 1 else if e.q = 8 then 1 else e.q
        if fatalStatus e.op st then
          s.coreFatal c.val { status := st, cause := e.cause, unit := unit, ip := e.ip, addr := e.addr, info := e.info }
        else if st = Status.tainted then
          (s.lastStatus c.val st).raise { Fault_.blank 4 st 0x0802 with core := c.val, unit := unit, task := k.task, job := s.coreJob c.val, ip := e.ip, info0 := e.info }
        else
          let s := s.nonFatal c.val st
          let s := if e.slotEn then s.spWrite c.val (e.slot * 8) (statusRecord st e.ip) else s
          (s.startFiller c.val e).signal c.val e
      | none => s)

/-! ### Memory of this module, as a transfer reads and writes it -/

/-- Read bytes of LM, HM or a scratchpad of this module. -/
def State.readSpace (s : State) (us : List Upset) (space off n hint uses : Nat) : List Byte × Bad × State :=
  match space with
  | 0 => s.lmRead us hint uses off n
  | 1 => let r := s.hmRead off n; (r.1, r.2, s)
  | _ => let r := (s.core (spCore off)).spRead (spByte off) n; (r.1, r.2, s)

/-- Write bytes of LM, HM or a scratchpad of this module. -/
def State.writeSpace (s : State) (us : List Upset) (space off hint uses : Nat) (bs : List Byte) : Bad × State :=
  match space with
  | 0 => s.lmWrite us hint uses off bs
  | 1 => (.none, s.hmStore off bs)
  | _ => (.none, s.spWrite (spCore off) (spByte off) bs)

/-! ### Rows of a transfer (R48, R89) -/

/-- Read far pieces of this module's memory, in order, with the first bad word met; a line of LM is read once (R162). -/
def State.readPieces (s : State) (us : List Upset) (space off hint uses : Nat) (ps : List (Nat × Nat × Nat)) : List (Nat × List Byte) × Bad × State :=
  if space = spLM then
    let (ds, b, s) := s.lmReadAll us hint uses (ps.map (fun p => (off + p.1, p.2.2)))
    (List.zipWith (fun p d => (p.2.1, d)) ps ds, b, s)
  else ps.foldl (fun r p =>
    let (bs, b, s) := r.2.2.readSpace us space (off + p.1) p.2.2 hint uses
    (r.1 ++ [(p.2.1, bs)], r.2.1.or b, s)) ([], .none, s)

/-- Land pieces in a core's SP. -/
def State.landPieces (s : State) (c : Nat) (ds : List (Nat × List Byte)) : State := ds.foldl (fun s d => s.spWrite c d.1 d.2) s

/-! ### Returns of the run-ahead buffer (R63, R64) -/

/-- A pre-issued read has returned with a status: it waits in the buffer, or, where its instruction has issued and
kept it, that instruction completes with it (R63). -/
def State.preReturn (s : State) (c : Nat) (p : PreRead) (status : Nat) : State :=
  match p.bound with
  | some id =>
    let s := s.modCore c (fun k => { k with preRead := k.preRead.filter (fun x => x.pid != p.pid) })
    (if status = 0 then s.landPieces c p.parts else s).finish c id status
  | none => s.modCore c (fun k => { k with preRead := k.preRead.map (fun x => if x.pid == p.pid then { p with data := some status } else x) })

/-- RUN_AHEAD_READ_RETURN: a pre-issued read of this module's memory returns (R63). -/
def execRunAheadReadReturn (c : CoreId) (ip : Nat) (u : List Upset) (s : State) : Res :=
  .next (match (s.core c.val).preRead.find? (fun p => p.ip == ip && p.data.isNone && s.isHere p.ra) with
    | none => s
    | some p =>
      if !s.linkOpen (c.val / 12) || s.memWaits (gSpace p.ra) (gOff p.ra) (farSpan (Tile.of p.td) p.rb) then s
      else
      let s := (s.sramUpsets u).crossLink (c.val / 12)
      let (ds, b, s) := s.readPieces u (gSpace p.ra) (gOff p.ra) p.hint p.uses (farPieces (Tile.of p.td) p.rb)
      s.preReturn c.val { p with parts := ds } (if b.isBad then Status.eccUncorrected else 0))

/-! ### Fillers and self-tests -/

/-- FILLER_RAMP_DOWN: after FILL_MAX cycles without an MM the filler's duty falls and the array is clock-gated
(R136). -/
def execFillerRampDown (c : CoreId) (me : Fin 4) (u : List Upset) (s : State) : Res := .next (s.endFiller c.val me.val u)

/-- An array is disabled: its bit, the S0 record that flags the module, and the flash record (R140). -/
def State.disableArray (s : State) (c i : Nat) : State :=
  let s := s.modCore c (fun k => { k with arrays := k.arrays &&& ~~~ BitVec.twoPow 4 i })
  let s := { s with flash := { s.flash with arrays := if s.flash.arrays.contains (c, i) then s.flash.arrays else s.flash.arrays ++ [(c, i)] } }
  s.raise { Fault_.blank 0 Status.ok 0x0104 with core := c, unit := i + 1, info0 := BitVec.ofNat 64 i, replace := true }

/-- LEAF_ARRAY_FAIL.REPLACE: an array of the leaf is disabled, or the leaf has been withdrawn (R140, R142, R345). -/
def State.leafReplace (s : State) (l : Nat) : Bool :=
  s.rdb (Reg.LEAF_ARRAY_FAIL_REPLACE l) || (List.range 12).any (fun j => (s.core (12 * l + j)).arrays != 15#4)

/-- ARRAY_SELF_TEST: owed after a check failure, before the core's next task.  An array that fails it, or that
had an earlier check failure within 24 h, is disabled (R140). -/
def execArraySelfTest (c : CoreId) (me : Fin 4) (pass : Bool) (s : State) : Res :=
  let k := s.core c.val
  .next (if k.task = 0 ∧ k.owed.getLsbD me.val ∧ k.arrays.getLsbD me.val then
      let bit := 4 * (c.val % 12) + me.val
      let l := c.val / 12
      let s := s.bump (Reg.LEAF_ARRAY_CHECK_SELFTESTS l) 1
      let s := if pass then s else s.wr (Reg.LEAF_ARRAY_FAIL_FAIL l) (s.rd (Reg.LEAF_ARRAY_FAIL_FAIL l) ||| 2 ^ bit)
      let recent := match k.fails.getD me.val [] with | a :: b :: _ => decide (a < b + State.msTicks 86400000) | _ => false
      let s := s.modCore c.val (fun k => { k with owed := k.owed &&& ~~~ BitVec.twoPow 4 me.val })
      if !pass || recent then s.disableArray c.val me.val else s
    else s)

end Sys2Proof.Machine
end

