-- ==== Sys2Proof/Machine/Tables.lean ====
section
/-! DEFINITION. The built-in function tables of the VE (R112, R148).  The value of a table is a free value
within the bound of R148 around a reference computed in fixed point to far more bits than FP32 holds. -/

namespace Sys2Proof.Machine

/-! ### Reference values in units of 2^-160 -/

/-- Bits below one. -/
def fxBits : Nat := 160
def fxOne : Int := 2 ^ 160

/-- ln 2 and √(2/π) × 2^160. -/
def fxLn2 : Int := 1013035739299659071135698605846798551586536899366
def fxGelu : Int := 1166109592014436081468383460887399764390691815008

/-- A finite value in units of 2^-160. -/
def fxOf : Num → Int
  | .fin neg m e => floorUnits neg m e (-160)
  | _ => 0

def fxMul (a b : Int) : Int := a * b / fxOne
def fxDiv (a b : Int) : Int := a * fxOne / b

/-- A value of 2^-160 units as an exact number times 2^k. -/
def fxNum (v k : Int) : Num := .fin (v < 0) v.natAbs (k - 160)

/-- e^x for a reduced x in [0, ln 2): 44 terms of the series. -/
def fxExpSmall (r : Int) : Int :=
  ((List.range 44).foldl (fun (p : Int × Int) i => let t := fxMul p.2 r / (i + 1 : Nat); (p.1 + t, t)) (fxOne, fxOne)).1

/-- e^x as a value and a power of two. -/
def fxExp (x : Int) : Int × Int := (fxExpSmall (x % fxLn2), x / fxLn2)

/-- e^(−a) for a ≥ 0; from 128 on it lies below one unit. -/
def fxExpNeg (a : Int) : Int := if a ≥ 128 * fxOne then 0 else let p := fxExp (-a); p.1 / 2 ^ (-p.2).toNat

/-- Sigmoid. -/
def fxSig (x : Int) : Int :=
  let t := fxExpNeg x.natAbs
  if x < 0 then fxDiv t (fxOne + t) else fxDiv fxOne (fxOne + t)

/-- Hyperbolic tangent. -/
def fxTanh (x : Int) : Int :=
  let t := fxExpNeg (2 * x.natAbs)
  let v := fxDiv (fxOne - t) (fxOne + t)
  if x < 0 then -v else v

/-- Argument of the tanh form of GELU: √(2/π)(x + 0.044715 x³). -/
def fxGeluArg (x : Int) : Int := fxMul fxGelu (x + fxMul x (fxMul x x) * 44715 / 1000000)

/-- Natural logarithm of m × 2^e: k ln 2 + 2 artanh((f − 1)/(f + 1)) with f in [1, 2). -/
def fxLog (m : Nat) (e : Int) : Int :=
  let l := Nat.log2 m
  let f : Int := m * fxOne / 2 ^ l
  let z := fxDiv (f - fxOne) (f + fxOne)
  let z2 := fxMul z z
  let s := ((List.range 52).foldl (fun (p : Int × Int) i => (p.1 + p.2 / (2 * i + 1 : Nat), fxMul p.2 z2)) ((0 : Int), z)).1
  (e + l) * fxLn2 + 2 * s

/-! ### Specification of the tables (R148) -/

/-- What R148 says of one result: an exact value, or a reference with a bound in ulp or absolute. -/
inductive BiSpec where
  | exactly (w : Word32)
  | near (ref : Num) (ulps : Nat) (abs : Num)
  deriving DecidableEq, Repr

def f32One : Word32 := 0x3F800000
def f32Inf : Word32 := 0x7F800000
def f32NegInf : Word32 := 0xFF800000
def f32NegZero : Word32 := 0x80000000
def f32Nan : Word32 := 0x7FC00000

/-- x × n < k, for a decimal bound k / n. -/
def numLtRat (x : Num) (k : Int) (n : Nat) : Bool := (x.mul (.ofNat n)).lt (.fin (k < 0) k.natAbs 0)

/-- The power 2^k as a bound. -/
def pow2 (k : Int) : Num := .fin false 1 k

/-- Slot 0. -/
def biExp (x : Num) : BiSpec :=
  if numLtRat x (-1039721) 10000 then .exactly 0
  else if !((x.mul (.ofNat 10000)).le (.ofNat 887228)) then .exactly f32Inf
  else let p := fxExp (fxOf x); .near (fxNum p.1 p.2) 2 .zero

/-- Slot 1, forward: a quotient to 160 bits. -/
def biRecip (x : Num) : BiSpec :=
  match x with
  | .nan => .exactly f32Nan
  | .inf n => .exactly (if n then f32NegZero else 0)
  | .fin n m e => if m = 0 then .exactly (if n then f32NegInf else f32Inf) else .near (.fin n (2 ^ 200 / m) (-200 - e)) 2 .zero

/-- Slot 1, derivative: −1/x². -/
def biRecipD (x : Num) : BiSpec :=
  match x with
  | .nan => .exactly f32Nan
  | .inf _ => .exactly f32NegZero
  | .fin _ m e => if m = 0 then .exactly f32NegInf else .near (.fin true (2 ^ 240 / (m * m)) (-240 - 2 * e)) 3 .zero

/-- m × 2^e with an even exponent. -/
def evenExp (m : Nat) (e : Int) : Nat × Int := if e % 2 = 0 then (m, e) else (2 * m, e - 1)

/-- Slot 2, forward: √(2^400 / m) in units of 2^-200. -/
def biRsqrt (x : Num) : BiSpec :=
  match x with
  | .nan => .exactly f32Nan
  | .inf n => .exactly (if n then f32Nan else 0)
  | .fin n m e =>
    if m = 0 then .exactly (if n then f32NegInf else f32Inf)
    else if n then .exactly f32Nan
    else let (a, b) := evenExp m e; .near (.fin false (Nat.sqrt (2 ^ 400 / a)) (-200 - b / 2)) 2 .zero

/-- Slot 2, derivative: −½ x^(−3/2). -/
def biRsqrtD (x : Num) : BiSpec :=
  match x with
  | .nan => .exactly f32Nan
  | .inf n => .exactly (if n then f32Nan else f32NegZero)
  | .fin n m e =>
    if m = 0 then .exactly (if n then f32Inf else f32NegInf)
    else if n then .exactly f32Nan
    else let (a, b) := evenExp m e; .near (.fin true (Nat.sqrt (2 ^ 480 / (a * a * a))) (-241 - 3 * (b / 2))) 3 .zero

/-- Slot 7, forward. -/
def biLn (x : Num) : BiSpec :=
  match x with
  | .nan => .exactly f32Nan
  | .inf n => .exactly (if n then f32Nan else f32Inf)
  | .fin n m e =>
    if m = 0 then .exactly f32NegInf
    else if n then .exactly f32Nan
    else .near (fxNum (fxLog m e) 0) 2 (if (Num.fin false 1 (-1)).le x && x.le (.ofNat 2) then pow2 (-24) else .zero)

/-- x is at least the integer k. -/
def geInt (x : Num) (k : Int) : Bool := !(numLtRat x k 1)

/-- The table of R148 by slot and part, for an input that is not a NaN. (DEDUCED, assumption 29.) -/
def biSpec (slot : Nat) (deriv : Bool) (x : Num) : BiSpec :=
  let v := fxOf x
  match slot, deriv with
  | 0, _ => biExp x
  | 1, false => biRecip x
  | 1, true => biRecipD x
  | 2, false => biRsqrt x
  | 2, true => biRsqrtD x
  | 3, false => if !(numLtRat x 1733 100) then .exactly f32One else .near (fxNum (fxSig v) 0) 4 .zero
  | 3, true =>
    if x.isInf then .near .zero 0 (pow2 (-24))
    else let g := fxSig v; .near (fxNum (fxMul g (fxOne - g)) 0) 0 (pow2 (-24))
  | 4, false =>
    if geInt x 16 then .exactly (toF32 x) else if x.isInf then .exactly f32NegZero
    else .near (fxNum (fxMul v (fxSig v)) 0) 4 (pow2 (-30))
  | 4, true =>
    if geInt x 16 then .exactly f32One else if x.isInf then .exactly 0
    else let g := fxSig v; .near (fxNum (fxMul g (fxOne + fxMul v (fxOne - g))) 0) 0 (pow2 (-22))
  | 5, false =>
    if geInt x 8 then .exactly (toF32 x) else if numLtRat x (-8) 1 then .exactly f32NegZero
    else .near (fxNum (fxMul v (fxOne + fxTanh (fxGeluArg v)) / 2) 0) 4 (pow2 (-22))
  | 5, true =>
    if geInt x 8 then .exactly f32One else if numLtRat x (-8) 1 then .exactly 0
    else
      let t := fxTanh (fxGeluArg v)
      let d := fxMul fxGelu (fxOne + fxMul v v * 134145 / 1000000)
      .near (fxNum ((fxOne + t + fxMul v (fxMul (fxOne - fxMul t t) d)) / 2) 0) 0 (pow2 (-22))
  | 6, false =>
    if geInt x 10 then .exactly f32One else if numLtRat x (-10) 1 then .exactly 0xBF800000
    else .near (fxNum (fxTanh v) 0) 4 (pow2 (-23))
  | 6, true =>
    if geInt x 10 || numLtRat x (-10) 1 then .exactly 0
    else let t := fxTanh v; .near (fxNum (fxOne - fxMul t t) 0) 0 (pow2 (-23))
  | _, false => biLn x
  | _, true => biRecip x

/-- One ulp of the exact result rounded to FP32. -/
def ulpOf (ref : Num) : Num :=
  match f32 (toF32 ref) with
  | .fin _ m e => if m = 0 then pow2 (-149) else pow2 (max (-149) (e + Nat.log2 m - 23))
  | _ => pow2 104

/-- A result lies within its bound; infinity counts as 2^128. (DEDUCED, assumption 29.) -/
def biWithin (v : Word32) (ref : Num) (ulps : Nat) (abs : Num) : Bool :=
  let b := (ulpOf ref).mul (.ofNat ulps)
  let b := if b.lt abs then abs else b
  match f32 v with
  | .nan => false
  | .inf n => ((Num.fin n 1 128).add ref.neg).absLe b
  | y => (y.add ref.neg).absLe b

/-- The slot whose own value answers: the sigmoid of an x below −16 is slot 0's exponential (R148). (DEDUCED, assumption 29.) -/
def biOwn (slot : Nat) (deriv : Bool) (x : Num) : Nat := if slot = 3 ∧ deriv = false ∧ numLtRat x (-16) 1 then 0 else slot

/-- Value of a built-in table: the free value of the configuration where it lies within the bound, else the
reference rounded. (DESIGN CHOICE, assumption 10; DEDUCED, assumption 29.) -/
def biEval (slot : Nat) (deriv : Bool) (w : Word32) : Word32 :=
  match f32 w with
  | .nan => f32Nan
  | x =>
    let own := biOwn slot deriv x
    match biSpec own deriv x with
    | .exactly v => v
    | .near ref ulps abs =>
      let v := Config.builtin own deriv.toNat w
      if biWithin v ref ulps abs then v else toF32 ref

end Sys2Proof.Machine
end

