-- ==== Sys2Proof/Machine/Vector.lean ====
section
/-! DEFINITION. The vector engine: registers, loads and stores, element-wise instructions, reductions, function
tables and row units (R41, R110-R113, R143-R155). -/

namespace Sys2Proof.Machine

/-! ### FP32 helpers -/

/-- Quotient of two values, correctly rounded to FP32: 64 bits of quotient and a sticky bit. -/
def divF32 (a b : Num) : Word32 :=
  match a, b with
  | .nan, _ => f32Nan
  | _, .nan => f32Nan
  | .inf _, .inf _ => f32Nan
  | .inf x, .fin y _ _ => toF32 (.inf (x != y))
  | .fin x _ _, .inf y => toF32 (.fin (x != y) 0 0)
  | .fin x m e, .fin y n g =>
    if n = 0 then (if m = 0 then f32Nan else toF32 (.inf (x != y)))
    else
      let k := 64 + Nat.log2 n
      let q := m * 2 ^ k / n
      toF32 (.fin (x != y) (2 * q + (if m * 2 ^ k % n = 0 then 0 else 1)) (e - g - k - 1))

/-- Maximum and minimum: a NaN gives the canonical NaN, and +0 is greater than −0 (R111, R147). -/
def fmax (a b : Word32) : Word32 :=
  let x := f32 a
  let y := f32 b
  if x.isNan || y.isNan then f32Nan else if x.lt y then b else if y.lt x then a else if a.msb then b else a

def fmin (a b : Word32) : Word32 :=
  let x := f32 a
  let y := f32 b
  if x.isNan || y.isNan then f32Nan else if x.lt y then a else if y.lt x then b else if a.msb then a else b

/-- The pairwise tree of R147 on a list whose length is a power of two, `d` levels deep. -/
def treeRed (op : Word32 → Word32 → Word32) : Nat → List Word32 → Word32
  | 0, xs => xs.headD 0
  | d + 1, xs => let h := xs.length / 2; treeRed op d (List.zipWith op (xs.take h) (xs.drop h))

/-! ### Vector registers (R143) -/

/-- Elements of a register type: TY = 1 is FP32. -/
def vCount (ty : Bool) : Nat := if ty then 256 else 512

/-- Bytes of an element. -/
def vSize (ty : Bool) : Nat := if ty then 4 else 2

/-- Little-endian fields of n bytes, k of them. -/
def splitLe (n : Nat) : Nat → List Byte → List Nat
  | 0, _ => []
  | k + 1, bs => leNat (bs.take n) :: splitLe n k (bs.drop n)

/-- Codes of a register's elements. -/
def Core.vcodes (k : Core) (r : Nat) (ty : Bool) : List Nat := splitLe (vSize ty) (vCount ty) (k.vreg.readN (r * 1024) 1024)

/-- FP32 value of an element code, widened exactly (R41). -/
def vWiden (ty : Bool) (c : Nat) : Word32 := if ty then BitVec.ofNat 32 c else toF32 (fmtBf16.dec c)

/-- Elements of a register, widened to FP32. -/
def Core.vget (k : Core) (r : Nat) (ty : Bool) : List Word32 := (k.vcodes r ty).map (vWiden ty)

/-- Write element codes from element `i` on. -/
def Core.vputAt (k : Core) (r : Nat) (ty : Bool) (i : Nat) (codes : List Nat) : Core :=
  { k with vreg := k.vreg.writeN (r * 1024 + i * vSize ty) (codes.flatMap (leBytes (vSize ty))) }

/-- Conversion of one FP32 value into a scalar format, with the draw `d` where SR selects stochastic rounding and the
destination is BF16; a NaN becomes the canonical NaN (R27, R33, R34, R36). -/
def vConv (fmt : Nat) (sr sat : Bool) (d : BitVec 16) (w : Word32) : Nat :=
  if fmt = Fmt.fp32 then (if (f32 w).isNan then f32Nan else w).toNat
  else if sr ∧ fmt = Fmt.bf16 then stochBf16 sat w d
  else (Fmt.float fmt).enc sat (f32 w)

/-- Convert FP32 results, drawing afresh for each element under SR. -/
def State.vConvAll (s : State) (fmt : Nat) (sr sat : Bool) (ws : List Word32) : List Nat × State :=
  ((ws.zipIdx).map (fun p => vConv fmt sr sat (Config.stochastic (s.freeCtr + p.2)) p.1),
   if sr then { s with freeCtr := s.freeCtr + ws.length } else s)

/-- Format of a register type. -/
def vFmt (ty : Bool) : Nat := if ty then Fmt.fp32 else Fmt.bf16

/-- Write FP32 results into a whole register. -/
def State.vput (s : State) (c r : Nat) (ty sr sat : Bool) (ws : List Word32) : State :=
  let (codes, s) := s.vConvAll (vFmt ty) sr sat ws
  s.modCore c (fun k => k.vputAt r ty 0 codes)

/-! ### VLD and VST (R110, R146) -/

/-- The tile of a VLD or VST: undefined for a block format, ADDR_RANGE where its checks or the row fail. -/
def vTile (w : TileWord) (row : Word) : Tile × Option TileBad :=
  let t := Tile.of w
  (t, match t.check with
    | some .undefined => some .undefined
    | some .range => if Fmt.block t.fmt then some .undefined else some .range
    | none => if Fmt.block t.fmt then some .undefined else if row.toNat ≥ t.rows then some .range else none)

/-- Complete with what a check of R49 found. -/
def State.finishTile (s : State) (c id : Nat) (e : Entry) (b : TileBad) : State :=
  match b with | .undefined => s.finishUndef c id e | .range => s.finishRange c id

/-- Element code of a source tile into a register type: widened to FP32 and converted (R146). -/
def vLoad (t : Tile) (ty sat : Bool) (code : Nat) : Nat := vConv (vFmt ty) false sat 0 (toF32 (Fmt.decElem t.fmt code))

/-- Bytes of an element of a tile that is no block tile. -/
def Tile.esz (t : Tile) : Nat := Fmt.bits t.fmt / 8

/-- VLD (R110, R146). -/
def execVld (c : CoreId) (o : EngOp FmtU) (s : State) : Res :=
  .next (match o with
    | .issue h f => s.issueEngine c.val h 0xA0 (packU f) (fun k => .vld f.vd.val (k.tget f.ts.val) (k.sget f.ra.val) (k.sget f.rb.val) f.ty)
    | .run id u => s.runEntry c.val id u (fun s e =>
        match e.op with
        | .vld vd ts ra rb ty =>
          let (t, bad) := vTile ts ra
          let k := s.core c.val
          let row := ra.toNat
          let col := rb.toNat
          let n := min (vCount ty) (t.cols - col)
          match bad with
          | some b => s.finishTile c.val id e b
          | none =>
            match k.badIn [(t.rowAt row + col * t.esz, n * t.esz)] with
            | some w => s.finishEcc c.val id 2 w
            | none =>
              let codes := (List.range (vCount ty)).map (fun j => if j < n then vLoad t ty e.sat (t.code k.sp row (col + j)) else 0)
              (s.modCore c.val (fun k => k.vputAt vd ty 0 codes)).finish c.val id 0
        | _ => s))

/-- Store FP32 values as codes of row r of a tile that is no block tile, from a column on. -/
def State.storeWords (s : State) (c : Nat) (t : Tile) (r col : Nat) (sr sat : Bool) (ws : List Word32) : State :=
  let (codes, s) := s.vConvAll t.fmt sr sat ws
  s.spWrite c (t.rowAt r + col * t.esz) (codes.flatMap (leBytes t.esz))

/-- VST (R110, R146). -/
def execVst (c : CoreId) (o : EngOp FmtU) (s : State) : Res :=
  .next (match o with
    | .issue h f => s.issueEngine c.val h 0xA1 (packU f) (fun k => .vst f.vd.val (k.tget f.ts.val) (k.sget f.ra.val) (k.sget f.rb.val) f.ty f.sr)
    | .run id u => s.runEntry c.val id u (fun s e =>
        match e.op with
        | .vst vd ts ra rb ty sr =>
          let (t, bad) := vTile ts ra
          let k := s.core c.val
          let col := rb.toNat
          let n := min (vCount ty) (t.cols - col)
          match bad with
          | some b => s.finishTile c.val id e b
          | none =>
            (s.storeWords c.val t ra.toNat col sr e.sat ((k.vget vd ty).take n)).finish c.val id 0
        | _ => s))

/-! ### Element-wise instructions (R111) -/

/-- Result of an element-wise instruction: 0 VADD, 1 VSUB, 2 VMUL, 3 VFMA, 4 VMAX, 5 VMIN. -/
def vElem (f : Nat) (a b c : Word32) : Word32 :=
  match f with
  | 0 => fadd a b
  | 1 => fsub a b
  | 2 => fmul a b
  | 3 => ffma a b c
  | 4 => fmax a b
  | _ => fmin a b

/-- Capture of an element-wise instruction: under VAR the scalar register supplies b. -/
def Core.velem (k : Core) (h : Hdr) (f : Nat) (o : FmtT) : EInst :=
  .velem f o.vd.val o.va.val o.vb.val o.vc.val (if h.var then some ((k.sget o.rs.val).setWidth 32) else none) o.ty o.sr

/-- Effect of a dispatched element-wise instruction of the kind `kind`; a run command names an instruction of its own
kind. -/
def State.runElem (s : State) (kind c id : Nat) (e : Entry) : State :=
  match e.op with
  | .velem f vd va vb vc rs ty sr =>
    if f ≠ kind then s else
    let k := s.core c
    let a := k.vget va ty
    let b := match rs with | some w => List.replicate (vCount ty) w | none => k.vget vb ty
    let d := k.vget vc ty
    let r := List.zipWith (fun (x : Word32) (y : Word32 × Word32) => vElem f x y.1 y.2) a (b.zip d)
    (s.vput c vd ty sr e.sat r).finish c id 0
  | _ => s

/-- VADD (R111). -/
def execVadd (c : CoreId) (o : EngOp FmtT) (s : State) : Res :=
  .next (match o with
    | .issue h f => s.issueEngine c.val h 0xA2 (packT f) (fun k => k.velem h 0 f)
    | .run id u => s.runEntry c.val id u (fun s e => s.runElem 0 c.val id e))

/-- VSUB (R111). -/
def execVsub (c : CoreId) (o : EngOp FmtT) (s : State) : Res :=
  .next (match o with
    | .issue h f => s.issueEngine c.val h 0xA3 (packT f) (fun k => k.velem h 1 f)
    | .run id u => s.runEntry c.val id u (fun s e => s.runElem 1 c.val id e))

/-- VMUL (R111). -/
def execVmul (c : CoreId) (o : EngOp FmtT) (s : State) : Res :=
  .next (match o with
    | .issue h f => s.issueEngine c.val h 0xA4 (packT f) (fun k => k.velem h 2 f)
    | .run id u => s.runEntry c.val id u (fun s e => s.runElem 2 c.val id e))

/-- VFMA: one rounding (R41, R111). -/
def execVfma (c : CoreId) (o : EngOp FmtT) (s : State) : Res :=
  .next (match o with
    | .issue h f => s.issueEngine c.val h 0xA5 (packT f) (fun k => k.velem h 3 f)
    | .run id u => s.runEntry c.val id u (fun s e => s.runElem 3 c.val id e))

/-- VMAX (R111). -/
def execVmax (c : CoreId) (o : EngOp FmtT) (s : State) : Res :=
  .next (match o with
    | .issue h f => s.issueEngine c.val h 0xA6 (packT f) (fun k => k.velem h 4 f)
    | .run id u => s.runEntry c.val id u (fun s e => s.runElem 4 c.val id e))

/-- VMIN (R111). -/
def execVmin (c : CoreId) (o : EngOp FmtT) (s : State) : Res :=
  .next (match o with
    | .issue h f => s.issueEngine c.val h 0xA7 (packT f) (fun k => k.velem h 5 f)
    | .run id u => s.runEntry c.val id u (fun s e => s.runElem 5 c.val id e))

/-- VCVT: between one FP32 register and half a BF16 register; modes 4-7 are undefined (R111). -/
def execVcvt (c : CoreId) (o : EngOp FmtT) (s : State) : Res :=
  .next (match o with
    | .issue h f => s.issueEngine c.val h 0xA8 (packT f) (fun _ => .vcvt f.vd.val f.va.val f.mode.val f.sr)
    | .run id u => s.runEntry c.val id u (fun s e =>
        match e.op with
        | .vcvt vd va mode sr =>
          let k := s.core c.val
          if mode ≤ 1 then
            (s.vput c.val vd true false e.sat (((k.vget va false).drop (256 * mode)).take 256)).finish c.val id 0
          else if mode ≤ 3 then
            let (codes, s) := s.vConvAll Fmt.bf16 sr e.sat (k.vget va true)
            (s.modCore c.val (fun k => k.vputAt vd false (256 * (mode - 2)) codes)).finish c.val id 0
          else s.finishUndef c.val id e
        | _ => s))

/-- VRED: sum, maximum or minimum by the tree of R147 into element 0; modes 3-7 are undefined (R111). -/
def execVred (c : CoreId) (o : EngOp FmtT) (s : State) : Res :=
  .next (match o with
    | .issue h f => s.issueEngine c.val h 0xA9 (packT f) (fun _ => .vred f.vd.val f.va.val f.mode.val f.ty f.sr)
    | .run id u => s.runEntry c.val id u (fun s e =>
        match e.op with
        | .vred vd va mode ty sr =>
          if mode > 2 then s.finishUndef c.val id e
          else
            let op := if mode = 0 then fadd else if mode = 1 then fmax else fmin
            let r := treeRed op (if ty then 8 else 9) ((s.core c.val).vget va ty)
            (s.vput c.val vd ty sr e.sat (r :: List.replicate (vCount ty - 1) 0)).finish c.val id 0
        | _ => s))

/-! ### Function tables (R112, R149-R151) -/

/-- A 32-bit word of the image in table slot n. -/
def Core.tabWord (k : Core) (n off : Nat) : Word32 := BitVec.ofNat 32 (leNat (k.vtab.readN (n * 8192 + off) 4))

/-- W of a loaded image: 256 / (HI − LO), one rounding (R150). -/
def Core.tabW (k : Core) (n : Nat) : Word32 :=
  divF32 (.ofNat 256) ((f32 (k.tabWord n 4)).add (f32 (k.tabWord n 0)).neg)

/-- floor(u) clamped to 0-255. -/
def segOf (u : Word32) : Nat :=
  match f32 u with
  | .fin neg m e => if neg then 0 else (min (floorUnits false m e 0) 255).toNat
  | .inf neg => if neg then 0 else 255
  | .nan => 0

/-- Value of a loaded table (R150): `mode`, `below`, `above` and the segments are those of the part. -/
def Core.tabEval (k : Core) (n : Nat) (deriv : Bool) (x : Word32) : Word32 :=
  let lo := k.tabWord n 0
  let hi := k.tabWord n 4
  let mode := (k.vtab.read (n * 8192 + 8 + deriv.toNat)).toNat
  let below := k.tabWord n (if deriv then 20 else 12)
  let above := k.tabWord n (if deriv then 24 else 16)
  if (f32 x).isNan then f32Nan
  else if (f32 x).lt (f32 lo) && mode.testBit 0 then below
  else
    let x := if (f32 x).lt (f32 lo) then lo else x
    if (f32 hi).le (f32 x) && mode.testBit 1 then above
    else
      let x := if (f32 hi).le (f32 x) then fadd lo (fmul (fsub hi lo) 0x3F7FFFFF) else x
      let u := fmul (fsub x lo) (k.tabW n)
      let seg := segOf u
      let t := fsub u (toF32 (.ofNat seg))
      let at_ := (if deriv then 3136 else 64) + 12 * seg
      ffma t (ffma t (k.tabWord n (at_ + 8)) (k.tabWord n (at_ + 4))) (k.tabWord n at_)

/-- Value of table n at x: built in, loaded, or the canonical NaN of an unloaded slot (R112). -/
def Core.tableVal (k : Core) (n : Nat) (deriv : Bool) (x : Word32) : Word32 :=
  if n < 8 then biEval n deriv x else if k.vtabLoaded.getLsbD n then k.tabEval n deriv x else f32Nan

/-- Effect of VFN and VFN.D: VC[4] = 1 is undefined (R112). -/
def State.runVfn (s : State) (want : Bool) (c id : Nat) (e : Entry) : State :=
  match e.op with
  | .vfn vd va tbl deriv ty sr =>
    if deriv != want then s
    else if tbl ≥ 16 then s.finishUndef c id e
    else
      let k := s.core c
      (s.vput c vd ty sr e.sat ((k.vget va ty).map (k.tableVal tbl deriv))).finish c id 0
  | _ => s

/-- VFN (R112). -/
def execVfn (c : CoreId) (o : EngOp FmtT) (s : State) : Res :=
  .next (match o with
    | .issue h f => s.issueEngine c.val h 0xAA (packT f) (fun _ => .vfn f.vd.val f.va.val f.vc.val false f.ty f.sr)
    | .run id u => s.runEntry c.val id u (fun s e => s.runVfn false c.val id e))

/-- VFN.D (R112). -/
def execVfnD (c : CoreId) (o : EngOp FmtT) (s : State) : Res :=
  .next (match o with
    | .issue h f => s.issueEngine c.val h 0xAB (packT f) (fun _ => .vfn f.vd.val f.va.val f.vc.val true f.ty f.sr)
    | .run id u => s.runEntry c.val id u (fun s e => s.runVfn true c.val id e))

/-- An image with a finite LO and a finite HI above it (R150). -/
def tableOk (img : List Byte) : Bool :=
  let lo := f32 (BitVec.ofNat 32 (leNat (img.take 4)))
  let hi := f32 (BitVec.ofNat 32 (leNat ((img.drop 4).take 4)))
  lo.isFin && hi.isFin && lo.lt hi

/-- VTLOAD: a bad image leaves the slot unloaded; slots 0-7 and VD[4] = 1 are undefined (R112, R149-R151). -/
def execVtload (c : CoreId) (o : EngOp FmtU) (s : State) : Res :=
  .next (match o with
    | .issue h f => s.issueEngine c.val h 0xAC (packU f) (fun k => .vtload f.vd.val (k.tget f.ts.val))
    | .run id u => s.runEntry c.val id u (fun s e =>
        match e.op with
        | .vtload n ts =>
          let base := (Tile.raw ts).base
          let k := s.core c.val
          if n < 8 ∨ n ≥ 16 then s.finishUndef c.val id e
          else if base % 64 ≠ 0 ∨ base + 8192 > spSize then s.finishRange c.val id
          else match k.badIn [(base, 8192)] with
            | some w => s.finishEcc c.val id 2 w
            | none =>
              let img := k.sp.readN base 8192
              (s.modCore c.val (fun k =>
                if tableOk img then { k with vtab := k.vtab.writeN (n * 8192) img, vtabLoaded := k.vtabLoaded ||| BitVec.twoPow 16 n }
                else { k with vtabLoaded := k.vtabLoaded &&& ~~~ BitVec.twoPow 16 n })).finish c.val id 0
        | _ => s))

/-! ### Row units (R113, R152-R155) -/

/-- Slices of 512 elements, the last padded. -/
def slices (pad : Word32) (xs : List Word32) : List (List Word32) :=
  (List.range ((xs.length + 511) / 512)).map (fun i => (List.range 512).map (fun j => (xs[512 * i + j]?).getD pad))

/-- A row's statistic in the fixed order of R153. -/
def rowRed (op : Word32 → Word32 → Word32) (pad : Word32) (xs : List Word32) : Word32 :=
  match (slices pad xs).map (treeRed op 9) with
  | [] => pad
  | y :: ys => ys.foldl op y

/-- DEDUCED, assumption 30. -/
def rowSum (xs : List Word32) : Word32 := rowRed fadd 0 xs
def rowMax (xs : List Word32) : Word32 := rowRed fmax f32NegInf xs

/-- A mean: the sum divided by COLS, correctly rounded. -/
def rowMean (xs : List Word32) : Word32 := divF32 (f32 (rowSum xs)) (.ofNat xs.length)

/-- Epsilon: negative or NaN is 0 (R152). -/
def epsOf (w : Word32) : Word32 := if (f32 w).isNan || w.msb then 0 else w

/-- Reciprocal square root and reciprocal by slots 2 and 1, exponential by slot 0 (R153). -/
def rsqrtF (w : Word32) : Word32 := biEval 2 false w
def recipF (w : Word32) : Word32 := biEval 1 false w
def expF (w : Word32) : Word32 := biEval 0 false w

/-- Statistics of layer normalisation: x̂ and r. -/
def layerStats (eps : Word32) (x : List Word32) : List Word32 × Word32 :=
  let mu := rowMean x
  let d := x.map (fun v => fsub v mu)
  let r := rsqrtF (fadd (rowMean (d.map (fun v => fmul v v))) eps)
  (d.map (fun v => fmul v r), r)

/-- r of RMS normalisation. -/
def rmsStat (eps : Word32) (x : List Word32) : Word32 := rsqrtF (fadd (rowMean (x.map (fun v => fmul v v))) eps)

/-- VROW.NORM of one row (R154). -/
def rowNorm (layer : Bool) (eps : Word32) (x g b : List Word32) : List Word32 :=
  if layer then
    let (xh, _) := layerStats eps x
    List.zipWith (fun (v : Word32) (gb : Word32 × Word32) => ffma v gb.1 gb.2) xh (g.zip b)
  else
    let r := rmsStat eps x
    List.zipWith (fun v w => fmul (fmul v r) w) x g

/-- VROW.NORMB of one row (R154). -/
def rowNormb (layer : Bool) (eps : Word32) (dy x g : List Word32) : List Word32 :=
  let gd := List.zipWith fmul g dy
  if layer then
    let (xh, r) := layerStats eps x
    let m1 := rowMean gd
    let m2 := rowMean (List.zipWith fmul gd xh)
    List.zipWith (fun v h => fmul r (fsub (fsub v m1) (fmul h m2))) gd xh
  else
    let r := rmsStat eps x
    let m := rowMean (List.zipWith fmul gd x)
    let r3 := fmul (fmul r r) r
    List.zipWith (fun v w => fsub (fmul r v) (fmul r3 (fmul w m))) gd x

/-- Number of unmasked columns of a row: all when RB is all ones, else those up to RB + row, a sum that does not wrap
(R113). (DEDUCED, assumption 30.) -/
def unmasked (rb : Word) (row cols : Nat) : Nat := if rb = BitVec.allOnes 64 then cols else min cols (rb.toNat + row + 1)

/-- Outputs of the softmax over the unmasked columns, which come first in a row (R155). -/
def smaxLive (scale : Word32) (x : List Word32) : List Word32 :=
  let t := x.map (fun v => fmul v scale)
  if t.any (fun v => (f32 v).isNan || f32 v == .inf false) || t.all (fun v => f32 v == .inf true) then t.map (fun _ => f32Nan)
  else
    let m := rowMax t
    let e := t.map (fun v => expF (fsub v m))
    let i := recipF (rowSum e)
    e.map (fun v => fmul v i)

/-- VROW.SMAX of one row. -/
def rowSmax (scale : Word32) (rb : Word) (row : Nat) (x : List Word32) : List Word32 :=
  let n := unmasked rb row x.length
  smaxLive scale (x.take n) ++ List.replicate (x.length - n) 0

/-- VROW.SMAXB of one row: a NaN in y makes the whole row NaN. -/
def rowSmaxb (scale : Word32) (rb : Word) (row : Nat) (dy x : List Word32) : List Word32 :=
  let n := unmasked rb row x.length
  let y := smaxLive scale (x.take n)
  if y.any (fun v => (f32 v).isNan) then x.map (fun _ => f32Nan)
  else
    let t := rowSum (List.zipWith fmul (dy.take n) y)
    List.zipWith (fun v d => fmul (fmul v (fsub d t)) scale) y (dy.take n) ++ List.replicate (x.length - n) 0

/-- First elements of a row of a tile, widened to FP32. -/
def Tile.rowWords (t : Tile) (m : Mem) (r n : Nat) : List Word32 := (List.range n).map (fun j => toF32 (t.elem m r j))

/-- Formats of the row operands (R152). -/
def rowFmt (t : Tile) : Bool := t.fmt ≤ 2
def gainFmt (t : Tile) : Bool := t.fmt ≤ 1

/-- One output row of a row instruction: kind 0 NORM, 1 NORMB, 2 SMAX, 3 SMAXB. -/
def rowOut (kind mode : Nat) (ra : Word32) (rb : Word) (row : Nat) (a x g b : List Word32) : List Word32 :=
  match kind with
  | 0 => rowNorm (mode.testBit 0) (epsOf ra) a g b
  | 1 => rowNormb (mode.testBit 0) (epsOf ra) a x g
  | 2 => rowSmax ra rb row a
  | _ => rowSmaxb ra rb row a x

/-- Tiles that a row instruction uses beside ts and td. -/
def rowTiles (kind : Nat) (tx tg : Tile) : List Tile :=
  (if kind % 2 = 1 then [tx] else []) ++ (if kind < 2 then [tg] else [])

/-- Effect of a row instruction (R113, R152); an uncorrectable word among those that it reads ends it before any row is
written, and before a row that td or tx lacks ends it with ADDR_RANGE. (DEDUCED, assumption 30.) -/
def State.runRow (s : State) (want c id : Nat) (e : Entry) : State :=
  match e.op with
  | .vrow kind td ts tx tg ra rb mode =>
    if kind ≠ want then s else
    let d := Tile.of td
    let t := Tile.of ts
    let x := Tile.of tx
    let g := Tile.of tg
    let used := [d, t] ++ rowTiles kind x g
    let back := kind % 2 = 1
    let norm := kind < 2
    if !(rowFmt d && rowFmt t) || (back && !rowFmt x) || (norm && !gainFmt g) then s.finishUndef c id e
    else if used.any (fun z => z.check.isSome) then s.finishRange c id
    else
      let k := s.core c
      let cols := used.foldl (fun n z => min n z.cols) d.cols
      let rows := min t.rows (min d.rows (if back then x.rows else t.rows))
      match k.badIn (t.partRanges 0 rows 0 cols ++ (if back then x.partRanges 0 rows 0 cols else [])
          ++ (if norm then g.partRanges 0 (if kind = 0 ∧ mode.testBit 0 then 2 else 1) 0 cols else [])) with
      | some w => s.finishEcc c id 2 w
      | none =>
        let sr := mode.testBit 3
        let s := (List.range rows).foldl (fun s r =>
          let m := (s.core c).sp
          let gw := if norm then g.rowWords m 0 cols else []
          let bw := if norm ∧ g.rows > 1 then g.rowWords m 1 cols else List.replicate cols 0
          let xw := if back then x.rowWords m r cols else []
          s.storeWords c d r 0 sr e.sat (rowOut kind mode (ra.setWidth 32) rb r (t.rowWords m r cols) xw gw bw)) s
        if rows < t.rows then s.finishRange c id else s.finish c id 0
  | _ => s

/-- Capture of a row instruction. -/
def Core.vrow (k : Core) (kind : Nat) (f : FmtW) : EInst :=
  .vrow kind (k.tget f.td.val) (k.tget f.ts.val) (k.tget f.tx.val) (k.tget f.tg.val) (k.sget f.ra.val) (k.sget f.rb.val) f.mode.val

/-- VROW.NORM (R113, R154). -/
def execVrowNorm (c : CoreId) (o : EngOp FmtW) (s : State) : Res :=
  .next (match o with
    | .issue h f => s.issueEngine c.val h 0xB0 (packW f) (fun k => k.vrow 0 f)
    | .run id u => s.runEntry c.val id u (fun s e => s.runRow 0 c.val id e))

/-- VROW.NORMB (R113, R154). -/
def execVrowNormb (c : CoreId) (o : EngOp FmtW) (s : State) : Res :=
  .next (match o with
    | .issue h f => s.issueEngine c.val h 0xB1 (packW f) (fun k => k.vrow 1 f)
    | .run id u => s.runEntry c.val id u (fun s e => s.runRow 1 c.val id e))

/-- VROW.SMAX (R113, R155). -/
def execVrowSmax (c : CoreId) (o : EngOp FmtW) (s : State) : Res :=
  .next (match o with
    | .issue h f => s.issueEngine c.val h 0xB2 (packW f) (fun k => k.vrow 2 f)
    | .run id u => s.runEntry c.val id u (fun s e => s.runRow 2 c.val id e))

/-- VROW.SMAXB (R113, R155). -/
def execVrowSmaxb (c : CoreId) (o : EngOp FmtW) (s : State) : Res :=
  .next (match o with
    | .issue h f => s.issueEngine c.val h 0xB3 (packW f) (fun k => k.vrow 3 f)
    | .run id u => s.runEntry c.val id u (fun s e => s.runRow 3 c.val id e))

end Sys2Proof.Machine
end

