-- ==== Sys2Proof/Machine/Kv.lean ====
section
/-! DEFINITION. The KV page manager: sequences, geometries, scales, pools, pages and their moves, detents and
remote updates (R42, R117-R119, R198-R211, R215), and the keyed generator (R212). -/

namespace Sys2Proof.Machine

/-! ### Free pages -/

/-- KV_POOL_HI.FREE. -/
def State.poolFree (s : State) (p : Nat) : Nat := if s.poolUsed p then (s.pool p).pages - s.poolBusy p else 0

/-- The lowest free page of a pool. (DESIGN CHOICE, assumption 28.) -/
def State.freePage (s : State) (p : Nat) : Option Nat :=
  (List.range (min (s.pool p).pages (s.poolBusy p + 1))).find? (fun i => !(s.pageTaken p i))

/-- The pool from which a tier allocates: the first one, in increasing number, that has a free page (R205). -/
def State.tierPool (s : State) (cold : Bool) : Option Nat :=
  (List.range 16).find? (fun p => s.poolUsed p && (s.pool p).cold == cold && decide (s.poolFree p > 0))

/-- Pool and page that a policy allocates next (R205). (DESIGN CHOICE, assumption 28.) -/
def State.pickPage (s : State) (policy : Nat) : Option (Nat × Nat) :=
  let first := policy == 2
  let p := match s.tierPool first with | some p => some p | none => s.tierPool (!first)
  match p with
  | some p => (s.freePage p).map (fun i => (p, i))
  | none => none

/-- Pages for which the region has room: 136 bytes each past the 256 KiB of sequence table (R203). -/
def State.regionPages (s : State) : Nat := (s.kvRegion.2 - 0x40000) / 136

/-- Pools that have come to fail R204 since the state `old` are logged. -/
def State.logPools (old s : State) : State :=
  (List.range 16).foldl (fun (s : State) p => if s.poolBad p && !old.poolBad p then s.logS0 Status.ok 0x0801 (Reg.KV_POOL_LO p) else s) s

/-- Held KV_GEOM and KV_POOL writes take effect where nothing uses them: an unused geometry or pool has no
latched copy, so its registers hold; a used one keeps the copy latched at its first use (R215). -/
def State.kvApply (s : State) : State :=
  s.logPools { s with kvGeom := s.kvGeom.filter (fun e => s.kvSeqs.any (fun q => q.2.geom == e.1)),
                      kvPoolLo := s.kvPoolLo.filter (fun e => s.poolBusy e.1 != 0),
                      kvPoolHi := s.kvPoolHi.filter (fun e => s.poolBusy e.1 != 0) }

/-- Latch a pool at its first page. -/
def State.latchPool (s : State) (p : Nat) : State :=
  if (s.kvPoolLo.lookup p).isSome then s
  else { s with kvPoolLo := s.kvPoolLo.put p (s.poolLoWord p), kvPoolHi := s.kvPoolHi.put p (s.poolHiWord p) }

/-! ### Sequences -/

/-- Blocks that reach below a length. -/
def blocksOf (len : Nat) : Nat := (len + 15) / 16

/-- Allocate one page for a layer group of a block, or fail. -/
def State.allocPage (s : State) (q b grp policy : Nat) : Option State :=
  if s.kvPages.length ≥ s.regionPages then none
  else match s.pickPage policy with
    | none => none
    | some (p, i) =>
      let s := s.latchPool p
      some (State.kvTouch { s with kvPages := s.kvPages ++ [{ seq := q, block := b, group := grp, pool := p, index := i, scales := [], move := none, stuck := false }] })

/-- Allocate the Γ pages of a block, or fail. -/
def State.allocBlock (s : State) (q b groups policy : Nat) : Option State :=
  (List.range groups).foldl (fun o g => o.bind (fun s => s.allocPage q b g policy)) (some s)

/-- Extend over the blocks from `b`: the state, and the first block that could not be allocated. -/
def State.allocBlocks (s : State) (q : Nat) (g : KvGeom) (policy : Nat) : Nat → Nat → State × Option Nat
  | 0, _ => (s, none)
  | n + 1, b =>
    if g.holds b then
      match s.allocBlock q b g.groups policy with
      | some s => s.allocBlocks q g policy n (b + 1)
      | none => (s, some b)
    else s.allocBlocks q g policy n (b + 1)

/-- Free pages of a sequence whose block is at or beyond a block number (R207); a move of a freed page is
abandoned (R206). -/
def State.freeFrom (s : State) (q b : Nat) : State :=
  let gone := s.kvPages.filter (fun p => p.seq == q && decide (b ≤ p.block))
  { s with kvPages := s.kvPages.filter (fun p => !(p.seq == q && decide (b ≤ p.block))),
           kvLazy := s.kvLazy ++ gone.map (fun (p : KvPage) => (p.pool, p.index)) }.kvTouch.kvApply

def State.setSeq (s : State) (q : Nat) (x : KvSeq) : State := { s with kvSeqs := s.kvSeqs.put q x }.kvTouch

/-! ### Page moves (R206) -/

/-- Held blocks after b up to block `last`. -/
def KvGeom.heldBehind (g : KvGeom) (b last : Nat) : Nat := if b > last then 0 else last / 2 ^ g.ilv + (if last % 2 ^ g.ilv ≥ g.phase then 1 else 0) - (b / 2 ^ g.ilv + 1)

/-- May a page move to the cold tier now?  One for which the cold tier had no page waits for the next extension. -/
def State.mayMove (s : State) (p : KvPage) : Bool :=
  match s.seq? p.seq with
  | none => false
  | some q =>
    let g := s.geom q.geom
    let below := 16 * (p.block + 1)
    q.policy == 1 && p.move.isNone && !p.stuck && !(s.pool p.pool).cold && decide (below ≤ q.len)
      && (match q.detent with | some (d, _) => decide (below ≤ d) | none => true)
      && decide (g.heldBehind p.block ((q.len - 1) / 16) ≥ max 1 (s.rd Reg.KV_CTL_HOT_DEPTH))

/-- Moves in flight. -/
def State.movesInFlight (s : State) : Nat := (s.kvPages.filter (fun p => p.move.isSome)).length

/-- Start moves until four are in flight or none is due; where the cold tier has no free page, those that are due stay
hot. -/
def State.startMoves : Nat → State → State
  | 0, s => s
  | n + 1, s =>
    if !(s.rdb Reg.KV_CTL_MOVE_EN) || decide (s.movesInFlight ≥ 4) then s
    else match s.kvPages.find? s.mayMove with
      | none => s
      | some p => match (s.tierPool true).bind (fun c => (s.freePage c).map (fun i => (c, i))) with
        | some (c, i) =>
          State.startMoves n ({ s with kvPages := s.kvPages.map (fun x => if x == p then { x with move := some (c, i) } else x) }.latchPool c)
        | none => { s with kvPages := s.kvPages.map (fun x => if s.mayMove x then { x with stuck := true } else x) }

/-- An extension: pages for which the cold tier had no free page are tried again. -/
def State.retryMoves (s : State) : State := State.startMoves 4 { s with kvPages := s.kvPages.map (fun (p : KvPage) => { p with stuck := false }) }

/-- PAGE_MOVE_DONE: the copy of the i-th move in flight is complete and the page-table entry is switched. (DESIGN CHOICE, assumption 28.) -/
def execPageMoveDone (i : Nat) (u : List Upset) (s : State) : Res :=
  .next (match (s.kvPages.filter (fun p => p.move.isSome))[i]? with
    | none => s
    | some p => match p.move with
      | none => s
      | some (c, j) =>
        let s := s.sramUpsets u
        let (sp, off) := s.pageAt p.pool p.index
        let (dp, doff) := s.pageAt c j
        if s.memWaits sp off 65536 || s.memWaits dp doff 65536 then s
        else
        let (bs, b, s) := s.readSpace u sp off 65536 (s.pool p.pool).hint 1
        if b.isBad then ({ s with kvPages := s.kvPages.map (fun x => if x == p then { x with move := none } else x) }.kvApply).startMoves 4
        else
          let s := (s.writeSpace u dp doff (s.pool c).hint 1 bs).2
          let s := { s with kvPages := s.kvPages.map (fun x => if x == p then { x with pool := c, index := j, move := none } else x) }
          (s.bump Reg.KV_STAT_MOVES 1).kvTouch.kvApply.startMoves 4)

/-- PAGE_RECLAIM: the entries and scale records of freed pages have been cleared (R207). -/
def execPageReclaim (s : State) : Res := .next { s with kvLazy := [] }

/-! ### Serving KV instructions -/

/-- The sequence that a KV instruction names. -/
def EInst.kvSeq (i : EInst) : Option Nat :=
  match i with
  | .kvFree ra => some ra.toNat
  | .kvExt ra _ _ _ => some ra.toNat
  | .kvPut _ ra _ _ => some ra.toNat
  | .kvGet _ ra _ _ _ => some ra.toNat
  | .kvDetent ra => some ra.toNat
  | .kvCommit ra _ _ _ _ => some ra.toNat
  | .kvRollback ra _ _ _ => some ra.toNat
  | _ => none

/-- The sequence that an instruction of a core names: a KV.NEW names the one that its record requests, if it does. -/
def Core.kvSeqOf (k : Core) (i : EInst) : Option Nat :=
  match i with
  | .kvNew ra _ =>
    let want := leNat (k.sp.readN ra.toNat 2)
    if want = 0xFFFF then none else some want
  | i => i.kvSeq

/-- The manager serves the KV instructions of one core that name one sequence in program order (R119). -/
def Core.kvReady (k : Core) (e : Entry) : Bool :=
  k.window.all (fun x => !(decide (x.id < e.id) && (match x.phase with | .done _ => false | _ => true)
    && (k.kvSeqOf x.op).isSome && k.kvSeqOf x.op == k.kvSeqOf e.op))

/-- A remote update of a sequence has arrived and is still to be applied (R118, R211). -/
def State.kvUpdateDue (s : State) (q : Nat) : Bool :=
  s.hubIn.any (fun p => p.typ.val == PT.kvUpdate && leNat ((p.payload.drop 16).take 2) == q)

/-- A pool lies in the SP of a core whose domain is still off (R400). -/
def State.poolDark (s : State) : Bool := (List.range 16).any (fun p => s.poolUsed p && (s.pool p).space == 2 && !s.coreOn (s.pool p).core)

/-- A KV instruction waits while the table is being cleared, an earlier one of the same sequence is unserved, an update of
the sequence that has arrived is not applied or a pool's domain is off (R119, R211, R215, R400). -/
def State.kvWaits (s : State) (c : Nat) (e : Entry) : Bool :=
  let k := s.core c
  s.rdb Reg.KV_CTL_CLEAR || s.poolDark || !(k.kvReady e) || (match k.kvSeqOf e.op with | some q => s.kvUpdateDue q | none => false)

/-- Serve a dispatched KV instruction when it does not wait; a disabled manager completes it with ADDR_RANGE (R203). -/
def State.serveKv (s : State) (c id : Nat) (u : List Upset) (f : State → Entry → State) : State :=
  s.runEntry c id u (fun s e =>
    if s.kvWaits c e then s
    else if s.kvDisabled then s.finishRange c id
    else f s e)

/-- A range of SP that an instruction touches lies in SP (R88, R123). -/
def spFits (a : Word) (n : Nat) : Bool := decide (a.toNat + n ≤ spSize)

/-- The lowest free sequence identifier. -/
def State.freeSeq (s : State) : Option Nat := (List.range (s.kvSeqs.length + 1)).find? (fun q => (s.seq? q).isNone && decide (q < 4096))

/-- Geometry used by a new sequence: latched for as long as a sequence names it. -/
def State.latchGeom (s : State) (g : Nat) : State :=
  if (s.kvGeom.lookup g).isSome then s else { s with kvGeom := s.kvGeom.put g (s.geomWord g) }

/-- KV.NEW (R117, R198, R199). (DESIGN CHOICE, assumption 28.) -/
def execKvNew (c : CoreId) (o : EngOp FmtY) (s : State) : Res :=
  .next (match o with
    | .issue h f => s.issueEngine c.val h 0xC0 (packY f) (fun k => .kvNew (k.sget f.ra.val) (k.sget f.rb.val))
    | .run id u => s.serveKv c.val id u (fun s e =>
        match e.op with
        | .kvNew ra rb =>
          let k := s.core c.val
          if !(spFits ra 32 && spFits rb 8) then s.finishRange c.val id
          else match k.badIn [(ra.toNat, 32)] with
            | some w => s.finishEcc c.val id 2 w
            | none =>
              let r := k.sp.readN ra.toNat 32
              let want := leNat (r.take 2)
              let g := leNat ((r.drop 2).take 1)
              let policy := min 2 (leNat ((r.drop 3).take 1))
              if g ≥ 16 ∨ (s.geom g).valid = false then s.finishRange c.val id
              else
                let pick := if want = 0xFFFF then s.freeSeq else if want < 4096 ∧ (s.seq? want).isNone then some want else none
                match pick with
                | none => (s.spWrite c.val rb.toNat (leBytes 8 (2 ^ 64 - 1))).finish c.val id 0
                | some q =>
                  let x : KvSeq :=
                    { geom := g, policy := policy, len := 0, detent := none, epoch := 0,
                      key := BitVec.ofNat 128 (leNat ((r.drop 8).take 16)), counter := BitVec.ofNat 64 (leNat ((r.drop 24).take 8)) }
                  (((s.latchGeom g).setSeq q x).spWrite c.val rb.toNat (leBytes 8 q)).finish c.val id 0
        | _ => s))

/-- KV.FREE: the pages are freed and the entry is cleared (R117, R207, R208). -/
def execKvFree (c : CoreId) (o : EngOp FmtY) (s : State) : Res :=
  .next (match o with
    | .issue h f => s.issueEngine c.val h 0xC1 (packY f) (fun k => .kvFree (k.sget f.ra.val))
    | .run id u => s.serveKv c.val id u (fun s e =>
        match e.op with
        | .kvFree ra =>
          match s.seq? ra.toNat with
          | none => s.finishRange c.val id
          | some _ => (({ s with kvSeqs := s.kvSeqs.del ra.toNat }.freeFrom ra.toNat 0).startMoves 4).finish c.val id 0
        | _ => s))

/-- Greatest length that a sequence's limits allow (R117). -/
def KvSeq.limit (q : KvSeq) : Nat := match q.detent with | some (d, _) => min 1048576 (d + 64) | none => 1048576

/-- KV.EXT (R117, R205, R206). -/
def execKvExt (c : CoreId) (o : EngOp FmtY) (s : State) : Res :=
  .next (match o with
    | .issue h f => s.issueEngine c.val h 0xC2 (packY f) (fun k => .kvExt (k.sget f.ra.val) (k.sget f.rb.val) (k.sget f.rc.val) h.var)
    | .run id u => s.serveKv c.val id u (fun s e =>
        match e.op with
        | .kvExt ra rb rc try_ =>
          let q := ra.toNat
          match s.seq? q with
          | none => s.finishRange c.val id
          | some x =>
            let want := x.len + rb.toNat
            let goal := min want x.limit
            if !(spFits rc 8) || (!try_ && decide (want > x.limit)) then s.finishRange c.val id
            else
              let g := s.geom x.geom
              let b0 := blocksOf x.len
              let (t, short) := s.allocBlocks q g x.policy (blocksOf goal - b0) b0
              let put := fun (s : State) (n : Nat) =>
                ((s.setSeq q { x with len := n }).retryMoves).spWrite c.val rc.toNat (leBytes 8 n)
              match short with
              | none => (put t goal).finish c.val id 0
              | some b => if try_ then (put t (max x.len (16 * b))).finish c.val id 0 else s.finishRange c.val id
        | _ => s))

/-! ### Scales (R202) -/

/-- Head of element j of a row. -/
def KvGeom.headOf (g : KvGeom) (j : Nat) : Nat := j % (g.heads * g.width) / g.width

/-- Key of a scale in its page's record (R202). -/
def KvGeom.scaleKey (g : KvGeom) (layer h : Nat) : Nat := layer % g.perPage * g.heads + h

/-- FIXED_E8M0 decoded (R29). -/
def KvGeom.fixed (g : KvGeom) : Word32 := if g.e8m0 = 0xFF then f32Nan else toF32 (.fin false 1 ((g.e8m0 : Int) - 127))

/-- ⌈log₂(amax / 448)⌉ of a nonzero magnitude. -/
def scaleExp (amax : Num) : Int :=
  let l := amax.log2
  if amax.le ((Num.ofNat 448).scale (l - 8)) then l - 8 else l - 7

/-- First-write scale of one head from the finite magnitudes of its elements (R202). -/
def KvGeom.firstScale (g : KvGeom) (vs : List Num) : Word32 :=
  let fin := vs.filter Num.isFin
  let amax := Num.maxAbs fin
  if g.fixed1 ∨ fin.isEmpty ∨ amax.le .zero then g.fixed
  else toF32 (.fin false 1 (max (-127) (min 127 (scaleExp amax + g.head2))))

/-- E4M3 element of a value under a scale: SAT always (R42). -/
def kvEnc (scale : Word32) (v : Num) : Byte :=
  match f32 scale with
  | .fin _ m e => BitVec.ofNat 8 (fmtE4m3.enc true (v.scale (-(e + Nat.log2 m))))
  | _ => 0x7F#8

/-- Value of an element under a scale (R42). -/
def kvDec (scale : Word32) (b : Byte) : Word32 :=
  match f32 scale with
  | .fin n m e => toF32 ((fmtE4m3.dec b.toNat).mul (.fin n m e))
  | _ => f32Nan

/-- Set the unset scales of a layer in a page from the rows that fall in it (R202). -/
def State.setScales (s : State) (pg : KvPage) (g : KvGeom) (layer : Nat) (rows : List (List Num)) : State :=
  let sc := (List.range g.heads).foldl (fun (t : Tab Word32) h =>
    let key := g.scaleKey layer h
    if (t.lookup key).isSome then t
    else
      let vs := rows.flatMap (fun r => (r.zipIdx.filter (fun p => g.headOf p.2 == h)).map Prod.fst)
      t.put key (g.firstScale vs)) pg.scales
  State.kvTouch { s with kvPages := s.kvPages.map (fun (x : KvPage) =>
    if x.seq == pg.seq && x.block == pg.block && x.group == pg.group then { x with scales := sc } else x) }

/-- Scale of a head of a layer in a page: FIXED_E8M0 while unset. -/
def KvPage.scale (p : KvPage) (g : KvGeom) (layer h : Nat) : Word32 := (p.scales.lookup (g.scaleKey layer h)).getD g.fixed

/-- KV.PUT (R42, R117, R200-R202, R206). -/
def execKvPut (c : CoreId) (o : EngOp FmtY) (s : State) : Res :=
  .next (match o with
    | .issue h f => s.issueEngine c.val h 0xC3 (packY f) (fun k => .kvPut (k.tget f.ts.val) (k.sget f.ra.val) (k.sget f.rb.val) (k.sget f.rc.val))
    | .run id u => s.serveKv c.val id u (fun s e =>
        match e.op with
        | .kvPut ts ra rb rc =>
          let t := Tile.of ts
          let q := ra.toNat
          let layer := rb.toNat
          if t.fmt > 2 then s.finishUndef c.val id e
          else match s.seq? q, t.check with
            | some x, none =>
              let g := s.geom x.geom
              match (if t.cols = g.rowLen then s.kvRun x rb rc t.rows else none) with
              | none => s.finishRange c.val id
              | some ps =>
                match (s.core c.val).badIn t.ranges with
                | some w => s.finishEcc c.val id 2 w
                | none =>
                  if ps.any (fun p => match s.pageOf q g layer p with | some pg => pg.move.isSome | none => false)
                    || (s.kvPutRows ts ra rb rc).any (fun w => s.memWaits w.1 w.2.1 w.2.2) then s
                  else
                    let m := (s.core c.val).sp
                    let rows := ps.zipIdx.map (fun p => (p.1, (List.range t.cols).map (fun j => t.elem m p.2 j)))
                    let blocks := (ps.map (fun p => p / 16)).dedup
                    let s := blocks.foldl (fun s b =>
                      match s.pageOf q g layer (16 * b) with
                      | some pg => s.setScales pg g layer ((rows.filter (fun r => r.1 / 16 == b)).map Prod.snd)
                      | none => s) s
                    let rs := rows.foldl (fun (x : State × Option (Nat × Nat)) r =>
                      match x.1.pageOf q g layer r.1 with
                      | some pg =>
                        let (sp, off) := x.1.pageAt pg.pool pg.index
                        let bs := r.2.zipIdx.map (fun v => kvEnc (pg.scale g layer (g.headOf v.2)) v.1)
                        let (b, s) := x.1.writeSpace u sp (off + g.rowAt layer r.1) (x.1.pool pg.pool).hint 1 bs
                        (s, x.2.orElse (fun _ => b.at?.map (fun w => (sp, w))))
                      | none => x) (s, none)
                    match rs.2 with
                    | some (sp, w) => rs.1.finishEcc c.val id sp w
                    | none => rs.1.finish c.val id 0
            | _, _ => s.finishRange c.val id
        | _ => s))

/-- KV.GET (R42, R117, R200-R202, R206). (DESIGN CHOICE, assumption 82.) -/
def execKvGet (c : CoreId) (o : EngOp FmtY) (s : State) : Res :=
  .next (match o with
    | .issue h f => s.issueEngine c.val h 0xC4 (packY f) (fun k => .kvGet (k.tget f.ts.val) (k.sget f.ra.val) (k.sget f.rb.val) (k.sget f.rc.val) (k.sget f.rd.val))
    | .run id u => s.serveKv c.val id u (fun s e =>
        match e.op with
        | .kvGet td ra rb rc rd =>
          let t := Tile.of td
          let q := ra.toNat
          let layer := rb.toNat
          let n := rd.toNat
          if !(t.fmt == Fmt.e4m3 || t.fmt ≤ 1) then s.finishUndef c.val id e
          else match s.seq? q, t.check with
            | some x, none =>
              let g := s.geom x.geom
              match (if t.cols = g.rowLen ∧ n ≤ t.rows then s.kvRun x rb rc n else none) with
              | none => s.finishRange c.val id
              | some ps =>
                let blocks := (ps.map (fun p => p / 16)).dedup
                if t.fmt = Fmt.e4m3 ∧ t.scale + 4 * blocks.length * g.heads > spSize then s.finishRange c.val id
                else if ps.any (fun p => match s.pageOf q g layer p with
                    | some pg => s.memWaits (s.pageAt pg.pool pg.index).1 ((s.pageAt pg.pool pg.index).2 + g.rowAt layer p) g.rowLen
                    | none => false) then s
                else
                  let rs := ps.foldl (fun (r : List (Nat × KvPage × List Byte) × Option (Nat × Nat) × State) p =>
                    match r.2.2.pageOf q g layer p with
                    | some pg =>
                      let (sp, off) := r.2.2.pageAt pg.pool pg.index
                      let (bs, b, s) := r.2.2.readSpace u sp (off + g.rowAt layer p) g.rowLen (r.2.2.pool pg.pool).hint 1
                      (r.1 ++ [(p, pg, bs)], r.2.1.orElse (fun _ => b.at?.map (fun w => (sp, w))), s)
                    | none => r) ([], none, s)
                  let s := rs.2.2
                  match rs.2.1 with
                  | some (sp, w) => s.finishEcc c.val id sp w
                  | none =>
                    let s := rs.1.zipIdx.foldl (fun s r =>
                      let (row, i) := r
                      if t.fmt = Fmt.e4m3 then s.spWrite c.val (t.rowAt i) row.2.2
                      else s.storeWords c.val t i 0 false e.sat (row.2.2.zipIdx.map (fun v => kvDec (row.2.1.scale g layer (g.headOf v.2)) v.1))) s
                    let scales := blocks.flatMap (fun b => (List.range g.heads).flatMap (fun h =>
                      leBytes 4 (match s.pageOf q g layer (16 * b) with | some pg => (pg.scale g layer h).toNat | none => 0)))
                    (if t.fmt = Fmt.e4m3 then s.spWrite c.val t.scale scales else s).finish c.val id 0
            | _, _ => s.finishRange c.val id
        | _ => s))

/-! ### Detents (R208) -/

/-- KV.DETENT: a detent already held is first committed in full (R117, R208). -/
def execKvDetent (c : CoreId) (o : EngOp FmtY) (s : State) : Res :=
  .next (match o with
    | .issue h f => s.issueEngine c.val h 0xC5 (packY f) (fun k => .kvDetent (k.sget f.ra.val))
    | .run id u => s.serveKv c.val id u (fun s e =>
        match e.op with
        | .kvDetent ra =>
          match s.seq? ra.toNat with
          | none => s.finishRange c.val id
          | some x => ((s.setSeq ra.toNat { x with detent := some (x.len, x.counter), epoch := x.epoch + 1 }).startMoves 4).finish c.val id 0
        | _ => s))

/-- Resolve a detent to a length and a counter, freeing the pages wholly beyond (R207, R208). -/
def State.resolve (s : State) (q len : Nat) (counter : Word) : State :=
  match s.seq? q with
  | some x => ((s.setSeq q { x with len := len, counter := counter, detent := none }).freeFrom q (blocksOf len)).startMoves 4
  | none => s

/-- The 512-byte miss report (R95). -/
def missReport (t : Tab Word) : List Byte := (List.range 64).flatMap (fun j => leBytes 8 (Tab.get t 0 j).toNat)

/-- The C0 multicast of a resolved detent: it leaves as a packet of the transaction table, and its instruction waits
(R118, R209). (DESIGN CHOICE, assumption 28.) -/
def State.kvMulticast (s : State) (c id q epoch kind len : Nat) (counter rc rd : Word) : State :=
  let m : MaskPair := { inRack := rc, racks := rd }
  let payload := leBytes 8 rc.toNat ++ leBytes 8 rd.toNat ++ leBytes 2 q ++ leBytes 2 epoch ++ leBytes 4 kind ++ leBytes 8 len ++ leBytes 8 counter.toNat
  let s := s.await c id 1 false
  if rc = 0 ∨ rd = 0 then s
  else s.request c id { s.ctl PT.kvUpdate 0 0 (s.coreJob c) 0 0 payload with mask := m } [] none (maskMembers m)

/-- The update of an instruction has not passed this module's router yet, or an MC_MISS for it is on its way inside the
module (R118, R311). -/
def State.kvAfoot (s : State) (c id : Nat) : Bool :=
  s.txns.any (fun x => x.core == c && x.id == id && x.pkt.typ.val == PT.kvUpdate && !x.spent
    && (x.held || s.held.any (fun h => !h.started && h.arrived.isNone && h.pkt == x.pkt)
      || s.held.any (fun h => h.pkt.typ.val == PT.mcMiss && h.pkt.tag == x.tag && h.pkt.dst == s.modNum)
      || s.hubIn.any (fun p => p.typ.val == PT.mcMiss && p.tag == x.tag)))

/-- The instruction resolves a detent. -/
def EInst.resolves (i : EInst) : Bool :=
  match i with
  | .kvCommit .. => true
  | .kvRollback .. => true
  | _ => false

/-- A further run of a KV.COMMIT or KV.ROLLBACK whose update has left: it completes, with PARTIAL_DELIVERY where an
MC_MISS has named a destination by then, and writes the miss report; a later MC_MISS finds no transaction. (DESIGN CHOICE,
assumption 28.) -/
def State.kvSent (s : State) (c id : Nat) : State :=
  match (s.core c).entry? id with
  | some e =>
    if e.phase != .waiting || !e.op.resolves || s.failed || s.kvAfoot c id then s
    else
      let s := (s.txns.filter (fun (x : Txn) => x.core == c && x.id == id)).foldl (fun s x => s.closeTxn x.tag) s
      let s := if e.slotEn then s.spWrite c (e.slot * 8 + 8) (missReport e.missed) else s
      s.finish c id (if e.missed.any (fun x => x.2 != 0) then Status.partialDelivery else Status.ok)
  | none => s

/-- A SLOT whose miss report would pass the end of SP (R118). -/
def Entry.reportBad (e : Entry) (mc : Bool) : Bool := mc && e.slotEn && decide (e.slot * 8 + 8 + 512 > spSize)

/-- KV.COMMIT (R117, R118, R208). -/
def execKvCommit (c : CoreId) (o : EngOp FmtY) (s : State) : Res :=
  .next (match o with
    | .issue h f => s.issueEngine c.val h 0xC6 (packY f) (fun k => .kvCommit (k.sget f.ra.val) (k.sget f.rb.val) (k.sget f.rc.val) (k.sget f.rd.val) h.var)
    | .run id u => (s.serveKv c.val id u (fun s e =>
        match e.op with
        | .kvCommit ra rb rc rd mc =>
          let q := ra.toNat
          if e.reportBad mc then s.finishRange c.val id
          else match s.seq? q with
            | none => s.finishRange c.val id
            | some x =>
              match x.detent with
              | some (d, _) =>
                let n := d + min rb.toNat (x.len - d)
                let s := s.resolve q n x.counter
                if mc then s.kvMulticast c.val id q x.epoch.toNat 0 n x.counter rc rd else s.finish c.val id 0
              | none => s.finish c.val id 0
        | _ => s)).kvSent c.val id)

/-- KV.ROLLBACK (R117, R118, R208). -/
def execKvRollback (c : CoreId) (o : EngOp FmtY) (s : State) : Res :=
  .next (match o with
    | .issue h f => s.issueEngine c.val h 0xC7 (packY f) (fun k => .kvRollback (k.sget f.ra.val) (k.sget f.rc.val) (k.sget f.rd.val) h.var)
    | .run id u => (s.serveKv c.val id u (fun s e =>
        match e.op with
        | .kvRollback ra rc rd mc =>
          let q := ra.toNat
          if e.reportBad mc then s.finishRange c.val id
          else match s.seq? q with
            | none => s.finishRange c.val id
            | some x =>
              match x.detent with
              | some (d, k) =>
                let s := s.resolve q d k
                if mc then s.kvMulticast c.val id q x.epoch.toNat 1 d k rc rd else s.finish c.val id 0
              | none => s.finish c.val id 0
        | _ => s)).kvSent c.val id)

/-- A stale remote update: counted and logged (R209). -/
def State.kvStale (s : State) (q epoch : Nat) : State :=
  (s.bump Reg.KV_STAT_MC_STALE 1).raise { Fault_.blank 0 Status.ok 0x0803 with info0 := BitVec.ofNat 64 q, info1 := BitVec.ofNat 64 epoch }

/-- KV_UPDATE: a remote update is applied, discarded without record, or stale (R209). -/
def execKvUpdate (p : Packet) (s : State) : Res :=
  let s := s.takeHub p
  let b := p.payload
  let q := leNat ((b.drop 16).take 2)
  let ep := leNat ((b.drop 18).take 2)
  let len := leNat ((b.drop 24).take 8)
  let ctr := BitVec.ofNat 64 (leNat ((b.drop 32).take 8))
  .next (if s.failed then s
    else match s.seq? q with
    | none => s.kvStale q ep
    | some x =>
      if x.epoch.toNat ≠ ep then s.kvStale q ep
      else match x.detent with
        | some _ => if len ≤ x.len then s.resolve q len ctr else s.kvStale q ep
        | none => if x.len = len ∧ x.counter = ctr then s else s.kvStale q ep)

/-! ### Clearing and configuration (R215) -/

/-- KV_CTL.CLEAR: every sequence is freed; CLEAR reads 1 until done. -/
def State.kvClearAll (s : State) : State :=
  { s with kvSeqs := [], kvPages := [], kvLazy := s.kvLazy ++ s.kvPages.map (fun (p : KvPage) => (p.pool, p.index)) }.kvTouch.kvApply.wr Reg.KV_CTL_CLEAR 1

/-- KV_CLEAR (R215). -/
def execKvClear (s : State) : Res := .next (if s.failed ∨ s.rd Reg.GLB_BOOT_STAGE ≠ 4 then s else s.kvClearAll)

/-- KV_CLEAR_DONE: CLEAR reads 0 and the waiting instructions are served (R215). -/
def execKvClearDone (s : State) : Res := .next (s.wr Reg.KV_CTL_CLEAR 0)

/-- KV_CONFIG_APPLY: writes held for a geometry or a pool take effect once nothing uses it (R215). -/
def execKvConfigApply (s : State) : Res := .next s.kvApply

/-! ### The keyed generator (R212) -/

/-- One round. -/
def kvRound (k2 k3 : Word32) (x : Word32 × Word32 × Word32 × Word32) (r : Nat) : Word32 × Word32 × Word32 × Word32 :=
  let (x0, x1, x2, x3) := x
  let x0 := x0 + x1
  let x3 := (x3 ^^^ x0).rotateLeft 16
  let x2 := x2 + x3
  let x1 := (x1 ^^^ x2).rotateLeft 12
  let x0 := x0 + x1
  let x3 := (x3 ^^^ x0).rotateLeft 8
  let x2 := x2 + x3
  let x1 := (x1 ^^^ x2).rotateLeft 7
  (x0 ^^^ k2, x1 + BitVec.ofNat 32 (r + 1), x2, x3 ^^^ k3)

/-- Output of the generator for a key and a counter. -/
def kvGen (key : BitVec 128) (ctr : Word) : Word32 :=
  let k := fun i => key.extractLsb' (32 * i) 32
  let x := (List.range 8).foldl (kvRound (k 2) (k 3)) (ctr.extractLsb' 0 32, ctr.extractLsb' 32 32, k 0, k 1)
  x.1 ^^^ x.2.2.1

/-- A draw: out[31:8] × 2^-24 with the counter used, after which the counter is 1 higher; none for a free
sequence or a disabled manager (R203, R212). -/
def State.draw (s : State) (q : Nat) : Option (Word32 × Word × State) :=
  if s.kvDisabled then none
  else match s.seq? q with
    | none => none
    | some x => some (toF32 (.fin false ((kvGen x.key x.counter).toNat / 256) (-24)), x.counter, s.setSeq q { x with counter := x.counter + 1 })

end Sys2Proof.Machine
end

