-- ==== Sys2Proof/Machine/Coll.lean ====
section
/-! DEFINITION. Collectives: groups, the reduction tree, publications, the reduction store, results, and how a
collective ends (R120-R122, R292-R313). -/

namespace Sys2Proof.Machine

/-! ### Groups (R292) -/

/-- A descriptor's fields, from its bytes 0-63. -/
def dGid (d : List Byte) : Nat := leNat (d.take 2)
def dWeight (d : List Byte) : Nat := max 1 (leNat ((d.drop 2).take 1))
def dChunk (d : List Byte) : Nat := min 64 (max 4 (pow2Floor (max 1 (leNat ((d.drop 3).take 1))))) * 1024
def dRoots (d : List Byte) : List Nat :=
  (List.range (max 1 (min 8 (leNat ((d.drop 4).take 1))))).map (fun i => leNat ((d.drop (32 + 2 * i)).take 2))
def dCores (d : List Byte) : Nat := leNat ((d.drop 8).take 6)
def dMask (d : List Byte) : MaskPair :=
  { inRack := BitVec.ofNat 64 (leNat ((d.drop 16).take 8)), racks := BitVec.ofNat 64 (leNat ((d.drop 24).take 8)) }

/-- A core is a member. -/
def dCore (d : List Byte) (c : Nat) : Bool := decide (c < 48) && (dCores d).testBit c

/-- Member modules in increasing number. -/
def Coll.members (x : Coll) : List Nat := maskMembers (dMask x.desc)

/-- Member cores of a member module. -/
def Coll.memberCores (x : Coll) : List Nat := (List.range 48).filter (dCore x.desc)

/-! ### Elements and chunks (R295, R298) -/

/-- Bytes of an element of TYPE. -/
def Coll.esz (x : Coll) : Nat := if x.typ = 0 then 4 else 2

/-- Elements of a chunk. -/
def Coll.ce (x : Coll) : Nat := dChunk x.desc / x.esz

/-- Pieces of `ce` elements of a range, each with the module that owns it. -/
def pieces (ce lo hi owner : Nat) : List (Nat × Nat × Nat) :=
  (List.range ((hi - lo + ce - 1) / ce)).map (fun k => (lo + k * ce, min ce (hi - (lo + k * ce)), owner))

/-- Share of rank r (R295). -/
def Coll.share (x : Coll) (r : Nat) : Nat × Nat := (r * x.count / x.members.length, (r + 1) * x.count / x.members.length)

/-- The root of all-reduce, broadcast and reduce. -/
def Coll.root (x : Coll) : Nat := let r := dRoots x.desc; r.getD (x.seq % r.length) 0

/-- Chunks: first element, elements, and root, share owner or source (R295, R298). -/
def Coll.chunks (x : Coll) : List (Nat × Nat × Nat) :=
  if x.kind = 1 ∨ x.kind = 2 then
    x.members.zipIdx.flatMap (fun p => let s := x.share p.2; pieces x.ce s.1 s.2 p.1)
  else pieces x.ce 0 x.count x.root

/-- Kinds that reduce. -/
def Coll.reduces (x : Coll) : Bool := x.kind == 0 || x.kind == 1 || x.kind == 4

def Coll.chunk (x : Coll) (k : Nat) : Nat × Nat × Nat := x.chunks.getD k (0, 0, 0)

/-- Root, share owner or source of a chunk. -/
def Coll.rootOf (x : Coll) (k : Nat) : Nat := (x.chunk k).2.2

/-- Bytes of a chunk. -/
def Coll.bytesOf (x : Coll) (k : Nat) : Nat := (x.chunk k).2.1 * x.esz

/-- Data packets of a chunk (R298). -/
def Coll.packets (x : Coll) (k : Nat) : Nat := (x.bytesOf k + 4095) / 4096

/-! ### The tree (R299) -/

def mX (m : Nat) : Nat := m % 8
def mY (m : Nat) : Nat := m / 8 % 8
def mZ (m : Nat) : Nat := m / 64 % 8
def mW (m : Nat) : Nat := m / 512

/-- A position's module number. -/
def mAt (x y z w : Nat) : Nat := w * 512 + z * 64 + y * 8 + x

/-- Parent of a member for a root. -/
def treeParent (mask : MaskPair) (r m : Nat) : Option Nat :=
  if m = r then none
  else if mX m ≠ mX r ∨ mY m ≠ mY r then
    let col := mAt (mX m) (mY r) (mZ m) (mW m)
    if mY m ≠ mY r ∧ maskNames mask col then some col else some (mAt (mX r) (mY r) (mZ m) (mW m))
  else
    let line := mAt (mX r) (mY r) (mZ m) (mW r)
    if mW m ≠ mW r ∧ maskNames mask line then some line else some r

/-- Children of a member for a root. -/
def Coll.children (x : Coll) (r m : Nat) : List Nat := x.members.filter (fun d => treeParent (dMask x.desc) r d == some m)

/-- Children to which results go: a padlocked child of a broadcast is replaced by its own children (R309). -/
def State.liveChildren (s : State) (x : Coll) (r : Nat) : Nat → Nat → List Nat
  | 0, _ => []
  | n + 1, m => (x.children r m).flatMap (fun d => if x.kind = 3 ∧ s.padlocked d then s.liveChildren x r n d else [d])

/-! ### Records of the module -/

def State.coll? (s : State) (gid seq : Nat) : Option Coll := s.colls.find? (fun x => x.gid == gid && x.seq == seq)

def State.modColl (s : State) (gid seq : Nat) (f : Coll → Coll) : State :=
  { s with colls := s.colls.map (fun x => if x.gid == gid && x.seq == seq then f x else x) }

/-- The collective that a packet names by GID and SEQ[3:0]. -/
def State.collBy (s : State) (gid seq4 : Nat) : Option Coll := s.colls.find? (fun x => x.gid == gid && x.seq % 16 == seq4)

/-- A handle of the collective is open on the module. -/
def Coll.isOpen (x : Coll) : Bool := x.opens.any (fun o => !o.fin)

/-- Groups active on the module (R294). -/
def State.activeGroups (s : State) : List Nat := ((s.colls.filter Coll.isOpen).map Coll.gid).dedup

/-- Slot of a chunk. -/
def State.slot? (s : State) (gid seq4 chunk : Nat) : Option CSlot := s.store.find? (fun k => k.gid == gid && k.seq % 16 == seq4 && k.chunk == chunk)

def State.modSlot (s : State) (gid seq4 chunk : Nat) (f : CSlot → CSlot) : State :=
  { s with store := s.store.map (fun k => if k.gid == gid && k.seq % 16 == seq4 && k.chunk == chunk then f k else k) }

/-- Slots that a group holds. -/
def State.slotsOf (s : State) (gid : Nat) : Nat := (s.store.filter (fun k => k.gid == gid)).length

/-- May a group take one more slot (R300)? -/
def State.slotFree (s : State) (gid : Nat) : Bool :=
  let active := s.activeGroups
  let shared := (((s.store.map CSlot.gid).dedup).map (fun g => if active.contains g then s.slotsOf g - 1 else s.slotsOf g)).sum
  (active.contains gid && s.slotsOf gid == 0) || decide (shared < 128 - active.length)

/-- Take a slot for a chunk, or fail. -/
def State.takeSlot (s : State) (gid seq chunk : Nat) : Option State :=
  if (s.slot? gid (seq % 16) chunk).isSome then some s
  else if s.slotFree gid then
    some { s with store := s.store ++ [{ gid := gid, seq := seq, chunk := chunk, inputs := [], out := none, final := none, consumed := [], held := [] }] }
  else none

def State.dropSlot (s : State) (gid seq chunk : Nat) : State :=
  { s with store := s.store.filter (fun k => !(k.gid == gid && k.seq % 16 == seq % 16 && k.chunk == chunk)) }

/-! ### Packets (R312, R313) -/

/-- A data packet of a chunk: `down` for a result. -/
def State.collData (s : State) (x : Coll) (dst k p gen : Nat) (down : Bool) (ccrc : Word32) (bs : List Byte) : Packet :=
  { s.dataPkt PT.collData 1 dst x.job 0 0 bs with
    tag := down.toNat + gen % 8 * 2,
    offset := BitVec.ofNat 40 (x.gid + k * 2 ^ 16 + p * 2 ^ 32 + x.seq % 16 * 2 ^ 36), digest := x.digest, ccrc := ccrc }

/-- Send a chunk to a module, whole or the packets that a mask names. (DEDUCED, assumption 27.) -/
def State.sendChunk (s : State) (x : Coll) (dst k : Nat) (down : Bool) (only : Nat) (bs : List Byte) : State :=
  let crc := BitVec.ofNat 32 (crc32c bs)
  (List.range (x.packets k)).foldl (fun s p =>
    if only.testBit p then s.inject (s.collData x dst k p (Tab.get x.gens 0 k) down crc ((bs.drop (4096 * p)).take 4096)) else s) s

/-- Every packet of a chunk. -/
def allPackets : Nat := 0xFFFF

namespace CKind
def receipt : Nat := 1
def consumed : Nat := 2
def resend : Nat := 3
def abort : Nat := 4
def done : Nat := 5
def miss : Nat := 6
end CKind

/-- A control packet. -/
def State.collCtl (s : State) (x : Coll) (dst kind status chunk pkts : Nat) (mask : MaskPair) (gen flags : Nat) : Packet :=
  s.ctl PT.collCtl (if kind = CKind.abort then 0 else 1) dst x.job 0 0
    (leBytes 1 kind ++ leBytes 1 status ++ leBytes 2 x.gid ++ leBytes 4 x.seq ++ leBytes 4 x.digest.toNat ++ leBytes 2 chunk
      ++ leBytes 2 pkts ++ leBytes 8 mask.inRack.toNat ++ leBytes 8 mask.racks.toNat ++ leBytes 1 (gen % 8) ++ leBytes 1 flags)

def noMask : MaskPair := { inRack := 0, racks := 0 }

/-- Send a control packet; ABORT takes a C0 token (R302). -/
def State.sendCtl (s : State) (x : Coll) (dst kind status chunk pkts : Nat) (mask : MaskPair) (gen flags : Nat) : State :=
  s.sendFree hubCore (s.collCtl x dst kind status chunk pkts mask gen flags)

/-- Fields of a control payload. -/
def ccStatus (p : Packet) : Nat := leNat ((p.payload.drop 1).take 1)
def ccGid (p : Packet) : Nat := leNat ((p.payload.drop 2).take 2)
def ccSeq (p : Packet) : Nat := leNat ((p.payload.drop 4).take 4)
def ccChunk (p : Packet) : Nat := leNat ((p.payload.drop 12).take 2)
def ccPkts (p : Packet) : Nat := leNat ((p.payload.drop 14).take 2)
def ccMask (p : Packet) : MaskPair :=
  { inRack := BitVec.ofNat 64 (leNat ((p.payload.drop 16).take 8)), racks := BitVec.ofNat 64 (leNat ((p.payload.drop 24).take 8)) }
def ccGen (p : Packet) : Nat := leNat ((p.payload.drop 32).take 1) % 8
def ccFlags (p : Packet) : Nat := leNat ((p.payload.drop 33).take 1)

/-! ### Ends -/

/-- GID and SEQ as a record names them. -/
def Coll.name (x : Coll) : Word := BitVec.ofNat 64 (x.gid + x.seq * 2 ^ 16)

/-- Add to a counter of n bytes in HM. -/
def State.hmCount (s : State) (off n : Nat) : State := s.hmStore off (leBytes n (leNat (s.hm.readN off n) + 1))

/-- The status bytes of the group's descriptor when a collective ends on the module (R292). -/
def State.collStatus (s : State) (x : Coll) (st : Nat) : State :=
  let s := if st = Status.ok ∨ st = Status.partialDelivery then s.hmCount (x.descAt + 64) 8
    else if st = Status.collMismatch then s.hmCount (x.descAt + 80) 4
    else s.hmCount (x.descAt + 84) 4
  s.hmStore (x.descAt + 88) (leBytes 4 x.seq ++ leBytes 1 st ++ List.replicate 35 0)

/-- Fill a tile's rows with unspecified bytes (R139). -/
def State.junkTile (s : State) (c : Nat) (t : Tile) : State :=
  let (g, s) := s.freshJunk
  t.ranges.foldl (fun s r => s.modCore c (fun k => { k with sp := k.sp.smudge r.1 r.2 g })) s

/-- The publication of an instruction goes to a handle: a COLL.PUB, or an MM.DRAIN under `pub` (R106, R121). -/
def EInst.pubOn (i : EInst) (h : Nat) : Bool :=
  match i with
  | .collPub _ _ g => g == h
  | .mmDrain _ _ g _ pub => pub && g == h
  | _ => false

/-- The publications of a handle that are still to be served when its collective ends report its status (R122). -/
def Core.pubsEnd (k : Core) (o : CollOpen) (st : Nat) (name : Word) : Core :=
  let opens := fun (x : Entry) => match x.op with | .collOpen _ _ _ g => g == o.handle | _ => false
  { k with window := k.window.map (fun e =>
      if decide (o.id < e.id) && (e.phase == .queued || e.phase == .dispatched) && e.op.pubOn o.handle
        && k.window.all (fun x => !(opens x && decide (o.id < x.id) && decide (x.id < e.id)))
      then { e with bad := st, info := name } else e) }

/-- A collective that ends with a status other than OK leaves td unspecified: under COLL_ABORTED, and where chunks of an
all-gather or broadcast have been written (R122, R305). -/
def State.spoilTd (s : State) (x : Coll) (o : CollOpen) (st : Nat) : State :=
  if st = Status.collAborted ∨ ((x.kind = 2 ∨ x.kind = 3) ∧ o.got ≠ []) then s.junkTile o.core (Tile.of o.td) else s

/-- Complete a COLL.OPEN and close its handle (R122). -/
def State.closeOpen (s : State) (x : Coll) (o : CollOpen) (st : Nat) : State :=
  let s := s.modCore o.core (fun k => { k with handles := k.handles.setIfInBounds o.handle none })
  let s := s.modColl x.gid x.seq (fun y => { y with opens := y.opens.map (fun z => if z == o then { z with fin := true } else z) })
  if st = Status.ok ∨ st = Status.partialDelivery then s.finish o.core o.id st
  else ((s.spoilTd x o st).modCore o.core (fun k => k.pubsEnd o st x.name)).finishBad o.core o.id st 0x0802 0 x.name

/-- Status of a completing handle: PARTIAL_DELIVERY at the root of a broadcast with padlocked members (R122,
R309, R311). -/
def State.okStatus (s : State) (x : Coll) : Nat :=
  if x.kind = 3 ∧ x.root = s.modNum ∧ (x.missed ≠ [] ∨ x.members.any s.padlocked) then Status.partialDelivery else Status.ok

/-- The miss report of a broadcast's root, where SLOT_EN asks for it (R311). -/
def State.collReport (s : State) (x : Coll) (o : CollOpen) : State :=
  match (s.core o.core).entry? o.id with
  | some e =>
    if e.slotEn ∧ e.slot * 8 + 8 + 512 ≤ spSize then
      let lost := (x.members.filter s.padlocked).foldl (fun (t : Tab Word) d => t.put (rackBit d) (Tab.get t 0 (rackBit d) ||| BitVec.twoPow 64 (inRackBit d))) x.missed
      s.spWrite o.core (e.slot * 8 + 8) (missReport lost)
    else s
  | none => s

/-- Chunks that a core of this module is due (R295). -/
def Coll.due (x : Coll) (here : Nat) : List Nat :=
  match x.kind with
  | 1 => (List.range x.chunks.length).filter (fun k => x.rootOf k == here)
  | 4 => if x.root = here then List.range x.chunks.length else []
  | _ => List.range x.chunks.length

/-- A non-root core of a reduce waits for the root's DONE for every chunk instead (R295). -/
def Coll.waitsDone (x : Coll) (here : Nat) : Bool := x.kind == 4 && x.root != here

/-- Has a handle met its completion (R295)? -/
def Coll.met (x : Coll) (here : Nat) (o : CollOpen) : Bool :=
  if x.waitsDone here then (List.range x.chunks.length).all x.dones.contains else (x.due here).all o.got.contains

/-- Every member core has completed. -/
def Coll.allDone (x : Coll) : Bool := x.memberCores.all (fun c => x.opens.any (fun o => o.core == c && o.fin)) && !x.isOpen

/-- The collective's record goes once its cores have completed and no duty of the module is left. -/
def State.collReap (s : State) (gid seq : Nat) : State :=
  match s.coll? gid seq with
  | none => s
  | some x =>
    let s := if x.allDone ∧ x.counted = false then (s.collStatus x (s.okStatus x)).modColl gid seq (fun y => { y with counted := true }) else s
    if x.allDone && !(s.store.any (fun k => k.gid == gid && k.seq == seq)) && (!x.reduces || (List.range x.chunks.length).all x.sent.contains) then
      { s with colls := s.colls.filter (fun y => !(y.gid == gid && y.seq == seq)) }
    else s

/-- Complete the handles that have met their completion. -/
def State.collComplete (s : State) (gid seq : Nat) : State :=
  match s.coll? gid seq with
  | none => s
  | some x =>
    let here := s.modNum
    let st := s.okStatus x
    let s := (x.opens.filter (fun o => !o.fin && x.met here o)).foldl (fun s o =>
      (if st = Status.partialDelivery then s.collReport x o else s).closeOpen x o st) s
    s.collReap gid seq

/-- The module ends a collective with a status other than OK: its handles complete, its slots and waiting inputs
go, and the triple is kept (R122, R305). -/
def State.collEnd (s : State) (x : Coll) (st : Nat) (passed : Bool) : State :=
  let s := s.collStatus x st
  let opens := x.opens.filter (fun o => !o.fin)
  let s := opens.foldl (fun s o => s.closeOpen x o st) s
  let s := if st = Status.collAborted then s.raise { Fault_.blank 0 st 0x0803 with job := x.job, info0 := x.name }
    else if opens.isEmpty then s.raise { Fault_.blank (if st = Status.tainted then 4 else 3) st 0x0802 with job := x.job, info0 := x.name }
    else s
  { s with
    colls := s.colls.filter (fun y => !(y.gid == x.gid && y.seq == x.seq)),
    store := s.store.filter (fun k => !(k.gid == x.gid && k.seq % 16 == x.seq % 16)),
    storeWait := s.storeWait.filter (fun p => !(fld p.offset.toNat 0 16 == x.gid && fld p.offset.toNat 36 4 == x.seq % 16)),
    triples := ({ coll := x, status := st, passed := passed } :: s.triples).take 64 }

/-- Send ABORT to the children of this module in the tree of the collective's root. (DEDUCED, assumption 27.) -/
def State.passAbort (s : State) (x : Coll) (st : Nat) : State :=
  (x.children x.root s.modNum).foldl (fun s d => s.sendCtl x d CKind.abort st 0 0 noMask 0 2) s

/-- This module finds that a collective must end: it ends it here and sends ABORT to the root, which sends it
down the tree (R305). -/
def State.collFail (s : State) (x : Coll) (st : Nat) : State :=
  if x.root = s.modNum then (s.passAbort x st).collEnd x st true
  else (s.sendCtl x x.root CKind.abort st 0 0 noMask 0 2).collEnd x st false

/-! ### Reduction (R297, R301) -/

/-- Combination of two FP32 values. -/
def combine (op : Nat) (a b : Word32) : Word32 := if op = 0 then fadd a b else if op = 1 then fmax a b else fmin a b

/-- Elements of a payload, widened to FP32. -/
def Coll.values (x : Coll) (bs : List Byte) : List Word32 :=
  (splitLe x.esz (bs.length / x.esz) bs).map (fun v => if x.typ = 0 then BitVec.ofNat 32 v else toF32 (fmtBf16.dec v))

/-- Bytes of FP32 results converted to TYPE, without SAT. -/
def Coll.output (x : Coll) (vs : List Word32) : List Byte :=
  vs.flatMap (fun v => if x.typ = 0 then leBytes 4 v.toNat else leBytes 2 (fmtBf16.enc false (f32 v)))

/-- Combination of one packet's inputs, in order of arrival. -/
def Coll.reduceOne (x : Coll) (ins : List (List Byte)) : List Byte :=
  match ins.map x.values with
  | [] => []
  | v :: vs => x.output (vs.foldl (fun a b => List.zipWith (combine x.op) a b) v)

/-- Output of a stage over every packet of a chunk. -/
def Coll.reduceAll (x : Coll) (k : Nat) (ins : List (Nat × Nat × List Byte)) : List Byte :=
  (List.range (x.packets k)).flatMap (fun p => x.reduceOne ((ins.filter (fun i => i.2.1 == p)).map (fun i => i.2.2)))

/-- A source's input is whole. -/
def Coll.inputWhole (x : Coll) (k : Nat) (ins : List (Nat × Nat × List Byte)) (src : Nat) : Bool :=
  (List.range (x.packets k)).all (fun p => ins.any (fun i => i.1 == src && i.2.1 == p))

/-- Payload of a source's whole input. -/
def inputBytes (n : Nat) (ins : List (Nat × Nat × List Byte)) (src : Nat) : List Byte :=
  (List.range n).flatMap (fun p => match ins.find? (fun i => i.1 == src && i.2.1 == p) with | some i => i.2.2 | none => [])

/-! ### Contributions (R296, R303) -/

/-- Does this module contribute to a chunk (R295)? -/
def Coll.contributes (x : Coll) (here k : Nat) : Bool := x.reduces || x.rootOf k == here

/-- Elements of a publication that fall in a range. -/
def CollPub.within (p : CollPub) (lo n : Nat) : Nat := min (p.first + p.num) (lo + n) - max p.first lo

/-- Every element of the chunk has been published. -/
def Coll.published (x : Coll) (k : Nat) : Bool :=
  let c := x.chunk k
  (x.pubs.map (fun p => p.within c.1 c.2.1)).sum == c.2.1

/-- Bytes of one published element, and whether its word in SP is uncorrectable. -/
def State.pubElem (s : State) (x : Coll) (e : Nat) : List Byte × Bool :=
  match x.pubs.find? (fun p => p.first ≤ e && e < p.first + p.num) with
  | none => ([], false)
  | some p =>
    let t := Tile.of p.ts
    let i := e - p.first
    let r := (s.core p.core).spRead (t.rowAt (i / t.cols) + i % t.cols * t.esz) t.esz
    (r.1, r.2.isBad)

/-- This module's contribution to a chunk, read from SP. -/
def State.contribution (s : State) (x : Coll) (k : Nat) : List Byte × Bool :=
  let c := x.chunk k
  (List.range c.2.1).foldl (fun r i => let q := s.pubElem x (c.1 + i); (r.1 ++ q.1, r.2 || q.2)) ([], false)

/-! ### Results -/

/-- Write a result chunk into a core's tile. -/
def State.landChunk (s : State) (x : Coll) (k : Nat) (bs : List Byte) (o : CollOpen) : State :=
  let t := Tile.of o.td
  let c := x.chunk k
  (List.range c.2.1).foldl (fun s i =>
    let e := c.1 + i
    s.spWrite o.core (t.rowAt (e / t.cols) + e % t.cols * t.esz) ((bs.drop (i * t.esz)).take t.esz)) s

/-- Members due a result, which the holder waits for: every member for the kinds that spread results, else the
root alone; padlocked members are left out (R306, R309). -/
def State.consumers (s : State) (x : Coll) (k : Nat) : List Nat :=
  if x.kind = 1 ∨ x.kind = 4 then [x.rootOf k] else x.members.filter (fun m => !(s.padlocked m) || m == s.modNum)

/-- A CONSUMED has come for a chunk: once all have, the slot is freed, and the root of a reduce sends DONE (R306). -/
def State.noteConsumed (s : State) (x : Coll) (k m : Nat) : State :=
  let s := s.modSlot x.gid (x.seq % 16) k (fun z => { z with consumed := if z.consumed.contains m then z.consumed else z.consumed ++ [m] })
  match s.slot? x.gid (x.seq % 16) k with
  | none => s
  | some z =>
    if z.final.isSome ∧ (s.consumers x k).all z.consumed.contains then
      let s := s.dropSlot x.gid x.seq k
      if x.kind = 4 then (x.children x.root s.modNum).foldl (fun s d => s.sendCtl x d CKind.done 0 k 0 noMask 0 0) s else s
    else s

/-- A whole result reaches the cores that have opened their handles; once every member core has it, CONSUMED goes
to the holder (R306). -/
def State.deliver (s : State) (gid seq k : Nat) : State :=
  match s.coll? gid seq with
  | none => s
  | some x =>
    match x.full.lookup k with
    | none => s
    | some bs =>
      let s := (x.opens.filter (fun o => !o.fin && !(o.got.contains k))).foldl (fun s o => s.landChunk x k bs o) s
      let s := s.modColl gid seq (fun y => { y with opens := y.opens.map (fun o => if o.got.contains k then o else { o with got := o.got ++ [k] }) })
      let every := x.memberCores.all (fun c => x.opens.any (fun o => o.core == c))
      if every then
        let s := s.modColl gid seq (fun y => { y with full := y.full.filter (fun f => f.1 != k), used := y.used ++ [k] })
        if x.rootOf k = s.modNum then s.noteConsumed x k s.modNum else s.sendCtl x (x.rootOf k) CKind.consumed 0 k 0 noMask 0 0
      else s

/-- Deliver every whole result, and complete what is met. -/
def State.deliverAll (s : State) (gid seq : Nat) : State :=
  match s.coll? gid seq with
  | none => s
  | some x => ((x.full.map Prod.fst).foldl (fun s k => s.deliver gid seq k) s).collComplete gid seq

/-- The holder of a final result releases it: down the tree and to its own cores (R299, R306). -/
def State.release (s : State) (x : Coll) (k : Nat) (bs : List Byte) : State :=
  let s := s.modSlot x.gid (x.seq % 16) k (fun z => { z with out := some bs, final := some s.clock })
  let kids := if x.kind = 1 ∨ x.kind = 4 then [] else s.liveChildren x (x.rootOf k) 12 s.modNum
  let s := kids.foldl (fun s d => s.sendChunk x d k true allPackets bs) s
  let s := if x.kind = 3 then ((x.members.filter (fun m => s.padlocked m && treeParent (dMask x.desc) x.root m == some s.modNum)).foldl (fun (s : State) m =>
      s.modColl x.gid x.seq (fun y => { y with missed := y.missed.put (rackBit m) (Tab.get y.missed 0 (rackBit m) ||| BitVec.twoPow 64 (inRackBit m)) })) s) else s
  (s.modColl x.gid x.seq (fun y => { y with full := y.full ++ [(k, bs)] })).deliver x.gid x.seq k

/-- A stage that has every input of a chunk forms its output (R301). -/
def State.stageCheck (s : State) (gid seq k : Nat) : State :=
  match s.coll? gid seq, s.slot? gid (seq % 16) k with
  | some x, some z =>
    let here := s.modNum
    let r := x.rootOf k
    if z.out.isNone ∧ (here :: x.children r here).all (x.inputWhole k z.inputs) then
      let bs := x.reduceAll k z.inputs
      if r = here then s.release x k bs
      else
        let s := s.modSlot gid (seq % 16) k (fun z => { z with out := some bs })
        match treeParent (dMask x.desc) r here with
        | some p => s.sendChunk x p k false allPackets bs
        | none => s
    else s
  | _, _ => s

/-- This module's own contribution to a chunk is complete: it goes to the parent, into the slot, or is released
(R299, R300, R306).  None where no slot is free. (DEDUCED, assumption 27.) -/
def State.contribute (s : State) (x : Coll) (k : Nat) : Option State :=
  let here := s.modNum
  let r := x.rootOf k
  let (bs, bad) := s.contribution x k
  let mark := fun (s : State) => s.modColl x.gid x.seq (fun y => { y with sent := y.sent ++ [k] })
  if bad then some (s.collFail x Status.collAborted)
  else if x.reduces && r != here && (x.children r here).isEmpty then
    some (mark (match treeParent (dMask x.desc) r here with | some p => s.sendChunk x p k false allPackets bs | none => s))
  else match s.takeSlot x.gid x.seq k with
    | none => none
    | some s =>
      let s := mark s
      if x.reduces then
        let ins := (List.range (x.packets k)).map (fun p => (here, p, (bs.drop (4096 * p)).take 4096))
        some ((s.modSlot x.gid (x.seq % 16) k (fun z => { z with inputs := z.inputs ++ ins })).stageCheck x.gid x.seq k)
      else some (s.release x k bs)

/-- Take complete contributions in increasing chunk order, as far as slots allow: a chunk does not start before the lower ones
(R300). -/
def State.advanceColl : Nat → State → Nat → Nat → State
  | 0, s, _, _ => s
  | n + 1, s, gid, seq =>
    match s.coll? gid seq with
    | none => s
    | some x =>
      match ((List.range x.chunks.length).find? (fun k => !(x.sent.contains k) && x.contributes s.modNum k)).filter x.published with
      | none => s.collComplete gid seq
      | some k => match s.contribute x k with
        | none => s.collComplete gid seq
        | some s => State.advanceColl n s gid seq

/-- Chunks at most. -/
def maxChunks : Nat := 65536

/-! ### Inputs and results that arrive (R300, R301, R305-R307) -/

/-- Fields of a collective data packet. -/
def cdGid (p : Packet) : Nat := fld p.offset.toNat 0 16
def cdChunk (p : Packet) : Nat := fld p.offset.toNat 16 16
def cdPkt (p : Packet) : Nat := fld p.offset.toNat 32 4
def cdSeq4 (p : Packet) : Nat := fld p.offset.toNat 36 4
def cdDown (p : Packet) : Bool := p.tag.testBit 0
def cdGen (p : Packet) : Nat := fld p.tag 1 3

/-- Ask the holder of the retained copy to send packets again (R307). -/
def State.askResend (s : State) (x : Coll) (dst k pkts : Nat) : State :=
  (s.sendCtl x dst CKind.resend 0 k pkts noMask (Tab.get x.gens 0 k) 0).hmCount (x.descAt + 72) 8

/-- An input's packet joins its slot; a whole input is checked by its CCRC and receipted (R301, R306, R307). -/
def State.addInput (s : State) (x : Coll) (p : Packet) : State :=
  let k := cdChunk p
  match s.slot? x.gid (x.seq % 16) k with
  | none => s
  | some z =>
    if z.out.isSome ∨ z.inputs.any (fun i => i.1 == p.src && i.2.1 == cdPkt p) then s
    else
      let ins := z.inputs ++ [(p.src, cdPkt p, p.payload)]
      if x.inputWhole k ins p.src then
        if BitVec.ofNat 32 (crc32c (inputBytes (x.packets k) ins p.src)) = p.ccrc then
          ((s.modSlot x.gid (x.seq % 16) k (fun z => { z with inputs := ins })).sendCtl x p.src CKind.receipt 0 k 0 noMask 0 0).stageCheck x.gid x.seq k
        else
          (s.modSlot x.gid (x.seq % 16) k (fun z => { z with inputs := ins.filter (fun i => i.1 != p.src) })).askResend x p.src k (2 ^ x.packets k - 1)
      else s.modSlot x.gid (x.seq % 16) k (fun z => { z with inputs := ins })

/-- A result's packet is passed on to this module's children and gathered; a whole result is checked by its CCRC
and delivered (R299, R306, R307). -/
def State.addResult (s : State) (x : Coll) (p : Packet) : State :=
  let k := cdChunk p
  if x.used.contains k ∨ (x.full.lookup k).isSome ∨ x.recv.any (fun r => r.1 == k && r.2.1 == cdPkt p) then s
  else
    let s := (s.liveChildren x (x.rootOf k) 12 s.modNum).foldl (fun (s : State) d => s.inject { p with dst := d, src := s.modNum, hops := 0, dl := false, dt := false }) s
    let s := if x.kind = 3 ∧ x.recv.all (fun r => r.1 != k) then (x.children x.root s.modNum).foldl (fun s d =>
        if s.padlocked d then s.sendCtl x x.root CKind.miss Status.padlocked k 0 { inRack := BitVec.twoPow 64 (inRackBit d), racks := BitVec.twoPow 64 (rackBit d) } 0 0 else s) s else s
    let recv := x.recv ++ [(k, cdPkt p, p.payload)]
    let mine := (recv.filter (fun r => r.1 == k)).map (fun r => (0, r.2.1, r.2.2))
    if x.inputWhole k mine 0 then
      let bs := inputBytes (x.packets k) mine 0
      let rest := recv.filter (fun r => r.1 != k)
      if BitVec.ofNat 32 (crc32c bs) = p.ccrc then
        ((s.modColl x.gid x.seq (fun y => { y with recv := rest, full := y.full ++ [(k, bs)] })).deliver x.gid x.seq k).collComplete x.gid x.seq
      else (s.modColl x.gid x.seq (fun y => { y with recv := rest })).askResend x (x.rootOf k) k (2 ^ x.packets k - 1)
    else s.modColl x.gid x.seq (fun y => { y with recv := recv })

/-- A packet of a collective that is open on the module: the digest is compared first; a packet of another
generation, and an input of a module whose parent is another, are discarded (R299, R301, R305).  None where the packet
must wait for a slot. -/
def State.collInput (s : State) (x : Coll) (p : Packet) : Option State :=
  if p.digest ≠ x.digest then some (s.collFail x Status.collMismatch)
  else if cdChunk p ≥ x.chunks.length ∨ cdGen p ≠ Tab.get x.gens 0 (cdChunk p) then some s
  else if cdDown p then some (s.addResult x p)
  else if !(x.children (x.rootOf (cdChunk p)) s.modNum).contains p.src then some s
  else (s.takeSlot x.gid x.seq (cdChunk p)).map (fun s => s.addInput x p)

/-- A collective data packet at the hub: for an open collective, an aborted one, or one not yet open (R300,
R305).  None where it must wait for a slot. -/
def State.collArrive (s : State) (p : Packet) : Option State :=
  match s.collBy (cdGid p) (cdSeq4 p) with
  | some x => s.collInput x p
  | none =>
    if s.triples.any (fun t => t.coll.gid == cdGid p && t.coll.seq % 16 == cdSeq4 p) then some s
    else (s.takeSlot (cdGid p) (cdSeq4 p) (cdChunk p)).map (fun s =>
      s.modSlot (cdGid p) (cdSeq4 p) (cdChunk p) (fun z => { z with held := z.held ++ [p] }))

/-- An input that must wait for a slot of the store: it stays in its virtual channel, without credits (R300). -/
def State.wantsSlot (s : State) (p : Packet) : Bool :=
  p.typ.val == PT.collData && BitVec.ofNat 32 (crc32c p.payload) == p.pcrc && (s.collArrive p).isNone

/-- COLL data packet (R301, R307): one whose PCRC fails is discarded and asked for again. -/
def execCollDataPacket (p : Packet) (s : State) : Res :=
  let s := s.takeHub p
  .next (if s.failed then s
    else if BitVec.ofNat 32 (crc32c p.payload) ≠ p.pcrc then
      let s := s.raise { Fault_.blank 1 Status.ok 0x0305 with other := p.src, info0 := 0x0E }
      match s.collBy (cdGid p) (cdSeq4 p) with
      | some x => s.askResend x (if cdDown p then x.rootOf (cdChunk p) else p.src) (cdChunk p) (2 ^ cdPkt p)
      | none => s
    else match s.collArrive p with
      | some s => s
      | none => { s with storeWait := s.storeWait ++ [p] })

/-- STORE_SLOT_GRANT: the first waiting input for which a slot is free is taken, and contributions that waited
for a slot go on (R300). -/
def execStoreSlotGrant (s : State) : Res :=
  .next (if s.failed then s
    else
      let s := match s.storeWait.find? (fun p => (s.collArrive p).isSome) with
        | some p => ((({ s with storeWait := s.storeWait.erase p } : State).collArrive p).getD s)
        | none => s
      s.colls.foldl (fun s x => State.advanceColl maxChunks s x.gid x.seq) s)

/-! ### COLL.OPEN (R120, R293, R294) -/

/-- Digest of a collective (R304). -/
def collDigest (desc : List Byte) (seq count kind op typ : Nat) : Word32 :=
  BitVec.ofNat 32 (crc32c (leBytes 2 (dGid desc) ++ leBytes 2 0 ++ leBytes 4 (crc32c desc) ++ leBytes 4 seq ++ leBytes 4 count
    ++ leBytes 1 kind ++ leBytes 1 op ++ leBytes 1 typ ++ leBytes 1 0))

/-- Fields of the control word (R120). -/
def cwSeq (w : Word) : Nat := fld w.toNat 0 32
def cwKind (w : Word) : Nat := fld w.toNat 32 3
def cwOp (w : Word) : Nat := fld w.toNat 35 3
def cwType (w : Word) : Nat := fld w.toNat 38 4

/-- Undefined encodings of COLL.OPEN (R120, R297). -/
def openUndef (t : Tile) (w : Word) : Bool := cwKind w > 4 || cwOp w > 2 || cwType w > 1 || t.fmt != cwType w

/-- A fresh record for a collective. -/
def State.newColl (s : State) (c : Nat) (desc : List Byte) (at_ : Nat) (w : Word) (count : Nat) : Coll :=
  { gid := dGid desc, seq := cwSeq w, kind := cwKind w, op := cwOp w, typ := cwType w, count := count, desc := desc, descAt := at_,
    digest := collDigest desc (cwSeq w) count (cwKind w) (cwOp w) (cwType w), job := s.coreJob c, opens := [], pubs := [], sent := [],
    recv := [], full := [], used := [], dones := [], gens := [], missed := [], counted := false }

/-- Racks of the hall: W × 8 + Z within ZLEN × WLEN. -/
def State.rackOk (s : State) (r : Nat) : Bool := decide (r % 8 < s.rd Reg.RT_CTL_ZLEN) && decide (r / 8 < s.rd Reg.RT_CTL_WLEN)

/-- Conditions of R293 on the descriptor and the issuing core. -/
def State.groupOk (s : State) (c : Nat) (x : Coll) : Bool :=
  let m := dMask x.desc
  let here := s.modNum
  x.gid != 0 && m.inRack != 0 && m.racks != 0
    && (List.range 64).all (fun r => !(m.racks.getLsbD r) || s.rackOk r)
    && x.members.all (fun d => rtValid (s.route d))
    && (dRoots x.desc).all (maskNames m) && maskNames m here && dCore x.desc c
    && decide (x.chunks.length ≤ maxChunks)
    && s.colls.all (fun y => !(y.gid == x.gid && y.isOpen && y.seq % 16 == x.seq % 16 && y.seq != x.seq))

/-- A member is declared dead or padlocked that the collective cannot do without (R309). -/
def Coll.lost (x : Coll) (s : State) : Bool :=
  x.members.any (fun m => m != s.modNum && (s.padlocked m || s.fdDead m) && (x.kind != 3 || x.root == m))

/-- Register a handle: the collective's record, the inputs that waited for it, and what is already due; one that needs a
lost member ends with COLL_ABORTED (R293, R300, R305, R309). (DEDUCED, assumption 27.) -/
def State.registerOpen (s : State) (c id h : Nat) (td : TileWord) (x : Coll) : State :=
  let o : CollOpen := { core := c, id := id, handle := h, td := td, got := [], fin := false }
  let s := s.modEntry c id (fun e => { e with phase := .waiting })
  let s := s.modCore c (fun k => { k with handles := k.handles.setIfInBounds h (some (x.gid, x.seq)) })
  match s.coll? x.gid x.seq with
  | some y =>
    let s := s.modColl x.gid x.seq (fun z => { z with opens := z.opens ++ [o] })
    if y.digest ≠ x.digest then match s.coll? x.gid x.seq with | some z => s.collFail z Status.collMismatch | none => s
    else s.deliverAll x.gid x.seq
  | none =>
    let s := { s with colls := s.colls ++ [{ x with opens := [o] }] }
    let mine := s.store.filter (fun k => k.gid == x.gid && k.seq % 16 == x.seq % 16)
    let s := { s with store := s.store.filter (fun k => !(k.gid == x.gid && k.seq % 16 == x.seq % 16)) }
    let s := (mine.flatMap CSlot.held).foldl (fun (s : State) p => match s.collArrive p with
      | some s => s
      | none => { s with storeWait := s.storeWait ++ [p] }) s
    if x.lost s then (match s.coll? x.gid x.seq with | some y => s.collEnd y Status.collAborted true | none => s) else s.collComplete x.gid x.seq

/-- COLL.OPEN once its group may be active: a kept triple ends it at once (R305). -/
def State.openNow (s : State) (c id h : Nat) (td : TileWord) (x : Coll) : State :=
  match s.triples.find? (fun t => t.coll.gid == x.gid && t.coll.seq == x.seq) with
  | some t =>
    let o : CollOpen := { core := c, id := id, handle := h, td := td, got := [], fin := true }
    ((s.spoilTd x o t.status).modCore c (fun k => k.pubsEnd o t.status x.name)).finishBad c id t.status 0x0802 0 x.name
  | none => s.registerOpen c id h td x

/-- COLL.OPEN and COLL.PUB of one core that name one handle are served in program order (R121); a COLL.OPEN that waits for
a place among the active groups is still to be served (R294). -/
def Core.handleReady (k : Core) (id h : Nat) : Bool :=
  k.window.all (fun x =>
    let early := x.phase == .queued || x.phase == .dispatched
    !(decide (x.id < id) && ((early && x.op.pubOn h)
      || (match x.op with | .collOpen _ _ _ g => g == h && (early || (x.phase == .waiting && (k.handles.getD h none).isNone)) | _ => false))))

/-- The descriptor that RA names: 128 bytes at a multiple of 64 in direct HM of this module (R293). -/
def State.descOk (s : State) (ra : Word) : Bool := gOff ra % 64 == 0 && s.isHere ra && gSpace ra == spHM && s.hmRange (gOff ra) 128

/-- COLL.OPEN reads the descriptor and registers its handle, or waits for a place among the 64 active groups (R293,
R294). -/
def State.openGroup (s : State) (c id h : Nat) (td : TileWord) (ra rb : Word) : State :=
  let t := Tile.of td
  let (d, bad) := s.hmRead (gOff ra) 64
  match bad with
  | .none =>
    let x := s.newColl c d (gOff ra) rb (t.rows * t.cols)
    if !(s.groupOk c x) then s.finishRange c id
    else if s.activeGroups.length ≥ 64 ∧ ¬ s.activeGroups.contains x.gid then
      { s with collWait := s.collWait ++ [(c, id)] }.modEntry c id (fun e => { e with phase := .waiting })
    else s.openNow c id h td x
  | .old w => s.finishEcc c id 1 w
  | .found w => s.finishEcc c id 1 w

/-- COLL.OPEN (R120, R293, R294, R297). -/
def execCollOpen (c : CoreId) (o : EngOp FmtZ) (s : State) : Res :=
  .next (match o with
    | .issue h f => s.issueEngine c.val h 0xE0 (packZ f) (fun k => .collOpen (k.tget f.ts.val) (k.sget f.ra.val) (k.sget f.rb.val) f.h.val)
    | .run id u => s.runEntry c.val id u (fun s e =>
        match e.op with
        | .collOpen td ra rb h =>
          let k := s.core c.val
          let t := Tile.of td
          if !(k.handleReady id h) then s
          else if openUndef t rb then s.finishUndef c.val id e
          else if t.check.isSome ∨ (k.handles.getD h none).isSome ∨ s.descOk ra = false then s.finishRange c.val id
          else s.openGroup c.val id h td ra rb
        | _ => s))

/-- COLL_GROUP_ADMIT: a COLL.OPEN that waited for a place among the active groups registers its handle (R294). -/
def execCollGroupAdmit (c : CoreId) (id : Nat) (s : State) : Res :=
  .next (match s.collWait.find? (fun w => w == (c.val, id)), (s.core c.val).entry? id with
    | some w, some e =>
      match e.op with
      | .collOpen td ra rb h => ({ s with collWait := s.collWait.erase w } : State).openGroup c.val id h td ra rb
      | _ => s
    | _, _ => s)

/-! ### Publication (R106, R121, R296) -/

/-- Two element ranges overlap. -/
def CollPub.hits (p : CollPub) (lo n : Nat) : Bool := decide (p.first < lo + n) && decide (lo < p.first + p.num)

/-- Publish a tile's extent on a handle from an element on.  The status is none where the publication completes
its instruction as part of a collective that it ends. -/
def State.publish (s : State) (c h : Nat) (ts : TileWord) (first : Nat) : Nat × State :=
  let t := Tile.of ts
  let n := t.rows * t.cols
  match (s.core c).handles.getD h none with
  | none => (Status.addrRange, s)
  | some (gid, seq) => match s.coll? gid seq with
    | none => (Status.addrRange, s)
    | some x =>
      if x.pubs.any (fun p => p.core == c && p.handle == h && p.hits first n) ∨ first + n > x.count then (Status.addrRange, s)
      else
        let here := s.modNum
        let rank := x.members.findIdx (fun m => m == here)
        let outside := (x.kind == 2 && !(decide ((x.share rank).1 ≤ first) && decide (first + n ≤ (x.share rank).2))) || (x.kind == 3 && x.root != here)
        if outside ∨ x.pubs.any (fun p => p.hits first n) then (Status.collMismatch, s.collFail x Status.collMismatch)
        else
          let s := s.modColl gid seq (fun y => { y with pubs := y.pubs ++ [{ core := c, handle := h, ts := ts, first := first, num := n }] })
          (Status.ok, State.advanceColl maxChunks s gid seq)

/-- TYPE of the collective on a handle. -/
def State.handleType (s : State) (c h : Nat) : Option Nat :=
  match (s.core c).handles.getD h none with
  | none => none
  | some (gid, seq) => (s.coll? gid seq).map Coll.typ

/-- Complete an instruction with what its publication answers. -/
def State.finishPub (s : State) (c id st : Nat) : State :=
  if st = Status.collMismatch then s.finishBad c id st 0x0802 0 0 else s.finish c id st

/-- COLL.PUB (R121). -/
def execCollPub (c : CoreId) (o : EngOp FmtZ) (s : State) : Res :=
  .next (match o with
    | .issue h f => s.issueEngine c.val h 0xE1 (packZ f) (fun k => .collPub (k.tget f.ts.val) (k.sget f.ra.val) f.h.val)
    | .run id u => s.runEntry c.val id u (fun s e =>
        match e.op with
        | .collPub ts ra h =>
          if e.bad ≠ 0 then s.finishBad c.val id e.bad 0x0802 0 e.info
          else if !((s.core c.val).handleReady id h) then s
          else match s.handleType c.val h with
            | none => s.finishRange c.val id
            | some ty =>
              let t := Tile.of ts
              if t.fmt ≠ ty then s.finishUndef c.val id e
              else if t.check.isSome then s.finishRange c.val id
              else
                let (st, s) := s.publish c.val h ts ra.toNat
                s.finishPub c.val id st
        | _ => s))

/-! ### Control packets (R306, R307, R309, R311, R313) -/

/-- RECEIPT: the parent holds this stage's whole output, so its slot is freed (R306). -/
def execReceipt (p : Packet) (s : State) : Res :=
  let s := s.takeHub p
  .next (if s.failed then s else match s.coll? (ccGid p) (ccSeq p) with
    | some x => match s.slot? x.gid (x.seq % 16) (ccChunk p) with
      | some z => if z.out.isSome ∧ z.final.isNone then (s.dropSlot x.gid x.seq (ccChunk p)).collReap x.gid x.seq else s
      | none => s
    | none => s)

/-- CONSUMED (R306). -/
def execConsumed (p : Packet) (s : State) : Res :=
  let s := s.takeHub p
  .next (if s.failed then s else match s.coll? (ccGid p) (ccSeq p) with
    | some x => (s.noteConsumed x (ccChunk p) p.src).collComplete x.gid x.seq
    | none => s)

/-- DONE of a reduce travels down the tree (R306). -/
def execDone (p : Packet) (s : State) : Res :=
  let s := s.takeHub p
  .next (if s.failed then s else match s.coll? (ccGid p) (ccSeq p) with
    | some x =>
      let k := ccChunk p
      let s := (x.children x.root s.modNum).foldl (fun s d => s.sendCtl x d CKind.done 0 k 0 noMask 0 0) s
      (s.modColl x.gid x.seq (fun y => { y with dones := if y.dones.contains k then y.dones else y.dones ++ [k] })).collComplete x.gid x.seq
    | none => s)

/-- MISS: a broadcast's parent reports a padlocked child to the root (R311). -/
def execMiss (p : Packet) (s : State) : Res :=
  let s := s.takeHub p
  .next (if s.failed then s else match s.coll? (ccGid p) (ccSeq p) with
    | some x => (s.modColl x.gid x.seq (fun y => { y with
        missed := (maskMembers (ccMask p)).foldl (fun (t : Tab Word) d => t.put (rackBit d) (Tab.get t 0 (rackBit d) ||| BitVec.twoPow 64 (inRackBit d))) y.missed })).collComplete x.gid x.seq
    | none => s)

/-- An ABORT that is not the first to name its collective: it is passed on to the children where none was yet, and one
with TAINTED still raises its job-fatal fault (R305, R309). -/
def State.abortAgain (s : State) (t : Aborted) (st : Nat) : State :=
  let s := if t.passed then s
    else { s.passAbort t.coll t.status with triples := s.triples.map (fun y => if y == t then { y with passed := true } else y) }
  if st = Status.tainted ∧ t.status ≠ Status.tainted then
    s.raise { Fault_.blank 4 st 0x0802 with job := t.coll.job, info0 := t.coll.name }
  else s

/-- ABORT: passed on to this module's children before it acts on it (R305). -/
def execCollAbort (p : Packet) (s : State) : Res :=
  let s := s.takeHub p
  let st := ccStatus p
  .next (if s.failed then s else match s.coll? (ccGid p) (ccSeq p) with
    | some x => (s.passAbort x st).collEnd x st true
    | none => match s.triples.find? (fun t => t.coll.gid == ccGid p && t.coll.seq == ccSeq p) with
      | some t => s.abortAgain t st
      | none => s)

/-- Start a chunk again under a generation: the request goes down the tree, this module drops its state for the
chunk and contributes from SP again (R307). -/
def State.recompute (s : State) (x : Coll) (k gen : Nat) : State :=
  let s := (x.children (x.rootOf k) s.modNum).foldl (fun s d => s.sendCtl x d CKind.resend 0 k 0 noMask gen 1) s
  let s := s.modSlot x.gid (x.seq % 16) k (fun z => { z with inputs := [], out := none, final := none, consumed := [] })
  let s := s.modColl x.gid x.seq (fun y => { y with
    gens := y.gens.set 0 k gen, sent := y.sent.filter (fun j => j != k), recv := y.recv.filter (fun r => r.1 != k),
    full := y.full.filter (fun r => r.1 != k), used := y.used.filter (fun j => j != k),
    opens := y.opens.map (fun o => if o.fin then o else { o with got := o.got.filter (fun j => j != k) }) })
  State.advanceColl maxChunks s x.gid x.seq

/-- A retained copy is found uncorrectable (R307): the root recomputes while nobody has consumed the chunk, and
otherwise ends the collective with TAINTED; another holder asks the root to recompute. (DEDUCED, assumption 27.) -/
def State.copyLost (s : State) (x : Coll) (k : Nat) (z : CSlot) : State :=
  let gen := (Tab.get x.gens 0 k + 1) % 8
  if z.final.isNone then s.sendCtl x (x.rootOf k) CKind.resend 0 k 0 noMask gen 1
  else if z.consumed.isEmpty ∧ x.opens.all (fun o => !(o.got.contains k)) then s.recompute x k gen
  else s.collFail x Status.tainted

/-- Send named packets of a chunk again, and count it (R292, R307). -/
def State.resendChunk (s : State) (x : Coll) (dst k : Nat) (down : Bool) (pkts : Nat) (bs : List Byte) : State :=
  (s.hmCount (x.descAt + 72) 8).sendChunk x dst k down pkts bs

/-- RESEND: named packets from the retained copy, or from SP where the contribution is in no slot; RECOMPUTE starts the
chunk again (R307).  The read of the store finds the copy good, corrected or uncorrectable; a corrected error logs an S1
record (R306). (DEDUCED, assumption 27.) -/
def execResend (p : Packet) (copy : ScrubFind) (u : List Upset) (s : State) : Res :=
  let s := s.takeHub p
  .next (if s.failed then s else match s.coll? (ccGid p) (ccSeq p) with
    | none => s
    | some x =>
      let s := s.sramUpsets u
      let k := ccChunk p
      if k ≥ x.chunks.length then s
      else if (ccFlags p).testBit 0 then s.recompute x k (ccGen p)
      else if ccGen p ≠ Tab.get x.gens 0 k then s
      else match s.slot? x.gid (x.seq % 16) k with
        | some z => match z.out, copy with
          | none, _ => s
          | some _, .uncorrectable => s.copyLost x k z
          | some bs, .clean => s.resendChunk x p.src k z.final.isSome (ccPkts p) bs
          | some bs, .corrected =>
            (s.raise { Fault_.blank 1 Status.ok 0x0201 with info0 := 0xFF }).resendChunk x p.src k z.final.isSome (ccPkts p) bs
        | none =>
          if x.sent.contains k ∧ x.reduces then
            let (bs, bad) := s.contribution x k
            if bad then s.collFail x Status.collAborted else s.resendChunk x p.src k false (ccPkts p) bs
          else s)

/-- COLL_CONSUMED_TIMEOUT: a final result not consumed within 100 ms of its release ends the collective with COLL_ABORTED
for the members that have not completed, and its slot is freed (R308). -/
def execCollConsumedTimeout (gid seq chunk : Nat) (s : State) : Res :=
  .next (if s.failed then s else match s.coll? gid seq with
    | some x => match (s.slot? gid (seq % 16) chunk).bind CSlot.final with
      | some t => if t + State.msTicks 100 ≤ s.clock then s.collFail x Status.collAborted else s
      | none => s
    | none => s)

/-- ABORT_TRIPLE_EXPIRY: a kept triple goes after 1 s (R305). -/
def execAbortTripleExpiry (gid seq : Nat) (s : State) : Res :=
  .next { s with triples := s.triples.filter (fun t => !(t.coll.gid == gid && t.coll.seq == seq)) }

/-! ### Members that fail or leave (R309) -/

/-- A broadcast goes on without a module: the root notes it as missed, its parent sends the results that it holds to its
children directly, and a chunk that waited for it alone is consumed (R309). -/
def State.castWithout (s : State) (x : Coll) (m : Nat) : State :=
  let here := s.modNum
  let s := if x.root = here then s.modColl x.gid x.seq (fun y => { y with
      missed := y.missed.put (rackBit m) (Tab.get y.missed 0 (rackBit m) ||| BitVec.twoPow 64 (inRackBit m)) }) else s
  let kids := if treeParent (dMask x.desc) x.root m = some here then s.liveChildren x x.root 12 m else []
  (List.range x.chunks.length).foldl (fun s k => match s.slot? x.gid (x.seq % 16) k with
    | some z =>
      let s := match z.final, z.out with | some _, some bs => kids.foldl (fun s d => s.sendChunk x d k true allPackets bs) s | _, _ => s
      (match z.consumed with | c :: _ => s.noteConsumed x k c | [] => s)
    | none => s) s

/-- A member module is declared dead or padlocked: the collectives that it makes impossible end with
COLL_ABORTED, without ABORT; a broadcast goes on without it. (DEDUCED, assumption 27.) -/
def State.collMemberLost (s : State) (m : Nat) : State :=
  s.colls.foldl (fun s x =>
    if !(maskNames (dMask x.desc) m) || m == s.modNum then s
    else if x.kind ≠ 3 ∨ x.root = m then s.collEnd x Status.collAborted true
    else (s.castWithout x m).collComplete x.gid x.seq) s

/-- A member task ends with a handle open: its module sends ABORT with COLL_ABORTED (R309). -/
def State.collTaskGone (s : State) (cores : List Nat) : State :=
  s.colls.foldl (fun s x => if x.opens.any (fun o => !o.fin && cores.contains o.core) then s.collFail x Status.collAborted else s) s

end Sys2Proof.Machine
end

