-- ==== Sys2Proof/Machine/Matrix.lean ====
section
/-! DEFINITION. The matrix engines and the matrix-vector engine: stationary slots, streaming, chunk sums, drains
and publication (R37-R40, R102-R107, R109, R125-R141). -/

namespace Sys2Proof.Machine

/-! ### Shapes and engines -/

/-- Ks and Ns of a SHAPE. -/
def shapeKs (sh : Nat) : Nat := if sh = 0 then 128 else if sh = 1 then 64 else 16
def shapeNs (sh : Nat) : Nat := 16384 / shapeKs sh

/-- Offset of RK or RN with bits [3:0] ignored. -/
def off16 (w : Word) : Nat := w.toNat / 16 * 16

/-- Slot of an engine. -/
def Core.slotOf (k : Core) (me sl : Nat) : Slot := k.slots.getD (2 * me + sl) Slot.reset

def Core.accOf (k : Core) (me : Nat) : Acc := k.acc.getD me Acc.reset

def Core.setAcc (k : Core) (me : Nat) (a : Acc) : Core := { k with acc := k.acc.setIfInBounds me a }

/-! ### Stationary loads (R40, R102, R129) -/

/-- A slot element: 16 bits of code above 8 bits of block scale; zero carries scale 127. -/
def slotZero : BitVec 24 := 127#24

/-- Element of a tile as a slot keeps it; a transposed element is FP16 or BF16 (R40, R129). -/
def slotElem (t : Tile) (m : Mem) (trans : Bool) (r c : Nat) : BitVec 24 :=
  if r ≥ t.rows ∨ c ≥ t.cols then slotZero
  else if trans ∧ t.fmt ≠ Fmt.fp16 then BitVec.ofNat 24 (fmtBf16.enc false (t.elem m r c) * 256 + 127)
  else BitVec.ofNat 24 (t.code m r c * 256 + (if Fmt.block t.fmt then (m.read (t.scaleAt r c)).toNat else 127))

/-- Format of a slot after a load. -/
def slotFmt (t : Tile) (trans : Bool) : Nat := if trans ∧ t.fmt ≠ Fmt.fp16 then Fmt.bf16 else t.fmt

/-- Contents of a slot after a load. -/
def loadSlot (t : Tile) (m : Mem) (k0 n0 sh : Nat) (trans : Bool) : Slot :=
  let ns := shapeNs sh
  { shape := sh + (if trans then 4 else 0), loaded := true, fmt := slotFmt t trans,
    elems := (List.range 16384).filterMap (fun i =>
      let e := if trans then slotElem t m true (k0 + i / ns) (n0 + i % ns) else slotElem t m false (n0 + i % ns) (k0 + i / ns)
      if e = slotZero then none else some (i, e)) }

/-- SHAPE of a slot, and whether it was loaded transposed. -/
def Slot.sh (x : Slot) : Nat := x.shape % 4
def Slot.trans (x : Slot) : Bool := x.shape ≥ 4

/-- Value of slot element (k, n). -/
def Slot.val (x : Slot) (k n : Nat) : Num :=
  let e := (Tab.get x.elems slotZero (k * shapeNs x.sh + n)).toNat
  if Fmt.block x.fmt then Fmt.decScaled x.fmt (e / 256) (e % 256) else Fmt.decElem x.fmt (e / 256)

/-- MM.LDS (R102, R105, R129, R141). -/
def execMmLds (c : CoreId) (o : EngOp FmtM) (s : State) : Res :=
  .next (match o with
    | .issue h f => s.issueEngine c.val h 0x80 (packM f) (fun k => .mmLds (k.tget f.ts.val) (k.sget f.rk.val) (k.sget f.rn.val) f.shape.val f.sslot.val h.var)
    | .run id u => s.runEntry c.val id u (fun s e =>
        match e.op with
        | .mmLds ts rk rn sh sl tr =>
          let t := Tile.of ts
          let k := s.core c.val
          if sh = 3 ∨ t.fmt = Fmt.fp32 then s.finishUndef c.val id e
          else match t.check with
            | some b => s.finishTile c.val id e b
            | none =>
              if k.noArray e.q then s.finishRange c.val id
              else match k.badIn (if tr then t.partRanges (off16 rk) (shapeKs sh) (off16 rn) (shapeNs sh)
                  else t.partRanges (off16 rn) (shapeNs sh) (off16 rk) (shapeKs sh)) with
                | some w => s.finishEcc c.val id 2 w
                | none =>
                  let x := loadSlot t k.sp (off16 rk) (off16 rn) sh tr
                  (s.modCore c.val (fun k => (k.arraysOf e.q).foldl (fun k i => { k with slots := k.slots.setIfInBounds (2 * i + sl) x }) k)).finish c.val id 0
        | _ => s))

/-! ### Streaming (R38, R39, R103, R104) -/

/-- Element that an accumulator holds where nothing is listed. (DESIGN CHOICE, assumption 9.) -/
def Acc.default (a : Acc) (i : Nat) : Word32 := if a.junk = 0 then 0 else Config.junkWord a.junk i

def Acc.get (a : Acc) (i : Nat) : Word32 := Tab.get a.cells (a.default i) i

/-- Replace the first n elements. -/
def Acc.put (a : Acc) (n : Nat) (f : Nat → Word32) : Acc :=
  { a with cells := (List.range n).filterMap (fun i => let v := f i; if v = a.default i then none else some (i, v)) ++ a.cells.filter (fun p => n ≤ p.1) }

/-- Round and merge the open chunk's sums of the elements from `lo` on into the accumulator (R104). (DEDUCED, assumption 18.) -/
def Acc.mergeFrom (a : Acc) (lo : Nat) : Acc :=
  a.put a.openN (fun i => if i < lo then a.get i else fadd (a.get i) (chunkSum (Tab.get a.chunk [] i)))

/-- Round and merge the open chunk into the accumulator (R104). (DEDUCED, assumption 18.) -/
def Acc.merge (a : Acc) : Acc :=
  match a.openK with
  | none => a
  | some _ => { a.mergeFrom 0 with openK := none, chunk := [], openN := 0 }

/-- Cut products that start at K position k0 where K reaches a multiple of 128. -/
def cutChunks (k0 : Nat) (ps : List Num) : List (List Num) :=
  let first := 128 - k0 % 128
  if ps.length ≤ first then [ps]
  else ps.take first :: (List.range ((ps.length - first + 127) / 128)).map (fun j => ((ps.drop first).drop (128 * j)).take 128)

/-- One output element: the open products before, the products of this MM, the previous contents; the answer is
the merged value and the products left open (R39, R104). (DEDUCED, assumption 18.) -/
def mmElem (trans : Bool) (k0 : Nat) (before ps : List Num) (prev : Word32) : Word32 × List Num :=
  let segs := match cutChunks k0 ps with | g :: gs => (before ++ g) :: gs | [] => [before]
  let ended := (k0 + ps.length) % 128 == 0
  let whole := if ended then segs else segs.dropLast
  let rest := if ended then [] else segs.getLastD []
  let sums := whole.map chunkSum
  if trans then
    match sums.reverse with
    | [] => (prev, rest)
    | v :: vs => (fadd (vs.foldl fadd v) prev, rest)
  else (sums.foldl fadd prev, rest)

/-- Effect of an MM on one accumulator, for rows row0 to row0 + mi − 1 of the streamed tile; of an open chunk that it
continues, the sums of the elements that it does not stream end. (DEDUCED, assumption 18.) -/
def Acc.stream (a : Acc) (t : Tile) (m : Mem) (x : Slot) (k0 row0 mi : Nat) (acc : Bool) : Acc :=
  let ks := shapeKs x.sh
  let ns := shapeNs x.sh
  let cont := acc && a.openK == some k0 && k0 % 128 != 0
  let a := if cont then a.mergeFrom (mi * ns) else a.merge
  let out := (List.range (mi * ns)).map (fun i =>
    let ps := (List.range ks).map (fun k =>
      (if k0 + k < t.cols then t.elem m (row0 + i / ns) (k0 + k) else Num.zero).mul (x.val k (i % ns)))
    mmElem x.trans k0 (if cont then Tab.get a.chunk [] i else []) ps (if acc then a.get i else 0))
  let a' := a.put (mi * ns) (fun i => (out.getD i (0, [])).1)
  let left := (k0 + ks) % 128 != 0
  { a' with
    rows := mi, cols := ns, row0 := row0, written := true, openK := if left then some (k0 + ks) else none,
    openN := if left then mi * ns else 0,
    chunk := if left then (out.zipIdx.filterMap (fun p => if p.1.2.isEmpty then none else some (p.2, p.1.2))) else [] }

/-- The whole instruction fails: its accumulators hold unspecified contents and the arrays' failures are counted
(R139). (DEDUCED, assumption 31.) -/
def State.failResidue (s : State) (c id : Nat) (arrays bad : List Nat) : State :=
  let s := bad.foldl (fun s i => s.checkFail c i) s
  let s := arrays.foldl (fun s i =>
    let (g, s) := s.freshJunk
    s.modCore c (fun k => k.setAcc i { k.accOf i with cells := [], junk := g, openK := none, chunk := [], openN := 0 })) s
  s.finishBad c id Status.eccUncorrected 0x0103 0 (BitVec.ofNat 64 (bad.headD 0))

/-- MM (R103-R105, R139, R141). -/
def execMm (c : CoreId) (o : EngOp FmtN) (s : State) : Res :=
  .next (match o with
    | .issue h f => s.issueEngine c.val h 0x81 (packN f) (fun k => .mm (k.tget f.ts.val) (k.sget f.rk.val) f.sslot.val h.var)
    | .run id u => s.runEntry c.val id u (fun s e =>
        match e.op with
        | .mm ts rk sl acc =>
          let t := Tile.of ts
          let k := s.core c.val
          if t.fmt = Fmt.fp32 then s.finishUndef c.val id e
          else match t.check with
            | some b => s.finishTile c.val id e b
            | none =>
              let arrays := k.arraysOf e.q
              let q := arrays.length
              let ns := shapeNs (k.slotOf (arrays.headD 0) sl).sh
              if k.noArray e.q ∨ (e.q = 8 ∧ q < 4 ∧ t.rows > q * (65536 / ns)) then s.finishRange c.val id
              else
                let share := (t.rows + q - 1) / q
                let rows := fun (p : Nat × Nat) => min (min (t.rows - p.2 * share) share) (65536 / shapeNs (k.slotOf p.1 sl).sh)
                match k.badIn (arrays.zipIdx.flatMap (fun p => t.partRanges (p.2 * share) (rows p) (off16 rk) (shapeKs (k.slotOf p.1 sl).sh))) with
                | some w => s.finishEcc c.val id 2 w
                | none =>
                  let bad := residues u arrays
                  if bad ≠ [] then s.failResidue c.val id arrays bad
                  else
                    (s.modCore c.val (fun k => arrays.zipIdx.foldl (fun k p =>
                      (k.setAcc p.1 ((k.accOf p.1).stream t k.sp (k.slotOf p.1 sl) (off16 rk) (p.2 * share) (rows p) acc)).modFiller p.1
                        (fun f => { f with streamed := true, slot := sl, rows := p.2 * share + rows p })) k)).finish c.val id 0
        | _ => s))

/-! ### Drains (R106) -/

/-- Convert and store values of row r of a tile in SP, columns 0 on (R33-R35). -/
def State.storeRowSp (s : State) (c : Nat) (t : Tile) (sat : Bool) (r : Nat) (ws : List Word32) : State :=
  if Fmt.block t.fmt then
    s.modCore c (fun k =>
      let n := (ws.length + 31) / 32 * blockLen t.fmt
      { k with sp := t.storeRow sat k.sp r (ws.map f32), spBad := k.spBad.filter (fun w => !(t.rowAt r ≤ 8 * w && 8 * w + 8 ≤ t.rowAt r + n)) })
  else s.storeWords c t r 0 false sat ws

/-- Drain one accumulator into its rows of td: false where a row lies beyond td. -/
def State.drainOne (s : State) (c me : Nat) (t : Tile) (add sat : Bool) : State × Bool :=
  let s := s.modCore c (fun k => k.setAcc me (k.accOf me).merge)
  let a := (s.core c).accOf me
  let n := min a.cols t.cols
  let rows := min a.rows (t.rows - a.row0)
  let s := (List.range rows).foldl (fun s m =>
    let sp := (s.core c).sp
    s.storeRowSp c t sat (a.row0 + m) ((List.range n).map (fun j =>
      let v := a.get (m * a.cols + j)
      if add then fadd (toF32 (t.elem sp (a.row0 + m) j)) v else v))) s
  (s, rows == a.rows)

/-- MM.DRAIN (R104-R106, R139, R141); VAR = 1 publishes the tile. -/
def execMmDrain (c : CoreId) (o : EngOp FmtO) (s : State) : Res :=
  .next (match o with
    | .issue h f => s.issueEngine c.val h 0x82 (packO f) (fun k => .mmDrain (k.tget f.td.val) (k.sget f.ra.val) f.h.val f.add h.var)
    | .run id u => s.runEntry c.val id u (fun s e =>
        match e.op with
        | .mmDrain td ra h add pub =>
          let t := Tile.of td
          let k := s.core c.val
          if pub && !(k.handleReady id h) then s
          else if (add ∧ t.fmt ≠ Fmt.fp32) ∨ (pub && (match s.handleType c.val h with | some ty => t.fmt != ty | none => false)) = true then s.finishUndef c.val id e
          else match t.check with
            | some b => s.finishTile c.val id e b
            | none =>
              let arrays := k.arraysOf e.q
              if k.noArray e.q then s.finishRange c.val id
              else match (if add then k.badIn (arrays.flatMap (fun i => t.partRanges (k.accOf i).row0 (k.accOf i).rows 0 (k.accOf i).cols)) else none) with
                | some w => s.finishEcc c.val id 2 w
                | none =>
                  let bad := residues u arrays
                  if bad ≠ [] then (s.junkTile c.val t).failResidue c.val id arrays bad
                  else
                    let r := arrays.foldl (fun (r : State × Bool) me => let d := r.1.drainOne c.val me t add e.sat; (d.1, r.2 && d.2)) (s, true)
                    if !r.2 then r.1.finishRange c.val id
                    else if pub ∧ e.bad ≠ 0 then r.1.finishBad c.val id e.bad 0x0802 0 e.info
                    else if pub then
                      let (st, s) := r.1.publish c.val h td ra.toNat
                      s.finishPub c.val id st
                    else r.1.finish c.val id 0
        | _ => s))

/-- MM.FILL: a value below FILL_FLOOR as it is at issue takes the value of FILL_FLOOR; no filler runs while FILL_MAX is 0
(R107, R137, R138, R142). -/
def execMmFill (c : CoreId) (o : EngOp (BitVec 12)) (s : State) : Res :=
  .next (match o with
    | .issue h n => s.issueEngine c.val h 0x83 n.toNat (fun _ => .mmFill (max n.toNat (s.rd (Reg.LEAF_FILL_CTL_FILL_FLOOR (c.val / 12)))))
    | .run id u => s.runEntry c.val id u (fun s e =>
        match e.op with
        | .mmFill n =>
          let k := s.core c.val
          let arrays := k.arraysOf e.q
          let s := if n = 0 then arrays.foldl (fun s i => s.endFiller c.val i u) s else s
          if k.noArray e.q then s.finishRange c.val id
          else (s.modCore c.val (fun k => arrays.foldl (fun k i => { k with fillMax := k.fillMax.setIfInBounds i n }) k)).finish c.val id 0
        | _ => s))

/-! ### The matrix-vector engine (R109, R132) -/

/-- Sum of products in the order of R38, from zero. -/
def plainSum (ps : List Num) : Word32 := ((cutChunks 0 ps).map chunkSum).foldl fadd 0

/-- Sum of the absolute products. -/
def absSum (ps : List Num) : Num := ps.foldl (fun a p => a.add p.abs) .zero

/-- The MVE's result: a free value within the bound of R39 of the plain sum, else the plain sum; NaN and infinity
as the plain sum has them. (DESIGN CHOICE, assumption 10.) -/
def mveResult (v : Word32) (ps : List Num) : Word32 :=
  let p := plainSum ps
  let bound := ((absSum ps).mul (.ofNat ((ps.length + 127) / 128))).scale (-24)
  if (f32 p).isFin && (f32 v).isFin && ((f32 v).add (f32 p).neg).absLe bound then v else p

/-- MV: the free values of the MVE's own order are drawn afresh for each element. -/
def execMv (c : CoreId) (o : EngOp FmtS) (s : State) : Res :=
  .next (match o with
    | .issue h f => s.issueEngine c.val h 0x90 (packS f) (fun k => .mv (k.tget f.td.val) (k.tget f.ts.val) (k.tget f.tx.val) h.var)
    | .run id u => s.runEntry c.val id u (fun s e =>
        match e.op with
        | .mv td ts tx acc =>
          let d := Tile.of td
          let w := Tile.of ts
          let x := Tile.of tx
          let k := s.core c.val
          if !(d.fmt ≤ 2 && w.fmt != Fmt.fp32 && Fmt.valid w.fmt && x.fmt ≥ 1 && x.fmt ≤ 4) then s.finishUndef c.val id e
          else if [d, w, x].any (fun t => t.check.isSome) then s.finishRange c.val id
          else
            let mn := min (min x.rows d.rows) 4
            let kn := min x.cols w.cols
            let nn := min w.rows d.cols
            match k.badIn (w.partRanges 0 nn 0 kn ++ x.partRanges 0 mn 0 kn ++ (if acc then d.partRanges 0 mn 0 nn else [])) with
            | some z => s.finishEcc c.val id 2 z
            | none =>
              ((List.range mn).foldl (fun s m =>
                let sp := (s.core c.val).sp
                let s' := { s with freeCtr := s.freeCtr + nn }
                s'.storeWords c.val d m 0 false e.sat ((List.range nn).map (fun n =>
                  let y := mveResult (Config.mveSum (s.freeCtr + n)) ((List.range kn).map (fun j => (x.elem sp m j).mul (w.elem sp n j)))
                  if acc then fadd (toF32 (d.elem sp m n)) y else y))) s).finish c.val id 0
        | _ => s))

end Sys2Proof.Machine
end

