-- ==== Sys2Proof/Machine/TumInstr.lean ====
section
/-! DEFINITION. Tumbler instructions and fences (R81-R87), wake of a stalled sequencer (R184, R185), the host's
tumbler addition (R183), retries at a full park (R188), and the deadlock detector (R193-R196). -/

namespace Sys2Proof.Machine

/-! ### Local forms (R81) -/

/-- The register that a format G instruction names in [5:0] (R76). -/
def regG (o : FmtG) : Nat := o.n.toNat % 64

/-- N of TUM.ADD: the low 32 bits of a register read as a signed value under VAR = 1, else the signed
immediate, which IMM64 replaces in queue 0 only (R72, R81). (DEDUCED, assumption 17.) -/
def Core.nAdd (k : Core) (h : Hdr) (o : FmtG) : Int :=
  if h.var then sext 32 (k.sget (regG o)).toNat
  else if h.q.val = 0 then (h.immS o.n).toInt else o.n.toInt

/-- N of the other local forms: unsigned (R72, R81). -/
def Core.nUns (k : Core) (h : Hdr) (o : FmtG) : Nat :=
  if h.var then (k.sget (regG o)).toNat % 2 ^ 32
  else if h.q.val = 0 then h.immU o.n else o.n.toNat

/-- TUM.ADD in queue 0: a saturated or underflowing count is task-fatal (R81). -/
def State.seqTumAdd (s : State) (c : Nat) (h : Hdr) (tn : Nat) (n : Int) : State :=
  let (v, st) := tumAdd ((s.core c).ltGet tn) n
  let s := s.modCore c (fun k => k.ltSet tn v)
  if st = 0 then s.advance c h.words else s.seqFatal c st 0x0102 0

/-- TUM.ADD: a release scope belongs in an engine queue (R74, R81, R82). -/
def execTumAdd (c : CoreId) (o : EngOp FmtG) (s : State) : Res :=
  .next (match o with
    | .issue h f => s.issue c.val h 0x40 (packG f) (fun s =>
        let n := (s.core c.val).nAdd h f
        if h.q.val = 0 then s.seqTumAdd c.val h f.tn.val n
        else s.enqueue c.val h (.tumAdd f.tn.val n f.scope.val))
    | .run id u => s.runEntry c.val id u (fun s e =>
        match e.op with
        | .tumAdd tn n _ =>
          let (v, st) := tumAdd ((s.core c.val).ltGet tn) n
          (s.modCore c.val (fun k => k.ltSet tn v)).finish c.val id st
        | _ => s))

/-- TUM.WAIT: satisfied at once, or the sequencer stalls; in an engine queue it holds the queue's head until
the count that the waits before it leave is reached (R53, R81, R83). -/
def execTumWait (c : CoreId) (o : EngOp FmtG) (s : State) : Res :=
  .next (match o with
    | .issue h f => s.issue c.val h 0x41 (packG f) (fun s =>
        let k := s.core c.val
        let n := k.nUns h f
        if h.q.val = 0 then
          if n ≤ (k.ltGet f.tn.val).toNat then
            ((s.modCore c.val (fun k => if f.consume then k.ltTake f.tn.val n else k)).staleReads c.val f.scope.val).advance c.val h.words
          else (s.modCore c.val (fun k => { k with dwTaken := true })).stallOn c.val (.tum f.tn.val n (max 1 f.scope.val) f.consume h.words) h.words true
        else s.enqueue c.val h (.tumWait f.tn.val n f.scope.val f.consume))
    | .run id u => s.runEntry c.val id u (fun s e =>
        match e.op with
        | .tumWait tn n _ consume =>
          if n ≤ (s.core c.val).countFor tn e.q then
            (s.modCore c.val (fun k => if consume then k.ltTake tn n else k)).finish c.val id 0
          else s
        | _ => s))

/-- TUM.SET: count = n[31:0] (R81). -/
def execTumSet (c : CoreId) (o : EngOp FmtG) (s : State) : Res :=
  .next (match o with
    | .issue h f => s.issue c.val h 0x42 (packG f) (fun s =>
        let v := BitVec.ofNat 32 ((s.core c.val).nUns h f)
        if h.q.val = 0 then (s.modCore c.val (fun k => k.ltSet f.tn.val v)).advance c.val h.words
        else s.enqueue c.val h (.tumSet f.tn.val v))
    | .run id u => s.runEntry c.val id u (fun s e =>
        match e.op with
        | .tumSet tn v => (s.modCore c.val (fun k => k.ltSet tn v)).finish c.val id 0
        | _ => s))

/-- TUM.READ: the count, zero-extended, into the register named in [5:0] (R81). -/
def execTumRead (c : CoreId) (h : Hdr) (o : FmtG) (s : State) : Res :=
  .next (s.issueCore c.val h 0x43 (packG o) (fun k => k.sset (regG o) ((k.ltGet o.tn.val).setWidth 64)))

/-! ### Hub tumblers: TUM.WAIT.G, TUM.ALLOC, TUM.FREE (R85, R86) -/

/-- N of format H for the forms with an unsigned N: the low 32 bits of RB under VAR = 1, else N20, which IMM64
replaces in queue 0 only. -/
def Core.nH (k : Core) (h : Hdr) (o : FmtH) : Nat :=
  if h.var then (k.sget o.rb.val).toNat % 2 ^ 32
  else if h.q.val = 0 then h.immU o.n else o.n.toNat

/-- The hub tumbler of this module that an address names. -/
def State.hubOf (s : State) (a : Word) : Option Nat :=
  if s.isHere a ∧ gSpace a = spTUM then match tumOfOff (gOff a) with | some (.inl h) => some h | _ => none else none

/-- TUM.WAIT.G: a wait on an owned hub tumbler of this module; any other address completes with ADDR_RANGE (R85,
R181).  The core registers as a waiter and the hub tests it (R185). -/
def execTumWaitG (c : CoreId) (h : Hdr) (o : FmtH) (s : State) : Res :=
  .next (s.issue c.val h 0x44 (packH o) (fun s => s.viaLink c.val (fun s =>
    let k := s.core c.val
    let n := k.nH h o
    match s.hubOf (k.sget o.ra.val) with
    | none => s.seqFatal c.val Status.addrRange 0x0102 0
    | some t =>
      if (s.hubAlloc t).isNone then s.seqFatal c.val Status.addrRange 0x0102 0
      else if n ≤ (s.hubGet t).toNat then
        ((if o.consume then s.hubSet t (s.hubGet t - BitVec.ofNat 32 n) else s).staleReads c.val o.scope.val).advance c.val h.words
      else
        let s := { s with waiters := s.waiters ++ [({ tum := t, core := c.val, n := n, consume := o.consume, woken := false } : Waiter)] }
        (s.modCore c.val (fun k => { k with dwTaken := true })).stallOn c.val (.hub t n (max 1 o.scope.val) o.consume h.words) h.words true)))

/-- The lowest-numbered run of n free hub tumblers (R86). -/
def State.freeRun (s : State) (n : Nat) : Option Nat :=
  (List.range (4097 - n)).find? (fun f => s.allocs.all (fun a => a.first + a.len ≤ f || f + n ≤ a.first))

/-- TUM.ALLOC: n consecutive hub tumblers for the task, their counts 0, the address of the first in RB; all ones
when the hub cannot satisfy the request (R86). -/
def execTumAlloc (c : CoreId) (h : Hdr) (o : FmtH) (s : State) : Res :=
  .next (s.issue c.val h 0x45 (packH o) (fun s => s.viaLink c.val (fun s =>
    let k := s.core c.val
    let n := max 1 (min (k.nH h o) 64)
    match s.freeRun n with
    | none => (s.modCore c.val (fun k => k.sset o.rb.val (BitVec.allOnes 64))).advance c.val h.words
    | some f =>
      let s := { s with allocs := s.allocs ++ [({ first := f, len := n, task := k.task } : Alloc)] }
      let s := (List.range n).foldl (fun s i => s.hubSet (f + i) 0) s
      (s.modCore c.val (fun k => k.sset o.rb.val (gAddr s.modNum spTUM (f * 8)))).advance c.val h.words)))

/-- Every waiter on a run of hub tumblers that the hub has not satisfied completes with OWNER_GONE (R86, R190). -/
def State.ownerGone (s : State) (first len : Nat) : State :=
  let hit := fun (w : Waiter) => decide (first ≤ w.tum) && decide (w.tum < first + len) && !w.woken
  let gone := s.waiters.filter hit
  let s := { s with waiters := s.waiters.filter (fun w => !hit w) }
  gone.foldl (fun s w => s.seqFatal w.core Status.ownerGone 0x0102 0) s

/-- TUM.FREE: releases the allocation of the task that begins at RA; an RA that begins none completes with
ADDR_RANGE (R86). -/
def execTumFree (c : CoreId) (h : Hdr) (o : FmtH) (s : State) : Res :=
  .next (s.issue c.val h 0x46 (packH o) (fun s => s.viaLink c.val (fun s =>
    let k := s.core c.val
    match s.hubOf (k.sget o.ra.val) with
    | none => s.seqFatal c.val Status.addrRange 0x0102 0
    | some t =>
      match s.allocs.find? (fun a => a.first == t && a.task == k.task) with
      | none => s.seqFatal c.val Status.addrRange 0x0102 0
      | some a => ({ s with allocs := s.allocs.erase a }.advance c.val h.words).ownerGone a.first a.len)))

/-! ### Global forms (R85) -/

/-- What a tumbler operation answers to its issuer (R85, R94, R187, R188): a local instruction completes, with
the old count in SP for a read or an atomic; another module gets its reply. -/
def State.tumAnswer (s : State) (iss : Issuer) (op : TumOp) (st : Nat) (old : Word32) : State :=
  match iss with
  | .none => s
  | .local_ c id =>
    match (s.core c).entry? id with
    | none => s
    | some e =>
      let s := match e.op with
        | .tumReadG _ rb _ => if st = 0 then s.spWrite c rb.toNat (leBytes 8 old.toNat) else s
        | .atom _ _ _ rd _ _ _ nr _ => if nr then s else s.spWrite c rd.toNat (leBytes 8 old.toNat)
        | _ => s
      s.finish c id st
  | .remote src tag cls =>
    let q := { blankPkt with src := src, tag := tag, cls := pclass cls }
    match op with
    | .read => s.inject (s.replyTo q PT.tumResp (leBytes 4 st ++ leBytes 4 old.toNat))
    | .atom _ _ _ => s.inject (s.replyTo q PT.atomResp (leBytes 8 st ++ leBytes 8 old.toNat))
    | _ => s.inject (s.replyTo q PT.ack (ackPayload st 8))

/-- A local instruction's operation on a tumbler of this module: applied, parked, refused and held by its TE, or
without an owner (R182, R188).  What the signal of a PUT.SIG meets is charged to the tumbler's owner (R187). -/
def State.tumLocal (s : State) (c id off : Nat) (op : TumOp) : State :=
  let r : TumReq := { off := off, op := op, job := some (s.coreJob c), issuer := .local_ c id, sender := s.modNum * 64 + c, opid := none }
  match s.tumReach r with
  | (.applied st old, s) =>
    let signal := match (s.core c).entry? id with | some e => (match e.op with | .putSig .. => true | _ => false) | none => false
    if signal then (s.chargeOwner off s.modNum c st).finish c id 0 else s.tumAnswer (.local_ c id) op st old
  | (.parked, s) => match op with
    | .add _ => s.finish c id 0
    | .set _ => s.finish c id 0
    | _ => s.modEntry c id (fun e => { e with phase := .waiting })
  | (.refused, s) =>
    let p : Parked := match tumOfOff off with
      | some (.inr (k, n)) => { core := k, tum := n, task := (match s.tumPreempted k r.job with | some t => t.num | none => 0), op := op, issuer := .local_ c id, sender := r.sender, opid := none }
      | _ => { core := 0, tum := 0, task := 0, op := op, issuer := .local_ c id, sender := r.sender, opid := none }
    { s with refused := s.refused ++ [p] }.modEntry c id (fun e => { e with phase := .waiting })
  | (.noOwner, s) => s.finishRange c id

/-- A local instruction's operation on a tumbler, wherever it lies: on this module directly, elsewhere as one
request packet (R84, R85, R98). -/
def State.tumGlobal (s : State) (c id : Nat) (e : Entry) (a : Word) (cls : Nat) (op : TumOp) : State :=
  if !(gSpace a == spTUM && s.addrOk a 4 true) then s.finishRange c id
  else if s.isHere a then s.tumLocal c id (gOff a) op
  else if s.padlocked (gMod a) then s.finish c id Status.padlocked
  else
    let m := gMod a
    let job := s.coreJob c
    let (oid, s) := match op with | .read => (0, s) | _ => s.nextOpid m
    let p := match op with
      | .add n => { s.ctl PT.tumAdd cls m job spTUM (gOff a) (leBytes 4 oid.toNat ++ leBytes 4 (BitVec.ofInt 32 n).toNat) with opid := oid }
      | .set v => { s.ctl PT.tumSet cls m job spTUM (gOff a) (leBytes 4 oid.toNat ++ leBytes 4 v.toNat) with opid := oid }
      | .read => s.ctl PT.tumRead cls m job spTUM (gOff a) []
      | .atom aop b x =>
        let (w64, nr) := match e.op with | .atom _ _ _ _ _ _ w nr _ => (w, nr) | _ => (false, false)
        { s.ctl PT.atom cls m job spTUM (gOff a)
            (leBytes 4 oid.toNat ++ leBytes 4 (aop + (if w64 then 8 else 0) + (if nr then 16 else 0)) ++ leBytes 8 b.toNat ++ leBytes 8 x.toNat) with opid := oid }
    let s := s.modEntry c id (fun e => { e with phase := .waiting, left := 1, sent := true })
    s.request c id p [] none []

/-- N of TUM.ADD.G: RB's low 32 bits as a signed value under VAR = 1, else N20 sign-extended, or INC when N20 is
0 (R85). (DEDUCED, assumption 17.) -/
def Core.nAddG (k : Core) (h : Hdr) (o : FmtH) : Int :=
  if h.var then sext 32 (k.sget o.rb.val).toNat
  else if o.n = 0 then h.inc else o.n.toInt

/-- TUM.ADD.G (R85). -/
def execTumAddG (c : CoreId) (o : EngOp FmtH) (s : State) : Res :=
  .next (match o with
    | .issue h f => s.issueEngine c.val h 0x48 (packH f) (fun k => .tumAddG (k.sget f.ra.val) (k.nAddG h f) f.scope.val f.cls.val)
    | .run id u => s.runEntry c.val id u (fun s e =>
        match e.op with
        | .tumAddG a n _ cls => s.tumGlobal c.val id e a cls (.add n)
        | _ => s))

/-- TUM.SET.G (R85). -/
def execTumSetG (c : CoreId) (o : EngOp FmtH) (s : State) : Res :=
  .next (match o with
    | .issue h f => s.issueEngine c.val h 0x49 (packH f) (fun k => .tumSetG (k.sget f.ra.val) (BitVec.ofNat 32 (k.nH h f)) f.cls.val)
    | .run id u => s.runEntry c.val id u (fun s e =>
        match e.op with
        | .tumSetG a v cls => s.tumGlobal c.val id e a cls (.set v)
        | _ => s))

/-- An SP offset that takes 8 bytes: a multiple of 8, at most 0x27F_FFF8 (R85, R94). -/
def spWordOk (a : Word) : Bool := a.toNat % 8 == 0 && decide (a.toNat ≤ 0x27FFFF8)

/-- TUM.READ.G: an RB that is no SP word completes with ADDR_RANGE and the tumbler is not read (R85). -/
def execTumReadG (c : CoreId) (o : EngOp FmtH) (s : State) : Res :=
  .next (match o with
    | .issue h f => s.issueEngine c.val h 0x4A (packH f) (fun k => .tumReadG (k.sget f.ra.val) (k.sget f.rb.val) f.cls.val)
    | .run id u => s.runEntry c.val id u (fun s e =>
        match e.op with
        | .tumReadG a rb cls => if spWordOk rb then s.tumGlobal c.val id e a cls .read else s.finishRange c.val id
        | _ => s))

/-! ### Fences (R87) -/

/-- A FENCE: complete at once when everything it covers is, else the sequencer stalls and runs ahead. (DEDUCED, assumption 76.) -/
def State.fence (s : State) (c : Nat) (h : Hdr) (opc scope : Nat) : State :=
  s.issue c h opc 0 (fun s =>
    if (s.core c).fenceDone then (s.staleReads c scope).advance c h.words
    else (s.modCore c (fun k => { k with dwTaken := true })).stallOn c (.fence scope h.words) h.words true)

/-- FENCE.CORE (R87). -/
def execFenceCore (c : CoreId) (h : Hdr) (s : State) : Res := .next (s.fence c.val h 0x50 1)

/-- FENCE.MODULE (R87). -/
def execFenceModule (c : CoreId) (h : Hdr) (s : State) : Res := .next (s.fence c.val h 0x51 2)

/-- FENCE.SYSTEM (R87). -/
def execFenceSystem (c : CoreId) (h : Hdr) (s : State) : Res := .next (s.fence c.val h 0x52 3)

/-! ### Wake (R53, R184) -/

/-- A stalled sequencer goes on when its condition has cleared: a satisfied wait or FENCE completes, with its
acquire; a satisfied dispatch wait is consumed and the instruction issues; room in a queue or the window lets
the instruction issue again. -/
def execSequencerWake (c : CoreId) (s : State) : Res :=
  let k := s.core c.val
  let go := fun (s : State) => s.modCore c.val (fun k => { k with stall := none })
  .next (if s.failed || k.state != 1 || k.draining then s
    else match k.stall with
    | some (.dispatchWait n) =>
      if 1 ≤ (k.ltGet n).toNat then (go s).modCore c.val (fun k => { k.ltTake n 1 with dwTaken := true }) else s
    | some (.tum tn n scope consume words) =>
      if n ≤ (k.ltGet tn).toNat then
        ((s.modCore c.val (fun k => if consume then k.ltTake tn n else k)).staleReads c.val scope).advance c.val words
      else s
    | some (.hub t _ scope _ words) =>
      match s.waiters.find? (fun w => w.core == c.val && w.tum == t && w.woken) with
      | some w => ({ s with waiters := s.waiters.erase w }.staleReads c.val scope).advance c.val words
      | none => s
    | some (.fence scope words) => if k.fenceDone then (s.staleReads c.val scope).advance c.val words else s
    | some (.queueFull q) => if k.queueFull q then s else go s
    | some .windowFull => if k.windowFull then s else go s
    | some .ending => s
    | none => s)

/-! ### The host's addition (R183) -/

/-- A host addition: INDEX in [14:0], N in [63:32] as a signed value.  It goes to the task running on the core,
is parked for a pre-empted one, or is discarded and logged (R183, R187, R188). -/
def State.hostAdd (s : State) (v : Word) : State :=
  let index := fld v.toNat 0 15
  let n := sext 32 (fld v.toNat 32 32)
  let off := index * 8
  let refuse := fun (s : State) => s.logS0 Status.addrRange 0x0A03 off
  let r : TumReq := { off := off, op := .add n, job := none, issuer := .none, sender := s.modNum * 64 + 63, opid := none }
  match s.tumReach r with
  | (.applied st _, s) => s.chargeOwner off s.modNum 0xFF st
  | (.parked, s) => s
  | (.refused, s) => refuse s
  | (.noOwner, s) => refuse s

/-- TUM_HOST_ADD is written. -/
def execTumHostAdd (v : Word) (s : State) : Res :=
  .next (if s.failed ∨ s.rd Reg.GLB_BOOT_STAGE ≠ 4 then s else s.hostAdd v)

/-! ### Retry at a full park (R188) -/

/-- The TE of core c retries an operation that a full park refused. -/
def execParkRetry (c : CoreId) (id : Nat) (s : State) : Res :=
  .next (match s.refused.find? (fun p => p.issuer == .local_ c.val id) with
    | some p => { s with refused := s.refused.erase p }.tumLocal c.val id (ltOff p.core p.tum) p.op
    | none => s)

/-! ### The deadlock detector (R193-R196) -/

/-- Owner of a hub tumbler is pre-empted (R193). -/
def State.hubOwnerPreempted (s : State) (t : Nat) : Bool :=
  match s.hubAlloc t with
  | some a => match s.task? a.task with | some x => x.state == .preempted || x.state == .saving || x.state == .restoring | none => false
  | none => false

/-- The sequencer is stuck: stalled, but not on a hub tumbler whose owner is pre-empted, or finished. -/
def State.seqStuck (s : State) (c : Nat) : Bool :=
  let k := s.core c
  k.finished || (match k.stall with
    | some (.hub t _ _ _ _) => !s.hubOwnerPreempted t && s.waiters.all (fun w => !(w.core == c && w.tum == t && w.woken))
    | some (.tum tn n _ _ _) => decide ((k.ltGet tn).toNat < n)
    | some (.dispatchWait n) => k.ltGet n == 0
    | some (.queueFull q) => k.queueFull q
    | some .windowFull => k.windowFull
    | some (.fence _ _) => !k.fenceDone
    | some .ending => !k.window.isEmpty
    | none => false)

/-- A dispatched TUM.WAIT that holds its queue. -/
def Entry.heldWait (e : Entry) (k : Core) : Bool :=
  e.phase == .dispatched && (match e.op with | .tumWait tn n _ _ => decide ((k.ltGet tn).toNat < n) | _ => false)

/-- What holds the head of an engine queue: a dispatch wait or a TUM.WAIT, with its tumbler, need and IP. -/
def Core.headWait (k : Core) (q : Nat) : Option (Nat × Nat × Nat) :=
  match k.window.find? (fun e => e.inQueue q && e.heldWait k) with
  | some e => match e.op with | .tumWait tn n _ _ => some (tn, n, e.ip) | _ => none
  | none => match k.queued q with
    | e :: _ => if e.dw ≠ 0xFF ∧ k.ltGet e.dw = 0 then some (e.dw, 1, e.ip) else none
    | [] => none

/-- A COLL.OPEN that awaits results once every COLL.PUB of its handle has completed: not a transfer in flight; one that
waits for a place among the active groups is in flight (R193, R294). -/
def Core.idleOpen (k : Core) (e : Entry) : Bool :=
  match e.op with
  | .collOpen _ _ _ h => e.phase == .waiting && (k.handles.getD h none).isSome && k.window.all (fun x => match x.op with | .collPub _ _ g => g != h | .mmDrain _ _ g _ pub => !(pub && g == h) | _ => true)
  | _ => false

/-- Engine q of a core is stuck (R193). -/
def Core.engineStuck (k : Core) (q : Nat) : Bool :=
  k.finished || (((k.headWait q).isSome || (k.queued q).isEmpty)
    && k.window.all (fun e => !e.inQueue q || e.phase == .queued || e.heldWait k || k.idleOpen e))

/-- The task is stalled: every unit stuck, no transfer in flight, nothing parked for it (R193). (DEDUCED, assumption 21.) -/
def State.taskStalled (s : State) (t : Task) : Bool :=
  t.cores.all (fun c => let k := s.core c; s.seqStuck c && (List.range 7).all (fun i => k.engineStuck (i + 1)))
    && s.park.all (fun p => p.task != t.num)
    && s.refused.all (fun p => match p.issuer with | .local_ c _ => !t.cores.contains c | _ => true)

/-- The detector samples a running task; WINDOW_US acts from a sample on (R194, R197). (DESIGN CHOICE, assumption 6; DEDUCED, assumption 21.) -/
def execDeadlockSample (t : Nat) (s : State) : Res :=
  .next (match s.task? t with
    | some x => if s.failed = false ∧ x.state = .running ∧ x.fatal = none then
        (s.settle Reg.TUM_DL_CTL_WINDOW_US).modTask t (fun y => { y with stalled := if s.taskStalled x then y.stalled + 1 else 0 })
      else s
    | none => s)

/-- A snapshot entry (R196). -/
def snapEntry (core unit kind ip hub tum fullq count need : Nat) : List Byte :=
  leBytes 8 (core % 64 + unit * 2 ^ 6 + kind * 2 ^ 10 + ip % 2 ^ 15 * 2 ^ 12 + hub * 2 ^ 27 + tum % 4096 * 2 ^ 28 + fullq * 2 ^ 40)
    ++ leBytes 8 (count % 2 ^ 32 + need % 2 ^ 32 * 2 ^ 32)

/-- The entry of a core's sequencer. -/
def State.snapSeq (s : State) (c : Nat) : List Byte :=
  let k := s.core c
  if k.finished then snapEntry c 0 3 0 0 0 0 0 0
  else match k.stall with
    | some (.dispatchWait n) => snapEntry c 0 0 k.ip 0 n 0 (k.ltGet n).toNat 1
    | some (.tum tn n _ _ _) => snapEntry c 0 0 k.ip 0 tn 0 (k.ltGet tn).toNat n
    | some (.hub t n _ _ _) => snapEntry c 0 0 k.ip 1 t 0 (s.hubGet t).toNat n
    | some (.queueFull q) => snapEntry c 0 1 k.ip 0 0 q 0 0
    | some .windowFull => snapEntry c 0 1 k.ip 0 0 0 0 0
    | some (.fence _ _) => snapEntry c 0 1 k.ip 0 0 9 0 0
    | some .ending => snapEntry c 0 1 k.ip 0 0 10 0 0
    | none => snapEntry c 0 2 0 0 0 0 0 0

/-- The entry of engine q of a core. -/
def State.snapEngine (s : State) (c q : Nat) : List Byte :=
  let k := s.core c
  if k.finished then snapEntry c q 3 0 0 0 0 0 0
  else match k.headWait q with
    | some (tn, n, ip) => snapEntry c q 0 ip 0 tn 0 (k.ltGet tn).toNat n
    | none => snapEntry c q 2 0 0 0 0 0 0

/-- The snapshot: header, then the eight units of every core (R196). (DEDUCED, assumption 21.) -/
def State.snapshot (s : State) (t : Task) : List Byte :=
  leBytes 8 s.rackTime.toNat ++ leBytes 2 t.num ++ leBytes 2 (8 * t.cores.length) ++ leBytes 4 (s.act Reg.TUM_DL_CTL_WINDOW_US)
    ++ leBytes 2 s.modNum ++ List.replicate 46 0
    ++ t.cores.flatMap (fun c => s.snapSeq c ++ (List.range 7).flatMap (fun i => s.snapEngine c (i + 1)))

/-- The detector fires once the task has been stalled at every sample for the window (R194, R195): the snapshot is
written or lost, every core that is stalled stops with DEADLOCK, and one S3 record names the snapshot.
(DEDUCED, assumption 13; DEDUCED, assumption 21.) -/
def execDeadlockFire (t : Nat) (s : State) : Res :=
  .next (match s.task? t with
    | some x =>
      if s.failed = false ∧ x.state = .running ∧ x.fatal = none ∧ s.act Reg.TUM_DL_CTL_WINDOW_US < x.stalled then
        let base := s.rd Reg.TUM_DL_SNAP_BASE * 64
        let n := 8 * x.cores.length
        let s := if base + 0x2000 ≤ s.directBytes then (s.hmStore base (s.snapshot x)).wr Reg.TUM_DL_STAT_LAST_ENTRIES n
          else s.wr Reg.TUM_DL_STAT_SNAP_LOST 1
        let s := (s.bump Reg.TUM_DL_STAT_FIRED 1).wr Reg.TUM_DL_STAT_LAST_TASK t
        let stuck := x.cores.filter (fun c => !(s.core c).finished)
        let c0 := stuck.headD 0
        let s := s.raise { Fault_.blank 3 Status.deadlock 0x0106 with task := t, job := x.job, info0 := BitVec.ofNat 64 base }
        let ip0 := (s.core c0).ip
        let s := stuck.foldl (fun s c => s.lastStatus c Status.deadlock) s
        (s.modTask t (fun y => y.failWith Status.deadlock c0 ip0)).stopTask t
      else s
    | none => s)

end Sys2Proof.Machine
end

