-- ==== Sys2Proof/Machine/Tasks.lean ====
section
/-! DEFINITION. Tasks: command queues and completion entries (R216-R219), SUBMIT and program images (R220-R223),
placement and start (R65, R224-R227), pre-emption (R228-R231), the end of a task (R190, R191, R231, R232, R417) and
the C0 allowance's refill (R235). -/

namespace Sys2Proof.Machine

/-! ### Queues (R216-R218) -/

/-- Boot has ended (R386): outside the blocks that R387 lists, nothing answers before. -/
def State.booted (s : State) : Bool := s.rd Reg.GLB_BOOT_STAGE == 4

/-- The queue is served. -/
def State.qEnabled (s : State) (q : Nat) : Bool := s.rdb (Reg.SCHED_Q_RING_ENABLE q)

/-- Entries of a queue's rings: SIZE_LOG2 as latched when ENABLE became 1, else as its register holds it (R216,
R239). -/
def State.qSize (s : State) (q : Nat) : Nat :=
  let w := if s.qEnabled q then fld (s.queue q).ring.toNat 0 4 else s.rd (Reg.SCHED_Q_RING_SIZE_LOG2 q)
  2 ^ max 6 (min 16 w)

/-- Entries written and not yet freed (R218). -/
def State.cplUsed (s : State) (q : Nat) : Nat := (s.rd (Reg.SCHED_Q_STATE_CPL_TAIL q) + 65536 - (s.queue q).cplHead) % 65536

/-- The completion ring is full (R218). -/
def State.cplFull (s : State) (q : Nat) : Bool := s.cplUsed q == s.qSize q - 1

/-- A command of a queue is complete: a BARRIER that waited only for it completes in turn (R219). -/
def State.cmdOver (s : State) (q seq : Nat) : State × Option Nat :=
  let s := s.modQueue q (fun x => { x with open_ := x.open_.filter (fun n => n != seq) })
  match (s.queue q).barrier with
  | some (b, tag) =>
    if (s.queue q).open_.all (fun n => decide (b ≤ n)) then
      (s.modQueue q (fun x => { x with barrier := none, open_ := x.open_.filter (fun n => n != b) }), some tag)
    else (s, none)
  | none => (s, none)

/-- An entry falls due: it waits to be written, or is dropped and counted while ENABLE is 0 (R218). -/
def State.cplDue (s : State) (q : Nat) (c : Cpl) : State :=
  if s.qEnabled q then s.modQueue q (fun x => { x with waiting := x.waiting ++ [c] })
  else s.bump Reg.HOST_STAT_CPL_DROPPED 1

/-- The entry of a command that is not a SUBMIT. -/
def cmdEntry (tag status : Nat) : Cpl := { tag := tag, status := status, flags := 0, task := 0, core := 0xFF, nonFatal := 0, ip := 0 }

/-- A command other than SUBMIT completes with its own status (R218, R219). -/
def State.cmdDone (s : State) (q seq tag status : Nat) : State :=
  match (s.cplDue q (cmdEntry tag status)).cmdOver q seq with
  | (s, some b) => s.cplDue q (cmdEntry b Status.ok)
  | (s, none) => s

/-- FLAGS bits of an entry (R218). -/
def flagInterim : Nat := 2
def flagKilled : Nat := 4
def flagJobFatal : Nat := 8
def flagRefused : Nat := 16

/-- The entry is a task's final one. -/
def Cpl.isFinal (c : Cpl) : Bool := c.task != 0 && c.flags / 2 % 2 == 0

/-- A task's final entry has been written or dropped: every KILL that waited for it alone completes (R219). -/
def State.killsSee (s : State) (t : Nat) : State :=
  (List.range 64).foldl (fun s q =>
    let ks := (s.queue q).kills.map (fun k => (k.1, k.2.1, k.2.2.filter (fun n => n != t)))
    let ended := ks.filter (fun k => k.2.2.isEmpty)
    let s := s.modQueue q (fun x => { x with kills := ks.filter (fun k => !k.2.2.isEmpty) })
    ended.foldl (fun s k => s.cmdDone q k.1 k.2.1 Status.ok) s) s

/-- A queue's ENABLE becomes 0: entries still waiting are dropped and counted (R218, R372, R373). (DEDUCED, assumption 67.) -/
def State.disableQueue (s : State) (q : Nat) : State :=
  let gone := (s.queue q).waiting
  let s := ((s.wr (Reg.SCHED_Q_RING_ENABLE q) 0).bump Reg.HOST_STAT_CPL_DROPPED gone.length).modQueue q (fun x => { x with waiting := [] })
  gone.foldl (fun s c => if c.isFinal then s.killsSee c.task else s) s

/-- A queue's ENABLE becomes 1: its RING and CPL fields take effect (R239). -/
def State.enableQueue (s : State) (q : Nat) : State :=
  let s := s.wr (Reg.SCHED_Q_RING_ENABLE q) 1
  s.modQueue q (fun x => { x with
    ring := BitVec.ofNat 64 (s.rd (Reg.SCHED_Q_RING_SIZE_LOG2 q) + 16 + s.rd (Reg.SCHED_Q_RING_BASE q) * 2 ^ 12),
    cpl := BitVec.ofNat 64 (s.rd (Reg.SCHED_Q_CPL_VECTOR q) + s.rd (Reg.SCHED_Q_CPL_BASE q) * 2 ^ 12) })

/-- A doorbell write of 16, 32 or 64 bits reaches its queue once boot has ended (R370, R387). -/
def State.doorbellOk (s : State) (width : Nat) : Bool := s.booted && !s.failed && (width == 16 || width == 32 || width == 64)

/-- A discarded doorbell write: an S0 record that names the queue (R217, R218, R413). -/
def State.doorbellBad (s : State) (q : Nat) : State := s.logS0 Status.ok 0x0A03 q

/-- DOORBELL_TAIL: the host announces commands (R217). -/
def execDoorbellTail (q : Fin 64) (width : Nat) (v : Word) (s : State) : Res :=
  let tail := v.toNat % 65536
  .next (if !s.doorbellOk width then s
    else if (tail + 65536 - s.rd (Reg.SCHED_Q_STATE_HEAD q.val)) % 65536 > s.qSize q.val - 1 then s.doorbellBad q.val
    else s.wr (Reg.SCHED_Q_STATE_TAIL q.val) tail)

/-- DOORBELL_CPL_HEAD: the host frees completion entries (R218). -/
def execDoorbellCplHead (q : Fin 64) (width : Nat) (v : Word) (s : State) : Res :=
  let head := v.toNat % 65536
  .next (if !s.doorbellOk width then s
    else if (head + 65536 - (s.queue q.val).cplHead) % 65536 > s.cplUsed q.val then s.doorbellBad q.val
    else s.modQueue q.val (fun x => { x with cplHead := head }))

/-- The module may read a command of a queue now: none of the three causes of R217 stops it. -/
def State.qReadable (s : State) (q : Nat) : Bool :=
  s.qEnabled q && s.rd (Reg.SCHED_Q_STATE_HEAD q) != s.rd (Reg.SCHED_Q_STATE_TAIL q) && decide (s.tasks.length < 256)
    && !s.cplFull q && (s.queue q).barrier.isNone

/-- The queue whose turn it is: the first readable one after the last one served (R217). (DEDUCED, assumption 37.) -/
def State.qTurn (s : State) : Option Nat := ((List.range 64).map (fun i => (s.lastQ + 1 + i) % 64)).find? s.qReadable

/-- Byte 0 of the accepted command of a queue. -/
def State.acceptedOp (s : State) (q op : Nat) : Option HostCmd :=
  match (s.queue q).accepted with
  | some c => if s.failed = false ∧ leNat (c.bytes.take 1) = op then some c else none
  | none => none

/-- Little-endian field of a command. -/
def HostCmd.field (c : HostCmd) (off n : Nat) : Nat := leNat ((c.bytes.drop off).take n)

/-- TAG of a command (R219). -/
def HostCmd.tag (c : HostCmd) : Nat := c.field 2 2

/-- The accepted command has been applied. -/
def State.applied (s : State) (q : Nat) : State := s.modQueue q (fun x => { x with accepted := none })

/-- Host address of a queue's next command: the slot of HEAD in the ring at BASE (R216, R217). -/
def State.cmdAddr (s : State) (q : Nat) : Nat := fld (s.queue q).ring.toNat 12 52 * 4096 + s.rd (Reg.SCHED_Q_STATE_HEAD q) % s.qSize q * 64

/-- COMMAND_READ: the next command of the queue whose turn it is, fetched from its slot of the ring and accepted; an opcode that no row lists
completes with ADDR_RANGE, and a failed read disables the queue (R217, R372). -/
def execCommandRead (q : Fin 64) (r : HostRead) (s : State) : Res :=
  .next (if s.failed || !s.booted || s.qTurn != some q.val || (List.range 64).any (fun i => (s.queue i).accepted.isSome) then s
    else
      let s := { s with lastQ := q.val, hostOut := s.hostOut ++ [HostMsg.fetch (BitVec.ofNat 64 (s.cmdAddr q.val)) 64] }
      match r with
      | .failed => ((s.disableQueue q.val).bump Reg.HOST_STAT_RING_ERRS 1).logS0 Status.addrRange 0x0A01 q.val
      | .data bs =>
        let bytes := (bs ++ List.replicate 64 0).take 64
        let seq := (s.queue q.val).nextSeq
        let s := s.wrapAdd (Reg.SCHED_Q_STATE_HEAD q.val) 1
        let c : HostCmd := { seq := seq, bytes := bytes }
        let s := s.modQueue q.val (fun x => { x with nextSeq := seq + 1, open_ := x.open_ ++ [seq] })
        if leNat (bytes.take 1) ≤ 3 then s.modQueue q.val (fun x => { x with accepted := some c })
        else s.cmdDone q.val seq c.tag Status.addrRange)

/-- NOP command: completes at acceptance (R219). -/
def execCmdNop (q : Fin 64) (s : State) : Res :=
  .next (match s.acceptedOp q.val 0 with
    | some c => (s.applied q.val).cmdDone q.val c.seq c.tag Status.ok
    | none => s)

/-- BARRIER command: holds the queue until every earlier command of it has completed (R217, R219). -/
def execBarrier (q : Fin 64) (s : State) : Res :=
  .next (match s.acceptedOp q.val 3 with
    | some c =>
      let s := s.applied q.val
      if (s.queue q.val).open_.all (fun n => decide (c.seq ≤ n)) then s.cmdDone q.val c.seq c.tag Status.ok
      else s.modQueue q.val (fun x => { x with barrier := some (c.seq, c.tag) })
    | none => s)

/-- The 16 bytes of a completion entry (R218). -/
def State.cplBytes (s : State) (q : Nat) (c : Cpl) : List Byte :=
  leBytes 2 c.tag ++ leBytes 1 c.status ++ leBytes 1 (c.flags + s.rd (Reg.SCHED_Q_STATE_PHASE q)) ++ leBytes 2 c.task
    ++ leBytes 1 c.core ++ leBytes 1 c.nonFatal ++ leBytes 2 c.ip ++ leBytes 6 s.rackTime.toNat

/-- COMPLETION_ENTRY_WRITE: the oldest waiting entry is written while the ring has room, PHASE toggles when the
tail wraps, and the queue's vector is raised (R218, R371). -/
def execCompletionEntryWrite (q : Fin 64) (s : State) : Res :=
  .next (match (s.queue q.val).waiting with
    | [] => s
    | c :: rest =>
      if s.failed || !s.qEnabled q.val || s.cplFull q.val then s
      else
        let n := s.qSize q.val
        let tail := s.rd (Reg.SCHED_Q_STATE_CPL_TAIL q.val)
        let cpl := (s.queue q.val).cpl.toNat
        let at_ := fld cpl 12 52 * 4096 + tail % n * 16
        let s := { s with hostOut := s.hostOut ++ [HostMsg.cpl (BitVec.ofNat 64 at_) (s.cplBytes q.val c)] }
        let s := (s.modQueue q.val (fun x => { x with waiting := rest })).wr (Reg.SCHED_Q_STATE_CPL_TAIL q.val) (tail + 1)
        let s := if (tail + 1) % n = 0 then s.wr (Reg.SCHED_Q_STATE_PHASE q.val) (1 - s.rd (Reg.SCHED_Q_STATE_PHASE q.val)) else s
        let s := s.raiseVec (fld cpl 0 6)
        if c.isFinal then s.killsSee c.task else s)

/-! ### Eligible and free cores (R224) -/

/-- Cores eligible for a task (R220, R224). -/
def State.eligible (s : State) (t : Task) : List Nat :=
  (List.range 48).filter (fun c =>
    !s.leafGone (c / 12) && (!t.leafAff || t.leafMask == 0 || t.leafMask.getLsbD (c / 12))
      && (!t.fourMe || (s.core c).arrays == 15#4))

/-- A task in this state holds its cores (R224). -/
def TaskState.holds (x : TaskState) : Bool :=
  match x with
  | .loading | .running | .draining | .saving | .restoring => true
  | _ => false

/-- A task in this state keeps its reservations (R225). -/
def TaskState.reserves (x : TaskState) : Bool := x.holds || x == .preempted

/-- A core is free (R224), on a leaf whose link is active. (DEDUCED, assumption 35.) -/
def State.coreFree (s : State) (c : Nat) : Bool := s.leafUp (c / 12) && s.tasks.all (fun t => !(t.state.holds && t.cores.contains c))

/-- Cores that a task takes: CORES clamped to the number of eligible ones (R224). -/
def State.coresWanted (s : State) (t : Task) : Nat := max 1 (min t.coresN (s.eligible t).length)

/-- Sets of leaves, those of fewer leaves first. -/
def leafSets : List (List Nat) :=
  [[0], [1], [2], [3], [0, 1], [0, 2], [0, 3], [1, 2], [1, 3], [2, 3], [0, 1, 2], [0, 1, 3], [0, 2, 3], [1, 2, 3], [0, 1, 2, 3]]

/-- The default choice among the cores on offer: the fewest leaves, and the lowest-numbered cores among equals. -/
def chooseCores (offer : List Nat) (n : Nat) : Option (List Nat) :=
  let picks := leafSets.filterMap (fun ls =>
    let cs := (offer.filter (fun c => ls.contains (c / 12))).take n
    if cs.length = n then some (ls.length, cs) else none)
  let k := (picks.map Prod.fst).foldl min 5
  ((picks.filter (fun p => p.1 == k)).map Prod.snd).foldl (fun b cs => match b with
    | none => some cs
    | some x => if cs < x then some cs else some x) none

/-- Reservations of a task, clamped to SCHED_RES at the decision, fit beside those held (R225, R237, R239). -/
def State.resFits (s : State) (t : Task) : Bool :=
  let held := s.tasks.filter (fun x => x.state.reserves)
  let hm := s.rd Reg.SCHED_RES_HM_KIB
  let lm := s.rd Reg.SCHED_RES_LM_MIB
  decide ((held.map Task.hmKib).sum + min t.hmKib hm ≤ hm) && decide ((held.map Task.lmMib).sum + min t.lmMib lm ≤ lm)

/-- An ORDERED task's condition: every earlier command of its queue has completed (R220, R227). -/
def State.orderMet (s : State) (t : Task) : Bool := !t.ordered || (s.queue t.queue).open_.all (fun n => decide (t.qseq ≤ n))

/-- A pending task is considered for placement (R227, R329). -/
def State.considered (s : State) (t : Task) : Bool :=
  t.state == .pending && !t.killed && t.jobFatal.isNone && !s.rdb Reg.SF_LATCH_DRAIN && s.orderMet t

/-- The free cores that a task may take. -/
def State.offer (s : State) (t : Task) : List Nat := (s.eligible t).filter s.coreFree

/-- A pending task can be placed on some cores now: it is considered, its reservations fit, and the domains of the cores
are on (R224, R225, R399). -/
def State.canPlace (s : State) (t : Task) (cs : List Nat) : Bool := s.considered t && s.resFits t && cs.all s.coreOn

/-- A core holds nothing of an earlier task and owes no self-test (R140, R226, R230). -/
def Core.clear (k : Core) : Bool := k.window.isEmpty && k.owed &&& k.arrays == 0#4

/-- A pending task can be placed by the default policy, or a pre-empted one restored, now (R224, R225, R230). -/
def State.canGo (s : State) (t : Task) : Bool :=
  if t.state = .preempted then !t.killed && t.jobFatal.isNone && t.cores.all (fun c => s.coreFree c && s.coreOn c && (s.core c).clear)
  else match chooseCores (s.offer t) (s.coresWanted t) with
    | some cs => s.canPlace t cs
    | none => false

/-- Task a is considered before task b: class, then acceptance order (R227). -/
def Task.before (a b : Task) : Bool := decide (a.cls < b.cls) || (a.cls == b.cls && decide (a.seq < b.seq))

/-- No task that comes earlier can be placed or restored now (R227, R230). -/
def State.isNext (s : State) (t : Task) : Bool := s.tasks.all (fun x => !(x.before t && s.canGo x))

/-! ### SUBMIT (R220-R223) -/

/-- The next task number: 0x0001-0xFFFF in turn, numbers of live tasks skipped (R223). -/
def State.freeTask (s : State) : Nat → Nat → Nat
  | 0, n => n
  | k + 1, n => if (s.task? n).isSome then s.freeTask k (n % 65535 + 1) else n

/-- Read a part of an image; none where it is out of one region of R157. -/
def State.imagePart (s : State) (u : List Upset) (img : Word) (off n : Nat) : Option (List Byte × Bad × State) :=
  if s.rangeOk (gSpace img) (gOff img + off) n then some (s.readSpace u (gSpace img) (gOff img + off) n 0 1) else none

/-- What reading an image's header and records comes to. -/
inductive ImageRead where
  | good (i : Image) (s : State)
  | refused (s : State)
  | bad (space off : Nat) (s : State)
  deriving DecidableEq, Repr

/-- Little-endian field of bytes. -/
def leField (bs : List Byte) (off n : Nat) : Nat := leNat ((bs.drop off).take n)

/-- `n` records of `w` bytes. -/
def records (bs : List Byte) (w n : Nat) : List (List Byte) := (List.range n).map (fun i => (bs.drop (w * i)).take w)

/-- The header and the records of an image, with the checks of R222. (DEDUCED, assumption 32.) -/
def State.readImage (s : State) (u : List Upset) (img : Word) : ImageRead :=
  let space := gSpace img
  let isBad := fun (b : Bad) => match b with | .none => none | .old o => some o | .found o => some o
  if !(s.isHere img && decide (space ≤ 1) && gOff img % 64 == 0) then .refused s
  else match s.imagePart u img 0 64 with
    | none => .refused s
    | some (h, b, s) =>
      match isBad b with
      | some o => .bad space o s
      | none =>
        let text := leField h 4 4
        let entry := leField h 8 4
        let nLoad := min 255 (leField h 12 2)
        let nLive := min 64 (leField h 14 2)
        let nTum := min 256 (leField h 16 2)
        let textAt := leField h 24 8
        let loadAt := leField h 32 8
        let liveAt := leField h 40 8
        let tumAt := leField h 48 8
        if leField h 0 4 ≠ 0x32494454 ∨ text > 262144 ∨ text % 8 ≠ 0 ∨ entry ≥ text / 8
          ∨ s.rangeOk space (gOff img + textAt) text = false then .refused s
        else match (s.imagePart u img loadAt (16 * nLoad)).bind (fun a => (a.2.2.imagePart u img liveAt (8 * nLive)).bind (fun b =>
            (b.2.2.imagePart u img tumAt (8 * nTum)).map (fun c => (a.1, b.1, c.1, a.2.1.or (b.2.1.or c.2.1), c.2.2)))) with
          | some (lo, li, tu, b, s) =>
            match isBad b with
            | some o => .bad space o s
            | none =>
              let loads := (records lo 16 nLoad).map (fun r => (leField r 0 4, leField r 4 4, leField r 8 8))
              let live := (records li 8 nLive).map (fun r => (leField r 0 4, leField r 4 4))
              let tums := (records tu 8 nTum).map (fun r => (leField r 0 1, BitVec.ofNat 32 (leField r 4 4)))
              if loads.any (fun l => decide (l.1 + l.2.1 > spSize) || !s.rangeOk space (gOff img + l.2.2) l.2.1)
                || live.any (fun l => l.1 % 64 != 0 || l.2 % 64 != 0 || decide (l.1 + l.2 > spSize)) then .refused s
              else .good { at_ := img, text := text, entry := entry, nLoad := nLoad, nLive := nLive, nTum := nTum,
                           textAt := textAt, loadAt := loadAt, liveAt := liveAt, tumAt := tumAt, live := live, loads := loads, tums := tums } s
          | none => .refused s

/-- Reading a part of an image waits for a channel of LM (R362). -/
def State.partWaits (s : State) (img : Word) (off n : Nat) : Bool := s.isHere img && s.memWaits (gSpace img) (gOff img + off) n

/-- Reading the header and the records of an image waits. -/
def State.imageWaits (s : State) (u : List Upset) (img : Word) : Bool :=
  s.partWaits img 0 64 || (match s.imagePart u img 0 64 with
    | some (h, _, _) => s.partWaits img (leField h 32 8) (16 * min 255 (leField h 12 2)) || s.partWaits img (leField h 40 8) (8 * min 64 (leField h 14 2))
        || s.partWaits img (leField h 48 8) (8 * min 256 (leField h 16 2))
    | none => false)

/-- Copying an image's text and load ranges waits. -/
def State.loadWaits (s : State) (i : Image) : Bool :=
  s.partWaits i.at_ i.textAt i.text || i.loads.any (fun l => s.partWaits i.at_ l.2.2 l.2.1)

def Image.blank : Image :=
  { at_ := 0, text := 0, entry := 0, nLoad := 0, nLive := 0, nTum := 0, textAt := 0, loadAt := 0, liveAt := 0, tumAt := 0,
    live := [], loads := [], tums := [] }

/-- A task as its SUBMIT gives it (R220). (DEDUCED, assumption 32.) -/
def State.submitted (s : State) (q num : Nat) (c : HostCmd) : Task :=
  let flags := c.field 1 1
  { num := num, queue := q, tag := c.tag, cls := c.field 4 1 % 4, ordered := flags.testBit 0, fourMe := flags.testBit 1,
    leafAff := flags.testBit 2, leafMask := BitVec.ofNat 4 (c.field 6 1), coresN := c.field 5 1, image := Image.blank,
    arg := BitVec.ofNat 64 (c.field 16 8), hmKib := c.field 24 4, lmMib := c.field 28 4, job := c.field 32 2, seq := s.nextSeq, qseq := c.seq,
    state := .pending, cores := [], started := 0, fatal := none, jobFatal := none, killed := false, nonFatal := 0, peers := [],
    saved := [], saveAt := 0, stalled := 0, abandoned := false, loadBad := false }

/-- The final entry of a task falls due and its SUBMIT completes (R218, R219). (DEDUCED, assumption 36.) -/
def State.finalEntry (s : State) (t : Task) (c : Cpl) : State :=
  let dropped := !s.qEnabled t.queue
  let s := s.cplDue t.queue c
  let s := if dropped then s.killsSee t.num else s
  match s.cmdOver t.queue t.qseq with
  | (s, some b) => s.cplDue t.queue (cmdEntry b Status.ok)
  | (s, none) => s

/-- The final entry of a task that never started (R222, R226). (DEDUCED, assumption 36.) -/
def Task.refusedEntry (t : Task) (status : Nat) : Cpl :=
  { tag := t.tag, status := status, flags := flagRefused, task := t.num, core := 0xFF, nonFatal := 0, ip := 0 }

/-- SUBMIT: the task is accepted with its number, or refused at once (R220-R223, R226). (DEDUCED, assumption 32.) -/
def execSubmit (q : Fin 64) (u : List Upset) (s : State) : Res :=
  .next (match s.acceptedOp q.val 1 with
    | none => s
    | some c =>
      if s.imageWaits u (BitVec.ofNat 64 (c.field 8 8)) then s
      else
      let num := s.freeTask 65535 s.nextTask
      let s := (s.applied q.val).sramUpsets u
      let t := s.submitted q.val num c
      let img := BitVec.ofNat 64 (c.field 8 8)
      let s := { s with nextTask := num % 65535 + 1, nextSeq := s.nextSeq + 1 }
      let argOk := s.isHere t.arg && gSpace t.arg == spHM && s.hmRange (gOff t.arg) 1
      let refuse := fun (s : State) =>
        ((s.bump Reg.SCHED_STAT_REFUSED 1).raise { Fault_.blank 0 Status.addrRange 0x0801 with
          task := num, job := t.job, addr := img, info0 := BitVec.ofNat 64 (gOff img) }).finalEntry t (t.refusedEntry Status.addrRange)
      match s.readImage u img with
      | .refused s => refuse s
      | .bad space off s =>
        (s.raise { Fault_.blank 3 Status.eccUncorrected 0x0202 with
          task := num, job := t.job, addr := BitVec.ofNat 64 off, info0 := BitVec.ofNat 64 space }).finalEntry t (t.refusedEntry Status.eccUncorrected)
      | .good i s =>
        if !argOk || (t.fourMe && (s.eligible t).isEmpty) then refuse s
        else { s with tasks := s.tasks ++ [{ t with image := i }] })

/-! ### The stop of a task (R60, R231, R232, R417) -/

/-- Destinations in this module's memories that a dispatched instruction may leave in any mixture of old and new
(R417): space, offset and bytes. (DEDUCED, assumption 34.) -/
def State.destsOf (s : State) (c : Nat) (op : EInst) : List (Nat × Nat × Nat) :=
  let sp := fun (w : TileWord) => (Tile.of w).ranges.map (fun r => (spSP, c * 2 ^ 42 + r.1, r.2))
  let far := fun (w : TileWord) (ra rb : Word) =>
    if s.isHere ra ∧ gSpace ra ≤ 2 ∧ s.rangeOk (gSpace ra) (gOff ra) (farSpan (Tile.of w) rb) then
      (farPieces (Tile.of w) rb).map (fun p => (gSpace ra, gOff ra + p.1, p.2.2)) else []
  match op with
  | .get td _ _ _ _ => sp td
  | .put td ra rb _ _ _ => far td ra rb
  | .putSig td ra rb _ _ _ _ _ => far td ra rb
  | .copy td _ => sp td
  | .copyT td _ => sp td
  | .mmDrain td _ _ _ _ => sp td
  | .mv td _ _ _ => sp td
  | .vst _ ts _ _ _ _ => sp ts
  | .vrow _ td _ _ _ _ _ _ => sp td
  | .kvGet td _ _ _ _ => sp td
  | .collOpen td _ _ _ => sp td
  | _ => []

/-- A range of one of this module's memories becomes unspecified. -/
def State.smudge (s : State) (g space off n : Nat) : State :=
  match space with
  | 0 => s.lmSmudge off n g
  | 1 => { s.kvSpoil off n with hm := s.hm.smudge off n g }
  | _ => s.modCore (spCore off) (fun k => { k with sp := k.sp.smudge (spByte off) n g })

/-- Packets of a core that are still held go with the instruction that made them. -/
def State.dropHeld (s : State) (c : Nat) : State :=
  let gone := s.txns.filter (fun x => x.core == c && x.held && ((s.core c).entry? x.id).isNone)
  let s := { s with txns := s.txns.filter (fun x => !(x.core == c && x.held && ((s.core c).entry? x.id).isNone)),
                    c0Held := s.c0Held.filter (fun h => !(gone.any (fun x => x.pkt == h.2.2))) }
  gone.foldl (fun s x => if x.paid then s.winRelease x.pkt.dst x.charge else s) s

/-- Every dispatched instruction of a core is abandoned, and the core stops (R417, R428, R231). (DEDUCED, assumption 34.) -/
def State.abandonCore (s : State) (c : Nat) : State :=
  let (g, s) := s.freshJunk
  let s := s.dropAhead c
  let active := (s.core c).window.filter (fun e => e.phase == .dispatched || e.phase == .waiting)
  let s := active.foldl (fun s e => (s.destsOf c e.op).foldl (fun s d => s.smudge g d.1 d.2.1 d.2.2) s) s
  let s := s.endFillers c []
  let s := s.modCore c (fun k => { (if k.finished then k else k.stop) with window := [] })
  { s with refused := s.refused.filter (fun p => match p.issuer with | .local_ d _ => d != c | _ => true),
           waiters := s.waiters.filter (fun w => w.core != c),
           collWait := s.collWait.filter (fun w => w.1 != c) }.dropHeld c

/-- The cores of a task whose save or restore is under way are its own again: the save or restore stops (R231). -/
def State.stopSave (s : State) (t : Nat) : State :=
  match s.task? t with
  | some x => if x.state = .saving ∨ x.state = .restoring then x.cores.foldl (fun s c => s.modCore c (fun k => { k with task := t })) s else s
  | none => s

/-- The dispatched work of a task is abandoned on every core that runs it, and these cores stop (R231, R232, R417).
(DEDUCED, assumption 34.) -/
def State.abandonTask (s : State) (t : Nat) : State :=
  let s := s.stopSave t
  ((List.range 48).filter (fun c => (s.core c).task == t && t != 0)).foldl (fun s c => s.abandonCore c) s

/-- A task that ends by a job-fatal fault or KILL: a drain stops; a save or restore keeps its cores until the task's end
(R224, R231, R232). -/
def TaskState.halted (x : TaskState) : TaskState := if x = .draining then .running else x

/-- A task ends as by a job-fatal fault with an originating status; a status that reached the scheduler earlier
stays (R428, R430). -/
def State.failTask (s : State) (t status : Nat) : State :=
  (s.abandonTask t).modTask t (fun x =>
    { x with jobFatal := if x.fatal.isSome || x.killed || x.jobFatal.isSome then x.jobFatal else some status,
             abandoned := true, state := x.state.halted })

/-- Every task of a job ends as by a job-fatal fault. (DEDUCED, assumption 77.) -/
def State.failJob (s : State) (job status : Nat) : State :=
  (s.tasks.filter (fun t => t.job == job)).foldl (fun s t => s.failTask t.num status) s

/-- Every task of the module ends as by a job-fatal fault (R330, R414, R427). -/
def State.failAll (s : State) (status : Nat) : State := s.tasks.foldl (fun s t => s.failTask t.num status) s

/-- JOB of an S4 that concerns no job: its record shows 0. (DEDUCED, assumption 77.) -/
def noJob : Nat := 0x10000

/-- Every job with a task on the module takes a job-fatal fault; without one, the record alone is due. -/
def State.jobsFatal (s : State) (f : Fault_) : State :=
  let jobs := ((s.tasks.filter (fun t => t.state != .ended)).map (fun (t : Task) => t.job)).dedup
  if jobs.isEmpty then s.raise { f with job := noJob } else jobs.foldl (fun s j => s.raise { f with job := j }) s

/-- KILL ends one task (R231, R232). (DEDUCED, assumption 36.) -/
def State.killTask (s : State) (t : Nat) : State :=
  (s.abandonTask t).modTask t (fun x =>
    { x with killed := x.jobFatal.isNone, abandoned := true, state := x.state.halted })

/-- KILL command: one task, or every task of a job; ADDR_RANGE when none is named (R219). -/
def execKill (q : Fin 64) (s : State) : Res :=
  .next (match s.acceptedOp q.val 2 with
    | none => s
    | some c =>
      let s := s.applied q.val
      let named := if c.field 1 1 % 2 = 1 then s.tasks.filter (fun t => t.job == c.field 6 2) else s.tasks.filter (fun t => t.num == c.field 4 2)
      if named.isEmpty then s.cmdDone q.val c.seq c.tag Status.addrRange
      else
        let s := named.foldl (fun s t => s.killTask t.num) s
        s.modQueue q.val (fun x => { x with kills := x.kills ++ [(c.seq, c.tag, named.map Task.num)] }))

/-! ### Placement and start (R65, R224-R227) -/

/-- Pages of KV pools in a core's SP: they belong to the page manager and outlast tasks (R204). (DEDUCED, assumption 38.) -/
def State.poolPagesIn (s : State) (c : Nat) : List Nat :=
  (s.kvPages.flatMap (fun (p : KvPage) => (p.pool, p.index) :: (match p.move with | some m => [m] | none => []))).filterMap (fun x =>
    let k := s.pool x.1
    if k.space = 2 ∧ k.core = c then some (k.base + x.2 * 65536) else none)

/-- Every byte of a core's SP becomes unspecified, but for pages of KV pools (R65, R230, R399). (DEDUCED, assumption 38.) -/
def State.smudgeSp (s : State) (c g : Nat) : State :=
  let old := (s.core c).sp
  let m := (s.poolPagesIn c).foldl (fun (m : Mem) o => m.writeN o (old.readN o 65536)) (old.smudge 0 spSize g)
  s.modCore c (fun k => { k with sp := m })

/-- Words of the text. -/
def textWords (bs : List Byte) (n : Nat) : Tab Word :=
  (List.range n).foldl (fun t i => Tab.set t 0 i (BitVec.ofNat 64 (leNat ((bs.drop (8 * i)).take 8)))) []

/-- Copy the text and the load ranges into the cores of a task, in order (R221, R226).
(DESIGN CHOICE, assumption 5; DEDUCED, assumption 32; DEDUCED, assumption 38.) -/
def State.loadTask (s : State) (u : List Upset) (t : Task) : Bad × State :=
  let i := t.image
  let (text, b, s) := s.readSpace u (gSpace i.at_) (gOff i.at_ + i.textAt) i.text 0 1
  let (g, s) := s.freshJunk
  let s := t.cores.foldl (fun s c => (s.smudgeSp c g).modCore c (fun k => { k with ibuf := textWords text (i.text / 8) })) s
  i.loads.foldl (fun r l =>
    let (bs, b, s) := r.2.readSpace u (gSpace i.at_) (gOff i.at_ + l.2.2) l.2.1 0 1
    (r.1.or b, t.cores.foldl (fun s c => s.spWrite c l.1 bs) s)) (b, s)

/-- TASK_PLACE: the first task that can be placed takes its cores, all at once, and its image is copied; `pick` is
the firmware's choice of cores in place of the default policy (R224-R227). -/
def execTaskPlace (t : Nat) (pick : Option (List CoreId)) (u : List Upset) (s : State) : Res :=
  .next (match s.task? t with
    | none => s
    | some x =>
      if s.failed || !s.isNext x || s.loadWaits x.image then s
      else
        let n := s.coresWanted x
        let offer := s.offer x
        let chosen := match pick with
          | none => chooseCores offer n
          | some cs =>
            let cs := (cs.map Fin.val).dedup.mergeSort (fun a b => decide (a ≤ b))
            if cs.length = n ∧ cs.all offer.contains then some cs else none
        match chosen with
        | none => s
        | some cs =>
          if !s.canPlace x cs then s
          else
            let s := s.sramUpsets u
            let hm := s.rd Reg.SCHED_RES_HM_KIB
            let lm := s.rd Reg.SCHED_RES_LM_MIB
            let s := s.modTask t (fun y => { y with state := .loading, cores := cs, hmKib := min y.hmKib hm, lmMib := min y.lmMib lm })
            let (b, s) := s.loadTask u { x with cores := cs }
            match b with
            | .none => s
            | .old o => (s.modTask t (fun y => { y with loadBad := true })).raise { Fault_.blank 3 Status.eccUncorrected 0x0202 with
                task := t, job := x.job, addr := BitVec.ofNat 64 o, info0 := BitVec.ofNat 64 (gSpace x.image.at_) }
            | .found o => (s.modTask t (fun y => { y with loadBad := true })).raise { Fault_.blank 3 Status.eccUncorrected 0x0202 with
                task := t, job := x.job, addr := BitVec.ofNat 64 o, info0 := BitVec.ofNat 64 (gSpace x.image.at_) })

/-- The core state at task start (R65, R102, R108, R138, R142, R151): what it does not name stays, among it the
image's text and load ranges, the enabled arrays, LAST_STATUS and the uncorrectable words of SP. -/
def Core.startWith (k : Core) (t : Task) (c idx floor : Nat) : Core :=
  let lt : Tab Word32 := t.image.tums.foldl (fun x r => Tab.set x 0 r.1 r.2) []
  let s1 : Core := { Core.reset with
    sp := k.sp, spBad := k.spBad, ibuf := k.ibuf, arrays := k.arrays, fails := k.fails, owed := k.owed,
    lastStatus := k.lastStatus, nextId := k.nextId, ip := t.image.entry, lt := lt, ltStart := lt,
    fillMax := Vector.replicate 4 (max 256 floor), state := 1, task := t.num }
  (((s1.sset 1 (BitVec.ofNat 64 idx)).sset 2 (BitVec.ofNat 64 t.cores.length)).sset 3 (BitVec.ofNat 64 c)).sset 4 t.arg

/-- SLOG_RING takes effect on a core; a ring out of one region of R157 sets BAD (R433, R434). (DEDUCED, assumption 73.) -/
def State.latchSlog (s : State) (c : Nat) : State :=
  let base := s.rd (Reg.SLOG_RING_BASE_64K c)
  let size := max 1 (s.rd (Reg.SLOG_RING_SIZE_64K c))
  let en := s.rd (Reg.SLOG_RING_EN c)
  let bad := !s.lmRange (base * 65536) (size * 65536)
  let ring := BitVec.ofNat 64 (base + size * 2 ^ 32 + (if bad then 0 else en) * 2 ^ 48)
  let moved := fld (Tab.get s.slogRing 0 c).toNat 0 48 != fld ring.toNat 0 48
  let s := { s with slogRing := s.slogRing.put c ring, slogs := if moved then Tab.del s.slogs c else s.slogs }
  let s := s.wrb (Reg.SLOG_RING_BAD c) bad
  if bad then s.logS0 Status.addrRange 0x0801 (Reg.SLOG_RING c) else s

/-- One core of a task starts. -/
def State.startCore (s : State) (t : Task) (c idx : Nat) : State :=
  let s := (s.wr (Reg.CORE_RUNAHEAD_STAT_RA_KEPT c) 0).wr (Reg.CORE_RUNAHEAD_STAT_RA_DISCARDED c) 0
  (s.latchSlog c).modCore c (fun k => k.startWith t c idx (s.rd (Reg.LEAF_FILL_CTL_FILL_FLOOR (c / 12))))

/-- TASK_START: the cores of a loaded task hold the state of R65 and issue their first instruction.  The self-tests
that a core owes come first, and a core that one of them leaves short of FOUR_ME sends the task back to placement
(R65, R140, R220, R226). (DEDUCED, assumption 35.) -/
def execTaskStart (t : Nat) (s : State) : Res :=
  .next (match s.task? t with
    | none => s
    | some x =>
      if s.failed || x.state != .loading || x.loadBad || x.killed || x.jobFatal.isSome
        || x.cores.any (fun c => !(s.core c).clear) then s
      else if x.fourMe && x.cores.any (fun c => (s.core c).arrays != 15#4) then s.modTask t (fun y => { y with state := .pending, cores := [] })
      else
        let s := s.modTask t (fun y => { y with state := .running, started := s.clock, peers := [], stalled := 0 })
        (x.cores.zipIdx).foldl (fun s c => s.startCore x c.1 c.2) s)

/-! ### Pre-emption (R228-R231) -/

/-- Live bytes of a list of ranges, overlaps counted once. -/
def liveBytes (rs : List (Nat × Nat)) : Nat :=
  ((rs.mergeSort (fun a b => decide (a.1 ≤ b.1))).foldl (fun (r : Nat × Nat) x =>
    (r.1 + (x.1 + x.2 - max x.1 (min r.2 (x.1 + x.2))), max r.2 (x.1 + x.2))) (0, 0)).1

/-- Bytes of the save area that a task's save takes: its live SP, and per core what the manual gives no size for. (DESIGN CHOICE, assumption 10.) -/
def Task.saveBytes (t : Task) : Nat := t.cores.length * (liveBytes t.image.live + Config.saveExtra.val)

/-- The save area: first byte and bytes in LM; 0 bytes when it does not lie inside one region (R239). (DEDUCED, assumption 33.) -/
def State.saveArea (s : State) : Nat × Nat :=
  let b := s.rd Reg.SCHED_SAVE_BASE_MIB * 0x100000
  let n := s.rd Reg.SCHED_SAVE_SIZE_MIB * 0x100000
  (b, if s.lmRange b n then n else 0)

/-- The parts of the save area in use: first byte and bytes.  A task that KILL or a fault has ended holds none (R231). -/
def State.saves (s : State) : List (Nat × Nat) :=
  (s.tasks.filter (fun t => (t.state == .draining || t.state == .saving || t.state == .preempted || t.state == .restoring)
    && !t.killed && t.jobFatal.isNone && t.fatal.isNone)).map (fun t => (t.saveAt, t.saveBytes))

/-- The first place in the save area for n bytes beside those taken, on a line of LM. (DEDUCED, assumption 33.) -/
def State.savePlace (s : State) (taken : List (Nat × Nat)) (n : Nat) : Option Nat :=
  let (b, len) := s.saveArea
  let at_ := ((b :: taken.map (fun x => (x.1 + x.2 + 255) / 256 * 256)).mergeSort (fun x y => decide (x ≤ y)))
  at_.find? (fun a => decide (b ≤ a ∧ a + n ≤ b + len) && taken.all (fun x => decide (a + n ≤ x.1 ∨ x.1 + x.2 ≤ a)))

/-- Places for the saves of some tasks, in order; none where the save area cannot hold one of them (R228). -/
def State.savePlaces (s : State) : List Task → List (Nat × Nat) → Option (List (Nat × Nat))
  | [], _ => some []
  | v :: vs, taken => do
    let a ← s.savePlace taken v.saveBytes
    let r ← s.savePlaces vs (taken ++ [(a, v.saveBytes)])
    some ((v.num, a) :: r)

/-- Running tasks that may be pre-empted for a task of a class: the highest class first, then the latest started. -/
def State.victims (s : State) (cls : Nat) : List Task :=
  (s.tasks.filter (fun v => v.state == .running && decide (cls < v.cls) && v.fatal.isNone && v.jobFatal.isNone && !v.killed)).mergeSort
    (fun a b => decide (b.cls < a.cls) || (a.cls == b.cls && decide (b.started ≤ a.started)))

/-- Cores that the pending task could take once the listed tasks are gone. -/
def State.offerWithout (s : State) (t : Task) (vs : List Nat) : List Nat :=
  (s.eligible t).filter (fun c => s.leafUp (c / 12) && s.tasks.all (fun x => !(x.state.holds && x.cores.contains c) || vs.contains x.num))

/-- The default choice of victims: in order, as few as free enough cores and whose saves fit (R228). -/
def State.pickVictims (s : State) (t : Task) (going : List Nat) : Option (List Nat) :=
  let el := s.eligible t
  let enough := fun (vs : List Nat) => decide (s.coresWanted t ≤ (s.offerWithout t (going ++ vs)).length)
  let vs := (s.victims t.cls).foldl (fun (vs : List Task) v =>
    if enough (vs.map Task.num) || !(v.cores.any el.contains) || (s.savePlaces (vs ++ [v]) s.saves).isNone then vs else vs ++ [v]) []
  if enough (vs.map Task.num) then some (vs.map Task.num) else none

/-- Cores of a task stop issuing, their run-ahead buffers are emptied, and its save has a place (R229, R64). -/
def State.drainTask (s : State) (v : Nat × Nat) : State :=
  let s := s.modTask v.1 (fun x => { x with state := .draining, saveAt := v.2 })
  match s.task? v.1 with
  | some x => x.cores.foldl (fun s c => (s.dropAhead c).modCore c (fun k => { k with draining := true })) s
  | none => s

/-- PREEMPT_REQUEST: for a pending task whose reservations fit and for which too few eligible cores are free, running
tasks of higher-numbered classes are stopped at their next instruction boundary (R228, R229). -/
def execPreemptRequest (t : Nat) (pick : Option (List Nat)) (s : State) : Res :=
  .next (match s.task? t with
    | none => s
    | some x =>
      let going := (s.tasks.filter (fun (v : Task) => v.state == .draining || v.state == .saving)).map Task.num
      if s.failed || !s.considered x || !s.resFits x || !s.rdb Reg.SCHED_PRE_CTL_PRE_EN || s.saveArea.2 == 0
        || decide (s.coresWanted x ≤ (s.offerWithout x going).length) then s
      else
        let may := s.victims x.cls
        let vs := match pick with
          | none => s.pickVictims x going
          | some vs =>
            if vs.all (may.map Task.num).contains && decide (s.coresWanted x ≤ (s.offerWithout x (going ++ vs)).length) then some vs else none
        match vs.bind (fun vs => s.savePlaces (may.filter (fun v => vs.contains v.num)) s.saves) with
        | none => s
        | some ps => ps.foldl (fun s p => s.drainTask p) s)

/-- A core is at its safe point: nothing dispatched is unfinished but a TUM.WAIT that holds its queue, and no
collective handle is open (R229, R108). -/
def Core.safePoint (k : Core) : Bool :=
  k.window.all (fun e => e.phase == .queued || e.heldWait k) && k.handles.toList.all (fun h => h.isNone)

/-- A woken wait on a hub tumbler is over: its instruction completes before the core is saved. -/
def State.settleWake (s : State) (c : Nat) : State :=
  match (s.core c).stall with
  | some (.hub t _ _ _ words) =>
    if s.waiters.any (fun w => w.core == c && w.tum == t && w.woken) then
      { s with waiters := s.waiters.filter (fun w => !(w.core == c && w.tum == t && w.woken)) }.advance c words
    else s
  | _ => s

/-- The state of a core that is saved: the queues with a TUM.WAIT that held its queue put back, its dispatch wait
consumed (R68, R108, R229). -/
def Core.forSave (k : Core) : Core :=
  { k with draining := false, preRead := [],
           filler := k.filler.map (fun (f : Filler) => { f with running := false }),
           window := k.window.map (fun e => if e.phase == .dispatched then { e with phase := .queued, dw := 0xFF } else e),
           stall := match k.stall with
             | some (.hub t n sc cn w) => some (.hub t n sc cn w)
             | some .ending => some .ending
             | _ => none }

/-- PREEMPT_SAVE: every core of the task is at its safe point and the save begins; from here the cores' tumblers are
those of a pre-empted task (R182, R188, R229, R230). (DEDUCED, assumption 33.) -/
def execPreemptSave (o : Struck Nat) (s : State) : Res :=
  let t := o.arg
  .next (match s.task? t with
    | none => s
    | some x =>
      if s.failed || x.state != .draining || !x.cores.all (fun c => (s.core c).safePoint) then s
      else
        let s := x.cores.foldl (fun s c => (s.settleWake c)) s
        let s := x.cores.foldl (fun s c => s.endFillers c o.upsets) s
        let saved := x.cores.map (fun c => (c, (s.core c).forSave))
        let s := x.cores.foldl (fun s c => s.modCore c (fun k => { k with task := 0 })) s
        { s.modTask t (fun y => { y with state := .saving, saved := saved }) with
          waiters := s.waiters.filter (fun w => !(x.cores.contains w.core)) })

/-- PREEMPT_ABANDON: SAFE_WAIT_US has passed and a core has not reached its safe point; the task resumes (R229). -/
def execPreemptAbandon (t : Nat) (s : State) : Res :=
  .next (match s.task? t with
    | none => s
    | some x =>
      if s.failed || x.state != .draining || x.cores.all (fun c => (s.core c).safePoint) then s
      else
        let s := x.cores.foldl (fun s c => s.modCore c (fun k => { k with draining := false })) s
        ((s.modTask t (fun y => { y with state := .running })).bump Reg.SCHED_STAT_ABANDONED 1).raise
          { Fault_.blank 0 Status.ok 0x0801 with task := t, job := x.job, info0 := BitVec.ofNat 64 Reg.SCHED_PRE_CTL })

/-- The state that a core is left in when its task has been saved (R230). (DEDUCED, assumption 33.) -/
def Core.saved (k : Core) : Core :=
  { k with window := [], stall := none, state := 3, draining := false, ending := false, finished := false, preRead := [], task := 0 }

/-- A save or restore meets an uncorrectable word: the task's job takes a job-fatal fault (R422). -/
def State.saveLost (s : State) (x : Task) (space off : Nat) : State :=
  s.raise { Fault_.blank 4 Status.eccUncorrected 0x0202 with
    task := x.num, job := x.job, addr := BitVec.ofNat 64 off, info0 := BitVec.ofNat 64 space }

/-- The interim entry of a pre-emption (R218). -/
def Task.interimEntry (t : Task) : Cpl :=
  { tag := t.tag, status := Status.preempted, flags := flagInterim, task := t.num, core := 0xFF, nonFatal := t.nonFatal, ip := 0 }

/-- PREEMPT_SAVE_DONE: the task's part of the save area has been written, whole lines whose contents have no layout, STATE reads 3, the interim entry falls due and the cores are free
(R218, R230). -/
def execPreemptSaveDone (t : Nat) (u : List Upset) (s : State) : Res :=
  .next (match s.task? t with
    | none => s
    | some x =>
      if s.failed || x.state != .saving || x.killed || x.jobFatal.isSome || s.lmWaits x.saveAt ((x.saveBytes + 255) / 256 * 256) then s
      else
        let s := s.sramUpsets u
        match x.cores.findSome? (fun c => (s.core c).badIn x.image.live) with
        | some o => s.saveLost x spSP o
        | none =>
          let (g, s) := s.freshJunk
          let (b, s) := s.lmWrite u 0 1 x.saveAt ((List.range ((x.saveBytes + 255) / 256 * 256)).map (Config.junkByte g))
          match b.at? with
          | some o => s.saveLost x spLM o
          | none =>
            let s := x.cores.foldl (fun s c => s.modCore c Core.saved) s
            ((s.modTask t (fun y => { y with state := .preempted })).bump Reg.SCHED_STAT_PREEMPTIONS 1).cplDue x.queue x.interimEntry)

/-- TASK_RESTORE: the cores of a pre-empted task are free and it is the first eligible task (R230). (DEDUCED, assumption 33.) -/
def execTaskRestore (t : Nat) (s : State) : Res :=
  .next (match s.task? t with
    | none => s
    | some x =>
      if s.failed || x.state != .preempted || !s.canGo x || !s.isNext x then s
      else s.modTask t (fun y => { y with state := .restoring }))

/-- The saved state returns to a core; what belongs to the hardware and not to the task stays (R68, R230). (DEDUCED, assumption 33.) -/
def Core.restored (k saved : Core) (t : Nat) : Core :=
  { saved with
    sp := k.sp, spBad := k.spBad, arrays := k.arrays, fails := k.fails, owed := k.owed, lastStatus := k.lastStatus,
    nextId := max k.nextId saved.nextId, state := 1, task := t }

/-- The live ranges of a saved core return to its SP; every other byte is unspecified (R230). -/
def State.restoreSp (s : State) (c g : Nat) (saved : Core) (live : List (Nat × Nat)) : State :=
  live.foldl (fun s r => s.spWrite c r.1 (saved.sp.readN r.1 r.2)) (s.smudgeSp c g)

/-- A parked operation is applied to the restored counts; one whose issuer still waits completes it, and one whose
issuer has completed charges its status to the task (R187, R189). -/
def State.unpark (s : State) (p : Parked) : State :=
  match s.ltApply p.core p.tum p.op with
  | (.applied st old, s) => match p.op with
    | .add _ => s.chargeOwner (ltOff p.core p.tum) (p.sender / 64) (if p.sender % 64 = 63 then 0xFF else p.sender % 64) st
    | .set _ => s
    | _ =>
      let s := match p.issuer, p.opid with
        | .remote src _ _, some o => s.dedupNote src o st (old.setWidth 64)
        | _, _ => s
      s.tumAnswer p.issuer p.op st old
  | (_, s) => s

/-- A saved wait on a hub tumbler registers again, where the tumbler still has an owner (R189). -/
def State.rewait (s : State) (c : Nat) : State :=
  match (s.core c).stall with
  | some (.hub t n _ cn _) =>
    if (s.hubAlloc t).isSome then
      { s with waiters := s.waiters ++ [({ tum := t, core := c, n := n, consume := cn, woken := false } : Waiter)] }.hubWake t
    else s.modCore c (fun k => { k with stall := none })
  | _ => s

/-- TASK_RESTORE_DONE: the counts return, the parked operations are applied in order of arrival, hub waits register
again in core order, and issue resumes (R189, R230). -/
def execTaskRestoreDone (t : Nat) (u : List Upset) (s : State) : Res :=
  .next (match s.task? t with
    | none => s
    | some x =>
      if s.failed || x.state != .restoring || x.killed || x.jobFatal.isSome || s.lmWaits x.saveAt ((x.saveBytes + 255) / 256 * 256) then s
      else
      let (_, b, s) := s.lmRead u 0 1 x.saveAt ((x.saveBytes + 255) / 256 * 256)
      match b.at? with
      | some o => s.saveLost x spLM o
      | none =>
        let (g, s) := s.freshJunk
        let s := x.saved.foldl (fun s k =>
          (s.restoreSp k.1 g k.2 x.image.live).modCore k.1 (fun cur => cur.restored k.2 t)) s
        let s := s.modTask t (fun y => { y with state := .running, saved := [], stalled := 0 })
        let due := s.park.filter (fun p => p.task == t)
        let s := { s with park := s.park.filter (fun p => p.task != t) }
        let s := x.cores.foldl (fun s c => (due.filter (fun p => p.core == c)).foldl State.unpark s) s
        x.cores.foldl (fun s c => s.rewait c) s)

/-! ### The end of a task (R190, R191, R232) -/

/-- Tumblers of a task that differ from where it found them, as tumbler-space offsets in rising order (R191, R197). -/
def State.residue (s : State) (x : Task) : List Nat :=
  ((s.allocs.filter (fun a => a.task == x.num)).flatMap (fun (a : Alloc) =>
        ((List.range a.len).filter (fun i => s.hubGet (a.first + i) != 0)).map (fun i => (a.first + i) * 8))
    ++ x.cores.flatMap (fun c => ((List.range 256).filter (fun n => (s.core c).ltGet n != Tab.get (s.core c).ltStart 0 n)).map (ltOff c))).mergeSort
    (fun a b => decide (a ≤ b))

/-- Count of the tumbler at an offset. -/
def State.countAt (s : State) (off : Nat) : Word32 :=
  match tumOfOff off with
  | some (.inl h) => s.hubGet h
  | some (.inr (c, n)) => (s.core c).ltGet n
  | none => 0

/-- The residue check: it is counted, and a residue makes one S0 record and sets TUM_RESIDUE and TUM_RESIDUE_FIRST
(R191, R197). -/
def State.residueCheck (s : State) (x : Task) : State :=
  let s := s.bump Reg.TUM_RESIDUE_CHECKED 1
  let r := s.residue x
  match r with
  | [] => s
  | o :: _ =>
    let s := ((s.wr Reg.TUM_RESIDUE_TASK x.num).wr Reg.TUM_RESIDUE_RESIDUES (min r.length 65535)).wr Reg.TUM_RESIDUE_FIRST_INDEX (o / 8)
    (s.wr Reg.TUM_RESIDUE_FIRST_VALUE (s.countAt o).toNat).raise { Fault_.blank 0 Status.tumblerResidue 0x0105 with
      task := x.num, job := x.job, info0 := BitVec.ofNat 64 r.length, info1 := BitVec.ofNat 64 o }

/-- Tumblers of an ended task: its allocations are freed, waiters of other tasks get OWNER_GONE, and operations parked
for it are discarded; those whose issuers wait, and those that a TE holds after a refusal, complete with ADDR_RANGE
(R190). -/
def State.releaseTumblers (s : State) (t : Nat) : State :=
  let mine := s.allocs.filter (fun a => a.task == t)
  let s := { s with allocs := s.allocs.filter (fun a => a.task != t) }
  let parked := s.park.filter (fun p => p.task == t)
  let s := { s with park := s.park.filter (fun p => p.task != t) }
  let s := parked.foldl (fun s p => match p.op with
    | .read => s.tumAnswer p.issuer p.op Status.addrRange 0
    | .atom _ _ _ => (match p.issuer with
        | .local_ c id => s.finishRange c id
        | _ => s.tumAnswer p.issuer p.op Status.addrRange 0)
    | _ => s) s
  let gone := s.refused.filter (fun p => p.task == t)
  let s := { s with refused := s.refused.filter (fun p => p.task != t) }
  let s := gone.foldl (fun s p => match p.issuer with | .local_ c id => s.finishRange c id | _ => s) s
  mine.foldl (fun s a => s.ownerGone a.first a.len) s

/-- The final entry of a task (R218, R232). -/
def Task.finalEntryOf (t : Task) : Cpl :=
  let never := t.state == .pending || t.state == .loading
  let (st, core, ip) := match t.fatal with
    | some (st, c, ip) => (st, c, ip)
    | none => (if t.loadBad then Status.eccUncorrected else match t.jobFatal with | some j => j | none => Status.ok, 0xFF, 0)
  { tag := t.tag, status := st, task := t.num, core := core % 256, nonFatal := t.nonFatal, ip := ip % 32768,
    flags := (if t.killed then flagKilled else 0) + (if t.jobFatal.isSome then flagJobFatal else 0) + (if never then flagRefused else 0) }

/-- Every core of the task has finished (R66). -/
def State.allFinished (s : State) (x : Task) : Bool :=
  (x.state == .running || x.state == .draining) && x.cores.all (fun c => (s.core c).finished && (s.core c).task == x.num)

/-- The task is to end: END on every core, a task-fatal status, a job-fatal fault, KILL, or a failed load. -/
def State.taskOver (s : State) (x : Task) : Bool :=
  x.fatal.isSome || x.jobFatal.isSome || x.killed || x.loadBad || s.allFinished x

/-- A tumbler of a task lies at a tumbler-space offset: a hub tumbler that it holds, or a local tumbler of its cores. -/
def State.tumOf (s : State) (x : Task) (off : Nat) : Bool :=
  match tumOfOff off with
  | some (.inl h) => match s.hubAlloc h with | some a => a.task == x.num | none => false
  | some (.inr (c, _)) => x.cores.contains c
  | none => false

/-- Operations on the task's tumblers that this hub has accepted are still to be applied (R191). -/
def State.tumDue (s : State) (x : Task) : Bool :=
  (s.hubIn ++ s.dedupWait).any (fun p =>
    let t := p.typ.val
    let sig := if t = PT.putSig then some (leNat ((p.payload.drop 6).take 2) * 8) else if t = PT.putSigData ∧ p.sig then some (p.sigtum * 8) else none
    ((t == PT.tumAdd || t == PT.tumSet || (t == PT.atom && p.space == spTUM)) && s.tumOf x (unpackOff p.space p.offset))
      || (match sig with | some o => s.tumOf x o | none => false))

/-- The residue check of a task's end waits for the operations that this hub has accepted (R191). -/
def State.residueWaits (s : State) (x : Task) : Bool := s.allFinished x && s.tumDue x

/-- TASK_END: the residue check after END on every core, the release of the task's tumblers, the final entry, and the
release of its cores, reservations and number (R66, R67, R190, R191, R231, R232).  An S5 writes no final entry
(R414). (DESIGN CHOICE, assumption 4; DESIGN CHOICE, assumption 82.) -/
def execTaskEnd (t : Nat) (s : State) : Res :=
  .next (match s.task? t with
    | none => s
    | some x =>
      if !s.taskOver x || (x.fatal.isNone && x.jobFatal.isNone && !x.killed && s.residueWaits x) then s
      else
        let clean := s.allFinished x && x.fatal.isNone && x.jobFatal.isNone && !x.killed
        let s := if clean then s.residueCheck x else s
        let held := (List.range 48).filter (fun c => (s.core c).task == t)
        let s := s.collTaskGone held
        let s := held.foldl (fun s c => (s.dropAhead c).endFillers c []) s
        let s := (List.range 48).foldl (fun s c => s.modCore c (fun k =>
          if k.task = t then { k with task := 0, state := if k.state = 2 then 2 else 0, finished := false, ending := false, stall := none, draining := false }
          else if k.task = 0 ∧ x.saved.any (fun y => y.1 == c) ∧ s.tasks.all (fun y => y.num == t || y.saved.all (fun z => z.1 != c)) then
            { k.saved with state := 0 }
          else k)) s
        let s := held.foldl (fun s c => s.dropHeld c) s
        let s := { s with waiters := s.waiters.filter (fun w => !(held.contains w.core)), collWait := s.collWait.filter (fun w => !(held.contains w.1)) }
        let s := s.releaseTumblers t
        let s := { s with tasks := s.tasks.filter (fun y => y.num != t) }
        if s.failed then s else s.finalEntry x x.finalEntryOf)

/-! ### The C0 allowance (R235) -/

/-- C0_TOKEN_REFILL: one token per 64 ns, at most 16; held packets take tokens. -/
def execC0TokenRefill (s : State) : Res :=
  .next (if s.failed then s
    else let s := s.wr Reg.SCHED_C0_STAT_TOKENS (min 16 (s.rd Reg.SCHED_C0_STAT_TOKENS + 1))
      State.drainC0 16 s)

end Sys2Proof.Machine
end

