-- ==== Sys2Proof/Machine/Wire.lean ====
section
/-! DEFINITION. What a port's lanes carry, byte by byte: packet headers and extensions (R275, R277, R278), link-control
flits (R271), frames with their trailers and CRC (R266, R267), alignment markers (R263) and training blocks (R265); the budget messages of the
leaf links' sidebands (R351). -/

namespace Sys2Proof.Machine

/-- A value in the `w` bits from bit `lo` on of a number. -/
def bitsAt (lo w v : Nat) : Nat := v % 2 ^ w * 2 ^ lo

/-- Some bytes, filled up with zeros to a length. -/
def padTo (n : Nat) (bs : List Byte) : List Byte := bs.take n ++ List.replicate (n - bs.length) 0

/-- A little-endian field of some bytes. -/
def leAt (bs : List Byte) (i n : Nat) : Nat := leNat ((bs.drop i).take n)

/-! ### HEAD flits (R275, R277, R278) -/

/-- Header bits [127:0] (R275). -/
def headerBits (p : Packet) : Nat :=
  bitsAt 0 5 p.typ.val + bitsAt 5 2 p.cls.val + bitsAt 7 1 p.dl.toNat + bitsAt 8 1 p.dt.toNat + bitsAt 9 5 p.hops
    + bitsAt 14 12 p.dst + bitsAt 26 12 p.src + bitsAt 38 16 p.job + bitsAt 54 7 p.len + bitsAt 61 15 p.tag
    + bitsAt 76 3 p.space + bitsAt 79 40 p.offset.toNat + bitsAt 119 6 p.count + bitsAt 125 1 p.xt.toNat

/-- The extension of a data HEAD flit, bytes 16-63 (R278). -/
def extBytes (p : Packet) : List Byte :=
  leBytes 4 p.pcrc.toNat ++ leBytes 2 p.sigref ++ leBytes 1 p.sig.toNat ++ leBytes 1 0 ++ leBytes 4 p.opid.toNat
    ++ leBytes 2 p.inc ++ leBytes 2 p.sigtum ++ leBytes 4 p.sigbytes ++ leBytes 4 0 ++ maskBytes p.mask
    ++ leBytes 4 p.digest.toNat ++ leBytes 4 p.ccrc.toNat

/-- The 64 bytes of a HEAD flit: header, then extension or control payload. -/
def headBytes (p : Packet) : List Byte :=
  leBytes 16 (headerBits p) ++ (if PT.isData p.typ.val then extBytes p else padTo 48 p.payload)

/-- The packet that a HEAD flit starts: a control packet whole, a data packet without its payload. -/
def headOf (b : List Byte) : Packet :=
  let h := leNat (b.take 16)
  let t := fld h 0 5
  let x := if PT.isData t then b.drop 16 else []
  { typ := ptype t, cls := pclass (fld h 5 2), dl := h.testBit 7, dt := h.testBit 8, hops := fld h 9 5, dst := fld h 14 12,
    src := fld h 26 12, job := fld h 38 16, len := fld h 54 7, tag := fld h 61 15, space := fld h 76 3,
    offset := BitVec.ofNat 40 (fld h 79 40), count := fld h 119 6, xt := h.testBit 125,
    payload := if PT.isData t then [] else ((b.drop 16).take 48).take (fld h 119 6),
    pcrc := BitVec.ofNat 32 (leAt x 0 4), sigref := leAt x 4 2, sig := (leAt x 6 1).testBit 0, opid := BitVec.ofNat 32 (leAt x 8 4),
    inc := leAt x 12 2, sigtum := leAt x 14 2, sigbytes := leAt x 16 4, mask := maskOf ((x.drop 24).take 16),
    digest := BitVec.ofNat 32 (leAt x 40 4), ccrc := BitVec.ofNat 32 (leAt x 44 4) }

/-! ### Link-control flits (R271) -/

/-- The 24 counts of SYNC and CREDIT_INIT. -/
def countBytes (cs : List Nat) : List Byte := (List.range 24).flatMap (fun vc => leBytes 2 (cs.getD vc 0))

def countsOf (b : List Byte) : List Nat := (List.range 24).map (fun vc => leAt b (2 + 2 * vc) 2)

/-- LTYPE. -/
def linkType (l : LinkFlit) : Nat :=
  match l with
  | .heartbeat .. => 0x01
  | .vcsel _ => 0x02
  | .abort _ => 0x03
  | .syncReq => 0x04
  | .sync _ => 0x05
  | .laneMask .. => 0x06
  | .laneReq .. => 0x07
  | .violation .. => 0x08
  | .down _ => 0x09
  | .key .. => 0x10
  | .creditInit _ => 0x11
  | .reject .. => 0x12
  | .reserved t => t

/-- Bytes from byte 2 on. -/
def linkFields (l : LinkFlit) : List Byte :=
  match l with
  | .heartbeat m p st t => leBytes 2 m ++ leBytes 1 p ++ leBytes 1 st ++ leBytes 2 0 ++ leBytes 8 t.toNat
  | .vcsel vc => leBytes 1 vc
  | .abort vc => leBytes 1 vc
  | .syncReq => []
  | .sync cs => countBytes cs
  | .laneMask m g => leBytes 2 m.toNat ++ leBytes 1 g
  | .laneReq l r => leBytes 1 l ++ leBytes 1 r.toNat
  | .violation code vc n => leBytes 1 code ++ leBytes 1 vc ++ leBytes 2 n
  | .down c => leBytes 1 c
  | .key m p ad rt mt k => leBytes 2 m ++ leBytes 1 p ++ leBytes 1 (ad.toNat + 2 * rt.toNat + 4 * mt.toNat) ++ leBytes 2 0 ++ leBytes 8 k.toNat
  | .creditInit cs => countBytes cs
  | .reject st m p => leBytes 1 st ++ leBytes 1 0 ++ leBytes 2 m ++ leBytes 1 p
  | .reserved _ => []

/-- The link-control flit of 64 bytes. -/
def linkOf (b : List Byte) : LinkFlit :=
  let f := leAt b
  match f 0 1 with
  | 0x01 => .heartbeat (f 2 2) (f 4 1) (f 5 1) (BitVec.ofNat 64 (f 8 8))
  | 0x02 => .vcsel (f 2 1)
  | 0x03 => .abort (f 2 1)
  | 0x04 => .syncReq
  | 0x05 => .sync (countsOf b)
  | 0x06 => .laneMask (BitVec.ofNat 16 (f 2 2)) (f 4 1)
  | 0x07 => .laneReq (f 2 1) ((f 3 1).testBit 0)
  | 0x08 => .violation (f 2 1) (f 3 1) (f 4 2)
  | 0x09 => .down (f 2 1)
  | 0x10 => .key (f 2 2) (f 4 1) ((f 5 1).testBit 0) ((f 5 1).testBit 1) ((f 5 1).testBit 2) (BitVec.ofNat 64 (f 8 8))
  | 0x11 => .creditInit (countsOf b)
  | 0x12 => .reject (f 2 1) (f 4 2) (f 6 1)
  | t => .reserved t

/-! ### Flit slots and frames (R266, R267) -/

/-- SLOT_TYPE. -/
def slotCode (f : Flit) : Nat :=
  match f with
  | .null => 0
  | .head _ => 1
  | .body _ => 2
  | .link _ => 3

/-- The 64 bytes of a slot. -/
def slotBytes (f : Flit) : List Byte :=
  match f with
  | .null => List.replicate 64 0
  | .head p => headBytes p
  | .body d => padTo 64 d
  | .link l => padTo 64 (leBytes 1 (linkType l) ++ leBytes 1 0 ++ linkFields l)

/-- The slot of a type and 64 bytes. -/
def flitOf (code : Nat) (b : List Byte) : Flit :=
  match code with
  | 0 => .null
  | 1 => .head (headOf b)
  | 2 => .body b
  | _ => .link (linkOf b)

/-- Trailer bits below the CRC. -/
def trailerBits (f : Frame) : Nat :=
  ((List.range 32).map (fun i => bitsAt (2 * i) 2 (slotCode (f.slots.getD i .null)))).sum + bitsAt 64 12 f.fseq + bitsAt 76 12 f.ack
    + bitsAt 88 1 f.nak.toNat + bitsAt 89 1 f.empty.toNat
    + ((List.range 4).map (fun i => let c := f.credits.getD i (31, 0); bitsAt (96 + 18 * i) 5 c.1 + bitsAt (101 + 18 * i) 13 c.2)).sum

/-- Frame bytes 0-2,075. -/
def frameBody (f : Frame) : List Byte := (List.range 32).flatMap (fun i => slotBytes (f.slots.getD i .null)) ++ leBytes 28 (trailerBits f)

/-- The 2,080 bytes of a frame. -/
def frameBytes (f : Frame) : List Byte := frameBody f ++ leBytes 4 (crc32c (frameBody f))

/-- The CRC of a frame passes (R267). -/
def frameCrcOk (b : List Byte) : Bool := leAt b 2076 4 == crc32c (b.take 2076)

/-- The frame that 2,080 bytes hold. -/
def frameOf (b : List Byte) : Frame :=
  let t := leAt b 2048 28
  { slots := (List.range 32).map (fun i => flitOf (fld t (2 * i) 2) ((b.drop (64 * i)).take 64)),
    fseq := fld t 64 12, ack := fld t 76 12, nak := t.testBit 88, empty := t.testBit 89,
    credits := (List.range 4).map (fun i => (fld t (96 + 18 * i) 5, fld t (101 + 18 * i) 13)) }

/-! ### Blocks outside the codewords (R263, R265) -/

/-- SYNC of an alignment marker and of a training marker. -/
def alignSync : Nat := 0x9A3CE15B72D04F86
def trainSync : Nat := 0x3C5A96E10F69A5C3

/-- Bytes 8-11 of an alignment marker: LANE, MGEN, MASK. -/
def alignFields (lane mgen : Nat) (mask : BitVec 16) : List Byte := leBytes 1 lane ++ leBytes 1 mgen ++ leBytes 2 mask.toNat

/-- The 20 bytes of an alignment marker. -/
def alignBytes (lane mgen : Nat) (mask : BitVec 16) (cwc : Word32) : List Byte :=
  let b := alignFields lane mgen mask
  leBytes 8 alignSync ++ b ++ leBytes 4 cwc.toNat ++ b.map (fun x => ~~~x)

/-- SYNC and CHK of a received alignment marker are right. -/
def alignGood (b : List Byte) : Bool := leAt b 0 8 == alignSync && (b.drop 16).take 4 == ((b.drop 8).take 4).map (fun x => ~~~x)

/-- The 20 bytes of a training marker. -/
def trainMarker (lane stage : Nat) (rxReady : BitVec 16) : List Byte :=
  leBytes 8 trainSync ++ leBytes 1 lane ++ leBytes 1 stage ++ leBytes 2 rxReady.toNat ++ leBytes 8 0

/-- PRBS31, x^31 + x^28 + 1: the last 31 bits, the newest in bit 0, and one more. -/
def prbsStep (x : BitVec 31) : BitVec 31 := (x <<< 1) ||| BitVec.ofNat 31 ((x.getLsbD 30).xor (x.getLsbD 27)).toNat

/-- The generator after some bits. -/
def prbsSkip : Nat → BitVec 31 → BitVec 31
  | 0, x => x
  | n + 1, x => prbsSkip n (prbsStep x)

/-- Eight bits of the generator as a byte, the first in bit 0. -/
def prbsByte (x : BitVec 31) : Byte := BitVec.ofNat 8 (((List.range 8).map (fun i => bitsAt i 1 (prbsSkip (i + 1) x).toNat)).sum)

/-- Bytes of the generator. -/
def prbsBytes : Nat → BitVec 31 → List Byte
  | 0, _ => []
  | n + 1, x => prbsByte x :: prbsBytes n (prbsSkip 8 x)

/-- The bytes of a block that a lane of a port sends; a training block's generator goes on from the block before. -/
def LaneBlock.bytes (port : Nat) (b : LaneBlock) : List Byte :=
  match b with
  | .align lane mgen mask cwc => alignBytes lane mgen mask cwc
  | .train lane stage ready n => trainMarker lane stage ready ++ prbsBytes 8192 (prbsSkip (65536 * n) (Config.prbsSeed port lane))

/-! ### Budget messages of the sidebands (R351) -/

/-- GRANT, hub to leaf. -/
def grantBytes (seq watts : Nat) (capDrop : Bool) (time : Word) : List Byte :=
  leBytes 1 1 ++ leBytes 1 seq ++ leBytes 2 watts ++ leBytes 1 capDrop.toNat ++ leBytes 3 0 ++ leBytes 8 time.toNat

/-- REPORT, leaf to hub. -/
def reportBytes (seq request draw temp flags : Nat) (active : BitVec 12) : List Byte :=
  leBytes 1 2 ++ leBytes 1 seq ++ leBytes 2 request ++ leBytes 2 draw ++ leBytes 1 temp ++ leBytes 1 flags ++ leBytes 2 active.toNat ++ leBytes 6 0

end Sys2Proof.Machine
end

