-- ==== Sys2Proof/Machine/Router.lean ====
section
/-! DEFINITION. The router: wiring (R240-R243), routing entries and lookups (R244-R250), transit marks (R253),
multicast copies (R310, R311), table computation, link notices and the partition check (R256, R257, R429). -/

namespace Sys2Proof.Machine

/-! ### The installed map (R240-R243, R384) -/

/-- A byte of the installed configuration record in force. -/
def State.cfgByte (s : State) (i : Nat) : Nat := (s.config.getD i 0).toNat

/-- A little-endian number of the record. -/
def State.cfgNum (s : State) (i n : Nat) : Nat := leNat ((s.config.drop i).take n)

/-- A module is installed at a number (R384). -/
def State.present (s : State) (m : Nat) : Bool := (s.cfgByte (400 + m / 8)).testBit (m % 8)

/-- The attaching module and port of an edge adapter's number (R243, R384, R385). -/
def State.adapterAt (s : State) (d : Nat) : Option (Nat × Nat) :=
  if s.present d then none
  else ((List.range 64).map (fun i => s.cfgNum (144 + 4 * i) 4)).findSome? (fun v =>
    if v.testBit 31 && fld v 0 12 == d then some (fld v 12 12, 18 + fld v 24 1) else none)

def isRing (p : Nat) : Bool := 14 ≤ p && p ≤ 17
def isEdge (p : Nat) : Bool := 18 ≤ p

/-- Link-level retry runs on X, Y and edge ports (R261). -/
def hasRetry (p : Nat) : Bool := !isRing p

/-- Dimension of a port: 0 X, 1 Y, 2 Z, 3 W, 4 edge. -/
def portDim (p : Nat) : Nat := if p < 7 then 0 else if p < 14 then 1 else if p < 16 then 2 else if p < 18 then 3 else 4

/-- Neighbour and its port of port p of module m by the wiring of R240; none where a ring of length 1 carries no
link, and for edge ports. -/
def State.wire (s : State) (m p : Nat) : Option (Nat × Nat) :=
  let zl := s.rd Reg.RT_CTL_ZLEN
  let wl := s.rd Reg.RT_CTL_WLEN
  let (x, y, z, w) := (mX m, mY m, mZ m, mW m)
  if p < 7 then
    let x' := if p ≥ x then p + 1 else p
    some (mAt x' y z w, if x > x' then x - 1 else x)
  else if p < 14 then
    let y' := if p - 7 ≥ y then p - 6 else p - 7
    some (mAt x y' z w, 7 + (if y > y' then y - 1 else y))
  else if p < 16 then
    if zl < 2 then none
    else if p = 14 then some (mAt x y ((z + 1) % zl) w, 15) else some (mAt x y ((z + zl - 1) % zl) w, 14)
  else if p < 18 then
    if wl < 2 then none
    else if p = 16 then some (mAt x y z ((w + 1) % wl), 17) else some (mAt x y z ((w + wl - 1) % wl), 16)
  else none

/-- The map gives port p of this module a neighbour, and R16 does not hold it down (R242, R259). -/
def State.mapped (s : State) (p : Nat) : Bool := (s.rd Reg.RT_LINKS_MAPPED).testBit p

/-- The mask pair that names every position of the hall grid (R424). -/
def State.hallMask (s : State) : MaskPair :=
  { inRack := BitVec.allOnes 64,
    racks := ((List.range 64).filter (fun i => i % 8 < s.rd Reg.RT_CTL_ZLEN && i / 8 < s.rd Reg.RT_CTL_WLEN)).foldl
      (fun (b : Word) i => b ||| BitVec.twoPow 64 i) 0 }

/-! ### Routing entries (R245) -/

/-- A primary field, for the dimensions X, Y, Z, W as 0-3: a port of its own dimension, or none. -/
def rtPrimary (e k : Nat) : Option Nat :=
  let v := fld e (if k = 0 then 23 else if k = 1 then 18 else if k = 2 then 13 else 8) 5
  if v < 20 ∧ (portDim v = k ∨ (k = 0 ∧ isEdge v)) then some v else none

/-- A detour field: the sideways X hop of W, Z and X, or the Y hop of Y. -/
def rtDetour (e k : Nat) : Option Nat :=
  let v := fld e (if k = 0 then 43 else if k = 1 then 38 else if k = 2 then 33 else 28) 5
  if v < 14 ∧ portDim v = (if k = 1 then 1 else 0) then some v else none

def rtForce (e : Nat) : Bool := e.testBit 3
def rtXW (e : Nat) : Bool := e.testBit 4
def rtXZ (e : Nat) : Bool := e.testBit 5

/-- The channel of a header (R275). -/
def pktVc (p : Packet) : Nat :=
  if p.xt then 16 + 2 * p.cls.val + p.dl.toNat else 4 * p.cls.val + p.dl.toNat + 2 * p.dt.toNat

/-! ### Lookup (R246) -/

/-- A port is usable: its link is in service, carries traffic since the last flip, and does not lead to a module
declared dead (R246, R257, R258). (DEDUCED, assumption 39.) -/
def State.usable (s : State) (p : Nat) : Bool :=
  s.rd (Reg.LK_STATE_STATE p) == 4 && s.routable.contains p
    && !(s.fdDead (s.rd (Reg.LK_NBR_EXP_MODULE p)) && !isEdge p)

/-- What a lookup decides. -/
inductive Hop where
  | invalid
  | padlock
  | toHub
  | out (port : Nat) (detour force : Bool)
  | hold
  deriving DecidableEq, Repr

/-- The dimensions in their order, W first. -/
def State.lookupDims (s : State) (e : Nat) (dt : Bool) : List Nat → Hop
  | [] => .toHub
  | k :: ks =>
    match rtPrimary e k with
    | none => s.lookupDims e dt ks
    | some p =>
      if s.usable p then .out p false (rtForce e)
      else match rtDetour e k with
        | some d => if !dt && s.usable d then .out d true true else .hold
        | none => .hold

/-- Look up a destination for a packet whose detour bit is `dt` (R246, R249). -/
def State.lookup (s : State) (d : Nat) (dt : Bool) : Hop :=
  let e := s.route d
  if !(rtValid e) then .invalid
  else if rtPadlock e then .padlock
  else if rtLocal e then .toHub
  else s.lookupDims e dt [3, 2, 1, 0]

/-! ### Forwarding (R248, R250, R253) -/

/-- The header as it leaves by a port (R248, R250, R253). -/
def State.hopHeader (s : State) (p : Packet) (arrived : Option Nat) (e port : Nat) (det : Bool) : Packet :=
  let same := match arrived with | some a => portDim a == portDim port | none => false
  let dl := (same && p.dl) || (portDim port == 2 && rtXZ e) || (portDim port == 3 && rtXW e)
  let dt := p.dt || det
  let ring := match arrived with | some a => isRing a | none => false
  let job := s.rd Reg.RT_JOB_JOB
  let transit := ring && isRing port && same && !dt && job != 0 && p.job != job
  { p with dl := dl, dt := dt, hops := p.hops + 1, xt := transit }

/-- What each copy of a buffered packet has sent on: nothing where it is held or queued, the flits sent where it is under
way. -/
def State.copiesSent (s : State) (a b : Nat) : List Nat :=
  (s.held.filter (fun h => h.arrived == some a && h.buf == b)).map (fun _ => 0)
    ++ s.ports.toList.flatMap (fun t =>
        (t.txq.filter (fun x => x.2.2.arrived == some a && x.2.2.buf == b)).map (fun _ => 0)
          ++ (t.txProg.filter (fun x => x.arrived == some a && x.buf == b)).map TxPkt.sent)

/-- The flits of a receive buffer that every copy of their packet has sent on are freed; with no copy left, all that came
(R246, R272, R310). (DEDUCED, assumption 43.) -/
def State.freeBuf (s : State) (a b : Nat) : State :=
  match (s.port a).rxProg.find? (fun r => r.id == b) with
  | none => s
  | some r =>
    let cs := s.copiesSent a b
    let n := max r.freed (cs.foldl min r.got)
    let gone := cs.isEmpty && r.got == r.total
    s.modPort a (fun t => { t with
      freed := t.freed.put r.vc (Tab.get t.freed 0 r.vc + (n - r.freed)),
      rxProg := (t.rxProg.map (fun x => if x.id == b then { x with freed := n } else x)).filter (fun x => !(gone && x.id == b)) })

/-- A copy of a packet has left the router's hold: the flits that no copy needs any more are freed. -/
def State.freeFlits (s : State) (h : Held) : State :=
  match h.arrived with
  | none => s
  | some a => s.freeBuf a h.buf

/-- The packet as the hub takes it: a data packet that came by a link without the filling of its last flit (R275). -/
def Held.whole (h : Held) : Packet :=
  if h.arrived.isSome && PT.isData h.pkt.typ.val then { h.pkt with payload := h.pkt.payload.take (dataBytes h.pkt) } else h.pkt

/-- Packets queued for a port whose first flit has not been sent are looked up again (R255). -/
def State.requeue (s : State) (p : Nat) : State :=
  { s with held := s.held ++ (s.port p).txq.map (fun (x : Nat × Packet × Held) => x.2.2) }.modPort p (fun t => { t with txq := [] })

/-- The links to a module count as lost (R258). (DEDUCED, assumption 53.) -/
def State.requeueDead (s : State) (m : Nat) : State :=
  ((List.range 18).filter (fun p => s.rd (Reg.LK_NBR_EXP_MODULE p) == m)).foldl (fun s p => s.requeue p) s

/-- Bytes of an adapter's window that a reply leaving through its edge port releases (R282): WIN of an ACK, the
charge of an answered ATOM. -/
def winOf (p : Packet) : Nat :=
  if p.typ.val = PT.ack then leNat ((p.payload.drop 4).take 4)
  else if p.typ.val = PT.atomResp then 24
  else 0

/-- A packet joins the queue of an output port.  An edge adapter gets no KV_UPDATE and no COLL (R289). -/
def State.toPort (s : State) (port : Nat) (p : Packet) (h : Held) : State :=
  if isEdge port && (p.typ.val == PT.kvUpdate || p.typ.val == PT.collData || p.typ.val == PT.collCtl) then s.freeFlits h
  else s.modPort port (fun t => { t with
    txq := t.txq ++ [(pktVc p, p, h)],
    edgeWin :=
      let d := Tab.get t.edgeTag p.src p.tag
      if isEdge port && PT.isReply p.typ.val then t.edgeWin.put d (Tab.get t.edgeWin 0 d - winOf p) else t.edgeWin })

/-- A packet through a detour field is counted (R259). -/
def State.countDetour (s : State) (det : Bool) : State := if det then s.bumpK Reg.RT_STAT_DETOURS 1 else s

/-! ### Multicast (R310, R311) -/

/-- A notice's kind. -/
def noticeKind (p : Packet) : Nat := (p.payload.headD 0).toNat

/-- The mask pair of a multicast packet: its payload's first 16 bytes, the header extension of a data PUT.MC, or
bytes 32-47 of a notice that is sent to all (R277, R278, R424). -/
def mcMask (p : Packet) : Option MaskPair :=
  if p.typ.val = PT.putMc ∨ p.typ.val = PT.kvUpdate then some (maskOf p.payload)
  else if p.typ.val = PT.putMcData then some p.mask
  else if p.typ.val = PT.notice ∧ noticeKind p ≠ 6 then some (maskOf (p.payload.drop 32))
  else none

/-- The packet with its mask pair replaced. -/
def setMask (p : Packet) (m : MaskPair) : Packet :=
  if p.typ.val = PT.putMcData then { p with mask := m }
  else
    let at_ := if p.typ.val = PT.notice then 32 else 0
    { p with mask := m, payload := p.payload.take at_ ++ maskBytes m ++ p.payload.drop (at_ + 16) }

/-- The least mask pair that names some destinations. -/
def maskFor (ds : List Nat) : MaskPair :=
  { inRack := ds.foldl (fun (b : Word) d => b ||| BitVec.twoPow 64 (inRackBit d)) 0,
    racks := ds.foldl (fun (b : Word) d => b ||| BitVec.twoPow 64 (rackBit d)) 0 }

/-- Mask pairs that name exactly some destinations: one when they form a product of positions and racks, else
one per rack. -/
def cutMasks (ds : List Nat) : List MaskPair :=
  if ds.isEmpty then []
  else
    let m := maskFor ds
    if (onesBelow 64 m.inRack.toNat).length * (onesBelow 64 m.racks.toNat).length = ds.length then [m]
    else (onesBelow 64 m.racks.toNat).map (fun r => maskFor (ds.filter (fun d => rackBit d == r)))

/-- A packet whose missed destinations are reported (R118, R281, R311): a notice's are not (R424). -/
def reportsMiss (p : Packet) : Bool := PT.multicast p.typ.val

/-- MC_MISS to the source, naming the missed destinations (R311). -/
def State.sendMisses (s : State) (h : Held) (ds : List Nat) : State :=
  if reportsMiss h.pkt then
    (cutMasks ds).foldl (fun s m => s.inject (s.replyTo h.pkt PT.mcMiss (leBytes 8 Status.padlocked ++ maskBytes m))) s
  else s

/-- The copies of one outcome of the lookups; a copy for the hub waits until the packet has come whole. (DEDUCED,
assumption 43; DEDUCED, assumption 44.) -/
def State.mcCopies (s : State) (h : Held) (hop : Hop) (ds : List Nat) : State :=
  match hop with
  | .out port det force =>
    let e := s.route (ds.headD 0)
    (cutMasks ds).foldl (fun s m =>
      let q := s.hopHeader (setMask h.pkt m) h.arrived e port (det || force)
      (s.toPort port q { h with pkt := setMask h.pkt m }).countDetour det) s
  | .hold => (cutMasks ds).foldl (fun s m => { s with held := s.held ++ [{ h with pkt := setMask h.pkt m }] }) s
  | .toHub => (cutMasks ds).foldl (fun s m =>
      if h.due = 0 then { s with hubIn := s.hubIn ++ [setMask h.whole m] } else { s with held := s.held ++ [{ h with pkt := setMask h.pkt m }] }) s
  | _ => s.sendMisses h ds

/-- A multicast packet's destinations, sorted by the outcome of their lookups. (DEDUCED, assumption 43.) -/
def State.routeMc (s : State) (h : Held) (m : MaskPair) : State :=
  let ds := maskMembers m
  let hop := fun d => s.lookup d h.pkt.dt
  let missed := ds.filter (fun d => hop d == .invalid || hop d == .padlock)
  let hops := ((ds.map hop).dedup).filter (fun x => x != .invalid && x != .padlock)
  (hops.foldl (fun s' x => s'.mcCopies h x (ds.filter (fun d => hop d == x))) s).sendMisses h missed

/-! ### One packet (R246) -/

/-- A unicast packet. -/
def State.routeUni (s : State) (h : Held) : State :=
  let p := h.pkt
  match s.lookup p.dst p.dt with
  | .invalid =>
    let s := s.freeFlits h
    if isRequest p.typ.val then (s.bump Reg.RT_STAT_NO_ROUTE 1).answerStatus p Status.addrRange else s
  | .padlock => (s.freeFlits h).answerStatus p Status.padlocked
  | .toHub => if h.due = 0 && !s.wantsSlot h.whole then { s.freeFlits h with hubIn := s.hubIn ++ [h.whole] } else { s with held := s.held ++ [h] }
  | .out port det force => (s.toPort port (s.hopHeader p h.arrived (s.route p.dst) port (det || force)) h).countDetour det
  | .hold => { s with held := s.held ++ [h] }

/-- Look a packet up and act on it. (DEDUCED, assumption 40; DEDUCED, assumption 44.) -/
def State.routeHeld (s : State) (h : Held) : State :=
  if h.arrived.isSome && decide (h.pkt.hops ≥ 16) then
    ((s.freeFlits h).bump Reg.RT_STAT_HOP_DROPS 1).raise { Fault_.blank 0 Status.ok 0x0401 with other := h.pkt.dst }
  else match mcMask h.pkt with
    | some m => (s.routeMc { h with started := true } m).freeFlits h
    | none => s.routeUni { h with started := true }

/-- PACKET_ROUTE: the packet leaves the router's held packets, is looked up and is delivered, sent, answered or
held again (R246). (DEDUCED, assumption 40; DEDUCED, assumption 44.) -/
def execPacketRoute (p : Packet) (arrived : Option PortId) (s : State) : Res :=
  let a := arrived.map Fin.val
  let h := (s.held.find? (fun (x : Held) => x.pkt == p && x.arrived == a)).getD { pkt := p, arrived := a, buf := 0, due := 0, started := false }
  .next ({ s with held := s.held.erase h }.routeHeld h)

/-- Drop a packet whose head has waited 250 µs, among those held and then those queued at the ports (R418). -/
def State.headTimeout (s : State) (i : Nat) : List Nat → State
  | [] => s
  | p :: ps =>
    let n := (s.port p).txq.length
    match (s.port p).txq[i]? with
    | some (_, _, h) => (s.modPort p (fun t => { t with txq := t.txq.eraseIdx i })).freeFlits h
    | none => s.headTimeout (i - n) ps

/-- ROUTER_HEAD_TIMEOUT (R418). -/
def execRouterHeadTimeout (i : Nat) (s : State) : Res :=
  .next (match s.held[i]? with
    | some h => { s with held := s.held.eraseIdx i }.freeFlits h
    | none => s.headTimeout (i - s.held.length) (List.range 20))

/-! ### Table computation (R251, R256) -/

/-- Hops and direction round a ring of a length from coordinate i to j, by the direction bits. -/
def ringBy (bits : Nat) (len i j : Nat) : Nat × Bool :=
  if i = j then (0, true)
  else if bits.testBit (i * 8 + j) then ((j + len - i) % len, true) else ((i + len - j) % len, false)

/-- Hops and direction by the shorter way, ties going to + (R251). -/
def ringShort (len i j : Nat) : Nat × Bool :=
  if i = j then (0, true)
  else if 2 * ((j + len - i) % len) ≤ len then ((j + len - i) % len, true) else ((i + len - j) % len, false)

/-- The direction bits that select the shorter way (R251). -/
def shortBits (len : Nat) : Nat :=
  ((List.range 64).filter (fun k => k / 8 < len && k % 8 < len && (ringShort len (k / 8) (k % 8)).2)).foldl (fun b k => b + 2 ^ k) 0

/-- The way round both rings from m to d: hops and direction on Z and on W, and whether the limit of 8 ring hops
refused the direction bits (R251). -/
def State.ringPlan (s : State) (zd wd : Nat) (m d : Nat) : (Nat × Bool) × (Nat × Bool) × Bool :=
  let zl := s.rd Reg.RT_CTL_ZLEN
  let wl := s.rd Reg.RT_CTL_WLEN
  let z := ringBy zd zl (mZ m) (mZ d)
  let w := ringBy wd wl (mW m) (mW d)
  if z.1 + w.1 > 8 then (ringShort zl (mZ m) (mZ d), ringShort wl (mW m) (mW d), true) else (z, w, false)

/-- X port from X toward X′, and Y port from Y toward Y′ (R240). -/
def xPort (x x' : Nat) : Nat := if x' > x then x' - 1 else x'
def yPort (y y' : Nat) : Nat := 7 + (if y' > y then y' - 1 else y')

/-- First port of the dimension-ordered route from m to d. -/
def State.nominalPort (s : State) (m d : Nat) : Nat :=
  let (z, w, _) := s.ringPlan (s.rd Reg.RT_ZDIR_DIR) (s.rd Reg.RT_WDIR_DIR) m d
  if w.1 ≠ 0 then (if w.2 then 16 else 17)
  else if z.1 ≠ 0 then (if z.2 then 14 else 15)
  else if mY m ≠ mY d then yPort (mY m) (mY d)
  else xPort (mX m) (mX d)

/-- The link at port p of m is given by the map and is not among some links known to be down. (DEDUCED, assumption 42.) -/
def State.linkAlive (s : State) (down : List (Nat × Nat)) (m p : Nat) : Bool :=
  match s.wire m p with
  | none => false
  | some (n, q) => s.present m && s.present n && !s.fdDead m && !s.fdDead n && !down.contains (m, p) && !down.contains (n, q)
      && (m != s.modNum || s.mapped p) && (n != s.modNum || s.mapped q)

/-- The dimension-ordered route from m to d crosses only live links. -/
def State.nominalAlive (s : State) (down : List (Nat × Nat)) (d : Nat) : Nat → Nat → Bool
  | 0, _ => false
  | f + 1, m =>
    if m = d then true
    else
      let p := s.nominalPort m d
      s.linkAlive down m p && (match s.wire m p with | some (n, _) => s.nominalAlive down d f n | none => false)

/-- Neighbours over live links. -/
def State.liveNbrs (s : State) (down : List (Nat × Nat)) (m : Nat) : List Nat :=
  (List.range 18).filterMap (fun p => if s.linkAlive down m p then (s.wire m p).map Prod.fst else none)

/-- Distances from a module over live links: breadth first, at most `f` hops. -/
def State.distances (s : State) (down : List (Nat × Nat)) : Nat → Nat → List Nat → Tab Nat → Tab Nat
  | 0, _, _, t => t
  | f + 1, k, frontier, t =>
    let next := ((frontier.flatMap (fun m => s.liveNbrs down m)).dedup).filter (fun n => (t.lookup n).isNone)
    if next.isEmpty then t else s.distances down f (k + 1) next (next.foldl (fun t n => t.put n (k + 1)) t)

def State.distTo (s : State) (down : List (Nat × Nat)) (d : Nat) : Tab Nat := s.distances down 4096 0 [d] [(d, 0)]

/-- The number of an entry's fields, a port field 31 for none. -/
structure RtFields where
  force : Bool
  xw : Bool
  xz : Bool
  pw : Nat
  pz : Nat
  py : Nat
  px : Nat
  dw : Nat
  dz : Nat
  dy : Nat
  dx : Nat
  deriving DecidableEq, Repr

def RtFields.none_ : RtFields :=
  { force := false, xw := false, xz := false, pw := 31, pz := 31, py := 31, px := 31, dw := 31, dz := 31, dy := 31, dx := 31 }

/-- A valid entry with some fields (R245). -/
def RtFields.entry (f : RtFields) : Nat :=
  1 + 8 * f.force.toNat + 16 * f.xw.toNat + 32 * f.xz.toNat + f.pw * 2 ^ 8 + f.pz * 2 ^ 13 + f.py * 2 ^ 18 + f.px * 2 ^ 23
    + f.dw * 2 ^ 28 + f.dz * 2 ^ 33 + f.dy * 2 ^ 38 + f.dx * 2 ^ 43

/-- One of several, by the firmware's choice; 31 for none. (DESIGN CHOICE, assumption 10; DESIGN CHOICE, assumption 41.) -/
def pick31 (xs : List Nat) (a b : Nat) : Nat := xs.getD (Config.routeChoice a b % max 1 xs.length) 31

/-- The X ports toward present tray-mates other than those at some slots. -/
def State.matePorts (s : State) (m : Nat) (avoid : List Nat) : List Nat :=
  ((List.range 8).filter (fun x => x != mX m && !avoid.contains x && s.present (mAt x (mY m) (mZ m) (mW m)))).map (xPort (mX m))

/-- The sideways hop of a ring detour: the mate in the destination's slot, else one of the firmware's choice. -/
def State.sideways (s : State) (m d k : Nat) : Nat :=
  if mX d ≠ mX m ∧ s.present (mAt (mX d) (mY m) (mZ m) (mW m)) then xPort (mX m) (mX d) else pick31 (s.matePorts m []) k d

/-- The dimension-ordered entry of this module for a present module d (R245, R248). -/
def State.baseFields (s : State) (d : Nat) : RtFields :=
  let m := s.modNum
  let (z, w, _) := s.ringPlan (s.rd Reg.RT_ZDIR_DIR) (s.rd Reg.RT_WDIR_DIR) m d
  let zl := s.rd Reg.RT_CTL_ZLEN
  let wl := s.rd Reg.RT_CTL_WLEN
  let f := RtFields.none_
  let f := if w.1 = 0 then f else { f with
    pw := if w.2 then 16 else 17, xw := mW m == (if w.2 then wl - 1 else 0), dw := s.sideways m d 0 }
  let f := if z.1 = 0 then f else { f with
    pz := if z.2 then 14 else 15, xz := mZ m == (if z.2 then zl - 1 else 0), dz := s.sideways m d 1 }
  let f := if mY m = mY d then f else { f with
    py := yPort (mY m) (mY d),
    dy := pick31 (((List.range 8).filter (fun y => y != mY m && y != mY d && s.present (mAt (mX m) y (mZ m) (mW m)))).map (yPort (mY m))) 2 d }
  if mX m = mX d then f else { f with px := xPort (mX m) (mX d), dx := pick31 (s.matePorts m [mX d]) 3 d }

/-- The entry that sends by one port alone, marked FORCE_DT when that leaves the dimension order (R256). (DESIGN CHOICE, assumption 41.) -/
def State.oneHop (s : State) (p : Nat) (force : Bool) : RtFields :=
  let m := s.modNum
  let f := { RtFields.none_ with force := force }
  if p < 7 then { f with px := p }
  else if p < 14 then { f with py := p }
  else if p < 16 then { f with pz := p, xz := mZ m == (if p = 14 then s.rd Reg.RT_CTL_ZLEN - 1 else 0) }
  else { f with pw := p, xw := mW m == (if p = 16 then s.rd Reg.RT_CTL_WLEN - 1 else 0) }

/-- A first hop toward a module leaves the dimension order: it is of another dimension than the one to be corrected first,
or goes to a third mate within X or Y.  The other way round a ring keeps the order (R246, R249, R256). -/
def State.leavesOrder (s : State) (p d : Nat) : Bool :=
  let q := s.nominalPort s.modNum d
  portDim p != portDim q || (!isRing p && p != q)

/-- The entry for a module, minimal on the links that remain; where no route is left, the dimension-ordered one
(R256). (DESIGN CHOICE, assumption 41.) -/
def State.fieldsTo (s : State) (d : Nat) : RtFields :=
  let m := s.modNum
  let down := s.downLinks
  if s.nominalAlive down d 16 m then s.baseFields d
  else
    let t := s.distTo down d
    let cands := (List.range 18).filter (fun p => s.linkAlive down m p &&
      (match s.wire m p with | some (n, _) => (t.lookup n).isSome && (t.lookup n).map (· + 1) == t.lookup m | none => false))
    let clean := cands.filter (fun p => match s.wire m p with | some (n, _) => s.nominalAlive down d 16 n | none => false)
    match (if clean.isEmpty then cands else clean) with
    | [] => s.baseFields d
    | c :: cs =>
      let p := pick31 (c :: cs) 4 d
      s.oneHop p (s.leavesOrder p d)

/-- The entry of destination d: this module, a present module, an edge adapter, or nothing (R243, R245).
(DESIGN CHOICE, assumption 41; DEDUCED, assumption 42.) -/
def State.computeEntry (s : State) (d : Nat) : Nat :=
  let m := s.modNum
  let e :=
    if d = m then 3 + RtFields.none_.entry - 1
    else if s.present d then (s.fieldsTo d).entry
    else match s.adapterAt d with
      | some (a, port) => if a = m then { RtFields.none_ with px := port }.entry else if s.present a then (s.fieldsTo a).entry else 0
      | none => 0
  if s.fdDead d && !s.padDue.contains d then e ||| 4 else e

/-- The module by which a destination is reached: itself, or the one an adapter attaches to. -/
def State.viaModule (s : State) (d : Nat) : Nat := match s.adapterAt d with | some (a, _) => a | none => d

/-- The route by the entry as it stands crosses a link known to be down: the link of its first port, or one of the
dimension-ordered route from there (R256). (DEDUCED, assumption 42.) -/
def State.entryCrosses (s : State) (d v : Nat) : Bool :=
  let e := s.route d
  match [3, 2, 1, 0].findSome? (fun k => rtPrimary e k) with
  | some p => match s.wire s.modNum p with
    | some (n, _) => rtValid e && !(s.linkAlive s.downLinks s.modNum p && s.nominalAlive s.downLinks v 16 n)
    | none => false
  | none => false

/-- A destination's entry is computed anew: its route crosses a link known to be down, or taken as down by the
last computation, or depends on a changed direction bit (R256, R257). -/
def State.affected (s : State) (d : Nat) : Bool :=
  let m := s.modNum
  let v := s.viaModule d
  let plan := fun (zd wd : Nat) => s.ringPlan zd wd m v
  v != m && s.present v && (!(s.nominalAlive (s.downLinks ++ s.lastDown) v 16 m) || s.entryCrosses d v
    || plan (s.rd Reg.RT_ZDIR_DIR) (s.rd Reg.RT_WDIR_DIR) != plan s.dirBits.1.toNat s.dirBits.2.toNat)

/-- A table computation starts, or takes one more notice in (R256). -/
def State.startCompute (s : State) (all : Bool) : State :=
  { s with compute := match s.compute with
      | some c => some { c with all := c.all || all }
      | none => some { start := s.clock, all := all } }

/-- A present module that has not been declared dead has no route (R429). (DEDUCED, assumption 42.) -/
def State.noRoute (s : State) : List Nat :=
  let t := s.distTo s.downLinks s.modNum
  (List.range 4096).filter (fun d => d != s.modNum && s.present d && !s.fdDead d && (t.lookup d).isNone)

/-- Write the inactive bank: computed entries, and every other entry as it stands (R256). -/
def State.writeBank (s : State) (bank : Nat) (all : Bool) : State :=
  (List.range 4096).foldl (fun s' d =>
    let new := all || s.affected d
    let s' := s'.wr (Reg.RT_ENTRY bank d) (if new then s.computeEntry d else s.route d)
    let v := s.viaModule d
    if new && s.present v && (s.ringPlan (s.rd Reg.RT_ZDIR_DIR) (s.rd Reg.RT_WDIR_DIR) s.modNum v).2.2
      then s'.raise { Fault_.blank 0 Status.ok 0x0401 with other := d } else s') s

/-- The flip: the new bank becomes active, links in service carry traffic, and the partition check is made
(R256, R257, R259, R429). (DEDUCED, assumption 39.) -/
def State.flip (s : State) (c : Compute) : State :=
  let bank := 1 - s.rd Reg.RT_CTL_ACTIVE_BANK
  let us := (s.clock - c.start) / State.usTicks 1
  let s := ((s.writeBank bank c.all).wr Reg.RT_CTL_ACTIVE_BANK bank).bump Reg.RT_STAT_REPAIRS 1
  let s := (s.wr Reg.RT_REPAIR_TIME_LAST_US us).wr Reg.RT_REPAIR_TIME_MAX_US (max us (s.rd Reg.RT_REPAIR_TIME_MAX_US))
  let s := { s.wr Reg.RT_CTL_RECOMPUTE 0 with
    compute := none, lastDown := s.downLinks,
    dirBits := (BitVec.ofNat 64 (s.rd Reg.RT_ZDIR_DIR), BitVec.ofNat 64 (s.rd Reg.RT_WDIR_DIR)),
    routable := (List.range 20).filter (fun p => s.rd (Reg.LK_STATE_STATE p) == 4) }
  { s with partWait := if s.noRoute.isEmpty then s.partWait else s.partWait ++ [(s.clock, s.noRoute)] }

/-- TABLE_FLIP: the computation under way ends (R256). (DESIGN CHOICE, assumption 4.) -/
def execTableFlip (s : State) : Res :=
  .next (match s.compute with
    | some c => if s.failed then s else s.flip c
    | none => s)

/-- RECOMPUTE: writing RT_CTL.RECOMPUTE starts a computation of every entry (R256, R259). -/
def execRecompute (s : State) : Res :=
  .next (if s.booted && !s.failed then (s.wr Reg.RT_CTL_RECOMPUTE 1).startCompute true else s)

/-! ### Notices (R256, R257, R424) -/

/-- A multicast notice: kind, the bytes after it up to byte 31, and the mask pair of the hall grid. -/
def State.noticePkt (s : State) (kind : Nat) (body : List Byte) : Packet :=
  let m := s.hallMask
  { s.ctl PT.notice 0 0 0 0 0 ((leBytes 1 kind ++ body ++ List.replicate 31 0).take 32 ++ maskBytes m) with mask := m }

/-- A notice of a link, sent in C0 under the allowance (R256, R257). -/
def State.linkNotice (s : State) (kind port cause : Nat) : State :=
  s.sendFree hubCore (s.noticePkt kind (leBytes 1 0 ++ leBytes 2 s.modNum ++ leBytes 1 port ++ leBytes 1 cause))

/-- A declaration, which takes no token (R424, R235). -/
def State.sendDeclaration (s : State) (m cause : Nat) : State :=
  { s.inject (s.noticePkt 3 (leBytes 1 0 ++ leBytes 2 m ++ leBytes 1 0 ++ leBytes 1 cause)) with declSent := s.declSent ++ [m] }

/-- The first delivered notice of a kind is taken from the hub. -/
def State.takeNotice (s : State) (kind : Nat) : State :=
  match s.hubIn.find? (fun p => p.typ.val == PT.notice && noticeKind p == kind) with
  | some p => s.takeHub p
  | none => s

/-- In-rack links that the installed map gives a module (R423). -/
def State.rackPorts (s : State) (m : Nat) : List Nat :=
  (List.range 14).filter (fun p => match s.wire m p with
    | some (n, q) => s.present m && s.present n && (m != s.modNum || s.mapped p) && (n != s.modNum || s.mapped q)
    | none => false)

/-- Every in-rack link of a module is known down (R423). -/
def State.allRackDown (s : State) (m : Nat) : Bool :=
  !(s.rackPorts m).isEmpty && (s.rackPorts m).all (fun p => !s.linkAlive s.downLinks m p)

/-- In-rack neighbours of this module. -/
def State.rackNbrs (s : State) : List Nat := (s.rackPorts s.modNum).filterMap (fun p => (s.wire s.modNum p).map Prod.fst)

/-- Each in-rack neighbour found with every in-rack link down is declared, once (R423). -/
def State.detectDead (s : State) : State :=
  s.rackNbrs.foldl (fun s m => if s.allRackDown m && !s.fdDead m && !s.declSent.contains m then s.sendDeclaration m 1 else s) s

/-- A link is known to be down. -/
def State.noteDown (s : State) (m p : Nat) : State :=
  if s.downLinks.contains (m, p) then s else { s with downLinks := s.downLinks ++ [(m, p)] }

/-- A link is known to be up: both its ends leave the list. -/
def State.noteUp (s : State) (m p : Nat) : State :=
  { s with downLinks := s.downLinks.filter (fun x => x != (m, p) && some x != s.wire m p) }

/-- The module no longer takes part: it fail-stopped, left or declared itself dead. -/
def State.silent (s : State) : Bool := s.failed || s.portsOff

/-- LINK_DOWN_NOTICE (R256, R423). -/
def execLinkDownNotice (module nport cause : Nat) (s : State) : Res :=
  let s := s.takeNotice 1
  .next (if s.failed then s
    else
      let _ := cause
      ((s.noteDown (module % 4096) nport).startCompute false).detectDead)

/-- LINK_UP_NOTICE (R257). -/
def execLinkUpNotice (module nport : Nat) (s : State) : Res :=
  let s := s.takeNotice 2
  .next (if s.failed then s else (s.noteUp (module % 4096) nport).startCompute false)

/-! ### Partition (R429) -/

/-- One job is ended for a partition: its fault takes the rest of R428 at its handling. -/
def State.partitionJob (s : State) (job n : Nat) : State :=
  s.raise { Fault_.blank 4 Status.partitioned 0x0903 with job := job, info0 := BitVec.ofNat 64 n }

/-- PARTITION_TIMEOUT: 500 µs after a computation, tasks whose peer set includes a module that it left without a route,
and that still has none, end with PARTITIONED, and job-fatal notices are due (R429). (DEDUCED, assumption 42.) -/
def execPartitionTimeout (s : State) : Res :=
  .next (if s.failed then s
    else
      let due := s.partWait.filter (fun w => decide (w.1 + State.usTicks 500 ≤ s.clock))
      let gone := (due.flatMap (fun w => w.2)).dedup.filter s.noRoute.contains
      let s := { s with partWait := s.partWait.filter (fun w => !decide (w.1 + State.usTicks 500 ≤ s.clock)) }
      let hit := s.tasks.filter (fun t => t.state != .ended && t.peers.any (fun m => gone.contains m))
      if hit.isEmpty then s
      else
        let s := hit.foldl (fun (s : State) (t : Task) => s.failTask t.num Status.partitioned) (s.wr Reg.FD_STATE_PARTITION 1)
        ((hit.map (fun (t : Task) => t.job)).dedup).foldl (fun s j => s.partitionJob j gone.length) s)

end Sys2Proof.Machine
end

