-- ==== Sys2Proof/Machine/Links.lean ====
section
/-! DEFINITION. One end of a Boula link: training and lane masks (R263-R265), frames, retry and loss
(R266-R270), link-control flits (R271), credits and switching (R272-R274), arbitration (R233, R254, R302),
keying and service (R283, R284), downs (R285, R286) and partner violations (R287-R289). -/

namespace Sys2Proof.Machine

/-! ### Ports, engines and their states -/

/-- STATE of a port (R290): 0 held down, 1 training, 2 keying, 3 clean period, 4 in service, 5 warded, 6 wrong
neighbour. -/
def State.lk (s : State) (p : Nat) : Nat := s.rd (Reg.LK_STATE_STATE p)

def State.setLk (s : State) (p v : Nat) : State := s.wr (Reg.LK_STATE_STATE p) v

def State.txMask (s : State) (p : Nat) : BitVec 16 := BitVec.ofNat 16 (s.rd (Reg.LK_STATE_TX_MASK p))
def State.rxMask (s : State) (p : Nat) : BitVec 16 := BitVec.ofNat 16 (s.rd (Reg.LK_STATE_RX_MASK p))

/-- Lanes of a mask. -/
def lanes (m : BitVec 16) : List Nat := onesBelow 16 m.toNat
def laneBit (l : Nat) : BitVec 16 := BitVec.twoPow 16 l

/-- Safe-power bit of a port's emitters: port A of an engine is its even port (R20, R335). -/
def safeFld (p : Nat) : Fld := if p % 2 = 0 then Reg.OE_STATUS_SAFE_A (p / 2) else Reg.OE_STATUS_SAFE_B (p / 2)

/-- The port may train: it has a mapped neighbour, is enabled, and its emitters are not at safe power; the module
has booted and holds no port down (R242, R290, R326, R385-R388, R414, R427, R330). -/
def State.canTrain (s : State) (p : Nat) : Bool :=
  s.booted && s.mapped p && s.rdb (Reg.LK_CTL_ENABLE p) && s.rd (safeFld p) == 0 && !s.portsOff && !(s.port p).loop

/-- Channels, and the initial credits that the module offers (R247, R273). -/
def offered (p vc : Nat) : Nat :=
  if isRing p then
    if vc < 4 then 32
    else if vc < 16 then (if vc % 4 < 2 then 4096 else 1024)
    else if vc < 18 then 32
    else if vc < 24 then 2048 else 0
  else if vc < 4 then (if vc % 2 = 0 then 16 else 0)
  else if vc < 16 then (if vc % 4 = 0 then 1024 else if vc % 4 = 2 then 256 else 0)
  else 0

/-- Start of bring-up: training blocks on every lane (R265, R284). -/
def State.bringUp (s : State) (p : Nat) : State :=
  if s.canTrain p then (s.modPort p (fun t => { t with stage := 0, pStage := 0, adapted := 0, pReady := 0, framed := false })).setLk p 1
  else s

/-- Queue a link-control flit. -/
def State.linkFlit (s : State) (p : Nat) (l : LinkFlit) : State := s.modPort p (fun t => { t with linkq := t.linkq ++ [l] })

/-- A failure of the clean-period condition restarts its second (R284). (DEDUCED, assumption 46.) -/
def State.cleanFail (s : State) (p : Nat) : State :=
  if s.lk p = 3 then s.modPort p (fun t => { t with clean := some s.clock }) else s

/-! ### The module declares itself dead (R427) -/

/-- DEDUCED, assumption 25. -/
def State.selfDeclare (s : State) : State :=
  if s.rdb Reg.FD_STATE_SELF_DECLARED || s.silent then s
  else (s.wr Reg.FD_STATE_SELF_DECLARED 1).failAll Status.padlocked

/-- Every in-rack link of this module is down, after one has been in service (R427). -/
def State.selfCheck (s : State) : State := if s.everUp && s.allRackDown s.modNum then s.selfDeclare else s

/-! ### Link down (R285, R286) -/

/-- A frame with nothing but some link-control flits. -/
def linkFrame (ls : List LinkFlit) (fseq : Nat) : Frame :=
  { slots := ls.map Flit.link, fseq := fseq, ack := 0, nak := false, empty := true, credits := [] }

/-- The port as bring-up finds it: stored frames, queues, credits and replay state are gone (R286). -/
def Port.downed (t : Port) : Port :=
  { Port.reset with
    signal := t.signal, wire := t.wire, marks := t.marks, laneOf := t.laneOf, outLanes := t.outLanes,
    unlocked := t.unlocked, loop := t.loop }

/-! ### Packets in the receive buffers (R246, R268, R270, R272, R286) -/

/-- The packet in progress on a channel: flits of it are still to come. -/
def Port.inProgress (t : Port) (vc : Nat) : Option RxPkt := t.rxProg.find? (fun r => r.vc == vc && decide (r.got < r.total))

/-- Every copy of a buffered packet goes: an ABORT follows what has left already (R270). -/
def State.dropCopies (s : State) (p b : Nat) : State :=
  let mine := fun (a : Option Nat) (x : Nat) => a == some p && x == b
  { s with
    held := s.held.filter (fun h => !mine h.arrived h.buf),
    ports := s.ports.map (fun (t : Port) => { t with
      linkq := t.linkq ++ (t.txProg.filter (fun x => mine x.arrived x.buf)).map (fun x => LinkFlit.abort x.vc),
      txq := t.txq.filter (fun x => !mine x.2.2.arrived x.2.2.buf),
      txProg := t.txProg.filter (fun x => !mine x.arrived x.buf) }) }

/-- A packet in progress on a channel is abandoned, and its flits are freed (R270). -/
def State.abandonRx (s : State) (p vc : Nat) : State :=
  match (s.port p).inProgress vc with
  | some r =>
    let s := s.dropCopies p r.id
    (s.modPort p (fun t => { t with rxProg := t.rxProg.map (fun x => if x.id == r.id then { x with total := x.got } else x) })).freeBuf p r.id
  | none => s

/-- Every packet in progress of a port is abandoned. -/
def State.abandonAll (s : State) (p : Nat) : State :=
  ((s.port p).rxProg.filter (fun r => decide (r.got < r.total))).foldl (fun s r => s.abandonRx p r.vc) s

/-- The routing and failure-detection side of a link that was in service (R255, R256, R423, R427). -/
def State.linkLost (s : State) (p cause : Nat) : State :=
  let s := { s.noteDown s.modNum p with routable := s.routable.erase p }
  if s.silent then s else ((((s.linkNotice 1 p cause).startCompute false).detectDead).selfCheck)

/-- The optics of a port that carries no frames: no lane is out for calibration, and a swap that waited for its lanes to
leave goes on to its switching step (R320, R323). -/
def State.opticsDown (s : State) (p : Nat) : State :=
  let e := p / 2
  let s := s.wr (Reg.OE_CAL_ACTIVE e (p % 2)) 0
  let k := s.rd (Reg.OE_STATUS_SWAP_EMITTER e)
  if s.rd (Reg.OE_STATUS_SWAP_STATE e) == 2 && k < 12 && s.rd (Reg.OE_EMIT_ROLE e k) == p % 2 + 1 then s.wr (Reg.OE_STATUS_SWAP_STATE e) 3 else s

/-- An end takes its link down: DOWN where it still can be sent, LK_DOWN, and bring-up again unless the port is
warded, disabled or held (R285). -/
def State.takeDown (s : State) (p cause : Nat) : State :=
  if s.lk p = 0 ∨ s.lk p = 5 then s
  else
    let was := s.lk p
    let t := s.port p
    let s := ((s.wr (Reg.LK_DOWN_CAUSE p) cause).bump (Reg.LK_DOWN_DOWNS p) 1).wr (Reg.LK_DOWN_TIME p) (fld s.rackTime.toNat 16 32)
    let s := s.raise { Fault_.blank 0 Status.ok 0x0301 with
      addr := BitVec.ofNat 64 p, info0 := BitVec.ofNat 64 cause, other := s.rd (Reg.LK_NBR_EXP_MODULE p), oport := s.rd (Reg.LK_NBR_EXP_PORT p) }
    let s := (s.requeue p).abandonAll p
    let cut := (s.port p).txProg.filterMap (fun x => x.arrived.map (fun a => (a, x.buf)))
    let s := s.modPort p (fun x => { x.downed with
      wire := if t.framed then x.wire ++ [linkFrame [.down cause] t.nextSeq] else x.wire,
      downAt := if cause = 7 then none else some (s.clock, cause) })
    let s := cut.foldl (fun s x => s.freeBuf x.1 x.2) s
    let s := (((s.wr (Reg.LK_STATE_TX_MASK p) 0).wr (Reg.LK_STATE_RX_MASK p) 0).wr (Reg.LK_NBR_SEEN_VALID p) 0).opticsDown p
    let s := (s.setLk p (if cause = 7 then 5 else 0))
    let s := if cause = 7 then s else s.bringUp p
    if was = 4 then s.linkLost p cause else s

/-- A port's emitters drop to safe power (R326). (DEDUCED, assumption 48.) -/
def State.toSafe (s : State) (p : Nat) : State := s.wr (safeFld p) 1

/-- Receive lanes of the mask that still work (R264). -/
def State.working (s : State) (p : Nat) : List Nat :=
  let t := s.port p
  (lanes (s.rxMask p)).filter (fun l => t.signal.getLsbD l && t.mLock.getLsbD l)

/-- Fewer than 8 lanes of the receive mask work: the link goes down with cause 2, and the port to safe power where signal
is what they lost (R264, R285, R326). -/
def State.checkLanes (s : State) (p : Nat) : State :=
  if s.lk p ≤ 1 ∨ s.lk p = 5 ∨ (s.working p).length ≥ 8 then s
  else (if (lanes (s.port p).signal).length < 8 then s.toSafe p else s).takeDown p 2

/-- A receive lane is lost: the sender is asked to remove it, or too few lanes are left (R264, R285, R326). -/
def State.loseLane (s : State) (p l : Nat) : State :=
  if s.lk p ≤ 1 ∨ s.lk p = 5 then s
  else if (s.working p).length < 8 then s.checkLanes p
  else s.linkFlit p (.laneReq l false)

/-! ### Lane masks of the transmit direction (R264) -/

/-- The mask after the pending requests: a request that would leave fewer than 8 lanes is not applied, and a lane
out for good stays out. -/
def maskAfter (out : BitVec 16) (m : BitVec 16) (reqs : List (Nat × Bool)) : BitVec 16 :=
  reqs.foldl (fun m r =>
    let n := if r.2 then (if out.getLsbD r.1 then m else m ||| laneBit r.1) else m &&& ~~~ (laneBit r.1)
    if (lanes n).length < 8 then m else n) m

/-- Announce the next change of the transmit mask: LANE_MASK is queued, and the change applies at the second marker after
it has left, at least one full marker period later (`markers` is 0 until then). -/
def State.announce (s : State) (p : Nat) : State :=
  let t := s.port p
  if t.newMask.isSome || t.laneReqs.isEmpty || !t.framed then s
  else
    let m := maskAfter t.outLanes (s.txMask p) t.laneReqs
    let s := s.modPort p (fun t => { t with laneReqs := [] })
    if m = s.txMask p then s
    else (s.modPort p (fun t => { t with newMask := some m, markers := 0 })).linkFlit p (.laneMask m ((t.mgen + 1) % 256))

/-- A lane is to leave or to return. -/
def State.askLanes (s : State) (p : Nat) (reqs : List (Nat × Bool)) : State :=
  (s.modPort p (fun t => { t with laneReqs := t.laneReqs ++ reqs })).announce p

/-- OE_CAL register of a port. -/
def calIdx (p : Nat) : Nat := p % 2

/-- What follows a change of mask: a calibration lane has returned (R320), or a swap's lanes have left and the
switch routes the spare (R323). -/
def State.afterMask (s : State) (p : Nat) (m : BitVec 16) : State :=
  let e := p / 2
  let s := match (s.port p).calLane with
    | some l =>
      if m.getLsbD l then
        ((s.modPort p (fun t => { t with calLane := none })).wr (Reg.OE_CAL_ACTIVE e (calIdx p)) 0).bump (Reg.OE_CAL_CALS e (calIdx p)) 1
      else s
    | none => s
  let k := s.rd (Reg.OE_STATUS_SWAP_EMITTER e)
  let role := s.rd (Reg.OE_EMIT_ROLE e k)
  let own := [0, 4, 8, 12].map (· + k / 3)
  if k < 12 && role == p % 2 + 1 then
    if s.rd (Reg.OE_STATUS_SWAP_STATE e) == 2 && own.all (fun l => !m.getLsbD l) then s.wr (Reg.OE_STATUS_SWAP_STATE e) 3
    else if s.rd (Reg.OE_STATUS_SWAP_STATE e) == 4 && own.all (fun l => m.getLsbD l) then s.wr (Reg.OE_STATUS_SWAP_STATE e) 5
    else s
  else s

/-- The alignment markers of a marker period's end, one on each of some lanes. -/
def alignBlocks (on : BitVec 16) (mgen : Nat) (mask : BitVec 16) (cwc : Word32) : List LaneBlock :=
  (lanes on).map (fun l => LaneBlock.align l mgen mask cwc)

/-- The training blocks of some lanes: this end's STAGE and RX_READY. -/
def Port.trainBlocks (t : Port) (ls : List Nat) (stage : Nat) : List LaneBlock := ls.map (fun l => LaneBlock.train l stage t.adapted t.blocks)

/-- Lanes that calibrate outside the mask and carry training blocks: a calibration slot's, or a swap's four from its
recalibrating step on (R320, R323). -/
def State.calLanes (s : State) (p : Nat) : List Nat :=
  let e := p / 2
  let k := s.rd (Reg.OE_STATUS_SWAP_EMITTER e)
  let swap := if s.rd (Reg.OE_STATUS_SWAP_STATE e) ≥ 4 ∧ k < 12 ∧ s.rd (Reg.OE_EMIT_ROLE e k) = p % 2 + 1 then [0, 4, 8, 12].map (· + k / 3) else []
  ((s.port p).calLane.toList ++ swap).filter (fun l => !(s.txMask p).getLsbD l && !(s.port p).outLanes.getLsbD l)

/-- MARKER_TX: one marker on every lane of the mask; an announced mask takes effect after its marker, which every lane of
both masks carries (R263, R264).  A direction that trains sends a training block on each of its 16 lanes, and a lane that
calibrates carries one too (R265, R320). (DEDUCED, assumption 80.) -/
def execMarkerTx (port : PortId) (s : State) : Res :=
  let p := port.val
  let t := s.port p
  let sent := fun (s : State) (bs : List LaneBlock) => s.modPort p (fun t => { t with marks := t.marks ++ bs, blocks := t.blocks + 1 })
  .next (if s.lk p = 0 || s.lk p = 5 then s
    else if !t.framed then sent s (t.trainBlocks (List.range 16) t.stage)
    else
      let n : Word32 := if hasRetry p then 8192 else 4096
      let cal := t.trainBlocks (s.calLanes p) 1
      let s := s.modPort p (fun t => { t with cwc := t.cwc + n })
      let old := s.txMask p
      match t.newMask, t.markers with
      | some m, 1 =>
        let g := (t.mgen + 1) % 256
        let s := (s.modPort p (fun t => { t with newMask := none, markers := 0, mgen := g })).wr (Reg.LK_STATE_TX_MASK p) m.toNat
        ((sent s (alignBlocks (old ||| m) g m (t.cwc + n) ++ cal)).afterMask p m).announce p
      | _, _ => sent (s.modPort p (fun t => { t with markers := t.markers - 1 })) (alignBlocks old t.mgen old (t.cwc + n) ++ cal))

/-- One lane's block where an alignment marker stands: a good marker names its lane and the mask in force; at the second
bad one in a row the lane is lost (R263). -/
def State.laneMarker (s : State) (p : Nat) (x : LaneMarker) : State :=
  if alignGood x.bytes then
    let l := leAt x.bytes 8 1 % 16
    (s.modPort p (fun t => { t with
      laneOf := t.laneOf.put x.phys.val l, mLock := t.mLock ||| laneBit l, mBad := t.mBad.del l, rxNext := none })).wr
      (Reg.LK_STATE_RX_MASK p) (leAt x.bytes 10 2)
  else
    let l := Tab.get (s.port p).laneOf x.phys.val x.phys.val
    let n := Tab.get (s.port p).mBad 0 l + 1
    let s := s.modPort p (fun t => { t with mBad := t.mBad.put l n })
    if n = 2 ∧ (s.rxMask p).getLsbD l then (s.modPort p (fun t => { t with mLock := t.mLock &&& ~~~ (laneBit l) })).loseLane p l else s

/-- MARKER_RX: the lanes' markers, and a last look at how many lanes of the mask work (R263, R264). (DEDUCED,
assumption 80.) -/
def execMarkerRx (port : PortId) (ls : List LaneMarker) (s : State) : Res :=
  let p := port.val
  .next (if !(s.port p).framed || s.lk p = 0 || s.lk p = 5 then s
    else (ls.foldl (fun s x => if (s.port p).framed then s.laneMarker p x else s) s).checkLanes p)

/-! ### Training (R265, R284) -/

/-- TRAINING_MARKER_RX: the block is its 8 bytes of SYNC and the 12 after them.  It names the lane; the lane's adaptation and the partner's STAGE and RX_READY advance;
with STAGE 1 at both ends the direction switches to the framed stream.  On a framed link the lane is one that calibrates,
and once adapted its restore is requested (R320).  A block with another SYNC is no training marker. -/
def execTrainingMarkerRx (port : PortId) (phys : Fin 16) (sync body : List Byte) (adapted : Bool) (s : State) : Res :=
  let bytes := sync ++ body
  let p := port.val
  let l := leAt bytes 8 1 % 16
  let stage := leAt bytes 9 1
  let rxReady := BitVec.ofNat 16 (leAt bytes 10 2)
  .next (if s.lk p = 0 ∨ s.lk p = 5 ∨ leAt bytes 0 8 ≠ trainSync then s
    else
      let s := s.modPort p (fun t => { t with
        laneOf := t.laneOf.put phys.val l, adapted := if adapted then t.adapted ||| laneBit l else t.adapted })
      if (s.port p).framed then
        if adapted && !(s.rxMask p).getLsbD l && (s.port p).mLock != 0 then s.linkFlit p (.laneReq l true) else s
      else
        let own := if (lanes (s.port p).adapted).length ≥ 8 then 1 else 0
        let s := s.modPort p (fun t => { t with stage := own, pStage := stage, pReady := rxReady })
        if own = 1 ∧ stage = 1 then
          ((s.modPort p (fun t => { t with framed := true, cwc := 0, mgen := 0, goodRun := 0 })).wr (Reg.LK_STATE_TX_MASK p) rxReady.toNat).wr (Reg.LK_STATE_RX_MASK p) (s.port p).adapted.toNat
        else s)

/-- TRAINING_TIMEOUT: without STAGE 1 within 500 ms the direction restarts training; the third restart without
frame lock is logged (R284). (DEDUCED, assumption 46.) -/
def execTrainingTimeout (port : PortId) (s : State) : Res :=
  let p := port.val
  .next (if s.lk p = 1 ∧ (s.port p).stage = 0 then
      let n := (s.port p).restarts + 1
      let s := s.modPort p (fun t => { t with restarts := n, adapted := 0, pStage := 0, pReady := 0 })
      if n = 3 then s.raise { Fault_.blank 0 Status.ok 0x0301 with addr := BitVec.ofNat 64 p } else s
    else s)

/-- TRAINING_RETRY: the port tries again 10 s after its third restart (R284). -/
def execTrainingRetry (port : PortId) (s : State) : Res :=
  let p := port.val
  .next (if s.lk p = 1 ∧ (s.port p).restarts ≥ 3 then (s.modPort p (fun t => { t with restarts := 0 })).bringUp p else s)

/-! ### Partner violations (R287-R289) -/

/-- The port is warded: DOWN with cause 7, and held down (R288). -/
def State.ward (s : State) (p : Nat) : State :=
  ((s.bump (Reg.LK_PV_WARDS p) 1).raise { Fault_.blank 0 Status.ok 0x0303 with addr := BitVec.ofNat 64 p, info0 := BitVec.ofNat 64 (s.rd (Reg.LK_PV_LAST_CODE p)) }).takeDown p 7

/-- One violation: the request it discards is answered, the partner is told, and it is logged and counted; the
65th within 1 ms wards the port (R288). -/
def State.violate (s : State) (p code vc : Nat) (pk : Option Packet) : State :=
  let s := match pk with | some q => s.answerStatus q code | none => s
  let recent := ((s.port p).viols.filter (fun t => s.clock < t + State.msTicks 1)) ++ [s.clock]
  let s := s.modPort p (fun t => { t with viols := recent })
  let s := s.linkFlit p (.violation code vc recent.length)
  let s := s.raise { Fault_.blank 0 code 0x0303 with
    addr := BitVec.ofNat 64 p, info0 := BitVec.ofNat 64 code,
    info1 := BitVec.ofNat 64 (vc + 256 * (match pk with | some q => q.typ.val | none => 0)) }
  let s := ((s.wr (Reg.LK_PV_LAST_CODE p) code).wr (Reg.LK_PV_LAST_VC p) vc).bump (Reg.LK_PV_COUNT p) 1
  let s := s.cleanFail p
  if recent.length > 64 then s.ward p else s

/-- COUNT as R277 allows it. -/
def countOk (p : Packet) : Bool :=
  let c := p.count
  match p.typ.val with
  | 0x01 => 1 ≤ c && c ≤ 48
  | 0x03 => 9 ≤ c && c ≤ 48
  | 0x05 => 17 ≤ c && c ≤ 48
  | 0x07 => c == 2
  | 0x08 => c == 24
  | 0x09 => c == 8
  | 0x0A => c == 8
  | 0x0B => c == 0
  | 0x0C => c == 40
  | 0x0D => 1 ≤ c && c ≤ 48
  | 0x0F => c == 34
  | 0x10 => c == 8
  | 0x11 => 1 ≤ c && c ≤ 48
  | 0x13 => c == 16
  | 0x14 => c == 8
  | 0x15 => c == 24
  | _ => c < 64

/-- A multicast mask pair that names nothing, or a rack outside the grid (R287). -/
def State.maskBad (s : State) (m : MaskPair) : Bool :=
  m.inRack == 0 || m.racks == 0 || (onesBelow 64 m.racks.toNat).any (fun i => i % 8 ≥ s.rd Reg.RT_CTL_ZLEN || i / 8 ≥ s.rd Reg.RT_CTL_WLEN)

/-- Flits that the receive buffer of a channel holds. -/
def Port.inBuffer (t : Port) (vc : Nat) : Nat := Tab.get t.rxCount 0 vc - Tab.get t.freed 0 vc

/-- What is wrong with a HEAD flit: the code of its violation (R287, R289). (DEDUCED, assumption 45.) -/
def State.headBad (s : State) (p : Nat) (k : Packet) : Option Nat :=
  let vc := pktVc k
  let t := s.port p
  let edge := isEdge p
  if hasRetry p && s.lk p != 4 then some Status.pvSequence
  else if vc > 23 || offered p vc == 0 || (k.xt && (!isRing p || k.dt)) || (PT.isData k.typ.val && k.cls.val == 0) then some Status.pvVc
  else if t.inBuffer vc ≥ offered p vc then some Status.pvCredit
  else if PT.reserved k.typ.val then some Status.pvType
  else if edge && (!((1 ≤ k.typ.val && k.typ.val ≤ 0x0B) || (0x10 ≤ k.typ.val && k.typ.val ≤ 0x14)) || k.hops != 0 || k.dl || k.dt
      || k.src != s.rd (Reg.LK_NBR_EXP_MODULE p)) then some Status.pvType
  else if (if PT.isData k.typ.val then !(1 ≤ k.len && k.len ≤ 64) else k.len != 0) || !countOk k
      || (PT.isData k.typ.val && (t.inProgress vc).isSome) then some Status.pvLength
  else if PT.multicast k.typ.val && (match mcMask k with | some m => s.maskBad m | none => false) then some Status.pvMask
  else if edge && isRequest k.typ.val && !PT.multicast k.typ.val && decide (chargeOf k > 0)
      && decide (Tab.get t.edgeWin 0 k.dst + chargeOf k > s.rd Reg.LK_WINDOW_WINDOW_KIB * 1024) then some Status.pvWindow
  else none

/-! ### Receiving flits (R268, R270, R272) -/

/-- A flit of a channel has been received. -/
def Port.took (t : Port) (vc : Nat) : Port := { t with rxCount := t.rxCount.put vc (Tab.get t.rxCount 0 vc + 1) }

/-- Flits of a channel are freed at once. -/
def Port.free (t : Port) (vc n : Nat) : Port := { t with freed := t.freed.put vc (Tab.get t.freed 0 vc + n) }

/-- A packet starts in a channel's buffer; a data packet selects its channel (R268).  A flit without a credit takes no
place in the buffer. -/
def State.startRx (s : State) (p vc total : Nat) (data credit : Bool) (k : Option Packet) : State :=
  let r : RxPkt := { id := s.nextBuf, vc := vc, pkt := k, total := total, got := 1, freed := if credit then 0 else 1 }
  { s with nextBuf := s.nextBuf + 1 }.modPort p (fun t =>
    let t := if credit then t.took vc else t
    { t with rxSel := if data then vc else t.rxSel, rxProg := t.rxProg ++ [r] })

/-- An edge adapter's request enters the count of its destination, and its TAG is kept for the reply (R282). -/
def State.edgeCharge (s : State) (p : Nat) (k : Packet) : State :=
  if isEdge p && isRequest k.typ.val then
    s.modPort p (fun t => { t with
      edgeWin := t.edgeWin.put k.dst (Tab.get t.edgeWin 0 k.dst + chargeOf k), edgeTag := t.edgeTag.put k.tag k.dst })
  else s

/-- A HEAD flit.  A refused packet's later flits are discarded with it; a good one is the router's from its header on
(R274). (DEDUCED, assumption 44; DEDUCED, assumption 45.) -/
def State.rxHead (s : State) (p : Nat) (k : Packet) : State :=
  let vc := pktVc k
  let data := PT.isData k.typ.val
  let total := if data then 1 + k.len else 1
  match s.headBad p k with
  | some code =>
    let s := if data && code == Status.pvLength then s.abandonRx p vc else s
    let b := s.nextBuf
    let s := ((s.startRx p vc (if code = Status.pvSequence then 1 else total) data (code != Status.pvCredit) none).freeBuf p b).edgeCharge p k
    s.violate p code vc (some k)
  | none =>
    if s.lk p ≠ 4 then s
    else
      let k' := if data then { k with payload := [] } else k
      let h : Held := { pkt := k', arrived := some p, buf := s.nextBuf, due := if data then k.len else 0, started := false }
      { (s.edgeCharge p k).startRx p vc total data true (some k') with held := s.held ++ [h] }

/-- A payload flit of a buffered packet reaches every copy of it. (DEDUCED, assumption 44.) -/
def State.feed (s : State) (p b : Nat) (data : List Byte) : State :=
  let mine := fun (a : Option Nat) (x : Nat) => a == some p && x == b
  let more := fun (h : Held) => if mine h.arrived h.buf then { h with pkt := { h.pkt with payload := h.pkt.payload ++ data }, due := h.due - 1 } else h
  { s with
    held := s.held.map more,
    ports := s.ports.map (fun (t : Port) => { t with
      txq := t.txq.map (fun x => if mine x.2.2.arrived x.2.2.buf then (x.1, { x.2.1 with payload := x.2.1.payload ++ data }, more x.2.2) else x),
      txProg := t.txProg.map (fun x => if mine x.arrived x.buf then { x with flits := x.flits ++ [data], due := x.due - 1 } else x) }) }

/-- One more flit of a buffered packet has come. -/
def Port.gotFlit (t : Port) (b : Nat) (credit : Bool) : Port :=
  { t with rxProg := t.rxProg.map (fun x => if x.id == b then { x with got := x.got + 1, freed := if credit then x.freed else x.freed + 1 } else x) }

/-- A packet in progress has been refused: it is answered once. -/
def Port.refused (t : Port) (b : Nat) : Port :=
  { t with rxProg := t.rxProg.map (fun x => if x.id == b then { x with pkt := none } else x) }

/-- A BODY flit (R268): it belongs to the packet in progress on the selected channel. -/
def State.rxBody (s : State) (p : Nat) (data : List Byte) : State :=
  let t := s.port p
  let vc := t.rxSel
  if hasRetry p && s.lk p != 4 then s.violate p Status.pvSequence vc none
  else match t.inProgress vc with
    | none =>
      if hasRetry p then (s.modPort p (fun t => (t.took vc).free vc 1)).violate p Status.pvSequence vc none
      else s.modPort p (fun t => (t.took vc).free vc 1)
    | some r =>
      if t.inBuffer vc ≥ offered p vc then
        let s := ((s.dropCopies p r.id).modPort p (fun t => (t.gotFlit r.id false).refused r.id)).freeBuf p r.id
        s.violate p Status.pvCredit vc r.pkt
      else ((s.feed p r.id data).modPort p (fun t => (t.took vc).gotFlit r.id true)).freeBuf p r.id

/-! ### Link-control flits (R271) -/

/-- HEARTBEAT: the partner's state; a gap above 2 µs restarts the clean period (R284). -/
def State.onHeartbeat (s : State) (p state : Nat) : State :=
  let t := s.port p
  let s := if t.beats && decide (s.clock > t.lastBeat + State.usTicks 2) then s.cleanFail p else s
  s.modPort p (fun t => { t with beats := true, lastBeat := s.clock, pState := state })

/-- VCSEL (R268). -/
def State.onVcsel (s : State) (p vc : Nat) : State :=
  if hasRetry p && ((s.port p).inProgress vc).isNone then s.violate p Status.pvSequence vc none
  else s.modPort p (fun t => { t with rxSel := vc })

/-- ABORT ends the packet in progress on a channel (R271). -/
def State.onAbort (s : State) (p vc : Nat) : State := s.abandonRx p vc

/-- SYNC_REQ is answered with the flits sent on each channel (R270). -/
def State.onSyncReq (s : State) (p : Nat) : State :=
  s.linkFlit p (.sync ((List.range 24).map (fun vc => Tab.get (s.port p).sentFl 0 vc % 8192)))

/-- SYNC: each channel is credited with the flits that were sent and not received (R270). -/
def State.onSync (s : State) (p : Nat) (counts : List Nat) : State :=
  (List.range 24).foldl (fun s vc =>
    let have_ := Tab.get (s.port p).rxCount 0 vc
    let miss := (counts.getD vc 0 + 8192 - have_ % 8192) % 8192
    s.modPort p (fun t => { t with rxCount := t.rxCount.put vc (have_ + miss) }.free vc miss)) s

/-- LANE_MASK announces the partner's next mask (R264). -/
def State.onLaneMask (s : State) (p : Nat) (m : BitVec 16) : State := s.modPort p (fun t => { t with rxNext := some m })

/-- LANE_REQ asks for a lane to leave or to return (R264). -/
def State.onLaneReq (s : State) (p l : Nat) (restore : Bool) : State := s.askLanes p [(l % 16, restore)]

/-- VIOLATION: the partner found a violation; it fails the clean period (R284). (DEDUCED, assumption 46.) -/
def State.onViolation (s : State) (p : Nat) : State := s.cleanFail p

/-- DOWN takes the link down with cause 5 (R285). -/
def State.onDown (s : State) (p : Nat) : State := s.takeDown p 5

/-- With the partner's key matched and its credits known, the clean period starts (R272, R283). -/
def State.tryClean (s : State) (p : Nat) : State :=
  let t := s.port p
  if s.lk p = 2 && t.matched && !t.initCr.isEmpty then (s.modPort p (fun t => { t with clean := some s.clock })).setLk p 3 else s

/-- Keying fails: the link is held out of service in STATE 6, and DOWN is due for 10 µs while the lanes stay framed (R283,
R285 cause 8). (DEDUCED, assumption 46.) -/
def State.keyFail (s : State) (p m q : Nat) : State :=
  let first := s.lk p != 6
  let s := (s.modPort p (fun t => { t with matched := false, clean := none })).setLk p 6
  if first then
    let s := ((s.wr (Reg.LK_DOWN_CAUSE p) 8).bump (Reg.LK_DOWN_DOWNS p) 1).wr (Reg.LK_DOWN_TIME p) (fld s.rackTime.toNat 16 32)
    let s := s.modPort p (fun t => { t with downAt := some (s.clock, 8) })
    s.raise { Fault_.blank 0 Status.wrongNeighbour 0x0304 with
      addr := BitVec.ofNat 64 p, info0 := BitVec.ofNat 64 (m + 4096 * q),
      info1 := BitVec.ofNat 64 (s.rd (Reg.LK_NBR_EXP_MODULE p) + 4096 * s.rd (Reg.LK_NBR_EXP_PORT p)) }
  else s

/-- KEY: compared against the installed map and LK_KEY (R283). -/
def State.onKey (s : State) (p m q : Nat) (matched : Bool) (key : Word) : State :=
  if s.lk p ≠ 2 ∧ s.lk p ≠ 3 ∧ s.lk p ≠ 6 then s
  else
    let s := ((s.wr (Reg.LK_NBR_SEEN_MODULE p) m).wr (Reg.LK_NBR_SEEN_PORT p) q).wr (Reg.LK_NBR_SEEN_VALID p) 1
    let s := s.modPort p (fun t => { t with pMatch := matched })
    let ok := m == s.rd (Reg.LK_NBR_EXP_MODULE p) && (s.rdb (Reg.LK_NBR_EXP_ADAPTER p) || q == s.rd (Reg.LK_NBR_EXP_PORT p))
      && key.toNat == s.rd Reg.LK_KEY_KEY
    if s.lk p = 6 then s
    else if ok then (s.modPort p (fun t => { t with matched := true })).tryClean p
    else (s.modPort p (fun t => { t with rejected := false })).keyFail p m q

/-- CREDIT_INIT: initial credits, as long as the clean period has not started (R272). -/
def State.onCreditInit (s : State) (p : Nat) (counts : List Nat) : State :=
  if s.lk p ≠ 2 then s
  else
    let t : Tab Nat := (List.range 24).map (fun vc => (vc, min 4096 (counts.getD vc 0)))
    (s.modPort p (fun x => { x with initCr := t, avail := t })).tryClean p

/-- REJECT: the link is held out of service in the same way; the record names the module and port that the partner's KEY
has shown (R283). (DEDUCED, assumption 46.) -/
def State.onReject (s : State) (p : Nat) : State :=
  if s.lk p ≠ 2 ∧ s.lk p ≠ 3 then s
  else (s.modPort p (fun t => { t with rejected := true })).keyFail p (s.rd (Reg.LK_NBR_SEEN_MODULE p)) (s.rd (Reg.LK_NBR_SEEN_PORT p))

/-- A link-control flit of an accepted frame. -/
def State.onLink (s : State) (p : Nat) (l : LinkFlit) : State :=
  match l with
  | .heartbeat _ _ st _ => s.onHeartbeat p st
  | .vcsel vc => s.onVcsel p vc
  | .abort vc => s.onAbort p vc
  | .syncReq => s.onSyncReq p
  | .sync c => s.onSync p c
  | .laneMask m _ => s.onLaneMask p m
  | .laneReq l r => s.onLaneReq p l r
  | .violation _ _ _ => s.onViolation p
  | .down _ => s.onDown p
  | .key m q _ _ mt k => s.onKey p m q mt k
  | .creditInit c => s.onCreditInit p c
  | .reject _ _ _ => s.onReject p
  | .reserved _ => s.violate p Status.pvType 0xFF none

/-- The link is up to the framed stream with frame lock. -/
def State.linkRuns (s : State) (p : Nat) : Bool := (s.port p).framed && (s.lk p == 2 || s.lk p == 3 || s.lk p == 4 || s.lk p == 6)

/-- One flit slot of an accepted frame. -/
def State.onFlit (s : State) (p : Nat) (f : Flit) : State :=
  if !s.linkRuns p then s
  else match f with
    | .null => s
    | .head k => s.rxHead p k
    | .body d => s.rxBody p d
    | .link l => s.onLink p l

/-! ### Receiving frames (R266-R270) -/

/-- One credit report (R272, R287). -/
def State.onCredit (s : State) (p : Nat) (vc count : Nat) : State :=
  if vc = 31 then s
  else if vc > 23 then s.violate p Status.pvVc vc none
  else
    let t := s.port p
    let new := (count + 8192 - Tab.get t.report 0 vc) % 8192
    let top := Tab.get t.initCr 0 vc
    let sum := Tab.get t.avail 0 vc + new
    let s := s.modPort p (fun t => { t with report := t.report.put vc count, avail := t.avail.put vc (min sum top) })
    if sum > top then s.violate p Status.pvCredit vc none else s

/-- ACK of a trailer frees the stored frames up to it; an ACK outside them is a violation (R269, R287). -/
def State.onAck (s : State) (p ack : Nat) : State :=
  let t := s.port p
  let last := (match t.replay with | (f, _) :: _ => f.fseq + 4095 | [] => t.nextSeq + 4095) % 4096
  if ack = last then s
  else match t.replay.findIdx? (fun x => x.1.fseq == ack) with
    | some i => s.modPort p (fun t => { t with replay := t.replay.drop (i + 1), resend := t.resend.filter (fun f => (t.replay.drop (i + 1)).any (fun x => x.1.fseq == f.fseq)), nakSeen := none })
    | none => s.violate p Status.pvSequence 0xFF none

/-- NAK: every stored frame after ACK is sent again, in order, once for each ACK named (R269). -/
def State.onNak (s : State) (p ack : Nat) : State :=
  let t := s.port p
  if t.nakSeen = some ack ∨ t.replay.isEmpty then s
  else s.modPort p (fun t => { t with resend := t.replay.map Prod.fst, nakSeen := some ack })

/-- A frame discarded on a Z or W link (R270, R285). -/
def State.discardFrame (s : State) (p : Nat) : State :=
  let recent := ((s.port p).discards.filter (fun t => s.clock < t + State.msTicks 1)) ++ [s.clock]
  let s := ((s.abandonAll p).modPort p (fun t => { t with discards := recent })).bump (Reg.LK_ERR_DISCARDS p) 1
  let s := (s.linkFlit p .syncReq).cleanFail p
  if recent.length > 16 then s.takeDown p 4 else s

/-- The flits of an accepted frame. -/
def State.onSlots (s : State) (p : Nat) (f : Frame) : State := f.slots.foldl (fun s x => s.onFlit p x) s

/-- A frame's CRC has passed or failed: the trailer first, then FSEQ decides whether the frame is accepted (R265-R270).
(DEDUCED, assumption 80.) -/
def State.takeFrame (s : State) (p : Nat) (crcOk : Bool) (f : Frame) : State :=
  let t := s.port p
  if s.lk p = 1 ∧ t.framed then
    if crcOk ∧ (lanes (s.rxMask p)).all (fun l => t.mLock.getLsbD l) then
      if t.goodRun ≥ 3 then (s.modPort p (fun t => { t with goodRun := 4, restarts := 0, expSeq := if f.empty then f.fseq else (f.fseq + 1) % 4096 })).setLk p 2
      else s.modPort p (fun t => { t with goodRun := t.goodRun + 1 })
    else
      let s := s.modPort p (fun t => { t with goodRun := 0 })
      if crcOk then s else s.bump (Reg.LK_ERR_CRC_FAILS p) 1
  else if !s.linkRuns p then s
  else if !crcOk then
    let s := (s.bump (Reg.LK_ERR_CRC_FAILS p) 1).cleanFail p
    if hasRetry p then s.modPort p (fun t => { t with nakOut := true }) else s.discardFrame p
  else
    let s := if hasRetry p then (let s := s.onAck p f.ack; if f.nak then s.onNak p f.ack else s) else s
    let s := f.credits.foldl (fun s c => if s.linkRuns p then s.onCredit p c.1 c.2 else s) s
    if !s.linkRuns p then s
    else if f.empty then
      (s.modPort p (fun t => if f.fseq = t.expSeq then { t with nakOut := false } else t)).onSlots p f
    else if !hasRetry p then s.onSlots p f
    else
      let d := (f.fseq + 4096 - t.expSeq) % 4096
      if d = 0 then
        (s.modPort p (fun t => { t with expSeq := (t.expSeq + 1) % 4096, ackOut := f.fseq, nakOut := false })).onSlots p f
      else if d ≥ 4032 then s
      else s.modPort p (fun t => { t with nakOut := true })

/-- FRAME_RX: a frame with a byte in an uncorrectable codeword counts as having failed its CRC (R261, R266, R267). (DEDUCED, assumption 80.) -/
def execFrameRx (port : PortId) (f : RxFrame) (s : State) : Res :=
  let p := port.val
  .next (if s.lk p = 0 || s.lk p = 5 || !(s.port p).framed then s
    else
      let s := (s.bumpK (Reg.LK_FEC_CORR_KCW p) f.corrected).bump (Reg.LK_FEC_UNCORR_CW p) f.uncorr
      s.takeFrame p (!f.bad && frameCrcOk f.bytes) (frameOf f.bytes))

/-! ### The rows of single link-control flits

Each is the flit as an accepted frame of the port carries it. -/

/-- The flit's effect where the link is up to frame lock. -/
def State.flitRow (s : State) (p : Nat) (l : LinkFlit) : State := if s.linkRuns p then s.onLink p l else s

/-- HEARTBEAT (R271). -/
def execHeartbeat (port : PortId) (module nport state : Nat) (time : Word) (s : State) : Res :=
  .next (s.flitRow port.val (.heartbeat module nport state time))

/-- VCSEL (R268). -/
def execVcsel (port : PortId) (vc : Nat) (s : State) : Res := .next (s.flitRow port.val (.vcsel vc))

/-- ABORT (R270). -/
def execAbort (port : PortId) (vc : Nat) (s : State) : Res := .next (s.flitRow port.val (.abort vc))

/-- SYNC_REQ (R270). -/
def execSyncReq (port : PortId) (s : State) : Res := .next (s.flitRow port.val .syncReq)

/-- SYNC (R270). -/
def execSync (port : PortId) (counts : List Nat) (s : State) : Res := .next (s.flitRow port.val (.sync counts))

/-- LANE_MASK (R264). -/
def execLaneMask (port : PortId) (mask : BitVec 16) (mgen : Nat) (s : State) : Res := .next (s.flitRow port.val (.laneMask mask mgen))

/-- LANE_REQ (R264). -/
def execLaneReq (port : PortId) (lane : Fin 16) (restore : Bool) (s : State) : Res := .next (s.flitRow port.val (.laneReq lane.val restore))

/-- VIOLATION (R288). -/
def execViolation (port : PortId) (code vc recent : Nat) (s : State) : Res := .next (s.flitRow port.val (.violation code vc recent))

/-- DOWN (R285). -/
def execDown (port : PortId) (cause : Nat) (s : State) : Res := .next (s.flitRow port.val (.down cause))

/-- KEY (R283). -/
def execKey (port : PortId) (module nport : Nat) (adapter retry matched : Bool) (key : Word) (s : State) : Res :=
  .next (s.flitRow port.val (.key module nport adapter retry matched key))

/-- CREDIT_INIT (R272). -/
def execCreditInit (port : PortId) (counts : List Nat) (s : State) : Res := .next (s.flitRow port.val (.creditInit counts))

/-- REJECT (R283). -/
def execReject (port : PortId) (status module nport : Nat) (s : State) : Res := .next (s.flitRow port.val (.reject status module nport))

/-! ### Timers and service (R283-R288) -/

/-- HEARTBEAT_TIMEOUT: no heartbeat for 20 µs (R285). -/
def execHeartbeatTimeout (port : PortId) (s : State) : Res :=
  .next (if s.linkRuns port.val then s.takeDown port.val 1 else s)

/-- KEYING_REPEAT: keying starts again while the lanes stay framed (R283). -/
def execKeyingRepeat (port : PortId) (s : State) : Res :=
  let p := port.val
  .next (if s.lk p = 6 ∧ (s.port p).framed then
      (s.modPort p (fun t => { t with matched := false, pMatch := false, rejected := false, initCr := [], avail := [], keyAt := none })).setLk p 2
    else s)

/-- The clean period has lasted 1 s (R284). -/
def Port.cleanOver (t : Port) (now : Nat) : Bool :=
  match t.clean with
  | some c => decide (c + State.msTicks 1000 ≤ now)
  | none => false

/-- LINK_ENTER_SERVICE: the clean second is over, the partner is in STATE 3 or 4 with MATCH, and its module is
not padlocked (R284); the firmware sends its link-up notice (R257). -/
def execLinkEnterService (port : PortId) (s : State) : Res :=
  let p := port.val
  let t := s.port p
  .next (if s.lk p = 3 ∧ t.cleanOver s.clock ∧ (t.pState = 3 ∨ t.pState = 4) ∧ t.pMatch ∧ !s.padlocked (s.rd (Reg.LK_NBR_EXP_MODULE p)) then
      let s := { s.setLk p 4 with everUp := s.everUp || decide (p < 14) }
      ((s.noteUp s.modNum p).linkNotice 2 p 0).startCompute false
    else s)

/-- LINK_DOWN: a condition of R285 holds at this end. -/
def execLinkDown (port : PortId) (cause : Nat) (s : State) : Res :=
  .next (if 1 ≤ cause ∧ cause ≤ 9 then s.takeDown port.val cause else s)

/-- WARD_EXPIRY: 100 ms warded are over, and bring-up starts (R288). -/
def execWardExpiry (port : PortId) (s : State) : Res :=
  .next (if s.lk port.val = 5 then (s.setLk port.val 0).bringUp port.val else s)

/-- LK_CTL.ENABLE (R290): 0 takes the link down and holds it, 1 releases it. -/
def State.lkEnable (s : State) (p : Nat) (enable : Bool) : State :=
  let s := s.wrb (Reg.LK_CTL_ENABLE p) enable
  if enable then (if s.lk p = 0 then s.bringUp p else s)
  else (s.takeDown p 9).setLk p 0

/-- LK_ENABLE_WRITE (R290). -/
def execLkEnableWrite (port : PortId) (enable : Bool) (s : State) : Res :=
  .next (if s.booted && !s.failed then s.lkEnable port.val enable else s)

/-- RETRAIN: the link goes down with cause 9 and bring-up restarts (R290). -/
def State.lkRetrain (s : State) (p : Nat) : State := if s.lk p = 0 then s.bringUp p else s.takeDown p 9

/-- RETRAIN (R290). -/
def execRetrain (port : PortId) (s : State) : Res :=
  .next (if s.booted && !s.failed then s.lkRetrain port.val else s)

/-! ### Arbitration (R233, R254, R268, R274, R302) -/

/-- Class of a channel. -/
def vcClass (vc : Nat) : Nat := if vc ≥ 16 then (vc - 16) / 2 else vc / 4

def isTransit (vc : Nat) : Bool := vc ≥ 16

/-- Credits that a packet needs to start: all its flits in cut-through, one in wormhole mode (R274). -/
def State.startNeed (s : State) (p vc : Nat) (k : Packet) : Nat :=
  let c := vcClass vc
  let worm := decide (Tab.get (s.port p).initCr 0 vc < 65) || (c ≥ 1 && (s.rd (Reg.LK_CTL_WORMHOLE p)).testBit (c - 1))
  if worm then 1 else 1 + k.len

/-- The waiting packets of a channel's front: the first of each channel, where no packet is in progress on it and no ABORT
of one waits. -/
def Port.fronts (t : Port) : List (Nat × Packet × Held) :=
  t.txq.foldl (fun a x =>
    if a.any (fun y => y.1 == x.1) || t.txProg.any (fun y => y.vc == x.1) || t.linkq.contains (.abort x.1) then a else a ++ [x]) []

/-- The packets that may start now. -/
def State.startable (s : State) (p : Nat) : List (Nat × Packet × Held) :=
  let t := s.port p
  t.fronts.filter (fun x => s.startNeed p x.1 x.2.1 ≤ Tab.get t.avail 0 x.1)

/-- Channels with a packet in progress, a flit of it at hand and a credit. -/
def Port.goingOn (t : Port) : List Nat := (t.txProg.filter (fun x => !x.flits.isEmpty && decide (Tab.get t.avail 0 x.vc ≥ 1))).map TxPkt.vc

/-- C1 group of a packet: its GID, or one further group (R302). -/
def groupOf (k : Packet) : Nat :=
  if k.typ.val = PT.collData then fld k.offset.toNat 0 16
  else if k.typ.val = PT.collCtl then leNat ((k.payload.drop 2).take 2)
  else 65536

/-- Weight of a group: of its descriptor where the collective is known here, else 1; 8 for the further group. (DEDUCED, assumption 47.) -/
def State.groupWeight (s : State) (g : Nat) : Nat :=
  if g = 65536 then 8
  else match s.colls.find? (fun x => x.gid == g) with
    | some x => max 1 (dWeight x.desc)
    | none => 1

/-- The C1 packet served next: of the group whose turn lasts, else of the next group in order (R302). -/
def State.pickC1 (s : State) (p : Nat) (xs : List (Nat × Packet × Held)) : Option (Nat × Packet × Held) :=
  let (cur, sent) := (s.port p).groups.headD (65536, 0)
  let ofGroup := fun g => xs.find? (fun x => groupOf x.2.1 == g)
  let next := fun (_ : Unit) =>
    let gs := xs.map (fun x => groupOf x.2.1)
    let later := gs.filter (· > cur)
    ofGroup ((if later.isEmpty then gs else later).foldl min 65537)
  if sent < s.groupWeight cur * 4096 then (match ofGroup cur with | some x => some x | none => next ()) else next ()

/-- The turn of the C1 groups after a packet. (DEDUCED, assumption 47.) -/
def Port.groupTurn (t : Port) (k : Packet) : Port :=
  let g := groupOf k
  let n := if PT.isData k.typ.val then dataBytes k else 64
  match t.groups with
  | (cur, sent) :: _ => { t with groups := [(g, if cur = g then sent + n else n)] }
  | [] => { t with groups := [(g, n)] }

/-- What a slot sends: the start of a packet, or one more flit of a channel's packet. -/
inductive Slot_ where
  | start (vc : Nat) (k : Packet) (h : Held)
  | more (vc : Nat)
  deriving DecidableEq, Repr

/-- The transit share is used up in the window of 256 slots (R254). (DEDUCED, assumption 47.) -/
def State.shareUsed (s : State) (p : Nat) : Bool :=
  let w := (s.port p).transit
  decide ((w.filter id).length + 1 > 256 * s.rd Reg.RT_TRANSIT_SHARE_PCT / 100)

/-- Non-transit flits of C1-C3 wait at a port. -/
def Port.waits (t : Port) : Bool :=
  t.txq.any (fun x => !isTransit x.1 && vcClass x.1 != 0) || t.txProg.any (fun x => !x.flits.isEmpty && !isTransit x.vc && vcClass x.vc != 0)

/-- Transit flits of C1-C3 wait at a port. -/
def Port.transitWaits (t : Port) : Bool :=
  t.txq.any (fun x => isTransit x.1 && vcClass x.1 != 0) || t.txProg.any (fun x => !x.flits.isEmpty && isTransit x.vc && vcClass x.vc != 0)

/-- The flit a class would send. -/
def State.pickClass (s : State) (p c : Nat) : Option Slot_ :=
  let t := s.port p
  let ok := fun (vc : Nat) => vcClass vc == c && !(isTransit vc && c != 0 && t.waits && s.shareUsed p)
  match (t.goingOn).find? ok with
  | some vc => some (.more vc)
  | none =>
    let xs := (s.startable p).filter (fun x => ok x.1)
    match (if c = 1 then s.pickC1 p xs else xs.head?) with
    | some (vc, k, h) => some (.start vc k h)
    | none => none

/-- Weight of a class (R233). -/
def State.weightOf (s : State) (c : Nat) : Nat := s.rd (if c = 1 then Reg.RT_ARB_C1_W else if c = 2 then Reg.RT_ARB_C2_W else Reg.RT_ARB_C3_W)

/-- The order in which C1, C2 and C3 are asked: the class whose turn it is until it has had its weight, then the next;
a class with nothing to send passes its turn on, so the weights hold among the classes that wait (R233). (DEDUCED, assumption 47.) -/
def State.turnOrder (s : State) (p : Nat) : List Nat :=
  let (c, used) := (s.port p).rr
  let rest := [c % 3 + 1, (c + 1) % 3 + 1]
  if used < s.weightOf c then c :: rest else rest ++ [c]

/-- What the next slot sends: C0 before all else, then the first class in order that has a flit to send. -/
def State.pickSlot (s : State) (p : Nat) : Option Slot_ := (0 :: s.turnOrder p).findSome? (fun k => s.pickClass p k)

/-- The turn after a flit of a class. -/
def State.turned (s : State) (p c : Nat) : Nat × Nat :=
  let (c0, used) := (s.port p).rr
  if c = 0 then (c0, used) else if c = c0 ∧ used < s.weightOf c then (c0, used + 1) else (c, 1)

/-! ### Sending frames -/

/-- Flits of 64 bytes of a payload. -/
def flitsOf : Nat → List Byte → List (List Byte)
  | 0, _ => []
  | n + 1, bs => (bs.take 64 ++ List.replicate (64 - (bs.take 64).length) 0) :: flitsOf n (bs.drop 64)

/-- One flit of a channel leaves: a credit is taken. -/
def Port.sentOne (t : Port) (vc : Nat) : Port :=
  { t with avail := t.avail.put vc (Tab.get t.avail 0 vc - 1), sentFl := t.sentFl.put vc (Tab.get t.sentFl 0 vc + 1) }

/-- The transit counts of one slot: what it sends, if a packet's flit at all; a slot in which other flits of C1-C3 wait
enters the window, whatever it carries (R254, R259). (DEDUCED, assumption 47.) -/
def State.countSlot (s : State) (p : Nat) (vc : Option Nat) : State :=
  if !isRing p then s
  else
    let tr := match vc with | some v => isTransit v | none => false
    let t := s.port p
    let s := if tr then s.bumpK Reg.RT_TRANSIT_STAT_TRANSIT_KFLITS 1 else s
    let s := if t.transitWaits && t.waits && s.shareUsed p then s.bumpK Reg.RT_TRANSIT_STAT_SHARE_WAITS 1 else s
    if t.waits then s.modPort p (fun t => { t with transit := (tr :: t.transit).take 255 }) else s

/-- Slots that carry no flit of a packet. -/
def State.countOther (s : State) (p n : Nat) : State := (List.range n).foldl (fun s _ => s.countSlot p none) s

/-- The flits that a slot's choice puts on the link, a VCSEL first where another channel is selected (R268). -/
def State.sendSlot (s : State) (p : Nat) (x : Slot_) : List Flit × State :=
  match x with
  | .start vc k h =>
    let s := s.countSlot p (some vc)
    let data := PT.isData k.typ.val
    let turn := s.turned p (vcClass vc)
    let s := s.modPort p (fun t =>
      let t := { t.sentOne vc with txq := t.txq.erase (vc, k, h), rr := turn }
      let t := if vcClass vc = 1 then t.groupTurn k else t
      if data then
        { t with txSel := vc, txProg := t.txProg ++ [{ vc := vc, flits := flitsOf (k.len - h.due) k.payload, due := h.due,
                                                       arrived := h.arrived, buf := h.buf, sent := 1 }] }
      else t)
    ([.head k], s.freeFlits h)
  | .more vc =>
    let t := s.port p
    match t.txProg.find? (fun y => y.vc == vc) with
    | some y => match y.flits with
      | d :: ds =>
        let sel := if t.txSel = vc then [] else [Flit.link (.vcsel vc)]
        let s := (s.countOther p sel.length).countSlot p (some vc)
        let turn := s.turned p (vcClass vc)
        let z := { y with flits := ds, sent := y.sent + 1 }
        let s := s.modPort p (fun t => { t.sentOne vc with
          txSel := vc, rr := turn,
          txProg := (t.txProg.map (fun w => if w.vc == vc then z else w)).filter (fun w => !(w.flits.isEmpty && w.due == 0)) })
        (sel ++ [.body d], match y.arrived with | some a => s.freeBuf a y.buf | none => s)
      | [] => ([], s)
    | none => ([], s)

/-- Fill the slots that are left: a slot for which no flit may go stays empty. -/
def State.fillSlots (s : State) (p : Nat) : Nat → List Flit → List Flit × State
  | 0, acc => (acc, s)
  | n + 1, acc =>
    if acc.length ≥ 32 then (acc, s)
    else
      let r := match s.pickSlot p with | some x => s.sendSlot p x | none => ([], s)
      if r.1.isEmpty || decide (acc.length + r.1.length > 32) then (s.countSlot p none).fillSlots p n (acc ++ [.null])
      else r.2.fillSlots p n (acc ++ r.1)

/-- Link-control flits that an empty frame may carry (R268). -/
def LinkFlitInEmpty (l : LinkFlit) : Bool :=
  match l with
  | .heartbeat _ _ _ _ => true
  | .key _ _ _ _ _ _ => true
  | .creditInit _ => true
  | .reject _ _ _ => true
  | .down _ => true
  | .violation _ _ _ => true
  | _ => false

/-- DEDUCED, assumption 45. -/
def flitInEmpty (f : Flit) : Bool :=
  match f with
  | .null => true
  | .link l => LinkFlitInEmpty l
  | _ => false

/-- The flits that the clock asks for: HEARTBEAT, KEY with CREDIT_INIT, REJECT, DOWN (R271). (DEDUCED, assumption 45.) -/
def State.timedFlits (s : State) (p : Nat) : List LinkFlit × State :=
  let t := s.port p
  let st := s.lk p
  let due := fun (x : Option Nat) (n : Nat) => match x with | some c => decide (s.clock ≥ c + n) | none => true
  let hb := st ≥ 2 && due t.beatAt (State.usTicks 1 / 2)
  let ky := (st == 2 || st == 3) && due t.keyAt (State.usTicks 10)
  let rj := st == 6 && !t.rejected && due t.keyAt (State.usTicks 10)
  let dn := match t.downAt with | some (c, cause) => if s.clock < c + State.usTicks 10 then [LinkFlit.down cause] else [] | none => []
  let s := s.modPort p (fun t => { t with
    beatAt := if hb then some s.clock else t.beatAt, keyAt := if ky || rj then some s.clock else t.keyAt })
  ((if hb then [.heartbeat s.modNum p st s.rackTime] else [])
    ++ (if ky then [.key s.modNum p false (hasRetry p) t.matched (BitVec.ofNat 64 (s.rd Reg.LK_KEY_KEY)),
                    .creditInit ((List.range 24).map (offered p))] else [])
    ++ (if rj then [.reject Status.wrongNeighbour (s.rd (Reg.LK_NBR_EXP_MODULE p)) (s.rd (Reg.LK_NBR_EXP_PORT p))] else []) ++ dn, s)

/-- The channels that a trailer reports: those that have waited long for a report, which keeps every channel within 16
frames, then those whose counts have changed, in round robin; VC 31 fills the rest (R272). (DEDUCED, assumption 45.) -/
def Port.reportVcs (t : Port) (n : Nat) : List Nat :=
  let order := (List.range n).map (fun i => (t.crNext + i) % n)
  let old := order.filter (fun vc => decide (Tab.get t.crAge 0 vc ≥ 9))
  let new := order.filter (fun vc => decide (Tab.get t.crAge 0 vc < 9) && Tab.get t.freed 0 vc % 8192 != Tab.get t.crSent 0 vc)
  (old ++ new).take 4

/-- The four credit reports of a trailer. -/
def State.creditReports (s : State) (p : Nat) : List (Nat × Nat) × State :=
  let t := s.port p
  let n := if isRing p then 24 else 16
  let vcs := t.reportVcs n
  let cr := vcs.map (fun vc => (vc, Tab.get t.freed 0 vc % 8192))
  (cr ++ List.replicate (4 - cr.length) (31, 0),
   s.modPort p (fun t => { t with
     crNext := match vcs.getLast? with | some vc => (vc + 1) % n | none => t.crNext,
     crSent := cr.foldl (fun m c => m.put c.1 c.2) t.crSent,
     crAge := (List.range n).map (fun vc => (vc, if vcs.contains vc then 0 else Tab.get t.crAge 0 vc + 1)) }))

/-- A frame leaves with its trailer; a non-empty one takes the next FSEQ and, on a link with retry, is stored
(R266, R269, R270). -/
def State.putFrame (s : State) (p : Nat) (slots : List Flit) : State :=
  let empty := slots.all flitInEmpty
  let (cr, s) := s.creditReports p
  let t := s.port p
  let f : Frame :=
    { slots := (slots ++ List.replicate 32 Flit.null).take 32, fseq := t.nextSeq,
      ack := if hasRetry p then t.ackOut else 0, nak := hasRetry p && t.nakOut, empty := empty, credits := cr }
  s.modPort p (fun t => { t with
    wire := t.wire ++ [f],
    nextSeq := if empty then t.nextSeq else (t.nextSeq + 1) % 4096,
    replay := if empty || !hasRetry p then t.replay else t.replay ++ [(f, 1)] })

/-- A stored frame is sent again; its eighth send without acknowledgement takes the link down (R269, R285). -/
def State.resendFrame (s : State) (p : Nat) (f : Frame) (rest : List Frame) : State :=
  let (cr, s) := s.creditReports p
  let t := s.port p
  let g := { f with ack := t.ackOut, nak := t.nakOut, credits := cr }
  let n := ((t.replay.find? (fun x => x.1.fseq == f.fseq)).map Prod.snd).getD 0 + 1
  let s := (s.modPort p (fun t => { t with
    wire := t.wire ++ [g], resend := rest, nakSeen := if rest.isEmpty then none else t.nakSeen,
    replay := t.replay.map (fun x => if x.1.fseq == f.fseq then (x.1, n) else x) })).bumpK (Reg.LK_ERR_REPLAYS p) 1
  if n ≥ 8 then s.takeDown p 3 else s

/-- FRAME_TX: the sender sends its next frame (R233, R266-R274, R302). -/
def execFrameTx (port : PortId) (s : State) : Res :=
  let p := port.val
  let t := s.port p
  .next (if !t.framed then
      match t.downAt with
      | some (c, cause) =>
        if s.clock < c + State.usTicks 10 then s.modPort p (fun t => { t with wire := t.wire ++ [linkFrame [.down cause] t.nextSeq] }) else s
      | none => s
    else if s.lk p = 0 ∨ s.lk p = 5 then s
    else match t.resend with
      | f :: rest => s.resendFrame p f rest
      | [] =>
        let (timed, s) := s.timedFlits p
        let only := s.lk p ≠ 4 || (hasRetry p && decide (t.replay.length ≥ 64))
        let q := (s.port p).linkq
        let now := (if only then q.filter LinkFlitInEmpty else q).take (28 - timed.length)
        let masked := now.any (fun l => match l with | .laneMask _ _ => true | _ => false)
        let s := s.modPort p (fun t => { t with linkq := now.foldl List.erase t.linkq, markers := if masked then 2 else t.markers })
        let ls := (timed ++ now).map Flit.link
        let s := s.countOther p ls.length
        if only || t.pState ≠ 4 then (s.countOther p (32 - ls.length)).putFrame p ls
        else
          let r := s.fillSlots p 32 ls
          r.2.putFrame p r.1)

end Sys2Proof.Machine
end

