-- ==== Sys2Proof/Machine/Optics.lean ====
section
/-! DEFINITION. Optical engines: emitters, calibration, swaps and safe power (R315-R327); the service face:
connectors, latch, identify pad and light bar (R328-R334). -/

namespace Sys2Proof.Machine

/-! ### Lanes, fibres and emitters (R315, R316) -/

/-- Fibre position on the engine's connector of fibre f of a port's transmit or receive lanes (R316). -/
def fibrePos (p f : Nat) (tx : Bool) : Nat :=
  if p % 2 = 0 then (if tx then 1 + f else 16 - f) else (if tx then 5 + f else 12 - f)

/-- Fibre and wavelength of a logical lane (R316). -/
def laneFibre (l : Nat) : Nat := l / 4
def laneWave (l : Nat) : Nat := l % 4

/-- The four lanes that an emitter of a wavelength feeds on its port (R316). -/
def emitterLanes (k : Nat) : List Nat := [0, 4, 8, 12].map (· + k / 3)

/-- The port that an emitter feeds by its role: 1 port A, 2 port B (R335). -/
def State.emitterPort (s : State) (e k : Nat) : Option Nat :=
  let r := s.rd (Reg.OE_EMIT_ROLE e k)
  if r = 1 then some (2 * e) else if r = 2 then some (2 * e + 1) else none

/-- A usable spare of an emitter's wavelength: ROLE spare, LEVEL below 2 (R322). -/
def State.spareOf (s : State) (e k : Nat) : Option Nat :=
  ([3 * (k / 3), 3 * (k / 3) + 1, 3 * (k / 3) + 2]).find? (fun j => s.rd (Reg.OE_EMIT_ROLE e j) == 0 && s.rd (Reg.OE_EMIT_LEVEL e j) < 2)

def State.swapState (s : State) (e : Nat) : Nat := s.rd (Reg.OE_STATUS_SWAP_STATE e)

/-- S0 record of the optics (R413): the engine in ADDR, the emitter or lane in INFO0. (DEDUCED, assumption 48.) -/
def State.logOptics (s : State) (e what : Nat) (replace : Bool) : State :=
  s.raise { Fault_.blank 0 Status.ok 0x0501 with addr := BitVec.ofNat 64 e, info0 := BitVec.ofNat 64 what, replace := replace }

/-! ### Safe power and signal (R326, R327) -/

/-- SAFE_POWER_EXIT: connector seated and signal on at least 8 lanes for 10 ms (R327). (DEDUCED, assumption 48.) -/
def execSafePowerExit (port : PortId) (s : State) : Res :=
  let p := port.val
  .next (if s.rd (safeFld p) = 1 ∧ (s.engine (p / 2)).seated ∧ (lanes (s.port p).signal).length ≥ 8 ∧ s.booted then
      (s.wr (safeFld p) 0).bringUp p
    else s)

/-- LOSS_OF_SIGNAL: the lane's removal is requested, or the link goes down with cause 2 and the port to safe
power (R264, R285, R326). -/
def execLossOfSignal (port : PortId) (lane : Fin 16) (s : State) : Res :=
  let p := port.val
  let s := s.modPort p (fun t => { t with signal := t.signal &&& ~~~ (laneBit lane.val), mLock := t.mLock &&& ~~~ (laneBit lane.val), adapted := t.adapted &&& ~~~ (laneBit lane.val) })
  .next (if s.linkRuns p then (if (s.rxMask p).getLsbD lane.val then s.loseLane p lane.val else s)
    else if s.lk p = 1 ∧ (lanes (s.port p).signal).length < 8 then
      if (s.port p).framed then (s.toSafe p).takeDown p 2 else s
    else s)

/-- SIGNAL_DETECT: clock recovery of the lane starts, and the 10 ms of R327 count. -/
def execSignalDetect (port : PortId) (lane : Fin 16) (s : State) : Res :=
  .next (s.modPort port.val (fun t => { t with signal := t.signal ||| laneBit lane.val }))

/-! ### Swaps (R323, R324) -/

/-- The engine has no swap under way. -/
def State.swapIdle (s : State) (e : Nat) : State :=
  ((s.wr (Reg.OE_STATUS_SWAP_STATE e) 0).wr (Reg.OE_STATUS_SWAP_EMITTER e) 15).wr (Reg.OE_STATUS_SWAP_SPARE e) 15

/-- Step 2: the emitter's four lanes leave the mask, with one change that also settles a calibration slot (R321);
on a port that carries no frames the switch may route the spare at once. -/
def State.lanesOut (s : State) (e k : Nat) : State :=
  match s.emitterPort e k with
  | none => s
  | some p =>
    let own := emitterLanes k
    let out := own.map (fun l => (l, false))
    if !(s.port p).framed then s.wr (Reg.OE_STATUS_SWAP_STATE e) 3
    else
      let s := s.wr (Reg.OE_STATUS_SWAP_STATE e) 2
      match (s.port p).calLane with
      | none => s.askLanes p out
      | some l =>
        let s := ((s.modPort p (fun t => { t with calLane := none })).wr (Reg.OE_CAL_ACTIVE e (calIdx p)) 0).bump (Reg.OE_CAL_SKIPPED e (calIdx p)) 1
        s.askLanes p ((if own.contains l then [] else [(l, true)]) ++ out)

/-- The swap of emitter k starts: warming, or lanes out at once for a dark emitter (R323, R325). -/
def State.startSwap (s : State) (e k j : Nat) : State :=
  let s := ((s.wr (Reg.OE_STATUS_SWAP_STATE e) 1).wr (Reg.OE_STATUS_SWAP_EMITTER e) k).wr (Reg.OE_STATUS_SWAP_SPARE e) j
  if (s.engine e).dark.contains k then s.lanesOut e k else s

/-- SWAP_START: planned at LEVEL 2 while PLAN_EN is 1, forced at LEVEL 3 or when dark; a forced swap abandons
another that still warms (R323). -/
def execSwapStart (e : Fin 10) (k : Fin 12) (s : State) : Res :=
  let lv := s.rd (Reg.OE_EMIT_LEVEL e.val k.val)
  let forced := lv == 3 || (s.engine e.val).dark.contains k.val
  let now := s.swapState e.val
  let due := forced || (lv == 2 && s.rdb (Reg.OE_CTL_PLAN_EN e.val))
  .next (if !s.booted ∨ s.failed ∨ (s.emitterPort e.val k.val).isNone then s
    else if due && (now == 0 || (forced && now == 1 && s.rd (Reg.OE_STATUS_SWAP_EMITTER e.val) != k.val)) then
      match s.spareOf e.val k.val with
      | some j => s.startSwap e.val k.val j
      | none => s
    else s)

/-- SWAP_WARM_DONE: the spare has reached its output (R323). -/
def execSwapWarmDone (e : Fin 10) (s : State) : Res :=
  .next (if s.swapState e.val = 1 then s.lanesOut e.val (s.rd (Reg.OE_STATUS_SWAP_EMITTER e.val)) else s)

/-- Bits of OE_LOCK.LOCKED of some lanes of a port. -/
def State.setLocked (s : State) (p : Nat) (ls : List Nat) (on : Bool) : State :=
  let e := p / 2
  let v := ls.foldl (fun v l => setFld v (16 * (p % 2) + l) 1 on.toNat) (s.rd (Reg.OE_LOCK_LOCKED e))
  s.wr (Reg.OE_LOCK_LOCKED e) v

/-- SWAP_SWITCH_DONE: the switch has settled and the rings are locked; the lanes recalibrate (R323). -/
def execSwapSwitchDone (e : Fin 10) (s : State) : Res :=
  let k := s.rd (Reg.OE_STATUS_SWAP_EMITTER e.val)
  .next (if s.swapState e.val = 3 then
      match s.emitterPort e.val k with
      | some p => (s.setLocked p (emitterLanes k) true).wr (Reg.OE_STATUS_SWAP_STATE e.val) 4
      | none => s
    else s)

/-- Roles after a swap, in the registers and in flash (R324). -/
def State.swapRoles (s : State) (e : Nat) : State :=
  let k := s.rd (Reg.OE_STATUS_SWAP_EMITTER e)
  let j := s.rd (Reg.OE_STATUS_SWAP_SPARE e)
  let r := s.rd (Reg.OE_EMIT_ROLE e k)
  let s := (s.wr (Reg.OE_EMIT_ROLE e k) 3).wr (Reg.OE_EMIT_ROLE e j) r
  let s := { s with flash := { s.flash with roles := (s.flash.roles.put (12 * e + k) 3).put (12 * e + j) r } }
  ((s.modEngine e (fun g => { g with dark := g.dark.erase k })).swapIdle e).logOptics e k false

/-- SWAP_COMPLETE: the four lanes are back in the mask, or the port carries no frames (R323, R324). -/
def execSwapComplete (e : Fin 10) (s : State) : Res :=
  let k := s.rd (Reg.OE_STATUS_SWAP_EMITTER e.val)
  .next (match s.emitterPort e.val k with
    | some p =>
      let back := !(s.port p).framed || (emitterLanes k).all (fun l => (s.txMask p).getLsbD l)
      if s.swapState e.val = 5 ∨ (s.swapState e.val = 4 ∧ back) then s.swapRoles e.val else s
    | none => s)

/-! ### Fade (R322, R324, R325) -/

/-- Threshold of a level, in 0.1 dB. -/
def levelAt (l : Nat) : Nat := 10 * l

/-- LEVEL rises to the highest threshold met, each rise with a record, or falls one step (R322). -/
def State.setLevel (s : State) (e k fade : Nat) : State :=
  let lv := s.rd (Reg.OE_EMIT_LEVEL e k)
  let top := if fade ≥ 30 then 3 else if fade ≥ 20 then 2 else if fade ≥ 10 then 1 else 0
  if top > lv then
    (List.range (top - lv)).foldl (fun s _ => s.logOptics e k false) (s.wr (Reg.OE_EMIT_LEVEL e k) top)
  else if lv > 0 && fade + 5 ≤ levelAt lv then s.wr (Reg.OE_EMIT_LEVEL e k) (lv - 1)
  else s

/-- An emitter at LEVEL 3 without a usable spare is turned off, its lanes leave for good and service is called
for (R324). -/
def State.emitterOff (s : State) (e k : Nat) : State :=
  match s.emitterPort e k with
  | none => s
  | some p =>
    if s.flash.emitOff.contains (12 * e + k) then s
    else
      let out := (emitterLanes k).foldl (fun m l => m ||| laneBit l) (0 : BitVec 16)
      let s := { s with flash := { s.flash with emitOff := s.flash.emitOff ++ [12 * e + k] } }
      let s := (s.modPort p (fun t => { t with outLanes := t.outLanes ||| out })).wr (Reg.OE_STATUS_SERVICE e) 1
      (s.askLanes p ((emitterLanes k).map (fun l => (l, false)))).logOptics e k true

/-- The mean of up to 64 samples, in 0.1 dB. (DEDUCED, assumption 48.) -/
def meanOf (xs : List Nat) : Nat := if xs.isEmpty then 0 else xs.sum / xs.length

/-- An emitter has been on for one more sample of 1 ms: its hours are counted, in its register and in flash (R335). -/
def State.onTime (s : State) (e k : Nat) : State :=
  let n := Tab.get (s.engine e).onMs 0 k + 1
  if n < 3600000 then s.modEngine e (fun g => { g with onMs := g.onMs.put k n })
  else
    let s := (s.modEngine e (fun g => { g with onMs := g.onMs.put k 0 })).bump (Reg.OE_EMIT_ON_HOURS e k) 1
    { s with flash := { s.flash with hours := s.flash.hours.put (12 * e + k) (s.rd (Reg.OE_EMIT_ON_HOURS e k)) } }

/-- EMITTER_SAMPLE: the fade is the mean shortfall of the last 64 samples; a fall of more than 10 dB within one
sample finds the emitter dark (R322, R325). -/
def execEmitterSample (e : Fin 10) (k : Fin 12) (fade : Nat) (s : State) : Res :=
  let old := Tab.get (s.engine e.val).fades [] k.val
  let xs := (fade :: old).take 64
  let m := min 255 (meanOf xs)
  let isDark := fade > 100 && (old.headD 0) ≤ 100
  .next (if !s.booted ∨ (s.emitterPort e.val k.val).isNone ∨ s.flash.emitOff.contains (12 * e.val + k.val) then s
    else
      let s := s.modEngine e.val (fun g => { g with fades := g.fades.put k.val xs, dark := if isDark then g.dark ++ [k.val] else g.dark })
      let s := ((s.onTime e.val k.val).wr (Reg.OE_EMIT_FADE_DDB e.val k.val) m).setLevel e.val k.val m
      if (s.rd (Reg.OE_EMIT_LEVEL e.val k.val) == 3 || isDark) && (s.spareOf e.val k.val).isNone && s.swapState e.val == 0 then s.emitterOff e.val k.val else s)

/-- SPARE_CHECK: the daily check of a spare's output (R322). -/
def execSpareCheck (e : Fin 10) (k : Fin 12) (fade : Nat) (s : State) : Res :=
  .next (if s.booted ∧ s.rd (Reg.OE_EMIT_ROLE e.val k.val) = 0 then
      (s.wr (Reg.OE_EMIT_FADE_DDB e.val k.val) (min 255 fade)).setLevel e.val k.val (min 255 fade)
    else s)

/-! ### Calibration and rings (R319-R321) -/

/-- One attempt to relock a ring: it holds, and is locked again; or it fails, and after the third failure its lane stays
out of the mask until module reset (R319). -/
def State.relockOne (s : State) (p : Nat) (held : BitVec 16) (x : Nat × Nat) : State :=
  let l := x.1
  if held.getLsbD l then
    ((s.modPort p (fun t => { t with unlocked := t.unlocked.filter (fun y => y.1 != l) })).setLocked p [l] true).bump (Reg.OE_LOCK_RELOCKS (p / 2)) 1
  else if x.2 + 1 < 3 then s.modPort p (fun t => { t with unlocked := t.unlocked.put l (x.2 + 1) })
  else (s.modPort p (fun t => { t with unlocked := t.unlocked.filter (fun y => y.1 != l), outLanes := t.outLanes ||| laneBit l })).logOptics (p / 2) l false

/-- Relock of the port's unlocked rings at a calibration slot (R319). -/
def State.relock (s : State) (p : Nat) (held : BitVec 16) : State :=
  (s.port p).unlocked.foldl (fun s x => s.relockOne p held x) s

/-- The lane of the next slot, those out for good passed over. -/
def calNext (out : BitVec 16) (l : Nat) : Nat :=
  match ((List.range 16).map (fun i => (l + i) % 16)).find? (fun x => !out.getLsbD x) with | some x => x | none => l

/-- CAL_SLOT: one lane leaves the mask to be calibrated, or the slot is skipped (R320, R321). -/
def execCalSlot (f : CalFind) (s : State) : Res :=
  let p := f.port.val
  let e := p / 2
  let i := calIdx p
  .next (if s.lk p ≠ 4 then s
    else
      let s := s.relock p f.held
      let sw := s.swapState e ≥ 2 && (s.emitterPort e (s.rd (Reg.OE_STATUS_SWAP_EMITTER e)) == some p)
      let l := calNext (s.port p).outLanes (s.rd (Reg.OE_CAL_NEXT_LANE e i))
      if (lanes (s.txMask p)).length ≤ 8 || sw || !s.rdb (Reg.OE_CTL_CAL_EN e) then s.bump (Reg.OE_CAL_SKIPPED e i) 1
      else
        let s := (s.wr (Reg.OE_CAL_NEXT_LANE e i) ((l + 1) % 16)).wr (Reg.OE_CAL_ACTIVE e i) 1
        (s.modPort p (fun t => { t with calLane := some l })).askLanes p [(l, false)])

/-- CAL_RESTORE_TIMEOUT: no restore within 10 ms; the lane stays out until its next slot (R320). -/
def execCalRestoreTimeout (port : PortId) (s : State) : Res :=
  let p := port.val
  let e := p / 2
  let i := calIdx p
  .next (match (s.port p).calLane with
    | some l => (((s.modPort p (fun t => { t with calLane := none })).wr (Reg.OE_CAL_ACTIVE e i) 0).bump (Reg.OE_CAL_NO_RESTORE e i) 1).logOptics e l false
    | none => s)

/-- RING_UNLOCK: the lane leaves the mask, and the calibration slots of its port try to relock it (R319). -/
def execRingUnlock (port : PortId) (lane : Fin 16) (s : State) : Res :=
  let p := port.val
  let l := lane.val
  .next (if !s.booted then s
    else
      let n := (s.port p).unlocked.lookup l
      let out := (s.port p).outLanes.getLsbD l
      let s := (s.modPort p (fun t => { t with unlocked := if out then t.unlocked else t.unlocked.put l (n.getD 0) })).setLocked p [l] false
      s.askLanes p [(l, false)])

/-! ### Connectors (R326-R328) -/

/-- The insertion switch of an engine. -/
def State.setSeated (s : State) (e : Nat) (b : Bool) : State :=
  ((s.modEngine e (fun g => { g with seated := b })).wrb (Reg.OE_STATUS_SEATED e) b).wr Reg.SF_CONN_SEATED (setFld (s.rd Reg.SF_CONN_SEATED) e 1 b.toNat)

/-- A swap at the removal of its connector: completed from its switching step on, else abandoned (R323). (DEDUCED, assumption 48.) -/
def State.swapAtRemoval (s : State) (e : Nat) : State :=
  let st := s.swapState e
  if st = 0 then s else if st ≥ 3 then s.swapRoles e else s.swapIdle e

/-- CONNECTOR_REMOVED: both ports go down with cause 6 and to safe power (R326, R328). -/
def execConnectorRemoved (e : Fin 10) (s : State) : Res :=
  let a := 2 * e.val
  let b := 2 * e.val + 1
  .next (if !(s.engine e.val).seated then s
    else
      let up := fun (s : State) (p : Nat) => s.lk p != 0 && s.lk p != 5
      let quiet := !(up s a) && !(up s b)
      let s := (((s.setSeated e.val false).toSafe a).toSafe b).bump Reg.SF_CONN_REMOVALS 1
      let s := s.swapAtRemoval e.val
      let s := (s.takeDown a 6).takeDown b 6
      if quiet then s.raise { Fault_.blank 0 Status.ok 0x0301 with addr := BitVec.ofNat 64 a, info0 := 6 } else s)

/-- CONNECTOR_SEATED (R327, R328). -/
def execConnectorSeated (e : Fin 10) (s : State) : Res := .next (s.setSeated e.val true)

/-! ### The latch (R329, R330) -/

/-- An in-band interrupt to the tray controller, while enabled (R375). -/
def State.raiseIbi (s : State) (b : Byte) : State := if s.ibiOn then { s with ibis := s.ibis ++ [b], sideOut := s.sideOut ++ [.ibi b] } else s

/-- Every task ends as by a job-fatal fault with a status, and each job's own job-fatal fault is due (R330). -/
def State.endJobs (s : State) (status cause : Nat) : State :=
  (s.failAll status).jobsFatal (Fault_.blank 4 status cause)

/-- The module leaves (R330). -/
def State.leave (s : State) : State :=
  if s.rdb Reg.SF_LATCH_LEFT then s
  else
    let s := ((s.wr Reg.SF_LATCH_LEFT 1).svcEvent Reg.HOST_IRQ_CAUSE_LEFT).raiseIbi 4
    if s.booted then (s.sendDeclaration s.modNum 3).endJobs Status.padlocked 0x0503 else { s with portsOff := true }

/-- The fields of the service face that act from the next sensor sample on (R336). -/
def faceFields : List Fld := [Reg.SF_BEACON_BEACON, Reg.SF_BEACON_PAD_EN, Reg.SF_BAR_MODE, Reg.SF_BAR_BRIGHT]

/-- LATCH_SAMPLE: writes to the service face take effect; the hinge angle is read; OPEN and DRAIN follow it, and 80° makes the module leave (R329,
R330). (DEDUCED, assumption 78.) -/
def execLatchSample (angle : Nat) (s : State) : Res :=
  .next (if !s.powered ∨ s.failed then s
    else
      let a := min 90 angle
      let s := faceFields.foldl (fun (s : State) f => s.settle f) s
      let s := (s.wr Reg.SF_LATCH_ANGLE a).wrb Reg.SF_LATCH_WITHDRAW (decide (a ≥ 80))
      let s :=
        if s.rd Reg.SF_LATCH_OPEN = 0 ∧ a > 15 then
          let s := { ((s.wr Reg.SF_LATCH_OPEN 1).wr Reg.SF_LATCH_DRAIN 1).bump Reg.SF_LATCH_OPENINGS 1 with openAt := some s.clock }
          ((s.raise { Fault_.blank 0 Status.ok 0x0502 with info0 := BitVec.ofNat 64 a }).svcEvent Reg.HOST_IRQ_CAUSE_LATCH).raiseIbi 1
        else if s.rd Reg.SF_LATCH_OPEN = 1 ∧ a < 10 then
          { (s.wr Reg.SF_LATCH_OPEN 0).wr Reg.SF_LATCH_DRAIN 0 with openAt := none }
        else s
      if a ≥ 80 then s.leave else s)

/-- MODULE_LEAVE: OPEN has stayed 1 for 10 s (R330). -/
def execModuleLeave (s : State) : Res := .next (if s.rdb Reg.SF_LATCH_OPEN && s.powered && !s.failed then s.leave else s)

/-- Every fabric port goes down with cause 9 and is held (R330, R414, R427). -/
def State.allPortsDown (s : State) : State := (List.range 20).foldl (fun s p => (s.takeDown p 9).setLk p 0) { s with portsOff := true }

/-- LEAVE_PORTS_DOWN: 20 µs after the departure notice, or after the module has declared itself dead (R330,
R427). -/
def execLeavePortsDown (s : State) : Res :=
  .next (if s.rdb Reg.SF_LATCH_LEFT || s.rdb Reg.FD_STATE_SELF_DECLARED then s.allPortsDown else s)

/-- PAD_TOUCH: a touch of at least 100 ms toggles BEACON (R331). (DEDUCED, assumption 78.) -/
def execPadTouch (ms : Nat) (s : State) : Res :=
  let soon := match s.padAt with | some t => decide (s.clock < t + State.msTicks 500) | none => false
  .next (if ms ≥ 100 && s.act Reg.SF_BEACON_PAD_EN == 1 && !soon && s.powered then
      { (s.wrb Reg.SF_BEACON_BEACON (!s.rdb Reg.SF_BEACON_BEACON)).settle Reg.SF_BEACON_BEACON with padAt := some s.clock }
    else s)

/-! ### Light bar (R332-R334) -/

inductive Colour where
  | off | red | amber | green | blue | white | magenta | cyan | yellow
  deriving DecidableEq, Repr

/-- A light that blinks at a rate, at a time in ms. -/
def blink (hz t : Nat) (c : Colour) : Colour := if (2 * hz * t / 1000) % 2 = 0 then c else .off

/-- Ports in STATE 6, in increasing number. -/
def State.wrongPorts (s : State) : List Nat := (List.range 20).filter (fun p => s.lk p == 6)

/-- Row of the display in force (R332): a failed boot and recovery mode show row 1 as well (R383, R388). -/
def State.barRow (s : State) : Nat :=
  if s.failed || s.rd Reg.GLB_BOOT_STAGE ≥ 5 then 1
  else if s.rdb Reg.SF_LATCH_LEFT then 2
  else if s.rdb Reg.SF_LATCH_OPEN then 3
  else if !s.wrongPorts.isEmpty then 4
  else if s.act Reg.SF_BEACON_BEACON = 1 then 5
  else 6

/-- The identify pattern of a port at a time in its cycle of 4 s: colour and sixteenths of full brightness
(R333). (DEDUCED, assumption 78.) -/
def State.identify (s : State) (p t i : Nat) : Colour × Nat :=
  let m := s.rd (Reg.LK_NBR_EXP_MODULE p)
  let q := s.rd (Reg.LK_NBR_EXP_PORT p)
  if t < 2500 then
    (if i < 3 then .magenta else if i < 6 then .cyan else if i < 9 then .yellow else .white, if m.testBit (11 - i) then 16 else 1)
  else
    let own := i == 1 + p / 2
    let far := i == 1 + q / 2 && !s.rdb (Reg.LK_NBR_EXP_ADAPTER p)
    if own && far then (if blink 4 t .red = .red then .red else .white, 16)
    else if own then (blink 4 t .red, 16)
    else if far then (if q % 2 = 0 then .white else blink 1 t .white, 16)
    else (.off, 16)

/-- A port of an engine is permanently reduced (R324). -/
def State.reduced (s : State) (p : Nat) : Bool :=
  s.flash.emitOff.any (fun x => x / 12 == p / 2 && s.rd (Reg.OE_EMIT_ROLE (p / 2) (x % 12)) == p % 2 + 1)

/-- Segment status (R334). -/
def State.segment (s : State) (t i : Nat) : Colour :=
  if i = 0 then (if s.booted then .green else .off)
  else if i = 11 then
    if (List.range 10).any (fun e => s.rdb (Reg.OE_STATUS_SERVICE e)) || (List.range 4).any (fun l => s.leafReplace l)
      then .amber else .off
  else
    let ps := [2 * (i - 1), 2 * (i - 1) + 1].filter (fun p => s.mapped p)
    if ps.isEmpty then .off
    else if ps.any (fun p => s.lk p == 5) then blink 1 t .red
    else if ps.any (fun p => s.reduced p || s.lk p == 0) then .amber
    else if ps.any (fun p => 1 ≤ s.lk p && s.lk p ≤ 3) then blink 1 t .green
    else .green

/-- What a segment of the bar shows at a time in ms: colour and sixteenths of the brightness step (R332). (DEDUCED, assumption 78.) -/
def State.bar (s : State) (t i : Nat) : Colour × Nat :=
  let row := s.barRow
  let mode := s.act Reg.SF_BAR_MODE
  if !s.powered then (.off, 16)
  else if row = 1 then (.red, 16)
  else if row = 2 then (blink 2 t .amber, 16)
  else if row = 3 then (.amber, 16)
  else if mode = 1 then (.off, 16)
  else if mode = 2 then (.white, 16)
  else if row = 4 then
    let ps := s.wrongPorts
    if s.act Reg.SF_BEACON_BEACON = 1 then
      (if t % 4000 < 3000 then s.identify (ps.getD (t / 4000 % ps.length) 0) (t % 4000) i else (blink 1 t .blue, 16))
    else s.identify (ps.getD (t / 4000 % ps.length) 0) (t % 4000) i
  else if row = 5 then (blink 1 t .blue, 16)
  else (s.segment t i, 16)

end Sys2Proof.Machine
end

