-- ==== Sys2Proof/Machine/Memctl.lean ====
section
/-! DEFINITION. The hub cache's passes (R179) and the LPDDR channels: scrub, refresh, drift, retraining and repair
(R358-R364). -/

namespace Sys2Proof.Machine

/-! ### Cache passes (R160, R179) -/

/-- The module runs and its hub answers. -/
def State.serving (s : State) : Bool := s.booted && !s.failed

/-- FLUSH: the lines present now will be written back and invalidated; without cache granules nothing happens. -/
def State.flushStart (s : State) : State :=
  if s.cacheSets = 0 then s
  else { s.wr Reg.HM_CACHE_CTL_FLUSH 1 with cache := s.cache.map (fun l => { l with flush := true }) }

/-- CACHE_FLUSH (R179). -/
def execCacheFlush (s : State) : Res := .next (if s.serving then s.flushStart else s)

/-- CACHE_FLUSH_DONE: every line of the pass is back in LM and gone from the cache (R179). -/
def execCacheFlushDone (s : State) : Res :=
  .next (if s.rdb Reg.HM_CACHE_CTL_FLUSH then
      let s := (s.cache.filter (fun l => l.flush)).foldl (fun s l => s.writeBack l) s
      { s.wr Reg.HM_CACHE_CTL_FLUSH 0 with cache := s.cache.filter (fun l => !l.flush) }
    else s)

/-- UNPROTECT clears the protection of every line in one pass (R161, R179). -/
def State.unprotectStart (s : State) : State :=
  if s.cacheSets = 0 then s
  else { s.wr Reg.HM_CACHE_CTL_UNPROTECT 1 with cache := s.cache.map (fun l => { l with prot := false }) }

/-- CACHE_UNPROTECT (R179). -/
def execCacheUnprotect (s : State) : Res := .next (if s.serving then s.unprotectStart else s)

/-- CACHE_UNPROTECT_DONE (R179). -/
def execCacheUnprotectDone (s : State) : Res := .next (s.wr Reg.HM_CACHE_CTL_UNPROTECT 0)

/-! ### Channels -/

def State.chState (s : State) (ch : Nat) : Nat := s.rd (Reg.LMC_CH_STATE (ch / 16) (ch % 16))

/-- The state of a channel changes; requests that waited for it come back to the hub, which looks again (R362). -/
def State.setCh (s : State) (ch v : Nat) : State :=
  let s := s.wr (Reg.LMC_CH_STATE (ch / 16) (ch % 16)) v
  if v = 0 ∨ v = 3 then s.returnWaiting (fun h => h.pkt.space == spLM) else s

/-- Lines of a quadrant (R356). -/
def quadLines : Nat := 124 * gib / 256

/-- One more line of the pass of a quadrant has gone by; skipped lines count (R358, R367). (DEDUCED, assumption 49.) -/
def State.scrubCount (s : State) (q : Nat) : State :=
  let k := (Reg.LMC_STAT_SCRUB_PASSES q).key
  let n := Tab.get s.sub 0 k + 1
  if n ≥ quadLines then { s with sub := Tab.set s.sub 0 k 0 }.bump (Reg.LMC_STAT_SCRUB_PASSES q) 1
  else { s with sub := Tab.set s.sub 0 k n }

/-- SCRUB_LINE: the scrub reads its next line, corrects it, or poisons it with a latent record (R358). (DEDUCED, assumption 49.) -/
def execScrubLine (q : Fin 4) (off : Nat) (f : ScrubFind) (s : State) : Res :=
  let line := off / 256
  let ch := lmChannel off
  .next (if !s.serving ∨ !s.rdb (Reg.LMC_CTL_SCRUB_EN q.val) ∨ ch / 16 ≠ q.val ∨ s.chState ch = 1 ∨ s.chState ch = 2 ∨ !s.lmRange (line * 256) 256 then s
    else
      let s := s.scrubCount q.val
      if (s.cached line).isSome ∨ s.lmPoison.contains line ∨ s.chState ch = 3 then s
      else match f with
        | .clean => s
        | .corrected => s.lmCorrected off
        | .uncorrectable =>
          (s.lmUncorrectable off true).raise { Fault_.blank 0 Status.eccUncorrected 0x0203 with
            addr := BitVec.ofNat 64 off, info0 := BitVec.ofNat 64 off, info1 := BitVec.ofNat 64 ch })

/-- REFRESH: issued, or postponed while the channel retrains or is repaired (R359). (DESIGN CHOICE, assumption 6; DEDUCED, assumption 49.) -/
def execRefresh (ch : Fin 64) (bank : Fin 16) (s : State) : Res :=
  let _ := bank
  .next (if s.chState ch.val = 1 ∨ s.chState ch.val = 2 then s.modChan ch.val (fun c => { c with debt := c.debt + 1 })
    else s.modChan ch.val (fun c => { c with debt := 0 }))

/-- Record of a retrain or a repair (R362, R413). -/
def State.trainRecord (s : State) (ch kind : Nat) : State :=
  s.raise { Fault_.blank 2 Status.replayed 0x0204 with addr := BitVec.ofNat 64 ch, info0 := BitVec.ofNat 64 kind }

/-- A retrain starts (R360). (DEDUCED, assumption 22.) -/
def State.retrainStart (s : State) (ch : Nat) : State :=
  ((s.setCh ch 1).bump (Reg.LMC_CH_RETRAINS (ch / 16) (ch % 16)) 1).trainRecord ch 0

/-- A repair starts (R361). (DEDUCED, assumption 22.) -/
def State.repairStart (s : State) (ch : Nat) : State :=
  ((s.setCh ch 2).bump (Reg.LMC_CH_REPAIRS (ch / 16) (ch % 16)) 1).trainRecord ch 1

/-- The channel returns to service and pays its refresh debt (R359, R360). -/
def State.chanBack (s : State) (ch : Nat) : State :=
  (s.setCh ch 0).modChan ch (fun c => { c with lastTrain := s.clock, fails := 0, debt := 0 })

/-- OSC_SAMPLE: link corrections of the last millisecond start a repair, drift or 10 s without training a
retrain (R360, R361, R364). -/
def execOscSample (ch : Fin 64) (driftPs corrections : Nat) (s : State) : Res :=
  let c := ch.val
  let q := c / 16
  .next (if !s.booted then s
    else
      let s := s.bumpK (Reg.LMC_STAT_LINK_KCORR q) corrections
      let st := s.chState c
      let bad := decide (corrections > s.rd (Reg.LMC_CTL_REPAIR_THRESH q))
      if st ≥ 2 then s
      else if bad then s.repairStart c
      else if st = 0 ∧ (driftPs ≥ s.rd (Reg.LMC_CTL_DRIFT_PS q) ∨ s.clock ≥ (s.chan c).lastTrain + State.msTicks 10000) then s.retrainStart c
      else s)

/-- LM_RETRAIN_DONE: back in service, or a repair begins when the read-back check fails (R360, R361). -/
def execLmRetrainDone (ch : Fin 64) (pass : Bool) (s : State) : Res :=
  .next (if s.chState ch.val = 1 then (if pass then s.chanBack ch.val else s.repairStart ch.val) else s)

/-- LM_REPAIR_DONE: a second failure in succession fails the channel, and every job with a task here takes a
job-fatal fault (R361, R363). -/
def execLmRepairDone (ch : Fin 64) (pass : Bool) (s : State) : Res :=
  let c := ch.val
  .next (if s.chState c ≠ 2 then s
    else if pass then s.chanBack c
    else
      let n := (s.chan c).fails + 1
      let s := s.modChan c (fun x => { x with fails := n })
      if n ≥ 2 then
        (s.setCh c 3).jobsFatal { Fault_.blank 4 Status.eccUncorrected 0x0205 with addr := BitVec.ofNat 64 c, info0 := BitVec.ofNat 64 c, replace := true }
      else s.repairStart c)

end Sys2Proof.Machine
end

