-- ==== Sys2Proof/Machine/Leaves.lean ====
section
/-! DEFINITION. The leaf links: UCIe retry, retraining, lane repair and degrade (R337-R344), withdrawal (R345),
training, width disagreements and partial reset (R339, R346-R348), and the budget messages (R351, R352). -/

namespace Sys2Proof.Machine

/-! ### UCIe modules -/

def State.modUcie (s : State) (l m : Nat) (f : Ucie → Ucie) : State :=
  s.modLeaf l (fun k => { k with mods := k.mods.setIfInBounds m (f (k.mod m)) })

/-- Failed lanes of half `h`. -/
def inHalf (h : Nat) (ls : List Nat) : List Nat := ls.filter (fun x => x / 32 == h)

/-- A half is usable: neither direction has more than two failed lanes in it (R344). -/
def Ucie.usable (u : Ucie) (h : Nat) : Bool := decide ((inHalf h u.failedTx).length ≤ 2) && decide ((inHalf h u.failedRx).length ≤ 2)

/-- Width after a lane test, from the width before it (R344). -/
def Ucie.widthFrom (u : Ucie) (old : Nat) : Nat :=
  match old with
  | 0 => if u.usable 0 then (if u.usable 1 then 0 else 1) else (if u.usable 1 then 2 else 3)
  | 1 => if u.usable 0 then 1 else 3
  | 2 => if u.usable 1 then 2 else 3
  | _ => 3

/-- Halves that a width runs on. -/
def widthHalves (w : Nat) : List Nat :=
  match w with
  | 0 => [0, 1]
  | 1 => [0]
  | 2 => [1]
  | _ => []

/-- Counts of LL_STATE (R337, R353). -/
def State.recountLeaf (s : State) (l : Nat) : State :=
  let n := fun (p : Nat → Bool) => ((List.range 32).filter (fun m => p (s.width l m))).length
  let full := n (fun w => w == 0)
  let half := n (fun w => w == 1 || w == 2)
  let s := (s.wr (Reg.LL_STATE_FULL l) full).wr (Reg.LL_STATE_HALF l) half
  (s.wr (Reg.LL_STATE_DISABLED l) (32 - full - half)).wr (Reg.LL_STATE_RATE_64THS l) (2 * full + half)

/-- Bit m of EXHAUSTED: a usable half of the module has used both spares in either direction (R353). -/
def State.recountSpares (s : State) (l m : Nat) : State :=
  let u := (s.leaf l).mod m
  let used := (widthHalves (s.width l m)).any (fun h => (inHalf h u.failedTx).length == 2 || (inHalf h u.failedRx).length == 2)
  let e := s.rd (Reg.LL_SPARE_EXHAUSTED l)
  s.wr (Reg.LL_SPARE_EXHAUSTED l) (e - fld e m 1 * 2 ^ m + used.toNat * 2 ^ m)

/-- An S1 record for each lane repaired: INFO0 is module × 256 + lane, ADDR the leaf (R344). -/
def State.repairLanes (s : State) (l m : Nat) (ls : List Nat) : State :=
  ls.foldl (fun s x => (s.bump (Reg.LL_SPARE_REPAIRS l) 1).raise { Fault_.blank 1 Status.ok 0x0601 with
    addr := BitVec.ofNat 64 l, info0 := BitVec.ofNat 64 (m * 256 + x) }) s

/-- The S0 record of a module degraded (INFO1 = 1) or disabled (INFO1 = 2) (R344). (DEDUCED, assumption 50.) -/
def State.degradeRecord (s : State) (l m old new : Nat) : State :=
  if new = old ∨ new = 0 then s
  else s.raise { Fault_.blank 0 Status.ok 0x0602 with
    addr := BitVec.ofNat 64 l, info0 := BitVec.ofNat 64 m, info1 := BitVec.ofNat 64 (if new = 3 then 2 else 1) }

/-- A lane test has been made on a module: new failed lanes are entered, those of a usable half repaired, and the
module runs at the width that is left (R344). -/
def State.applyTest (s : State) (l m : Nat) (t : LaneTest) : State :=
  let u := (s.leaf l).mod m
  let old := s.width l m
  let newTx := (t.failedTx.filter (fun x => decide (x < 64) && !u.failedTx.contains x)).dedup
  let newRx := (t.failedRx.filter (fun x => decide (x < 64) && !u.failedRx.contains x)).dedup
  let u' := { u with failedTx := u.failedTx ++ newTx, failedRx := u.failedRx ++ newRx, retraining := false, retries := [] }
  let new := if t.clockBad then 3 else u'.widthFrom old
  let u' := { u' with disabled := new == 3 }
  let ran := widthHalves new
  let fixed := (newTx ++ newRx).filter (fun x => ran.contains (x / 32))
  let s := ((s.modUcie l m (fun _ => u')).wr (Reg.LL_WIDTH_MOD l m) new).repairLanes l m fixed
  ((s.degradeRecord l m old new).recountSpares l m).recountLeaf l

/-! ### The leaf leaves service (R345, R346) -/

/-- Cores of a leaf. -/
def leafCores (l : Nat) : List Nat := (List.range 12).map (fun j => 12 * l + j)

/-- Jobs that hold a task on a core of the leaf, running or pre-empted. -/
def State.leafJobs (s : State) (l : Nat) : List Nat :=
  ((s.tasks.filter (fun (t : Task) => t.state.reserves && t.cores.any (fun c => c / 12 == l))).map (fun (t : Task) => t.job)).dedup

/-- The jobs of the leaf take a job-fatal fault, with an S4 record that names the leaf.  The manual states no status
for it: the status is a free value. -/
def State.leafFatal (s : State) (l : Nat) (replace : Bool) : State :=
  let (v, s) := s.free
  let st := v.toNat % 256
  let f := { Fault_.blank 4 st 0x0603 with addr := BitVec.ofNat 64 l, info0 := BitVec.ofNat 64 l, replace := replace }
  let jobs := s.leafJobs l
  if jobs.isEmpty then s.raise { f with job := noJob }
  else jobs.foldl (fun s j => (s.failJob j st).raise { f with job := j }) s

/-- A core after its leaf is reset or switched off: local tumblers 0 and without owner, registers as after reset,
SP unspecified.  The task that it ran still holds it until TASK_END. (DEDUCED, assumption 52.) -/
def Core.wiped (k : Core) (g : Nat) : Core :=
  { Core.reset with
    sp := { cells := [], junk := g, zones := [] }, arrays := k.arrays, fails := k.fails, owed := k.owed, nextId := k.nextId,
    handles := k.handles, task := k.task, state := if k.task = 0 then 0 else 2 }

/-- Offsets of the registers that belong to the leaf die: its core windows and the fill registers. -/
def leafDieReg (l off : Nat) : Bool :=
  (decide (0x02000000 + l * 0x800000 ≤ off) && decide (off < 0x02300000 + l * 0x800000)) || off == Reg.LEAF_FILL_CTL l || off == Reg.LEAF_FILL_STAT l

/-- Switch the seven power domains of a leaf (R345, R398). -/
def State.leafDomains (s : State) (l : Nat) (on : Bool) : State :=
  let d := s.rd Reg.POW_DOMAINS_ON
  s.wr Reg.POW_DOMAINS_ON (setFld d (7 * l) 7 (if on then 127 else 0))

/-- The die of a leaf loses its state (R346, R399). (DEDUCED, assumption 52.) -/
def State.wipeLeaf (s : State) (l : Nat) : State :=
  let (g, s) := s.freshJunk
  let s := (leafCores l).foldl (fun s c => s.modCore c (fun k => k.wiped g)) s
  let s := { s with regs := s.regs.filter (fun r => !leafDieReg l (r.1 / 64)), sub := s.sub.filter (fun r => !leafDieReg l (r.1 / 64)),
                    waiters := s.waiters.filter (fun w => w.core / 12 != l), pairsOn := s.pairsOn.filter (fun n => n / 7 != l) }
  ((s.modLeaf l (fun _ => Leaf.reset)).leafDomains l false).returnHeld (leafCores l)

/-- The hub withdraws a leaf (R345). -/
def State.withdraw (s : State) (l : Nat) : State :=
  if s.leafGone l then s
  else
    let mods := (s.leaf l).mods
    let s := ((s.leafFatal l true).wipeLeaf l).modLeaf l (fun k => { k with mods := mods })
    let s := ((s.wr (Reg.LL_STATE_STATE l) 3).wr (Reg.LL_CTL_RESET l) 0).wr (Reg.LL_BUDGET_STALE l) 0
    (s.wr Reg.MOD_IDENT_CORE_COUNT (s.rd Reg.MOD_IDENT_CORE_COUNT - 12)).wr (Reg.LEAF_ARRAY_FAIL_REPLACE l) 1

/-- More than 4 modules of the leaf are disabled: it is withdrawn (R345). -/
def State.checkLeaf (s : State) (l : Nat) : State := if s.rd (Reg.LL_STATE_DISABLED l) > 4 then s.withdraw l else s

/-! ### Retry and retrain (R342-R344) -/

/-- The key of RETRAIN_THRESH's value as a module counts with it. -/
def threshKey (l m : Nat) : Nat := (Reg.LL_CTL_RETRAIN_THRESH l).key + 8 + m

/-- RETRAIN_THRESH as a module counts with it: a written value acts from its next 1 ms count on (R353). -/
def State.thresh (s : State) (l m : Nat) : Nat := (s.lag.lookup (threshKey l m)).getD (s.rd (Reg.LL_CTL_RETRAIN_THRESH l))

/-- RETRAIN_THRESH is written: each module of the leaf keeps its own until its next count (R353). -/
def State.threshLater (old s : State) (l : Nat) : State :=
  { s with lag := (List.range 32).foldl (fun t m => Tab.put t (threshKey l m) (old.thresh l m)) s.lag }

/-- FLIT_RETRY: a flit is replayed; more than RETRAIN_THRESH in 1 ms start a retrain of the module (R342, R343). (DEDUCED, assumption 50.) -/
def execFlitRetry (l : Fin 4) (m : Fin 32) (s : State) : Res :=
  let u := (s.leaf l.val).mod m.val
  .next (if s.failed || !s.leafUp l.val || u.disabled || u.retraining then s
    else
      let s := s.bumpK (Reg.LL_ERR_RETRIES l.val) 1
      let before := u.retries.filter (fun t => decide (s.clock < t + State.msTicks 1))
      let s := if before.isEmpty then { s with lag := s.lag.del (threshKey l.val m.val) } else s
      let recent := s.clock :: before
      if recent.length > s.thresh l.val m.val then
        (s.bump (Reg.LL_ERR_RETRAINS l.val) 1).modUcie l.val m.val (fun x => { x with retraining := true, retries := [] })
      else s.modUcie l.val m.val (fun x => { x with retries := recent }))

/-- UCIE_RETRAIN_DONE (R343-R345). -/
def execUcieRetrainDone (l : Fin 4) (m : Fin 32) (t : LaneTest) (s : State) : Res :=
  .next (if s.failed || !((s.leaf l.val).mod m.val).retraining then s else ((s.applyTest l.val m.val t).checkLeaf l.val).returnHeld (leafCores l.val))

/-! ### Training and partial reset (R339, R346, R347) -/

/-- The narrower of two proposals; two ×32 proposals on different halves disable the module (R347). -/
def narrower (a b : Nat) : Nat :=
  if a = b then a % 4 else if a % 4 = 0 then b % 4 else if b % 4 = 0 then a % 4 else 3

/-- One disagreement on a module: it is counted, the module trains again from scratch on a lane test of its own, and the
narrower of the two new proposals is adopted (R347). (DEDUCED, assumption 50.) -/
def State.disagree (s : State) (l m : Nat) (r : ModuleReport) : State :=
  let s := s.wr (Reg.LL_STATE_DISAGREE l) (min 3 (s.rd (Reg.LL_STATE_DISAGREE l) + 1))
  let s := ((s.modUcie l m (fun _ => Ucie.reset)).wr (Reg.LL_WIDTH_MOD l m) 0).applyTest l m r.again
  let old := s.width l m
  let new := narrower (narrower r.hubNext r.leafNext) old
  let s := (s.wr (Reg.LL_WIDTH_MOD l m) new).modUcie l m (fun u => { u with disabled := new == 3 })
  ((s.degradeRecord l m old new).recountSpares l m).recountLeaf l

/-- Training from scratch of every module of a leaf link, with the reports of its two ends (R339, R344, R347). -/
def State.trainLeaf (s : State) (l : Nat) (ts : List LaneTest) (rs : List ModuleReport) : State :=
  let s := ((s.modLeaf l (fun k => { k with mods := Vector.replicate 32 Ucie.reset })).wr (Reg.LL_STATE_STATE l) 1).wr (Reg.LL_SPARE_REPAIRS l) 0
  let s := (List.range 32).foldl (fun s m => s.wr (Reg.LL_WIDTH_MOD l m) 0) (s.wr (Reg.LL_SPARE_EXHAUSTED l) 0)
  let clean : LaneTest := { failedTx := [], failedRx := [], clockBad := false }
  let s := (List.range 32).foldl (fun s m =>
    let s := s.applyTest l m (ts.getD m clean)
    match rs[m]? with
    | some r => if r.hub % 4 = r.leaf % 4 then s else s.disagree l m r
    | none => s) s
  if s.rd (Reg.LL_STATE_DISAGREE l) ≥ 3 then s.withdraw l else s.checkLeaf l

/-- The link becomes active: the leaf's cores become reachable (R339, R346, R347). -/
def State.leafActive (s : State) (l : Nat) : State :=
  (((s.wr (Reg.LL_STATE_STATE l) 2).wr (Reg.LL_CTL_RESET l) 0).wr (Reg.LL_STATE_DISAGREE l) 0).leafDomains l true

/-- LEAF_LINK_TRAIN: the training of a partial reset (R339, R347). -/
def execLeafLinkTrain (l : Fin 4) (t : List LaneTest) (r : List ModuleReport) (s : State) : Res :=
  .next (if !s.failed && s.rdb (Reg.LL_CTL_RESET l.val) && s.rd (Reg.LL_STATE_STATE l.val) == 0 then s.trainLeaf l.val t r else s)

/-- A partial reset of a leaf: ignored on a withdrawn leaf with an S0 record, and while one is under way (R346,
R348). (DEDUCED, assumption 52.) -/
def State.partialReset (s : State) (l : Nat) : State :=
  if s.leafGone l then s.logDropped (Reg.LL_CTL l)
  else if s.rdb (Reg.LL_CTL_RESET l) then s
  else
    let s := (s.leafFatal l false).wipeLeaf l
    let s := ((s.wr (Reg.LL_CTL_RESET l) 1).wr (Reg.LL_STATE_STATE l) 0).wr (Reg.LL_BUDGET_STALE l) 0
    ((s.wr (Reg.LL_STATE_FULL l) 0).wr (Reg.LL_STATE_HALF l) 0).wr (Reg.LL_STATE_RATE_64THS l) 0

/-- PARTIAL_RESET: LL_CTL.RESET is written (R346). -/
def execPartialReset (l : Fin 4) (s : State) : Res := .next (if s.serving then s.partialReset l.val else s)

/-- PARTIAL_RESET_DONE: the link is active and the leaf's cores are free for placement (R346). (DEDUCED, assumption 52.) -/
def execPartialResetDone (l : Fin 4) (s : State) : Res :=
  .next (if !s.failed && s.rdb (Reg.LL_CTL_RESET l.val) && s.rd (Reg.LL_STATE_STATE l.val) == 1 then s.leafActive l.val else s)

/-- LEAF_MANAGER_UNCORRECTABLE_ERROR: the firmware starts the same partial reset (R346). -/
def execLeafManagerUncorrectableError (l : Fin 4) (s : State) : Res :=
  .next (if s.serving ∧ !s.leafGone l.val then s.partialReset l.val else s)

/-! ### Budget messages (R351, R352) -/

/-- A withdrawn leaf and a leaf in partial reset exchange no messages (R352). -/
def State.talks (s : State) (l : Nat) : Bool := s.serving && s.leafUp l

/-- A message reaches a leaf manager: a GRANT gives it its budget, and any other MTYPE is discarded (R351, R352). -/
def State.leafMessage (s : State) (l : Nat) (b : List Byte) : State :=
  if s.talks l && leAt b 0 1 == 1 then
    s.modLeaf l (fun k => { k with budget := min 450 (leAt b 2 2), capDrop := (leAt b 4 1).testBit 0 })
  else s

/-- A message of a leaf manager reaches the hub: a REPORT replaces the one before it, and any other MTYPE is discarded
(R351, R352). -/
def State.hubMessage (s : State) (l : Nat) (b : List Byte) : State :=
  if s.talks l && leAt b 0 1 == 2 then
    let s := (s.wr (Reg.LL_BUDGET_REQUEST_W l) (leAt b 2 2)).wr (Reg.LL_BUDGET_DRAW_W l) (leAt b 4 2)
    let s := (s.wr (Reg.LL_BUDGET_TEMP_C l) (leAt b 6 1)).wr (Reg.LL_BUDGET_STALE l) 0
    let f := leAt b 7 1
    s.modLeaf l (fun k => { k with
      active := BitVec.ofNat 12 (leAt b 8 2), thermal := f.testBit 0, droop := f.testBit 1, stretched := f.testBit 2 })
  else s

/-- GRANT: its 16 bytes reach the leaf manager (R351, R352). (DEDUCED, assumption 51.) -/
def execGrant (l : Fin 4) (seq watts : Nat) (capDrop : Bool) (time : Word) (s : State) : Res :=
  .next (s.leafMessage l.val (grantBytes seq watts capDrop time))

/-- REPORT: its 16 bytes reach the hub (R351, R352). (DEDUCED, assumption 51.) -/
def execReport (l : Fin 4) (seq request draw temp : Nat) (thermal droop stretched : Bool) (active : BitVec 12) (s : State) : Res :=
  .next (s.hubMessage l.val (reportBytes seq request draw temp (thermal.toNat + 2 * droop.toNat + 4 * stretched.toNat) active))

/-- GRANT_TIMEOUT: a leaf manager without a GRANT for 50 µs takes 150 W (R352). -/
def execGrantTimeout (l : Fin 4) (s : State) : Res :=
  .next (if s.talks l.val then s.modLeaf l.val (fun k => { k with budget := 150 }) else s)

/-- REPORT_TIMEOUT: the hub counts the leaf at 450 W and sets STALE (R352). -/
def execReportTimeout (l : Fin 4) (s : State) : Res :=
  .next (if s.talks l.val then s.wr (Reg.LL_BUDGET_STALE l.val) 1 else s)

end Sys2Proof.Machine
end

