-- ==== Sys2Proof/Machine/Faults.lean ====
section
/-! DEFINITION. Faults: the handling order and the job-fatal notices (R416, R428), declarations and readmission
(R425, R427, R433), fail-stop (R414), and the record ring's registers (R415, R433). -/

namespace Sys2Proof.Machine

/-! ### Fail-stop (R414) -/

/-- The failure count of the running slot rises (R381). -/
def State.bumpFail (s : State) : State :=
  if s.rdb Reg.GLB_BOOT_SLOT then { s with flash := { s.flash with failB := s.flash.failB + 1 } }
  else { s with flash := { s.flash with failA := s.flash.failA + 1 } }

/-- An S5: the hub stops every core, ends every task without a final entry, sends the declaration and writes the
record.  Before boot has ended there is no fabric to declare on, and the slot's
failure count rises (R375, R381). (DEDUCED, assumption 25.) -/
def State.failStop (s : State) (f : Fault_) : State :=
  if s.failed then s
  else
    let nested := s.handlingFault
    let s := { s.failAll Status.ok with failed := true }
    let s := (s.writeRecord { f with sev := 5, time := s.rackTime, nested := nested }).raiseIbi 3
    if s.booted then s.sendDeclaration s.modNum 2 else s.bumpFail

/-- MODULE_FAIL_STOP: an S5 with its cause and detail (R414). -/
def execModuleFailStop (cause info : Nat) (s : State) : Res :=
  .next (s.failStop { Fault_.blank 5 Status.ok cause with info0 := BitVec.ofNat 64 info })

/-- FAIL_STOP_PORTS_DOWN: 20 µs after the declaration, until module reset (R414). -/
def execFailStopPortsDown (s : State) : Res := .next (if s.failed then s.allPortsDown else s)

/-! ### Job-fatal faults (R428) -/

/-- A job-fatal notice (R424). -/
def State.jobFatalPkt (s : State) (job status : Nat) : Packet :=
  s.noticePkt 5 (leBytes 5 0 ++ leBytes 2 job ++ leBytes 1 status ++ leBytes 1 0 ++ leBytes 2 s.modNum)

/-- The record of a notice sent, or received and applied to a task. -/
def jobFatalRecord (job status origin : Nat) : Fault_ :=
  { Fault_.blank 4 status 0x0902 with job := job, info0 := BitVec.ofNat 64 status, other := origin }

/-- An S4 is handled: the job's tasks end, the notice goes out once a second at most, and the records are
written.  The fault's own record comes first, then that of the notice; a fault whose own cause is the notice has
one record. (DEDUCED, assumption 77.) -/
def State.handleJobFatal (s : State) (f : Fault_) : State :=
  if f.job = noJob then s.writeRecord f
  else
    let s := s.failJob f.job f.status
    if s.jobIgnore.contains f.job then s.writeRecord f
    else
      let s := { s.sendFree hubCore (s.jobFatalPkt f.job f.status) with jobIgnore := s.jobIgnore ++ [f.job] }
      if f.cause = 0x0902 then s.writeRecord f
      else (s.writeRecord f).writeRecord { jobFatalRecord f.job f.status s.modNum with time := f.time, nested := f.nested }

/-- JOB_FATAL_NOTICE: every task of the job ends here; further notices for the JOB are ignored for 1 s (R428). (DESIGN CHOICE, assumption 82.) -/
def execJobFatalNotice (job status origin : Nat) (s : State) : Res :=
  let s := s.takeNotice 5
  let job := job % 65536
  .next (if s.failed || s.jobIgnore.contains job then s
    else
      let has := s.tasks.any (fun t => t.job == job && t.jobFatal.isNone && !t.killed && t.fatal.isNone)
      let s := { (s.failJob job (status % 256)).bump Reg.FD_STATE_JOB_FATALS 1 with jobIgnore := s.jobIgnore ++ [job] }
      if has then s.raise (jobFatalRecord job (status % 256) (origin % 4096)) else s)

/-- JOB_FATAL_IGNORE_EXPIRY: 1 s after the sending or the receipt (R428). -/
def execJobFatalIgnoreExpiry (job : Nat) (s : State) : Res :=
  .next { s with jobIgnore := s.jobIgnore.filter (fun j => j != job % 65536) }

/-! ### Handling order (R416) -/

/-- A fault that waited with its unit joins the queue when there is room. -/
def State.refillFaults (s : State) : State :=
  match s.faultWait with
  | f :: rest => if s.faultq.length < 256 then { s with faultq := enqueueFault s.faultq f, faultWait := rest } else s
  | [] => s

/-- FAULT_HANDLE: control core 1 takes the first fault of its queue and does what its rules require; after an S5 a
fault is only recorded (R416, R430). (DEDUCED, assumption 25.) -/
def execFaultHandle (s : State) : Res :=
  .next (match s.faultq with
    | [] => s
    | f :: rest =>
      let s := { s with faultq := rest }
      let s := if f.sev = 4 ∧ s.failed = false then s.handleJobFatal f else s.writeRecord f
      s.refillFaults)

/-- ERR_IRQ_DEFERRED: the interval of COALESCE_US has passed (R415). -/
def execErrIrqDeferred (s : State) : Res :=
  .next (if s.irqDue then { s.raiseVec (s.rd Reg.HOST_IRQ_ERR_VEC) with irqDue := false, lastIrq := some s.clock } else s)

/-- A write of ERR_RING moves the ring and empties it (R433). -/
def State.errRingSet (s : State) (v : Nat) : State :=
  ((s.wr Reg.ERR_RING_BASE (fld v 6 22)).wr Reg.ERR_PTR_TAIL 0).wr Reg.ERR_PTR_HEAD 0

/-- ERR_RING_WRITE (R433). -/
def execErrRingWrite (v : Word) (s : State) : Res := .next (if s.serving then s.errRingSet v.toNat else s)

/-! ### Declarations (R425, R427) -/

/-- FD_DEAD bit of a module. -/
def State.setDead (s : State) (m : Nat) (b : Bool) : State :=
  let x := s.rd (Reg.FD_DEAD_DEAD (m / 64))
  s.wr (Reg.FD_DEAD_DEAD (m / 64)) (setFld x (m % 64) 1 b.toNat)

/-- Tasks whose peer set includes a module end as by a job-fatal fault with a status, and the fault of each of their
jobs is due (R425). -/
def State.peerLost (s : State) (m status : Nat) : State :=
  let hit := s.tasks.filter (fun (t : Task) => t.peers.contains m && t.state.reserves && !(t.state == .loading))
  let s := hit.foldl (fun (s : State) (t : Task) => s.failTask t.num status) s
  ((hit.map (fun (t : Task) => t.job)).dedup).foldl (fun s j => s.raise { jobFatalRecord j status m with other := m }) s

/-- DECLARATION: a module is declared dead; a declaration that names this module makes it leave (R425, R427).  Further
copies are ignored (R423). (DEDUCED, assumption 25; DEDUCED, assumption 53.) -/
def execDeclaration (m cause : Nat) (s : State) : Res :=
  let _ := cause
  let m := m % 4096
  let s := s.takeNotice 3
  .next (if s.failed then s
    else if m = s.modNum then (if s.rdb Reg.SF_LATCH_LEFT then s else s.selfDeclare)
    else if s.fdDead m then s
    else
      let s := ((s.setDead m true).wr Reg.FD_STATE_LAST_DEAD m).bump Reg.FD_STATE_DECLARATIONS 1
      let s := s.raise { Fault_.blank 0 Status.ok 0x0901 with other := m, info0 := BitVec.ofNat 64 m }
      let s := (s.peerLost m Status.targetDead).collMemberLost m
      { (s.requeueDead m).startCompute false with padDue := s.padDue ++ [m] })

/-- PADLOCK of a module's entry in both banks. (DEDUCED, assumption 53.) -/
def State.setPadlock (s : State) (m : Nat) (b : Bool) : State :=
  [0, 1].foldl (fun s k => s.wr (Reg.RT_ENTRY k m) (setFld (s.rd (Reg.RT_ENTRY k m)) 2 1 b.toNat)) s

/-- A module is readmitted: its PADLOCK and its FD_DEAD bit clear, and a table computation starts (R433). (DEDUCED, assumption 53.) -/
def State.rejoin (s : State) (m : Nat) : State :=
  let s := (s.setDead m false).setPadlock m false
  { s.startCompute false with padDue := s.padDue.filter (fun x => x != m), declSent := s.declSent.filter (fun x => x != m) }

/-- FD_REJOIN_MODULE (R433). -/
def execFdRejoinModule (m : Fin 4096) (s : State) : Res := .next (if s.serving then s.rejoin m.val else s)

/-- Every module is readmitted (R433). (DEDUCED, assumption 53.) -/
def State.rejoinAll (s : State) : State :=
  let s := (List.range 64).foldl (fun s i => s.wr (Reg.FD_DEAD_DEAD i) 0) s
  let pads := (List.range 4096).filter (fun m => [0, 1].any (fun k => (s.rd (Reg.RT_ENTRY k m)).testBit 2))
  let s := pads.foldl (fun s m => s.setPadlock m false) s
  { s.startCompute false with padDue := [], declSent := [] }

/-- FD_REJOIN_ALL (R433). -/
def execFdRejoinAll (s : State) : Res := .next (if s.serving then s.rejoinAll else s)

end Sys2Proof.Machine
end

