-- ==== Sys2Proof/Machine/Power.lean ====
section
/-! DEFINITION. Power and heat: the input (R395-R397), the core-pair domains (R398-R400), the cap and its division
(R401-R403), core clocks and droop (R404, R405), temperature (R406), REFCLK and rack time (R407-R409). -/

namespace Sys2Proof.Machine

/-! ### The input (R395, R397) -/

/-- The hub limits the cap (R395, R397, R410). -/
def State.limitCap (s : State) : State := s.wrb Reg.POW_CAP_LIMITED (s.input == 1 || s.rdb Reg.POW_STAT_IBC_FAIL)

/-- The input enters a state: its voltage and LIMITED follow. -/
def State.setInput (s : State) (st v : Nat) : State :=
  ({ s with input := st, volt := v }.wr Reg.POW_INPUT_VOLT_10MV v).limitCap

/-- Record of an input outside the operating range. -/
def State.inputRecord (s : State) (v : Nat) : State := s.logS0 Status.ok 0x0701 v

/-- INPUT_LOW: one S0 record on entry, and the cap limit (R395). -/
def execInputLow (volt10mV : Nat) (s : State) : Res :=
  .next (if !s.powered ∨ volt10mV < 4500 ∨ 5000 ≤ volt10mV then s
    else
      let s' := s.setInput 1 volt10mV
      if s.input = 1 then s' else s'.inputRecord volt10mV)

/-- INPUT_HIGH: one S0 record on entry; operation goes on (R395). -/
def execInputHigh (volt10mV : Nat) (s : State) : Res :=
  .next (if !s.powered ∨ volt10mV ≤ 6400 ∨ 6600 < volt10mV then s
    else
      let s' := s.setInput 2 volt10mV
      if s.input = 2 then s' else s'.inputRecord volt10mV)

/-- INPUT_OPERATING (R395). -/
def execInputOperating (volt10mV : Nat) (s : State) : Res :=
  .next (if !s.powered ∨ volt10mV < 5000 ∨ 6400 < volt10mV then s else s.setInput 0 volt10mV)

/-- What the switches, the latch and the light on the fibres show does not go with the power: the connectors'
switches, the hinge angle with OPEN, WITHDRAW and DRAIN, and signal detect (R327, R329, R336). -/
def State.physical (old s : State) : State :=
  let s := (List.range 10).foldl (fun s e => (s.wr (Reg.OE_STATUS_SEATED e) (old.rd (Reg.OE_STATUS_SEATED e))).modEngine e (fun g => { g with seated := (old.engine e).seated })) s
  let s := [Reg.SF_CONN_SEATED, Reg.SF_LATCH_ANGLE, Reg.SF_LATCH_OPEN, Reg.SF_LATCH_WITHDRAW, Reg.SF_LATCH_DRAIN].foldl (fun s f => s.wr f (old.rd f)) s
  (List.range 20).foldl (fun s p => s.modPort p (fun t => { t with
    signal := (old.port p).signal, wire := (old.port p).wire, marks := (old.port p).marks, laneOf := (old.port p).laneOf })) { s with openAt := old.openAt }

/-- Registers whose reset value comes from the flash record: emitter roles, hours and permanent reductions (R324,
R335). -/
def State.fromFlash (s : State) : State :=
  let s := s.flash.roles.foldl (fun s r => s.wr (Reg.OE_EMIT_ROLE (r.1 / 12) (r.1 % 12)) r.2) s
  let s := s.flash.hours.foldl (fun s r => s.wr (Reg.OE_EMIT_ON_HOURS (r.1 / 12) (r.1 % 12)) r.2) s
  s.flash.emitOff.foldl (fun s x =>
    let s := s.wr (Reg.OE_STATUS_SERVICE (x / 12)) 1
    match s.emitterPort (x / 12) (x % 12) with
    | some p => s.modPort p (fun t => { t with outLanes := (emitterLanes (x % 12)).foldl (fun m l => m ||| laneBit l) t.outLanes })
    | none => s) s

/-- Everything that a domain holds is gone: what stays is the flash, the fuses, the FRU memory, the pads and straps, and
what has left the module (R355, R382, R389, R398). (DEDUCED, assumption 79.) -/
def State.cold (s : State) : State :=
  (s.physical { State.reset with
    pending := s.pending, clock := s.clock, freeCtr := s.freeCtr, prsnt := s.prsnt, perst := s.perst, powered := s.powered,
    input := s.input, volt := s.volt, straps := s.straps, strapsDue := s.strapsDue, fru := s.fru, flash := s.flash, fuses := s.fuses,
    hostOut := s.hostOut, sideOut := s.sideOut, testLow := s.testLow, charging := s.charging }).fromFlash

/-- The power stage draws no more current: every domain is off and holds no state (R15, R395, R398). (DEDUCED, assumption 79.) -/
def State.powerDown (s : State) : State := { s.cold with powered := false, input := 3, charging := false }

/-- INPUT_UNDERVOLTAGE: an S5 fail-stop, and every domain off (R395). (DEDUCED, assumption 79.) -/
def execInputUndervoltage (s : State) : Res :=
  .next (if !s.powered then s else (s.failStop (Fault_.blank 5 Status.ok 0x0704)).powerDown)

/-- INPUT_OVERVOLTAGE: as at loss of input (R395). -/
def execInputOvervoltage (s : State) : Res := .next (if s.powered then s.powerDown else s)

/-- PRSNT_MATE: the soft start begins (R396). -/
def execPrsntMate (s : State) : Res := .next (if s.prsnt then s else { s with prsnt := true, charging := true })

/-- PRSNT_BREAK: the power stage stops drawing current (R15). -/
def execPrsntBreak (s : State) : Res := .next { s.powerDown with prsnt := false }

/-- IBC_FAIL: an S4 for every job with a task here, the cap limit and the flag for replacement.  The manual states no
status for it: the status is a free value (R397). (DEDUCED, assumption 79.) -/
def execIbcFail (i : Fin 2) (s : State) : Res :=
  .next (if !s.powered then s
    else
      let (v, s) := (s.wr Reg.POW_STAT_IBC_FAIL 1).limitCap.free
      s.jobsFatal { Fault_.blank 4 (v.toNat % 256) 0x0702 with info0 := BitVec.ofNat 64 i.val, replace := true })

/-- REFCLK_LOSS: S5 (R407). -/
def execRefclkLoss (s : State) : Res := .next (if s.powered then s.failStop (Fault_.blank 5 Status.ok 0x0704) else s)

/-! ### Core-pair domains (R399, R400) -/

/-- Cores of pair j of leaf l. -/
def pairCores (l j : Nat) : List Nat := [12 * l + 2 * j, 12 * l + 2 * j + 1]

/-- A valid KV pool lies in the SP of a core (R204, R399). -/
def State.poolIn (s : State) (c : Nat) : Bool := (List.range 16).any (fun p => s.poolUsed p && (s.pool p).space == 2 && (s.pool p).core == c)

/-- A domain switches on or off. -/
def State.setDomain (s : State) (n : Nat) (on : Bool) : State := s.wr Reg.POW_DOMAINS_ON (setFld (s.rd Reg.POW_DOMAINS_ON) n 1 on.toNat)

/-- A core whose domain is switched off: SP unspecified, local tumblers 0, every field but the RW ones at its reset
value (R399). -/
def State.coreOff (s : State) (c g : Nat) : State :=
  let s := (s.wr (Reg.CORE_RUNAHEAD_STAT_RA_KEPT c) 0).wr (Reg.CORE_RUNAHEAD_STAT_RA_DISCARDED c) 0
  s.modCore c (fun k => k.wiped g)

/-- CORE_PAIR_OFF: both cores have been free for CP_IDLE_MS, and nothing keeps the domain on (R399). (DEDUCED, assumption 37.) -/
def execCorePairOff (l : Fin 4) (j : Fin 6) (s : State) : Res :=
  let cs := pairCores l.val j.val
  .next (if !s.serving || !cs.all s.coreOn || !cs.all s.coreFree || s.act Reg.POW_CTL_CP_KEEP == 1 || cs.any s.poolIn
      || cs.any (fun c => !(s.core c).window.isEmpty) then s
    else
      let (g, s) := s.freshJunk
      (cs.foldl (fun s c => s.coreOff c g) s).setDomain (7 * l.val + j.val) false)

/-- CORE_PAIR_ON: a placement or an access needs the domain (R399). (DEDUCED, assumption 37.) -/
def execCorePairOn (l : Fin 4) (j : Fin 6) (s : State) : Res :=
  let n := 7 * l.val + j.val
  .next (if !s.serving || !s.leafUp l.val || (pairCores l.val j.val).all s.coreOn || s.pairsOn.contains n then s
    else { s with pairsOn := s.pairsOn ++ [n] })

/-- CORE_PAIR_ON_DONE: the domain is on; requests that waited for it can be served (R399, R424). -/
def execCorePairOnDone (l : Fin 4) (j : Fin 6) (s : State) : Res :=
  let n := 7 * l.val + j.val
  .next (if !s.pairsOn.contains n || !s.leafUp l.val then s
    else
      let s := { s with pairsOn := s.pairsOn.erase n }
      ((s.setDomain n true).bump Reg.POW_STAT_CP_SWITCHES 1).returnHeld (pairCores l.val j.val))

/-! ### The cap and its division (R401, R402) -/

/-- CAP_W takes a value, clamped, which acts from the next division on; a lower cap marks the next GRANT (R401, R402,
R410). -/
def State.setCap (s : State) (w : Nat) : State :=
  let new := max 1000 (min 2600 w)
  { s.wrLater Reg.POW_CAP_CAP_W new with capFell := s.capFell || decide (new < s.rd Reg.POW_CAP_CAP_W) }

/-- CAP_WRITE (R401). -/
def execCapWrite (watts : BitVec 12) (s : State) : Res := .next (if s.serving then s.setCap watts.toNat else s)

/-- The cap in force, in units of 0.01 W: 52.0 A times the input voltage under R395, 1,200 W under R397. -/
def State.capNow (s : State) : Nat :=
  let c := s.act Reg.POW_CAP_CAP_W * 100
  let c := if s.input = 1 then min c (52 * s.volt) else c
  if s.rdb Reg.POW_STAT_IBC_FAIL then min c 120000 else c

/-- 1 W in the units of a division: every share of R402 is a whole number of them. -/
def wattUnit : Nat := 240000

/-- EFF_PCT, as POW_INPUT shows it. (DEDUCED, assumption 56.) -/
def State.effPct (s : State) : Nat := (Config.inputReading 48 s.clock).toNat % 128

/-- avail of R402 in division units, lowered under R406; 0 where it is negative. -/
def State.avail (s : State) (otherW : Nat) : Nat :=
  let inW := s.capNow * s.effPct * (wattUnit / 10000)
  (inW - (otherW + 20) * wattUnit) * s.hubHot / 100

/-- Power that each leaf asks for (R402). -/
def State.leafReq (s : State) (l : Nat) : Nat :=
  if !s.leafUp l then 0
  else if s.rdb (Reg.LL_BUDGET_STALE l) then 450 * wattUnit
  else s.rd (Reg.LL_BUDGET_REQUEST_W l) * wattUnit

/-- One round of the division: the remainder is shared equally among the leaves that ask for more. -/
def shareRound (req grant : List Nat) (avail : Nat) : List Nat :=
  let rem := avail - grant.sum
  let open_ := (req.zip grant).filter (fun x => decide (x.2 < x.1))
  if rem = 0 ∨ open_.isEmpty then grant
  else (req.zip grant).map (fun x => if x.2 < x.1 then min x.1 (x.2 + rem / open_.length) else x.2)

/-- The division of R402, in units: five rounds settle four leaves. -/
def divide (req : List Nat) (avail : Nat) : List Nat :=
  (List.range 5).foldl (fun g _ => shareRound req g avail) (req.map (fun r => min r (80 * wattUnit)))

/-- BUDGET_DIVIDE: the division, and a GRANT to every leaf that takes messages (R351, R352, R402). -/
def execBudgetDivide (otherW : Nat) (s : State) : Res :=
  .next (if !s.serving then s
    else
      let s := s.settle Reg.POW_CAP_CAP_W
      let avail := s.avail otherW
      let s := s.wr Reg.POW_CAP_AVAIL_W (min 4095 (avail / wattUnit))
      let gs := divide ((List.range 4).map s.leafReq) avail
      let s := (List.range 4).foldl (fun s l =>
        let w := gs.getD l 0 / wattUnit
        if s.talks l then
          let n := (s.leaf l).grantSeq
          let s := { s.wr (Reg.LL_BUDGET_GRANT_W l) w with sideOut := s.sideOut ++ [SideMsg.grant l (grantBytes n w s.capFell s.rackTime)] }
          s.modLeaf l (fun k => { k with grantSeq := (n + 1) % 256 })
        else s) s
      { s with capFell := false })

/-! ### Core clocks (R404, R405) -/

/-- The ceiling of a core: CLK_MAX_MHZ, lowered by the thermal rules (R404, R406). -/
def State.ceiling (s : State) (c : Nat) : Nat := min (s.act Reg.POW_CTL_CLK_MAX_MHZ) (Tab.get s.heat 1600 c)

/-- CEIL_MHZ follows, and no clock stays above its ceiling. -/
def State.settleClock (s : State) (c : Nat) : State :=
  let m := s.ceiling c
  (s.wr (Reg.CLK_CORE_CEIL_MHZ c) m).wr (Reg.CLK_CORE_MHZ c) (min m (s.rd (Reg.CLK_CORE_MHZ c)))

/-- The leaf manager acts on a thermal step: the core's ceiling goes 200 MHz below its clock at the sample, not below
0.40 GHz, and the stretch ends (R406). -/
def State.settleStep (s : State) (c : Nat) : State :=
  match s.steps.lookup c with
  | some f => { s.wr (Reg.CLK_CORE_STRETCHED c) 0 with
      steps := s.steps.del c, stretch := s.stretch.del c, heat := s.heat.set 1600 c (max 400 (min (f - 200) (Tab.get s.heat 1600 c))) }
  | none => s

/-- The first of the listed cores at which a measure is least. -/
def leastBy (f : Nat → Nat) : List Nat → Option Nat
  | [] => none
  | c :: cs => match leastBy f cs with
    | some d => if f d < f c then some d else some c
    | none => some c

/-- CLOCK_ADJUST: `est` holds the power estimate of each core of the leaf in mW, 0 for a core that was idle or
clock-gated for the whole period.  One core goes one step down while the predicted draw exceeds the grant, or one step
up while it stays below (R404). -/
def execClockAdjust (l : Fin 4) (est : List Nat) (s : State) : Res :=
  .next (if !s.talks l.val then s
    else
      let cs := leafCores l.val
      let s := cs.foldl (fun s c => (s.settleStep c).settleClock c) s
      let busy := cs.filter (fun c => est.getD (c % 12) 0 != 0)
      let draw := (est.take 12).sum
      let grant := (s.leaf l.val).budget * 1000
      let mhz := fun (c : Nat) => s.rd (Reg.CLK_CORE_MHZ c)
      if draw > grant then
        match leastBy (fun c => 2 ^ 40 - est.getD (c % 12) 0) (busy.filter (fun c => decide (mhz c > 400))) with
        | some c => s.wr (Reg.CLK_CORE_MHZ c) (mhz c - 25)
        | none => s
      else if draw < grant then
        match leastBy mhz (busy.filter (fun c => decide (mhz c < s.rd (Reg.CLK_CORE_CEIL_MHZ c)))) with
        | some c => s.wr (Reg.CLK_CORE_MHZ c) (min (mhz c + 25) (s.rd (Reg.CLK_CORE_CEIL_MHZ c)))
        | none => s
      else s)

/-- A core's island is stretched by some quarters of a cycle: counted (R405). -/
def State.stretchCore (s : State) (c n : Nat) : State :=
  { (s.wr (Reg.CLK_CORE_STRETCHED c) 1).bump (Reg.CLK_CORE_STRETCHES c) 1 with stretch := s.stretch.set 0 c n }

/-- DROOP: a core's island stretches by at most 50 %, a router quadrant of the hub die by at most 25 % (R405). -/
def execDroop (c : Option CoreId) (quarterCycles : Nat) (s : State) : Res :=
  .next (if !s.powered then s
    else match c with
    | some c => if s.coreOn c.val then s.stretchCore c.val (min 2 quarterCycles) else s
    | none => { s.bump Reg.POW_STAT_DROOPS 1 with stretch := s.stretch.set 0 48 (min 1 quarterCycles) })

/-- DROOP_RELEASE: the island returns to its set clock, unless a thermal step still stretches it (R405). -/
def execDroopRelease (c : Option CoreId) (s : State) : Res :=
  .next (match c with
    | some c => if (s.steps.lookup c.val).isSome then s else { s.wr (Reg.CLK_CORE_STRETCHED c.val) 0 with stretch := s.stretch.del c.val }
    | none => { s with stretch := s.stretch.del 48 })

/-! ### Temperature (R406) -/

def SensorRec.reset : SensorRec := { vals := [], ignored := false, rising := false, wait := 0, same := 0 }

def State.sensor (s : State) (x : Sensor) : SensorRec := (s.sensors.lookup x).getD SensorRec.reset

def State.setSensor (s : State) (x : Sensor) (r : SensorRec) : State :=
  { s with sensors := (x, r) :: s.sensors.filter (fun y => y.1 != x) }

/-- Core pair of a leaf sensor, 6 for none; the hub die has none. (DESIGN CHOICE, assumption 10.) -/
def sensorPairOf (x : Sensor) : Nat := match x with | .leaf l i => Config.sensorPair l.val i.val % 7 | .hub _ => 6

/-- Sensors of a die: a leaf, or the hub (4). -/
def dieOf (x : Sensor) : Nat := match x with | .leaf l _ => l.val | .hub _ => 4

/-- Last readings of the working sensors of a die, those of one pair where one is given. (DEDUCED, assumption 55.) -/
def State.readings (s : State) (die : Nat) (pair : Option Nat) : List (Sensor × Int) :=
  (s.sensors.filter (fun y => dieOf y.1 == die && !y.2.ignored && (match pair with | some p => sensorPairOf y.1 == p | none => true))).filterMap
    (fun y => y.2.vals.head?.map (fun v => (y.1, v)))

/-- Working sensors of a core pair: those that have not been ignored. -/
def State.workingIn (s : State) (l j : Nat) : Nat :=
  ((List.range 64).filter (fun i => Config.sensorPair l i % 7 == j
    && !(s.sensors.any (fun y => dieOf y.1 == l && y.2.ignored && (match y.1 with | .leaf _ k => k.val == i | .hub _ => false))))).length

/-- The hottest sensor of the die in THERM_STAT. -/
def State.hottest (s : State) (die : Nat) : State :=
  match (s.readings die none).map Prod.snd with
  | [] => s
  | v :: vs =>
    let b := (BitVec.ofInt 8 (vs.foldl max v)).toNat
    if die = 4 then s.wr Reg.THERM_STAT_HUB_C b
    else s.wr Reg.THERM_STAT_LEAF_C (setFld (s.rd Reg.THERM_STAT_LEAF_C) (8 * die) 8 b)

/-- A sensor is ignored from now on: one S0 record, and a core pair left with fewer than two working sensors has its
ceiling held at 0.80 GHz. -/
def State.ignoreSensor (s : State) (x : Sensor) (r : SensorRec) : State :=
  if r.ignored then s
  else
    let s := (s.setSensor x { r with ignored := true }).bump Reg.THERM_STAT_BAD_SENSORS 1
    let id := match x with | .leaf l i => l.val * 64 + i.val | .hub i => 256 + i.val
    let s := s.logS0 Status.ok 0x0703 id
    match x with
    | .leaf l _ =>
      let j := sensorPairOf x
      if j < 6 ∧ s.workingIn l.val j < 2 then
        (pairCores l.val j).foldl (fun s c => { s with heat := s.heat.put c (min 800 (Tab.get s.heat 1600 c)) }) s
      else s
    | .hub _ => s

/-- Ceiling of a core pair's cores down or up one step of 25 MHz, between 0.40 GHz and what the pair's working sensors
allow. -/
def State.heatStep (s : State) (l j : Nat) (up : Bool) : State :=
  let top := if s.workingIn l j < 2 then 800 else 1600
  (pairCores l j).foldl (fun s c =>
    let h := Tab.get s.heat 1600 c
    { s with heat := s.heat.set 1600 c (if up then min top (h + 25) else max 400 (min h (s.act Reg.POW_CTL_CLK_MAX_MHZ) - 25)) }) s

/-- A thermal step: the islands of the core pair are stretched by 25 % until its leaf manager acts. -/
def State.thermalStep (s : State) (l j : Nat) : State :=
  let s := s.bump Reg.THERM_STAT_STEPS 1
  if j ≥ 6 then s
  else (pairCores l j).foldl (fun s c =>
    { s.stretchCore c 1 with steps := s.steps.put c (s.rd (Reg.CLK_CORE_MHZ c)) }) s

/-- Response to a reading of a leaf sensor: `r` is its record with the reading. -/
def State.leafHeat (s : State) (x : Sensor) (l : Nat) (r : SensorRec) (temp : Int) : State :=
  let j := sensorPairOf x
  let hot : Int := s.act Reg.THERM_CTL_T_HOT_C
  let step := decide (temp ≥ r.vals.foldl min temp + 5)
  let s := if step && !r.rising then s.thermalStep l j else s
  let r := { r with rising := step }
  if j ≥ 6 then s.setSensor x r
  else if temp ≥ hot then
    if r.wait ≥ 10 then (s.heatStep l j false).setSensor x { r with wait := 1 } else s.setSensor x { r with wait := r.wait + 1 }
  else
    let s := s.setSensor x r
    let calm := (s.readings l (some j)).all (fun y => decide (y.2 ≤ hot - 3)) && !(s.sensors.any (fun y => dieOf y.1 == l && sensorPairOf y.1 == j && y.2.rising))
    if !calm then s.setSensor x { r with wait := max 10 (r.wait + 1) }
    else if r.wait ≥ 100 then (s.heatStep l j true).setSensor x { r with wait := 1 } else s.setSensor x { r with wait := r.wait + 1 }

/-- Response to a reading of a hub sensor. (DEDUCED, assumption 55.) -/
def State.hubHeat (s : State) (x : Sensor) (r : SensorRec) (temp : Int) : State :=
  let hot : Int := s.act Reg.THERM_CTL_T_HOT_C
  if temp ≥ hot then
    if r.wait = 0 ∨ r.wait ≥ 100 then { s.setSensor x { r with wait := 1 } with hubHot := s.hubHot - 5 } else s.setSensor x { r with wait := r.wait + 1 }
  else
    let s := s.setSensor x { r with wait := 0 }
    if (s.readings 4 none).all (fun y => decide (y.2 < hot)) then { s with hubHot := 100 } else s

/-- A die at or above 115 °C: fail-stop, and every leaf domain, SerDes bank and engine pair off. -/
def State.overheat (s : State) : State :=
  let s := s.failStop (Fault_.blank 5 Status.ok 0x0704)
  let (g, s) := s.freshJunk
  let s := (List.range 48).foldl (fun s c => s.coreOff c g) s
  let d := s.rd Reg.POW_DOMAINS_ON
  s.wr Reg.POW_DOMAINS_ON (setFld (setFld d 0 28 0) 39 10 0)

/-- The RW fields of the block but CAP_W: a written value acts from the next 10 µs sample on (R410). -/
def powerFields : List Fld := [Reg.POW_CTL_CP_IDLE_MS, Reg.POW_CTL_CP_KEEP, Reg.POW_CTL_CLK_MAX_MHZ, Reg.THERM_CTL_T_HOT_C]

/-- THERMAL_SAMPLE: one sensor's reading of the 10 µs sample (R406). (DESIGN CHOICE, assumption 6; DEDUCED, assumption 55.) -/
def execThermalSample (x : Sensor) (temp : Int) (s : State) : Res :=
  let s := if s.serving then powerFields.foldl (fun (s : State) f => s.settle f) s else s
  let r := s.sensor x
  let runs := match x with
    | .leaf l _ => sensorPairOf x ≥ 6 || (pairCores l.val (sensorPairOf x)).any (fun c => (s.core c).state == 1)
    | .hub _ => true
  .next (if !s.serving || r.ignored then s
    else if temp < -40 ∨ 150 < temp then s.ignoreSensor x r
    else
      let same := if r.vals.head? == some temp && runs then r.same + 1 else 0
      if same ≥ 100000 then s.ignoreSensor x r
      else
        let r := { r with vals := (temp :: r.vals).take 101, same := same }
        let s := (s.setSensor x r).hottest (dieOf x)
        if temp ≥ 115 then s.overheat
        else match x with
          | .leaf l _ => s.leafHeat x l.val r temp
          | .hub _ => s.hubHeat x r temp)

/-! ### Rack time (R408, R409) -/

/-- The time master: the present module with the lowest number (R409). -/
def State.isMaster (s : State) : Bool := (List.range s.modNum).all (fun m => !s.present m)

/-- A correction of rack time (R408). (DEDUCED, assumption 55.) -/
def State.correctTime (s : State) (offsetPs : Int) : State :=
  let t := offsetPs.tdiv 800
  if -1000000 < offsetPs ∧ offsetPs < 1000000 then { s with rackSlew := t }
  else if 0 < offsetPs then { s with rackTime := s.rackTime + BitVec.ofInt 64 t, rackSlew := 0 }
  else { s with rackHold := t.natAbs, rackSlew := 0 }

/-- TIME_SYNC: the offset of the shortest of 16 reads of the source's TIME_NOW (R409). -/
def execTimeSync (offsetPs : Int) (s : State) : Res :=
  .next (if !s.serving || s.isMaster then s
    else
      let near := decide (offsetPs.natAbs ≤ 5000)
      let n := if near then min 3 (s.timeGood + 1) else 0
      let lock := n ≥ 3 || (s.rdb Reg.TIME_STAT_LOCK && decide (offsetPs.natAbs ≤ 20000))
      let s := (s.wr Reg.TIME_STAT_OFFSET_PS (BitVec.ofInt 32 offsetPs).toNat).wrb Reg.TIME_STAT_LOCK lock
      { s.correctTime offsetPs with timeGood := n })

end Sys2Proof.Machine
end

