-- ==== Sys2Proof/Machine/Host.lean ====
section
/-! DEFINITION. The host interface and boot: resets (R373, R389), the installed configuration (R384, R385), images and
boot (R379-R383, R386-R388), MSI-X and BAR2 (R370, R371), control-core faults (R376), and the mailboxes with their
flash and log commands (R377, R378, R392). -/

namespace Sys2Proof.Machine

/-! ### Resets (R389) -/

/-- Every port sends DOWN with cause 9 and stops. -/
def State.portsGone (s : State) : State :=
  (List.range 20).foldl (fun s p => s.modPort p (fun t => if t.framed then { t with wire := t.wire ++ [linkFrame [.down 9] t.nextSeq] } else t)) s

/-- A module reset: every port sends DOWN, every domain loses its state, and the module stands where PERST_N is
released (R389).  Straps, flash, fuses and FRU memory stay. -/
def State.moduleReset (s : State) : State := s.portsGone.cold

/-- PERST_ASSERT: the module reset lasts until the pad is released. -/
def execPerstAssert (s : State) : Res := .next { s.moduleReset with perst := true }

/-- MODULE_RESET (R389). -/
def execModuleReset (s : State) : Res := .next (if s.powered then s.moduleReset else s)

/-- CTL_MODULE_RESET: the management CTL write acts as GLB_CTL.MODULE_RESET (R374). -/
def execCtlModuleReset (s : State) : Res := .next (if s.powered && !s.perst then s.moduleReset else s)

/-- Power comes on: every domain starts anew, and the release of PERST_N that follows samples the straps (R16, R389). -/
def State.powerUp (s : State) : State := { s.cold with powered := true, input := 0, charging := false, strapsDue := true }

/-- POWER_ON: the 60 V input, within its operating range, with PRSNT_N mated; the input monitor reads its voltage (R389,
R395). (DEDUCED, assumption 79.) -/
def execPowerOn (volt10mV : Nat) (s : State) : Res :=
  .next (if !s.prsnt ∨ (s.powered ∧ s.rd Reg.GLB_BOOT_STAGE ≠ 0) ∨ volt10mV < 5000 ∨ 6400 < volt10mV then s
    else s.powerUp.setInput 0 volt10mV)

/-- SOFT_START_DONE: the 12 V bus is enabled (R396). -/
def execSoftStartDone (s : State) : Res :=
  .next (if s.charging ∧ s.prsnt then s.powerUp else s)

/-- POWER_RESTORE: the input has been at 50 V or more for 100 ms after undervoltage; the module restarts as at
power-on (R395). (DEDUCED, assumption 79.) -/
def execPowerRestore (s : State) : Res :=
  .next (if !s.powered ∧ s.prsnt ∧ s.input = 3 then s.powerUp else s)

/-- FUNCTION_RESET: the MSI-X table and every queue's ENABLE (R373). -/
def execFunctionReset (s : State) : Res :=
  .next (if !s.powered then s
    else
      let s := (List.range 64).foldl (fun s v => ((s.wr (Reg.MSIX_ADDR v) 0).wr (Reg.MSIX_DATA v) 0).wr (Reg.MSIX_CTRL v) 1) (s.wr Reg.MSIX_PBA 0)
      (List.range 64).foldl (fun s q => if s.qEnabled q then s.disableQueue q else s) s)

/-! ### Images (R379-R382) -/

/-- Position of an image: slot 0 A, 1 B; stage 1 or 2. -/
def imageKey (slot stage : Nat) : Nat := 2 * slot + (stage - 1)

/-- Most body bytes of a stage (R380). -/
def bodyLimit (stage : Nat) : Nat := if stage = 1 then 256 * 1024 else 1536 * 1024

/-- The image of a stage of a slot. -/
def State.image? (s : State) (slot stage : Nat) : Option FwImage := s.flash.images.lookup (imageKey slot stage)

/-- An image has the MAGIC, STAGE and length that R380 asks for. -/
def imageShaped (i : FwImage) (stage : Nat) : Bool := i.magic == 0x4B533753#32 && i.stage == stage && decide (i.body ≤ bodyLimit stage)

/-- An image verifies (R380). -/
def State.verifies (s : State) (slot stage : Nat) : Bool :=
  match s.image? slot stage with
  | some i => imageShaped i stage && i.keyOk && i.sigOk && decide (s.fuses.counter ≤ i.svn)
  | none => false

/-- Failure count of a slot (R381). -/
def State.failCount (s : State) (slot : Nat) : Nat := if slot = 0 then s.flash.failA else s.flash.failB

def State.clearFail (s : State) (slot : Nat) : State :=
  { s with flash := if slot = 0 then { s.flash with failA := 0 } else { s.flash with failB := 0 } }

/-- The ROM's move of the preference after three failures (R381). -/
def State.movePref (s : State) : State :=
  let p := s.flash.pref % 2
  if s.failCount p ≥ 3 ∧ s.verifies (1 - p) 1 then { s with flash := { s.flash with pref := 1 - p } }.logS0 Status.ok 0x0A01 0 else s

/-- What the ROM finds: no stage 1, stages 1 without a stage 2, or the slot that runs (R381, R383). -/
inductive BootSlot where
  | recovery
  | stuck
  | slot (n : Nat)
  deriving DecidableEq, Repr

/-- The slot that the ROM boots. (DEDUCED, assumption 57.) -/
def State.bootSlot (s : State) : BootSlot :=
  let p := s.flash.pref % 2
  let both := fun n => s.verifies n 1 && s.verifies n 2
  if !s.verifies p 1 && !s.verifies (1 - p) 1 then .recovery
  else if both p then .slot p
  else if both (1 - p) then .slot (1 - p)
  else .stuck

/-! ### The installed configuration (R384, R385) -/

/-- A rack coordinate of a record, clamped to 3 bits (R19, R237). -/
def rackCoord (v : Nat) : Nat := min 7 v

/-- A copy passes MAGIC, LENGTH and CRC. -/
def cfgPasses (b : List Byte) : Bool :=
  b.length == 1024 && leField b 0 4 == 0x47464E43 && leField b 4 2 == 1024 && leField b 8 4 == crc32c (b.drop 16)

/-- A passing record is valid for this module: its coordinates lie in its rings, and it lists the module (R385). -/
def State.cfgValid (s : State) (b : List Byte) : Bool :=
  let z := leField b 16 1
  let w := leField b 17 1
  let m := rackCoord w * 512 + rackCoord z * 64 + s.posY * 8 + s.posX
  cfgPasses b && decide (z < leField b 18 1) && decide (w < leField b 19 1) && (leField b (400 + m / 8) 1).testBit (m % 8)

/-- A number of the record outside its range is clamped, with an S0 record (R385). -/
def State.cfgNumber (s : State) (f : Fld) (v lo hi : Nat) : State :=
  let c := max lo (min hi v)
  let s := s.wr f c
  if c = v then s else s.logS0 Status.ok 0x0A01 9

/-- A PORTS entry: neighbour, its port, ADAPTER and MAPPED. -/
def State.cfgPort (s : State) (p : Nat) : Nat × Nat × Bool × Bool :=
  let v := s.cfgNum (64 + 4 * p) 4
  (fld v 0 12, fld v 12 5, v.testBit 17, v.testBit 18)

/-- Does a PORTS entry agree with the wiring of R240, or, on an edge port, with the adapters of the record? -/
def State.portAgrees (s : State) (p : Nat) : Bool :=
  let (m, q, ad, _) := s.cfgPort p
  if isEdge p then !ad || s.adapterAt m == some (s.modNum, p)
  else !ad && s.wire s.modNum p == some (m, q) && s.present m

/-- The neighbour that the map gives a port, which R16 may hold down (R242, R259, R385). -/
def State.applyPort (s : State) (p : Nat) : State :=
  let (m, q, ad, mapped) := s.cfgPort p
  if !mapped then s
  else if !s.portAgrees p then s.logS0 Status.ok 0x0A01 9
  else
    let s := ((s.wr (Reg.LK_NBR_EXP_MODULE p) m).wr (Reg.LK_NBR_EXP_PORT p) q).wrb (Reg.LK_NBR_EXP_ADAPTER p) ad
    if s.sidParityErr then s else s.wr Reg.RT_LINKS_MAPPED (s.rd Reg.RT_LINKS_MAPPED ||| 2 ^ p)

/-- An ADAPTERS entry whose number is set in PRESENT is ignored, with an S0 record. -/
def State.checkAdapters (s : State) : State :=
  (List.range 64).foldl (fun s i =>
    let v := s.cfgNum (144 + 4 * i) 4
    if v.testBit 31 && s.present (fld v 0 12) then s.logS0 Status.ok 0x0A01 9 else s) s

/-- Stage 2 applies a valid record (R384, R385). -/
def State.applyConfig (s : State) (b : List Byte) : State :=
  let s := { s with config := b }.wr Reg.GLB_BOOT_CFG_VALID 1
  let s := s.cfgNumber Reg.RT_CTL_ZLEN (leField b 18 1) 1 8
  let s := s.cfgNumber Reg.RT_CTL_WLEN (leField b 19 1) 1 8
  let s := (s.cfgNumber Reg.MOD_POSITION_Z (leField b 16 1) 0 7).cfgNumber Reg.MOD_POSITION_W (leField b 17 1) 0 7
  let s := s.cfgNumber Reg.HM_SPLIT_DIRECT (leField b 20 1) 0 4
  let s := s.wr Reg.HM_KEEP_QUOTA_QUOTA_MIB (min (s.rd Reg.HM_KEEP_QUOTA_QUOTA_MIB) ((256 - 64 * s.rd Reg.HM_SPLIT_DIRECT) / 4))
  let s := s.cfgNumber Reg.HM_LM_MAP_SPREAD (leField b 21 1) 0 15
  let s := s.wr Reg.KV_CTL_TABLE_BASE_MIB (leField b 22 1)
  let s := s.cfgNumber Reg.KV_CTL_TABLE_MIB (leField b 23 1) 1 255
  let s := (s.wr Reg.SCHED_SAVE_BASE_MIB (leField b 24 4)).wr Reg.SCHED_SAVE_SIZE_MIB (leField b 28 4)
  let s := if leField b 28 4 ≠ 0 ∧ !s.lmRange (leField b 24 4 * 0x100000) (leField b 28 4 * 0x100000) then s.logS0 Status.ok 0x0801 Reg.SCHED_SAVE else s
  let s := s.wr Reg.LK_KEY_KEY (leField b 32 8)
  ((List.range 20).foldl (fun s p => s.applyPort p) s).checkAdapters

/-- Stage 2 reads the configuration: the first copy that passes (R385).  Without a valid one every fabric port is
held down. -/
def State.readConfig (s : State) : State :=
  let b := if cfgPasses s.flash.cfg0 then s.flash.cfg0 else s.flash.cfg1
  if s.cfgValid b then s.applyConfig b else { s with portsOff := true }

/-! ### Boot (R386-R388) -/

/-- Stage of boot. -/
def State.stage (s : State) : Nat := s.rd Reg.GLB_BOOT_STAGE

/-- Boot ends in STAGE 5 with a code: the slot's failure count rises and the S5 record is due (R381, R388). (DEDUCED, assumption 57.) -/
def State.bootFail (s : State) (code : Nat) : State :=
  let s := ((s.wr Reg.GLB_BOOT_STAGE 5).wr Reg.GLB_BOOT_FAIL_CODE code).bumpFail
  let s := s.writeRecord { Fault_.blank 5 Status.ok 0x0A01 with info0 := BitVec.ofNat 64 code, time := s.rackTime }
  { s.raiseIbi 3 with portsOff := true }

/-- Measurement blocks 1-6 (R392); block 6, over the records partition whose layout the manual does not give, is a
free value. (DESIGN CHOICE, assumption 11.) -/
def State.measure (s : State) (slot : Nat) : State :=
  let dig := fun st => match s.image? slot st with | some i => i.digest | none => 0
  let (v, s) := s.free
  let cfg := if s.config.isEmpty then 0 else Config.sha512 s.config
  let fuse := Config.sha512 (leBytes 64 s.fuses.keyHash.toNat ++ leBytes 8 s.fuses.counter)
  { s with meas := [(1, Config.romDigest), (2, dig 1), (3, dig 2), (4, cfg), (5, fuse), (6, Config.sha512 (leBytes 8 v.toNat))] }

/-- The self-tests of boot: each is counted, and a failed one sets its FAIL bit.  Arrays that the records name, and arrays
that their self-test fails, are disabled (R140, R142, R386). (DEDUCED, assumption 57.) -/
def State.bootArrays (s : State) (failed : List (Nat × Nat)) : State :=
  let s := ((List.range 4).filter s.leafUp).foldl (fun s l =>
    let bad := failed.filter (fun a => decide (a.1 < 48) && a.1 / 12 == l && decide (a.2 < 4))
    (s.bump (Reg.LEAF_ARRAY_CHECK_SELFTESTS l) 48).wr (Reg.LEAF_ARRAY_FAIL_FAIL l)
      (bad.foldl (fun v a => v ||| 2 ^ (4 * (a.1 % 12) + a.2)) (s.rd (Reg.LEAF_ARRAY_FAIL_FAIL l)))) s
  let s := s.flash.arrays.foldl (fun s a => s.modCore a.1 (fun k => { k with arrays := k.arrays &&& ~~~ BitVec.twoPow 4 a.2 })) s
  failed.foldl (fun s a => if a.1 < 48 ∧ a.2 < 4 ∧ (s.core a.1).arrays.getLsbD a.2 then s.disableArray a.1 a.2 else s) s

/-- The domains that are on once boot has ended: all of a leaf in service, the control complex, PCI Express, the hub and
its quadrants, the LPDDR rails, and the SerDes banks and engine pairs with a mapped port (R20, R398). (DEDUCED, assumption 56.) -/
def State.bootDomains (s : State) : State :=
  let leaves := ((List.range 4).filter s.leafUp).flatMap (fun l => (List.range 7).map (fun j => 7 * l + j))
  let banks := (List.range 5).filter (fun b => (List.range 4).any (fun i => s.mapped (4 * b + i)))
  let on := leaves ++ (List.range 11).map (· + 28) ++ banks.map (· + 39) ++ banks.map (· + 44) ++ [49]
  s.wr Reg.POW_DOMAINS_ON (on.foldl (fun a n => a ||| 2 ^ n) 0)

/-- Rings are locked on every engine whose pair is on, once they have settled (R319, R386). -/
def State.bootRings (s : State) : State :=
  (List.range 10).foldl (fun s e => if (s.rd Reg.POW_DOMAINS_ON).testBit (44 + e / 2) then s.wr (Reg.OE_LOCK_LOCKED e) 0xFFFFFFFF else s) s

/-- Stage 2 from its start to STAGE 4, or to a failure (R386, R388). (DEDUCED, assumption 57.) -/
def State.stage2 (s : State) (slot : Nat) (f : BootFind) : State :=
  let svn := match s.image? slot 2 with | some i => i.svn | none => 0
  let s := ((s.wr Reg.GLB_BOOT_STAGE 3).wr Reg.GLB_BOOT_SLOT slot).wr Reg.GLB_BOOT_SVN_IMAGE svn
  if !f.memoryOk then s.bootFail 0x11
  else if !f.domainsOk then s.bootFail 0x13
  else if !f.channelsFailed.isEmpty then s.bootFail 0x10
  else
    let s := s.readConfig
    let s := (List.range 4).foldl (fun s l =>
      let s := s.trainLeaf l (f.leaves.getD l []) (f.leafReports.getD l [])
      if s.leafGone l then s else s.leafActive l) s
    if (List.range 4).all s.leafGone then s.bootFail 0x12
    else
      let s := (s.bootArrays f.arraysFailed).measure slot
      let s := if s.sidParityErr then { s with portsOff := true } else s
      let s := (s.bootDomains).bootRings
      let s := (List.range 64).foldl (fun s ch => s.modChan ch (fun c => { c with lastTrain := s.clock })) s
      let s := { s with dirBits := (BitVec.ofNat 64 (shortBits (s.rd Reg.RT_CTL_ZLEN)), BitVec.ofNat 64 (shortBits (s.rd Reg.RT_CTL_WLEN))) }
      let s := (s.wr Reg.RT_ZDIR_DIR s.dirBits.1.toNat).wr Reg.RT_WDIR_DIR s.dirBits.2.toNat
      let s := (s.writeBank 0 true).writeBank 1 true
      let (v, s) := s.free
      let s := ((s.wr Reg.GLB_BOOT_STAGE 4).wr Reg.GLB_BOOT_READY_MS v.toNat).clearFail slot
      let s := (s.svcEvent Reg.HOST_IRQ_CAUSE_READY).raiseIbi 2
      (List.range 20).foldl (fun s p => s.bringUp p) s

/-- The PCI Express link trains with the host port; how is the host's (R368, R386, R393). (DESIGN CHOICE, assumption 10.) -/
def State.linkTrained (s : State) : State :=
  let l := Config.hostLink s.freeCtr
  ((({ s with freeCtr := s.freeCtr + 1 } : State).wr Reg.HOST_STAT_SPEED (l.1.val + 1)).wr Reg.HOST_STAT_WIDTH (2 ^ l.2.1.val)).wr
    Reg.HOST_STAT_FLIT l.2.2.toNat

/-- The straps as the release of PERST_N finds them: sampled at the first one after power-on, with the S0 record of a
parity error; kept at any other (R16, R389). (DESIGN CHOICE, assumption 82.) -/
def State.sampleStraps (s : State) (straps : BitVec 7) : State :=
  if s.strapsDue then
    let s := { s with straps := straps, strapsDue := false }
    if s.sidParityErr then s.logS0 Status.ok 0x0A01 0 else s
  else s

/-- BOOT: PERST_N is released (R386).  `img` lists what the flash holds for stages that the model has not seen written:
A 1, A 2, B 1, B 2; `f` what the strap pads hold and the tests and trainings find. (DEDUCED, assumption 57.) -/
def execBoot (img : List FwImage) (f : BootFind) (s : State) : Res :=
  .next (if !s.powered ∨ s.stage ≠ 0 ∨ s.failed then s
    else
      let found := (List.range 4).filterMap (fun k => if (s.flash.images.lookup k).isSome then none else (img[k]?).map (fun i => (k, i)))
      let s := { s with perst := false, rackTime := 0, rackHold := 0, rackSlew := 0, flash := { s.flash with images := s.flash.images ++ found } }
      let s := s.sampleStraps f.straps
      let s := (s.linkTrained.wr Reg.GLB_BOOT_STAGE 1).movePref
      match s.bootSlot with
      | .recovery => (s.wr Reg.GLB_BOOT_STAGE 6).wr Reg.POW_DOMAINS_ON (127 * 2 ^ 28)
      | .stuck => s.wr Reg.GLB_BOOT_STAGE 2
      | .slot n => s.stage2 n f)

/-- BOOT_TIMEOUT: STAGE 4 has not been reached within 120 s (R386). (DEDUCED, assumption 57.) -/
def execBootTimeout (s : State) : Res := .next (if s.powered ∧ s.stage < 4 ∧ !s.perst then s.bootFail 0x30 else s)

/-! ### Control cores (R376) -/

/-- An S5 raised by a control core; a watchdog counts against the slot once (R376, R381). -/
def State.controlFault (s : State) (core : Nat) (watchdog : Bool) : State :=
  let counted := s.booted && watchdog && !s.failed
  let s := s.failStop { Fault_.blank 5 Status.ok 0x0A02 with info0 := BitVec.ofNat 64 core }
  if counted then s.bumpFail else s

/-- WATCHDOG_EXPIRY (R376). -/
def execWatchdogExpiry (core : Fin 4) (s : State) : Res :=
  .next (if s.powered && !s.perst then s.controlFault core.val true else s)

/-- CONTROL_CORE_EXCEPTION (R376). -/
def execControlCoreException (core : Fin 4) (s : State) : Res :=
  .next (if s.powered && !s.perst then s.controlFault core.val false else s)

/-! ### MSI-X and BAR2 (R370, R371) -/

/-- A vector's mask bit is cleared: a pending message leaves. -/
def State.unmask (s : State) (v : Nat) : State :=
  let s := s.wr (Reg.MSIX_CTRL v) (setFld (s.rd (Reg.MSIX_CTRL v)) 0 1 0)
  let p := s.rd Reg.MSIX_PBA
  if p.testBit v then (s.wr Reg.MSIX_PBA (setFld p v 1 0)).raiseVec v else s

/-- MSIX_UNMASK (R371). -/
def execMsixUnmask (v : Fin 64) (s : State) : Res := .next (if s.powered then s.unmask v.val else s)

/-- Bytes of a write that its byte enables let through: runs of enabled bytes. (DEDUCED, assumption 60.) -/
def enabledRuns (off : Nat) : List Byte → List Bool → List (Nat × List Byte)
  | [], _ => []
  | b :: bs, en =>
    let rest := enabledRuns (off + 1) bs en.tail
    if en.headD true then
      match rest with
      | (o, r) :: more => if o = off + 1 then (off, b :: r) :: more else (off, [b]) :: rest
      | [] => [(off, [b])]
    else rest

/-- BAR2_ACCESS: a read or a write of direct HM by the host (R370, R383, R387). (DEDUCED, assumption 60.) -/
def execBar2Access (off : Nat) (wr : Option (List Byte)) (len : Nat) (en : List Bool) (u : List Upset) (s : State) : Res :=
  let top := if s.stage = 6 then 0x4000000 else s.directBytes
  let zeros := { s with hostOut := s.hostOut ++ [.read (List.replicate len 0) false] }
  let n := match wr with | some bs => bs.length | none => len
  .next (if !s.powered || s.failed || !(s.stage == 4 || s.stage == 6) then (if wr.isNone then zeros else s)
    else if off + n > top then (if wr.isNone then zeros else s).logS0 Status.addrRange 0x0A03 off
    else
      let s := s.sramUpsets u
      match wr with
      | some bs => (enabledRuns off bs en).foldl (fun s r => s.hmStore r.1 r.2) s
      | none =>
        let (bs, b) := s.hmRead off len
        let s := { s with hostOut := s.hostOut ++ [.read bs b.isBad] }
        match b with
        | .none => s
        | .old o => s.raise { Fault_.blank 0 Status.eccUncorrected 0x0202 with addr := BitVec.ofNat 64 o, info0 := BitVec.ofNat 64 spHM }
        | .found o => s.raise { Fault_.blank 0 Status.eccUncorrected 0x0202 with addr := BitVec.ofNat 64 o, info0 := BitVec.ofNat 64 spHM })

/-! ### Mailboxes (R377, R378) -/

/-- Opcode and arguments of the command in a mailbox. -/
def State.mbxOpc (s : State) (m : Nat) : Nat := s.rd (Reg.MBX_CMD_OPC m)
def State.mbxArg (s : State) (m i : Nat) : Nat := s.rd (Reg.MBX_ARG_ARG m i)

/-- A command has been given and is not complete. -/
def State.mbxGo (s : State) (m : Nat) : Bool := s.rdb (Reg.MBX_CMD_GO m)

/-- Commands that run before STAGE 4 and in recovery mode (R378). -/
def earlyOpc (o : Nat) : Bool := o == 0 || o == 4 || o == 5

/-- Commands marked flash (R378). -/
def flashOpc (o : Nat) : Bool := o == 2 || o == 4 || o == 5 || o == 6

/-- Another mailbox holds an earlier command that this one must let go first: flash commands, and ATB_MEASURE, run in the
order of GO (R377, R436). -/
def State.mbxWaits (s : State) (m : Nat) (same : Nat → Bool) : Bool :=
  same (s.mbxOpc m) && (List.range 4).any (fun k => k != m && s.mbxGo k && same (s.mbxOpc k) && decide ((s.mbox k).order < (s.mbox m).order))

/-- The mailbox's command is this one, and it may start now. (DEDUCED, assumption 58.) -/
def State.mbxReady (s : State) (m opc : Nat) : Bool :=
  s.powered && !s.perst && !s.failed && s.mbxGo m && s.mbxOpc m == opc && !(s.mbox m).running && (s.mbox m).result.isNone
    && (s.stage == 4 || earlyOpc opc) && !s.mbxWaits m flashOpc && !s.mbxWaits m (fun o => o == 0x10)

/-- A command has come to its result: STATUS, DETAIL and VALUE. -/
def State.mbxEnd (s : State) (m st detail val : Nat) : State :=
  s.modMbox m (fun b => { b with running := true, result := some (st, detail, val % 65536) })

/-- MBX_NOP. -/
def execMbxNop (m : Fin 4) (s : State) : Res := .next (if s.mbxReady m.val 0 then s.mbxEnd m.val 0 0 0 else s)

/-- A failure that no status code names (R377). (DEDUCED, assumption 58.) -/
def State.mbxFail (s : State) (m detail : Nat) : State := s.mbxEnd m Status.addrRange detail 0

/-- Direct HM as a mailbox sees it: the first 64 MiB in recovery mode (R383). -/
def State.mbxHm (s : State) (off n : Nat) : Bool := decide (off + n ≤ (if s.stage = 6 then 0x4000000 else s.directBytes))

/-- CFG_WRITE (R378, R384, R385). -/
def execCfgWrite (m : Fin 4) (flashOk : Bool) (s : State) : Res :=
  let off := s.mbxArg m.val 0
  .next (if !s.mbxReady m.val 2 then s
    else if s.mbxArg m.val 1 ≠ 1024 then s.mbxFail m.val 5
    else if !s.mbxHm off 1024 then s.mbxFail m.val 0
    else
      let (b, bad) := s.hmRead off 1024
      if bad.isBad then s.mbxEnd m.val Status.eccUncorrected 0 0
      else if !s.cfgValid b then s.mbxFail m.val 9
      else if !flashOk then s.mbxFail m.val 4
      else { s with flash := { s.flash with cfg0 := b, cfg1 := b } }.mbxEnd m.val 0 0 0)

/-- CFG_READ: without a record in force DETAIL 9 says so (R378). (DEDUCED, assumption 58.) -/
def execCfgRead (m : Fin 4) (s : State) : Res :=
  let off := s.mbxArg m.val 0
  .next (if !s.mbxReady m.val 3 then s
    else if !s.mbxHm off 1024 then s.mbxFail m.val 0
    else if s.config.isEmpty then s.mbxFail m.val 9
    else (s.hmStore off s.config).mbxEnd m.val 0 0 (s.cfgNum 12 4))

/-- The image whose header lies at an offset of direct HM (R380). -/
def State.imageAt (s : State) (off : Nat) (c : ImageCheck) : FwImage :=
  let le := fun (i n : Nat) => leNat (s.hm.readN (off + i) n)
  { magic := BitVec.ofNat 32 (le 0 4), stage := le 4 1, body := le 8 4, svn := le 12 4, build := BitVec.ofNat 64 (le 16 8),
    keyOk := c.keyOk, sigOk := c.sigOk, digest := c.digest }

/-- A word of a range of direct HM is uncorrectable (R422). -/
def State.hmBadIn (s : State) (off n : Nat) : Bool := s.hmBad.any (fun w => decide (off < 8 * w + 8) && decide (8 * w < off + n))

/-- FW_WRITE: the image in direct HM is verified and written; `chk` is what the key hash and the signature give (R380, R383).
(DEDUCED, assumption 58.) -/
def execFwWrite (m : Fin 4) (chk : ImageCheck) (flashOk : Bool) (s : State) : Res :=
  let img := s.imageAt (s.mbxArg m.val 0) chk
  let stage := fld (s.mbxArg m.val 2) 0 2
  let slot := fld (s.mbxArg m.val 2) 8 1
  let len := s.mbxArg m.val 1
  let key := imageKey slot stage
  let put := fun (i : FwImage) => { s with flash := { s.flash with images := Tab.put (s.flash.images.mergeSort (fun a b => decide (a.1 ≤ b.1))) key i } }
  .next (if !s.mbxReady m.val 4 then s
    else if stage = 0 ∨ stage = 3 then s.mbxFail m.val 1
    else if s.stage ≠ 6 ∧ slot = s.rd Reg.GLB_BOOT_SLOT then s.mbxFail m.val 7
    else if !s.mbxHm (s.mbxArg m.val 0) len then s.mbxFail m.val 0
    else if s.hmBadIn (s.mbxArg m.val 0) len then s.mbxEnd m.val Status.eccUncorrected 0 0
    else if len ≠ 2048 + img.body ∨ img.body > bodyLimit stage then s.mbxFail m.val 5
    else if !(imageShaped img stage && img.keyOk && img.sigOk) then s.mbxFail m.val 2
    else if img.svn < s.fuses.counter then s.mbxFail m.val 3
    else if !flashOk then (put { img with sigOk := false }).mbxFail m.val 4
    else (put img).mbxEnd m.val 0 0 0)

/-- FW_SELECT (R378, R381). -/
def execFwSelect (m : Fin 4) (flashOk : Bool) (s : State) : Res :=
  let slot := fld (s.mbxArg m.val 0) 0 1
  .next (if !s.mbxReady m.val 5 then s
    else if !flashOk then s.mbxFail m.val 4
    else ({ s with flash := { s.flash with pref := slot } }.clearFail slot).mbxEnd m.val 0 0 0)

/-- FW_COMMIT: the counter rises to the smaller SVN of the running stages (R382). (DEDUCED, assumption 58.) -/
def execFwCommit (m : Fin 4) (fuseOk : Bool) (s : State) : Res :=
  let slot := s.rd Reg.GLB_BOOT_SLOT
  let svn := match s.image? slot 1, s.image? slot 2 with | some a, some b => min 64 (min a.svn b.svn) | _, _ => 0
  .next (if !s.mbxReady m.val 6 then s
    else if svn ≤ s.fuses.counter then s.mbxEnd m.val 0 0 0
    else if !fuseOk then s.mbxFail m.val 6
    else { s with fuses := { s.fuses with counter := svn } }.mbxEnd m.val 0 0 0)

/-- The measurement log as LOG_READ copies it (R392). -/
def State.measLog (s : State) : List Byte :=
  (List.range 6).flatMap (fun i => leBytes 1 (i + 1) ++ [Config.measType (i + 1)] ++ leBytes 64 (Tab.get s.meas 0 (i + 1)).toNat)

/-- LOG_READ (R378, R392). -/
def execLogRead (m : Fin 4) (s : State) : Res :=
  let off := s.mbxArg m.val 0
  .next (if !s.mbxReady m.val 7 then s
    else if !s.mbxHm off 396 then s.mbxFail m.val 0
    else (s.hmStore off s.measLog).mbxEnd m.val 0 0 396)

/-- Opcodes of the table of R378 and of the test commands of R439. -/
def knownOpc (o : Nat) : Bool := o ≤ 7 || (0x10 ≤ o && o ≤ 0x13)

/-- MBX_RESULT is written, GO clears, and the interrupt is raised (R377). -/
def State.mbxDone (s : State) (m st detail val : Nat) : State :=
  let s := (((s.wr (Reg.MBX_RESULT_STATUS m) st).wr (Reg.MBX_RESULT_DETAIL m) detail).wr (Reg.MBX_RESULT_DONE m) 1).wr (Reg.MBX_RESULT_TAG m) (s.rd (Reg.MBX_CMD_TAG m))
  let s := ((s.wr (Reg.MBX_RESULT_VALUE m) val).wr (Reg.MBX_CMD_GO m) 0).modMbox m (fun b => { b with running := false, result := none })
  (s.wr Reg.HOST_IRQ_CAUSE_MBX (s.rd Reg.HOST_IRQ_CAUSE_MBX ||| 2 ^ m)).raiseVec (s.rd Reg.HOST_IRQ_MBX_VEC)

/-- MAILBOX_COMPLETE: of a command with a result, of an unknown one, or of one that a failed boot leaves waiting (R377,
R378). -/
def execMailboxComplete (m : Fin 4) (s : State) : Res :=
  .next (if !s.powered || s.perst || s.failed || !s.mbxGo m.val then s
    else match (s.mbox m.val).result with
    | some (st, d, v) => s.mbxDone m.val st d v
    | none =>
      if !knownOpc (s.mbxOpc m.val) then s.mbxDone m.val Status.addrRange 1 0
      else if s.stage = 5 ∧ !earlyOpc (s.mbxOpc m.val) then s.mbxDone m.val Status.addrRange 8 0
      else s)

end Sys2Proof.Machine
end

