-- ==== Sys2Proof/Machine/Views.lean ====
section
/-! DEFINITION. What a read of a BAR0 register returns: the fields that it holds, and the fields that show other
parts of the state (R3-R6, and the register rules of the chapters). -/

namespace Sys2Proof.Machine

/-- Index of `off` in `n` registers from `base` at a stride. -/
def instOf (off base stride n : Nat) : Option Nat :=
  if base ≤ off ∧ off < base + stride * n ∧ (off - base) % stride = 0 then some ((off - base) / stride) else none

/-! ### Fields that are views, by block: offset and low bit -/

/-- Physical index of module core c in its leaf: past the fused core, one more than its logical index (R12). -/
def State.physicalIndex (s : State) (c : Nat) : Nat := if c % 12 < s.fuses.fused.getD (c / 12) 12 then c % 12 else c % 12 + 1

/-- The module core at physical index i of leaf l, none for the fused one (R12). -/
def State.coreAt (s : State) (l i : Nat) : Option Nat := ((List.range 12).map (fun j => 12 * l + j)).find? (fun c => s.physicalIndex c == i)

/-- Identity and global status (R18, R393). -/
def State.viewIdentity (s : State) (off lo : Nat) : Option Nat :=
  if off = Reg.MOD_IDENT ∧ lo = 0 then some Config.vendorId.toNat
  else if off = Reg.MOD_CORE_MAP then some (s.fuses.fused.getD (lo / 4) 12)
  else if off = Reg.MOD_POSITION then
    match lo with
    | 0 => some s.posX
    | 3 => some s.posY
    | 12 => some s.sidParityErr.toNat
    | 16 => some s.modNum
    | _ => none
  else if off = Reg.GLB_BOOT ∧ lo = 16 then some s.fuses.counter
  else none

/-- The core registers of R69: register `r` of core c. -/
def State.viewCore (s : State) (c r lo : Nat) : Option Nat :=
  let k := s.core c
  if r = 0 then
    match lo with
    | 0 => some k.state
    | 8 => some k.lastStatus
    | 16 => some k.window.length
    | 26 => some (match k.stall with | some (.tum tn _ _ _ _) => tn | some (.dispatchWait n) => n | _ => 0xFF)
    | 34 => some k.arrays.toNat
    | 38 => some (!k.ahead.isEmpty).toNat
    | 39 => some (match k.stall with | some (.hub _ _ _ _ _) => 1 | _ => 0)
    | 40 => some k.finished.toNat
    | _ => none
  else if r = 8 then some k.ip
  else if r = 0x10 then some (k.queueFill (lo / 8 + 1))
  else none

/-- Enabled arrays of a leaf: bit 4j + i (R142). -/
def State.arraysEn (s : State) (l : Nat) : Nat :=
  (List.range 12).foldl (fun a j => a + (s.core (12 * l + j)).arrays.toNat * 2 ^ (4 * j)) 0

/-- The leaf windows (R69, R142). -/
def State.viewLeaf (s : State) (off lo : Nat) : Option Nat :=
  let l := (off - 0x2000000) / 0x800000
  let r := (off - 0x2000000) % 0x800000
  if l ≥ 4 then none
  else if r < 0x300000 then s.viewCore (12 * l + r / 0x40000) (r % 0x40000) lo
  else if r = 0x340000 then some (s.arraysEn l)
  else if r = 0x340008 ∧ lo = 48 then some (s.leafReplace l).toNat
  else none

/-- Hub memory and cache (R179). -/
def State.viewHub (s : State) (off lo : Nat) : Option Nat :=
  if off = Reg.HM_SPLIT then
    match lo with
    | 16 => some (64 * s.rd Reg.HM_SPLIT_DIRECT)
    | 32 => some (256 - 64 * s.rd Reg.HM_SPLIT_DIRECT)
    | _ => none
  else if off = Reg.HM_KEEP_QUOTA ∧ lo ≥ 16 then
    some ((s.cache.filter (fun l => l.prot && lineQuad l.line == (lo - 16) / 8)).length * 256 / 0x100000)
  else if off = Reg.HM_LM_MAP then
    match lo with
    | 8 => some (124 - 8 * s.spread)
    | 20 => some (32 * s.spread)
    | _ => none
  else none

/-- A pre-empted task holds the core (R197). -/
def State.preHeld (s : State) (c : Nat) : Bool :=
  s.tasks.any (fun t => (t.state == .preempted || t.state == .saving || t.state == .restoring) && t.cores.contains c)

/-- Tumbler registers (R197). -/
def State.viewTum (s : State) (off lo : Nat) : Option Nat :=
  match instOf off 0x330000 8 4096, instOf off 0x338000 8 48 with
  | some h, _ =>
    match s.hubAlloc h with
    | none => some 0
    | some a =>
      match lo with
      | 0 => some a.task
      | 16 => some 1
      | 17 => some (a.first == h).toNat
      | 18 => some (if a.first = h then a.len else 0)
      | 25 => some (s.hubOwnerPreempted h).toNat
      | _ => none
  | none, some c =>
    match lo with
    | 0 => some (s.core c).task
    | 16 => some ((s.core c).task != 0).toNat
    | 17 => some (s.preHeld c).toNat
    | 32 => some (s.park.filter (fun p => p.core == c)).length
    | _ => none
  | none, none => if off = Reg.TUM_PARK_STAT ∧ lo = 0 then some s.park.length else none

/-- KV page manager (R215). -/
def State.viewKv (s : State) (off lo : Nat) : Option Nat :=
  let q := s.seq? (s.rd Reg.KV_SEQ_SEL_SEQ)
  if off = Reg.KV_SEQ_STATE then
    match q with
    | none => some 0
    | some x =>
      match lo with
      | 0 => some (if x.detent.isSome then 2 else 1)
      | 2 => some x.geom
      | 6 => some x.policy
      | 8 => some x.epoch.toNat
      | 24 => some x.len
      | 45 => some (match x.detent with | some (d, _) => x.len - d | none => 0)
      | _ => none
  else if off = Reg.KV_SEQ_COUNTER then some (match q with | some x => x.counter.toNat | none => 0)
  else if off = Reg.KV_STAT then
    match lo with
    | 0 => some s.kvSeqs.length
    | 13 => some s.kvDisabled.toNat
    | _ => none
  else
    match instOf off 0x280100 8 16, instOf off 0x280200 16 16, instOf off 0x280208 16 16 with
    | some g, _, _ => if lo = 48 then some (geomOf (s.geomWord g)).perPage else none
    | none, some p, _ => if lo = 12 then some (s.poolBad p).toNat else none
    | none, none, some p => if lo = 32 then some (s.poolFree p) else none
    | none, none, none => none

/-- Scheduler registers (R239). -/
def State.viewSched (s : State) (off lo : Nat) : Option Nat :=
  match instOf off 0x200010 0x20 64 with
  | some q => if lo = 48 then some (s.cplFull q).toNat else none
  | none =>
    if off = Reg.SCHED_C0_STAT ∧ lo = 16 then some s.c0Held.length
    else if off = Reg.SCHED_STAT ∧ lo = 0 then some (s.tasks.filter (fun t => t.state != .ended)).length
    else none

/-- Router and link registers (R259, R290). -/
def State.viewFabric (s : State) (off lo : Nat) : Option Nat :=
  if off = Reg.RT_LINKS ∧ lo = 0 then some (((List.range 20).filter s.usable).foldl (fun a p => a + 2 ^ p) 0)
  else match instOf off 0x600008 0x10000 20 with
    | some p => if lo = 3 then some (p < 14 ∨ p ≥ 18 : Bool).toNat else if lo = 4 then some (14 ≤ p ∧ p < 18 : Bool).toNat else none
    | none => none

/-- Optical engines: a role reads as the emitter now has it (R4, R335). -/
def State.viewEngine (s : State) (off lo : Nat) : Option Nat :=
  let e := (off - 0x800000) / 0x20000
  let r := (off - 0x800000) % 0x20000
  if 0x10 ≤ r ∧ r < 0x70 ∧ r % 8 = 0 ∧ lo = 0 then some (s.rd (Reg.OE_EMIT_ROLE e ((r - 0x10) / 8))) else none

/-- Service face (R336): OPEN_TIME counts units of 10 ms. -/
def State.viewFace (s : State) (off lo : Nat) : Option Nat :=
  if off = Reg.SF_LATCH ∧ lo = 16 then
    some (match s.openAt with | some t => min 65535 ((s.clock - t) / 12500000) | none => 0)
  else none

/-- The time source: the neighbour at the first hop toward the time master; the master itself names itself (R409). -/
def State.timeSource (s : State) : Nat :=
  match (List.range s.modNum).find? s.present with
  | some m =>
    match [3, 2, 1, 0].findSome? (rtPrimary (s.route m)) with
    | some p => s.rd (Reg.LK_NBR_EXP_MODULE p)
    | none => m
  | none => s.modNum

/-- Power, clocks and heat (R410).  The measured input power, current and efficiency are what the sensors find: free
values, and 0 before boot. (DEDUCED, assumption 56.) -/
def State.viewPower (s : State) (off lo : Nat) : Option Nat :=
  if off = Reg.POW_INPUT ∧ lo ≠ 16 ∧ s.stage ≠ 0 then some (Config.inputReading lo s.clock).toNat
  else if off = Reg.TIME_NOW then some s.rackTime.toNat
  else if off = Reg.TIME_STAT then
    match lo with
    | 1 => some (s.booted && s.isMaster).toNat
    | 2 => some (if s.booted then s.timeSource else 0)
    | _ => none
  else none

/-- IDCODE of a die: 0 the hub, else a leaf (R437). (DESIGN CHOICE, assumption 11.) -/
def idcode (die : Nat) : Nat := 1 + Config.jedecId.toNat * 2 + (if die = 0 then 0x0760 else 0x0761) * 2 ^ 12 + 0xB * 2 ^ 28

/-- Fields that show state held elsewhere than in `regs`. -/
def State.viewFld (s : State) (off lo : Nat) : Option Nat :=
  if off < 0x100 then s.viewIdentity off lo
  else if off ≥ 0x2000000 then s.viewLeaf off lo
  else if off / 0x80000 = 4 then s.viewSched off lo
  else if off / 0x80000 = 5 then s.viewKv off lo
  else if 0x800000 ≤ off ∧ off < 0x940000 then s.viewEngine off lo
  else match off / 0x100000 with
    | 3 => s.viewTum off lo
    | 4 => s.viewFabric off lo
    | 6 => s.viewFabric off lo
    | 7 => s.viewFabric off lo
    | 9 => s.viewFace off lo
    | 0xC => s.viewHub off lo
    | 0xD => s.viewPower off lo
    | 0xE => if off = Reg.ERR_PTR ∧ lo = 32 then some s.errFull.toNat else none
    | 0xF =>
      if off = Reg.TEST_CTL ∧ lo = 1 then some s.testLow.toNat
      else if off = Reg.TEST_IDCODE then some (idcode (lo / 32))
      else none
    | _ => none

/-! ### Registers that the map of fields does not hold -/

/-- TUM_COUNT, the MSI-X table and its pending bits, and the routing tables (R197, R370, R259). -/
def State.viewReg (s : State) (off : Nat) : Option Nat :=
  if 0x300000 ≤ off ∧ off < 0x330000 then
    match tumOfOff (off - 0x300000) with
    | some (.inl h) => some (s.hubGet h).toNat
    | some (.inr (c, n)) => some ((s.core c).ltGet n).toNat
    | none => some 0
  else if 0x8000 ≤ off ∧ off < 0x8400 then
    let v := (off - 0x8000) / 16
    if off % 16 = 0 then some (s.rd (Reg.MSIX_ADDR v)) else some (s.rd (Reg.MSIX_DATA v) + s.rd (Reg.MSIX_CTRL v) * 2 ^ 32)
  else if off = 0x9000 then some (s.rd Reg.MSIX_PBA)
  else if 0x410000 ≤ off ∧ off < 0x420000 then some (s.rd (Reg.RT_ENTRY ((off - 0x410000) / 0x8000) ((off - 0x410000) % 0x8000 / 8)))
  else none

/-! ### The register map -/

/-- The instance that an offset names in a kind of register: its number. -/
def RegKind.inst (k : RegKind) (off : Nat) : Option Nat :=
  if off < k.base then none
  else
    let d := off - k.base
    let i := if k.s1 = 0 then 0 else d / k.s1
    let r := d - i * k.s1
    let j := if k.s2 = 0 then 0 else r / k.s2
    if i < k.n1 ∧ j < k.n2 ∧ r = j * k.s2 then some i else none

/-- The kind of the register at an offset, and its number. -/
def regAt (off : Nat) : Option (RegKind × Nat) := regKinds.findSome? (fun k => (k.inst off).map (fun i => (k, i)))

/-- A field of the register at an offset. -/
def FieldSpec.fld (f : FieldSpec) (off i : Nat) : Fld := { off := off, lo := f.lo, w := f.w, rst := if f.idx then i else f.rst }

/-- What a field reads: a WO field 0, a view what it shows, any other what it holds (R4). -/
def State.fieldVal (s : State) (off i : Nat) (f : FieldSpec) : Nat :=
  if f.acc = .wo then 0
  else match s.viewFld off f.lo with
    | some v => v % 2 ^ f.w
    | none => s.rd (f.fld off i) % 2 ^ f.w

/-- The 64 bits of the register at an offset; reserved fields, and offsets that hold no register, read 0 (R5, R6). (DESIGN CHOICE, assumption 68.) -/
def State.regVal (s : State) (off : Nat) : Nat :=
  match s.viewReg off with
  | some v => v
  | none =>
    match regAt off with
    | none => 0
    | some (k, i) => k.fields.foldl (fun a f => a + s.fieldVal off i f * 2 ^ f.lo) 0

/-! ### Access -/

/-- Blocks that answer before boot has ended: identity and global status, the MSI-X table and the mailboxes (R387). (DEDUCED, assumption 67.) -/
def earlyBlock (off : Nat) : Bool := off < 0x40 || (0x8000 ≤ off && off < 0x9400) || (0x100000 ≤ off && off < 0x100400)

/-- What answers after an S5: the identity block and the error log block (R414). (DEDUCED, assumption 67.) -/
def failedBlock (off : Nat) : Bool := off < 0x40 || (0xE00000 ≤ off && off < 0xF00000)

/-- Does a register access reach its block? -/
def State.regOpen (s : State) (off : Nat) : Bool :=
  s.powered && !s.perst && (if s.failed then failedBlock off else s.booted || earlyBlock off)

/-- The core whose window an offset lies in, if its leaf does not answer (R345, R346). -/
def State.windowGone (s : State) (off : Nat) : Bool :=
  decide (0x2000000 ≤ off) && decide (off < 0x4000000) && decide ((off - 0x2000000) % 0x800000 < 0x300000)
    && !s.leafUp ((off - 0x2000000) / 0x800000)

/-- Read the register at an offset, as the host, a TE or a core does. (DESIGN CHOICE, assumption 68.) -/
def State.readReg (s : State) (off : Nat) : Word := if s.regOpen off then BitVec.ofNat 64 (s.regVal off) else 0

/-- Does an offset hold a register (R6, R445)? -/
def regHere (off : Nat) : Bool :=
  if 0x300000 ≤ off ∧ off < 0x330000 then (tumOfOff (off - 0x300000)).isSome
  else (0x8000 ≤ off && off < 0x8400) || off == 0x9000 || (0x410000 ≤ off && off < 0x420000) || (regAt off).isSome

/-- The bits of a register that a width names, and the value in their place (R3). -/
def Width.bits (w : Width) (v : Nat) : Nat × Nat :=
  match w with
  | .full => (2 ^ 64 - 1, v % 2 ^ 64)
  | .low => (2 ^ 32 - 1, v % 2 ^ 32)
  | .high => (2 ^ 64 - 2 ^ 32, v % 2 ^ 32 * 2 ^ 32)
  | .other => (0, 0)

/-- What the host's read of a width of the register at an offset returns, and the state after it: all of it, its lower or
its upper half; a read of another width returns 0 and logs an S0 record, and so does one of a core's window on a leaf out
of service (R3, R345).  No row of the table reads a register. (DESIGN CHOICE, assumption 68.) -/
def State.hostRead (s : State) (off : Nat) (w : Width) : Word × State :=
  let reg := off / 8 * 8
  if !s.regOpen reg || !regHere reg then (0, s)
  else if s.windowGone reg then (0, s.logS0 Status.addrRange 0x0A03 off)
  else match w with
    | .full => if off % 8 = 0 then (s.readReg reg, s) else (0, s.logDropped off)
    | .low => (BitVec.ofNat 64 ((s.readReg reg).toNat % 2 ^ 32), s)
    | .high => (BitVec.ofNat 64 ((s.readReg reg).toNat / 2 ^ 32), s)
    | .other => (0, s.logDropped off)

end Sys2Proof.Machine
end

