-- ==== Sys2Proof/Machine/Service.lean ====
section
/-! DEFINITION. The management bus: FRU memory (R17), I3C target and its registers (R374, R375); and what the module
answers over Data Object Exchange: discovery (R368) and SPDM (R391, R392). -/

namespace Sys2Proof.Machine

/-- The module answers on a side interface. (DESIGN CHOICE, assumption 59.) -/
def State.say (s : State) (x : SideMsg) : State := { s with sideOut := s.sideOut ++ [x] }

/-! ### FRU memory (R17) -/

/-- A text of free bytes, of any length but 1, which the format reads as the end of the fields. (PRESUMED, assumption 84.) -/
def freeText (t : Fin 33 × (Nat → Byte)) : List Byte := (List.range (if t.1.val = 1 then 0 else t.1.val)).map t.2

/-- A text field of an information area: type 11, 8-bit text, and its length. (PRESUMED, assumption 84.) -/
def fruField (bs : List Byte) : List Byte := BitVec.ofNat 8 (0xC0 + bs.length) :: bs

/-- The byte that makes a sum of bytes 0. -/
def zeroSum (bs : List Byte) : Byte := 0 - bs.foldl (fun a b => a + b) 0

/-- An information area: version, length in units of 8 bytes, contents, end of fields, padding and checksum. (PRESUMED,
assumption 84.) -/
def fruArea (contents : List Byte) : List Byte :=
  let n := (contents.length + 11) / 8
  let b := [1#8, BitVec.ofNat 8 n] ++ contents ++ [0xC1#8] ++ List.replicate (8 * n - 4 - contents.length) 0#8
  b ++ [zeroSum b]

/-- SY7-M60 and B0, in 8-bit text (R17). -/
def fruOrder : List Byte := [0x53#8, 0x59#8, 0x37#8, 0x2D#8, 0x4D#8, 0x36#8, 0x30#8]
def fruRevision : List Byte := [0x42#8, 0x30#8]

/-- Board area: language, date, maker, name, serial number, part number, no file ID. (PRESUMED, assumption 84.) -/
def fruBoard : List Byte :=
  fruArea ([0#8] ++ leBytes 3 Config.fruDate.toNat ++ fruField (freeText Config.fruMaker) ++ fruField fruOrder ++ fruField (freeText Config.fruSerial)
    ++ fruField fruOrder ++ fruField [])

/-- Product area: language, maker, name, part number, version, serial number, no asset tag, no file ID. (PRESUMED,
assumption 84.) -/
def fruProduct : List Byte :=
  fruArea ([0#8] ++ fruField (freeText Config.fruMaker) ++ fruField fruOrder ++ fruField fruOrder ++ fruField fruRevision
    ++ fruField (freeText Config.fruSerial) ++ fruField [] ++ fruField [])

/-- The FRU data: the common header with the places of the two areas, in units of 8 bytes, and the areas (R17).
(PRESUMED, assumption 84.) -/
def fruData : List Byte :=
  let h := [1#8, 0#8, 0#8, 1#8, BitVec.ofNat 8 (1 + fruBoard.length / 8), 0#8, 0#8]
  h ++ [zeroSum h] ++ fruBoard ++ fruProduct

/-- A byte of the FRU memory: of the FRU data, and past them what manufacture left there. -/
def State.fruByte (s : State) (off : Nat) : Byte := fruData.getD off (s.fru.read off)

/-- FRU_READ: answered from AUX3V3, with or without the 60 V input (R17). -/
def execFruRead (off : Fin 8192) (s : State) : Res := .next (s.say (.fru (s.fruByte off.val)))

/-! ### I3C common commands (R374) -/

/-- The target's identity as the bus gives it: provisioned ID, high byte first, BCR and DCR. (DESIGN CHOICE, assumption 11.) -/
def i3cPidBytes : List Byte := (leBytes 6 Config.i3cPid.toNat).reverse

/-- A common command directed at the dynamic address is answered once there is one. -/
def State.i3cAnswer (s : State) (bs : List Byte) : State := if s.powered && s.i3cAddr.isSome then s.say (.i3c bs) else s

/-- ENTDAA: a target without a dynamic address offers its identity and takes the one it is given. -/
def execEntdaa (addr : BitVec 7) (s : State) : Res :=
  .next (if s.powered && s.i3cAddr.isNone then
      { s.say (.i3c (i3cPidBytes ++ [Config.i3cBcr, Config.i3cDcr])) with i3cAddr := some addr }
    else s)

/-- SETDASA: the dynamic address is set through the static one. -/
def execSetdasa (addr : BitVec 7) (s : State) : Res :=
  .next (if s.powered && s.i3cAddr.isNone then { s with i3cAddr := some addr } else s)

/-- RSTDAA. -/
def execRstdaa (s : State) : Res := .next (if s.powered then { s with i3cAddr := none } else s)

/-- GETPID. -/
def execGetpid (s : State) : Res := .next (s.i3cAnswer i3cPidBytes)

/-- GETBCR. -/
def execGetbcr (s : State) : Res := .next (s.i3cAnswer [Config.i3cBcr])

/-- GETDCR. -/
def execGetdcr (s : State) : Res := .next (s.i3cAnswer [Config.i3cDcr])

/-- GETSTATUS: two bytes, whose contents the manual does not give: a free value. (DEDUCED, assumption 62.) -/
def execGetstatus (s : State) : Res :=
  .next (let (v, s) := s.free
    s.i3cAnswer (leBytes 2 v.toNat))

/-- ENEC enables in-band interrupts (R375). -/
def execEnec (s : State) : Res := .next (if s.powered then { s with ibiOn := true } else s)

/-- DISEC disables them, and ends the retries (R375). (DEDUCED, assumption 62.) -/
def execDisec (s : State) : Res := .next (if s.powered then { s with ibiOn := false, ibis := [] } else s)

/-- IBI_RETRY: the controller accepts the interrupt that was sent last, or 1 ms has passed since it refused it and it is
sent again (R375). -/
def execIbiRetry (accepted : Bool) (s : State) : Res :=
  .next (match s.ibis with
    | [] => s
    | b :: rest => if accepted then { s with ibis := rest } else s.say (.ibi b))

/-! ### Management registers (R374) -/

/-- Hottest die sensor, in °C: the greatest of the leaves' and the hub's. -/
def State.hottestDie (s : State) : Nat :=
  let ls := s.rd Reg.THERM_STAT_LEAF_C
  (BitVec.ofInt 8 ((List.range 4).foldl (fun a l => max a (sext 8 (fld ls (8 * l) 8))) (sext 8 (s.rd Reg.THERM_STAT_HUB_C)))).toNat

/-- The eight bytes of a management register; an index outside the table, and the write-only CTL, read 0. (DEDUCED, assumption 62.) -/
def State.mgmtReg (s : State) (index : Nat) : List Byte :=
  leBytes 8 (match index with
    | 0x00 => s.regVal Reg.MOD_IDENT
    | 0x08 => s.regVal Reg.MOD_POSITION
    | 0x10 => s.regVal Reg.GLB_BOOT
    | 0x18 => s.regVal Reg.SF_LATCH
    | 0x20 => fld (s.regVal Reg.POW_INPUT) 0 32 + s.hottestDie % 256 * 2 ^ 32
    | _ => 0)

/-- I3C_INDEX_WRITE: the index selects a register, which the read that follows returns. (DEDUCED, assumption 62.) -/
def execI3cIndexWrite (index : Byte) (s : State) : Res :=
  .next (if s.powered then { s with i3cIndex := index }.say (.i3c (s.mgmtReg index.toNat)) else s)

/-- BEACON_TOGGLE (R374). (DEDUCED, assumption 62.) -/
def execBeaconToggle (s : State) : Res :=
  .next (if s.powered then { s.wrLater Reg.SF_BEACON_BEACON (!s.rdb Reg.SF_BEACON_BEACON).toNat with padAt := some s.clock } else s)

/-! ### Data Object Exchange (R368, R391, R392) -/

/-- DOE_DISCOVERY: types 0x00 (discovery) and 0x01 (CMA-SPDM) of the PCI-SIG, each naming the index after it. (PRESUMED, assumption 63.) -/
def execDoeDiscovery (index : Byte) (s : State) : Res :=
  .next (if !s.powered || s.perst then s
    else match index.toNat with
    | 0 => s.say (.doe (leBytes 2 1 ++ [0#8, 1#8]))
    | 1 => s.say (.doe (leBytes 2 1 ++ [1#8, 0#8]))
    | _ => s.say (.doe (leBytes 2 0xFFFF ++ [0#8, 0#8])))

/-- Response and error codes of DSP0274 (PRESUMED). (PRESUMED, assumption 63.) -/
def spdmError (code : Nat) : List Byte := Config.spdmMsg 0x7F [BitVec.ofNat 8 code]

def spdmInvalid : Nat := 0x01
def spdmUnexpected : Nat := 0x04
def spdmVersionBad : Nat := 0x41

/-- A request and its answer; both join the transcript that a signature covers. (PRESUMED, assumption 63.) -/
def State.spdmAnswer (s : State) (req resp : List Byte) : State :=
  { s with spdmLog := s.spdmLog ++ req ++ resp }.say (.spdm resp)

/-- An answer that is an error changes nothing. -/
def State.spdmFail (s : State) (code : Nat) : State := s.say (.spdm (spdmError code))

/-- Firmware answers SPDM once boot has ended. -/
def State.spdmUp (s : State) : Bool := s.serving

/-- GET_VERSION starts a connection: versions 1.2 and 1.3. -/
def execGetVersion (s : State) : Res :=
  .next (if !s.spdmUp then s
    else { s with spdmVer := none, spdmAlgs := false, spdmLog := Config.spdmMsg 0x84 [] }.spdmAnswer [] (Config.spdmMsg 0x04 [0x12#8, 0x13#8]))

/-- Capabilities that the module answers: CERT_CAP, CHAL_CAP and MEAS_CAP with signatures, in their places in the flags
of DSP0274 (PRESUMED). (PRESUMED, assumption 63.) -/
def spdmCaps : Nat := 0x02 + 0x04 + 0x10

/-- GET_CAPABILITIES fixes the version of the connection. -/
def execGetCapabilities (version : Byte) (s : State) : Res :=
  .next (if !s.spdmUp then s
    else if s.spdmLog.isEmpty || s.spdmVer.isSome then s.spdmFail spdmUnexpected
    else if version ≠ 0x12#8 ∧ version ≠ 0x13#8 then s.spdmFail spdmVersionBad
    else { s with spdmVer := some version }.spdmAnswer (Config.spdmMsg 0xE1 [version]) (Config.spdmMsg 0x61 (version :: leBytes 4 spdmCaps)))

/-- BaseAsymAlgo TPM_ALG_RSASSA_4096 and BaseHashAlgo TPM_ALG_SHA_512 in the selection masks of DSP0274 (PRESUMED). (PRESUMED, assumption 63.) -/
def spdmAsym : Nat := 0x20
/-- PRESUMED, assumption 63. -/
def spdmHash : Nat := 0x04

/-- NEGOTIATE_ALGORITHMS: the one choice of each, where the requester offers it. -/
def execNegotiateAlgorithms (version : Byte) (asym hash : Word32) (s : State) : Res :=
  .next (if !s.spdmUp then s
    else if s.spdmVer.isNone || s.spdmAlgs then s.spdmFail spdmUnexpected
    else if s.spdmVer ≠ some version then s.spdmFail spdmVersionBad
    else if asym.toNat &&& spdmAsym = 0 ∨ hash.toNat &&& spdmHash = 0 then s.spdmFail spdmInvalid
    else { s with spdmAlgs := true }.spdmAnswer (Config.spdmMsg 0xE3 (version :: leBytes 4 asym.toNat ++ leBytes 4 hash.toNat))
      (Config.spdmMsg 0x63 (version :: leBytes 4 spdmAsym ++ leBytes 4 spdmHash)))

/-- Requests that follow the negotiation: refused out of turn, or at another version. -/
def State.spdmThen (s : State) (version : Byte) (f : State → State) : State :=
  if !s.spdmUp then s
  else if !s.spdmAlgs then s.spdmFail spdmUnexpected
  else if s.spdmVer ≠ some version then s.spdmFail spdmVersionBad
  else f s

/-- Digest bytes of the certificate chain in slot 0. -/
def State.certDigest (s : State) : List Byte := leBytes 64 (Config.sha512 s.flash.cert).toNat

/-- GET_DIGESTS: slot 0 only. -/
def execGetDigests (version : Byte) (s : State) : Res :=
  .next (s.spdmThen version (fun s => s.spdmAnswer (Config.spdmMsg 0x81 [version]) (Config.spdmMsg 0x01 ([version, 1#8] ++ s.certDigest))))

/-- GET_CERTIFICATE: a part of the chain in slot 0, with what remains after it. -/
def execGetCertificate (version slot : Byte) (off len : Nat) (s : State) : Res :=
  .next (s.spdmThen version (fun s =>
    let n := s.flash.cert.length
    if slot ≠ 0#8 ∨ n ≤ off then s.spdmFail spdmInvalid
    else
      let part := (s.flash.cert.drop off).take len
      s.spdmAnswer (Config.spdmMsg 0x82 ([version, slot] ++ leBytes 2 off ++ leBytes 2 len))
        (Config.spdmMsg 0x02 ([version, slot] ++ leBytes 2 part.length ++ leBytes 2 (n - off - part.length) ++ part))))

/-- The signature of the device identity key over the transcript and what is being answered. (DESIGN CHOICE, assumption 11.) -/
def State.spdmSign (s : State) (req body : List Byte) : List Byte := Config.deviceSign (s.spdmLog ++ req ++ body)

/-- CHALLENGE: signed by the device identity key; the module's nonce is a free value. -/
def execChallenge (version slot : Byte) (nonce : BitVec 256) (s : State) : Res :=
  .next (s.spdmThen version (fun s =>
    if slot ≠ 0#8 then s.spdmFail spdmInvalid
    else
      let (v, s) := s.free
      let req := Config.spdmMsg 0x83 ([version, slot] ++ leBytes 32 nonce.toNat)
      let body := [version, slot] ++ s.certDigest ++ leBytes 32 (Config.sha512 (leBytes 8 v.toNat)).toNat
      s.spdmAnswer req (Config.spdmMsg 0x03 (body ++ s.spdmSign req body))))

/-- A block in DMTF measurement format: index, specification, size, type, size of the value, digest (R392). (DESIGN CHOICE, assumption 59.) -/
def State.measBlock (s : State) (i : Nat) : List Byte :=
  [BitVec.ofNat 8 i, 1#8] ++ leBytes 2 67 ++ [Config.measType i] ++ leBytes 2 64 ++ leBytes 64 (Tab.get s.meas 0 i).toNat

/-- GET_MEASUREMENTS: the number of blocks, one block, or all of them, signed where the request asks for it. -/
def execGetMeasurements (version op : Byte) (nonce : BitVec 256) (signed : Bool) (s : State) : Res :=
  .next (s.spdmThen version (fun s =>
    let n := op.toNat
    let blocks := if n = 0xFF then [1, 2, 3, 4, 5, 6] else if 1 ≤ n ∧ n ≤ 6 then [n] else []
    if blocks.isEmpty ∧ n ≠ 0 then s.spdmFail spdmInvalid
    else
      let req := Config.spdmMsg 0xE0 ([version, op] ++ (if signed then leBytes 32 nonce.toNat else []))
      let body := [version, BitVec.ofNat 8 (if n = 0 then 6 else blocks.length)] ++ blocks.flatMap s.measBlock
      if signed then
        let (v, s) := s.free
        let body := body ++ leBytes 32 (Config.sha512 (leBytes 8 v.toNat)).toNat
        s.spdmAnswer req (Config.spdmMsg 0x60 (body ++ s.spdmSign req body))
      else s.spdmAnswer req (Config.spdmMsg 0x60 body)))

end Sys2Proof.Machine
end

