-- ==== Sys2Proof/Machine/Test.lean ====
section
/-! DEFINITION. Test access: LPDDR margining (R365, R366), the field test commands (R435-R443), the TEST_MODE_N pad and
the TAPs (R437, R438). -/

namespace Sys2Proof.Machine

/-! ### What every test command asks for (R438, R439, R443) -/

/-- DETAIL codes of the test commands. -/
def detailState : Nat := 10
def detailAccess : Nat := 11

/-- A result area: a multiple of 64, wholly in direct HM. -/
def State.resultOk (s : State) (off n : Nat) : Bool := off % 64 == 0 && s.hmRange off n

/-- Test access is available to a command: the fixture does not own the network, and the host has not refused the test
commands. -/
def State.testOpen (s : State) (opc : Nat) : Bool := !s.testLow && (opc == 1 || s.rdb Reg.TEST_CTL_FIELD_EN)

/-- The command of mailbox m runs, without a result. -/
def State.mbxRuns (s : State) (m opc : Nat) : Bool :=
  !s.failed && s.mbxGo m && s.mbxOpc m == opc && (s.mbox m).running && (s.mbox m).result.isNone

/-- The command starts. (DEDUCED, assumption 65.) -/
def State.mbxStart (s : State) (m : Nat) : State := s.modMbox m (fun b => { b with running := true })

/-- Another mailbox runs a test command on the same target (R443). -/
def State.targetBusy (s : State) (m : Nat) (same : Nat → Bool) : Bool :=
  (List.range 4).any (fun k => k != m && s.mbxGo k && (s.mbox k).running && (s.mbox k).result.isNone && same k)

/-- Start a test command: refused without test access, else as the command says. -/
def State.testStart (s : State) (m opc : Nat) (f : State → State) : State :=
  if !s.mbxReady m opc then s
  else if !s.testOpen opc then s.mbxFail m detailAccess
  else f s

/-- Bytes of rack time at completion. -/
def State.timeBytes (s : State) : List Byte := leBytes 8 s.rackTime.toNat

/-! ### LPDDR margining (R365, R366) -/

def State.lmCh (s : State) (m : Nat) : Nat := s.mbxArg m 0
def State.lmKind (s : State) (m : Nat) : Nat := s.mbxArg m 1
/-- VSTEP, clamped to 1-8. -/
def State.lmVstep (s : State) (m : Nat) : Nat := max 1 (min 8 (s.mbxArg m 2))
/-- Pins of a kind: 18, or 7 for CA. -/
def marginPins (kind : Nat) : Nat := if kind = 2 then 7 else 18

/-- LM_MARGIN: the sweep starts; it waits while another sweep holds the channel. (DEDUCED, assumption 65.) -/
def execLmMargin (m : Fin 4) (s : State) : Res :=
  let ch := s.lmCh m.val
  .next (s.testStart m.val 1 (fun s =>
    if s.lmKind m.val > 2 then s.mbxFail m.val 1
    else if ch > 63 ∨ !s.resultOk (s.mbxArg m.val 3) (16 + 64 * marginPins (s.lmKind m.val)) then s.mbxFail m.val 0
    else if s.chState ch = 3 then s.mbxEnd m.val Status.eccUncorrected 0 0
    else if (s.chan ch).margining.isSome then s
    else (s.mbxStart m.val).modChan ch (fun c => { c with margining := some m.val })))

/-- A pin record: its number, what the sweep found of VREF code, delay and taps, and zeros (R366). -/
def pinRecord (i : Nat) (found : List Byte) : List Byte := BitVec.ofNat 8 i :: padTo 63 (padTo 33 found)

/-- Bytes of a margin result. -/
def State.marginResult (s : State) (m : Nat) (pins : List (List Byte)) : List Byte :=
  let n := marginPins (s.lmKind m)
  [BitVec.ofNat 8 (s.lmCh m), BitVec.ofNat 8 (s.lmKind m), BitVec.ofNat 8 n, BitVec.ofNat 8 (s.lmVstep m)] ++ leBytes 4 1628
    ++ s.timeBytes ++ (List.range n).flatMap (fun i => pinRecord i (pins.getD i []))

/-- MARGIN_SLICE: one slice, after which the trained values stand again; it waits for a retrain or a repair, and the
last one writes the result. (DEDUCED, assumption 65.) -/
def execMarginSlice (m : Fin 4) (last : Bool) (pins : List (List Byte)) (s : State) : Res :=
  let ch := s.lmCh m.val
  .next (if !s.mbxRuns m.val 1 then s
    else if s.chState ch = 3 then (s.modChan ch (fun c => { c with margining := none })).mbxEnd m.val Status.eccUncorrected 0 0
    else if s.chState ch ≠ 0 ∨ !last then s
    else ((s.modChan ch (fun c => { c with margining := none })).hmStore (s.mbxArg m.val 3) (s.marginResult m.val pins)).mbxEnd m.val 0 0 0)

/-! ### The analogue test bus (R435, R436) -/

/-- A node that a die has. -/
def atbNode (die node : Nat) : Bool := if die = 0 then node < 62 else die < 5 && node < 50

def State.atbDie (s : State) (m : Nat) : Nat := fld (s.mbxArg m 0) 0 3
def State.atbNum (s : State) (m : Nat) : Nat := fld (s.mbxArg m 0) 4 6
/-- Samples that are taken, clamped to 1-4,096. -/
def State.atbCount (s : State) (m : Nat) : Nat := max 1 (min 4096 (s.mbxArg m 1))

/-- The mean of codes, rounded. -/
def meanCode (codes : List Nat) : Nat := (2 * codes.foldl (· + ·) 0 + codes.length) / (2 * codes.length)

/-- mV of a mean code: the ADC spans 0-1.6 V in 4,096 codes. -/
def codeMv (codes : List Nat) : Nat :=
  (2 * 1600 * codes.foldl (· + ·) 0 + 4096 * codes.length) / (2 * 4096 * codes.length)

/-- The module core whose clock generator a node of a leaf die shows, none where no core that works lies there (R12, R435). -/
def State.nodeCore (s : State) (die node : Nat) : Option Nat := if 1 ≤ die ∧ 4 ≤ node ∧ node ≤ 16 then s.coreAt (die - 1) (node - 4) else none

/-- The node is a temperature diode, whose reading the firmware converts with its calibration. -/
def atbDiode (die node : Nat) : Bool := if die = 0 then 8 ≤ node && node < 40 else 18 ≤ node

/-- A leaf that is not in service cannot be measured. -/
def State.atbLeafBad (s : State) (die : Nat) : Bool := die != 0 && (s.leafGone (die - 1) || s.rdb (Reg.LL_CTL_RESET (die - 1)) || !s.leafUp (die - 1))

/-- ATB_MEASURE: at its first arrival the node is selected, at its second the samples have been taken: `codes` are
the codes converted and `value` the firmware's reading of a diode. -/
def execAtbMeasure (m : Fin 4) (codes : List Nat) (value : BitVec 16) (s : State) : Res :=
  let die := s.atbDie m.val
  let node := s.atbNum m.val
  .next (if s.mbxRuns m.val 0x10 then
      if s.atbLeafBad die then s.mbxFail m.val detailState
      else if codes.length ≠ s.atbCount m.val ∨ codes.any (fun c => decide (4095 < c)) then s
      else
        let v := if atbDiode die node then value.toNat else codeMv codes
        let s := ((s.wr Reg.TEST_ATB_LAST_VALUE v).wr Reg.TEST_ATB_LAST_CODE (meanCode codes)).wr Reg.TEST_ATB_LAST_DIE die
        let s := ((s.wr Reg.TEST_ATB_LAST_BUS (fld (s.mbxArg m.val 0) 3 1)).wr Reg.TEST_ATB_LAST_NODE node).wr Reg.TEST_ATB_LAST_VALID 1
        (s.bump Reg.TEST_STAT_ATB_MEAS 1).mbxEnd m.val 0 0 v
    else s.testStart m.val 0x10 (fun s =>
      if !atbNode die node then s.mbxFail m.val 1
      else if s.atbLeafBad die then s.mbxFail m.val detailState
      else s.mbxStart m.val))

/-! ### Eye scans (R440) -/

def State.eyePort (s : State) (m : Nat) : Nat := fld (s.mbxArg m 0) 0 5
def State.eyeLane (s : State) (m : Nat) : Nat := fld (s.mbxArg m 0) 8 4

/-- Engine, side and port of a loopback (R442). -/
def State.loopEngine (s : State) (m : Nat) : Nat := fld (s.mbxArg m 0) 0 4
def State.loopSide (s : State) (m : Nat) : Nat := fld (s.mbxArg m 0) 4 1
def State.loopPort (s : State) (m : Nat) : Nat := 2 * s.loopEngine m + s.loopSide m

/-- Mailbox k's command holds a port for its test. -/
def State.testsPort (s : State) (p k : Nat) : Bool :=
  (s.mbxOpc k == 0x11 && s.eyePort k == p) || (s.mbxOpc k == 0x13 && s.loopPort k == p)

/-- The 16-byte header of an eye scan. -/
def State.eyeHeader (s : State) (m : Nat) : List Byte :=
  [BitVec.ofNat 8 (s.eyePort m), BitVec.ofNat 8 (s.eyeLane m), 3#8, 64#8] ++ leBytes 4 1048576 ++ s.timeBytes

/-- SERDES_EYE: at its first arrival the scan starts, at its second it has ended with `eyes` found; it pauses while the
lane is out of the mask, and fails where the link has gone down meanwhile (R443). (DEDUCED, assumption 65.) -/
def execSerdesEye (m : Fin 4) (eyes : List Byte) (s : State) : Res :=
  let p := s.eyePort m.val
  let lane := s.eyeLane m.val
  let off := s.mbxArg m.val 1
  .next (if s.mbxRuns m.val 0x11 then
      if (s.port p).eye ≠ some m.val then
        let (g, s) := s.freshJunk
        { s with hm := s.hm.smudge off 400 g }.mbxFail m.val detailState
      else if !(s.rxMask p).getLsbD lane then s
      else
        let s := (s.modPort p (fun t => { t with eye := none })).hmStore off (s.eyeHeader m.val ++ padTo 384 eyes)
        (s.bump Reg.TEST_STAT_EYE_SCANS 1).mbxEnd m.val 0 0 0
    else s.testStart m.val 0x11 (fun s =>
      if !s.resultOk off 400 then s.mbxFail m.val 0
      else if p ≥ 20 ∨ (s.lk p ≠ 3 ∧ s.lk p ≠ 4) then s.mbxFail m.val detailState
      else if s.targetBusy m.val (s.testsPort p) then s
      else if !(s.rxMask p).getLsbD lane then s.mbxFail m.val detailState
      else (s.mbxStart m.val).modPort p (fun t => { t with eye := some m.val })))

/-! ### UCIe margining (R441) -/

def State.umLeaf (s : State) (m : Nat) : Nat := fld (s.mbxArg m 0) 0 2
def State.umMod (s : State) (m : Nat) : Nat := fld (s.mbxArg m 0) 8 5
def State.umUcie (s : State) (m : Nat) : Ucie := (s.leaf (s.umLeaf m)).mod (s.umMod m)

/-- UCIE_MARGIN: the test starts. -/
def execUcieMargin (m : Fin 4) (s : State) : Res :=
  .next (s.testStart m.val 0x12 (fun s =>
    let u := s.umUcie m.val
    if !s.resultOk (s.mbxArg m.val 1) 288 then s.mbxFail m.val 0
    else if !s.leafUp (s.umLeaf m.val) ∨ u.disabled then s.mbxFail m.val detailState
    else if s.targetBusy m.val (fun k => s.mbxOpc k == 0x12 && s.umLeaf k == s.umLeaf m.val && s.umMod k == s.umMod m.val) then s
    else (s.mbxStart m.val).modUcie (s.umLeaf m.val) (s.umMod m.val) (fun u => { u with margin := some m.val })))

/-- A direction record: two bytes for each of lanes 0-63 and spares 0-3; a failed lane reads 0, 0 (R441). -/
def marginDir (failed : List Nat) (found : List Byte) : List Byte :=
  (List.range 68).flatMap (fun i => if failed.contains i ∧ i < 64 then [0#8, 0#8] else [found.getD (2 * i) 0, found.getD (2 * i + 1) 0])

/-- The 288 bytes of a UCIe margin result; `res` is what the test found, hub to leaf first. -/
def State.ucieResult (s : State) (m : Nat) (res : List Byte) : List Byte :=
  let u := s.umUcie m
  [BitVec.ofNat 8 (s.umLeaf m), BitVec.ofNat 8 (s.umMod m), 68#8, 32#8, 0#8, 0#8, 0#8, 0#8] ++ s.timeBytes
    ++ marginDir u.failedTx (padTo 136 res) ++ marginDir u.failedRx (padTo 136 (res.drop 136))

/-- UCIE_MARGIN_SLICE: one slice; it waits for a retrain, ends the command where the module or the leaf has gone, and
writes the result when it is the last (R441, R443). (DEDUCED, assumption 65.) -/
def execUcieMarginSlice (m : Fin 4) (last : Bool) (res : List Byte) (s : State) : Res :=
  let u := s.umUcie m.val
  .next (if !s.mbxRuns m.val 0x12 then s
    else if u.margin ≠ some m.val ∨ u.disabled ∨ !s.leafUp (s.umLeaf m.val) then
      (s.modUcie (s.umLeaf m.val) (s.umMod m.val) (fun u => { u with margin := none })).mbxFail m.val detailState
    else if u.retraining ∨ !last then s
    else
      let s := s.hmStore (s.mbxArg m.val 1) (s.ucieResult m.val res)
      ((s.modUcie (s.umLeaf m.val) (s.umMod m.val) (fun u => { u with margin := none })).bump Reg.TEST_STAT_UCIE_MARGINS 1).mbxEnd m.val 0 0 0)

/-! ### Optical loopback (R442) -/

def State.loopLocked (s : State) (m : Nat) : Bool :=
  (s.rd (Reg.OE_LOCK_LOCKED (s.loopEngine m))).testBit (16 * s.loopSide m + fld (s.mbxArg m 0) 8 4)

/-- The loopback lets its port go: where ENABLE is 1, the port trains (R443). -/
def State.loopEnd (s : State) (p : Nat) : State := (s.modPort p (fun t => { t with loop := false })).bringUp p

/-- OPT_LOOPBACK: at its first arrival the switch closes, at its second the time is over and `errors` have been
counted. -/
def execOptLoopback (m : Fin 4) (errors : Nat) (s : State) : Res :=
  let p := s.loopPort m.val
  .next (if s.mbxRuns m.val 0x13 then
      ((s.loopEnd p).bump Reg.TEST_STAT_LOOPBACKS 1).mbxEnd m.val 0 0 (min errors 65535)
    else s.testStart m.val 0x13 (fun s =>
      if s.loopEngine m.val ≥ 10 then s.mbxFail m.val detailState
      else if s.targetBusy m.val (s.testsPort p) then s
      else if s.lk p ≠ 0 then s.mbxFail m.val detailState
      else if !s.loopLocked m.val then s.mbxEnd m.val Status.eccUncorrected 0 0
      else (s.mbxStart m.val).modPort p (fun t => { t with loop := true })))

/-! ### The pad and the TAPs (R437, R438) -/

/-- What a running test command holds goes back. -/
def State.testDrop (s : State) (m : Nat) : State :=
  match s.mbxOpc m with
  | 1 => s.modChan (s.lmCh m) (fun c => { c with margining := none })
  | 0x11 => s.modPort (s.eyePort m) (fun t => { t with eye := none })
  | 0x12 => s.modUcie (s.umLeaf m) (s.umMod m) (fun u => { u with margin := none })
  | 0x13 => s.loopEnd (s.loopPort m)
  | _ => s

/-- TEST_MODE_N_CHANGE: low gives the network to the fixture and ends the test commands that run; high returns every TAP
to Test-Logic-Reset. (DEDUCED, assumption 66.) -/
def execTestModeNChange (low : Bool) (s : State) : Res :=
  .next (if low then
      ([1, 0x10, 0x11, 0x12, 0x13].foldl (fun s o =>
        (List.range 4).foldl (fun s m => if s.mbxRuns m o then (s.testDrop m).mbxFail m detailAccess else s) s) s : State)
        |> (fun s => { s with testLow := true })
    else { s with testLow := false, taps := Vector.replicate 5 Tap.reset })

/-- A TAP instruction is loaded: only while TEST_MODE_N is low. (DEDUCED, assumption 66.) -/
def State.tapLoad (s : State) (die : Nat) (f : Tap → Tap) (out : List Bool) : State :=
  if s.testLow && s.powered then
    let s := s.modTap die f
    if out.isEmpty then s else s.say (.tap die out)
  else s

/-- IDCODE: the 32-bit data register leaves, bit 0 first. -/
def execIdcode (die : Fin 5) (s : State) : Res :=
  .next (s.tapLoad die.val (fun t => { t with ir := 1, driven := false, hiz := false }) ((List.range 32).map (fun i => (idcode die.val).testBit i)))

/-- SAMPLE/PRELOAD: the boundary register is loaded; the outputs stay with the module. -/
def execSamplePreload (die : Fin 5) (v : List Bool) (s : State) : Res :=
  .next (s.tapLoad die.val (fun t => { t with ir := 2, boundary := v, driven := false, hiz := false }) [])

/-- EXTEST: the package's outputs take what the boundary register holds. -/
def execExtest (die : Fin 5) (v : List Bool) (s : State) : Res :=
  .next (s.tapLoad die.val (fun t => { t with ir := 3, boundary := v, driven := true, hiz := false }) [])

/-- CLAMP: the outputs hold the boundary register's values; bypass is selected. -/
def execClamp (die : Fin 5) (s : State) : Res :=
  .next (s.tapLoad die.val (fun t => { t with ir := 4, driven := true, hiz := false }) [false])

/-- HIGHZ: the outputs float; bypass is selected. -/
def execHighz (die : Fin 5) (s : State) : Res :=
  .next (s.tapLoad die.val (fun t => { t with ir := 5, driven := false, hiz := true }) [false])

/-- IJTAG: the die's instrument network is selected. -/
def execIjtag (die : Fin 5) (s : State) : Res :=
  .next (s.tapLoad die.val (fun t => { t with ir := 0x10, driven := false, hiz := false }) [])

/-- Opcodes of the other TAP instructions. -/
def tapOpcode (o : Nat) : Bool := o == 1 || o == 2 || o == 3 || o == 4 || o == 5 || o == 0x10

/-- BYPASS, and every opcode that the table does not list. -/
def execBypass (die : Fin 5) (opcode : Byte) (s : State) : Res :=
  .next (if tapOpcode opcode.toNat then s
    else s.tapLoad die.val (fun t => { t with ir := 0xFF, driven := false, hiz := false }) [false])

end Sys2Proof.Machine
end

