-- ==== Sys2Proof/Machine/RegAccess.lean ====
section
/-! DEFINITION. Writes of BAR0 registers: access codes (R4), reserved bits (R5), dropped writes (R6, R7, R387), clamps
(R237), and the actions that a write starts. -/

namespace Sys2Proof.Machine

/-! ### Clamps (R237) -/

/-- A value within bounds. -/
def clampTo (lo hi v : Nat) : Nat := max lo (min hi v)

/-- The legal value nearest to what an RW field is given; `new` is the register's new word. (DEDUCED, assumption 67.) -/
def State.clampFld (s : State) (off lo new v : Nat) : Nat :=
  if off ≥ 0x2000000 then
    let r := (off - 0x2000000) % 0x800000
    if r = 0x300000 ∧ lo = 8 then clampTo 1 255 v
    else if r < 0x300000 ∧ lo = 8 then min 32 v
    else v
  else if (instOf off 0x280100 8 16).isSome then
    match lo with
    | 1 => clampHeads v
    | 7 => clampWidth (clampHeads (fld new 1 6)) v
    | 16 => min 3 v
    | 19 => v % 2 ^ min 3 (fld new 16 3)
    | 32 => clampTo 1 1024 v
    | _ => v
  else if (instOf off 0x200000 0x20 64).isSome then (if lo = 0 then clampTo 6 16 v else v)
  else if (instOf off 0x800000 0x20000 10).isSome then (if lo = 8 then clampTo 20 1000 v else v)
  else if (instOf off 0xA00000 0x80000 4).isSome then
    (if lo = 8 then clampTo 2 20 v else if lo = 16 then clampTo 1 168 v else if lo = 24 then clampTo 1 255 v else v)
  else if (instOf off 0xE01000 0x20 48).isSome then (if lo = 32 then clampTo 1 65535 v else v)
  else if off = Reg.HM_KEEP_QUOTA then min v ((256 - 64 * s.rd Reg.HM_SPLIT_DIRECT) / 4)
  else if off = Reg.TUM_DL_CTL then clampTo 10 1000000 v
  else if off = Reg.KV_CTL ∧ lo = 16 then clampTo 1 255 v
  else if off = Reg.SCHED_RES then (if lo = 0 then min v (64 * s.rd Reg.HM_SPLIT_DIRECT * 1024) else min v 507904)
  else if off = Reg.SCHED_PRE_CTL ∧ lo = 0 then clampTo 10 1000000 v
  else if off = Reg.RT_TRANSIT then clampTo 1 100 v
  else if off = Reg.RT_ARB then clampTo 1 255 v
  else if off = Reg.LK_WINDOW then clampTo 16 4096 v
  else if off = Reg.SF_BAR then (if lo = 0 then (if v = 3 then 0 else v) else max 1 v)
  else if off = Reg.POW_CAP then clampTo 1000 2600 v
  else if off = Reg.POW_CTL then
    (if lo = 0 then clampTo 1 255 v else if lo = 16 then clampTo 400 1600 v / 25 * 25 else v)
  else if off = Reg.THERM_CTL then clampTo 70 100 v
  else if off = Reg.ERR_CTL ∧ lo = 0 then clampTo 1 255 v
  else v

/-! ### Fields -/

/-- RW fields that act with a written value only from a safe point on: the deadlock detector's next sample, the next
division, the next 10 µs sample and the face's next sample (R7, R197, R336, R410).  A field of any other block is read
at its safe point, or keeps its old value otherwise (R179, R215, R239, R353, R433). -/
def lateFields : List Fld := Reg.TUM_DL_CTL_WINDOW_US :: Reg.POW_CAP_CAP_W :: (powerFields ++ faceFields)

/-- An RW field takes a value (R7). -/
def State.putRw (s : State) (x : Fld) (v : Nat) : State := if lateFields.any (fun f => f.key == x.key) then s.wrLater x v else s.wr x v

/-- A field of the written bits: RW takes the new value, W1C clears, RWL takes the value while its block does not run;
RO, WO and W1S fields hold nothing that a write sets. -/
def State.putField (s : State) (off i mask bits new : Nat) (f : FieldSpec) : State :=
  if fld mask f.lo f.w = 0 then s
  else
    let x := f.fld off i
    match f.acc with
    | .rw => s.putRw x (s.clampFld off f.lo new (fld new f.lo f.w))
    | .w1c => s.wr x (s.rd x - (s.rd x &&& fld bits f.lo f.w))
    | .rwl => if s.booted then s else s.wr x (fld new f.lo f.w)
    | .ro => s
    | .wo => s
    | .w1s => s

/-- A write that names an RWL field of a running block is dropped there and logged (R7). (DEDUCED, assumption 67.) -/
def State.dropsRwl (s : State) (mask : Nat) (k : RegKind) : Bool :=
  s.booted && k.fields.any (fun f => f.acc == .rwl && fld mask f.lo f.w != 0)

/-! ### Actions -/

/-- GO of a mailbox is written 1: the command is given, in the order of GO (R377). -/
def State.mbxGive (s : State) (m : Nat) : State :=
  let s := (s.wr (Reg.MBX_CMD_GO m) 1).modMbox m (fun b => { b with order := s.goOrder, running := false, result := none })
  { s with goOrder := s.goOrder + 1 }

/-- What a write starts, beside the fields it sets; `old` is the state before it, `bits` the one bits written. -/
def State.regAction (old s : State) (off mask bits : Nat) : State :=
  match instOf off 0x200000 0x20 64, instOf off 0x600000 0x10000 20, instOf off 0x2300000 0x800000 4, instOf off 0x100000 0x100 4 with
  | some q, _, _, _ =>
    if !old.qEnabled q && s.qEnabled q then s.enableQueue q
    else if old.qEnabled q && !s.qEnabled q then s.disableQueue q
    else s
  | none, some p, _, _ =>
    let now := s.rdb (Reg.LK_CTL_ENABLE p)
    let s := if now != old.rdb (Reg.LK_CTL_ENABLE p) then s.lkEnable p now else s
    if bits.testBit 4 then s.lkRetrain p else s
  | none, none, some l, _ =>
    let s := if fld mask 8 8 ≠ 0 then old.threshLater s l else s
    if bits.testBit 0 then s.partialReset l else s
  | none, none, none, some m => if bits.testBit 32 then s.mbxGive m else s
  | none, none, none, none =>
    if off = Reg.HM_CACHE_CTL then
      let s := if bits.testBit 0 then s.flushStart else s
      if bits.testBit 1 then s.unprotectStart else s
    else if off = Reg.HM_KEEP_QUOTA then old.quotaLater s
    else if off = Reg.LK_WINDOW then s.pumpWindow
    else if off = Reg.KV_CTL then (if bits.testBit 25 then s.kvClearAll else s.startMoves 4)
    else if 0x280200 ≤ off ∧ off < 0x280300 then old.logPools s
    else if off = Reg.RT_CTL then (if bits.testBit 9 then (s.wr Reg.RT_CTL_RECOMPUTE 1).startCompute true else s)
    else if off = Reg.GLB_CTL then (if bits.testBit 0 then s.moduleReset else s)
    else if off = Reg.POW_CAP then { s with capFell := s.capFell || decide (s.rd Reg.POW_CAP_CAP_W < old.rd Reg.POW_CAP_CAP_W) }
    else if off = Reg.ERR_RING then (if fld mask 6 22 ≠ 0 then (s.wr Reg.ERR_PTR_TAIL 0).wr Reg.ERR_PTR_HEAD 0 else s)
    else if off = Reg.FD_REJOIN then
      (if fld mask 0 13 = 0 ∨ s.failed then s else if bits.testBit 12 then s.rejoinAll else s.rejoin (fld bits 0 12))
    else if off = Reg.TUM_HOST_ADD then s.hostAdd (BitVec.ofNat 64 bits)
    else s

/-! ### The MSI-X table and the routing tables -/

/-- A write of a word of the MSI-X table: message address, or message data with vector control (R370, R371). -/
def State.putMsix (s : State) (off new : Nat) : State :=
  let v := (off - 0x8000) / 16
  if off % 16 = 0 then s.wr (Reg.MSIX_ADDR v) new
  else
    let s := s.wr (Reg.MSIX_DATA v) (fld new 0 32)
    if new.testBit 32 then s.wr (Reg.MSIX_CTRL v) (setFld (s.rd (Reg.MSIX_CTRL v)) 0 1 1)
    else if s.vecMasked v then s.unmask v
    else s

/-- The bits of a routing entry that the layout names (R245). -/
def entryBits : Nat := 0xFFFFFFFFFF3F

/-- A write of a routing entry (R259). -/
def State.putEntry (s : State) (off new : Nat) : State :=
  s.wr (Reg.RT_ENTRY ((off - 0x410000) / 0x8000) ((off - 0x410000) % 0x8000 / 8)) (new &&& entryBits)

/-! ### One register -/

/-- A mailbox's CMD and ARG registers while its GO reads 1 (R377). -/
def State.mbxLocked (s : State) (off : Nat) : Bool :=
  decide (0x100000 ≤ off) && decide (off < 0x100400) && decide (off % 0x100 < 0x28) && s.mbxGo ((off - 0x100000) / 0x100)

/-- A write of the bits `mask` of the register at an offset; a busy mailbox, and an RWL field, drop it with an S0 record
(R7, R377). (DEDUCED, assumption 67.) -/
def State.putReg (s : State) (off mask v : Nat) : State :=
  let bits := v &&& mask
  let new := (s.regVal off - (s.regVal off &&& mask)) + bits
  if 0x8000 ≤ off ∧ off < 0x8400 then s.putMsix off new
  else if 0x410000 ≤ off ∧ off < 0x420000 then s.putEntry off new
  else if s.mbxLocked off then s.logDropped off
  else match regAt off with
    | none => s
    | some (k, i) =>
      let s' := k.fields.foldl (fun s f => s.putField off i mask bits new f) s
      let s' := if s.dropsRwl mask k then s'.logDropped off else s'
      s.regAction s' off mask bits

/-- A write by the host or a TE that reaches BAR0: discarded where no register lies, logged where its width is wrong
(R3, R6, R387). (DEDUCED, assumption 67.) -/
def State.writeReg (s : State) (off : Nat) (w : Width) (v : Nat) : State :=
  let reg := off / 8 * 8
  if !s.regOpen reg || !regHere reg then s
  else if w = .other ∨ off % 8 ≠ 0 then s.logDropped off
  else if reg = 0x9000 then s
  else s.putReg reg (Width.bits w v).1 (Width.bits w v).2

/-- REGISTER_WRITE: the host writes a register; a core's window on a leaf out of service discards the write (R345,
R346). -/
def execRegisterWrite (off : Nat) (w : Width) (v : Word) (s : State) : Res :=
  .next (if s.regOpen (off / 8 * 8) && regHere (off / 8 * 8) && s.windowGone off then s.logS0 Status.addrRange 0x0A03 off
    else s.writeReg off w v.toNat)

end Sys2Proof.Machine
end

