-- ==== Sys2Proof/Machine/Transfer.lean ====
section
/-! DEFINITION. Transfer instructions: GET, PUT, PUT.SIG, PUT.MC, COPY, COPY.T and ATOM (R88-R98), send logs (R432),
and what a request does at its home. -/

namespace Sys2Proof.Machine

/-! ### Where a transfer goes -/

/-- A range that no party can reach now: SP of a core whose leaf is out of service, or the register window of such a
core (R345, R346). -/
def State.gone (s : State) (space off n : Nat) : Bool :=
  if space = spSP then !s.leafUp (spCore off / 12)
  else if space = spCSR then (List.range (n / 8)).any (fun i => s.windowGone (off + 8 * i))
  else false

/-- An access to a range waits: for the domain of the core whose SP it reaches, or for a channel of LM (R362, R399). -/
def State.waits (s : State) (space off n : Nat) : Bool := (space == spSP && !s.coreOn (spCore off)) || s.memWaits space off n

/-- Runs of CSR space are whole 8-byte registers (R88, R178). -/
def runsOk (space : Nat) (rs : List (Nat × Nat × List (Nat × Nat))) : Bool :=
  space != spCSR || rs.all (fun x => x.1 % 8 == 0 && x.2.1 % 8 == 0)

/-- Read bytes of any space of this module but tumblers; CSR space register by register (R178). (DEDUCED, assumption 70.) -/
def State.readFar (s : State) (us : List Upset) (space off n hint uses : Nat) : List Byte × Bad × State :=
  if space = spCSR then ((List.range (n / 8)).flatMap (fun i => leBytes 8 (s.readReg (off + 8 * i)).toNat), .none, s)
  else s.readSpace us space off n hint uses

/-- Write bytes to any space of this module but tumblers: in CSR space 8-byte registers in increasing address order
(R178). (DEDUCED, assumption 70.) -/
def State.writeFar (s : State) (us : List Upset) (space off hint uses : Nat) (bs : List Byte) : Bad × State :=
  if space = spCSR then
    (.none, (List.range (bs.length / 8)).foldl (fun s i => s.writeReg (off + 8 * i) .full (leNat ((bs.drop (8 * i)).take 8))) s)
  else s.writeSpace us space off hint uses bs

/-- Bytes of SP ranges of a core, in order. -/
def Core.gather (k : Core) (ds : List (Nat × Nat)) : List Byte := ds.flatMap (fun d => k.sp.readN d.1 d.2)

/-- The bytes of one run for the SP ranges that take them. -/
def scatter : List (Nat × Nat) → List Byte → List (Nat × List Byte)
  | [], _ => []
  | d :: ds, bs => (d.1, bs.take d.2) :: scatter ds (bs.drop d.2)

/-- Read far runs, with the first bad word met: a line of LM once, whatever number of runs touch it (R162). -/
def State.readRuns (s : State) (us : List Upset) (space hint uses : Nat) (rs : List (Nat × Nat × List (Nat × Nat))) :
    List (Nat × List Byte) × Bad × State :=
  if space = spLM then
    let (ds, b, s) := s.lmReadAll us hint uses (rs.map (fun x => (x.1, x.2.1)))
    ((rs.zip ds).flatMap (fun x => scatter x.1.2.2 x.2), b, s)
  else rs.foldl (fun (r : List (Nat × List Byte) × Bad × State) x =>
    let (bs, b, s) := r.2.2.readFar us space x.1 x.2.1 hint uses
    (r.1 ++ scatter x.2.2 bs, r.2.1.or b, s)) ([], .none, s)

/-! ### Units of a local transfer (R169, R170, R174) -/

/-- Bytes of a range of LM, HM or a scratchpad of this module, as they stand. -/
def State.peek (s : State) (space off n : Nat) : List Byte :=
  match space with
  | 0 => (linePieces off n).flatMap (fun p => match (if s.cacheSets = 0 then none else s.cached p.1) with
    | some l => (l.data.drop p.2.1).take p.2.2
    | none => s.lm.readN (p.1 * 256 + p.2.1) p.2.2)
  | 1 => s.hm.readN off n
  | _ => (s.core (spCore off)).sp.readN (spByte off) n

/-- Bytes of one line of LM change where they stand: in the hub cache, or below it. -/
def State.pokeLine (s : State) (line pos : Nat) (bs : List Byte) : State :=
  match (if s.cacheSets = 0 then none else s.cached line) with
  | some l => s.putLine { l with data := patch l.data pos bs, dirty := true } false
  | none => { s with lm := s.lm.writeN (line * 256 + pos) bs }

/-- Bytes of at most 128 of an aligned unit land. -/
def State.poke (s : State) (space off : Nat) (bs : List Byte) : State :=
  match space with
  | 0 => s.pokeLine (off / 256) (off % 256) bs
  | 1 => s.hmStore off bs
  | _ => s.spWrite (spCore off) (spByte off) bs

/-- A range holds a word found bad, or lies on a failed channel. -/
def State.badRange (s : State) (space off n : Nat) : Bool :=
  match space with
  | 0 => (linePieces off n).any (fun p => s.chanFailed (p.1 * 256) || s.lmPoison.contains p.1 || (match s.cached p.1 with | some l => l.poison | none => false))
  | 1 => s.hmBad.any (fun w => decide (off < 8 * w + 8) && decide (8 * w < off + n))
  | _ => ((s.core (spCore off)).badIn [(spByte off, n)]).isSome

/-- The parts of a written range that become visible each at once: an aligned unit of 128 bytes that lies wholly inside it,
and the words of a unit that it covers in part (R169). (DESIGN CHOICE, assumption 7.) -/
def unitsOf (off n : Nat) : List (Nat × Nat) :=
  if n = 0 then []
  else ((List.range ((off + n - 1) / 128 - off / 128 + 1)).map (fun i => off / 128 + i)).flatMap (fun u =>
    if off ≤ u * 128 ∧ u * 128 + 128 ≤ off + n then [(u * 128, 128)]
    else ((List.range 16).map (fun i => u * 128 + 8 * i)).filterMap (fun w =>
      let lo := max off w
      let hi := min (off + n) (w + 8)
      if lo < hi then some (lo, hi - lo) else none))

/-- What would be written, with the words that have landed before left as they stand. -/
def State.keepLanded (s : State) (landed : List Nat) (space off : Nat) (bs : List Byte) : List Byte :=
  if landed.isEmpty then bs
  else (bs.zip (s.peek space off bs.length)).zipIdx.map (fun x => if landed.contains ((off + x.2) / 8) then x.1.2 else x.1.1)

/-- Write far runs of a tile of core c, in order, but for what has landed. -/
def State.writeRuns (s : State) (us : List Upset) (c space hint uses : Nat) (landed : List Nat) (rs : List (Nat × Nat × List (Nat × Nat))) : Bad × State :=
  rs.foldl (fun (r : Bad × State) x =>
    let (b, s) := r.2.writeFar us space x.1 hint uses (r.2.keepLanded landed space x.1 ((r.2.core c).gather x.2.2))
    (r.1.or b, s)) (.none, s)

/-- Land pieces of a transfer in the SP of core c, but for what has landed. -/
def State.landRest (s : State) (c : Nat) (landed : List Nat) (ds : List (Nat × List Byte)) : State :=
  s.landPieces c (ds.map (fun d => (d.1, s.keepLanded landed spSP (c * 2 ^ 42 + d.1) d.2)))

/-- SP of another leaf than that of core c is reached over that leaf's link (R340). -/
def State.otherLeaf (s : State) (c : Nat) (a : Word) : Bool := s.isHere a && gSpace a == spSP && spCore (gOff a) / 12 != c / 12

/-- The access crosses the link of the leaf that it reaches (R340). -/
def State.crossTo (s : State) (c : Nat) (a : Word) : State := if s.otherLeaf c a then s.crossLink (spCore (gOff a) / 12) else s

/-- A transfer of core c within the module waits: for the memory that it reaches, or for that leaf's link (R348, R362, R399). -/
def State.farWaits (s : State) (c : Nat) (t : Tile) (ra rb : Word) : Bool :=
  s.isHere ra && ((s.otherLeaf c ra && !s.linkOpen (spCore (gOff ra) / 12))
    || (farRuns t (gOff ra) rb).any (fun x => s.waits (gSpace ra) x.1 x.2.1))

/-- What a dispatched transfer of a tile finds before it moves data: the descriptor's checks (R49), the address over
the whole range (R88), a leaf out of service (R345, R346), a padlocked module (R98), or none of these. -/
def State.preCheck (s : State) (t : Tile) (ra rb : Word) : Option (TileBad ⊕ Nat) :=
  let n := farSpan t rb
  match t.check with
  | some b => some (.inl b)
  | none =>
    if !s.addrOk ra (if gSpace ra = spCSR then (n + 7) / 8 * 8 else n) false || !runsOk (gSpace ra) (farRuns t (gOff ra) rb) then some (.inl .range)
    else if s.isHere ra then (if s.gone (gSpace ra) (gOff ra) n then some (.inl .range) else none)
    else if s.padlocked (gMod ra) then some (.inr Status.padlocked)
    else none

/-- Complete with what the check found. -/
def State.finishPre (s : State) (c id : Nat) (e : Entry) (b : TileBad ⊕ Nat) : State :=
  match b with
  | .inl x => s.finishTile c id e x
  | .inr st => s.finish c id st

/-- Completion of a transfer of this module's memory, by what it met (R98, R357, R422). -/
def State.finishMem (s : State) (c id space : Nat) (b : Bad) : State :=
  match b with
  | .none => s.finish c id 0
  | .old o => s.finishEcc c id space o
  | .found o => s.finishEcc c id space o

/-- What a dispatched GET or PUT within the module would copy now: space and base of the destination, space and base of
the source, and the runs, each with the ranges of the source in order; nothing where it would not move data. -/
def State.copyOf (s : State) (c : Nat) (e : Entry) : Nat × Nat × Nat × Nat × List (Nat × Nat × List (Nat × Nat)) :=
  let open_ := fun (t : Tile) (ra rb : Word) =>
    e.phase == .dispatched && s.isHere ra && decide (gSpace ra ≤ 2) && (s.preCheck t ra rb).isNone && !s.farWaits c t ra rb
  let put := fun (t : Tile) (ra rb : Word) =>
    if open_ t ra rb && ((s.core c).badIn t.ranges).isNone then (gSpace ra, 0, spSP, c * 2 ^ 42, farRuns t (gOff ra) rb) else (0, 0, 0, 0, [])
  match e.op with
  | .get td ra rb _ _ =>
    let t := Tile.of td
    if open_ t ra rb && !(farRuns t (gOff ra) rb).any (fun x => s.badRange (gSpace ra) x.1 x.2.1) then
      (spSP, c * 2 ^ 42, gSpace ra, gOff ra, joinPieces (fun _ _ => true) ((farPieces t rb).map (fun p => (p.2.1, p.1, p.2.2))))
    else (0, 0, 0, 0, [])
  | .put td ra rb _ _ _ => put (Tile.of td) ra rb
  | .putSig td ra rb rc _ _ _ _ => if gSpace rc == spTUM then put (Tile.of td) ra rb else (0, 0, 0, 0, [])
  | _ => (0, 0, 0, 0, [])

/-- Units of a written run may land now: each lands or not, by a free choice. -/
def State.landUnits (s : State) (c id space off : Nat) (bs : List Byte) : State :=
  (unitsOf off bs.length).foldl (fun s u =>
    match (s.core c).entry? id with
    | none => s
    | some e =>
      let ws := (List.range ((u.1 + u.2 - 1) / 8 - u.1 / 8 + 1)).map (fun i => u.1 / 8 + i)
      if ws.all e.landed.contains || (space == spLM && s.chanFailed u.1) then s
      else
        let (v, s) := s.free
        if v.getLsbD 0 then (s.poke space u.1 ((bs.drop (u.1 - off)).take u.2)).modEntry c id (fun e => { e with landed := e.landed ++ ws })
        else s) s

/-- Time passes for the transfers within the module that have been dispatched: units of their destinations become visible,
in any order (R169, R170, R174). (DESIGN CHOICE, assumption 7.) -/
def State.landSome (s : State) : State :=
  (List.range 48).foldl (fun s c => (s.core c).window.foldl (fun s e =>
    let x := s.copyOf c e
    x.2.2.2.2.foldl (fun s r =>
      s.landUnits c e.id x.1 (x.2.1 + r.1) (r.2.2.flatMap (fun d => s.peek x.2.2.1 (x.2.2.2.1 + d.1) d.2))) s) s) s

/-! ### GET (R90) -/

/-- The requests of a GET from another module. -/
def State.getOut (s : State) (c id : Nat) (ra : Word) (cls : Nat) (ps : List (Nat × Nat × List (Nat × Nat))) : State :=
  ps.foldl (fun s x => s.request c id
    (s.ctl PT.get cls (gMod ra) (s.coreJob c) (gSpace ra) x.1 (leBytes 2 x.2.1)) x.2.2 none []) (s.await c id ps.length true)

/-- The run of a GET. (DESIGN CHOICE, assumption 7.) -/
def State.runGet (s : State) (us : List Upset) (c id : Nat) (e : Entry) (td : TileWord) (ra rb : Word) (cls hint : Nat) : State :=
  let t := Tile.of td
  match s.preCheck t ra rb with
  | some b => s.finishPre c id e b
  | none =>
    if s.isHere ra then
      if s.farWaits c t ra rb then s
      else
        let (ds, b, s) := (s.crossTo c ra).readRuns us (gSpace ra) hint e.uses (farRuns t (gOff ra) rb)
        (if b.isBad then s else s.landRest c e.landed ds).finishMem c id (gSpace ra) b
    else s.getOut c id ra cls (farPackets t (gOff ra) rb)

/-- The pre-issued read of the GET that issues at the core's IP with these operands (R63). -/
def Core.aheadOf (k : Core) (td : TileWord) (ra rb : Word) : Option PreRead :=
  k.preRead.find? (fun p => p.ip == k.ip && p.bound.isNone && p.td == td && p.ra == ra && p.rb == rb)

/-- R63 keeps a pre-issued read. (DEDUCED, assumption 75.) -/
def PreRead.kept (p : PreRead) : Bool :=
  !p.stale && !p.dirty && (match p.data with | none => true | some st => st == 0)

/-- A GET has issued as instruction `id`, and a read had been pre-issued for it: kept, its data lands now or when it
returns; else discarded (R63, R64). (DEDUCED, assumption 75.) -/
def State.takeAhead (s : State) (c id : Nat) (p : PreRead) : State :=
  let s := s.modCore c (fun k => { k with preRead := k.preRead.filter (fun x => x.pid != p.pid) })
  if p.kept then
    let s := s.bump (Reg.CORE_RUNAHEAD_STAT_RA_KEPT c) 1
    match p.data with
    | some _ => (s.landPieces c p.parts).finish c id 0
    | none => (s.modCore c (fun k => { k with preRead := k.preRead ++ [{ p with bound := some id }] })).await c id 1 true
  else s.bump (Reg.CORE_RUNAHEAD_STAT_RA_DISCARDED c) 1

/-- GET (R90): at issue, a read that was pre-issued for it is kept or discarded. -/
def execGet (c : CoreId) (o : EngOp FmtI) (s : State) : Res :=
  .next (match o with
    | .issue h f => s.issue c.val h 0x60 (packI f) (fun s =>
        let k := s.core c.val
        let td := k.tget f.td.val
        let ra := k.sget f.ra.val
        let rb := k.sget f.rb.val
        let s' := s.enqueue c.val h (.get td ra rb f.cls.val f.hint.val)
        match k.aheadOf td ra rb, (s'.core c.val).entry? k.nextId with
        | some p, some e => if e.slotEn ∧ e.slot > 0x4FFFFF then s' else s'.takeAhead c.val k.nextId p
        | _, _ => s')
    | .run id u => s.runEntry c.val id u (fun s e =>
        match e.op with
        | .get td ra rb cls hint => s.runGet u c.val id e td ra rb cls hint
        | _ => s))

/-! ### Send logs (R432) -/

/-- Header of a log entry. -/
def State.slogHeader (s : State) (c : Nat) (e : Entry) (t : Tile) (ra rb sig : Word) (cls inc : Nat) : List Byte :=
  leBytes 8 (s.rd (Reg.SLOG_NEXT_SEQ c)) ++ leBytes 8 e.time.toNat ++ leBytes 8 ra.toNat ++ leBytes 8 rb.toNat
    ++ leBytes 4 t.packedLen ++ leBytes 2 t.rows ++ leBytes 1 t.fmt ++ leBytes 1 cls ++ leBytes 8 sig.toNat
    ++ leBytes 2 inc ++ leBytes 2 (s.coreJob c) ++ List.replicate 12 0

/-- Two ranges of a ring of `z` bytes, each from an offset below z, overlap. (DEDUCED, assumption 73.) -/
def ringOverlap (z a n b m : Nat) : Bool := n ≥ z || m ≥ z || decide ((b + z - a) % z < n) || decide ((a + z - b) % z < m)

/-- Store bytes round a ring in LM: up to its end, then from its start. -/
def State.ringWrite (s : State) (base z pos : Nat) (bs : List Byte) : Bad × State :=
  let rest := bs.drop (z - pos)
  ((List.range ((rest.length + z - 1) / z)).map (fun i => (rest.drop (i * z)).take z)).foldl
    (fun (r : Bad × State) x => let (b, s) := r.2.lmWrite [] 0 1 base x; (r.1.or b, s)) (s.lmWrite [] 0 1 (base + pos) (bs.take (z - pos)))

/-- One entry is mirrored: entries that it overwrites at or above the trim point advance SLOG_TRIM and set WRAPPED. (DEDUCED, assumption 73.) -/
def State.slogWrite (s : State) (c : Nat) (e : Entry) (t : Tile) (ra rb sig : Word) (cls inc : Nat) : Bad × State :=
  let z := s.slogSize c
  let base := s.slogBase c
  let log := Tab.get s.slogs { pos := 0, entries := [] } c
  let body := s.slogHeader c e t ra rb sig cls inc ++ (farPieces t 0).flatMap (fun p => (s.core c).sp.readN p.2.1 p.2.2)
  let bs := body ++ List.replicate ((64 - body.length % 64) % 64) 0
  let seq := s.rd (Reg.SLOG_NEXT_SEQ c)
  let trim := s.rd (Reg.SLOG_TRIM_SEQ c)
  let hit := log.entries.filter (fun x => ringOverlap z log.pos bs.length x.2.1 x.2.2)
  let lost := hit.filter (fun x => trim ≤ x.1)
  let s := if lost.isEmpty then s
    else ((s.bump (Reg.SLOG_STAT_OVERWRITTEN c) lost.length).wr (Reg.SLOG_STAT_WRAPPED c) 1).wr (Reg.SLOG_TRIM_SEQ c) (lost.foldl (fun m x => max m (x.1 + 1)) trim)
  let kept := log.entries.filter (fun x => !ringOverlap z log.pos bs.length x.2.1 x.2.2)
  let s := (s.wr (Reg.SLOG_NEXT_SEQ c) (seq + 1))
  let s := { s with slogs := s.slogs.put c { pos := (log.pos + bs.length) % z, entries := kept ++ [(seq, log.pos, bs.length)] } }
  s.ringWrite base z log.pos bs

/-- The mirror write of a PUT or PUT.SIG with VAR, where the log is on. -/
def State.mirror (s : State) (c : Nat) (e : Entry) (log : Bool) (t : Tile) (ra rb sig : Word) (cls inc : Nat) : Bad × State :=
  if log && s.slogOn c then s.slogWrite c e t ra rb sig cls inc else (.none, s)

/-- A `log` transfer issues with EN at 0: it is counted (R432). (DEDUCED, assumption 73.) -/
def State.noteLog (s : State) (c : Nat) (h : Hdr) : State :=
  if h.var && !s.slogOn c && !(s.core c).queueFull h.q.val then s.bump (Reg.SLOG_STAT_IGNORED c) 1 else s

/-! ### PUT (R90) -/

/-- The packets of a PUT: control packets where the whole data fit one, else data packets (R277). -/
def State.putPackets (s : State) (c : Nat) (t : Tile) (ra rb : Word) (cls : Nat) : List Packet :=
  (farPackets t (gOff ra) rb).map (fun x =>
    let bs := (s.core c).gather x.2.2
    if t.packedLen ≤ 48 then s.ctl PT.put cls (gMod ra) (s.coreJob c) (gSpace ra) x.1 bs
    else s.dataPkt PT.putData cls (gMod ra) (s.coreJob c) (gSpace ra) x.1 bs)

/-- Where in SP the data of each packet of a tile lie. -/
def farSources (t : Tile) (off : Nat) (rb : Word) : List (List (Nat × Nat)) := (farPackets t off rb).map (fun x => x.2.2)

/-- Send request packets of one instruction, each with the place of its data. -/
def State.sendAll (s : State) (c id : Nat) (ps : List (Packet × List (Nat × Nat))) : State :=
  ps.foldl (fun s p => s.requestFrom p.2 c id p.1 [] none []) s

/-- The mirror waits for a channel of LM (R362). -/
def State.mirrorWaits (s : State) (c : Nat) (t : Tile) (log : Bool) : Bool :=
  let z := s.slogSize c
  let pos := (Tab.get s.slogs { pos := 0, entries := [] } c).pos
  let n := slogLen t
  log && s.slogOn c && (s.lmWaits (s.slogBase c + pos) (min n (z - pos)) || s.lmWaits (s.slogBase c) (min z (pos + n - z)))

/-- A write of this module's memory as one step, with its mirror. -/
def State.putHere (s : State) (us : List Upset) (c : Nat) (e : Entry) (t : Tile) (ra rb sig : Word) (cls hint inc : Nat) (log : Bool) : Bad × State :=
  let (b, s) := (s.crossTo c ra).writeRuns us c (gSpace ra) hint e.uses e.landed (farRuns t (gOff ra) rb)
  let (b', s) := s.mirror c e log t ra rb sig cls inc
  (b.or b', s)

/-- The mirror of a transfer to another module: what it met is a status of the instruction. -/
def State.mirrorOut (s : State) (c id : Nat) (e : Entry) (log : Bool) (t : Tile) (ra rb sig : Word) (cls inc : Nat) : State :=
  let (b, s) := s.mirror c e log t ra rb sig cls inc
  if b.isBad then s.modEntry c id (fun e => { e with bad := Status.eccUncorrected, cause := 0x0202 }) else s

/-- The run of a PUT. (DESIGN CHOICE, assumption 7.) -/
def State.runPut (s : State) (us : List Upset) (c id : Nat) (e : Entry) (td : TileWord) (ra rb : Word) (cls hint : Nat) (log : Bool) : State :=
  let t := Tile.of td
  match s.preCheck t ra rb with
  | some b => s.finishPre c id e b
  | none =>
    if s.farWaits c t ra rb || s.mirrorWaits c t log then s
    else match (s.core c).badIn t.ranges with
      | some w => s.finishEcc c id 2 w
      | none =>
        if s.isHere ra then
          let (b, s) := s.putHere us c e t ra rb 0 cls hint 0 log
          s.finishMem c id (gSpace ra) b
        else
          let ps := s.putPackets c t ra rb cls
          ((s.await c id ps.length true).mirrorOut c id e log t ra rb 0 cls 0).sendAll c id (ps.zip (farSources t (gOff ra) rb))

/-- PUT (R90). -/
def execPut (c : CoreId) (o : EngOp FmtI) (s : State) : Res :=
  .next (match o with
    | .issue h f => s.issue c.val h 0x61 (packI f) (fun s =>
        let k := s.core c.val
        (s.noteLog c.val h).enqueue c.val h
          (.put (k.tget f.td.val) (k.sget f.ra.val) (k.sget f.rb.val) f.cls.val f.hint.val h.var))
    | .run id u => s.runEntry c.val id u (fun s e =>
        match e.op with
        | .put td ra rb cls hint log => s.runPut u c.val id e td ra rb cls hint log
        | _ => s))

/-! ### PUT.SIG (R91, R280) -/

/-- The tumbler at RC lies on the module of RA and R84 lists it (R91). -/
def State.sigOk (s : State) (ra rc : Word) : Bool := gSpace rc == spTUM && s.target rc == s.target ra && (tumOfOff (gOff rc)).isSome

/-- One control packet carries data and signal: the data lie in one run and fit it (R277). -/
def sigControl (t : Tile) (off : Nat) (rb : Word) : Bool := decide (t.packedLen ≤ 40) && decide ((farPackets t off rb).length = 1)

/-- The packets of a PUT.SIG before their OPID is given, the one with the signal fields last (R280). -/
def State.sigPackets (s : State) (c : Nat) (e : Entry) (t : Tile) (ra rb rc : Word) (cls sigref : Nat) : List Packet :=
  let job := s.coreJob c
  let tum := gOff rc / 8
  let far := farPackets t (gOff ra) rb
  if sigControl t (gOff ra) rb then
    far.map (fun x =>
      { s.ctl PT.putSig cls (gMod ra) job (gSpace ra) x.1
          (leBytes 4 0 ++ leBytes 2 e.inc ++ leBytes 2 tum ++ (s.core c).gather x.2.2) with
        inc := e.inc, sigtum := tum })
  else
    far.zipIdx.map (fun x =>
      let p := { s.dataPkt PT.putSigData cls (gMod ra) job (gSpace ra) x.1.1 ((s.core c).gather x.1.2.2) with sigref := sigref }
      if x.2 + 1 = far.length then { p with sig := true, inc := e.inc, sigtum := tum, sigbytes := t.packedLen } else p)

/-- The packet that carries the signal leaves with a new OPID (R419). -/
def State.sendSignal (s : State) (c id : Nat) (p : Packet) (source : List (Nat × Nat)) : State :=
  let (oid, s) := s.nextOpid p.dst
  let p := { p with opid := oid }
  let p := if p.typ.val = PT.putSig then { p with payload := leBytes 4 oid.toNat ++ p.payload.drop 4 } else p
  s.requestFrom source c id p [] none []

/-- The signal of a PUT.SIG within the module is applied. -/
def State.signalHere (s : State) (c id : Nat) (e : Entry) (rc : Word) : State := s.tumLocal c id (gOff rc) (.add e.inc)

/-- The run of a PUT.SIG: the data move at once; with a release scope that is not met, the packet with the signal is
withheld.  A padlocked module is found before the tumbler at RC is looked at. (DESIGN CHOICE, assumption 82.) -/
def State.runPutSig (s : State) (us : List Upset) (c id : Nat) (e : Entry) (td : TileWord) (ra rb rc : Word) (cls hint scope : Nat) (log : Bool) : State :=
  let t := Tile.of td
  match s.preCheck t ra rb with
  | some b => s.finishPre c id e b
  | none =>
    if !s.sigOk ra rc then s.finishRange c id
    else if s.farWaits c t ra rb || s.mirrorWaits c t log || (!s.isHere ra && s.sigBusy (gMod ra) (s.freshSig (gMod ra)).1) then s
    else match (s.core c).badIn t.ranges with
      | some w => s.finishEcc c id 2 w
      | none =>
        let free := scope == 0 || (s.core c).released id
        if s.isHere ra then
          let (b, s) := s.putHere us c e t ra rb rc cls hint e.inc log
          if b.isBad then s.finishMem c id (gSpace ra) b
          else if free then s.signalHere c id e rc
          else s.modEntry c id (fun e => { e with phase := .waiting, left := 1, sigDue := some 0 })
        else
          let (ref, s) := s.freshSig (gMod ra)
          let ps := s.sigPackets c e t ra rb rc cls ref
          let src := farSources t (gOff ra) rb
          let body := (ps.zip src).dropLast
          let s := (s.await c id ps.length (free || !body.isEmpty)).mirrorOut c id e log t ra rb rc cls e.inc
          let s := s.sendAll c id body
          if free then (match ps.getLast? with | some p => s.sendSignal c id p (src.getLast?.getD []) | none => s)
          else s.modEntry c id (fun e => { e with sigDue := some ref })

/-- A withheld signal whose release is met goes (R91). (DEDUCED, assumption 71.) -/
def State.runSigDue (s : State) (c id : Nat) (e : Entry) (ref : Nat) : State :=
  match e.op with
  | .putSig td ra rb rc cls _ _ _ =>
    if s.failed || !(s.core c).released id || !s.linkOpen (c / 12) then s
    else
      let s := s.modEntry c id (fun e => { e with sigDue := none, sent := true })
      if s.isHere ra then s.signalHere c id e rc
      else if s.padlocked (gMod ra) then s.partDone c id Status.padlocked
      else match (s.sigPackets c e (Tile.of td) ra rb rc cls ref).getLast? with
        | some p => (s.crossLink (c / 12)).sendSignal c id p ((farSources (Tile.of td) (gOff ra) rb).getLast?.getD [])
        | none => s
  | _ => s

/-- PUT.SIG (R91). -/
def execPutSig (c : CoreId) (o : EngOp FmtI) (s : State) : Res :=
  .next (match o with
    | .issue h f => s.issue c.val h 0x62 (packI f) (fun s =>
        let k := s.core c.val
        (s.noteLog c.val h).enqueue c.val h
          (.putSig (k.tget f.td.val) (k.sget f.ra.val) (k.sget f.rb.val) (k.sget f.rc.val) f.cls.val f.hint.val f.scope.val h.var))
    | .run id u =>
      match ((s.core c.val).entry? id).bind (fun e => e.sigDue.map (fun r => (e, r))) with
      | some (e, r) => s.runSigDue c.val id e r
      | none => s.runEntry c.val id u (fun s e =>
          match e.op with
          | .putSig td ra rb rc cls hint scope log => s.runPutSig u c.val id e td ra rb rc cls hint scope log
          | _ => s))

/-! ### PUT.MC (R95) -/

/-- The packets of a PUT.MC: one of at most 32 bytes is a control packet (R277); the tile is packed at each
destination. -/
def State.mcPackets (s : State) (c : Nat) (t : Tile) (ra rb rc : Word) (cls : Nat) : List Packet :=
  let m : MaskPair := { inRack := rb, racks := rc }
  let job := s.coreJob c
  (farPackets t (gOff ra) 0).map (fun x =>
    let bs := (s.core c).gather x.2.2
    if t.packedLen ≤ 32 then
      { s.ctl PT.putMc cls 0 job (gSpace ra) x.1 (leBytes 8 rb.toNat ++ leBytes 8 rc.toNat ++ bs) with mask := m }
    else { s.dataPkt PT.putMcData cls 0 job (gSpace ra) x.1 bs with mask := m })

/-- Completion of a PUT.MC: the miss report at RD, and PARTIAL_DELIVERY where it names a destination (R95). -/
def State.finishMc (s : State) (c id : Nat) (rd : Word) : State :=
  match (s.core c).entry? id with
  | none => s
  | some e =>
    let s := s.spWrite c rd.toNat (missReport e.missed)
    let missed := e.missed.any (fun x => x.2 != 0)
    s.finish c id (if e.bad ≠ 0 then e.bad else if missed then Status.partialDelivery else Status.ok)

/-- The run of a PUT.MC. (DEDUCED, assumption 70.) -/
def State.runPutMc (s : State) (c id : Nat) (e : Entry) (td : TileWord) (ra rb rc rd : Word) (cls : Nat) : State :=
  let t := Tile.of td
  match t.check with
  | some b => s.finishTile c id e b
  | none =>
    if gSpace ra > 2 || !s.rangeOk (gSpace ra) (gOff ra) t.packedLen || rd.toNat % 64 != 0 || decide (rd.toNat + 512 > spSize) then s.finishRange c id
    else match (s.core c).badIn t.ranges with
      | some w => s.finishEcc c id 2 w
      | none =>
        let ds := maskMembers { inRack := rb, racks := rc }
        if ds.isEmpty then s.finishMc c id rd
        else
          let ps := s.mcPackets c t ra rb rc cls
          (ps.zip (farSources t (gOff ra) 0)).foldl (fun s p => s.requestFrom p.2 c id p.1 [] none ds) (s.await c id ps.length true)

/-- PUT.MC (R95). -/
def execPutMc (c : CoreId) (o : EngOp FmtJ) (s : State) : Res :=
  .next (match o with
    | .issue h f => s.issueEngine c.val h 0x63 (packJ f) (fun k =>
        .putMc (k.tget f.td.val) (k.sget f.ra.val) (k.sget f.rb.val) (k.sget f.rc.val) (k.sget f.rd.val) f.cls.val f.hint.val)
    | .run id u => s.runEntry c.val id u (fun s e =>
        match e.op with
        | .putMc td ra rb rc rd cls _ => s.runPutMc c.val id e td ra rb rc rd cls
        | _ => s))

/-! ### COPY and COPY.T (R93) -/

/-- Bytes of SP that hold columns 0 to n − 1 of rows 0 to r − 1. -/
def Tile.part (t : Tile) (r n : Nat) : List (Nat × Nat) :=
  (List.range r).flatMap (fun i =>
    if Fmt.block t.fmt then [(t.rowAt i, (n + 31) / 32 * blockLen t.fmt), (t.scaleAt i 0, (n + 31) / 32)]
    else [(t.rowAt i, n * t.esz)])

/-- Blocks of a destination that n columns cover in part, in rows 0 to r − 1: they are read (R93). -/
def Tile.partRead (t : Tile) (r n : Nat) : List (Nat × Nat) :=
  if Fmt.block t.fmt ∧ n % 32 ≠ 0 then
    (List.range r).flatMap (fun i => [(t.rowAt i + n / 32 * blockLen t.fmt, blockLen t.fmt), (t.scaleAt i n, 1)])
  else []

/-- Row i of a COPY: the whole source row is read before the destination row is written. -/
def State.copyRow (s : State) (c : Nat) (d t : Tile) (sat : Bool) (n i : Nat) : State :=
  let m := (s.core c).sp
  if d.fmt = t.fmt then
    (if Fmt.block t.fmt then
      let nb := n / 32
      (s.spWrite c (d.rowAt i) (m.readN (t.rowAt i) (nb * blockLen t.fmt))).spWrite c (d.scaleAt i 0) (m.readN (t.scaleAt i 0) nb)
    else s.spWrite c (d.rowAt i) (m.readN (t.rowAt i) (n * t.esz)))
  else s.storeRowSp c d sat i ((List.range n).map (fun j => toF32 (t.elem m i j)))

/-- The run of a COPY: rows in increasing order. (DEDUCED, assumption 70.) -/
def State.runCopy (s : State) (c id : Nat) (e : Entry) (td ts : TileWord) : State :=
  let d := Tile.of td
  let t := Tile.of ts
  match d.check, t.check with
  | some b, _ => s.finishTile c id e b
  | none, some b => s.finishTile c id e b
  | none, none =>
    let r := min d.rows t.rows
    let n := min d.cols t.cols
    match (s.core c).badIn (t.part r n ++ d.partRead r n) with
    | some w => s.finishEcc c id 2 w
    | none => ((List.range r).foldl (fun s i => s.copyRow c d t e.sat n i) s).finish c id 0

/-- COPY (R93). -/
def execCopy (c : CoreId) (o : EngOp FmtK) (s : State) : Res :=
  .next (match o with
    | .issue h f => s.issueEngine c.val h 0x64 (packK f) (fun k => .copy (k.tget f.td.val) (k.tget f.ts.val))
    | .run id u => s.runEntry c.val id u (fun s e =>
        match e.op with
        | .copy td ts => s.runCopy c.val id e td ts
        | _ => s))

/-- Row i of a COPY.T from the memory `m` as it stood: column i of the source. -/
def State.copyTRow (s : State) (c : Nat) (m : Mem) (d t : Tile) (sat : Bool) (n i : Nat) : State :=
  if d.fmt = t.fmt ∧ ¬ Fmt.block t.fmt then
    s.spWrite c (d.rowAt i) ((List.range n).flatMap (fun j => leBytes t.esz (t.code m j i)))
  else s.storeRowSp c d sat i ((List.range n).map (fun j => toF32 (t.elem m j i)))

/-- What two lists of ranges share. -/
def sharedRanges (a b : List (Nat × Nat)) : List (Nat × Nat) :=
  a.flatMap (fun x => b.filterMap (fun y =>
    let lo := max x.1 y.1
    let hi := min (x.1 + x.2) (y.1 + y.2)
    if lo < hi then some (lo, hi - lo) else none))

/-- Ranges of a core's SP become unspecified (R93). -/
def State.spSmudge (s : State) (c : Nat) (rs : List (Nat × Nat)) : State :=
  if rs.isEmpty then s
  else
    let (g, s) := s.freshJunk
    s.modCore c (fun k => { k with sp := rs.foldl (fun m r => m.smudge r.1 r.2 g) k.sp })

/-- The run of a COPY.T: an overlap of source and destination is left unspecified. (DEDUCED, assumption 70.) -/
def State.runCopyT (s : State) (c id : Nat) (e : Entry) (td ts : TileWord) : State :=
  let d := Tile.of td
  let t := Tile.of ts
  match d.check, t.check with
  | some b, _ => s.finishTile c id e b
  | none, some b => s.finishTile c id e b
  | none, none =>
    let r := min d.rows t.cols
    let n := min d.cols t.rows
    match (s.core c).badIn (t.part n r ++ d.partRead r n) with
    | some w => s.finishEcc c id 2 w
    | none =>
      let m := (s.core c).sp
      let s := (List.range r).foldl (fun s i => s.copyTRow c m d t e.sat n i) s
      (s.spSmudge c (sharedRanges (d.part r n) (t.part n r))).finish c id 0

/-- COPY.T (R93). -/
def execCopyT (c : CoreId) (o : EngOp FmtK) (s : State) : Res :=
  .next (match o with
    | .issue h f => s.issueEngine c.val h 0x65 (packK f) (fun k => .copyT (k.tget f.td.val) (k.tget f.ts.val))
    | .run id u => s.runEntry c.val id u (fun s e =>
        match e.op with
        | .copyT td ts => s.runCopyT c.val id e td ts
        | _ => s))

/-! ### ATOM (R94) -/

/-- An atomic operation on a word of `n` bytes of LM or HM: nothing changes where the word is bad. -/
def State.atomMem (s : State) (us : List Upset) (space off n aop : Nat) (b x : Word) : Bad × Nat × State :=
  let new := fun (old : Nat) => leBytes n (atomVal aop (8 * n) old b.toNat x.toNat false)
  if space = spLM then
    let (bs, bad, s) := s.lmAtomLine us (off / 256) (off % 256) n (fun bs => new (leNat bs))
    (bad, if bad.isBad then 0 else leNat bs, s)
  else
    let (bs, bad, s) := s.readSpace us space off n 0 1
    if bad.isBad then (bad, 0, s)
    else
      let (bad, s) := s.writeSpace us space off 0 1 (new (leNat bs))
      (bad, leNat bs, s)

/-- The run of an ATOM. -/
def State.runAtom (s : State) (us : List Upset) (c id : Nat) (e : Entry) (ra rb rc rd : Word) (cls : Nat) (w64 nr : Bool) (aop : Nat) : State :=
  let n := if w64 then 8 else 4
  if aop = 7 then s.finishUndef c id e
  else if !nr && !spWordOk rd then s.finishRange c id
  else if gSpace ra = spTUM then
    (if w64 then s.finishRange c id else s.tumGlobal c id e ra cls (.atom aop rb rc))
  else if gSpace ra > 1 || gOff ra % n != 0 || !s.addrOk ra n false then s.finishRange c id
  else if s.isHere ra then
    if s.memWaits (gSpace ra) (gOff ra) n then s
    else
    let (bad, old, s) := s.atomMem us (gSpace ra) (gOff ra) n aop rb rc
    (if bad.isBad || nr then s else s.spWrite c rd.toNat (leBytes 8 old)).finishMem c id (gSpace ra) bad
  else if s.padlocked (gMod ra) then s.finish c id Status.padlocked
  else
    let (oid, s) := s.nextOpid (gMod ra)
    let p := { s.ctl PT.atom cls (gMod ra) (s.coreJob c) (gSpace ra) (gOff ra)
        (leBytes 4 oid.toNat ++ leBytes 4 (aop + (if w64 then 8 else 0) + (if nr then 16 else 0)) ++ leBytes 8 rb.toNat ++ leBytes 8 rc.toNat) with opid := oid }
    (s.await c id 1 true).request c id p [] none []

/-- ATOM (R94). -/
def execAtom (c : CoreId) (o : EngOp FmtL) (s : State) : Res :=
  .next (match o with
    | .issue h f => s.issueEngine c.val h 0x66 (packL f) (fun k =>
        .atom (k.sget f.ra.val) (k.sget f.rb.val) (k.sget f.rc.val) (k.sget f.rd.val) f.scope.val f.cls.val f.w64 h.var f.aop.val)
    | .run id u => s.runEntry c.val id u (fun s e =>
        match e.op with
        | .atom ra rb rc rd _ cls w64 nr aop => s.runAtom u c.val id e ra rb rc rd cls w64 nr aop
        | _ => s))

end Sys2Proof.Machine
end

