-- ==== Sys2Proof/Machine/PacketsIn.lean ====
section
/-! DEFINITION. Packets that reach the hub: requests at their home (R277-R282, R419, R420, R425), replies at their
source (R279, R282, R311), replay (R418), timeouts (R421), hold notices (R424) and the PADLOCK of a dead module (R258,
R425, R426). -/

namespace Sys2Proof.Machine

/-! ### A request arrives -/

/-- A request that carries a task's JOB puts its source in the task's peer set (R425). (DEDUCED, assumption 77.) -/
def State.notePeer (s : State) (p : Packet) : State :=
  { s with tasks := s.tasks.map (fun (t : Task) =>
      if p.job ≠ 0 ∧ t.job = p.job ∧ (t.state == .running || t.state == .draining || t.state == .saving || t.state == .preempted || t.state == .restoring)
        ∧ t.peers.contains p.src = false then { t with peers := t.peers ++ [p.src] } else t) }

/-- The PCRC of a data packet passes (R278). -/
def pcrcOk (p : Packet) : Bool := !PT.isData p.typ.val || p.pcrc == BitVec.ofNat 32 (crc32c p.payload)

/-- A packet whose PCRC is wrong is discarded with an S1 record (R278). -/
def State.badPcrc (s : State) (p : Packet) : State :=
  s.raise { Fault_.blank 1 Status.ok 0x0305 with other := p.src, info0 := BitVec.ofNat 64 p.typ.val }

/-- Global offset that a request names. -/
def pktOff (p : Packet) : Nat := unpackOff p.space p.offset

/-- The module does not serve requests: it is not booted far enough, or has fail-stopped (R414). -/
def State.deaf (s : State) : Bool := s.failed

/-- A request of a type is taken from the hub and acted on: nothing for a packet of another type; a wrong PCRC
discards it. -/
def State.takeRequest (s : State) (types : List Nat) (p : Packet) (f : State → State) : State :=
  let s := s.takeHub p
  if s.deaf || !types.contains p.typ.val then s
  else if !pcrcOk p then s.badPcrc p
  else f (s.notePeer p)

/-- A request waits for the domain of a core (R399, R424). -/
def State.holdRequest (s : State) (p : Packet) : State :=
  if s.heldReqs.any (fun h => h.src == p.src && h.tag == p.tag) then s
  else { s with heldReqs := s.heldReqs ++ [{ src := p.src, tag := p.tag, pkt := p }] }

/-- What becomes of a request's access to a range: out of range or of service, waiting for a domain, or served. -/
inductive Reach where
  | range
  | waits
  | open_
  deriving DecidableEq, Repr

/-- The hub's check of a request's range: SP is reached over the link of its leaf (R88, R345, R346, R348, R362, R399).
(DEDUCED, assumption 72.) -/
def State.reach (s : State) (space off n : Nat) : Reach :=
  if space > 3 || n == 0 || !s.rangeOk space off n || s.gone space off n then .range
  else if s.waits space off n || (space == spSP && !s.linkOpen (spCore off / 12)) then .waits
  else .open_

/-- An access of the hub to SP crosses the link of its leaf (R340). -/
def State.crossSp (s : State) (space off : Nat) : State := if space = spSP then s.crossLink (spCore off / 12) else s

/-- The payload of a write lands at its home; the status that its reply carries. -/
def State.landPut (s : State) (p : Packet) (bs : List Byte) : Nat × State :=
  let (b, s) := (s.crossSp p.space (pktOff p)).writeFar [] p.space (pktOff p) 0 1 bs
  (if b.isBad then Status.eccUncorrected else 0, s)

/-- Data bytes of a write request: what follows the fixed fields of a control packet (R277). -/
def putData (p : Packet) : List Byte :=
  if p.typ.val = PT.putSig then (p.payload.take p.count).drop 8
  else if p.typ.val = PT.putMc then (p.payload.take p.count).drop 16
  else if p.typ.val = PT.put then p.payload.take p.count
  else p.payload

/-- A plain write request: land, then acknowledge (R277, R282). -/
def State.servePut (s : State) (p : Packet) : State :=
  let bs := putData p
  match s.reach p.space (pktOff p) bs.length with
  | .range => s.ackTo p Status.addrRange (chargeOf p)
  | .waits => s.holdRequest p
  | .open_ =>
    let (st, s) := s.landPut p bs
    s.ackTo p st (chargeOf p)

/-- PUT packet (R277, R278). -/
def execPutPacket (p : Packet) (s : State) : Res :=
  .next (s.takeRequest [PT.put, PT.putData] p (fun s => s.servePut p))

/-- PUT.MC packet: the copy that the router has delivered to this hub (R95, R310). -/
def execPutMcPacket (p : Packet) (s : State) : Res :=
  .next (s.takeRequest [PT.putMc, PT.putMcData] p (fun s => s.servePut p))

/-- GET packet: GET_RESP, or ACK with a status (R277). -/
def State.serveGet (s : State) (p : Packet) (u : List Upset) : State :=
  let n := leNat (p.payload.take 2)
  if n > 4096 then s.ackTo p Status.addrRange 0
  else match s.reach p.space (pktOff p) n with
  | .range => s.ackTo p Status.addrRange 0
  | .waits => s.holdRequest p
  | .open_ =>
    let s := (s.sramUpsets u).crossSp p.space (pktOff p)
    let (bs, b, s) := s.readFar u p.space (pktOff p) n 0 1
    match b with
    | .none => s.inject (s.replyTo p (if n ≤ 48 then PT.getResp else PT.getRespData) bs)
    | .old _ => s.ackTo p Status.eccUncorrected 0
    | .found o => (s.raise { Fault_.blank 3 Status.eccUncorrected 0x0202 with addr := BitVec.ofNat 64 o, info0 := BitVec.ofNat 64 p.space }).ackTo p Status.eccUncorrected 0

/-- GET packet. -/
def execGetPacket (p : Packet) (u : List Upset) (s : State) : Res :=
  .next (s.takeRequest [PT.get] p (fun s => s.serveGet p u))

/-! ### Operations that are applied once (R419) -/

/-- The OPID of a request: in the payload of a control packet, in the extension of a data packet (R277, R278). -/
def opidOf (p : Packet) : Word32 := if PT.isData p.typ.val then p.opid else BitVec.ofNat 32 (leNat (p.payload.take 4))

/-- The row of a source. -/
def State.dedupRow (s : State) (src : Nat) : Option DRow := s.dedup.find? (fun (r : DRow) => r.src == src)

/-- A row for a source, where it has one or one of the 512 is free; an OPID that has come restarts its 20 ms. (DEDUCED, assumption 72.) -/
def State.rowFor (s : State) (src : Nat) : Option State :=
  match s.dedupRow src with
  | some _ => some { s with dedup := s.dedup.map (fun (r : DRow) => if r.src == src then { r with last := s.clock } else r) }
  | none => if s.dedup.length < 512 then some { s with dedup := s.dedup ++ [{ src := src, ids := [], last := s.clock }] } else none

/-- The recorded status and old value of an OPID. -/
def State.applied? (s : State) (src : Nat) (o : Word32) : Option (Nat × Word) :=
  (s.dedupRow src).bind (fun r => (r.ids.find? (fun x => x.1 == o)).map Prod.snd)

/-- This request is already parked and is answered when its operation is applied. -/
def State.parkedAlready (s : State) (p : Packet) : Bool := s.park.any (fun x => x.issuer == .remote p.src p.tag p.cls.val)

/-- An operation waits for a row (R419). (DEDUCED, assumption 72.) -/
def State.awaitRow (s : State) (p : Packet) : State :=
  if s.dedupWait.any (fun q => q.src == p.src && q.tag == p.tag) then s else { s with dedupWait := s.dedupWait ++ [p] }

/-- Apply an operation to a tumbler of this module for another module; none where the park refuses it, and then the
source sends it again (R182, R188). -/
def State.remoteTum (s : State) (p : Packet) (off : Nat) (op : TumOp) (opid : Option Word32) : Option (Option (Nat × Word32) × State) :=
  match s.tumReach { off := off, op := op, job := some p.job, issuer := .remote p.src p.tag p.cls.val, sender := p.src * 64 + 63, opid := opid } with
  | (.applied st old, s) => some (some (st, old), s)
  | (.parked, s) => match op with
    | .add _ => some (some (0, 0), s)
    | .set _ => some (some (0, 0), s)
    | _ => some (none, s)
  | (.refused, _) => none
  | (.noOwner, s) => some (some (Status.addrRange, 0), s)

/-- Answer of an atomic operation (R277). -/
def State.answerAtom (s : State) (p : Packet) (st : Nat) (old : Word) : State :=
  s.inject (s.replyTo p PT.atomResp (leBytes 8 st ++ leBytes 8 old.toNat))

/-- An operation of a source with a row: not applied again; else applied, recorded and answered. -/
def State.once (s : State) (p : Packet) (answer : State → Nat → Word → State) (f : State → Option (Option (Nat × Word) × State)) : State :=
  match s.rowFor p.src with
  | none => s.awaitRow p
  | some s =>
    let o := opidOf p
    match s.applied? p.src o with
    | some (st, old) => answer s st old
    | none =>
      if s.parkedAlready p then s
      else match f s with
        | none => s.bump Reg.TUM_PARK_STAT_REFUSED 1
        | some (none, s) => s
        | some (some (st, old), s) => answer (s.dedupNote p.src o st old) st old

/-- The atomic operation of a request on a word of LM or HM. -/
def State.remoteAtomMem (s : State) (p : Packet) (u : List Upset) (n aop : Nat) (b x : Word) : Option (Option (Nat × Word) × State) :=
  let off := pktOff p
  if p.space > 1 || off % n != 0 || !s.rangeOk p.space off n then some (some (Status.addrRange, 0), s)
  else
    let (bad, old, s) := (s.sramUpsets u).atomMem u p.space off n aop b x
    match bad with
    | .none => some (some (0, BitVec.ofNat 64 old), s)
    | .old _ => some (some (Status.eccUncorrected, 0), s)
    | .found o => some (some (Status.eccUncorrected, 0), s.raise { Fault_.blank 3 Status.eccUncorrected 0x0202 with addr := BitVec.ofNat 64 o, info0 := BitVec.ofNat 64 p.space })

/-- ATOM request (R94, R277, R419). -/
def State.serveAtom (s : State) (u : List Upset) (p : Packet) : State :=
  let k := leNat ((p.payload.drop 4).take 1)
  let aop := fld k 0 3
  let w64 := k.testBit 3
  if p.space = spLM ∧ s.memWaits spLM (pktOff p) 8 then s.holdRequest p
  else
  let b := BitVec.ofNat 64 (leNat ((p.payload.drop 8).take 8))
  let x := BitVec.ofNat 64 (leNat ((p.payload.drop 16).take 8))
  s.once p (fun s st old => s.answerAtom p st old) (fun s =>
    if aop = 7 then some (some (Status.addrRange, 0), s)
    else if p.space = spTUM then
      (if w64 then some (some (Status.addrRange, 0), s)
       else (s.remoteTum p (pktOff p) (.atom aop b x) (some (opidOf p))).map (fun r => (r.1.map (fun y => (y.1, y.2.setWidth 64)), r.2)))
    else s.remoteAtomMem p u (if w64 then 8 else 4) aop b x)

/-- ATOM packet. -/
def execAtomPacket (p : Packet) (u : List Upset) (s : State) : Res :=
  .next (s.takeRequest [PT.atom] p (fun s => s.serveAtom u p))

/-- A tumbler operation that is answered by ACK. -/
def State.serveTumOp (s : State) (p : Packet) (op : TumOp) : State :=
  s.once p (fun s st _ => s.ackTo p st (chargeOf p)) (fun s =>
    if p.space ≠ spTUM then some (some (Status.addrRange, 0), s)
    else (s.remoteTum p (pktOff p) op (some (opidOf p))).map (fun r => (r.1.map (fun y => (y.1, y.2.setWidth 64)), r.2)))

/-- TUM_ADD request (R182, R277). -/
def State.serveTumAdd (s : State) (p : Packet) : State := s.serveTumOp p (.add (sext 32 (leNat ((p.payload.drop 4).take 4))))

/-- TUM_SET request (R182, R277). -/
def State.serveTumSet (s : State) (p : Packet) : State := s.serveTumOp p (.set (BitVec.ofNat 32 (leNat ((p.payload.drop 4).take 4))))

/-- TUM_ADD packet. -/
def execTumAddPacket (p : Packet) (s : State) : Res :=
  .next (s.takeRequest [PT.tumAdd] p (fun s => s.serveTumAdd p))

/-- TUM_SET packet. -/
def execTumSetPacket (p : Packet) (s : State) : Res :=
  .next (s.takeRequest [PT.tumSet] p (fun s => s.serveTumSet p))

/-- TUM_READ packet: it carries no OPID (R182, R277). -/
def execTumReadPacket (p : Packet) (s : State) : Res :=
  .next (s.takeRequest [PT.tumRead] p (fun s =>
    let answer := fun (s : State) (st : Nat) (old : Word32) => s.inject (s.replyTo p PT.tumResp (leBytes 4 st ++ leBytes 4 old.toNat))
    if p.space ≠ spTUM then answer s Status.addrRange 0
    else if s.parkedAlready p then s
    else match s.remoteTum p (pktOff p) .read none with
      | some (some (st, old), s) => answer s st old
      | some (none, s) => s
      | none => s.bump Reg.TUM_PARK_STAT_REFUSED 1))

/-! ### PUT.SIG at its destination (R280, R420) -/

/-- The signal of a PUT.SIG is applied, once by its OPID; what it meets is charged to the tumbler's owner, and a tumbler
without owner answers ADDR_RANGE.  None where the park refuses it. (DEDUCED, assumption 71.) -/
def State.applySignal (s : State) (p : Packet) (opid : Word32) (off inc : Nat) : Option (Nat × State) :=
  match s.applied? p.src opid with
  | some (st, _) => some (st, s)
  | none => match s.remoteTum p off (.add inc) (some opid) with
    | none => none
    | some (some (st, _), s) =>
      if st = Status.addrRange then some (st, s.dedupNote p.src opid st 0)
      else some (0, (s.chargeOwner off p.src 0xFF st).dedupNote p.src opid 0 0)
    | some (none, s) => some (0, s)

/-- Control PUT.SIG: data, then signal, then the ACK (R276, R280). -/
def State.serveSigControl (s : State) (p : Packet) : State :=
  let bs := putData p
  match s.reach p.space (pktOff p) bs.length with
  | .range => s.ackTo p Status.addrRange (chargeOf p)
  | .waits => s.holdRequest p
  | .open_ => match s.rowFor p.src with
    | none => s.awaitRow p
    | some s =>
      let (st, s') := s.landPut p bs
      if st ≠ 0 then s'.ackTo p st (chargeOf p)
      else match s'.applySignal p (opidOf p) (8 * leNat ((p.payload.drop 6).take 2)) (leNat ((p.payload.drop 4).take 2)) with
        | some (st, s) => s.ackTo p st (chargeOf p)
        | none => s.bump Reg.TUM_PARK_STAT_REFUSED 1

/-- The count of a (SRC, SIGREF). -/
def State.sigCount (s : State) (p : Packet) : SigCount :=
  (s.sigs.find? (fun (x : SigCount) => x.src == p.src && x.sigref == p.sigref)).getD
    { src := p.src, sigref := p.sigref, landed := 0, tags := [], sig := none, job := p.job, last := 0 }

/-- The count with a packet entered: each packet once, by its TAG (R420). -/
def SigCount.enter (x : SigCount) (p : Packet) (now : Nat) : SigCount :=
  { x with landed := if x.tags.contains p.tag then x.landed else x.landed + p.payload.length,
           tags := if x.tags.contains p.tag then x.tags else x.tags ++ [p.tag],
           sig := if p.sig then some (p.opid, p.inc, p.sigtum, p.sigbytes) else x.sig, last := now }

/-- Data PUT.SIG: the bytes land and are counted; once the signal's fields are there and the count has reached SIGBYTES
the signal is applied.  The packet's ACK follows its landing (R280). -/
def State.serveSigData (s : State) (p : Packet) : State :=
  match s.reach p.space (pktOff p) p.payload.length with
  | .range => s.ackTo p Status.addrRange (chargeOf p)
  | .waits => s.holdRequest p
  | .open_ =>
    let x := (s.sigCount p).enter p s.clock
    let rest := s.sigs.filter (fun (y : SigCount) => !(y.src == p.src && y.sigref == p.sigref))
    let landed := fun (s : State) =>
      let (st, s) := s.landPut p p.payload
      if st ≠ 0 then s.ackTo p st (chargeOf p) else { s with sigs := rest ++ [x] }.ackTo p 0 (chargeOf p)
    match x.sig with
    | some (o, inc, tum, total) =>
      match s.rowFor p.src with
      | none => s.awaitRow p
      | some s =>
        if x.landed < total then landed s
        else
          let (st, s') := s.landPut p p.payload
          if st ≠ 0 then s'.ackTo p st (chargeOf p)
          else match { s' with sigs := rest }.applySignal p o (8 * tum) inc with
            | some (st, s) => s.ackTo p st (chargeOf p)
            | none => s.bump Reg.TUM_PARK_STAT_REFUSED 1
    | none => landed s

/-- A PUT.SIG request. (DEDUCED, assumption 71.) -/
def State.serveSig (s : State) (p : Packet) : State :=
  if p.typ.val = PT.putSig then s.serveSigControl p else s.serveSigData p

/-- PUT.SIG packet. -/
def execPutSigPacket (p : Packet) (s : State) : Res :=
  .next (s.takeRequest [PT.putSig, PT.putSigData] p (fun s => s.serveSig p))

/-- PUT_SIG_COUNT_EXPIRY: a count that has made no progress for 20 ms is discarded (R417). (DEDUCED, assumption 71.) -/
def execPutSigCountExpiry (src sigref : Nat) (s : State) : Res :=
  .next { s with sigs := s.sigs.filter (fun (x : SigCount) =>
    !(x.src == src && x.sigref == sigref && decide (x.last + State.msTicks 20 ≤ s.clock))) }

/-- An operation that has waited for a row is served as when it came. -/
def State.serveOp (s : State) (p : Packet) : State :=
  let t := p.typ.val
  if t = PT.atom then s.serveAtom [] p
  else if t = PT.tumAdd then s.serveTumAdd p
  else if t = PT.tumSet then s.serveTumSet p
  else s.serveSig p

/-- DEDUP_ROW_GRANT: the operations of a source that wait for a row get one, in their order, once one is free
(R419). (DEDUCED, assumption 72.) -/
def execDedupRowGrant (src : Nat) (s : State) : Res :=
  .next (if s.deaf || (s.dedupRow src).isNone && decide (s.dedup.length ≥ 512) then s
    else
      let due := s.dedupWait.filter (fun (p : Packet) => p.src == src)
      due.foldl (fun s p => s.serveOp p) { s with dedupWait := s.dedupWait.filter (fun (p : Packet) => p.src != src) })

/-- DEDUP_ROW_FREE: a row idle for 20 ms is freed (R419). -/
def execDedupRowFree (src : Nat) (s : State) : Res :=
  .next { s with dedup := s.dedup.filter (fun (r : DRow) => !(r.src == src && decide (r.last + State.msTicks 20 ≤ s.clock))) }

/-! ### Poison (R426) -/

/-- Byte of a repeated pattern of `w` bytes at an address. -/
def patternByte (v w a : Nat) : Byte := BitVec.ofNat 8 (fld v (8 * (a % w)) 8)

/-- Bytes of a repeated pattern over a range of SP. -/
def patternBytes (v w : Nat) (r : Nat × Nat) : List Byte := (List.range r.2).map (fun i => patternByte v w (r.1 + i))

/-- Poison fills a tile: 0xDEAD elements in a 16-bit tile, else 0x7FC0_DEAD words. -/
def State.poisonTile (s : State) (c : Nat) (t : Tile) : State :=
  let w16 := t.fmt == Fmt.bf16 || t.fmt == Fmt.fp16
  t.ranges.foldl (fun s r => s.spWrite c r.1 (if w16 then patternBytes 0xDEAD 2 r else patternBytes 0x7FC0DEAD 4 r)) s

/-- The 8-byte poison of an old value or a count. -/
def poison8 : List Byte := leBytes 8 0x7FC0DEAD7FC0DEAD

/-- Poison fills all that a failed instruction would have written. (DEDUCED, assumption 74.) -/
def State.poison (s : State) (c : Nat) (e : Entry) : State :=
  match e.op with
  | .get td _ _ _ _ => s.poisonTile c (Tile.of td)
  | .atom _ _ _ rd _ _ _ nr _ => if nr then s else s.spWrite c rd.toNat poison8
  | .tumReadG _ rb _ => s.spWrite c rb.toNat poison8
  | _ => s

/-! ### Replies (R279, R282, R311) -/

/-- One part of an instruction has been answered.  An instruction that has sent a packet again completes only once no
late copy can land (R418). -/
def State.answered (s : State) (c id status : Nat) : State :=
  s.modEntry c id (fun e =>
    let e := e.partDone status
    match e.phase with
    | .done _ => if s.lateCopy c id then { e with phase := .waiting, late := true } else e
    | _ => e)

/-- A status of a request, with the cause that its record will carry (R413). -/
def State.answeredBad (s : State) (x : Txn) (status : Nat) : State :=
  let s := if status = Status.eccUncorrected then
      s.modEntry x.core x.id (fun e => if e.bad = 0 then { e with cause := 0x0202, addr := BitVec.ofNat 64 (pktOff x.pkt), info := BitVec.ofNat 64 x.pkt.space } else e)
    else s
  s.answered x.core x.id status

/-- A part of a pre-issued read has returned, or met a status (R63, R64). -/
def State.preAnswered (s : State) (x : Txn) (pid status : Nat) (ds : List (Nat × List Byte)) : State :=
  match (s.core x.core).preRead.find? (fun p => p.pid == pid) with
  | none => s
  | some p =>
    let q := { p with left := p.left - 1, bad := if p.bad = 0 then status else p.bad, parts := p.parts ++ ds }
    let s := s.modCore x.core (fun k => { k with preRead := k.preRead.map (fun y => if y.pid == pid then q else y) })
    if q.left = 0 then
      match q.bound, decide (q.bad = Status.targetDead) with
      | some id, true => (match (s.core x.core).entry? id with | some e => s.poison x.core e | none => s).preReturn x.core q q.bad
      | _, _ => s.preReturn x.core q q.bad
    else s

/-- A destination of a PUT.MC joins the miss report. -/
def State.noteMiss (s : State) (c id m : Nat) : State :=
  s.modEntry c id (fun e => { e with missed := e.missed.put (rackBit m) (Tab.get e.missed 0 (rackBit m) ||| BitVec.twoPow 64 (inRackBit m)) })

/-- Some destinations of a multicast have answered; the last one of the last packet completes the PUT.MC with its miss
report (R95).  A multicast that draws no acknowledgement keeps its entry until its own instruction completes (R118). -/
def State.mcAnswered (s : State) (x : Txn) (ds : List Nat) : State :=
  let left := x.mcLeft.filter (fun m => !ds.contains m)
  if left.isEmpty ∧ x.pkt.typ.val ≠ PT.kvUpdate then
    let s := s.closeTxn x.tag
    match (s.core x.core).entry? x.id with
    | some e => match e.op with
      | .putMc _ _ _ _ rd _ _ =>
        if e.left ≤ 1 then
          let s := s.finishMc x.core x.id rd
          if s.lateCopy x.core x.id then
            s.modEntry x.core x.id (fun e => match e.phase with | .done st => { e with phase := .waiting, left := 0, bad := st, late := true } | _ => e)
          else s
        else s.modEntry x.core x.id (fun e => { e with left := e.left - 1 })
      | _ => s
    | none => s
  else { s with txns := s.txns.map (fun (y : Txn) => if y.tag == x.tag then { y with mcLeft := left } else y) }

/-- A reply at its source: the transaction that it answers, or a stray (R279). (DEDUCED, assumption 74.) -/
def State.takeReply (s : State) (types : List Nat) (p : Packet) (f : State → Txn → State) : State :=
  let s := s.takeHub p
  if s.deaf || !types.contains p.typ.val then s
  else if !pcrcOk p then s.badPcrc p
  else match s.txnOf p with
    | some x => f s x
    | none => s.strayReply p

/-- ACK (R277, R282, R311). (DESIGN CHOICE, assumption 82.) -/
def execAck (p : Packet) (s : State) : Res :=
  .next (s.takeReply [PT.ack] p (fun s x =>
    let st := leNat (p.payload.take 1)
    if PT.multicast x.pkt.typ.val then
      let s := if !x.mcLeft.contains p.src then s
        else if st = Status.padlocked then s.noteMiss x.core x.id p.src
        else if st ≠ 0 then s.modEntry x.core x.id (fun e => { e with bad := if e.bad = 0 then st else e.bad })
        else s
      s.mcAnswered x [p.src]
    else
      let s := s.closeTxnWin x.tag (leNat ((p.payload.drop 4).take 4))
      match x.pre with
      | some pid => s.preAnswered x pid st []
      | none => s.answeredBad x st))

/-- GET_RESP: its data lands in SP, or in the run-ahead buffer (R277, R63). -/
def execGetResp (p : Packet) (s : State) : Res :=
  .next (s.takeReply [PT.getResp, PT.getRespData] p (fun s x =>
    let s := s.closeTxn x.tag
    let ds := scatter x.dest p.payload
    match x.pre with
    | some pid => s.preAnswered x pid 0 ds
    | none => if ((s.core x.core).entry? x.id).isSome then (s.landPieces x.core ds).answered x.core x.id 0 else s))

/-- The operation was applied at its home, saturated or not (R81, R94). -/
def wasApplied (st : Nat) : Bool := st == 0 || st == Status.tumUnderflow || st == Status.tumOverflow

/-- ATOM_RESP: the old value lands where it is wanted (R94, R277). -/
def execAtomResp (p : Packet) (s : State) : Res :=
  .next (s.takeReply [PT.atomResp] p (fun s x =>
    let s := s.closeTxn x.tag
    let st := leNat (p.payload.take 1)
    match (s.core x.core).entry? x.id with
    | none => s
    | some e =>
      let s := match e.op with
        | .atom _ _ _ rd _ _ _ nr _ => if !nr && wasApplied st then s.spWrite x.core rd.toNat ((p.payload.drop 8).take 8) else s
        | _ => s
      s.answeredBad x st))

/-- TUM_RESP: the count, zero-extended (R85, R277). -/
def execTumResp (p : Packet) (s : State) : Res :=
  .next (s.takeReply [PT.tumResp] p (fun s x =>
    let s := s.closeTxn x.tag
    let st := leNat (p.payload.take 1)
    match (s.core x.core).entry? x.id with
    | none => s
    | some e =>
      let s := match e.op with
        | .tumReadG _ rb _ => if st = 0 then s.spWrite x.core rb.toNat (leBytes 8 (leNat ((p.payload.drop 4).take 4))) else s
        | _ => s
      s.answeredBad x st))

/-- MC_MISS: the missed destinations join the miss report (R95, R311). -/
def execMcMiss (p : Packet) (s : State) : Res :=
  .next (s.takeReply [PT.mcMiss] p (fun s x =>
    let ds := (maskMembers (maskOf ((p.payload.drop 8).take 16))).filter (fun m => x.mcLeft.contains m)
    (ds.foldl (fun s m => s.noteMiss x.core x.id m) s).mcAnswered x ds))

/-! ### A target that does not answer (R98, R421, R425) -/

/-- Close a transaction whose packet may still wait for C0 tokens. -/
def State.cutTxn (s : State) (x : Txn) : State :=
  { s with c0Held := s.c0Held.filter (fun h => h.2.2 != x.pkt) }.closeTxn x.tag

/-- An instruction whose target is dead completes with TARGET_DEAD and poison; its other packets go with it. (DEDUCED, assumption 74.) -/
def State.targetDead (s : State) (c id : Nat) : State :=
  let s := (s.txns.filter (fun (x : Txn) => x.core == c && x.id == id && x.pre.isNone && !x.spent)).foldl (fun s x => s.cutTxn x) s
  match (s.core c).entry? id with
  | some e => (s.poison c e).modEntry c id (fun e => { e with phase := .done Status.targetDead, bad := Status.targetDead, left := 0, sigDue := none })
  | none => s

/-- One request toward a dead module ends. -/
def State.deadTxn (s : State) (x : Txn) (m : Nat) : State :=
  if PT.multicast x.pkt.typ.val then
    (if x.mcLeft.contains m then (s.noteMiss x.core x.id m).mcAnswered x [m] else s)
  else match x.pre with
    | some pid => (s.cutTxn x).preAnswered x pid Status.targetDead []
    | none => s.targetDead x.core x.id

/-- A PUT.SIG whose signal for a module is still withheld. -/
def State.sigToward (s : State) (m : Nat) (e : Entry) : Bool :=
  e.sigDue.isSome && (match e.op with | .putSig _ ra .. => !s.isHere ra && gMod ra == m | _ => false)

/-- Instructions whose signal for a dead module is withheld complete with TARGET_DEAD (R98). (DEDUCED, assumption 71.) -/
def State.deadSignals (s : State) (m : Nat) : State :=
  (List.range 48).foldl (fun s c => ((s.core c).window.filter (s.sigToward m)).foldl (fun s e => s.targetDead c e.id) s) s

/-- Every request toward a module ends (R425). -/
def State.deadTarget (s : State) (m : Nat) : State :=
  ((s.deadSignals m).txns.filter (fun (x : Txn) => !x.spent && (x.pkt.dst == m || PT.multicast x.pkt.typ.val))).foldl (fun s x =>
    match s.txns.find? (fun (y : Txn) => y.tag == x.tag && !y.spent) with
    | some y => s.deadTxn y m
    | none => s) (s.deadSignals m)

/-- PADLOCK_SET: within 200 µs of a declaration the entry of the dead module is padlocked, and requests toward it end
(R258, R425). -/
def execPadlockSet (m : Nat) (s : State) : Res :=
  .next (if s.failed || !s.padDue.contains m then s
    else
      let s := { s with padDue := s.padDue.filter (fun x => x != m) }.setPadlock m true
      s.deadTarget m)

/-- The outstanding request of a TAG, which a reply will answer (R418, R421). -/
def State.outstanding (s : State) (tag : Nat) : Option Txn :=
  s.txns.find? (fun (x : Txn) => x.tag == tag && !x.spent && !x.held && x.pkt.typ.val != PT.kvUpdate)

/-- REQUEST_TIMEOUT: 10 ms without a reply or a hold notice (R421). (DEDUCED, assumption 74; DESIGN CHOICE, assumption 6.) -/
def execRequestTimeout (tag : Nat) (s : State) : Res :=
  .next (match s.outstanding tag with
    | none => s
    | some x =>
      if s.failed || decide (s.clock < x.heard + State.msTicks 10) then s
      else
        let s := s.raise { Fault_.blank 0 Status.targetDead 0x0904 with
          core := x.core, job := x.pkt.job, other := x.pkt.dst, info0 := BitVec.ofNat 64 tag }
        if PT.multicast x.pkt.typ.val then (x.mcLeft.foldl (fun s m => s.noteMiss x.core x.id m) s).mcAnswered x x.mcLeft
        else s.deadTxn x x.pkt.dst)

/-! ### Replay (R418) -/

/-- A replay of core c toward a module: one S2 record per core and 1 ms, with the packets sent again since the
last (R418). (DEDUCED, assumption 61.) -/
def State.noteReplay (s : State) (c dst : Nat) : State :=
  let s := s.bumpK Reg.ERR_STAT_REPLAY_K 1
  let due := match s.replays.lookup c with
    | some (t, n) => if s.clock ≥ t + State.msTicks 1 then some (n + 1) else none
    | none => some 1
  match due with
  | some n => { s with replays := s.replays.put c (s.clock, 0) }.raise { Fault_.blank 2 Status.replayed 0x0302 with core := c, info0 := BitVec.ofNat 64 n, other := dst }
  | none => match s.replays.lookup c with
    | some (t, n) => { s with replays := s.replays.put c (t, n + 1) }
    | none => s

/-- A request as it leaves again: its identifiers stay, and its data are read again from their source (R418). (DEDUCED, assumption 61.) -/
def State.again (s : State) (x : Txn) : Packet :=
  if x.source.isEmpty then x.pkt
  else
    let bs := (s.core x.core).gather x.source
    { x.pkt with
      payload := x.pkt.payload.take (x.pkt.payload.length - bs.length) ++ bs
      pcrc := if PT.isData x.pkt.typ.val then BitVec.ofNat 32 (crc32c bs) else x.pkt.pcrc }

/-- The data of a request cannot be read again: the request ends, and its instruction completes with ECC_UNCORRECTED
(R422). -/
def State.againBad (s : State) (x : Txn) (w : Nat) : State :=
  let s := (s.cutTxn x).modEntry x.core x.id (fun e =>
    if e.bad = 0 then { e with cause := 0x0202, addr := BitVec.ofNat 64 w, info := BitVec.ofNat 64 spSP, bad := Status.eccUncorrected } else e)
  if PT.multicast x.pkt.typ.val then s.mcAnswered x x.mcLeft else s.answered x.core x.id Status.eccUncorrected

/-- REQUEST_RESEND: 300 µs after the last send without a reply or a hold notice the packet leaves again (R418). (DEDUCED, assumption 61.) -/
def execRequestResend (tag : Nat) (s : State) : Res :=
  .next (match s.outstanding tag with
    | none => s
    | some x =>
      if s.failed || decide (s.clock < x.last + State.usTicks 300) then s
      else match (s.core x.core).badIn x.source with
        | some w => s.againBad x w
        | none =>
          let s := { s with txns := s.txns.map (fun (y : Txn) => if y.tag == tag then { y with resent := true, last := s.clock } else y) }
          (s.sendFree x.core (s.again x)).noteReplay x.core x.pkt.dst)

/-! ### Hold notices (R424) -/

/-- HOLD_NOTICE: the request's timeouts start again. -/
def execHoldNotice (tag : Nat) (s : State) : Res :=
  let s := s.takeNotice 6
  .next { s with txns := s.txns.map (fun (x : Txn) => if x.tag == tag && !x.held && !x.spent then { x with heard := s.clock, last := s.clock } else x) }

/-- Requests of other modules that this hub holds: parked, waiting for a domain, or waiting for a row. -/
def State.heldFor (s : State) : List (Nat × Nat) :=
  s.heldReqs.map (fun h => (h.src, h.tag)) ++ s.dedupWait.map (fun (p : Packet) => (p.src, p.tag))
    ++ s.park.filterMap (fun p => match p.issuer, p.op with
      | .remote src tag _, .read => some (src, tag)
      | .remote src tag _, .atom _ _ _ => some (src, tag)
      | _, _ => none)

/-- HOLD_NOTICE_SEND: a hold notice in C1 for each held request. (DEDUCED, assumption 72.) -/
def execHoldNoticeSend (s : State) : Res :=
  .next (if s.failed then s
    else s.heldFor.foldl (fun s h => s.inject (s.ctl PT.notice 1 h.1 0 0 0 (leBytes 10 6 ++ leBytes 2 h.2))) s)

end Sys2Proof.Machine
end

