-- ==== Sys2Proof/Machine/Sampling.lean ====
section
/-! DEFINITION. The sampling unit: candidate lists, draws and speculative acceptance (R114-R116, R212, R213). -/

namespace Sys2Proof.Machine

/-! ### Parameter block and lists -/

/-- A sampling parameter block after its clamps. -/
structure SampParams where
  temp    : Word32
  topP    : Word32
  topK    : Nat
  penalty : Word32
  listAt  : Nat
  listN   : Nat
  deriving DecidableEq, Repr

/-- A 32-bit word at a byte of a record. -/
def recWord (b : List Byte) (i : Nat) : Word32 := BitVec.ofNat 32 (leNat ((b.drop i).take 4))

/-- The block's fields and ranges (R114). (DESIGN CHOICE, assumption 26; DESIGN CHOICE, assumption 82.) -/
def sampParams (b : List Byte) : SampParams :=
  let t := recWord b 0
  let p := recWord b 4
  let q := recWord b 12
  { temp := if (f32 t).lt .zero then 0 else t,
    topP := if (f32 p).le .zero then 1 else if Num.one.lt (f32 p) then f32One else p,
    topK := max 1 (min 256 (leNat ((b.drop 8).take 2))),
    penalty := if (f32 q).lt Num.one then f32One else q,
    listAt := leNat ((b.drop 16).take 4), listN := min 1024 (leNat ((b.drop 10).take 2)) }

/-- An entry of a list or row: token and FP32 value. -/
abbrev Cand := Word32 × Word32

/-- Order of a list: value descending, lower identifier first among equals; a NaN comes last. (DESIGN CHOICE, assumption 82.) -/
def candBefore (a b : Cand) : Bool :=
  let x := f32 a.2
  let y := f32 b.2
  if x.isNan then y.isNan && a.1.ult b.1
  else if y.isNan then true
  else y.lt x || (!(x.lt y) && a.1.ult b.1)

/-- Insert into an ordered list. -/
def candInsert (a : Cand) : List Cand → List Cand
  | [] => [a]
  | b :: r => if candBefore a b then a :: b :: r else b :: candInsert a r

/-- The k first entries in order. -/
def topCands (k : Nat) (xs : List Cand) : List Cand := xs.foldl (fun l a => (candInsert a l).take k) []

/-- Fill a list up to 256 entries with unused ones. -/
def padCands (v : Word32) (xs : List Cand) : List Cand := xs ++ List.replicate (256 - xs.length) (BitVec.allOnes 32, v)

/-- Bytes of a list. -/
def candBytes (xs : List Cand) : List Byte := xs.flatMap (fun a => leBytes 4 a.1.toNat ++ leBytes 4 a.2.toNat)

/-- Read a list of 256 entries from SP. -/
def Core.candsAt (k : Core) (at_ : Nat) : List Cand :=
  (List.range 256).map (fun i => (recWord (k.sp.readN (at_ + 8 * i) 4) 0, recWord (k.sp.readN (at_ + 8 * i + 4) 4) 0))

/-- FP32 division, one rounding. -/
def fdiv (a b : Word32) : Word32 := divF32 (f32 a) (f32 b)

/-- Row r of a tile of lists: STRIDE below 2,048 is clamped to 2,048 (R115). -/
def listAt (t : Tile) (r : Nat) : Nat := t.base + r * max 2048 t.stride

/-- A tile of n list rows lies in SP. -/
def listsFit (t : Tile) (n : Nat) : Bool := t.base % 64 == 0 && n ≤ t.rows && decide (listAt t (n - 1) + 2048 ≤ spSize)

/-- Ranges of n list rows. -/
def listRanges (t : Tile) (n : Nat) : List (Nat × Nat) := (List.range n).map (fun r => (listAt t r, 2048))

/-! ### SAMP.SLICE (R114) -/

/-- A parameter block lies at a multiple of 64 of SP, and its penalty list too. (DESIGN CHOICE, assumption 26.) -/
def Core.sampBlock (k : Core) (rb : Word) : Option SampParams :=
  if rb.toNat % 64 ≠ 0 ∨ !(spFits rb 64) then none
  else
    let p := sampParams (k.sp.readN rb.toNat 64)
    if p.listN ≠ 0 ∧ (p.listAt % 64 ≠ 0 ∨ p.listAt + 4 * p.listN > spSize) then none else some p

/-- A logit with penalty and temperature. -/
def SampParams.adjust (p : SampParams) (listed : Bool) (l : Word32) : Word32 :=
  let l := if listed then (if Num.zero.lt (f32 l) then fdiv l p.penalty else fmul l p.penalty) else l
  if Num.zero.lt (f32 p.temp) then fdiv l p.temp else l

/-- SAMP.SLICE: RB names the parameter block, RC the token of column 0, RD the candidate list. -/
def execSampSlice (c : CoreId) (o : EngOp FmtX) (s : State) : Res :=
  .next (match o with
    | .issue h f => s.issueEngine c.val h 0xB8 (packX f) (fun k => .sampSlice (k.tget f.ts.val) (k.sget f.rb.val) (k.sget f.rc.val) (k.sget f.rd.val))
    | .run id u => s.runEntry c.val id u (fun s e =>
        match e.op with
        | .sampSlice ts rb rc rd =>
          let t := Tile.of ts
          let k := s.core c.val
          if t.fmt > 1 then s.finishUndef c.val id e
          else match t.check, k.sampBlock rb with
            | none, some p =>
              if !(spFits rd 2048) then s.finishRange c.val id
              else match k.badIn [(t.rowAt 0, t.rowLen), (rb.toNat, 64), (p.listAt, 4 * p.listN)] with
                | some w => s.finishEcc c.val id 2 w
                | none =>
                  let pen := (List.range p.listN).map (fun i => recWord (k.sp.readN (p.listAt + 4 * i) 4) 0)
                  let cs := (t.rowWords k.sp 0 t.cols).zipIdx.map (fun l =>
                    let tok := rc.setWidth 32 + BitVec.ofNat 32 l.2
                    ((tok, p.adjust (pen.contains tok) l.1) : Cand))
                  (s.spWrite c.val rd.toNat (candBytes (padCands f32NegInf (topCands p.topK cs)))).finish c.val id 0
            | _, _ => s.finishRange c.val id
        | _ => s))

/-! ### SAMP.MERGE (R115) -/

/-- First entry whose running sum exceeds u. -/
def pickRun (u : Word32) : Word32 → List Cand → Option Cand
  | _, [] => none
  | acc, a :: r => let t := fadd acc a.2; if (f32 u).lt (f32 t) then some a else pickRun u t r

/-- The drawn entry.  Where rounding leaves every running sum at or below u, the spec names no entry: a free choice
among them, the same for the same draw and the same entries (R213). (DESIGN CHOICE, assumption 26.) -/
def pick (u : Word32) (xs : List Cand) : Cand :=
  (pickRun u 0 xs).getD ((xs[Config.samplePick u xs % xs.length]?).getD (BitVec.allOnes 32, 0))

/-- The shortest prefix whose sum is at least TOP_P. -/
def topPrefix (p : Word32) : Word32 → List Cand → List Cand
  | _, [] => []
  | acc, a :: r => let t := fadd acc a.2; if (f32 p).le (f32 t) then [a] else a :: topPrefix p t r

def candSum (xs : List Cand) : Word32 := xs.foldl (fun a x => fadd a x.2) 0

/-- Divide every value by the sum. -/
def normCands (xs : List Cand) : List Cand := let t := candSum xs; xs.map (fun a => (a.1, fdiv a.2 t))

/-- Probabilities of the candidates, cut by TOP_P and renormalised. -/
def mergeDist (p : SampParams) (cs : List Cand) : List Cand :=
  let top := match cs with | a :: _ => a.2 | [] => f32NegInf
  normCands (topPrefix p.topP 0 (normCands (cs.map (fun a => (a.1, expF (fsub a.2 top))))))

/-- The 16-byte token record. -/
def tokenRecord (tok prob : Word32) (counter : Word) : List Byte := leBytes 4 tok.toNat ++ leBytes 4 prob.toNat ++ leBytes 8 counter.toNat

/-- A draw of a sequence waits while the table is being cleared, or an update of the sequence has arrived and is not
applied (R211, R215). -/
def State.drawWaits (s : State) (q : Nat) : Bool := s.rdb Reg.KV_CTL_CLEAR || s.kvUpdateDue q

/-- SAMP.MERGE: RA names the sequence, RB the parameter block, RC the token record, RD the distribution row. -/
def execSampMerge (c : CoreId) (o : EngOp FmtX) (s : State) : Res :=
  .next (match o with
    | .issue h f => s.issueEngine c.val h 0xB9 (packX f) (fun k => .sampMerge (k.tget f.ts.val) (k.sget f.ra.val) (k.sget f.rb.val) (k.sget f.rc.val) (k.sget f.rd.val))
    | .run id u => s.runEntry c.val id u (fun s e =>
        match e.op with
        | .sampMerge ts ra rb rc rd =>
          let t := Tile.of ts
          let k := s.core c.val
          match t.check, k.sampBlock rb with
          | some b, _ => s.finishTile c.val id e b
          | none, none => s.finishRange c.val id
          | none, some p =>
            if !(listsFit t t.rows && spFits rc 16 && spFits rd 2048) then s.finishRange c.val id
            else match k.badIn ((rb.toNat, 64) :: listRanges t t.rows) with
              | some w => s.finishEcc c.val id 2 w
              | none =>
                let cs := topCands p.topK ((List.range t.rows).flatMap (fun r => k.candsAt (listAt t r)))
                if (f32 p.temp).le .zero then
                  let tok := (cs.headD (BitVec.allOnes 32, 0)).1
                  ((s.spWrite c.val rd.toNat (candBytes (padCands 0 [(tok, f32One)]))).spWrite c.val rc.toNat
                    (tokenRecord tok f32One (BitVec.allOnes 64))).finish c.val id 0
                else if s.drawWaits ra.toNat then s
                else match s.draw ra.toNat with
                  | none => s.finishRange c.val id
                  | some (u, ctr, s) =>
                    let d := mergeDist p cs
                    let a := pick u d
                    ((s.spWrite c.val rd.toNat (candBytes (padCands 0 d))).spWrite c.val rc.toNat (tokenRecord a.1 a.2 ctr)).finish c.val id 0
        | _ => s))

/-! ### SAMP.ACCEPT (R116) -/

/-- Value of a token in a distribution row, 0 when it is absent. -/
def distAt (d : List Cand) (t : Word32) : Word32 := match d.find? (fun a => a.1 == t) with | some a => a.2 | none => 0

/-- Entries of a row that hold a token. -/
def usedCands (d : List Cand) : List Cand := d.filter (fun a => a.1 != BitVec.allOnes 32)

/-- The residual max(0, P − Q), normalised. -/
def residual (p q : List Cand) : List Cand := normCands ((usedCands p).map (fun a => (a.1, fmax 0 (fsub a.2 (distAt q a.1)))))

/-- The acceptance loop from draft `a` on: accepted count, next token, and the state after the draws. -/
def State.acceptLoop (s : State) (q : Nat) (ps qs : List (List Cand)) : List Word32 → Nat → Option (Nat × Word32 × State)
  | [], a => do
    let (u, _, s) ← s.draw q
    some (a, (pick u (usedCands (ps.getD a []))).1, s)
  | t :: rest, a => do
    let p := distAt (ps.getD a []) t
    let v := distAt (qs.getD a []) t
    let (u, _, s) ← s.draw q
    if (f32 v).le .zero || (f32 (fdiv p v)).le (f32 u) then
      let (u2, _, s) ← s.draw q
      some (a, (pick u2 (residual (ps.getD a []) (qs.getD a []))).1, s)
    else s.acceptLoop q ps qs rest (a + 1)

/-- SAMP.ACCEPT: RA names the sequence, RB the drafted tokens, RC their number, RD the result record. -/
def execSampAccept (c : CoreId) (o : EngOp FmtX) (s : State) : Res :=
  .next (match o with
    | .issue h f => s.issueEngine c.val h 0xBA (packX f) (fun k =>
        .sampAccept (k.tget f.ts.val) (k.tget f.tq.val) (k.sget f.ra.val) (k.sget f.rb.val) (k.sget f.rc.val) (k.sget f.rd.val))
    | .run id u => s.runEntry c.val id u (fun s e =>
        match e.op with
        | .sampAccept ts tq ra rb rc rd =>
          let t := Tile.of ts
          let w := Tile.of tq
          let k := s.core c.val
          let n := max 1 (min 64 rc.toNat)
          match t.check.orElse (fun _ => w.check) with
          | some b => s.finishTile c.val id e b
          | none =>
          if !(listsFit t (n + 1) && listsFit w n && spFits rb (4 * n) && spFits rd 16) then s.finishRange c.val id
          else match k.badIn ((rb.toNat, 4 * n) :: (listRanges t (n + 1) ++ listRanges w n)) with
            | some x => s.finishEcc c.val id 2 x
            | none =>
              if s.drawWaits ra.toNat then s
              else
                let ps := (List.range (n + 1)).map (fun r => k.candsAt (listAt t r))
                let qs := (List.range n).map (fun r => k.candsAt (listAt w r))
                let toks := (List.range n).map (fun i => recWord (k.sp.readN (rb.toNat + 4 * i) 4) 0)
                match s.acceptLoop ra.toNat ps qs toks 0 with
                | none => s.finishRange c.val id
                | some (a, tok, s) =>
                  let ctr := match s.seq? ra.toNat with | some x => x.counter | none => 0
                  (s.spWrite c.val rd.toNat (leBytes 4 a ++ leBytes 4 tok.toNat ++ leBytes 8 ctr.toNat)).finish c.val id 0
        | _ => s))

end Sys2Proof.Machine
end

