-- ==== Sys2Proof/Machine/Scalar.lean ====
section
/-! DEFINITION. Scalar, predicate, tile-descriptor, branch and NOP/END instructions (R66, R77-R80). -/

namespace Sys2Proof.Machine

/-- Operand b of formats A and B (R77). -/
def Core.srcB (k : Core) (h : Hdr) (b : SrcB) : Word :=
  match b with
  | .reg rb => k.sget rb.val
  | .imm v => h.immS v

/-- Operand b of format C (R77). -/
def Core.srcC (k : Core) (h : Hdr) (b : SrcC) : Word :=
  match b with
  | .reg rb => k.sget rb.val
  | .imm v => h.immS v

/-- Operand bits of formats A and B (R76). -/
def packAB (rd ra : Fin 64) (b : SrcB) : Nat :=
  rd.val * 2 ^ 31 + ra.val * 2 ^ 25 + (match b with | .reg rb => rb.val * 2 ^ 19 | .imm v => v.toNat)

/-- Operand bits of format C (R76). -/
def packC (pd : Fin 8) (ra : Fin 64) (b : SrcC) : Nat :=
  pd.val * 2 ^ 34 + ra.val * 2 ^ 28 + (match b with | .reg rb => rb.val * 2 ^ 22 | .imm v => v.toNat)

/-- The immediate form of an arithmetic opcode is the next code (R75). -/
def srcBOpc (b : SrcB) (o : Nat) : Nat := match b with | .reg _ => o | .imm _ => o + 1

/-- The immediate forms of CMP lie six codes on (R75). -/
def srcCOpc (b : SrcC) (o : Nat) : Nat := match b with | .reg _ => o | .imm _ => o + 6

/-- An arithmetic instruction writes `f a b` to RD (R77). -/
def State.alu (s : State) (c : CoreId) (h : Hdr) (opc : Nat) (rd ra : Fin 64) (b : SrcB) (f : Word → Word → Word) : State :=
  s.issueCore c.val h (srcBOpc b opc) (packAB rd ra b) (fun k => k.sset rd.val (f (k.sget ra.val) (k.srcB h b)))

/-- A compare writes `ra cc b` to PD (R77). -/
def State.cmp (s : State) (c : CoreId) (h : Hdr) (opc : Nat) (pd : Fin 8) (ra : Fin 64) (b : SrcC) (cc : Cond) : State :=
  s.issueCore c.val h (srcCOpc b opc) (packC pd ra b) (fun k => k.pset pd.val (cc.holds (k.sget ra.val) (k.srcC h b)))

/-- A predicate instruction writes `f pa pb` to PD (R77). -/
def State.pred (s : State) (c : CoreId) (h : Hdr) (opc : Nat) (pd pa pb : Fin 8) (f : Bool → Bool → Bool) : State :=
  s.issueCore c.val h opc (pd.val * 2 ^ 34 + pa.val * 2 ^ 31 + pb.val * 2 ^ 28) (fun k => k.pset pd.val (f (k.pget pa.val) (k.pget pb.val)))

/-- ADD (R77). -/
def execAdd (c : CoreId) (h : Hdr) (rd ra : Fin 64) (b : SrcB) (s : State) : Res :=
  .next (s.alu c h 0x02 rd ra b (fun a b => a + b))

/-- SUB (R77). -/
def execSub (c : CoreId) (h : Hdr) (rd ra : Fin 64) (b : SrcB) (s : State) : Res :=
  .next (s.alu c h 0x04 rd ra b (fun a b => a - b))

/-- MUL: the low 64 bits (R77). -/
def execMul (c : CoreId) (h : Hdr) (rd ra : Fin 64) (b : SrcB) (s : State) : Res :=
  .next (s.alu c h 0x06 rd ra b (fun a b => a * b))

/-- AND (R77). -/
def execAnd (c : CoreId) (h : Hdr) (rd ra : Fin 64) (b : SrcB) (s : State) : Res :=
  .next (s.alu c h 0x08 rd ra b (fun a b => a &&& b))

/-- OR (R77). -/
def execOr (c : CoreId) (h : Hdr) (rd ra : Fin 64) (b : SrcB) (s : State) : Res :=
  .next (s.alu c h 0x0A rd ra b (fun a b => a ||| b))

/-- XOR (R77). -/
def execXor (c : CoreId) (h : Hdr) (rd ra : Fin 64) (b : SrcB) (s : State) : Res :=
  .next (s.alu c h 0x0C rd ra b (fun a b => a ^^^ b))

/-- SHL by b[5:0] (R77). -/
def execShl (c : CoreId) (h : Hdr) (rd ra : Fin 64) (b : SrcB) (s : State) : Res :=
  .next (s.alu c h 0x0E rd ra b (fun a b => a <<< (fld b.toNat 0 6)))

/-- SHR by b[5:0] (R77). -/
def execShr (c : CoreId) (h : Hdr) (rd ra : Fin 64) (b : SrcB) (s : State) : Res :=
  .next (s.alu c h 0x10 rd ra b (fun a b => a >>> (fld b.toNat 0 6)))

/-- SRA by b[5:0] (R77). -/
def execSra (c : CoreId) (h : Hdr) (rd ra : Fin 64) (b : SrcB) (s : State) : Res :=
  .next (s.alu c h 0x12 rd ra b (fun a b => a.sshiftRight (fld b.toNat 0 6)))

/-- MIN, signed (R77). -/
def execMin (c : CoreId) (h : Hdr) (rd ra : Fin 64) (b : SrcB) (s : State) : Res :=
  .next (s.alu c h 0x14 rd ra b (fun a b => if a.slt b then a else b))

/-- MAX, signed (R77). -/
def execMax (c : CoreId) (h : Hdr) (rd ra : Fin 64) (b : SrcB) (s : State) : Res :=
  .next (s.alu c h 0x16 rd ra b (fun a b => if a.slt b then b else a))

/-- MINU, unsigned (R77). -/
def execMinu (c : CoreId) (h : Hdr) (rd ra : Fin 64) (b : SrcB) (s : State) : Res :=
  .next (s.alu c h 0x18 rd ra b (fun a b => if a.ult b then a else b))

/-- MAXU, unsigned (R77). -/
def execMaxu (c : CoreId) (h : Hdr) (rd ra : Fin 64) (b : SrcB) (s : State) : Res :=
  .next (s.alu c h 0x1A rd ra b (fun a b => if a.ult b then b else a))

/-- LI: RD takes the immediate; RA is ignored (R77). -/
def execLi (c : CoreId) (h : Hdr) (rd : Fin 64) (imm : BitVec 25) (s : State) : Res :=
  .next (s.issueCore c.val h 0x1C (rd.val * 2 ^ 31 + imm.toNat) (fun k => k.sset rd.val (h.immS imm)))

/-- Address of LD and ST: RA plus the immediate (R78). -/
def Core.ldAddr (k : Core) (h : Hdr) (ra : Fin 64) (imm : BitVec 25) : Nat := (k.sget ra.val + h.immS imm).toNat

/-- An address that LD and ST accept: a multiple of 8, at most 0x27F_FFF8 (R78). -/
def ldOk (a : Nat) : Bool := a % 8 == 0 && decide (a ≤ 0x27FFFF8)

/-- LD: 8 bytes of this core's SP; a bad address, or a word that the check bits find uncorrectable, leaves RD
unchanged and is task-fatal (R78, R422). -/
def execLd (c : CoreId) (h : Hdr) (rd ra : Fin 64) (imm : BitVec 25) (u : List Upset) (s : State) : Res :=
  .next (s.issue c.val h 0x1E (rd.val * 2 ^ 31 + ra.val * 2 ^ 25 + imm.toNat) (fun s =>
    let s := s.sramUpsets u
    let k := s.core c.val
    let a := k.ldAddr h ra imm
    if !ldOk a then s.seqFatal c.val Status.addrRange 0x0102 0
    else
      let (bs, bad) := k.spRead a 8
      if bad.isBad then
        s.coreFatal c.val { status := Status.eccUncorrected, cause := 0x0202, unit := 0, ip := k.ip, addr := BitVec.ofNat 64 a, info := 2 }
      else (s.modCore c.val (fun k => k.sset rd.val (BitVec.ofNat 64 (leNat bs)))).advance c.val h.words))

/-- ST: the value of RD goes to 8 bytes of this core's SP; a bad address writes nothing (R78). -/
def execSt (c : CoreId) (h : Hdr) (rd ra : Fin 64) (imm : BitVec 25) (s : State) : Res :=
  .next (s.issue c.val h 0x1F (rd.val * 2 ^ 31 + ra.val * 2 ^ 25 + imm.toNat) (fun s =>
    let k := s.core c.val
    let a := k.ldAddr h ra imm
    if !ldOk a then s.seqFatal c.val Status.addrRange 0x0102 0
    else (s.spWrite c.val a (leBytes 8 (k.sget rd.val).toNat)).advance c.val h.words))

/-- CMP.EQ (R77). -/
def execCmpEq (c : CoreId) (h : Hdr) (pd : Fin 8) (ra : Fin 64) (b : SrcC) (s : State) : Res :=
  .next (s.cmp c h 0x20 pd ra b .eq)

/-- CMP.NE (R77). -/
def execCmpNe (c : CoreId) (h : Hdr) (pd : Fin 8) (ra : Fin 64) (b : SrcC) (s : State) : Res :=
  .next (s.cmp c h 0x21 pd ra b .ne)

/-- CMP.LT (R77). -/
def execCmpLt (c : CoreId) (h : Hdr) (pd : Fin 8) (ra : Fin 64) (b : SrcC) (s : State) : Res :=
  .next (s.cmp c h 0x22 pd ra b .lt)

/-- CMP.LTU (R77). -/
def execCmpLtu (c : CoreId) (h : Hdr) (pd : Fin 8) (ra : Fin 64) (b : SrcC) (s : State) : Res :=
  .next (s.cmp c h 0x23 pd ra b .ltu)

/-- CMP.GE (R77). -/
def execCmpGe (c : CoreId) (h : Hdr) (pd : Fin 8) (ra : Fin 64) (b : SrcC) (s : State) : Res :=
  .next (s.cmp c h 0x24 pd ra b .ge)

/-- CMP.GEU (R77). -/
def execCmpGeu (c : CoreId) (h : Hdr) (pd : Fin 8) (ra : Fin 64) (b : SrcC) (s : State) : Res :=
  .next (s.cmp c h 0x25 pd ra b .geu)

/-- PAND (R77). -/
def execPand (c : CoreId) (h : Hdr) (pd pa pb : Fin 8) (s : State) : Res :=
  .next (s.pred c h 0x2C pd pa pb (fun a b => a && b))

/-- POR (R77). -/
def execPor (c : CoreId) (h : Hdr) (pd pa pb : Fin 8) (s : State) : Res :=
  .next (s.pred c h 0x2D pd pa pb (fun a b => a || b))

/-- PXOR (R77). -/
def execPxor (c : CoreId) (h : Hdr) (pd pa pb : Fin 8) (s : State) : Res :=
  .next (s.pred c h 0x2E pd pa pb (fun a b => a != b))

/-- PNOT (R77). -/
def execPnot (c : CoreId) (h : Hdr) (pd pa : Fin 8) (s : State) : Res :=
  .next (s.pred c h 0x2F pd pa 0 (fun a _ => !a))

/-! ### Branches (R80) -/

/-- Go on at word `t`; a target outside 0-32,767 completes the task on that core with ADDR_RANGE (R51). -/
def State.jumpTo (s : State) (c : Nat) (t : Int) : State :=
  if t < 0 ∨ t > 32767 then s.seqFatal c Status.addrRange 0x0102 0
  else s.modCore c (fun k => { k with ip := t.toNat, dwTaken := false, stall := none })

/-- BR: the target is the word index of the branch's base word plus the signed offset (R80). -/
def execBr (c : CoreId) (h : Hdr) (off : BitVec 16) (s : State) : Res :=
  .next (s.issue c.val h 0x30 off.toNat (fun s => s.jumpTo c.val ((s.core c.val).ip + (h.immS off).toInt)))

/-- LOOP: decrements RA and branches unless the decremented value is 0; the test is of the value itself, so
LOOP on s0 always branches (R80). -/
def execLoop (c : CoreId) (h : Hdr) (ra : Fin 64) (off : BitVec 16) (s : State) : Res :=
  .next (s.issue c.val h 0x31 (ra.val * 2 ^ 31 + off.toNat) (fun s =>
    let k := s.core c.val
    let v := k.sget ra.val - 1
    let s := s.modCore c.val (fun k => k.sset ra.val v)
    if v ≠ 0 then s.jumpTo c.val (k.ip + (h.immS off).toInt) else s.advance c.val h.words))

/-- JR: goes on at the word that RA names (R80). -/
def execJr (c : CoreId) (h : Hdr) (ra : Fin 64) (s : State) : Res :=
  .next (s.issue c.val h 0x32 (ra.val * 2 ^ 31) (fun s => s.jumpTo c.val ((s.core c.val).sget ra.val).toNat))

/-! ### Tile descriptors (R79) -/

/-- Low bit and width of the descriptor field that FSEL selects; none for the undefined FSEL 8-15. -/
def fselField (f : Nat) : Option (Nat × Nat) :=
  match f with
  | 0 => some (0, 26) | 1 => some (26, 4) | 2 => some (32, 16) | 3 => some (48, 16)
  | 4 => some (64, 26) | 5 => some (96, 24) | 6 => some (0, 64) | 7 => some (64, 64)
  | _ => none

/-- A descriptor with a field replaced by the low bits of a value. -/
def tdSetField (w : TileWord) (lo width v : Nat) : TileWord := BitVec.ofNat 128 (setFld w.toNat lo width v)

/-- An instruction on the field that FSEL selects; an FSEL of 8-15 is an undefined encoding. (DEDUCED, assumption 69.) -/
def State.tdField (s : State) (c : CoreId) (h : Hdr) (opc operands : Nat) (fsel : Fin 16) (f : Nat → Nat → Core → Core) : State :=
  s.issue c.val h opc operands (fun s =>
    match fselField fsel.val with
    | none => s.seqFatal c.val Status.addrRange 0x0101 (s.core c.val).fetched
    | some (lo, w) => (s.modCore c.val (f lo w)).advance c.val h.words)

/-- TD.SET: the low word from RX, the high word from RY (R79). -/
def execTdSet (c : CoreId) (h : Hdr) (td : Fin 32) (rx ry : Fin 64) (s : State) : Res :=
  .next (s.issueCore c.val h 0x34 (td.val * 2 ^ 32 + rx.val * 2 ^ 22 + ry.val * 2 ^ 16) (fun k =>
    k.tset td.val (k.sget ry.val ++ k.sget rx.val)))

/-- TD.SETF: the field takes RX truncated (R79). -/
def execTdSetf (c : CoreId) (h : Hdr) (td : Fin 32) (fsel : Fin 16) (rx : Fin 64) (s : State) : Res :=
  .next (s.tdField c h 0x35 (td.val * 2 ^ 32 + fsel.val * 2 ^ 28 + rx.val * 2 ^ 22) fsel (fun lo w k =>
    k.tset td.val (tdSetField (k.tget td.val) lo w (k.sget rx.val).toNat)))

/-- TD.SETFI: the field takes the immediate truncated (R79). -/
def execTdSetfi (c : CoreId) (h : Hdr) (td : Fin 32) (fsel : Fin 16) (imm : BitVec 22) (s : State) : Res :=
  .next (s.tdField c h 0x36 (td.val * 2 ^ 32 + fsel.val * 2 ^ 28 + imm.toNat) fsel (fun lo w k =>
    k.tset td.val (tdSetField (k.tget td.val) lo w (h.immS imm).toNat)))

/-- TD.ADDF: the immediate is added to the field modulo 2^width (R79). -/
def execTdAddf (c : CoreId) (h : Hdr) (td : Fin 32) (fsel : Fin 16) (imm : BitVec 22) (s : State) : Res :=
  .next (s.tdField c h 0x37 (td.val * 2 ^ 32 + fsel.val * 2 ^ 28 + imm.toNat) fsel (fun lo w k =>
    k.tset td.val (tdSetField (k.tget td.val) lo w (fld (k.tget td.val).toNat lo w + (h.immS imm).toNat))))

/-- TD.GETF: RX takes the field, zero-extended (R79). -/
def execTdGetf (c : CoreId) (h : Hdr) (td : Fin 32) (fsel : Fin 16) (rx : Fin 64) (s : State) : Res :=
  .next (s.tdField c h 0x38 (td.val * 2 ^ 32 + fsel.val * 2 ^ 28 + rx.val * 2 ^ 22) fsel (fun lo w k =>
    k.sset rx.val (BitVec.ofNat 64 (fld (k.tget td.val).toNat lo w))))

/-! ### NOP and END -/

/-- NOP: in queue 0 nothing beyond its dispatch wait; in an engine queue it completes without effect (R80). -/
def execNop (c : CoreId) (o : EngOp Unit) (s : State) : Res :=
  .next (match o with
    | .issue h _ => s.issue c.val h 0x00 0 (fun s =>
        if h.q.val = 0 then s.advance c.val h.words else s.enqueue c.val h .nop)
    | .run id u => s.runEntry c.val id u (fun s e => if e.op = .nop then s.finish c.val id 0 else s))

/-- END: stops issue until every issued instruction of the core has retired, and ends the core's fillers (R66, R137). -/
def execEndOp (c : CoreId) (h : Struck Hdr) (s : State) : Res :=
  .next (s.issue c.val h.arg 0x01 0 (fun s =>
    (s.endFillers c.val h.upsets).modCore c.val (fun k => { k with ending := true, stall := some .ending })))

/-- END finishes: every issued instruction has retired, the effect of FENCE.SYSTEM is performed and the core
is marked finished (R66, R67). -/
def execEndFinish (c : CoreId) (s : State) : Res :=
  let k := s.core c.val
  .next (if s.failed = false ∧ k.state = 1 ∧ k.ending = true ∧ k.finished = false ∧ k.window = [] then
      s.modCore c.val (fun k => { k with finished := true, stall := none, preRead := [] })
    else s)

end Sys2Proof.Machine
end

