-- ==== Sys2Proof/Machine/Dispatch.lean ====
section
/-! DEFINITION. What each command does: one arm per row of the table of operations and events. -/

namespace Sys2Proof.Machine

def exec (i : Instr) (s : State) : Host.Outcome State Fault Refusal :=
  match i with
  | .nop c o => Sys2Proof.Machine.execNop c o s
  | .endOp c h => Sys2Proof.Machine.execEndOp c h s
  | .endFinish c => Sys2Proof.Machine.execEndFinish c s
  | .add c h rd ra b => Sys2Proof.Machine.execAdd c h rd ra b s
  | .sub c h rd ra b => Sys2Proof.Machine.execSub c h rd ra b s
  | .mul c h rd ra b => Sys2Proof.Machine.execMul c h rd ra b s
  | .and c h rd ra b => Sys2Proof.Machine.execAnd c h rd ra b s
  | .or c h rd ra b => Sys2Proof.Machine.execOr c h rd ra b s
  | .xor c h rd ra b => Sys2Proof.Machine.execXor c h rd ra b s
  | .shl c h rd ra b => Sys2Proof.Machine.execShl c h rd ra b s
  | .shr c h rd ra b => Sys2Proof.Machine.execShr c h rd ra b s
  | .sra c h rd ra b => Sys2Proof.Machine.execSra c h rd ra b s
  | .min c h rd ra b => Sys2Proof.Machine.execMin c h rd ra b s
  | .max c h rd ra b => Sys2Proof.Machine.execMax c h rd ra b s
  | .minu c h rd ra b => Sys2Proof.Machine.execMinu c h rd ra b s
  | .maxu c h rd ra b => Sys2Proof.Machine.execMaxu c h rd ra b s
  | .li c h rd imm => Sys2Proof.Machine.execLi c h rd imm s
  | .ld c h rd ra imm u => Sys2Proof.Machine.execLd c h rd ra imm u s
  | .st c h rd ra imm => Sys2Proof.Machine.execSt c h rd ra imm s
  | .cmpEq c h pd ra b => Sys2Proof.Machine.execCmpEq c h pd ra b s
  | .cmpNe c h pd ra b => Sys2Proof.Machine.execCmpNe c h pd ra b s
  | .cmpLt c h pd ra b => Sys2Proof.Machine.execCmpLt c h pd ra b s
  | .cmpLtu c h pd ra b => Sys2Proof.Machine.execCmpLtu c h pd ra b s
  | .cmpGe c h pd ra b => Sys2Proof.Machine.execCmpGe c h pd ra b s
  | .cmpGeu c h pd ra b => Sys2Proof.Machine.execCmpGeu c h pd ra b s
  | .pand c h pd pa pb => Sys2Proof.Machine.execPand c h pd pa pb s
  | .por c h pd pa pb => Sys2Proof.Machine.execPor c h pd pa pb s
  | .pxor c h pd pa pb => Sys2Proof.Machine.execPxor c h pd pa pb s
  | .pnot c h pd pa => Sys2Proof.Machine.execPnot c h pd pa s
  | .br c h off => Sys2Proof.Machine.execBr c h off s
  | .loop c h ra off => Sys2Proof.Machine.execLoop c h ra off s
  | .jr c h ra => Sys2Proof.Machine.execJr c h ra s
  | .tdSet c h td rx ry => Sys2Proof.Machine.execTdSet c h td rx ry s
  | .tdSetf c h td fsel rx => Sys2Proof.Machine.execTdSetf c h td fsel rx s
  | .tdSetfi c h td fsel imm => Sys2Proof.Machine.execTdSetfi c h td fsel imm s
  | .tdAddf c h td fsel imm => Sys2Proof.Machine.execTdAddf c h td fsel imm s
  | .tdGetf c h td fsel rx => Sys2Proof.Machine.execTdGetf c h td fsel rx s
  | .tumAdd c o => Sys2Proof.Machine.execTumAdd c o s
  | .tumWait c o => Sys2Proof.Machine.execTumWait c o s
  | .tumSet c o => Sys2Proof.Machine.execTumSet c o s
  | .tumRead c h o => Sys2Proof.Machine.execTumRead c h o s
  | .tumWaitG c h o => Sys2Proof.Machine.execTumWaitG c h o s
  | .tumAlloc c h o => Sys2Proof.Machine.execTumAlloc c h o s
  | .tumFree c h o => Sys2Proof.Machine.execTumFree c h o s
  | .tumAddG c o => Sys2Proof.Machine.execTumAddG c o s
  | .tumSetG c o => Sys2Proof.Machine.execTumSetG c o s
  | .tumReadG c o => Sys2Proof.Machine.execTumReadG c o s
  | .fenceCore c h => Sys2Proof.Machine.execFenceCore c h s
  | .fenceModule c h => Sys2Proof.Machine.execFenceModule c h s
  | .fenceSystem c h => Sys2Proof.Machine.execFenceSystem c h s
  | .get c o => Sys2Proof.Machine.execGet c o s
  | .put c o => Sys2Proof.Machine.execPut c o s
  | .putSig c o => Sys2Proof.Machine.execPutSig c o s
  | .putMc c o => Sys2Proof.Machine.execPutMc c o s
  | .copy c o => Sys2Proof.Machine.execCopy c o s
  | .copyT c o => Sys2Proof.Machine.execCopyT c o s
  | .atom c o => Sys2Proof.Machine.execAtom c o s
  | .mmLds c o => Sys2Proof.Machine.execMmLds c o s
  | .mm c o => Sys2Proof.Machine.execMm c o s
  | .mmDrain c o => Sys2Proof.Machine.execMmDrain c o s
  | .mmFill c o => Sys2Proof.Machine.execMmFill c o s
  | .mv c o => Sys2Proof.Machine.execMv c o s
  | .vld c o => Sys2Proof.Machine.execVld c o s
  | .vst c o => Sys2Proof.Machine.execVst c o s
  | .vadd c o => Sys2Proof.Machine.execVadd c o s
  | .vsub c o => Sys2Proof.Machine.execVsub c o s
  | .vmul c o => Sys2Proof.Machine.execVmul c o s
  | .vfma c o => Sys2Proof.Machine.execVfma c o s
  | .vmax c o => Sys2Proof.Machine.execVmax c o s
  | .vmin c o => Sys2Proof.Machine.execVmin c o s
  | .vcvt c o => Sys2Proof.Machine.execVcvt c o s
  | .vred c o => Sys2Proof.Machine.execVred c o s
  | .vfn c o => Sys2Proof.Machine.execVfn c o s
  | .vfnD c o => Sys2Proof.Machine.execVfnD c o s
  | .vtload c o => Sys2Proof.Machine.execVtload c o s
  | .vrowNorm c o => Sys2Proof.Machine.execVrowNorm c o s
  | .vrowNormb c o => Sys2Proof.Machine.execVrowNormb c o s
  | .vrowSmax c o => Sys2Proof.Machine.execVrowSmax c o s
  | .vrowSmaxb c o => Sys2Proof.Machine.execVrowSmaxb c o s
  | .sampSlice c o => Sys2Proof.Machine.execSampSlice c o s
  | .sampMerge c o => Sys2Proof.Machine.execSampMerge c o s
  | .sampAccept c o => Sys2Proof.Machine.execSampAccept c o s
  | .kvNew c o => Sys2Proof.Machine.execKvNew c o s
  | .kvFree c o => Sys2Proof.Machine.execKvFree c o s
  | .kvExt c o => Sys2Proof.Machine.execKvExt c o s
  | .kvPut c o => Sys2Proof.Machine.execKvPut c o s
  | .kvGet c o => Sys2Proof.Machine.execKvGet c o s
  | .kvDetent c o => Sys2Proof.Machine.execKvDetent c o s
  | .kvCommit c o => Sys2Proof.Machine.execKvCommit c o s
  | .kvRollback c o => Sys2Proof.Machine.execKvRollback c o s
  | .collOpen c o => Sys2Proof.Machine.execCollOpen c o s
  | .collPub c o => Sys2Proof.Machine.execCollPub c o s
  | .collGroupAdmit c id => Sys2Proof.Machine.execCollGroupAdmit c id s
  | .dispatch c q => Sys2Proof.Machine.execDispatch c q s
  | .instructionComplete c id => Sys2Proof.Machine.execInstructionComplete c id s
  | .sequencerWake c => Sys2Proof.Machine.execSequencerWake c s
  | .runAheadReadReturn c ip u => Sys2Proof.Machine.execRunAheadReadReturn c ip u s
  | .fillerRampDown c me u => Sys2Proof.Machine.execFillerRampDown c me u s
  | .arraySelfTest c me pass => Sys2Proof.Machine.execArraySelfTest c me pass s
  | .doorbellTail q width v => Sys2Proof.Machine.execDoorbellTail q width v s
  | .doorbellCplHead q width v => Sys2Proof.Machine.execDoorbellCplHead q width v s
  | .commandRead q r => Sys2Proof.Machine.execCommandRead q r s
  | .cmdNop q => Sys2Proof.Machine.execCmdNop q s
  | .submit q u => Sys2Proof.Machine.execSubmit q u s
  | .kill q => Sys2Proof.Machine.execKill q s
  | .barrier q => Sys2Proof.Machine.execBarrier q s
  | .completionEntryWrite q => Sys2Proof.Machine.execCompletionEntryWrite q s
  | .taskPlace t pick u => Sys2Proof.Machine.execTaskPlace t pick u s
  | .taskStart t => Sys2Proof.Machine.execTaskStart t s
  | .preemptRequest t pick => Sys2Proof.Machine.execPreemptRequest t pick s
  | .preemptSave t => Sys2Proof.Machine.execPreemptSave t s
  | .preemptAbandon t => Sys2Proof.Machine.execPreemptAbandon t s
  | .preemptSaveDone t u => Sys2Proof.Machine.execPreemptSaveDone t u s
  | .taskRestore t => Sys2Proof.Machine.execTaskRestore t s
  | .taskRestoreDone t u => Sys2Proof.Machine.execTaskRestoreDone t u s
  | .taskEnd t => Sys2Proof.Machine.execTaskEnd t s
  | .tumHostAdd v => Sys2Proof.Machine.execTumHostAdd v s
  | .parkRetry c id => Sys2Proof.Machine.execParkRetry c id s
  | .deadlockSample t => Sys2Proof.Machine.execDeadlockSample t s
  | .deadlockFire t => Sys2Proof.Machine.execDeadlockFire t s
  | .c0TokenRefill => Sys2Proof.Machine.execC0TokenRefill s
  | .cacheFlush => Sys2Proof.Machine.execCacheFlush s
  | .cacheFlushDone => Sys2Proof.Machine.execCacheFlushDone s
  | .cacheUnprotect => Sys2Proof.Machine.execCacheUnprotect s
  | .cacheUnprotectDone => Sys2Proof.Machine.execCacheUnprotectDone s
  | .scrubLine q off f => Sys2Proof.Machine.execScrubLine q off f s
  | .refresh ch bank => Sys2Proof.Machine.execRefresh ch bank s
  | .oscSample ch driftPs corrections => Sys2Proof.Machine.execOscSample ch driftPs corrections s
  | .lmRetrainDone ch pass => Sys2Proof.Machine.execLmRetrainDone ch pass s
  | .lmRepairDone ch pass => Sys2Proof.Machine.execLmRepairDone ch pass s
  | .marginSlice m last pins => Sys2Proof.Machine.execMarginSlice m last pins s
  | .pageMoveDone k u => Sys2Proof.Machine.execPageMoveDone k u s
  | .pageReclaim => Sys2Proof.Machine.execPageReclaim s
  | .kvClear => Sys2Proof.Machine.execKvClear s
  | .kvConfigApply => Sys2Proof.Machine.execKvConfigApply s
  | .storeSlotGrant => Sys2Proof.Machine.execStoreSlotGrant s
  | .collConsumedTimeout gid seq chunk => Sys2Proof.Machine.execCollConsumedTimeout gid seq chunk s
  | .abortTripleExpiry gid seq => Sys2Proof.Machine.execAbortTripleExpiry gid seq s
  | .putPacket p => Sys2Proof.Machine.execPutPacket p s
  | .putSigPacket p => Sys2Proof.Machine.execPutSigPacket p s
  | .putMcPacket p => Sys2Proof.Machine.execPutMcPacket p s
  | .getPacket p u => Sys2Proof.Machine.execGetPacket p u s
  | .atomPacket p u => Sys2Proof.Machine.execAtomPacket p u s
  | .tumAddPacket p => Sys2Proof.Machine.execTumAddPacket p s
  | .tumSetPacket p => Sys2Proof.Machine.execTumSetPacket p s
  | .tumReadPacket p => Sys2Proof.Machine.execTumReadPacket p s
  | .kvUpdate p => Sys2Proof.Machine.execKvUpdate p s
  | .ack p => Sys2Proof.Machine.execAck p s
  | .getResp p => Sys2Proof.Machine.execGetResp p s
  | .atomResp p => Sys2Proof.Machine.execAtomResp p s
  | .tumResp p => Sys2Proof.Machine.execTumResp p s
  | .mcMiss p => Sys2Proof.Machine.execMcMiss p s
  | .collDataPacket p => Sys2Proof.Machine.execCollDataPacket p s
  | .receipt p => Sys2Proof.Machine.execReceipt p s
  | .consumed p => Sys2Proof.Machine.execConsumed p s
  | .resend p copy u => Sys2Proof.Machine.execResend p copy u s
  | .collAbort p => Sys2Proof.Machine.execCollAbort p s
  | .done p => Sys2Proof.Machine.execDone p s
  | .miss p => Sys2Proof.Machine.execMiss p s
  | .frameTx port => Sys2Proof.Machine.execFrameTx port s
  | .frameRx port f => Sys2Proof.Machine.execFrameRx port f s
  | .markerTx port => Sys2Proof.Machine.execMarkerTx port s
  | .markerRx port lanes => Sys2Proof.Machine.execMarkerRx port lanes s
  | .trainingMarkerRx port phys sync body adapted => Sys2Proof.Machine.execTrainingMarkerRx port phys sync body adapted s
  | .trainingTimeout port => Sys2Proof.Machine.execTrainingTimeout port s
  | .trainingRetry port => Sys2Proof.Machine.execTrainingRetry port s
  | .heartbeat port module nport state time => Sys2Proof.Machine.execHeartbeat port module nport state time s
  | .vcsel port vc => Sys2Proof.Machine.execVcsel port vc s
  | .abort port vc => Sys2Proof.Machine.execAbort port vc s
  | .syncReq port => Sys2Proof.Machine.execSyncReq port s
  | .sync port counts => Sys2Proof.Machine.execSync port counts s
  | .laneMask port mask mgen => Sys2Proof.Machine.execLaneMask port mask mgen s
  | .laneReq port lane restore => Sys2Proof.Machine.execLaneReq port lane restore s
  | .violation port code vc recent => Sys2Proof.Machine.execViolation port code vc recent s
  | .down port cause => Sys2Proof.Machine.execDown port cause s
  | .key port module nport adapter retry matched key => Sys2Proof.Machine.execKey port module nport adapter retry matched key s
  | .creditInit port counts => Sys2Proof.Machine.execCreditInit port counts s
  | .reject port status module nport => Sys2Proof.Machine.execReject port status module nport s
  | .heartbeatTimeout port => Sys2Proof.Machine.execHeartbeatTimeout port s
  | .keyingRepeat port => Sys2Proof.Machine.execKeyingRepeat port s
  | .linkEnterService port => Sys2Proof.Machine.execLinkEnterService port s
  | .linkDown port cause => Sys2Proof.Machine.execLinkDown port cause s
  | .wardExpiry port => Sys2Proof.Machine.execWardExpiry port s
  | .lkEnableWrite port enable => Sys2Proof.Machine.execLkEnableWrite port enable s
  | .retrain port => Sys2Proof.Machine.execRetrain port s
  | .packetRoute p arrived => Sys2Proof.Machine.execPacketRoute p arrived s
  | .routerHeadTimeout k => Sys2Proof.Machine.execRouterHeadTimeout k s
  | .linkDownNotice module nport cause => Sys2Proof.Machine.execLinkDownNotice module nport cause s
  | .linkUpNotice module nport => Sys2Proof.Machine.execLinkUpNotice module nport s
  | .recompute => Sys2Proof.Machine.execRecompute s
  | .tableFlip => Sys2Proof.Machine.execTableFlip s
  | .partitionTimeout => Sys2Proof.Machine.execPartitionTimeout s
  | .declaration m cause => Sys2Proof.Machine.execDeclaration m cause s
  | .padlockSet m => Sys2Proof.Machine.execPadlockSet m s
  | .jobFatalNotice job status origin => Sys2Proof.Machine.execJobFatalNotice job status origin s
  | .holdNotice tag => Sys2Proof.Machine.execHoldNotice tag s
  | .holdNoticeSend => Sys2Proof.Machine.execHoldNoticeSend s
  | .requestResend tag => Sys2Proof.Machine.execRequestResend tag s
  | .requestTimeout tag => Sys2Proof.Machine.execRequestTimeout tag s
  | .dedupRowGrant src => Sys2Proof.Machine.execDedupRowGrant src s
  | .dedupRowFree src => Sys2Proof.Machine.execDedupRowFree src s
  | .putSigCountExpiry src sigref => Sys2Proof.Machine.execPutSigCountExpiry src sigref s
  | .faultHandle => Sys2Proof.Machine.execFaultHandle s
  | .errIrqDeferred => Sys2Proof.Machine.execErrIrqDeferred s
  | .moduleFailStop cause info => Sys2Proof.Machine.execModuleFailStop cause info s
  | .failStopPortsDown => Sys2Proof.Machine.execFailStopPortsDown s
  | .fdRejoinModule m => Sys2Proof.Machine.execFdRejoinModule m s
  | .fdRejoinAll => Sys2Proof.Machine.execFdRejoinAll s
  | .errRingWrite v => Sys2Proof.Machine.execErrRingWrite v s
  | .latchSample angle => Sys2Proof.Machine.execLatchSample angle s
  | .moduleLeave => Sys2Proof.Machine.execModuleLeave s
  | .leavePortsDown => Sys2Proof.Machine.execLeavePortsDown s
  | .padTouch ms => Sys2Proof.Machine.execPadTouch ms s
  | .connectorRemoved e => Sys2Proof.Machine.execConnectorRemoved e s
  | .connectorSeated e => Sys2Proof.Machine.execConnectorSeated e s
  | .safePowerExit port => Sys2Proof.Machine.execSafePowerExit port s
  | .emitterSample e k fade => Sys2Proof.Machine.execEmitterSample e k fade s
  | .spareCheck e k fade => Sys2Proof.Machine.execSpareCheck e k fade s
  | .swapStart e k => Sys2Proof.Machine.execSwapStart e k s
  | .swapWarmDone e => Sys2Proof.Machine.execSwapWarmDone e s
  | .swapSwitchDone e => Sys2Proof.Machine.execSwapSwitchDone e s
  | .swapComplete e => Sys2Proof.Machine.execSwapComplete e s
  | .calSlot f => Sys2Proof.Machine.execCalSlot f s
  | .calRestoreTimeout port => Sys2Proof.Machine.execCalRestoreTimeout port s
  | .ringUnlock port lane => Sys2Proof.Machine.execRingUnlock port lane s
  | .budgetDivide otherW => Sys2Proof.Machine.execBudgetDivide otherW s
  | .grant l seq watts capDrop time => Sys2Proof.Machine.execGrant l seq watts capDrop time s
  | .report l seq request draw temp thermal droop stretched active => Sys2Proof.Machine.execReport l seq request draw temp thermal droop stretched active s
  | .grantTimeout l => Sys2Proof.Machine.execGrantTimeout l s
  | .reportTimeout l => Sys2Proof.Machine.execReportTimeout l s
  | .clockAdjust l est => Sys2Proof.Machine.execClockAdjust l est s
  | .droop c quarterCycles => Sys2Proof.Machine.execDroop c quarterCycles s
  | .droopRelease c => Sys2Proof.Machine.execDroopRelease c s
  | .thermalSample x temp => Sys2Proof.Machine.execThermalSample x temp s
  | .capWrite watts => Sys2Proof.Machine.execCapWrite watts s
  | .inputLow volt10mV => Sys2Proof.Machine.execInputLow volt10mV s
  | .inputUndervoltage => Sys2Proof.Machine.execInputUndervoltage s
  | .inputHigh volt10mV => Sys2Proof.Machine.execInputHigh volt10mV s
  | .inputOvervoltage => Sys2Proof.Machine.execInputOvervoltage s
  | .powerRestore => Sys2Proof.Machine.execPowerRestore s
  | .prsntMate => Sys2Proof.Machine.execPrsntMate s
  | .softStartDone => Sys2Proof.Machine.execSoftStartDone s
  | .prsntBreak => Sys2Proof.Machine.execPrsntBreak s
  | .ibcFail k => Sys2Proof.Machine.execIbcFail k s
  | .refclkLoss => Sys2Proof.Machine.execRefclkLoss s
  | .corePairOff l j => Sys2Proof.Machine.execCorePairOff l j s
  | .corePairOn l j => Sys2Proof.Machine.execCorePairOn l j s
  | .corePairOnDone l j => Sys2Proof.Machine.execCorePairOnDone l j s
  | .timeSync offsetPs => Sys2Proof.Machine.execTimeSync offsetPs s
  | .flitRetry l m => Sys2Proof.Machine.execFlitRetry l m s
  | .ucieRetrainDone l m t => Sys2Proof.Machine.execUcieRetrainDone l m t s
  | .leafLinkTrain l t r => Sys2Proof.Machine.execLeafLinkTrain l t r s
  | .partialReset l => Sys2Proof.Machine.execPartialReset l s
  | .partialResetDone l => Sys2Proof.Machine.execPartialResetDone l s
  | .boot img f => Sys2Proof.Machine.execBoot img f s
  | .bootTimeout => Sys2Proof.Machine.execBootTimeout s
  | .perstAssert => Sys2Proof.Machine.execPerstAssert s
  | .moduleReset => Sys2Proof.Machine.execModuleReset s
  | .powerOn volt10mV => Sys2Proof.Machine.execPowerOn volt10mV s
  | .functionReset => Sys2Proof.Machine.execFunctionReset s
  | .msixUnmask v => Sys2Proof.Machine.execMsixUnmask v s
  | .bar2Access off wr len en u => Sys2Proof.Machine.execBar2Access off wr len en u s
  | .registerWrite off w v => Sys2Proof.Machine.execRegisterWrite off w v s
  | .watchdogExpiry core => Sys2Proof.Machine.execWatchdogExpiry core s
  | .mbxNop m => Sys2Proof.Machine.execMbxNop m s
  | .lmMargin m => Sys2Proof.Machine.execLmMargin m s
  | .cfgWrite m flashOk => Sys2Proof.Machine.execCfgWrite m flashOk s
  | .cfgRead m => Sys2Proof.Machine.execCfgRead m s
  | .fwWrite m chk flashOk => Sys2Proof.Machine.execFwWrite m chk flashOk s
  | .fwSelect m flashOk => Sys2Proof.Machine.execFwSelect m flashOk s
  | .fwCommit m fuseOk => Sys2Proof.Machine.execFwCommit m fuseOk s
  | .logRead m => Sys2Proof.Machine.execLogRead m s
  | .atbMeasure m codes value => Sys2Proof.Machine.execAtbMeasure m codes value s
  | .serdesEye m eyes => Sys2Proof.Machine.execSerdesEye m eyes s
  | .ucieMargin m => Sys2Proof.Machine.execUcieMargin m s
  | .optLoopback m errors => Sys2Proof.Machine.execOptLoopback m errors s
  | .mailboxComplete m => Sys2Proof.Machine.execMailboxComplete m s
  | .entdaa addr => Sys2Proof.Machine.execEntdaa addr s
  | .setdasa addr => Sys2Proof.Machine.execSetdasa addr s
  | .rstdaa => Sys2Proof.Machine.execRstdaa s
  | .getpid => Sys2Proof.Machine.execGetpid s
  | .getbcr => Sys2Proof.Machine.execGetbcr s
  | .getdcr => Sys2Proof.Machine.execGetdcr s
  | .getstatus => Sys2Proof.Machine.execGetstatus s
  | .enec => Sys2Proof.Machine.execEnec s
  | .disec => Sys2Proof.Machine.execDisec s
  | .i3cIndexWrite index => Sys2Proof.Machine.execI3cIndexWrite index s
  | .beaconToggle => Sys2Proof.Machine.execBeaconToggle s
  | .ctlModuleReset => Sys2Proof.Machine.execCtlModuleReset s
  | .ibiRetry accepted => Sys2Proof.Machine.execIbiRetry accepted s
  | .fruRead off => Sys2Proof.Machine.execFruRead off s
  | .getVersion => Sys2Proof.Machine.execGetVersion s
  | .getCapabilities version => Sys2Proof.Machine.execGetCapabilities version s
  | .negotiateAlgorithms version asym hash => Sys2Proof.Machine.execNegotiateAlgorithms version asym hash s
  | .getDigests version => Sys2Proof.Machine.execGetDigests version s
  | .getCertificate version slot off len => Sys2Proof.Machine.execGetCertificate version slot off len s
  | .challenge version slot nonce => Sys2Proof.Machine.execChallenge version slot nonce s
  | .getMeasurements version op nonce signed => Sys2Proof.Machine.execGetMeasurements version op nonce signed s
  | .doeDiscovery index => Sys2Proof.Machine.execDoeDiscovery index s
  | .leafManagerUncorrectableError l => Sys2Proof.Machine.execLeafManagerUncorrectableError l s
  | .kvClearDone => Sys2Proof.Machine.execKvClearDone s
  | .controlCoreException core => Sys2Proof.Machine.execControlCoreException core s
  | .testModeNChange low => Sys2Proof.Machine.execTestModeNChange low s
  | .idcode die => Sys2Proof.Machine.execIdcode die s
  | .samplePreload die v => Sys2Proof.Machine.execSamplePreload die v s
  | .extest die v => Sys2Proof.Machine.execExtest die v s
  | .clamp die => Sys2Proof.Machine.execClamp die s
  | .highz die => Sys2Proof.Machine.execHighz die s
  | .ijtag die => Sys2Proof.Machine.execIjtag die s
  | .bypass die opcode => Sys2Proof.Machine.execBypass die opcode s
  | .inputOperating volt10mV => Sys2Proof.Machine.execInputOperating volt10mV s
  | .lossOfSignal port lane => Sys2Proof.Machine.execLossOfSignal port lane s
  | .signalDetect port lane => Sys2Proof.Machine.execSignalDetect port lane s
  | .ucieMarginSlice m last res => Sys2Proof.Machine.execUcieMarginSlice m last res s
  | .jobFatalIgnoreExpiry job => Sys2Proof.Machine.execJobFatalIgnoreExpiry job s

end Sys2Proof.Machine
end

