-- ==== Sys2Proof/WellFormed.lean ====
section
/-! DEFINITION. When a command is well formed: every operand within the field that the spec gives it. -/

namespace Sys2Proof

/-- A packet whose fields fit its header and extension (R275, R278) and whose payload a packet can carry (R276). -/
def Packet.wf (p : Packet) : Bool :=
  decide (p.hops < 32) && decide (p.dst < 4096) && decide (p.src < 4096) && decide (p.job < 65536) && decide (p.len ≤ 64)
    && decide (p.tag < 32768) && decide (p.space < 8) && decide (p.count < 64) && decide (p.sigref < 65536)
    && decide (p.inc < 32768) && decide (p.sigtum < 65536) && decide (p.sigbytes < 2 ^ 32) && decide (p.payload.length ≤ 4096)

/-- A flit of a frame: at most 64 bytes in a body flit, and a head flit's packet within its fields (R266). -/
def Flit.wf (f : Flit) : Bool :=
  match f with
  | .head p => p.wf
  | .body d => decide (d.length = 64)
  | .null => true
  | .link _ => true

/-- A frame whose sequence numbers fit 12 bits (R266, R269). -/
def Frame.wf (f : Frame) : Bool := f.slots.all Flit.wf && decide (f.fseq < 4096) && decide (f.ack < 4096)

/-- A firmware image whose stage, length and counter fit its header (R380). -/
def FwImage.wf (i : FwImage) : Bool := decide (i.stage < 2 ^ 32) && decide (i.body < 2 ^ 32) && decide (i.svn < 2 ^ 32)

/-- A well-formed command. -/
def Instr.wf (i : Instr) : Bool :=
  match i with
  | .runAheadReadReturn _ ip _ => decide (ip < 32768)
  | .doorbellTail _ width _ => decide (width = 1 ∨ width = 2 ∨ width = 4 ∨ width = 8)
  | .doorbellCplHead _ width _ => decide (width = 1 ∨ width = 2 ∨ width = 4 ∨ width = 8)
  | .taskPlace t _ _ => decide (t < 65536)
  | .taskStart t => decide (t < 65536)
  | .preemptRequest t pick => decide (t < 65536) && (match pick with | some ts => ts.all (fun x => decide (x < 65536)) | none => true)
  | .preemptSave t => decide (t.arg < 65536)
  | .preemptAbandon t => decide (t < 65536)
  | .preemptSaveDone t _ => decide (t < 65536)
  | .taskRestore t => decide (t < 65536)
  | .taskRestoreDone t _ => decide (t < 65536)
  | .taskEnd t => decide (t < 65536)
  | .deadlockSample t => decide (t < 65536)
  | .deadlockFire t => decide (t < 65536)
  | .putPacket p => p.wf
  | .putSigPacket p => p.wf
  | .putMcPacket p => p.wf
  | .getPacket p _ => p.wf
  | .atomPacket p _ => p.wf
  | .tumAddPacket p => p.wf
  | .tumSetPacket p => p.wf
  | .tumReadPacket p => p.wf
  | .kvUpdate p => p.wf
  | .ack p => p.wf
  | .getResp p => p.wf
  | .atomResp p => p.wf
  | .tumResp p => p.wf
  | .mcMiss p => p.wf
  | .collDataPacket p => p.wf
  | .receipt p => p.wf
  | .consumed p => p.wf
  | .resend p _ _ => p.wf
  | .collAbort p => p.wf
  | .done p => p.wf
  | .miss p => p.wf
  | .markerRx _ ms => ms.all (fun m => decide (m.bytes.length = 20))
  | .frameRx _ f => decide (f.bytes.length = 2080)
  | .trainingMarkerRx _ _ x y _ => decide (x.length = 8) && decide (y.length = 12)
  | .heartbeat _ m p code _ => decide (m < 4096) && decide (p < 32) && decide (code < 16)
  | .vcsel _ vc => decide (vc < 32)
  | .abort _ vc => decide (vc < 32)
  | .sync _ cs => decide (cs.length ≤ 32)
  | .violation _ code vc _ => decide (code < 256) && decide (vc < 256)
  | .down _ cause => decide (cause < 256)
  | .key _ m p _ _ _ _ => decide (m < 4096) && decide (p < 32)
  | .creditInit _ cs => decide (cs.length ≤ 32)
  | .reject _ code m p => decide (code < 256) && decide (m < 4096) && decide (p < 32)
  | .linkDown _ cause => decide (cause < 256)
  | .packetRoute p _ => p.wf
  | .linkDownNotice m p cause => decide (m < 4096) && decide (p < 20) && decide (cause < 256)
  | .linkUpNotice m p => decide (m < 4096) && decide (p < 20)
  | .declaration m cause => decide (m < 4096) && decide (cause < 256)
  | .padlockSet m => decide (m < 4096)
  | .jobFatalNotice job code origin => decide (job < 65536) && decide (code < 256) && decide (origin < 4096)
  | .holdNotice tag => decide (tag < 32768)
  | .requestResend tag => decide (tag < 32768)
  | .requestTimeout tag => decide (tag < 32768)
  | .dedupRowGrant src => decide (src < 4096)
  | .dedupRowFree src => decide (src < 4096)
  | .putSigCountExpiry src ref => decide (src < 4096) && decide (1 ≤ ref) && decide (ref < 65536)
  | .boot img _ => img.all FwImage.wf
  | .bar2Access off wr len en _ => decide (off + len ≤ 0x10000000) && (match wr with | some bs => decide (bs.length = len) && decide (en.length = len) | none => true)
  | .registerWrite off _ _ => decide (off < 0x4000000)
  | .optLoopback _ n => decide (n < 2 ^ 64)
  | .jobFatalIgnoreExpiry job => decide (job < 65536)
  | .nop .. | .endOp .. | .endFinish .. | .add .. | .sub .. | .mul .. | .and .. | .or .. => true
  | .xor .. | .shl .. | .shr .. | .sra .. | .min .. | .max .. | .minu .. | .maxu .. => true
  | .li .. | .ld .. | .st .. | .cmpEq .. | .cmpNe .. | .cmpLt .. | .cmpLtu .. | .cmpGe .. => true
  | .cmpGeu .. | .pand .. | .por .. | .pxor .. | .pnot .. | .br .. | .loop .. | .jr .. => true
  | .tdSet .. | .tdSetf .. | .tdSetfi .. | .tdAddf .. | .tdGetf .. | .tumAdd .. | .tumWait .. | .tumSet .. => true
  | .tumRead .. | .tumWaitG .. | .tumAlloc .. | .tumFree .. | .tumAddG .. | .tumSetG .. | .tumReadG .. | .fenceCore .. => true
  | .fenceModule .. | .fenceSystem .. | .get .. | .put .. | .putSig .. | .putMc .. | .copy .. | .copyT .. => true
  | .atom .. | .mmLds .. | .mm .. | .mmDrain .. | .mmFill .. | .mv .. | .vld .. | .vst .. => true
  | .vadd .. | .vsub .. | .vmul .. | .vfma .. | .vmax .. | .vmin .. | .vcvt .. | .vred .. => true
  | .vfn .. | .vfnD .. | .vtload .. | .vrowNorm .. | .vrowNormb .. | .vrowSmax .. | .vrowSmaxb .. | .sampSlice .. => true
  | .sampMerge .. | .sampAccept .. | .kvNew .. | .kvFree .. | .kvExt .. | .kvPut .. | .kvGet .. | .kvDetent .. => true
  | .kvCommit .. | .kvRollback .. | .collOpen .. | .collPub .. | .collGroupAdmit .. | .dispatch .. | .instructionComplete .. | .sequencerWake .. => true
  | .fillerRampDown .. | .arraySelfTest .. | .commandRead .. | .cmdNop .. | .submit .. | .kill .. | .barrier .. | .completionEntryWrite .. => true
  | .tumHostAdd .. | .parkRetry .. | .c0TokenRefill .. | .cacheFlush .. | .cacheFlushDone .. | .cacheUnprotect .. | .cacheUnprotectDone .. | .scrubLine .. => true
  | .refresh .. | .oscSample .. | .lmRetrainDone .. | .lmRepairDone .. | .marginSlice .. | .pageMoveDone .. | .pageReclaim .. | .kvClear .. => true
  | .kvConfigApply .. | .storeSlotGrant .. | .collConsumedTimeout .. | .abortTripleExpiry .. | .frameTx .. | .markerTx .. | .trainingTimeout .. => true
  | .trainingRetry .. | .syncReq .. | .laneMask .. | .laneReq .. | .heartbeatTimeout .. | .keyingRepeat .. | .linkEnterService .. | .wardExpiry .. => true
  | .lkEnableWrite .. | .retrain .. | .routerHeadTimeout .. | .recompute .. | .tableFlip .. | .partitionTimeout .. | .holdNoticeSend .. | .faultHandle .. => true
  | .errIrqDeferred .. | .moduleFailStop .. | .failStopPortsDown .. | .fdRejoinModule .. | .fdRejoinAll .. | .errRingWrite .. | .latchSample .. | .moduleLeave .. => true
  | .leavePortsDown .. | .padTouch .. | .connectorRemoved .. | .connectorSeated .. | .safePowerExit .. | .emitterSample .. | .spareCheck .. | .swapStart .. => true
  | .swapWarmDone .. | .swapSwitchDone .. | .swapComplete .. | .calSlot .. | .calRestoreTimeout .. | .ringUnlock .. | .budgetDivide .. | .grant .. => true
  | .report .. | .grantTimeout .. | .reportTimeout .. | .clockAdjust .. | .droop .. | .droopRelease .. | .thermalSample .. | .capWrite .. => true
  | .inputLow .. | .inputUndervoltage .. | .inputHigh .. | .inputOvervoltage .. | .powerRestore .. | .prsntMate .. | .softStartDone .. | .prsntBreak .. => true
  | .ibcFail .. | .refclkLoss .. | .corePairOff .. | .corePairOn .. | .corePairOnDone .. | .timeSync .. | .flitRetry .. | .ucieRetrainDone .. => true
  | .fwWrite .. | .leafLinkTrain .. | .partialReset .. | .partialResetDone .. | .bootTimeout .. | .perstAssert .. | .moduleReset .. | .powerOn .. | .functionReset .. => true
  | .msixUnmask .. | .watchdogExpiry .. | .mbxNop .. | .lmMargin .. | .cfgWrite .. | .cfgRead .. | .fwSelect .. | .fwCommit .. => true
  | .logRead .. | .atbMeasure .. | .serdesEye .. | .ucieMargin .. | .mailboxComplete .. | .entdaa .. | .setdasa .. | .rstdaa .. => true
  | .getpid .. | .getbcr .. | .getdcr .. | .getstatus .. | .enec .. | .disec .. | .i3cIndexWrite .. | .beaconToggle .. => true
  | .ctlModuleReset .. | .ibiRetry .. | .fruRead .. | .getVersion .. | .getCapabilities .. | .negotiateAlgorithms .. | .getDigests .. | .getCertificate .. => true
  | .challenge .. | .getMeasurements .. | .doeDiscovery .. | .leafManagerUncorrectableError .. | .kvClearDone .. | .controlCoreException .. | .testModeNChange .. | .idcode .. => true
  | .samplePreload .. | .extest .. | .clamp .. | .highz .. | .ijtag .. | .bypass .. | .inputOperating .. | .lossOfSignal .. => true
  | .signalDetect .. | .ucieMarginSlice .. => true

end Sys2Proof
end

