-- ==== Sys2Proof/Safety.lean ====
section
/-! DEFINITION. What counts as a good state and as a step that has its effect, in the terms that claims use. -/

namespace Sys2Proof.Machine

/-! ### Canonical forms -/

/-- The keys of a table rise strictly. -/
def Tab.sorted {α : Type} : Tab α → Bool
  | [] => true
  | [_] => true
  | a :: b :: r => decide (a.1 < b.1) && Tab.sorted (b :: r)

/-- The canonical form of a memory: addresses strictly rising, and no entry equal to what an unlisted address reads
as. -/
def Mem.wf (m : Mem) : Bool := Tab.sorted m.cells && m.cells.all (fun c => c.2 != m.default c.1)

/-- Every addressed memory of the module is in canonical form: hub memory, LPDDR, FRU memory, the scratchpads. -/
def State.memWf (s : State) : Prop := s.hm.wf = true ∧ s.lm.wf = true ∧ s.fru.wf = true ∧ ∀ c, (s.core c).sp.wf = true

/-! ### Safe runs -/

/-- Every command that waits is well formed. -/
def State.pendingOk (s : State) : Bool := s.pending.all Instr.wf

/-- The module works: it is booted and has not fail-stopped. -/
def State.works (s : State) : Prop := s.booted = true ∧ s.failed = false

/-! ### When an instruction issues (R51-R56, R71, R74) -/

/-- The dispatch wait of a queue-0 instruction needs nothing more: it names no tumbler, has been consumed already, or
finds a count of at least 1 (R53, R56). -/
def Core.waitMet (k : Core) (h : Hdr) : Bool :=
  h.q.val != 0 || h.dw.val == 0xFF || k.dwTaken || decide (1 ≤ (k.ltGet h.dw.val).toNat)

/-- Core c issues the instruction with this opcode and these operand fields now: nothing holds the sequencer, the words at
the instruction pointer are that instruction, which is a defined encoding, the window has room, its guard is true, its
dispatch wait is met, and the next word lies in the instruction buffer. -/
structure State.Issues (s : State) (c : CoreId) (h : Hdr) (opc operands : Nat) : Prop where
  alive   : s.failed = false
  ready   : (s.core c.val).canIssue = true
  fetched : (s.core c.val).fetches h opc operands = true
  defined : undefinedWord (s.core c.val).fetched = false
  room    : (s.core c.val).windowFull = false
  guarded : (s.core c.val).guard h = true
  waits   : (s.core c.val).waitMet h = true
  inside  : (s.core c.val).ip + h.words ≤ 32767

/-- As `State.Issues`, with room in the engine queue that the instruction names. -/
structure State.Queues (s : State) (c : CoreId) (h : Hdr) (opc operands : Nat) : Prop extends State.Issues s c h opc operands where
  space : (s.core c.val).queueFull h.q.val = false

/-- The state in which an instruction that issues acts: its dispatch wait has taken 1 from its tumbler (R53, R56). -/
def State.taken (s : State) (c : CoreId) (h : Hdr) : State :=
  if h.q.val = 0 ∧ h.dw.val ≠ 0xFF ∧ (s.core c.val).dwTaken = false then s.modCore c.val (fun k => k.ltTake h.dw.val 1) else s

/-- Core c goes on past an instruction that has changed it by `f`, and nothing else in the module changes. -/
def State.moved (s : State) (c : CoreId) (h : Hdr) (f : Core → Core) : State :=
  s.modCore c.val (fun k => { f k with ip := k.ip + h.words, dwTaken := false, stall := none })

/-- The entry that an engine instruction leaves in its queue and in the window, with the operand values as captured
(R46, R52, R59). -/
def Core.newEntry (k : Core) (h : Hdr) (op : EInst) (now : Word) : Entry :=
  { id := k.nextId, ip := k.ip, q := h.q.val, dw := h.dw.val, cs := h.cs, slotEn := h.slotEn, slot := h.slot,
    inc := h.inc, uses := h.uses, sat := h.sat, word := k.fetched, op := op, phase := .queued, left := 0, bad := 0,
    cause := 0x0102, addr := 0, info := 0, sent := false, missed := [], time := now, sigDue := none, late := false,
    landed := [] }

/-- The state after an engine instruction has joined its queue. -/
def State.joined (s : State) (c : CoreId) (h : Hdr) (op : EInst) : State :=
  s.moved c h (fun k => { k with window := k.window ++ [k.newEntry h op s.rackTime], nextId := k.nextId + 1 })

/-! ### When an engine runs an instruction -/

/-- Instruction `id` of core c is dispatched, its engine can run it, its status slot lies in SP, its array is not
disabled, and the leaf link takes the packets that it sends. -/
structure State.Runs (s : State) (c : CoreId) (id : Nat) (e : Entry) : Prop where
  alive : s.failed = false
  ready : (s.core c.val).runnable id = some e
  slot  : e.slotEn = true → e.slot ≤ 0x4FFFFF
  array : e.q = 8 ∨ (s.core c.val).noArray e.q = false
  link  : s.crosses c.val e.op = true → s.linkOpen (c.val / 12) = true

/-- The state `t` after an instruction that crosses the leaf link of core c where it leaves the leaf (R340). -/
def State.crossed (s : State) (c : CoreId) (i : EInst) (t : State) : State := if s.crosses c.val i then t.crossLink (c.val / 12) else t

/-- As `State.Runs`, for an instruction that the KV page manager serves (R119, R211, R215). -/
structure State.Serves (s : State) (c : CoreId) (id : Nat) (e : Entry) : Prop extends State.Runs s c id e where
  served : s.kvWaits c.val e = false

/-- Instruction `id` of core c has completed with a status and is about to retire. -/
def State.completed (s : State) (c : CoreId) (id status : Nat) : State :=
  s.modEntry c.val id (fun e => { e with phase := .done status })

end Sys2Proof.Machine
end

