-- ==== Sys2Proof/Certificates/Slice0/Obligations.lean ====
section
/-! DEFINITION. The statements for the provers.  Each says in its docstring which rules of the manual it formalises; a
clause that rests on the model's own choice names its log entry. -/

open Sys2Proof Sys2Proof.Machine

/-! ## The queue of commands -/

/-- A step takes the command at the front of the queue and runs it with the queue's rest.  The queue is the model's own
form of what reaches the module (assumption 3). -/
def Obligations.StepRunsTheFrontCommand : Prop :=
  ∀ (i : Instr) (rest : List Instr) (s : State), s.pending = i :: rest → step s = exec i { s with pending := rest }

/-- With no command waiting a step lets one tick of 0.8 ns pass, which changes only the clock, rack time and the correction
still to be made to it, and lets units of the transfers within the module that are dispatched become visible; where no
instruction is dispatched nothing else changes (assumptions 2 and 7, the model's choice). -/
def Obligations.IdleStepLetsTimePass : Prop :=
  ∀ s : State, s.pending = [] → step s = .next s.tick.landSome ∧ s.tick.clock = s.clock + 1
    ∧ s.tick = { s with clock := s.tick.clock, rackTime := s.tick.rackTime, rackHold := s.tick.rackHold, rackSlew := s.tick.rackSlew }
    ∧ ((∀ (c : CoreId), ∀ e ∈ (s.core c.val).window, e.phase ≠ .dispatched) → step s = .next s.tick)

/-- A step takes exactly the front command away, never writes FRU memory, which the module writes only at manufacture, and
keeps hub memory, LPDDR, FRU memory and the scratchpads in their canonical form; so no command leaves or joins the queue but
by being taken, and equal memories stay equal data (R17, assumption 3). -/
def Obligations.StepConsumesOneCommandAndKeepsTheMemories : Prop :=
  ∀ (s t : State), step s = .next t → t.pending = s.pending.tail ∧ t.fru = s.fru ∧ (s.memWf → t.memWf)

/-- No step lowers the fuses' anti-rollback counter, whatever the command and the state (R382: FW_COMMIT never lowers the
counter). -/
def Obligations.AntiRollbackCounterNeverFalls : Prop :=
  ∀ (n : Nat) (s t : State), n ≤ s.fuses.counter → step s = .next t → n ≤ t.fuses.counter

/-- What reset leaves: every register field of the map at the reset value that its table gives, boot stage 0, no task, no
fault, no packet, every tumbler 0, every predicate but p0 at 0, every core idle with an empty window (R3, R5, R69). -/
def Obligations.ResetLeavesRegistersAtTheirValues : Prop :=
  (∀ f : Fld, State.reset.rd f = f.rst) ∧ State.reset.rd Reg.GLB_BOOT_STAGE = 0 ∧ State.reset.tasks = [] ∧ State.reset.faultq = []
    ∧ State.reset.failed = false ∧ (∀ c : CoreId, State.reset.core c.val = Core.reset) ∧ Core.reset.state = 0 ∧ Core.reset.window = []
    ∧ (∀ n, Core.reset.ltGet n = 0) ∧ Core.reset.lastStatus = 0 ∧ Core.reset.arrays = 15#4 ∧ (∀ n, State.reset.hubGet n = 0)
    ∧ (∀ i : Fin 4, Core.reset.fillMax[i] = 256)

/-- At reset every memory that holds bytes is in its canonical form, and no command waits. -/
def Obligations.ResetMemoriesAreCanonical : Prop :=
  State.reset.memWf ∧ State.reset.pending = []

/-! ## Scalar, predicate, descriptor and branch instructions (R66, R77-R80) -/

/-- ADD, SUB, MUL, AND, OR, XOR, the shifts, MIN, MAX and LI write their result to RD and go on; a write of s0 writes
nothing; nothing else changes.

CMP writes `ra cc b` to PD, and PAND, POR, PXOR and PNOT the logic of their predicates; a write of p0 writes nothing
(R45, R77). -/
def Obligations.ScalarAndPredicateResults : Prop :=
  (∀ (c : CoreId) (h : Hdr) (rd ra : Fin 64) (b : SrcB) (imm : BitVec 25) (s : State),
    let k := (s.taken c h).core c.val
    let x := k.sget ra.val
    let y := k.srcB h b
    let done := fun (v : Word) => Host.Outcome.next (φ := Fault) (ρ := Refusal) ((s.taken c h).moved c h (fun k => k.sset rd.val v))
    (s.Issues c h (srcBOpc b 0x02) (packAB rd ra b) → exec (.add c h rd ra b) s = done (x + y))
    ∧ (s.Issues c h (srcBOpc b 0x04) (packAB rd ra b) → exec (.sub c h rd ra b) s = done (x - y))
    ∧ (s.Issues c h (srcBOpc b 0x06) (packAB rd ra b) → exec (.mul c h rd ra b) s = done (x * y))
    ∧ (s.Issues c h (srcBOpc b 0x08) (packAB rd ra b) → exec (.and c h rd ra b) s = done (x &&& y))
    ∧ (s.Issues c h (srcBOpc b 0x0A) (packAB rd ra b) → exec (.or c h rd ra b) s = done (x ||| y))
    ∧ (s.Issues c h (srcBOpc b 0x0C) (packAB rd ra b) → exec (.xor c h rd ra b) s = done (x ^^^ y))
    ∧ (s.Issues c h (srcBOpc b 0x0E) (packAB rd ra b) → exec (.shl c h rd ra b) s = done (x <<< (y.toNat % 64)))
    ∧ (s.Issues c h (srcBOpc b 0x10) (packAB rd ra b) → exec (.shr c h rd ra b) s = done (x >>> (y.toNat % 64)))
    ∧ (s.Issues c h (srcBOpc b 0x12) (packAB rd ra b) → exec (.sra c h rd ra b) s = done (x.sshiftRight (y.toNat % 64)))
    ∧ (s.Issues c h (srcBOpc b 0x14) (packAB rd ra b) → exec (.min c h rd ra b) s = done (if x.toInt < y.toInt then x else y))
    ∧ (s.Issues c h (srcBOpc b 0x16) (packAB rd ra b) → exec (.max c h rd ra b) s = done (if x.toInt < y.toInt then y else x))
    ∧ (s.Issues c h (srcBOpc b 0x18) (packAB rd ra b) → exec (.minu c h rd ra b) s = done (if x.toNat < y.toNat then x else y))
    ∧ (s.Issues c h (srcBOpc b 0x1A) (packAB rd ra b) → exec (.maxu c h rd ra b) s = done (if x.toNat < y.toNat then y else x))
    ∧ (s.Issues c h 0x1C (rd.val * 2 ^ 31 + imm.toNat) → exec (.li c h rd imm) s = done (h.immS imm)))
  ∧ (∀ (c : CoreId) (h : Hdr) (pd pa pb : Fin 8) (ra : Fin 64) (b : SrcC) (s : State),
    let k := (s.taken c h).core c.val
    let x := k.sget ra.val
    let y := k.srcC h b
    let preds := fun (b : Fin 8) => pd.val * 2 ^ 34 + pa.val * 2 ^ 31 + b.val * 2 ^ 28
    let done := fun (v : Bool) => Host.Outcome.next (φ := Fault) (ρ := Refusal) ((s.taken c h).moved c h (fun k => k.pset pd.val v))
    (s.Issues c h (srcCOpc b 0x20) (packC pd ra b) → exec (.cmpEq c h pd ra b) s = done (decide (x = y)))
    ∧ (s.Issues c h (srcCOpc b 0x21) (packC pd ra b) → exec (.cmpNe c h pd ra b) s = done (decide (x ≠ y)))
    ∧ (s.Issues c h (srcCOpc b 0x22) (packC pd ra b) → exec (.cmpLt c h pd ra b) s = done (decide (x.toInt < y.toInt)))
    ∧ (s.Issues c h (srcCOpc b 0x23) (packC pd ra b) → exec (.cmpLtu c h pd ra b) s = done (decide (x.toNat < y.toNat)))
    ∧ (s.Issues c h (srcCOpc b 0x24) (packC pd ra b) → exec (.cmpGe c h pd ra b) s = done (decide (y.toInt ≤ x.toInt)))
    ∧ (s.Issues c h (srcCOpc b 0x25) (packC pd ra b) → exec (.cmpGeu c h pd ra b) s = done (decide (y.toNat ≤ x.toNat)))
    ∧ (s.Issues c h 0x2C (preds pb) → exec (.pand c h pd pa pb) s = done (k.pget pa.val && k.pget pb.val))
    ∧ (s.Issues c h 0x2D (preds pb) → exec (.por c h pd pa pb) s = done (k.pget pa.val || k.pget pb.val))
    ∧ (s.Issues c h 0x2E (preds pb) → exec (.pxor c h pd pa pb) s = done (k.pget pa.val != k.pget pb.val))
    ∧ (s.Issues c h 0x2F (preds 0) → exec (.pnot c h pd pa) s = done (!k.pget pa.val)))

/-- The scalar register s0 reads 0 and drops writes, p0 reads 1 and drops writes; a write of any other register reads back
and leaves the others (R45). -/
def Obligations.HardWiredRegistersHold : Prop :=
  ∀ (k : Core) (r q : Fin 64) (p u : Fin 8) (v : Word) (b : Bool),
    k.sget 0 = 0 ∧ k.sset 0 v = k ∧ k.pget 0 = true ∧ k.pset 0 b = k
    ∧ (r ≠ 0 → (k.sset r.val v).sget r.val = v) ∧ (q ≠ r → (k.sset r.val v).sget q.val = k.sget q.val)
    ∧ (p ≠ 0 → (k.pset p.val b).pget p.val = b) ∧ (u ≠ p → (k.pset p.val b).pget u.val = k.pget u.val)

/-- LD reads 8 bytes of the core's scratchpad and ST writes 8, at RA plus the immediate; an address that is no multiple of
8 or lies above 0x27F_FFF8 moves nothing and completes with ADDR_RANGE; LD of a word found uncorrectable, then or before,
leaves RD and completes with ECC_UNCORRECTED (R78, R422).

BR adds its signed offset to its own word index, LOOP subtracts 1 from RA and branches unless the result is 0, JR goes
to the word that RA names; a target outside 0-32,767 completes with ADDR_RANGE (R51, R80). -/
def Obligations.LoadsStoresAndBranches : Prop :=
  (∀ (c : CoreId) (h : Hdr) (rd ra : Fin 64) (imm : BitVec 25) (u : List Upset) (s : State),
    let s0 := s.taken c h
    let su := s0.sramUpsets u
    let k := s0.core c.val
    let a := (k.sget ra.val + h.immS imm).toNat
    let ops := rd.val * 2 ^ 31 + ra.val * 2 ^ 25 + imm.toNat
    (s.Issues c h 0x1E ops → ldOk a = true → ((su.core c.val).spRead a 8).2.isBad = false →
      exec (.ld c h rd ra imm u) s = .next (su.moved c h (fun k => k.sset rd.val (BitVec.ofNat 64 (leNat (k.sp.readN a 8))))))
    ∧ (s.Issues c h 0x1F ops → ldOk a = true →
      exec (.st c h rd ra imm) s = .next (s0.moved c h (fun k => k.spWrite a (leBytes 8 (k.sget rd.val).toNat))))
    ∧ (s.Issues c h 0x1E ops → ldOk a = true → ((su.core c.val).spRead a 8).2.isBad = true →
      exec (.ld c h rd ra imm u) s = .next (su.coreFatal c.val
        { status := Status.eccUncorrected, cause := 0x0202, unit := 0, ip := k.ip, addr := BitVec.ofNat 64 a, info := 2 }))
    ∧ (ldOk a = false →
      (s.Issues c h 0x1E ops → exec (.ld c h rd ra imm u) s = .next (su.seqFatal c.val Status.addrRange 0x0102 0))
      ∧ (s.Issues c h 0x1F ops → exec (.st c h rd ra imm) s = .next (s0.seqFatal c.val Status.addrRange 0x0102 0)))
    ∧ (ldOk a = true ↔ a % 8 = 0 ∧ a ≤ 0x27FFFF8))
  ∧ (∀ (c : CoreId) (h : Hdr) (ra : Fin 64) (off : BitVec 16) (s : State),
    let s0 := s.taken c h
    let k := s0.core c.val
    let v := k.sget ra.val - 1
    let dest := (k.ip : Int) + (h.immS off).toInt
    let goes := fun (f : Core → Core) (t : Int) =>
      Host.Outcome.next (φ := Fault) (ρ := Refusal) (s0.modCore c.val (fun k => { f k with ip := t.toNat, dwTaken := false, stall := none }))
    (s.Issues c h 0x30 off.toNat → 0 ≤ dest → dest ≤ 32767 → exec (.br c h off) s = goes id dest)
    ∧ (s.Issues c h 0x30 off.toNat → (dest < 0 ∨ 32767 < dest) → exec (.br c h off) s = .next (s0.seqFatal c.val Status.addrRange 0x0102 0))
    ∧ (s.Issues c h 0x31 (ra.val * 2 ^ 31 + off.toNat) → v ≠ 0 → 0 ≤ dest → dest ≤ 32767 → exec (.loop c h ra off) s = goes (fun k => k.sset ra.val v) dest)
    ∧ (s.Issues c h 0x31 (ra.val * 2 ^ 31 + off.toNat) → v = 0 → exec (.loop c h ra off) s = .next (s0.moved c h (fun k => k.sset ra.val 0)))
    ∧ (s.Issues c h 0x32 (ra.val * 2 ^ 31) → (k.sget ra.val).toNat ≤ 32767 → exec (.jr c h ra) s = goes id (k.sget ra.val).toNat)
    ∧ (s.Issues c h 0x32 (ra.val * 2 ^ 31) → 32767 < (k.sget ra.val).toNat → exec (.jr c h ra) s = .next (s0.seqFatal c.val Status.addrRange 0x0102 0)))

/-- TD.SET writes both words of a descriptor; TD.SETF, TD.SETFI and TD.ADDF write the field that FSEL selects, TD.GETF reads
it zero-extended; an FSEL of 8-15 completes with ADDR_RANGE as an undefined encoding (R74, R79). -/
def Obligations.TileDescriptorFieldsAreWritten : Prop :=
  ∀ (c : CoreId) (h : Hdr) (td : Fin 32) (fsel : Fin 16) (rx ry : Fin 64) (imm : BitVec 22) (s : State),
    let s0 := s.taken c h
    let k := s0.core c.val
    let w := k.tget td.val
    let ops := fun (v : Nat) => td.val * 2 ^ 32 + fsel.val * 2 ^ 28 + v
    let sets := fun (lo n v : Nat) => Host.Outcome.next (φ := Fault) (ρ := Refusal)
      (s0.moved c h (fun k => k.tset td.val (BitVec.ofNat 128 (setFld w.toNat lo n v))))
    (s.Issues c h 0x34 (td.val * 2 ^ 32 + rx.val * 2 ^ 22 + ry.val * 2 ^ 16) → exec (.tdSet c h td rx ry) s = .next (s0.moved c h (fun k => k.tset td.val (k.sget ry.val ++ k.sget rx.val))))
    ∧ (∀ lo n, fselField fsel.val = some (lo, n) →
      (s.Issues c h 0x35 (ops (rx.val * 2 ^ 22)) → exec (.tdSetf c h td fsel rx) s = sets lo n (k.sget rx.val).toNat)
      ∧ (s.Issues c h 0x36 (ops imm.toNat) → exec (.tdSetfi c h td fsel imm) s = sets lo n (h.immS imm).toNat)
      ∧ (s.Issues c h 0x37 (ops imm.toNat) → exec (.tdAddf c h td fsel imm) s = sets lo n (fld w.toNat lo n + (h.immS imm).toNat))
      ∧ (s.Issues c h 0x38 (ops (rx.val * 2 ^ 22)) → exec (.tdGetf c h td fsel rx) s = .next (s0.moved c h (fun k => k.sset rx.val (BitVec.ofNat 64 (fld w.toNat lo n))))))
    ∧ (8 ≤ fsel.val →
      let undef := Host.Outcome.next (φ := Fault) (ρ := Refusal) (s0.seqFatal c.val Status.addrRange 0x0101 k.fetched)
      (s.Issues c h 0x35 (ops (rx.val * 2 ^ 22)) → exec (.tdSetf c h td fsel rx) s = undef)
      ∧ (s.Issues c h 0x36 (ops imm.toNat) → exec (.tdSetfi c h td fsel imm) s = undef)
      ∧ (s.Issues c h 0x37 (ops imm.toNat) → exec (.tdAddf c h td fsel imm) s = undef)
      ∧ (s.Issues c h 0x38 (ops (rx.val * 2 ^ 22)) → exec (.tdGetf c h td fsel rx) s = undef))
    ∧ fselField 0 = some (0, 26) ∧ fselField 1 = some (26, 4) ∧ fselField 2 = some (32, 16) ∧ fselField 3 = some (48, 16)
    ∧ fselField 4 = some (64, 26) ∧ fselField 5 = some (96, 24) ∧ fselField 6 = some (0, 64) ∧ fselField 7 = some (64, 64)

/-- An instruction executes when p[GP] XOR GN is 1, so GP = 0 with GN = 0 always executes and GP = 0 with GN = 1 never does; one
that does not execute retires without effect: it goes on to the next word, waits on nothing and changes nothing else.  Stated
of the operation through which every instruction issues, and again of ADD, BR, LOOP, LD, END, a NOP and a TUM.ADD of any
queue, GET, MM, VADD and FENCE.SYSTEM (R71). -/
def Obligations.FalseGuardOnlyMovesOn : Prop :=
  ∀ (c : CoreId) (h : Hdr) (rd ra : Fin 64) (b : SrcB) (i : BitVec 16) (imm : BitVec 25) (u : List Upset) (g : FmtG) (fi : FmtI)
    (fn : FmtN) (ft : FmtT) (s : State),
    let k := s.core c.val
    let on := Host.Outcome.next (φ := Fault) (ρ := Refusal) (s.moved c h id)
    k.guard h = (k.pget h.gp.val != h.gn) ∧ (h.gp.val = 0 → k.guard h = !h.gn) ∧
    (s.failed = false → k.canIssue = true → k.windowFull = false → k.guard h = false → k.ip + h.words ≤ 32767 → undefinedWord k.fetched = false →
      (∀ (opc operands : Nat) (f : State → State), k.fetches h opc operands = true → s.issue c.val h opc operands f = s.moved c h id)
      ∧ (k.fetches h 0x31 (ra.val * 2 ^ 31 + i.toNat) = true → exec (.loop c h ra i) s = on)
      ∧ (k.fetches h (srcBOpc b 0x02) (packAB rd ra b) = true → exec (.add c h rd ra b) s = on)
      ∧ (k.fetches h 0x30 i.toNat = true → exec (.br c h i) s = on)
      ∧ (k.fetches h 0x1E (rd.val * 2 ^ 31 + ra.val * 2 ^ 25 + imm.toNat) = true → exec (.ld c h rd ra imm u) s = on)
      ∧ (k.fetches h 0x01 0 = true → exec (.endOp c ⟨h, u⟩) s = on)
      ∧ (k.fetches h 0x00 0 = true → exec (.nop c (.issue h ())) s = on)
      ∧ (k.fetches h 0x40 (packG g) = true → exec (.tumAdd c (.issue h g)) s = on)
      ∧ (k.fetches h 0x60 (packI fi) = true → exec (.get c (.issue h fi)) s = on)
      ∧ (k.fetches h 0x81 (packN fn) = true → exec (.mm c (.issue h fn)) s = on)
      ∧ (k.fetches h 0xA2 (packT ft) = true → exec (.vadd c (.issue h ft)) s = on)
      ∧ (k.fetches h 0x52 0 = true → exec (.fenceSystem c h) s = on))

/-- NOP in queue 0 only moves on, and in an engine queue completes with no effect; END stops issue and ends the core's
fillers, and once the core's window is empty the core is finished (R66, R67, R80, R137).

A word at the instruction pointer that is no defined encoding completes with ADDR_RANGE, task-fatal on its core, with no
effect, and logs an S3 record of cause 0x0101 whose INFO0 holds the word; so does a base word whose extension word would lie
past word 32,767, and an advance past that word, with cause 0x0102; the command of an instruction that is not the one fetched
changes nothing.  Words of opcode 0x39, of an opcode that no row gives, and of a queue that the opcode does not allow are no
defined encodings (R51, R74, R75, R413).  Stated of ADD, which has every form of these. -/
def Obligations.EndsAndUndefinedEncodings : Prop :=
  (∀ (c : CoreId) (h : Hdr) (id : Nat) (e : Entry) (u : List Upset) (s : State),
    (s.Issues c h 0x00 0 → h.q.val = 0 → exec (.nop c (.issue h ())) s = .next ((s.taken c h).moved c h (fun k => k)))
    ∧ (s.Queues c h 0x00 0 → h.q.val ≠ 0 → exec (.nop c (.issue h ())) s = .next (s.joined c h .nop))
    ∧ (s.Runs c id e → e.op = .nop → exec (.nop c (.run id u)) s = .next ((s.sramUpsets u).completed c id 0))
    ∧ (s.Issues c h 0x01 0 → (∀ i, i < 4 → ((s.core c.val).fillerOf i).running = false) → exec (.endOp c ⟨h, u⟩) s
        = .next ((s.taken c h).modCore c.val (fun k => { k with ending := true, stall := some .ending })))
    ∧ (s.Issues c h 0x01 0 → ∃ t : State, exec (.endOp c ⟨h, u⟩) s = .next t ∧ (t.core c.val).ending = true ∧ (t.core c.val).stall = some .ending
        ∧ ∀ i, i < 4 → ((t.core c.val).fillerOf i).running = false)
    ∧ (s.failed = false → (s.core c.val).state = 1 → (s.core c.val).ending = true → (s.core c.val).finished = false → (s.core c.val).window = [] →
      exec (.endFinish c) s = .next (s.modCore c.val (fun k => { k with finished := true, stall := none, preRead := [] })))
    ∧ ((s.core c.val).window ≠ [] → exec (.endFinish c) s = .next s))
  ∧ ((∀ (c : CoreId) (h : Hdr) (rd ra : Fin 64) (b : SrcB) (s : State),
    let k := s.core c.val
    let past := wordExt k.fetched = true ∧ 32767 < k.ip + 1
    let ended := fun (s : State) => Host.Outcome.next (φ := Fault) (ρ := Refusal) (s.coreFatal c.val
      { status := Status.addrRange, cause := 0x0102, unit := 0, ip := k.ip, addr := 0, info := 0 })
    s.failed = false → k.canIssue = true →
      (past → exec (.add c h rd ra b) s = ended s)
      ∧ (¬ past → undefinedWord k.fetched = true → exec (.add c h rd ra b) s = .next (s.coreFatal c.val
          { status := Status.addrRange, cause := 0x0101, unit := wordUnit k.fetched, ip := k.ip, addr := 0, info := k.fetched }))
      ∧ (¬ past → undefinedWord k.fetched = false → k.fetches h (srcBOpc b 0x02) (packAB rd ra b) = false → exec (.add c h rd ra b) s = .next s)
      ∧ (¬ past → undefinedWord k.fetched = false → k.fetches h (srcBOpc b 0x02) (packAB rd ra b) = true → k.windowFull = false →
        k.guard h = true → h.dw.val = 0xFF → 32767 < k.ip + h.words →
        exec (.add c h rd ra b) s = ended (s.modCore c.val (fun k => k.sset rd.val (k.sget ra.val + k.srcB h b)))))
  ∧ (∀ w : Word, (wordOpc w = 0x39 ∨ opcQueues (wordOpc w) = none ∨ (∀ qs, opcQueues (wordOpc w) = some qs → wordQ w ∉ qs)) → undefinedWord w = true))

/-- A task-fatal status of an instruction ends its task: the core stops unless it has finished, its undispatched
instructions and the pre-issued reads that no instruction has taken go without effect, its registers and scratchpad stay; every other core of the task that runs and has not
finished stops too; the first such status fixes the task's result unless a job-fatal fault or KILL has ended it before; the
cores of other tasks are unchanged (R60, R232). -/
def Obligations.TaskFatalStatusStopsTheTask : Prop :=
  ∀ (c : CoreId) (f : Fatal) (s : State), let t := (s.core c.val).task
    t ≠ 0 → f.status ≠ 0 →
    let u := s.coreFatal c.val f
    ((s.core c.val).finished = false → (u.core c.val).state = 2 ∧ (u.core c.val).lastStatus = f.status ∧ (∀ p ∈ (u.core c.val).preRead, ∃ e ∈ (u.core c.val).window, p.bound = some e.id)
      ∧ (∀ e ∈ (u.core c.val).window, e ∈ (s.core c.val).window ∧ e.phase ≠ .queued)
      ∧ (u.core c.val).sreg = (s.core c.val).sreg ∧ (u.core c.val).sp = (s.core c.val).sp)
    ∧ (∀ d : CoreId, (s.core d.val).task = t → (s.core d.val).state = 1 → (s.core d.val).finished = false →
      (u.core d.val).state = 2 ∧ (∀ p ∈ (u.core d.val).preRead, ∃ e ∈ (u.core d.val).window, p.bound = some e.id)
      ∧ ∀ e ∈ (u.core d.val).window, e.phase ≠ .queued)
    ∧ (∀ d : CoreId, (s.core d.val).task ≠ t → u.core d.val = s.core d.val)
    ∧ (∀ x ∈ s.tasks, x.num = t → x.killed = false → x.jobFatal = none →
      ∃ y ∈ u.tasks, y.num = t ∧ y.fatal = (match x.fatal with | some g => some g | none => some (f.status, c.val, f.ip)))
    ∧ (∀ x ∈ s.tasks, x.num ≠ t → x ∈ u.tasks)

/-! ## Tumblers and fences (R81-R87, R180-R197) -/

/-- TUM.ADD adds to its count, TUM.SET writes it, TUM.READ reads it zero-extended, and TUM.WAIT goes on once its count has
reached N, taking N when it consumes; in queue 0 at issue, with its acquire, in an engine queue when the queue runs it, where
an unmet wait holds its queue, and where waits that come before it in the order of R83 take theirs first (R81-R83).  N is `nAdd` for TUM.ADD
and `nUns` for the others.

A count that an addition would carry past 2^32 − 1 holds there with TUM_OVERFLOW, and one that it would carry below 0
holds at 0 with TUM_UNDERFLOW; else the count is the exact sum.  Every addition to a tumbler goes through `tumAdd` (R81). -/
def Obligations.LocalTumblers : Prop :=
  (∀ (c : CoreId) (h : Hdr) (o : FmtG) (id : Nat) (e : Entry) (s : State),
    let s0 := s.taken c h
    let k := s0.core c.val
    let tn := o.tn.val
    let sum := ((k.ltGet tn).toNat : Int) + k.nAdd h o
    let n := k.nUns h o
    (s.Issues c h 0x40 (packG o) → h.q.val = 0 → 0 ≤ sum → sum < 2 ^ 32 →
      exec (.tumAdd c (.issue h o)) s = .next (s0.moved c h (fun k => k.ltSet tn (BitVec.ofInt 32 sum))))
    ∧ (s.Issues c h 0x41 (packG o) → h.q.val = 0 → n ≤ (k.ltGet tn).toNat →
      exec (.tumWait c (.issue h o)) s = .next (((s0.modCore c.val (fun k =>
        if o.consume then k.ltSet tn (k.ltGet tn - BitVec.ofNat 32 n) else k)).staleReads c.val o.scope.val).moved c h (fun k => k)))
    ∧ (s.Issues c h 0x41 (packG o) → h.q.val = 0 → (k.ltGet tn).toNat < n →
      exec (.tumWait c (.issue h o)) s = .next ((s0.modCore c.val (fun k => { k with dwTaken := true })).stallOn c.val
        (.tum tn n (max 1 o.scope.val) o.consume h.words) h.words true))
    ∧ (s.Issues c h 0x42 (packG o) → h.q.val = 0 → exec (.tumSet c (.issue h o)) s = .next (s0.moved c h (fun k => k.ltSet tn (BitVec.ofNat 32 n))))
    ∧ (s.Issues c h 0x43 (packG o) → exec (.tumRead c h o) s = .next (s0.moved c h (fun k => k.sset (o.n.toNat % 64) ((k.ltGet tn).setWidth 64))))
    ∧ (s.Queues c h 0x40 (packG o) → h.q.val ≠ 0 → exec (.tumAdd c (.issue h o)) s = .next (s.joined c h (.tumAdd tn (k.nAdd h o) o.scope.val)))
    ∧ (s.Queues c h 0x41 (packG o) → h.q.val ≠ 0 → exec (.tumWait c (.issue h o)) s = .next (s.joined c h (.tumWait tn n o.scope.val o.consume)))
    ∧ (s.Queues c h 0x42 (packG o) → h.q.val ≠ 0 → exec (.tumSet c (.issue h o)) s = .next (s.joined c h (.tumSet tn (BitVec.ofNat 32 n))))
    ∧ (∀ t m sc, s.Runs c id e → e.op = .tumAdd t m sc → 0 ≤ ((s.core c.val).ltGet t).toNat + m → ((s.core c.val).ltGet t).toNat + m < 2 ^ 32 →
      exec (.tumAdd c (.run id [])) s
        = .next ((s.modCore c.val (fun k => k.ltSet t (BitVec.ofInt 32 ((k.ltGet t).toNat + m)))).completed c id 0))
    ∧ (∀ t m sc, s.Runs c id e → e.op = .tumWait t m sc true → m ≤ (s.core c.val).countFor t e.q →
      exec (.tumWait c (.run id [])) s = .next ((s.modCore c.val (fun k => k.ltSet t (k.ltGet t - BitVec.ofNat 32 m))).completed c id 0))
    ∧ (∀ t m sc, s.Runs c id e → e.op = .tumWait t m sc false → m ≤ (s.core c.val).countFor t e.q →
      exec (.tumWait c (.run id [])) s = .next (s.completed c id 0))
    ∧ (∀ t m sc w, s.Runs c id e → e.op = .tumWait t m sc w → (s.core c.val).countFor t e.q < m → exec (.tumWait c (.run id [])) s = .next s)
    ∧ (∀ k : Core, ∀ t q, (∀ w ∈ k.waitsOn t, q ≤ w.1) → k.countFor t q = (k.ltGet t).toNat)
    ∧ (∀ t v, s.Runs c id e → e.op = .tumSet t v → exec (.tumSet c (.run id [])) s = .next ((s.modCore c.val (fun k => k.ltSet t v)).completed c id 0)))
  ∧ (∀ (v : Word32) (n : Int),
    ((v.toNat : Int) + n < 0 → tumAdd v n = (0, Status.tumUnderflow))
    ∧ (2 ^ 32 - 1 < (v.toNat : Int) + n → tumAdd v n = (BitVec.allOnes 32, Status.tumOverflow))
    ∧ (0 ≤ (v.toNat : Int) + n → (v.toNat : Int) + n ≤ 2 ^ 32 - 1 → ((tumAdd v n).1.toNat : Int) = v.toNat + n ∧ (tumAdd v n).2 = Status.ok))

/-- TUM.WAIT.G on an owned hub tumbler of this module whose count has reached N goes on, with its acquire, taking N when it
consumes, and else registers the core as a waiter; TUM.ALLOC hands the task n free hub tumblers, their counts 0, and writes the address of the
first to RB, or all ones when there is no such run; TUM.FREE returns the allocation that begins at RA; each crosses the link of its
core's leaf, and waits, its dispatch wait consumed, while the link takes no packet (R85, R86, R340, R348).

TUM.ADD.G, TUM.SET.G and TUM.READ.G on an owned hub tumbler of this module act on its count, wake its waiters in
order and complete, TUM.READ.G with the count in SP; toward a padlocked module they complete PADLOCKED, and on an address
that R88 refuses with ADDR_RANGE, and reach no tumbler; one that leaves its leaf crosses the leaf's link (R85, R88, R98, R185, R340). -/
def Obligations.HubAndGlobalTumblers : Prop :=
  (∀ (c : CoreId) (h : Hdr) (o : FmtH) (s : State),
    let s0 := s.taken c h
    let k := s0.core c.val
    let n := k.nH h o
    let len := max 1 (min n 64)
    let l := c.val / 12
    let held := Host.Outcome.next (φ := Fault) (ρ := Refusal) (s0.modCore c.val (fun k => { k with dwTaken := true }))
    (s0.linkOpen l = true →
      (∀ t, s.Issues c h 0x44 (packH o) → s0.hubOf (k.sget o.ra.val) = some t → (s0.hubAlloc t).isSome = true → n ≤ (s0.hubGet t).toNat →
        exec (.tumWaitG c h o) s = .next ((((if o.consume then s0.hubSet t (s0.hubGet t - BitVec.ofNat 32 n) else s0).staleReads c.val o.scope.val).moved c h id).crossLink l))
      ∧ (∀ t, s.Issues c h 0x44 (packH o) → s0.hubOf (k.sget o.ra.val) = some t → (s0.hubAlloc t).isSome = true → (s0.hubGet t).toNat < n →
        exec (.tumWaitG c h o) s = .next (((({ s0 with waiters := s0.waiters ++ [{ tum := t, core := c.val, n := n, consume := o.consume, woken := false }] } : State).modCore
          c.val (fun k => { k with dwTaken := true })).stallOn c.val (.hub t n (max 1 o.scope.val) o.consume h.words) h.words true).crossLink l))
      ∧ (∀ a, k.sget o.ra.val = a → (s0.hubOf a = none ∨ ∃ t, s0.hubOf a = some t ∧ s0.hubAlloc t = none) →
        s.Issues c h 0x44 (packH o) → exec (.tumWaitG c h o) s = .next ((s0.seqFatal c.val Status.addrRange 0x0102 0).crossLink l))
      ∧ (∀ f, s.Issues c h 0x45 (packH o) → s0.freeRun len = some f →
        ∃ t : State, exec (.tumAlloc c h o) s = .next t ∧ t.allocs = s0.allocs ++ [{ first := f, len := len, task := k.task }]
          ∧ (∀ i, i < len → t.hubGet (f + i) = 0) ∧ (∀ i, i < f ∨ f + len ≤ i → t.hubGet i = s0.hubGet i)
          ∧ t.core c.val = { k.sset o.rb.val (gAddr s.modNum spTUM (f * 8)) with ip := k.ip + h.words, dwTaken := false, stall := none }
          ∧ (∀ d : CoreId, d ≠ c → t.core d.val = s.core d.val)
          ∧ t = { s with cores := t.cores, allocs := t.allocs, hubTum := t.hubTum, leaves := t.leaves })
      ∧ (s.Issues c h 0x45 (packH o) → s0.freeRun len = none →
        exec (.tumAlloc c h o) s = .next ((s0.moved c h (fun k => k.sset o.rb.val (BitVec.allOnes 64))).crossLink l))
      ∧ (∀ t a, s.Issues c h 0x46 (packH o) → s0.hubOf (k.sget o.ra.val) = some t → s0.allocs.find? (fun a => a.first == t && a.task == k.task) = some a →
        (∀ w ∈ s0.waiters, w.tum < a.first ∨ a.first + a.len ≤ w.tum ∨ w.woken = true) →
        exec (.tumFree c h o) s = .next ((({ s0 with allocs := s0.allocs.erase a } : State).moved c h id).crossLink l))
      ∧ (∀ t a, s.Issues c h 0x46 (packH o) → s0.hubOf (k.sget o.ra.val) = some t → s0.allocs.find? (fun a => a.first == t && a.task == k.task) = some a →
        ∃ u : State, exec (.tumFree c h o) s = .next u ∧ u.allocs = s0.allocs.erase a
          ∧ ∀ w ∈ u.waiters, w ∈ s0.waiters ∧ (w.tum < a.first ∨ a.first + a.len ≤ w.tum ∨ w.woken = true))
      ∧ (s.Issues c h 0x46 (packH o) → (∀ t, s0.hubOf (k.sget o.ra.val) = some t → ∀ a ∈ s0.allocs, ¬ (a.first = t ∧ a.task = k.task)) →
        exec (.tumFree c h o) s = .next ((s0.seqFatal c.val Status.addrRange 0x0102 0).crossLink l)))
    ∧ (s0.linkOpen l = false →
      (s.Issues c h 0x44 (packH o) → exec (.tumWaitG c h o) s = held) ∧ (s.Issues c h 0x45 (packH o) → exec (.tumAlloc c h o) s = held)
      ∧ (s.Issues c h 0x46 (packH o) → exec (.tumFree c h o) s = held)))
  ∧ (∀ (c : CoreId) (id : Nat) (e : Entry) (a rb : Word) (n : Int) (v : Word32) (sc cls : Nat) (s : State), s.Runs c id e → e.id = id →
    let ok := gSpace a == spTUM && s.addrOk a 4 true
    let done := fun (t : State) (st : Nat) => Host.Outcome.next (φ := Fault) (ρ := Refusal) (s.crossed c e.op (t.completed c id st))
    (∀ t, ok = true → s.isHere a = true → tumOfOff (gOff a) = some (.inl t) → (s.hubAlloc t).isSome = true →
      (e.op = .tumAddG a n sc cls → 0 ≤ ((s.hubGet t).toNat : Int) + n → ((s.hubGet t).toNat : Int) + n < 2 ^ 32 →
        exec (.tumAddG c (.run id [])) s = done ((s.hubSet t (BitVec.ofInt 32 ((s.hubGet t).toNat + n))).hubWake t) 0)
      ∧ (e.op = .tumSetG a v cls → exec (.tumSetG c (.run id [])) s = done ((s.hubSet t v).hubWake t) 0)
      ∧ (e.op = .tumReadG a rb cls → rb.toNat % 8 = 0 → rb.toNat ≤ 0x27FFFF8 →
        exec (.tumReadG c (.run id [])) s
          = done (((s.hubSet t (s.hubGet t)).hubWake t).spWrite c.val rb.toNat (leBytes 8 (s.hubGet t).toNat)) 0))
    ∧ (ok = true → s.isHere a = false → s.padlocked (gMod a) = true →
      (e.op = .tumAddG a n sc cls → exec (.tumAddG c (.run id [])) s = done s Status.padlocked)
      ∧ (e.op = .tumSetG a v cls → exec (.tumSetG c (.run id [])) s = done s Status.padlocked)
      ∧ (e.op = .tumReadG a rb cls → rb.toNat % 8 = 0 → rb.toNat ≤ 0x27FFFF8 → exec (.tumReadG c (.run id [])) s = done s Status.padlocked))
    ∧ (ok = false →
      (e.op = .tumAddG a n sc cls → exec (.tumAddG c (.run id [])) s = done s Status.addrRange)
      ∧ (e.op = .tumSetG a v cls → exec (.tumSetG c (.run id [])) s = done s Status.addrRange)
      ∧ (e.op = .tumReadG a rb cls → exec (.tumReadG c (.run id [])) s = done s Status.addrRange))
    ∧ (e.op = .tumReadG a rb cls → rb.toNat % 8 ≠ 0 ∨ 0x27FFFF8 < rb.toNat → exec (.tumReadG c (.run id [])) s = done s Status.addrRange))

/-- A FENCE whose instructions have all completed goes on, and makes stale the pre-issued reads that its scope covers; else the sequencer stalls on it (R87); and a stalled sequencer
goes on when its condition has cleared: a wait or FENCE completes with its acquire, a dispatch wait is consumed, and a
full queue or window lets its instruction issue again (R53, R184).

A host addition reaches the task that runs on the core of its INDEX, or is parked while that task is pre-empted; a park
that is full, or an INDEX that no task owns, discards it with an S0 record (R183, R188); the TE retries an operation that a
full park refused once the park has room (R188).

The deadlock detector counts a sample of a running task at which every unit of it is stalled and clears the count at any
other, and WINDOW_US as it then stands acts from the sample on; once the count passes the window it ends the task with
DEADLOCK, counts the firing and names the task (R193-R197).  Samples come as commands (assumption 6). -/
def Obligations.FencesHostAdditionsAndDeadlock : Prop :=
  (∀ (c : CoreId) (h : Hdr) (s : State),
    let s0 := s.taken c h
    let k := s.core c.val
    let wait := fun (sc : Nat) => Host.Outcome.next (φ := Fault) (ρ := Refusal)
      ((s0.modCore c.val (fun k => { k with dwTaken := true })).stallOn c.val (.fence sc h.words) h.words true)
    let on := fun (sc : Nat) => Host.Outcome.next (φ := Fault) (ρ := Refusal) ((s0.staleReads c.val sc).moved c h id)
    let go := fun (f : Core → Core) => Host.Outcome.next (φ := Fault) (ρ := Refusal) (s.modCore c.val (fun k => f { k with stall := none }))
    (s.Issues c h 0x50 0 → exec (.fenceCore c h) s = if k.window.all (fun e => !e.op.touches) then on 1 else wait 1)
    ∧ (s.Issues c h 0x51 0 → exec (.fenceModule c h) s = if k.window.all (fun e => !e.op.touches) then on 2 else wait 2)
    ∧ (s.Issues c h 0x52 0 → exec (.fenceSystem c h) s = if k.window.all (fun e => !e.op.touches) then on 3 else wait 3)
    ∧ (s.failed = false → k.state = 1 → k.draining = false →
      (∀ n, k.stall = some (.dispatchWait n) → exec (.sequencerWake c) s
        = if 1 ≤ (k.ltGet n).toNat then go (fun k => { k.ltSet n (k.ltGet n - 1) with dwTaken := true }) else .next s)
      ∧ (∀ tn n sc w words, k.stall = some (.tum tn n sc w words) → exec (.sequencerWake c) s
        = if n ≤ (k.ltGet tn).toNat then
            .next (((s.modCore c.val (fun k => if w then k.ltSet tn (k.ltGet tn - BitVec.ofNat 32 n) else k)).staleReads c.val sc).advance c.val words)
          else .next s)
      ∧ (∀ sc words, k.stall = some (.fence sc words) → exec (.sequencerWake c) s
        = if k.fenceDone then .next ((s.staleReads c.val sc).advance c.val words) else .next s)
      ∧ (∀ t n sc w words, k.stall = some (.hub t n sc w words) → exec (.sequencerWake c) s
        = match s.waiters.find? (fun x => x.core == c.val && x.tum == t && x.woken) with
          | some x => .next ((({ s with waiters := s.waiters.erase x } : State).staleReads c.val sc).advance c.val words)
          | none => .next s)
      ∧ (∀ q, k.stall = some (.queueFull q) → exec (.sequencerWake c) s = if k.queueFull q then .next s else go id)
      ∧ (k.stall = some .windowFull → exec (.sequencerWake c) s = if k.windowFull then .next s else go id)))
  ∧ (∀ (c : CoreId) (n id : Nat) (v : Word) (t : Task) (s : State), s.failed = false → s.rd Reg.GLB_BOOT_STAGE = 4 →
    tumOfOff (v.toNat % 32768 * 8) = some (.inr (c.val, n)) →
    let count := ((s.core c.val).ltGet n).toNat
    let sum := (count : Int) + sext 32 (v.toNat / 2 ^ 32 % 2 ^ 32)
    (s.tumRunning c.val none = true → 0 ≤ sum → sum < 2 ^ 32 →
      exec (.tumHostAdd v) s = .next (s.modCore c.val (fun k => k.ltSet n (BitVec.ofInt 32 sum))))
    ∧ (s.tumRunning c.val none = false → s.tumPreempted c.val none = some t → s.park.length < 1024 →
      ∃ u : State, exec (.tumHostAdd v) s = .next u ∧ u = { s with park := u.park } ∧ ∃ p : Parked, u.park = s.park ++ [p]
        ∧ p.core = c.val ∧ p.tum = n ∧ p.task = t.num ∧ p.issuer = .none)
    ∧ (s.tumRunning c.val none = false → s.tumPreempted c.val none = none →
      exec (.tumHostAdd v) s = .next (s.logS0 Status.addrRange 0x0A03 (v.toNat % 32768 * 8)))
    ∧ (∀ p m, s.refused.find? (fun p => p.issuer == .local_ c.val id) = some p → p.op = .add m → p.tum < 256 → p.core < 48 →
      s.tumRunning p.core (some (s.coreJob c.val)) = false → s.tumPreempted p.core (some (s.coreJob c.val)) = some t → s.park.length < 1024 →
      ∃ u : State, exec (.parkRetry c id) s = .next (u.completed c id 0) ∧ u.refused = s.refused.erase p ∧ u.park.length = s.park.length + 1
        ∧ u = { s with refused := u.refused, park := u.park }))
  ∧ (∀ (n : Nat) (t : Task) (s : State), s.task? n = some t → s.failed = false → t.state = .running → t.fatal = none →
    exec (.deadlockSample n) s
      = .next { s with
          lag := (s.settle Reg.TUM_DL_CTL_WINDOW_US).lag,
          tasks := s.tasks.map (fun x => if x.num == n then { x with stalled := if s.taskStalled t then x.stalled + 1 else 0 } else x) }
    ∧ (s.act Reg.TUM_DL_CTL_WINDOW_US < t.stalled →
      ∃ u : State, exec (.deadlockFire n) s = .next u ∧ u.rd Reg.TUM_DL_STAT_FIRED = min (s.rd Reg.TUM_DL_STAT_FIRED + 1) (2 ^ Reg.TUM_DL_STAT_FIRED.w - 1)
        ∧ (∀ x ∈ u.tasks, x.num = n → x.fatal.isSome = true ∨ x.killed = true ∨ x.jobFatal.isSome = true))
    ∧ (t.stalled ≤ s.act Reg.TUM_DL_CTL_WINDOW_US → exec (.deadlockFire n) s = .next s))

/-! ## Engine instructions at issue, dispatch and completion (R46, R52-R60, R82, R97, R98, R105) -/

/-- An engine instruction of the tile-transfer, matrix and vector families joins its queue and the window with the operand
values that its registers hold at issue; a GET takes the read that was pre-issued for it, a PUT or PUT.SIG whose send log is
off counts it, and MM.FILL takes FILL_FLOOR where it asks for less (R46, R52, R63, R138, R432).

So does every instruction of the sampling, KV and collective families (R46, R52). -/
def Obligations.EngineInstructionsJoinTheirQueue : Prop :=
  (∀ (c : CoreId) (h : Hdr) (s : State),
    let k := s.core c.val
    let joins := fun (i : Instr) (opc operands : Nat) (op : EInst) =>
      s.Queues c h opc operands → exec i s = .next (s.joined c h op)
    (∀ o : FmtH, joins (.tumAddG c (.issue h o)) 0x48 (packH o) (.tumAddG (k.sget o.ra.val) (k.nAddG h o) o.scope.val o.cls.val)
      ∧ joins (.tumSetG c (.issue h o)) 0x49 (packH o) (.tumSetG (k.sget o.ra.val) (BitVec.ofNat 32 (k.nH h o)) o.cls.val)
      ∧ joins (.tumReadG c (.issue h o)) 0x4A (packH o) (.tumReadG (k.sget o.ra.val) (k.sget o.rb.val) o.cls.val))
    ∧ (∀ o : FmtI,
      let td := k.tget o.td.val
      let ra := k.sget o.ra.val
      let rb := k.sget o.rb.val
      let get := EInst.get td ra rb o.cls.val o.hint.val
      (k.aheadOf td ra rb = none → joins (.get c (.issue h o)) 0x60 (packI o) get)
      ∧ (∀ p, k.aheadOf td ra rb = some p → (∀ e ∈ k.window, e.id < k.nextId) → s.Queues c h 0x60 (packI o) →
          exec (.get c (.issue h o)) s
            = .next (if h.slotEn = true ∧ 0x4FFFFF < h.slot then s.joined c h get else (s.joined c h get).takeAhead c.val k.nextId p))
      ∧ (s.Queues c h 0x61 (packI o) → exec (.put c (.issue h o)) s = .next ((s.noteLog c.val h).joined c h (.put td ra rb o.cls.val o.hint.val h.var)))
      ∧ (s.Queues c h 0x62 (packI o) → exec (.putSig c (.issue h o)) s
          = .next ((s.noteLog c.val h).joined c h (.putSig td ra rb (k.sget o.rc.val) o.cls.val o.hint.val o.scope.val h.var))))
    ∧ (∀ o : FmtJ, joins (.putMc c (.issue h o)) 0x63 (packJ o)
        (.putMc (k.tget o.td.val) (k.sget o.ra.val) (k.sget o.rb.val) (k.sget o.rc.val) (k.sget o.rd.val) o.cls.val o.hint.val))
    ∧ (∀ o : FmtK, joins (.copy c (.issue h o)) 0x64 (packK o) (.copy (k.tget o.td.val) (k.tget o.ts.val))
      ∧ joins (.copyT c (.issue h o)) 0x65 (packK o) (.copyT (k.tget o.td.val) (k.tget o.ts.val)))
    ∧ (∀ o : FmtL, joins (.atom c (.issue h o)) 0x66 (packL o)
        (.atom (k.sget o.ra.val) (k.sget o.rb.val) (k.sget o.rc.val) (k.sget o.rd.val) o.scope.val o.cls.val o.w64 h.var o.aop.val))
    ∧ (∀ o : FmtM, joins (.mmLds c (.issue h o)) 0x80 (packM o) (.mmLds (k.tget o.ts.val) (k.sget o.rk.val) (k.sget o.rn.val) o.shape.val o.sslot.val h.var))
    ∧ (∀ o : FmtN, joins (.mm c (.issue h o)) 0x81 (packN o) (.mm (k.tget o.ts.val) (k.sget o.rk.val) o.sslot.val h.var))
    ∧ (∀ o : FmtO, joins (.mmDrain c (.issue h o)) 0x82 (packO o) (.mmDrain (k.tget o.td.val) (k.sget o.ra.val) o.h.val o.add h.var))
    ∧ (∀ n : BitVec 12, joins (.mmFill c (.issue h n)) 0x83 n.toNat (.mmFill (max n.toNat (s.rd (Reg.LEAF_FILL_CTL_FILL_FLOOR (c.val / 12))))))
    ∧ (∀ o : FmtS, joins (.mv c (.issue h o)) 0x90 (packS o) (.mv (k.tget o.td.val) (k.tget o.ts.val) (k.tget o.tx.val) h.var))
    ∧ (∀ o : FmtU, joins (.vld c (.issue h o)) 0xA0 (packU o) (.vld o.vd.val (k.tget o.ts.val) (k.sget o.ra.val) (k.sget o.rb.val) o.ty)
      ∧ joins (.vst c (.issue h o)) 0xA1 (packU o) (.vst o.vd.val (k.tget o.ts.val) (k.sget o.ra.val) (k.sget o.rb.val) o.ty o.sr)
      ∧ joins (.vtload c (.issue h o)) 0xAC (packU o) (.vtload o.vd.val (k.tget o.ts.val)))
    ∧ (∀ o : FmtT,
      let rs := if h.var then some ((k.sget o.rs.val).setWidth 32) else none
      let el := fun f => EInst.velem f o.vd.val o.va.val o.vb.val o.vc.val rs o.ty o.sr
      joins (.vadd c (.issue h o)) 0xA2 (packT o) (el 0) ∧ joins (.vsub c (.issue h o)) 0xA3 (packT o) (el 1)
      ∧ joins (.vmul c (.issue h o)) 0xA4 (packT o) (el 2) ∧ joins (.vfma c (.issue h o)) 0xA5 (packT o) (el 3)
      ∧ joins (.vmax c (.issue h o)) 0xA6 (packT o) (el 4) ∧ joins (.vmin c (.issue h o)) 0xA7 (packT o) (el 5)
      ∧ joins (.vcvt c (.issue h o)) 0xA8 (packT o) (.vcvt o.vd.val o.va.val o.mode.val o.sr)
      ∧ joins (.vred c (.issue h o)) 0xA9 (packT o) (.vred o.vd.val o.va.val o.mode.val o.ty o.sr)
      ∧ joins (.vfn c (.issue h o)) 0xAA (packT o) (.vfn o.vd.val o.va.val o.vc.val false o.ty o.sr)
      ∧ joins (.vfnD c (.issue h o)) 0xAB (packT o) (.vfn o.vd.val o.va.val o.vc.val true o.ty o.sr))
    ∧ (∀ o : FmtW,
      let row := fun kind => EInst.vrow kind (k.tget o.td.val) (k.tget o.ts.val) (k.tget o.tx.val) (k.tget o.tg.val) (k.sget o.ra.val) (k.sget o.rb.val) o.mode.val
      joins (.vrowNorm c (.issue h o)) 0xB0 (packW o) (row 0) ∧ joins (.vrowNormb c (.issue h o)) 0xB1 (packW o) (row 1)
      ∧ joins (.vrowSmax c (.issue h o)) 0xB2 (packW o) (row 2) ∧ joins (.vrowSmaxb c (.issue h o)) 0xB3 (packW o) (row 3)))
  ∧ (∀ (c : CoreId) (h : Hdr) (s : State),
    let k := s.core c.val
    let joins := fun (i : Instr) (opc operands : Nat) (op : EInst) =>
      s.Queues c h opc operands → exec i s = .next (s.joined c h op)
    (∀ o : FmtX,
      joins (.sampSlice c (.issue h o)) 0xB8 (packX o) (.sampSlice (k.tget o.ts.val) (k.sget o.rb.val) (k.sget o.rc.val) (k.sget o.rd.val))
      ∧ joins (.sampMerge c (.issue h o)) 0xB9 (packX o) (.sampMerge (k.tget o.ts.val) (k.sget o.ra.val) (k.sget o.rb.val) (k.sget o.rc.val) (k.sget o.rd.val))
      ∧ joins (.sampAccept c (.issue h o)) 0xBA (packX o)
          (.sampAccept (k.tget o.ts.val) (k.tget o.tq.val) (k.sget o.ra.val) (k.sget o.rb.val) (k.sget o.rc.val) (k.sget o.rd.val)))
    ∧ (∀ o : FmtY,
      let ra := k.sget o.ra.val
      let rb := k.sget o.rb.val
      let rc := k.sget o.rc.val
      let rd := k.sget o.rd.val
      joins (.kvNew c (.issue h o)) 0xC0 (packY o) (.kvNew ra rb) ∧ joins (.kvFree c (.issue h o)) 0xC1 (packY o) (.kvFree ra)
      ∧ joins (.kvExt c (.issue h o)) 0xC2 (packY o) (.kvExt ra rb rc h.var)
      ∧ joins (.kvPut c (.issue h o)) 0xC3 (packY o) (.kvPut (k.tget o.ts.val) ra rb rc)
      ∧ joins (.kvGet c (.issue h o)) 0xC4 (packY o) (.kvGet (k.tget o.ts.val) ra rb rc rd)
      ∧ joins (.kvDetent c (.issue h o)) 0xC5 (packY o) (.kvDetent ra)
      ∧ joins (.kvCommit c (.issue h o)) 0xC6 (packY o) (.kvCommit ra rb rc rd h.var)
      ∧ joins (.kvRollback c (.issue h o)) 0xC7 (packY o) (.kvRollback ra rc rd h.var))
    ∧ (∀ o : FmtZ, joins (.collOpen c (.issue h o)) 0xE0 (packZ o) (.collOpen (k.tget o.ts.val) (k.sget o.ra.val) (k.sget o.rb.val) o.h.val)
      ∧ joins (.collPub c (.issue h o)) 0xE1 (packZ o) (.collPub (k.tget o.ts.val) (k.sget o.ra.val) o.h.val)))

/-- A full window or a full target queue stalls the sequencer on an engine instruction, which changes nothing else; the
limits are 512 unretired instructions, 64 entries of an engine queue, 128 of the TE's (R52, R53).

Dispatch takes the entry at the head of a queue whose dispatch wait and interlocks are met: the wait consumes 1, the
entry is under way, pre-issued reads that it writes over are marked, and an MM finds no filler running on its arrays; an
entry that a wait holds stays, and nothing changes (R54, R56, R63, R83, R105, R136).

A completed instruction retires: with a status that is not task-fatal it writes its status record, the status in [7:0]
and its IP in [22:8], to SLOT × 8 of SP, and then adds 1 to the tumbler of its completion signal; an ATOM that has completed
acquires at its scope; ADDR_RANGE, ECC_UNCORRECTED, OWNER_GONE and COLL_MISMATCH do none of these and stop the core (R57,
R94, R97, R98). -/
def Obligations.QueuesDispatchAndComplete : Prop :=
  ((∀ (c : CoreId) (h : Hdr) (s : State),
    let stalls := fun (i : Instr) (opc operands : Nat) =>
      (s.Issues c h opc operands → (s.core c.val).queueFull h.q.val = true →
        exec i s = .next (s.modCore c.val (fun k => { k with stall := some (.queueFull h.q.val) })))
      ∧ (s.failed = false → (s.core c.val).canIssue = true → (s.core c.val).fetches h opc operands = true →
        undefinedWord (s.core c.val).fetched = false → (s.core c.val).ip + h.words ≤ 32768 → (s.core c.val).windowFull = true →
        exec i s = .next (s.modCore c.val (fun k => { k with stall := some .windowFull })))
    (∀ o, stalls (.put c (.issue h o)) 0x61 (packI o)) ∧ (∀ o, stalls (.copy c (.issue h o)) 0x64 (packK o))
    ∧ (∀ o, stalls (.mm c (.issue h o)) 0x81 (packN o)) ∧ (∀ o, stalls (.mv c (.issue h o)) 0x90 (packS o))
    ∧ (∀ o, stalls (.vadd c (.issue h o)) 0xA2 (packT o)) ∧ (∀ o, stalls (.sampSlice c (.issue h o)) 0xB8 (packX o))
    ∧ (∀ o, stalls (.kvFree c (.issue h o)) 0xC1 (packY o)) ∧ (∀ o, stalls (.collOpen c (.issue h o)) 0xE0 (packZ o)))
  ∧ (∀ k : Core, (k.windowFull = true ↔ 512 ≤ k.window.length))
  ∧ queueCap 7 = 128 ∧ (∀ q, q ≠ 7 → queueCap q = 64))
  ∧ (∀ (c : CoreId) (q : Fin 9) (u : List Upset) (e : Entry) (s : State),
    s.failed = false → (s.core c.val).state = 1 → (s.core c.val).draining = false → q.val ≠ 0 →
    let starts := fun (t : State) => (t.modCore c.val (fun k =>
      (if e.dw = 0xFF then k else k.ltTake e.dw 1).modEntry e.id (fun x => { x with phase := .dispatched }))).markDirty c.val e.op
    ((s.core c.val).headOf q.val = some e → (s.core c.val).dwSatisfied q.val e.dw = true →
      exec (.dispatch c ⟨q, u⟩) s = .next (starts (s.fillerAtDispatch c.val e u))
      ∧ ((∀ a b d f, e.op ≠ .mm a b d f) → (∀ a b d f g j, e.op ≠ .mmLds a b d f g j) → s.fillerAtDispatch c.val e u = s)
      ∧ (∀ a b d f, e.op = .mm a b d f → ∀ i ∈ (s.core c.val).arraysOf e.q,
          (((starts (s.fillerAtDispatch c.val e u)).core c.val).fillerOf i).running = false))
    ∧ ((s.core c.val).headOf q.val = some e → (s.core c.val).dwSatisfied q.val e.dw = false → exec (.dispatch c ⟨q, u⟩) s = .next s)
    ∧ ((s.core c.val).headOf q.val = none → exec (.dispatch c ⟨q, u⟩) s = .next s)
    ∧ (∀ k : Core, k.dwSatisfied q.val 0xFF = true)
    ∧ (∀ (k : Core) (n : Nat), n ≠ 0xFF → (k.dwSatisfied q.val n = true ↔ 1 ≤ k.countFor n q.val))
    ∧ (∀ (k : Core) (n : Nat), n ≠ 0xFF → (k.ltGet n).toNat = 0 → k.dwSatisfied q.val n = false)
    ∧ (∀ (k : Core) (n : Nat), (∀ w ∈ k.waitsOn n, q.val ≤ w.1) → k.countFor n q.val = (k.ltGet n).toNat))
  ∧ (∀ (c : CoreId) (id st : Nat) (e : Entry) (s : State), (s.core c.val).entry? id = some e → e.phase = .done st → e.late = false →
    let s0 := s.modCore c.val (fun k => { k with window := k.window.filter (fun x => x.id != id) })
    let s1 := match e.op with | .atom _ _ _ _ scope _ _ _ _ => if st = 0 then s0.staleReads c.val scope else s0 | _ => s0
    let record := fun (t : State) => if e.slotEn then t.spWrite c.val (e.slot * 8) (leBytes 8 (st + e.ip % 2 ^ 15 * 2 ^ 8)) else t
    (fatalStatus e.op st = false → st ≠ Status.tainted →
      exec (.instructionComplete c id) s = .next (((record (s1.nonFatal c.val st)).startFiller c.val e).signal c.val e))
    ∧ (st = 0 → (∀ a b d f, e.op ≠ .mm a b d f) → ((s.core c.val).ltGet e.cs).toNat < 2 ^ 32 - 1 →
      ∃ t : State, exec (.instructionComplete c id) s = .next t
        ∧ t = (if e.cs = 0xFF then record s1 else (record s1).modCore c.val (fun k => k.ltSet e.cs (k.ltGet e.cs + 1)))
        ∧ (∀ x ∈ (t.core c.val).window, x.id ≠ id)
        ∧ (e.cs ≠ 0xFF → ((t.core c.val).ltGet e.cs).toNat = ((s.core c.val).ltGet e.cs).toNat + 1))
    ∧ (fatalStatus e.op st = true →
      exec (.instructionComplete c id) s = .next (s1.coreFatal c.val
        { status := st, cause := e.cause, unit := if e.cause = 0x0103 then e.info.toNat + 1 else if e.q = 8 then 1 else e.q, ip := e.ip, addr := e.addr, info := e.info }))
    ∧ fatalStatus e.op Status.addrRange = true ∧ fatalStatus e.op Status.eccUncorrected = true ∧ fatalStatus e.op Status.ownerGone = true
    ∧ fatalStatus e.op Status.collMismatch = true ∧ fatalStatus e.op Status.targetDead = false ∧ fatalStatus e.op Status.padlocked = false
    ∧ fatalStatus e.op Status.partialDelivery = false ∧ fatalStatus e.op Status.ok = false)

/-- A run-ahead read of this module's memory returns over the leaf link into its buffer with its data, SP unchanged; where a
GET has issued and kept it, the data land in SP and the GET completes; while the link takes no packet or the memory waits,
nothing happens (R61-R63, R340, R362).

A current filler ends at its ramp: the cycles that it ran, FILL_MAX at most, are counted, and a check failure of its
chunks is reported; a clock's cycles in a time are the model's (assumption 23) (R136, R139, R142).

An owed array self-test counts and clears the debt; one that fails sets the array's FAIL bit and disables the array, in
the core and in the flash record, and so does one that passes where the array had another check failure within 24 h (R140,
R142). -/
def Obligations.RunAheadFillersAndSelfTests : Prop :=
  (∀ (c : CoreId) (ip : Nat) (p : PreRead) (s : State),
    (s.core c.val).preRead.find? (fun p => p.ip == ip && p.data.isNone && s.isHere p.ra) = some p →
    let l := c.val / 12
    let ps := farPieces (Tile.of p.td) p.rb
    let r := (s.crossLink l).readPieces [] (gSpace p.ra) (gOff p.ra) p.hint p.uses ps
    let st := if r.2.1.isBad then Status.eccUncorrected else 0
    let waits := !s.linkOpen l || s.memWaits (gSpace p.ra) (gOff p.ra) (farSpan (Tile.of p.td) p.rb)
    (waits = false → p.bound = none → exec (.runAheadReadReturn c ip []) s = .next (r.2.2.modCore c.val (fun k =>
      { k with preRead := k.preRead.map (fun x => if x.pid == p.pid then { p with parts := r.1, data := some st } else x) })))
    ∧ (∀ id, waits = false → p.bound = some id → r.2.1.isBad = false → exec (.runAheadReadReturn c ip []) s
        = .next (((r.2.2.modCore c.val (fun k => { k with preRead := k.preRead.filter (fun x => x.pid != p.pid) })).landPieces c.val r.1).completed c id 0))
    ∧ (∀ id, waits = false → p.bound = some id → r.2.1.isBad = true → exec (.runAheadReadReturn c ip []) s
        = .next ((r.2.2.modCore c.val (fun k => { k with preRead := k.preRead.filter (fun x => x.pid != p.pid) })).completed c id Status.eccUncorrected))
    ∧ (waits = true → exec (.runAheadReadReturn c ip []) s = .next s)
    ∧ (gSpace p.ra = 1 → r.1 = ps.map (fun x => (x.2.1, s.hm.readN (gOff p.ra + x.1) x.2.2))))
  ∧ (∀ (c : CoreId) (me : Fin 4) (u : List Upset) (s : State),
    let f := (s.core c.val).fillerOf me.val
    let ended := fun (t : State) =>
      (t.bumpK (Reg.LEAF_FILL_STAT_FILL_KCYCLES (c.val / 12)) (min (t.cyclesIn c.val (t.clock - f.since)) ((s.core c.val).fillMax.getD me.val 0))).modCore c.val
        (fun k => k.modFiller me.val (fun f => { f with running := false }))
    (f.running = true → exec (.fillerRampDown c me []) s = .next (ended s))
    ∧ (f.running = true → exec (.fillerRampDown c me [.arrayResidue me]) s = .next (ended (s.fillerResidue c.val me.val)))
    ∧ (f.running = false → exec (.fillerRampDown c me u) s = .next s))
  ∧ (∀ (c : CoreId) (me : Fin 4) (s : State), (s.core c.val).task = 0 → (s.core c.val).owed.getLsbD me.val = true → (s.core c.val).arrays.getLsbD me.val = true →
    let day := 24 * 60 * 60 * 1000
    let fails := (s.core c.val).fails.getD me.val []
    let off := fun (t : State) => (t.core c.val).arrays = (s.core c.val).arrays &&& ~~~ BitVec.twoPow 4 me.val
      ∧ (t.core c.val).owed = (s.core c.val).owed &&& ~~~ BitVec.twoPow 4 me.val ∧ (c.val, me.val) ∈ t.flash.arrays
    ((∀ a b r, fails = a :: b :: r → b + State.msTicks day ≤ a) →
      exec (.arraySelfTest c me true) s
        = .next ((s.bump (Reg.LEAF_ARRAY_CHECK_SELFTESTS (c.val / 12)) 1).modCore c.val (fun k => { k with owed := k.owed &&& ~~~ BitVec.twoPow 4 me.val })))
    ∧ (∀ a b r, fails = a :: b :: r → a < b + State.msTicks day → ∃ t : State, exec (.arraySelfTest c me true) s = .next t ∧ off t)
    ∧ (∃ t : State, exec (.arraySelfTest c me false) s = .next t ∧ off t
      ∧ t.rd (Reg.LEAF_ARRAY_FAIL_FAIL (c.val / 12)) = (s.rd (Reg.LEAF_ARRAY_FAIL_FAIL (c.val / 12)) ||| 2 ^ (4 * (c.val % 12) + me.val)) % 2 ^ 48))

/-! ## Transfers (R88-R98) -/

/-- A GET within the module lands the far pieces of its tile in SP and completes OK; a PUT stores the runs of its tile to the
far range, and mirrors them where its send log is on, and completes OK: in HM the bytes as they stand, every other byte of HM
as before; in every space what an access to that space reads or writes, an uncorrectable word completing ECC_UNCORRECTED
with its space and offset.  Words that have landed before stay as they stand (assumption 7).  The descriptor and the address
have passed the checks of R49 and R88; the transfer waits while the range does, and crosses its leaf's link where it leaves
the leaf (R48, R88-R90, R169, R340, R362, R399, R432).

A PUT.SIG within the module whose signal goes to an owned hub tumbler there stores its tile, adds INC to the tumbler,
wakes the tumbler's waiters and completes OK; where its release is not met the signal is withheld, the data stored, and
given once the release is met (R82, R91). -/
def Obligations.LocalTransfersMoveTiles : Prop :=
  (∀ (c : CoreId) (id : Nat) (e : Entry) (td : TileWord) (ra rb : Word) (cls hint : Nat) (log : Bool) (s : State), s.Runs c id e →
    let t := Tile.of td
    let ps := farPieces t rb
    let rs := farRuns t (gOff ra) rb
    let k := s.core c.val
    let get := e.op = .get td ra rb cls hint
    let put := e.op = .put td ra rb cls hint log
    let done := fun (u : State) => Host.Outcome.next (φ := Fault) (ρ := Refusal) (s.crossed c e.op (u.completed c id 0))
    let ecc := fun (u : State) (o : Nat) => Host.Outcome.next (φ := Fault) (ρ := Refusal) (s.crossed c e.op (u.modEntry c.val id (fun e =>
      { e with phase := .done Status.eccUncorrected, cause := 0x0202, addr := BitVec.ofNat 64 o, info := BitVec.ofNat 64 (gSpace ra) })))
    let g := (s.crossTo c.val ra).readRuns [] (gSpace ra) hint e.uses rs
    let p := s.putHere [] c.val e t ra rb 0 cls hint 0 log
    s.preCheck t ra rb = none → s.isHere ra = true →
    (gSpace ra = 1 → get → e.landed = [] → (∀ x ∈ rs, (s.hmRead x.1 x.2.1).2.isBad = false) →
      exec (.get c (.run id [])) s = done (s.landPieces c.val (ps.map (fun x => (x.2.1, s.hm.readN (gOff ra + x.1) x.2.2)))))
    ∧ (gSpace ra = 1 → put → log = false → e.landed = [] → k.badIn t.ranges = none →
      ∃ u : State, exec (.put c (.run id [])) s = done u ∧ u = rs.foldl (fun u x => u.hmStore x.1 (k.gather x.2.2)) s
        ∧ u = { s with hm := u.hm, hmBad := u.hmBad, freeCtr := u.freeCtr, kvSeqs := u.kvSeqs, kvPages := u.kvPages }
        ∧ (∀ a, (∀ x ∈ rs, a < x.1 ∨ x.1 + x.2.1 ≤ a) → u.hm.read a = s.hm.read a))
    ∧ (get → s.farWaits c.val t ra rb = false →
      (g.2.1 = .none → exec (.get c (.run id [])) s = done (g.2.2.landRest c.val e.landed g.1))
      ∧ (∀ o, g.2.1 = .old o ∨ g.2.1 = .found o → exec (.get c (.run id [])) s = ecc g.2.2 o))
    ∧ (put → k.badIn t.ranges = none → s.farWaits c.val t ra rb = false → s.mirrorWaits c.val t log = false →
      (p.1 = .none → exec (.put c (.run id [])) s = done p.2)
      ∧ (∀ o, p.1 = .old o ∨ p.1 = .found o → exec (.put c (.run id [])) s = ecc p.2 o))
    ∧ (s.farWaits c.val t ra rb = true → (get → exec (.get c (.run id [])) s = .next s) ∧ (put → exec (.put c (.run id [])) s = .next s))
    ∧ (s.mirrorWaits c.val t log = true → put → exec (.put c (.run id [])) s = .next s)
    ∧ (∀ ds, s.landRest c.val [] ds = s.landPieces c.val ds))
  ∧ (∀ (c : CoreId) (id n : Nat) (e : Entry) (td : TileWord) (ra rb rc : Word) (cls hint scope : Nat) (log : Bool) (s : State),
    e.op = .putSig td ra rb rc cls hint scope log → tumOfOff (gOff rc) = some (.inl n) → s.isHere ra = true →
    let t := Tile.of td
    let rs := farRuns t (gOff ra) rb
    let p := s.putHere [] c.val e t ra rb rc cls hint e.inc log
    let free := scope == 0 || (s.core c.val).released id
    let signalled := fun (u : State) => ((u.hubSet n (BitVec.ofInt 32 ((u.hubGet n).toNat + e.inc))).hubWake n).completed c id 0
    (s.Runs c id e → e.sigDue = none → s.preCheck t ra rb = none → s.sigOk ra rc = true → (s.core c.val).badIn t.ranges = none →
      s.farWaits c.val t ra rb = false → s.mirrorWaits c.val t log = false → p.1 = .none → (p.2.core c.val).entry? id = some e →
      (free = true → (p.2.hubAlloc n).isSome = true → (p.2.hubGet n).toNat + e.inc < 2 ^ 32 →
        exec (.putSig c (.run id [])) s = .next (s.crossed c e.op (signalled p.2)))
      ∧ (free = false → exec (.putSig c (.run id [])) s
          = .next (s.crossed c e.op (p.2.modEntry c.val id (fun e => { e with phase := .waiting, left := 1, sigDue := some 0 })))))
    ∧ (gSpace ra = 1 → log = false → e.landed = [] →
      p = (.none, rs.foldl (fun u x => u.hmStore x.1 ((s.core c.val).gather x.2.2)) s))
    ∧ (∀ r, (s.core c.val).entry? id = some e → e.sigDue = some r → s.failed = false → (s.core c.val).released id = true →
      s.linkOpen (c.val / 12) = true → (s.hubAlloc n).isSome = true → (s.hubGet n).toNat + e.inc < 2 ^ 32 →
      exec (.putSig c (.run id [])) s = .next (signalled (s.modEntry c.val id (fun e => { e with sigDue := none, sent := true }))))
    ∧ (∀ r, (s.core c.val).entry? id = some e → e.sigDue = some r → (s.core c.val).released id = false →
      exec (.putSig c (.run id [])) s = .next s))

/-- A transfer whose tile or address the checks refuse completes ADDR_RANGE, one whose format is reserved as an undefined
encoding, one toward a padlocked module PADLOCKED, one whose source tile holds an uncorrectable word ECC_UNCORRECTED, and none
of them moves data (R49, R74, R88, R98, R422).

A GET from another module, a PUT to one and a PUT.MC to a set of them each leave as request packets, here outside C0, of
data that the window admits: each packet enters the router with the instruction's class, job, space and offset and takes an
entry of the transaction table, the packets cross the leaf's link, and the instruction waits for its replies; a PUT.MC to no
module writes its report and completes (R89, R90, R95, R275-R277, R282, R340, R418). -/
def Obligations.FarAndRefusedTransfers : Prop :=
  (∀ (c : CoreId) (id : Nat) (e : Entry) (td : TileWord) (ra rb rc : Word) (cls hint scope : Nat) (log : Bool) (s : State), s.Runs c id e →
    let t := Tile.of td
    let n := farSpan t rb
    let pre := s.preCheck t ra rb
    let ok := s.addrOk ra (if gSpace ra = spCSR then (n + 7) / 8 * 8 else n) false && runsOk (gSpace ra) (farRuns t (gOff ra) rb)
    let ends := fun (st : Nat) => Host.Outcome.next (φ := Fault) (ρ := Refusal) (s.crossed c e.op (s.completed c id st))
    let record := fun (st cause : Nat) (addr info : Word) => Host.Outcome.next (φ := Fault) (ρ := Refusal)
      (s.crossed c e.op (s.modEntry c.val id (fun e => { e with phase := .done st, cause := cause, addr := addr, info := info })))
    (∀ b, t.check = some b → pre = some (.inl b))
    ∧ (t.check = none → ok = false → pre = some (.inl .range))
    ∧ (t.check = none → ok = true → s.isHere ra = false → s.padlocked (gMod ra) = true → pre = some (.inr Status.padlocked))
    ∧ (t.check = none → ok = true → s.isHere ra = true → s.gone (gSpace ra) (gOff ra) n = true → pre = some (.inl .range))
    ∧ (∀ i, (e.op = .get td ra rb cls hint ∧ i = .get c (.run id []) ∨ e.op = .put td ra rb cls hint log ∧ i = .put c (.run id [])
          ∨ e.op = .putSig td ra rb rc cls hint scope log ∧ i = .putSig c (.run id []) ∧ e.sigDue = none) →
      (pre = some (.inl .range) → exec i s = ends Status.addrRange)
      ∧ (pre = some (.inr Status.padlocked) → exec i s = ends Status.padlocked)
      ∧ (pre = some (.inl .undefined) → exec i s = record Status.addrRange 0x0101 0 e.word))
    ∧ (e.op = .putSig td ra rb rc cls hint scope log → e.sigDue = none → pre = none → s.sigOk ra rc = false →
        exec (.putSig c (.run id [])) s = ends Status.addrRange)
    ∧ (∀ w, e.op = .put td ra rb cls hint log → pre = none → s.farWaits c.val t ra rb = false → s.mirrorWaits c.val t log = false →
        (s.core c.val).badIn t.ranges = some w →
        exec (.put c (.run id [])) s = record Status.eccUncorrected 0x0202 (BitVec.ofNat 64 w) 2))
  ∧ (∀ (c : CoreId) (id : Nat) (e : Entry) (td : TileWord) (ra rb rc rd : Word) (cls hint : Nat) (log : Bool) (s : State),
    s.Runs c id e → cls = 1 ∨ cls = 2 ∨ cls = 3 →
    let t := Tile.of td
    let far := farPackets t (gOff ra) rb
    let job := s.coreJob c.val
    let leaves := fun (i : Instr) (ps : List Packet) => s.purgeTxns.txns.length + ps.length ≤ 32768 →
      ((ps.map chargeOf).sum = 0 ∨ s.charged (gMod ra) + (ps.map chargeOf).sum ≤ s.rd Reg.LK_WINDOW_WINDOW_KIB * 1024) →
      ∃ u : State, exec i s = .next u
        ∧ (∃ qs : List Packet, qs.map (fun q => { q with tag := 0 }) = ps
          ∧ u.held = s.held ++ qs.map (fun q => { pkt := q, arrived := none, buf := 0, due := 0, started := false }))
        ∧ u.txns.length = s.purgeTxns.txns.length + ps.length
        ∧ (u.core c.val).entry? id = some { e with phase := .waiting, left := ps.length, sent := true }
        ∧ u = { s with held := u.held, txns := u.txns, nextTag := u.nextTag, winUse := u.winUse, cores := u.cores, leaves := u.leaves }
    (s.preCheck t ra rb = none → s.isHere ra = false →
      (e.op = .get td ra rb cls hint →
        leaves (.get c (.run id [])) (far.map (fun x => s.ctl PT.get cls (gMod ra) job (gSpace ra) x.1 (leBytes 2 x.2.1))))
      ∧ (e.op = .put td ra rb cls hint log → (log = true → s.slogOn c.val = false) → (s.core c.val).badIn t.ranges = none →
        (48 < t.packedLen → leaves (.put c (.run id [])) (far.map (fun x => s.dataPkt PT.putData cls (gMod ra) job (gSpace ra) x.1 ((s.core c.val).gather x.2.2))))
        ∧ (t.packedLen ≤ 48 → leaves (.put c (.run id [])) (far.map (fun x => s.ctl PT.put cls (gMod ra) job (gSpace ra) x.1 ((s.core c.val).gather x.2.2))))))
    ∧ (e.op = .putMc td ra rb rc rd cls hint → t.check = none → gSpace ra ≤ 2 → s.rangeOk (gSpace ra) (gOff ra) t.packedLen = true →
      rd.toNat % 64 = 0 → rd.toNat + 512 ≤ spSize → (s.core c.val).badIn t.ranges = none →
      let m : MaskPair := { inRack := rb, racks := rc }
      let parts := farPackets t (gOff ra) 0
      ((∃ d, maskNames m d = true ∧ d < 4096) →
        (32 < t.packedLen → leaves (.putMc c (.run id []))
          (parts.map (fun x => { s.dataPkt PT.putMcData cls 0 job (gSpace ra) x.1 ((s.core c.val).gather x.2.2) with mask := m })))
        ∧ (t.packedLen ≤ 32 → leaves (.putMc c (.run id []))
          (parts.map (fun x => { s.ctl PT.putMc cls 0 job (gSpace ra) x.1 (leBytes 8 rb.toNat ++ leBytes 8 rc.toNat ++ (s.core c.val).gather x.2.2) with mask := m }))))
      ∧ ((∀ d, d < 4096 → maskNames m d = false) → e.bad = 0 → e.missed = [] →
        exec (.putMc c (.run id [])) s = .next (s.crossed c e.op ((s.spWrite c.val rd.toNat (missReport [])).completed c id 0)))))

/-- COPY moves the common columns of each common row in order of rows, as bytes where the formats are equal and no block
format; COPY.T writes row i of its destination from column i of its source as the source stood; what the two share is left
unspecified; both complete OK, and nothing but SP of the core changes but the model's counter of unspecified contents (R93).

ATOM on an aligned word of this module's HM or LM writes the value of its operation, and the old value, 8 bytes, to RD of
SP unless it asks for none; on an owned hub tumbler of this module it acts on the count; AOP 7 completes as an undefined
encoding, an RD that is no word of SP, an address that is no multiple of the width and a 64-bit form on a tumbler with
ADDR_RANGE, one toward a padlocked module with PADLOCKED, and these change no memory (R74, R94, R98). -/
def Obligations.CopiesAndAtomics : Prop :=
  (∀ (c : CoreId) (id : Nat) (e : Entry) (td ts : TileWord) (s : State), s.Runs c id e →
    let d := Tile.of td
    let t := Tile.of ts
    let m := (s.core c.val).sp
    d.check = none → t.check = none →
    (e.op = .copy td ts →
      let r := min d.rows t.rows
      let n := min d.cols t.cols
      (s.core c.val).badIn (t.part r n ++ d.partRead r n) = none →
      exec (.copy c (.run id [])) s = .next (((List.range r).foldl (fun u i => u.copyRow c.val d t e.sat n i) s).completed c id 0)
      ∧ (d.fmt = t.fmt → Fmt.block t.fmt = false → ∀ u i,
          State.copyRow u c.val d t e.sat n i = u.spWrite c.val (d.rowAt i) ((u.core c.val).sp.readN (t.rowAt i) (n * (Fmt.bits t.fmt / 8))))
      ∧ (d.fmt ≠ t.fmt → ∀ u i,
          State.copyRow u c.val d t e.sat n i = u.storeRowSp c.val d e.sat i ((List.range n).map (fun j => toF32 (t.elem (u.core c.val).sp i j)))))
    ∧ (e.op = .copyT td ts →
      let r := min d.rows t.cols
      let n := min d.cols t.rows
      let shared := sharedRanges (d.part r n) (t.part n r)
      let copied := (List.range r).foldl (fun u i => u.copyTRow c.val m d t e.sat n i) s
      (s.core c.val).badIn (t.part n r ++ d.partRead r n) = none →
      exec (.copyT c (.run id [])) s = .next ((copied.spSmudge c.val shared).completed c id 0)
      ∧ (shared = [] → copied.spSmudge c.val shared = copied)
      ∧ (d.fmt = t.fmt → Fmt.block t.fmt = false → ∀ u i,
          State.copyTRow u c.val m d t e.sat n i = u.spWrite c.val (d.rowAt i) ((List.range n).flatMap (fun j => leBytes (Fmt.bits t.fmt / 8) (t.code m j i))))
      ∧ (d.fmt ≠ t.fmt → ∀ u i,
          State.copyTRow u c.val m d t e.sat n i = u.storeRowSp c.val d e.sat i ((List.range n).map (fun j => toF32 (t.elem m j i))))))
  ∧ (∀ (c : CoreId) (id : Nat) (e : Entry) (ra rb rc rd : Word) (scope cls : Nat) (w64 nr : Bool) (aop : Nat) (s : State), s.Runs c id e →
    e.op = .atom ra rb rc rd scope cls w64 nr aop →
    let n := if w64 then 8 else 4
    let new := fun (old : Nat) => leBytes n (atomVal aop (8 * n) old rb.toNat rc.toNat false)
    let old := leNat (s.hm.readN (gOff ra) n)
    let u := s.hmStore (gOff ra) (new old)
    let l := s.lmAtomLine [] (gOff ra / 256) (gOff ra % 256) n (fun bs => new (leNat bs))
    let rdOk := nr = false → spWordOk rd = true
    let ends := fun (t : State) (st : Nat) => Host.Outcome.next (φ := Fault) (ρ := Refusal) (s.crossed c e.op (t.completed c id st))
    let answer := fun (t : State) (v : Nat) => if nr then t else t.spWrite c.val rd.toNat (leBytes 8 v)
    (aop ≠ 7 → rdOk → gOff ra % n = 0 → s.addrOk ra n false = true → s.isHere ra = true →
      (gSpace ra = 1 → (s.hmRead (gOff ra) n).2.isBad = false → exec (.atom c (.run id [])) s = ends (answer u old) 0)
      ∧ (gSpace ra = 0 → s.memWaits 0 (gOff ra) n = false → l.2.1 = .none → exec (.atom c (.run id [])) s = ends (answer l.2.2 (leNat l.1)) 0)
      ∧ (gSpace ra = 0 → s.memWaits 0 (gOff ra) n = true → exec (.atom c (.run id [])) s = .next s))
    ∧ (∀ h, aop ≠ 7 → aop ≠ 0 → rdOk → gSpace ra = spTUM → w64 = false → s.addrOk ra 4 true = true → s.isHere ra = true →
      tumOfOff (gOff ra) = some (.inl h) → (s.hubAlloc h).isSome = true →
      exec (.atom c (.run id [])) s
        = ends (answer ((s.hubSet h (BitVec.ofNat 32 (atomVal aop 32 (s.hubGet h).toNat rb.toNat rc.toNat true))).hubWake h) (s.hubGet h).toNat) 0)
    ∧ (aop = 7 → exec (.atom c (.run id [])) s = .next (s.crossed c e.op (s.modEntry c.val id (fun x =>
        { x with phase := .done Status.addrRange, cause := 0x0101, addr := 0, info := e.word }))))
    ∧ (aop ≠ 7 → nr = false → spWordOk rd = false → exec (.atom c (.run id [])) s = ends s Status.addrRange)
    ∧ (aop ≠ 7 → rdOk → gSpace ra ≤ 1 → gOff ra % n ≠ 0 ∨ s.addrOk ra n false = false → exec (.atom c (.run id [])) s = ends s Status.addrRange)
    ∧ (aop ≠ 7 → rdOk → gSpace ra = spTUM → w64 = true → exec (.atom c (.run id [])) s = ends s Status.addrRange)
    ∧ (aop ≠ 7 → rdOk → gSpace ra ≤ 1 → gOff ra % n = 0 → s.addrOk ra n false = true → s.isHere ra = false → s.padlocked (gMod ra) = true →
      exec (.atom c (.run id [])) s = ends s Status.padlocked)
    ∧ (∀ w a b x, atomVal 0 w a b x false = (a + b % 2 ^ w) % 2 ^ w ∧ atomVal 3 w a b x false = b % 2 ^ w
        ∧ (a = x % 2 ^ w → atomVal 4 w a b x false = b % 2 ^ w) ∧ (a ≠ x % 2 ^ w → atomVal 4 w a b x false = a)))

/-! ## Matrix engines (R37-R40, R102-R109, R125-R141) -/

/-- MM.LDS fills slot SSLOT of each array it runs on from its tile, MM.FILL sets FILL_MAX, and a FILL_MAX of 0 ends the
fillers; with no array to run on they complete ADDR_RANGE, as does whatever runs in the queue of a disabled array; SHAPE 3 or
an FP32 tile make MM.LDS an undefined encoding, and an uncorrectable word that it reads completes it ECC_UNCORRECTED (R102,
R107, R129, R137, R141, R422).

MM streams the rows of its tile through the slot of every array it runs on into that array's accumulator; MM.DRAIN
without publication merges the open chunk and stores every row of the accumulators, adding to the tile where it accumulates,
and completes ADDR_RANGE where a row lies beyond the tile (R103-R106, R141).

MV writes to each row of its destination, for each of its elements, a value within the bound of R39 of the plain sum of
its products, added to the old element under VAR, and completes OK; its own order of summing is a free value (R39, R109,
assumption 10). -/
def Obligations.MatrixInstructionsComplete : Prop :=
  (∀ (c : CoreId) (id : Nat) (e : Entry) (s : State),
    let k := s.core c.val
    (s.Runs c id e →
      (∀ ts rk rn sh sl tr, e.op = .mmLds ts rk rn sh sl tr →
        let t := Tile.of ts
        let reads := if tr then t.partRanges (off16 rk) (shapeKs sh) (off16 rn) (shapeNs sh) else t.partRanges (off16 rn) (shapeNs sh) (off16 rk) (shapeKs sh)
        (sh < 3 → t.fmt ≠ Fmt.fp32 → t.check = none → k.noArray e.q = false →
          (k.badIn reads = none → exec (.mmLds c (.run id [])) s
            = .next ((s.modCore c.val (fun k => (k.arraysOf e.q).foldl (fun m i =>
                { m with slots := m.slots.setIfInBounds (2 * i + sl) (loadSlot t k.sp (off16 rk) (off16 rn) sh tr) }) k)).completed c id 0))
          ∧ (∀ w, k.badIn reads = some w → exec (.mmLds c (.run id [])) s = .next (s.modEntry c.val id (fun x =>
              { x with phase := .done Status.eccUncorrected, cause := 0x0202, addr := BitVec.ofNat 64 w, info := 2 }))))
        ∧ (sh < 3 → t.fmt ≠ Fmt.fp32 → t.check = none → k.noArray e.q = true → exec (.mmLds c (.run id [])) s = .next (s.completed c id Status.addrRange))
        ∧ (sh = 3 ∨ t.fmt = Fmt.fp32 → exec (.mmLds c (.run id [])) s = .next (s.modEntry c.val id (fun x =>
            { x with phase := .done Status.addrRange, cause := 0x0101, addr := 0, info := e.word }))))
      ∧ (∀ n, e.op = .mmFill n →
        let u := if n = 0 then (k.arraysOf e.q).foldl (fun s i => s.endFiller c.val i []) s else s
        (k.noArray e.q = false → exec (.mmFill c (.run id [])) s
          = .next ((u.modCore c.val (fun m => (k.arraysOf e.q).foldl (fun m i => { m with fillMax := m.fillMax.setIfInBounds i n }) m)).completed c id 0))
        ∧ (k.noArray e.q = true → exec (.mmFill c (.run id [])) s = .next (u.completed c id Status.addrRange))))
    ∧ (s.failed = false → k.runnable id = some e → e.q ≠ 8 → k.noArray e.q = true →
      ∀ i ∈ [Instr.nop c (.run id []), .tumAdd c (.run id []), .tumWait c (.run id []), .tumSet c (.run id []), .mmLds c (.run id []),
        .mm c (.run id []), .mmDrain c (.run id []), .mmFill c (.run id [])], exec i s = .next (s.completed c id Status.addrRange))
    ∧ (∀ q, q ≠ 8 → k.arraysOf q = [q - 1]))
  ∧ (∀ (c : CoreId) (id : Nat) (e : Entry) (s : State), s.Runs c id e →
    let k := s.core c.val
    let arrays := k.arraysOf e.q
    let share := fun (rows : Nat) => (rows + arrays.length - 1) / arrays.length
    (∀ ts rk sl acc, e.op = .mm ts rk sl acc →
      let t := Tile.of ts
      let fits := fun (me row0 : Nat) => min (min (t.rows - row0) (share t.rows)) (65536 / shapeNs (k.slotOf me sl).sh)
      t.fmt ≠ Fmt.fp32 → t.check = none → k.noArray e.q = false →
      k.badIn (arrays.zipIdx.flatMap (fun p => t.partRanges (p.2 * share t.rows) (fits p.1 (p.2 * share t.rows)) (off16 rk) (shapeKs (k.slotOf p.1 sl).sh))) = none →
      (e.q = 8 → arrays.length < 4 → t.rows ≤ arrays.length * (65536 / shapeNs (k.slotOf (arrays.headD 0) sl).sh)) →
      ∃ u : State, exec (.mm c (.run id [])) s = .next (u.completed c id 0) ∧ u = { s with cores := u.cores }
        ∧ (∀ d : CoreId, d ≠ c → u.core d.val = s.core d.val) ∧ (u.core c.val).sp = k.sp ∧ (u.core c.val).slots = k.slots
        ∧ (∀ i me, arrays[i]? = some me → me < 4 → (u.core c.val).accOf me
            = (k.accOf me).stream t k.sp (k.slotOf me sl) (off16 rk) (i * share t.rows) (fits me (i * share t.rows)) acc))
    ∧ (∀ td ra h add, e.op = .mmDrain td ra h add false →
      let t := Tile.of td
      let r := arrays.foldl (fun (r : State × Bool) me => let d := r.1.drainOne c.val me t add e.sat; (d.1, r.2 && d.2)) (s, true)
      (add = true → t.fmt = Fmt.fp32) → t.check = none → k.noArray e.q = false → (add = true → k.badIn (arrays.flatMap (fun i => t.partRanges (k.accOf i).row0 (k.accOf i).rows 0 (k.accOf i).cols)) = none) →
      exec (.mmDrain c (.run id [])) s = .next (if r.2 then r.1.completed c id 0 else r.1.completed c id Status.addrRange)))
  ∧ ((∀ (c : CoreId) (id : Nat) (e : Entry) (td ts tx : TileWord) (acc : Bool) (s : State), s.Runs c id e → e.op = .mv td ts tx acc →
    let d := Tile.of td
    let w := Tile.of ts
    let x := Tile.of tx
    let k := s.core c.val
    d.fmt ≤ 2 → w.fmt ≠ Fmt.fp32 → Fmt.valid w.fmt = true → 1 ≤ x.fmt → x.fmt ≤ 4 → d.check = none → w.check = none → x.check = none →
    let mn := min (min x.rows d.rows) 4
    let kn := min x.cols w.cols
    let nn := min w.rows d.cols
    k.badIn (w.partRanges 0 nn 0 kn ++ x.partRanges 0 mn 0 kn ++ (if acc then d.partRanges 0 mn 0 nn else [])) = none →
      exec (.mv c (.run id [])) s
        = .next (((List.range mn).foldl (fun u m =>
            { u with freeCtr := u.freeCtr + nn }.storeWords c.val d m 0 false e.sat ((List.range nn).map (fun n =>
              let y := mveResult (Config.mveSum (u.freeCtr + n)) ((List.range kn).map (fun j =>
                (x.elem (u.core c.val).sp m j).mul (w.elem (u.core c.val).sp n j)))
              if acc then fadd (toF32 (d.elem (u.core c.val).sp m n)) y else y))) s).completed c id 0))
  ∧ (∀ (v : Word32) (ps : List Machine.Num), mveResult v ps = plainSum ps
      ∨ (mveResult v ps = v ∧ ((f32 v).add (f32 (plainSum ps)).neg).absLe (((absSum ps).mul (.ofNat ((ps.length + 127) / 128))).scale (-24)) = true)))

/-- After MM.LDS element (k, n) of a slot has the value of element (RN + n, RK + k) of the tile, and of element
(RK + k, RN + n) for a transposed FP16 tile; past the tile's edge it is 0 (R40, R102, R129).

One whole chunk of 128 products, not accumulated: each element of the accumulator is the chunk sum of the products of its
row of the tile with its column of the slot, rounded once and added to 0 (R37, R38, R103). -/
def Obligations.SlotsHoldTheTileAndChunksSumOnce : Prop :=
  (∀ (t : Tile) (m : Mem) (k0 n0 sh k n : Nat), Fmt.valid t.fmt = true → t.fmt ≠ Fmt.fp32 → sh < 3 → k < shapeKs sh → n < shapeNs sh →
    (n0 + n < t.rows → k0 + k < t.cols → (loadSlot t m k0 n0 sh false).val k n = t.elem m (n0 + n) (k0 + k))
    ∧ (t.fmt = Fmt.fp16 → k0 + k < t.rows → n0 + n < t.cols → (loadSlot t m k0 n0 sh true).val k n = t.elem m (k0 + k) (n0 + n))
    ∧ (t.rows ≤ n0 + n ∨ t.cols ≤ k0 + k → (Tab.get (loadSlot t m k0 n0 sh false).elems slotZero (k * shapeNs sh + n)) = slotZero))
  ∧ (∀ (a : Acc) (t : Tile) (m : Mem) (x : Slot) (k0 row0 mi r n : Nat), x.shape = 0 → k0 % 128 = 0 → r < mi → n < 128 →
    (a.stream t m x k0 row0 mi false).get (r * 128 + n)
      = fadd 0 (chunkSum ((List.range 128).map (fun k => (if k0 + k < t.cols then t.elem m (row0 + r) (k0 + k) else Machine.Num.zero).mul (x.val k n))))
    ∧ (a.stream t m x k0 row0 mi false).openK = none ∧ (a.stream t m x k0 row0 mi false).rows = mi
    ∧ (a.stream t m x k0 row0 mi false).cols = 128)

/-! ## The vector engine (R110-R113, R143-R155) -/

/-- VLD reads a row of its tile from column RB into a whole register, 0 past the row's end; VST writes a register to a row;
every element is widened to FP32 and converted, so that a NaN becomes the canonical one (R27).  An uncorrectable
word that VLD reads completes it ECC_UNCORRECTED.  A row past the tile completes ADDR_RANGE, a block tile as an
undefined encoding (R110, R146, R422).

VADD, VSUB, VMUL, VFMA, VMAX and VMIN write to VD, element by element, the result on VA and on VB or, under VAR, the
scalar captured at issue; VCVT, VRED, VFN and VFN.D write theirs; each completes OK and changes VD only.  VCVT modes 4-7,
VRED modes 3-7 and a table of 16 or more complete as undefined encodings (R74, R111, R112, R147).

VTLOAD copies 8 KiB of SP into table slot 8-15 where the image has a finite LO and a finite HI above it, and else leaves
the slot unloaded; another slot completes as an undefined encoding, and a base that is no multiple of 64 or an image past SP with ADDR_RANGE;
a table value of an unloaded slot is the canonical NaN (R112, R149-R151).

VROW.NORM, VROW.NORMB, VROW.SMAX and VROW.SMAXB write to each row of TD the row unit's result on that row of TS, with the
second tile for the backward forms and the gain for the NORM forms; a destination with fewer rows than TS keeps what was
written and completes ADDR_RANGE (R113, R152-R155). -/
def Obligations.VectorInstructionsComplete : Prop :=
  (∀ (c : CoreId) (id : Nat) (e : Entry) (vd : Nat) (ts : TileWord) (ra rb : Word) (ty sr : Bool) (s : State), s.Runs c id e →
    let t := Tile.of ts
    let k := s.core c.val
    let n := min (vCount ty) (t.cols - rb.toNat)
    let at_ := t.rowAt ra.toNat + rb.toNat * (Fmt.bits t.fmt / 8)
    (e.op = .vld vd ts ra rb ty → t.check = none → Fmt.block t.fmt = false → ra.toNat < t.rows → k.badIn [(at_, n * (Fmt.bits t.fmt / 8))] = none →
      exec (.vld c (.run id [])) s
        = .next ((s.modCore c.val (fun m => m.vputAt vd ty 0 ((List.range (vCount ty)).map (fun j =>
            if j < n then vLoad t ty e.sat (t.code k.sp ra.toNat (rb.toNat + j)) else 0)))).completed c id 0))
    ∧ (e.op = .vst vd ts ra rb ty sr → t.check = none → Fmt.block t.fmt = false → ra.toNat < t.rows →
      exec (.vst c (.run id [])) s
        = .next ((s.storeWords c.val t ra.toNat rb.toNat sr e.sat ((k.vget vd ty).take n)).completed c id 0))
    ∧ (∀ w, e.op = .vld vd ts ra rb ty → t.check = none → Fmt.block t.fmt = false → ra.toNat < t.rows →
      k.badIn [(at_, n * (Fmt.bits t.fmt / 8))] = some w → exec (.vld c (.run id [])) s = .next (s.modEntry c.val id (fun x =>
        { x with phase := .done Status.eccUncorrected, cause := 0x0202, addr := BitVec.ofNat 64 w, info := 2 })))
    ∧ (∀ sat code, (Fmt.decElem t.fmt code).isNan = true → vLoad t ty sat code = if ty then 0x7FC00000 else 0x7FC0)
    ∧ (t.check = none → Fmt.block t.fmt = false → t.rows ≤ ra.toNat →
      (e.op = .vld vd ts ra rb ty → exec (.vld c (.run id [])) s = .next (s.completed c id Status.addrRange))
      ∧ (e.op = .vst vd ts ra rb ty sr → exec (.vst c (.run id [])) s = .next (s.completed c id Status.addrRange)))
    ∧ (Fmt.block t.fmt = true → Fmt.valid t.fmt = true → e.op = .vld vd ts ra rb ty → exec (.vld c (.run id [])) s = .next (s.modEntry c.val id (fun x =>
        { x with phase := .done Status.addrRange, cause := 0x0101, addr := 0, info := e.word }))))
  ∧ (∀ (c : CoreId) (id : Nat) (e : Entry) (vd va vb vc mode tbl : Nat) (rs : Option Word32) (ty sr : Bool) (s : State), s.Runs c id e →
    let k := s.core c.val
    let b := match rs with | some w => List.replicate (vCount ty) w | none => k.vget vb ty
    let undef := Host.Outcome.next (φ := Fault) (ρ := Refusal)
      (s.modEntry c.val id (fun x => { x with phase := .done Status.addrRange, cause := 0x0101, addr := 0, info := e.word }))
    let puts := fun (f : Word32 → Word32 → Word32 → Word32) => Host.Outcome.next (φ := Fault) (ρ := Refusal)
      ((s.vput c.val vd ty sr e.sat (List.zipWith (fun x (y : Word32 × Word32) => f x y.1 y.2) (k.vget va ty) (b.zip (k.vget vc ty)))).completed c id 0)
    (e.op = .velem 0 vd va vb vc rs ty sr → exec (.vadd c (.run id [])) s = puts (fun x y _ => fadd x y))
    ∧ (e.op = .velem 1 vd va vb vc rs ty sr → exec (.vsub c (.run id [])) s = puts (fun x y _ => fsub x y))
    ∧ (e.op = .velem 2 vd va vb vc rs ty sr → exec (.vmul c (.run id [])) s = puts (fun x y _ => fmul x y))
    ∧ (e.op = .velem 3 vd va vb vc rs ty sr → exec (.vfma c (.run id [])) s = puts ffma)
    ∧ (e.op = .velem 4 vd va vb vc rs ty sr → exec (.vmax c (.run id [])) s = puts (fun x y _ => fmax x y))
    ∧ (e.op = .velem 5 vd va vb vc rs ty sr → exec (.vmin c (.run id [])) s = puts (fun x y _ => fmin x y))
    ∧ (e.op = .vcvt vd va mode sr →
      (mode ≤ 1 → exec (.vcvt c (.run id [])) s
        = .next ((s.vput c.val vd true false e.sat (((k.vget va false).drop (256 * mode)).take 256)).completed c id 0))
      ∧ (mode = 2 ∨ mode = 3 → exec (.vcvt c (.run id [])) s
        = .next ((((s.vConvAll Fmt.bf16 sr e.sat (k.vget va true)).2).modCore c.val
            (fun m => m.vputAt vd false (256 * (mode - 2)) (s.vConvAll Fmt.bf16 sr e.sat (k.vget va true)).1)).completed c id 0))
      ∧ (4 ≤ mode → exec (.vcvt c (.run id [])) s = undef))
    ∧ (e.op = .vred vd va mode ty sr →
      (mode ≤ 2 → exec (.vred c (.run id [])) s
        = .next ((s.vput c.val vd ty sr e.sat (treeRed (if mode = 0 then fadd else if mode = 1 then fmax else fmin) (if ty then 8 else 9) (k.vget va ty)
            :: List.replicate (vCount ty - 1) 0)).completed c id 0))
      ∧ (3 ≤ mode → exec (.vred c (.run id [])) s = undef))
    ∧ (e.op = .vfn vd va tbl false ty sr →
      (tbl < 16 → exec (.vfn c (.run id [])) s = .next ((s.vput c.val vd ty sr e.sat ((k.vget va ty).map (k.tableVal tbl false))).completed c id 0))
      ∧ (16 ≤ tbl → exec (.vfn c (.run id [])) s = undef))
    ∧ (e.op = .vfn vd va tbl true ty sr →
      (tbl < 16 → exec (.vfnD c (.run id [])) s = .next ((s.vput c.val vd ty sr e.sat ((k.vget va ty).map (k.tableVal tbl true))).completed c id 0))
      ∧ (16 ≤ tbl → exec (.vfnD c (.run id [])) s = undef)))
  ∧ (∀ (c : CoreId) (id : Nat) (e : Entry) (n : Nat) (ts : TileWord) (s : State), s.Runs c id e → e.op = .vtload n ts →
    let base := (Tile.raw ts).base
    let img := (s.core c.val).sp.readN base 8192
    (8 ≤ n → n < 16 → base % 64 = 0 → base + 8192 ≤ spSize → (s.core c.val).badIn [(base, 8192)] = none →
      (tableOk img = true → exec (.vtload c (.run id [])) s = .next ((s.modCore c.val (fun k =>
        { k with vtab := k.vtab.writeN (n * 8192) img, vtabLoaded := k.vtabLoaded ||| BitVec.twoPow 16 n })).completed c id 0))
      ∧ (tableOk img = false → exec (.vtload c (.run id [])) s = .next ((s.modCore c.val (fun k =>
        { k with vtabLoaded := k.vtabLoaded &&& ~~~ BitVec.twoPow 16 n })).completed c id 0)))
    ∧ (n < 8 ∨ 16 ≤ n → exec (.vtload c (.run id [])) s = .next (s.modEntry c.val id (fun x =>
        { x with phase := .done Status.addrRange, cause := 0x0101, addr := 0, info := e.word })))
    ∧ (8 ≤ n → n < 16 → base % 64 ≠ 0 ∨ spSize < base + 8192 → exec (.vtload c (.run id [])) s = .next (s.completed c id Status.addrRange))
    ∧ (∀ (k : Core) (m : Nat) (d : Bool) (x : Word32), 8 ≤ m → k.vtabLoaded.getLsbD m = false → k.tableVal m d x = f32Nan))
  ∧ (∀ (c : CoreId) (id : Nat) (e : Entry) (kind : Nat) (td ts tx tg : TileWord) (ra rb : Word) (mode : Nat) (s : State), s.Runs c id e →
    e.op = .vrow kind td ts tx tg ra rb mode →
    let d := Tile.of td
    let t := Tile.of ts
    let x := Tile.of tx
    let g := Tile.of tg
    let used := [d, t] ++ rowTiles kind x g
    let cols := used.foldl (fun n z => min n z.cols) d.cols
    let rows := min t.rows (min d.rows (if kind % 2 = 1 then x.rows else t.rows))
    let u := (List.range rows).foldl (fun (u : State) r =>
      let m := (u.core c.val).sp
      u.storeWords c.val d r 0 (mode.testBit 3) e.sat (rowOut kind mode (ra.setWidth 32) rb r (t.rowWords m r cols) (if kind % 2 = 1 then x.rowWords m r cols else [])
        (if kind < 2 then g.rowWords m 0 cols else []) (if kind < 2 ∧ g.rows > 1 then g.rowWords m 1 cols else List.replicate cols 0))) s
    let done := Host.Outcome.next (φ := Fault) (ρ := Refusal) (u.completed c id (if rows < t.rows then Status.addrRange else 0))
    d.fmt ≤ 2 → t.fmt ≤ 2 → (kind % 2 = 1 → x.fmt ≤ 2) → (kind < 2 → g.fmt ≤ 1) → (∀ z ∈ used, z.check = none) →
    (s.core c.val).badIn (t.partRanges 0 rows 0 cols ++ (if kind % 2 = 1 then x.partRanges 0 rows 0 cols else [])
        ++ (if kind < 2 then g.partRanges 0 (if kind = 0 ∧ mode.testBit 0 then 2 else 1) 0 cols else [])) = none →
      (kind = 0 → exec (.vrowNorm c (.run id [])) s = done) ∧ (kind = 1 → exec (.vrowNormb c (.run id [])) s = done)
      ∧ (kind = 2 → exec (.vrowSmax c (.run id [])) s = done) ∧ (kind = 3 → exec (.vrowSmaxb c (.run id [])) s = done))

/-- A vector register of 256 FP32 elements reads back what was written to it, and every other register as before (R45,
R143). -/
def Obligations.VectorRegistersReadBack : Prop :=
  ∀ (c : CoreId) (r q : Nat) (sr sat : Bool) (ws : List Word32) (s : State), ws.length = 256 →
    (((s.vput c.val r true sr sat ws).core c.val).vget r true = ws)
    ∧ (q ≠ r → ((s.vput c.val r true sr sat ws).core c.val).vget q true = (s.core c.val).vget q true)
    ∧ ((s.vput c.val r true sr sat ws).core c.val).sp = (s.core c.val).sp

/-! ## Sampling and the KV page manager (R114-R119, R198-R215) -/

/-- SAMP.SLICE writes to RD the candidate list of its row: the first TOP_K tokens in order of their adjusted logits, unused
entries after them; SAMP.MERGE at a temperature of 0 or below writes the first candidate with probability 1 and counter all
ones, and above 0 draws once and writes the drawn candidate, the first one whose running sum exceeds the draw, with the
distribution; where no running sum does the candidate is a free choice (assumption 26) (R114, R115). -/
def Obligations.SamplingWritesListsAndTokens : Prop :=
  ∀ (c : CoreId) (id : Nat) (e : Entry) (ts : TileWord) (ra rb rc rd : Word) (p : SampParams) (s : State), s.Runs c id e →
    let t := Tile.of ts
    let k := s.core c.val
    k.sampBlock rb = some p → spFits rd 2048 = true → t.check = none →
    (e.op = .sampSlice ts rb rc rd → t.fmt ≤ 1 → k.badIn [(t.rowAt 0, t.rowLen), (rb.toNat, 64), (p.listAt, 4 * p.listN)] = none →
      let pen := (List.range p.listN).map (fun i => recWord (k.sp.readN (p.listAt + 4 * i) 4) 0)
      exec (.sampSlice c (.run id [])) s
        = .next ((s.spWrite c.val rd.toNat (candBytes (padCands f32NegInf (topCands p.topK ((t.rowWords k.sp 0 t.cols).zipIdx.map (fun l =>
            (rc.setWidth 32 + BitVec.ofNat 32 l.2, p.adjust (pen.contains (rc.setWidth 32 + BitVec.ofNat 32 l.2)) l.1))))))).completed c id 0))
    ∧ (e.op = .sampMerge ts ra rb rc rd → listsFit t t.rows = true → spFits rc 16 = true → k.badIn ((rb.toNat, 64) :: listRanges t t.rows) = none →
      let cs := topCands p.topK ((List.range t.rows).flatMap (fun r => k.candsAt (listAt t r)))
      let dist := mergeDist p cs
      ((f32 p.temp).le .zero = true →
        let tok := (cs.headD (BitVec.allOnes 32, 0)).1
        exec (.sampMerge c (.run id [])) s
          = .next (((s.spWrite c.val rd.toNat (candBytes (padCands 0 [(tok, f32One)]))).spWrite c.val rc.toNat
              (tokenRecord tok f32One (BitVec.allOnes 64))).completed c id 0))
      ∧ ((f32 p.temp).le .zero = false → s.drawWaits ra.toNat = true → exec (.sampMerge c (.run id [])) s = .next s)
      ∧ ((f32 p.temp).le .zero = false → s.drawWaits ra.toNat = false → s.draw ra.toNat = none →
        exec (.sampMerge c (.run id [])) s = .next (s.completed c id Status.addrRange))
      ∧ (∀ u ctr s', (f32 p.temp).le .zero = false → s.drawWaits ra.toNat = false → s.draw ra.toNat = some (u, ctr, s') →
        exec (.sampMerge c (.run id [])) s
          = .next (((s'.spWrite c.val rd.toNat (candBytes (padCands 0 dist))).spWrite c.val rc.toNat
              (tokenRecord (pick u dist).1 (pick u dist).2 ctr)).completed c id 0))
      ∧ (∀ u a, pickRun u 0 dist = some a → pick u dist = a))

/-- SAMP.ACCEPT writes the accepted count, the next token and the sequence's counter to RD; it accepts at most as many drafts
as there are, and draws once per draft tested and once for the next token; a draw of a sequence that does not exist completes
it ADDR_RANGE, and one of a sequence that waits holds it (R116, R211, R212). -/
def Obligations.AcceptanceCountsItsDraws : Prop :=
  (∀ (c : CoreId) (id : Nat) (e : Entry) (ts tq : TileWord) (ra rb rc rd : Word) (s : State), s.Runs c id e →
    e.op = .sampAccept ts tq ra rb rc rd →
    let t := Tile.of ts
    let w := Tile.of tq
    let k := s.core c.val
    let n := max 1 (min 64 rc.toNat)
    let loop := s.acceptLoop ra.toNat ((List.range (n + 1)).map (fun r => k.candsAt (listAt t r))) ((List.range n).map (fun r => k.candsAt (listAt w r)))
      ((List.range n).map (fun i => recWord (k.sp.readN (rb.toNat + 4 * i) 4) 0)) 0
    t.check = none → w.check = none → listsFit t (n + 1) = true → listsFit w n = true → spFits rb (4 * n) = true → spFits rd 16 = true →
    k.badIn ((rb.toNat, 4 * n) :: (listRanges t (n + 1) ++ listRanges w n)) = none →
    (s.drawWaits ra.toNat = true → exec (.sampAccept c (.run id [])) s = .next s)
    ∧ (s.drawWaits ra.toNat = false → s.seq? ra.toNat = none → exec (.sampAccept c (.run id [])) s = .next (s.completed c id Status.addrRange))
    ∧ (∀ a tok u, s.drawWaits ra.toNat = false → loop = some (a, tok, u) →
      exec (.sampAccept c (.run id [])) s
        = .next ((u.spWrite c.val rd.toNat (leBytes 4 a ++ leBytes 4 tok.toNat
            ++ leBytes 8 (match u.seq? ra.toNat with | some x => x.counter.toNat | none => 0))).completed c id 0)))
  ∧ (∀ (s : State) (q : Nat) (x : KvSeq) (ps qs : List (List Cand)) (toks : List Word32), s.kvDisabled = false → s.seq? q = some x →
    ∃ a tok u, s.acceptLoop q ps qs toks 0 = some (a, tok, u) ∧ a ≤ toks.length
      ∧ (∃ y, u.seq? q = some y ∧ y.counter = x.counter + BitVec.ofNat 64 (if a = toks.length then a + 1 else a + 2) ∧ y.len = x.len))

/-- KV.NEW makes a sequence of length 0 from its record and writes its identifier to RB, all ones where the wanted one is
taken; KV.FREE removes a sequence and its pages; KV.DETENT marks the present length and counter and raises the epoch by 1,
and page moves that have become due start; a sequence that does not exist completes ADDR_RANGE, and so does every KV
instruction while the manager is disabled; each crosses its leaf's link, and waits while the manager does not serve it (R117,
R119, R198, R203, R206-R208, R340).

KV.EXT raises a sequence's length by RB where its limit and the pools allow, and under VAR as far as they allow; KV.COMMIT
keeps RB positions past the detent and KV.ROLLBACK returns to the detent's length and counter, both freeing the pages wholly
beyond and dropping the detent, and changing nothing where there is none (R117, R205, R207, R208).

KV.COMMIT and KV.ROLLBACK under VAR resolve the detent here, send one KV_UPDATE in C0 with the sequence, the epoch, the
kind, the new length and the counter to the modules that RC and RD name, and wait; a further run of one whose update has left
writes the miss report past its status record and completes, with PARTIAL_DELIVERY where a destination was missed (R95, R118,
R209). -/
def Obligations.KvSequencesAndLengths : Prop :=
  (∀ (c : CoreId) (id : Nat) (e : Entry) (ra rb : Word) (s : State),
    let k := s.core c.val
    let r := k.sp.readN ra.toNat 32
    let want := leNat (r.take 2)
    let g := leNat ((r.drop 2).take 1)
    let new : KvSeq :=
      { geom := g, policy := min 2 (leNat ((r.drop 3).take 1)), len := 0, detent := none, epoch := 0,
        key := BitVec.ofNat 128 (leNat ((r.drop 8).take 16)), counter := BitVec.ofNat 64 (leNat ((r.drop 24).take 8)) }
    let ends := fun (t : State) (st : Nat) => Host.Outcome.next (φ := Fault) (ρ := Refusal) ((t.completed c id st).crossLink (c.val / 12))
    (s.Serves c id e → s.kvDisabled = false →
      (e.op = .kvNew ra rb → spFits ra 32 = true → spFits rb 8 = true → k.badIn [(ra.toNat, 32)] = none → g < 16 → (s.geom g).valid = true →
        (∀ q, want = q ∧ q < 4096 ∧ s.seq? q = none ∨ want = 0xFFFF ∧ s.freeSeq = some q →
          exec (.kvNew c (.run id [])) s = ends (((s.latchGeom g).setSeq q new).spWrite c.val rb.toNat (leBytes 8 q)) 0)
        ∧ (want = 0xFFFF ∧ s.freeSeq = none ∨ want ≠ 0xFFFF ∧ (4096 ≤ want ∨ ∃ x, s.seq? want = some x) →
          exec (.kvNew c (.run id [])) s = ends (s.spWrite c.val rb.toNat (leBytes 8 (2 ^ 64 - 1))) 0))
      ∧ (∀ x, e.op = .kvFree ra → s.seq? ra.toNat = some x → s.faultq.length ≤ 240 →
        ∃ u : State, exec (.kvFree c (.run id [])) s = ends u 0 ∧ u.seq? ra.toNat = none ∧ (∀ p ∈ u.kvPages, p.seq ≠ ra.toNat)
          ∧ (∀ q, q ≠ ra.toNat → u.seq? q = s.seq? q) ∧ u.cores = s.cores
          ∧ u.kvPages.map (fun p => { p with move := none, stuck := false })
            = (s.kvPages.filter (fun p => p.seq != ra.toNat)).map (fun p => { p with move := none, stuck := false }))
      ∧ (∀ x, e.op = .kvDetent ra → s.seq? ra.toNat = some x →
        exec (.kvDetent c (.run id [])) s = ends ((s.setSeq ra.toNat { x with detent := some (x.len, x.counter), epoch := x.epoch + 1 }).startMoves 4) 0)
      ∧ (s.seq? ra.toNat = none →
        (e.op = .kvFree ra → exec (.kvFree c (.run id [])) s = ends s Status.addrRange)
        ∧ (e.op = .kvDetent ra → exec (.kvDetent c (.run id [])) s = ends s Status.addrRange)))
    ∧ (∀ i ∈ [Instr.kvNew c (.run id []), .kvFree c (.run id []), .kvExt c (.run id []), .kvPut c (.run id []), .kvGet c (.run id []),
        .kvDetent c (.run id []), .kvCommit c (.run id []), .kvRollback c (.run id [])], s.crosses c.val e.op = true →
      (s.Serves c id e → s.kvDisabled = true → exec i s = ends s Status.addrRange)
      ∧ (s.Runs c id e → s.kvWaits c.val e = true → exec i s = .next s)))
  ∧ (∀ (c : CoreId) (id q : Nat) (e : Entry) (ra rb rc rd : Word) (try_ mc : Bool) (x : KvSeq) (s : State), s.Serves c id e →
    s.kvDisabled = false → ra.toNat = q → s.seq? q = some x →
    let ends := fun (t : State) (st : Nat) => Host.Outcome.next (φ := Fault) (ρ := Refusal) ((t.completed c id st).crossLink (c.val / 12))
    let goal := min (x.len + rb.toNat) x.limit
    let ext := e.op = .kvExt ra rb rc try_
    let makes := fun (t : State) (n : Nat) =>
      ∃ u : State, exec (.kvExt c (.run id [])) s = ends u 0 ∧ u.seq? q = some { x with len := n }
        ∧ (u.core c.val).sp = ((s.core c.val).spWrite rc.toNat (leBytes 8 n)).sp ∧ u.kvPages.length = t.kvPages.length
    (ext → spFits rc 8 = true → try_ = true ∨ x.len + rb.toNat ≤ x.limit →
      (∀ t : State, s.allocBlocks q (s.geom x.geom) x.policy (blocksOf goal - blocksOf x.len) (blocksOf x.len) = (t, none) → makes t goal)
      ∧ (∀ (t : State) (b : Nat), s.allocBlocks q (s.geom x.geom) x.policy (blocksOf goal - blocksOf x.len) (blocksOf x.len) = (t, some b) →
        (try_ = true → makes t (max x.len (16 * b))) ∧ (try_ = false → exec (.kvExt c (.run id [])) s = ends s Status.addrRange)))
    ∧ (ext → try_ = false → spFits rc 8 = true → x.limit < x.len + rb.toNat → exec (.kvExt c (.run id [])) s = ends s Status.addrRange)
    ∧ (∀ d n, x.detent = some (d, n) → s.faultq.length ≤ 240 →
      (e.op = .kvCommit ra rb rc rd false →
        ∃ u : State, exec (.kvCommit c (.run id [])) s = ends u 0
          ∧ u.seq? q = some { x with len := d + min rb.toNat (x.len - d), detent := none }
          ∧ (∀ p ∈ u.kvPages, p.seq = q → p.block < blocksOf (d + min rb.toNat (x.len - d))) ∧ u.cores = s.cores)
      ∧ (e.op = .kvRollback ra rc rd false →
        ∃ u : State, exec (.kvRollback c (.run id [])) s = ends u 0 ∧ u.seq? q = some { x with len := d, counter := n, detent := none }
          ∧ (∀ p ∈ u.kvPages, p.seq = q → p.block < blocksOf d) ∧ u.cores = s.cores))
    ∧ (x.detent = none → e.reportBad mc = false →
      (e.op = .kvCommit ra rb rc rd mc → exec (.kvCommit c (.run id [])) s = ends s 0)
      ∧ (e.op = .kvRollback ra rc rd mc → exec (.kvRollback c (.run id [])) s = ends s 0)))
  ∧ (∀ (c : CoreId) (id q : Nat) (e : Entry) (ra rb rc rd : Word) (s : State),
    (∀ (x : KvSeq) (d : Nat) (n : Word), s.Serves c id e → s.kvDisabled = false → ra.toNat = q → s.seq? q = some x → x.detent = some (d, n) →
      s.faultq.length ≤ 240 → e.reportBad true = false → rc ≠ 0 → rd ≠ 0 → s.c0Held = [] → 1 ≤ s.rd Reg.SCHED_C0_STAT_TOKENS →
      s.purgeTxns.txns.length < 32768 →
      let kept := d + min rb.toNat (x.len - d)
      let sends := fun (i : Instr) (kind len : Nat) (counter : Word) =>
        ∃ (u : State) (p : Packet), exec i s = .next u ∧ u.held = s.held ++ [{ pkt := p, arrived := none, buf := 0, due := 0, started := false }]
          ∧ p.typ.val = 0x0C ∧ p.cls = 0 ∧ p.mask = { inRack := rc, racks := rd }
          ∧ p.payload = leBytes 8 rc.toNat ++ leBytes 8 rd.toNat ++ leBytes 2 q ++ leBytes 2 x.epoch.toNat ++ leBytes 4 kind ++ leBytes 8 len
              ++ leBytes 8 counter.toNat
          ∧ (u.core c.val).entry? id = some { e with phase := .waiting, left := 1 }
          ∧ u.seq? q = some { x with len := len, counter := counter, detent := none }
          ∧ u.rd Reg.SCHED_C0_STAT_TOKENS = s.rd Reg.SCHED_C0_STAT_TOKENS - 1
      (e.op = .kvCommit ra rb rc rd true → sends (.kvCommit c (.run id [])) 0 kept x.counter)
      ∧ (e.op = .kvRollback ra rc rd true → sends (.kvRollback c (.run id [])) 1 d n))
    ∧ ((s.core c.val).entry? id = some e → e.phase = .waiting → s.failed = false → s.kvAfoot c.val id = false →
      let st := if e.missed.any (fun x => x.2 != 0) then Status.partialDelivery else Status.ok
      let ends := fun (i : Instr) => ∃ u : State, exec i s = .next (u.completed c id st)
        ∧ (u.core c.val).sp = (if e.slotEn then ((s.core c.val).spWrite (e.slot * 8 + 8) (missReport e.missed)).sp else (s.core c.val).sp)
        ∧ (∀ x ∈ u.txns, x.core = c.val → x.id = id → x.spent = true)
      (e.op = .kvCommit ra rb rc rd true → ends (.kvCommit c (.run id []))) ∧ (e.op = .kvRollback ra rc rd true → ends (.kvRollback c (.run id []))))
    ∧ ((s.core c.val).entry? id = some e → e.phase = .waiting → s.kvAfoot c.val id = true →
      exec (.kvCommit c (.run id [])) s = .next s ∧ exec (.kvRollback c (.run id [])) s = .next s))

/-- KV.PUT of one row to a page in direct HM, outside the manager's own region, stores each element in E4M3 under its head's
scale, fixing an unset scale from the row; KV.GET of one row in E4M3 from such a page lands its bytes and its scales in SP,
and in FP32 or BF16 the values times their scales; of any number of rows of such pages both complete OK (R42, R117,
R200-R203).

A page move that is done switches its page to the new place, which holds the old place's bytes, and counts; freed pages
are reclaimed; KV_CTL.CLEAR frees every sequence and page and reads 1 until done; an apply leaves latched only the
geometries and pools in use; a KV_UPDATE that matches its sequence's epoch resolves its detent, a repeated one does nothing,
and one of another epoch or of no sequence is counted stale (R206, R207, R209, R215). -/
def Obligations.KvRowsAndHousekeeping : Prop :=
  (∀ (c : CoreId) (id q : Nat) (e : Entry) (ts : TileWord) (ra rb rc rd : Word) (x : KvSeq) (pg : KvPage) (s : State), s.Serves c id e →
    s.kvDisabled = false → ra.toNat = q → s.seq? q = some x →
    let t := Tile.of ts
    let g := s.geom x.geom
    let layer := rb.toNat
    let pos := rc.toNat
    let place := fun (p : KvPage) (i : Nat) => (s.pageAt p.pool p.index).2 + g.rowAt layer i
    let at_ := place pg pos
    let m := (s.core c.val).sp
    let row := (List.range t.cols).map (fun j => t.elem m 0 j)
    let scale := fun (h : Nat) => (pg.scales.lookup (g.scaleKey layer h)).getD (g.firstScale ((row.zipIdx.filter (fun p => g.headOf p.2 == h)).map Prod.fst))
    let ends := fun (t : State) => Host.Outcome.next (φ := Fault) (ρ := Refusal) ((t.completed c id 0).crossLink (c.val / 12))
    t.check = none → t.cols = g.rowLen →
    (layer < g.layers → pos < x.len → g.holds (pos / 16) = true → s.pageOf q g layer pos = some pg → (s.pool pg.pool).space = 1 →
      (e.op = .kvPut ts ra rb rc → t.fmt ≤ 2 → t.rows = 1 → (s.core c.val).badIn t.ranges = none → pg.move = none →
        at_ + g.rowLen ≤ s.kvRegion.1 ∨ s.kvRegion.1 + s.kvRegion.2 ≤ at_ →
        ∃ u : State, exec (.kvPut c (.run id [])) s = ends u
          ∧ u = { s with hm := u.hm, hmBad := u.hmBad, kvPages := u.kvPages, freeCtr := u.freeCtr }
          ∧ u.hm.readN at_ g.rowLen = row.zipIdx.map (fun v => kvEnc (scale (g.headOf v.2)) v.1)
          ∧ (∀ a, a < at_ ∨ at_ + g.rowLen ≤ a → a < s.kvRegion.1 ∨ s.kvRegion.1 + s.kvRegion.2 ≤ a → u.hm.read a = s.hm.read a)
          ∧ (∃ y : KvPage, u.pageOf q g layer pos = some y ∧ y = { pg with scales := y.scales } ∧ (∀ h, h < g.heads → y.scales.lookup (g.scaleKey layer h) = some (scale h))))
      ∧ (e.op = .kvGet ts ra rb rc rd → rd.toNat = 1 → 1 ≤ t.rows → (s.hmRead at_ g.rowLen).2.isBad = false →
        (t.fmt = Fmt.e4m3 → t.scale + 4 * g.heads ≤ spSize → exec (.kvGet c (.run id [])) s
          = ends ((s.spWrite c.val (t.rowAt 0) (s.hm.readN at_ g.rowLen)).spWrite c.val t.scale
              ((List.range g.heads).flatMap (fun h => leBytes 4 (match s.pageOf q g layer (16 * (pos / 16)) with | some y => (y.scale g layer h).toNat | none => 0)))))
        ∧ (t.fmt ≤ 1 → exec (.kvGet c (.run id [])) s
          = ends (s.storeWords c.val t 0 0 false e.sat ((s.hm.readN at_ g.rowLen).zipIdx.map (fun v => kvDec (pg.scale g layer (g.headOf v.2)) v.1))))))
    ∧ (∀ ps, e.op = .kvPut ts ra rb rc → t.fmt ≤ 2 → s.kvRun x rb rc t.rows = some ps → (s.core c.val).badIn t.ranges = none →
      (∀ i ∈ ps, ∃ p, s.pageOf q g layer i = some p ∧ p.move = none ∧ (s.pool p.pool).space = 1
        ∧ (place p i + g.rowLen ≤ s.kvRegion.1 ∨ s.kvRegion.1 + s.kvRegion.2 ≤ place p i)) →
      ∃ u : State, exec (.kvPut c (.run id [])) s = ends u ∧ u.cores = s.cores ∧ u.kvSeqs = s.kvSeqs)
    ∧ (∀ ps, e.op = .kvGet ts ra rb rc rd → t.fmt ≤ 1 → s.kvRun x rb rc rd.toNat = some ps → rd.toNat ≤ t.rows →
      (∀ i ∈ ps, ∃ p, s.pageOf q g layer i = some p ∧ (s.pool p.pool).space = 1 ∧ (s.hmRead (place p i) g.rowLen).2.isBad = false) →
      ∃ u : State, exec (.kvGet c (.run id [])) s = ends u ∧ u.kvSeqs = s.kvSeqs ∧ u.kvPages = s.kvPages ∧ u.hm = s.hm))
  ∧ (∀ (s : State), s.faultq.length ≤ 200 →
    (∀ (i c j : Nat) (p : KvPage), (s.kvPages.filter (fun p => p.move.isSome))[i]? = some p → p.move = some (c, j) →
      (s.pool p.pool).space = 1 → (s.pool c).space = 1 → (s.hmRead (s.pageAt p.pool p.index).2 65536).2.isBad = false →
      (s.pageAt c j).2 + 65536 ≤ s.kvRegion.1 ∨ s.kvRegion.1 + s.kvRegion.2 ≤ (s.pageAt c j).2 →
      ∃ u : State, exec (.pageMoveDone i []) s = .next u ∧ u.rd Reg.KV_STAT_MOVES = min (s.rd Reg.KV_STAT_MOVES + 1) (2 ^ Reg.KV_STAT_MOVES.w - 1)
        ∧ (∃ x ∈ u.kvPages, x.seq = p.seq ∧ x.block = p.block ∧ x.group = p.group ∧ x.pool = c ∧ x.index = j ∧ x.scales = p.scales)
        ∧ u.hm.readN (s.pageAt c j).2 65536 = s.hm.readN (s.pageAt p.pool p.index).2 65536 ∧ u.kvSeqs = s.kvSeqs)
    ∧ exec .pageReclaim s = .next { s with kvLazy := [] }
    ∧ (s.failed = false → s.rd Reg.GLB_BOOT_STAGE = 4 →
      ∃ u : State, exec .kvClear s = .next u ∧ u.kvSeqs = [] ∧ u.kvPages = [] ∧ u.rd Reg.KV_CTL_CLEAR = 1 ∧ u.cores = s.cores)
    ∧ exec .kvClearDone s = .next (s.wr Reg.KV_CTL_CLEAR 0)
    ∧ (∃ u : State, exec .kvConfigApply s = .next u ∧ u.kvGeom = s.kvGeom.filter (fun g => s.kvSeqs.any (fun q => q.2.geom == g.1))
      ∧ u.kvPoolLo = s.kvPoolLo.filter (fun p => s.poolBusy p.1 != 0) ∧ u.kvPoolHi = s.kvPoolHi.filter (fun p => s.poolBusy p.1 != 0)
      ∧ u.kvSeqs = s.kvSeqs ∧ u.kvPages = s.kvPages ∧ u.cores = s.cores)
    ∧ (∀ (p : Packet) (q : Nat), s.failed = false → leNat ((p.payload.drop 16).take 2) = q →
      let epoch := leNat ((p.payload.drop 18).take 2)
      let len := leNat ((p.payload.drop 24).take 8)
      let counter := BitVec.ofNat 64 (leNat ((p.payload.drop 32).take 8))
      let stale := ∃ u : State, exec (.kvUpdate p) s = .next u ∧ u.rd Reg.KV_STAT_MC_STALE = min (s.rd Reg.KV_STAT_MC_STALE + 1) (2 ^ Reg.KV_STAT_MC_STALE.w - 1)
          ∧ u.kvSeqs = s.kvSeqs ∧ u.kvPages = s.kvPages ∧ u.cores = s.cores
      (s.seq? q = none → stale)
      ∧ (∀ x, s.seq? q = some x →
        (x.epoch.toNat ≠ epoch → stale)
        ∧ (x.epoch.toNat = epoch → x.detent = none → (x.len = len ∧ x.counter = counter → exec (.kvUpdate p) s = .next (s.takeHub p))
            ∧ (¬ (x.len = len ∧ x.counter = counter) → stale))
        ∧ (∀ d, x.epoch.toNat = epoch → x.detent = some d →
          (len ≤ x.len → ∃ u : State, exec (.kvUpdate p) s = .next u ∧ u.seq? q = some { x with len := len, counter := counter, detent := none }
            ∧ u.hubIn = s.hubIn.erase p ∧ u.cores = s.cores)
          ∧ (x.len < len → stale)))))

/-! ## Collectives (R120-R122, R292-R313) -/

/-- COLL.OPEN of a valid group registers its handle: the collective's record with its digest joins the module's, the handle
names it, and the instruction waits for its completion; with 64 groups active it waits for a place, and COLL_GROUP_ADMIT
registers it then.  A kept triple completes it at once with its status, and a member that is lost with COLL_ABORTED; a bad
descriptor address or a used handle completes ADDR_RANGE (R120, R293, R294, R304, R305, R309).

COLL.PUB adds its extent to the collective's publications and completes OK; elements past the count complete ADDR_RANGE;
once a leaf of the tree has published the whole of a chunk, its contribution goes to its parent, a data packet for each 4 KiB
(R121, R296, R299, R301).  Each crosses its leaf's link (R340); one whose collective has ended reports that end (R122). -/
def Obligations.CollectivesOpenAndPublish : Prop :=
  (∀ (c : CoreId) (id : Nat) (e : Entry) (td : TileWord) (ra rb : Word) (h : Fin 8) (s : State),
    let t := Tile.of td
    let k := s.core c.val
    let d := s.hm.readN (gOff ra) 64
    let x := s.newColl c.val d (gOff ra) rb (t.rows * t.cols)
    let o : CollOpen := { core := c.val, id := id, handle := h.val, td := td, got := [], fin := false }
    let y := { x with opens := [o] }
    let first := s.coll? x.gid x.seq = none ∧ (∀ z ∈ s.store, z.gid ≠ x.gid ∨ z.seq % 16 ≠ x.seq % 16) ∧ y.met s.modNum o = false
    let kept := s.triples.find? (fun t => t.coll.gid == x.gid && t.coll.seq == x.seq)
    let registers := fun (i : Instr) (waiting : List (Nat × Nat)) =>
      ∃ u : State, exec i s = .next u ∧ u = { s with cores := u.cores, colls := s.colls ++ [y], collWait := waiting, leaves := u.leaves }
        ∧ (u.core c.val).handles.getD h.val none = some (x.gid, x.seq) ∧ (u.core c.val).entry? id = some { e with phase := .waiting }
    let ends := fun (i : Instr) (st : Nat) =>
      ∃ (u : State) (f : Entry), exec i s = .next u ∧ (u.core c.val).entry? id = some f ∧ f.phase = .done st ∧ u.coll? x.gid x.seq = none
    let opens := fun (i : Instr) (waiting : List (Nat × Nat)) => first → s.groupOk c.val x = true → (s.hmRead (gOff ra) 64).2.isBad = false →
      (kept = none → x.lost s = false → registers i waiting)
      ∧ (kept = none → x.lost s = true → ends i Status.collAborted)
      ∧ (∀ t, kept = some t → ends i t.status)
    (s.Runs c id e → e.op = .collOpen td ra rb h.val → k.handleReady id h.val = true → openUndef t rb = false → t.check = none →
      (k.handles.getD h.val none = none → s.descOk ra = true →
        (s.activeGroups.length < 64 → opens (.collOpen c (.run id [])) s.collWait)
        ∧ (64 ≤ s.activeGroups.length → s.activeGroups.contains x.gid = false → s.groupOk c.val x = true → (s.hmRead (gOff ra) 64).2.isBad = false →
          exec (.collOpen c (.run id [])) s
            = .next (({ s with collWait := s.collWait ++ [(c.val, id)] }.modEntry c.val id (fun e => { e with phase := .waiting })).crossLink (c.val / 12))))
      ∧ ((k.handles.getD h.val none).isSome = true ∨ s.descOk ra = false →
        exec (.collOpen c (.run id [])) s = .next ((s.completed c id Status.addrRange).crossLink (c.val / 12))))
    ∧ (k.entry? id = some e → e.op = .collOpen td ra rb h.val → (c.val, id) ∈ s.collWait → s.activeGroups.length < 64 →
      opens (.collGroupAdmit c id) (s.collWait.erase (c.val, id))))
  ∧ (∀ (c : CoreId) (id gid seq : Nat) (e : Entry) (ts : TileWord) (ra : Word) (h : Fin 8) (x : Coll) (s : State), s.Runs c id e → e.op = .collPub ts ra h.val →
    let t := Tile.of ts
    let n := t.rows * t.cols
    let y := { x with pubs := x.pubs ++ [{ core := c.val, handle := h.val, ts := ts, first := ra.toNat, num := n }] }
    let quiet := x.opens ≠ [] ∧ (∀ o ∈ x.opens, o.fin = false ∧ x.met s.modNum o = false)
    (s.core c.val).handleReady id h.val = true → (s.core c.val).handles.getD h.val none = some (gid, seq) → s.coll? gid seq = some x → t.fmt = x.typ →
    t.check = none →
    let ends := fun (u : State) (st : Nat) => Host.Outcome.next (φ := Fault) (ρ := Refusal) ((u.completed c id st).crossLink (c.val / 12))
    (e.bad ≠ 0 → exec (.collPub c (.run id [])) s = .next ((s.modEntry c.val id (fun f =>
      { f with phase := .done e.bad, cause := 0x0802, addr := 0, info := e.info })).crossLink (c.val / 12)))
    ∧ (e.bad = 0 → x.count < ra.toNat + n → exec (.collPub c (.run id [])) s = ends s Status.addrRange)
    ∧ (e.bad = 0 → ra.toNat + n ≤ x.count → (∀ p ∈ x.pubs, p.hits ra.toNat n = false) → x.kind = 0 ∨ x.kind = 4 → quiet →
      ((∀ k, k < x.chunks.length → y.published k = false) →
        exec (.collPub c (.run id [])) s = ends (s.modColl gid seq (fun z => { z with pubs := z.pubs ++ [{ core := c.val, handle := h.val, ts := ts, first := ra.toNat, num := n }] })) 0)
      ∧ (∀ p, x.chunks.length = 1 → x.sent = [] → y.published 0 = true → x.rootOf 0 ≠ s.modNum → x.children (x.rootOf 0) s.modNum = [] →
        treeParent (dMask x.desc) (x.rootOf 0) s.modNum = some p → (s.contribution y 0).2 = false →
        ∃ u : State, exec (.collPub c (.run id [])) s = ends u 0 ∧ u = { s with colls := u.colls, held := u.held }
          ∧ u.held.length = s.held.length + x.packets 0
          ∧ (∀ i, s.held.length ≤ i → ∀ z, u.held[i]? = some z → z.pkt.dst = p ∧ z.pkt.typ.val = PT.collData))))

/-- A collective data packet of a child joins its slot, and one of any other module is discarded; one of a chunk that no slot holds and no room takes waits, one whose PCRC fails
is discarded with an S1 record; STORE_SLOT_GRANT gives a waiting input a slot that is free (R299-R301,
R307).

RECEIPT frees the slot of an output that the parent holds; the last CONSUMED frees the slot of a final result; DONE and
MISS are noted; RESEND sends the named packets again from the retained copy, or from SP where no
slot holds the contribution, and counts; a copy that is lost makes its holder ask the root to start the chunk again, and a
corrected one is logged (INFO0 0xFF, assumption 27); a kept triple expires (R305-R307,
R311). -/
def Obligations.CollectivePacketsAct : Prop :=
  (∀ (p : Packet) (s : State), s.failed = false →
    let s0 := s.takeHub p
    let good := BitVec.ofNat 32 (crc32c p.payload) = p.pcrc
    (∀ x z, good → s.collBy (cdGid p) (cdSeq4 p) = some x → p.digest = x.digest → cdChunk p < x.chunks.length → cdGen p = Tab.get x.gens 0 (cdChunk p) →
      cdDown p = false → (x.children (x.rootOf (cdChunk p)) s.modNum).contains p.src = true →
      s.slot? x.gid (x.seq % 16) (cdChunk p) = some z → z.out = none → (∀ i ∈ z.inputs, i.1 ≠ p.src ∨ i.2.1 ≠ cdPkt p) →
      x.inputWhole (cdChunk p) (z.inputs ++ [(p.src, cdPkt p, p.payload)]) p.src = false →
      exec (.collDataPacket p) s = .next (s0.modSlot x.gid (x.seq % 16) (cdChunk p) (fun w => { w with inputs := z.inputs ++ [(p.src, cdPkt p, p.payload)] })))
    ∧ (∀ x, good → s.collBy (cdGid p) (cdSeq4 p) = some x → p.digest = x.digest → cdDown p = false →
      (x.children (x.rootOf (cdChunk p)) s.modNum).contains p.src = false → exec (.collDataPacket p) s = .next s0)
    ∧ (good → s.collBy (cdGid p) (cdSeq4 p) = none → (∀ t ∈ s.triples, t.coll.gid ≠ cdGid p ∨ t.coll.seq % 16 ≠ cdSeq4 p) →
      s.slot? (cdGid p) (cdSeq4 p) (cdChunk p) = none → s.slotFree (cdGid p) = false →
      exec (.collDataPacket p) s = .next { s0 with storeWait := s.storeWait ++ [p] })
    ∧ (BitVec.ofNat 32 (crc32c p.payload) ≠ p.pcrc → s.collBy (cdGid p) (cdSeq4 p) = none →
      exec (.collDataPacket p) s = .next (s0.raise { Fault_.blank 1 Status.ok 0x0305 with other := p.src, info0 := 0x0E }))
    ∧ (∀ ws, s.colls = [] → s.storeWait = p :: ws → (∀ t ∈ s.triples, t.coll.gid ≠ cdGid p ∨ t.coll.seq % 16 ≠ cdSeq4 p) → s.slotFree (cdGid p) = true →
      ∃ u : State, exec .storeSlotGrant s = .next u ∧ u = { s with storeWait := ws, store := u.store }
        ∧ ∃ z ∈ u.store, z.gid = cdGid p ∧ z.chunk = cdChunk p ∧ p ∈ z.held))
  ∧ (∀ (p : Packet) (x : Coll) (s : State), s.failed = false → s.coll? (ccGid p) (ccSeq p) = some x →
    let s0 := s.takeHub p
    let k := ccChunk p
    let quiet := fun (y : Coll) => y.opens ≠ [] ∧ (∀ o ∈ y.opens, o.fin = false ∧ y.met s.modNum o = false)
    (∀ z b, s.slot? x.gid (x.seq % 16) k = some z → z.out = some b → z.final = none → x.isOpen = true →
      exec (.receipt p) s = .next (s0.dropSlot x.gid x.seq k))
    ∧ (∀ z f, s.slot? x.gid (x.seq % 16) k = some z → z.final = some f → (∀ m ∈ s.consumers x k, m = p.src ∨ m ∈ z.consumed) →
      ∃ u : State, exec (.consumed p) s = .next u ∧ u.slot? x.gid (x.seq % 16) k = none)
    ∧ (x.children x.root s.modNum = [] → k ∉ x.dones → quiet { x with dones := x.dones ++ [k] } →
      exec (.done p) s = .next (s0.modColl x.gid x.seq (fun y => { y with dones := if y.dones.contains k then y.dones else y.dones ++ [k] })))
    ∧ (quiet x → ∃ u : State, exec (.miss p) s = .next u ∧ u = { s0 with colls := u.colls }
      ∧ (∃ y, u.coll? x.gid x.seq = some y ∧ y = { x with missed := y.missed }
        ∧ ∀ m, m < 4096 → maskNames (ccMask p) m = true → (Tab.get y.missed 0 (rackBit m)).getLsbD (inRackBit m) = true))
    ∧ (k < x.chunks.length → (ccFlags p).testBit 0 = false → ccGen p = Tab.get x.gens 0 k →
      let again := fun (t : State) (down : Bool) (bs : List Byte) => Host.Outcome.next (φ := Fault) (ρ := Refusal)
        ((t.hmCount (x.descAt + 72) 8).sendChunk x p.src k down (ccPkts p) bs)
      (∀ z b, s.slot? x.gid (x.seq % 16) k = some z → z.out = some b →
        exec (.resend p .clean []) s = again s0 z.final.isSome b
        ∧ exec (.resend p .corrected []) s = again (s0.raise { Fault_.blank 1 Status.ok 0x0201 with info0 := 0xFF }) z.final.isSome b
        ∧ (z.final = none → exec (.resend p .uncorrectable []) s
            = .next (s0.sendCtl x (x.rootOf k) CKind.resend 0 k 0 noMask ((Tab.get x.gens 0 k + 1) % 8) 1)))
      ∧ (∀ f, s.slot? x.gid (x.seq % 16) k = none → k ∈ x.sent → x.reduces = true → (s.contribution x k).2 = false →
        exec (.resend p f []) s = again s0 false (s.contribution x k).1))
    ∧ (∀ gid seq, exec (.abortTripleExpiry gid seq) s
        = .next { s with triples := s.triples.filter (fun t => !(t.coll.gid == gid && t.coll.seq == seq)) }))

/-- ABORT ends its collective on the module, and a final result not consumed within 100 ms does: every open handle closes and its
COLL.OPEN completes with the status, the slots go, and the triple is kept (R305, R308). -/
def Obligations.AbortedCollectivesEnd : Prop :=
  ∀ (gid seq st chunk : Nat) (x : Coll) (p : Packet) (s : State), s.failed = false → s.coll? gid seq = some x →
    let ends := fun (i : Instr) (status : Nat) =>
      ∃ u : State, exec i s = .next u ∧ u.coll? gid seq = none ∧ (∀ z ∈ u.store, z.gid ≠ gid ∨ z.seq % 16 ≠ seq % 16)
        ∧ (∃ b, u.triples.head? = some { coll := x, status := status, passed := b })
        ∧ (∀ o ∈ x.opens, o.fin = false → o.core < 48 → (u.core o.core).handles.getD o.handle none = none
          ∧ (∀ e, (s.core o.core).entry? o.id = some e → ∃ f, (u.core o.core).entry? o.id = some f ∧ f.phase = .done status))
    (ccGid p = gid → ccSeq p = seq → ccStatus p = st → ends (.collAbort p) st)
    ∧ (∀ z f, s.slot? gid (seq % 16) chunk = some z → z.final = some f → s.clock < f + State.msTicks 100 →
      exec (.collConsumedTimeout gid seq chunk) s = .next s)
    ∧ (∀ z f, s.slot? gid (seq % 16) chunk = some z → z.final = some f → f + State.msTicks 100 ≤ s.clock → ends (.collConsumedTimeout gid seq chunk) Status.collAborted)

/-! ## Command queues and tasks (R65, R190, R191, R216-R235) -/

/-- A doorbell write of 16, 32 or 64 bits moves its queue's TAIL or completion head when the value lies in range, and is else
discarded with an S0 record of cause 0x0A03 that names the queue; a command read fetches the slot of HEAD, at the latched BASE plus
64 times HEAD modulo the ring size, of the queue whose turn it is and takes its command; a failed read disables the queue and
counts (R216-R218, R370, R372).

The oldest waiting completion entry is written to its slot of the queue's ring while the ring has room: 16 bytes with the
tag, the status, the flags with PHASE, the task, the core, the first non-fatal status, the IP and rack time; CPL_TAIL moves on
by 1, and PHASE toggles when the tail wraps (R218). -/
def Obligations.DoorbellsReadsAndEntries : Prop :=
  (∀ (q : Fin 64) (width : Nat) (v : Word) (s : State), s.booted = true → s.failed = false →
    (width = 16 ∨ width = 32 ∨ width = 64 →
      ((v.toNat % 65536 + 65536 - s.rd (Reg.SCHED_Q_STATE_HEAD q.val)) % 65536 ≤ s.qSize q.val - 1 →
        exec (.doorbellTail q width v) s = .next (s.wr (Reg.SCHED_Q_STATE_TAIL q.val) (v.toNat % 65536)))
      ∧ (s.qSize q.val - 1 < (v.toNat % 65536 + 65536 - s.rd (Reg.SCHED_Q_STATE_HEAD q.val)) % 65536 →
        exec (.doorbellTail q width v) s = .next (s.logS0 Status.ok 0x0A03 q.val))
      ∧ ((v.toNat % 65536 + 65536 - (s.queue q.val).cplHead) % 65536 ≤ s.cplUsed q.val →
        exec (.doorbellCplHead q width v) s = .next (s.modQueue q.val (fun x => { x with cplHead := v.toNat % 65536 })))
      ∧ (s.cplUsed q.val < (v.toNat % 65536 + 65536 - (s.queue q.val).cplHead) % 65536 →
        exec (.doorbellCplHead q width v) s = .next (s.logS0 Status.ok 0x0A03 q.val)))
    ∧ (s.qTurn = some q.val → (∀ i, i < 64 → (s.queue i).accepted = none) →
      let slot := HostMsg.fetch (BitVec.ofNat 64 ((s.queue q.val).ring.toNat / 2 ^ 12 % 2 ^ 52 * 4096 + s.rd (Reg.SCHED_Q_STATE_HEAD q.val) % s.qSize q.val * 64)) 64
      (∀ bs, leNat (((bs ++ List.replicate 64 0).take 64).take 1) ≤ 3 →
        ∃ u : State, exec (.commandRead q (.data bs)) s = .next u
          ∧ (u.queue q.val).accepted = some { seq := (s.queue q.val).nextSeq, bytes := (bs ++ List.replicate 64 0).take 64 }
          ∧ (u.queue q.val).nextSeq = (s.queue q.val).nextSeq + 1 ∧ (u.queue q.val).open_ = (s.queue q.val).open_ ++ [(s.queue q.val).nextSeq]
          ∧ u.rd (Reg.SCHED_Q_STATE_HEAD q.val) = (s.rd (Reg.SCHED_Q_STATE_HEAD q.val) + 1) % 65536 ∧ u.lastQ = q.val
          ∧ u = { s with queues := u.queues, regs := u.regs, lastQ := u.lastQ, hostOut := s.hostOut ++ [slot] })
      ∧ (∃ u : State, exec (.commandRead q .failed) s = .next u ∧ u.rd (Reg.SCHED_Q_RING_ENABLE q.val) = 0
        ∧ u.rd Reg.HOST_STAT_RING_ERRS = min (s.rd Reg.HOST_STAT_RING_ERRS + 1) (2 ^ Reg.HOST_STAT_RING_ERRS.w - 1)
        ∧ u.hostOut = s.hostOut ++ [slot]))
    ∧ (s.qTurn ≠ some q.val → ∀ r, exec (.commandRead q r) s = .next s))
  ∧ (∀ (q : Fin 64) (c : Cpl) (rest : List Cpl) (s : State), s.failed = false → s.qEnabled q.val = true → (s.queue q.val).waiting = c :: rest →
    let n := s.qSize q.val
    let tail := s.rd (Reg.SCHED_Q_STATE_CPL_TAIL q.val)
    let phase := s.rd (Reg.SCHED_Q_STATE_PHASE q.val)
    let at_ := BitVec.ofNat 64 (fld (s.queue q.val).cpl.toNat 12 52 * 4096 + tail % n * 16)
    (s.cplFull q.val = false → c.isFinal = false →
      ∃ u : State, exec (.completionEntryWrite q) s = .next u
        ∧ (∃ l, u.hostOut = s.hostOut ++ HostMsg.cpl at_ (leBytes 2 c.tag ++ leBytes 1 c.status ++ leBytes 1 (c.flags + phase) ++ leBytes 2 c.task
            ++ leBytes 1 c.core ++ leBytes 1 c.nonFatal ++ leBytes 2 c.ip ++ leBytes 6 s.rackTime.toNat) :: l)
        ∧ (u.queue q.val).waiting = rest ∧ u.rd (Reg.SCHED_Q_STATE_CPL_TAIL q.val) = (tail + 1) % 65536
        ∧ (phase ≤ 1 → u.rd (Reg.SCHED_Q_STATE_PHASE q.val) = if (tail + 1) % n = 0 then 1 - phase else phase)
        ∧ u = { s with hostOut := u.hostOut, queues := u.queues, regs := u.regs })
    ∧ (s.cplFull q.val = true → exec (.completionEntryWrite q) s = .next s))

/-- NOP completes at acceptance; BARRIER completes when every earlier command of its queue has, and else holds the queue; KILL
ends every task that it names, abandoning its dispatched work, and waits for their final entries, or completes ADDR_RANGE when
it names none (R219, R417).

SUBMIT of a good image gives the task its number and accepts it as pending with the fields of the command; one whose image
does not lie on this module is refused at once: counted, and its entry with ADDR_RANGE and the refused flag falls due; one whose
image lies behind a channel of LM that is out of use waits (R220-R223, R362). -/
def Obligations.HostCommandsAndSubmits : Prop :=
  (∀ (q : Fin 64) (c : HostCmd) (s : State), s.failed = false → (s.queue q.val).accepted = some c → (s.queue q.val).barrier = none →
    s.qEnabled q.val = true →
    let op := leNat (c.bytes.take 1)
    let ends := fun (status : Nat) => Host.Outcome.next (φ := Fault) (ρ := Refusal) (s.modQueue q.val (fun x =>
      { x with accepted := none, waiting := x.waiting ++ [cmdEntry c.tag status], open_ := x.open_.filter (fun n => n != c.seq) }))
    let named := if c.field 1 1 % 2 = 1 then s.tasks.filter (fun t => t.job == c.field 6 2) else s.tasks.filter (fun t => t.num == c.field 4 2)
    (op = 0 → exec (.cmdNop q) s = ends Status.ok)
    ∧ (op = 3 → (∀ n ∈ (s.queue q.val).open_, c.seq ≤ n) → exec (.barrier q) s = ends Status.ok)
    ∧ (op = 3 → (∃ n ∈ (s.queue q.val).open_, n < c.seq) →
      exec (.barrier q) s = .next (s.modQueue q.val (fun x => { x with accepted := none, barrier := some (c.seq, c.tag) })))
    ∧ (op = 2 → named = [] → exec (.kill q) s = ends Status.addrRange)
    ∧ (op = 2 → named ≠ [] → ∃ u : State, exec (.kill q) s = .next u
      ∧ (∀ t ∈ named, ∀ x ∈ u.tasks, x.num = t.num → x.abandoned = true ∧ (x.killed = true ∨ x.jobFatal.isSome = true))
      ∧ u.tasks.map Task.num = s.tasks.map Task.num ∧ (u.queue q.val).kills = (s.queue q.val).kills ++ [(c.seq, c.tag, named.map Task.num)]
      ∧ (u.queue q.val).accepted = none ∧ (u.queue q.val).waiting = (s.queue q.val).waiting)
    ∧ (op ≠ 0 → exec (.cmdNop q) s = .next s))
  ∧ (∀ (q : Fin 64) (c : HostCmd) (i : Image) (s u : State), s.failed = false → (s.queue q.val).accepted = some c → leNat (c.bytes.take 1) = 1 →
    let num := s.freeTask 65535 s.nextTask
    let img := BitVec.ofNat 64 (c.field 8 8)
    let t := s.submitted q.val num c
    let s0 := { s.modQueue q.val (fun x => { x with accepted := none }) with nextTask := num % 65535 + 1, nextSeq := s.nextSeq + 1 }
    (s.imageWaits [] img = false → s0.readImage [] img = .good i u → u.isHere t.arg = true → gSpace t.arg = spHM → u.hmRange (gOff t.arg) 1 = true →
      s0.isHere t.arg = true → s0.hmRange (gOff t.arg) 1 = true →
      t.fourMe = false ∨ u.eligible t ≠ [] → exec (.submit q []) s = .next { u with tasks := u.tasks ++ [{ t with image := i }] })
    ∧ (s.imageWaits [] img = true → exec (.submit q []) s = .next s)
    ∧ (s.isHere img = false → s.qEnabled q.val = true → (s.queue q.val).barrier = none →
      ∃ w : State, exec (.submit q []) s = .next w ∧ w.tasks = s.tasks
        ∧ w.rd Reg.SCHED_STAT_REFUSED = min (s.rd Reg.SCHED_STAT_REFUSED + 1) (2 ^ Reg.SCHED_STAT_REFUSED.w - 1)
        ∧ (w.queue q.val).waiting = (s.queue q.val).waiting ++ [t.refusedEntry Status.addrRange] ∧ (w.queue q.val).accepted = none)
    ∧ t.state = .pending ∧ t.num = num ∧ t.queue = q.val ∧ t.tag = c.field 2 2 ∧ t.job = c.field 32 2 ∧ t.cls = c.field 4 1 % 4)

/-- The first task that can be placed takes its cores all at once and its image is copied to each, the text into the
instruction buffers; a loaded task starts on every one of its cores: IP at the entry, s1 to s4 the core's rank, the number
of cores, the core and the argument, the tumblers as the image gives them, SP as loaded (R65, R224, R226). -/
def Obligations.TasksAreLoadedAndStarted : Prop :=
  ∀ (t : Nat) (x : Task) (s : State), s.failed = false → s.task? t = some x →
    (∀ (pick : Option (List CoreId)) (cs : List Nat), x.state = .pending → s.isNext x = true → s.loadWaits x.image = false →
      (pick = none ∧ chooseCores (s.offer x) (s.coresWanted x) = some cs)
        ∨ (∃ l, pick = some l ∧ cs = (l.map Fin.val).dedup.mergeSort (fun a b => decide (a ≤ b)) ∧ cs.length = s.coresWanted x ∧ cs.all (s.offer x).contains = true) →
      s.considered x = true → s.resFits x = true → cs.all s.coreOn = true → (∀ c ∈ cs, c < 48) → gSpace x.image.at_ = 1 →
      (s.hmRead (gOff x.image.at_ + x.image.textAt) x.image.text).2.isBad = false →
      (∀ l ∈ x.image.loads, (s.hmRead (gOff x.image.at_ + l.2.2) l.2.1).2.isBad = false) →
      ∃ u : State, exec (.taskPlace t pick []) s = .next u
        ∧ (∀ y ∈ u.tasks, y.num = t → y.state = .loading ∧ y.cores = cs)
        ∧ (∀ c ∈ cs, (u.core c).ibuf = textWords (s.hm.readN (gOff x.image.at_ + x.image.textAt) x.image.text) (x.image.text / 8))
        ∧ (∀ c, c ∉ cs → u.core c = s.core c) ∧ u = { s with cores := u.cores, tasks := u.tasks, freeCtr := u.freeCtr })
    ∧ (x.state = .loading → x.loadBad = false → x.killed = false → x.jobFatal = none →
      (∀ c ∈ x.cores, (s.core c).owed &&& (s.core c).arrays = 0#4 ∧ (s.core c).window = []) → (x.fourMe = true → ∀ c ∈ x.cores, (s.core c).arrays = 15#4) →
      x.cores.Nodup → (∀ c ∈ x.cores, c < 48) →
      ∃ u : State, exec (.taskStart t) s = .next u ∧ (∀ y ∈ u.tasks, y.num = t → y.state = .running)
        ∧ (∀ i c, x.cores[i]? = some c →
          let k := u.core c
          k.state = 1 ∧ k.task = x.num ∧ k.ip = x.image.entry ∧ k.sget 1 = BitVec.ofNat 64 i ∧ k.sget 2 = BitVec.ofNat 64 x.cores.length
            ∧ k.sget 3 = BitVec.ofNat 64 c ∧ k.sget 4 = x.arg ∧ (∀ r, 4 < r → k.sget r = 0) ∧ k.window = [] ∧ k.sp = (s.core c).sp
            ∧ k.ibuf = (s.core c).ibuf ∧ k.lt = k.ltStart ∧ k.finished = false)
        ∧ (∀ c, c ∉ x.cores → u.core c = s.core c))

/-- A pre-emption stops the chosen tasks' cores, each save with its place in the save area; a task whose cores are all at their safe
points is saved core by core and its waits leave the hub, one that is not resumes when the wait is over; a finished save makes the
task pre-empted, counts, and frees its cores; a restored task runs on with its saved registers (R228-R230). -/
def Obligations.TasksArePreemptedAndRestored : Prop :=
  ∀ (t : Nat) (x : Task) (s : State), s.failed = false → s.task? t = some x → (∀ c ∈ x.cores, c < 48) →
    let going := (s.tasks.filter (fun (v : Task) => v.state == .draining || v.state == .saving)).map Task.num
    let line := (x.saveBytes + 255) / 256 * 256
    (∀ (vs : List Nat) (ps : List (Nat × Nat)), s.considered x = true → s.resFits x = true → s.rdb Reg.SCHED_PRE_CTL_PRE_EN = true → s.saveArea.2 ≠ 0 →
      (s.offerWithout x going).length < s.coresWanted x → s.pickVictims x going = some vs →
      s.savePlaces ((s.victims x.cls).filter (fun v => vs.contains v.num)) s.saves = some ps → (s.tasks.map Task.num).Nodup →
      ∃ u : State, exec (.preemptRequest t none) s = .next u
        ∧ (∀ v ∈ ps, ∀ y ∈ u.tasks, y.num = v.1 → y.state = .draining ∧ y.saveAt = v.2)
        ∧ (∀ v ∈ ps, ∀ y, s.task? v.1 = some y → ∀ c ∈ y.cores, c < 48 → (u.core c).draining = true ∧ (u.core c).preRead.all (fun r => r.bound.isSome) = true))
    ∧ (x.state = .draining → (∀ c ∈ x.cores, (s.core c).safePoint = true) → s.waiters = [] →
      (∀ c ∈ x.cores, (s.core c).task = t ∧ ∀ i, ((s.core c).fillerOf i).running = false) →
      ∃ u : State, exec (.preemptSave ⟨t, []⟩) s = .next u
        ∧ (∀ y ∈ u.tasks, y.num = t → y.state = .saving ∧ y.saved = x.cores.map (fun c => (c, (s.core c).forSave))) ∧ (∀ c ∈ x.cores, (u.core c).task = 0))
    ∧ (x.state = .draining → (∃ c ∈ x.cores, (s.core c).safePoint = false) →
      ∃ u : State, exec (.preemptAbandon t) s = .next u ∧ (∀ y ∈ u.tasks, y.num = t → y.state = .running) ∧ (∀ c ∈ x.cores, (u.core c).draining = false)
        ∧ u.rd Reg.SCHED_STAT_ABANDONED = min (s.rd Reg.SCHED_STAT_ABANDONED + 1) (2 ^ Reg.SCHED_STAT_ABANDONED.w - 1))
    ∧ (x.state = .saving → x.killed = false → x.jobFatal = none → s.lmWaits x.saveAt line = false → (∀ c ∈ x.cores, (s.core c).badIn x.image.live = none) →
      (s.freshJunk.2.lmWrite [] 0 1 x.saveAt ((List.range line).map (Config.junkByte s.freshJunk.1))).1.at? = none →
      ∃ u : State, exec (.preemptSaveDone t []) s = .next u ∧ (∀ y ∈ u.tasks, y.num = t → y.state = .preempted)
        ∧ (∀ c ∈ x.cores, (u.core c).state = 3 ∧ (u.core c).window = [])
        ∧ u.rd Reg.SCHED_STAT_PREEMPTIONS = min (s.rd Reg.SCHED_STAT_PREEMPTIONS + 1) (2 ^ Reg.SCHED_STAT_PREEMPTIONS.w - 1))
    ∧ (x.state = .preempted → s.isNext x = true → s.canGo x = true →
      exec (.taskRestore t) s = .next (s.modTask t (fun y => { y with state := .restoring })))
    ∧ (x.state = .restoring → x.killed = false → x.jobFatal = none → s.lmWaits x.saveAt line = false → (s.lmRead [] 0 1 x.saveAt line).2.1.at? = none →
      (∀ p ∈ s.park, p.task ≠ t) → (x.saved.map Prod.fst).Nodup →
      ∃ u : State, exec (.taskRestoreDone t []) s = .next u ∧ (∀ y ∈ u.tasks, y.num = t → y.state = .running ∧ y.saved = [])
        ∧ (∀ k ∈ x.saved, k.1 < 48 → (u.core k.1).state = 1 ∧ (u.core k.1).task = t ∧ (u.core k.1).ip = k.2.ip ∧ (u.core k.1).sreg = k.2.sreg
          ∧ (u.core k.1).lt = k.2.lt ∧ (u.core k.1).window = k.2.window))
    ∧ ((x.state = .saving ∨ x.state = .restoring) → s.lmWaits x.saveAt line = true →
      exec (.preemptSaveDone t []) s = .next s ∧ exec (.taskRestoreDone t []) s = .next s)

/-- A task that is over leaves: its final entry falls due, its cores are free, its hub tumblers return and its number goes; a
clean end counts a residue check, and waits for the operations on its tumblers that the hub has accepted; a task that is not over
stays (R66, R190, R191, R218, R232).

A refill adds one C0 token, at most 16, and a held packet leaves once its tokens are there (R235). -/
def Obligations.TasksEndAndTokensRefill : Prop :=
  (∀ (t : Nat) (x : Task) (s : State), s.task? t = some x → t ≠ 0 →
    let clean := s.allFinished x = true ∧ x.fatal = none ∧ x.jobFatal = none ∧ x.killed = false
    (s.taskOver x = true → (clean → s.tumDue x = false) → ∃ u : State, exec (.taskEnd t) s = .next u ∧ (∀ y ∈ u.tasks, y.num ≠ t) ∧ (∀ y ∈ s.tasks, y.num ≠ t → ∃ z ∈ u.tasks, z.num = y.num)
      ∧ (∀ c, c < 48 → (s.core c).task = t → (u.core c).task = 0) ∧ (∀ a ∈ u.allocs, a.task ≠ t) ∧ (∀ a ∈ s.allocs, a.task ≠ t → a ∈ u.allocs)
      ∧ (s.failed = false → s.qEnabled x.queue = true → x.queue < 64 → x.finalEntryOf ∈ (u.queue x.queue).waiting)
      ∧ (clean → u.rd Reg.TUM_RESIDUE_CHECKED = min (s.rd Reg.TUM_RESIDUE_CHECKED + 1) (2 ^ Reg.TUM_RESIDUE_CHECKED.w - 1)))
    ∧ (clean → s.tumDue x = true → exec (.taskEnd t) s = .next s)
    ∧ (s.taskOver x = false → exec (.taskEnd t) s = .next s))
  ∧ (∀ (s : State), s.failed = false →
    let t := min 16 (s.rd Reg.SCHED_C0_STAT_TOKENS + 1)
    (s.c0Held = [] → exec .c0TokenRefill s = .next (s.wr Reg.SCHED_C0_STAT_TOKENS t))
    ∧ (∀ c k p, s.c0Held = [(c, k, p)] → k ≤ t →
      ∃ u : State, exec .c0TokenRefill s = .next u ∧ u.c0Held = [] ∧ u.held = s.held ++ [{ pkt := p, arrived := none, buf := 0, due := 0, started := false }]
        ∧ u.rd Reg.SCHED_C0_STAT_TOKENS = t - k ∧ u.c0Last = c)
    ∧ (∀ c k p, s.c0Held = [(c, k, p)] → t < k → exec .c0TokenRefill s = .next (s.wr Reg.SCHED_C0_STAT_TOKENS t)))

/-! ## The hub cache, the LPDDR channels and the leaf links (R160-R162, R179, R337-R364) -/

/-- FLUSH marks the lines present and reads 1 until its pass is done, when the dirty ones are back in LM and all of them gone
from the cache; UNPROTECT clears every line's protection (R160, R161, R179).

The scrub reads a line of a channel in service: a clean line changes nothing but the pass count, a corrected word counts
and is logged S1, an uncorrectable one poisons its line and is recorded as latent; a channel that retrains or is repaired is
skipped, and the lines of a failed channel only count (R358, R363, R367).

A refresh is postponed while its channel retrains or is repaired, and the debt is paid when it is back; drift or too many
link corrections take a channel out of service for a retrain or a repair, each counted and recorded S2; a done one returns
it, and the requests that waited for LM come back to the hub; a second failed repair in succession fails the channel (R359-R363). -/
def Obligations.CacheScrubAndChannels : Prop :=
  (∀ (s : State), s.booted = true → s.failed = false → s.cacheSets ≠ 0 →
    exec .cacheFlush s = .next { s.wr Reg.HM_CACHE_CTL_FLUSH 1 with cache := s.cache.map (fun l => { l with flush := true }) }
    ∧ exec .cacheUnprotect s = .next { s.wr Reg.HM_CACHE_CTL_UNPROTECT 1 with cache := s.cache.map (fun l => { l with prot := false }) }
    ∧ exec .cacheUnprotectDone s = .next (s.wr Reg.HM_CACHE_CTL_UNPROTECT 0)
    ∧ (s.rdb Reg.HM_CACHE_CTL_FLUSH = true → ∃ u : State, exec .cacheFlushDone s = .next u ∧ u.rd Reg.HM_CACHE_CTL_FLUSH = 0
      ∧ u.cache = s.cache.filter (fun l => !l.flush)
      ∧ (∀ l, s.cache.filter (fun l => l.flush && l.dirty) = [l] → u.lm = s.lm.writeN (l.line * 256) l.data)
      ∧ (s.cache.filter (fun l => l.flush && l.dirty) = [] → u.lm = s.lm ∧ u.lmPoison = s.lmPoison)
      ∧ u = { s with cache := u.cache, lm := u.lm, lmPoison := u.lmPoison, regs := u.regs }))
  ∧ (∀ (q : Fin 4) (off : Nat) (s : State), s.booted = true → s.failed = false → s.rdb (Reg.LMC_CTL_SCRUB_EN q.val) = true → lmChannel off / 16 = q.val →
    s.lmRange (off / 256 * 256) 256 = true →
    let ch := lmChannel off
    (s.chState ch = 0 → s.cached (off / 256) = none → s.lmPoison.contains (off / 256) = false →
      exec (.scrubLine q off .clean) s = .next (s.scrubCount q.val)
      ∧ (∃ u : State, exec (.scrubLine q off .corrected) s = .next u ∧ u.lm = s.lm ∧ u.lmPoison = s.lmPoison
        ∧ u.rd (Reg.LMC_CH_CORRECTED (ch / 16) (ch % 16)) = min (s.rd (Reg.LMC_CH_CORRECTED (ch / 16) (ch % 16)) + 1) (2 ^ (Reg.LMC_CH_CORRECTED (ch / 16) (ch % 16)).w - 1))
      ∧ (∃ u : State, exec (.scrubLine q off .uncorrectable) s = .next u ∧ off / 256 ∈ u.lmPoison ∧ u.lm = s.lm
        ∧ u.rd (Reg.LMC_ECC_LAST_LATENT q.val) = 1 ∧ u.rd (Reg.LMC_ECC_LAST_VALID q.val) = 1
        ∧ u.rd (Reg.LMC_CH_UNCORR (ch / 16) (ch % 16)) = min (s.rd (Reg.LMC_CH_UNCORR (ch / 16) (ch % 16)) + 1) (2 ^ (Reg.LMC_CH_UNCORR (ch / 16) (ch % 16)).w - 1)))
    ∧ (s.chState ch = 3 → ∀ f, exec (.scrubLine q off f) s = .next (s.scrubCount q.val))
    ∧ (s.chState ch = 1 ∨ s.chState ch = 2 → ∀ f, exec (.scrubLine q off f) s = .next s))
  ∧ (∀ (ch : Fin 64) (s : State),
    let c := ch.val
    let q := c / 16
    let n := c % 16
    let back := Host.Outcome.next (φ := Fault) (ρ := Refusal)
      (((s.wr (Reg.LMC_CH_STATE q n) 0).returnWaiting (fun h => h.pkt.space == spLM)).modChan c (fun x => { x with lastTrain := s.clock, fails := 0, debt := 0 }))
    (∀ bank, (s.chState c = 1 ∨ s.chState c = 2 → exec (.refresh ch bank) s = .next (s.modChan c (fun x => { x with debt := x.debt + 1 })))
      ∧ (s.chState c = 0 ∨ s.chState c = 3 → exec (.refresh ch bank) s = .next (s.modChan c (fun x => { x with debt := 0 }))))
    ∧ (∀ drift corr, s.booted = true → s.chState c = 0 →
      (s.rd (Reg.LMC_CTL_REPAIR_THRESH q) < corr → ∃ u : State, exec (.oscSample ch drift corr) s = .next u ∧ u.chState c = 2
        ∧ u.rd (Reg.LMC_CH_REPAIRS q n) = min (s.rd (Reg.LMC_CH_REPAIRS q n) + 1) (2 ^ (Reg.LMC_CH_REPAIRS q n).w - 1))
      ∧ (corr ≤ s.rd (Reg.LMC_CTL_REPAIR_THRESH q) → s.rd (Reg.LMC_CTL_DRIFT_PS q) ≤ drift →
        ∃ u : State, exec (.oscSample ch drift corr) s = .next u ∧ u.chState c = 1
          ∧ u.rd (Reg.LMC_CH_RETRAINS q n) = min (s.rd (Reg.LMC_CH_RETRAINS q n) + 1) (2 ^ (Reg.LMC_CH_RETRAINS q n).w - 1))
      ∧ (corr ≤ s.rd (Reg.LMC_CTL_REPAIR_THRESH q) → drift < s.rd (Reg.LMC_CTL_DRIFT_PS q) → s.clock < (s.chan c).lastTrain + State.msTicks 10000 →
        exec (.oscSample ch drift corr) s = .next (s.bumpK (Reg.LMC_STAT_LINK_KCORR q) corr)))
    ∧ (s.chState c = 1 → exec (.lmRetrainDone ch true) s = back
      ∧ (∃ u : State, exec (.lmRetrainDone ch false) s = .next u ∧ u.chState c = 2))
    ∧ (s.chState c = 2 → exec (.lmRepairDone ch true) s = back
      ∧ (1 ≤ (s.chan c).fails → ∃ u : State, exec (.lmRepairDone ch false) s = .next u ∧ u.chState c = 3 ∧ (u.chan c).fails = (s.chan c).fails + 1)
      ∧ ((s.chan c).fails = 0 → ∃ u : State, exec (.lmRepairDone ch false) s = .next u ∧ u.chState c = 2 ∧ (u.chan c).fails = 1)))

/-- A flit replay counts, and more than RETRAIN_THRESH of them in 1 ms retrain their module, the threshold taken when the count
begins; a lane test enters the lanes
found failed, leaves each module at the width of the halves that have at most two failed lanes in either direction, and
counts the modules of each width (R342-R344, R353).

A partial reset takes its leaf out of service: the jobs on it take a job-fatal fault, its cores lose their registers and
tumblers, and the leaf counts no module; training of the leaf link moves it on, and at its end the leaf is active and its
domains are on; a partial reset of a withdrawn leaf is dropped with an S0 record (R339, R345-R348, R398).

A GRANT sets the leaf manager's budget, at most 450 W, a REPORT the hub's figures of the leaf; without a GRANT for 50 µs
the budget is 150 W, without a REPORT the hub sets STALE; a leaf that is not active exchanges none (R351, R352). -/
def Obligations.LeafLinksAndLeaves : Prop :=
  (∀ (l : Fin 4) (m : Fin 32) (s : State), s.failed = false →
    let u := (s.leaf l.val).mod m.val
    let before := u.retries.filter (fun t => decide (s.clock < t + State.msTicks 1))
    let recent := s.clock :: before
    let limit := if before = [] then s.rd (Reg.LL_CTL_RETRAIN_THRESH l.val) else s.thresh l.val m.val
    let counted := { s.bumpK (Reg.LL_ERR_RETRIES l.val) 1 with lag := if before = [] then s.lag.del (threshKey l.val m.val) else s.lag }
    (s.leafUp l.val = true → u.disabled = false → u.retraining = false →
      (recent.length ≤ limit → exec (.flitRetry l m) s = .next (counted.modUcie l.val m.val (fun x => { x with retries := recent })))
      ∧ (limit < recent.length → exec (.flitRetry l m) s
          = .next ((counted.bump (Reg.LL_ERR_RETRAINS l.val) 1).modUcie l.val m.val (fun x => { x with retraining := true, retries := [] }))))
    ∧ (∀ t : LaneTest, u.retraining = true → t.clockBad = false → (∀ i, i < 32 → i ≠ m.val → s.width l.val i < 3) →
      ∃ w : State, exec (.ucieRetrainDone l m t) s = .next w ∧ ((w.leaf l.val).mod m.val).retraining = false
        ∧ (∀ x, x < 64 → (x ∈ t.failedTx → x ∈ ((w.leaf l.val).mod m.val).failedTx) ∧ (x ∈ t.failedRx → x ∈ ((w.leaf l.val).mod m.val).failedRx))
        ∧ w.width l.val m.val = ((w.leaf l.val).mod m.val).widthFrom (s.width l.val m.val)
        ∧ w.rd (Reg.LL_STATE_FULL l.val) = ((List.range 32).filter (fun i => w.width l.val i == 0)).length
        ∧ w.rd (Reg.LL_STATE_HALF l.val) = ((List.range 32).filter (fun i => w.width l.val i == 1 || w.width l.val i == 2)).length
        ∧ w.rd (Reg.LL_STATE_RATE_64THS l.val) = 2 * w.rd (Reg.LL_STATE_FULL l.val) + w.rd (Reg.LL_STATE_HALF l.val))
    ∧ (∀ u : Ucie, (u.usable 0 = true → u.usable 1 = true → u.widthFrom 0 = 0) ∧ (u.usable 0 = true → u.usable 1 = false → u.widthFrom 0 = 1)
      ∧ (u.usable 0 = false → u.usable 1 = true → u.widthFrom 0 = 2) ∧ (u.usable 0 = false → u.usable 1 = false → u.widthFrom 0 = 3)))
  ∧ (∀ (l : Fin 4) (s : State), s.failed = false → s.booted = true →
    let resets := fun (i : Instr) => ∃ u : State, exec i s = .next u ∧ u.rd (Reg.LL_CTL_RESET l.val) = 1 ∧ u.rd (Reg.LL_STATE_STATE l.val) = 0
      ∧ u.rd (Reg.LL_STATE_FULL l.val) = 0 ∧ u.rd (Reg.LL_STATE_HALF l.val) = 0 ∧ u.rd (Reg.LL_BUDGET_STALE l.val) = 0
      ∧ (∀ c, c / 12 = l.val → c < 48 → (u.core c).lt = [] ∧ (u.core c).sreg = [] ∧ (u.core c).window = [] ∧ (u.core c).arrays = (s.core c).arrays
        ∧ ((∀ x ∈ s.tasks, x.state ≠ .saving ∧ x.state ≠ .restoring) → (u.core c).task = (s.core c).task))
      ∧ (∀ n, n < 7 → (u.rd Reg.POW_DOMAINS_ON).testBit (7 * l.val + n) = false)
    (s.leafGone l.val = false → s.rdb (Reg.LL_CTL_RESET l.val) = false → resets (.partialReset l) ∧ resets (.leafManagerUncorrectableError l))
    ∧ (s.leafGone l.val = true → exec (.partialReset l) s = .next (s.logS0 Status.ok 0x0801 (Reg.LL_CTL l.val)) ∧ exec (.leafManagerUncorrectableError l) s = .next s)
    ∧ (s.rdb (Reg.LL_CTL_RESET l.val) = true → s.rd (Reg.LL_STATE_STATE l.val) = 0 → s.rd (Reg.LL_STATE_DISAGREE l.val) ≤ 2 →
      ∃ u : State, exec (.leafLinkTrain l [] []) s = .next u ∧ u.rd (Reg.LL_STATE_STATE l.val) = 1 ∧ u.rd (Reg.LL_STATE_FULL l.val) = 32
        ∧ (∀ m, m < 32 → u.width l.val m = 0) ∧ u.rd (Reg.LL_SPARE_REPAIRS l.val) = 0)
    ∧ (s.rdb (Reg.LL_CTL_RESET l.val) = true → s.rd (Reg.LL_STATE_STATE l.val) = 1 →
      ∃ u : State, exec (.partialResetDone l) s = .next u ∧ u.rd (Reg.LL_STATE_STATE l.val) = 2 ∧ u.rd (Reg.LL_CTL_RESET l.val) = 0
        ∧ u.rd (Reg.LL_STATE_DISAGREE l.val) = 0 ∧ (∀ n, n < 7 → (u.rd Reg.POW_DOMAINS_ON).testBit (7 * l.val + n) = true) ∧ u = { s with regs := u.regs }))
  ∧ (∀ (l : Fin 4) (seq watts request draw temp : Nat) (capDrop thermal droop stretched : Bool) (time : Word) (active : BitVec 12) (s : State),
    (s.booted = true → s.failed = false → s.leafUp l.val = true →
      exec (.grant l seq watts capDrop time) s
        = .next (s.modLeaf l.val (fun k => { k with budget := min 450 (watts % 65536), capDrop := capDrop }))
      ∧ (∃ u : State, exec (.report l seq request draw temp thermal droop stretched active) s = .next u
        ∧ u.rd (Reg.LL_BUDGET_REQUEST_W l.val) = request % 2 ^ (Reg.LL_BUDGET_REQUEST_W l.val).w
        ∧ u.rd (Reg.LL_BUDGET_DRAW_W l.val) = draw % 2 ^ (Reg.LL_BUDGET_DRAW_W l.val).w
        ∧ u.rd (Reg.LL_BUDGET_TEMP_C l.val) = temp % 2 ^ (Reg.LL_BUDGET_TEMP_C l.val).w ∧ u.rd (Reg.LL_BUDGET_STALE l.val) = 0
        ∧ u.leaf l.val = { (s.leaf l.val) with active := active, thermal := thermal, droop := droop, stretched := stretched }
        ∧ u = { s with regs := u.regs, leaves := u.leaves })
      ∧ exec (.grantTimeout l) s = .next (s.modLeaf l.val (fun k => { k with budget := 150 }))
      ∧ exec (.reportTimeout l) s = .next (s.wr (Reg.LL_BUDGET_STALE l.val) 1))
    ∧ (s.leafUp l.val = false → exec (.grant l seq watts capDrop time) s = .next s ∧ exec (.grantTimeout l) s = .next s
      ∧ exec (.reportTimeout l) s = .next s ∧ exec (.report l seq request draw temp thermal droop stretched active) s = .next s))

/-! ## Requests and replies of other modules (R95, R277-R282, R311, R418-R425) -/

/-- A request whose PCRC passes is served at its home, here direct HM and hub tumblers of a source that has its row: PUT,
PUT.MC and PUT.SIG land and answer OK, the last after it has added its signal; GET answers the bytes; ATOM, TUM_ADD,
TUM_SET and TUM_READ answer with the old value or the status, an OPID already applied without applying it again; a range
outside HM answers ADDR_RANGE (R94, R277, R278, R280, R419). -/
def Obligations.RequestsAreServedAtTheirHome : Prop :=
  ∀ (p : Packet) (n : Nat) (s : State), s.failed = false → pcrcOk p = true →
    let s0 := (s.takeHub p).notePeer p
    let s1 := { s0 with dedup := s.dedup.map (fun (r : DRow) => if r.src == p.src then { r with last := s.clock } else r) }
    let off := pktOff p
    let bs := putData p
    let row := (s.dedupRow p.src).isSome = true ∧ s.applied? p.src (opidOf p) = none ∧ s.parkedAlready p = false
    let hub := fun (o : Nat) => tumOfOff o = some (.inl n) ∧ (s.hubAlloc n).isSome = true
    let v := leNat ((p.payload.drop 4).take 4)
    let old := s.hubGet n
    (p.space = 1 → bs ≠ [] →
      (s.hmRange off bs.length = true →
        (p.typ.val = PT.put ∨ p.typ.val = PT.putData → exec (.putPacket p) s = .next ((s0.hmStore off bs).ackTo p 0 (chargeOf p)))
        ∧ (p.typ.val = PT.putMc ∨ p.typ.val = PT.putMcData → exec (.putMcPacket p) s = .next ((s0.hmStore off bs).ackTo p 0 (chargeOf p)))
        ∧ (p.typ.val = PT.putSig → row → hub (8 * leNat ((p.payload.drop 6).take 2)) → old.toNat + leNat ((p.payload.drop 4).take 2) < 2 ^ 32 →
          exec (.putSigPacket p) s
            = .next (((((s1.hmStore off bs).hubSet n (BitVec.ofInt 32 (old.toNat + leNat ((p.payload.drop 4).take 2) : Nat))).hubWake n).dedupNote
                p.src (opidOf p) 0 0).ackTo p 0 (chargeOf p))))
      ∧ (s.hmRange off bs.length = false → p.typ.val = PT.put ∨ p.typ.val = PT.putData →
        exec (.putPacket p) s = .next (s0.ackTo p Status.addrRange (chargeOf p))))
    ∧ (let k := leNat (p.payload.take 2)
      p.typ.val = PT.get → p.space = 1 → 0 < k → k ≤ 4096 → s.hmRange off k = true → (s.hmRead off k).2.isBad = false →
        exec (.getPacket p []) s = .next (s0.inject (s.replyTo p (if k ≤ 48 then PT.getResp else PT.getRespData) (s.hm.readN off k))))
    ∧ (let k := leNat ((p.payload.drop 4).take 1)
      let w := if k.testBit 3 then 8 else 4
      let was := leNat (s.hm.readN off w)
      let b := BitVec.ofNat 64 (leNat ((p.payload.drop 8).take 8))
      let x := BitVec.ofNat 64 (leNat ((p.payload.drop 16).take 8))
      p.typ.val = PT.atom → p.space = 1 → row → fld k 0 3 ≠ 7 → off % w = 0 → s.hmRange off w = true → (s.hmRead off w).2.isBad = false →
        exec (.atomPacket p []) s
          = .next (((s1.hmStore off (leBytes w (atomVal (fld k 0 3) (8 * w) was b.toNat x.toNat false))).dedupNote
              p.src (opidOf p) 0 (BitVec.ofNat 64 was)).answerAtom p 0 (BitVec.ofNat 64 was)))
    ∧ (p.space = spTUM → hub off →
      (p.typ.val = PT.tumAdd → row →
        exec (.tumAddPacket p) s
          = .next ((((s1.hubSet n (tumAdd old (sext 32 v)).1).hubWake n).dedupNote p.src (opidOf p) (tumAdd old (sext 32 v)).2 (old.setWidth 64)).ackTo
              p (tumAdd old (sext 32 v)).2 (chargeOf p)))
      ∧ (p.typ.val = PT.tumSet → row →
        exec (.tumSetPacket p) s
          = .next ((((s1.hubSet n (BitVec.ofNat 32 v)).hubWake n).dedupNote p.src (opidOf p) 0 (old.setWidth 64)).ackTo p 0 (chargeOf p)))
      ∧ (p.typ.val = PT.tumRead → s.parkedAlready p = false →
        exec (.tumReadPacket p) s
          = .next (((s0.hubSet n old).hubWake n).inject (s.replyTo p PT.tumResp (leBytes 4 0 ++ leBytes 4 old.toNat)))))
    ∧ (∀ st w, s.applied? p.src (opidOf p) = some (st, w) → p.typ.val = PT.tumAdd → exec (.tumAddPacket p) s = .next (s1.ackTo p st (chargeOf p)))
    ∧ (∀ st w, s.applied? p.src (opidOf p) = some (st, w) → p.typ.val = PT.atom → exec (.atomPacket p []) s = .next (s1.answerAtom p st w))

/-- A reply closes its transaction: the last ACK completes the instruction with its status, GET_RESP lands its bytes in SP,
ATOM_RESP and TUM_RESP write the old value or the count, MC_MISS enters the destinations missed and completes the PUT.MC
with its report once none is left; a reply that answers no transaction is discarded with an S0 record (R95, R277, R279,
R311). -/
def Obligations.RepliesCompleteTheirRequests : Prop :=
  ∀ (p : Packet) (x : Txn) (e : Entry) (s : State), s.failed = false → pcrcOk p = true →
    (s.txnOf p = some x → x.pre = none → (s.core x.core).entry? x.id = some e →
      let st := leNat (p.payload.take 1)
      let shut := (s.takeHub p).closeTxn x.tag
      let ends := fun (i : Instr) (s0 : State) (status : Nat) (f : Core → Core) =>
        ∃ u : State, exec i s = .next u
          ∧ (e.left ≤ 1 → e.bad = 0 → s0.lateCopy x.core x.id = false → ∃ g, (u.core x.core).entry? x.id = some g ∧ g.phase = .done status ∧ g.op = e.op)
          ∧ (1 < e.left → e.phase = .waiting → ∃ g, (u.core x.core).entry? x.id = some g ∧ g.phase = .waiting ∧ g.left = e.left - 1)
          ∧ (u.core x.core).sp = (f (s.core x.core)).sp ∧ (∀ c, c ≠ x.core → u.core c = s.core c)
      (p.typ.val = PT.ack → PT.multicast x.pkt.typ.val = false → ends (.ack p) ((s.takeHub p).closeTxnWin x.tag (leNat ((p.payload.drop 4).take 4))) st (fun k => k))
      ∧ (p.typ.val = PT.ack → PT.multicast x.pkt.typ.val = true → (∃ m ∈ x.mcLeft, m ≠ p.src) → ∃ u : State, exec (.ack p) s = .next u
        ∧ (∃ y ∈ u.txns, y.tag = x.tag ∧ y.mcLeft = x.mcLeft.filter (fun m => m != p.src)) ∧ (u.core x.core).sp = (s.core x.core).sp)
      ∧ (p.typ.val = PT.getResp ∨ p.typ.val = PT.getRespData →
        ends (.getResp p) shut 0 (fun k => (scatter x.dest p.payload).foldl (fun k d => k.spWrite d.1 d.2) k))
      ∧ (∀ ra rb rc rd scope cls w64 aop, p.typ.val = PT.atomResp → e.op = .atom ra rb rc rd scope cls w64 false aop → wasApplied st = true →
        ends (.atomResp p) shut st (fun k => k.spWrite rd.toNat ((p.payload.drop 8).take 8)))
      ∧ (∀ ta rb cls, p.typ.val = PT.tumResp → e.op = .tumReadG ta rb cls → st = 0 →
        ends (.tumResp p) shut 0 (fun k => k.spWrite rb.toNat (leBytes 8 (leNat ((p.payload.drop 4).take 4)))))
      ∧ (let ds := (maskMembers (maskOf ((p.payload.drop 8).take 16))).filter (fun m => x.mcLeft.contains m)
        let left := x.mcLeft.filter (fun m => !ds.contains m)
        let seen := fun (u : State) => ∃ g, (u.core x.core).entry? x.id = some g
          ∧ ∀ m ∈ ds, (Tab.get g.missed 0 (rackBit m)).getLsbD (inRackBit m) = true
        p.typ.val = PT.mcMiss →
          (left ≠ [] → ∃ u : State, exec (.mcMiss p) s = .next u ∧ seen u ∧ (∃ y ∈ u.txns, y.tag = x.tag ∧ y.mcLeft = left) ∧ (u.core x.core).sp = (s.core x.core).sp)
          ∧ (∀ td ra rb rc rd cls hint, left = [] → ds ≠ [] → x.pkt.typ.val ≠ PT.kvUpdate → e.op = .putMc td ra rb rc rd cls hint → e.left ≤ 1 → e.bad = 0 → shut.lateCopy x.core x.id = false →
            ∃ u : State, exec (.mcMiss p) s = .next u ∧ seen u
              ∧ (∃ g, (u.core x.core).entry? x.id = some g ∧ g.phase = .done Status.partialDelivery
                ∧ (u.core x.core).sp = ((s.core x.core).spWrite rd.toNat (missReport g.missed)).sp))))
    ∧ (s.txnOf p = none →
      (p.typ.val = PT.ack → exec (.ack p) s = .next ((s.takeHub p).strayReply p))
      ∧ (p.typ.val = PT.atomResp → exec (.atomResp p) s = .next ((s.takeHub p).strayReply p)))

/-- A hold notice restarts a request's timeouts, and the hub sends one for every request that it holds; 300 µs after its last send
without a notice the packet leaves again with the same identifiers and its data read anew, or, when they have become
uncorrectable, the request ends with ECC_UNCORRECTED; 10 ms without a reply or a notice the instruction completes TARGET_DEAD with
its destination poisoned and every other request of it closed, and a multicast's destinations are missed; a row of the dedup store is
granted when free and freed when idle, a byte count ends at its expiry, and a declared module's entry takes PADLOCK in both banks
(R258, R417-R422, R424-R426). -/
def Obligations.RequestsAreKeptUntilAnswered : Prop :=
  ∀ (tag src sigref m : Nat) (s : State),
    (∃ u : State, exec (.holdNotice tag) s = .next u ∧ u = { s with txns := u.txns, hubIn := u.hubIn }
      ∧ u.txns = s.txns.map (fun (x : Txn) => if x.tag == tag && !x.held && !x.spent then { x with heard := s.clock, last := s.clock } else x))
    ∧ (s.failed = false → ∃ u : State, exec .holdNoticeSend s = .next u ∧ u = { s with held := u.held }
      ∧ u.held = s.held ++ s.heldFor.map (fun h =>
          { pkt := s.ctl PT.notice 1 h.1 0 0 0 (leBytes 10 6 ++ leBytes 2 h.2), arrived := none, buf := 0, due := 0, started := false }))
    ∧ (∀ x, s.failed = false → s.outstanding tag = some x →
      let sent := { s with txns := s.txns.map (fun (y : Txn) => if y.tag == tag then { y with resent := true, last := s.clock } else y) }
      let bad := (s.core x.core).badIn x.source
      (x.last + State.usTicks 300 ≤ s.clock → bad = none → ∃ u : State, exec (.requestResend tag) s = .next u
        ∧ u.held = (sent.sendFree x.core (s.again x)).held ∧ u.c0Held = (sent.sendFree x.core (s.again x)).c0Held ∧ u.txns = sent.txns ∧ u.cores = s.cores
        ∧ (x.pkt.cls.val ≠ 0 → u.held = s.held ++ [{ pkt := s.again x, arrived := none, buf := 0, due := 0, started := false }]))
      ∧ (∀ e, x.last + State.usTicks 300 ≤ s.clock → bad ≠ none → PT.multicast x.pkt.typ.val = false → (s.core x.core).entry? x.id = some e → e.bad = 0 →
        ∃ (u : State) (g : Entry), exec (.requestResend tag) s = .next u ∧ (u.core x.core).entry? x.id = some g
          ∧ g.bad = Status.eccUncorrected)
      ∧ (s.clock < x.last + State.usTicks 300 → exec (.requestResend tag) s = .next s)
      ∧ (∀ e, x.heard + State.msTicks 10 ≤ s.clock → x.pre = none → PT.multicast x.pkt.typ.val = false → (s.core x.core).entry? x.id = some e →
        ∃ u : State, exec (.requestTimeout tag) s = .next u
          ∧ (∃ g, (u.core x.core).entry? x.id = some g ∧ g.phase = .done Status.targetDead ∧ g.op = e.op)
          ∧ (∀ y ∈ u.txns, y.core = x.core → y.id = x.id → y.pre = none → y.spent = true)
          ∧ (u.core x.core).sp = ((s.poison x.core e).core x.core).sp ∧ (∀ c, c ≠ x.core → u.core c = s.core c))
      ∧ (∀ e, x.heard + State.msTicks 10 ≤ s.clock → PT.multicast x.pkt.typ.val = true → (s.core x.core).entry? x.id = some e →
        ∃ (u : State) (g : Entry), exec (.requestTimeout tag) s = .next u ∧ (u.core x.core).entry? x.id = some g
          ∧ ∀ m ∈ x.mcLeft, (Tab.get g.missed 0 (rackBit m)).getLsbD (inRackBit m) = true)
      ∧ (s.clock < x.heard + State.msTicks 10 → exec (.requestTimeout tag) s = .next s))
    ∧ (s.outstanding tag = none → exec (.requestResend tag) s = .next s ∧ exec (.requestTimeout tag) s = .next s)
    ∧ (∀ p, s.failed = false → s.dedupWait = [p] → p.src = src → (s.dedupRow src).isSome = true ∨ s.dedup.length < 512 →
      exec (.dedupRowGrant src) s = .next ({ s with dedupWait := [] }.serveOp p))
    ∧ exec (.dedupRowFree src) s
        = .next { s with dedup := s.dedup.filter (fun (r : DRow) => !(r.src == src && decide (r.last + State.msTicks 20 ≤ s.clock))) }
    ∧ exec (.putSigCountExpiry src sigref) s
        = .next { s with sigs := s.sigs.filter (fun (x : SigCount) => !(x.src == src && x.sigref == sigref && decide (x.last + State.msTicks 20 ≤ s.clock))) }
    ∧ (m < 4096 → s.failed = false → m ∈ s.padDue → ∃ u : State, exec (.padlockSet m) s = .next u ∧ m ∉ u.padDue
      ∧ (u.rd (Reg.RT_ENTRY 0 m)).testBit 2 = true ∧ (u.rd (Reg.RT_ENTRY 1 m)).testBit 2 = true)
    ∧ (m ∉ s.padDue → exec (.padlockSet m) s = .next s)

/-! ## Links (R233, R263-R274, R283-R290, R326) -/

/-- A frame that a framed port sends has 32 slots and takes the next FSEQ, which moves on when the frame is not empty; on a
link with retry it is kept for replay, and a frame asked for again leaves with its own FSEQ; a port that has gone down sends
DOWN with its cause for 10 µs (R266, R268-R271).  A marker on every lane of the mask counts CWC on, and at the second one after
its announcement a new mask applies, on every lane of both; a direction that trains sends a training block on each of its 16
lanes.  A good received marker names its lane and gives the mask, and a second bad one in a row loses the lane (R263-R265).

A frame whose CRC fails, or of which the decoder could not correct a codeword, counts; on a link with retry the port then sends
NAK, and on another the frame is discarded and SYNC_REQ sent.  The next frame by FSEQ is accepted, on a link without retry every one
that passes: it is acknowledged, and its packets reach the router from their headers on; one ahead is dropped and asked for.
Codewords corrected and uncorrectable are counted.  Four passing frames in a row give frame lock (R261, R265-R270, R274). -/
def Obligations.FramesLeaveAndAreAccepted : Prop :=
  (∀ (port : PortId) (s : State),
    let p := port.val
    let t := s.port p
    let n : Word32 := if hasRetry p then 8192 else 4096
    let cal := t.trainBlocks (s.calLanes p) 1
    (t.framed = true → s.lk p ≠ 0 → s.lk p ≠ 5 →
      (t.resend = [] → ∃ (u : State) (f : Frame), exec (.frameTx port) s = .next u ∧ (u.port p).wire = t.wire ++ [f] ∧ f.slots.length = 32
        ∧ f.fseq = t.nextSeq ∧ f.credits.length = 4 ∧ (f.empty = true → f.slots.all flitInEmpty = true)
        ∧ (f.empty = true → (u.port p).nextSeq = t.nextSeq ∧ (u.port p).replay = t.replay)
        ∧ (f.empty = false → (u.port p).nextSeq = (t.nextSeq + 1) % 4096 ∧ (u.port p).replay = if hasRetry p then t.replay ++ [(f, 1)] else t.replay)
        ∧ u.hm = s.hm ∧ u.cores = s.cores ∧ u.held = s.held)
      ∧ (∀ f rest, t.resend = f :: rest → (∀ x ∈ t.replay, x.2 < 7) → ∃ (u : State) (g : Frame), exec (.frameTx port) s = .next u
        ∧ (u.port p).wire = t.wire ++ [g] ∧ g.fseq = f.fseq ∧ g.slots = f.slots ∧ (u.port p).resend = rest)
      ∧ (t.newMask = none ∨ t.markers ≠ 1 → exec (.markerTx port) s = .next (s.modPort p (fun t => { t with
          cwc := t.cwc + n, markers := t.markers - 1, marks := t.marks ++ (alignBlocks (s.txMask p) t.mgen (s.txMask p) (t.cwc + n) ++ cal),
          blocks := t.blocks + 1 })))
      ∧ (∀ m, t.newMask = some m → t.markers = 1 → ∃ u : State, exec (.markerTx port) s = .next u ∧ u.txMask p = m
        ∧ (u.port p).mgen = (t.mgen + 1) % 256 ∧ (u.port p).cwc = t.cwc + n
        ∧ (u.port p).marks = t.marks ++ (alignBlocks (s.txMask p ||| m) ((t.mgen + 1) % 256) m (t.cwc + n) ++ cal))
      ∧ (∀ x : LaneMarker,
        let l := leAt x.bytes 8 1 % 16
        let mask := BitVec.ofNat 16 (leAt x.bytes 10 2)
        let left := (lanes mask).filter (fun k => t.signal.getLsbD k && (t.mLock ||| laneBit l).getLsbD k)
        let k := Tab.get t.laneOf x.phys.val x.phys.val
        (alignGood x.bytes = true → s.lk p = 1 ∨ 8 ≤ left.length → ∃ u : State, exec (.markerRx port [x]) s = .next u
          ∧ (u.port p).mLock = (t.mLock ||| laneBit l) ∧ u.rxMask p = mask ∧ Tab.get (u.port p).laneOf x.phys.val x.phys.val = l)
        ∧ (alignGood x.bytes = false → s.lk p = 1 ∨ 8 ≤ (s.working p).length → Tab.get t.mBad 0 k = 0 →
          exec (.markerRx port [x]) s = .next (s.modPort p (fun t => { t with mBad := t.mBad.put k 1 })))
        ∧ (alignGood x.bytes = false → Tab.get t.mBad 0 k = 1 → (s.rxMask p).getLsbD k = true →
          ∃ u : State, exec (.markerRx port [x]) s = .next u ∧ (u.port p).mLock.getLsbD k = false)))
    ∧ (t.framed = false → s.lk p ≠ 0 → s.lk p ≠ 5 → exec (.markerTx port) s = .next (s.modPort p (fun t => { t with
        marks := t.marks ++ t.trainBlocks (List.range 16) t.stage, blocks := t.blocks + 1 })))
    ∧ (t.framed = false → t.downAt = none → exec (.frameTx port) s = .next s)
    ∧ (∀ c cause, t.framed = false → t.downAt = some (c, cause) → s.clock < c + State.usTicks 10 →
      exec (.frameTx port) s = .next (s.modPort p (fun t => { t with wire := t.wire ++ [linkFrame [.down cause] t.nextSeq] }))))
  ∧ (∀ (port : PortId) (b : List Byte) (corrected uncorr : Nat) (bad : Bool) (s : State),
    let p := port.val
    let t := s.port p
    let f := frameOf b
    let ok := !bad && frameCrcOk b
    let i := Instr.frameRx port ⟨b, corrected, uncorr, bad⟩
    let s0 := (s.bumpK (Reg.LK_FEC_CORR_KCW p) corrected).bump (Reg.LK_FEC_UNCORR_CW p) uncorr
    let last := (match t.replay with | (g, _) :: _ => g.fseq + 4095 | [] => t.nextSeq + 4095) % 4096
    let d := (f.fseq + 4096 - t.expSeq) % 4096
    let fails := min (s.rd (Reg.LK_ERR_CRC_FAILS p) + 1) (2 ^ (Reg.LK_ERR_CRC_FAILS p).w - 1)
    let plain := (hasRetry p = true → f.ack = last ∧ f.nak = false) ∧ ∀ c ∈ f.credits, c.1 = 31
    (s.linkRuns p = true →
      (ok = false → hasRetry p = true → ∃ u : State, exec i s = .next u ∧ (u.port p).nakOut = true
        ∧ u.rd (Reg.LK_ERR_CRC_FAILS p) = fails ∧ (u.port p).expSeq = t.expSeq ∧ u = { s0 with ports := u.ports, regs := u.regs })
      ∧ (ok = false → hasRetry p = false → (t.discards.filter (fun t => decide (s.clock < t + State.msTicks 1))).length < 16 → ∃ u : State, exec i s = .next u
        ∧ .syncReq ∈ (u.port p).linkq ∧ u.rd (Reg.LK_ERR_CRC_FAILS p) = fails ∧ u.lk p = s.lk p
        ∧ u.rd (Reg.LK_ERR_DISCARDS p) = min (s.rd (Reg.LK_ERR_DISCARDS p) + 1) (2 ^ (Reg.LK_ERR_DISCARDS p).w - 1))
      ∧ (ok = true → plain →
        (f.empty = false → hasRetry p = true → d = 0 → (∀ x ∈ f.slots, x = Flit.null) → exec i s
          = .next (s0.modPort p (fun t => { t with expSeq := (t.expSeq + 1) % 4096, ackOut := f.fseq, nakOut := false })))
        ∧ (∀ k, f.empty = false → (hasRetry p = true → d = 0) → f.slots = .head k :: List.replicate 31 .null → s.lk p = 4 → s.headBad p k = none →
          ∃ u : State, exec i s = .next u
            ∧ u = { s0 with
                ports := u.ports, nextBuf := s.nextBuf + 1,
                held := s.held ++ [{ pkt := if PT.isData k.typ.val then { k with payload := [] } else k, arrived := some p, buf := s.nextBuf,
                                     due := if PT.isData k.typ.val then k.len else 0, started := false }] }
            ∧ (hasRetry p = true → (u.port p).ackOut = f.fseq ∧ (u.port p).expSeq = (t.expSeq + 1) % 4096)
            ∧ Tab.get (u.port p).rxCount 0 (pktVc k) = Tab.get t.rxCount 0 (pktVc k) + 1)
        ∧ (f.empty = true → (∀ x ∈ f.slots, x = Flit.null) → exec i s
          = .next (s0.modPort p (fun t => if f.fseq = t.expSeq then { t with nakOut := false } else t)))
        ∧ (f.empty = false → hasRetry p = true → 0 < d → d < 4032 → exec i s = .next (s0.modPort p (fun t => { t with nakOut := true })))
        ∧ (f.empty = false → hasRetry p = true → 4032 ≤ d → exec i s = .next s0)))
    ∧ (s.lk p = 1 → t.framed = true →
      (ok = true → (∀ l ∈ lanes (s.rxMask p), t.mLock.getLsbD l) →
        (3 ≤ t.goodRun → ∃ u : State, exec i s = .next u ∧ u.lk p = 2 ∧ u = { s0 with ports := u.ports, regs := u.regs })
        ∧ (t.goodRun < 3 → exec i s = .next (s0.modPort p (fun t => { t with goodRun := t.goodRun + 1 }))))
      ∧ (ok = false → ∃ u : State, exec i s = .next u ∧ (u.port p).goodRun = 0 ∧ u.lk p = 1 ∧ u.rd (Reg.LK_ERR_CRC_FAILS p) = fails))
    ∧ (t.framed = false ∨ s.lk p = 0 ∨ s.lk p = 5 → exec i s = .next s))

/-- What leaves is read back: a frame whose fields lie in their ranges is the frame that its 2,080 bytes hold, and their CRC
passes; a HEAD flit's 64 bytes give its packet, a data packet's without the payload that follows in BODY flits, and a
link-control flit's bytes the flit; an alignment marker is good and names its lane and mask (R263, R266, R267, R271, R275, R278). -/
def Obligations.WhatLeavesIsReadBack : Prop :=
  let head := fun (p : Packet) => p.hops < 32 ∧ p.dst < 4096 ∧ p.src < 4096 ∧ p.job < 65536 ∧ p.len < 128 ∧ p.tag < 32768 ∧ p.space < 8 ∧ p.count < 64
    ∧ (PT.isData p.typ.val = true → p.payload = [] ∧ p.sigref < 65536 ∧ p.inc < 65536 ∧ p.sigtum < 65536 ∧ p.sigbytes < 2 ^ 32)
    ∧ (PT.isData p.typ.val = false → p.payload.length = p.count ∧ p.count ≤ 48
      ∧ p = { p with pcrc := 0, sigref := 0, sig := false, opid := 0, inc := 0, sigtum := 0, sigbytes := 0, mask := { inRack := 0, racks := 0 }, digest := 0, ccrc := 0 })
  let link := fun (l : LinkFlit) => match l with
    | .heartbeat m q st _ => m < 65536 ∧ q < 256 ∧ st < 256
    | .vcsel vc => vc < 256
    | .abort vc => vc < 256
    | .syncReq => True
    | .sync cs => cs.length = 24 ∧ ∀ c ∈ cs, c < 65536
    | .laneMask _ g => g < 256
    | .laneReq l _ => l < 256
    | .violation c vc n => c < 256 ∧ vc < 256 ∧ n < 65536
    | .down c => c < 256
    | .key m q _ _ _ _ => m < 65536 ∧ q < 256
    | .creditInit cs => cs.length = 24 ∧ ∀ c ∈ cs, c < 65536
    | .reject st m q => st < 256 ∧ m < 65536 ∧ q < 256
    | .reserved t => t < 256 ∧ (t = 0 ∨ (0x0A ≤ t ∧ t ≤ 0x0F) ∨ 0x13 ≤ t)
  let flit := fun (f : Flit) => match f with
    | .null => True
    | .head p => head p
    | .body d => d.length = 64
    | .link l => link l
  (∀ f : Frame, (frameBytes f).length = 2080 ∧ frameCrcOk (frameBytes f) = true)
  ∧ (∀ p, head p → headOf (headBytes p) = p)
  ∧ (∀ l, link l → linkOf (slotBytes (.link l)) = l)
  ∧ (∀ f : Frame, f.slots.length = 32 → (∀ x ∈ f.slots, flit x) → f.fseq < 4096 → f.ack < 4096 → f.credits.length = 4 →
    (∀ c ∈ f.credits, c.1 < 32 ∧ c.2 < 8192) → frameOf (frameBytes f) = f)
  ∧ (∀ (lane g : Nat) (m : BitVec 16) (c : Word32), lane < 16 → g < 256 →
    let b := alignBytes lane g m c
    b.length = 20 ∧ alignGood b = true ∧ leAt b 8 1 = lane ∧ leAt b 9 1 = g ∧ leAt b 10 2 = m.toNat ∧ leAt b 12 4 = c.toNat)

/-- Each link-control flit of an accepted frame has its effect, and none on a port without frame lock: HEARTBEAT gives the
partner's state, VCSEL selects, ABORT drops every copy of its packet, SYNC_REQ is answered with the flits sent, SYNC makes good the lost ones,
LANE_MASK and LANE_REQ announce changes, VIOLATION restarts the clean second, KEY and CREDIT_INIT lead to the clean period or a
wrong neighbour, which is held out of service in STATE 6 with DOWN due, REJECT to the latter (R264, R268, R270-R272, R283, R284). -/
def Obligations.LinkFlitsAct : Prop :=
  ∀ (port : PortId) (m q st vc : Nat) (lane : Fin 16) (mask : BitVec 16) (counts : List Nat) (r a rt mt : Bool) (time key : Word) (s : State),
    let p := port.val
    let t := s.port p
    let held := fun (i : Instr) => ∃ u : State, exec i s = .next u ∧ u.lk p = 6 ∧ (u.port p).matched = false ∧ (u.port p).clean = none ∧ (u.port p).downAt = some (s.clock, 8)
      ∧ u.rd (Reg.LK_DOWN_CAUSE p) = 8 ∧ u.rd (Reg.LK_DOWN_DOWNS p) = min (s.rd (Reg.LK_DOWN_DOWNS p) + 1) (2 ^ (Reg.LK_DOWN_DOWNS p).w - 1)
    let good := m = s.rd (Reg.LK_NBR_EXP_MODULE p) ∧ (s.rdb (Reg.LK_NBR_EXP_ADAPTER p) = true ∨ q = s.rd (Reg.LK_NBR_EXP_PORT p))
      ∧ key.toNat = s.rd Reg.LK_KEY_KEY
    (s.linkRuns p = true →
      (∃ u : State, exec (.heartbeat port m q st time) s = .next u ∧ u = { s with ports := u.ports } ∧ (u.port p).pState = st ∧ (u.port p).lastBeat = s.clock
        ∧ (u.port p).beats = true)
      ∧ (hasRetry p = false ∨ (t.inProgress vc).isSome = true → exec (.vcsel port vc) s = .next (s.modPort p (fun t => { t with rxSel := vc })))
      ∧ (hasRetry p = true → t.inProgress vc = none → ∃ u : State, exec (.vcsel port vc) s = .next u
        ∧ u.rd (Reg.LK_PV_LAST_CODE p) = Status.pvSequence ∧ u.rd (Reg.LK_PV_COUNT p) = min (s.rd (Reg.LK_PV_COUNT p) + 1) (2 ^ (Reg.LK_PV_COUNT p).w - 1))
      ∧ (t.inProgress vc = none → exec (.abort port vc) s = .next s)
      ∧ (∀ r, t.inProgress vc = some r → ∃ u : State, exec (.abort port vc) s = .next u ∧ (∀ h ∈ u.held, h ∈ s.held ∧ ¬ (h.arrived = some p ∧ h.buf = r.id))
        ∧ u = { s with held := u.held, ports := u.ports })
      ∧ exec (.syncReq port) s
          = .next (s.modPort p (fun t => { t with linkq := t.linkq ++ [.sync ((List.range 24).map (fun vc => Tab.get t.sentFl 0 vc % 8192))] }))
      ∧ (∃ u : State, exec (.sync port counts) s = .next u ∧ u = { s with ports := u.ports }
        ∧ ∀ v, v < 24 → Tab.get (u.port p).rxCount 0 v % 8192 = counts.getD v 0 % 8192
          ∧ Tab.get (u.port p).freed 0 v - Tab.get t.freed 0 v = Tab.get (u.port p).rxCount 0 v - Tab.get t.rxCount 0 v)
      ∧ exec (.laneMask port mask vc) s = .next (s.modPort p (fun t => { t with rxNext := some mask }))
      ∧ (let n := maskAfter t.outLanes (s.txMask p) (t.laneReqs ++ [(lane.val, r)])
        (t.newMask.isSome = true → exec (.laneReq port lane r) s = .next (s.modPort p (fun t => { t with laneReqs := t.laneReqs ++ [(lane.val, r)] })))
        ∧ (t.newMask = none → n ≠ s.txMask p → exec (.laneReq port lane r) s
          = .next (s.modPort p (fun t => { t with laneReqs := [], newMask := some n, markers := 0, linkq := t.linkq ++ [.laneMask n ((t.mgen + 1) % 256)] }))))
      ∧ (s.lk p = 3 → exec (.violation port st vc q) s = .next (s.modPort p (fun t => { t with clean := some s.clock })))
      ∧ (s.lk p ≠ 3 → exec (.violation port st vc q) s = .next s)
      ∧ (s.lk p = 2 ∨ s.lk p = 3 →
        (good → ∃ u : State, exec (.key port m q a rt mt key) s = .next u ∧ (u.port p).matched = true ∧ (u.port p).pMatch = mt
          ∧ u.lk p = (if s.lk p = 2 ∧ t.initCr.isEmpty then 2 else 3) ∧ u.rd (Reg.LK_NBR_SEEN_VALID p) = 1)
        ∧ (¬ good → held (.key port m q a rt mt key))
        ∧ (s.lk p = 2 → ∃ u : State, exec (.creditInit port counts) s = .next u ∧ (∀ v, v < 24 → Tab.get (u.port p).avail 0 v = min 4096 (counts.getD v 0))
          ∧ u.lk p = (if t.matched then 3 else 2)))
      ∧ (s.lk p = 2 ∨ s.lk p = 3 → held (.reject port st m q)))
    ∧ (s.linkRuns p = false →
      exec (.heartbeat port m q st time) s = .next s ∧ exec (.vcsel port vc) s = .next s ∧ exec (.abort port vc) s = .next s
      ∧ exec (.syncReq port) s = .next s ∧ exec (.sync port counts) s = .next s ∧ exec (.laneMask port mask vc) s = .next s
      ∧ exec (.laneReq port lane r) s = .next s ∧ exec (.violation port st vc q) s = .next s ∧ exec (.down port st) s = .next s
      ∧ exec (.key port m q a rt mt key) s = .next s ∧ exec (.creditInit port counts) s = .next s ∧ exec (.reject port st m q) s = .next s)

/-- A link goes down with its cause: it is counted, its masks are cleared, its waiting packets return to the router, those it was receiving go, and
bring-up starts where the port may train; a warded port stays held until its 100 ms are over.  Training marks lead to the
framed stream, a timeout restarts training, keying is tried again, and once the clean second is over the link enters service; LK_CTL
holds and releases a port (R255, R264, R265, R283-R286, R288, R290). -/
def Obligations.LinksComeUpAndGoDown : Prop :=
  ∀ (port : PortId) (lane : Fin 16) (s : State),
    let p := port.val
    let t := s.port p
    let downs := fun (i : Instr) (cause : Nat) =>
      (s.lk p = 1 ∨ s.lk p = 2 ∨ s.lk p = 3 ∨ s.lk p = 6 → ∃ u : State, exec i s = .next u ∧ u.rd (Reg.LK_DOWN_CAUSE p) = cause
        ∧ u.rd (Reg.LK_DOWN_DOWNS p) = min (s.rd (Reg.LK_DOWN_DOWNS p) + 1) (2 ^ (Reg.LK_DOWN_DOWNS p).w - 1)
        ∧ u.lk p = (if cause = 7 then 5 else if s.canTrain p then 1 else 0) ∧ u.txMask p = 0 ∧ u.rxMask p = 0
        ∧ u.rd (Reg.LK_NBR_SEEN_VALID p) = 0 ∧ ((∀ r ∈ t.rxProg, r.total ≤ r.got) → u.held = s.held ++ t.txq.map (fun x => x.2.2)) ∧ (u.port p).txq = [] ∧ (u.port p).rxProg = [] ∧ (u.port p).framed = false
        ∧ u.cores = s.cores ∧ u.lm = s.lm)
      ∧ (s.lk p = 4 → ∃ u : State, exec i s = .next u ∧ u.lk p = (if cause = 7 then 5 else if s.canTrain p then 1 else 0)
        ∧ u.rd (Reg.LK_DOWN_CAUSE p) = cause)
    let released := fun (i : Instr) (u : State) => exec i s = .next (u.bringUp p)
    (s.linkRuns p = true → downs (.heartbeatTimeout port) 1 ∧ (∀ cause, downs (.down port cause) 5))
    ∧ (∀ cause, 1 ≤ cause → cause ≤ 9 → downs (.linkDown port cause) cause)
    ∧ (s.booted = true → s.failed = false → downs (.retrain port) 9
      ∧ (s.lk p = 0 → released (.retrain port) s ∧ released (.lkEnableWrite port true) (s.wr (Reg.LK_CTL_ENABLE p) 1))
      ∧ (∃ u : State, exec (.lkEnableWrite port false) s = .next u ∧ u.lk p = 0 ∧ u.rd (Reg.LK_CTL_ENABLE p) = 0))
    ∧ (s.lk p = 5 → released (.wardExpiry port) (s.wr (Reg.LK_STATE_STATE p) 0))
    ∧ (∀ u : State, (u.canTrain p = true → (u.bringUp p).lk p = 1) ∧ (u.canTrain p = false → u.bringUp p = u))
    ∧ (∀ (sync body : List Byte) (ad : Bool), let b := sync ++ body
      s.lk p ≠ 0 → s.lk p ≠ 5 → t.framed = false → leAt b 0 8 = trainSync →
      let l := leAt b 8 1 % 16
      let stage := leAt b 9 1
      let a := if ad then t.adapted ||| laneBit l else t.adapted
      ∃ u : State, exec (.trainingMarkerRx port lane sync body ad) s = .next u ∧ (u.port p).adapted = a ∧ (u.port p).pStage = stage
        ∧ Tab.get (u.port p).laneOf 0 lane.val = l ∧ (u.port p).stage = (if 8 ≤ (lanes a).length then 1 else 0)
        ∧ (u.port p).framed = (decide (8 ≤ (lanes a).length) && decide (stage = 1))
        ∧ (8 ≤ (lanes a).length → stage = 1 → (u.txMask p).toNat = leAt b 10 2 ∧ u.rxMask p = a))
    ∧ (∀ (sync body : List Byte) (ad : Bool), leAt (sync ++ body) 0 8 ≠ trainSync → exec (.trainingMarkerRx port lane sync body ad) s = .next s)
    ∧ (s.lk p = 1 → t.stage = 0 → ∃ u : State, exec (.trainingTimeout port) s = .next u ∧ (u.port p).restarts = t.restarts + 1
      ∧ (u.port p).adapted = 0 ∧ u.lk p = 1)
    ∧ (s.lk p = 1 → 3 ≤ t.restarts → ∃ u : State, exec (.trainingRetry port) s = .next u ∧ (u.port p).restarts = 0 ∧ u.lk p = 1)
    ∧ (s.lk p = 6 → t.framed = true → ∃ u : State, exec (.keyingRepeat port) s = .next u ∧ u.lk p = 2 ∧ (u.port p).matched = false
      ∧ (u.port p).initCr = [] ∧ u = { s with ports := u.ports, regs := u.regs })
    ∧ (s.lk p = 3 → (∃ c, t.clean = some c ∧ c + State.msTicks 1000 ≤ s.clock) → t.pState = 3 ∨ t.pState = 4 → t.pMatch = true → s.padlocked (s.rd (Reg.LK_NBR_EXP_MODULE p)) = false →
      ∃ u : State, exec (.linkEnterService port) s = .next u ∧ u.lk p = 4 ∧ u.compute.isSome = true ∧ u.cores = s.cores)
    ∧ exec (.signalDetect port lane) s = .next (s.modPort p (fun t => { t with signal := t.signal ||| laneBit lane.val }))
    ∧ (∃ u : State, exec (.lossOfSignal port lane) s = .next u ∧ (u.port p).signal.getLsbD lane.val = false ∧ (u.port p).mLock.getLsbD lane.val = false)
    ∧ (s.linkRuns p = true → (s.rxMask p).getLsbD lane.val = true → 9 ≤ (s.working p).length → ∃ u : State, exec (.lossOfSignal port lane) s = .next u
      ∧ (u.port p).linkq = t.linkq ++ [.laneReq lane.val false] ∧ u.lk p = s.lk p)

/-! ## The router, failure detection and faults (R244-R258, R411-R433) -/

/-- A held packet is looked up and leaves: to the hub once it has come whole, to an output port with its header advanced by a hop and
its flits still to come, back with PADLOCKED or, without a route, with ADDR_RANGE, or it stays held; one with 16 hops is dropped
and counted; a multicast packet for this module alone reaches its hub, and one for a module that is padlocked or has no entry is
answered with MC_MISS; a packet whose head has waited 250 µs is dropped (R246, R248, R250, R274, R289, R311, R418). -/
def Obligations.PacketsAreRouted : Prop :=
  ∀ (arrived : Option PortId) (h : Held) (s : State),
    let p := h.pkt
    let h' := { h with started := true }
    let s0 := { s with held := s.held.erase h }
    let hop := s.lookup p.dst p.dt
    let coll := p.typ.val = PT.kvUpdate ∨ p.typ.val = PT.collData ∨ p.typ.val = PT.collCtl
    (s.held.find? (fun (x : Held) => x.pkt == p && x.arrived == arrived.map Fin.val) = some h →
      (h.arrived = none ∨ p.hops < 16 →
        (mcMask p = none →
          (hop = .toHub → h.due = 0 → s.wantsSlot h.whole = false → exec (.packetRoute p arrived) s = .next { s0.freeFlits h with hubIn := s.hubIn ++ [h.whole] })
          ∧ (hop = .toHub → h.due ≠ 0 ∨ s.wantsSlot h.whole = true → exec (.packetRoute p arrived) s = .next { s0 with held := s.held.erase h ++ [h'] })
          ∧ (∀ port det force, hop = .out port det force → isEdge port = false ∨ ¬ coll →
            let q := s.hopHeader p h.arrived (s.route p.dst) port (det || force)
            (∃ u : State, exec (.packetRoute p arrived) s = .next u ∧ u = { s0 with ports := u.ports, regs := u.regs, sub := u.sub }
              ∧ (u.port port).txq = (s.port port).txq ++ [(pktVc q, q, h')]) ∧ q.hops = p.hops + 1 ∧ q.payload = p.payload ∧ q.tag = p.tag ∧ q.dst = p.dst)
          ∧ (∀ port det force, hop = .out port det force → isEdge port = true → coll →
            exec (.packetRoute p arrived) s = .next ((s0.freeFlits h).countDetour det))
          ∧ (hop = .padlock → exec (.packetRoute p arrived) s = .next ((s0.freeFlits h).answerStatus p Status.padlocked))
          ∧ (hop = .invalid → exec (.packetRoute p arrived) s = .next (if isRequest p.typ.val = true then
              ((s0.freeFlits h).bump Reg.RT_STAT_NO_ROUTE 1).answerStatus p Status.addrRange else s0.freeFlits h))
          ∧ (hop = .hold → exec (.packetRoute p arrived) s = .next { s0 with held := s.held.erase h ++ [h'] }))
        ∧ (∀ m d, mcMask p = some m → maskMembers m = [d] →
          (s.lookup d p.dt = .toHub → h.due = 0 →
            exec (.packetRoute p arrived) s = .next { s0.freeFlits h with hubIn := s.hubIn ++ [setMask h.whole (maskFor [d])] })
          ∧ (s.lookup d p.dt = .padlock ∨ s.lookup d p.dt = .invalid → PT.multicast p.typ.val = true → ∃ u : State, exec (.packetRoute p arrived) s = .next u
            ∧ u.hubIn = s.hubIn ∧ u.held = (s0.inject (s.replyTo p PT.mcMiss (leBytes 8 Status.padlocked ++ maskBytes (maskFor [d])))).held)))
      ∧ (h.arrived.isSome = true → 16 ≤ p.hops → ∃ u : State, exec (.packetRoute p arrived) s = .next u ∧ u.held = s.held.erase h ∧ u.hubIn = s.hubIn
        ∧ u.rd Reg.RT_STAT_HOP_DROPS = min (s.rd Reg.RT_STAT_HOP_DROPS + 1) (2 ^ Reg.RT_STAT_HOP_DROPS.w - 1)))
    ∧ (∀ i, s.held[i]? = some h → exec (.routerHeadTimeout i) s = .next ({ s with held := s.held.eraseIdx i }.freeFlits h))
    ∧ (∀ i v q, (s.port 0).txq[i]? = some (v, q, h) →
      exec (.routerHeadTimeout (s.held.length + i)) s = .next ((s.modPort 0 (fun t => { t with txq := t.txq.eraseIdx i })).freeFlits h))

/-- A notice of a link down or up changes the list of links known to be down and starts a table computation, as RECOMPUTE does
for every entry; the flip writes the computed entries to the other bank, makes it active and counts; when it
leaves a module without a route, a task that needs that module 500 µs later, and still has no route to it, ends partitioned (R256, R257,
R259, R429).

A job-fatal notice ends the job's tasks here with its status, counts, and is followed by 1 s in which notices of the job
are ignored; a declaration marks its module dead, records it and starts a computation, one that names this module makes it
leave; a write of FD_REJOIN readmits one module or all (R424-R428, R433). -/
def Obligations.TablesAndDeclarations : Prop :=
  (∀ (m port cause : Nat) (s : State), s.failed = false →
    (∃ u : State, exec (.linkDownNotice m port cause) s = .next u ∧ (m % 4096, port) ∈ u.downLinks ∧ (∀ x ∈ s.downLinks, x ∈ u.downLinks)
      ∧ u.compute.isSome = true ∧ u.cores = s.cores ∧ u.regs = s.regs)
    ∧ (∃ u : State, exec (.linkUpNotice m port) s = .next u ∧ (m % 4096, port) ∉ u.downLinks ∧ u.compute.isSome = true
      ∧ u = { s with hubIn := u.hubIn, downLinks := u.downLinks, compute := u.compute })
    ∧ (s.booted = true → s.compute = none →
      exec .recompute s = .next { s.wr Reg.RT_CTL_RECOMPUTE 1 with compute := some { start := s.clock, all := true } })
    ∧ (∀ c, s.compute = some c → ∃ u : State, exec .tableFlip s = .next u ∧ u.compute = none ∧ u.rd Reg.RT_CTL_RECOMPUTE = 0
      ∧ u.rd Reg.RT_CTL_ACTIVE_BANK = 1 - s.rd Reg.RT_CTL_ACTIVE_BANK ∧ u.lastDown = s.downLinks
      ∧ (∀ p, p ∈ u.routable ↔ p < 20 ∧ s.lk p = 4)
      ∧ u.rd Reg.RT_STAT_REPAIRS = min (s.rd Reg.RT_STAT_REPAIRS + 1) (2 ^ Reg.RT_STAT_REPAIRS.w - 1)
      ∧ (∀ d, d < 4096 → u.rd (Reg.RT_ENTRY (1 - s.rd Reg.RT_CTL_ACTIVE_BANK) d)
        = (if c.all || s.affected d then s.computeEntry d else s.route d) % 2 ^ 64) ∧ u.cores = s.cores ∧ u.held = s.held
      ∧ u.partWait = if s.noRoute.isEmpty = true then s.partWait else s.partWait ++ [(s.clock, s.noRoute)])
    ∧ (s.compute = none → exec .tableFlip s = .next s)
    ∧ ((∀ w ∈ s.partWait, s.clock < w.1 + State.usTicks 500) → exec .partitionTimeout s = .next s)
    ∧ (∀ since ms, s.partWait = [(since, ms)] → since + State.usTicks 500 ≤ s.clock →
      ((∀ t ∈ s.tasks, ∀ n ∈ t.peers, n ∈ ms → n ∉ s.noRoute) → exec .partitionTimeout s = .next { s with partWait := [] })
      ∧ (∀ t ∈ s.tasks, t.state ≠ .ended → t.fatal = none → t.killed = false → t.jobFatal = none → (∃ n ∈ t.peers, n ∈ ms ∧ n ∈ s.noRoute) →
        ∃ u : State, exec .partitionTimeout s = .next u ∧ u.rd Reg.FD_STATE_PARTITION = 1 ∧ u.partWait = []
          ∧ (∃ y ∈ u.tasks, y.num = t.num ∧ y.jobFatal = some Status.partitioned))))
  ∧ (∀ (job status origin cause : Nat) (m : Fin 4096) (s : State), s.failed = false →
    (job < 65536 → job ∉ s.jobIgnore → ∃ u : State, exec (.jobFatalNotice job status origin) s = .next u ∧ job ∈ u.jobIgnore
      ∧ u.rd Reg.FD_STATE_JOB_FATALS = min (s.rd Reg.FD_STATE_JOB_FATALS + 1) (2 ^ Reg.FD_STATE_JOB_FATALS.w - 1)
      ∧ (∀ t ∈ s.tasks, t.job = job → t.fatal = none → t.killed = false → t.jobFatal = none →
        ∃ y ∈ u.tasks, y.num = t.num ∧ y.jobFatal = some (status % 256) ∧ y.abandoned = true))
    ∧ (job < 65536 → job ∈ s.jobIgnore → exec (.jobFatalNotice job status origin) s = .next (s.takeNotice 5))
    ∧ exec (.jobFatalIgnoreExpiry job) s = .next { s with jobIgnore := s.jobIgnore.filter (fun j => j != job % 65536) }
    ∧ (m.val ≠ s.modNum → s.fdDead m.val = false → ∃ u : State, exec (.declaration m.val cause) s = .next u ∧ u.fdDead m.val = true ∧ m.val ∈ u.padDue
      ∧ u.rd Reg.FD_STATE_LAST_DEAD = m.val ∧ u.compute.isSome = true
      ∧ u.rd Reg.FD_STATE_DECLARATIONS = min (s.rd Reg.FD_STATE_DECLARATIONS + 1) (2 ^ Reg.FD_STATE_DECLARATIONS.w - 1))
    ∧ (m.val ≠ s.modNum → s.fdDead m.val = true → exec (.declaration m.val cause) s = .next (s.takeNotice 3))
    ∧ (m.val = s.modNum → s.rdb Reg.SF_LATCH_LEFT = false → s.portsOff = false → ∃ u : State, exec (.declaration m.val cause) s = .next u
      ∧ u.rd Reg.FD_STATE_SELF_DECLARED = 1)
    ∧ (s.booted = true →
      (∃ u : State, exec (.fdRejoinModule m) s = .next u ∧ u.fdDead m.val = false ∧ m.val ∉ u.padDue ∧ u.compute.isSome = true
        ∧ (∀ k, k < 2 → (u.rd (Reg.RT_ENTRY k m.val)).testBit 2 = false)
        ∧ u = { s with regs := u.regs, compute := u.compute, padDue := u.padDue, declSent := u.declSent })
      ∧ (∃ u : State, exec .fdRejoinAll s = .next u ∧ (∀ d, d < 4096 → u.fdDead d = false ∧ ∀ k, k < 2 → (u.rd (Reg.RT_ENTRY k d)).testBit 2 = false)
        ∧ u.padDue = [] ∧ u.compute.isSome = true ∧ u = { s with regs := u.regs, compute := u.compute, padDue := u.padDue, declSent := u.declSent })))

/-- Handling the first fault of the queue writes its record of 64 bytes at TAIL, moves TAIL on, counts SEQ and sets the cause
bit; an S0 record that is not enabled and one that finds the ring full are only counted; an S4 ends the tasks of its job with
its status, and notices of the job are then ignored; a held-back interrupt leaves when its interval is over; a write of
ERR_RING moves and empties the ring (R411, R412, R415, R416, R428, R433).

A module fail-stop ends every task and stops its cores, after boot sends the module's declaration, and happens once; its
fabric ports are then held down (R414). -/
def Obligations.FaultsAndFailStops : Prop :=
  (∀ (f : Fault_) (rest : List Fault_) (v : Word) (s : State),
    (s.faultq = f :: rest → s.faultWait = [] →
      let tail := s.rd Reg.ERR_PTR_TAIL
      (f.sev ≠ 4 ∨ s.failed = true → (f.sev ≠ 0 ∨ s.rd Reg.ERR_CTL_S0_EN ≠ 0) → s.errRingOk = true → s.errFull = false →
        ∃ u : State, exec .faultHandle s = .next u ∧ u.hm = s.hm.writeN (s.errBase + 64 * tail) (f.bytes s.errSeq s.modNum)
          ∧ u.rd Reg.ERR_PTR_TAIL = (tail + 1) % 512 ∧ u.errSeq = s.errSeq + 1 ∧ u.rd Reg.HOST_IRQ_CAUSE_ERR = 1 ∧ u.faultq = rest
          ∧ u = { s with faultq := u.faultq, hm := u.hm, hmBad := u.hmBad, regs := u.regs, hostOut := u.hostOut, errSeq := u.errSeq,
                         lastIrq := u.lastIrq, irqDue := u.irqDue, kvSeqs := u.kvSeqs, kvPages := u.kvPages, freeCtr := u.freeCtr }
          ∧ (s.kvSpoil (s.errBase + 64 * tail) 64 = s → u.kvSeqs = s.kvSeqs ∧ u.kvPages = s.kvPages ∧ u.freeCtr = s.freeCtr))
      ∧ (f.sev = 0 → s.rd Reg.ERR_CTL_S0_EN = 0 → exec .faultHandle s = .next ({ s with faultq := rest }.bump Reg.ERR_STAT_S0_COUNT 1))
      ∧ (1 ≤ f.sev → f.sev ≤ 2 → s.errRingOk = true → s.errFull = true → exec .faultHandle s = .next ({ s with faultq := rest }.bump Reg.ERR_STAT_LOST 1))
      ∧ (f.sev = 4 → s.failed = false → f.job ≠ noJob → ∃ u : State, exec .faultHandle s = .next u ∧ f.job ∈ u.jobIgnore ∧ u.faultq = rest
        ∧ (∀ t ∈ s.tasks, t.job = f.job → t.fatal = none → t.killed = false → t.jobFatal = none →
          ∃ y ∈ u.tasks, y.num = t.num ∧ y.jobFatal = some f.status ∧ y.abandoned = true)))
    ∧ (s.faultq = [] → exec .faultHandle s = .next s)
    ∧ (∀ seq m, (f.bytes seq m).length = 64)
    ∧ (s.irqDue = true → exec .errIrqDeferred s
        = .next { s.raiseVec (s.rd Reg.HOST_IRQ_ERR_VEC) with irqDue := false, lastIrq := some s.clock })
    ∧ (s.irqDue = false → exec .errIrqDeferred s = .next s)
    ∧ (s.booted = true → s.failed = false → ∃ u : State, exec (.errRingWrite v) s = .next u ∧ u.errBase = fld v.toNat 6 22 * 64
      ∧ u.rd Reg.ERR_PTR_TAIL = 0 ∧ u.rd Reg.ERR_PTR_HEAD = 0 ∧ u = { s with regs := u.regs }))
  ∧ (∀ (cause info : Nat) (s : State),
    (s.failed = false → ∃ u : State, exec (.moduleFailStop cause info) s = .next u ∧ u.failed = true
      ∧ (∀ t ∈ s.tasks, ∃ y ∈ u.tasks, y.num = t.num ∧ y.abandoned = true)
      ∧ (∀ c, c < 48 → (s.core c).task ≠ 0 → (∃ t ∈ s.tasks, t.num = (s.core c).task) →
        (u.core c).window = [] ∧ ((u.core c).state = 1 → (u.core c).finished = true))
      ∧ (s.booted = true → s.modNum ∈ u.declSent))
    ∧ (s.failed = true → exec (.moduleFailStop cause info) s = .next s)
    ∧ (s.failed = true → ∃ u : State, exec .failStopPortsDown s = .next u ∧ u.portsOff = true ∧ (∀ p, p < 20 → u.lk p = 0) ∧ u.cores = s.cores)
    ∧ (s.failed = false → exec .failStopPortsDown s = .next s))

/-! ## Optical engines and the service face (R315-R335) -/

/-- A sample sets an emitter's fade to the mean of its last 64 and its level by the thresholds, as the daily check does for a
spare; a swap warms its spare, takes the emitter's lanes out, switches and changes the roles in the registers and in flash
(R322-R324).

A calibration slot takes the next lane out of the mask, or is skipped and counted; a lane not restored in time is counted;
an unlocked ring's lane leaves the mask and is tried again at each slot of its port: a ring that holds is locked and counted, and
after three failed attempts the lane stays out with an S0 record; a removed connector takes both its ports down and to safe power,
and signal on a seated one ends safe power (R319-R321, R326-R328). -/
def Obligations.EmittersLanesAndConnectors : Prop :=
  (∀ (e : Fin 10) (k j : Fin 12) (fade : Nat) (s : State), s.booted = true → s.failed = false →
    let lv := s.rd (Reg.OE_EMIT_LEVEL e.val k.val)
    let xs := (fade :: Tab.get (s.engine e.val).fades [] k.val).take 64
    let level := fun (m : Nat) =>
      let top := if m ≥ 30 then 3 else if m ≥ 20 then 2 else if m ≥ 10 then 1 else 0
      if lv < top then top else if 0 < lv ∧ m + 5 ≤ 10 * lv then lv - 1 else lv
    let st := s.swapState e.val
    let em := s.rd (Reg.OE_STATUS_SWAP_EMITTER e.val)
    let sp := s.rd (Reg.OE_STATUS_SWAP_SPARE e.val)
    (lv ≤ 3 → (s.emitterPort e.val k.val).isSome = true → 12 * e.val + k.val ∉ s.flash.emitOff →
      ∃ u : State, exec (.emitterSample e k fade) s = .next u ∧ u.rd (Reg.OE_EMIT_FADE_DDB e.val k.val) = min 255 (xs.sum / xs.length)
        ∧ Tab.get (u.engine e.val).fades [] k.val = xs ∧ u.rd (Reg.OE_EMIT_LEVEL e.val k.val) = level (min 255 (xs.sum / xs.length)) ∧ u.cores = s.cores)
    ∧ (lv ≤ 3 → s.rd (Reg.OE_EMIT_ROLE e.val k.val) = 0 →
      ∃ u : State, exec (.spareCheck e k fade) s = .next u ∧ u.rd (Reg.OE_EMIT_FADE_DDB e.val k.val) = min 255 fade
        ∧ u.rd (Reg.OE_EMIT_LEVEL e.val k.val) = level (min 255 fade) ∧ u.ports = s.ports ∧ u.cores = s.cores)
    ∧ (st = 0 → (s.emitterPort e.val k.val).isSome = true → lv = 3 ∨ (lv = 2 ∧ s.rdb (Reg.OE_CTL_PLAN_EN e.val) = true) →
      (s.engine e.val).dark.contains k.val = false → s.spareOf e.val k.val = some j.val →
      exec (.swapStart e k) s = .next (((s.wr (Reg.OE_STATUS_SWAP_STATE e.val) 1).wr (Reg.OE_STATUS_SWAP_EMITTER e.val) k.val).wr
        (Reg.OE_STATUS_SWAP_SPARE e.val) j.val))
    ∧ (∀ p, s.emitterPort e.val em = some p →
      (st = 1 → (s.port p).framed = false → exec (.swapWarmDone e) s = .next (s.wr (Reg.OE_STATUS_SWAP_STATE e.val) 3))
      ∧ (st = 1 → (s.port p).framed = true → (s.port p).calLane = none →
        exec (.swapWarmDone e) s = .next ((s.wr (Reg.OE_STATUS_SWAP_STATE e.val) 2).askLanes p ((emitterLanes em).map (fun l => (l, false)))))
      ∧ (st = 3 → ∃ u : State, exec (.swapSwitchDone e) s = .next u ∧ u.rd (Reg.OE_STATUS_SWAP_STATE e.val) = 4 ∧ u = { s with regs := u.regs }
        ∧ (em < 12 → ∀ l ∈ emitterLanes em, (u.rd (Reg.OE_LOCK_LOCKED e.val)).testBit (16 * (p % 2) + l) = true))
      ∧ (st = 5 → em = k.val → sp = j.val → k ≠ j → ∃ u : State, exec (.swapComplete e) s = .next u ∧ u.swapState e.val = 0
        ∧ u.rd (Reg.OE_EMIT_ROLE e.val k.val) = 3 ∧ u.rd (Reg.OE_EMIT_ROLE e.val j.val) = s.rd (Reg.OE_EMIT_ROLE e.val k.val)
        ∧ u.flash.roles = (s.flash.roles.put (12 * e.val + k.val) 3).put (12 * e.val + j.val) (s.rd (Reg.OE_EMIT_ROLE e.val k.val)) ∧ u.ports = s.ports))
    ∧ (st ≠ 1 → exec (.swapWarmDone e) s = .next s) ∧ (st ≠ 3 → exec (.swapSwitchDone e) s = .next s))
  ∧ (∀ (port : PortId) (e : Fin 10) (lane : Fin 16) (held : BitVec 16) (s : State), s.booted = true →
    let p := port.val
    let i := p % 2
    let counted := fun (u : State) (f : Fld) => u.rd f = min (s.rd f + 1) (2 ^ f.w - 1)
    let skips := decide ((lanes (s.txMask p)).length ≤ 8) || (decide (2 ≤ s.swapState (p / 2)) && (s.emitterPort (p / 2) (s.rd (Reg.OE_STATUS_SWAP_EMITTER (p / 2))) == some p))
      || !s.rdb (Reg.OE_CTL_CAL_EN (p / 2))
    let slot := Instr.calSlot ⟨port, held⟩
    let r := s.relock p held
    let l := calNext (r.port p).outLanes (s.rd (Reg.OE_CAL_NEXT_LANE (p / 2) i))
    (s.lk p = 4 → skips = true → exec slot s = .next (r.bump (Reg.OE_CAL_SKIPPED (p / 2) i) 1))
    ∧ (s.lk p = 4 → skips = false → ∃ u : State, exec slot s = .next u ∧ u.rd (Reg.OE_CAL_ACTIVE (p / 2) i) = 1
      ∧ u.rd (Reg.OE_CAL_NEXT_LANE (p / 2) i) = (l + 1) % 16 ∧ (u.port p).calLane = some l ∧ u.faultq = r.faultq)
    ∧ (s.lk p ≠ 4 → exec slot s = .next s)
    ∧ (∀ n, (s.port p).unlocked = [(lane.val, n)] →
      (held.getLsbD lane.val = true → (r.port p).unlocked = [] ∧ (r.rd (Reg.OE_LOCK_LOCKED (p / 2))).testBit (16 * i + lane.val) = true
        ∧ counted r (Reg.OE_LOCK_RELOCKS (p / 2)) ∧ (r.port p).outLanes = (s.port p).outLanes ∧ r.faultq = s.faultq)
      ∧ (held.getLsbD lane.val = false → n < 2 → r = s.modPort p (fun t => { t with unlocked := [(lane.val, n + 1)] }))
      ∧ (held.getLsbD lane.val = false → 2 ≤ n → r = (s.modPort p (fun t => { t with unlocked := [], outLanes := t.outLanes ||| laneBit lane.val })).raise
        { Fault_.blank 0 Status.ok 0x0501 with addr := BitVec.ofNat 64 (p / 2), info0 := BitVec.ofNat 64 lane.val }))
    ∧ (∀ x, (s.port p).calLane = some x → ∃ u : State, exec (.calRestoreTimeout port) s = .next u ∧ (u.port p).calLane = none
      ∧ u.rd (Reg.OE_CAL_ACTIVE (p / 2) i) = 0 ∧ counted u (Reg.OE_CAL_NO_RESTORE (p / 2) i))
    ∧ ((s.port p).calLane = none → exec (.calRestoreTimeout port) s = .next s)
    ∧ (∃ u : State, exec (.ringUnlock port lane) s = .next u ∧ (u.rd (Reg.OE_LOCK_LOCKED (p / 2))).testBit (16 * i + lane.val) = false
      ∧ ((s.port p).outLanes.getLsbD lane.val = false → (u.port p).unlocked.lookup lane.val = some (((s.port p).unlocked.lookup lane.val).getD 0))
      ∧ ((s.port p).outLanes.getLsbD lane.val = true → (u.port p).unlocked = (s.port p).unlocked)
      ∧ (u.port p).outLanes = (s.port p).outLanes)
    ∧ (s.rd (safeFld p) = 1 → (s.engine (p / 2)).seated = true → 8 ≤ (lanes (s.port p).signal).length →
      exec (.safePowerExit port) s = .next ((s.wr (safeFld p) 0).bringUp p))
    ∧ (s.rd (safeFld p) ≠ 1 → exec (.safePowerExit port) s = .next s)
    ∧ ((s.engine e.val).seated = true → ∃ u : State, exec (.connectorRemoved e) s = .next u ∧ (u.engine e.val).seated = false
      ∧ u.rd (Reg.OE_STATUS_SEATED e.val) = 0 ∧ counted u Reg.SF_CONN_REMOVALS
      ∧ (∀ q, q / 2 = e.val → u.rd (safeFld q) = 1 ∧ u.lk q = if s.lk q = 5 then 5 else 0))
    ∧ ((s.engine e.val).seated = false → exec (.connectorRemoved e) s = .next s)
    ∧ (∃ u : State, exec (.connectorSeated e) s = .next u ∧ (u.engine e.val).seated = true ∧ u.rd (Reg.OE_STATUS_SEATED e.val) = 1
      ∧ (u.rd Reg.SF_CONN_SEATED).testBit e.val = true ∧ u = { s with engines := u.engines, regs := u.regs }))

/-- A latch sample makes the values written to the service face act; OPEN follows the hinge angle above 15° and below 10°; 80° or 10 s of OPEN make the module leave, which ends its tasks and
sends its declaration, and its ports are then held down; the light bar is red after a fail-stop and dark
without power (R329, R330, R332, R336). -/
def Obligations.ServiceFaceActs : Prop :=
  ∀ (angle t i : Nat) (s : State), s.powered = true → s.failed = false →
    let leaves := fun (c : Instr) => ∃ u : State, exec c s = .next u ∧ u.rd Reg.SF_LATCH_LEFT = 1
      ∧ (s.booted = true → s.modNum ∈ u.declSent ∧ ∀ x ∈ s.tasks, ∃ y ∈ u.tasks, y.num = x.num ∧ y.abandoned = true)
      ∧ (s.booted = false → u.portsOff = true)
    let reads := fun (u : State) => (∀ f ∈ faceFields, u.act f = s.rd f) ∧ u.rd Reg.SF_LATCH_ANGLE = min 90 angle ∧ u.rd Reg.SF_LATCH_WITHDRAW = if 80 ≤ angle then 1 else 0
    (s.rd Reg.SF_LATCH_OPEN = 0 → 15 < angle → angle < 80 → ∃ u : State, exec (.latchSample angle) s = .next u ∧ reads u ∧ u.rd Reg.SF_LATCH_OPEN = 1
      ∧ u.rd Reg.SF_LATCH_DRAIN = 1 ∧ u.openAt = some s.clock
      ∧ u.rd Reg.SF_LATCH_OPENINGS = min (s.rd Reg.SF_LATCH_OPENINGS + 1) (2 ^ Reg.SF_LATCH_OPENINGS.w - 1) ∧ u.cores = s.cores)
    ∧ (s.rd Reg.SF_LATCH_OPEN = 1 → angle < 10 → ∃ u : State, exec (.latchSample angle) s = .next u ∧ reads u ∧ u.rd Reg.SF_LATCH_OPEN = 0
      ∧ u.rd Reg.SF_LATCH_DRAIN = 0 ∧ u = { s with regs := u.regs, lag := u.lag, openAt := none })
    ∧ (10 ≤ angle → angle ≤ 15 → ∃ u : State, exec (.latchSample angle) s = .next u ∧ reads u ∧ u.rd Reg.SF_LATCH_OPEN = s.rd Reg.SF_LATCH_OPEN
      ∧ u = { s with regs := u.regs, lag := u.lag })
    ∧ (s.rdb Reg.SF_LATCH_LEFT = false → (80 ≤ angle → leaves (.latchSample angle)) ∧ (s.rd Reg.SF_LATCH_OPEN = 1 → leaves .moduleLeave))
    ∧ (s.rd Reg.SF_LATCH_OPEN ≠ 1 → exec .moduleLeave s = .next s)
    ∧ (s.rd Reg.SF_LATCH_LEFT = 1 → ∃ u : State, exec .leavePortsDown s = .next u ∧ u.portsOff = true ∧ (∀ p, p < 20 → u.lk p = 0) ∧ u.cores = s.cores)
    ∧ ({ s with failed := true }.bar t i = (.red, 16) ∧ { s with powered := false }.bar t i = (.off, 16))

/-- A touch on the identify pad of at least 100 ms toggles BEACON while PAD_EN is 1; a shorter one, one with PAD_EN 0 and one
within 500 ms of the last toggle change nothing; the host may write BEACON at any time, and reads what it wrote, which acts from
the next sample on (R331, R336).  The toggle itself is when the
last one was: `padAt`. -/
def Obligations.IdentifyPadTogglesBeacon : Prop :=
  ∀ (ms : Nat) (v : Word) (s : State), s.powered = true →
    (100 ≤ ms → s.act Reg.SF_BEACON_PAD_EN = 1 → (∀ a, s.padAt = some a → a + State.msTicks 500 ≤ s.clock) →
      exec (.padTouch ms) s = .next { (s.wr Reg.SF_BEACON_BEACON (if s.rd Reg.SF_BEACON_BEACON = 1 then 0 else 1)).settle Reg.SF_BEACON_BEACON with padAt := some s.clock })
    ∧ (∀ a, s.padAt = some a → s.clock < a + State.msTicks 500 → exec (.padTouch ms) s = .next s)
    ∧ (ms < 100 ∨ s.act Reg.SF_BEACON_PAD_EN ≠ 1 → exec (.padTouch ms) s = .next s)
    ∧ (s.perst = false → s.booted = true → s.failed = false → ∃ u : State, exec (.registerWrite Reg.SF_BEACON .full v) s = .next u
      ∧ u.rd Reg.SF_BEACON_BEACON = v.toNat % 2 ∧ u.rd Reg.SF_BEACON_PAD_EN = v.toNat / 2 % 2
      ∧ u.act Reg.SF_BEACON_BEACON = s.act Reg.SF_BEACON_BEACON ∧ u.act Reg.SF_BEACON_PAD_EN = s.act Reg.SF_BEACON_PAD_EN ∧ u = { s with regs := u.regs, lag := u.lag })
    ∧ State.msTicks 500 * 8 = 500 * 10000000

/-! ## Power, clocks, heat and rack time (R15, R395-R410) -/

/-- The input's state follows its voltage and limits the cap while low; loss, overvoltage or a broken PRSNT_N switches every
domain off, which keeps flash, fuses and FRU memory; the module starts again from a cold state after the soft start or when the
input is back, and the straps are due to be sampled; a failed converter limits the cap, a lost REFCLK fail-stops (R15, R395-R397, R407). -/
def Obligations.PowerComesAndGoes : Prop :=
  ∀ (v : Nat) (i : Fin 2) (s : State),
    let off := fun (u : State) => u.powered = false ∧ u.cores = State.reset.cores ∧ u.hm = Mem.empty ∧ u.lm = Mem.empty ∧ u.tasks = [] ∧ u.failed = false
      ∧ u.fuses = s.fuses ∧ u.fru = s.fru ∧ u.flash.images = s.flash.images ∧ u.pending = s.pending
    let on := fun (u : State) => u.powered = true ∧ u.strapsDue = true ∧ u.input = 0 ∧ u.charging = false ∧ u.rd Reg.GLB_BOOT_STAGE = 0 ∧ u.cores = State.reset.cores
      ∧ u.failed = false ∧ u.fuses = s.fuses ∧ u.fru = s.fru ∧ u.flash = s.flash
    let reads := fun (u : State) (st : Nat) => u.input = st ∧ u.volt = v ∧ u.rd Reg.POW_INPUT_VOLT_10MV = v
      ∧ u.rd Reg.POW_CAP_LIMITED = if st = 1 ∨ s.rdb Reg.POW_STAT_IBC_FAIL = true then 1 else 0
    (s.powered = true →
      (4500 ≤ v → v < 5000 → ∃ u : State, exec (.inputLow v) s = .next u ∧ reads u 1 ∧ u.cores = s.cores
        ∧ (s.input = 1 → u = { s with input := 1, volt := v, regs := u.regs }))
      ∧ (6400 < v → v ≤ 6600 → ∃ u : State, exec (.inputHigh v) s = .next u ∧ reads u 2 ∧ u.cores = s.cores)
      ∧ (5000 ≤ v → v ≤ 6400 → ∃ u : State, exec (.inputOperating v) s = .next u ∧ reads u 0 ∧ u = { s with input := 0, volt := v, regs := u.regs })
      ∧ (∃ u : State, exec .inputUndervoltage s = .next u ∧ off u ∧ u.input = 3)
      ∧ (∃ u : State, exec .inputOvervoltage s = .next u ∧ off u ∧ u.input = 3 ∧ u.flash = s.flash)
      ∧ (∃ u : State, exec (.ibcFail i) s = .next u ∧ u.rd Reg.POW_STAT_IBC_FAIL = 1 ∧ u.rd Reg.POW_CAP_LIMITED = 1 ∧ u.cores = s.cores)
      ∧ (s.failed = false → ∃ u : State, exec .refclkLoss s = .next u ∧ u.failed = true))
    ∧ (s.powered = false → exec (.inputLow v) s = .next s ∧ exec .inputUndervoltage s = .next s ∧ exec .refclkLoss s = .next s)
    ∧ (∃ u : State, exec .prsntBreak s = .next u ∧ off u ∧ u.prsnt = false ∧ u.flash = s.flash)
    ∧ (s.prsnt = false → exec .prsntMate s = .next { s with prsnt := true, charging := true })
    ∧ (s.prsnt = true → exec .prsntMate s = .next s)
    ∧ (s.charging = true → s.prsnt = true → ∃ u : State, exec .softStartDone s = .next u ∧ on u)
    ∧ (s.powered = false → s.prsnt = true → s.input = 3 → s.charging = false → ∃ u : State, exec .powerRestore s = .next u ∧ on u)
    ∧ (s.prsnt = true → s.powered = false ∨ s.rd Reg.GLB_BOOT_STAGE = 0 → 5000 ≤ v → v ≤ 6400 → ∃ u : State, exec (.powerOn v) s = .next u ∧ on u ∧ u.volt = v
      ∧ u.rd Reg.POW_INPUT_VOLT_10MV = v)

/-- A division writes what is available and grants each leaf its share; no core's clock stands above its ceiling after a clock
adjustment, and the ceiling not above CLK_MAX_MHZ; a droop stretches an island until its release; CAP_W is clamped,
and acts from the next division on (R401-R405, R410).

A core pair that nothing keeps on is switched off and loses its registers, tumblers and scratchpad; an access or a placement
switches it on again, and what waited for it is served; a sensor out of its range is ignored from then on and counted, a sample makes the values written to the block's
registers act; a reading of 115 °C fail-stops the module and switches its leaves off; a read of rack time corrects it (R399, R400, R406-R409). -/
def Obligations.PowerClocksHeatAndTime : Prop :=
  (∀ (l : Fin 4) (otherW q : Nat) (est : List Nat) (c : CoreId) (watts : BitVec 12) (s : State), s.booted = true → s.failed = false → s.powered = true →
    let units := (s.settle Reg.POW_CAP_CAP_W).avail otherW
    let gs := divide ((List.range 4).map s.leafReq) units
    (∃ u : State, exec (.budgetDivide otherW) s = .next u ∧ u.rd Reg.POW_CAP_AVAIL_W = min 4095 (units / wattUnit) ∧ u.capFell = false
      ∧ (s.leafUp l.val = true → u.rd (Reg.LL_BUDGET_GRANT_W l.val) = gs.getD l.val 0 / wattUnit % 2 ^ 10
        ∧ (u.leaf l.val).grantSeq = ((s.leaf l.val).grantSeq + 1) % 256)
      ∧ u.act Reg.POW_CAP_CAP_W = s.rd Reg.POW_CAP_CAP_W
      ∧ u = { s with regs := u.regs, lag := u.lag, sideOut := u.sideOut, leaves := u.leaves, capFell := u.capFell })
    ∧ (s.leafUp l.val = true → s.act Reg.POW_CTL_CLK_MAX_MHZ < 2 ^ 11 → ∃ u : State, exec (.clockAdjust l est) s = .next u
      ∧ (∀ k, k / 12 = l.val → u.rd (Reg.CLK_CORE_MHZ k) ≤ u.rd (Reg.CLK_CORE_CEIL_MHZ k) ∧ u.rd (Reg.CLK_CORE_CEIL_MHZ k) = u.ceiling k
        ∧ u.ceiling k ≤ s.act Reg.POW_CTL_CLK_MAX_MHZ)
      ∧ u = { s with regs := u.regs, steps := u.steps, stretch := u.stretch, heat := u.heat })
    ∧ (s.leafUp l.val = false → exec (.clockAdjust l est) s = .next s)
    ∧ (s.coreOn c.val = true → ∃ u : State, exec (.droop (some c) q) s = .next u ∧ u.rd (Reg.CLK_CORE_STRETCHED c.val) = 1
      ∧ u.rd (Reg.CLK_CORE_STRETCHES c.val) = min (s.rd (Reg.CLK_CORE_STRETCHES c.val) + 1) (2 ^ (Reg.CLK_CORE_STRETCHES c.val).w - 1)
      ∧ Tab.get u.stretch 0 c.val = min 2 q ∧ u = { s with regs := u.regs, stretch := u.stretch })
    ∧ (∃ u : State, exec (.droop none q) s = .next u ∧ u.rd Reg.POW_STAT_DROOPS = min (s.rd Reg.POW_STAT_DROOPS + 1) (2 ^ Reg.POW_STAT_DROOPS.w - 1)
      ∧ Tab.get u.stretch 0 48 = min 1 q)
    ∧ (s.steps.lookup c.val = none → ∃ u : State, exec (.droopRelease (some c)) s = .next u ∧ u.rd (Reg.CLK_CORE_STRETCHED c.val) = 0
      ∧ Tab.get u.stretch 0 c.val = 0 ∧ u = { s with regs := u.regs, stretch := u.stretch })
    ∧ (∃ u : State, exec (.capWrite watts) s = .next u ∧ u.rd Reg.POW_CAP_CAP_W = max 1000 (min 2600 watts.toNat)
      ∧ (max 1000 (min 2600 watts.toNat) < s.rd Reg.POW_CAP_CAP_W → u.capFell = true) ∧ u.act Reg.POW_CAP_CAP_W = s.act Reg.POW_CAP_CAP_W
      ∧ u = { s with regs := u.regs, lag := u.lag, capFell := u.capFell }))
  ∧ (∀ (l : Fin 4) (j : Fin 6) (x : Sensor) (temp offset : Int) (s : State), s.booted = true → s.failed = false →
    let n := 7 * l.val + j.val
    let cs := pairCores l.val j.val
    let r := s.sensor x
    (cs.all s.coreOn = true → cs.all s.coreFree = true → s.act Reg.POW_CTL_CP_KEEP ≠ 1 → cs.any s.poolIn = false → (∀ c ∈ cs, (s.core c).window = []) →
      ∃ u : State, exec (.corePairOff l j) s = .next u ∧ (u.rd Reg.POW_DOMAINS_ON).testBit n = false
        ∧ (∀ c ∈ cs, (u.core c).lt = [] ∧ (u.core c).sreg = [] ∧ (u.core c).arrays = (s.core c).arrays ∧ (u.core c).sp.junk ≠ 0)
        ∧ (∀ c, c ∉ cs → u.core c = s.core c) ∧ u = { s with cores := u.cores, regs := u.regs, freeCtr := s.freeCtr + 1 })
    ∧ (s.act Reg.POW_CTL_CP_KEEP = 1 → exec (.corePairOff l j) s = .next s)
    ∧ (s.leafUp l.val = true → cs.all s.coreOn = false → n ∉ s.pairsOn → exec (.corePairOn l j) s = .next { s with pairsOn := s.pairsOn ++ [n] })
    ∧ (s.leafUp l.val = true → n ∈ s.pairsOn → ∃ u : State, exec (.corePairOnDone l j) s = .next u ∧ (u.rd Reg.POW_DOMAINS_ON).testBit n = true
      ∧ u.pairsOn = s.pairsOn.erase n ∧ u.rd Reg.POW_STAT_CP_SWITCHES = min (s.rd Reg.POW_STAT_CP_SWITCHES + 1) (2 ^ Reg.POW_STAT_CP_SWITCHES.w - 1)
      ∧ (∀ h ∈ s.heldReqs, spCore (unpackOff h.pkt.space h.pkt.offset) ∈ cs → h.pkt ∈ u.hubIn) ∧ u.cores = s.cores)
    ∧ (r.ignored = false → temp < -40 ∨ 150 < temp → ∃ u : State, exec (.thermalSample x temp) s = .next u ∧ (u.sensor x).ignored = true
      ∧ u.rd Reg.THERM_STAT_BAD_SENSORS = min (s.rd Reg.THERM_STAT_BAD_SENSORS + 1) (2 ^ Reg.THERM_STAT_BAD_SENSORS.w - 1) ∧ u.cores = s.cores)
    ∧ (r.ignored = true → exec (.thermalSample x temp) s = .next (powerFields.foldl (fun (u : State) f => u.settle f) s))
    ∧ (r.ignored = false → -40 ≤ temp → temp ≤ 150 → r.same < 99999 →
      (temp < 115 → ∃ u : State, exec (.thermalSample x temp) s = .next u ∧ (u.sensor x).vals = (temp :: r.vals).take 101 ∧ u.failed = false ∧ u.cores = s.cores
        ∧ ∀ f ∈ powerFields, u.act f = s.rd f)
      ∧ (115 ≤ temp → ∃ u : State, exec (.thermalSample x temp) s = .next u ∧ u.failed = true
        ∧ ∀ k, k < 28 → (u.rd Reg.POW_DOMAINS_ON).testBit k = false))
    ∧ (s.isMaster = false → ∃ u : State, exec (.timeSync offset) s = .next u ∧ u.rd Reg.TIME_STAT_OFFSET_PS = (BitVec.ofInt 32 offset).toNat
      ∧ (-1000000 < offset → offset < 1000000 → u.rackSlew = offset.tdiv 800 ∧ u.rackTime = s.rackTime)
      ∧ (1000000 ≤ offset → u.rackTime = s.rackTime + BitVec.ofInt 64 (offset.tdiv 800))
      ∧ (offset ≤ -1000000 → u.rackHold = (offset.tdiv 800).natAbs ∧ u.rackTime = s.rackTime)
      ∧ (offset.natAbs ≤ 5000 → 2 ≤ s.timeGood → u.rd Reg.TIME_STAT_LOCK = 1)
      ∧ u = { s with regs := u.regs, rackTime := u.rackTime, rackHold := u.rackHold, rackSlew := u.rackSlew, timeGood := u.timeGood })
    ∧ (s.isMaster = true → exec (.timeSync offset) s = .next s))

/-! ## Boot, host access, mailboxes and test (R365-R392, R436-R443) -/

/-- The release of PERST_N samples the straps where power has just come on; the ROM boots a slot whose two stages verify and, with memory, domains and channels sound, ends in STAGE 4 with that slot's
failure count cleared; with no stage 1 it enters recovery, with no stage 2 it stays in STAGE 2; 120 s without STAGE 4 end in STAGE
5; a module reset loses all but flash, fuses, FRU memory and straps; a function reset clears the MSI-X table and disables the
queues (R16, R373, R381, R383, R386, R388, R389). -/
def Obligations.ModuleBootsAndResets : Prop :=
  ∀ (f : BootFind) (s : State),
    let taken := fun (u : State) => u.straps = (if s.strapsDue then f.straps else s.straps) ∧ u.strapsDue = false
    let n := s.flash.pref % 2
    let wiped := fun (u : State) => u.cores = State.reset.cores ∧ u.tasks = [] ∧ u.hm = Mem.empty ∧ u.failed = false ∧ u.fuses = s.fuses ∧ u.flash = s.flash
      ∧ u.fru = s.fru ∧ u.straps = s.straps ∧ u.rd Reg.GLB_BOOT_STAGE = 0 ∧ u.powered = s.powered
    (s.powered = true → s.failed = false → s.rd Reg.GLB_BOOT_STAGE = 0 →
      (s.verifies 0 1 = false → s.verifies 1 1 = false → ∃ u : State, exec (.boot [] f) s = .next u ∧ u.rd Reg.GLB_BOOT_STAGE = 6 ∧ taken u)
      ∧ (s.failCount n < 3 → s.verifies n 1 = true → s.verifies n 2 = false → s.verifies (1 - n) 2 = false →
        ∃ u : State, exec (.boot [] f) s = .next u ∧ u.rd Reg.GLB_BOOT_STAGE = 2 ∧ taken u)
      ∧ (s.failCount n < 3 → s.verifies n 1 = true → s.verifies n 2 = true → f.memoryOk = true → f.domainsOk = true → f.channelsFailed = [] → f.leaves = [] →
        (∀ l, l < 4 → s.rd (Reg.LL_STATE_DISAGREE l) ≤ 2) →
        ∃ u : State, exec (.boot [] f) s = .next u ∧ u.rd Reg.GLB_BOOT_STAGE = 4 ∧ u.rd Reg.GLB_BOOT_SLOT = n ∧ u.failCount n = 0 ∧ u.perst = false
          ∧ u.failed = false ∧ u.fuses = s.fuses ∧ (∀ l, l < 4 → u.leafUp l = true) ∧ taken u)
      ∧ (s.failCount n < 3 → s.verifies n 1 = true → s.verifies n 2 = true → f.memoryOk = false →
        ∃ u : State, exec (.boot [] f) s = .next u ∧ u.rd Reg.GLB_BOOT_STAGE = 5 ∧ u.rd Reg.GLB_BOOT_FAIL_CODE = 0x11 ∧ u.failCount n = s.failCount n + 1))
    ∧ (s.powered = false → exec (.boot [] f) s = .next s)
    ∧ (s.powered = true → s.perst = false → s.rd Reg.GLB_BOOT_STAGE < 4 →
      ∃ u : State, exec .bootTimeout s = .next u ∧ u.rd Reg.GLB_BOOT_STAGE = 5 ∧ u.rd Reg.GLB_BOOT_FAIL_CODE = 0x30 ∧ u.portsOff = true)
    ∧ (s.booted = true → exec .bootTimeout s = .next s)
    ∧ (∃ u : State, exec .perstAssert s = .next u ∧ wiped u ∧ u.perst = true)
    ∧ (s.powered = true → (∃ u : State, exec .moduleReset s = .next u ∧ wiped u ∧ u.perst = s.perst)
      ∧ (s.perst = false → ∃ u : State, exec .ctlModuleReset s = .next u ∧ wiped u ∧ u.perst = false)
      ∧ (∃ u : State, exec .functionReset s = .next u ∧ u.rd Reg.MSIX_PBA = 0
        ∧ (∀ v, v < 64 → u.rd (Reg.MSIX_ADDR v) = 0 ∧ u.rd (Reg.MSIX_DATA v) = 0 ∧ u.vecMasked v = true) ∧ (∀ q, q < 64 → u.qEnabled q = false)
        ∧ u.cores = s.cores ∧ u.hm = s.hm))

/-- A cleared mask bit lets a pending message leave; BAR2 reads and writes direct HM once booted, reaches its
first 64 MiB in recovery mode, reads zeros otherwise, and drops
what lies past it with an S0 record; a register write sets an RW field clamped to its range, which acts at once or from its
block's next sample on, drops one of the wrong width or
of an RWL field of a running block with an S0 record and one where no register lies in silence; a watchdog or an exception of a
control core fail-stops the module (R3, R6, R7, R237, R370, R371, R376, R387). -/
def Obligations.HostReachesRegistersAndMemory : Prop :=
  ∀ (v : Fin 64) (off len : Nat) (bs : List Byte) (x : Word) (core : Fin 4) (s : State), s.powered = true →
    let u0 := s.wr (Reg.MSIX_CTRL v.val) (setFld (s.rd (Reg.MSIX_CTRL v.val)) 0 1 0)
    ((s.rd Reg.MSIX_PBA).testBit v.val = false → exec (.msixUnmask v) s = .next u0)
    ∧ ((s.rd Reg.MSIX_PBA).testBit v.val = true → ∃ u : State, exec (.msixUnmask v) s = .next u ∧ (u.rd Reg.MSIX_PBA).testBit v.val = false
      ∧ u.vecMasked v.val = false
      ∧ u.hostOut = s.hostOut ++ [.msix v.val (BitVec.ofNat 64 (s.rd (Reg.MSIX_ADDR v.val))) (BitVec.ofNat 32 (s.rd (Reg.MSIX_DATA v.val)))])
    ∧ (s.booted = true → s.failed = false →
      (off + len ≤ s.directBytes → (s.hmRead off len).2.isBad = false →
        exec (.bar2Access off none len [] []) s = .next { s with hostOut := s.hostOut ++ [.read (s.hm.readN off len) false] })
      ∧ (bs ≠ [] → off + bs.length ≤ s.directBytes → exec (.bar2Access off (some bs) len [] []) s = .next (s.hmStore off bs))
      ∧ (s.directBytes < off + bs.length → exec (.bar2Access off (some bs) len [] []) s = .next (s.logS0 Status.addrRange 0x0A03 off)))
    ∧ (s.rd Reg.GLB_BOOT_STAGE = 6 → s.failed = false → off + len ≤ 0x4000000 → (s.hmRead off len).2.isBad = false →
      exec (.bar2Access off none len [] []) s = .next { s with hostOut := s.hostOut ++ [.read (s.hm.readN off len) false] })
    ∧ (s.rd Reg.GLB_BOOT_STAGE < 4 ∨ s.rd Reg.GLB_BOOT_STAGE = 5 ∨ s.failed = true → exec (.bar2Access off none len [] []) s
        = .next { s with hostOut := s.hostOut ++ [.read (List.replicate len 0) false] }
      ∧ exec (.bar2Access off (some bs) len [] []) s = .next s)
    ∧ (s.perst = false → s.booted = true → s.failed = false →
      exec (.registerWrite Reg.TUM_DL_CTL .full x) s = .next (s.wrLater Reg.TUM_DL_CTL_WINDOW_US (max 10 (min 1000000 (x.toNat % 2 ^ 20))))
      ∧ exec (.registerWrite Reg.TUM_DL_CTL .low x) s = .next (s.wrLater Reg.TUM_DL_CTL_WINDOW_US (max 10 (min 1000000 (x.toNat % 2 ^ 20))))
      ∧ exec (.registerWrite Reg.RT_TRANSIT .full x) s = .next (s.wr Reg.RT_TRANSIT_SHARE_PCT (max 1 (min 100 (x.toNat % 2 ^ 7))))
      ∧ exec (.registerWrite Reg.TUM_DL_CTL .other x) s = .next (s.logS0 Status.ok 0x0801 Reg.TUM_DL_CTL)
      ∧ exec (.registerWrite Reg.LK_KEY .full x) s = .next (s.logS0 Status.ok 0x0801 Reg.LK_KEY)
      ∧ exec (.registerWrite 0x40 .full x) s = .next s)
    ∧ (s.perst = false → s.booted = false → exec (.registerWrite Reg.TUM_DL_CTL .full x) s = .next s)
    ∧ (s.perst = false → s.failed = false →
      (∃ u : State, exec (.watchdogExpiry core) s = .next u ∧ u.failed = true
        ∧ (let slot := if s.rdb Reg.GLB_BOOT_SLOT then 1 else 0; u.failCount slot = s.failCount slot + 1))
      ∧ (∃ u : State, exec (.controlCoreException core) s = .next u ∧ u.failed = true))

/-- A mailbox command that is ready comes to its result: NOP; the configuration and firmware commands, each with what it changes
in flash, fuses or HM and the DETAIL of a refusal; LOG_READ; a completed command's result goes to MBX_RESULT, GO clears and the
interrupt is raised (R377, R378, R380-R385, R392). -/
def Obligations.MailboxCommandsComplete : Prop :=
  ∀ (m : Fin 4) (chk : ImageCheck) (ok : Bool) (s : State),
    let a := fun i => s.mbxArg m.val i
    let ends := fun (u : State) (st d v : Nat) => (u.mbox m.val).result = some (st, d, v % 65536) ∧ (u.mbox m.val).running = true
    let run := fun (i : Instr) (st d v : Nat) (f : State → Prop) => ∃ u : State, exec i s = .next u ∧ ends u st d v ∧ f u
    let b := s.hm.readN (a 0) 1024
    let slot := fld (a 2) 8 1
    let stage := fld (a 2) 0 2
    let le := fun (i n : Nat) => leNat (s.hm.readN (a 0 + i) n)
    let img : FwImage := { magic := BitVec.ofNat 32 (le 0 4), stage := le 4 1, body := le 8 4, svn := le 12 4, build := BitVec.ofNat 64 (le 16 8),
                           keyOk := chk.keyOk, sigOk := chk.sigOk, digest := chk.digest }
    (s.mbxReady m.val 0 = true → run (.mbxNop m) 0 0 0 (fun u => u = { s with mboxes := u.mboxes }))
    ∧ (s.mbxReady m.val 2 = true → a 1 = 1024 → s.mbxHm (a 0) 1024 = true → (s.hmRead (a 0) 1024).2.isBad = false →
      (s.cfgValid b = true → run (.cfgWrite m true) 0 0 0 (fun u => u.flash = { s.flash with cfg0 := b, cfg1 := b } ∧ u.config = s.config))
      ∧ (s.cfgValid b = true → run (.cfgWrite m false) Status.addrRange 4 0 (fun u => u.flash = s.flash))
      ∧ (s.cfgValid b = false → run (.cfgWrite m ok) Status.addrRange 9 0 (fun u => u.flash = s.flash)))
    ∧ (s.mbxReady m.val 3 = true → s.mbxHm (a 0) 1024 = true → s.config ≠ [] →
      run (.cfgRead m) 0 0 (s.cfgNum 12 4) (fun u => u.hm = s.hm.writeN (a 0) s.config))
    ∧ (s.mbxReady m.val 4 = true → stage = 1 ∨ stage = 2 → (s.stage = 6 ∨ slot ≠ s.rd Reg.GLB_BOOT_SLOT) → s.mbxHm (a 0) (a 1) = true → s.hmBad = [] →
      a 1 = 2048 + img.body → img.body ≤ bodyLimit stage →
      (imageShaped img stage = true → img.keyOk = true → img.sigOk = true → s.fuses.counter ≤ img.svn →
        run (.fwWrite m chk true) 0 0 0 (fun u => u.image? slot stage = some img ∧ u.fuses = s.fuses))
      ∧ (img.sigOk = false → run (.fwWrite m chk ok) Status.addrRange 2 0 (fun u => u.flash = s.flash)))
    ∧ (s.mbxReady m.val 4 = true → stage = 1 ∨ stage = 2 → s.stage = 4 → slot = s.rd Reg.GLB_BOOT_SLOT →
      run (.fwWrite m chk ok) Status.addrRange 7 0 (fun u => u.flash = s.flash))
    ∧ (s.mbxReady m.val 5 = true → run (.fwSelect m true) 0 0 0 (fun u => u.flash.pref = fld (a 0) 0 1 ∧ u.failCount (fld (a 0) 0 1) = 0
      ∧ u.flash.images = s.flash.images))
    ∧ (s.mbxReady m.val 6 = true → ∀ x y, s.image? (s.rd Reg.GLB_BOOT_SLOT) 1 = some x → s.image? (s.rd Reg.GLB_BOOT_SLOT) 2 = some y →
      run (.fwCommit m true) 0 0 0 (fun u => u.fuses.counter = max s.fuses.counter (min 64 (min x.svn y.svn)) ∧ u.fuses.keyHash = s.fuses.keyHash ∧ u.flash = s.flash))
    ∧ (s.mbxReady m.val 7 = true → s.mbxHm (a 0) 396 = true → run (.logRead m) 0 0 396 (fun u => u.hm = s.hm.writeN (a 0) s.measLog))
    ∧ (∀ st d v, s.powered = true → s.perst = false → s.failed = false → s.mbxGo m.val = true → (s.mbox m.val).result = some (st, d, v) →
      ∃ u : State, exec (.mailboxComplete m) s = .next u ∧ u.rd (Reg.MBX_RESULT_STATUS m.val) = st % 2 ^ (Reg.MBX_RESULT_STATUS m.val).w
        ∧ u.rd (Reg.MBX_RESULT_DETAIL m.val) = d % 2 ^ (Reg.MBX_RESULT_DETAIL m.val).w ∧ u.rd (Reg.MBX_RESULT_DONE m.val) = 1
        ∧ u.rd (Reg.MBX_RESULT_VALUE m.val) = v % 2 ^ (Reg.MBX_RESULT_VALUE m.val).w ∧ u.mbxGo m.val = false ∧ (u.mbox m.val).result = none
        ∧ u.cores = s.cores ∧ u.hm = s.hm)

/-- A test command starts when its mailbox is ready and test access is open, and its second arrival writes what was found: the
LPDDR sweep and the UCIe margin by slices, ATB_MEASURE, the eye scan and the optical loopback (R365, R366, R436, R439-R443).

A TAP instruction is loaded while TEST_MODE_N is low and answers its data register; a high pad returns every TAP to
Test-Logic-Reset, a low one ends the test commands that run (R437, R438). -/
def Obligations.TestCommandsAndTaps : Prop :=
  (∀ (m : Fin 4) (pins : List (List Byte)) (res : List Byte) (codes : List Nat) (value : BitVec 16) (errors : Nat) (s : State), s.testLow = false →
    let a := fun i => s.mbxArg m.val i
    let open_ := s.rdb Reg.TEST_CTL_FIELD_EN = true
    let starts := fun (i : Instr) (f : State → Prop) => ∃ u : State, exec i s = .next u ∧ (u.mbox m.val).running = true
      ∧ (u.mbox m.val).result = (s.mbox m.val).result ∧ u.cores = s.cores ∧ u.hm = s.hm ∧ f u
    let ends := fun (i : Instr) (v : Nat) (f : State → Prop) => ∃ u : State, exec i s = .next u ∧ (u.mbox m.val).result = some (0, 0, v % 65536)
      ∧ u.cores = s.cores ∧ f u
    let ch := s.lmCh m.val
    let p := s.eyePort m.val
    let q := s.loopPort m.val
    let l := s.umLeaf m.val
    let k := s.umMod m.val
    (s.mbxReady m.val 1 = true → s.lmKind m.val ≤ 2 → ch ≤ 63 → s.resultOk (a 3) (16 + 64 * marginPins (s.lmKind m.val)) = true → s.chState ch ≠ 3 →
      (s.chan ch).margining = none → starts (.lmMargin m) (fun u => (u.chan ch).margining = some m.val))
    ∧ (s.mbxRuns m.val 1 = true → s.chState ch = 0 →
      ends (.marginSlice m true pins) 0 (fun u => u.hm = s.hm.writeN (a 3) (s.marginResult m.val pins) ∧ (ch ≤ 63 → (u.chan ch).margining = none)))
    ∧ (s.mbxReady m.val 0x10 = true → open_ → atbNode (s.atbDie m.val) (s.atbNum m.val) = true → s.atbLeafBad (s.atbDie m.val) = false →
      starts (.atbMeasure m codes value) (fun u => u = { s with mboxes := u.mboxes }))
    ∧ (s.mbxRuns m.val 0x10 = true → s.atbLeafBad (s.atbDie m.val) = false → codes.length = s.atbCount m.val → (∀ c ∈ codes, c ≤ 4095) →
      let v := if atbDiode (s.atbDie m.val) (s.atbNum m.val) then value.toNat else codeMv codes
      ends (.atbMeasure m codes value) v (fun u => u.rd Reg.TEST_ATB_LAST_CODE = meanCode codes % 2 ^ Reg.TEST_ATB_LAST_CODE.w
        ∧ u.rd Reg.TEST_ATB_LAST_VALID = 1 ∧ u.rd Reg.TEST_STAT_ATB_MEAS = min (s.rd Reg.TEST_STAT_ATB_MEAS + 1) (2 ^ Reg.TEST_STAT_ATB_MEAS.w - 1)))
    ∧ (s.mbxReady m.val 0x11 = true → open_ → s.resultOk (a 1) 400 = true → p < 20 → s.lk p = 3 ∨ s.lk p = 4 → s.targetBusy m.val (s.testsPort p) = false →
      (s.rxMask p).getLsbD (s.eyeLane m.val) = true → starts (.serdesEye m res) (fun u => (u.port p).eye = some m.val))
    ∧ (s.mbxRuns m.val 0x11 = true → p < 20 → (s.port p).eye = some m.val → (s.rxMask p).getLsbD (s.eyeLane m.val) = true →
      ends (.serdesEye m res) 0 (fun u => u.hm = s.hm.writeN (a 1) (s.eyeHeader m.val ++ padTo 384 res) ∧ (u.port p).eye = none))
    ∧ (s.mbxReady m.val 0x12 = true → open_ → s.resultOk (a 1) 288 = true → s.leafUp l = true → (s.umUcie m.val).disabled = false →
      s.targetBusy m.val (fun k => s.mbxOpc k == 0x12 && s.umLeaf k == l && s.umMod k == s.umMod m.val) = false → starts (.ucieMargin m) (fun u => ((u.leaf l).mod k).margin = some m.val))
    ∧ (s.mbxRuns m.val 0x12 = true → (s.umUcie m.val).margin = some m.val → (s.umUcie m.val).disabled = false → s.leafUp l = true →
      (s.umUcie m.val).retraining = false →
      ends (.ucieMarginSlice m true res) 0 (fun u => u.hm = s.hm.writeN (a 1) (s.ucieResult m.val res) ∧ ((u.leaf l).mod k).margin = none))
    ∧ (s.mbxReady m.val 0x13 = true → open_ → s.loopEngine m.val < 10 → s.targetBusy m.val (s.testsPort q) = false → s.lk q = 0 → s.loopLocked m.val = true →
      starts (.optLoopback m errors) (fun u => (u.port q).loop = true))
    ∧ (s.mbxRuns m.val 0x13 = true → s.loopEngine m.val < 10 → ends (.optLoopback m errors) (min errors 65535) (fun u => (u.port q).loop = false ∧ u.hm = s.hm))
    ∧ (s.mbxReady m.val 0x11 = true → s.rdb Reg.TEST_CTL_FIELD_EN = false → ∃ u : State, exec (.serdesEye m res) s = .next u
      ∧ (u.mbox m.val).result = some (Status.addrRange, detailAccess, 0) ∧ u.hm = s.hm))
  ∧ (∀ (die : Fin 5) (bits : List Bool) (opcode : Byte) (s : State), s.powered = true →
    let loads := fun (i : Instr) (ir : Nat) (bnd : List Bool) (driven hiz : Bool) (out : List SideMsg) =>
      exec i s = .next { s.modTap die.val (fun _ => { ir := ir, boundary := bnd, driven := driven, hiz := hiz }) with sideOut := s.sideOut ++ out }
    let own := (s.tap die.val).boundary
    (s.testLow = true →
      loads (.idcode die) 1 own false false [.tap die.val ((List.range 32).map (fun i => (idcode die.val).testBit i))]
      ∧ loads (.samplePreload die bits) 2 bits false false [] ∧ loads (.extest die bits) 3 bits true false []
      ∧ loads (.clamp die) 4 own true false [.tap die.val [false]] ∧ loads (.highz die) 5 own false true [.tap die.val [false]]
      ∧ loads (.ijtag die) 0x10 own false false [] ∧ (tapOpcode opcode.toNat = false → loads (.bypass die opcode) 0xFF own false false [.tap die.val [false]]))
    ∧ (s.testLow = false → exec (.idcode die) s = .next s ∧ exec (.extest die bits) s = .next s ∧ exec (.bypass die opcode) s = .next s)
    ∧ exec (.testModeNChange false) s = .next { s with testLow := false, taps := Vector.replicate 5 Tap.reset }
    ∧ ((∀ m o, m < 4 → s.mbxRuns m o = false) → exec (.testModeNChange true) s = .next { s with testLow := true })
    ∧ (∀ m, m < 4 → s.mbxRuns m 0x10 = true → ∃ u : State, exec (.testModeNChange true) s = .next u ∧ u.testLow = true
      ∧ (u.mbox m).result = some (Status.addrRange, detailAccess, 0)))

/-- The I3C target takes and drops its dynamic address, answers its identity while it has one, enables, disables and retries its
in-band interrupts, answers the register that the index selects, and toggles BEACON; FRU memory is read with or without the 60 V
input, and hold the FRU data with SY7-M60 and B0 where the layout that the model takes (assumption 84) puts them (R17, R331, R374, R375).

Discovery names the two object types; GET_VERSION starts a connection, GET_CAPABILITIES fixes its version, NEGOTIATE_ALGORITHMS
its algorithms, and then digests, certificate, challenge and measurements are answered; a request out of its turn or of another
version is answered with an error that changes nothing (R368, R391, R392). -/
def Obligations.ManagementAndSpdmAnswer : Prop :=
  (∀ (addr : BitVec 7) (index : Byte) (off : Fin 8192) (s : State),
    let tells := fun (b : List Byte) => Host.Outcome.next (φ := Fault) (ρ := Refusal) { s with sideOut := s.sideOut ++ [.i3c b] }
    exec (.fruRead off) s = .next { s with sideOut := s.sideOut ++ [.fru (s.fruByte off.val)] }
    ∧ (s.powered = true →
      (s.i3cAddr = none →
        exec (.entdaa addr) s = .next { s with i3cAddr := some addr, sideOut := s.sideOut ++ [.i3c (i3cPidBytes ++ [Config.i3cBcr, Config.i3cDcr])] }
        ∧ exec (.setdasa addr) s = .next { s with i3cAddr := some addr } ∧ exec .getpid s = .next s)
      ∧ (s.i3cAddr.isSome = true → exec .getpid s = tells i3cPidBytes ∧ exec .getbcr s = tells [Config.i3cBcr] ∧ exec .getdcr s = tells [Config.i3cDcr]
        ∧ exec (.entdaa addr) s = .next s ∧ exec (.setdasa addr) s = .next s
        ∧ (∃ (u : State) (b : List Byte), exec .getstatus s = .next u ∧ b.length = 2
          ∧ u = { s with sideOut := s.sideOut ++ [.i3c b], freeCtr := s.freeCtr + 1 }))
      ∧ exec .rstdaa s = .next { s with i3cAddr := none }
      ∧ exec .enec s = .next { s with ibiOn := true } ∧ exec .disec s = .next { s with ibiOn := false, ibis := [] }
      ∧ exec (.i3cIndexWrite index) s = .next { s with i3cIndex := index, sideOut := s.sideOut ++ [.i3c (s.mgmtReg index.toNat)] }
      ∧ exec .beaconToggle s = .next { s.wrLater Reg.SF_BEACON_BEACON (if s.rd Reg.SF_BEACON_BEACON = 1 then 0 else 1) with padAt := some s.clock })
    ∧ (∀ b rest, s.ibis = b :: rest → exec (.ibiRetry true) s = .next { s with ibis := rest }
      ∧ exec (.ibiRetry false) s = .next { s with sideOut := s.sideOut ++ [.ibi b] })
    ∧ (s.ibis = [] → ∀ acc, exec (.ibiRetry acc) s = .next s)
    ∧ (∀ i, (s.mgmtReg i).length = 8) ∧ s.mgmtReg 8 = leBytes 8 (s.regVal Reg.MOD_POSITION) ∧ s.mgmtReg 0x28 = leBytes 8 0
    ∧ (let f := (List.range fruData.length).map s.fruByte
      ∃ a b c d : List Byte, f = a ++ [0xC7#8] ++ [0x53#8, 0x59#8, 0x37#8, 0x2D#8, 0x4D#8, 0x36#8, 0x30#8] ++ b ∧ f = c ++ [0xC2#8] ++ [0x42#8, 0x30#8] ++ d))
  ∧ (∀ (v op slot : Byte) (asym hash : Word32) (nonce : BitVec 256) (off len : Nat) (s : State), s.booted = true → s.failed = false → s.powered = true →
    let fails := fun (code : Nat) => Host.Outcome.next (φ := Fault) (ρ := Refusal) { s with sideOut := s.sideOut ++ [.spdm (spdmError code)] }
    let answers := fun (i : Instr) => ∃ (u : State) (req resp : List Byte), exec i s = .next u ∧ u.sideOut = s.sideOut ++ [.spdm resp]
      ∧ u.spdmLog = s.spdmLog ++ req ++ resp ∧ u = { s with sideOut := u.sideOut, spdmLog := u.spdmLog, freeCtr := u.freeCtr }
    (s.perst = false →
      exec (.doeDiscovery 0) s = .next { s with sideOut := s.sideOut ++ [.doe [1#8, 0#8, 0#8, 1#8]] }
      ∧ exec (.doeDiscovery 1) s = .next { s with sideOut := s.sideOut ++ [.doe [1#8, 0#8, 1#8, 0#8]] })
    ∧ (∃ u : State, exec .getVersion s = .next u ∧ u.spdmVer = none ∧ u.spdmAlgs = false
      ∧ u.sideOut = s.sideOut ++ [.spdm (Config.spdmMsg 0x04 [0x12#8, 0x13#8])])
    ∧ (s.spdmLog ≠ [] → s.spdmVer = none → v = 0x12#8 ∨ v = 0x13#8 → ∃ u : State, exec (.getCapabilities v) s = .next u ∧ u.spdmVer = some v
      ∧ u.sideOut = s.sideOut ++ [.spdm (Config.spdmMsg 0x61 (v :: leBytes 4 spdmCaps))] ∧ u = { s with spdmVer := some v, sideOut := u.sideOut, spdmLog := u.spdmLog })
    ∧ (s.spdmVer.isSome = true → exec (.getCapabilities v) s = fails spdmUnexpected)
    ∧ (s.spdmLog ≠ [] → s.spdmVer = none → v ≠ 0x12#8 → v ≠ 0x13#8 → exec (.getCapabilities v) s = fails spdmVersionBad)
    ∧ (s.spdmVer = some v → s.spdmAlgs = false → asym.toNat &&& spdmAsym ≠ 0 → hash.toNat &&& spdmHash ≠ 0 →
      ∃ u : State, exec (.negotiateAlgorithms v asym hash) s = .next u ∧ u.spdmAlgs = true
        ∧ u = { s with spdmAlgs := true, sideOut := u.sideOut, spdmLog := u.spdmLog })
    ∧ (s.spdmAlgs = true → s.spdmVer = some v →
      answers (.getDigests v) ∧ (off < s.flash.cert.length → answers (.getCertificate v 0 off len)) ∧ answers (.challenge v 0 nonce)
      ∧ (op.toNat ≤ 6 ∨ op.toNat = 0xFF → answers (.getMeasurements v op nonce false) ∧ answers (.getMeasurements v op nonce true))
      ∧ (slot ≠ 0 → exec (.challenge v slot nonce) s = fails spdmInvalid))
    ∧ (s.spdmAlgs = false → exec (.getDigests v) s = fails spdmUnexpected ∧ exec (.challenge v 0 nonce) s = fails spdmUnexpected
      ∧ exec (.getCertificate v 0 off len) s = fails spdmUnexpected ∧ exec (.getMeasurements v op nonce true) s = fails spdmUnexpected))
end

