-- ==== Sys2Proof/Laws/Memory.lean ====
section
/-! SUPPORT. Laws of tables and memories: reads after writes, and the canonical form under every operation. -/

namespace Sys2Proof.Machine

/-! ### Tables -/

theorem Tab.get_put_same {α : Type} (t : Tab α) (d v : α) (k : Nat) : Tab.get (t.put k v) d k = v := by
  induction t with
  | nil => simp [Tab.put, Tab.get]
  | cons p r ih =>
    obtain ⟨a, b⟩ := p
    simp only [Tab.put]
    split
    · simp [Tab.get]
    · split
      · simp [Tab.get, List.lookup]
      · rename_i h1 h2
        have : (k == a) = false := by simpa using h2
        simpa [Tab.get, List.lookup, this] using ih

theorem Tab.get_put_other {α : Type} (t : Tab α) (d v : α) (k j : Nat) (h : j ≠ k) :
    Tab.get (t.put k v) d j = Tab.get t d j := by
  have hj : (j == k) = false := by simpa using h
  induction t with
  | nil => simp [Tab.put, Tab.get, List.lookup, hj]
  | cons p r ih =>
    obtain ⟨a, b⟩ := p
    simp only [Tab.put]
    split
    · simp [Tab.get, List.lookup, hj]
    · split
      · rename_i h2
        subst h2
        simp [Tab.get, List.lookup, hj]
      · simp only [Tab.get, List.lookup] at ih ⊢
        cases hja : (j == a) <;> simp [ih]

theorem Tab.get_del_same {α : Type} (t : Tab α) (d : α) (k : Nat) : Tab.get (t.del k) d k = d := by
  induction t with
  | nil => rfl
  | cons p r ih =>
    obtain ⟨a, b⟩ := p
    unfold Tab.del at ih ⊢
    by_cases h : a = k
    · rw [List.filter_cons_of_neg (by simp [h])]
      exact ih
    · rw [List.filter_cons_of_pos (by simp [h])]
      have : (k == a) = false := by simpa using fun e => h e.symm
      simpa [Tab.get, List.lookup, this] using ih

theorem Tab.get_del_other {α : Type} (t : Tab α) (d : α) (k j : Nat) (h : j ≠ k) : Tab.get (t.del k) d j = Tab.get t d j := by
  induction t with
  | nil => rfl
  | cons p r ih =>
    obtain ⟨a, b⟩ := p
    unfold Tab.del at ih ⊢
    by_cases ha : a = k
    · have : (j == a) = false := by simpa [ha] using h
      rw [List.filter_cons_of_neg (by simp [ha]), ih]
      simp [Tab.get, List.lookup, this]
    · rw [List.filter_cons_of_pos (by simp [ha])]
      simp only [Tab.get, List.lookup] at ih ⊢
      cases hja : (j == a)
      · exact ih
      · rfl

@[simp] theorem Tab.get_set_same {α : Type} [DecidableEq α] (t : Tab α) (d v : α) (k : Nat) : Tab.get (t.set d k v) d k = v := by
  unfold Tab.set
  split
  · rename_i h; rw [Tab.get_del_same, h]
  · exact Tab.get_put_same t d v k

theorem Tab.get_set_other {α : Type} [DecidableEq α] (t : Tab α) (d v : α) (k j : Nat) (h : j ≠ k) :
    Tab.get (t.set d k v) d j = Tab.get t d j := by
  unfold Tab.set
  split
  · exact Tab.get_del_other t d k j h
  · exact Tab.get_put_other t d v k j h

/-- A sorted table with a head: every later key is greater. -/
theorem Tab.sorted_iff {α : Type} (t : Tab α) : Tab.sorted t = true ↔ t.Pairwise (fun a b => a.1 < b.1) := by
  induction t with
  | nil => simp [Tab.sorted]
  | cons a r ih =>
    cases r with
    | nil => simp [Tab.sorted]
    | cons b r =>
      simp only [Tab.sorted, Bool.and_eq_true, decide_eq_true_eq, ih, List.pairwise_cons]
      constructor
      · rintro ⟨h1, h2, h3⟩
        refine ⟨?_, h2, h3⟩
        intro x hx
        rcases List.mem_cons.mp hx with rfl | hx
        · exact h1
        · exact lt_trans h1 (h2 x hx)
      · rintro ⟨h1, h2, h3⟩
        exact ⟨h1 b (by simp), h2, h3⟩

theorem Tab.mem_put {α : Type} (t : Tab α) (k : Nat) (v : α) (x : Nat × α) (h : x ∈ t.put k v) : x = (k, v) ∨ x ∈ t := by
  induction t with
  | nil => simpa [Tab.put] using h
  | cons p r ih =>
    obtain ⟨a, b⟩ := p
    simp only [Tab.put] at h
    split at h
    · rcases List.mem_cons.mp h with rfl | h
      · exact .inl rfl
      · exact .inr h
    · split at h
      · rcases List.mem_cons.mp h with rfl | h
        · exact .inl rfl
        · exact .inr (List.mem_cons_of_mem _ h)
      · rcases List.mem_cons.mp h with rfl | h
        · exact .inr (by simp)
        · rcases ih h with h | h
          · exact .inl h
          · exact .inr (List.mem_cons_of_mem _ h)

theorem Tab.put_pairwise {α : Type} (t : Tab α) (k : Nat) (v : α) (h : t.Pairwise (fun a b => a.1 < b.1)) :
    (t.put k v).Pairwise (fun a b => a.1 < b.1) := by
  induction t with
  | nil => simp [Tab.put]
  | cons p r ih =>
    obtain ⟨a, b⟩ := p
    rw [List.pairwise_cons] at h
    simp only [Tab.put]
    split
    · rename_i hk
      rw [List.pairwise_cons]
      refine ⟨?_, List.pairwise_cons.mpr h⟩
      intro x hx
      rcases List.mem_cons.mp hx with rfl | hx
      · exact hk
      · exact lt_trans hk (h.1 x hx)
    · split
      · rename_i hk
        subst hk
        exact List.pairwise_cons.mpr h
      · rename_i h1 h2
        rw [List.pairwise_cons]
        refine ⟨?_, ih h.2⟩
        intro x hx
        rcases Tab.mem_put r k v x hx with rfl | hx
        · show a < k
          omega
        · exact h.1 x hx

/-- Entering a value keeps the keys strictly rising. -/
theorem Tab.set_sorted {α : Type} [DecidableEq α] (t : Tab α) (d v : α) (k : Nat) (h : Tab.sorted t = true) : Tab.sorted (t.set d k v) = true := by
  rw [Tab.sorted_iff] at h ⊢
  unfold Tab.set
  split
  · exact List.Pairwise.filter _ h
  · exact Tab.put_pairwise t k v h

/-! ### Byte memories -/

/-- A byte just written is read back. -/
@[simp] theorem Mem.read_write_same (m : Mem) (a : Nat) (b : Byte) : (m.write a b).read a = b := by
  show Tab.get (Tab.set m.cells (m.default a) a b) (m.default a) a = b
  exact Tab.get_set_same _ _ _ _

/-- A write leaves every other byte. -/
theorem Mem.read_write_other (m : Mem) (a x : Nat) (b : Byte) (h : x ≠ a) : (m.write a b).read x = m.read x := by
  show Tab.get (Tab.set m.cells (m.default a) a b) (m.default x) x = Tab.get m.cells (m.default x) x
  unfold Tab.set
  split
  · exact Tab.get_del_other _ _ _ _ h
  · exact Tab.get_put_other _ _ _ _ _ h

/-- A write of bytes leaves every byte outside its range. -/
theorem Mem.read_writeN_other (m : Mem) (a x : Nat) (bs : List Byte) (h : x < a ∨ a + bs.length ≤ x) : (m.writeN a bs).read x = m.read x := by
  induction bs generalizing m a with
  | nil => rfl
  | cons b bs ih =>
    simp only [List.length_cons] at h
    show ((m.write a b).writeN (a + 1) bs).read x = m.read x
    rw [ih (m.write a b) (a + 1) (by omega), Mem.read_write_other m a x b (by omega)]

/-- A write of bytes is read back byte by byte. -/
theorem Mem.read_writeN_inside (m : Mem) (a i : Nat) (bs : List Byte) (h : i < bs.length) : (m.writeN a bs).read (a + i) = bs[i] := by
  induction bs generalizing m a i with
  | nil => simp at h
  | cons b bs ih =>
    show ((m.write a b).writeN (a + 1) bs).read (a + i) = (b :: bs)[i]
    cases i with
    | zero =>
      rw [Mem.read_writeN_other _ _ _ _ (by omega)]
      simp
    | succ i =>
      have := ih (m.write a b) (a + 1) i (by simpa using h)
      simpa [Nat.add_assoc, Nat.add_comm 1 i] using this

/-- Writing a byte keeps the canonical form. -/
theorem Mem.write_wf (m : Mem) (a : Nat) (b : Byte) (h : m.wf = true) : (m.write a b).wf = true := by
  have hd : ∀ x, (m.write a b).default x = m.default x := fun x => rfl
  simp only [Mem.wf, Bool.and_eq_true, List.all_eq_true, bne_iff_ne, ne_eq] at h ⊢
  refine ⟨Tab.set_sorted _ _ _ _ h.1, ?_⟩
  intro c hc
  rw [hd]
  have hc' : c ∈ Tab.set m.cells (m.default a) a b := hc
  unfold Tab.set at hc'
  split at hc'
  · exact h.2 c (List.mem_of_mem_filter hc')
  · rename_i hb
    rcases Tab.mem_put _ _ _ _ hc' with rfl | hc'
    · exact hb
    · exact h.2 c hc'

/-- Storing bytes keeps the canonical form. -/
theorem Mem.writeN_wf (m : Mem) (a : Nat) (bs : List Byte) (h : m.wf = true) : (m.writeN a bs).wf = true := by
  induction bs generalizing m a with
  | nil => exact h
  | cons b bs ih => exact ih _ _ (Mem.write_wf m a b h)

/-- The zone that decides what an unlisted byte reads as, past zones that do not hold it. -/
theorem Mem.find_filter (z : List (Nat × Nat × Nat)) (p q : Nat × Nat × Nat → Bool) (h : ∀ x ∈ z, p x = true → q x = true) :
    (z.filter q).find? p = z.find? p := by
  induction z with
  | nil => rfl
  | cons x r ih =>
    have ih := ih (fun y hy => h y (List.mem_cons_of_mem _ hy))
    cases hp : p x with
    | true => simp [List.filter, h x (by simp) hp, List.find?, hp]
    | false => cases hq : q x <;> simp [List.filter, hq, List.find?, hp, ih]

/-- Making a range unspecified changes what an unlisted byte outside it reads as in no way. -/
theorem Mem.smudge_default (m : Mem) (a n g x : Nat) (h : x < a ∨ a + n ≤ x) : (m.smudge a n g).default x = m.default x := by
  unfold Mem.default Mem.smudge
  have h1 : (decide (a ≤ x) && decide (x < a + n)) = false := by
    simp only [Bool.and_eq_false_iff, decide_eq_false_iff_not]
    omega
  simp only [List.find?, h1]
  rw [Mem.find_filter]
  intro z _ hz
  simp only [Bool.and_eq_true, decide_eq_true_eq] at hz
  simp only [Bool.not_eq_true', Bool.and_eq_false_iff, decide_eq_false_iff_not]
  omega

/-- Making a range unspecified keeps the canonical form. -/
theorem Mem.smudge_wf (m : Mem) (a n g : Nat) (h : m.wf = true) : (m.smudge a n g).wf = true := by
  have hs : ∀ x : Nat, x < a ∨ a + n ≤ x → (m.smudge a n g).default x = m.default x := fun x hx => Mem.smudge_default m a n g x hx
  simp only [Mem.wf, Bool.and_eq_true, List.all_eq_true, bne_iff_ne, ne_eq] at h ⊢
  refine ⟨?_, ?_⟩
  · rw [Tab.sorted_iff] at *
    exact List.Pairwise.filter _ h.1
  · intro c hc
    have hc' : c ∈ m.cells.filter (fun c => decide (c.1 < a) || decide (a + n ≤ c.1)) := hc
    rw [List.mem_filter] at hc'
    rw [hs c.1 (by simpa using hc'.2)]
    exact h.2 c hc'.1

/-- The empty memory is in canonical form. -/
theorem Mem.empty_wf : Mem.empty.wf = true := rfl

/-- A memory that lists nothing is in canonical form. -/
theorem Mem.blank_wf (j : Nat) (z : List (Nat × Nat × Nat)) : ({ cells := [], junk := j, zones := z } : Mem).wf = true := rfl

/-- Bit fields of SP bytes are written as bytes. -/
theorem Mem.setBits_wf (m : Mem) (a b w v : Nat) (h : m.wf = true) : (m.setBits a b w v).wf = true := Mem.writeN_wf _ _ _ h

/-! ### Folds -/

/-- What every step of a fold keeps, the fold keeps. -/
theorem foldl_keeps {α β : Type} (P : β → Prop) (f : β → α → β) (hf : ∀ b a, P b → P (f b a)) (l : List α) (b : β) (h : P b) :
    P (l.foldl f b) := by
  induction l generalizing b with
  | nil => exact h
  | cons a l ih => exact ih _ (hf b a h)

/-- A fold whose every step leaves a part of the state leaves it. -/
theorem foldl_same {α β γ : Type} (p : β → γ) (f : β → α → β) (hf : ∀ b a, p (f b a) = p b) (l : List α) (b : β) :
    p (l.foldl f b) = p b := by
  induction l generalizing b with
  | nil => rfl
  | cons a l ih => rw [List.foldl_cons, ih, hf]

/-- Tile stores write SP as bytes. -/
theorem Tile.setCode_wf (t : Tile) (m : Mem) (r c v : Nat) (h : m.wf = true) : (t.setCode m r c v).wf = true := Mem.setBits_wf _ _ _ _ _ h

theorem Tile.setBlock_wf (t : Tile) (sat : Bool) (m : Mem) (r b : Nat) (vs : List Num) (h : m.wf = true) : (t.setBlock sat m r b vs).wf = true := by
  unfold Tile.setBlock
  exact foldl_keeps (fun m : Mem => m.wf = true) _ (fun m _ hm => Tile.setCode_wf _ m _ _ _ hm) _ _ (Mem.write_wf _ _ _ h)

theorem Tile.storeRow_wf (t : Tile) (sat : Bool) (m : Mem) (r : Nat) (vs : List Num) (h : m.wf = true) : (t.storeRow sat m r vs).wf = true := by
  unfold Tile.storeRow
  split
  · exact foldl_keeps (fun m : Mem => m.wf = true) _ (fun m _ hm => Tile.setBlock_wf _ _ m _ _ _ hm) _ _ h
  · exact foldl_keeps (fun m : Mem => m.wf = true) _ (fun m _ hm => Tile.setCode_wf _ m _ _ _ hm) _ _ h

/-- Stores to hub memory keep its canonical form. -/
theorem State.hmStore_wf (s : State) (off : Nat) (bs : List Byte) (h : s.hm.wf = true) : (s.hmStore off bs).hm.wf = true := Mem.writeN_wf _ _ _ h

/-- Stores to a scratchpad keep its canonical form. -/
theorem Core.spWrite_wf (k : Core) (off : Nat) (bs : List Byte) (h : k.sp.wf = true) : (k.spWrite off bs).sp.wf = true := Mem.writeN_wf _ _ _ h

/-- Every scratchpad after reset. -/
theorem State.reset_core_sp_wf (c : Nat) : (State.reset.core c).sp.wf = true := by
  show (State.reset.cores.getD c Core.reset).sp.wf = true
  have : State.reset.cores = Vector.replicate 48 Core.reset := rfl
  rw [this]
  by_cases hc : c < 48
  · simp only [Vector.getD, Array.getD, Vector.size_toArray, hc, dite_true]
    simp; rfl
  · simp only [Vector.getD, Array.getD, Vector.size_toArray, hc, dite_false]
    rfl

/-- The memories of the machine after reset. -/
theorem State.reset_hm_wf : State.reset.hm.wf = true ∧ State.reset.lm.wf = true ∧ State.reset.fru.wf = true := ⟨rfl, rfl, rfl⟩

end Sys2Proof.Machine
end

