-- ==== Sys2Proof/Laws/State.lean ====
section
/-! SUPPORT. Laws of the state's updates: for each field and each update that leaves it, one equation, so that no proof
unfolds a record update; and what each update does to its own part. -/

namespace Sys2Proof.Machine

/-! ### Fields that an update leaves -/

/-! `State.modCore` -/

@[simp] theorem State.modCore_pending (s : State) (c : Nat) (f : Core → Core) : (s.modCore c f).pending = s.pending := rfl
@[simp] theorem State.modCore_clock (s : State) (c : Nat) (f : Core → Core) : (s.modCore c f).clock = s.clock := rfl
@[simp] theorem State.modCore_freeCtr (s : State) (c : Nat) (f : Core → Core) : (s.modCore c f).freeCtr = s.freeCtr := rfl
@[simp] theorem State.modCore_rackTime (s : State) (c : Nat) (f : Core → Core) : (s.modCore c f).rackTime = s.rackTime := rfl
@[simp] theorem State.modCore_rackHold (s : State) (c : Nat) (f : Core → Core) : (s.modCore c f).rackHold = s.rackHold := rfl
@[simp] theorem State.modCore_rackSlew (s : State) (c : Nat) (f : Core → Core) : (s.modCore c f).rackSlew = s.rackSlew := rfl
@[simp] theorem State.modCore_timeGood (s : State) (c : Nat) (f : Core → Core) : (s.modCore c f).timeGood = s.timeGood := rfl
@[simp] theorem State.modCore_regs (s : State) (c : Nat) (f : Core → Core) : (s.modCore c f).regs = s.regs := rfl
@[simp] theorem State.modCore_sub (s : State) (c : Nat) (f : Core → Core) : (s.modCore c f).sub = s.sub := rfl
@[simp] theorem State.modCore_lag (s : State) (c : Nat) (f : Core → Core) : (s.modCore c f).lag = s.lag := rfl
@[simp] theorem State.modCore_prsnt (s : State) (c : Nat) (f : Core → Core) : (s.modCore c f).prsnt = s.prsnt := rfl
@[simp] theorem State.modCore_perst (s : State) (c : Nat) (f : Core → Core) : (s.modCore c f).perst = s.perst := rfl
@[simp] theorem State.modCore_powered (s : State) (c : Nat) (f : Core → Core) : (s.modCore c f).powered = s.powered := rfl
@[simp] theorem State.modCore_input (s : State) (c : Nat) (f : Core → Core) : (s.modCore c f).input = s.input := rfl
@[simp] theorem State.modCore_volt (s : State) (c : Nat) (f : Core → Core) : (s.modCore c f).volt = s.volt := rfl
@[simp] theorem State.modCore_straps (s : State) (c : Nat) (f : Core → Core) : (s.modCore c f).straps = s.straps := rfl
@[simp] theorem State.modCore_strapsDue (s : State) (c : Nat) (f : Core → Core) : (s.modCore c f).strapsDue = s.strapsDue := rfl
@[simp] theorem State.modCore_fru (s : State) (c : Nat) (f : Core → Core) : (s.modCore c f).fru = s.fru := rfl
@[simp] theorem State.modCore_flash (s : State) (c : Nat) (f : Core → Core) : (s.modCore c f).flash = s.flash := rfl
@[simp] theorem State.modCore_fuses (s : State) (c : Nat) (f : Core → Core) : (s.modCore c f).fuses = s.fuses := rfl
@[simp] theorem State.modCore_meas (s : State) (c : Nat) (f : Core → Core) : (s.modCore c f).meas = s.meas := rfl
@[simp] theorem State.modCore_config (s : State) (c : Nat) (f : Core → Core) : (s.modCore c f).config = s.config := rfl
@[simp] theorem State.modCore_failed (s : State) (c : Nat) (f : Core → Core) : (s.modCore c f).failed = s.failed := rfl
@[simp] theorem State.modCore_hm (s : State) (c : Nat) (f : Core → Core) : (s.modCore c f).hm = s.hm := rfl
@[simp] theorem State.modCore_hmBad (s : State) (c : Nat) (f : Core → Core) : (s.modCore c f).hmBad = s.hmBad := rfl
@[simp] theorem State.modCore_lm (s : State) (c : Nat) (f : Core → Core) : (s.modCore c f).lm = s.lm := rfl
@[simp] theorem State.modCore_lmPoison (s : State) (c : Nat) (f : Core → Core) : (s.modCore c f).lmPoison = s.lmPoison := rfl
@[simp] theorem State.modCore_cache (s : State) (c : Nat) (f : Core → Core) : (s.modCore c f).cache = s.cache := rfl
@[simp] theorem State.modCore_slogRing (s : State) (c : Nat) (f : Core → Core) : (s.modCore c f).slogRing = s.slogRing := rfl
@[simp] theorem State.modCore_slogs (s : State) (c : Nat) (f : Core → Core) : (s.modCore c f).slogs = s.slogs := rfl
@[simp] theorem State.modCore_txns (s : State) (c : Nat) (f : Core → Core) : (s.modCore c f).txns = s.txns := rfl
@[simp] theorem State.modCore_nextTag (s : State) (c : Nat) (f : Core → Core) : (s.modCore c f).nextTag = s.nextTag := rfl
@[simp] theorem State.modCore_nextSig (s : State) (c : Nat) (f : Core → Core) : (s.modCore c f).nextSig = s.nextSig := rfl
@[simp] theorem State.modCore_opids (s : State) (c : Nat) (f : Core → Core) : (s.modCore c f).opids = s.opids := rfl
@[simp] theorem State.modCore_winUse (s : State) (c : Nat) (f : Core → Core) : (s.modCore c f).winUse = s.winUse := rfl
@[simp] theorem State.modCore_nextPre (s : State) (c : Nat) (f : Core → Core) : (s.modCore c f).nextPre = s.nextPre := rfl
@[simp] theorem State.modCore_replays (s : State) (c : Nat) (f : Core → Core) : (s.modCore c f).replays = s.replays := rfl
@[simp] theorem State.modCore_dedup (s : State) (c : Nat) (f : Core → Core) : (s.modCore c f).dedup = s.dedup := rfl
@[simp] theorem State.modCore_dedupWait (s : State) (c : Nat) (f : Core → Core) : (s.modCore c f).dedupWait = s.dedupWait := rfl
@[simp] theorem State.modCore_sigs (s : State) (c : Nat) (f : Core → Core) : (s.modCore c f).sigs = s.sigs := rfl
@[simp] theorem State.modCore_heldReqs (s : State) (c : Nat) (f : Core → Core) : (s.modCore c f).heldReqs = s.heldReqs := rfl
@[simp] theorem State.modCore_c0Held (s : State) (c : Nat) (f : Core → Core) : (s.modCore c f).c0Held = s.c0Held := rfl
@[simp] theorem State.modCore_c0Last (s : State) (c : Nat) (f : Core → Core) : (s.modCore c f).c0Last = s.c0Last := rfl
@[simp] theorem State.modCore_hubTum (s : State) (c : Nat) (f : Core → Core) : (s.modCore c f).hubTum = s.hubTum := rfl
@[simp] theorem State.modCore_allocs (s : State) (c : Nat) (f : Core → Core) : (s.modCore c f).allocs = s.allocs := rfl
@[simp] theorem State.modCore_waiters (s : State) (c : Nat) (f : Core → Core) : (s.modCore c f).waiters = s.waiters := rfl
@[simp] theorem State.modCore_park (s : State) (c : Nat) (f : Core → Core) : (s.modCore c f).park = s.park := rfl
@[simp] theorem State.modCore_refused (s : State) (c : Nat) (f : Core → Core) : (s.modCore c f).refused = s.refused := rfl
@[simp] theorem State.modCore_tasks (s : State) (c : Nat) (f : Core → Core) : (s.modCore c f).tasks = s.tasks := rfl
@[simp] theorem State.modCore_nextTask (s : State) (c : Nat) (f : Core → Core) : (s.modCore c f).nextTask = s.nextTask := rfl
@[simp] theorem State.modCore_nextSeq (s : State) (c : Nat) (f : Core → Core) : (s.modCore c f).nextSeq = s.nextSeq := rfl
@[simp] theorem State.modCore_queues (s : State) (c : Nat) (f : Core → Core) : (s.modCore c f).queues = s.queues := rfl
@[simp] theorem State.modCore_lastQ (s : State) (c : Nat) (f : Core → Core) : (s.modCore c f).lastQ = s.lastQ := rfl
@[simp] theorem State.modCore_hostOut (s : State) (c : Nat) (f : Core → Core) : (s.modCore c f).hostOut = s.hostOut := rfl
@[simp] theorem State.modCore_sideOut (s : State) (c : Nat) (f : Core → Core) : (s.modCore c f).sideOut = s.sideOut := rfl
@[simp] theorem State.modCore_faultq (s : State) (c : Nat) (f : Core → Core) : (s.modCore c f).faultq = s.faultq := rfl
@[simp] theorem State.modCore_faultWait (s : State) (c : Nat) (f : Core → Core) : (s.modCore c f).faultWait = s.faultWait := rfl
@[simp] theorem State.modCore_errSeq (s : State) (c : Nat) (f : Core → Core) : (s.modCore c f).errSeq = s.errSeq := rfl
@[simp] theorem State.modCore_lastIrq (s : State) (c : Nat) (f : Core → Core) : (s.modCore c f).lastIrq = s.lastIrq := rfl
@[simp] theorem State.modCore_irqDue (s : State) (c : Nat) (f : Core → Core) : (s.modCore c f).irqDue = s.irqDue := rfl
@[simp] theorem State.modCore_kvSeqs (s : State) (c : Nat) (f : Core → Core) : (s.modCore c f).kvSeqs = s.kvSeqs := rfl
@[simp] theorem State.modCore_kvPages (s : State) (c : Nat) (f : Core → Core) : (s.modCore c f).kvPages = s.kvPages := rfl
@[simp] theorem State.modCore_kvLazy (s : State) (c : Nat) (f : Core → Core) : (s.modCore c f).kvLazy = s.kvLazy := rfl
@[simp] theorem State.modCore_kvGeom (s : State) (c : Nat) (f : Core → Core) : (s.modCore c f).kvGeom = s.kvGeom := rfl
@[simp] theorem State.modCore_kvPoolLo (s : State) (c : Nat) (f : Core → Core) : (s.modCore c f).kvPoolLo = s.kvPoolLo := rfl
@[simp] theorem State.modCore_kvPoolHi (s : State) (c : Nat) (f : Core → Core) : (s.modCore c f).kvPoolHi = s.kvPoolHi := rfl
@[simp] theorem State.modCore_colls (s : State) (c : Nat) (f : Core → Core) : (s.modCore c f).colls = s.colls := rfl
@[simp] theorem State.modCore_store (s : State) (c : Nat) (f : Core → Core) : (s.modCore c f).store = s.store := rfl
@[simp] theorem State.modCore_triples (s : State) (c : Nat) (f : Core → Core) : (s.modCore c f).triples = s.triples := rfl
@[simp] theorem State.modCore_collWait (s : State) (c : Nat) (f : Core → Core) : (s.modCore c f).collWait = s.collWait := rfl
@[simp] theorem State.modCore_storeWait (s : State) (c : Nat) (f : Core → Core) : (s.modCore c f).storeWait = s.storeWait := rfl
@[simp] theorem State.modCore_held (s : State) (c : Nat) (f : Core → Core) : (s.modCore c f).held = s.held := rfl
@[simp] theorem State.modCore_nextBuf (s : State) (c : Nat) (f : Core → Core) : (s.modCore c f).nextBuf = s.nextBuf := rfl
@[simp] theorem State.modCore_hubIn (s : State) (c : Nat) (f : Core → Core) : (s.modCore c f).hubIn = s.hubIn := rfl
@[simp] theorem State.modCore_downLinks (s : State) (c : Nat) (f : Core → Core) : (s.modCore c f).downLinks = s.downLinks := rfl
@[simp] theorem State.modCore_lastDown (s : State) (c : Nat) (f : Core → Core) : (s.modCore c f).lastDown = s.lastDown := rfl
@[simp] theorem State.modCore_routable (s : State) (c : Nat) (f : Core → Core) : (s.modCore c f).routable = s.routable := rfl
@[simp] theorem State.modCore_compute (s : State) (c : Nat) (f : Core → Core) : (s.modCore c f).compute = s.compute := rfl
@[simp] theorem State.modCore_dirBits (s : State) (c : Nat) (f : Core → Core) : (s.modCore c f).dirBits = s.dirBits := rfl
@[simp] theorem State.modCore_padDue (s : State) (c : Nat) (f : Core → Core) : (s.modCore c f).padDue = s.padDue := rfl
@[simp] theorem State.modCore_partWait (s : State) (c : Nat) (f : Core → Core) : (s.modCore c f).partWait = s.partWait := rfl
@[simp] theorem State.modCore_jobIgnore (s : State) (c : Nat) (f : Core → Core) : (s.modCore c f).jobIgnore = s.jobIgnore := rfl
@[simp] theorem State.modCore_everUp (s : State) (c : Nat) (f : Core → Core) : (s.modCore c f).everUp = s.everUp := rfl
@[simp] theorem State.modCore_declSent (s : State) (c : Nat) (f : Core → Core) : (s.modCore c f).declSent = s.declSent := rfl
@[simp] theorem State.modCore_portsOff (s : State) (c : Nat) (f : Core → Core) : (s.modCore c f).portsOff = s.portsOff := rfl
@[simp] theorem State.modCore_ports (s : State) (c : Nat) (f : Core → Core) : (s.modCore c f).ports = s.ports := rfl
@[simp] theorem State.modCore_engines (s : State) (c : Nat) (f : Core → Core) : (s.modCore c f).engines = s.engines := rfl
@[simp] theorem State.modCore_leaves (s : State) (c : Nat) (f : Core → Core) : (s.modCore c f).leaves = s.leaves := rfl
@[simp] theorem State.modCore_chans (s : State) (c : Nat) (f : Core → Core) : (s.modCore c f).chans = s.chans := rfl
@[simp] theorem State.modCore_mboxes (s : State) (c : Nat) (f : Core → Core) : (s.modCore c f).mboxes = s.mboxes := rfl
@[simp] theorem State.modCore_goOrder (s : State) (c : Nat) (f : Core → Core) : (s.modCore c f).goOrder = s.goOrder := rfl
@[simp] theorem State.modCore_openAt (s : State) (c : Nat) (f : Core → Core) : (s.modCore c f).openAt = s.openAt := rfl
@[simp] theorem State.modCore_padAt (s : State) (c : Nat) (f : Core → Core) : (s.modCore c f).padAt = s.padAt := rfl
@[simp] theorem State.modCore_pairsOn (s : State) (c : Nat) (f : Core → Core) : (s.modCore c f).pairsOn = s.pairsOn := rfl
@[simp] theorem State.modCore_sensors (s : State) (c : Nat) (f : Core → Core) : (s.modCore c f).sensors = s.sensors := rfl
@[simp] theorem State.modCore_stretch (s : State) (c : Nat) (f : Core → Core) : (s.modCore c f).stretch = s.stretch := rfl
@[simp] theorem State.modCore_heat (s : State) (c : Nat) (f : Core → Core) : (s.modCore c f).heat = s.heat := rfl
@[simp] theorem State.modCore_steps (s : State) (c : Nat) (f : Core → Core) : (s.modCore c f).steps = s.steps := rfl
@[simp] theorem State.modCore_hubHot (s : State) (c : Nat) (f : Core → Core) : (s.modCore c f).hubHot = s.hubHot := rfl
@[simp] theorem State.modCore_capFell (s : State) (c : Nat) (f : Core → Core) : (s.modCore c f).capFell = s.capFell := rfl
@[simp] theorem State.modCore_charging (s : State) (c : Nat) (f : Core → Core) : (s.modCore c f).charging = s.charging := rfl
@[simp] theorem State.modCore_i3cAddr (s : State) (c : Nat) (f : Core → Core) : (s.modCore c f).i3cAddr = s.i3cAddr := rfl
@[simp] theorem State.modCore_i3cIndex (s : State) (c : Nat) (f : Core → Core) : (s.modCore c f).i3cIndex = s.i3cIndex := rfl
@[simp] theorem State.modCore_ibiOn (s : State) (c : Nat) (f : Core → Core) : (s.modCore c f).ibiOn = s.ibiOn := rfl
@[simp] theorem State.modCore_ibis (s : State) (c : Nat) (f : Core → Core) : (s.modCore c f).ibis = s.ibis := rfl
@[simp] theorem State.modCore_spdmVer (s : State) (c : Nat) (f : Core → Core) : (s.modCore c f).spdmVer = s.spdmVer := rfl
@[simp] theorem State.modCore_spdmAlgs (s : State) (c : Nat) (f : Core → Core) : (s.modCore c f).spdmAlgs = s.spdmAlgs := rfl
@[simp] theorem State.modCore_spdmLog (s : State) (c : Nat) (f : Core → Core) : (s.modCore c f).spdmLog = s.spdmLog := rfl
@[simp] theorem State.modCore_taps (s : State) (c : Nat) (f : Core → Core) : (s.modCore c f).taps = s.taps := rfl
@[simp] theorem State.modCore_testLow (s : State) (c : Nat) (f : Core → Core) : (s.modCore c f).testLow = s.testLow := rfl

/-! `State.modPort` -/

@[simp] theorem State.modPort_pending (s : State) (p : Nat) (f : Port → Port) : (s.modPort p f).pending = s.pending := rfl
@[simp] theorem State.modPort_clock (s : State) (p : Nat) (f : Port → Port) : (s.modPort p f).clock = s.clock := rfl
@[simp] theorem State.modPort_freeCtr (s : State) (p : Nat) (f : Port → Port) : (s.modPort p f).freeCtr = s.freeCtr := rfl
@[simp] theorem State.modPort_rackTime (s : State) (p : Nat) (f : Port → Port) : (s.modPort p f).rackTime = s.rackTime := rfl
@[simp] theorem State.modPort_rackHold (s : State) (p : Nat) (f : Port → Port) : (s.modPort p f).rackHold = s.rackHold := rfl
@[simp] theorem State.modPort_rackSlew (s : State) (p : Nat) (f : Port → Port) : (s.modPort p f).rackSlew = s.rackSlew := rfl
@[simp] theorem State.modPort_timeGood (s : State) (p : Nat) (f : Port → Port) : (s.modPort p f).timeGood = s.timeGood := rfl
@[simp] theorem State.modPort_regs (s : State) (p : Nat) (f : Port → Port) : (s.modPort p f).regs = s.regs := rfl
@[simp] theorem State.modPort_sub (s : State) (p : Nat) (f : Port → Port) : (s.modPort p f).sub = s.sub := rfl
@[simp] theorem State.modPort_lag (s : State) (p : Nat) (f : Port → Port) : (s.modPort p f).lag = s.lag := rfl
@[simp] theorem State.modPort_prsnt (s : State) (p : Nat) (f : Port → Port) : (s.modPort p f).prsnt = s.prsnt := rfl
@[simp] theorem State.modPort_perst (s : State) (p : Nat) (f : Port → Port) : (s.modPort p f).perst = s.perst := rfl
@[simp] theorem State.modPort_powered (s : State) (p : Nat) (f : Port → Port) : (s.modPort p f).powered = s.powered := rfl
@[simp] theorem State.modPort_input (s : State) (p : Nat) (f : Port → Port) : (s.modPort p f).input = s.input := rfl
@[simp] theorem State.modPort_volt (s : State) (p : Nat) (f : Port → Port) : (s.modPort p f).volt = s.volt := rfl
@[simp] theorem State.modPort_straps (s : State) (p : Nat) (f : Port → Port) : (s.modPort p f).straps = s.straps := rfl
@[simp] theorem State.modPort_strapsDue (s : State) (p : Nat) (f : Port → Port) : (s.modPort p f).strapsDue = s.strapsDue := rfl
@[simp] theorem State.modPort_fru (s : State) (p : Nat) (f : Port → Port) : (s.modPort p f).fru = s.fru := rfl
@[simp] theorem State.modPort_flash (s : State) (p : Nat) (f : Port → Port) : (s.modPort p f).flash = s.flash := rfl
@[simp] theorem State.modPort_fuses (s : State) (p : Nat) (f : Port → Port) : (s.modPort p f).fuses = s.fuses := rfl
@[simp] theorem State.modPort_meas (s : State) (p : Nat) (f : Port → Port) : (s.modPort p f).meas = s.meas := rfl
@[simp] theorem State.modPort_config (s : State) (p : Nat) (f : Port → Port) : (s.modPort p f).config = s.config := rfl
@[simp] theorem State.modPort_failed (s : State) (p : Nat) (f : Port → Port) : (s.modPort p f).failed = s.failed := rfl
@[simp] theorem State.modPort_cores (s : State) (p : Nat) (f : Port → Port) : (s.modPort p f).cores = s.cores := rfl
@[simp] theorem State.modPort_hm (s : State) (p : Nat) (f : Port → Port) : (s.modPort p f).hm = s.hm := rfl
@[simp] theorem State.modPort_hmBad (s : State) (p : Nat) (f : Port → Port) : (s.modPort p f).hmBad = s.hmBad := rfl
@[simp] theorem State.modPort_lm (s : State) (p : Nat) (f : Port → Port) : (s.modPort p f).lm = s.lm := rfl
@[simp] theorem State.modPort_lmPoison (s : State) (p : Nat) (f : Port → Port) : (s.modPort p f).lmPoison = s.lmPoison := rfl
@[simp] theorem State.modPort_cache (s : State) (p : Nat) (f : Port → Port) : (s.modPort p f).cache = s.cache := rfl
@[simp] theorem State.modPort_slogRing (s : State) (p : Nat) (f : Port → Port) : (s.modPort p f).slogRing = s.slogRing := rfl
@[simp] theorem State.modPort_slogs (s : State) (p : Nat) (f : Port → Port) : (s.modPort p f).slogs = s.slogs := rfl
@[simp] theorem State.modPort_txns (s : State) (p : Nat) (f : Port → Port) : (s.modPort p f).txns = s.txns := rfl
@[simp] theorem State.modPort_nextTag (s : State) (p : Nat) (f : Port → Port) : (s.modPort p f).nextTag = s.nextTag := rfl
@[simp] theorem State.modPort_nextSig (s : State) (p : Nat) (f : Port → Port) : (s.modPort p f).nextSig = s.nextSig := rfl
@[simp] theorem State.modPort_opids (s : State) (p : Nat) (f : Port → Port) : (s.modPort p f).opids = s.opids := rfl
@[simp] theorem State.modPort_winUse (s : State) (p : Nat) (f : Port → Port) : (s.modPort p f).winUse = s.winUse := rfl
@[simp] theorem State.modPort_nextPre (s : State) (p : Nat) (f : Port → Port) : (s.modPort p f).nextPre = s.nextPre := rfl
@[simp] theorem State.modPort_replays (s : State) (p : Nat) (f : Port → Port) : (s.modPort p f).replays = s.replays := rfl
@[simp] theorem State.modPort_dedup (s : State) (p : Nat) (f : Port → Port) : (s.modPort p f).dedup = s.dedup := rfl
@[simp] theorem State.modPort_dedupWait (s : State) (p : Nat) (f : Port → Port) : (s.modPort p f).dedupWait = s.dedupWait := rfl
@[simp] theorem State.modPort_sigs (s : State) (p : Nat) (f : Port → Port) : (s.modPort p f).sigs = s.sigs := rfl
@[simp] theorem State.modPort_heldReqs (s : State) (p : Nat) (f : Port → Port) : (s.modPort p f).heldReqs = s.heldReqs := rfl
@[simp] theorem State.modPort_c0Held (s : State) (p : Nat) (f : Port → Port) : (s.modPort p f).c0Held = s.c0Held := rfl
@[simp] theorem State.modPort_c0Last (s : State) (p : Nat) (f : Port → Port) : (s.modPort p f).c0Last = s.c0Last := rfl
@[simp] theorem State.modPort_hubTum (s : State) (p : Nat) (f : Port → Port) : (s.modPort p f).hubTum = s.hubTum := rfl
@[simp] theorem State.modPort_allocs (s : State) (p : Nat) (f : Port → Port) : (s.modPort p f).allocs = s.allocs := rfl
@[simp] theorem State.modPort_waiters (s : State) (p : Nat) (f : Port → Port) : (s.modPort p f).waiters = s.waiters := rfl
@[simp] theorem State.modPort_park (s : State) (p : Nat) (f : Port → Port) : (s.modPort p f).park = s.park := rfl
@[simp] theorem State.modPort_refused (s : State) (p : Nat) (f : Port → Port) : (s.modPort p f).refused = s.refused := rfl
@[simp] theorem State.modPort_tasks (s : State) (p : Nat) (f : Port → Port) : (s.modPort p f).tasks = s.tasks := rfl
@[simp] theorem State.modPort_nextTask (s : State) (p : Nat) (f : Port → Port) : (s.modPort p f).nextTask = s.nextTask := rfl
@[simp] theorem State.modPort_nextSeq (s : State) (p : Nat) (f : Port → Port) : (s.modPort p f).nextSeq = s.nextSeq := rfl
@[simp] theorem State.modPort_queues (s : State) (p : Nat) (f : Port → Port) : (s.modPort p f).queues = s.queues := rfl
@[simp] theorem State.modPort_lastQ (s : State) (p : Nat) (f : Port → Port) : (s.modPort p f).lastQ = s.lastQ := rfl
@[simp] theorem State.modPort_hostOut (s : State) (p : Nat) (f : Port → Port) : (s.modPort p f).hostOut = s.hostOut := rfl
@[simp] theorem State.modPort_sideOut (s : State) (p : Nat) (f : Port → Port) : (s.modPort p f).sideOut = s.sideOut := rfl
@[simp] theorem State.modPort_faultq (s : State) (p : Nat) (f : Port → Port) : (s.modPort p f).faultq = s.faultq := rfl
@[simp] theorem State.modPort_faultWait (s : State) (p : Nat) (f : Port → Port) : (s.modPort p f).faultWait = s.faultWait := rfl
@[simp] theorem State.modPort_errSeq (s : State) (p : Nat) (f : Port → Port) : (s.modPort p f).errSeq = s.errSeq := rfl
@[simp] theorem State.modPort_lastIrq (s : State) (p : Nat) (f : Port → Port) : (s.modPort p f).lastIrq = s.lastIrq := rfl
@[simp] theorem State.modPort_irqDue (s : State) (p : Nat) (f : Port → Port) : (s.modPort p f).irqDue = s.irqDue := rfl
@[simp] theorem State.modPort_kvSeqs (s : State) (p : Nat) (f : Port → Port) : (s.modPort p f).kvSeqs = s.kvSeqs := rfl
@[simp] theorem State.modPort_kvPages (s : State) (p : Nat) (f : Port → Port) : (s.modPort p f).kvPages = s.kvPages := rfl
@[simp] theorem State.modPort_kvLazy (s : State) (p : Nat) (f : Port → Port) : (s.modPort p f).kvLazy = s.kvLazy := rfl
@[simp] theorem State.modPort_kvGeom (s : State) (p : Nat) (f : Port → Port) : (s.modPort p f).kvGeom = s.kvGeom := rfl
@[simp] theorem State.modPort_kvPoolLo (s : State) (p : Nat) (f : Port → Port) : (s.modPort p f).kvPoolLo = s.kvPoolLo := rfl
@[simp] theorem State.modPort_kvPoolHi (s : State) (p : Nat) (f : Port → Port) : (s.modPort p f).kvPoolHi = s.kvPoolHi := rfl
@[simp] theorem State.modPort_colls (s : State) (p : Nat) (f : Port → Port) : (s.modPort p f).colls = s.colls := rfl
@[simp] theorem State.modPort_store (s : State) (p : Nat) (f : Port → Port) : (s.modPort p f).store = s.store := rfl
@[simp] theorem State.modPort_triples (s : State) (p : Nat) (f : Port → Port) : (s.modPort p f).triples = s.triples := rfl
@[simp] theorem State.modPort_collWait (s : State) (p : Nat) (f : Port → Port) : (s.modPort p f).collWait = s.collWait := rfl
@[simp] theorem State.modPort_storeWait (s : State) (p : Nat) (f : Port → Port) : (s.modPort p f).storeWait = s.storeWait := rfl
@[simp] theorem State.modPort_held (s : State) (p : Nat) (f : Port → Port) : (s.modPort p f).held = s.held := rfl
@[simp] theorem State.modPort_nextBuf (s : State) (p : Nat) (f : Port → Port) : (s.modPort p f).nextBuf = s.nextBuf := rfl
@[simp] theorem State.modPort_hubIn (s : State) (p : Nat) (f : Port → Port) : (s.modPort p f).hubIn = s.hubIn := rfl
@[simp] theorem State.modPort_downLinks (s : State) (p : Nat) (f : Port → Port) : (s.modPort p f).downLinks = s.downLinks := rfl
@[simp] theorem State.modPort_lastDown (s : State) (p : Nat) (f : Port → Port) : (s.modPort p f).lastDown = s.lastDown := rfl
@[simp] theorem State.modPort_routable (s : State) (p : Nat) (f : Port → Port) : (s.modPort p f).routable = s.routable := rfl
@[simp] theorem State.modPort_compute (s : State) (p : Nat) (f : Port → Port) : (s.modPort p f).compute = s.compute := rfl
@[simp] theorem State.modPort_dirBits (s : State) (p : Nat) (f : Port → Port) : (s.modPort p f).dirBits = s.dirBits := rfl
@[simp] theorem State.modPort_padDue (s : State) (p : Nat) (f : Port → Port) : (s.modPort p f).padDue = s.padDue := rfl
@[simp] theorem State.modPort_partWait (s : State) (p : Nat) (f : Port → Port) : (s.modPort p f).partWait = s.partWait := rfl
@[simp] theorem State.modPort_jobIgnore (s : State) (p : Nat) (f : Port → Port) : (s.modPort p f).jobIgnore = s.jobIgnore := rfl
@[simp] theorem State.modPort_everUp (s : State) (p : Nat) (f : Port → Port) : (s.modPort p f).everUp = s.everUp := rfl
@[simp] theorem State.modPort_declSent (s : State) (p : Nat) (f : Port → Port) : (s.modPort p f).declSent = s.declSent := rfl
@[simp] theorem State.modPort_portsOff (s : State) (p : Nat) (f : Port → Port) : (s.modPort p f).portsOff = s.portsOff := rfl
@[simp] theorem State.modPort_engines (s : State) (p : Nat) (f : Port → Port) : (s.modPort p f).engines = s.engines := rfl
@[simp] theorem State.modPort_leaves (s : State) (p : Nat) (f : Port → Port) : (s.modPort p f).leaves = s.leaves := rfl
@[simp] theorem State.modPort_chans (s : State) (p : Nat) (f : Port → Port) : (s.modPort p f).chans = s.chans := rfl
@[simp] theorem State.modPort_mboxes (s : State) (p : Nat) (f : Port → Port) : (s.modPort p f).mboxes = s.mboxes := rfl
@[simp] theorem State.modPort_goOrder (s : State) (p : Nat) (f : Port → Port) : (s.modPort p f).goOrder = s.goOrder := rfl
@[simp] theorem State.modPort_openAt (s : State) (p : Nat) (f : Port → Port) : (s.modPort p f).openAt = s.openAt := rfl
@[simp] theorem State.modPort_padAt (s : State) (p : Nat) (f : Port → Port) : (s.modPort p f).padAt = s.padAt := rfl
@[simp] theorem State.modPort_pairsOn (s : State) (p : Nat) (f : Port → Port) : (s.modPort p f).pairsOn = s.pairsOn := rfl
@[simp] theorem State.modPort_sensors (s : State) (p : Nat) (f : Port → Port) : (s.modPort p f).sensors = s.sensors := rfl
@[simp] theorem State.modPort_stretch (s : State) (p : Nat) (f : Port → Port) : (s.modPort p f).stretch = s.stretch := rfl
@[simp] theorem State.modPort_heat (s : State) (p : Nat) (f : Port → Port) : (s.modPort p f).heat = s.heat := rfl
@[simp] theorem State.modPort_steps (s : State) (p : Nat) (f : Port → Port) : (s.modPort p f).steps = s.steps := rfl
@[simp] theorem State.modPort_hubHot (s : State) (p : Nat) (f : Port → Port) : (s.modPort p f).hubHot = s.hubHot := rfl
@[simp] theorem State.modPort_capFell (s : State) (p : Nat) (f : Port → Port) : (s.modPort p f).capFell = s.capFell := rfl
@[simp] theorem State.modPort_charging (s : State) (p : Nat) (f : Port → Port) : (s.modPort p f).charging = s.charging := rfl
@[simp] theorem State.modPort_i3cAddr (s : State) (p : Nat) (f : Port → Port) : (s.modPort p f).i3cAddr = s.i3cAddr := rfl
@[simp] theorem State.modPort_i3cIndex (s : State) (p : Nat) (f : Port → Port) : (s.modPort p f).i3cIndex = s.i3cIndex := rfl
@[simp] theorem State.modPort_ibiOn (s : State) (p : Nat) (f : Port → Port) : (s.modPort p f).ibiOn = s.ibiOn := rfl
@[simp] theorem State.modPort_ibis (s : State) (p : Nat) (f : Port → Port) : (s.modPort p f).ibis = s.ibis := rfl
@[simp] theorem State.modPort_spdmVer (s : State) (p : Nat) (f : Port → Port) : (s.modPort p f).spdmVer = s.spdmVer := rfl
@[simp] theorem State.modPort_spdmAlgs (s : State) (p : Nat) (f : Port → Port) : (s.modPort p f).spdmAlgs = s.spdmAlgs := rfl
@[simp] theorem State.modPort_spdmLog (s : State) (p : Nat) (f : Port → Port) : (s.modPort p f).spdmLog = s.spdmLog := rfl
@[simp] theorem State.modPort_taps (s : State) (p : Nat) (f : Port → Port) : (s.modPort p f).taps = s.taps := rfl
@[simp] theorem State.modPort_testLow (s : State) (p : Nat) (f : Port → Port) : (s.modPort p f).testLow = s.testLow := rfl

/-! `State.modQueue` -/

@[simp] theorem State.modQueue_pending (s : State) (q : Nat) (f : Queue → Queue) : (s.modQueue q f).pending = s.pending := rfl
@[simp] theorem State.modQueue_clock (s : State) (q : Nat) (f : Queue → Queue) : (s.modQueue q f).clock = s.clock := rfl
@[simp] theorem State.modQueue_freeCtr (s : State) (q : Nat) (f : Queue → Queue) : (s.modQueue q f).freeCtr = s.freeCtr := rfl
@[simp] theorem State.modQueue_rackTime (s : State) (q : Nat) (f : Queue → Queue) : (s.modQueue q f).rackTime = s.rackTime := rfl
@[simp] theorem State.modQueue_rackHold (s : State) (q : Nat) (f : Queue → Queue) : (s.modQueue q f).rackHold = s.rackHold := rfl
@[simp] theorem State.modQueue_rackSlew (s : State) (q : Nat) (f : Queue → Queue) : (s.modQueue q f).rackSlew = s.rackSlew := rfl
@[simp] theorem State.modQueue_timeGood (s : State) (q : Nat) (f : Queue → Queue) : (s.modQueue q f).timeGood = s.timeGood := rfl
@[simp] theorem State.modQueue_regs (s : State) (q : Nat) (f : Queue → Queue) : (s.modQueue q f).regs = s.regs := rfl
@[simp] theorem State.modQueue_sub (s : State) (q : Nat) (f : Queue → Queue) : (s.modQueue q f).sub = s.sub := rfl
@[simp] theorem State.modQueue_lag (s : State) (q : Nat) (f : Queue → Queue) : (s.modQueue q f).lag = s.lag := rfl
@[simp] theorem State.modQueue_prsnt (s : State) (q : Nat) (f : Queue → Queue) : (s.modQueue q f).prsnt = s.prsnt := rfl
@[simp] theorem State.modQueue_perst (s : State) (q : Nat) (f : Queue → Queue) : (s.modQueue q f).perst = s.perst := rfl
@[simp] theorem State.modQueue_powered (s : State) (q : Nat) (f : Queue → Queue) : (s.modQueue q f).powered = s.powered := rfl
@[simp] theorem State.modQueue_input (s : State) (q : Nat) (f : Queue → Queue) : (s.modQueue q f).input = s.input := rfl
@[simp] theorem State.modQueue_volt (s : State) (q : Nat) (f : Queue → Queue) : (s.modQueue q f).volt = s.volt := rfl
@[simp] theorem State.modQueue_straps (s : State) (q : Nat) (f : Queue → Queue) : (s.modQueue q f).straps = s.straps := rfl
@[simp] theorem State.modQueue_strapsDue (s : State) (q : Nat) (f : Queue → Queue) : (s.modQueue q f).strapsDue = s.strapsDue := rfl
@[simp] theorem State.modQueue_fru (s : State) (q : Nat) (f : Queue → Queue) : (s.modQueue q f).fru = s.fru := rfl
@[simp] theorem State.modQueue_flash (s : State) (q : Nat) (f : Queue → Queue) : (s.modQueue q f).flash = s.flash := rfl
@[simp] theorem State.modQueue_fuses (s : State) (q : Nat) (f : Queue → Queue) : (s.modQueue q f).fuses = s.fuses := rfl
@[simp] theorem State.modQueue_meas (s : State) (q : Nat) (f : Queue → Queue) : (s.modQueue q f).meas = s.meas := rfl
@[simp] theorem State.modQueue_config (s : State) (q : Nat) (f : Queue → Queue) : (s.modQueue q f).config = s.config := rfl
@[simp] theorem State.modQueue_failed (s : State) (q : Nat) (f : Queue → Queue) : (s.modQueue q f).failed = s.failed := rfl
@[simp] theorem State.modQueue_cores (s : State) (q : Nat) (f : Queue → Queue) : (s.modQueue q f).cores = s.cores := rfl
@[simp] theorem State.modQueue_hm (s : State) (q : Nat) (f : Queue → Queue) : (s.modQueue q f).hm = s.hm := rfl
@[simp] theorem State.modQueue_hmBad (s : State) (q : Nat) (f : Queue → Queue) : (s.modQueue q f).hmBad = s.hmBad := rfl
@[simp] theorem State.modQueue_lm (s : State) (q : Nat) (f : Queue → Queue) : (s.modQueue q f).lm = s.lm := rfl
@[simp] theorem State.modQueue_lmPoison (s : State) (q : Nat) (f : Queue → Queue) : (s.modQueue q f).lmPoison = s.lmPoison := rfl
@[simp] theorem State.modQueue_cache (s : State) (q : Nat) (f : Queue → Queue) : (s.modQueue q f).cache = s.cache := rfl
@[simp] theorem State.modQueue_slogRing (s : State) (q : Nat) (f : Queue → Queue) : (s.modQueue q f).slogRing = s.slogRing := rfl
@[simp] theorem State.modQueue_slogs (s : State) (q : Nat) (f : Queue → Queue) : (s.modQueue q f).slogs = s.slogs := rfl
@[simp] theorem State.modQueue_txns (s : State) (q : Nat) (f : Queue → Queue) : (s.modQueue q f).txns = s.txns := rfl
@[simp] theorem State.modQueue_nextTag (s : State) (q : Nat) (f : Queue → Queue) : (s.modQueue q f).nextTag = s.nextTag := rfl
@[simp] theorem State.modQueue_nextSig (s : State) (q : Nat) (f : Queue → Queue) : (s.modQueue q f).nextSig = s.nextSig := rfl
@[simp] theorem State.modQueue_opids (s : State) (q : Nat) (f : Queue → Queue) : (s.modQueue q f).opids = s.opids := rfl
@[simp] theorem State.modQueue_winUse (s : State) (q : Nat) (f : Queue → Queue) : (s.modQueue q f).winUse = s.winUse := rfl
@[simp] theorem State.modQueue_nextPre (s : State) (q : Nat) (f : Queue → Queue) : (s.modQueue q f).nextPre = s.nextPre := rfl
@[simp] theorem State.modQueue_replays (s : State) (q : Nat) (f : Queue → Queue) : (s.modQueue q f).replays = s.replays := rfl
@[simp] theorem State.modQueue_dedup (s : State) (q : Nat) (f : Queue → Queue) : (s.modQueue q f).dedup = s.dedup := rfl
@[simp] theorem State.modQueue_dedupWait (s : State) (q : Nat) (f : Queue → Queue) : (s.modQueue q f).dedupWait = s.dedupWait := rfl
@[simp] theorem State.modQueue_sigs (s : State) (q : Nat) (f : Queue → Queue) : (s.modQueue q f).sigs = s.sigs := rfl
@[simp] theorem State.modQueue_heldReqs (s : State) (q : Nat) (f : Queue → Queue) : (s.modQueue q f).heldReqs = s.heldReqs := rfl
@[simp] theorem State.modQueue_c0Held (s : State) (q : Nat) (f : Queue → Queue) : (s.modQueue q f).c0Held = s.c0Held := rfl
@[simp] theorem State.modQueue_c0Last (s : State) (q : Nat) (f : Queue → Queue) : (s.modQueue q f).c0Last = s.c0Last := rfl
@[simp] theorem State.modQueue_hubTum (s : State) (q : Nat) (f : Queue → Queue) : (s.modQueue q f).hubTum = s.hubTum := rfl
@[simp] theorem State.modQueue_allocs (s : State) (q : Nat) (f : Queue → Queue) : (s.modQueue q f).allocs = s.allocs := rfl
@[simp] theorem State.modQueue_waiters (s : State) (q : Nat) (f : Queue → Queue) : (s.modQueue q f).waiters = s.waiters := rfl
@[simp] theorem State.modQueue_park (s : State) (q : Nat) (f : Queue → Queue) : (s.modQueue q f).park = s.park := rfl
@[simp] theorem State.modQueue_refused (s : State) (q : Nat) (f : Queue → Queue) : (s.modQueue q f).refused = s.refused := rfl
@[simp] theorem State.modQueue_tasks (s : State) (q : Nat) (f : Queue → Queue) : (s.modQueue q f).tasks = s.tasks := rfl
@[simp] theorem State.modQueue_nextTask (s : State) (q : Nat) (f : Queue → Queue) : (s.modQueue q f).nextTask = s.nextTask := rfl
@[simp] theorem State.modQueue_nextSeq (s : State) (q : Nat) (f : Queue → Queue) : (s.modQueue q f).nextSeq = s.nextSeq := rfl
@[simp] theorem State.modQueue_lastQ (s : State) (q : Nat) (f : Queue → Queue) : (s.modQueue q f).lastQ = s.lastQ := rfl
@[simp] theorem State.modQueue_hostOut (s : State) (q : Nat) (f : Queue → Queue) : (s.modQueue q f).hostOut = s.hostOut := rfl
@[simp] theorem State.modQueue_sideOut (s : State) (q : Nat) (f : Queue → Queue) : (s.modQueue q f).sideOut = s.sideOut := rfl
@[simp] theorem State.modQueue_faultq (s : State) (q : Nat) (f : Queue → Queue) : (s.modQueue q f).faultq = s.faultq := rfl
@[simp] theorem State.modQueue_faultWait (s : State) (q : Nat) (f : Queue → Queue) : (s.modQueue q f).faultWait = s.faultWait := rfl
@[simp] theorem State.modQueue_errSeq (s : State) (q : Nat) (f : Queue → Queue) : (s.modQueue q f).errSeq = s.errSeq := rfl
@[simp] theorem State.modQueue_lastIrq (s : State) (q : Nat) (f : Queue → Queue) : (s.modQueue q f).lastIrq = s.lastIrq := rfl
@[simp] theorem State.modQueue_irqDue (s : State) (q : Nat) (f : Queue → Queue) : (s.modQueue q f).irqDue = s.irqDue := rfl
@[simp] theorem State.modQueue_kvSeqs (s : State) (q : Nat) (f : Queue → Queue) : (s.modQueue q f).kvSeqs = s.kvSeqs := rfl
@[simp] theorem State.modQueue_kvPages (s : State) (q : Nat) (f : Queue → Queue) : (s.modQueue q f).kvPages = s.kvPages := rfl
@[simp] theorem State.modQueue_kvLazy (s : State) (q : Nat) (f : Queue → Queue) : (s.modQueue q f).kvLazy = s.kvLazy := rfl
@[simp] theorem State.modQueue_kvGeom (s : State) (q : Nat) (f : Queue → Queue) : (s.modQueue q f).kvGeom = s.kvGeom := rfl
@[simp] theorem State.modQueue_kvPoolLo (s : State) (q : Nat) (f : Queue → Queue) : (s.modQueue q f).kvPoolLo = s.kvPoolLo := rfl
@[simp] theorem State.modQueue_kvPoolHi (s : State) (q : Nat) (f : Queue → Queue) : (s.modQueue q f).kvPoolHi = s.kvPoolHi := rfl
@[simp] theorem State.modQueue_colls (s : State) (q : Nat) (f : Queue → Queue) : (s.modQueue q f).colls = s.colls := rfl
@[simp] theorem State.modQueue_store (s : State) (q : Nat) (f : Queue → Queue) : (s.modQueue q f).store = s.store := rfl
@[simp] theorem State.modQueue_triples (s : State) (q : Nat) (f : Queue → Queue) : (s.modQueue q f).triples = s.triples := rfl
@[simp] theorem State.modQueue_collWait (s : State) (q : Nat) (f : Queue → Queue) : (s.modQueue q f).collWait = s.collWait := rfl
@[simp] theorem State.modQueue_storeWait (s : State) (q : Nat) (f : Queue → Queue) : (s.modQueue q f).storeWait = s.storeWait := rfl
@[simp] theorem State.modQueue_held (s : State) (q : Nat) (f : Queue → Queue) : (s.modQueue q f).held = s.held := rfl
@[simp] theorem State.modQueue_nextBuf (s : State) (q : Nat) (f : Queue → Queue) : (s.modQueue q f).nextBuf = s.nextBuf := rfl
@[simp] theorem State.modQueue_hubIn (s : State) (q : Nat) (f : Queue → Queue) : (s.modQueue q f).hubIn = s.hubIn := rfl
@[simp] theorem State.modQueue_downLinks (s : State) (q : Nat) (f : Queue → Queue) : (s.modQueue q f).downLinks = s.downLinks := rfl
@[simp] theorem State.modQueue_lastDown (s : State) (q : Nat) (f : Queue → Queue) : (s.modQueue q f).lastDown = s.lastDown := rfl
@[simp] theorem State.modQueue_routable (s : State) (q : Nat) (f : Queue → Queue) : (s.modQueue q f).routable = s.routable := rfl
@[simp] theorem State.modQueue_compute (s : State) (q : Nat) (f : Queue → Queue) : (s.modQueue q f).compute = s.compute := rfl
@[simp] theorem State.modQueue_dirBits (s : State) (q : Nat) (f : Queue → Queue) : (s.modQueue q f).dirBits = s.dirBits := rfl
@[simp] theorem State.modQueue_padDue (s : State) (q : Nat) (f : Queue → Queue) : (s.modQueue q f).padDue = s.padDue := rfl
@[simp] theorem State.modQueue_partWait (s : State) (q : Nat) (f : Queue → Queue) : (s.modQueue q f).partWait = s.partWait := rfl
@[simp] theorem State.modQueue_jobIgnore (s : State) (q : Nat) (f : Queue → Queue) : (s.modQueue q f).jobIgnore = s.jobIgnore := rfl
@[simp] theorem State.modQueue_everUp (s : State) (q : Nat) (f : Queue → Queue) : (s.modQueue q f).everUp = s.everUp := rfl
@[simp] theorem State.modQueue_declSent (s : State) (q : Nat) (f : Queue → Queue) : (s.modQueue q f).declSent = s.declSent := rfl
@[simp] theorem State.modQueue_portsOff (s : State) (q : Nat) (f : Queue → Queue) : (s.modQueue q f).portsOff = s.portsOff := rfl
@[simp] theorem State.modQueue_ports (s : State) (q : Nat) (f : Queue → Queue) : (s.modQueue q f).ports = s.ports := rfl
@[simp] theorem State.modQueue_engines (s : State) (q : Nat) (f : Queue → Queue) : (s.modQueue q f).engines = s.engines := rfl
@[simp] theorem State.modQueue_leaves (s : State) (q : Nat) (f : Queue → Queue) : (s.modQueue q f).leaves = s.leaves := rfl
@[simp] theorem State.modQueue_chans (s : State) (q : Nat) (f : Queue → Queue) : (s.modQueue q f).chans = s.chans := rfl
@[simp] theorem State.modQueue_mboxes (s : State) (q : Nat) (f : Queue → Queue) : (s.modQueue q f).mboxes = s.mboxes := rfl
@[simp] theorem State.modQueue_goOrder (s : State) (q : Nat) (f : Queue → Queue) : (s.modQueue q f).goOrder = s.goOrder := rfl
@[simp] theorem State.modQueue_openAt (s : State) (q : Nat) (f : Queue → Queue) : (s.modQueue q f).openAt = s.openAt := rfl
@[simp] theorem State.modQueue_padAt (s : State) (q : Nat) (f : Queue → Queue) : (s.modQueue q f).padAt = s.padAt := rfl
@[simp] theorem State.modQueue_pairsOn (s : State) (q : Nat) (f : Queue → Queue) : (s.modQueue q f).pairsOn = s.pairsOn := rfl
@[simp] theorem State.modQueue_sensors (s : State) (q : Nat) (f : Queue → Queue) : (s.modQueue q f).sensors = s.sensors := rfl
@[simp] theorem State.modQueue_stretch (s : State) (q : Nat) (f : Queue → Queue) : (s.modQueue q f).stretch = s.stretch := rfl
@[simp] theorem State.modQueue_heat (s : State) (q : Nat) (f : Queue → Queue) : (s.modQueue q f).heat = s.heat := rfl
@[simp] theorem State.modQueue_steps (s : State) (q : Nat) (f : Queue → Queue) : (s.modQueue q f).steps = s.steps := rfl
@[simp] theorem State.modQueue_hubHot (s : State) (q : Nat) (f : Queue → Queue) : (s.modQueue q f).hubHot = s.hubHot := rfl
@[simp] theorem State.modQueue_capFell (s : State) (q : Nat) (f : Queue → Queue) : (s.modQueue q f).capFell = s.capFell := rfl
@[simp] theorem State.modQueue_charging (s : State) (q : Nat) (f : Queue → Queue) : (s.modQueue q f).charging = s.charging := rfl
@[simp] theorem State.modQueue_i3cAddr (s : State) (q : Nat) (f : Queue → Queue) : (s.modQueue q f).i3cAddr = s.i3cAddr := rfl
@[simp] theorem State.modQueue_i3cIndex (s : State) (q : Nat) (f : Queue → Queue) : (s.modQueue q f).i3cIndex = s.i3cIndex := rfl
@[simp] theorem State.modQueue_ibiOn (s : State) (q : Nat) (f : Queue → Queue) : (s.modQueue q f).ibiOn = s.ibiOn := rfl
@[simp] theorem State.modQueue_ibis (s : State) (q : Nat) (f : Queue → Queue) : (s.modQueue q f).ibis = s.ibis := rfl
@[simp] theorem State.modQueue_spdmVer (s : State) (q : Nat) (f : Queue → Queue) : (s.modQueue q f).spdmVer = s.spdmVer := rfl
@[simp] theorem State.modQueue_spdmAlgs (s : State) (q : Nat) (f : Queue → Queue) : (s.modQueue q f).spdmAlgs = s.spdmAlgs := rfl
@[simp] theorem State.modQueue_spdmLog (s : State) (q : Nat) (f : Queue → Queue) : (s.modQueue q f).spdmLog = s.spdmLog := rfl
@[simp] theorem State.modQueue_taps (s : State) (q : Nat) (f : Queue → Queue) : (s.modQueue q f).taps = s.taps := rfl
@[simp] theorem State.modQueue_testLow (s : State) (q : Nat) (f : Queue → Queue) : (s.modQueue q f).testLow = s.testLow := rfl

/-! `State.modEngine` -/

@[simp] theorem State.modEngine_pending (s : State) (e : Nat) (f : Engine → Engine) : (s.modEngine e f).pending = s.pending := rfl
@[simp] theorem State.modEngine_clock (s : State) (e : Nat) (f : Engine → Engine) : (s.modEngine e f).clock = s.clock := rfl
@[simp] theorem State.modEngine_freeCtr (s : State) (e : Nat) (f : Engine → Engine) : (s.modEngine e f).freeCtr = s.freeCtr := rfl
@[simp] theorem State.modEngine_rackTime (s : State) (e : Nat) (f : Engine → Engine) : (s.modEngine e f).rackTime = s.rackTime := rfl
@[simp] theorem State.modEngine_rackHold (s : State) (e : Nat) (f : Engine → Engine) : (s.modEngine e f).rackHold = s.rackHold := rfl
@[simp] theorem State.modEngine_rackSlew (s : State) (e : Nat) (f : Engine → Engine) : (s.modEngine e f).rackSlew = s.rackSlew := rfl
@[simp] theorem State.modEngine_timeGood (s : State) (e : Nat) (f : Engine → Engine) : (s.modEngine e f).timeGood = s.timeGood := rfl
@[simp] theorem State.modEngine_regs (s : State) (e : Nat) (f : Engine → Engine) : (s.modEngine e f).regs = s.regs := rfl
@[simp] theorem State.modEngine_sub (s : State) (e : Nat) (f : Engine → Engine) : (s.modEngine e f).sub = s.sub := rfl
@[simp] theorem State.modEngine_lag (s : State) (e : Nat) (f : Engine → Engine) : (s.modEngine e f).lag = s.lag := rfl
@[simp] theorem State.modEngine_prsnt (s : State) (e : Nat) (f : Engine → Engine) : (s.modEngine e f).prsnt = s.prsnt := rfl
@[simp] theorem State.modEngine_perst (s : State) (e : Nat) (f : Engine → Engine) : (s.modEngine e f).perst = s.perst := rfl
@[simp] theorem State.modEngine_powered (s : State) (e : Nat) (f : Engine → Engine) : (s.modEngine e f).powered = s.powered := rfl
@[simp] theorem State.modEngine_input (s : State) (e : Nat) (f : Engine → Engine) : (s.modEngine e f).input = s.input := rfl
@[simp] theorem State.modEngine_volt (s : State) (e : Nat) (f : Engine → Engine) : (s.modEngine e f).volt = s.volt := rfl
@[simp] theorem State.modEngine_straps (s : State) (e : Nat) (f : Engine → Engine) : (s.modEngine e f).straps = s.straps := rfl
@[simp] theorem State.modEngine_strapsDue (s : State) (e : Nat) (f : Engine → Engine) : (s.modEngine e f).strapsDue = s.strapsDue := rfl
@[simp] theorem State.modEngine_fru (s : State) (e : Nat) (f : Engine → Engine) : (s.modEngine e f).fru = s.fru := rfl
@[simp] theorem State.modEngine_flash (s : State) (e : Nat) (f : Engine → Engine) : (s.modEngine e f).flash = s.flash := rfl
@[simp] theorem State.modEngine_fuses (s : State) (e : Nat) (f : Engine → Engine) : (s.modEngine e f).fuses = s.fuses := rfl
@[simp] theorem State.modEngine_meas (s : State) (e : Nat) (f : Engine → Engine) : (s.modEngine e f).meas = s.meas := rfl
@[simp] theorem State.modEngine_config (s : State) (e : Nat) (f : Engine → Engine) : (s.modEngine e f).config = s.config := rfl
@[simp] theorem State.modEngine_failed (s : State) (e : Nat) (f : Engine → Engine) : (s.modEngine e f).failed = s.failed := rfl
@[simp] theorem State.modEngine_cores (s : State) (e : Nat) (f : Engine → Engine) : (s.modEngine e f).cores = s.cores := rfl
@[simp] theorem State.modEngine_hm (s : State) (e : Nat) (f : Engine → Engine) : (s.modEngine e f).hm = s.hm := rfl
@[simp] theorem State.modEngine_hmBad (s : State) (e : Nat) (f : Engine → Engine) : (s.modEngine e f).hmBad = s.hmBad := rfl
@[simp] theorem State.modEngine_lm (s : State) (e : Nat) (f : Engine → Engine) : (s.modEngine e f).lm = s.lm := rfl
@[simp] theorem State.modEngine_lmPoison (s : State) (e : Nat) (f : Engine → Engine) : (s.modEngine e f).lmPoison = s.lmPoison := rfl
@[simp] theorem State.modEngine_cache (s : State) (e : Nat) (f : Engine → Engine) : (s.modEngine e f).cache = s.cache := rfl
@[simp] theorem State.modEngine_slogRing (s : State) (e : Nat) (f : Engine → Engine) : (s.modEngine e f).slogRing = s.slogRing := rfl
@[simp] theorem State.modEngine_slogs (s : State) (e : Nat) (f : Engine → Engine) : (s.modEngine e f).slogs = s.slogs := rfl
@[simp] theorem State.modEngine_txns (s : State) (e : Nat) (f : Engine → Engine) : (s.modEngine e f).txns = s.txns := rfl
@[simp] theorem State.modEngine_nextTag (s : State) (e : Nat) (f : Engine → Engine) : (s.modEngine e f).nextTag = s.nextTag := rfl
@[simp] theorem State.modEngine_nextSig (s : State) (e : Nat) (f : Engine → Engine) : (s.modEngine e f).nextSig = s.nextSig := rfl
@[simp] theorem State.modEngine_opids (s : State) (e : Nat) (f : Engine → Engine) : (s.modEngine e f).opids = s.opids := rfl
@[simp] theorem State.modEngine_winUse (s : State) (e : Nat) (f : Engine → Engine) : (s.modEngine e f).winUse = s.winUse := rfl
@[simp] theorem State.modEngine_nextPre (s : State) (e : Nat) (f : Engine → Engine) : (s.modEngine e f).nextPre = s.nextPre := rfl
@[simp] theorem State.modEngine_replays (s : State) (e : Nat) (f : Engine → Engine) : (s.modEngine e f).replays = s.replays := rfl
@[simp] theorem State.modEngine_dedup (s : State) (e : Nat) (f : Engine → Engine) : (s.modEngine e f).dedup = s.dedup := rfl
@[simp] theorem State.modEngine_dedupWait (s : State) (e : Nat) (f : Engine → Engine) : (s.modEngine e f).dedupWait = s.dedupWait := rfl
@[simp] theorem State.modEngine_sigs (s : State) (e : Nat) (f : Engine → Engine) : (s.modEngine e f).sigs = s.sigs := rfl
@[simp] theorem State.modEngine_heldReqs (s : State) (e : Nat) (f : Engine → Engine) : (s.modEngine e f).heldReqs = s.heldReqs := rfl
@[simp] theorem State.modEngine_c0Held (s : State) (e : Nat) (f : Engine → Engine) : (s.modEngine e f).c0Held = s.c0Held := rfl
@[simp] theorem State.modEngine_c0Last (s : State) (e : Nat) (f : Engine → Engine) : (s.modEngine e f).c0Last = s.c0Last := rfl
@[simp] theorem State.modEngine_hubTum (s : State) (e : Nat) (f : Engine → Engine) : (s.modEngine e f).hubTum = s.hubTum := rfl
@[simp] theorem State.modEngine_allocs (s : State) (e : Nat) (f : Engine → Engine) : (s.modEngine e f).allocs = s.allocs := rfl
@[simp] theorem State.modEngine_waiters (s : State) (e : Nat) (f : Engine → Engine) : (s.modEngine e f).waiters = s.waiters := rfl
@[simp] theorem State.modEngine_park (s : State) (e : Nat) (f : Engine → Engine) : (s.modEngine e f).park = s.park := rfl
@[simp] theorem State.modEngine_refused (s : State) (e : Nat) (f : Engine → Engine) : (s.modEngine e f).refused = s.refused := rfl
@[simp] theorem State.modEngine_tasks (s : State) (e : Nat) (f : Engine → Engine) : (s.modEngine e f).tasks = s.tasks := rfl
@[simp] theorem State.modEngine_nextTask (s : State) (e : Nat) (f : Engine → Engine) : (s.modEngine e f).nextTask = s.nextTask := rfl
@[simp] theorem State.modEngine_nextSeq (s : State) (e : Nat) (f : Engine → Engine) : (s.modEngine e f).nextSeq = s.nextSeq := rfl
@[simp] theorem State.modEngine_queues (s : State) (e : Nat) (f : Engine → Engine) : (s.modEngine e f).queues = s.queues := rfl
@[simp] theorem State.modEngine_lastQ (s : State) (e : Nat) (f : Engine → Engine) : (s.modEngine e f).lastQ = s.lastQ := rfl
@[simp] theorem State.modEngine_hostOut (s : State) (e : Nat) (f : Engine → Engine) : (s.modEngine e f).hostOut = s.hostOut := rfl
@[simp] theorem State.modEngine_sideOut (s : State) (e : Nat) (f : Engine → Engine) : (s.modEngine e f).sideOut = s.sideOut := rfl
@[simp] theorem State.modEngine_faultq (s : State) (e : Nat) (f : Engine → Engine) : (s.modEngine e f).faultq = s.faultq := rfl
@[simp] theorem State.modEngine_faultWait (s : State) (e : Nat) (f : Engine → Engine) : (s.modEngine e f).faultWait = s.faultWait := rfl
@[simp] theorem State.modEngine_errSeq (s : State) (e : Nat) (f : Engine → Engine) : (s.modEngine e f).errSeq = s.errSeq := rfl
@[simp] theorem State.modEngine_lastIrq (s : State) (e : Nat) (f : Engine → Engine) : (s.modEngine e f).lastIrq = s.lastIrq := rfl
@[simp] theorem State.modEngine_irqDue (s : State) (e : Nat) (f : Engine → Engine) : (s.modEngine e f).irqDue = s.irqDue := rfl
@[simp] theorem State.modEngine_kvSeqs (s : State) (e : Nat) (f : Engine → Engine) : (s.modEngine e f).kvSeqs = s.kvSeqs := rfl
@[simp] theorem State.modEngine_kvPages (s : State) (e : Nat) (f : Engine → Engine) : (s.modEngine e f).kvPages = s.kvPages := rfl
@[simp] theorem State.modEngine_kvLazy (s : State) (e : Nat) (f : Engine → Engine) : (s.modEngine e f).kvLazy = s.kvLazy := rfl
@[simp] theorem State.modEngine_kvGeom (s : State) (e : Nat) (f : Engine → Engine) : (s.modEngine e f).kvGeom = s.kvGeom := rfl
@[simp] theorem State.modEngine_kvPoolLo (s : State) (e : Nat) (f : Engine → Engine) : (s.modEngine e f).kvPoolLo = s.kvPoolLo := rfl
@[simp] theorem State.modEngine_kvPoolHi (s : State) (e : Nat) (f : Engine → Engine) : (s.modEngine e f).kvPoolHi = s.kvPoolHi := rfl
@[simp] theorem State.modEngine_colls (s : State) (e : Nat) (f : Engine → Engine) : (s.modEngine e f).colls = s.colls := rfl
@[simp] theorem State.modEngine_store (s : State) (e : Nat) (f : Engine → Engine) : (s.modEngine e f).store = s.store := rfl
@[simp] theorem State.modEngine_triples (s : State) (e : Nat) (f : Engine → Engine) : (s.modEngine e f).triples = s.triples := rfl
@[simp] theorem State.modEngine_collWait (s : State) (e : Nat) (f : Engine → Engine) : (s.modEngine e f).collWait = s.collWait := rfl
@[simp] theorem State.modEngine_storeWait (s : State) (e : Nat) (f : Engine → Engine) : (s.modEngine e f).storeWait = s.storeWait := rfl
@[simp] theorem State.modEngine_held (s : State) (e : Nat) (f : Engine → Engine) : (s.modEngine e f).held = s.held := rfl
@[simp] theorem State.modEngine_nextBuf (s : State) (e : Nat) (f : Engine → Engine) : (s.modEngine e f).nextBuf = s.nextBuf := rfl
@[simp] theorem State.modEngine_hubIn (s : State) (e : Nat) (f : Engine → Engine) : (s.modEngine e f).hubIn = s.hubIn := rfl
@[simp] theorem State.modEngine_downLinks (s : State) (e : Nat) (f : Engine → Engine) : (s.modEngine e f).downLinks = s.downLinks := rfl
@[simp] theorem State.modEngine_lastDown (s : State) (e : Nat) (f : Engine → Engine) : (s.modEngine e f).lastDown = s.lastDown := rfl
@[simp] theorem State.modEngine_routable (s : State) (e : Nat) (f : Engine → Engine) : (s.modEngine e f).routable = s.routable := rfl
@[simp] theorem State.modEngine_compute (s : State) (e : Nat) (f : Engine → Engine) : (s.modEngine e f).compute = s.compute := rfl
@[simp] theorem State.modEngine_dirBits (s : State) (e : Nat) (f : Engine → Engine) : (s.modEngine e f).dirBits = s.dirBits := rfl
@[simp] theorem State.modEngine_padDue (s : State) (e : Nat) (f : Engine → Engine) : (s.modEngine e f).padDue = s.padDue := rfl
@[simp] theorem State.modEngine_partWait (s : State) (e : Nat) (f : Engine → Engine) : (s.modEngine e f).partWait = s.partWait := rfl
@[simp] theorem State.modEngine_jobIgnore (s : State) (e : Nat) (f : Engine → Engine) : (s.modEngine e f).jobIgnore = s.jobIgnore := rfl
@[simp] theorem State.modEngine_everUp (s : State) (e : Nat) (f : Engine → Engine) : (s.modEngine e f).everUp = s.everUp := rfl
@[simp] theorem State.modEngine_declSent (s : State) (e : Nat) (f : Engine → Engine) : (s.modEngine e f).declSent = s.declSent := rfl
@[simp] theorem State.modEngine_portsOff (s : State) (e : Nat) (f : Engine → Engine) : (s.modEngine e f).portsOff = s.portsOff := rfl
@[simp] theorem State.modEngine_ports (s : State) (e : Nat) (f : Engine → Engine) : (s.modEngine e f).ports = s.ports := rfl
@[simp] theorem State.modEngine_leaves (s : State) (e : Nat) (f : Engine → Engine) : (s.modEngine e f).leaves = s.leaves := rfl
@[simp] theorem State.modEngine_chans (s : State) (e : Nat) (f : Engine → Engine) : (s.modEngine e f).chans = s.chans := rfl
@[simp] theorem State.modEngine_mboxes (s : State) (e : Nat) (f : Engine → Engine) : (s.modEngine e f).mboxes = s.mboxes := rfl
@[simp] theorem State.modEngine_goOrder (s : State) (e : Nat) (f : Engine → Engine) : (s.modEngine e f).goOrder = s.goOrder := rfl
@[simp] theorem State.modEngine_openAt (s : State) (e : Nat) (f : Engine → Engine) : (s.modEngine e f).openAt = s.openAt := rfl
@[simp] theorem State.modEngine_padAt (s : State) (e : Nat) (f : Engine → Engine) : (s.modEngine e f).padAt = s.padAt := rfl
@[simp] theorem State.modEngine_pairsOn (s : State) (e : Nat) (f : Engine → Engine) : (s.modEngine e f).pairsOn = s.pairsOn := rfl
@[simp] theorem State.modEngine_sensors (s : State) (e : Nat) (f : Engine → Engine) : (s.modEngine e f).sensors = s.sensors := rfl
@[simp] theorem State.modEngine_stretch (s : State) (e : Nat) (f : Engine → Engine) : (s.modEngine e f).stretch = s.stretch := rfl
@[simp] theorem State.modEngine_heat (s : State) (e : Nat) (f : Engine → Engine) : (s.modEngine e f).heat = s.heat := rfl
@[simp] theorem State.modEngine_steps (s : State) (e : Nat) (f : Engine → Engine) : (s.modEngine e f).steps = s.steps := rfl
@[simp] theorem State.modEngine_hubHot (s : State) (e : Nat) (f : Engine → Engine) : (s.modEngine e f).hubHot = s.hubHot := rfl
@[simp] theorem State.modEngine_capFell (s : State) (e : Nat) (f : Engine → Engine) : (s.modEngine e f).capFell = s.capFell := rfl
@[simp] theorem State.modEngine_charging (s : State) (e : Nat) (f : Engine → Engine) : (s.modEngine e f).charging = s.charging := rfl
@[simp] theorem State.modEngine_i3cAddr (s : State) (e : Nat) (f : Engine → Engine) : (s.modEngine e f).i3cAddr = s.i3cAddr := rfl
@[simp] theorem State.modEngine_i3cIndex (s : State) (e : Nat) (f : Engine → Engine) : (s.modEngine e f).i3cIndex = s.i3cIndex := rfl
@[simp] theorem State.modEngine_ibiOn (s : State) (e : Nat) (f : Engine → Engine) : (s.modEngine e f).ibiOn = s.ibiOn := rfl
@[simp] theorem State.modEngine_ibis (s : State) (e : Nat) (f : Engine → Engine) : (s.modEngine e f).ibis = s.ibis := rfl
@[simp] theorem State.modEngine_spdmVer (s : State) (e : Nat) (f : Engine → Engine) : (s.modEngine e f).spdmVer = s.spdmVer := rfl
@[simp] theorem State.modEngine_spdmAlgs (s : State) (e : Nat) (f : Engine → Engine) : (s.modEngine e f).spdmAlgs = s.spdmAlgs := rfl
@[simp] theorem State.modEngine_spdmLog (s : State) (e : Nat) (f : Engine → Engine) : (s.modEngine e f).spdmLog = s.spdmLog := rfl
@[simp] theorem State.modEngine_taps (s : State) (e : Nat) (f : Engine → Engine) : (s.modEngine e f).taps = s.taps := rfl
@[simp] theorem State.modEngine_testLow (s : State) (e : Nat) (f : Engine → Engine) : (s.modEngine e f).testLow = s.testLow := rfl

/-! `State.modLeaf` -/

@[simp] theorem State.modLeaf_pending (s : State) (l : Nat) (f : Leaf → Leaf) : (s.modLeaf l f).pending = s.pending := rfl
@[simp] theorem State.modLeaf_clock (s : State) (l : Nat) (f : Leaf → Leaf) : (s.modLeaf l f).clock = s.clock := rfl
@[simp] theorem State.modLeaf_freeCtr (s : State) (l : Nat) (f : Leaf → Leaf) : (s.modLeaf l f).freeCtr = s.freeCtr := rfl
@[simp] theorem State.modLeaf_rackTime (s : State) (l : Nat) (f : Leaf → Leaf) : (s.modLeaf l f).rackTime = s.rackTime := rfl
@[simp] theorem State.modLeaf_rackHold (s : State) (l : Nat) (f : Leaf → Leaf) : (s.modLeaf l f).rackHold = s.rackHold := rfl
@[simp] theorem State.modLeaf_rackSlew (s : State) (l : Nat) (f : Leaf → Leaf) : (s.modLeaf l f).rackSlew = s.rackSlew := rfl
@[simp] theorem State.modLeaf_timeGood (s : State) (l : Nat) (f : Leaf → Leaf) : (s.modLeaf l f).timeGood = s.timeGood := rfl
@[simp] theorem State.modLeaf_regs (s : State) (l : Nat) (f : Leaf → Leaf) : (s.modLeaf l f).regs = s.regs := rfl
@[simp] theorem State.modLeaf_sub (s : State) (l : Nat) (f : Leaf → Leaf) : (s.modLeaf l f).sub = s.sub := rfl
@[simp] theorem State.modLeaf_lag (s : State) (l : Nat) (f : Leaf → Leaf) : (s.modLeaf l f).lag = s.lag := rfl
@[simp] theorem State.modLeaf_prsnt (s : State) (l : Nat) (f : Leaf → Leaf) : (s.modLeaf l f).prsnt = s.prsnt := rfl
@[simp] theorem State.modLeaf_perst (s : State) (l : Nat) (f : Leaf → Leaf) : (s.modLeaf l f).perst = s.perst := rfl
@[simp] theorem State.modLeaf_powered (s : State) (l : Nat) (f : Leaf → Leaf) : (s.modLeaf l f).powered = s.powered := rfl
@[simp] theorem State.modLeaf_input (s : State) (l : Nat) (f : Leaf → Leaf) : (s.modLeaf l f).input = s.input := rfl
@[simp] theorem State.modLeaf_volt (s : State) (l : Nat) (f : Leaf → Leaf) : (s.modLeaf l f).volt = s.volt := rfl
@[simp] theorem State.modLeaf_straps (s : State) (l : Nat) (f : Leaf → Leaf) : (s.modLeaf l f).straps = s.straps := rfl
@[simp] theorem State.modLeaf_strapsDue (s : State) (l : Nat) (f : Leaf → Leaf) : (s.modLeaf l f).strapsDue = s.strapsDue := rfl
@[simp] theorem State.modLeaf_fru (s : State) (l : Nat) (f : Leaf → Leaf) : (s.modLeaf l f).fru = s.fru := rfl
@[simp] theorem State.modLeaf_flash (s : State) (l : Nat) (f : Leaf → Leaf) : (s.modLeaf l f).flash = s.flash := rfl
@[simp] theorem State.modLeaf_fuses (s : State) (l : Nat) (f : Leaf → Leaf) : (s.modLeaf l f).fuses = s.fuses := rfl
@[simp] theorem State.modLeaf_meas (s : State) (l : Nat) (f : Leaf → Leaf) : (s.modLeaf l f).meas = s.meas := rfl
@[simp] theorem State.modLeaf_config (s : State) (l : Nat) (f : Leaf → Leaf) : (s.modLeaf l f).config = s.config := rfl
@[simp] theorem State.modLeaf_failed (s : State) (l : Nat) (f : Leaf → Leaf) : (s.modLeaf l f).failed = s.failed := rfl
@[simp] theorem State.modLeaf_cores (s : State) (l : Nat) (f : Leaf → Leaf) : (s.modLeaf l f).cores = s.cores := rfl
@[simp] theorem State.modLeaf_hm (s : State) (l : Nat) (f : Leaf → Leaf) : (s.modLeaf l f).hm = s.hm := rfl
@[simp] theorem State.modLeaf_hmBad (s : State) (l : Nat) (f : Leaf → Leaf) : (s.modLeaf l f).hmBad = s.hmBad := rfl
@[simp] theorem State.modLeaf_lm (s : State) (l : Nat) (f : Leaf → Leaf) : (s.modLeaf l f).lm = s.lm := rfl
@[simp] theorem State.modLeaf_lmPoison (s : State) (l : Nat) (f : Leaf → Leaf) : (s.modLeaf l f).lmPoison = s.lmPoison := rfl
@[simp] theorem State.modLeaf_cache (s : State) (l : Nat) (f : Leaf → Leaf) : (s.modLeaf l f).cache = s.cache := rfl
@[simp] theorem State.modLeaf_slogRing (s : State) (l : Nat) (f : Leaf → Leaf) : (s.modLeaf l f).slogRing = s.slogRing := rfl
@[simp] theorem State.modLeaf_slogs (s : State) (l : Nat) (f : Leaf → Leaf) : (s.modLeaf l f).slogs = s.slogs := rfl
@[simp] theorem State.modLeaf_txns (s : State) (l : Nat) (f : Leaf → Leaf) : (s.modLeaf l f).txns = s.txns := rfl
@[simp] theorem State.modLeaf_nextTag (s : State) (l : Nat) (f : Leaf → Leaf) : (s.modLeaf l f).nextTag = s.nextTag := rfl
@[simp] theorem State.modLeaf_nextSig (s : State) (l : Nat) (f : Leaf → Leaf) : (s.modLeaf l f).nextSig = s.nextSig := rfl
@[simp] theorem State.modLeaf_opids (s : State) (l : Nat) (f : Leaf → Leaf) : (s.modLeaf l f).opids = s.opids := rfl
@[simp] theorem State.modLeaf_winUse (s : State) (l : Nat) (f : Leaf → Leaf) : (s.modLeaf l f).winUse = s.winUse := rfl
@[simp] theorem State.modLeaf_nextPre (s : State) (l : Nat) (f : Leaf → Leaf) : (s.modLeaf l f).nextPre = s.nextPre := rfl
@[simp] theorem State.modLeaf_replays (s : State) (l : Nat) (f : Leaf → Leaf) : (s.modLeaf l f).replays = s.replays := rfl
@[simp] theorem State.modLeaf_dedup (s : State) (l : Nat) (f : Leaf → Leaf) : (s.modLeaf l f).dedup = s.dedup := rfl
@[simp] theorem State.modLeaf_dedupWait (s : State) (l : Nat) (f : Leaf → Leaf) : (s.modLeaf l f).dedupWait = s.dedupWait := rfl
@[simp] theorem State.modLeaf_sigs (s : State) (l : Nat) (f : Leaf → Leaf) : (s.modLeaf l f).sigs = s.sigs := rfl
@[simp] theorem State.modLeaf_heldReqs (s : State) (l : Nat) (f : Leaf → Leaf) : (s.modLeaf l f).heldReqs = s.heldReqs := rfl
@[simp] theorem State.modLeaf_c0Held (s : State) (l : Nat) (f : Leaf → Leaf) : (s.modLeaf l f).c0Held = s.c0Held := rfl
@[simp] theorem State.modLeaf_c0Last (s : State) (l : Nat) (f : Leaf → Leaf) : (s.modLeaf l f).c0Last = s.c0Last := rfl
@[simp] theorem State.modLeaf_hubTum (s : State) (l : Nat) (f : Leaf → Leaf) : (s.modLeaf l f).hubTum = s.hubTum := rfl
@[simp] theorem State.modLeaf_allocs (s : State) (l : Nat) (f : Leaf → Leaf) : (s.modLeaf l f).allocs = s.allocs := rfl
@[simp] theorem State.modLeaf_waiters (s : State) (l : Nat) (f : Leaf → Leaf) : (s.modLeaf l f).waiters = s.waiters := rfl
@[simp] theorem State.modLeaf_park (s : State) (l : Nat) (f : Leaf → Leaf) : (s.modLeaf l f).park = s.park := rfl
@[simp] theorem State.modLeaf_refused (s : State) (l : Nat) (f : Leaf → Leaf) : (s.modLeaf l f).refused = s.refused := rfl
@[simp] theorem State.modLeaf_tasks (s : State) (l : Nat) (f : Leaf → Leaf) : (s.modLeaf l f).tasks = s.tasks := rfl
@[simp] theorem State.modLeaf_nextTask (s : State) (l : Nat) (f : Leaf → Leaf) : (s.modLeaf l f).nextTask = s.nextTask := rfl
@[simp] theorem State.modLeaf_nextSeq (s : State) (l : Nat) (f : Leaf → Leaf) : (s.modLeaf l f).nextSeq = s.nextSeq := rfl
@[simp] theorem State.modLeaf_queues (s : State) (l : Nat) (f : Leaf → Leaf) : (s.modLeaf l f).queues = s.queues := rfl
@[simp] theorem State.modLeaf_lastQ (s : State) (l : Nat) (f : Leaf → Leaf) : (s.modLeaf l f).lastQ = s.lastQ := rfl
@[simp] theorem State.modLeaf_hostOut (s : State) (l : Nat) (f : Leaf → Leaf) : (s.modLeaf l f).hostOut = s.hostOut := rfl
@[simp] theorem State.modLeaf_sideOut (s : State) (l : Nat) (f : Leaf → Leaf) : (s.modLeaf l f).sideOut = s.sideOut := rfl
@[simp] theorem State.modLeaf_faultq (s : State) (l : Nat) (f : Leaf → Leaf) : (s.modLeaf l f).faultq = s.faultq := rfl
@[simp] theorem State.modLeaf_faultWait (s : State) (l : Nat) (f : Leaf → Leaf) : (s.modLeaf l f).faultWait = s.faultWait := rfl
@[simp] theorem State.modLeaf_errSeq (s : State) (l : Nat) (f : Leaf → Leaf) : (s.modLeaf l f).errSeq = s.errSeq := rfl
@[simp] theorem State.modLeaf_lastIrq (s : State) (l : Nat) (f : Leaf → Leaf) : (s.modLeaf l f).lastIrq = s.lastIrq := rfl
@[simp] theorem State.modLeaf_irqDue (s : State) (l : Nat) (f : Leaf → Leaf) : (s.modLeaf l f).irqDue = s.irqDue := rfl
@[simp] theorem State.modLeaf_kvSeqs (s : State) (l : Nat) (f : Leaf → Leaf) : (s.modLeaf l f).kvSeqs = s.kvSeqs := rfl
@[simp] theorem State.modLeaf_kvPages (s : State) (l : Nat) (f : Leaf → Leaf) : (s.modLeaf l f).kvPages = s.kvPages := rfl
@[simp] theorem State.modLeaf_kvLazy (s : State) (l : Nat) (f : Leaf → Leaf) : (s.modLeaf l f).kvLazy = s.kvLazy := rfl
@[simp] theorem State.modLeaf_kvGeom (s : State) (l : Nat) (f : Leaf → Leaf) : (s.modLeaf l f).kvGeom = s.kvGeom := rfl
@[simp] theorem State.modLeaf_kvPoolLo (s : State) (l : Nat) (f : Leaf → Leaf) : (s.modLeaf l f).kvPoolLo = s.kvPoolLo := rfl
@[simp] theorem State.modLeaf_kvPoolHi (s : State) (l : Nat) (f : Leaf → Leaf) : (s.modLeaf l f).kvPoolHi = s.kvPoolHi := rfl
@[simp] theorem State.modLeaf_colls (s : State) (l : Nat) (f : Leaf → Leaf) : (s.modLeaf l f).colls = s.colls := rfl
@[simp] theorem State.modLeaf_store (s : State) (l : Nat) (f : Leaf → Leaf) : (s.modLeaf l f).store = s.store := rfl
@[simp] theorem State.modLeaf_triples (s : State) (l : Nat) (f : Leaf → Leaf) : (s.modLeaf l f).triples = s.triples := rfl
@[simp] theorem State.modLeaf_collWait (s : State) (l : Nat) (f : Leaf → Leaf) : (s.modLeaf l f).collWait = s.collWait := rfl
@[simp] theorem State.modLeaf_storeWait (s : State) (l : Nat) (f : Leaf → Leaf) : (s.modLeaf l f).storeWait = s.storeWait := rfl
@[simp] theorem State.modLeaf_held (s : State) (l : Nat) (f : Leaf → Leaf) : (s.modLeaf l f).held = s.held := rfl
@[simp] theorem State.modLeaf_nextBuf (s : State) (l : Nat) (f : Leaf → Leaf) : (s.modLeaf l f).nextBuf = s.nextBuf := rfl
@[simp] theorem State.modLeaf_hubIn (s : State) (l : Nat) (f : Leaf → Leaf) : (s.modLeaf l f).hubIn = s.hubIn := rfl
@[simp] theorem State.modLeaf_downLinks (s : State) (l : Nat) (f : Leaf → Leaf) : (s.modLeaf l f).downLinks = s.downLinks := rfl
@[simp] theorem State.modLeaf_lastDown (s : State) (l : Nat) (f : Leaf → Leaf) : (s.modLeaf l f).lastDown = s.lastDown := rfl
@[simp] theorem State.modLeaf_routable (s : State) (l : Nat) (f : Leaf → Leaf) : (s.modLeaf l f).routable = s.routable := rfl
@[simp] theorem State.modLeaf_compute (s : State) (l : Nat) (f : Leaf → Leaf) : (s.modLeaf l f).compute = s.compute := rfl
@[simp] theorem State.modLeaf_dirBits (s : State) (l : Nat) (f : Leaf → Leaf) : (s.modLeaf l f).dirBits = s.dirBits := rfl
@[simp] theorem State.modLeaf_padDue (s : State) (l : Nat) (f : Leaf → Leaf) : (s.modLeaf l f).padDue = s.padDue := rfl
@[simp] theorem State.modLeaf_partWait (s : State) (l : Nat) (f : Leaf → Leaf) : (s.modLeaf l f).partWait = s.partWait := rfl
@[simp] theorem State.modLeaf_jobIgnore (s : State) (l : Nat) (f : Leaf → Leaf) : (s.modLeaf l f).jobIgnore = s.jobIgnore := rfl
@[simp] theorem State.modLeaf_everUp (s : State) (l : Nat) (f : Leaf → Leaf) : (s.modLeaf l f).everUp = s.everUp := rfl
@[simp] theorem State.modLeaf_declSent (s : State) (l : Nat) (f : Leaf → Leaf) : (s.modLeaf l f).declSent = s.declSent := rfl
@[simp] theorem State.modLeaf_portsOff (s : State) (l : Nat) (f : Leaf → Leaf) : (s.modLeaf l f).portsOff = s.portsOff := rfl
@[simp] theorem State.modLeaf_ports (s : State) (l : Nat) (f : Leaf → Leaf) : (s.modLeaf l f).ports = s.ports := rfl
@[simp] theorem State.modLeaf_engines (s : State) (l : Nat) (f : Leaf → Leaf) : (s.modLeaf l f).engines = s.engines := rfl
@[simp] theorem State.modLeaf_chans (s : State) (l : Nat) (f : Leaf → Leaf) : (s.modLeaf l f).chans = s.chans := rfl
@[simp] theorem State.modLeaf_mboxes (s : State) (l : Nat) (f : Leaf → Leaf) : (s.modLeaf l f).mboxes = s.mboxes := rfl
@[simp] theorem State.modLeaf_goOrder (s : State) (l : Nat) (f : Leaf → Leaf) : (s.modLeaf l f).goOrder = s.goOrder := rfl
@[simp] theorem State.modLeaf_openAt (s : State) (l : Nat) (f : Leaf → Leaf) : (s.modLeaf l f).openAt = s.openAt := rfl
@[simp] theorem State.modLeaf_padAt (s : State) (l : Nat) (f : Leaf → Leaf) : (s.modLeaf l f).padAt = s.padAt := rfl
@[simp] theorem State.modLeaf_pairsOn (s : State) (l : Nat) (f : Leaf → Leaf) : (s.modLeaf l f).pairsOn = s.pairsOn := rfl
@[simp] theorem State.modLeaf_sensors (s : State) (l : Nat) (f : Leaf → Leaf) : (s.modLeaf l f).sensors = s.sensors := rfl
@[simp] theorem State.modLeaf_stretch (s : State) (l : Nat) (f : Leaf → Leaf) : (s.modLeaf l f).stretch = s.stretch := rfl
@[simp] theorem State.modLeaf_heat (s : State) (l : Nat) (f : Leaf → Leaf) : (s.modLeaf l f).heat = s.heat := rfl
@[simp] theorem State.modLeaf_steps (s : State) (l : Nat) (f : Leaf → Leaf) : (s.modLeaf l f).steps = s.steps := rfl
@[simp] theorem State.modLeaf_hubHot (s : State) (l : Nat) (f : Leaf → Leaf) : (s.modLeaf l f).hubHot = s.hubHot := rfl
@[simp] theorem State.modLeaf_capFell (s : State) (l : Nat) (f : Leaf → Leaf) : (s.modLeaf l f).capFell = s.capFell := rfl
@[simp] theorem State.modLeaf_charging (s : State) (l : Nat) (f : Leaf → Leaf) : (s.modLeaf l f).charging = s.charging := rfl
@[simp] theorem State.modLeaf_i3cAddr (s : State) (l : Nat) (f : Leaf → Leaf) : (s.modLeaf l f).i3cAddr = s.i3cAddr := rfl
@[simp] theorem State.modLeaf_i3cIndex (s : State) (l : Nat) (f : Leaf → Leaf) : (s.modLeaf l f).i3cIndex = s.i3cIndex := rfl
@[simp] theorem State.modLeaf_ibiOn (s : State) (l : Nat) (f : Leaf → Leaf) : (s.modLeaf l f).ibiOn = s.ibiOn := rfl
@[simp] theorem State.modLeaf_ibis (s : State) (l : Nat) (f : Leaf → Leaf) : (s.modLeaf l f).ibis = s.ibis := rfl
@[simp] theorem State.modLeaf_spdmVer (s : State) (l : Nat) (f : Leaf → Leaf) : (s.modLeaf l f).spdmVer = s.spdmVer := rfl
@[simp] theorem State.modLeaf_spdmAlgs (s : State) (l : Nat) (f : Leaf → Leaf) : (s.modLeaf l f).spdmAlgs = s.spdmAlgs := rfl
@[simp] theorem State.modLeaf_spdmLog (s : State) (l : Nat) (f : Leaf → Leaf) : (s.modLeaf l f).spdmLog = s.spdmLog := rfl
@[simp] theorem State.modLeaf_taps (s : State) (l : Nat) (f : Leaf → Leaf) : (s.modLeaf l f).taps = s.taps := rfl
@[simp] theorem State.modLeaf_testLow (s : State) (l : Nat) (f : Leaf → Leaf) : (s.modLeaf l f).testLow = s.testLow := rfl

/-! `State.modChan` -/

@[simp] theorem State.modChan_pending (s : State) (ch : Nat) (f : Chan → Chan) : (s.modChan ch f).pending = s.pending := rfl
@[simp] theorem State.modChan_clock (s : State) (ch : Nat) (f : Chan → Chan) : (s.modChan ch f).clock = s.clock := rfl
@[simp] theorem State.modChan_freeCtr (s : State) (ch : Nat) (f : Chan → Chan) : (s.modChan ch f).freeCtr = s.freeCtr := rfl
@[simp] theorem State.modChan_rackTime (s : State) (ch : Nat) (f : Chan → Chan) : (s.modChan ch f).rackTime = s.rackTime := rfl
@[simp] theorem State.modChan_rackHold (s : State) (ch : Nat) (f : Chan → Chan) : (s.modChan ch f).rackHold = s.rackHold := rfl
@[simp] theorem State.modChan_rackSlew (s : State) (ch : Nat) (f : Chan → Chan) : (s.modChan ch f).rackSlew = s.rackSlew := rfl
@[simp] theorem State.modChan_timeGood (s : State) (ch : Nat) (f : Chan → Chan) : (s.modChan ch f).timeGood = s.timeGood := rfl
@[simp] theorem State.modChan_regs (s : State) (ch : Nat) (f : Chan → Chan) : (s.modChan ch f).regs = s.regs := rfl
@[simp] theorem State.modChan_sub (s : State) (ch : Nat) (f : Chan → Chan) : (s.modChan ch f).sub = s.sub := rfl
@[simp] theorem State.modChan_lag (s : State) (ch : Nat) (f : Chan → Chan) : (s.modChan ch f).lag = s.lag := rfl
@[simp] theorem State.modChan_prsnt (s : State) (ch : Nat) (f : Chan → Chan) : (s.modChan ch f).prsnt = s.prsnt := rfl
@[simp] theorem State.modChan_perst (s : State) (ch : Nat) (f : Chan → Chan) : (s.modChan ch f).perst = s.perst := rfl
@[simp] theorem State.modChan_powered (s : State) (ch : Nat) (f : Chan → Chan) : (s.modChan ch f).powered = s.powered := rfl
@[simp] theorem State.modChan_input (s : State) (ch : Nat) (f : Chan → Chan) : (s.modChan ch f).input = s.input := rfl
@[simp] theorem State.modChan_volt (s : State) (ch : Nat) (f : Chan → Chan) : (s.modChan ch f).volt = s.volt := rfl
@[simp] theorem State.modChan_straps (s : State) (ch : Nat) (f : Chan → Chan) : (s.modChan ch f).straps = s.straps := rfl
@[simp] theorem State.modChan_strapsDue (s : State) (ch : Nat) (f : Chan → Chan) : (s.modChan ch f).strapsDue = s.strapsDue := rfl
@[simp] theorem State.modChan_fru (s : State) (ch : Nat) (f : Chan → Chan) : (s.modChan ch f).fru = s.fru := rfl
@[simp] theorem State.modChan_flash (s : State) (ch : Nat) (f : Chan → Chan) : (s.modChan ch f).flash = s.flash := rfl
@[simp] theorem State.modChan_fuses (s : State) (ch : Nat) (f : Chan → Chan) : (s.modChan ch f).fuses = s.fuses := rfl
@[simp] theorem State.modChan_meas (s : State) (ch : Nat) (f : Chan → Chan) : (s.modChan ch f).meas = s.meas := rfl
@[simp] theorem State.modChan_config (s : State) (ch : Nat) (f : Chan → Chan) : (s.modChan ch f).config = s.config := rfl
@[simp] theorem State.modChan_failed (s : State) (ch : Nat) (f : Chan → Chan) : (s.modChan ch f).failed = s.failed := rfl
@[simp] theorem State.modChan_cores (s : State) (ch : Nat) (f : Chan → Chan) : (s.modChan ch f).cores = s.cores := rfl
@[simp] theorem State.modChan_hm (s : State) (ch : Nat) (f : Chan → Chan) : (s.modChan ch f).hm = s.hm := rfl
@[simp] theorem State.modChan_hmBad (s : State) (ch : Nat) (f : Chan → Chan) : (s.modChan ch f).hmBad = s.hmBad := rfl
@[simp] theorem State.modChan_lm (s : State) (ch : Nat) (f : Chan → Chan) : (s.modChan ch f).lm = s.lm := rfl
@[simp] theorem State.modChan_lmPoison (s : State) (ch : Nat) (f : Chan → Chan) : (s.modChan ch f).lmPoison = s.lmPoison := rfl
@[simp] theorem State.modChan_cache (s : State) (ch : Nat) (f : Chan → Chan) : (s.modChan ch f).cache = s.cache := rfl
@[simp] theorem State.modChan_slogRing (s : State) (ch : Nat) (f : Chan → Chan) : (s.modChan ch f).slogRing = s.slogRing := rfl
@[simp] theorem State.modChan_slogs (s : State) (ch : Nat) (f : Chan → Chan) : (s.modChan ch f).slogs = s.slogs := rfl
@[simp] theorem State.modChan_txns (s : State) (ch : Nat) (f : Chan → Chan) : (s.modChan ch f).txns = s.txns := rfl
@[simp] theorem State.modChan_nextTag (s : State) (ch : Nat) (f : Chan → Chan) : (s.modChan ch f).nextTag = s.nextTag := rfl
@[simp] theorem State.modChan_nextSig (s : State) (ch : Nat) (f : Chan → Chan) : (s.modChan ch f).nextSig = s.nextSig := rfl
@[simp] theorem State.modChan_opids (s : State) (ch : Nat) (f : Chan → Chan) : (s.modChan ch f).opids = s.opids := rfl
@[simp] theorem State.modChan_winUse (s : State) (ch : Nat) (f : Chan → Chan) : (s.modChan ch f).winUse = s.winUse := rfl
@[simp] theorem State.modChan_nextPre (s : State) (ch : Nat) (f : Chan → Chan) : (s.modChan ch f).nextPre = s.nextPre := rfl
@[simp] theorem State.modChan_replays (s : State) (ch : Nat) (f : Chan → Chan) : (s.modChan ch f).replays = s.replays := rfl
@[simp] theorem State.modChan_dedup (s : State) (ch : Nat) (f : Chan → Chan) : (s.modChan ch f).dedup = s.dedup := rfl
@[simp] theorem State.modChan_dedupWait (s : State) (ch : Nat) (f : Chan → Chan) : (s.modChan ch f).dedupWait = s.dedupWait := rfl
@[simp] theorem State.modChan_sigs (s : State) (ch : Nat) (f : Chan → Chan) : (s.modChan ch f).sigs = s.sigs := rfl
@[simp] theorem State.modChan_heldReqs (s : State) (ch : Nat) (f : Chan → Chan) : (s.modChan ch f).heldReqs = s.heldReqs := rfl
@[simp] theorem State.modChan_c0Held (s : State) (ch : Nat) (f : Chan → Chan) : (s.modChan ch f).c0Held = s.c0Held := rfl
@[simp] theorem State.modChan_c0Last (s : State) (ch : Nat) (f : Chan → Chan) : (s.modChan ch f).c0Last = s.c0Last := rfl
@[simp] theorem State.modChan_hubTum (s : State) (ch : Nat) (f : Chan → Chan) : (s.modChan ch f).hubTum = s.hubTum := rfl
@[simp] theorem State.modChan_allocs (s : State) (ch : Nat) (f : Chan → Chan) : (s.modChan ch f).allocs = s.allocs := rfl
@[simp] theorem State.modChan_waiters (s : State) (ch : Nat) (f : Chan → Chan) : (s.modChan ch f).waiters = s.waiters := rfl
@[simp] theorem State.modChan_park (s : State) (ch : Nat) (f : Chan → Chan) : (s.modChan ch f).park = s.park := rfl
@[simp] theorem State.modChan_refused (s : State) (ch : Nat) (f : Chan → Chan) : (s.modChan ch f).refused = s.refused := rfl
@[simp] theorem State.modChan_tasks (s : State) (ch : Nat) (f : Chan → Chan) : (s.modChan ch f).tasks = s.tasks := rfl
@[simp] theorem State.modChan_nextTask (s : State) (ch : Nat) (f : Chan → Chan) : (s.modChan ch f).nextTask = s.nextTask := rfl
@[simp] theorem State.modChan_nextSeq (s : State) (ch : Nat) (f : Chan → Chan) : (s.modChan ch f).nextSeq = s.nextSeq := rfl
@[simp] theorem State.modChan_queues (s : State) (ch : Nat) (f : Chan → Chan) : (s.modChan ch f).queues = s.queues := rfl
@[simp] theorem State.modChan_lastQ (s : State) (ch : Nat) (f : Chan → Chan) : (s.modChan ch f).lastQ = s.lastQ := rfl
@[simp] theorem State.modChan_hostOut (s : State) (ch : Nat) (f : Chan → Chan) : (s.modChan ch f).hostOut = s.hostOut := rfl
@[simp] theorem State.modChan_sideOut (s : State) (ch : Nat) (f : Chan → Chan) : (s.modChan ch f).sideOut = s.sideOut := rfl
@[simp] theorem State.modChan_faultq (s : State) (ch : Nat) (f : Chan → Chan) : (s.modChan ch f).faultq = s.faultq := rfl
@[simp] theorem State.modChan_faultWait (s : State) (ch : Nat) (f : Chan → Chan) : (s.modChan ch f).faultWait = s.faultWait := rfl
@[simp] theorem State.modChan_errSeq (s : State) (ch : Nat) (f : Chan → Chan) : (s.modChan ch f).errSeq = s.errSeq := rfl
@[simp] theorem State.modChan_lastIrq (s : State) (ch : Nat) (f : Chan → Chan) : (s.modChan ch f).lastIrq = s.lastIrq := rfl
@[simp] theorem State.modChan_irqDue (s : State) (ch : Nat) (f : Chan → Chan) : (s.modChan ch f).irqDue = s.irqDue := rfl
@[simp] theorem State.modChan_kvSeqs (s : State) (ch : Nat) (f : Chan → Chan) : (s.modChan ch f).kvSeqs = s.kvSeqs := rfl
@[simp] theorem State.modChan_kvPages (s : State) (ch : Nat) (f : Chan → Chan) : (s.modChan ch f).kvPages = s.kvPages := rfl
@[simp] theorem State.modChan_kvLazy (s : State) (ch : Nat) (f : Chan → Chan) : (s.modChan ch f).kvLazy = s.kvLazy := rfl
@[simp] theorem State.modChan_kvGeom (s : State) (ch : Nat) (f : Chan → Chan) : (s.modChan ch f).kvGeom = s.kvGeom := rfl
@[simp] theorem State.modChan_kvPoolLo (s : State) (ch : Nat) (f : Chan → Chan) : (s.modChan ch f).kvPoolLo = s.kvPoolLo := rfl
@[simp] theorem State.modChan_kvPoolHi (s : State) (ch : Nat) (f : Chan → Chan) : (s.modChan ch f).kvPoolHi = s.kvPoolHi := rfl
@[simp] theorem State.modChan_colls (s : State) (ch : Nat) (f : Chan → Chan) : (s.modChan ch f).colls = s.colls := rfl
@[simp] theorem State.modChan_store (s : State) (ch : Nat) (f : Chan → Chan) : (s.modChan ch f).store = s.store := rfl
@[simp] theorem State.modChan_triples (s : State) (ch : Nat) (f : Chan → Chan) : (s.modChan ch f).triples = s.triples := rfl
@[simp] theorem State.modChan_collWait (s : State) (ch : Nat) (f : Chan → Chan) : (s.modChan ch f).collWait = s.collWait := rfl
@[simp] theorem State.modChan_storeWait (s : State) (ch : Nat) (f : Chan → Chan) : (s.modChan ch f).storeWait = s.storeWait := rfl
@[simp] theorem State.modChan_held (s : State) (ch : Nat) (f : Chan → Chan) : (s.modChan ch f).held = s.held := rfl
@[simp] theorem State.modChan_nextBuf (s : State) (ch : Nat) (f : Chan → Chan) : (s.modChan ch f).nextBuf = s.nextBuf := rfl
@[simp] theorem State.modChan_hubIn (s : State) (ch : Nat) (f : Chan → Chan) : (s.modChan ch f).hubIn = s.hubIn := rfl
@[simp] theorem State.modChan_downLinks (s : State) (ch : Nat) (f : Chan → Chan) : (s.modChan ch f).downLinks = s.downLinks := rfl
@[simp] theorem State.modChan_lastDown (s : State) (ch : Nat) (f : Chan → Chan) : (s.modChan ch f).lastDown = s.lastDown := rfl
@[simp] theorem State.modChan_routable (s : State) (ch : Nat) (f : Chan → Chan) : (s.modChan ch f).routable = s.routable := rfl
@[simp] theorem State.modChan_compute (s : State) (ch : Nat) (f : Chan → Chan) : (s.modChan ch f).compute = s.compute := rfl
@[simp] theorem State.modChan_dirBits (s : State) (ch : Nat) (f : Chan → Chan) : (s.modChan ch f).dirBits = s.dirBits := rfl
@[simp] theorem State.modChan_padDue (s : State) (ch : Nat) (f : Chan → Chan) : (s.modChan ch f).padDue = s.padDue := rfl
@[simp] theorem State.modChan_partWait (s : State) (ch : Nat) (f : Chan → Chan) : (s.modChan ch f).partWait = s.partWait := rfl
@[simp] theorem State.modChan_jobIgnore (s : State) (ch : Nat) (f : Chan → Chan) : (s.modChan ch f).jobIgnore = s.jobIgnore := rfl
@[simp] theorem State.modChan_everUp (s : State) (ch : Nat) (f : Chan → Chan) : (s.modChan ch f).everUp = s.everUp := rfl
@[simp] theorem State.modChan_declSent (s : State) (ch : Nat) (f : Chan → Chan) : (s.modChan ch f).declSent = s.declSent := rfl
@[simp] theorem State.modChan_portsOff (s : State) (ch : Nat) (f : Chan → Chan) : (s.modChan ch f).portsOff = s.portsOff := rfl
@[simp] theorem State.modChan_ports (s : State) (ch : Nat) (f : Chan → Chan) : (s.modChan ch f).ports = s.ports := rfl
@[simp] theorem State.modChan_engines (s : State) (ch : Nat) (f : Chan → Chan) : (s.modChan ch f).engines = s.engines := rfl
@[simp] theorem State.modChan_leaves (s : State) (ch : Nat) (f : Chan → Chan) : (s.modChan ch f).leaves = s.leaves := rfl
@[simp] theorem State.modChan_mboxes (s : State) (ch : Nat) (f : Chan → Chan) : (s.modChan ch f).mboxes = s.mboxes := rfl
@[simp] theorem State.modChan_goOrder (s : State) (ch : Nat) (f : Chan → Chan) : (s.modChan ch f).goOrder = s.goOrder := rfl
@[simp] theorem State.modChan_openAt (s : State) (ch : Nat) (f : Chan → Chan) : (s.modChan ch f).openAt = s.openAt := rfl
@[simp] theorem State.modChan_padAt (s : State) (ch : Nat) (f : Chan → Chan) : (s.modChan ch f).padAt = s.padAt := rfl
@[simp] theorem State.modChan_pairsOn (s : State) (ch : Nat) (f : Chan → Chan) : (s.modChan ch f).pairsOn = s.pairsOn := rfl
@[simp] theorem State.modChan_sensors (s : State) (ch : Nat) (f : Chan → Chan) : (s.modChan ch f).sensors = s.sensors := rfl
@[simp] theorem State.modChan_stretch (s : State) (ch : Nat) (f : Chan → Chan) : (s.modChan ch f).stretch = s.stretch := rfl
@[simp] theorem State.modChan_heat (s : State) (ch : Nat) (f : Chan → Chan) : (s.modChan ch f).heat = s.heat := rfl
@[simp] theorem State.modChan_steps (s : State) (ch : Nat) (f : Chan → Chan) : (s.modChan ch f).steps = s.steps := rfl
@[simp] theorem State.modChan_hubHot (s : State) (ch : Nat) (f : Chan → Chan) : (s.modChan ch f).hubHot = s.hubHot := rfl
@[simp] theorem State.modChan_capFell (s : State) (ch : Nat) (f : Chan → Chan) : (s.modChan ch f).capFell = s.capFell := rfl
@[simp] theorem State.modChan_charging (s : State) (ch : Nat) (f : Chan → Chan) : (s.modChan ch f).charging = s.charging := rfl
@[simp] theorem State.modChan_i3cAddr (s : State) (ch : Nat) (f : Chan → Chan) : (s.modChan ch f).i3cAddr = s.i3cAddr := rfl
@[simp] theorem State.modChan_i3cIndex (s : State) (ch : Nat) (f : Chan → Chan) : (s.modChan ch f).i3cIndex = s.i3cIndex := rfl
@[simp] theorem State.modChan_ibiOn (s : State) (ch : Nat) (f : Chan → Chan) : (s.modChan ch f).ibiOn = s.ibiOn := rfl
@[simp] theorem State.modChan_ibis (s : State) (ch : Nat) (f : Chan → Chan) : (s.modChan ch f).ibis = s.ibis := rfl
@[simp] theorem State.modChan_spdmVer (s : State) (ch : Nat) (f : Chan → Chan) : (s.modChan ch f).spdmVer = s.spdmVer := rfl
@[simp] theorem State.modChan_spdmAlgs (s : State) (ch : Nat) (f : Chan → Chan) : (s.modChan ch f).spdmAlgs = s.spdmAlgs := rfl
@[simp] theorem State.modChan_spdmLog (s : State) (ch : Nat) (f : Chan → Chan) : (s.modChan ch f).spdmLog = s.spdmLog := rfl
@[simp] theorem State.modChan_taps (s : State) (ch : Nat) (f : Chan → Chan) : (s.modChan ch f).taps = s.taps := rfl
@[simp] theorem State.modChan_testLow (s : State) (ch : Nat) (f : Chan → Chan) : (s.modChan ch f).testLow = s.testLow := rfl

/-! `State.modMbox` -/

@[simp] theorem State.modMbox_pending (s : State) (m : Nat) (f : Mailbox → Mailbox) : (s.modMbox m f).pending = s.pending := rfl
@[simp] theorem State.modMbox_clock (s : State) (m : Nat) (f : Mailbox → Mailbox) : (s.modMbox m f).clock = s.clock := rfl
@[simp] theorem State.modMbox_freeCtr (s : State) (m : Nat) (f : Mailbox → Mailbox) : (s.modMbox m f).freeCtr = s.freeCtr := rfl
@[simp] theorem State.modMbox_rackTime (s : State) (m : Nat) (f : Mailbox → Mailbox) : (s.modMbox m f).rackTime = s.rackTime := rfl
@[simp] theorem State.modMbox_rackHold (s : State) (m : Nat) (f : Mailbox → Mailbox) : (s.modMbox m f).rackHold = s.rackHold := rfl
@[simp] theorem State.modMbox_rackSlew (s : State) (m : Nat) (f : Mailbox → Mailbox) : (s.modMbox m f).rackSlew = s.rackSlew := rfl
@[simp] theorem State.modMbox_timeGood (s : State) (m : Nat) (f : Mailbox → Mailbox) : (s.modMbox m f).timeGood = s.timeGood := rfl
@[simp] theorem State.modMbox_regs (s : State) (m : Nat) (f : Mailbox → Mailbox) : (s.modMbox m f).regs = s.regs := rfl
@[simp] theorem State.modMbox_sub (s : State) (m : Nat) (f : Mailbox → Mailbox) : (s.modMbox m f).sub = s.sub := rfl
@[simp] theorem State.modMbox_lag (s : State) (m : Nat) (f : Mailbox → Mailbox) : (s.modMbox m f).lag = s.lag := rfl
@[simp] theorem State.modMbox_prsnt (s : State) (m : Nat) (f : Mailbox → Mailbox) : (s.modMbox m f).prsnt = s.prsnt := rfl
@[simp] theorem State.modMbox_perst (s : State) (m : Nat) (f : Mailbox → Mailbox) : (s.modMbox m f).perst = s.perst := rfl
@[simp] theorem State.modMbox_powered (s : State) (m : Nat) (f : Mailbox → Mailbox) : (s.modMbox m f).powered = s.powered := rfl
@[simp] theorem State.modMbox_input (s : State) (m : Nat) (f : Mailbox → Mailbox) : (s.modMbox m f).input = s.input := rfl
@[simp] theorem State.modMbox_volt (s : State) (m : Nat) (f : Mailbox → Mailbox) : (s.modMbox m f).volt = s.volt := rfl
@[simp] theorem State.modMbox_straps (s : State) (m : Nat) (f : Mailbox → Mailbox) : (s.modMbox m f).straps = s.straps := rfl
@[simp] theorem State.modMbox_strapsDue (s : State) (m : Nat) (f : Mailbox → Mailbox) : (s.modMbox m f).strapsDue = s.strapsDue := rfl
@[simp] theorem State.modMbox_fru (s : State) (m : Nat) (f : Mailbox → Mailbox) : (s.modMbox m f).fru = s.fru := rfl
@[simp] theorem State.modMbox_flash (s : State) (m : Nat) (f : Mailbox → Mailbox) : (s.modMbox m f).flash = s.flash := rfl
@[simp] theorem State.modMbox_fuses (s : State) (m : Nat) (f : Mailbox → Mailbox) : (s.modMbox m f).fuses = s.fuses := rfl
@[simp] theorem State.modMbox_meas (s : State) (m : Nat) (f : Mailbox → Mailbox) : (s.modMbox m f).meas = s.meas := rfl
@[simp] theorem State.modMbox_config (s : State) (m : Nat) (f : Mailbox → Mailbox) : (s.modMbox m f).config = s.config := rfl
@[simp] theorem State.modMbox_failed (s : State) (m : Nat) (f : Mailbox → Mailbox) : (s.modMbox m f).failed = s.failed := rfl
@[simp] theorem State.modMbox_cores (s : State) (m : Nat) (f : Mailbox → Mailbox) : (s.modMbox m f).cores = s.cores := rfl
@[simp] theorem State.modMbox_hm (s : State) (m : Nat) (f : Mailbox → Mailbox) : (s.modMbox m f).hm = s.hm := rfl
@[simp] theorem State.modMbox_hmBad (s : State) (m : Nat) (f : Mailbox → Mailbox) : (s.modMbox m f).hmBad = s.hmBad := rfl
@[simp] theorem State.modMbox_lm (s : State) (m : Nat) (f : Mailbox → Mailbox) : (s.modMbox m f).lm = s.lm := rfl
@[simp] theorem State.modMbox_lmPoison (s : State) (m : Nat) (f : Mailbox → Mailbox) : (s.modMbox m f).lmPoison = s.lmPoison := rfl
@[simp] theorem State.modMbox_cache (s : State) (m : Nat) (f : Mailbox → Mailbox) : (s.modMbox m f).cache = s.cache := rfl
@[simp] theorem State.modMbox_slogRing (s : State) (m : Nat) (f : Mailbox → Mailbox) : (s.modMbox m f).slogRing = s.slogRing := rfl
@[simp] theorem State.modMbox_slogs (s : State) (m : Nat) (f : Mailbox → Mailbox) : (s.modMbox m f).slogs = s.slogs := rfl
@[simp] theorem State.modMbox_txns (s : State) (m : Nat) (f : Mailbox → Mailbox) : (s.modMbox m f).txns = s.txns := rfl
@[simp] theorem State.modMbox_nextTag (s : State) (m : Nat) (f : Mailbox → Mailbox) : (s.modMbox m f).nextTag = s.nextTag := rfl
@[simp] theorem State.modMbox_nextSig (s : State) (m : Nat) (f : Mailbox → Mailbox) : (s.modMbox m f).nextSig = s.nextSig := rfl
@[simp] theorem State.modMbox_opids (s : State) (m : Nat) (f : Mailbox → Mailbox) : (s.modMbox m f).opids = s.opids := rfl
@[simp] theorem State.modMbox_winUse (s : State) (m : Nat) (f : Mailbox → Mailbox) : (s.modMbox m f).winUse = s.winUse := rfl
@[simp] theorem State.modMbox_nextPre (s : State) (m : Nat) (f : Mailbox → Mailbox) : (s.modMbox m f).nextPre = s.nextPre := rfl
@[simp] theorem State.modMbox_replays (s : State) (m : Nat) (f : Mailbox → Mailbox) : (s.modMbox m f).replays = s.replays := rfl
@[simp] theorem State.modMbox_dedup (s : State) (m : Nat) (f : Mailbox → Mailbox) : (s.modMbox m f).dedup = s.dedup := rfl
@[simp] theorem State.modMbox_dedupWait (s : State) (m : Nat) (f : Mailbox → Mailbox) : (s.modMbox m f).dedupWait = s.dedupWait := rfl
@[simp] theorem State.modMbox_sigs (s : State) (m : Nat) (f : Mailbox → Mailbox) : (s.modMbox m f).sigs = s.sigs := rfl
@[simp] theorem State.modMbox_heldReqs (s : State) (m : Nat) (f : Mailbox → Mailbox) : (s.modMbox m f).heldReqs = s.heldReqs := rfl
@[simp] theorem State.modMbox_c0Held (s : State) (m : Nat) (f : Mailbox → Mailbox) : (s.modMbox m f).c0Held = s.c0Held := rfl
@[simp] theorem State.modMbox_c0Last (s : State) (m : Nat) (f : Mailbox → Mailbox) : (s.modMbox m f).c0Last = s.c0Last := rfl
@[simp] theorem State.modMbox_hubTum (s : State) (m : Nat) (f : Mailbox → Mailbox) : (s.modMbox m f).hubTum = s.hubTum := rfl
@[simp] theorem State.modMbox_allocs (s : State) (m : Nat) (f : Mailbox → Mailbox) : (s.modMbox m f).allocs = s.allocs := rfl
@[simp] theorem State.modMbox_waiters (s : State) (m : Nat) (f : Mailbox → Mailbox) : (s.modMbox m f).waiters = s.waiters := rfl
@[simp] theorem State.modMbox_park (s : State) (m : Nat) (f : Mailbox → Mailbox) : (s.modMbox m f).park = s.park := rfl
@[simp] theorem State.modMbox_refused (s : State) (m : Nat) (f : Mailbox → Mailbox) : (s.modMbox m f).refused = s.refused := rfl
@[simp] theorem State.modMbox_tasks (s : State) (m : Nat) (f : Mailbox → Mailbox) : (s.modMbox m f).tasks = s.tasks := rfl
@[simp] theorem State.modMbox_nextTask (s : State) (m : Nat) (f : Mailbox → Mailbox) : (s.modMbox m f).nextTask = s.nextTask := rfl
@[simp] theorem State.modMbox_nextSeq (s : State) (m : Nat) (f : Mailbox → Mailbox) : (s.modMbox m f).nextSeq = s.nextSeq := rfl
@[simp] theorem State.modMbox_queues (s : State) (m : Nat) (f : Mailbox → Mailbox) : (s.modMbox m f).queues = s.queues := rfl
@[simp] theorem State.modMbox_lastQ (s : State) (m : Nat) (f : Mailbox → Mailbox) : (s.modMbox m f).lastQ = s.lastQ := rfl
@[simp] theorem State.modMbox_hostOut (s : State) (m : Nat) (f : Mailbox → Mailbox) : (s.modMbox m f).hostOut = s.hostOut := rfl
@[simp] theorem State.modMbox_sideOut (s : State) (m : Nat) (f : Mailbox → Mailbox) : (s.modMbox m f).sideOut = s.sideOut := rfl
@[simp] theorem State.modMbox_faultq (s : State) (m : Nat) (f : Mailbox → Mailbox) : (s.modMbox m f).faultq = s.faultq := rfl
@[simp] theorem State.modMbox_faultWait (s : State) (m : Nat) (f : Mailbox → Mailbox) : (s.modMbox m f).faultWait = s.faultWait := rfl
@[simp] theorem State.modMbox_errSeq (s : State) (m : Nat) (f : Mailbox → Mailbox) : (s.modMbox m f).errSeq = s.errSeq := rfl
@[simp] theorem State.modMbox_lastIrq (s : State) (m : Nat) (f : Mailbox → Mailbox) : (s.modMbox m f).lastIrq = s.lastIrq := rfl
@[simp] theorem State.modMbox_irqDue (s : State) (m : Nat) (f : Mailbox → Mailbox) : (s.modMbox m f).irqDue = s.irqDue := rfl
@[simp] theorem State.modMbox_kvSeqs (s : State) (m : Nat) (f : Mailbox → Mailbox) : (s.modMbox m f).kvSeqs = s.kvSeqs := rfl
@[simp] theorem State.modMbox_kvPages (s : State) (m : Nat) (f : Mailbox → Mailbox) : (s.modMbox m f).kvPages = s.kvPages := rfl
@[simp] theorem State.modMbox_kvLazy (s : State) (m : Nat) (f : Mailbox → Mailbox) : (s.modMbox m f).kvLazy = s.kvLazy := rfl
@[simp] theorem State.modMbox_kvGeom (s : State) (m : Nat) (f : Mailbox → Mailbox) : (s.modMbox m f).kvGeom = s.kvGeom := rfl
@[simp] theorem State.modMbox_kvPoolLo (s : State) (m : Nat) (f : Mailbox → Mailbox) : (s.modMbox m f).kvPoolLo = s.kvPoolLo := rfl
@[simp] theorem State.modMbox_kvPoolHi (s : State) (m : Nat) (f : Mailbox → Mailbox) : (s.modMbox m f).kvPoolHi = s.kvPoolHi := rfl
@[simp] theorem State.modMbox_colls (s : State) (m : Nat) (f : Mailbox → Mailbox) : (s.modMbox m f).colls = s.colls := rfl
@[simp] theorem State.modMbox_store (s : State) (m : Nat) (f : Mailbox → Mailbox) : (s.modMbox m f).store = s.store := rfl
@[simp] theorem State.modMbox_triples (s : State) (m : Nat) (f : Mailbox → Mailbox) : (s.modMbox m f).triples = s.triples := rfl
@[simp] theorem State.modMbox_collWait (s : State) (m : Nat) (f : Mailbox → Mailbox) : (s.modMbox m f).collWait = s.collWait := rfl
@[simp] theorem State.modMbox_storeWait (s : State) (m : Nat) (f : Mailbox → Mailbox) : (s.modMbox m f).storeWait = s.storeWait := rfl
@[simp] theorem State.modMbox_held (s : State) (m : Nat) (f : Mailbox → Mailbox) : (s.modMbox m f).held = s.held := rfl
@[simp] theorem State.modMbox_nextBuf (s : State) (m : Nat) (f : Mailbox → Mailbox) : (s.modMbox m f).nextBuf = s.nextBuf := rfl
@[simp] theorem State.modMbox_hubIn (s : State) (m : Nat) (f : Mailbox → Mailbox) : (s.modMbox m f).hubIn = s.hubIn := rfl
@[simp] theorem State.modMbox_downLinks (s : State) (m : Nat) (f : Mailbox → Mailbox) : (s.modMbox m f).downLinks = s.downLinks := rfl
@[simp] theorem State.modMbox_lastDown (s : State) (m : Nat) (f : Mailbox → Mailbox) : (s.modMbox m f).lastDown = s.lastDown := rfl
@[simp] theorem State.modMbox_routable (s : State) (m : Nat) (f : Mailbox → Mailbox) : (s.modMbox m f).routable = s.routable := rfl
@[simp] theorem State.modMbox_compute (s : State) (m : Nat) (f : Mailbox → Mailbox) : (s.modMbox m f).compute = s.compute := rfl
@[simp] theorem State.modMbox_dirBits (s : State) (m : Nat) (f : Mailbox → Mailbox) : (s.modMbox m f).dirBits = s.dirBits := rfl
@[simp] theorem State.modMbox_padDue (s : State) (m : Nat) (f : Mailbox → Mailbox) : (s.modMbox m f).padDue = s.padDue := rfl
@[simp] theorem State.modMbox_partWait (s : State) (m : Nat) (f : Mailbox → Mailbox) : (s.modMbox m f).partWait = s.partWait := rfl
@[simp] theorem State.modMbox_jobIgnore (s : State) (m : Nat) (f : Mailbox → Mailbox) : (s.modMbox m f).jobIgnore = s.jobIgnore := rfl
@[simp] theorem State.modMbox_everUp (s : State) (m : Nat) (f : Mailbox → Mailbox) : (s.modMbox m f).everUp = s.everUp := rfl
@[simp] theorem State.modMbox_declSent (s : State) (m : Nat) (f : Mailbox → Mailbox) : (s.modMbox m f).declSent = s.declSent := rfl
@[simp] theorem State.modMbox_portsOff (s : State) (m : Nat) (f : Mailbox → Mailbox) : (s.modMbox m f).portsOff = s.portsOff := rfl
@[simp] theorem State.modMbox_ports (s : State) (m : Nat) (f : Mailbox → Mailbox) : (s.modMbox m f).ports = s.ports := rfl
@[simp] theorem State.modMbox_engines (s : State) (m : Nat) (f : Mailbox → Mailbox) : (s.modMbox m f).engines = s.engines := rfl
@[simp] theorem State.modMbox_leaves (s : State) (m : Nat) (f : Mailbox → Mailbox) : (s.modMbox m f).leaves = s.leaves := rfl
@[simp] theorem State.modMbox_chans (s : State) (m : Nat) (f : Mailbox → Mailbox) : (s.modMbox m f).chans = s.chans := rfl
@[simp] theorem State.modMbox_goOrder (s : State) (m : Nat) (f : Mailbox → Mailbox) : (s.modMbox m f).goOrder = s.goOrder := rfl
@[simp] theorem State.modMbox_openAt (s : State) (m : Nat) (f : Mailbox → Mailbox) : (s.modMbox m f).openAt = s.openAt := rfl
@[simp] theorem State.modMbox_padAt (s : State) (m : Nat) (f : Mailbox → Mailbox) : (s.modMbox m f).padAt = s.padAt := rfl
@[simp] theorem State.modMbox_pairsOn (s : State) (m : Nat) (f : Mailbox → Mailbox) : (s.modMbox m f).pairsOn = s.pairsOn := rfl
@[simp] theorem State.modMbox_sensors (s : State) (m : Nat) (f : Mailbox → Mailbox) : (s.modMbox m f).sensors = s.sensors := rfl
@[simp] theorem State.modMbox_stretch (s : State) (m : Nat) (f : Mailbox → Mailbox) : (s.modMbox m f).stretch = s.stretch := rfl
@[simp] theorem State.modMbox_heat (s : State) (m : Nat) (f : Mailbox → Mailbox) : (s.modMbox m f).heat = s.heat := rfl
@[simp] theorem State.modMbox_steps (s : State) (m : Nat) (f : Mailbox → Mailbox) : (s.modMbox m f).steps = s.steps := rfl
@[simp] theorem State.modMbox_hubHot (s : State) (m : Nat) (f : Mailbox → Mailbox) : (s.modMbox m f).hubHot = s.hubHot := rfl
@[simp] theorem State.modMbox_capFell (s : State) (m : Nat) (f : Mailbox → Mailbox) : (s.modMbox m f).capFell = s.capFell := rfl
@[simp] theorem State.modMbox_charging (s : State) (m : Nat) (f : Mailbox → Mailbox) : (s.modMbox m f).charging = s.charging := rfl
@[simp] theorem State.modMbox_i3cAddr (s : State) (m : Nat) (f : Mailbox → Mailbox) : (s.modMbox m f).i3cAddr = s.i3cAddr := rfl
@[simp] theorem State.modMbox_i3cIndex (s : State) (m : Nat) (f : Mailbox → Mailbox) : (s.modMbox m f).i3cIndex = s.i3cIndex := rfl
@[simp] theorem State.modMbox_ibiOn (s : State) (m : Nat) (f : Mailbox → Mailbox) : (s.modMbox m f).ibiOn = s.ibiOn := rfl
@[simp] theorem State.modMbox_ibis (s : State) (m : Nat) (f : Mailbox → Mailbox) : (s.modMbox m f).ibis = s.ibis := rfl
@[simp] theorem State.modMbox_spdmVer (s : State) (m : Nat) (f : Mailbox → Mailbox) : (s.modMbox m f).spdmVer = s.spdmVer := rfl
@[simp] theorem State.modMbox_spdmAlgs (s : State) (m : Nat) (f : Mailbox → Mailbox) : (s.modMbox m f).spdmAlgs = s.spdmAlgs := rfl
@[simp] theorem State.modMbox_spdmLog (s : State) (m : Nat) (f : Mailbox → Mailbox) : (s.modMbox m f).spdmLog = s.spdmLog := rfl
@[simp] theorem State.modMbox_taps (s : State) (m : Nat) (f : Mailbox → Mailbox) : (s.modMbox m f).taps = s.taps := rfl
@[simp] theorem State.modMbox_testLow (s : State) (m : Nat) (f : Mailbox → Mailbox) : (s.modMbox m f).testLow = s.testLow := rfl

/-! `State.modTap` -/

@[simp] theorem State.modTap_pending (s : State) (d : Nat) (f : Tap → Tap) : (s.modTap d f).pending = s.pending := rfl
@[simp] theorem State.modTap_clock (s : State) (d : Nat) (f : Tap → Tap) : (s.modTap d f).clock = s.clock := rfl
@[simp] theorem State.modTap_freeCtr (s : State) (d : Nat) (f : Tap → Tap) : (s.modTap d f).freeCtr = s.freeCtr := rfl
@[simp] theorem State.modTap_rackTime (s : State) (d : Nat) (f : Tap → Tap) : (s.modTap d f).rackTime = s.rackTime := rfl
@[simp] theorem State.modTap_rackHold (s : State) (d : Nat) (f : Tap → Tap) : (s.modTap d f).rackHold = s.rackHold := rfl
@[simp] theorem State.modTap_rackSlew (s : State) (d : Nat) (f : Tap → Tap) : (s.modTap d f).rackSlew = s.rackSlew := rfl
@[simp] theorem State.modTap_timeGood (s : State) (d : Nat) (f : Tap → Tap) : (s.modTap d f).timeGood = s.timeGood := rfl
@[simp] theorem State.modTap_regs (s : State) (d : Nat) (f : Tap → Tap) : (s.modTap d f).regs = s.regs := rfl
@[simp] theorem State.modTap_sub (s : State) (d : Nat) (f : Tap → Tap) : (s.modTap d f).sub = s.sub := rfl
@[simp] theorem State.modTap_lag (s : State) (d : Nat) (f : Tap → Tap) : (s.modTap d f).lag = s.lag := rfl
@[simp] theorem State.modTap_prsnt (s : State) (d : Nat) (f : Tap → Tap) : (s.modTap d f).prsnt = s.prsnt := rfl
@[simp] theorem State.modTap_perst (s : State) (d : Nat) (f : Tap → Tap) : (s.modTap d f).perst = s.perst := rfl
@[simp] theorem State.modTap_powered (s : State) (d : Nat) (f : Tap → Tap) : (s.modTap d f).powered = s.powered := rfl
@[simp] theorem State.modTap_input (s : State) (d : Nat) (f : Tap → Tap) : (s.modTap d f).input = s.input := rfl
@[simp] theorem State.modTap_volt (s : State) (d : Nat) (f : Tap → Tap) : (s.modTap d f).volt = s.volt := rfl
@[simp] theorem State.modTap_straps (s : State) (d : Nat) (f : Tap → Tap) : (s.modTap d f).straps = s.straps := rfl
@[simp] theorem State.modTap_strapsDue (s : State) (d : Nat) (f : Tap → Tap) : (s.modTap d f).strapsDue = s.strapsDue := rfl
@[simp] theorem State.modTap_fru (s : State) (d : Nat) (f : Tap → Tap) : (s.modTap d f).fru = s.fru := rfl
@[simp] theorem State.modTap_flash (s : State) (d : Nat) (f : Tap → Tap) : (s.modTap d f).flash = s.flash := rfl
@[simp] theorem State.modTap_fuses (s : State) (d : Nat) (f : Tap → Tap) : (s.modTap d f).fuses = s.fuses := rfl
@[simp] theorem State.modTap_meas (s : State) (d : Nat) (f : Tap → Tap) : (s.modTap d f).meas = s.meas := rfl
@[simp] theorem State.modTap_config (s : State) (d : Nat) (f : Tap → Tap) : (s.modTap d f).config = s.config := rfl
@[simp] theorem State.modTap_failed (s : State) (d : Nat) (f : Tap → Tap) : (s.modTap d f).failed = s.failed := rfl
@[simp] theorem State.modTap_cores (s : State) (d : Nat) (f : Tap → Tap) : (s.modTap d f).cores = s.cores := rfl
@[simp] theorem State.modTap_hm (s : State) (d : Nat) (f : Tap → Tap) : (s.modTap d f).hm = s.hm := rfl
@[simp] theorem State.modTap_hmBad (s : State) (d : Nat) (f : Tap → Tap) : (s.modTap d f).hmBad = s.hmBad := rfl
@[simp] theorem State.modTap_lm (s : State) (d : Nat) (f : Tap → Tap) : (s.modTap d f).lm = s.lm := rfl
@[simp] theorem State.modTap_lmPoison (s : State) (d : Nat) (f : Tap → Tap) : (s.modTap d f).lmPoison = s.lmPoison := rfl
@[simp] theorem State.modTap_cache (s : State) (d : Nat) (f : Tap → Tap) : (s.modTap d f).cache = s.cache := rfl
@[simp] theorem State.modTap_slogRing (s : State) (d : Nat) (f : Tap → Tap) : (s.modTap d f).slogRing = s.slogRing := rfl
@[simp] theorem State.modTap_slogs (s : State) (d : Nat) (f : Tap → Tap) : (s.modTap d f).slogs = s.slogs := rfl
@[simp] theorem State.modTap_txns (s : State) (d : Nat) (f : Tap → Tap) : (s.modTap d f).txns = s.txns := rfl
@[simp] theorem State.modTap_nextTag (s : State) (d : Nat) (f : Tap → Tap) : (s.modTap d f).nextTag = s.nextTag := rfl
@[simp] theorem State.modTap_nextSig (s : State) (d : Nat) (f : Tap → Tap) : (s.modTap d f).nextSig = s.nextSig := rfl
@[simp] theorem State.modTap_opids (s : State) (d : Nat) (f : Tap → Tap) : (s.modTap d f).opids = s.opids := rfl
@[simp] theorem State.modTap_winUse (s : State) (d : Nat) (f : Tap → Tap) : (s.modTap d f).winUse = s.winUse := rfl
@[simp] theorem State.modTap_nextPre (s : State) (d : Nat) (f : Tap → Tap) : (s.modTap d f).nextPre = s.nextPre := rfl
@[simp] theorem State.modTap_replays (s : State) (d : Nat) (f : Tap → Tap) : (s.modTap d f).replays = s.replays := rfl
@[simp] theorem State.modTap_dedup (s : State) (d : Nat) (f : Tap → Tap) : (s.modTap d f).dedup = s.dedup := rfl
@[simp] theorem State.modTap_dedupWait (s : State) (d : Nat) (f : Tap → Tap) : (s.modTap d f).dedupWait = s.dedupWait := rfl
@[simp] theorem State.modTap_sigs (s : State) (d : Nat) (f : Tap → Tap) : (s.modTap d f).sigs = s.sigs := rfl
@[simp] theorem State.modTap_heldReqs (s : State) (d : Nat) (f : Tap → Tap) : (s.modTap d f).heldReqs = s.heldReqs := rfl
@[simp] theorem State.modTap_c0Held (s : State) (d : Nat) (f : Tap → Tap) : (s.modTap d f).c0Held = s.c0Held := rfl
@[simp] theorem State.modTap_c0Last (s : State) (d : Nat) (f : Tap → Tap) : (s.modTap d f).c0Last = s.c0Last := rfl
@[simp] theorem State.modTap_hubTum (s : State) (d : Nat) (f : Tap → Tap) : (s.modTap d f).hubTum = s.hubTum := rfl
@[simp] theorem State.modTap_allocs (s : State) (d : Nat) (f : Tap → Tap) : (s.modTap d f).allocs = s.allocs := rfl
@[simp] theorem State.modTap_waiters (s : State) (d : Nat) (f : Tap → Tap) : (s.modTap d f).waiters = s.waiters := rfl
@[simp] theorem State.modTap_park (s : State) (d : Nat) (f : Tap → Tap) : (s.modTap d f).park = s.park := rfl
@[simp] theorem State.modTap_refused (s : State) (d : Nat) (f : Tap → Tap) : (s.modTap d f).refused = s.refused := rfl
@[simp] theorem State.modTap_tasks (s : State) (d : Nat) (f : Tap → Tap) : (s.modTap d f).tasks = s.tasks := rfl
@[simp] theorem State.modTap_nextTask (s : State) (d : Nat) (f : Tap → Tap) : (s.modTap d f).nextTask = s.nextTask := rfl
@[simp] theorem State.modTap_nextSeq (s : State) (d : Nat) (f : Tap → Tap) : (s.modTap d f).nextSeq = s.nextSeq := rfl
@[simp] theorem State.modTap_queues (s : State) (d : Nat) (f : Tap → Tap) : (s.modTap d f).queues = s.queues := rfl
@[simp] theorem State.modTap_lastQ (s : State) (d : Nat) (f : Tap → Tap) : (s.modTap d f).lastQ = s.lastQ := rfl
@[simp] theorem State.modTap_hostOut (s : State) (d : Nat) (f : Tap → Tap) : (s.modTap d f).hostOut = s.hostOut := rfl
@[simp] theorem State.modTap_sideOut (s : State) (d : Nat) (f : Tap → Tap) : (s.modTap d f).sideOut = s.sideOut := rfl
@[simp] theorem State.modTap_faultq (s : State) (d : Nat) (f : Tap → Tap) : (s.modTap d f).faultq = s.faultq := rfl
@[simp] theorem State.modTap_faultWait (s : State) (d : Nat) (f : Tap → Tap) : (s.modTap d f).faultWait = s.faultWait := rfl
@[simp] theorem State.modTap_errSeq (s : State) (d : Nat) (f : Tap → Tap) : (s.modTap d f).errSeq = s.errSeq := rfl
@[simp] theorem State.modTap_lastIrq (s : State) (d : Nat) (f : Tap → Tap) : (s.modTap d f).lastIrq = s.lastIrq := rfl
@[simp] theorem State.modTap_irqDue (s : State) (d : Nat) (f : Tap → Tap) : (s.modTap d f).irqDue = s.irqDue := rfl
@[simp] theorem State.modTap_kvSeqs (s : State) (d : Nat) (f : Tap → Tap) : (s.modTap d f).kvSeqs = s.kvSeqs := rfl
@[simp] theorem State.modTap_kvPages (s : State) (d : Nat) (f : Tap → Tap) : (s.modTap d f).kvPages = s.kvPages := rfl
@[simp] theorem State.modTap_kvLazy (s : State) (d : Nat) (f : Tap → Tap) : (s.modTap d f).kvLazy = s.kvLazy := rfl
@[simp] theorem State.modTap_kvGeom (s : State) (d : Nat) (f : Tap → Tap) : (s.modTap d f).kvGeom = s.kvGeom := rfl
@[simp] theorem State.modTap_kvPoolLo (s : State) (d : Nat) (f : Tap → Tap) : (s.modTap d f).kvPoolLo = s.kvPoolLo := rfl
@[simp] theorem State.modTap_kvPoolHi (s : State) (d : Nat) (f : Tap → Tap) : (s.modTap d f).kvPoolHi = s.kvPoolHi := rfl
@[simp] theorem State.modTap_colls (s : State) (d : Nat) (f : Tap → Tap) : (s.modTap d f).colls = s.colls := rfl
@[simp] theorem State.modTap_store (s : State) (d : Nat) (f : Tap → Tap) : (s.modTap d f).store = s.store := rfl
@[simp] theorem State.modTap_triples (s : State) (d : Nat) (f : Tap → Tap) : (s.modTap d f).triples = s.triples := rfl
@[simp] theorem State.modTap_collWait (s : State) (d : Nat) (f : Tap → Tap) : (s.modTap d f).collWait = s.collWait := rfl
@[simp] theorem State.modTap_storeWait (s : State) (d : Nat) (f : Tap → Tap) : (s.modTap d f).storeWait = s.storeWait := rfl
@[simp] theorem State.modTap_held (s : State) (d : Nat) (f : Tap → Tap) : (s.modTap d f).held = s.held := rfl
@[simp] theorem State.modTap_nextBuf (s : State) (d : Nat) (f : Tap → Tap) : (s.modTap d f).nextBuf = s.nextBuf := rfl
@[simp] theorem State.modTap_hubIn (s : State) (d : Nat) (f : Tap → Tap) : (s.modTap d f).hubIn = s.hubIn := rfl
@[simp] theorem State.modTap_downLinks (s : State) (d : Nat) (f : Tap → Tap) : (s.modTap d f).downLinks = s.downLinks := rfl
@[simp] theorem State.modTap_lastDown (s : State) (d : Nat) (f : Tap → Tap) : (s.modTap d f).lastDown = s.lastDown := rfl
@[simp] theorem State.modTap_routable (s : State) (d : Nat) (f : Tap → Tap) : (s.modTap d f).routable = s.routable := rfl
@[simp] theorem State.modTap_compute (s : State) (d : Nat) (f : Tap → Tap) : (s.modTap d f).compute = s.compute := rfl
@[simp] theorem State.modTap_dirBits (s : State) (d : Nat) (f : Tap → Tap) : (s.modTap d f).dirBits = s.dirBits := rfl
@[simp] theorem State.modTap_padDue (s : State) (d : Nat) (f : Tap → Tap) : (s.modTap d f).padDue = s.padDue := rfl
@[simp] theorem State.modTap_partWait (s : State) (d : Nat) (f : Tap → Tap) : (s.modTap d f).partWait = s.partWait := rfl
@[simp] theorem State.modTap_jobIgnore (s : State) (d : Nat) (f : Tap → Tap) : (s.modTap d f).jobIgnore = s.jobIgnore := rfl
@[simp] theorem State.modTap_everUp (s : State) (d : Nat) (f : Tap → Tap) : (s.modTap d f).everUp = s.everUp := rfl
@[simp] theorem State.modTap_declSent (s : State) (d : Nat) (f : Tap → Tap) : (s.modTap d f).declSent = s.declSent := rfl
@[simp] theorem State.modTap_portsOff (s : State) (d : Nat) (f : Tap → Tap) : (s.modTap d f).portsOff = s.portsOff := rfl
@[simp] theorem State.modTap_ports (s : State) (d : Nat) (f : Tap → Tap) : (s.modTap d f).ports = s.ports := rfl
@[simp] theorem State.modTap_engines (s : State) (d : Nat) (f : Tap → Tap) : (s.modTap d f).engines = s.engines := rfl
@[simp] theorem State.modTap_leaves (s : State) (d : Nat) (f : Tap → Tap) : (s.modTap d f).leaves = s.leaves := rfl
@[simp] theorem State.modTap_chans (s : State) (d : Nat) (f : Tap → Tap) : (s.modTap d f).chans = s.chans := rfl
@[simp] theorem State.modTap_mboxes (s : State) (d : Nat) (f : Tap → Tap) : (s.modTap d f).mboxes = s.mboxes := rfl
@[simp] theorem State.modTap_goOrder (s : State) (d : Nat) (f : Tap → Tap) : (s.modTap d f).goOrder = s.goOrder := rfl
@[simp] theorem State.modTap_openAt (s : State) (d : Nat) (f : Tap → Tap) : (s.modTap d f).openAt = s.openAt := rfl
@[simp] theorem State.modTap_padAt (s : State) (d : Nat) (f : Tap → Tap) : (s.modTap d f).padAt = s.padAt := rfl
@[simp] theorem State.modTap_pairsOn (s : State) (d : Nat) (f : Tap → Tap) : (s.modTap d f).pairsOn = s.pairsOn := rfl
@[simp] theorem State.modTap_sensors (s : State) (d : Nat) (f : Tap → Tap) : (s.modTap d f).sensors = s.sensors := rfl
@[simp] theorem State.modTap_stretch (s : State) (d : Nat) (f : Tap → Tap) : (s.modTap d f).stretch = s.stretch := rfl
@[simp] theorem State.modTap_heat (s : State) (d : Nat) (f : Tap → Tap) : (s.modTap d f).heat = s.heat := rfl
@[simp] theorem State.modTap_steps (s : State) (d : Nat) (f : Tap → Tap) : (s.modTap d f).steps = s.steps := rfl
@[simp] theorem State.modTap_hubHot (s : State) (d : Nat) (f : Tap → Tap) : (s.modTap d f).hubHot = s.hubHot := rfl
@[simp] theorem State.modTap_capFell (s : State) (d : Nat) (f : Tap → Tap) : (s.modTap d f).capFell = s.capFell := rfl
@[simp] theorem State.modTap_charging (s : State) (d : Nat) (f : Tap → Tap) : (s.modTap d f).charging = s.charging := rfl
@[simp] theorem State.modTap_i3cAddr (s : State) (d : Nat) (f : Tap → Tap) : (s.modTap d f).i3cAddr = s.i3cAddr := rfl
@[simp] theorem State.modTap_i3cIndex (s : State) (d : Nat) (f : Tap → Tap) : (s.modTap d f).i3cIndex = s.i3cIndex := rfl
@[simp] theorem State.modTap_ibiOn (s : State) (d : Nat) (f : Tap → Tap) : (s.modTap d f).ibiOn = s.ibiOn := rfl
@[simp] theorem State.modTap_ibis (s : State) (d : Nat) (f : Tap → Tap) : (s.modTap d f).ibis = s.ibis := rfl
@[simp] theorem State.modTap_spdmVer (s : State) (d : Nat) (f : Tap → Tap) : (s.modTap d f).spdmVer = s.spdmVer := rfl
@[simp] theorem State.modTap_spdmAlgs (s : State) (d : Nat) (f : Tap → Tap) : (s.modTap d f).spdmAlgs = s.spdmAlgs := rfl
@[simp] theorem State.modTap_spdmLog (s : State) (d : Nat) (f : Tap → Tap) : (s.modTap d f).spdmLog = s.spdmLog := rfl
@[simp] theorem State.modTap_testLow (s : State) (d : Nat) (f : Tap → Tap) : (s.modTap d f).testLow = s.testLow := rfl

/-! `State.wr` -/

@[simp] theorem State.wr_pending (s : State) (f : Fld) (v : Nat) : (s.wr f v).pending = s.pending := rfl
@[simp] theorem State.wr_clock (s : State) (f : Fld) (v : Nat) : (s.wr f v).clock = s.clock := rfl
@[simp] theorem State.wr_freeCtr (s : State) (f : Fld) (v : Nat) : (s.wr f v).freeCtr = s.freeCtr := rfl
@[simp] theorem State.wr_rackTime (s : State) (f : Fld) (v : Nat) : (s.wr f v).rackTime = s.rackTime := rfl
@[simp] theorem State.wr_rackHold (s : State) (f : Fld) (v : Nat) : (s.wr f v).rackHold = s.rackHold := rfl
@[simp] theorem State.wr_rackSlew (s : State) (f : Fld) (v : Nat) : (s.wr f v).rackSlew = s.rackSlew := rfl
@[simp] theorem State.wr_timeGood (s : State) (f : Fld) (v : Nat) : (s.wr f v).timeGood = s.timeGood := rfl
@[simp] theorem State.wr_sub (s : State) (f : Fld) (v : Nat) : (s.wr f v).sub = s.sub := rfl
@[simp] theorem State.wr_lag (s : State) (f : Fld) (v : Nat) : (s.wr f v).lag = s.lag := rfl
@[simp] theorem State.wr_prsnt (s : State) (f : Fld) (v : Nat) : (s.wr f v).prsnt = s.prsnt := rfl
@[simp] theorem State.wr_perst (s : State) (f : Fld) (v : Nat) : (s.wr f v).perst = s.perst := rfl
@[simp] theorem State.wr_powered (s : State) (f : Fld) (v : Nat) : (s.wr f v).powered = s.powered := rfl
@[simp] theorem State.wr_input (s : State) (f : Fld) (v : Nat) : (s.wr f v).input = s.input := rfl
@[simp] theorem State.wr_volt (s : State) (f : Fld) (v : Nat) : (s.wr f v).volt = s.volt := rfl
@[simp] theorem State.wr_straps (s : State) (f : Fld) (v : Nat) : (s.wr f v).straps = s.straps := rfl
@[simp] theorem State.wr_strapsDue (s : State) (f : Fld) (v : Nat) : (s.wr f v).strapsDue = s.strapsDue := rfl
@[simp] theorem State.wr_fru (s : State) (f : Fld) (v : Nat) : (s.wr f v).fru = s.fru := rfl
@[simp] theorem State.wr_flash (s : State) (f : Fld) (v : Nat) : (s.wr f v).flash = s.flash := rfl
@[simp] theorem State.wr_fuses (s : State) (f : Fld) (v : Nat) : (s.wr f v).fuses = s.fuses := rfl
@[simp] theorem State.wr_meas (s : State) (f : Fld) (v : Nat) : (s.wr f v).meas = s.meas := rfl
@[simp] theorem State.wr_config (s : State) (f : Fld) (v : Nat) : (s.wr f v).config = s.config := rfl
@[simp] theorem State.wr_failed (s : State) (f : Fld) (v : Nat) : (s.wr f v).failed = s.failed := rfl
@[simp] theorem State.wr_cores (s : State) (f : Fld) (v : Nat) : (s.wr f v).cores = s.cores := rfl
@[simp] theorem State.wr_hm (s : State) (f : Fld) (v : Nat) : (s.wr f v).hm = s.hm := rfl
@[simp] theorem State.wr_hmBad (s : State) (f : Fld) (v : Nat) : (s.wr f v).hmBad = s.hmBad := rfl
@[simp] theorem State.wr_lm (s : State) (f : Fld) (v : Nat) : (s.wr f v).lm = s.lm := rfl
@[simp] theorem State.wr_lmPoison (s : State) (f : Fld) (v : Nat) : (s.wr f v).lmPoison = s.lmPoison := rfl
@[simp] theorem State.wr_cache (s : State) (f : Fld) (v : Nat) : (s.wr f v).cache = s.cache := rfl
@[simp] theorem State.wr_slogRing (s : State) (f : Fld) (v : Nat) : (s.wr f v).slogRing = s.slogRing := rfl
@[simp] theorem State.wr_slogs (s : State) (f : Fld) (v : Nat) : (s.wr f v).slogs = s.slogs := rfl
@[simp] theorem State.wr_txns (s : State) (f : Fld) (v : Nat) : (s.wr f v).txns = s.txns := rfl
@[simp] theorem State.wr_nextTag (s : State) (f : Fld) (v : Nat) : (s.wr f v).nextTag = s.nextTag := rfl
@[simp] theorem State.wr_nextSig (s : State) (f : Fld) (v : Nat) : (s.wr f v).nextSig = s.nextSig := rfl
@[simp] theorem State.wr_opids (s : State) (f : Fld) (v : Nat) : (s.wr f v).opids = s.opids := rfl
@[simp] theorem State.wr_winUse (s : State) (f : Fld) (v : Nat) : (s.wr f v).winUse = s.winUse := rfl
@[simp] theorem State.wr_nextPre (s : State) (f : Fld) (v : Nat) : (s.wr f v).nextPre = s.nextPre := rfl
@[simp] theorem State.wr_replays (s : State) (f : Fld) (v : Nat) : (s.wr f v).replays = s.replays := rfl
@[simp] theorem State.wr_dedup (s : State) (f : Fld) (v : Nat) : (s.wr f v).dedup = s.dedup := rfl
@[simp] theorem State.wr_dedupWait (s : State) (f : Fld) (v : Nat) : (s.wr f v).dedupWait = s.dedupWait := rfl
@[simp] theorem State.wr_sigs (s : State) (f : Fld) (v : Nat) : (s.wr f v).sigs = s.sigs := rfl
@[simp] theorem State.wr_heldReqs (s : State) (f : Fld) (v : Nat) : (s.wr f v).heldReqs = s.heldReqs := rfl
@[simp] theorem State.wr_c0Held (s : State) (f : Fld) (v : Nat) : (s.wr f v).c0Held = s.c0Held := rfl
@[simp] theorem State.wr_c0Last (s : State) (f : Fld) (v : Nat) : (s.wr f v).c0Last = s.c0Last := rfl
@[simp] theorem State.wr_hubTum (s : State) (f : Fld) (v : Nat) : (s.wr f v).hubTum = s.hubTum := rfl
@[simp] theorem State.wr_allocs (s : State) (f : Fld) (v : Nat) : (s.wr f v).allocs = s.allocs := rfl
@[simp] theorem State.wr_waiters (s : State) (f : Fld) (v : Nat) : (s.wr f v).waiters = s.waiters := rfl
@[simp] theorem State.wr_park (s : State) (f : Fld) (v : Nat) : (s.wr f v).park = s.park := rfl
@[simp] theorem State.wr_refused (s : State) (f : Fld) (v : Nat) : (s.wr f v).refused = s.refused := rfl
@[simp] theorem State.wr_tasks (s : State) (f : Fld) (v : Nat) : (s.wr f v).tasks = s.tasks := rfl
@[simp] theorem State.wr_nextTask (s : State) (f : Fld) (v : Nat) : (s.wr f v).nextTask = s.nextTask := rfl
@[simp] theorem State.wr_nextSeq (s : State) (f : Fld) (v : Nat) : (s.wr f v).nextSeq = s.nextSeq := rfl
@[simp] theorem State.wr_queues (s : State) (f : Fld) (v : Nat) : (s.wr f v).queues = s.queues := rfl
@[simp] theorem State.wr_lastQ (s : State) (f : Fld) (v : Nat) : (s.wr f v).lastQ = s.lastQ := rfl
@[simp] theorem State.wr_hostOut (s : State) (f : Fld) (v : Nat) : (s.wr f v).hostOut = s.hostOut := rfl
@[simp] theorem State.wr_sideOut (s : State) (f : Fld) (v : Nat) : (s.wr f v).sideOut = s.sideOut := rfl
@[simp] theorem State.wr_faultq (s : State) (f : Fld) (v : Nat) : (s.wr f v).faultq = s.faultq := rfl
@[simp] theorem State.wr_faultWait (s : State) (f : Fld) (v : Nat) : (s.wr f v).faultWait = s.faultWait := rfl
@[simp] theorem State.wr_errSeq (s : State) (f : Fld) (v : Nat) : (s.wr f v).errSeq = s.errSeq := rfl
@[simp] theorem State.wr_lastIrq (s : State) (f : Fld) (v : Nat) : (s.wr f v).lastIrq = s.lastIrq := rfl
@[simp] theorem State.wr_irqDue (s : State) (f : Fld) (v : Nat) : (s.wr f v).irqDue = s.irqDue := rfl
@[simp] theorem State.wr_kvSeqs (s : State) (f : Fld) (v : Nat) : (s.wr f v).kvSeqs = s.kvSeqs := rfl
@[simp] theorem State.wr_kvPages (s : State) (f : Fld) (v : Nat) : (s.wr f v).kvPages = s.kvPages := rfl
@[simp] theorem State.wr_kvLazy (s : State) (f : Fld) (v : Nat) : (s.wr f v).kvLazy = s.kvLazy := rfl
@[simp] theorem State.wr_kvGeom (s : State) (f : Fld) (v : Nat) : (s.wr f v).kvGeom = s.kvGeom := rfl
@[simp] theorem State.wr_kvPoolLo (s : State) (f : Fld) (v : Nat) : (s.wr f v).kvPoolLo = s.kvPoolLo := rfl
@[simp] theorem State.wr_kvPoolHi (s : State) (f : Fld) (v : Nat) : (s.wr f v).kvPoolHi = s.kvPoolHi := rfl
@[simp] theorem State.wr_colls (s : State) (f : Fld) (v : Nat) : (s.wr f v).colls = s.colls := rfl
@[simp] theorem State.wr_store (s : State) (f : Fld) (v : Nat) : (s.wr f v).store = s.store := rfl
@[simp] theorem State.wr_triples (s : State) (f : Fld) (v : Nat) : (s.wr f v).triples = s.triples := rfl
@[simp] theorem State.wr_collWait (s : State) (f : Fld) (v : Nat) : (s.wr f v).collWait = s.collWait := rfl
@[simp] theorem State.wr_storeWait (s : State) (f : Fld) (v : Nat) : (s.wr f v).storeWait = s.storeWait := rfl
@[simp] theorem State.wr_held (s : State) (f : Fld) (v : Nat) : (s.wr f v).held = s.held := rfl
@[simp] theorem State.wr_nextBuf (s : State) (f : Fld) (v : Nat) : (s.wr f v).nextBuf = s.nextBuf := rfl
@[simp] theorem State.wr_hubIn (s : State) (f : Fld) (v : Nat) : (s.wr f v).hubIn = s.hubIn := rfl
@[simp] theorem State.wr_downLinks (s : State) (f : Fld) (v : Nat) : (s.wr f v).downLinks = s.downLinks := rfl
@[simp] theorem State.wr_lastDown (s : State) (f : Fld) (v : Nat) : (s.wr f v).lastDown = s.lastDown := rfl
@[simp] theorem State.wr_routable (s : State) (f : Fld) (v : Nat) : (s.wr f v).routable = s.routable := rfl
@[simp] theorem State.wr_compute (s : State) (f : Fld) (v : Nat) : (s.wr f v).compute = s.compute := rfl
@[simp] theorem State.wr_dirBits (s : State) (f : Fld) (v : Nat) : (s.wr f v).dirBits = s.dirBits := rfl
@[simp] theorem State.wr_padDue (s : State) (f : Fld) (v : Nat) : (s.wr f v).padDue = s.padDue := rfl
@[simp] theorem State.wr_partWait (s : State) (f : Fld) (v : Nat) : (s.wr f v).partWait = s.partWait := rfl
@[simp] theorem State.wr_jobIgnore (s : State) (f : Fld) (v : Nat) : (s.wr f v).jobIgnore = s.jobIgnore := rfl
@[simp] theorem State.wr_everUp (s : State) (f : Fld) (v : Nat) : (s.wr f v).everUp = s.everUp := rfl
@[simp] theorem State.wr_declSent (s : State) (f : Fld) (v : Nat) : (s.wr f v).declSent = s.declSent := rfl
@[simp] theorem State.wr_portsOff (s : State) (f : Fld) (v : Nat) : (s.wr f v).portsOff = s.portsOff := rfl
@[simp] theorem State.wr_ports (s : State) (f : Fld) (v : Nat) : (s.wr f v).ports = s.ports := rfl
@[simp] theorem State.wr_engines (s : State) (f : Fld) (v : Nat) : (s.wr f v).engines = s.engines := rfl
@[simp] theorem State.wr_leaves (s : State) (f : Fld) (v : Nat) : (s.wr f v).leaves = s.leaves := rfl
@[simp] theorem State.wr_chans (s : State) (f : Fld) (v : Nat) : (s.wr f v).chans = s.chans := rfl
@[simp] theorem State.wr_mboxes (s : State) (f : Fld) (v : Nat) : (s.wr f v).mboxes = s.mboxes := rfl
@[simp] theorem State.wr_goOrder (s : State) (f : Fld) (v : Nat) : (s.wr f v).goOrder = s.goOrder := rfl
@[simp] theorem State.wr_openAt (s : State) (f : Fld) (v : Nat) : (s.wr f v).openAt = s.openAt := rfl
@[simp] theorem State.wr_padAt (s : State) (f : Fld) (v : Nat) : (s.wr f v).padAt = s.padAt := rfl
@[simp] theorem State.wr_pairsOn (s : State) (f : Fld) (v : Nat) : (s.wr f v).pairsOn = s.pairsOn := rfl
@[simp] theorem State.wr_sensors (s : State) (f : Fld) (v : Nat) : (s.wr f v).sensors = s.sensors := rfl
@[simp] theorem State.wr_stretch (s : State) (f : Fld) (v : Nat) : (s.wr f v).stretch = s.stretch := rfl
@[simp] theorem State.wr_heat (s : State) (f : Fld) (v : Nat) : (s.wr f v).heat = s.heat := rfl
@[simp] theorem State.wr_steps (s : State) (f : Fld) (v : Nat) : (s.wr f v).steps = s.steps := rfl
@[simp] theorem State.wr_hubHot (s : State) (f : Fld) (v : Nat) : (s.wr f v).hubHot = s.hubHot := rfl
@[simp] theorem State.wr_capFell (s : State) (f : Fld) (v : Nat) : (s.wr f v).capFell = s.capFell := rfl
@[simp] theorem State.wr_charging (s : State) (f : Fld) (v : Nat) : (s.wr f v).charging = s.charging := rfl
@[simp] theorem State.wr_i3cAddr (s : State) (f : Fld) (v : Nat) : (s.wr f v).i3cAddr = s.i3cAddr := rfl
@[simp] theorem State.wr_i3cIndex (s : State) (f : Fld) (v : Nat) : (s.wr f v).i3cIndex = s.i3cIndex := rfl
@[simp] theorem State.wr_ibiOn (s : State) (f : Fld) (v : Nat) : (s.wr f v).ibiOn = s.ibiOn := rfl
@[simp] theorem State.wr_ibis (s : State) (f : Fld) (v : Nat) : (s.wr f v).ibis = s.ibis := rfl
@[simp] theorem State.wr_spdmVer (s : State) (f : Fld) (v : Nat) : (s.wr f v).spdmVer = s.spdmVer := rfl
@[simp] theorem State.wr_spdmAlgs (s : State) (f : Fld) (v : Nat) : (s.wr f v).spdmAlgs = s.spdmAlgs := rfl
@[simp] theorem State.wr_spdmLog (s : State) (f : Fld) (v : Nat) : (s.wr f v).spdmLog = s.spdmLog := rfl
@[simp] theorem State.wr_taps (s : State) (f : Fld) (v : Nat) : (s.wr f v).taps = s.taps := rfl
@[simp] theorem State.wr_testLow (s : State) (f : Fld) (v : Nat) : (s.wr f v).testLow = s.testLow := rfl

/-! `State.hmStore` -/

@[simp] theorem State.kvSpoil_pending (s : State) (off n : Nat) : (s.kvSpoil off n).pending = s.pending := by
  unfold State.kvSpoil; extract_lets; split <;> rfl
@[simp] theorem State.kvSpoil_clock (s : State) (off n : Nat) : (s.kvSpoil off n).clock = s.clock := by
  unfold State.kvSpoil; extract_lets; split <;> rfl
@[simp] theorem State.kvSpoil_rackTime (s : State) (off n : Nat) : (s.kvSpoil off n).rackTime = s.rackTime := by
  unfold State.kvSpoil; extract_lets; split <;> rfl
@[simp] theorem State.kvSpoil_rackHold (s : State) (off n : Nat) : (s.kvSpoil off n).rackHold = s.rackHold := by
  unfold State.kvSpoil; extract_lets; split <;> rfl
@[simp] theorem State.kvSpoil_rackSlew (s : State) (off n : Nat) : (s.kvSpoil off n).rackSlew = s.rackSlew := by
  unfold State.kvSpoil; extract_lets; split <;> rfl
@[simp] theorem State.kvSpoil_timeGood (s : State) (off n : Nat) : (s.kvSpoil off n).timeGood = s.timeGood := by
  unfold State.kvSpoil; extract_lets; split <;> rfl
@[simp] theorem State.kvSpoil_regs (s : State) (off n : Nat) : (s.kvSpoil off n).regs = s.regs := by
  unfold State.kvSpoil; extract_lets; split <;> rfl
@[simp] theorem State.kvSpoil_sub (s : State) (off n : Nat) : (s.kvSpoil off n).sub = s.sub := by
  unfold State.kvSpoil; extract_lets; split <;> rfl
@[simp] theorem State.kvSpoil_lag (s : State) (off n : Nat) : (s.kvSpoil off n).lag = s.lag := by
  unfold State.kvSpoil; extract_lets; split <;> rfl
@[simp] theorem State.kvSpoil_prsnt (s : State) (off n : Nat) : (s.kvSpoil off n).prsnt = s.prsnt := by
  unfold State.kvSpoil; extract_lets; split <;> rfl
@[simp] theorem State.kvSpoil_perst (s : State) (off n : Nat) : (s.kvSpoil off n).perst = s.perst := by
  unfold State.kvSpoil; extract_lets; split <;> rfl
@[simp] theorem State.kvSpoil_powered (s : State) (off n : Nat) : (s.kvSpoil off n).powered = s.powered := by
  unfold State.kvSpoil; extract_lets; split <;> rfl
@[simp] theorem State.kvSpoil_input (s : State) (off n : Nat) : (s.kvSpoil off n).input = s.input := by
  unfold State.kvSpoil; extract_lets; split <;> rfl
@[simp] theorem State.kvSpoil_volt (s : State) (off n : Nat) : (s.kvSpoil off n).volt = s.volt := by
  unfold State.kvSpoil; extract_lets; split <;> rfl
@[simp] theorem State.kvSpoil_straps (s : State) (off n : Nat) : (s.kvSpoil off n).straps = s.straps := by
  unfold State.kvSpoil; extract_lets; split <;> rfl
@[simp] theorem State.kvSpoil_strapsDue (s : State) (off n : Nat) : (s.kvSpoil off n).strapsDue = s.strapsDue := by
  unfold State.kvSpoil; extract_lets; split <;> rfl
@[simp] theorem State.kvSpoil_fru (s : State) (off n : Nat) : (s.kvSpoil off n).fru = s.fru := by
  unfold State.kvSpoil; extract_lets; split <;> rfl
@[simp] theorem State.kvSpoil_flash (s : State) (off n : Nat) : (s.kvSpoil off n).flash = s.flash := by
  unfold State.kvSpoil; extract_lets; split <;> rfl
@[simp] theorem State.kvSpoil_fuses (s : State) (off n : Nat) : (s.kvSpoil off n).fuses = s.fuses := by
  unfold State.kvSpoil; extract_lets; split <;> rfl
@[simp] theorem State.kvSpoil_meas (s : State) (off n : Nat) : (s.kvSpoil off n).meas = s.meas := by
  unfold State.kvSpoil; extract_lets; split <;> rfl
@[simp] theorem State.kvSpoil_config (s : State) (off n : Nat) : (s.kvSpoil off n).config = s.config := by
  unfold State.kvSpoil; extract_lets; split <;> rfl
@[simp] theorem State.kvSpoil_failed (s : State) (off n : Nat) : (s.kvSpoil off n).failed = s.failed := by
  unfold State.kvSpoil; extract_lets; split <;> rfl
@[simp] theorem State.kvSpoil_cores (s : State) (off n : Nat) : (s.kvSpoil off n).cores = s.cores := by
  unfold State.kvSpoil; extract_lets; split <;> rfl
@[simp] theorem State.kvSpoil_hm (s : State) (off n : Nat) : (s.kvSpoil off n).hm = s.hm := by
  unfold State.kvSpoil; extract_lets; split <;> rfl
@[simp] theorem State.kvSpoil_hmBad (s : State) (off n : Nat) : (s.kvSpoil off n).hmBad = s.hmBad := by
  unfold State.kvSpoil; extract_lets; split <;> rfl
@[simp] theorem State.kvSpoil_lm (s : State) (off n : Nat) : (s.kvSpoil off n).lm = s.lm := by
  unfold State.kvSpoil; extract_lets; split <;> rfl
@[simp] theorem State.kvSpoil_lmPoison (s : State) (off n : Nat) : (s.kvSpoil off n).lmPoison = s.lmPoison := by
  unfold State.kvSpoil; extract_lets; split <;> rfl
@[simp] theorem State.kvSpoil_cache (s : State) (off n : Nat) : (s.kvSpoil off n).cache = s.cache := by
  unfold State.kvSpoil; extract_lets; split <;> rfl
@[simp] theorem State.kvSpoil_slogRing (s : State) (off n : Nat) : (s.kvSpoil off n).slogRing = s.slogRing := by
  unfold State.kvSpoil; extract_lets; split <;> rfl
@[simp] theorem State.kvSpoil_slogs (s : State) (off n : Nat) : (s.kvSpoil off n).slogs = s.slogs := by
  unfold State.kvSpoil; extract_lets; split <;> rfl
@[simp] theorem State.kvSpoil_txns (s : State) (off n : Nat) : (s.kvSpoil off n).txns = s.txns := by
  unfold State.kvSpoil; extract_lets; split <;> rfl
@[simp] theorem State.kvSpoil_nextTag (s : State) (off n : Nat) : (s.kvSpoil off n).nextTag = s.nextTag := by
  unfold State.kvSpoil; extract_lets; split <;> rfl
@[simp] theorem State.kvSpoil_nextSig (s : State) (off n : Nat) : (s.kvSpoil off n).nextSig = s.nextSig := by
  unfold State.kvSpoil; extract_lets; split <;> rfl
@[simp] theorem State.kvSpoil_opids (s : State) (off n : Nat) : (s.kvSpoil off n).opids = s.opids := by
  unfold State.kvSpoil; extract_lets; split <;> rfl
@[simp] theorem State.kvSpoil_winUse (s : State) (off n : Nat) : (s.kvSpoil off n).winUse = s.winUse := by
  unfold State.kvSpoil; extract_lets; split <;> rfl
@[simp] theorem State.kvSpoil_nextPre (s : State) (off n : Nat) : (s.kvSpoil off n).nextPre = s.nextPre := by
  unfold State.kvSpoil; extract_lets; split <;> rfl
@[simp] theorem State.kvSpoil_replays (s : State) (off n : Nat) : (s.kvSpoil off n).replays = s.replays := by
  unfold State.kvSpoil; extract_lets; split <;> rfl
@[simp] theorem State.kvSpoil_dedup (s : State) (off n : Nat) : (s.kvSpoil off n).dedup = s.dedup := by
  unfold State.kvSpoil; extract_lets; split <;> rfl
@[simp] theorem State.kvSpoil_dedupWait (s : State) (off n : Nat) : (s.kvSpoil off n).dedupWait = s.dedupWait := by
  unfold State.kvSpoil; extract_lets; split <;> rfl
@[simp] theorem State.kvSpoil_sigs (s : State) (off n : Nat) : (s.kvSpoil off n).sigs = s.sigs := by
  unfold State.kvSpoil; extract_lets; split <;> rfl
@[simp] theorem State.kvSpoil_heldReqs (s : State) (off n : Nat) : (s.kvSpoil off n).heldReqs = s.heldReqs := by
  unfold State.kvSpoil; extract_lets; split <;> rfl
@[simp] theorem State.kvSpoil_c0Held (s : State) (off n : Nat) : (s.kvSpoil off n).c0Held = s.c0Held := by
  unfold State.kvSpoil; extract_lets; split <;> rfl
@[simp] theorem State.kvSpoil_c0Last (s : State) (off n : Nat) : (s.kvSpoil off n).c0Last = s.c0Last := by
  unfold State.kvSpoil; extract_lets; split <;> rfl
@[simp] theorem State.kvSpoil_hubTum (s : State) (off n : Nat) : (s.kvSpoil off n).hubTum = s.hubTum := by
  unfold State.kvSpoil; extract_lets; split <;> rfl
@[simp] theorem State.kvSpoil_allocs (s : State) (off n : Nat) : (s.kvSpoil off n).allocs = s.allocs := by
  unfold State.kvSpoil; extract_lets; split <;> rfl
@[simp] theorem State.kvSpoil_waiters (s : State) (off n : Nat) : (s.kvSpoil off n).waiters = s.waiters := by
  unfold State.kvSpoil; extract_lets; split <;> rfl
@[simp] theorem State.kvSpoil_park (s : State) (off n : Nat) : (s.kvSpoil off n).park = s.park := by
  unfold State.kvSpoil; extract_lets; split <;> rfl
@[simp] theorem State.kvSpoil_refused (s : State) (off n : Nat) : (s.kvSpoil off n).refused = s.refused := by
  unfold State.kvSpoil; extract_lets; split <;> rfl
@[simp] theorem State.kvSpoil_tasks (s : State) (off n : Nat) : (s.kvSpoil off n).tasks = s.tasks := by
  unfold State.kvSpoil; extract_lets; split <;> rfl
@[simp] theorem State.kvSpoil_nextTask (s : State) (off n : Nat) : (s.kvSpoil off n).nextTask = s.nextTask := by
  unfold State.kvSpoil; extract_lets; split <;> rfl
@[simp] theorem State.kvSpoil_nextSeq (s : State) (off n : Nat) : (s.kvSpoil off n).nextSeq = s.nextSeq := by
  unfold State.kvSpoil; extract_lets; split <;> rfl
@[simp] theorem State.kvSpoil_queues (s : State) (off n : Nat) : (s.kvSpoil off n).queues = s.queues := by
  unfold State.kvSpoil; extract_lets; split <;> rfl
@[simp] theorem State.kvSpoil_lastQ (s : State) (off n : Nat) : (s.kvSpoil off n).lastQ = s.lastQ := by
  unfold State.kvSpoil; extract_lets; split <;> rfl
@[simp] theorem State.kvSpoil_hostOut (s : State) (off n : Nat) : (s.kvSpoil off n).hostOut = s.hostOut := by
  unfold State.kvSpoil; extract_lets; split <;> rfl
@[simp] theorem State.kvSpoil_sideOut (s : State) (off n : Nat) : (s.kvSpoil off n).sideOut = s.sideOut := by
  unfold State.kvSpoil; extract_lets; split <;> rfl
@[simp] theorem State.kvSpoil_faultq (s : State) (off n : Nat) : (s.kvSpoil off n).faultq = s.faultq := by
  unfold State.kvSpoil; extract_lets; split <;> rfl
@[simp] theorem State.kvSpoil_faultWait (s : State) (off n : Nat) : (s.kvSpoil off n).faultWait = s.faultWait := by
  unfold State.kvSpoil; extract_lets; split <;> rfl
@[simp] theorem State.kvSpoil_errSeq (s : State) (off n : Nat) : (s.kvSpoil off n).errSeq = s.errSeq := by
  unfold State.kvSpoil; extract_lets; split <;> rfl
@[simp] theorem State.kvSpoil_lastIrq (s : State) (off n : Nat) : (s.kvSpoil off n).lastIrq = s.lastIrq := by
  unfold State.kvSpoil; extract_lets; split <;> rfl
@[simp] theorem State.kvSpoil_irqDue (s : State) (off n : Nat) : (s.kvSpoil off n).irqDue = s.irqDue := by
  unfold State.kvSpoil; extract_lets; split <;> rfl
@[simp] theorem State.kvSpoil_kvLazy (s : State) (off n : Nat) : (s.kvSpoil off n).kvLazy = s.kvLazy := by
  unfold State.kvSpoil; extract_lets; split <;> rfl
@[simp] theorem State.kvSpoil_kvGeom (s : State) (off n : Nat) : (s.kvSpoil off n).kvGeom = s.kvGeom := by
  unfold State.kvSpoil; extract_lets; split <;> rfl
@[simp] theorem State.kvSpoil_kvPoolLo (s : State) (off n : Nat) : (s.kvSpoil off n).kvPoolLo = s.kvPoolLo := by
  unfold State.kvSpoil; extract_lets; split <;> rfl
@[simp] theorem State.kvSpoil_kvPoolHi (s : State) (off n : Nat) : (s.kvSpoil off n).kvPoolHi = s.kvPoolHi := by
  unfold State.kvSpoil; extract_lets; split <;> rfl
@[simp] theorem State.kvSpoil_colls (s : State) (off n : Nat) : (s.kvSpoil off n).colls = s.colls := by
  unfold State.kvSpoil; extract_lets; split <;> rfl
@[simp] theorem State.kvSpoil_store (s : State) (off n : Nat) : (s.kvSpoil off n).store = s.store := by
  unfold State.kvSpoil; extract_lets; split <;> rfl
@[simp] theorem State.kvSpoil_triples (s : State) (off n : Nat) : (s.kvSpoil off n).triples = s.triples := by
  unfold State.kvSpoil; extract_lets; split <;> rfl
@[simp] theorem State.kvSpoil_collWait (s : State) (off n : Nat) : (s.kvSpoil off n).collWait = s.collWait := by
  unfold State.kvSpoil; extract_lets; split <;> rfl
@[simp] theorem State.kvSpoil_storeWait (s : State) (off n : Nat) : (s.kvSpoil off n).storeWait = s.storeWait := by
  unfold State.kvSpoil; extract_lets; split <;> rfl
@[simp] theorem State.kvSpoil_held (s : State) (off n : Nat) : (s.kvSpoil off n).held = s.held := by
  unfold State.kvSpoil; extract_lets; split <;> rfl
@[simp] theorem State.kvSpoil_nextBuf (s : State) (off n : Nat) : (s.kvSpoil off n).nextBuf = s.nextBuf := by
  unfold State.kvSpoil; extract_lets; split <;> rfl
@[simp] theorem State.kvSpoil_hubIn (s : State) (off n : Nat) : (s.kvSpoil off n).hubIn = s.hubIn := by
  unfold State.kvSpoil; extract_lets; split <;> rfl
@[simp] theorem State.kvSpoil_downLinks (s : State) (off n : Nat) : (s.kvSpoil off n).downLinks = s.downLinks := by
  unfold State.kvSpoil; extract_lets; split <;> rfl
@[simp] theorem State.kvSpoil_lastDown (s : State) (off n : Nat) : (s.kvSpoil off n).lastDown = s.lastDown := by
  unfold State.kvSpoil; extract_lets; split <;> rfl
@[simp] theorem State.kvSpoil_routable (s : State) (off n : Nat) : (s.kvSpoil off n).routable = s.routable := by
  unfold State.kvSpoil; extract_lets; split <;> rfl
@[simp] theorem State.kvSpoil_compute (s : State) (off n : Nat) : (s.kvSpoil off n).compute = s.compute := by
  unfold State.kvSpoil; extract_lets; split <;> rfl
@[simp] theorem State.kvSpoil_dirBits (s : State) (off n : Nat) : (s.kvSpoil off n).dirBits = s.dirBits := by
  unfold State.kvSpoil; extract_lets; split <;> rfl
@[simp] theorem State.kvSpoil_padDue (s : State) (off n : Nat) : (s.kvSpoil off n).padDue = s.padDue := by
  unfold State.kvSpoil; extract_lets; split <;> rfl
@[simp] theorem State.kvSpoil_partWait (s : State) (off n : Nat) : (s.kvSpoil off n).partWait = s.partWait := by
  unfold State.kvSpoil; extract_lets; split <;> rfl
@[simp] theorem State.kvSpoil_jobIgnore (s : State) (off n : Nat) : (s.kvSpoil off n).jobIgnore = s.jobIgnore := by
  unfold State.kvSpoil; extract_lets; split <;> rfl
@[simp] theorem State.kvSpoil_everUp (s : State) (off n : Nat) : (s.kvSpoil off n).everUp = s.everUp := by
  unfold State.kvSpoil; extract_lets; split <;> rfl
@[simp] theorem State.kvSpoil_declSent (s : State) (off n : Nat) : (s.kvSpoil off n).declSent = s.declSent := by
  unfold State.kvSpoil; extract_lets; split <;> rfl
@[simp] theorem State.kvSpoil_portsOff (s : State) (off n : Nat) : (s.kvSpoil off n).portsOff = s.portsOff := by
  unfold State.kvSpoil; extract_lets; split <;> rfl
@[simp] theorem State.kvSpoil_ports (s : State) (off n : Nat) : (s.kvSpoil off n).ports = s.ports := by
  unfold State.kvSpoil; extract_lets; split <;> rfl
@[simp] theorem State.kvSpoil_engines (s : State) (off n : Nat) : (s.kvSpoil off n).engines = s.engines := by
  unfold State.kvSpoil; extract_lets; split <;> rfl
@[simp] theorem State.kvSpoil_leaves (s : State) (off n : Nat) : (s.kvSpoil off n).leaves = s.leaves := by
  unfold State.kvSpoil; extract_lets; split <;> rfl
@[simp] theorem State.kvSpoil_chans (s : State) (off n : Nat) : (s.kvSpoil off n).chans = s.chans := by
  unfold State.kvSpoil; extract_lets; split <;> rfl
@[simp] theorem State.kvSpoil_mboxes (s : State) (off n : Nat) : (s.kvSpoil off n).mboxes = s.mboxes := by
  unfold State.kvSpoil; extract_lets; split <;> rfl
@[simp] theorem State.kvSpoil_goOrder (s : State) (off n : Nat) : (s.kvSpoil off n).goOrder = s.goOrder := by
  unfold State.kvSpoil; extract_lets; split <;> rfl
@[simp] theorem State.kvSpoil_openAt (s : State) (off n : Nat) : (s.kvSpoil off n).openAt = s.openAt := by
  unfold State.kvSpoil; extract_lets; split <;> rfl
@[simp] theorem State.kvSpoil_padAt (s : State) (off n : Nat) : (s.kvSpoil off n).padAt = s.padAt := by
  unfold State.kvSpoil; extract_lets; split <;> rfl
@[simp] theorem State.kvSpoil_pairsOn (s : State) (off n : Nat) : (s.kvSpoil off n).pairsOn = s.pairsOn := by
  unfold State.kvSpoil; extract_lets; split <;> rfl
@[simp] theorem State.kvSpoil_sensors (s : State) (off n : Nat) : (s.kvSpoil off n).sensors = s.sensors := by
  unfold State.kvSpoil; extract_lets; split <;> rfl
@[simp] theorem State.kvSpoil_stretch (s : State) (off n : Nat) : (s.kvSpoil off n).stretch = s.stretch := by
  unfold State.kvSpoil; extract_lets; split <;> rfl
@[simp] theorem State.kvSpoil_heat (s : State) (off n : Nat) : (s.kvSpoil off n).heat = s.heat := by
  unfold State.kvSpoil; extract_lets; split <;> rfl
@[simp] theorem State.kvSpoil_steps (s : State) (off n : Nat) : (s.kvSpoil off n).steps = s.steps := by
  unfold State.kvSpoil; extract_lets; split <;> rfl
@[simp] theorem State.kvSpoil_hubHot (s : State) (off n : Nat) : (s.kvSpoil off n).hubHot = s.hubHot := by
  unfold State.kvSpoil; extract_lets; split <;> rfl
@[simp] theorem State.kvSpoil_capFell (s : State) (off n : Nat) : (s.kvSpoil off n).capFell = s.capFell := by
  unfold State.kvSpoil; extract_lets; split <;> rfl
@[simp] theorem State.kvSpoil_charging (s : State) (off n : Nat) : (s.kvSpoil off n).charging = s.charging := by
  unfold State.kvSpoil; extract_lets; split <;> rfl
@[simp] theorem State.kvSpoil_i3cAddr (s : State) (off n : Nat) : (s.kvSpoil off n).i3cAddr = s.i3cAddr := by
  unfold State.kvSpoil; extract_lets; split <;> rfl
@[simp] theorem State.kvSpoil_i3cIndex (s : State) (off n : Nat) : (s.kvSpoil off n).i3cIndex = s.i3cIndex := by
  unfold State.kvSpoil; extract_lets; split <;> rfl
@[simp] theorem State.kvSpoil_ibiOn (s : State) (off n : Nat) : (s.kvSpoil off n).ibiOn = s.ibiOn := by
  unfold State.kvSpoil; extract_lets; split <;> rfl
@[simp] theorem State.kvSpoil_ibis (s : State) (off n : Nat) : (s.kvSpoil off n).ibis = s.ibis := by
  unfold State.kvSpoil; extract_lets; split <;> rfl
@[simp] theorem State.kvSpoil_spdmVer (s : State) (off n : Nat) : (s.kvSpoil off n).spdmVer = s.spdmVer := by
  unfold State.kvSpoil; extract_lets; split <;> rfl
@[simp] theorem State.kvSpoil_spdmAlgs (s : State) (off n : Nat) : (s.kvSpoil off n).spdmAlgs = s.spdmAlgs := by
  unfold State.kvSpoil; extract_lets; split <;> rfl
@[simp] theorem State.kvSpoil_spdmLog (s : State) (off n : Nat) : (s.kvSpoil off n).spdmLog = s.spdmLog := by
  unfold State.kvSpoil; extract_lets; split <;> rfl
@[simp] theorem State.kvSpoil_taps (s : State) (off n : Nat) : (s.kvSpoil off n).taps = s.taps := by
  unfold State.kvSpoil; extract_lets; split <;> rfl
@[simp] theorem State.kvSpoil_testLow (s : State) (off n : Nat) : (s.kvSpoil off n).testLow = s.testLow := by
  unfold State.kvSpoil; extract_lets; split <;> rfl

@[simp] theorem State.hmStore_pending (s : State) (off : Nat) (bs : List Byte) : (s.hmStore off bs).pending = s.pending := s.kvSpoil_pending off bs.length
@[simp] theorem State.hmStore_clock (s : State) (off : Nat) (bs : List Byte) : (s.hmStore off bs).clock = s.clock := s.kvSpoil_clock off bs.length
@[simp] theorem State.hmStore_rackTime (s : State) (off : Nat) (bs : List Byte) : (s.hmStore off bs).rackTime = s.rackTime := s.kvSpoil_rackTime off bs.length
@[simp] theorem State.hmStore_rackHold (s : State) (off : Nat) (bs : List Byte) : (s.hmStore off bs).rackHold = s.rackHold := s.kvSpoil_rackHold off bs.length
@[simp] theorem State.hmStore_rackSlew (s : State) (off : Nat) (bs : List Byte) : (s.hmStore off bs).rackSlew = s.rackSlew := s.kvSpoil_rackSlew off bs.length
@[simp] theorem State.hmStore_timeGood (s : State) (off : Nat) (bs : List Byte) : (s.hmStore off bs).timeGood = s.timeGood := s.kvSpoil_timeGood off bs.length
@[simp] theorem State.hmStore_regs (s : State) (off : Nat) (bs : List Byte) : (s.hmStore off bs).regs = s.regs := s.kvSpoil_regs off bs.length
@[simp] theorem State.hmStore_sub (s : State) (off : Nat) (bs : List Byte) : (s.hmStore off bs).sub = s.sub := s.kvSpoil_sub off bs.length
@[simp] theorem State.hmStore_lag (s : State) (off : Nat) (bs : List Byte) : (s.hmStore off bs).lag = s.lag := s.kvSpoil_lag off bs.length
@[simp] theorem State.hmStore_prsnt (s : State) (off : Nat) (bs : List Byte) : (s.hmStore off bs).prsnt = s.prsnt := s.kvSpoil_prsnt off bs.length
@[simp] theorem State.hmStore_perst (s : State) (off : Nat) (bs : List Byte) : (s.hmStore off bs).perst = s.perst := s.kvSpoil_perst off bs.length
@[simp] theorem State.hmStore_powered (s : State) (off : Nat) (bs : List Byte) : (s.hmStore off bs).powered = s.powered := s.kvSpoil_powered off bs.length
@[simp] theorem State.hmStore_input (s : State) (off : Nat) (bs : List Byte) : (s.hmStore off bs).input = s.input := s.kvSpoil_input off bs.length
@[simp] theorem State.hmStore_volt (s : State) (off : Nat) (bs : List Byte) : (s.hmStore off bs).volt = s.volt := s.kvSpoil_volt off bs.length
@[simp] theorem State.hmStore_straps (s : State) (off : Nat) (bs : List Byte) : (s.hmStore off bs).straps = s.straps := s.kvSpoil_straps off bs.length
@[simp] theorem State.hmStore_strapsDue (s : State) (off : Nat) (bs : List Byte) : (s.hmStore off bs).strapsDue = s.strapsDue := s.kvSpoil_strapsDue off bs.length
@[simp] theorem State.hmStore_fru (s : State) (off : Nat) (bs : List Byte) : (s.hmStore off bs).fru = s.fru := s.kvSpoil_fru off bs.length
@[simp] theorem State.hmStore_flash (s : State) (off : Nat) (bs : List Byte) : (s.hmStore off bs).flash = s.flash := s.kvSpoil_flash off bs.length
@[simp] theorem State.hmStore_fuses (s : State) (off : Nat) (bs : List Byte) : (s.hmStore off bs).fuses = s.fuses := s.kvSpoil_fuses off bs.length
@[simp] theorem State.hmStore_meas (s : State) (off : Nat) (bs : List Byte) : (s.hmStore off bs).meas = s.meas := s.kvSpoil_meas off bs.length
@[simp] theorem State.hmStore_config (s : State) (off : Nat) (bs : List Byte) : (s.hmStore off bs).config = s.config := s.kvSpoil_config off bs.length
@[simp] theorem State.hmStore_failed (s : State) (off : Nat) (bs : List Byte) : (s.hmStore off bs).failed = s.failed := s.kvSpoil_failed off bs.length
@[simp] theorem State.hmStore_cores (s : State) (off : Nat) (bs : List Byte) : (s.hmStore off bs).cores = s.cores := s.kvSpoil_cores off bs.length
@[simp] theorem State.hmStore_lm (s : State) (off : Nat) (bs : List Byte) : (s.hmStore off bs).lm = s.lm := s.kvSpoil_lm off bs.length
@[simp] theorem State.hmStore_lmPoison (s : State) (off : Nat) (bs : List Byte) : (s.hmStore off bs).lmPoison = s.lmPoison := s.kvSpoil_lmPoison off bs.length
@[simp] theorem State.hmStore_cache (s : State) (off : Nat) (bs : List Byte) : (s.hmStore off bs).cache = s.cache := s.kvSpoil_cache off bs.length
@[simp] theorem State.hmStore_slogRing (s : State) (off : Nat) (bs : List Byte) : (s.hmStore off bs).slogRing = s.slogRing := s.kvSpoil_slogRing off bs.length
@[simp] theorem State.hmStore_slogs (s : State) (off : Nat) (bs : List Byte) : (s.hmStore off bs).slogs = s.slogs := s.kvSpoil_slogs off bs.length
@[simp] theorem State.hmStore_txns (s : State) (off : Nat) (bs : List Byte) : (s.hmStore off bs).txns = s.txns := s.kvSpoil_txns off bs.length
@[simp] theorem State.hmStore_nextTag (s : State) (off : Nat) (bs : List Byte) : (s.hmStore off bs).nextTag = s.nextTag := s.kvSpoil_nextTag off bs.length
@[simp] theorem State.hmStore_nextSig (s : State) (off : Nat) (bs : List Byte) : (s.hmStore off bs).nextSig = s.nextSig := s.kvSpoil_nextSig off bs.length
@[simp] theorem State.hmStore_opids (s : State) (off : Nat) (bs : List Byte) : (s.hmStore off bs).opids = s.opids := s.kvSpoil_opids off bs.length
@[simp] theorem State.hmStore_winUse (s : State) (off : Nat) (bs : List Byte) : (s.hmStore off bs).winUse = s.winUse := s.kvSpoil_winUse off bs.length
@[simp] theorem State.hmStore_nextPre (s : State) (off : Nat) (bs : List Byte) : (s.hmStore off bs).nextPre = s.nextPre := s.kvSpoil_nextPre off bs.length
@[simp] theorem State.hmStore_replays (s : State) (off : Nat) (bs : List Byte) : (s.hmStore off bs).replays = s.replays := s.kvSpoil_replays off bs.length
@[simp] theorem State.hmStore_dedup (s : State) (off : Nat) (bs : List Byte) : (s.hmStore off bs).dedup = s.dedup := s.kvSpoil_dedup off bs.length
@[simp] theorem State.hmStore_dedupWait (s : State) (off : Nat) (bs : List Byte) : (s.hmStore off bs).dedupWait = s.dedupWait := s.kvSpoil_dedupWait off bs.length
@[simp] theorem State.hmStore_sigs (s : State) (off : Nat) (bs : List Byte) : (s.hmStore off bs).sigs = s.sigs := s.kvSpoil_sigs off bs.length
@[simp] theorem State.hmStore_heldReqs (s : State) (off : Nat) (bs : List Byte) : (s.hmStore off bs).heldReqs = s.heldReqs := s.kvSpoil_heldReqs off bs.length
@[simp] theorem State.hmStore_c0Held (s : State) (off : Nat) (bs : List Byte) : (s.hmStore off bs).c0Held = s.c0Held := s.kvSpoil_c0Held off bs.length
@[simp] theorem State.hmStore_c0Last (s : State) (off : Nat) (bs : List Byte) : (s.hmStore off bs).c0Last = s.c0Last := s.kvSpoil_c0Last off bs.length
@[simp] theorem State.hmStore_hubTum (s : State) (off : Nat) (bs : List Byte) : (s.hmStore off bs).hubTum = s.hubTum := s.kvSpoil_hubTum off bs.length
@[simp] theorem State.hmStore_allocs (s : State) (off : Nat) (bs : List Byte) : (s.hmStore off bs).allocs = s.allocs := s.kvSpoil_allocs off bs.length
@[simp] theorem State.hmStore_waiters (s : State) (off : Nat) (bs : List Byte) : (s.hmStore off bs).waiters = s.waiters := s.kvSpoil_waiters off bs.length
@[simp] theorem State.hmStore_park (s : State) (off : Nat) (bs : List Byte) : (s.hmStore off bs).park = s.park := s.kvSpoil_park off bs.length
@[simp] theorem State.hmStore_refused (s : State) (off : Nat) (bs : List Byte) : (s.hmStore off bs).refused = s.refused := s.kvSpoil_refused off bs.length
@[simp] theorem State.hmStore_tasks (s : State) (off : Nat) (bs : List Byte) : (s.hmStore off bs).tasks = s.tasks := s.kvSpoil_tasks off bs.length
@[simp] theorem State.hmStore_nextTask (s : State) (off : Nat) (bs : List Byte) : (s.hmStore off bs).nextTask = s.nextTask := s.kvSpoil_nextTask off bs.length
@[simp] theorem State.hmStore_nextSeq (s : State) (off : Nat) (bs : List Byte) : (s.hmStore off bs).nextSeq = s.nextSeq := s.kvSpoil_nextSeq off bs.length
@[simp] theorem State.hmStore_queues (s : State) (off : Nat) (bs : List Byte) : (s.hmStore off bs).queues = s.queues := s.kvSpoil_queues off bs.length
@[simp] theorem State.hmStore_lastQ (s : State) (off : Nat) (bs : List Byte) : (s.hmStore off bs).lastQ = s.lastQ := s.kvSpoil_lastQ off bs.length
@[simp] theorem State.hmStore_hostOut (s : State) (off : Nat) (bs : List Byte) : (s.hmStore off bs).hostOut = s.hostOut := s.kvSpoil_hostOut off bs.length
@[simp] theorem State.hmStore_sideOut (s : State) (off : Nat) (bs : List Byte) : (s.hmStore off bs).sideOut = s.sideOut := s.kvSpoil_sideOut off bs.length
@[simp] theorem State.hmStore_faultq (s : State) (off : Nat) (bs : List Byte) : (s.hmStore off bs).faultq = s.faultq := s.kvSpoil_faultq off bs.length
@[simp] theorem State.hmStore_faultWait (s : State) (off : Nat) (bs : List Byte) : (s.hmStore off bs).faultWait = s.faultWait := s.kvSpoil_faultWait off bs.length
@[simp] theorem State.hmStore_errSeq (s : State) (off : Nat) (bs : List Byte) : (s.hmStore off bs).errSeq = s.errSeq := s.kvSpoil_errSeq off bs.length
@[simp] theorem State.hmStore_lastIrq (s : State) (off : Nat) (bs : List Byte) : (s.hmStore off bs).lastIrq = s.lastIrq := s.kvSpoil_lastIrq off bs.length
@[simp] theorem State.hmStore_irqDue (s : State) (off : Nat) (bs : List Byte) : (s.hmStore off bs).irqDue = s.irqDue := s.kvSpoil_irqDue off bs.length
@[simp] theorem State.hmStore_kvLazy (s : State) (off : Nat) (bs : List Byte) : (s.hmStore off bs).kvLazy = s.kvLazy := s.kvSpoil_kvLazy off bs.length
@[simp] theorem State.hmStore_kvGeom (s : State) (off : Nat) (bs : List Byte) : (s.hmStore off bs).kvGeom = s.kvGeom := s.kvSpoil_kvGeom off bs.length
@[simp] theorem State.hmStore_kvPoolLo (s : State) (off : Nat) (bs : List Byte) : (s.hmStore off bs).kvPoolLo = s.kvPoolLo := s.kvSpoil_kvPoolLo off bs.length
@[simp] theorem State.hmStore_kvPoolHi (s : State) (off : Nat) (bs : List Byte) : (s.hmStore off bs).kvPoolHi = s.kvPoolHi := s.kvSpoil_kvPoolHi off bs.length
@[simp] theorem State.hmStore_colls (s : State) (off : Nat) (bs : List Byte) : (s.hmStore off bs).colls = s.colls := s.kvSpoil_colls off bs.length
@[simp] theorem State.hmStore_store (s : State) (off : Nat) (bs : List Byte) : (s.hmStore off bs).store = s.store := s.kvSpoil_store off bs.length
@[simp] theorem State.hmStore_triples (s : State) (off : Nat) (bs : List Byte) : (s.hmStore off bs).triples = s.triples := s.kvSpoil_triples off bs.length
@[simp] theorem State.hmStore_collWait (s : State) (off : Nat) (bs : List Byte) : (s.hmStore off bs).collWait = s.collWait := s.kvSpoil_collWait off bs.length
@[simp] theorem State.hmStore_storeWait (s : State) (off : Nat) (bs : List Byte) : (s.hmStore off bs).storeWait = s.storeWait := s.kvSpoil_storeWait off bs.length
@[simp] theorem State.hmStore_held (s : State) (off : Nat) (bs : List Byte) : (s.hmStore off bs).held = s.held := s.kvSpoil_held off bs.length
@[simp] theorem State.hmStore_nextBuf (s : State) (off : Nat) (bs : List Byte) : (s.hmStore off bs).nextBuf = s.nextBuf := s.kvSpoil_nextBuf off bs.length
@[simp] theorem State.hmStore_hubIn (s : State) (off : Nat) (bs : List Byte) : (s.hmStore off bs).hubIn = s.hubIn := s.kvSpoil_hubIn off bs.length
@[simp] theorem State.hmStore_downLinks (s : State) (off : Nat) (bs : List Byte) : (s.hmStore off bs).downLinks = s.downLinks := s.kvSpoil_downLinks off bs.length
@[simp] theorem State.hmStore_lastDown (s : State) (off : Nat) (bs : List Byte) : (s.hmStore off bs).lastDown = s.lastDown := s.kvSpoil_lastDown off bs.length
@[simp] theorem State.hmStore_routable (s : State) (off : Nat) (bs : List Byte) : (s.hmStore off bs).routable = s.routable := s.kvSpoil_routable off bs.length
@[simp] theorem State.hmStore_compute (s : State) (off : Nat) (bs : List Byte) : (s.hmStore off bs).compute = s.compute := s.kvSpoil_compute off bs.length
@[simp] theorem State.hmStore_dirBits (s : State) (off : Nat) (bs : List Byte) : (s.hmStore off bs).dirBits = s.dirBits := s.kvSpoil_dirBits off bs.length
@[simp] theorem State.hmStore_padDue (s : State) (off : Nat) (bs : List Byte) : (s.hmStore off bs).padDue = s.padDue := s.kvSpoil_padDue off bs.length
@[simp] theorem State.hmStore_partWait (s : State) (off : Nat) (bs : List Byte) : (s.hmStore off bs).partWait = s.partWait := s.kvSpoil_partWait off bs.length
@[simp] theorem State.hmStore_jobIgnore (s : State) (off : Nat) (bs : List Byte) : (s.hmStore off bs).jobIgnore = s.jobIgnore := s.kvSpoil_jobIgnore off bs.length
@[simp] theorem State.hmStore_everUp (s : State) (off : Nat) (bs : List Byte) : (s.hmStore off bs).everUp = s.everUp := s.kvSpoil_everUp off bs.length
@[simp] theorem State.hmStore_declSent (s : State) (off : Nat) (bs : List Byte) : (s.hmStore off bs).declSent = s.declSent := s.kvSpoil_declSent off bs.length
@[simp] theorem State.hmStore_portsOff (s : State) (off : Nat) (bs : List Byte) : (s.hmStore off bs).portsOff = s.portsOff := s.kvSpoil_portsOff off bs.length
@[simp] theorem State.hmStore_ports (s : State) (off : Nat) (bs : List Byte) : (s.hmStore off bs).ports = s.ports := s.kvSpoil_ports off bs.length
@[simp] theorem State.hmStore_engines (s : State) (off : Nat) (bs : List Byte) : (s.hmStore off bs).engines = s.engines := s.kvSpoil_engines off bs.length
@[simp] theorem State.hmStore_leaves (s : State) (off : Nat) (bs : List Byte) : (s.hmStore off bs).leaves = s.leaves := s.kvSpoil_leaves off bs.length
@[simp] theorem State.hmStore_chans (s : State) (off : Nat) (bs : List Byte) : (s.hmStore off bs).chans = s.chans := s.kvSpoil_chans off bs.length
@[simp] theorem State.hmStore_mboxes (s : State) (off : Nat) (bs : List Byte) : (s.hmStore off bs).mboxes = s.mboxes := s.kvSpoil_mboxes off bs.length
@[simp] theorem State.hmStore_goOrder (s : State) (off : Nat) (bs : List Byte) : (s.hmStore off bs).goOrder = s.goOrder := s.kvSpoil_goOrder off bs.length
@[simp] theorem State.hmStore_openAt (s : State) (off : Nat) (bs : List Byte) : (s.hmStore off bs).openAt = s.openAt := s.kvSpoil_openAt off bs.length
@[simp] theorem State.hmStore_padAt (s : State) (off : Nat) (bs : List Byte) : (s.hmStore off bs).padAt = s.padAt := s.kvSpoil_padAt off bs.length
@[simp] theorem State.hmStore_pairsOn (s : State) (off : Nat) (bs : List Byte) : (s.hmStore off bs).pairsOn = s.pairsOn := s.kvSpoil_pairsOn off bs.length
@[simp] theorem State.hmStore_sensors (s : State) (off : Nat) (bs : List Byte) : (s.hmStore off bs).sensors = s.sensors := s.kvSpoil_sensors off bs.length
@[simp] theorem State.hmStore_stretch (s : State) (off : Nat) (bs : List Byte) : (s.hmStore off bs).stretch = s.stretch := s.kvSpoil_stretch off bs.length
@[simp] theorem State.hmStore_heat (s : State) (off : Nat) (bs : List Byte) : (s.hmStore off bs).heat = s.heat := s.kvSpoil_heat off bs.length
@[simp] theorem State.hmStore_steps (s : State) (off : Nat) (bs : List Byte) : (s.hmStore off bs).steps = s.steps := s.kvSpoil_steps off bs.length
@[simp] theorem State.hmStore_hubHot (s : State) (off : Nat) (bs : List Byte) : (s.hmStore off bs).hubHot = s.hubHot := s.kvSpoil_hubHot off bs.length
@[simp] theorem State.hmStore_capFell (s : State) (off : Nat) (bs : List Byte) : (s.hmStore off bs).capFell = s.capFell := s.kvSpoil_capFell off bs.length
@[simp] theorem State.hmStore_charging (s : State) (off : Nat) (bs : List Byte) : (s.hmStore off bs).charging = s.charging := s.kvSpoil_charging off bs.length
@[simp] theorem State.hmStore_i3cAddr (s : State) (off : Nat) (bs : List Byte) : (s.hmStore off bs).i3cAddr = s.i3cAddr := s.kvSpoil_i3cAddr off bs.length
@[simp] theorem State.hmStore_i3cIndex (s : State) (off : Nat) (bs : List Byte) : (s.hmStore off bs).i3cIndex = s.i3cIndex := s.kvSpoil_i3cIndex off bs.length
@[simp] theorem State.hmStore_ibiOn (s : State) (off : Nat) (bs : List Byte) : (s.hmStore off bs).ibiOn = s.ibiOn := s.kvSpoil_ibiOn off bs.length
@[simp] theorem State.hmStore_ibis (s : State) (off : Nat) (bs : List Byte) : (s.hmStore off bs).ibis = s.ibis := s.kvSpoil_ibis off bs.length
@[simp] theorem State.hmStore_spdmVer (s : State) (off : Nat) (bs : List Byte) : (s.hmStore off bs).spdmVer = s.spdmVer := s.kvSpoil_spdmVer off bs.length
@[simp] theorem State.hmStore_spdmAlgs (s : State) (off : Nat) (bs : List Byte) : (s.hmStore off bs).spdmAlgs = s.spdmAlgs := s.kvSpoil_spdmAlgs off bs.length
@[simp] theorem State.hmStore_spdmLog (s : State) (off : Nat) (bs : List Byte) : (s.hmStore off bs).spdmLog = s.spdmLog := s.kvSpoil_spdmLog off bs.length
@[simp] theorem State.hmStore_taps (s : State) (off : Nat) (bs : List Byte) : (s.hmStore off bs).taps = s.taps := s.kvSpoil_taps off bs.length
@[simp] theorem State.hmStore_testLow (s : State) (off : Nat) (bs : List Byte) : (s.hmStore off bs).testLow = s.testLow := s.kvSpoil_testLow off bs.length

/-! `State.inject` -/

@[simp] theorem State.inject_pending (s : State) (p : Packet) : (s.inject p).pending = s.pending := rfl
@[simp] theorem State.inject_clock (s : State) (p : Packet) : (s.inject p).clock = s.clock := rfl
@[simp] theorem State.inject_freeCtr (s : State) (p : Packet) : (s.inject p).freeCtr = s.freeCtr := rfl
@[simp] theorem State.inject_rackTime (s : State) (p : Packet) : (s.inject p).rackTime = s.rackTime := rfl
@[simp] theorem State.inject_rackHold (s : State) (p : Packet) : (s.inject p).rackHold = s.rackHold := rfl
@[simp] theorem State.inject_rackSlew (s : State) (p : Packet) : (s.inject p).rackSlew = s.rackSlew := rfl
@[simp] theorem State.inject_timeGood (s : State) (p : Packet) : (s.inject p).timeGood = s.timeGood := rfl
@[simp] theorem State.inject_regs (s : State) (p : Packet) : (s.inject p).regs = s.regs := rfl
@[simp] theorem State.inject_sub (s : State) (p : Packet) : (s.inject p).sub = s.sub := rfl
@[simp] theorem State.inject_lag (s : State) (p : Packet) : (s.inject p).lag = s.lag := rfl
@[simp] theorem State.inject_prsnt (s : State) (p : Packet) : (s.inject p).prsnt = s.prsnt := rfl
@[simp] theorem State.inject_perst (s : State) (p : Packet) : (s.inject p).perst = s.perst := rfl
@[simp] theorem State.inject_powered (s : State) (p : Packet) : (s.inject p).powered = s.powered := rfl
@[simp] theorem State.inject_input (s : State) (p : Packet) : (s.inject p).input = s.input := rfl
@[simp] theorem State.inject_volt (s : State) (p : Packet) : (s.inject p).volt = s.volt := rfl
@[simp] theorem State.inject_straps (s : State) (p : Packet) : (s.inject p).straps = s.straps := rfl
@[simp] theorem State.inject_strapsDue (s : State) (p : Packet) : (s.inject p).strapsDue = s.strapsDue := rfl
@[simp] theorem State.inject_fru (s : State) (p : Packet) : (s.inject p).fru = s.fru := rfl
@[simp] theorem State.inject_flash (s : State) (p : Packet) : (s.inject p).flash = s.flash := rfl
@[simp] theorem State.inject_fuses (s : State) (p : Packet) : (s.inject p).fuses = s.fuses := rfl
@[simp] theorem State.inject_meas (s : State) (p : Packet) : (s.inject p).meas = s.meas := rfl
@[simp] theorem State.inject_config (s : State) (p : Packet) : (s.inject p).config = s.config := rfl
@[simp] theorem State.inject_failed (s : State) (p : Packet) : (s.inject p).failed = s.failed := rfl
@[simp] theorem State.inject_cores (s : State) (p : Packet) : (s.inject p).cores = s.cores := rfl
@[simp] theorem State.inject_hm (s : State) (p : Packet) : (s.inject p).hm = s.hm := rfl
@[simp] theorem State.inject_hmBad (s : State) (p : Packet) : (s.inject p).hmBad = s.hmBad := rfl
@[simp] theorem State.inject_lm (s : State) (p : Packet) : (s.inject p).lm = s.lm := rfl
@[simp] theorem State.inject_lmPoison (s : State) (p : Packet) : (s.inject p).lmPoison = s.lmPoison := rfl
@[simp] theorem State.inject_cache (s : State) (p : Packet) : (s.inject p).cache = s.cache := rfl
@[simp] theorem State.inject_slogRing (s : State) (p : Packet) : (s.inject p).slogRing = s.slogRing := rfl
@[simp] theorem State.inject_slogs (s : State) (p : Packet) : (s.inject p).slogs = s.slogs := rfl
@[simp] theorem State.inject_txns (s : State) (p : Packet) : (s.inject p).txns = s.txns := rfl
@[simp] theorem State.inject_nextTag (s : State) (p : Packet) : (s.inject p).nextTag = s.nextTag := rfl
@[simp] theorem State.inject_nextSig (s : State) (p : Packet) : (s.inject p).nextSig = s.nextSig := rfl
@[simp] theorem State.inject_opids (s : State) (p : Packet) : (s.inject p).opids = s.opids := rfl
@[simp] theorem State.inject_winUse (s : State) (p : Packet) : (s.inject p).winUse = s.winUse := rfl
@[simp] theorem State.inject_nextPre (s : State) (p : Packet) : (s.inject p).nextPre = s.nextPre := rfl
@[simp] theorem State.inject_replays (s : State) (p : Packet) : (s.inject p).replays = s.replays := rfl
@[simp] theorem State.inject_dedup (s : State) (p : Packet) : (s.inject p).dedup = s.dedup := rfl
@[simp] theorem State.inject_dedupWait (s : State) (p : Packet) : (s.inject p).dedupWait = s.dedupWait := rfl
@[simp] theorem State.inject_sigs (s : State) (p : Packet) : (s.inject p).sigs = s.sigs := rfl
@[simp] theorem State.inject_heldReqs (s : State) (p : Packet) : (s.inject p).heldReqs = s.heldReqs := rfl
@[simp] theorem State.inject_c0Held (s : State) (p : Packet) : (s.inject p).c0Held = s.c0Held := rfl
@[simp] theorem State.inject_c0Last (s : State) (p : Packet) : (s.inject p).c0Last = s.c0Last := rfl
@[simp] theorem State.inject_hubTum (s : State) (p : Packet) : (s.inject p).hubTum = s.hubTum := rfl
@[simp] theorem State.inject_allocs (s : State) (p : Packet) : (s.inject p).allocs = s.allocs := rfl
@[simp] theorem State.inject_waiters (s : State) (p : Packet) : (s.inject p).waiters = s.waiters := rfl
@[simp] theorem State.inject_park (s : State) (p : Packet) : (s.inject p).park = s.park := rfl
@[simp] theorem State.inject_refused (s : State) (p : Packet) : (s.inject p).refused = s.refused := rfl
@[simp] theorem State.inject_tasks (s : State) (p : Packet) : (s.inject p).tasks = s.tasks := rfl
@[simp] theorem State.inject_nextTask (s : State) (p : Packet) : (s.inject p).nextTask = s.nextTask := rfl
@[simp] theorem State.inject_nextSeq (s : State) (p : Packet) : (s.inject p).nextSeq = s.nextSeq := rfl
@[simp] theorem State.inject_queues (s : State) (p : Packet) : (s.inject p).queues = s.queues := rfl
@[simp] theorem State.inject_lastQ (s : State) (p : Packet) : (s.inject p).lastQ = s.lastQ := rfl
@[simp] theorem State.inject_hostOut (s : State) (p : Packet) : (s.inject p).hostOut = s.hostOut := rfl
@[simp] theorem State.inject_sideOut (s : State) (p : Packet) : (s.inject p).sideOut = s.sideOut := rfl
@[simp] theorem State.inject_faultq (s : State) (p : Packet) : (s.inject p).faultq = s.faultq := rfl
@[simp] theorem State.inject_faultWait (s : State) (p : Packet) : (s.inject p).faultWait = s.faultWait := rfl
@[simp] theorem State.inject_errSeq (s : State) (p : Packet) : (s.inject p).errSeq = s.errSeq := rfl
@[simp] theorem State.inject_lastIrq (s : State) (p : Packet) : (s.inject p).lastIrq = s.lastIrq := rfl
@[simp] theorem State.inject_irqDue (s : State) (p : Packet) : (s.inject p).irqDue = s.irqDue := rfl
@[simp] theorem State.inject_kvSeqs (s : State) (p : Packet) : (s.inject p).kvSeqs = s.kvSeqs := rfl
@[simp] theorem State.inject_kvPages (s : State) (p : Packet) : (s.inject p).kvPages = s.kvPages := rfl
@[simp] theorem State.inject_kvLazy (s : State) (p : Packet) : (s.inject p).kvLazy = s.kvLazy := rfl
@[simp] theorem State.inject_kvGeom (s : State) (p : Packet) : (s.inject p).kvGeom = s.kvGeom := rfl
@[simp] theorem State.inject_kvPoolLo (s : State) (p : Packet) : (s.inject p).kvPoolLo = s.kvPoolLo := rfl
@[simp] theorem State.inject_kvPoolHi (s : State) (p : Packet) : (s.inject p).kvPoolHi = s.kvPoolHi := rfl
@[simp] theorem State.inject_colls (s : State) (p : Packet) : (s.inject p).colls = s.colls := rfl
@[simp] theorem State.inject_store (s : State) (p : Packet) : (s.inject p).store = s.store := rfl
@[simp] theorem State.inject_triples (s : State) (p : Packet) : (s.inject p).triples = s.triples := rfl
@[simp] theorem State.inject_collWait (s : State) (p : Packet) : (s.inject p).collWait = s.collWait := rfl
@[simp] theorem State.inject_storeWait (s : State) (p : Packet) : (s.inject p).storeWait = s.storeWait := rfl
@[simp] theorem State.inject_nextBuf (s : State) (p : Packet) : (s.inject p).nextBuf = s.nextBuf := rfl
@[simp] theorem State.inject_hubIn (s : State) (p : Packet) : (s.inject p).hubIn = s.hubIn := rfl
@[simp] theorem State.inject_downLinks (s : State) (p : Packet) : (s.inject p).downLinks = s.downLinks := rfl
@[simp] theorem State.inject_lastDown (s : State) (p : Packet) : (s.inject p).lastDown = s.lastDown := rfl
@[simp] theorem State.inject_routable (s : State) (p : Packet) : (s.inject p).routable = s.routable := rfl
@[simp] theorem State.inject_compute (s : State) (p : Packet) : (s.inject p).compute = s.compute := rfl
@[simp] theorem State.inject_dirBits (s : State) (p : Packet) : (s.inject p).dirBits = s.dirBits := rfl
@[simp] theorem State.inject_padDue (s : State) (p : Packet) : (s.inject p).padDue = s.padDue := rfl
@[simp] theorem State.inject_partWait (s : State) (p : Packet) : (s.inject p).partWait = s.partWait := rfl
@[simp] theorem State.inject_jobIgnore (s : State) (p : Packet) : (s.inject p).jobIgnore = s.jobIgnore := rfl
@[simp] theorem State.inject_everUp (s : State) (p : Packet) : (s.inject p).everUp = s.everUp := rfl
@[simp] theorem State.inject_declSent (s : State) (p : Packet) : (s.inject p).declSent = s.declSent := rfl
@[simp] theorem State.inject_portsOff (s : State) (p : Packet) : (s.inject p).portsOff = s.portsOff := rfl
@[simp] theorem State.inject_ports (s : State) (p : Packet) : (s.inject p).ports = s.ports := rfl
@[simp] theorem State.inject_engines (s : State) (p : Packet) : (s.inject p).engines = s.engines := rfl
@[simp] theorem State.inject_leaves (s : State) (p : Packet) : (s.inject p).leaves = s.leaves := rfl
@[simp] theorem State.inject_chans (s : State) (p : Packet) : (s.inject p).chans = s.chans := rfl
@[simp] theorem State.inject_mboxes (s : State) (p : Packet) : (s.inject p).mboxes = s.mboxes := rfl
@[simp] theorem State.inject_goOrder (s : State) (p : Packet) : (s.inject p).goOrder = s.goOrder := rfl
@[simp] theorem State.inject_openAt (s : State) (p : Packet) : (s.inject p).openAt = s.openAt := rfl
@[simp] theorem State.inject_padAt (s : State) (p : Packet) : (s.inject p).padAt = s.padAt := rfl
@[simp] theorem State.inject_pairsOn (s : State) (p : Packet) : (s.inject p).pairsOn = s.pairsOn := rfl
@[simp] theorem State.inject_sensors (s : State) (p : Packet) : (s.inject p).sensors = s.sensors := rfl
@[simp] theorem State.inject_stretch (s : State) (p : Packet) : (s.inject p).stretch = s.stretch := rfl
@[simp] theorem State.inject_heat (s : State) (p : Packet) : (s.inject p).heat = s.heat := rfl
@[simp] theorem State.inject_steps (s : State) (p : Packet) : (s.inject p).steps = s.steps := rfl
@[simp] theorem State.inject_hubHot (s : State) (p : Packet) : (s.inject p).hubHot = s.hubHot := rfl
@[simp] theorem State.inject_capFell (s : State) (p : Packet) : (s.inject p).capFell = s.capFell := rfl
@[simp] theorem State.inject_charging (s : State) (p : Packet) : (s.inject p).charging = s.charging := rfl
@[simp] theorem State.inject_i3cAddr (s : State) (p : Packet) : (s.inject p).i3cAddr = s.i3cAddr := rfl
@[simp] theorem State.inject_i3cIndex (s : State) (p : Packet) : (s.inject p).i3cIndex = s.i3cIndex := rfl
@[simp] theorem State.inject_ibiOn (s : State) (p : Packet) : (s.inject p).ibiOn = s.ibiOn := rfl
@[simp] theorem State.inject_ibis (s : State) (p : Packet) : (s.inject p).ibis = s.ibis := rfl
@[simp] theorem State.inject_spdmVer (s : State) (p : Packet) : (s.inject p).spdmVer = s.spdmVer := rfl
@[simp] theorem State.inject_spdmAlgs (s : State) (p : Packet) : (s.inject p).spdmAlgs = s.spdmAlgs := rfl
@[simp] theorem State.inject_spdmLog (s : State) (p : Packet) : (s.inject p).spdmLog = s.spdmLog := rfl
@[simp] theorem State.inject_taps (s : State) (p : Packet) : (s.inject p).taps = s.taps := rfl
@[simp] theorem State.inject_testLow (s : State) (p : Packet) : (s.inject p).testLow = s.testLow := rfl

/-! `State.takeHub` -/

@[simp] theorem State.takeHub_pending (s : State) (p : Packet) : (s.takeHub p).pending = s.pending := rfl
@[simp] theorem State.takeHub_clock (s : State) (p : Packet) : (s.takeHub p).clock = s.clock := rfl
@[simp] theorem State.takeHub_freeCtr (s : State) (p : Packet) : (s.takeHub p).freeCtr = s.freeCtr := rfl
@[simp] theorem State.takeHub_rackTime (s : State) (p : Packet) : (s.takeHub p).rackTime = s.rackTime := rfl
@[simp] theorem State.takeHub_rackHold (s : State) (p : Packet) : (s.takeHub p).rackHold = s.rackHold := rfl
@[simp] theorem State.takeHub_rackSlew (s : State) (p : Packet) : (s.takeHub p).rackSlew = s.rackSlew := rfl
@[simp] theorem State.takeHub_timeGood (s : State) (p : Packet) : (s.takeHub p).timeGood = s.timeGood := rfl
@[simp] theorem State.takeHub_regs (s : State) (p : Packet) : (s.takeHub p).regs = s.regs := rfl
@[simp] theorem State.takeHub_sub (s : State) (p : Packet) : (s.takeHub p).sub = s.sub := rfl
@[simp] theorem State.takeHub_lag (s : State) (p : Packet) : (s.takeHub p).lag = s.lag := rfl
@[simp] theorem State.takeHub_prsnt (s : State) (p : Packet) : (s.takeHub p).prsnt = s.prsnt := rfl
@[simp] theorem State.takeHub_perst (s : State) (p : Packet) : (s.takeHub p).perst = s.perst := rfl
@[simp] theorem State.takeHub_powered (s : State) (p : Packet) : (s.takeHub p).powered = s.powered := rfl
@[simp] theorem State.takeHub_input (s : State) (p : Packet) : (s.takeHub p).input = s.input := rfl
@[simp] theorem State.takeHub_volt (s : State) (p : Packet) : (s.takeHub p).volt = s.volt := rfl
@[simp] theorem State.takeHub_straps (s : State) (p : Packet) : (s.takeHub p).straps = s.straps := rfl
@[simp] theorem State.takeHub_strapsDue (s : State) (p : Packet) : (s.takeHub p).strapsDue = s.strapsDue := rfl
@[simp] theorem State.takeHub_fru (s : State) (p : Packet) : (s.takeHub p).fru = s.fru := rfl
@[simp] theorem State.takeHub_flash (s : State) (p : Packet) : (s.takeHub p).flash = s.flash := rfl
@[simp] theorem State.takeHub_fuses (s : State) (p : Packet) : (s.takeHub p).fuses = s.fuses := rfl
@[simp] theorem State.takeHub_meas (s : State) (p : Packet) : (s.takeHub p).meas = s.meas := rfl
@[simp] theorem State.takeHub_config (s : State) (p : Packet) : (s.takeHub p).config = s.config := rfl
@[simp] theorem State.takeHub_failed (s : State) (p : Packet) : (s.takeHub p).failed = s.failed := rfl
@[simp] theorem State.takeHub_cores (s : State) (p : Packet) : (s.takeHub p).cores = s.cores := rfl
@[simp] theorem State.takeHub_hm (s : State) (p : Packet) : (s.takeHub p).hm = s.hm := rfl
@[simp] theorem State.takeHub_hmBad (s : State) (p : Packet) : (s.takeHub p).hmBad = s.hmBad := rfl
@[simp] theorem State.takeHub_lm (s : State) (p : Packet) : (s.takeHub p).lm = s.lm := rfl
@[simp] theorem State.takeHub_lmPoison (s : State) (p : Packet) : (s.takeHub p).lmPoison = s.lmPoison := rfl
@[simp] theorem State.takeHub_cache (s : State) (p : Packet) : (s.takeHub p).cache = s.cache := rfl
@[simp] theorem State.takeHub_slogRing (s : State) (p : Packet) : (s.takeHub p).slogRing = s.slogRing := rfl
@[simp] theorem State.takeHub_slogs (s : State) (p : Packet) : (s.takeHub p).slogs = s.slogs := rfl
@[simp] theorem State.takeHub_txns (s : State) (p : Packet) : (s.takeHub p).txns = s.txns := rfl
@[simp] theorem State.takeHub_nextTag (s : State) (p : Packet) : (s.takeHub p).nextTag = s.nextTag := rfl
@[simp] theorem State.takeHub_nextSig (s : State) (p : Packet) : (s.takeHub p).nextSig = s.nextSig := rfl
@[simp] theorem State.takeHub_opids (s : State) (p : Packet) : (s.takeHub p).opids = s.opids := rfl
@[simp] theorem State.takeHub_winUse (s : State) (p : Packet) : (s.takeHub p).winUse = s.winUse := rfl
@[simp] theorem State.takeHub_nextPre (s : State) (p : Packet) : (s.takeHub p).nextPre = s.nextPre := rfl
@[simp] theorem State.takeHub_replays (s : State) (p : Packet) : (s.takeHub p).replays = s.replays := rfl
@[simp] theorem State.takeHub_dedup (s : State) (p : Packet) : (s.takeHub p).dedup = s.dedup := rfl
@[simp] theorem State.takeHub_dedupWait (s : State) (p : Packet) : (s.takeHub p).dedupWait = s.dedupWait := rfl
@[simp] theorem State.takeHub_sigs (s : State) (p : Packet) : (s.takeHub p).sigs = s.sigs := rfl
@[simp] theorem State.takeHub_heldReqs (s : State) (p : Packet) : (s.takeHub p).heldReqs = s.heldReqs := rfl
@[simp] theorem State.takeHub_c0Held (s : State) (p : Packet) : (s.takeHub p).c0Held = s.c0Held := rfl
@[simp] theorem State.takeHub_c0Last (s : State) (p : Packet) : (s.takeHub p).c0Last = s.c0Last := rfl
@[simp] theorem State.takeHub_hubTum (s : State) (p : Packet) : (s.takeHub p).hubTum = s.hubTum := rfl
@[simp] theorem State.takeHub_allocs (s : State) (p : Packet) : (s.takeHub p).allocs = s.allocs := rfl
@[simp] theorem State.takeHub_waiters (s : State) (p : Packet) : (s.takeHub p).waiters = s.waiters := rfl
@[simp] theorem State.takeHub_park (s : State) (p : Packet) : (s.takeHub p).park = s.park := rfl
@[simp] theorem State.takeHub_refused (s : State) (p : Packet) : (s.takeHub p).refused = s.refused := rfl
@[simp] theorem State.takeHub_tasks (s : State) (p : Packet) : (s.takeHub p).tasks = s.tasks := rfl
@[simp] theorem State.takeHub_nextTask (s : State) (p : Packet) : (s.takeHub p).nextTask = s.nextTask := rfl
@[simp] theorem State.takeHub_nextSeq (s : State) (p : Packet) : (s.takeHub p).nextSeq = s.nextSeq := rfl
@[simp] theorem State.takeHub_queues (s : State) (p : Packet) : (s.takeHub p).queues = s.queues := rfl
@[simp] theorem State.takeHub_lastQ (s : State) (p : Packet) : (s.takeHub p).lastQ = s.lastQ := rfl
@[simp] theorem State.takeHub_hostOut (s : State) (p : Packet) : (s.takeHub p).hostOut = s.hostOut := rfl
@[simp] theorem State.takeHub_sideOut (s : State) (p : Packet) : (s.takeHub p).sideOut = s.sideOut := rfl
@[simp] theorem State.takeHub_faultq (s : State) (p : Packet) : (s.takeHub p).faultq = s.faultq := rfl
@[simp] theorem State.takeHub_faultWait (s : State) (p : Packet) : (s.takeHub p).faultWait = s.faultWait := rfl
@[simp] theorem State.takeHub_errSeq (s : State) (p : Packet) : (s.takeHub p).errSeq = s.errSeq := rfl
@[simp] theorem State.takeHub_lastIrq (s : State) (p : Packet) : (s.takeHub p).lastIrq = s.lastIrq := rfl
@[simp] theorem State.takeHub_irqDue (s : State) (p : Packet) : (s.takeHub p).irqDue = s.irqDue := rfl
@[simp] theorem State.takeHub_kvSeqs (s : State) (p : Packet) : (s.takeHub p).kvSeqs = s.kvSeqs := rfl
@[simp] theorem State.takeHub_kvPages (s : State) (p : Packet) : (s.takeHub p).kvPages = s.kvPages := rfl
@[simp] theorem State.takeHub_kvLazy (s : State) (p : Packet) : (s.takeHub p).kvLazy = s.kvLazy := rfl
@[simp] theorem State.takeHub_kvGeom (s : State) (p : Packet) : (s.takeHub p).kvGeom = s.kvGeom := rfl
@[simp] theorem State.takeHub_kvPoolLo (s : State) (p : Packet) : (s.takeHub p).kvPoolLo = s.kvPoolLo := rfl
@[simp] theorem State.takeHub_kvPoolHi (s : State) (p : Packet) : (s.takeHub p).kvPoolHi = s.kvPoolHi := rfl
@[simp] theorem State.takeHub_colls (s : State) (p : Packet) : (s.takeHub p).colls = s.colls := rfl
@[simp] theorem State.takeHub_store (s : State) (p : Packet) : (s.takeHub p).store = s.store := rfl
@[simp] theorem State.takeHub_triples (s : State) (p : Packet) : (s.takeHub p).triples = s.triples := rfl
@[simp] theorem State.takeHub_collWait (s : State) (p : Packet) : (s.takeHub p).collWait = s.collWait := rfl
@[simp] theorem State.takeHub_storeWait (s : State) (p : Packet) : (s.takeHub p).storeWait = s.storeWait := rfl
@[simp] theorem State.takeHub_held (s : State) (p : Packet) : (s.takeHub p).held = s.held := rfl
@[simp] theorem State.takeHub_nextBuf (s : State) (p : Packet) : (s.takeHub p).nextBuf = s.nextBuf := rfl
@[simp] theorem State.takeHub_downLinks (s : State) (p : Packet) : (s.takeHub p).downLinks = s.downLinks := rfl
@[simp] theorem State.takeHub_lastDown (s : State) (p : Packet) : (s.takeHub p).lastDown = s.lastDown := rfl
@[simp] theorem State.takeHub_routable (s : State) (p : Packet) : (s.takeHub p).routable = s.routable := rfl
@[simp] theorem State.takeHub_compute (s : State) (p : Packet) : (s.takeHub p).compute = s.compute := rfl
@[simp] theorem State.takeHub_dirBits (s : State) (p : Packet) : (s.takeHub p).dirBits = s.dirBits := rfl
@[simp] theorem State.takeHub_padDue (s : State) (p : Packet) : (s.takeHub p).padDue = s.padDue := rfl
@[simp] theorem State.takeHub_partWait (s : State) (p : Packet) : (s.takeHub p).partWait = s.partWait := rfl
@[simp] theorem State.takeHub_jobIgnore (s : State) (p : Packet) : (s.takeHub p).jobIgnore = s.jobIgnore := rfl
@[simp] theorem State.takeHub_everUp (s : State) (p : Packet) : (s.takeHub p).everUp = s.everUp := rfl
@[simp] theorem State.takeHub_declSent (s : State) (p : Packet) : (s.takeHub p).declSent = s.declSent := rfl
@[simp] theorem State.takeHub_portsOff (s : State) (p : Packet) : (s.takeHub p).portsOff = s.portsOff := rfl
@[simp] theorem State.takeHub_ports (s : State) (p : Packet) : (s.takeHub p).ports = s.ports := rfl
@[simp] theorem State.takeHub_engines (s : State) (p : Packet) : (s.takeHub p).engines = s.engines := rfl
@[simp] theorem State.takeHub_leaves (s : State) (p : Packet) : (s.takeHub p).leaves = s.leaves := rfl
@[simp] theorem State.takeHub_chans (s : State) (p : Packet) : (s.takeHub p).chans = s.chans := rfl
@[simp] theorem State.takeHub_mboxes (s : State) (p : Packet) : (s.takeHub p).mboxes = s.mboxes := rfl
@[simp] theorem State.takeHub_goOrder (s : State) (p : Packet) : (s.takeHub p).goOrder = s.goOrder := rfl
@[simp] theorem State.takeHub_openAt (s : State) (p : Packet) : (s.takeHub p).openAt = s.openAt := rfl
@[simp] theorem State.takeHub_padAt (s : State) (p : Packet) : (s.takeHub p).padAt = s.padAt := rfl
@[simp] theorem State.takeHub_pairsOn (s : State) (p : Packet) : (s.takeHub p).pairsOn = s.pairsOn := rfl
@[simp] theorem State.takeHub_sensors (s : State) (p : Packet) : (s.takeHub p).sensors = s.sensors := rfl
@[simp] theorem State.takeHub_stretch (s : State) (p : Packet) : (s.takeHub p).stretch = s.stretch := rfl
@[simp] theorem State.takeHub_heat (s : State) (p : Packet) : (s.takeHub p).heat = s.heat := rfl
@[simp] theorem State.takeHub_steps (s : State) (p : Packet) : (s.takeHub p).steps = s.steps := rfl
@[simp] theorem State.takeHub_hubHot (s : State) (p : Packet) : (s.takeHub p).hubHot = s.hubHot := rfl
@[simp] theorem State.takeHub_capFell (s : State) (p : Packet) : (s.takeHub p).capFell = s.capFell := rfl
@[simp] theorem State.takeHub_charging (s : State) (p : Packet) : (s.takeHub p).charging = s.charging := rfl
@[simp] theorem State.takeHub_i3cAddr (s : State) (p : Packet) : (s.takeHub p).i3cAddr = s.i3cAddr := rfl
@[simp] theorem State.takeHub_i3cIndex (s : State) (p : Packet) : (s.takeHub p).i3cIndex = s.i3cIndex := rfl
@[simp] theorem State.takeHub_ibiOn (s : State) (p : Packet) : (s.takeHub p).ibiOn = s.ibiOn := rfl
@[simp] theorem State.takeHub_ibis (s : State) (p : Packet) : (s.takeHub p).ibis = s.ibis := rfl
@[simp] theorem State.takeHub_spdmVer (s : State) (p : Packet) : (s.takeHub p).spdmVer = s.spdmVer := rfl
@[simp] theorem State.takeHub_spdmAlgs (s : State) (p : Packet) : (s.takeHub p).spdmAlgs = s.spdmAlgs := rfl
@[simp] theorem State.takeHub_spdmLog (s : State) (p : Packet) : (s.takeHub p).spdmLog = s.spdmLog := rfl
@[simp] theorem State.takeHub_taps (s : State) (p : Packet) : (s.takeHub p).taps = s.taps := rfl
@[simp] theorem State.takeHub_testLow (s : State) (p : Packet) : (s.takeHub p).testLow = s.testLow := rfl

/-! `State.modTask` -/

@[simp] theorem State.modTask_pending (s : State) (t : Nat) (f : Task → Task) : (s.modTask t f).pending = s.pending := rfl
@[simp] theorem State.modTask_clock (s : State) (t : Nat) (f : Task → Task) : (s.modTask t f).clock = s.clock := rfl
@[simp] theorem State.modTask_freeCtr (s : State) (t : Nat) (f : Task → Task) : (s.modTask t f).freeCtr = s.freeCtr := rfl
@[simp] theorem State.modTask_rackTime (s : State) (t : Nat) (f : Task → Task) : (s.modTask t f).rackTime = s.rackTime := rfl
@[simp] theorem State.modTask_rackHold (s : State) (t : Nat) (f : Task → Task) : (s.modTask t f).rackHold = s.rackHold := rfl
@[simp] theorem State.modTask_rackSlew (s : State) (t : Nat) (f : Task → Task) : (s.modTask t f).rackSlew = s.rackSlew := rfl
@[simp] theorem State.modTask_timeGood (s : State) (t : Nat) (f : Task → Task) : (s.modTask t f).timeGood = s.timeGood := rfl
@[simp] theorem State.modTask_regs (s : State) (t : Nat) (f : Task → Task) : (s.modTask t f).regs = s.regs := rfl
@[simp] theorem State.modTask_sub (s : State) (t : Nat) (f : Task → Task) : (s.modTask t f).sub = s.sub := rfl
@[simp] theorem State.modTask_lag (s : State) (t : Nat) (f : Task → Task) : (s.modTask t f).lag = s.lag := rfl
@[simp] theorem State.modTask_prsnt (s : State) (t : Nat) (f : Task → Task) : (s.modTask t f).prsnt = s.prsnt := rfl
@[simp] theorem State.modTask_perst (s : State) (t : Nat) (f : Task → Task) : (s.modTask t f).perst = s.perst := rfl
@[simp] theorem State.modTask_powered (s : State) (t : Nat) (f : Task → Task) : (s.modTask t f).powered = s.powered := rfl
@[simp] theorem State.modTask_input (s : State) (t : Nat) (f : Task → Task) : (s.modTask t f).input = s.input := rfl
@[simp] theorem State.modTask_volt (s : State) (t : Nat) (f : Task → Task) : (s.modTask t f).volt = s.volt := rfl
@[simp] theorem State.modTask_straps (s : State) (t : Nat) (f : Task → Task) : (s.modTask t f).straps = s.straps := rfl
@[simp] theorem State.modTask_strapsDue (s : State) (t : Nat) (f : Task → Task) : (s.modTask t f).strapsDue = s.strapsDue := rfl
@[simp] theorem State.modTask_fru (s : State) (t : Nat) (f : Task → Task) : (s.modTask t f).fru = s.fru := rfl
@[simp] theorem State.modTask_flash (s : State) (t : Nat) (f : Task → Task) : (s.modTask t f).flash = s.flash := rfl
@[simp] theorem State.modTask_fuses (s : State) (t : Nat) (f : Task → Task) : (s.modTask t f).fuses = s.fuses := rfl
@[simp] theorem State.modTask_meas (s : State) (t : Nat) (f : Task → Task) : (s.modTask t f).meas = s.meas := rfl
@[simp] theorem State.modTask_config (s : State) (t : Nat) (f : Task → Task) : (s.modTask t f).config = s.config := rfl
@[simp] theorem State.modTask_failed (s : State) (t : Nat) (f : Task → Task) : (s.modTask t f).failed = s.failed := rfl
@[simp] theorem State.modTask_cores (s : State) (t : Nat) (f : Task → Task) : (s.modTask t f).cores = s.cores := rfl
@[simp] theorem State.modTask_hm (s : State) (t : Nat) (f : Task → Task) : (s.modTask t f).hm = s.hm := rfl
@[simp] theorem State.modTask_hmBad (s : State) (t : Nat) (f : Task → Task) : (s.modTask t f).hmBad = s.hmBad := rfl
@[simp] theorem State.modTask_lm (s : State) (t : Nat) (f : Task → Task) : (s.modTask t f).lm = s.lm := rfl
@[simp] theorem State.modTask_lmPoison (s : State) (t : Nat) (f : Task → Task) : (s.modTask t f).lmPoison = s.lmPoison := rfl
@[simp] theorem State.modTask_cache (s : State) (t : Nat) (f : Task → Task) : (s.modTask t f).cache = s.cache := rfl
@[simp] theorem State.modTask_slogRing (s : State) (t : Nat) (f : Task → Task) : (s.modTask t f).slogRing = s.slogRing := rfl
@[simp] theorem State.modTask_slogs (s : State) (t : Nat) (f : Task → Task) : (s.modTask t f).slogs = s.slogs := rfl
@[simp] theorem State.modTask_txns (s : State) (t : Nat) (f : Task → Task) : (s.modTask t f).txns = s.txns := rfl
@[simp] theorem State.modTask_nextTag (s : State) (t : Nat) (f : Task → Task) : (s.modTask t f).nextTag = s.nextTag := rfl
@[simp] theorem State.modTask_nextSig (s : State) (t : Nat) (f : Task → Task) : (s.modTask t f).nextSig = s.nextSig := rfl
@[simp] theorem State.modTask_opids (s : State) (t : Nat) (f : Task → Task) : (s.modTask t f).opids = s.opids := rfl
@[simp] theorem State.modTask_winUse (s : State) (t : Nat) (f : Task → Task) : (s.modTask t f).winUse = s.winUse := rfl
@[simp] theorem State.modTask_nextPre (s : State) (t : Nat) (f : Task → Task) : (s.modTask t f).nextPre = s.nextPre := rfl
@[simp] theorem State.modTask_replays (s : State) (t : Nat) (f : Task → Task) : (s.modTask t f).replays = s.replays := rfl
@[simp] theorem State.modTask_dedup (s : State) (t : Nat) (f : Task → Task) : (s.modTask t f).dedup = s.dedup := rfl
@[simp] theorem State.modTask_dedupWait (s : State) (t : Nat) (f : Task → Task) : (s.modTask t f).dedupWait = s.dedupWait := rfl
@[simp] theorem State.modTask_sigs (s : State) (t : Nat) (f : Task → Task) : (s.modTask t f).sigs = s.sigs := rfl
@[simp] theorem State.modTask_heldReqs (s : State) (t : Nat) (f : Task → Task) : (s.modTask t f).heldReqs = s.heldReqs := rfl
@[simp] theorem State.modTask_c0Held (s : State) (t : Nat) (f : Task → Task) : (s.modTask t f).c0Held = s.c0Held := rfl
@[simp] theorem State.modTask_c0Last (s : State) (t : Nat) (f : Task → Task) : (s.modTask t f).c0Last = s.c0Last := rfl
@[simp] theorem State.modTask_hubTum (s : State) (t : Nat) (f : Task → Task) : (s.modTask t f).hubTum = s.hubTum := rfl
@[simp] theorem State.modTask_allocs (s : State) (t : Nat) (f : Task → Task) : (s.modTask t f).allocs = s.allocs := rfl
@[simp] theorem State.modTask_waiters (s : State) (t : Nat) (f : Task → Task) : (s.modTask t f).waiters = s.waiters := rfl
@[simp] theorem State.modTask_park (s : State) (t : Nat) (f : Task → Task) : (s.modTask t f).park = s.park := rfl
@[simp] theorem State.modTask_refused (s : State) (t : Nat) (f : Task → Task) : (s.modTask t f).refused = s.refused := rfl
@[simp] theorem State.modTask_nextTask (s : State) (t : Nat) (f : Task → Task) : (s.modTask t f).nextTask = s.nextTask := rfl
@[simp] theorem State.modTask_nextSeq (s : State) (t : Nat) (f : Task → Task) : (s.modTask t f).nextSeq = s.nextSeq := rfl
@[simp] theorem State.modTask_queues (s : State) (t : Nat) (f : Task → Task) : (s.modTask t f).queues = s.queues := rfl
@[simp] theorem State.modTask_lastQ (s : State) (t : Nat) (f : Task → Task) : (s.modTask t f).lastQ = s.lastQ := rfl
@[simp] theorem State.modTask_hostOut (s : State) (t : Nat) (f : Task → Task) : (s.modTask t f).hostOut = s.hostOut := rfl
@[simp] theorem State.modTask_sideOut (s : State) (t : Nat) (f : Task → Task) : (s.modTask t f).sideOut = s.sideOut := rfl
@[simp] theorem State.modTask_faultq (s : State) (t : Nat) (f : Task → Task) : (s.modTask t f).faultq = s.faultq := rfl
@[simp] theorem State.modTask_faultWait (s : State) (t : Nat) (f : Task → Task) : (s.modTask t f).faultWait = s.faultWait := rfl
@[simp] theorem State.modTask_errSeq (s : State) (t : Nat) (f : Task → Task) : (s.modTask t f).errSeq = s.errSeq := rfl
@[simp] theorem State.modTask_lastIrq (s : State) (t : Nat) (f : Task → Task) : (s.modTask t f).lastIrq = s.lastIrq := rfl
@[simp] theorem State.modTask_irqDue (s : State) (t : Nat) (f : Task → Task) : (s.modTask t f).irqDue = s.irqDue := rfl
@[simp] theorem State.modTask_kvSeqs (s : State) (t : Nat) (f : Task → Task) : (s.modTask t f).kvSeqs = s.kvSeqs := rfl
@[simp] theorem State.modTask_kvPages (s : State) (t : Nat) (f : Task → Task) : (s.modTask t f).kvPages = s.kvPages := rfl
@[simp] theorem State.modTask_kvLazy (s : State) (t : Nat) (f : Task → Task) : (s.modTask t f).kvLazy = s.kvLazy := rfl
@[simp] theorem State.modTask_kvGeom (s : State) (t : Nat) (f : Task → Task) : (s.modTask t f).kvGeom = s.kvGeom := rfl
@[simp] theorem State.modTask_kvPoolLo (s : State) (t : Nat) (f : Task → Task) : (s.modTask t f).kvPoolLo = s.kvPoolLo := rfl
@[simp] theorem State.modTask_kvPoolHi (s : State) (t : Nat) (f : Task → Task) : (s.modTask t f).kvPoolHi = s.kvPoolHi := rfl
@[simp] theorem State.modTask_colls (s : State) (t : Nat) (f : Task → Task) : (s.modTask t f).colls = s.colls := rfl
@[simp] theorem State.modTask_store (s : State) (t : Nat) (f : Task → Task) : (s.modTask t f).store = s.store := rfl
@[simp] theorem State.modTask_triples (s : State) (t : Nat) (f : Task → Task) : (s.modTask t f).triples = s.triples := rfl
@[simp] theorem State.modTask_collWait (s : State) (t : Nat) (f : Task → Task) : (s.modTask t f).collWait = s.collWait := rfl
@[simp] theorem State.modTask_storeWait (s : State) (t : Nat) (f : Task → Task) : (s.modTask t f).storeWait = s.storeWait := rfl
@[simp] theorem State.modTask_held (s : State) (t : Nat) (f : Task → Task) : (s.modTask t f).held = s.held := rfl
@[simp] theorem State.modTask_nextBuf (s : State) (t : Nat) (f : Task → Task) : (s.modTask t f).nextBuf = s.nextBuf := rfl
@[simp] theorem State.modTask_hubIn (s : State) (t : Nat) (f : Task → Task) : (s.modTask t f).hubIn = s.hubIn := rfl
@[simp] theorem State.modTask_downLinks (s : State) (t : Nat) (f : Task → Task) : (s.modTask t f).downLinks = s.downLinks := rfl
@[simp] theorem State.modTask_lastDown (s : State) (t : Nat) (f : Task → Task) : (s.modTask t f).lastDown = s.lastDown := rfl
@[simp] theorem State.modTask_routable (s : State) (t : Nat) (f : Task → Task) : (s.modTask t f).routable = s.routable := rfl
@[simp] theorem State.modTask_compute (s : State) (t : Nat) (f : Task → Task) : (s.modTask t f).compute = s.compute := rfl
@[simp] theorem State.modTask_dirBits (s : State) (t : Nat) (f : Task → Task) : (s.modTask t f).dirBits = s.dirBits := rfl
@[simp] theorem State.modTask_padDue (s : State) (t : Nat) (f : Task → Task) : (s.modTask t f).padDue = s.padDue := rfl
@[simp] theorem State.modTask_partWait (s : State) (t : Nat) (f : Task → Task) : (s.modTask t f).partWait = s.partWait := rfl
@[simp] theorem State.modTask_jobIgnore (s : State) (t : Nat) (f : Task → Task) : (s.modTask t f).jobIgnore = s.jobIgnore := rfl
@[simp] theorem State.modTask_everUp (s : State) (t : Nat) (f : Task → Task) : (s.modTask t f).everUp = s.everUp := rfl
@[simp] theorem State.modTask_declSent (s : State) (t : Nat) (f : Task → Task) : (s.modTask t f).declSent = s.declSent := rfl
@[simp] theorem State.modTask_portsOff (s : State) (t : Nat) (f : Task → Task) : (s.modTask t f).portsOff = s.portsOff := rfl
@[simp] theorem State.modTask_ports (s : State) (t : Nat) (f : Task → Task) : (s.modTask t f).ports = s.ports := rfl
@[simp] theorem State.modTask_engines (s : State) (t : Nat) (f : Task → Task) : (s.modTask t f).engines = s.engines := rfl
@[simp] theorem State.modTask_leaves (s : State) (t : Nat) (f : Task → Task) : (s.modTask t f).leaves = s.leaves := rfl
@[simp] theorem State.modTask_chans (s : State) (t : Nat) (f : Task → Task) : (s.modTask t f).chans = s.chans := rfl
@[simp] theorem State.modTask_mboxes (s : State) (t : Nat) (f : Task → Task) : (s.modTask t f).mboxes = s.mboxes := rfl
@[simp] theorem State.modTask_goOrder (s : State) (t : Nat) (f : Task → Task) : (s.modTask t f).goOrder = s.goOrder := rfl
@[simp] theorem State.modTask_openAt (s : State) (t : Nat) (f : Task → Task) : (s.modTask t f).openAt = s.openAt := rfl
@[simp] theorem State.modTask_padAt (s : State) (t : Nat) (f : Task → Task) : (s.modTask t f).padAt = s.padAt := rfl
@[simp] theorem State.modTask_pairsOn (s : State) (t : Nat) (f : Task → Task) : (s.modTask t f).pairsOn = s.pairsOn := rfl
@[simp] theorem State.modTask_sensors (s : State) (t : Nat) (f : Task → Task) : (s.modTask t f).sensors = s.sensors := rfl
@[simp] theorem State.modTask_stretch (s : State) (t : Nat) (f : Task → Task) : (s.modTask t f).stretch = s.stretch := rfl
@[simp] theorem State.modTask_heat (s : State) (t : Nat) (f : Task → Task) : (s.modTask t f).heat = s.heat := rfl
@[simp] theorem State.modTask_steps (s : State) (t : Nat) (f : Task → Task) : (s.modTask t f).steps = s.steps := rfl
@[simp] theorem State.modTask_hubHot (s : State) (t : Nat) (f : Task → Task) : (s.modTask t f).hubHot = s.hubHot := rfl
@[simp] theorem State.modTask_capFell (s : State) (t : Nat) (f : Task → Task) : (s.modTask t f).capFell = s.capFell := rfl
@[simp] theorem State.modTask_charging (s : State) (t : Nat) (f : Task → Task) : (s.modTask t f).charging = s.charging := rfl
@[simp] theorem State.modTask_i3cAddr (s : State) (t : Nat) (f : Task → Task) : (s.modTask t f).i3cAddr = s.i3cAddr := rfl
@[simp] theorem State.modTask_i3cIndex (s : State) (t : Nat) (f : Task → Task) : (s.modTask t f).i3cIndex = s.i3cIndex := rfl
@[simp] theorem State.modTask_ibiOn (s : State) (t : Nat) (f : Task → Task) : (s.modTask t f).ibiOn = s.ibiOn := rfl
@[simp] theorem State.modTask_ibis (s : State) (t : Nat) (f : Task → Task) : (s.modTask t f).ibis = s.ibis := rfl
@[simp] theorem State.modTask_spdmVer (s : State) (t : Nat) (f : Task → Task) : (s.modTask t f).spdmVer = s.spdmVer := rfl
@[simp] theorem State.modTask_spdmAlgs (s : State) (t : Nat) (f : Task → Task) : (s.modTask t f).spdmAlgs = s.spdmAlgs := rfl
@[simp] theorem State.modTask_spdmLog (s : State) (t : Nat) (f : Task → Task) : (s.modTask t f).spdmLog = s.spdmLog := rfl
@[simp] theorem State.modTask_taps (s : State) (t : Nat) (f : Task → Task) : (s.modTask t f).taps = s.taps := rfl
@[simp] theorem State.modTask_testLow (s : State) (t : Nat) (f : Task → Task) : (s.modTask t f).testLow = s.testLow := rfl

/-! ### What an update does to its own part -/

/-- The entry of a vector that is set. -/
theorem getD_set_same {α : Type} {n : Nat} (v : Vector α n) (i : Nat) (x d : α) (h : i < n) : (v.setIfInBounds i x).getD i d = x := by
  unfold Vector.getD Vector.setIfInBounds
  simp [Array.getD_eq_getD_getElem?, h]

/-- The other entries of a vector. -/
theorem getD_set_other {α : Type} {n : Nat} (v : Vector α n) (i j : Nat) (x d : α) (h : j ≠ i) : (v.setIfInBounds i x).getD j d = v.getD j d := by
  unfold Vector.getD Vector.setIfInBounds
  simp only [Array.getD_eq_getD_getElem?, Array.getElem?_setIfInBounds]
  simp [Ne.symm h]

/-- A core that is changed. -/
@[simp] theorem State.core_modCore (s : State) (c : Nat) (f : Core → Core) (h : c < 48) : (s.modCore c f).core c = f (s.core c) :=
  getD_set_same _ _ _ _ h

/-- Every other core stays. -/
theorem State.core_modCore_ne (s : State) (c d : Nat) (f : Core → Core) (h : d ≠ c) : (s.modCore c f).core d = s.core d :=
  getD_set_other _ _ _ _ _ h

/-- A port that is changed. -/
@[simp] theorem State.port_modPort (s : State) (p : Nat) (f : Port → Port) (h : p < 20) : (s.modPort p f).port p = f (s.port p) :=
  getD_set_same _ _ _ _ h

/-- A queue that is changed. -/
@[simp] theorem State.queue_modQueue (s : State) (q : Nat) (f : Queue → Queue) (h : q < 64) : (s.modQueue q f).queue q = f (s.queue q) :=
  getD_set_same _ _ _ _ h

/-- A leaf that is changed. -/
@[simp] theorem State.leaf_modLeaf (s : State) (l : Nat) (f : Leaf → Leaf) (h : l < 4) : (s.modLeaf l f).leaf l = f (s.leaf l) :=
  getD_set_same _ _ _ _ h

/-- A channel that is changed. -/
@[simp] theorem State.chan_modChan (s : State) (ch : Nat) (f : Chan → Chan) (h : ch < 64) : (s.modChan ch f).chan ch = f (s.chan ch) :=
  getD_set_same _ _ _ _ h

/-- A mailbox that is changed. -/
@[simp] theorem State.mbox_modMbox (s : State) (m : Nat) (f : Mailbox → Mailbox) (h : m < 4) : (s.modMbox m f).mbox m = f (s.mbox m) :=
  getD_set_same _ _ _ _ h

/-- A TAP that is changed. -/
@[simp] theorem State.tap_modTap (s : State) (d : Nat) (f : Tap → Tap) (h : d < 5) : (s.modTap d f).tap d = f (s.tap d) :=
  getD_set_same _ _ _ _ h

/-- An optical engine that is changed. -/
@[simp] theorem State.engine_modEngine (s : State) (e : Nat) (f : Engine → Engine) (h : e < 10) : (s.modEngine e f).engine e = f (s.engine e) :=
  getD_set_same _ _ _ _ h

/-- A register field just written reads the value within its width. -/
@[simp] theorem State.rd_wr (s : State) (f : Fld) (v : Nat) : (s.wr f v).rd f = v % 2 ^ f.w := by
  show Tab.get (Tab.set s.regs f.rst f.key (v % 2 ^ f.w)) f.rst f.key = v % 2 ^ f.w
  exact Tab.get_set_same _ _ _ _

/-- A register field with another place keeps its value. -/
theorem State.rd_wr_ne (s : State) (f g : Fld) (v : Nat) (h : g.key ≠ f.key) : (s.wr f v).rd g = s.rd g := by
  show Tab.get (Tab.set s.regs f.rst f.key (v % 2 ^ f.w)) g.rst g.key = Tab.get s.regs g.rst g.key
  unfold Tab.set
  split
  · exact Tab.get_del_other _ _ _ _ h
  · exact Tab.get_put_other _ _ _ _ _ h

/-- A register field reads the same from states with the same registers. -/
theorem State.rd_congr (s t : State) (f : Fld) (h : t.regs = s.regs) : t.rd f = s.rd f := by
  unfold State.rd
  rw [h]

/-- Two fields of one offset have different keys where their low bits differ. -/
theorem Fld.key_ne (f g : Fld) (hf : f.lo < 64) (hg : g.lo < 64) (h : f.off ≠ g.off ∨ f.lo ≠ g.lo) : f.key ≠ g.key := by
  unfold Fld.key
  omega

/-- The last word of a scalar register just written; s0 keeps reading 0 (R45). -/
theorem Core.sget_sset_same (k : Core) (r : Nat) (v : Word) : (k.sset r v).sget r = if r = 0 then 0 else v := by
  unfold Core.sset Core.sget
  split
  · rfl
  · exact Tab.get_set_same _ _ _ _

theorem Core.sget_sset_other (k : Core) (r x : Nat) (v : Word) (h : x ≠ r) : (k.sset r v).sget x = k.sget x := by
  unfold Core.sset Core.sget
  split
  · rfl
  · split
    · rfl
    · exact Tab.get_set_other _ _ _ _ _ h

/-- s0 reads 0 whatever is written to it (R45). -/
@[simp] theorem Core.sget_zero (k : Core) : k.sget 0 = 0 := rfl

/-- p0 reads 1 (R45). -/
@[simp] theorem Core.pget_zero (k : Core) : k.pget 0 = true := rfl

/-- A write of s0 is discarded. -/
@[simp] theorem Core.sset_zero (k : Core) (v : Word) : k.sset 0 v = k := rfl

/-- A write of p0 is discarded. -/
@[simp] theorem Core.pset_zero (k : Core) (b : Bool) : k.pset 0 b = k := rfl

theorem Core.ltGet_ltSet_same (k : Core) (n : Nat) (v : Word32) : (k.ltSet n v).ltGet n = v := Tab.get_set_same _ _ _ _

theorem Core.ltGet_ltSet_other (k : Core) (n x : Nat) (v : Word32) (h : x ≠ n) : (k.ltSet n v).ltGet x = k.ltGet x :=
  Tab.get_set_other _ _ _ _ _ h

theorem State.hubGet_hubSet_same (s : State) (n : Nat) (v : Word32) : (s.hubSet n v).hubGet n = v := Tab.get_set_same _ _ _ _

theorem State.hubGet_hubSet_other (s : State) (n x : Nat) (v : Word32) (h : x ≠ n) : (s.hubSet n v).hubGet x = s.hubGet x :=
  Tab.get_set_other _ _ _ _ _ h

end Sys2Proof.Machine
end

