-- ==== Sys2Proof/Laws/Issue.lean ====
section
/-! SUPPORT. What the shared operations of the sequencer and the engines do: issue, advance, enqueue and run, each said
once. -/

namespace Sys2Proof.Machine

/-- Two changes of one core are one. -/
theorem State.modCore_modCore (s : State) (c : CoreId) (f g : Core → Core) :
    (s.modCore c.val f).modCore c.val g = s.modCore c.val (fun k => g (f k)) := by
  have h := State.core_modCore s c.val f c.isLt
  unfold State.modCore at h ⊢
  simp only [h]
  congr 1
  simp [Vector.setIfInBounds]

/-- A change that leaves the core leaves the state. -/
theorem State.modCore_self (s : State) (c : CoreId) : s.modCore c.val (fun k => k) = s := by
  unfold State.modCore State.core
  have h : s.cores.setIfInBounds c.val (s.cores.getD c.val Core.reset) = s.cores := by
    ext i hi
    by_cases e : c.val = i
    · subst e; simp [Vector.getD, hi]
    · simp [e]
  rw [h]

/-- The operand of an issued instruction: what its dispatch wait leaves of the core. -/
theorem State.core_taken (s : State) (c : CoreId) (h : Hdr) :
    ∃ k : Core, (s.taken c h).core c.val = { (s.core c.val) with lt := k.lt } := by
  unfold State.taken
  split
  · exact ⟨(s.core c.val).ltTake h.dw.val 1, by rw [State.core_modCore _ _ _ c.isLt]; rfl⟩
  · exact ⟨s.core c.val, rfl⟩

@[simp] theorem State.taken_ip (s : State) (c : CoreId) (h : Hdr) : ((s.taken c h).core c.val).ip = (s.core c.val).ip := by
  obtain ⟨k, hk⟩ := s.core_taken c h
  rw [hk]

@[simp] theorem State.taken_window (s : State) (c : CoreId) (h : Hdr) : ((s.taken c h).core c.val).window = (s.core c.val).window := by
  obtain ⟨k, hk⟩ := s.core_taken c h
  rw [hk]

/-- For an engine queue the dispatch wait is tested at dispatch, not at issue. -/
theorem State.taken_engine (s : State) (c : CoreId) (h : Hdr) (hq : h.q.val ≠ 0) : s.taken c h = s := by
  simp [State.taken, hq]

/-- The words at the instruction pointer have an extension word where the instruction has one (R51). -/
theorem Core.fetches_ext {k : Core} {h : Hdr} {opc operands : Nat} (f : k.fetches h opc operands = true) :
    wordExt k.fetched = h.ext.isSome := by
  simp only [Core.fetches, Core.fetchedExt, Bool.and_eq_true, beq_iff_eq] at f
  rw [← f.2]
  cases wordExt k.fetched <;> rfl

/-- The extension word of an instruction inside the buffer lies in it. -/
theorem Core.fetches_inside {k : Core} {h : Hdr} {opc operands : Nat} (f : k.fetches h opc operands = true) (hin : k.ip + h.words ≤ 32767) :
    (wordExt k.fetched && decide (k.ip + 1 > 32767)) = false := by
  rw [Core.fetches_ext f]
  unfold Hdr.words at hin
  cases hx : h.ext.isSome <;> simp [hx] at hin ⊢
  omega

/-- The operand bits that a word keeps lie below bit 37 (R70). -/
theorem keepFields_le (fs : List (Nat × Nat)) (w : Nat) : keepFields fs w ≤ (fs.map (fun f => (2 ^ f.2 - 1) * 2 ^ f.1)).sum := by
  unfold keepFields
  induction fs with
  | nil => simp
  | cons f r ih =>
    simp only [List.map_cons, List.sum_cons]
    have hf : fld w f.1 f.2 ≤ 2 ^ f.2 - 1 := by
      have := Nat.mod_lt (w / 2 ^ f.1) (Nat.two_pow_pos f.2)
      unfold fld
      omega
    exact Nat.add_le_add (Nat.mul_le_mul_right _ hf) ih

set_option maxRecDepth 8192 in
theorem keepFields_lt (w : Word) : keepFields (opcFields (wordOpc w)) w.toNat < 2 ^ 37 := by
  have h : ∀ o : Fin 256, ((opcFields o.val).map (fun f => (2 ^ f.2 - 1) * 2 ^ f.1)).sum < 2 ^ 37 := by decide
  have ho : wordOpc w < 256 := Nat.mod_lt _ (by decide)
  exact Nat.lt_of_le_of_lt (keepFields_le _ _) (h ⟨wordOpc w, ho⟩)

/-- Of the bits above the operands a word keeps every one. -/
theorem usedBits_high (w : Word) : usedBits w / 2 ^ 37 = w.toNat / 2 ^ 37 := by
  have := keepFields_lt w
  unfold usedBits
  omega

/-- The fetched word has the opcode and the queue of the instruction (R51, R70). -/
theorem Core.fetches_word {k : Core} {h : Hdr} {opc operands : Nat} (f : k.fetches h opc operands = true) (ho : opc < 256) :
    wordOpc k.fetched = opc ∧ wordQ k.fetched = h.q.val := by
  simp only [Core.fetches, Bool.and_eq_true, beq_iff_eq] at f
  have e := congrArg (· / 2 ^ 37) f.1
  simp only [usedBits_high] at e
  have hq := h.q.isLt
  have hd := h.dw.isLt
  have hg := h.gp.isLt
  have b1 : h.var.toNat ≤ 1 := Bool.toNat_le _
  have b2 : h.sat.toNat ≤ 1 := Bool.toNat_le _
  have b3 : h.gn.toNat ≤ 1 := Bool.toNat_le _
  have b4 : h.ext.isSome.toNat ≤ 1 := Bool.toNat_le _
  have hb : (baseWord h opc operands).toNat = opc * 2 ^ 56 + h.q.val * 2 ^ 52 + h.dw.val * 2 ^ 44 + h.var.toNat * 2 ^ 43
      + h.sat.toNat * 2 ^ 42 + h.gn.toNat * 2 ^ 41 + h.ext.isSome.toNat * 2 ^ 40 + h.gp.val * 2 ^ 37 + operands % 2 ^ 37 := by
    unfold baseWord
    rw [BitVec.toNat_ofNat]
    omega
  rw [hb] at e
  unfold wordOpc wordQ fld
  omega

/-- An instruction that issues names a queue that the opcode map allows (R74, R75). -/
theorem State.Issues.queue {s : State} {c : CoreId} {h : Hdr} {opc operands : Nat} (i : s.Issues c h opc operands) (ho : opc < 256) {qs : List Nat}
    (hq : opcQueues opc = some qs) : h.q.val ∈ qs := by
  have hd := i.defined
  obtain ⟨h1, h2⟩ := Core.fetches_word i.fetched ho
  unfold undefinedWord at hd
  rw [h1, hq, h2] at hd
  simp only [Bool.or_eq_false_iff, Bool.not_eq_false', List.contains_iff_mem] at hd
  exact hd.1

/-- An instruction that issues acts on the state that its dispatch wait leaves (R51-R56, R71, R74). -/
theorem State.Issues.issue {s : State} {c : CoreId} {h : Hdr} {opc operands : Nat} (i : s.Issues c h opc operands) (k : State → State) :
    s.issue c.val h opc operands k = k (s.taken c h) := by
  have hw := i.waits
  unfold State.issue State.taken
  simp only [i.alive, i.ready, i.room, i.fetched, i.defined, i.guarded, Core.fetches_inside i.fetched i.inside, Bool.or_self,
    Bool.not_true, Bool.false_eq_true, if_false]
  by_cases hc : h.q.val = 0 ∧ h.dw.val ≠ 0xFF ∧ (s.core c.val).dwTaken = false
  · rw [if_pos hc, if_pos hc]
    unfold Core.waitMet at hw
    simp [hc.1, hc.2.1, hc.2.2] at hw
    rw [if_pos (by simpa using hw)]
  · rw [if_neg hc, if_neg hc]

/-- An advance inside the buffer. -/
theorem State.advance_moved (s : State) (c : CoreId) (h : Hdr) (f : Core → Core) (hip : ∀ k, (f k).ip = k.ip)
    (hin : (s.core c.val).ip + h.words ≤ 32767) : (s.modCore c.val f).advance c.val h.words = s.moved c h f := by
  unfold State.advance
  simp only [State.core_modCore _ _ _ c.isLt, hip]
  rw [if_neg (by omega), State.modCore_modCore]
  unfold State.moved
  unfold State.modCore
  simp only

/-- A queue-0 instruction that changes its core and goes on (R51). -/
theorem State.Issues.issueCore {s : State} {c : CoreId} {h : Hdr} {opc operands : Nat} (i : s.Issues c h opc operands) (f : Core → Core)
    (hip : ∀ k, (f k).ip = k.ip) : s.issueCore c.val h opc operands f = (s.taken c h).moved c h f := by
  unfold State.issueCore
  rw [i.issue]
  exact State.advance_moved _ _ _ _ hip (by simpa using i.inside)

@[simp] theorem Core.sset_ip (k : Core) (r : Nat) (v : Word) : (k.sset r v).ip = k.ip := by unfold Core.sset; split <;> rfl
@[simp] theorem Core.pset_ip (k : Core) (p : Nat) (b : Bool) : (k.pset p b).ip = k.ip := by unfold Core.pset; split <;> rfl
@[simp] theorem Core.tset_ip (k : Core) (t : Nat) (v : TileWord) : (k.tset t v).ip = k.ip := rfl
@[simp] theorem Core.ltSet_ip (k : Core) (n : Nat) (v : Word32) : (k.ltSet n v).ip = k.ip := rfl
@[simp] theorem Core.ltTake_ip (k : Core) (n a : Nat) : (k.ltTake n a).ip = k.ip := rfl
@[simp] theorem Core.spWrite_ip (k : Core) (o : Nat) (b : List Byte) : (k.spWrite o b).ip = k.ip := rfl

/-- An instruction with room in its engine queue joins it with its operands captured (R46, R52, R53). -/
theorem State.enqueue_joined (s : State) (c : CoreId) (h : Hdr) (op : EInst)
    (room : (s.core c.val).queueFull h.q.val = false) (hin : (s.core c.val).ip + h.words ≤ 32767) :
    s.enqueue c.val h op = s.joined c h op := by
  have hm := State.advance_moved s c h
    (fun k => { k with window := k.window ++ [(s.core c.val).newEntry h op s.rackTime], nextId := k.nextId + 1 }) (fun _ => rfl) hin
  unfold State.enqueue
  simp only [room, Bool.false_eq_true, if_false]
  exact hm

/-- Issue into an engine queue. -/
theorem State.Queues.issueEngine {s : State} {c : CoreId} {h : Hdr} {opc operands : Nat} (i : s.Queues c h opc operands) (mk : Core → EInst)
    (hq : h.q.val ≠ 0) : s.issueEngine c.val h opc operands mk = s.joined c h (mk (s.core c.val)) := by
  unfold State.issueEngine
  rw [i.issue, State.taken_engine _ _ _ hq]
  exact State.enqueue_joined _ _ _ _ i.space i.inside

/-- A dispatched instruction that its engine can run, with no word found bad: its effect, over the leaf link where it
needs it. -/
theorem State.Runs.overLink {s : State} {c : CoreId} {id : Nat} {e : Entry} (r : s.Runs c id e) (f : State → Entry → State) :
    s.runEntry c.val id [] f = s.overLink c.val e f := by
  have hs : (e.slotEn && decide (e.slot > 0x4FFFFF)) = false := by
    cases h : e.slotEn
    · rfl
    · have := r.slot h
      simp only [Bool.true_and, decide_eq_false_iff_not]
      omega
  have ha : (e.q != 8 && (s.core c.val).noArray e.q) = false := by
    rcases r.array with h | h <;> simp [h]
  unfold State.runEntry
  rw [r.ready]
  simp only [r.alive, hs, ha, Bool.or_self, Bool.false_eq_true, if_false]
  rfl

/-- One that sends no packet over the leaf link has its effect alone. -/
theorem State.Runs.run {s : State} {c : CoreId} {id : Nat} {e : Entry} (r : s.Runs c id e) (f : State → Entry → State)
    (local_ : s.crosses c.val e.op = false) : s.runEntry c.val id [] f = f s e := by
  rw [r.overLink, State.overLink, local_]
  rfl

/-- One that does has its effect, and crosses the link once it is no longer waiting to start (R340). -/
theorem State.Runs.run_crossing {s : State} {c : CoreId} {id : Nat} {e : Entry} (r : s.Runs c id e) (f : State → Entry → State)
    (started : ∀ x, ((f s e).core c.val).entry? e.id = some x → x.phase ≠ .dispatched) :
    s.runEntry c.val id [] f = s.crossed c e.op (f s e) := by
  rw [r.overLink, State.overLink, State.crossed]
  cases h : s.crosses c.val e.op
  · rfl
  · simp only [Bool.not_true, Bool.false_eq_true, if_false, r.link h]
    cases hx : ((f s e).core c.val).entry? e.id with
    | none => rfl
    | some x => simp [started x hx]

/-- What the KV page manager does for an instruction that it serves (R203). -/
theorem State.Serves.serve {s : State} {c : CoreId} {id : Nat} {e : Entry} (r : s.Serves c id e) (f : State → Entry → State)
    (started : ∀ x, (((if s.kvDisabled then s.finishRange c.val id else f s e).core c.val).entry? e.id = some x → x.phase ≠ .dispatched)) :
    s.serveKv c.val id [] f = s.crossed c e.op (if s.kvDisabled then s.finishRange c.val id else f s e) := by
  unfold State.serveKv
  have h := r.served
  rw [r.toRuns.run_crossing]
  · simp only [h, Bool.false_eq_true, if_false]
  · simpa only [h, Bool.false_eq_true, if_false] using started

/-- A false guard retires the instruction (R71). -/
theorem State.issue_guardFalse (s : State) (c : CoreId) (h : Hdr) (opc operands : Nat) (k : State → State)
    (alive : s.failed = false) (ready : (s.core c.val).canIssue = true) (fetched : (s.core c.val).fetches h opc operands = true)
    (defined : undefinedWord (s.core c.val).fetched = false) (room : (s.core c.val).windowFull = false)
    (hg : (s.core c.val).guard h = false) (hin : (s.core c.val).ip + h.words ≤ 32767) :
    s.issue c.val h opc operands k = s.moved c h id := by
  unfold State.issue
  simp only [alive, ready, room, fetched, defined, hg, Core.fetches_inside fetched hin, Bool.or_self, Bool.not_true, Bool.not_false,
    Bool.false_eq_true, if_false, if_true]
  unfold State.advance
  rw [if_neg (by omega)]
  unfold State.moved State.modCore
  rfl

/-- A word at the instruction pointer that is no defined encoding is task-fatal (R74). -/
theorem State.issue_undefined (s : State) (c : CoreId) (h : Hdr) (opc operands : Nat) (k : State → State)
    (alive : s.failed = false) (ready : (s.core c.val).canIssue = true)
    (hin : (wordExt (s.core c.val).fetched && decide ((s.core c.val).ip + 1 > 32767)) = false)
    (hu : undefinedWord (s.core c.val).fetched = true) :
    s.issue c.val h opc operands k = s.coreFatal c.val
      { status := Status.addrRange, cause := 0x0101, unit := wordUnit (s.core c.val).fetched, ip := (s.core c.val).ip, addr := 0,
        info := (s.core c.val).fetched } := by
  unfold State.issue
  simp only [alive, ready, hin, hu, Bool.or_self, Bool.not_true, Bool.false_eq_true, if_false, if_true]

/-- The command of an instruction that is not the one fetched changes nothing (R51). -/
theorem State.issue_other (s : State) (c : CoreId) (h : Hdr) (opc operands : Nat) (k : State → State)
    (hin : (wordExt (s.core c.val).fetched && decide ((s.core c.val).ip + 1 > 32767)) = false)
    (defined : undefinedWord (s.core c.val).fetched = false) (other : (s.core c.val).fetches h opc operands = false) :
    s.issue c.val h opc operands k = s := by
  unfold State.issue
  simp only [hin, defined, other, Bool.not_false, Bool.false_eq_true, if_false, if_true]
  split <;> rfl

end Sys2Proof.Machine
end

