-- ==== Sys2Proof/Laws/Kept.lean ====
section
/-! SUPPORT. What every operation and every command keeps, each said once: the queue, FRU memory, the anti-rollback counter
(never lowered) and the canonical form of every addressed memory. Each proof cites the lemmas of the operations that its
definition calls. -/

set_option Elab.async false
set_option linter.unreachableTactic false
set_option linter.unusedTactic false

namespace Sys2Proof.Machine

/-- From s the machine comes to t without touching the queue or FRU memory, without lowering the anti-rollback counter, and
with every memory that was canonical still canonical. -/
structure Pres (s t : State) : Prop where
  pend : t.pending = s.pending
  fru  : t.fru = s.fru
  ctr  : s.fuses.counter ≤ t.fuses.counter
  wf   : s.memWf → t.memWf

/-- Every next state of the answer is so reached. -/
structure Keeps (s : State) (o : Res) : Prop where
  out : ∀ t, o = .next t → Pres s t

structure KeepsO (s : State) (o : Option State) : Prop where
  out : ∀ t, o = some t → Pres s t

/-- A change of a core that keeps its scratchpad canonical. -/
structure SpKept (k k' : Core) : Prop where
  wf : k.sp.wf = true → k'.sp.wf = true

theorem SpKept.refl (k : Core) : SpKept k k := ⟨id⟩
theorem SpKept.after {a b c : Core} (g : SpKept b c) (h : SpKept a b) : SpKept a c := ⟨fun x => g.wf (h.wf x)⟩

theorem Pres.refl (s : State) : Pres s s := ⟨rfl, rfl, le_refl _, id⟩
theorem Pres.after {a b c : State} (g : Pres b c) (h : Pres a b) : Pres a c :=
  ⟨g.pend.trans h.pend, g.fru.trans h.fru, h.ctr.trans g.ctr, fun x => g.wf (h.wf x)⟩

theorem keeps_next {s t : State} (h : Pres s t) : Keeps s (.next t) := ⟨fun _ hu => by cases hu; exact h⟩
theorem keepsO_some {s t : State} (h : Pres s t) : KeepsO s (some t) := ⟨fun _ hu => by cases hu; exact h⟩
theorem keepsO_none (s : State) : KeepsO s none := ⟨fun _ hu => by cases hu⟩

theorem pres_of1 {α : Type} {s : State} {e : State × α} {a : State} {b : α} (h : e = (a, b)) (k : Pres s e.1) : Pres s a := by
  subst h; exact k
theorem pres_of2 {α : Type} {s : State} {e : α × State} {a : α} {b : State} (h : e = (a, b)) (k : Pres s e.2) : Pres s b := by
  subst h; exact k
theorem pres_of22 {α β : Type} {s : State} {e : α × β × State} {a : α} {b : β} {t : State} (h : e = (a, b, t)) (k : Pres s e.2.2) : Pres s t := by
  subst h; exact k
theorem pres_of21 {α β : Type} {s : State} {e : α × State × β} {a : α} {b : β} {t : State} (h : e = (a, t, b)) (k : Pres s e.2.1) : Pres s t := by
  subst h; exact k

theorem pres_ite {s a b : State} {c : Prop} [Decidable c] (h : Pres s a) (k : Pres s b) : Pres s (if c then a else b) := by
  split
  · exact h
  · exact k

theorem pres_foldl {α : Type} {f : State → α → State} (h : ∀ s x, Pres s (f s x)) (l : List α) (s : State) : Pres s (l.foldl f s) := by
  induction l generalizing s with
  | nil => exact Pres.refl _
  | cons a l ih => exact (ih _).after (h _ _)
theorem pres_foldl1 {α β : Type} {f : State × β → α → State × β} (h : ∀ r x, Pres r.1 (f r x).1) (l : List α) (r : State × β) :
    Pres r.1 (l.foldl f r).1 := by
  induction l generalizing r with
  | nil => exact Pres.refl _
  | cons a l ih => exact (ih _).after (h _ _)
theorem pres_foldl2 {α β : Type} {f : β × State → α → β × State} (h : ∀ r x, Pres r.2 (f r x).2) (l : List α) (r : β × State) :
    Pres r.2 (l.foldl f r).2 := by
  induction l generalizing r with
  | nil => exact Pres.refl _
  | cons a l ih => exact (ih _).after (h _ _)
theorem pres_foldl22 {α β γ : Type} {f : β × γ × State → α → β × γ × State} (h : ∀ r x, Pres r.2.2 (f r x).2.2) (l : List α) (r : β × γ × State) :
    Pres r.2.2 (l.foldl f r).2.2 := by
  induction l generalizing r with
  | nil => exact Pres.refl _
  | cons a l ih => exact (ih _).after (h _ _)

theorem pres_foldl21 {α β γ : Type} {f : β × State × γ → α → β × State × γ} (h : ∀ r x, Pres r.2.1 (f r x).2.1) (l : List α) (r : β × State × γ) :
    Pres r.2.1 (l.foldl f r).2.1 := by
  induction l generalizing r with
  | nil => exact Pres.refl _
  | cons a l ih => exact (ih _).after (h _ _)

/-- Changes of hub memory, LPDDR or the cores that keep them canonical. -/
theorem pres_mem {s t : State} (hp : t.pending = s.pending) (hf : t.fru = s.fru) (hc : t.fuses = s.fuses)
    (h1 : s.hm.wf = true → t.hm.wf = true) (h2 : s.lm.wf = true → t.lm.wf = true)
    (h3 : ∀ c, SpKept (s.core c) (t.core c)) : Pres s t :=
  ⟨hp, hf, le_of_eq (by rw [hc]), fun ⟨a, b, c, d⟩ => ⟨h1 a, h2 b, by rw [hf]; exact c, fun x => (h3 x).wf (d x)⟩⟩

theorem getD_map_spWf (v : Vector Core 48) (f : Core → Core) (hf : ∀ k, k.sp.wf = true → (f k).sp.wf = true) (c : Nat)
    (h : (v.getD c Core.reset).sp.wf = true) : ((v.map f).getD c Core.reset).sp.wf = true := by
  by_cases hc : c < 48
  · simp only [Vector.getD, hc, Array.getD, Vector.size_toArray, dite_true] at h ⊢
    simpa using hf _ h
  · simp only [Vector.getD, hc, Array.getD, Vector.size_toArray, dite_false]
    rfl

theorem keepsO_foldl {α : Type} {f : State → α → Option State} (h : ∀ s x, KeepsO s (f s x)) (l : List α) (s : State) (o : Option State)
    (ho : KeepsO s o) : KeepsO s (l.foldl (fun o x => o.bind (fun s => f s x)) o) := by
  induction l generalizing o with
  | nil => exact ho
  | cons a l ih =>
    refine ih _ ⟨fun t ht => ?_⟩
    cases o with
    | none => cases ht
    | some u => exact ((h u a).out t ht).after (ho.out u rfl)

theorem keepsO_map {s : State} {o : Option State} {f : State → State} (h : KeepsO s o) (hf : ∀ s, Pres s (f s)) : KeepsO s (o.map f) :=
  ⟨fun t ht => by
    cases o with
    | none => simp at ht
    | some u => simp at ht; subst ht; exact (hf u).after (h.out u rfl)⟩

theorem keepsO_getD {s : State} {o : Option State} (h : KeepsO s o) : Pres s (o.getD s) := by
  cases o with
  | none => exact Pres.refl _
  | some u => exact h.out u rfl

theorem spKept_foldl {α : Type} {f : Core → α → Core} (h : ∀ k x, SpKept k (f k x)) (l : List α) (k : Core) : SpKept k (l.foldl f k) := by
  induction l generalizing k with
  | nil => exact SpKept.refl _
  | cons a l ih => exact (ih _).after (h _ _)

/-- As `KeepsO`, where a value comes with the state. -/
structure KeepsP {α : Type} (s : State) (o : Option (α × State)) : Prop where
  out : ∀ a t, o = some (a, t) → Pres s t

theorem keepsP_none {α : Type} (s : State) : KeepsP s (none : Option (α × State)) := ⟨fun _ _ h => by cases h⟩
theorem keepsP_some {α : Type} {s t : State} (a : α) (h : Pres s t) : KeepsP s (some (a, t)) := ⟨fun _ _ e => by cases e; exact h⟩
theorem keepsP_map {α β : Type} {s : State} {o : Option (α × State)} (f : α → β) (h : KeepsP s o) : KeepsP s (o.map (fun r => (f r.1, r.2))) :=
  ⟨fun b t e => by
    cases o with
    | none => cases e
    | some r => cases e; exact h.out r.1 r.2 rfl⟩

/-- Changing any other field is no change. -/
theorem pres_lit {s X : State} {clock : Nat} {freeCtr : Nat} {rackTime : Word} {rackHold : Nat} {rackSlew : Int} {timeGood : Nat} {regs : Tab Nat} {sub : Tab Nat} {lag : Tab Nat} {prsnt : Bool} {perst : Bool} {powered : Bool} {input : Nat} {volt : Nat} {straps : BitVec 7} {strapsDue : Bool} {flash : Flash} {meas : Tab (BitVec 512)} {config : List Byte} {failed : Bool} {hmBad : List Nat} {lmPoison : List Nat} {cache : List CLine} {slogRing : Tab Word} {slogs : Tab SendLog} {txns : List Txn} {nextTag : Nat} {nextSig : Nat} {opids : Tab Nat} {winUse : Tab Nat} {nextPre : Nat} {replays : Tab (Nat × Nat)} {dedup : List DRow} {dedupWait : List Packet} {sigs : List SigCount} {heldReqs : List HeldReq} {c0Held : List (Nat × Nat × Packet)} {c0Last : Nat} {hubTum : Tab Word32} {allocs : List Alloc} {waiters : List Waiter} {park : List Parked} {refused : List Parked} {tasks : List Task} {nextTask : Nat} {nextSeq : Nat} {queues : Vector Queue 64} {lastQ : Nat} {hostOut : List HostMsg} {sideOut : List SideMsg} {faultq : List Fault_} {faultWait : List Fault_} {errSeq : Nat} {lastIrq : Option Nat} {irqDue : Bool} {kvSeqs : Tab KvSeq} {kvPages : List KvPage} {kvLazy : List (Nat × Nat)} {kvGeom : Tab Word} {kvPoolLo : Tab Word} {kvPoolHi : Tab Word} {colls : List Coll} {store : List CSlot} {triples : List Aborted} {collWait : List (Nat × Nat)} {storeWait : List Packet} {held : List Held} {nextBuf : Nat} {hubIn : List Packet} {downLinks : List (Nat × Nat)} {lastDown : List (Nat × Nat)} {routable : List Nat} {compute : Option Compute} {dirBits : Word × Word} {padDue : List Nat} {partWait : List (Nat × List Nat)} {jobIgnore : List Nat} {everUp : Bool} {declSent : List Nat} {portsOff : Bool} {ports : Vector Port 20} {engines : Vector Engine 10} {leaves : Vector Leaf 4} {chans : Vector Chan 64} {mboxes : Vector Mailbox 4} {goOrder : Nat} {openAt : Option Nat} {padAt : Option Nat} {pairsOn : List Nat} {sensors : List (Sensor × SensorRec)} {stretch : Tab Nat} {heat : Tab Nat} {steps : Tab Nat} {hubHot : Nat} {capFell : Bool} {charging : Bool} {i3cAddr : Option (BitVec 7)} {i3cIndex : Byte} {ibiOn : Bool} {ibis : List Byte} {spdmVer : Option Byte} {spdmAlgs : Bool} {spdmLog : List Byte} {taps : Vector Tap 5} {testLow : Bool}
    (h : Pres s X) : Pres s (State.mk X.pending clock freeCtr rackTime rackHold rackSlew (timeGood) regs sub lag prsnt perst powered (input) volt straps strapsDue X.fru flash X.fuses (meas) config failed X.cores X.hm hmBad X.lm (lmPoison) cache slogRing slogs txns nextTag nextSig (opids) winUse nextPre replays dedup dedupWait sigs (heldReqs) c0Held c0Last hubTum allocs waiters park (refused) tasks nextTask nextSeq queues lastQ hostOut (sideOut) faultq faultWait errSeq lastIrq irqDue kvSeqs (kvPages) kvLazy kvGeom kvPoolLo kvPoolHi colls store (triples) collWait storeWait held nextBuf hubIn downLinks (lastDown) routable compute dirBits padDue partWait jobIgnore (everUp) declSent portsOff ports engines leaves chans (mboxes) goOrder openAt padAt pairsOn sensors stretch (heat) steps hubHot capFell charging i3cAddr i3cIndex (ibiOn) ibis spdmVer spdmAlgs spdmLog taps testLow) :=
  ⟨h.pend, h.fru, h.ctr, h.wf⟩

theorem spKept_lit {k X : Core} {sreg : Tab Word} {preg : BitVec 8} {treg : Tab TileWord} {vreg : Mem} {acc : Vector Acc 4} {slots : Vector Slot 8} {fillMax : Vector Nat 4} {filler : Vector Filler 4} {ip : Nat} {lt : Tab Word32} {ltStart : Tab Word32} {spBad : List Nat} {ibuf : Tab Word} {window : List Entry} {nextId : Nat} {state : Nat} {ending : Bool} {finished : Bool} {draining : Bool} {lastStatus : Nat} {stall : Option Stall} {dwTaken : Bool} {preRead : List PreRead} {arrays : BitVec 4} {fails : Vector (List Nat) 4} {owed : BitVec 4} {vtab : Mem} {vtabLoaded : BitVec 16} {handles : Vector (Option (Nat × Nat)) 8} {task : Nat}
    (h : SpKept k X) : SpKept k (Core.mk sreg preg treg vreg acc slots (fillMax) filler ip lt ltStart X.sp spBad (ibuf) window nextId state ending finished draining (lastStatus) stall dwTaken preRead arrays fails owed (vtab) vtabLoaded handles task) :=
  ⟨h.wf⟩

theorem Core.spWrite_spKept : ∀ k x0 x1, SpKept k (Core.spWrite k x0 x1) := by
  intro k x0 x1
  exact ⟨Mem.writeN_wf _ _ _⟩
theorem Core.ltTake_spKept : ∀ k x0 x1, SpKept k (Core.ltTake k x0 x1) := by
  intro k x0 x1
  unfold Core.ltTake
  repeat' (first | exact ⟨id⟩ | split)
theorem Core.stop_spKept : ∀ k , SpKept k (Core.stop k ) := by
  intro k 
  unfold Core.stop
  repeat' (first | exact ⟨id⟩ | split)
theorem Core.ltSet_spKept : ∀ k x0 x1, SpKept k (Core.ltSet k x0 x1) := by
  intro k x0 x1
  unfold Core.ltSet
  repeat' (first | exact ⟨id⟩ | split)
theorem Core.sset_spKept : ∀ k x0 x1, SpKept k (Core.sset k x0 x1) := by
  intro k x0 x1
  unfold Core.sset
  repeat' (first | exact ⟨id⟩ | split)
theorem Core.modEntry_spKept : ∀ k x0 x1, SpKept k (Core.modEntry k x0 x1) := by
  intro k x0 x1
  unfold Core.modEntry
  repeat' (first | exact ⟨id⟩ | split)
theorem Core.tset_spKept : ∀ k x0 x1, SpKept k (Core.tset k x0 x1) := by
  intro k x0 x1
  unfold Core.tset
  repeat' (first | exact ⟨id⟩ | split)
theorem Core.pset_spKept : ∀ k x0 x1, SpKept k (Core.pset k x0 x1) := by
  intro k x0 x1
  unfold Core.pset
  repeat' (first | exact ⟨id⟩ | split)
theorem Core.modFiller_spKept : ∀ k x0 x1, SpKept k (Core.modFiller k x0 x1) := by
  intro k x0 x1
  unfold Core.modFiller
  repeat' (first | exact ⟨id⟩ | split)
theorem Core.pubsEnd_spKept : ∀ k x0 x1 x2, SpKept k (Core.pubsEnd k x0 x1 x2) := by
  intro k x0 x1 x2
  unfold Core.pubsEnd
  repeat' (first | exact ⟨id⟩ | split)
theorem Core.vputAt_spKept : ∀ k x0 x1 x2 x3, SpKept k (Core.vputAt k x0 x1 x2 x3) := by
  intro k x0 x1 x2 x3
  unfold Core.vputAt
  repeat' (first | exact ⟨id⟩ | split)
theorem Core.setAcc_spKept : ∀ k x0 x1, SpKept k (Core.setAcc k x0 x1) := by
  intro k x0 x1
  unfold Core.setAcc
  repeat' (first | exact ⟨id⟩ | split)
theorem Core.startWith_spKept : ∀ k x0 x1 x2 x3, SpKept k (Core.startWith k x0 x1 x2 x3) := by
  intro k x0 x1 x2 x3
  exact ⟨fun h => by unfold Core.startWith Core.sset; simpa using h⟩
theorem Core.forSave_spKept : ∀ k , SpKept k (Core.forSave k ) := by
  intro k 
  unfold Core.forSave
  repeat' (first | exact ⟨id⟩ | split)
theorem Core.restored_spKept : ∀ k x0 x1, SpKept k (Core.restored k x0 x1) := by
  intro k x0 x1
  unfold Core.restored
  repeat' (first | exact ⟨id⟩ | split)
theorem Core.saved_spKept : ∀ k , SpKept k (Core.saved k ) := by
  intro k 
  unfold Core.saved
  repeat' (first | exact ⟨id⟩ | split)
theorem Core.wiped_spKept : ∀ k x0, SpKept k (Core.wiped k x0) := by
  intro k x0
  exact ⟨fun _ => rfl⟩

theorem State.modCore_pres {f3} (h3 : ∀ y0, SpKept y0 (f3 y0)) : ∀ s x2, Pres s (State.modCore s x2 f3) := by
  intro s x2
  refine pres_mem rfl rfl rfl id id ?_
  intro d
  by_cases hd : d = x2
  · subst hd
    by_cases hx : d < 48
    · rw [State.core_modCore _ _ _ hx]; exact h3 _
    · have : (s.modCore d f3).core d = s.core d := by
        unfold State.core State.modCore
        simp [Vector.getD, hx]
      rw [this]; exact SpKept.refl _
  · rw [State.core_modCore_ne _ _ _ _ hd]; exact SpKept.refl _

theorem State.modEngine_pres : ∀ s x2 x3, Pres s (State.modEngine s x2 x3) := by
  intro s x2 x3
  unfold State.modEngine
  repeat' (first | (fail_if_no_progress (with_reducible refine pres_lit ?_)) | with_reducible exact Pres.refl _)

theorem State.modPort_pres : ∀ s x2 x3, Pres s (State.modPort s x2 x3) := by
  intro s x2 x3
  unfold State.modPort
  repeat' (first | (fail_if_no_progress (with_reducible refine pres_lit ?_)) | with_reducible exact Pres.refl _)

theorem State.modMbox_pres : ∀ s x2 x3, Pres s (State.modMbox s x2 x3) := by
  intro s x2 x3
  unfold State.modMbox
  repeat' (first | (fail_if_no_progress (with_reducible refine pres_lit ?_)) | with_reducible exact Pres.refl _)

theorem State.modQueue_pres : ∀ s x2 x3, Pres s (State.modQueue s x2 x3) := by
  intro s x2 x3
  unfold State.modQueue
  repeat' (first | (fail_if_no_progress (with_reducible refine pres_lit ?_)) | with_reducible exact Pres.refl _)

theorem State.modChan_pres : ∀ s x2 x3, Pres s (State.modChan s x2 x3) := by
  intro s x2 x3
  unfold State.modChan
  repeat' (first | (fail_if_no_progress (with_reducible refine pres_lit ?_)) | with_reducible exact Pres.refl _)

theorem State.modLeaf_pres : ∀ s x2 x3, Pres s (State.modLeaf s x2 x3) := by
  intro s x2 x3
  unfold State.modLeaf
  repeat' (first | (fail_if_no_progress (with_reducible refine pres_lit ?_)) | with_reducible exact Pres.refl _)

theorem State.free_pres : ∀ s, Pres s (State.free s).2 := by
  intro s
  unfold State.free
  repeat' (first | (fail_if_no_progress (with_reducible refine pres_lit ?_)) | with_reducible exact Pres.refl _)

theorem State.tick_pres : ∀ s, Pres s (State.tick s) := by
  intro s
  unfold State.tick
  repeat' (first | (fail_if_no_progress (with_reducible refine pres_lit ?_)) | with_reducible exact Pres.refl _ | split | dsimp only)

theorem State.freshJunk_pres : ∀ s, Pres s (State.freshJunk s).2 := by
  intro s
  unfold State.freshJunk
  repeat' (first | (fail_if_no_progress (with_reducible refine pres_lit ?_)) | with_reducible exact Pres.refl _)

theorem State.modTap_pres : ∀ s x2 x3, Pres s (State.modTap s x2 x3) := by
  intro s x2 x3
  unfold State.modTap
  repeat' (first | (fail_if_no_progress (with_reducible refine pres_lit ?_)) | with_reducible exact Pres.refl _)

theorem State.wr_pres : ∀ s x2 x3, Pres s (State.wr s x2 x3) := by
  intro s x2 x3
  unfold State.wr
  repeat' (first | (fail_if_no_progress (with_reducible refine pres_lit ?_)) | with_reducible exact Pres.refl _)

theorem State.wrb_pres : ∀ s x2 x3, Pres s (State.wrb s x2 x3) := by
  intro s x2 x3
  unfold State.wrb
  repeat' (first | with_reducible exact Pres.refl _ | with_reducible refine (State.wr_pres _ _ _).after ?_)

theorem State.wrapAdd_pres : ∀ s x2 x3, Pres s (State.wrapAdd s x2 x3) := by
  intro s x2 x3
  unfold State.wrapAdd
  repeat' (first | with_reducible exact Pres.refl _ | with_reducible refine (State.wr_pres _ _ _).after ?_)

theorem State.wrLater_pres : ∀ s x2 x3, Pres s (State.wrLater s x2 x3) := by
  intro s x2 x3
  unfold State.wrLater
  repeat' (first
    | (fail_if_no_progress (with_reducible refine pres_lit ?_)) | with_reducible exact Pres.refl _
    | with_reducible refine (State.wr_pres _ _ _).after ?_)

theorem State.bump_pres : ∀ s x2 x3, Pres s (State.bump s x2 x3) := by
  intro s x2 x3
  unfold State.bump
  repeat' (first | with_reducible exact Pres.refl _ | with_reducible refine (State.wr_pres _ _ _).after ?_)

theorem State.bumpK_pres : ∀ s x2 x3, Pres s (State.bumpK s x2 x3) := by
  intro s x2 x3
  unfold State.bumpK
  repeat' (first
    | (fail_if_no_progress (with_reducible refine pres_lit ?_)) | with_reducible exact Pres.refl _
    | with_reducible refine (State.bump_pres _ _ _).after ?_)

theorem State.settle_pres : ∀ s x2, Pres s (State.settle s x2) := by
  intro s x2
  unfold State.settle
  repeat' (first | (fail_if_no_progress (with_reducible refine pres_lit ?_)) | with_reducible exact Pres.refl _)

theorem State.kvSpoil_pres : ∀ s x2 x3, Pres s (State.kvSpoil s x2 x3) := by
  intro s x2 x3
  unfold State.kvSpoil
  repeat' (first | (fail_if_no_progress (with_reducible refine pres_lit ?_)) | with_reducible exact Pres.refl _ | split | dsimp only)

theorem State.hmStore_pres : ∀ s x2 x3, Pres s (State.hmStore s x2 x3) := by
  intro s x2 x3
  exact pres_mem (State.kvSpoil_pending _ _ _) (State.kvSpoil_fru _ _ _) (State.kvSpoil_fuses _ _ _) (Mem.writeN_wf _ _ _)
    (fun h => by rw [show (s.hmStore x2 x3).lm = s.lm from State.kvSpoil_lm _ _ _]; exact h)
    (fun c => by rw [show (s.hmStore x2 x3).core c = s.core c from congrArg (fun v => v.getD c Core.reset) (State.kvSpoil_cores _ _ _)]; exact SpKept.refl _)

theorem State.putRecord_pres : ∀ s x2 x3, Pres s (State.putRecord s x2 x3) := by
  intro s x2 x3
  unfold State.putRecord
  repeat' (first
    | (fail_if_no_progress (with_reducible refine pres_lit ?_)) | with_reducible exact Pres.refl _
    | with_reducible refine (State.hmStore_pres _ _ _).after ?_)

theorem State.raiseVec_pres : ∀ s x2, Pres s (State.raiseVec s x2) := by
  intro s x2
  unfold State.raiseVec
  repeat' (first
    | (fail_if_no_progress (with_reducible refine pres_lit ?_)) | with_reducible exact Pres.refl _
    | with_reducible refine (State.wr_pres _ _ _).after ?_ | split)

theorem State.errIrq_pres : ∀ s, Pres s (State.errIrq s) := by
  intro s
  unfold State.errIrq
  repeat' (first
    | (fail_if_no_progress (with_reducible refine pres_lit ?_)) | with_reducible exact Pres.refl _
    | with_reducible refine (State.wr_pres _ _ _).after ?_ | with_reducible refine (State.raiseVec_pres _ _).after ?_ | split | dsimp only)

theorem State.writeRecord_pres : ∀ s x2, Pres s (State.writeRecord s x2) := by
  intro s x2
  unfold State.writeRecord
  repeat' (first
    | with_reducible exact Pres.refl _ | with_reducible refine (State.bump_pres _ _ _).after ?_
    | with_reducible refine (State.errIrq_pres _).after ?_ | with_reducible refine (State.putRecord_pres _ _ _).after ?_
    | with_reducible refine (State.wr_pres _ _ _).after ?_ | split)

theorem State.raise_pres : ∀ s x2, Pres s (State.raise s x2) := by
  intro s x2
  unfold State.raise
  repeat' (first
    | (fail_if_no_progress (with_reducible refine pres_lit ?_)) | with_reducible exact Pres.refl _
    | with_reducible refine (State.writeRecord_pres _ _).after ?_ | split | dsimp only)

theorem State.logS0_pres : ∀ s x2 x3 x4, Pres s (State.logS0 s x2 x3 x4) := by
  intro s x2 x3 x4
  unfold State.logS0
  repeat' (first | with_reducible exact Pres.refl _ | with_reducible refine (State.raise_pres _ _).after ?_)

theorem State.kvTouch_pres : ∀ s, Pres s (State.kvTouch s) := by
  intro s
  unfold State.kvTouch
  split
  rename_i g t h
  exact Pres.after (b := t) (pres_mem rfl rfl rfl (Mem.smudge_wf _ _ _ _) id (fun _ => SpKept.refl _)) (pres_of2 h (State.freshJunk_pres s))

theorem State.logDropped_pres : ∀ s x2, Pres s (State.logDropped s x2) := by
  intro s x2
  unfold State.logDropped
  repeat' (first | with_reducible exact Pres.refl _ | with_reducible refine (State.logS0_pres _ _ _ _).after ?_)

theorem State.svcEvent_pres : ∀ s x2, Pres s (State.svcEvent s x2) := by
  intro s x2
  unfold State.svcEvent
  repeat' (first
    | with_reducible exact Pres.refl _ | with_reducible refine (State.raiseVec_pres _ _).after ?_
    | with_reducible refine (State.wr_pres _ _ _).after ?_)

theorem State.quotaNow_pres : ∀ s x2, Pres s (State.quotaNow s x2) := by
  intro s x2
  unfold State.quotaNow
  repeat' (first | (fail_if_no_progress (with_reducible refine pres_lit ?_)) | with_reducible exact Pres.refl _)

theorem State.sramUpsets_pres : ∀ s x2, Pres s (State.sramUpsets s x2) := by
  intro s x2
  unfold State.sramUpsets
  repeat' (first
    | (fail_if_no_progress (with_reducible refine pres_lit ?_)) | (fail_if_no_progress (with_reducible refine spKept_lit ?_))
    | with_reducible exact Pres.refl _ | intro _ | with_reducible exact SpKept.refl _
    | with_reducible refine (State.raise_pres _ _).after ?_ | with_reducible refine (State.modCore_pres ?_ _ _).after ?_
    | with_reducible refine (pres_foldl ?_ _ _).after ?_ | split)

theorem State.writeBack_pres : ∀ s x2, Pres s (State.writeBack s x2) := by
  intro s x2
  unfold State.writeBack
  split
  · exact pres_mem rfl rfl rfl id (Mem.writeN_wf _ _ _) (fun _ => SpKept.refl _)
  · exact Pres.refl _

theorem State.quotaLater_pres : ∀ old s, Pres s (State.quotaLater old s) := by
  intro old s
  unfold State.quotaLater
  repeat' (first | (fail_if_no_progress (with_reducible refine pres_lit ?_)) | with_reducible exact Pres.refl _)

theorem State.lmCorrected_pres : ∀ s x2, Pres s (State.lmCorrected s x2) := by
  intro s x2
  unfold State.lmCorrected
  repeat' (first
    | (fail_if_no_progress (with_reducible refine pres_lit ?_)) | with_reducible exact Pres.refl _
    | with_reducible refine (State.bump_pres _ _ _).after ?_ | with_reducible refine (State.modChan_pres _ _ _).after ?_
    | with_reducible refine (State.raise_pres _ _).after ?_ | split)

theorem State.poisonLm_pres : ∀ s x2 x3, Pres s (State.poisonLm s x2 x3) := by
  intro s x2 x3
  unfold State.poisonLm
  repeat' (first | (fail_if_no_progress (with_reducible refine pres_lit ?_)) | with_reducible exact Pres.refl _)

theorem State.lmUncorrectable_pres : ∀ s x2 x3, Pres s (State.lmUncorrectable s x2 x3) := by
  intro s x2 x3
  unfold State.lmUncorrectable
  repeat' (first
    | with_reducible exact Pres.refl _ | with_reducible refine (State.bump_pres _ _ _).after ?_
    | with_reducible refine (State.wr_pres _ _ _).after ?_ | with_reducible refine (State.wrb_pres _ _ _).after ?_ | split
    | with_reducible refine (State.poisonLm_pres _ _ _).after ?_ | dsimp only)

theorem State.lmUpsets_pres : ∀ s x2 x3, Pres s (State.lmUpsets s x2 x3).2 := by
  intro s x2 x3
  unfold State.lmUpsets
  repeat' (first
    | with_reducible exact Pres.refl _ | intro _ | with_reducible refine (State.lmCorrected_pres _ _).after ?_
    | with_reducible refine (State.lmUncorrectable_pres _ _ _).after ?_ | with_reducible refine (pres_foldl2 ?_ _ _).after ?_ | split)

theorem State.fetchLine_pres : ∀ s x2 x3, Pres s (State.fetchLine s x2 x3).2.2 := by
  intro s x2 x3
  unfold State.fetchLine
  repeat' (first
    | with_reducible exact Pres.refl _ | with_reducible refine (State.lmUpsets_pres _ _ _).after ?_
    | with_reducible refine (State.poisonLm_pres _ _ _).after ?_)

theorem State.putLine_pres : ∀ s x2 x3, Pres s (State.putLine s x2 x3) := by
  intro s x2 x3
  unfold State.putLine
  repeat' (first | (fail_if_no_progress (with_reducible refine pres_lit ?_)) | with_reducible exact Pres.refl _ | split)

theorem State.makeRoom_pres : ∀ s x2, Pres s (State.makeRoom s x2) := by
  intro s x2
  unfold State.makeRoom
  repeat' (first
    | (fail_if_no_progress (with_reducible refine pres_lit ?_)) | with_reducible exact Pres.refl _
    | with_reducible refine (State.writeBack_pres _ _).after ?_ | split | dsimp only)

theorem State.lmReadLine_pres : ∀ s x2 x3 x4 x5, Pres s (State.lmReadLine s x2 x3 x4 x5).2.2 := by
  intro s x2 x3 x4 x5
  unfold State.lmReadLine
  repeat' (first
    | (fail_if_no_progress (with_reducible refine pres_lit ?_)) | with_reducible exact Pres.refl _
    | with_reducible refine (State.fetchLine_pres _ _ _).after ?_
    | with_reducible refine (pres_of22 (by assumption) (State.fetchLine_pres _ _ _)).after ?_
    | with_reducible refine (State.bumpK_pres _ _ _).after ?_ | with_reducible refine (State.putLine_pres _ _ _).after ?_
    | with_reducible refine (State.quotaNow_pres _ _).after ?_ | with_reducible refine (State.makeRoom_pres _ _).after ?_ | split)

theorem State.lmWriteLine_pres : ∀ s x2 x3 x4 x5 x6 x7, Pres s (State.lmWriteLine s x2 x3 x4 x5 x6 x7).2 := by
  intro s x2 x3 x4 x5 x6 x7
  unfold State.lmWriteLine
  repeat' (first
    | (fail_if_no_progress (with_reducible refine pres_lit ?_)) | with_reducible exact Pres.refl _
    | with_reducible refine (State.bumpK_pres _ _ _).after ?_ | with_reducible refine (State.putLine_pres _ _ _).after ?_
    | with_reducible refine (State.fetchLine_pres _ _ _).after ?_ | with_reducible refine (State.raise_pres _ _).after ?_
    | with_reducible refine (State.writeBack_pres _ _).after ?_ | with_reducible refine (State.quotaNow_pres _ _).after ?_
    | with_reducible refine (State.makeRoom_pres _ _).after ?_ | split | dsimp only)

theorem State.lmWrite_pres : ∀ s x2 x3 x4 x5 x6, Pres s (State.lmWrite s x2 x3 x4 x5 x6).2 := by
  intro s x2 x3 x4 x5 x6
  unfold State.lmWrite
  repeat' (first
    | with_reducible exact Pres.refl _ | intro _ | with_reducible refine (State.lmWriteLine_pres _ _ _ _ _ _ _).after ?_
    | with_reducible refine (pres_foldl21 ?_ _ _).after ?_)

theorem State.lmAtomLine_pres : ∀ s x2 x3 x4 x5 x6, Pres s (State.lmAtomLine s x2 x3 x4 x5 x6).2.2 := by
  intro s x2 x3 x4 x5 x6
  unfold State.lmAtomLine
  repeat' (first
    | with_reducible exact Pres.refl _ | with_reducible refine (pres_of22 (by assumption) (State.lmReadLine_pres _ _ _ _ _)).after ?_
    | with_reducible refine (State.putLine_pres _ _ _).after ?_ | with_reducible refine (State.writeBack_pres _ _).after ?_ | split)

theorem State.lmReadAll_pres : ∀ s x2 x3 x4 x5, Pres s (State.lmReadAll s x2 x3 x4 x5).2.2 := by
  intro s x2 x3 x4 x5
  unfold State.lmReadAll
  repeat' (first
    | with_reducible exact Pres.refl _ | intro _ | with_reducible refine (State.lmReadLine_pres _ _ _ _ _).after ?_
    | with_reducible refine (pres_foldl22 ?_ _ _).after ?_)

theorem State.lmSmudge_pres : ∀ s x2 x3 x4, Pres s (State.lmSmudge s x2 x3 x4) := by
  intro s x2 x3 x4
  exact pres_mem rfl rfl rfl id (Mem.smudge_wf _ _ _ _) (fun _ => SpKept.refl _)

theorem State.lmRead_pres : ∀ s x2 x3 x4 x5 x6, Pres s (State.lmRead s x2 x3 x4 x5 x6).2.2 := by
  intro s x2 x3 x4 x5 x6
  unfold State.lmRead
  repeat' (first
    | with_reducible exact Pres.refl _ | intro _ | with_reducible refine (State.lmReadLine_pres _ _ _ _ _).after ?_
    | with_reducible refine (pres_foldl22 ?_ _ _).after ?_)

theorem State.spWrite_pres : ∀ s x2 x3 x4, Pres s (State.spWrite s x2 x3 x4) := by
  intro s x2 x3 x4
  unfold State.spWrite
  repeat' (first
    | with_reducible exact Pres.refl _ | intro _ | with_reducible exact SpKept.refl _
    | with_reducible refine (State.modCore_pres ?_ _ _).after ?_ | with_reducible refine (Core.spWrite_spKept _ _ _).after ?_)

theorem State.hubSet_pres : ∀ s x2 x3, Pres s (State.hubSet s x2 x3) := by
  intro s x2 x3
  unfold State.hubSet
  repeat' (first | (fail_if_no_progress (with_reducible refine pres_lit ?_)) | with_reducible exact Pres.refl _)

theorem State.hubWake_pres : ∀ s x2, Pres s (State.hubWake s x2) := by
  intro s x2
  unfold State.hubWake
  repeat' (first
    | (fail_if_no_progress (with_reducible refine pres_lit ?_)) | with_reducible exact Pres.refl _
    | with_reducible refine (State.hubSet_pres _ _ _).after ?_)

theorem State.hubApply_pres : ∀ s x2 x3, Pres s (State.hubApply s x2 x3).2 := by
  intro s x2 x3
  unfold State.hubApply
  repeat' (first
    | with_reducible exact Pres.refl _ | with_reducible refine (State.hubWake_pres _ _).after ?_
    | with_reducible refine (State.hubSet_pres _ _ _).after ?_)

theorem State.ltApply_pres : ∀ s x2 x3 x4, Pres s (State.ltApply s x2 x3 x4).2 := by
  intro s x2 x3 x4
  unfold State.ltApply
  repeat' (first
    | with_reducible exact Pres.refl _ | intro _ | with_reducible exact SpKept.refl _
    | with_reducible refine (State.modCore_pres ?_ _ _).after ?_ | with_reducible refine (Core.ltSet_spKept _ _ _).after ?_)

theorem State.parkOp_pres : ∀ s x2 x3 x4 x5, Pres s (State.parkOp s x2 x3 x4 x5).2 := by
  intro s x2 x3 x4 x5
  unfold State.parkOp
  repeat' (first
    | (fail_if_no_progress (with_reducible refine pres_lit ?_)) | with_reducible exact Pres.refl _
    | with_reducible refine (State.bump_pres _ _ _).after ?_ | split)

theorem State.tumReach_pres : ∀ s x2, Pres s (State.tumReach s x2).2 := by
  intro s x2
  unfold State.tumReach
  repeat' (first
    | with_reducible exact Pres.refl _ | with_reducible refine (State.hubApply_pres _ _ _).after ?_
    | with_reducible refine (State.ltApply_pres _ _ _ _).after ?_ | with_reducible refine (State.parkOp_pres _ _ _ _ _).after ?_ | split)

theorem State.modTask_pres : ∀ s x2 x3, Pres s (State.modTask s x2 x3) := by
  intro s x2 x3
  unfold State.modTask
  repeat' (first | (fail_if_no_progress (with_reducible refine pres_lit ?_)) | with_reducible exact Pres.refl _)

theorem State.lastStatus_pres : ∀ s x2 x3, Pres s (State.lastStatus s x2 x3) := by
  intro s x2 x3
  unfold State.lastStatus
  repeat' (first
    | (fail_if_no_progress (with_reducible refine spKept_lit ?_)) | with_reducible exact Pres.refl _ | intro _
    | with_reducible exact SpKept.refl _ | with_reducible refine (State.modCore_pres ?_ _ _).after ?_ | split)

theorem State.dropAhead_pres : ∀ s x2, Pres s (State.dropAhead s x2) := by
  intro s x2
  unfold State.dropAhead
  repeat' (first
    | (fail_if_no_progress (with_reducible refine spKept_lit ?_)) | with_reducible exact Pres.refl _ | intro _
    | with_reducible exact SpKept.refl _ | with_reducible refine (State.modCore_pres ?_ _ _).after ?_
    | with_reducible refine (State.bump_pres _ _ _).after ?_)

theorem State.stopTask_pres : ∀ s x2, Pres s (State.stopTask s x2) := by
  intro s x2
  unfold State.stopTask
  extract_lets t
  refine Pres.after (b := t) (pres_mem rfl rfl rfl id id ?_) (pres_foldl (f := fun s c => s.dropAhead c) (fun s c => State.dropAhead_pres s c) _ s)
  exact fun c => ⟨getD_map_spWf _ _ (fun k hk => by split <;> exact hk) c⟩

theorem State.coreFatal_pres : ∀ s x2 x3, Pres s (State.coreFatal s x2 x3) := by
  intro s x2 x3
  unfold State.coreFatal
  repeat' (first
    | with_reducible exact Pres.refl _ | intro _ | with_reducible exact SpKept.refl _
    | with_reducible refine (State.raise_pres _ _).after ?_ | with_reducible refine (State.modTask_pres _ _ _).after ?_
    | with_reducible refine (State.lastStatus_pres _ _ _).after ?_ | with_reducible refine (State.stopTask_pres _ _).after ?_
    | with_reducible refine (State.modCore_pres ?_ _ _).after ?_ | with_reducible refine (State.dropAhead_pres _ _).after ?_
    | with_reducible refine (Core.stop_spKept _).after ?_ | split)

theorem State.nonFatal_pres : ∀ s x2 x3, Pres s (State.nonFatal s x2 x3) := by
  intro s x2 x3
  unfold State.nonFatal
  repeat' (first
    | with_reducible exact Pres.refl _ | with_reducible refine (State.modTask_pres _ _ _).after ?_
    | with_reducible refine (State.lastStatus_pres _ _ _).after ?_ | split)

theorem State.crossLink_pres : ∀ s x2, Pres s (State.crossLink s x2) := by
  intro s x2
  unfold State.crossLink
  repeat' (first | with_reducible exact Pres.refl _ | with_reducible refine (State.modLeaf_pres _ _ _).after ?_)

theorem State.chargeOwner_pres : ∀ s x2 x3 x4 x5, Pres s (State.chargeOwner s x2 x3 x4 x5) := by
  intro s x2 x3 x4 x5
  unfold State.chargeOwner
  repeat' (first
    | with_reducible exact Pres.refl _ | with_reducible refine (State.raise_pres _ _).after ?_
    | with_reducible refine (State.stopTask_pres _ _).after ?_ | with_reducible refine (State.modTask_pres _ _ _).after ?_ | split)

theorem State.viaLink_pres {f3} (h3 : ∀ y0, Pres y0 (f3 y0)) : ∀ s x2, Pres s (State.viaLink s x2 f3) := by
  intro s x2
  unfold State.viaLink
  repeat' (first
    | (fail_if_no_progress (with_reducible refine spKept_lit ?_)) | with_reducible exact Pres.refl _ | intro _
    | with_reducible exact SpKept.refl _ | with_reducible refine (State.crossLink_pres _ _).after ?_
    | with_reducible refine (State.modCore_pres ?_ _ _).after ?_ | with_reducible refine (h3 _).after ?_ | split)

theorem State.winRelease_pres : ∀ s x2 x3, Pres s (State.winRelease s x2 x3) := by
  intro s x2 x3
  unfold State.winRelease
  repeat' (first | (fail_if_no_progress (with_reducible refine pres_lit ?_)) | with_reducible exact Pres.refl _)

theorem State.winCharge_pres : ∀ s x2 x3, Pres s (State.winCharge s x2 x3) := by
  intro s x2 x3
  unfold State.winCharge
  repeat' (first | (fail_if_no_progress (with_reducible refine pres_lit ?_)) | with_reducible exact Pres.refl _)

theorem State.inject_pres : ∀ s x2, Pres s (State.inject s x2) := by
  intro s x2
  unfold State.inject
  repeat' (first | (fail_if_no_progress (with_reducible refine pres_lit ?_)) | with_reducible exact Pres.refl _)

theorem State.sendC0_pres : ∀ s x2 x3, Pres s (State.sendC0 s x2 x3).1 := by
  intro s x2 x3
  unfold State.sendC0
  repeat' (first
    | (fail_if_no_progress (with_reducible refine pres_lit ?_)) | with_reducible exact Pres.refl _
    | with_reducible refine (State.inject_pres _ _).after ?_ | with_reducible refine (State.wr_pres _ _ _).after ?_
    | with_reducible refine (State.bump_pres _ _ _).after ?_ | split | dsimp only)

theorem State.pumpWindow_pres : ∀ s, Pres s (State.pumpWindow s) := by
  intro s
  unfold State.pumpWindow
  repeat' (first
    | (fail_if_no_progress (with_reducible refine pres_lit ?_)) | with_reducible exact Pres.refl _ | intro _
    | with_reducible refine (State.winCharge_pres _ _ _).after ?_ | with_reducible refine (State.sendC0_pres _ _ _).after ?_
    | with_reducible refine (State.inject_pres _ _).after ?_ | with_reducible refine (pres_foldl ?_ _ _).after ?_ | split)

theorem State.purgeTxns_pres : ∀ s, Pres s (State.purgeTxns s) := by
  intro s
  unfold State.purgeTxns
  repeat' (first | (fail_if_no_progress (with_reducible refine pres_lit ?_)) | with_reducible exact Pres.refl _)

theorem State.closeTxnWin_pres : ∀ s x2 x3, Pres s (State.closeTxnWin s x2 x3) := by
  intro s x2 x3
  unfold State.closeTxnWin
  repeat' (first
    | (fail_if_no_progress (with_reducible refine pres_lit ?_)) | with_reducible exact Pres.refl _
    | with_reducible refine (State.winRelease_pres _ _ _).after ?_ | with_reducible refine (State.pumpWindow_pres _).after ?_
    | with_reducible refine (State.purgeTxns_pres _).after ?_ | split)

theorem State.closeTxn_pres : ∀ s x2, Pres s (State.closeTxn s x2) := by
  intro s x2
  unfold State.closeTxn
  repeat' (first | with_reducible exact Pres.refl _ | with_reducible refine (State.closeTxnWin_pres _ _ _).after ?_)

theorem State.returnWaiting_pres : ∀ s x2, Pres s (State.returnWaiting s x2) := by
  intro s x2
  unfold State.returnWaiting
  repeat' (first | (fail_if_no_progress (with_reducible refine pres_lit ?_)) | with_reducible exact Pres.refl _)

theorem State.requestFrom_pres : ∀ s x2 x3 x4 x5 x6 x7 x8, Pres s (State.requestFrom s x2 x3 x4 x5 x6 x7 x8) := by
  intro s x2 x3 x4 x5 x6 x7 x8
  unfold State.requestFrom
  repeat' (first
    | (fail_if_no_progress (with_reducible refine pres_lit ?_)) | with_reducible exact Pres.refl _
    | with_reducible refine (State.purgeTxns_pres _).after ?_ | with_reducible refine (State.winCharge_pres _ _ _).after ?_
    | with_reducible refine (State.sendC0_pres _ _ _).after ?_ | with_reducible refine (State.inject_pres _ _).after ?_ | split | dsimp only)

theorem State.returnHeld_pres : ∀ s x2, Pres s (State.returnHeld s x2) := by
  intro s x2
  unfold State.returnHeld
  repeat' (first | with_reducible exact Pres.refl _ | with_reducible refine (State.returnWaiting_pres _ _).after ?_)

theorem State.nextOpid_pres : ∀ s x2, Pres s (State.nextOpid s x2).2 := by
  intro s x2
  unfold State.nextOpid
  repeat' (first | (fail_if_no_progress (with_reducible refine pres_lit ?_)) | with_reducible exact Pres.refl _)

theorem State.sendFree_pres : ∀ s x2 x3, Pres s (State.sendFree s x2 x3) := by
  intro s x2 x3
  unfold State.sendFree
  repeat' (first
    | with_reducible exact Pres.refl _ | with_reducible refine (State.sendC0_pres _ _ _).after ?_
    | with_reducible refine (State.inject_pres _ _).after ?_ | split)

theorem State.request_pres : ∀ s x2 x3 x4 x5 x6 x7, Pres s (State.request s x2 x3 x4 x5 x6 x7) := by
  intro s x2 x3 x4 x5 x6 x7
  unfold State.request
  repeat' (first | with_reducible exact Pres.refl _ | with_reducible refine (State.requestFrom_pres _ _ _ _ _ _ _ _).after ?_)

theorem State.freshSig_pres : ∀ s x2, Pres s (State.freshSig s x2).2 := by
  intro s x2
  unfold State.freshSig
  repeat' (first | (fail_if_no_progress (with_reducible refine pres_lit ?_)) | with_reducible exact Pres.refl _)

theorem State.ackTo_pres : ∀ s x2 x3 x4, Pres s (State.ackTo s x2 x3 x4) := by
  intro s x2 x3 x4
  unfold State.ackTo
  repeat' (first | with_reducible exact Pres.refl _ | with_reducible refine (State.inject_pres _ _).after ?_)

theorem State.drainC0_pres : ∀ x1 s, Pres s (State.drainC0 x1 s) := by
  intro n
  induction n with
  | zero => intro s; exact Pres.refl s
  | succ n ih =>
    intro s
    unfold State.drainC0
    split
    · extract_lets t
      split
      · refine (ih _).after ?_
        with_reducible refine pres_lit ?_
        exact (State.inject_pres _ _).after (State.wr_pres _ _ _)
      · exact Pres.refl _
    · exact Pres.refl _

theorem State.answerStatus_pres : ∀ s x2 x3, Pres s (State.answerStatus s x2 x3) := by
  intro s x2 x3
  unfold State.answerStatus
  repeat' (first
    | with_reducible exact Pres.refl _ | with_reducible refine (State.inject_pres _ _).after ?_
    | with_reducible refine (State.ackTo_pres _ _ _ _).after ?_ | split | dsimp only)

theorem State.strayReply_pres : ∀ s x2, Pres s (State.strayReply s x2) := by
  intro s x2
  unfold State.strayReply
  repeat' (first | with_reducible exact Pres.refl _ | with_reducible refine (State.raise_pres _ _).after ?_)

theorem State.takeHub_pres : ∀ s x2, Pres s (State.takeHub s x2) := by
  intro s x2
  unfold State.takeHub
  repeat' (first | (fail_if_no_progress (with_reducible refine pres_lit ?_)) | with_reducible exact Pres.refl _)

theorem State.dedupNote_pres : ∀ s x2 x3 x4 x5, Pres s (State.dedupNote s x2 x3 x4 x5) := by
  intro s x2 x3 x4 x5
  unfold State.dedupNote
  repeat' (first | (fail_if_no_progress (with_reducible refine pres_lit ?_)) | with_reducible exact Pres.refl _)

theorem State.staleReads_pres : ∀ s x2 x3, Pres s (State.staleReads s x2 x3) := by
  intro s x2 x3
  unfold State.staleReads
  repeat' (first
    | (fail_if_no_progress (with_reducible refine spKept_lit ?_)) | with_reducible exact Pres.refl _ | intro _
    | with_reducible exact SpKept.refl _ | with_reducible refine (State.modCore_pres ?_ _ _).after ?_)

theorem State.overLink_pres {f4} (h4 : ∀ y0 y1, Pres y0 (f4 y0 y1)) : ∀ s x2 x3, Pres s (State.overLink s x2 x3 f4) := by
  intro s x2 x3
  unfold State.overLink
  repeat' (first
    | with_reducible exact Pres.refl _ | with_reducible refine (State.crossLink_pres _ _).after ?_ | with_reducible refine (h4 _ _).after ?_
    | split | dsimp only)

theorem State.modEntry_pres : ∀ s x2 x3 x4, Pres s (State.modEntry s x2 x3 x4) := by
  intro s x2 x3 x4
  unfold State.modEntry
  repeat' (first
    | with_reducible exact Pres.refl _ | intro _ | with_reducible exact SpKept.refl _
    | with_reducible refine (State.modCore_pres ?_ _ _).after ?_ | with_reducible refine (Core.modEntry_spKept _ _ _).after ?_)

theorem State.await_pres : ∀ s x2 x3 x4 x5, Pres s (State.await s x2 x3 x4 x5) := by
  intro s x2 x3 x4 x5
  unfold State.await
  repeat' (first | with_reducible exact Pres.refl _ | with_reducible refine (State.modEntry_pres _ _ _ _).after ?_)

theorem State.seqFatal_pres : ∀ s x2 x3 x4 x5, Pres s (State.seqFatal s x2 x3 x4 x5) := by
  intro s x2 x3 x4 x5
  unfold State.seqFatal
  repeat' (first | with_reducible exact Pres.refl _ | with_reducible refine (State.coreFatal_pres _ _ _).after ?_)

theorem State.preIssue_pres : ∀ s x2 x3 x4 x5 x6 x7 x8 x9, Pres s (State.preIssue s x2 x3 x4 x5 x6 x7 x8 x9) := by
  intro s x2 x3 x4 x5 x6 x7 x8 x9
  unfold State.preIssue
  repeat' (first
    | (fail_if_no_progress (with_reducible refine pres_lit ?_)) | (fail_if_no_progress (with_reducible refine spKept_lit ?_))
    | with_reducible exact Pres.refl _ | intro _ | with_reducible exact SpKept.refl _
    | with_reducible refine (State.modCore_pres ?_ _ _).after ?_ | with_reducible refine (State.request_pres _ _ _ _ _ _ _).after ?_
    | with_reducible refine (pres_foldl ?_ _ _).after ?_)

theorem State.scan_pres : ∀ s x2 x3 x4, Pres s (State.scan s x2 x3 x4) := by
  intro s c n
  induction n using Nat.strong_induction_on generalizing s with
  | _ n ih =>
    intro ip
    match n, ih with
    | 0, _ => unfold State.scan; exact Pres.refl _
    | n + 1, ih =>
      unfold State.scan
      extract_lets k w x hasExt noSignal td ra rb uses t
      have ht : Pres s t := by
        show Pres s (if _ then _ else _)
        split
        · exact State.preIssue_pres _ _ _ _ _ _ _ _ _
        · exact Pres.refl _
      split
      · exact Pres.refl _
      · split
        · match n, ih with
          | 0, _ => exact ht
          | m + 1, ih => exact (ih m (by omega) _ _).after ht
        · exact (ih n (by omega) _ _).after ht

theorem State.stallOn_pres : ∀ s x2 x3 x4 x5, Pres s (State.stallOn s x2 x3 x4 x5) := by
  intro s x2 x3 x4 x5
  unfold State.stallOn
  repeat' (first
    | (fail_if_no_progress (with_reducible refine spKept_lit ?_)) | with_reducible exact Pres.refl _ | intro _
    | with_reducible exact SpKept.refl _ | with_reducible refine (State.modCore_pres ?_ _ _).after ?_
    | with_reducible refine (State.scan_pres _ _ _ _).after ?_ | split)

theorem State.advance_pres : ∀ s x2 x3, Pres s (State.advance s x2 x3) := by
  intro s x2 x3
  unfold State.advance
  repeat' (first
    | (fail_if_no_progress (with_reducible refine spKept_lit ?_)) | with_reducible exact Pres.refl _ | intro _
    | with_reducible exact SpKept.refl _ | with_reducible refine (State.coreFatal_pres _ _ _).after ?_
    | with_reducible refine (State.modCore_pres ?_ _ _).after ?_ | split | dsimp only)

theorem State.issue_pres {f6} (h6 : ∀ y0, Pres y0 (f6 y0)) : ∀ s x2 x3 x4 x5, Pres s (State.issue s x2 x3 x4 x5 f6) := by
  intro s x2 x3 x4 x5
  unfold State.issue
  repeat' (first
    | with_reducible exact Pres.refl _ | intro _ | with_reducible exact SpKept.refl _
    | with_reducible refine (State.seqFatal_pres _ _ _ _ _).after ?_ | with_reducible refine (State.coreFatal_pres _ _ _).after ?_
    | with_reducible refine (State.stallOn_pres _ _ _ _ _).after ?_ | with_reducible refine (State.advance_pres _ _ _).after ?_
    | with_reducible refine (State.modCore_pres ?_ _ _).after ?_ | with_reducible refine (Core.ltTake_spKept _ _ _).after ?_
    | with_reducible refine (h6 _).after ?_ | split | dsimp only)

theorem State.issueCore_pres {f6} (h6 : ∀ y0, SpKept y0 (f6 y0)) : ∀ s x2 x3 x4 x5, Pres s (State.issueCore s x2 x3 x4 x5 f6) := by
  intro s x2 x3 x4 x5
  unfold State.issueCore
  repeat' (first
    | with_reducible exact Pres.refl _ | intro _ | with_reducible exact SpKept.refl _
    | with_reducible refine (State.issue_pres ?_ _ _ _ _ _).after ?_ | with_reducible refine (State.advance_pres _ _ _).after ?_
    | with_reducible refine (State.modCore_pres ?_ _ _).after ?_ | with_reducible refine (h6 _).after ?_)

theorem State.enqueue_pres : ∀ s x2 x3 x4, Pres s (State.enqueue s x2 x3 x4) := by
  intro s x2 x3 x4
  unfold State.enqueue
  repeat' (first
    | (fail_if_no_progress (with_reducible refine spKept_lit ?_)) | with_reducible exact Pres.refl _ | intro _
    | with_reducible exact SpKept.refl _ | with_reducible refine (State.stallOn_pres _ _ _ _ _).after ?_
    | with_reducible refine (State.advance_pres _ _ _).after ?_ | with_reducible refine (State.modCore_pres ?_ _ _).after ?_ | split
    | dsimp only)

theorem State.issueEngine_pres : ∀ s x2 x3 x4 x5 x6, Pres s (State.issueEngine s x2 x3 x4 x5 x6) := by
  intro s x2 x3 x4 x5 x6
  unfold State.issueEngine
  repeat' (first
    | with_reducible exact Pres.refl _ | intro _ | with_reducible refine (State.issue_pres ?_ _ _ _ _ _).after ?_
    | with_reducible refine (State.enqueue_pres _ _ _ _).after ?_)

theorem State.finish_pres : ∀ s x2 x3 x4, Pres s (State.finish s x2 x3 x4) := by
  intro s x2 x3 x4
  unfold State.finish
  repeat' (first | with_reducible exact Pres.refl _ | with_reducible refine (State.modEntry_pres _ _ _ _).after ?_)

theorem State.finishRange_pres : ∀ s x2 x3, Pres s (State.finishRange s x2 x3) := by
  intro s x2 x3
  unfold State.finishRange
  repeat' (first | with_reducible exact Pres.refl _ | with_reducible refine (State.finish_pres _ _ _ _).after ?_)

theorem State.runEntry_pres {f5} (h5 : ∀ y0 y1, Pres y0 (f5 y0 y1)) : ∀ s x2 x3 x4, Pres s (State.runEntry s x2 x3 x4 f5) := by
  intro s x2 x3 x4
  unfold State.runEntry
  repeat' (first
    | with_reducible exact Pres.refl _ | intro _ | with_reducible refine (State.finishRange_pres _ _ _).after ?_
    | with_reducible refine (State.overLink_pres ?_ _ _ _).after ?_ | with_reducible refine (State.sramUpsets_pres _ _).after ?_
    | with_reducible refine (h5 _ _).after ?_ | split)

theorem State.markDirty_pres : ∀ s x2 x3, Pres s (State.markDirty s x2 x3) := by
  intro s x2 x3
  unfold State.markDirty
  repeat' (first
    | (fail_if_no_progress (with_reducible refine spKept_lit ?_)) | with_reducible exact Pres.refl _ | intro _
    | with_reducible exact SpKept.refl _ | with_reducible refine (State.modCore_pres ?_ _ _).after ?_)

theorem State.finishBad_pres : ∀ s x2 x3 x4 x5 x6 x7, Pres s (State.finishBad s x2 x3 x4 x5 x6 x7) := by
  intro s x2 x3 x4 x5 x6 x7
  unfold State.finishBad
  repeat' (first | with_reducible exact Pres.refl _ | with_reducible refine (State.modEntry_pres _ _ _ _).after ?_)

theorem State.finishEcc_pres : ∀ s x2 x3 x4 x5, Pres s (State.finishEcc s x2 x3 x4 x5) := by
  intro s x2 x3 x4 x5
  unfold State.finishEcc
  repeat' (first | with_reducible exact Pres.refl _ | with_reducible refine (State.finishBad_pres _ _ _ _ _ _ _).after ?_)

theorem State.finishUndef_pres : ∀ s x2 x3 x4, Pres s (State.finishUndef s x2 x3 x4) := by
  intro s x2 x3 x4
  unfold State.finishUndef
  repeat' (first | with_reducible exact Pres.refl _ | with_reducible refine (State.finishBad_pres _ _ _ _ _ _ _).after ?_)

theorem State.partDone_pres : ∀ s x2 x3 x4, Pres s (State.partDone s x2 x3 x4) := by
  intro s x2 x3 x4
  unfold State.partDone
  repeat' (first | with_reducible exact Pres.refl _ | with_reducible refine (State.modEntry_pres _ _ _ _).after ?_)

theorem State.writeSpace_pres : ∀ s x2 x3 x4 x5 x6 x7, Pres s (State.writeSpace s x2 x3 x4 x5 x6 x7).2 := by
  intro s x2 x3 x4 x5 x6 x7
  unfold State.writeSpace
  repeat' (first
    | with_reducible exact Pres.refl _ | with_reducible refine (State.lmWrite_pres _ _ _ _ _ _).after ?_
    | with_reducible refine (State.hmStore_pres _ _ _).after ?_ | with_reducible refine (State.spWrite_pres _ _ _ _).after ?_ | split)

theorem State.checkFail_pres : ∀ s x2 x3, Pres s (State.checkFail s x2 x3) := by
  intro s x2 x3
  unfold State.checkFail
  repeat' (first
    | (fail_if_no_progress (with_reducible refine spKept_lit ?_)) | with_reducible exact Pres.refl _ | intro _
    | with_reducible exact SpKept.refl _ | with_reducible refine (State.wr_pres _ _ _).after ?_
    | with_reducible refine (State.bump_pres _ _ _).after ?_ | with_reducible refine (State.modCore_pres ?_ _ _).after ?_)

theorem State.fillerResidue_pres : ∀ s x2 x3, Pres s (State.fillerResidue s x2 x3) := by
  intro s x2 x3
  unfold State.fillerResidue
  repeat' (first
    | with_reducible exact Pres.refl _ | with_reducible refine (State.raise_pres _ _).after ?_
    | with_reducible refine (State.checkFail_pres _ _ _).after ?_)

theorem State.endFiller_pres : ∀ s x2 x3 x4, Pres s (State.endFiller s x2 x3 x4) := by
  intro s x2 x3 x4
  unfold State.endFiller
  repeat' (first
    | with_reducible exact Pres.refl _ | intro _ | with_reducible exact SpKept.refl _
    | with_reducible refine (State.fillerResidue_pres _ _ _).after ?_ | with_reducible refine (State.modCore_pres ?_ _ _).after ?_
    | with_reducible refine (State.bumpK_pres _ _ _).after ?_ | with_reducible refine (Core.modFiller_spKept _ _ _).after ?_
    | with_reducible refine (pres_foldl ?_ _ _).after ?_ | split | dsimp only)

theorem State.readSpace_pres : ∀ s x2 x3 x4 x5 x6 x7, Pres s (State.readSpace s x2 x3 x4 x5 x6 x7).2.2 := by
  intro s x2 x3 x4 x5 x6 x7
  unfold State.readSpace
  repeat' (first | with_reducible exact Pres.refl _ | with_reducible refine (State.lmRead_pres _ _ _ _ _ _).after ?_ | split)

theorem State.readPieces_pres : ∀ s x2 x3 x4 x5 x6 x7, Pres s (State.readPieces s x2 x3 x4 x5 x6 x7).2.2 := by
  intro s x2 x3 x4 x5 x6 x7
  unfold State.readPieces
  repeat' (first
    | with_reducible exact Pres.refl _ | intro _ | with_reducible refine (State.lmReadAll_pres _ _ _ _ _).after ?_
    | with_reducible refine (State.readSpace_pres _ _ _ _ _ _ _).after ?_ | with_reducible refine (pres_foldl22 ?_ _ _).after ?_ | split)

theorem State.disableArray_pres : ∀ s x2 x3, Pres s (State.disableArray s x2 x3) := by
  intro s x2 x3
  unfold State.disableArray
  repeat' (first
    | (fail_if_no_progress (with_reducible refine pres_lit ?_)) | (fail_if_no_progress (with_reducible refine spKept_lit ?_))
    | with_reducible exact Pres.refl _ | intro _ | with_reducible exact SpKept.refl _
    | with_reducible refine (State.modCore_pres ?_ _ _).after ?_ | with_reducible refine (State.raise_pres _ _).after ?_)

theorem execArraySelfTest_pres : ∀ x1 x2 x3 s, Keeps s (execArraySelfTest x1 x2 x3 s) := by
  intro x1 x2 x3 s
  unfold execArraySelfTest
  repeat' (first
    | (fail_if_no_progress (with_reducible refine spKept_lit ?_)) | with_reducible exact Pres.refl _ | intro _
    | with_reducible refine keeps_next ?_ | with_reducible exact SpKept.refl _ | with_reducible refine (State.bump_pres _ _ _).after ?_
    | with_reducible refine (State.wr_pres _ _ _).after ?_ | with_reducible refine (State.modCore_pres ?_ _ _).after ?_
    | with_reducible refine (State.disableArray_pres _ _ _).after ?_ | split | dsimp only)

theorem State.fillerAtDispatch_pres : ∀ s x2 x3 x4, Pres s (State.fillerAtDispatch s x2 x3 x4) := by
  intro s x2 x3 x4
  unfold State.fillerAtDispatch
  repeat' (first
    | with_reducible exact Pres.refl _ | intro _ | with_reducible exact SpKept.refl _
    | with_reducible refine (State.endFiller_pres _ _ _ _).after ?_ | with_reducible refine (State.modCore_pres ?_ _ _).after ?_
    | with_reducible refine (Core.modFiller_spKept _ _ _).after ?_ | with_reducible refine (pres_foldl ?_ _ _).after ?_ | split | dsimp only)

theorem State.landPieces_pres : ∀ s x2 x3, Pres s (State.landPieces s x2 x3) := by
  intro s x2 x3
  unfold State.landPieces
  repeat' (first
    | with_reducible exact Pres.refl _ | intro _ | with_reducible refine (State.spWrite_pres _ _ _ _).after ?_
    | with_reducible refine (pres_foldl ?_ _ _).after ?_)

theorem State.preReturn_pres : ∀ s x2 x3 x4, Pres s (State.preReturn s x2 x3 x4) := by
  intro s x2 x3 x4
  unfold State.preReturn
  repeat' (first
    | (fail_if_no_progress (with_reducible refine spKept_lit ?_)) | with_reducible exact Pres.refl _ | intro _
    | with_reducible exact SpKept.refl _ | with_reducible refine (State.modCore_pres ?_ _ _).after ?_
    | with_reducible refine (State.finish_pres _ _ _ _).after ?_ | with_reducible refine (State.landPieces_pres _ _ _).after ?_ | split)

theorem State.startFiller_pres : ∀ s x2 x3, Pres s (State.startFiller s x2 x3) := by
  intro s x2 x3
  unfold State.startFiller
  repeat' (first
    | with_reducible exact Pres.refl _ | intro _ | with_reducible exact SpKept.refl _
    | with_reducible refine (State.modCore_pres ?_ _ _).after ?_ | with_reducible refine (Core.modFiller_spKept _ _ _).after ?_
    | with_reducible refine (pres_foldl ?_ _ _).after ?_ | split | dsimp only)

theorem execFillerRampDown_pres : ∀ x1 x2 x3 s, Keeps s (execFillerRampDown x1 x2 x3 s) := by
  intro x1 x2 x3 s
  unfold execFillerRampDown
  repeat' (first
    | with_reducible exact Pres.refl _ | with_reducible refine keeps_next ?_ | with_reducible refine (State.endFiller_pres _ _ _ _).after ?_)

theorem State.endFillers_pres : ∀ s x2 x3, Pres s (State.endFillers s x2 x3) := by
  intro s x2 x3
  unfold State.endFillers
  repeat' (first
    | with_reducible exact Pres.refl _ | intro _ | with_reducible refine (State.endFiller_pres _ _ _ _).after ?_
    | with_reducible refine (pres_foldl ?_ _ _).after ?_)

theorem execDispatch_pres : ∀ x1 x2 s, Keeps s (execDispatch x1 x2 s) := by
  intro x1 x2 s
  unfold execDispatch
  repeat' (first
    | with_reducible exact Pres.refl _ | intro _ | with_reducible refine keeps_next ?_ | with_reducible exact SpKept.refl _
    | with_reducible refine (State.markDirty_pres _ _ _).after ?_ | with_reducible refine (State.modCore_pres ?_ _ _).after ?_
    | with_reducible refine (State.fillerAtDispatch_pres _ _ _ _).after ?_ | with_reducible refine (Core.modEntry_spKept _ _ _).after ?_
    | with_reducible refine (Core.ltTake_spKept _ _ _).after ?_ | split)

theorem State.signal_pres : ∀ s x2 x3, Pres s (State.signal s x2 x3) := by
  intro s x2 x3
  unfold State.signal
  repeat' (first
    | with_reducible exact Pres.refl _ | intro _ | with_reducible exact SpKept.refl _
    | with_reducible refine (State.modCore_pres ?_ _ _).after ?_ | with_reducible refine (Core.ltSet_spKept _ _ _).after ?_
    | with_reducible refine (State.coreFatal_pres _ _ _).after ?_ | split)

theorem execRunAheadReadReturn_pres : ∀ x1 x2 x3 s, Keeps s (execRunAheadReadReturn x1 x2 x3 s) := by
  intro x1 x2 x3 s
  unfold execRunAheadReadReturn
  repeat' (first
    | with_reducible exact Pres.refl _ | with_reducible refine keeps_next ?_ | with_reducible refine (State.crossLink_pres _ _).after ?_
    | with_reducible refine (State.sramUpsets_pres _ _).after ?_ | with_reducible refine (State.readPieces_pres _ _ _ _ _ _ _).after ?_
    | with_reducible refine (State.preReturn_pres _ _ _ _).after ?_ | split)

theorem execInstructionComplete_pres : ∀ x1 x2 s, Keeps s (execInstructionComplete x1 x2 s) := by
  intro x1 x2 s
  unfold execInstructionComplete
  repeat' (first
    | (fail_if_no_progress (with_reducible refine spKept_lit ?_)) | with_reducible exact Pres.refl _ | intro _
    | with_reducible refine keeps_next ?_ | with_reducible exact SpKept.refl _ | with_reducible refine (State.modCore_pres ?_ _ _).after ?_
    | with_reducible refine (State.staleReads_pres _ _ _).after ?_ | with_reducible refine (State.coreFatal_pres _ _ _).after ?_
    | with_reducible refine (State.raise_pres _ _).after ?_ | with_reducible refine (State.lastStatus_pres _ _ _).after ?_
    | with_reducible refine (State.nonFatal_pres _ _ _).after ?_ | with_reducible refine (State.spWrite_pres _ _ _ _).after ?_
    | with_reducible refine (State.signal_pres _ _ _).after ?_ | with_reducible refine (State.startFiller_pres _ _ _).after ?_ | split)

theorem State.vConvAll_pres : ∀ s x2 x3 x4 x5, Pres s (State.vConvAll s x2 x3 x4 x5).2 := by
  intro s x2 x3 x4 x5
  unfold State.vConvAll
  repeat' (first | (fail_if_no_progress (with_reducible refine pres_lit ?_)) | with_reducible exact Pres.refl _ | split)

theorem State.vput_pres : ∀ s x2 x3 x4 x5 x6 x7, Pres s (State.vput s x2 x3 x4 x5 x6 x7) := by
  intro s x2 x3 x4 x5 x6 x7
  unfold State.vput
  repeat' (first
    | with_reducible exact Pres.refl _ | intro _ | with_reducible exact SpKept.refl _
    | with_reducible refine (State.vConvAll_pres _ _ _ _ _).after ?_ | with_reducible refine (State.modCore_pres ?_ _ _).after ?_
    | with_reducible refine (Core.vputAt_spKept _ _ _ _ _).after ?_)

theorem State.runElem_pres : ∀ s x2 x3 x4 x5, Pres s (State.runElem s x2 x3 x4 x5) := by
  intro s x2 x3 x4 x5
  unfold State.runElem
  repeat' (first
    | with_reducible exact Pres.refl _ | with_reducible refine (State.finish_pres _ _ _ _).after ?_
    | with_reducible refine (State.vput_pres _ _ _ _ _ _ _).after ?_ | split)

theorem execVfma_pres : ∀ x1 x2 s, Keeps s (execVfma x1 x2 s) := by
  intro x1 x2 s
  unfold execVfma
  repeat' (first
    | with_reducible exact Pres.refl _ | intro _ | with_reducible refine keeps_next ?_
    | with_reducible refine (State.issueEngine_pres _ _ _ _ _ _).after ?_ | with_reducible refine (State.runEntry_pres ?_ _ _ _ _).after ?_
    | with_reducible refine (State.runElem_pres _ _ _ _ _).after ?_ | split)

theorem execVadd_pres : ∀ x1 x2 s, Keeps s (execVadd x1 x2 s) := by
  intro x1 x2 s
  unfold execVadd
  repeat' (first
    | with_reducible exact Pres.refl _ | intro _ | with_reducible refine keeps_next ?_
    | with_reducible refine (State.issueEngine_pres _ _ _ _ _ _).after ?_ | with_reducible refine (State.runEntry_pres ?_ _ _ _ _).after ?_
    | with_reducible refine (State.runElem_pres _ _ _ _ _).after ?_ | split)

theorem State.runVfn_pres : ∀ s x2 x3 x4 x5, Pres s (State.runVfn s x2 x3 x4 x5) := by
  intro s x2 x3 x4 x5
  unfold State.runVfn
  repeat' (first
    | with_reducible exact Pres.refl _ | with_reducible refine (State.finishUndef_pres _ _ _ _).after ?_
    | with_reducible refine (State.finish_pres _ _ _ _).after ?_ | with_reducible refine (State.vput_pres _ _ _ _ _ _ _).after ?_ | split)

theorem execVfn_pres : ∀ x1 x2 s, Keeps s (execVfn x1 x2 s) := by
  intro x1 x2 s
  unfold execVfn
  repeat' (first
    | with_reducible exact Pres.refl _ | intro _ | with_reducible refine keeps_next ?_
    | with_reducible refine (State.issueEngine_pres _ _ _ _ _ _).after ?_ | with_reducible refine (State.runEntry_pres ?_ _ _ _ _).after ?_
    | with_reducible refine (State.runVfn_pres _ _ _ _ _).after ?_ | split)

theorem State.finishTile_pres : ∀ s x2 x3 x4 x5, Pres s (State.finishTile s x2 x3 x4 x5) := by
  intro s x2 x3 x4 x5
  unfold State.finishTile
  repeat' (first
    | with_reducible exact Pres.refl _ | with_reducible refine (State.finishUndef_pres _ _ _ _).after ?_
    | with_reducible refine (State.finishRange_pres _ _ _).after ?_ | split)

theorem State.storeWords_pres : ∀ s x2 x3 x4 x5 x6 x7 x8, Pres s (State.storeWords s x2 x3 x4 x5 x6 x7 x8) := by
  intro s x2 x3 x4 x5 x6 x7 x8
  unfold State.storeWords
  repeat' (first
    | with_reducible exact Pres.refl _ | with_reducible refine (State.vConvAll_pres _ _ _ _ _).after ?_
    | with_reducible refine (State.spWrite_pres _ _ _ _).after ?_)

theorem execVst_pres : ∀ x1 x2 s, Keeps s (execVst x1 x2 s) := by
  intro x1 x2 s
  unfold execVst
  repeat' (first
    | with_reducible exact Pres.refl _ | intro _ | with_reducible refine keeps_next ?_
    | with_reducible refine (State.issueEngine_pres _ _ _ _ _ _).after ?_ | with_reducible refine (State.runEntry_pres ?_ _ _ _ _).after ?_
    | with_reducible refine (State.finishTile_pres _ _ _ _ _).after ?_ | with_reducible refine (State.finish_pres _ _ _ _).after ?_
    | with_reducible refine (State.storeWords_pres _ _ _ _ _ _ _ _).after ?_ | split)

theorem execVmin_pres : ∀ x1 x2 s, Keeps s (execVmin x1 x2 s) := by
  intro x1 x2 s
  unfold execVmin
  repeat' (first
    | with_reducible exact Pres.refl _ | intro _ | with_reducible refine keeps_next ?_
    | with_reducible refine (State.issueEngine_pres _ _ _ _ _ _).after ?_ | with_reducible refine (State.runEntry_pres ?_ _ _ _ _).after ?_
    | with_reducible refine (State.runElem_pres _ _ _ _ _).after ?_ | split)

theorem execVmax_pres : ∀ x1 x2 s, Keeps s (execVmax x1 x2 s) := by
  intro x1 x2 s
  unfold execVmax
  repeat' (first
    | with_reducible exact Pres.refl _ | intro _ | with_reducible refine keeps_next ?_
    | with_reducible refine (State.issueEngine_pres _ _ _ _ _ _).after ?_ | with_reducible refine (State.runEntry_pres ?_ _ _ _ _).after ?_
    | with_reducible refine (State.runElem_pres _ _ _ _ _).after ?_ | split)

theorem execVld_pres : ∀ x1 x2 s, Keeps s (execVld x1 x2 s) := by
  intro x1 x2 s
  unfold execVld
  repeat' (first
    | with_reducible exact Pres.refl _ | intro _ | with_reducible refine keeps_next ?_ | with_reducible exact SpKept.refl _
    | with_reducible refine (State.issueEngine_pres _ _ _ _ _ _).after ?_ | with_reducible refine (State.runEntry_pres ?_ _ _ _ _).after ?_
    | with_reducible refine (State.finishTile_pres _ _ _ _ _).after ?_ | with_reducible refine (State.finishEcc_pres _ _ _ _ _).after ?_
    | with_reducible refine (State.finish_pres _ _ _ _).after ?_ | with_reducible refine (State.modCore_pres ?_ _ _).after ?_
    | with_reducible refine (Core.vputAt_spKept _ _ _ _ _).after ?_ | split | dsimp only)

theorem execVcvt_pres : ∀ x1 x2 s, Keeps s (execVcvt x1 x2 s) := by
  intro x1 x2 s
  unfold execVcvt
  repeat' (first
    | with_reducible exact Pres.refl _ | intro _ | with_reducible refine keeps_next ?_ | with_reducible exact SpKept.refl _
    | with_reducible refine (State.issueEngine_pres _ _ _ _ _ _).after ?_ | with_reducible refine (State.runEntry_pres ?_ _ _ _ _).after ?_
    | with_reducible refine (State.finish_pres _ _ _ _).after ?_ | with_reducible refine (State.vput_pres _ _ _ _ _ _ _).after ?_
    | with_reducible refine (State.vConvAll_pres _ _ _ _ _).after ?_ | with_reducible refine (State.modCore_pres ?_ _ _).after ?_
    | with_reducible refine (Core.vputAt_spKept _ _ _ _ _).after ?_ | with_reducible refine (State.finishUndef_pres _ _ _ _).after ?_
    | split)

theorem execVred_pres : ∀ x1 x2 s, Keeps s (execVred x1 x2 s) := by
  intro x1 x2 s
  unfold execVred
  repeat' (first
    | with_reducible exact Pres.refl _ | intro _ | with_reducible refine keeps_next ?_
    | with_reducible refine (State.issueEngine_pres _ _ _ _ _ _).after ?_ | with_reducible refine (State.runEntry_pres ?_ _ _ _ _).after ?_
    | with_reducible refine (State.finishUndef_pres _ _ _ _).after ?_ | with_reducible refine (State.finish_pres _ _ _ _).after ?_
    | with_reducible refine (State.vput_pres _ _ _ _ _ _ _).after ?_ | split)

theorem State.runRow_pres : ∀ s x2 x3 x4 x5, Pres s (State.runRow s x2 x3 x4 x5) := by
  intro s x2 x3 x4 x5
  unfold State.runRow
  repeat' (first
    | with_reducible exact Pres.refl _ | intro _ | with_reducible refine (State.finishUndef_pres _ _ _ _).after ?_
    | with_reducible refine (State.finishRange_pres _ _ _).after ?_ | with_reducible refine (State.finishEcc_pres _ _ _ _ _).after ?_
    | with_reducible refine (State.storeWords_pres _ _ _ _ _ _ _ _).after ?_ | with_reducible refine (State.finish_pres _ _ _ _).after ?_
    | with_reducible refine (pres_foldl ?_ _ _).after ?_ | split | dsimp only)

theorem execVrowNormb_pres : ∀ x1 x2 s, Keeps s (execVrowNormb x1 x2 s) := by
  intro x1 x2 s
  unfold execVrowNormb
  repeat' (first
    | with_reducible exact Pres.refl _ | intro _ | with_reducible refine keeps_next ?_
    | with_reducible refine (State.issueEngine_pres _ _ _ _ _ _).after ?_ | with_reducible refine (State.runEntry_pres ?_ _ _ _ _).after ?_
    | with_reducible refine (State.runRow_pres _ _ _ _ _).after ?_ | split)

theorem execVrowNorm_pres : ∀ x1 x2 s, Keeps s (execVrowNorm x1 x2 s) := by
  intro x1 x2 s
  unfold execVrowNorm
  repeat' (first
    | with_reducible exact Pres.refl _ | intro _ | with_reducible refine keeps_next ?_
    | with_reducible refine (State.issueEngine_pres _ _ _ _ _ _).after ?_ | with_reducible refine (State.runEntry_pres ?_ _ _ _ _).after ?_
    | with_reducible refine (State.runRow_pres _ _ _ _ _).after ?_ | split)

theorem execVrowSmax_pres : ∀ x1 x2 s, Keeps s (execVrowSmax x1 x2 s) := by
  intro x1 x2 s
  unfold execVrowSmax
  repeat' (first
    | with_reducible exact Pres.refl _ | intro _ | with_reducible refine keeps_next ?_
    | with_reducible refine (State.issueEngine_pres _ _ _ _ _ _).after ?_ | with_reducible refine (State.runEntry_pres ?_ _ _ _ _).after ?_
    | with_reducible refine (State.runRow_pres _ _ _ _ _).after ?_ | split)

theorem execVmul_pres : ∀ x1 x2 s, Keeps s (execVmul x1 x2 s) := by
  intro x1 x2 s
  unfold execVmul
  repeat' (first
    | with_reducible exact Pres.refl _ | intro _ | with_reducible refine keeps_next ?_
    | with_reducible refine (State.issueEngine_pres _ _ _ _ _ _).after ?_ | with_reducible refine (State.runEntry_pres ?_ _ _ _ _).after ?_
    | with_reducible refine (State.runElem_pres _ _ _ _ _).after ?_ | split)

theorem execVtload_pres : ∀ x1 x2 s, Keeps s (execVtload x1 x2 s) := by
  intro x1 x2 s
  unfold execVtload
  repeat' (first
    | (fail_if_no_progress (with_reducible refine spKept_lit ?_)) | with_reducible exact Pres.refl _ | intro _
    | with_reducible refine keeps_next ?_ | with_reducible exact SpKept.refl _
    | with_reducible refine (State.issueEngine_pres _ _ _ _ _ _).after ?_ | with_reducible refine (State.runEntry_pres ?_ _ _ _ _).after ?_
    | with_reducible refine (State.finishUndef_pres _ _ _ _).after ?_ | with_reducible refine (State.finishRange_pres _ _ _).after ?_
    | with_reducible refine (State.finishEcc_pres _ _ _ _ _).after ?_ | with_reducible refine (State.finish_pres _ _ _ _).after ?_
    | with_reducible refine (State.modCore_pres ?_ _ _).after ?_ | split | dsimp only)

theorem execVrowSmaxb_pres : ∀ x1 x2 s, Keeps s (execVrowSmaxb x1 x2 s) := by
  intro x1 x2 s
  unfold execVrowSmaxb
  repeat' (first
    | with_reducible exact Pres.refl _ | intro _ | with_reducible refine keeps_next ?_
    | with_reducible refine (State.issueEngine_pres _ _ _ _ _ _).after ?_ | with_reducible refine (State.runEntry_pres ?_ _ _ _ _).after ?_
    | with_reducible refine (State.runRow_pres _ _ _ _ _).after ?_ | split)

theorem execVfnD_pres : ∀ x1 x2 s, Keeps s (execVfnD x1 x2 s) := by
  intro x1 x2 s
  unfold execVfnD
  repeat' (first
    | with_reducible exact Pres.refl _ | intro _ | with_reducible refine keeps_next ?_
    | with_reducible refine (State.issueEngine_pres _ _ _ _ _ _).after ?_ | with_reducible refine (State.runEntry_pres ?_ _ _ _ _).after ?_
    | with_reducible refine (State.runVfn_pres _ _ _ _ _).after ?_ | split)

theorem execVsub_pres : ∀ x1 x2 s, Keeps s (execVsub x1 x2 s) := by
  intro x1 x2 s
  unfold execVsub
  repeat' (first
    | with_reducible exact Pres.refl _ | intro _ | with_reducible refine keeps_next ?_
    | with_reducible refine (State.issueEngine_pres _ _ _ _ _ _).after ?_ | with_reducible refine (State.runEntry_pres ?_ _ _ _ _).after ?_
    | with_reducible refine (State.runElem_pres _ _ _ _ _).after ?_ | split)

theorem State.kvSent_pres : ∀ s x2 x3, Pres s (State.kvSent s x2 x3) := by
  intro s x2 x3
  unfold State.kvSent
  repeat' (first
    | with_reducible exact Pres.refl _ | intro _ | with_reducible refine (State.closeTxn_pres _ _).after ?_
    | with_reducible refine (State.spWrite_pres _ _ _ _).after ?_ | with_reducible refine (State.finish_pres _ _ _ _).after ?_
    | with_reducible refine (pres_foldl ?_ _ _).after ?_ | split)

theorem State.latchPool_pres : ∀ s x2, Pres s (State.latchPool s x2) := by
  intro s x2
  unfold State.latchPool
  repeat' (first | (fail_if_no_progress (with_reducible refine pres_lit ?_)) | with_reducible exact Pres.refl _ | split)

theorem State.setSeq_pres : ∀ s x2 x3, Pres s (State.setSeq s x2 x3) := by
  intro s x2 x3
  unfold State.setSeq
  repeat' (first
    | (fail_if_no_progress (with_reducible refine pres_lit ?_)) | with_reducible exact Pres.refl _
    | with_reducible refine (State.kvTouch_pres _).after ?_)

theorem State.logPools_pres : ∀ old s, Pres s (State.logPools old s) := by
  intro old s
  unfold State.logPools
  refine pres_foldl (f := fun (s : State) p => if s.poolBad p && !old.poolBad p then s.logS0 Status.ok 0x0801 (Reg.KV_POOL_LO p) else s) ?_ _ s
  intro s p
  split
  · exact State.logS0_pres _ _ _ _
  · exact Pres.refl _

theorem State.kvApply_pres : ∀ s, Pres s (State.kvApply s) := by
  intro s
  unfold State.kvApply
  repeat' (first
    | (fail_if_no_progress (with_reducible refine pres_lit ?_)) | with_reducible exact Pres.refl _
    | with_reducible refine (State.logPools_pres _ _).after ?_)

theorem State.freeFrom_pres : ∀ s x2 x3, Pres s (State.freeFrom s x2 x3) := by
  intro s x2 x3
  unfold State.freeFrom
  repeat' (first
    | (fail_if_no_progress (with_reducible refine pres_lit ?_)) | with_reducible exact Pres.refl _
    | with_reducible refine (State.kvApply_pres _).after ?_ | with_reducible refine (State.kvTouch_pres _).after ?_)

theorem State.startMoves_pres : ∀ x1 s, Pres s (State.startMoves x1 s) := by
  intro n
  induction n with
  | zero => intro s; exact Pres.refl s
  | succ n ih =>
    intro s
    unfold State.startMoves
    repeat' (first
      | exact Pres.refl _
      | refine (ih _).after ?_
      | refine (State.latchPool_pres _ _).after ?_
      | (fail_if_no_progress (with_reducible refine pres_lit ?_))
      | split)

theorem State.resolve_pres : ∀ s x2 x3 x4, Pres s (State.resolve s x2 x3 x4) := by
  intro s x2 x3 x4
  unfold State.resolve
  repeat' (first
    | with_reducible exact Pres.refl _ | with_reducible refine (State.startMoves_pres _ _).after ?_
    | with_reducible refine (State.freeFrom_pres _ _ _).after ?_ | with_reducible refine (State.setSeq_pres _ _ _).after ?_ | split)

theorem State.serveKv_pres {f5} (h5 : ∀ y0 y1, Pres y0 (f5 y0 y1)) : ∀ s x2 x3 x4, Pres s (State.serveKv s x2 x3 x4 f5) := by
  intro s x2 x3 x4
  unfold State.serveKv
  repeat' (first
    | with_reducible exact Pres.refl _ | intro _ | with_reducible refine (State.runEntry_pres ?_ _ _ _ _).after ?_
    | with_reducible refine (State.finishRange_pres _ _ _).after ?_ | with_reducible refine (h5 _ _).after ?_ | split)

theorem execKvDetent_pres : ∀ x1 x2 s, Keeps s (execKvDetent x1 x2 s) := by
  intro x1 x2 s
  unfold execKvDetent
  repeat' (first
    | with_reducible exact Pres.refl _ | intro _ | with_reducible refine keeps_next ?_
    | with_reducible refine (State.issueEngine_pres _ _ _ _ _ _).after ?_ | with_reducible refine (State.serveKv_pres ?_ _ _ _ _).after ?_
    | with_reducible refine (State.finishRange_pres _ _ _).after ?_ | with_reducible refine (State.finish_pres _ _ _ _).after ?_
    | with_reducible refine (State.startMoves_pres _ _).after ?_ | with_reducible refine (State.setSeq_pres _ _ _).after ?_ | split)

theorem State.kvStale_pres : ∀ s x2 x3, Pres s (State.kvStale s x2 x3) := by
  intro s x2 x3
  unfold State.kvStale
  repeat' (first
    | with_reducible exact Pres.refl _ | with_reducible refine (State.raise_pres _ _).after ?_
    | with_reducible refine (State.bump_pres _ _ _).after ?_)

theorem execKvUpdate_pres : ∀ x1 s, Keeps s (execKvUpdate x1 s) := by
  intro x1 s
  unfold execKvUpdate
  repeat' (first
    | with_reducible exact Pres.refl _ | with_reducible refine keeps_next ?_ | with_reducible refine (State.takeHub_pres _ _).after ?_
    | with_reducible refine (State.kvStale_pres _ _ _).after ?_ | with_reducible refine (State.resolve_pres _ _ _ _).after ?_ | split)

theorem execKvFree_pres : ∀ x1 x2 s, Keeps s (execKvFree x1 x2 s) := by
  intro x1 x2 s
  unfold execKvFree
  repeat' (first
    | (fail_if_no_progress (with_reducible refine pres_lit ?_)) | with_reducible exact Pres.refl _ | intro _
    | with_reducible refine keeps_next ?_ | with_reducible refine (State.issueEngine_pres _ _ _ _ _ _).after ?_
    | with_reducible refine (State.serveKv_pres ?_ _ _ _ _).after ?_ | with_reducible refine (State.finishRange_pres _ _ _).after ?_
    | with_reducible refine (State.finish_pres _ _ _ _).after ?_ | with_reducible refine (State.startMoves_pres _ _).after ?_
    | with_reducible refine (State.freeFrom_pres _ _ _).after ?_ | split)

theorem State.allocPage_pres : ∀ s x2 x3 x4 x5, KeepsO s (State.allocPage s x2 x3 x4 x5) := by
  intro s x2 x3 x4 x5
  unfold State.allocPage
  repeat' (first
    | (fail_if_no_progress (with_reducible refine pres_lit ?_)) | with_reducible exact Pres.refl _ | with_reducible exact keepsO_none _
    | with_reducible refine keepsO_some ?_ | with_reducible refine (State.latchPool_pres _ _).after ?_
    | with_reducible refine (State.kvTouch_pres _).after ?_ | split)

theorem State.allocBlock_pres : ∀ s x2 x3 x4 x5, KeepsO s (State.allocBlock s x2 x3 x4 x5) := by
  intro s q b groups policy
  unfold State.allocBlock
  exact keepsO_foldl (fun s g => State.allocPage_pres s q b g policy) _ s _ (keepsO_some (Pres.refl s))

theorem State.allocBlocks_pres : ∀ s x2 x3 x4 x5 x6, Pres s (State.allocBlocks s x2 x3 x4 x5 x6).1 := by
  intro s q g policy n
  induction n generalizing s with
  | zero => intro b; exact Pres.refl s
  | succ n ih =>
    intro b
    unfold State.allocBlocks
    split
    · split
      · rename_i h
        exact (ih _ _).after ((State.allocBlock_pres _ _ _ _ _).out _ h)
      · exact Pres.refl _
    · exact ih _ _

theorem State.latchGeom_pres : ∀ s x2, Pres s (State.latchGeom s x2) := by
  intro s x2
  unfold State.latchGeom
  repeat' (first | (fail_if_no_progress (with_reducible refine pres_lit ?_)) | with_reducible exact Pres.refl _ | split)

theorem execKvNew_pres : ∀ x1 x2 s, Keeps s (execKvNew x1 x2 s) := by
  intro x1 x2 s
  unfold execKvNew
  repeat' (first
    | with_reducible exact Pres.refl _ | intro _ | with_reducible refine keeps_next ?_
    | with_reducible refine (State.issueEngine_pres _ _ _ _ _ _).after ?_ | with_reducible refine (State.serveKv_pres ?_ _ _ _ _).after ?_
    | with_reducible refine (State.finishRange_pres _ _ _).after ?_ | with_reducible refine (State.finishEcc_pres _ _ _ _ _).after ?_
    | with_reducible refine (State.finish_pres _ _ _ _).after ?_ | with_reducible refine (State.spWrite_pres _ _ _ _).after ?_
    | with_reducible refine (State.setSeq_pres _ _ _).after ?_ | with_reducible refine (State.latchGeom_pres _ _).after ?_ | split
    | dsimp only)

theorem State.kvMulticast_pres : ∀ s x2 x3 x4 x5 x6 x7 x8 x9 x10, Pres s (State.kvMulticast s x2 x3 x4 x5 x6 x7 x8 x9 x10) := by
  intro s x2 x3 x4 x5 x6 x7 x8 x9 x10
  unfold State.kvMulticast
  repeat' (first
    | with_reducible exact Pres.refl _ | with_reducible refine (State.await_pres _ _ _ _ _).after ?_
    | with_reducible refine (State.request_pres _ _ _ _ _ _ _).after ?_ | split)

theorem execKvRollback_pres : ∀ x1 x2 s, Keeps s (execKvRollback x1 x2 s) := by
  intro x1 x2 s
  unfold execKvRollback
  repeat' (first
    | with_reducible exact Pres.refl _ | intro _ | with_reducible refine keeps_next ?_
    | with_reducible refine (State.issueEngine_pres _ _ _ _ _ _).after ?_ | with_reducible refine (State.kvSent_pres _ _ _).after ?_
    | with_reducible refine (State.serveKv_pres ?_ _ _ _ _).after ?_ | with_reducible refine (State.finishRange_pres _ _ _).after ?_
    | with_reducible refine (State.resolve_pres _ _ _ _).after ?_
    | with_reducible refine (State.kvMulticast_pres _ _ _ _ _ _ _ _ _ _).after ?_
    | with_reducible refine (State.finish_pres _ _ _ _).after ?_ | split | dsimp only)

theorem execKvConfigApply_pres : ∀ s, Keeps s (execKvConfigApply s) := by
  intro s
  unfold execKvConfigApply
  repeat' (first | with_reducible exact Pres.refl _ | with_reducible refine keeps_next ?_ | with_reducible refine (State.kvApply_pres _).after ?_)

theorem State.retryMoves_pres : ∀ s, Pres s (State.retryMoves s) := by
  intro s
  unfold State.retryMoves
  repeat' (first
    | (fail_if_no_progress (with_reducible refine pres_lit ?_)) | with_reducible exact Pres.refl _
    | with_reducible refine (State.startMoves_pres _ _).after ?_)

theorem execKvExt_pres : ∀ x1 x2 s, Keeps s (execKvExt x1 x2 s) := by
  intro x1 x2 s
  unfold execKvExt
  repeat' (first
    | with_reducible exact Pres.refl _ | intro _ | with_reducible refine keeps_next ?_
    | with_reducible refine (State.issueEngine_pres _ _ _ _ _ _).after ?_ | with_reducible refine (State.serveKv_pres ?_ _ _ _ _).after ?_
    | with_reducible refine (State.finishRange_pres _ _ _).after ?_ | with_reducible refine (State.allocBlocks_pres _ _ _ _ _ _).after ?_
    | with_reducible refine (State.spWrite_pres _ _ _ _).after ?_ | with_reducible refine (State.retryMoves_pres _).after ?_
    | with_reducible refine (State.setSeq_pres _ _ _).after ?_ | with_reducible refine (State.finish_pres _ _ _ _).after ?_ | split
    | dsimp only)

theorem State.setScales_pres : ∀ s x2 x3 x4 x5, Pres s (State.setScales s x2 x3 x4 x5) := by
  intro s x2 x3 x4 x5
  unfold State.setScales
  repeat' (first
    | (fail_if_no_progress (with_reducible refine pres_lit ?_)) | with_reducible exact Pres.refl _
    | with_reducible refine (State.kvTouch_pres _).after ?_)

theorem execPageMoveDone_pres : ∀ x1 x2 s, Keeps s (execPageMoveDone x1 x2 s) := by
  intro x1 x2 s
  unfold execPageMoveDone
  repeat' (first
    | (fail_if_no_progress (with_reducible refine pres_lit ?_)) | with_reducible exact Pres.refl _ | with_reducible refine keeps_next ?_
    | with_reducible refine (State.sramUpsets_pres _ _).after ?_ | with_reducible refine (State.readSpace_pres _ _ _ _ _ _ _).after ?_
    | with_reducible refine (State.startMoves_pres _ _).after ?_ | with_reducible refine (State.kvApply_pres _).after ?_
    | with_reducible refine (State.writeSpace_pres _ _ _ _ _ _ _).after ?_ | with_reducible refine (State.kvTouch_pres _).after ?_
    | with_reducible refine (State.bump_pres _ _ _).after ?_ | split | dsimp only)

theorem execKvClearDone_pres : ∀ s, Keeps s (execKvClearDone s) := by
  intro s
  unfold execKvClearDone
  repeat' (first | with_reducible exact Pres.refl _ | with_reducible refine keeps_next ?_ | with_reducible refine (State.wr_pres _ _ _).after ?_)

theorem execKvGet_pres : ∀ x1 x2 s, Keeps s (execKvGet x1 x2 s) := by
  intro x1 x2 s
  unfold execKvGet
  repeat' (first
    | with_reducible exact Pres.refl _ | intro _ | with_reducible refine keeps_next ?_
    | with_reducible refine (State.issueEngine_pres _ _ _ _ _ _).after ?_ | with_reducible refine (State.serveKv_pres ?_ _ _ _ _).after ?_
    | with_reducible refine (State.finishUndef_pres _ _ _ _).after ?_ | with_reducible refine (State.finishRange_pres _ _ _).after ?_
    | with_reducible refine (State.readSpace_pres _ _ _ _ _ _ _).after ?_ | with_reducible refine (State.finishEcc_pres _ _ _ _ _).after ?_
    | with_reducible refine (State.spWrite_pres _ _ _ _).after ?_ | with_reducible refine (State.storeWords_pres _ _ _ _ _ _ _ _).after ?_
    | with_reducible refine (State.finish_pres _ _ _ _).after ?_ | with_reducible refine (pres_foldl ?_ _ _).after ?_
    | with_reducible refine (pres_foldl22 ?_ _ _).after ?_ | split | dsimp only)

theorem State.kvClearAll_pres : ∀ s, Pres s (State.kvClearAll s) := by
  intro s
  unfold State.kvClearAll
  repeat' (first
    | (fail_if_no_progress (with_reducible refine pres_lit ?_)) | with_reducible exact Pres.refl _
    | with_reducible refine (State.wr_pres _ _ _).after ?_ | with_reducible refine (State.kvApply_pres _).after ?_
    | with_reducible refine (State.kvTouch_pres _).after ?_)

theorem execKvPut_pres : ∀ x1 x2 s, Keeps s (execKvPut x1 x2 s) := by
  intro x1 x2 s
  unfold execKvPut
  repeat' (first
    | with_reducible exact Pres.refl _ | intro _ | with_reducible refine keeps_next ?_
    | with_reducible refine (State.issueEngine_pres _ _ _ _ _ _).after ?_ | with_reducible refine (State.serveKv_pres ?_ _ _ _ _).after ?_
    | with_reducible refine (State.finishUndef_pres _ _ _ _).after ?_ | with_reducible refine (State.finishRange_pres _ _ _).after ?_
    | with_reducible refine (State.finishEcc_pres _ _ _ _ _).after ?_ | with_reducible refine (State.setScales_pres _ _ _ _ _).after ?_
    | with_reducible refine (State.writeSpace_pres _ _ _ _ _ _ _).after ?_ | with_reducible refine (State.finish_pres _ _ _ _).after ?_
    | with_reducible refine (pres_foldl ?_ _ _).after ?_ | with_reducible refine (pres_foldl1 ?_ _ _).after ?_ | split | dsimp only)

theorem execKvClear_pres : ∀ s, Keeps s (execKvClear s) := by
  intro s
  unfold execKvClear
  repeat' (first
    | with_reducible exact Pres.refl _ | with_reducible refine keeps_next ?_ | with_reducible refine (State.kvClearAll_pres _).after ?_
    | split)

theorem execKvCommit_pres : ∀ x1 x2 s, Keeps s (execKvCommit x1 x2 s) := by
  intro x1 x2 s
  unfold execKvCommit
  repeat' (first
    | with_reducible exact Pres.refl _ | intro _ | with_reducible refine keeps_next ?_
    | with_reducible refine (State.issueEngine_pres _ _ _ _ _ _).after ?_ | with_reducible refine (State.kvSent_pres _ _ _).after ?_
    | with_reducible refine (State.serveKv_pres ?_ _ _ _ _).after ?_ | with_reducible refine (State.finishRange_pres _ _ _).after ?_
    | with_reducible refine (State.resolve_pres _ _ _ _).after ?_
    | with_reducible refine (State.kvMulticast_pres _ _ _ _ _ _ _ _ _ _).after ?_
    | with_reducible refine (State.finish_pres _ _ _ _).after ?_ | split | dsimp only)

theorem execPageReclaim_pres : ∀ s, Keeps s (execPageReclaim s) := by
  intro s
  unfold execPageReclaim
  repeat' (first
    | (fail_if_no_progress (with_reducible refine pres_lit ?_)) | with_reducible exact Pres.refl _ | with_reducible refine keeps_next ?_)

theorem State.hmCount_pres : ∀ s x2 x3, Pres s (State.hmCount s x2 x3) := by
  intro s x2 x3
  unfold State.hmCount
  repeat' (first | with_reducible exact Pres.refl _ | with_reducible refine (State.hmStore_pres _ _ _).after ?_)

theorem State.collStatus_pres : ∀ s x2 x3, Pres s (State.collStatus s x2 x3) := by
  intro s x2 x3
  unfold State.collStatus
  repeat' (first
    | with_reducible exact Pres.refl _ | with_reducible refine (State.hmCount_pres _ _ _).after ?_
    | with_reducible refine (State.hmStore_pres _ _ _).after ?_ | split)

theorem State.modColl_pres : ∀ s x2 x3 x4, Pres s (State.modColl s x2 x3 x4) := by
  intro s x2 x3 x4
  unfold State.modColl
  repeat' (first | (fail_if_no_progress (with_reducible refine pres_lit ?_)) | with_reducible exact Pres.refl _)

theorem State.junkTile_pres : ∀ s x2 x3, Pres s (State.junkTile s x2 x3) := by
  intro s x2 x3
  unfold State.junkTile
  split
  rename_i h
  refine Pres.after (pres_foldl ?_ _ _) (pres_of2 h (State.freshJunk_pres s))
  exact fun s r => State.modCore_pres (fun k => ⟨Mem.smudge_wf _ _ _ _⟩) _ _

theorem State.spoilTd_pres : ∀ s x2 x3 x4, Pres s (State.spoilTd s x2 x3 x4) := by
  intro s x2 x3 x4
  unfold State.spoilTd
  repeat' (first | with_reducible exact Pres.refl _ | with_reducible refine (State.junkTile_pres _ _ _).after ?_ | split)

theorem State.closeOpen_pres : ∀ s x2 x3 x4, Pres s (State.closeOpen s x2 x3 x4) := by
  intro s x2 x3 x4
  unfold State.closeOpen
  repeat' (first
    | (fail_if_no_progress (with_reducible refine spKept_lit ?_)) | with_reducible exact Pres.refl _ | intro _
    | with_reducible exact SpKept.refl _ | with_reducible refine (State.modCore_pres ?_ _ _).after ?_
    | with_reducible refine (State.modColl_pres _ _ _ _).after ?_ | with_reducible refine (State.finish_pres _ _ _ _).after ?_
    | with_reducible refine (State.finishBad_pres _ _ _ _ _ _ _).after ?_ | with_reducible refine (State.spoilTd_pres _ _ _ _).after ?_
    | with_reducible refine (Core.pubsEnd_spKept _ _ _ _).after ?_ | split)

theorem State.collEnd_pres : ∀ s x2 x3 x4, Pres s (State.collEnd s x2 x3 x4) := by
  intro s x2 x3 x4
  unfold State.collEnd
  repeat' (first
    | (fail_if_no_progress (with_reducible refine pres_lit ?_)) | with_reducible exact Pres.refl _ | intro _
    | with_reducible refine (State.collStatus_pres _ _ _).after ?_ | with_reducible refine (State.closeOpen_pres _ _ _ _).after ?_
    | with_reducible refine (State.raise_pres _ _).after ?_ | with_reducible refine (pres_foldl ?_ _ _).after ?_ | split)

theorem State.sendCtl_pres : ∀ s x2 x3 x4 x5 x6 x7 x8 x9 x10, Pres s (State.sendCtl s x2 x3 x4 x5 x6 x7 x8 x9 x10) := by
  intro s x2 x3 x4 x5 x6 x7 x8 x9 x10
  unfold State.sendCtl
  repeat' (first | with_reducible exact Pres.refl _ | with_reducible refine (State.sendFree_pres _ _ _).after ?_)

theorem State.passAbort_pres : ∀ s x2 x3, Pres s (State.passAbort s x2 x3) := by
  intro s x2 x3
  unfold State.passAbort
  repeat' (first
    | with_reducible exact Pres.refl _ | intro _ | with_reducible refine (State.sendCtl_pres _ _ _ _ _ _ _ _ _ _).after ?_
    | with_reducible refine (pres_foldl ?_ _ _).after ?_)

theorem State.collFail_pres : ∀ s x2 x3, Pres s (State.collFail s x2 x3) := by
  intro s x2 x3
  unfold State.collFail
  repeat' (first
    | with_reducible exact Pres.refl _ | with_reducible refine (State.collEnd_pres _ _ _ _).after ?_
    | with_reducible refine (State.passAbort_pres _ _ _).after ?_ | with_reducible refine (State.sendCtl_pres _ _ _ _ _ _ _ _ _ _).after ?_
    | split)

theorem State.collReport_pres : ∀ s x2 x3, Pres s (State.collReport s x2 x3) := by
  intro s x2 x3
  unfold State.collReport
  repeat' (first | with_reducible exact Pres.refl _ | with_reducible refine (State.spWrite_pres _ _ _ _).after ?_ | split)

theorem State.collReap_pres : ∀ s x2 x3, Pres s (State.collReap s x2 x3) := by
  intro s x2 x3
  unfold State.collReap
  repeat' (first
    | (fail_if_no_progress (with_reducible refine pres_lit ?_)) | with_reducible exact Pres.refl _
    | with_reducible refine (State.modColl_pres _ _ _ _).after ?_ | with_reducible refine (State.collStatus_pres _ _ _).after ?_ | split
    | dsimp only)

theorem State.collComplete_pres : ∀ s x2 x3, Pres s (State.collComplete s x2 x3) := by
  intro s x2 x3
  unfold State.collComplete
  repeat' (first
    | with_reducible exact Pres.refl _ | intro _ | with_reducible refine (State.closeOpen_pres _ _ _ _).after ?_
    | with_reducible refine (State.collReport_pres _ _ _).after ?_ | with_reducible refine (State.collReap_pres _ _ _).after ?_
    | with_reducible refine (pres_foldl ?_ _ _).after ?_ | split)

theorem State.sendChunk_pres : ∀ s x2 x3 x4 x5 x6 x7, Pres s (State.sendChunk s x2 x3 x4 x5 x6 x7) := by
  intro s x2 x3 x4 x5 x6 x7
  unfold State.sendChunk
  repeat' (first
    | with_reducible exact Pres.refl _ | intro _ | with_reducible refine (State.inject_pres _ _).after ?_
    | with_reducible refine (pres_foldl ?_ _ _).after ?_ | split)

theorem State.takeSlot_pres : ∀ s x2 x3 x4, KeepsO s (State.takeSlot s x2 x3 x4) := by
  intro s x2 x3 x4
  unfold State.takeSlot
  repeat' (first
    | (fail_if_no_progress (with_reducible refine pres_lit ?_)) | with_reducible exact Pres.refl _ | with_reducible exact keepsO_none _
    | with_reducible refine keepsO_some ?_ | split)

theorem State.modSlot_pres : ∀ s x2 x3 x4 x5, Pres s (State.modSlot s x2 x3 x4 x5) := by
  intro s x2 x3 x4 x5
  unfold State.modSlot
  repeat' (first | (fail_if_no_progress (with_reducible refine pres_lit ?_)) | with_reducible exact Pres.refl _)

theorem State.landChunk_pres : ∀ s x2 x3 x4 x5, Pres s (State.landChunk s x2 x3 x4 x5) := by
  intro s x2 x3 x4 x5
  unfold State.landChunk
  repeat' (first
    | with_reducible exact Pres.refl _ | intro _ | with_reducible refine (State.spWrite_pres _ _ _ _).after ?_
    | with_reducible refine (pres_foldl ?_ _ _).after ?_)

theorem State.dropSlot_pres : ∀ s x2 x3 x4, Pres s (State.dropSlot s x2 x3 x4) := by
  intro s x2 x3 x4
  unfold State.dropSlot
  repeat' (first | (fail_if_no_progress (with_reducible refine pres_lit ?_)) | with_reducible exact Pres.refl _)

theorem State.noteConsumed_pres : ∀ s x2 x3 x4, Pres s (State.noteConsumed s x2 x3 x4) := by
  intro s x2 x3 x4
  unfold State.noteConsumed
  repeat' (first
    | with_reducible exact Pres.refl _ | intro _ | with_reducible refine (State.modSlot_pres _ _ _ _ _).after ?_
    | with_reducible refine (State.dropSlot_pres _ _ _ _).after ?_ | with_reducible refine (State.sendCtl_pres _ _ _ _ _ _ _ _ _ _).after ?_
    | with_reducible refine (pres_foldl ?_ _ _).after ?_ | split | dsimp only)

theorem State.deliver_pres : ∀ s x2 x3 x4, Pres s (State.deliver s x2 x3 x4) := by
  intro s x2 x3 x4
  unfold State.deliver
  repeat' (first
    | with_reducible exact Pres.refl _ | intro _ | with_reducible refine (State.landChunk_pres _ _ _ _ _).after ?_
    | with_reducible refine (State.modColl_pres _ _ _ _).after ?_ | with_reducible refine (State.noteConsumed_pres _ _ _ _).after ?_
    | with_reducible refine (State.sendCtl_pres _ _ _ _ _ _ _ _ _ _).after ?_ | with_reducible refine (pres_foldl ?_ _ _).after ?_ | split
    | dsimp only)

theorem State.release_pres : ∀ s x2 x3 x4, Pres s (State.release s x2 x3 x4) := by
  intro s x2 x3 x4
  unfold State.release
  repeat' (first
    | with_reducible exact Pres.refl _ | intro _ | with_reducible refine (State.modSlot_pres _ _ _ _ _).after ?_
    | with_reducible refine (State.sendChunk_pres _ _ _ _ _ _ _).after ?_ | with_reducible refine (State.modColl_pres _ _ _ _).after ?_
    | with_reducible refine (State.deliver_pres _ _ _ _).after ?_ | with_reducible refine (pres_foldl ?_ _ _).after ?_ | split)

theorem State.stageCheck_pres : ∀ s x2 x3 x4, Pres s (State.stageCheck s x2 x3 x4) := by
  intro s x2 x3 x4
  unfold State.stageCheck
  repeat' (first
    | with_reducible exact Pres.refl _ | with_reducible refine (State.release_pres _ _ _ _).after ?_
    | with_reducible refine (State.modSlot_pres _ _ _ _ _).after ?_ | with_reducible refine (State.sendChunk_pres _ _ _ _ _ _ _).after ?_
    | split | dsimp only)

theorem State.contribute_pres : ∀ s x2 x3, KeepsO s (State.contribute s x2 x3) := by
  intro s x2 x3
  unfold State.contribute
  repeat' (first
    | with_reducible exact Pres.refl _ | with_reducible exact keepsO_none _ | with_reducible refine keepsO_some ?_
    | with_reducible refine (State.modColl_pres _ _ _ _).after ?_ | with_reducible refine (State.collFail_pres _ _ _).after ?_
    | with_reducible refine (State.sendChunk_pres _ _ _ _ _ _ _).after ?_
    | with_reducible refine ((State.takeSlot_pres _ _ _ _).out _ (by assumption)).after ?_
    | with_reducible refine (State.stageCheck_pres _ _ _ _).after ?_ | with_reducible refine (State.modSlot_pres _ _ _ _ _).after ?_
    | with_reducible refine (State.release_pres _ _ _ _).after ?_ | split | dsimp only)

theorem State.advanceColl_pres : ∀ x1 s x3 x4, Pres s (State.advanceColl x1 s x3 x4) := by
  intro n
  induction n with
  | zero => intro s _ _; exact Pres.refl s
  | succ n ih =>
    intro s gid seq
    unfold State.advanceColl
    split
    · exact Pres.refl _
    · split
      · exact State.collComplete_pres _ _ _
      · split
        · exact State.collComplete_pres _ _ _
        · rename_i h
          exact (ih _ _ _).after ((State.contribute_pres _ _ _).out _ h)

theorem State.publish_pres : ∀ s x2 x3 x4 x5, Pres s (State.publish s x2 x3 x4 x5).2 := by
  intro s x2 x3 x4 x5
  unfold State.publish
  repeat' (first
    | with_reducible exact Pres.refl _ | with_reducible refine (State.collFail_pres _ _ _).after ?_
    | with_reducible refine (State.modColl_pres _ _ _ _).after ?_ | with_reducible refine (State.advanceColl_pres _ _ _ _).after ?_ | split
    | dsimp only)

theorem State.askResend_pres : ∀ s x2 x3 x4 x5, Pres s (State.askResend s x2 x3 x4 x5) := by
  intro s x2 x3 x4 x5
  unfold State.askResend
  repeat' (first
    | with_reducible exact Pres.refl _ | with_reducible refine (State.hmCount_pres _ _ _).after ?_
    | with_reducible refine (State.sendCtl_pres _ _ _ _ _ _ _ _ _ _).after ?_)

theorem State.addResult_pres : ∀ s x2 x3, Pres s (State.addResult s x2 x3) := by
  intro s x2 x3
  unfold State.addResult
  repeat' (first
    | with_reducible exact Pres.refl _ | intro _ | with_reducible refine (State.inject_pres _ _).after ?_
    | with_reducible refine (State.sendCtl_pres _ _ _ _ _ _ _ _ _ _).after ?_
    | with_reducible refine (State.collComplete_pres _ _ _).after ?_ | with_reducible refine (State.deliver_pres _ _ _ _).after ?_
    | with_reducible refine (State.modColl_pres _ _ _ _).after ?_ | with_reducible refine (State.askResend_pres _ _ _ _ _).after ?_
    | with_reducible refine (pres_foldl ?_ _ _).after ?_ | split | dsimp only)

theorem State.addInput_pres : ∀ s x2 x3, Pres s (State.addInput s x2 x3) := by
  intro s x2 x3
  unfold State.addInput
  repeat' (first
    | with_reducible exact Pres.refl _ | with_reducible refine (State.stageCheck_pres _ _ _ _).after ?_
    | with_reducible refine (State.sendCtl_pres _ _ _ _ _ _ _ _ _ _).after ?_
    | with_reducible refine (State.modSlot_pres _ _ _ _ _).after ?_ | with_reducible refine (State.askResend_pres _ _ _ _ _).after ?_
    | split | dsimp only)

theorem State.collInput_pres : ∀ s x2 x3, KeepsO s (State.collInput s x2 x3) := by
  intro s x p
  unfold State.collInput
  split
  · exact keepsO_some (State.collFail_pres _ _ _)
  · split
    · exact keepsO_some (Pres.refl _)
    · split
      · exact keepsO_some (State.addResult_pres _ _ _)
      · split
        · exact keepsO_some (Pres.refl _)
        · exact keepsO_map (State.takeSlot_pres _ _ _ _) (fun s => State.addInput_pres s x p)


theorem State.collArrive_pres : ∀ s x2, KeepsO s (State.collArrive s x2) := by
  intro s p
  unfold State.collArrive
  split
  · exact State.collInput_pres _ _ _
  · split
    · exact keepsO_some (Pres.refl _)
    · exact keepsO_map (State.takeSlot_pres _ _ _ _) (fun s => State.modSlot_pres _ _ _ _ _)

theorem State.castWithout_pres : ∀ s x2 x3, Pres s (State.castWithout s x2 x3) := by
  intro s x2 x3
  unfold State.castWithout
  repeat' (first
    | with_reducible exact Pres.refl _ | intro _ | with_reducible refine (State.modColl_pres _ _ _ _).after ?_
    | with_reducible refine (State.sendChunk_pres _ _ _ _ _ _ _).after ?_ | with_reducible refine (State.noteConsumed_pres _ _ _ _).after ?_
    | with_reducible refine (pres_foldl ?_ _ _).after ?_ | split)

theorem State.collMemberLost_pres : ∀ s x2, Pres s (State.collMemberLost s x2) := by
  intro s x2
  unfold State.collMemberLost
  repeat' (first
    | with_reducible exact Pres.refl _ | intro _ | with_reducible refine (State.collEnd_pres _ _ _ _).after ?_
    | with_reducible refine (State.collComplete_pres _ _ _).after ?_ | with_reducible refine (State.castWithout_pres _ _ _).after ?_
    | with_reducible refine (pres_foldl ?_ _ _).after ?_ | split)

theorem State.deliverAll_pres : ∀ s x2 x3, Pres s (State.deliverAll s x2 x3) := by
  intro s x2 x3
  unfold State.deliverAll
  repeat' (first
    | with_reducible exact Pres.refl _ | intro _ | with_reducible refine (State.collComplete_pres _ _ _).after ?_
    | with_reducible refine (State.deliver_pres _ _ _ _).after ?_ | with_reducible refine (pres_foldl ?_ _ _).after ?_ | split)

theorem State.registerOpen_pres : ∀ s x2 x3 x4 x5 x6, Pres s (State.registerOpen s x2 x3 x4 x5 x6) := by
  intro s x2 x3 x4 x5 x6
  unfold State.registerOpen
  repeat' (first
    | (fail_if_no_progress (with_reducible refine pres_lit ?_)) | (fail_if_no_progress (with_reducible refine spKept_lit ?_))
    | with_reducible exact Pres.refl _ | intro _ | with_reducible exact SpKept.refl _
    | with_reducible refine (State.modEntry_pres _ _ _ _).after ?_ | with_reducible refine (State.modCore_pres ?_ _ _).after ?_
    | with_reducible refine (State.modColl_pres _ _ _ _).after ?_ | with_reducible refine (State.collFail_pres _ _ _).after ?_
    | with_reducible refine (State.deliverAll_pres _ _ _).after ?_
    | with_reducible refine ((State.collArrive_pres _ _).out _ (by assumption)).after ?_
    | with_reducible refine (State.collEnd_pres _ _ _ _).after ?_ | with_reducible refine (State.collComplete_pres _ _ _).after ?_
    | with_reducible refine (pres_foldl ?_ _ _).after ?_ | split | dsimp only)

theorem State.abortAgain_pres : ∀ s x2 x3, Pres s (State.abortAgain s x2 x3) := by
  intro s x2 x3
  unfold State.abortAgain
  repeat' (first
    | (fail_if_no_progress (with_reducible refine pres_lit ?_)) | with_reducible exact Pres.refl _
    | with_reducible refine (State.passAbort_pres _ _ _).after ?_ | with_reducible refine (State.raise_pres _ _).after ?_ | split)

theorem execCollAbort_pres : ∀ x1 s, Keeps s (execCollAbort x1 s) := by
  intro x1 s
  unfold execCollAbort
  repeat' (first
    | with_reducible exact Pres.refl _ | with_reducible refine keeps_next ?_ | with_reducible refine (State.takeHub_pres _ _).after ?_
    | with_reducible refine (State.collEnd_pres _ _ _ _).after ?_ | with_reducible refine (State.passAbort_pres _ _ _).after ?_
    | with_reducible refine (State.abortAgain_pres _ _ _).after ?_ | split)

theorem State.openNow_pres : ∀ s x2 x3 x4 x5 x6, Pres s (State.openNow s x2 x3 x4 x5 x6) := by
  intro s x2 x3 x4 x5 x6
  unfold State.openNow
  repeat' (first
    | with_reducible exact Pres.refl _ | intro _ | with_reducible exact SpKept.refl _
    | with_reducible refine (State.finishBad_pres _ _ _ _ _ _ _).after ?_ | with_reducible refine (State.modCore_pres ?_ _ _).after ?_
    | with_reducible refine (State.spoilTd_pres _ _ _ _).after ?_ | with_reducible refine (Core.pubsEnd_spKept _ _ _ _).after ?_
    | with_reducible refine (State.registerOpen_pres _ _ _ _ _ _).after ?_ | split)

theorem State.openGroup_pres : ∀ s x2 x3 x4 x5 x6 x7, Pres s (State.openGroup s x2 x3 x4 x5 x6 x7) := by
  intro s x2 x3 x4 x5 x6 x7
  unfold State.openGroup
  repeat' (first
    | (fail_if_no_progress (with_reducible refine pres_lit ?_)) | with_reducible exact Pres.refl _
    | with_reducible refine (State.finishRange_pres _ _ _).after ?_ | with_reducible refine (State.modEntry_pres _ _ _ _).after ?_
    | with_reducible refine (State.openNow_pres _ _ _ _ _ _).after ?_ | with_reducible refine (State.finishEcc_pres _ _ _ _ _).after ?_
    | split | dsimp only)

theorem State.recompute_pres : ∀ s x2 x3 x4, Pres s (State.recompute s x2 x3 x4) := by
  intro s x2 x3 x4
  unfold State.recompute
  repeat' (first
    | with_reducible exact Pres.refl _ | intro _ | with_reducible refine (State.sendCtl_pres _ _ _ _ _ _ _ _ _ _).after ?_
    | with_reducible refine (State.modSlot_pres _ _ _ _ _).after ?_ | with_reducible refine (State.modColl_pres _ _ _ _).after ?_
    | with_reducible refine (State.advanceColl_pres _ _ _ _).after ?_ | with_reducible refine (pres_foldl ?_ _ _).after ?_)

theorem State.copyLost_pres : ∀ s x2 x3 x4, Pres s (State.copyLost s x2 x3 x4) := by
  intro s x2 x3 x4
  unfold State.copyLost
  repeat' (first
    | with_reducible exact Pres.refl _ | with_reducible refine (State.sendCtl_pres _ _ _ _ _ _ _ _ _ _).after ?_
    | with_reducible refine (State.recompute_pres _ _ _ _).after ?_ | with_reducible refine (State.collFail_pres _ _ _).after ?_ | split)

theorem State.resendChunk_pres : ∀ s x2 x3 x4 x5 x6 x7, Pres s (State.resendChunk s x2 x3 x4 x5 x6 x7) := by
  intro s x2 x3 x4 x5 x6 x7
  unfold State.resendChunk
  repeat' (first
    | with_reducible exact Pres.refl _ | with_reducible refine (State.sendChunk_pres _ _ _ _ _ _ _).after ?_
    | with_reducible refine (State.hmCount_pres _ _ _).after ?_)

theorem execResend_pres : ∀ x1 x2 x3 s, Keeps s (execResend x1 x2 x3 s) := by
  intro x1 x2 x3 s
  unfold execResend
  repeat' (first
    | with_reducible exact Pres.refl _ | with_reducible refine keeps_next ?_ | with_reducible refine (State.takeHub_pres _ _).after ?_
    | with_reducible refine (State.sramUpsets_pres _ _).after ?_ | with_reducible refine (State.recompute_pres _ _ _ _).after ?_
    | with_reducible refine (State.copyLost_pres _ _ _ _).after ?_ | with_reducible refine (State.resendChunk_pres _ _ _ _ _ _ _).after ?_
    | with_reducible refine (State.raise_pres _ _).after ?_ | with_reducible refine (State.collFail_pres _ _ _).after ?_ | split
    | dsimp only)

theorem execReceipt_pres : ∀ x1 s, Keeps s (execReceipt x1 s) := by
  intro x1 s
  unfold execReceipt
  repeat' (first
    | with_reducible exact Pres.refl _ | with_reducible refine keeps_next ?_ | with_reducible refine (State.takeHub_pres _ _).after ?_
    | with_reducible refine (State.collReap_pres _ _ _).after ?_ | with_reducible refine (State.dropSlot_pres _ _ _ _).after ?_ | split)

theorem execStoreSlotGrant_pres : ∀ s, Keeps s (execStoreSlotGrant s) := by
  intro s
  unfold execStoreSlotGrant
  refine keeps_next ?_
  split
  · exact Pres.refl _
  · extract_lets t
    refine (pres_foldl (fun s x => State.advanceColl_pres _ _ _ _) _ _).after ?_
    have ht : ∀ p, Pres s ((({ s with storeWait := s.storeWait.erase p } : State).collArrive p).getD s) := by
      intro p
      refine keepsO_getD ⟨fun u h => ((State.collArrive_pres _ _).out _ h).after ?_⟩
      with_reducible refine pres_lit ?_
      exact Pres.refl _
    show Pres s (match s.storeWait.find? (fun p => (s.collArrive p).isSome) with | some p => _ | none => _)
    split
    · exact ht _
    · exact Pres.refl _

theorem State.finishPub_pres : ∀ s x2 x3 x4, Pres s (State.finishPub s x2 x3 x4) := by
  intro s x2 x3 x4
  unfold State.finishPub
  repeat' (first
    | with_reducible exact Pres.refl _ | with_reducible refine (State.finishBad_pres _ _ _ _ _ _ _).after ?_
    | with_reducible refine (State.finish_pres _ _ _ _).after ?_ | split)

theorem execConsumed_pres : ∀ x1 s, Keeps s (execConsumed x1 s) := by
  intro x1 s
  unfold execConsumed
  repeat' (first
    | with_reducible exact Pres.refl _ | with_reducible refine keeps_next ?_ | with_reducible refine (State.takeHub_pres _ _).after ?_
    | with_reducible refine (State.collComplete_pres _ _ _).after ?_ | with_reducible refine (State.noteConsumed_pres _ _ _ _).after ?_
    | split)

theorem execAbortTripleExpiry_pres : ∀ x1 x2 s, Keeps s (execAbortTripleExpiry x1 x2 s) := by
  intro x1 x2 s
  unfold execAbortTripleExpiry
  repeat' (first
    | (fail_if_no_progress (with_reducible refine pres_lit ?_)) | with_reducible exact Pres.refl _ | with_reducible refine keeps_next ?_)

theorem execCollOpen_pres : ∀ x1 x2 s, Keeps s (execCollOpen x1 x2 s) := by
  intro x1 x2 s
  unfold execCollOpen
  repeat' (first
    | with_reducible exact Pres.refl _ | intro _ | with_reducible refine keeps_next ?_
    | with_reducible refine (State.issueEngine_pres _ _ _ _ _ _).after ?_ | with_reducible refine (State.runEntry_pres ?_ _ _ _ _).after ?_
    | with_reducible refine (State.finishUndef_pres _ _ _ _).after ?_ | with_reducible refine (State.finishRange_pres _ _ _).after ?_
    | with_reducible refine (State.openGroup_pres _ _ _ _ _ _ _).after ?_ | split | dsimp only)

theorem execCollGroupAdmit_pres : ∀ x1 x2 s, Keeps s (execCollGroupAdmit x1 x2 s) := by
  intro x1 x2 s
  unfold execCollGroupAdmit
  repeat' (first
    | (fail_if_no_progress (with_reducible refine pres_lit ?_)) | with_reducible exact Pres.refl _ | with_reducible refine keeps_next ?_
    | with_reducible refine (State.openGroup_pres _ _ _ _ _ _ _).after ?_ | split)

theorem execCollPub_pres : ∀ x1 x2 s, Keeps s (execCollPub x1 x2 s) := by
  intro x1 x2 s
  unfold execCollPub
  repeat' (first
    | with_reducible exact Pres.refl _ | intro _ | with_reducible refine keeps_next ?_
    | with_reducible refine (State.issueEngine_pres _ _ _ _ _ _).after ?_ | with_reducible refine (State.runEntry_pres ?_ _ _ _ _).after ?_
    | with_reducible refine (State.finishBad_pres _ _ _ _ _ _ _).after ?_ | with_reducible refine (State.finishRange_pres _ _ _).after ?_
    | with_reducible refine (State.finishUndef_pres _ _ _ _).after ?_
    | with_reducible refine (pres_of2 (by assumption) (State.publish_pres _ _ _ _ _)).after ?_
    | with_reducible refine (State.finishPub_pres _ _ _ _).after ?_ | split | dsimp only)

theorem execMiss_pres : ∀ x1 s, Keeps s (execMiss x1 s) := by
  intro x1 s
  unfold execMiss
  repeat' (first
    | with_reducible exact Pres.refl _ | with_reducible refine keeps_next ?_ | with_reducible refine (State.takeHub_pres _ _).after ?_
    | with_reducible refine (State.collComplete_pres _ _ _).after ?_ | with_reducible refine (State.modColl_pres _ _ _ _).after ?_ | split)

theorem State.collTaskGone_pres : ∀ s x2, Pres s (State.collTaskGone s x2) := by
  intro s x2
  unfold State.collTaskGone
  repeat' (first
    | with_reducible exact Pres.refl _ | intro _ | with_reducible refine (State.collFail_pres _ _ _).after ?_
    | with_reducible refine (pres_foldl ?_ _ _).after ?_ | split)

theorem execCollConsumedTimeout_pres : ∀ x1 x2 x3 s, Keeps s (execCollConsumedTimeout x1 x2 x3 s) := by
  intro x1 x2 x3 s
  unfold execCollConsumedTimeout
  repeat' (first
    | with_reducible exact Pres.refl _ | with_reducible refine keeps_next ?_ | with_reducible refine (State.collFail_pres _ _ _).after ?_
    | split)

theorem execCollDataPacket_pres : ∀ x1 s, Keeps s (execCollDataPacket x1 s) := by
  intro x1 s
  unfold execCollDataPacket
  repeat' (first
    | (fail_if_no_progress (with_reducible refine pres_lit ?_)) | with_reducible exact Pres.refl _ | with_reducible refine keeps_next ?_
    | with_reducible refine (State.takeHub_pres _ _).after ?_ | with_reducible refine (State.raise_pres _ _).after ?_
    | with_reducible refine (State.askResend_pres _ _ _ _ _).after ?_
    | with_reducible refine ((State.collArrive_pres _ _).out _ (by assumption)).after ?_ | split | dsimp only)

theorem execDone_pres : ∀ x1 s, Keeps s (execDone x1 s) := by
  intro x1 s
  unfold execDone
  repeat' (first
    | with_reducible exact Pres.refl _ | intro _ | with_reducible refine keeps_next ?_
    | with_reducible refine (State.takeHub_pres _ _).after ?_ | with_reducible refine (State.sendCtl_pres _ _ _ _ _ _ _ _ _ _).after ?_
    | with_reducible refine (State.collComplete_pres _ _ _).after ?_ | with_reducible refine (State.modColl_pres _ _ _ _).after ?_
    | with_reducible refine (pres_foldl ?_ _ _).after ?_ | split)

theorem State.storeRowSp_pres : ∀ s x2 x3 x4 x5 x6, Pres s (State.storeRowSp s x2 x3 x4 x5 x6) := by
  intro s x2 x3 x4 x5 x6
  unfold State.storeRowSp
  split
  · exact State.modCore_pres (fun k => ⟨Tile.storeRow_wf _ _ _ _ _⟩) _ _
  · exact State.storeWords_pres _ _ _ _ _ _ _ _

theorem State.drainOne_pres : ∀ s x2 x3 x4 x5 x6, Pres s (State.drainOne s x2 x3 x4 x5 x6).1 := by
  intro s x2 x3 x4 x5 x6
  unfold State.drainOne
  repeat' (first
    | with_reducible exact Pres.refl _ | intro _ | with_reducible exact SpKept.refl _
    | with_reducible refine (State.modCore_pres ?_ _ _).after ?_ | with_reducible refine (Core.setAcc_spKept _ _ _).after ?_
    | with_reducible refine (State.storeRowSp_pres _ _ _ _ _ _).after ?_ | with_reducible refine (pres_foldl ?_ _ _).after ?_)

theorem State.failResidue_pres : ∀ s x2 x3 x4 x5, Pres s (State.failResidue s x2 x3 x4 x5) := by
  intro s x2 x3 x4 x5
  unfold State.failResidue
  repeat' (first
    | with_reducible exact Pres.refl _ | intro _ | with_reducible exact SpKept.refl _
    | with_reducible refine (State.checkFail_pres _ _ _).after ?_ | with_reducible refine (State.freshJunk_pres _).after ?_
    | with_reducible refine (State.modCore_pres ?_ _ _).after ?_ | with_reducible refine (Core.setAcc_spKept _ _ _).after ?_
    | with_reducible refine (State.finishBad_pres _ _ _ _ _ _ _).after ?_ | with_reducible refine (pres_foldl ?_ _ _).after ?_)

theorem execMm_pres : ∀ x1 x2 s, Keeps s (execMm x1 x2 s) := by
  intro x1 x2 s
  unfold execMm
  repeat' (first
    | with_reducible exact Pres.refl _ | intro _ | with_reducible refine keeps_next ?_ | with_reducible exact SpKept.refl _
    | with_reducible refine (State.issueEngine_pres _ _ _ _ _ _).after ?_ | with_reducible refine (State.runEntry_pres ?_ _ _ _ _).after ?_
    | with_reducible refine (State.finishUndef_pres _ _ _ _).after ?_ | with_reducible refine (State.finishTile_pres _ _ _ _ _).after ?_
    | with_reducible refine (State.finishRange_pres _ _ _).after ?_ | with_reducible refine (State.finishEcc_pres _ _ _ _ _).after ?_
    | with_reducible refine (State.failResidue_pres _ _ _ _ _).after ?_ | with_reducible refine (State.finish_pres _ _ _ _).after ?_
    | with_reducible refine (State.modCore_pres ?_ _ _).after ?_ | with_reducible refine (Core.modFiller_spKept _ _ _).after ?_
    | with_reducible refine (Core.setAcc_spKept _ _ _).after ?_ | with_reducible refine (spKept_foldl ?_ _ _).after ?_ | split | dsimp only)

theorem execMv_pres : ∀ x1 x2 s, Keeps s (execMv x1 x2 s) := by
  intro x1 x2 s
  unfold execMv
  repeat' (first
    | (fail_if_no_progress (with_reducible refine pres_lit ?_)) | with_reducible exact Pres.refl _ | intro _
    | with_reducible refine keeps_next ?_ | with_reducible refine (State.issueEngine_pres _ _ _ _ _ _).after ?_
    | with_reducible refine (State.runEntry_pres ?_ _ _ _ _).after ?_ | with_reducible refine (State.finishUndef_pres _ _ _ _).after ?_
    | with_reducible refine (State.finishRange_pres _ _ _).after ?_ | with_reducible refine (State.finishEcc_pres _ _ _ _ _).after ?_
    | with_reducible refine (State.finish_pres _ _ _ _).after ?_ | with_reducible refine (State.storeWords_pres _ _ _ _ _ _ _ _).after ?_
    | with_reducible refine (pres_foldl ?_ _ _).after ?_ | split | dsimp only)

theorem execMmFill_pres : ∀ x1 x2 s, Keeps s (execMmFill x1 x2 s) := by
  intro x1 x2 s
  unfold execMmFill
  repeat' (first
    | (fail_if_no_progress (with_reducible refine spKept_lit ?_)) | with_reducible exact Pres.refl _ | intro _
    | with_reducible refine keeps_next ?_ | with_reducible exact SpKept.refl _
    | with_reducible refine (State.issueEngine_pres _ _ _ _ _ _).after ?_ | with_reducible refine (State.runEntry_pres ?_ _ _ _ _).after ?_
    | with_reducible refine (State.endFiller_pres _ _ _ _).after ?_ | with_reducible refine (State.finishRange_pres _ _ _).after ?_
    | with_reducible refine (State.finish_pres _ _ _ _).after ?_ | with_reducible refine (State.modCore_pres ?_ _ _).after ?_
    | with_reducible refine (pres_foldl ?_ _ _).after ?_ | with_reducible refine (spKept_foldl ?_ _ _).after ?_ | split | dsimp only)

theorem execMmLds_pres : ∀ x1 x2 s, Keeps s (execMmLds x1 x2 s) := by
  intro x1 x2 s
  unfold execMmLds
  repeat' (first
    | (fail_if_no_progress (with_reducible refine spKept_lit ?_)) | with_reducible exact Pres.refl _ | intro _
    | with_reducible refine keeps_next ?_ | with_reducible exact SpKept.refl _
    | with_reducible refine (State.issueEngine_pres _ _ _ _ _ _).after ?_ | with_reducible refine (State.runEntry_pres ?_ _ _ _ _).after ?_
    | with_reducible refine (State.finishUndef_pres _ _ _ _).after ?_ | with_reducible refine (State.finishTile_pres _ _ _ _ _).after ?_
    | with_reducible refine (State.finishRange_pres _ _ _).after ?_ | with_reducible refine (State.finishEcc_pres _ _ _ _ _).after ?_
    | with_reducible refine (State.finish_pres _ _ _ _).after ?_ | with_reducible refine (State.modCore_pres ?_ _ _).after ?_
    | with_reducible refine (spKept_foldl ?_ _ _).after ?_ | split | dsimp only)

theorem execMmDrain_pres : ∀ x1 x2 s, Keeps s (execMmDrain x1 x2 s) := by
  intro x1 x2 s
  unfold execMmDrain
  refine keeps_next ?_
  split
  · exact State.issueEngine_pres _ _ _ _ _ _
  · refine State.runEntry_pres (fun s e => ?_) _ _ _ _
    split
    · extract_lets t k arrays bad r
      have hr : Pres s r.1 := by
        unfold r
        refine pres_foldl1 ?_ _ (s, true)
        exact fun r me => State.drainOne_pres _ _ _ _ _ _
      refine pres_ite (Pres.refl _) (pres_ite (State.finishUndef_pres _ _ _ _) ?_)
      split
      · exact State.finishTile_pres _ _ _ _ _
      refine pres_ite (State.finishRange_pres _ _ _) ?_
      split
      · exact State.finishEcc_pres _ _ _ _ _
      refine pres_ite ((State.failResidue_pres _ _ _ _ _).after (State.junkTile_pres _ _ _)) ?_
      refine Pres.after ?_ hr
      refine pres_ite (State.finishRange_pres _ _ _) (pres_ite (State.finishBad_pres _ _ _ _ _ _ _) (pres_ite ?_ (State.finish_pres _ _ _ _)))
      exact (State.finishPub_pres _ _ _ _).after (State.publish_pres _ _ _ _ _)
    · exact Pres.refl _

theorem State.ownerGone_pres : ∀ s x2 x3, Pres s (State.ownerGone s x2 x3) := by
  intro s x2 x3
  unfold State.ownerGone
  repeat' (first
    | (fail_if_no_progress (with_reducible refine pres_lit ?_)) | with_reducible exact Pres.refl _ | intro _
    | with_reducible refine (State.seqFatal_pres _ _ _ _ _).after ?_ | with_reducible refine (pres_foldl ?_ _ _).after ?_)

theorem execTumFree_pres : ∀ x1 x2 x3 s, Keeps s (execTumFree x1 x2 x3 s) := by
  intro x1 x2 x3 s
  unfold execTumFree
  repeat' (first
    | (fail_if_no_progress (with_reducible refine pres_lit ?_)) | with_reducible exact Pres.refl _ | intro _
    | with_reducible refine keeps_next ?_ | with_reducible refine (State.issue_pres ?_ _ _ _ _ _).after ?_
    | with_reducible refine (State.viaLink_pres ?_ _ _).after ?_ | with_reducible refine (State.seqFatal_pres _ _ _ _ _).after ?_
    | with_reducible refine (State.ownerGone_pres _ _ _).after ?_ | with_reducible refine (State.advance_pres _ _ _).after ?_ | split
    | dsimp only)

theorem State.tumAnswer_pres : ∀ s x2 x3 x4 x5, Pres s (State.tumAnswer s x2 x3 x4 x5) := by
  intro s x2 x3 x4 x5
  unfold State.tumAnswer
  repeat' (first
    | with_reducible exact Pres.refl _ | with_reducible refine (State.spWrite_pres _ _ _ _).after ?_
    | with_reducible refine (State.finish_pres _ _ _ _).after ?_ | with_reducible refine (State.inject_pres _ _).after ?_ | split)

theorem State.tumLocal_pres : ∀ s x2 x3 x4 x5, Pres s (State.tumLocal s x2 x3 x4 x5) := by
  intro s x2 x3 x4 x5
  unfold State.tumLocal
  repeat' (first
    | (fail_if_no_progress (with_reducible refine pres_lit ?_)) | with_reducible exact Pres.refl _
    | with_reducible refine (pres_of2 (by assumption) (State.tumReach_pres _ _)).after ?_
    | with_reducible refine (State.finish_pres _ _ _ _).after ?_ | with_reducible refine (State.chargeOwner_pres _ _ _ _ _).after ?_
    | with_reducible refine (State.tumAnswer_pres _ _ _ _ _).after ?_ | with_reducible refine (State.modEntry_pres _ _ _ _).after ?_
    | with_reducible refine (State.finishRange_pres _ _ _).after ?_ | split | dsimp only)

theorem State.tumGlobal_pres : ∀ s x2 x3 x4 x5 x6 x7, Pres s (State.tumGlobal s x2 x3 x4 x5 x6 x7) := by
  intro s x2 x3 x4 x5 x6 x7
  unfold State.tumGlobal
  repeat' (first
    | with_reducible exact Pres.refl _ | with_reducible refine (State.finishRange_pres _ _ _).after ?_
    | with_reducible refine (State.tumLocal_pres _ _ _ _ _).after ?_ | with_reducible refine (State.finish_pres _ _ _ _).after ?_
    | with_reducible refine (State.nextOpid_pres _ _).after ?_ | with_reducible refine (State.modEntry_pres _ _ _ _).after ?_
    | with_reducible refine (State.request_pres _ _ _ _ _ _ _).after ?_ | split)

theorem execTumWait_pres : ∀ x1 x2 s, Keeps s (execTumWait x1 x2 s) := by
  intro x1 x2 s
  unfold execTumWait
  repeat' (first
    | (fail_if_no_progress (with_reducible refine spKept_lit ?_)) | with_reducible exact Pres.refl _ | intro _
    | with_reducible refine keeps_next ?_ | with_reducible exact SpKept.refl _
    | with_reducible refine (State.issue_pres ?_ _ _ _ _ _).after ?_ | with_reducible refine (State.advance_pres _ _ _).after ?_
    | with_reducible refine (State.staleReads_pres _ _ _).after ?_ | with_reducible refine (State.modCore_pres ?_ _ _).after ?_
    | with_reducible refine (Core.ltTake_spKept _ _ _).after ?_ | with_reducible refine (State.stallOn_pres _ _ _ _ _).after ?_
    | with_reducible refine (State.enqueue_pres _ _ _ _).after ?_ | with_reducible refine (State.runEntry_pres ?_ _ _ _ _).after ?_
    | with_reducible refine (State.finish_pres _ _ _ _).after ?_ | split | dsimp only)

theorem State.fence_pres : ∀ s x2 x3 x4 x5, Pres s (State.fence s x2 x3 x4 x5) := by
  intro s x2 x3 x4 x5
  unfold State.fence
  repeat' (first
    | (fail_if_no_progress (with_reducible refine spKept_lit ?_)) | with_reducible exact Pres.refl _ | intro _
    | with_reducible exact SpKept.refl _ | with_reducible refine (State.issue_pres ?_ _ _ _ _ _).after ?_
    | with_reducible refine (State.advance_pres _ _ _).after ?_ | with_reducible refine (State.staleReads_pres _ _ _).after ?_
    | with_reducible refine (State.stallOn_pres _ _ _ _ _).after ?_ | with_reducible refine (State.modCore_pres ?_ _ _).after ?_ | split)

theorem execFenceModule_pres : ∀ x1 x2 s, Keeps s (execFenceModule x1 x2 s) := by
  intro x1 x2 s
  unfold execFenceModule
  repeat' (first
    | with_reducible exact Pres.refl _ | with_reducible refine keeps_next ?_ | with_reducible refine (State.fence_pres _ _ _ _ _).after ?_)

theorem execParkRetry_pres : ∀ x1 x2 s, Keeps s (execParkRetry x1 x2 s) := by
  intro x1 x2 s
  unfold execParkRetry
  repeat' (first
    | (fail_if_no_progress (with_reducible refine pres_lit ?_)) | with_reducible exact Pres.refl _ | with_reducible refine keeps_next ?_
    | with_reducible refine (State.tumLocal_pres _ _ _ _ _).after ?_ | split)

theorem State.hostAdd_pres : ∀ s x2, Pres s (State.hostAdd s x2) := by
  intro s x2
  unfold State.hostAdd
  repeat' (first
    | with_reducible exact Pres.refl _ | with_reducible refine (State.logS0_pres _ _ _ _).after ?_
    | with_reducible refine (pres_of2 (by assumption) (State.tumReach_pres _ _)).after ?_
    | with_reducible refine (State.chargeOwner_pres _ _ _ _ _).after ?_ | split | dsimp only)

theorem execTumHostAdd_pres : ∀ x1 s, Keeps s (execTumHostAdd x1 s) := by
  intro x1 s
  unfold execTumHostAdd
  repeat' (first
    | with_reducible exact Pres.refl _ | with_reducible refine keeps_next ?_ | with_reducible refine (State.hostAdd_pres _ _).after ?_
    | split)

theorem execTumWaitG_pres : ∀ x1 x2 x3 s, Keeps s (execTumWaitG x1 x2 x3 s) := by
  intro x1 x2 x3 s
  unfold execTumWaitG
  repeat' (first
    | (fail_if_no_progress (with_reducible refine pres_lit ?_)) | (fail_if_no_progress (with_reducible refine spKept_lit ?_))
    | with_reducible exact Pres.refl _ | intro _ | with_reducible refine keeps_next ?_ | with_reducible exact SpKept.refl _
    | with_reducible refine (State.issue_pres ?_ _ _ _ _ _).after ?_ | with_reducible refine (State.viaLink_pres ?_ _ _).after ?_
    | with_reducible refine (State.seqFatal_pres _ _ _ _ _).after ?_ | with_reducible refine (State.advance_pres _ _ _).after ?_
    | with_reducible refine (State.staleReads_pres _ _ _).after ?_ | with_reducible refine (State.hubSet_pres _ _ _).after ?_
    | with_reducible refine (State.stallOn_pres _ _ _ _ _).after ?_ | with_reducible refine (State.modCore_pres ?_ _ _).after ?_ | split
    | dsimp only)

theorem execSequencerWake_pres : ∀ x1 s, Keeps s (execSequencerWake x1 s) := by
  intro x1 s
  unfold execSequencerWake
  repeat' (first
    | (fail_if_no_progress (with_reducible refine pres_lit ?_)) | (fail_if_no_progress (with_reducible refine spKept_lit ?_))
    | with_reducible exact Pres.refl _ | intro _ | with_reducible refine keeps_next ?_ | with_reducible exact SpKept.refl _
    | with_reducible refine (State.modCore_pres ?_ _ _).after ?_ | with_reducible refine (Core.ltTake_spKept _ _ _).after ?_
    | with_reducible refine (State.advance_pres _ _ _).after ?_ | with_reducible refine (State.staleReads_pres _ _ _).after ?_ | split)

theorem execTumAlloc_pres : ∀ x1 x2 x3 s, Keeps s (execTumAlloc x1 x2 x3 s) := by
  intro x1 x2 x3 s
  unfold execTumAlloc
  repeat' (first
    | (fail_if_no_progress (with_reducible refine pres_lit ?_)) | with_reducible exact Pres.refl _ | intro _
    | with_reducible refine keeps_next ?_ | with_reducible exact SpKept.refl _
    | with_reducible refine (State.issue_pres ?_ _ _ _ _ _).after ?_ | with_reducible refine (State.viaLink_pres ?_ _ _).after ?_
    | with_reducible refine (State.advance_pres _ _ _).after ?_ | with_reducible refine (State.modCore_pres ?_ _ _).after ?_
    | with_reducible refine (Core.sset_spKept _ _ _).after ?_ | with_reducible refine (State.hubSet_pres _ _ _).after ?_
    | with_reducible refine (pres_foldl ?_ _ _).after ?_ | split | dsimp only)

theorem State.seqTumAdd_pres : ∀ s x2 x3 x4 x5, Pres s (State.seqTumAdd s x2 x3 x4 x5) := by
  intro s x2 x3 x4 x5
  unfold State.seqTumAdd
  repeat' (first
    | with_reducible exact Pres.refl _ | intro _ | with_reducible exact SpKept.refl _
    | with_reducible refine (State.modCore_pres ?_ _ _).after ?_ | with_reducible refine (Core.ltSet_spKept _ _ _).after ?_
    | with_reducible refine (State.advance_pres _ _ _).after ?_ | with_reducible refine (State.seqFatal_pres _ _ _ _ _).after ?_ | split)

theorem execTumSet_pres : ∀ x1 x2 s, Keeps s (execTumSet x1 x2 s) := by
  intro x1 x2 s
  unfold execTumSet
  repeat' (first
    | with_reducible exact Pres.refl _ | intro _ | with_reducible refine keeps_next ?_ | with_reducible exact SpKept.refl _
    | with_reducible refine (State.issue_pres ?_ _ _ _ _ _).after ?_ | with_reducible refine (State.advance_pres _ _ _).after ?_
    | with_reducible refine (State.modCore_pres ?_ _ _).after ?_ | with_reducible refine (Core.ltSet_spKept _ _ _).after ?_
    | with_reducible refine (State.enqueue_pres _ _ _ _).after ?_ | with_reducible refine (State.runEntry_pres ?_ _ _ _ _).after ?_
    | with_reducible refine (State.finish_pres _ _ _ _).after ?_ | split)

theorem execTumReadG_pres : ∀ x1 x2 s, Keeps s (execTumReadG x1 x2 s) := by
  intro x1 x2 s
  unfold execTumReadG
  repeat' (first
    | with_reducible exact Pres.refl _ | intro _ | with_reducible refine keeps_next ?_
    | with_reducible refine (State.issueEngine_pres _ _ _ _ _ _).after ?_ | with_reducible refine (State.runEntry_pres ?_ _ _ _ _).after ?_
    | with_reducible refine (State.tumGlobal_pres _ _ _ _ _ _ _).after ?_ | with_reducible refine (State.finishRange_pres _ _ _).after ?_
    | split)

theorem execTumAddG_pres : ∀ x1 x2 s, Keeps s (execTumAddG x1 x2 s) := by
  intro x1 x2 s
  unfold execTumAddG
  repeat' (first
    | with_reducible exact Pres.refl _ | intro _ | with_reducible refine keeps_next ?_
    | with_reducible refine (State.issueEngine_pres _ _ _ _ _ _).after ?_ | with_reducible refine (State.runEntry_pres ?_ _ _ _ _).after ?_
    | with_reducible refine (State.tumGlobal_pres _ _ _ _ _ _ _).after ?_ | split)

theorem execFenceCore_pres : ∀ x1 x2 s, Keeps s (execFenceCore x1 x2 s) := by
  intro x1 x2 s
  unfold execFenceCore
  repeat' (first
    | with_reducible exact Pres.refl _ | with_reducible refine keeps_next ?_ | with_reducible refine (State.fence_pres _ _ _ _ _).after ?_)

theorem execTumRead_pres : ∀ x1 x2 x3 s, Keeps s (execTumRead x1 x2 x3 s) := by
  intro x1 x2 x3 s
  unfold execTumRead
  repeat' (first
    | with_reducible exact Pres.refl _ | intro _ | with_reducible refine keeps_next ?_ | with_reducible exact SpKept.refl _
    | with_reducible refine (State.issueCore_pres ?_ _ _ _ _ _).after ?_ | with_reducible refine (Core.sset_spKept _ _ _).after ?_)

theorem execTumSetG_pres : ∀ x1 x2 s, Keeps s (execTumSetG x1 x2 s) := by
  intro x1 x2 s
  unfold execTumSetG
  repeat' (first
    | with_reducible exact Pres.refl _ | intro _ | with_reducible refine keeps_next ?_
    | with_reducible refine (State.issueEngine_pres _ _ _ _ _ _).after ?_ | with_reducible refine (State.runEntry_pres ?_ _ _ _ _).after ?_
    | with_reducible refine (State.tumGlobal_pres _ _ _ _ _ _ _).after ?_ | split)

theorem execFenceSystem_pres : ∀ x1 x2 s, Keeps s (execFenceSystem x1 x2 s) := by
  intro x1 x2 s
  unfold execFenceSystem
  repeat' (first
    | with_reducible exact Pres.refl _ | with_reducible refine keeps_next ?_ | with_reducible refine (State.fence_pres _ _ _ _ _).after ?_)

theorem execDeadlockSample_pres : ∀ x1 s, Keeps s (execDeadlockSample x1 s) := by
  intro x1 s
  unfold execDeadlockSample
  repeat' (first
    | with_reducible exact Pres.refl _ | with_reducible refine keeps_next ?_ | with_reducible refine (State.modTask_pres _ _ _).after ?_
    | with_reducible refine (State.settle_pres _ _).after ?_ | split)

theorem execDeadlockFire_pres : ∀ x1 s, Keeps s (execDeadlockFire x1 s) := by
  intro x1 s
  unfold execDeadlockFire
  repeat' (first
    | with_reducible exact Pres.refl _ | intro _ | with_reducible refine keeps_next ?_
    | with_reducible refine (State.wr_pres _ _ _).after ?_ | with_reducible refine (State.hmStore_pres _ _ _).after ?_
    | with_reducible refine (State.bump_pres _ _ _).after ?_ | with_reducible refine (State.raise_pres _ _).after ?_
    | with_reducible refine (State.lastStatus_pres _ _ _).after ?_ | with_reducible refine (State.stopTask_pres _ _).after ?_
    | with_reducible refine (State.modTask_pres _ _ _).after ?_ | with_reducible refine (pres_foldl ?_ _ _).after ?_ | split)

theorem execTumAdd_pres : ∀ x1 x2 s, Keeps s (execTumAdd x1 x2 s) := by
  intro x1 x2 s
  unfold execTumAdd
  repeat' (first
    | with_reducible exact Pres.refl _ | intro _ | with_reducible refine keeps_next ?_ | with_reducible exact SpKept.refl _
    | with_reducible refine (State.issue_pres ?_ _ _ _ _ _).after ?_ | with_reducible refine (State.seqTumAdd_pres _ _ _ _ _).after ?_
    | with_reducible refine (State.enqueue_pres _ _ _ _).after ?_ | with_reducible refine (State.runEntry_pres ?_ _ _ _ _).after ?_
    | with_reducible refine (State.finish_pres _ _ _ _).after ?_ | with_reducible refine (State.modCore_pres ?_ _ _).after ?_
    | with_reducible refine (Core.ltSet_spKept _ _ _).after ?_ | split)

theorem State.cmdOver_pres : ∀ s x2 x3, Pres s (State.cmdOver s x2 x3).1 := by
  intro s x2 x3
  unfold State.cmdOver
  repeat' (first | with_reducible exact Pres.refl _ | with_reducible refine (State.modQueue_pres _ _ _).after ?_ | split | dsimp only)

theorem State.cplDue_pres : ∀ s x2 x3, Pres s (State.cplDue s x2 x3) := by
  intro s x2 x3
  unfold State.cplDue
  repeat' (first
    | with_reducible exact Pres.refl _ | with_reducible refine (State.modQueue_pres _ _ _).after ?_
    | with_reducible refine (State.bump_pres _ _ _).after ?_ | split)

theorem State.cmdDone_pres : ∀ s x2 x3 x4 x5, Pres s (State.cmdDone s x2 x3 x4 x5) := by
  intro s x2 x3 x4 x5
  unfold State.cmdDone
  repeat' (first
    | with_reducible exact Pres.refl _ | with_reducible refine (pres_of1 (by assumption) (State.cmdOver_pres _ _ _)).after ?_
    | with_reducible refine (State.cplDue_pres _ _ _).after ?_ | split)

theorem State.killsSee_pres : ∀ s x2, Pres s (State.killsSee s x2) := by
  intro s x2
  unfold State.killsSee
  repeat' (first
    | with_reducible exact Pres.refl _ | intro _ | with_reducible refine (State.modQueue_pres _ _ _).after ?_
    | with_reducible refine (State.cmdDone_pres _ _ _ _ _).after ?_ | with_reducible refine (pres_foldl ?_ _ _).after ?_)

/-- Giving a core a canonical scratchpad. -/
theorem State.setSp_pres (s : State) (c : Nat) (m : Mem) (h : (s.core c).sp.wf = true → m.wf = true) :
    Pres s (s.modCore c (fun k => { k with sp := m })) := by
  refine pres_mem rfl rfl rfl id id (fun d => ⟨fun hd => ?_⟩)
  by_cases e : d = c
  · subst e
    by_cases hx : d < 48
    · rw [State.core_modCore _ _ _ hx]; exact h hd
    · rw [show (s.modCore d (fun k => { k with sp := m })).core d = s.core d from by
        unfold State.core State.modCore
        simp [Vector.getD, hx]]
      exact hd
  · rw [State.core_modCore_ne _ _ _ _ e]; exact hd

theorem State.smudgeSp_pres : ∀ s x2 x3, Pres s (State.smudgeSp s x2 x3) := by
  intro s c g
  exact State.setSp_pres s c _ (fun h => foldl_keeps (fun m : Mem => m.wf = true) _ (fun m o hm => Mem.writeN_wf m _ _ hm) _ _ (Mem.smudge_wf _ _ _ _ h))

theorem State.enableQueue_pres : ∀ s x2, Pres s (State.enableQueue s x2) := by
  intro s x2
  unfold State.enableQueue
  repeat' (first
    | with_reducible exact Pres.refl _ | with_reducible refine (State.wr_pres _ _ _).after ?_
    | with_reducible refine (State.modQueue_pres _ _ _).after ?_)

theorem State.releaseTumblers_pres : ∀ s x2, Pres s (State.releaseTumblers s x2) := by
  intro s x2
  unfold State.releaseTumblers
  repeat' (first
    | (fail_if_no_progress (with_reducible refine pres_lit ?_)) | with_reducible exact Pres.refl _ | intro _
    | with_reducible refine (State.tumAnswer_pres _ _ _ _ _).after ?_ | with_reducible refine (State.finishRange_pres _ _ _).after ?_
    | with_reducible refine (State.ownerGone_pres _ _ _).after ?_ | with_reducible refine (pres_foldl ?_ _ _).after ?_ | split)

theorem State.stopSave_pres : ∀ s x2, Pres s (State.stopSave s x2) := by
  intro s x2
  unfold State.stopSave
  repeat' (first
    | (fail_if_no_progress (with_reducible refine spKept_lit ?_)) | with_reducible exact Pres.refl _ | intro _
    | with_reducible exact SpKept.refl _ | with_reducible refine (State.modCore_pres ?_ _ _).after ?_
    | with_reducible refine (pres_foldl ?_ _ _).after ?_ | split)

theorem State.smudge_pres : ∀ s x2 x3 x4 x5, Pres s (State.smudge s x2 x3 x4 x5) := by
  intro s g space off n
  unfold State.smudge
  split
  · exact State.lmSmudge_pres _ _ _ _
  · refine Pres.after (b := s.kvSpoil off n) (pres_mem rfl rfl rfl ?_ id (fun _ => SpKept.refl _)) (State.kvSpoil_pres _ _ _)
    rw [State.kvSpoil_hm]
    exact Mem.smudge_wf _ _ _ _
  · exact State.modCore_pres (fun k => ⟨Mem.smudge_wf _ _ _ _⟩) _ _


theorem State.dropHeld_pres : ∀ s x2, Pres s (State.dropHeld s x2) := by
  intro s x2
  unfold State.dropHeld
  repeat' (first
    | (fail_if_no_progress (with_reducible refine pres_lit ?_)) | with_reducible exact Pres.refl _ | intro _
    | with_reducible refine (State.winRelease_pres _ _ _).after ?_ | with_reducible refine (pres_foldl ?_ _ _).after ?_ | split)

theorem State.abandonCore_pres : ∀ s x2, Pres s (State.abandonCore s x2) := by
  intro s x2
  unfold State.abandonCore
  repeat' (first
    | (fail_if_no_progress (with_reducible refine pres_lit ?_)) | (fail_if_no_progress (with_reducible refine spKept_lit ?_))
    | with_reducible exact Pres.refl _ | intro _ | with_reducible exact SpKept.refl _
    | with_reducible refine (State.freshJunk_pres _).after ?_ | with_reducible refine (State.dropAhead_pres _ _).after ?_
    | with_reducible refine (State.smudge_pres _ _ _ _ _).after ?_ | with_reducible refine (State.endFillers_pres _ _ _).after ?_
    | with_reducible refine (State.modCore_pres ?_ _ _).after ?_ | with_reducible refine (Core.stop_spKept _).after ?_
    | with_reducible refine (State.dropHeld_pres _ _).after ?_ | with_reducible refine (pres_foldl ?_ _ _).after ?_ | split)

theorem State.abandonTask_pres : ∀ s x2, Pres s (State.abandonTask s x2) := by
  intro s x2
  unfold State.abandonTask
  repeat' (first
    | with_reducible exact Pres.refl _ | intro _ | with_reducible refine (State.stopSave_pres _ _).after ?_
    | with_reducible refine (State.abandonCore_pres _ _).after ?_ | with_reducible refine (pres_foldl ?_ _ _).after ?_)

theorem State.killTask_pres : ∀ s x2, Pres s (State.killTask s x2) := by
  intro s x2
  unfold State.killTask
  repeat' (first
    | with_reducible exact Pres.refl _ | with_reducible refine (State.modTask_pres _ _ _).after ?_
    | with_reducible refine (State.abandonTask_pres _ _).after ?_)

theorem State.disableQueue_pres : ∀ s x2, Pres s (State.disableQueue s x2) := by
  intro s x2
  unfold State.disableQueue
  repeat' (first
    | with_reducible exact Pres.refl _ | intro _ | with_reducible refine (State.modQueue_pres _ _ _).after ?_
    | with_reducible refine (State.bump_pres _ _ _).after ?_ | with_reducible refine (State.wr_pres _ _ _).after ?_
    | with_reducible refine (State.killsSee_pres _ _).after ?_ | with_reducible refine (pres_foldl ?_ _ _).after ?_ | split)

theorem State.finalEntry_pres : ∀ s x2 x3, Pres s (State.finalEntry s x2 x3) := by
  intro s x2 x3
  unfold State.finalEntry
  repeat' (first
    | with_reducible exact Pres.refl _ | with_reducible refine (State.cplDue_pres _ _ _).after ?_
    | with_reducible refine (State.killsSee_pres _ _).after ?_
    | with_reducible refine (pres_of1 (by assumption) (State.cmdOver_pres _ _ _)).after ?_ | split | dsimp only)

theorem State.doorbellBad_pres : ∀ s x2, Pres s (State.doorbellBad s x2) := by
  intro s x2
  unfold State.doorbellBad
  repeat' (first | with_reducible exact Pres.refl _ | with_reducible refine (State.logS0_pres _ _ _ _).after ?_)

theorem State.applied_pres : ∀ s x2, Pres s (State.applied s x2) := by
  intro s x2
  unfold State.applied
  repeat' (first | with_reducible exact Pres.refl _ | with_reducible refine (State.modQueue_pres _ _ _).after ?_)

theorem execBarrier_pres : ∀ x1 s, Keeps s (execBarrier x1 s) := by
  intro x1 s
  unfold execBarrier
  repeat' (first
    | with_reducible exact Pres.refl _ | with_reducible refine keeps_next ?_ | with_reducible refine (State.applied_pres _ _).after ?_
    | with_reducible refine (State.cmdDone_pres _ _ _ _ _).after ?_ | with_reducible refine (State.modQueue_pres _ _ _).after ?_ | split
    | dsimp only)

theorem State.restoreSp_pres : ∀ s x2 x3 x4 x5, Pres s (State.restoreSp s x2 x3 x4 x5) := by
  intro s x2 x3 x4 x5
  unfold State.restoreSp
  repeat' (first
    | with_reducible exact Pres.refl _ | intro _ | with_reducible refine (State.spWrite_pres _ _ _ _).after ?_
    | with_reducible refine (State.smudgeSp_pres _ _ _).after ?_ | with_reducible refine (pres_foldl ?_ _ _).after ?_)

theorem execPreemptAbandon_pres : ∀ x1 s, Keeps s (execPreemptAbandon x1 s) := by
  intro x1 s
  unfold execPreemptAbandon
  repeat' (first
    | (fail_if_no_progress (with_reducible refine spKept_lit ?_)) | with_reducible exact Pres.refl _ | intro _
    | with_reducible refine keeps_next ?_ | with_reducible exact SpKept.refl _ | with_reducible refine (State.modCore_pres ?_ _ _).after ?_
    | with_reducible refine (State.raise_pres _ _).after ?_ | with_reducible refine (State.bump_pres _ _ _).after ?_
    | with_reducible refine (State.modTask_pres _ _ _).after ?_ | with_reducible refine (pres_foldl ?_ _ _).after ?_ | split)

theorem State.settleWake_pres : ∀ s x2, Pres s (State.settleWake s x2) := by
  intro s x2
  unfold State.settleWake
  repeat' (first
    | (fail_if_no_progress (with_reducible refine pres_lit ?_)) | with_reducible exact Pres.refl _
    | with_reducible refine (State.advance_pres _ _ _).after ?_ | split)

theorem execPreemptSave_pres : ∀ x1 s, Keeps s (execPreemptSave x1 s) := by
  intro x1 s
  unfold execPreemptSave
  repeat' (first
    | (fail_if_no_progress (with_reducible refine pres_lit ?_)) | (fail_if_no_progress (with_reducible refine spKept_lit ?_))
    | with_reducible exact Pres.refl _ | intro _ | with_reducible refine keeps_next ?_ | with_reducible exact SpKept.refl _
    | with_reducible refine (State.settleWake_pres _ _).after ?_ | with_reducible refine (State.endFillers_pres _ _ _).after ?_
    | with_reducible refine (State.modCore_pres ?_ _ _).after ?_ | with_reducible refine (State.modTask_pres _ _ _).after ?_
    | with_reducible refine (pres_foldl ?_ _ _).after ?_ | split)

theorem State.saveLost_pres : ∀ s x2 x3 x4, Pres s (State.saveLost s x2 x3 x4) := by
  intro s x2 x3 x4
  unfold State.saveLost
  repeat' (first | with_reducible exact Pres.refl _ | with_reducible refine (State.raise_pres _ _).after ?_)

theorem execPreemptSaveDone_pres : ∀ x1 x2 s, Keeps s (execPreemptSaveDone x1 x2 s) := by
  intro x1 x2 s
  unfold execPreemptSaveDone
  repeat' (first
    | with_reducible exact Pres.refl _ | intro _ | with_reducible refine keeps_next ?_ | with_reducible exact SpKept.refl _
    | with_reducible refine (State.sramUpsets_pres _ _).after ?_ | with_reducible refine (State.saveLost_pres _ _ _ _).after ?_
    | with_reducible refine (State.freshJunk_pres _).after ?_ | with_reducible refine (State.lmWrite_pres _ _ _ _ _ _).after ?_
    | with_reducible refine (State.modCore_pres ?_ _ _).after ?_ | with_reducible refine (Core.saved_spKept _).after ?_
    | with_reducible refine (State.cplDue_pres _ _ _).after ?_ | with_reducible refine (State.bump_pres _ _ _).after ?_
    | with_reducible refine (State.modTask_pres _ _ _).after ?_ | with_reducible refine (pres_foldl ?_ _ _).after ?_ | split | dsimp only)

theorem execC0TokenRefill_pres : ∀ s, Keeps s (execC0TokenRefill s) := by
  intro s
  unfold execC0TokenRefill
  repeat' (first
    | with_reducible exact Pres.refl _ | with_reducible refine keeps_next ?_ | with_reducible refine (State.wr_pres _ _ _).after ?_
    | with_reducible refine (State.drainC0_pres _ _).after ?_ | split)

theorem execDoorbellCplHead_pres : ∀ x1 x2 x3 s, Keeps s (execDoorbellCplHead x1 x2 x3 s) := by
  intro x1 x2 x3 s
  unfold execDoorbellCplHead
  repeat' (first
    | with_reducible exact Pres.refl _ | with_reducible refine keeps_next ?_ | with_reducible refine (State.doorbellBad_pres _ _).after ?_
    | with_reducible refine (State.modQueue_pres _ _ _).after ?_ | split)

theorem State.latchSlog_pres : ∀ s x2, Pres s (State.latchSlog s x2) := by
  intro s x2
  unfold State.latchSlog
  repeat' (first
    | (fail_if_no_progress (with_reducible refine pres_lit ?_)) | with_reducible exact Pres.refl _
    | with_reducible refine (State.wrb_pres _ _ _).after ?_ | with_reducible refine (State.logS0_pres _ _ _ _).after ?_ | split | dsimp only)

theorem State.startCore_pres : ∀ s x2 x3 x4, Pres s (State.startCore s x2 x3 x4) := by
  intro s x2 x3 x4
  unfold State.startCore
  repeat' (first
    | with_reducible exact Pres.refl _ | intro _ | with_reducible exact SpKept.refl _ | with_reducible refine (State.wr_pres _ _ _).after ?_
    | with_reducible refine (State.modCore_pres ?_ _ _).after ?_ | with_reducible refine (State.latchSlog_pres _ _).after ?_
    | with_reducible refine (Core.startWith_spKept _ _ _ _ _).after ?_)

theorem State.loadTask_pres : ∀ s x2 x3, Pres s (State.loadTask s x2 x3).2 := by
  intro s x2 x3
  unfold State.loadTask
  repeat' (first
    | (fail_if_no_progress (with_reducible refine spKept_lit ?_)) | with_reducible exact Pres.refl _ | intro _
    | with_reducible exact SpKept.refl _ | with_reducible refine (State.readSpace_pres _ _ _ _ _ _ _).after ?_
    | with_reducible refine (State.freshJunk_pres _).after ?_ | with_reducible refine (State.modCore_pres ?_ _ _).after ?_
    | with_reducible refine (State.smudgeSp_pres _ _ _).after ?_ | with_reducible refine (State.spWrite_pres _ _ _ _).after ?_
    | with_reducible refine (pres_foldl ?_ _ _).after ?_ | with_reducible refine (pres_foldl2 ?_ _ _).after ?_)

theorem State.failTask_pres : ∀ s x2 x3, Pres s (State.failTask s x2 x3) := by
  intro s x2 x3
  unfold State.failTask
  repeat' (first
    | with_reducible exact Pres.refl _ | with_reducible refine (State.modTask_pres _ _ _).after ?_
    | with_reducible refine (State.abandonTask_pres _ _).after ?_)

theorem State.failAll_pres : ∀ s x2, Pres s (State.failAll s x2) := by
  intro s x2
  unfold State.failAll
  repeat' (first
    | with_reducible exact Pres.refl _ | intro _ | with_reducible refine (State.failTask_pres _ _ _).after ?_
    | with_reducible refine (pres_foldl ?_ _ _).after ?_)

theorem State.residueCheck_pres : ∀ s x2, Pres s (State.residueCheck s x2) := by
  intro s x2
  unfold State.residueCheck
  repeat' (first
    | with_reducible exact Pres.refl _ | with_reducible refine (State.bump_pres _ _ _).after ?_
    | with_reducible refine (State.wr_pres _ _ _).after ?_ | with_reducible refine (State.raise_pres _ _).after ?_ | split | dsimp only)

theorem execTaskEnd_pres : ∀ x1 s, Keeps s (execTaskEnd x1 s) := by
  intro x1 s
  unfold execTaskEnd
  repeat' (first
    | (fail_if_no_progress (with_reducible refine pres_lit ?_)) | (fail_if_no_progress (with_reducible refine spKept_lit ?_))
    | with_reducible exact Pres.refl _ | intro _ | with_reducible refine keeps_next ?_ | with_reducible exact SpKept.refl _
    | with_reducible refine (State.residueCheck_pres _ _).after ?_ | with_reducible refine (State.collTaskGone_pres _ _).after ?_
    | with_reducible refine (State.endFillers_pres _ _ _).after ?_ | with_reducible refine (State.dropAhead_pres _ _).after ?_
    | with_reducible refine (State.modCore_pres ?_ _ _).after ?_ | with_reducible refine (Core.saved_spKept _).after ?_
    | with_reducible refine (State.dropHeld_pres _ _).after ?_ | with_reducible refine (State.releaseTumblers_pres _ _).after ?_
    | with_reducible refine (State.finalEntry_pres _ _ _).after ?_ | with_reducible refine (pres_foldl ?_ _ _).after ?_ | split | dsimp only)

theorem execTaskRestore_pres : ∀ x1 s, Keeps s (execTaskRestore x1 s) := by
  intro x1 s
  unfold execTaskRestore
  repeat' (first
    | with_reducible exact Pres.refl _ | with_reducible refine keeps_next ?_ | with_reducible refine (State.modTask_pres _ _ _).after ?_
    | split)

theorem State.jobsFatal_pres : ∀ s x2, Pres s (State.jobsFatal s x2) := by
  intro s x2
  unfold State.jobsFatal
  repeat' (first
    | with_reducible exact Pres.refl _ | intro _ | with_reducible refine (State.raise_pres _ _).after ?_
    | with_reducible refine (pres_foldl ?_ _ _).after ?_ | split | dsimp only)

theorem execTaskStart_pres : ∀ x1 s, Keeps s (execTaskStart x1 s) := by
  intro x1 s
  unfold execTaskStart
  repeat' (first
    | with_reducible exact Pres.refl _ | intro _ | with_reducible refine keeps_next ?_
    | with_reducible refine (State.modTask_pres _ _ _).after ?_ | with_reducible refine (State.startCore_pres _ _ _ _).after ?_
    | with_reducible refine (pres_foldl ?_ _ _).after ?_ | split)

theorem State.failJob_pres : ∀ s x2 x3, Pres s (State.failJob s x2 x3) := by
  intro s x2 x3
  unfold State.failJob
  repeat' (first
    | with_reducible exact Pres.refl _ | intro _ | with_reducible refine (State.failTask_pres _ _ _).after ?_
    | with_reducible refine (pres_foldl ?_ _ _).after ?_)

theorem State.unpark_pres : ∀ s x2, Pres s (State.unpark s x2) := by
  intro s x2
  unfold State.unpark
  repeat' (first
    | with_reducible exact Pres.refl _ | with_reducible refine (pres_of2 (by assumption) (State.ltApply_pres _ _ _ _)).after ?_
    | with_reducible refine (State.chargeOwner_pres _ _ _ _ _).after ?_ | with_reducible refine (State.dedupNote_pres _ _ _ _ _).after ?_
    | with_reducible refine (State.tumAnswer_pres _ _ _ _ _).after ?_ | split)

theorem execCompletionEntryWrite_pres : ∀ x1 s, Keeps s (execCompletionEntryWrite x1 s) := by
  intro x1 s
  unfold execCompletionEntryWrite
  repeat' (first
    | (fail_if_no_progress (with_reducible refine pres_lit ?_)) | with_reducible exact Pres.refl _ | with_reducible refine keeps_next ?_
    | with_reducible refine (State.wr_pres _ _ _).after ?_ | with_reducible refine (State.modQueue_pres _ _ _).after ?_
    | with_reducible refine (State.raiseVec_pres _ _).after ?_ | with_reducible refine (State.killsSee_pres _ _).after ?_ | split)

theorem execCmdNop_pres : ∀ x1 s, Keeps s (execCmdNop x1 s) := by
  intro x1 s
  unfold execCmdNop
  repeat' (first
    | with_reducible exact Pres.refl _ | with_reducible refine keeps_next ?_ | with_reducible refine (State.cmdDone_pres _ _ _ _ _).after ?_
    | with_reducible refine (State.applied_pres _ _).after ?_ | split)

theorem execCommandRead_pres : ∀ x1 x2 s, Keeps s (execCommandRead x1 x2 s) := by
  intro x1 x2 s
  unfold execCommandRead
  repeat' (first
    | (fail_if_no_progress (with_reducible refine pres_lit ?_)) | with_reducible exact Pres.refl _ | with_reducible refine keeps_next ?_
    | with_reducible refine (State.logS0_pres _ _ _ _).after ?_ | with_reducible refine (State.bump_pres _ _ _).after ?_
    | with_reducible refine (State.disableQueue_pres _ _).after ?_ | with_reducible refine (State.wrapAdd_pres _ _ _).after ?_
    | with_reducible refine (State.modQueue_pres _ _ _).after ?_ | with_reducible refine (State.cmdDone_pres _ _ _ _ _).after ?_ | split
    | dsimp only)

/-- The state in which the read of an image ends. -/
def ImageRead.state : ImageRead → State
  | .good _ s => s
  | .refused s => s
  | .bad _ _ s => s

theorem State.imagePart_pres (s : State) (u : List Upset) (img : Word) (o n : Nat) (r : List Byte × Bad × State)
    (h : s.imagePart u img o n = some r) : Pres s r.2.2 := by
  unfold State.imagePart at h
  split at h
  · rw [← Option.some.inj h]
    exact State.readSpace_pres s u _ _ _ _ _
  · cases h

theorem State.readImage_pres (s : State) (u : List Upset) (img : Word) : Pres s (s.readImage u img).state := by
  unfold State.readImage
  extract_lets space isBad
  split
  · exact Pres.refl _
  · split
    · exact Pres.refl _
    · rename_i hd b s1 hp
      have h1 : Pres s s1 := State.imagePart_pres _ _ _ _ _ _ hp
      split
      · exact h1
      · extract_lets text entry nLoad nLive nTum textAt loadAt liveAt tumAt
        split
        · exact h1
        · split
          · rename_i lo li tu b2 s2 he
            obtain ⟨x, hx, he⟩ := Option.bind_eq_some_iff.1 he
            obtain ⟨y, hy, he⟩ := Option.bind_eq_some_iff.1 he
            obtain ⟨z, hz, he⟩ := Option.map_eq_some_iff.1 he
            have h2 : Pres s s2 := by
              rw [← (Prod.mk.inj (Prod.mk.inj (Prod.mk.inj (Prod.mk.inj he).2).2).2).2]
              exact (State.imagePart_pres _ _ _ _ _ _ hz).after ((State.imagePart_pres _ _ _ _ _ _ hy).after
                ((State.imagePart_pres _ _ _ _ _ _ hx).after h1))
            repeat' (first | exact h2 | split | extract_lets)
          · exact h1

theorem State.readImage_of (s : State) (u : List Upset) (img : Word) (r : ImageRead) (h : s.readImage u img = r) : Pres s r.state := by
  subst h; exact State.readImage_pres s u img

theorem execSubmit_pres : ∀ x1 x2 s, Keeps s (execSubmit x1 x2 s) := by
  intro q u s
  unfold execSubmit
  refine keeps_next ?_
  split
  · exact Pres.refl _
  split
  · exact Pres.refl _
  · extract_lets num s1 t img s2 argOk fb refuse
    have h2 : Pres s s2 := by
      refine Pres.after (b := s1) ?_ ((State.sramUpsets_pres _ _).after (State.applied_pres _ _))
      show Pres s1 (State.mk ..)
      with_reducible refine pres_lit ?_
      exact Pres.refl _
    have hr : ∀ s, Pres s (refuse s) := fun s => (State.finalEntry_pres _ _ _).after ((State.raise_pres _ _).after (State.bump_pres _ _ _))
    split
    · rename_i h
      exact (hr _).after ((State.readImage_of _ _ _ _ h).after h2)
    · rename_i h
      exact (State.finalEntry_pres _ _ _).after ((State.raise_pres _ _).after ((State.readImage_of _ _ _ _ h).after h2))
    · rename_i h
      have h3 := (State.readImage_of _ _ _ _ h).after h2
      split
      · exact (hr _).after h3
      · with_reducible refine pres_lit ?_
        exact h3

theorem execKill_pres : ∀ x1 s, Keeps s (execKill x1 s) := by
  intro x1 s
  unfold execKill
  repeat' (first
    | with_reducible exact Pres.refl _ | intro _ | with_reducible refine keeps_next ?_
    | with_reducible refine (State.applied_pres _ _).after ?_ | with_reducible refine (State.cmdDone_pres _ _ _ _ _).after ?_
    | with_reducible refine (State.killTask_pres _ _).after ?_ | with_reducible refine (State.modQueue_pres _ _ _).after ?_
    | with_reducible refine (pres_foldl ?_ _ _).after ?_ | split | dsimp only)

theorem State.rewait_pres : ∀ s x2, Pres s (State.rewait s x2) := by
  intro s x2
  unfold State.rewait
  repeat' (first
    | (fail_if_no_progress (with_reducible refine pres_lit ?_)) | (fail_if_no_progress (with_reducible refine spKept_lit ?_))
    | with_reducible exact Pres.refl _ | intro _ | with_reducible exact SpKept.refl _
    | with_reducible refine (State.hubWake_pres _ _).after ?_ | with_reducible refine (State.modCore_pres ?_ _ _).after ?_ | split)

theorem execTaskRestoreDone_pres : ∀ x1 x2 s, Keeps s (execTaskRestoreDone x1 x2 s) := by
  intro x1 x2 s
  unfold execTaskRestoreDone
  repeat' (first
    | (fail_if_no_progress (with_reducible refine pres_lit ?_)) | with_reducible exact Pres.refl _ | intro _
    | with_reducible refine keeps_next ?_ | with_reducible exact SpKept.refl _
    | with_reducible refine (pres_of22 (by assumption) (State.lmRead_pres _ _ _ _ _ _)).after ?_
    | with_reducible refine (State.saveLost_pres _ _ _ _).after ?_ | with_reducible refine (State.freshJunk_pres _).after ?_
    | with_reducible refine (State.modCore_pres ?_ _ _).after ?_ | with_reducible refine (State.restoreSp_pres _ _ _ _ _).after ?_
    | with_reducible refine (Core.restored_spKept _ _ _).after ?_ | with_reducible refine (State.modTask_pres _ _ _).after ?_
    | with_reducible refine (State.unpark_pres _ _).after ?_ | with_reducible refine (State.rewait_pres _ _).after ?_
    | with_reducible refine (pres_foldl ?_ _ _).after ?_ | split)

theorem State.drainTask_pres : ∀ s x2, Pres s (State.drainTask s x2) := by
  intro s x2
  unfold State.drainTask
  repeat' (first
    | (fail_if_no_progress (with_reducible refine spKept_lit ?_)) | with_reducible exact Pres.refl _ | intro _
    | with_reducible exact SpKept.refl _ | with_reducible refine (State.modTask_pres _ _ _).after ?_
    | with_reducible refine (State.modCore_pres ?_ _ _).after ?_ | with_reducible refine (State.dropAhead_pres _ _).after ?_
    | with_reducible refine (pres_foldl ?_ _ _).after ?_ | split | dsimp only)

theorem execPreemptRequest_pres : ∀ x1 x2 s, Keeps s (execPreemptRequest x1 x2 s) := by
  intro x1 x2 s
  unfold execPreemptRequest
  repeat' (first
    | with_reducible exact Pres.refl _ | intro _ | with_reducible refine keeps_next ?_
    | with_reducible refine (State.drainTask_pres _ _).after ?_ | with_reducible refine (pres_foldl ?_ _ _).after ?_ | split | dsimp only)

theorem execTaskPlace_pres : ∀ x1 x2 x3 s, Keeps s (execTaskPlace x1 x2 x3 s) := by
  intro x1 x2 x3 s
  unfold execTaskPlace
  repeat' (first
    | with_reducible exact Pres.refl _ | with_reducible refine keeps_next ?_ | with_reducible refine (State.sramUpsets_pres _ _).after ?_
    | with_reducible refine (State.modTask_pres _ _ _).after ?_ | with_reducible refine (State.loadTask_pres _ _ _).after ?_
    | with_reducible refine (State.raise_pres _ _).after ?_ | split | dsimp only)

theorem execDoorbellTail_pres : ∀ x1 x2 x3 s, Keeps s (execDoorbellTail x1 x2 x3 s) := by
  intro x1 x2 x3 s
  unfold execDoorbellTail
  repeat' (first
    | with_reducible exact Pres.refl _ | with_reducible refine keeps_next ?_ | with_reducible refine (State.doorbellBad_pres _ _).after ?_
    | with_reducible refine (State.wr_pres _ _ _).after ?_ | split)

theorem State.noteUp_pres : ∀ s x2 x3, Pres s (State.noteUp s x2 x3) := by
  intro s x2 x3
  unfold State.noteUp
  repeat' (first | (fail_if_no_progress (with_reducible refine pres_lit ?_)) | with_reducible exact Pres.refl _)

theorem State.requeue_pres : ∀ s x2, Pres s (State.requeue s x2) := by
  intro s x2
  unfold State.requeue
  repeat' (first
    | (fail_if_no_progress (with_reducible refine pres_lit ?_)) | with_reducible exact Pres.refl _
    | with_reducible refine (State.modPort_pres _ _ _).after ?_)

theorem State.requeueDead_pres : ∀ s x2, Pres s (State.requeueDead s x2) := by
  intro s x2
  unfold State.requeueDead
  repeat' (first
    | with_reducible exact Pres.refl _ | intro _ | with_reducible refine (State.requeue_pres _ _).after ?_
    | with_reducible refine (pres_foldl ?_ _ _).after ?_)

theorem State.partitionJob_pres : ∀ s x2 x3, Pres s (State.partitionJob s x2 x3) := by
  intro s x2 x3
  unfold State.partitionJob
  repeat' (first | with_reducible exact Pres.refl _ | with_reducible refine (State.raise_pres _ _).after ?_)

theorem State.sendDeclaration_pres : ∀ s x2 x3, Pres s (State.sendDeclaration s x2 x3) := by
  intro s x2 x3
  unfold State.sendDeclaration
  repeat' (first
    | (fail_if_no_progress (with_reducible refine pres_lit ?_)) | with_reducible exact Pres.refl _
    | with_reducible refine (State.inject_pres _ _).after ?_)

theorem State.detectDead_pres : ∀ s, Pres s (State.detectDead s) := by
  intro s
  unfold State.detectDead
  repeat' (first
    | with_reducible exact Pres.refl _ | intro _ | with_reducible refine (State.sendDeclaration_pres _ _ _).after ?_
    | with_reducible refine (pres_foldl ?_ _ _).after ?_ | split)

theorem State.freeBuf_pres : ∀ s x2 x3, Pres s (State.freeBuf s x2 x3) := by
  intro s x2 x3
  unfold State.freeBuf
  repeat' (first | with_reducible exact Pres.refl _ | with_reducible refine (State.modPort_pres _ _ _).after ?_ | split)

theorem State.freeFlits_pres : ∀ s x2, Pres s (State.freeFlits s x2) := by
  intro s x2
  unfold State.freeFlits
  repeat' (first | with_reducible exact Pres.refl _ | with_reducible refine (State.freeBuf_pres _ _ _).after ?_ | split)

theorem State.startCompute_pres : ∀ s x2, Pres s (State.startCompute s x2) := by
  intro s x2
  unfold State.startCompute
  repeat' (first | (fail_if_no_progress (with_reducible refine pres_lit ?_)) | with_reducible exact Pres.refl _)

theorem execRecompute_pres : ∀ s, Keeps s (execRecompute s) := by
  intro s
  unfold execRecompute
  repeat' (first
    | with_reducible exact Pres.refl _ | with_reducible refine keeps_next ?_ | with_reducible refine (State.startCompute_pres _ _).after ?_
    | with_reducible refine (State.wr_pres _ _ _).after ?_ | split)

theorem State.countDetour_pres : ∀ s x2, Pres s (State.countDetour s x2) := by
  intro s x2
  unfold State.countDetour
  repeat' (first | with_reducible exact Pres.refl _ | with_reducible refine (State.bumpK_pres _ _ _).after ?_ | split)

theorem State.toPort_pres : ∀ s x2 x3 x4, Pres s (State.toPort s x2 x3 x4) := by
  intro s x2 x3 x4
  unfold State.toPort
  repeat' (first
    | with_reducible exact Pres.refl _ | with_reducible refine (State.freeFlits_pres _ _).after ?_
    | with_reducible refine (State.modPort_pres _ _ _).after ?_ | split)

theorem State.routeUni_pres : ∀ s x2, Pres s (State.routeUni s x2) := by
  intro s x2
  unfold State.routeUni
  repeat' (first
    | (fail_if_no_progress (with_reducible refine pres_lit ?_)) | with_reducible exact Pres.refl _
    | with_reducible refine (State.freeFlits_pres _ _).after ?_ | with_reducible refine (State.answerStatus_pres _ _ _).after ?_
    | with_reducible refine (State.bump_pres _ _ _).after ?_ | with_reducible refine (State.countDetour_pres _ _).after ?_
    | with_reducible refine (State.toPort_pres _ _ _ _).after ?_ | split | dsimp only)

theorem State.writeBank_pres : ∀ s x2 x3, Pres s (State.writeBank s x2 x3) := by
  intro s x2 x3
  unfold State.writeBank
  repeat' (first
    | with_reducible exact Pres.refl _ | intro _ | with_reducible refine (State.wr_pres _ _ _).after ?_
    | with_reducible refine (State.raise_pres _ _).after ?_ | with_reducible refine (pres_foldl ?_ _ _).after ?_ | split | dsimp only)

theorem State.flip_pres : ∀ s x2, Pres s (State.flip s x2) := by
  intro s x2
  unfold State.flip
  repeat' (first
    | (fail_if_no_progress (with_reducible refine pres_lit ?_)) | with_reducible exact Pres.refl _
    | with_reducible refine (State.bump_pres _ _ _).after ?_ | with_reducible refine (State.wr_pres _ _ _).after ?_
    | with_reducible refine (State.writeBank_pres _ _ _).after ?_)

theorem State.takeNotice_pres : ∀ s x2, Pres s (State.takeNotice s x2) := by
  intro s x2
  unfold State.takeNotice
  repeat' (first | with_reducible exact Pres.refl _ | with_reducible refine (State.takeHub_pres _ _).after ?_ | split)

theorem execLinkUpNotice_pres : ∀ x1 x2 s, Keeps s (execLinkUpNotice x1 x2 s) := by
  intro x1 x2 s
  unfold execLinkUpNotice
  repeat' (first
    | with_reducible exact Pres.refl _ | with_reducible refine keeps_next ?_ | with_reducible refine (State.takeNotice_pres _ _).after ?_
    | with_reducible refine (State.startCompute_pres _ _).after ?_ | with_reducible refine (State.noteUp_pres _ _ _).after ?_ | split)

theorem State.noteDown_pres : ∀ s x2 x3, Pres s (State.noteDown s x2 x3) := by
  intro s x2 x3
  unfold State.noteDown
  repeat' (first | (fail_if_no_progress (with_reducible refine pres_lit ?_)) | with_reducible exact Pres.refl _ | split)

theorem execLinkDownNotice_pres : ∀ x1 x2 x3 s, Keeps s (execLinkDownNotice x1 x2 x3 s) := by
  intro x1 x2 x3 s
  unfold execLinkDownNotice
  repeat' (first
    | with_reducible exact Pres.refl _ | with_reducible refine keeps_next ?_ | with_reducible refine (State.takeNotice_pres _ _).after ?_
    | with_reducible refine (State.detectDead_pres _).after ?_ | with_reducible refine (State.startCompute_pres _ _).after ?_
    | with_reducible refine (State.noteDown_pres _ _ _).after ?_ | split)

theorem execTableFlip_pres : ∀ s, Keeps s (execTableFlip s) := by
  intro s
  unfold execTableFlip
  repeat' (first
    | with_reducible exact Pres.refl _ | with_reducible refine keeps_next ?_ | with_reducible refine (State.flip_pres _ _).after ?_ | split)

theorem State.sendMisses_pres : ∀ s x2 x3, Pres s (State.sendMisses s x2 x3) := by
  intro s x2 x3
  unfold State.sendMisses
  repeat' (first
    | with_reducible exact Pres.refl _ | intro _ | with_reducible refine (State.inject_pres _ _).after ?_
    | with_reducible refine (pres_foldl ?_ _ _).after ?_ | split)

theorem State.mcCopies_pres : ∀ s x2 x3 x4, Pres s (State.mcCopies s x2 x3 x4) := by
  intro s x2 x3 x4
  unfold State.mcCopies
  repeat' (first
    | (fail_if_no_progress (with_reducible refine pres_lit ?_)) | with_reducible exact Pres.refl _ | intro _
    | with_reducible refine (State.countDetour_pres _ _).after ?_ | with_reducible refine (State.toPort_pres _ _ _ _).after ?_
    | with_reducible refine (State.sendMisses_pres _ _ _).after ?_ | with_reducible refine (pres_foldl ?_ _ _).after ?_ | split)

theorem State.routeMc_pres : ∀ s x2 x3, Pres s (State.routeMc s x2 x3) := by
  intro s x2 x3
  unfold State.routeMc
  repeat' (first
    | with_reducible exact Pres.refl _ | intro _ | with_reducible refine (State.sendMisses_pres _ _ _).after ?_
    | with_reducible refine (State.mcCopies_pres _ _ _ _).after ?_ | with_reducible refine (pres_foldl ?_ _ _).after ?_)

theorem State.routeHeld_pres : ∀ s x2, Pres s (State.routeHeld s x2) := by
  intro s x2
  unfold State.routeHeld
  repeat' (first
    | with_reducible exact Pres.refl _ | with_reducible refine (State.raise_pres _ _).after ?_
    | with_reducible refine (State.bump_pres _ _ _).after ?_ | with_reducible refine (State.freeFlits_pres _ _).after ?_
    | with_reducible refine (State.routeMc_pres _ _ _).after ?_ | with_reducible refine (State.routeUni_pres _ _).after ?_ | split)

theorem execPacketRoute_pres : ∀ x1 x2 s, Keeps s (execPacketRoute x1 x2 s) := by
  intro x1 x2 s
  unfold execPacketRoute
  repeat' (first
    | (fail_if_no_progress (with_reducible refine pres_lit ?_)) | with_reducible exact Pres.refl _ | with_reducible refine keeps_next ?_
    | with_reducible refine (State.routeHeld_pres _ _).after ?_)

theorem State.headTimeout_pres : ∀ s x2 x3, Pres s (State.headTimeout s x2 x3) := by
  intro s i l
  induction l generalizing i with
  | nil => exact Pres.refl _
  | cons p ps ih =>
    unfold State.headTimeout
    extract_lets n
    split
    · exact (State.freeFlits_pres _ _).after (State.modPort_pres _ _ _)
    · exact ih _

theorem execRouterHeadTimeout_pres : ∀ x1 s, Keeps s (execRouterHeadTimeout x1 s) := by
  intro x1 s
  unfold execRouterHeadTimeout
  repeat' (first
    | (fail_if_no_progress (with_reducible refine pres_lit ?_)) | with_reducible exact Pres.refl _ | with_reducible refine keeps_next ?_
    | with_reducible refine (State.freeFlits_pres _ _).after ?_ | with_reducible refine (State.headTimeout_pres _ _ _).after ?_ | split)

theorem execPartitionTimeout_pres : ∀ s, Keeps s (execPartitionTimeout s) := by
  intro s
  unfold execPartitionTimeout
  repeat' (first
    | (fail_if_no_progress (with_reducible refine pres_lit ?_)) | with_reducible exact Pres.refl _ | intro _
    | with_reducible refine keeps_next ?_ | with_reducible refine (State.failTask_pres _ _ _).after ?_
    | with_reducible refine (State.wr_pres _ _ _).after ?_ | with_reducible refine (State.partitionJob_pres _ _ _).after ?_
    | with_reducible refine (pres_foldl ?_ _ _).after ?_ | split | dsimp only)

theorem State.linkNotice_pres : ∀ s x2 x3 x4, Pres s (State.linkNotice s x2 x3 x4) := by
  intro s x2 x3 x4
  unfold State.linkNotice
  repeat' (first | with_reducible exact Pres.refl _ | with_reducible refine (State.sendFree_pres _ _ _).after ?_)

theorem State.selfDeclare_pres : ∀ s, Pres s (State.selfDeclare s) := by
  intro s
  unfold State.selfDeclare
  repeat' (first
    | with_reducible exact Pres.refl _ | with_reducible refine (State.failAll_pres _ _).after ?_
    | with_reducible refine (State.wr_pres _ _ _).after ?_ | split)

theorem State.selfCheck_pres : ∀ s, Pres s (State.selfCheck s) := by
  intro s
  unfold State.selfCheck
  repeat' (first | with_reducible exact Pres.refl _ | with_reducible refine (State.selfDeclare_pres _).after ?_ | split)

theorem State.linkLost_pres : ∀ s x2 x3, Pres s (State.linkLost s x2 x3) := by
  intro s x2 x3
  unfold State.linkLost
  repeat' (first
    | (fail_if_no_progress (with_reducible refine pres_lit ?_)) | with_reducible exact Pres.refl _
    | with_reducible refine (State.noteDown_pres _ _ _).after ?_ | with_reducible refine (State.selfCheck_pres _).after ?_
    | with_reducible refine (State.detectDead_pres _).after ?_ | with_reducible refine (State.startCompute_pres _ _).after ?_
    | with_reducible refine (State.linkNotice_pres _ _ _ _).after ?_ | split | dsimp only)

theorem State.linkFlit_pres : ∀ s x2 x3, Pres s (State.linkFlit s x2 x3) := by
  intro s x2 x3
  unfold State.linkFlit
  repeat' (first | with_reducible exact Pres.refl _ | with_reducible refine (State.modPort_pres _ _ _).after ?_)

theorem State.cleanFail_pres : ∀ s x2, Pres s (State.cleanFail s x2) := by
  intro s x2
  unfold State.cleanFail
  repeat' (first | with_reducible exact Pres.refl _ | with_reducible refine (State.modPort_pres _ _ _).after ?_ | split)

theorem State.dropCopies_pres : ∀ s x2 x3, Pres s (State.dropCopies s x2 x3) := by
  intro s x2 x3
  unfold State.dropCopies
  repeat' (first | (fail_if_no_progress (with_reducible refine pres_lit ?_)) | with_reducible exact Pres.refl _)

theorem State.abandonRx_pres : ∀ s x2 x3, Pres s (State.abandonRx s x2 x3) := by
  intro s x2 x3
  unfold State.abandonRx
  repeat' (first
    | with_reducible exact Pres.refl _ | with_reducible refine (State.dropCopies_pres _ _ _).after ?_
    | with_reducible refine (State.freeBuf_pres _ _ _).after ?_ | with_reducible refine (State.modPort_pres _ _ _).after ?_ | split)

theorem State.abandonAll_pres : ∀ s x2, Pres s (State.abandonAll s x2) := by
  intro s x2
  unfold State.abandonAll
  repeat' (first
    | with_reducible exact Pres.refl _ | intro _ | with_reducible refine (State.abandonRx_pres _ _ _).after ?_
    | with_reducible refine (pres_foldl ?_ _ _).after ?_)

theorem State.setLk_pres : ∀ s x2 x3, Pres s (State.setLk s x2 x3) := by
  intro s x2 x3
  unfold State.setLk
  repeat' (first | with_reducible exact Pres.refl _ | with_reducible refine (State.wr_pres _ _ _).after ?_)

theorem State.bringUp_pres : ∀ s x2, Pres s (State.bringUp s x2) := by
  intro s x2
  unfold State.bringUp
  repeat' (first
    | with_reducible exact Pres.refl _ | with_reducible refine (State.setLk_pres _ _ _).after ?_
    | with_reducible refine (State.modPort_pres _ _ _).after ?_ | split)

theorem State.opticsDown_pres : ∀ s x2, Pres s (State.opticsDown s x2) := by
  intro s x2
  unfold State.opticsDown
  repeat' (first
    | with_reducible exact Pres.refl _
    | with_reducible refine (State.wr_pres _ _ _).after ?_ | split | dsimp only)

theorem State.takeDown_pres : ∀ s x2 x3, Pres s (State.takeDown s x2 x3) := by
  intro s x2 x3
  unfold State.takeDown
  repeat' (first
    | with_reducible refine (State.opticsDown_pres _ _).after ?_
    | with_reducible exact Pres.refl _ | intro _ | with_reducible refine (State.wr_pres _ _ _).after ?_
    | with_reducible refine (State.bump_pres _ _ _).after ?_ | with_reducible refine (State.raise_pres _ _).after ?_
    | with_reducible refine (State.abandonAll_pres _ _).after ?_ | with_reducible refine (State.requeue_pres _ _).after ?_
    | with_reducible refine (State.modPort_pres _ _ _).after ?_ | with_reducible refine (State.freeBuf_pres _ _ _).after ?_
    | with_reducible refine (State.setLk_pres _ _ _).after ?_ | with_reducible refine (State.bringUp_pres _ _).after ?_
    | with_reducible refine (State.linkLost_pres _ _ _).after ?_ | with_reducible refine (pres_foldl ?_ _ _).after ?_ | split | dsimp only)

theorem State.ward_pres : ∀ s x2, Pres s (State.ward s x2) := by
  intro s x2
  unfold State.ward
  repeat' (first
    | with_reducible exact Pres.refl _ | with_reducible refine (State.takeDown_pres _ _ _).after ?_
    | with_reducible refine (State.raise_pres _ _).after ?_ | with_reducible refine (State.bump_pres _ _ _).after ?_)

theorem State.violate_pres : ∀ s x2 x3 x4 x5, Pres s (State.violate s x2 x3 x4 x5) := by
  intro s x2 x3 x4 x5
  unfold State.violate
  repeat' (first
    | with_reducible exact Pres.refl _ | with_reducible refine (State.answerStatus_pres _ _ _).after ?_
    | with_reducible refine (State.modPort_pres _ _ _).after ?_ | with_reducible refine (State.linkFlit_pres _ _ _).after ?_
    | with_reducible refine (State.raise_pres _ _).after ?_ | with_reducible refine (State.bump_pres _ _ _).after ?_
    | with_reducible refine (State.wr_pres _ _ _).after ?_ | with_reducible refine (State.cleanFail_pres _ _).after ?_
    | with_reducible refine (State.ward_pres _ _).after ?_ | split | dsimp only)

theorem State.creditReports_pres : ∀ s x2, Pres s (State.creditReports s x2).2 := by
  intro s x2
  unfold State.creditReports
  repeat' (first | with_reducible exact Pres.refl _ | with_reducible refine (State.modPort_pres _ _ _).after ?_)

theorem State.putFrame_pres : ∀ s x2 x3, Pres s (State.putFrame s x2 x3) := by
  intro s x2 x3
  unfold State.putFrame
  repeat' (first
    | with_reducible exact Pres.refl _ | with_reducible refine (State.creditReports_pres _ _).after ?_
    | with_reducible refine (State.modPort_pres _ _ _).after ?_)

theorem State.onHeartbeat_pres : ∀ s x2 x3, Pres s (State.onHeartbeat s x2 x3) := by
  intro s x2 x3
  unfold State.onHeartbeat
  repeat' (first
    | with_reducible exact Pres.refl _ | with_reducible refine (State.cleanFail_pres _ _).after ?_
    | with_reducible refine (State.modPort_pres _ _ _).after ?_ | split)

theorem State.onVcsel_pres : ∀ s x2 x3, Pres s (State.onVcsel s x2 x3) := by
  intro s x2 x3
  unfold State.onVcsel
  repeat' (first
    | with_reducible exact Pres.refl _ | with_reducible refine (State.violate_pres _ _ _ _ _).after ?_
    | with_reducible refine (State.modPort_pres _ _ _).after ?_ | split)

theorem State.onAbort_pres : ∀ s x2 x3, Pres s (State.onAbort s x2 x3) := by
  intro s x2 x3
  unfold State.onAbort
  repeat' (first | with_reducible exact Pres.refl _ | with_reducible refine (State.abandonRx_pres _ _ _).after ?_)

theorem State.onSyncReq_pres : ∀ s x2, Pres s (State.onSyncReq s x2) := by
  intro s x2
  unfold State.onSyncReq
  repeat' (first | with_reducible exact Pres.refl _ | with_reducible refine (State.linkFlit_pres _ _ _).after ?_)

theorem State.onSync_pres : ∀ s x2 x3, Pres s (State.onSync s x2 x3) := by
  intro s x2 x3
  unfold State.onSync
  repeat' (first
    | with_reducible exact Pres.refl _ | intro _ | with_reducible refine (State.modPort_pres _ _ _).after ?_
    | with_reducible refine (pres_foldl ?_ _ _).after ?_)

theorem State.onLaneMask_pres : ∀ s x2 x3, Pres s (State.onLaneMask s x2 x3) := by
  intro s x2 x3
  unfold State.onLaneMask
  repeat' (first | with_reducible exact Pres.refl _ | with_reducible refine (State.modPort_pres _ _ _).after ?_)

theorem State.announce_pres : ∀ s x2, Pres s (State.announce s x2) := by
  intro s x2
  unfold State.announce
  repeat' (first
    | with_reducible exact Pres.refl _ | with_reducible refine (State.modPort_pres _ _ _).after ?_
    | with_reducible refine (State.linkFlit_pres _ _ _).after ?_ | split | dsimp only)

theorem State.askLanes_pres : ∀ s x2 x3, Pres s (State.askLanes s x2 x3) := by
  intro s x2 x3
  unfold State.askLanes
  repeat' (first
    | with_reducible exact Pres.refl _ | with_reducible refine (State.announce_pres _ _).after ?_
    | with_reducible refine (State.modPort_pres _ _ _).after ?_)

theorem State.onLaneReq_pres : ∀ s x2 x3 x4, Pres s (State.onLaneReq s x2 x3 x4) := by
  intro s x2 x3 x4
  unfold State.onLaneReq
  repeat' (first | with_reducible exact Pres.refl _ | with_reducible refine (State.askLanes_pres _ _ _).after ?_)

theorem State.onViolation_pres : ∀ s x2, Pres s (State.onViolation s x2) := by
  intro s x2
  unfold State.onViolation
  repeat' (first | with_reducible exact Pres.refl _ | with_reducible refine (State.cleanFail_pres _ _).after ?_)

theorem State.onDown_pres : ∀ s x2, Pres s (State.onDown s x2) := by
  intro s x2
  unfold State.onDown
  repeat' (first | with_reducible exact Pres.refl _ | with_reducible refine (State.takeDown_pres _ _ _).after ?_)

theorem State.tryClean_pres : ∀ s x2, Pres s (State.tryClean s x2) := by
  intro s x2
  unfold State.tryClean
  repeat' (first
    | with_reducible exact Pres.refl _ | with_reducible refine (State.setLk_pres _ _ _).after ?_
    | with_reducible refine (State.modPort_pres _ _ _).after ?_ | split | dsimp only)

theorem State.keyFail_pres : ∀ s x2 x3 x4, Pres s (State.keyFail s x2 x3 x4) := by
  intro s x2 x3 x4
  unfold State.keyFail
  repeat' (first
    | with_reducible exact Pres.refl _ | with_reducible refine (State.setLk_pres _ _ _).after ?_
    | with_reducible refine (State.modPort_pres _ _ _).after ?_ | with_reducible refine (State.wr_pres _ _ _).after ?_
    | with_reducible refine (State.bump_pres _ _ _).after ?_ | with_reducible refine (State.raise_pres _ _).after ?_ | split | dsimp only)

theorem State.onKey_pres : ∀ s x2 x3 x4 x5 x6, Pres s (State.onKey s x2 x3 x4 x5 x6) := by
  intro s x2 x3 x4 x5 x6
  unfold State.onKey
  repeat' (first
    | with_reducible exact Pres.refl _ | with_reducible refine (State.wr_pres _ _ _).after ?_
    | with_reducible refine (State.modPort_pres _ _ _).after ?_ | with_reducible refine (State.tryClean_pres _ _).after ?_
    | with_reducible refine (State.keyFail_pres _ _ _ _).after ?_ | split | dsimp only)

theorem State.onCreditInit_pres : ∀ s x2 x3, Pres s (State.onCreditInit s x2 x3) := by
  intro s x2 x3
  unfold State.onCreditInit
  repeat' (first
    | with_reducible exact Pres.refl _ | with_reducible refine (State.tryClean_pres _ _).after ?_
    | with_reducible refine (State.modPort_pres _ _ _).after ?_ | split)

theorem State.onReject_pres : ∀ s x2, Pres s (State.onReject s x2) := by
  intro s x2
  unfold State.onReject
  repeat' (first
    | with_reducible exact Pres.refl _ | with_reducible refine (State.keyFail_pres _ _ _ _).after ?_
    | with_reducible refine (State.modPort_pres _ _ _).after ?_ | split)

theorem State.onLink_pres : ∀ s x2 x3, Pres s (State.onLink s x2 x3) := by
  intro s x2 x3
  unfold State.onLink
  repeat' (first
    | with_reducible exact Pres.refl _ | with_reducible refine (State.onHeartbeat_pres _ _ _).after ?_
    | with_reducible refine (State.onVcsel_pres _ _ _).after ?_ | with_reducible refine (State.onAbort_pres _ _ _).after ?_
    | with_reducible refine (State.onSyncReq_pres _ _).after ?_ | with_reducible refine (State.onSync_pres _ _ _).after ?_
    | with_reducible refine (State.onLaneMask_pres _ _ _).after ?_ | with_reducible refine (State.onLaneReq_pres _ _ _ _).after ?_
    | with_reducible refine (State.onViolation_pres _ _).after ?_ | with_reducible refine (State.onDown_pres _ _).after ?_
    | with_reducible refine (State.onKey_pres _ _ _ _ _ _).after ?_ | with_reducible refine (State.onCreditInit_pres _ _ _).after ?_
    | with_reducible refine (State.onReject_pres _ _).after ?_ | with_reducible refine (State.violate_pres _ _ _ _ _).after ?_ | split)

theorem State.flitRow_pres : ∀ s x2 x3, Pres s (State.flitRow s x2 x3) := by
  intro s x2 x3
  unfold State.flitRow
  repeat' (first | with_reducible exact Pres.refl _ | with_reducible refine (State.onLink_pres _ _ _).after ?_ | split)

theorem execVcsel_pres : ∀ x1 x2 s, Keeps s (execVcsel x1 x2 s) := by
  intro x1 x2 s
  unfold execVcsel
  repeat' (first
    | with_reducible exact Pres.refl _ | with_reducible refine keeps_next ?_ | with_reducible refine (State.flitRow_pres _ _ _).after ?_)

theorem State.edgeCharge_pres : ∀ s x2 x3, Pres s (State.edgeCharge s x2 x3) := by
  intro s x2 x3
  unfold State.edgeCharge
  repeat' (first | with_reducible exact Pres.refl _ | with_reducible refine (State.modPort_pres _ _ _).after ?_ | split)

theorem State.startRx_pres : ∀ s x2 x3 x4 x5 x6 x7, Pres s (State.startRx s x2 x3 x4 x5 x6 x7) := by
  intro s x2 x3 x4 x5 x6 x7
  unfold State.startRx
  repeat' (first
    | (fail_if_no_progress (with_reducible refine pres_lit ?_)) | with_reducible exact Pres.refl _
    | with_reducible refine (State.modPort_pres _ _ _).after ?_)

theorem State.rxHead_pres : ∀ s x2 x3, Pres s (State.rxHead s x2 x3) := by
  intro s x2 x3
  unfold State.rxHead
  repeat' (first
    | (fail_if_no_progress (with_reducible refine pres_lit ?_)) | with_reducible exact Pres.refl _
    | with_reducible refine (State.abandonRx_pres _ _ _).after ?_ | with_reducible refine (State.edgeCharge_pres _ _ _).after ?_
    | with_reducible refine (State.freeBuf_pres _ _ _).after ?_ | with_reducible refine (State.startRx_pres _ _ _ _ _ _ _).after ?_
    | with_reducible refine (State.violate_pres _ _ _ _ _).after ?_ | split)

theorem State.feed_pres : ∀ s x2 x3 x4, Pres s (State.feed s x2 x3 x4) := by
  intro s x2 x3 x4
  unfold State.feed
  repeat' (first | (fail_if_no_progress (with_reducible refine pres_lit ?_)) | with_reducible exact Pres.refl _)

theorem State.rxBody_pres : ∀ s x2 x3, Pres s (State.rxBody s x2 x3) := by
  intro s x2 x3
  unfold State.rxBody
  repeat' (first
    | with_reducible exact Pres.refl _ | with_reducible refine (State.violate_pres _ _ _ _ _).after ?_
    | with_reducible refine (State.modPort_pres _ _ _).after ?_ | with_reducible refine (State.freeBuf_pres _ _ _).after ?_
    | with_reducible refine (State.dropCopies_pres _ _ _).after ?_ | with_reducible refine (State.feed_pres _ _ _ _).after ?_ | split
    | dsimp only)

theorem State.onFlit_pres : ∀ s x2 x3, Pres s (State.onFlit s x2 x3) := by
  intro s x2 x3
  unfold State.onFlit
  repeat' (first
    | with_reducible exact Pres.refl _ | with_reducible refine (State.rxHead_pres _ _ _).after ?_
    | with_reducible refine (State.rxBody_pres _ _ _).after ?_ | with_reducible refine (State.onLink_pres _ _ _).after ?_ | split)

theorem execLaneMask_pres : ∀ x1 x2 x3 s, Keeps s (execLaneMask x1 x2 x3 s) := by
  intro x1 x2 x3 s
  unfold execLaneMask
  repeat' (first
    | with_reducible exact Pres.refl _ | with_reducible refine keeps_next ?_ | with_reducible refine (State.flitRow_pres _ _ _).after ?_)

theorem execTrainingRetry_pres : ∀ x1 s, Keeps s (execTrainingRetry x1 s) := by
  intro x1 s
  unfold execTrainingRetry
  repeat' (first
    | with_reducible exact Pres.refl _ | with_reducible refine keeps_next ?_ | with_reducible refine (State.bringUp_pres _ _).after ?_
    | with_reducible refine (State.modPort_pres _ _ _).after ?_ | split)

theorem execSyncReq_pres : ∀ x1 s, Keeps s (execSyncReq x1 s) := by
  intro x1 s
  unfold execSyncReq
  repeat' (first
    | with_reducible exact Pres.refl _ | with_reducible refine keeps_next ?_ | with_reducible refine (State.flitRow_pres _ _ _).after ?_)

theorem State.countSlot_pres : ∀ s x2 x3, Pres s (State.countSlot s x2 x3) := by
  intro s x2 x3
  unfold State.countSlot
  repeat' (first
    | with_reducible exact Pres.refl _ | with_reducible refine (State.bumpK_pres _ _ _).after ?_
    | with_reducible refine (State.modPort_pres _ _ _).after ?_ | split | dsimp only)

theorem State.countOther_pres : ∀ s x2 x3, Pres s (State.countOther s x2 x3) := by
  intro s x2 x3
  unfold State.countOther
  repeat' (first
    | with_reducible exact Pres.refl _ | intro _ | with_reducible refine (State.countSlot_pres _ _ _).after ?_
    | with_reducible refine (pres_foldl ?_ _ _).after ?_)

theorem State.sendSlot_pres : ∀ s x2 x3, Pres s (State.sendSlot s x2 x3).2 := by
  intro s x2 x3
  unfold State.sendSlot
  repeat' (first
    | with_reducible exact Pres.refl _ | with_reducible refine (State.countSlot_pres _ _ _).after ?_
    | with_reducible refine (State.modPort_pres _ _ _).after ?_ | with_reducible refine (State.freeFlits_pres _ _).after ?_
    | with_reducible refine (State.countOther_pres _ _ _).after ?_ | with_reducible refine (State.freeBuf_pres _ _ _).after ?_ | split
    | dsimp only)

theorem execReject_pres : ∀ x1 x2 x3 x4 s, Keeps s (execReject x1 x2 x3 x4 s) := by
  intro x1 x2 x3 x4 s
  unfold execReject
  repeat' (first
    | with_reducible exact Pres.refl _ | with_reducible refine keeps_next ?_ | with_reducible refine (State.flitRow_pres _ _ _).after ?_)

theorem execDown_pres : ∀ x1 x2 s, Keeps s (execDown x1 x2 s) := by
  intro x1 x2 s
  unfold execDown
  repeat' (first
    | with_reducible exact Pres.refl _ | with_reducible refine keeps_next ?_ | with_reducible refine (State.flitRow_pres _ _ _).after ?_)

theorem State.onAck_pres : ∀ s x2 x3, Pres s (State.onAck s x2 x3) := by
  intro s x2 x3
  unfold State.onAck
  repeat' (first
    | with_reducible exact Pres.refl _ | with_reducible refine (State.modPort_pres _ _ _).after ?_
    | with_reducible refine (State.violate_pres _ _ _ _ _).after ?_ | split | dsimp only)

theorem State.lkRetrain_pres : ∀ s x2, Pres s (State.lkRetrain s x2) := by
  intro s x2
  unfold State.lkRetrain
  repeat' (first
    | with_reducible exact Pres.refl _ | with_reducible refine (State.bringUp_pres _ _).after ?_
    | with_reducible refine (State.takeDown_pres _ _ _).after ?_ | split)

theorem State.toSafe_pres : ∀ s x2, Pres s (State.toSafe s x2) := by
  intro s x2
  unfold State.toSafe
  repeat' (first | with_reducible exact Pres.refl _ | with_reducible refine (State.wr_pres _ _ _).after ?_)

theorem State.checkLanes_pres : ∀ s x2, Pres s (State.checkLanes s x2) := by
  intro s x2
  unfold State.checkLanes
  repeat' (first
    | with_reducible exact Pres.refl _ | with_reducible refine (State.takeDown_pres _ _ _).after ?_
    | with_reducible refine (State.toSafe_pres _ _).after ?_ | split)

theorem State.loseLane_pres : ∀ s x2 x3, Pres s (State.loseLane s x2 x3) := by
  intro s x2 x3
  unfold State.loseLane
  repeat' (first
    | with_reducible exact Pres.refl _ | with_reducible refine (State.checkLanes_pres _ _).after ?_
    | with_reducible refine (State.linkFlit_pres _ _ _).after ?_ | split)

theorem State.laneMarker_pres : ∀ s x2 x3, Pres s (State.laneMarker s x2 x3) := by
  intro s x2 x3
  unfold State.laneMarker
  repeat' (first
    | with_reducible exact Pres.refl _ | with_reducible refine (State.wr_pres _ _ _).after ?_
    | with_reducible refine (State.modPort_pres _ _ _).after ?_ | with_reducible refine (State.loseLane_pres _ _ _).after ?_ | split
    | dsimp only)

theorem State.discardFrame_pres : ∀ s x2, Pres s (State.discardFrame s x2) := by
  intro s x2
  unfold State.discardFrame
  repeat' (first
    | with_reducible exact Pres.refl _ | with_reducible refine (State.bump_pres _ _ _).after ?_
    | with_reducible refine (State.modPort_pres _ _ _).after ?_ | with_reducible refine (State.abandonAll_pres _ _).after ?_
    | with_reducible refine (State.cleanFail_pres _ _).after ?_ | with_reducible refine (State.linkFlit_pres _ _ _).after ?_
    | with_reducible refine (State.takeDown_pres _ _ _).after ?_ | split | dsimp only)

theorem State.onNak_pres : ∀ s x2 x3, Pres s (State.onNak s x2 x3) := by
  intro s x2 x3
  unfold State.onNak
  repeat' (first | with_reducible exact Pres.refl _ | with_reducible refine (State.modPort_pres _ _ _).after ?_ | split | dsimp only)

theorem State.onCredit_pres : ∀ s x2 x3 x4, Pres s (State.onCredit s x2 x3 x4) := by
  intro s x2 x3 x4
  unfold State.onCredit
  repeat' (first
    | with_reducible exact Pres.refl _ | with_reducible refine (State.violate_pres _ _ _ _ _).after ?_
    | with_reducible refine (State.modPort_pres _ _ _).after ?_ | split | dsimp only)

theorem State.onSlots_pres : ∀ s x2 x3, Pres s (State.onSlots s x2 x3) := by
  intro s x2 x3
  unfold State.onSlots
  repeat' (first
    | with_reducible exact Pres.refl _ | intro _ | with_reducible refine (State.onFlit_pres _ _ _).after ?_
    | with_reducible refine (pres_foldl ?_ _ _).after ?_)

theorem State.takeFrame_pres : ∀ s x2 x3 x4, Pres s (State.takeFrame s x2 x3 x4) := by
  intro s x2 x3 x4
  unfold State.takeFrame
  have h1 : ∀ s : State, Pres s (if hasRetry x2 then (if x4.nak then (s.onAck x2 x4.ack).onNak x2 x4.ack else s.onAck x2 x4.ack) else s) := fun s =>
    pres_ite (pres_ite ((State.onNak_pres _ _ _).after (State.onAck_pres _ _ _)) (State.onAck_pres _ _ _)) (Pres.refl _)
  have h2 : ∀ s : State, Pres s (x4.credits.foldl (fun s c => if s.linkRuns x2 then s.onCredit x2 c.1 c.2 else s) s) :=
    pres_foldl (fun s c => pres_ite (State.onCredit_pres _ _ _ _) (Pres.refl _)) _
  have h := fun s => (h2 _).after (h1 s)
  have hm : ∀ (s : State) (f : Port → Port), Pres s (s.modPort x2 f) := fun s f => State.modPort_pres s x2 f
  refine pres_ite ?_ (pres_ite (Pres.refl _) (pres_ite ?_ ?_))
  · exact pres_ite (pres_ite ((State.setLk_pres _ _ _).after (hm _ _)) (hm _ _)) (pres_ite (hm _ _) ((State.bump_pres _ _ _).after (hm _ _)))
  · exact (pres_ite (hm _ _) (State.discardFrame_pres _ _)).after ((State.cleanFail_pres _ _).after (State.bump_pres _ _ _))
  · exact (pres_ite (Pres.refl _) (pres_ite ((State.onSlots_pres _ _ _).after (hm _ _)) (pres_ite (State.onSlots_pres _ _ _)
      (pres_ite ((State.onSlots_pres _ _ _).after (hm _ _)) (pres_ite (Pres.refl _) (hm _ _)))))).after (h s)

theorem execFrameRx_pres : ∀ x1 x2 s, Keeps s (execFrameRx x1 x2 s) := by
  intro x1 x2 s
  unfold execFrameRx
  repeat' (first
    | with_reducible exact Pres.refl _ | with_reducible refine keeps_next ?_ | with_reducible refine (State.bump_pres _ _ _).after ?_
    | with_reducible refine (State.bumpK_pres _ _ _).after ?_ | with_reducible refine (State.takeFrame_pres _ _ _ _).after ?_ | split)

theorem execRetrain_pres : ∀ x1 s, Keeps s (execRetrain x1 s) := by
  intro x1 s
  unfold execRetrain
  repeat' (first
    | with_reducible exact Pres.refl _ | with_reducible refine keeps_next ?_ | with_reducible refine (State.lkRetrain_pres _ _).after ?_
    | split)

theorem State.fillSlots_pres : ∀ s x2 x3 x4, Pres s (State.fillSlots s x2 x3 x4).2 := by
  intro s p n
  induction n generalizing s with
  | zero => intro acc; exact Pres.refl _
  | succ n ih =>
    intro acc
    unfold State.fillSlots
    split
    · exact Pres.refl _
    · extract_lets r
      have hr : Pres s r.2 := by
        unfold r
        split
        · exact State.sendSlot_pres _ _ _
        · exact Pres.refl _
      split
      · exact (ih _ _).after (State.countSlot_pres _ _ _)
      · exact (ih _ _).after hr


theorem State.timedFlits_pres : ∀ s x2, Pres s (State.timedFlits s x2).2 := by
  intro s x2
  unfold State.timedFlits
  repeat' (first | with_reducible exact Pres.refl _ | with_reducible refine (State.modPort_pres _ _ _).after ?_)

theorem execLinkDown_pres : ∀ x1 x2 s, Keeps s (execLinkDown x1 x2 s) := by
  intro x1 x2 s
  unfold execLinkDown
  repeat' (first
    | with_reducible exact Pres.refl _ | with_reducible refine keeps_next ?_ | with_reducible refine (State.takeDown_pres _ _ _).after ?_
    | split)

theorem execKeyingRepeat_pres : ∀ x1 s, Keeps s (execKeyingRepeat x1 s) := by
  intro x1 s
  unfold execKeyingRepeat
  repeat' (first
    | with_reducible exact Pres.refl _ | with_reducible refine keeps_next ?_ | with_reducible refine (State.setLk_pres _ _ _).after ?_
    | with_reducible refine (State.modPort_pres _ _ _).after ?_ | split)

theorem execSync_pres : ∀ x1 x2 s, Keeps s (execSync x1 x2 s) := by
  intro x1 x2 s
  unfold execSync
  repeat' (first
    | with_reducible exact Pres.refl _ | with_reducible refine keeps_next ?_ | with_reducible refine (State.flitRow_pres _ _ _).after ?_)

theorem State.resendFrame_pres : ∀ s x2 x3 x4, Pres s (State.resendFrame s x2 x3 x4) := by
  intro s x2 x3 x4
  unfold State.resendFrame
  repeat' (first
    | with_reducible exact Pres.refl _ | with_reducible refine (pres_of2 (by assumption) (State.creditReports_pres _ _)).after ?_
    | with_reducible refine (State.bumpK_pres _ _ _).after ?_ | with_reducible refine (State.modPort_pres _ _ _).after ?_
    | with_reducible refine (State.takeDown_pres _ _ _).after ?_ | split | dsimp only)

theorem State.lkEnable_pres : ∀ s x2 x3, Pres s (State.lkEnable s x2 x3) := by
  intro s x2 x3
  unfold State.lkEnable
  repeat' (first
    | with_reducible exact Pres.refl _ | with_reducible refine (State.wrb_pres _ _ _).after ?_
    | with_reducible refine (State.bringUp_pres _ _).after ?_ | with_reducible refine (State.setLk_pres _ _ _).after ?_
    | with_reducible refine (State.takeDown_pres _ _ _).after ?_ | split | dsimp only)

theorem execTrainingMarkerRx_pres : ∀ x1 x2 x3 x4 x5 s, Keeps s (execTrainingMarkerRx x1 x2 x3 x4 x5 s) := by
  intro x1 x2 x3 x4 x5 s
  unfold execTrainingMarkerRx
  repeat' (first
    | with_reducible exact Pres.refl _ | with_reducible refine keeps_next ?_ | with_reducible refine (State.modPort_pres _ _ _).after ?_
    | with_reducible refine (State.linkFlit_pres _ _ _).after ?_ | with_reducible refine (State.wr_pres _ _ _).after ?_ | split | dsimp only)

theorem execHeartbeatTimeout_pres : ∀ x1 s, Keeps s (execHeartbeatTimeout x1 s) := by
  intro x1 s
  unfold execHeartbeatTimeout
  repeat' (first
    | with_reducible exact Pres.refl _ | with_reducible refine keeps_next ?_ | with_reducible refine (State.takeDown_pres _ _ _).after ?_
    | split)

theorem execHeartbeat_pres : ∀ x1 x2 x3 x4 x5 s, Keeps s (execHeartbeat x1 x2 x3 x4 x5 s) := by
  intro x1 x2 x3 x4 x5 s
  unfold execHeartbeat
  repeat' (first
    | with_reducible exact Pres.refl _ | with_reducible refine keeps_next ?_ | with_reducible refine (State.flitRow_pres _ _ _).after ?_)

theorem execKey_pres : ∀ x1 x2 x3 x4 x5 x6 x7 s, Keeps s (execKey x1 x2 x3 x4 x5 x6 x7 s) := by
  intro x1 x2 x3 x4 x5 x6 x7 s
  unfold execKey
  repeat' (first
    | with_reducible exact Pres.refl _ | with_reducible refine keeps_next ?_ | with_reducible refine (State.flitRow_pres _ _ _).after ?_)

theorem execMarkerRx_pres : ∀ x1 x2 s, Keeps s (execMarkerRx x1 x2 s) := by
  intro x1 x2 s
  unfold execMarkerRx
  repeat' (first
    | with_reducible exact Pres.refl _ | intro _ | with_reducible refine keeps_next ?_
    | with_reducible refine (State.checkLanes_pres _ _).after ?_ | with_reducible refine (State.laneMarker_pres _ _ _).after ?_
    | with_reducible refine (pres_foldl ?_ _ _).after ?_ | split)

theorem execViolation_pres : ∀ x1 x2 x3 x4 s, Keeps s (execViolation x1 x2 x3 x4 s) := by
  intro x1 x2 x3 x4 s
  unfold execViolation
  repeat' (first
    | with_reducible exact Pres.refl _ | with_reducible refine keeps_next ?_ | with_reducible refine (State.flitRow_pres _ _ _).after ?_)

theorem State.afterMask_pres : ∀ s x2 x3, Pres s (State.afterMask s x2 x3) := by
  intro s x2 x3
  unfold State.afterMask
  repeat' (first
    | with_reducible exact Pres.refl _ | with_reducible refine (State.bump_pres _ _ _).after ?_
    | with_reducible refine (State.wr_pres _ _ _).after ?_ | with_reducible refine (State.modPort_pres _ _ _).after ?_ | split | dsimp only)

theorem execWardExpiry_pres : ∀ x1 s, Keeps s (execWardExpiry x1 s) := by
  intro x1 s
  unfold execWardExpiry
  repeat' (first
    | with_reducible exact Pres.refl _ | with_reducible refine keeps_next ?_ | with_reducible refine (State.bringUp_pres _ _).after ?_
    | with_reducible refine (State.setLk_pres _ _ _).after ?_ | split)

theorem execTrainingTimeout_pres : ∀ x1 s, Keeps s (execTrainingTimeout x1 s) := by
  intro x1 s
  unfold execTrainingTimeout
  repeat' (first
    | with_reducible exact Pres.refl _ | with_reducible refine keeps_next ?_ | with_reducible refine (State.modPort_pres _ _ _).after ?_
    | with_reducible refine (State.raise_pres _ _).after ?_ | split | dsimp only)

theorem execLaneReq_pres : ∀ x1 x2 x3 s, Keeps s (execLaneReq x1 x2 x3 s) := by
  intro x1 x2 x3 s
  unfold execLaneReq
  repeat' (first
    | with_reducible exact Pres.refl _ | with_reducible refine keeps_next ?_ | with_reducible refine (State.flitRow_pres _ _ _).after ?_)

theorem execMarkerTx_pres : ∀ x1 s, Keeps s (execMarkerTx x1 s) := by
  intro x1 s
  unfold execMarkerTx
  repeat' (first
    | with_reducible exact Pres.refl _ | with_reducible refine keeps_next ?_ | with_reducible refine (State.modPort_pres _ _ _).after ?_
    | with_reducible refine (State.wr_pres _ _ _).after ?_ | with_reducible refine (State.announce_pres _ _).after ?_
    | with_reducible refine (State.afterMask_pres _ _ _).after ?_ | split)

theorem execCreditInit_pres : ∀ x1 x2 s, Keeps s (execCreditInit x1 x2 s) := by
  intro x1 x2 s
  unfold execCreditInit
  repeat' (first
    | with_reducible exact Pres.refl _ | with_reducible refine keeps_next ?_ | with_reducible refine (State.flitRow_pres _ _ _).after ?_)

theorem execFrameTx_pres : ∀ x1 s, Keeps s (execFrameTx x1 s) := by
  intro x1 s
  unfold execFrameTx
  repeat' (first
    | with_reducible exact Pres.refl _ | with_reducible refine keeps_next ?_ | with_reducible refine (State.modPort_pres _ _ _).after ?_
    | with_reducible refine (State.resendFrame_pres _ _ _ _).after ?_
    | with_reducible refine (pres_of2 (by assumption) (State.timedFlits_pres _ _)).after ?_
    | with_reducible refine (State.countOther_pres _ _ _).after ?_ | with_reducible refine (State.putFrame_pres _ _ _).after ?_
    | with_reducible refine (State.fillSlots_pres _ _ _ _).after ?_ | split | dsimp only)

theorem execAbort_pres : ∀ x1 x2 s, Keeps s (execAbort x1 x2 s) := by
  intro x1 x2 s
  unfold execAbort
  repeat' (first
    | with_reducible exact Pres.refl _ | with_reducible refine keeps_next ?_ | with_reducible refine (State.flitRow_pres _ _ _).after ?_)

theorem execLinkEnterService_pres : ∀ x1 s, Keeps s (execLinkEnterService x1 s) := by
  intro x1 s
  unfold execLinkEnterService
  repeat' (first
    | (fail_if_no_progress (with_reducible refine pres_lit ?_)) | with_reducible exact Pres.refl _ | with_reducible refine keeps_next ?_
    | with_reducible refine (State.setLk_pres _ _ _).after ?_ | with_reducible refine (State.startCompute_pres _ _).after ?_
    | with_reducible refine (State.linkNotice_pres _ _ _ _).after ?_ | with_reducible refine (State.noteUp_pres _ _ _).after ?_ | split)

theorem execLkEnableWrite_pres : ∀ x1 x2 s, Keeps s (execLkEnableWrite x1 x2 s) := by
  intro x1 x2 s
  unfold execLkEnableWrite
  repeat' (first
    | with_reducible exact Pres.refl _ | with_reducible refine keeps_next ?_ | with_reducible refine (State.lkEnable_pres _ _ _).after ?_
    | split)

theorem State.raiseIbi_pres : ∀ s x2, Pres s (State.raiseIbi s x2) := by
  intro s x2
  unfold State.raiseIbi
  repeat' (first | (fail_if_no_progress (with_reducible refine pres_lit ?_)) | with_reducible exact Pres.refl _ | split)

theorem State.lanesOut_pres : ∀ s x2 x3, Pres s (State.lanesOut s x2 x3) := by
  intro s x2 x3
  unfold State.lanesOut
  repeat' (first
    | with_reducible exact Pres.refl _ | with_reducible refine (State.wr_pres _ _ _).after ?_
    | with_reducible refine (State.askLanes_pres _ _ _).after ?_ | with_reducible refine (State.bump_pres _ _ _).after ?_
    | with_reducible refine (State.modPort_pres _ _ _).after ?_ | split | dsimp only)

theorem State.startSwap_pres : ∀ s x2 x3 x4, Pres s (State.startSwap s x2 x3 x4) := by
  intro s x2 x3 x4
  unfold State.startSwap
  repeat' (first
    | with_reducible exact Pres.refl _ | with_reducible refine (State.wr_pres _ _ _).after ?_
    | with_reducible refine (State.lanesOut_pres _ _ _).after ?_ | split | dsimp only)

theorem execSwapStart_pres : ∀ x1 x2 s, Keeps s (execSwapStart x1 x2 s) := by
  intro x1 x2 s
  unfold execSwapStart
  repeat' (first
    | with_reducible exact Pres.refl _ | with_reducible refine keeps_next ?_ | with_reducible refine (State.startSwap_pres _ _ _ _).after ?_
    | split)

theorem State.setSeated_pres : ∀ s x2 x3, Pres s (State.setSeated s x2 x3) := by
  intro s x2 x3
  unfold State.setSeated
  repeat' (first
    | with_reducible exact Pres.refl _ | with_reducible refine (State.wr_pres _ _ _).after ?_
    | with_reducible refine (State.wrb_pres _ _ _).after ?_ | with_reducible refine (State.modEngine_pres _ _ _).after ?_)

theorem State.logOptics_pres : ∀ s x2 x3 x4, Pres s (State.logOptics s x2 x3 x4) := by
  intro s x2 x3 x4
  unfold State.logOptics
  repeat' (first | with_reducible exact Pres.refl _ | with_reducible refine (State.raise_pres _ _).after ?_)

theorem State.swapIdle_pres : ∀ s x2, Pres s (State.swapIdle s x2) := by
  intro s x2
  unfold State.swapIdle
  repeat' (first | with_reducible exact Pres.refl _ | with_reducible refine (State.wr_pres _ _ _).after ?_)

theorem State.swapRoles_pres : ∀ s x2, Pres s (State.swapRoles s x2) := by
  intro s x2
  unfold State.swapRoles
  repeat' (first
    | (fail_if_no_progress (with_reducible refine pres_lit ?_)) | with_reducible exact Pres.refl _
    | with_reducible refine (State.wr_pres _ _ _).after ?_ | with_reducible refine (State.logOptics_pres _ _ _ _).after ?_
    | with_reducible refine (State.swapIdle_pres _ _).after ?_ | with_reducible refine (State.modEngine_pres _ _ _).after ?_)

theorem State.swapAtRemoval_pres : ∀ s x2, Pres s (State.swapAtRemoval s x2) := by
  intro s x2
  unfold State.swapAtRemoval
  repeat' (first
    | with_reducible exact Pres.refl _ | with_reducible refine (State.swapRoles_pres _ _).after ?_
    | with_reducible refine (State.swapIdle_pres _ _).after ?_ | split | dsimp only)

theorem execConnectorRemoved_pres : ∀ x1 s, Keeps s (execConnectorRemoved x1 s) := by
  intro x1 s
  unfold execConnectorRemoved
  repeat' (first
    | with_reducible exact Pres.refl _ | with_reducible refine keeps_next ?_ | with_reducible refine (State.bump_pres _ _ _).after ?_
    | with_reducible refine (State.toSafe_pres _ _).after ?_ | with_reducible refine (State.setSeated_pres _ _ _).after ?_
    | with_reducible refine (State.takeDown_pres _ _ _).after ?_ | with_reducible refine (State.raise_pres _ _).after ?_
    | with_reducible refine (State.swapAtRemoval_pres _ _).after ?_ | split | dsimp only)

theorem execSwapComplete_pres : ∀ x1 s, Keeps s (execSwapComplete x1 s) := by
  intro x1 s
  unfold execSwapComplete
  repeat' (first
    | with_reducible exact Pres.refl _ | with_reducible refine keeps_next ?_ | with_reducible refine (State.swapRoles_pres _ _).after ?_
    | split | dsimp only)

theorem State.setLocked_pres : ∀ s x2 x3 x4, Pres s (State.setLocked s x2 x3 x4) := by
  intro s x2 x3 x4
  unfold State.setLocked
  repeat' (first | with_reducible exact Pres.refl _ | with_reducible refine (State.wr_pres _ _ _).after ?_)

theorem execSwapSwitchDone_pres : ∀ x1 s, Keeps s (execSwapSwitchDone x1 s) := by
  intro x1 s
  unfold execSwapSwitchDone
  repeat' (first
    | with_reducible exact Pres.refl _ | with_reducible refine keeps_next ?_ | with_reducible refine (State.wr_pres _ _ _).after ?_
    | with_reducible refine (State.setLocked_pres _ _ _ _).after ?_ | split)

theorem execLossOfSignal_pres : ∀ x1 x2 s, Keeps s (execLossOfSignal x1 x2 s) := by
  intro x1 x2 s
  unfold execLossOfSignal
  repeat' (first
    | with_reducible exact Pres.refl _ | with_reducible refine keeps_next ?_ | with_reducible refine (State.modPort_pres _ _ _).after ?_
    | with_reducible refine (State.loseLane_pres _ _ _).after ?_ | with_reducible refine (State.takeDown_pres _ _ _).after ?_
    | with_reducible refine (State.toSafe_pres _ _).after ?_ | split)

theorem execPadTouch_pres : ∀ x1 s, Keeps s (execPadTouch x1 s) := by
  intro x1 s
  unfold execPadTouch
  repeat' (first
    | (fail_if_no_progress (with_reducible refine pres_lit ?_)) | with_reducible exact Pres.refl _ | with_reducible refine keeps_next ?_
    | with_reducible refine (State.settle_pres _ _).after ?_ | with_reducible refine (State.wrb_pres _ _ _).after ?_ | split)

theorem State.endJobs_pres : ∀ s x2 x3, Pres s (State.endJobs s x2 x3) := by
  intro s x2 x3
  unfold State.endJobs
  repeat' (first
    | with_reducible exact Pres.refl _ | with_reducible refine (State.jobsFatal_pres _ _).after ?_
    | with_reducible refine (State.failAll_pres _ _).after ?_)

theorem State.leave_pres : ∀ s, Pres s (State.leave s) := by
  intro s
  unfold State.leave
  repeat' (first
    | (fail_if_no_progress (with_reducible refine pres_lit ?_)) | with_reducible exact Pres.refl _
    | with_reducible refine (State.raiseIbi_pres _ _).after ?_ | with_reducible refine (State.svcEvent_pres _ _).after ?_
    | with_reducible refine (State.wr_pres _ _ _).after ?_ | with_reducible refine (State.endJobs_pres _ _ _).after ?_
    | with_reducible refine (State.sendDeclaration_pres _ _ _).after ?_ | split | dsimp only)

theorem State.setLevel_pres : ∀ s x2 x3 x4, Pres s (State.setLevel s x2 x3 x4) := by
  intro s x2 x3 x4
  unfold State.setLevel
  repeat' (first
    | with_reducible exact Pres.refl _ | intro _ | with_reducible refine (State.logOptics_pres _ _ _ _).after ?_
    | with_reducible refine (State.wr_pres _ _ _).after ?_ | with_reducible refine (pres_foldl ?_ _ _).after ?_ | split | dsimp only)

theorem execRingUnlock_pres : ∀ x1 x2 s, Keeps s (execRingUnlock x1 x2 s) := by
  intro x1 x2 s
  unfold execRingUnlock
  repeat' (first
    | with_reducible exact Pres.refl _ | with_reducible refine keeps_next ?_ | with_reducible refine (State.setLocked_pres _ _ _ _).after ?_
    | with_reducible refine (State.modPort_pres _ _ _).after ?_ | with_reducible refine (State.askLanes_pres _ _ _).after ?_
    | with_reducible refine (State.logOptics_pres _ _ _ _).after ?_ | split | dsimp only)

theorem execSpareCheck_pres : ∀ x1 x2 x3 s, Keeps s (execSpareCheck x1 x2 x3 s) := by
  intro x1 x2 x3 s
  unfold execSpareCheck
  repeat' (first
    | with_reducible exact Pres.refl _ | with_reducible refine keeps_next ?_ | with_reducible refine (State.setLevel_pres _ _ _ _).after ?_
    | with_reducible refine (State.wr_pres _ _ _).after ?_ | split)

theorem State.relockOne_pres : ∀ s x2 x3 x4, Pres s (State.relockOne s x2 x3 x4) := by
  intro s x2 x3 x4
  unfold State.relockOne
  repeat' (first
    | with_reducible exact Pres.refl _
    | with_reducible refine (State.modPort_pres _ _ _).after ?_
    | with_reducible refine (State.bump_pres _ _ _).after ?_
    | with_reducible refine (State.setLocked_pres _ _ _ _).after ?_
    | with_reducible refine (State.logOptics_pres _ _ _ _).after ?_ | split | dsimp only)

theorem State.relock_pres : ∀ s x2 x3, Pres s (State.relock s x2 x3) := by
  intro s x2 x3
  exact pres_foldl (fun _ _ => State.relockOne_pres _ _ _ _) _ _

theorem State.emitterOff_pres : ∀ s x2 x3, Pres s (State.emitterOff s x2 x3) := by
  intro s x2 x3
  unfold State.emitterOff
  repeat' (first
    | (fail_if_no_progress (with_reducible refine pres_lit ?_)) | with_reducible exact Pres.refl _
    | with_reducible refine (State.wr_pres _ _ _).after ?_ | with_reducible refine (State.modPort_pres _ _ _).after ?_
    | with_reducible refine (State.logOptics_pres _ _ _ _).after ?_ | with_reducible refine (State.askLanes_pres _ _ _).after ?_ | split)

theorem State.onTime_pres : ∀ s x2 x3, Pres s (State.onTime s x2 x3) := by
  intro s x2 x3
  unfold State.onTime
  repeat' (first
    | with_reducible exact Pres.refl _ | with_reducible refine (State.modEngine_pres _ _ _).after ?_
    | (fail_if_no_progress (with_reducible refine pres_lit ?_))
    | with_reducible refine (State.bump_pres _ _ _).after ?_ | split | dsimp only)

theorem execEmitterSample_pres : ∀ x1 x2 x3 s, Keeps s (execEmitterSample x1 x2 x3 s) := by
  intro x1 x2 x3 s
  unfold execEmitterSample
  repeat' (first
    | with_reducible refine (State.onTime_pres _ _ _).after ?_
    | with_reducible exact Pres.refl _ | with_reducible refine keeps_next ?_ | with_reducible refine (State.modEngine_pres _ _ _).after ?_
    | with_reducible refine (State.setLevel_pres _ _ _ _).after ?_ | with_reducible refine (State.wr_pres _ _ _).after ?_
    | with_reducible refine (State.emitterOff_pres _ _ _).after ?_ | split | dsimp only)

theorem execCalSlot_pres : ∀ x1 s, Keeps s (execCalSlot x1 s) := by
  intro x1 s
  unfold execCalSlot
  repeat' (first
    | with_reducible exact Pres.refl _ | with_reducible refine keeps_next ?_ | with_reducible refine (State.relock_pres _ _ _).after ?_
    | with_reducible refine (State.bump_pres _ _ _).after ?_ | with_reducible refine (State.wr_pres _ _ _).after ?_
    | with_reducible refine (State.askLanes_pres _ _ _).after ?_ | with_reducible refine (State.modPort_pres _ _ _).after ?_ | split
    | dsimp only)

theorem execSwapWarmDone_pres : ∀ x1 s, Keeps s (execSwapWarmDone x1 s) := by
  intro x1 s
  unfold execSwapWarmDone
  repeat' (first
    | with_reducible exact Pres.refl _ | with_reducible refine keeps_next ?_ | with_reducible refine (State.lanesOut_pres _ _ _).after ?_
    | split)

theorem execSignalDetect_pres : ∀ x1 x2 s, Keeps s (execSignalDetect x1 x2 s) := by
  intro x1 x2 s
  unfold execSignalDetect
  repeat' (first
    | with_reducible exact Pres.refl _ | with_reducible refine keeps_next ?_ | with_reducible refine (State.modPort_pres _ _ _).after ?_)

theorem execSafePowerExit_pres : ∀ x1 s, Keeps s (execSafePowerExit x1 s) := by
  intro x1 s
  unfold execSafePowerExit
  repeat' (first
    | with_reducible exact Pres.refl _ | with_reducible refine keeps_next ?_ | with_reducible refine (State.bringUp_pres _ _).after ?_
    | with_reducible refine (State.wr_pres _ _ _).after ?_ | split)

theorem execModuleLeave_pres : ∀ s, Keeps s (execModuleLeave s) := by
  intro s
  unfold execModuleLeave
  repeat' (first
    | with_reducible exact Pres.refl _ | with_reducible refine keeps_next ?_ | with_reducible refine (State.leave_pres _).after ?_ | split)

theorem State.allPortsDown_pres : ∀ s, Pres s (State.allPortsDown s) := by
  intro s
  unfold State.allPortsDown
  repeat' (first
    | (fail_if_no_progress (with_reducible refine pres_lit ?_)) | with_reducible exact Pres.refl _ | intro _
    | with_reducible refine (State.setLk_pres _ _ _).after ?_ | with_reducible refine (State.takeDown_pres _ _ _).after ?_
    | with_reducible refine (pres_foldl ?_ _ _).after ?_)

theorem execLatchSample_pres : ∀ x1 s, Keeps s (execLatchSample x1 s) := by
  intro x1 s
  unfold execLatchSample
  repeat' (first
    | (fail_if_no_progress (with_reducible refine pres_lit ?_)) | with_reducible exact Pres.refl _ | intro _
    | with_reducible refine keeps_next ?_ | with_reducible refine (State.settle_pres _ _).after ?_
    | with_reducible refine (State.wrb_pres _ _ _).after ?_ | with_reducible refine (State.wr_pres _ _ _).after ?_
    | with_reducible refine (State.bump_pres _ _ _).after ?_ | with_reducible refine (State.raiseIbi_pres _ _).after ?_
    | with_reducible refine (State.svcEvent_pres _ _).after ?_ | with_reducible refine (State.raise_pres _ _).after ?_
    | with_reducible refine (State.leave_pres _).after ?_ | with_reducible refine (pres_foldl ?_ _ _).after ?_ | split | dsimp only)

theorem execCalRestoreTimeout_pres : ∀ x1 s, Keeps s (execCalRestoreTimeout x1 s) := by
  intro x1 s
  unfold execCalRestoreTimeout
  repeat' (first
    | with_reducible exact Pres.refl _ | with_reducible refine keeps_next ?_ | with_reducible refine (State.logOptics_pres _ _ _ _).after ?_
    | with_reducible refine (State.bump_pres _ _ _).after ?_ | with_reducible refine (State.wr_pres _ _ _).after ?_
    | with_reducible refine (State.modPort_pres _ _ _).after ?_ | split)

theorem execConnectorSeated_pres : ∀ x1 s, Keeps s (execConnectorSeated x1 s) := by
  intro x1 s
  unfold execConnectorSeated
  repeat' (first
    | with_reducible exact Pres.refl _ | with_reducible refine keeps_next ?_ | with_reducible refine (State.setSeated_pres _ _ _).after ?_)

theorem execLeavePortsDown_pres : ∀ s, Keeps s (execLeavePortsDown s) := by
  intro s
  unfold execLeavePortsDown
  repeat' (first
    | with_reducible exact Pres.refl _ | with_reducible refine keeps_next ?_ | with_reducible refine (State.allPortsDown_pres _).after ?_
    | split)

theorem execRefresh_pres : ∀ x1 x2 s, Keeps s (execRefresh x1 x2 s) := by
  intro x1 x2 s
  unfold execRefresh
  repeat' (first
    | with_reducible exact Pres.refl _ | with_reducible refine keeps_next ?_ | with_reducible refine (State.modChan_pres _ _ _).after ?_
    | split)

theorem State.flushStart_pres : ∀ s, Pres s (State.flushStart s) := by
  intro s
  unfold State.flushStart
  repeat' (first
    | (fail_if_no_progress (with_reducible refine pres_lit ?_)) | with_reducible exact Pres.refl _
    | with_reducible refine (State.wr_pres _ _ _).after ?_ | split)

theorem State.trainRecord_pres : ∀ s x2 x3, Pres s (State.trainRecord s x2 x3) := by
  intro s x2 x3
  unfold State.trainRecord
  repeat' (first | with_reducible exact Pres.refl _ | with_reducible refine (State.raise_pres _ _).after ?_)

theorem State.setCh_pres : ∀ s x2 x3, Pres s (State.setCh s x2 x3) := by
  intro s x2 x3
  unfold State.setCh
  repeat' (first
    | with_reducible exact Pres.refl _ | with_reducible refine (State.wr_pres _ _ _).after ?_
    | with_reducible refine (State.returnWaiting_pres _ _).after ?_ | split)

theorem State.repairStart_pres : ∀ s x2, Pres s (State.repairStart s x2) := by
  intro s x2
  unfold State.repairStart
  repeat' (first
    | with_reducible exact Pres.refl _ | with_reducible refine (State.trainRecord_pres _ _ _).after ?_
    | with_reducible refine (State.bump_pres _ _ _).after ?_ | with_reducible refine (State.setCh_pres _ _ _).after ?_)

theorem State.retrainStart_pres : ∀ s x2, Pres s (State.retrainStart s x2) := by
  intro s x2
  unfold State.retrainStart
  repeat' (first
    | with_reducible exact Pres.refl _ | with_reducible refine (State.trainRecord_pres _ _ _).after ?_
    | with_reducible refine (State.bump_pres _ _ _).after ?_ | with_reducible refine (State.setCh_pres _ _ _).after ?_)

theorem execOscSample_pres : ∀ x1 x2 x3 s, Keeps s (execOscSample x1 x2 x3 s) := by
  intro x1 x2 x3 s
  unfold execOscSample
  repeat' (first
    | with_reducible exact Pres.refl _ | with_reducible refine keeps_next ?_ | with_reducible refine (State.bumpK_pres _ _ _).after ?_
    | with_reducible refine (State.repairStart_pres _ _).after ?_ | with_reducible refine (State.retrainStart_pres _ _).after ?_ | split
    | dsimp only)

theorem State.chanBack_pres : ∀ s x2, Pres s (State.chanBack s x2) := by
  intro s x2
  unfold State.chanBack
  repeat' (first
    | with_reducible exact Pres.refl _ | with_reducible refine (State.modChan_pres _ _ _).after ?_
    | with_reducible refine (State.setCh_pres _ _ _).after ?_)

theorem State.scrubCount_pres : ∀ s x2, Pres s (State.scrubCount s x2) := by
  intro s x2
  unfold State.scrubCount
  repeat' (first
    | (fail_if_no_progress (with_reducible refine pres_lit ?_)) | with_reducible exact Pres.refl _
    | with_reducible refine (State.bump_pres _ _ _).after ?_ | split | dsimp only)

theorem State.unprotectStart_pres : ∀ s, Pres s (State.unprotectStart s) := by
  intro s
  unfold State.unprotectStart
  repeat' (first
    | (fail_if_no_progress (with_reducible refine pres_lit ?_)) | with_reducible exact Pres.refl _
    | with_reducible refine (State.wr_pres _ _ _).after ?_ | split)

theorem execCacheUnprotect_pres : ∀ s, Keeps s (execCacheUnprotect s) := by
  intro s
  unfold execCacheUnprotect
  repeat' (first
    | with_reducible exact Pres.refl _ | with_reducible refine keeps_next ?_ | with_reducible refine (State.unprotectStart_pres _).after ?_
    | split)

theorem execCacheFlushDone_pres : ∀ s, Keeps s (execCacheFlushDone s) := by
  intro s
  unfold execCacheFlushDone
  repeat' (first
    | (fail_if_no_progress (with_reducible refine pres_lit ?_)) | with_reducible exact Pres.refl _ | intro _
    | with_reducible refine keeps_next ?_ | with_reducible refine (State.writeBack_pres _ _).after ?_
    | with_reducible refine (State.wr_pres _ _ _).after ?_ | with_reducible refine (pres_foldl ?_ _ _).after ?_ | split)

theorem execCacheFlush_pres : ∀ s, Keeps s (execCacheFlush s) := by
  intro s
  unfold execCacheFlush
  repeat' (first
    | with_reducible exact Pres.refl _ | with_reducible refine keeps_next ?_ | with_reducible refine (State.flushStart_pres _).after ?_
    | split)

theorem execCacheUnprotectDone_pres : ∀ s, Keeps s (execCacheUnprotectDone s) := by
  intro s
  unfold execCacheUnprotectDone
  repeat' (first | with_reducible exact Pres.refl _ | with_reducible refine keeps_next ?_ | with_reducible refine (State.wr_pres _ _ _).after ?_)

theorem execScrubLine_pres : ∀ x1 x2 x3 s, Keeps s (execScrubLine x1 x2 x3 s) := by
  intro x1 x2 x3 s
  unfold execScrubLine
  repeat' (first
    | with_reducible exact Pres.refl _ | with_reducible refine keeps_next ?_ | with_reducible refine (State.scrubCount_pres _ _).after ?_
    | with_reducible refine (State.lmCorrected_pres _ _).after ?_ | with_reducible refine (State.raise_pres _ _).after ?_
    | with_reducible refine (State.poisonLm_pres _ _ _).after ?_ | with_reducible refine (State.lmUncorrectable_pres _ _ _).after ?_ | split
    | dsimp only)

theorem execLmRetrainDone_pres : ∀ x1 x2 s, Keeps s (execLmRetrainDone x1 x2 s) := by
  intro x1 x2 s
  unfold execLmRetrainDone
  repeat' (first
    | with_reducible exact Pres.refl _ | with_reducible refine keeps_next ?_ | with_reducible refine (State.chanBack_pres _ _).after ?_
    | with_reducible refine (State.repairStart_pres _ _).after ?_ | split)

theorem execLmRepairDone_pres : ∀ x1 x2 s, Keeps s (execLmRepairDone x1 x2 s) := by
  intro x1 x2 s
  unfold execLmRepairDone
  repeat' (first
    | with_reducible exact Pres.refl _ | with_reducible refine keeps_next ?_ | with_reducible refine (State.chanBack_pres _ _).after ?_
    | with_reducible refine (State.modChan_pres _ _ _).after ?_ | with_reducible refine (State.jobsFatal_pres _ _).after ?_
    | with_reducible refine (State.setCh_pres _ _ _).after ?_ | with_reducible refine (State.repairStart_pres _ _).after ?_ | split
    | dsimp only)

theorem State.recountLeaf_pres : ∀ s x2, Pres s (State.recountLeaf s x2) := by
  intro s x2
  unfold State.recountLeaf
  repeat' (first | with_reducible exact Pres.refl _ | with_reducible refine (State.wr_pres _ _ _).after ?_)

theorem State.modUcie_pres : ∀ s x2 x3 x4, Pres s (State.modUcie s x2 x3 x4) := by
  intro s x2 x3 x4
  unfold State.modUcie
  repeat' (first | with_reducible exact Pres.refl _ | with_reducible refine (State.modLeaf_pres _ _ _).after ?_)

theorem execFlitRetry_pres : ∀ x1 x2 s, Keeps s (execFlitRetry x1 x2 s) := by
  intro x1 x2 s
  unfold execFlitRetry
  repeat' (first
    | (fail_if_no_progress (with_reducible refine pres_lit ?_)) | with_reducible exact Pres.refl _ | with_reducible refine keeps_next ?_
    | with_reducible refine (State.bumpK_pres _ _ _).after ?_ | with_reducible refine (State.modUcie_pres _ _ _ _).after ?_
    | with_reducible refine (State.bump_pres _ _ _).after ?_ | split | dsimp only)

theorem State.repairLanes_pres : ∀ s x2 x3 x4, Pres s (State.repairLanes s x2 x3 x4) := by
  intro s x2 x3 x4
  unfold State.repairLanes
  repeat' (first
    | with_reducible exact Pres.refl _ | intro _ | with_reducible refine (State.raise_pres _ _).after ?_
    | with_reducible refine (State.bump_pres _ _ _).after ?_ | with_reducible refine (pres_foldl ?_ _ _).after ?_)

theorem State.leafDomains_pres : ∀ s x2 x3, Pres s (State.leafDomains s x2 x3) := by
  intro s x2 x3
  unfold State.leafDomains
  repeat' (first | with_reducible exact Pres.refl _ | with_reducible refine (State.wr_pres _ _ _).after ?_)

theorem State.wipeLeaf_pres : ∀ s x2, Pres s (State.wipeLeaf s x2) := by
  intro s l
  unfold State.wipeLeaf
  split
  rename_i h
  refine (State.returnHeld_pres _ _).after ((State.leafDomains_pres _ _ _).after ((State.modLeaf_pres _ _ _).after ?_))
  with_reducible refine pres_lit ?_
  exact (pres_foldl (fun s c => State.modCore_pres (fun k => Core.wiped_spKept k _) s c) _ _).after (pres_of2 h (State.freshJunk_pres s))

theorem State.leafFatal_pres : ∀ s x2 x3, Pres s (State.leafFatal s x2 x3) := by
  intro s x2 x3
  unfold State.leafFatal
  repeat' (first
    | with_reducible exact Pres.refl _ | intro _ | with_reducible refine (pres_of2 (by assumption) (State.free_pres _)).after ?_
    | with_reducible refine (State.raise_pres _ _).after ?_ | with_reducible refine (State.failJob_pres _ _ _).after ?_
    | with_reducible refine (pres_foldl ?_ _ _).after ?_ | split | dsimp only)

theorem State.partialReset_pres : ∀ s x2, Pres s (State.partialReset s x2) := by
  intro s x2
  unfold State.partialReset
  repeat' (first
    | with_reducible exact Pres.refl _ | with_reducible refine (State.logDropped_pres _ _).after ?_
    | with_reducible refine (State.wipeLeaf_pres _ _).after ?_ | with_reducible refine (State.leafFatal_pres _ _ _).after ?_
    | with_reducible refine (State.wr_pres _ _ _).after ?_ | split)

theorem execPartialReset_pres : ∀ x1 s, Keeps s (execPartialReset x1 s) := by
  intro x1 s
  unfold execPartialReset
  repeat' (first
    | with_reducible exact Pres.refl _ | with_reducible refine keeps_next ?_ | with_reducible refine (State.partialReset_pres _ _).after ?_
    | split)

theorem execGrantTimeout_pres : ∀ x1 s, Keeps s (execGrantTimeout x1 s) := by
  intro x1 s
  unfold execGrantTimeout
  repeat' (first
    | with_reducible exact Pres.refl _ | with_reducible refine keeps_next ?_ | with_reducible refine (State.modLeaf_pres _ _ _).after ?_
    | split)

theorem State.recountSpares_pres : ∀ s x2 x3, Pres s (State.recountSpares s x2 x3) := by
  intro s x2 x3
  unfold State.recountSpares
  repeat' (first | with_reducible exact Pres.refl _ | with_reducible refine (State.wr_pres _ _ _).after ?_)

theorem State.degradeRecord_pres : ∀ s x2 x3 x4 x5, Pres s (State.degradeRecord s x2 x3 x4 x5) := by
  intro s x2 x3 x4 x5
  unfold State.degradeRecord
  repeat' (first | with_reducible exact Pres.refl _ | with_reducible refine (State.raise_pres _ _).after ?_ | split)

theorem State.withdraw_pres : ∀ s x2, Pres s (State.withdraw s x2) := by
  intro s x2
  unfold State.withdraw
  repeat' (first
    | with_reducible exact Pres.refl _ | with_reducible refine (State.modLeaf_pres _ _ _).after ?_
    | with_reducible refine (State.wipeLeaf_pres _ _).after ?_ | with_reducible refine (State.leafFatal_pres _ _ _).after ?_
    | with_reducible refine (State.wr_pres _ _ _).after ?_ | split)

theorem State.applyTest_pres : ∀ s x2 x3 x4, Pres s (State.applyTest s x2 x3 x4) := by
  intro s x2 x3 x4
  unfold State.applyTest
  repeat' (first
    | with_reducible exact Pres.refl _ | with_reducible refine (State.repairLanes_pres _ _ _ _).after ?_
    | with_reducible refine (State.wr_pres _ _ _).after ?_ | with_reducible refine (State.modUcie_pres _ _ _ _).after ?_
    | with_reducible refine (State.recountLeaf_pres _ _).after ?_ | with_reducible refine (State.recountSpares_pres _ _ _).after ?_
    | with_reducible refine (State.degradeRecord_pres _ _ _ _ _).after ?_)

theorem State.disagree_pres : ∀ s x2 x3 x4, Pres s (State.disagree s x2 x3 x4) := by
  intro s x2 x3 x4
  unfold State.disagree
  repeat' (first
    | with_reducible exact Pres.refl _ | with_reducible refine (State.wr_pres _ _ _).after ?_
    | with_reducible refine (State.modUcie_pres _ _ _ _).after ?_ | with_reducible refine (State.recountLeaf_pres _ _).after ?_
    | with_reducible refine (State.applyTest_pres _ _ _ _).after ?_
    | with_reducible refine (State.recountSpares_pres _ _ _).after ?_ | with_reducible refine (State.degradeRecord_pres _ _ _ _ _).after ?_)

theorem State.checkLeaf_pres : ∀ s x2, Pres s (State.checkLeaf s x2) := by
  intro s x2
  unfold State.checkLeaf
  repeat' (first | with_reducible exact Pres.refl _ | with_reducible refine (State.withdraw_pres _ _).after ?_ | split)

theorem State.trainLeaf_pres : ∀ s x2 x3 x4, Pres s (State.trainLeaf s x2 x3 x4) := by
  intro s x2 x3 x4
  unfold State.trainLeaf
  repeat' (first
    | with_reducible exact Pres.refl _ | intro _ | with_reducible refine (State.wr_pres _ _ _).after ?_
    | with_reducible refine (State.modLeaf_pres _ _ _).after ?_ | with_reducible refine (State.applyTest_pres _ _ _ _).after ?_
    | with_reducible refine (State.disagree_pres _ _ _ _).after ?_ | with_reducible refine (State.withdraw_pres _ _).after ?_
    | with_reducible refine (State.checkLeaf_pres _ _).after ?_ | with_reducible refine (pres_foldl ?_ _ _).after ?_ | split | dsimp only)

theorem State.leafActive_pres : ∀ s x2, Pres s (State.leafActive s x2) := by
  intro s x2
  unfold State.leafActive
  repeat' (first
    | with_reducible exact Pres.refl _ | with_reducible refine (State.leafDomains_pres _ _ _).after ?_
    | with_reducible refine (State.wr_pres _ _ _).after ?_)

theorem execPartialResetDone_pres : ∀ x1 s, Keeps s (execPartialResetDone x1 s) := by
  intro x1 s
  unfold execPartialResetDone
  repeat' (first
    | with_reducible exact Pres.refl _ | with_reducible refine keeps_next ?_ | with_reducible refine (State.leafActive_pres _ _).after ?_
    | split)

theorem execUcieRetrainDone_pres : ∀ x1 x2 x3 s, Keeps s (execUcieRetrainDone x1 x2 x3 s) := by
  intro x1 x2 x3 s
  unfold execUcieRetrainDone
  repeat' (first
    | with_reducible exact Pres.refl _ | with_reducible refine keeps_next ?_ | with_reducible refine (State.returnHeld_pres _ _).after ?_
    | with_reducible refine (State.checkLeaf_pres _ _).after ?_ | with_reducible refine (State.applyTest_pres _ _ _ _).after ?_ | split)

theorem execReportTimeout_pres : ∀ x1 s, Keeps s (execReportTimeout x1 s) := by
  intro x1 s
  unfold execReportTimeout
  repeat' (first
    | with_reducible exact Pres.refl _ | with_reducible refine keeps_next ?_ | with_reducible refine (State.wr_pres _ _ _).after ?_ | split)

theorem State.hubMessage_pres : ∀ s x2 x3, Pres s (State.hubMessage s x2 x3) := by
  intro s x2 x3
  unfold State.hubMessage
  repeat' (first
    | with_reducible exact Pres.refl _
    | with_reducible refine (State.wr_pres _ _ _).after ?_
    | with_reducible refine (State.modLeaf_pres _ _ _).after ?_ | split | dsimp only)

theorem execReport_pres : ∀ x1 x2 x3 x4 x5 x6 x7 x8 x9 s, Keeps s (execReport x1 x2 x3 x4 x5 x6 x7 x8 x9 s) :=
  fun _ _ _ _ _ _ _ _ _ _ => keeps_next (State.hubMessage_pres _ _ _)

theorem execLeafManagerUncorrectableError_pres : ∀ x1 s, Keeps s (execLeafManagerUncorrectableError x1 s) := by
  intro x1 s
  unfold execLeafManagerUncorrectableError
  repeat' (first
    | with_reducible exact Pres.refl _ | with_reducible refine keeps_next ?_ | with_reducible refine (State.partialReset_pres _ _).after ?_
    | split)

theorem State.leafMessage_pres : ∀ s x2 x3, Pres s (State.leafMessage s x2 x3) := by
  intro s x2 x3
  unfold State.leafMessage
  repeat' (first
    | with_reducible exact Pres.refl _
    | with_reducible refine (State.modLeaf_pres _ _ _).after ?_
    | with_reducible refine (State.wr_pres _ _ _).after ?_ | split | dsimp only)

theorem execGrant_pres : ∀ x1 x2 x3 x4 x5 s, Keeps s (execGrant x1 x2 x3 x4 x5 s) :=
  fun _ _ _ _ _ _ => keeps_next (State.leafMessage_pres _ _ _)

theorem execLeafLinkTrain_pres : ∀ x1 x2 x3 s, Keeps s (execLeafLinkTrain x1 x2 x3 s) := by
  intro x1 x2 x3 s
  unfold execLeafLinkTrain
  repeat' (first
    | with_reducible exact Pres.refl _ | with_reducible refine keeps_next ?_ | with_reducible refine (State.trainLeaf_pres _ _ _ _).after ?_
    | split)

theorem State.threshLater_pres : ∀ old s x3, Pres s (State.threshLater old s x3) := by
  intro old s x3
  unfold State.threshLater
  repeat' (first | (fail_if_no_progress (with_reducible refine pres_lit ?_)) | with_reducible exact Pres.refl _)

theorem State.bumpFail_pres : ∀ s, Pres s (State.bumpFail s) := by
  intro s
  unfold State.bumpFail
  repeat' (first | (fail_if_no_progress (with_reducible refine pres_lit ?_)) | with_reducible exact Pres.refl _ | split)

theorem State.failStop_pres : ∀ s x2, Pres s (State.failStop s x2) := by
  intro s x2
  unfold State.failStop
  repeat' (first
    | (fail_if_no_progress (with_reducible refine pres_lit ?_)) | with_reducible exact Pres.refl _
    | with_reducible refine (State.failAll_pres _ _).after ?_ | with_reducible refine (State.raiseIbi_pres _ _).after ?_
    | with_reducible refine (State.writeRecord_pres _ _).after ?_ | with_reducible refine (State.sendDeclaration_pres _ _ _).after ?_
    | with_reducible refine (State.bumpFail_pres _).after ?_ | split | dsimp only)

theorem execModuleFailStop_pres : ∀ x1 x2 s, Keeps s (execModuleFailStop x1 x2 s) := by
  intro x1 x2 s
  unfold execModuleFailStop
  repeat' (first | with_reducible exact Pres.refl _ | with_reducible refine keeps_next ?_ | with_reducible refine (State.failStop_pres _ _).after ?_)

theorem execJobFatalIgnoreExpiry_pres : ∀ x1 s, Keeps s (execJobFatalIgnoreExpiry x1 s) := by
  intro x1 s
  unfold execJobFatalIgnoreExpiry
  repeat' (first
    | (fail_if_no_progress (with_reducible refine pres_lit ?_)) | with_reducible exact Pres.refl _ | with_reducible refine keeps_next ?_)

theorem State.setDead_pres : ∀ s x2 x3, Pres s (State.setDead s x2 x3) := by
  intro s x2 x3
  unfold State.setDead
  repeat' (first | with_reducible exact Pres.refl _ | with_reducible refine (State.wr_pres _ _ _).after ?_)

theorem execFailStopPortsDown_pres : ∀ s, Keeps s (execFailStopPortsDown s) := by
  intro s
  unfold execFailStopPortsDown
  repeat' (first
    | with_reducible exact Pres.refl _ | with_reducible refine keeps_next ?_ | with_reducible refine (State.allPortsDown_pres _).after ?_
    | split)

theorem State.peerLost_pres : ∀ s x2 x3, Pres s (State.peerLost s x2 x3) := by
  intro s x2 x3
  unfold State.peerLost
  repeat' (first
    | with_reducible exact Pres.refl _ | intro _ | with_reducible refine (State.failTask_pres _ _ _).after ?_
    | with_reducible refine (State.raise_pres _ _).after ?_ | with_reducible refine (pres_foldl ?_ _ _).after ?_)

theorem execDeclaration_pres : ∀ x1 x2 s, Keeps s (execDeclaration x1 x2 s) := by
  intro x1 x2 s
  unfold execDeclaration
  repeat' (first
    | (fail_if_no_progress (with_reducible refine pres_lit ?_)) | with_reducible exact Pres.refl _ | with_reducible refine keeps_next ?_
    | with_reducible refine (State.takeNotice_pres _ _).after ?_ | with_reducible refine (State.selfDeclare_pres _).after ?_
    | with_reducible refine (State.bump_pres _ _ _).after ?_ | with_reducible refine (State.wr_pres _ _ _).after ?_
    | with_reducible refine (State.setDead_pres _ _ _).after ?_ | with_reducible refine (State.raise_pres _ _).after ?_
    | with_reducible refine (State.collMemberLost_pres _ _).after ?_ | with_reducible refine (State.peerLost_pres _ _ _).after ?_
    | with_reducible refine (State.startCompute_pres _ _).after ?_ | with_reducible refine (State.requeueDead_pres _ _).after ?_ | split)

theorem State.handleJobFatal_pres : ∀ s x2, Pres s (State.handleJobFatal s x2) := by
  intro s x2
  unfold State.handleJobFatal
  repeat' (first
    | (fail_if_no_progress (with_reducible refine pres_lit ?_)) | with_reducible exact Pres.refl _
    | with_reducible refine (State.writeRecord_pres _ _).after ?_ | with_reducible refine (State.failJob_pres _ _ _).after ?_
    | with_reducible refine (State.sendFree_pres _ _ _).after ?_ | split | dsimp only)

theorem State.errRingSet_pres : ∀ s x2, Pres s (State.errRingSet s x2) := by
  intro s x2
  unfold State.errRingSet
  repeat' (first | with_reducible exact Pres.refl _ | with_reducible refine (State.wr_pres _ _ _).after ?_)

theorem execErrRingWrite_pres : ∀ x1 s, Keeps s (execErrRingWrite x1 s) := by
  intro x1 s
  unfold execErrRingWrite
  repeat' (first
    | with_reducible exact Pres.refl _ | with_reducible refine keeps_next ?_ | with_reducible refine (State.errRingSet_pres _ _).after ?_
    | split)

theorem State.refillFaults_pres : ∀ s, Pres s (State.refillFaults s) := by
  intro s
  unfold State.refillFaults
  repeat' (first | (fail_if_no_progress (with_reducible refine pres_lit ?_)) | with_reducible exact Pres.refl _ | split)

theorem State.setPadlock_pres : ∀ s x2 x3, Pres s (State.setPadlock s x2 x3) := by
  intro s x2 x3
  unfold State.setPadlock
  repeat' (first
    | with_reducible exact Pres.refl _ | intro _ | with_reducible refine (State.wr_pres _ _ _).after ?_
    | with_reducible refine (pres_foldl ?_ _ _).after ?_)

theorem State.rejoinAll_pres : ∀ s, Pres s (State.rejoinAll s) := by
  intro s
  unfold State.rejoinAll
  repeat' (first
    | (fail_if_no_progress (with_reducible refine pres_lit ?_)) | with_reducible exact Pres.refl _ | intro _
    | with_reducible refine (State.wr_pres _ _ _).after ?_ | with_reducible refine (State.setPadlock_pres _ _ _).after ?_
    | with_reducible refine (State.startCompute_pres _ _).after ?_ | with_reducible refine (pres_foldl ?_ _ _).after ?_)

theorem execFdRejoinAll_pres : ∀ s, Keeps s (execFdRejoinAll s) := by
  intro s
  unfold execFdRejoinAll
  repeat' (first
    | with_reducible exact Pres.refl _ | with_reducible refine keeps_next ?_ | with_reducible refine (State.rejoinAll_pres _).after ?_
    | split)

theorem State.rejoin_pres : ∀ s x2, Pres s (State.rejoin s x2) := by
  intro s x2
  unfold State.rejoin
  repeat' (first
    | (fail_if_no_progress (with_reducible refine pres_lit ?_)) | with_reducible exact Pres.refl _
    | with_reducible refine (State.setPadlock_pres _ _ _).after ?_ | with_reducible refine (State.setDead_pres _ _ _).after ?_
    | with_reducible refine (State.startCompute_pres _ _).after ?_)

theorem execFdRejoinModule_pres : ∀ x1 s, Keeps s (execFdRejoinModule x1 s) := by
  intro x1 s
  unfold execFdRejoinModule
  repeat' (first
    | with_reducible exact Pres.refl _ | with_reducible refine keeps_next ?_ | with_reducible refine (State.rejoin_pres _ _).after ?_
    | split)

theorem execFaultHandle_pres : ∀ s, Keeps s (execFaultHandle s) := by
  intro s
  unfold execFaultHandle
  repeat' (first
    | (fail_if_no_progress (with_reducible refine pres_lit ?_)) | with_reducible exact Pres.refl _ | with_reducible refine keeps_next ?_
    | with_reducible refine (State.handleJobFatal_pres _ _).after ?_ | with_reducible refine (State.writeRecord_pres _ _).after ?_
    | with_reducible refine (State.refillFaults_pres _).after ?_ | split)

theorem execJobFatalNotice_pres : ∀ x1 x2 x3 s, Keeps s (execJobFatalNotice x1 x2 x3 s) := by
  intro x1 x2 x3 s
  unfold execJobFatalNotice
  repeat' (first
    | (fail_if_no_progress (with_reducible refine pres_lit ?_)) | with_reducible exact Pres.refl _ | with_reducible refine keeps_next ?_
    | with_reducible refine (State.takeNotice_pres _ _).after ?_ | with_reducible refine (State.bump_pres _ _ _).after ?_
    | with_reducible refine (State.failJob_pres _ _ _).after ?_ | with_reducible refine (State.raise_pres _ _).after ?_ | split | dsimp only)

theorem execErrIrqDeferred_pres : ∀ s, Keeps s (execErrIrqDeferred s) := by
  intro s
  unfold execErrIrqDeferred
  repeat' (first
    | (fail_if_no_progress (with_reducible refine pres_lit ?_)) | with_reducible exact Pres.refl _ | with_reducible refine keeps_next ?_
    | with_reducible refine (State.raiseVec_pres _ _).after ?_ | split)

theorem State.fromFlash_pres : ∀ s, Pres s (State.fromFlash s) := by
  intro s
  unfold State.fromFlash
  repeat' (first
    | with_reducible exact Pres.refl _ | intro _ | with_reducible refine (State.wr_pres _ _ _).after ?_
    | with_reducible refine (State.modPort_pres _ _ _).after ?_ | with_reducible refine (pres_foldl ?_ _ _).after ?_ | split | dsimp only)

theorem State.physical_pres : ∀ old s, Pres s (State.physical old s) := by
  intro old s
  unfold State.physical
  extract_lets s1 s2
  have h1 : Pres s s1 := pres_foldl (fun s e => (State.modEngine_pres _ _ _).after (State.wr_pres _ _ _)) _ s
  have h2 : Pres s1 s2 := pres_foldl (f := fun (s : State) f => s.wr f (old.rd f)) (fun s f => State.wr_pres _ _ _) _ s1
  refine Pres.after (pres_foldl (fun s p => State.modPort_pres _ _ _) _ _) ?_
  with_reducible refine pres_lit ?_
  exact h2.after h1

theorem State.cold_pres : ∀ s, Pres s (State.cold s) := by
  intro s
  unfold State.cold
  exact (State.fromFlash_pres _).after ((State.physical_pres _ _).after ⟨rfl, rfl, le_refl _, fun h => ⟨rfl, rfl, h.2.2.1, State.reset_core_sp_wf⟩⟩)

theorem State.stretchCore_pres : ∀ s x2 x3, Pres s (State.stretchCore s x2 x3) := by
  intro s x2 x3
  unfold State.stretchCore
  repeat' (first
    | (fail_if_no_progress (with_reducible refine pres_lit ?_)) | with_reducible exact Pres.refl _
    | with_reducible refine (State.bump_pres _ _ _).after ?_ | with_reducible refine (State.wr_pres _ _ _).after ?_)

theorem execDroop_pres : ∀ x1 x2 s, Keeps s (execDroop x1 x2 s) := by
  intro x1 x2 s
  unfold execDroop
  repeat' (first
    | (fail_if_no_progress (with_reducible refine pres_lit ?_)) | with_reducible exact Pres.refl _ | with_reducible refine keeps_next ?_
    | with_reducible refine (State.stretchCore_pres _ _ _).after ?_ | with_reducible refine (State.bump_pres _ _ _).after ?_ | split)

theorem State.limitCap_pres : ∀ s, Pres s (State.limitCap s) := by
  intro s
  unfold State.limitCap
  repeat' (first | with_reducible exact Pres.refl _ | with_reducible refine (State.wrb_pres _ _ _).after ?_)

theorem State.setInput_pres : ∀ s x2 x3, Pres s (State.setInput s x2 x3) := by
  intro s x2 x3
  unfold State.setInput
  repeat' (first
    | (fail_if_no_progress (with_reducible refine pres_lit ?_)) | with_reducible exact Pres.refl _
    | with_reducible refine (State.limitCap_pres _).after ?_ | with_reducible refine (State.wr_pres _ _ _).after ?_)

theorem State.inputRecord_pres : ∀ s x2, Pres s (State.inputRecord s x2) := by
  intro s x2
  unfold State.inputRecord
  repeat' (first | with_reducible exact Pres.refl _ | with_reducible refine (State.logS0_pres _ _ _ _).after ?_)

theorem execInputLow_pres : ∀ x1 s, Keeps s (execInputLow x1 s) := by
  intro x1 s
  unfold execInputLow
  repeat' (first
    | with_reducible exact Pres.refl _ | with_reducible refine keeps_next ?_ | with_reducible refine (State.setInput_pres _ _ _).after ?_
    | with_reducible refine (State.inputRecord_pres _ _).after ?_ | split)

theorem State.powerDown_pres : ∀ s, Pres s (State.powerDown s) := by
  intro s
  unfold State.powerDown
  repeat' (first
    | (fail_if_no_progress (with_reducible refine pres_lit ?_)) | with_reducible exact Pres.refl _
    | with_reducible refine (State.cold_pres _).after ?_)

theorem execPrsntBreak_pres : ∀ s, Keeps s (execPrsntBreak s) := by
  intro s
  unfold execPrsntBreak
  repeat' (first
    | (fail_if_no_progress (with_reducible refine pres_lit ?_)) | with_reducible exact Pres.refl _ | with_reducible refine keeps_next ?_
    | with_reducible refine (State.powerDown_pres _).after ?_)

theorem execRefclkLoss_pres : ∀ s, Keeps s (execRefclkLoss s) := by
  intro s
  unfold execRefclkLoss
  repeat' (first
    | with_reducible exact Pres.refl _ | with_reducible refine keeps_next ?_ | with_reducible refine (State.failStop_pres _ _).after ?_
    | split)

theorem execIbcFail_pres : ∀ x1 s, Keeps s (execIbcFail x1 s) := by
  intro x1 s
  unfold execIbcFail
  repeat' (first
    | with_reducible exact Pres.refl _ | with_reducible refine keeps_next ?_ | with_reducible refine (State.free_pres _).after ?_
    | with_reducible refine (State.limitCap_pres _).after ?_ | with_reducible refine (State.wr_pres _ _ _).after ?_
    | with_reducible refine (State.jobsFatal_pres _ _).after ?_ | split)

theorem State.setCap_pres : ∀ s x2, Pres s (State.setCap s x2) := by
  intro s x2
  unfold State.setCap
  repeat' (first
    | (fail_if_no_progress (with_reducible refine pres_lit ?_)) | with_reducible exact Pres.refl _
    | with_reducible refine (State.wrLater_pres _ _ _).after ?_)

theorem State.correctTime_pres : ∀ s x2, Pres s (State.correctTime s x2) := by
  intro s x2
  unfold State.correctTime
  repeat' (first | (fail_if_no_progress (with_reducible refine pres_lit ?_)) | with_reducible exact Pres.refl _ | split)

theorem State.setDomain_pres : ∀ s x2 x3, Pres s (State.setDomain s x2 x3) := by
  intro s x2 x3
  unfold State.setDomain
  repeat' (first | with_reducible exact Pres.refl _ | with_reducible refine (State.wr_pres _ _ _).after ?_)

theorem State.coreOff_pres : ∀ s x2 x3, Pres s (State.coreOff s x2 x3) := by
  intro s c g
  exact (State.modCore_pres (fun k => Core.wiped_spKept k g) _ _).after ((State.wr_pres _ _ _).after (State.wr_pres _ _ _))

theorem execCorePairOff_pres : ∀ x1 x2 s, Keeps s (execCorePairOff x1 x2 s) := by
  intro x1 x2 s
  unfold execCorePairOff
  repeat' (first
    | with_reducible exact Pres.refl _ | intro _ | with_reducible refine keeps_next ?_
    | with_reducible refine (State.freshJunk_pres _).after ?_ | with_reducible refine (State.setDomain_pres _ _ _).after ?_
    | with_reducible refine (State.coreOff_pres _ _ _).after ?_ | with_reducible refine (pres_foldl ?_ _ _).after ?_ | split)

theorem State.thermalStep_pres : ∀ s x2 x3, Pres s (State.thermalStep s x2 x3) := by
  intro s x2 x3
  unfold State.thermalStep
  repeat' (first
    | (fail_if_no_progress (with_reducible refine pres_lit ?_)) | with_reducible exact Pres.refl _ | intro _
    | with_reducible refine (State.bump_pres _ _ _).after ?_ | with_reducible refine (State.stretchCore_pres _ _ _).after ?_
    | with_reducible refine (pres_foldl ?_ _ _).after ?_ | split)

theorem execCorePairOn_pres : ∀ x1 x2 s, Keeps s (execCorePairOn x1 x2 s) := by
  intro x1 x2 s
  unfold execCorePairOn
  repeat' (first
    | (fail_if_no_progress (with_reducible refine pres_lit ?_)) | with_reducible exact Pres.refl _ | with_reducible refine keeps_next ?_
    | split)

theorem execCorePairOnDone_pres : ∀ x1 x2 s, Keeps s (execCorePairOnDone x1 x2 s) := by
  intro x1 x2 s
  unfold execCorePairOnDone
  repeat' (first
    | (fail_if_no_progress (with_reducible refine pres_lit ?_)) | with_reducible exact Pres.refl _ | with_reducible refine keeps_next ?_
    | with_reducible refine (State.returnHeld_pres _ _).after ?_ | with_reducible refine (State.bump_pres _ _ _).after ?_
    | with_reducible refine (State.setDomain_pres _ _ _).after ?_ | split)

theorem execInputOvervoltage_pres : ∀ s, Keeps s (execInputOvervoltage s) := by
  intro s
  unfold execInputOvervoltage
  repeat' (first
    | with_reducible exact Pres.refl _ | with_reducible refine keeps_next ?_ | with_reducible refine (State.powerDown_pres _).after ?_
    | split)

theorem State.setSensor_pres : ∀ s x2 x3, Pres s (State.setSensor s x2 x3) := by
  intro s x2 x3
  unfold State.setSensor
  repeat' (first | (fail_if_no_progress (with_reducible refine pres_lit ?_)) | with_reducible exact Pres.refl _)

theorem State.ignoreSensor_pres : ∀ s x2 x3, Pres s (State.ignoreSensor s x2 x3) := by
  intro s x2 x3
  unfold State.ignoreSensor
  repeat' (first
    | (fail_if_no_progress (with_reducible refine pres_lit ?_)) | with_reducible exact Pres.refl _ | intro _
    | with_reducible refine (State.bump_pres _ _ _).after ?_ | with_reducible refine (State.setSensor_pres _ _ _).after ?_
    | with_reducible refine (State.logS0_pres _ _ _ _).after ?_ | with_reducible refine (pres_foldl ?_ _ _).after ?_ | split | dsimp only)

theorem State.hottest_pres : ∀ s x2, Pres s (State.hottest s x2) := by
  intro s x2
  unfold State.hottest
  repeat' (first | with_reducible exact Pres.refl _ | with_reducible refine (State.wr_pres _ _ _).after ?_ | split)

theorem State.overheat_pres : ∀ s, Pres s (State.overheat s) := by
  intro s
  unfold State.overheat
  repeat' (first
    | with_reducible exact Pres.refl _ | intro _ | with_reducible refine (State.failStop_pres _ _).after ?_
    | with_reducible refine (State.freshJunk_pres _).after ?_ | with_reducible refine (State.coreOff_pres _ _ _).after ?_
    | with_reducible refine (State.wr_pres _ _ _).after ?_ | with_reducible refine (pres_foldl ?_ _ _).after ?_)

theorem State.heatStep_pres : ∀ s x2 x3 x4, Pres s (State.heatStep s x2 x3 x4) := by
  intro s x2 x3 x4
  unfold State.heatStep
  repeat' (first
    | (fail_if_no_progress (with_reducible refine pres_lit ?_)) | with_reducible exact Pres.refl _ | intro _
    | with_reducible refine (pres_foldl ?_ _ _).after ?_)

theorem State.leafHeat_pres : ∀ s x2 x3 x4 x5, Pres s (State.leafHeat s x2 x3 x4 x5) := by
  intro s x2 x3 x4 x5
  unfold State.leafHeat
  repeat' (first
    | with_reducible exact Pres.refl _ | with_reducible refine (State.thermalStep_pres _ _ _).after ?_
    | with_reducible refine (State.setSensor_pres _ _ _).after ?_ | with_reducible refine (State.heatStep_pres _ _ _ _).after ?_ | split
    | dsimp only)

theorem State.hubHeat_pres : ∀ s x2 x3 x4, Pres s (State.hubHeat s x2 x3 x4) := by
  intro s x2 x3 x4
  unfold State.hubHeat
  repeat' (first
    | (fail_if_no_progress (with_reducible refine pres_lit ?_)) | with_reducible exact Pres.refl _
    | with_reducible refine (State.setSensor_pres _ _ _).after ?_ | split | dsimp only)

theorem execThermalSample_pres : ∀ x1 x2 s, Keeps s (execThermalSample x1 x2 s) := by
  intro x1 x2 s
  unfold execThermalSample
  repeat' (first
    | with_reducible exact Pres.refl _ | intro _ | with_reducible refine keeps_next ?_
    | with_reducible refine (State.settle_pres _ _).after ?_ | with_reducible refine (State.ignoreSensor_pres _ _ _).after ?_
    | with_reducible refine (State.hottest_pres _ _).after ?_ | with_reducible refine (State.setSensor_pres _ _ _).after ?_
    | with_reducible refine (State.overheat_pres _).after ?_ | with_reducible refine (State.leafHeat_pres _ _ _ _ _).after ?_
    | with_reducible refine (State.hubHeat_pres _ _ _ _).after ?_ | with_reducible refine (pres_foldl ?_ _ _).after ?_ | split | dsimp only)

theorem State.settleClock_pres : ∀ s x2, Pres s (State.settleClock s x2) := by
  intro s x2
  unfold State.settleClock
  repeat' (first | with_reducible exact Pres.refl _ | with_reducible refine (State.wr_pres _ _ _).after ?_)

theorem execInputUndervoltage_pres : ∀ s, Keeps s (execInputUndervoltage s) := by
  intro s
  unfold execInputUndervoltage
  repeat' (first
    | with_reducible exact Pres.refl _ | with_reducible refine keeps_next ?_ | with_reducible refine (State.powerDown_pres _).after ?_
    | with_reducible refine (State.failStop_pres _ _).after ?_ | split)

theorem execInputOperating_pres : ∀ x1 s, Keeps s (execInputOperating x1 s) := by
  intro x1 s
  unfold execInputOperating
  repeat' (first
    | with_reducible exact Pres.refl _ | with_reducible refine keeps_next ?_ | with_reducible refine (State.setInput_pres _ _ _).after ?_
    | split)

theorem State.settleStep_pres : ∀ s x2, Pres s (State.settleStep s x2) := by
  intro s x2
  unfold State.settleStep
  repeat' (first
    | (fail_if_no_progress (with_reducible refine pres_lit ?_)) | with_reducible exact Pres.refl _
    | with_reducible refine (State.wr_pres _ _ _).after ?_ | split)

theorem execInputHigh_pres : ∀ x1 s, Keeps s (execInputHigh x1 s) := by
  intro x1 s
  unfold execInputHigh
  repeat' (first
    | with_reducible exact Pres.refl _ | with_reducible refine keeps_next ?_ | with_reducible refine (State.setInput_pres _ _ _).after ?_
    | with_reducible refine (State.inputRecord_pres _ _).after ?_ | split)

theorem execBudgetDivide_pres : ∀ x1 s, Keeps s (execBudgetDivide x1 s) := by
  intro x1 s
  unfold execBudgetDivide
  repeat' (first
    | (fail_if_no_progress (with_reducible refine pres_lit ?_)) | with_reducible exact Pres.refl _ | intro _
    | with_reducible refine keeps_next ?_ | with_reducible refine (State.settle_pres _ _).after ?_
    | with_reducible refine (State.wr_pres _ _ _).after ?_ | with_reducible refine (State.modLeaf_pres _ _ _).after ?_
    | with_reducible refine (pres_foldl ?_ _ _).after ?_ | split)

theorem execClockAdjust_pres : ∀ x1 x2 s, Keeps s (execClockAdjust x1 x2 s) := by
  intro x1 x2 s
  unfold execClockAdjust
  repeat' (first
    | with_reducible exact Pres.refl _ | intro _ | with_reducible refine keeps_next ?_
    | with_reducible refine (State.settleClock_pres _ _).after ?_ | with_reducible refine (State.settleStep_pres _ _).after ?_
    | with_reducible refine (State.wr_pres _ _ _).after ?_ | with_reducible refine (pres_foldl ?_ _ _).after ?_ | split | dsimp only)

theorem execTimeSync_pres : ∀ x1 s, Keeps s (execTimeSync x1 s) := by
  intro x1 s
  unfold execTimeSync
  repeat' (first
    | (fail_if_no_progress (with_reducible refine pres_lit ?_)) | with_reducible exact Pres.refl _ | with_reducible refine keeps_next ?_
    | with_reducible refine (State.wrb_pres _ _ _).after ?_ | with_reducible refine (State.wr_pres _ _ _).after ?_
    | with_reducible refine (State.correctTime_pres _ _).after ?_ | split)

theorem execPrsntMate_pres : ∀ s, Keeps s (execPrsntMate s) := by
  intro s
  unfold execPrsntMate
  repeat' (first
    | (fail_if_no_progress (with_reducible refine pres_lit ?_)) | with_reducible exact Pres.refl _ | with_reducible refine keeps_next ?_
    | split)

theorem execCapWrite_pres : ∀ x1 s, Keeps s (execCapWrite x1 s) := by
  intro x1 s
  unfold execCapWrite
  repeat' (first
    | with_reducible exact Pres.refl _ | with_reducible refine keeps_next ?_ | with_reducible refine (State.setCap_pres _ _).after ?_
    | split)

theorem execDroopRelease_pres : ∀ x1 s, Keeps s (execDroopRelease x1 s) := by
  intro x1 s
  unfold execDroopRelease
  repeat' (first
    | (fail_if_no_progress (with_reducible refine pres_lit ?_)) | with_reducible exact Pres.refl _ | with_reducible refine keeps_next ?_
    | with_reducible refine (State.wr_pres _ _ _).after ?_ | split)

theorem State.movePref_pres : ∀ s, Pres s (State.movePref s) := by
  intro s
  unfold State.movePref
  repeat' (first
    | (fail_if_no_progress (with_reducible refine pres_lit ?_)) | with_reducible exact Pres.refl _
    | with_reducible refine (State.logS0_pres _ _ _ _).after ?_ | split | dsimp only)

theorem State.mbxEnd_pres : ∀ s x2 x3 x4 x5, Pres s (State.mbxEnd s x2 x3 x4 x5) := by
  intro s x2 x3 x4 x5
  unfold State.mbxEnd
  repeat' (first | with_reducible exact Pres.refl _ | with_reducible refine (State.modMbox_pres _ _ _).after ?_)

theorem State.mbxFail_pres : ∀ s x2 x3, Pres s (State.mbxFail s x2 x3) := by
  intro s x2 x3
  unfold State.mbxFail
  repeat' (first | with_reducible exact Pres.refl _ | with_reducible refine (State.mbxEnd_pres _ _ _ _ _).after ?_)

theorem execLogRead_pres : ∀ x1 s, Keeps s (execLogRead x1 s) := by
  intro x1 s
  unfold execLogRead
  repeat' (first
    | with_reducible exact Pres.refl _ | with_reducible refine keeps_next ?_ | with_reducible refine (State.mbxFail_pres _ _ _).after ?_
    | with_reducible refine (State.mbxEnd_pres _ _ _ _ _).after ?_ | with_reducible refine (State.hmStore_pres _ _ _).after ?_ | split)

theorem State.portsGone_pres : ∀ s, Pres s (State.portsGone s) := by
  intro s
  unfold State.portsGone
  repeat' (first
    | with_reducible exact Pres.refl _ | intro _ | with_reducible refine (State.modPort_pres _ _ _).after ?_
    | with_reducible refine (pres_foldl ?_ _ _).after ?_)

theorem State.moduleReset_pres : ∀ s, Pres s (State.moduleReset s) := by
  intro s
  unfold State.moduleReset
  repeat' (first
    | with_reducible exact Pres.refl _ | with_reducible refine (State.cold_pres _).after ?_
    | with_reducible refine (State.portsGone_pres _).after ?_)

theorem execPerstAssert_pres : ∀ s, Keeps s (execPerstAssert s) := by
  intro s
  unfold execPerstAssert
  repeat' (first
    | (fail_if_no_progress (with_reducible refine pres_lit ?_)) | with_reducible exact Pres.refl _ | with_reducible refine keeps_next ?_
    | with_reducible refine (State.moduleReset_pres _).after ?_)

theorem State.powerUp_pres : ∀ s, Pres s (State.powerUp s) := by
  intro s
  unfold State.powerUp
  repeat' (first
    | (fail_if_no_progress (with_reducible refine pres_lit ?_)) | with_reducible exact Pres.refl _
    | with_reducible refine (State.cold_pres _).after ?_)

theorem execPowerRestore_pres : ∀ s, Keeps s (execPowerRestore s) := by
  intro s
  unfold execPowerRestore
  repeat' (first
    | with_reducible exact Pres.refl _ | with_reducible refine keeps_next ?_ | with_reducible refine (State.powerUp_pres _).after ?_ | split)

theorem State.bootDomains_pres : ∀ s, Pres s (State.bootDomains s) := by
  intro s
  unfold State.bootDomains
  repeat' (first | with_reducible exact Pres.refl _ | with_reducible refine (State.wr_pres _ _ _).after ?_)

theorem execCfgRead_pres : ∀ x1 s, Keeps s (execCfgRead x1 s) := by
  intro x1 s
  unfold execCfgRead
  repeat' (first
    | with_reducible exact Pres.refl _ | with_reducible refine keeps_next ?_ | with_reducible refine (State.mbxFail_pres _ _ _).after ?_
    | with_reducible refine (State.mbxEnd_pres _ _ _ _ _).after ?_ | with_reducible refine (State.hmStore_pres _ _ _).after ?_ | split)

theorem State.unmask_pres : ∀ s x2, Pres s (State.unmask s x2) := by
  intro s x2
  unfold State.unmask
  repeat' (first
    | with_reducible exact Pres.refl _ | with_reducible refine (State.wr_pres _ _ _).after ?_
    | with_reducible refine (State.raiseVec_pres _ _).after ?_ | split | dsimp only)

theorem execCfgWrite_pres : ∀ x1 x2 s, Keeps s (execCfgWrite x1 x2 s) := by
  intro x1 x2 s
  unfold execCfgWrite
  repeat' (first
    | (fail_if_no_progress (with_reducible refine pres_lit ?_)) | with_reducible exact Pres.refl _ | with_reducible refine keeps_next ?_
    | with_reducible refine (State.mbxFail_pres _ _ _).after ?_ | with_reducible refine (State.mbxEnd_pres _ _ _ _ _).after ?_ | split)

theorem State.cfgNumber_pres : ∀ s x2 x3 x4 x5, Pres s (State.cfgNumber s x2 x3 x4 x5) := by
  intro s x2 x3 x4 x5
  unfold State.cfgNumber
  repeat' (first
    | with_reducible exact Pres.refl _ | with_reducible refine (State.wr_pres _ _ _).after ?_
    | with_reducible refine (State.logS0_pres _ _ _ _).after ?_ | split | dsimp only)

theorem State.checkAdapters_pres : ∀ s, Pres s (State.checkAdapters s) := by
  intro s
  unfold State.checkAdapters
  repeat' (first
    | with_reducible exact Pres.refl _ | intro _ | with_reducible refine (State.logS0_pres _ _ _ _).after ?_
    | with_reducible refine (pres_foldl ?_ _ _).after ?_ | split | dsimp only)

theorem State.applyPort_pres : ∀ s x2, Pres s (State.applyPort s x2) := by
  intro s x2
  unfold State.applyPort
  repeat' (first
    | with_reducible exact Pres.refl _ | with_reducible refine (State.logS0_pres _ _ _ _).after ?_
    | with_reducible refine (State.wrb_pres _ _ _).after ?_ | with_reducible refine (State.wr_pres _ _ _).after ?_ | split | dsimp only)

theorem State.applyConfig_pres : ∀ s x2, Pres s (State.applyConfig s x2) := by
  intro s x2
  unfold State.applyConfig
  repeat' (first
    | (fail_if_no_progress (with_reducible refine pres_lit ?_)) | with_reducible exact Pres.refl _ | intro _
    | with_reducible refine (State.wr_pres _ _ _).after ?_ | with_reducible refine (State.cfgNumber_pres _ _ _ _ _).after ?_
    | with_reducible refine (State.logS0_pres _ _ _ _).after ?_ | with_reducible refine (State.checkAdapters_pres _).after ?_
    | with_reducible refine (State.applyPort_pres _ _).after ?_ | with_reducible refine (pres_foldl ?_ _ _).after ?_ | split)

theorem State.readConfig_pres : ∀ s, Pres s (State.readConfig s) := by
  intro s
  unfold State.readConfig
  repeat' (first
    | (fail_if_no_progress (with_reducible refine pres_lit ?_)) | with_reducible exact Pres.refl _
    | with_reducible refine (State.applyConfig_pres _ _).after ?_ | split | dsimp only)

theorem State.clearFail_pres : ∀ s x2, Pres s (State.clearFail s x2) := by
  intro s x2
  unfold State.clearFail
  repeat' (first | (fail_if_no_progress (with_reducible refine pres_lit ?_)) | with_reducible exact Pres.refl _)

theorem execCtlModuleReset_pres : ∀ s, Keeps s (execCtlModuleReset s) := by
  intro s
  unfold execCtlModuleReset
  repeat' (first
    | with_reducible exact Pres.refl _ | with_reducible refine keeps_next ?_ | with_reducible refine (State.moduleReset_pres _).after ?_
    | split)

theorem execPowerOn_pres : ∀ x1 s, Keeps s (execPowerOn x1 s) := by
  intro x1 s
  unfold execPowerOn
  repeat' (first
    | with_reducible exact Pres.refl _ | with_reducible refine keeps_next ?_ | with_reducible refine (State.powerUp_pres _).after ?_
    | with_reducible refine (State.setInput_pres _ _ _).after ?_ | split)

theorem State.mbxDone_pres : ∀ s x2 x3 x4 x5, Pres s (State.mbxDone s x2 x3 x4 x5) := by
  intro s x2 x3 x4 x5
  unfold State.mbxDone
  repeat' (first
    | with_reducible exact Pres.refl _ | with_reducible refine (State.wr_pres _ _ _).after ?_
    | with_reducible refine (State.modMbox_pres _ _ _).after ?_ | with_reducible refine (State.raiseVec_pres _ _).after ?_)

theorem execMailboxComplete_pres : ∀ x1 s, Keeps s (execMailboxComplete x1 s) := by
  intro x1 s
  unfold execMailboxComplete
  repeat' (first
    | with_reducible exact Pres.refl _ | with_reducible refine keeps_next ?_ | with_reducible refine (State.mbxDone_pres _ _ _ _ _).after ?_
    | split)

theorem State.linkTrained_pres : ∀ s, Pres s (State.linkTrained s) := by
  intro s
  unfold State.linkTrained
  repeat' (first
    | (fail_if_no_progress (with_reducible refine pres_lit ?_)) | with_reducible exact Pres.refl _
    | with_reducible refine (State.wr_pres _ _ _).after ?_)

theorem State.bootFail_pres : ∀ s x2, Pres s (State.bootFail s x2) := by
  intro s x2
  unfold State.bootFail
  repeat' (first
    | (fail_if_no_progress (with_reducible refine pres_lit ?_)) | with_reducible exact Pres.refl _
    | with_reducible refine (State.bumpFail_pres _).after ?_ | with_reducible refine (State.wr_pres _ _ _).after ?_
    | with_reducible refine (State.writeRecord_pres _ _).after ?_ | with_reducible refine (State.raiseIbi_pres _ _).after ?_)

theorem State.bootRings_pres : ∀ s, Pres s (State.bootRings s) := by
  intro s
  unfold State.bootRings
  repeat' (first
    | with_reducible exact Pres.refl _ | intro _ | with_reducible refine (State.wr_pres _ _ _).after ?_
    | with_reducible refine (pres_foldl ?_ _ _).after ?_ | split)

theorem execBootTimeout_pres : ∀ s, Keeps s (execBootTimeout s) := by
  intro s
  unfold execBootTimeout
  repeat' (first
    | with_reducible exact Pres.refl _ | with_reducible refine keeps_next ?_ | with_reducible refine (State.bootFail_pres _ _).after ?_
    | split)

theorem execMbxNop_pres : ∀ x1 s, Keeps s (execMbxNop x1 s) := by
  intro x1 s
  unfold execMbxNop
  repeat' (first
    | with_reducible exact Pres.refl _ | with_reducible refine keeps_next ?_ | with_reducible refine (State.mbxEnd_pres _ _ _ _ _).after ?_
    | split)

theorem State.controlFault_pres : ∀ s x2 x3, Pres s (State.controlFault s x2 x3) := by
  intro s x2 x3
  unfold State.controlFault
  repeat' (first
    | with_reducible exact Pres.refl _ | with_reducible refine (State.failStop_pres _ _).after ?_
    | with_reducible refine (State.bumpFail_pres _).after ?_ | split | dsimp only)

theorem execControlCoreException_pres : ∀ x1 s, Keeps s (execControlCoreException x1 s) := by
  intro x1 s
  unfold execControlCoreException
  repeat' (first
    | with_reducible exact Pres.refl _ | with_reducible refine keeps_next ?_
    | with_reducible refine (State.controlFault_pres _ _ _).after ?_ | split)

theorem execFwSelect_pres : ∀ x1 x2 s, Keeps s (execFwSelect x1 x2 s) := by
  intro x1 x2 s
  unfold execFwSelect
  repeat' (first
    | (fail_if_no_progress (with_reducible refine pres_lit ?_)) | with_reducible exact Pres.refl _ | with_reducible refine keeps_next ?_
    | with_reducible refine (State.mbxFail_pres _ _ _).after ?_ | with_reducible refine (State.mbxEnd_pres _ _ _ _ _).after ?_
    | with_reducible refine (State.clearFail_pres _ _).after ?_ | split)

theorem execFwWrite_pres : ∀ x1 x2 x3 s, Keeps s (execFwWrite x1 x2 x3 s) := by
  intro m chk ok s
  unfold execFwWrite
  extract_lets img stage slot len key src put
  have hp : ∀ i, Pres s (put i) := fun i => by
    show Pres s (State.mk ..)
    with_reducible refine pres_lit ?_
    exact Pres.refl _
  clear_value put img
  refine keeps_next ?_
  repeat' (first
    | with_reducible exact Pres.refl _
    | with_reducible exact hp _
    | with_reducible refine (State.mbxEnd_pres _ _ _ _ _).after ?_
    | with_reducible refine (State.mbxFail_pres _ _ _).after ?_
    | split)

theorem execMsixUnmask_pres : ∀ x1 s, Keeps s (execMsixUnmask x1 s) := by
  intro x1 s
  unfold execMsixUnmask
  repeat' (first
    | with_reducible exact Pres.refl _ | with_reducible refine keeps_next ?_ | with_reducible refine (State.unmask_pres _ _).after ?_
    | split)

theorem execBar2Access_pres : ∀ x1 x2 x3 x4 x5 s, Keeps s (execBar2Access x1 x2 x3 x4 x5 s) := by
  intro x1 x2 x3 x4 x5 s
  unfold execBar2Access
  repeat' (first
    | (fail_if_no_progress (with_reducible refine pres_lit ?_)) | with_reducible exact Pres.refl _ | intro _
    | with_reducible refine keeps_next ?_ | with_reducible refine (State.logS0_pres _ _ _ _).after ?_
    | with_reducible refine (State.sramUpsets_pres _ _).after ?_ | with_reducible refine (State.hmStore_pres _ _ _).after ?_
    | with_reducible refine (State.raise_pres _ _).after ?_ | with_reducible refine (pres_foldl ?_ _ _).after ?_ | split | dsimp only)

theorem execModuleReset_pres : ∀ s, Keeps s (execModuleReset s) := by
  intro s
  unfold execModuleReset
  repeat' (first
    | with_reducible exact Pres.refl _ | with_reducible refine keeps_next ?_ | with_reducible refine (State.moduleReset_pres _).after ?_
    | split)

theorem execWatchdogExpiry_pres : ∀ x1 s, Keeps s (execWatchdogExpiry x1 s) := by
  intro x1 s
  unfold execWatchdogExpiry
  repeat' (first
    | with_reducible exact Pres.refl _ | with_reducible refine keeps_next ?_
    | with_reducible refine (State.controlFault_pres _ _ _).after ?_ | split)

theorem execSoftStartDone_pres : ∀ s, Keeps s (execSoftStartDone s) := by
  intro s
  unfold execSoftStartDone
  repeat' (first
    | with_reducible exact Pres.refl _ | with_reducible refine keeps_next ?_ | with_reducible refine (State.powerUp_pres _).after ?_ | split)

theorem State.measure_pres : ∀ s x2, Pres s (State.measure s x2) := by
  intro s x2
  unfold State.measure
  repeat' (first
    | (fail_if_no_progress (with_reducible refine pres_lit ?_)) | with_reducible exact Pres.refl _
    | with_reducible refine (State.free_pres _).after ?_)

theorem State.bootArrays_pres : ∀ s x2, Pres s (State.bootArrays s x2) := by
  intro s x2
  unfold State.bootArrays
  repeat' (first
    | (fail_if_no_progress (with_reducible refine spKept_lit ?_)) | with_reducible exact Pres.refl _ | intro _
    | with_reducible exact SpKept.refl _ | with_reducible refine (State.wr_pres _ _ _).after ?_
    | with_reducible refine (State.bump_pres _ _ _).after ?_ | with_reducible refine (State.modCore_pres ?_ _ _).after ?_
    | with_reducible refine (State.disableArray_pres _ _ _).after ?_ | with_reducible refine (pres_foldl ?_ _ _).after ?_ | split)

theorem State.sampleStraps_pres : ∀ s x2, Pres s (State.sampleStraps s x2) := by
  intro s x2
  unfold State.sampleStraps
  repeat' (first
    | (fail_if_no_progress (with_reducible refine pres_lit ?_)) | with_reducible exact Pres.refl _
    | with_reducible refine (State.logS0_pres _ _ _ _).after ?_ | split | dsimp only)

theorem State.stage2_pres : ∀ s x2 x3, Pres s (State.stage2 s x2 x3) := by
  intro s x2 x3
  unfold State.stage2
  repeat' (first
    | (fail_if_no_progress (with_reducible refine pres_lit ?_)) | with_reducible exact Pres.refl _ | intro _
    | with_reducible refine (State.wr_pres _ _ _).after ?_ | with_reducible refine (State.bootFail_pres _ _).after ?_
    | with_reducible refine (State.readConfig_pres _).after ?_ | with_reducible refine (State.trainLeaf_pres _ _ _ _).after ?_
    | with_reducible refine (State.leafActive_pres _ _).after ?_ | with_reducible refine (State.measure_pres _ _).after ?_
    | with_reducible refine (State.bootArrays_pres _ _).after ?_ | with_reducible refine (State.bootRings_pres _).after ?_
    | with_reducible refine (State.bootDomains_pres _).after ?_ | with_reducible refine (State.modChan_pres _ _ _).after ?_
    | with_reducible refine (State.writeBank_pres _ _ _).after ?_ | with_reducible refine (State.free_pres _).after ?_
    | with_reducible refine (State.clearFail_pres _ _).after ?_ | with_reducible refine (State.raiseIbi_pres _ _).after ?_
    | with_reducible refine (State.svcEvent_pres _ _).after ?_ | with_reducible refine (State.bringUp_pres _ _).after ?_
    | with_reducible refine (pres_foldl ?_ _ _).after ?_ | split | dsimp only)

theorem execBoot_pres : ∀ x1 x2 s, Keeps s (execBoot x1 x2 s) := by
  intro x1 x2 s
  unfold execBoot
  repeat' (first
    | (fail_if_no_progress (with_reducible refine pres_lit ?_)) | with_reducible exact Pres.refl _ | with_reducible refine keeps_next ?_
    | with_reducible refine (State.sampleStraps_pres _ _).after ?_ | with_reducible refine (State.movePref_pres _).after ?_
    | with_reducible refine (State.wr_pres _ _ _).after ?_ | with_reducible refine (State.linkTrained_pres _).after ?_
    | with_reducible refine (State.stage2_pres _ _ _).after ?_ | split | dsimp only)

theorem execFwCommit_pres : ∀ x1 x2 s, Keeps s (execFwCommit x1 x2 s) := by
  intro m ok s
  unfold execFwCommit
  extract_lets slot svn
  refine keeps_next ?_
  split
  · exact Pres.refl _
  · split
    · exact State.mbxEnd_pres _ _ _ _ _
    · split
      · exact State.mbxFail_pres _ _ _
      · rename_i h _
        refine (State.mbxEnd_pres _ _ _ _ _).after ⟨rfl, rfl, ?_, id⟩
        exact le_of_lt (not_le.mp h)

theorem execFunctionReset_pres : ∀ s, Keeps s (execFunctionReset s) := by
  intro s
  unfold execFunctionReset
  repeat' (first
    | with_reducible exact Pres.refl _ | intro _ | with_reducible refine keeps_next ?_
    | with_reducible refine (State.wr_pres _ _ _).after ?_ | with_reducible refine (State.disableQueue_pres _ _).after ?_
    | with_reducible refine (pres_foldl ?_ _ _).after ?_ | split)

theorem State.hostRead_pres : ∀ s x2 x3, Pres s (State.hostRead s x2 x3).2 := by
  intro s x2 x3
  unfold State.hostRead
  repeat' (first
    | with_reducible exact Pres.refl _ | with_reducible refine (State.logS0_pres _ _ _ _).after ?_
    | with_reducible refine (State.logDropped_pres _ _).after ?_ | split | dsimp only)

theorem State.say_pres : ∀ s x2, Pres s (State.say s x2) := by
  intro s x2
  unfold State.say
  repeat' (first | (fail_if_no_progress (with_reducible refine pres_lit ?_)) | with_reducible exact Pres.refl _)

theorem State.spdmFail_pres : ∀ s x2, Pres s (State.spdmFail s x2) := by
  intro s x2
  unfold State.spdmFail
  repeat' (first | with_reducible exact Pres.refl _ | with_reducible refine (State.say_pres _ _).after ?_)

theorem State.spdmThen_pres {f3} (h3 : ∀ y0, Pres y0 (f3 y0)) : ∀ s x2, Pres s (State.spdmThen s x2 f3) := by
  intro s x2
  unfold State.spdmThen
  repeat' (first
    | with_reducible exact Pres.refl _ | with_reducible refine (State.spdmFail_pres _ _).after ?_ | with_reducible refine (h3 _).after ?_
    | split)

theorem execBeaconToggle_pres : ∀ s, Keeps s (execBeaconToggle s) := by
  intro s
  unfold execBeaconToggle
  repeat' (first
    | (fail_if_no_progress (with_reducible refine pres_lit ?_)) | with_reducible exact Pres.refl _ | with_reducible refine keeps_next ?_
    | with_reducible refine (State.wrLater_pres _ _ _).after ?_ | split)

theorem State.spdmAnswer_pres : ∀ s x2 x3, Pres s (State.spdmAnswer s x2 x3) := by
  intro s x2 x3
  unfold State.spdmAnswer
  repeat' (first
    | (fail_if_no_progress (with_reducible refine pres_lit ?_)) | with_reducible exact Pres.refl _
    | with_reducible refine (State.say_pres _ _).after ?_)

theorem execGetMeasurements_pres : ∀ x1 x2 x3 x4 s, Keeps s (execGetMeasurements x1 x2 x3 x4 s) := by
  intro x1 x2 x3 x4 s
  unfold execGetMeasurements
  repeat' (first
    | with_reducible exact Pres.refl _ | intro _ | with_reducible refine keeps_next ?_
    | with_reducible refine (State.spdmThen_pres ?_ _ _).after ?_ | with_reducible refine (State.spdmFail_pres _ _).after ?_
    | with_reducible refine (pres_of2 (by assumption) (State.free_pres _)).after ?_
    | with_reducible refine (State.spdmAnswer_pres _ _ _).after ?_ | split | dsimp only)

theorem execDisec_pres : ∀ s, Keeps s (execDisec s) := by
  intro s
  unfold execDisec
  repeat' (first
    | (fail_if_no_progress (with_reducible refine pres_lit ?_)) | with_reducible exact Pres.refl _ | with_reducible refine keeps_next ?_
    | split)

theorem execNegotiateAlgorithms_pres : ∀ x1 x2 x3 s, Keeps s (execNegotiateAlgorithms x1 x2 x3 s) := by
  intro x1 x2 x3 s
  unfold execNegotiateAlgorithms
  repeat' (first
    | (fail_if_no_progress (with_reducible refine pres_lit ?_)) | with_reducible exact Pres.refl _ | with_reducible refine keeps_next ?_
    | with_reducible refine (State.spdmFail_pres _ _).after ?_ | with_reducible refine (State.spdmAnswer_pres _ _ _).after ?_ | split)

theorem execChallenge_pres : ∀ x1 x2 x3 s, Keeps s (execChallenge x1 x2 x3 s) := by
  intro x1 x2 x3 s
  unfold execChallenge
  repeat' (first
    | with_reducible exact Pres.refl _ | intro _ | with_reducible refine keeps_next ?_
    | with_reducible refine (State.spdmThen_pres ?_ _ _).after ?_ | with_reducible refine (State.spdmFail_pres _ _).after ?_
    | with_reducible refine (State.free_pres _).after ?_ | with_reducible refine (State.spdmAnswer_pres _ _ _).after ?_ | split)

theorem execI3cIndexWrite_pres : ∀ x1 s, Keeps s (execI3cIndexWrite x1 s) := by
  intro x1 s
  unfold execI3cIndexWrite
  repeat' (first
    | (fail_if_no_progress (with_reducible refine pres_lit ?_)) | with_reducible exact Pres.refl _ | with_reducible refine keeps_next ?_
    | with_reducible refine (State.say_pres _ _).after ?_ | split)

theorem execEntdaa_pres : ∀ x1 s, Keeps s (execEntdaa x1 s) := by
  intro x1 s
  unfold execEntdaa
  repeat' (first
    | (fail_if_no_progress (with_reducible refine pres_lit ?_)) | with_reducible exact Pres.refl _ | with_reducible refine keeps_next ?_
    | with_reducible refine (State.say_pres _ _).after ?_ | split)

theorem State.i3cAnswer_pres : ∀ s x2, Pres s (State.i3cAnswer s x2) := by
  intro s x2
  unfold State.i3cAnswer
  repeat' (first | with_reducible exact Pres.refl _ | with_reducible refine (State.say_pres _ _).after ?_ | split)

theorem execGetpid_pres : ∀ s, Keeps s (execGetpid s) := by
  intro s
  unfold execGetpid
  repeat' (first
    | with_reducible exact Pres.refl _ | with_reducible refine keeps_next ?_ | with_reducible refine (State.i3cAnswer_pres _ _).after ?_)

theorem execGetstatus_pres : ∀ s, Keeps s (execGetstatus s) := by
  intro s
  unfold execGetstatus
  repeat' (first
    | with_reducible exact Pres.refl _ | with_reducible refine keeps_next ?_ | with_reducible refine (State.free_pres _).after ?_
    | with_reducible refine (State.i3cAnswer_pres _ _).after ?_)

theorem execSetdasa_pres : ∀ x1 s, Keeps s (execSetdasa x1 s) := by
  intro x1 s
  unfold execSetdasa
  repeat' (first
    | (fail_if_no_progress (with_reducible refine pres_lit ?_)) | with_reducible exact Pres.refl _ | with_reducible refine keeps_next ?_
    | split)

theorem execGetCapabilities_pres : ∀ x1 s, Keeps s (execGetCapabilities x1 s) := by
  intro x1 s
  unfold execGetCapabilities
  repeat' (first
    | (fail_if_no_progress (with_reducible refine pres_lit ?_)) | with_reducible exact Pres.refl _ | with_reducible refine keeps_next ?_
    | with_reducible refine (State.spdmFail_pres _ _).after ?_ | with_reducible refine (State.spdmAnswer_pres _ _ _).after ?_ | split)

theorem execGetDigests_pres : ∀ x1 s, Keeps s (execGetDigests x1 s) := by
  intro x1 s
  unfold execGetDigests
  repeat' (first
    | with_reducible exact Pres.refl _ | intro _ | with_reducible refine keeps_next ?_
    | with_reducible refine (State.spdmThen_pres ?_ _ _).after ?_ | with_reducible refine (State.spdmAnswer_pres _ _ _).after ?_)

theorem execRstdaa_pres : ∀ s, Keeps s (execRstdaa s) := by
  intro s
  unfold execRstdaa
  repeat' (first
    | (fail_if_no_progress (with_reducible refine pres_lit ?_)) | with_reducible exact Pres.refl _ | with_reducible refine keeps_next ?_
    | split)

theorem execIbiRetry_pres : ∀ x1 s, Keeps s (execIbiRetry x1 s) := by
  intro x1 s
  unfold execIbiRetry
  repeat' (first
    | (fail_if_no_progress (with_reducible refine pres_lit ?_)) | with_reducible exact Pres.refl _ | with_reducible refine keeps_next ?_
    | with_reducible refine (State.say_pres _ _).after ?_ | split)

theorem execEnec_pres : ∀ s, Keeps s (execEnec s) := by
  intro s
  unfold execEnec
  repeat' (first
    | (fail_if_no_progress (with_reducible refine pres_lit ?_)) | with_reducible exact Pres.refl _ | with_reducible refine keeps_next ?_
    | split)

theorem execGetbcr_pres : ∀ s, Keeps s (execGetbcr s) := by
  intro s
  unfold execGetbcr
  repeat' (first
    | with_reducible exact Pres.refl _ | with_reducible refine keeps_next ?_ | with_reducible refine (State.i3cAnswer_pres _ _).after ?_)

theorem execGetdcr_pres : ∀ s, Keeps s (execGetdcr s) := by
  intro s
  unfold execGetdcr
  repeat' (first
    | with_reducible exact Pres.refl _ | with_reducible refine keeps_next ?_ | with_reducible refine (State.i3cAnswer_pres _ _).after ?_)

theorem execGetCertificate_pres : ∀ x1 x2 x3 x4 s, Keeps s (execGetCertificate x1 x2 x3 x4 s) := by
  intro x1 x2 x3 x4 s
  unfold execGetCertificate
  repeat' (first
    | with_reducible exact Pres.refl _ | intro _ | with_reducible refine keeps_next ?_
    | with_reducible refine (State.spdmThen_pres ?_ _ _).after ?_ | with_reducible refine (State.spdmFail_pres _ _).after ?_
    | with_reducible refine (State.spdmAnswer_pres _ _ _).after ?_ | split | dsimp only)

theorem execGetVersion_pres : ∀ s, Keeps s (execGetVersion s) := by
  intro s
  unfold execGetVersion
  repeat' (first
    | (fail_if_no_progress (with_reducible refine pres_lit ?_)) | with_reducible exact Pres.refl _ | with_reducible refine keeps_next ?_
    | with_reducible refine (State.spdmAnswer_pres _ _ _).after ?_ | split)

theorem execFruRead_pres : ∀ x1 s, Keeps s (execFruRead x1 s) := by
  intro x1 s
  unfold execFruRead
  repeat' (first | with_reducible exact Pres.refl _ | with_reducible refine keeps_next ?_ | with_reducible refine (State.say_pres _ _).after ?_)

theorem execDoeDiscovery_pres : ∀ x1 s, Keeps s (execDoeDiscovery x1 s) := by
  intro x1 s
  unfold execDoeDiscovery
  repeat' (first
    | with_reducible exact Pres.refl _ | with_reducible refine keeps_next ?_ | with_reducible refine (State.say_pres _ _).after ?_ | split)

theorem State.testStart_pres {f4} (h4 : ∀ y0, Pres y0 (f4 y0)) : ∀ s x2 x3, Pres s (State.testStart s x2 x3 f4) := by
  intro s x2 x3
  unfold State.testStart
  repeat' (first
    | with_reducible exact Pres.refl _ | with_reducible refine (State.mbxFail_pres _ _ _).after ?_ | with_reducible refine (h4 _).after ?_
    | split)

theorem State.tapLoad_pres : ∀ s x2 x3 x4, Pres s (State.tapLoad s x2 x3 x4) := by
  intro s x2 x3 x4
  unfold State.tapLoad
  repeat' (first
    | with_reducible exact Pres.refl _ | with_reducible refine (State.modTap_pres _ _ _).after ?_
    | with_reducible refine (State.say_pres _ _).after ?_ | split)

theorem execBypass_pres : ∀ x1 x2 s, Keeps s (execBypass x1 x2 s) := by
  intro x1 x2 s
  unfold execBypass
  repeat' (first
    | with_reducible exact Pres.refl _ | with_reducible refine keeps_next ?_ | with_reducible refine (State.tapLoad_pres _ _ _ _).after ?_
    | split)

theorem State.mbxStart_pres : ∀ s x2, Pres s (State.mbxStart s x2) := by
  intro s x2
  unfold State.mbxStart
  repeat' (first | with_reducible exact Pres.refl _ | with_reducible refine (State.modMbox_pres _ _ _).after ?_)

theorem execLmMargin_pres : ∀ x1 s, Keeps s (execLmMargin x1 s) := by
  intro x1 s
  unfold execLmMargin
  repeat' (first
    | with_reducible exact Pres.refl _ | intro _ | with_reducible refine keeps_next ?_
    | with_reducible refine (State.testStart_pres ?_ _ _ _).after ?_ | with_reducible refine (State.mbxFail_pres _ _ _).after ?_
    | with_reducible refine (State.mbxEnd_pres _ _ _ _ _).after ?_ | with_reducible refine (State.modChan_pres _ _ _).after ?_
    | with_reducible refine (State.mbxStart_pres _ _).after ?_ | split)

theorem State.loopEnd_pres : ∀ s x2, Pres s (State.loopEnd s x2) := by
  intro s x2
  unfold State.loopEnd
  repeat' (first
    | with_reducible exact Pres.refl _ | with_reducible refine (State.bringUp_pres _ _).after ?_
    | with_reducible refine (State.modPort_pres _ _ _).after ?_)

theorem execSamplePreload_pres : ∀ x1 x2 s, Keeps s (execSamplePreload x1 x2 s) := by
  intro x1 x2 s
  unfold execSamplePreload
  repeat' (first
    | with_reducible exact Pres.refl _ | with_reducible refine keeps_next ?_ | with_reducible refine (State.tapLoad_pres _ _ _ _).after ?_)

theorem execUcieMarginSlice_pres : ∀ x1 x2 x3 s, Keeps s (execUcieMarginSlice x1 x2 x3 s) := by
  intro x1 x2 x3 s
  unfold execUcieMarginSlice
  repeat' (first
    | with_reducible exact Pres.refl _ | with_reducible refine keeps_next ?_ | with_reducible refine (State.mbxFail_pres _ _ _).after ?_
    | with_reducible refine (State.modUcie_pres _ _ _ _).after ?_ | with_reducible refine (State.hmStore_pres _ _ _).after ?_
    | with_reducible refine (State.mbxEnd_pres _ _ _ _ _).after ?_ | with_reducible refine (State.bump_pres _ _ _).after ?_ | split)

theorem execClamp_pres : ∀ x1 s, Keeps s (execClamp x1 s) := by
  intro x1 s
  unfold execClamp
  repeat' (first
    | with_reducible exact Pres.refl _ | with_reducible refine keeps_next ?_ | with_reducible refine (State.tapLoad_pres _ _ _ _).after ?_)

theorem execIjtag_pres : ∀ x1 s, Keeps s (execIjtag x1 s) := by
  intro x1 s
  unfold execIjtag
  repeat' (first
    | with_reducible exact Pres.refl _ | with_reducible refine keeps_next ?_ | with_reducible refine (State.tapLoad_pres _ _ _ _).after ?_)

theorem State.testDrop_pres : ∀ s x2, Pres s (State.testDrop s x2) := by
  intro s x2
  unfold State.testDrop
  repeat' (first
    | with_reducible exact Pres.refl _ | with_reducible refine (State.modChan_pres _ _ _).after ?_
    | with_reducible refine (State.modPort_pres _ _ _).after ?_ | with_reducible refine (State.modUcie_pres _ _ _ _).after ?_
    | with_reducible refine (State.loopEnd_pres _ _).after ?_ | split)

theorem execMarginSlice_pres : ∀ x1 x2 x3 s, Keeps s (execMarginSlice x1 x2 x3 s) := by
  intro x1 x2 x3 s
  unfold execMarginSlice
  repeat' (first
    | with_reducible exact Pres.refl _ | with_reducible refine keeps_next ?_ | with_reducible refine (State.mbxEnd_pres _ _ _ _ _).after ?_
    | with_reducible refine (State.modChan_pres _ _ _).after ?_ | with_reducible refine (State.hmStore_pres _ _ _).after ?_ | split)

theorem execAtbMeasure_pres : ∀ x1 x2 x3 s, Keeps s (execAtbMeasure x1 x2 x3 s) := by
  intro x1 x2 x3 s
  unfold execAtbMeasure
  repeat' (first
    | with_reducible exact Pres.refl _ | intro _ | with_reducible refine keeps_next ?_
    | with_reducible refine (State.mbxFail_pres _ _ _).after ?_ | with_reducible refine (State.wr_pres _ _ _).after ?_
    | with_reducible refine (State.mbxEnd_pres _ _ _ _ _).after ?_ | with_reducible refine (State.bump_pres _ _ _).after ?_
    | with_reducible refine (State.testStart_pres ?_ _ _ _).after ?_ | with_reducible refine (State.mbxStart_pres _ _).after ?_ | split)

theorem execSerdesEye_pres : ∀ x1 x2 s, Keeps s (execSerdesEye x1 x2 s) := by
  intro m eyes s
  unfold execSerdesEye
  refine keeps_next ?_
  extract_lets p lane off
  split
  · split
    · split
      rename_i e
      refine (State.mbxFail_pres _ _ _).after (Pres.after ?_ (pres_of2 e (State.freshJunk_pres _)))
      exact pres_mem rfl rfl rfl (Mem.smudge_wf _ _ _ _) id (fun _ => SpKept.refl _)
    · split
      · exact Pres.refl _
      · exact (State.mbxEnd_pres _ _ _ _ _).after ((State.bump_pres _ _ _).after ((State.hmStore_pres _ _ _).after (State.modPort_pres _ _ _)))
  · refine State.testStart_pres (fun s => ?_) _ _ _
    repeat' (first
      | exact Pres.refl _
      | refine (State.mbxFail_pres _ _ _).after ?_
      | refine (State.modPort_pres _ _ _).after ?_
      | refine (State.mbxStart_pres _ _).after ?_
      | split)

theorem execHighz_pres : ∀ x1 s, Keeps s (execHighz x1 s) := by
  intro x1 s
  unfold execHighz
  repeat' (first
    | with_reducible exact Pres.refl _ | with_reducible refine keeps_next ?_ | with_reducible refine (State.tapLoad_pres _ _ _ _).after ?_)

theorem execIdcode_pres : ∀ x1 s, Keeps s (execIdcode x1 s) := by
  intro x1 s
  unfold execIdcode
  repeat' (first
    | with_reducible exact Pres.refl _ | with_reducible refine keeps_next ?_ | with_reducible refine (State.tapLoad_pres _ _ _ _).after ?_)

theorem execUcieMargin_pres : ∀ x1 s, Keeps s (execUcieMargin x1 s) := by
  intro x1 s
  unfold execUcieMargin
  repeat' (first
    | with_reducible exact Pres.refl _ | intro _ | with_reducible refine keeps_next ?_
    | with_reducible refine (State.testStart_pres ?_ _ _ _).after ?_ | with_reducible refine (State.mbxFail_pres _ _ _).after ?_
    | with_reducible refine (State.modUcie_pres _ _ _ _).after ?_ | with_reducible refine (State.mbxStart_pres _ _).after ?_ | split
    | dsimp only)

theorem execOptLoopback_pres : ∀ x1 x2 s, Keeps s (execOptLoopback x1 x2 s) := by
  intro x1 x2 s
  unfold execOptLoopback
  repeat' (first
    | with_reducible exact Pres.refl _ | intro _ | with_reducible refine keeps_next ?_
    | with_reducible refine (State.mbxEnd_pres _ _ _ _ _).after ?_ | with_reducible refine (State.bump_pres _ _ _).after ?_
    | with_reducible refine (State.loopEnd_pres _ _).after ?_ | with_reducible refine (State.testStart_pres ?_ _ _ _).after ?_
    | with_reducible refine (State.mbxFail_pres _ _ _).after ?_ | with_reducible refine (State.modPort_pres _ _ _).after ?_
    | with_reducible refine (State.mbxStart_pres _ _).after ?_ | split)

theorem execExtest_pres : ∀ x1 x2 s, Keeps s (execExtest x1 x2 s) := by
  intro x1 x2 s
  unfold execExtest
  repeat' (first
    | with_reducible exact Pres.refl _ | with_reducible refine keeps_next ?_ | with_reducible refine (State.tapLoad_pres _ _ _ _).after ?_)

theorem execTestModeNChange_pres : ∀ x1 s, Keeps s (execTestModeNChange x1 s) := by
  intro x1 s
  unfold execTestModeNChange
  repeat' (first
    | (fail_if_no_progress (with_reducible refine pres_lit ?_)) | with_reducible exact Pres.refl _ | intro _
    | with_reducible refine keeps_next ?_ | with_reducible refine (State.mbxFail_pres _ _ _).after ?_
    | with_reducible refine (State.testDrop_pres _ _).after ?_ | with_reducible refine (pres_foldl ?_ _ _).after ?_ | split)

theorem State.putRw_pres : ∀ s x2 x3, Pres s (State.putRw s x2 x3) := by
  intro s x2 x3
  unfold State.putRw
  repeat' (first
    | with_reducible exact Pres.refl _ | with_reducible refine (State.wrLater_pres _ _ _).after ?_
    | with_reducible refine (State.wr_pres _ _ _).after ?_ | split)

theorem State.putField_pres : ∀ s x2 x3 x4 x5 x6 x7, Pres s (State.putField s x2 x3 x4 x5 x6 x7) := by
  intro s x2 x3 x4 x5 x6 x7
  unfold State.putField
  repeat' (first
    | with_reducible exact Pres.refl _ | with_reducible refine (State.putRw_pres _ _ _).after ?_
    | with_reducible refine (State.wr_pres _ _ _).after ?_ | split)

theorem State.mbxGive_pres : ∀ s x2, Pres s (State.mbxGive s x2) := by
  intro s x2
  unfold State.mbxGive
  repeat' (first
    | (fail_if_no_progress (with_reducible refine pres_lit ?_)) | with_reducible exact Pres.refl _
    | with_reducible refine (State.modMbox_pres _ _ _).after ?_ | with_reducible refine (State.wr_pres _ _ _).after ?_)

theorem State.regAction_pres : ∀ old s x3 x4 x5, Pres s (State.regAction old s x3 x4 x5) := by
  intro old s x3 x4 x5
  unfold State.regAction
  repeat' (first
    | (fail_if_no_progress (with_reducible refine pres_lit ?_))
    | with_reducible exact Pres.refl _
    | with_reducible refine (State.enableQueue_pres _ _).after ?_
    | with_reducible refine (State.disableQueue_pres _ _).after ?_
    | with_reducible refine (State.lkRetrain_pres _ _).after ?_
    | with_reducible refine (State.lkEnable_pres _ _ _).after ?_
    | with_reducible refine (State.partialReset_pres _ _).after ?_
    | with_reducible refine (State.mbxGive_pres _ _).after ?_
    | with_reducible refine (State.unprotectStart_pres _).after ?_
    | with_reducible refine (State.threshLater_pres _ _ _).after ?_
    | with_reducible refine (State.quotaLater_pres _ _).after ?_
    | with_reducible refine (State.pumpWindow_pres _).after ?_
    | with_reducible refine (State.startMoves_pres _ _).after ?_
    | with_reducible refine (State.flushStart_pres _).after ?_
    | with_reducible refine (State.kvClearAll_pres _).after ?_
    | with_reducible refine (State.logPools_pres _ _).after ?_
    | with_reducible refine (State.startCompute_pres _ _).after ?_
    | with_reducible refine (State.moduleReset_pres _).after ?_
    | with_reducible refine (State.wr_pres _ _ _).after ?_
    | with_reducible refine (State.rejoinAll_pres _).after ?_
    | with_reducible refine (State.rejoin_pres _ _).after ?_
    | with_reducible refine (State.hostAdd_pres _ _).after ?_
    | with_reducible refine pres_ite ?_ ?_
    | intro _
    | split
    | dsimp only)

theorem State.putMsix_pres : ∀ s x2 x3, Pres s (State.putMsix s x2 x3) := by
  intro s x2 x3
  unfold State.putMsix
  repeat' (first
    | with_reducible exact Pres.refl _ | with_reducible refine (State.wr_pres _ _ _).after ?_
    | with_reducible refine (State.unmask_pres _ _).after ?_ | split | dsimp only)

theorem State.putEntry_pres : ∀ s x2 x3, Pres s (State.putEntry s x2 x3) := by
  intro s x2 x3
  unfold State.putEntry
  repeat' (first | with_reducible exact Pres.refl _ | with_reducible refine (State.wr_pres _ _ _).after ?_)

theorem State.putReg_pres : ∀ s x2 x3 x4, Pres s (State.putReg s x2 x3 x4) := by
  intro s off mask v
  unfold State.putReg
  extract_lets bits new
  split
  · exact State.putMsix_pres _ _ _
  · split
    · exact State.putEntry_pres _ _ _
    · split
      · exact State.logDropped_pres _ _
      · split
        · exact Pres.refl _
        · rename_i k i _
          extract_lets s1 s2
          have h1 : Pres s s1 := pres_foldl (f := fun (s : State) f => s.putField off i mask bits new f) (fun s f => State.putField_pres _ _ _ _ _ _ _) _ s
          have h2 : Pres s1 s2 := by
            show Pres s1 (if _ then _ else _)
            split
            · exact State.logDropped_pres _ _
            · exact Pres.refl _
          exact (State.regAction_pres _ _ _ _ _).after (h2.after h1)

theorem State.writeReg_pres : ∀ s x2 x3 x4, Pres s (State.writeReg s x2 x3 x4) := by
  intro s x2 x3 x4
  unfold State.writeReg
  repeat' (first
    | with_reducible exact Pres.refl _ | with_reducible refine (State.logDropped_pres _ _).after ?_
    | with_reducible refine (State.putReg_pres _ _ _ _).after ?_ | split | dsimp only)

theorem execRegisterWrite_pres : ∀ x1 x2 x3 s, Keeps s (execRegisterWrite x1 x2 x3 s) := by
  intro x1 x2 x3 s
  unfold execRegisterWrite
  repeat' (first
    | with_reducible exact Pres.refl _ | with_reducible refine keeps_next ?_ | with_reducible refine (State.logS0_pres _ _ _ _).after ?_
    | with_reducible refine (State.writeReg_pres _ _ _ _).after ?_ | split)

theorem State.pokeLine_pres : ∀ s x2 x3 x4, Pres s (State.pokeLine s x2 x3 x4) := by
  intro s x2 x3 x4
  unfold State.pokeLine
  split
  · exact State.putLine_pres _ _ _
  · exact pres_mem rfl rfl rfl id (Mem.writeN_wf _ _ _) (fun _ => SpKept.refl _)

theorem State.poke_pres : ∀ s x2 x3 x4, Pres s (State.poke s x2 x3 x4) := by
  intro s x2 x3 x4
  unfold State.poke
  repeat' (first
    | with_reducible exact Pres.refl _ | with_reducible refine (State.pokeLine_pres _ _ _ _).after ?_
    | with_reducible refine (State.hmStore_pres _ _ _).after ?_ | with_reducible refine (State.spWrite_pres _ _ _ _).after ?_ | split)

theorem State.signalHere_pres : ∀ s x2 x3 x4 x5, Pres s (State.signalHere s x2 x3 x4 x5) := by
  intro s x2 x3 x4 x5
  unfold State.signalHere
  repeat' (first | with_reducible exact Pres.refl _ | with_reducible refine (State.tumLocal_pres _ _ _ _ _).after ?_)

theorem State.sendSignal_pres : ∀ s x2 x3 x4 x5, Pres s (State.sendSignal s x2 x3 x4 x5) := by
  intro s x2 x3 x4 x5
  unfold State.sendSignal
  repeat' (first
    | with_reducible exact Pres.refl _ | with_reducible refine (State.nextOpid_pres _ _).after ?_
    | with_reducible refine (State.requestFrom_pres _ _ _ _ _ _ _ _).after ?_)

theorem State.runSigDue_pres : ∀ s x2 x3 x4 x5, Pres s (State.runSigDue s x2 x3 x4 x5) := by
  intro s x2 x3 x4 x5
  unfold State.runSigDue
  repeat' (first
    | with_reducible exact Pres.refl _ | with_reducible refine (State.modEntry_pres _ _ _ _).after ?_
    | with_reducible refine (State.signalHere_pres _ _ _ _ _).after ?_ | with_reducible refine (State.partDone_pres _ _ _ _).after ?_
    | with_reducible refine (State.sendSignal_pres _ _ _ _ _).after ?_ | with_reducible refine (State.crossLink_pres _ _).after ?_ | split
    | dsimp only)

theorem State.noteLog_pres : ∀ s x2 x3, Pres s (State.noteLog s x2 x3) := by
  intro s x2 x3
  unfold State.noteLog
  repeat' (first | with_reducible exact Pres.refl _ | with_reducible refine (State.bump_pres _ _ _).after ?_ | split)

theorem State.finishPre_pres : ∀ s x2 x3 x4 x5, Pres s (State.finishPre s x2 x3 x4 x5) := by
  intro s x2 x3 x4 x5
  unfold State.finishPre
  repeat' (first
    | with_reducible exact Pres.refl _ | with_reducible refine (State.finishTile_pres _ _ _ _ _).after ?_
    | with_reducible refine (State.finish_pres _ _ _ _).after ?_ | split)

theorem State.writeFar_pres : ∀ s x2 x3 x4 x5 x6 x7, Pres s (State.writeFar s x2 x3 x4 x5 x6 x7).2 := by
  intro s x2 x3 x4 x5 x6 x7
  unfold State.writeFar
  repeat' (first
    | with_reducible exact Pres.refl _ | intro _ | with_reducible refine (State.writeReg_pres _ _ _ _).after ?_
    | with_reducible refine (State.writeSpace_pres _ _ _ _ _ _ _).after ?_ | with_reducible refine (pres_foldl ?_ _ _).after ?_ | split)

theorem State.writeRuns_pres : ∀ s x2 x3 x4 x5 x6 x7 x8, Pres s (State.writeRuns s x2 x3 x4 x5 x6 x7 x8).2 := by
  intro s x2 x3 x4 x5 x6 x7 x8
  unfold State.writeRuns
  repeat' (first
    | with_reducible exact Pres.refl _ | intro _ | with_reducible refine (State.writeFar_pres _ _ _ _ _ _ _).after ?_
    | with_reducible refine (pres_foldl2 ?_ _ _).after ?_)

theorem State.crossTo_pres : ∀ s x2 x3, Pres s (State.crossTo s x2 x3) := by
  intro s x2 x3
  unfold State.crossTo
  repeat' (first | with_reducible exact Pres.refl _ | with_reducible refine (State.crossLink_pres _ _).after ?_ | split)

theorem State.ringWrite_pres : ∀ s x2 x3 x4 x5, Pres s (State.ringWrite s x2 x3 x4 x5).2 := by
  intro s x2 x3 x4 x5
  unfold State.ringWrite
  repeat' (first
    | with_reducible exact Pres.refl _ | intro _ | with_reducible refine (State.lmWrite_pres _ _ _ _ _ _).after ?_
    | with_reducible refine (pres_foldl2 ?_ _ _).after ?_)

theorem State.slogWrite_pres : ∀ s x2 x3 x4 x5 x6 x7 x8 x9, Pres s (State.slogWrite s x2 x3 x4 x5 x6 x7 x8 x9).2 := by
  intro s x2 x3 x4 x5 x6 x7 x8 x9
  unfold State.slogWrite
  repeat' (first
    | (fail_if_no_progress (with_reducible refine pres_lit ?_)) | with_reducible exact Pres.refl _
    | with_reducible refine (State.wr_pres _ _ _).after ?_ | with_reducible refine (State.bump_pres _ _ _).after ?_
    | with_reducible refine (State.ringWrite_pres _ _ _ _ _).after ?_ | split)

theorem State.mirror_pres : ∀ s x2 x3 x4 x5 x6 x7 x8 x9 x10, Pres s (State.mirror s x2 x3 x4 x5 x6 x7 x8 x9 x10).2 := by
  intro s x2 x3 x4 x5 x6 x7 x8 x9 x10
  unfold State.mirror
  repeat' (first | with_reducible exact Pres.refl _ | with_reducible refine (State.slogWrite_pres _ _ _ _ _ _ _ _ _).after ?_ | split)

theorem State.putHere_pres : ∀ s x2 x3 x4 x5 x6 x7 x8 x9 x10 x11 x12, Pres s (State.putHere s x2 x3 x4 x5 x6 x7 x8 x9 x10 x11 x12).2 := by
  intro s x2 x3 x4 x5 x6 x7 x8 x9 x10 x11 x12
  unfold State.putHere
  repeat' (first
    | with_reducible exact Pres.refl _ | with_reducible refine (State.writeRuns_pres _ _ _ _ _ _ _ _).after ?_
    | with_reducible refine (State.crossTo_pres _ _ _).after ?_ | with_reducible refine (State.mirror_pres _ _ _ _ _ _ _ _ _ _).after ?_)

theorem State.finishMem_pres : ∀ s x2 x3 x4 x5, Pres s (State.finishMem s x2 x3 x4 x5) := by
  intro s x2 x3 x4 x5
  unfold State.finishMem
  repeat' (first
    | with_reducible exact Pres.refl _ | with_reducible refine (State.finish_pres _ _ _ _).after ?_
    | with_reducible refine (State.finishEcc_pres _ _ _ _ _).after ?_ | split)

theorem State.mirrorOut_pres : ∀ s x2 x3 x4 x5 x6 x7 x8 x9 x10 x11, Pres s (State.mirrorOut s x2 x3 x4 x5 x6 x7 x8 x9 x10 x11) := by
  intro s x2 x3 x4 x5 x6 x7 x8 x9 x10 x11
  unfold State.mirrorOut
  repeat' (first
    | with_reducible exact Pres.refl _ | with_reducible refine (pres_of2 (by assumption) (State.mirror_pres _ _ _ _ _ _ _ _ _ _)).after ?_
    | with_reducible refine (State.modEntry_pres _ _ _ _).after ?_ | split)

theorem State.sendAll_pres : ∀ s x2 x3 x4, Pres s (State.sendAll s x2 x3 x4) := by
  intro s x2 x3 x4
  unfold State.sendAll
  repeat' (first
    | with_reducible exact Pres.refl _ | intro _ | with_reducible refine (State.requestFrom_pres _ _ _ _ _ _ _ _).after ?_
    | with_reducible refine (pres_foldl ?_ _ _).after ?_)

theorem State.runPutSig_pres : ∀ s x2 x3 x4 x5 x6 x7 x8 x9 x10 x11 x12 x13, Pres s (State.runPutSig s x2 x3 x4 x5 x6 x7 x8 x9 x10 x11 x12 x13) := by
  intro s x2 x3 x4 x5 x6 x7 x8 x9 x10 x11 x12 x13
  unfold State.runPutSig
  repeat' (first
    | with_reducible exact Pres.refl _ | with_reducible refine (State.finishPre_pres _ _ _ _ _).after ?_
    | with_reducible refine (State.finishRange_pres _ _ _).after ?_
    | with_reducible refine (pres_of2 (by assumption) (State.freshSig_pres _ _)).after ?_
    | with_reducible refine (State.finishEcc_pres _ _ _ _ _).after ?_
    | with_reducible refine (State.putHere_pres _ _ _ _ _ _ _ _ _ _ _ _).after ?_
    | with_reducible refine (State.finishMem_pres _ _ _ _ _).after ?_ | with_reducible refine (State.signalHere_pres _ _ _ _ _).after ?_
    | with_reducible refine (State.modEntry_pres _ _ _ _).after ?_
    | with_reducible refine (State.mirrorOut_pres _ _ _ _ _ _ _ _ _ _ _).after ?_
    | with_reducible refine (State.await_pres _ _ _ _ _).after ?_ | with_reducible refine (State.sendAll_pres _ _ _ _).after ?_
    | with_reducible refine (State.sendSignal_pres _ _ _ _ _).after ?_ | split | dsimp only)

theorem execPutSig_pres : ∀ x1 x2 s, Keeps s (execPutSig x1 x2 s) := by
  intro x1 x2 s
  unfold execPutSig
  repeat' (first
    | with_reducible exact Pres.refl _ | intro _ | with_reducible refine keeps_next ?_
    | with_reducible refine (State.issue_pres ?_ _ _ _ _ _).after ?_ | with_reducible refine (State.enqueue_pres _ _ _ _).after ?_
    | with_reducible refine (State.noteLog_pres _ _ _).after ?_ | with_reducible refine (State.runSigDue_pres _ _ _ _ _).after ?_
    | with_reducible refine (State.runEntry_pres ?_ _ _ _ _).after ?_
    | with_reducible refine (State.runPutSig_pres _ _ _ _ _ _ _ _ _ _ _ _ _).after ?_ | split)

theorem State.runPut_pres : ∀ s x2 x3 x4 x5 x6 x7 x8 x9 x10 x11, Pres s (State.runPut s x2 x3 x4 x5 x6 x7 x8 x9 x10 x11) := by
  intro s x2 x3 x4 x5 x6 x7 x8 x9 x10 x11
  unfold State.runPut
  repeat' (first
    | with_reducible exact Pres.refl _ | with_reducible refine (State.finishPre_pres _ _ _ _ _).after ?_
    | with_reducible refine (State.finishEcc_pres _ _ _ _ _).after ?_
    | with_reducible refine (State.putHere_pres _ _ _ _ _ _ _ _ _ _ _ _).after ?_
    | with_reducible refine (State.finishMem_pres _ _ _ _ _).after ?_ | with_reducible refine (State.sendAll_pres _ _ _ _).after ?_
    | with_reducible refine (State.mirrorOut_pres _ _ _ _ _ _ _ _ _ _ _).after ?_
    | with_reducible refine (State.await_pres _ _ _ _ _).after ?_ | split | dsimp only)

theorem execPut_pres : ∀ x1 x2 s, Keeps s (execPut x1 x2 s) := by
  intro x1 x2 s
  unfold execPut
  repeat' (first
    | with_reducible exact Pres.refl _ | intro _ | with_reducible refine keeps_next ?_
    | with_reducible refine (State.issue_pres ?_ _ _ _ _ _).after ?_ | with_reducible refine (State.enqueue_pres _ _ _ _).after ?_
    | with_reducible refine (State.noteLog_pres _ _ _).after ?_ | with_reducible refine (State.runEntry_pres ?_ _ _ _ _).after ?_
    | with_reducible refine (State.runPut_pres _ _ _ _ _ _ _ _ _ _ _).after ?_ | split)

theorem State.copyRow_pres : ∀ s x2 x3 x4 x5 x6 x7, Pres s (State.copyRow s x2 x3 x4 x5 x6 x7) := by
  intro s x2 x3 x4 x5 x6 x7
  unfold State.copyRow
  repeat' (first
    | with_reducible exact Pres.refl _ | with_reducible refine (State.spWrite_pres _ _ _ _).after ?_
    | with_reducible refine (State.storeRowSp_pres _ _ _ _ _ _).after ?_ | split)

theorem State.copyTRow_pres : ∀ s x2 x3 x4 x5 x6 x7 x8, Pres s (State.copyTRow s x2 x3 x4 x5 x6 x7 x8) := by
  intro s x2 x3 x4 x5 x6 x7 x8
  unfold State.copyTRow
  repeat' (first
    | with_reducible exact Pres.refl _ | with_reducible refine (State.spWrite_pres _ _ _ _).after ?_
    | with_reducible refine (State.storeRowSp_pres _ _ _ _ _ _).after ?_ | split)

theorem State.spSmudge_pres : ∀ s x2 x3, Pres s (State.spSmudge s x2 x3) := by
  intro s c rs
  unfold State.spSmudge
  split
  · exact Pres.refl _
  · split
    rename_i h
    exact (State.modCore_pres (fun k => ⟨fun hk => foldl_keeps (fun m : Mem => m.wf = true) _ (fun m r hm => Mem.smudge_wf m _ _ _ hm) _ _ hk⟩) _ _).after
      (pres_of2 h (State.freshJunk_pres s))

theorem State.runCopyT_pres : ∀ s x2 x3 x4 x5 x6, Pres s (State.runCopyT s x2 x3 x4 x5 x6) := by
  intro s x2 x3 x4 x5 x6
  unfold State.runCopyT
  repeat' (first
    | with_reducible exact Pres.refl _ | intro _ | with_reducible refine (State.finishTile_pres _ _ _ _ _).after ?_
    | with_reducible refine (State.finishEcc_pres _ _ _ _ _).after ?_ | with_reducible refine (State.copyTRow_pres _ _ _ _ _ _ _ _).after ?_
    | with_reducible refine (State.finish_pres _ _ _ _).after ?_ | with_reducible refine (State.spSmudge_pres _ _ _).after ?_
    | with_reducible refine (pres_foldl ?_ _ _).after ?_ | split | dsimp only)

theorem State.landUnits_pres : ∀ s x2 x3 x4 x5 x6, Pres s (State.landUnits s x2 x3 x4 x5 x6) := by
  intro s x2 x3 x4 x5 x6
  unfold State.landUnits
  repeat' (first
    | with_reducible exact Pres.refl _ | intro _ | with_reducible refine (pres_of2 (by assumption) (State.free_pres _)).after ?_
    | with_reducible refine (State.modEntry_pres _ _ _ _).after ?_ | with_reducible refine (State.poke_pres _ _ _ _).after ?_
    | with_reducible refine (pres_foldl ?_ _ _).after ?_ | split | dsimp only)

theorem State.finishMc_pres : ∀ s x2 x3 x4, Pres s (State.finishMc s x2 x3 x4) := by
  intro s x2 x3 x4
  unfold State.finishMc
  repeat' (first
    | with_reducible exact Pres.refl _ | with_reducible refine (State.spWrite_pres _ _ _ _).after ?_
    | with_reducible refine (State.finish_pres _ _ _ _).after ?_ | split)

theorem State.readFar_pres : ∀ s x2 x3 x4 x5 x6 x7, Pres s (State.readFar s x2 x3 x4 x5 x6 x7).2.2 := by
  intro s x2 x3 x4 x5 x6 x7
  unfold State.readFar
  repeat' (first | with_reducible exact Pres.refl _ | with_reducible refine (State.readSpace_pres _ _ _ _ _ _ _).after ?_ | split)

theorem State.readRuns_pres : ∀ s x2 x3 x4 x5 x6, Pres s (State.readRuns s x2 x3 x4 x5 x6).2.2 := by
  intro s x2 x3 x4 x5 x6
  unfold State.readRuns
  repeat' (first
    | with_reducible exact Pres.refl _ | intro _ | with_reducible refine (State.lmReadAll_pres _ _ _ _ _).after ?_
    | with_reducible refine (State.readFar_pres _ _ _ _ _ _ _).after ?_ | with_reducible refine (pres_foldl22 ?_ _ _).after ?_ | split)

theorem execCopyT_pres : ∀ x1 x2 s, Keeps s (execCopyT x1 x2 s) := by
  intro x1 x2 s
  unfold execCopyT
  repeat' (first
    | with_reducible exact Pres.refl _ | intro _ | with_reducible refine keeps_next ?_
    | with_reducible refine (State.issueEngine_pres _ _ _ _ _ _).after ?_ | with_reducible refine (State.runEntry_pres ?_ _ _ _ _).after ?_
    | with_reducible refine (State.runCopyT_pres _ _ _ _ _ _).after ?_ | split)

theorem State.landRest_pres : ∀ s x2 x3 x4, Pres s (State.landRest s x2 x3 x4) := by
  intro s x2 x3 x4
  unfold State.landRest
  repeat' (first | with_reducible exact Pres.refl _ | with_reducible refine (State.landPieces_pres _ _ _).after ?_)

theorem State.runPutMc_pres : ∀ s x2 x3 x4 x5 x6 x7 x8 x9 x10, Pres s (State.runPutMc s x2 x3 x4 x5 x6 x7 x8 x9 x10) := by
  intro s x2 x3 x4 x5 x6 x7 x8 x9 x10
  unfold State.runPutMc
  repeat' (first
    | with_reducible exact Pres.refl _ | intro _ | with_reducible refine (State.finishTile_pres _ _ _ _ _).after ?_
    | with_reducible refine (State.finishRange_pres _ _ _).after ?_ | with_reducible refine (State.finishEcc_pres _ _ _ _ _).after ?_
    | with_reducible refine (State.finishMc_pres _ _ _ _).after ?_ | with_reducible refine (State.requestFrom_pres _ _ _ _ _ _ _ _).after ?_
    | with_reducible refine (State.await_pres _ _ _ _ _).after ?_ | with_reducible refine (pres_foldl ?_ _ _).after ?_ | split | dsimp only)

theorem State.runCopy_pres : ∀ s x2 x3 x4 x5 x6, Pres s (State.runCopy s x2 x3 x4 x5 x6) := by
  intro s x2 x3 x4 x5 x6
  unfold State.runCopy
  repeat' (first
    | with_reducible exact Pres.refl _ | intro _ | with_reducible refine (State.finishTile_pres _ _ _ _ _).after ?_
    | with_reducible refine (State.finishEcc_pres _ _ _ _ _).after ?_ | with_reducible refine (State.finish_pres _ _ _ _).after ?_
    | with_reducible refine (State.copyRow_pres _ _ _ _ _ _ _).after ?_ | with_reducible refine (pres_foldl ?_ _ _).after ?_ | split
    | dsimp only)

theorem State.takeAhead_pres : ∀ s x2 x3 x4, Pres s (State.takeAhead s x2 x3 x4) := by
  intro s x2 x3 x4
  unfold State.takeAhead
  repeat' (first
    | (fail_if_no_progress (with_reducible refine spKept_lit ?_)) | with_reducible exact Pres.refl _ | intro _
    | with_reducible exact SpKept.refl _ | with_reducible refine (State.modCore_pres ?_ _ _).after ?_
    | with_reducible refine (State.bump_pres _ _ _).after ?_ | with_reducible refine (State.finish_pres _ _ _ _).after ?_
    | with_reducible refine (State.landPieces_pres _ _ _).after ?_ | with_reducible refine (State.await_pres _ _ _ _ _).after ?_ | split)

theorem State.getOut_pres : ∀ s x2 x3 x4 x5 x6, Pres s (State.getOut s x2 x3 x4 x5 x6) := by
  intro s x2 x3 x4 x5 x6
  unfold State.getOut
  repeat' (first
    | with_reducible exact Pres.refl _ | intro _ | with_reducible refine (State.request_pres _ _ _ _ _ _ _).after ?_
    | with_reducible refine (State.await_pres _ _ _ _ _).after ?_ | with_reducible refine (pres_foldl ?_ _ _).after ?_)

theorem State.runGet_pres : ∀ s x2 x3 x4 x5 x6 x7 x8 x9 x10, Pres s (State.runGet s x2 x3 x4 x5 x6 x7 x8 x9 x10) := by
  intro s x2 x3 x4 x5 x6 x7 x8 x9 x10
  unfold State.runGet
  repeat' (first
    | with_reducible exact Pres.refl _ | with_reducible refine (State.finishPre_pres _ _ _ _ _).after ?_
    | with_reducible refine (State.readRuns_pres _ _ _ _ _ _).after ?_ | with_reducible refine (State.crossTo_pres _ _ _).after ?_
    | with_reducible refine (State.finishMem_pres _ _ _ _ _).after ?_ | with_reducible refine (State.landRest_pres _ _ _ _).after ?_
    | with_reducible refine (State.getOut_pres _ _ _ _ _ _).after ?_ | split | dsimp only)

theorem execGet_pres : ∀ x1 x2 s, Keeps s (execGet x1 x2 s) := by
  intro x1 x2 s
  unfold execGet
  repeat' (first
    | with_reducible exact Pres.refl _ | intro _ | with_reducible refine keeps_next ?_
    | with_reducible refine (State.issue_pres ?_ _ _ _ _ _).after ?_ | with_reducible refine (State.enqueue_pres _ _ _ _).after ?_
    | with_reducible refine (State.takeAhead_pres _ _ _ _).after ?_ | with_reducible refine (State.runEntry_pres ?_ _ _ _ _).after ?_
    | with_reducible refine (State.runGet_pres _ _ _ _ _ _ _ _ _ _).after ?_ | split | dsimp only)

theorem execPutMc_pres : ∀ x1 x2 s, Keeps s (execPutMc x1 x2 s) := by
  intro x1 x2 s
  unfold execPutMc
  repeat' (first
    | with_reducible exact Pres.refl _ | intro _ | with_reducible refine keeps_next ?_
    | with_reducible refine (State.issueEngine_pres _ _ _ _ _ _).after ?_ | with_reducible refine (State.runEntry_pres ?_ _ _ _ _).after ?_
    | with_reducible refine (State.runPutMc_pres _ _ _ _ _ _ _ _ _ _).after ?_ | split)

theorem State.atomMem_pres : ∀ s x2 x3 x4 x5 x6 x7 x8, Pres s (State.atomMem s x2 x3 x4 x5 x6 x7 x8).2.2 := by
  intro s x2 x3 x4 x5 x6 x7 x8
  unfold State.atomMem
  repeat' (first
    | with_reducible exact Pres.refl _ | with_reducible refine (State.lmAtomLine_pres _ _ _ _ _ _).after ?_
    | with_reducible refine (pres_of22 (by assumption) (State.readSpace_pres _ _ _ _ _ _ _)).after ?_
    | with_reducible refine (State.writeSpace_pres _ _ _ _ _ _ _).after ?_ | split)

theorem State.runAtom_pres : ∀ s x2 x3 x4 x5 x6 x7 x8 x9 x10 x11 x12 x13, Pres s (State.runAtom s x2 x3 x4 x5 x6 x7 x8 x9 x10 x11 x12 x13) := by
  intro s x2 x3 x4 x5 x6 x7 x8 x9 x10 x11 x12 x13
  unfold State.runAtom
  repeat' (first
    | with_reducible exact Pres.refl _ | with_reducible refine (State.finishUndef_pres _ _ _ _).after ?_
    | with_reducible refine (State.finishRange_pres _ _ _).after ?_ | with_reducible refine (State.tumGlobal_pres _ _ _ _ _ _ _).after ?_
    | with_reducible refine (State.atomMem_pres _ _ _ _ _ _ _ _).after ?_ | with_reducible refine (State.finishMem_pres _ _ _ _ _).after ?_
    | with_reducible refine (State.spWrite_pres _ _ _ _).after ?_ | with_reducible refine (State.finish_pres _ _ _ _).after ?_
    | with_reducible refine (pres_of2 (by assumption) (State.nextOpid_pres _ _)).after ?_
    | with_reducible refine (State.request_pres _ _ _ _ _ _ _).after ?_ | with_reducible refine (State.await_pres _ _ _ _ _).after ?_
    | split | dsimp only)

theorem execAtom_pres : ∀ x1 x2 s, Keeps s (execAtom x1 x2 s) := by
  intro x1 x2 s
  unfold execAtom
  repeat' (first
    | with_reducible exact Pres.refl _ | intro _ | with_reducible refine keeps_next ?_
    | with_reducible refine (State.issueEngine_pres _ _ _ _ _ _).after ?_ | with_reducible refine (State.runEntry_pres ?_ _ _ _ _).after ?_
    | with_reducible refine (State.runAtom_pres _ _ _ _ _ _ _ _ _ _ _ _ _).after ?_ | split)

theorem State.landSome_pres : ∀ s, Pres s (State.landSome s) := by
  intro s
  unfold State.landSome
  repeat' (first
    | with_reducible exact Pres.refl _ | intro _ | with_reducible refine (State.landUnits_pres _ _ _ _ _ _).after ?_
    | with_reducible refine (pres_foldl ?_ _ _).after ?_)

theorem execCopy_pres : ∀ x1 x2 s, Keeps s (execCopy x1 x2 s) := by
  intro x1 x2 s
  unfold execCopy
  repeat' (first
    | with_reducible exact Pres.refl _ | intro _ | with_reducible refine keeps_next ?_
    | with_reducible refine (State.issueEngine_pres _ _ _ _ _ _).after ?_ | with_reducible refine (State.runEntry_pres ?_ _ _ _ _).after ?_
    | with_reducible refine (State.runCopy_pres _ _ _ _ _ _).after ?_ | split)

theorem State.answerAtom_pres : ∀ s x2 x3 x4, Pres s (State.answerAtom s x2 x3 x4) := by
  intro s x2 x3 x4
  unfold State.answerAtom
  repeat' (first | with_reducible exact Pres.refl _ | with_reducible refine (State.inject_pres _ _).after ?_)

theorem State.badPcrc_pres : ∀ s x2, Pres s (State.badPcrc s x2) := by
  intro s x2
  unfold State.badPcrc
  repeat' (first | with_reducible exact Pres.refl _ | with_reducible refine (State.raise_pres _ _).after ?_)

theorem State.takeReply_pres {f4} (h4 : ∀ y0 y1, Pres y0 (f4 y0 y1)) : ∀ s x2 x3, Pres s (State.takeReply s x2 x3 f4) := by
  intro s x2 x3
  unfold State.takeReply
  repeat' (first
    | with_reducible exact Pres.refl _ | with_reducible refine (State.takeHub_pres _ _).after ?_
    | with_reducible refine (State.badPcrc_pres _ _).after ?_ | with_reducible refine (State.strayReply_pres _ _).after ?_
    | with_reducible refine (h4 _ _).after ?_ | split | dsimp only)

theorem State.noteMiss_pres : ∀ s x2 x3 x4, Pres s (State.noteMiss s x2 x3 x4) := by
  intro s x2 x3 x4
  unfold State.noteMiss
  repeat' (first | with_reducible exact Pres.refl _ | with_reducible refine (State.modEntry_pres _ _ _ _).after ?_)

theorem State.mcAnswered_pres : ∀ s x2 x3, Pres s (State.mcAnswered s x2 x3) := by
  intro s x2 x3
  unfold State.mcAnswered
  repeat' (first
    | (fail_if_no_progress (with_reducible refine pres_lit ?_)) | with_reducible exact Pres.refl _
    | with_reducible refine (State.closeTxn_pres _ _).after ?_ | with_reducible refine (State.finishMc_pres _ _ _ _).after ?_
    | with_reducible refine (State.modEntry_pres _ _ _ _).after ?_ | split | dsimp only)

theorem State.poisonTile_pres : ∀ s x2 x3, Pres s (State.poisonTile s x2 x3) := by
  intro s x2 x3
  unfold State.poisonTile
  repeat' (first
    | with_reducible exact Pres.refl _ | intro _ | with_reducible refine (State.spWrite_pres _ _ _ _).after ?_
    | with_reducible refine (pres_foldl ?_ _ _).after ?_)

theorem State.poison_pres : ∀ s x2 x3, Pres s (State.poison s x2 x3) := by
  intro s x2 x3
  unfold State.poison
  repeat' (first
    | with_reducible exact Pres.refl _ | with_reducible refine (State.poisonTile_pres _ _ _).after ?_
    | with_reducible refine (State.spWrite_pres _ _ _ _).after ?_ | split)

theorem State.preAnswered_pres : ∀ s x2 x3 x4 x5, Pres s (State.preAnswered s x2 x3 x4 x5) := by
  intro s x2 x3 x4 x5
  unfold State.preAnswered
  repeat' (first
    | (fail_if_no_progress (with_reducible refine spKept_lit ?_)) | with_reducible exact Pres.refl _ | intro _
    | with_reducible exact SpKept.refl _ | with_reducible refine (State.modCore_pres ?_ _ _).after ?_
    | with_reducible refine (State.preReturn_pres _ _ _ _).after ?_ | with_reducible refine (State.poison_pres _ _ _).after ?_ | split
    | dsimp only)

theorem State.answered_pres : ∀ s x2 x3 x4, Pres s (State.answered s x2 x3 x4) := by
  intro s x2 x3 x4
  unfold State.answered
  repeat' (first | with_reducible exact Pres.refl _ | with_reducible refine (State.modEntry_pres _ _ _ _).after ?_)

theorem State.answeredBad_pres : ∀ s x2 x3, Pres s (State.answeredBad s x2 x3) := by
  intro s x2 x3
  unfold State.answeredBad
  repeat' (first
    | with_reducible exact Pres.refl _ | with_reducible refine (State.modEntry_pres _ _ _ _).after ?_
    | with_reducible refine (State.answered_pres _ _ _ _).after ?_ | split)

theorem execAck_pres : ∀ x1 s, Keeps s (execAck x1 s) := by
  intro x1 s
  unfold execAck
  repeat' (first
    | with_reducible exact Pres.refl _ | intro _ | with_reducible refine keeps_next ?_
    | with_reducible refine (State.takeReply_pres ?_ _ _ _).after ?_ | with_reducible refine (State.noteMiss_pres _ _ _ _).after ?_
    | with_reducible refine (State.modEntry_pres _ _ _ _).after ?_ | with_reducible refine (State.mcAnswered_pres _ _ _).after ?_
    | with_reducible refine (State.closeTxnWin_pres _ _ _).after ?_ | with_reducible refine (State.preAnswered_pres _ _ _ _ _).after ?_
    | with_reducible refine (State.answeredBad_pres _ _ _).after ?_ | split)

theorem State.notePeer_pres : ∀ s x2, Pres s (State.notePeer s x2) := by
  intro s x2
  unfold State.notePeer
  repeat' (first | (fail_if_no_progress (with_reducible refine pres_lit ?_)) | with_reducible exact Pres.refl _)

theorem State.takeRequest_pres {f4} (h4 : ∀ y0, Pres y0 (f4 y0)) : ∀ s x2 x3, Pres s (State.takeRequest s x2 x3 f4) := by
  intro s x2 x3
  unfold State.takeRequest
  repeat' (first
    | with_reducible exact Pres.refl _ | with_reducible refine (State.takeHub_pres _ _).after ?_
    | with_reducible refine (State.badPcrc_pres _ _).after ?_ | with_reducible refine (State.notePeer_pres _ _).after ?_
    | with_reducible refine (h4 _).after ?_ | split | dsimp only)

theorem State.rowFor_pres : ∀ s x2, KeepsO s (State.rowFor s x2) := by
  intro s x2
  unfold State.rowFor
  repeat' (first
    | (fail_if_no_progress (with_reducible refine pres_lit ?_)) | with_reducible exact Pres.refl _ | with_reducible exact keepsO_none _
    | with_reducible refine keepsO_some ?_ | split)

theorem State.awaitRow_pres : ∀ s x2, Pres s (State.awaitRow s x2) := by
  intro s x2
  unfold State.awaitRow
  repeat' (first | (fail_if_no_progress (with_reducible refine pres_lit ?_)) | with_reducible exact Pres.refl _ | split)

theorem State.remoteTum_keeps (s : State) (p : Packet) (off : Nat) (op : TumOp) (opid : Option Word32) : KeepsP s (s.remoteTum p off op opid) := by
  unfold State.remoteTum
  have h := State.tumReach_pres s { off := off, op := op, job := some p.job, issuer := .remote p.src p.tag p.cls.val, sender := p.src * 64 + 63, opid := opid }
  split
  · rename_i e; rw [e] at h; exact keepsP_some _ h
  · rename_i e; rw [e] at h
    split <;> exact keepsP_some _ h
  · exact keepsP_none _
  · rename_i e; rw [e] at h; exact keepsP_some _ h

theorem State.remoteAtomMem_keeps (s : State) (p : Packet) (u : List Upset) (n aop : Nat) (b x : Word) : KeepsP s (s.remoteAtomMem p u n aop b x) := by
  unfold State.remoteAtomMem
  extract_lets off
  split
  · exact keepsP_some _ (Pres.refl _)
  · split
    rename_i h
    have h1 := (pres_of22 h (State.atomMem_pres _ _ _ _ _ _ _ _)).after (State.sramUpsets_pres s u)
    split
    · exact keepsP_some _ h1
    · exact keepsP_some _ h1
    · exact keepsP_some _ ((State.raise_pres _ _).after h1)

theorem State.once_pres {f3 f4} (h3 : ∀ y0 y1 y2, Pres y0 (f3 y0 y1 y2)) (h4 : ∀ y, KeepsP y (f4 y)) :
    ∀ s x2, Pres s (State.once s x2 f3 f4) := by
  intro s p
  unfold State.once
  split
  · exact State.awaitRow_pres _ _
  · rename_i h
    have h1 := (State.rowFor_pres _ _).out _ h
    extract_lets o
    split
    · exact (h3 _ _ _).after h1
    · split
      · exact h1
      · split
        · exact (State.bump_pres _ _ _).after h1
        · rename_i e; exact ((h4 _).out _ _ e).after h1
        · rename_i e; exact (h3 _ _ _).after ((State.dedupNote_pres _ _ _ _ _).after (((h4 _).out _ _ e).after h1))

theorem State.serveTumOp_pres : ∀ s x2 x3, Pres s (State.serveTumOp s x2 x3) := by
  intro s p op
  unfold State.serveTumOp
  refine State.once_pres (fun s st _ => State.ackTo_pres _ _ _ _) (fun s => ?_) _ _
  split
  · exact keepsP_some _ (Pres.refl _)
  · exact keepsP_map _ (State.remoteTum_keeps _ _ _ _ _)

theorem State.serveTumSet_pres : ∀ s x2, Pres s (State.serveTumSet s x2) := by
  intro s x2
  unfold State.serveTumSet
  repeat' (first | with_reducible exact Pres.refl _ | with_reducible refine (State.serveTumOp_pres _ _ _).after ?_)

theorem execTumSetPacket_pres : ∀ x1 s, Keeps s (execTumSetPacket x1 s) := by
  intro x1 s
  unfold execTumSetPacket
  repeat' (first
    | with_reducible exact Pres.refl _ | intro _ | with_reducible refine keeps_next ?_
    | with_reducible refine (State.takeRequest_pres ?_ _ _ _).after ?_ | with_reducible refine (State.serveTumSet_pres _ _).after ?_)

theorem execHoldNoticeSend_pres : ∀ s, Keeps s (execHoldNoticeSend s) := by
  intro s
  unfold execHoldNoticeSend
  repeat' (first
    | with_reducible exact Pres.refl _ | intro _ | with_reducible refine keeps_next ?_
    | with_reducible refine (State.inject_pres _ _).after ?_ | with_reducible refine (pres_foldl ?_ _ _).after ?_ | split)

theorem State.cutTxn_pres : ∀ s x2, Pres s (State.cutTxn s x2) := by
  intro s x2
  unfold State.cutTxn
  repeat' (first
    | (fail_if_no_progress (with_reducible refine pres_lit ?_)) | with_reducible exact Pres.refl _
    | with_reducible refine (State.closeTxn_pres _ _).after ?_)

theorem State.targetDead_pres : ∀ s x2 x3, Pres s (State.targetDead s x2 x3) := by
  intro s x2 x3
  unfold State.targetDead
  repeat' (first
    | with_reducible exact Pres.refl _ | intro _ | with_reducible refine (State.cutTxn_pres _ _).after ?_
    | with_reducible refine (State.modEntry_pres _ _ _ _).after ?_ | with_reducible refine (State.poison_pres _ _ _).after ?_
    | with_reducible refine (pres_foldl ?_ _ _).after ?_ | split | dsimp only)

theorem execAtomResp_pres : ∀ x1 s, Keeps s (execAtomResp x1 s) := by
  intro x1 s
  unfold execAtomResp
  repeat' (first
    | with_reducible exact Pres.refl _ | intro _ | with_reducible refine keeps_next ?_
    | with_reducible refine (State.takeReply_pres ?_ _ _ _).after ?_ | with_reducible refine (State.closeTxn_pres _ _).after ?_
    | with_reducible refine (State.spWrite_pres _ _ _ _).after ?_ | with_reducible refine (State.answeredBad_pres _ _ _).after ?_ | split
    | dsimp only)

theorem execPutSigCountExpiry_pres : ∀ x1 x2 s, Keeps s (execPutSigCountExpiry x1 x2 s) := by
  intro x1 x2 s
  unfold execPutSigCountExpiry
  repeat' (first
    | (fail_if_no_progress (with_reducible refine pres_lit ?_)) | with_reducible exact Pres.refl _ | with_reducible refine keeps_next ?_)

theorem State.holdRequest_pres : ∀ s x2, Pres s (State.holdRequest s x2) := by
  intro s x2
  unfold State.holdRequest
  repeat' (first | (fail_if_no_progress (with_reducible refine pres_lit ?_)) | with_reducible exact Pres.refl _ | split)

theorem State.crossSp_pres : ∀ s x2 x3, Pres s (State.crossSp s x2 x3) := by
  intro s x2 x3
  unfold State.crossSp
  repeat' (first | with_reducible exact Pres.refl _ | with_reducible refine (State.crossLink_pres _ _).after ?_ | split)

theorem State.serveGet_pres : ∀ s x2 x3, Pres s (State.serveGet s x2 x3) := by
  intro s x2 x3
  unfold State.serveGet
  repeat' (first
    | with_reducible exact Pres.refl _ | with_reducible refine (State.ackTo_pres _ _ _ _).after ?_
    | with_reducible refine (State.holdRequest_pres _ _).after ?_ | with_reducible refine (State.crossSp_pres _ _ _).after ?_
    | with_reducible refine (State.sramUpsets_pres _ _).after ?_ | with_reducible refine (State.readFar_pres _ _ _ _ _ _ _).after ?_
    | with_reducible refine (State.inject_pres _ _).after ?_ | with_reducible refine (State.raise_pres _ _).after ?_ | split | dsimp only)

theorem execGetPacket_pres : ∀ x1 x2 s, Keeps s (execGetPacket x1 x2 s) := by
  intro x1 x2 s
  unfold execGetPacket
  repeat' (first
    | with_reducible exact Pres.refl _ | intro _ | with_reducible refine keeps_next ?_
    | with_reducible refine (State.takeRequest_pres ?_ _ _ _).after ?_ | with_reducible refine (State.serveGet_pres _ _ _).after ?_)

theorem State.serveAtom_pres : ∀ s x2 x3, Pres s (State.serveAtom s x2 x3) := by
  intro s u p
  unfold State.serveAtom
  extract_lets
  split
  · exact State.holdRequest_pres _ _
  refine State.once_pres (fun s st old => State.answerAtom_pres _ _ _ _) (fun s => ?_) _ _
  split
  · exact keepsP_some _ (Pres.refl _)
  · split
    · split
      · exact keepsP_some _ (Pres.refl _)
      · exact keepsP_map _ (State.remoteTum_keeps _ _ _ _ _)
    · exact State.remoteAtomMem_keeps _ _ _ _ _ _ _

theorem State.serveTumAdd_pres : ∀ s x2, Pres s (State.serveTumAdd s x2) := by
  intro s x2
  unfold State.serveTumAdd
  repeat' (first | with_reducible exact Pres.refl _ | with_reducible refine (State.serveTumOp_pres _ _ _).after ?_)

theorem State.landPut_pres : ∀ s x2 x3, Pres s (State.landPut s x2 x3).2 := by
  intro s x2 x3
  unfold State.landPut
  repeat' (first
    | with_reducible exact Pres.refl _ | with_reducible refine (State.writeFar_pres _ _ _ _ _ _ _).after ?_
    | with_reducible refine (State.crossSp_pres _ _ _).after ?_)

theorem State.applySignal_keeps (s : State) (p : Packet) (opid : Word32) (off inc : Nat) : KeepsP s (s.applySignal p opid off inc) := by
  unfold State.applySignal
  split
  · exact keepsP_some _ (Pres.refl _)
  · have h := State.remoteTum_keeps s p off (.add inc) (some opid)
    split
    · exact keepsP_none _
    · rename_i e
      have h1 := h.out _ _ e
      split
      · exact keepsP_some _ ((State.dedupNote_pres _ _ _ _ _).after h1)
      · exact keepsP_some _ ((State.dedupNote_pres _ _ _ _ _).after ((State.chargeOwner_pres _ _ _ _ _).after h1))
    · rename_i e
      exact keepsP_some _ (h.out _ _ e)

theorem State.serveSigControl_pres : ∀ s x2, Pres s (State.serveSigControl s x2) := by
  intro s p
  unfold State.serveSigControl
  extract_lets bs
  split
  · exact State.ackTo_pres _ _ _ _
  · exact State.holdRequest_pres _ _
  · split
    · exact State.awaitRow_pres _ _
    · rename_i h
      have h1 := (State.rowFor_pres _ _).out _ h
      split
      rename_i e
      have h2 := (pres_of2 e (State.landPut_pres _ _ _)).after h1
      split
      · exact (State.ackTo_pres _ _ _ _).after h2
      · split
        · rename_i e2
          exact (State.ackTo_pres _ _ _ _).after (((State.applySignal_keeps _ _ _ _ _).out _ _ e2).after h2)
        · exact (State.bump_pres _ _ _).after h1

theorem State.serveSigData_pres : ∀ s x2, Pres s (State.serveSigData s x2) := by
  intro s p
  unfold State.serveSigData
  split
  · exact State.ackTo_pres _ _ _ _
  · exact State.holdRequest_pres _ _
  · extract_lets x rest landed
    have hl : ∀ s, Pres s (landed s) := by
      intro s
      unfold landed
      split
      rename_i e
      have h2 := pres_of2 e (State.landPut_pres _ _ _)
      split
      · exact (State.ackTo_pres _ _ _ _).after h2
      · refine (State.ackTo_pres _ _ _ _).after ?_
        with_reducible refine pres_lit ?_
        exact h2
    split
    · split
      · exact State.awaitRow_pres _ _
      · rename_i h
        have h1 := (State.rowFor_pres _ _).out _ h
        split
        · exact (hl _).after h1
        · split
          rename_i e
          have h2 := (pres_of2 e (State.landPut_pres _ _ _)).after h1
          split
          · exact (State.ackTo_pres _ _ _ _).after h2
          · split
            · rename_i e2
              refine (State.ackTo_pres _ _ _ _).after (((State.applySignal_keeps _ _ _ _ _).out _ _ e2).after ?_)
              with_reducible refine pres_lit ?_
              exact h2
            · exact (State.bump_pres _ _ _).after h1
    · exact hl _

theorem State.serveSig_pres : ∀ s x2, Pres s (State.serveSig s x2) := by
  intro s x2
  unfold State.serveSig
  repeat' (first
    | with_reducible exact Pres.refl _ | with_reducible refine (State.serveSigControl_pres _ _).after ?_
    | with_reducible refine (State.serveSigData_pres _ _).after ?_ | split)

theorem State.serveOp_pres : ∀ s x2, Pres s (State.serveOp s x2) := by
  intro s x2
  unfold State.serveOp
  repeat' (first
    | with_reducible exact Pres.refl _ | with_reducible refine (State.serveAtom_pres _ _ _).after ?_
    | with_reducible refine (State.serveTumAdd_pres _ _).after ?_ | with_reducible refine (State.serveTumSet_pres _ _).after ?_
    | with_reducible refine (State.serveSig_pres _ _).after ?_ | split | dsimp only)

theorem State.deadTxn_pres : ∀ s x2 x3, Pres s (State.deadTxn s x2 x3) := by
  intro s x2 x3
  unfold State.deadTxn
  repeat' (first
    | with_reducible exact Pres.refl _ | with_reducible refine (State.mcAnswered_pres _ _ _).after ?_
    | with_reducible refine (State.noteMiss_pres _ _ _ _).after ?_ | with_reducible refine (State.preAnswered_pres _ _ _ _ _).after ?_
    | with_reducible refine (State.cutTxn_pres _ _).after ?_ | with_reducible refine (State.targetDead_pres _ _ _).after ?_ | split)

theorem State.deadSignals_pres : ∀ s x2, Pres s (State.deadSignals s x2) := by
  intro s x2
  unfold State.deadSignals
  repeat' (first
    | with_reducible exact Pres.refl _ | intro _ | with_reducible refine (State.targetDead_pres _ _ _).after ?_
    | with_reducible refine (pres_foldl ?_ _ _).after ?_)

theorem execTumAddPacket_pres : ∀ x1 s, Keeps s (execTumAddPacket x1 s) := by
  intro x1 s
  unfold execTumAddPacket
  repeat' (first
    | with_reducible exact Pres.refl _ | intro _ | with_reducible refine keeps_next ?_
    | with_reducible refine (State.takeRequest_pres ?_ _ _ _).after ?_ | with_reducible refine (State.serveTumAdd_pres _ _).after ?_)

theorem State.againBad_pres : ∀ s x2 x3, Pres s (State.againBad s x2 x3) := by
  intro s x2 x3
  unfold State.againBad
  repeat' (first
    | with_reducible exact Pres.refl _ | with_reducible refine (State.modEntry_pres _ _ _ _).after ?_
    | with_reducible refine (State.cutTxn_pres _ _).after ?_ | with_reducible refine (State.mcAnswered_pres _ _ _).after ?_
    | with_reducible refine (State.answered_pres _ _ _ _).after ?_ | split)

theorem State.noteReplay_pres : ∀ s x2 x3, Pres s (State.noteReplay s x2 x3) := by
  intro s x2 x3
  unfold State.noteReplay
  repeat' (first
    | (fail_if_no_progress (with_reducible refine pres_lit ?_)) | with_reducible exact Pres.refl _
    | with_reducible refine (State.bumpK_pres _ _ _).after ?_ | with_reducible refine (State.raise_pres _ _).after ?_ | split | dsimp only)

theorem execRequestResend_pres : ∀ x1 s, Keeps s (execRequestResend x1 s) := by
  intro x1 s
  unfold execRequestResend
  repeat' (first
    | (fail_if_no_progress (with_reducible refine pres_lit ?_)) | with_reducible exact Pres.refl _ | with_reducible refine keeps_next ?_
    | with_reducible refine (State.againBad_pres _ _ _).after ?_ | with_reducible refine (State.noteReplay_pres _ _ _).after ?_
    | with_reducible refine (State.sendFree_pres _ _ _).after ?_ | split)

theorem execDedupRowFree_pres : ∀ x1 s, Keeps s (execDedupRowFree x1 s) := by
  intro x1 s
  unfold execDedupRowFree
  repeat' (first
    | (fail_if_no_progress (with_reducible refine pres_lit ?_)) | with_reducible exact Pres.refl _ | with_reducible refine keeps_next ?_)

theorem execAtomPacket_pres : ∀ x1 x2 s, Keeps s (execAtomPacket x1 x2 s) := by
  intro x1 x2 s
  unfold execAtomPacket
  repeat' (first
    | with_reducible exact Pres.refl _ | intro _ | with_reducible refine keeps_next ?_
    | with_reducible refine (State.takeRequest_pres ?_ _ _ _).after ?_ | with_reducible refine (State.serveAtom_pres _ _ _).after ?_)

theorem State.servePut_pres : ∀ s x2, Pres s (State.servePut s x2) := by
  intro s x2
  unfold State.servePut
  repeat' (first
    | with_reducible exact Pres.refl _ | with_reducible refine (State.ackTo_pres _ _ _ _).after ?_
    | with_reducible refine (State.holdRequest_pres _ _).after ?_ | with_reducible refine (State.landPut_pres _ _ _).after ?_ | split
    | dsimp only)

theorem execPutPacket_pres : ∀ x1 s, Keeps s (execPutPacket x1 s) := by
  intro x1 s
  unfold execPutPacket
  repeat' (first
    | with_reducible exact Pres.refl _ | intro _ | with_reducible refine keeps_next ?_
    | with_reducible refine (State.takeRequest_pres ?_ _ _ _).after ?_ | with_reducible refine (State.servePut_pres _ _).after ?_)

theorem execTumResp_pres : ∀ x1 s, Keeps s (execTumResp x1 s) := by
  intro x1 s
  unfold execTumResp
  repeat' (first
    | with_reducible exact Pres.refl _ | intro _ | with_reducible refine keeps_next ?_
    | with_reducible refine (State.takeReply_pres ?_ _ _ _).after ?_ | with_reducible refine (State.closeTxn_pres _ _).after ?_
    | with_reducible refine (State.spWrite_pres _ _ _ _).after ?_ | with_reducible refine (State.answeredBad_pres _ _ _).after ?_ | split
    | dsimp only)

theorem State.deadTarget_pres : ∀ s x2, Pres s (State.deadTarget s x2) := by
  intro s x2
  unfold State.deadTarget
  repeat' (first
    | with_reducible exact Pres.refl _ | intro _ | with_reducible refine (State.deadTxn_pres _ _ _).after ?_
    | with_reducible refine (State.deadSignals_pres _ _).after ?_ | with_reducible refine (pres_foldl ?_ _ _).after ?_ | split)

theorem execDedupRowGrant_pres : ∀ x1 s, Keeps s (execDedupRowGrant x1 s) := by
  intro x1 s
  unfold execDedupRowGrant
  repeat' (first
    | (fail_if_no_progress (with_reducible refine pres_lit ?_)) | with_reducible exact Pres.refl _ | intro _
    | with_reducible refine keeps_next ?_ | with_reducible refine (State.serveOp_pres _ _).after ?_
    | with_reducible refine (pres_foldl ?_ _ _).after ?_ | split)

theorem execMcMiss_pres : ∀ x1 s, Keeps s (execMcMiss x1 s) := by
  intro x1 s
  unfold execMcMiss
  repeat' (first
    | with_reducible exact Pres.refl _ | intro _ | with_reducible refine keeps_next ?_
    | with_reducible refine (State.takeReply_pres ?_ _ _ _).after ?_ | with_reducible refine (State.mcAnswered_pres _ _ _).after ?_
    | with_reducible refine (State.noteMiss_pres _ _ _ _).after ?_ | with_reducible refine (pres_foldl ?_ _ _).after ?_)

theorem execPutSigPacket_pres : ∀ x1 s, Keeps s (execPutSigPacket x1 s) := by
  intro x1 s
  unfold execPutSigPacket
  repeat' (first
    | with_reducible exact Pres.refl _ | intro _ | with_reducible refine keeps_next ?_
    | with_reducible refine (State.takeRequest_pres ?_ _ _ _).after ?_ | with_reducible refine (State.serveSig_pres _ _).after ?_)

theorem execHoldNotice_pres : ∀ x1 s, Keeps s (execHoldNotice x1 s) := by
  intro x1 s
  unfold execHoldNotice
  repeat' (first
    | (fail_if_no_progress (with_reducible refine pres_lit ?_)) | with_reducible exact Pres.refl _ | with_reducible refine keeps_next ?_
    | with_reducible refine (State.takeNotice_pres _ _).after ?_)

theorem execTumReadPacket_pres : ∀ x1 s, Keeps s (execTumReadPacket x1 s) := by
  intro p s
  unfold execTumReadPacket
  refine keeps_next (State.takeRequest_pres (fun s => ?_) _ _ _)
  extract_lets answer
  have ha : ∀ s st old, Pres s (answer s st old) := fun s st old => State.inject_pres _ _
  split
  · exact ha _ _ _
  · split
    · exact Pres.refl _
    · split
      · rename_i e
        exact (ha _ _ _).after ((State.remoteTum_keeps _ _ _ _ _).out _ _ e)
      · rename_i e
        exact (State.remoteTum_keeps _ _ _ _ _).out _ _ e
      · exact State.bump_pres _ _ _

theorem execPadlockSet_pres : ∀ x1 s, Keeps s (execPadlockSet x1 s) := by
  intro x1 s
  unfold execPadlockSet
  repeat' (first
    | (fail_if_no_progress (with_reducible refine pres_lit ?_)) | with_reducible exact Pres.refl _ | with_reducible refine keeps_next ?_
    | with_reducible refine (State.setPadlock_pres _ _ _).after ?_ | with_reducible refine (State.deadTarget_pres _ _).after ?_ | split)

theorem execPutMcPacket_pres : ∀ x1 s, Keeps s (execPutMcPacket x1 s) := by
  intro x1 s
  unfold execPutMcPacket
  repeat' (first
    | with_reducible exact Pres.refl _ | intro _ | with_reducible refine keeps_next ?_
    | with_reducible refine (State.takeRequest_pres ?_ _ _ _).after ?_ | with_reducible refine (State.servePut_pres _ _).after ?_)

theorem execGetResp_pres : ∀ x1 s, Keeps s (execGetResp x1 s) := by
  intro x1 s
  unfold execGetResp
  repeat' (first
    | with_reducible exact Pres.refl _ | intro _ | with_reducible refine keeps_next ?_
    | with_reducible refine (State.takeReply_pres ?_ _ _ _).after ?_ | with_reducible refine (State.closeTxn_pres _ _).after ?_
    | with_reducible refine (State.preAnswered_pres _ _ _ _ _).after ?_ | with_reducible refine (State.answered_pres _ _ _ _).after ?_
    | with_reducible refine (State.landPieces_pres _ _ _).after ?_ | split | dsimp only)

theorem execRequestTimeout_pres : ∀ x1 s, Keeps s (execRequestTimeout x1 s) := by
  intro x1 s
  unfold execRequestTimeout
  repeat' (first
    | with_reducible exact Pres.refl _ | intro _ | with_reducible refine keeps_next ?_
    | with_reducible refine (State.raise_pres _ _).after ?_ | with_reducible refine (State.mcAnswered_pres _ _ _).after ?_
    | with_reducible refine (State.noteMiss_pres _ _ _ _).after ?_ | with_reducible refine (State.deadTxn_pres _ _ _).after ?_
    | with_reducible refine (pres_foldl ?_ _ _).after ?_ | split)

theorem execSampSlice_pres : ∀ x1 x2 s, Keeps s (execSampSlice x1 x2 s) := by
  intro x1 x2 s
  unfold execSampSlice
  repeat' (first
    | with_reducible exact Pres.refl _ | intro _ | with_reducible refine keeps_next ?_
    | with_reducible refine (State.issueEngine_pres _ _ _ _ _ _).after ?_ | with_reducible refine (State.runEntry_pres ?_ _ _ _ _).after ?_
    | with_reducible refine (State.finishUndef_pres _ _ _ _).after ?_ | with_reducible refine (State.finishRange_pres _ _ _).after ?_
    | with_reducible refine (State.finishEcc_pres _ _ _ _ _).after ?_ | with_reducible refine (State.finish_pres _ _ _ _).after ?_
    | with_reducible refine (State.spWrite_pres _ _ _ _).after ?_ | split | dsimp only)

theorem State.draw_pres (s : State) (q : Nat) (u : Word32) (x : Word) (t : State) (h : s.draw q = some (u, x, t)) : Pres s t := by
  unfold State.draw at h
  split at h
  · cases h
  · split at h
    · cases h
    · cases h
      exact State.setSeq_pres _ _ _

theorem State.acceptLoop_pres (s : State) (q : Nat) (ps qs : List (List Cand)) (l : List Word32) (a b : Nat) (w : Word32) (t : State)
    (h : s.acceptLoop q ps qs l a = some (b, w, t)) : Pres s t := by
  induction l generalizing s a with
  | nil =>
    unfold State.acceptLoop at h
    cases hd : s.draw q with
    | none => rw [hd] at h; cases h
    | some r =>
      obtain ⟨u, c, s1⟩ := r
      rw [hd] at h
      cases h
      exact State.draw_pres _ _ _ _ _ hd
  | cons x rest ih =>
    unfold State.acceptLoop at h
    cases hd : s.draw q with
    | none => rw [hd] at h; cases h
    | some r =>
      obtain ⟨u, c, s1⟩ := r
      have h1 := State.draw_pres _ _ _ _ _ hd
      rw [hd] at h
      simp only [Option.bind_eq_bind, Option.bind_some] at h
      split at h
      · cases hd2 : s1.draw q with
        | none => rw [hd2] at h; cases h
        | some r2 =>
          obtain ⟨u2, c2, s2⟩ := r2
          rw [hd2] at h
          cases h
          exact (State.draw_pres _ _ _ _ _ hd2).after h1
      · exact (ih _ _ h).after h1

theorem execSampMerge_pres : ∀ x1 x2 s, Keeps s (execSampMerge x1 x2 s) := by
  intro x1 x2 s
  unfold execSampMerge
  repeat' (first
    | with_reducible exact Pres.refl _ | intro _ | with_reducible refine keeps_next ?_
    | with_reducible refine (State.issueEngine_pres _ _ _ _ _ _).after ?_ | with_reducible refine (State.runEntry_pres ?_ _ _ _ _).after ?_
    | with_reducible refine (State.finishTile_pres _ _ _ _ _).after ?_ | with_reducible refine (State.finishRange_pres _ _ _).after ?_
    | with_reducible refine (State.finishEcc_pres _ _ _ _ _).after ?_ | with_reducible refine (State.finish_pres _ _ _ _).after ?_
    | with_reducible refine (State.spWrite_pres _ _ _ _).after ?_
    | with_reducible refine (State.draw_pres _ _ _ _ _ (by assumption)).after ?_ | split | dsimp only)

theorem execSampAccept_pres : ∀ x1 x2 s, Keeps s (execSampAccept x1 x2 s) := by
  intro x1 x2 s
  unfold execSampAccept
  repeat' (first
    | with_reducible exact Pres.refl _ | intro _ | with_reducible refine keeps_next ?_
    | with_reducible refine (State.issueEngine_pres _ _ _ _ _ _).after ?_ | with_reducible refine (State.runEntry_pres ?_ _ _ _ _).after ?_
    | with_reducible refine (State.finishTile_pres _ _ _ _ _).after ?_ | with_reducible refine (State.finishRange_pres _ _ _).after ?_
    | with_reducible refine (State.finishEcc_pres _ _ _ _ _).after ?_ | with_reducible refine (State.finish_pres _ _ _ _).after ?_
    | with_reducible refine (State.spWrite_pres _ _ _ _).after ?_
    | with_reducible refine (State.acceptLoop_pres _ _ _ _ _ _ _ _ _ (by assumption)).after ?_ | split | dsimp only)

theorem State.pred_pres : ∀ s x2 x3 x4 x5 x6 x7 x8, Pres s (State.pred s x2 x3 x4 x5 x6 x7 x8) := by
  intro s x2 x3 x4 x5 x6 x7 x8
  unfold State.pred
  repeat' (first
    | with_reducible exact Pres.refl _ | intro _ | with_reducible exact SpKept.refl _
    | with_reducible refine (State.issueCore_pres ?_ _ _ _ _ _).after ?_ | with_reducible refine (Core.pset_spKept _ _ _).after ?_)

theorem execPor_pres : ∀ x1 x2 x3 x4 x5 s, Keeps s (execPor x1 x2 x3 x4 x5 s) := by
  intro x1 x2 x3 x4 x5 s
  unfold execPor
  repeat' (first
    | with_reducible exact Pres.refl _ | with_reducible refine keeps_next ?_
    | with_reducible refine (State.pred_pres _ _ _ _ _ _ _ _).after ?_)

theorem execPnot_pres : ∀ x1 x2 x3 x4 s, Keeps s (execPnot x1 x2 x3 x4 s) := by
  intro x1 x2 x3 x4 s
  unfold execPnot
  repeat' (first
    | with_reducible exact Pres.refl _ | with_reducible refine keeps_next ?_
    | with_reducible refine (State.pred_pres _ _ _ _ _ _ _ _).after ?_)

theorem State.alu_pres : ∀ s x2 x3 x4 x5 x6 x7 x8, Pres s (State.alu s x2 x3 x4 x5 x6 x7 x8) := by
  intro s x2 x3 x4 x5 x6 x7 x8
  unfold State.alu
  repeat' (first
    | with_reducible exact Pres.refl _ | intro _ | with_reducible exact SpKept.refl _
    | with_reducible refine (State.issueCore_pres ?_ _ _ _ _ _).after ?_ | with_reducible refine (Core.sset_spKept _ _ _).after ?_)

theorem execShl_pres : ∀ x1 x2 x3 x4 x5 s, Keeps s (execShl x1 x2 x3 x4 x5 s) := by
  intro x1 x2 x3 x4 x5 s
  unfold execShl
  repeat' (first
    | with_reducible exact Pres.refl _ | with_reducible refine keeps_next ?_
    | with_reducible refine (State.alu_pres _ _ _ _ _ _ _ _).after ?_)

theorem State.jumpTo_pres : ∀ s x2 x3, Pres s (State.jumpTo s x2 x3) := by
  intro s x2 x3
  unfold State.jumpTo
  repeat' (first
    | (fail_if_no_progress (with_reducible refine spKept_lit ?_)) | with_reducible exact Pres.refl _ | intro _
    | with_reducible exact SpKept.refl _ | with_reducible refine (State.seqFatal_pres _ _ _ _ _).after ?_
    | with_reducible refine (State.modCore_pres ?_ _ _).after ?_ | split)

theorem execJr_pres : ∀ x1 x2 x3 s, Keeps s (execJr x1 x2 x3 s) := by
  intro x1 x2 x3 s
  unfold execJr
  repeat' (first
    | with_reducible exact Pres.refl _ | intro _ | with_reducible refine keeps_next ?_
    | with_reducible refine (State.issue_pres ?_ _ _ _ _ _).after ?_ | with_reducible refine (State.jumpTo_pres _ _ _).after ?_)

theorem State.tdField_pres {f7} (h7 : ∀ y0 y1 y2, SpKept y2 (f7 y0 y1 y2)) : ∀ s x2 x3 x4 x5 x6, Pres s (State.tdField s x2 x3 x4 x5 x6 f7) := by
  intro s x2 x3 x4 x5 x6
  unfold State.tdField
  repeat' (first
    | with_reducible exact Pres.refl _ | intro _ | with_reducible exact SpKept.refl _
    | with_reducible refine (State.issue_pres ?_ _ _ _ _ _).after ?_ | with_reducible refine (State.seqFatal_pres _ _ _ _ _).after ?_
    | with_reducible refine (State.advance_pres _ _ _).after ?_ | with_reducible refine (State.modCore_pres ?_ _ _).after ?_
    | with_reducible refine (h7 _ _ _).after ?_ | split)

theorem execTdGetf_pres : ∀ x1 x2 x3 x4 x5 s, Keeps s (execTdGetf x1 x2 x3 x4 x5 s) := by
  intro x1 x2 x3 x4 x5 s
  unfold execTdGetf
  repeat' (first
    | with_reducible exact Pres.refl _ | intro _ | with_reducible refine keeps_next ?_ | with_reducible exact SpKept.refl _
    | with_reducible refine (State.tdField_pres ?_ _ _ _ _ _ _).after ?_ | with_reducible refine (Core.sset_spKept _ _ _).after ?_)

theorem execMinu_pres : ∀ x1 x2 x3 x4 x5 s, Keeps s (execMinu x1 x2 x3 x4 x5 s) := by
  intro x1 x2 x3 x4 x5 s
  unfold execMinu
  repeat' (first
    | with_reducible exact Pres.refl _ | with_reducible refine keeps_next ?_
    | with_reducible refine (State.alu_pres _ _ _ _ _ _ _ _).after ?_)

theorem execSt_pres : ∀ x1 x2 x3 x4 x5 s, Keeps s (execSt x1 x2 x3 x4 x5 s) := by
  intro x1 x2 x3 x4 x5 s
  unfold execSt
  repeat' (first
    | with_reducible exact Pres.refl _ | intro _ | with_reducible refine keeps_next ?_
    | with_reducible refine (State.issue_pres ?_ _ _ _ _ _).after ?_ | with_reducible refine (State.seqFatal_pres _ _ _ _ _).after ?_
    | with_reducible refine (State.advance_pres _ _ _).after ?_ | with_reducible refine (State.spWrite_pres _ _ _ _).after ?_ | split
    | dsimp only)

theorem State.cmp_pres : ∀ s x2 x3 x4 x5 x6 x7 x8, Pres s (State.cmp s x2 x3 x4 x5 x6 x7 x8) := by
  intro s x2 x3 x4 x5 x6 x7 x8
  unfold State.cmp
  repeat' (first
    | with_reducible exact Pres.refl _ | intro _ | with_reducible exact SpKept.refl _
    | with_reducible refine (State.issueCore_pres ?_ _ _ _ _ _).after ?_ | with_reducible refine (Core.pset_spKept _ _ _).after ?_)

theorem execCmpGeu_pres : ∀ x1 x2 x3 x4 x5 s, Keeps s (execCmpGeu x1 x2 x3 x4 x5 s) := by
  intro x1 x2 x3 x4 x5 s
  unfold execCmpGeu
  repeat' (first
    | with_reducible exact Pres.refl _ | with_reducible refine keeps_next ?_
    | with_reducible refine (State.cmp_pres _ _ _ _ _ _ _ _).after ?_)

theorem execLoop_pres : ∀ x1 x2 x3 x4 s, Keeps s (execLoop x1 x2 x3 x4 s) := by
  intro x1 x2 x3 x4 s
  unfold execLoop
  repeat' (first
    | with_reducible exact Pres.refl _ | intro _ | with_reducible refine keeps_next ?_ | with_reducible exact SpKept.refl _
    | with_reducible refine (State.issue_pres ?_ _ _ _ _ _).after ?_ | with_reducible refine (State.modCore_pres ?_ _ _).after ?_
    | with_reducible refine (Core.sset_spKept _ _ _).after ?_ | with_reducible refine (State.jumpTo_pres _ _ _).after ?_
    | with_reducible refine (State.advance_pres _ _ _).after ?_ | split | dsimp only)

theorem execMaxu_pres : ∀ x1 x2 x3 x4 x5 s, Keeps s (execMaxu x1 x2 x3 x4 x5 s) := by
  intro x1 x2 x3 x4 x5 s
  unfold execMaxu
  repeat' (first
    | with_reducible exact Pres.refl _ | with_reducible refine keeps_next ?_
    | with_reducible refine (State.alu_pres _ _ _ _ _ _ _ _).after ?_)

theorem execBr_pres : ∀ x1 x2 x3 s, Keeps s (execBr x1 x2 x3 s) := by
  intro x1 x2 x3 s
  unfold execBr
  repeat' (first
    | with_reducible exact Pres.refl _ | intro _ | with_reducible refine keeps_next ?_
    | with_reducible refine (State.issue_pres ?_ _ _ _ _ _).after ?_ | with_reducible refine (State.jumpTo_pres _ _ _).after ?_)

theorem execTdSetf_pres : ∀ x1 x2 x3 x4 x5 s, Keeps s (execTdSetf x1 x2 x3 x4 x5 s) := by
  intro x1 x2 x3 x4 x5 s
  unfold execTdSetf
  repeat' (first
    | with_reducible exact Pres.refl _ | intro _ | with_reducible refine keeps_next ?_ | with_reducible exact SpKept.refl _
    | with_reducible refine (State.tdField_pres ?_ _ _ _ _ _ _).after ?_ | with_reducible refine (Core.tset_spKept _ _ _).after ?_)

theorem execMin_pres : ∀ x1 x2 x3 x4 x5 s, Keeps s (execMin x1 x2 x3 x4 x5 s) := by
  intro x1 x2 x3 x4 x5 s
  unfold execMin
  repeat' (first
    | with_reducible exact Pres.refl _ | with_reducible refine keeps_next ?_
    | with_reducible refine (State.alu_pres _ _ _ _ _ _ _ _).after ?_)

theorem execTdSet_pres : ∀ x1 x2 x3 x4 x5 s, Keeps s (execTdSet x1 x2 x3 x4 x5 s) := by
  intro x1 x2 x3 x4 x5 s
  unfold execTdSet
  repeat' (first
    | with_reducible exact Pres.refl _ | intro _ | with_reducible refine keeps_next ?_ | with_reducible exact SpKept.refl _
    | with_reducible refine (State.issueCore_pres ?_ _ _ _ _ _).after ?_ | with_reducible refine (Core.tset_spKept _ _ _).after ?_)

theorem execEndFinish_pres : ∀ x1 s, Keeps s (execEndFinish x1 s) := by
  intro x1 s
  unfold execEndFinish
  repeat' (first
    | (fail_if_no_progress (with_reducible refine spKept_lit ?_)) | with_reducible exact Pres.refl _ | intro _
    | with_reducible refine keeps_next ?_ | with_reducible exact SpKept.refl _ | with_reducible refine (State.modCore_pres ?_ _ _).after ?_
    | split)

theorem execSub_pres : ∀ x1 x2 x3 x4 x5 s, Keeps s (execSub x1 x2 x3 x4 x5 s) := by
  intro x1 x2 x3 x4 x5 s
  unfold execSub
  repeat' (first
    | with_reducible exact Pres.refl _ | with_reducible refine keeps_next ?_
    | with_reducible refine (State.alu_pres _ _ _ _ _ _ _ _).after ?_)

theorem execCmpEq_pres : ∀ x1 x2 x3 x4 x5 s, Keeps s (execCmpEq x1 x2 x3 x4 x5 s) := by
  intro x1 x2 x3 x4 x5 s
  unfold execCmpEq
  repeat' (first
    | with_reducible exact Pres.refl _ | with_reducible refine keeps_next ?_
    | with_reducible refine (State.cmp_pres _ _ _ _ _ _ _ _).after ?_)

theorem execOr_pres : ∀ x1 x2 x3 x4 x5 s, Keeps s (execOr x1 x2 x3 x4 x5 s) := by
  intro x1 x2 x3 x4 x5 s
  unfold execOr
  repeat' (first
    | with_reducible exact Pres.refl _ | with_reducible refine keeps_next ?_
    | with_reducible refine (State.alu_pres _ _ _ _ _ _ _ _).after ?_)

theorem execMax_pres : ∀ x1 x2 x3 x4 x5 s, Keeps s (execMax x1 x2 x3 x4 x5 s) := by
  intro x1 x2 x3 x4 x5 s
  unfold execMax
  repeat' (first
    | with_reducible exact Pres.refl _ | with_reducible refine keeps_next ?_
    | with_reducible refine (State.alu_pres _ _ _ _ _ _ _ _).after ?_)

theorem execCmpNe_pres : ∀ x1 x2 x3 x4 x5 s, Keeps s (execCmpNe x1 x2 x3 x4 x5 s) := by
  intro x1 x2 x3 x4 x5 s
  unfold execCmpNe
  repeat' (first
    | with_reducible exact Pres.refl _ | with_reducible refine keeps_next ?_
    | with_reducible refine (State.cmp_pres _ _ _ _ _ _ _ _).after ?_)

theorem execShr_pres : ∀ x1 x2 x3 x4 x5 s, Keeps s (execShr x1 x2 x3 x4 x5 s) := by
  intro x1 x2 x3 x4 x5 s
  unfold execShr
  repeat' (first
    | with_reducible exact Pres.refl _ | with_reducible refine keeps_next ?_
    | with_reducible refine (State.alu_pres _ _ _ _ _ _ _ _).after ?_)

theorem execLd_pres : ∀ x1 x2 x3 x4 x5 x6 s, Keeps s (execLd x1 x2 x3 x4 x5 x6 s) := by
  intro x1 x2 x3 x4 x5 x6 s
  unfold execLd
  repeat' (first
    | with_reducible exact Pres.refl _ | intro _ | with_reducible refine keeps_next ?_ | with_reducible exact SpKept.refl _
    | with_reducible refine (State.issue_pres ?_ _ _ _ _ _).after ?_ | with_reducible refine (State.sramUpsets_pres _ _).after ?_
    | with_reducible refine (State.seqFatal_pres _ _ _ _ _).after ?_ | with_reducible refine (State.coreFatal_pres _ _ _).after ?_
    | with_reducible refine (State.advance_pres _ _ _).after ?_ | with_reducible refine (State.modCore_pres ?_ _ _).after ?_
    | with_reducible refine (Core.sset_spKept _ _ _).after ?_ | split | dsimp only)

theorem execSra_pres : ∀ x1 x2 x3 x4 x5 s, Keeps s (execSra x1 x2 x3 x4 x5 s) := by
  intro x1 x2 x3 x4 x5 s
  unfold execSra
  repeat' (first
    | with_reducible exact Pres.refl _ | with_reducible refine keeps_next ?_
    | with_reducible refine (State.alu_pres _ _ _ _ _ _ _ _).after ?_)

theorem execCmpGe_pres : ∀ x1 x2 x3 x4 x5 s, Keeps s (execCmpGe x1 x2 x3 x4 x5 s) := by
  intro x1 x2 x3 x4 x5 s
  unfold execCmpGe
  repeat' (first
    | with_reducible exact Pres.refl _ | with_reducible refine keeps_next ?_
    | with_reducible refine (State.cmp_pres _ _ _ _ _ _ _ _).after ?_)

theorem execMul_pres : ∀ x1 x2 x3 x4 x5 s, Keeps s (execMul x1 x2 x3 x4 x5 s) := by
  intro x1 x2 x3 x4 x5 s
  unfold execMul
  repeat' (first
    | with_reducible exact Pres.refl _ | with_reducible refine keeps_next ?_
    | with_reducible refine (State.alu_pres _ _ _ _ _ _ _ _).after ?_)

theorem execEndOp_pres : ∀ x1 x2 s, Keeps s (execEndOp x1 x2 s) := by
  intro x1 x2 s
  unfold execEndOp
  repeat' (first
    | (fail_if_no_progress (with_reducible refine spKept_lit ?_)) | with_reducible exact Pres.refl _ | intro _
    | with_reducible refine keeps_next ?_ | with_reducible exact SpKept.refl _
    | with_reducible refine (State.issue_pres ?_ _ _ _ _ _).after ?_ | with_reducible refine (State.modCore_pres ?_ _ _).after ?_
    | with_reducible refine (State.endFillers_pres _ _ _).after ?_)

theorem execTdAddf_pres : ∀ x1 x2 x3 x4 x5 s, Keeps s (execTdAddf x1 x2 x3 x4 x5 s) := by
  intro x1 x2 x3 x4 x5 s
  unfold execTdAddf
  repeat' (first
    | with_reducible exact Pres.refl _ | intro _ | with_reducible refine keeps_next ?_ | with_reducible exact SpKept.refl _
    | with_reducible refine (State.tdField_pres ?_ _ _ _ _ _ _).after ?_ | with_reducible refine (Core.tset_spKept _ _ _).after ?_)

theorem execTdSetfi_pres : ∀ x1 x2 x3 x4 x5 s, Keeps s (execTdSetfi x1 x2 x3 x4 x5 s) := by
  intro x1 x2 x3 x4 x5 s
  unfold execTdSetfi
  repeat' (first
    | with_reducible exact Pres.refl _ | intro _ | with_reducible refine keeps_next ?_ | with_reducible exact SpKept.refl _
    | with_reducible refine (State.tdField_pres ?_ _ _ _ _ _ _).after ?_ | with_reducible refine (Core.tset_spKept _ _ _).after ?_)

theorem execXor_pres : ∀ x1 x2 x3 x4 x5 s, Keeps s (execXor x1 x2 x3 x4 x5 s) := by
  intro x1 x2 x3 x4 x5 s
  unfold execXor
  repeat' (first
    | with_reducible exact Pres.refl _ | with_reducible refine keeps_next ?_
    | with_reducible refine (State.alu_pres _ _ _ _ _ _ _ _).after ?_)

theorem execNop_pres : ∀ x1 x2 s, Keeps s (execNop x1 x2 s) := by
  intro x1 x2 s
  unfold execNop
  repeat' (first
    | with_reducible exact Pres.refl _ | intro _ | with_reducible refine keeps_next ?_
    | with_reducible refine (State.issue_pres ?_ _ _ _ _ _).after ?_ | with_reducible refine (State.advance_pres _ _ _).after ?_
    | with_reducible refine (State.enqueue_pres _ _ _ _).after ?_ | with_reducible refine (State.runEntry_pres ?_ _ _ _ _).after ?_
    | with_reducible refine (State.finish_pres _ _ _ _).after ?_ | split)

theorem execLi_pres : ∀ x1 x2 x3 x4 s, Keeps s (execLi x1 x2 x3 x4 s) := by
  intro x1 x2 x3 x4 s
  unfold execLi
  repeat' (first
    | with_reducible exact Pres.refl _ | intro _ | with_reducible refine keeps_next ?_ | with_reducible exact SpKept.refl _
    | with_reducible refine (State.issueCore_pres ?_ _ _ _ _ _).after ?_ | with_reducible refine (Core.sset_spKept _ _ _).after ?_)

theorem execCmpLt_pres : ∀ x1 x2 x3 x4 x5 s, Keeps s (execCmpLt x1 x2 x3 x4 x5 s) := by
  intro x1 x2 x3 x4 x5 s
  unfold execCmpLt
  repeat' (first
    | with_reducible exact Pres.refl _ | with_reducible refine keeps_next ?_
    | with_reducible refine (State.cmp_pres _ _ _ _ _ _ _ _).after ?_)

theorem execPand_pres : ∀ x1 x2 x3 x4 x5 s, Keeps s (execPand x1 x2 x3 x4 x5 s) := by
  intro x1 x2 x3 x4 x5 s
  unfold execPand
  repeat' (first
    | with_reducible exact Pres.refl _ | with_reducible refine keeps_next ?_
    | with_reducible refine (State.pred_pres _ _ _ _ _ _ _ _).after ?_)

theorem execCmpLtu_pres : ∀ x1 x2 x3 x4 x5 s, Keeps s (execCmpLtu x1 x2 x3 x4 x5 s) := by
  intro x1 x2 x3 x4 x5 s
  unfold execCmpLtu
  repeat' (first
    | with_reducible exact Pres.refl _ | with_reducible refine keeps_next ?_
    | with_reducible refine (State.cmp_pres _ _ _ _ _ _ _ _).after ?_)

theorem execAnd_pres : ∀ x1 x2 x3 x4 x5 s, Keeps s (execAnd x1 x2 x3 x4 x5 s) := by
  intro x1 x2 x3 x4 x5 s
  unfold execAnd
  repeat' (first
    | with_reducible exact Pres.refl _ | with_reducible refine keeps_next ?_
    | with_reducible refine (State.alu_pres _ _ _ _ _ _ _ _).after ?_)

theorem execAdd_pres : ∀ x1 x2 x3 x4 x5 s, Keeps s (execAdd x1 x2 x3 x4 x5 s) := by
  intro x1 x2 x3 x4 x5 s
  unfold execAdd
  repeat' (first
    | with_reducible exact Pres.refl _ | with_reducible refine keeps_next ?_
    | with_reducible refine (State.alu_pres _ _ _ _ _ _ _ _).after ?_)

theorem execPxor_pres : ∀ x1 x2 x3 x4 x5 s, Keeps s (execPxor x1 x2 x3 x4 x5 s) := by
  intro x1 x2 x3 x4 x5 s
  unfold execPxor
  repeat' (first
    | with_reducible exact Pres.refl _ | with_reducible refine keeps_next ?_
    | with_reducible refine (State.pred_pres _ _ _ _ _ _ _ _).after ?_)

end Sys2Proof.Machine
end

