-- ==== Sys2Proof/Laws/Wire.lean ====
section
/-! SUPPORT. Bytes and checksums: a number is read back from its little-endian bytes, and bytes that end in their own CRC
pass its check. -/

namespace Sys2Proof.Machine

/-- Four little-endian bytes of a 32-bit number hold it. -/
theorem leNat_leBytes_four (v : Nat) (h : v < 2 ^ 32) : leNat (leBytes 4 v) = v := by
  simp only [leBytes, leNat, BitVec.toNat_ofNat]; omega

theorem crcByte_lt (c : Nat) (b : Byte) (h : c < 2 ^ 32) : crcByte c b < 2 ^ 32 := by
  have step : ∀ x : Nat, x < 2 ^ 32 → (if x % 2 = 1 then (x / 2) ^^^ 0x82F63B78 else x / 2) < 2 ^ 32 := by
    intro x hx
    split
    · exact Nat.xor_lt_two_pow (by omega) (by decide)
    · omega
  have all : ∀ (l : List Nat) (x : Nat), x < 2 ^ 32 → l.foldl (fun x _ => if x % 2 = 1 then (x / 2) ^^^ 0x82F63B78 else x / 2) x < 2 ^ 32 := by
    intro l
    induction l with
    | nil => exact fun x hx => hx
    | cons _ r ih => exact fun x hx => ih _ (step x hx)
  exact all _ _ (Nat.xor_lt_two_pow h (by have := b.isLt; omega))

/-- A CRC-32C is a 32-bit number. -/
theorem crc32c_lt (bs : List Byte) : crc32c bs < 2 ^ 32 := by
  have all : ∀ (l : List Byte) (x : Nat), x < 2 ^ 32 → l.foldl crcByte x < 2 ^ 32 := by
    intro l
    induction l with
    | nil => exact fun x hx => hx
    | cons b r ih => exact fun x hx => ih _ (crcByte_lt x b hx)
  exact Nat.xor_lt_two_pow (all bs _ (by decide)) (by decide)

/-- 2,076 bytes followed by their CRC pass the check of a frame. -/
theorem frameCrcOk_append (bs : List Byte) (h : bs.length = 2076) : frameCrcOk (bs ++ leBytes 4 (crc32c bs)) = true := by
  have t : (leBytes 4 (crc32c bs)).take 4 = leBytes 4 (crc32c bs) := rfl
  rw [frameCrcOk, leAt, List.drop_left' h, List.take_left' h, t, leNat_leBytes_four _ (crc32c_lt bs), beq_iff_eq]

end Sys2Proof.Machine
end

