-- ==== Sys2Proof/Tests/Slice0.lean ====
section
/-! SUPPORT. Our own tests: ill-formed terms that WellFormed refuses, small steps whose results come from the manual, and
for every statement a theorem `met_…` that shows concrete states and operands at which the hypotheses of its clauses
hold. -/

set_option Elab.async false

namespace Sys2Proof.Tests

open Sys2Proof.Machine

/-! ## Small states -/

/-- The state that an outcome gives. -/
def nextOf (o : Host.Outcome State Fault Refusal) : Option State :=
  match o with
  | .next t => some t
  | _ => none

/-- A booted module: STAGE 4, every leaf active and every domain on. -/
def up : State :=
  ((State.reset.wr Reg.GLB_BOOT_STAGE 4).wr Reg.POW_DOMAINS_ON (2 ^ 28 - 1)).wr (Reg.LL_STATE_STATE 0) 2 |>.wr (Reg.LL_STATE_STATE 1) 2
    |>.wr (Reg.LL_STATE_STATE 2) 2 |>.wr (Reg.LL_STATE_STATE 3) 2

/-- An image of one END at offset 4,096 of HM. -/
def img : Image :=
  { at_ := gAddr 0xFFF 1 4096, text := 8, entry := 0, nLoad := 0, nLive := 0, nTum := 0, textAt := 64, loadAt := 0, liveAt := 0,
    tumAt := 0, live := [], loads := [], tums := [] }

/-- Task 1 of job 7, running on core 0. -/
def tsk : Task :=
  { num := 1, queue := 0, tag := 5, cls := 1, ordered := false, fourMe := false, leafAff := false, leafMask := 0, coresN := 1,
    image := img, arg := gAddr 0xFFF 1 8192, hmKib := 0, lmMib := 0, job := 7, seq := 0, qseq := 0, state := .running, cores := [0],
    started := 0, fatal := none, jobFatal := none, killed := false, nonFatal := 0, peers := [], saved := [], stalled := 0,
    abandoned := false, loadBad := false, saveAt := 0 }

/-- A booted module whose core 0 runs task 1. -/
def busy : State := { up with tasks := [tsk] }.modCore 0 (fun k => { k with state := 1, task := 1 })

theorem fillers_off (i : Nat) : ((busy.core 0).fillerOf i).running = false := by
  match i with
  | 0 | 1 | 2 | 3 => decide +kernel
  | n + 4 =>
    have : (busy.core 0).fillerOf (n + 4) = Filler.reset := by
      unfold Core.fillerOf Vector.getD Array.getD
      rw [dif_neg (by rw [Vector.size_toArray]; omega)]
    rw [this]; rfl

/-- The header of an instruction of queue q with no dispatch wait, no extension word and a true guard. -/
def hdr (q : Fin 16) : Hdr := { q := q, dw := 0xFF, var := false, sat := false, gn := false, gp := 0, ext := none }

/-- A state in which the word at core 0's instruction pointer is this instruction. -/
def withWord (s : State) (h : Hdr) (opc operands : Nat) : State :=
  s.modCore 0 (fun k => { k with ibuf := k.ibuf.put k.ip (baseWord h opc operands) })

/-- `busy` at this instruction. -/
def iss (h : Hdr) (opc operands : Nat) : State := withWord busy h opc operands

/-- What `State.Issues` asks of core 0. -/
def canBegin (s : State) (h : Hdr) (opc operands : Nat) : Bool :=
  let k := s.core 0
  !s.failed && k.canIssue && k.fetches h opc operands && !undefinedWord k.fetched && !k.windowFull && k.guard h && k.waitMet h
    && decide (k.ip + h.words ≤ 32767)

theorem issues_of {s : State} {h : Hdr} {opc ops : Nat} (b : canBegin s h opc ops = true) : s.Issues 0 h opc ops := by
  simp only [canBegin, Bool.and_eq_true, Bool.not_eq_true', decide_eq_true_eq] at b
  exact ⟨b.1.1.1.1.1.1.1, b.1.1.1.1.1.1.2, b.1.1.1.1.1.2, b.1.1.1.1.2, b.1.1.1.2, b.1.1.2, b.1.2, b.2⟩

/-- From a state, core 0 can issue each of these instructions, an opcode and operand bits, in queue 0. -/
def IssueAll (s : State) (l : List (Nat × Nat)) : Prop := ∀ p ∈ l, (withWord s (hdr 0) p.1 p.2).Issues 0 (hdr 0) p.1 p.2

theorem issueAll_of {s : State} {l : List (Nat × Nat)} (b : l.all (fun p => canBegin (withWord s (hdr 0) p.1 p.2) (hdr 0) p.1 p.2) = true) :
    IssueAll s l := fun p hp => issues_of (List.all_eq_true.mp b p hp)

/-- From `busy`, core 0 can issue each of these in queue q, which has room. -/
def QueueAll (q : Fin 16) (l : List (Nat × Nat)) : Prop := ∀ p ∈ l, (iss (hdr q) p.1 p.2).Queues 0 (hdr q) p.1 p.2

theorem queueAll_of {q : Fin 16} {l : List (Nat × Nat)}
    (b : l.all (fun p => canBegin (iss (hdr q) p.1 p.2) (hdr q) p.1 p.2 && !((iss (hdr q) p.1 p.2).core 0).queueFull q.val) = true) : QueueAll q l :=
  fun p hp => by
    have h := List.all_eq_true.mp b p hp
    rw [Bool.and_eq_true, Bool.not_eq_true'] at h
    exact ⟨issues_of h.1, h.2⟩

/-- The only instruction of core 0's window, dispatched in queue q. -/
def ent (q : Nat) (op : EInst) : Entry :=
  { (busy.core 0).newEntry (hdr 0) op 0 with q := q, phase := .dispatched }

/-- `busy` with that instruction dispatched, core 0 changed by f. -/
def eng (q : Nat) (op : EInst) (f : Core → Core := id) : State :=
  busy.modCore 0 (fun k => f { k with window := [ent q op], nextId := 1 })

/-- A tile of some format, rows and columns at an offset of SP. -/
def tile (base fmt rows cols stride : Nat) : TileWord :=
  BitVec.ofNat 128 (base + fmt * 2 ^ 26 + rows * 2 ^ 32 + cols * 2 ^ 48 + stride * 2 ^ 96)

/-- What `State.Runs` asks of core 0. -/
def canRun (s : State) (id : Nat) (e : Entry) : Bool :=
  !s.failed && (s.core 0).runnable id == some e && (!e.slotEn || decide (e.slot ≤ 0x4FFFFF)) && (e.q == 8 || !(s.core 0).noArray e.q)
    && (!s.crosses 0 e.op || s.linkOpen 0)

theorem runs_of {s : State} {id : Nat} {e : Entry} (b : canRun s id e = true) : s.Runs 0 id e := by
  simp only [canRun, Bool.and_eq_true, Bool.or_eq_true, Bool.not_eq_true', decide_eq_true_eq, beq_iff_eq] at b
  obtain ⟨⟨⟨⟨a, r⟩, d⟩, n⟩, k⟩ := b
  exact ⟨a, r, fun h => d.resolve_left (by simp [h]), n, fun h => k.resolve_left (fun x => by rw [show (0 : CoreId).val = 0 from rfl] at h; rw [h] at x; cases x)⟩

theorem serves_of {s : State} {id : Nat} {e : Entry} (b : (canRun s id e && !s.kvWaits 0 e) = true) : s.Serves 0 id e := by
  rw [Bool.and_eq_true, Bool.not_eq_true'] at b
  exact ⟨runs_of b.1, b.2⟩

/-- With core 0 changed by f, each of these instructions, dispatched in its queue, can run. -/
def RunAll (f : Core → Core) (l : List (Nat × EInst)) : Prop := ∀ p ∈ l, (eng p.1 p.2 f).Runs 0 0 (ent p.1 p.2)

theorem runAll_of {f : Core → Core} {l : List (Nat × EInst)} (b : l.all (fun p => canRun (eng p.1 p.2 f) 0 (ent p.1 p.2)) = true) : RunAll f l :=
  fun p hp => runs_of (List.all_eq_true.mp b p hp)

/-! ## Hypotheses met: the queue, scalar instructions, branches -/

theorem met_StepRunsTheFrontCommand :
    ({ up with pending := [.beaconToggle] } : State).pending = .beaconToggle :: [] := by
  decide +kernel

theorem met_IdleStepLetsTimePass :
    up.pending = [] ∧ (∀ c : CoreId, ∀ e ∈ (busy.core c.val).window, e.phase ≠ .dispatched) := by
  decide +kernel

theorem met_ScalarAndPredicateResults :
    IssueAll busy ([0x02, 0x04, 0x06, 0x08, 0x0A].map (fun o => (srcBOpc (.reg 2) o, packAB 3 1 (.reg 2))))
    ∧ IssueAll busy ([0x0C, 0x0E, 0x10, 0x12, 0x14, 0x16, 0x18, 0x1A].map (fun o => (srcBOpc (.imm 2) o, packAB 0 63 (.imm 2))))
    ∧ IssueAll busy [(0x1C, 3 * 2 ^ 31 + (5 : BitVec 25).toNat)]
    ∧ IssueAll busy ([0x20, 0x21, 0x22, 0x23, 0x24, 0x25].map (fun o => (srcCOpc (.imm 2) o, packC 1 2 (.imm 2))))
    ∧ IssueAll busy ([0x2C, 0x2D, 0x2E].map (fun o => (o, 1 * 2 ^ 34 + 2 * 2 ^ 31 + 3 * 2 ^ 28))) ∧ IssueAll busy [(0x2F, 2 ^ 34)] := 
  ⟨issueAll_of (by decide +kernel),
    issueAll_of (by decide +kernel),
    issueAll_of (by decide +kernel),
    issueAll_of (by decide +kernel),
    issueAll_of (by decide +kernel),
    issueAll_of (by decide +kernel)⟩

/-- Core 0 with s1 = 8 and the word at 8 uncorrectable. -/
def badWord : State := busy.modCore 0 (fun k => { k.sset 1 8 with spBad := [1] })

theorem met_LoadsStoresAndBranches :
    IssueAll busy ([0x1E, 0x1F].map (fun o => (o, 2 * 2 ^ 31 + 2 ^ 25 + (8 : BitVec 25).toNat)))
    ∧ IssueAll badWord [(0x1E, 2 * 2 ^ 31 + 2 ^ 25 + (0 : BitVec 25).toNat)]
    ∧ IssueAll busy [(0x30, (32767 : BitVec 16).toNat), (0x31, 2 ^ 31 + (65535 : BitVec 16).toNat), (0x32, 2 ^ 31)] ∧ ldOk 0 = true
    ∧ ldOk 0x27FFFF8 = true ∧ ldOk 0x2800000 = false ∧ ldOk 4 = false ∧ ((busy.core 0).spRead 0x27FFFF8 8).2.isBad = false
    ∧ ((badWord.core 0).spRead 8 8).2.isBad = true ∧ ((busy.core 0).ip : Int) + ((hdr 0).immS (32767 : BitVec 16)).toInt = 32767
    ∧ ((busy.core 0).ip : Int) + ((hdr 0).immS (65535 : BitVec 16)).toInt < 0 ∧ (busy.core 0).sget 0 - 1 ≠ 0
    ∧ (((busy.core 0).sset 1 1).sget 1) - 1 = 0 ∧ (((busy.core 0).sset 1 32767).sget 1).toNat ≤ 32767
    ∧ 32767 < (((busy.core 0).sset 1 32768).sget 1).toNat := 
  ⟨issueAll_of (by decide +kernel),
    issueAll_of (by decide +kernel),
    issueAll_of (by decide +kernel),
    by decide +kernel⟩

theorem met_TileDescriptorFieldsAreWritten :
    IssueAll busy [(0x34, 3 * 2 ^ 32 + 2 ^ 22 + 2 * 2 ^ 16)]
    ∧ IssueAll busy ([0x35, 0x38].flatMap (fun o => [(o, 3 * 2 ^ 32 + 7 * 2 ^ 28 + 2 ^ 22), (o, 3 * 2 ^ 32 + 15 * 2 ^ 28 + 2 ^ 22)]))
    ∧ IssueAll busy ([0x36, 0x37].flatMap (fun o => [(o, 3 * 2 ^ 32 + 5), (o, 3 * 2 ^ 32 + 8 * 2 ^ 28 + 5)]))
    ∧ fselField (0 : Fin 16).val = some (0, 26) ∧ fselField (7 : Fin 16).val = some (64, 64) ∧ 8 ≤ (8 : Fin 16).val ∧ 8 ≤ (15 : Fin 16).val := 
  ⟨issueAll_of (by decide +kernel),
    issueAll_of (by decide +kernel),
    issueAll_of (by decide +kernel),
    by decide +kernel⟩

/-- A header whose guard is !p0. -/
def never (q : Fin 16) : Hdr := { hdr q with gn := true }

/-- Core 0 fetches this instruction under that guard. -/
def skips (q : Fin 16) (opc operands : Nat) : Bool :=
  let k := (iss (never q) opc operands).core 0
  k.canIssue && !k.windowFull && !k.guard (never q) && decide (k.ip + (never q).words ≤ 32767) && !undefinedWord k.fetched
    && k.fetches (never q) opc operands

theorem met_FalseGuardOnlyMovesOn :
    busy.failed = false ∧ skips 0 (srcBOpc (.reg 1) 0x02) (packAB 3 1 (.reg 1)) = true ∧ skips 0 0x30 (5 : BitVec 16).toNat = true
    ∧ skips 0 0x31 (2 ^ 31 + (5 : BitVec 16).toNat) = true ∧ skips 0 0x1E (2 * 2 ^ 31 + 2 ^ 25 + (8 : BitVec 25).toNat) = true ∧ skips 0 0x01 0 = true
    ∧ skips 6 0x00 0 = true ∧ skips 6 0x40 (packG { tn := 3, scope := 0, consume := true, n := 5 }) = true
    ∧ skips 7 0x60 (packI { td := 1, ra := 2, rb := 3, rc := 4, cls := 1, hint := 0, scope := 0 }) = true
    ∧ skips 8 0x81 (packN { ts := 1, rk := 2, sslot := 1 }) = true
    ∧ skips 6 0xA2 (packT { vd := 1, va := 2, vb := 3, vc := 0, rs := 0, mode := 0, ty := true, sr := false }) = true ∧ skips 0 0x52 0 = true := by
  decide +kernel

/-- Core 0 at the last word of its instruction buffer. -/
def lastWord (w : Word) : State := busy.modCore 0 (fun k => { k with ip := 32767, ibuf := k.ibuf.put 32767 w })

theorem met_EndsAndUndefinedEncodings :
    IssueAll busy [(0x00, 0), (0x01, 0)] ∧ QueueAll 6 [(0x00, 0)] ∧ RunAll id [(6, .nop)] ∧ (∀ i, ((busy.core 0).fillerOf i).running = false)
    ∧ ((busy.modCore 0 (fun k => { k with ending := true, stall := some .ending })).core 0).window = [] ∧ ((eng 6 .nop).core 0).window ≠ []
    ∧ (busy.core 0).canIssue = true ∧ wordExt ((lastWord (BitVec.ofNat 64 (2 ^ 40))).core 0).fetched = true
    ∧ undefinedWord ((withWord busy (hdr 0) 0x39 0).core 0).fetched = true ∧ undefinedWord ((withWord busy (hdr 9) 0x04 0).core 0).fetched = true
    ∧ ((iss (hdr 0) 0x00 0).core 0).fetches (hdr 0) (srcBOpc (.reg 1) 0x02) (packAB 3 1 (.reg 1)) = false
    ∧ undefinedWord ((iss (hdr 0) 0x00 0).core 0).fetched = false
    ∧ (let k := (lastWord (baseWord (hdr 0) (srcBOpc (.reg 1) 0x02) (packAB 3 1 (.reg 1)))).core 0; k.canIssue = true ∧ k.windowFull = false ∧ k.guard (hdr 0) = true ∧ wordExt k.fetched = false ∧ undefinedWord k.fetched = false ∧ k.fetches (hdr 0) (srcBOpc (.reg 1) 0x02) (packAB 3 1 (.reg 1)) = true ∧ 32767 < k.ip + (hdr 0).words) := 
  ⟨issueAll_of (by decide +kernel),
    queueAll_of (by decide +kernel),
    runAll_of (by decide +kernel),
    fillers_off,
    by decide +kernel⟩

/-- Task 1 on cores 0 and 1, another on core 2. -/
def twoCores : State :=
  ({ busy with tasks := [{ tsk with cores := [0, 1] }, { tsk with num := 2, cores := [2] }] }.modCore 1 (fun k => { k with state := 1, task := 1 })).modCore 2
    (fun k => { k with state := 1, task := 2 })

theorem met_TaskFatalStatusStopsTheTask :
    (∃ x ∈ twoCores.tasks, x.num = (twoCores.core 0).task ∧ x.killed = false ∧ x.jobFatal = none) ∧ (twoCores.core 0).task ≠ 0 ∧ Status.addrRange ≠ 0
    ∧ (twoCores.core 0).finished = false ∧ (twoCores.core 1).task = (twoCores.core 0).task ∧ (twoCores.core 1).state = 1
    ∧ (twoCores.core 1).finished = false ∧ (twoCores.core 2).task ≠ (twoCores.core 0).task := 
  ⟨⟨_, List.mem_cons_self, by decide +kernel⟩,
    by decide +kernel⟩


/-! ## Hypotheses met: tumblers, fences, the deadlock detector -/

/-- A local operand word: lt3, register form off, N = n. -/
def og (n : BitVec 26) : FmtG := { tn := 3, scope := 0, consume := true, n := n }

/-- Core 0 with lt3 = 7 at an instruction of queue q. -/
def atG (q : Fin 16) (opc : Nat) (n : BitVec 26) : State :=
  withWord (busy.modCore 0 (fun k => k.ltSet 3 7)) (hdr q) opc (packG (og n))

/-- lt3 counts 7, and a dispatch wait of queue 2 takes 1 of it before queue 6. -/
def ranked (op : EInst) : State :=
  (eng 6 op (fun k => k.ltSet 3 7)).modCore 0 (fun k => { k with window := { ent 2 .nop with id := 1, phase := .queued, dw := 3 } :: k.window })

theorem met_LocalTumblers :
    (atG 0 0x40 5).Issues 0 (hdr 0) 0x40 (packG (og 5)) ∧ (atG 0 0x41 7).Issues 0 (hdr 0) 0x41 (packG (og 7))
    ∧ (atG 0 0x41 8).Issues 0 (hdr 0) 0x41 (packG (og 8)) ∧ (atG 0 0x42 5).Issues 0 (hdr 0) 0x42 (packG (og 5))
    ∧ (atG 0 0x43 5).Issues 0 (hdr 0) 0x43 (packG (og 5)) ∧ QueueAll 6 [(0x40, packG (og 5)), (0x41, packG (og 5)), (0x42, packG (og 5))]
    ∧ RunAll id [(6, .tumAdd 3 1 0), (6, .tumWait 3 0 0 true), (6, .tumWait 3 0 0 false), (6, .tumWait 3 1 0 true), (6, .tumSet 3 9)]
    ∧ (ranked (.tumWait 3 6 0 true)).Runs 0 0 (ent 6 (.tumWait 3 6 0 true)) ∧ (ranked (.tumWait 3 7 0 false)).Runs 0 0 (ent 6 (.tumWait 3 7 0 false))
    ∧ (let k := ((atG 0 0x40 5).taken 0 (hdr 0)).core 0; 0 ≤ ((k.ltGet 3).toNat : Int) + k.nAdd (hdr 0) (og 5) ∧ ((k.ltGet 3).toNat : Int) + k.nAdd (hdr 0) (og 5) < 2 ^ 32 ∧ k.nUns (hdr 0) (og 7) ≤ (k.ltGet 3).toNat ∧ (k.ltGet 3).toNat < k.nUns (hdr 0) (og 8))
    ∧ ((ranked (.tumWait 3 6 0 true)).core 0).countFor 3 6 = 6 ∧ ((ranked (.tumWait 3 7 0 false)).core 0).countFor 3 6 < 7
    ∧ (∀ w ∈ ((eng 6 (.tumWait 3 1 0 true)).core 0).waitsOn 3, 6 ≤ w.1) ∧ ((0 : Word32).toNat : Int) + -1 < 0
    ∧ 2 ^ 32 - 1 < (((BitVec.allOnes 32).toNat : Int) + 1) ∧ (((BitVec.allOnes 32).toNat : Int) + 0 ≤ 2 ^ 32 - 1) := 
  ⟨issues_of (by decide +kernel),
    issues_of (by decide +kernel),
    issues_of (by decide +kernel),
    issues_of (by decide +kernel),
    issues_of (by decide +kernel),
    queueAll_of (by decide +kernel),
    runAll_of (by decide +kernel),
    runs_of (by decide +kernel),
    runs_of (by decide +kernel),
    by decide +kernel⟩

/-- Core 0 with hub4, count 5, allocated to its task, its address in s1, N = n and consuming. -/
def hubbed : State := { busy with allocs := [{ first := 4, len := 2, task := 1 }] }.hubSet 4 5 |>.modCore 0 (fun k => k.sset 1 (gAddr 0xFFF spTUM 32))

def oh (n : BitVec 20) : FmtH := { ra := 1, rb := 2, scope := 1, consume := true, cls := 2, n := n }

/-- The same with an s2 that is no hub tumbler's address. -/
def oh2 : FmtH := { oh 5 with ra := 2 }

/-- A leaf link with 27 active modules. -/
def closed (s : State) : State := [0, 1, 2, 3, 4].foldl (fun t m => t.wr (Reg.LL_WIDTH_MOD 0 m) 3) s

/-- `hubbed` with a dispatched instruction of the transfer engine. -/
def hubEng (op : EInst) : State := hubbed.modCore 0 (fun k => { k with window := [ent 7 op], nextId := 1 })

/-- Every hub tumbler allocated. -/
def allTaken (s : State) : State := { s with allocs := [{ first := 0, len := 4096, task := 1 }] }

/-- `hubbed` at an instruction of format H, and after it is taken. -/
def atH (opc : Nat) (o : FmtH) (f : State → State := id) : State := withWord (f hubbed) (hdr 0) opc (packH o)

/-- Another waiter on hub9, and one on hub4 already woken. -/
def others (s : State) : State :=
  { s with waiters := [{ tum := 9, core := 1, n := 1, consume := true, woken := false }, { tum := 4, core := 2, n := 1, consume := true, woken := true }] }

theorem met_HubAndGlobalTumblers_HubTumblers :
    (atH 0x44 (oh 5)).Issues 0 (hdr 0) 0x44 (packH (oh 5)) ∧ (atH 0x44 (oh 6)).Issues 0 (hdr 0) 0x44 (packH (oh 6))
    ∧ (atH 0x44 oh2).Issues 0 (hdr 0) 0x44 (packH oh2) ∧ (atH 0x45 (oh 0)).Issues 0 (hdr 0) 0x45 (packH (oh 0))
    ∧ (atH 0x45 (oh 0) allTaken).Issues 0 (hdr 0) 0x45 (packH (oh 0))
    ∧ (let s0 := (atH 0x44 (oh 5)).taken 0 (hdr 0); s0.linkOpen 0 = true ∧ s0.hubOf ((s0.core 0).sget 1) = some 4 ∧ (s0.hubAlloc 4).isSome = true ∧ (s0.core 0).nH (hdr 0) (oh 5) ≤ (s0.hubGet 4).toNat ∧ (s0.hubGet 4).toNat < (s0.core 0).nH (hdr 0) (oh 6))
    ∧ (let s0 := (atH 0x44 oh2).taken 0 (hdr 0); s0.linkOpen 0 = true ∧ s0.hubOf ((s0.core 0).sget 2) = none)
    ∧ (let s0 := (atH 0x44 (oh 5) (fun s => s.modCore 0 (fun k => k.sset 1 (gAddr 0xFFF spTUM 48)))).taken 0 (hdr 0); s0.hubOf ((s0.core 0).sget 1) = some 6 ∧ s0.hubAlloc 6 = none)
    ∧ ((atH 0x45 (oh 0)).taken 0 (hdr 0)).freeRun 1 = some 0 ∧ ((atH 0x45 (oh 0)).taken 0 (hdr 0)).freeRun 64 = some 6
    ∧ ((atH 0x45 (oh 0)).taken 0 (hdr 0)).linkOpen 0 = true ∧ ((atH 0x45 (oh 0) allTaken).taken 0 (hdr 0)).freeRun 1 = none
    ∧ ((atH 0x45 (oh 0) allTaken).taken 0 (hdr 0)).linkOpen 0 = true := 
  ⟨issues_of (by decide +kernel),
    issues_of (by decide +kernel),
    issues_of (by decide +kernel),
    issues_of (by decide +kernel),
    issues_of (by decide +kernel),
    by decide +kernel⟩

theorem met_HubAndGlobalTumblers_HubTumblersFreedOrHeld :
    (atH 0x46 (oh 0) others).Issues 0 (hdr 0) 0x46 (packH (oh 0)) ∧ (atH 0x46 oh2).Issues 0 (hdr 0) 0x46 (packH oh2)
    ∧ (atH 0x44 (oh 5) closed).Issues 0 (hdr 0) 0x44 (packH (oh 5)) ∧ (atH 0x45 (oh 5) closed).Issues 0 (hdr 0) 0x45 (packH (oh 5))
    ∧ (atH 0x46 (oh 5) closed).Issues 0 (hdr 0) 0x46 (packH (oh 5))
    ∧ (let s0 := (atH 0x46 (oh 0) others).taken 0 (hdr 0); s0.linkOpen 0 = true ∧ s0.hubOf ((s0.core 0).sget 1) = some 4 ∧ s0.allocs.find? (fun a => a.first == 4 && a.task == (s0.core 0).task) = some { first := 4, len := 2, task := 1 } ∧ (∀ w ∈ s0.waiters, w.tum < 4 ∨ 6 ≤ w.tum ∨ w.woken = true))
    ∧ ((atH 0x46 oh2).taken 0 (hdr 0)).hubOf (((atH 0x46 oh2).taken 0 (hdr 0)).core 0 |>.sget 2) = none
    ∧ ((atH 0x44 (oh 5) closed).taken 0 (hdr 0)).linkOpen 0 = false ∧ ((atH 0x45 (oh 5) closed).taken 0 (hdr 0)).linkOpen 0 = false
    ∧ ((atH 0x46 (oh 5) closed).taken 0 (hdr 0)).linkOpen 0 = false := 
  ⟨issues_of (by decide +kernel),
    issues_of (by decide +kernel),
    issues_of (by decide +kernel),
    issues_of (by decide +kernel),
    issues_of (by decide +kernel),
    by decide +kernel⟩

/-- hub4's address here, and module 5's. -/
def hub4 : Word := gAddr 0xFFF spTUM 32
def far4 : Word := gAddr 5 spTUM 32

/-- Whether the only instruction of core 0 can run. -/
def runs (s : State) (op : EInst) : Bool := canRun s 0 (ent 7 op)

theorem met_HubAndGlobalTumblers_GlobalTumblers :
    (hubEng (.tumAddG hub4 1 0 2)).Runs 0 0 (ent 7 (.tumAddG hub4 1 0 2)) ∧ (hubEng (.tumSetG hub4 9 2)).Runs 0 0 (ent 7 (.tumSetG hub4 9 2))
    ∧ (hubEng (.tumReadG hub4 0x27FFFF8 2)).Runs 0 0 (ent 7 (.tumReadG hub4 0x27FFFF8 2))
    ∧ (hubEng (.tumReadG hub4 4 2)).Runs 0 0 (ent 7 (.tumReadG hub4 4 2)) ∧ (ent 7 (.tumAddG hub4 1 0 2)).id = 0 ∧ (4 : Word).toNat % 8 ≠ 0
    ∧ 0x27FFFF8 < (0x2800000 : Word).toNat ∧ (0x27FFFF8 : Word).toNat % 8 = 0 ∧ (0x27FFFF8 : Word).toNat ≤ 0x27FFFF8
    ∧ (let s := hubEng (.tumSetG hub4 9 2); (gSpace hub4 == spTUM && s.addrOk hub4 4 true) = true ∧ s.isHere hub4 = true ∧ tumOfOff (gOff hub4) = some (.inl 4) ∧ (s.hubAlloc 4).isSome = true ∧ 0 ≤ ((s.hubGet 4).toNat : Int) + 1 ∧ ((s.hubGet 4).toNat : Int) + 1 < 2 ^ 32)
    ∧ ([EInst.tumAddG (gAddr 0xFFF 1 32) 1 0 2, .tumSetG (gAddr 0xFFF 1 32) 9 2, .tumReadG (gAddr 0xFFF 1 32) 8 2].all (fun op => runs (hubEng op) op)) = true
    ∧ (gSpace (gAddr 0xFFF 1 32) == spTUM && (hubEng (.tumSetG (gAddr 0xFFF 1 32) 9 2)).addrOk (gAddr 0xFFF 1 32) 4 true) = false
    ∧ ([EInst.tumAddG far4 1 0 2, .tumSetG far4 9 2, .tumReadG far4 8 2].all (fun op => runs ((hubEng op).wr (Reg.RT_ENTRY 0 5) 5) op)) = true
    ∧ (let s := (hubEng (.tumSetG far4 9 2)).wr (Reg.RT_ENTRY 0 5) 5; (gSpace far4 == spTUM && s.addrOk far4 4 true) = true ∧ s.isHere far4 = false ∧ s.padlocked (gMod far4) = true) := 
  ⟨runs_of (by decide +kernel),
    runs_of (by decide +kernel),
    runs_of (by decide +kernel),
    runs_of (by decide +kernel),
    by decide +kernel⟩

/-- Core 0 behind a read that is on its way. -/
def behindGet (opc : Nat) : State := withWord (eng 7 (.get (tile 0 0 1 1 64) 0 0 1 0)) (hdr 0) opc 0

/-- Core 0 stalled. -/
def stalledOn (x : Stall) (f : Core → Core := id) : State := busy.modCore 0 (fun k => f { k with stall := some x })

/-- 64 entries of queue 2. -/
def full64 (k : Core) : Core := { k with window := (List.range 64).map (fun i => { ent 2 .nop with id := i, phase := .queued }) }

theorem met_FencesHostAdditionsAndDeadlock_FencesAndWakes :
    IssueAll busy [(0x50, 0), (0x51, 0), (0x52, 0)] ∧ (behindGet 0x50).Issues 0 (hdr 0) 0x50 0 ∧ (behindGet 0x51).Issues 0 (hdr 0) 0x51 0
    ∧ (behindGet 0x52).Issues 0 (hdr 0) 0x52 0 ∧ (busy.core 0).window.all (fun e => !e.op.touches) = true
    ∧ ((behindGet 0x50).core 0).window.all (fun e => !e.op.touches) = false
    ∧ (let s := stalledOn (.dispatchWait 3) (fun k => k.ltSet 3 1); s.failed = false ∧ (s.core 0).state = 1 ∧ (s.core 0).draining = false ∧ (s.core 0).stall = some (.dispatchWait 3) ∧ 1 ≤ ((s.core 0).ltGet 3).toNat)
    ∧ ((stalledOn (.dispatchWait 3)).core 0).stall = some (.dispatchWait 3) ∧ (((stalledOn (.dispatchWait 3)).core 0).ltGet 3).toNat < 1
    ∧ ((stalledOn (.tum 3 0 1 true 1)).core 0).stall = some (.tum 3 0 1 true 1) ∧ ((stalledOn (.fence 3 1)).core 0).stall = some (.fence 3 1)
    ∧ ((stalledOn (.fence 3 1)).core 0).fenceDone = true
    ∧ ((stalledOn (.fence 3 1) (fun k => { k with window := ((behindGet 0x50).core 0).window })).core 0).fenceDone = false
    ∧ (let s := { stalledOn (.hub 4 1 1 true 1) with waiters := [{ tum := 4, core := 0, n := 1, consume := true, woken := true }] }; (s.core 0).stall = some (.hub 4 1 1 true 1) ∧ (s.waiters.find? (fun x => x.core == 0 && x.tum == 4 && x.woken)).isSome = true)
    ∧ ((stalledOn (.queueFull 2) full64).core 0).queueFull 2 = true ∧ ((stalledOn (.queueFull 2)).core 0).queueFull 2 = false
    ∧ ((stalledOn .windowFull full64).core 0).stall = some .windowFull ∧ ((stalledOn .windowFull).core 0).windowFull = false := 
  ⟨issueAll_of (by decide +kernel),
    issues_of (by decide +kernel),
    issues_of (by decide +kernel),
    issues_of (by decide +kernel),
    by decide +kernel⟩

/-- The task of core 0 pre-empted, and an operation that its TE holds after a refusal. -/
def gone : State := { up with tasks := [{ tsk with state := .preempted, saved := [(0, Core.reset)] }] }
def retrying : State :=
  { (gone.modCore 5 (fun k => { k with state := 1, task := 2 })) with
    tasks := gone.tasks ++ [{ tsk with num := 2, cores := [5] }], refused := [{ core := 0, tum := 3, task := 1, op := .add 1, issuer := .local_ 5 0, sender := 5, opid := none }] }

theorem met_FencesHostAdditionsAndDeadlock_HostAdditionsAndDeadlock :
    (∃ v : Word, tumOfOff (v.toNat % 32768 * 8) = some (.inr ((0 : CoreId).val, 3)) ∧ (0 : Int) ≤ (((busy.core 0).ltGet 3).toNat : Int) + sext 32 (v.toNat / 2 ^ 32 % 2 ^ 32))
    ∧ busy.failed = false ∧ busy.rd Reg.GLB_BOOT_STAGE = 4 ∧ busy.tumRunning 0 none = true ∧ gone.failed = false ∧ gone.rd Reg.GLB_BOOT_STAGE = 4
    ∧ gone.tumRunning 0 none = false ∧ (gone.tumPreempted 0 none).isSome = true ∧ gone.park.length < 1024 ∧ up.tumRunning 0 none = false
    ∧ up.tumPreempted 0 none = none ∧ (retrying.refused.find? (fun p => p.issuer == .local_ 5 0)).isSome = true
    ∧ (∀ p ∈ retrying.refused, p.op = .add 1 ∧ p.tum < 256 ∧ p.core < 48 ∧ retrying.tumRunning p.core (some (retrying.coreJob 5)) = false)
    ∧ (retrying.tumPreempted 0 (some (retrying.coreJob 5))).isSome = true ∧ busy.task? 1 = some tsk ∧ tsk.state = .running ∧ tsk.fatal = none
    ∧ tsk.stalled ≤ busy.act Reg.TUM_DL_CTL_WINDOW_US
    ∧ (let s := { busy with tasks := [{ tsk with stalled := 1001 }] }; s.act Reg.TUM_DL_CTL_WINDOW_US < 1001 ∧ (s.task? 1).isSome = true) := 
  ⟨⟨8195, by decide +kernel⟩,
    by decide +kernel⟩


/-! ## Hypotheses met: engine instructions at issue, dispatch, completion -/

/-- Core 0 with task 1 and a full window. -/
def fullWindow : State := busy.modCore 0 (fun k => { k with window := List.replicate 512 (ent 6 .nop) })

/-- An operand word of each format of the engine families. -/
def fi : FmtI := { td := 1, ra := 2, rb := 3, rc := 4, cls := 1, hint := 2, scope := 3 }
def fj : FmtJ := { td := 31, ra := 63, rb := 62, rc := 61, rd := 60, cls := 3, hint := 1 }
def fl : FmtL := { ra := 1, rb := 2, rc := 3, rd := 4, scope := 3, cls := 2, w64 := true, aop := 4 }
def fm : FmtM := { ts := 7, rk := 8, rn := 9, shape := 2, sslot := 1 }
def fo : FmtO := { td := 30, ra := 1, h := 7, add := true }
def ft : FmtT := { vd := 1, va := 2, vb := 3, vc := 4, rs := 5, mode := 1, ty := true, sr := true }
def fu : FmtU := { vd := 31, ts := 1, ra := 2, rb := 3, ty := true, sr := false }
def fw : FmtW := { td := 1, ts := 2, tx := 3, tg := 4, ra := 5, rb := 6, mode := 15 }
def fx : FmtX := { ts := 1, tq := 2, ra := 3, rb := 4, rc := 5, rd := 6 }
def fy : FmtY := { ts := 1, ra := 2, rb := 3, rc := 4, rd := 63 }
def fz : FmtZ := { ts := 1, ra := 2, rb := 3, h := 7 }

/-- A pre-issued read of one row of 4 bytes of HM. -/
def early (bound : Option Nat) : PreRead :=
  { pid := 0, ip := 5, td := tile 0 0 1 1 64, ra := gAddr 0xFFF 1 64, rb := 0, hint := 0, cls := 1, uses := 1, left := 0, bad := 0, parts := [], data := none,
    dirty := false, stale := false, bound := bound }

/-- Core 0 at a GET whose read has been pre-issued. -/
def gotEarly : State :=
  (iss (hdr 7) 0x60 (packI fi)).modCore 0 (fun k =>
    { k with preRead := [{ early none with ip := k.ip, td := k.tget 1, ra := k.sget 2, rb := k.sget 3, hint := 2 }] })

theorem met_EngineInstructionsJoinTheirQueue :
    QueueAll 7 ([0x48, 0x49, 0x4A].map (fun o => (o, packH (oh 5)))) ∧ QueueAll 7 ([0x60, 0x61, 0x62].map (fun o => (o, packI fi)))
    ∧ QueueAll 7 [(0x63, packJ fj), (0x64, packK ⟨0, 31⟩), (0x65, packK ⟨31, 0⟩), (0x66, packL fl)]
    ∧ QueueAll 8 [(0x80, packM fm), (0x83, (4095 : BitVec 12).toNat)] ∧ QueueAll 1 [(0x81, packN ⟨1, 2, 1⟩)] ∧ QueueAll 4 [(0x82, packO fo)]
    ∧ QueueAll 5 [(0x90, packS ⟨1, 2, 3⟩)] ∧ QueueAll 6 ([0xA0, 0xA1, 0xAC].map (fun o => (o, packU fu)))
    ∧ QueueAll 6 ((List.range 10).map (fun i => (0xA2 + i, packT ft))) ∧ QueueAll 6 ((List.range 4).map (fun i => (0xB0 + i, packW fw)))
    ∧ gotEarly.Queues 0 (hdr 7) 0x60 (packI fi) ∧ ((iss (hdr 7) 0x60 (packI fi)).core 0).aheadOf 0 0 0 = none
    ∧ ((iss (hdr 7) 0x60 (packI fi)).core 0).tget 1 = 0
    ∧ (let k := gotEarly.core 0; (k.aheadOf (k.tget 1) (k.sget 2) (k.sget 3)).isSome = true ∧ ∀ e ∈ k.window, e.id < k.nextId) := 
  ⟨queueAll_of (by decide +kernel),
    queueAll_of (by decide +kernel),
    queueAll_of (by decide +kernel),
    queueAll_of (by decide +kernel),
    queueAll_of (by decide +kernel),
    queueAll_of (by decide +kernel),
    queueAll_of (by decide +kernel),
    queueAll_of (by decide +kernel),
    queueAll_of (by decide +kernel),
    queueAll_of (by decide +kernel),
    ⟨issues_of (by decide +kernel), by decide +kernel⟩,
    by decide +kernel⟩

theorem met_EngineInstructionsJoinTheirQueue_SamplingKvAndCollectiveJoinTheirQueue :
    QueueAll 6 ((List.range 3).map (fun i => (0xB8 + i, packX fx))) ∧ QueueAll 7 ((List.range 8).map (fun i => (0xC0 + i, packY fy)))
    ∧ QueueAll 7 ([0xE0, 0xE1].map (fun o => (o, packZ fz))) := 
  ⟨queueAll_of (by decide +kernel),
    queueAll_of (by decide +kernel),
    queueAll_of (by decide +kernel)⟩

/-- Engine q's queue of core 0 full, or the window, at an instruction. -/
def fullQ (q : Fin 16) (opc operands : Nat) : State :=
  withWord (busy.modCore 0 (fun k => { k with window := List.replicate (queueCap q.val) { ent q.val .nop with phase := .queued } })) (hdr q) opc operands
def fullW (q : Fin 16) (opc operands : Nat) : State := withWord fullWindow (hdr q) opc operands

/-- The instructions that the statement names, with their queues. -/
def stallers : List (Fin 16 × Nat × Nat) :=
  [(7, 0x61, packI fi), (7, 0x64, packK ⟨0, 31⟩), (1, 0x81, packN ⟨1, 2, 1⟩), (5, 0x90, packS ⟨1, 2, 3⟩), (6, 0xA2, packT ft), (6, 0xB8, packX fx),
    (7, 0xC1, packY fy), (7, 0xE0, packZ fz)]

theorem met_QueuesDispatchAndComplete_FullQueueStallsTheSequencer :
    (∀ x ∈ stallers, (fullQ x.1 x.2.1 x.2.2).Issues 0 (hdr x.1) x.2.1 x.2.2)
    ∧ stallers.all (fun x => ((fullQ x.1 x.2.1 x.2.2).core 0).queueFull x.1.val) = true
    ∧ stallers.all (fun x => let k := (fullW x.1 x.2.1 x.2.2).core 0; k.canIssue && k.fetches (hdr x.1) x.2.1 x.2.2 && !undefinedWord k.fetched && decide (k.ip + (hdr x.1).words ≤ 32768) && k.windowFull) = true
    ∧ (fullW 5 0x90 0).failed = false := 
  ⟨(fun x hx => issues_of (List.all_eq_true.mp (by decide +kernel : stallers.all (fun x => canBegin (fullQ x.1 x.2.1 x.2.2) (hdr x.1) x.2.1 x.2.2) = true) x hx)),
    by decide +kernel⟩

/-- `eng` with the instruction still queued, waiting on lt9 or on nothing. -/
def queued (dw : Nat) : State := busy.modCore 0 (fun k => { k with window := [{ ent 6 .nop with phase := .queued, dw := dw }], nextId := 1 })

/-- `eng` with the instruction completed. -/
def ended (st : Nat) : State := busy.modCore 0 (fun k => { k with window := [{ ent 6 .nop with phase := .done st, cs := 4, slotEn := true, slot := 2 }], nextId := 1 })

/-- An MM of queue 8 at the head of all four ME queues, and one behind a wait of queue 5 that takes the last of lt9. -/
def mmHead : State := busy.modCore 0 (fun k => { k with window := [{ ent 8 (.mm (tile 0 0 1 1 64) 0 0 false) with phase := .queued }], nextId := 1 })
def behind5 : State :=
  (queued 9).modCore 0 (fun k => { k.ltSet 9 1 with window := { ent 5 .nop with id := 7, phase := .queued, dw := 9 } :: k.window })

theorem met_QueuesDispatchAndComplete_DispatchAndCompletion :
    (let s := queued 0xFF; s.failed = false ∧ (s.core 0).state = 1 ∧ (s.core 0).draining = false)
    ∧ ((queued 0xFF).core 0).headOf 6 = some { ent 6 .nop with phase := .queued, dw := 0xFF } ∧ ((queued 0xFF).core 0).dwSatisfied 6 0xFF = true
    ∧ (mmHead.core 0).headOf 8 = some { ent 8 (.mm (tile 0 0 1 1 64) 0 0 false) with phase := .queued } ∧ (mmHead.core 0).dwSatisfied 8 0xFF = true
    ∧ (mmHead.core 0).arraysOf 8 = [0, 1, 2, 3] ∧ ((queued 9).core 0).headOf 6 = some { ent 6 .nop with phase := .queued, dw := 9 }
    ∧ ((queued 9).core 0).dwSatisfied 6 9 = false ∧ (behind5.core 0).countFor 9 6 = 0 ∧ (behind5.core 0).countFor 9 5 = 1
    ∧ (∀ w ∈ (behind5.core 0).waitsOn 9, 5 ≤ w.1) ∧ ((busy.core 0).ltGet 9).toNat = 0 ∧ (busy.core 0).headOf 6 = none ∧ (busy.core 0).draining = false
    ∧ ((ended 0).core 0).entry? 0 = some { ent 6 .nop with phase := .done 0, cs := 4, slotEn := true, slot := 2 }
    ∧ (((ended 0).core 0).ltGet 4).toNat < 2 ^ 32 - 1 ∧ (ent 6 .nop).late = false ∧ fatalStatus .nop Status.targetDead = false
    ∧ Status.targetDead ≠ Status.tainted
    ∧ ((ended Status.targetDead).core 0).entry? 0 = some { ent 6 .nop with phase := .done Status.targetDead, cs := 4, slotEn := true, slot := 2 }
    ∧ fatalStatus .nop Status.addrRange = true
    ∧ ((ended Status.addrRange).core 0).entry? 0 = some { ent 6 .nop with phase := .done Status.addrRange, cs := 4, slotEn := true, slot := 2 } := by
  decide +kernel

/-- `busy` with that read on its way, and what its return depends on. -/
def reading (bound : Option Nat) (f : State → State := id) : State := f (busy.modCore 0 (fun k => { k with preRead := [early bound] }))
def readBack (s : State) : Bool × Bool :=
  (!s.linkOpen 0 || s.memWaits (gSpace (early none).ra) (gOff (early none).ra) (farSpan (Tile.of (early none).td) 0),
    ((s.crossLink 0).readPieces [] (gSpace (early none).ra) (gOff (early none).ra) 0 1 (farPieces (Tile.of (early none).td) 0)).2.1.isBad)
def hmUpset (s : State) : State := { s with hmBad := [8] }

/-- An array's filler runs, or it owes a self-test after these failures. -/
def fills : State := busy.modCore 0 (fun k => k.modFiller 2 (fun f => { f with running := true }))
def owes (l : List Nat) : State := up.modCore 0 (fun k => { k with owed := 8#4, fails := k.fails.set 3 l })

theorem met_RunAheadFillersAndSelfTests :
    (let s := reading none; (s.core 0).preRead.find? (fun p => p.ip == 5 && p.data.isNone && s.isHere p.ra) = some (early none))
    ∧ (let s := reading (some 0); (s.core 0).preRead.find? (fun p => p.ip == 5 && p.data.isNone && s.isHere p.ra) = some (early (some 0)))
    ∧ gSpace (early none).ra = 1 ∧ readBack (reading none) = (false, false) ∧ readBack (reading (some 0) hmUpset) = (false, true)
    ∧ (readBack (reading none closed)).1 = true ∧ ((fills.core 0).fillerOf 2).running = true ∧ ((busy.core 0).fillerOf 2).running = false
    ∧ (let s := owes [5]; (s.core 0).task = 0 ∧ (s.core 0).owed.getLsbD 3 = true ∧ (s.core 0).arrays.getLsbD 3 = true ∧ (s.core 0).fails.getD 3 [] = [5])
    ∧ ((owes [State.msTicks 86400000, 0]).core 0).fails.getD 3 [] = [State.msTicks 86400000, 0]
    ∧ 0 + State.msTicks (24 * 60 * 60 * 1000) ≤ State.msTicks 86400000 ∧ ((owes [9, 5]).core 0).fails.getD 3 [] = [9, 5]
    ∧ 9 < 5 + State.msTicks (24 * 60 * 60 * 1000) := by
  decide +kernel


/-! ## Hypotheses met: transfers -/

/-- A tile of 2 rows of 4 BF16 elements at SP 0, row pitch 64; addresses of HM, LM and core 5's SP; a signal at hub4. -/
def t1 : TileWord := tile 0 1 2 4 64
def hmA : Word := gAddr 0xFFF 1 4096
def lmA : Word := gAddr 0xFFF 0 4096
def spA : Word := gAddr 0xFFF 2 (5 * 2 ^ 42)
def getAt (a : Word) : EInst := .get t1 a 0 1 0
def putAt (a : Word) (log : Bool := false) : EInst := .put t1 a 0 1 0 log
def sigAt (a : Word) (scope : Nat) : EInst := .putSig t1 a 0 (gAddr 0xFFF spTUM 32) 1 0 scope false

/-- LM's channels 0 and 1 are retraining; core 0 logs its sends to LM 0. -/
def noChan (s : State) : State := (s.wr (Reg.LMC_CH_STATE 0 0) 1).wr (Reg.LMC_CH_STATE 0 1) 1
def logging (s : State) : State := { s with slogRing := Tab.put s.slogRing 0 (BitVec.ofNat 64 (2 ^ 48 + 2 ^ 32)) }

/-- What the hypotheses of a transfer within the module ask beside `Runs`: its checks passed, and a range that does not wait. -/
def local_ (s : State) (a : Word) : Bool :=
  (s.preCheck (Tile.of t1) a 0).isNone && s.isHere a && !s.farWaits 0 (Tile.of t1) a 0 && ((s.core 0).badIn (Tile.of t1).ranges).isNone

theorem met_LocalTransfersMoveTiles :
    RunAll id [(7, getAt hmA), (7, putAt hmA), (7, putAt lmA), (7, getAt spA)] ∧ (noChan (eng 7 (putAt lmA))).Runs 0 0 (ent 7 (putAt lmA))
    ∧ [getAt hmA, putAt hmA].all (fun op => local_ (eng 7 op) hmA) = true ∧ local_ (eng 7 (putAt lmA)) lmA = true
    ∧ local_ (eng 7 (getAt spA)) spA = true ∧ gSpace hmA = 1 ∧ (ent 7 (getAt hmA)).landed = []
    ∧ (∀ x ∈ farRuns (Tile.of t1) 4096 0, ((eng 7 (getAt hmA)).hmRead x.1 x.2.1).2.isBad = false)
    ∧ (((eng 7 (getAt spA)).crossTo 0 spA).readRuns [] 2 0 1 (farRuns (Tile.of t1) (gOff spA) 0)).2.1 = .none
    ∧ ((({ eng 7 (getAt hmA) with hmBad := [512] } : State).crossTo 0 hmA).readRuns [] 1 0 1 (farRuns (Tile.of t1) 4096 0)).2.1.isBad = true
    ∧ ((eng 7 (putAt lmA)).putHere [] 0 (ent 7 (putAt lmA)) (Tile.of t1) lmA 0 0 1 0 0 false).1 = .none
    ∧ (eng 7 (putAt hmA)).mirrorWaits 0 (Tile.of t1) false = false ∧ (noChan (eng 7 (putAt lmA))).farWaits 0 (Tile.of t1) lmA 0 = true
    ∧ (let s := noChan (logging (eng 7 (putAt hmA true))); s.slogOn 0 = true ∧ s.mirrorWaits 0 (Tile.of t1) true = true ∧ (s.preCheck (Tile.of t1) hmA 0).isNone = true ∧ canRun s 0 (ent 7 (putAt hmA true)) = true) := 
  ⟨runAll_of (by decide +kernel),
    runs_of (by decide +kernel),
    by decide +kernel⟩

/-- Module 5 is installed and reachable, and a state in which it is padlocked. -/
def far5 (op : EInst) : State := (eng 7 op).wr (Reg.RT_ENTRY 0 5) 1
def lock5 (op : EInst) : State := (eng 7 op).wr (Reg.RT_ENTRY 0 5) 5
def hm5 : Word := gAddr 5 1 4096
def long : TileWord := tile 0 1 1 32 64

/-- The far end of HM, core 5's SP with its leaf out of service, a tile of reserved format 0xE. -/
def hmEnd : Word := gAddr 0xFFF 1 0x3FFFFFFC
def leafGone (op : EInst) : State := (eng 7 op).wr (Reg.LL_STATE_STATE 0) 3
def tBad : TileWord := tile 0 14 2 4 64

/-- The check's answer for a GET of a tile. -/
def finds (s : State) (t : TileWord) (a : Word) : Option (TileBad ⊕ Nat) := s.preCheck (Tile.of t) a 0

theorem met_FarAndRefusedTransfers_RefusedTransfersMoveNothing :
    RunAll id [(7, getAt hmEnd), (7, putAt hmEnd), (7, sigAt hmEnd 0), (7, .get tBad hmA 0 1 0), (7, .put tBad hmA 0 1 0 false)]
    ∧ (lock5 (getAt hm5)).Runs 0 0 (ent 7 (getAt hm5)) ∧ (Tile.of t1).check = none ∧ (Tile.of tBad).check = some .undefined
    ∧ (ent 7 (sigAt hmEnd 0)).sigDue = none ∧ finds (eng 7 (getAt hmEnd)) t1 hmEnd = some (.inl .range)
    ∧ finds (eng 7 (getAt hmA)) tBad hmA = some (.inl .undefined) ∧ (eng 7 (getAt hmEnd)).addrOk hmEnd (farSpan (Tile.of t1) 0) false = false
    ∧ finds (lock5 (getAt hm5)) t1 hm5 = some (.inr Status.padlocked) ∧ (lock5 (getAt hm5)).addrOk hm5 (farSpan (Tile.of t1) 0) false = true
    ∧ runsOk 1 (farRuns (Tile.of t1) 4096 0) = true ∧ (lock5 (getAt hm5)).isHere hm5 = false ∧ (lock5 (getAt hm5)).padlocked (gMod hm5) = true
    ∧ (let s := leafGone (getAt spA); s.addrOk spA (farSpan (Tile.of t1) 0) false = true ∧ s.isHere spA = true ∧ s.gone 2 (gOff spA) (farSpan (Tile.of t1) 0) = true ∧ runsOk 2 (farRuns (Tile.of t1) (gOff spA) 0) = true)
    ∧ (let op := EInst.putSig t1 hmA 0 hmA 1 0 0 false; canRun (eng 7 op) 0 (ent 7 op) = true ∧ (eng 7 op).sigOk hmA hmA = false)
    ∧ (let s := (eng 7 (putAt hmA)).modCore 0 (fun k => { k with spBad := [0] }); canRun s 0 (ent 7 (putAt hmA)) = true ∧ (s.core 0).badIn (Tile.of t1).ranges = some 0 ∧ finds s t1 hmA = none ∧ s.farWaits 0 (Tile.of t1) hmA 0 = false ∧ s.mirrorWaits 0 (Tile.of t1) false = false) := 
  ⟨runAll_of (by decide +kernel),
    runs_of (by decide +kernel),
    by decide +kernel⟩

/-- The space in the transaction table and the window that packets of so many bytes need. -/
def room (s : State) (n bytes : Nat) : Bool :=
  decide (s.purgeTxns.txns.length + n ≤ 32768) && decide (s.charged 5 + bytes ≤ s.rd Reg.LK_WINDOW_WINDOW_KIB * 1024)

theorem met_FarAndRefusedTransfers_FarTransfersSendRequests :
    (far5 (getAt hm5)).Runs 0 0 (ent 7 (getAt hm5)) ∧ (far5 (.put long hm5 0 1 0 false)).Runs 0 0 (ent 7 (.put long hm5 0 1 0 false))
    ∧ (far5 (putAt hm5)).Runs 0 0 (ent 7 (putAt hm5)) ∧ (far5 (putAt hm5 true)).Runs 0 0 (ent 7 (putAt hm5 true))
    ∧ (far5 (.putMc long hm5 1 1 64 1 0)).Runs 0 0 (ent 7 (.putMc long hm5 1 1 64 1 0))
    ∧ (far5 (.putMc t1 hm5 1 1 64 1 0)).Runs 0 0 (ent 7 (.putMc t1 hm5 1 1 64 1 0)) ∧ (∃ m, maskNames { inRack := 1, racks := 1 } m = true ∧ m < 4096)
    ∧ (far5 (.putMc t1 hm5 0 0 64 1 0)).Runs 0 0 (ent 7 (.putMc t1 hm5 0 0 64 1 0))
    ∧ (∀ m, m < 4096 → maskNames { inRack := 0, racks := 0 } m = false) ∧ finds (far5 (getAt hm5)) t1 hm5 = none
    ∧ (far5 (getAt hm5)).isHere hm5 = false ∧ farPackets (Tile.of t1) 4096 0 = [(4096, 16, [(0, 8), (64, 8)])] ∧ room (far5 (getAt hm5)) 1 16 = true
    ∧ 48 < (Tile.of long).packedLen ∧ finds (far5 (.put long hm5 0 1 0 false)) long hm5 = none ∧ room (far5 (.put long hm5 0 1 0 false)) 1 64 = true
    ∧ ((far5 (.put long hm5 0 1 0 false)).core 0).badIn (Tile.of long).ranges = none ∧ (Tile.of t1).packedLen ≤ 48
    ∧ (far5 (putAt hm5 true)).slogOn 0 = false ∧ gSpace hm5 ≤ 2 ∧ (Tile.of long).check = none
    ∧ (far5 (.putMc long hm5 1 1 64 1 0)).rangeOk 1 4096 (Tile.of long).packedLen = true ∧ 32 < (Tile.of long).packedLen
    ∧ ((64 : Word).toNat % 64 = 0 ∧ (64 : Word).toNat + 512 ≤ spSize) ∧ (Tile.of t1).packedLen ≤ 32 ∧ (ent 7 (.putMc t1 hm5 0 0 64 1 0)).missed = []
    ∧ (ent 7 (.putMc t1 hm5 0 0 64 1 0)).bad = 0 := 
  ⟨runs_of (by decide +kernel),
    runs_of (by decide +kernel),
    runs_of (by decide +kernel),
    runs_of (by decide +kernel),
    runs_of (by decide +kernel),
    runs_of (by decide +kernel),
    ⟨0, by decide +kernel⟩,
    runs_of (by decide +kernel),
    fun m _ => by simp [maskNames],
    by decide +kernel⟩

/-- `hubEng` at a PUT.SIG of that scope, after an earlier PUT that has not completed; and with its signal withheld, the PUT done. -/
def after (ph : Phase) (due : Option Nat) : State :=
  (hubEng (sigAt hmA 3)).modCore 0 (fun k =>
    { k with window := [{ ent 7 (putAt hmA) with phase := ph }, { ent 7 (sigAt hmA 3) with id := 1, sigDue := due, phase := if due.isSome then .waiting else .dispatched }] })

/-- What the store of a PUT.SIG answers. -/
def stored (s : State) (e : Entry) : Bad × State := s.putHere [] 0 e (Tile.of t1) hmA 0 (gAddr 0xFFF spTUM 32) 1 0 1 false

theorem met_LocalTransfersMoveTiles_PutSigStoresThenSignals :
    (hubEng (sigAt hmA 0)).Runs 0 0 (ent 7 (sigAt hmA 0)) ∧ (hubEng (sigAt hmA 0)).sigOk hmA (gAddr 0xFFF spTUM 32) = true
    ∧ tumOfOff (gOff (gAddr 0xFFF spTUM 32)) = some (.inl 4) ∧ local_ (hubEng (sigAt hmA 0)) hmA = true
    ∧ (let p := stored (hubEng (sigAt hmA 0)) (ent 7 (sigAt hmA 0)); p.1 = .none ∧ (p.2.core 0).entry? 0 = some (ent 7 (sigAt hmA 0)) ∧ (p.2.hubAlloc 4).isSome = true ∧ (p.2.hubGet 4).toNat + (ent 7 (sigAt hmA 0)).inc < 2 ^ 32)
    ∧ (hubEng (sigAt hmA 0)).mirrorWaits 0 (Tile.of t1) false = false
    ∧ (let s := after .waiting none; let e := { ent 7 (sigAt hmA 3) with id := 1 }; (s.core 0).released 1 = false ∧ canRun s 1 e = true ∧ (stored s e).1 = .none ∧ ((stored s e).2.core 0).entry? 1 = some e)
    ∧ (let s := after (.done 0) (some 0); ((s.core 0).entry? 1).isSome = true ∧ (s.core 0).released 1 = true ∧ s.failed = false ∧ s.linkOpen 0 = true ∧ (s.hubAlloc 4).isSome = true ∧ (s.hubGet 4).toNat + 1 < 2 ^ 32)
    ∧ ((after .waiting (some 0)).core 0).released 1 = false ∧ gSpace hmA = 1 := 
  ⟨runs_of (by decide +kernel),
    by decide +kernel⟩

/-- Two disjoint FP32 tiles of SP, 1 × 2 and 2 × 1, and a BF16 tile. -/
def ta : TileWord := tile 0 0 1 2 64
def tb : TileWord := tile 4096 0 2 1 64
def tw : TileWord := tile 8192 1 2 2 64
def opAtom (a : Word) (aop : Nat) (w64 : Bool) (rd : Word := 64) : EInst := .atom a 1 2 rd 0 1 w64 false aop

theorem met_CopiesAndAtomics_CopiesMoveRowsAndColumns :
    RunAll id [(7, .copy tb ta), (7, .copyT tb ta), (7, .copy tw ta), (7, .copyT tw ta)] ∧ (Tile.of ta).check = none ∧ (Tile.of tb).check = none
    ∧ (Tile.of tw).check = none ∧ (Tile.of ta).fmt = (Tile.of tb).fmt ∧ Fmt.block (Tile.of ta).fmt = false ∧ (Tile.of tw).fmt ≠ (Tile.of ta).fmt
    ∧ (busy.core 0).badIn ((Tile.of ta).part 1 1 ++ (Tile.of tb).partRead 1 1) = none
    ∧ (busy.core 0).badIn ((Tile.of ta).part 1 2 ++ (Tile.of tb).partRead 2 1) = none
    ∧ sharedRanges ((Tile.of tb).part 2 1) ((Tile.of ta).part 1 2) = [] ∧ sharedRanges ((Tile.of ta).part 1 2) ((Tile.of ta).part 1 2) ≠ [] := 
  ⟨runAll_of (by decide +kernel),
    by decide +kernel⟩

theorem met_CopiesAndAtomics_AtomicsReadAndReplace :
    RunAll id [(7, opAtom hmA 4 true), (7, opAtom lmA 0 true), (7, opAtom hmA 7 true), (7, opAtom hmA 4 true 4), (7, opAtom (gAddr 0xFFF 1 4100) 0 true)]
    ∧ (hubEng (opAtom hub4 3 false)).Runs 0 0 (ent 7 (opAtom hub4 3 false)) ∧ (hubEng (opAtom hub4 3 true)).Runs 0 0 (ent 7 (opAtom hub4 3 true))
    ∧ (lock5 (opAtom hm5 3 true)).Runs 0 0 (ent 7 (opAtom hm5 3 true)) ∧ spWordOk 64 = true ∧ spWordOk 4 = false ∧ gOff hmA % 8 = 0 ∧ gOff lmA % 8 = 0
    ∧ gOff (gAddr 0xFFF 1 4100) % 8 ≠ 0
    ∧ (let s := eng 7 (opAtom hmA 4 true); s.addrOk hmA 8 false = true ∧ s.isHere hmA = true ∧ (s.hmRead 4096 8).2.isBad = false)
    ∧ (let s := eng 7 (opAtom lmA 0 true); s.addrOk lmA 8 false = true ∧ s.isHere lmA = true ∧ s.memWaits 0 4096 8 = false ∧ (s.lmAtomLine [] 16 0 8 (fun bs => leBytes 8 (atomVal 0 64 (leNat bs) 1 2 false))).2.1 = .none)
    ∧ (noChan (eng 7 (opAtom lmA 0 true))).memWaits 0 4096 8 = true ∧ canRun (noChan (eng 7 (opAtom lmA 0 true))) 0 (ent 7 (opAtom lmA 0 true)) = true
    ∧ (let s := hubEng (opAtom hub4 3 false); s.addrOk hub4 4 true = true ∧ s.isHere hub4 = true ∧ (s.hubAlloc 4).isSome = true ∧ gSpace hub4 = spTUM ∧ tumOfOff (gOff hub4) = some (.inl 4))
    ∧ (let s := lock5 (opAtom hm5 3 true); s.addrOk hm5 8 false = true ∧ s.isHere hm5 = false ∧ s.padlocked (gMod hm5) = true ∧ gOff hm5 % 8 = 0) := 
  ⟨runAll_of (by decide +kernel),
    runs_of (by decide +kernel),
    runs_of (by decide +kernel),
    runs_of (by decide +kernel),
    by decide +kernel⟩


/-! ## Hypotheses met: matrix and vector engines -/

/-- FP16 tile of 4 × 4, and its load into slot 1. -/
def th : TileWord := tile 0 2 4 4 64
def opLds (sh : Nat) (tr : Bool := false) : EInst := .mmLds th 0 0 sh 1 tr

/-- The array of ME1 disabled; an uncorrectable word at SP 0. -/
def noMe1 (k : Core) : Core := { k with arrays := 14#4 }
def sp0Bad (k : Core) : Core := { k with spBad := [0] }

theorem met_MatrixInstructionsComplete_StationaryLoadsAndFillsComplete :
    RunAll id [(1, opLds 0), (8, opLds 2 true), (3, opLds 3), (4, .mmLds ta 0 0 0 0 false), (1, .mmFill 7), (8, .mmFill 0)]
    ∧ RunAll sp0Bad [(1, opLds 0)] ∧ RunAll (fun k => { k with arrays := 0 }) [(8, opLds 0), (8, .mmFill 7)] ∧ (Tile.of th).fmt ≠ Fmt.fp32
    ∧ (Tile.of th).check = none ∧ (Tile.of ta).fmt = Fmt.fp32 ∧ ((eng 1 (opLds 0)).core 0).noArray 1 = false
    ∧ ((eng 1 (opLds 0)).core 0).badIn ((Tile.of th).partRanges (off16 0) (shapeNs 0) (off16 0) (shapeKs 0)) = none
    ∧ ((eng 1 (opLds 0) sp0Bad).core 0).badIn ((Tile.of th).partRanges (off16 0) (shapeNs 0) (off16 0) (shapeKs 0)) = some 0
    ∧ ((eng 8 (opLds 2 true)).core 0).badIn ((Tile.of th).partRanges (off16 0) (shapeKs 2) (off16 0) (shapeNs 2)) = none
    ∧ ((eng 8 (opLds 0) (fun k => { k with arrays := 0 })).core 0).noArray 8 = true ∧ ((eng 1 .nop noMe1).core 0).noArray 1 = true
    ∧ ((eng 1 .nop noMe1).core 0).runnable 0 = some (ent 1 .nop) := 
  ⟨runAll_of (by decide +kernel),
    runAll_of (by decide +kernel),
    runAll_of (by decide +kernel),
    by decide +kernel⟩

theorem met_SlotsHoldTheTileAndChunksSumOnce_SlotsHoldTheTile :
    Fmt.valid (Tile.of th).fmt = true ∧ (Tile.of th).fmt ≠ Fmt.fp32 ∧ 3 < shapeKs 0 ∧ 3 < shapeNs 0 ∧ 0 + 3 < (Tile.of th).rows
    ∧ 0 + 3 < (Tile.of th).cols ∧ (Tile.of th).fmt = Fmt.fp16 ∧ (Tile.of th).rows ≤ 0 + 4 ∧ 4 < shapeNs 2 := by
  decide +kernel

/-- Core 0 with arrays ME2 and ME4 only. -/
def twoArrays (k : Core) : Core := { k with arrays := 10#4 }

theorem met_MatrixInstructionsComplete_MatrixStreamsAndDrains :
    RunAll id [(2, .mm th 0 1 false), (8, .mm th 0 1 true), (2, .mmDrain ta 0 0 true false), (8, .mmDrain ta 0 0 false false)]
    ∧ RunAll twoArrays [(8, .mm th 0 1 false)] ∧ ((eng 2 (.mm th 0 1 false)).core 0).noArray 2 = false
    ∧ ((eng 2 (.mm th 0 1 false)).core 0).badIn ((Tile.of th).partRanges 0 4 (off16 0) (shapeKs (((busy.core 0).slotOf 1 1).sh))) = none
    ∧ (let k := (eng 8 (.mm th 0 1 false) twoArrays).core 0; k.arraysOf 8 = [1, 3] ∧ k.noArray 8 = false ∧ (Tile.of th).rows ≤ 2 * (65536 / shapeNs (k.slotOf 1 1).sh) ∧ k.badIn ((Tile.of th).partRanges 0 2 0 (shapeKs (k.slotOf 1 1).sh) ++ (Tile.of th).partRanges 2 2 0 (shapeKs (k.slotOf 3 1).sh)) = none)
    ∧ (Tile.of ta).check = none ∧ (Tile.of ta).fmt = Fmt.fp32
    ∧ ((eng 2 (.mmDrain ta 0 0 true false)).core 0).badIn ((Tile.of ta).partRanges ((busy.core 0).accOf 1).row0 ((busy.core 0).accOf 1).rows 0 ((busy.core 0).accOf 1).cols) = none := 
  ⟨runAll_of (by decide +kernel),
    runAll_of (by decide +kernel),
    by decide +kernel⟩

theorem met_SlotsHoldTheTileAndChunksSumOnce_WholeChunkSumsOnce :
    Slot.reset.shape = 0 ∧ 128 % 128 = 0 ∧ 0 < 1 ∧ 127 < 128 := by
  decide +kernel

theorem met_MatrixInstructionsComplete_MatrixVectorStaysWithinItsBound :
    RunAll id [(5, .mv ta th th false), (5, .mv ta th th true)] ∧ (Tile.of ta).fmt ≤ 2 ∧ Fmt.valid (Tile.of th).fmt = true ∧ 1 ≤ (Tile.of th).fmt
    ∧ (Tile.of th).fmt ≤ 4 ∧ (Tile.of ta).check = none ∧ (Tile.of th).check = none
    ∧ (let t := Tile.of th; (busy.core 0).badIn (t.partRanges 0 2 0 4 ++ t.partRanges 0 1 0 4 ++ (Tile.of ta).partRanges 0 1 0 2) = none) := 
  ⟨runAll_of (by decide +kernel),
    by decide +kernel⟩

theorem met_VectorInstructionsComplete_VectorLoadsAndStoresComplete :
    RunAll id [(6, .vld 1 ta 0 1 true), (6, .vst 1 ta 0 0 true false), (6, .vld 1 ta 1 1 true), (6, .vld 1 (tile 0 5 1 32 64) 0 0 false)]
    ∧ RunAll sp0Bad [(6, .vld 1 ta 0 0 true)] ∧ (Tile.of ta).check = none ∧ Fmt.block (Tile.of ta).fmt = false ∧ (0 : Word).toNat < (Tile.of ta).rows
    ∧ (Tile.of ta).rows ≤ (1 : Word).toNat ∧ ((eng 6 (.vld 1 ta 0 1 true)).core 0).badIn [((Tile.of ta).rowAt 0 + 4, 4)] = none
    ∧ ((eng 6 (.vld 1 ta 0 0 true) sp0Bad).core 0).badIn [((Tile.of ta).rowAt 0, 8)] = some 0 ∧ (Fmt.decElem 1 0xFFC1).isNan = true
    ∧ Fmt.block (Tile.of (tile 0 5 1 32 64)).fmt = true ∧ Fmt.valid (Tile.of (tile 0 5 1 32 64)).fmt = true := 
  ⟨runAll_of (by decide +kernel),
    runAll_of (by decide +kernel),
    by decide +kernel⟩

theorem met_VectorInstructionsComplete_VectorOperationsWriteVd :
    RunAll id ((List.range 6).map (fun f => (6, .velem f 1 2 3 4 none true false)))
    ∧ RunAll id [(6, .velem 5 1 2 3 4 (some 0) false true), (6, .vred 1 2 2 true false), (6, .vred 1 2 3 true false)]
    ∧ RunAll id ([0, 1, 2, 3, 4].map (fun m => (6, .vcvt 1 2 m false)))
    ∧ RunAll id ([15, 16].flatMap (fun t => [(6, .vfn 1 2 t false true false), (6, .vfn 1 2 t true true false)]))
    ∧ (List.replicate 256 (0 : Word32)).length = 256 := 
  ⟨runAll_of (by decide +kernel),
    runAll_of (by decide +kernel),
    runAll_of (by decide +kernel),
    runAll_of (by decide +kernel),
    by decide +kernel⟩

/-- A table image with LO = 0 and HI = 1 at SP 8,192. -/
def imageAt (k : Core) : Core := k.spWrite 8192 (leBytes 4 0 ++ leBytes 4 0x3F800000)

theorem met_VectorInstructionsComplete_TableLoadsFillTheirSlot :
    RunAll id [(6, .vtload 8 ta), (6, .vtload 16 ta), (6, .vtload 7 ta), (6, .vtload 15 (tile 8 0 1 1 64))]
    ∧ RunAll imageAt [(6, .vtload 15 (tile 8192 0 1 1 64))] ∧ (Tile.raw ta).base % 64 = 0 ∧ (Tile.raw ta).base + 8192 ≤ spSize
    ∧ (Tile.raw (tile 8 0 1 1 64)).base % 64 ≠ 0 ∧ tableOk (leBytes 4 0 ++ leBytes 4 0x3F800000 ++ List.replicate 8184 0) = true
    ∧ tableOk (List.replicate 8192 0) = false ∧ ((imageAt (busy.core 0)).sp.readN 8192 8) = leBytes 4 0 ++ leBytes 4 0x3F800000
    ∧ (busy.core 0).badIn [(0, 8192)] = none ∧ (up.core 0).vtabLoaded.getLsbD 8 = false := 
  ⟨runAll_of (by decide +kernel),
    runAll_of (by decide +kernel),
    by decide +kernel⟩

/-- A row operation on FP32 tiles. -/
def opRow (kind : Nat) : EInst := .vrow kind ta ta ta ta 0 0 1

theorem met_VectorInstructionsComplete_RowUnitsWriteEveryRow :
    RunAll id ((List.range 4).map (fun k => (6, opRow k))) ∧ (∀ z ∈ [Tile.of ta, Tile.of ta] ++ rowTiles 1 (Tile.of ta) (Tile.of ta), z.check = none)
    ∧ (Tile.of ta).fmt ≤ 1
    ∧ (busy.core 0).badIn ((Tile.of ta).partRanges 0 1 0 2 ++ (Tile.of ta).partRanges 0 1 0 2 ++ (Tile.of ta).partRanges 0 2 0 2) = none := 
  ⟨runAll_of (by decide +kernel),
    by decide +kernel⟩


/-! ## Hypotheses met: sampling and the KV page manager -/

/-- A module with geometry 0 valid (one head of 16, one layer), pool 0 of 4 pages at 32 MiB of HM, and sequence 3 of 8 positions
whose page is page 0 of the pool. -/
def sq3 : KvSeq := { geom := 0, policy := 0, len := 8, detent := none, epoch := 0, key := 0, counter := 0 }
def pg3 : KvPage := { seq := 3, block := 0, group := 0, pool := 0, index := 0, scales := [], move := none, stuck := false }
def kv (s : State) : State :=
  { s with kvSeqs := [(3, sq3)], kvPages := [pg3] }.wr (Reg.KV_GEOM_VALID 0) 1 |>.wr (Reg.KV_GEOM_HEADS 0) 1 |>.wr (Reg.KV_GEOM_WIDTH 0) 16 |>.wr (Reg.KV_POOL_LO_SPACE 0) 1 |>.wr (Reg.KV_POOL_LO_VALID 0) 1
    |>.wr (Reg.KV_POOL_LO_BASE 0) 0x200 |>.wr (Reg.KV_POOL_HI_PAGES 0) 4
def kvEng (op : EInst) (f : State → State := id) : State := f (kv (eng 7 op))

/-- SP byte values at an address. -/
def sp (a : Nat) (bs : List Byte) (s : State) : State := s.modCore 0 (fun k => k.spWrite a bs)

/-- The same for the sampling unit, with a parameter block at 64 of temperature 1. -/
def hot (s : State) : State := sp 64 (leBytes 4 0x3F800000) s
def smEng (op : EInst) (f : State → State := id) : State := f (kv (eng 6 op))

/-- A KV_UPDATE of sequence 3 that has arrived: its epoch, length and counter. -/
def upd (epoch len counter : Nat) : Packet :=
  up.ctl PT.kvUpdate 0 0 0 0 0 (leBytes 16 0 ++ leBytes 2 3 ++ leBytes 2 epoch ++ leBytes 4 0 ++ leBytes 8 len ++ leBytes 8 counter)
def inHub (p : Packet) (s : State) : State := { s with hubIn := [p] }

def opMerge (q : Word) : EInst := .sampMerge ta q 64 128 4096

theorem met_SamplingWritesListsAndTokens :
    (eng 6 (.sampSlice ta 64 0 4096)).Runs 0 0 (ent 6 (.sampSlice ta 64 0 4096)) ∧ (smEng (opMerge 3)).Runs 0 0 (ent 6 (opMerge 3))
    ∧ (smEng (opMerge 3) hot).Runs 0 0 (ent 6 (opMerge 3)) ∧ (smEng (opMerge 4) hot).Runs 0 0 (ent 6 (opMerge 4))
    ∧ ((eng 6 (.sampSlice ta 64 0 4096)).core 0).sampBlock 64 ≠ none ∧ spFits 4096 2048 = true ∧ (Tile.of ta).fmt ≤ 1 ∧ (Tile.of ta).check = none
    ∧ ((eng 6 (.sampSlice ta 64 0 4096)).core 0).badIn [((Tile.of ta).rowAt 0, (Tile.of ta).rowLen), (64, 64), (0, 0)] = none
    ∧ listsFit (Tile.of ta) (Tile.of ta).rows = true ∧ ((smEng (opMerge 3)).core 0).badIn ((64, 64) :: listRanges (Tile.of ta) 1) = none
    ∧ spFits 128 16 = true ∧ (f32 (sampParams (List.replicate 64 0)).temp).le .zero = true
    ∧ (f32 (sampParams (((smEng (opMerge 3) hot).core 0).sp.readN 64 64)).temp).le .zero = false
    ∧ ((smEng (opMerge 3) hot).core 0).sampBlock 64 ≠ none ∧ (smEng (opMerge 3) hot).drawWaits 3 = false
    ∧ ((smEng (opMerge 3) hot).draw 3).isSome = true ∧ ((smEng (opMerge 4) hot).draw 4).isNone = true ∧ (smEng (opMerge 4) hot).drawWaits 4 = false
    ∧ (let s := inHub (upd 0 2 5) (smEng (opMerge 3) hot); canRun s 0 (ent 6 (opMerge 3)) = true ∧ s.drawWaits 3 = true)
    ∧ (pickRun 0 0 [(7, f32One)]).isSome = true := 
  ⟨runs_of (by decide +kernel),
    runs_of (by decide +kernel),
    runs_of (by decide +kernel),
    runs_of (by decide +kernel),
    by decide +kernel⟩

/-- Two candidate lists, and one. -/
def ls2 : TileWord := tile 16384 0 2 1 2048
def ls1 : TileWord := tile 32768 0 1 1 2048
def opAcc (q : Word) : EInst := .sampAccept ls2 ls1 q 4096 1 8192

theorem met_AcceptanceCountsItsDraws :
    (smEng (opAcc 3)).Runs 0 0 (ent 6 (opAcc 3)) ∧ (smEng (opAcc 4)).Runs 0 0 (ent 6 (opAcc 4)) ∧ (Tile.of ls2).check = none
    ∧ (Tile.of ls1).check = none ∧ listsFit (Tile.of ls2) 2 = true ∧ listsFit (Tile.of ls1) 1 = true
    ∧ ((smEng (opAcc 3)).core 0).badIn ((4096, 4) :: (listRanges (Tile.of ls2) 2 ++ listRanges (Tile.of ls1) 1)) = none ∧ spFits 4096 4 = true
    ∧ spFits 8192 16 = true ∧ (kv up).kvDisabled = false ∧ (kv up).seq? 3 = some sq3 ∧ (smEng (opAcc 3)).drawWaits 3 = false
    ∧ ((smEng (opAcc 3)).acceptLoop 3 [[], []] [[]] [0] 0).isSome = true ∧ (smEng (opAcc 4)).seq? 4 = none
    ∧ (let s := inHub (upd 0 2 5) (smEng (opAcc 3)); canRun s 0 (ent 6 (opAcc 3)) = true ∧ s.drawWaits 3 = true) := 
  ⟨runs_of (by decide +kernel),
    runs_of (by decide +kernel),
    by decide +kernel⟩

/-- Sequence 3 with a detent at position 2; the manager disabled. -/
def marked (s : State) : State := s.setSeq 3 { sq3 with detent := some (2, 5) }
def noKv (s : State) : State := s.wr Reg.KV_CTL_TABLE_BASE_MIB 4095

def opNew : EInst := .kvNew 0 64
def opExt (n : Word) (t : Bool) : EInst := .kvExt 3 n 64 t

theorem met_KvSequencesAndLengths_KvSequencesComeAndGo :
    (kvEng opNew).Serves 0 0 (ent 7 opNew) ∧ (kvEng opNew (sp 0 [0xFF, 0xFF])).Serves 0 0 (ent 7 opNew)
    ∧ (kvEng opNew (sp 0 [3])).Serves 0 0 (ent 7 opNew) ∧ (kvEng (.kvFree 3)).Serves 0 0 (ent 7 (.kvFree 3))
    ∧ (kvEng (.kvDetent 3)).Serves 0 0 (ent 7 (.kvDetent 3)) ∧ (kvEng (.kvFree 4)).Serves 0 0 (ent 7 (.kvFree 4))
    ∧ (kvEng (.kvDetent 4)).Serves 0 0 (ent 7 (.kvDetent 4)) ∧ (kvEng opNew noKv).Serves 0 0 (ent 7 opNew) ∧ (kvEng opNew).kvDisabled = false
    ∧ spFits 0 32 = true ∧ spFits 64 8 = true ∧ ((kvEng opNew).core 0).badIn [(0, 32)] = none ∧ ((kvEng opNew).geom 0).valid = true
    ∧ (kvEng opNew).seq? 0 = none ∧ leNat ((((kvEng opNew).core 0).sp.readN 0 32).take 2) = 0 ∧ (kvEng opNew (sp 0 [0xFF, 0xFF])).freeSeq = some 0
    ∧ leNat ((((kvEng opNew (sp 0 [3])).core 0).sp.readN 0 32).take 2) = 3 ∧ (kvEng (.kvFree 3)).seq? 3 = some sq3 ∧ (kvEng (.kvFree 3)).faultq = []
    ∧ (kvEng (.kvDetent 4)).seq? 4 = none ∧ (kvEng opNew noKv).kvDisabled = true ∧ (kvEng opNew noKv).crosses 0 opNew = true
    ∧ (let s := inHub (upd 0 2 5) (kvEng (.kvFree 3)); canRun s 0 (ent 7 (.kvFree 3)) = true ∧ s.kvWaits 0 (ent 7 (.kvFree 3)) = true ∧ s.crosses 0 (.kvFree 3) = true) := 
  ⟨serves_of (by decide +kernel),
    serves_of (by decide +kernel),
    serves_of (by decide +kernel),
    serves_of (by decide +kernel),
    serves_of (by decide +kernel),
    serves_of (by decide +kernel),
    serves_of (by decide +kernel),
    serves_of (by decide +kernel),
    by decide +kernel⟩

theorem met_KvSequencesAndLengths_KvLengthsMove :
    (kvEng (opExt 16 true)).Serves 0 0 (ent 7 (opExt 16 true)) ∧ (kvEng (opExt 16 false)).Serves 0 0 (ent 7 (opExt 16 false))
    ∧ (kvEng (opExt 64 true)).Serves 0 0 (ent 7 (opExt 64 true)) ∧ (kvEng (opExt 64 false)).Serves 0 0 (ent 7 (opExt 64 false))
    ∧ (kvEng (opExt 1048576 false)).Serves 0 0 (ent 7 (opExt 1048576 false))
    ∧ (kvEng (.kvCommit 3 1 0 0 false) marked).Serves 0 0 (ent 7 (.kvCommit 3 1 0 0 false))
    ∧ (kvEng (.kvRollback 3 0 0 false) marked).Serves 0 0 (ent 7 (.kvRollback 3 0 0 false))
    ∧ (kvEng (.kvCommit 3 1 1 1 true)).Serves 0 0 (ent 7 (.kvCommit 3 1 1 1 true))
    ∧ (kvEng (.kvRollback 3 1 1 true)).Serves 0 0 (ent 7 (.kvRollback 3 1 1 true)) ∧ sq3.len + 64 ≤ sq3.limit
    ∧ (kvEng (opExt 16 true)).kvDisabled = false ∧ (kvEng (opExt 16 true)).seq? 3 = some sq3
    ∧ ((kvEng (opExt 16 true)).allocBlocks 3 ((kvEng (opExt 16 true)).geom 0) 0 (blocksOf 24 - blocksOf 8) (blocksOf 8)).2 = none
    ∧ ((kvEng (opExt 64 true)).allocBlocks 3 ((kvEng (opExt 64 true)).geom 0) 0 (blocksOf 72 - blocksOf 8) (blocksOf 8)).2 = some 4
    ∧ sq3.limit < sq3.len + (1048576 : Word).toNat ∧ (kvEng (.kvRollback 3 0 0 false) marked).seq? 3 = some { sq3 with detent := some (2, 5) }
    ∧ (kvEng (.kvRollback 3 0 0 false) marked).faultq = [] ∧ sq3.detent = none ∧ (ent 7 (.kvRollback 3 1 1 true)).reportBad true = false := 
  ⟨serves_of (by decide +kernel),
    serves_of (by decide +kernel),
    serves_of (by decide +kernel),
    serves_of (by decide +kernel),
    serves_of (by decide +kernel),
    serves_of (by decide +kernel),
    serves_of (by decide +kernel),
    serves_of (by decide +kernel),
    serves_of (by decide +kernel),
    by decide +kernel⟩

def opCommit : EInst := .kvCommit 3 1 1 1 true
def opRoll : EInst := .kvRollback 3 1 1 true

/-- The instruction of an engine queue waits, after a packet of it; its update still at the router. -/
def waitsFor (op : EInst) (f : State → State := id) : State :=
  kvEng op (fun s => f (s.modCore 0 (fun k => { k with window := [{ ent 7 op with phase := .waiting, missed := [(0, 2)] }] })))
def sentBy (p : Packet) (held : Bool) : Txn :=
  { tag := 0, core := 0, id := 0, pkt := p, dest := [], charge := 0, first := 0, last := 0, resent := false, pre := none, held := held,
    paid := false, mcLeft := [], heard := 0, source := [], spent := false }
def afoot (s : State) : State := { s with txns := [sentBy (upd 1 3 0) true] }

theorem met_KvSequencesAndLengths_ResolvedDetentsAreMulticast :
    (kvEng opCommit marked).Serves 0 0 (ent 7 opCommit) ∧ (kvEng opRoll marked).Serves 0 0 (ent 7 opRoll) ∧ (ent 7 opRoll).reportBad true = false
    ∧ (kvEng opRoll marked).kvDisabled = false ∧ (kvEng opRoll marked).seq? 3 = some { sq3 with detent := some (2, 5) }
    ∧ (kvEng opRoll marked).faultq = [] ∧ (1 : Word) ≠ 0 ∧ (kvEng opRoll marked).c0Held = [] ∧ 1 ≤ (kvEng opRoll marked).rd Reg.SCHED_C0_STAT_TOKENS
    ∧ (kvEng opRoll marked).purgeTxns.txns = []
    ∧ (let s := waitsFor opCommit; ((s.core 0).entry? 0).isSome = true ∧ s.failed = false ∧ s.kvAfoot 0 0 = false)
    ∧ (let s := waitsFor opCommit afoot; ((s.core 0).entry? 0).isSome = true ∧ s.kvAfoot 0 0 = true) := 
  ⟨serves_of (by decide +kernel),
    serves_of (by decide +kernel),
    by decide +kernel⟩

/-- A row of the geometry: 32 FP32 elements, two such rows, and an E4M3 tile with its scales. -/
def row32 : TileWord := tile 0 0 1 32 128
def rows2 : TileWord := tile 0 0 2 32 128
def rowE : TileWord := tile 0 3 1 32 64
def opKvPut (t : TileWord) (n : Word) : EInst := .kvPut t 3 0 n
def opKvGet (t : TileWord) (n : Word) (r : Word) : EInst := .kvGet t 3 0 n r

theorem met_KvRowsAndHousekeeping_KvRowsGoToTheirPage :
    (kvEng (opKvPut row32 7)).Serves 0 0 (ent 7 (opKvPut row32 7)) ∧ (kvEng (opKvPut rows2 6)).Serves 0 0 (ent 7 (opKvPut rows2 6))
    ∧ (kvEng (opKvGet row32 7 1)).Serves 0 0 (ent 7 (opKvGet row32 7 1)) ∧ (kvEng (opKvGet rowE 7 1)).Serves 0 0 (ent 7 (opKvGet rowE 7 1))
    ∧ (kvEng (opKvGet rows2 6 2)).Serves 0 0 (ent 7 (opKvGet rows2 6 2)) ∧ (Tile.of row32).check = none ∧ (Tile.of rows2).check = none
    ∧ (Tile.of rowE).check = none
    ∧ (let s := kvEng (opKvPut row32 7); let g := s.geom 0; s.kvDisabled = false ∧ s.seq? 3 = some sq3 ∧ (Tile.of row32).cols = g.rowLen ∧ 0 < g.layers ∧ 7 < sq3.len ∧ g.holds (7 / 16) = true ∧ s.pageOf 3 g 0 7 = some pg3 ∧ (s.pool 0).space = 1 ∧ (Tile.of row32).rows = 1 ∧ (s.core 0).badIn (Tile.of row32).ranges = none ∧ (s.core 0).badIn (Tile.of rows2).ranges = none ∧ pg3.move = none ∧ s.kvRegion.1 + s.kvRegion.2 ≤ (s.pageAt 0 0).2 + g.rowAt 0 7 ∧ s.kvRun sq3 0 6 2 = some [6, 7] ∧ (∀ i ∈ [6, 7], s.pageOf 3 g 0 i = some pg3 ∧ s.kvRegion.1 + s.kvRegion.2 ≤ (s.pageAt 0 0).2 + g.rowAt 0 i) ∧ (∀ i ∈ [6, 7], (s.hmRead ((s.pageAt 0 0).2 + g.rowAt 0 i) 32).2.isBad = false))
    ∧ (Tile.of rowE).fmt = Fmt.e4m3 ∧ (Tile.of rowE).scale + 4 ≤ spSize := 
  ⟨serves_of (by decide +kernel),
    serves_of (by decide +kernel),
    serves_of (by decide +kernel),
    serves_of (by decide +kernel),
    serves_of (by decide +kernel),
    by decide +kernel⟩

/-- Page 0 of pool 0 moves to page 2. -/
def moving : State := { kv up with kvPages := [{ pg3 with move := some (0, 2) }] }

theorem met_KvRowsAndHousekeeping_KvHousekeepingActs :
    (moving.kvPages.filter (fun p => p.move.isSome))[0]? = some { pg3 with move := some (0, 2) } ∧ (moving.pool 0).space = 1 ∧ moving.hmBad = []
    ∧ moving.kvRegion.1 + moving.kvRegion.2 ≤ (moving.pageAt 0 2).2 ∧ moving.faultq = [] ∧ (kv up).faultq = [] ∧ (kv up).failed = false
    ∧ (kv up).rd Reg.GLB_BOOT_STAGE = 4 ∧ (kv up).seq? 3 = some sq3 ∧ sq3.epoch.toNat = 0
    ∧ (marked (kv up)).seq? 3 = some { sq3 with detent := some (2, 5) }
    ∧ [upd 0 8 0, upd 0 7 0, upd 1 8 0].all (fun p => leNat ((p.payload.drop 16).take 2) == 3) = true
    ∧ leNat (((upd 1 8 0).payload.drop 18).take 2) = 1 ∧ leNat (((upd 1 8 0).payload.drop 24).take 8) = 8 := by
  decide +kernel


/-! ## Hypotheses met: collectives -/

/-- Group 5: core 0 of modules 0 and 1, chunks of 4 KiB, root module 1; its descriptor at 4,096 of HM. -/
def gdesc : List Byte :=
  leBytes 2 5 ++ leBytes 1 1 ++ leBytes 1 4 ++ leBytes 4 1 ++ leBytes 8 1 ++ leBytes 8 3 ++ leBytes 8 1 ++ leBytes 2 1 ++ leBytes 30 0
def grouped (s : State) : State := ({ s with hm := s.hm.writeN 4096 gdesc }.wr (Reg.RT_ENTRY 0 0) 3).wr (Reg.RT_ENTRY 0 1) 1
def te : TileWord := tile 0 0 1 4 64
def opOpen : EInst := .collOpen te hmA 1 2
def gOpen : State := grouped (eng 7 opOpen)
def coll0 : Coll := gOpen.newColl 0 gdesc 4096 1 4
def open0 : CollOpen := { core := 0, id := 7, handle := 2, td := te, got := [], fin := false }
def coll1 : Coll := { coll0 with opens := [open0] }
def opPub : EInst := .collPub te 0 2
def gPub : State := { grouped (eng 7 opPub (fun k => { k with handles := k.handles.setIfInBounds 2 (some (5, 1)) })) with colls := [coll1] }

/-- COLL.OPEN with the triple kept, with module 1 declared dead, and with 64 other groups active; the last one's admission. -/
def keptTriple (s : State) : State := { s with triples := [{ coll := coll1, status := Status.collAborted, passed := true }] }
def lost1 (s : State) : State := s.wr (Reg.FD_DEAD_DEAD 0) 2
def groups64 (s : State) : State := { s with colls := (List.range 64).map (fun g => { coll1 with gid := g + 6 }) }
def admitting : State := { gOpen.modCore 0 (fun k => { k with window := [{ ent 7 opOpen with phase := .waiting }] }) with collWait := [(0, 0)] }

theorem met_CollectivesOpenAndPublish_CollectivesOpen :
    gOpen.Runs 0 0 (ent 7 opOpen) ∧ (keptTriple gOpen).Runs 0 0 (ent 7 opOpen) ∧ (lost1 gOpen).Runs 0 0 (ent 7 opOpen)
    ∧ (groups64 gOpen).Runs 0 0 (ent 7 opOpen) ∧ (gOpen.core 0).handleReady 0 2 = true ∧ openUndef (Tile.of te) 1 = false ∧ (Tile.of te).check = none
    ∧ (gOpen.core 0).handles.getD 2 none = none ∧ gOpen.descOk hmA = true ∧ (gOpen.hmRead (gOff hmA) 64).2.isBad = false
    ∧ gOpen.groupOk 0 coll0 = true ∧ (keptTriple gOpen).groupOk 0 coll0 = true ∧ (lost1 gOpen).groupOk 0 coll0 = true
    ∧ (groups64 gOpen).groupOk 0 coll0 = true ∧ gOpen.hm.readN (gOff hmA) 64 = gdesc ∧ gOpen.activeGroups.length < 64 ∧ gOpen.coll? 5 1 = none
    ∧ gOpen.triples = [] ∧ gOpen.store = [] ∧ { coll0 with opens := [{ open0 with id := 0 }] }.met gOpen.modNum { open0 with id := 0 } = false
    ∧ coll0.lost gOpen = false ∧ coll0.lost (lost1 gOpen) = true
    ∧ ((keptTriple gOpen).triples.find? (fun t => t.coll.gid == 5 && t.coll.seq == 1)).isSome = true ∧ 64 ≤ (groups64 gOpen).activeGroups.length
    ∧ (groups64 gOpen).activeGroups.contains 5 = false ∧ (gPub.core 0).handles.getD 2 none = some (5, 1) ∧ gOpen.descOk (gAddr 0xFFF 1 4100) = false
    ∧ ((admitting.core 0).entry? 0).isSome = true ∧ (0, 0) ∈ admitting.collWait ∧ admitting.activeGroups.length < 64 := 
  ⟨runs_of (by decide +kernel),
    runs_of (by decide +kernel),
    runs_of (by decide +kernel),
    runs_of (by decide +kernel),
    by decide +kernel⟩

/-- The publication after the collective ended. -/
def endedPub : State := gPub.modCore 0 (fun k => { k with window := [{ ent 7 opPub with bad := Status.collAborted }] })
/-- This publication alone. -/
def pub1 (first num : Nat) : Coll := { coll1 with pubs := [{ core := 0, handle := 2, ts := te, first := first, num := num }] }

theorem met_CollectivesOpenAndPublish_PublicationsContribute :
    gPub.Runs 0 0 (ent 7 opPub) ∧ endedPub.Runs 0 0 { ent 7 opPub with bad := Status.collAborted } ∧ (gPub.core 0).handleReady 0 2 = true
    ∧ (gPub.core 0).handles.getD 2 none = some (5, 1) ∧ (endedPub.core 0).handles.getD 2 none = some (5, 1) ∧ gPub.coll? 5 1 = some coll1
    ∧ (Tile.of te).fmt = coll1.typ ∧ (Tile.of te).check = none ∧ coll1.count < 1 + 4 ∧ 0 + 4 ≤ coll1.count ∧ coll1.pubs = [] ∧ coll1.kind = 0
    ∧ coll1.opens ≠ [] ∧ (∀ o ∈ coll1.opens, o.fin = false ∧ coll1.met gPub.modNum o = false) ∧ coll1.chunks.length = 1 ∧ coll1.sent = []
    ∧ (pub1 0 4).published 0 = true ∧ (pub1 0 3).published 0 = false ∧ coll1.rootOf 0 ≠ gPub.modNum ∧ coll1.children (coll1.rootOf 0) gPub.modNum = []
    ∧ treeParent (dMask coll1.desc) (coll1.rootOf 0) gPub.modNum = some 1 ∧ (gPub.contribution (pub1 0 4) 0).2 = false := 
  ⟨runs_of (by decide +kernel),
    runs_of (by decide +kernel),
    by decide +kernel⟩

/-- A packet of a type from module 1 with this payload. -/
def pkt (typ : Fin 32) (space : Nat) (off : Nat) (payload : List Byte) : Packet :=
  { typ := typ, cls := 1, dl := false, dt := false, hops := 1, dst := 0, src := 1, job := 7, len := 1, tag := 9, space := space, offset := BitVec.ofNat 40 off,
    count := 0, xt := false, payload := payload, pcrc := BitVec.ofNat 32 (crc32c payload), sigref := 0, sig := false, opid := 1, inc := 0, sigtum := 0, sigbytes := 0,
    mask := { inRack := 0, racks := 0 }, digest := 0, ccrc := 0 }

/-- A collective of 2,048 elements, so of two packets a chunk, and a slot of it that waits for one. -/
def coll2 : Coll := { coll1 with count := 2048, desc := gdesc.take 3 ++ leBytes 1 8 ++ gdesc.drop 4 }
def cdata : Packet := { pkt 0x0E 0 (5 + 2 ^ 36) [1, 2, 3, 4] with tag := 0, digest := coll2.digest }
def slot2 : CSlot := { gid := 5, seq := 1, chunk := 0, inputs := [], out := none, final := none, consumed := [], held := [] }
def ctlPkt (kind : Nat) : Packet := pkt 0x0F 0 0 (leBytes 2 kind ++ leBytes 2 5 ++ leBytes 4 1 ++ leBytes 40 0)

/-- Module 1 as a child of this module: the tree of root 0. -/
def root0 : Coll := { coll2 with desc := coll2.desc.take 32 ++ leBytes 2 0 ++ coll2.desc.drop 34 }
def withColl (x : Coll) (l : List CSlot) : State := { up with colls := [x], store := l }

theorem met_CollectivePacketsAct_CollectiveInputsAreHeld :
    up.failed = false ∧ BitVec.ofNat 32 (crc32c cdata.payload) = cdata.pcrc
    ∧ (withColl coll2 [slot2]).collBy (cdGid cdata) (cdSeq4 cdata) = some coll2 ∧ cdata.digest = coll2.digest ∧ cdChunk cdata < coll2.chunks.length
    ∧ cdGen cdata = Tab.get coll2.gens 0 (cdChunk cdata) ∧ cdDown cdata = false ∧ (withColl coll2 [slot2]).slot? 5 1 0 = some slot2 ∧ slot2.out = none
    ∧ slot2.inputs = [] ∧ (root0.children (root0.rootOf 0) up.modNum).contains 1 = true ∧ root0.inputWhole 0 [(1, 0, cdata.payload)] 1 = false
    ∧ (coll2.children (coll2.rootOf 0) up.modNum).contains 1 = false ∧ up.collBy (cdGid cdata) (cdSeq4 cdata) = none ∧ up.triples = []
    ∧ up.slot? 5 1 0 = none ∧ up.slotFree 5 = true ∧ up.colls = []
    ∧ ({ up with store := (List.range 128).map (fun g => { slot2 with gid := g + 6 }) } : State).slotFree 5 = false
    ∧ BitVec.ofNat 32 (crc32c []) ≠ { cdata with payload := [], pcrc := 1 }.pcrc := by
  decide +kernel

theorem met_CollectivePacketsAct_CollectiveControlPacketsAct :
    (withColl coll1 [slot2]).coll? (ccGid (ctlPkt 0)) (ccSeq (ctlPkt 0)) = some coll1 ∧ ccChunk (ctlPkt 0) = 0
    ∧ ({ slot2 with out := some [] } : CSlot).out = some [] ∧ coll1.isOpen = true ∧ ({ slot2 with final := some 3 } : CSlot).final = some 3
    ∧ (∀ m ∈ up.consumers { coll1 with kind := 4 } 0, m = (ctlPkt 0).src) ∧ coll1.children coll1.root up.modNum = [] ∧ 0 ∉ coll1.dones
    ∧ coll1.opens ≠ [] ∧ (∀ o ∈ coll1.opens, o.fin = false ∧ { coll1 with dones := [0] }.met up.modNum o = false ∧ coll1.met up.modNum o = false)
    ∧ (ccFlags (ctlPkt 0)).testBit 0 = false ∧ ccGen (ctlPkt 0) = Tab.get coll1.gens 0 0 ∧ 0 < coll1.chunks.length
    ∧ (let x := { pub1 0 4 with sent := [0] }; 0 ∈ x.sent ∧ x.reduces = true ∧ (up.contribution x 0).2 = false ∧ (withColl x []).slot? 5 1 0 = none) := by
  decide +kernel

/-- A final result, released at 3. -/
def finalAt (clock : Nat) : State := { withColl coll1 [{ slot2 with final := some 3 }] with clock := clock }

theorem met_AbortedCollectivesEnd :
    (finalAt 0).coll? 5 1 = some coll1 ∧ ccGid (ctlPkt 0x0100) = 5 ∧ ccSeq (ctlPkt 0x0100) = 1 ∧ ccStatus (ctlPkt 0x0100) = 1
    ∧ (finalAt 0).slot? 5 (1 % 16) 0 = some { slot2 with final := some 3 } ∧ (finalAt 0).clock < 3 + State.msTicks 100
    ∧ 3 + State.msTicks 100 ≤ (finalAt 125000003).clock ∧ (finalAt 125000003).failed = false := by
  decide +kernel


/-! ## Hypotheses met: command queues and tasks -/

/-- Queue 0 enabled with 64 entries and one command to read; an accepted command; a waiting entry. -/
def ring : State := (up.wr (Reg.SCHED_Q_RING_ENABLE 0) 1).wr (Reg.SCHED_Q_STATE_TAIL 0) 1
def cmd (op : Nat) : HostCmd := { seq := 4, bytes := leBytes 1 op ++ leBytes 63 0 }
def got (op : Nat) : State := ring.modQueue 0 (fun x => { x with accepted := some (cmd op), nextSeq := 5, open_ := [4] })
def ent0 : Cpl := { tag := 1, status := 0, flags := 2, task := 1, core := 0xFF, nonFatal := 0, ip := 0 }

/-- Reads, writes and the completion ring. -/
def waitingEntry (s : State) : State := s.modQueue 0 (fun x => { x with waiting := [ent0] })

theorem met_DoorbellsReadsAndEntries_DoorbellsAndCommandReads :
    ring.booted = true ∧ ring.failed = false ∧ (63 % 65536 + 65536 - ring.rd (Reg.SCHED_Q_STATE_HEAD 0)) % 65536 ≤ ring.qSize 0 - 1
    ∧ ring.qSize 0 - 1 < (64 % 65536 + 65536 - ring.rd (Reg.SCHED_Q_STATE_HEAD 0)) % 65536
    ∧ (0 % 65536 + 65536 - (ring.queue 0).cplHead) % 65536 ≤ ring.cplUsed 0 ∧ ring.cplUsed 0 < (1 % 65536 + 65536 - (ring.queue 0).cplHead) % 65536
    ∧ ring.qTurn = some (0 : Fin 64).val ∧ up.qTurn ≠ some (0 : Fin 64).val ∧ (∀ i, i < 64 → (ring.queue i).accepted = none)
    ∧ leNat ((([3#8] ++ List.replicate 64 0).take 64).take 1) ≤ 3 := by
  decide +kernel

theorem met_DoorbellsReadsAndEntries_CompletionEntriesAreWritten :
    ring.qEnabled 0 = true ∧ ((waitingEntry ring).queue 0).waiting = ent0 :: [] ∧ (waitingEntry ring).cplFull 0 = false ∧ ent0.isFinal = false
    ∧ (waitingEntry ring).rd (Reg.SCHED_Q_STATE_PHASE 0) ≤ 1 ∧ (waitingEntry ring).qEnabled 0 = true
    ∧ (waitingEntry (ring.wr (Reg.SCHED_Q_STATE_CPL_TAIL 0) 63)).cplFull 0 = true := by
  decide +kernel

theorem met_HostCommandsAndSubmits_HostCommandsComplete :
    (∃ n ∈ (((got 3).modQueue 0 (fun x => { x with open_ := [2, 4] })).queue 0).open_, n < (cmd 3).seq) ∧ (got 0).failed = false
    ∧ ((got 0).queue 0).accepted = some (cmd 0) ∧ ((got 0).queue 0).barrier = none ∧ (got 0).qEnabled 0 = true ∧ leNat ((cmd 0).bytes.take 1) = 0
    ∧ leNat ((cmd 3).bytes.take 1) = 3 ∧ (∀ n ∈ ((got 3).queue 0).open_, (cmd 3).seq ≤ n) ∧ leNat ((cmd 2).bytes.take 1) = 2
    ∧ (got 2).tasks.filter (fun t => t.num == (cmd 2).field 4 2) = []
    ∧ ({ got 2 with tasks := [{ tsk with num := 0 }] } : State).tasks.filter (fun t => t.num == (cmd 2).field 4 2) ≠ [] := 
  ⟨⟨2, by decide +kernel⟩,
    by decide +kernel⟩

/-- An image in HM at 4,096 whose header names 8 bytes of text at 64, and the command that submits it with its argument. -/
def imgBytes : List Byte :=
  leBytes 4 0x32494454 ++ leBytes 4 8 ++ leBytes 4 0 ++ leBytes 12 0 ++ leBytes 8 64 ++ leBytes 32 0 ++ leBytes 8 0
def submit (image : Word) : HostCmd :=
  { seq := 4, bytes := leBytes 1 1 ++ leBytes 7 0 ++ leBytes 8 image.toNat ++ leBytes 8 (gAddr 0xFFF 1 8192).toNat ++ leBytes 40 0 }
def submitted (image : Word) (f : State → State := id) : State :=
  f ({ ring with hm := ring.hm.writeN 4096 imgBytes }.modQueue 0 (fun x => { x with accepted := some (submit image), nextSeq := 5, open_ := [4] }))

/-- What the first clause asks of the command after its number is taken. -/
def goodImage (s : State) (c : HostCmd) : Bool :=
  let t := s.submitted 0 (s.freeTask 65535 s.nextTask) c
  let s0 := { s.modQueue 0 (fun x => { x with accepted := none }) with nextTask := s.freeTask 65535 s.nextTask % 65535 + 1, nextSeq := s.nextSeq + 1 }
  match s0.readImage [] (BitVec.ofNat 64 (c.field 8 8)) with
  | .good _ u => u.isHere t.arg && gSpace t.arg == spHM && u.hmRange (gOff t.arg) 1 && s0.isHere t.arg && s0.hmRange (gOff t.arg) 1 && !t.fourMe
  | _ => false

theorem met_HostCommandsAndSubmits_SubmitAcceptsOrRefuses :
    (submitted hmA).failed = false ∧ ((submitted hmA).queue 0).accepted = some (submit hmA) ∧ leNat ((submit hmA).bytes.take 1) = 1
    ∧ (submitted hmA).imageWaits [] hmA = false ∧ BitVec.ofNat 64 ((submit hmA).field 8 8) = hmA ∧ goodImage (submitted hmA) (submit hmA) = true
    ∧ ((submitted lmA noChan).queue 0).accepted = some (submit lmA) ∧ (submitted lmA noChan).imageWaits [] lmA = true
    ∧ ((submitted hm5).queue 0).accepted = some (submit hm5) ∧ (submitted hm5).isHere hm5 = false ∧ (submitted hm5).qEnabled 0 = true
    ∧ ((submitted hm5).queue 0).barrier = none := by
  decide +kernel

def ready : Task := { tsk with state := .pending, cores := [] }
def loading : Task := { tsk with state := .loading }
def placed (t : Task) : State := { up with tasks := [t] }

theorem met_TasksAreLoadedAndStarted :
    (placed ready).failed = false ∧ (placed ready).task? 1 = some ready ∧ ready.state = .pending ∧ (placed ready).isNext ready = true
    ∧ (placed ready).loadWaits ready.image = false ∧ (placed ready).considered ready = true ∧ (placed ready).resFits ready = true
    ∧ chooseCores ((placed ready).offer ready) ((placed ready).coresWanted ready) = some [0] ∧ [0].all (placed ready).coreOn = true
    ∧ (∀ c ∈ [0], c < 48) ∧ [(5 : CoreId)].length = (placed ready).coresWanted ready ∧ [5].all ((placed ready).offer ready).contains = true
    ∧ gSpace img.at_ = 1 ∧ ((placed ready).hmRead (gOff img.at_ + img.textAt) img.text).2.isBad = false ∧ img.loads = []
    ∧ (placed loading).task? 1 = some loading ∧ loading.state = .loading ∧ loading.loadBad = false ∧ loading.killed = false ∧ loading.jobFatal = none
    ∧ (∀ c ∈ loading.cores, ((placed loading).core c).owed &&& ((placed loading).core c).arrays = 0#4 ∧ ((placed loading).core c).window = [])
    ∧ loading.fourMe = false ∧ loading.cores.Nodup := by
  decide +kernel

/-- A pending task of class 0 that wants every core while task 1 of class 1 runs on core 0, with 64 MiB of save area. -/
def wants : Task := { ready with num := 2, cls := 0, coresN := 48, seq := 1 }
def crowd : State := { busy with tasks := [tsk, wants] }.wr Reg.SCHED_SAVE_SIZE_MIB 64

theorem saveBytes_le : tsk.saveBytes < 0x200000 := by
  have : liveBytes tsk.image.live = 0 := by decide +kernel
  have hl : tsk.saveBytes = Config.saveExtra.val := by unfold Task.saveBytes; rw [this]; show 1 * (0 + _) = _; omega
  rw [hl]; exact Config.saveExtra.isLt

theorem crowd_place : crowd.savePlaces [tsk] [] = some [(1, 0)] := by
  have hb := saveBytes_le
  have ha : crowd.saveArea = (0, 0x4000000) := by decide +kernel
  have hp : crowd.savePlace [] tsk.saveBytes = some 0 := by
    unfold State.savePlace
    rw [ha]
    simp only [List.map_nil, List.mergeSort_singleton]
    rw [List.find?_cons_of_pos]
    simp only [List.all_nil, Bool.and_true, decide_eq_true_eq]
    omega
  show (do let a ← crowd.savePlace [] tsk.saveBytes; some [(tsk.num, a)]) = _
  rw [hp]; rfl

theorem crowd_victims : crowd.pickVictims wants [] = some [1] := by
  have hv : crowd.victims wants.cls = [tsk] := by decide +kernel
  have h0 : decide (crowd.coresWanted wants ≤ (crowd.offerWithout wants []).length) = false := by decide +kernel
  have h1 : decide (crowd.coresWanted wants ≤ (crowd.offerWithout wants [tsk.num]).length) = true := by decide +kernel
  have hc : tsk.cores.any (crowd.eligible wants).contains = true := by decide +kernel
  have hs : crowd.saves = [] := by
    have : crowd.tasks.filter (fun t => (t.state == .draining || t.state == .saving || t.state == .preempted || t.state == .restoring)
      && !t.killed && t.jobFatal.isNone && t.fatal.isNone) = [] := by decide +kernel
    unfold State.saves; rw [this]; rfl
  unfold State.pickVictims
  simp only [hv, h0, hc, hs, crowd_place, h1, List.foldl_cons, List.foldl_nil, Bool.not_true, Bool.or_false, List.nil_append, List.map_nil, List.map_cons,
    Option.isNone_some, if_true, Bool.false_eq_true, if_false]
  rfl

theorem crowd_places : crowd.savePlaces ((crowd.victims wants.cls).filter (fun v => [1].contains v.num)) crowd.saves = some [(1, 0)] := by
  have hv : (crowd.victims wants.cls).filter (fun v => [1].contains v.num) = [tsk] := by decide +kernel
  have hs : crowd.saves = [] := by
    have : crowd.tasks.filter (fun t => (t.state == .draining || t.state == .saving || t.state == .preempted || t.state == .restoring)
      && !t.killed && t.jobFatal.isNone && t.fatal.isNone) = [] := by decide +kernel
    unfold State.saves; rw [this]; rfl
  rw [hv, hs]; exact crowd_place

def drained : Task := { tsk with state := .draining }
def saving : Task := { tsk with state := .saving, saved := [(0, Core.reset)] }
def away : Task := { saving with state := .preempted }
def back : Task := { saving with state := .restoring }

/-- All of HM direct, so that LM has no cache. -/
def flat (t : Task) : State := { up.wr Reg.HM_SPLIT_DIRECT 4 with tasks := [t] }

/-- No register of a channel of LM holds other than its reset value. -/
def plainChans (s : State) : Bool := s.regs.all (fun p => decide (p.1 / 64 < 0xA00100 ∨ 128 ≤ (p.1 / 64 - 0xA00100) % 0x80000))

theorem chan_rd {s : State} (h : plainChans s = true) (ch : Nat) : s.rd (Reg.LMC_CH_STATE (ch / 16) (ch % 16)) = 0 := by
  unfold plainChans at h
  have : ∀ l : Tab Nat, l.all (fun p => decide (p.1 / 64 < 0xA00100 ∨ 128 ≤ (p.1 / 64 - 0xA00100) % 0x80000)) = true →
      Tab.get l 0 (Reg.LMC_CH_STATE (ch / 16) (ch % 16)).key = 0 := by
    intro l
    induction l with
    | nil => intro _; rfl
    | cons p r ih =>
      intro hl
      simp only [List.all_cons, Bool.and_eq_true, decide_eq_true_eq] at hl
      have hne : ((Reg.LMC_CH_STATE (ch / 16) (ch % 16)).key == p.1) = false := by
        rw [beq_eq_false_iff_ne]
        intro he
        have : (Reg.LMC_CH_STATE (ch / 16) (ch % 16)).key = (0xA00100 + ch / 16 * 0x80000 + ch % 16 * 8) * 64 := rfl
        omega
      have := ih hl.2
      unfold Tab.get at this ⊢
      rw [List.lookup_cons, hne]
      exact this
  exact this s.regs h

theorem chan_failed {s : State} (h : plainChans s = true) (a : Nat) : s.chanFailed a = false := by
  unfold State.chanFailed; simp only [chan_rd h]; rfl

theorem lm_waits {s : State} (h : plainChans s = true) (a n : Nat) : s.lmWaits a n = false := by
  unfold State.lmWaits State.chanOut; simp [chan_rd h]

/-- LM without a cache, poison or a failed channel. -/
def plainLm (s : State) : Bool := plainChans s && decide (s.cacheSets = 0) && s.lmPoison.isEmpty

theorem lm_read {s : State} (h : plainLm s = true) (a n : Nat) : (s.lmRead [] 0 1 a n).2.1.at? = none := by
  simp only [plainLm, Bool.and_eq_true, decide_eq_true_eq, List.isEmpty_iff] at h
  have line : ∀ l, s.lmReadLine [] 0 1 l = (s.lm.readN (l * 256) 256, .none, s) := by
    intro l
    have hp : s.poisonLm l false = s := by
      show ({ s with lmPoison := s.lmPoison.filter (fun x => x != l) } : State) = s
      rw [h.2]; show ({ s with lmPoison := [] } : State) = s; rw [← h.2]
    simp [State.lmReadLine, chan_failed h.1.1, h.1.2, State.fetchLine, State.lmUpsets, h.2, hp]
  have all : ∀ (ps : List (Nat × Nat × Nat)) (d : List Byte), (ps.foldl (fun (r : List Byte × Bad × State) p =>
      let (d, b, s) := r.2.2.lmReadLine [] 0 1 p.1
      (r.1 ++ (d.drop p.2.1).take p.2.2, r.2.1.or b, s)) (d, .none, s)).2.1 = .none := by
    intro ps
    induction ps with
    | nil => intro d; rfl
    | cons p r ih => intro d; rw [List.foldl_cons]; simp only [line]; exact ih _
  show (State.lmRead s [] 0 1 a n).2.1.at? = none
  unfold State.lmRead; rw [all]; rfl

theorem lm_write {s : State} (h : plainLm s = true) (a : Nat) (bs : List Byte) : (s.lmWrite [] 0 1 a bs).1.at? = none := by
  have line : ∀ (t : State) l pos xs, plainLm t = true → (t.lmWriteLine [] 0 1 l pos xs).1 = .none ∧ plainLm (t.lmWriteLine [] 0 1 l pos xs).2 = true := by
    intro t l pos xs ht
    have ht' := ht
    simp only [plainLm, Bool.and_eq_true, decide_eq_true_eq, List.isEmpty_iff] at ht
    have hp : t.poisonLm l false = t := by
      show ({ t with lmPoison := t.lmPoison.filter (fun x => x != l) } : State) = t
      rw [ht.2]; show ({ t with lmPoison := [] } : State) = t; rw [← ht.2]
    have keep : ∀ x : CLine, x.poison = false → plainLm (t.writeBack x) = true := by
      intro x hx
      unfold State.writeBack
      split
      · simp only [hx, plainLm, Bool.and_eq_true, decide_eq_true_eq, List.isEmpty_iff]
        refine ⟨⟨ht.1.1, ht.1.2⟩, ?_⟩
        simp [ht.2]
      · exact ht'
    by_cases hw : (xs.length == 256) = true
    · simp [State.lmWriteLine, chan_failed ht.1.1, ht.1.2, hw, keep]
    · simp [State.lmWriteLine, chan_failed ht.1.1, ht.1.2, hw, State.fetchLine, State.lmUpsets, ht.2, hp, keep]
  have all : ∀ (ps : List (Nat × Nat × Nat)) (t : State) (xs : List Byte), plainLm t = true → (ps.foldl (fun (r : Bad × State × List Byte) p =>
      let (b, s) := r.2.1.lmWriteLine [] 0 1 p.1 p.2.1 (r.2.2.take p.2.2)
      (r.1.or b, s, r.2.2.drop p.2.2)) (.none, t, xs)).1 = .none := by
    intro ps
    induction ps with
    | nil => intro t xs _; rfl
    | cons p r ih =>
      intro t xs ht
      rw [List.foldl_cons]
      have l := line t p.1 p.2.1 (xs.take p.2.2) ht
      simp only [l.1]
      exact ih _ _ l.2
  unfold State.lmWrite; simp only [all _ s bs h]; rfl

theorem met_TasksArePreemptedAndRestored_TasksArePreempted :
    crowd.pickVictims wants [] = some [1]
    ∧ crowd.savePlaces ((crowd.victims wants.cls).filter (fun v => [1].contains v.num)) crowd.saves = some [(1, 0)]
    ∧ (∀ i, ((busy.core 0).fillerOf i).running = false) ∧ (∃ c ∈ drained.cores, ((eng 7 (getAt hmA)).core c).safePoint = false) ∧ crowd.failed = false
    ∧ crowd.task? 2 = some wants ∧ (∀ c ∈ wants.cores, c < 48) ∧ crowd.considered wants = true ∧ crowd.resFits wants = true
    ∧ crowd.rdb Reg.SCHED_PRE_CTL_PRE_EN = true ∧ crowd.saveArea.2 ≠ 0 ∧ (crowd.tasks.map Task.num).Nodup
    ∧ (crowd.tasks.filter (fun (v : Task) => v.state == .draining || v.state == .saving)).map Task.num = []
    ∧ (crowd.offerWithout wants []).length < crowd.coresWanted wants ∧ ({ busy with tasks := [drained] } : State).task? 1 = some drained
    ∧ drained.state = .draining ∧ (∀ c ∈ drained.cores, (busy.core c).safePoint = true) ∧ busy.waiters = []
    ∧ (∀ c ∈ drained.cores, (busy.core c).task = 1) := 
  ⟨crowd_victims,
    crowd_places,
    fillers_off,
    ⟨0, by decide +kernel⟩,
    by decide +kernel⟩

theorem met_TasksArePreemptedAndRestored_TasksAreSavedAndRestored :
    (flat saving).lmWaits 0 ((saving.saveBytes + 255) / 256 * 256) = false
    ∧ ((flat saving).freshJunk.2.lmWrite [] 0 1 0 ((List.range ((saving.saveBytes + 255) / 256 * 256)).map (Config.junkByte (flat saving).freshJunk.1))).1.at? = none
    ∧ (flat back).lmWaits 0 ((back.saveBytes + 255) / 256 * 256) = false
    ∧ ((flat back).lmRead [] 0 1 0 ((back.saveBytes + 255) / 256 * 256)).2.1.at? = none ∧ (flat saving).failed = false
    ∧ (flat saving).task? 1 = some saving ∧ (∀ c ∈ saving.cores, ((flat saving).core c).badIn saving.image.live = none) ∧ saving.killed = false
    ∧ saving.jobFatal = none ∧ saving.saveAt = 0 ∧ saving.state = .saving ∧ (flat away).task? 1 = some away ∧ (flat away).isNext away = true
    ∧ (flat away).canGo away = true ∧ (flat back).task? 1 = some back ∧ (∀ p ∈ (flat back).park, p.task ≠ 1) ∧ back.state = .restoring
    ∧ (back.saved.map Prod.fst).Nodup := 
  ⟨lm_waits (by decide +kernel) _ _,
    lm_write (by decide +kernel) _ _,
    lm_waits (by decide +kernel) _ _,
    lm_read (by decide +kernel) _ _,
    by decide +kernel⟩

/-- The save's first line lies behind a channel that retrains. -/
theorem met_TasksArePreemptedAndRestored_SavesWaitForLm :
    256 ≤ ({ saving with image := { img with live := [(0, 256)] } } : Task).saveBytes
    ∧ ({ flat { saving with image := { img with live := [(0, 256)] } } with regs := (noChan (flat saving)).regs } : State).lmWaits 0 256 = true := 
  ⟨(by unfold Task.saveBytes; show 256 ≤ 1 * (liveBytes [(0, 256)] + _); rw [show liveBytes [(0, 256)] = 256 by decide +kernel]; omega),
    by decide +kernel⟩

/-- Task 1 with a status on it, with every core finished, and with an operation on its tumblers accepted but not applied. -/
def failedTask : Task := { tsk with fatal := some (1, 0, 0) }
def overTask : State := { ring with tasks := [failedTask] }
def finished : State := ring.modCore 0 (fun k => { k with state := 0, task := 1, finished := true })
def clean (f : State → State := id) : State := f { finished with tasks := [tsk] }
def addDue (s : State) : State := { s with hubIn := [up.ctl PT.tumAdd 0 0 7 spTUM 0x10000 (leBytes 8 1)] }

theorem met_TasksEndAndTokensRefill_EndedTasksRelease :
    overTask.task? 1 = some failedTask ∧ overTask.taskOver failedTask = true ∧ overTask.failed = false ∧ overTask.qEnabled failedTask.queue = true
    ∧ failedTask.queue < 64 ∧ clean.task? 1 = some tsk ∧ clean.allFinished tsk = true ∧ clean.taskOver tsk = true ∧ clean.tumDue tsk = false
    ∧ (clean addDue).task? 1 = some tsk ∧ (clean addDue).allFinished tsk = true ∧ busy.task? 1 = some tsk ∧ busy.taskOver tsk = false
    ∧ (∀ a ∈ hubbed.allocs, a.task = 1) := by
  decide +kernel

theorem met_TasksEndAndTokensRefill_TokensRefillAndReleasePackets :
    up.c0Held = [] ∧ ({ up with c0Held := [(0, 2, pkt 0 1 0 [])] } : State).c0Held = [(0, 2, pkt 0 1 0 [])]
    ∧ 2 ≤ min 16 (up.rd Reg.SCHED_C0_STAT_TOKENS + 1) ∧ min 16 ((up.wr Reg.SCHED_C0_STAT_TOKENS 0).rd Reg.SCHED_C0_STAT_TOKENS + 1) < 2 := by
  decide +kernel


/-! ## Hypotheses met: the hub cache, LPDDR channels, leaf links -/

def line0 : CLine := { line := 0, data := leBytes 256 7, dirty := true, prot := false, disc := none, poison := false, flush := true }

theorem met_CacheScrubAndChannels_CachePassesRun :
    up.booted = true ∧ up.failed = false ∧ up.cacheSets ≠ 0 ∧ (up.wr Reg.HM_CACHE_CTL_FLUSH 1).rdb Reg.HM_CACHE_CTL_FLUSH = true
    ∧ [line0].filter (fun l => l.flush && l.dirty) = [line0] ∧ [{ line0 with dirty := false }].filter (fun l => l.flush && l.dirty) = [] := by
  decide +kernel

/-- Channel 0 in a state. -/
def chan0 (x : Nat) : State := up.wr (Reg.LMC_CH_STATE 0 0) x

theorem met_CacheScrubAndChannels_ScrubFindsErrors :
    up.booted = true ∧ up.failed = false ∧ up.rdb (Reg.LMC_CTL_SCRUB_EN 0) = true ∧ lmChannel 0 / 16 = (0 : Fin 4).val
    ∧ up.lmRange (0 / 256 * 256) 256 = true ∧ up.chState (lmChannel 0) = 0 ∧ up.cached (0 / 256) = none ∧ up.lmPoison.contains (0 / 256) = false
    ∧ (chan0 3).chState (lmChannel 0) = 3 ∧ (chan0 1).chState (lmChannel 0) = 1 ∧ (chan0 1).rdb (Reg.LMC_CTL_SCRUB_EN 0) = true := by
  decide +kernel

theorem met_CacheScrubAndChannels_ChannelsRetrainAndFail :
    (chan0 1).chState 0 = 1 ∧ (chan0 2).chState 0 = 2 ∧ (chan0 3).chState 0 = 3 ∧ up.chState 0 = 0 ∧ up.booted = true
    ∧ up.rd (Reg.LMC_CTL_REPAIR_THRESH 0) < 1025 ∧ 0 ≤ up.rd (Reg.LMC_CTL_REPAIR_THRESH 0) ∧ up.rd (Reg.LMC_CTL_DRIFT_PS 0) ≤ 31
    ∧ 0 < up.rd (Reg.LMC_CTL_DRIFT_PS 0) ∧ up.clock < (up.chan 0).lastTrain + State.msTicks 10000 ∧ ((chan0 2).chan 0).fails = 0
    ∧ 1 ≤ (((chan0 2).modChan 0 (fun c => { c with fails := 1 })).chan 0).fails ∧ ((chan0 2).modChan 0 (fun c => { c with fails := 1 })).chState 0 = 2 := by
  decide +kernel

/-- UCIe module 3 of leaf 0 retrains; it has had replays in the last 1 ms, which it counts against a threshold of 2. -/
def retrains : State := up.modUcie 0 3 (fun u => { u with retraining := true })
def replays (n : Nat) : State := { up.modUcie 0 3 (fun u => { u with retries := List.replicate n 0 }) with lag := [(threshKey 0 3, 2)] }
def within1ms (s : State) : List Nat := ((s.leaf 0).mod 3).retries.filter (fun t => decide (s.clock < t + State.msTicks 1))

theorem met_LeafLinksAndLeaves_UcieModulesRepairAndDegrade :
    up.failed = false ∧ up.leafUp 0 = true ∧ ((up.leaf 0).mod 3).disabled = false ∧ ((up.leaf 0).mod 3).retraining = false ∧ within1ms up = []
    ∧ (up.clock :: within1ms up).length ≤ up.rd (Reg.LL_CTL_RETRAIN_THRESH 0)
    ∧ (let s := up.wr (Reg.LL_CTL_RETRAIN_THRESH 0) 0; within1ms s = [] ∧ s.rd (Reg.LL_CTL_RETRAIN_THRESH 0) < (s.clock :: within1ms s).length)
    ∧ within1ms (replays 1) ≠ [] ∧ (0 :: within1ms (replays 1)).length ≤ (replays 1).thresh 0 3
    ∧ (replays 2).thresh 0 3 < (0 :: within1ms (replays 2)).length ∧ ((retrains.leaf 0).mod 3).retraining = true
    ∧ (∀ i, i < 32 → i ≠ 3 → retrains.width 0 i < 3) ∧ Ucie.reset.usable 0 = true ∧ Ucie.reset.usable 1 = true
    ∧ { Ucie.reset with failedTx := [0, 1, 2] }.usable 0 = false ∧ { Ucie.reset with failedTx := [0, 1, 2] }.usable 1 = true
    ∧ { Ucie.reset with failedRx := [32, 33, 34] }.usable 1 = false ∧ { Ucie.reset with failedRx := [32, 33, 34] }.usable 0 = true
    ∧ { Ucie.reset with failedRx := [0, 1, 2, 32, 33, 34] }.usable 0 = false ∧ { Ucie.reset with failedRx := [0, 1, 2, 32, 33, 34] }.usable 1 = false := by
  decide +kernel

/-- Leaf 0 in a partial reset, at a stage of it. -/
def resetting (x : Nat) : State := (up.wr (Reg.LL_CTL_RESET 0) 1).wr (Reg.LL_STATE_STATE 0) x

theorem met_LeafLinksAndLeaves_LeavesResetAndReturn :
    up.failed = false ∧ up.booted = true ∧ up.leafGone 0 = false ∧ up.rdb (Reg.LL_CTL_RESET 0) = false
    ∧ (up.wr (Reg.LL_STATE_STATE 0) 3).leafGone 0 = true ∧ (resetting 0).rd (Reg.LL_STATE_STATE 0) = 0
    ∧ (resetting 0).rd (Reg.LL_STATE_DISAGREE 0) ≤ 2 ∧ (resetting 0).rdb (Reg.LL_CTL_RESET 0) = true ∧ (resetting 1).rd (Reg.LL_STATE_STATE 0) = 1
    ∧ (resetting 1).rdb (Reg.LL_CTL_RESET 0) = true ∧ (resetting 1).booted = true ∧ (∀ x ∈ busy.tasks, x.state ≠ .saving ∧ x.state ≠ .restoring) := by
  decide +kernel

theorem met_LeafLinksAndLeaves_BudgetMessagesAct :
    up.booted = true ∧ up.failed = false ∧ up.leafUp 0 = true ∧ State.reset.leafUp 0 = false := by
  decide +kernel


/-! ## Hypotheses met: requests and replies of other modules -/

/-- hub4 allocated to task 1 with count 5; module 1 has a row of the dedup store. -/
def home : State := { hubbed with dedup := [{ src := 1, ids := [(8, 0, 3)], last := 0 }] }
def reqPut : Packet := { pkt 0x01 1 4096 [1, 2] with count := 2 }
def reqSig : Packet := { pkt 0x03 1 4096 (leBytes 4 1 ++ leBytes 2 6 ++ leBytes 2 4 ++ [9]) with count := 9 }
def reqGet (n : Nat) : Packet := pkt 0x07 1 4096 (leBytes 2 n)
def reqAtom : Packet := pkt 0x08 1 4096 (leBytes 4 1 ++ leBytes 4 8 ++ leBytes 8 5 ++ leBytes 8 0)
def reqAdd (opid : Nat) : Packet := pkt 0x09 4 32 (leBytes 4 opid ++ leBytes 4 1)

def reqMc : Packet := { pkt 0x05 1 4096 (leBytes 16 0 ++ [7]) with count := 17 }
def reqSet : Packet := pkt 0x0A 4 32 (leBytes 4 1 ++ leBytes 4 2)
def reqRead : Packet := pkt 0x0B 4 32 (leBytes 8 0)

theorem met_RequestsAreServedAtTheirHome :
    home.failed = false ∧ [reqPut, reqMc, reqSig, reqGet 4096, reqAtom, reqAdd 1, reqAdd 8, reqSet, reqRead].all pcrcOk = true
    ∧ [reqPut, reqMc, reqSig, reqGet 4096, reqAtom].all (fun p => p.space == 1) = true ∧ putData reqPut = [1, 2]
    ∧ home.hmRange (pktOff reqPut) 2 = true ∧ home.hmRange (pktOff (pkt 0x01 1 0x3FFFFFFF [1, 2])) 2 = false ∧ reqPut.typ.val = PT.put
    ∧ putData reqMc = [7] ∧ reqMc.typ.val = PT.putMc ∧ putData reqSig = [9] ∧ reqSig.typ.val = PT.putSig ∧ (home.dedupRow 1).isSome = true
    ∧ home.applied? 1 (opidOf reqSig) = none ∧ home.applied? 1 (opidOf reqAtom) = none ∧ home.applied? 1 (opidOf reqSet) = none
    ∧ [reqSig, reqAtom, reqSet, reqRead, reqAdd 1].all (fun p => !home.parkedAlready p && p.src == 1) = true
    ∧ tumOfOff (8 * leNat ((reqSig.payload.drop 6).take 2)) = some (.inl 4) ∧ (home.hubAlloc 4).isSome = true
    ∧ (home.hubGet 4).toNat + leNat ((reqSig.payload.drop 4).take 2) < 2 ^ 32 ∧ leNat ((reqGet 4096).payload.take 2) = 4096
    ∧ home.hmRange (pktOff (reqGet 4096)) 4096 = true ∧ home.hmBad = [] ∧ (reqGet 4096).typ.val = PT.get ∧ reqAtom.typ.val = PT.atom
    ∧ fld (leNat ((reqAtom.payload.drop 4).take 1)) 0 3 ≠ 7 ∧ pktOff reqAtom % 8 = 0 ∧ home.hmRange (pktOff reqAtom) 8 = true
    ∧ (reqAdd 1).space = spTUM ∧ tumOfOff (pktOff (reqAdd 1)) = some (.inl 4) ∧ (reqAdd 1).typ.val = PT.tumAdd ∧ reqSet.typ.val = PT.tumSet
    ∧ tumOfOff (pktOff reqSet) = some (.inl 4) ∧ reqRead.typ.val = PT.tumRead ∧ home.applied? (reqAdd 8).src (opidOf (reqAdd 8)) = some (0, 3) := by
  decide +kernel

/-- Core 0 waits for n replies of module 1, to tag 9. -/
def waiting (q : Packet) (op : EInst) (mc : List Nat) (n : Nat := 1) (f : Txn → Txn := id) : State :=
  { (eng 7 op).modCore 0 (fun k => { k with window := [{ ent 7 op with phase := .waiting, left := n }] }) with
    txns := [f { sentBy q false with tag := 9, dest := [(0, 8)], mcLeft := mc }] }
def rpl (typ : Fin 32) (payload : List Byte) : Packet := pkt typ 0 0 payload
def mcOp : EInst := .putMc long hm5 1 1 64 1 0
def opReadG : EInst := .tumReadG far4 8 2
def ackRpl : Packet := rpl 0x10 (leBytes 8 0)
def missRpl : Packet := rpl 0x15 (leBytes 8 0 ++ leBytes 8 3 ++ leBytes 8 1)

/-- The transaction that a reply of module 1 answers, and its instruction, are there. -/
def answers (s : State) (p : Packet) : Bool :=
  !s.failed && pcrcOk p && (match s.txnOf p with | some x => x.pre.isNone && ((s.core x.core).entry? x.id).isSome | none => false)

theorem met_RepliesCompleteTheirRequests :
    (∃ m ∈ [1, 5], m ≠ ackRpl.src) ∧ answers (waiting reqPut (putAt hmA) []) ackRpl = true ∧ answers (waiting reqPut (putAt hmA) [] 2) ackRpl = true
    ∧ ackRpl.typ.val = PT.ack ∧ PT.multicast reqPut.typ.val = false
    ∧ (((waiting reqPut (putAt hmA) []).takeHub ackRpl).closeTxnWin 9 0).lateCopy 0 0 = false ∧ wasApplied 0 = true
    ∧ (((waiting reqPut (putAt hmA) []).takeHub ackRpl).closeTxn 9).lateCopy 0 0 = false ∧ answers (waiting reqMc mcOp [1, 5]) ackRpl = true
    ∧ PT.multicast reqMc.typ.val = true ∧ answers (waiting (reqGet 8) (getAt hmA) []) (rpl 0x11 (leBytes 8 0)) = true
    ∧ (rpl 0x11 (leBytes 8 0)).typ.val = PT.getResp ∧ answers (waiting reqAtom (opAtom hm5 3 true) []) (rpl 0x13 (leBytes 16 0)) = true
    ∧ (rpl 0x13 []).typ.val = PT.atomResp ∧ answers (waiting reqRead opReadG []) (rpl 0x14 (leBytes 8 0)) = true ∧ (rpl 0x14 []).typ.val = PT.tumResp
    ∧ answers (waiting reqMc mcOp [0, 1]) missRpl = true ∧ answers (waiting reqMc mcOp [0, 1, 70]) missRpl = true ∧ missRpl.typ.val = PT.mcMiss
    ∧ (maskMembers (maskOf ((missRpl.payload.drop 8).take 16))).filter (fun m => [0, 1].contains m) = [0, 1]
    ∧ [0, 1, 70].filter (fun m => !(List.contains [0, 1] m)) ≠ [] ∧ [0, 1].filter (fun m => !(List.contains [0, 1] m)) = []
    ∧ reqMc.typ.val ≠ PT.kvUpdate ∧ up.txnOf ackRpl = none := 
  ⟨⟨5, by decide +kernel⟩,
    by decide +kernel⟩

/-- That request, so many ticks after its last send, its data in SP, and with one of them uncorrectable. -/
def sentAt (n : Nat) (s : State) : State := { s with clock := n }
def fromSp (x : Txn) : Txn := { x with source := [(0, 8)] }
def lost0 (s : State) : State := s.modCore 0 (fun k => { k with spBad := [0] })

theorem met_RequestsAreKeptUntilAnswered :
    (let s := sentAt 375000 (waiting reqPut (putAt hm5) [] 1 fromSp); s.failed = false ∧ (s.outstanding 9).isSome = true ∧ 0 + State.usTicks 300 ≤ s.clock ∧ (s.core 0).badIn [(0, 8)] = none ∧ reqPut.cls.val ≠ 0)
    ∧ (let s := lost0 (sentAt 375000 (waiting reqPut (putAt hm5) [] 1 fromSp)); (s.outstanding 9).isSome = true ∧ (s.core 0).badIn [(0, 8)] ≠ none ∧ PT.multicast reqPut.typ.val = false ∧ ((s.core 0).entry? 0).isSome = true ∧ (ent 7 (putAt hm5)).bad = 0)
    ∧ (waiting reqPut (putAt hm5) []).clock < 0 + State.usTicks 300
    ∧ (let s := sentAt 12500000 (waiting reqPut (putAt hm5) []); (s.outstanding 9).isSome = true ∧ 0 + State.msTicks 10 ≤ s.clock ∧ ((s.core 0).entry? 0).isSome = true)
    ∧ (let s := sentAt 12500000 (waiting reqMc mcOp [1, 5]); (s.outstanding 9).isSome = true ∧ ((s.core 0).entry? 0).isSome = true)
    ∧ PT.multicast reqMc.typ.val = true ∧ up.outstanding 9 = none ∧ (waiting reqPut (putAt hm5) []).clock < 0 + State.msTicks 10
    ∧ ({ home with dedupWait := [reqAdd 1] } : State).dedupWait = [reqAdd 1] ∧ (reqAdd 1).src = 1 ∧ (home.dedupRow 1).isSome = true
    ∧ up.dedup.length < 512 ∧ 4095 ∈ ({ up with padDue := [4095] } : State).padDue ∧ 7 ∉ up.padDue := by
  decide +kernel


/-! ## Hypotheses met: links -/

/-- Port p framed in a state, with lanes 0-9 in its masks, their signal and their marker lock. -/
def link (p : Nat) (st : Nat) (f : Port → Port := id) : State :=
  (((up.wr (Reg.LK_STATE_STATE p) st).wr (Reg.LK_STATE_TX_MASK p) 0x3FF).wr (Reg.LK_STATE_RX_MASK p) 0x3FF).modPort p (fun t =>
    f { t with framed := true, signal := 0x3FF, mLock := 0x3FF })
def fr (seq : Nat) (slots : List Flit) (empty : Bool := false) : Frame :=
  { slots := slots ++ List.replicate (32 - slots.length) .null, fseq := seq, ack := 4095, nak := false, empty := empty, credits := List.replicate 4 (31, 0) }
def mk (good : Bool) : LaneMarker := { phys := 3, bytes := if good then alignBytes 3 0 0x3FF 0 else List.replicate 20 0 }

theorem met_FramesLeaveAndAreAccepted_FramesAndMarkersLeave :
    ((link 0 4).port 0).framed = true ∧ (link 0 4).lk 0 ≠ 0 ∧ (link 0 4).lk 0 ≠ 5 ∧ ((link 0 4).port 0).resend = []
    ∧ ((link 14 4).port 14).newMask = none ∧ ((link 0 4 (fun t => { t with newMask := some 0x3FE, markers := 1 })).port 0).newMask = some 0x3FE
    ∧ ((link 0 4 (fun t => { t with resend := [fr 4 []], replay := [(fr 4 [], 6)] })).port 0).resend = [fr 4 []]
    ∧ (∀ x ∈ ([(fr 4 [], 6)] : List (Frame × Nat)), x.2 < 7) ∧ alignGood (mk true).bytes = true ∧ alignGood (mk false).bytes = false
    ∧ leAt (mk true).bytes 8 1 % 16 = 3
    ∧ 8 ≤ ((lanes (BitVec.ofNat 16 (leAt (mk true).bytes 10 2))).filter (fun k => ((link 0 4).port 0).signal.getLsbD k && (((link 0 4).port 0).mLock ||| laneBit 3).getLsbD k)).length
    ∧ Tab.get ((link 0 4).port 0).laneOf 3 3 = 3 ∧ Tab.get ((link 0 4).port 0).mBad 0 3 = 0 ∧ ((link 0 4).rxMask 0).getLsbD 3 = true
    ∧ 8 ≤ ((link 0 4).working 0).length ∧ Tab.get ((link 0 4 (fun t => { t with mBad := [(3, 1)] })).port 0).mBad 0 3 = 1
    ∧ ((link 0 1 (fun t => { t with framed := false })).port 0).framed = false ∧ (link 0 1 (fun t => { t with framed := false })).lk 0 = 1
    ∧ (up.port 0).framed = false ∧ (up.port 0).downAt = none
    ∧ ((up.modPort 0 (fun t => { t with downAt := some (0, 5) })).port 0).downAt = some (0, 5) ∧ up.clock < 0 + State.usTicks 10 := by
  decide +kernel

/-- The packets of the worked example of the manual's chapter on links: the adapter's PUT of 4,096 bytes, and the ACK. -/
def exPut : Packet :=
  { blankPkt with typ := 2, cls := 2, dst := 0x37, src := 0x3F, job := 0x21, len := 64, tag := 5, offset := 0x10000000 }
def exAck : Packet :=
  { blankPkt with typ := 0x10, cls := 2, dst := 0x3F, src := 0x37, job := 0x21, tag := 5, count := 8, payload := leBytes 4 0 ++ leBytes 4 4096 }

/-- The headers of the worked example, as its table gives them. -/
theorem test_worked_headers :
    (headBytes exPut).take 16 = leBytes 8 0xB0000840FC0DC042 ++ leBytes 8 0x0000080000000000
    ∧ (headBytes exAck).take 16 = leBytes 8 0xA0000840DC0FC050 ++ leBytes 8 0x0400000000000000 ∧ pktVc exPut = 8 ∧ chargeOf exPut = 4096 := by
  decide +kernel

theorem met_WhatLeavesIsReadBack :
    (exPut.payload = [] ∧ PT.isData exPut.typ.val = true ∧ exPut.len < 128)
    ∧ (exAck.payload.length = exAck.count ∧ PT.isData exAck.typ.val = false ∧ exAck.count ≤ 48)
    ∧ exAck = { exAck with pcrc := 0, sigref := 0, sig := false, opid := 0, inc := 0, sigtum := 0, sigbytes := 0, mask := { inRack := 0, racks := 0 }, digest := 0, ccrc := 0 }
    ∧ (fr 7 [.head exPut, .body (leBytes 64 1), .link .syncReq]).slots.length = 32 ∧ (leBytes 64 1).length = 64
    ∧ (∀ c ∈ (fr 7 []).credits, c.1 < 32 ∧ c.2 < 8192) := by
  decide +kernel

/-- `fr` as bytes, and whether the fields that the statement asks for are right on port 0. -/
def rx (f : Frame) : List Byte := frameBytes f
def plainRx (b : List Byte) : Bool := (frameOf b).ack == 4095 && !(frameOf b).nak && (frameOf b).credits.all (fun c => c.1 == 31)

theorem met_FramesLeaveAndAreAccepted_FramesAreAcceptedInOrder :
    frameCrcOk (rx (fr 0 [])) = true ∧ (link 0 4).linkRuns 0 = true ∧ (link 14 4).linkRuns 14 = true ∧ hasRetry 14 = false ∧ hasRetry 0 = true
    ∧ frameCrcOk [1] = false ∧ ((link 0 4).port 0).discards = [] ∧ ((link 0 4).port 0).replay = [] ∧ ((link 0 4).port 0).nextSeq = 0
    ∧ ((link 0 4).port 0).expSeq = 0 ∧ plainRx (rx (fr 0 [])) = true ∧ frameOf (rx (fr 0 [])) = fr 0 []
    ∧ plainRx (rx (fr 0 [.head (reqGet 8)])) = true ∧ (link 0 1).lk 0 = 1
    ∧ (∀ l ∈ lanes ((link 0 1).rxMask 0), ((link 0 1).port 0).mLock.getLsbD l = true) ∧ ((link 0 1).port 0).goodRun < 3
    ∧ 3 ≤ ((link 0 1 (fun t => { t with goodRun := 3 })).port 0).goodRun ∧ (up.port 0).framed = false := 
  ⟨frameCrcOk_append _ (by decide +kernel),
    by decide +kernel⟩

/-- A control packet that a port can take. -/
def getFlit : Packet := { reqGet 8 with len := 0, count := 2 }

theorem met_FramesLeaveAndAreAccepted_FramesAreAcceptedInOrder_packets :
    frameOf (rx (fr 0 [.head getFlit])) = fr 0 [.head { getFlit with pcrc := 0, opid := 0 }]
    ∧ (link 0 4).headBad 0 { getFlit with pcrc := 0, opid := 0 } = none ∧ plainRx (rx (fr 4031 [])) = true ∧ (frameOf (rx (fr 4031 []))).fseq = 4031
    ∧ plainRx (rx (fr 4032 [])) = true ∧ (frameOf (rx (fr 4032 []))).fseq = 4032 ∧ plainRx (rx (fr 0 [] true)) = true
    ∧ (frameOf (rx (fr 0 [] true))).empty = true := by
  decide +kernel

/-- A data packet of three flits in progress on channel 5 of port 0, one of them received. -/
def inProg (t : Port) : Port := { t with rxProg := [{ id := 2, vc := 5, pkt := some exPut, total := 3, got := 1, freed := 1 }] }

/-- The neighbour that port 0 expects, by number, port and key. -/
def nbr (s : State) : Nat × Nat × Word := (s.rd (Reg.LK_NBR_EXP_MODULE 0), s.rd (Reg.LK_NBR_EXP_PORT 0), BitVec.ofNat 64 (s.rd Reg.LK_KEY_KEY))

theorem met_LinkFlitsAct :
    (link 0 4).linkRuns 0 = true ∧ hasRetry 14 = false ∧ (link 14 4).linkRuns 14 = true ∧ ((link 0 4).port 0).inProgress 5 = none
    ∧ (((link 0 4 inProg).port 0).inProgress 5).isSome = true ∧ (link 0 4 inProg).linkRuns 0 = true ∧ ((link 0 4).port 0).newMask = none
    ∧ ((link 0 4 (fun t => { t with newMask := some 0x3FE })).port 0).newMask.isSome = true
    ∧ maskAfter ((link 0 4).port 0).outLanes ((link 0 4).txMask 0) (((link 0 4).port 0).laneReqs ++ [(3, false)]) ≠ (link 0 4).txMask 0
    ∧ (link 0 3).lk 0 = 3 ∧ (link 0 2).lk 0 = 2 ∧ (link 0 2).linkRuns 0 = true ∧ (link 0 3).linkRuns 0 = true
    ∧ (nbr (link 0 2)).2.2.toNat = (link 0 2).rd Reg.LK_KEY_KEY ∧ (nbr (link 0 3)).2.2.toNat = (link 0 3).rd Reg.LK_KEY_KEY ∧ 7 ≠ (nbr (link 0 2)).1
    ∧ up.linkRuns 0 = false := by
  decide +kernel

/-- The training block of a lane that names itself 7, at a stage, and one of no block. -/
def block (stage : Nat) : List Byte := leBytes 8 trainSync ++ leBytes 1 7 ++ leBytes 1 stage ++ leBytes 2 0x3FF ++ leBytes 8 0
def trains (st : Nat) (f : Port → Port := id) : State := (up.wr (Reg.LK_STATE_STATE 0) st).modPort 0 f

theorem met_LinksComeUpAndGoDown :
    (link 0 2).lk 0 = 2 ∧ (link 0 3).lk 0 = 3 ∧ (link 0 6).lk 0 = 6 ∧ (link 0 4).lk 0 = 4 ∧ (link 0 1).lk 0 = 1 ∧ (link 0 4).linkRuns 0 = true
    ∧ (link 0 3).linkRuns 0 = true ∧ up.booted = true ∧ up.failed = false ∧ ((link 0 3).port 0).rxProg = [] ∧ up.lk 0 = 0 ∧ (link 0 5).lk 0 = 5
    ∧ ({ ((up.wr Reg.RT_LINKS_MAPPED 1).wr (Reg.LK_CTL_ENABLE 0) 1).wr (safeFld 0) 0 with portsOff := false } : State).canTrain 0 = true
    ∧ up.canTrain 19 = false ∧ ((trains 1).port 0).framed = false ∧ (trains 1).lk 0 = 1 ∧ leAt (block 1) 0 8 = trainSync ∧ leAt (block 1) 9 1 = 1
    ∧ leAt (List.replicate 20 0) 0 8 ≠ trainSync
    ∧ 8 ≤ (lanes (((trains 1 (fun t => { t with adapted := 0x7F })).port 0).adapted ||| laneBit 7)).length ∧ ((trains 1).port 0).stage = 0
    ∧ 3 ≤ ((trains 1 (fun t => { t with restarts := 3 })).port 0).restarts ∧ ((link 0 6).port 0).framed = true
    ∧ (let s := sentAt 1250000000 (link 0 3 (fun t => { t with clean := some 0, pState := 3, pMatch := true })); s.lk 0 = 3 ∧ (s.port 0).clean = some 0 ∧ 0 + State.msTicks 1000 ≤ s.clock ∧ (s.port 0).pMatch = true ∧ s.padlocked (s.rd (Reg.LK_NBR_EXP_MODULE 0)) = false)
    ∧ ((link 0 4).rxMask 0).getLsbD 9 = true ∧ 9 ≤ ((link 0 4).working 0).length := by
  decide +kernel


/-! ## Hypotheses met: the router, declarations, faults -/

/-- A packet held for module 5, one with a flit still to come, and a state that routes to 5 by an entry. -/
def to5 (p : Packet) : Packet := { p with dst := 5 }
def heldPkt (p : Packet) (arrived : Option Nat := none) (due : Nat := 0) : Held :=
  { pkt := p, arrived := arrived, buf := 0, due := due, started := false }
def routes (e : Nat) (h : Held) : State := { up.wr (Reg.RT_ENTRY 0 5) e with held := [h] }
def ported (p e : Nat) (h : Held) : State := { (routes e h).wr (Reg.LK_STATE_STATE p) 4 with routable := [p] }
/-- The collective store, with no slot free. -/
def fullStore (s : State) : State := { s with store := (List.range 128).map (fun g => { slot2 with gid := g + 6 }) }
def get5 : Held := heldPkt (to5 (reqGet 8))
/-- A copy of a multicast for module 5 alone. -/
def mc5 : Held := heldPkt { reqMc with payload := maskBytes { inRack := 32, racks := 1 } }
/-- The entry of that packet in the hold. -/
def isHeld (s : State) (h : Held) : Bool := s.held.find? (fun (x : Held) => x.pkt == h.pkt && x.arrived == h.arrived) == some h

theorem met_PacketsAreRouted :
    isHeld (routes 3 get5) get5 = true ∧ get5.arrived = none ∧ mcMask get5.pkt = none ∧ get5.due = 0 ∧ (routes 3 get5).lookup 5 false = .toHub
    ∧ (routes 3 get5).wantsSlot get5.whole = false ∧ (heldPkt (to5 (reqGet 8)) none 2).due ≠ 0
    ∧ (fullStore (routes 3 (heldPkt (to5 cdata)))).wantsSlot (heldPkt (to5 cdata)).whole = true ∧ mcMask (to5 cdata) = none
    ∧ (ported 0 1 get5).lookup 5 false = .out 0 false false ∧ isEdge 0 = false
    ∧ (ported 18 (1 + 18 * 2 ^ 23) (heldPkt (to5 cdata))).lookup 5 false = .out 18 false false ∧ isEdge 18 = true ∧ (to5 cdata).typ.val = PT.collData
    ∧ isHeld (ported 18 (1 + 18 * 2 ^ 23) (heldPkt (to5 cdata))) (heldPkt (to5 cdata)) = true ∧ isHeld (ported 0 1 get5) get5 = true
    ∧ ¬ (get5.pkt.typ.val = PT.kvUpdate ∨ get5.pkt.typ.val = PT.collData ∨ get5.pkt.typ.val = PT.collCtl) ∧ (routes 5 get5).lookup 5 false = .padlock
    ∧ (routes 0 get5).lookup 5 false = .invalid ∧ isRequest get5.pkt.typ.val = true ∧ (routes 1 get5).lookup 5 false = .hold := by
  decide +kernel

theorem met_PacketsAreRouted_masks :
    maskMembers { inRack := 32, racks := 1 } = [5] ∧ mcMask mc5.pkt = some { inRack := 32, racks := 1 } ∧ mc5.due = 0
    ∧ PT.multicast mc5.pkt.typ.val = true ∧ isHeld (routes 3 mc5) mc5 = true ∧ (routes 3 mc5).lookup 5 mc5.pkt.dt = .toHub
    ∧ isHeld (routes 0 mc5) mc5 = true ∧ (routes 0 mc5).lookup 5 mc5.pkt.dt = .invalid ∧ (routes 5 mc5).lookup 5 mc5.pkt.dt = .padlock
    ∧ isHeld (routes 3 (heldPkt { reqGet 8 with hops := 16 } (some 0))) (heldPkt { reqGet 8 with hops := 16 } (some 0)) = true
    ∧ (heldPkt { reqGet 8 with hops := 16 } (some 0)).arrived.isSome = true ∧ 16 ≤ ({ reqGet 8 with hops := 16 } : Packet).hops
    ∧ (routes 3 get5).held[0]? = some get5
    ∧ ((up.modPort 0 (fun t => { t with txq := [(4, get5.pkt, get5)] })).port 0).txq[0]? = some (4, get5.pkt, get5) := by
  decide +kernel

/-- Module 5 installed with no link to it, a task with the peer 5 and one with none, and a computation that left 5 without a route. -/
def cut (peers : List Nat) (n : Nat) : State :=
  sentAt n { busy with config := (List.replicate 400 0) ++ [32], tasks := [{ tsk with peers := peers }], partWait := [(0, [5])] }
def computing : State := { up with compute := some { start := 0, all := true } }

theorem met_TablesAndDeclarations_TablesAreComputedAnew :
    up.failed = false ∧ up.booted = true ∧ up.compute = none ∧ computing.failed = false ∧ computing.compute = some { start := 0, all := true }
    ∧ (cut [] 5).failed = false ∧ (∀ w ∈ (cut [] 5).partWait, (cut [] 5).clock < w.1 + State.usTicks 500) ∧ (cut [] 625000).partWait = [(0, [5])]
    ∧ 0 + State.usTicks 500 ≤ (cut [] 625000).clock ∧ (∀ t ∈ (cut [] 625000).tasks, ∀ n ∈ t.peers, n ∈ [5] → n ∉ (cut [] 625000).noRoute)
    ∧ (cut [5] 625000).tasks = [{ tsk with peers := [5] }] ∧ 5 ∈ (cut [5] 625000).noRoute ∧ tsk.state ≠ .ended ∧ tsk.fatal = none ∧ tsk.killed = false
    ∧ tsk.jobFatal = none := by
  decide +kernel

theorem met_TablesAndDeclarations_DeclarationsAndJobFatalNoticesAct :
    busy.failed = false ∧ 7 < 65536 ∧ 7 ∉ busy.jobIgnore ∧ busy.tasks = [tsk] ∧ tsk.job = 7 ∧ 7 ∈ ({ up with jobIgnore := [7] } : State).jobIgnore
    ∧ (5 : Fin 4096).val ≠ up.modNum ∧ up.fdDead 5 = false ∧ (up.wr (Reg.FD_DEAD_DEAD 0) 32).fdDead 5 = true ∧ (0 : Fin 4096).val = up.modNum
    ∧ up.rdb Reg.SF_LATCH_LEFT = false ∧ up.portsOff = false ∧ up.booted = true := by
  decide +kernel

def flt (sev job : Nat) : Fault_ := { Fault_.blank sev 0 0x0801 with job := job }
def faulty (s : State) (f : Fault_) : State := { s with faultq := [f] }

theorem met_FaultsAndFailStops_FaultsAreHandled :
    (faulty up (flt 1 noJob)).faultq = [flt 1 noJob] ∧ up.faultWait = [] ∧ (flt 1 noJob).sev ≠ 4 ∧ up.errRingOk = true ∧ up.errFull = false
    ∧ up.kvSpoil (up.errBase + 64 * up.rd Reg.ERR_PTR_TAIL) 64 = up ∧ (flt 0 noJob).sev = 0 ∧ (up.wr Reg.ERR_CTL_S0_EN 0).rd Reg.ERR_CTL_S0_EN = 0
    ∧ (up.wr Reg.ERR_PTR_TAIL 511).errRingOk = true ∧ (up.wr Reg.ERR_PTR_TAIL 511).errFull = true ∧ (flt 4 7).sev = 4 ∧ (flt 4 7).job ≠ noJob
    ∧ busy.failed = false ∧ busy.tasks = [tsk] ∧ tsk.job = (flt 4 7).job ∧ tsk.fatal = none ∧ tsk.killed = false ∧ tsk.jobFatal = none
    ∧ up.faultq = [] ∧ ({ up with irqDue := true } : State).irqDue = true ∧ up.irqDue = false ∧ up.booted = true ∧ up.failed = false := by
  decide +kernel

theorem met_FaultsAndFailStops_FailStopEndsEverything :
    (∃ t ∈ busy.tasks, t.num = (busy.core 0).task) ∧ busy.failed = false ∧ (busy.core 0).task ≠ 0 ∧ (busy.core 0).state = 1 ∧ busy.booted = true
    ∧ ({ up with failed := true } : State).failed = true := 
  ⟨⟨tsk, by decide +kernel⟩,
    by decide +kernel⟩


/-! ## Hypotheses met: optics, the service face, power -/

/-- Engine 0 in a state of a swap of emitter 0 for spare 2. -/
def swap (st : Nat) (f : Port → Port := id) : State :=
  (((up.wr (Reg.OE_STATUS_SWAP_STATE 0) st).wr (Reg.OE_STATUS_SWAP_EMITTER 0) 0).wr (Reg.OE_STATUS_SWAP_SPARE 0) 2).wr (Reg.OE_EMIT_ROLE 0 0) 1 |>.wr (Reg.OE_EMIT_ROLE 0 2) 0
    |>.modPort 0 f

theorem met_EmittersLanesAndConnectors_EmittersFadeAndSwap :
    up.booted = true ∧ up.failed = false ∧ up.rd (Reg.OE_EMIT_LEVEL 0 0) ≤ 3 ∧ ((swap 0).emitterPort 0 0).isSome = true
    ∧ 12 * 0 + 0 ∉ up.flash.emitOff ∧ (swap 0).rd (Reg.OE_EMIT_ROLE 0 2) = 0 ∧ (swap 0).swapState 0 = 0
    ∧ ((swap 0).wr (Reg.OE_EMIT_LEVEL 0 0) 3).rd (Reg.OE_EMIT_LEVEL 0 0) = 3 ∧ ((swap 0).engine 0).dark.contains 0 = false
    ∧ (swap 0).spareOf 0 0 = some 2 ∧ (swap 1).emitterPort 0 ((swap 1).rd (Reg.OE_STATUS_SWAP_EMITTER 0)) = some 0
    ∧ ((swap 0).wr (Reg.OE_EMIT_LEVEL 0 0) 2).rd (Reg.OE_EMIT_LEVEL 0 0) = 2
    ∧ ((swap 0).wr (Reg.OE_CTL_PLAN_EN 0) 1).rdb (Reg.OE_CTL_PLAN_EN 0) = true ∧ (swap 1).swapState 0 = 1 ∧ ((swap 1).port 0).framed = false
    ∧ ((swap 1 (fun t => { t with framed := true })).port 0).framed = true ∧ ((swap 1).port 0).calLane = none ∧ (swap 3).swapState 0 = 3
    ∧ (swap 5).swapState 0 = 5 ∧ (swap 3).emitterPort 0 0 = some 0 ∧ (swap 5).emitterPort 0 0 = some 0 ∧ (swap 5).rd (Reg.OE_STATUS_SWAP_SPARE 0) = 2
    ∧ (swap 5).rd (Reg.OE_STATUS_SWAP_EMITTER 0) = 0 := by
  decide +kernel

theorem met_EmittersLanesAndConnectors_LanesCalibrateAndConnectorsAct :
    up.booted = true ∧ (link 0 4).lk 0 = 4 ∧ decide ((lanes ((link 0 4).txMask 0)).length ≤ 8) = false ∧ (link 0 4).rdb (Reg.OE_CTL_CAL_EN 0) = true
    ∧ decide (2 ≤ (link 0 4).swapState 0) = false ∧ up.lk 0 ≠ 4 ∧ (up.port 0).calLane = none
    ∧ decide ((lanes (((link 0 4).wr (Reg.LK_STATE_TX_MASK 0) 0xFF).txMask 0)).length ≤ 8) = true
    ∧ ((link 0 4 (fun t => { t with calLane := some 2 })).port 0).calLane = some 2 ∧ (up.wr (safeFld 0) 1).rd (safeFld 0) = 1
    ∧ (up.wr (safeFld 0) 0).rd (safeFld 0) ≠ 1 ∧ ((up.modEngine 0 (fun e => { e with seated := true })).engine 0).seated = true
    ∧ (up.engine 0).seated = false ∧ 8 ≤ (lanes ((link 0 4).port 0).signal).length
    ∧ ((up.modPort 0 (fun t => { t with unlocked := [(3, 1)] })).port 0).unlocked = [(3, 1)]
    ∧ ((up.modPort 0 (fun t => { t with unlocked := [(3, 2)] })).port 0).unlocked = [(3, 2)] ∧ (8#16).getLsbD 3 = true ∧ (0#16).getLsbD 3 = false
    ∧ (up.port 0).outLanes.getLsbD 3 = false ∧ ((up.modPort 0 (fun t => { t with outLanes := 8 })).port 0).outLanes.getLsbD 3 = true := by
  decide +kernel

/-- Ring 3 of port 0 has come unlocked. -/
def ringOut : State := up.modPort 0 (fun t => { t with unlocked := [(3, 0)] })

/-- Three slots at which an unlocked ring does not hold leave its lane out; at a fourth nothing is tried. -/
theorem test_third_failed_relock_leaves_the_lane_out :
    ((((ringOut.relock 0 0).relock 0 0).relock 0 0).port 0).outLanes = 8 ∧ (((ringOut.relock 0 0).relock 0 0).port 0).unlocked = [(3, 2)]
    ∧ ((ringOut.relock 0 8).port 0).unlocked = [] := by
  decide +kernel

theorem met_ServiceFaceActs :
    up.powered = true ∧ up.failed = false ∧ up.rd Reg.SF_LATCH_OPEN = 0 ∧ 15 < 16 ∧ 79 < 80 ∧ (up.wr Reg.SF_LATCH_OPEN 1).rd Reg.SF_LATCH_OPEN = 1
    ∧ 9 < 10 ∧ up.rdb Reg.SF_LATCH_LEFT = false ∧ (up.wr Reg.SF_LATCH_LEFT 1).rd Reg.SF_LATCH_LEFT = 1 ∧ up.booted = true ∧ State.reset.booted = false := by
  decide +kernel

/-- PAD_EN written 0, before and after the sample from which it acts. -/
def padOff : State := (up.wr Reg.SF_BEACON_PAD_EN 0).settle Reg.SF_BEACON_PAD_EN

theorem met_IdentifyPadTogglesBeacon :
    up.powered = true ∧ up.act Reg.SF_BEACON_PAD_EN = 1 ∧ up.padAt = none ∧ ({ up with padAt := some 0 } : State).clock < 0 + State.msTicks 500
    ∧ (sentAt 625000000 { up with padAt := some 0 }).padAt = some 0 ∧ 0 + State.msTicks 500 ≤ (sentAt 625000000 up).clock
    ∧ padOff.act Reg.SF_BEACON_PAD_EN ≠ 1 ∧ up.perst = false ∧ up.booted = true ∧ up.failed = false := by
  decide +kernel

/-- A read sees the written PAD_EN at once, a touch only after the next sample. -/
theorem test_pad_enable_acts_at_the_next_sample :
    (nextOf (exec (.registerWrite Reg.SF_BEACON .full 0) up)).map (fun u => (u.rd Reg.SF_BEACON_PAD_EN, u.act Reg.SF_BEACON_PAD_EN, (nextOf (exec (.latchSample 0) u)).map (fun w => w.act Reg.SF_BEACON_PAD_EN))) = some (0, 1, some 0) := by
  decide +kernel

theorem met_PowerComesAndGoes :
    up.powered = true ∧ 4500 ≤ 4500 ∧ 4999 < 5000 ∧ 6400 < 6401 ∧ 6600 ≤ 6600 ∧ 5000 ≤ 6400 ∧ ({ up with input := 1 } : State).input = 1
    ∧ up.failed = false
    ∧ (let s : State := { up with powered := false, input := 3, prsnt := true, charging := false }; s.powered = false ∧ s.prsnt = true ∧ s.input = 3 ∧ s.charging = false)
    ∧ ({ up with prsnt := false } : State).prsnt = false ∧ up.prsnt = true
    ∧ (let s : State := { up with charging := true }; s.charging = true ∧ s.prsnt = true) ∧ State.reset.rd Reg.GLB_BOOT_STAGE = 0
    ∧ State.reset.prsnt = true := by
  decide +kernel

theorem met_PowerClocksHeatAndTime_PowerIsDividedAndClocksFollow :
    up.booted = true ∧ up.failed = false ∧ up.powered = true ∧ up.leafUp 0 = true ∧ up.act Reg.POW_CTL_CLK_MAX_MHZ < 2 ^ 11
    ∧ (up.wr (Reg.LL_STATE_STATE 0) 0).leafUp 0 = false ∧ (up.wr (Reg.LL_STATE_STATE 0) 0).booted = true ∧ up.coreOn 0 = true
    ∧ up.steps.lookup 0 = none ∧ max 1000 (min 2600 (1500 : BitVec 12).toNat) < up.rd Reg.POW_CAP_CAP_W := by
  decide +kernel

/-- CP_KEEP written and taken over; module 1 here, with module 0 installed. -/
def keeps (v : Nat) : State := (up.wr Reg.POW_CTL_CP_KEEP v).settle Reg.POW_CTL_CP_KEEP
def second : State := { up with straps := 1, config := (List.replicate 400 0) ++ [1] }

theorem met_PowerClocksHeatAndTime_DomainsSensorsAndTimeAct :
    up.booted = true ∧ up.failed = false ∧ (pairCores 0 0).all up.coreOn = true ∧ (pairCores 0 0).all up.coreFree = true
    ∧ (keeps 0).act Reg.POW_CTL_CP_KEEP ≠ 1 ∧ (pairCores 0 0).all (keeps 0).coreOn = true ∧ (pairCores 0 0).all (keeps 0).coreFree = true
    ∧ (keeps 0).booted = true ∧ (pairCores 0 0).any (keeps 0).poolIn = false ∧ (∀ c ∈ pairCores 0 0, ((keeps 0).core c).window = [])
    ∧ (keeps 1).act Reg.POW_CTL_CP_KEEP = 1
    ∧ (let s := up.wr Reg.POW_DOMAINS_ON (2 ^ 28 - 2); s.leafUp 0 = true ∧ (pairCores 0 0).all s.coreOn = false ∧ 0 ∉ s.pairsOn)
    ∧ 0 ∈ ({ up with pairsOn := [0] } : State).pairsOn ∧ (up.sensor (.hub 0)).ignored = false ∧ (up.sensor (.hub 0)).same < 99999 ∧ (-41 : Int) < -40
    ∧ (150 : Int) < 151 ∧ (115 : Int) ≤ 115 ∧ (-40 : Int) ≤ 114
    ∧ ({ up with sensors := [(.hub 0, { SensorRec.reset with ignored := true })] } : State).sensor (.hub 0) = { SensorRec.reset with ignored := true }
    ∧ up.isMaster = true ∧ second.isMaster = false ∧ second.booted = true ∧ 2 ≤ ({ second with timeGood := 2 } : State).timeGood := by
  decide +kernel


/-! ## Hypotheses met: boot, host access, mailboxes, test, management -/

/-- A good image of a stage, a module with it in stages of slot 0, and what a boot finds where all is sound. -/
def fwImg (stage : Nat) : FwImage :=
  { magic := 0x4B533753, stage := stage, body := 1024, svn := 3, build := 1, keyOk := true, sigOk := true, digest := 0 }
def flashed (s : State) (l : List (Nat × FwImage) := [(imageKey 0 1, fwImg 1), (imageKey 0 2, fwImg 2)]) : State :=
  { s with flash := { s.flash with images := l } }
def fine : BootFind := { straps := 1, channelsFailed := [], memoryOk := true, domainsOk := true, leaves := [], leafReports := [], arraysFailed := [] }

theorem met_ModuleBootsAndResets :
    State.reset.powered = true ∧ State.reset.failed = false ∧ State.reset.rd Reg.GLB_BOOT_STAGE = 0 ∧ State.reset.verifies 0 1 = false
    ∧ State.reset.verifies 1 1 = false ∧ (flashed State.reset).flash.pref % 2 = 0 ∧ (flashed State.reset).failCount 0 < 3
    ∧ (flashed State.reset).verifies 0 1 = true ∧ (flashed State.reset).verifies 0 2 = true ∧ (flashed State.reset).powered = true
    ∧ (flashed State.reset).failed = false ∧ (flashed State.reset).rd Reg.GLB_BOOT_STAGE = 0
    ∧ (flashed State.reset [(imageKey 0 1, fwImg 1)]).verifies 0 1 = true ∧ (flashed State.reset [(imageKey 0 1, fwImg 1)]).verifies 0 2 = false
    ∧ (flashed State.reset [(imageKey 0 1, fwImg 1)]).verifies 1 2 = false ∧ fine.memoryOk = true ∧ fine.domainsOk = true ∧ fine.channelsFailed = []
    ∧ fine.leaves = [] ∧ (∀ l, l < 4 → (flashed State.reset).rd (Reg.LL_STATE_DISAGREE l) ≤ 2)
    ∧ ({ fine with memoryOk := false } : BootFind).memoryOk = false ∧ State.reset.strapsDue = true ∧ up.booted = true ∧ State.reset.perst = false
    ∧ State.reset.rd Reg.GLB_BOOT_STAGE < 4 ∧ ({ up with powered := false } : State).powered = false := by
  decide +kernel

theorem met_HostReachesRegistersAndMemory :
    up.powered = true ∧ (up.rd Reg.MSIX_PBA).testBit 3 = false ∧ ((up.wr Reg.MSIX_PBA 8).rd Reg.MSIX_PBA).testBit 3 = true
    ∧ 0x3FFFFF8 + 8 ≤ up.directBytes ∧ (up.hmRead 0x3FFFFF8 8).2.isBad = false ∧ up.directBytes < 0x3FFFFF9 + [1#8, 1, 1, 1, 1, 1, 1, 1].length
    ∧ State.reset.rd Reg.GLB_BOOT_STAGE < 4
    ∧ (let s := up.wr Reg.GLB_BOOT_STAGE 6; s.rd Reg.GLB_BOOT_STAGE = 6 ∧ s.failed = false ∧ s.powered = true ∧ (s.hmRead 4096 8).2.isBad = false)
    ∧ up.perst = false ∧ up.booted = true ∧ up.failed = false ∧ State.reset.booted = false := by
  decide +kernel

/-- Mailbox 0 of a booted module with a command given and its arguments. -/
def mbx (opc a0 a1 a2 a3 : Nat) (running : Bool := false) : State :=
  (((((up.wr (Reg.MBX_CMD_GO 0) 1).wr (Reg.MBX_CMD_OPC 0) opc).wr (Reg.MBX_ARG_ARG 0 0) a0).wr (Reg.MBX_ARG_ARG 0 1) a1).wr (Reg.MBX_ARG_ARG 0 2) a2).wr
    (Reg.MBX_ARG_ARG 0 3) a3 |>.modMbox 0 (fun b => { b with running := running })

/-- The configuration record of a rack of one module after its CRC, as pieces, and the whole of it. -/
def cfgParts : List (List Byte) :=
  [[0, 0, 1, 1] ++ List.replicate 124 0, List.replicate 128 0, List.replicate 128 0, 1 :: List.replicate 127 0, List.replicate 128 0,
    List.replicate 128 0, List.replicate 128 0, List.replicate 112 0]
def cfgRec : List Byte := leBytes 4 0x47464E43 ++ leBytes 2 1024 ++ leBytes 2 0 ++ leBytes 4 0x19fb4d6d ++ leBytes 4 0 ++ cfgParts.flatten

/-- The CRC after each piece. -/
theorem cfgRec_crc : crc32c (cfgRec.drop 16) = 0x19fb4d6d := by
  rw [show cfgRec.drop 16 = cfgParts.flatten from rfl, crc32c]
  simp only [cfgParts, List.flatten_cons, List.flatten_nil, List.append_nil]
  rw [List.foldl_append, List.foldl_append, List.foldl_append, List.foldl_append, List.foldl_append, List.foldl_append, List.foldl_append,
    show List.foldl crcByte 0xFFFFFFFF ([0, 0, 1, 1] ++ List.replicate 124 0) = 0x1bc446be by decide +kernel,
    show List.foldl crcByte 0x1bc446be (List.replicate 128 0) = 0x28494ad1 by decide +kernel,
    show List.foldl crcByte 0x28494ad1 (List.replicate 128 0) = 0x41842a97 by decide +kernel,
    show List.foldl crcByte 0x41842a97 (1 :: List.replicate 127 0) = 0x3e3f56d2 by decide +kernel,
    show List.foldl crcByte 0x3e3f56d2 (List.replicate 128 0) = 0xe8a72664 by decide +kernel,
    show List.foldl crcByte 0xe8a72664 (List.replicate 128 0) = 0xb4f3df27 by decide +kernel,
    show List.foldl crcByte 0xb4f3df27 (List.replicate 128 0) = 0x579afcf6 by decide +kernel,
    show List.foldl crcByte 0x579afcf6 (List.replicate 112 0) = 0xe604b292 by decide +kernel]
  rfl

theorem cfgRec_valid (s : State) (h : s.posY = 0 ∧ s.posX = 0) : s.cfgValid cfgRec = true := by
  rw [State.cfgValid, cfgPasses, cfgRec_crc, h.1, h.2]
  decide +kernel

/-- The header of a stage 2 image with SVN 4, BUILD 7 and a body of 1,024 bytes, at 4096. -/
def imaged (s : State) : State :=
  { s with hm := s.hm.writeN 4096 [0x53, 0x37, 0x53, 0x4B, 2, 0, 0, 0, 0, 4, 0, 0, 4, 0, 0, 0, 7, 0, 0, 0, 0, 0, 0, 0] }

def withCfg (s : State) : State := { s with hm := (s.hm.writeN 4096 (cfgRec.take 20)).writeN 4496 [1] }

theorem met_MailboxCommandsComplete :
    (mbx 0 0 0 0 0).mbxReady 0 0 = true ∧ (mbx 2 4096 1024 0 0).mbxReady 0 2 = true ∧ (mbx 2 4096 1024 0 0).mbxArg 0 1 = 1024
    ∧ (mbx 2 0x3FFFC00 1024 0 0).mbxHm 0x3FFFC00 1024 = true ∧ ((mbx 2 4096 1024 0 0).hmRead 4096 1024).2.isBad = false
    ∧ (mbx 2 4096 1024 0 0).cfgValid ((mbx 2 4096 1024 0 0).hm.readN 4096 1024) = false ∧ (mbx 3 4096 0 0 0).mbxReady 0 3 = true
    ∧ ({ mbx 3 4096 0 0 0 with config := [1] } : State).config ≠ [] ∧ ({ mbx 3 4096 0 0 0 with config := [1] } : State).mbxReady 0 3 = true
    ∧ (mbx 3 4096 0 0 0).mbxHm 4096 1024 = true ∧ (mbx 4 4096 3072 0x102 0).mbxReady 0 4 = true ∧ fld 0x102 0 2 = 2
    ∧ fld 0x102 8 1 ≠ (mbx 4 4096 3072 0x102 0).rd Reg.GLB_BOOT_SLOT ∧ (imaged (mbx 4 4096 3072 0x102 0)).mbxHm 4096 3072 = true
    ∧ (imaged (mbx 4 4096 3072 0x102 0)).hmBad = [] ∧ (imaged (mbx 4 4096 3072 0x102 0)).mbxReady 0 4 = true
    ∧ (imaged (mbx 4 4096 3072 0x102 0)).mbxArg 0 0 = 4096
    ∧ (imaged (mbx 4 4096 3072 0x102 0)).imageAt 4096 ⟨true, true, 0⟩ = { fwImg 2 with build := 7, digest := 0, svn := 4 }
    ∧ 3072 = 2048 + (fwImg 2).body ∧ (fwImg 2).body ≤ bodyLimit 2 ∧ imageShaped { fwImg 2 with build := 7, digest := 0, svn := 4 } 2 = true
    ∧ (imaged (mbx 4 4096 3072 0x102 0)).fuses.counter ≤ 4 ∧ (mbx 4 0 0 2 0).stage = 4 ∧ fld 2 8 1 = (mbx 4 0 0 2 0).rd Reg.GLB_BOOT_SLOT
    ∧ (mbx 4 0 0 2 0).mbxReady 0 4 = true ∧ (mbx 5 1 0 0 0).mbxReady 0 5 = true ∧ (mbx 6 0 0 0 0).mbxReady 0 6 = true
    ∧ (flashed (mbx 6 0 0 0 0)).image? ((mbx 6 0 0 0 0).rd Reg.GLB_BOOT_SLOT) 1 = some (fwImg 1)
    ∧ (flashed (mbx 6 0 0 0 0)).image? 0 2 = some (fwImg 2) ∧ (mbx 7 4096 0 0 0).mbxReady 0 7 = true ∧ (mbx 7 4096 0 0 0).mbxHm 4096 396 = true
    ∧ (mbx 0 0 0 0 0).mbxGo 0 = true ∧ (((mbx 0 0 0 0 0).mbxEnd 0 0 0 0).mbox 0).result = some (0, 0, 0)
    ∧ ((mbx 0 0 0 0 0).mbxEnd 0 0 0 0).powered = true ∧ ((mbx 0 0 0 0 0).mbxEnd 0 0 0 0).perst = false := by
  decide +kernel

theorem met_MailboxCommandsComplete_record :
    (withCfg (mbx 2 4096 1024 0 0)).cfgValid cfgRec = true ∧ ((withCfg (mbx 2 4096 1024 0 0)).hmRead 4096 1024).2.isBad = false
    ∧ (withCfg (mbx 2 4096 1024 0 0)).mbxReady 0 2 = true ∧ (withCfg (mbx 2 4096 1024 0 0)).hm.readN 4096 1024 = cfgRec := 
  ⟨cfgRec_valid _ (by decide +kernel),
    by decide +kernel⟩

/-- LM_MARGIN of LPDDR channel 63, ATB_MEASURE, SERDES_EYE of lane 3 of port 0, UCIE_MARGIN and OPT_LOOPBACK, given or running. -/
def lmm (r : Bool := false) : State := mbx 1 63 2 1 4096 r
def atb (r : Bool := false) : State := mbx 0x10 0 4 0 0 r
def eye (r : Bool := false) : State :=
  ((mbx 0x11 0x300 4096 0 0 r).wr (Reg.LK_STATE_STATE 0) 4).wr (Reg.LK_STATE_RX_MASK 0) 0x3FF |>.modPort 0 (fun t => { t with eye := if r then some 0 else none })
def ucm (r : Bool := false) : State :=
  (mbx 0x12 0x300 4096 0 0 r).modLeaf 0 (fun l => { l with mods := l.mods.setIfInBounds 3 { l.mod 3 with margin := if r then some 0 else none } })
def loopb (r : Bool := false) : State := (mbx 0x13 0 0 0 0 r).wr (Reg.OE_LOCK_LOCKED 0) 1

theorem met_TestCommandsAndTaps_TestCommandsStartAndEnd :
    up.testLow = false ∧ lmm.mbxReady 0 1 = true ∧ lmm.lmKind 0 ≤ 2 ∧ lmm.lmCh 0 ≤ 63 ∧ lmm.resultOk 4096 (16 + 64 * marginPins 2) = true
    ∧ lmm.mbxArg 0 3 = 4096 ∧ lmm.chState 63 = 0 ∧ (lmm.chan 63).margining = none ∧ (lmm true).mbxRuns 0 1 = true ∧ (lmm true).chState 63 = 0
    ∧ up.rdb Reg.TEST_CTL_FIELD_EN = true ∧ atb.mbxReady 0 0x10 = true ∧ atb.rdb Reg.TEST_CTL_FIELD_EN = true
    ∧ atbNode (atb.atbDie 0) (atb.atbNum 0) = true ∧ atb.atbLeafBad (atb.atbDie 0) = false ∧ (atb true).mbxRuns 0 0x10 = true
    ∧ (atb true).atbLeafBad 0 = false ∧ [0, 1, 2, 4095].length = (atb true).atbCount 0 ∧ (∀ c ∈ [0, 1, 2, 4095], c ≤ 4095)
    ∧ eye.mbxReady 0 0x11 = true ∧ eye.rdb Reg.TEST_CTL_FIELD_EN = true ∧ eye.resultOk 4096 400 = true ∧ eye.eyePort 0 < 20 ∧ eye.lk 0 = 4
    ∧ eye.targetBusy 0 (eye.testsPort 0) = false ∧ (eye.rxMask 0).getLsbD (eye.eyeLane 0) = true ∧ (eye true).mbxRuns 0 0x11 = true
    ∧ ((eye true).port 0).eye = some 0 ∧ ucm.mbxReady 0 0x12 = true ∧ ucm.rdb Reg.TEST_CTL_FIELD_EN = true ∧ ucm.resultOk 4096 288 = true
    ∧ ucm.leafUp (ucm.umLeaf 0) = true ∧ (ucm.umUcie 0).disabled = false
    ∧ ucm.targetBusy 0 (fun k => ucm.mbxOpc k == 0x12 && ucm.umLeaf k == ucm.umLeaf 0 && ucm.umMod k == ucm.umMod 0) = false
    ∧ (ucm true).mbxRuns 0 0x12 = true ∧ ((ucm true).umUcie 0).margin = some 0 ∧ ((ucm true).umUcie 0).disabled = false
    ∧ (ucm true).leafUp ((ucm true).umLeaf 0) = true ∧ ((ucm true).umUcie 0).retraining = false ∧ loopb.mbxReady 0 0x13 = true
    ∧ loopb.rdb Reg.TEST_CTL_FIELD_EN = true ∧ loopb.loopEngine 0 < 10 ∧ loopb.targetBusy 0 (loopb.testsPort (loopb.loopPort 0)) = false
    ∧ loopb.lk (loopb.loopPort 0) = 0 ∧ loopb.loopLocked 0 = true ∧ (loopb true).mbxRuns 0 0x13 = true
    ∧ (eye.wr Reg.TEST_CTL_FIELD_EN 0).mbxReady 0 0x11 = true ∧ (eye.wr Reg.TEST_CTL_FIELD_EN 0).rdb Reg.TEST_CTL_FIELD_EN = false := by
  decide +kernel

theorem met_TestCommandsAndTaps_TapInstructionsLoad :
    (∀ m o, m < 4 → up.mbxRuns m o = false) ∧ up.powered = true ∧ ({ up with testLow := true } : State).testLow = true ∧ up.testLow = false
    ∧ tapOpcode (0x55 : Byte).toNat = false ∧ (atb true).mbxRuns 0 0x10 = true ∧ (atb true).powered = true := 
  ⟨(fun m o h => by rw [State.mbxRuns, show up.mbxGo m = false from (by decide +kernel : ∀ m, m < 4 → up.mbxGo m = false) m h, Bool.and_false, Bool.false_and, Bool.false_and, Bool.false_and]),
    by decide +kernel⟩

theorem met_ManagementAndSpdmAnswer_ManagementBusAnswers :
    up.powered = true ∧ up.i3cAddr = none ∧ ({ up with i3cAddr := some 9 } : State).i3cAddr.isSome = true
    ∧ ({ up with ibis := [1] } : State).ibis = 1 :: [] ∧ up.ibis = [] := by
  decide +kernel

/-- A connection whose version is fixed, and one whose algorithms are too. -/
def spdm (algs : Bool) : State := { up with spdmVer := some 0x12, spdmAlgs := algs, spdmLog := [1], flash := { up.flash with cert := [1] } }

theorem met_ManagementAndSpdmAnswer_SpdmAnswersInOrder :
    up.booted = true ∧ up.failed = false ∧ up.powered = true ∧ up.perst = false ∧ ({ up with spdmLog := [1] } : State).spdmLog ≠ []
    ∧ up.spdmVer = none ∧ (spdm false).spdmVer.isSome = true ∧ (0x11 : Byte) ≠ 0x12 ∧ (0x11 : Byte) ≠ 0x13 ∧ up.spdmAlgs = false
    ∧ (spdm false).spdmVer = some 0x12 ∧ (spdm false).spdmAlgs = false ∧ (BitVec.allOnes 32).toNat &&& spdmAsym ≠ 0
    ∧ (BitVec.allOnes 32).toNat &&& spdmHash ≠ 0 ∧ (spdm true).spdmVer = some 0x12 ∧ (spdm true).spdmAlgs = true ∧ 0 < (spdm true).flash.cert.length
    ∧ (6 : Byte).toNat ≤ 6 ∧ (0xFF : Byte).toNat = 0xFF ∧ (1 : Byte) ≠ 0 := by
  decide +kernel


/-! ## Hypotheses met: reset, the queue, registers -/

theorem met_StepConsumesOneCommandAndKeepsTheMemories :
    nextOf (step { up with pending := [.beaconToggle] }) ≠ none ∧ nextOf (step State.reset) ≠ none := by
  decide +kernel

theorem met_StepConsumesOneCommandAndKeepsTheMemories_canonical :
    ({ State.reset with pending := [.beaconToggle] } : State).memWf ∧ nextOf (step { State.reset with pending := [.beaconToggle] }) ≠ none :=
  ⟨⟨rfl, rfl, rfl, State.reset_core_sp_wf⟩, by decide +kernel⟩

theorem met_AntiRollbackCounterNeverFalls :
    State.reset.fuses.counter ≤ up.fuses.counter ∧ nextOf (step { up with pending := [.mbxNop 0] }) ≠ none := by
  decide +kernel

theorem met_HardWiredRegistersHold : (63 : Fin 64) ≠ 0 ∧ (1 : Fin 64) ≠ 63 ∧ (7 : Fin 8) ≠ 0 ∧ (1 : Fin 8) ≠ 7 := by decide

theorem met_VectorRegistersReadBack : (List.replicate 256 (1 : Word32)).length = 256 ∧ (31 : Nat) ≠ 0 := by decide +kernel

/-! ## Ill-formed commands are refused -/

/-- Every packet field one past its greatest value, and a payload of 4,097 bytes. -/
theorem test_packet_fields_are_checked :
    (pkt 1 1 0 [1]).wf = true ∧ [{ pkt 1 1 0 [] with hops := 32 }, { pkt 1 1 0 [] with dst := 4096 }, { pkt 1 1 0 [] with src := 4096 },
      { pkt 1 1 0 [] with job := 65536 }, { pkt 1 1 0 [] with len := 65 }, { pkt 1 1 0 [] with tag := 32768 }, { pkt 1 1 0 [] with space := 8 },
      { pkt 1 1 0 [] with count := 64 }, { pkt 1 1 0 [] with sigref := 65536 }, { pkt 1 1 0 [] with inc := 32768 },
      { pkt 1 1 0 [] with sigtum := 65536 }, { pkt 1 1 0 [] with sigbytes := 2 ^ 32 },
      { pkt 1 1 0 [] with payload := List.replicate 4097 0 }].all (fun p => !p.wf) = true := by
  decide +kernel

/-- A packet that does not fit its header. -/
def badPkt : Packet := { pkt 1 1 0 [] with dst := 4096 }

theorem test_ill_formed_packets_are_refused :
    [Instr.putPacket badPkt, .putSigPacket badPkt, .putMcPacket badPkt, .getPacket badPkt [], .atomPacket badPkt [], .tumAddPacket badPkt,
      .tumSetPacket badPkt, .tumReadPacket badPkt, .kvUpdate badPkt, .ack badPkt, .getResp badPkt, .atomResp badPkt, .tumResp badPkt, .mcMiss badPkt,
      .collDataPacket badPkt, .receipt badPkt, .consumed badPkt, .resend badPkt .clean [], .collAbort badPkt, .done badPkt, .miss badPkt,
      .packetRoute badPkt none].all (fun i => !i.wf) = true := by
  decide +kernel

theorem test_ill_formed_tasks_are_refused :
    [Instr.taskPlace 65536 none [], .taskStart 65536, .preemptRequest 65536 none, .preemptRequest 1 (some [65536]), .preemptSave ⟨65536, []⟩,
      .preemptAbandon 65536, .preemptSaveDone 65536 [], .taskRestore 65536, .taskRestoreDone 65536 [], .taskEnd 65536, .deadlockSample 65536,
      .deadlockFire 65536, .runAheadReadReturn 0 32768 [], .doorbellTail 0 3 0, .doorbellCplHead 0 16 0,
      .jobFatalIgnoreExpiry 65536, .jobFatalNotice 65536 1 0, .jobFatalNotice 1 256 0, .jobFatalNotice 1 1 4096].all (fun i => !i.wf) = true := by
  decide +kernel

theorem test_ill_formed_link_commands_are_refused :
    [Instr.trainingMarkerRx 0 3 [0] (List.replicate 12 0) false, .trainingMarkerRx 0 3 (List.replicate 8 0) [0] false,
      .frameRx 0 ⟨List.replicate 2079 0, 0, 0, false⟩, .markerRx 0 [{ phys := 3, bytes := [0] }], .heartbeat 0 4096 0 0 0, .heartbeat 0 0 32 0 0, .heartbeat 0 0 0 16 0,
      .vcsel 0 32, .abort 0 32, .sync 0 (List.replicate 33 0), .violation 0 256 0 0, .violation 0 0 256 0, .down 0 256, .key 0 4096 0 false false false 0,
      .key 0 0 32 false false false 0, .creditInit 0 (List.replicate 33 0), .reject 0 256 0 0, .reject 0 0 4096 0, .reject 0 0 0 32, .linkDown 0 256,
      .linkDownNotice 4096 0 0, .linkDownNotice 0 20 0, .linkDownNotice 0 0 256, .linkUpNotice 4096 0, .linkUpNotice 0 20, .declaration 4096 0,
      .declaration 0 256, .padlockSet 4096, .holdNotice 32768, .requestResend 32768, .requestTimeout 32768, .dedupRowGrant 4096, .dedupRowFree 4096,
      .putSigCountExpiry 4096 1, .putSigCountExpiry 0 0, .putSigCountExpiry 0 65536].all (fun i => !i.wf) = true := by
  decide +kernel

theorem test_ill_formed_host_commands_are_refused :
    [Instr.boot [{ fwImg 1 with svn := 2 ^ 32 }] fine, .boot [{ fwImg 1 with stage := 2 ^ 32 }] fine, .boot [{ fwImg 1 with body := 2 ^ 32 }] fine,
      .bar2Access 0x10000000 none 1 [] [], .bar2Access 0 (some [1]) 2 [true, true] [], .bar2Access 0 (some [1]) 1 [] [],
      .registerWrite 0x4000000 .full 0, .optLoopback 0 (2 ^ 64)].all (fun i => !i.wf) = true := by
  decide +kernel

/-! ## Results that the manual gives -/

/-- R2's example: byte 0x40 of the scratchpad of core 17 on this module. -/
theorem test_sp_address : gAddr 0xFFF 2 (17 * 2 ^ 42 + 0x40) = 0xFFF2440000000040 ∧ spCore (gOff 0xFFF2440000000040) = 17
    ∧ spByte (gOff 0xFFF2440000000040) = 0x40 ∧ gSpace 0xFFF2440000000040 = 2 := by
  decide +kernel

/-- The example after R19: straps of slot 2 of tray 5 in the rack Z = 3, W = 1 make module 746. -/
theorem test_module_number :
    let s := ({ up with straps := 0x52 }.wr Reg.MOD_POSITION_Z 3).wr Reg.MOD_POSITION_W 1
    s.modNum = 746 ∧ s.sidParityErr = false := by
  decide +kernel

/-- The encodings of R80's listing, and the descriptor of its loop. -/
theorem test_listing_words :
    baseWord { hdr 7 with ext := some 0x0400000000000000 } 0x60 (packI { td := 2, ra := 11, rb := 0, rc := 0, cls := 2, hint := 0, scope := 0 })
        = 0x607FF1022C002000
      ∧ baseWord (hdr 0) 0x03 (11 * 2 ^ 31 + 11 * 2 ^ 25 + 0x20000) = 0x030FF00596020000
      ∧ Tile.of 0x00000800000000000400004004100000#128
        = { base := 0x100000, fmt := 1, rows := 64, cols := 1024, scale := 0, stride := 2048 }
      ∧ (Tile.of 0x00000800000000000400004004100000#128).packedLen = 0x20000 := by
  decide +kernel

/-- The example after R32 of a T2 block. -/
theorem test_t2_block :
    Fmt.decScaled 0xC 1 0x7C = .fin false 1 (-3) ∧ Fmt.decScaled 0xC 3 0x7C = .fin true 1 (-3) ∧ Fmt.decScaled 0xC 0 0x7C = Machine.Num.scale (-3) .zero := by
  decide +kernel

/-- R35's example: a block of 13.0, −3.1, 0.6 and 0.5 to MXFP4. -/
theorem test_mxfp4_block : encBlock 9 false [f32 0x41500000, f32 0xC0466666, f32 0x3F19999A, f32 0x3F000000] = (0x80, [0x7, 0xB, 0x1, 0x0]) := by
  decide +kernel

/-- R35's example: 0.1 to BF16, E4M3 and E5M2. -/
theorem test_narrow_tenth :
    fmtBf16.enc false (f32 0x3DCCCCCD) = 0x3DCD ∧ fmtE4m3.enc false (f32 0x3DCCCCCD) = 0x1D ∧ fmtE5m2.enc false (f32 0x3DCCCCCD) = 0x2E := by
  decide +kernel

/-- R39's example: three chunks of K = 384 in one pass, plain and transposed. -/
def smallPs : List Machine.Num := (f32 0x39C00000).mul (f32 0x39000000) :: List.replicate 127 Machine.Num.zero
def onePs : List Machine.Num := Machine.Num.one :: List.replicate 127 Machine.Num.zero

theorem test_chunk_merge :
    (mmElem false 0 [] (onePs ++ smallPs ++ smallPs) 0).1 = 0x3F800000 ∧ (mmElem true 0 [] (onePs ++ smallPs ++ smallPs) 0).1 = 0x3F800001 := by
  decide +kernel

/-- R39's example as three MMs of a chunk each, streamed from the highest K down through transposed slots and from the lowest
K up through plain ones. -/
theorem test_transposed_chunks_merge_down :
    (mmElem true 0 [] onePs (mmElem true 128 [] smallPs (mmElem true 256 [] smallPs 0).1).1).1 = 0x3F800001
      ∧ (mmElem false 256 [] smallPs (mmElem false 128 [] smallPs (mmElem false 0 [] onePs 0).1).1).1 = 0x3F800000 := by
  decide +kernel

/-- The example after R13: with physical core 5 of leaf 1 fused, cores 16 and 17 lie at the physical indexes 4 and 6. -/
theorem test_physical_index :
    let s := { up with fuses := { up.fuses with fused := #v[12, 5, 12, 12] } }
    (s.physicalIndex 16, s.physicalIndex 17) = (4, 6) := by
  decide +kernel

/-- The example after R49: an MXFP4 tile of 128 rows and 11,264 columns. -/
theorem test_block_tile :
    let t : Tile := { base := 0x100000, fmt := 9, rows := 128, cols := 11264, scale := 0x1B0000, stride := 0 }
    t.rowLen = 5632 ∧ t.planeEnd = 0x1B0000 ∧ t.scaleLen = 45056 ∧ t.check = none := by
  decide +kernel

/-- R165's example: the channels of three LM lines. -/
theorem test_lm_channels : lmChannel 0x4012345600 = 39 ∧ lmChannel 0x4012345700 = 38 ∧ lmChannel 0x8012345600 = 32 := by decide +kernel

/-- R84's example: lt7 of core 20. -/
theorem test_lt_offset : ltOff 20 7 = 0x1A038 ∧ tumOfOff 0x1A038 = some (.inr (20, 7)) ∧ tumOfOff (0x960) = some (.inl 300) := by decide +kernel

/-- The example after R202: amax 3.0 gives the exponent −7 before the headroom. -/
theorem test_kv_scale : scaleExp (f32 0x40400000) = -7 := by decide +kernel

/-- The routing entry of R250's example. -/
theorem test_routing_entry :
    ({ RtFields.none_ with xz := true, pz := 14, py := 7, px := 5, dz := 5, dy := 8, dx := 2 } : RtFields).entry = 0x0000120BF29DDF21 := by
  decide +kernel

/-- The ports of R250's route from (2, 5, 6, 1) to (6, 0, 1, 2). -/
theorem test_route_ports :
    let s := (((up.wr Reg.RT_CTL_ZLEN 8).wr Reg.RT_CTL_WLEN 8).wr Reg.RT_ZDIR_DIR (shortBits 8)).wr Reg.RT_WDIR_DIR (shortBits 8)
    [0x3AA, 0x5AA, 0x5EA, 0x42A, 0x46A, 0x442].map (fun m => s.nominalPort m 0x446) = [16, 14, 14, 14, 7, 5] := by
  decide +kernel

/-- CRC-32C of the nine digits , which R267 gives. -/
theorem test_crc32c : crc32c [0x31, 0x32, 0x33, 0x34, 0x35, 0x36, 0x37, 0x38, 0x39] = 0xE3069283 := by decide +kernel

/-! ## One step -/

/-- What a core looks like after a command. -/
def coreAfter (i : Instr) (s : State) : Option Core := (nextOf (exec i s)).map (fun t => t.core 0)

/-- `busy` at an instruction of queue 0, with s1 set. -/
def withS1 (opc operands : Nat) (v : Word) : State := (iss (hdr 0) opc operands).modCore 0 (fun k => k.sset 1 v)

/-- ADD wraps at 64 bits and moves the core on by one word; on s0 it writes nothing. -/
theorem test_add_wraps :
    (coreAfter (.add 0 (hdr 0) 2 1 (.imm 3)) (withS1 (srcBOpc (.imm 3) 0x02) (packAB 2 1 (.imm 3)) (BitVec.allOnes 64))).map (fun k => (k.sget 2, k.ip)) = some (2, 1)
      ∧ (coreAfter (.add 0 (hdr 0) 0 1 (.imm 3)) (iss (hdr 0) (srcBOpc (.imm 3) 0x02) (packAB 0 1 (.imm 3)))).map (fun k => (k.sget 0, k.ip)) = some (0, 1) := by
  decide +kernel

/-- A word that the core has not fetched is not what it issues. -/
theorem test_issue_takes_the_fetched_word :
    (coreAfter (.add 0 (hdr 0) 2 1 (.imm 3)) (iss (hdr 0) (srcBOpc (.imm 3) 0x02) (packAB 2 1 (.imm 4)))).map (fun k => (k.sget 2, k.ip)) = some (0, 0) := by
  decide +kernel

/-- A LOOP on s0 tests the all-ones value of 0 − 1 and branches every time. -/
theorem test_loop_on_s0 : (coreAfter (.loop 0 (hdr 0) 0 5) (iss (hdr 0) 0x31 5)).map (fun k => k.ip) = some 5 := by decide +kernel
/-- SRA keeps the sign, SHR does not. -/
theorem test_shifts :
    (coreAfter (.sra 0 (hdr 0) 2 1 (.imm 63)) (withS1 (srcBOpc (.imm 63) 0x12) (packAB 2 1 (.imm 63)) (1 <<< 63))).map (fun k => k.sget 2) = some (BitVec.allOnes 64)
      ∧ (coreAfter (.shr 0 (hdr 0) 2 1 (.imm 63)) (withS1 (srcBOpc (.imm 63) 0x10) (packAB 2 1 (.imm 63)) (1 <<< 63))).map (fun k => k.sget 2) = some 1 := by
  decide +kernel
/-- A false guard moves the core on and does nothing else. -/
theorem test_false_guard :
    (coreAfter (.li 0 { hdr 0 with gp := 1 } 2 9) (withWord busy { hdr 0 with gp := 1 } 0x1C (2 * 2 ^ 31 + 9))).map (fun k => (k.sget 2, k.ip)) = some (0, 1) := by
  decide +kernel
/-- Before boot a register write outside the identity and MSI-X blocks has no effect. -/
theorem test_early_write :
    (nextOf (exec (.registerWrite 0x410000 .full 5) State.reset)).map (fun t => t.rd (Reg.RT_ENTRY 0 0)) = some 0 := by
  decide +kernel

end Sys2Proof.Tests
end

section
/-! Issue under a false guard (R71), and the tile-descriptor instructions (R79). -/

namespace Sys2Proof.Machine

/-! ### Instructions whose command is one use of `State.issue`, and what a false guard makes of them (R71) -/

/-- p0 reads 1, so under GP = 0 the guard is GN inverted (R45, R71). -/
theorem Core.guard_p0 (k : Core) (h : Hdr) (hp : h.gp.val = 0) : k.guard h = !h.gn := by
  simp [Core.guard, Core.pget, hp]

/-- The command of instruction `i` is the issue of these fields on core c, with some effect once it issues. -/
def IssuesAs (i : Instr) (c : CoreId) (h : Hdr) (opc operands : Nat) : Prop :=
  ∃ f : State → State, ∀ s, exec i s = .next (s.issue c.val h opc operands f)

section
variable (c : CoreId) (h : Hdr)

theorem add_issuesAs (rd ra : Fin 64) (b : SrcB) : IssuesAs (.add c h rd ra b) c h (srcBOpc b 0x02) (packAB rd ra b) :=
  ⟨_, fun _ => rfl⟩

theorem br_issuesAs (off : BitVec 16) : IssuesAs (.br c h off) c h 0x30 off.toNat := ⟨_, fun _ => rfl⟩

theorem loop_issuesAs (ra : Fin 64) (off : BitVec 16) : IssuesAs (.loop c h ra off) c h 0x31 (ra.val * 2 ^ 31 + off.toNat) :=
  ⟨_, fun _ => rfl⟩

theorem ld_issuesAs (rd ra : Fin 64) (imm : BitVec 25) (u : List Upset) :
    IssuesAs (.ld c h rd ra imm u) c h 0x1E (rd.val * 2 ^ 31 + ra.val * 2 ^ 25 + imm.toNat) := ⟨_, fun _ => rfl⟩

theorem endOp_issuesAs (u : List Upset) : IssuesAs (.endOp c ⟨h, u⟩) c h 0x01 0 := ⟨_, fun _ => rfl⟩

theorem nop_issuesAs : IssuesAs (.nop c (.issue h ())) c h 0x00 0 := ⟨_, fun _ => rfl⟩

theorem tumAdd_issuesAs (g : FmtG) : IssuesAs (.tumAdd c (.issue h g)) c h 0x40 (packG g) := ⟨_, fun _ => rfl⟩

theorem get_issuesAs (f : FmtI) : IssuesAs (.get c (.issue h f)) c h 0x60 (packI f) := ⟨_, fun _ => rfl⟩

theorem mm_issuesAs (f : FmtN) : IssuesAs (.mm c (.issue h f)) c h 0x81 (packN f) := ⟨_, fun _ => rfl⟩

theorem vadd_issuesAs (f : FmtT) : IssuesAs (.vadd c (.issue h f)) c h 0xA2 (packT f) := ⟨_, fun _ => rfl⟩

theorem fenceSystem_issuesAs : IssuesAs (.fenceSystem c h) c h 0x52 0 := ⟨_, fun _ => rfl⟩

end

/-- Core c would issue the instruction that it fetches, if only the guard of `h` were true. -/
structure State.Skips (s : State) (c : CoreId) (h : Hdr) : Prop where
  alive     : s.failed = false
  ready     : (s.core c.val).canIssue = true
  room      : (s.core c.val).windowFull = false
  unguarded : (s.core c.val).guard h = false
  inside    : (s.core c.val).ip + h.words ≤ 32767
  defined   : undefinedWord (s.core c.val).fetched = false

/-- The issue of a skipped instruction only moves the core on, whatever the effect would have been (R71). -/
theorem State.Skips.issue {s : State} {c : CoreId} {h : Hdr} (k : s.Skips c h) (opc operands : Nat) (f : State → State)
    (fetched : (s.core c.val).fetches h opc operands = true) : s.issue c.val h opc operands f = s.moved c h id :=
  State.issue_guardFalse s c h opc operands f k.alive k.ready fetched k.defined k.room k.unguarded k.inside

/-- So does the command of any instruction that issues through `State.issue` (R71). -/
theorem State.Skips.exec {s : State} {c : CoreId} {h : Hdr} (k : s.Skips c h) {i : Instr} {opc operands : Nat}
    (as : IssuesAs i c h opc operands) (fetched : (s.core c.val).fetches h opc operands = true) :
    exec i s = .next (s.moved c h id) := by
  obtain ⟨f, hf⟩ := as
  rw [hf, k.issue opc operands f fetched]

/-- Settles O11: every listed instruction issues through `State.issue`, which retires it under a false guard. -/
theorem falseGuardOnlyMovesOn : Obligations.FalseGuardOnlyMovesOn := by
  unfold Obligations.FalseGuardOnlyMovesOn
  intro c h rd ra b i imm u g fi fn ft s
  refine ⟨rfl, Core.guard_p0 _ h, fun alive ready room unguarded inside defined => ?_⟩
  have k : s.Skips c h := ⟨alive, ready, room, unguarded, inside, defined⟩
  exact ⟨k.issue, k.exec (loop_issuesAs c h ra i), k.exec (add_issuesAs c h rd ra b), k.exec (br_issuesAs c h i),
    k.exec (ld_issuesAs c h rd ra imm u), k.exec (endOp_issuesAs c h u), k.exec (nop_issuesAs c h),
    k.exec (tumAdd_issuesAs c h g), k.exec (get_issuesAs c h fi), k.exec (mm_issuesAs c h fn),
    k.exec (vadd_issuesAs c h ft), k.exec (fenceSystem_issuesAs c h)⟩

/-! ### Tile descriptors: the field that FSEL selects, and issue on it (R79) -/

/-- Two changes that agree on the core as it stands move it on alike. -/
theorem State.moved_congr {s : State} {c : CoreId} {f g : Core → Core} (h : Hdr) (e : f (s.core c.val) = g (s.core c.val)) :
    s.moved c h f = s.moved c h g := by
  unfold State.moved State.modCore
  simp only [e]

/-- An FSEL of 8-15 selects no field (R79). -/
theorem fselField_undefined {f : Nat} (hf : 8 ≤ f) : fselField f = none :=
  match f, hf with
  | _ + 8, _ => rfl

/-- Issue on a descriptor field that FSEL selects changes the core as `f` does on that field, and goes on (R79). -/
theorem State.Issues.tdField_selected {s : State} {c : CoreId} {h : Hdr} {opc operands lo n : Nat} {fsel : Fin 16}
    (i : s.Issues c h opc operands) (sel : fselField fsel.val = some (lo, n)) {f : Nat → Nat → Core → Core} {g : Core → Core}
    (hip : ∀ k, (f lo n k).ip = k.ip) (e : f lo n ((s.taken c h).core c.val) = g ((s.taken c h).core c.val)) :
    s.tdField c h opc operands fsel f = (s.taken c h).moved c h g := by
  unfold State.tdField
  rw [i.issue, sel, ← State.moved_congr h e]
  exact State.advance_moved _ c h (f lo n) hip (by simpa using i.inside)

/-- Issue with an FSEL that selects no field is an undefined encoding (R74, R79). -/
theorem State.Issues.tdField_undefined {s : State} {c : CoreId} {h : Hdr} {opc operands : Nat} {fsel : Fin 16}
    (i : s.Issues c h opc operands) (sel : fselField fsel.val = none) (f : Nat → Nat → Core → Core) :
    s.tdField c h opc operands fsel f
      = (s.taken c h).seqFatal c.val Status.addrRange 0x0101 ((s.taken c h).core c.val).fetched := by
  unfold State.tdField
  rw [i.issue, sel]

section
variable (c : CoreId) (h : Hdr) (td : Fin 32) (fsel : Fin 16) (rx : Fin 64) (imm : BitVec 22) (s : State)

theorem exec_tdSet (ry : Fin 64) :
    exec (.tdSet c h td rx ry) s
      = .next (s.issueCore c.val h 0x34 (td.val * 2 ^ 32 + rx.val * 2 ^ 22 + ry.val * 2 ^ 16)
          (fun k => k.tset td.val (k.sget ry.val ++ k.sget rx.val))) := rfl

theorem exec_tdSetf :
    exec (.tdSetf c h td fsel rx) s
      = .next (s.tdField c h 0x35 (td.val * 2 ^ 32 + fsel.val * 2 ^ 28 + rx.val * 2 ^ 22) fsel
          (fun lo n k => k.tset td.val (tdSetField (k.tget td.val) lo n (k.sget rx.val).toNat))) := rfl

theorem exec_tdSetfi :
    exec (.tdSetfi c h td fsel imm) s
      = .next (s.tdField c h 0x36 (td.val * 2 ^ 32 + fsel.val * 2 ^ 28 + imm.toNat) fsel
          (fun lo n k => k.tset td.val (tdSetField (k.tget td.val) lo n (h.immS imm).toNat))) := rfl

theorem exec_tdAddf :
    exec (.tdAddf c h td fsel imm) s
      = .next (s.tdField c h 0x37 (td.val * 2 ^ 32 + fsel.val * 2 ^ 28 + imm.toNat) fsel
          (fun lo n k => k.tset td.val
            (tdSetField (k.tget td.val) lo n (fld (k.tget td.val).toNat lo n + (h.immS imm).toNat)))) := rfl

theorem exec_tdGetf :
    exec (.tdGetf c h td fsel rx) s
      = .next (s.tdField c h 0x38 (td.val * 2 ^ 32 + fsel.val * 2 ^ 28 + rx.val * 2 ^ 22) fsel
          (fun lo n k => k.sset rx.val (BitVec.ofNat 64 (fld (k.tget td.val).toNat lo n)))) := rfl

end

/-- Settles O10: each instruction issues on the field that FSEL selects, and none is selected by 8-15. -/
theorem tileDescriptorFieldsAreWritten : Obligations.TileDescriptorFieldsAreWritten := by
  unfold Obligations.TileDescriptorFieldsAreWritten
  intro c h td fsel rx ry imm s
  refine ⟨fun i => ?set, fun lo n sel => ⟨fun i => ?setf, fun i => ?setfi, fun i => ?addf, fun i => ?getf⟩, fun big => ?undef,
    rfl, rfl, rfl, rfl, rfl, rfl, rfl, rfl⟩
  case set => rw [exec_tdSet, i.issueCore _ (fun _ => Core.tset_ip _ _ _)]
  case setf => exact (exec_tdSetf ..).trans (congrArg Host.Outcome.next (i.tdField_selected sel (fun _ => Core.tset_ip ..) rfl))
  case setfi => exact (exec_tdSetfi ..).trans (congrArg Host.Outcome.next (i.tdField_selected sel (fun _ => Core.tset_ip ..) rfl))
  case addf => exact (exec_tdAddf ..).trans (congrArg Host.Outcome.next (i.tdField_selected sel (fun _ => Core.tset_ip ..) rfl))
  case getf => exact (exec_tdGetf ..).trans (congrArg Host.Outcome.next (i.tdField_selected sel (fun _ => Core.sset_ip ..) rfl))
  case undef =>
    have unselected := fselField_undefined big
    refine ⟨fun i => ?_, fun i => ?_, fun i => ?_, fun i => ?_⟩
    · rw [exec_tdSetf, i.tdField_undefined unselected]
    · rw [exec_tdSetfi, i.tdField_undefined unselected]
    · rw [exec_tdAddf, i.tdField_undefined unselected]
    · rw [exec_tdGetf, i.tdField_undefined unselected]

end Sys2Proof.Machine
end

section
/-! The end of a collective on a module: what it makes of the cores, of the collective's records and of its handles (R122,
R305, R308). -/

namespace Sys2Proof.Machine

/-! ### Operations that leave every core as it is -/

@[simp] theorem State.bump_cores (s : State) (f : Fld) (n : Nat) : (s.bump f n).cores = s.cores := rfl

@[simp] theorem State.raiseVec_cores (s : State) (v : Nat) : (s.raiseVec v).cores = s.cores := by
  unfold State.raiseVec
  split <;> rfl

@[simp] theorem State.errIrq_cores (s : State) : s.errIrq.cores = s.cores := by
  unfold State.errIrq
  simp only [apply_ite State.cores, State.raiseVec_cores, State.wr_cores, ite_self]

@[simp] theorem State.putRecord_cores (s : State) (f : Fault_) (slot : Nat) : (s.putRecord f slot).cores = s.cores := by
  simp only [State.putRecord, State.hmStore_cores]

/-- A record is counted, replaces one of S0-S2, or goes to the tail of the ring (R415). -/
theorem State.writeRecord_cases {P : State → Prop} (s : State) (f : Fault_) (dropped : P (s.bump Reg.ERR_STAT_S0_COUNT 1))
    (lost : P (s.bump Reg.ERR_STAT_LOST 1)) (replaced : ∀ k, P ((s.putRecord f k).bump Reg.ERR_STAT_LOST 1).errIrq)
    (appended : ∀ t, P ((s.putRecord f t).wr Reg.ERR_PTR_TAIL (t + 1)).errIrq) : P (s.writeRecord f) := by
  unfold State.writeRecord
  split
  · exact dropped
  split
  · exact lost
  split
  · split
    · exact lost
    · split
      · exact replaced _
      · exact lost
  · exact appended _

@[simp] theorem State.writeRecord_cores (s : State) (f : Fault_) : (s.writeRecord f).cores = s.cores :=
  State.writeRecord_cases (P := fun t => t.cores = s.cores) s f (s.bump_cores _ _) (s.bump_cores _ _)
    (fun k => by rw [State.errIrq_cores, State.bump_cores, State.putRecord_cores])
    (fun t => by rw [State.errIrq_cores, State.wr_cores, State.putRecord_cores])

/-- A fault is queued, recorded or waits; it reaches a core only when it is handled (R416). -/
@[simp] theorem State.raise_cores (s : State) (f : Fault_) : (s.raise f).cores = s.cores := by
  unfold State.raise
  dsimp only
  split
  · rfl
  · split
    · exact State.writeRecord_cores _ _
    · rfl

@[simp] theorem State.sendFree_cores (s : State) (c : Nat) (p : Packet) : (s.sendFree c p).cores = s.cores := by
  unfold State.sendFree State.sendC0
  dsimp only
  split
  · split <;> rfl
  · rfl

@[simp] theorem State.sendCtl_cores (s : State) (x : Coll) (dst kind status chunk pkts : Nat) (mask : MaskPair) (gen flags : Nat) :
    (s.sendCtl x dst kind status chunk pkts mask gen flags).cores = s.cores := State.sendFree_cores _ _ _

@[simp] theorem State.passAbort_cores (s : State) (x : Coll) (st : Nat) : (s.passAbort x st).cores = s.cores :=
  foldl_same State.cores _ (fun _ _ => State.sendCtl_cores ..) _ _

@[simp] theorem State.collStatus_cores (s : State) (x : Coll) (st : Nat) : (s.collStatus x st).cores = s.cores := by
  unfold State.collStatus State.hmCount
  dsimp only
  rw [State.hmStore_cores]
  repeat' split
  all_goals exact State.hmStore_cores _ _ _

/-- A core is read from the vector of cores alone. -/
theorem State.core_congr {s t : State} (h : t.cores = s.cores) (c : Nat) : t.core c = s.core c :=
  congrArg (fun v => v.getD c Core.reset) h

/-! ### What closing handles makes of a core -/

/-- A closed handle reads as none, whether or not the core has one of that number. -/
theorem getD_setNone {α : Type} {n : Nat} (v : Vector (Option α) n) (i : Nat) : (v.setIfInBounds i none).getD i none = none := by
  by_cases h : i < n
  · exact getD_set_same v i none none h
  · simp [Vector.getD, h]

/-- From core k to core k' no handle opens, every instruction of the window stays, and each keeps its phase or completes with
status st. -/
structure Core.EndsTo (st : Nat) (k k' : Core) : Prop where
  shut : ∀ h, k.handles.getD h none = none → k'.handles.getD h none = none
  left : ∀ id e, k.entry? id = some e → ∃ f, k'.entry? id = some f ∧ (f.phase = e.phase ∨ f.phase = .done st)

/-- From core k to core k' the handle of o closes, and the COLL.OPEN that opened it completes with status st. -/
structure Core.HandleEnds (st : Nat) (o : CollOpen) (k k' : Core) : Prop where
  shut : k'.handles.getD o.handle none = none
  done : ∀ e, k.entry? o.id = some e → ∃ f, k'.entry? o.id = some f ∧ f.phase = .done st

section
variable {st : Nat} {o : CollOpen} {k k' k'' : Core}

theorem Core.EndsTo.refl (k : Core) : k.EndsTo st k := ⟨fun _ => id, fun _ e h => ⟨e, h, .inl rfl⟩⟩

theorem Core.EndsTo.trans (a : k.EndsTo st k') (b : k'.EndsTo st k'') : k.EndsTo st k'' where
  shut h hk := b.shut h (a.shut h hk)
  left id e he := by
    obtain ⟨f, hf, pf⟩ := a.left id e he
    obtain ⟨g, hg, pg⟩ := b.left id f hf
    refine ⟨g, hg, ?_⟩
    rcases pg with pg | pg
    · rw [pg]; exact pf
    · exact .inr pg

theorem Core.HandleEnds.after (b : k'.HandleEnds st o k'') (a : k.EndsTo st k') : k.HandleEnds st o k'' where
  shut := b.shut
  done e he := by
    obtain ⟨f, hf, _⟩ := a.left o.id e he
    exact b.done f hf

theorem Core.HandleEnds.trans (a : k.HandleEnds st o k') (b : k'.EndsTo st k'') : k.HandleEnds st o k'' where
  shut := b.shut _ a.shut
  done e he := by
    obtain ⟨f, hf, pf⟩ := a.done e he
    obtain ⟨g, hg, pg⟩ := b.left o.id f hf
    exact ⟨g, hg, pg.elim (fun p => p.trans pf) id⟩

/-- A change that leaves the handles and the window. -/
theorem Core.EndsTo.of_same (handles : k'.handles = k.handles) (window : k'.window = k.window) : k.EndsTo st k' := by
  refine ⟨fun h hk => handles ▸ hk, fun id e he => ⟨e, ?_, .inl rfl⟩⟩
  unfold Core.entry? at he ⊢
  rw [window, he]

end

/-- A change of a window's entries that keeps their numbers is seen in each entry. -/
theorem Core.entry?_mapWindow (k : Core) (g : Entry → Entry) (ids : ∀ e, (g e).id = e.id) (id : Nat) :
    ({ k with window := k.window.map g } : Core).entry? id = (k.entry? id).map g := by
  unfold Core.entry?
  rw [List.find?_map]
  congr 2
  exact funext fun e => by rw [Function.comp, ids]

theorem Core.EndsTo.mapWindow {st : Nat} (k : Core) (g : Entry → Entry) (ids : ∀ e, (g e).id = e.id)
    (phases : ∀ e, (g e).phase = e.phase ∨ (g e).phase = .done st) : k.EndsTo st { k with window := k.window.map g } where
  shut _ := id
  left id e he := ⟨g e, by rw [Core.entry?_mapWindow k g ids, he]; rfl, phases e⟩

/-- A handle that is closed. -/
theorem Core.EndsTo.shutHandle (st : Nat) (k : Core) (i : Nat) : k.EndsTo st { k with handles := k.handles.setIfInBounds i none } where
  shut h hk := by
    by_cases e : h = i
    · rw [e]; exact getD_setNone k.handles i
    · exact (getD_set_other k.handles i h none none e).trans hk
  left _ e he := ⟨e, he, .inl rfl⟩

/-- The publications of an ended handle take its status when they are served; until then they stay as they are (R122). -/
theorem Core.pubsEnd_endsTo (st : Nat) (k : Core) (o : CollOpen) (name : Word) : k.EndsTo st (k.pubsEnd o st name) :=
  .mapWindow k _ (fun e => by dsimp only; split <;> rfl) (fun e => .inl (by dsimp only; split <;> rfl))

/-- f completes an entry with status st and leaves its number; what else it records is open (R57). -/
def CompletesWith (st : Nat) (f : Entry → Entry) : Prop := ∀ e, (f e).id = e.id ∧ (f e).phase = .done st

theorem CompletesWith.modEntry_endsTo {st : Nat} {f : Entry → Entry} (c : CompletesWith st f) (k : Core) (id : Nat) :
    k.EndsTo st (k.modEntry id f) := by
  refine .mapWindow k _ (fun e => ?_) (fun e => ?_)
  · split
    · exact (c e).1
    · rfl
  · split
    · exact .inr (c e).2
    · exact .inl rfl

theorem CompletesWith.modEntry_done {st : Nat} {f : Entry → Entry} (c : CompletesWith st f) {k : Core} {id : Nat} {e : Entry}
    (he : k.entry? id = some e) : ∃ g, (k.modEntry id f).entry? id = some g ∧ g.phase = .done st := by
  have hid : (e.id == id) = true := List.find?_some (p := fun e : Entry => e.id == id) he
  have ids : ∀ x : Entry, (if x.id == id then f x else x).id = x.id := fun x => by
    split
    · exact (c x).1
    · rfl
  refine ⟨f e, ?_, (c e).2⟩
  unfold Core.modEntry
  rw [Core.entry?_mapWindow k _ ids, he, Option.map_some, if_pos hid]

/-! ### What closing handles makes of the cores of a module -/

/-- Every core comes from s to t as closing handles with status st may bring it. -/
structure State.EndsTo (st : Nat) (s t : State) : Prop where
  core : ∀ c, c < 48 → (s.core c).EndsTo st (t.core c)

theorem State.EndsTo.refl {st : Nat} (s : State) : s.EndsTo st s := ⟨fun _ _ => .refl _⟩

theorem State.EndsTo.trans {st : Nat} {s t u : State} (a : s.EndsTo st t) (b : t.EndsTo st u) : s.EndsTo st u :=
  ⟨fun c hc => (a.core c hc).trans (b.core c hc)⟩

theorem State.EndsTo.of_cores {st : Nat} {s t : State} (h : t.cores = s.cores) : s.EndsTo st t :=
  ⟨fun c _ => State.core_congr h c ▸ .refl _⟩

theorem State.EndsTo.modCore {st : Nat} (s : State) (c : Nat) {f : Core → Core} (h : ∀ k : Core, k.EndsTo st (f k)) :
    s.EndsTo st (s.modCore c f) := by
  refine ⟨fun d hd => ?_⟩
  by_cases e : d = c
  · subst e
    rw [State.core_modCore _ _ _ hd]
    exact h _
  · rw [State.core_modCore_ne _ _ _ _ e]
    exact .refl _

/-- A tile that turns unspecified is scratchpad alone (R139). -/
theorem State.junkTile_endsTo (st : Nat) (s : State) (c : Nat) (t : Tile) : s.EndsTo st (s.junkTile c t) := by
  unfold State.junkTile State.freshJunk
  dsimp only
  refine foldl_keeps (State.EndsTo st s) _ (fun u r h => ?_) _ _ (.of_cores rfl)
  exact h.trans (.modCore u c fun k => .of_same rfl rfl)

theorem State.spoilTd_endsTo (s : State) (x : Coll) (o : CollOpen) (st : Nat) : s.EndsTo st (s.spoilTd x o st) := by
  unfold State.spoilTd
  split
  · exact State.junkTile_endsTo ..
  · exact .refl s

/-- The state in which the handle of o is closed and its instruction still to complete. -/
def State.shutHandle (s : State) (o : CollOpen) : State :=
  s.modCore o.core (fun k => { k with handles := k.handles.setIfInBounds o.handle none })

/-- Closing a handle: the handle is shut, and after changes that end nothing but this collective its instruction completes,
with a record or without (R122). -/
theorem State.closeOpen_stages (s : State) (x : Coll) (o : CollOpen) (st : Nat) :
    ∃ (t : State) (f : Entry → Entry), (s.shutHandle o).EndsTo st t ∧ CompletesWith st f
      ∧ s.closeOpen x o st = t.modEntry o.core o.id f := by
  have marked : (s.shutHandle o).EndsTo st ((s.shutHandle o).modColl x.gid x.seq
      (fun y => { y with opens := y.opens.map (fun z => if z == o then { z with fin := true } else z) })) := .of_cores rfl
  unfold State.closeOpen
  dsimp only
  split
  · refine ⟨_, _, marked, ?_, rfl⟩
    exact fun _ => ⟨rfl, rfl⟩
  · have spoilt := marked.trans (State.spoilTd_endsTo _ x o st)
    refine ⟨_, _, spoilt.trans (.modCore _ o.core fun k => k.pubsEnd_endsTo st o x.name), ?_, rfl⟩
    exact fun _ => ⟨rfl, rfl⟩

theorem State.shutHandle_endsTo (s : State) (o : CollOpen) (st : Nat) : s.EndsTo st (s.shutHandle o) :=
  .modCore _ _ fun k => .shutHandle st k o.handle

theorem State.closeOpen_endsTo (s : State) (x : Coll) (o : CollOpen) (st : Nat) : s.EndsTo st (s.closeOpen x o st) := by
  obtain ⟨t, f, mid, completes, eq⟩ := s.closeOpen_stages x o st
  rw [eq]
  exact ((s.shutHandle_endsTo o st).trans mid).trans (.modCore _ _ fun k => completes.modEntry_endsTo k o.id)

theorem State.closeOpen_handleEnds (s : State) (x : Coll) (o : CollOpen) (st : Nat) (hc : o.core < 48) :
    (s.core o.core).HandleEnds st o ((s.closeOpen x o st).core o.core) := by
  obtain ⟨t, f, mid, completes, eq⟩ := s.closeOpen_stages x o st
  have shut : ((s.shutHandle o).core o.core).handles.getD o.handle none = none := by
    rw [State.shutHandle, State.core_modCore _ _ _ hc]
    exact getD_setNone _ _
  have last : (t.core o.core).HandleEnds st o ((t.core o.core).modEntry o.id f) :=
    ⟨(completes.modEntry_endsTo _ o.id).shut _ ((mid.core _ hc).shut _ shut), fun _ he => completes.modEntry_done he⟩
  rw [eq, State.modEntry, State.core_modCore _ _ _ hc]
  exact last.after (((s.shutHandle_endsTo o st).trans mid).core _ hc)

/-! ### The end of a collective -/

/-- Close handles of x with status st, one after another. -/
def State.closeOpens (s : State) (x : Coll) (st : Nat) (os : List CollOpen) : State := os.foldl (fun s o => s.closeOpen x o st) s

theorem State.closeOpens_endsTo (s : State) (x : Coll) (st : Nat) (os : List CollOpen) : s.EndsTo st (s.closeOpens x st os) :=
  foldl_keeps (State.EndsTo st s) _ (fun t o h => h.trans (t.closeOpen_endsTo x o st)) os s (.refl s)

/-- Each handle closes at its turn, and the later ones open none. -/
theorem State.closeOpens_handleEnds (x : Coll) (st : Nat) (o : CollOpen) (hc : o.core < 48) (os : List CollOpen) (mem : o ∈ os)
    (s : State) : (s.core o.core).HandleEnds st o ((s.closeOpens x st os).core o.core) := by
  induction os generalizing s with
  | nil => cases mem
  | cons a rest ih =>
    show (s.core o.core).HandleEnds st o (((s.closeOpen x a st).closeOpens x st rest).core o.core)
    rcases List.mem_cons.mp mem with rfl | later
    · exact (s.closeOpen_handleEnds x o st hc).trans ((State.closeOpens_endsTo _ x st rest).core _ hc)
    · exact (ih later _).after ((s.closeOpen_endsTo x a st).core _ hc)

/-- Of the cores, the end of a collective closes the open handles alone. -/
theorem State.collEnd_cores (s : State) (x : Coll) (st : Nat) (passed : Bool) :
    (s.collEnd x st passed).cores = ((s.collStatus x st).closeOpens x st (x.opens.filter (fun o => !o.fin))).cores := by
  unfold State.collEnd
  dsimp only
  split
  · exact State.raise_cores _ _
  · split
    · exact State.raise_cores _ _
    · rfl

theorem State.collEnd_handleEnds (s : State) (x : Coll) (st : Nat) (passed : Bool) (o : CollOpen) (mem : o ∈ x.opens)
    (isOpen : o.fin = false) (hc : o.core < 48) : (s.core o.core).HandleEnds st o ((s.collEnd x st passed).core o.core) := by
  rw [State.core_congr (s.collEnd_cores x st passed), ← State.core_congr (s.collStatus_cores x st)]
  exact State.closeOpens_handleEnds x st o hc _ (by simp [mem, isOpen]) _

theorem State.collEnd_coll? (s : State) (x : Coll) (st : Nat) (passed : Bool) : (s.collEnd x st passed).coll? x.gid x.seq = none := by
  refine List.find?_eq_none.mpr fun y mem => ?_
  have other := (List.mem_filter.mp mem).2
  simpa [imp_iff_not_or] using other

theorem State.collEnd_store (s : State) (x : Coll) (st : Nat) (passed : Bool) :
    ∀ z ∈ (s.collEnd x st passed).store, z.gid ≠ x.gid ∨ z.seq % 16 ≠ x.seq % 16 := by
  intro z mem
  have kept := (List.mem_filter.mp mem).2
  simpa [imp_iff_not_or] using kept

theorem State.collEnd_triples (s : State) (x : Coll) (st : Nat) (passed : Bool) :
    (s.collEnd x st passed).triples.head? = some { coll := x, status := st, passed := passed } := rfl

/-- From s the collective x has ended on the module with status st (R122, R305). -/
structure State.CollEnded (s : State) (x : Coll) (st : Nat) (u : State) : Prop where
  gone    : u.coll? x.gid x.seq = none
  freed   : ∀ z ∈ u.store, z.gid ≠ x.gid ∨ z.seq % 16 ≠ x.seq % 16
  kept    : ∃ b, u.triples.head? = some { coll := x, status := st, passed := b }
  handles : ∀ o ∈ x.opens, o.fin = false → o.core < 48 → (s.core o.core).HandleEnds st o (u.core o.core)

/-- It has after `State.collEnd`, whatever was done before that left the cores alone. -/
theorem State.collEnd_ended {s t : State} (same : t.cores = s.cores) (x : Coll) (st : Nat) (passed : Bool) :
    s.CollEnded x st (t.collEnd x st passed) where
  gone := t.collEnd_coll? x st passed
  freed := t.collEnd_store x st passed
  kept := ⟨passed, t.collEnd_triples x st passed⟩
  handles o mem isOpen hc := State.core_congr same o.core ▸ t.collEnd_handleEnds x st passed o mem isOpen hc

/-- The module that finds that a collective must end ends it here, as the root or below it (R305). -/
theorem State.collFail_ended (s : State) (x : Coll) (st : Nat) : s.CollEnded x st (s.collFail x st) := by
  unfold State.collFail
  split
  · exact State.collEnd_ended (State.passAbort_cores s x st) x st true
  · exact State.collEnd_ended (State.sendCtl_cores ..) x st false

/-! ### ABORT, and a result not consumed in time -/

/-- A collective found by its group and sequence has them. -/
theorem State.coll?_name {s : State} {gid seq : Nat} {x : Coll} (found : s.coll? gid seq = some x) : x.gid = gid ∧ x.seq = seq := by
  simpa using List.find?_some found

theorem exec_collAbort_open {s : State} {p : Packet} {x : Coll} (alive : s.failed = false)
    (found : s.coll? (ccGid p) (ccSeq p) = some x) :
    exec (.collAbort p) s = .next (((s.takeHub p).passAbort x (ccStatus p)).collEnd x (ccStatus p) true) := by
  have foundHub : (s.takeHub p).coll? (ccGid p) (ccSeq p) = some x := found
  show execCollAbort p s = _
  simp [execCollAbort, alive, foundHub]

/-- A final result released at f ends its collective from 100 ms on, and nothing before (R308). -/
theorem exec_collConsumedTimeout_final {s : State} {gid seq chunk f : Nat} {x : Coll} {z : CSlot} (alive : s.failed = false)
    (found : s.coll? gid seq = some x) (slot : s.slot? gid (seq % 16) chunk = some z) (final : z.final = some f) :
    exec (.collConsumedTimeout gid seq chunk) s
      = .next (if f + State.msTicks 100 ≤ s.clock then s.collFail x Status.collAborted else s) := by
  show execCollConsumedTimeout gid seq chunk s = _
  simp [execCollConsumedTimeout, alive, found, slot, final]

/-- Settles O33: both commands come to `State.collEnd`, which closes the handles one by one and drops the collective's records. -/
theorem abortedCollectivesEnd : Obligations.AbortedCollectivesEnd := by
  unfold Obligations.AbortedCollectivesEnd
  intro gid seq st chunk x p s alive found ends
  have ended : ∀ (i : Instr) (status : Nat) (u : State), exec i s = .next u → s.CollEnded x status u → ends i status := by
    intro i status u next ⟨gone, freed, kept, handles⟩
    obtain ⟨rfl, rfl⟩ := State.coll?_name found
    exact ⟨u, next, gone, freed, kept, fun o mem isOpen hc =>
      have ho := handles o mem isOpen hc
      ⟨ho.shut, ho.done⟩⟩
  refine ⟨?abort, ?early, ?late⟩
  case abort =>
    rintro rfl rfl rfl
    have same : ((s.takeHub p).passAbort x (ccStatus p)).cores = s.cores := (State.passAbort_cores ..).trans (s.takeHub_cores p)
    exact ended _ _ _ (exec_collAbort_open alive found) (State.collEnd_ended same x (ccStatus p) true)
  case early =>
    intro z f slot final soon
    rw [exec_collConsumedTimeout_final alive found slot final, if_neg (Nat.not_le.mpr soon)]
  case late =>
    intro z f slot final passed
    have next := exec_collConsumedTimeout_final alive found slot final
    rw [if_pos passed] at next
    exact ended _ _ _ next (s.collFail_ended x Status.collAborted)

end Sys2Proof.Machine
end

section
/-! The service face's beacon: the identify pad toggles it, the host writes it (R7, R331, R336). -/

namespace Sys2Proof.Machine

/-! ### A field written for its next safe point: it reads the new value and acts with the old one (R7) -/

theorem State.act_eq_get (s : State) (f : Fld) : s.act f = Tab.get s.lag (s.rd f) f.key := rfl

@[simp] theorem State.rd_wrLater (s : State) (f : Fld) (v : Nat) : (s.wrLater f v).rd f = v % 2 ^ f.w := s.rd_wr f v

theorem State.rd_wrLater_ne (s : State) (f g : Fld) (v : Nat) (h : g.key ≠ f.key) : (s.wrLater f v).rd g = s.rd g :=
  s.rd_wr_ne f g v h

@[simp] theorem State.act_wrLater (s : State) (f : Fld) (v : Nat) : (s.wrLater f v).act f = s.act f :=
  Tab.get_put_same s.lag _ (s.act f) f.key

theorem State.act_wrLater_ne (s : State) (f g : Fld) (v : Nat) (h : g.key ≠ f.key) : (s.wrLater f v).act g = s.act g := by
  rw [State.act_eq_get, State.rd_wrLater_ne s f g v h]
  exact Tab.get_put_other s.lag _ (s.act f) f.key g.key h

/-- Two fields written for their next safe points change nothing but the fields' values, written and acting. -/
theorem State.wrLater_wrLater_frame (s : State) (f g : Fld) (v w : Nat) :
    (s.wrLater f v).wrLater g w
      = { s with regs := ((s.wrLater f v).wrLater g w).regs, lag := ((s.wrLater f v).wrLater g w).lag } := by
  simp only [State.wrLater, State.wr]

/-! ### The identify pad (R331) -/

/-- At least 500 ms have passed since the last toggle, if there was one. -/
def State.padRested (s : State) : Prop := ∀ a, s.padAt = some a → a + State.msTicks 500 ≤ s.clock

theorem exec_padTouch_toggles {s : State} {ms : Nat} (long : 100 ≤ ms) (enabled : s.act Reg.SF_BEACON_PAD_EN = 1)
    (rested : s.padRested) (powered : s.powered = true) :
    exec (.padTouch ms) s
      = .next { (s.wr Reg.SF_BEACON_BEACON (if s.rd Reg.SF_BEACON_BEACON = 1 then 0 else 1)).settle Reg.SF_BEACON_BEACON with
          padAt := some s.clock } := by
  have flips : s.wrb Reg.SF_BEACON_BEACON (!s.rdb Reg.SF_BEACON_BEACON)
      = s.wr Reg.SF_BEACON_BEACON (if s.rd Reg.SF_BEACON_BEACON = 1 then 0 else 1) := by
    by_cases lit : s.rd Reg.SF_BEACON_BEACON = 1 <;> simp [State.wrb, State.rdb, lit]
  show execPadTouch ms s = _
  cases last : s.padAt with
  | none => simp [execPadTouch, last, long, enabled, powered, flips]
  | some a =>
    have notSoon := rested a last
    simp [execPadTouch, last, long, enabled, powered, flips, notSoon]

theorem exec_padTouch_ignored {s : State} {ms : Nat} (h : ms < 100 ∨ s.act Reg.SF_BEACON_PAD_EN ≠ 1 ∨ ¬ s.padRested) :
    exec (.padTouch ms) s = .next s := by
  show execPadTouch ms s = _
  rcases h with short | off | soon
  · simp [execPadTouch, short]
  · simp [execPadTouch, off]
  · obtain ⟨a, last, early⟩ : ∃ a, s.padAt = some a ∧ s.clock < a + State.msTicks 500 := by simpa [State.padRested] using soon
    simp [execPadTouch, last, early]

/-! ### A write of a whole register (R3, R7) -/

/-- A register all of whose bits are written holds the written bits in each of its fields. -/
theorem fld_allWritten (old v lo w : Nat) (within : lo + w ≤ 64) :
    fld (old - (old &&& (2 ^ 64 - 1)) + (v &&& (2 ^ 64 - 1))) lo w = fld v lo w := by
  have cleared : old - (old &&& (2 ^ 64 - 1)) = 2 ^ 64 * (old / 2 ^ 64) := by
    rw [Nat.and_two_pow_sub_one_eq_mod]
    omega
  rw [cleared, Nat.and_two_pow_sub_one_eq_mod]
  refine Nat.eq_of_testBit_eq fun i => ?_
  by_cases hi : i < w
  · have : lo + i < 64 := by omega
    have low : v % 2 ^ 64 < 2 ^ 64 := Nat.mod_lt v (by decide)
    simp only [fld, Nat.testBit_mod_two_pow, Nat.testBit_div_two_pow, Nat.testBit_two_pow_mul_add _ low]
    simp [hi, Nat.add_comm i lo, this]
  · simp [fld, Nat.testBit_mod_two_pow, hi]

/-- The host's write of a whole register that answers and lies in no core's window. -/
theorem exec_registerWrite_full {s : State} {off : Nat} {v : Word} (whole : off / 8 * 8 = off) (isOpen : s.regOpen off = true)
    (here : regHere off = true) (noWindow : s.windowGone off = false) (notPba : off ≠ 0x9000) :
    exec (.registerWrite off .full v) s = .next (s.putReg off (2 ^ 64 - 1) v.toNat) := by
  have aligned : off % 8 = 0 := by omega
  have bits : Width.bits .full v.toNat = (2 ^ 64 - 1, v.toNat) := congrArg _ (Nat.mod_eq_of_lt v.isLt)
  show execRegisterWrite off .full v s = _
  simp [execRegisterWrite, State.writeReg, bits, whole, isOpen, here, noWindow, aligned, notPba]

/-! ### SF_BEACON (R336) -/

/-- SF_BEACON's row of the register map: two RW fields of one bit. -/
def beaconKind : RegKind := ⟨Reg.SF_BEACON, 1, 0, 1, 0, [⟨0, 1, .rw, 0, false⟩, ⟨1, 1, .rw, 1, false⟩]⟩

theorem regAt_beacon : regAt Reg.SF_BEACON = some (beaconKind, 0) := rfl

/-- A write of SF_BEACON starts nothing beside the fields it sets. -/
theorem State.regAction_beacon (old s : State) (mask bits : Nat) : old.regAction s Reg.SF_BEACON mask bits = s := by
  simp [State.regAction, instOf, Reg.SF_BEACON, Reg.HM_CACHE_CTL, Reg.HM_KEEP_QUOTA, Reg.LK_WINDOW, Reg.KV_CTL, Reg.RT_CTL, Reg.GLB_CTL,
    Reg.POW_CAP, Reg.ERR_RING, Reg.FD_REJOIN, Reg.TUM_HOST_ADD]

/-- No value of SF_BEACON's fields is out of bounds. -/
theorem State.clampFld_beacon (s : State) (lo new v : Nat) : s.clampFld Reg.SF_BEACON lo new v = v := by
  simp [State.clampFld, instOf, Reg.SF_BEACON, Reg.HM_KEEP_QUOTA, Reg.TUM_DL_CTL, Reg.KV_CTL, Reg.SCHED_RES, Reg.SCHED_PRE_CTL, Reg.RT_TRANSIT,
    Reg.RT_ARB, Reg.LK_WINDOW, Reg.SF_BAR, Reg.POW_CAP, Reg.POW_CTL, Reg.THERM_CTL, Reg.ERR_CTL]

/-- A field that acts from a safe point on is written for it (R7). -/
theorem State.putRw_late (s : State) {x : Fld} (v : Nat) (late : x ∈ lateFields) : s.putRw x v = s.wrLater x v := by
  have listed : lateFields.any (fun f => f.key == x.key) = true := List.any_eq_true.mpr ⟨x, late, by simp⟩
  simp [State.putRw, listed]

/-- A written RW field of SF_BEACON takes its value for the next sample. -/
theorem State.putField_beacon (s : State) {mask bits new : Nat} {f : FieldSpec} (written : fld mask f.lo f.w ≠ 0)
    (isRw : f.acc = .rw) (late : f.fld Reg.SF_BEACON 0 ∈ lateFields) :
    s.putField Reg.SF_BEACON 0 mask bits new f = s.wrLater (f.fld Reg.SF_BEACON 0) (fld new f.lo f.w) := by
  simp [State.putField, written, isRw, State.clampFld_beacon, State.putRw_late s _ late]

/-- Both fields of SF_BEACON take the written bits and act from the next sample on. -/
theorem State.putReg_beacon (s : State) (v : Nat) :
    s.putReg Reg.SF_BEACON (2 ^ 64 - 1) v
      = (s.wrLater Reg.SF_BEACON_BEACON (fld v 0 1)).wrLater Reg.SF_BEACON_PAD_EN (fld v 1 1) := by
  have unlocked : s.mbxLocked Reg.SF_BEACON = false := by simp [State.mbxLocked, Reg.SF_BEACON]
  have kept : s.dropsRwl (2 ^ 64 - 1) beaconKind = false := by simp [State.dropsRwl, beaconKind]
  have notMsix : ¬ (0x8000 ≤ Reg.SF_BEACON ∧ Reg.SF_BEACON < 0x8400) := by decide
  have notEntry : ¬ (0x410000 ≤ Reg.SF_BEACON ∧ Reg.SF_BEACON < 0x420000) := by decide
  simp only [State.putReg, notMsix, notEntry, unlocked, regAt_beacon, kept, State.regAction_beacon, if_false, Bool.false_eq_true]
  simp only [beaconKind, List.foldl_cons, List.foldl_nil]
  rw [State.putField_beacon _ (by decide) rfl (by decide), State.putField_beacon _ (by decide) rfl (by decide),
    fld_allWritten _ v 0 1 (by decide), fld_allWritten _ v 1 1 (by decide)]
  rfl

/-- On a booted module the host's write of SF_BEACON is a write of its two fields for the next sample. -/
theorem exec_registerWrite_beacon {s : State} {v : Word} (powered : s.powered = true) (noReset : s.perst = false)
    (booted : s.booted = true) (alive : s.failed = false) :
    exec (.registerWrite Reg.SF_BEACON .full v) s
      = .next ((s.wrLater Reg.SF_BEACON_BEACON (fld v.toNat 0 1)).wrLater Reg.SF_BEACON_PAD_EN (fld v.toNat 1 1)) := by
  have isOpen : s.regOpen Reg.SF_BEACON = true := by simp [State.regOpen, powered, noReset, booted, alive]
  have notTumbler : ¬ (0x300000 ≤ Reg.SF_BEACON ∧ Reg.SF_BEACON < 0x330000) := by decide
  have here : regHere Reg.SF_BEACON = true := by simp only [regHere, notTumbler, regAt_beacon]; simp
  have noWindow : s.windowGone Reg.SF_BEACON = false := by simp [State.windowGone, Reg.SF_BEACON]
  rw [exec_registerWrite_full (by decide) isOpen here noWindow (by decide), State.putReg_beacon]

/-- Settles O53: a touch toggles on three conditions and is ignored where one fails; a write sets the two fields for the next sample. -/
theorem identifyPadTogglesBeacon : Obligations.IdentifyPadTogglesBeacon := by
  unfold Obligations.IdentifyPadTogglesBeacon
  intro ms v s powered
  refine ⟨?toggles, ?soon, ?shortOrOff, ?written, by decide⟩
  case toggles => exact fun long enabled rested => exec_padTouch_toggles long enabled rested powered
  case soon =>
    intro a last early
    exact exec_padTouch_ignored (.inr (.inr fun rested => Nat.not_le.mpr early (rested a last)))
  case shortOrOff => exact fun h => exec_padTouch_ignored (h.imp_right .inl)
  case written =>
    intro noReset booted alive
    have apart : Reg.SF_BEACON_BEACON.key ≠ Reg.SF_BEACON_PAD_EN.key := by decide
    refine ⟨_, exec_registerWrite_beacon powered noReset booted alive, ?beacon, ?padEn, ?actBeacon, ?actPadEn, State.wrLater_wrLater_frame ..⟩
    case beacon =>
      rw [State.rd_wrLater_ne _ _ _ _ apart, State.rd_wrLater]
      simp [fld, Reg.SF_BEACON_BEACON]
    case padEn =>
      rw [State.rd_wrLater]
      simp [fld, Reg.SF_BEACON_PAD_EN]
    case actBeacon => rw [State.act_wrLater_ne _ _ _ _ apart, State.act_wrLater]
    case actPadEn => rw [State.act_wrLater, State.act_wrLater_ne _ _ _ _ apart.symm]

end Sys2Proof.Machine
end

section
/-! What every step keeps: the commands behind the front one, FRU memory, the anti-rollback counter and the canonical form of the
memories (R17, R382, assumption 3). -/

namespace Sys2Proof.Machine

/-- Every command keeps them, each by the lemma of its arm under Laws/Kept. -/
theorem exec_keeps (i : Instr) (s : State) : Keeps s (exec i s) :=
  match i with
  | .nop c o => execNop_pres c o s
  | .endOp c h => execEndOp_pres c h s
  | .endFinish c => execEndFinish_pres c s
  | .add c h rd ra b => execAdd_pres c h rd ra b s
  | .sub c h rd ra b => execSub_pres c h rd ra b s
  | .mul c h rd ra b => execMul_pres c h rd ra b s
  | .and c h rd ra b => execAnd_pres c h rd ra b s
  | .or c h rd ra b => execOr_pres c h rd ra b s
  | .xor c h rd ra b => execXor_pres c h rd ra b s
  | .shl c h rd ra b => execShl_pres c h rd ra b s
  | .shr c h rd ra b => execShr_pres c h rd ra b s
  | .sra c h rd ra b => execSra_pres c h rd ra b s
  | .min c h rd ra b => execMin_pres c h rd ra b s
  | .max c h rd ra b => execMax_pres c h rd ra b s
  | .minu c h rd ra b => execMinu_pres c h rd ra b s
  | .maxu c h rd ra b => execMaxu_pres c h rd ra b s
  | .li c h rd imm => execLi_pres c h rd imm s
  | .ld c h rd ra imm u => execLd_pres c h rd ra imm u s
  | .st c h rd ra imm => execSt_pres c h rd ra imm s
  | .cmpEq c h pd ra b => execCmpEq_pres c h pd ra b s
  | .cmpNe c h pd ra b => execCmpNe_pres c h pd ra b s
  | .cmpLt c h pd ra b => execCmpLt_pres c h pd ra b s
  | .cmpLtu c h pd ra b => execCmpLtu_pres c h pd ra b s
  | .cmpGe c h pd ra b => execCmpGe_pres c h pd ra b s
  | .cmpGeu c h pd ra b => execCmpGeu_pres c h pd ra b s
  | .pand c h pd pa pb => execPand_pres c h pd pa pb s
  | .por c h pd pa pb => execPor_pres c h pd pa pb s
  | .pxor c h pd pa pb => execPxor_pres c h pd pa pb s
  | .pnot c h pd pa => execPnot_pres c h pd pa s
  | .br c h off => execBr_pres c h off s
  | .loop c h ra off => execLoop_pres c h ra off s
  | .jr c h ra => execJr_pres c h ra s
  | .tdSet c h td rx ry => execTdSet_pres c h td rx ry s
  | .tdSetf c h td fsel rx => execTdSetf_pres c h td fsel rx s
  | .tdSetfi c h td fsel imm => execTdSetfi_pres c h td fsel imm s
  | .tdAddf c h td fsel imm => execTdAddf_pres c h td fsel imm s
  | .tdGetf c h td fsel rx => execTdGetf_pres c h td fsel rx s
  | .tumAdd c o => execTumAdd_pres c o s
  | .tumWait c o => execTumWait_pres c o s
  | .tumSet c o => execTumSet_pres c o s
  | .tumRead c h o => execTumRead_pres c h o s
  | .tumWaitG c h o => execTumWaitG_pres c h o s
  | .tumAlloc c h o => execTumAlloc_pres c h o s
  | .tumFree c h o => execTumFree_pres c h o s
  | .tumAddG c o => execTumAddG_pres c o s
  | .tumSetG c o => execTumSetG_pres c o s
  | .tumReadG c o => execTumReadG_pres c o s
  | .fenceCore c h => execFenceCore_pres c h s
  | .fenceModule c h => execFenceModule_pres c h s
  | .fenceSystem c h => execFenceSystem_pres c h s
  | .get c o => execGet_pres c o s
  | .put c o => execPut_pres c o s
  | .putSig c o => execPutSig_pres c o s
  | .putMc c o => execPutMc_pres c o s
  | .copy c o => execCopy_pres c o s
  | .copyT c o => execCopyT_pres c o s
  | .atom c o => execAtom_pres c o s
  | .mmLds c o => execMmLds_pres c o s
  | .mm c o => execMm_pres c o s
  | .mmDrain c o => execMmDrain_pres c o s
  | .mmFill c o => execMmFill_pres c o s
  | .mv c o => execMv_pres c o s
  | .vld c o => execVld_pres c o s
  | .vst c o => execVst_pres c o s
  | .vadd c o => execVadd_pres c o s
  | .vsub c o => execVsub_pres c o s
  | .vmul c o => execVmul_pres c o s
  | .vfma c o => execVfma_pres c o s
  | .vmax c o => execVmax_pres c o s
  | .vmin c o => execVmin_pres c o s
  | .vcvt c o => execVcvt_pres c o s
  | .vred c o => execVred_pres c o s
  | .vfn c o => execVfn_pres c o s
  | .vfnD c o => execVfnD_pres c o s
  | .vtload c o => execVtload_pres c o s
  | .vrowNorm c o => execVrowNorm_pres c o s
  | .vrowNormb c o => execVrowNormb_pres c o s
  | .vrowSmax c o => execVrowSmax_pres c o s
  | .vrowSmaxb c o => execVrowSmaxb_pres c o s
  | .sampSlice c o => execSampSlice_pres c o s
  | .sampMerge c o => execSampMerge_pres c o s
  | .sampAccept c o => execSampAccept_pres c o s
  | .kvNew c o => execKvNew_pres c o s
  | .kvFree c o => execKvFree_pres c o s
  | .kvExt c o => execKvExt_pres c o s
  | .kvPut c o => execKvPut_pres c o s
  | .kvGet c o => execKvGet_pres c o s
  | .kvDetent c o => execKvDetent_pres c o s
  | .kvCommit c o => execKvCommit_pres c o s
  | .kvRollback c o => execKvRollback_pres c o s
  | .collOpen c o => execCollOpen_pres c o s
  | .collPub c o => execCollPub_pres c o s
  | .collGroupAdmit c id => execCollGroupAdmit_pres c id s
  | .dispatch c q => execDispatch_pres c q s
  | .instructionComplete c id => execInstructionComplete_pres c id s
  | .sequencerWake c => execSequencerWake_pres c s
  | .runAheadReadReturn c ip u => execRunAheadReadReturn_pres c ip u s
  | .fillerRampDown c me u => execFillerRampDown_pres c me u s
  | .arraySelfTest c me pass => execArraySelfTest_pres c me pass s
  | .doorbellTail q width v => execDoorbellTail_pres q width v s
  | .doorbellCplHead q width v => execDoorbellCplHead_pres q width v s
  | .commandRead q r => execCommandRead_pres q r s
  | .cmdNop q => execCmdNop_pres q s
  | .submit q u => execSubmit_pres q u s
  | .kill q => execKill_pres q s
  | .barrier q => execBarrier_pres q s
  | .completionEntryWrite q => execCompletionEntryWrite_pres q s
  | .taskPlace t pick u => execTaskPlace_pres t pick u s
  | .taskStart t => execTaskStart_pres t s
  | .preemptRequest t pick => execPreemptRequest_pres t pick s
  | .preemptSave t => execPreemptSave_pres t s
  | .preemptAbandon t => execPreemptAbandon_pres t s
  | .preemptSaveDone t u => execPreemptSaveDone_pres t u s
  | .taskRestore t => execTaskRestore_pres t s
  | .taskRestoreDone t u => execTaskRestoreDone_pres t u s
  | .taskEnd t => execTaskEnd_pres t s
  | .tumHostAdd v => execTumHostAdd_pres v s
  | .parkRetry c id => execParkRetry_pres c id s
  | .deadlockSample t => execDeadlockSample_pres t s
  | .deadlockFire t => execDeadlockFire_pres t s
  | .c0TokenRefill => execC0TokenRefill_pres s
  | .cacheFlush => execCacheFlush_pres s
  | .cacheFlushDone => execCacheFlushDone_pres s
  | .cacheUnprotect => execCacheUnprotect_pres s
  | .cacheUnprotectDone => execCacheUnprotectDone_pres s
  | .scrubLine q off f => execScrubLine_pres q off f s
  | .refresh ch bank => execRefresh_pres ch bank s
  | .oscSample ch driftPs corrections => execOscSample_pres ch driftPs corrections s
  | .lmRetrainDone ch pass => execLmRetrainDone_pres ch pass s
  | .lmRepairDone ch pass => execLmRepairDone_pres ch pass s
  | .marginSlice m last pins => execMarginSlice_pres m last pins s
  | .pageMoveDone k u => execPageMoveDone_pres k u s
  | .pageReclaim => execPageReclaim_pres s
  | .kvClear => execKvClear_pres s
  | .kvConfigApply => execKvConfigApply_pres s
  | .storeSlotGrant => execStoreSlotGrant_pres s
  | .collConsumedTimeout gid seq chunk => execCollConsumedTimeout_pres gid seq chunk s
  | .abortTripleExpiry gid seq => execAbortTripleExpiry_pres gid seq s
  | .putPacket p => execPutPacket_pres p s
  | .putSigPacket p => execPutSigPacket_pres p s
  | .putMcPacket p => execPutMcPacket_pres p s
  | .getPacket p u => execGetPacket_pres p u s
  | .atomPacket p u => execAtomPacket_pres p u s
  | .tumAddPacket p => execTumAddPacket_pres p s
  | .tumSetPacket p => execTumSetPacket_pres p s
  | .tumReadPacket p => execTumReadPacket_pres p s
  | .kvUpdate p => execKvUpdate_pres p s
  | .ack p => execAck_pres p s
  | .getResp p => execGetResp_pres p s
  | .atomResp p => execAtomResp_pres p s
  | .tumResp p => execTumResp_pres p s
  | .mcMiss p => execMcMiss_pres p s
  | .collDataPacket p => execCollDataPacket_pres p s
  | .receipt p => execReceipt_pres p s
  | .consumed p => execConsumed_pres p s
  | .resend p copy u => execResend_pres p copy u s
  | .collAbort p => execCollAbort_pres p s
  | .done p => execDone_pres p s
  | .miss p => execMiss_pres p s
  | .frameTx port => execFrameTx_pres port s
  | .frameRx port f => execFrameRx_pres port f s
  | .markerTx port => execMarkerTx_pres port s
  | .markerRx port lanes => execMarkerRx_pres port lanes s
  | .trainingMarkerRx port phys sync body adapted => execTrainingMarkerRx_pres port phys sync body adapted s
  | .trainingTimeout port => execTrainingTimeout_pres port s
  | .trainingRetry port => execTrainingRetry_pres port s
  | .heartbeat port module nport state time => execHeartbeat_pres port module nport state time s
  | .vcsel port vc => execVcsel_pres port vc s
  | .abort port vc => execAbort_pres port vc s
  | .syncReq port => execSyncReq_pres port s
  | .sync port counts => execSync_pres port counts s
  | .laneMask port mask mgen => execLaneMask_pres port mask mgen s
  | .laneReq port lane restore => execLaneReq_pres port lane restore s
  | .violation port code vc recent => execViolation_pres port code vc recent s
  | .down port cause => execDown_pres port cause s
  | .key port module nport adapter retry matched key => execKey_pres port module nport adapter retry matched key s
  | .creditInit port counts => execCreditInit_pres port counts s
  | .reject port status module nport => execReject_pres port status module nport s
  | .heartbeatTimeout port => execHeartbeatTimeout_pres port s
  | .keyingRepeat port => execKeyingRepeat_pres port s
  | .linkEnterService port => execLinkEnterService_pres port s
  | .linkDown port cause => execLinkDown_pres port cause s
  | .wardExpiry port => execWardExpiry_pres port s
  | .lkEnableWrite port enable => execLkEnableWrite_pres port enable s
  | .retrain port => execRetrain_pres port s
  | .packetRoute p arrived => execPacketRoute_pres p arrived s
  | .routerHeadTimeout k => execRouterHeadTimeout_pres k s
  | .linkDownNotice module nport cause => execLinkDownNotice_pres module nport cause s
  | .linkUpNotice module nport => execLinkUpNotice_pres module nport s
  | .recompute => execRecompute_pres s
  | .tableFlip => execTableFlip_pres s
  | .partitionTimeout => execPartitionTimeout_pres s
  | .declaration m cause => execDeclaration_pres m cause s
  | .padlockSet m => execPadlockSet_pres m s
  | .jobFatalNotice job status origin => execJobFatalNotice_pres job status origin s
  | .holdNotice tag => execHoldNotice_pres tag s
  | .holdNoticeSend => execHoldNoticeSend_pres s
  | .requestResend tag => execRequestResend_pres tag s
  | .requestTimeout tag => execRequestTimeout_pres tag s
  | .dedupRowGrant src => execDedupRowGrant_pres src s
  | .dedupRowFree src => execDedupRowFree_pres src s
  | .putSigCountExpiry src sigref => execPutSigCountExpiry_pres src sigref s
  | .faultHandle => execFaultHandle_pres s
  | .errIrqDeferred => execErrIrqDeferred_pres s
  | .moduleFailStop cause info => execModuleFailStop_pres cause info s
  | .failStopPortsDown => execFailStopPortsDown_pres s
  | .fdRejoinModule m => execFdRejoinModule_pres m s
  | .fdRejoinAll => execFdRejoinAll_pres s
  | .errRingWrite v => execErrRingWrite_pres v s
  | .latchSample angle => execLatchSample_pres angle s
  | .moduleLeave => execModuleLeave_pres s
  | .leavePortsDown => execLeavePortsDown_pres s
  | .padTouch ms => execPadTouch_pres ms s
  | .connectorRemoved e => execConnectorRemoved_pres e s
  | .connectorSeated e => execConnectorSeated_pres e s
  | .safePowerExit port => execSafePowerExit_pres port s
  | .emitterSample e k fade => execEmitterSample_pres e k fade s
  | .spareCheck e k fade => execSpareCheck_pres e k fade s
  | .swapStart e k => execSwapStart_pres e k s
  | .swapWarmDone e => execSwapWarmDone_pres e s
  | .swapSwitchDone e => execSwapSwitchDone_pres e s
  | .swapComplete e => execSwapComplete_pres e s
  | .calSlot f => execCalSlot_pres f s
  | .calRestoreTimeout port => execCalRestoreTimeout_pres port s
  | .ringUnlock port lane => execRingUnlock_pres port lane s
  | .budgetDivide otherW => execBudgetDivide_pres otherW s
  | .grant l seq watts capDrop time => execGrant_pres l seq watts capDrop time s
  | .report l seq request draw temp thermal droop stretched active => execReport_pres l seq request draw temp thermal droop stretched active s
  | .grantTimeout l => execGrantTimeout_pres l s
  | .reportTimeout l => execReportTimeout_pres l s
  | .clockAdjust l est => execClockAdjust_pres l est s
  | .droop c quarterCycles => execDroop_pres c quarterCycles s
  | .droopRelease c => execDroopRelease_pres c s
  | .thermalSample x temp => execThermalSample_pres x temp s
  | .capWrite watts => execCapWrite_pres watts s
  | .inputLow volt10mV => execInputLow_pres volt10mV s
  | .inputUndervoltage => execInputUndervoltage_pres s
  | .inputHigh volt10mV => execInputHigh_pres volt10mV s
  | .inputOvervoltage => execInputOvervoltage_pres s
  | .powerRestore => execPowerRestore_pres s
  | .prsntMate => execPrsntMate_pres s
  | .softStartDone => execSoftStartDone_pres s
  | .prsntBreak => execPrsntBreak_pres s
  | .ibcFail k => execIbcFail_pres k s
  | .refclkLoss => execRefclkLoss_pres s
  | .corePairOff l j => execCorePairOff_pres l j s
  | .corePairOn l j => execCorePairOn_pres l j s
  | .corePairOnDone l j => execCorePairOnDone_pres l j s
  | .timeSync offsetPs => execTimeSync_pres offsetPs s
  | .flitRetry l m => execFlitRetry_pres l m s
  | .ucieRetrainDone l m t => execUcieRetrainDone_pres l m t s
  | .leafLinkTrain l t r => execLeafLinkTrain_pres l t r s
  | .partialReset l => execPartialReset_pres l s
  | .partialResetDone l => execPartialResetDone_pres l s
  | .boot img f => execBoot_pres img f s
  | .bootTimeout => execBootTimeout_pres s
  | .perstAssert => execPerstAssert_pres s
  | .moduleReset => execModuleReset_pres s
  | .powerOn volt10mV => execPowerOn_pres volt10mV s
  | .functionReset => execFunctionReset_pres s
  | .msixUnmask v => execMsixUnmask_pres v s
  | .bar2Access off wr len en u => execBar2Access_pres off wr len en u s
  | .registerWrite off w v => execRegisterWrite_pres off w v s
  | .watchdogExpiry core => execWatchdogExpiry_pres core s
  | .mbxNop m => execMbxNop_pres m s
  | .lmMargin m => execLmMargin_pres m s
  | .cfgWrite m flashOk => execCfgWrite_pres m flashOk s
  | .cfgRead m => execCfgRead_pres m s
  | .fwWrite m chk flashOk => execFwWrite_pres m chk flashOk s
  | .fwSelect m flashOk => execFwSelect_pres m flashOk s
  | .fwCommit m fuseOk => execFwCommit_pres m fuseOk s
  | .logRead m => execLogRead_pres m s
  | .atbMeasure m codes value => execAtbMeasure_pres m codes value s
  | .serdesEye m eyes => execSerdesEye_pres m eyes s
  | .ucieMargin m => execUcieMargin_pres m s
  | .optLoopback m errors => execOptLoopback_pres m errors s
  | .mailboxComplete m => execMailboxComplete_pres m s
  | .entdaa addr => execEntdaa_pres addr s
  | .setdasa addr => execSetdasa_pres addr s
  | .rstdaa => execRstdaa_pres s
  | .getpid => execGetpid_pres s
  | .getbcr => execGetbcr_pres s
  | .getdcr => execGetdcr_pres s
  | .getstatus => execGetstatus_pres s
  | .enec => execEnec_pres s
  | .disec => execDisec_pres s
  | .i3cIndexWrite index => execI3cIndexWrite_pres index s
  | .beaconToggle => execBeaconToggle_pres s
  | .ctlModuleReset => execCtlModuleReset_pres s
  | .ibiRetry accepted => execIbiRetry_pres accepted s
  | .fruRead off => execFruRead_pres off s
  | .getVersion => execGetVersion_pres s
  | .getCapabilities version => execGetCapabilities_pres version s
  | .negotiateAlgorithms version asym hash => execNegotiateAlgorithms_pres version asym hash s
  | .getDigests version => execGetDigests_pres version s
  | .getCertificate version slot off len => execGetCertificate_pres version slot off len s
  | .challenge version slot nonce => execChallenge_pres version slot nonce s
  | .getMeasurements version op nonce signed => execGetMeasurements_pres version op nonce signed s
  | .doeDiscovery index => execDoeDiscovery_pres index s
  | .leafManagerUncorrectableError l => execLeafManagerUncorrectableError_pres l s
  | .kvClearDone => execKvClearDone_pres s
  | .controlCoreException core => execControlCoreException_pres core s
  | .testModeNChange low => execTestModeNChange_pres low s
  | .idcode die => execIdcode_pres die s
  | .samplePreload die v => execSamplePreload_pres die v s
  | .extest die v => execExtest_pres die v s
  | .clamp die => execClamp_pres die s
  | .highz die => execHighz_pres die s
  | .ijtag die => execIjtag_pres die s
  | .bypass die opcode => execBypass_pres die opcode s
  | .inputOperating volt10mV => execInputOperating_pres volt10mV s
  | .lossOfSignal port lane => execLossOfSignal_pres port lane s
  | .signalDetect port lane => execSignalDetect_pres port lane s
  | .ucieMarginSlice m last res => execUcieMarginSlice_pres m last res s
  | .jobFatalIgnoreExpiry job => execJobFatalIgnoreExpiry_pres job s

/-- A step keeps them of the state that has lost its front command. -/
theorem step_pres {s t : State} (h : step s = .next t) : Pres { s with pending := s.pending.tail } t := by
  unfold step at h
  split at h
  next empty =>
    have same : ({ s with pending := s.pending.tail } : State) = s := by rw [empty, List.tail_nil, ← empty]
    rw [same]
    exact (keeps_next ((State.landSome_pres _).after (State.tick_pres s))).out t h
  next i rest front =>
    rw [front, List.tail_cons]
    exact (exec_keeps i _).out t h

/-- Settles O3: every step keeps what `Pres` says, of the state without the front command. -/
theorem stepConsumesOneCommandAndKeepsTheMemories : Obligations.StepConsumesOneCommandAndKeepsTheMemories := by
  unfold Obligations.StepConsumesOneCommandAndKeepsTheMemories
  intro s t h
  have kept := step_pres h
  exact ⟨kept.pend, kept.fru, kept.wf⟩

/-- Settles O4: the counter is among what every step keeps. -/
theorem antiRollbackCounterNeverFalls : Obligations.AntiRollbackCounterNeverFalls := by
  unfold Obligations.AntiRollbackCounterNeverFalls
  intro n s t low h
  exact low.trans (step_pres h).ctr

end Sys2Proof.Machine
end

section
/-! The queue of commands, the idle step, what reset leaves, and the hard-wired registers (R3, R5, R45, R69). -/

namespace Sys2Proof.Machine

/-! ### The front command and the idle step -/

/-- Settles O1: it is the second branch of `step`. -/
theorem stepRunsTheFrontCommand : Obligations.StepRunsTheFrontCommand := by
  unfold Obligations.StepRunsTheFrontCommand
  intro i rest s front
  rw [step, front]

theorem step_idle {s : State} (idle : s.pending = []) : step s = .next s.tick.landSome := by rw [step, idle]

theorem State.tick_clock (s : State) : s.tick.clock = s.clock + 1 := by
  unfold State.tick
  dsimp only
  split_ifs <;> rfl

/-- A tick changes the clock and what rack time is made of. -/
theorem State.tick_frame (s : State) :
    s.tick = { s with clock := s.tick.clock, rackTime := s.tick.rackTime, rackHold := s.tick.rackHold, rackSlew := s.tick.rackSlew } := by
  unfold State.tick
  dsimp only
  split_ifs <;> rfl

theorem State.tick_core (s : State) (c : Nat) : s.tick.core c = s.core c := by rw [s.tick_frame]; rfl

/-- A fold none of whose steps moves the start ends where it begins. -/
theorem foldl_stays {α β : Type} {f : β → α → β} {b : β} {l : List α} (h : ∀ a ∈ l, f b a = b) : l.foldl f b = b := by
  induction l with
  | nil => rfl
  | cons a l ih =>
    rw [List.foldl_cons, h a List.mem_cons_self]
    exact ih fun x hx => h x (List.mem_cons_of_mem _ hx)

/-- A transfer that is not dispatched copies nothing. -/
theorem State.copyOf_idle (s : State) (c : Nat) {e : Entry} (idle : e.phase ≠ .dispatched) : (s.copyOf c e).2.2.2.2 = [] := by
  unfold State.copyOf
  cases e.op <;> simp [idle]

/-- With nothing dispatched no unit lands. -/
theorem State.landSome_idle {s : State} (idle : ∀ (c : CoreId), ∀ e ∈ (s.core c.val).window, e.phase ≠ .dispatched) : s.landSome = s := by
  unfold State.landSome
  refine foldl_stays fun c hc => foldl_stays fun e he => ?_
  dsimp only
  rw [s.copyOf_idle c (idle ⟨c, List.mem_range.mp hc⟩ e he), List.foldl_nil]

/-- Settles O2: a tick, and no transfer moves where none is dispatched. -/
theorem idleStepLetsTimePass : Obligations.IdleStepLetsTimePass := by
  unfold Obligations.IdleStepLetsTimePass
  intro s idle
  refine ⟨step_idle idle, s.tick_clock, s.tick_frame, fun none => ?_⟩
  rw [step_idle idle, State.landSome_idle]
  simpa only [State.tick_core] using none

/-! ### Reset -/

theorem State.core_reset (c : CoreId) : State.reset.core c.val = Core.reset := by
  simp [State.core, State.reset, Vector.getD]

/-- Settles O5: at reset no field is listed, so each reads the value of its table. -/
theorem resetLeavesRegistersAtTheirValues : Obligations.ResetLeavesRegistersAtTheirValues := by
  unfold Obligations.ResetLeavesRegistersAtTheirValues
  exact ⟨fun _ => rfl, rfl, rfl, rfl, rfl, State.core_reset, rfl, rfl, fun _ => rfl, rfl, rfl, fun _ => rfl, by decide⟩

/-- Settles O6: the memories list nothing. -/
theorem resetMemoriesAreCanonical : Obligations.ResetMemoriesAreCanonical := by
  unfold Obligations.ResetMemoriesAreCanonical
  obtain ⟨hm, lm, fru⟩ := State.reset_hm_wf
  exact ⟨⟨hm, lm, fru, State.reset_core_sp_wf⟩, rfl⟩

/-! ### Scalar registers and predicates (R45) -/

theorem Core.pget_pset_same (k : Core) {p : Nat} (b : Bool) (within : p < 8) (hp : p ≠ 0) : (k.pset p b).pget p = b := by
  cases b <;> simp [Core.pset, Core.pget, hp, within]

theorem Core.pget_pset_other (k : Core) {p u : Nat} (b : Bool) (within : u < 8) (h : u ≠ p) : (k.pset p b).pget u = k.pget u := by
  by_cases hp : p = 0
  · simp [Core.pset, hp]
  · cases b <;> simp [Core.pset, Core.pget, hp, h, within]

/-- Settles O8: `sset` and `pset` leave register 0 and set only the register they name. -/
theorem hardWiredRegistersHold : Obligations.HardWiredRegistersHold := by
  unfold Obligations.HardWiredRegistersHold
  intro k r q p u v b
  refine ⟨rfl, rfl, rfl, rfl, fun hr => ?_, fun h => ?_, fun hp => ?_, fun h => ?_⟩
  · rw [Core.sget_sset_same, if_neg (Fin.val_ne_zero_iff.mpr hr)]
  · exact Core.sget_sset_other _ _ _ _ (Fin.val_ne_of_ne h)
  · exact k.pget_pset_same b p.isLt (Fin.val_ne_zero_iff.mpr hp)
  · exact k.pget_pset_other b u.isLt (Fin.val_ne_of_ne h)

end Sys2Proof.Machine
end

section
/-! What raising a fault changes, and how a task-fatal status stops a core and its task (R60, R232, R415, R416). -/

namespace Sys2Proof.Machine

/-! ### The parts of the state that a fault record reaches (R415, R416) -/

/-- The state s with those parts taken from t that a fault and its record reach: registers, hub memory and what lies in it, the
fault queue and the interrupt to the host. -/
def State.withRecords (s t : State) : State :=
  { s with regs := t.regs, freeCtr := t.freeCtr, hm := t.hm, hmBad := t.hmBad, kvSeqs := t.kvSeqs, kvPages := t.kvPages,
           faultq := t.faultq, faultWait := t.faultWait, errSeq := t.errSeq, hostOut := t.hostOut, lastIrq := t.lastIrq,
           irqDue := t.irqDue }

/-- From s the state comes to t by changing only what a fault and its record reach. -/
structure State.OnlyRecords (s t : State) : Prop where
  eq : t = s.withRecords t

theorem State.OnlyRecords.trans {s t u : State} (a : s.OnlyRecords t) (b : t.OnlyRecords u) : s.OnlyRecords u := by
  have step := congrArg (fun x => State.withRecords x u) a.eq
  exact ⟨b.eq.trans step⟩

/-- Any values of those parts. -/
theorem State.onlyRecords_lit (s : State) (regs : Tab Nat) (freeCtr : Nat) (hm : Mem) (hmBad : List Nat) (kvSeqs : Tab KvSeq)
    (kvPages : List KvPage) (faultq faultWait : List Fault_) (errSeq : Nat) (hostOut : List HostMsg) (lastIrq : Option Nat) (irqDue : Bool) :
    s.OnlyRecords { s with
      regs := regs, freeCtr := freeCtr, hm := hm, hmBad := hmBad, kvSeqs := kvSeqs, kvPages := kvPages, faultq := faultq,
      faultWait := faultWait, errSeq := errSeq, hostOut := hostOut, lastIrq := lastIrq, irqDue := irqDue } := ⟨rfl⟩

theorem State.OnlyRecords.refl (s : State) : s.OnlyRecords s := ⟨rfl⟩

theorem State.wr_onlyRecords (s : State) (f : Fld) (v : Nat) : s.OnlyRecords (s.wr f v) := s.onlyRecords_lit ..

theorem State.kvSpoil_onlyRecords (s : State) (off n : Nat) : s.OnlyRecords (s.kvSpoil off n) := by
  unfold State.kvSpoil
  dsimp only
  split
  · exact .refl s
  · exact s.onlyRecords_lit ..

theorem State.hmStore_onlyRecords (s : State) (off : Nat) (bs : List Byte) : s.OnlyRecords (s.hmStore off bs) :=
  (s.kvSpoil_onlyRecords off bs.length).trans (State.onlyRecords_lit ..)

theorem State.raiseVec_onlyRecords (s : State) (v : Nat) : s.OnlyRecords (s.raiseVec v) := by
  unfold State.raiseVec
  split
  · exact s.wr_onlyRecords ..
  · exact s.onlyRecords_lit ..

theorem State.errIrq_onlyRecords (s : State) : s.OnlyRecords s.errIrq := by
  unfold State.errIrq
  dsimp only
  generalize s.wr Reg.HOST_IRQ_CAUSE_ERR 1 = t, s.wr_onlyRecords Reg.HOST_IRQ_CAUSE_ERR 1 = marked
  refine marked.trans ?_
  exact iteInduction (motive := t.OnlyRecords) (fun _ => t.onlyRecords_lit ..)
    (fun _ => (t.raiseVec_onlyRecords _).trans (State.onlyRecords_lit ..))

theorem State.putRecord_onlyRecords (s : State) (f : Fault_) (slot : Nat) : s.OnlyRecords (s.putRecord f slot) :=
  (s.hmStore_onlyRecords _ _).trans (State.onlyRecords_lit ..)

theorem State.writeRecord_onlyRecords (s : State) (f : Fault_) : s.OnlyRecords (s.writeRecord f) :=
  State.writeRecord_cases s f (s.wr_onlyRecords ..) (s.wr_onlyRecords ..)
    (fun k => ((s.putRecord_onlyRecords f k).trans (State.wr_onlyRecords ..)).trans (State.errIrq_onlyRecords _))
    (fun t => ((s.putRecord_onlyRecords f t).trans (State.wr_onlyRecords ..)).trans (State.errIrq_onlyRecords _))

theorem State.raise_onlyRecords (s : State) (f : Fault_) : s.OnlyRecords (s.raise f) := by
  unfold State.raise
  dsimp only
  split
  · exact s.onlyRecords_lit ..
  · split
    · exact s.writeRecord_onlyRecords _
    · exact s.onlyRecords_lit ..

@[simp] theorem State.raise_tasks (s : State) (f : Fault_) : (s.raise f).tasks = s.tasks :=
  (congrArg State.tasks (s.raise_onlyRecords f).eq :)

/-! ### A core that stops -/

/-- From k the core comes to k' by losing reads of its run-ahead buffer. -/
def Core.LosesReads (k k' : Core) : Prop := k' = { k with preRead := k'.preRead } ∧ ∀ p ∈ k'.preRead, p ∈ k.preRead

theorem Core.LosesReads.refl (k : Core) : k.LosesReads k := ⟨rfl, fun _ => id⟩

theorem Core.LosesReads.trans {a b c : Core} (h : a.LosesReads b) (g : b.LosesReads c) : a.LosesReads c :=
  ⟨by rw [g.1, h.1], fun p hp => h.2 p (g.2 p hp)⟩

/-- What `Core.stop` leaves of a core: nothing queued, and no read but those of its remaining instructions (R60, R64). -/
structure Core.Stopped (k : Core) : Prop where
  state : k.state = 2
  reads : ∀ p ∈ k.preRead, ∃ e ∈ k.window, p.bound = some e.id
  window : ∀ e ∈ k.window, e.phase ≠ .queued

theorem Core.stop_stopped (k : Core) : k.stop.Stopped := by
  refine ⟨rfl, fun p hp => ?_, fun e he => ?_⟩
  · have kept := (List.mem_filter.mp hp).2
    simpa [Core.stop, and_assoc] using kept
  · have kept := (List.mem_filter.mp he).2
    simp only [Bool.and_eq_true, bne_iff_ne] at kept
    exact kept.1

theorem Core.Stopped.losesReads {k k' : Core} (h : k.Stopped) (l : k.LosesReads k') : k'.Stopped := by
  have same := l.1
  refine ⟨by rw [same]; exact h.state, fun p hp => ?_, by rw [same]; exact h.window⟩
  rw [same]
  exact h.reads p (l.2 p hp)

theorem State.dropAhead_losesReads (s : State) (c : Nat) (d : CoreId) : (s.core d.val).LosesReads ((s.dropAhead c).core d.val) := by
  unfold State.dropAhead
  by_cases h : d.val = c
  · subst h
    rw [State.core_modCore _ _ _ d.isLt]
    exact ⟨rfl, fun p hp => (List.mem_filter.mp hp).1⟩
  · rw [State.core_modCore_ne _ _ _ _ h]
    exact .refl _

theorem State.dropAhead_core_ne (s : State) {c d : Nat} (h : d ≠ c) : (s.dropAhead c).core d = s.core d := by
  unfold State.dropAhead
  rw [State.core_modCore_ne _ _ _ _ h]
  rfl

@[simp] theorem State.dropAhead_tasks (s : State) (c : Nat) : (s.dropAhead c).tasks = s.tasks := rfl

@[simp] theorem State.lastStatus_tasks (s : State) (c st : Nat) : (s.lastStatus c st).tasks = s.tasks := by
  unfold State.lastStatus
  split <;> rfl

/-- The run-ahead buffers of several cores are emptied. -/
def State.dropAheads (s : State) (cs : List Nat) : State := cs.foldl (fun s c => s.dropAhead c) s

theorem State.dropAheads_losesReads (s : State) (cs : List Nat) (d : CoreId) : (s.core d.val).LosesReads ((s.dropAheads cs).core d.val) :=
  foldl_keeps (fun t : State => (s.core d.val).LosesReads (t.core d.val)) _ (fun t c h => h.trans (t.dropAhead_losesReads c d)) cs s (.refl _)

theorem State.dropAheads_core_ne (s : State) {cs : List Nat} {d : Nat} (h : d ∉ cs) : (s.dropAheads cs).core d = s.core d := by
  induction cs generalizing s with
  | nil => rfl
  | cons c cs ih =>
    rw [List.mem_cons, not_or] at h
    exact (ih (s.dropAhead c) h.2).trans (s.dropAhead_core_ne h.1)

theorem getD_map {α β : Type} {n : Nat} (v : Vector α n) (f : α → β) (i : Nat) (d : α) (e : β) (h : i < n) : (v.map f).getD i e = f (v.getD i d) := by
  simp [Vector.getD, h]

/-! ### A task that stops (R232) -/

/-- The cores on which a task runs. -/
def State.coresOf (s : State) (t : Nat) : List Nat := (List.range 48).filter (fun c => (s.core c).task == t && t != 0)

/-- Core d after its task may have stopped. -/
theorem State.stopTask_core (s : State) (t : Nat) (d : CoreId) :
    (s.stopTask t).core d.val
      = (let k := (s.dropAheads (s.coresOf t)).core d.val
         if k.task = t ∧ t ≠ 0 ∧ k.state = 1 ∧ k.finished = false then k.stop else k) :=
  getD_map _ _ d.val Core.reset Core.reset d.isLt

theorem State.stopTask_core_other (s : State) {t : Nat} {d : CoreId} (h : (s.core d.val).task ≠ t) : (s.stopTask t).core d.val = s.core d.val := by
  have notOf : d.val ∉ s.coresOf t := by simp [State.coresOf, h]
  rw [s.stopTask_core, s.dropAheads_core_ne notOf]
  simp [h]

theorem State.stopTask_stops (s : State) {t : Nat} {d : CoreId} (here : (s.core d.val).task = t) (named : t ≠ 0) (runs : (s.core d.val).state = 1)
    (unfinished : (s.core d.val).finished = false) : ((s.stopTask t).core d.val).Stopped := by
  have same := (s.dropAheads_losesReads (s.coresOf t) d).1
  rw [s.stopTask_core]
  dsimp only
  rw [if_pos (by rw [same]; exact ⟨here, named, runs, unfinished⟩)]
  exact Core.stop_stopped _

/-- A core that does not run only loses reads. -/
theorem State.stopTask_core_still (s : State) {t : Nat} {d : CoreId} (still : (s.core d.val).state ≠ 1) :
    (s.core d.val).LosesReads ((s.stopTask t).core d.val) := by
  have lost := s.dropAheads_losesReads (s.coresOf t) d
  rw [s.stopTask_core]
  dsimp only
  rw [if_neg (by rw [lost.1]; exact fun h => still h.2.2.1)]
  exact lost

theorem State.dropAheads_tasks (s : State) (cs : List Nat) : (s.dropAheads cs).tasks = s.tasks := foldl_same State.tasks State.dropAhead (fun _ _ => rfl) cs s

@[simp] theorem State.stopTask_tasks (s : State) (t : Nat) : (s.stopTask t).tasks = s.tasks := s.dropAheads_tasks (s.coresOf t)

/-! ### A task-fatal status (R60, R232) -/

/-- The state in which the core with a task-fatal status has stopped, before the other cores of its task do. -/
def State.coreStopped (s : State) (c : Nat) (f : Fatal) : State :=
  let t := (s.core c).task
  let s := s.raise { Fault_.blank 3 f.status f.cause with
    core := c, unit := f.unit, task := t, job := s.coreJob c, ip := f.ip, addr := f.addr, info0 := f.info }
  let s := (s.lastStatus c f.status).modTask t (fun x => x.failWith f.status c f.ip)
  (s.dropAhead c).modCore c (fun k => if k.finished then k else k.stop)

theorem State.coreFatal_eq (s : State) (c : Nat) (f : Fatal) : s.coreFatal c f = (s.coreStopped c f).stopTask (s.core c).task := rfl


section
variable (s : State) (c d : CoreId) (f : Fatal)

theorem State.coreFatal_tasks (s : State) (c : Nat) (f : Fatal) :
    (s.coreFatal c f).tasks = s.tasks.map (fun x => if x.num == (s.core c).task then x.failWith f.status c f.ip else x) := by
  simp [State.coreFatal_eq, State.coreStopped, State.modTask]

theorem State.lastStatus_core (s : State) (c : CoreId) {st : Nat} (bad : st ≠ 0) :
    (s.lastStatus c.val st).core c.val = { s.core c.val with lastStatus := st } := by
  simp [State.lastStatus, bad]

theorem State.lastStatus_core_ne (s : State) {c d st : Nat} (h : d ≠ c) : (s.lastStatus c st).core d = s.core d := by
  unfold State.lastStatus
  split
  · rfl
  · exact State.core_modCore_ne _ _ _ _ h

theorem State.coreStopped_core_ne (h : d ≠ c) : (s.coreStopped c.val f).core d.val = s.core d.val := by
  have apart : d.val ≠ c.val := Fin.val_ne_of_ne h
  unfold State.coreStopped
  dsimp only
  rw [State.core_modCore_ne _ _ _ _ apart, State.dropAhead_core_ne _ apart, State.core_congr (State.modTask_cores _ _ _),
    State.lastStatus_core_ne _ apart, State.core_congr (s.raise_cores _)]

/-- The core itself, when it has not finished: its status noted, reads of its run-ahead buffer lost, and stopped. -/
theorem State.coreStopped_core (bad : f.status ≠ 0) (unfinished : (s.core c.val).finished = false) :
    ∃ k, ({ s.core c.val with lastStatus := f.status } : Core).LosesReads k ∧ (s.coreStopped c.val f).core c.val = k.stop := by
  unfold State.coreStopped
  dsimp only
  generalize ht : (State.lastStatus _ c.val f.status).modTask _ _ = t
  have noted : t.core c.val = { s.core c.val with lastStatus := f.status } := by
    rw [← ht, State.core_congr (State.modTask_cores _ _ _), State.lastStatus_core _ _ bad, State.core_congr (s.raise_cores _)]
  have lost := t.dropAhead_losesReads c.val c
  rw [noted] at lost
  refine ⟨_, lost, ?_⟩
  rw [State.core_modCore _ _ _ c.isLt, if_neg (by rw [lost.1]; simp [unfinished])]

end

/-- Settles O13: the core itself stops first, then the other cores of its task; no other core and no other task changes. -/
theorem taskFatalStatusStopsTheTask : Obligations.TaskFatalStatusStopsTheTask := by
  unfold Obligations.TaskFatalStatusStopsTheTask
  intro c f s
  dsimp only
  intro named bad
  have self : (s.core c.val).finished = false →
      ∃ k, ({ s.core c.val with lastStatus := f.status } : Core).LosesReads k ∧ k.stop.LosesReads ((s.coreFatal c.val f).core c.val) := by
    intro unfinished
    obtain ⟨k, lost, stopped⟩ := s.coreStopped_core c f bad unfinished
    have later := (s.coreStopped c.val f).stopTask_core_still (t := (s.core c.val).task) (d := c) (by rw [stopped, k.stop_stopped.state]; decide)
    rw [stopped] at later
    exact ⟨k, lost, later⟩
  refine ⟨fun unfinished => ?own, fun d here runs unfinished => ?others, fun d elsewhere => ?spared, fun x hx ours alive noJob => ?result,
    fun x hx other => ?otherTask⟩
  case own =>
    obtain ⟨k, lost, later⟩ := self unfinished
    have st := k.stop_stopped.losesReads later
    have window : ((s.coreFatal c.val f).core c.val).window = (s.core c.val).window.filter (fun e => e.phase != .queued && e.runsOn) := by
      rw [later.1, lost.1]; rfl
    refine ⟨st.state, by rw [later.1, lost.1]; rfl, st.reads, fun e he => ⟨?_, st.window e he⟩, by rw [later.1, lost.1]; rfl, by rw [later.1, lost.1]; rfl⟩
    rw [window] at he
    exact (List.mem_filter.mp he).1
  case others =>
    have st : ((s.coreFatal c.val f).core d.val).Stopped := by
      by_cases same : d = c
      · subst same
        obtain ⟨k, -, later⟩ := self unfinished
        exact k.stop_stopped.losesReads later
      · have core := s.coreStopped_core_ne c d f same
        rw [State.coreFatal_eq]
        exact State.stopTask_stops _ (by rw [core]; exact here) named (by rw [core]; exact runs) (by rw [core]; exact unfinished)
    exact ⟨st.state, st.reads, st.window⟩
  case spared =>
    have apart : d ≠ c := fun e => elsewhere (by rw [e])
    have core := s.coreStopped_core_ne c d f apart
    rw [State.coreFatal_eq, State.stopTask_core_other, core]
    rwa [core]
  case result =>
    refine ⟨x.failWith f.status c.val f.ip, ?_, ours, ?_⟩
    · rw [State.coreFatal_tasks]
      exact List.mem_map.mpr ⟨x, hx, by simp [ours]⟩
    · cases h : x.fatal <;> simp [Task.failWith, alive, noJob, h]
  case otherTask =>
    rw [State.coreFatal_tasks]
    exact List.mem_map.mpr ⟨x, hx, by simp [other]⟩

end Sys2Proof.Machine
end

section
/-! Scalar, compare and predicate instructions; loads, stores and branches (R51, R77, R78, R80, R422). -/

namespace Sys2Proof.Machine

/-! ### Arithmetic, compares and predicates (R77) -/

section
variable {s : State} {c : CoreId} {h : Hdr} {opc operands : Nat}

theorem State.Issues.alu {rd ra : Fin 64} {b : SrcB} (i : s.Issues c h (srcBOpc b opc) (packAB rd ra b)) (f : Word → Word → Word) :
    s.alu c h opc rd ra b f = (s.taken c h).moved c h (fun k =>
      k.sset rd.val (f (((s.taken c h).core c.val).sget ra.val) (((s.taken c h).core c.val).srcB h b))) := by
  rw [State.alu, i.issueCore _ (fun _ => Core.sset_ip _ _ _)]
  exact State.moved_congr h rfl

theorem State.Issues.cmp {pd : Fin 8} {ra : Fin 64} {b : SrcC} (i : s.Issues c h (srcCOpc b opc) (packC pd ra b)) (cc : Cond) :
    s.cmp c h opc pd ra b cc = (s.taken c h).moved c h (fun k =>
      k.pset pd.val (cc.holds (((s.taken c h).core c.val).sget ra.val) (((s.taken c h).core c.val).srcC h b))) := by
  rw [State.cmp, i.issueCore _ (fun _ => Core.pset_ip _ _ _)]
  exact State.moved_congr h rfl

theorem State.Issues.pred {pd pa pb : Fin 8} (i : s.Issues c h opc (pd.val * 2 ^ 34 + pa.val * 2 ^ 31 + pb.val * 2 ^ 28)) (f : Bool → Bool → Bool) :
    s.pred c h opc pd pa pb f = (s.taken c h).moved c h (fun k =>
      k.pset pd.val (f (((s.taken c h).core c.val).pget pa.val) (((s.taken c h).core c.val).pget pb.val))) := by
  rw [State.pred, i.issueCore _ (fun _ => Core.pset_ip _ _ _)]
  exact State.moved_congr h rfl

end

theorem Cond.holds_ne (a b : Word) : Cond.ne.holds a b = decide (a ≠ b) := by simp only [Cond.holds, bne, BEq.beq, decide_not]

theorem Cond.holds_ge (a b : Word) : Cond.ge.holds a b = decide (b.toInt ≤ a.toInt) := by
  simp only [Cond.holds, BitVec.slt, ← decide_not, not_lt]

theorem Cond.holds_geu (a b : Word) : Cond.geu.holds a b = decide (b.toNat ≤ a.toNat) := by
  simp only [Cond.holds, BitVec.ult, ← decide_not, not_lt]

theorem fld_low (x w : Nat) : fld x 0 w = x % 2 ^ w := by rw [fld, pow_zero, Nat.div_one]

/-- Settles O7: each instruction is one use of `alu`, `cmp` or `pred`. -/
theorem scalarAndPredicateResults : Obligations.ScalarAndPredicateResults := by
  unfold Obligations.ScalarAndPredicateResults
  refine ⟨fun c h rd ra b imm s => ?scalar, fun c h pd pa pb ra b s => ?predicate⟩
  case scalar =>
    have result {opc : Nat} (i : s.Issues c h (srcBOpc b opc) (packAB rd ra b)) (f : Word → Word → Word) {v : Word}
        (e : f (((s.taken c h).core c.val).sget ra.val) (((s.taken c h).core c.val).srcB h b) = v) :
        Host.Outcome.next (φ := Fault) (ρ := Refusal) (s.alu c h opc rd ra b f)
          = .next ((s.taken c h).moved c h (fun k => k.sset rd.val v)) := by rw [i.alu, e]
    refine ⟨fun i => result i _ rfl, fun i => result i _ rfl, fun i => result i _ rfl, fun i => result i _ rfl, fun i => result i _ rfl,
      fun i => result i _ rfl, fun i => result i _ ?shl, fun i => result i _ ?shr, fun i => result i _ ?sra, fun i => result i _ ?min,
      fun i => result i _ ?max, fun i => result i _ ?minu, fun i => result i _ ?maxu, fun i => ?li⟩
    case shl | shr | sra => rw [fld_low]; norm_num
    case min | max => simp only [BitVec.slt, decide_eq_true_eq]
    case minu | maxu => simp only [BitVec.ult, decide_eq_true_eq]
    case li => exact congrArg Host.Outcome.next (i.issueCore _ (fun _ => Core.sset_ip _ _ _))
  case predicate =>
    have compared {opc : Nat} (i : s.Issues c h (srcCOpc b opc) (packC pd ra b)) (cc : Cond) {v : Bool}
        (e : cc.holds (((s.taken c h).core c.val).sget ra.val) (((s.taken c h).core c.val).srcC h b) = v) :
        Host.Outcome.next (φ := Fault) (ρ := Refusal) (s.cmp c h opc pd ra b cc)
          = .next ((s.taken c h).moved c h (fun k => k.pset pd.val v)) := by rw [i.cmp, e]
    refine ⟨fun i => compared i .eq rfl, fun i => compared i .ne (Cond.holds_ne _ _), fun i => compared i .lt rfl, fun i => compared i .ltu rfl,
      fun i => compared i .ge (Cond.holds_ge _ _), fun i => compared i .geu (Cond.holds_geu _ _), fun i => congrArg Host.Outcome.next (i.pred _),
      fun i => congrArg Host.Outcome.next (i.pred _), fun i => congrArg Host.Outcome.next (i.pred _), fun i =>
        congrArg Host.Outcome.next (State.Issues.pred (pb := 0) i fun a _ => !a)⟩

/-! ### Loads and stores (R78, R422) -/

/-- Errors that a step meets in SP and HM mark words of a scratchpad uncorrectable, and change no core otherwise (R422). -/
theorem State.sramUpsets_core (s : State) (us : List Upset) (c : CoreId) :
    ∃ bad, (s.sramUpsets us).core c.val = { s.core c.val with spBad := bad } := by
  unfold State.sramUpsets
  refine foldl_keeps (fun t : State => ∃ bad, t.core c.val = { s.core c.val with spBad := bad }) _ (fun t u ⟨bad, h⟩ => ?_) us s ⟨_, rfl⟩
  cases u with
  | hmCorrected off => exact ⟨bad, (State.core_congr (t.raise_cores _) _).trans h⟩
  | spCorrected d off => exact ⟨bad, (State.core_congr (t.raise_cores _) _).trans h⟩
  | hmUncorrectable off =>
    dsimp only
    split
    · exact ⟨bad, h⟩
    · exact ⟨bad, h⟩
  | spUncorrectable d off =>
    dsimp only
    by_cases same : c = d
    · subst same
      rw [State.core_modCore _ _ _ c.isLt, h]
      split
      · exact ⟨_, rfl⟩
      · exact ⟨_, rfl⟩
    · rw [State.core_modCore_ne _ _ _ _ (Fin.val_ne_of_ne same)]
      exact ⟨bad, h⟩
  | lmUncorrectable | lmCorrected | arrayResidue => exact ⟨bad, h⟩

section
variable {s : State} {c : CoreId} {h : Hdr} {rd ra : Fin 64} {imm : BitVec 25} {u : List Upset}

/-- LD that issues, on the address that RA and the immediate give. -/
theorem State.Issues.ld (i : s.Issues c h 0x1E (rd.val * 2 ^ 31 + ra.val * 2 ^ 25 + imm.toNat)) {a : Nat}
    (ha : ((s.taken c h).core c.val).ldAddr h ra imm = a) :
    exec (.ld c h rd ra imm u) s = .next
      (let su := (s.taken c h).sramUpsets u
       if !ldOk a then su.seqFatal c.val Status.addrRange 0x0102 0
       else if ((su.core c.val).spRead a 8).2.isBad then
         su.coreFatal c.val { status := Status.eccUncorrected, cause := 0x0202, unit := 0, ip := ((s.taken c h).core c.val).ip,
                              addr := BitVec.ofNat 64 a, info := 2 }
       else su.moved c h (fun k => k.sset rd.val (BitVec.ofNat 64 (leNat (((s.taken c h).core c.val).sp.readN a 8))))) := by
  obtain ⟨bad, hb⟩ := (s.taken c h).sramUpsets_core u c
  have addr : (((s.taken c h).sramUpsets u).core c.val).ldAddr h ra imm = a := by rw [hb, ← ha]; rfl
  have sameIp : (((s.taken c h).sramUpsets u).core c.val).ip = ((s.taken c h).core c.val).ip := by rw [hb]
  have sameSp : ((((s.taken c h).sramUpsets u).core c.val).spRead a 8).1 = ((s.taken c h).core c.val).sp.readN a 8 := by rw [hb]; rfl
  show Host.Outcome.next (s.issue ..) = _
  rw [i.issue]
  simp only [addr, sameIp, sameSp]
  rw [State.advance_moved _ c h _ (fun _ => Core.sset_ip _ _ _) (by rw [sameIp, State.taken_ip]; exact i.inside)]

/-- ST that issues. -/
theorem State.Issues.st (i : s.Issues c h 0x1F (rd.val * 2 ^ 31 + ra.val * 2 ^ 25 + imm.toNat)) {a : Nat}
    (ha : ((s.taken c h).core c.val).ldAddr h ra imm = a) :
    exec (.st c h rd ra imm) s = .next
      (if !ldOk a then (s.taken c h).seqFatal c.val Status.addrRange 0x0102 0
       else (s.taken c h).moved c h (fun k => k.spWrite a (leBytes 8 (k.sget rd.val).toNat))) := by
  show Host.Outcome.next (s.issue ..) = _
  rw [i.issue]
  simp only [ha, State.spWrite]
  rw [State.advance_moved _ c h _ (fun _ => Core.spWrite_ip _ _ _) (by simpa using i.inside)]
  exact congrArg _ (ite_congr rfl (fun _ => rfl) fun _ => State.moved_congr h rfl)

end

theorem ldOk_iff (a : Nat) : ldOk a = true ↔ a % 8 = 0 ∧ a ≤ 0x27FFFF8 := by simp [ldOk]

/-! ### Branches (R51, R80) -/

/-- A jump inside the instruction buffer. -/
theorem State.jumpTo_inside (s : State) (c : Nat) {t : Int} (low : 0 ≤ t) (high : t ≤ 32767) :
    s.jumpTo c t = s.modCore c (fun k => { k with ip := t.toNat, dwTaken := false, stall := none }) := by
  rw [State.jumpTo, if_neg (by omega)]

theorem State.jumpTo_outside (s : State) (c : Nat) {t : Int} (out : t < 0 ∨ 32767 < t) :
    s.jumpTo c t = s.seqFatal c Status.addrRange 0x0102 0 := by
  rw [State.jumpTo, if_pos (by omega)]

/-- Settles O9: loads and stores by their address, branches by their target. -/
theorem loadsStoresAndBranches : Obligations.LoadsStoresAndBranches := by
  unfold Obligations.LoadsStoresAndBranches
  refine ⟨fun c h rd ra imm u s => ?memory, fun c h ra off s => ?branches⟩
  case memory =>
    refine ⟨fun i ok good => ?_, fun i ok => ?_, fun i ok bad => ?_, fun range => ⟨fun i => ?_, fun i => ?_⟩, ldOk_iff _⟩
    · rw [i.ld rfl]
      simp only [Core.ldAddr, ok, good, Bool.not_true, Bool.false_eq_true, if_false]
      obtain ⟨w, hw⟩ := (s.taken c h).sramUpsets_core u c
      exact congrArg _ (State.moved_congr h (by rw [hw]))
    · rw [i.st rfl]
      simp only [Core.ldAddr, ok, Bool.not_true, Bool.false_eq_true, if_false]
    · rw [i.ld rfl]
      simp only [Core.ldAddr, ok, bad, Bool.not_true, Bool.false_eq_true, if_false, if_true]
    · rw [i.ld rfl]
      simp only [Core.ldAddr, range, Bool.not_false, if_true]
    · rw [i.st rfl]
      simp only [Core.ldAddr, range, Bool.not_false, if_true]
  case branches =>
    have loops (i : s.Issues c h 0x31 (ra.val * 2 ^ 31 + off.toNat)) : exec (.loop c h ra off) s = .next
        (let s0 := s.taken c h
         let v := (s0.core c.val).sget ra.val - 1
         if v ≠ 0 then (s0.modCore c.val (fun k => k.sset ra.val v)).jumpTo c.val ((s0.core c.val).ip + (h.immS off).toInt)
         else (s0.modCore c.val (fun k => k.sset ra.val v)).advance c.val h.words) := congrArg Host.Outcome.next (i.issue _)
    refine ⟨fun i low high => ?_, fun i out => ?_, fun i more low high => ?_, fun i last => ?_, fun i near => ?_, fun i far => ?_⟩
    · exact congrArg Host.Outcome.next ((i.issue _).trans (State.jumpTo_inside _ _ low high))
    · exact congrArg Host.Outcome.next ((i.issue _).trans (State.jumpTo_outside _ _ out))
    · rw [loops i]
      dsimp only
      rw [if_pos more, State.jumpTo_inside _ _ low high, State.modCore_modCore]
    · rw [loops i]
      dsimp only
      rw [if_neg (not_not.mpr last), last, State.advance_moved _ c h _ (fun _ => Core.sset_ip _ _ _) (by simpa using i.inside)]
    · exact congrArg Host.Outcome.next ((i.issue _).trans (State.jumpTo_inside _ _ (Int.natCast_nonneg _) (Int.ofNat_le.mpr near)))
    · exact congrArg Host.Outcome.next ((i.issue _).trans (State.jumpTo_outside _ _ (.inr (Int.ofNat_lt.mpr far))))

end Sys2Proof.Machine
end

section
/-! NOP and END, and encodings that are not defined (R51, R66, R67, R74, R75, R80, R137). -/

namespace Sys2Proof.Machine

/-! ### Engine instructions that run with words found bad -/

/-- As `State.Runs.overLink`, with words found bad while it ran (R422). -/
theorem State.Runs.overLink_upsets {s : State} {c : CoreId} {id : Nat} {e : Entry} (r : s.Runs c id e) (us : List Upset)
    (f : State → Entry → State) : s.runEntry c.val id us f = (s.sramUpsets us).overLink c.val e f := by
  have slotIn : (e.slotEn && decide (e.slot > 0x4FFFFF)) = false := by
    simpa only [Bool.and_eq_false_imp, decide_eq_false_iff_not, not_lt] using r.slot
  have hasArray : (e.q != 8 && (s.core c.val).noArray e.q) = false := by
    rcases r.array with h | h <;> simp [h]
  unfold State.runEntry
  rw [r.ready]
  simp only [r.alive, slotIn, hasArray, Bool.or_self, Bool.false_eq_true, if_false]

/-- An instruction that sends nothing runs without the leaf link. -/
theorem State.overLink_local (s : State) (c : Nat) {e : Entry} (f : State → Entry → State) (here : s.crosses c e.op = false) :
    s.overLink c e f = f s e := by
  unfold State.overLink
  rw [here]
  rfl

/-! ### Advance (R51) -/

/-- The core goes on past an instruction that changes nothing. -/
theorem State.advance_self (s : State) (c : CoreId) (h : Hdr) (inside : (s.core c.val).ip + h.words ≤ 32767) :
    s.advance c.val h.words = s.moved c h (fun k => k) := by
  have e := s.advance_moved c h (fun k => k) (fun _ => rfl) inside
  rwa [State.modCore_self] at e

/-- An advance past word 32,767. -/
theorem State.advance_past (s : State) (c : Nat) {words : Nat} (past : 32767 < (s.core c).ip + words) :
    s.advance c words
      = s.coreFatal c { status := Status.addrRange, cause := 0x0102, unit := 0, ip := (s.core c).ip, addr := 0, info := 0 } := by
  rw [State.advance]
  exact if_pos past

/-! ### Fillers that end (R137) -/

theorem Core.fillerOf_modFiller_ne (k : Core) {i j : Nat} (f : Filler → Filler) (h : j ≠ i) : (k.modFiller i f).fillerOf j = k.fillerOf j :=
  getD_set_other _ _ _ _ _ h

theorem Core.fillerOf_modFiller (k : Core) {i : Nat} (f : Filler → Filler) (h : i < 4) : (k.modFiller i f).fillerOf i = f (k.fillerOf i) :=
  getD_set_same _ _ _ _ h

/-- A check failure of a filler reaches no core's fillers. -/
theorem State.fillerResidue_fillers (s : State) (c : CoreId) (i : Nat) :
    ((s.fillerResidue c.val i).core c.val).filler = (s.core c.val).filler := by
  unfold State.fillerResidue State.checkFail
  dsimp only
  rw [State.core_congr (State.raise_cores _ _), State.core_modCore _ _ _ c.isLt]
  rfl

theorem State.endFiller_idle (s : State) (c i : Nat) (us : List Upset) (idle : ((s.core c).fillerOf i).running = false) :
    s.endFiller c i us = s := by
  unfold State.endFiller
  simp only [idle, Bool.false_eq_true, if_false]

/-- The core after the filler of array i has ended: its filler does not run, and the others are as before. -/
theorem State.endFiller_fillerOf (s : State) (c : CoreId) {i j : Nat} (us : List Upset) (hi : i < 4) :
    ((s.endFiller c.val i us).core c.val).fillerOf j
      = if j = i then { (s.core c.val).fillerOf i with running := false } else (s.core c.val).fillerOf j := by
  by_cases idle : ((s.core c.val).fillerOf i).running = false
  · rw [s.endFiller_idle c.val i us idle]
    split
    next same => rw [same, ← idle]
    next => rfl
  · unfold State.endFiller
    rw [Bool.not_eq_false] at idle
    simp only [idle, if_true]
    rw [State.core_modCore _ _ _ c.isLt]
    generalize ht : List.foldl (fun s i => s.fillerResidue c.val i) s (residues us [i]) = t
    have same : (t.core c.val).filler = (s.core c.val).filler := by
      rw [← ht]
      exact foldl_same (fun t : State => (t.core c.val).filler) _ (fun t i => t.fillerResidue_fillers c i) _ _
    have every (j : Nat) : (t.core c.val).fillerOf j = (s.core c.val).fillerOf j := congrArg (fun v => v.getD j Filler.reset) same
    split
    next h =>
      rw [h, Core.fillerOf_modFiller _ _ hi]
      exact congrArg (fun f : Filler => { f with running := false }) (every i)
    next h =>
      rw [Core.fillerOf_modFiller_ne _ _ h]
      exact every j

/-- Fillers that have ended stay so while others end. -/
theorem State.endFiller_stays (s : State) (c : CoreId) {i j : Nat} (us : List Upset) (hi : i < 4)
    (ended : ((s.core c.val).fillerOf j).running = false) : (((s.endFiller c.val i us).core c.val).fillerOf j).running = false := by
  rw [s.endFiller_fillerOf c us hi]
  split
  · rfl
  · exact ended

theorem State.endFillers_idle (s : State) (c : Nat) (us : List Upset) (idle : ∀ i, i < 4 → ((s.core c).fillerOf i).running = false) :
    s.endFillers c us = s :=
  foldl_stays fun i hi => s.endFiller_idle c i us (idle i (List.mem_range.mp hi))

theorem State.endFillers_ended (s : State) (c : CoreId) (us : List Upset) {i : Nat} (hi : i < 4) :
    (((s.endFillers c.val us).core c.val).fillerOf i).running = false := by
  have self (s : State) {i : Nat} (hi : i < 4) : (((s.endFiller c.val i us).core c.val).fillerOf i).running = false := by
    rw [s.endFiller_fillerOf c us hi, if_pos rfl]
  have all (l : List Nat) (inside : ∀ j ∈ l, j < 4) (s : State) (ended : i ∈ l ∨ ((s.core c.val).fillerOf i).running = false) :
      (((l.foldl (fun s j => s.endFiller c.val j us) s).core c.val).fillerOf i).running = false := by
    induction l generalizing s with
    | nil => exact ended.resolve_left List.not_mem_nil
    | cons j l ih =>
      refine ih (fun x hx => inside x (List.mem_cons_of_mem _ hx)) _ ?_
      have hj := inside j List.mem_cons_self
      rcases ended with mem | ended
      · rcases List.mem_cons.mp mem with rfl | mem
        · exact .inr (self s hj)
        · exact .inl mem
      · exact .inr (s.endFiller_stays c us hj ended)
  exact all (List.range 4) (fun j hj => List.mem_range.mp hj) s (.inl (List.mem_range.mpr hi))

/-! ### Undefined encodings (R74, R75) -/

theorem undefinedWord_of_opc {w : Word} (h : opcQueues (wordOpc w) = none) : undefinedWord w = true := by rw [undefinedWord, h]

theorem undefinedWord_of_queue {w : Word} (h : ∀ qs, opcQueues (wordOpc w) = some qs → wordQ w ∉ qs) : undefinedWord w = true := by
  cases row : opcQueues (wordOpc w) with
  | none => exact undefinedWord_of_opc row
  | some qs => simp [undefinedWord, row, h qs row]

/-- A base word whose extension word would lie past the buffer (R51). -/
theorem State.issue_past (s : State) (c : CoreId) (h : Hdr) (opc operands : Nat) (k : State → State) (alive : s.failed = false)
    (ready : (s.core c.val).canIssue = true) (past : wordExt (s.core c.val).fetched = true ∧ 32767 < (s.core c.val).ip + 1) :
    s.issue c.val h opc operands k = s.seqFatal c.val Status.addrRange 0x0102 0 := by
  unfold State.issue
  simp only [alive, ready, past.1, past.2, decide_true, Bool.and_self, Bool.not_true, Bool.or_self, Bool.false_eq_true, if_false, if_true]

/-- Settles O12: NOP and END at issue and at their run, and the order in which issue finds what it does not take. -/
theorem endsAndUndefinedEncodings : Obligations.EndsAndUndefinedEncodings := by
  unfold Obligations.EndsAndUndefinedEncodings
  refine ⟨fun c h id e u s => ⟨fun i q0 => ?nop, fun i engine => ?nopJoins, fun r op => ?nopRuns, fun i idle => ?ending, fun i => ?ends,
    fun alive runs ended unfinished empty => ?finish, fun busy => ?waits⟩, fun c h rd ra b s alive ready => ?undefined, fun w hw => ?words⟩
  case nop =>
    refine congrArg Host.Outcome.next ((i.issue _).trans ?_)
    rw [if_pos q0]
    exact State.advance_self _ _ _ (by simpa using i.inside)
  case nopJoins =>
    refine congrArg Host.Outcome.next ((i.issue _).trans ?_)
    rw [if_neg engine, State.taken_engine _ _ _ engine]
    exact State.enqueue_joined _ _ _ _ i.space i.inside
  case nopRuns =>
    refine congrArg Host.Outcome.next ((r.overLink_upsets u _).trans ?_)
    rw [State.overLink_local _ _ _ (by rw [op]; rfl), if_pos op]
    rfl
  case ending =>
    refine congrArg Host.Outcome.next ((i.issue _).trans ?_)
    obtain ⟨k, hk⟩ := s.core_taken c h
    dsimp only
    rw [State.endFillers_idle _ _ _ (by rw [hk]; exact idle)]
  case ends =>
    refine ⟨_, congrArg Host.Outcome.next (i.issue _), ?_⟩
    rw [State.core_modCore _ _ _ c.isLt]
    refine ⟨rfl, rfl, fun j hj => ?_⟩
    have ended := (s.taken c h).endFillers_ended c u hj
    generalize (s.taken c h).endFillers c.val u = t at ended ⊢
    exact ended
  case finish =>
    refine congrArg Host.Outcome.next ?_
    rw [if_pos ⟨alive, runs, ended, unfinished, empty⟩]
  case waits =>
    refine congrArg Host.Outcome.next ?_
    rw [if_neg fun all => busy all.2.2.2.2]
  case undefined =>
    have inBuffer (past : ¬ (wordExt (s.core c.val).fetched = true ∧ 32767 < (s.core c.val).ip + 1)) :
        (wordExt (s.core c.val).fetched && decide ((s.core c.val).ip + 1 > 32767)) = false := by
      simpa only [Bool.and_eq_false_imp, decide_eq_false_iff_not, not_and] using past
    have run : exec (.add c h rd ra b) s = .next (s.issue c.val h (srcBOpc b 0x02) (packAB rd ra b) (fun s =>
        (s.modCore c.val (fun k => k.sset rd.val (k.sget ra.val + k.srcB h b))).advance c.val h.words)) := rfl
    rw [run]
    refine ⟨fun past => ?_, fun within undef => ?_, fun within isDefined other => ?_, fun within isDefined fetched room guarded noWait beyond => ?_⟩
    · rw [s.issue_past c h _ _ _ alive ready past, State.seqFatal]
    · rw [s.issue_undefined c h _ _ _ alive ready (inBuffer within) undef]
    · rw [s.issue_other c h _ _ _ (inBuffer within) isDefined other]
    · have ip : ((s.modCore c.val (fun k => k.sset rd.val (k.sget ra.val + k.srcB h b))).core c.val).ip = (s.core c.val).ip := by
        rw [State.core_modCore _ _ _ c.isLt, Core.sset_ip]
      unfold State.issue
      simp only [alive, ready, room, fetched, isDefined, guarded, inBuffer within, noWait, Bool.or_self, Bool.not_true, Bool.false_eq_true, if_false,
        ne_eq, not_true_eq_false, false_and, and_false]
      rw [State.advance_past _ _ (by rw [ip]; exact beyond), ip]
  case words =>
    rcases hw with reserved | noRow | notQueue
    · exact undefinedWord_of_opc (by rw [reserved]; rfl)
    · exact undefinedWord_of_opc noRow
    · exact undefinedWord_of_queue notQueue

end Sys2Proof.Machine
end

section
/-! Local tumblers (R81-R83). -/

namespace Sys2Proof.Machine

/-! ### Additions to a count (R81) -/

theorem tumAdd_underflow {v : Word32} {n : Int} (low : (v.toNat : Int) + n < 0) : tumAdd v n = (0, Status.tumUnderflow) := if_pos low

theorem tumAdd_overflow {v : Word32} {n : Int} (high : 2 ^ 32 - 1 < (v.toNat : Int) + n) :
    tumAdd v n = (BitVec.allOnes 32, Status.tumOverflow) := by
  unfold tumAdd
  dsimp only
  rw [if_neg (by omega), if_pos high]

theorem tumAdd_exact {v : Word32} {n : Int} (low : 0 ≤ (v.toNat : Int) + n) (high : (v.toNat : Int) + n < 2 ^ 32) :
    tumAdd v n = (BitVec.ofInt 32 (v.toNat + n), Status.ok) := by
  unfold tumAdd
  dsimp only
  rw [if_neg (by omega), if_neg (by omega)]

/-- A count in range is the integer that it was made from. -/
theorem ofInt_toNat_of_range {x : Int} (low : 0 ≤ x) (high : x < 2 ^ 32) : ((BitVec.ofInt 32 x).toNat : Int) = x := by
  rw [BitVec.toNat_ofInt]
  omega

/-! ### Changes of one core -/

/-- Two changes that agree on the core as it stands are one. -/
theorem State.modCore_congr {s : State} {c : Nat} {f g : Core → Core} (e : f (s.core c) = g (s.core c)) : s.modCore c f = s.modCore c g := by
  unfold State.modCore
  rw [e]

@[simp] theorem State.staleReads_ip (s : State) (c : CoreId) (scope : Nat) : ((s.staleReads c.val scope).core c.val).ip = (s.core c.val).ip := by
  unfold State.staleReads
  rw [State.core_modCore _ _ _ c.isLt]

/-! ### Waits (R83) -/

/-- A wait with none before it finds the whole count. -/
theorem Core.countFor_first {k : Core} {n q : Nat} (first : ∀ w ∈ k.waitsOn n, q ≤ w.1) : k.countFor n q = (k.ltGet n).toNat := by
  have none : (k.waitsOn n).filter (fun w => decide (w.1 < q)) = [] := by
    simpa only [List.filter_eq_nil_iff, decide_eq_true_eq, not_lt] using first
  rw [Core.countFor, none, List.foldl_nil]

section
variable {s : State} {c : CoreId} {h : Hdr} {o : FmtG} {id : Nat} {e : Entry}

theorem State.Queues.tumLocal {i : Instr} {opc : Nat} (q : s.Queues c h opc (packG o)) (engine : h.q.val ≠ 0) {f : State → State} {op : EInst}
    (run : exec i s = .next (s.issue c.val h opc (packG o) f)) (joins : f (s.taken c h) = (s.taken c h).enqueue c.val h op) :
    exec i s = .next (s.joined c h op) := by
  rw [run, q.issue, joins, State.taken_engine _ _ _ engine, State.enqueue_joined _ _ _ _ q.space q.inside]

/-- An engine's TUM.WAIT: met, it takes what it consumes and completes; else it holds its queue. -/
theorem exec_tumWait_run {t m sc : Nat} {w : Bool} (r : s.Runs c id e) (op : e.op = .tumWait t m sc w) :
    exec (.tumWait c (.run id [])) s = .next
      (if m ≤ (s.core c.val).countFor t e.q then (s.modCore c.val (fun k => if w then k.ltTake t m else k)).completed c id 0 else s) := by
  refine congrArg Host.Outcome.next ((r.run _ (by rw [op]; rfl)).trans ?_)
  rw [op]
  rfl

end

/-- Settles O14: at issue, at the engine's run, and the three ranges of a sum. -/
theorem localTumblers : Obligations.LocalTumblers := by
  unfold Obligations.LocalTumblers
  refine ⟨fun c h o id e s => ?_, fun v n => ⟨tumAdd_underflow, tumAdd_overflow, fun low high => ?exact⟩⟩
  case exact =>
    rw [tumAdd_exact low (by omega)]
    exact ⟨ofInt_toNat_of_range low (by omega), rfl⟩
  have inside {opc : Nat} (i : s.Issues c h opc (packG o)) : ((s.taken c h).core c.val).ip + h.words ≤ 32767 := by simpa using i.inside
  refine ⟨fun i q0 low high => ?add, fun i q0 met => ?wait, fun i q0 unmet => ?stalls, fun i q0 => ?set, fun i => ?read,
    fun q engine => q.tumLocal engine rfl (if_neg engine), fun q engine => q.tumLocal engine rfl (if_neg engine),
    fun q engine => q.tumLocal engine rfl ?setJoins, fun t m sc r op low high => ?addRun, fun t m sc r op met => ?takes,
    fun t m sc r op met => ?passes, fun t m sc w r op unmet => ?holds, fun k t q => Core.countFor_first, fun t v r op => ?setRun⟩
  case add =>
    refine congrArg Host.Outcome.next ((i.issue _).trans ?_)
    dsimp only
    rw [if_pos q0, State.seqTumAdd, tumAdd_exact low high]
    exact State.advance_moved _ c h _ (fun _ => Core.ltSet_ip _ _ _) (inside i)
  case wait =>
    refine congrArg Host.Outcome.next ((i.issue _).trans ?_)
    dsimp only
    rw [if_pos q0, if_pos met]
    refine State.advance_self _ c h ?_
    rw [State.staleReads_ip, State.core_modCore _ _ _ c.isLt, apply_ite Core.ip, Core.ltTake_ip, ite_self]
    exact inside i
  case stalls =>
    refine congrArg Host.Outcome.next ((i.issue _).trans ?_)
    dsimp only
    rw [if_pos q0, if_neg (by omega)]
  case set =>
    refine congrArg Host.Outcome.next ((i.issue _).trans ?_)
    dsimp only
    rw [if_pos q0]
    exact State.advance_moved _ c h _ (fun _ => Core.ltSet_ip _ _ _) (inside i)
  case setJoins => exact if_neg engine
  case read => exact congrArg Host.Outcome.next (i.issueCore _ (fun _ => Core.sset_ip _ _ _))
  case addRun =>
    refine congrArg Host.Outcome.next ((r.run _ (by rw [op]; rfl)).trans ?_)
    rw [op]
    dsimp only
    rw [tumAdd_exact low high, State.modCore_congr (g := fun k => k.ltSet t (BitVec.ofInt 32 ((k.ltGet t).toNat + m))) rfl]
    rfl
  case takes => rw [exec_tumWait_run r op, if_pos met]; rfl
  case passes =>
    rw [exec_tumWait_run r op, if_pos met]
    simp only [Bool.false_eq_true, if_false, State.modCore_self]
  case holds => rw [exec_tumWait_run r op, if_neg (by omega)]
  case setRun =>
    refine congrArg Host.Outcome.next ((r.run _ (by rw [op]; rfl)).trans ?_)
    rw [op]
    rfl

end Sys2Proof.Machine
end

section
/-! Hub tumblers (R85, R86, R88, R98, R181, R185, R340). -/

namespace Sys2Proof.Machine

/-! ### Instructions that complete over the leaf link -/

/-- The entry that a run command names is in the window. -/
theorem State.Runs.entry {s : State} {c : CoreId} {id : Nat} {e : Entry} (r : s.Runs c id e) : (s.core c.val).entry? id = some e := by
  have ready := r.ready
  unfold Core.runnable at ready
  split at ready
  next x found =>
    split at ready
    · cases ready; exact found
    · cases ready
  next => cases ready

/-- An instruction that has completed is no longer waiting to start. -/
theorem State.completed_phase {t : State} {c : CoreId} {id st : Nat} {x : Entry}
    (found : ((t.completed c id st).core c.val).entry? id = some x) : x.phase = .done st := by
  unfold State.completed State.modEntry Core.modEntry at found
  rw [State.core_modCore _ _ _ c.isLt, Core.entry?_mapWindow _ _ (fun e => by split <;> rfl)] at found
  obtain ⟨y, hy, rfl⟩ := Option.map_eq_some_iff.mp found
  have named : (y.id == id) = true := List.find?_some (p := fun e : Entry => e.id == id) hy
  rw [if_pos named]

/-- An instruction that its engine completes crosses the leaf link where it leaves the leaf (R340). -/
theorem State.Runs.completes {s t : State} {c : CoreId} {id st : Nat} {e : Entry} {i : Instr} (r : s.Runs c id e) (hid : e.id = id)
    {f : State → Entry → State} (run : exec i s = .next (s.runEntry c.val id [] f)) (effect : f s e = t.completed c id st) :
    exec i s = .next (s.crossed c e.op (t.completed c id st)) := by
  rw [run, r.run_crossing f, effect]
  intro x found
  rw [effect, hid] at found
  rw [State.completed_phase found]
  exact fun h => by cases h

/-! ### Operations on hub tumblers -/

@[simp] theorem State.hubSet_cores (s : State) (n : Nat) (v : Word32) : (s.hubSet n v).cores = s.cores := rfl

@[simp] theorem State.hubWake_cores (s : State) (n : Nat) : (s.hubWake n).cores = s.cores := rfl

/-- A run of hub tumblers set to 0 (R86). -/
def State.hubClear (s : State) (f n : Nat) : State := (List.range n).foldl (fun s i => s.hubSet (f + i) 0) s

theorem State.hubClear_frame (s : State) (f n : Nat) : s.hubClear f n = { s with hubTum := (s.hubClear f n).hubTum } :=
  foldl_keeps (fun t : State => t = { s with hubTum := t.hubTum }) _ (fun t i h => by rw [h]; rfl) _ _ rfl

theorem State.hubClear_succ (s : State) (f n : Nat) : s.hubClear f (n + 1) = (s.hubClear f n).hubSet (f + n) 0 := by
  simp [State.hubClear, List.range_succ]

theorem State.hubGet_hubClear_inside (s : State) (f : Nat) {n i : Nat} (h : i < n) : (s.hubClear f n).hubGet (f + i) = 0 := by
  induction n with
  | zero => omega
  | succ n ih =>
    rw [State.hubClear_succ]
    by_cases last : i = n
    · rw [last, State.hubGet_hubSet_same]
    · rw [State.hubGet_hubSet_other _ _ _ _ (by omega)]
      exact ih (by omega)

theorem State.hubGet_hubClear_outside (s : State) (f : Nat) {n i : Nat} (h : i < f ∨ f + n ≤ i) : (s.hubClear f n).hubGet i = s.hubGet i := by
  induction n with
  | zero => rfl
  | succ n ih =>
    rw [State.hubClear_succ, State.hubGet_hubSet_other _ _ _ _ (by omega)]
    exact ih (by omega)

/-- The hub gives a task a run of tumblers, their counts 0 (R86). -/
def State.allocated (s : State) (f len task : Nat) : State :=
  State.hubClear { s with allocs := s.allocs ++ [{ first := f, len := len, task := task }] } f len

theorem State.allocated_frame (s : State) (f len task : Nat) :
    s.allocated f len task = { s with allocs := s.allocs ++ [{ first := f, len := len, task := task }], hubTum := (s.allocated f len task).hubTum } :=
  State.hubClear_frame _ f len

theorem State.allocated_allocs (s : State) (f len task : Nat) :
    (s.allocated f len task).allocs = s.allocs ++ [{ first := f, len := len, task := task }] := by rw [State.allocated_frame]

theorem State.allocated_cores (s : State) (f len task : Nat) : (s.allocated f len task).cores = s.cores := by rw [State.allocated_frame]

theorem State.allocated_hubGet_inside (s : State) (f : Nat) {len i : Nat} (task : Nat) (h : i < len) : (s.allocated f len task).hubGet (f + i) = 0 :=
  State.hubGet_hubClear_inside _ f h

theorem State.allocated_hubGet_outside (s : State) (f : Nat) {len i : Nat} (task : Nat) (h : i < f ∨ f + len ≤ i) :
    (s.allocated f len task).hubGet i = s.hubGet i := (State.hubGet_hubClear_outside _ f h).trans rfl

/-- The dispatch wait of an instruction changes its core alone. -/
theorem State.taken_core_ne (s : State) {c d : CoreId} (h : Hdr) (apart : d ≠ c) : (s.taken c h).core d.val = s.core d.val := by
  unfold State.taken
  split
  · exact State.core_modCore_ne _ _ _ _ (Fin.val_ne_of_ne apart)
  · rfl

theorem State.taken_frame (s : State) (c : CoreId) (h : Hdr) : s.taken c h = { s with cores := (s.taken c h).cores } := by
  unfold State.taken
  split <;> rfl

@[simp] theorem State.crossLink_cores (s : State) (l : Nat) : (s.crossLink l).cores = s.cores := rfl

theorem State.moved_core (s : State) (c : CoreId) (h : Hdr) (f : Core → Core) :
    (s.moved c h f).core c.val = { f (s.core c.val) with ip := (s.core c.val).ip + h.words, dwTaken := false, stall := none } :=
  State.core_modCore _ _ _ c.isLt

theorem State.moved_core_ne (s : State) {c d : CoreId} (h : Hdr) (f : Core → Core) (apart : d ≠ c) : (s.moved c h f).core d.val = s.core d.val :=
  State.core_modCore_ne _ _ _ _ (Fin.val_ne_of_ne apart)

@[simp] theorem State.moved_hubGet (s : State) (c : CoreId) (h : Hdr) (f : Core → Core) (n : Nat) : (s.moved c h f).hubGet n = s.hubGet n := by
  rw [State.hubGet, State.moved, State.modCore_hubTum, State.hubGet]

@[simp] theorem State.crossLink_hubGet (s : State) (l n : Nat) : (s.crossLink l).hubGet n = s.hubGet n := by
  rw [State.hubGet, State.crossLink, State.modLeaf_hubTum, State.hubGet]

/-! ### Waiters that lose their tumbler (R86, R190) -/

/-- A waiter on one of a run of tumblers that the hub has not satisfied. -/
def Waiter.lost (first len : Nat) (w : Waiter) : Bool := decide (first ≤ w.tum) && decide (w.tum < first + len) && !w.woken

theorem Waiter.lost_eq_false {first len : Nat} {w : Waiter} : w.lost first len = false ↔ w.tum < first ∨ first + len ≤ w.tum ∨ w.woken = true := by
  simp only [Waiter.lost, Bool.and_eq_false_iff, decide_eq_false_iff_not, Bool.not_eq_false', not_le, not_lt, or_assoc]

theorem State.ownerGone_none {s : State} {first len : Nat} (none : ∀ w ∈ s.waiters, w.lost first len = false) : s.ownerGone first len = s := by
  have keeps : s.waiters.filter (fun w => !w.lost first len) = s.waiters :=
    List.filter_eq_self.mpr fun w hw => by rw [none w hw]; rfl
  have noneLost : s.waiters.filter (Waiter.lost first len) = [] :=
    List.filter_eq_nil_iff.mpr fun w hw => by rw [none w hw]; decide
  show (s.waiters.filter (Waiter.lost first len)).foldl _ { s with waiters := s.waiters.filter (fun w => !w.lost first len) } = s
  rw [keeps, noneLost, List.foldl_nil]

/-- The state s with those parts taken from t that a task-fatal status reaches: what its record reaches, the cores, the tasks and the
hub's waiters. -/
def State.withFatal (s t : State) : State := { s.withRecords t with cores := t.cores, tasks := t.tasks, waiters := t.waiters }

/-- From s the state comes to t by changing only what a task-fatal status reaches. -/
structure State.OnlyFatal (s t : State) : Prop where
  eq : t = s.withFatal t

theorem State.OnlyFatal.refl (s : State) : s.OnlyFatal s := ⟨rfl⟩

theorem State.OnlyFatal.trans {s t u : State} (a : s.OnlyFatal t) (b : t.OnlyFatal u) : s.OnlyFatal u := by
  have step := congrArg (fun x => State.withFatal x u) a.eq
  exact ⟨b.eq.trans step⟩

theorem State.OnlyRecords.onlyFatal {s t : State} (a : s.OnlyRecords t) : s.OnlyFatal t := by
  have cores := congrArg State.cores a.eq
  have tasks := congrArg State.tasks a.eq
  have waiters := congrArg State.waiters a.eq
  have step : s.withRecords t = { s.withRecords t with cores := s.cores, tasks := s.tasks, waiters := s.waiters } := rfl
  refine ⟨a.eq.trans (step.trans ?_)⟩
  rw [State.withFatal, show t.cores = s.cores from cores, show t.tasks = s.tasks from tasks, show t.waiters = s.waiters from waiters]

/-- Any values of those parts beyond the record's. -/
theorem State.onlyFatal_lit (s : State) (cores : Vector Core 48) (tasks : List Task) (waiters : List Waiter) :
    s.OnlyFatal { s with cores := cores, tasks := tasks, waiters := waiters } := ⟨rfl⟩

theorem State.dropAhead_onlyFatal (s : State) (c : Nat) : s.OnlyFatal (s.dropAhead c) :=
  (s.wr_onlyRecords _ _).onlyFatal.trans (State.onlyFatal_lit ..)

theorem State.dropAheads_onlyFatal (s : State) (cs : List Nat) : s.OnlyFatal (s.dropAheads cs) :=
  foldl_keeps (fun t : State => s.OnlyFatal t) _ (fun t c h => h.trans (t.dropAhead_onlyFatal c)) cs s (.refl s)

theorem State.stopTask_onlyFatal (s : State) (t : Nat) : s.OnlyFatal (s.stopTask t) :=
  (s.dropAheads_onlyFatal (s.coresOf t)).trans (State.onlyFatal_lit ..)

theorem State.lastStatus_onlyFatal (s : State) (c st : Nat) : s.OnlyFatal (s.lastStatus c st) := by
  unfold State.lastStatus
  split
  · exact .refl s
  · exact s.onlyFatal_lit ..

theorem State.modTask_onlyFatal (s : State) (t : Nat) (f : Task → Task) : s.OnlyFatal (s.modTask t f) := s.onlyFatal_lit ..

theorem State.modCore_onlyFatal (s : State) (c : Nat) (f : Core → Core) : s.OnlyFatal (s.modCore c f) := s.onlyFatal_lit ..

theorem State.coreStopped_onlyFatal (s : State) (c : Nat) (f : Fatal) : s.OnlyFatal (s.coreStopped c f) := by
  unfold State.coreStopped
  exact ((((State.raise_onlyRecords _ _).onlyFatal.trans (State.lastStatus_onlyFatal _ _ _)).trans (State.modTask_onlyFatal _ _ _)).trans
    (State.dropAhead_onlyFatal _ _)).trans (State.modCore_onlyFatal _ _ _)

theorem State.coreFatal_onlyFatal (s : State) (c : Nat) (f : Fatal) : s.OnlyFatal (s.coreFatal c f) := by
  rw [State.coreFatal_eq]
  exact (s.coreStopped_onlyFatal c f).trans (State.stopTask_onlyFatal _ _)

theorem State.OnlyFatal.allocs {s t : State} (h : s.OnlyFatal t) : t.allocs = s.allocs := (congrArg State.allocs h.eq :)

theorem State.OnlyRecords.waiters {s t : State} (h : s.OnlyRecords t) : t.waiters = s.waiters := (congrArg State.waiters h.eq :)

theorem State.coreFatal_allocs (s : State) (c : Nat) (f : Fatal) : (s.coreFatal c f).allocs = s.allocs := (s.coreFatal_onlyFatal c f).allocs

theorem State.dropAheads_waiters (s : State) (cs : List Nat) : (s.dropAheads cs).waiters = s.waiters :=
  foldl_same State.waiters State.dropAhead (fun _ _ => rfl) cs s

/-- A task that stops takes its waiters out of the hub, and registers none. -/
theorem State.stopTask_waiters_sub (s : State) (t : Nat) {w : Waiter} (h : w ∈ (s.stopTask t).waiters) : w ∈ s.waiters := by
  have kept : w ∈ (s.dropAheads (s.coresOf t)).waiters := (List.mem_filter.mp h).1
  rwa [State.dropAheads_waiters] at kept

@[simp] theorem State.raise_waiters (s : State) (f : Fault_) : (s.raise f).waiters = s.waiters :=
  (s.raise_onlyRecords f).waiters

@[simp] theorem State.lastStatus_waiters (s : State) (c st : Nat) : (s.lastStatus c st).waiters = s.waiters := by
  unfold State.lastStatus
  split <;> rfl

@[simp] theorem State.dropAhead_waiters (s : State) (c : Nat) : (s.dropAhead c).waiters = s.waiters := rfl

theorem State.coreFatal_waiters_sub (s : State) (c : Nat) (f : Fatal) {w : Waiter} (h : w ∈ (s.coreFatal c f).waiters) : w ∈ s.waiters := by
  rw [State.coreFatal_eq] at h
  have kept := State.stopTask_waiters_sub _ _ h
  simpa only [State.coreStopped, State.modCore_waiters, State.dropAhead_waiters, State.modTask_waiters, State.lastStatus_waiters,
    State.raise_waiters] using kept

/-- The allocations stay, and only waiters that are not lost remain. -/
theorem State.ownerGone_keeps (s : State) (first len : Nat) :
    (s.ownerGone first len).allocs = s.allocs
      ∧ ∀ w ∈ (s.ownerGone first len).waiters, w ∈ s.waiters ∧ (w.tum < first ∨ first + len ≤ w.tum ∨ w.woken = true) := by
  refine foldl_keeps (fun t : State => t.allocs = s.allocs ∧ ∀ w ∈ t.waiters, w ∈ s.waiters ∧ (w.tum < first ∨ first + len ≤ w.tum ∨ w.woken = true)) _
    (fun t w ⟨allocs, waiters⟩ => ⟨(t.coreFatal_allocs _ _).trans allocs, fun x hx => waiters x (t.coreFatal_waiters_sub _ _ hx)⟩) _ _ ⟨rfl, fun w hw => ?_⟩
  obtain ⟨mem, kept⟩ := List.mem_filter.mp hw
  rw [Bool.not_eq_true'] at kept
  exact ⟨mem, Waiter.lost_eq_false.mp kept⟩

/-! ### Instructions that ask the hub (R85, R86, R340) -/

section
variable {s : State} {c : CoreId} {h : Hdr} {o : FmtH} {opc : Nat} {i : Instr} {f : State → State}

/-- One that issues asks over its leaf's link. -/
theorem State.Issues.asksHub (q : s.Issues c h opc (packH o)) (run : exec i s = .next (s.issue c.val h opc (packH o) (fun s => s.viaLink c.val f)))
    (isOpen : (s.taken c h).linkOpen (c.val / 12) = true) : exec i s = .next ((f (s.taken c h)).crossLink (c.val / 12)) := by
  rw [run, q.issue, State.viaLink, if_pos isOpen]

theorem State.Issues.waitsForLink (q : s.Issues c h opc (packH o)) (run : exec i s = .next (s.issue c.val h opc (packH o) (fun s => s.viaLink c.val f)))
    (shut : (s.taken c h).linkOpen (c.val / 12) = false) : exec i s = .next ((s.taken c h).modCore c.val (fun k => { k with dwTaken := true })) := by
  rw [run, q.issue, State.viaLink, if_neg (by rw [shut]; decide)]

end

/-! ### Global operations that a core's engine runs on hub tumblers of this module (R85, R88, R98, R185) -/

/-- The state after an operation on a hub tumbler: its new count, and its waiters tested (R185). -/
def State.hubDone (s : State) (n : Nat) (v : Word32) : State := (s.hubSet n v).hubWake n

section
variable {s : State} {c : CoreId} {id : Nat} {e : Entry} {a : Word} {cls t : Nat} {op : TumOp}

theorem State.Runs.hubDone_entry (r : s.Runs c id e) (n : Nat) (v : Word32) : ((s.hubDone n v).core c.val).entry? id = some e := r.entry

theorem State.tumGlobal_range (bad : (gSpace a == spTUM && s.addrOk a 4 true) = false) :
    s.tumGlobal c.val id e a cls op = s.completed c id Status.addrRange := by
  unfold State.tumGlobal
  rw [bad]
  rfl

theorem State.tumGlobal_padlocked (ok : (gSpace a == spTUM && s.addrOk a 4 true) = true) (away : s.isHere a = false)
    (locked : s.padlocked (gMod a) = true) : s.tumGlobal c.val id e a cls op = s.completed c id Status.padlocked := by
  unfold State.tumGlobal
  rw [ok, away, locked]
  rfl

/-- An operation on an owned hub tumbler of this module. -/
theorem State.tumGlobal_hub (r : s.Runs c id e) (noSignal : ∀ td ra rb rc cls hint sc log, e.op ≠ .putSig td ra rb rc cls hint sc log)
    (ok : (gSpace a == spTUM && s.addrOk a 4 true) = true) (here : s.isHere a = true) (named : tumOfOff (gOff a) = some (.inl t))
    (owned : (s.hubAlloc t).isSome = true) :
    s.tumGlobal c.val id e a cls op
      = (s.hubDone t (op.run (s.hubGet t)).1).tumAnswer (.local_ c.val id) op (op.run (s.hubGet t)).2 (s.hubGet t) := by
  have entry := r.hubDone_entry t (op.run (s.hubGet t)).1
  unfold State.tumGlobal State.tumLocal State.tumReach State.hubApply
  simp only [ok, here, named, owned, if_true, Bool.not_true, Bool.false_eq_true, if_false]
  change (if (match ((s.hubDone t (op.run (s.hubGet t)).1).core c.val).entry? id with
    | some e => (match e.op with | .putSig .. => true | _ => false) | none => false) = true then _ else _) = _
  rw [entry]
  dsimp only
  split
  next signal =>
    split at signal
    · exact (noSignal _ _ _ _ _ _ _ _ ‹_›).elim
    · cases signal
  next => rfl

/-- Its answer to the instruction that issued it, when that takes no old count. -/
theorem State.tumAnswer_local (u : State) {st : Nat} {old : Word32} (entry : (u.core c.val).entry? id = some e)
    (noRead : ∀ a rb cls, e.op ≠ .tumReadG a rb cls) (noAtom : ∀ a b x d sc cls w nr aop, e.op ≠ .atom a b x d sc cls w nr aop) :
    u.tumAnswer (.local_ c.val id) op st old = u.completed c id st := by
  unfold State.tumAnswer
  dsimp only
  rw [entry]
  dsimp only
  split
  · exact (noRead _ _ _ ‹_›).elim
  · exact (noAtom _ _ _ _ _ _ _ _ _ ‹_›).elim
  · rfl

end

/-- An SP offset that takes a word, in numbers (R85). -/
theorem spWordOk_iff (a : Word) : spWordOk a = true ↔ a.toNat % 8 = 0 ∧ a.toNat ≤ 0x27FFFF8 := by simp [spWordOk]

/-- Settles O15: the queue-0 instructions ask over the link, the global ones complete over it. -/
theorem hubAndGlobalTumblers : Obligations.HubAndGlobalTumblers := by
  unfold Obligations.HubAndGlobalTumblers
  refine ⟨fun c h o s => ⟨fun isOpen => ?asks, fun shut => ⟨fun i => i.waitsForLink rfl shut, fun i => i.waitsForLink rfl shut,
    fun i => i.waitsForLink rfl shut⟩⟩, fun c id e a rb n v sc cls s r hid => ?global⟩
  case asks =>
    have inside {opc : Nat} (i : s.Issues c h opc (packH o)) : ((s.taken c h).core c.val).ip + h.words ≤ 32767 := by simpa using i.inside
    have frees {t : Nat} {a : Alloc} (i : s.Issues c h 0x46 (packH o))
        (named : (s.taken c h).hubOf (((s.taken c h).core c.val).sget o.ra.val) = some t)
        (mine : (s.taken c h).allocs.find? (fun a => a.first == t && a.task == ((s.taken c h).core c.val).task) = some a) :
        exec (.tumFree c h o) s = .next ((((({ s.taken c h with allocs := (s.taken c h).allocs.erase a } : State).moved c h (fun k => k)).ownerGone
          a.first a.len)).crossLink (c.val / 12)) := by
      rw [i.asksHub rfl isOpen]
      dsimp only
      rw [named]
      dsimp only
      rw [mine]
      dsimp only
      rw [State.advance_self]
      exact inside i
    refine ⟨fun t i named owned met => ?met, fun t i named owned unmet => ?waits, fun a ha bad i => ?noTumbler, fun f i free => ?alloc,
      fun i full => ?none, fun t a i named mine alone => ?free, fun t a i named mine => ?gone, fun i notMine => ?notMine⟩
    case met =>
      rw [i.asksHub rfl isOpen]
      dsimp only
      rw [named]
      dsimp only
      obtain ⟨x, hx⟩ := Option.isSome_iff_exists.mp owned
      rw [hx, if_neg (by simp), if_pos met, State.advance_self _ c h]
      · rfl
      · rw [State.staleReads_ip]
        split
        · exact inside i
        · exact inside i
    case waits =>
      rw [i.asksHub rfl isOpen]
      dsimp only
      rw [named]
      dsimp only
      obtain ⟨x, hx⟩ := Option.isSome_iff_exists.mp owned
      rw [hx, if_neg (by simp), if_neg (by omega)]
    case noTumbler =>
      rw [i.asksHub rfl isOpen]
      dsimp only
      rcases bad with other | ⟨t, named, unowned⟩
      · rw [ha, other]
      · rw [ha, named]
        dsimp only
        rw [unowned, Option.isNone_none, if_pos rfl]
    case alloc =>
      generalize hlen : max 1 (min (((s.taken c h).core c.val).nH h o) 64) = len at free ⊢
      obtain ⟨u, hu⟩ : ∃ u, u = (s.taken c h).allocated f len ((s.taken c h).core c.val).task := ⟨_, rfl⟩
      have core (d : CoreId) : u.core d.val = (s.taken c h).core d.val := by rw [hu]; exact State.core_congr (State.allocated_cores ..) _
      have result : exec (.tumAlloc c h o) s
          = .next ((u.moved c h (fun k => k.sset o.rb.val (gAddr u.modNum spTUM (f * 8)))).crossLink (c.val / 12)) := by
        rw [i.asksHub rfl isOpen, ← State.advance_moved u c h _ (fun _ => Core.sset_ip _ _ _) (by rw [core]; exact inside i), hu]
        dsimp only
        rw [hlen, free]
        rfl
      have frame : u = { s with cores := u.cores, allocs := u.allocs, hubTum := u.hubTum } := by
        rw [hu, State.allocated_frame, s.taken_frame]
      have sameMod : u.modNum = s.modNum := by rw [frame]; rfl
      refine ⟨_, result, ?_, fun j hj => ?_, fun j hj => ?_, ?_, fun d apart => ?_, ?_⟩
      · show u.allocs = _
        rw [hu, State.allocated_allocs]
      · rw [State.crossLink_hubGet, State.moved_hubGet, hu, State.allocated_hubGet_inside _ _ _ hj]
      · rw [State.crossLink_hubGet, State.moved_hubGet, hu, State.allocated_hubGet_outside _ _ _ hj]
      · rw [State.core_congr (State.crossLink_cores _ _), u.moved_core, core, sameMod]
      · rw [State.core_congr (State.crossLink_cores _ _), u.moved_core_ne h _ apart, core, s.taken_core_ne h apart]
      · generalize u.modNum = m
        rw [frame]
        rfl
    case none =>
      rw [i.asksHub rfl isOpen]
      dsimp only
      rw [full]
      dsimp only
      rw [State.advance_moved _ c h _ (fun _ => Core.sset_ip _ _ _) (inside i)]
    case free =>
      rw [frees i named mine, State.ownerGone_none]
      · rfl
      · exact fun w hw => Waiter.lost_eq_false.mpr (alone w hw)
    case gone =>
      refine ⟨_, frees i named mine, ?_⟩
      exact State.ownerGone_keeps _ a.first a.len
    case notMine =>
      rw [i.asksHub rfl isOpen]
      dsimp only
      cases named : (s.taken c h).hubOf (((s.taken c h).core c.val).sget o.ra.val) with
      | none => rfl
      | some t =>
        have none : (s.taken c h).allocs.find? (fun a => a.first == t && a.task == ((s.taken c h).core c.val).task) = none :=
          List.find?_eq_none.mpr fun a ha => by simpa using notMine t named a ha
        dsimp only
        rw [none]
  case global =>
    have addEffect (op : e.op = .tumAddG a n sc cls) {t : State} {st : Nat} (f : s.tumGlobal c.val id e a cls (.add n) = t.completed c id st) :
        exec (.tumAddG c (.run id [])) s = .next (s.crossed c e.op (t.completed c id st)) := r.completes hid rfl (by rw [op]; exact f)
    have setEffect (op : e.op = .tumSetG a v cls) {t : State} {st : Nat} (f : s.tumGlobal c.val id e a cls (.set v) = t.completed c id st) :
        exec (.tumSetG c (.run id [])) s = .next (s.crossed c e.op (t.completed c id st)) := r.completes hid rfl (by rw [op]; exact f)
    have readEffect (op : e.op = .tumReadG a rb cls) {t : State} {st : Nat}
        (f : (if spWordOk rb then s.tumGlobal c.val id e a cls .read else s.finishRange c.val id) = t.completed c id st) :
        exec (.tumReadG c (.run id [])) s = .next (s.crossed c e.op (t.completed c id st)) := r.completes hid rfl (by rw [op]; exact f)
    refine ⟨fun t ok here named owned => ⟨fun op low high => ?add, fun op => ?set, fun op aligned inSp => ?read⟩,
      fun ok away locked => ⟨fun op => ?addLocked, fun op => ?setLocked, fun op aligned inSp => ?readLocked⟩,
      fun bad => ⟨fun op => ?addBad, fun op => ?setBad, fun op => ?readBad⟩, fun op word => ?readWord⟩
    case add =>
      refine addEffect op ?_
      rw [State.tumGlobal_hub r (by rw [op]; simp) ok here named owned, TumOp.run, tumAdd_exact low high]
      exact State.tumAnswer_local _ (r.hubDone_entry _ _) (by rw [op]; simp) (by rw [op]; simp)
    case set =>
      refine setEffect op ?_
      rw [State.tumGlobal_hub r (by rw [op]; simp) ok here named owned, TumOp.run]
      exact State.tumAnswer_local _ (r.hubDone_entry _ _) (by rw [op]; simp) (by rw [op]; simp)
    case read =>
      refine readEffect op ?_
      rw [if_pos ((spWordOk_iff rb).mpr ⟨aligned, inSp⟩), State.tumGlobal_hub r (by rw [op]; simp) ok here named owned, TumOp.run]
      unfold State.tumAnswer
      dsimp only
      rw [r.hubDone_entry]
      dsimp only
      rw [op]
      rfl
    case addLocked => exact addEffect op (State.tumGlobal_padlocked ok away locked)
    case setLocked => exact setEffect op (State.tumGlobal_padlocked ok away locked)
    case readLocked =>
      exact readEffect op ((if_pos ((spWordOk_iff rb).mpr ⟨aligned, inSp⟩)).trans (State.tumGlobal_padlocked ok away locked))
    case addBad => exact addEffect op (State.tumGlobal_range bad)
    case setBad => exact setEffect op (State.tumGlobal_range bad)
    case readBad =>
      refine readEffect op ?_
      rw [State.tumGlobal_range bad]
      exact ite_self _
    case readWord =>
      refine readEffect op (if_neg fun isWord => ?_)
      have fits := (spWordOk_iff rb).mp isWord
      omega

end Sys2Proof.Machine
end

section
/-! FENCEs, wakes, host additions, the park and the deadlock detector (R53, R87, R183, R184, R188, R193-R197). -/

namespace Sys2Proof.Machine

/-! ### FENCEs (R87) -/

/-- A FENCE that issues goes on or stalls. -/
theorem State.Issues.fence {s : State} {c : CoreId} {h : Hdr} {opc : Nat} (i : s.Issues c h opc 0) (scope : Nat) :
    Host.Outcome.next (φ := Fault) (ρ := Refusal) (s.fence c.val h opc scope)
      = if (s.core c.val).window.all (fun e => !e.op.touches) then .next (((s.taken c h).staleReads c.val scope).moved c h id)
        else .next (((s.taken c h).modCore c.val (fun k => { k with dwTaken := true })).stallOn c.val (.fence scope h.words) h.words true) := by
  have done : ((s.taken c h).core c.val).fenceDone = (s.core c.val).window.all (fun e => !e.op.touches) := by
    rw [Core.fenceDone, State.taken_window]
  rw [State.fence, i.issue, done]
  split
  · rw [State.advance_self _ c h (by simpa using i.inside)]
    rfl
  · rfl

/-! ### Wakes (R53, R184) -/

section
variable {s : State} {c : CoreId}

/-- A wake of a running core that is not being pre-empted looks at its stall alone. -/
theorem exec_sequencerWake (alive : s.failed = false) (runs : (s.core c.val).state = 1) (kept : (s.core c.val).draining = false) :
    exec (.sequencerWake c) s = .next (match (s.core c.val).stall with
      | some (.dispatchWait n) =>
        if 1 ≤ ((s.core c.val).ltGet n).toNat then
          s.modCore c.val (fun k => { k.ltSet n (k.ltGet n - 1) with dwTaken := true, stall := none })
        else s
      | some (.tum tn n scope consume words) =>
        if n ≤ ((s.core c.val).ltGet tn).toNat then
          ((s.modCore c.val (fun k => if consume then k.ltSet tn (k.ltGet tn - BitVec.ofNat 32 n) else k)).staleReads c.val scope).advance c.val words
        else s
      | some (.hub t _ scope _ words) =>
        (match s.waiters.find? (fun w => w.core == c.val && w.tum == t && w.woken) with
        | some w => (State.staleReads { s with waiters := s.waiters.erase w } c.val scope).advance c.val words
        | none => s)
      | some (.fence scope words) => if (s.core c.val).fenceDone then (s.staleReads c.val scope).advance c.val words else s
      | some (.queueFull q) => if (s.core c.val).queueFull q then s else s.modCore c.val (fun k => { k with stall := none })
      | some .windowFull => if (s.core c.val).windowFull then s else s.modCore c.val (fun k => { k with stall := none })
      | some .ending => s
      | none => s) := by
  refine congrArg Host.Outcome.next ?_
  rw [if_neg (by simp [alive, runs, kept])]
  cases (s.core c.val).stall with
  | none => rfl
  | some x =>
    cases x with
    | dispatchWait n =>
      dsimp only
      rw [State.modCore_modCore]
      rfl
    | tum | hub | fence | queueFull | windowFull | ending => rfl

end

/-! ### Operations on local tumblers through space 0x4 (R84, R183, R188) -/

theorem tumOfOff_ltOff {c n : Nat} (hc : c < 48) (hn : n < 256) : tumOfOff (ltOff c n) = some (.inr (c, n)) := by
  unfold tumOfOff ltOff
  rw [if_neg (by omega), if_neg (by omega), if_pos (by omega)]
  congr 3 <;> omega

section
variable {s : State} {r : TumReq} {c n : Nat} {t : Task}

theorem State.tumReach_running (named : tumOfOff r.off = some (.inr (c, n))) (runs : s.tumRunning c r.job = true) :
    s.tumReach r = s.ltApply c n r.op := by
  unfold State.tumReach
  rw [named]
  exact if_pos runs

theorem State.tumReach_parked (named : tumOfOff r.off = some (.inr (c, n))) (away : s.tumRunning c r.job = false)
    (preempted : s.tumPreempted c r.job = some t) (room : s.park.length < 1024) :
    s.tumReach r = (.parked, { s with park := s.park ++
      [{ core := c, tum := n, task := t.num, op := r.op, issuer := r.issuer, sender := r.sender, opid := r.opid }] }) := by
  unfold State.tumReach
  rw [named]
  dsimp only
  rw [away, if_neg (by decide), preempted]
  exact if_pos room

theorem State.tumReach_noOwner (named : tumOfOff r.off = some (.inr (c, n))) (away : s.tumRunning c r.job = false)
    (none : s.tumPreempted c r.job = none) : s.tumReach r = (.noOwner, s) := by
  unfold State.tumReach
  rw [named]
  dsimp only
  rw [away, if_neg (by decide), none]

end

/-- An instruction's addition to a tumbler of a pre-empted task is parked, and the instruction completes (R188). -/
theorem State.tumLocal_parked {s : State} {c id off k n : Nat} {m : Int} {t : Task} (named : tumOfOff off = some (.inr (k, n)))
    (away : s.tumRunning k (some (s.coreJob c)) = false) (preempted : s.tumPreempted k (some (s.coreJob c)) = some t)
    (room : s.park.length < 1024) :
    s.tumLocal c id off (.add m)
      = ({ s with park := s.park ++ [⟨k, n, t.num, .add m, .local_ c id, s.modNum * 64 + c, none⟩] } : State).finish c id 0 := by
  unfold State.tumLocal
  dsimp only
  rw [State.tumReach_parked named away preempted room]

/-- What a host addition asks of the tumbler of its INDEX (R183). -/
def hostReq (s : State) (v : Word) : TumReq :=
  { off := v.toNat % 32768 * 8, op := .add (sext 32 (v.toNat / 2 ^ 32 % 2 ^ 32)), job := none, issuer := .none,
    sender := s.modNum * 64 + 63, opid := none }

theorem exec_tumHostAdd {s : State} (v : Word) (alive : s.failed = false) (booted : s.rd Reg.GLB_BOOT_STAGE = 4) :
    exec (.tumHostAdd v) s = .next (match s.tumReach (hostReq s v) with
      | (.applied st _, t) => t.chargeOwner (v.toNat % 32768 * 8) t.modNum 0xFF st
      | (.parked, t) => t
      | (.refused, t) => t.logS0 Status.addrRange 0x0A03 (v.toNat % 32768 * 8)
      | (.noOwner, t) => t.logS0 Status.addrRange 0x0A03 (v.toNat % 32768 * 8)) := by
  have index : fld v.toNat 0 15 = v.toNat % 32768 := fld_low _ _
  show Host.Outcome.next (if s.failed ∨ s.rd Reg.GLB_BOOT_STAGE ≠ 4 then s else s.hostAdd v) = _
  rw [if_neg (by simp [alive, booted]), State.hostAdd, index]
  rfl

/-! ### The deadlock detector (R193-R197) -/

/-- A fault of S3 or above is queued or waits: no record is written yet (R416). -/
theorem State.raise_regs_of_severe (s : State) {f : Fault_} (severe : 2 < f.sev) : (s.raise f).regs = s.regs := by
  unfold State.raise
  dsimp only
  split
  · rfl
  · rw [if_neg (by omega)]

theorem State.lastStatus_regs (s : State) (c st : Nat) : (s.lastStatus c st).regs = s.regs := by
  unfold State.lastStatus
  split <;> rfl

/-- The fields of a core's run-ahead counters lie above every register of the detector. -/
theorem key_runahead_ne_fired (c : Nat) : Reg.TUM_DL_STAT_FIRED.key ≠ (Reg.CORE_RUNAHEAD_STAT_RA_DISCARDED c).key := by
  simp only [Fld.key, Reg.TUM_DL_STAT_FIRED, Reg.TUM_DL_STAT, Reg.CORE_RUNAHEAD_STAT_RA_DISCARDED, Reg.CORE_RUNAHEAD_STAT]
  omega

theorem State.stopTask_fired (s : State) (t : Nat) : (s.stopTask t).rd Reg.TUM_DL_STAT_FIRED = s.rd Reg.TUM_DL_STAT_FIRED := by
  have dropped : (s.dropAheads (s.coresOf t)).rd Reg.TUM_DL_STAT_FIRED = s.rd Reg.TUM_DL_STAT_FIRED :=
    foldl_same (fun u : State => u.rd Reg.TUM_DL_STAT_FIRED) State.dropAhead
      (fun u c => (State.rd_wr_ne u _ _ _ (key_runahead_ne_fired c))) _ s
  exact dropped

theorem State.rd_bump (s : State) (f : Fld) (n : Nat) : (s.bump f n).rd f = min (s.rd f + n) (2 ^ f.w - 1) := by
  have pos := Nat.two_pow_pos f.w
  rw [State.bump, State.rd_wr, Nat.mod_eq_of_lt (by omega)]

/-- A task that has failed shows why it ended. -/
theorem Task.failWith_ends (t : Task) (st c ip : Nat) :
    (t.failWith st c ip).fatal.isSome = true ∨ (t.failWith st c ip).killed = true ∨ (t.failWith st c ip).jobFatal.isSome = true := by
  unfold Task.failWith
  cases t.killed <;> cases t.jobFatal <;> cases t.fatal <;> simp

/-- The state in which the detector has written its snapshot and counted the firing (R195, R196). -/
def State.deadlockFound (s : State) (x : Task) (n : Nat) : State :=
  let base := s.rd Reg.TUM_DL_SNAP_BASE * 64
  let t := if base + 0x2000 ≤ s.directBytes then (s.hmStore base (s.snapshot x)).wr Reg.TUM_DL_STAT_LAST_ENTRIES (8 * x.cores.length)
    else s.wr Reg.TUM_DL_STAT_SNAP_LOST 1
  (t.bump Reg.TUM_DL_STAT_FIRED 1).wr Reg.TUM_DL_STAT_LAST_TASK n

theorem State.deadlockFound_fired (s : State) (x : Task) (n : Nat) :
    (s.deadlockFound x n).rd Reg.TUM_DL_STAT_FIRED = min (s.rd Reg.TUM_DL_STAT_FIRED + 1) (2 ^ Reg.TUM_DL_STAT_FIRED.w - 1) := by
  unfold State.deadlockFound
  dsimp only
  rw [State.rd_wr_ne _ _ _ _ (by decide), State.rd_bump]
  split
  · rw [State.rd_wr_ne _ _ _ _ (by decide), State.rd_congr _ _ _ (State.hmStore_regs _ _ _)]
  · rw [State.rd_wr_ne _ _ _ _ (by decide)]

/-- The statuses of several cores. -/
theorem State.lastStatuses_regs (s : State) (cs : List Nat) (st : Nat) : (cs.foldl (fun s c => s.lastStatus c st) s).regs = s.regs :=
  foldl_same State.regs _ (fun _ _ => State.lastStatus_regs _ _ _) cs s

/-- The detector fires: the firing counts, and the task ends (R194, R195). -/
theorem exec_deadlockFire {s : State} {n : Nat} {t : Task} (named : s.task? n = some t) (alive : s.failed = false) (runs : t.state = .running)
    (clean : t.fatal = none) (long : s.act Reg.TUM_DL_CTL_WINDOW_US < t.stalled) :
    ∃ u : State, exec (.deadlockFire n) s = .next u
      ∧ u.rd Reg.TUM_DL_STAT_FIRED = min (s.rd Reg.TUM_DL_STAT_FIRED + 1) (2 ^ Reg.TUM_DL_STAT_FIRED.w - 1)
      ∧ (∀ x ∈ u.tasks, x.num = n → x.fatal.isSome = true ∨ x.killed = true ∨ x.jobFatal.isSome = true) := by
  refine ⟨_, rfl, ?_⟩
  rw [named]
  dsimp only
  rw [if_pos ⟨alive, runs, clean, long⟩]
  rw [State.stopTask_fired, State.stopTask_tasks]
  refine ⟨?_, fun x hx hn => ?_⟩
  · refine (State.rd_congr _ _ _ ((State.lastStatuses_regs _ _ _).trans (State.raise_regs_of_severe _ (by simp [Fault_.blank])))).trans ?_
    exact s.deadlockFound_fired t n
  · obtain ⟨y, -, rfl⟩ := List.mem_map.mp hx
    by_cases same : (y.num == n) = true
    · rw [if_pos same]
      exact y.failWith_ends _ _ _
    · rw [if_neg same] at hn
      exact absurd (beq_iff_eq.mpr hn) same

/-- Settles O16: each unit by the lemma on it above. -/
theorem fencesHostAdditionsAndDeadlock : Obligations.FencesHostAdditionsAndDeadlock := by
  unfold Obligations.FencesHostAdditionsAndDeadlock
  refine ⟨fun c h s => ⟨fun i => i.fence 1, fun i => i.fence 2, fun i => i.fence 3, fun alive runs kept => ?wakes⟩,
    fun c n id v t s alive booted named => ⟨fun running low high => ?adds, fun away preempted room => ?parks, fun away none => ?discards,
      fun p m found op tumIn coreIn away preempted room => ?retries⟩,
    fun n t s named alive running clean => ⟨?samples, exec_deadlockFire named alive running clean, fun short => ?waits⟩⟩
  case wakes =>
    have wake := exec_sequencerWake alive runs kept
    refine ⟨fun n stall => ?_, fun tn n sc w words stall => ?_, fun sc words stall => ?_, fun t n sc w words stall => ?hub, fun q stall => ?_,
      fun stall => ?_⟩
    case hub =>
      rw [wake, stall]
      dsimp only
      cases s.waiters.find? (fun x => x.core == c.val && x.tum == t && x.woken) <;> rfl
    all_goals
      rw [wake, stall]
      exact apply_ite Host.Outcome.next _ _ _
  case adds =>
    rw [exec_tumHostAdd v alive booted, State.tumReach_running named running]
    simp only [State.ltApply, hostReq, TumOp.run]
    rw [tumAdd_exact low high]
    rfl
  case parks =>
    rw [exec_tumHostAdd v alive booted, State.tumReach_parked named away preempted room]
    exact ⟨_, rfl, rfl, _, rfl, rfl, rfl, rfl, rfl⟩
  case discards => rw [exec_tumHostAdd v alive booted, State.tumReach_noOwner named away none]
  case retries =>
    refine ⟨{ s with refused := s.refused.erase p, park := s.park ++ [⟨p.core, p.tum, t.num, .add m, .local_ c.val id, s.modNum * 64 + c.val, none⟩] },
      ?_, rfl, List.length_append, rfl⟩
    refine congrArg Host.Outcome.next ?_
    rw [found]
    dsimp only
    rw [op]
    exact State.tumLocal_parked (s := { s with refused := s.refused.erase p }) (tumOfOff_ltOff coreIn tumIn) away preempted room
  case samples =>
    refine congrArg Host.Outcome.next ?_
    rw [named]
    exact if_pos ⟨alive, running, clean⟩
  case waits =>
    refine congrArg Host.Outcome.next ?_
    rw [named]
    exact if_neg fun fires => by omega

end Sys2Proof.Machine
end

section
/-! Engine instructions at issue, at dispatch and at completion (R46, R52-R60, R63, R82, R97, R98, R105, R138, R432). -/

namespace Sys2Proof.Machine

/-! ### An engine instruction joins its queue (R46, R52) -/

/-- The opcode belongs to engine queues only (R75). -/
def engineOpc (opc : Nat) : Bool := decide (opc < 256) && (opcQueues opc).any (fun qs => !qs.contains 0)

/-- An instruction of an engine opcode names no queue 0. -/
theorem State.Issues.engine {s : State} {c : CoreId} {h : Hdr} {opc operands : Nat} (i : s.Issues c h opc operands)
    (engine : engineOpc opc = true) : h.q.val ≠ 0 := by
  rw [engineOpc, Bool.and_eq_true, decide_eq_true_eq, Option.any_eq_true] at engine
  obtain ⟨small, qs, allowed, free⟩ := engine
  intro zero
  have member := i.queue small allowed
  rw [zero, ← List.contains_iff_mem] at member
  rw [member] at free
  exact absurd free (by decide)

/-- An engine instruction that has room joins its queue with its operands as captured. -/
theorem State.Queues.joins {s : State} {c : CoreId} {h : Hdr} {opc operands : Nat} (i : s.Queues c h opc operands)
    (engine : engineOpc opc = true) (mk : Core → EInst) :
    (.next (s.issueEngine c.val h opc operands mk) : Res) = .next (s.joined c h (mk (s.core c.val))) :=
  congrArg Host.Outcome.next (i.issueEngine mk (i.engine engine))

/-! ### Send logs at issue (R432) -/

/-- Counting a transfer whose send log is off leaves its core. -/
theorem State.noteLog_core (s : State) (c d : Nat) (h : Hdr) : (s.noteLog c h).core d = s.core d := by
  unfold State.noteLog
  exact iteInduction (motive := fun t : State => t.core d = s.core d) (fun _ => rfl) (fun _ => rfl)

/-- A transfer counts its send log where that is off, and joins its queue. -/
theorem State.Queues.joinsLogged {s : State} {c : CoreId} {h : Hdr} {opc operands : Nat} (i : s.Queues c h opc operands)
    (engine : engineOpc opc = true) (mk : Core → EInst) :
    (.next (s.issue c.val h opc operands (fun s => (s.noteLog c.val h).enqueue c.val h (mk (s.core c.val)))) : Res)
      = .next ((s.noteLog c.val h).joined c h (mk (s.core c.val))) := by
  refine congrArg Host.Outcome.next ((i.issue _).trans ?_)
  rw [State.taken_engine _ _ _ (i.engine engine)]
  refine State.enqueue_joined _ _ _ _ ?_ ?_
  · rw [State.noteLog_core]; exact i.space
  · rw [State.noteLog_core]; exact i.inside

/-! ### A GET takes the read that was pre-issued for it (R63) -/

/-- The entry that has just joined is found under its identifier. -/
theorem State.joined_entry (s : State) (c : CoreId) (h : Hdr) (op : EInst) (fresh : ∀ e ∈ (s.core c.val).window, e.id < (s.core c.val).nextId) :
    ((s.joined c h op).core c.val).entry? (s.core c.val).nextId = some ((s.core c.val).newEntry h op s.rackTime) := by
  have old : (s.core c.val).window.find? (fun e => e.id == (s.core c.val).nextId) = none := by
    rw [List.find?_eq_none]
    intro e member
    simpa using (fresh e member).ne
  unfold State.joined
  rw [State.moved_core]
  simp [Core.entry?, List.find?_append, old, Core.newEntry]

/-- A GET for which nothing was pre-issued joins its queue alone. -/
theorem State.Queues.get {s : State} {c : CoreId} {h : Hdr} {o : FmtI} (i : s.Queues c h 0x60 (packI o))
    (none_ : (s.core c.val).aheadOf ((s.core c.val).tget o.td.val) ((s.core c.val).sget o.ra.val) ((s.core c.val).sget o.rb.val) = none) :
    execGet c (.issue h o) s = .next (s.joined c h
      (.get ((s.core c.val).tget o.td.val) ((s.core c.val).sget o.ra.val) ((s.core c.val).sget o.rb.val) o.cls.val o.hint.val)) := by
  refine congrArg Host.Outcome.next ((i.issue _).trans ?_)
  rw [State.taken_engine _ _ _ (i.engine (by decide))]
  dsimp only
  rw [none_, State.enqueue_joined _ _ _ _ i.space i.inside]

/-- A GET for which a read was pre-issued joins its queue and takes it, unless its status record would lie past SP. -/
theorem State.Queues.getAhead {s : State} {c : CoreId} {h : Hdr} {o : FmtI} {p : PreRead} (i : s.Queues c h 0x60 (packI o))
    (some_ : (s.core c.val).aheadOf ((s.core c.val).tget o.td.val) ((s.core c.val).sget o.ra.val) ((s.core c.val).sget o.rb.val) = some p)
    (fresh : ∀ e ∈ (s.core c.val).window, e.id < (s.core c.val).nextId) :
    let get := EInst.get ((s.core c.val).tget o.td.val) ((s.core c.val).sget o.ra.val) ((s.core c.val).sget o.rb.val) o.cls.val o.hint.val
    execGet c (.issue h o) s = .next (if h.slotEn = true ∧ 0x4FFFFF < h.slot then s.joined c h get
      else (s.joined c h get).takeAhead c.val (s.core c.val).nextId p) := by
  refine congrArg Host.Outcome.next ((i.issue _).trans ?_)
  rw [State.taken_engine _ _ _ (i.engine (by decide))]
  dsimp only
  rw [some_, State.enqueue_joined _ _ _ _ i.space i.inside, State.joined_entry _ _ _ _ fresh]
  rfl

/-- Settles O17: the operands are those that the core holds at issue, since no dispatch wait of an engine queue is taken
there. -/
theorem engineInstructionsJoinTheirQueue : Obligations.EngineInstructionsJoinTheirQueue := by
  unfold Obligations.EngineInstructionsJoinTheirQueue
  refine ⟨fun c h s => ?_, fun c h s => ?_⟩
  · refine ⟨fun o => ⟨fun i => i.joins (by decide) _, fun i => i.joins (by decide) _, fun i => i.joins (by decide) _⟩,
      fun o => ⟨fun none_ i => i.get none_, fun p some_ fresh i => i.getAhead some_ fresh,
        fun i => i.joinsLogged (by decide) (fun k => .put (k.tget o.td.val) (k.sget o.ra.val) (k.sget o.rb.val) o.cls.val o.hint.val h.var),
        fun i => i.joinsLogged (by decide)
          (fun k => .putSig (k.tget o.td.val) (k.sget o.ra.val) (k.sget o.rb.val) (k.sget o.rc.val) o.cls.val o.hint.val o.scope.val h.var)⟩,
      fun o i => i.joins (by decide) _,
      fun o => ⟨fun i => i.joins (by decide) _, fun i => i.joins (by decide) _⟩,
      fun o i => i.joins (by decide) _, fun o i => i.joins (by decide) _, fun o i => i.joins (by decide) _,
      fun o i => i.joins (by decide) _, fun n i => i.joins (by decide) _, fun o i => i.joins (by decide) _,
      fun o => ⟨fun i => i.joins (by decide) _, fun i => i.joins (by decide) _, fun i => i.joins (by decide) _⟩,
      fun o => ⟨fun i => i.joins (by decide) _, fun i => i.joins (by decide) _, fun i => i.joins (by decide) _,
        fun i => i.joins (by decide) _, fun i => i.joins (by decide) _, fun i => i.joins (by decide) _,
        fun i => i.joins (by decide) _, fun i => i.joins (by decide) _, fun i => i.joins (by decide) _,
        fun i => i.joins (by decide) _⟩,
      fun o => ⟨fun i => i.joins (by decide) _, fun i => i.joins (by decide) _, fun i => i.joins (by decide) _,
        fun i => i.joins (by decide) _⟩⟩
  · exact ⟨fun o => ⟨fun i => i.joins (by decide) _, fun i => i.joins (by decide) _, fun i => i.joins (by decide) _⟩,
      fun o => ⟨fun i => i.joins (by decide) _, fun i => i.joins (by decide) _, fun i => i.joins (by decide) _,
        fun i => i.joins (by decide) _, fun i => i.joins (by decide) _, fun i => i.joins (by decide) _,
        fun i => i.joins (by decide) _, fun i => i.joins (by decide) _⟩,
      fun o => ⟨fun i => i.joins (by decide) _, fun i => i.joins (by decide) _⟩⟩

end Sys2Proof.Machine
end

section
/-! Full queues, dispatch and completion (R52-R57, R59, R60, R63, R83, R97, R98, R105, R136). -/

namespace Sys2Proof.Machine

/-! ### A full window or queue (R52, R53) -/

/-- An engine instruction whose queue is full stalls the sequencer. -/
theorem State.Issues.queueFull {s : State} {c : CoreId} {h : Hdr} {opc operands : Nat} (i : s.Issues c h opc operands)
    (engine : engineOpc opc = true) (full : (s.core c.val).queueFull h.q.val = true) (mk : Core → EInst) :
    s.issueEngine c.val h opc operands mk = s.modCore c.val (fun k => { k with stall := some (.queueFull h.q.val) }) := by
  unfold State.issueEngine
  rw [i.issue, State.taken_engine _ _ _ (i.engine engine)]
  unfold State.enqueue
  simp only [full, if_true]
  rfl

/-- A transfer whose queue is full stalls the sequencer and counts no send log. -/
theorem State.Issues.queueFullLogged {s : State} {c : CoreId} {h : Hdr} {opc operands : Nat} (i : s.Issues c h opc operands)
    (engine : engineOpc opc = true) (full : (s.core c.val).queueFull h.q.val = true) (mk : Core → EInst) :
    s.issue c.val h opc operands (fun s => (s.noteLog c.val h).enqueue c.val h (mk (s.core c.val)))
      = s.modCore c.val (fun k => { k with stall := some (.queueFull h.q.val) }) := by
  have quiet : s.noteLog c.val h = s := by
    unfold State.noteLog
    rw [full, Bool.not_true, Bool.and_false]
    rfl
  rw [i.issue, State.taken_engine _ _ _ (i.engine engine), quiet]
  unfold State.enqueue
  simp only [full, if_true]
  rfl

/-- A full window stalls the sequencer on whatever it has fetched. -/
theorem State.issue_windowFull (s : State) (c : CoreId) (h : Hdr) (opc operands : Nat) (k : State → State) (alive : s.failed = false)
    (ready : (s.core c.val).canIssue = true) (fetched : (s.core c.val).fetches h opc operands = true)
    (isDefined : undefinedWord (s.core c.val).fetched = false) (inside : (s.core c.val).ip + h.words ≤ 32768)
    (full : (s.core c.val).windowFull = true) :
    s.issue c.val h opc operands k = s.modCore c.val (fun k => { k with stall := some .windowFull }) := by
  have inBuffer : (wordExt (s.core c.val).fetched && decide ((s.core c.val).ip + 1 > 32767)) = false := by
    rw [Core.fetches_ext fetched]
    unfold Hdr.words at inside
    cases hx : h.ext.isSome <;> simp [hx] at inside ⊢
    omega
  unfold State.issue
  simp only [alive, ready, fetched, isDefined, inBuffer, full, Bool.not_true, Bool.or_self, Bool.false_eq_true, if_false, if_true]
  rfl

/-! ### Dispatch waits (R56, R83) -/

theorem Core.dwSatisfied_none (k : Core) (q : Nat) : k.dwSatisfied q 0xFF = true := rfl

theorem Core.dwSatisfied_iff (k : Core) (q : Nat) {n : Nat} (named : n ≠ 0xFF) : k.dwSatisfied q n = true ↔ 1 ≤ k.countFor n q := by
  simp [Core.dwSatisfied, named]

/-- The waits that come before one leave it no more than the count. -/
theorem Core.countFor_le (k : Core) (n q : Nat) : k.countFor n q ≤ (k.ltGet n).toNat := by
  have less (l : List (Nat × Nat × Nat)) (v : Nat) : l.foldl (fun v w => if w.2.1 ≤ v then v - w.2.2 else v) v ≤ v := by
    induction l generalizing v with
    | nil => exact le_rfl
    | cons w l ih =>
      refine (ih _).trans ?_
      exact iteInduction (motive := (· ≤ v)) (fun _ => Nat.sub_le _ _) (fun _ => le_rfl)
  exact less _ _

/-! ### Fillers at dispatch (R136) -/

/-- No array lies past the fourth, so no filler runs there. -/
theorem Core.fillerOf_out (k : Core) {i : Nat} (out : 4 ≤ i) : (k.fillerOf i).running = false := by
  have default : k.fillerOf i = Filler.reset := by
    unfold Core.fillerOf
    simp [Vector.getD, Array.getD, Nat.not_lt.mpr out]
  rw [default]
  rfl

theorem State.endFiller_ended (s : State) (c : CoreId) (i : Nat) (us : List Upset) : (((s.endFiller c.val i us).core c.val).fillerOf i).running = false := by
  rcases Nat.lt_or_ge i 4 with inside | out
  · rw [s.endFiller_fillerOf c us inside, if_pos rfl]
  · exact Core.fillerOf_out _ out

theorem State.endFiller_keepsEnded (s : State) (c : CoreId) (i : Nat) {j : Nat} (us : List Upset)
    (ended : ((s.core c.val).fillerOf j).running = false) : (((s.endFiller c.val i us).core c.val).fillerOf j).running = false := by
  rcases Nat.lt_or_ge i 4 with inside | out
  · exact s.endFiller_stays c us inside ended
  · rw [s.endFiller_idle _ _ _ (Core.fillerOf_out _ out)]
    exact ended

/-- Of the arrays whose fillers have been ended, none runs one. -/
theorem State.endFillersOf_ended (s : State) (c : CoreId) (us : List Upset) {l : List Nat} {i : Nat} (mem : i ∈ l) :
    (((l.foldl (fun s i => s.endFiller c.val i us) s).core c.val).fillerOf i).running = false := by
  have all (l : List Nat) (s : State) (ended : i ∈ l ∨ ((s.core c.val).fillerOf i).running = false) :
      (((l.foldl (fun s j => s.endFiller c.val j us) s).core c.val).fillerOf i).running = false := by
    induction l generalizing s with
    | nil => exact ended.resolve_left List.not_mem_nil
    | cons j l ih =>
      refine ih _ ?_
      rcases ended with mem | ended
      · rcases List.mem_cons.mp mem with rfl | mem
        · exact .inr (s.endFiller_ended c i us)
        · exact .inl mem
      · exact .inr (s.endFiller_keepsEnded c j us ended)
  exact all l s (.inl mem)

/-- Only a matrix operation and a load of stationary operands reach a filler at their dispatch. -/
theorem State.fillerAtDispatch_other (s : State) (c : Nat) {e : Entry} (us : List Upset) (notMm : ∀ a b d f, e.op ≠ .mm a b d f)
    (notLds : ∀ a b d f g j, e.op ≠ .mmLds a b d f g j) : s.fillerAtDispatch c e us = s := by
  unfold State.fillerAtDispatch
  split
  next a b d f op => exact absurd op (notMm a b d f)
  next a b d f g j op => exact absurd op (notLds a b d f g j)
  next => rfl

/-- The state after the dispatch of an entry, its fillers moved or ended (R56, R63). -/
def State.dispatched (s : State) (c : CoreId) (e : Entry) : State :=
  (s.modCore c.val (fun k => (if e.dw = 0xFF then k else k.ltTake e.dw 1).modEntry e.id (fun x => { x with phase := .dispatched }))).markDirty c.val e.op

theorem State.dispatched_fillerOf (s : State) (c : CoreId) (e : Entry) (i : Nat) : ((s.dispatched c e).core c.val).fillerOf i = (s.core c.val).fillerOf i := by
  unfold State.dispatched State.markDirty
  rw [State.core_modCore _ _ _ c.isLt, State.core_modCore _ _ _ c.isLt]
  exact iteInduction (motive := fun k : Core => k.fillerOf i = (s.core c.val).fillerOf i) (fun _ => rfl) (fun _ => rfl)

theorem State.fillerAtDispatch_mm (s : State) (c : CoreId) {e : Entry} (us : List Upset) {a : TileWord} {b : Word} {d : Nat} {f : Bool}
    (op : e.op = .mm a b d f) {i : Nat} (mem : i ∈ (s.core c.val).arraysOf e.q) :
    (((s.fillerAtDispatch c.val e us).core c.val).fillerOf i).running = false := by
  unfold State.fillerAtDispatch
  rw [op]
  exact s.endFillersOf_ended c us mem

/-- What DISPATCH does on a core that runs: nothing without a head or while its wait is unmet. -/
theorem exec_dispatch {s : State} {c : CoreId} {q : Fin 9} (u : List Upset) (alive : s.failed = false) (runs : (s.core c.val).state = 1)
    (kept : (s.core c.val).draining = false) (engine : q.val ≠ 0) :
    exec (.dispatch c ⟨q, u⟩) s = .next (match (s.core c.val).headOf q.val with
      | none => s
      | some e => if (s.core c.val).dwSatisfied q.val e.dw then (s.fillerAtDispatch c.val e u).dispatched c e else s) := by
  refine congrArg Host.Outcome.next (if_neg ?_)
  simp [alive, runs, kept, engine]

/-! ### Completion (R57, R60, R97, R98) -/

/-- A completed entry has left the window (R57). -/
def State.retired (s : State) (c : CoreId) (id : Nat) : State :=
  s.modCore c.val (fun k => { k with window := k.window.filter (fun x => x.id != id) })

/-- An ATOM that has completed OK acquires at its scope (R94). -/
def State.acquired (s : State) (c : CoreId) (op : EInst) (st : Nat) : State :=
  match op with
  | .atom _ _ _ _ scope _ _ _ _ => if st = 0 then s.staleReads c.val scope else s
  | _ => s

/-- The status record of an entry that asks for one (R97). -/
def State.recorded (s : State) (c : CoreId) (e : Entry) (st : Nat) : State :=
  if e.slotEn then s.spWrite c.val (e.slot * 8) (statusRecord st e.ip) else s

/-- A change of core c that leaves its local tumblers and its window. -/
structure State.KeepsTumblers (s t : State) (c : CoreId) : Prop where
  tumblers : (t.core c.val).lt = (s.core c.val).lt
  entries  : (t.core c.val).window = (s.core c.val).window

theorem State.keepsTumblers_refl (s : State) (c : CoreId) : s.KeepsTumblers s c := ⟨rfl, rfl⟩

theorem State.KeepsTumblers.trans {s t u : State} {c : CoreId} (a : s.KeepsTumblers t c) (b : t.KeepsTumblers u c) : s.KeepsTumblers u c :=
  ⟨b.tumblers.trans a.tumblers, b.entries.trans a.entries⟩

theorem State.modCore_keepsTumblers (s : State) (c : CoreId) {f : Core → Core} (lt : ∀ k, (f k).lt = k.lt) (window : ∀ k, (f k).window = k.window) :
    s.KeepsTumblers (s.modCore c.val f) c :=
  ⟨by rw [State.core_modCore _ _ _ c.isLt, lt], by rw [State.core_modCore _ _ _ c.isLt, window]⟩

theorem State.acquired_keepsTumblers (s : State) (c : CoreId) (op : EInst) (st : Nat) : s.KeepsTumblers (s.acquired c op st) c := by
  unfold State.acquired
  split
  next => exact iteInduction (motive := (s.KeepsTumblers · c)) (fun _ => s.modCore_keepsTumblers c (fun _ => rfl) (fun _ => rfl)) (fun _ => s.keepsTumblers_refl c)
  next => exact s.keepsTumblers_refl c

theorem State.recorded_keepsTumblers (s : State) (c : CoreId) (e : Entry) (st : Nat) : s.KeepsTumblers (s.recorded c e st) c :=
  iteInduction (motive := (s.KeepsTumblers · c)) (fun _ => s.modCore_keepsTumblers c (fun _ => rfl) (fun _ => rfl)) (fun _ => s.keepsTumblers_refl c)

/-- Only a matrix operation starts a filler as it completes. -/
theorem State.startFiller_other (s : State) (c : Nat) {e : Entry} (notMm : ∀ a b d f, e.op ≠ .mm a b d f) : s.startFiller c e = s := by
  unfold State.startFiller
  split
  next a b d f op => exact absurd op (notMm a b d f)
  next => rfl

/-- A completion signal that its tumbler has room for adds 1. -/
theorem State.signal_room (s : State) (c : Nat) (e : Entry) (room : ((s.core c).ltGet e.cs).toNat < 2 ^ 32 - 1) :
    s.signal c e = if e.cs = 0xFF then s else s.modCore c (fun k => k.ltSet e.cs (k.ltGet e.cs + 1)) := by
  have sum : tumAdd ((s.core c).ltGet e.cs) 1 = ((s.core c).ltGet e.cs + 1, 0) := by
    rw [tumAdd_exact (by omega) (by omega)]
    refine congrArg (·, 0) (BitVec.eq_of_toNat_eq ?_)
    have exact_ : ((BitVec.ofInt 32 ((((s.core c).ltGet e.cs).toNat : Int) + 1)).toNat : Int) = ((s.core c).ltGet e.cs).toNat + 1 :=
      ofInt_toNat_of_range (by omega) (by omega)
    bv_omega
  unfold State.signal
  simp only [sum, if_true]
  exact ite_congr rfl (fun _ => rfl) (fun _ => s.modCore_congr rfl)

section
variable {s : State} {c : CoreId} {id st : Nat} {e : Entry}

/-- What INSTRUCTION_COMPLETE does with an entry that is done. -/
theorem exec_instructionComplete (found : (s.core c.val).entry? id = some e) (done : e.phase = .done st) (onTime : e.late = false)
    (clean : st ≠ Status.tainted) :
    exec (.instructionComplete c id) s = .next (if fatalStatus e.op st then ((s.retired c id).acquired c e.op st).coreFatal c.val
        { status := st, cause := e.cause, unit := if e.cause = 0x0103 then e.info.toNat + 1 else if e.q = 8 then 1 else e.q, ip := e.ip,
          addr := e.addr, info := e.info }
      else (((((s.retired c id).acquired c e.op st).nonFatal c.val st).recorded c e st).startFiller c.val e).signal c.val e) := by
  have run : exec (.instructionComplete c id) s = execInstructionComplete c id s := rfl
  rw [run, execInstructionComplete]
  simp only [found, onTime, done, Bool.false_eq_true, if_false, if_neg clean]
  rfl

end

theorem fatalStatus_ok (op : EInst) : fatalStatus op 0 = false := rfl

/-- Settles O18: issue stalls at a full queue or window, DISPATCH starts the head that waits for nothing, and a completed
entry leaves its record before its signal. -/
theorem queuesDispatchAndComplete : Obligations.QueuesDispatchAndComplete := by
  unfold Obligations.QueuesDispatchAndComplete
  refine ⟨⟨fun c h s => ?stalls, fun k => by simp [Core.windowFull], rfl, fun q other => if_neg other⟩,
    fun c q u e s alive runs kept engine => ?dispatch, fun c id st e s found done onTime => ?complete⟩
  case stalls =>
    have full {opc operands : Nat} (mk : Core → EInst) (engine : engineOpc opc = true) (i : s.Issues c h opc operands)
        (hq : (s.core c.val).queueFull h.q.val = true) := congrArg (Host.Outcome.next (φ := Fault) (ρ := Refusal)) (i.queueFull engine hq mk)
    have window {opc operands : Nat} (k : State → State) (alive : s.failed = false) (ready : (s.core c.val).canIssue = true)
        (fetched : (s.core c.val).fetches h opc operands = true) (isDefined : undefinedWord (s.core c.val).fetched = false)
        (inside : (s.core c.val).ip + h.words ≤ 32768) (hw : (s.core c.val).windowFull = true) :=
      congrArg (Host.Outcome.next (φ := Fault) (ρ := Refusal)) (s.issue_windowFull c h opc operands k alive ready fetched isDefined inside hw)
    exact ⟨fun o => ⟨fun i hq => congrArg Host.Outcome.next (i.queueFullLogged (by decide) hq
          (fun k => .put (k.tget o.td.val) (k.sget o.ra.val) (k.sget o.rb.val) o.cls.val o.hint.val h.var)), window _⟩,
      fun o => ⟨full _ (by decide), window _⟩, fun o => ⟨full _ (by decide), window _⟩, fun o => ⟨full _ (by decide), window _⟩,
      fun o => ⟨full _ (by decide), window _⟩, fun o => ⟨full _ (by decide), window _⟩, fun o => ⟨full _ (by decide), window _⟩,
      fun o => ⟨full _ (by decide), window _⟩⟩
  case dispatch =>
    have run := exec_dispatch u alive runs kept engine
    refine ⟨fun head met => ⟨?_, fun notMm notLds => s.fillerAtDispatch_other _ _ notMm notLds, fun a b d f op i mem => ?_⟩,
      fun head unmet => ?_, fun head => ?_, fun k => k.dwSatisfied_none _, fun k n named => k.dwSatisfied_iff _ named,
      fun k n named empty => ?_, fun k n first => Core.countFor_first first⟩
    · rw [run, head]
      exact congrArg Host.Outcome.next (if_pos met)
    · exact (congrArg Filler.running (State.dispatched_fillerOf _ c e i)).trans (s.fillerAtDispatch_mm c u op mem)
    · rw [run, head]
      exact congrArg Host.Outcome.next (if_neg (by rw [unmet]; decide))
    · rw [run, head]
    · have le := k.countFor_le n q.val
      rw [← Bool.not_eq_true, k.dwSatisfied_iff _ named]
      omega
  case complete =>
    refine ⟨fun harmless clean => ?_, ?_, fun fatal => ?_, rfl, rfl, rfl, rfl, rfl, rfl, rfl, rfl⟩
    · rw [exec_instructionComplete found done onTime clean, if_neg (by rw [harmless]; decide)]
      rfl
    · rintro rfl notMm room
      have before := ((s.retired c id).acquired_keepsTumblers c e.op 0).trans (State.recorded_keepsTumblers _ c e 0)
      obtain ⟨t, ht⟩ : ∃ t, t = ((s.retired c id).acquired c e.op 0).recorded c e 0 := ⟨_, rfl⟩
      rw [← ht] at before
      have retired : (s.retired c id).core c.val = { s.core c.val with window := (s.core c.val).window.filter (fun x => x.id != id) } :=
        State.core_modCore _ _ _ c.isLt
      have count (n : Nat) : (t.core c.val).ltGet n = (s.core c.val).ltGet n := by
        rw [Core.ltGet, before.tumblers, retired, Core.ltGet]
      have gone : ∀ x ∈ (t.core c.val).window, x.id ≠ id := by
        intro x member
        rw [before.entries, retired] at member
        simpa using (List.mem_filter.mp member).2
      have signal := t.signal_room c.val e (by rw [count]; exact room)
      have run : exec (.instructionComplete c id) s = .next (t.signal c.val e) := by
        rw [exec_instructionComplete found done onTime (by decide), if_neg (Bool.eq_false_iff.mp (fatalStatus_ok e.op)), State.startFiller_other _ _ notMm, ht]
        rfl
      refine ⟨_, run, signal.trans (by rw [ht]; rfl), ?_, fun named => ?_⟩
      · rw [signal]
        split
        · exact gone
        · rw [State.core_modCore _ _ _ c.isLt]
          exact gone
      · rw [signal, if_neg named, State.core_modCore _ _ _ c.isLt, Core.ltGet, Core.ltSet, Tab.get_set_same, count]
        bv_omega
    · rw [exec_instructionComplete found done onTime (by rintro rfl; exact Bool.false_ne_true fatal), if_pos fatal]
      rfl

end Sys2Proof.Machine
end

section
/-! Run-ahead reads that return, fillers at their ramp, and the self-tests of arrays (R61-R63, R136, R139, R140, R142, R340,
R362). -/

namespace Sys2Proof.Machine

/-! ### The fields that a record touches (R371, R415) -/

/-- The fields that a record and its interrupt touch. -/
def recordFields : List Fld := [Reg.ERR_STAT_S0_COUNT, Reg.ERR_STAT_LOST, Reg.ERR_PTR_TAIL, Reg.HOST_IRQ_CAUSE_ERR, Reg.MSIX_PBA]

/-- A field that no record touches. -/
structure Fld.BeyondRecords (g : Fld) : Prop where
  apart : ∀ f ∈ recordFields, g.key ≠ f.key

theorem Fld.BeyondRecords.ne {g f : Fld} (b : g.BeyondRecords) (mem : f ∈ recordFields) : g.key ≠ f.key := b.apart f mem

theorem State.raiseVec_rd (s : State) (v : Nat) {g : Fld} (b : g.BeyondRecords) : (s.raiseVec v).rd g = s.rd g := by
  unfold State.raiseVec
  split
  · exact s.rd_wr_ne _ _ _ (b.ne (by simp [recordFields]))
  · rfl

theorem State.errIrq_rd (s : State) {g : Fld} (b : g.BeyondRecords) : s.errIrq.rd g = s.rd g := by
  have cause : (s.wr Reg.HOST_IRQ_CAUSE_ERR 1).rd g = s.rd g := s.rd_wr_ne _ _ _ (b.ne (by simp [recordFields]))
  unfold State.errIrq
  dsimp only
  refine iteInduction (motive := fun t : State => t.rd g = s.rd g) (fun _ => cause) (fun _ => ?_)
  exact (State.raiseVec_rd _ _ b).trans cause

theorem State.bump_rd_ne (s : State) {f g : Fld} (n : Nat) (h : g.key ≠ f.key) : (s.bump f n).rd g = s.rd g := s.rd_wr_ne _ _ _ h

theorem State.putRecord_rd (s : State) (f : Fault_) (slot : Nat) (g : Fld) : (s.putRecord f slot).rd g = s.rd g := by
  have regs : (s.putRecord f slot).regs = s.regs := by simp only [State.putRecord, State.hmStore_regs]
  exact s.rd_congr _ g regs

theorem State.writeRecord_rd (s : State) (f : Fault_) {g : Fld} (b : g.BeyondRecords) : (s.writeRecord f).rd g = s.rd g := by
  have count : (s.bump Reg.ERR_STAT_S0_COUNT 1).rd g = s.rd g := s.bump_rd_ne _ (b.ne (by simp [recordFields]))
  have lost (t : State) : (t.bump Reg.ERR_STAT_LOST 1).rd g = t.rd g := t.bump_rd_ne _ (b.ne (by simp [recordFields]))
  refine State.writeRecord_cases (P := fun t => t.rd g = s.rd g) s f count (lost s) (fun k => ?_) (fun t => ?_)
  · rw [State.errIrq_rd _ b, lost, State.putRecord_rd]
  · rw [State.errIrq_rd _ b, State.rd_wr_ne _ _ _ _ (b.ne (by simp [recordFields])), State.putRecord_rd]

/-- Raising a fault leaves every field that no record touches. -/
theorem State.raise_rd (s : State) (f : Fault_) {g : Fld} (b : g.BeyondRecords) : (s.raise f).rd g = s.rd g := by
  unfold State.raise
  dsimp only
  refine iteInduction (motive := fun t : State => t.rd g = s.rd g) (fun _ => rfl) (fun _ => ?_)
  exact iteInduction (motive := fun t : State => t.rd g = s.rd g) (fun _ => s.writeRecord_rd _ b) (fun _ => rfl)

theorem State.OnlyRecords.flash {s t : State} (h : s.OnlyRecords t) : t.flash = s.flash := (congrArg State.flash h.eq :)

/-! ### Reads that return (R63) -/

/-- A read of HM gives its bytes piece by piece. -/
theorem State.readPieces_hm (s : State) (us : List Upset) (off hint uses : Nat) (ps : List (Nat × Nat × Nat)) :
    (s.readPieces us 1 off hint uses ps).1 = ps.map (fun x => (x.2.1, s.hm.readN (off + x.1) x.2.2)) := by
  have all (ps : List (Nat × Nat × Nat)) (r : List (Nat × List Byte) × Bad × State) (same : r.2.2.hm = s.hm) :
      (ps.foldl (fun r p =>
        let (bs, b, s) := r.2.2.readSpace us 1 (off + p.1) p.2.2 hint uses
        (r.1 ++ [(p.2.1, bs)], r.2.1.or b, s)) r).1 = r.1 ++ ps.map (fun x => (x.2.1, s.hm.readN (off + x.1) x.2.2)) := by
    induction ps generalizing r with
    | nil => exact (List.append_nil _).symm
    | cons p ps ih =>
      refine (ih _ (by simpa [State.readSpace] using same)).trans ?_
      simp [State.readSpace, State.hmRead, same]
  unfold State.readPieces
  rw [if_neg (by decide)]
  exact all ps ([], .none, s) rfl

/-- What RUN_AHEAD_READ_RETURN does with the read that it names. -/
theorem exec_runAheadReadReturn {s : State} {c : CoreId} {ip : Nat} {p : PreRead}
    (found : (s.core c.val).preRead.find? (fun p => p.ip == ip && p.data.isNone && s.isHere p.ra) = some p) :
    let r := (s.crossLink (c.val / 12)).readPieces [] (gSpace p.ra) (gOff p.ra) p.hint p.uses (farPieces (Tile.of p.td) p.rb)
    exec (.runAheadReadReturn c ip []) s = .next (if (!s.linkOpen (c.val / 12) || s.memWaits (gSpace p.ra) (gOff p.ra) (farSpan (Tile.of p.td) p.rb)) = true
      then s else r.2.2.preReturn c.val { p with parts := r.1 } (if r.2.1.isBad then Status.eccUncorrected else 0)) := by
  have run : exec (.runAheadReadReturn c ip []) s = execRunAheadReadReturn c ip [] s := rfl
  rw [run, execRunAheadReadReturn, found]
  rfl

/-! ### Self-tests (R140) -/

/-- An array that is disabled. -/
theorem State.disableArray_core (s : State) (c : CoreId) (i : Nat) :
    (s.disableArray c.val i).core c.val = { s.core c.val with arrays := (s.core c.val).arrays &&& ~~~ BitVec.twoPow 4 i } := by
  unfold State.disableArray
  dsimp only
  rw [State.core_congr (State.raise_cores _ _)]
  refine (State.core_congr (s := s.modCore c.val (fun k => { k with arrays := k.arrays &&& ~~~ BitVec.twoPow 4 i })) rfl _).trans ?_
  rw [State.core_modCore _ _ _ c.isLt]

theorem State.disableArray_flash (s : State) (c i : Nat) : (c, i) ∈ (s.disableArray c i).flash.arrays := by
  unfold State.disableArray
  dsimp only
  rw [(State.raise_onlyRecords _ _).flash]
  dsimp only
  rw [State.modCore_flash]
  split
  next known => exact List.contains_iff_mem.mp known
  next => exact List.mem_append_right _ (List.mem_singleton.mpr rfl)

theorem State.disableArray_rd (s : State) (c i : Nat) {g : Fld} (b : g.BeyondRecords) : (s.disableArray c i).rd g = s.rd g := by
  unfold State.disableArray
  dsimp only
  exact State.raise_rd _ _ b

/-- The state after a self-test has paid its debt (R140). -/
def State.tested (s : State) (c : CoreId) (i : Nat) : State :=
  s.modCore c.val (fun k => { k with owed := k.owed &&& ~~~ BitVec.twoPow 4 i })

/-- The array had another check failure in the day before its last (R140). -/
def State.failedBefore (s : State) (c : CoreId) (i : Nat) : Bool :=
  match (s.core c.val).fails.getD i [] with
  | a :: b :: _ => decide (a < b + State.msTicks 86400000)
  | _ => false

/-- The counters after a self-test: one more of them, and the FAIL bit of an array that failed it (R142). -/
def State.testCounted (s : State) (c : CoreId) (i : Nat) (pass : Bool) : State :=
  let t := s.bump (Reg.LEAF_ARRAY_CHECK_SELFTESTS (c.val / 12)) 1
  if pass then t else t.wr (Reg.LEAF_ARRAY_FAIL_FAIL (c.val / 12)) (t.rd (Reg.LEAF_ARRAY_FAIL_FAIL (c.val / 12)) ||| 2 ^ (4 * (c.val % 12) + i))

/-- What an owed self-test of an array in use does between tasks. -/
theorem exec_arraySelfTest {s : State} {c : CoreId} {me : Fin 4} (pass : Bool) (free : (s.core c.val).task = 0)
    (owed : (s.core c.val).owed.getLsbD me.val = true) (enabled : (s.core c.val).arrays.getLsbD me.val = true) :
    exec (.arraySelfTest c me pass) s = .next (if (!pass || s.failedBefore c me.val) = true
      then ((s.testCounted c me.val pass).tested c me.val).disableArray c.val me.val else (s.testCounted c me.val pass).tested c me.val) := by
  have run : exec (.arraySelfTest c me pass) s = execArraySelfTest c me pass s := rfl
  rw [run, execArraySelfTest, if_pos ⟨free, owed, enabled⟩]
  rfl

theorem State.testCounted_core (s : State) (c : CoreId) (i : Nat) (pass : Bool) : (s.testCounted c i pass).core c.val = s.core c.val :=
  iteInduction (motive := fun t : State => t.core c.val = s.core c.val) (fun _ => rfl) (fun _ => rfl)

theorem failField_beyondRecords (l : Nat) : (Reg.LEAF_ARRAY_FAIL_FAIL l).BeyondRecords := by
  constructor
  simp only [recordFields, List.forall_mem_cons, Fld.key, Reg.LEAF_ARRAY_FAIL_FAIL, Reg.LEAF_ARRAY_FAIL, Reg.ERR_STAT_S0_COUNT, Reg.ERR_STAT_LOST,
    Reg.ERR_STAT, Reg.ERR_PTR_TAIL, Reg.ERR_PTR, Reg.HOST_IRQ_CAUSE_ERR, Reg.HOST_IRQ_CAUSE, Reg.MSIX_PBA]
  refine ⟨?_, ?_, ?_, ?_, ?_, by simp⟩ <;> omega

theorem key_selftests_ne_fail (l : Nat) : (Reg.LEAF_ARRAY_FAIL_FAIL l).key ≠ (Reg.LEAF_ARRAY_CHECK_SELFTESTS l).key := by
  simp only [Fld.key, Reg.LEAF_ARRAY_FAIL_FAIL, Reg.LEAF_ARRAY_FAIL, Reg.LEAF_ARRAY_CHECK_SELFTESTS, Reg.LEAF_ARRAY_CHECK]
  omega

/-- An array that has been tested and disabled. -/
theorem State.tested_disabled (s u : State) (c : CoreId) (i : Nat) (same : u.core c.val = s.core c.val) :
    (((u.tested c i).disableArray c.val i).core c.val).arrays = (s.core c.val).arrays &&& ~~~ BitVec.twoPow 4 i
      ∧ (((u.tested c i).disableArray c.val i).core c.val).owed = (s.core c.val).owed &&& ~~~ BitVec.twoPow 4 i
      ∧ (c.val, i) ∈ ((u.tested c i).disableArray c.val i).flash.arrays := by
  refine ⟨?_, ?_, State.disableArray_flash _ _ _⟩ <;>
  · rw [State.disableArray_core, State.tested, State.core_modCore _ _ _ c.isLt, same]

/-- Settles O19: a read returns over the leaf link, a running filler ends, and a test disables its array when it fails or
follows another check failure within a day. -/
theorem runAheadFillersAndSelfTests : Obligations.RunAheadFillersAndSelfTests := by
  unfold Obligations.RunAheadFillersAndSelfTests
  refine ⟨fun c ip p s found => ?reads, fun c me u s => ?fillers, fun c me s free owed enabled => ?tests⟩
  case reads =>
    have run := exec_runAheadReadReturn found
    refine ⟨fun open_ unbound => ?_, fun id open_ bound good => ?_, fun id open_ bound bad => ?_, fun waits => ?_, fun hm => ?_⟩
    · rw [run, if_neg (by rw [open_]; decide), State.preReturn]
      simp only [unbound]
    · rw [run, if_neg (by rw [open_]; decide), good, State.preReturn]
      simp only [bound]
      rfl
    · rw [run, if_neg (by rw [open_]; decide), bad, State.preReturn]
      simp only [bound]
      rfl
    · rw [run, if_pos waits]
    · rw [hm]
      exact State.readPieces_hm _ _ _ _ _ _
  case fillers =>
    refine ⟨fun running => congrArg Host.Outcome.next (if_pos running), fun running => congrArg Host.Outcome.next ((if_pos running).trans ?_),
      fun idle => congrArg Host.Outcome.next (s.endFiller_idle c.val me.val u idle)⟩
    have reported : residues [.arrayResidue me] [me.val] = [me.val] := by simp [residues]
    rw [reported]
    rfl
  case tests =>
    have off (pass : Bool) := s.tested_disabled _ c me.val (s.testCounted_core c me.val pass)
    refine ⟨fun quiet => ?_, fun a b r fails soon => ⟨_, ?_, off true⟩, ⟨_, ?_, off false, ?_⟩⟩
    · have once : s.failedBefore c me.val = false := by
        unfold State.failedBefore
        split
        next a b r fails => exact decide_eq_false (Nat.not_lt.mpr (quiet a b r fails))
        next => rfl
      rw [exec_arraySelfTest true free owed enabled, if_neg (by rw [once]; decide)]
      rfl
    · have again : s.failedBefore c me.val = true := by
        unfold State.failedBefore
        rw [fails]
        exact decide_eq_true soon
      rw [exec_arraySelfTest true free owed enabled, if_pos (by rw [again]; rfl)]
    · exact (exec_arraySelfTest false free owed enabled).trans (congrArg Host.Outcome.next (if_pos rfl))
    · rw [State.disableArray_rd _ _ _ (failField_beyondRecords _)]
      refine (State.rd_wr _ _ _).trans ?_
      rw [State.bump_rd_ne _ _ (key_selftests_ne_fail _)]
      rfl

end Sys2Proof.Machine
end

section
/-! What leaves a port is read back: digits of a number, little-endian fields, HEAD and link-control flits, frames and
alignment markers (R263, R266, R267, R271, R275, R278). -/

namespace Sys2Proof.Machine

/-! ### Bit fields laid out side by side -/

/-- Fields, given as width and value, from bit 0 on. -/
def digits : List (Nat × Nat) → Nat
  | [] => 0
  | f :: r => f.2 % 2 ^ f.1 + 2 ^ f.1 * digits r

/-- The bits that some fields take. -/
def widths (l : List (Nat × Nat)) : Nat := (l.map Prod.fst).sum

theorem digits_lt (l : List (Nat × Nat)) : digits l < 2 ^ widths l := by
  induction l with
  | nil => exact Nat.one_pos
  | cons f r ih =>
    have head := Nat.mod_lt f.2 (Nat.two_pow_pos f.1)
    have step : 2 ^ f.1 * (digits r + 1) ≤ 2 ^ f.1 * 2 ^ widths r := Nat.mul_le_mul_left _ ih
    rw [Nat.mul_add, Nat.mul_one] at step
    rw [digits, widths, List.map_cons, List.sum_cons, pow_add]
    exact (by omega : _ < _).trans_le step

theorem digits_append (l r : List (Nat × Nat)) : digits (l ++ r) = digits l + 2 ^ widths l * digits r := by
  induction l with
  | nil => simp [digits, widths]
  | cons f l ih => simp only [List.cons_append, digits, ih, widths, List.map_cons, List.sum_cons, pow_add]; ring

/-- The field after some others. -/
theorem fld_digits (l r : List (Nat × Nat)) (w v : Nat) : fld (digits (l ++ (w, v) :: r)) (widths l) w = v % 2 ^ w := by
  rw [digits_append, digits, fld, Nat.add_mul_div_left _ _ (Nat.two_pow_pos _), Nat.div_eq_of_lt (digits_lt l), Nat.zero_add, Nat.add_mul_mod_self_left,
    Nat.mod_mod]

theorem fld_here (r : List (Nat × Nat)) (w v : Nat) : fld (digits ((w, v) :: r)) 0 w = v % 2 ^ w := fld_digits [] r w v

theorem fld_past {i m : Nat} (v n : Nat) (r : List (Nat × Nat)) (h : m ≤ i) : fld (digits ((m, v) :: r)) i n = fld (digits r) (i - m) n := by
  obtain ⟨j, rfl⟩ := Nat.exists_eq_add_of_le h
  have low := Nat.mod_lt v (Nat.two_pow_pos m)
  rw [fld, digits, pow_add, ← Nat.div_div_eq_div_mul, Nat.add_mul_div_left _ _ (Nat.two_pow_pos m), Nat.div_eq_of_lt low, Nat.zero_add,
    Nat.add_sub_cancel_left, fld]

theorem fld_append {i : Nat} (l r : List (Nat × Nat)) (n : Nat) (h : widths l ≤ i) : fld (digits (l ++ r)) i n = fld (digits r) (i - widths l) n := by
  induction l generalizing i with
  | nil => rfl
  | cons f l ih =>
    rw [widths, List.map_cons, List.sum_cons] at h
    rw [List.cons_append, fld_past _ _ _ (Nat.le_of_add_right_le h), ih (Nat.le_sub_of_add_le' h), widths, widths, List.map_cons, List.sum_cons, Nat.sub_sub]

/-- The i-th of some fields of one width. -/
theorem fld_map {α : Type} (w : Nat) (v : α → Nat) (r : List (Nat × Nat)) {l : List α} {i : Nat} (h : i < l.length) :
    fld (digits (l.map (fun x => (w, v x)) ++ r)) (w * i) w = v l[i] % 2 ^ w := by
  induction l generalizing i with
  | nil => exact absurd h (Nat.not_lt_zero _)
  | cons x l ih =>
    rw [List.map_cons, List.cons_append]
    cases i with
    | zero => exact fld_here _ _ _
    | succ i =>
      rw [Nat.mul_succ, fld_past _ _ _ (Nat.le_add_left _ _), Nat.add_sub_cancel]
      exact ih (Nat.lt_of_succ_lt_succ h)

theorem widths_map {α : Type} (w : Nat) (v : α → Nat) (l : List α) : widths (l.map (fun x => (w, v x))) = w * l.length := by
  simp [widths, Function.comp_def, Nat.mul_comm]

/-- Fields of one width, each at its place. -/
theorem digits_range (w : Nat) (v : Nat → Nat) (n : Nat) :
    digits ((List.range n).map (fun i => (w, v i))) = ((List.range n).map (fun i => bitsAt (w * i) w (v i))).sum := by
  induction n with
  | zero => rfl
  | succ n ih =>
    rw [List.range_succ, List.map_append, List.map_append, digits_append, ih, widths_map, List.length_range, List.sum_append]
    simp [digits, bitsAt, Nat.mul_comm]

/-- A bit is a field of one bit. -/
theorem testBit_eq_fld (x i : Nat) : x.testBit i = decide (fld x i 1 = 1) := by rw [Nat.testBit_eq_decide_div_mod_eq, fld, pow_one]

theorem decide_toNat_mod (b : Bool) : decide (b.toNat % 2 ^ 1 = 1) = b := by cases b <;> rfl

/-! ### Little-endian fields -/

@[simp] theorem length_leBytes (n v : Nat) : (leBytes n v).length = n := by
  induction n generalizing v with
  | zero => rfl
  | succ n ih => rw [leBytes, List.length_cons, ih]

theorem leNat_leBytes (n v : Nat) : leNat (leBytes n v) = v % 2 ^ (8 * n) := by
  induction n generalizing v with
  | zero => simp [leBytes, leNat, Nat.mod_one]
  | succ n ih =>
    rw [leBytes, leNat, ih, BitVec.toNat_ofNat, Nat.mul_succ, Nat.add_comm (8 * n) 8, pow_add, Nat.mod_mul]
    rfl

theorem leAt_here (n v : Nat) (r : List Byte) : leAt (leBytes n v ++ r) 0 n = v % 2 ^ (8 * n) := by
  rw [leAt, List.drop_zero, List.take_left' (length_leBytes n v), leNat_leBytes]

theorem leAt_past {i m : Nat} (v n : Nat) (r : List Byte) (h : m ≤ i) : leAt (leBytes m v ++ r) i n = leAt r (i - m) n := by
  rw [leAt, List.drop_append, length_leBytes, List.drop_eq_nil_of_le (by rwa [length_leBytes]), List.nil_append, leAt]

theorem leAt_nil (i n : Nat) : leAt [] i n = 0 := by simp [leAt, leNat]

theorem padTo_length (n : Nat) (bs : List Byte) : (padTo n bs).length = n := by
  rw [padTo, List.length_append, List.length_take, List.length_replicate]
  omega

theorem padTo_short {n : Nat} {bs : List Byte} (h : bs.length ≤ n) : padTo n bs = bs ++ List.replicate (n - bs.length) 0 := by
  rw [padTo, List.take_of_length_le h]

theorem toNat_testBit_mod (b : Bool) : (b.toNat % 2 ^ (8 * 1)).testBit 0 = b := by cases b <;> rfl

/-! ### HEAD flits (R275, R278) -/

/-- The fields of a header. -/
def headerFields (p : Packet) : List (Nat × Nat) :=
  [(5, p.typ.val), (2, p.cls.val), (1, p.dl.toNat), (1, p.dt.toNat), (5, p.hops), (12, p.dst), (12, p.src), (16, p.job), (7, p.len), (15, p.tag),
    (3, p.space), (40, p.offset.toNat), (6, p.count), (1, p.xt.toNat)]

theorem headerBits_eq (p : Packet) : headerBits p = digits (headerFields p) := by
  simp only [headerBits, bitsAt, headerFields, digits]
  ring

theorem leNat_header (p : Packet) (r : List Byte) : leNat ((leBytes 16 (headerBits p) ++ r).take 16) = digits (headerFields p) := by
  rw [List.take_left' (length_leBytes _ _), leNat_leBytes, headerBits_eq]
  exact Nat.mod_eq_of_lt ((digits_lt (headerFields p)).trans_le (Nat.pow_le_pow_right (by decide) (by decide : 126 ≤ 128)))

/-- The fields of a packet's header lie in their ranges. -/
structure HeaderInRange (p : Packet) : Prop where
  hops  : p.hops < 2 ^ 5
  dst   : p.dst < 2 ^ 12
  src   : p.src < 2 ^ 12
  job   : p.job < 2 ^ 16
  len   : p.len < 2 ^ 7
  tag   : p.tag < 2 ^ 15
  space : p.space < 2 ^ 3
  count : p.count < 2 ^ 6

/-- The packet that a HEAD flit's header gives, whatever follows it in the flit. -/
theorem headOf_header {p : Packet} (q : HeaderInRange p) {r : List Byte} :
    headOf (leBytes 16 (headerBits p) ++ r) =
      (let x := if PT.isData p.typ.val then r else [];
      { p with
          payload := if PT.isData p.typ.val then [] else (r.take 48).take p.count,
          pcrc := BitVec.ofNat 32 (leAt x 0 4), sigref := leAt x 4 2, sig := (leAt x 6 1).testBit 0, opid := BitVec.ofNat 32 (leAt x 8 4),
          inc := leAt x 12 2, sigtum := leAt x 14 2, sigbytes := leAt x 16 4, mask := maskOf ((x.drop 24).take 16),
          digest := BitVec.ofNat 32 (leAt x 40 4), ccrc := BitVec.ofNat 32 (leAt x 44 4) }) := by
  obtain ⟨hops, dst, src, job, len, tag, space, count⟩ := q
  have typ : fld (digits (headerFields p)) 0 5 = p.typ.val := (fld_here _ _ _).trans (Nat.mod_eq_of_lt p.typ.isLt)
  have fields : fld (digits (headerFields p)) 5 2 = p.cls.val ∧ (digits (headerFields p)).testBit 7 = p.dl ∧ (digits (headerFields p)).testBit 8 = p.dt
      ∧ fld (digits (headerFields p)) 9 5 = p.hops ∧ fld (digits (headerFields p)) 14 12 = p.dst ∧ fld (digits (headerFields p)) 26 12 = p.src
      ∧ fld (digits (headerFields p)) 38 16 = p.job ∧ fld (digits (headerFields p)) 54 7 = p.len ∧ fld (digits (headerFields p)) 61 15 = p.tag
      ∧ fld (digits (headerFields p)) 76 3 = p.space ∧ fld (digits (headerFields p)) 79 40 = p.offset.toNat
      ∧ fld (digits (headerFields p)) 119 6 = p.count ∧ (digits (headerFields p)).testBit 125 = p.xt := by
    simp only [headerFields, testBit_eq_fld, fld_here, fld_past, Nat.reduceLeDiff, Nat.reduceSub, decide_toNat_mod]
    exact ⟨Nat.mod_eq_of_lt p.cls.isLt, trivial, trivial, Nat.mod_eq_of_lt hops, Nat.mod_eq_of_lt dst, Nat.mod_eq_of_lt src, Nat.mod_eq_of_lt job,
      Nat.mod_eq_of_lt len, Nat.mod_eq_of_lt tag, Nat.mod_eq_of_lt space, Nat.mod_eq_of_lt p.offset.isLt, Nat.mod_eq_of_lt count, trivial⟩
  obtain ⟨cls, dl, dt, hops, dst, src, job, len, tag, space, offset, count, xt⟩ := fields
  have type_ : ptype p.typ.val = p.typ := Fin.ofNat_val_eq_self _
  have class_ : pclass p.cls.val = p.cls := Fin.ofNat_val_eq_self _
  simp only [headOf, leNat_header, List.drop_left' (length_leBytes 16 _), typ, cls, dl, dt, hops, dst, src, job, len, tag, space, offset, count, xt,
    type_, class_, BitVec.ofNat_toNat, BitVec.setWidth_eq]

theorem maskOf_maskBytes (m : MaskPair) (r : List Byte) : maskOf ((maskBytes m ++ r).take 16) = m := by
  have whole : (maskBytes m ++ r).take 16 = leBytes 8 m.inRack.toNat ++ leBytes 8 m.racks.toNat := List.take_left' (by simp [maskBytes])
  rw [whole, maskOf, List.take_left' (length_leBytes _ _), List.drop_left' (length_leBytes _ _), List.take_of_length_le (by simp),
    leNat_leBytes, leNat_leBytes, Nat.mod_eq_of_lt m.inRack.isLt, Nat.mod_eq_of_lt m.racks.isLt, BitVec.ofNat_toNat, BitVec.ofNat_toNat,
    BitVec.setWidth_eq, BitVec.setWidth_eq]

/-- The fields of a data packet's extension lie in their ranges. -/
structure ExtInRange (p : Packet) : Prop where
  sigref   : p.sigref < 65536
  inc      : p.inc < 65536
  sigtum   : p.sigtum < 65536
  sigbytes : p.sigbytes < 2 ^ 32

/-- The HEAD flit of a data packet gives the packet without its payload. -/
theorem headOf_data {p : Packet} (q : HeaderInRange p) (data : PT.isData p.typ.val = true) (empty : p.payload = []) (e : ExtInRange p) :
    headOf (headBytes p) = p := by
  obtain ⟨sigref, inc, sigtum, sigbytes⟩ := e
  have ext : extBytes p = leBytes 4 p.pcrc.toNat ++ (leBytes 2 p.sigref ++ (leBytes 1 p.sig.toNat ++ (leBytes 1 0 ++ (leBytes 4 p.opid.toNat
      ++ (leBytes 2 p.inc ++ (leBytes 2 p.sigtum ++ (leBytes 4 p.sigbytes ++ (leBytes 4 0 ++ (leBytes 8 p.mask.inRack.toNat
      ++ (leBytes 8 p.mask.racks.toNat ++ (leBytes 4 p.digest.toNat ++ (leBytes 4 p.ccrc.toNat ++ [])))))))))))) := by
    simp only [extBytes, maskBytes, List.append_assoc, List.append_nil]
  have mask : maskOf (((extBytes p).drop 24).take 16) = p.mask := by
    have cut : extBytes p = (leBytes 4 p.pcrc.toNat ++ leBytes 2 p.sigref ++ leBytes 1 p.sig.toNat ++ leBytes 1 0 ++ leBytes 4 p.opid.toNat
        ++ leBytes 2 p.inc ++ leBytes 2 p.sigtum ++ leBytes 4 p.sigbytes ++ leBytes 4 0)
          ++ (maskBytes p.mask ++ (leBytes 4 p.digest.toNat ++ leBytes 4 p.ccrc.toNat)) := by
      simp only [extBytes, List.append_assoc]
    rw [cut, List.drop_left' (by simp), maskOf_maskBytes]
  have fields : leAt (extBytes p) 0 4 = p.pcrc.toNat ∧ leAt (extBytes p) 4 2 = p.sigref ∧ leAt (extBytes p) 6 1 = p.sig.toNat % 2 ^ (8 * 1)
      ∧ leAt (extBytes p) 8 4 = p.opid.toNat ∧ leAt (extBytes p) 12 2 = p.inc ∧ leAt (extBytes p) 14 2 = p.sigtum
      ∧ leAt (extBytes p) 16 4 = p.sigbytes ∧ leAt (extBytes p) 40 4 = p.digest.toNat ∧ leAt (extBytes p) 44 4 = p.ccrc.toNat := by
    rw [ext]
    simp only [leAt_here, leAt_past, Nat.reduceLeDiff, Nat.reduceSub]
    exact ⟨Nat.mod_eq_of_lt p.pcrc.isLt, Nat.mod_eq_of_lt sigref, trivial, Nat.mod_eq_of_lt p.opid.isLt, Nat.mod_eq_of_lt inc, Nat.mod_eq_of_lt sigtum,
      Nat.mod_eq_of_lt sigbytes, Nat.mod_eq_of_lt p.digest.isLt, Nat.mod_eq_of_lt p.ccrc.isLt⟩
  obtain ⟨pcrc, sigref, sig, opid, inc, sigtum, sigbytes, digest, ccrc⟩ := fields
  rw [headBytes, if_pos data, headOf_header q]
  simp only [data, if_true, mask, pcrc, sigref, sig, opid, inc, sigtum, sigbytes, digest, ccrc, toNat_testBit_mod, BitVec.ofNat_toNat,
    BitVec.setWidth_eq, ← empty]

/-- The HEAD flit of a control packet gives the packet whole. -/
theorem headOf_control {p : Packet} (q : HeaderInRange p) (control : PT.isData p.typ.val = false) (whole : p.payload.length = p.count)
    (short : p.count ≤ 48)
    (bare : p = { p with pcrc := 0, sigref := 0, sig := false, opid := 0, inc := 0, sigtum := 0, sigbytes := 0, mask := { inRack := 0, racks := 0 }, digest := 0, ccrc := 0 }) :
    headOf (headBytes p) = p := by
  have payload : ((padTo 48 p.payload).take 48).take p.count = p.payload := by
    rw [List.take_take, Nat.min_eq_left short, padTo_short (by omega), List.take_left' whole]
  rw [headBytes, if_neg (by rw [control]; decide), headOf_header q]
  simp only [control, Bool.false_eq_true, if_false, payload, leAt_nil]
  exact bare.symm

/-! ### Blocks of one length -/

/-- The i-th of some blocks of one length. -/
theorem block_at {α : Type} {f : α → List Byte} {n : Nat} {l : List α} (size : ∀ x ∈ l, (f x).length = n) (r : List Byte) {i : Nat} (h : i < l.length) :
    ((l.flatMap f ++ r).drop (n * i)).take n = f l[i] := by
  induction l generalizing i with
  | nil => exact absurd h (Nat.not_lt_zero _)
  | cons x l ih =>
    have first := size x List.mem_cons_self
    rw [List.flatMap_cons, List.append_assoc]
    cases i with
    | zero => exact List.take_left' first
    | succ i =>
      rw [Nat.mul_succ, Nat.add_comm, ← List.drop_drop, List.drop_left' first]
      exact ih (fun y hy => size y (List.mem_cons_of_mem _ hy)) (Nat.lt_of_succ_lt_succ h)

theorem length_blocks {α : Type} {f : α → List Byte} {n : Nat} {l : List α} (size : ∀ x ∈ l, (f x).length = n) : (l.flatMap f).length = n * l.length := by
  induction l with
  | nil => rfl
  | cons x l ih =>
    rw [List.flatMap_cons, List.length_append, size x List.mem_cons_self, ih fun y hy => size y (List.mem_cons_of_mem _ hy), List.length_cons,
      Nat.mul_succ, Nat.add_comm]

/-! ### Link-control flits (R271) -/

theorem countBytes_length (cs : List Nat) : (countBytes cs).length = 48 := length_blocks fun _ _ => length_leBytes 2 _

theorem leAt_countBytes (cs : List Nat) (r : List Byte) {i : Nat} (h : i < 24) : leAt (countBytes cs ++ r) (2 * i) 2 = cs.getD i 0 % 2 ^ 16 := by
  rw [leAt, countBytes, block_at (fun _ _ => length_leBytes 2 _) r (by simpa using h), leNat_leBytes, List.getElem_range]

theorem linkFields_length (l : LinkFlit) : (linkFields l).length ≤ 48 := by
  cases l <;> simp [linkFields, countBytes_length]

/-- A link-control flit's bytes: LTYPE, a zero byte, its fields and zeros. -/
theorem slotBytes_link (l : LinkFlit) : slotBytes (.link l) = leBytes 1 (linkType l) ++ (leBytes 1 0 ++ (linkFields l ++ List.replicate (62 - (linkFields l).length) 0)) := by
  have short := linkFields_length l
  rw [slotBytes, padTo_short (by simp only [List.length_append, length_leBytes]; omega)]
  simp only [List.length_append, length_leBytes, List.append_assoc]
  congr 4
  omega

theorem countsOf_link (l : LinkFlit) {cs : List Nat} (fields : linkFields l = countBytes cs) (all : cs.length = 24) (small : ∀ c ∈ cs, c < 65536) :
    countsOf (slotBytes (.link l)) = cs := by
  refine List.ext_getElem (by simp [countsOf, all]) fun i hi hj => ?_
  have inside : i < 24 := by omega
  have from2 : 2 + 2 * i - 1 - 1 = 2 * i := by omega
  rw [slotBytes_link, fields]
  simp only [countsOf, List.getElem_map, List.getElem_range]
  rw [leAt_past _ _ _ (by omega), leAt_past _ _ _ (by omega), from2, leAt_countBytes _ _ inside, List.getD_eq_getElem _ _ hj]
  exact Nat.mod_eq_of_lt (small _ (List.getElem_mem hj))

/-- The fields of a link-control flit lie in their ranges, and a reserved one has a type that no other has. -/
def LinkInRange (l : LinkFlit) : Prop :=
  match l with
  | .heartbeat m q st _ => m < 65536 ∧ q < 256 ∧ st < 256
  | .vcsel vc => vc < 256
  | .abort vc => vc < 256
  | .syncReq => True
  | .sync cs => cs.length = 24 ∧ ∀ c ∈ cs, c < 65536
  | .laneMask _ g => g < 256
  | .laneReq l _ => l < 256
  | .violation c vc n => c < 256 ∧ vc < 256 ∧ n < 65536
  | .down c => c < 256
  | .key m q _ _ _ _ => m < 65536 ∧ q < 256
  | .creditInit cs => cs.length = 24 ∧ ∀ c ∈ cs, c < 65536
  | .reject st m q => st < 256 ∧ m < 65536 ∧ q < 256
  | .reserved t => t < 256 ∧ (t = 0 ∨ (0x0A ≤ t ∧ t ≤ 0x0F) ∨ 0x13 ≤ t)

theorem linkType_read (l : LinkFlit) (small : linkType l < 256) : leAt (slotBytes (.link l)) 0 1 = linkType l := by
  rw [slotBytes_link, leAt_here]
  exact Nat.mod_eq_of_lt small

/-- A field of a link-control flit. -/
theorem leAt_link (l : LinkFlit) {i : Nat} (n : Nat) (h : 2 ≤ i) :
    leAt (slotBytes (.link l)) i n = leAt (linkFields l ++ List.replicate (62 - (linkFields l).length) 0) (i - 2) n := by
  rw [slotBytes_link, leAt_past _ _ _ (by omega), leAt_past _ _ _ (by omega)]
  rfl

theorem linkOf_slotBytes {l : LinkFlit} (q : LinkInRange l) : linkOf (slotBytes (.link l)) = l := by
  have small : linkType l < 256 := by
    cases l with
    | reserved t => exact q.1
    | _ => simp [linkType]
  have typ := linkType_read l small
  have field {i : Nat} (n : Nat) (h : 2 ≤ i) := leAt_link l n h
  unfold linkOf
  dsimp only
  rw [typ]
  cases l with
  | heartbeat m p st t =>
    obtain ⟨hm, hp, hs⟩ := q
    have ht : t.toNat < 18446744073709551616 := t.isLt
    simp [linkType, field, linkFields, leAt_here, leAt_past, Nat.mod_eq_of_lt, hm, hp, hs, ht]
  | vcsel vc => simpa [linkType, field, linkFields, leAt_here] using Nat.mod_eq_of_lt q
  | abort vc => simpa [linkType, field, linkFields, leAt_here] using Nat.mod_eq_of_lt q
  | syncReq => rfl
  | sync cs => exact congrArg LinkFlit.sync (countsOf_link _ rfl q.1 q.2)
  | laneMask m g =>
    have hg : g < 256 := q
    have hm : m.toNat < 65536 := m.isLt
    simp [linkType, field, linkFields, leAt_here, leAt_past, Nat.mod_eq_of_lt, hm, hg]
  | laneReq l r =>
    have hl : l < 256 := q
    cases r <;> simp [linkType, field, linkFields, leAt_here, leAt_past, Nat.mod_eq_of_lt, hl]
  | violation code vc n =>
    obtain ⟨hc, hv, hn⟩ := q
    simp [linkType, field, linkFields, leAt_here, leAt_past, Nat.mod_eq_of_lt, hc, hv, hn]
  | down c => simpa [linkType, field, linkFields, leAt_here] using Nat.mod_eq_of_lt q
  | key m p ad rt mt k =>
    obtain ⟨hm, hp⟩ := q
    have hk : k.toNat < 18446744073709551616 := k.isLt
    have flags : ∀ a b c : Bool, ((a.toNat + 2 * b.toNat + 4 * c.toNat) % 256).testBit 0 = a ∧ ((a.toNat + 2 * b.toNat + 4 * c.toNat) % 256).testBit 1 = b
        ∧ ((a.toNat + 2 * b.toNat + 4 * c.toNat) % 256).testBit 2 = c := by decide
    obtain ⟨ha, hr, hc⟩ := flags ad rt mt
    simp only [linkType, field, linkFields, List.append_assoc, leAt_here, leAt_past, Nat.reduceLeDiff, Nat.reduceSub, Nat.reduceMul, Nat.reducePow, ha, hr, hc,
      Nat.mod_eq_of_lt, hm, hp, hk, BitVec.ofNat_toNat, BitVec.setWidth_eq]
  | creditInit cs => exact congrArg LinkFlit.creditInit (countsOf_link _ rfl q.1 q.2)
  | reject st m p =>
    obtain ⟨hs, hm, hp⟩ := q
    simp [linkType, field, linkFields, leAt_here, leAt_past, Nat.mod_eq_of_lt, hm, hp, hs]
  | reserved t =>
    obtain ⟨_, other⟩ := q
    simp only [linkType]
    split
    case h_13 => rfl
    all_goals omega

/-! ### Frames (R266, R267) -/

theorem length_headBytes (p : Packet) : (headBytes p).length = 64 := by
  rw [headBytes, List.length_append, length_leBytes]
  split <;> simp [extBytes, maskBytes, padTo_length]

theorem length_slotBytes (f : Flit) : (slotBytes f).length = 64 := by
  cases f with
  | null => exact List.length_replicate
  | head p => exact length_headBytes p
  | body d => exact padTo_length _ _
  | link l => exact padTo_length _ _

theorem length_frameBody (f : Frame) : (frameBody f).length = 2076 := by
  rw [frameBody, List.length_append, length_blocks fun _ _ => length_slotBytes _, List.length_range, length_leBytes]

/-- The fields of a trailer after the slot types. -/
def creditFields (f : Frame) : List (Nat × Nat) :=
  let c := fun i => f.credits.getD i (31, 0)
  [(12, f.fseq), (12, f.ack), (1, f.nak.toNat), (1, f.empty.toNat), (6, 0), (5, (c 0).1), (13, (c 0).2), (5, (c 1).1), (13, (c 1).2),
    (5, (c 2).1), (13, (c 2).2), (5, (c 3).1), (13, (c 3).2)]

/-- The fields of a trailer below the CRC. -/
def trailerFields (f : Frame) : List (Nat × Nat) := (List.range 32).map (fun i => (2, slotCode (f.slots.getD i .null))) ++ creditFields f

theorem fld_trailer (f : Frame) {i : Nat} (n : Nat) (h : 64 ≤ i) : fld (digits (trailerFields f)) i n = fld (digits (creditFields f)) (i - 64) n := by
  have slots : widths ((List.range 32).map (fun i => (2, slotCode (f.slots.getD i .null)))) = 64 := widths_map 2 _ _
  rw [trailerFields, fld_append _ _ _ (by rw [slots]; exact h), slots]

theorem trailerBits_eq (f : Frame) : trailerBits f = digits (trailerFields f) := by
  have four (g : Nat → Nat) : ((List.range 4).map g).sum = g 0 + g 1 + g 2 + g 3 := by simp [List.range_succ, Nat.add_assoc]
  rw [trailerFields, digits_append, digits_range, widths_map, List.length_range, trailerBits, four]
  simp only [creditFields, digits, bitsAt]
  ring

theorem widths_trailer (f : Frame) : widths (trailerFields f) = 168 := by
  rw [trailerFields, widths, List.map_append, List.sum_append]
  exact congrArg (· + 104) (widths_map 2 _ (List.range 32))

/-- The trailer that a frame's bytes hold. -/
theorem trailer_read (f : Frame) (r : List Byte) : leAt (frameBody f ++ r) 2048 28 = digits (trailerFields f) := by
  have slots : ((List.range 32).flatMap (fun i => slotBytes (f.slots.getD i .null))).length = 2048 := length_blocks fun _ _ => length_slotBytes _
  rw [leAt, frameBody, List.append_assoc, List.drop_left' slots, List.take_left' (length_leBytes _ _), leNat_leBytes, trailerBits_eq]
  refine Nat.mod_eq_of_lt ((digits_lt _).trans_le (Nat.pow_le_pow_right (by decide) ?_))
  rw [widths_trailer]
  decide

/-- The bytes of slot i. -/
theorem slot_read (f : Frame) (r : List Byte) {i : Nat} (h : i < 32) : ((frameBody f ++ r).drop (64 * i)).take 64 = slotBytes (f.slots.getD i .null) := by
  rw [frameBody, List.append_assoc, block_at (fun _ _ => length_slotBytes _) _ (by simpa using h), List.getElem_range]

/-- A packet whose HEAD flit holds it: its header in range, and an extension in range or a bare control packet. -/
def HeadInRange (p : Packet) : Prop :=
  HeaderInRange p ∧ (PT.isData p.typ.val = true → p.payload = [] ∧ ExtInRange p)
    ∧ (PT.isData p.typ.val = false → p.payload.length = p.count ∧ p.count ≤ 48
      ∧ p = { p with pcrc := 0, sigref := 0, sig := false, opid := 0, inc := 0, sigtum := 0, sigbytes := 0, mask := { inRack := 0, racks := 0 }, digest := 0, ccrc := 0 })

theorem headOf_headBytes {p : Packet} (q : HeadInRange p) : headOf (headBytes p) = p := by
  obtain ⟨header, data, control⟩ := q
  cases kind : PT.isData p.typ.val with
  | true =>
    obtain ⟨empty, ext⟩ := data kind
    exact headOf_data header kind empty ext
  | false =>
    obtain ⟨whole, short, bare⟩ := control kind
    exact headOf_control header kind whole short bare

/-- A flit that its slot holds. -/
def FlitInRange (f : Flit) : Prop :=
  match f with
  | .null => True
  | .head p => HeadInRange p
  | .body d => d.length = 64
  | .link l => LinkInRange l

theorem flitOf_slotBytes {x : Flit} (q : FlitInRange x) : flitOf (slotCode x) (slotBytes x) = x := by
  cases x with
  | null => rfl
  | head p => exact congrArg Flit.head (headOf_headBytes q)
  | body d => exact congrArg Flit.body ((padTo_short (Nat.le_of_eq q)).trans (by rw [q]; exact List.append_nil d))
  | link l => exact congrArg Flit.link (linkOf_slotBytes q)

theorem slotCode_lt (x : Flit) : slotCode x < 2 ^ 2 := by cases x <;> simp [slotCode]

/-- The fields of a frame lie in their ranges. -/
structure FrameInRange (f : Frame) : Prop where
  slots   : f.slots.length = 32
  flits   : ∀ x ∈ f.slots, FlitInRange x
  fseq    : f.fseq < 2 ^ 12
  ack     : f.ack < 2 ^ 12
  credits : f.credits.length = 4
  counts  : ∀ c ∈ f.credits, c.1 < 2 ^ 5 ∧ c.2 < 2 ^ 13

theorem frameOf_slots {f : Frame} (q : FrameInRange f) (r : List Byte) :
    (List.range 32).map (fun i => flitOf (fld (digits (trailerFields f)) (2 * i) 2) (((frameBody f ++ r).drop (64 * i)).take 64)) = f.slots := by
  refine List.ext_getElem (by simp [q.slots]) fun i hi hj => ?_
  have inside : i < 32 := by simpa using hi
  have code : fld (digits (trailerFields f)) (2 * i) 2 = slotCode f.slots[i] := by
    rw [trailerFields, fld_map _ _ _ (by simpa using inside), List.getElem_range, List.getD_eq_getElem _ _ hj]
    exact Nat.mod_eq_of_lt (slotCode_lt _)
  rw [List.getElem_map, List.getElem_range, slot_read _ _ inside, code, List.getD_eq_getElem _ _ hj]
  exact flitOf_slotBytes (q.flits _ (List.getElem_mem hj))

theorem frameOf_frameBytes {f : Frame} (q : FrameInRange f) : frameOf (frameBytes f) = f := by
  have slots := frameOf_slots q (leBytes 4 (crc32c (frameBody f)))
  have trailer : leAt (frameBytes f) 2048 28 = digits (trailerFields f) := trailer_read f _
  have fields : fld (digits (trailerFields f)) 64 12 = f.fseq ∧ fld (digits (trailerFields f)) 76 12 = f.ack
      ∧ (digits (trailerFields f)).testBit 88 = f.nak ∧ (digits (trailerFields f)).testBit 89 = f.empty := by
    simp only [testBit_eq_fld, fld_trailer, creditFields, fld_here, fld_past, Nat.reduceLeDiff, Nat.reduceSub, decide_toNat_mod]
    exact ⟨Nat.mod_eq_of_lt q.fseq, Nat.mod_eq_of_lt q.ack, trivial, trivial⟩
  have credits : (List.range 4).map (fun i => (fld (digits (trailerFields f)) (96 + 18 * i) 5, fld (digits (trailerFields f)) (101 + 18 * i) 13)) = f.credits := by
    have counts := q.counts
    match hf : f.credits, q.credits with
    | [a, b, c, d], _ =>
      simp only [hf, List.forall_mem_cons] at counts
      obtain ⟨⟨a1, a2⟩, ⟨b1, b2⟩, ⟨c1, c2⟩, ⟨d1, d2⟩, _⟩ := counts
      simp only [List.range_succ, List.range_zero, List.nil_append, List.cons_append, List.map_cons, List.map_nil, Nat.reduceMul, Nat.reduceAdd,
        fld_trailer, creditFields, hf, fld_here, fld_past, Nat.reduceLeDiff, Nat.reduceSub, List.getD_cons_zero, List.getD_cons_succ]
      rw [Nat.mod_eq_of_lt a1, Nat.mod_eq_of_lt a2, Nat.mod_eq_of_lt b1, Nat.mod_eq_of_lt b2, Nat.mod_eq_of_lt c1, Nat.mod_eq_of_lt c2, Nat.mod_eq_of_lt d1,
        Nat.mod_eq_of_lt d2]
  obtain ⟨fseq, ack, nak, empty⟩ := fields
  unfold frameOf
  simp only [trailer, fseq, ack, nak, empty, credits]
  exact congrArg (fun l => { f with slots := l }) slots

/-! ### Alignment markers (R263) -/

theorem length_alignFields (lane g : Nat) (m : BitVec 16) : (alignFields lane g m).length = 4 := by simp [alignFields]

theorem alignBytes_read {lane g : Nat} (m : BitVec 16) (c : Word32) (hl : lane < 16) (hg : g < 256) :
    let b := alignBytes lane g m c
    b.length = 20 ∧ alignGood b = true ∧ leAt b 8 1 = lane ∧ leAt b 9 1 = g ∧ leAt b 10 2 = m.toNat ∧ leAt b 12 4 = c.toNat := by
  have size := length_alignFields lane g m
  have parts : alignBytes lane g m c = leBytes 8 alignSync ++ (alignFields lane g m ++ (leBytes 4 c.toNat ++ (alignFields lane g m).map (fun x => ~~~x))) := by
    simp only [alignBytes, List.append_assoc]
  have fields : alignBytes lane g m c = leBytes 8 alignSync ++ (leBytes 1 lane ++ (leBytes 1 g ++ (leBytes 2 m.toNat
      ++ (leBytes 4 c.toNat ++ (alignFields lane g m).map (fun x => ~~~x))))) := by
    simp only [parts, alignFields, List.append_assoc]
  have hm : m.toNat < 2 ^ (8 * 2) := m.isLt
  have hc : c.toNat < 2 ^ (8 * 4) := c.isLt
  refine ⟨?_, ?_, ?_⟩
  · simp [parts, size]
  · have sync : leAt (alignBytes lane g m c) 0 8 = alignSync := by
      rw [parts, leAt_here]
      decide
    have check : (alignBytes lane g m c).drop 16 = (alignFields lane g m).map (fun x => ~~~x) := by
      rw [alignBytes]
      exact List.drop_left' (by simp [size])
    have named : ((alignBytes lane g m c).drop 8).take 4 = alignFields lane g m := by
      rw [parts, List.drop_left' (length_leBytes _ _), List.take_left' size]
    rw [alignGood, sync, check, named, List.take_of_length_le (by simp [size])]
    simp
  · simp only [fields, leAt_here, leAt_past, Nat.reduceLeDiff, Nat.reduceSub]
    exact ⟨Nat.mod_eq_of_lt (by omega), Nat.mod_eq_of_lt (by omega), Nat.mod_eq_of_lt hm, Nat.mod_eq_of_lt hc⟩

/-- Settles O45: every layout is a sequence of fields side by side, and each field is read at the widths of those before it. -/
theorem whatLeavesIsReadBack : Obligations.WhatLeavesIsReadBack := by
  unfold Obligations.WhatLeavesIsReadBack
  have headIn {p : Packet} (q : p.hops < 32 ∧ p.dst < 4096 ∧ p.src < 4096 ∧ p.job < 65536 ∧ p.len < 128 ∧ p.tag < 32768 ∧ p.space < 8 ∧ p.count < 64
      ∧ (PT.isData p.typ.val = true → p.payload = [] ∧ p.sigref < 65536 ∧ p.inc < 65536 ∧ p.sigtum < 65536 ∧ p.sigbytes < 2 ^ 32)
      ∧ (PT.isData p.typ.val = false → p.payload.length = p.count ∧ p.count ≤ 48
        ∧ p = { p with pcrc := 0, sigref := 0, sig := false, opid := 0, inc := 0, sigtum := 0, sigbytes := 0, mask := { inRack := 0, racks := 0 }, digest := 0, ccrc := 0 })) :
      HeadInRange p := by
    obtain ⟨hops, dst, src, job, len, tag, space, count, data, control⟩ := q
    refine ⟨⟨hops, dst, src, job, len, tag, space, count⟩, fun kind => ?_, control⟩
    obtain ⟨empty, sigref, inc, sigtum, sigbytes⟩ := data kind
    exact ⟨empty, sigref, inc, sigtum, sigbytes⟩
  refine ⟨fun f => ⟨?_, frameCrcOk_append _ (length_frameBody f)⟩, fun p q => headOf_headBytes (headIn q), fun l q => linkOf_slotBytes ?_,
    fun f slots flits fseq ack credits counts => frameOf_frameBytes ⟨slots, fun x mem => ?_, fseq, ack, credits, counts⟩,
    fun lane g m c hl hg => alignBytes_read m c hl hg⟩
  · rw [frameBytes, List.length_append, length_frameBody, length_leBytes]
  · cases l <;> exact q
  · have q := flits x mem
    cases x with
    | head p => exact headIn q
    | link l => cases l <;> exact q
    | null => exact q
    | body d => exact q

end Sys2Proof.Machine
end

section
/-! Transfers within the module (R48, R82, R88-R91, R169, R340, R362, R399, R432). -/

namespace Sys2Proof.Machine

/-! ### How an engine's effect shows (R340) -/

theorem State.Runs.dispatched {s : State} {c : CoreId} {id : Nat} {e : Entry} (r : s.Runs c id e) : e.phase = .dispatched := by
  have ready := r.ready
  unfold Core.runnable at ready
  split at ready
  next x found =>
    split at ready
    next ok => cases ready; exact ok.1
    next => cases ready
  next => cases ready

theorem Core.entry?_id {k : Core} {id : Nat} {e : Entry} (found : k.entry? id = some e) : e.id = id := by
  simpa using List.find?_some (p := fun e : Entry => e.id == id) found

theorem State.Runs.id_eq {s : State} {c : CoreId} {id : Nat} {e : Entry} (r : s.Runs c id e) : e.id = id := Core.entry?_id r.entry

/-- The entry of a changed instruction. -/
theorem State.modEntry_entry (t : State) (c : CoreId) (id : Nat) {g : Entry → Entry} (keeps : ∀ y, (g y).id = y.id) :
    ((t.modEntry c.val id g).core c.val).entry? id = ((t.core c.val).entry? id).map g := by
  unfold State.modEntry Core.modEntry
  rw [State.core_modCore _ _ _ c.isLt, Core.entry?_mapWindow _ _ (fun e => by split <;> simp only [keeps])]
  cases found : (t.core c.val).entry? id with
  | none => rfl
  | some y =>
    have named : (y.id == id) = true := by simpa using Core.entry?_id found
    simp only [Option.map_some, named, if_true]

/-- An instruction that its engine takes on crosses the leaf link where it leaves the leaf (R340). -/
theorem State.Runs.takesOn {s t : State} {c : CoreId} {id : Nat} {e : Entry} {i : Instr} (r : s.Runs c id e) {f : State → Entry → State}
    (run : exec i s = .next (s.runEntry c.val id [] f)) {g : Entry → Entry} (effect : f s e = t.modEntry c.val id g) (keeps : ∀ y, (g y).id = y.id)
    (started : ∀ y, (g y).phase ≠ .dispatched) : exec i s = .next (s.crossed c e.op (t.modEntry c.val id g)) := by
  rw [run, r.run_crossing f, effect]
  intro x found
  rw [effect, r.id_eq, t.modEntry_entry c id keeps] at found
  obtain ⟨y, _, rfl⟩ := Option.map_eq_some_iff.mp found
  exact started y

/-- An instruction that waits in its engine changes nothing. -/
theorem State.Runs.stays {s : State} {c : CoreId} {id : Nat} {e : Entry} {i : Instr} (r : s.Runs c id e) {f : State → Entry → State}
    (run : exec i s = .next (s.runEntry c.val id [] f)) (effect : f s e = s) : exec i s = .next s := by
  rw [run, r.overLink, State.overLink, effect, r.id_eq]
  dsimp only
  rw [r.entry]
  dsimp only
  rw [if_pos r.dispatched]
  exact congrArg Host.Outcome.next (iteInduction (motive := (· = s)) (fun _ => rfl) fun _ => iteInduction (motive := (· = s)) (fun _ => rfl) fun _ => rfl)

/-! ### Runs of far bytes (R89) -/

theorem Mem.length_readN (m : Mem) (a n : Nat) : (m.readN a n).length = n := by simp [Mem.readN]

theorem Mem.readN_add (m : Mem) (a n k : Nat) : m.readN a (n + k) = m.readN a n ++ m.readN (a + n) k := by
  simp only [Mem.readN, List.range_add, List.map_append, List.map_map]
  congr 1
  exact List.map_congr_left fun i _ => congrArg m.read (Nat.add_assoc a n i).symm

/-- A run is as long as the SP ranges that it takes. -/
def RunWhole (q : Nat × Nat × List (Nat × Nat)) : Prop := q.2.1 = (q.2.2.map Prod.snd).sum

theorem Core.length_gather (k : Core) (ds : List (Nat × Nat)) : (k.gather ds).length = (ds.map Prod.snd).sum := by
  simp [Core.gather, List.length_flatMap, Mem.length_readN]

/-- Bytes scattered over ranges and one more. -/
theorem scatter_append (ds : List (Nat × Nat)) (d : Nat × Nat) {bs cs : List Byte} (whole : bs.length = (ds.map Prod.snd).sum) (last : cs.length = d.2) :
    scatter (ds ++ [d]) (bs ++ cs) = scatter ds bs ++ [(d.1, cs)] := by
  induction ds generalizing bs with
  | nil =>
    rw [List.eq_nil_of_length_eq_zero whole]
    exact congrArg (fun x => [(d.1, x)]) (List.take_of_length_le (Nat.le_of_eq last))
  | cons x ds ih =>
    rw [List.map_cons, List.sum_cons] at whole
    rw [List.cons_append, scatter, scatter, List.take_append_of_le_length (by omega), List.drop_append_of_le_length (by omega),
      ih (by rw [List.length_drop]; omega), List.cons_append]

/-- One piece joined to the runs before it, the last run first. -/
def joinStep (joins : Nat → Nat → Bool) (r : List (Nat × Nat × List (Nat × Nat))) (p : Nat × Nat × Nat) : List (Nat × Nat × List (Nat × Nat)) :=
  match r with
  | q :: rest =>
    if q.1 + q.2.1 = p.1 ∧ joins q.1 p.1 then (q.1, q.2.1 + p.2.2, q.2.2 ++ [(p.2.1, p.2.2)]) :: rest
    else (p.1, p.2.2, [(p.2.1, p.2.2)]) :: r
  | [] => [(p.1, p.2.2, [(p.2.1, p.2.2)])]

theorem joinPieces_eq (joins : Nat → Nat → Bool) (ps : List (Nat × Nat × Nat)) : joinPieces joins ps = (ps.foldl (joinStep joins) []).reverse := by
  rw [joinPieces]
  exact congrArg (fun f => (ps.foldl f []).reverse) (funext fun r => funext fun p => by cases r <;> rfl)

/-- The bytes of a memory that a run reads, by SP offset. -/
def runBytes (m : Mem) (q : Nat × Nat × List (Nat × Nat)) : List (Nat × List Byte) := scatter q.2.2 (m.readN q.1 q.2.1)

/-- Runs that are whole and read the bytes of some pieces. -/
structure RunsHold (m : Mem) (r : List (Nat × Nat × List (Nat × Nat))) (ps : List (Nat × Nat × Nat)) : Prop where
  whole : ∀ q ∈ r, RunWhole q
  bytes : r.reverse.flatMap (runBytes m) = ps.map (fun p => (p.2.1, m.readN p.1 p.2.2))

theorem RunsHold.step {m : Mem} {r : List (Nat × Nat × List (Nat × Nat))} {ps : List (Nat × Nat × Nat)} (h : RunsHold m r ps) (joins : Nat → Nat → Bool)
    (p : Nat × Nat × Nat) : RunsHold m (joinStep joins r p) (ps ++ [p]) := by
  obtain ⟨whole, bytes⟩ := h
  have own : RunWhole (p.1, p.2.2, [(p.2.1, p.2.2)]) := by simp [RunWhole]
  have ownBytes : runBytes m (p.1, p.2.2, [(p.2.1, p.2.2)]) = [(p.2.1, m.readN p.1 p.2.2)] := by
    simp only [runBytes, scatter]
    rw [List.take_of_length_le (Nat.le_of_eq (m.length_readN _ _))]
  cases r with
  | nil =>
    refine ⟨by simpa [joinStep] using own, ?_⟩
    rw [joinStep, List.reverse_singleton, List.flatMap_singleton, ownBytes, List.map_append, ← bytes]
    rfl
  | cons q rest =>
    rw [joinStep]
    split
    next joined =>
      have qWhole := whole q List.mem_cons_self
      refine ⟨fun x mem => ?_, ?_⟩
      · rcases List.mem_cons.mp mem with rfl | mem
        · simp only [RunWhole, List.map_append, List.map_singleton, List.sum_append, List.sum_singleton]
          rw [← qWhole]
        · exact whole x (List.mem_cons_of_mem _ mem)
      · have longer : runBytes m (q.1, q.2.1 + p.2.2, q.2.2 ++ [(p.2.1, p.2.2)]) = runBytes m q ++ [(p.2.1, m.readN p.1 p.2.2)] := by
          simp only [runBytes]
          rw [Mem.readN_add, scatter_append _ _ ((m.length_readN _ _).trans qWhole) (m.length_readN _ _), joined.1]
        rw [List.reverse_cons, List.flatMap_append, List.flatMap_singleton] at bytes ⊢
        rw [longer, ← List.append_assoc, bytes, List.map_append]
        rfl
    next =>
      refine ⟨fun x mem => ?_, ?_⟩
      · rcases List.mem_cons.mp mem with rfl | mem
        · exact own
        · exact whole x mem
      · rw [List.reverse_cons, List.flatMap_append, List.flatMap_singleton, bytes, ownBytes, List.map_append]
        rfl

theorem joinPieces_hold (m : Mem) (joins : Nat → Nat → Bool) (ps : List (Nat × Nat × Nat)) : RunsHold m (joinPieces joins ps).reverse ps := by
  have all (l : List (Nat × Nat × Nat)) (r : List (Nat × Nat × List (Nat × Nat))) (seen : List (Nat × Nat × Nat)) (h : RunsHold m r seen) :
      RunsHold m (l.foldl (joinStep joins) r) (seen ++ l) := by
    induction l generalizing r seen with
    | nil => rwa [List.append_nil]
    | cons p l ih =>
      have next := ih _ _ (h.step joins p)
      rwa [List.append_assoc] at next
  rw [joinPieces_eq, List.reverse_reverse]
  exact all ps [] [] ⟨fun _ h => absurd h List.not_mem_nil, rfl⟩

theorem farRuns_whole (t : Tile) (off : Nat) (rb : Word) {q : Nat × Nat × List (Nat × Nat)} (mem : q ∈ farRuns t off rb) : RunWhole q :=
  (joinPieces_hold Mem.empty _ _).whole q (List.mem_reverse.mpr mem)

/-- The runs of a tile hold the bytes of its pieces. -/
theorem farRuns_bytes (m : Mem) (t : Tile) (off : Nat) (rb : Word) :
    (farRuns t off rb).flatMap (runBytes m) = (farPieces t rb).map (fun x => (x.2.1, m.readN (off + x.1) x.2.2)) := by
  have bytes := (joinPieces_hold m (fun _ _ => true) ((farPieces t rb).map (fun p => (off + p.1, p.2.1, p.2.2)))).bytes
  rw [List.reverse_reverse, List.map_map] at bytes
  exact bytes

/-! ### Stores to HM -/

/-- The state `t` after stores to HM. -/
def State.withHm (s t : State) : State :=
  { s with hm := t.hm, hmBad := t.hmBad, freeCtr := t.freeCtr, kvSeqs := t.kvSeqs, kvPages := t.kvPages }

structure State.OnlyHm (s t : State) : Prop where
  eq : t = s.withHm t

theorem State.OnlyHm.refl (s : State) : s.OnlyHm s := ⟨rfl⟩

theorem State.OnlyHm.trans {s t u : State} (a : s.OnlyHm t) (b : t.OnlyHm u) : s.OnlyHm u := by
  have step := congrArg (fun x => State.withHm x u) a.eq
  exact ⟨b.eq.trans step⟩

theorem State.onlyHm_lit (s : State) (hm : Mem) (hmBad : List Nat) (freeCtr : Nat) (kvSeqs : Tab KvSeq) (kvPages : List KvPage) :
    s.OnlyHm { s with hm := hm, hmBad := hmBad, freeCtr := freeCtr, kvSeqs := kvSeqs, kvPages := kvPages } := ⟨rfl⟩

theorem State.kvSpoil_onlyHm (s : State) (off n : Nat) : s.OnlyHm (s.kvSpoil off n) := by
  unfold State.kvSpoil
  dsimp only
  exact iteInduction (motive := s.OnlyHm) (fun _ => .refl s) (fun _ => s.onlyHm_lit ..)

theorem State.hmStore_onlyHm (s : State) (off : Nat) (bs : List Byte) : s.OnlyHm (s.hmStore off bs) :=
  (s.kvSpoil_onlyHm off bs.length).trans (State.onlyHm_lit ..)

theorem State.OnlyHm.cores {s t : State} (h : s.OnlyHm t) : t.cores = s.cores := (congrArg State.cores h.eq :)

theorem State.hmStore_core (s : State) (off : Nat) (bs : List Byte) (c : Nat) : (s.hmStore off bs).core c = s.core c :=
  State.core_congr (s.hmStore_onlyHm off bs).cores c

/-- Runs of a tile of core c stored to HM. -/
def State.storeRuns (s : State) (k : Core) (rs : List (Nat × Nat × List (Nat × Nat))) : State := rs.foldl (fun u x => u.hmStore x.1 (k.gather x.2.2)) s

theorem State.storeRuns_onlyHm (s : State) (k : Core) (rs : List (Nat × Nat × List (Nat × Nat))) : s.OnlyHm (s.storeRuns k rs) :=
  foldl_keeps s.OnlyHm _ (fun _ _ h => h.trans (State.hmStore_onlyHm _ _ _)) rs s (.refl s)

theorem State.storeRuns_read (s : State) (k : Core) {rs : List (Nat × Nat × List (Nat × Nat))} (whole : ∀ x ∈ rs, RunWhole x) {a : Nat}
    (outside : ∀ x ∈ rs, a < x.1 ∨ x.1 + x.2.1 ≤ a) : (s.storeRuns k rs).hm.read a = s.hm.read a := by
  induction rs generalizing s with
  | nil => rfl
  | cons x rs ih =>
    refine (ih (s.hmStore x.1 (k.gather x.2.2)) (fun y hy => whole y (List.mem_cons_of_mem _ hy))
      (fun y hy => outside y (List.mem_cons_of_mem _ hy))).trans ?_
    refine s.hm.read_writeN_other x.1 a (k.gather x.2.2) ?_
    rw [Core.length_gather, ← whole x List.mem_cons_self]
    exact outside x List.mem_cons_self

/-- A transfer writes its runs to HM as bytes. -/
theorem State.writeRuns_hm (s : State) (c hint uses : Nat) (rs : List (Nat × Nat × List (Nat × Nat))) :
    s.writeRuns [] c 1 hint uses [] rs = (.none, s.storeRuns (s.core c) rs) := by
  have all (rs : List (Nat × Nat × List (Nat × Nat))) (t : State) (same : t.core c = s.core c) :
      rs.foldl (fun (r : Bad × State) x =>
        let (b, s) := r.2.writeFar [] 1 x.1 hint uses (r.2.keepLanded [] 1 x.1 ((r.2.core c).gather x.2.2))
        (r.1.or b, s)) (.none, t) = (.none, t.storeRuns (s.core c) rs) := by
    induction rs generalizing t with
    | nil => rfl
    | cons x rs ih =>
      refine Eq.trans ?_ (ih (t.hmStore x.1 ((s.core c).gather x.2.2)) ((t.hmStore_core _ _ c).trans same))
      refine congrArg (List.foldl _ · rs) ?_
      simp only [same]
      rfl
  exact all rs s rfl

/-- A transfer reads its runs from HM as bytes, with the first bad word met. -/
theorem State.readRuns_hm (s : State) (hint uses : Nat) {rs : List (Nat × Nat × List (Nat × Nat))} (good : ∀ x ∈ rs, (s.hmRead x.1 x.2.1).2.isBad = false) :
    s.readRuns [] 1 hint uses rs = (rs.flatMap (runBytes s.hm), .none, s) := by
  have clean {b : Bad} (h : b.isBad = false) : b = .none := by cases b <;> simp_all [Bad.isBad]
  have all (rs : List (Nat × Nat × List (Nat × Nat))) (good : ∀ x ∈ rs, (s.hmRead x.1 x.2.1).2.isBad = false) (ds : List (Nat × List Byte)) :
      rs.foldl (fun (r : List (Nat × List Byte) × Bad × State) x =>
        let (bs, b, s) := r.2.2.readFar [] 1 x.1 x.2.1 hint uses
        (r.1 ++ scatter x.2.2 bs, r.2.1.or b, s)) (ds, .none, s) = (ds ++ rs.flatMap (runBytes s.hm), .none, s) := by
    induction rs generalizing ds with
    | nil => exact congrArg (·, Bad.none, s) (List.append_nil ds).symm
    | cons x rs ih =>
      have head : s.readFar [] 1 x.1 x.2.1 hint uses = (s.hm.readN x.1 x.2.1, .none, s) :=
        congrArg (fun b => (s.hm.readN x.1 x.2.1, b, s)) (clean (good x List.mem_cons_self))
      rw [List.foldl_cons, head, List.flatMap_cons, ← List.append_assoc]
      exact ih (fun y hy => good y (List.mem_cons_of_mem _ hy)) _
  unfold State.readRuns
  rw [if_neg (by decide)]
  exact all rs good []

/-! ### The run of a GET or PUT within the module -/

section
variable {s : State} {c : CoreId} {id : Nat} {e : Entry} {td : TileWord} {ra rb : Word} {cls hint : Nat} {log : Bool}

theorem State.crossTo_hm (s : State) (c : Nat) (hm : gSpace ra = 1) : s.crossTo c ra = s := by
  unfold State.crossTo State.otherLeaf
  rw [hm]
  simp [spSP]

/-- HM waits for no channel and no domain. -/
theorem State.farWaits_hm (s : State) (c : Nat) (t : Tile) (hm : gSpace ra = 1) : s.farWaits c t ra rb = false := by
  unfold State.farWaits State.otherLeaf State.waits State.memWaits
  rw [hm]
  simp [spSP]

theorem State.finishMem_none (s : State) (c : CoreId) (id space : Nat) : s.finishMem c.val id space .none = s.completed c id 0 := rfl

/-- What a GET within the module does when it need not wait. -/
theorem State.runGet_here (pre : s.preCheck (Tile.of td) ra rb = none) (here : s.isHere ra = true) (goes : s.farWaits c.val (Tile.of td) ra rb = false) :
    let g := (s.crossTo c.val ra).readRuns [] (gSpace ra) hint e.uses (farRuns (Tile.of td) (gOff ra) rb)
    s.runGet [] c.val id e td ra rb cls hint
      = (if g.2.1.isBad then g.2.2 else g.2.2.landRest c.val e.landed g.1).finishMem c.val id (gSpace ra) g.2.1 := by
  unfold State.runGet
  simp only [pre, here, goes, if_true, Bool.false_eq_true, if_false]

theorem State.runGet_waits (pre : s.preCheck (Tile.of td) ra rb = none) (here : s.isHere ra = true) (waits : s.farWaits c.val (Tile.of td) ra rb = true) :
    s.runGet [] c.val id e td ra rb cls hint = s := by
  unfold State.runGet
  simp only [pre, here, waits, if_true]

/-- What a PUT within the module does when it need not wait. -/
theorem State.runPut_here (pre : s.preCheck (Tile.of td) ra rb = none) (here : s.isHere ra = true) (goes : s.farWaits c.val (Tile.of td) ra rb = false)
    (logs : s.mirrorWaits c.val (Tile.of td) log = false) (good : (s.core c.val).badIn (Tile.of td).ranges = none) :
    let p := s.putHere [] c.val e (Tile.of td) ra rb 0 cls hint 0 log
    s.runPut [] c.val id e td ra rb cls hint log = p.2.finishMem c.val id (gSpace ra) p.1 := by
  unfold State.runPut
  simp only [pre, here, goes, logs, good, if_true, Bool.or_self, Bool.false_eq_true, if_false]

theorem State.runPut_waits (pre : s.preCheck (Tile.of td) ra rb = none)
    (waits : s.farWaits c.val (Tile.of td) ra rb = true ∨ s.mirrorWaits c.val (Tile.of td) log = true) :
    s.runPut [] c.val id e td ra rb cls hint log = s := by
  unfold State.runPut
  simp only [pre, Bool.or_eq_true, waits, if_true]

/-- A write to HM without a mirror. -/
theorem State.putHere_hm {sig : Word} {inc : Nat} (hm : gSpace ra = 1) (fresh : e.landed = []) (t : Tile) :
    s.putHere [] c.val e t ra rb sig cls hint inc false = (.none, s.storeRuns (s.core c.val) (farRuns t (gOff ra) rb)) := by
  unfold State.putHere
  rw [s.crossTo_hm c.val hm, hm, fresh, State.writeRuns_hm]
  rfl

theorem State.keepLanded_nil (s : State) (space off : Nat) (bs : List Byte) : s.keepLanded [] space off bs = bs := rfl

theorem State.landRest_nil (s : State) (c : Nat) (ds : List (Nat × List Byte)) : s.landRest c [] ds = s.landPieces c ds := by
  unfold State.landRest
  simp only [State.keepLanded_nil, Prod.mk.eta, List.map_id']

end

/-! ### The signal of a PUT.SIG (R91) -/

/-- A signal to an owned hub tumbler of this module. -/
theorem State.signalHere_hub {s : State} {c : CoreId} {id n : Nat} {e x : Entry} {td : TileWord} {ra rb rc a : Word} {cls hint scope : Nat} {log : Bool}
    (entry : (s.core c.val).entry? id = some x) (op : x.op = .putSig td ra rb a cls hint scope log) (named : tumOfOff (gOff rc) = some (.inl n))
    (owned : (s.hubAlloc n).isSome = true) (room : (s.hubGet n).toNat + e.inc < 2 ^ 32) :
    s.signalHere c.val id e rc = ((s.hubSet n (BitVec.ofInt 32 ((s.hubGet n).toNat + e.inc))).hubWake n).completed c id 0 := by
  have sum : tumAdd (s.hubGet n) (e.inc : Int) = (BitVec.ofInt 32 ((s.hubGet n).toNat + e.inc), 0) := tumAdd_exact (by omega) (by omega)
  have found : ((s.hubDone n (BitVec.ofInt 32 ((s.hubGet n).toNat + e.inc))).core c.val).entry? id = some x := entry
  unfold State.signalHere State.tumLocal State.tumReach State.hubApply
  simp only [named, owned, if_true, TumOp.run, sum]
  change (if (match ((s.hubDone n (BitVec.ofInt 32 ((s.hubGet n).toNat + e.inc))).core c.val).entry? id with
    | some e => (match e.op with | .putSig .. => true | _ => false) | none => false) = true then _ else _) = _
  rw [found]
  dsimp only
  rw [if_pos (by rw [op])]
  rfl

section
variable {s : State} {c : CoreId} {id : Nat} {e : Entry} {td : TileWord} {ra rb rc : Word} {cls hint scope : Nat} {log : Bool}

/-- What a PUT.SIG within the module does once it need not wait and has met no bad word. -/
theorem State.runPutSig_here (pre : s.preCheck (Tile.of td) ra rb = none) (here : s.isHere ra = true) (sig : s.sigOk ra rc = true)
    (goes : s.farWaits c.val (Tile.of td) ra rb = false) (logs : s.mirrorWaits c.val (Tile.of td) log = false)
    (good : (s.core c.val).badIn (Tile.of td).ranges = none) {p : Bad × State}
    (put : s.putHere [] c.val e (Tile.of td) ra rb rc cls hint e.inc log = p) (clean : p.1 = .none) :
    s.runPutSig [] c.val id e td ra rb rc cls hint scope log = if (scope == 0 || (s.core c.val).released id) = true then p.2.signalHere c.val id e rc
      else p.2.modEntry c.val id (fun e => { e with phase := .waiting, left := 1, sigDue := some 0 }) := by
  unfold State.runPutSig
  simp only [pre, here, sig, goes, logs, good, put, clean, Bad.isBad, if_true, Bool.or_self, Bool.not_true, Bool.false_and, Bool.false_eq_true, if_false]

/-- A withheld signal within the module whose release is met goes. -/
theorem exec_putSig_due {r : Nat} (entry : (s.core c.val).entry? id = some e) (op : e.op = .putSig td ra rb rc cls hint scope log) (due : e.sigDue = some r)
    (here : s.isHere ra = true) (alive : s.failed = false) (released : (s.core c.val).released id = true) (link : s.linkOpen (c.val / 12) = true) :
    exec (.putSig c (.run id [])) s
      = .next ((s.modEntry c.val id (fun e => { e with sigDue := none, sent := true })).signalHere c.val id e rc) := by
  have run : exec (.putSig c (.run id [])) s = execPutSig c (.run id []) s := rfl
  rw [run, execPutSig]
  rw [entry, Option.bind_some, due]
  dsimp only [Option.map_some]
  refine congrArg Host.Outcome.next ?_
  unfold State.runSigDue
  rw [op]
  simp only [alive, released, link, Bool.not_true, Bool.or_self, Bool.false_eq_true, if_false]
  exact if_pos here

theorem exec_putSig_held {r : Nat} (entry : (s.core c.val).entry? id = some e) (op : e.op = .putSig td ra rb rc cls hint scope log) (due : e.sigDue = some r)
    (held : (s.core c.val).released id = false) : exec (.putSig c (.run id [])) s = .next s := by
  have run : exec (.putSig c (.run id [])) s = execPutSig c (.run id []) s := rfl
  rw [run, execPutSig]
  rw [entry, Option.bind_some, due]
  dsimp only [Option.map_some]
  refine congrArg Host.Outcome.next ?_
  unfold State.runSigDue
  rw [op]
  simp only [held, Bool.not_false, Bool.or_true, Bool.true_or, if_true]

/-- A PUT.SIG with no signal due is run by its engine. -/
theorem exec_putSig_run (r : s.Runs c id e) (fresh : e.sigDue = none) :
    exec (.putSig c (.run id [])) s = .next (s.runEntry c.val id [] (fun s e => match e.op with
      | .putSig td ra rb rc cls hint scope log => s.runPutSig [] c.val id e td ra rb rc cls hint scope log
      | _ => s)) := by
  have run : exec (.putSig c (.run id [])) s = execPutSig c (.run id []) s := rfl
  rw [run, execPutSig]
  rw [r.entry, Option.bind_some, fresh]
  rfl

end

/-- Settles O20: the run of each transfer by what it finds, with HM's accesses as bytes. -/
theorem localTransfersMoveTiles : Obligations.LocalTransfersMoveTiles := by
  unfold Obligations.LocalTransfersMoveTiles
  refine ⟨fun c id e td ra rb cls hint log s r => ?plain, fun c id n e td ra rb rc cls hint scope log s op named here => ?signal⟩
  case plain =>
    intro t ps rs k get put done ecc g p pre here
    have getRun : exec (.get c (.run id [])) s = .next (s.runEntry c.val id [] (fun s e => match e.op with
      | .get td ra rb cls hint => s.runGet [] c.val id e td ra rb cls hint
      | _ => s)) := rfl
    have putRun : exec (.put c (.run id [])) s = .next (s.runEntry c.val id [] (fun s e => match e.op with
      | .put td ra rb cls hint log => s.runPut [] c.val id e td ra rb cls hint log
      | _ => s)) := rfl
    have getDone (isGet : get) {u : State} (effect : s.runGet [] c.val id e td ra rb cls hint = u.completed c id 0) :
        exec (.get c (.run id [])) s = done u := r.completes r.id_eq getRun (by rw [isGet]; exact effect)
    have putDone (isPut : put) {u : State} (effect : s.runPut [] c.val id e td ra rb cls hint log = u.completed c id 0) :
        exec (.put c (.run id [])) s = done u := r.completes r.id_eq putRun (by rw [isPut]; exact effect)
    have getEcc (isGet : get) {u : State} {o : Nat} (effect : s.runGet [] c.val id e td ra rb cls hint = u.finishEcc c.val id (gSpace ra) o) :
        exec (.get c (.run id [])) s = ecc u o :=
      r.takesOn getRun (by rw [isGet]; exact effect) (fun _ => rfl) (fun y => by intro h; cases h)
    have putEcc (isPut : put) {u : State} {o : Nat} (effect : s.runPut [] c.val id e td ra rb cls hint log = u.finishEcc c.val id (gSpace ra) o) :
        exec (.put c (.run id [])) s = ecc u o :=
      r.takesOn putRun (by rw [isPut]; exact effect) (fun _ => rfl) (fun y => by intro h; cases h)
    refine ⟨fun hm isGet fresh good => ?_, fun hm isPut unlogged fresh good => ?_, fun isGet goes => ⟨fun clean => ?_, fun o bad => ?_⟩,
      fun isPut good goes logs => ⟨fun clean => ?_, fun o bad => ?_⟩, fun waits => ⟨fun isGet => ?_, fun isPut => ?_⟩, fun waits isPut => ?_,
      fun ds => s.landRest_nil c.val ds⟩
    · refine getDone isGet ?_
      rw [State.runGet_here pre here (s.farWaits_hm c.val t hm), s.crossTo_hm c.val hm, hm, s.readRuns_hm hint e.uses good, fresh]
      change (s.landRest c.val [] (rs.flatMap (runBytes s.hm))).completed c id 0 = _
      rw [State.landRest_nil, farRuns_bytes]
    · refine ⟨s.storeRuns k rs, ?_, rfl, (s.storeRuns_onlyHm k rs).eq, fun a outside => s.storeRuns_read k (fun x => farRuns_whole t _ _) outside⟩
      refine putDone isPut ?_
      rw [State.runPut_here pre here (s.farWaits_hm c.val t hm) (by rw [unlogged]; rfl) good, unlogged, State.putHere_hm hm fresh]
      rfl
    · refine getDone isGet ?_
      have clean : g.2.1 = .none := clean
      rw [State.runGet_here pre here goes]
      change (if g.2.1.isBad = true then g.2.2 else g.2.2.landRest c.val e.landed g.1).finishMem c.val id (gSpace ra) g.2.1 = _
      rw [clean]
      rfl
    · refine getEcc isGet ?_
      rw [State.runGet_here pre here goes]
      change (if g.2.1.isBad = true then g.2.2 else g.2.2.landRest c.val e.landed g.1).finishMem c.val id (gSpace ra) g.2.1 = _
      rcases bad with bad | bad <;> · rw [bad]; rfl
    · refine putDone isPut ?_
      rw [State.runPut_here pre here goes logs good]
      change p.2.finishMem c.val id (gSpace ra) p.1 = _
      rw [clean]
      rfl
    · refine putEcc isPut ?_
      rw [State.runPut_here pre here goes logs good]
      change p.2.finishMem c.val id (gSpace ra) p.1 = _
      rcases bad with bad | bad <;> · rw [bad]; rfl
    · exact r.stays getRun (by rw [isGet]; exact State.runGet_waits pre here waits)
    · exact r.stays putRun (by rw [isPut]; exact State.runPut_waits pre (.inl waits))
    · exact r.stays putRun (by rw [isPut]; exact State.runPut_waits pre (.inr waits))
  case signal =>
    intro t rs p free signalled
    refine ⟨fun r fresh pre sig good goes logs clean entry => ?_, fun hm unlogged fresh => ?_, fun ref entry due alive released link owned room => ?_,
      fun ref entry due held => exec_putSig_held entry op due held⟩
    · have put := exec_putSig_run r fresh
      have effect := State.runPutSig_here (id := id) (cls := cls) (hint := hint) (scope := scope) pre here sig goes logs good (p := p) rfl clean
      refine ⟨fun met owned room => r.completes r.id_eq put ?_, fun unmet => r.takesOn put ?_ (fun _ => rfl) (fun y => by intro h; cases h)⟩
      · rw [op]
        refine effect.trans ?_
        rw [if_pos met]
        exact State.signalHere_hub entry op named owned room
      · rw [op]
        refine effect.trans ?_
        exact if_neg (Bool.eq_false_iff.mp unmet)
    · exact (congrArg (s.putHere [] c.val e t ra rb rc cls hint e.inc) unlogged).trans (State.putHere_hm hm fresh t)
    · rw [exec_putSig_due entry op due here alive released link]
      have changed := s.modEntry_entry c id (g := fun e : Entry => { e with sigDue := none, sent := true }) (fun _ => rfl)
      rw [entry] at changed
      exact congrArg Host.Outcome.next (State.signalHere_hub changed op named owned room)

end Sys2Proof.Machine
end

section
/-! Transfers to other modules, and transfers that the checks refuse (R49, R74, R88-R90, R95, R98, R275-R277, R282, R340, R418). -/

namespace Sys2Proof.Machine

/-! ### What a request changes (R282, R418) -/

/-- The state `t` after requests outside C0. -/
def State.withSent (s t : State) : State := { s with held := t.held, txns := t.txns, nextTag := t.nextTag, winUse := t.winUse }

structure State.OnlySent (s t : State) : Prop where
  eq : t = s.withSent t

theorem State.OnlySent.refl (s : State) : s.OnlySent s := ⟨rfl⟩

theorem State.OnlySent.trans {s t u : State} (a : s.OnlySent t) (b : t.OnlySent u) : s.OnlySent u := by
  have step := congrArg (fun x => State.withSent x u) a.eq
  exact ⟨b.eq.trans step⟩

theorem State.onlySent_lit (s : State) (held : List Held) (txns : List Txn) (nextTag : Nat) (winUse : Tab Nat) :
    s.OnlySent { s with held := held, txns := txns, nextTag := nextTag, winUse := winUse } := ⟨rfl⟩

theorem State.OnlySent.cores {s t : State} (h : s.OnlySent t) : t.cores = s.cores := (congrArg State.cores h.eq :)
theorem State.OnlySent.tasks {s t : State} (h : s.OnlySent t) : t.tasks = s.tasks := (congrArg State.tasks h.eq :)
theorem State.OnlySent.regs {s t : State} (h : s.OnlySent t) : t.regs = s.regs := (congrArg State.regs h.eq :)
theorem State.OnlySent.straps {s t : State} (h : s.OnlySent t) : t.straps = s.straps := (congrArg State.straps h.eq :)

theorem State.requestFrom_onlySent (s : State) (source : List (Nat × Nat)) (c id : Nat) {p : Packet} (dest : List (Nat × Nat)) (pre : Option Nat)
    (mc : List Nat) (notC0 : p.cls.val ≠ 0) : s.OnlySent (s.requestFrom source c id p dest pre mc) := by
  unfold State.requestFrom
  dsimp only
  refine iteInduction (motive := s.OnlySent) (fun _ => s.onlySent_lit ..) (fun _ => ?_)
  rw [if_neg notC0]
  exact s.onlySent_lit ..

/-- The entry of a request that has left. -/
structure Txn.Sent (x : Txn) : Prop where
  kept : x.spent = false

/-- The state after a request outside C0 that its window and the table allow. -/
def State.requested (s : State) (p : Packet) (x : Txn) : State :=
  { s with
    held := s.held ++ [{ pkt := { p with tag := x.tag }, arrived := none, buf := 0, due := 0, started := false }],
    txns := s.purgeTxns.txns ++ [x], nextTag := (x.tag + 1) % 32768,
    winUse := Tab.set s.winUse 0 p.dst (s.charged p.dst + chargeOf p) }

/-- The bytes that one destination's window has room for, or packets that charge nothing (R282). -/
def State.Admits (s : State) (p : Packet) : Prop := chargeOf p = 0 ∨ s.charged p.dst + chargeOf p ≤ s.rd Reg.LK_WINDOW_WINDOW_KIB * 1024

theorem State.requestFrom_leaves (s : State) (source : List (Nat × Nat)) (c id : Nat) {p : Packet} (dest : List (Nat × Nat)) (pre : Option Nat)
    (mc : List Nat) (notC0 : p.cls.val ≠ 0) (plain : carriesOpid p = false) (window : s.Admits p) (room : s.purgeTxns.txns.length < 32768) :
    ∃ x : Txn, x.Sent ∧ s.requestFrom source c id p dest pre mc = s.requested p x := by
  have open_ (tag : Nat) : s.purgeTxns.windowOpen { p with tag := tag } = true := by
    have plain : carriesOpid { p with tag := tag } = false := plain
    unfold State.windowOpen
    rw [plain, Bool.not_false, Bool.true_or, Bool.and_true, Bool.or_eq_true, beq_iff_eq, decide_eq_true_eq]
    exact window
  unfold State.requestFrom
  dsimp only
  rw [open_, decide_eq_true room, if_neg (by decide), if_neg notC0]
  exact ⟨_, ⟨rfl⟩, rfl⟩

theorem State.requested_onlySent (s : State) (p : Packet) (x : Txn) : s.OnlySent (s.requested p x) := s.onlySent_lit ..

/-- An entry that has just been taken is not purged. -/
theorem State.requested_purge (s : State) {p : Packet} {x : Txn} (sent : x.Sent) :
    (s.requested p x).purgeTxns.txns = s.purgeTxns.txns ++ [x] := by
  have kept : (!(x.spent && decide (x.first + State.copyLife ≤ s.clock))) = true := by rw [sent.kept]; rfl
  change (s.purgeTxns.txns ++ [x]).filter (fun x => !(x.spent && decide (x.first + State.copyLife ≤ s.clock))) = _
  rw [List.filter_append, List.filter_singleton, kept]
  change (s.txns.filter (fun x => !(x.spent && decide (x.first + State.copyLife ≤ s.clock)))).filter _ ++ [x] = _
  rw [List.filter_filter]
  simp only [Bool.and_self]
  rfl

theorem State.requested_charged (s : State) (p : Packet) (x : Txn) : (s.requested p x).charged p.dst = s.charged p.dst + chargeOf p :=
  Tab.get_set_same s.winUse 0 _ _

/-! ### The requests of one instruction -/

/-- Request packets of one instruction, each with the SP ranges that its payload comes from and those that its reply fills. -/
def State.sendMany (s : State) (c id : Nat) (mc : List Nat) (l : List (Packet × List (Nat × Nat) × List (Nat × Nat))) : State :=
  l.foldl (fun s x => s.requestFrom x.2.1 c id x.1 x.2.2 none mc) s

/-- Packets that may all leave now. -/
structure State.AdmitsAll (s : State) (ps : List Packet) : Prop where
  notC0  : ∀ p ∈ ps, p.cls.val ≠ 0
  plain  : ∀ p ∈ ps, carriesOpid p = false
  room   : s.purgeTxns.txns.length + ps.length ≤ 32768
  window : (ps.map chargeOf).sum = 0 ∨ ∃ d, (∀ p ∈ ps, p.dst = d) ∧ s.charged d + (ps.map chargeOf).sum ≤ s.rd Reg.LK_WINDOW_WINDOW_KIB * 1024

/-- Packets have left: each is held by the router under a tag of its own and has its entry in the table. -/
structure State.Left (s t : State) (ps : List Packet) : Prop where
  only : s.OnlySent t
  held : ∃ qs : List Packet, qs.map (fun q => { q with tag := 0 }) = ps.map (fun q => { q with tag := 0 })
    ∧ t.held = s.held ++ qs.map (fun q => { pkt := q, arrived := none, buf := 0, due := 0, started := false })
  txns : t.purgeTxns.txns.length = s.purgeTxns.txns.length + ps.length
  pure : ps ≠ [] → t.txns = t.purgeTxns.txns

theorem State.AdmitsAll.first {s : State} {p : Packet} {ps : List Packet} (a : s.AdmitsAll (p :: ps)) : s.Admits p := by
  rcases a.window with none | ⟨d, same, fits⟩
  · exact .inl (Nat.eq_zero_of_add_eq_zero_right none)
  · rw [List.map_cons, List.sum_cons] at fits
    rw [← same p List.mem_cons_self] at fits
    exact .inr (by omega)

theorem State.AdmitsAll.rest {s : State} {p : Packet} {ps : List Packet} (a : s.AdmitsAll (p :: ps)) {x : Txn} (sent : x.Sent) :
    (s.requested p x).AdmitsAll ps := by
  refine ⟨fun q hq => a.notC0 q (List.mem_cons_of_mem _ hq), fun q hq => a.plain q (List.mem_cons_of_mem _ hq), ?_, ?_⟩
  · have room := a.room
    rw [State.requested_purge s sent]
    simp only [List.length_append, List.length_cons, List.length_nil] at room ⊢
    omega
  · rcases a.window with none | ⟨d, same, fits⟩
    · exact .inl (Nat.eq_zero_of_add_eq_zero_left none)
    · refine .inr ⟨d, fun q hq => same q (List.mem_cons_of_mem _ hq), ?_⟩
      obtain rfl := same p List.mem_cons_self
      rw [State.requested_charged]
      rw [List.map_cons, List.sum_cons, ← Nat.add_assoc] at fits
      exact fits

theorem State.sendMany_left {c id : Nat} {mc : List Nat} {l : List (Packet × List (Nat × Nat) × List (Nat × Nat))} {s : State}
    (a : s.AdmitsAll (l.map Prod.fst)) : s.Left (s.sendMany c id mc l) (l.map Prod.fst) := by
  induction l generalizing s with
  | nil => exact ⟨.refl s, ⟨[], rfl, (List.append_nil _).symm⟩, rfl, fun h => absurd rfl h⟩
  | cons y l ih =>
    rw [List.map_cons] at a ⊢
    have room : s.purgeTxns.txns.length < 32768 := by have := a.room; rw [List.length_cons] at this; omega
    obtain ⟨x, sent, step⟩ := s.requestFrom_leaves y.2.1 c id y.2.2 none mc (a.notC0 _ List.mem_cons_self) (a.plain _ List.mem_cons_self) a.first room
    have run : s.sendMany c id mc (y :: l) = (s.requested y.1 x).sendMany c id mc l := congrArg (fun t : State => t.sendMany c id mc l) step
    obtain ⟨only, ⟨qs, named, held⟩, txns, pure⟩ := ih (a.rest sent)
    rw [run]
    refine ⟨(s.requested_onlySent y.1 x).trans only, ⟨{ y.1 with tag := x.tag } :: qs, by rw [List.map_cons, List.map_cons, named], ?_⟩, ?_, fun _ => ?_⟩
    · rw [held]
      exact List.append_assoc s.held _ _
    · rw [txns, State.requested_purge s sent, List.length_append, List.length_singleton, List.length_cons]
      omega
    · cases l with
      | nil => exact (State.requested_purge s sent).symm
      | cons z l => exact pure (List.cons_ne_nil _ _)

/-- The state `t` after an instruction of one core has sent its requests over its leaf's link. -/
def State.withLeft (s t : State) : State :=
  { s with held := t.held, txns := t.txns, nextTag := t.nextTag, winUse := t.winUse, cores := t.cores, leaves := t.leaves }

structure State.OnlyLeft (s t : State) : Prop where
  eq : t = s.withLeft t

theorem State.OnlyLeft.trans {s t u : State} (a : s.OnlyLeft t) (b : t.OnlyLeft u) : s.OnlyLeft u := by
  have step := congrArg (fun x => State.withLeft x u) a.eq
  exact ⟨b.eq.trans step⟩

theorem State.onlyLeft_lit (s : State) (held : List Held) (txns : List Txn) (nextTag : Nat) (winUse : Tab Nat) (cores : Vector Core 48)
    (leaves : Vector Leaf 4) :
    s.OnlyLeft { s with held := held, txns := txns, nextTag := nextTag, winUse := winUse, cores := cores, leaves := leaves } := ⟨rfl⟩

theorem State.OnlySent.onlyLeft {s t : State} (h : s.OnlySent t) : s.OnlyLeft t := by
  have lit : s.OnlyLeft (s.withSent t) := s.onlyLeft_lit ..
  rwa [← h.eq] at lit

theorem State.modEntry_onlyLeft (s : State) (c id : Nat) (g : Entry → Entry) : s.OnlyLeft (s.modEntry c id g) := s.onlyLeft_lit ..

theorem State.crossLink_onlyLeft (s : State) (l : Nat) : s.OnlyLeft (s.crossLink l) := s.onlyLeft_lit ..

/-- An instruction whose packets leave waits for its replies, over its leaf's link where it crosses it (R282, R340, R418). -/
theorem State.Runs.sends {s : State} {c : CoreId} {id : Nat} {e : Entry} {i : Instr} (r : s.Runs c id e) {f : State → Entry → State}
    (run : exec i s = .next (s.runEntry c.val id [] f)) {mc : List Nat} {l : List (Packet × List (Nat × Nat) × List (Nat × Nat))} {ps : List Packet}
    (effect : f s e = (s.await c.val id ps.length true).sendMany c.val id mc l) (hl : l.map Prod.fst = ps) (some_ : ps ≠ [])
    (untagged : ∀ p ∈ ps, { p with tag := 0 } = p) (admits : (s.await c.val id ps.length true).AdmitsAll ps) :
    ∃ u : State, exec i s = .next u
      ∧ (∃ qs : List Packet, qs.map (fun q => { q with tag := 0 }) = ps
        ∧ u.held = s.held ++ qs.map (fun q => { pkt := q, arrived := none, buf := 0, due := 0, started := false }))
      ∧ u.txns.length = s.purgeTxns.txns.length + ps.length
      ∧ (u.core c.val).entry? id = some { e with phase := .waiting, left := ps.length, sent := true }
      ∧ u = { s with held := u.held, txns := u.txns, nextTag := u.nextTag, winUse := u.winUse, cores := u.cores, leaves := u.leaves } := by
  obtain ⟨only, ⟨qs, named, held⟩, txns, pure⟩ := State.sendMany_left (c := c.val) (id := id) (mc := mc) (l := l) (by rw [hl]; exact admits)
  rw [hl] at named txns pure
  have entry : (((s.await c.val id ps.length true).sendMany c.val id mc l).core c.val).entry? id
      = some { e with phase := .waiting, left := ps.length, sent := true } := by
    rw [State.core_congr only.cores, State.await, State.modEntry_entry _ _ _ (g := fun e => { e with phase := .waiting, left := ps.length, sent := e.sent || true }) (fun _ => rfl), r.entry, Option.map_some, Bool.or_true]
  have tags : ps.map (fun q => { q with tag := 0 }) = ps := (List.map_congr_left untagged).trans (List.map_id' ps)
  have left := (s.modEntry_onlyLeft c.val id _).trans only.onlyLeft
  obtain ⟨t, ht⟩ : ∃ t, t = (s.await c.val id ps.length true).sendMany c.val id mc l := ⟨_, rfl⟩
  have crosses : exec i s = .next (s.crossed c e.op t) := by
    rw [run, r.run_crossing f, effect, ht]
    intro x found
    rw [effect, r.id_eq, entry] at found
    cases found
    exact fun h => by cases h
  rw [← ht] at held txns pure entry left
  have count : t.txns.length = s.purgeTxns.txns.length + ps.length := by rw [pure some_]; exact txns
  refine ⟨_, crosses, ?_⟩
  unfold State.crossed
  cases s.crosses c.val e.op with
  | false => exact ⟨⟨qs, named.trans tags, held⟩, count, entry, left.eq⟩
  | true => exact ⟨⟨qs, named.trans tags, held⟩, count, entry, (left.trans (t.crossLink_onlyLeft _)).eq⟩

/-! ### The packets of a transfer (R275-R277) -/

theorem joinStep_ne_nil (joins : Nat → Nat → Bool) (r : List (Nat × Nat × List (Nat × Nat))) (p : Nat × Nat × Nat) : joinStep joins r p ≠ [] := by
  unfold joinStep
  split
  · split <;> exact List.cons_ne_nil _ _
  · exact List.cons_ne_nil _ _

theorem joinPieces_ne_nil (joins : Nat → Nat → Bool) {ps : List (Nat × Nat × Nat)} (some_ : ps ≠ []) : joinPieces joins ps ≠ [] := by
  rw [joinPieces_eq, ne_eq, List.reverse_eq_nil_iff]
  obtain ⟨qs, q, rfl⟩ := List.eq_nil_or_concat ps |>.resolve_left some_
  rw [List.concat_eq_append, List.foldl_append]
  exact joinStep_ne_nil _ _ _

theorem Fmt.bits_pos (f : Nat) : 2 ≤ Fmt.bits f := by
  unfold Fmt.bits
  split <;> decide

theorem Fmt.bits_of_plain {f : Nat} (plain : Fmt.block f = false) : 8 ≤ Fmt.bits f := by
  unfold Fmt.bits
  split <;> simp_all [Fmt.block]

/-- A tile has a row, and its rows have bytes (R49). -/
theorem Tile.of_sizes (w : TileWord) : 0 < (Tile.of w).rows ∧ 0 < (Tile.of w).rowLen := by
  refine ⟨Nat.lt_of_lt_of_le Nat.one_pos (Nat.le_max_right _ 1), ?_⟩
  have bits := Fmt.bits_pos (Tile.raw w).fmt
  unfold Tile.of Tile.clamp Tile.rowLen
  dsimp only
  cases kind : Fmt.block (Tile.raw w).fmt with
  | true =>
    rw [if_pos rfl, if_pos rfl, blockLen]
    exact Nat.mul_pos (Nat.div_pos (Nat.le_max_right _ _) (by decide)) (by omega)
  | false =>
    have wide := Fmt.bits_of_plain kind
    rw [if_neg (by decide), if_neg (by decide), rowBytes]
    exact Nat.mul_pos (Nat.lt_of_lt_of_le Nat.one_pos (Nat.le_max_right _ 1)) (by omega)

theorem cutPiece_ne_nil (a b : Nat) {n : Nat} (some_ : 0 < n) : cutPiece a b n ≠ [] := by
  rw [cutPiece, ne_eq, List.map_eq_nil_iff, List.range_eq_nil]
  omega

theorem farPackets_ne_nil (w : TileWord) (off : Nat) (rb : Word) : farPackets (Tile.of w) off rb ≠ [] := by
  obtain ⟨rows, len⟩ := Tile.of_sizes w
  refine joinPieces_ne_nil _ ?_
  unfold farPieces
  split
  · exact List.append_ne_nil_of_left_ne_nil (cutPiece_ne_nil _ _ (Nat.mul_pos rows len)) _
  · obtain ⟨n, hn⟩ := Nat.exists_eq_add_of_lt rows
    rw [hn, Nat.zero_add, List.range_succ_eq_map, List.map_cons, List.flatMap_cons]
    exact List.append_ne_nil_of_left_ne_nil (cutPiece_ne_nil _ _ len) _

theorem chargeOf_eq_zero {p : Packet} (mc : p.typ.val = PT.putMc ∨ p.typ.val = PT.putMcData) : chargeOf p = 0 := by
  unfold chargeOf
  rcases mc with h | h <;> rw [h] <;> rfl

theorem pclass_ne_zero {cls : Nat} (h : cls = 1 ∨ cls = 2 ∨ cls = 3) : (pclass cls).val ≠ 0 := by
  rcases h with rfl | rfl | rfl <;> decide

/-! ### The packets of each transfer -/

theorem State.modNum_congr {s t : State} (regs : t.regs = s.regs) (straps : t.straps = s.straps) : t.modNum = s.modNum := by
  unfold State.modNum State.posW State.posX State.posY State.posZ
  simp only [State.rd_congr s t _ regs, straps]

theorem State.coreJob_congr {s t : State} (c : Nat) (tasks : t.tasks = s.tasks) (task : (t.core c).task = (s.core c).task) : t.coreJob c = s.coreJob c := by
  unfold State.coreJob State.task?
  rw [task, tasks]

theorem State.ctl_congr {s t : State} (same : t.modNum = s.modNum) (typ cls dst job space off : Nat) (payload : List Byte) :
    t.ctl typ cls dst job space off payload = s.ctl typ cls dst job space off payload := by
  unfold State.ctl
  rw [same]

/-- The requests of a GET from another module, as they leave one after another. -/
theorem State.getOut_eq (s : State) (c : CoreId) (id : Nat) (ra : Word) {cls : Nat} (notC0 : (pclass cls).val ≠ 0)
    (ps : List (Nat × Nat × List (Nat × Nat))) :
    s.getOut c.val id ra cls ps = (s.await c.val id ps.length true).sendMany c.val id []
      (ps.map (fun x => (s.ctl PT.get cls (gMod ra) (s.coreJob c.val) (gSpace ra) x.1 (leBytes 2 x.2.1), [], x.2.2))) := by
  have all (l : List (Nat × Nat × List (Nat × Nat))) (t : State) (num : t.modNum = s.modNum) (job : t.coreJob c.val = s.coreJob c.val) :
      l.foldl (fun t x => t.request c.val id
        (t.ctl PT.get cls (gMod ra) (t.coreJob c.val) (gSpace ra) x.1 (leBytes 2 x.2.1)) x.2.2 none []) t
      = t.sendMany c.val id [] (l.map (fun x => (s.ctl PT.get cls (gMod ra) (s.coreJob c.val) (gSpace ra) x.1 (leBytes 2 x.2.1), [], x.2.2))) := by
    induction l generalizing t with
    | nil => rfl
    | cons x l ih =>
      rw [List.foldl_cons, job, State.ctl_congr num]
      have only := t.requestFrom_onlySent [] c.val id (p := s.ctl PT.get cls (gMod ra) (s.coreJob c.val) (gSpace ra) x.1 (leBytes 2 x.2.1))
        x.2.2 none [] notC0
      refine ih _ ((State.modNum_congr only.regs only.straps).trans num) ((State.coreJob_congr _ only.tasks ?_).trans job)
      exact congrArg Core.task (State.core_congr only.cores c.val)
  refine all ps _ rfl (State.coreJob_congr _ rfl ?_)
  rw [State.await, State.modEntry, State.core_modCore _ _ _ c.isLt]
  rfl

/-- Packets of one class other than C0 leave, one for each part of a tile, under their window. -/
theorem State.Runs.sendsEach {s : State} {c : CoreId} {id cls : Nat} {e : Entry} {i : Instr} (r : s.Runs c id e) {f : State → Entry → State}
    (run : exec i s = .next (s.runEntry c.val id [] f)) {mc : List Nat} {far : List (Nat × Nat × List (Nat × Nat))}
    {pkt : Nat × Nat × List (Nat × Nat) → Packet} {src dest : Nat × Nat × List (Nat × Nat) → List (Nat × Nat)}
    (effect : f s e = (s.await c.val id far.length true).sendMany c.val id mc (far.map (fun x => (pkt x, src x, dest x)))) (some_ : far ≠ [])
    (class_ : cls = 1 ∨ cls = 2 ∨ cls = 3) (kind : ∀ x, (pkt x).cls = pclass cls ∧ (pkt x).tag = 0 ∧ carriesOpid (pkt x) = false)
    (room : s.purgeTxns.txns.length + (far.map pkt).length ≤ 32768)
    (window : ((far.map pkt).map chargeOf).sum = 0
      ∨ ∃ d, (∀ x, (pkt x).dst = d) ∧ s.charged d + ((far.map pkt).map chargeOf).sum ≤ s.rd Reg.LK_WINDOW_WINDOW_KIB * 1024) :
    ∃ u : State, exec i s = .next u
      ∧ (∃ qs : List Packet, qs.map (fun q => { q with tag := 0 }) = far.map pkt
        ∧ u.held = s.held ++ qs.map (fun q => { pkt := q, arrived := none, buf := 0, due := 0, started := false }))
      ∧ u.txns.length = s.purgeTxns.txns.length + (far.map pkt).length
      ∧ (u.core c.val).entry? id = some { e with phase := .waiting, left := (far.map pkt).length, sent := true }
      ∧ u = { s with held := u.held, txns := u.txns, nextTag := u.nextTag, winUse := u.winUse, cores := u.cores, leaves := u.leaves } := by
  have each {P : Packet → Prop} (h : ∀ x, P (pkt x)) : ∀ p ∈ far.map pkt, P p := by
    intro p mem
    obtain ⟨x, _, rfl⟩ := List.mem_map.mp mem
    exact h x
  have untagged {p : Packet} (zero : p.tag = 0) : { p with tag := 0 } = p := by cases p; cases zero; rfl
  refine r.sends run (by rw [List.length_map]; exact effect) (by rw [List.map_map]; rfl) (fun h => some_ (List.map_eq_nil_iff.mp h))
    (each fun x => untagged (kind x).2.1) ⟨each fun x => ?_, each fun x => (kind x).2.2, room, window.imp_right fun ⟨d, same, fits⟩ => ⟨d, each same, fits⟩⟩
  rw [(kind x).1]
  rcases class_ with rfl | rfl | rfl <;> decide

theorem sum_chargeOf_zero {ps : List Packet} (none : ∀ p ∈ ps, chargeOf p = 0) : (ps.map chargeOf).sum = 0 :=
  List.sum_eq_zero fun n mem => by
    obtain ⟨p, hp, rfl⟩ := List.mem_map.mp mem
    exact none p hp

theorem State.dataPkt_cls (s : State) (typ dst job space off : Nat) {cls : Nat} (bs : List Byte) (class_ : cls = 1 ∨ cls = 2 ∨ cls = 3) :
    (s.dataPkt typ cls dst job space off bs).cls = pclass cls := by
  rcases class_ with rfl | rfl | rfl <;> rfl

section
variable {s : State} {c : CoreId} {id : Nat} {e : Entry} {td : TileWord} {ra rb rc rd : Word} {cls hint scope : Nat} {log : Bool}

/-- What the checks of a transfer end it with (R49, R74, R88, R98). -/
theorem State.Runs.refused {i : Instr} (r : s.Runs c id e) {f : State → Entry → State} (run : exec i s = .next (s.runEntry c.val id [] f))
    {b : TileBad ⊕ Nat} (effect : f s e = s.finishPre c.val id e b) :
    (b = .inl .range → exec i s = .next (s.crossed c e.op (s.completed c id Status.addrRange)))
      ∧ (∀ st, b = .inr st → exec i s = .next (s.crossed c e.op (s.completed c id st)))
      ∧ (b = .inl .undefined → exec i s = .next (s.crossed c e.op (s.modEntry c.val id
        (fun x => { x with phase := .done Status.addrRange, cause := 0x0101, addr := 0, info := e.word })))) := by
  refine ⟨?_, ?_, ?_⟩
  · rintro rfl
    exact r.completes r.id_eq run effect
  · rintro st rfl
    exact r.completes r.id_eq run effect
  · rintro rfl
    exact r.takesOn run effect (fun _ => rfl) (fun y => by intro h; cases h)

theorem State.runGet_refused {b : TileBad ⊕ Nat} (bad : s.preCheck (Tile.of td) ra rb = some b) :
    s.runGet [] c.val id e td ra rb cls hint = s.finishPre c.val id e b := by
  unfold State.runGet
  simp only [bad]

theorem State.runPut_refused {b : TileBad ⊕ Nat} (bad : s.preCheck (Tile.of td) ra rb = some b) :
    s.runPut [] c.val id e td ra rb cls hint log = s.finishPre c.val id e b := by
  unfold State.runPut
  simp only [bad]

theorem State.runPutSig_refused {b : TileBad ⊕ Nat} (bad : s.preCheck (Tile.of td) ra rb = some b) :
    s.runPutSig [] c.val id e td ra rb rc cls hint scope log = s.finishPre c.val id e b := by
  unfold State.runPutSig
  simp only [bad]

/-- A PUT.SIG whose signal names no tumbler of the data's module (R91). -/
theorem State.runPutSig_noTumbler (pre : s.preCheck (Tile.of td) ra rb = none) (bad : s.sigOk ra rc = false) :
    s.runPutSig [] c.val id e td ra rb rc cls hint scope log = s.finishRange c.val id := by
  unfold State.runPutSig
  simp only [pre, bad, Bool.not_false, if_true]

/-- A PUT whose source tile holds an uncorrectable word (R422). -/
theorem State.runPut_bad {w : Nat} (pre : s.preCheck (Tile.of td) ra rb = none) (goes : s.farWaits c.val (Tile.of td) ra rb = false)
    (logs : s.mirrorWaits c.val (Tile.of td) log = false) (bad : (s.core c.val).badIn (Tile.of td).ranges = some w) :
    s.runPut [] c.val id e td ra rb cls hint log = s.finishEcc c.val id 2 w := by
  unfold State.runPut
  simp only [pre, goes, logs, bad, Bool.or_self, Bool.false_eq_true, if_false]

/-- The run of a GET from another module. -/
theorem State.runGet_far (pre : s.preCheck (Tile.of td) ra rb = none) (away : s.isHere ra = false) :
    s.runGet [] c.val id e td ra rb cls hint = s.getOut c.val id ra cls (farPackets (Tile.of td) (gOff ra) rb) := by
  unfold State.runGet
  simp only [pre, away, Bool.false_eq_true, if_false]

theorem State.farWaits_away (t : Tile) (away : s.isHere ra = false) : s.farWaits c.val t ra rb = false := by
  rw [State.farWaits, away, Bool.false_and]

/-- The run of a PUT to another module whose send log is off. -/
theorem State.runPut_far (pre : s.preCheck (Tile.of td) ra rb = none) (away : s.isHere ra = false) (off : log = true → s.slogOn c.val = false)
    (good : (s.core c.val).badIn (Tile.of td).ranges = none) :
    s.runPut [] c.val id e td ra rb cls hint log
      = (s.await c.val id (s.putPackets c.val (Tile.of td) ra rb cls).length true).sendAll c.val id
          ((s.putPackets c.val (Tile.of td) ra rb cls).zip (farSources (Tile.of td) (gOff ra) rb)) := by
  have quiet : (log && s.slogOn c.val) = false := by cases log with | false => rfl | true => exact off rfl
  have logs : s.mirrorWaits c.val (Tile.of td) log = false := by
    unfold State.mirrorWaits
    simp only [quiet, Bool.false_and]
  have unlogged (t : State) (same : t.slogOn c.val = s.slogOn c.val) : t.mirrorOut c.val id e log (Tile.of td) ra rb 0 cls 0 = t := by
    unfold State.mirrorOut State.mirror
    rw [same, quiet]
    rfl
  unfold State.runPut
  simp only [pre, s.farWaits_away (Tile.of td) away, logs, good, away, Bool.or_self, Bool.false_eq_true, if_false]
  rw [unlogged (s.await c.val id _ true) rfl]

/-- The packets of a tile, each with its place in SP, as they leave one after another. -/
theorem State.sendAll_eq (s : State) (c id : Nat) (far : List (Nat × Nat × List (Nat × Nat))) (pkt : Nat × Nat × List (Nat × Nat) → Packet) :
    s.sendAll c id ((far.map pkt).zip (far.map (fun x => x.2.2))) = s.sendMany c id [] (far.map (fun x => (pkt x, x.2.2, []))) := by
  rw [State.sendAll, State.sendMany, List.zip_map', List.foldl_map, List.foldl_map]

/-- The run of a PUT to another module, packet by packet. -/
theorem State.runPut_sends {pkt : Nat × Nat × List (Nat × Nat) → Packet} (pre : s.preCheck (Tile.of td) ra rb = none) (away : s.isHere ra = false)
    (off : log = true → s.slogOn c.val = false) (good : (s.core c.val).badIn (Tile.of td).ranges = none)
    (packets : s.putPackets c.val (Tile.of td) ra rb cls = (farPackets (Tile.of td) (gOff ra) rb).map pkt) :
    s.runPut [] c.val id e td ra rb cls hint log
      = (s.await c.val id (farPackets (Tile.of td) (gOff ra) rb).length true).sendMany c.val id []
          ((farPackets (Tile.of td) (gOff ra) rb).map (fun x => (pkt x, x.2.2, []))) := by
  rw [State.runPut_far pre away off good, packets, List.length_map]
  exact State.sendAll_eq _ _ _ _ _

theorem State.putPackets_data (long : 48 < (Tile.of td).packedLen) :
    s.putPackets c.val (Tile.of td) ra rb cls = (farPackets (Tile.of td) (gOff ra) rb).map
      (fun x => s.dataPkt PT.putData cls (gMod ra) (s.coreJob c.val) (gSpace ra) x.1 ((s.core c.val).gather x.2.2)) :=
  List.map_congr_left fun _ _ => if_neg (Nat.not_le.mpr long)

theorem State.putPackets_ctl (short : (Tile.of td).packedLen ≤ 48) :
    s.putPackets c.val (Tile.of td) ra rb cls = (farPackets (Tile.of td) (gOff ra) rb).map
      (fun x => s.ctl PT.put cls (gMod ra) (s.coreJob c.val) (gSpace ra) x.1 ((s.core c.val).gather x.2.2)) :=
  List.map_congr_left fun _ _ => if_pos short

/-- What a PUT.MC does once its checks are passed and it names a module (R95). -/
theorem State.runPutMc_sends {pkt : Nat × Nat × List (Nat × Nat) → Packet} (fine : (Tile.of td).check = none) (space : gSpace ra ≤ 2)
    (range : s.rangeOk (gSpace ra) (gOff ra) (Tile.of td).packedLen = true) (aligned : rd.toNat % 64 = 0) (inside : rd.toNat + 512 ≤ spSize)
    (good : (s.core c.val).badIn (Tile.of td).ranges = none) (named : ∃ d, maskNames { inRack := rb, racks := rc } d = true ∧ d < 4096)
    (packets : s.mcPackets c.val (Tile.of td) ra rb rc cls = (farPackets (Tile.of td) (gOff ra) 0).map pkt) :
    s.runPutMc c.val id e td ra rb rc rd cls
      = (s.await c.val id (farPackets (Tile.of td) (gOff ra) 0).length true).sendMany c.val id (maskMembers { inRack := rb, racks := rc })
          ((farPackets (Tile.of td) (gOff ra) 0).map (fun x => (pkt x, x.2.2, []))) := by
  have passed : (gSpace ra > 2 || !s.rangeOk (gSpace ra) (gOff ra) (Tile.of td).packedLen || rd.toNat % 64 != 0 || decide (rd.toNat + 512 > spSize)) = false := by
    simp [range, aligned, space, inside]
  have some_ : (maskMembers { inRack := rb, racks := rc }).isEmpty = false := by
    obtain ⟨d, names, small⟩ := named
    rw [List.isEmpty_eq_false_iff_exists_mem]
    exact ⟨d, List.mem_filter.mpr ⟨List.mem_range.mpr small, names⟩⟩
  unfold State.runPutMc
  simp only [fine, passed, good, some_, Bool.false_eq_true, if_false, packets, List.length_map]
  rw [State.sendMany, farSources, List.zip_map', List.foldl_map, List.foldl_map]

/-- A PUT.MC to no module writes its report and completes (R95). -/
theorem State.runPutMc_none (r : s.Runs c id e) (fine : (Tile.of td).check = none) (space : gSpace ra ≤ 2)
    (range : s.rangeOk (gSpace ra) (gOff ra) (Tile.of td).packedLen = true) (aligned : rd.toNat % 64 = 0) (inside : rd.toNat + 512 ≤ spSize)
    (good : (s.core c.val).badIn (Tile.of td).ranges = none) (none_ : ∀ d, d < 4096 → maskNames { inRack := rb, racks := rc } d = false)
    (fresh : e.bad = 0) (unmissed : e.missed = []) :
    s.runPutMc c.val id e td ra rb rc rd cls = (s.spWrite c.val rd.toNat (missReport [])).completed c id 0 := by
  have passed : (gSpace ra > 2 || !s.rangeOk (gSpace ra) (gOff ra) (Tile.of td).packedLen || rd.toNat % 64 != 0 || decide (rd.toNat + 512 > spSize)) = false := by
    simp [range, aligned, space, inside]
  have empty : (maskMembers { inRack := rb, racks := rc }).isEmpty = true := by
    rw [List.isEmpty_iff, maskMembers, List.filter_eq_nil_iff]
    intro d mem
    rw [none_ d (List.mem_range.mp mem)]
    decide
  unfold State.runPutMc
  simp only [fine, passed, good, empty, Bool.false_eq_true, if_false, if_true]
  unfold State.finishMc
  rw [r.entry]
  simp only [fresh, unmissed]
  rfl

end

/-- Settles O21: what the checks refuse moves nothing, and the packets of the others leave through the window and the table. -/
theorem farAndRefusedTransfers : Obligations.FarAndRefusedTransfers := by
  unfold Obligations.FarAndRefusedTransfers
  refine ⟨fun c id e td ra rb rc cls hint scope log s r => ?refused, fun c id e td ra rb rc rd cls hint log s r class_ => ?far⟩
  case refused =>
    intro t n pre ok ends record
    have pre_eq : pre = (match t.check with
      | some b => some (.inl b)
      | none => if !ok then some (.inl .range)
        else if s.isHere ra then (if s.gone (gSpace ra) (gOff ra) n then some (.inl .range) else none)
        else if s.padlocked (gMod ra) then some (.inr Status.padlocked) else none) := by
      simp only [pre, State.preCheck, ok, Bool.not_and]
      rfl
    have getRun : exec (.get c (.run id [])) s = .next (s.runEntry c.val id [] (fun s e => match e.op with
      | .get td ra rb cls hint => s.runGet [] c.val id e td ra rb cls hint
      | _ => s)) := rfl
    have putRun : exec (.put c (.run id [])) s = .next (s.runEntry c.val id [] (fun s e => match e.op with
      | .put td ra rb cls hint log => s.runPut [] c.val id e td ra rb cls hint log
      | _ => s)) := rfl
    refine ⟨fun b bad => ?_, fun fine bad => ?_, fun fine good away locked => ?_, fun fine good here gone => ?_, fun i which => ?_,
      fun op fresh clear bad => ?_, fun w op clear goes logs bad => ?_⟩
    · rw [pre_eq, bad]
    · rw [pre_eq, fine, bad]
      rfl
    · rw [pre_eq, fine, good, away, locked]
      rfl
    · rw [pre_eq, fine, good, here, gone]
      rfl
    · have ended (b : TileBad ⊕ Nat) (bad : pre = some b) :
          (b = .inl .range → exec i s = ends Status.addrRange) ∧ (∀ st, b = .inr st → exec i s = ends st)
            ∧ (b = .inl .undefined → exec i s = record Status.addrRange 0x0101 0 e.word) := by
        rcases which with ⟨op, rfl⟩ | ⟨op, rfl⟩ | ⟨op, rfl, fresh⟩
        · exact r.refused getRun (by rw [op]; exact State.runGet_refused bad)
        · exact r.refused putRun (by rw [op]; exact State.runPut_refused bad)
        · exact r.refused (exec_putSig_run r fresh) (by rw [op]; exact State.runPutSig_refused bad)
      exact ⟨fun bad => (ended _ bad).1 rfl, fun bad => (ended _ bad).2.1 _ rfl, fun bad => (ended _ bad).2.2 rfl⟩
    · exact r.completes r.id_eq (exec_putSig_run r fresh) (by rw [op]; exact State.runPutSig_noTumbler clear bad)
    · exact r.takesOn putRun (by rw [op]; exact State.runPut_bad clear goes logs bad) (fun _ => rfl) (fun y => by intro h; cases h)
  case far =>
    intro t far job leaves
    have window {pkt : Nat × Nat × List (Nat × Nat) → Packet} (dst : ∀ x, (pkt x).dst = gMod ra)
        (fits : ((far.map pkt).map chargeOf).sum = 0 ∨ s.charged (gMod ra) + ((far.map pkt).map chargeOf).sum ≤ s.rd Reg.LK_WINDOW_WINDOW_KIB * 1024) :
        ((far.map pkt).map chargeOf).sum = 0
          ∨ ∃ d, (∀ x, (pkt x).dst = d) ∧ s.charged d + ((far.map pkt).map chargeOf).sum ≤ s.rd Reg.LK_WINDOW_WINDOW_KIB * 1024 :=
      fits.imp_right fun fits => ⟨gMod ra, dst, fits⟩
    have free {pkt : Nat × Nat × List (Nat × Nat) → Packet} (parts : List (Nat × Nat × List (Nat × Nat))) (none : ∀ x, chargeOf (pkt x) = 0) :
        ((parts.map pkt).map chargeOf).sum = 0 := sum_chargeOf_zero fun p mem => by
      obtain ⟨x, _, rfl⟩ := List.mem_map.mp mem
      exact none x
    have some_ (off : Nat) (stride : Word) : farPackets t off stride ≠ [] := farPackets_ne_nil td off stride
    have putRun : exec (.put c (.run id [])) s = .next (s.runEntry c.val id [] (fun s e => match e.op with
      | .put td ra rb cls hint log => s.runPut [] c.val id e td ra rb cls hint log
      | _ => s)) := rfl
    have mcRun : exec (.putMc c (.run id [])) s = .next (s.runEntry c.val id [] (fun s e => match e.op with
      | .putMc td ra rb rc rd cls _ => s.runPutMc c.val id e td ra rb rc rd cls
      | _ => s)) := rfl
    refine ⟨fun clear away => ⟨fun op => ?reads, fun op off good => ⟨fun long => ?writesData, fun short => ?writes⟩⟩,
      fun op fine space range aligned inside good => ⟨fun named => ⟨fun long => ?mcData, fun short => ?mc⟩, fun none fresh unmissed => ?mcNone⟩⟩
    case reads =>
      intro room fits
      refine r.sendsEach (f := fun s e => match e.op with
        | .get td ra rb cls hint => s.runGet [] c.val id e td ra rb cls hint
        | _ => s) rfl (mc := []) (src := fun _ => []) (dest := fun x => x.2.2) ?_ (some_ _ _) class_ (fun x => ⟨rfl, rfl, rfl⟩) room
        (window (fun x => rfl) fits)
      rw [op]
      refine (State.runGet_far clear away).trans (State.getOut_eq s c id ra ?_ _)
      rcases class_ with rfl | rfl | rfl <;> decide
    case writesData =>
      intro room fits
      refine r.sendsEach putRun (mc := []) (src := fun x => x.2.2) (dest := fun _ => []) ?_ (some_ _ _) class_
        (fun x => ⟨s.dataPkt_cls _ _ _ _ _ _ class_, rfl, rfl⟩) room (window (fun x => rfl) fits)
      rw [op]
      exact State.runPut_sends clear away off good (State.putPackets_data long)
    case writes =>
      intro room fits
      refine r.sendsEach putRun (mc := []) (src := fun x => x.2.2) (dest := fun _ => []) ?_ (some_ _ _) class_ (fun x => ⟨rfl, rfl, rfl⟩) room
        (window (fun x => rfl) fits)
      rw [op]
      exact State.runPut_sends clear away off good (State.putPackets_ctl short)
    case mcData =>
      intro room fits
      refine r.sendsEach mcRun (mc := maskMembers { inRack := rb, racks := rc }) (src := fun x => x.2.2) (dest := fun _ => []) ?_ (some_ _ _) class_
        (fun x => ⟨s.dataPkt_cls PT.putMcData 0 job (gSpace ra) x.1 ((s.core c.val).gather x.2.2) class_, rfl, rfl⟩) room (.inl (free _ fun x => chargeOf_eq_zero (.inr rfl)))
      rw [op]
      exact State.runPutMc_sends fine space range aligned inside good named (List.map_congr_left fun _ _ => if_neg (Nat.not_le.mpr long))
    case mc =>
      intro room fits
      refine r.sendsEach mcRun (mc := maskMembers { inRack := rb, racks := rc }) (src := fun x => x.2.2) (dest := fun _ => []) ?_ (some_ _ _) class_
        (fun x => ⟨rfl, rfl, rfl⟩) room (.inl (free _ fun x => chargeOf_eq_zero (.inl rfl)))
      rw [op]
      exact State.runPutMc_sends fine space range aligned inside good named (List.map_congr_left fun _ _ => if_pos short)
    case mcNone =>
      refine r.completes r.id_eq mcRun ?_
      rw [op]
      exact State.runPutMc_none r fine space range aligned inside good none fresh unmissed

end Sys2Proof.Machine
end

section
/-! Copies within SP and atomic operations (R74, R93, R94, R98). -/

namespace Sys2Proof.Machine

/-! ### Copies (R93) -/

section
variable {s : State} {c : CoreId} {id : Nat} {e : Entry} {td ts : TileWord}

theorem State.runCopy_done (dst : (Tile.of td).check = none) (src : (Tile.of ts).check = none)
    (good : (s.core c.val).badIn ((Tile.of ts).part (min (Tile.of td).rows (Tile.of ts).rows) (min (Tile.of td).cols (Tile.of ts).cols)
      ++ (Tile.of td).partRead (min (Tile.of td).rows (Tile.of ts).rows) (min (Tile.of td).cols (Tile.of ts).cols)) = none) :
    s.runCopy c.val id e td ts = ((List.range (min (Tile.of td).rows (Tile.of ts).rows)).foldl
      (fun u i => u.copyRow c.val (Tile.of td) (Tile.of ts) e.sat (min (Tile.of td).cols (Tile.of ts).cols) i) s).completed c id 0 := by
  unfold State.runCopy
  simp only [dst, src, good]
  rfl

theorem State.runCopyT_done (dst : (Tile.of td).check = none) (src : (Tile.of ts).check = none)
    (good : (s.core c.val).badIn ((Tile.of ts).part (min (Tile.of td).cols (Tile.of ts).rows) (min (Tile.of td).rows (Tile.of ts).cols)
      ++ (Tile.of td).partRead (min (Tile.of td).rows (Tile.of ts).cols) (min (Tile.of td).cols (Tile.of ts).rows)) = none) :
    s.runCopyT c.val id e td ts = (((List.range (min (Tile.of td).rows (Tile.of ts).cols)).foldl
      (fun u i => u.copyTRow c.val (s.core c.val).sp (Tile.of td) (Tile.of ts) e.sat (min (Tile.of td).cols (Tile.of ts).rows) i) s).spSmudge c.val
        (sharedRanges ((Tile.of td).part (min (Tile.of td).rows (Tile.of ts).cols) (min (Tile.of td).cols (Tile.of ts).rows))
          ((Tile.of ts).part (min (Tile.of td).cols (Tile.of ts).rows) (min (Tile.of td).rows (Tile.of ts).cols)))).completed c id 0 := by
  unfold State.runCopyT
  simp only [dst, src, good]
  rfl

end

/-! ### Atomic operations (R94) -/

section
variable {s : State} {c : CoreId} {id : Nat} {e : Entry} {ra rb rc rd : Word} {scope cls aop : Nat} {w64 nr : Bool}

/-- Bytes of the operand of an ATOM. -/
def atomBytes (w64 : Bool) : Nat := if w64 then 8 else 4

/-- The state after the old value has been written to RD of SP, where the ATOM asks for it. -/
def State.atomAnswer (t : State) (c : CoreId) (nr : Bool) (rd : Word) (v : Nat) : State := if nr then t else t.spWrite c.val rd.toNat (leBytes 8 v)

theorem exec_atom_run (s : State) (c : CoreId) (id : Nat) :
    exec (.atom c (.run id [])) s = .next (s.runEntry c.val id [] (fun s e => match e.op with
      | .atom ra rb rc rd _ cls w64 nr aop => s.runAtom [] c.val id e ra rb rc rd cls w64 nr aop
      | _ => s)) := rfl

theorem State.runAtom_undefined : s.runAtom [] c.val id e ra rb rc rd cls w64 nr 7 = s.finishUndef c.val id e := by
  unfold State.runAtom
  dsimp only
  rw [if_pos rfl]

theorem State.runAtom_noWord (known : aop ≠ 7) (asks : nr = false) (bad : spWordOk rd = false) :
    s.runAtom [] c.val id e ra rb rc rd cls w64 nr aop = s.completed c id Status.addrRange := by
  unfold State.runAtom
  dsimp only
  rw [if_neg known, asks, bad]
  rfl

/-- An RD that an ATOM writes is a word of SP. -/
theorem atom_rd_ok (ok : nr = false → spWordOk rd = true) : (!nr && !spWordOk rd) = false := by
  cases nr with
  | true => rfl
  | false => rw [ok rfl]; rfl

theorem State.runAtom_tumbler (known : aop ≠ 7) (ok : nr = false → spWordOk rd = true) (space : gSpace ra = spTUM) :
    s.runAtom [] c.val id e ra rb rc rd cls w64 nr aop
      = if w64 = true then s.completed c id Status.addrRange else s.tumGlobal c.val id e ra cls (.atom aop rb rc) := by
  unfold State.runAtom
  dsimp only
  rw [if_neg known, atom_rd_ok ok, if_neg Bool.false_ne_true, if_pos space]
  rfl

theorem State.runAtom_badAddress (known : aop ≠ 7) (ok : nr = false → spWordOk rd = true) (space : gSpace ra ≤ 1)
    (bad : gOff ra % atomBytes w64 ≠ 0 ∨ s.addrOk ra (atomBytes w64) false = false) :
    s.runAtom [] c.val id e ra rb rc rd cls w64 nr aop = s.completed c id Status.addrRange := by
  have found : (decide (gSpace ra > 1) || gOff ra % atomBytes w64 != 0 || !s.addrOk ra (atomBytes w64) false) = true := by
    rcases bad with bad | bad <;> simp [bad]
  have memory : gSpace ra ≠ spTUM := by unfold spTUM; omega
  unfold atomBytes at found
  unfold State.runAtom
  simp only [known, atom_rd_ok ok, memory, found, Bool.false_eq_true, if_false, if_true]
  rfl

/-- An ATOM on a word of LM or HM whose address has passed the checks. -/
theorem State.runAtom_memory (known : aop ≠ 7) (ok : nr = false → spWordOk rd = true) (space : gSpace ra ≤ 1) (aligned : gOff ra % atomBytes w64 = 0)
    (good : s.addrOk ra (atomBytes w64) false = true) :
    (s.isHere ra = true → s.memWaits (gSpace ra) (gOff ra) (atomBytes w64) = true → s.runAtom [] c.val id e ra rb rc rd cls w64 nr aop = s)
    ∧ (s.isHere ra = true → s.memWaits (gSpace ra) (gOff ra) (atomBytes w64) = false → ∀ old t,
        s.atomMem [] (gSpace ra) (gOff ra) (atomBytes w64) aop rb rc = (.none, old, t) →
        s.runAtom [] c.val id e ra rb rc rd cls w64 nr aop = (t.atomAnswer c nr rd old).completed c id 0)
    ∧ (s.isHere ra = false → s.padlocked (gMod ra) = true → s.runAtom [] c.val id e ra rb rc rd cls w64 nr aop = s.completed c id Status.padlocked) := by
  have found : (decide (gSpace ra > 1) || gOff ra % atomBytes w64 != 0 || !s.addrOk ra (atomBytes w64) false) = false := by
    simp [space, aligned, good]
  have memory : gSpace ra ≠ spTUM := by unfold spTUM; omega
  unfold atomBytes at found ⊢
  refine ⟨fun here waits => ?_, fun here goes old t done => ?_, fun away locked => ?_⟩
  · unfold State.runAtom
    simp only [known, atom_rd_ok ok, memory, found, here, waits, Bool.false_eq_true, if_false, if_true]
  · unfold State.runAtom
    simp only [known, atom_rd_ok ok, memory, found, here, goes, done, Bad.isBad, Bool.false_or, Bool.false_eq_true, if_false, if_true]
    rfl
  · unfold State.runAtom
    simp only [known, atom_rd_ok ok, memory, found, away, locked, Bool.false_eq_true, if_false, if_true]
    rfl

/-- The operation on a word of HM that is good. -/
theorem State.atomMem_hm {off n : Nat} (good : (s.hmRead off n).2.isBad = false) :
    s.atomMem [] 1 off n aop rb rc = (.none, leNat (s.hm.readN off n),
      s.hmStore off (leBytes n (atomVal aop (8 * n) (leNat (s.hm.readN off n)) rb.toNat rc.toNat false))) := by
  unfold State.atomMem State.readSpace State.writeSpace
  simp only [good, Bool.false_eq_true, if_false]
  rfl

/-- The operation on a word of LM that is good. -/
theorem State.atomMem_lm {off n : Nat} {l : List Byte × Bad × State}
    (line : s.lmAtomLine [] (off / 256) (off % 256) n (fun bs => leBytes n (atomVal aop (8 * n) (leNat bs) rb.toNat rc.toNat false)) = l)
    (good : l.2.1 = .none) : s.atomMem [] 0 off n aop rb rc = (.none, leNat l.1, l.2.2) := by
  unfold State.atomMem
  simp only [spLM, line, good, if_true]
  rfl

/-- An ATOM other than ADD on an owned hub tumbler of this module. -/
theorem State.Runs.atomHub {h : Nat} (r : s.Runs c id e) (op : e.op = .atom ra rb rc rd scope cls false nr aop) (notAdd : aop ≠ 0)
    (space : gSpace ra = spTUM) (ok : s.addrOk ra 4 true = true) (here : s.isHere ra = true) (named : tumOfOff (gOff ra) = some (.inl h))
    (owned : (s.hubAlloc h).isSome = true) :
    s.tumGlobal c.val id e ra cls (.atom aop rb rc)
      = ((s.hubDone h (BitVec.ofNat 32 (atomVal aop 32 (s.hubGet h).toNat rb.toNat rc.toNat true))).atomAnswer c nr rd (s.hubGet h).toNat).completed c id 0 := by
  have run : (TumOp.atom aop rb rc).run (s.hubGet h) = (BitVec.ofNat 32 (atomVal aop 32 (s.hubGet h).toNat rb.toNat rc.toNat true), 0) := if_neg notAdd
  rw [State.tumGlobal_hub r (fun td ra rb rc cls hint sc log => by rw [op]; exact fun h => by cases h) (by rw [ok, space]; rfl) here named owned, run]
  unfold State.tumAnswer
  simp only [r.hubDone_entry, op]
  rfl

end

/-- The values of ADD, XCHG and CAS (R94). -/
theorem atomVal_values (w a b x : Nat) :
    atomVal 0 w a b x false = (a + b % 2 ^ w) % 2 ^ w ∧ atomVal 3 w a b x false = b % 2 ^ w
      ∧ (a = x % 2 ^ w → atomVal 4 w a b x false = b % 2 ^ w) ∧ (a ≠ x % 2 ^ w → atomVal 4 w a b x false = a) :=
  ⟨rfl, rfl, fun h => if_pos h, fun h => if_neg h⟩

/-- Settles O22: COPY and COPY.T row by row, and ATOM by the space of its word. -/
theorem copiesAndAtomics : Obligations.CopiesAndAtomics := by
  unfold Obligations.CopiesAndAtomics
  refine ⟨fun c id e td ts s r => ?copies, fun c id e ra rb rc rd scope cls w64 nr aop s r op => ?atoms⟩
  case copies =>
    intro d t m dst src
    have copyRun : exec (.copy c (.run id [])) s = .next (s.runEntry c.val id [] (fun s e => match e.op with
      | .copy td ts => s.runCopy c.val id e td ts
      | _ => s)) := rfl
    have copyTRun : exec (.copyT c (.run id [])) s = .next (s.runEntry c.val id [] (fun s e => match e.op with
      | .copyT td ts => s.runCopyT c.val id e td ts
      | _ => s)) := rfl
    refine ⟨fun op => ?_, fun op => ?_⟩
    · intro rows n good
      refine ⟨?_, fun same plain u i => ?_, fun other u i => if_neg other⟩
      · rw [copyRun, r.run _ (by rw [op]; rfl), op]
        exact congrArg Host.Outcome.next (State.runCopy_done dst src good)
      · refine (if_pos same).trans (if_neg ?_)
        rw [plain]
        decide
    · intro rows n shared copied good
      refine ⟨?_, fun none => ?_, fun same plain u i => if_pos ⟨same, by rw [plain]; decide⟩, fun other u i => if_neg fun h => other h.1⟩
      · rw [copyTRun, r.run _ (by rw [op]; rfl), op]
        exact congrArg Host.Outcome.next (State.runCopyT_done dst src good)
      · rw [none]
        rfl
  case atoms =>
    intro n new old u l rdOk ends answer
    have run := exec_atom_run s c id
    have done {t : State} {st : Nat} (effect : s.runAtom [] c.val id e ra rb rc rd cls w64 nr aop = t.completed c id st) :
        exec (.atom c (.run id [])) s = ends t st := r.completes r.id_eq run (by rw [op]; exact effect)
    refine ⟨fun known ok aligned good here => ⟨fun hm clean => ?_, fun lm goes clean => ?_, fun lm waits => ?_⟩,
      fun h known notAdd ok space narrow good here named owned => ?_, fun undefined => ?_, fun known asks bad => done (State.runAtom_noWord known asks bad),
      fun known ok space bad => done (State.runAtom_badAddress known ok space bad), fun known ok space wide => ?_,
      fun known ok space aligned good away locked => done ((State.runAtom_memory known ok space aligned good).2.2 away locked), atomVal_values⟩
    · obtain ⟨_, runs, _⟩ := State.runAtom_memory (c := c) (id := id) (e := e) (rb := rb) (rc := rc) (cls := cls) known ok (by omega) aligned good
      exact done (runs here (by rw [hm]; rfl) old u (by rw [hm]; exact State.atomMem_hm clean))
    · obtain ⟨_, runs, _⟩ := State.runAtom_memory (c := c) (id := id) (e := e) (rb := rb) (rc := rc) (cls := cls) known ok (by omega) aligned good
      exact done (runs here (by rw [lm]; exact goes) (leNat l.1) l.2.2 (by rw [lm]; exact State.atomMem_lm rfl clean))
    · obtain ⟨stays, _, _⟩ := State.runAtom_memory (c := c) (id := id) (e := e) (rb := rb) (rc := rc) (cls := cls) known ok (by omega) aligned good
      exact r.stays run (by rw [op]; exact stays here (by rw [lm]; exact waits))
    · subst narrow
      refine done ((State.runAtom_tumbler known ok space).trans ?_)
      rw [if_neg Bool.false_ne_true]
      exact r.atomHub op notAdd space good here named owned
    · subst undefined
      exact r.takesOn run (by rw [op]; exact State.runAtom_undefined) (fun _ => rfl) (fun y => by intro h; cases h)
    · exact done ((State.runAtom_tumbler known ok space).trans (if_pos wide))

end Sys2Proof.Machine
end

section
/-! What a stationary slot holds after a load, and one whole chunk of a stream (R37, R38, R40, R102, R103, R129). -/

namespace Sys2Proof.Machine

/-! ### Tables made from a function -/

/-- The entries of a function at some keys that are not the default. -/
def listed {α : Type} [DecidableEq α] (l : List Nat) (d f : Nat → α) : Tab α := l.filterMap (fun i => if f i = d i then none else some (i, f i))

theorem lookup_listed {α : Type} [DecidableEq α] (d f : Nat → α) (l : List Nat) (i : Nat) :
    (listed l d f).lookup i = if i ∈ l ∧ f i ≠ d i then some (f i) else none := by
  induction l with
  | nil => simp [listed]
  | cons j l ih =>
    unfold listed at ih ⊢
    rw [List.filterMap_cons]
    by_cases same : f j = d j
    · simp only [same, if_true, ih]
      by_cases here : i = j
      · subst here
        simp [same]
      · simp [here]
    · simp only [same, if_false, List.lookup_cons]
      by_cases here : i = j
      · subst here
        simp [same]
      · have apart : (i == j) = false := by simpa using here
        rw [apart, ih]
        simp [here]

/-- A table that lists a function where it is not the default reads as the function. -/
theorem get_listed {α : Type} [DecidableEq α] (d f : Nat → α) {l : List Nat} {i : Nat} (mem : i ∈ l) : Tab.get (listed l d f) (d i) i = f i := by
  rw [Tab.get, lookup_listed]
  by_cases same : f i = d i
  · rw [if_neg (fun h => h.2 same), Option.getD_none, same]
  · rw [if_pos ⟨mem, same⟩, Option.getD_some]

/-! ### Slots (R40, R102, R129) -/

theorem shapeKs_mul_shapeNs {sh : Nat} (known : sh < 3) : shapeKs sh * shapeNs sh = 16384 := by
  rcases (by omega : sh = 0 ∨ sh = 1 ∨ sh = 2) with rfl | rfl | rfl <;> rfl

/-- The element that a load gives element i of a slot of ns columns. -/
def loadedElem (t : Tile) (m : Mem) (k0 n0 ns : Nat) (trans : Bool) (i : Nat) : BitVec 24 :=
  if trans then slotElem t m true (k0 + i / ns) (n0 + i % ns) else slotElem t m false (n0 + i % ns) (k0 + i / ns)

theorem loadSlot_elems (t : Tile) (m : Mem) (k0 n0 sh : Nat) (trans : Bool) :
    (loadSlot t m k0 n0 sh trans).elems = listed (List.range 16384) (fun _ => slotZero) (loadedElem t m k0 n0 (shapeNs sh) trans) := by
  dsimp only [loadSlot, listed, loadedElem]
  exact congrArg (List.filterMap · _) rfl

/-- The element of a slot after a load. -/
theorem loadSlot_get (t : Tile) (m : Mem) (k0 n0 : Nat) (trans : Bool) {sh k n : Nat} (known : sh < 3) (hk : k < shapeKs sh) (hn : n < shapeNs sh) :
    Tab.get (loadSlot t m k0 n0 sh trans).elems slotZero (k * shapeNs sh + n)
      = if trans then slotElem t m true (k0 + k) (n0 + n) else slotElem t m false (n0 + n) (k0 + k) := by
  have inside : k * shapeNs sh + n < 16384 := by
    rw [← shapeKs_mul_shapeNs known]
    calc k * shapeNs sh + n < (k + 1) * shapeNs sh := by rw [Nat.succ_mul]; omega
      _ ≤ shapeKs sh * shapeNs sh := Nat.mul_le_mul_right _ hk
  have row : (k * shapeNs sh + n) / shapeNs sh = k := by
    rw [Nat.mul_comm, Nat.mul_add_div (by omega), Nat.div_eq_of_lt hn, Nat.add_zero]
  have col : (k * shapeNs sh + n) % shapeNs sh = n := by rw [Nat.mul_comm, Nat.mul_add_mod, Nat.mod_eq_of_lt hn]
  rw [loadSlot_elems, get_listed (fun _ => slotZero) _ (List.mem_range.mpr inside), loadedElem, row, col]

theorem loadSlot_sh (t : Tile) (m : Mem) (k0 n0 : Nat) (trans : Bool) {sh : Nat} (known : sh < 3) : (loadSlot t m k0 n0 sh trans).sh = sh := by
  cases trans
  · exact Nat.mod_eq_of_lt (by omega : sh < 4)
  · exact (Nat.add_mod_right sh 4).trans (Nat.mod_eq_of_lt (by omega))

theorem slotFmt_same (t : Tile) {trans : Bool} (same : trans = true → t.fmt = Fmt.fp16) : slotFmt t trans = t.fmt :=
  if_neg fun h => h.2 (same h.1)

theorem Fmt.bits_of_short {f : Nat} (short : f ≠ Fmt.fp32) : Fmt.bits f ≤ 16 := by
  unfold Fmt.bits
  split <;> simp_all [Fmt.fp32]

/-- The code of a format of at most 16 bits fits a slot element. -/
theorem Tile.code_lt (t : Tile) (m : Mem) (r c : Nat) (short : t.fmt ≠ Fmt.fp32) : t.code m r c < 2 ^ 16 :=
  (Nat.mod_lt _ (Nat.two_pow_pos _)).trans_le (Nat.pow_le_pow_right (by decide) (Fmt.bits_of_short short))

/-- The value of a slot element that holds a code and a scale. -/
theorem Slot.val_of_code {x : Slot} {k n code scale : Nat} (held : Tab.get x.elems slotZero (k * shapeNs x.sh + n) = BitVec.ofNat 24 (code * 256 + scale))
    (hc : code < 2 ^ 16) (hs : scale < 256) : x.val k n = if Fmt.block x.fmt then Fmt.decScaled x.fmt code scale else Fmt.decElem x.fmt code := by
  have number : (BitVec.ofNat 24 (code * 256 + scale)).toNat = code * 256 + scale := by
    rw [BitVec.toNat_ofNat]
    omega
  have high : (code * 256 + scale) / 256 = code := by omega
  have low : (code * 256 + scale) % 256 = scale := by omega
  unfold Slot.val
  simp only [held, number, high, low]

/-- An element inside the tile, in the tile's own format. -/
theorem slotElem_inside {t : Tile} {m : Mem} {trans : Bool} {r c : Nat} (same : trans = true → t.fmt = Fmt.fp16) (hr : r < t.rows) (hc : c < t.cols) :
    slotElem t m trans r c = BitVec.ofNat 24 (t.code m r c * 256 + (if Fmt.block t.fmt then (m.read (t.scaleAt r c)).toNat else 127)) := by
  unfold slotElem
  rw [if_neg (by omega), if_neg fun h => h.2 (same h.1)]

/-- A slot whose element holds the tile's own code has the tile's value. -/
theorem Slot.val_of_elem {t : Tile} {m : Mem} {x : Slot} {trans : Bool} {k n r c : Nat} (short : t.fmt ≠ Fmt.fp32) (same : trans = true → t.fmt = Fmt.fp16)
    (fmt : x.fmt = t.fmt) (held : Tab.get x.elems slotZero (k * shapeNs x.sh + n) = slotElem t m trans r c) (hr : r < t.rows) (hc : c < t.cols) :
    x.val k n = t.elem m r c := by
  rw [slotElem_inside same hr hc] at held
  rw [Slot.val_of_code held (t.code_lt m r c short) (by split; exact (m.read _).isLt; decide), fmt]
  unfold Tile.elem
  split
  · rfl
  · rfl

/-! ### One whole chunk (R37, R38, R103) -/

theorem Acc.get_put (a : Acc) {n i : Nat} (f : Nat → Word32) (h : i < n) : (a.put n f).get i = f i := by
  have rest : (a.cells.filter (fun p => n ≤ p.1)).lookup i = none := by
    rw [List.lookup_eq_none_iff]
    intro p mem
    have far : n ≤ p.1 := of_decide_eq_true (List.mem_filter.mp mem).2
    have apart : i ≠ p.1 := by omega
    simpa using apart
  change Tab.get (listed (List.range n) a.default f ++ a.cells.filter (fun p => n ≤ p.1)) (a.default i) i = f i
  rw [Tab.get, List.lookup_append, rest, Option.or_none]
  exact get_listed a.default f (List.mem_range.mpr h)

/-- A whole chunk of 128 products that starts at a multiple of 128 is summed once. -/
theorem mmElem_chunk {k0 : Nat} {ps : List Machine.Num} (aligned : k0 % 128 = 0) (whole : ps.length = 128) (prev : Word32) :
    mmElem false k0 [] ps prev = (fadd prev (chunkSum ps), []) := by
  have one : cutChunks k0 ps = [ps] := if_pos (by omega)
  have ended : ((k0 + ps.length) % 128 == 0) = true := by rw [beq_iff_eq]; omega
  unfold mmElem
  simp only [one, ended, List.nil_append, if_true, List.map_cons, List.map_nil, List.foldl_cons, List.foldl_nil, Bool.false_eq_true, if_false]

theorem Acc.get_congr {a b : Acc} (cells : a.cells = b.cells) (junk : a.junk = b.junk) (i : Nat) : a.get i = b.get i := by
  simp only [Acc.get, Acc.default, cells, junk]

/-- Settles O24: a slot element is the tile's code under the slot's format, and one chunk leaves nothing open. -/
theorem slotsHoldTheTileAndChunksSumOnce : Obligations.SlotsHoldTheTileAndChunksSumOnce := by
  unfold Obligations.SlotsHoldTheTileAndChunksSumOnce
  refine ⟨fun t m k0 n0 sh k n _ short known hk hn => ⟨fun hr hc => ?_, fun half hr hc => ?_, fun past => ?_⟩,
    fun a t m x k0 row0 mi r n shape aligned hr hn => ⟨?_, ?_, ?_, ?_⟩⟩
  · refine Slot.val_of_elem (trans := false) short (fun h => by cases h) ?_ ?_ hr hc
    · exact slotFmt_same t fun h => absurd h Bool.false_ne_true
    · rw [loadSlot_sh t m k0 n0 false known, loadSlot_get t m k0 n0 false known hk hn]
      rfl
  · refine Slot.val_of_elem (trans := true) short (fun _ => half) ?_ ?_ hr hc
    · exact slotFmt_same t fun _ => half
    · rw [loadSlot_sh t m k0 n0 true known, loadSlot_get t m k0 n0 true known hk hn]
      rfl
  · rw [loadSlot_get t m k0 n0 false known hk hn, if_neg Bool.false_ne_true]
    exact if_pos (by omega)
  all_goals
    have sh : x.sh = 0 := by rw [Slot.sh, shape]
    have plain : x.trans = false := by rw [Slot.trans, shape]; rfl
    have ks : shapeKs 0 = 128 := rfl
    have ns : shapeNs 0 = 128 := rfl
    have left : ((k0 + 128) % 128 != 0) = false := by
      rw [bne_eq_false_iff_eq]
      exact (Nat.add_mod_right k0 128).trans aligned
    unfold Acc.stream
    simp only [sh, ks, ns, plain, left, Bool.false_and, Bool.false_eq_true, if_false]
  · have inside : r * 128 + n < mi * 128 :=
      calc r * 128 + n < (r + 1) * 128 := by omega
        _ ≤ mi * 128 := Nat.mul_le_mul_right _ hr
    have row : (r * 128 + n) / 128 = r := by omega
    have col : (r * 128 + n) % 128 = n := by omega
    refine (Acc.get_congr rfl rfl _).trans ((Acc.get_put _ _ inside).trans ?_)
    rw [List.getD_eq_getElem?_getD, List.getElem?_map, List.getElem?_range inside]
    refine (congrArg Prod.fst (mmElem_chunk aligned (by rw [List.length_map, List.length_range]) 0)).trans ?_
    rw [row, col]

end Sys2Proof.Machine
end

section
/-! The matrix instructions: loads, fills, streams, drains and the matrix-vector engine (R102-R109, R141, R422). -/

namespace Sys2Proof.Machine

/-! ### Arrays -/

theorem residues_nil (arrays : List Nat) : residues [] arrays = [] := by simp [residues]

theorem Core.arraysOf_one (k : Core) {q : Nat} (one : q ≠ 8) : k.arraysOf q = [q - 1] := if_neg one

theorem Core.arraysOf_nodup (k : Core) (q : Nat) : (k.arraysOf q).Nodup := by
  unfold Core.arraysOf
  split
  · exact List.nodup_range.filter _
  · exact List.nodup_singleton _

/-- Whatever runs in the queue of a disabled array completes ADDR_RANGE (R141). -/
theorem State.runEntry_noArray {s : State} {c : CoreId} {id : Nat} {e : Entry} (alive : s.failed = false) (ready : (s.core c.val).runnable id = some e)
    (one : e.q ≠ 8) (off : (s.core c.val).noArray e.q = true) (us : List Upset) (f : State → Entry → State) :
    s.runEntry c.val id us f = s.completed c id Status.addrRange := by
  have ends : ((e.slotEn && decide (e.slot > 0x4FFFFF)) || (e.q != 8 && (s.core c.val).noArray e.q)) = true := by
    rw [off, bne_iff_ne.mpr one, Bool.and_self, Bool.or_true]
  unfold State.runEntry
  rw [ready]
  simp only [alive, ends, Bool.false_eq_true, if_false, if_true]
  rfl

/-! ### Streams (R103-R105) -/

theorem Core.accOf_modFiller (k : Core) (i : Nat) (f : Filler → Filler) (j : Nat) : (k.modFiller i f).accOf j = k.accOf j := rfl

theorem Core.accOf_setAcc (k : Core) {i : Nat} (a : Acc) (h : i < 4) : (k.setAcc i a).accOf i = a := getD_set_same _ _ _ _ h

theorem Core.accOf_setAcc_ne (k : Core) {i j : Nat} (a : Acc) (h : j ≠ i) : (k.setAcc i a).accOf j = k.accOf j := getD_set_other _ _ _ _ _ h

/-- What an MM does with one array and its place among the arrays that it runs on: `rows` and `row0` give the array's share. -/
def Core.streamOne (t : Tile) (k0 sl : Nat) (row0 : Nat × Nat → Nat) (rows : Nat × Nat → Nat) (acc : Bool) (k : Core) (p : Nat × Nat) : Core :=
  (k.setAcc p.1 ((k.accOf p.1).stream t k.sp (k.slotOf p.1 sl) k0 (row0 p) (rows p) acc)).modFiller p.1
    (fun f => { f with streamed := true, slot := sl, rows := row0 p + rows p })

section
variable (t : Tile) (k0 sl : Nat) (row0 rows : Nat × Nat → Nat) (acc : Bool)

theorem Core.streamOne_sp (k : Core) (p : Nat × Nat) : (Core.streamOne t k0 sl row0 rows acc k p).sp = k.sp := rfl

theorem Core.streamOne_slots (k : Core) (p : Nat × Nat) : (Core.streamOne t k0 sl row0 rows acc k p).slots = k.slots := rfl

theorem Core.streamAll_sp (l : List (Nat × Nat)) (k : Core) : (l.foldl (Core.streamOne t k0 sl row0 rows acc) k).sp = k.sp :=
  List.foldlRecOn l _ (motive := fun m => m.sp = k.sp) rfl fun m same p _ => (Core.streamOne_sp t k0 sl row0 rows acc m p).trans same

theorem Core.streamAll_slots (l : List (Nat × Nat)) (k : Core) : (l.foldl (Core.streamOne t k0 sl row0 rows acc) k).slots = k.slots :=
  List.foldlRecOn l _ (motive := fun m => m.slots = k.slots) rfl fun m same p _ => (Core.streamOne_slots t k0 sl row0 rows acc m p).trans same

theorem Core.streamAll_other (l : List (Nat × Nat)) (k : Core) {me : Nat} (apart : me ∉ l.map Prod.fst) :
    (l.foldl (Core.streamOne t k0 sl row0 rows acc) k).accOf me = k.accOf me :=
  List.foldlRecOn l _ (motive := fun m : Core => m.accOf me = k.accOf me) rfl fun m same p mem => by
    have other : me ≠ p.1 := fun h => apart (h ▸ List.mem_map_of_mem mem)
    exact (Core.accOf_setAcc_ne m _ other).trans same

/-- Each array of the list streams its own share once. -/
theorem Core.streamAll_acc {l : List (Nat × Nat)} (once : (l.map Prod.fst).Nodup) (k : Core) {p : Nat × Nat} (mem : p ∈ l) (known : p.1 < 4) :
    (l.foldl (Core.streamOne t k0 sl row0 rows acc) k).accOf p.1 = (k.accOf p.1).stream t k.sp (k.slotOf p.1 sl) k0 (row0 p) (rows p) acc := by
  induction l generalizing k with
  | nil => cases mem
  | cons q l ih =>
    rw [List.map_cons, List.nodup_cons] at once
    obtain ⟨apart, once⟩ := once
    rw [List.foldl_cons]
    rcases List.mem_cons.mp mem with rfl | mem
    · rw [Core.streamAll_other t k0 sl row0 rows acc l _ apart]
      exact Core.accOf_setAcc _ _ known
    · have other : p.1 ≠ q.1 := fun h => apart (h ▸ List.mem_map_of_mem mem)
      rw [ih once _ mem, Core.streamOne_sp]
      exact congrArg (fun a : Acc => a.stream t k.sp (k.slotOf p.1 sl) k0 (row0 p) (rows p) acc) (Core.accOf_setAcc_ne k _ other)

end

/-! ### The matrix-vector engine (R39, R109) -/

theorem mveResult_cases (v : Word32) (ps : List Machine.Num) : mveResult v ps = plainSum ps
    ∨ (mveResult v ps = v ∧ ((f32 v).add (f32 (plainSum ps)).neg).absLe (((absSum ps).mul (.ofNat ((ps.length + 127) / 128))).scale (-24)) = true) := by
  unfold mveResult
  dsimp only
  split
  · next near => exact .inr ⟨rfl, (Bool.and_eq_true_iff.mp near).2⟩
  · exact .inl rfl

/-! ### The statement -/

theorem exec_mmLds {s : State} {c : CoreId} {id : Nat} {e : Entry} (r : s.Runs c id e) {ts : TileWord} {rk rn : Word} {sh sl : Nat} {tr : Bool} (op : e.op = .mmLds ts rk rn sh sl tr) :
    let k := s.core c.val
    let t := Tile.of ts
    let reads := if tr then t.partRanges (off16 rk) (shapeKs sh) (off16 rn) (shapeNs sh) else t.partRanges (off16 rn) (shapeNs sh) (off16 rk) (shapeKs sh)
    (sh < 3 → t.fmt ≠ Fmt.fp32 → t.check = none → k.noArray e.q = false →
      (k.badIn reads = none → exec (.mmLds c (.run id [])) s
        = .next ((s.modCore c.val (fun k => (k.arraysOf e.q).foldl (fun m i =>
            { m with slots := m.slots.setIfInBounds (2 * i + sl) (loadSlot t k.sp (off16 rk) (off16 rn) sh tr) }) k)).completed c id 0))
      ∧ (∀ w, k.badIn reads = some w → exec (.mmLds c (.run id [])) s = .next (s.modEntry c.val id (fun x =>
          { x with phase := .done Status.eccUncorrected, cause := 0x0202, addr := BitVec.ofNat 64 w, info := 2 }))))
    ∧ (sh < 3 → t.fmt ≠ Fmt.fp32 → t.check = none → k.noArray e.q = true → exec (.mmLds c (.run id [])) s = .next (s.completed c id Status.addrRange))
    ∧ (sh = 3 ∨ t.fmt = Fmt.fp32 → exec (.mmLds c (.run id [])) s = .next (s.modEntry c.val id (fun x =>
        { x with phase := .done Status.addrRange, cause := 0x0101, addr := 0, info := e.word }))) := by
  refine ⟨fun shape short fits on => ⟨fun good => ?_, fun w bad => ?_⟩, fun shape short fits off => ?_, fun undef => ?_⟩
  all_goals refine congrArg Host.Outcome.next ((r.run _ (by rw [op]; rfl)).trans ?_)
  all_goals simp only [op]
  · rw [if_neg (by omega)]
    simp only [fits, on, good, Bool.false_eq_true, if_false]
    exact congrArg (fun u : State => u.completed c id 0) (State.modCore_congr rfl)
  · rw [if_neg (by omega)]
    simp only [fits, on, bad, Bool.false_eq_true, if_false]
    rfl
  · rw [if_neg (by omega)]
    simp only [fits, off, if_true]
    rfl
  · rw [if_pos undef]
    rfl

/-- Settles O23: each array streams once, and every other instruction is the model's function of its operands. -/
theorem matrixInstructionsComplete : Obligations.MatrixInstructionsComplete := by
  unfold Obligations.MatrixInstructionsComplete
  refine ⟨fun c id e s => ⟨fun r => ⟨fun ts rk rn sh sl tr op => exec_mmLds r op, fun n op => ⟨fun on => ?_, fun off => ?_⟩⟩, fun alive ready one off i mem => ?_, fun q one => Core.arraysOf_one _ one⟩,
    fun c id e s r => ⟨fun ts rk sl acc op short fits on good room => ?_, fun td ra h add op add32 fits on good => ?_⟩,
    fun c id e td ts tx acc s r op dfmt wfmt wvalid xlow xhigh dfits wfits xfits good => ?_, mveResult_cases⟩
  · refine congrArg Host.Outcome.next ((r.run _ (by rw [op]; rfl)).trans ?_)
    simp only [op, on, Bool.false_eq_true, if_false]
    rfl
  · refine congrArg Host.Outcome.next ((r.run _ (by rw [op]; rfl)).trans ?_)
    simp only [op, off, if_true]
    rfl
  · fin_cases mem
    all_goals exact congrArg Host.Outcome.next (State.runEntry_noArray alive ready one off [] _)
  · refine ⟨s.modCore c.val (fun k => ((k.arraysOf e.q).zipIdx).foldl (Core.streamOne (Tile.of ts) (off16 rk) sl
      (fun p => p.2 * (((Tile.of ts).rows + (k.arraysOf e.q).length - 1) / (k.arraysOf e.q).length))
      (fun p => min (min ((Tile.of ts).rows - p.2 * (((Tile.of ts).rows + (k.arraysOf e.q).length - 1) / (k.arraysOf e.q).length))
        (((Tile.of ts).rows + (k.arraysOf e.q).length - 1) / (k.arraysOf e.q).length)) (65536 / shapeNs (k.slotOf p.1 sl).sh)) acc) k), ?_, rfl, ?_, ?_, ?_, ?_⟩
    · have roomy : ¬((s.core c.val).noArray e.q = true ∨ (e.q = 8 ∧ ((s.core c.val).arraysOf e.q).length < 4
          ∧ (Tile.of ts).rows > ((s.core c.val).arraysOf e.q).length * (65536 / shapeNs ((s.core c.val).slotOf (((s.core c.val).arraysOf e.q).headD 0) sl).sh))) := by
        rintro (off | ⟨all, few, many⟩)
        · exact Bool.false_ne_true (on.symm.trans off)
        · exact absurd (room all few) (by omega)
      dsimp only at good
      refine congrArg Host.Outcome.next ((r.run _ (by rw [op]; rfl)).trans ?_)
      simp only [op, short, fits, if_false]
      rw [if_neg roomy, good]
      simp only [residues_nil, ne_eq, not_true, if_false]
      exact congrArg (fun u : State => u.completed c id 0) (State.modCore_congr rfl)
    · exact fun d apart => State.core_modCore_ne _ _ _ _ (fun h => apart (Fin.ext h))
    · rw [State.core_modCore _ _ _ c.isLt]
      exact Core.streamAll_sp _ _ _ _ _ _ _ _
    · rw [State.core_modCore _ _ _ c.isLt]
      exact Core.streamAll_slots _ _ _ _ _ _ _ _
    · intro i me at_ known
      rw [State.core_modCore _ _ _ c.isLt]
      refine Core.streamAll_acc _ _ _ _ _ _ ?_ _ (p := (me, i)) ?_ known
      · rw [List.zipIdx_map_fst]
        exact Core.arraysOf_nodup _ _
      · exact List.mem_zipIdx_iff_getElem?.mpr at_
  · refine congrArg Host.Outcome.next ((r.run _ (by rw [op]; rfl)).trans ?_)
    simp only [op]
    have right : ¬(add = true ∧ (Tile.of td).fmt ≠ Fmt.fp32) := fun h => h.2 (add32 h.1)
    have clean : (if add = true then (s.core c.val).badIn (((s.core c.val).arraysOf e.q).flatMap (fun i =>
        (Tile.of td).partRanges ((s.core c.val).accOf i).row0 ((s.core c.val).accOf i).rows 0 ((s.core c.val).accOf i).cols)) else none) = none := by
      split
      · next h => exact good h
      · rfl
    simp only [right, clean, fits, on, residues_nil, Bool.false_and, Bool.false_eq_true, false_and, or_self, ne_eq, not_true, if_false]
    generalize List.foldl _ (s, true) _ = d
    cases d.2 <;> rfl
  · refine congrArg Host.Outcome.next ((r.run _ (by rw [op]; rfl)).trans ?_)
    have known : (!(decide ((Tile.of td).fmt ≤ 2) && (Tile.of ts).fmt != Fmt.fp32 && Fmt.valid (Tile.of ts).fmt && decide ((Tile.of tx).fmt ≥ 1) && decide ((Tile.of tx).fmt ≤ 4))) = false := by
      simp [dfmt, wfmt, wvalid, xlow, xhigh]
    have fits : [Tile.of td, Tile.of ts, Tile.of tx].any (fun t => t.check.isSome) = false := by simp [dfits, wfits, xfits]
    simp only [op, known, fits, good, Bool.false_eq_true, if_false]
    rfl

end Sys2Proof.Machine
end

section
/-! The vector instructions: loads and stores, element-wise operations, tables and row units (R110-R113, R146-R155). -/

namespace Sys2Proof.Machine

/-! ### Tiles and conversions -/

theorem vTile_good {ts : TileWord} {ra : Word} (fits : (Tile.of ts).check = none) (plain : Fmt.block (Tile.of ts).fmt = false)
    (inside : ra.toNat < (Tile.of ts).rows) : vTile ts ra = (Tile.of ts, none) := by
  unfold vTile
  simp only [fits, plain, Bool.false_eq_true, if_false]
  rw [if_neg (by omega)]

theorem vTile_past {ts : TileWord} {ra : Word} (fits : (Tile.of ts).check = none) (plain : Fmt.block (Tile.of ts).fmt = false)
    (past : (Tile.of ts).rows ≤ ra.toNat) : vTile ts ra = (Tile.of ts, some .range) := by
  unfold vTile
  simp only [fits, plain, Bool.false_eq_true, if_false]
  rw [if_pos past]

theorem vTile_block {ts : TileWord} (ra : Word) (block : Fmt.block (Tile.of ts).fmt = true) : vTile ts ra = (Tile.of ts, some .undefined) := by
  unfold vTile
  simp only [block, if_true]
  cases h : (Tile.of ts).check with
  | none => rfl
  | some b => cases b <;> rfl

/-- A NaN becomes the canonical one (R27). -/
theorem vLoad_nan {t : Tile} (ty sat : Bool) {code : Nat} (nan : (Fmt.decElem t.fmt code).isNan = true) :
    vLoad t ty sat code = if ty then 0x7FC00000 else 0x7FC0 := by
  have value : Fmt.decElem t.fmt code = .nan := by
    cases h : Fmt.decElem t.fmt code with
    | nan => rfl
    | inf n => rw [h] at nan; cases nan
    | fin n m x => rw [h] at nan; cases nan
  unfold vLoad
  rw [value]
  cases ty <;> cases sat <;> decide

/-! ### Effects of the element-wise instructions -/

section
variable {s : State} {c : CoreId} {id : Nat} {e : Entry}

theorem State.runElem_done {kind vd va vb vc : Nat} {rs : Option Word32} {ty sr : Bool} (op : e.op = .velem kind vd va vb vc rs ty sr) :
    s.runElem kind c.val id e = (s.vput c.val vd ty sr e.sat (List.zipWith (fun x (y : Word32 × Word32) => vElem kind x y.1 y.2) ((s.core c.val).vget va ty)
      ((match rs with | some w => List.replicate (vCount ty) w | none => (s.core c.val).vget vb ty).zip ((s.core c.val).vget vc ty)))).completed c id 0 := by
  unfold State.runElem
  rw [op]
  dsimp only
  rw [if_neg (fun h => h rfl)]
  rfl

theorem State.runVfn_done {vd va tbl : Nat} {deriv ty sr : Bool} (op : e.op = .vfn vd va tbl deriv ty sr) :
    s.runVfn deriv c.val id e = if 16 ≤ tbl then s.finishUndef c.val id e
      else (s.vput c.val vd ty sr e.sat (((s.core c.val).vget va ty).map ((s.core c.val).tableVal tbl deriv))).completed c id 0 := by
  have same : (deriv != deriv) = false := bne_self_eq_false deriv
  unfold State.runVfn
  rw [op]
  simp only [same, Bool.false_eq_true, if_false]
  rfl

/-! ### Row units (R113, R152-R155) -/

/-- The tiles and formats that a row instruction asks for. -/
structure RowFits (kind : Nat) (d t x g : Tile) : Prop where
  dst  : d.fmt ≤ 2
  src  : t.fmt ≤ 2
  back : kind % 2 = 1 → x.fmt ≤ 2
  gain : kind < 2 → g.fmt ≤ 1
  good : ∀ z ∈ [d, t] ++ rowTiles kind x g, z.check = none

theorem RowFits.formats {kind : Nat} {d t x g : Tile} (f : RowFits kind d t x g) :
    (!(rowFmt d && rowFmt t) || (decide (kind % 2 = 1) && !rowFmt x) || (decide (kind < 2) && !gainFmt g)) = false := by
  have dst := f.dst
  have src := f.src
  have back := f.back
  have gain := f.gain
  simp only [rowFmt, gainFmt, Bool.or_eq_false_iff, Bool.not_eq_false', Bool.and_eq_true, Bool.and_eq_false_iff, decide_eq_true_eq, decide_eq_false_iff_not]
  omega

theorem RowFits.checks {kind : Nat} {d t x g : Tile} (f : RowFits kind d t x g) : ([d, t] ++ rowTiles kind x g).any (fun z => z.check.isSome) = false := by
  rw [List.any_eq_false]
  intro z mem
  rw [f.good z mem]
  exact Bool.false_ne_true

theorem State.runRow_done {kind : Nat} {td ts tx tg : TileWord} {ra rb : Word} {mode : Nat} (op : e.op = .vrow kind td ts tx tg ra rb mode)
    (fits : RowFits kind (Tile.of td) (Tile.of ts) (Tile.of tx) (Tile.of tg)) :
    let d := Tile.of td
    let t := Tile.of ts
    let x := Tile.of tx
    let g := Tile.of tg
    let cols := ([d, t] ++ rowTiles kind x g).foldl (fun n z => min n z.cols) d.cols
    let rows := min t.rows (min d.rows (if kind % 2 = 1 then x.rows else t.rows))
    let u := (List.range rows).foldl (fun (u : State) r =>
      let m := (u.core c.val).sp
      u.storeWords c.val d r 0 (mode.testBit 3) e.sat (rowOut kind mode (ra.setWidth 32) rb r (t.rowWords m r cols) (if kind % 2 = 1 then x.rowWords m r cols else [])
        (if kind < 2 then g.rowWords m 0 cols else []) (if kind < 2 ∧ g.rows > 1 then g.rowWords m 1 cols else List.replicate cols 0))) s
    (s.core c.val).badIn (t.partRanges 0 rows 0 cols ++ (if kind % 2 = 1 then x.partRanges 0 rows 0 cols else [])
        ++ (if kind < 2 then g.partRanges 0 (if kind = 0 ∧ mode.testBit 0 then 2 else 1) 0 cols else [])) = none →
      s.runRow kind c.val id e = u.completed c id (if rows < t.rows then Status.addrRange else 0) := by
  intro d t x g cols rows u good
  unfold State.runRow
  rw [op]
  dsimp only
  rw [if_neg (fun h => h rfl), if_neg (Bool.eq_false_iff.mp fits.formats), if_neg (Bool.eq_false_iff.mp fits.checks), good]
  change (if rows < t.rows then u.finishRange c.val id else u.finish c.val id 0) = _
  split
  · rfl
  · rfl

end

/-- Settles O25: each vector instruction is the model's function of the operands that its entry holds. -/
theorem vectorInstructionsComplete : Obligations.VectorInstructionsComplete := by
  unfold Obligations.VectorInstructionsComplete
  refine ⟨fun c id e vd ts ra rb ty sr s r => ⟨fun op fits plain inside good => ?_, fun op fits plain inside => ?_, fun w op fits plain inside bad => ?_,
      fun sat code nan => vLoad_nan ty sat nan, fun fits plain past => ⟨fun op => ?_, fun op => ?_⟩, fun block _ op => ?_⟩,
    fun c id e vd va vb vc mode tbl rs ty sr s r => ⟨fun op => ?_, fun op => ?_, fun op => ?_, fun op => ?_, fun op => ?_, fun op => ?_,
      fun op => ⟨fun low => ?_, fun mid => ?_, fun high => ?_⟩, fun op => ⟨fun low => ?_, fun high => ?_⟩,
      fun op => ⟨fun low => ?_, fun high => ?_⟩, fun op => ⟨fun low => ?_, fun high => ?_⟩⟩,
    fun c id e n ts s r op => ⟨fun low high aligned inside good => ⟨fun ok => ?_, fun bad => ?_⟩, fun out => ?_, fun low high out => ?_, fun k m d x high off => ?_⟩,
    fun c id e kind td ts tx tg ra rb mode s r op dst src back gain checks good => ?_⟩
  -- VLD and VST
  · refine congrArg Host.Outcome.next ((r.run _ (by rw [op]; rfl)).trans ?_)
    simp only [op, vTile_good fits plain inside, Tile.esz, good]
    rfl
  · refine congrArg Host.Outcome.next ((r.run _ (by rw [op]; rfl)).trans ?_)
    simp only [op, vTile_good fits plain inside]
    rfl
  · refine congrArg Host.Outcome.next ((r.run _ (by rw [op]; rfl)).trans ?_)
    simp only [op, vTile_good fits plain inside, Tile.esz, bad]
    rfl
  · refine congrArg Host.Outcome.next ((r.run _ (by rw [op]; rfl)).trans ?_)
    simp only [op, vTile_past fits plain past]
    rfl
  · refine congrArg Host.Outcome.next ((r.run _ (by rw [op]; rfl)).trans ?_)
    simp only [op, vTile_past fits plain past]
    rfl
  · refine congrArg Host.Outcome.next ((r.run _ (by rw [op]; rfl)).trans ?_)
    simp only [op, vTile_block ra block]
    rfl
  -- the six element-wise instructions
  iterate 6 exact congrArg Host.Outcome.next ((r.run _ (by rw [op]; rfl)).trans (State.runElem_done op))
  -- conversions
  · refine congrArg Host.Outcome.next ((r.run _ (by rw [op]; rfl)).trans ?_)
    simp only [op, low, if_true]
    rfl
  · refine congrArg Host.Outcome.next ((r.run _ (by rw [op]; rfl)).trans ?_)
    simp only [op]
    rw [if_neg (by omega), if_pos (by omega)]
    rfl
  · refine congrArg Host.Outcome.next ((r.run _ (by rw [op]; rfl)).trans ?_)
    simp only [op]
    rw [if_neg (by omega), if_neg (by omega)]
    rfl
  -- reductions
  · refine congrArg Host.Outcome.next ((r.run _ (by rw [op]; rfl)).trans ?_)
    simp only [op]
    rw [if_neg (by omega)]
    rfl
  · refine congrArg Host.Outcome.next ((r.run _ (by rw [op]; rfl)).trans ?_)
    simp only [op]
    rw [if_pos (by omega)]
    rfl
  -- function tables
  · exact congrArg Host.Outcome.next (((r.run _ (by rw [op]; rfl)).trans (State.runVfn_done op)).trans (if_neg (by omega)))
  · exact congrArg Host.Outcome.next (((r.run _ (by rw [op]; rfl)).trans (State.runVfn_done op)).trans (if_pos high))
  · exact congrArg Host.Outcome.next (((r.run _ (by rw [op]; rfl)).trans (State.runVfn_done op)).trans (if_neg (by omega)))
  · exact congrArg Host.Outcome.next (((r.run _ (by rw [op]; rfl)).trans (State.runVfn_done op)).trans (if_pos high))
  · refine congrArg Host.Outcome.next ((r.run _ (by rw [op]; rfl)).trans ?_)
    simp only [op]
    rw [if_neg (by omega), if_neg (by omega), good]
    exact congrArg (fun u : State => u.completed c id 0) (State.modCore_congr (if_pos ok))
  · refine congrArg Host.Outcome.next ((r.run _ (by rw [op]; rfl)).trans ?_)
    simp only [op]
    rw [if_neg (by omega), if_neg (by omega), good]
    exact congrArg (fun u : State => u.completed c id 0) (State.modCore_congr (if_neg (Bool.eq_false_iff.mp bad)))
  · refine congrArg Host.Outcome.next ((r.run _ (by rw [op]; rfl)).trans ?_)
    simp only [op]
    rw [if_pos out]
    rfl
  · refine congrArg Host.Outcome.next ((r.run _ (by rw [op]; rfl)).trans ?_)
    simp only [op]
    rw [if_neg (by omega), if_pos out]
    rfl
  · unfold Core.tableVal
    rw [if_neg (by omega), off, if_neg Bool.false_ne_true]
  -- row units
  · have fits : RowFits kind (Tile.of td) (Tile.of ts) (Tile.of tx) (Tile.of tg) := ⟨dst, src, back, gain, checks⟩
    refine ⟨?_, ?_, ?_, ?_⟩
    all_goals
      rintro rfl
      exact congrArg Host.Outcome.next ((r.run _ (by rw [op]; rfl)).trans (State.runRow_done op fits good))

end Sys2Proof.Machine
end

section
/-! A vector register takes the canonical NaN for every NaN, so it does not read back what was written (R27, R143). -/

namespace Sys2Proof.Machine

/-- A NaN of FP32 other than the canonical one is written as the canonical one (R27). -/
theorem vConv_fp32_nan (sr sat : Bool) (d : BitVec 16) {w : Word32} (nan : (f32 w).isNan = true) : vConv Fmt.fp32 sr sat d w = f32Nan.toNat := by
  unfold vConv
  rw [if_pos rfl, if_pos nan]

/-- A list of one NaN converts to a list of the canonical one. -/
theorem State.vConvAll_nan (s : State) (sr sat : Bool) (n : Nat) {w : Word32} (nan : (f32 w).isNan = true) :
    s.vConvAll Fmt.fp32 sr sat (List.replicate n w) = (List.replicate n f32Nan.toNat, if sr then { s with freeCtr := s.freeCtr + n } else s) := by
  have codes : ((List.replicate n w).zipIdx).map (fun p => vConv Fmt.fp32 sr sat (Config.stochastic (s.freeCtr + p.2)) p.1) = List.replicate n f32Nan.toNat := by
    refine List.eq_replicate_iff.mpr ⟨by rw [List.length_map, List.length_zipIdx, List.length_replicate], fun b mem => ?_⟩
    obtain ⟨p, found, rfl⟩ := List.mem_map.mp mem
    have value : p.1 = w := List.eq_of_mem_replicate (List.fst_mem_of_mem_zipIdx found)
    rw [value]
    exact vConv_fp32_nan sr sat _ nan
  unfold State.vConvAll
  rw [codes, List.length_replicate]

/-- Two NaNs leave the same register. -/
theorem State.vput_nan (s : State) (c r : Nat) (sr sat : Bool) (n : Nat) {v w : Word32} (hv : (f32 v).isNan = true) (hw : (f32 w).isNan = true) :
    s.vput c r true sr sat (List.replicate n v) = s.vput c r true sr sat (List.replicate n w) := by
  unfold State.vput
  rw [vFmt, if_pos rfl, State.vConvAll_nan s sr sat n hv, State.vConvAll_nan s sr sat n hw]

/-- Refutes O26: 256 elements 0xFFFF_FFFF and 256 canonical NaNs leave the same register, so one of the two lists does not
read back; the register holds the canonical NaN of R27. -/
theorem not_vectorRegistersReadBack : ¬ Obligations.VectorRegistersReadBack := by
  unfold Obligations.VectorRegistersReadBack
  intro h
  obtain ⟨negative, -⟩ := h 0 0 1 false false (List.replicate 256 0xFFFFFFFF) State.reset (List.length_replicate ..)
  obtain ⟨canonical, -⟩ := h 0 0 1 false false (List.replicate 256 f32Nan) State.reset (List.length_replicate ..)
  rw [State.vput_nan State.reset _ 0 false false 256 (v := 0xFFFFFFFF) (w := f32Nan) (by decide) (by decide), canonical] at negative
  exact absurd (congrArg (fun l => l.headD 0) negative) (by decide)

end Sys2Proof.Machine
end

section
/-! The sampling unit: candidate lists, tokens and speculative acceptance (R114-R116, R211-R213). -/

namespace Sys2Proof.Machine

/-- A bound value may be put in the place of its name, one binding at a time. -/
theorem of_have {α β : Sort _} {a : α} {F : α → β} {x : β} (h : F a = x) : (have t := a; F t) = x := h

section
variable {s : State} {c : CoreId} {id : Nat} {e : Entry}

/-! ### Draws (R211, R212) -/

theorem lookup_put_same {α : Type} (t : Tab α) (k : Nat) (v : α) : (t.put k v).lookup k = some v := by
  induction t with
  | nil => simp [Tab.put]
  | cons p r ih =>
    obtain ⟨a, b⟩ := p
    unfold Tab.put
    split
    · simp
    · split
      · simp
      · next apart =>
        have other : (k == a) = false := by simpa using apart
        rw [List.lookup_cons, other]
        exact ih

theorem State.kvTouch_seq (s : State) (q : Nat) : s.kvTouch.seq? q = s.seq? q := rfl

theorem State.setSeq_seq (s : State) (q : Nat) (x : KvSeq) : (s.setSeq q x).seq? q = some x := lookup_put_same s.kvSeqs q x

theorem State.setSeq_kvDisabled (s : State) (q : Nat) (x : KvSeq) : (s.setSeq q x).kvDisabled = s.kvDisabled := rfl

/-- A draw of a sequence moves its counter on by 1 and changes nothing else of it. -/
theorem State.draw_some {q : Nat} {x : KvSeq} (enabled : s.kvDisabled = false) (found : s.seq? q = some x) :
    ∃ v, s.draw q = some (v, x.counter, s.setSeq q { x with counter := x.counter + 1 }) := by
  unfold State.draw
  rw [enabled, if_neg Bool.false_ne_true, found]
  exact ⟨_, rfl⟩

theorem State.draw_none {q : Nat} (gone : s.seq? q = none) : s.draw q = none := by
  unfold State.draw
  rw [gone, ite_self]

/-- The first draw of an acceptance finds no sequence. -/
theorem State.acceptLoop_none {q : Nat} (ps qs : List (List Cand)) (toks : List Word32) (a : Nat) (gone : s.seq? q = none) :
    s.acceptLoop q ps qs toks a = none := by
  cases toks with
  | nil => unfold State.acceptLoop; rw [State.draw_none gone]; rfl
  | cons t rest => unfold State.acceptLoop; rw [State.draw_none gone]; rfl

/-- From draft `a` on, an acceptance takes some of the drafts that are left and draws once for each that it tests and once for the next token. -/
theorem State.acceptLoop_draws {q : Nat} (ps qs : List (List Cand)) (toks : List Word32) : ∀ (s : State) (a : Nat) (x : KvSeq), s.kvDisabled = false → s.seq? q = some x →
    ∃ b tok u y, s.acceptLoop q ps qs toks a = some (a + b, tok, u) ∧ b ≤ toks.length ∧ u.seq? q = some y
      ∧ y.counter = x.counter + BitVec.ofNat 64 (if b = toks.length then b + 1 else b + 2) ∧ y.len = x.len := by
  induction toks with
  | nil =>
    intro s a x enabled found
    obtain ⟨v, drawn⟩ := State.draw_some enabled found
    refine ⟨0, (pick v (usedCands (ps.getD a []))).1, s.setSeq q { x with counter := x.counter + 1 }, { x with counter := x.counter + 1 }, ?_, Nat.le_refl 0, State.setSeq_seq s q _, ?_, rfl⟩
    rotate_left
    · exact congrArg (x.counter + BitVec.ofNat 64 ·) (if_pos rfl).symm
    unfold State.acceptLoop
    rw [drawn]
    rfl
  | cons t rest ih =>
    intro s a x enabled found
    obtain ⟨v, drawn⟩ := State.draw_some enabled found
    unfold State.acceptLoop
    rw [drawn]
    simp only [Option.bind_eq_bind, Option.bind_some]
    split
    · -- the draft is refused: one more draw, for the next token
      obtain ⟨w, again⟩ := State.draw_some (s := s.setSeq q { x with counter := x.counter + 1 }) ((State.setSeq_kvDisabled s q _).trans enabled) (State.setSeq_seq s q _)
      rw [again]
      refine ⟨0, _, _, _, rfl, Nat.zero_le _, State.setSeq_seq _ q _, ?_, rfl⟩
      rw [if_neg (by simp), BitVec.add_assoc]
      rfl
    · obtain ⟨b, tok, u, y, loop, few, at_, counter, len⟩ := ih (s.setSeq q { x with counter := x.counter + 1 }) (a + 1) _ ((State.setSeq_kvDisabled s q _).trans enabled) (State.setSeq_seq s q _)
      refine ⟨b + 1, tok, u, y, loop.trans (by rw [Nat.add_right_comm, Nat.add_assoc]), by simpa using few, at_, ?_, len⟩
      rw [counter, List.length_cons, BitVec.add_assoc]
      congr 1
      by_cases all : b = rest.length
      · rw [if_pos all, if_pos (by omega)]
        exact (BitVec.ofNat_add ..).symm.trans (by rw [Nat.add_comm])
      · rw [if_neg all, if_neg (by omega)]
        exact (BitVec.ofNat_add ..).symm.trans (by rw [Nat.add_comm])

end

/-- Settles O27: slices and merges are the model's lists, and a run that picks an entry is the pick. -/
theorem samplingWritesListsAndTokens : Obligations.SamplingWritesListsAndTokens := by
  unfold Obligations.SamplingWritesListsAndTokens
  intro c id e ts ra rb rc rd p s r t k block fits good
  refine ⟨fun op plain clean => ?_, fun op lists record clean => ⟨fun cold => ?_, fun warm waits => ?_, fun warm free gone => ?_, fun u ctr s' warm free drawn => ?_,
    fun u a found => congrArg (fun o : Option Cand => o.getD _) found⟩⟩
  · refine congrArg Host.Outcome.next ((r.run _ (by rw [op]; rfl)).trans ?_)
    simp only [op]
    rw [if_neg (Nat.not_lt.mpr plain), good, block]
    dsimp only
    rw [fits, clean]
    rfl
  all_goals
    refine congrArg Host.Outcome.next ((r.run _ (by rw [op]; rfl)).trans ?_)
    have room : (!(listsFit t t.rows && spFits rc 16 && spFits rd 2048)) = false := by rw [lists, record, fits]; rfl
    rw [op]
    refine of_have (of_have ?_)
    rw [good, block]
    refine (if_neg (Bool.eq_false_iff.mp room)).trans ?_
    rw [clean]
    refine of_have ?_
  · exact if_pos cold
  · rw [warm, if_neg Bool.false_ne_true]
    exact if_pos waits
  · rw [warm, if_neg Bool.false_ne_true, free, if_neg Bool.false_ne_true, gone]
    rfl
  · rw [warm, if_neg Bool.false_ne_true, free, if_neg Bool.false_ne_true, drawn]
    rfl

/-- Settles O28: induction on the drafts that are left, each tested by one draw. -/
theorem acceptanceCountsItsDraws : Obligations.AcceptanceCountsItsDraws := by
  unfold Obligations.AcceptanceCountsItsDraws
  constructor
  · intro c id e ts tq ra rb rc rd s r op t w k n loop tgood wgood tlists wlists drafts record clean
    refine ⟨fun waits => ?_, fun free gone => ?_, fun a tok u free found => ?_⟩
    all_goals
      refine congrArg Host.Outcome.next ((r.run _ (by rw [op]; rfl)).trans ?_)
      have room : (!(listsFit t (n + 1) && listsFit w n && spFits rb (4 * n) && spFits rd 16)) = false := by rw [tlists, wlists, drafts, record]; rfl
      have checks : t.check.orElse (fun _ => w.check) = none := by rw [tgood, wgood]; rfl
      simp only [op]
      rw [checks]
      dsimp only
      rw [room, if_neg Bool.false_ne_true, clean]
      dsimp only
    · exact if_pos waits
    · rw [free, if_neg Bool.false_ne_true, State.acceptLoop_none _ _ _ _ gone]
      rfl
    · dsimp only [loop, n, k, t, w] at found
      rw [free, if_neg Bool.false_ne_true, found]
      dsimp only
      cases u.seq? ra.toNat <;> rfl
  · intro s q x ps qs toks enabled found
    obtain ⟨b, tok, u, y, loop, few, at_, counter, len⟩ := State.acceptLoop_draws ps qs toks s 0 x enabled found
    rw [Nat.zero_add] at loop
    exact ⟨b, tok, u, loop, few, y, at_, counter, len⟩

end Sys2Proof.Machine
end

section
/-! A command read that fails while the queue of faults is full: its record is written at once, and its interrupt leaves
with it (R372, R415, R416). -/

namespace Sys2Proof.Machine

/-- Queue 0 has a command to read, the queue of faults is full, S0 records are enabled and no vector is masked. -/
def readAmongFaults : State :=
  { ((((State.reset.wr Reg.GLB_BOOT_STAGE 4).wr (Reg.SCHED_Q_RING_ENABLE 0) 1).wr (Reg.SCHED_Q_STATE_TAIL 0) 1).wr Reg.ERR_CTL_S0_EN 1).wr (Reg.MSIX_CTRL 0) 0 with
    faultq := List.replicate 256 (Fault_.blank 0 Status.ok 0x0801) }

/-- How many messages have left for the host after a step. -/
def sentToHost (o : Host.Outcome State Fault Refusal) : Nat :=
  match o with
  | .next u => u.hostOut.length
  | _ => 0

/-- The read fetches its slot, fails, and its record's interrupt leaves as a second message. -/
theorem commandRead_failed_interrupts : sentToHost (exec (.commandRead 0 .failed) readAmongFaults) = 2 := by decide +kernel

/-- Refutes O34: where the queue of faults is full, the S0 record of a failed read is written in the same step, so that the
interrupt of R415 leaves after the fetch and the host gets more than the slot's address. -/
theorem not_doorbellsReadsAndEntries : ¬ Obligations.DoorbellsReadsAndEntries := by
  unfold Obligations.DoorbellsReadsAndEntries
  rintro ⟨reads, -⟩
  obtain ⟨-, read, -⟩ := reads 0 16 0 readAmongFaults (by decide +kernel) (by decide +kernel)
  obtain ⟨-, u, run, -, -, out⟩ := read (by decide +kernel) (by decide +kernel)
  have two : sentToHost (.next u) = 2 := run ▸ commandRead_failed_interrupts
  have one : u.hostOut.length = 1 := by
    rw [out, List.length_append]
    decide +kernel
  exact absurd (one.symm.trans two) (by decide)

end Sys2Proof.Machine
end

section
/-! What the abandoning of a task's dispatched work leaves alone (R231, R232, R417, R428), and the host's NOP, BARRIER,
KILL and SUBMIT (R219-R223). -/

namespace Sys2Proof.Machine

/-! ### The parts of the state that an abandoned core reaches (R417) -/

/-- The state s with those parts taken from t that the abandoning of a core reaches. -/
def State.withAbandoned (s t : State) : State :=
  { s with
    regs := t.regs, sub := t.sub, freeCtr := t.freeCtr, cores := t.cores, hm := t.hm, hmBad := t.hmBad, lm := t.lm, cache := t.cache,
    kvSeqs := t.kvSeqs, kvPages := t.kvPages, txns := t.txns, c0Held := t.c0Held, winUse := t.winUse, refused := t.refused,
    waiters := t.waiters, collWait := t.collWait }

/-- From s the state comes to t by changing only what the abandoning of cores reaches. -/
structure State.OnlyAbandons (s t : State) : Prop where
  eq : t = s.withAbandoned t

theorem State.OnlyAbandons.refl (s : State) : s.OnlyAbandons s := ⟨rfl⟩

theorem State.OnlyAbandons.trans {s t u : State} (a : s.OnlyAbandons t) (b : t.OnlyAbandons u) : s.OnlyAbandons u := by
  have step := congrArg (fun x => State.withAbandoned x u) a.eq
  exact ⟨b.eq.trans step⟩

theorem State.onlyAbandons_lit (s : State) (regs sub : Tab Nat) (freeCtr : Nat) (cores : Vector Core 48) (hm : Mem) (hmBad : List Nat) (lm : Mem)
    (cache : List CLine) (kvSeqs : Tab KvSeq) (kvPages : List KvPage) (txns : List Txn) (c0Held : List (Nat × Nat × Packet)) (winUse : Tab Nat)
    (refused : List Parked) (waiters : List Waiter) (collWait : List (Nat × Nat)) :
    s.OnlyAbandons { s with
      regs := regs, sub := sub, freeCtr := freeCtr, cores := cores, hm := hm, hmBad := hmBad, lm := lm, cache := cache, kvSeqs := kvSeqs,
      kvPages := kvPages, txns := txns, c0Held := c0Held, winUse := winUse, refused := refused, waiters := waiters, collWait := collWait } := ⟨rfl⟩

theorem State.OnlyHm.onlyAbandons {s t : State} (h : s.OnlyHm t) : s.OnlyAbandons t := by
  rw [h.eq]
  exact s.onlyAbandons_lit ..

theorem State.modCore_onlyAbandons (s : State) (c : Nat) (f : Core → Core) : s.OnlyAbandons (s.modCore c f) := s.onlyAbandons_lit ..

theorem State.wr_onlyAbandons (s : State) (f : Fld) (v : Nat) : s.OnlyAbandons (s.wr f v) := s.onlyAbandons_lit ..

theorem State.bumpK_onlyAbandons (s : State) (f : Fld) (n : Nat) : s.OnlyAbandons (s.bumpK f n) := s.onlyAbandons_lit ..

theorem State.dropAhead_onlyAbandons (s : State) (c : Nat) : s.OnlyAbandons (s.dropAhead c) := s.onlyAbandons_lit ..

theorem State.smudge_onlyAbandons (s : State) (g space off n : Nat) : s.OnlyAbandons (s.smudge g space off n) := by
  unfold State.smudge
  split
  · exact s.onlyAbandons_lit ..
  · exact (s.kvSpoil_onlyHm off n).onlyAbandons.trans (State.onlyAbandons_lit ..)
  · exact s.modCore_onlyAbandons ..

/-- With no check failure, a filler that ends only counts its cycles. -/
theorem State.endFiller_onlyAbandons (s : State) (c i : Nat) : s.OnlyAbandons (s.endFiller c i []) := by
  unfold State.endFiller
  rw [residues_nil]
  exact iteInduction (motive := s.OnlyAbandons) (fun _ => (s.bumpK_onlyAbandons _ _).trans (State.modCore_onlyAbandons ..)) (fun _ => .refl s)

theorem State.endFillers_onlyAbandons (s : State) (c : Nat) : s.OnlyAbandons (s.endFillers c []) :=
  foldl_keeps s.OnlyAbandons _ (fun t i h => h.trans (t.endFiller_onlyAbandons c i)) _ s (.refl s)

theorem State.dropHeld_onlyAbandons (s : State) (c : Nat) : s.OnlyAbandons (s.dropHeld c) := by
  unfold State.dropHeld
  dsimp only
  refine foldl_keeps s.OnlyAbandons _ (fun t x h => ?_) _ _ (s.onlyAbandons_lit ..)
  exact iteInduction (motive := s.OnlyAbandons) (fun _ => h.trans (t.onlyAbandons_lit ..)) (fun _ => h)

theorem State.abandonCore_onlyAbandons (s : State) (c : Nat) : s.OnlyAbandons (s.abandonCore c) := by
  have fresh : s.OnlyAbandons s.freshJunk.2 := s.onlyAbandons_lit ..
  have ahead := fresh.trans (State.dropAhead_onlyAbandons _ c)
  unfold State.abandonCore
  dsimp only
  refine State.OnlyAbandons.trans ?_ (State.dropHeld_onlyAbandons _ c)
  refine State.OnlyAbandons.trans ?_ (State.onlyAbandons_lit ..)
  refine State.OnlyAbandons.trans ?_ (State.modCore_onlyAbandons _ c _)
  refine State.OnlyAbandons.trans ?_ (State.endFillers_onlyAbandons _ c)
  refine foldl_keeps s.OnlyAbandons _ (fun t e h => ?_) _ _ ahead
  exact foldl_keeps s.OnlyAbandons _ (fun u d h => h.trans (u.smudge_onlyAbandons ..)) _ t h

theorem State.stopSave_onlyAbandons (s : State) (t : Nat) : s.OnlyAbandons (s.stopSave t) := by
  unfold State.stopSave
  split
  · exact iteInduction (motive := s.OnlyAbandons)
      (fun _ => foldl_keeps s.OnlyAbandons _ (fun u c h => h.trans (u.modCore_onlyAbandons ..)) _ s (.refl s)) (fun _ => .refl s)
  · exact .refl s

theorem State.abandonTask_onlyAbandons (s : State) (t : Nat) : s.OnlyAbandons (s.abandonTask t) :=
  foldl_keeps s.OnlyAbandons _ (fun u c h => h.trans (u.abandonCore_onlyAbandons c)) _ _ (s.stopSave_onlyAbandons t)

@[simp] theorem State.abandonTask_tasks (s : State) (t : Nat) : (s.abandonTask t).tasks = s.tasks := (congrArg State.tasks (s.abandonTask_onlyAbandons t).eq :)

@[simp] theorem State.abandonTask_queues (s : State) (t : Nat) : (s.abandonTask t).queues = s.queues := (congrArg State.queues (s.abandonTask_onlyAbandons t).eq :)

/-! ### Queues (R218, R219) -/

theorem State.modQueue_modQueue (s : State) {q : Nat} (f g : Queue → Queue) (h : q < 64) : (s.modQueue q f).modQueue q g = s.modQueue q (fun x => g (f x)) := by
  have value : (s.modQueue q f).queue q = f (s.queue q) := s.queue_modQueue q f h
  have chosen : (s.modQueue q f).modQueue q g = (s.modQueue q f).modQueue q (fun _ => g (f (s.queue q))) := by
    rw [← value]
    rfl
  have entries : (s.queues.setIfInBounds q (f (s.queue q))).setIfInBounds q (g (f (s.queue q))) = s.queues.setIfInBounds q (g (f (s.queue q))) := by
    ext i hi : 1
    rw [Vector.getElem_setIfInBounds, Vector.getElem_setIfInBounds, Vector.getElem_setIfInBounds]
    split <;> rfl
  exact chosen.trans (congrArg (fun v => { s with queues := v }) entries)

theorem State.cmdOver_eq {s : State} {q : Nat} (known : q < 64) (free : (s.queue q).barrier = none) (seq : Nat) :
    s.cmdOver q seq = (s.modQueue q (fun x => { x with open_ := x.open_.filter (fun n => n != seq) }), none) := by
  have still : ((s.modQueue q (fun x => { x with open_ := x.open_.filter (fun n => n != seq) })).queue q).barrier = none := by
    rw [State.queue_modQueue _ _ _ known]
    exact free
  unfold State.cmdOver
  dsimp only
  rw [still]

/-- A command of an enabled queue without a BARRIER completes with its own status. -/
theorem State.cmdDone_eq {s : State} {q : Nat} (known : q < 64) (enabled : s.qEnabled q = true) (free : (s.queue q).barrier = none) (seq tag status : Nat) :
    s.cmdDone q seq tag status = s.modQueue q (fun x => { x with waiting := x.waiting ++ [cmdEntry tag status], open_ := x.open_.filter (fun n => n != seq) }) := by
  have due : s.cplDue q (cmdEntry tag status) = s.modQueue q (fun x => { x with waiting := x.waiting ++ [cmdEntry tag status] }) := if_pos enabled
  have still : ((s.modQueue q (fun x => { x with waiting := x.waiting ++ [cmdEntry tag status] })).queue q).barrier = none := by
    rw [State.queue_modQueue _ _ _ known]
    exact free
  unfold State.cmdDone
  rw [due, State.cmdOver_eq known still]
  exact State.modQueue_modQueue _ _ _ known

theorem State.acceptedOp_some {s : State} {q op : Nat} {c : HostCmd} (alive : s.failed = false) (accepted : (s.queue q).accepted = some c)
    (code : leNat (c.bytes.take 1) = op) : s.acceptedOp q op = some c := by
  unfold State.acceptedOp
  rw [accepted]
  exact if_pos ⟨alive, code⟩

theorem State.acceptedOp_none {s : State} {q op : Nat} {c : HostCmd} (accepted : (s.queue q).accepted = some c)
    (code : leNat (c.bytes.take 1) ≠ op) : s.acceptedOp q op = none := by
  unfold State.acceptedOp
  rw [accepted]
  exact if_neg fun h => code h.2

/-! ### KILL (R219, R231) -/

/-- A task that KILL has ended. -/
def Task.afterKill (x : Task) : Task := { x with killed := x.jobFatal.isNone, abandoned := true, state := x.state.halted }

theorem State.killTask_tasks (s : State) (n : Nat) : (s.killTask n).tasks = s.tasks.map (fun x => if x.num == n then x.afterKill else x) := by
  unfold State.killTask State.modTask
  dsimp only
  rw [State.abandonTask_tasks]
  rfl

theorem State.killTask_nums (s : State) (n : Nat) : (s.killTask n).tasks.map Task.num = s.tasks.map Task.num := by
  rw [State.killTask_tasks, List.map_map]
  refine List.map_congr_left fun x _ => ?_
  dsimp only [Function.comp]
  split <;> rfl

theorem State.killTask_queues (s : State) (n : Nat) : (s.killTask n).queues = s.queues := s.abandonTask_queues n

/-- The task is abandoned and ends as by KILL or by a job-fatal fault. -/
def Task.gone (x : Task) : Prop := x.abandoned = true ∧ (x.killed = true ∨ x.jobFatal.isSome = true)

theorem Task.afterKill_gone (x : Task) : x.afterKill.gone := by
  refine ⟨rfl, ?_⟩
  unfold Task.afterKill
  cases x.jobFatal
  · exact .inl rfl
  · exact .inr rfl

/-- Killing one task after another ends each of them, and those that are gone stay so. -/
theorem State.killAll_gone (l : List Task) (s : State) (D : List Nat) (before : ∀ x ∈ s.tasks, x.num ∈ D → x.gone) :
    ∀ x ∈ (l.foldl (fun s t => s.killTask t.num) s).tasks, x.num ∈ D ∨ x.num ∈ l.map Task.num → x.gone := by
  induction l generalizing s D with
  | nil =>
    rintro x mem (h | h)
    · exact before x mem h
    · cases h
  | cons t l ih =>
    intro x mem named
    refine ih (s.killTask t.num) (t.num :: D) ?_ x mem ?_
    · intro y hy listed
      rw [State.killTask_tasks] at hy
      obtain ⟨z, hz, rfl⟩ := List.mem_map.mp hy
      by_cases same : (z.num == t.num) = true
      · rw [if_pos same]
        exact z.afterKill_gone
      · rw [if_neg same] at listed ⊢
        exact before z hz ((List.mem_cons.mp listed).resolve_left fun h => same (beq_iff_eq.mpr h))
    · simp only [List.map_cons, List.mem_cons] at named ⊢
      tauto

theorem State.killAll_nums (l : List Task) (s : State) : (l.foldl (fun s t => s.killTask t.num) s).tasks.map Task.num = s.tasks.map Task.num :=
  foldl_same (fun u : State => u.tasks.map Task.num) _ (fun u t => u.killTask_nums t.num) l s

theorem State.killAll_queues (l : List Task) (s : State) : (l.foldl (fun s t => s.killTask t.num) s).queues = s.queues :=
  foldl_same State.queues _ (fun u t => u.killTask_queues t.num) l s

/-! ### SUBMIT (R222, R223) -/

/-- The state in which an accepted SUBMIT reads its image. -/
def State.submitting (s : State) (q num : Nat) : State :=
  { s.modQueue q (fun x => { x with accepted := none }) with nextTask := num % 65535 + 1, nextSeq := s.nextSeq + 1 }

theorem State.imageWaits_elsewhere {s : State} {img : Word} (away : s.isHere img = false) : s.imageWaits [] img = false := by
  have part (off n : Nat) : s.partWaits img off n = false := by rw [State.partWaits, away, Bool.false_and]
  unfold State.imageWaits
  simp only [part, Bool.or_self, Bool.false_or]
  split <;> rfl

theorem State.readImage_elsewhere {s : State} {img : Word} (away : s.isHere img = false) : s.readImage [] img = .refused s := by
  unfold State.readImage
  simp only [away, Bool.false_and, Bool.not_false, if_true]

theorem enable_beyondRecords {q : Nat} (known : q < 64) : (Reg.SCHED_Q_RING_ENABLE q).BeyondRecords := by
  refine ⟨fun f mem => ?_⟩
  simp only [recordFields, List.mem_cons, List.not_mem_nil, or_false] at mem
  rcases mem with rfl | rfl | rfl | rfl | rfl
  all_goals
    simp only [Fld.key, Reg.SCHED_Q_RING_ENABLE, Reg.SCHED_Q_RING, Reg.ERR_STAT_S0_COUNT, Reg.ERR_STAT_LOST, Reg.ERR_STAT, Reg.ERR_PTR_TAIL, Reg.ERR_PTR,
      Reg.HOST_IRQ_CAUSE_ERR, Reg.HOST_IRQ_CAUSE, Reg.MSIX_PBA]
    omega

/-- The state in which a refused SUBMIT's entry falls due. -/
def State.refusing (s : State) (t : Task) (img : Word) : State :=
  (s.bump Reg.SCHED_STAT_REFUSED 1).raise { Fault_.blank 0 Status.addrRange 0x0801 with
    task := t.num, job := t.job, addr := img, info0 := BitVec.ofNat 64 (gOff img) }

theorem State.refusing_queue (s : State) (t : Task) (img : Word) (q : Nat) : (s.refusing t img).queue q = s.queue q :=
  congrArg (fun v => v.getD q Queue.reset) (congrArg State.queues ((s.bump Reg.SCHED_STAT_REFUSED 1).raise_onlyRecords _).eq :)

theorem State.refusing_qEnabled (s : State) (t : Task) (img : Word) {q : Nat} (known : q < 64) : (s.refusing t img).qEnabled q = s.qEnabled q := by
  have same : (s.refusing t img).rd (Reg.SCHED_Q_RING_ENABLE q) = s.rd (Reg.SCHED_Q_RING_ENABLE q) := by
    refine (State.raise_rd _ _ (enable_beyondRecords known)).trans (State.bump_rd_ne _ _ ?_)
    simp only [Fld.key, Reg.SCHED_Q_RING_ENABLE, Reg.SCHED_Q_RING, Reg.SCHED_STAT_REFUSED, Reg.SCHED_STAT]
    omega
  unfold State.qEnabled State.rdb
  rw [same]

theorem State.refusing_tasks (s : State) (t : Task) (img : Word) : (s.refusing t img).tasks = s.tasks := State.raise_tasks _ _

theorem State.refusing_rd (s : State) (t : Task) (img : Word) :
    (s.refusing t img).rd Reg.SCHED_STAT_REFUSED = min (s.rd Reg.SCHED_STAT_REFUSED + 1) (2 ^ Reg.SCHED_STAT_REFUSED.w - 1) :=
  (State.raise_rd _ _ ⟨by decide⟩).trans (s.rd_bump _ 1)

/-- A SUBMIT is refused: counted, recorded, and its final entry falls due (R222). -/
def State.refuseSubmit (s : State) (t : Task) (img : Word) : State := (s.refusing t img).finalEntry t (t.refusedEntry Status.addrRange)

/-- The final entry of a task whose queue is enabled and waits for no BARRIER. -/
theorem State.finalEntry_eq {s : State} {t : Task} (known : t.queue < 64) (enabled : s.qEnabled t.queue = true) (free : (s.queue t.queue).barrier = none) (c : Cpl) :
    s.finalEntry t c = s.modQueue t.queue (fun x => { x with waiting := x.waiting ++ [c], open_ := x.open_.filter (fun n => n != t.qseq) }) := by
  have due : s.cplDue t.queue c = s.modQueue t.queue (fun x => { x with waiting := x.waiting ++ [c] }) := if_pos enabled
  have still : ((s.modQueue t.queue (fun x => { x with waiting := x.waiting ++ [c] })).queue t.queue).barrier = none := by
    rw [State.queue_modQueue _ _ _ known]
    exact free
  unfold State.finalEntry
  simp only [enabled, Bool.not_true, Bool.false_eq_true, if_false]
  rw [due, State.cmdOver_eq known still]
  exact State.modQueue_modQueue _ _ _ known

theorem State.refuseSubmit_effect (s : State) {t : Task} (img : Word) (known : t.queue < 64) (enabled : s.qEnabled t.queue = true)
    (free : (s.queue t.queue).barrier = none) :
    (s.refuseSubmit t img).tasks = s.tasks
      ∧ (s.refuseSubmit t img).rd Reg.SCHED_STAT_REFUSED = min (s.rd Reg.SCHED_STAT_REFUSED + 1) (2 ^ Reg.SCHED_STAT_REFUSED.w - 1)
      ∧ ((s.refuseSubmit t img).queue t.queue).waiting = (s.queue t.queue).waiting ++ [t.refusedEntry Status.addrRange]
      ∧ ((s.refuseSubmit t img).queue t.queue).accepted = (s.queue t.queue).accepted := by
  have over_ := State.finalEntry_eq known ((s.refusing_qEnabled t img known).trans enabled)
    ((congrArg Queue.barrier (s.refusing_queue t img t.queue)).trans free) (t.refusedEntry Status.addrRange)
  rw [State.refuseSubmit, over_, State.queue_modQueue _ _ _ known, s.refusing_queue]
  exact ⟨s.refusing_tasks t img, s.refusing_rd t img, rfl, rfl⟩

/-- Settles O35: KILL by induction on the named tasks, the other commands by their one step. -/
theorem hostCommandsAndSubmits : Obligations.HostCommandsAndSubmits := by
  unfold Obligations.HostCommandsAndSubmits
  refine ⟨fun q c s alive accepted free enabled => ?_, fun q c i s u alive accepted code => ?_⟩
  · have applied : ((s.applied q.val).queue q.val).barrier = none := by
      rw [State.applied, State.queue_modQueue _ _ _ q.isLt]
      exact free
    have ends (status : Nat) : (s.applied q.val).cmdDone q.val c.seq c.tag status = s.modQueue q.val (fun x =>
        { x with accepted := none, waiting := x.waiting ++ [cmdEntry c.tag status], open_ := x.open_.filter (fun n => n != c.seq) }) := by
      rw [State.cmdDone_eq (s := s.applied q.val) q.isLt enabled applied]
      exact State.modQueue_modQueue _ _ _ q.isLt
    refine ⟨fun code => ?_, fun code earlier => ?_, fun code earlier => ?_, fun code nobody => ?_, fun code some_ => ?_, fun code => ?_⟩
    · refine congrArg Host.Outcome.next ?_
      rw [State.acceptedOp_some alive accepted code]
      exact ends Status.ok
    · refine congrArg Host.Outcome.next ?_
      rw [State.acceptedOp_some alive accepted code]
      refine (if_pos ?_).trans (ends Status.ok)
      rw [State.applied, State.queue_modQueue _ _ _ q.isLt, List.all_eq_true]
      exact fun n mem => decide_eq_true (earlier n mem)
    · refine congrArg Host.Outcome.next ?_
      rw [State.acceptedOp_some alive accepted code]
      refine (if_neg ?_).trans (State.modQueue_modQueue _ _ _ q.isLt)
      rw [State.applied, State.queue_modQueue _ _ _ q.isLt, List.all_eq_true]
      obtain ⟨n, mem, before⟩ := earlier
      intro all
      exact absurd (of_decide_eq_true (all n mem)) (by omega)
    · refine congrArg Host.Outcome.next ?_
      rw [State.acceptedOp_some alive accepted code]
      exact (if_pos (List.isEmpty_iff.mpr nobody)).trans (ends Status.addrRange)
    · generalize named_eq : (if c.field 1 1 % 2 = 1 then s.tasks.filter (fun t => t.job == c.field 6 2) else s.tasks.filter (fun t => t.num == c.field 4 2)) = named at some_ ⊢
      have run : exec (.kill q) s = .next ((named.foldl (fun s t => s.killTask t.num) (s.applied q.val)).modQueue q.val
          (fun x => { x with kills := x.kills ++ [(c.seq, c.tag, named.map Task.num)] })) := by
        refine congrArg Host.Outcome.next ?_
        rw [State.acceptedOp_some alive accepted code, ← named_eq]
        exact if_neg fun h => some_ (named_eq ▸ List.isEmpty_iff.mp h)
      have queue : (named.foldl (fun s t => s.killTask t.num) (s.applied q.val)).queue q.val = { s.queue q.val with accepted := none } :=
        (congrArg (fun v => v.getD q.val Queue.reset) (State.killAll_queues named (s.applied q.val))).trans (s.queue_modQueue _ _ q.isLt)
      refine ⟨_, run, fun t mem x hx same => ?_, State.killAll_nums named (s.applied q.val), ?_, ?_, ?_⟩
      · exact State.killAll_gone named (s.applied q.val) [] (fun _ _ h => absurd h List.not_mem_nil) x hx
          (.inr (same ▸ List.mem_map_of_mem mem))
      all_goals
        rw [State.queue_modQueue _ _ _ q.isLt, queue]
    · refine congrArg Host.Outcome.next ?_
      rw [State.acceptedOp_none accepted code]
  · intro num img t s0
    refine ⟨fun ready read here space inside here0 inside0 cores => ?_, fun waits => ?_, fun away enabled free => ?_, rfl, rfl, rfl, rfl, rfl, rfl⟩
    · refine congrArg Host.Outcome.next ?_
      have fits : (!(s0.isHere t.arg && gSpace t.arg == spHM && s0.hmRange (gOff t.arg) 1) || (t.fourMe && (u.eligible t).isEmpty)) = false := by
        rw [here0, inside0, space]
        rcases cores with any | some_
        · rw [any]; rfl
        · rw [List.isEmpty_eq_false_iff.mpr some_, Bool.and_false]; rfl
      rw [State.acceptedOp_some alive accepted code]
      refine (if_neg (Bool.eq_false_iff.mp ready)).trans ?_
      refine of_have (of_have (of_have (of_have (of_have (of_have (of_have ?_))))))
      generalize reading : State.readImage _ _ _ = r
      obtain rfl : r = .good i u := reading.symm.trans read
      exact if_neg (Bool.eq_false_iff.mp fits)
    · refine congrArg Host.Outcome.next ?_
      rw [State.acceptedOp_some alive accepted code]
      exact if_pos waits
    · have ready : s.imageWaits [] img = false := State.imageWaits_elsewhere away
      have read : s0.readImage [] img = .refused s0 := State.readImage_elsewhere away
      have run : exec (.submit q []) s = .next (s0.refuseSubmit t img) := by
        refine congrArg Host.Outcome.next ?_
        rw [State.acceptedOp_some alive accepted code]
        refine (if_neg (Bool.eq_false_iff.mp ready)).trans ?_
        refine of_have (of_have (of_have (of_have (of_have (of_have (of_have ?_))))))
        generalize reading : State.readImage _ _ _ = r
        obtain rfl : r = .refused s0 := reading.symm.trans read
        rfl
      have queue : s0.queue q.val = { s.queue q.val with accepted := none } := s.queue_modQueue q.val (fun x => { x with accepted := none }) q.isLt
      have free_ : (s0.queue q.val).barrier = none := by
        rw [queue]
        exact free
      obtain ⟨tasks, counted, waiting, left⟩ := s0.refuseSubmit_effect (t := t) img q.isLt enabled free_
      exact ⟨s0.refuseSubmit t img, run, tasks, counted, waiting.trans (congrArg (fun x : Queue => x.waiting ++ [t.refusedEntry Status.addrRange]) queue :),
        left.trans (congrArg Queue.accepted queue :)⟩

end Sys2Proof.Machine
end

section
/-! A task takes its cores, its image is copied, and it starts as its image says (R65, R224, R226). -/

namespace Sys2Proof.Machine

/-! ### Changes of cores alone -/

/-- The state s with the cores of t. -/
def State.withCores (s t : State) : State := { s with cores := t.cores }

/-- From s the state comes to t by changing only cores. -/
structure State.OnlyCores (s t : State) : Prop where
  eq : t = s.withCores t

theorem State.OnlyCores.refl (s : State) : s.OnlyCores s := ⟨rfl⟩

theorem State.OnlyCores.trans {s t u : State} (a : s.OnlyCores t) (b : t.OnlyCores u) : s.OnlyCores u := by
  have step := congrArg (fun x => State.withCores x u) a.eq
  exact ⟨b.eq.trans step⟩

theorem State.modCore_onlyCores (s : State) (c : Nat) (f : Core → Core) : s.OnlyCores (s.modCore c f) := ⟨rfl⟩

theorem State.OnlyCores.hmRead {s t : State} (h : s.OnlyCores t) (off n : Nat) : t.hmRead off n = s.hmRead off n := by
  rw [h.eq]
  rfl

theorem State.smudgeSp_onlyCores (s : State) (c g : Nat) : s.OnlyCores (s.smudgeSp c g) := ⟨rfl⟩

/-! ### Loading (R221, R226) -/

/-- What a load from HM has come to: nothing bad, only cores changed, the text in the buffers of the task's cores, the
other cores as they were. -/
structure State.Loaded (s : State) (cs : List Nat) (text : Tab Word) (r : Bad × State) : Prop where
  good  : r.1 = .none
  only  : s.OnlyCores r.2
  holds : ∀ c ∈ cs, (r.2.core c).ibuf = text
  other : ∀ c, c ∉ cs → r.2.core c = s.core c

/-- The text is copied to each core in turn. -/
theorem State.loadText (cs : List Nat) (g : Nat) (text : Tab Word) (known : ∀ c ∈ cs, c < 48) (s : State) :
    s.Loaded cs text (.none, cs.foldl (fun s c => (s.smudgeSp c g).modCore c (fun k => { k with ibuf := text })) s) := by
  induction cs generalizing s with
  | nil => exact ⟨rfl, .refl s, fun c h => absurd h List.not_mem_nil, fun c _ => rfl⟩
  | cons a cs ih =>
    have known_ := known a List.mem_cons_self
    obtain ⟨u, hu⟩ : ∃ u, u = (s.smudgeSp a g).modCore a (fun k => { k with ibuf := text }) := ⟨_, rfl⟩
    have first : s.OnlyCores u := hu ▸ (s.smudgeSp_onlyCores a g).trans (State.modCore_onlyCores ..)
    have here : (u.core a).ibuf = text := by rw [hu, State.core_modCore _ _ _ known_]
    have away (c : Nat) (apart : c ≠ a) : u.core c = s.core c := by
      rw [hu, State.core_modCore_ne _ _ _ _ apart]
      exact State.core_modCore_ne _ _ _ _ apart
    obtain ⟨-, only, holds, other⟩ := ih (fun c h => known c (List.mem_cons_of_mem _ h)) u
    rw [List.foldl_cons, ← hu]
    refine ⟨rfl, first.trans only, fun c mem => ?_, fun c out => ?_⟩
    · by_cases later : c ∈ cs
      · exact holds c later
      · obtain rfl := (List.mem_cons.mp mem).resolve_right later
        exact (congrArg Core.ibuf (other c later)).trans here
    · rw [List.mem_cons, not_or] at out
      exact (other c out.2).trans (away c out.1)

/-- A load range is copied to each core in turn; the text stays. -/
theorem State.Loaded.spWrites {s t : State} {cs : List Nat} {text : Tab Word} (h : s.Loaded cs text (.none, t)) (off : Nat) (bs : List Byte)
    (l : List Nat) (among : ∀ c ∈ l, c ∈ cs) (known : ∀ c ∈ l, c < 48) : s.Loaded cs text (.none, l.foldl (fun s c => s.spWrite c off bs) t) := by
  induction l generalizing t with
  | nil => exact h
  | cons a l ih =>
    have only : s.OnlyCores t := h.only
    obtain ⟨-, -, holds, other⟩ := h
    have here := known a List.mem_cons_self
    refine ih ⟨rfl, (only.trans (t.modCore_onlyCores a (fun k => k.spWrite off bs)) : s.OnlyCores (t.spWrite a off bs)), fun c mem => ?_, fun c out => ?_⟩ (fun c h => among c (List.mem_cons_of_mem _ h))
      (fun c h => known c (List.mem_cons_of_mem _ h))
    · by_cases same : c = a
      · subst same
        exact (congrArg Core.ibuf (State.core_modCore t c _ here)).trans (holds c mem)
      · exact (congrArg Core.ibuf (State.core_modCore_ne t a c _ same)).trans (holds c mem)
    · exact (State.core_modCore_ne t a c _ fun same => out (same ▸ among a List.mem_cons_self)).trans (other c out)

/-- A load of an image in direct HM whose words are all good. -/
theorem State.loadTask_hm (s : State) {x : Task} (known : ∀ c ∈ x.cores, c < 48) (space : gSpace x.image.at_ = 1)
    (text : (s.hmRead (gOff x.image.at_ + x.image.textAt) x.image.text).2.isBad = false)
    (loads : ∀ l ∈ x.image.loads, (s.hmRead (gOff x.image.at_ + l.2.2) l.2.1).2.isBad = false) :
    s.freshJunk.2.Loaded x.cores (textWords (s.hm.readN (gOff x.image.at_ + x.image.textAt) x.image.text) (x.image.text / 8)) (s.loadTask [] x) := by
  have plain {b : Bad} (good : b.isBad = false) : b = .none := by cases b with
    | none => rfl
    | old _ => cases good
    | found _ => cases good
  unfold State.loadTask
  simp only [space, State.readSpace, plain text]
  refine List.foldlRecOn _ _ (motive := s.freshJunk.2.Loaded x.cores _) (State.loadText x.cores s.freshJunk.1 _ known s.freshJunk.2) fun r h l mem => ?_
  have same : r.2.hmRead (gOff x.image.at_ + l.2.2) l.2.1 = s.hmRead (gOff x.image.at_ + l.2.2) l.2.1 := h.only.hmRead _ _
  rw [same, plain (loads l mem), h.good]
  exact State.Loaded.spWrites ⟨rfl, h.only, h.holds, h.other⟩ _ _ x.cores (fun _ hc => hc) known

/-! ### Starting (R65) -/

theorem State.latchSlog_frame (s : State) (c : Nat) : (s.latchSlog c).cores = s.cores ∧ (s.latchSlog c).tasks = s.tasks := by
  unfold State.latchSlog
  dsimp only
  refine iteInduction (motive := fun u : State => u.cores = s.cores ∧ u.tasks = s.tasks) (fun _ => ?_) (fun _ => ⟨rfl, rfl⟩)
  exact ⟨State.raise_cores _ _, State.raise_tasks _ _⟩

/-- The state in which a core that starts takes its send log. -/
def State.starting (s : State) (c : Nat) : State :=
  ((s.wr (Reg.CORE_RUNAHEAD_STAT_RA_KEPT c) 0).wr (Reg.CORE_RUNAHEAD_STAT_RA_DISCARDED c) 0).latchSlog c

theorem State.starting_core (s : State) (c d : Nat) : (s.starting c).core d = s.core d :=
  State.core_congr (State.latchSlog_frame ((s.wr (Reg.CORE_RUNAHEAD_STAT_RA_KEPT c) 0).wr (Reg.CORE_RUNAHEAD_STAT_RA_DISCARDED c) 0) c).1 d

theorem State.starting_tasks (s : State) (c : Nat) : (s.starting c).tasks = s.tasks :=
  (State.latchSlog_frame ((s.wr (Reg.CORE_RUNAHEAD_STAT_RA_KEPT c) 0).wr (Reg.CORE_RUNAHEAD_STAT_RA_DISCARDED c) 0) c).2

/-- A core that starts: its own start state, and the others as they were. -/
theorem State.startCore_core (s : State) (x : Task) {c : Nat} (idx : Nat) (known : c < 48) :
    ∃ floor, (s.startCore x c idx).core c = (s.core c).startWith x c idx floor :=
  ⟨_, (State.core_modCore (s.starting c) c _ known).trans (congrArg (fun k : Core => k.startWith x c idx _) (s.starting_core c c))⟩

theorem State.startCore_core_ne (s : State) (x : Task) {c d : Nat} (idx : Nat) (apart : d ≠ c) : (s.startCore x c idx).core d = s.core d :=
  (State.core_modCore_ne (s.starting c) c d _ apart).trans (s.starting_core c d)

theorem State.startCore_tasks (s : State) (x : Task) (c idx : Nat) : (s.startCore x c idx).tasks = s.tasks := s.starting_tasks c

/-- Every core of a task starts with its rank. -/
theorem State.startAll (x : Task) (l : List (Nat × Nat)) (once : (l.map Prod.fst).Nodup) (known : ∀ p ∈ l, p.1 < 48) (s : State) :
    (∀ p ∈ l, ∃ floor, ((l.foldl (fun s c => s.startCore x c.1 c.2) s).core p.1) = (s.core p.1).startWith x p.1 p.2 floor)
      ∧ (∀ c, c ∉ l.map Prod.fst → (l.foldl (fun s c => s.startCore x c.1 c.2) s).core c = s.core c)
      ∧ (l.foldl (fun s c => s.startCore x c.1 c.2) s).tasks = s.tasks := by
  induction l generalizing s with
  | nil => exact ⟨fun p h => absurd h List.not_mem_nil, fun _ _ => rfl, rfl⟩
  | cons a l ih =>
    rw [List.map_cons, List.nodup_cons] at once
    obtain ⟨starts, other, tasks⟩ := ih once.2 (fun p h => known p (List.mem_cons_of_mem _ h)) (s.startCore x a.1 a.2)
    rw [List.foldl_cons]
    refine ⟨fun p mem => ?_, fun c out => ?_, tasks.trans (s.startCore_tasks x a.1 a.2)⟩
    · rcases List.mem_cons.mp mem with rfl | later
      · obtain ⟨floor, start⟩ := s.startCore_core x p.2 (known p mem)
        exact ⟨floor, (other p.1 once.1).trans start⟩
      · obtain ⟨floor, start⟩ := starts p later
        have apart : p.1 ≠ a.1 := fun h => once.1 (h ▸ List.mem_map_of_mem later)
        exact ⟨floor, start.trans (congrArg (fun k : Core => k.startWith x p.1 p.2 floor) (s.startCore_core_ne x a.2 apart))⟩
    · rw [List.map_cons, List.mem_cons, not_or] at out
      exact (other c out.2).trans (s.startCore_core_ne x a.2 out.1)

/-- What a core holds when it starts (R65). -/
theorem Core.startWith_holds (k : Core) (x : Task) (c i floor : Nat) :
    let m := k.startWith x c i floor
    m.state = 1 ∧ m.task = x.num ∧ m.ip = x.image.entry ∧ m.sget 1 = BitVec.ofNat 64 i ∧ m.sget 2 = BitVec.ofNat 64 x.cores.length
      ∧ m.sget 3 = BitVec.ofNat 64 c ∧ m.sget 4 = x.arg ∧ (∀ r, 4 < r → m.sget r = 0) ∧ m.window = [] ∧ m.sp = k.sp ∧ m.ibuf = k.ibuf
      ∧ m.lt = m.ltStart ∧ m.finished = false := by
  refine ⟨rfl, rfl, rfl, ?_, ?_, ?_, ?_, fun r above => ?_, rfl, rfl, rfl, rfl, rfl⟩
  all_goals unfold Core.startWith
  · rw [Core.sget_sset_other _ _ _ _ (by decide), Core.sget_sset_other _ _ _ _ (by decide), Core.sget_sset_other _ _ _ _ (by decide), Core.sget_sset_same]
    rfl
  · rw [Core.sget_sset_other _ _ _ _ (by decide), Core.sget_sset_other _ _ _ _ (by decide), Core.sget_sset_same]
    rfl
  · rw [Core.sget_sset_other _ _ _ _ (by decide), Core.sget_sset_same]
    rfl
  · rw [Core.sget_sset_same]
    rfl
  · rw [Core.sget_sset_other _ _ _ _ (by omega), Core.sget_sset_other _ _ _ _ (by omega), Core.sget_sset_other _ _ _ _ (by omega),
      Core.sget_sset_other _ _ _ _ (by omega)]
    exact if_neg (by omega)

/-- The tasks of a number after they have been changed. -/
theorem State.modTask_mem {s : State} {t : Nat} {f : Task → Task} {y : Task} (mem : y ∈ (s.modTask t f).tasks) (named : y.num = t) :
    ∃ x ∈ s.tasks, x.num = t ∧ y = f x := by
  obtain ⟨x, hx, rfl⟩ := List.mem_map.mp mem
  by_cases same : (x.num == t) = true
  · rw [if_pos same]
    exact ⟨x, hx, beq_iff_eq.mp same, rfl⟩
  · rw [if_neg same] at named
    exact absurd (beq_iff_eq.mpr named) same

theorem State.loaded_frame {s u : State} {t : Nat} {f : Task → Task} (h : (s.modTask t f).freshJunk.2.OnlyCores u) :
    u = { s with cores := u.cores, tasks := u.tasks, freeCtr := u.freeCtr } := by
  have same := congrArg (fun v : State => { s with cores := u.cores, tasks := v.tasks, freeCtr := v.freeCtr }) h.eq
  exact h.eq.trans same.symm

/-- A task that has taken its cores, its reservations clamped (R225). -/
def State.placing (s : State) (t : Nat) (cs : List Nat) : State :=
  s.modTask t (fun y => { y with
    state := .loading, cores := cs, hmKib := min y.hmKib (s.rd Reg.SCHED_RES_HM_KIB), lmMib := min y.lmMib (s.rd Reg.SCHED_RES_LM_MIB) })

/-- The cores that a placement chooses. -/
def State.choice (s : State) (x : Task) (pick : Option (List CoreId)) (cs : List Nat) : Prop :=
  (pick = none ∧ chooseCores (s.offer x) (s.coresWanted x) = some cs)
    ∨ (∃ l, pick = some l ∧ cs = (l.map Fin.val).dedup.mergeSort (fun a b => decide (a ≤ b)) ∧ cs.length = s.coresWanted x ∧ cs.all (s.offer x).contains = true)

theorem exec_taskPlace {s : State} {t : Nat} {x : Task} {pick : Option (List CoreId)} {cs : List Nat} (alive : s.failed = false) (found : s.task? t = some x)
    (next : s.isNext x = true) (ready : s.loadWaits x.image = false) (chosen : s.choice x pick cs) (can : s.canPlace x cs = true)
    (good : ((s.placing t cs).loadTask [] { x with cores := cs }).1 = .none) :
    exec (.taskPlace t pick []) s = .next ((s.placing t cs).loadTask [] { x with cores := cs }).2 := by
  have proceeds : (s.failed || !s.isNext x || s.loadWaits x.image) = false := by rw [alive, next, ready]; rfl
  have run : exec (.taskPlace t pick []) s = execTaskPlace t pick [] s := rfl
  rw [run]
  refine congrArg Host.Outcome.next ?_
  rw [found]
  refine (if_neg (Bool.eq_false_iff.mp proceeds)).trans ?_
  refine of_have (of_have ?_)
  have ends (load : State → List Upset → Task → Bad × State) (good : (load (s.placing t cs) [] { x with cores := cs }).1 = .none) :
      (match load (s.placing t cs) [] { x with cores := cs } with
        | (b, u) => match b with
          | .none => u
          | .old o => (u.modTask t (fun y => { y with loadBad := true })).raise { Fault_.blank 3 Status.eccUncorrected 0x0202 with
              task := t, job := x.job, addr := BitVec.ofNat 64 o, info0 := BitVec.ofNat 64 (gSpace x.image.at_) }
          | .found o => (u.modTask t (fun y => { y with loadBad := true })).raise { Fault_.blank 3 Status.eccUncorrected 0x0202 with
              task := t, job := x.job, addr := BitVec.ofNat 64 o, info0 := BitVec.ofNat 64 (gSpace x.image.at_) })
        = (load (s.placing t cs) [] { x with cores := cs }).2 := by
    generalize load (s.placing t cs) [] { x with cores := cs } = r at good ⊢
    obtain ⟨b, u⟩ := r
    obtain rfl : b = .none := good
    rfl
  generalize State.loadTask = load at good ⊢
  rcases chosen with ⟨rfl, picked⟩ | ⟨l, rfl, rfl, count, all⟩
  · generalize choosing : chooseCores _ _ = o
    obtain rfl : o = some cs := choosing.symm.trans picked
    exact of_have ((if_neg (by rw [can]; exact Bool.false_ne_true)).trans (ends load good))
  · generalize sorted : (l.map Fin.val).dedup.mergeSort (fun a b => decide (a ≤ b)) = cs at *
    dsimp only
    rw [sorted, if_pos ⟨count, all⟩]
    exact (if_neg (by rw [can]; exact Bool.false_ne_true)).trans (ends load good)

/-- Settles O36: the image is copied core by core, and each core starts once with its rank. -/
theorem tasksAreLoadedAndStarted : Obligations.TasksAreLoadedAndStarted := by
  unfold Obligations.TasksAreLoadedAndStarted
  intro t x s alive found
  refine ⟨fun pick cs state next ready chosen considered fits on known space text loads => ?_, fun state loaded unkilled unfailed clear four once known => ?_⟩
  · have can : s.canPlace x cs = true := by rw [State.canPlace, considered, fits, on]; rfl
    obtain ⟨good, only, holds, other⟩ := (s.placing t cs).loadTask_hm (x := { x with cores := cs }) known space text loads
    refine ⟨_, exec_taskPlace alive found next ready chosen can good, fun y mem named => ?_, holds, other, State.loaded_frame only⟩
    have tasks : ((s.placing t cs).loadTask [] { x with cores := cs }).2.tasks = (s.placing t cs).tasks := (congrArg State.tasks only.eq :)
    rw [tasks] at mem
    obtain ⟨z, -, -, rfl⟩ := State.modTask_mem mem named
    exact ⟨rfl, rfl⟩
  · have ready : (s.failed || x.state != .loading || x.loadBad || x.killed || x.jobFatal.isSome || x.cores.any (fun c => !(s.core c).clear)) = false := by
      have tidy : x.cores.any (fun c => !(s.core c).clear) = false := by
        rw [List.any_eq_false]
        intro c mem
        obtain ⟨tested, empty⟩ := clear c mem
        unfold Core.clear
        rw [tested, empty]
        decide
      rw [alive, state, loaded, unkilled, unfailed, tidy]
      rfl
    have whole : (x.fourMe && x.cores.any (fun c => (s.core c).arrays != 15#4)) = false := by
      cases all : x.fourMe with
      | false => rfl
      | true =>
        rw [Bool.true_and, List.any_eq_false]
        intro c mem
        rw [four all c mem]
        decide
    have run : exec (.taskStart t) s = .next ((x.cores.zipIdx).foldl (fun s c => s.startCore x c.1 c.2)
        (s.modTask t (fun y => { y with state := .running, started := s.clock, peers := [], stalled := 0 }))) := by
      refine congrArg Host.Outcome.next ?_
      rw [found]
      exact (if_neg (Bool.eq_false_iff.mp ready)).trans (if_neg (Bool.eq_false_iff.mp whole))
    have firsts : x.cores.zipIdx.map Prod.fst = x.cores := List.zipIdx_map_fst ..
    have all := State.startAll x x.cores.zipIdx (firsts.symm ▸ once) (fun p mem => known p.1 (List.fst_mem_of_mem_zipIdx mem))
      (s.modTask t (fun y => { y with state := .running, started := s.clock, peers := [], stalled := 0 }))
    rw [firsts] at all
    obtain ⟨starts, other, tasks⟩ := all
    refine ⟨_, run, fun y mem named => ?_, fun i c at_ => ?_, other⟩
    · rw [tasks] at mem
      obtain ⟨z, -, -, rfl⟩ := State.modTask_mem mem named
      rfl
    · obtain ⟨floor, start⟩ := starts (c, i) (List.mem_zipIdx_iff_getElem?.mpr at_)
      rw [start]
      exact Core.startWith_holds (s.core c) x c i floor

end Sys2Proof.Machine
end

section
/-! Pre-emption stops, saves and restores tasks (R228-R231). -/

namespace Sys2Proof.Machine

/-! ### Accesses to LM that meet no new error -/

/-- The state s with what an access to LM may change taken from t. -/
def State.withLm (s t : State) : State := { s with regs := t.regs, sub := t.sub, cache := t.cache, lm := t.lm, lmPoison := t.lmPoison, lag := t.lag }

/-- A register field that the hub cache does not count in. -/
structure Fld.BeyondCache (g : Fld) : Prop where
  hits  : g.key ≠ Reg.HM_CACHE_STAT_HITS.key
  drops : g.key ≠ Reg.HM_CACHE_STAT_DROPS.key

/-- An access to LM that meets no new error changes LM and its cache, and of the registers only the cache's counters. -/
structure State.OnlyLm (s t : State) : Prop where
  eq : t = s.withLm t
  rd : ∀ g : Fld, g.BeyondCache → t.rd g = s.rd g

theorem State.OnlyLm.refl (s : State) : s.OnlyLm s := ⟨rfl, fun _ _ => rfl⟩

theorem State.OnlyLm.trans {s t u : State} (a : s.OnlyLm t) (b : t.OnlyLm u) : s.OnlyLm u := by
  have step := congrArg (fun x => State.withLm x u) a.eq
  exact ⟨b.eq.trans step, fun g h => (b.rd g h).trans (a.rd g h)⟩

theorem State.OnlyLm.cores {s t : State} (h : s.OnlyLm t) : t.cores = s.cores := (congrArg State.cores h.eq :)

theorem State.OnlyLm.tasks {s t : State} (h : s.OnlyLm t) : t.tasks = s.tasks := (congrArg State.tasks h.eq :)

theorem State.OnlyLm.park {s t : State} (h : s.OnlyLm t) : t.park = s.park := (congrArg State.park h.eq :)

/-- The cache, LM and what QUOTA_MIB acts with are no registers. -/
theorem State.onlyLm_lit (s : State) (cache : List CLine) (lm : Mem) (lmPoison : List Nat) (lag : Tab Nat) :
    s.OnlyLm { s with cache := cache, lm := lm, lmPoison := lmPoison, lag := lag } := ⟨rfl, fun _ _ => rfl⟩

theorem State.bumpK_rd_ne (s : State) {f g : Fld} (n : Nat) (apart : g.key ≠ f.key) : (s.bumpK f n).rd g = s.rd g :=
  State.bump_rd_ne _ _ apart

theorem State.onlyLm_hit (s : State) : s.OnlyLm (s.bumpK Reg.HM_CACHE_STAT_HITS 1) := ⟨rfl, fun _ h => s.bumpK_rd_ne 1 h.hits⟩

theorem State.onlyLm_drop (s : State) : s.OnlyLm (s.bumpK Reg.HM_CACHE_STAT_DROPS 1) := ⟨rfl, fun _ h => s.bumpK_rd_ne 1 h.drops⟩

theorem State.putLine_onlyLm (s : State) (l : CLine) (touch : Bool) : s.OnlyLm (s.putLine l touch) := by
  unfold State.putLine
  exact iteInduction (fun _ => s.onlyLm_lit ..) (fun _ => s.onlyLm_lit ..)

theorem State.writeBack_onlyLm (s : State) (l : CLine) : s.OnlyLm (s.writeBack l) := by
  unfold State.writeBack
  exact iteInduction (fun _ => s.onlyLm_lit ..) (fun _ => .refl s)

theorem State.makeRoom_onlyLm (s : State) (line : Nat) : s.OnlyLm (s.makeRoom line) := by
  unfold State.makeRoom
  dsimp only
  refine iteInduction (fun _ => .refl s) (fun _ => ?_)
  split
  · exact (s.writeBack_onlyLm _).trans (State.onlyLm_lit ..)
  · exact .refl s

theorem State.allocate_onlyLm (s : State) (line : Nat) : s.OnlyLm ((s.makeRoom line).quotaNow line) :=
  (s.makeRoom_onlyLm line).trans (State.onlyLm_lit ..)

/-- A line is stored in LM or joins the cache. -/
theorem State.stored_onlyLm (s : State) (line : Nat) (p : Prop) [Decidable p] (l m : CLine) :
    s.OnlyLm (if p then (Bad.none, s.writeBack l)
      else (Bad.none, { (s.makeRoom line).quotaNow line with cache := m :: ((s.makeRoom line).quotaNow line).cache })).2 :=
  iteInduction (motive := fun r : Bad × State => s.OnlyLm r.2) (fun _ => s.writeBack_onlyLm l)
    (fun _ => (s.allocate_onlyLm line).trans (State.onlyLm_lit ..))

theorem State.lmReadLine_onlyLm (s : State) (hint uses line : Nat) : s.OnlyLm (s.lmReadLine [] hint uses line).2.2 := by
  unfold State.lmReadLine
  refine iteInduction (motive := fun r : List Byte × Bad × State => s.OnlyLm r.2.2) (fun _ => .refl s) (fun _ => ?_)
  refine iteInduction (motive := fun r : List Byte × Bad × State => s.OnlyLm r.2.2) (fun _ => .refl s) (fun _ => ?_)
  cases s.cached line with
  | some l =>
    refine iteInduction (motive := fun r : List Byte × Bad × State => s.OnlyLm r.2.2) (fun _ => ?_) (fun _ => ?_)
    · refine iteInduction (motive := fun r : List Byte × Bad × State => s.OnlyLm r.2.2) (fun _ => ?_) (fun _ => ?_)
      · exact (s.onlyLm_hit.trans (State.onlyLm_lit ..)).trans (State.onlyLm_drop _)
      · exact s.onlyLm_hit.trans (State.putLine_onlyLm (s.bumpK Reg.HM_CACHE_STAT_HITS 1) _ true)
    · refine iteInduction (motive := fun r : List Byte × Bad × State => s.OnlyLm r.2.2) (fun _ => s.onlyLm_hit) (fun _ => ?_)
      exact s.onlyLm_hit.trans (State.putLine_onlyLm (s.bumpK Reg.HM_CACHE_STAT_HITS 1) _ true)
  | none =>
    refine iteInduction (motive := fun r : List Byte × Bad × State => s.OnlyLm r.2.2) (fun _ => .refl s) (fun _ => ?_)
    refine iteInduction (motive := fun r : List Byte × Bad × State => s.OnlyLm r.2.2) (fun _ => ?_) (fun _ => ?_)
    · exact (s.allocate_onlyLm line).trans (State.onlyLm_drop _)
    · exact (s.allocate_onlyLm line).trans (State.onlyLm_lit ..)

theorem State.lmWriteLine_onlyLm (s : State) (hint uses line pos : Nat) (bs : List Byte) : s.OnlyLm (s.lmWriteLine [] hint uses line pos bs).2 := by
  unfold State.lmWriteLine
  refine iteInduction (motive := fun r : Bad × State => s.OnlyLm r.2) (fun _ => .refl s) (fun _ => ?_)
  generalize (if s.cacheSets = 0 then none else s.cached line) = held
  cases held with
  | some l => exact iteInduction (fun _ => s.onlyLm_hit.trans (State.putLine_onlyLm ..)) (fun _ => s.onlyLm_hit.trans (State.putLine_onlyLm ..))
  | none =>
    cases (bs.length == 256) with
    | true => exact s.stored_onlyLm line (hint = hintStream ∨ s.cacheSets = 0) _ _
    | false =>
      unfold State.fetchLine
      dsimp only [State.lmUpsets, List.foldl_nil]
      cases s.lmPoison.contains line with
      | true => exact s.stored_onlyLm line (hint = hintStream ∨ s.cacheSets = 0) _ _
      | false => exact s.stored_onlyLm line (hint = hintStream ∨ s.cacheSets = 0) _ _

theorem State.lmRead_onlyLm (s : State) (hint uses off n : Nat) : s.OnlyLm (s.lmRead [] hint uses off n).2.2 :=
  List.foldlRecOn _ _ (motive := fun r : List Byte × Bad × State => s.OnlyLm r.2.2) (.refl s) fun r h p _ =>
    h.trans (r.2.2.lmReadLine_onlyLm hint uses p.1)

theorem State.lmWrite_onlyLm (s : State) (hint uses off : Nat) (bs : List Byte) : s.OnlyLm (s.lmWrite [] hint uses off bs).2 :=
  List.foldlRecOn (motive := fun r : Bad × State × List Byte => s.OnlyLm r.2.1) _ _ (.refl s) fun r h p _ =>
    h.trans (r.2.1.lmWriteLine_onlyLm hint uses p.1 p.2.1 _)

/-! ### Changes of several cores -/

/-- Cores that are changed in turn. -/
def State.modCores (s : State) (cs : List Nat) (f : Core → Core) : State := cs.foldl (fun s c => s.modCore c f) s

theorem State.modCores_onlyCores (s : State) (cs : List Nat) (f : Core → Core) : s.OnlyCores (s.modCores cs f) :=
  foldl_keeps s.OnlyCores (fun s c => s.modCore c f) (fun t c h => h.trans (t.modCore_onlyCores c f)) cs s (.refl s)

/-- What a change establishes holds of each core changed. -/
theorem State.modCores_core {P : Core → Prop} {f : Core → Core} (sets : ∀ k, P (f k)) {cs : List Nat} {c : Nat} (mem : c ∈ cs) (known : c < 48) (s : State) :
    P ((s.modCores cs f).core c) := by
  have kept (l : List Nat) (t : State) (h : P (t.core c)) : P ((t.modCores l f).core c) :=
    foldl_keeps (fun u : State => P (u.core c)) (fun s c => s.modCore c f) (fun u a h => by
      by_cases same : c = a
      · subst same
        rw [State.core_modCore _ _ _ known]
        exact sets _
      · rwa [State.core_modCore_ne _ _ _ _ same]) l t h
  induction cs generalizing s with
  | nil => exact absurd mem List.not_mem_nil
  | cons a l ih =>
    rcases List.mem_cons.mp mem with rfl | later
    · refine kept l (s.modCore c f) ?_
      rw [State.core_modCore _ _ _ known]
      exact sets _
    · exact ih later (s.modCore a f)

/-! ### Draining (R229) -/

/-- A core that drains, its run-ahead buffer empty but for the reads that an instruction has kept. -/
def Core.Drains (k : Core) : Prop := k.draining = true ∧ k.preRead.all (fun r => r.bound.isSome) = true

/-- One core is told to drain. -/
def State.drainCore (s : State) (c : Nat) : State := (s.dropAhead c).modCore c (fun k => { k with draining := true })

theorem State.drainCore_core (s : State) {c : Nat} (known : c < 48) : ((s.drainCore c).core c).Drains := by
  unfold State.drainCore State.dropAhead
  rw [State.core_modCore _ _ _ known, State.core_modCore _ _ _ known]
  refine ⟨rfl, List.all_eq_true.mpr fun r mem => ?_⟩
  exact (List.mem_filter.mp mem).2

theorem State.drainCore_keeps (s : State) (a : Nat) {c : Nat} (known : c < 48) (h : (s.core c).Drains) : ((s.drainCore a).core c).Drains := by
  by_cases same : c = a
  · subst same
    exact s.drainCore_core known
  · have away : (s.drainCore a).core c = s.core c := (State.core_modCore_ne _ a c _ same).trans (s.dropAhead_core_ne same)
    rwa [away]

/-- A task that drains towards its place in the save area. -/
def Task.drainsTo (y : Task) (at_ : Nat) : Task := { y with state := .draining, saveAt := at_ }

theorem State.task?_modTask {s : State} {t n : Nat} {f : Task → Task} (named : ∀ y, (f y).num = y.num) :
    (s.modTask t f).task? n = (s.task? n).map (fun y => if y.num == t then f y else y) := by
  refine (List.find?_map ..).trans ?_
  have same : ((fun x : Task => x.num == n) ∘ fun x => if x.num == t then f x else x) = fun x => x.num == n := by
    funext x
    show ((if x.num == t then f x else x).num == n) = _
    split
    · rw [named]
    · rfl
  rw [same]
  rfl

theorem State.task?_num {s : State} {n : Nat} {y : Task} (found : s.task? n = some y) : y.num = n := by
  have named := List.find?_some (p := fun x : Task => x.num == n) found
  exact beq_iff_eq.mp named

/-- The cores of a task, if there is one, are told to drain. -/
def State.drainCores (s : State) : Option Task → State
  | some x => x.cores.foldl State.drainCore s
  | none => s

theorem State.drainTask_eq (s : State) (v : Nat × Nat) :
    s.drainTask v = (s.modTask v.1 (fun y => y.drainsTo v.2)).drainCores ((s.modTask v.1 (fun y => y.drainsTo v.2)).task? v.1) := rfl

theorem State.drainCores_tasks (s : State) (o : Option Task) : (s.drainCores o).tasks = s.tasks := by
  cases o with
  | none => rfl
  | some x => exact foldl_same State.tasks State.drainCore (fun _ _ => rfl) x.cores s

theorem State.drainCores_keeps (s : State) (o : Option Task) {c : Nat} (known : c < 48) (h : (s.core c).Drains) : ((s.drainCores o).core c).Drains := by
  cases o with
  | none => exact h
  | some x => exact foldl_keeps (fun u : State => (u.core c).Drains) State.drainCore (fun u a h => u.drainCore_keeps a known h) x.cores s h

theorem State.drainCores_core (s : State) {x : Task} {c : Nat} (mem : c ∈ x.cores) (known : c < 48) : ((s.drainCores (some x)).core c).Drains := by
  have drained (l : List Nat) (mem : c ∈ l) (s : State) : ((l.foldl State.drainCore s).core c).Drains := by
    induction l generalizing s with
    | nil => exact absurd mem List.not_mem_nil
    | cons a l ih =>
      rw [List.foldl_cons]
      rcases List.mem_cons.mp mem with rfl | later
      · exact foldl_keeps (fun u : State => (u.core c).Drains) State.drainCore (fun u a h => u.drainCore_keeps a known h) l _ (s.drainCore_core known)
      · exact ih later (s.drainCore a)
  exact drained x.cores mem s

theorem State.drainTask_tasks (s : State) (v : Nat × Nat) : (s.drainTask v).tasks = (s.modTask v.1 (fun y => y.drainsTo v.2)).tasks := by
  rw [State.drainTask_eq, State.drainCores_tasks]

theorem State.drainTask_keeps (s : State) (v : Nat × Nat) {c : Nat} (known : c < 48) (h : (s.core c).Drains) : ((s.drainTask v).core c).Drains := by
  rw [State.drainTask_eq]
  exact State.drainCores_keeps _ _ known h

theorem State.drainTask_cores (s : State) (v : Nat × Nat) {y : Task} (found : s.task? v.1 = some y) {c : Nat} (mem : c ∈ y.cores) (known : c < 48) :
    ((s.drainTask v).core c).Drains := by
  have found_ : (s.modTask v.1 (fun y => y.drainsTo v.2)).task? v.1 = some (y.drainsTo v.2) := by
    rw [State.task?_modTask (f := fun y => y.drainsTo v.2) (fun _ => rfl), found, Option.map_some, if_pos (beq_iff_eq.mpr (State.task?_num found))]
  rw [State.drainTask_eq, found_]
  exact State.drainCores_core _ mem known

/-- Another task keeps its number and its cores. -/
theorem State.drainTask_task?_ne (s : State) {v : Nat × Nat} {n : Nat} (apart : n ≠ v.1) : (s.drainTask v).task? n = s.task? n := by
  have same : (s.drainTask v).task? n = (s.modTask v.1 (fun y => y.drainsTo v.2)).task? n :=
    congrArg (fun l : List Task => l.find? (fun x : Task => x.num == n)) (s.drainTask_tasks v)
  rw [same, State.task?_modTask (f := fun y => y.drainsTo v.2) (fun _ => rfl)]
  cases found : s.task? n with
  | none => rfl
  | some y =>
    have num := State.task?_num found
    rw [Option.map_some, if_neg]
    rw [num, beq_iff_eq]
    exact apart

theorem State.drainTask_mem_ne {s : State} {v : Nat × Nat} {y : Task} (apart : y.num ≠ v.1) (mem : y ∈ (s.drainTask v).tasks) : y ∈ s.tasks := by
  rw [State.drainTask_tasks] at mem
  obtain ⟨x, hx, rfl⟩ := List.mem_map.mp mem
  by_cases same : (x.num == v.1) = true
  · rw [if_pos same] at apart
    exact absurd (beq_iff_eq.mp same) apart
  · rwa [if_neg same]

/-- Tasks with numbers of their own all drain, each to its place. -/
theorem State.drainAll (ps : List (Nat × Nat)) (once : (ps.map Prod.fst).Nodup) (s : State) :
    (∀ v ∈ ps, ∀ y ∈ (ps.foldl State.drainTask s).tasks, y.num = v.1 → y.state = .draining ∧ y.saveAt = v.2)
      ∧ (∀ v ∈ ps, ∀ y, s.task? v.1 = some y → ∀ c ∈ y.cores, c < 48 → ((ps.foldl State.drainTask s).core c).Drains)
      ∧ (∀ y ∈ (ps.foldl State.drainTask s).tasks, y.num ∉ ps.map Prod.fst → y ∈ s.tasks) := by
  induction ps generalizing s with
  | nil => exact ⟨fun v h => absurd h List.not_mem_nil, fun v h => absurd h List.not_mem_nil, fun y mem _ => mem⟩
  | cons a l ih =>
    rw [List.map_cons, List.nodup_cons] at once
    obtain ⟨placed, drained, others⟩ := ih once.2 (s.drainTask a)
    rw [List.foldl_cons]
    refine ⟨fun v mem y hy named => ?_, fun v mem y found c hc known => ?_, fun y hy out => ?_⟩
    · rcases List.mem_cons.mp mem with rfl | later
      · have before := others y hy (named ▸ once.1)
        rw [State.drainTask_tasks] at before
        obtain ⟨x, -, -, rfl⟩ := State.modTask_mem before named
        exact ⟨rfl, rfl⟩
      · exact placed v later y hy named
    · rcases List.mem_cons.mp mem with rfl | later
      · exact foldl_keeps (fun u : State => (u.core c).Drains) State.drainTask (fun u a h => u.drainTask_keeps a known h) l _
          (s.drainTask_cores v found hc known)
      · have apart : v.1 ≠ a.1 := fun h => once.1 (h ▸ List.mem_map_of_mem later)
        exact drained v later y ((s.drainTask_task?_ne apart).trans found) c hc known
    · rw [List.map_cons, List.mem_cons, not_or] at out
      exact State.drainTask_mem_ne out.1 (others y hy out.2)

/-- The places go to the tasks in their order. -/
theorem State.savePlaces_nums {s : State} {vs : List Task} {taken ps : List (Nat × Nat)} (placed : s.savePlaces vs taken = some ps) :
    ps.map Prod.fst = vs.map Task.num := by
  induction vs generalizing taken ps with
  | nil =>
    obtain rfl := Option.some.inj placed
    rfl
  | cons v vs ih =>
    unfold State.savePlaces at placed
    obtain ⟨a, -, rest⟩ := Option.bind_eq_some_iff.mp placed
    obtain ⟨r, more, last⟩ := Option.bind_eq_some_iff.mp rest
    obtain rfl := Option.some.inj last
    exact congrArg (List.cons v.num) (ih more)

theorem State.victims_once {s : State} (once : (s.tasks.map Task.num).Nodup) (cls : Nat) (p : Task → Bool) :
    (((s.victims cls).filter p).map Task.num).Nodup := by
  have sorted : ((s.victims cls).map Task.num).Nodup :=
    ((List.mergeSort_perm _ _).map Task.num).nodup_iff.mpr (once.sublist (List.filter_sublist.map Task.num))
  exact sorted.sublist (List.filter_sublist.map Task.num)

/-! ### Saving (R229, R230) -/

theorem State.settleWake_none {s : State} (quiet : s.waiters = []) (c : Nat) : s.settleWake c = s := by
  unfold State.settleWake
  rw [quiet]
  cases (s.core c).stall with
  | none => rfl
  | some w => cases w <;> rfl

theorem State.endFillers_none {s : State} {c : Nat} (still : ∀ i, ((s.core c).fillerOf i).running = false) (us : List Upset) : s.endFillers c us = s := by
  refine foldl_stays fun i _ => ?_
  unfold State.endFiller
  exact if_neg (by rw [still i]; exact Bool.false_ne_true)

theorem State.cplDue_keeps (s : State) (q : Nat) (c : Cpl) :
    (s.cplDue q c).tasks = s.tasks ∧ (s.cplDue q c).cores = s.cores
      ∧ ∀ g : Fld, g.key ≠ Reg.HOST_STAT_CPL_DROPPED.key → (s.cplDue q c).rd g = s.rd g := by
  unfold State.cplDue
  refine iteInduction (motive := fun u : State => u.tasks = s.tasks ∧ u.cores = s.cores ∧ ∀ g : Fld, g.key ≠ Reg.HOST_STAT_CPL_DROPPED.key → u.rd g = s.rd g)
    (fun _ => ⟨rfl, rfl, fun _ _ => rfl⟩) (fun _ => ⟨rfl, rfl, fun g apart => s.bump_rd_ne 1 apart⟩)

/-! ### Restoring (R230) -/

theorem State.spWrites_core_ne (s : State) (c : Nat) (l : List (Nat × Nat)) (data : Nat × Nat → List Byte) {d : Nat} (apart : d ≠ c) :
    (l.foldl (fun s r => s.spWrite c r.1 (data r)) s).core d = s.core d :=
  foldl_same (fun u : State => u.core d) (fun s r => s.spWrite c r.1 (data r)) (fun u _ => State.core_modCore_ne u c d _ apart) l s

theorem State.restoreSp_onlyCores (s : State) (c g : Nat) (saved : Core) (live : List (Nat × Nat)) : s.OnlyCores (s.restoreSp c g saved live) :=
  foldl_keeps s.OnlyCores (fun (s : State) (r : Nat × Nat) => s.spWrite c r.1 (saved.sp.readN r.1 r.2)) (fun t _ h => h.trans (t.modCore_onlyCores c _)) live _
    (s.smudgeSp_onlyCores c g)

theorem State.restoreSp_core_ne (s : State) (c g : Nat) (saved : Core) (live : List (Nat × Nat)) {d : Nat} (apart : d ≠ c) :
    (s.restoreSp c g saved live).core d = s.core d :=
  (State.spWrites_core_ne _ c live _ apart).trans (State.core_modCore_ne s c d _ apart)

/-- One saved core returns. -/
def State.restoreCore (s : State) (g t : Nat) (live : List (Nat × Nat)) (k : Nat × Core) : State :=
  (s.restoreSp k.1 g k.2 live).modCore k.1 (fun cur => cur.restored k.2 t)

/-- A core that runs on with what was saved of it. -/
structure Core.RunsOn (k saved : Core) (t : Nat) : Prop where
  state  : k.state = 1
  task   : k.task = t
  ip     : k.ip = saved.ip
  sreg   : k.sreg = saved.sreg
  lt     : k.lt = saved.lt
  window : k.window = saved.window

/-- The saved cores return in turn. -/
def State.restoreAll (s : State) (g t : Nat) (live : List (Nat × Nat)) (l : List (Nat × Core)) : State := l.foldl (fun s k => s.restoreCore g t live k) s

theorem State.restoreCores (g t : Nat) (live : List (Nat × Nat)) (l : List (Nat × Core)) (once : (l.map Prod.fst).Nodup) (s : State) :
    s.OnlyCores (s.restoreAll g t live l)
      ∧ (∀ k ∈ l, k.1 < 48 → ((s.restoreAll g t live l).core k.1).RunsOn k.2 t)
      ∧ (∀ c, c ∉ l.map Prod.fst → (s.restoreAll g t live l).core c = s.core c) := by
  induction l generalizing s with
  | nil => exact ⟨.refl s, fun k h => absurd h List.not_mem_nil, fun _ _ => rfl⟩
  | cons a l ih =>
    rw [List.map_cons, List.nodup_cons] at once
    obtain ⟨only, runs, other⟩ := ih once.2 (s.restoreCore g t live a)
    have step : s.restoreAll g t live (a :: l) = (s.restoreCore g t live a).restoreAll g t live l := rfl
    rw [step]
    refine ⟨((s.restoreSp_onlyCores a.1 g a.2 live).trans (State.modCore_onlyCores ..)).trans only, fun k mem known => ?_, fun c out => ?_⟩
    · rcases List.mem_cons.mp mem with rfl | later
      · rw [other k.1 once.1, State.restoreCore, State.core_modCore _ _ _ known]
        exact ⟨rfl, rfl, rfl, rfl, rfl, rfl⟩
      · exact runs k later known
    · rw [List.map_cons, List.mem_cons, not_or] at out
      exact (other c out.2).trans ((State.core_modCore_ne _ _ _ _ out.1).trans (s.restoreSp_core_ne a.1 g a.2 live out.1))

/-- A wait that registers again, or is dropped, leaves the tasks and what a core runs with. -/
theorem State.rewait_keeps (s : State) (c : Nat) :
    (s.rewait c).tasks = s.tasks ∧ ∀ d < 48, ∀ (saved : Core) (t : Nat), (s.core d).RunsOn saved t → ((s.rewait c).core d).RunsOn saved t := by
  have dropped : ∀ d < 48, ∀ (saved : Core) (t : Nat), (s.core d).RunsOn saved t → ((s.modCore c (fun k => { k with stall := none })).core d).RunsOn saved t := by
    intro d known saved t h
    by_cases same : d = c
    · subst same
      rw [State.core_modCore _ _ _ known]
      exact ⟨h.state, h.task, h.ip, h.sreg, h.lt, h.window⟩
    · rwa [State.core_modCore_ne _ _ _ _ same]
  unfold State.rewait
  cases (s.core c).stall with
  | none => exact ⟨rfl, fun _ _ _ _ => id⟩
  | some w =>
    cases w with
    | hub h n sc cn words =>
      exact iteInduction (motive := fun u : State => u.tasks = s.tasks ∧ ∀ d < 48, ∀ (saved : Core) (t : Nat), (s.core d).RunsOn saved t → (u.core d).RunsOn saved t)
        (fun _ => ⟨rfl, fun _ _ _ _ => id⟩) (fun _ => ⟨rfl, dropped⟩)
    | _ => exact ⟨rfl, fun _ _ _ _ => id⟩

theorem State.rewaits_keep (cs : List Nat) (s : State) :
    (cs.foldl (fun s c => s.rewait c) s).tasks = s.tasks
      ∧ ∀ d < 48, ∀ (saved : Core) (t : Nat), (s.core d).RunsOn saved t → ((cs.foldl (fun s c => s.rewait c) s).core d).RunsOn saved t :=
  ⟨foldl_same State.tasks (fun s c => s.rewait c) (fun u c => (u.rewait_keeps c).1) cs s,
    fun d known saved t h => foldl_keeps (fun u : State => (u.core d).RunsOn saved t) (fun s c => s.rewait c)
      (fun u c h => (u.rewait_keeps c).2 d known saved t h) cs s h⟩

/-- The operations parked for a task are applied, core by core (R189). -/
def State.unparkAll (s : State) (t : Nat) (cs : List Nat) : State :=
  cs.foldl (fun u c => ((s.park.filter (fun p => p.task == t)).filter (fun p => p.core == c)).foldl State.unpark u) { s with park := s.park.filter (fun p => p.task != t) }

theorem State.unparkAll_none {v : State} {t : Nat} (unparked : ∀ p ∈ v.park, p.task ≠ t) (cs : List Nat) : v.unparkAll t cs = v := by
  have due : v.park.filter (fun p => p.task == t) = [] := List.filter_eq_nil_iff.mpr fun p mem => by
    rw [beq_iff_eq]
    exact unparked p mem
  have all : v.park.filter (fun p => p.task != t) = v.park := List.filter_eq_self.mpr fun p mem => bne_iff_ne.mpr (unparked p mem)
  unfold State.unparkAll
  rw [due, all]
  exact foldl_stays fun c _ => rfl

/-! ### The steps of a pre-emption -/

section
variable {t : Nat} {x : Task} {s : State} (alive : s.failed = false) (found : s.task? t = some x)
include alive found

/-- What a saved task's part of the save area takes, in whole lines. -/
def Task.saveLine (x : Task) : Nat := (x.saveBytes + 255) / 256 * 256

theorem exec_preemptRequest {vs : List Nat} {ps : List (Nat × Nat)}
    (considered : s.considered x = true) (fits : s.resFits x = true) (on : s.rdb Reg.SCHED_PRE_CTL_PRE_EN = true) (area : s.saveArea.2 ≠ 0)
    (short : (s.offerWithout x ((s.tasks.filter (fun (v : Task) => v.state == .draining || v.state == .saving)).map Task.num)).length < s.coresWanted x)
    (picked : s.pickVictims x ((s.tasks.filter (fun (v : Task) => v.state == .draining || v.state == .saving)).map Task.num) = some vs)
    (placed : s.savePlaces ((s.victims x.cls).filter (fun v => vs.contains v.num)) s.saves = some ps) :
    exec (.preemptRequest t none) s = .next (ps.foldl State.drainTask s) := by
  refine congrArg Host.Outcome.next ?_
  rw [found]
  have proceeds : (s.failed || !s.considered x || !s.resFits x || !s.rdb Reg.SCHED_PRE_CTL_PRE_EN || s.saveArea.2 == 0
      || decide (s.coresWanted x ≤ (s.offerWithout x ((s.tasks.filter (fun (v : Task) => v.state == .draining || v.state == .saving)).map Task.num)).length)) = false := by
    rw [alive, considered, fits, on, beq_eq_false_iff_ne.mpr area, decide_eq_false (by omega)]
    rfl
  refine (if_neg (Bool.eq_false_iff.mp proceeds)).trans ?_
  refine of_have ?_
  rw [picked]
  exact congrArg (fun o : Option (List (Nat × Nat)) => match o with
    | none => s
    | some ps => ps.foldl State.drainTask s) placed

theorem exec_preemptSave (state : x.state = .draining) (safe : ∀ c ∈ x.cores, (s.core c).safePoint = true) (quiet : s.waiters = [])
    (still : ∀ c ∈ x.cores, ∀ i, ((s.core c).fillerOf i).running = false) :
    exec (.preemptSave ⟨t, []⟩) s = .next { (s.modCores x.cores (fun k => { k with task := 0 })).modTask t
        (fun y => { y with state := .saving, saved := x.cores.map (fun c => (c, (s.core c).forSave)) }) with waiters := [] } := by
  refine congrArg Host.Outcome.next ?_
  rw [found]
  have proceeds : (s.failed || x.state != .draining || !x.cores.all (fun c => (s.core c).safePoint)) = false := by
    rw [alive, state, List.all_eq_true.mpr safe]
    rfl
  refine (if_neg (Bool.eq_false_iff.mp proceeds)).trans ?_
  have woken : x.cores.foldl (fun s c => s.settleWake c) s = s := foldl_stays fun c _ => State.settleWake_none quiet c
  have ended : x.cores.foldl (fun s c => s.endFillers c []) s = s := foldl_stays fun c mem => State.endFillers_none (still c mem) []
  have nobody : (s.modCores x.cores (fun k => { k with task := 0 })).waiters = [] := by
    rw [(congrArg State.waiters (s.modCores_onlyCores x.cores _).eq :)]
    exact quiet
  have last (u : State) (w : List Waiter) (none_ : w = []) : { u with waiters := w.filter (fun w => !(x.cores.contains w.core)) } = { u with waiters := [] } := by
    subst none_
    rfl
  dsimp only
  rw [woken, ended]
  exact last ((s.modCores x.cores (fun k => { k with task := 0 })).modTask t
    (fun y => { y with state := .saving, saved := x.cores.map (fun c => (c, (s.core c).forSave)) })) _ nobody

theorem exec_preemptAbandon (state : x.state = .draining) (unsafe_ : ∃ c ∈ x.cores, (s.core c).safePoint = false) :
    exec (.preemptAbandon t) s = .next ((((s.modCores x.cores (fun k => { k with draining := false })).modTask t (fun y => { y with state := .running })).bump
      Reg.SCHED_STAT_ABANDONED 1).raise { Fault_.blank 0 Status.ok 0x0801 with task := t, job := x.job, info0 := BitVec.ofNat 64 Reg.SCHED_PRE_CTL }) := by
  refine congrArg Host.Outcome.next ?_
  rw [found]
  have proceeds : (s.failed || x.state != .draining || x.cores.all (fun c => (s.core c).safePoint)) = false := by
    have some_ : x.cores.all (fun c => (s.core c).safePoint) = false := by
      obtain ⟨c, mem, no⟩ := unsafe_
      exact List.all_eq_false.mpr ⟨c, mem, Bool.eq_false_iff.mp no⟩
    rw [alive, state, some_]
    rfl
  exact if_neg (Bool.eq_false_iff.mp proceeds)

theorem exec_preemptSaveDone (state : x.state = .saving) (unkilled : x.killed = false) (sound : x.jobFatal = none) (ready : s.lmWaits x.saveAt x.saveLine = false)
    (good : ∀ c ∈ x.cores, (s.core c).badIn x.image.live = none)
    (stored : (s.freshJunk.2.lmWrite [] 0 1 x.saveAt ((List.range x.saveLine).map (Config.junkByte s.freshJunk.1))).1.at? = none) :
    exec (.preemptSaveDone t []) s = .next
      (((((s.freshJunk.2.lmWrite [] 0 1 x.saveAt ((List.range x.saveLine).map (Config.junkByte s.freshJunk.1))).2.modCores x.cores Core.saved).modTask t
        (fun y => { y with state := .preempted })).bump Reg.SCHED_STAT_PREEMPTIONS 1).cplDue x.queue x.interimEntry) := by
  refine congrArg Host.Outcome.next ?_
  rw [found]
  have proceeds : (s.failed || x.state != .saving || x.killed || x.jobFatal.isSome || s.lmWaits x.saveAt x.saveLine) = false := by
    rw [alive, state, unkilled, sound, ready]
    rfl
  refine (if_neg (Bool.eq_false_iff.mp proceeds)).trans ?_
  have clean : x.cores.findSome? (fun c => (s.core c).badIn x.image.live) = none := List.findSome?_eq_none_iff.mpr good
  have no : s.sramUpsets [] = s := rfl
  rw [no]
  refine of_have ?_
  rw [clean]
  unfold Task.saveLine at stored ⊢
  generalize State.freshJunk = fresh at stored ⊢
  generalize State.lmWrite = write at stored ⊢
  refine of_have ?_
  rw [stored]
  rfl

theorem exec_taskRestoreDone (state : x.state = .restoring) (unkilled : x.killed = false) (sound : x.jobFatal = none) (ready : s.lmWaits x.saveAt x.saveLine = false)
    (good : (s.lmRead [] 0 1 x.saveAt x.saveLine).2.1.at? = none) (unparked : ∀ p ∈ s.park, p.task ≠ t)
    (once : (x.saved.map Prod.fst).Nodup) :
    exec (.taskRestoreDone t []) s = .next (x.cores.foldl (fun s c => s.rewait c)
      (((s.lmRead [] 0 1 x.saveAt x.saveLine).2.2.freshJunk.2.restoreAll (s.lmRead [] 0 1 x.saveAt x.saveLine).2.2.freshJunk.1 t x.image.live x.saved).modTask t
        (fun y => { y with state := .running, saved := [], stalled := 0 }))) := by
  refine congrArg Host.Outcome.next ?_
  rw [found]
  have proceeds : (s.failed || x.state != .restoring || x.killed || x.jobFatal.isSome || s.lmWaits x.saveAt x.saveLine) = false := by
    rw [alive, state, unkilled, sound, ready]
    rfl
  refine (if_neg (Bool.eq_false_iff.mp proceeds)).trans ?_
  have park : (s.lmRead [] 0 1 x.saveAt x.saveLine).2.2.park = s.park := (s.lmRead_onlyLm 0 1 x.saveAt x.saveLine).park
  generalize reading : s.lmRead [] 0 1 x.saveAt x.saveLine = r at good park ⊢
  obtain ⟨d, b, u⟩ := r
  have read := reading
  unfold Task.saveLine at read
  rw [read]
  dsimp only at good park
  refine of_have ?_
  rw [good]
  have kept := (State.restoreCores u.freshJunk.1 t x.image.live x.saved once u.freshJunk.2).1
  have same : (u.freshJunk.2.restoreAll u.freshJunk.1 t x.image.live x.saved).park = s.park := (congrArg State.park kept.eq :).trans park
  have none_ := State.unparkAll_none (v := (u.freshJunk.2.restoreAll u.freshJunk.1 t x.image.live x.saved).modTask t
    (fun y => { y with state := .running, saved := [], stalled := 0 })) (t := t) (same.symm ▸ unparked) x.cores
  exact congrArg (fun v : State => x.cores.foldl (fun s c => s.rewait c) v) none_

end

/-- Settles O37: each step changes the task and its cores in turn, and what is read or written in LM leaves both. -/
theorem tasksArePreemptedAndRestored : Obligations.TasksArePreemptedAndRestored := by
  unfold Obligations.TasksArePreemptedAndRestored
  intro t x s alive found known
  refine ⟨fun vs ps considered fits on area short picked placed once => ?_, fun state safe quiet tidy => ?_, fun state unsafe_ => ?_,
    fun state unkilled sound ready good stored => ?_, fun state next can => ?_, fun state unkilled sound ready good unparked once => ?_, fun state waits => ?_⟩
  · have nums : (ps.map Prod.fst).Nodup := State.savePlaces_nums placed ▸ State.victims_once once x.cls _
    obtain ⟨placed_, drained, -⟩ := State.drainAll ps nums s
    exact ⟨_, exec_preemptRequest alive found considered fits on area short picked placed, placed_, drained⟩
  · refine ⟨_, exec_preemptSave alive found state safe quiet (fun c mem => (tidy c mem).2), fun y mem named => ?_, fun c mem => ?_⟩
    · obtain ⟨z, -, -, rfl⟩ := State.modTask_mem mem named
      exact ⟨rfl, rfl⟩
    · exact State.modCores_core (P := fun k : Core => k.task = 0) (fun _ => rfl) mem (known c mem) s
  · refine ⟨_, exec_preemptAbandon alive found state unsafe_, fun y mem named => ?_, fun c mem => ?_, ?_⟩
    · rw [State.raise_tasks] at mem
      obtain ⟨z, -, -, rfl⟩ := State.modTask_mem mem named
      rfl
    · rw [State.core_congr (State.raise_cores _ _)]
      exact State.modCores_core (P := fun k : Core => k.draining = false) (fun _ => rfl) mem (known c mem) s
    · rw [State.raise_rd _ _ ⟨by decide⟩, State.rd_bump]
      have same : ((s.modCores x.cores (fun k => { k with draining := false })).modTask t (fun y => { y with state := .running })).regs = s.regs :=
        (congrArg State.regs (s.modCores_onlyCores x.cores _).eq :)
      rw [s.rd_congr _ _ same]
  · have wrote := s.freshJunk.2.lmWrite_onlyLm 0 1 x.saveAt ((List.range x.saveLine).map (Config.junkByte s.freshJunk.1))
    obtain ⟨v, hv⟩ : ∃ v, v = (s.freshJunk.2.lmWrite [] 0 1 x.saveAt ((List.range x.saveLine).map (Config.junkByte s.freshJunk.1))).2 := ⟨_, rfl⟩
    have run := exec_preemptSaveDone alive found state unkilled sound ready good stored
    rw [← hv] at wrote run
    obtain ⟨tasks, cores, rd⟩ := State.cplDue_keeps (((v.modCores x.cores Core.saved).modTask t (fun y => { y with state := .preempted })).bump
      Reg.SCHED_STAT_PREEMPTIONS 1) x.queue x.interimEntry
    refine ⟨_, run, fun y mem named => ?_, fun c mem => ?_, ?_⟩
    · rw [tasks] at mem
      obtain ⟨z, -, -, rfl⟩ := State.modTask_mem mem named
      rfl
    · rw [State.core_congr cores]
      exact State.modCores_core (P := fun k : Core => k.state = 3 ∧ k.window = []) (fun _ => ⟨rfl, rfl⟩) mem (known c mem) v
    · have same : ((v.modCores x.cores Core.saved).modTask t (fun y => { y with state := .preempted })).regs = v.regs :=
        (congrArg State.regs (v.modCores_onlyCores x.cores _).eq :)
      rw [rd _ (by decide), State.rd_bump, v.rd_congr _ _ same, wrote.rd _ ⟨by decide, by decide⟩]
      rfl
  · refine congrArg Host.Outcome.next ?_
    rw [found]
    have proceeds : (s.failed || x.state != .preempted || !s.canGo x || !s.isNext x) = false := by
      rw [alive, state, can, next]
      rfl
    exact if_neg (Bool.eq_false_iff.mp proceeds)
  · obtain ⟨only, runs, -⟩ := State.restoreCores (s.lmRead [] 0 1 x.saveAt x.saveLine).2.2.freshJunk.1 t x.image.live x.saved once
      (s.lmRead [] 0 1 x.saveAt x.saveLine).2.2.freshJunk.2
    obtain ⟨v, hv⟩ : ∃ v, v = (s.lmRead [] 0 1 x.saveAt x.saveLine).2.2.freshJunk.2.restoreAll (s.lmRead [] 0 1 x.saveAt x.saveLine).2.2.freshJunk.1 t x.image.live x.saved := ⟨_, rfl⟩
    have run := exec_taskRestoreDone alive found state unkilled sound ready good unparked once
    rw [← hv] at run runs
    obtain ⟨tasks, keeps⟩ := State.rewaits_keep x.cores (v.modTask t (fun y => { y with state := .running, saved := [], stalled := 0 }))
    refine ⟨_, run, fun y mem named => ?_, fun k mem known_ => ?_⟩
    · rw [tasks] at mem
      obtain ⟨z, -, -, rfl⟩ := State.modTask_mem mem named
      exact ⟨rfl, rfl⟩
    · obtain ⟨state_, task, ip, sreg, lt, window⟩ := keeps k.1 known_ k.2 t (runs k mem known_)
      exact ⟨state_, task, ip, sreg, lt, window⟩
  · have busy (a b : Bool) : (s.failed || a || x.killed || x.jobFatal.isSome || s.lmWaits x.saveAt x.saveLine) = true := by
      rw [show s.lmWaits x.saveAt x.saveLine = true from waits, Bool.or_true]
    constructor
    · refine congrArg Host.Outcome.next ?_
      rw [found]
      exact if_pos (busy _ true)
    · refine congrArg Host.Outcome.next ?_
      rw [found]
      exact if_pos (busy _ true)

end Sys2Proof.Machine
end

section
/-! A task that is over leaves, and C0 tokens refill (R66, R190, R191, R218, R232, R235). -/

namespace Sys2Proof.Machine

/-! ### What ending a task leaves of the others' claims -/

/-- A register field that the end of a task leaves, apart from those of the residue check. -/
structure Fld.BeyondEnds (g : Fld) : Prop where
  records : g.BeyondRecords
  tokens  : g.key ≠ Reg.SCHED_C0_STAT_TOKENS.key
  waits   : g.key ≠ Reg.SCHED_C0_STAT_HELD_TOTAL.key
  ahead   : ∀ c, g.key ≠ (Reg.CORE_RUNAHEAD_STAT_RA_DISCARDED c).key
  lost    : g.key ≠ Reg.HOST_STAT_CPL_DROPPED.key
  filled  : ∀ l, g.key ≠ (Reg.LEAF_FILL_STAT_FILL_KCYCLES l).key

/-- From s the state comes to t with the same tasks by number, every core with its task, every allocation, and the register
fields that the end of a task leaves. -/
structure State.KeepsClaims (s t : State) : Prop where
  nums   : t.tasks.map Task.num = s.tasks.map Task.num
  runs   : ∀ c, (t.core c).task = (s.core c).task
  allocs : t.allocs = s.allocs
  failed : t.failed = s.failed
  rd     : ∀ g : Fld, g.BeyondEnds → t.rd g = s.rd g

theorem State.KeepsClaims.refl (s : State) : s.KeepsClaims s := ⟨rfl, fun _ => rfl, rfl, rfl, fun _ _ => rfl⟩

theorem State.KeepsClaims.trans {s t u : State} (a : s.KeepsClaims t) (b : t.KeepsClaims u) : s.KeepsClaims u :=
  ⟨b.nums.trans a.nums, fun c => (b.runs c).trans (a.runs c), b.allocs.trans a.allocs, b.failed.trans a.failed, fun g h => (b.rd g h).trans (a.rd g h)⟩

theorem State.KeepsClaims.foldl {α : Type} {s : State} {f : State → α → State} (h : ∀ (t : State) a, t.KeepsClaims (f t a)) (l : List α) : s.KeepsClaims (l.foldl f s) :=
  foldl_keeps s.KeepsClaims f (fun t a k => k.trans (h t a)) l s (.refl s)

theorem State.keepsClaims_of {s t : State} (tasks : t.tasks = s.tasks) (cores : t.cores = s.cores) (allocs : t.allocs = s.allocs) (failed : t.failed = s.failed)
    (rd : ∀ g : Fld, g.BeyondEnds → t.rd g = s.rd g) : s.KeepsClaims t :=
  ⟨congrArg _ tasks, fun c => congrArg Core.task (State.core_congr cores c), allocs, failed, rd⟩

theorem State.keepsClaims_waiters (s : State) (waiters : List Waiter) : s.KeepsClaims { s with waiters := waiters } :=
  State.keepsClaims_of rfl rfl rfl rfl fun _ _ => rfl

theorem State.keepsClaims_tables (s : State) (colls : List Coll) (store : List CSlot) (storeWait : List Packet) (triples : List Aborted)
    (txns : List Txn) (c0Held : List (Nat × Nat × Packet)) :
    s.KeepsClaims { s with colls := colls, store := store, storeWait := storeWait, triples := triples, txns := txns, c0Held := c0Held } :=
  State.keepsClaims_of rfl rfl rfl rfl fun _ _ => rfl

theorem State.modCore_keepsClaims (s : State) (c : Nat) {f : Core → Core} (same : ∀ k, (f k).task = k.task) : s.KeepsClaims (s.modCore c f) := by
  refine ⟨rfl, fun d => ?_, rfl, rfl, fun _ _ => rfl⟩
  by_cases here : d = c
  · subst here
    by_cases known : d < 48
    · rw [State.core_modCore _ _ _ known]
      exact same _
    · have out : (s.modCore d f).core d = s.core d := by
        unfold State.modCore State.core
        simp [Vector.getD, known]
      rw [out]
  · rw [State.core_modCore_ne _ _ _ _ here]

theorem State.modTask_keepsClaims (s : State) (n : Nat) {f : Task → Task} (same : ∀ x, (f x).num = x.num) : s.KeepsClaims (s.modTask n f) := by
  refine ⟨?_, fun _ => rfl, rfl, rfl, fun _ _ => rfl⟩
  have each : (Task.num ∘ fun x => if x.num == n then f x else x) = Task.num := by
    funext x
    show (if x.num == n then f x else x).num = x.num
    split
    · exact same x
    · rfl
  exact (List.map_map ..).trans (congrArg (fun g => s.tasks.map g) each)

theorem State.OnlyRecords.keepsClaims {s t : State} (h : s.OnlyRecords t) (rd : ∀ g : Fld, g.BeyondEnds → t.rd g = s.rd g) : s.KeepsClaims t :=
  State.keepsClaims_of (congrArg State.tasks h.eq :) (congrArg State.cores h.eq :) (congrArg State.allocs h.eq :) (congrArg State.failed h.eq :) rd

theorem State.raise_keepsClaims (s : State) (f : Fault_) : s.KeepsClaims (s.raise f) :=
  (s.raise_onlyRecords f).keepsClaims fun _ b => s.raise_rd f b.records

theorem State.hmStore_keepsClaims (s : State) (off : Nat) (bs : List Byte) : s.KeepsClaims (s.hmStore off bs) :=
  (s.hmStore_onlyRecords off bs).keepsClaims fun g _ => s.rd_congr _ g (s.hmStore_regs off bs)

theorem State.bump_keepsClaims (s : State) {f : Fld} (n : Nat) (apart : ∀ g : Fld, g.BeyondEnds → g.key ≠ f.key) : s.KeepsClaims (s.bump f n) :=
  State.keepsClaims_of rfl rfl rfl rfl fun g b => s.bump_rd_ne n (apart g b)

theorem State.wr_keepsClaims (s : State) {f : Fld} (v : Nat) (apart : ∀ g : Fld, g.BeyondEnds → g.key ≠ f.key) : s.KeepsClaims (s.wr f v) :=
  State.keepsClaims_of rfl rfl rfl rfl fun g b => s.rd_wr_ne f g v (apart g b)

theorem State.dropAhead_keepsClaims (s : State) (c : Nat) : s.KeepsClaims (s.dropAhead c) :=
  (s.bump_keepsClaims _ (fun _ b => b.ahead c)).trans (State.modCore_keepsClaims _ c (fun _ => rfl))

theorem State.modEntry_keepsClaims (s : State) (c id : Nat) (f : Entry → Entry) : s.KeepsClaims (s.modEntry c id f) := s.modCore_keepsClaims c (fun _ => rfl)

theorem State.spWrite_keepsClaims (s : State) (c off : Nat) (bs : List Byte) : s.KeepsClaims (s.spWrite c off bs) := s.modCore_keepsClaims c (fun _ => rfl)

/-! ### Task-fatal statuses -/

theorem State.haltTask_keepsClaims (s : State) (t : Nat) (waiters : List Waiter) : s.KeepsClaims { s with
    cores := s.cores.map (fun k => if k.task = t ∧ t ≠ 0 ∧ k.state = 1 ∧ k.finished = false then k.stop else k), waiters := waiters } := by
  refine ⟨rfl, fun c => ?_, rfl, rfl, fun _ _ => rfl⟩
  have each (k : Core) : (if k.task = t ∧ t ≠ 0 ∧ k.state = 1 ∧ k.finished = false then k.stop else k).task = k.task := by
    split <;> rfl
  by_cases known : c < 48
  · have stopped := getD_map s.cores (fun k => if k.task = t ∧ t ≠ 0 ∧ k.state = 1 ∧ k.finished = false then k.stop else k) c Core.reset Core.reset known
    exact (congrArg Core.task stopped).trans (each _)
  · unfold State.core
    simp [Vector.getD, known]

theorem State.stopTask_keepsClaims (s : State) (t : Nat) : s.KeepsClaims (s.stopTask t) := by
  have dropped : s.KeepsClaims (s.dropAheads (s.coresOf t)) := .foldl (fun u c => u.dropAhead_keepsClaims c) _
  exact dropped.trans (State.haltTask_keepsClaims ..)

theorem Task.failWith_num (x : Task) (st c ip : Nat) : (x.failWith st c ip).num = x.num := rfl

theorem State.lastStatus_keepsClaims (s : State) (c st : Nat) : s.KeepsClaims (s.lastStatus c st) := by
  unfold State.lastStatus
  split
  · exact .refl s
  · exact s.modCore_keepsClaims c (fun _ => rfl)

theorem State.coreStopped_keepsClaims (s : State) (c : Nat) (f : Fatal) : s.KeepsClaims (s.coreStopped c f) := by
  unfold State.coreStopped
  refine ((((s.raise_keepsClaims _).trans (State.lastStatus_keepsClaims _ c _)).trans (State.modTask_keepsClaims _ _ (fun x => x.failWith_num _ _ _))).trans
    (State.dropAhead_keepsClaims _ c)).trans (State.modCore_keepsClaims _ c fun k => ?_)
  split <;> rfl

theorem State.coreFatal_keepsClaims (s : State) (c : Nat) (f : Fatal) : s.KeepsClaims (s.coreFatal c f) := by
  rw [State.coreFatal_eq]
  exact (s.coreStopped_keepsClaims c f).trans (State.stopTask_keepsClaims _ _)

theorem State.seqFatal_keepsClaims (s : State) (c st cause : Nat) (info : Word) : s.KeepsClaims (s.seqFatal c st cause info) := s.coreFatal_keepsClaims c _

theorem State.ownerGone_keepsClaims (s : State) (first len : Nat) : s.KeepsClaims (s.ownerGone first len) :=
  (s.keepsClaims_waiters _).trans (.foldl (fun (t : State) (w : Waiter) => t.seqFatal_keepsClaims w.core Status.ownerGone 0x0102 0) _)

/-! ### Collectives that end -/

theorem State.inject_keepsClaims (s : State) (p : Packet) : s.KeepsClaims (s.inject p) := State.keepsClaims_of rfl rfl rfl rfl fun _ _ => rfl

theorem State.sendFree_keepsClaims (s : State) (c : Nat) (p : Packet) : s.KeepsClaims (s.sendFree c p) := by
  unfold State.sendFree
  refine iteInduction (fun _ => ?_) (fun _ => s.inject_keepsClaims p)
  unfold State.sendC0
  dsimp only
  refine iteInduction (motive := fun r : State × Bool => s.KeepsClaims r.1) (fun _ => ?_) (fun _ => ?_)
  · exact (s.wr_keepsClaims _ (fun _ b => b.tokens)).trans (State.inject_keepsClaims _ p)
  · exact (s.keepsClaims_tables ..).trans (State.bump_keepsClaims _ 1 (fun _ b => b.waits))

theorem State.passAbort_keepsClaims (s : State) (x : Coll) (st : Nat) : s.KeepsClaims (s.passAbort x st) :=
  .foldl (fun t _ => t.sendFree_keepsClaims hubCore _) _

theorem State.collStatus_keepsClaims (s : State) (x : Coll) (st : Nat) : s.KeepsClaims (s.collStatus x st) := by
  have counted (off n : Nat) : s.KeepsClaims (s.hmCount off n) := s.hmStore_keepsClaims off _
  unfold State.collStatus
  refine State.KeepsClaims.trans ?_ (State.hmStore_keepsClaims _ _ _)
  refine iteInduction (fun _ => counted _ 8) (fun _ => ?_)
  exact iteInduction (fun _ => counted _ 4) (fun _ => counted _ 4)

theorem State.junkTile_keepsClaims (s : State) (c : Nat) (t : Tile) : s.KeepsClaims (s.junkTile c t) := by
  have fresh : s.KeepsClaims s.freshJunk.2 := State.keepsClaims_of rfl rfl rfl rfl fun _ _ => rfl
  have spoilt (u : State) (r : Nat × Nat) : u.KeepsClaims (u.modCore c (fun k => { k with sp := k.sp.smudge r.1 r.2 s.freshJunk.1 })) :=
    u.modCore_keepsClaims c (fun _ => rfl)
  exact fresh.trans (.foldl spoilt _)

theorem State.spoilTd_keepsClaims (s : State) (x : Coll) (o : CollOpen) (st : Nat) : s.KeepsClaims (s.spoilTd x o st) := by
  unfold State.spoilTd
  exact iteInduction (fun _ => s.junkTile_keepsClaims _ _) (fun _ => .refl s)

theorem State.modColl_keepsClaims (s : State) (gid seq : Nat) (f : Coll → Coll) : s.KeepsClaims (s.modColl gid seq f) := s.keepsClaims_tables ..

theorem State.closeOpen_keepsClaims (s : State) (x : Coll) (o : CollOpen) (st : Nat) : s.KeepsClaims (s.closeOpen x o st) := by
  have shut : s.KeepsClaims (s.modCore o.core (fun k => { k with handles := k.handles.setIfInBounds o.handle none })) := s.modCore_keepsClaims _ (fun _ => rfl)
  unfold State.closeOpen
  refine iteInduction (fun _ => ?_) (fun _ => ?_)
  · exact (shut.trans (State.modColl_keepsClaims ..)).trans (State.modEntry_keepsClaims ..)
  · exact (((shut.trans (State.modColl_keepsClaims ..)).trans (State.spoilTd_keepsClaims _ x o st)).trans
      (State.modCore_keepsClaims _ o.core (f := fun k => k.pubsEnd o st x.name) (fun _ => rfl))).trans (State.modEntry_keepsClaims ..)

theorem State.collEnd_keepsClaims (s : State) (x : Coll) (st : Nat) (passed : Bool) : s.KeepsClaims (s.collEnd x st passed) := by
  have closed : s.KeepsClaims ((x.opens.filter (fun o => !o.fin)).foldl (fun s o => s.closeOpen x o st) (s.collStatus x st)) :=
    (s.collStatus_keepsClaims x st).trans (.foldl (fun u o => u.closeOpen_keepsClaims x o st) _)
  unfold State.collEnd
  refine (closed.trans ?_).trans (State.keepsClaims_tables ..)
  refine iteInduction (fun _ => State.raise_keepsClaims _ _) (fun _ => ?_)
  exact iteInduction (fun _ => State.raise_keepsClaims _ _) (fun _ => .refl _)

theorem State.collFail_keepsClaims (s : State) (x : Coll) (st : Nat) : s.KeepsClaims (s.collFail x st) := by
  unfold State.collFail
  refine iteInduction (fun _ => ?_) (fun _ => ?_)
  · exact (s.passAbort_keepsClaims x st).trans (State.collEnd_keepsClaims ..)
  · exact (s.sendFree_keepsClaims hubCore _).trans (State.collEnd_keepsClaims ..)

theorem State.collTaskGone_keepsClaims (s : State) (cores : List Nat) : s.KeepsClaims (s.collTaskGone cores) :=
  .foldl (fun t x => iteInduction (fun _ => t.collFail_keepsClaims x _) (fun _ => .refl t)) _

/-! ### Fillers, held packets and tumblers -/

theorem State.endFillers_keepsClaims (s : State) (c : Nat) : s.KeepsClaims (s.endFillers c []) := by
  refine .foldl (fun t i => ?_) _
  unfold State.endFiller
  refine iteInduction (fun _ => ?_) (fun _ => .refl t)
  have counted (n : Nat) : t.KeepsClaims (t.bumpK (Reg.LEAF_FILL_STAT_FILL_KCYCLES (c / 12)) n) :=
    State.keepsClaims_of rfl rfl rfl rfl fun g b => t.bumpK_rd_ne n (b.filled _)
  exact (counted _).trans (State.modCore_keepsClaims _ c (fun _ => rfl))

theorem State.dropHeld_keepsClaims (s : State) (c : Nat) : s.KeepsClaims (s.dropHeld c) := by
  have released (t : State) (d n : Nat) : t.KeepsClaims (t.winRelease d n) := State.keepsClaims_of rfl rfl rfl rfl fun _ _ => rfl
  unfold State.dropHeld
  exact (s.keepsClaims_tables ..).trans (.foldl (fun t x => iteInduction (fun _ => released t _ _) (fun _ => .refl t)) _)

theorem State.tumAnswer_keepsClaims (s : State) (iss : Issuer) (op : TumOp) (st : Nat) (old : Word32) : s.KeepsClaims (s.tumAnswer iss op st old) := by
  unfold State.tumAnswer
  cases iss with
  | none => exact .refl s
  | local_ c id =>
    dsimp only
    cases (s.core c).entry? id with
    | none => exact .refl s
    | some e =>
      refine State.KeepsClaims.trans ?_ (State.modEntry_keepsClaims _ c id _)
      split
      · exact iteInduction (fun _ => s.spWrite_keepsClaims ..) (fun _ => .refl s)
      · exact iteInduction (fun _ => .refl s) (fun _ => s.spWrite_keepsClaims ..)
      · exact .refl s
  | remote src tag cls => cases op <;> exact s.inject_keepsClaims _

theorem State.keepsClaims_parks (s : State) (park refused : List Parked) : s.KeepsClaims { s with park := park, refused := refused } :=
  State.keepsClaims_of rfl rfl rfl rfl fun _ _ => rfl

theorem State.finishRange_keepsClaims (s : State) (c id : Nat) : s.KeepsClaims (s.finishRange c id) := s.modEntry_keepsClaims c id _

/-- An operation parked for a task that ends goes unanswered, or with ADDR_RANGE (R190). -/
def State.dropParked (s : State) (p : Parked) : State := match p.op with
  | .read => s.tumAnswer p.issuer p.op Status.addrRange 0
  | .atom _ _ _ => (match p.issuer with
      | .local_ c id => s.finishRange c id
      | _ => s.tumAnswer p.issuer p.op Status.addrRange 0)
  | _ => s

/-- An operation that its TE holds after a refusal completes with ADDR_RANGE (R190). -/
def State.dropRefused (s : State) (p : Parked) : State := match p.issuer with
  | .local_ c id => s.finishRange c id
  | _ => s

/-- What the hub holds for a task that ends: its parked operations, then those refused. -/
def State.dropParks (s : State) (t : Nat) : State := (s.park.filter (fun p => p.task == t)).foldl State.dropParked { s with park := s.park.filter (fun p => p.task != t) }

def State.dropRefusals (s : State) (t : Nat) : State :=
  (s.refused.filter (fun p => p.task == t)).foldl State.dropRefused { s with refused := s.refused.filter (fun p => p.task != t) }

theorem State.releaseTumblers_eq (s : State) (t : Nat) : s.releaseTumblers t = (s.allocs.filter (fun a => a.task == t)).foldl (fun s a => s.ownerGone a.first a.len)
    (({ s with allocs := s.allocs.filter (fun a => a.task != t) } : State).dropParks t |>.dropRefusals t) := rfl

theorem State.dropParked_keepsClaims (s : State) (p : Parked) : s.KeepsClaims (s.dropParked p) := by
  unfold State.dropParked
  split
  · exact s.tumAnswer_keepsClaims ..
  · split
    · exact s.finishRange_keepsClaims ..
    · exact s.tumAnswer_keepsClaims ..
  · exact .refl s

theorem State.dropRefused_keepsClaims (s : State) (p : Parked) : s.KeepsClaims (s.dropRefused p) := by
  unfold State.dropRefused
  split
  · exact s.finishRange_keepsClaims ..
  · exact .refl s

theorem State.dropParks_keepsClaims (s : State) (t : Nat) : s.KeepsClaims (s.dropParks t) :=
  (s.keepsClaims_parks _ s.refused).trans (.foldl State.dropParked_keepsClaims _)

theorem State.dropRefusals_keepsClaims (s : State) (t : Nat) : s.KeepsClaims (s.dropRefusals t) :=
  (s.keepsClaims_parks s.park _).trans (.foldl State.dropRefused_keepsClaims _)

/-- A task's tumblers: its allocations go, and the rest keeps its claims (R190). -/
theorem State.releaseTumblers_keepsClaims (s : State) (t : Nat) :
    ({ s with allocs := s.allocs.filter (fun a => a.task != t) } : State).KeepsClaims (s.releaseTumblers t) := by
  rw [State.releaseTumblers_eq]
  exact ((State.dropParks_keepsClaims _ t).trans (State.dropRefusals_keepsClaims _ t)).trans (.foldl (fun u a => u.ownerGone_keepsClaims _ _) _)

/-! ### The final entry (R218) -/

theorem State.modQueue_keepsClaims (s : State) (q : Nat) (f : Queue → Queue) : s.KeepsClaims (s.modQueue q f) := State.keepsClaims_of rfl rfl rfl rfl fun _ _ => rfl

theorem State.cplDue_keepsClaims (s : State) (q : Nat) (c : Cpl) : s.KeepsClaims (s.cplDue q c) := by
  unfold State.cplDue
  exact iteInduction (fun _ => s.modQueue_keepsClaims q _) (fun _ => s.bump_keepsClaims 1 (fun _ b => b.lost))

theorem State.cmdOver_keepsClaims (s : State) (q seq : Nat) : s.KeepsClaims (s.cmdOver q seq).1 := by
  unfold State.cmdOver
  generalize hu : s.modQueue q (fun x => { x with open_ := x.open_.filter (fun n => n != seq) }) = u
  have closed : s.KeepsClaims u := hu ▸ s.modQueue_keepsClaims q _
  dsimp only
  split
  · refine iteInduction (motive := fun r : State × Option Nat => s.KeepsClaims r.1) (fun _ => ?_) (fun _ => closed)
    exact closed.trans (u.modQueue_keepsClaims q (fun x => { x with barrier := none, open_ := x.open_.filter (fun n => n != _) }))
  · exact closed

theorem State.cmdDone_keepsClaims (s : State) (q seq tag st : Nat) : s.KeepsClaims (s.cmdDone q seq tag st) := by
  have over_ := (s.cplDue_keepsClaims q (cmdEntry tag st)).trans (State.cmdOver_keepsClaims _ q seq)
  unfold State.cmdDone
  generalize (s.cplDue q (cmdEntry tag st)).cmdOver q seq = r at over_ ⊢
  obtain ⟨u, b⟩ := r
  cases b with
  | none => exact over_
  | some b => exact over_.trans (u.cplDue_keepsClaims q _)

/-- The KILLs of a queue that still wait once a task's final entry is there. -/
def Queue.killsAfter (x : Queue) (t : Nat) : List (Nat × Nat × List Nat) := x.kills.map (fun k => (k.1, k.2.1, k.2.2.filter (fun n => n != t)))

/-- One queue's KILLs see the final entry of a task. -/
def State.killsSeeAt (s : State) (t q : Nat) : State :=
  (((s.queue q).killsAfter t).filter (fun k => k.2.2.isEmpty)).foldl (fun s k => s.cmdDone q k.1 k.2.1 Status.ok)
    (s.modQueue q (fun x => { x with kills := ((s.queue q).killsAfter t).filter (fun k => !k.2.2.isEmpty) }))

theorem State.killsSee_eq (s : State) (t : Nat) : s.killsSee t = (List.range 64).foldl (fun s q => s.killsSeeAt t q) s := rfl

theorem State.killsSeeAt_keepsClaims (s : State) (t q : Nat) : s.KeepsClaims (s.killsSeeAt t q) := by
  have done (v : State) (k : Nat × Nat × List Nat) : v.KeepsClaims (v.cmdDone q k.1 k.2.1 Status.ok) := v.cmdDone_keepsClaims ..
  unfold State.killsSeeAt
  refine State.KeepsClaims.trans ?_ (.foldl done _)
  exact s.modQueue_keepsClaims ..

theorem State.killsSee_keepsClaims (s : State) (t : Nat) : s.KeepsClaims (s.killsSee t) := by
  rw [State.killsSee_eq]
  exact .foldl (fun u q => u.killsSeeAt_keepsClaims t q) _

theorem State.finalEntry_keepsClaims (s : State) (x : Task) (c : Cpl) : s.KeepsClaims (s.finalEntry x c) := by
  unfold State.finalEntry
  generalize hv : (if (!s.qEnabled x.queue) = true then (s.cplDue x.queue c).killsSee x.num else s.cplDue x.queue c) = v
  have due : s.KeepsClaims v := by
    rw [← hv]
    exact (s.cplDue_keepsClaims x.queue c).trans (iteInduction (fun _ => State.killsSee_keepsClaims _ _) (fun _ => .refl _))
  have over_ := due.trans (v.cmdOver_keepsClaims x.queue x.qseq)
  dsimp only
  rw [hv]
  generalize v.cmdOver x.queue x.qseq = r at over_ ⊢
  obtain ⟨u, b⟩ := r
  cases b with
  | none => exact over_
  | some b => exact over_.trans (u.cplDue_keepsClaims x.queue _)

/-- An entry that waits. -/
def State.Waits (s : State) (q : Nat) (c : Cpl) : Prop := c ∈ (s.queue q).waiting

theorem State.Waits.modQueue {s : State} {q : Nat} {c : Cpl} (h : s.Waits q c) {f : Queue → Queue} (keeps : ∀ x : Queue, c ∈ x.waiting → c ∈ (f x).waiting)
    (known : q < 64) : (s.modQueue q f).Waits q c := by
  unfold State.Waits
  rw [State.queue_modQueue _ _ _ known]
  exact keeps _ h

theorem State.Waits.cplDue {s : State} {q : Nat} {c : Cpl} (h : s.Waits q c) (known : q < 64) (d : Cpl) : (s.cplDue q d).Waits q c := by
  unfold State.cplDue
  exact iteInduction (motive := fun u : State => u.Waits q c) (fun _ => h.modQueue (fun _ mem => List.mem_append_left _ mem) known) (fun _ => h)

theorem State.Waits.cmdOver {s : State} {q : Nat} {c : Cpl} (h : s.Waits q c) (known : q < 64) (seq : Nat) : (s.cmdOver q seq).1.Waits q c := by
  have closed := h.modQueue (f := fun x => { x with open_ := x.open_.filter (fun n => n != seq) }) (fun _ mem => mem) known
  unfold State.cmdOver
  generalize s.modQueue q (fun x => { x with open_ := x.open_.filter (fun n => n != seq) }) = u at closed ⊢
  dsimp only
  split
  · exact iteInduction (motive := fun r : State × Option Nat => r.1.Waits q c) (fun _ => closed.modQueue (fun _ mem => mem) known) (fun _ => closed)
  · exact closed

theorem State.finalEntry_waits {s : State} {x : Task} (known : x.queue < 64) (enabled : s.qEnabled x.queue = true) (c : Cpl) :
    (s.finalEntry x c).Waits x.queue c := by
  have due : (s.cplDue x.queue c).Waits x.queue c := by
    unfold State.cplDue
    rw [if_pos enabled]
    unfold State.Waits
    rw [State.queue_modQueue _ _ _ known]
    exact List.mem_append_right _ (List.mem_singleton_self c)
  have over_ := due.cmdOver known x.qseq
  unfold State.finalEntry
  dsimp only
  rw [enabled, Bool.not_true, if_neg Bool.false_ne_true]
  generalize (s.cplDue x.queue c).cmdOver x.queue x.qseq = r at over_ ⊢
  obtain ⟨u, b⟩ := r
  cases b with
  | none => exact over_
  | some b => exact State.Waits.cplDue over_ known _

/-! ### The end of a task (R66, R190, R232) -/

/-- What a core becomes when task t, saved on it or not, ends. -/
def Core.freed (k : Core) (s : State) (t : Nat) (x : Task) (c : Nat) : Core :=
  if k.task = t then { k with task := 0, state := if k.state = 2 then 2 else 0, finished := false, ending := false, stall := none, draining := false }
  else if k.task = 0 ∧ x.saved.any (fun y => y.1 == c) ∧ s.tasks.all (fun y => y.num == t || y.saved.all (fun z => z.1 != c)) then
    { k.saved with state := 0 }
  else k

theorem Core.freed_of_free {k : Core} (free : k.task = 0) (s : State) (t : Nat) (x : Task) (c : Nat) : (k.freed s t x c).task = 0 := by
  unfold Core.freed
  exact iteInduction (motive := fun j : Core => j.task = 0) (fun _ => rfl) (fun _ => iteInduction (motive := fun j : Core => j.task = 0) (fun _ => rfl) (fun _ => free))

/-- The cores of a task that ends are freed. -/
def State.freeCores (s : State) (t : Nat) (x : Task) : State := (List.range 48).foldl (fun s c => s.modCore c (fun k => k.freed s t x c)) s

theorem State.freeCores_onlyCores (s : State) (t : Nat) (x : Task) : s.OnlyCores (s.freeCores t x) :=
  foldl_keeps s.OnlyCores (fun (s : State) c => s.modCore c (fun k => k.freed s t x c)) (fun u c h => h.trans (u.modCore_onlyCores c _)) _ s (.refl s)

theorem State.freeCores_core (s : State) (t : Nat) (x : Task) {c : Nat} (known : c < 48) (mine : (s.core c).task = t) : ((s.freeCores t x).core c).task = 0 := by
  have stays (u : State) (a : Nat) (free : (u.core c).task = 0) : ((u.modCore a (fun k => k.freed u t x a)).core c).task = 0 := by
    by_cases same : c = a
    · subst same
      rw [State.core_modCore _ _ _ known]
      exact Core.freed_of_free free u t x c
    · rwa [State.core_modCore_ne _ _ _ _ same]
  have reached (l : List Nat) (mem : c ∈ l) (u : State) (mine : (u.core c).task = t) :
      ((l.foldl (fun s c => s.modCore c (fun k => k.freed s t x c)) u).core c).task = 0 := by
    induction l generalizing u with
    | nil => exact absurd mem List.not_mem_nil
    | cons a l ih =>
      rw [List.foldl_cons]
      by_cases same : c = a
      · subst same
        refine foldl_keeps (fun v : State => (v.core c).task = 0) _ stays l _ ?_
        rw [State.core_modCore _ _ _ known]
        exact congrArg Core.task (if_pos mine)
      · refine ih ((List.mem_cons.mp mem).resolve_left same) _ ?_
        rwa [State.core_modCore_ne _ _ _ _ same]
  exact reached (List.range 48) (List.mem_range.mpr known) s mine

/-- The cores that a task holds. -/
def State.heldBy (s : State) (t : Nat) : List Nat := (List.range 48).filter (fun c => (s.core c).task == t)

/-- What a task that ends leaves before its number goes: its collectives, reads, fillers, cores, packets and tumblers. -/
def State.clearedOf (s : State) (t : Nat) (x : Task) : State :=
  let held := s.heldBy t
  let u := held.foldl (fun s c => s.dropHeld c) ((held.foldl (fun s c => (s.dropAhead c).endFillers c []) (s.collTaskGone held)).freeCores t x)
  ({ u with waiters := u.waiters.filter (fun w => !(held.contains w.core)), collWait := u.collWait.filter (fun w => !(held.contains w.1)) } : State).releaseTumblers t

/-- A task that ends has no core and no allocation; the other claims are as they were. -/
structure State.Cleared (s : State) (t : Nat) (u : State) : Prop where
  nums   : u.tasks.map Task.num = s.tasks.map Task.num
  free   : ∀ c < 48, (s.core c).task = t → (u.core c).task = 0
  allocs : u.allocs = s.allocs.filter (fun a => a.task != t)
  failed : u.failed = s.failed
  rd     : ∀ g : Fld, g.BeyondEnds → u.rd g = s.rd g

theorem State.keepsClaims_waits (s : State) (waiters : List Waiter) (collWait : List (Nat × Nat)) : s.KeepsClaims { s with waiters := waiters, collWait := collWait } :=
  State.keepsClaims_of rfl rfl rfl rfl fun _ _ => rfl

theorem State.clearedOf_cleared (s : State) (t : Nat) (x : Task) : s.Cleared t (s.clearedOf t x) := by
  unfold State.clearedOf
  generalize s.heldBy t = held
  dsimp only
  have quiet : s.KeepsClaims (held.foldl (fun s c => (s.dropAhead c).endFillers c []) (s.collTaskGone held)) :=
    (s.collTaskGone_keepsClaims held).trans (.foldl (fun u c => (u.dropAhead_keepsClaims c).trans (State.endFillers_keepsClaims _ c)) _)
  generalize held.foldl (fun s c => (s.dropAhead c).endFillers c []) (s.collTaskGone held) = a at quiet ⊢
  have only := a.freeCores_onlyCores t x
  have free (c : Nat) (known : c < 48) (mine : (s.core c).task = t) : ((a.freeCores t x).core c).task = 0 :=
    a.freeCores_core t x known ((quiet.runs c).trans mine)
  generalize a.freeCores t x = b at only free ⊢
  have left : b.KeepsClaims (held.foldl (fun s c => s.dropHeld c) b) := .foldl (fun u c => u.dropHeld_keepsClaims c) _
  generalize held.foldl (fun s c => s.dropHeld c) b = d at left ⊢
  have done := (left.trans (d.keepsClaims_waits (d.waiters.filter (fun w => !(held.contains w.core))) (d.collWait.filter (fun w => !(held.contains w.1)))))
  generalize ({ d with waiters := d.waiters.filter (fun w => !(held.contains w.core)), collWait := d.collWait.filter (fun w => !(held.contains w.1)) } : State) = e at done ⊢
  have last := e.releaseTumblers_keepsClaims t
  have tasks : b.tasks = a.tasks := (congrArg State.tasks only.eq :)
  have allocs : b.allocs = a.allocs := (congrArg State.allocs only.eq :)
  have failed : b.failed = a.failed := (congrArg State.failed only.eq :)
  have regs : b.regs = a.regs := (congrArg State.regs only.eq :)
  refine ⟨?_, fun c known mine => ?_, ?_, ?_, fun g h => ?_⟩
  · exact (last.nums.trans done.nums).trans ((congrArg _ tasks).trans quiet.nums)
  · exact ((last.runs c).trans (done.runs c)).trans (free c known mine)
  · rw [last.allocs]
    exact congrArg _ (done.allocs.trans (allocs.trans quiet.allocs))
  · exact (last.failed.trans done.failed).trans (failed.trans quiet.failed)
  · exact ((last.rd g h).trans (done.rd g h)).trans ((State.rd_congr _ _ g regs).trans (quiet.rd g h))

/-- The residue check changes registers alone, and records. -/
theorem State.residueCheck_onlyRecords (s : State) (x : Task) : s.OnlyRecords (s.residueCheck x) := by
  have counted := s.wr_onlyRecords Reg.TUM_RESIDUE_CHECKED (min (s.rd Reg.TUM_RESIDUE_CHECKED + 1) (2 ^ Reg.TUM_RESIDUE_CHECKED.w - 1))
  unfold State.residueCheck
  dsimp only
  split
  · exact counted
  · exact ((((counted.trans (State.wr_onlyRecords ..)).trans (State.wr_onlyRecords ..)).trans (State.wr_onlyRecords ..)).trans (State.wr_onlyRecords ..)).trans
      (State.raise_onlyRecords ..)

/-- A register field that the residue check does not report in. -/
structure Fld.BeyondResidue (g : Fld) : Prop where
  records : g.BeyondRecords
  apart   : ∀ f ∈ [Reg.TUM_RESIDUE_TASK, Reg.TUM_RESIDUE_RESIDUES, Reg.TUM_RESIDUE_FIRST_INDEX, Reg.TUM_RESIDUE_FIRST_VALUE], g.key ≠ f.key

theorem State.residueCheck_rd (s : State) (x : Task) {g : Fld} (b : g.BeyondResidue) : (s.residueCheck x).rd g = (s.bump Reg.TUM_RESIDUE_CHECKED 1).rd g := by
  obtain ⟨records, apart⟩ := b
  simp only [List.forall_mem_cons, List.not_mem_nil, false_implies, implies_true, and_true] at apart
  obtain ⟨task, residues, index, value⟩ := apart
  unfold State.residueCheck
  dsimp only
  split
  · rfl
  · rw [State.raise_rd _ _ records, State.rd_wr_ne _ _ _ _ value, State.rd_wr_ne _ _ _ _ index, State.rd_wr_ne _ _ _ _ residues, State.rd_wr_ne _ _ _ _ task]

/-- The state without a task. -/
def State.withoutTask (s : State) (t : Nat) : State := { s with tasks := s.tasks.filter (fun y => y.num != t) }

/-- The end of a task, after its residue check. -/
def State.endedOf (s : State) (t : Nat) (x : Task) : State :=
  if ((s.clearedOf t x).withoutTask t).failed then (s.clearedOf t x).withoutTask t else ((s.clearedOf t x).withoutTask t).finalEntry x x.finalEntryOf

/-- A task that ends is cleared and its number goes. -/
structure State.Ended (s : State) (t : Nat) (x : Task) (u : State) : Prop where
  gone   : ∀ y ∈ u.tasks, y.num ≠ t
  others : ∀ y ∈ s.tasks, y.num ≠ t → ∃ z ∈ u.tasks, z.num = y.num
  free   : ∀ c, c < 48 → (s.core c).task = t → (u.core c).task = 0
  allocs : u.allocs = s.allocs.filter (fun a => a.task != t)
  entry  : s.failed = false → (∀ g : Fld, g = Reg.SCHED_Q_RING_ENABLE x.queue → g.BeyondEnds) → s.qEnabled x.queue = true → x.queue < 64 → u.Waits x.queue x.finalEntryOf
  rd     : ∀ g : Fld, g.BeyondEnds → u.rd g = s.rd g

theorem State.mem_of_nums {s t : State} (h : t.tasks.map Task.num = s.tasks.map Task.num) {y : Task} (mem : y ∈ s.tasks) : ∃ z ∈ t.tasks, z.num = y.num := by
  have named : y.num ∈ t.tasks.map Task.num := h ▸ List.mem_map_of_mem mem
  exact List.mem_map.mp named

theorem State.endedOf_ended (s : State) (t : Nat) (x : Task) : s.Ended t x (s.endedOf t x) := by
  have cleared := s.clearedOf_cleared t x
  unfold State.endedOf
  generalize s.clearedOf t x = v at cleared ⊢
  have tasks : (v.withoutTask t).tasks = v.tasks.filter (fun y => y.num != t) := rfl
  have cores : (v.withoutTask t).cores = v.cores := rfl
  have allocs : (v.withoutTask t).allocs = v.allocs := rfl
  have failed : (v.withoutTask t).failed = v.failed := rfl
  have regs : (v.withoutTask t).regs = v.regs := rfl
  generalize v.withoutTask t = w at tasks cores allocs failed regs ⊢
  have rd (g : Fld) (b : g.BeyondEnds) : w.rd g = s.rd g := (v.rd_congr w g regs).trans (cleared.rd g b)
  obtain ⟨u, hu⟩ : ∃ u, u = if w.failed = true then w else w.finalEntry x x.finalEntryOf := ⟨_, rfl⟩
  have keeps : w.KeepsClaims u := by
    rw [hu]
    exact iteInduction (fun _ => .refl w) (fun _ => w.finalEntry_keepsClaims x _)
  rw [← hu]
  have gone : ∀ n ∈ w.tasks.map Task.num, n ≠ t := by
    intro n mem
    obtain ⟨y, hy, rfl⟩ := List.mem_map.mp mem
    rw [tasks] at hy
    exact bne_iff_ne.mp (List.mem_filter.mp hy).2
  refine ⟨fun y mem => gone y.num (keeps.nums ▸ List.mem_map_of_mem mem), fun y mem apart => ?_, fun c known mine => ?_, ?_, fun alive beyond enabled known => ?_,
    fun g b => (keeps.rd g b).trans (rd g b)⟩
  · obtain ⟨z, hz, same⟩ := State.mem_of_nums cleared.nums mem
    have left : z ∈ w.tasks := by
      rw [tasks]
      exact List.mem_filter.mpr ⟨hz, bne_iff_ne.mpr (same ▸ apart)⟩
    obtain ⟨z', hz', same'⟩ := State.mem_of_nums keeps.nums left
    exact ⟨z', hz', same'.trans same⟩
  · exact (keeps.runs c).trans ((congrArg Core.task (State.core_congr cores c)).trans (cleared.free c known mine))
  · exact keeps.allocs.trans (allocs.trans cleared.allocs)
  · have alive_ : w.failed = false := failed.trans (cleared.failed.trans alive)
    have enabled_ : w.qEnabled x.queue = true := by
      unfold State.qEnabled State.rdb at enabled ⊢
      rwa [rd _ (beyond _ rfl)]
    rw [hu, if_neg (Bool.eq_false_iff.mp alive_)]
    exact State.finalEntry_waits known enabled_ _

theorem exec_taskEnd {s : State} {t : Nat} {x : Task} (found : s.task? t = some x)
    (ends : (!s.taskOver x || (x.fatal.isNone && x.jobFatal.isNone && !x.killed && s.residueWaits x)) = false) :
    exec (.taskEnd t) s = .next ((if s.allFinished x && x.fatal.isNone && x.jobFatal.isNone && !x.killed then s.residueCheck x else s).endedOf t x) := by
  refine congrArg Host.Outcome.next ?_
  rw [found]
  exact if_neg (Bool.eq_false_iff.mp ends)

/-- A register field below the leaves, at a place apart from those that the end of a task changes. -/
theorem Fld.beyondEnds_of {g : Fld} (records : g.BeyondRecords) (tokens : g.key ≠ Reg.SCHED_C0_STAT_TOKENS.key)
    (waits : g.key ≠ Reg.SCHED_C0_STAT_HELD_TOTAL.key) (lost : g.key ≠ Reg.HOST_STAT_CPL_DROPPED.key) (below : g.key < 0x02000000 * 64) : g.BeyondEnds := by
  refine ⟨records, tokens, waits, fun c => ?_, lost, fun l => ?_⟩
  · simp only [Fld.key, Reg.CORE_RUNAHEAD_STAT_RA_DISCARDED, Reg.CORE_RUNAHEAD_STAT] at below ⊢
    omega
  · simp only [Fld.key, Reg.LEAF_FILL_STAT_FILL_KCYCLES, Reg.LEAF_FILL_STAT] at below ⊢
    omega

theorem enable_key (q : Nat) : (Reg.SCHED_Q_RING_ENABLE q).key = (0x00200000 + q * 0x20) * 64 + 4 := rfl

theorem enable_beyondEnds {q : Nat} (known : q < 64) : (Reg.SCHED_Q_RING_ENABLE q).BeyondEnds := by
  refine Fld.beyondEnds_of (enable_beyondRecords known) ?_ ?_ ?_ ?_
  all_goals rw [enable_key]
  · exact fun same => absurd same (by simp only [Fld.key, Reg.SCHED_C0_STAT_TOKENS, Reg.SCHED_C0_STAT]; omega)
  · exact fun same => absurd same (by simp only [Fld.key, Reg.SCHED_C0_STAT_HELD_TOTAL, Reg.SCHED_C0_STAT]; omega)
  · exact fun same => absurd same (by simp only [Fld.key, Reg.HOST_STAT_CPL_DROPPED, Reg.HOST_STAT]; omega)
  · omega

theorem enable_beyondResidue {q : Nat} (known : q < 64) : (Reg.SCHED_Q_RING_ENABLE q).BeyondResidue := by
  refine ⟨enable_beyondRecords known, fun f mem => ?_⟩
  rw [enable_key]
  simp only [List.mem_cons, List.not_mem_nil, or_false] at mem
  rcases mem with rfl | rfl | rfl | rfl
  all_goals
    simp only [Fld.key, Reg.TUM_RESIDUE_TASK, Reg.TUM_RESIDUE_RESIDUES, Reg.TUM_RESIDUE_FIRST_INDEX, Reg.TUM_RESIDUE_FIRST_VALUE, Reg.TUM_RESIDUE, Reg.TUM_RESIDUE_FIRST]
    omega

theorem checked_beyondEnds : Reg.TUM_RESIDUE_CHECKED.BeyondEnds := Fld.beyondEnds_of ⟨by decide⟩ (by decide) (by decide) (by decide) (by decide)

theorem checked_beyondResidue : Reg.TUM_RESIDUE_CHECKED.BeyondResidue := ⟨⟨by decide⟩, by decide⟩

/-! ### C0 tokens (R235) -/

theorem State.nextC0_none {s : State} (none_ : s.c0Held = []) : s.nextC0 = none := by
  unfold State.nextC0
  rw [none_]
  rfl

theorem State.nextC0_one {s : State} {x : Nat × Nat × Packet} (one : s.c0Held = [x]) : s.nextC0 = some x := by
  unfold State.nextC0
  rw [one]
  rfl

theorem State.drainC0_none {s : State} (none_ : s.c0Held = []) (n : Nat) : s.drainC0 n = s := by
  cases n with
  | zero => rfl
  | succ n =>
    unfold State.drainC0
    rw [State.nextC0_none none_]

theorem State.drainC0_short {s : State} {c k : Nat} {p : Packet} (one : s.c0Held = [(c, k, p)]) (short : s.rd Reg.SCHED_C0_STAT_TOKENS < k) (n : Nat) :
    s.drainC0 n = s := by
  cases n with
  | zero => rfl
  | succ n =>
    unfold State.drainC0
    rw [State.nextC0_one one]
    exact if_neg (by omega)

/-- The only held packet leaves with its tokens. -/
def State.releasedC0 (s : State) (c k : Nat) (p : Packet) : State :=
  { (s.wr Reg.SCHED_C0_STAT_TOKENS (s.rd Reg.SCHED_C0_STAT_TOKENS - k)).inject p with
    c0Held := [], c0Last := c,
    txns := s.txns.map (fun x => if x.held && x.pkt == p then { x with held := false, first := s.clock, last := s.clock, heard := s.clock } else x) }

theorem State.drainC0_one {s : State} {c k : Nat} {p : Packet} (one : s.c0Held = [(c, k, p)]) (enough : k ≤ s.rd Reg.SCHED_C0_STAT_TOKENS) (n : Nat) :
    s.drainC0 (n + 1) = s.releasedC0 c k p := by
  have gone : s.c0Held.erase (c, k, p) = [] := by rw [one, List.erase_cons_head]
  rw [State.drainC0, State.nextC0_one one]
  dsimp only
  rw [if_pos enough, gone]
  exact State.drainC0_none (s := s.releasedC0 c k p) rfl n

/-- One token more, at most 16. -/
def State.refilled (s : State) : State := s.wr Reg.SCHED_C0_STAT_TOKENS (min 16 (s.rd Reg.SCHED_C0_STAT_TOKENS + 1))

theorem State.refilled_tokens (s : State) : s.refilled.rd Reg.SCHED_C0_STAT_TOKENS = min 16 (s.rd Reg.SCHED_C0_STAT_TOKENS + 1) := by
  unfold State.refilled
  rw [State.rd_wr]
  exact Nat.mod_eq_of_lt (by show _ < 32; omega)

theorem State.refilled_c0Held (s : State) : s.refilled.c0Held = s.c0Held := rfl

theorem exec_c0TokenRefill {s : State} (alive : s.failed = false) : exec .c0TokenRefill s = .next (s.refilled.drainC0 16) :=
  congrArg Host.Outcome.next (if_neg (Bool.eq_false_iff.mp alive))

/-- Settles O38: what a task held goes in turn, and no step of its end touches another's claims; C0 packets leave while there are tokens. -/
theorem tasksEndAndTokensRefill : Obligations.TasksEndAndTokensRefill := by
  unfold Obligations.TasksEndAndTokensRefill
  refine ⟨fun t x s found named => ⟨fun over_ ready => ?_, fun clean due => ?_, fun still => ?_⟩, fun s alive => ⟨fun none_ => ?_, fun c k p one enough => ?_, fun c k p one short => ?_⟩⟩
  · have ends : (!s.taskOver x || (x.fatal.isNone && x.jobFatal.isNone && !x.killed && s.residueWaits x)) = false := by
      rw [over_, Bool.not_true, Bool.false_or]
      refine Bool.eq_false_iff.mpr fun waits => ?_
      simp only [State.residueWaits, Bool.and_eq_true, Option.isNone_iff_eq_none, Bool.not_eq_true'] at waits
      obtain ⟨⟨⟨fatal, job⟩, live⟩, all, due⟩ := waits
      exact Bool.false_ne_true ((ready ⟨all, fatal, job, live⟩).symm.trans due)
    obtain ⟨v, hv⟩ : ∃ v, v = if s.allFinished x && x.fatal.isNone && x.jobFatal.isNone && !x.killed then s.residueCheck x else s := ⟨_, rfl⟩
    have only : s.OnlyRecords v := hv ▸ iteInduction (fun _ => s.residueCheck_onlyRecords x) (fun _ => .refl s)
    have tasks : v.tasks = s.tasks := (congrArg State.tasks only.eq :)
    have cores : v.cores = s.cores := (congrArg State.cores only.eq :)
    have allocs : v.allocs = s.allocs := (congrArg State.allocs only.eq :)
    have failed : v.failed = s.failed := (congrArg State.failed only.eq :)
    have run := exec_taskEnd found ends
    rw [← hv] at run
    obtain ⟨gone, others, free, allocs_, entry, rd⟩ := v.endedOf_ended t x
    rw [allocs] at allocs_
    refine ⟨_, run, gone, fun y mem => others y (tasks ▸ mem), fun c known mine => free c known ((congrArg Core.task (State.core_congr cores c)).trans mine),
      fun a mem => ?_, fun a mem apart => ?_, fun alive enabled known => ?_, fun clean => ?_⟩
    · rw [allocs_] at mem
      exact bne_iff_ne.mp (List.mem_filter.mp mem).2
    · rw [allocs_]
      exact List.mem_filter.mpr ⟨mem, bne_iff_ne.mpr apart⟩
    · refine entry (failed.trans alive) (fun g same => same ▸ enable_beyondEnds known) ?_ known
      have same : v.rd (Reg.SCHED_Q_RING_ENABLE x.queue) = s.rd (Reg.SCHED_Q_RING_ENABLE x.queue) := by
        rw [hv]
        refine iteInduction (motive := fun u : State => u.rd (Reg.SCHED_Q_RING_ENABLE x.queue) = s.rd (Reg.SCHED_Q_RING_ENABLE x.queue)) (fun _ => ?_) (fun _ => rfl)
        rw [s.residueCheck_rd x (enable_beyondResidue known), s.bump_rd_ne 1]
        simp only [Fld.key, Reg.SCHED_Q_RING_ENABLE, Reg.SCHED_Q_RING, Reg.TUM_RESIDUE_CHECKED, Reg.TUM_RESIDUE]
        omega
      unfold State.qEnabled State.rdb at enabled ⊢
      rwa [same]
    · obtain ⟨all, fatal, job, live⟩ := clean
      have checked : v = s.residueCheck x := by
        rw [hv, all, fatal, job, live]
        exact if_pos rfl
      rw [rd _ checked_beyondEnds, checked, s.residueCheck_rd x checked_beyondResidue, State.rd_bump]
  · refine congrArg Host.Outcome.next ?_
    obtain ⟨all, fatal, job, live⟩ := clean
    have waits : (!s.taskOver x || (x.fatal.isNone && x.jobFatal.isNone && !x.killed && s.residueWaits x)) = true := by
      rw [State.residueWaits, all, due, fatal, job, live]
      exact Bool.or_true _
    rw [found]
    exact if_pos waits
  · refine congrArg Host.Outcome.next ?_
    have waits : (!s.taskOver x || (x.fatal.isNone && x.jobFatal.isNone && !x.killed && s.residueWaits x)) = true := by
      rw [still]
      rfl
    rw [found]
    exact if_pos waits
  · rw [exec_c0TokenRefill alive, State.drainC0_none (s.refilled_c0Held.trans none_)]
    rfl
  · have run := (exec_c0TokenRefill alive).trans (congrArg Host.Outcome.next (State.drainC0_one (s.refilled_c0Held.trans one) (s.refilled_tokens.symm ▸ enough) 15))
    refine ⟨_, run, rfl, rfl, ?_, rfl⟩
    refine (State.rd_wr _ _ _).trans ?_
    rw [s.refilled_tokens]
    exact Nat.mod_eq_of_lt (by show _ < 32; omega)
  · rw [exec_c0TokenRefill alive, State.drainC0_short (s.refilled_c0Held.trans one) (s.refilled_tokens.symm ▸ short)]
    rfl

end Sys2Proof.Machine
end

section
/-! The hub cache's passes, the scrub and the LPDDR channels (R160, R161, R179, R358-R363). -/

namespace Sys2Proof.Machine

/-! ### Cache passes (R179) -/

/-- The dirty lines of a pass go back to LM. -/
def State.writeBacks (s : State) (ls : List CLine) : State := ls.foldl (fun s l => s.writeBack l) s

theorem State.writeBack_frame (s : State) (l : CLine) : s.writeBack l = { s with lm := (s.writeBack l).lm, lmPoison := (s.writeBack l).lmPoison } := by
  unfold State.writeBack
  exact iteInduction (motive := fun u : State => u = { s with lm := u.lm, lmPoison := u.lmPoison }) (fun _ => rfl) (fun _ => rfl)

theorem State.writeBack_clean (s : State) {l : CLine} (clean : l.dirty = false) : s.writeBack l = s := by
  unfold State.writeBack
  rw [clean]
  rfl

theorem State.writeBacks_frame (ls : List CLine) (s : State) : s.writeBacks ls = { s with lm := (s.writeBacks ls).lm, lmPoison := (s.writeBacks ls).lmPoison } := by
  refine foldl_keeps (fun u : State => u = { s with lm := u.lm, lmPoison := u.lmPoison }) (fun s l => s.writeBack l) (fun u l h => ?_) ls s rfl
  rw [u.writeBack_frame l, h]

/-- Clean lines write nothing back. -/
theorem State.writeBacks_dirty (ls : List CLine) (s : State) : s.writeBacks ls = s.writeBacks (ls.filter CLine.dirty) := by
  induction ls generalizing s with
  | nil => rfl
  | cons l ls ih =>
    cases dirty : l.dirty with
    | true =>
      rw [List.filter_cons_of_pos dirty]
      exact ih (s.writeBack l)
    | false =>
      rw [List.filter_cons_of_neg (by rw [dirty]; exact Bool.false_ne_true)]
      refine Eq.trans ?_ (ih s)
      exact congrArg (fun u : State => u.writeBacks ls) (s.writeBack_clean dirty)

/-- The end of a pass: FLUSH reads 0 and the pass's lines are gone. -/
def State.flushed (s : State) : State := { s.wr Reg.HM_CACHE_CTL_FLUSH 0 with cache := s.cache.filter (fun l => !l.flush) }

theorem State.flushed_rd (s : State) : s.flushed.rd Reg.HM_CACHE_CTL_FLUSH = 0 :=
  (State.rd_congr (s.wr Reg.HM_CACHE_CTL_FLUSH 0) s.flushed _ rfl).trans (s.rd_wr _ _)

theorem exec_cacheFlushDone {s : State} (due : s.rdb Reg.HM_CACHE_CTL_FLUSH = true) :
    exec .cacheFlushDone s = .next (s.writeBacks (s.cache.filter (fun l => l.flush))).flushed :=
  congrArg Host.Outcome.next (if_pos due)

theorem cachePasses (s : State) (booted : s.booted = true) (alive : s.failed = false) (some_ : s.cacheSets ≠ 0) :
    exec .cacheFlush s = .next { s.wr Reg.HM_CACHE_CTL_FLUSH 1 with cache := s.cache.map (fun l => { l with flush := true }) }
    ∧ exec .cacheUnprotect s = .next { s.wr Reg.HM_CACHE_CTL_UNPROTECT 1 with cache := s.cache.map (fun l => { l with prot := false }) }
    ∧ exec .cacheUnprotectDone s = .next (s.wr Reg.HM_CACHE_CTL_UNPROTECT 0)
    ∧ (s.rdb Reg.HM_CACHE_CTL_FLUSH = true → ∃ u : State, exec .cacheFlushDone s = .next u ∧ u.rd Reg.HM_CACHE_CTL_FLUSH = 0
      ∧ u.cache = s.cache.filter (fun l => !l.flush)
      ∧ (∀ l, s.cache.filter (fun l => l.flush && l.dirty) = [l] → u.lm = s.lm.writeN (l.line * 256) l.data)
      ∧ (s.cache.filter (fun l => l.flush && l.dirty) = [] → u.lm = s.lm ∧ u.lmPoison = s.lmPoison)
      ∧ u = { s with cache := u.cache, lm := u.lm, lmPoison := u.lmPoison, regs := u.regs }) := by
  have serving : s.serving = true := by rw [State.serving, booted, alive]; rfl
  refine ⟨congrArg Host.Outcome.next ((if_pos serving).trans (if_neg some_)), congrArg Host.Outcome.next ((if_pos serving).trans (if_neg some_)), rfl, fun due => ?_⟩
  have frame := s.writeBacks_frame (s.cache.filter (fun l => l.flush))
  have dirty := s.writeBacks_dirty (s.cache.filter (fun l => l.flush))
  have each : (s.cache.filter (fun l => l.flush)).filter CLine.dirty = s.cache.filter (fun l => l.flush && l.dirty) := by
    rw [List.filter_filter]
    exact congrArg (fun p => s.cache.filter p) (funext fun l => Bool.and_comm _ _)
  rw [each] at dirty
  refine ⟨_, exec_cacheFlushDone due, State.flushed_rd _, ?_, fun l one => ?_, fun none_ => ?_, ?_⟩
  · exact congrArg (List.filter _) (congrArg State.cache frame :)
  · have isDirty : l.dirty = true := by
      have mem : l ∈ s.cache.filter (fun l => l.flush && l.dirty) := one ▸ List.mem_singleton_self l
      exact (Bool.and_eq_true _ _ ▸ (List.mem_filter.mp mem).2 : _ ∧ _).2
    rw [one] at dirty
    have wrote : (s.writeBack l).lm = s.lm.writeN (l.line * 256) l.data := by
      unfold State.writeBack
      rw [if_pos isDirty]
    exact (congrArg State.lm dirty).trans wrote
  · rw [none_] at dirty
    have lm := congrArg State.lm dirty
    have poison := congrArg State.lmPoison dirty
    exact ⟨lm, poison⟩
  · generalize s.writeBacks (s.cache.filter (fun l => l.flush)) = v at frame ⊢
    rw [frame]
    rfl

/-! ### The scrub (R358) -/

/-- A line of the scrub's pass changes at most the pass count. -/
structure State.Scrubbed (s t : State) (q : Nat) : Prop where
  eq : t = { s with regs := t.regs, sub := t.sub }
  rd : ∀ g : Fld, g.key ≠ (Reg.LMC_STAT_SCRUB_PASSES q).key → t.rd g = s.rd g

theorem State.scrubCount_scrubbed (s : State) (q : Nat) : s.Scrubbed (s.scrubCount q) q := by
  unfold State.scrubCount
  exact iteInduction (motive := fun t : State => s.Scrubbed t q) (fun _ => ⟨rfl, fun g apart => State.bump_rd_ne _ 1 apart⟩) (fun _ => ⟨rfl, fun _ _ => rfl⟩)

/-! ### Register fields of a channel -/

/-- A register field of the LPDDR controllers. -/
def Fld.OfLmc (g : Fld) : Prop := 0x00A00000 * 64 ≤ g.key ∧ g.key < 0x00C00000 * 64

theorem Fld.OfLmc.beyondRecords {g : Fld} (h : g.OfLmc) : g.BeyondRecords := by
  refine ⟨fun f mem => ?_⟩
  obtain ⟨low, high⟩ := h
  simp only [recordFields, List.mem_cons, List.not_mem_nil, or_false] at mem
  rcases mem with rfl | rfl | rfl | rfl | rfl
  all_goals
    simp only [Fld.key, Reg.ERR_STAT_S0_COUNT, Reg.ERR_STAT_LOST, Reg.ERR_STAT, Reg.ERR_PTR_TAIL, Reg.ERR_PTR,
      Reg.HOST_IRQ_CAUSE_ERR, Reg.HOST_IRQ_CAUSE, Reg.MSIX_PBA] at low high ⊢
    omega

theorem chanField_ofLmc {q i lo w rst : Nat} (quad : q < 4) (one : i < 16) (within : lo < 64) : (⟨Reg.LMC_CH q i, lo, w, rst⟩ : Fld).OfLmc := by
  simp only [Fld.OfLmc, Fld.key, Reg.LMC_CH]
  omega

theorem quadField_ofLmc {q lo w rst off : Nat} (quad : q < 4) (within : lo < 64) (low : off < 0x100) : (⟨0x00A00000 + off + q * 0x80000, lo, w, rst⟩ : Fld).OfLmc := by
  simp only [Fld.OfLmc, Fld.key]
  omega

/-- A channel's field is no field of a quadrant. -/
theorem chanField_ne {q r i lo lo' w w' rst rst' off : Nat} (one : i < 16) (within : lo < 64) (within' : lo' < 64) (low : off < 0x100) :
    (⟨Reg.LMC_CH q i, lo, w, rst⟩ : Fld).key ≠ (⟨0x00A00000 + off + r * 0x80000, lo', w', rst'⟩ : Fld).key := by
  simp only [Fld.key, Reg.LMC_CH]
  omega

/-- Two fields of a quadrant at different places. -/
theorem quadField_ne {q lo lo' w w' rst rst' off off' : Nat} (within : lo < 64) (within' : lo' < 64) (apart : off ≠ off' ∨ lo ≠ lo') :
    (⟨0x00A00000 + off + q * 0x80000, lo, w, rst⟩ : Fld).key ≠ (⟨0x00A00000 + off' + q * 0x80000, lo', w', rst'⟩ : Fld).key := by
  simp only [Fld.key]
  omega

/-! ### The scrub of a line in service -/

theorem exec_scrubLine {s : State} {q : Fin 4} {off : Nat} (booted : s.booted = true) (alive : s.failed = false) (on : s.rdb (Reg.LMC_CTL_SCRUB_EN q.val) = true)
    (quad : lmChannel off / 16 = q.val) (lies : s.lmRange (off / 256 * 256) 256 = true) (f : ScrubFind)
    (free : ¬ (s.chState (lmChannel off) = 1 ∨ s.chState (lmChannel off) = 2)) :
    exec (.scrubLine q off f) s = .next (
      if ((s.scrubCount q.val).cached (off / 256)).isSome ∨ (s.scrubCount q.val).lmPoison.contains (off / 256) ∨ (s.scrubCount q.val).chState (lmChannel off) = 3 then s.scrubCount q.val
      else match f with
        | .clean => s.scrubCount q.val
        | .corrected => (s.scrubCount q.val).lmCorrected off
        | .uncorrectable =>
          ((s.scrubCount q.val).lmUncorrectable off true).raise { Fault_.blank 0 Status.eccUncorrected 0x0203 with
            addr := BitVec.ofNat 64 off, info0 := BitVec.ofNat 64 off, info1 := BitVec.ofNat 64 (lmChannel off) }) := by
  have serving : s.serving = true := by rw [State.serving, booted, alive]; rfl
  refine congrArg Host.Outcome.next (if_neg ?_)
  rw [serving, on, quad, lies]
  simp only [Bool.not_true, Bool.false_eq_true, false_or, or_false, not_true_eq_false, ne_eq]
  exact free

theorem State.OnlyRecords.lm {s t : State} (h : s.OnlyRecords t) : t.lm = s.lm := (congrArg State.lm h.eq :)

theorem State.OnlyRecords.lmPoison {s t : State} (h : s.OnlyRecords t) : t.lmPoison = s.lmPoison := (congrArg State.lmPoison h.eq :)

/-- A corrected word is counted, and LM stays (R357). -/
theorem State.lmCorrected_effect (s : State) (off : Nat) (b : (Reg.LMC_CH_CORRECTED (lmChannel off / 16) (lmChannel off % 16)).BeyondRecords) :
    (s.lmCorrected off).lm = s.lm ∧ (s.lmCorrected off).lmPoison = s.lmPoison
      ∧ (s.lmCorrected off).rd (Reg.LMC_CH_CORRECTED (lmChannel off / 16) (lmChannel off % 16))
        = min (s.rd (Reg.LMC_CH_CORRECTED (lmChannel off / 16) (lmChannel off % 16)) + 1) (2 ^ (Reg.LMC_CH_CORRECTED (lmChannel off / 16) (lmChannel off % 16)).w - 1) := by
  generalize hv : s.bump (Reg.LMC_CH_CORRECTED (lmChannel off / 16) (lmChannel off % 16)) 1 = v
  have counted : v.rd (Reg.LMC_CH_CORRECTED (lmChannel off / 16) (lmChannel off % 16)) = _ := hv ▸ s.rd_bump _ 1
  have lm : v.lm = s.lm := hv ▸ rfl
  have poison : v.lmPoison = s.lmPoison := hv ▸ rfl
  have kept (w : State) (h : w.lm = v.lm ∧ w.lmPoison = v.lmPoison ∧ w.regs = v.regs) (f : Fault_) :
      (w.raise f).lm = s.lm ∧ (w.raise f).lmPoison = s.lmPoison
        ∧ (w.raise f).rd (Reg.LMC_CH_CORRECTED (lmChannel off / 16) (lmChannel off % 16)) = v.rd (Reg.LMC_CH_CORRECTED (lmChannel off / 16) (lmChannel off % 16)) := by
    obtain ⟨lm_, poison_, regs_⟩ := h
    refine ⟨(w.raise_onlyRecords f).lm.trans (lm_.trans lm), (w.raise_onlyRecords f).lmPoison.trans (poison_.trans poison), ?_⟩
    rw [w.raise_rd f b, v.rd_congr w _ regs_]
  rw [← counted]
  unfold State.lmCorrected
  dsimp only
  rw [hv]
  refine kept _ ?_ _
  exact iteInduction (motive := fun w : State => w.lm = v.lm ∧ w.lmPoison = v.lmPoison ∧ w.regs = v.regs) (fun _ => ⟨rfl, rfl, rfl⟩) (fun _ => ⟨rfl, rfl, rfl⟩)

/-- The records of an uncorrectable word of LM, before its line is poisoned. -/
def State.lmRecorded (s : State) (off : Nat) (latent : Bool) : State :=
  ((((s.bump (Reg.LMC_CH_UNCORR (lmChannel off / 16) (lmChannel off % 16)) 1).wr (Reg.LMC_ECC_LAST_OFFSET (lmChannel off / 16)) (off / 256 * 256)).wr
    (Reg.LMC_ECC_LAST_CHANNEL (lmChannel off / 16)) (lmChannel off)).wrb (Reg.LMC_ECC_LAST_LATENT (lmChannel off / 16)) latent).wr
    (Reg.LMC_ECC_LAST_VALID (lmChannel off / 16)) 1

theorem State.lmRecorded_memory (s : State) (off : Nat) (latent : Bool) : (s.lmRecorded off latent).lm = s.lm ∧ (s.lmRecorded off latent).lmPoison = s.lmPoison := by
  simp only [State.lmRecorded, State.bump, State.wrb, State.wr_lm, State.wr_lmPoison, and_self]

theorem State.lmRecorded_rd (s : State) (off : Nat) :
    (s.lmRecorded off true).rd (Reg.LMC_ECC_LAST_LATENT (lmChannel off / 16)) = 1
      ∧ (s.lmRecorded off true).rd (Reg.LMC_ECC_LAST_VALID (lmChannel off / 16)) = 1
      ∧ (s.lmRecorded off true).rd (Reg.LMC_CH_UNCORR (lmChannel off / 16) (lmChannel off % 16))
        = min (s.rd (Reg.LMC_CH_UNCORR (lmChannel off / 16) (lmChannel off % 16)) + 1) (2 ^ (Reg.LMC_CH_UNCORR (lmChannel off / 16) (lmChannel off % 16)).w - 1) := by
  unfold State.lmRecorded State.wrb
  have one : lmChannel off % 16 < 16 := Nat.mod_lt _ (by decide)
  generalize lmChannel off = ch at one ⊢
  refine ⟨?_, State.rd_wr _ _ _, ?_⟩
  · have apart : (Reg.LMC_ECC_LAST_LATENT (ch / 16)).key ≠ (Reg.LMC_ECC_LAST_VALID (ch / 16)).key :=
      quadField_ne (off := 8) (off' := 8) (by decide) (by decide) (.inr (by decide))
    rw [State.rd_wr_ne _ _ _ _ apart, State.rd_wr]
    rfl
  · have apart (lo w rst : Nat) (within : lo < 64) : (Reg.LMC_CH_UNCORR (ch / 16) (ch % 16)).key ≠ (⟨Reg.LMC_ECC_LAST (ch / 16), lo, w, rst⟩ : Fld).key :=
      chanField_ne one (by decide) within (off := 8) (by decide)
    have valid : (Reg.LMC_CH_UNCORR (ch / 16) (ch % 16)).key ≠ (Reg.LMC_ECC_LAST_VALID (ch / 16)).key := apart 47 1 0 (by decide)
    have latent : (Reg.LMC_CH_UNCORR (ch / 16) (ch % 16)).key ≠ (Reg.LMC_ECC_LAST_LATENT (ch / 16)).key := apart 46 1 0 (by decide)
    have chan : (Reg.LMC_CH_UNCORR (ch / 16) (ch % 16)).key ≠ (Reg.LMC_ECC_LAST_CHANNEL (ch / 16)).key := apart 40 6 0 (by decide)
    have offset : (Reg.LMC_CH_UNCORR (ch / 16) (ch % 16)).key ≠ (Reg.LMC_ECC_LAST_OFFSET (ch / 16)).key := apart 0 40 0 (by decide)
    rw [State.rd_wr_ne _ _ _ _ valid, State.rd_wr_ne _ _ _ _ latent, State.rd_wr_ne _ _ _ _ chan, State.rd_wr_ne _ _ _ _ offset, State.rd_bump]

/-- A line found bad is poisoned once, and counted. -/
def State.lmPoisonOnce (s : State) (q line : Nat) : State :=
  if s.lmPoison.contains line then s else (s.bump (Reg.LMC_STAT_POISONED q) 1).poisonLm line true

theorem State.lmUncorrectable_eq (s : State) (off : Nat) (latent : Bool) :
    s.lmUncorrectable off latent = (s.lmRecorded off latent).lmPoisonOnce (lmChannel off / 16) (off / 256) := rfl

theorem State.lmPoisonOnce_effect {s : State} {line : Nat} (sound : s.lmPoison.contains line = false) (q : Nat) :
    line ∈ (s.lmPoisonOnce q line).lmPoison ∧ (s.lmPoisonOnce q line).lm = s.lm
      ∧ ∀ g : Fld, g.key ≠ (Reg.LMC_STAT_POISONED q).key → (s.lmPoisonOnce q line).rd g = s.rd g := by
  unfold State.lmPoisonOnce
  rw [sound, if_neg Bool.false_ne_true]
  exact ⟨List.mem_cons_self, rfl, fun g apart => s.bump_rd_ne 1 apart⟩

theorem scrubsLine {q : Fin 4} {off : Nat} {s : State} (booted : s.booted = true) (alive : s.failed = false)
    (on : s.rdb (Reg.LMC_CTL_SCRUB_EN q.val) = true) (quad : lmChannel off / 16 = q.val) (lies : s.lmRange (off / 256 * 256) 256 = true) :
    let ch := lmChannel off
    (s.chState ch = 0 → s.cached (off / 256) = none → s.lmPoison.contains (off / 256) = false →
      exec (.scrubLine q off .clean) s = .next (s.scrubCount q.val)
      ∧ (∃ u : State, exec (.scrubLine q off .corrected) s = .next u ∧ u.lm = s.lm ∧ u.lmPoison = s.lmPoison
        ∧ u.rd (Reg.LMC_CH_CORRECTED (ch / 16) (ch % 16)) = min (s.rd (Reg.LMC_CH_CORRECTED (ch / 16) (ch % 16)) + 1) (2 ^ (Reg.LMC_CH_CORRECTED (ch / 16) (ch % 16)).w - 1))
      ∧ (∃ u : State, exec (.scrubLine q off .uncorrectable) s = .next u ∧ off / 256 ∈ u.lmPoison ∧ u.lm = s.lm
        ∧ u.rd (Reg.LMC_ECC_LAST_LATENT q.val) = 1 ∧ u.rd (Reg.LMC_ECC_LAST_VALID q.val) = 1
        ∧ u.rd (Reg.LMC_CH_UNCORR (ch / 16) (ch % 16)) = min (s.rd (Reg.LMC_CH_UNCORR (ch / 16) (ch % 16)) + 1) (2 ^ (Reg.LMC_CH_UNCORR (ch / 16) (ch % 16)).w - 1)))
    ∧ (s.chState ch = 3 → ∀ f, exec (.scrubLine q off f) s = .next (s.scrubCount q.val))
    ∧ (s.chState ch = 1 ∨ s.chState ch = 2 → ∀ f, exec (.scrubLine q off f) s = .next s) := by
  intro ch
  have quad4 : ch / 16 < 4 := quad.trans_lt q.isLt
  have one : ch % 16 < 16 := Nat.mod_lt _ (by decide)
  have counted := s.scrubCount_scrubbed q.val
  have state : (s.scrubCount q.val).chState ch = s.chState ch := counted.rd _ (chanField_ne one (by decide) (by decide) (off := 0x10) (by decide))
  have cached : (s.scrubCount q.val).cached (off / 256) = s.cached (off / 256) := by
    have same : (s.scrubCount q.val).cache = s.cache := (congrArg State.cache counted.eq :)
    unfold State.cached
    rw [same]
  have lm : (s.scrubCount q.val).lm = s.lm := (congrArg State.lm counted.eq :)
  have poison : (s.scrubCount q.val).lmPoison = s.lmPoison := (congrArg State.lmPoison counted.eq :)
  refine ⟨fun in_ absent sound => ?_, fun failed f => ?_, fun busy f => ?_⟩
  · have scrubs (f : ScrubFind) := exec_scrubLine booted alive on quad lies f (by rw [show s.chState (lmChannel off) = 0 from in_]; decide)
    have reads : ¬ (((s.scrubCount q.val).cached (off / 256)).isSome = true ∨ (s.scrubCount q.val).lmPoison.contains (off / 256) = true
        ∨ (s.scrubCount q.val).chState (lmChannel off) = 3) := by
      rw [cached, poison, absent, sound, show (s.scrubCount q.val).chState (lmChannel off) = 0 from state.trans in_]
      decide
    simp only [if_neg reads] at scrubs
    have corrected_ : (Reg.LMC_CH_CORRECTED (ch / 16) (ch % 16)).BeyondRecords := (chanField_ofLmc quad4 one (by decide)).beyondRecords
    have uncorr : (Reg.LMC_CH_UNCORR (ch / 16) (ch % 16)).BeyondRecords := (chanField_ofLmc quad4 one (by decide)).beyondRecords
    refine ⟨scrubs .clean, ⟨_, scrubs .corrected, ?_⟩, ⟨_, scrubs .uncorrectable, ?_⟩⟩
    · obtain ⟨lm_, poison_, count⟩ := (s.scrubCount q.val).lmCorrected_effect off corrected_
      refine ⟨lm_.trans lm, poison_.trans poison, count.trans ?_⟩
      have apart : (Reg.LMC_CH_CORRECTED (ch / 16) (ch % 16)).key ≠ (Reg.LMC_STAT_SCRUB_PASSES q.val).key :=
        chanField_ne one (by decide) (by decide) (off := 0x10) (by decide)
      exact congrArg (fun n => min (n + 1) _) (counted.rd _ apart)
    · have sound_ : (s.scrubCount q.val).lmPoison.contains (off / 256) = false := by rw [poison, sound]
      obtain ⟨poisoned, lm_, rest⟩ := State.lmPoisonOnce_effect (s := (s.scrubCount q.val).lmRecorded off true)
        (by rw [(State.lmRecorded_memory ..).2]; exact sound_) (lmChannel off / 16)
      obtain ⟨latent, valid, count⟩ := (s.scrubCount q.val).lmRecorded_rd off
      rw [← State.lmUncorrectable_eq] at poisoned lm_ rest
      have latent_ : (Reg.LMC_ECC_LAST_LATENT q.val).BeyondRecords := (quadField_ofLmc q.isLt (by decide) (off := 8) (by decide)).beyondRecords
      have valid_ : (Reg.LMC_ECC_LAST_VALID q.val).BeyondRecords := (quadField_ofLmc q.isLt (by decide) (off := 8) (by decide)).beyondRecords
      have latent_ne : (Reg.LMC_ECC_LAST_LATENT q.val).key ≠ (Reg.LMC_STAT_POISONED q.val).key :=
        quadField_ne (off := 8) (off' := 0x10) (by decide) (by decide) (.inl (by decide))
      have valid_ne : (Reg.LMC_ECC_LAST_VALID q.val).key ≠ (Reg.LMC_STAT_POISONED q.val).key :=
        quadField_ne (off := 8) (off' := 0x10) (by decide) (by decide) (.inl (by decide))
      have uncorr_ne : (Reg.LMC_CH_UNCORR (ch / 16) (ch % 16)).key ≠ (Reg.LMC_STAT_POISONED (ch / 16)).key :=
        chanField_ne one (by decide) (by decide) (off := 0x10) (by decide)
      have uncorr_passes : (Reg.LMC_CH_UNCORR (ch / 16) (ch % 16)).key ≠ (Reg.LMC_STAT_SCRUB_PASSES q.val).key :=
        chanField_ne one (by decide) (by decide) (off := 0x10) (by decide)
      refine ⟨?_, ?_, ?_, ?_, ?_⟩
      · rw [(State.raise_onlyRecords _ _).lmPoison]
        exact poisoned
      · rw [(State.raise_onlyRecords _ _).lm]
        exact lm_.trans ((State.lmRecorded_memory ..).1.trans lm)
      · rw [quad] at rest latent
        rw [State.raise_rd _ _ latent_, rest _ latent_ne, latent]
      · rw [quad] at rest valid
        rw [State.raise_rd _ _ valid_, rest _ valid_ne, valid]
      · rw [State.raise_rd _ _ uncorr, rest _ uncorr_ne, count]
        exact congrArg (fun n => min (n + 1) _) (counted.rd _ uncorr_passes)
  · rw [exec_scrubLine booted alive on quad lies f (by rw [show s.chState (lmChannel off) = 3 from failed]; decide)]
    exact congrArg Host.Outcome.next (if_pos (.inr (.inr (state.trans failed))))
  · exact congrArg Host.Outcome.next (if_pos (.inr (.inr (.inr (busy.elim .inl fun two => .inr (.inl two))))))

/-! ### Retraining and repair (R359-R363) -/

section
variable {c : Nat} (known : c < 64)
include known

theorem chanField_beyondRecords {lo w rst : Nat} (within : lo < 64) : (⟨Reg.LMC_CH (c / 16) (c % 16), lo, w, rst⟩ : Fld).BeyondRecords :=
  (chanField_ofLmc (by omega) (Nat.mod_lt _ (by decide)) within).beyondRecords

theorem State.chState_raise (s : State) (f : Fault_) : (s.raise f).chState c = s.chState c := s.raise_rd f (chanField_beyondRecords known (by decide))

end

theorem State.setCh_regs (s : State) (c v : Nat) : (s.setCh c v).regs = (s.wr (Reg.LMC_CH_STATE (c / 16) (c % 16)) v).regs := by
  unfold State.setCh
  exact iteInduction (motive := fun u : State => u.regs = _) (fun _ => rfl) (fun _ => rfl)

theorem State.setCh_rd (s : State) (c v : Nat) (g : Fld) : (s.setCh c v).rd g = (s.wr (Reg.LMC_CH_STATE (c / 16) (c % 16)) v).rd g := State.rd_congr _ _ g (s.setCh_regs c v)

theorem State.setCh_chState (s : State) (c : Nat) {v : Nat} (small : v < 4) : (s.setCh c v).chState c = v := by
  unfold State.chState
  rw [s.setCh_rd, State.rd_wr]
  exact Nat.mod_eq_of_lt small

theorem chanField_apart {q i lo lo' w w' rst rst' : Nat} (apart : lo ≠ lo') :
    (⟨Reg.LMC_CH q i, lo, w, rst⟩ : Fld).key ≠ (⟨Reg.LMC_CH q i, lo', w', rst'⟩ : Fld).key := by
  simp only [Fld.key]
  omega

/-- A repair starts: the channel is out of service, counted and recorded (R361). -/
theorem State.repairStart_effect (s : State) {c : Nat} (known : c < 64) : (s.repairStart c).chState c = 2
    ∧ (s.repairStart c).rd (Reg.LMC_CH_REPAIRS (c / 16) (c % 16))
      = min (s.rd (Reg.LMC_CH_REPAIRS (c / 16) (c % 16)) + 1) (2 ^ (Reg.LMC_CH_REPAIRS (c / 16) (c % 16)).w - 1) := by
  have apart : (Reg.LMC_CH_REPAIRS (c / 16) (c % 16)).key ≠ (Reg.LMC_CH_STATE (c / 16) (c % 16)).key := chanField_apart (by decide)
  have repairs : (Reg.LMC_CH_REPAIRS (c / 16) (c % 16)).BeyondRecords := chanField_beyondRecords known (by decide)
  unfold State.repairStart State.trainRecord
  refine ⟨?_, ?_⟩
  · rw [State.chState_raise known]
    exact (State.bump_rd_ne _ 1 apart.symm).trans (s.setCh_chState c (by decide))
  · rw [State.raise_rd _ _ repairs, State.rd_bump, s.setCh_rd, State.rd_wr_ne _ _ _ _ apart]

/-- A retrain starts: the channel is out of service, counted and recorded (R360). -/
theorem State.retrainStart_effect (s : State) {c : Nat} (known : c < 64) : (s.retrainStart c).chState c = 1
    ∧ (s.retrainStart c).rd (Reg.LMC_CH_RETRAINS (c / 16) (c % 16))
      = min (s.rd (Reg.LMC_CH_RETRAINS (c / 16) (c % 16)) + 1) (2 ^ (Reg.LMC_CH_RETRAINS (c / 16) (c % 16)).w - 1) := by
  have apart : (Reg.LMC_CH_RETRAINS (c / 16) (c % 16)).key ≠ (Reg.LMC_CH_STATE (c / 16) (c % 16)).key := chanField_apart (by decide)
  have retrains : (Reg.LMC_CH_RETRAINS (c / 16) (c % 16)).BeyondRecords := chanField_beyondRecords known (by decide)
  unfold State.retrainStart State.trainRecord
  refine ⟨?_, ?_⟩
  · rw [State.chState_raise known]
    exact (State.bump_rd_ne _ 1 apart.symm).trans (s.setCh_chState c (by decide))
  · rw [State.raise_rd _ _ retrains, State.rd_bump, s.setCh_rd, State.rd_wr_ne _ _ _ _ apart]

theorem State.jobsFatal_onlyRecords (s : State) (f : Fault_) : s.OnlyRecords (s.jobsFatal f) := by
  unfold State.jobsFatal
  dsimp only
  refine iteInduction (motive := s.OnlyRecords) (fun _ => s.raise_onlyRecords _) (fun _ => ?_)
  exact foldl_keeps s.OnlyRecords (fun (s : State) j => s.raise { f with job := j }) (fun t j h => h.trans (t.raise_onlyRecords _)) _ s (.refl s)

theorem State.jobsFatal_rd (s : State) (f : Fault_) {g : Fld} (b : g.BeyondRecords) : (s.jobsFatal f).rd g = s.rd g := by
  unfold State.jobsFatal
  dsimp only
  refine iteInduction (motive := fun u : State => u.rd g = s.rd g) (fun _ => s.raise_rd _ b) (fun _ => ?_)
  exact foldl_same (fun u : State => u.rd g) (fun (s : State) j => s.raise { f with job := j }) (fun t j => t.raise_rd _ b) _ s

theorem State.setCh_chans (s : State) (c v : Nat) : (s.setCh c v).chans = s.chans := by
  unfold State.setCh
  exact iteInduction (motive := fun u : State => u.chans = s.chans) (fun _ => rfl) (fun _ => rfl)

theorem State.chan_congr {s t : State} (h : t.chans = s.chans) (c : Nat) : t.chan c = s.chan c := by
  unfold State.chan
  rw [h]

/-- What a sample of a channel does once its corrections are counted. -/
def State.oscActs (s : State) (c driftPs corrections : Nat) : State :=
  if s.chState c ≥ 2 then s
  else if decide (corrections > s.rd (Reg.LMC_CTL_REPAIR_THRESH (c / 16))) then s.repairStart c
  else if s.chState c = 0 ∧ (driftPs ≥ s.rd (Reg.LMC_CTL_DRIFT_PS (c / 16)) ∨ s.clock ≥ (s.chan c).lastTrain + State.msTicks 10000) then s.retrainStart c
  else s

theorem exec_oscSample {s : State} (booted : s.booted = true) (ch : Fin 64) (drift corr : Nat) :
    exec (.oscSample ch drift corr) s = .next ((s.bumpK (Reg.LMC_STAT_LINK_KCORR (ch.val / 16)) corr).oscActs ch.val drift corr) := by
  refine congrArg Host.Outcome.next (if_neg ?_)
  rw [booted]
  exact Bool.false_ne_true

theorem State.oscActs_many {s : State} {c corr : Nat} (free : s.chState c = 0) (many : s.rd (Reg.LMC_CTL_REPAIR_THRESH (c / 16)) < corr) (drift : Nat) :
    s.oscActs c drift corr = s.repairStart c := by
  unfold State.oscActs
  rw [free, if_neg (by decide), if_pos (decide_eq_true many)]

theorem State.oscActs_drift {s : State} {c drift corr : Nat} (free : s.chState c = 0) (few : corr ≤ s.rd (Reg.LMC_CTL_REPAIR_THRESH (c / 16)))
    (drifts : s.rd (Reg.LMC_CTL_DRIFT_PS (c / 16)) ≤ drift) : s.oscActs c drift corr = s.retrainStart c := by
  unfold State.oscActs
  rw [free, if_neg (by decide), if_neg (by rw [decide_eq_true_eq]; omega), if_pos ⟨rfl, .inl drifts⟩]

theorem State.oscActs_steady {s : State} {c drift corr : Nat} (free : s.chState c = 0) (few : corr ≤ s.rd (Reg.LMC_CTL_REPAIR_THRESH (c / 16)))
    (steady : drift < s.rd (Reg.LMC_CTL_DRIFT_PS (c / 16))) (recent : s.clock < (s.chan c).lastTrain + State.msTicks 10000) : s.oscActs c drift corr = s := by
  unfold State.oscActs
  rw [free, if_neg (by decide), if_neg (by rw [decide_eq_true_eq]; omega), if_neg (by omega)]

theorem exec_lmRetrainDone {s : State} {ch : Fin 64} (training : s.chState ch.val = 1) (pass : Bool) :
    exec (.lmRetrainDone ch pass) s = .next (if pass then s.chanBack ch.val else s.repairStart ch.val) := congrArg Host.Outcome.next (if_pos training)

theorem exec_refresh {s : State} (ch : Fin 64) (bank : Fin 16) : exec (.refresh ch bank) s = .next
    (if s.chState ch.val = 1 ∨ s.chState ch.val = 2 then s.modChan ch.val (fun c => { c with debt := c.debt + 1 }) else s.modChan ch.val (fun c => { c with debt := 0 })) := rfl

theorem State.setCh_back (s : State) (c : Nat) : s.setCh c 0 = (s.wr (Reg.LMC_CH_STATE (c / 16) (c % 16)) 0).returnWaiting (fun h => h.pkt.space == spLM) := by
  unfold State.setCh
  exact if_pos (Or.inl rfl)

theorem State.chanBack_eq (s : State) (c : Nat) : s.chanBack c
    = ((s.wr (Reg.LMC_CH_STATE (c / 16) (c % 16)) 0).returnWaiting (fun h => h.pkt.space == spLM)).modChan c (fun x => { x with lastTrain := s.clock, fails := 0, debt := 0 }) :=
  congrArg (fun u : State => u.modChan c (fun x => { x with lastTrain := s.clock, fails := 0, debt := 0 })) (s.setCh_back c)

theorem State.jobsFatal_chans (s : State) (f : Fault_) : (s.jobsFatal f).chans = s.chans := (congrArg State.chans (s.jobsFatal_onlyRecords f).eq :)

/-- A repair has failed once more. -/
def State.repairFailed (s : State) (c : Nat) : State := s.modChan c (fun x => { x with fails := (s.chan c).fails + 1 })

theorem exec_lmRepairDone_passed {s : State} {ch : Fin 64} (repairing : s.chState ch.val = 2) :
    exec (.lmRepairDone ch true) s = .next (s.chanBack ch.val) :=
  congrArg Host.Outcome.next ((if_neg (not_not_intro repairing)).trans (if_pos rfl))

theorem exec_lmRepairDone_failed {s : State} {ch : Fin 64} (repairing : s.chState ch.val = 2) :
    exec (.lmRepairDone ch false) s = .next (if (s.chan ch.val).fails + 1 ≥ 2 then
        ((s.repairFailed ch.val).setCh ch.val 3).jobsFatal { Fault_.blank 4 Status.eccUncorrected 0x0205 with
          addr := BitVec.ofNat 64 ch.val, info0 := BitVec.ofNat 64 ch.val, replace := true }
      else (s.repairFailed ch.val).repairStart ch.val) :=
  congrArg Host.Outcome.next ((if_neg (not_not_intro repairing)).trans (if_neg Bool.false_ne_true))

theorem State.repairStart_chans (s : State) (c : Nat) : (s.repairStart c).chans = s.chans := by
  have raised (v : State) (f : Fault_) : (v.raise f).chans = v.chans := (congrArg State.chans (v.raise_onlyRecords f).eq :)
  exact (raised _ _).trans (s.setCh_chans c 2)

theorem State.repairFailed_fails (s : State) {c : Nat} (known : c < 64) : ((s.repairFailed c).chan c).fails = (s.chan c).fails + 1 := by
  unfold State.repairFailed
  rw [State.chan_modChan _ _ _ known]

theorem channelsRetrain (ch : Fin 64) (s : State) :
    let c := ch.val
    let q := c / 16
    let n := c % 16
    let back := Host.Outcome.next (φ := Fault) (ρ := Refusal)
      (((s.wr (Reg.LMC_CH_STATE q n) 0).returnWaiting (fun h => h.pkt.space == spLM)).modChan c (fun x => { x with lastTrain := s.clock, fails := 0, debt := 0 }))
    (∀ bank, (s.chState c = 1 ∨ s.chState c = 2 → exec (.refresh ch bank) s = .next (s.modChan c (fun x => { x with debt := x.debt + 1 })))
      ∧ (s.chState c = 0 ∨ s.chState c = 3 → exec (.refresh ch bank) s = .next (s.modChan c (fun x => { x with debt := 0 }))))
    ∧ (∀ drift corr, s.booted = true → s.chState c = 0 →
      (s.rd (Reg.LMC_CTL_REPAIR_THRESH q) < corr → ∃ u : State, exec (.oscSample ch drift corr) s = .next u ∧ u.chState c = 2
        ∧ u.rd (Reg.LMC_CH_REPAIRS q n) = min (s.rd (Reg.LMC_CH_REPAIRS q n) + 1) (2 ^ (Reg.LMC_CH_REPAIRS q n).w - 1))
      ∧ (corr ≤ s.rd (Reg.LMC_CTL_REPAIR_THRESH q) → s.rd (Reg.LMC_CTL_DRIFT_PS q) ≤ drift →
        ∃ u : State, exec (.oscSample ch drift corr) s = .next u ∧ u.chState c = 1
          ∧ u.rd (Reg.LMC_CH_RETRAINS q n) = min (s.rd (Reg.LMC_CH_RETRAINS q n) + 1) (2 ^ (Reg.LMC_CH_RETRAINS q n).w - 1))
      ∧ (corr ≤ s.rd (Reg.LMC_CTL_REPAIR_THRESH q) → drift < s.rd (Reg.LMC_CTL_DRIFT_PS q) → s.clock < (s.chan c).lastTrain + State.msTicks 10000 →
        exec (.oscSample ch drift corr) s = .next (s.bumpK (Reg.LMC_STAT_LINK_KCORR q) corr)))
    ∧ (s.chState c = 1 → exec (.lmRetrainDone ch true) s = back
      ∧ (∃ u : State, exec (.lmRetrainDone ch false) s = .next u ∧ u.chState c = 2))
    ∧ (s.chState c = 2 → exec (.lmRepairDone ch true) s = back
      ∧ (1 ≤ (s.chan c).fails → ∃ u : State, exec (.lmRepairDone ch false) s = .next u ∧ u.chState c = 3 ∧ (u.chan c).fails = (s.chan c).fails + 1)
      ∧ ((s.chan c).fails = 0 → ∃ u : State, exec (.lmRepairDone ch false) s = .next u ∧ u.chState c = 2 ∧ (u.chan c).fails = 1)) := by
  intro c q n back
  have known : c < 64 := ch.isLt
  have one : n < 16 := Nat.mod_lt _ (by decide)
  refine ⟨fun bank => ⟨fun busy => ?_, fun free => ?_⟩, fun drift corr booted in_ => ?_,
    fun training => ⟨?_, ?_⟩, fun repairing => ⟨?_, fun again => ?_, fun first => ?_⟩⟩
  · rw [exec_refresh, if_pos busy]
  · have idle : ¬ (s.chState ch.val = 1 ∨ s.chState ch.val = 2) := by
      rcases free with free | free <;> rw [show s.chState ch.val = _ from free] <;> decide
    rw [exec_refresh, if_neg idle]
  · have counted (g : Fld) (apart : g.key ≠ (Reg.LMC_STAT_LINK_KCORR q).key) : (s.bumpK (Reg.LMC_STAT_LINK_KCORR q) corr).rd g = s.rd g := s.bumpK_rd_ne corr apart
    have state : (s.bumpK (Reg.LMC_STAT_LINK_KCORR q) corr).chState c = 0 := (counted _ (chanField_ne one (by decide) (by decide) (off := 0x10) (by decide))).trans in_
    have thresh : (s.bumpK (Reg.LMC_STAT_LINK_KCORR q) corr).rd (Reg.LMC_CTL_REPAIR_THRESH q) = s.rd (Reg.LMC_CTL_REPAIR_THRESH q) :=
      counted _ (quadField_ne (off := 0) (off' := 0x10) (by decide) (by decide) (.inl (by decide)))
    have limit : (s.bumpK (Reg.LMC_STAT_LINK_KCORR q) corr).rd (Reg.LMC_CTL_DRIFT_PS q) = s.rd (Reg.LMC_CTL_DRIFT_PS q) :=
      counted _ (quadField_ne (off := 0) (off' := 0x10) (by decide) (by decide) (.inl (by decide)))
    have repairs : (s.bumpK (Reg.LMC_STAT_LINK_KCORR q) corr).rd (Reg.LMC_CH_REPAIRS q n) = s.rd (Reg.LMC_CH_REPAIRS q n) :=
      counted _ (chanField_ne one (by decide) (by decide) (off := 0x10) (by decide))
    have retrains : (s.bumpK (Reg.LMC_STAT_LINK_KCORR q) corr).rd (Reg.LMC_CH_RETRAINS q n) = s.rd (Reg.LMC_CH_RETRAINS q n) :=
      counted _ (chanField_ne one (by decide) (by decide) (off := 0x10) (by decide))
    have clock : (s.bumpK (Reg.LMC_STAT_LINK_KCORR q) corr).clock = s.clock := rfl
    have chan : (s.bumpK (Reg.LMC_STAT_LINK_KCORR q) corr).chan c = s.chan c := rfl
    have run := exec_oscSample booted ch drift corr
    generalize s.bumpK (Reg.LMC_STAT_LINK_KCORR q) corr = v at state thresh limit repairs retrains clock chan run ⊢
    refine ⟨fun many => ⟨_, run, ?_⟩, fun few drifts => ⟨_, run, ?_⟩, fun few steady recent => run.trans (congrArg Host.Outcome.next ?_)⟩
    · obtain ⟨out, count⟩ := v.repairStart_effect known
      rw [State.oscActs_many state (thresh.symm ▸ many)]
      exact ⟨out, count.trans (congrArg (fun n => min (n + 1) _) repairs)⟩
    · obtain ⟨out, count⟩ := v.retrainStart_effect known
      rw [State.oscActs_drift state (thresh.symm ▸ few) (limit.symm ▸ drifts)]
      exact ⟨out, count.trans (congrArg (fun n => min (n + 1) _) retrains)⟩
    · exact State.oscActs_steady state (thresh.symm ▸ few) (limit.symm ▸ steady) (by rw [clock, chan]; exact recent)
  · rw [exec_lmRetrainDone training true, if_pos rfl, State.chanBack_eq]
  · have run := exec_lmRetrainDone training false
    rw [if_neg Bool.false_ne_true] at run
    exact ⟨_, run, (s.repairStart_effect known).1⟩
  · rw [exec_lmRepairDone_passed repairing, State.chanBack_eq]
  · have more : (s.chan ch.val).fails + 1 ≥ 2 := Nat.succ_le_succ again
    have run := exec_lmRepairDone_failed repairing
    rw [if_pos more] at run
    refine ⟨_, run, ?_, ?_⟩
    · exact (State.jobsFatal_rd _ _ (chanField_beyondRecords known (by decide))).trans ((s.repairFailed c).setCh_chState c (by decide))
    · have chans := (State.jobsFatal_chans ((s.repairFailed c).setCh c 3) { Fault_.blank 4 Status.eccUncorrected 0x0205 with
        addr := BitVec.ofNat 64 ch.val, info0 := BitVec.ofNat 64 ch.val, replace := true }).trans ((s.repairFailed c).setCh_chans c 3)
      exact (congrArg Chan.fails (State.chan_congr chans c)).trans (s.repairFailed_fails known)
  · have once : ¬ (s.chan ch.val).fails + 1 ≥ 2 := by
      rw [show (s.chan ch.val).fails = 0 from first]
      decide
    have run := exec_lmRepairDone_failed repairing
    rw [if_neg once] at run
    refine ⟨_, run, ((s.repairFailed c).repairStart_effect known).1, ?_⟩
    rw [State.chan_congr ((s.repairFailed c).repairStart_chans c), s.repairFailed_fails known, first]

/-- Settles O39: the passes, the scrub and the channels each by their own lemma. -/
theorem cacheScrubAndChannels : Obligations.CacheScrubAndChannels := by
  unfold Obligations.CacheScrubAndChannels
  exact ⟨cachePasses, fun q off s booted alive on quad lies => scrubsLine booted alive on quad lies, channelsRetrain⟩

end Sys2Proof.Machine
end

section
/-! The leaf links and the leaves: replays, retraining and lane tests of UCIe modules, partial reset, training and the budget
messages (R339, R342-R348, R351-R353, R398). -/

namespace Sys2Proof.Machine

/-! ### Changes of registers alone -/

/-- The state s with the registers of t. -/
def State.withRegs (s t : State) : State := { s with regs := t.regs }

/-- From s the state comes to t by changing only registers. -/
structure State.OnlyRegs (s t : State) : Prop where
  eq : t = s.withRegs t

theorem State.OnlyRegs.refl (s : State) : s.OnlyRegs s := ⟨rfl⟩

theorem State.OnlyRegs.trans {s t u : State} (a : s.OnlyRegs t) (b : t.OnlyRegs u) : s.OnlyRegs u := by
  have step := congrArg (fun x => State.withRegs x u) a.eq
  exact ⟨b.eq.trans step⟩

theorem State.wr_onlyRegs (s : State) (f : Fld) (v : Nat) : s.OnlyRegs (s.wr f v) := ⟨rfl⟩

/-! ### Replays (R342, R343) -/

theorem Tab.lookup_del {α : Type} (t : Tab α) (k : Nat) : (t.del k).lookup k = none := by
  rw [List.lookup_eq_none_iff]
  intro p mem
  have kept := (List.mem_filter.mp mem).2
  rw [bne_iff_ne] at kept
  exact bne_iff_ne.mpr kept.symm

/-- A replay is counted; the first of a count takes the threshold. -/
def State.retried (s : State) (l m : Nat) (first : Prop) [Decidable first] : State :=
  { s.bumpK (Reg.LL_ERR_RETRIES l) 1 with lag := if first then s.lag.del (threshKey l m) else s.lag }

theorem State.retried_thresh (s : State) (l m : Nat) (first : Prop) [Decidable first] :
    (s.retried l m first).thresh l m = if first then s.rd (Reg.LL_CTL_RETRAIN_THRESH l) else s.thresh l m := by
  have rd : (s.retried l m first).rd (Reg.LL_CTL_RETRAIN_THRESH l) = s.rd (Reg.LL_CTL_RETRAIN_THRESH l) := by
    refine (State.rd_congr (s.bumpK (Reg.LL_ERR_RETRIES l) 1) _ _ rfl).trans (s.bumpK_rd_ne 1 ?_)
    simp only [Fld.key, Reg.LL_CTL_RETRAIN_THRESH, Reg.LL_ERR_RETRIES, Reg.LL_CTL, Reg.LL_ERR]
    omega
  have lag : (s.retried l m first).lag = if first then s.lag.del (threshKey l m) else s.lag := rfl
  unfold State.thresh
  rw [rd, lag]
  split
  · rw [Tab.lookup_del]
    rfl
  · rfl

/-- The replays of a module in the last millisecond. -/
def State.lately (s : State) (l m : Nat) : List Nat := ((s.leaf l).mod m).retries.filter (fun t => decide (s.clock < t + State.msTicks 1))

/-- A module that has replayed too often retrains; else the replay is noted. -/
def State.retryActs (s : State) (l m : Nat) (recent : List Nat) : State :=
  if recent.length > s.thresh l m then (s.bump (Reg.LL_ERR_RETRAINS l) 1).modUcie l m (fun x => { x with retraining := true, retries := [] })
  else s.modUcie l m (fun x => { x with retries := recent })

/-- The first replay of a count takes the threshold. -/
def State.firstTakes (s : State) (l m : Nat) (before : List Nat) : State := if before.isEmpty then { s with lag := s.lag.del (threshKey l m) } else s

theorem State.firstTakes_clock (s : State) (l m : Nat) (before : List Nat) : (s.firstTakes l m before).clock = s.clock :=
  iteInduction (motive := fun u : State => u.clock = s.clock) (fun _ => rfl) (fun _ => rfl)

/-- What a counted replay does. -/
def State.retryOn (s : State) (l m : Nat) (u : Ucie) : State :=
  let before := u.retries.filter (fun t => decide (s.clock < t + State.msTicks 1))
  (s.firstTakes l m before).retryActs l m ((s.firstTakes l m before).clock :: before)

theorem State.retried_eq (s : State) (l m : Nat) (before : List Nat) : (s.bumpK (Reg.LL_ERR_RETRIES l) 1).firstTakes l m before = s.retried l m (before = []) := by
  unfold State.retried State.firstTakes
  cases before with
  | nil => rfl
  | cons a b => rw [if_neg (List.cons_ne_nil a b)]; rfl

theorem exec_flitRetry {s : State} {l : Fin 4} {m : Fin 32} (alive : s.failed = false) (up : s.leafUp l.val = true)
    (enabled : ((s.leaf l.val).mod m.val).disabled = false) (idle : ((s.leaf l.val).mod m.val).retraining = false) :
    exec (.flitRetry l m) s = .next ((s.retried l.val m.val (s.lately l.val m.val = [])).retryActs l.val m.val (s.clock :: s.lately l.val m.val)) := by
  have proceeds : (s.failed || !s.leafUp l.val || ((s.leaf l.val).mod m.val).disabled || ((s.leaf l.val).mod m.val).retraining) = false := by
    rw [alive, up, enabled, idle]
    rfl
  have acts : (s.bumpK (Reg.LL_ERR_RETRIES l.val) 1).retryOn l.val m.val ((s.leaf l.val).mod m.val)
      = (s.retried l.val m.val (s.lately l.val m.val = [])).retryActs l.val m.val (s.clock :: s.lately l.val m.val) := by
    have clock : (s.bumpK (Reg.LL_ERR_RETRIES l.val) 1).clock = s.clock := rfl
    unfold State.retryOn State.lately
    dsimp only
    rw [State.firstTakes_clock, State.retried_eq, clock]
  have run : exec (.flitRetry l m) s = .next (if s.failed || !s.leafUp l.val || ((s.leaf l.val).mod m.val).disabled || ((s.leaf l.val).mod m.val).retraining then s
      else (s.bumpK (Reg.LL_ERR_RETRIES l.val) 1).retryOn l.val m.val ((s.leaf l.val).mod m.val)) := rfl
  rw [run, if_neg (Bool.eq_false_iff.mp proceeds), acts]

theorem flitRetries (l : Fin 4) (m : Fin 32) (s : State) (alive : s.failed = false) :
    let u := (s.leaf l.val).mod m.val
    let before := u.retries.filter (fun t => decide (s.clock < t + State.msTicks 1))
    let recent := s.clock :: before
    let limit := if before = [] then s.rd (Reg.LL_CTL_RETRAIN_THRESH l.val) else s.thresh l.val m.val
    let counted := { s.bumpK (Reg.LL_ERR_RETRIES l.val) 1 with lag := if before = [] then s.lag.del (threshKey l.val m.val) else s.lag }
    s.leafUp l.val = true → u.disabled = false → u.retraining = false →
      (recent.length ≤ limit → exec (.flitRetry l m) s = .next (counted.modUcie l.val m.val (fun x => { x with retries := recent })))
      ∧ (limit < recent.length → exec (.flitRetry l m) s
          = .next ((counted.bump (Reg.LL_ERR_RETRAINS l.val) 1).modUcie l.val m.val (fun x => { x with retraining := true, retries := [] }))) := by
  intro u before recent limit counted up enabled idle
  have thresh : (s.retried l.val m.val (s.lately l.val m.val = [])).thresh l.val m.val = limit := s.retried_thresh l.val m.val _
  have run := exec_flitRetry alive up enabled idle
  unfold State.retryActs at run
  rw [thresh] at run
  refine ⟨fun few => ?_, fun many => ?_⟩
  · have calm : ¬ (s.clock :: s.lately l.val m.val).length > limit := Nat.not_lt.mpr few
    rw [run, if_neg calm]
    rfl
  · have often : (s.clock :: s.lately l.val m.val).length > limit := many
    rw [run, if_pos often]
    rfl

/-! ### Widths (R337, R344, R353) -/

theorem widths_of_halves (u : Ucie) : (u.usable 0 = true → u.usable 1 = true → u.widthFrom 0 = 0) ∧ (u.usable 0 = true → u.usable 1 = false → u.widthFrom 0 = 1)
    ∧ (u.usable 0 = false → u.usable 1 = true → u.widthFrom 0 = 2) ∧ (u.usable 0 = false → u.usable 1 = false → u.widthFrom 0 = 3) := by
  unfold Ucie.widthFrom
  cases u.usable 0 <;> cases u.usable 1 <;> decide

theorem Ucie.widthFrom_lt (u : Ucie) (old : Nat) : u.widthFrom old < 4 := by
  unfold Ucie.widthFrom
  split <;> (repeat' split) <;> decide

theorem leafField_key (l r lo w rst : Nat) : (⟨0x02300000 + r + l * 0x800000, lo, w, rst⟩ : Fld).key = (0x02300000 + r + l * 0x800000) * 64 + lo := rfl

theorem width_key_ne {l m i : Nat} (apart : i ≠ m) : (Reg.LL_WIDTH_MOD l i).key ≠ (Reg.LL_WIDTH_MOD l m).key := by
  simp only [Fld.key, Reg.LL_WIDTH_MOD]
  omega

/-- A register field of a leaf link. -/
theorem leafField_beyondRecords {l r lo w rst : Nat} (within : lo < 64) :
    (⟨0x02300000 + r + l * 0x800000, lo, w, rst⟩ : Fld).BeyondRecords := by
  refine ⟨fun f mem => ?_⟩
  simp only [recordFields, List.mem_cons, List.not_mem_nil, or_false] at mem
  rcases mem with rfl | rfl | rfl | rfl | rfl
  all_goals
    simp only [Fld.key, Reg.ERR_STAT_S0_COUNT, Reg.ERR_STAT_LOST, Reg.ERR_STAT, Reg.ERR_PTR_TAIL, Reg.ERR_PTR,
      Reg.HOST_IRQ_CAUSE_ERR, Reg.HOST_IRQ_CAUSE, Reg.MSIX_PBA]
    omega

/-- Two fields of a leaf link at different places. -/
theorem leafField_ne {l r r' lo lo' w w' rst rst' : Nat} (within : lo < 64) (within' : lo' < 64) (apart : r ≠ r' ∨ lo ≠ lo') :
    (⟨0x02300000 + r + l * 0x800000, lo, w, rst⟩ : Fld).key ≠ (⟨0x02300000 + r' + l * 0x800000, lo', w', rst'⟩ : Fld).key := by
  simp only [Fld.key]
  omega

/-- Modules of a leaf with a width. -/
def State.modulesAt (s : State) (l : Nat) (p : Nat → Bool) : Nat := ((List.range 32).filter (fun m => p (s.width l m))).length

def isFull (w : Nat) : Bool := w == 0
def isHalf (w : Nat) : Bool := w == 1 || w == 2

theorem State.modulesAt_congr {s t : State} {l : Nat} (same : ∀ m < 32, t.width l m = s.width l m) (p : Nat → Bool) : t.modulesAt l p = s.modulesAt l p := by
  refine congrArg List.length (List.filter_congr fun m mem => ?_)
  rw [same m (List.mem_range.mp mem)]

/-- Full and half modules are no more than 32 together. -/
theorem State.modulesAt_le (s : State) (l : Nat) : s.modulesAt l isFull + s.modulesAt l isHalf ≤ 32 := by
  have apart : ∀ w : Nat, ¬ (isFull w = true ∧ isHalf w = true) := by
    intro w both
    simp only [isFull, isHalf, beq_iff_eq, Bool.or_eq_true] at both
    omega
  have counted (L : List Nat) : (L.filter (fun m => isFull (s.width l m))).length + (L.filter (fun m => isHalf (s.width l m))).length ≤ L.length := by
    induction L with
    | nil => exact Nat.le_refl 0
    | cons m L ih =>
      have one := apart (s.width l m)
      rw [List.filter_cons, List.filter_cons, List.length_cons]
      cases full : isFull (s.width l m) <;> cases half : isHalf (s.width l m)
      · simpa using Nat.le_succ_of_le ih
      · simp only [Bool.false_eq_true, if_false, if_true, List.length_cons]
        omega
      · simp only [Bool.false_eq_true, if_false, if_true, List.length_cons]
        omega
      · exact absurd ⟨full, half⟩ one
  exact (counted (List.range 32)).trans_eq List.length_range

/-- The counts of a leaf agree with its widths (R353). -/
structure State.Counted (s t : State) (l : Nat) : Prop where
  eq    : t = { s with regs := t.regs }
  full  : t.rd (Reg.LL_STATE_FULL l) = s.modulesAt l isFull
  half  : t.rd (Reg.LL_STATE_HALF l) = s.modulesAt l isHalf
  off   : t.rd (Reg.LL_STATE_DISABLED l) = 32 - s.modulesAt l isFull - s.modulesAt l isHalf
  rate  : t.rd (Reg.LL_STATE_RATE_64THS l) = 2 * s.modulesAt l isFull + s.modulesAt l isHalf
  rd    : ∀ g : Fld, (∀ f ∈ [Reg.LL_STATE_FULL l, Reg.LL_STATE_HALF l, Reg.LL_STATE_DISABLED l, Reg.LL_STATE_RATE_64THS l], g.key ≠ f.key) → t.rd g = s.rd g

/-- Two fields of one register. -/
theorem oneReg_ne {off lo lo' w w' rst rst' : Nat} (apart : lo ≠ lo') : (⟨off, lo, w, rst⟩ : Fld).key ≠ (⟨off, lo', w', rst'⟩ : Fld).key := by
  simp only [Fld.key]
  omega

theorem State.recountLeaf_counted (s : State) (l : Nat) : s.Counted (s.recountLeaf l) l := by
  have few := s.modulesAt_le l
  have run : s.recountLeaf l = (((s.wr (Reg.LL_STATE_FULL l) (s.modulesAt l isFull)).wr (Reg.LL_STATE_HALF l) (s.modulesAt l isHalf)).wr (Reg.LL_STATE_DISABLED l)
      (32 - s.modulesAt l isFull - s.modulesAt l isHalf)).wr (Reg.LL_STATE_RATE_64THS l) (2 * s.modulesAt l isFull + s.modulesAt l isHalf) := rfl
  have fh : (Reg.LL_STATE_FULL l).key ≠ (Reg.LL_STATE_HALF l).key := oneReg_ne (off := Reg.LL_STATE l) (by decide)
  have fd : (Reg.LL_STATE_FULL l).key ≠ (Reg.LL_STATE_DISABLED l).key := oneReg_ne (off := Reg.LL_STATE l) (by decide)
  have fr : (Reg.LL_STATE_FULL l).key ≠ (Reg.LL_STATE_RATE_64THS l).key := oneReg_ne (off := Reg.LL_STATE l) (by decide)
  have hd : (Reg.LL_STATE_HALF l).key ≠ (Reg.LL_STATE_DISABLED l).key := oneReg_ne (off := Reg.LL_STATE l) (by decide)
  have hr : (Reg.LL_STATE_HALF l).key ≠ (Reg.LL_STATE_RATE_64THS l).key := oneReg_ne (off := Reg.LL_STATE l) (by decide)
  have dr : (Reg.LL_STATE_DISABLED l).key ≠ (Reg.LL_STATE_RATE_64THS l).key := oneReg_ne (off := Reg.LL_STATE l) (by decide)
  refine ⟨?_, ?_, ?_, ?_, ?_, fun g apart => ?_⟩
  · rw [run]
    exact ((((s.wr_onlyRegs _ _).trans (State.wr_onlyRegs _ _ _)).trans (State.wr_onlyRegs _ _ _)).trans (State.wr_onlyRegs _ _ _)).eq
  · rw [run, State.rd_wr_ne _ _ _ _ fr, State.rd_wr_ne _ _ _ _ fd, State.rd_wr_ne _ _ _ _ fh, State.rd_wr]
    exact Nat.mod_eq_of_lt (by show _ < 64; omega)
  · rw [run, State.rd_wr_ne _ _ _ _ hr, State.rd_wr_ne _ _ _ _ hd, State.rd_wr]
    exact Nat.mod_eq_of_lt (by show _ < 64; omega)
  · rw [run, State.rd_wr_ne _ _ _ _ dr, State.rd_wr]
    exact Nat.mod_eq_of_lt (by show _ < 64; omega)
  · rw [run, State.rd_wr]
    exact Nat.mod_eq_of_lt (by show _ < 128; omega)
  · simp only [List.forall_mem_cons, List.not_mem_nil, false_implies, implies_true, and_true] at apart
    obtain ⟨full, half, off, rate⟩ := apart
    rw [run, State.rd_wr_ne _ _ _ _ rate, State.rd_wr_ne _ _ _ _ off, State.rd_wr_ne _ _ _ _ half, State.rd_wr_ne _ _ _ _ full]

/-! ### A lane test (R343, R344) -/

theorem State.repairLanes_onlyRecords (s : State) (l m : Nat) (ls : List Nat) : s.OnlyRecords (s.repairLanes l m ls) :=
  foldl_keeps s.OnlyRecords _ (fun t _ h => h.trans ((t.wr_onlyRecords _ _).trans (State.raise_onlyRecords _ _))) ls s (.refl s)

theorem State.repairLanes_rd (s : State) (l m : Nat) (ls : List Nat) {g : Fld} (b : g.BeyondRecords) (apart : g.key ≠ (Reg.LL_SPARE_REPAIRS l).key) :
    (s.repairLanes l m ls).rd g = s.rd g :=
  foldl_same (fun u : State => u.rd g) _ (fun t _ => (State.raise_rd _ _ b).trans (t.bump_rd_ne 1 apart)) ls s

theorem State.degradeRecord_onlyRecords (s : State) (l m old new : Nat) : s.OnlyRecords (s.degradeRecord l m old new) :=
  iteInduction (motive := s.OnlyRecords) (fun _ => .refl s) (fun _ => s.raise_onlyRecords _)

theorem State.degradeRecord_rd (s : State) (l m old new : Nat) {g : Fld} (b : g.BeyondRecords) : (s.degradeRecord l m old new).rd g = s.rd g :=
  iteInduction (motive := fun u : State => u.rd g = s.rd g) (fun _ => rfl) (fun _ => s.raise_rd _ b)

/-- A module after a lane test: the lanes found failed are entered. -/
def Ucie.tested (u : Ucie) (t : LaneTest) : Ucie :=
  { u with
    failedTx := u.failedTx ++ (t.failedTx.filter (fun x => decide (x < 64) && !u.failedTx.contains x)).dedup,
    failedRx := u.failedRx ++ (t.failedRx.filter (fun x => decide (x < 64) && !u.failedRx.contains x)).dedup, retraining := false, retries := [] }

/-- The width that a lane test leaves. -/
def Ucie.widthAfter (u : Ucie) (t : LaneTest) (old : Nat) : Nat := if t.clockBad then 3 else (u.tested t).widthFrom old

/-- What a lane test makes of the module, before its lanes and its width are recorded. -/
def State.testedAt (s : State) (l m : Nat) (t : LaneTest) : State :=
  (s.modUcie l m (fun _ => { ((s.leaf l).mod m).tested t with disabled := ((s.leaf l).mod m).widthAfter t (s.width l m) == 3 })).wr (Reg.LL_WIDTH_MOD l m)
    (((s.leaf l).mod m).widthAfter t (s.width l m))

/-- The lanes that a lane test repairs. -/
def Ucie.repaired (u : Ucie) (t : LaneTest) (width : Nat) : List Nat :=
  ((t.failedTx.filter (fun x => decide (x < 64) && !u.failedTx.contains x)).dedup ++ (t.failedRx.filter (fun x => decide (x < 64) && !u.failedRx.contains x)).dedup).filter
    (fun x => (widthHalves width).contains (x / 32))

theorem State.applyTest_eq (s : State) (l m : Nat) (t : LaneTest) : s.applyTest l m t
    = (((((s.testedAt l m t).repairLanes l m (((s.leaf l).mod m).repaired t (((s.leaf l).mod m).widthAfter t (s.width l m)))).degradeRecord l m (s.width l m)
      (((s.leaf l).mod m).widthAfter t (s.width l m))).recountSpares l m).recountLeaf l) := rfl

theorem State.OnlyRecords.leaves {s t : State} (h : s.OnlyRecords t) : t.leaves = s.leaves := (congrArg State.leaves h.eq :)

theorem State.OnlyRegs.leaves {s t : State} (h : s.OnlyRegs t) : t.leaves = s.leaves := (congrArg State.leaves h.eq :)

theorem State.OnlyRegs.cores {s t : State} (h : s.OnlyRegs t) : t.cores = s.cores := (congrArg State.cores h.eq :)

theorem State.leaf_congr {s t : State} (h : t.leaves = s.leaves) (l : Nat) : t.leaf l = s.leaf l := by
  unfold State.leaf
  rw [h]

theorem Leaf.mod_set_same {v : Vector Ucie 32} {m : Nat} (x : Ucie) (one : m < 32) : (v.setIfInBounds m x).getD m Ucie.reset = x := getD_set_same _ _ _ _ one

theorem State.modUcie_mod (s : State) {l m : Nat} (f : Ucie → Ucie) (leaf : l < 4) (one : m < 32) : ((s.modUcie l m f).leaf l).mod m = f ((s.leaf l).mod m) := by
  unfold State.modUcie
  rw [State.leaf_modLeaf _ _ _ leaf]
  exact getD_set_same _ _ _ _ one

theorem State.modUcie_mod_ne (s : State) {l m i : Nat} (f : Ucie → Ucie) (leaf : l < 4) (apart : i ≠ m) : ((s.modUcie l m f).leaf l).mod i = (s.leaf l).mod i := by
  unfold State.modUcie
  rw [State.leaf_modLeaf _ _ _ leaf]
  exact getD_set_other _ _ _ _ _ apart

/-- What a lane test records before the module's spares and the leaf's modules are counted. -/
def State.testRecorded (s : State) (l m : Nat) (t : LaneTest) : State :=
  ((s.testedAt l m t).repairLanes l m (((s.leaf l).mod m).repaired t (((s.leaf l).mod m).widthAfter t (s.width l m)))).degradeRecord l m (s.width l m)
    (((s.leaf l).mod m).widthAfter t (s.width l m))

/-- The register fields of a leaf link that a lane test of one module may change. -/
def testFields (l m : Nat) : List Fld :=
  [Reg.LL_WIDTH_MOD l m, Reg.LL_SPARE_REPAIRS l, Reg.LL_SPARE_EXHAUSTED l, Reg.LL_STATE_FULL l, Reg.LL_STATE_HALF l, Reg.LL_STATE_DISABLED l, Reg.LL_STATE_RATE_64THS l]

/-- What a lane test of a module leaves (R344, R353). -/
structure State.Tested (s : State) (l m : Nat) (t : LaneTest) (w : State) : Prop where
  module : (w.leaf l).mod m = { ((s.leaf l).mod m).tested t with disabled := ((s.leaf l).mod m).widthAfter t (s.width l m) == 3 }
  others : ∀ i, i ≠ m → (w.leaf l).mod i = (s.leaf l).mod i
  width  : w.width l m = ((s.leaf l).mod m).widthAfter t (s.width l m)
  widths : ∀ i < 32, i ≠ m → w.width l i = s.width l i
  full   : w.rd (Reg.LL_STATE_FULL l) = w.modulesAt l isFull
  half   : w.rd (Reg.LL_STATE_HALF l) = w.modulesAt l isHalf
  off    : w.rd (Reg.LL_STATE_DISABLED l) = 32 - w.modulesAt l isFull - w.modulesAt l isHalf
  rate   : w.rd (Reg.LL_STATE_RATE_64THS l) = 2 * w.modulesAt l isFull + w.modulesAt l isHalf
  rd     : ∀ g : Fld, g.BeyondRecords → (∀ f ∈ testFields l m, g.key ≠ f.key) → w.rd g = s.rd g

theorem State.testRecorded_rd (s : State) (l m : Nat) (t : LaneTest) {g : Fld} (b : g.BeyondRecords) (repairs : g.key ≠ (Reg.LL_SPARE_REPAIRS l).key) :
    (s.testRecorded l m t).rd g = (s.testedAt l m t).rd g :=
  (State.degradeRecord_rd _ l m _ _ b).trans (State.repairLanes_rd _ l m _ b repairs)

theorem State.testRecorded_leaves (s : State) (l m : Nat) (t : LaneTest) : (s.testRecorded l m t).leaves = (s.testedAt l m t).leaves :=
  (State.degradeRecord_onlyRecords _ l m _ _).leaves.trans (State.repairLanes_onlyRecords _ l m _).leaves

theorem Ucie.widthAfter_lt (u : Ucie) (t : LaneTest) (old : Nat) : u.widthAfter t old < 4 :=
  iteInduction (motive := fun n : Nat => n < 4) (fun _ => by decide) (fun _ => Ucie.widthFrom_lt _ _)

theorem State.applyTest_tested (s : State) {l m : Nat} (t : LaneTest) (leaf : l < 4) (one : m < 32) : s.Tested l m t (s.applyTest l m t) := by
  have run : s.applyTest l m t = ((s.testRecorded l m t).recountSpares l m).recountLeaf l := rfl
  rw [run]
  have spares : (s.testRecorded l m t).OnlyRegs ((s.testRecorded l m t).recountSpares l m) := State.wr_onlyRegs ..
  have spares_rd (g : Fld) (apart : g.key ≠ (Reg.LL_SPARE_EXHAUSTED l).key) : ((s.testRecorded l m t).recountSpares l m).rd g = (s.testRecorded l m t).rd g :=
    State.rd_wr_ne _ _ _ _ apart
  generalize (s.testRecorded l m t).recountSpares l m = v at spares spares_rd ⊢
  have counted := v.recountLeaf_counted l
  generalize v.recountLeaf l = w at counted ⊢
  have leaves : w.leaves = (s.testedAt l m t).leaves :=
    ((congrArg State.leaves counted.eq :).trans spares.leaves).trans (s.testRecorded_leaves l m t)
  have wide (i : Nat) (small : i < 32) : w.width l i = (s.testedAt l m t).width l i := by
    have state : ∀ f ∈ [Reg.LL_STATE_FULL l, Reg.LL_STATE_HALF l, Reg.LL_STATE_DISABLED l, Reg.LL_STATE_RATE_64THS l], (Reg.LL_WIDTH_MOD l i).key ≠ f.key := by
      simp only [List.forall_mem_cons, List.not_mem_nil, false_implies, implies_true, and_true, Fld.key, Reg.LL_WIDTH_MOD, Reg.LL_WIDTH, Reg.LL_STATE_FULL, Reg.LL_STATE_HALF,
        Reg.LL_STATE_DISABLED, Reg.LL_STATE_RATE_64THS, Reg.LL_STATE]
      omega
    have exhausted : (Reg.LL_WIDTH_MOD l i).key ≠ (Reg.LL_SPARE_EXHAUSTED l).key := leafField_ne (r := 0x10) (r' := 0x18) (by omega) (by decide) (.inl (by decide))
    have repairs : (Reg.LL_WIDTH_MOD l i).key ≠ (Reg.LL_SPARE_REPAIRS l).key := leafField_ne (r := 0x10) (r' := 0x18) (by omega) (by decide) (.inl (by decide))
    exact ((counted.rd _ state).trans (spares_rd _ exhausted)).trans (s.testRecorded_rd l m t (leafField_beyondRecords (r := 0x10) (by omega)) repairs)
  have recount (p : Nat → Bool) : w.modulesAt l p = v.modulesAt l p := by
    refine State.modulesAt_congr (fun i small => counted.rd _ ?_) p
    simp only [List.forall_mem_cons, List.not_mem_nil, false_implies, implies_true, and_true, Fld.key, Reg.LL_WIDTH_MOD, Reg.LL_WIDTH, Reg.LL_STATE_FULL, Reg.LL_STATE_HALF,
      Reg.LL_STATE_DISABLED, Reg.LL_STATE_RATE_64THS, Reg.LL_STATE]
    omega
  have left (i : Nat) : (w.leaf l).mod i
      = ((s.modUcie l m (fun _ => { ((s.leaf l).mod m).tested t with disabled := ((s.leaf l).mod m).widthAfter t (s.width l m) == 3 })).leaf l).mod i :=
    congrArg (fun k : Leaf => k.mod i) (State.leaf_congr leaves l)
  refine ⟨?_, fun i apart => ?_, ?_, fun i small apart => ?_, ?_, ?_, ?_, ?_, fun g b away => ?_⟩
  · rw [left, State.modUcie_mod s _ leaf one]
  · rw [left, State.modUcie_mod_ne s _ leaf apart]
  · rw [wide m one]
    exact (State.rd_wr _ _ _).trans (Nat.mod_eq_of_lt (Ucie.widthAfter_lt _ t _))
  · rw [wide i small]
    exact State.rd_wr_ne _ _ _ _ (width_key_ne apart)
  · rw [counted.full, recount]
  · rw [counted.half, recount]
  · rw [counted.off, recount, recount]
  · rw [counted.rate, recount, recount]
  · simp only [testFields, List.forall_mem_cons, List.not_mem_nil, false_implies, implies_true, and_true] at away
    obtain ⟨width, repairs, exhausted, full, half, off, rate⟩ := away
    rw [counted.rd g (by simp only [List.forall_mem_cons, List.not_mem_nil, false_implies, implies_true, and_true]; exact ⟨full, half, off, rate⟩),
      spares_rd g exhausted, s.testRecorded_rd l m t b repairs]
    exact State.rd_wr_ne _ _ _ _ width

/-- A lane of a leaf's module is entered as failed where a test found it so. -/
theorem Ucie.tested_entered (u : Ucie) (t : LaneTest) {x : Nat} (lane : x < 64) :
    (x ∈ t.failedTx → x ∈ (u.tested t).failedTx) ∧ (x ∈ t.failedRx → x ∈ (u.tested t).failedRx) := by
  have entered (old new : List Nat) (mem : x ∈ new) : x ∈ old ++ (new.filter (fun x => decide (x < 64) && !old.contains x)).dedup := by
    by_cases before : x ∈ old
    · exact List.mem_append_left _ before
    · refine List.mem_append_right _ (List.mem_dedup.mpr (List.mem_filter.mpr ⟨mem, ?_⟩))
      rw [decide_eq_true lane, List.contains_eq_mem, decide_eq_false before]
      rfl
  exact ⟨entered _ _, entered _ _⟩

theorem Ucie.usable_congr {u v : Ucie} (tx : v.failedTx = u.failedTx) (rx : v.failedRx = u.failedRx) (old : Nat) : v.widthFrom old = u.widthFrom old := by
  unfold Ucie.widthFrom Ucie.usable
  rw [tx, rx]

theorem exec_ucieRetrainDone {s : State} {l : Fin 4} {m : Fin 32} (alive : s.failed = false) (training : ((s.leaf l.val).mod m.val).retraining = true) (t : LaneTest) :
    exec (.ucieRetrainDone l m t) s = .next (((s.applyTest l.val m.val t).checkLeaf l.val).returnHeld (leafCores l.val)) := by
  have proceeds : (s.failed || !((s.leaf l.val).mod m.val).retraining) = false := by rw [alive, training]; rfl
  have run : exec (.ucieRetrainDone l m t) s = .next (if s.failed || !((s.leaf l.val).mod m.val).retraining then s
    else ((s.applyTest l.val m.val t).checkLeaf l.val).returnHeld (leafCores l.val)) := rfl
  rw [run, if_neg (Bool.eq_false_iff.mp proceeds)]

/-- One module at most is disabled where the others run. -/
theorem State.modulesAt_others {s : State} {l m : Nat} (one : m < 32) (run : ∀ i, i < 32 → i ≠ m → s.width l i < 3) :
    31 ≤ s.modulesAt l isFull + s.modulesAt l isHalf := by
  have counted (L : List Nat) (small : ∀ i ∈ L, i < 32) :
      L.length ≤ (L.filter (fun i => isFull (s.width l i))).length + (L.filter (fun i => isHalf (s.width l i))).length + L.count m := by
    induction L with
    | nil => exact Nat.zero_le _
    | cons i L ih =>
      have rest := ih fun j mem => small j (List.mem_cons_of_mem _ mem)
      simp only [← List.countP_eq_length_filter, List.countP_cons, List.length_cons] at rest ⊢
      by_cases same : i = m
      · subst same
        rw [List.count_cons_self]
        omega
      · rw [List.count_cons_of_ne same]
        have works := run i (small i List.mem_cons_self) same
        have either : isFull (s.width l i) = true ∨ isHalf (s.width l i) = true := by
          simp only [isFull, isHalf, beq_iff_eq, Bool.or_eq_true]
          omega
        rcases either with full | half
        · rw [if_pos full]
          omega
        · rw [if_pos half]
          omega
  have all := counted (List.range 32) fun i mem => List.mem_range.mp mem
  have once : (List.range 32).count m = 1 := List.count_eq_one_of_mem List.nodup_range (List.mem_range.mpr one)
  rw [once, List.length_range] at all
  exact Nat.le_of_succ_le_succ all

theorem laneTests (l : Fin 4) (m : Fin 32) (s : State) (alive : s.failed = false) (t : LaneTest) (training : ((s.leaf l.val).mod m.val).retraining = true)
    (clock : t.clockBad = false) (run : ∀ i, i < 32 → i ≠ m.val → s.width l.val i < 3) :
    ∃ w : State, exec (.ucieRetrainDone l m t) s = .next w ∧ ((w.leaf l.val).mod m.val).retraining = false
      ∧ (∀ x, x < 64 → (x ∈ t.failedTx → x ∈ ((w.leaf l.val).mod m.val).failedTx) ∧ (x ∈ t.failedRx → x ∈ ((w.leaf l.val).mod m.val).failedRx))
      ∧ w.width l.val m.val = ((w.leaf l.val).mod m.val).widthFrom (s.width l.val m.val)
      ∧ w.rd (Reg.LL_STATE_FULL l.val) = ((List.range 32).filter (fun i => w.width l.val i == 0)).length
      ∧ w.rd (Reg.LL_STATE_HALF l.val) = ((List.range 32).filter (fun i => w.width l.val i == 1 || w.width l.val i == 2)).length
      ∧ w.rd (Reg.LL_STATE_RATE_64THS l.val) = 2 * w.rd (Reg.LL_STATE_FULL l.val) + w.rd (Reg.LL_STATE_HALF l.val) := by
  have tested := s.applyTest_tested t l.isLt m.isLt
  have done := exec_ucieRetrainDone alive training t
  generalize s.applyTest l.val m.val t = v at tested done
  obtain ⟨module, others, width, widths, full, half, off, rate, -⟩ := tested
  have enough : ¬ v.rd (Reg.LL_STATE_DISABLED l.val) > 4 := by
    have most := State.modulesAt_others (s := v) m.isLt (fun i small apart => (widths i small apart).symm ▸ run i small apart)
    rw [off]
    omega
  have stays : v.checkLeaf l.val = v := if_neg enough
  rw [stays] at done
  refine ⟨_, done, ?_, fun x lane => ?_, ?_, full, half, ?_⟩
  · exact congrArg Ucie.retraining module
  · have entered := ((s.leaf l.val).mod m.val).tested_entered t lane
    have tx : ((v.leaf l.val).mod m.val).failedTx = _ := congrArg Ucie.failedTx module
    have rx : ((v.leaf l.val).mod m.val).failedRx = _ := congrArg Ucie.failedRx module
    exact ⟨fun mem => tx ▸ entered.1 mem, fun mem => rx ▸ entered.2 mem⟩
  · refine width.trans ((if_neg (by rw [clock]; exact Bool.false_ne_true)).trans ?_)
    exact (Ucie.usable_congr (congrArg Ucie.failedTx module) (congrArg Ucie.failedRx module) _).symm
  · exact rate.trans (by rw [← full, ← half]; rfl)

/-! ### A leaf leaves service (R345, R346) -/

/-- From s the state comes to t with every core's arrays, its task where no task is being saved or restored, and that none is. -/
structure State.KeepsArrays (s t : State) : Prop where
  arrays : ∀ c, (t.core c).arrays = (s.core c).arrays
  still  : (∀ x ∈ s.tasks, x.state ≠ .saving ∧ x.state ≠ .restoring) →
    (∀ x ∈ t.tasks, x.state ≠ .saving ∧ x.state ≠ .restoring) ∧ ∀ c, (t.core c).task = (s.core c).task

theorem State.KeepsArrays.refl (s : State) : s.KeepsArrays s := ⟨fun _ => rfl, fun h => ⟨h, fun _ => rfl⟩⟩

theorem State.KeepsArrays.trans {s t u : State} (a : s.KeepsArrays t) (b : t.KeepsArrays u) : s.KeepsArrays u := by
  refine ⟨fun c => (b.arrays c).trans (a.arrays c), fun still => ?_⟩
  obtain ⟨mid, tasks⟩ := a.still still
  obtain ⟨last, tasks'⟩ := b.still mid
  exact ⟨last, fun c => (tasks' c).trans (tasks c)⟩

theorem State.KeepsArrays.foldl {α : Type} {s : State} {f : State → α → State} (h : ∀ (t : State) a, t.KeepsArrays (f t a)) (l : List α) : s.KeepsArrays (l.foldl f s) :=
  foldl_keeps s.KeepsArrays f (fun t a k => k.trans (h t a)) l s (.refl s)

theorem State.keepsArrays_of {s t : State} (tasks : t.tasks = s.tasks) (cores : t.cores = s.cores) : s.KeepsArrays t :=
  ⟨fun c => congrArg Core.arrays (State.core_congr cores c), fun h => ⟨tasks ▸ h, fun c => congrArg Core.task (State.core_congr cores c)⟩⟩

theorem State.core_modCore_out (s : State) {c : Nat} (f : Core → Core) (known : ¬ c < 48) (d : Nat) : (s.modCore c f).core d = s.core d := by
  by_cases here : d = c
  · subst here
    unfold State.modCore State.core
    simp [Vector.getD, known]
  · exact State.core_modCore_ne _ _ _ _ here

theorem State.modCore_keepsArrays (s : State) (c : Nat) {f : Core → Core} (arrays : ∀ k, (f k).arrays = k.arrays) (task : ∀ k, (f k).task = k.task) :
    s.KeepsArrays (s.modCore c f) := by
  have same {β : Type} (p : Core → β) (keeps : ∀ k, p (f k) = p k) (d : Nat) : p ((s.modCore c f).core d) = p (s.core d) := by
    by_cases known : c < 48
    · by_cases here : d = c
      · subst here
        rw [State.core_modCore _ _ _ known, keeps]
      · rw [State.core_modCore_ne _ _ _ _ here]
    · rw [s.core_modCore_out f known]
  exact ⟨same Core.arrays arrays, fun h => ⟨h, same Core.task task⟩⟩

theorem State.raise_keepsArrays (s : State) (f : Fault_) : s.KeepsArrays (s.raise f) := State.keepsArrays_of (s.raise_tasks f) (s.raise_cores f)

theorem State.dropAhead_keepsArrays (s : State) (c : Nat) : s.KeepsArrays (s.dropAhead c) := by
  have counted : s.KeepsArrays (s.bump (Reg.CORE_RUNAHEAD_STAT_RA_DISCARDED c) (s.core c).ahead.length) := State.keepsArrays_of rfl rfl
  exact counted.trans (State.modCore_keepsArrays _ c (f := fun k => { k with preRead := k.preRead.filter (fun p => p.bound.isSome) }) (fun _ => rfl) (fun _ => rfl))

theorem State.smudge_keepsArrays (s : State) (g space off n : Nat) : s.KeepsArrays (s.smudge g space off n) := by
  unfold State.smudge
  split
  · exact State.keepsArrays_of rfl rfl
  · have spoilt := s.kvSpoil_onlyHm off n
    exact State.keepsArrays_of ((congrArg State.tasks spoilt.eq :)) ((congrArg State.cores spoilt.eq :))
  · exact s.modCore_keepsArrays _ (fun _ => rfl) (fun _ => rfl)

theorem State.endFillers_keepsArrays (s : State) (c : Nat) : s.KeepsArrays (s.endFillers c []) := by
  refine .foldl (fun t i => ?_) _
  unfold State.endFiller
  refine iteInduction (fun _ => ?_) (fun _ => .refl t)
  have counted (n : Nat) : t.KeepsArrays (t.bumpK (Reg.LEAF_FILL_STAT_FILL_KCYCLES (c / 12)) n) := State.keepsArrays_of rfl rfl
  exact (counted _).trans (State.modCore_keepsArrays _ c (fun _ => rfl) (fun _ => rfl))

theorem State.dropHeld_keepsArrays (s : State) (c : Nat) : s.KeepsArrays (s.dropHeld c) := by
  have same : (s.dropHeld c).tasks = s.tasks ∧ (s.dropHeld c).cores = s.cores := by
    unfold State.dropHeld
    dsimp only
    refine foldl_keeps (fun u : State => u.tasks = s.tasks ∧ u.cores = s.cores) _ (fun u x h => ?_) _ _ ⟨rfl, rfl⟩
    exact iteInduction (motive := fun v : State => v.tasks = s.tasks ∧ v.cores = s.cores) (fun _ => h) (fun _ => h)
  exact State.keepsArrays_of same.1 same.2

theorem State.abandonCore_keepsArrays (s : State) (c : Nat) : s.KeepsArrays (s.abandonCore c) := by
  have fresh : s.KeepsArrays s.freshJunk.2 := State.keepsArrays_of rfl rfl
  have ahead := fresh.trans (State.dropAhead_keepsArrays _ c)
  have waits (u : State) (refused : List Parked) (waiters : List Waiter) (collWait : List (Nat × Nat)) :
      u.KeepsArrays { u with refused := refused, waiters := waiters, collWait := collWait } := State.keepsArrays_of rfl rfl
  unfold State.abandonCore
  dsimp only
  refine State.KeepsArrays.trans ?_ (State.dropHeld_keepsArrays _ c)
  refine State.KeepsArrays.trans ?_ (waits ..)
  refine State.KeepsArrays.trans ?_ (State.modCore_keepsArrays _ c (fun k => ?_) (fun k => ?_))
  · refine State.KeepsArrays.trans ?_ (State.endFillers_keepsArrays _ c)
    refine foldl_keeps s.KeepsArrays _ (fun t e h => ?_) _ _ ahead
    exact foldl_keeps s.KeepsArrays _ (fun u d h => h.trans (u.smudge_keepsArrays ..)) _ t h
  · show (if k.finished then k else k.stop).arrays = k.arrays
    split <;> rfl
  · show (if k.finished then k else k.stop).task = k.task
    split <;> rfl

/-- A task that is failed while none is being saved or restored. -/
theorem State.stopSave_keepsArrays (s : State) (t : Nat) : s.KeepsArrays (s.stopSave t) := by
  unfold State.stopSave
  cases found : s.task? t with
  | none => exact .refl s
  | some x =>
    refine iteInduction (fun saving => ⟨fun c => ?_, fun still => ?_⟩) (fun _ => .refl s)
    · refine foldl_same (fun u : State => (u.core c).arrays) (fun (s : State) c => s.modCore c (fun k => { k with task := t })) (fun u a => ?_) x.cores s
      by_cases known : a < 48
      · by_cases here : c = a
        · subst here
          rw [State.core_modCore _ _ _ known]
        · rw [State.core_modCore_ne _ _ _ _ here]
      · rw [u.core_modCore_out _ known]
    · obtain ⟨saves, restores⟩ := still x (List.mem_of_find?_eq_some found)
      exact absurd saving (fun h => h.elim saves restores)

theorem State.modTask_keepsArrays (s : State) (n : Nat) {f : Task → Task} (halts : ∀ x, (f x).state = x.state.halted) : s.KeepsArrays (s.modTask n f) := by
  refine ⟨fun _ => rfl, fun still => ⟨fun y mem => ?_, fun _ => rfl⟩⟩
  obtain ⟨x, hx, rfl⟩ := List.mem_map.mp mem
  have quiet := still x hx
  by_cases same : (x.num == n) = true
  · rw [if_pos same, halts]
    unfold TaskState.halted
    split
    · exact ⟨TaskState.noConfusion, TaskState.noConfusion⟩
    · exact quiet
  · rw [if_neg same]
    exact quiet

theorem State.failTask_keepsArrays (s : State) (t st : Nat) : s.KeepsArrays (s.failTask t st) := by
  unfold State.failTask State.abandonTask
  refine ((s.stopSave_keepsArrays t).trans (.foldl (fun u c => u.abandonCore_keepsArrays c) _)).trans (State.modTask_keepsArrays _ t fun _ => rfl)

theorem State.failJob_keepsArrays (s : State) (job st : Nat) : s.KeepsArrays (s.failJob job st) :=
  .foldl (fun (u : State) (x : Task) => u.failTask_keepsArrays x.num st) _

theorem State.leafFatal_keepsArrays (s : State) (l : Nat) (replace : Bool) : s.KeepsArrays (s.leafFatal l replace) := by
  have freed : s.KeepsArrays s.free.2 := State.keepsArrays_of rfl rfl
  unfold State.leafFatal
  dsimp only
  refine iteInduction (fun _ => freed.trans (State.raise_keepsArrays _ _)) (fun _ => freed.trans (.foldl (fun u j => ?_) _))
  exact (u.failJob_keepsArrays j _).trans (State.raise_keepsArrays _ _)

/-- A field of a number that has been set. -/
theorem testBit_setFld (x lo : Nat) {w n : Nat} (v : Nat) (within : n < w) : (setFld x lo w v).testBit (lo + n) = (v % 2 ^ w).testBit n := by
  have field : setFld x lo w v / 2 ^ lo % 2 ^ w = v % 2 ^ w := by
    have pos := Nat.two_pow_pos lo
    have parts := Nat.div_add_mod x (2 ^ lo)
    have wide := Nat.div_add_mod (x / 2 ^ lo) (2 ^ w)
    have form : setFld x lo w v = x % 2 ^ lo + 2 ^ lo * (2 ^ w * (x / 2 ^ lo / 2 ^ w) + v % 2 ^ w) := by
      have split_ : x = 2 ^ lo * (2 ^ w * (x / 2 ^ lo / 2 ^ w)) + (x / 2 ^ lo % 2 ^ w) * 2 ^ lo + x % 2 ^ lo := by
        calc x = 2 ^ lo * (x / 2 ^ lo) + x % 2 ^ lo := parts.symm
          _ = 2 ^ lo * (2 ^ w * (x / 2 ^ lo / 2 ^ w) + x / 2 ^ lo % 2 ^ w) + x % 2 ^ lo := by rw [wide]
          _ = _ := by ring
      unfold setFld fld
      have gone : x - x / 2 ^ lo % 2 ^ w * 2 ^ lo = 2 ^ lo * (2 ^ w * (x / 2 ^ lo / 2 ^ w)) + x % 2 ^ lo := by
        omega
      rw [gone]
      ring
    rw [form, Nat.add_mul_div_left _ _ pos, Nat.div_eq_of_lt (Nat.mod_lt _ pos), Nat.zero_add, Nat.mul_add_mod, Nat.mod_mod]
  have bit := congrArg (fun y => Nat.testBit y n) field
  simp only [Nat.testBit_mod_two_pow, Nat.testBit_div_two_pow, within, decide_true, Bool.true_and] at bit ⊢
  rw [Nat.add_comm lo n]
  exact bit

/-- The domains of a leaf after they have been switched. -/
theorem State.leafDomains_bit (s : State) {l n : Nat} (on : Bool) (leaf : l < 4) (dom : n < 7) : ((s.leafDomains l on).rd Reg.POW_DOMAINS_ON).testBit (7 * l + n) = on := by
  have wide : 7 * l + n < 50 := by omega
  unfold State.leafDomains
  rw [State.rd_wr, show Reg.POW_DOMAINS_ON.w = 50 from rfl, Nat.testBit_mod_two_pow, decide_eq_true wide, Bool.true_and, testBit_setFld _ _ _ dom]
  cases on with
  | false => exact Nat.zero_testBit n
  | true =>
    show (127 % 2 ^ 7).testBit n = true
    interval_cases n <;> decide

/-- What wiping a leaf leaves of its cores and its power domains (R346, R399). -/
structure State.Wiped (s : State) (l : Nat) (t : State) : Prop where
  cores   : ∀ c, c / 12 = l → c < 48 → (t.core c).lt = [] ∧ (t.core c).sreg = [] ∧ (t.core c).window = []
  keeps   : s.KeepsArrays t
  domains : ∀ n, n < 7 → (t.rd Reg.POW_DOMAINS_ON).testBit (7 * l + n) = false

/-- The die of a leaf loses its registers, its waiters and its pairs. -/
def State.dieLost (s : State) (l : Nat) : State :=
  { s with regs := s.regs.filter (fun r => !leafDieReg l (r.1 / 64)), sub := s.sub.filter (fun r => !leafDieReg l (r.1 / 64)),
           waiters := s.waiters.filter (fun w => w.core / 12 != l), pairsOn := s.pairsOn.filter (fun n => n / 7 != l) }

theorem State.wipeLeaf_eq (s : State) (l : Nat) : s.wipeLeaf l
    = ((((s.freshJunk.2.modCores (leafCores l) (fun k => k.wiped s.freshJunk.1)).dieLost l).modLeaf l (fun _ => Leaf.reset)).leafDomains l false).returnHeld (leafCores l) := rfl

theorem State.wipeLeaf_wiped (s : State) {l : Nat} (leaf : l < 4) : s.Wiped l (s.wipeLeaf l) := by
  rw [State.wipeLeaf_eq]
  have cores : ∀ c, c / 12 = l → c < 48 → ((s.freshJunk.2.modCores (leafCores l) (fun k => k.wiped s.freshJunk.1)).core c).lt = []
      ∧ ((s.freshJunk.2.modCores (leafCores l) (fun k => k.wiped s.freshJunk.1)).core c).sreg = []
      ∧ ((s.freshJunk.2.modCores (leafCores l) (fun k => k.wiped s.freshJunk.1)).core c).window = [] := by
    intro c here known
    have mem : c ∈ leafCores l := List.mem_map.mpr ⟨c % 12, List.mem_range.mpr (Nat.mod_lt _ (by decide)), by omega⟩
    exact State.modCores_core (P := fun k : Core => k.lt = [] ∧ k.sreg = [] ∧ k.window = []) (fun _ => ⟨rfl, rfl, rfl⟩) mem known _
  have fresh : s.KeepsArrays s.freshJunk.2 := State.keepsArrays_of rfl rfl
  have each (u : State) (c : Nat) : u.KeepsArrays (u.modCore c (fun k => k.wiped s.freshJunk.1)) := u.modCore_keepsArrays c (fun _ => rfl) (fun _ => rfl)
  have wiped : s.KeepsArrays (s.freshJunk.2.modCores (leafCores l) (fun k => k.wiped s.freshJunk.1)) := fresh.trans (.foldl each _)
  generalize s.freshJunk.2.modCores (leafCores l) (fun k => k.wiped s.freshJunk.1) = v at cores wiped ⊢
  have bits (n : Nat) (dom : n < 7) := State.leafDomains_bit ((v.dieLost l).modLeaf l (fun _ => Leaf.reset)) false leaf dom
  exact ⟨cores, wiped.trans (State.keepsArrays_of rfl rfl), bits⟩

/-! ### Partial reset (R346-R348) -/

/-- A leaf that a partial reset has taken out of service. -/
structure State.OutOfService (s : State) (l : Nat) (u : State) : Prop where
  reset  : u.rd (Reg.LL_CTL_RESET l) = 1
  state  : u.rd (Reg.LL_STATE_STATE l) = 0
  full   : u.rd (Reg.LL_STATE_FULL l) = 0
  half   : u.rd (Reg.LL_STATE_HALF l) = 0
  stale  : u.rd (Reg.LL_BUDGET_STALE l) = 0
  cores  : ∀ c, c / 12 = l → c < 48 → (u.core c).lt = [] ∧ (u.core c).sreg = [] ∧ (u.core c).window = [] ∧ (u.core c).arrays = (s.core c).arrays
    ∧ ((∀ x ∈ s.tasks, x.state ≠ .saving ∧ x.state ≠ .restoring) → (u.core c).task = (s.core c).task)
  domains : ∀ n, n < 7 → (u.rd Reg.POW_DOMAINS_ON).testBit (7 * l + n) = false

/-- The registers of a leaf link in partial reset. -/
def State.resetRegs (s : State) (l : Nat) : State :=
  (((((s.wr (Reg.LL_CTL_RESET l) 1).wr (Reg.LL_STATE_STATE l) 0).wr (Reg.LL_BUDGET_STALE l) 0).wr (Reg.LL_STATE_FULL l) 0).wr (Reg.LL_STATE_HALF l) 0).wr (Reg.LL_STATE_RATE_64THS l) 0

theorem State.resetRegs_rd (s : State) (l : Nat) : (s.resetRegs l).rd (Reg.LL_CTL_RESET l) = 1 ∧ (s.resetRegs l).rd (Reg.LL_STATE_STATE l) = 0
    ∧ (s.resetRegs l).rd (Reg.LL_STATE_FULL l) = 0 ∧ (s.resetRegs l).rd (Reg.LL_STATE_HALF l) = 0 ∧ (s.resetRegs l).rd (Reg.LL_BUDGET_STALE l) = 0
    ∧ (s.resetRegs l).rd Reg.POW_DOMAINS_ON = s.rd Reg.POW_DOMAINS_ON := by
  have keys : (Reg.LL_CTL_RESET l).key = (0x02300000 + l * 0x800000) * 64 + 0 ∧ (Reg.LL_STATE_STATE l).key = (0x02300008 + l * 0x800000) * 64 + 0
      ∧ (Reg.LL_STATE_FULL l).key = (0x02300008 + l * 0x800000) * 64 + 2 ∧ (Reg.LL_STATE_HALF l).key = (0x02300008 + l * 0x800000) * 64 + 8
      ∧ (Reg.LL_STATE_RATE_64THS l).key = (0x02300008 + l * 0x800000) * 64 + 22 ∧ (Reg.LL_BUDGET_STALE l).key = (0x02300028 + l * 0x800000) * 64 + 38
      ∧ Reg.POW_DOMAINS_ON.key = 0x00D00010 * 64 + 0 := ⟨rfl, rfl, rfl, rfl, rfl, rfl, rfl⟩
  obtain ⟨reset, state, full, half, rate, stale, domains⟩ := keys
  unfold State.resetRegs
  refine ⟨?_, ?_, ?_, ?_, ?_, ?_⟩
  · rw [State.rd_wr_ne _ _ _ _ (by omega), State.rd_wr_ne _ _ _ _ (by omega), State.rd_wr_ne _ _ _ _ (by omega), State.rd_wr_ne _ _ _ _ (by omega),
      State.rd_wr_ne _ _ _ _ (by omega), State.rd_wr]
    rfl
  · rw [State.rd_wr_ne _ _ _ _ (by omega), State.rd_wr_ne _ _ _ _ (by omega), State.rd_wr_ne _ _ _ _ (by omega), State.rd_wr_ne _ _ _ _ (by omega), State.rd_wr]
    rfl
  · rw [State.rd_wr_ne _ _ _ _ (by omega), State.rd_wr_ne _ _ _ _ (by omega), State.rd_wr]
    rfl
  · rw [State.rd_wr_ne _ _ _ _ (by omega), State.rd_wr]
    rfl
  · rw [State.rd_wr_ne _ _ _ _ (by omega), State.rd_wr_ne _ _ _ _ (by omega), State.rd_wr_ne _ _ _ _ (by omega), State.rd_wr]
    rfl
  · rw [State.rd_wr_ne _ _ _ _ (by omega), State.rd_wr_ne _ _ _ _ (by omega), State.rd_wr_ne _ _ _ _ (by omega), State.rd_wr_ne _ _ _ _ (by omega),
      State.rd_wr_ne _ _ _ _ (by omega), State.rd_wr_ne _ _ _ _ (by omega)]

theorem State.resetRegs_onlyRegs (s : State) (l : Nat) : s.OnlyRegs (s.resetRegs l) :=
  (((((s.wr_onlyRegs _ _).trans (State.wr_onlyRegs ..)).trans (State.wr_onlyRegs ..)).trans (State.wr_onlyRegs ..)).trans (State.wr_onlyRegs ..)).trans (State.wr_onlyRegs ..)

theorem State.partialReset_eq {s : State} {l : Nat} (here : s.leafGone l = false) (idle : s.rdb (Reg.LL_CTL_RESET l) = false) :
    s.partialReset l = ((s.leafFatal l false).wipeLeaf l).resetRegs l := by
  unfold State.partialReset
  rw [if_neg (Bool.eq_false_iff.mp here), if_neg (Bool.eq_false_iff.mp idle)]
  generalize (s.leafFatal l false).wipeLeaf l = b
  rfl

theorem State.partialReset_out {s : State} {l : Nat} (leaf : l < 4) (here : s.leafGone l = false) (idle : s.rdb (Reg.LL_CTL_RESET l) = false) :
    s.OutOfService l (s.partialReset l) := by
  rw [State.partialReset_eq here idle]
  have fatal := s.leafFatal_keepsArrays l false
  have wiped := (s.leafFatal l false).wipeLeaf_wiped leaf
  generalize s.leafFatal l false = a at fatal wiped ⊢
  generalize a.wipeLeaf l = b at wiped ⊢
  obtain ⟨cores, keeps, domains⟩ := wiped
  obtain ⟨reset, state, full, half, stale, on⟩ := b.resetRegs_rd l
  have same := (b.resetRegs_onlyRegs l).cores
  refine ⟨reset, state, full, half, stale, fun c here known => ?_, fun n dom => ?_⟩
  · rw [State.core_congr same]
    obtain ⟨lt, sreg, window⟩ := cores c here known
    exact ⟨lt, sreg, window, (fatal.trans keeps).arrays c, fun still => ((fatal.trans keeps).still still).2 c⟩
  · rw [on]
    exact domains n dom

/-! ### Training (R339, R347) -/

/-- A lane test that finds nothing. -/
def cleanTest : LaneTest := { failedTx := [], failedRx := [], clockBad := false }

/-- A leaf link whose modules are all as after reset, while it trains. -/
structure State.Fresh (s : State) (l d : Nat) : Prop where
  modules : ∀ m < 32, (s.leaf l).mod m = Ucie.reset
  widths  : ∀ m < 32, s.width l m = 0
  state   : s.rd (Reg.LL_STATE_STATE l) = 1
  repairs : s.rd (Reg.LL_SPARE_REPAIRS l) = 0
  differ  : s.rd (Reg.LL_STATE_DISAGREE l) = d

theorem State.applyTest_repairs (s : State) (l m : Nat) {t : LaneTest} (none_ : ((s.leaf l).mod m).repaired t (((s.leaf l).mod m).widthAfter t (s.width l m)) = [])
    (one : m < 32) : (s.applyTest l m t).rd (Reg.LL_SPARE_REPAIRS l) = s.rd (Reg.LL_SPARE_REPAIRS l) := by
  have run : s.applyTest l m t = ((s.testRecorded l m t).recountSpares l m).recountLeaf l := rfl
  have recorded : (s.testRecorded l m t).rd (Reg.LL_SPARE_REPAIRS l) = (s.testedAt l m t).rd (Reg.LL_SPARE_REPAIRS l) := by
    have b : (Reg.LL_SPARE_REPAIRS l).BeyondRecords := leafField_beyondRecords (r := 0x18) (by decide)
    unfold State.testRecorded
    rw [none_, State.degradeRecord_rd _ l m _ _ b]
    rfl
  have spares : ((s.testRecorded l m t).recountSpares l m).rd (Reg.LL_SPARE_REPAIRS l) = (s.testRecorded l m t).rd (Reg.LL_SPARE_REPAIRS l) :=
    State.rd_wr_ne _ _ _ _ (oneReg_ne (off := Reg.LL_SPARE l) (by decide))
  have width : (Reg.LL_SPARE_REPAIRS l).key ≠ (Reg.LL_WIDTH_MOD l m).key := leafField_ne (r := 0x18) (r' := 0x10) (by decide) (by omega) (.inl (by decide))
  have tested : (s.testedAt l m t).rd (Reg.LL_SPARE_REPAIRS l) = s.rd (Reg.LL_SPARE_REPAIRS l) := State.rd_wr_ne _ _ _ _ width
  rw [run, (State.recountLeaf_counted _ l).rd, spares, recorded, tested]
  simp only [List.forall_mem_cons, List.not_mem_nil, false_implies, implies_true, and_true]
  exact ⟨leafField_ne (r := 0x18) (r' := 8) (by decide) (by decide) (.inl (by decide)), leafField_ne (r := 0x18) (r' := 8) (by decide) (by decide) (.inl (by decide)),
    leafField_ne (r := 0x18) (r' := 8) (by decide) (by decide) (.inl (by decide)), leafField_ne (r := 0x18) (r' := 8) (by decide) (by decide) (.inl (by decide))⟩

theorem State.modulesAt_fresh {s : State} {l : Nat} (widths : ∀ m < 32, s.width l m = 0) : s.modulesAt l isFull = 32 ∧ s.modulesAt l isHalf = 0 := by
  unfold State.modulesAt
  have all : (List.range 32).filter (fun m => isFull (s.width l m)) = List.range 32 := List.filter_eq_self.mpr fun m mem => by
    rw [widths m (List.mem_range.mp mem)]
    rfl
  have none_ : (List.range 32).filter (fun m => isHalf (s.width l m)) = [] := List.filter_eq_nil_iff.mpr fun m mem => by
    rw [widths m (List.mem_range.mp mem)]
    decide
  rw [all, none_]
  exact ⟨List.length_range, rfl⟩

theorem State.Fresh.test {s : State} {l d m : Nat} (h : s.Fresh l d) (leaf : l < 4) (one : m < 32) :
    (s.applyTest l m cleanTest).Fresh l d ∧ (s.applyTest l m cleanTest).rd (Reg.LL_STATE_FULL l) = 32 ∧ (s.applyTest l m cleanTest).rd (Reg.LL_STATE_DISABLED l) = 0 := by
  have tested := s.applyTest_tested cleanTest leaf one
  have repairs := s.applyTest_repairs l m (t := cleanTest) (by rw [h.modules m one, h.widths m one]; rfl) one
  generalize s.applyTest l m cleanTest = w at tested repairs ⊢
  obtain ⟨module, others, width, widths, full, -, off, -, rd⟩ := tested
  rw [h.modules m one, h.widths m one] at module width
  have all : ∀ i < 32, w.width l i = 0 := by
    intro i small
    by_cases same : i = m
    · rw [same, width]
      rfl
    · rw [widths i small same, h.widths i small]
  obtain ⟨count, none_⟩ := State.modulesAt_fresh all
  have away (lo wd rst : Nat) (low : lo < 2 ∨ 20 ≤ lo ∧ lo < 22) : ∀ f ∈ testFields l m, (⟨Reg.LL_STATE l, lo, wd, rst⟩ : Fld).key ≠ f.key := by
    simp only [testFields, List.forall_mem_cons, List.not_mem_nil, false_implies, implies_true, and_true, Fld.key, Reg.LL_WIDTH_MOD, Reg.LL_WIDTH, Reg.LL_STATE_FULL, Reg.LL_STATE_HALF,
      Reg.LL_STATE_DISABLED, Reg.LL_STATE_RATE_64THS, Reg.LL_STATE, Reg.LL_SPARE_REPAIRS, Reg.LL_SPARE_EXHAUSTED, Reg.LL_SPARE]
    omega
  refine ⟨⟨fun i small => ?_, all, ?_, repairs.trans h.repairs, ?_⟩, full.trans count, ?_⟩
  · by_cases same : i = m
    · rw [same, module]
      rfl
    · rw [others i same, h.modules i small]
  · exact (rd _ (leafField_beyondRecords (r := 8) (by decide)) (away 0 2 0 (by decide))).trans h.state
  · exact (rd _ (leafField_beyondRecords (r := 8) (by decide)) (away 20 2 0 (by decide))).trans h.differ
  · rw [off, count, none_]

/-- A leaf link as its training begins. -/
def State.trainingFrom (s : State) (l : Nat) : State :=
  (List.range 32).foldl (fun s m => s.wr (Reg.LL_WIDTH_MOD l m) 0)
    ((((s.modLeaf l (fun k => { k with mods := Vector.replicate 32 Ucie.reset })).wr (Reg.LL_STATE_STATE l) 1).wr (Reg.LL_SPARE_REPAIRS l) 0).wr (Reg.LL_SPARE_EXHAUSTED l) 0)

theorem State.trainLeaf_eq (s : State) (l : Nat) : s.trainLeaf l [] []
    = (let v := (List.range 32).foldl (fun s m => s.applyTest l m cleanTest) (s.trainingFrom l)
       if v.rd (Reg.LL_STATE_DISAGREE l) ≥ 3 then v.withdraw l else v.checkLeaf l) := rfl

/-- The widths of a leaf's modules are written in turn. -/
def State.zeroWidths (s : State) (l : Nat) (ms : List Nat) : State := ms.foldl (fun s m => s.wr (Reg.LL_WIDTH_MOD l m) 0) s

theorem State.zeroWidths_leaves (s : State) (l : Nat) (ms : List Nat) : (s.zeroWidths l ms).leaves = s.leaves :=
  foldl_same State.leaves (fun s m => s.wr (Reg.LL_WIDTH_MOD l m) 0) (fun _ _ => rfl) ms s

theorem State.zeroWidths_rd (s : State) (l : Nat) (ms : List Nat) {g : Fld} (apart : ∀ m ∈ ms, g.key ≠ (Reg.LL_WIDTH_MOD l m).key) : (s.zeroWidths l ms).rd g = s.rd g := by
  unfold State.zeroWidths
  induction ms generalizing s with
  | nil => rfl
  | cons m ms ih =>
    rw [List.foldl_cons, ih _ fun j mem => apart j (List.mem_cons_of_mem _ mem)]
    exact State.rd_wr_ne _ _ _ _ (apart m List.mem_cons_self)

theorem State.zeroWidths_width (s : State) (l : Nat) {ms : List Nat} {m : Nat} (mem : m ∈ ms) : (s.zeroWidths l ms).width l m = 0 := by
  have zero (u : State) (j : Nat) (h : u.width l m = 0) : (u.wr (Reg.LL_WIDTH_MOD l j) 0).width l m = 0 := by
    by_cases same : m = j
    · subst same
      exact State.rd_wr _ _ _
    · exact (State.rd_wr_ne _ _ _ _ (width_key_ne same)).trans h
  unfold State.zeroWidths
  induction ms generalizing s with
  | nil => exact absurd mem List.not_mem_nil
  | cons j ms ih =>
    rw [List.foldl_cons]
    rcases List.mem_cons.mp mem with rfl | later
    · exact foldl_keeps (fun u : State => u.width l m = 0) _ zero ms _ (State.rd_wr _ _ _)
    · exact ih _ later

theorem State.trainingFrom_fresh (s : State) {l : Nat} (leaf : l < 4) : (s.trainingFrom l).Fresh l (s.rd (Reg.LL_STATE_DISAGREE l)) := by
  have run : s.trainingFrom l = ((((s.modLeaf l (fun k => { k with mods := Vector.replicate 32 Ucie.reset })).wr (Reg.LL_STATE_STATE l) 1).wr (Reg.LL_SPARE_REPAIRS l) 0).wr
    (Reg.LL_SPARE_EXHAUSTED l) 0).zeroWidths l (List.range 32) := rfl
  have apart (r lo w rst : Nat) (within : lo < 64) (other : r ≠ 0x10) : ∀ m ∈ List.range 32, (⟨0x02300000 + r + l * 0x800000, lo, w, rst⟩ : Fld).key ≠ (Reg.LL_WIDTH_MOD l m).key := by
    intro m mem
    have small := List.mem_range.mp mem
    exact leafField_ne (r' := 0x10) within (by omega) (.inl other)
  have state : (Reg.LL_STATE_STATE l).key ≠ (Reg.LL_SPARE_REPAIRS l).key := leafField_ne (r := 8) (r' := 0x18) (by decide) (by decide) (.inl (by decide))
  have state' : (Reg.LL_STATE_STATE l).key ≠ (Reg.LL_SPARE_EXHAUSTED l).key := leafField_ne (r := 8) (r' := 0x18) (by decide) (by decide) (.inl (by decide))
  have repairs : (Reg.LL_SPARE_REPAIRS l).key ≠ (Reg.LL_SPARE_EXHAUSTED l).key := oneReg_ne (off := Reg.LL_SPARE l) (by decide)
  have differ : (Reg.LL_STATE_DISAGREE l).key ≠ (Reg.LL_STATE_STATE l).key := oneReg_ne (off := Reg.LL_STATE l) (by decide)
  have differ' : (Reg.LL_STATE_DISAGREE l).key ≠ (Reg.LL_SPARE_REPAIRS l).key := leafField_ne (r := 8) (r' := 0x18) (by decide) (by decide) (.inl (by decide))
  have differ'' : (Reg.LL_STATE_DISAGREE l).key ≠ (Reg.LL_SPARE_EXHAUSTED l).key := leafField_ne (r := 8) (r' := 0x18) (by decide) (by decide) (.inl (by decide))
  rw [run]
  refine ⟨fun m small => ?_, fun m small => State.zeroWidths_width _ l (List.mem_range.mpr small), ?_, ?_, ?_⟩
  · rw [State.leaf_congr (State.zeroWidths_leaves _ l _), State.leaf_congr (State.wr_leaves ..), State.leaf_congr (State.wr_leaves ..), State.leaf_congr (State.wr_leaves ..),
      State.leaf_modLeaf _ _ _ leaf]
    unfold Leaf.mod
    simp [Vector.getD, small]
  · rw [State.zeroWidths_rd _ l _ (g := Reg.LL_STATE_STATE l) (apart 8 0 2 0 (by decide) (by decide)), State.rd_wr_ne _ _ _ _ state', State.rd_wr_ne _ _ _ _ state, State.rd_wr]
    rfl
  · rw [State.zeroWidths_rd _ l _ (g := Reg.LL_SPARE_REPAIRS l) (apart 0x18 32 16 0 (by decide) (by decide)), State.rd_wr_ne _ _ _ _ repairs, State.rd_wr]
    rfl
  · rw [State.zeroWidths_rd _ l _ (g := Reg.LL_STATE_DISAGREE l) (apart 8 20 2 0 (by decide) (by decide)), State.rd_wr_ne _ _ _ _ differ'', State.rd_wr_ne _ _ _ _ differ', State.rd_wr_ne _ _ _ _ differ]
    rfl

/-- Training in which nothing is found: every module runs at full width. -/
theorem State.trainLeaf_clean (s : State) {l : Nat} (leaf : l < 4) (agrees : s.rd (Reg.LL_STATE_DISAGREE l) ≤ 2) :
    (s.trainLeaf l [] []).Fresh l (s.rd (Reg.LL_STATE_DISAGREE l)) ∧ (s.trainLeaf l [] []).rd (Reg.LL_STATE_FULL l) = 32 := by
  have fresh := s.trainingFrom_fresh leaf
  rw [State.trainLeaf_eq]
  generalize s.trainingFrom l = a at fresh ⊢
  have most : ((List.range 31).foldl (fun s m => s.applyTest l m cleanTest) a).Fresh l (s.rd (Reg.LL_STATE_DISAGREE l)) :=
    List.foldlRecOn (motive := fun u : State => u.Fresh l (s.rd (Reg.LL_STATE_DISAGREE l))) _ _ fresh fun u h m mem => (h.test leaf (by have := List.mem_range.mp mem; omega)).1
  obtain ⟨last, full, off⟩ := most.test leaf (m := 31) (by decide)
  have all : (List.range 32).foldl (fun s m => s.applyTest l m cleanTest) a = ((List.range 31).foldl (fun s m => s.applyTest l m cleanTest) a).applyTest l 31 cleanTest := by
    rw [List.range_succ, List.foldl_append]
    rfl
  rw [all]
  generalize ((List.range 31).foldl (fun s m => s.applyTest l m cleanTest) a).applyTest l 31 cleanTest = v at last full off ⊢
  have few : ¬ v.rd (Reg.LL_STATE_DISAGREE l) ≥ 3 := by
    rw [last.differ]
    omega
  have stays : v.checkLeaf l = v := if_neg (by rw [off]; decide)
  dsimp only
  rw [if_neg few, stays]
  exact ⟨last, full⟩

theorem State.leafActive_effect (s : State) {l : Nat} (leaf : l < 4) : (s.leafActive l).rd (Reg.LL_STATE_STATE l) = 2 ∧ (s.leafActive l).rd (Reg.LL_CTL_RESET l) = 0
    ∧ (s.leafActive l).rd (Reg.LL_STATE_DISAGREE l) = 0 ∧ (∀ n, n < 7 → ((s.leafActive l).rd Reg.POW_DOMAINS_ON).testBit (7 * l + n) = true) ∧ s.OnlyRegs (s.leafActive l) := by
  have keys : (Reg.LL_CTL_RESET l).key = (0x02300000 + l * 0x800000) * 64 + 0 ∧ (Reg.LL_STATE_STATE l).key = (0x02300008 + l * 0x800000) * 64 + 0
      ∧ (Reg.LL_STATE_DISAGREE l).key = (0x02300008 + l * 0x800000) * 64 + 20 ∧ Reg.POW_DOMAINS_ON.key = 0x00D00010 * 64 + 0 := ⟨rfl, rfl, rfl, rfl⟩
  obtain ⟨reset, state, differ, domains⟩ := keys
  unfold State.leafActive
  refine ⟨?_, ?_, ?_, fun n dom => State.leafDomains_bit _ true leaf dom, ?_⟩
  · unfold State.leafDomains
    rw [State.rd_wr_ne _ _ _ _ (by omega), State.rd_wr_ne _ _ _ _ (by omega), State.rd_wr_ne _ _ _ _ (by omega), State.rd_wr]
    rfl
  · unfold State.leafDomains
    rw [State.rd_wr_ne _ _ _ _ (by omega), State.rd_wr_ne _ _ _ _ (by omega), State.rd_wr]
    rfl
  · unfold State.leafDomains
    rw [State.rd_wr_ne _ _ _ _ (by omega), State.rd_wr]
    rfl
  · exact (((s.wr_onlyRegs _ _).trans (State.wr_onlyRegs ..)).trans (State.wr_onlyRegs ..)).trans (State.wr_onlyRegs ..)

theorem leavesResetAndTrain (l : Fin 4) (s : State) (alive : s.failed = false) (booted : s.booted = true) :
    (s.leafGone l.val = false → s.rdb (Reg.LL_CTL_RESET l.val) = false → (∃ u, exec (.partialReset l) s = .next u ∧ s.OutOfService l.val u)
        ∧ ∃ u, exec (.leafManagerUncorrectableError l) s = .next u ∧ s.OutOfService l.val u)
    ∧ (s.leafGone l.val = true → exec (.partialReset l) s = .next (s.logS0 Status.ok 0x0801 (Reg.LL_CTL l.val)) ∧ exec (.leafManagerUncorrectableError l) s = .next s)
    ∧ (s.rdb (Reg.LL_CTL_RESET l.val) = true → s.rd (Reg.LL_STATE_STATE l.val) = 0 → s.rd (Reg.LL_STATE_DISAGREE l.val) ≤ 2 →
      ∃ u : State, exec (.leafLinkTrain l [] []) s = .next u ∧ u.rd (Reg.LL_STATE_STATE l.val) = 1 ∧ u.rd (Reg.LL_STATE_FULL l.val) = 32
        ∧ (∀ m, m < 32 → u.width l.val m = 0) ∧ u.rd (Reg.LL_SPARE_REPAIRS l.val) = 0)
    ∧ (s.rdb (Reg.LL_CTL_RESET l.val) = true → s.rd (Reg.LL_STATE_STATE l.val) = 1 →
      ∃ u : State, exec (.partialResetDone l) s = .next u ∧ u.rd (Reg.LL_STATE_STATE l.val) = 2 ∧ u.rd (Reg.LL_CTL_RESET l.val) = 0
        ∧ u.rd (Reg.LL_STATE_DISAGREE l.val) = 0 ∧ (∀ n, n < 7 → (u.rd Reg.POW_DOMAINS_ON).testBit (7 * l.val + n) = true) ∧ u = { s with regs := u.regs }) := by
  have serving : s.serving = true := by rw [State.serving, booted, alive]; rfl
  have reset : exec (.partialReset l) s = .next (s.partialReset l.val) := congrArg Host.Outcome.next (if_pos serving)
  refine ⟨fun here idle => ?_, fun gone => ⟨?_, ?_⟩, fun on state agrees => ?_, fun on state => ?_⟩
  · have out := State.partialReset_out l.isLt here idle
    have error : exec (.leafManagerUncorrectableError l) s = .next (s.partialReset l.val) :=
      congrArg Host.Outcome.next (if_pos ⟨serving, by rw [here]; rfl⟩)
    exact ⟨⟨_, reset, out⟩, ⟨_, error, out⟩⟩
  · rw [reset]
    exact congrArg Host.Outcome.next (if_pos gone)
  · exact congrArg Host.Outcome.next (if_neg (by rw [gone]; exact fun h => Bool.noConfusion h.2))
  · have proceeds : (!s.failed && s.rdb (Reg.LL_CTL_RESET l.val) && s.rd (Reg.LL_STATE_STATE l.val) == 0) = true := by rw [alive, on, state]; rfl
    obtain ⟨fresh, full⟩ := s.trainLeaf_clean l.isLt agrees
    exact ⟨_, congrArg Host.Outcome.next (if_pos proceeds), fresh.state, full, fresh.widths, fresh.repairs⟩
  · have proceeds : (!s.failed && s.rdb (Reg.LL_CTL_RESET l.val) && s.rd (Reg.LL_STATE_STATE l.val) == 1) = true := by rw [alive, on, state]; rfl
    obtain ⟨active, done, agrees, domains, only⟩ := s.leafActive_effect l.isLt
    exact ⟨_, congrArg Host.Outcome.next (if_pos proceeds), active, done, agrees, domains, only.eq⟩

/-! ### Budget messages (R351, R352) -/

theorem leAt_grantBytes (seq watts : Nat) (capDrop : Bool) (time : Word) : leAt (grantBytes seq watts capDrop time) 0 1 = 1
    ∧ leAt (grantBytes seq watts capDrop time) 2 2 = watts % 65536 ∧ (leAt (grantBytes seq watts capDrop time) 4 1).testBit 0 = capDrop := by
  unfold grantBytes
  simp only [List.append_assoc]
  refine ⟨leAt_here 1 1 _, ?_, ?_⟩
  · rw [leAt_past _ _ _ (by decide), leAt_past _ _ _ (by decide)]
    exact leAt_here 2 watts _
  · rw [leAt_past _ _ _ (by decide), leAt_past _ _ _ (by decide), leAt_past _ _ _ (by decide)]
    exact (congrArg (fun n => Nat.testBit n 0) (leAt_here 1 capDrop.toNat _)).trans (toNat_testBit_mod capDrop)

theorem leAt_reportBytes (seq request draw temp flags : Nat) (active : BitVec 12) :
    leAt (reportBytes seq request draw temp flags active) 0 1 = 2 ∧ leAt (reportBytes seq request draw temp flags active) 2 2 = request % 65536
      ∧ leAt (reportBytes seq request draw temp flags active) 4 2 = draw % 65536 ∧ leAt (reportBytes seq request draw temp flags active) 6 1 = temp % 256
      ∧ leAt (reportBytes seq request draw temp flags active) 7 1 = flags % 256
      ∧ leAt (reportBytes seq request draw temp flags active) 8 2 = active.toNat % 65536 := by
  unfold reportBytes
  simp only [List.append_assoc]
  refine ⟨leAt_here 1 2 _, ?_, ?_, ?_, ?_, ?_⟩
  · rw [leAt_past _ _ _ (by decide), leAt_past _ _ _ (by decide)]
    exact leAt_here 2 _ _
  · rw [leAt_past _ _ _ (by decide), leAt_past _ _ _ (by decide), leAt_past _ _ _ (by decide)]
    exact leAt_here 2 _ _
  · rw [leAt_past _ _ _ (by decide), leAt_past _ _ _ (by decide), leAt_past _ _ _ (by decide), leAt_past _ _ _ (by decide)]
    exact leAt_here 1 _ _
  · rw [leAt_past _ _ _ (by decide), leAt_past _ _ _ (by decide), leAt_past _ _ _ (by decide), leAt_past _ _ _ (by decide), leAt_past _ _ _ (by decide)]
    exact leAt_here 1 _ _
  · rw [leAt_past _ _ _ (by decide), leAt_past _ _ _ (by decide), leAt_past _ _ _ (by decide), leAt_past _ _ _ (by decide), leAt_past _ _ _ (by decide), leAt_past _ _ _ (by decide)]
    exact leAt_here 2 _ _

theorem flags_testBit (a b c : Bool) : ((a.toNat + 2 * b.toNat + 4 * c.toNat) % 256).testBit 0 = a ∧ ((a.toNat + 2 * b.toNat + 4 * c.toNat) % 256).testBit 1 = b
    ∧ ((a.toNat + 2 * b.toNat + 4 * c.toNat) % 256).testBit 2 = c := by
  cases a <;> cases b <;> cases c <;> decide

/-- A REPORT's figures in the hub's registers. -/
def State.reported (s : State) (l request draw temp : Nat) : State :=
  (((s.wr (Reg.LL_BUDGET_REQUEST_W l) (request % 65536)).wr (Reg.LL_BUDGET_DRAW_W l) (draw % 65536)).wr (Reg.LL_BUDGET_TEMP_C l) (temp % 256)).wr (Reg.LL_BUDGET_STALE l) 0

theorem State.reported_effect (s : State) (l request draw temp : Nat) :
    (s.reported l request draw temp).rd (Reg.LL_BUDGET_REQUEST_W l) = request % 2 ^ (Reg.LL_BUDGET_REQUEST_W l).w
      ∧ (s.reported l request draw temp).rd (Reg.LL_BUDGET_DRAW_W l) = draw % 2 ^ (Reg.LL_BUDGET_DRAW_W l).w
      ∧ (s.reported l request draw temp).rd (Reg.LL_BUDGET_TEMP_C l) = temp % 2 ^ (Reg.LL_BUDGET_TEMP_C l).w
      ∧ (s.reported l request draw temp).rd (Reg.LL_BUDGET_STALE l) = 0 ∧ s.OnlyRegs (s.reported l request draw temp) := by
  have keys : (Reg.LL_BUDGET_REQUEST_W l).key = Reg.LL_BUDGET l * 64 + 10 ∧ (Reg.LL_BUDGET_DRAW_W l).key = Reg.LL_BUDGET l * 64 + 20
      ∧ (Reg.LL_BUDGET_TEMP_C l).key = Reg.LL_BUDGET l * 64 + 30 ∧ (Reg.LL_BUDGET_STALE l).key = Reg.LL_BUDGET l * 64 + 38 := ⟨rfl, rfl, rfl, rfl⟩
  obtain ⟨req, drw, tmp, stale⟩ := keys
  unfold State.reported
  refine ⟨?_, ?_, ?_, State.rd_wr _ _ _, ?_⟩
  · rw [State.rd_wr_ne _ _ _ _ (by omega), State.rd_wr_ne _ _ _ _ (by omega), State.rd_wr_ne _ _ _ _ (by omega), State.rd_wr]
    exact Nat.mod_mod_of_dvd request (by decide : (2 ^ 10 : Nat) ∣ 65536)
  · rw [State.rd_wr_ne _ _ _ _ (by omega), State.rd_wr_ne _ _ _ _ (by omega), State.rd_wr]
    exact Nat.mod_mod_of_dvd draw (by decide : (2 ^ 10 : Nat) ∣ 65536)
  · rw [State.rd_wr_ne _ _ _ _ (by omega), State.rd_wr]
    exact Nat.mod_mod_of_dvd temp (by decide : (2 ^ 8 : Nat) ∣ 256)
  · exact (((s.wr_onlyRegs _ _).trans (State.wr_onlyRegs ..)).trans (State.wr_onlyRegs ..)).trans (State.wr_onlyRegs ..)

theorem State.leafMessage_grant {s : State} {l : Nat} (talks : s.talks l = true) (seq watts : Nat) (capDrop : Bool) (time : Word) :
    s.leafMessage l (grantBytes seq watts capDrop time) = s.modLeaf l (fun k => { k with budget := min 450 (watts % 65536), capDrop := capDrop }) := by
  obtain ⟨kind, budget, drop⟩ := leAt_grantBytes seq watts capDrop time
  unfold State.leafMessage
  rw [talks, kind, budget, drop]
  rfl

/-- What a leaf manager reports of its leaf beyond its figures. -/
def Leaf.reportedAs (k : Leaf) (thermal droop stretched : Bool) (active : BitVec 12) : Leaf :=
  { k with active := active, thermal := thermal, droop := droop, stretched := stretched }

theorem State.hubMessage_report {s : State} {l : Nat} (talks : s.talks l = true) (seq request draw temp : Nat) (thermal droop stretched : Bool) (active : BitVec 12) :
    s.hubMessage l (reportBytes seq request draw temp (thermal.toNat + 2 * droop.toNat + 4 * stretched.toNat) active)
      = (s.reported l request draw temp).modLeaf l (fun k => k.reportedAs thermal droop stretched active) := by
  obtain ⟨kind, request_, draw_, temp_, flags, active_⟩ := leAt_reportBytes seq request draw temp (thermal.toNat + 2 * droop.toNat + 4 * stretched.toNat) active
  obtain ⟨hot, sags, slows⟩ := flags_testBit thermal droop stretched
  have cores : BitVec.ofNat 12 (active.toNat % 65536) = active := by
    rw [Nat.mod_eq_of_lt (active.isLt.trans (by decide))]
    exact BitVec.eq_of_toNat_eq (by rw [BitVec.toNat_ofNat, Nat.mod_eq_of_lt active.isLt])
  unfold State.hubMessage
  rw [talks, kind, request_, draw_, temp_, flags, active_, cores]
  dsimp only
  rw [hot, sags, slows]
  rfl

theorem leafBudgets (l : Fin 4) (seq watts request draw temp : Nat) (capDrop thermal droop stretched : Bool) (time : Word) (active : BitVec 12) (s : State) :
    (s.booted = true → s.failed = false → s.leafUp l.val = true →
      exec (.grant l seq watts capDrop time) s
        = .next (s.modLeaf l.val (fun k => { k with budget := min 450 (watts % 65536), capDrop := capDrop }))
      ∧ (∃ u : State, exec (.report l seq request draw temp thermal droop stretched active) s = .next u
        ∧ u.rd (Reg.LL_BUDGET_REQUEST_W l.val) = request % 2 ^ (Reg.LL_BUDGET_REQUEST_W l.val).w
        ∧ u.rd (Reg.LL_BUDGET_DRAW_W l.val) = draw % 2 ^ (Reg.LL_BUDGET_DRAW_W l.val).w
        ∧ u.rd (Reg.LL_BUDGET_TEMP_C l.val) = temp % 2 ^ (Reg.LL_BUDGET_TEMP_C l.val).w ∧ u.rd (Reg.LL_BUDGET_STALE l.val) = 0
        ∧ u.leaf l.val = { (s.leaf l.val) with active := active, thermal := thermal, droop := droop, stretched := stretched }
        ∧ u = { s with regs := u.regs, leaves := u.leaves })
      ∧ exec (.grantTimeout l) s = .next (s.modLeaf l.val (fun k => { k with budget := 150 }))
      ∧ exec (.reportTimeout l) s = .next (s.wr (Reg.LL_BUDGET_STALE l.val) 1))
    ∧ (s.leafUp l.val = false → exec (.grant l seq watts capDrop time) s = .next s ∧ exec (.grantTimeout l) s = .next s
      ∧ exec (.reportTimeout l) s = .next s ∧ exec (.report l seq request draw temp thermal droop stretched active) s = .next s) := by
  refine ⟨fun booted alive up => ?_, fun down => ?_⟩
  · have talks : s.talks l.val = true := by rw [State.talks, State.serving, booted, alive, up]; rfl
    have grant := congrArg (Host.Outcome.next (φ := Fault) (ρ := Refusal)) (State.leafMessage_grant talks seq watts capDrop time)
    have report := congrArg (Host.Outcome.next (φ := Fault) (ρ := Refusal)) (State.hubMessage_report talks seq request draw temp thermal droop stretched active)
    obtain ⟨request_, draw_, temp_, stale, only⟩ := s.reported_effect l.val request draw temp
    refine ⟨grant, ⟨_, report, request_, draw_, temp_, stale, ?_, ?_⟩, congrArg Host.Outcome.next (if_pos talks), congrArg Host.Outcome.next (if_pos talks)⟩
    · rw [State.leaf_modLeaf _ _ _ l.isLt, State.leaf_congr only.leaves]
      rfl
    · generalize s.reported l.val request draw temp = v at only ⊢
      have step := congrArg (fun x : State => { x with leaves := (v.modLeaf l.val (fun k => k.reportedAs thermal droop stretched active)).leaves }) only.eq
      exact step
  · have quiet : s.talks l.val = false := by rw [State.talks, down, Bool.and_false]
    have silent (b : Bool) : (s.talks l.val && b) = false := by rw [quiet]; rfl
    exact ⟨congrArg Host.Outcome.next (if_neg (Bool.eq_false_iff.mp (silent _))), congrArg Host.Outcome.next (if_neg (Bool.eq_false_iff.mp quiet)),
      congrArg Host.Outcome.next (if_neg (Bool.eq_false_iff.mp quiet)), congrArg Host.Outcome.next (if_neg (Bool.eq_false_iff.mp (silent _)))⟩

/-- Settles O40: replays, lane tests, resets, training and messages each by their own lemma. -/
theorem leafLinksAndLeaves : Obligations.LeafLinksAndLeaves := by
  unfold Obligations.LeafLinksAndLeaves
  refine ⟨fun l m s alive => ⟨flitRetries l m s alive, fun t training clock run => laneTests l m s alive t training clock run, widths_of_halves⟩, fun l s alive booted => ?_, leafBudgets⟩
  intro resets
  obtain ⟨takes, gone, trains, done⟩ := leavesResetAndTrain l s alive booted
  have out {u : State} (h : s.OutOfService l.val u) : u.rd (Reg.LL_CTL_RESET l.val) = 1 ∧ u.rd (Reg.LL_STATE_STATE l.val) = 0
      ∧ u.rd (Reg.LL_STATE_FULL l.val) = 0 ∧ u.rd (Reg.LL_STATE_HALF l.val) = 0 ∧ u.rd (Reg.LL_BUDGET_STALE l.val) = 0
      ∧ (∀ c, c / 12 = l.val → c < 48 → (u.core c).lt = [] ∧ (u.core c).sreg = [] ∧ (u.core c).window = [] ∧ (u.core c).arrays = (s.core c).arrays
        ∧ ((∀ x ∈ s.tasks, x.state ≠ .saving ∧ x.state ≠ .restoring) → (u.core c).task = (s.core c).task))
      ∧ (∀ n, n < 7 → (u.rd Reg.POW_DOMAINS_ON).testBit (7 * l.val + n) = false) :=
    ⟨h.reset, h.state, h.full, h.half, h.stale, h.cores, h.domains⟩
  refine ⟨fun here idle => ?_, gone, trains, done⟩
  obtain ⟨⟨u, run, one⟩, ⟨v, run', two⟩⟩ := takes here idle
  exact ⟨⟨u, run, out one⟩, ⟨v, run', out two⟩⟩

end Sys2Proof.Machine
end

section
/-! The management bus and SPDM: the I3C target, FRU memory, and what the module answers over Data Object Exchange
(R17, R331, R368, R374, R375, R391, R392). -/

namespace Sys2Proof.Machine

/-! ### FRU data (R17) -/

/-- What an information area contains stands in it. -/
theorem infix_fruArea (contents : List Byte) : contents <:+: fruArea contents :=
  ⟨[1#8, BitVec.ofNat 8 ((contents.length + 11) / 8)], _, by
    simp only [fruArea, List.append_assoc]
    rfl⟩

/-- A field of the product area stands in the FRU data. -/
theorem fruProduct_infix {part : List Byte}
    (h : part <:+: [0#8] ++ fruField (freeText Config.fruMaker) ++ fruField fruOrder ++ fruField fruOrder ++ fruField fruRevision
      ++ fruField (freeText Config.fruSerial) ++ fruField [] ++ fruField []) : part <:+: fruData :=
  (h.trans (infix_fruArea _)).trans (List.suffix_append _ fruProduct).isInfix

theorem fruOrder_infix : fruField fruOrder <:+: fruData :=
  fruProduct_infix ⟨[0#8] ++ fruField (freeText Config.fruMaker), _, by simp only [List.append_assoc]; rfl⟩

theorem fruRevision_infix : fruField fruRevision <:+: fruData :=
  fruProduct_infix ⟨[0#8] ++ fruField (freeText Config.fruMaker) ++ fruField fruOrder ++ fruField fruOrder, _, by
    simp only [List.append_assoc]; rfl⟩

/-- FRU memory reads the FRU data at its start. -/
theorem State.map_fruByte (s : State) : (List.range fruData.length).map s.fruByte = fruData := by
  refine List.ext_getElem (by simp) fun i inRange here => ?_
  simp [State.fruByte, List.getD_eq_getElem?_getD, List.getElem?_eq_getElem here]

/-! ### SPDM (R391) -/

theorem State.spdmUp_of {s : State} (booted : s.booted = true) (alive : s.failed = false) : s.spdmUp = true := by
  simp [State.spdmUp, State.serving, booted, alive]

theorem State.spdmThen_early {s : State} {version : Byte} (isUp : s.spdmUp = true) (early : s.spdmAlgs = false) (f : State → State) :
    s.spdmThen version f = s.spdmFail spdmUnexpected := by
  simp [State.spdmThen, isUp, early]

theorem State.spdmThen_inTurn {s : State} {version : Byte} (isUp : s.spdmUp = true) (agreed : s.spdmAlgs = true)
    (same : s.spdmVer = some version) (f : State → State) : s.spdmThen version f = f s := by
  simp [State.spdmThen, isUp, agreed, same]

/-- An answer joins the transcript behind its request, and leaves. -/
def State.Answers (s u : State) : Prop :=
  ∃ req resp : List Byte, u.sideOut = s.sideOut ++ [.spdm resp] ∧ u.spdmLog = s.spdmLog ++ req ++ resp
    ∧ u = { s with sideOut := u.sideOut, spdmLog := u.spdmLog, freeCtr := u.freeCtr }

theorem State.spdmAnswer_answers (s : State) (req resp : List Byte) : s.Answers (s.spdmAnswer req resp) := ⟨req, resp, rfl, rfl, rfl⟩

/-- An answer that holds a free value. -/
theorem State.spdmAnswer_answers_free (s : State) (req resp : List Byte) : s.Answers (s.free.2.spdmAnswer req resp) :=
  ⟨req, resp, rfl, rfl, rfl⟩

/-- A request for measurements that names none, one, or all of them is answered. -/
theorem getMeasurements_answers {s : State} {version op : Byte} {nonce : BitVec 256} (isUp : s.spdmUp = true) (agreed : s.spdmAlgs = true)
    (same : s.spdmVer = some version) (known : op.toNat ≤ 6 ∨ op.toNat = 0xFF) (signed : Bool) :
    ∃ u : State, exec (.getMeasurements version op nonce signed) s = .next u ∧ s.Answers u := by
  have named : ¬ ((if op.toNat = 0xFF then [1, 2, 3, 4, 5, 6] else if 1 ≤ op.toNat ∧ op.toNat ≤ 6 then [op.toNat] else []).isEmpty = true
      ∧ op.toNat ≠ 0) := by
    rintro ⟨none, some⟩
    rcases known with le | all
    · have notAll : op.toNat ≠ 0xFF := by omega
      simp [notAll, Nat.one_le_iff_ne_zero, some, le] at none
    · simp [all] at none
  refine ⟨_, congrArg Host.Outcome.next (State.spdmThen_inTurn isUp agreed same _), ?_⟩
  dsimp only
  rw [if_neg named]
  cases signed
  · exact s.spdmAnswer_answers _ _
  · exact s.spdmAnswer_answers_free _ _

/-! ### The I3C target (R374, R375) -/

theorem length_mgmtReg (s : State) (i : Nat) : (s.mgmtReg i).length = 8 := length_leBytes 8 _

/-- BEACON_TOGGLE writes the other value of BEACON for the next sample. -/
theorem beaconFlip (s : State) :
    (!s.rdb Reg.SF_BEACON_BEACON).toNat = if s.rd Reg.SF_BEACON_BEACON = 1 then 0 else 1 := by
  by_cases lit : s.rd Reg.SF_BEACON_BEACON = 1 <;> simp [State.rdb, lit]

/-- The target without a dynamic address: it takes one, and answers nothing. -/
theorem i3c_unaddressed {s : State} (powered : s.powered = true) (free : s.i3cAddr = none) (addr : BitVec 7) :
    exec (.entdaa addr) s
        = .next { s with i3cAddr := some addr, sideOut := s.sideOut ++ [.i3c (i3cPidBytes ++ [Config.i3cBcr, Config.i3cDcr])] }
      ∧ exec (.setdasa addr) s = .next { s with i3cAddr := some addr } ∧ exec .getpid s = .next s := by
  have takes : (s.powered && s.i3cAddr.isNone) = true := by simp [powered, free]
  have silent : ¬ (s.powered && s.i3cAddr.isSome) = true := by simp [free]
  exact ⟨congrArg Host.Outcome.next (if_pos takes), congrArg Host.Outcome.next (if_pos takes), congrArg Host.Outcome.next (if_neg silent)⟩

/-- A common command to a target with a dynamic address is answered. -/
theorem State.i3cAnswer_addressed {s : State} (powered : s.powered = true) (has : s.i3cAddr.isSome = true) (bs : List Byte) :
    s.i3cAnswer bs = { s with sideOut := s.sideOut ++ [.i3c bs] } := if_pos (by simp [powered, has])

/-- The target with a dynamic address keeps it. -/
theorem i3c_keeps {s : State} (has : s.i3cAddr.isSome = true) (addr : BitVec 7) :
    exec (.entdaa addr) s = .next s ∧ exec (.setdasa addr) s = .next s := by
  have kept : ¬ (s.powered && s.i3cAddr.isNone) = true := by
    obtain ⟨a, ha⟩ := Option.isSome_iff_exists.mp has
    simp [ha]
  exact ⟨congrArg Host.Outcome.next (if_neg kept), congrArg Host.Outcome.next (if_neg kept)⟩

/-- Settles O60: each command by its guard; SPDM's requests after the negotiation through `spdmThen`. -/
theorem managementAndSpdmAnswer : Obligations.ManagementAndSpdmAnswer := by
  unfold Obligations.ManagementAndSpdmAnswer
  refine ⟨?management, ?spdm⟩
  case management =>
    intro addr index off s
    refine ⟨rfl, ?powered, ?retry, ?quiet, length_mgmtReg s, rfl, rfl, ?fru⟩
    case powered =>
      intro powered
      refine ⟨fun free => i3c_unaddressed powered free addr, ?addressed, congrArg Host.Outcome.next (if_pos powered),
        congrArg Host.Outcome.next (if_pos powered), congrArg Host.Outcome.next (if_pos powered), congrArg Host.Outcome.next (if_pos powered),
        ?beacon⟩
      case addressed =>
        intro has
        have answers := State.i3cAnswer_addressed powered has
        obtain ⟨keepsE, keepsS⟩ := i3c_keeps has addr
        have status := State.i3cAnswer_addressed (s := s.free.2) powered has (leBytes 2 s.free.1.toNat)
        exact ⟨congrArg Host.Outcome.next (answers _), congrArg Host.Outcome.next (answers _), congrArg Host.Outcome.next (answers _),
          keepsE, keepsS, _, leBytes 2 s.free.1.toNat, congrArg Host.Outcome.next status, length_leBytes 2 _, rfl⟩
      case beacon =>
        rw [← beaconFlip]
        exact congrArg Host.Outcome.next (if_pos powered)
    case retry =>
      intro b rest first
      exact ⟨by show execIbiRetry true s = _; simp [execIbiRetry, first], by show execIbiRetry false s = _; simp [execIbiRetry, first, State.say]⟩
    case quiet =>
      intro none acc
      show execIbiRetry acc s = _
      simp [execIbiRetry, none]
    case fru =>
      obtain ⟨a, b, order⟩ := fruOrder_infix
      obtain ⟨c, d, revision⟩ := fruRevision_infix
      refine ⟨a, b, c, d, ?order, ?revision⟩
      case order => rw [State.map_fruByte, ← order, List.append_assoc a [0xC7#8]]; rfl
      case revision => rw [State.map_fruByte, ← revision, List.append_assoc c [0xC2#8]]; rfl
  case spdm =>
    intro v op slot asym hash nonce off len s booted alive powered fails answers
    have isUp := State.spdmUp_of booted alive
    have notDown : ¬ (!s.spdmUp) = true := by simp [isUp]
    have answered : ∀ {i : Instr} {u : State}, exec i s = .next u → s.Answers u → answers i :=
      fun runs ⟨req, resp, out, log, eq⟩ => ⟨_, req, resp, runs, out, log, eq⟩
    refine ⟨?discovery, ?version, ?capabilities, ?again, ?badVersion, ?algorithms, ?requests, ?early⟩
    case discovery =>
      intro noReset
      have on : ¬ (!s.powered || s.perst) = true := by simp [powered, noReset]
      exact ⟨congrArg Host.Outcome.next (if_neg on), congrArg Host.Outcome.next (if_neg on)⟩
    case version => exact ⟨_, congrArg Host.Outcome.next (if_neg notDown), rfl, rfl, rfl⟩
    case capabilities =>
      intro started fresh known
      have inTurn : ¬ (s.spdmLog.isEmpty || s.spdmVer.isSome) = true := by simp [started, fresh]
      have fits : ¬ (v ≠ 0x12#8 ∧ v ≠ 0x13#8) := fun ⟨a, b⟩ => known.elim a b
      exact ⟨_, congrArg Host.Outcome.next ((if_neg notDown).trans ((if_neg inTurn).trans (if_neg fits))), rfl, rfl, rfl⟩
    case again =>
      intro fixed
      have late : (s.spdmLog.isEmpty || s.spdmVer.isSome) = true := by simp [fixed]
      exact congrArg Host.Outcome.next ((if_neg notDown).trans (if_pos late))
    case badVersion =>
      intro started fresh not12 not13
      have inTurn : ¬ (s.spdmLog.isEmpty || s.spdmVer.isSome) = true := by simp [started, fresh]
      exact congrArg Host.Outcome.next ((if_neg notDown).trans ((if_neg inTurn).trans (if_pos ⟨not12, not13⟩)))
    case algorithms =>
      intro same open_ asymFits hashFits
      have inTurn : ¬ (s.spdmVer.isNone || s.spdmAlgs) = true := by simp [same, open_]
      have offered : ¬ (asym.toNat &&& spdmAsym = 0 ∨ hash.toNat &&& spdmHash = 0) := fun h => h.elim asymFits hashFits
      exact ⟨_, congrArg Host.Outcome.next ((if_neg notDown).trans ((if_neg inTurn).trans ((if_neg (not_not.mpr same)).trans (if_neg offered)))),
        rfl, rfl⟩
    case requests =>
      intro agreed same
      have inTurn := fun f => State.spdmThen_inTurn isUp agreed same f
      refine ⟨?digests, ?certificate, ?challenge, ?measurements, ?slot⟩
      case digests => exact answered (congrArg Host.Outcome.next (inTurn _)) (s.spdmAnswer_answers _ _)
      case certificate =>
        intro within
        have good : ¬ ((0#8 : Byte) ≠ 0#8 ∨ s.flash.cert.length ≤ off) := by simp [within]
        exact answered (congrArg Host.Outcome.next ((inTurn _).trans (if_neg good))) (s.spdmAnswer_answers _ _)
      case challenge =>
        exact answered (congrArg Host.Outcome.next ((inTurn _).trans (if_neg (not_not.mpr rfl)))) (s.spdmAnswer_answers_free _ _)
      case measurements =>
        intro known
        obtain ⟨u, runs, does⟩ := getMeasurements_answers isUp agreed same known (nonce := nonce) false
        obtain ⟨w, runs', does'⟩ := getMeasurements_answers isUp agreed same known (nonce := nonce) true
        exact ⟨answered runs does, answered runs' does'⟩
      case slot => exact fun other => congrArg Host.Outcome.next ((inTurn _).trans (if_pos other))
    case early =>
      intro early
      have refused := fun f => State.spdmThen_early (version := v) isUp early f
      exact ⟨congrArg Host.Outcome.next (refused _), congrArg Host.Outcome.next (refused _), congrArg Host.Outcome.next (refused _),
        congrArg Host.Outcome.next (refused _)⟩

end Sys2Proof.Machine
end

section
/-! The mailbox commands (R377, R378, R380-R385, R392). -/

namespace Sys2Proof.Machine

/-! ### A command's result (R377) -/

/-- The mailbox runs its command and holds this result for it. -/
def State.MbxEnds (u : State) (m st detail val : Nat) : Prop :=
  (u.mbox m).result = some (st, detail, val % 65536) ∧ (u.mbox m).running = true

theorem State.mbxEnd_ends (s : State) {m : Nat} (inRange : m < 4) (st detail val : Nat) :
    (s.mbxEnd m st detail val).MbxEnds m st detail val := by
  unfold State.MbxEnds State.mbxEnd
  rw [State.mbox_modMbox _ _ _ inRange]
  exact ⟨rfl, rfl⟩

theorem ready_proceeds {s : State} {m opc : Nat} (ready : s.mbxReady m opc = true) : ¬ (!s.mbxReady m opc) = true := by simp [ready]

/-- The range of direct HM that a command names lies in reach. -/
theorem reach_proceeds {s : State} {off n : Nat} (reach : s.mbxHm off n = true) : ¬ (!s.mbxHm off n) = true := by simp [reach]

/-! ### MBX_RESULT (R377) -/

/-- A field of a mailbox's registers. -/
def Fld.OfMbx (g : Fld) : Prop := 0x00100000 * 64 ≤ g.key ∧ g.key < 0x00101000 * 64

theorem Fld.OfMbx.beyondRecords {g : Fld} (h : g.OfMbx) : g.BeyondRecords := by
  refine ⟨fun f mem => ?_⟩
  obtain ⟨low, high⟩ := h
  simp only [recordFields, List.mem_cons, List.not_mem_nil, or_false] at mem
  rcases mem with rfl | rfl | rfl | rfl | rfl
  all_goals
    simp only [Fld.key, Reg.ERR_STAT_S0_COUNT, Reg.ERR_STAT_LOST, Reg.ERR_STAT, Reg.ERR_PTR_TAIL, Reg.ERR_PTR,
      Reg.HOST_IRQ_CAUSE_ERR, Reg.HOST_IRQ_CAUSE, Reg.MSIX_PBA] at low high ⊢
    omega

theorem Fld.OfMbx.ne_cause {g : Fld} (h : g.OfMbx) : g.key ≠ Reg.HOST_IRQ_CAUSE_MBX.key := by
  obtain ⟨low, high⟩ := h
  simp only [Fld.key, Reg.HOST_IRQ_CAUSE_MBX, Reg.HOST_IRQ_CAUSE] at low high ⊢
  omega

/-- A field of one of the first six registers of mailbox m. -/
theorem mbxField_ofMbx {m lo w rst off : Nat} (inRange : m < 4) (within : lo < 64) (low : off < 0x100) :
    (⟨0x00100000 + off + m * 0x100, lo, w, rst⟩ : Fld).OfMbx := by
  simp only [Fld.OfMbx, Fld.key]
  omega

/-- The registers of a result written: the fields of MBX_RESULT, and GO. -/
def State.withResult (s : State) (m st detail val : Nat) : State :=
  ((((((s.wr (Reg.MBX_RESULT_STATUS m) st).wr (Reg.MBX_RESULT_DETAIL m) detail).wr (Reg.MBX_RESULT_DONE m) 1).wr (Reg.MBX_RESULT_TAG m)
    (s.rd (Reg.MBX_CMD_TAG m))).wr (Reg.MBX_RESULT_VALUE m) val).wr (Reg.MBX_CMD_GO m) 0)

/-- The interrupt of a mailbox. -/
def State.mbxIrq (s : State) (m : Nat) : State :=
  (s.wr Reg.HOST_IRQ_CAUSE_MBX (s.rd Reg.HOST_IRQ_CAUSE_MBX ||| 2 ^ m)).raiseVec (s.rd Reg.HOST_IRQ_MBX_VEC)

theorem State.mbxDone_eq (s : State) (m st detail val : Nat) :
    s.mbxDone m st detail val
      = ((s.withResult m st detail val).modMbox m (fun b => { b with running := false, result := none })).mbxIrq m := rfl

theorem State.mbxIrq_rd (s : State) (m : Nat) {g : Fld} (h : g.OfMbx) : (s.mbxIrq m).rd g = s.rd g :=
  (State.raiseVec_rd _ _ h.beyondRecords).trans (State.rd_wr_ne _ _ _ _ h.ne_cause)

theorem State.mbxIrq_onlyRecords (s : State) (m : Nat) : s.OnlyRecords (s.mbxIrq m) :=
  (s.wr_onlyRecords _ _).trans (State.raiseVec_onlyRecords _ _)

theorem State.withResult_rd (s : State) (m st detail val : Nat) :
    (s.withResult m st detail val).rd (Reg.MBX_RESULT_STATUS m) = st % 2 ^ 8
    ∧ (s.withResult m st detail val).rd (Reg.MBX_RESULT_DETAIL m) = detail % 2 ^ 8
    ∧ (s.withResult m st detail val).rd (Reg.MBX_RESULT_DONE m) = 1
    ∧ (s.withResult m st detail val).rd (Reg.MBX_RESULT_VALUE m) = val % 2 ^ 16
    ∧ (s.withResult m st detail val).rd (Reg.MBX_CMD_GO m) = 0 := by
  unfold State.withResult
  generalize s.rd (Reg.MBX_CMD_TAG m) = tag
  have apart : ∀ {off off' lo lo' w w' rst rst' : Nat}, lo < 64 → lo' < 64 → off ≠ off' ∨ lo ≠ lo' →
      (⟨off + m * 0x100, lo, w, rst⟩ : Fld).key ≠ (⟨off' + m * 0x100, lo', w', rst'⟩ : Fld).key := by
    intro off off' lo lo' w w' rst rst' _ _ differ
    simp only [Fld.key]
    omega
  have sd : (Reg.MBX_RESULT_STATUS m).key ≠ (Reg.MBX_RESULT_DETAIL m).key := apart (by decide) (by decide) (.inr (by decide))
  have sn : (Reg.MBX_RESULT_STATUS m).key ≠ (Reg.MBX_RESULT_DONE m).key := apart (by decide) (by decide) (.inr (by decide))
  have st' : (Reg.MBX_RESULT_STATUS m).key ≠ (Reg.MBX_RESULT_TAG m).key := apart (by decide) (by decide) (.inr (by decide))
  have sv : (Reg.MBX_RESULT_STATUS m).key ≠ (Reg.MBX_RESULT_VALUE m).key := apart (by decide) (by decide) (.inr (by decide))
  have sg : (Reg.MBX_RESULT_STATUS m).key ≠ (Reg.MBX_CMD_GO m).key := apart (by decide) (by decide) (.inl (by decide))
  have dn : (Reg.MBX_RESULT_DETAIL m).key ≠ (Reg.MBX_RESULT_DONE m).key := apart (by decide) (by decide) (.inr (by decide))
  have dt : (Reg.MBX_RESULT_DETAIL m).key ≠ (Reg.MBX_RESULT_TAG m).key := apart (by decide) (by decide) (.inr (by decide))
  have dv : (Reg.MBX_RESULT_DETAIL m).key ≠ (Reg.MBX_RESULT_VALUE m).key := apart (by decide) (by decide) (.inr (by decide))
  have dg : (Reg.MBX_RESULT_DETAIL m).key ≠ (Reg.MBX_CMD_GO m).key := apart (by decide) (by decide) (.inl (by decide))
  have nt : (Reg.MBX_RESULT_DONE m).key ≠ (Reg.MBX_RESULT_TAG m).key := apart (by decide) (by decide) (.inr (by decide))
  have nv : (Reg.MBX_RESULT_DONE m).key ≠ (Reg.MBX_RESULT_VALUE m).key := apart (by decide) (by decide) (.inr (by decide))
  have ng : (Reg.MBX_RESULT_DONE m).key ≠ (Reg.MBX_CMD_GO m).key := apart (by decide) (by decide) (.inl (by decide))
  have vg : (Reg.MBX_RESULT_VALUE m).key ≠ (Reg.MBX_CMD_GO m).key := apart (by decide) (by decide) (.inl (by decide))
  refine ⟨?_, ?_, ?_, ?_, ?_⟩
  · rw [State.rd_wr_ne _ _ _ _ sg, State.rd_wr_ne _ _ _ _ sv, State.rd_wr_ne _ _ _ _ st', State.rd_wr_ne _ _ _ _ sn,
      State.rd_wr_ne _ _ _ _ sd, State.rd_wr]
    rfl
  · rw [State.rd_wr_ne _ _ _ _ dg, State.rd_wr_ne _ _ _ _ dv, State.rd_wr_ne _ _ _ _ dt, State.rd_wr_ne _ _ _ _ dn, State.rd_wr]
    rfl
  · rw [State.rd_wr_ne _ _ _ _ ng, State.rd_wr_ne _ _ _ _ nv, State.rd_wr_ne _ _ _ _ nt, State.rd_wr]
    rfl
  · rw [State.rd_wr_ne _ _ _ _ vg, State.rd_wr]
    rfl
  · rw [State.rd_wr]
    exact Nat.zero_mod _

theorem State.withResult_frame (s : State) (m st detail val : Nat) :
    (s.withResult m st detail val).cores = s.cores ∧ (s.withResult m st detail val).hm = s.hm := by
  unfold State.withResult
  simp only [State.wr_cores, State.wr_hm, and_self]

theorem State.mbxIrq_hm (s : State) (m : Nat) : (s.mbxIrq m).hm = s.hm := by
  unfold State.mbxIrq State.raiseVec
  split <;> rfl

/-- What a completed command leaves: its result in MBX_RESULT, GO clear, and the mailbox free. -/
theorem State.mbxDone_effect (s : State) {m : Nat} (inRange : m < 4) (st detail val : Nat) :
    (s.mbxDone m st detail val).rd (Reg.MBX_RESULT_STATUS m) = st % 2 ^ 8
    ∧ (s.mbxDone m st detail val).rd (Reg.MBX_RESULT_DETAIL m) = detail % 2 ^ 8
    ∧ (s.mbxDone m st detail val).rd (Reg.MBX_RESULT_DONE m) = 1
    ∧ (s.mbxDone m st detail val).rd (Reg.MBX_RESULT_VALUE m) = val % 2 ^ 16
    ∧ (s.mbxDone m st detail val).mbxGo m = false
    ∧ ((s.mbxDone m st detail val).mbox m).result = none
    ∧ (s.mbxDone m st detail val).cores = s.cores ∧ (s.mbxDone m st detail val).hm = s.hm := by
  rw [State.mbxDone_eq]
  obtain ⟨status, det, done, value, go⟩ := s.withResult_rd m st detail val
  have frame := s.withResult_frame m st detail val
  generalize s.withResult m st detail val = t at status det done value go frame ⊢
  obtain ⟨u, hu⟩ : ∃ u, u = t.modMbox m (fun b => { b with running := false, result := none }) := ⟨_, rfl⟩
  rw [← hu]
  have regs : ∀ g, u.rd g = t.rd g := fun g => State.rd_congr _ _ g (by rw [hu, State.modMbox_regs])
  have freed : (u.mbox m).result = none := by rw [hu, State.mbox_modMbox _ _ _ inRange]
  have after := u.mbxIrq_onlyRecords m
  have rd : ∀ g : Fld, g.OfMbx → (u.mbxIrq m).rd g = t.rd g := fun g h => (u.mbxIrq_rd m h).trans (regs g)
  have result : ∀ lo w rst, lo < 64 → (⟨Reg.MBX_RESULT m, lo, w, rst⟩ : Fld).OfMbx := fun lo w rst within =>
    mbxField_ofMbx (off := 0x28) inRange within (by decide)
  refine ⟨(rd _ (result _ _ _ (by decide))).trans status, (rd _ (result _ _ _ (by decide))).trans det,
    (rd _ (result _ _ _ (by decide))).trans done, (rd _ (result _ _ _ (by decide))).trans value, ?_, ?_, ?_, ?_⟩
  · have cleared : (u.mbxIrq m).rd (Reg.MBX_CMD_GO m) = 0 :=
      (rd _ (mbxField_ofMbx (off := 0) inRange (by decide) (by decide))).trans go
    exact (congrArg (· == 1) cleared).trans rfl
  · have boxes : (u.mbxIrq m).mboxes = u.mboxes := (congrArg State.mboxes after.eq :)
    have same : (u.mbxIrq m).mbox m = u.mbox m := congrArg (fun v => v.getD m Mailbox.reset) boxes
    rw [same, freed]
  · have kept : (u.mbxIrq m).cores = u.cores := (congrArg State.cores after.eq :)
    rw [kept, hu, State.modMbox_cores, frame.1]
  · rw [State.mbxIrq_hm, hu, State.modMbox_hm, frame.2]

/-! ### Flash and fuses (R378, R380-R382) -/

theorem State.clearFail_failCount (s : State) (slot : Nat) : (s.clearFail slot).failCount slot = 0 := by
  by_cases first : slot = 0
  · simp [State.clearFail, State.failCount, first]
  · simp [State.clearFail, State.failCount, first]

theorem State.clearFail_images (s : State) (slot : Nat) : (s.clearFail slot).flash.images = s.flash.images := by
  unfold State.clearFail
  by_cases first : slot = 0
  · rw [if_pos first]
  · rw [if_neg first]

theorem State.clearFail_pref (s : State) (slot : Nat) : (s.clearFail slot).flash.pref = s.flash.pref := by
  unfold State.clearFail
  by_cases first : slot = 0
  · rw [if_pos first]
  · rw [if_neg first]

theorem State.putConfig_mbxEnd (s : State) (b : List Byte) (m st detail val : Nat) :
    (({ s with flash := { s.flash with cfg0 := b, cfg1 := b } } : State).mbxEnd m st detail val).flash = { s.flash with cfg0 := b, cfg1 := b }
    ∧ (({ s with flash := { s.flash with cfg0 := b, cfg1 := b } } : State).mbxEnd m st detail val).config = s.config := ⟨rfl, rfl⟩

/-- A command that stores bytes to direct HM stores just them. -/
theorem State.hmStore_mbxEnd_hm (s : State) (off : Nat) (bs : List Byte) (m st detail val : Nat) :
    ((s.hmStore off bs).mbxEnd m st detail val).hm = s.hm.writeN off bs := by
  unfold State.mbxEnd
  rw [State.modMbox_hm]
  rfl

/-- CFG_WRITE of a record that has been read. -/
theorem exec_cfgWrite_read {s : State} {m : Fin 4} {flashOk : Bool} (ready : s.mbxReady m.val 2 = true)
    (length : s.mbxArg m.val 1 = 1024) (reach : s.mbxHm (s.mbxArg m.val 0) 1024 = true)
    (sound : (s.hmRead (s.mbxArg m.val 0) 1024).2.isBad = false) :
    exec (.cfgWrite m flashOk) s
      = .next (if !s.cfgValid (s.hm.readN (s.mbxArg m.val 0) 1024) then s.mbxFail m.val 9
          else if !flashOk then s.mbxFail m.val 4
          else { s with flash := { s.flash with
            cfg0 := s.hm.readN (s.mbxArg m.val 0) 1024, cfg1 := s.hm.readN (s.mbxArg m.val 0) 1024 } }.mbxEnd m.val 0 0 0) := by
  have good : ¬ (s.hmRead (s.mbxArg m.val 0) 1024).2.isBad = true := by simp [sound]
  exact congrArg Host.Outcome.next ((if_neg (ready_proceeds ready)).trans ((if_neg (not_not.mpr length)).trans
    ((if_neg (reach_proceeds reach)).trans (if_neg good))))

/-- FW_COMMIT of a slot with both images raises the counter to the smaller SVN, or leaves it where it is higher. -/
theorem exec_fwCommit_both {s : State} {m : Fin 4} {x y : FwImage} (ready : s.mbxReady m.val 6 = true)
    (first : s.image? (s.rd Reg.GLB_BOOT_SLOT) 1 = some x) (second : s.image? (s.rd Reg.GLB_BOOT_SLOT) 2 = some y) :
    exec (.fwCommit m true) s
      = .next (if min 64 (min x.svn y.svn) ≤ s.fuses.counter then s.mbxEnd m.val 0 0 0
          else { s with fuses := { s.fuses with counter := min 64 (min x.svn y.svn) } }.mbxEnd m.val 0 0 0) := by
  show execFwCommit m true s = _
  unfold execFwCommit
  simp only [first, second]
  exact congrArg Host.Outcome.next (if_neg (ready_proceeds ready))

/-- FW_WRITE past the checks of the stage, the slot, the range and the length. -/
def State.fwChecked (s : State) (m : Fin 4) (chk : ImageCheck) (flashOk : Bool) : State :=
  let img := s.imageAt (s.mbxArg m.val 0) chk
  let stage := fld (s.mbxArg m.val 2) 0 2
  let slot := fld (s.mbxArg m.val 2) 8 1
  let put := fun (i : FwImage) => { s with
    flash := { s.flash with images := Tab.put (s.flash.images.mergeSort (fun a b => decide (a.1 ≤ b.1))) (imageKey slot stage) i } }
  if !(imageShaped img stage && img.keyOk && img.sigOk) then s.mbxFail m.val 2
  else if img.svn < s.fuses.counter then s.mbxFail m.val 3
  else if !flashOk then (put { img with sigOk := false }).mbxFail m.val 4
  else (put img).mbxEnd m.val 0 0 0

/-- A command that puts an image of a known stage, to a slot that does not run, of a range within reach. -/
theorem exec_fwWrite_checked {s : State} {m : Fin 4} {chk : ImageCheck} {flashOk : Bool} (ready : s.mbxReady m.val 4 = true)
    (known : fld (s.mbxArg m.val 2) 0 2 = 1 ∨ fld (s.mbxArg m.val 2) 0 2 = 2)
    (idle : s.stage = 6 ∨ fld (s.mbxArg m.val 2) 8 1 ≠ s.rd Reg.GLB_BOOT_SLOT)
    (reach : s.mbxHm (s.mbxArg m.val 0) (s.mbxArg m.val 1) = true) (sound : s.hmBad = [])
    (length : s.mbxArg m.val 1 = 2048 + (s.imageAt (s.mbxArg m.val 0) chk).body)
    (fits : (s.imageAt (s.mbxArg m.val 0) chk).body ≤ bodyLimit (fld (s.mbxArg m.val 2) 0 2)) :
    exec (.fwWrite m chk flashOk) s = .next (s.fwChecked m chk flashOk) := by
  have stage : ¬ (fld (s.mbxArg m.val 2) 0 2 = 0 ∨ fld (s.mbxArg m.val 2) 0 2 = 3) := by omega
  have slot : ¬ (s.stage ≠ 6 ∧ fld (s.mbxArg m.val 2) 8 1 = s.rd Reg.GLB_BOOT_SLOT) := fun ⟨a, b⟩ => idle.elim a (· b)
  have good : ¬ s.hmBadIn (s.mbxArg m.val 0) (s.mbxArg m.val 1) = true := by simp [State.hmBadIn, sound]
  have sized : ¬ (s.mbxArg m.val 1 ≠ 2048 + (s.imageAt (s.mbxArg m.val 0) chk).body
      ∨ (s.imageAt (s.mbxArg m.val 0) chk).body > bodyLimit (fld (s.mbxArg m.val 2) 0 2)) := by omega
  exact congrArg Host.Outcome.next ((if_neg (ready_proceeds ready)).trans ((if_neg stage).trans ((if_neg slot).trans
    ((if_neg (reach_proceeds reach)).trans ((if_neg good).trans (if_neg sized))))))

/-- Settles O58: each command by its checks; the results through `mbxEnd` and `mbxDone`. -/
theorem mailboxCommandsComplete : Obligations.MailboxCommandsComplete := by
  unfold Obligations.MailboxCommandsComplete
  intro m chk ok s a ends run b slot stage le img
  have ran : ∀ {i : Instr} {t : State} {st d v : Nat} {f : State → Prop}, exec i s = .next (t.mbxEnd m.val st d v) →
      f (t.mbxEnd m.val st d v) → run i st d v f := fun runs h => ⟨_, runs, State.mbxEnd_ends _ m.isLt _ _ _, h⟩
  refine ⟨?nop, ?cfgWrite, ?cfgRead, ?fwWrite, ?fwRunning, ?fwSelect, ?fwCommit, ?logRead, ?complete⟩
  case nop => exact fun ready => ran (congrArg Host.Outcome.next (if_pos ready)) rfl
  case cfgWrite =>
    intro ready length reach sound
    have read := fun ok => exec_cfgWrite_read (flashOk := ok) ready length reach sound
    refine ⟨fun valid => ?_, fun valid => ?_, fun bad => ?_⟩
    · have good : ¬ (!s.cfgValid b) = true := by simp [valid]
      exact ran ((read true).trans (congrArg Host.Outcome.next ((if_neg good).trans (if_neg (by decide)))))
        (State.putConfig_mbxEnd ..)
    · have good : ¬ (!s.cfgValid b) = true := by simp [valid]
      exact ran ((read false).trans (congrArg Host.Outcome.next ((if_neg good).trans (if_pos (by decide))))) rfl
    · have fails : (!s.cfgValid b) = true := by simp [bad]
      exact ran ((read ok).trans (congrArg Host.Outcome.next (if_pos fails))) rfl
  case cfgRead =>
    intro ready reach some_
    have held : ¬ s.config.isEmpty = true := by simpa using some_
    exact ran (congrArg Host.Outcome.next ((if_neg (ready_proceeds ready)).trans ((if_neg (reach_proceeds reach)).trans (if_neg held))))
      (State.hmStore_mbxEnd_hm ..)
  case fwWrite =>
    intro ready known idle reach sound length fits
    have checked := fun ok => exec_fwWrite_checked (flashOk := ok) ready known idle reach sound (chk := chk) length fits
    refine ⟨?_, ?_⟩
    · intro shaped key sig svn
      have passes : ¬ (!(imageShaped img stage && img.keyOk && img.sigOk)) = true := by simp [shaped, key, sig]
      exact ran ((checked true).trans (congrArg Host.Outcome.next ((if_neg passes).trans ((if_neg (Nat.not_lt.mpr svn)).trans
        (if_neg (by decide)))))) ⟨lookup_put_same _ _ _, rfl⟩
    · intro unsigned
      have fails : (!(imageShaped img stage && img.keyOk && img.sigOk)) = true := by simp [unsigned]
      exact ran ((checked ok).trans (congrArg Host.Outcome.next (if_pos fails))) rfl
  case fwRunning =>
    intro ready known booted same
    have stage : ¬ (fld (s.mbxArg m.val 2) 0 2 = 0 ∨ fld (s.mbxArg m.val 2) 0 2 = 3) := by
      rcases known with one | two
      · exact fun h => by rw [show fld (s.mbxArg m.val 2) 0 2 = 1 from one] at h; omega
      · exact fun h => by rw [show fld (s.mbxArg m.val 2) 0 2 = 2 from two] at h; omega
    have active : s.stage ≠ 6 ∧ fld (s.mbxArg m.val 2) 8 1 = s.rd Reg.GLB_BOOT_SLOT := ⟨by omega, same⟩
    exact ran (congrArg Host.Outcome.next ((if_neg (ready_proceeds ready)).trans ((if_neg stage).trans (if_pos active)))) rfl
  case fwSelect =>
    intro ready
    refine ran (congrArg Host.Outcome.next ((if_neg (ready_proceeds ready)).trans (if_neg (by decide)))) ?_
    exact ⟨State.clearFail_pref _ _, State.clearFail_failCount _ _, State.clearFail_images _ _⟩
  case fwCommit =>
    intro ready x y first second
    by_cases lower : min 64 (min x.svn y.svn) ≤ s.fuses.counter
    · exact ran ((exec_fwCommit_both ready first second).trans (congrArg Host.Outcome.next (if_pos lower)))
        ⟨(max_eq_left lower).symm, rfl, rfl⟩
    · exact ran ((exec_fwCommit_both ready first second).trans (congrArg Host.Outcome.next (if_neg lower)))
        ⟨(max_eq_right (Nat.le_of_not_le lower)).symm, rfl, rfl⟩
  case logRead =>
    intro ready reach
    exact ran (congrArg Host.Outcome.next ((if_neg (ready_proceeds ready)).trans (if_neg (reach_proceeds reach))))
      (State.hmStore_mbxEnd_hm ..)
  case complete =>
    intro st d v powered noReset alive given result
    have open_ : ¬ (!s.powered || s.perst || s.failed || !s.mbxGo m.val) = true := by simp [powered, noReset, alive, given]
    refine ⟨s.mbxDone m.val st d v, ?_, State.mbxDone_effect s m.isLt st d v⟩
    refine congrArg Host.Outcome.next ((if_neg open_).trans ?_)
    rw [result]

end Sys2Proof.Machine
end

section
/-! Test commands, which start at their first arrival and write what was found at their second, the pad and the TAPs
(R365, R366, R436-R443). -/

namespace Sys2Proof.Machine

/-! ### The two arrivals of a test command -/

/-- A command that is ready does not run. -/
theorem ready_runsNot {s : State} {m opc : Nat} (ready : s.mbxReady m opc = true) (o : Nat) : ¬ s.mbxRuns m o = true := by
  simp only [State.mbxReady, Bool.and_eq_true, Bool.not_eq_true'] at ready
  have waits : (s.mbox m).running = false := ready.1.1.1.1.2
  simp [State.mbxRuns, waits]

/-- A command that is ready, with test access. -/
theorem testStart_open {s : State} {m opc : Nat} (ready : s.mbxReady m opc = true) (access : s.testOpen opc = true) (f : State → State) :
    s.testStart m opc f = f s :=
  (if_neg (ready_proceeds ready)).trans (if_neg (by simp [access]))

theorem testOpen_of {s : State} (free : s.testLow = false) (enabled : s.rdb Reg.TEST_CTL_FIELD_EN = true) (opc : Nat) : s.testOpen opc = true := by
  simp [State.testOpen, free, enabled]

/-- The mailbox's command runs now, with no result of its own yet; cores and HM stay. -/
def State.TestStarts (s u : State) (m : Nat) : Prop :=
  (u.mbox m).running = true ∧ (u.mbox m).result = (s.mbox m).result ∧ u.cores = s.cores ∧ u.hm = s.hm

theorem State.mbxStart_starts (s : State) {m : Nat} (inRange : m < 4) : s.TestStarts (s.mbxStart m) m := by
  unfold State.TestStarts State.mbxStart
  rw [State.mbox_modMbox _ _ _ inRange]
  exact ⟨rfl, rfl, rfl, rfl⟩

/-- A result stored in HM and reported touches no core, port, channel or leaf. -/
theorem State.hmStore_mbxEnd (s : State) (off : Nat) (bs : List Byte) (m st detail val : Nat) :
    ((s.hmStore off bs).mbxEnd m st detail val).cores = s.cores ∧ ((s.hmStore off bs).mbxEnd m st detail val).chans = s.chans := by
  unfold State.mbxEnd
  exact ⟨by rw [State.modMbox_cores, State.hmStore_cores], by rw [State.modMbox_chans, State.hmStore_chans]⟩

/-- A count raised in a register before a result is reported leaves cores, ports, leaves and HM. -/
theorem State.bump_mbxEnd (s : State) (f : Fld) (n m st detail val : Nat) :
    ((s.bump f n).mbxEnd m st detail val).cores = s.cores ∧ ((s.bump f n).mbxEnd m st detail val).ports = s.ports
    ∧ ((s.bump f n).mbxEnd m st detail val).leaves = s.leaves ∧ ((s.bump f n).mbxEnd m st detail val).hm = s.hm
    ∧ ((s.bump f n).mbxEnd m st detail val).regs = (s.bump f n).regs := ⟨rfl, rfl, rfl, rfl, rfl⟩

theorem State.hm_hmStore (s : State) (off : Nat) (bs : List Byte) : (s.hmStore off bs).hm = s.hm.writeN off bs := rfl

/-! ### LPDDR margining (R365, R366) -/

theorem exec_lmMargin_starts {s : State} {m : Fin 4} (free : s.testLow = false) (ready : s.mbxReady m.val 1 = true) (kind : s.lmKind m.val ≤ 2)
    (chan : s.lmCh m.val ≤ 63) (area : s.resultOk (s.mbxArg m.val 3) (16 + 64 * marginPins (s.lmKind m.val)) = true)
    (alive : s.chState (s.lmCh m.val) ≠ 3) (idle : (s.chan (s.lmCh m.val)).margining = none) :
    exec (.lmMargin m) s = .next ((s.mbxStart m.val).modChan (s.lmCh m.val) (fun c => { c with margining := some m.val })) := by
  have known : ¬ s.lmKind m.val > 2 := Nat.not_lt.mpr kind
  have here : ¬ (s.lmCh m.val > 63 ∨ (!s.resultOk (s.mbxArg m.val 3) (16 + 64 * marginPins (s.lmKind m.val))) = true) := by
    rw [area]
    simpa using chan
  have noSweep : ¬ (s.chan (s.lmCh m.val)).margining.isSome = true := by simp [idle]
  have access : s.testOpen 1 = true := by simp [State.testOpen, free]
  exact congrArg Host.Outcome.next ((testStart_open ready access _).trans ((if_neg known).trans ((if_neg here).trans
    ((if_neg alive).trans (if_neg noSweep)))))

theorem exec_marginSlice_last {s : State} {m : Fin 4} (runs : s.mbxRuns m.val 1 = true) (inService : s.chState (s.lmCh m.val) = 0)
    (pins : List (List Byte)) :
    exec (.marginSlice m true pins) s
      = .next (((s.modChan (s.lmCh m.val) (fun c => { c with margining := none })).hmStore (s.mbxArg m.val 3)
          (s.marginResult m.val pins)).mbxEnd m.val 0 0 0) := by
  have runs' : ¬ (!s.mbxRuns m.val 1) = true := by simp [runs]
  have alive : ¬ s.chState (s.lmCh m.val) = 3 := by rw [inService]; decide
  have goes : ¬ (s.chState (s.lmCh m.val) ≠ 0 ∨ (!true) = true) := by simp [inService]
  exact congrArg Host.Outcome.next ((if_neg runs').trans ((if_neg alive).trans (if_neg goes)))

/-! ### The analogue test bus (R436) -/

/-- The registers of a measurement. -/
def State.withAtb (s : State) (v code die bus node : Nat) : State :=
  (((((s.wr Reg.TEST_ATB_LAST_VALUE v).wr Reg.TEST_ATB_LAST_CODE code).wr Reg.TEST_ATB_LAST_DIE die).wr Reg.TEST_ATB_LAST_BUS bus).wr
    Reg.TEST_ATB_LAST_NODE node).wr Reg.TEST_ATB_LAST_VALID 1

theorem State.withAtb_rd (s : State) (v code die bus node : Nat) :
    (s.withAtb v code die bus node).rd Reg.TEST_ATB_LAST_CODE = code % 2 ^ 12
    ∧ (s.withAtb v code die bus node).rd Reg.TEST_ATB_LAST_VALID = 1
    ∧ (s.withAtb v code die bus node).rd Reg.TEST_STAT_ATB_MEAS = s.rd Reg.TEST_STAT_ATB_MEAS := by
  unfold State.withAtb
  refine ⟨?_, ?_, ?_⟩
  · rw [State.rd_wr_ne _ _ _ _ (by decide), State.rd_wr_ne _ _ _ _ (by decide), State.rd_wr_ne _ _ _ _ (by decide),
      State.rd_wr_ne _ _ _ _ (by decide), State.rd_wr]
    rfl
  · rw [State.rd_wr]
    rfl
  · rw [State.rd_wr_ne _ _ _ _ (by decide), State.rd_wr_ne _ _ _ _ (by decide), State.rd_wr_ne _ _ _ _ (by decide),
      State.rd_wr_ne _ _ _ _ (by decide), State.rd_wr_ne _ _ _ _ (by decide), State.rd_wr_ne _ _ _ _ (by decide)]

theorem State.withAtb_cores (s : State) (v code die bus node : Nat) : (s.withAtb v code die bus node).cores = s.cores := by
  simp only [State.withAtb, State.wr_cores]

/-- The bus that a measurement's registers name: the write of the value before it touches no argument. -/
def State.atbBus (s : State) (m v code die : Nat) : Nat :=
  fld ((((s.wr Reg.TEST_ATB_LAST_VALUE v).wr Reg.TEST_ATB_LAST_CODE code).wr Reg.TEST_ATB_LAST_DIE die).mbxArg m 0) 3 1

theorem exec_atbMeasure_ends {s : State} {m : Fin 4} {codes : List Nat} {value : BitVec 16} (runs : s.mbxRuns m.val 0x10 = true)
    (leaf : s.atbLeafBad (s.atbDie m.val) = false) (count : codes.length = s.atbCount m.val) (fit : ∀ c ∈ codes, c ≤ 4095) {v : Nat}
    (hv : v = if atbDiode (s.atbDie m.val) (s.atbNum m.val) then value.toNat else codeMv codes) :
    exec (.atbMeasure m codes value) s
      = .next (((s.withAtb v (meanCode codes) (s.atbDie m.val) (s.atbBus m.val v (meanCode codes) (s.atbDie m.val)) (s.atbNum m.val)).bump
          Reg.TEST_STAT_ATB_MEAS 1).mbxEnd m.val 0 0 v) := by
  have good : ¬ s.atbLeafBad (s.atbDie m.val) = true := by simp [leaf]
  have taken : ¬ (codes.length ≠ s.atbCount m.val ∨ codes.any (fun c => decide (4095 < c)) = true) := by
    simpa [count] using fit
  subst hv
  exact congrArg Host.Outcome.next ((if_pos runs).trans ((if_neg good).trans (if_neg taken)))

/-- A measurement that ends gives its value and counts. -/
theorem atbMeasure_measured {s : State} {m : Fin 4} {codes : List Nat} {value : BitVec 16} (runs : s.mbxRuns m.val 0x10 = true)
    (leaf : s.atbLeafBad (s.atbDie m.val) = false) (count : codes.length = s.atbCount m.val) (fit : ∀ c ∈ codes, c ≤ 4095) :
    ∃ u : State, exec (.atbMeasure m codes value) s = .next u
      ∧ (u.mbox m.val).result
        = some (0, 0, (if atbDiode (s.atbDie m.val) (s.atbNum m.val) then value.toNat else codeMv codes) % 65536)
      ∧ u.cores = s.cores ∧ u.rd Reg.TEST_ATB_LAST_CODE = meanCode codes % 2 ^ Reg.TEST_ATB_LAST_CODE.w
      ∧ u.rd Reg.TEST_ATB_LAST_VALID = 1
      ∧ u.rd Reg.TEST_STAT_ATB_MEAS = min (s.rd Reg.TEST_STAT_ATB_MEAS + 1) (2 ^ Reg.TEST_STAT_ATB_MEAS.w - 1) := by
  obtain ⟨v, hv⟩ : ∃ v, v = if atbDiode (s.atbDie m.val) (s.atbNum m.val) then value.toNat else codeMv codes := ⟨_, rfl⟩
  have executed := exec_atbMeasure_ends (value := value) runs leaf count fit hv
  rw [← hv]
  obtain ⟨code, valid, counted⟩ := s.withAtb_rd v (meanCode codes) (s.atbDie m.val)
    (s.atbBus m.val v (meanCode codes) (s.atbDie m.val)) (s.atbNum m.val)
  have kept := s.withAtb_cores v (meanCode codes) (s.atbDie m.val) (s.atbBus m.val v (meanCode codes) (s.atbDie m.val)) (s.atbNum m.val)
  generalize s.withAtb v (meanCode codes) (s.atbDie m.val) (s.atbBus m.val v (meanCode codes) (s.atbDie m.val)) (s.atbNum m.val) = t
    at code valid counted kept executed
  have regs : ∀ g, ((t.bump Reg.TEST_STAT_ATB_MEAS 1).mbxEnd m.val 0 0 v).rd g = (t.bump Reg.TEST_STAT_ATB_MEAS 1).rd g := fun _ => rfl
  refine ⟨_, executed, (State.mbxEnd_ends _ m.isLt _ _ _).1, kept, ?_, ?_, ?_⟩
  · rw [regs, State.bump_rd_ne _ _ (by decide), code]
    rfl
  · rw [regs, State.bump_rd_ne _ _ (by decide), valid]
  · rw [regs, State.rd_bump, counted]

theorem exec_atbMeasure_starts {s : State} {m : Fin 4} {codes : List Nat} {value : BitVec 16} (ready : s.mbxReady m.val 0x10 = true)
    (access : s.testOpen 0x10 = true) (node : atbNode (s.atbDie m.val) (s.atbNum m.val) = true)
    (leaf : s.atbLeafBad (s.atbDie m.val) = false) :
    exec (.atbMeasure m codes value) s = .next (s.mbxStart m.val) := by
  have known : ¬ (!atbNode (s.atbDie m.val) (s.atbNum m.val)) = true := by simp [node]
  have good : ¬ s.atbLeafBad (s.atbDie m.val) = true := by simp [leaf]
  exact congrArg Host.Outcome.next ((if_neg (ready_runsNot ready _)).trans ((testStart_open ready access _).trans
    ((if_neg known).trans (if_neg good))))

/-! ### Eye scans (R440) -/

theorem exec_serdesEye_starts {s : State} {m : Fin 4} {res : List Byte} (ready : s.mbxReady m.val 0x11 = true) (access : s.testOpen 0x11 = true)
    (area : s.resultOk (s.mbxArg m.val 1) 400 = true) (port : s.eyePort m.val < 20) (on : s.lk (s.eyePort m.val) = 3 ∨ s.lk (s.eyePort m.val) = 4)
    (free : s.targetBusy m.val (s.testsPort (s.eyePort m.val)) = false) (lane : (s.rxMask (s.eyePort m.val)).getLsbD (s.eyeLane m.val) = true) :
    exec (.serdesEye m res) s = .next ((s.mbxStart m.val).modPort (s.eyePort m.val) (fun t => { t with eye := some m.val })) := by
  have here : ¬ (!s.resultOk (s.mbxArg m.val 1) 400) = true := by simp [area]
  have linked : ¬ (s.eyePort m.val ≥ 20 ∨ (s.lk (s.eyePort m.val) ≠ 3 ∧ s.lk (s.eyePort m.val) ≠ 4)) := by omega
  have notBusy : ¬ s.targetBusy m.val (s.testsPort (s.eyePort m.val)) = true := by simp [free]
  have inMask : ¬ (!(s.rxMask (s.eyePort m.val)).getLsbD (s.eyeLane m.val)) = true := by simp [lane]
  exact congrArg Host.Outcome.next ((if_neg (ready_runsNot ready _)).trans ((testStart_open ready access _).trans
    ((if_neg here).trans ((if_neg linked).trans ((if_neg notBusy).trans (if_neg inMask))))))

theorem exec_serdesEye_ends {s : State} {m : Fin 4} {res : List Byte} (runs : s.mbxRuns m.val 0x11 = true)
    (scans : (s.port (s.eyePort m.val)).eye = some m.val) (lane : (s.rxMask (s.eyePort m.val)).getLsbD (s.eyeLane m.val) = true) :
    exec (.serdesEye m res) s
      = .next ((((s.modPort (s.eyePort m.val) (fun t => { t with eye := none })).hmStore (s.mbxArg m.val 1)
          (s.eyeHeader m.val ++ padTo 384 res)).bump Reg.TEST_STAT_EYE_SCANS 1).mbxEnd m.val 0 0 0) := by
  have inMask : ¬ (!(s.rxMask (s.eyePort m.val)).getLsbD (s.eyeLane m.val)) = true := by simp [lane]
  exact congrArg Host.Outcome.next ((if_pos runs).trans ((if_neg (not_not.mpr scans)).trans (if_neg inMask)))

/-- A scan that ends writes what it found, and lets its port go. -/
theorem serdesEye_scanned {s : State} {m : Fin 4} {res : List Byte} (runs : s.mbxRuns m.val 0x11 = true) (port : s.eyePort m.val < 20)
    (scans : (s.port (s.eyePort m.val)).eye = some m.val) (lane : (s.rxMask (s.eyePort m.val)).getLsbD (s.eyeLane m.val) = true) :
    ∃ u : State, exec (.serdesEye m res) s = .next u ∧ (u.mbox m.val).result = some (0, 0, 0 % 65536) ∧ u.cores = s.cores
      ∧ u.hm = s.hm.writeN (s.mbxArg m.val 1) (s.eyeHeader m.val ++ padTo 384 res) ∧ (u.port (s.eyePort m.val)).eye = none := by
  have executed := exec_serdesEye_ends (res := res) runs scans lane
  generalize s.eyeHeader m.val ++ padTo 384 res = found at executed ⊢
  generalize s.eyePort m.val = p at port executed ⊢
  obtain ⟨t, ht⟩ : ∃ t, t = (s.modPort p (fun t => { t with eye := none })).hmStore (s.mbxArg m.val 1) found := ⟨_, rfl⟩
  rw [← ht] at executed
  obtain ⟨cores, ports, _, hm, _⟩ := t.bump_mbxEnd Reg.TEST_STAT_EYE_SCANS 1 m.val 0 0 0
  refine ⟨_, executed, (State.mbxEnd_ends _ m.isLt _ _ _).1, cores.trans ?_, hm.trans ?_, ?_⟩
  · rw [ht, State.hmStore_cores, State.modPort_cores]
  · rw [ht, State.hm_hmStore, State.modPort_hm]
  · have same : t.ports = (s.modPort p (fun t => { t with eye := none })).ports := by rw [ht, State.hmStore_ports]
    have cleared := congrArg (fun v => (v.getD p Port.reset).eye) (ports.trans same)
    exact cleared.trans (congrArg Port.eye (State.port_modPort _ _ _ port))

/-! ### UCIe margining (R441) -/

theorem exec_ucieMargin_starts {s : State} {m : Fin 4} (ready : s.mbxReady m.val 0x12 = true) (access : s.testOpen 0x12 = true)
    (area : s.resultOk (s.mbxArg m.val 1) 288 = true) (active : s.leafUp (s.umLeaf m.val) = true) (enabled : (s.umUcie m.val).disabled = false)
    (free : s.targetBusy m.val (fun k => s.mbxOpc k == 0x12 && s.umLeaf k == s.umLeaf m.val && s.umMod k == s.umMod m.val) = false) :
    exec (.ucieMargin m) s
      = .next ((s.mbxStart m.val).modUcie (s.umLeaf m.val) (s.umMod m.val) (fun u => { u with margin := some m.val })) := by
  have here : ¬ (!s.resultOk (s.mbxArg m.val 1) 288) = true := by simp [area]
  have works : ¬ ((!s.leafUp (s.umLeaf m.val)) = true ∨ (s.umUcie m.val).disabled = true) := by simp [active, enabled]
  exact congrArg Host.Outcome.next ((testStart_open ready access _).trans ((if_neg here).trans ((if_neg works).trans
    (if_neg (Bool.eq_false_iff.mp free)))))

theorem exec_ucieMarginSlice_last {s : State} {m : Fin 4} {res : List Byte} (runs : s.mbxRuns m.val 0x12 = true)
    (mine : (s.umUcie m.val).margin = some m.val) (enabled : (s.umUcie m.val).disabled = false) (active : s.leafUp (s.umLeaf m.val) = true)
    (steady : (s.umUcie m.val).retraining = false) :
    exec (.ucieMarginSlice m true res) s
      = .next ((((s.hmStore (s.mbxArg m.val 1) (s.ucieResult m.val res)).modUcie
          ((s.hmStore (s.mbxArg m.val 1) (s.ucieResult m.val res)).umLeaf m.val)
          ((s.hmStore (s.mbxArg m.val 1) (s.ucieResult m.val res)).umMod m.val) (fun u => { u with margin := none })).bump
          Reg.TEST_STAT_UCIE_MARGINS 1).mbxEnd m.val 0 0 0) := by
  have runs' : ¬ (!s.mbxRuns m.val 0x12) = true := by simp [runs]
  have works : ¬ ((s.umUcie m.val).margin ≠ some m.val ∨ (s.umUcie m.val).disabled = true ∨ (!s.leafUp (s.umLeaf m.val)) = true) := by
    simp [mine, enabled, active]
  have goes : ¬ ((s.umUcie m.val).retraining = true ∨ (!true) = true) := by simp [steady]
  exact congrArg Host.Outcome.next ((if_neg runs').trans ((if_neg works).trans (if_neg goes)))

/-- The last slice of a margin test writes what was found, and lets its module go. -/
theorem ucieMargin_measured {s : State} {m : Fin 4} {res : List Byte} (runs : s.mbxRuns m.val 0x12 = true)
    (mine : (s.umUcie m.val).margin = some m.val) (enabled : (s.umUcie m.val).disabled = false) (active : s.leafUp (s.umLeaf m.val) = true)
    (steady : (s.umUcie m.val).retraining = false) :
    ∃ u : State, exec (.ucieMarginSlice m true res) s = .next u ∧ (u.mbox m.val).result = some (0, 0, 0 % 65536) ∧ u.cores = s.cores
      ∧ u.hm = s.hm.writeN (s.mbxArg m.val 1) (s.ucieResult m.val res) ∧ ((u.leaf (s.umLeaf m.val)).mod (s.umMod m.val)).margin = none := by
  have executed := exec_ucieMarginSlice_last (res := res) runs mine enabled active steady
  generalize s.ucieResult m.val res = found at executed ⊢
  have leafIn : s.umLeaf m.val < 4 := Nat.mod_lt _ (by decide)
  have modIn : s.umMod m.val < 32 := Nat.mod_lt _ (by decide)
  obtain ⟨t, ht⟩ : ∃ t, t = s.hmStore (s.mbxArg m.val 1) found := ⟨_, rfl⟩
  have arg : t.mbxArg m.val 0 = s.mbxArg m.val 0 := State.rd_congr _ _ _ (by rw [ht, State.hmStore_regs])
  have leaf : t.umLeaf m.val = s.umLeaf m.val := congrArg (fun x => fld x 0 2) arg
  have module : t.umMod m.val = s.umMod m.val := congrArg (fun x => fld x 8 5) arg
  rw [← ht, leaf, module] at executed
  generalize s.umLeaf m.val = l at leafIn executed ⊢
  generalize s.umMod m.val = k at modIn executed ⊢
  obtain ⟨cores, _, leaves, hm, _⟩ := (t.modUcie l k (fun u => { u with margin := none })).bump_mbxEnd Reg.TEST_STAT_UCIE_MARGINS 1 m.val 0 0 0
  refine ⟨_, executed, (State.mbxEnd_ends _ m.isLt _ _ _).1, cores.trans ?_, hm.trans ?_, ?_⟩
  · rw [State.modUcie, State.modLeaf_cores, ht, State.hmStore_cores]
  · rw [State.modUcie, State.modLeaf_hm, ht, State.hm_hmStore]
  · have cleared := congrArg (fun v => ((v.getD l Leaf.reset).mod k).margin) leaves
    exact cleared.trans (congrArg Ucie.margin (State.modUcie_mod _ _ leafIn modIn))

/-! ### Optical loopback (R442) -/

theorem exec_optLoopback_starts {s : State} {m : Fin 4} {errors : Nat} (ready : s.mbxReady m.val 0x13 = true) (access : s.testOpen 0x13 = true)
    (engine : s.loopEngine m.val < 10) (free : s.targetBusy m.val (s.testsPort (s.loopPort m.val)) = false) (dark : s.lk (s.loopPort m.val) = 0)
    (locked : s.loopLocked m.val = true) :
    exec (.optLoopback m errors) s = .next ((s.mbxStart m.val).modPort (s.loopPort m.val) (fun t => { t with loop := true })) := by
  have known : ¬ s.loopEngine m.val ≥ 10 := Nat.not_le.mpr engine
  have notBusy : ¬ s.targetBusy m.val (s.testsPort (s.loopPort m.val)) = true := by simp [free]
  have held : ¬ (!s.loopLocked m.val) = true := by simp [locked]
  exact congrArg Host.Outcome.next ((if_neg (ready_runsNot ready _)).trans ((testStart_open ready access _).trans
    ((if_neg known).trans ((if_neg notBusy).trans ((if_neg (not_not.mpr dark)).trans (if_neg held))))))

theorem State.loopPort_lt (s : State) {m : Nat} (engine : s.loopEngine m < 10) : s.loopPort m < 20 := by
  have side : s.loopSide m < 2 := Nat.mod_lt _ (by decide)
  unfold State.loopPort
  omega

/-- What the end of a loopback leaves: its port without it; nothing but the port and its link's state changes. -/
theorem State.loopEnd_effect (s : State) (p : Nat) (port : p < 20) :
    ((s.loopEnd p).port p).loop = false ∧ (s.loopEnd p).hm = s.hm ∧ (s.loopEnd p).cores = s.cores := by
  unfold State.loopEnd State.bringUp
  split
  · refine ⟨?_, rfl, rfl⟩
    have opened : (((s.modPort p (fun t => { t with loop := false })).modPort p
        (fun t => { t with stage := 0, pStage := 0, adapted := 0, pReady := 0, framed := false })).port p).loop = false := by
      rw [State.port_modPort _ _ _ port, State.port_modPort _ _ _ port]
    exact opened
  · exact ⟨congrArg Port.loop (State.port_modPort _ _ _ port), rfl, rfl⟩

/-- The end of a loopback leaves the mailboxes and their registers. -/
theorem State.loopEnd_mboxes (s : State) (p : Nat) : (s.loopEnd p).mboxes = s.mboxes ∧ (s.loopEnd p).failed = s.failed
    ∧ ∀ g : Fld, g.OfMbx → (s.loopEnd p).rd g = s.rd g := by
  unfold State.loopEnd State.bringUp
  split
  · refine ⟨rfl, rfl, fun g mbx => ?_⟩
    have apart : g.key ≠ (Reg.LK_STATE_STATE p).key := by
      obtain ⟨low, high⟩ := mbx
      simp only [Fld.key, Reg.LK_STATE_STATE, Reg.LK_STATE] at low high ⊢
      omega
    exact State.rd_wr_ne _ _ _ _ apart
  · exact ⟨rfl, rfl, fun _ _ => rfl⟩

/-! ### The pad (R438) -/

/-- A step of the pad's low edge: mailbox m's command ends when it runs. -/
def State.testEnds (s : State) (o m : Nat) : State := if s.mbxRuns m o then (s.testDrop m).mbxFail m detailAccess else s

/-- The test commands that run come to their end. -/
def State.testsEnd (s : State) : State :=
  [1, 0x10, 0x11, 0x12, 0x13].foldl (fun s o => (List.range 4).foldl (fun s m => s.testEnds o m) s) s

theorem exec_testModeNChange_low (s : State) : exec (.testModeNChange true) s = .next { s.testsEnd with testLow := true } := rfl

theorem State.testDrop_mboxes (s : State) (m : Nat) : (s.testDrop m).mboxes = s.mboxes ∧ (s.testDrop m).failed = s.failed
    ∧ ∀ g : Fld, g.OfMbx → (s.testDrop m).rd g = s.rd g := by
  unfold State.testDrop
  split
  · exact ⟨rfl, rfl, fun _ _ => rfl⟩
  · exact ⟨rfl, rfl, fun _ _ => rfl⟩
  · exact ⟨rfl, rfl, fun _ _ => rfl⟩
  · exact s.loopEnd_mboxes _
  · exact ⟨rfl, rfl, fun _ _ => rfl⟩

/-- The mailbox, its command and whether it runs are as before. -/
structure State.SameMbx (s t : State) (m : Nat) : Prop where
  box : t.mbox m = s.mbox m
  runs : ∀ o, t.mbxRuns m o = s.mbxRuns m o

theorem State.testEnds_other (s : State) {o k m : Nat} (inRange : m < 4) (apart : k ≠ m) : s.SameMbx (s.testEnds o k) m := by
  unfold State.testEnds
  split
  case isFalse => exact ⟨rfl, fun _ => rfl⟩
  case isTrue =>
    obtain ⟨boxes, alive, rd⟩ := s.testDrop_mboxes k
    have box : ((s.testDrop k).mbxFail k detailAccess).mbox m = s.mbox m :=
      (getD_set_other _ k m _ _ apart.symm).trans (congrArg (fun v => v.getD m Mailbox.reset) boxes)
    refine ⟨box, fun p => ?_⟩
    have given : ((s.testDrop k).mbxFail k detailAccess).rd (Reg.MBX_CMD_GO m) = s.rd (Reg.MBX_CMD_GO m) :=
      rd _ (mbxField_ofMbx (off := 0) inRange (by decide) (by decide))
    have opcode : ((s.testDrop k).mbxFail k detailAccess).rd (Reg.MBX_CMD_OPC m) = s.rd (Reg.MBX_CMD_OPC m) :=
      rd _ (mbxField_ofMbx (off := 0) inRange (by decide) (by decide))
    have failed : ((s.testDrop k).mbxFail k detailAccess).failed = s.failed := alive
    unfold State.mbxRuns State.mbxGo State.mbxOpc State.rdb
    rw [box, given, opcode, failed]

/-- A command that runs ends. -/
theorem State.testEnds_same (s : State) {o m : Nat} (inRange : m < 4) (runs : s.mbxRuns m o = true) :
    ((s.testEnds o m).mbox m).result = some (Status.addrRange, detailAccess, 0) := by
  unfold State.testEnds
  rw [if_pos runs]
  exact (State.mbxEnd_ends _ inRange _ _ _).1

/-- A command that has its result keeps it. -/
theorem State.testEnds_ended (s : State) (o k : Nat) {m : Nat} (inRange : m < 4) {r : Nat × Nat × Nat} (ended : (s.mbox m).result = some r) :
    ((s.testEnds o k).mbox m).result = some r := by
  by_cases same : k = m
  · have notRuns : ¬ s.mbxRuns k o = true := by simp [State.mbxRuns, same, ended]
    unfold State.testEnds
    rw [if_neg notRuns]
    exact ended
  · rw [(s.testEnds_other inRange same).box]
    exact ended

/-- A command runs under its own opcode only. -/
theorem runs_unique {s : State} {m o p : Nat} (runs : s.mbxRuns m o = true) (apart : p ≠ o) : ¬ s.mbxRuns m p = true := by
  simp only [State.mbxRuns, Bool.and_eq_true, beq_iff_eq] at runs ⊢
  intro other
  exact apart (other.1.1.2.symm.trans runs.1.1.2)

/-- A fold that meets m comes from P to Q where every other step keeps P, the step at m brings Q, and every step keeps Q. -/
theorem foldl_reaches {β : Type} {P Q : β → Prop} {f : β → Nat → β} {m : Nat} (keeps : ∀ b a, a ≠ m → P b → P (f b a)) (brings : ∀ b, P b → Q (f b m))
    (stays : ∀ b a, Q b → Q (f b a)) {l : List Nat} (mem : m ∈ l) {b : β} (h : P b) : Q (l.foldl f b) := by
  induction l generalizing b with
  | nil => cases mem
  | cons a l ih =>
    by_cases same : a = m
    · exact foldl_keeps Q f stays l _ (same ▸ brings b h)
    · exact ih (List.mem_of_ne_of_mem (Ne.symm same) mem) (keeps b a same h)

/-- A measurement that runs ends with the pad's low edge. -/
theorem State.testsEnd_measurement (s : State) {m : Nat} (inRange : m < 4) (runs : s.mbxRuns m 0x10 = true) :
    (s.testsEnd.mbox m).result = some (Status.addrRange, detailAccess, 0) := by
  have inner : ∀ (t : State) (o : Nat), (t.mbox m).result = some (Status.addrRange, detailAccess, 0) →
      (((List.range 4).foldl (fun s k => s.testEnds o k) t).mbox m).result = some (Status.addrRange, detailAccess, 0) := fun t o =>
    foldl_keeps (fun t : State => (t.mbox m).result = some (Status.addrRange, detailAccess, 0)) _
      (fun t k ended => t.testEnds_ended o k inRange ended) _ t
  refine foldl_reaches (P := fun t : State => t.mbxRuns m 0x10 = true) (m := 0x10)
    (Q := fun t : State => (t.mbox m).result = some (Status.addrRange, detailAccess, 0)) ?keeps ?brings (fun t o => inner t o) (by decide) runs
  case keeps =>
    intro t o apart running
    refine foldl_keeps (fun t : State => t.mbxRuns m 0x10 = true) _ (fun t k running => ?_) _ t running
    by_cases same : k = m
    · have stays : t.testEnds o k = t := if_neg (same ▸ runs_unique running apart)
      exact stays.symm ▸ running
    · exact ((t.testEnds_other inRange same).runs _).trans running
  case brings =>
    intro t running
    exact foldl_reaches (P := fun t : State => t.mbxRuns m 0x10 = true) (Q := fun t : State => (t.mbox m).result = some (Status.addrRange, detailAccess, 0))
      (m := m) (fun t k apart running => ((t.testEnds_other inRange apart).runs _).trans running) (fun t running => t.testEnds_same inRange running)
      (fun t k ended => t.testEnds_ended 0x10 k inRange ended) (List.mem_range.mpr inRange) running

/-- With no test command running the pad's low edge ends none. -/
theorem State.testsEnd_none (s : State) (none : ∀ m o, m < 4 → s.mbxRuns m o = false) : s.testsEnd = s :=
  foldl_stays fun o _ => foldl_stays fun m mem => if_neg (Bool.eq_false_iff.mp (none m o (List.mem_range.mp mem)))

/-! ### The TAPs (R437) -/

/-- A TAP instruction that answers is loaded while the pad is low. -/
theorem State.tapLoad_low {s : State} (powered : s.powered = true) (low : s.testLow = true) (die : Nat) (f : Tap → Tap) (out : List Bool) :
    s.tapLoad die f out = if out.isEmpty then s.modTap die f else (s.modTap die f).say (.tap die out) :=
  if_pos (by simp [powered, low])

/-- What the TAP's register reads stays as it was, or is what is loaded. -/
theorem State.modTap_const (s : State) (die : Nat) (f : Tap → Tap) : s.modTap die f = s.modTap die (fun _ => f (s.tap die)) := rfl

theorem State.tapLoad_quiet {s : State} (powered : s.powered = true) (low : s.testLow = true) (die : Nat) (f : Tap → Tap) :
    Host.Outcome.next (φ := Fault) (ρ := Refusal) (s.tapLoad die f [])
      = .next { s.modTap die (fun _ => f (s.tap die)) with sideOut := s.sideOut ++ [] } := by
  rw [s.tapLoad_low powered low, if_pos (by rfl), List.append_nil]
  rfl

theorem State.tapLoad_says {s : State} (powered : s.powered = true) (low : s.testLow = true) (die : Nat) (f : Tap → Tap) {out : List Bool}
    (some_ : out ≠ []) :
    Host.Outcome.next (φ := Fault) (ρ := Refusal) (s.tapLoad die f out)
      = .next { s.modTap die (fun _ => f (s.tap die)) with sideOut := s.sideOut ++ [.tap die out] } := by
  rw [s.tapLoad_low powered low, if_neg (by simpa using some_)]
  rfl

theorem State.tapLoad_high {s : State} (high : s.testLow = false) (die : Nat) (f : Tap → Tap) (out : List Bool) : s.tapLoad die f out = s :=
  if_neg (by simp [high])

/-- Settles O59: a lemma per arrival of a command; the pad's low edge by its fold over commands and mailboxes. -/
theorem testCommandsAndTaps : Obligations.TestCommandsAndTaps := by
  unfold Obligations.TestCommandsAndTaps
  refine ⟨?commands, ?taps⟩
  case commands =>
    intro m pins res codes value errors s free a open_ starts ends ch p q l k
    have started : ∀ {i : Instr} {u : State} {f : State → Prop}, exec i s = .next u → s.TestStarts u m.val → f u → starts i f :=
      fun runs ⟨running, result, cores, hm⟩ h => ⟨_, runs, running, result, cores, hm, h⟩
    have ended : ∀ {i : Instr} {u : State} {v : Nat} {f : State → Prop}, exec i s = .next (u.mbxEnd m.val 0 0 v) → (u.mbxEnd m.val 0 0 v).cores = s.cores →
        f (u.mbxEnd m.val 0 0 v) → ends i v f :=
      fun runs cores h => ⟨_, runs, (State.mbxEnd_ends _ m.isLt _ _ _).1, cores, h⟩
    have begins := s.mbxStart_starts m.isLt
    refine ⟨?lmMargin, ?marginSlice, ?atbStarts, ?atbEnds, ?eyeStarts, ?eyeEnds, ?ucieStarts, ?ucieEnds, ?loopStarts, ?loopEnds, ?refused⟩
    case lmMargin =>
      intro ready kind chan area alive idle
      refine started (exec_lmMargin_starts free ready kind chan area alive idle) begins ?_
      exact congrArg Chan.margining (State.chan_modChan _ _ _ (Nat.lt_succ_of_le chan))
    case marginSlice =>
      intro runs inService
      obtain ⟨cores, chans⟩ := (s.modChan (s.lmCh m.val) (fun c => { c with margining := none })).hmStore_mbxEnd (s.mbxArg m.val 3)
        (s.marginResult m.val pins) m.val 0 0 0
      refine ended (exec_marginSlice_last runs inService pins) cores ⟨State.hmStore_mbxEnd_hm .., fun chan => ?_⟩
      have same := congrArg (fun v => (v.getD ch Chan.reset).margining) chans
      exact same.trans (congrArg Chan.margining (State.chan_modChan _ _ _ (Nat.lt_succ_of_le chan)))
    case atbStarts =>
      intro ready enabled node leaf
      exact started (exec_atbMeasure_starts ready (testOpen_of free enabled _) node leaf) begins rfl
    case atbEnds =>
      exact fun runs leaf count fit => atbMeasure_measured runs leaf count fit
    case eyeStarts =>
      intro ready enabled area port on free' lane
      refine started (exec_serdesEye_starts ready (testOpen_of free enabled _) area port on free' lane) begins ?_
      exact congrArg Port.eye (State.port_modPort _ _ _ port)
    case eyeEnds =>
      exact fun runs port scans lane => serdesEye_scanned runs port scans lane
    case ucieStarts =>
      intro ready enabled area active works free'
      refine started (exec_ucieMargin_starts ready (testOpen_of free enabled _) area active works free') begins ?_
      exact congrArg Ucie.margin (State.modUcie_mod _ _ (Nat.mod_lt _ (by decide)) (Nat.mod_lt _ (by decide)))
    case ucieEnds =>
      exact fun runs mine works active steady => ucieMargin_measured runs mine works active steady
    case loopStarts =>
      intro ready enabled engine free' dark locked
      refine started (exec_optLoopback_starts ready (testOpen_of free enabled _) engine free' dark locked) begins ?_
      exact congrArg Port.loop (State.port_modPort _ _ _ (s.loopPort_lt engine))
    case loopEnds =>
      intro runs engine
      obtain ⟨open_, hm, cores⟩ := s.loopEnd_effect q (s.loopPort_lt engine)
      have executed : exec (.optLoopback m errors) s
          = .next (((s.loopEnd q).bump Reg.TEST_STAT_LOOPBACKS 1).mbxEnd m.val 0 0 (min errors 65535)) := congrArg Host.Outcome.next (if_pos runs)
      generalize s.loopEnd q = t at open_ hm cores executed
      exact ended executed cores ⟨open_, hm⟩
    case refused =>
      intro ready off
      have shut : (!s.testOpen 0x11) = true := by simp [State.testOpen, off]
      refine ⟨_, congrArg Host.Outcome.next ((if_neg (ready_runsNot ready _)).trans ((if_neg (ready_proceeds ready)).trans (if_pos shut))),
        (State.mbxEnd_ends _ m.isLt _ _ _).1, rfl⟩
  case taps =>
    intro die bits opcode s powered loads own
    refine ⟨?low, ?high, rfl, ?quiet, ?ends⟩
    case low =>
      intro low
      refine ⟨State.tapLoad_says powered low _ _ (by simp), State.tapLoad_quiet powered low _ _, State.tapLoad_quiet powered low _ _,
        State.tapLoad_says powered low _ _ (by simp), State.tapLoad_says powered low _ _ (by simp), State.tapLoad_quiet powered low _ _,
        fun other => ?_⟩
      have listed : ¬ tapOpcode opcode.toNat = true := by simp [other]
      exact (congrArg Host.Outcome.next (if_neg listed)).trans (State.tapLoad_says powered low _ _ (by simp))
    case high =>
      intro high
      refine ⟨congrArg Host.Outcome.next (State.tapLoad_high high _ _ _), congrArg Host.Outcome.next (State.tapLoad_high high _ _ _), ?_⟩
      refine congrArg Host.Outcome.next ?_
      by_cases listed : tapOpcode opcode.toNat = true
      · exact if_pos listed
      · exact (if_neg listed).trans (State.tapLoad_high high _ _ _)
    case quiet =>
      intro none
      rw [exec_testModeNChange_low, s.testsEnd_none none]
    case ends =>
      intro m inRange runs
      rw [exec_testModeNChange_low]
      have ended := s.testsEnd_measurement inRange runs
      generalize s.testsEnd = t at ended ⊢
      exact ⟨_, rfl, rfl, ended⟩

end Sys2Proof.Machine
end

section
/-! A fail-stop of a module on which a task of number 0 is being saved on a core of another task (R231, R414). -/

namespace Sys2Proof.Machine

/-- An image without text. -/
def emptyImage : Image :=
  { at_ := 0, text := 0, entry := 0, nLoad := 0, nLive := 0, nTum := 0, textAt := 0, loadAt := 0, liveAt := 0, tumAt := 0, live := [],
    loads := [], tums := [] }

/-- A task of one core on a queue, with nothing of it done. -/
def plainTask (num : Nat) (state : TaskState) : Task :=
  { num := num, queue := 0, tag := 0, cls := 1, ordered := false, fourMe := false, leafAff := false, leafMask := 0, coresN := 1,
    image := emptyImage, arg := 0, hmKib := 0, lmMib := 0, job := 1, seq := 0, qseq := 0, state := state, cores := [0], started := 0,
    fatal := none, jobFatal := none, killed := false, nonFatal := 0, peers := [], saved := [], saveAt := 0, stalled := 0,
    abandoned := false, loadBad := false }

/-- Core 0 runs task 5, while a task of number 0 is being saved on it. -/
def savedByZero : State :=
  { State.reset.modCore 0 (fun k => { k with state := 1, task := 5 }) with
    tasks := [plainTask 0 .saving, plainTask 5 .running] }

/-- What a core runs after a step: its state, and whether it has finished. -/
def runsAfter (o : Host.Outcome State Fault Refusal) (c : Nat) : Nat × Bool :=
  match o with
  | .next u => ((u.core c).state, (u.core c).finished)
  | _ => (0, false)

/-- The end of task 0 hands the core to task 0, and the end of task 5 does not find it. -/
theorem moduleFailStop_leavesCore : runsAfter (exec (.moduleFailStop 0 0) savedByZero) 0 = (1, false) := by decide +kernel

/-- Refutes O50: a fail-stop ends the tasks one by one, and the end of one that is being saved takes its cores back first; one of
number 0, which runs nowhere, so takes the core of a task that has not ended yet, and the core goes on. -/
theorem not_faultsAndFailStops : ¬ Obligations.FaultsAndFailStops := by
  unfold Obligations.FaultsAndFailStops
  rintro ⟨-, stops⟩
  obtain ⟨failStop, -⟩ := stops 0 0 savedByZero
  obtain ⟨u, run, -, -, cores, -⟩ := failStop (by decide +kernel)
  have after : runsAfter (.next u) 0 = (1, false) := run ▸ moduleFailStop_leavesCore
  obtain ⟨running, unfinished⟩ := Prod.ext_iff.mp after
  obtain ⟨-, finishes⟩ := cores 0 (by decide) (by decide +kernel) (by decide +kernel)
  exact Bool.false_ne_true (unfinished.symm.trans (finishes running))

end Sys2Proof.Machine
end

section
/-! What the ending of tasks as by a job-fatal fault changes, what a fail-stop keeps, and what a cold module holds
(R330, R398, R414, R428). -/

namespace Sys2Proof.Machine

/-! ### The parts of the state that a task's ending reaches -/

/-- The state s with those parts taken from t that the ending of tasks, and its records, reach. -/
def State.withEnded (s t : State) : State :=
  { s with
    regs := t.regs, sub := t.sub, freeCtr := t.freeCtr, cores := t.cores, hm := t.hm, hmBad := t.hmBad, lm := t.lm, cache := t.cache,
    kvSeqs := t.kvSeqs, kvPages := t.kvPages, txns := t.txns, c0Held := t.c0Held, winUse := t.winUse, refused := t.refused,
    waiters := t.waiters, collWait := t.collWait, tasks := t.tasks, faultq := t.faultq, faultWait := t.faultWait, errSeq := t.errSeq,
    hostOut := t.hostOut, lastIrq := t.lastIrq, irqDue := t.irqDue }

/-- From s the state comes to t by changing only what the ending of tasks, and its records, reach. -/
structure State.OnlyEnds (s t : State) : Prop where
  eq : t = s.withEnded t

theorem State.OnlyEnds.refl (s : State) : s.OnlyEnds s := ⟨rfl⟩

theorem State.OnlyEnds.trans {s t u : State} (a : s.OnlyEnds t) (b : t.OnlyEnds u) : s.OnlyEnds u := by
  have step := congrArg (fun x => State.withEnded x u) a.eq
  exact ⟨b.eq.trans step⟩

theorem State.onlyEnds_abandoned (s t : State) : s.OnlyEnds (s.withAbandoned t) := ⟨rfl⟩

theorem State.onlyEnds_recorded (s t : State) : s.OnlyEnds (s.withRecords t) := ⟨rfl⟩

theorem State.OnlyAbandons.onlyEnds {s t : State} (h : s.OnlyAbandons t) : s.OnlyEnds t := by
  rw [h.eq]
  exact s.onlyEnds_abandoned t

theorem State.OnlyRecords.onlyEnds {s t : State} (h : s.OnlyRecords t) : s.OnlyEnds t := by
  rw [h.eq]
  exact s.onlyEnds_recorded t

theorem State.modTask_onlyEnds (s : State) (n : Nat) (f : Task → Task) : s.OnlyEnds (s.modTask n f) := ⟨rfl⟩

theorem State.failTask_onlyEnds (s : State) (n st : Nat) : s.OnlyEnds (s.failTask n st) :=
  (s.abandonTask_onlyAbandons n).onlyEnds.trans (State.modTask_onlyEnds ..)

/-- The tasks of a list end. -/
theorem State.failTasks_onlyEnds (s : State) (l : List Task) (st : Nat) : s.OnlyEnds (l.foldl (fun s t => s.failTask t.num st) s) :=
  foldl_keeps s.OnlyEnds _ (fun u t h => h.trans (u.failTask_onlyEnds t.num st)) l s (.refl s)

theorem State.failAll_onlyEnds (s : State) (st : Nat) : s.OnlyEnds (s.failAll st) := s.failTasks_onlyEnds s.tasks st

theorem State.endJobs_onlyEnds (s : State) (st cause : Nat) : s.OnlyEnds (s.endJobs st cause) :=
  (s.failAll_onlyEnds st).trans (State.jobsFatal_onlyRecords _ _).onlyEnds

/-! ### Registers -/

/-- A register field outside the leaves' windows. -/
def Fld.BelowLeaves (g : Fld) : Prop := g.key < 0x02000000 * 64

/-- The field has a value that the abandoning of work leaves. -/
structure State.RdBelow (s t : State) : Prop where
  rd : ∀ g : Fld, g.BelowLeaves → t.rd g = s.rd g

theorem State.RdBelow.refl (s : State) : s.RdBelow s := ⟨fun _ _ => rfl⟩

theorem State.RdBelow.trans {s t u : State} (a : s.RdBelow t) (b : t.RdBelow u) : s.RdBelow u :=
  ⟨fun g h => (b.rd g h).trans (a.rd g h)⟩

theorem State.rdBelow_of {s t : State} (regs : t.regs = s.regs) : s.RdBelow t := ⟨fun g _ => s.rd_congr t g regs⟩

theorem State.bump_rdBelow (s : State) {f : Fld} (n : Nat) (leaf : 0x02000000 * 64 ≤ f.key) : s.RdBelow (s.bump f n) :=
  ⟨fun _ below => s.bump_rd_ne n (Nat.ne_of_lt (Nat.lt_of_lt_of_le below leaf))⟩

theorem State.modCore_rdBelow (s : State) (c : Nat) (f : Core → Core) : s.RdBelow (s.modCore c f) := State.rdBelow_of rfl

theorem State.bumpK_rdBelow (s : State) {f : Fld} (n : Nat) (leaf : 0x02000000 * 64 ≤ f.key) : s.RdBelow (s.bumpK f n) := by
  have counted (sub : Tab Nat) : s.RdBelow { s with sub := sub } := State.rdBelow_of rfl
  unfold State.bumpK
  exact (counted _).trans (State.bump_rdBelow _ _ leaf)

theorem State.waits_rdBelow (s : State) (refused : List Parked) (waiters : List Waiter) (collWait : List (Nat × Nat)) :
    s.RdBelow { s with refused := refused, waiters := waiters, collWait := collWait } := State.rdBelow_of rfl

theorem aheadField_leaf (c : Nat) : 0x02000000 * 64 ≤ (Reg.CORE_RUNAHEAD_STAT_RA_DISCARDED c).key := by
  simp only [Fld.key, Reg.CORE_RUNAHEAD_STAT_RA_DISCARDED, Reg.CORE_RUNAHEAD_STAT]
  omega

theorem fillField_leaf (l : Nat) : 0x02000000 * 64 ≤ (Reg.LEAF_FILL_STAT_FILL_KCYCLES l).key := by
  simp only [Fld.key, Reg.LEAF_FILL_STAT_FILL_KCYCLES, Reg.LEAF_FILL_STAT]
  omega

theorem State.dropAhead_rdBelow (s : State) (c : Nat) : s.RdBelow (s.dropAhead c) :=
  (s.bump_rdBelow _ (aheadField_leaf c)).trans (State.rdBelow_of rfl)

theorem State.smudge_rdBelow (s : State) (g space off n : Nat) : s.RdBelow (s.smudge g space off n) := by
  unfold State.smudge
  split
  · exact State.rdBelow_of rfl
  · exact State.rdBelow_of (s.kvSpoil_regs off n)
  · exact State.rdBelow_of rfl

theorem State.endFiller_rdBelow (s : State) (c i : Nat) : s.RdBelow (s.endFiller c i []) := by
  unfold State.endFiller
  rw [residues_nil]
  exact iteInduction (motive := s.RdBelow) (fun _ => (s.bumpK_rdBelow _ (fillField_leaf (c / 12))).trans (State.modCore_rdBelow ..)) (fun _ => .refl s)

theorem State.dropHeld_rdBelow (s : State) (c : Nat) : s.RdBelow (s.dropHeld c) := by
  unfold State.dropHeld
  dsimp only
  refine foldl_keeps s.RdBelow _ (fun t x h => ?_) _ _ (State.rdBelow_of rfl)
  exact iteInduction (motive := s.RdBelow) (fun _ => h.trans (State.rdBelow_of rfl)) (fun _ => h)

theorem State.abandonCore_rdBelow (s : State) (c : Nat) : s.RdBelow (s.abandonCore c) := by
  have fresh : s.RdBelow s.freshJunk.2 := State.rdBelow_of rfl
  have ahead := fresh.trans (State.dropAhead_rdBelow _ c)
  unfold State.abandonCore
  dsimp only
  refine State.RdBelow.trans ?_ (State.dropHeld_rdBelow _ c)
  refine State.RdBelow.trans ?_ (State.waits_rdBelow ..)
  refine State.RdBelow.trans ?_ (State.modCore_rdBelow _ c _)
  refine State.RdBelow.trans ?_ (foldl_keeps (State.RdBelow _) _ (fun t i h => h.trans (t.endFiller_rdBelow c i)) _ _ (.refl _))
  refine foldl_keeps s.RdBelow _ (fun t e h => ?_) _ _ ahead
  exact foldl_keeps s.RdBelow _ (fun u d h => h.trans (u.smudge_rdBelow ..)) _ t h

theorem State.stopSave_rdBelow (s : State) (t : Nat) : s.RdBelow (s.stopSave t) := by
  unfold State.stopSave
  split
  · exact iteInduction (motive := s.RdBelow)
      (fun _ => foldl_keeps s.RdBelow _ (fun u c h => h.trans (u.modCore_rdBelow ..)) _ s (.refl s)) (fun _ => .refl s)
  · exact .refl s

theorem State.abandonTask_rdBelow (s : State) (t : Nat) : s.RdBelow (s.abandonTask t) :=
  foldl_keeps s.RdBelow _ (fun u c h => h.trans (u.abandonCore_rdBelow c)) _ _ (s.stopSave_rdBelow t)

theorem State.failTask_rdBelow (s : State) (n st : Nat) : s.RdBelow (s.failTask n st) :=
  (s.abandonTask_rdBelow n).trans (State.rdBelow_of rfl)

theorem State.failTasks_rdBelow (s : State) (l : List Task) (st : Nat) : s.RdBelow (l.foldl (fun s t => s.failTask t.num st) s) :=
  foldl_keeps s.RdBelow _ (fun u t h => h.trans (u.failTask_rdBelow t.num st)) l s (.refl s)

theorem State.endJobs_rd (s : State) (st cause : Nat) {g : Fld} (below : g.BelowLeaves) (b : g.BeyondRecords) : (s.endJobs st cause).rd g = s.rd g :=
  (State.jobsFatal_rd _ _ b).trans ((s.failTasks_rdBelow s.tasks st).rd g below)

/-! ### Tasks that end as by a job-fatal fault (R428) -/

/-- A task after its ending with a status. -/
def Task.endWith (x : Task) (st : Nat) : Task :=
  { x with jobFatal := if x.fatal.isSome || x.killed || x.jobFatal.isSome then x.jobFatal else some st, abandoned := true, state := x.state.halted }

theorem State.failTask_tasks (s : State) (n st : Nat) : (s.failTask n st).tasks = s.tasks.map (fun x => if x.num == n then x.endWith st else x) := by
  unfold State.failTask State.modTask
  dsimp only
  rw [State.abandonTask_tasks]
  rfl

/-- A task with this number and property stands in the list. -/
def State.HasTask (s : State) (n : Nat) (P : Task → Prop) : Prop := ∃ y ∈ s.tasks, y.num = n ∧ P y

theorem State.failTask_hasTask (s : State) {n : Nat} (m st : Nat) {P Q : Task → Prop} (hit : n = m → ∀ x, P x → Q (x.endWith st))
    (other : n ≠ m → ∀ x, P x → Q x) (h : s.HasTask n P) : (s.failTask m st).HasTask n Q := by
  obtain ⟨y, mem, num, p⟩ := h
  refine ⟨if y.num == m then y.endWith st else y, ?_, ?_⟩
  · rw [State.failTask_tasks]
    exact List.mem_map_of_mem mem
  · by_cases same : n = m
    · rw [if_pos (beq_iff_eq.mpr (num.trans same))]
      exact ⟨num, hit same y p⟩
    · rw [if_neg (mt beq_iff_eq.mp (num ▸ same))]
      exact ⟨num, other same y p⟩

/-- The ending of a list of tasks ends each of them: a property that no ending takes away, and that the ending of a task of
the number brings. -/
theorem State.failTasks_hasTask {n st : Nat} {P Q : Task → Prop} (brings : ∀ x, P x → Q (x.endWith st)) (stays : ∀ x, Q x → Q (x.endWith st))
    (l : List Task) (listed : ∃ t ∈ l, t.num = n) (s : State) (h : s.HasTask n P) : (l.foldl (fun s t => s.failTask t.num st) s).HasTask n Q := by
  induction l generalizing s with
  | nil => obtain ⟨_, mem, _⟩ := listed; cases mem
  | cons t l ih =>
    by_cases same : n = t.num
    · have ended : (s.failTask t.num st).HasTask n Q := s.failTask_hasTask t.num st (fun _ => brings) (fun other => absurd same other) h
      exact foldl_keeps (fun u : State => u.HasTask n Q) _ (fun u t h => u.failTask_hasTask t.num st (fun _ => stays) (fun _ _ q => q) h) l _ ended
    · refine ih ?_ _ (s.failTask_hasTask t.num st (fun eq => absurd eq same) (fun _ _ p => p) h)
      obtain ⟨x, mem, num⟩ := listed
      rcases List.mem_cons.mp mem with rfl | mem
      · exact absurd num.symm same
      · exact ⟨x, mem, num⟩

/-- Every task ends. -/
theorem State.failAll_abandons (s : State) (st : Nat) {t : Task} (mem : t ∈ s.tasks) : (s.failAll st).HasTask t.num (fun y => y.abandoned = true) :=
  State.failTasks_hasTask (P := fun _ => True) (fun _ _ => rfl) (fun _ _ => rfl) s.tasks ⟨t, mem, rfl⟩ s ⟨t, mem, rfl, trivial⟩

/-- A task that has not ended yet takes the status of the fault. -/
theorem Task.endWith_fresh {x : Task} (st : Nat) (fresh : x.fatal = none ∧ x.killed = false ∧ x.jobFatal = none) :
    (x.endWith st).jobFatal = some st ∧ (x.endWith st).abandoned = true := by
  obtain ⟨fatal, killed, none_⟩ := fresh
  exact ⟨by simp [Task.endWith, fatal, killed, none_], rfl⟩

/-- A task that has taken a status keeps it. -/
theorem Task.endWith_taken {x : Task} (st st' : Nat) (taken : x.jobFatal = some st ∧ x.abandoned = true) :
    (x.endWith st').jobFatal = some st ∧ (x.endWith st').abandoned = true :=
  ⟨by simp [Task.endWith, taken.1], rfl⟩

/-- A task of a list that ends takes the status. -/
theorem State.failTasks_status {st : Nat} (l : List Task) {t : Task} (listed : ∃ x ∈ l, x.num = t.num) (s : State) (mem : t ∈ s.tasks)
    (fresh : t.fatal = none ∧ t.killed = false ∧ t.jobFatal = none) :
    (l.foldl (fun s t => s.failTask t.num st) s).HasTask t.num (fun y => y.jobFatal = some st ∧ y.abandoned = true) :=
  State.failTasks_hasTask (P := fun y => y.fatal = none ∧ y.killed = false ∧ y.jobFatal = none) (fun _ => Task.endWith_fresh st)
    (fun _ => Task.endWith_taken st st) l listed s ⟨t, mem, rfl, fresh⟩

/-! ### A fail-stop (R414) -/

theorem State.raiseIbi_frame (s : State) (b : Byte) : s.raiseIbi b = { s with ibis := (s.raiseIbi b).ibis, sideOut := (s.raiseIbi b).sideOut } := by
  unfold State.raiseIbi
  split <;> rfl

/-- The record of a fail-stop, and the interrupt of the management bus. -/
def State.stopRecorded (s : State) (f : Fault_) : State :=
  (({ s.failAll Status.ok with failed := true } : State).writeRecord f).raiseIbi 3

/-- The declaration of a fail-stop after boot, the slot's failure before. -/
def State.stopDeclared (s : State) : State := if s.booted then s.sendDeclaration s.modNum 2 else s.bumpFail

theorem State.failStop_eq {s : State} (alive : s.failed = false) (f : Fault_) :
    s.failStop f = (s.stopRecorded { f with sev := 5, time := (s.failAll Status.ok).rackTime, nested := s.handlingFault }).stopDeclared :=
  if_neg (Bool.eq_false_iff.mp alive)

/-- What a fail-stop leaves of the boards' own memories, the commands to come, and of a module that has failed. -/
structure State.StopKeeps (s t : State) : Prop where
  fuses   : t.fuses = s.fuses
  fru     : t.fru = s.fru
  images  : t.flash.images = s.flash.images
  pending : t.pending = s.pending

theorem State.StopKeeps.trans {s t u : State} (a : s.StopKeeps t) (b : t.StopKeeps u) : s.StopKeeps u :=
  ⟨b.fuses.trans a.fuses, b.fru.trans a.fru, b.images.trans a.images, b.pending.trans a.pending⟩

theorem State.OnlyEnds.stopKeeps {s t : State} (h : s.OnlyEnds t) : s.StopKeeps t :=
  ⟨(congrArg State.fuses h.eq :), (congrArg State.fru h.eq :), (congrArg (fun u : State => u.flash.images) h.eq :), (congrArg State.pending h.eq :)⟩

theorem State.raiseIbi_stopKeeps (s : State) (b : Byte) : s.StopKeeps (s.raiseIbi b) := by
  rw [State.raiseIbi_frame]
  exact ⟨rfl, rfl, rfl, rfl⟩

theorem State.stopDeclared_stopKeeps (s : State) : s.StopKeeps s.stopDeclared := by
  refine iteInduction (motive := s.StopKeeps) (fun _ => ⟨rfl, rfl, rfl, rfl⟩) (fun _ => ?_)
  exact iteInduction (motive := s.StopKeeps) (fun _ => ⟨rfl, rfl, rfl, rfl⟩) (fun _ => ⟨rfl, rfl, rfl, rfl⟩)

theorem State.stopRecorded_stopKeeps (s : State) (f : Fault_) : s.StopKeeps (s.stopRecorded f) := by
  have marked : (s.failAll Status.ok).StopKeeps { s.failAll Status.ok with failed := true } := ⟨rfl, rfl, rfl, rfl⟩
  exact (((s.failAll_onlyEnds Status.ok).stopKeeps.trans marked).trans (State.writeRecord_onlyRecords _ f).onlyEnds.stopKeeps).trans
    (State.raiseIbi_stopKeeps _ 3)

theorem State.stopRecorded_failed (s : State) (f : Fault_) : (s.stopRecorded f).failed = true := by
  unfold State.stopRecorded
  rw [State.raiseIbi_frame]
  have recorded := ({ s.failAll Status.ok with failed := true } : State).writeRecord_onlyRecords f
  exact (congrArg State.failed recorded.eq :)

theorem State.stopDeclared_failed (s : State) : s.stopDeclared.failed = s.failed := by
  refine iteInduction (motive := fun t : State => t.failed = s.failed) (fun _ => rfl) (fun _ => ?_)
  exact iteInduction (motive := fun t : State => t.failed = s.failed) (fun _ => rfl) (fun _ => rfl)

/-- A fail-stop stops the module. -/
theorem State.failStop_failed (s : State) (f : Fault_) : (s.failStop f).failed = true := by
  by_cases dead : s.failed = true
  · unfold State.failStop
    rw [if_pos dead]
    exact dead
  · rw [s.failStop_eq (Bool.eq_false_iff.mpr dead), State.stopDeclared_failed, State.stopRecorded_failed]

theorem State.failStop_stopKeeps (s : State) (f : Fault_) : s.StopKeeps (s.failStop f) := by
  by_cases dead : s.failed = true
  · unfold State.failStop
    rw [if_pos dead]
    exact ⟨rfl, rfl, rfl, rfl⟩
  · rw [s.failStop_eq (Bool.eq_false_iff.mpr dead)]
    exact (s.stopRecorded_stopKeeps _).trans (State.stopDeclared_stopKeeps _)

/-! ### A cold module (R398) -/

/-- The state s with the registers, the optics and the latch's time of t. -/
def State.withOptics (s t : State) : State := { s with regs := t.regs, engines := t.engines, ports := t.ports, openAt := t.openAt }

/-- From s the state comes to t by changing only registers above the boot's, and the optics. -/
structure State.OnlyOptics (s t : State) : Prop where
  eq : t = s.withOptics t
  rd : ∀ g : Fld, g.key < 0x00800000 * 64 → t.rd g = s.rd g

theorem State.OnlyOptics.refl (s : State) : s.OnlyOptics s := ⟨rfl, fun _ _ => rfl⟩

theorem State.OnlyOptics.trans {s t u : State} (a : s.OnlyOptics t) (b : t.OnlyOptics u) : s.OnlyOptics u := by
  have step := congrArg (fun x => State.withOptics x u) a.eq
  exact ⟨b.eq.trans step, fun g h => (b.rd g h).trans (a.rd g h)⟩

theorem State.wr_onlyOptics (s : State) {f : Fld} (v : Nat) (high : 0x00800000 * 64 ≤ f.key) : s.OnlyOptics (s.wr f v) :=
  ⟨rfl, fun _ low => s.rd_wr_ne _ _ _ (Nat.ne_of_lt (Nat.lt_of_lt_of_le low high))⟩

theorem State.modPort_onlyOptics (s : State) (p : Nat) (f : Port → Port) : s.OnlyOptics (s.modPort p f) := ⟨rfl, fun _ _ => rfl⟩

theorem State.modEngine_onlyOptics (s : State) (e : Nat) (f : Engine → Engine) : s.OnlyOptics (s.modEngine e f) := ⟨rfl, fun _ _ => rfl⟩

theorem State.openAt_onlyOptics (s : State) (at_ : Option Nat) : s.OnlyOptics { s with openAt := at_ } := ⟨rfl, fun _ _ => rfl⟩

theorem engineField_high {e x lo w rst : Nat} : 0x00800000 * 64 ≤ (⟨0x00800000 + x + e * 0x20000, lo, w, rst⟩ : Fld).key := by
  simp only [Fld.key]
  omega

theorem emitField_high {e k lo w rst : Nat} : 0x00800000 * 64 ≤ (⟨Reg.OE_EMIT e k, lo, w, rst⟩ : Fld).key := by
  simp only [Fld.key, Reg.OE_EMIT]
  omega

theorem State.physical_onlyOptics (old s : State) : s.OnlyOptics (old.physical s) := by
  unfold State.physical
  dsimp only
  refine foldl_keeps s.OnlyOptics _ (fun t p h => h.trans (t.modPort_onlyOptics ..)) _ _ ?_
  refine State.OnlyOptics.trans ?_ (State.openAt_onlyOptics _ _)
  simp only [List.foldl_cons, List.foldl_nil]
  refine State.OnlyOptics.trans ?_ (State.wr_onlyOptics _ _ (by decide))
  refine State.OnlyOptics.trans ?_ (State.wr_onlyOptics _ _ (by decide))
  refine State.OnlyOptics.trans ?_ (State.wr_onlyOptics _ _ (by decide))
  refine State.OnlyOptics.trans ?_ (State.wr_onlyOptics _ _ (by decide))
  refine State.OnlyOptics.trans ?_ (State.wr_onlyOptics _ _ (by decide))
  refine foldl_keeps s.OnlyOptics _ (fun t e h => (h.trans (State.wr_onlyOptics t _ ?_)).trans (State.modEngine_onlyOptics ..)) _ _ (.refl s)
  exact engineField_high (x := 8)

theorem State.fromFlash_onlyOptics (s : State) : s.OnlyOptics s.fromFlash := by
  unfold State.fromFlash
  dsimp only
  refine foldl_keeps s.OnlyOptics _ (fun t x h => ?_) _ _ ?_
  · have marked := h.trans (t.wr_onlyOptics (f := Reg.OE_STATUS_SERVICE (x / 12)) 1 (engineField_high (x := 8)))
    split
    · exact marked.trans (State.modPort_onlyOptics ..)
    · exact marked
  · refine foldl_keeps s.OnlyOptics _ (fun t r h => h.trans (t.wr_onlyOptics _ emitField_high)) _ _ ?_
    exact foldl_keeps s.OnlyOptics _ (fun t r h => h.trans (t.wr_onlyOptics _ emitField_high)) _ _ (.refl s)

/-- What a module holds whose every domain has lost its state. -/
def State.coldBase (s : State) : State :=
  { State.reset with
    pending := s.pending, clock := s.clock, freeCtr := s.freeCtr, prsnt := s.prsnt, perst := s.perst, powered := s.powered,
    input := s.input, volt := s.volt, straps := s.straps, strapsDue := s.strapsDue, fru := s.fru, flash := s.flash, fuses := s.fuses,
    hostOut := s.hostOut, sideOut := s.sideOut, testLow := s.testLow, charging := s.charging }

theorem State.cold_onlyOptics (s : State) : s.coldBase.OnlyOptics s.cold :=
  (s.physical_onlyOptics s.coldBase).trans (State.fromFlash_onlyOptics _)

end Sys2Proof.Machine
end

section
/-! The input's states, loss and return of power (R15, R395-R397, R407). -/

namespace Sys2Proof.Machine

/-! ### The input (R395) -/

/-- What entering a state of the input leaves: its voltage, and the cap limited while it is low or a converter has failed. -/
theorem State.setInput_effect (s : State) {st v : Nat} (small : v < 65536) :
    (s.setInput st v).input = st ∧ (s.setInput st v).volt = v ∧ (s.setInput st v).rd Reg.POW_INPUT_VOLT_10MV = v
    ∧ (s.setInput st v).rd Reg.POW_CAP_LIMITED = (if st = 1 ∨ s.rdb Reg.POW_STAT_IBC_FAIL = true then 1 else 0)
    ∧ s.setInput st v = { s with input := st, volt := v, regs := (s.setInput st v).regs } := by
  unfold State.setInput State.limitCap State.wrb
  obtain ⟨t, ht⟩ : ∃ t, t = ({ s with input := st, volt := v } : State).wr Reg.POW_INPUT_VOLT_10MV v := ⟨_, rfl⟩
  have volt : t.rd Reg.POW_INPUT_VOLT_10MV = v := by
    rw [ht, State.rd_wr]
    exact Nat.mod_eq_of_lt small
  have ibc : t.rdb Reg.POW_STAT_IBC_FAIL = s.rdb Reg.POW_STAT_IBC_FAIL := by
    unfold State.rdb
    rw [ht, State.rd_wr_ne _ _ _ _ (by decide)]
    rfl
  have input : t.input = st := by rw [ht]; rfl
  have voltage : t.volt = v := by rw [ht]; rfl
  have frame : t = { s with input := st, volt := v, regs := t.regs } := by rw [ht]; rfl
  rw [← ht, ibc, input]
  refine ⟨input, voltage, ?_, ?_, ?_⟩
  · rw [State.rd_wr_ne _ _ _ _ (by decide), volt]
  · have limits : (st == 1 || s.rdb Reg.POW_STAT_IBC_FAIL) = decide (st = 1 ∨ s.rdb Reg.POW_STAT_IBC_FAIL = true) :=
      Bool.eq_iff_iff.mpr (by simp)
    rw [State.rd_wr, limits]
    by_cases low : st = 1 ∨ s.rdb Reg.POW_STAT_IBC_FAIL = true
    · rw [if_pos low, decide_eq_true low]
      rfl
    · rw [if_neg low, decide_eq_false low]
      rfl
  · conv_lhs => rw [frame]
    rfl

/-- A record of the input leaves its state, its voltage and the cap. -/
theorem State.inputRecord_effect (s : State) (v : Nat) :
    (s.inputRecord v).input = s.input ∧ (s.inputRecord v).volt = s.volt ∧ (s.inputRecord v).cores = s.cores
    ∧ (s.inputRecord v).rd Reg.POW_INPUT_VOLT_10MV = s.rd Reg.POW_INPUT_VOLT_10MV
    ∧ (s.inputRecord v).rd Reg.POW_CAP_LIMITED = s.rd Reg.POW_CAP_LIMITED := by
  have records := s.raise_onlyRecords { Fault_.blank 0 Status.ok 0x0701 with info0 := BitVec.ofNat 64 v }
  have volt : Reg.POW_INPUT_VOLT_10MV.BeyondRecords := ⟨by decide⟩
  have cap : Reg.POW_CAP_LIMITED.BeyondRecords := ⟨by decide⟩
  exact ⟨(congrArg State.input records.eq :), (congrArg State.volt records.eq :), (congrArg State.cores records.eq :),
    s.raise_rd _ volt, s.raise_rd _ cap⟩

/-- What the input reads in a state, before a record of it and after. -/
structure State.InputReads (s u : State) (st v : Nat) : Prop where
  input : u.input = st
  volt  : u.volt = v
  reg   : u.rd Reg.POW_INPUT_VOLT_10MV = v
  cap   : u.rd Reg.POW_CAP_LIMITED = if st = 1 ∨ s.rdb Reg.POW_STAT_IBC_FAIL = true then 1 else 0
  cores : u.cores = s.cores

theorem State.setInput_reads (s : State) {st v : Nat} (small : v < 65536) : s.InputReads (s.setInput st v) st v := by
  obtain ⟨input, volt, reg, cap, frame⟩ := s.setInput_effect (st := st) small
  exact ⟨input, volt, reg, cap, (congrArg State.cores frame :)⟩

theorem State.InputReads.recorded {s u : State} {st v : Nat} (h : s.InputReads u st v) : s.InputReads (u.inputRecord v) st v := by
  obtain ⟨input, volt, cores, reg, cap⟩ := u.inputRecord_effect v
  exact ⟨input.trans h.input, volt.trans h.volt, reg.trans h.reg, cap.trans h.cap, cores.trans h.cores⟩

/-! ### Loss and return of power (R15, R395, R396) -/

/-- What a loss of power leaves: nothing of the domains; the fuses, FRU memory and flash are the boards' own. -/
structure State.PowerLost (s u : State) : Prop where
  powered : u.powered = false
  cores   : u.cores = State.reset.cores
  hm      : u.hm = Mem.empty
  lm      : u.lm = Mem.empty
  tasks   : u.tasks = []
  failed  : u.failed = false
  fuses   : u.fuses = s.fuses
  fru     : u.fru = s.fru
  flash   : u.flash = s.flash
  pending : u.pending = s.pending
  input   : u.input = 3

theorem State.powerDown_lost (s : State) : s.PowerLost s.powerDown := by
  have eq := s.cold_onlyOptics.eq
  unfold State.powerDown
  generalize s.cold = c at eq ⊢
  exact ⟨rfl, (congrArg State.cores eq :), (congrArg State.hm eq :), (congrArg State.lm eq :), (congrArg State.tasks eq :),
    (congrArg State.failed eq :), (congrArg State.fuses eq :), (congrArg State.fru eq :), (congrArg State.flash eq :),
    (congrArg State.pending eq :), rfl⟩

/-- PRSNT_N goes with the power. -/
theorem State.PowerLost.unmated {s u : State} (h : s.PowerLost u) : s.PowerLost { u with prsnt := false } :=
  ⟨h.powered, h.cores, h.hm, h.lm, h.tasks, h.failed, h.fuses, h.fru, h.flash, h.pending, h.input⟩

/-- What a return of power leaves. -/
structure State.PowerBack (s u : State) : Prop where
  powered  : u.powered = true
  straps   : u.strapsDue = true
  input    : u.input = 0
  charging : u.charging = false
  stage    : u.rd Reg.GLB_BOOT_STAGE = 0
  cores    : u.cores = State.reset.cores
  failed   : u.failed = false
  fuses    : u.fuses = s.fuses
  fru      : u.fru = s.fru
  flash    : u.flash = s.flash

theorem State.powerUp_back (s : State) : s.PowerBack s.powerUp := by
  have optics := s.cold_onlyOptics
  have eq := optics.eq
  have stage : s.cold.rd Reg.GLB_BOOT_STAGE = 0 := (optics.rd _ (by decide)).trans rfl
  unfold State.powerUp
  generalize s.cold = c at eq stage ⊢
  exact ⟨rfl, rfl, rfl, rfl, stage, (congrArg State.cores eq :), (congrArg State.failed eq :), (congrArg State.fuses eq :),
    (congrArg State.fru eq :), (congrArg State.flash eq :)⟩

/-- The input monitor's reading after a return of power takes nothing of it back. -/
theorem State.PowerBack.reads {s u : State} (h : s.PowerBack u) {v : Nat} (small : v < 65536) : s.PowerBack (u.setInput 0 v) := by
  obtain ⟨input, -, -, -, frame⟩ := u.setInput_effect (st := 0) small
  have stage : (u.setInput 0 v).rd Reg.GLB_BOOT_STAGE = u.rd Reg.GLB_BOOT_STAGE := by
    unfold State.setInput State.limitCap State.wrb
    rw [State.rd_wr_ne _ _ _ _ (by decide), State.rd_wr_ne _ _ _ _ (by decide)]
    rfl
  exact ⟨(congrArg State.powered frame :).trans h.powered, (congrArg State.strapsDue frame :).trans h.straps, input,
    (congrArg State.charging frame :).trans h.charging, stage.trans h.stage, (congrArg State.cores frame :).trans h.cores,
    (congrArg State.failed frame :).trans h.failed, (congrArg State.fuses frame :).trans h.fuses, (congrArg State.fru frame :).trans h.fru,
    (congrArg State.flash frame :).trans h.flash⟩

/-! ### Converters (R397) -/

/-- A failed converter is flagged, and limits the cap. -/
theorem State.ibcFlagged (s : State) :
    ((s.wr Reg.POW_STAT_IBC_FAIL 1).limitCap).rd Reg.POW_STAT_IBC_FAIL = 1 ∧ ((s.wr Reg.POW_STAT_IBC_FAIL 1).limitCap).rd Reg.POW_CAP_LIMITED = 1
    ∧ ((s.wr Reg.POW_STAT_IBC_FAIL 1).limitCap).cores = s.cores := by
  obtain ⟨t, ht⟩ : ∃ t, t = s.wr Reg.POW_STAT_IBC_FAIL 1 := ⟨_, rfl⟩
  have flagged : t.rd Reg.POW_STAT_IBC_FAIL = 1 := by rw [ht, State.rd_wr]; rfl
  have limits : (t.input == 1 || t.rdb Reg.POW_STAT_IBC_FAIL) = true := by simp [State.rdb, flagged]
  rw [← ht]
  unfold State.limitCap State.wrb
  rw [limits]
  refine ⟨?_, ?_, ?_⟩
  · rw [State.rd_wr_ne _ _ _ _ (by decide), flagged]
  · rw [State.rd_wr]
    rfl
  · rw [State.wr_cores, ht, State.wr_cores]

/-- Settles O54: the input through `setInput`, every loss through a cold module, every return through `powerUp`. -/
theorem powerComesAndGoes : Obligations.PowerComesAndGoes := by
  unfold Obligations.PowerComesAndGoes
  intro v i s off on reads
  have lost : ∀ {t u : State}, t.PowerLost u → t.fuses = s.fuses → t.fru = s.fru → t.flash.images = s.flash.images → t.pending = s.pending → off u :=
    fun h fuses fru images pending => ⟨h.powered, h.cores, h.hm, h.lm, h.tasks, h.failed, h.fuses.trans fuses, h.fru.trans fru,
      (congrArg Flash.images h.flash).trans images, h.pending.trans pending⟩
  have back : ∀ {u : State}, s.PowerBack u → on u :=
    fun h => ⟨h.powered, h.straps, h.input, h.charging, h.stage, h.cores, h.failed, h.fuses, h.fru, h.flash⟩
  have reading : ∀ {u : State} {st : Nat}, s.InputReads u st v → reads u st := fun h => ⟨h.input, h.volt, h.reg, h.cap⟩
  have down := s.powerDown_lost
  refine ⟨?powered, ?dark, ?breaks, ?mates, ?mated, ?soft, ?restores, ?powerOn⟩
  case powered =>
    intro powered
    refine ⟨?low, ?high, ?operating, ?under, ?overvoltage, ?converter, ?refclk⟩
    case low =>
      intro atLeast below
      have inState : ¬ ((!s.powered) = true ∨ v < 4500 ∨ 5000 ≤ v) := by simp [powered]; omega
      have entered := s.setInput_reads (st := 1) (v := v) (by omega)
      have frame := (s.setInput_effect (st := 1) (v := v) (by omega)).2.2.2.2
      by_cases already : s.input = 1
      · exact ⟨_, congrArg Host.Outcome.next ((if_neg inState).trans (if_pos already)), reading entered, entered.cores, fun _ => frame⟩
      · exact ⟨_, congrArg Host.Outcome.next ((if_neg inState).trans (if_neg already)), reading entered.recorded, entered.recorded.cores,
          fun same => absurd same already⟩
    case high =>
      intro above atMost
      have inState : ¬ ((!s.powered) = true ∨ v ≤ 6400 ∨ 6600 < v) := by simp [powered]; omega
      have entered := s.setInput_reads (st := 2) (v := v) (by omega)
      by_cases already : s.input = 2
      · exact ⟨_, congrArg Host.Outcome.next ((if_neg inState).trans (if_pos already)), reading entered, entered.cores⟩
      · exact ⟨_, congrArg Host.Outcome.next ((if_neg inState).trans (if_neg already)), reading entered.recorded, entered.recorded.cores⟩
    case operating =>
      intro atLeast atMost
      have inState : ¬ ((!s.powered) = true ∨ v < 5000 ∨ 6400 < v) := by simp [powered]; omega
      exact ⟨_, congrArg Host.Outcome.next (if_neg inState), reading (s.setInput_reads (by omega)), (s.setInput_effect (by omega)).2.2.2.2⟩
    case under =>
      have stopped := s.failStop_stopKeeps (Fault_.blank 5 Status.ok 0x0704)
      have dark := (s.failStop (Fault_.blank 5 Status.ok 0x0704)).powerDown_lost
      exact ⟨_, congrArg Host.Outcome.next (if_neg (by simp [powered])),
        lost dark stopped.fuses stopped.fru stopped.images stopped.pending, dark.input⟩
    case overvoltage => exact ⟨_, congrArg Host.Outcome.next (if_pos powered), lost down rfl rfl rfl rfl, down.input, down.flash⟩
    case converter =>
      obtain ⟨flagged, limited, cores⟩ := s.ibcFlagged
      have executed : ∃ f t : _, exec (.ibcFail i) s = .next (State.jobsFatal t f) ∧ t = (s.wr Reg.POW_STAT_IBC_FAIL 1).limitCap.free.2 :=
        ⟨_, _, congrArg Host.Outcome.next (if_neg (by simp [powered])), rfl⟩
      obtain ⟨f, t, runs, ht⟩ := executed
      have flag : Reg.POW_STAT_IBC_FAIL.BeyondRecords := ⟨by decide⟩
      have cap : Reg.POW_CAP_LIMITED.BeyondRecords := ⟨by decide⟩
      have freed : ∀ x : State, x.free.2.regs = x.regs ∧ x.free.2.cores = x.cores := fun _ => ⟨rfl, rfl⟩
      obtain ⟨regs, kept⟩ := freed (s.wr Reg.POW_STAT_IBC_FAIL 1).limitCap
      rw [← ht] at regs kept
      obtain ⟨u, hu⟩ : ∃ u, u = t.jobsFatal f := ⟨_, rfl⟩
      rw [← hu] at runs
      refine ⟨u, runs, ?_, ?_, ?_⟩
      · rw [hu, State.jobsFatal_rd _ _ flag, State.rd_congr _ _ _ regs, flagged]
      · rw [hu, State.jobsFatal_rd _ _ cap, State.rd_congr _ _ _ regs, limited]
      · rw [hu]
        exact (congrArg State.cores (State.jobsFatal_onlyRecords _ f).eq :).trans (kept.trans cores)
    case refclk => exact fun _ => ⟨_, congrArg Host.Outcome.next (if_pos powered), s.failStop_failed _⟩
  case dark =>
    intro dark
    have gone : (!s.powered) = true := by simp [dark]
    exact ⟨congrArg Host.Outcome.next (if_pos (.inl gone)), congrArg Host.Outcome.next (if_pos gone),
      congrArg Host.Outcome.next (if_neg (by simp [dark]))⟩
  case breaks =>
    have executed : exec .prsntBreak s = .next { s.powerDown with prsnt := false } := rfl
    rw [executed]
    generalize s.powerDown = u at down
    have unmated := down.unmated
    exact ⟨_, rfl, lost unmated rfl rfl rfl rfl, rfl, unmated.flash⟩
  case mates => exact fun out => congrArg Host.Outcome.next (if_neg (by simp [out]))
  case mated => exact fun in_ => congrArg Host.Outcome.next (if_pos in_)
  case soft => exact fun charging mated => ⟨_, congrArg Host.Outcome.next (if_pos ⟨charging, mated⟩), back s.powerUp_back⟩
  case restores =>
    intro dark mated gone _
    exact ⟨_, congrArg Host.Outcome.next (if_pos ⟨by simp [dark], mated, gone⟩), back s.powerUp_back⟩
  case powerOn =>
    intro mated cold atLeast atMost
    have starts : ¬ ((!s.prsnt) = true ∨ (s.powered = true ∧ s.rd Reg.GLB_BOOT_STAGE ≠ 0) ∨ v < 5000 ∨ 6400 < v) := by
      rintro (out | ⟨on_, booting⟩ | short | above)
      · simp [mated] at out
      · rcases cold with dark | unbooted
        · simp [dark] at on_
        · exact booting unbooted
      · omega
      · omega
    have small : v < 65536 := by omega
    obtain ⟨-, volt, reg, -, -⟩ := s.powerUp.setInput_effect (st := 0) small
    exact ⟨_, congrArg Host.Outcome.next (if_neg starts), back (s.powerUp_back.reads small), volt, reg⟩

end Sys2Proof.Machine
end

section
/-! A link that goes down (R255, R285, R286), and every port's going down at once (R330, R414, R427). -/

namespace Sys2Proof.Machine

/-! ### The parts of the state that a link's going down reaches -/

/-- The state s with those parts taken from t that a link's going down reaches: registers and records, held packets, ports. -/
def State.withLink (s t : State) : State := { s.withRecords t with held := t.held, ports := t.ports }

/-- From s the state comes to t by changing only those parts. -/
structure State.OnlyLink (s t : State) : Prop where
  eq : t = s.withLink t

theorem State.OnlyLink.refl (s : State) : s.OnlyLink s := ⟨rfl⟩

theorem State.OnlyLink.trans {s t u : State} (a : s.OnlyLink t) (b : t.OnlyLink u) : s.OnlyLink u := by
  have step := congrArg (fun x => State.withLink x u) a.eq
  exact ⟨b.eq.trans step⟩

theorem State.onlyLink_recorded (s t : State) : s.OnlyLink (s.withRecords t) := ⟨rfl⟩

theorem State.OnlyRecords.onlyLink {s t : State} (h : s.OnlyRecords t) : s.OnlyLink t := by
  rw [h.eq]
  exact s.onlyLink_recorded t

theorem State.onlyLink_lit (s : State) (held : List Held) (ports : Vector Port 20) : s.OnlyLink { s with held := held, ports := ports } := ⟨rfl⟩

theorem State.wr_onlyLink (s : State) (f : Fld) (v : Nat) : s.OnlyLink (s.wr f v) := ⟨rfl⟩

theorem State.modPort_onlyLink (s : State) (p : Nat) (f : Port → Port) : s.OnlyLink (s.modPort p f) := ⟨rfl⟩

/-! ### The pieces of a link's going down -/

/-- A register field that no record touches, and none of a list. -/
structure Fld.Beside (g : Fld) (fs : List Fld) : Prop where
  records : g.BeyondRecords
  apart   : ∀ f ∈ fs, g.key ≠ f.key

theorem Fld.Beside.left {g : Fld} {fs gs : List Fld} (h : g.Beside (fs ++ gs)) : g.Beside fs :=
  ⟨h.records, fun f mem => h.apart f (List.mem_append_left _ mem)⟩

theorem Fld.Beside.right {g : Fld} {fs gs : List Fld} (h : g.Beside (fs ++ gs)) : g.Beside gs :=
  ⟨h.records, fun f mem => h.apart f (List.mem_append_right _ mem)⟩

/-- What a piece keeps: registers but those of records and some of its own, and each port's loopback. -/
structure State.KeepsLinks (s t : State) (fs : List Fld) : Prop where
  only : s.OnlyLink t
  rd   : ∀ g : Fld, g.Beside fs → t.rd g = s.rd g
  loop : ∀ q, q < 20 → (t.port q).loop = (s.port q).loop

theorem State.KeepsLinks.refl (s : State) : s.KeepsLinks s [] := ⟨.refl s, fun _ _ => rfl, fun _ _ => rfl⟩

theorem State.KeepsLinks.trans {s t u : State} {fs gs : List Fld} (a : s.KeepsLinks t fs) (b : t.KeepsLinks u gs) : s.KeepsLinks u (fs ++ gs) :=
  ⟨a.only.trans b.only, fun g h => (b.rd g h.right).trans (a.rd g h.left), fun q h => (b.loop q h).trans (a.loop q h)⟩

theorem State.wr_keepsLinks (s : State) (f : Fld) (v : Nat) : s.KeepsLinks (s.wr f v) [f] :=
  ⟨s.wr_onlyLink f v, fun _ b => s.rd_wr_ne _ _ _ (b.apart f (List.mem_singleton_self f)), fun _ _ => rfl⟩

theorem State.modPort_keepsLinks (s : State) (q : Nat) {f : Port → Port} (same : ∀ t, (f t).loop = t.loop) : s.KeepsLinks (s.modPort q f) [] := by
  refine ⟨s.modPort_onlyLink q f, fun _ _ => rfl, fun r known => ?_⟩
  by_cases here : r = q
  · subst here
    rw [State.port_modPort _ _ _ known]
    exact same _
  · exact congrArg Port.loop (getD_set_other _ _ _ _ _ here)

theorem State.raise_keepsLinks (s : State) (f : Fault_) : s.KeepsLinks (s.raise f) [] := by
  have records := s.raise_onlyRecords f
  have ports : (s.raise f).ports = s.ports := (congrArg State.ports records.eq :)
  exact ⟨records.onlyLink, fun g b => s.raise_rd f b.records, fun q _ => congrArg (fun v => (v.getD q Port.reset).loop) ports⟩

theorem State.dropCopies_keepsLinks (s : State) (a b : Nat) : s.KeepsLinks (s.dropCopies a b) [] := by
  refine ⟨s.onlyLink_lit _ _, fun _ _ => rfl, fun q known => ?_⟩
  unfold State.dropCopies State.port
  dsimp only
  rw [getD_map _ _ q Port.reset Port.reset known]

theorem State.freeBuf_keepsLinks (s : State) (a b : Nat) : s.KeepsLinks (s.freeBuf a b) [] := by
  unfold State.freeBuf
  split
  · exact .refl s
  · exact s.modPort_keepsLinks a fun _ => rfl

theorem State.abandonRx_keepsLinks (s : State) (q vc : Nat) : s.KeepsLinks (s.abandonRx q vc) [] := by
  unfold State.abandonRx
  split
  case h_1 r _ =>
    dsimp only
    refine State.KeepsLinks.trans (fs := []) (gs := []) ?_ (State.freeBuf_keepsLinks _ q r.id)
    refine State.KeepsLinks.trans (fs := []) (gs := []) (s.dropCopies_keepsLinks q r.id) ?_
    exact State.modPort_keepsLinks _ q fun _ => rfl
  case h_2 => exact .refl s

theorem State.abandonAll_keepsLinks (s : State) (q : Nat) : s.KeepsLinks (s.abandonAll q) [] :=
  foldl_keeps (fun t : State => s.KeepsLinks t []) _ (fun t r h => h.trans (t.abandonRx_keepsLinks q r.vc)) _ s (.refl s)

/-- A port without a packet in progress has none to abandon. -/
theorem State.abandonAll_whole (s : State) (p : Nat) (whole : ∀ r ∈ (s.port p).rxProg, r.total ≤ r.got) : s.abandonAll p = s := by
  have none_ : (s.port p).rxProg.filter (fun r => decide (r.got < r.total)) = [] :=
    List.filter_eq_nil_iff.mpr fun r mem => by simpa using whole r mem
  unfold State.abandonAll
  rw [none_]
  rfl

theorem State.requeue_keepsLinks (s : State) (p : Nat) : s.KeepsLinks (s.requeue p) [] := by
  have held : s.KeepsLinks { s with held := s.held ++ (s.port p).txq.map (fun (x : Nat × Packet × Held) => x.2.2) } [] :=
    ⟨s.onlyLink_lit _ _, fun _ _ => rfl, fun _ _ => rfl⟩
  refine held.trans (gs := []) ?_
  exact State.modPort_keepsLinks _ p fun _ => rfl

/-- The fields that the optics' idling writes. -/
def idleFields (p : Nat) : List Fld := [Reg.OE_CAL_ACTIVE (p / 2) (p % 2), Reg.OE_STATUS_SWAP_STATE (p / 2)]

theorem State.opticsDown_keepsLinks (s : State) (p : Nat) : s.KeepsLinks (s.opticsDown p) (idleFields p) := by
  have idle := s.wr_keepsLinks (Reg.OE_CAL_ACTIVE (p / 2) (p % 2)) 0
  have still : s.KeepsLinks (s.wr (Reg.OE_CAL_ACTIVE (p / 2) (p % 2)) 0) (idleFields p) :=
    ⟨idle.only, fun g b => idle.rd g (Fld.Beside.left (gs := [Reg.OE_STATUS_SWAP_STATE (p / 2)]) b), idle.loop⟩
  unfold State.opticsDown
  exact iteInduction (motive := fun t : State => s.KeepsLinks t (idleFields p)) (fun _ => idle.trans (State.wr_keepsLinks _ _ _)) (fun _ => still)

theorem State.bringUp_keepsLinks (s : State) (p : Nat) : s.KeepsLinks (s.bringUp p) [Reg.LK_STATE_STATE p] := by
  refine iteInduction (motive := fun t : State => s.KeepsLinks t [Reg.LK_STATE_STATE p]) (fun _ => ?_) (fun _ => ?_)
  · refine State.KeepsLinks.trans (fs := []) ?_ (State.wr_keepsLinks _ (Reg.LK_STATE_STATE p) 1)
    exact State.modPort_keepsLinks _ p fun _ => rfl
  · exact ⟨.refl s, fun _ _ => rfl, fun _ _ => rfl⟩

/-! ### What a port keeps while packets of others are freed -/

/-- A port without packets waiting, arriving or framed. -/
def Port.Emptied (t : Port) : Prop := t.txq = [] ∧ t.rxProg = [] ∧ t.framed = false

theorem State.freeBuf_emptied (s : State) (a b p : Nat) (h : (s.port p).Emptied) : ((s.freeBuf a b).port p).Emptied := by
  unfold State.freeBuf
  split
  case h_1 => exact h
  case h_2 r found =>
    by_cases here : p = a
    · subst here
      rw [h.2.1] at found
      cases found
    · have same : ∀ f, (s.modPort a f).port p = s.port p := fun f => getD_set_other _ _ _ _ _ here
      dsimp only
      rw [same]
      exact h

theorem State.bringUp_emptied (s : State) (p : Nat) (known : p < 20) (h : (s.port p).Emptied) : ((s.bringUp p).port p).Emptied := by
  unfold State.bringUp
  split
  · obtain ⟨queue, progress, -⟩ := h
    have port : ∀ f v, ((s.modPort p f).setLk p v).port p = f (s.port p) := fun f _ => State.port_modPort _ _ _ known
    rw [port]
    exact ⟨queue, progress, rfl⟩
  · exact h

/-! ### A link goes down (R285) -/

/-- Bring-up starts where the port may train. -/
theorem State.bringUp_lk (s : State) (p : Nat) (down : s.lk p = 0) : (s.bringUp p).lk p = if s.canTrain p then 1 else 0 := by
  unfold State.bringUp
  split
  · exact (State.rd_wr _ _ _).trans rfl
  · exact down

/-- The link's going down is counted with its cause and its time. -/
def State.downCounted (s : State) (p cause : Nat) : State :=
  ((s.wr (Reg.LK_DOWN_CAUSE p) cause).bump (Reg.LK_DOWN_DOWNS p) 1).wr (Reg.LK_DOWN_TIME p) (fld s.rackTime.toNat 16 32)

/-- It is recorded. -/
def State.downRecorded (s : State) (p cause : Nat) : State :=
  s.raise { Fault_.blank 0 Status.ok 0x0301 with
    addr := BitVec.ofNat 64 p, info0 := BitVec.ofNat 64 cause, other := s.rd (Reg.LK_NBR_EXP_MODULE p), oport := s.rd (Reg.LK_NBR_EXP_PORT p) }

/-- The port is emptied, and the packets that it was passing on are freed. -/
def State.cutOff (s : State) (p : Nat) (was : Port) (cause : Nat) : State :=
  let cut := (s.port p).txProg.filterMap (fun x => x.arrived.map (fun a => (a, x.buf)))
  let s := s.modPort p (fun x => { x.downed with
    wire := if was.framed then x.wire ++ [linkFrame [.down cause] was.nextSeq] else x.wire,
    downAt := if cause = 7 then none else some (s.clock, cause) })
  cut.foldl (fun s x => s.freeBuf x.1 x.2) s

/-- Its masks and its neighbour are cleared, and the optics idle. -/
def State.masksCleared (s : State) (p : Nat) : State :=
  (((s.wr (Reg.LK_STATE_TX_MASK p) 0).wr (Reg.LK_STATE_RX_MASK p) 0).wr (Reg.LK_NBR_SEEN_VALID p) 0).opticsDown p

/-- The port is held, warded, or trains again. -/
def State.afterDown (s : State) (p cause : Nat) : State :=
  let s := s.setLk p (if cause = 7 then 5 else 0)
  if cause = 7 then s else s.bringUp p

/-- The port's side of its link's going down. -/
def State.portDown (s : State) (p cause : Nat) : State :=
  ((((((s.downCounted p cause).downRecorded p cause).requeue p).abandonAll p).cutOff p (s.port p) cause).masksCleared p).afterDown p cause

theorem State.takeDown_eq {s : State} {p : Nat} (on : s.lk p ≠ 0 ∧ s.lk p ≠ 5) (cause : Nat) :
    s.takeDown p cause = if s.lk p = 4 then (s.portDown p cause).linkLost p cause else s.portDown p cause :=
  if_neg fun h => h.elim on.1 on.2

/-- The fields of a link's count. -/
def countFields (p : Nat) : List Fld := [Reg.LK_DOWN_CAUSE p, Reg.LK_DOWN_DOWNS p, Reg.LK_DOWN_TIME p]

/-- The fields of its masks and its neighbour, and of the optics. -/
def maskFields (p : Nat) : List Fld := [Reg.LK_STATE_TX_MASK p, Reg.LK_STATE_RX_MASK p, Reg.LK_NBR_SEEN_VALID p] ++ idleFields p

theorem State.downCounted_keepsLinks (s : State) (p cause : Nat) : s.KeepsLinks (s.downCounted p cause) (countFields p) :=
  ((s.wr_keepsLinks (Reg.LK_DOWN_CAUSE p) cause).trans (State.wr_keepsLinks _ (Reg.LK_DOWN_DOWNS p) _)).trans
    (State.wr_keepsLinks _ (Reg.LK_DOWN_TIME p) _)

theorem State.cutOff_keepsLinks (s : State) (p : Nat) (was : Port) (cause : Nat) : s.KeepsLinks (s.cutOff p was cause) [] := by
  refine foldl_keeps (fun t : State => s.KeepsLinks t []) _ (fun t x h => h.trans (t.freeBuf_keepsLinks x.1 x.2)) _ _ ?_
  exact State.modPort_keepsLinks _ p fun _ => rfl

theorem State.masksCleared_keepsLinks (s : State) (p : Nat) : s.KeepsLinks (s.masksCleared p) (maskFields p) :=
  (((s.wr_keepsLinks (Reg.LK_STATE_TX_MASK p) 0).trans (State.wr_keepsLinks _ (Reg.LK_STATE_RX_MASK p) 0)).trans
    (State.wr_keepsLinks _ (Reg.LK_NBR_SEEN_VALID p) 0)).trans (State.opticsDown_keepsLinks _ p)

theorem State.afterDown_keepsLinks (s : State) (p cause : Nat) : s.KeepsLinks (s.afterDown p cause) [Reg.LK_STATE_STATE p] := by
  have held := s.wr_keepsLinks (Reg.LK_STATE_STATE p) (if cause = 7 then 5 else 0)
  refine iteInduction (motive := fun t : State => s.KeepsLinks t [Reg.LK_STATE_STATE p]) (fun _ => held) (fun _ => ?_)
  have trained := held.trans (State.bringUp_keepsLinks _ p)
  exact ⟨trained.only, fun g b => trained.rd g ⟨b.records, fun f mem => b.apart f (by simpa using mem)⟩, trained.loop⟩

/-- The waiting packets have returned to the router, and the port is emptied. -/
theorem State.sortedOut_keepsLinks (s : State) (p : Nat) (was : Port) (cause : Nat) :
    s.KeepsLinks ((((s.downRecorded p cause).requeue p).abandonAll p).cutOff p was cause) [] :=
  (((s.raise_keepsLinks _).trans (State.requeue_keepsLinks _ p)).trans (State.abandonAll_keepsLinks _ p)).trans (State.cutOff_keepsLinks _ p was cause)

/-- Every field that a link's going down writes beside those of its record. -/
def downFields (p : Nat) : List Fld := countFields p ++ (maskFields p ++ [Reg.LK_STATE_STATE p])

theorem State.portDown_keepsLinks (s : State) (p cause : Nat) : s.KeepsLinks (s.portDown p cause) (downFields p) :=
  (s.downCounted_keepsLinks p cause).trans ((State.sortedOut_keepsLinks _ p (s.port p) cause).trans
    ((State.masksCleared_keepsLinks _ p).trans (State.afterDown_keepsLinks _ p cause)))

/-! ### What a link's going down leaves of other fields -/

/-- A field outside the links' and the engines' registers, and none of a record. -/
theorem beside_downFields {g : Fld} {p : Nat} (b : g.BeyondRecords) (low : g.key < 0x00600000 * 64 ∨ 0x00940000 * 64 ≤ g.key) (known : p < 20) :
    g.Beside (downFields p) := by
  refine ⟨b, fun f mem => ?_⟩
  simp only [downFields, countFields, maskFields, idleFields, List.cons_append, List.nil_append, List.mem_cons, List.not_mem_nil, or_false] at mem
  rcases mem with rfl | rfl | rfl | rfl | rfl | rfl | rfl | rfl | rfl
  all_goals
    simp only [Fld.key, Reg.LK_DOWN_CAUSE, Reg.LK_DOWN_DOWNS, Reg.LK_DOWN_TIME, Reg.LK_DOWN, Reg.LK_STATE_TX_MASK, Reg.LK_STATE_RX_MASK,
      Reg.LK_STATE_STATE, Reg.LK_STATE, Reg.LK_NBR_SEEN_VALID, Reg.LK_NBR, Reg.OE_CAL_ACTIVE, Reg.OE_CAL, Reg.OE_STATUS_SWAP_STATE,
      Reg.OE_STATUS] at low ⊢
    omega

/-- A field of the links' or the engines' registers is touched by no record. -/
theorem linkField_beyondRecords {g : Fld} (low : 0x00600000 * 64 ≤ g.key) (high : g.key < 0x00940000 * 64) : g.BeyondRecords := by
  refine ⟨fun f mem => ?_⟩
  simp only [recordFields, List.mem_cons, List.not_mem_nil, or_false] at mem
  rcases mem with rfl | rfl | rfl | rfl | rfl
  all_goals
    simp only [Fld.key, Reg.ERR_STAT_S0_COUNT, Reg.ERR_STAT_LOST, Reg.ERR_STAT, Reg.ERR_PTR_TAIL, Reg.ERR_PTR,
      Reg.HOST_IRQ_CAUSE_ERR, Reg.HOST_IRQ_CAUSE, Reg.MSIX_PBA] at low high ⊢
    omega

theorem lkState_beyondRecords {p : Nat} (known : p < 20) (lo w rst : Nat) (within : lo < 64) : (⟨Reg.LK_STATE p, lo, w, rst⟩ : Fld).BeyondRecords := by
  refine linkField_beyondRecords ?_ ?_ <;>
  · simp only [Fld.key, Reg.LK_STATE]
    omega

theorem lkDown_beyondRecords {p : Nat} (known : p < 20) (lo w rst : Nat) (within : lo < 64) : (⟨Reg.LK_DOWN p, lo, w, rst⟩ : Fld).BeyondRecords := by
  refine linkField_beyondRecords ?_ ?_ <;>
  · simp only [Fld.key, Reg.LK_DOWN]
    omega

theorem lkNbr_beyondRecords {p : Nat} (known : p < 20) (lo w rst : Nat) (within : lo < 64) : (⟨Reg.LK_NBR p, lo, w, rst⟩ : Fld).BeyondRecords := by
  refine linkField_beyondRecords ?_ ?_ <;>
  · simp only [Fld.key, Reg.LK_NBR]
    omega

/-- ENABLE of a port, and its emitters' safe power, lie beside what its link's going down writes. -/
theorem enable_beside {p : Nat} (known : p < 20) : (Reg.LK_CTL_ENABLE p).Beside (downFields p) := by
  refine ⟨linkField_beyondRecords ?_ ?_, fun f mem => ?_⟩
  · simp only [Fld.key, Reg.LK_CTL_ENABLE, Reg.LK_CTL]
    omega
  · simp only [Fld.key, Reg.LK_CTL_ENABLE, Reg.LK_CTL]
    omega
  · simp only [downFields, countFields, maskFields, idleFields, List.cons_append, List.nil_append, List.mem_cons, List.not_mem_nil, or_false] at mem
    rcases mem with rfl | rfl | rfl | rfl | rfl | rfl | rfl | rfl | rfl
    all_goals
      simp only [Fld.key, Reg.LK_DOWN_CAUSE, Reg.LK_DOWN_DOWNS, Reg.LK_DOWN_TIME, Reg.LK_DOWN, Reg.LK_STATE_TX_MASK, Reg.LK_STATE_RX_MASK,
        Reg.LK_STATE_STATE, Reg.LK_STATE, Reg.LK_NBR_SEEN_VALID, Reg.LK_NBR, Reg.OE_CAL_ACTIVE, Reg.OE_CAL, Reg.OE_STATUS_SWAP_STATE,
        Reg.OE_STATUS, Reg.LK_CTL_ENABLE, Reg.LK_CTL]
      omega

theorem safe_beside {p q : Nat} (known : p < 20) (lo w rst : Nat) (safe : lo = 1 ∨ lo = 2) (engine : q < 10) :
    (⟨Reg.OE_STATUS q, lo, w, rst⟩ : Fld).Beside (downFields p) := by
  refine ⟨linkField_beyondRecords ?_ ?_, fun f mem => ?_⟩
  · simp only [Fld.key, Reg.OE_STATUS]
    omega
  · simp only [Fld.key, Reg.OE_STATUS]
    omega
  · simp only [downFields, countFields, maskFields, idleFields, List.cons_append, List.nil_append, List.mem_cons, List.not_mem_nil, or_false] at mem
    rcases mem with rfl | rfl | rfl | rfl | rfl | rfl | rfl | rfl | rfl
    all_goals
      simp only [Fld.key, Reg.LK_DOWN_CAUSE, Reg.LK_DOWN_DOWNS, Reg.LK_DOWN_TIME, Reg.LK_DOWN, Reg.LK_STATE_TX_MASK, Reg.LK_STATE_RX_MASK,
        Reg.LK_STATE_STATE, Reg.LK_STATE, Reg.LK_NBR_SEEN_VALID, Reg.LK_NBR, Reg.OE_CAL_ACTIVE, Reg.OE_CAL, Reg.OE_STATUS_SWAP_STATE,
        Reg.OE_STATUS]
      omega

theorem safeFld_beside {p : Nat} (known : p < 20) : (safeFld p).Beside (downFields p) := by
  unfold safeFld
  split
  · exact safe_beside known 1 1 1 (.inl rfl) (by omega)
  · exact safe_beside known 2 1 1 (.inr rfl) (by omega)

/-- Whether a port may train does not change with its link's going down. -/
theorem State.KeepsLinks.canTrain {s t : State} {p : Nat} (h : s.KeepsLinks t (downFields p)) (known : p < 20) : t.canTrain p = s.canTrain p := by
  have stage : t.rd Reg.GLB_BOOT_STAGE = s.rd Reg.GLB_BOOT_STAGE := h.rd _ (beside_downFields ⟨by decide⟩ (.inl (by decide)) known)
  have mapped : t.rd Reg.RT_LINKS_MAPPED = s.rd Reg.RT_LINKS_MAPPED := h.rd _ (beside_downFields ⟨by decide⟩ (.inl (by decide)) known)
  have enable := h.rd _ (enable_beside known)
  have safe := h.rd _ (safeFld_beside known)
  have off : t.portsOff = s.portsOff := (congrArg State.portsOff h.only.eq :)
  unfold State.canTrain State.booted State.mapped State.rdb
  rw [stage, mapped, enable, safe, off, h.loop p known]

/-! ### What a link's going down leaves of the port (R285, R286) -/

/-- STATE of a port whose link has gone down. -/
theorem State.afterDown_lk (s : State) (p cause : Nat) :
    (s.afterDown p cause).lk p = if cause = 7 then 5 else if (s.setLk p 0).canTrain p then 1 else 0 := by
  have held : ∀ v, v < 8 → (s.setLk p v).lk p = v := fun v small => (s.rd_wr _ _).trans (Nat.mod_eq_of_lt small)
  by_cases warded : cause = 7
  · unfold State.afterDown
    dsimp only
    rw [if_pos warded, if_pos warded, if_pos warded]
    exact held 5 (by decide)
  · unfold State.afterDown
    dsimp only
    rw [if_neg warded, if_neg warded, if_neg warded]
    exact State.bringUp_lk _ p (held 0 (by decide))

theorem State.portDown_lk (s : State) {p : Nat} (known : p < 20) (cause : Nat) :
    (s.portDown p cause).lk p = if cause = 7 then 5 else if s.canTrain p then 1 else 0 := by
  have before := (s.downCounted_keepsLinks p cause).trans ((State.sortedOut_keepsLinks _ p (s.port p) cause).trans
    ((State.masksCleared_keepsLinks _ p).trans (State.wr_keepsLinks _ (Reg.LK_STATE_STATE p) 0)))
  refine (State.afterDown_lk _ p cause).trans ?_
  rw [← State.KeepsLinks.canTrain before known]
  rfl

theorem State.downCounted_rd (s : State) {p cause : Nat} (code : cause < 16) :
    (s.downCounted p cause).rd (Reg.LK_DOWN_CAUSE p) = cause
    ∧ (s.downCounted p cause).rd (Reg.LK_DOWN_DOWNS p) = min (s.rd (Reg.LK_DOWN_DOWNS p) + 1) (2 ^ (Reg.LK_DOWN_DOWNS p).w - 1) := by
  have apart : ∀ {lo lo' w w' rst rst' : Nat}, lo ≠ lo' → (⟨Reg.LK_DOWN p, lo, w, rst⟩ : Fld).key ≠ (⟨Reg.LK_DOWN p, lo', w', rst'⟩ : Fld).key := by
    intro lo lo' w w' rst rst' differ
    simp only [Fld.key]
    omega
  have ct : (Reg.LK_DOWN_CAUSE p).key ≠ (Reg.LK_DOWN_TIME p).key := apart (by decide)
  have cd : (Reg.LK_DOWN_CAUSE p).key ≠ (Reg.LK_DOWN_DOWNS p).key := apart (by decide)
  have dt : (Reg.LK_DOWN_DOWNS p).key ≠ (Reg.LK_DOWN_TIME p).key := apart (by decide)
  unfold State.downCounted
  constructor
  · rw [State.rd_wr_ne _ _ _ _ ct, State.bump_rd_ne _ _ cd, State.rd_wr]
    exact Nat.mod_eq_of_lt code
  · rw [State.rd_wr_ne _ _ _ _ dt, State.rd_bump, State.rd_wr_ne _ _ _ _ cd.symm]

/-- The pieces after the count leave it. -/
theorem lkDown_besideRest {p : Nat} (known : p < 20) (lo w rst : Nat) (within : lo < 64) :
    (⟨Reg.LK_DOWN p, lo, w, rst⟩ : Fld).Beside (maskFields p ++ [Reg.LK_STATE_STATE p]) := by
  refine ⟨lkDown_beyondRecords known lo w rst within, fun f mem => ?_⟩
  simp only [maskFields, idleFields, List.cons_append, List.nil_append, List.mem_cons, List.not_mem_nil, or_false] at mem
  rcases mem with rfl | rfl | rfl | rfl | rfl | rfl
  all_goals
    simp only [Fld.key, Reg.LK_DOWN, Reg.LK_STATE_TX_MASK, Reg.LK_STATE_RX_MASK, Reg.LK_STATE_STATE, Reg.LK_STATE, Reg.LK_NBR_SEEN_VALID, Reg.LK_NBR,
      Reg.OE_CAL_ACTIVE, Reg.OE_CAL, Reg.OE_STATUS_SWAP_STATE, Reg.OE_STATUS]
    omega

theorem State.portDown_count (s : State) {p cause : Nat} (known : p < 20) (code : cause < 16) :
    (s.portDown p cause).rd (Reg.LK_DOWN_CAUSE p) = cause
    ∧ (s.portDown p cause).rd (Reg.LK_DOWN_DOWNS p) = min (s.rd (Reg.LK_DOWN_DOWNS p) + 1) (2 ^ (Reg.LK_DOWN_DOWNS p).w - 1) := by
  have rest := (State.sortedOut_keepsLinks (s.downCounted p cause) p (s.port p) cause).trans
    ((State.masksCleared_keepsLinks _ p).trans (State.afterDown_keepsLinks _ p cause))
  obtain ⟨named, counted⟩ := s.downCounted_rd code
  exact ⟨(rest.rd _ (lkDown_besideRest known 0 4 0 (by decide))).trans named, (rest.rd _ (lkDown_besideRest known 16 16 0 (by decide))).trans counted⟩

/-- The masks and the neighbour are cleared. -/
theorem State.masksCleared_rd (s : State) {p : Nat} (known : p < 20) :
    (s.masksCleared p).rd (Reg.LK_STATE_TX_MASK p) = 0 ∧ (s.masksCleared p).rd (Reg.LK_STATE_RX_MASK p) = 0
    ∧ (s.masksCleared p).rd (Reg.LK_NBR_SEEN_VALID p) = 0 := by
  have idle : ∀ {g : Fld}, g.BeyondRecords → g.key < 0x00800000 * 64 → g.Beside (idleFields p) := by
    intro g b low
    refine ⟨b, fun f mem => ?_⟩
    simp only [idleFields, List.mem_cons, List.not_mem_nil, or_false] at mem
    rcases mem with rfl | rfl
    all_goals
      simp only [Fld.key, Reg.OE_CAL_ACTIVE, Reg.OE_CAL, Reg.OE_STATUS_SWAP_STATE, Reg.OE_STATUS] at low ⊢
      omega
  have state : ∀ lo, lo < 64 → ∀ w rst, (⟨Reg.LK_STATE p, lo, w, rst⟩ : Fld).key < 0x00800000 * 64 := by
    intro lo within w rst
    simp only [Fld.key, Reg.LK_STATE]
    omega
  have nbr : (Reg.LK_NBR_SEEN_VALID p).key < 0x00800000 * 64 := by
    simp only [Fld.key, Reg.LK_NBR_SEEN_VALID, Reg.LK_NBR]
    omega
  have tr : (Reg.LK_STATE_TX_MASK p).key ≠ (Reg.LK_STATE_RX_MASK p).key := by
    simp only [Fld.key, Reg.LK_STATE_TX_MASK, Reg.LK_STATE_RX_MASK]
    omega
  have tn : (Reg.LK_STATE_TX_MASK p).key ≠ (Reg.LK_NBR_SEEN_VALID p).key := by
    simp only [Fld.key, Reg.LK_STATE_TX_MASK, Reg.LK_STATE, Reg.LK_NBR_SEEN_VALID, Reg.LK_NBR]
    omega
  have rn : (Reg.LK_STATE_RX_MASK p).key ≠ (Reg.LK_NBR_SEEN_VALID p).key := by
    simp only [Fld.key, Reg.LK_STATE_RX_MASK, Reg.LK_STATE, Reg.LK_NBR_SEEN_VALID, Reg.LK_NBR]
    omega
  unfold State.masksCleared
  refine ⟨?_, ?_, ?_⟩
  · refine ((State.opticsDown_keepsLinks _ p).rd (Reg.LK_STATE_TX_MASK p) (idle (lkState_beyondRecords known 8 16 0 (by decide)) (state 8 (by decide) _ _))).trans ?_
    rw [State.rd_wr_ne _ _ _ _ tn, State.rd_wr_ne _ _ _ _ tr, State.rd_wr]
    exact Nat.zero_mod _
  · refine ((State.opticsDown_keepsLinks _ p).rd (Reg.LK_STATE_RX_MASK p) (idle (lkState_beyondRecords known 24 16 0 (by decide)) (state 24 (by decide) _ _))).trans ?_
    rw [State.rd_wr_ne _ _ _ _ rn, State.rd_wr]
    exact Nat.zero_mod _
  · refine ((State.opticsDown_keepsLinks _ p).rd (Reg.LK_NBR_SEEN_VALID p) (idle (lkNbr_beyondRecords known 17 1 0 (by decide)) nbr)).trans ?_
    rw [State.rd_wr]
    exact Nat.zero_mod _

theorem State.portDown_masks (s : State) {p : Nat} (known : p < 20) (cause : Nat) :
    (s.portDown p cause).txMask p = 0 ∧ (s.portDown p cause).rxMask p = 0 ∧ (s.portDown p cause).rd (Reg.LK_NBR_SEEN_VALID p) = 0 := by
  obtain ⟨t, ht⟩ : ∃ t, t = (((((s.downCounted p cause).downRecorded p cause).requeue p).abandonAll p).cutOff p (s.port p) cause) := ⟨_, rfl⟩
  have eq : s.portDown p cause = (t.masksCleared p).afterDown p cause := by rw [ht]; rfl
  obtain ⟨tx, rx, seen⟩ := t.masksCleared_rd known
  have last := (t.masksCleared p).afterDown_keepsLinks p cause
  have state : ∀ lo w rst, lo < 64 → lo ≠ 0 → (⟨Reg.LK_STATE p, lo, w, rst⟩ : Fld).Beside [Reg.LK_STATE_STATE p] := by
    intro lo w rst within differ
    refine ⟨lkState_beyondRecords known lo w rst within, fun f mem => ?_⟩
    rw [List.mem_singleton.mp mem]
    simp only [Fld.key, Reg.LK_STATE_STATE]
    omega
  have nbr : (Reg.LK_NBR_SEEN_VALID p).Beside [Reg.LK_STATE_STATE p] := by
    refine ⟨lkNbr_beyondRecords known 17 1 0 (by decide), fun f mem => ?_⟩
    rw [List.mem_singleton.mp mem]
    simp only [Fld.key, Reg.LK_STATE_STATE, Reg.LK_STATE, Reg.LK_NBR_SEEN_VALID, Reg.LK_NBR]
    omega
  rw [eq]
  unfold State.txMask State.rxMask
  rw [last.rd (Reg.LK_STATE_TX_MASK p) (state 8 16 0 (by decide) (by decide)), last.rd (Reg.LK_STATE_RX_MASK p) (state 24 16 0 (by decide) (by decide)), last.rd _ nbr, tx, rx, seen]
  exact ⟨rfl, rfl, rfl⟩

/-! ### Its packets -/

/-- A piece that leaves held packets and ports. -/
structure State.SamePorts (s t : State) : Prop where
  held  : t.held = s.held
  ports : t.ports = s.ports

theorem State.SamePorts.trans {s t u : State} (a : s.SamePorts t) (b : t.SamePorts u) : s.SamePorts u :=
  ⟨b.held.trans a.held, b.ports.trans a.ports⟩

theorem State.OnlyRegs.samePorts {s t : State} (h : s.OnlyRegs t) : s.SamePorts t := ⟨(congrArg State.held h.eq :), (congrArg State.ports h.eq :)⟩

theorem State.OnlyRecords.samePorts {s t : State} (h : s.OnlyRecords t) : s.SamePorts t := ⟨(congrArg State.held h.eq :), (congrArg State.ports h.eq :)⟩

theorem State.opticsDown_onlyRegs (s : State) (p : Nat) : s.OnlyRegs (s.opticsDown p) := by
  have idle := s.wr_onlyRegs (Reg.OE_CAL_ACTIVE (p / 2) (p % 2)) 0
  unfold State.opticsDown
  exact iteInduction (motive := s.OnlyRegs) (fun _ => idle.trans (State.wr_onlyRegs _ _ _)) (fun _ => idle)

theorem State.masksCleared_onlyRegs (s : State) (p : Nat) : s.OnlyRegs (s.masksCleared p) :=
  (((s.wr_onlyRegs _ _).trans (State.wr_onlyRegs _ _ _)).trans (State.wr_onlyRegs _ _ _)).trans (State.opticsDown_onlyRegs _ p)

theorem State.downRecorded_samePorts (s : State) (p cause : Nat) : s.SamePorts ((s.downCounted p cause).downRecorded p cause) :=
  (((s.wr_onlyRegs _ _).trans (State.wr_onlyRegs _ _ _)).trans (State.wr_onlyRegs _ _ _)).samePorts.trans (State.raise_onlyRecords _ _).samePorts

theorem State.freeBuf_held (s : State) (a b : Nat) : (s.freeBuf a b).held = s.held := by
  unfold State.freeBuf
  split <;> rfl

theorem State.cutOff_held (s : State) (p : Nat) (was : Port) (cause : Nat) : (s.cutOff p was cause).held = s.held :=
  (foldl_same State.held (fun (t : State) (x : Nat × Nat) => t.freeBuf x.1 x.2) (fun t x => t.freeBuf_held x.1 x.2) _ _).trans rfl

theorem State.cutOff_emptied (s : State) {p : Nat} (known : p < 20) (was : Port) (cause : Nat) : ((s.cutOff p was cause).port p).Emptied := by
  refine foldl_keeps (fun t : State => (t.port p).Emptied) _ (fun t x h => t.freeBuf_emptied x.1 x.2 p h) _ _ ?_
  rw [State.port_modPort _ _ _ known]
  exact ⟨rfl, rfl, rfl⟩

theorem State.bringUp_held (s : State) (p : Nat) : (s.bringUp p).held = s.held := by
  unfold State.bringUp
  split <;> rfl

theorem State.afterDown_held (s : State) (p cause : Nat) : (s.afterDown p cause).held = s.held := by
  unfold State.afterDown
  dsimp only
  split
  · rfl
  · exact State.bringUp_held _ p

theorem State.afterDown_emptied (s : State) {p : Nat} (known : p < 20) (cause : Nat) (h : (s.port p).Emptied) : ((s.afterDown p cause).port p).Emptied := by
  unfold State.afterDown
  dsimp only
  split
  · exact h
  · exact State.bringUp_emptied _ p known h

theorem State.portDown_emptied (s : State) {p : Nat} (known : p < 20) (cause : Nat) : ((s.portDown p cause).port p).Emptied := by
  obtain ⟨t, ht⟩ : ∃ t, t = (((s.downCounted p cause).downRecorded p cause).requeue p).abandonAll p := ⟨_, rfl⟩
  have eq : s.portDown p cause = ((t.cutOff p (s.port p) cause).masksCleared p).afterDown p cause := by rw [ht]; rfl
  have emptied := t.cutOff_emptied known (s.port p) cause
  have cleared := ((t.cutOff p (s.port p) cause).masksCleared_onlyRegs p).samePorts.ports
  rw [eq]
  refine State.afterDown_emptied _ known cause ?_
  have same : ((t.cutOff p (s.port p) cause).masksCleared p).port p = (t.cutOff p (s.port p) cause).port p :=
    congrArg (fun v => v.getD p Port.reset) cleared
  rw [same]
  exact emptied

/-- The waiting packets of a port without a packet in progress return to the router. -/
theorem State.portDown_held (s : State) {p : Nat} (known : p < 20) (cause : Nat) (whole : ∀ r ∈ (s.port p).rxProg, r.total ≤ r.got) :
    (s.portDown p cause).held = s.held ++ (s.port p).txq.map (fun (x : Nat × Packet × Held) => x.2.2) := by
  obtain ⟨t, ht⟩ : ∃ t, t = (s.downCounted p cause).downRecorded p cause := ⟨_, rfl⟩
  have counted := s.downRecorded_samePorts p cause
  rw [← ht] at counted
  have port : t.port p = s.port p := congrArg (fun v => v.getD p Port.reset) counted.ports
  have queued : (t.requeue p).held = t.held ++ (t.port p).txq.map (fun (x : Nat × Packet × Held) => x.2.2) := rfl
  have same : (t.requeue p).abandonAll p = t.requeue p := by
    refine State.abandonAll_whole _ p fun r mem => whole r ?_
    have kept : ((t.requeue p).port p).rxProg = (t.port p).rxProg := by
      unfold State.requeue
      rw [State.port_modPort _ _ _ known]
      rfl
    rw [kept, port] at mem
    exact mem
  have eq : s.portDown p cause = (((t.requeue p).cutOff p (s.port p) cause).masksCleared p).afterDown p cause := by
    rw [← same, ht]
    rfl
  rw [eq, State.afterDown_held, (State.masksCleared_onlyRegs _ p).samePorts.held, State.cutOff_held, queued, counted.held, port]

/-! ### Every port goes down -/

/-- A module that takes no part in the fabric only notes that its link is down. -/
theorem State.linkLost_silent {s : State} (quiet : s.silent = true) (p cause : Nat) :
    s.linkLost p cause = { s with downLinks := (s.linkLost p cause).downLinks, routable := (s.linkLost p cause).routable } := by
  have noted : ∀ (r : List Nat), ({ s.noteDown s.modNum p with routable := r } : State)
      = { s with downLinks := (s.noteDown s.modNum p).downLinks, routable := r } := fun r => by
    unfold State.noteDown
    split <;> rfl
  have still : (({ s.noteDown s.modNum p with routable := s.routable.erase p } : State)).silent = true := by
    rw [noted]
    exact quiet
  have stops : s.linkLost p cause = { s.noteDown s.modNum p with routable := s.routable.erase p } := if_pos still
  rw [stops, noted]

/-- STATE of another port. -/
theorem lkState_beside {p q : Nat} (other : q < 20) (apart : q ≠ p) : (Reg.LK_STATE_STATE q).Beside (downFields p) := by
  refine ⟨lkState_beyondRecords other 0 3 0 (by decide), fun f mem => ?_⟩
  simp only [downFields, countFields, maskFields, idleFields, List.cons_append, List.nil_append, List.mem_cons, List.not_mem_nil, or_false] at mem
  rcases mem with rfl | rfl | rfl | rfl | rfl | rfl | rfl | rfl | rfl
  all_goals
    simp only [Fld.key, Reg.LK_DOWN_CAUSE, Reg.LK_DOWN_DOWNS, Reg.LK_DOWN_TIME, Reg.LK_DOWN, Reg.LK_STATE_TX_MASK, Reg.LK_STATE_RX_MASK,
      Reg.LK_STATE_STATE, Reg.LK_STATE, Reg.LK_NBR_SEEN_VALID, Reg.LK_NBR, Reg.OE_CAL_ACTIVE, Reg.OE_CAL, Reg.OE_STATUS_SWAP_STATE, Reg.OE_STATUS]
    omega

/-- A held port's going down on a module that holds every port: other ports' states, the cores and the hold stay. -/
structure State.PortHeld (s t : State) (p : Nat) : Prop where
  off   : t.portsOff = true
  cores : t.cores = s.cores
  other : ∀ q, q < 20 → q ≠ p → t.lk q = s.lk q

theorem State.takeDown_held {s : State} {p : Nat} (off : s.portsOff = true) (cause : Nat) : s.PortHeld (s.takeDown p cause) p := by
  by_cases still : s.lk p = 0 ∨ s.lk p = 5
  · have same : s.takeDown p cause = s := if_pos still
    rw [same]
    exact ⟨off, rfl, fun _ _ _ => rfl⟩
  · rw [s.takeDown_eq (not_or.mp still)]
    have down := s.portDown_keepsLinks p cause
    generalize s.portDown p cause = t at down
    have held : s.PortHeld t p :=
      ⟨(congrArg State.portsOff down.only.eq :).trans off, (congrArg State.cores down.only.eq :), fun q other apart => down.rd _ (lkState_beside other apart)⟩
    refine iteInduction (motive := fun u : State => s.PortHeld u p) (fun _ => ?_) (fun _ => held)
    have quiet : t.silent = true := by simp [State.silent, held.off]
    rw [State.linkLost_silent quiet]
    exact ⟨held.off, held.cores, held.other⟩

theorem State.setLk_zero_held (s : State) {p : Nat} (off : s.portsOff = true) :
    s.PortHeld (s.setLk p 0) p ∧ (s.setLk p 0).lk p = 0 := by
  refine ⟨⟨off, rfl, fun q other apart => ?_⟩, (s.rd_wr _ _).trans (Nat.zero_mod _)⟩
  have differ : (Reg.LK_STATE_STATE q).key ≠ (Reg.LK_STATE_STATE p).key := (lkState_beside other apart).apart _ (by simp [downFields])
  exact s.rd_wr_ne _ _ _ differ

/-- Ports that go down one after another stay held. -/
theorem State.portsDown_held (l : List Nat) (s : State) (D : List Nat) (off : s.portsOff = true)
    (down : ∀ q ∈ D, q < 20 → s.lk q = 0) :
    let u := l.foldl (fun (s : State) p => (s.takeDown p 9).setLk p 0) s
    u.portsOff = true ∧ u.cores = s.cores ∧ ∀ q, q < 20 → q ∈ D ∨ q ∈ l → u.lk q = 0 := by
  induction l generalizing s D with
  | nil => exact ⟨off, rfl, fun q other mem => down q (mem.resolve_right (by simp)) other⟩
  | cons p l ih =>
    have taken := s.takeDown_held (p := p) off 9
    obtain ⟨held, zero⟩ := (s.takeDown p 9).setLk_zero_held (p := p) taken.off
    obtain ⟨off', cores, zeros⟩ := ih ((s.takeDown p 9).setLk p 0) (p :: D) held.off (by
      intro q mem other
      by_cases same : q = p
      · rw [same]
        exact zero
      · rw [held.other q other same, taken.other q other same]
        exact down q ((List.mem_cons.mp mem).resolve_left same) other)
    refine ⟨off', cores.trans (held.cores.trans taken.cores), fun q other mem => zeros q other ?_⟩
    simp only [List.mem_cons] at mem ⊢
    tauto

/-- Every port is down and held. -/
theorem State.allPortsDown_held (s : State) :
    s.allPortsDown.portsOff = true ∧ s.allPortsDown.cores = s.cores ∧ ∀ p, p < 20 → s.allPortsDown.lk p = 0 := by
  obtain ⟨off, cores, zeros⟩ := State.portsDown_held (List.range 20) { s with portsOff := true } [] rfl
    (fun q mem => by cases mem)
  exact ⟨off, cores, fun p known => zeros p known (.inr (List.mem_range.mpr known))⟩

end Sys2Proof.Machine
end

section
/-! The service face: the latch, the module's leaving and the light bar (R329, R330, R332, R336). -/

namespace Sys2Proof.Machine

/-! ### Records and interrupts -/

/-- The state s with what a record and the management bus's interrupts change, taken from t. -/
def State.withNotes (s t : State) : State := { s.withRecords t with ibis := t.ibis, sideOut := t.sideOut }

/-- From s the state comes to t by changing only that. -/
structure State.OnlyNotes (s t : State) : Prop where
  eq : t = s.withNotes t

theorem State.OnlyNotes.refl (s : State) : s.OnlyNotes s := ⟨rfl⟩

theorem State.OnlyNotes.trans {s t u : State} (a : s.OnlyNotes t) (b : t.OnlyNotes u) : s.OnlyNotes u := by
  have step := congrArg (fun x => State.withNotes x u) a.eq
  exact ⟨b.eq.trans step⟩

theorem State.onlyNotes_recorded (s t : State) : s.OnlyNotes (s.withRecords t) := ⟨rfl⟩

theorem State.onlyNotes_lit (s : State) (ibis : List Byte) (sideOut : List SideMsg) : s.OnlyNotes { s with ibis := ibis, sideOut := sideOut } := ⟨rfl⟩

theorem State.OnlyRecords.onlyNotes {s t : State} (h : s.OnlyRecords t) : s.OnlyNotes t := by
  rw [h.eq]
  exact s.onlyNotes_recorded t

theorem State.svcEvent_onlyRecords (s : State) (f : Fld) : s.OnlyRecords (s.svcEvent f) :=
  (s.wr_onlyRecords f 1).trans (State.raiseVec_onlyRecords _ _)

theorem State.svcEvent_rd (s : State) {f g : Fld} (b : g.BeyondRecords) (apart : g.key ≠ f.key) : (s.svcEvent f).rd g = s.rd g :=
  (State.raiseVec_rd _ _ b).trans (s.rd_wr_ne _ _ _ apart)

theorem State.raiseIbi_onlyNotes (s : State) (b : Byte) : s.OnlyNotes (s.raiseIbi b) := by
  rw [State.raiseIbi_frame]
  exact s.onlyNotes_lit _ _

theorem State.raiseIbi_rd (s : State) (b : Byte) (g : Fld) : (s.raiseIbi b).rd g = s.rd g :=
  s.rd_congr _ g (congrArg State.regs (s.raiseIbi_frame b) :)

/-! ### The sample's registers (R329, R336) -/

/-- A field that is settled, or that was not waiting, does not wait. -/
theorem State.settle_lookup (s : State) (f : Fld) (k : Nat) (h : k = f.key ∨ s.lag.lookup k = none) : (s.settle f).lag.lookup k = none := by
  rcases h with rfl | free
  · exact Tab.lookup_del s.lag f.key
  · rw [List.lookup_eq_none_iff] at free ⊢
    exact fun p mem => free p (List.mem_filter.mp mem).1

/-- The face's fields settle, one after another. -/
theorem State.settles_lookup (fs : List Fld) (s : State) {f : Fld} (h : f ∈ fs ∨ s.lag.lookup f.key = none) :
    (fs.foldl (fun (s : State) f => s.settle f) s).lag.lookup f.key = none := by
  induction fs generalizing s with
  | nil => exact h.resolve_left (by simp)
  | cons x fs ih =>
    refine ih (s.settle x) ?_
    rcases h with mem | free
    · rcases List.mem_cons.mp mem with rfl | mem
      · exact .inr (s.settle_lookup f _ (.inl rfl))
      · exact .inl mem
    · exact .inr (s.settle_lookup x _ (.inr free))

/-- The face's settled fields. -/
def State.faceSettled (s : State) : State := faceFields.foldl (fun (s : State) f => s.settle f) s

theorem State.faceSettled_frame (s : State) : s.faceSettled = { s with lag := s.faceSettled.lag } := by
  unfold State.faceSettled
  exact foldl_keeps (fun t : State => t = { s with lag := t.lag }) _ (fun t f h => by
    have step := congrArg (fun x : State => ({ x with lag := (t.settle f).lag } : State)) h
    exact step) faceFields s rfl

theorem State.faceSettled_lookup (s : State) {f : Fld} (mem : f ∈ faceFields) : s.faceSettled.lag.lookup f.key = none :=
  State.settles_lookup faceFields s (.inl mem)

/-- The hinge angle is read. -/
def State.angleRead (s : State) (angle : Nat) : State :=
  (s.faceSettled.wr Reg.SF_LATCH_ANGLE (min 90 angle)).wrb Reg.SF_LATCH_WITHDRAW (decide (min 90 angle ≥ 80))

/-- The latch is found open. -/
def State.latchOpened (s : State) (angle : Nat) : State :=
  let s := { ((s.wr Reg.SF_LATCH_OPEN 1).wr Reg.SF_LATCH_DRAIN 1).bump Reg.SF_LATCH_OPENINGS 1 with openAt := some s.clock }
  ((s.raise { Fault_.blank 0 Status.ok 0x0502 with info0 := BitVec.ofNat 64 angle }).svcEvent Reg.HOST_IRQ_CAUSE_LATCH).raiseIbi 1

/-- The latch is found closed. -/
def State.latchClosed (s : State) : State := { (s.wr Reg.SF_LATCH_OPEN 0).wr Reg.SF_LATCH_DRAIN 0 with openAt := none }

/-- OPEN and DRAIN follow the angle. -/
def State.latchMoved (s : State) (angle : Nat) : State :=
  if s.rd Reg.SF_LATCH_OPEN = 0 ∧ min 90 angle > 15 then s.latchOpened (min 90 angle)
  else if s.rd Reg.SF_LATCH_OPEN = 1 ∧ min 90 angle < 10 then s.latchClosed
  else s

theorem exec_latchSample {s : State} (powered : s.powered = true) (alive : s.failed = false) (angle : Nat) :
    exec (.latchSample angle) s
      = .next (if min 90 angle ≥ 80 then ((s.angleRead angle).latchMoved angle).leave else (s.angleRead angle).latchMoved angle) :=
  congrArg Host.Outcome.next (if_neg (by simp [powered, alive]))

/-- What the sample's own registers read. -/
structure State.FaceReads (s u : State) (angle : Nat) : Prop where
  settled  : ∀ f ∈ faceFields, u.act f = s.rd f
  hinge    : u.rd Reg.SF_LATCH_ANGLE = min 90 angle
  withdraw : u.rd Reg.SF_LATCH_WITHDRAW = if 80 ≤ angle then 1 else 0

/-- Fields that the sample leaves when it reads the angle. -/
theorem State.angleRead_rd (s : State) (angle : Nat) {g : Fld} (a : g.key ≠ Reg.SF_LATCH_ANGLE.key) (w : g.key ≠ Reg.SF_LATCH_WITHDRAW.key) :
    (s.angleRead angle).rd g = s.rd g := by
  unfold State.angleRead State.wrb
  rw [State.rd_wr_ne _ _ _ _ w, State.rd_wr_ne _ _ _ _ a]
  exact s.rd_congr _ g (congrArg State.regs s.faceSettled_frame :)

theorem State.angleRead_frame (s : State) (angle : Nat) : s.angleRead angle = { s with regs := (s.angleRead angle).regs, lag := (s.angleRead angle).lag } := by
  have frame := s.faceSettled_frame
  unfold State.angleRead State.wrb
  generalize s.faceSettled = t at frame ⊢
  generalize (if decide (min 90 angle ≥ 80) = true then 1 else 0) = wide
  exact congrArg (fun x : State => ({ x with
    regs := ((t.wr Reg.SF_LATCH_ANGLE (min 90 angle)).wr Reg.SF_LATCH_WITHDRAW wide).regs } : State)) frame

theorem State.angleRead_reads (s : State) (angle : Nat) : s.FaceReads (s.angleRead angle) angle := by
  refine ⟨fun f mem => ?_, ?_, ?_⟩
  · have free : (s.angleRead angle).lag.lookup f.key = none := s.faceSettled_lookup mem
    have apart : ∀ f ∈ faceFields, f.key ≠ Reg.SF_LATCH_ANGLE.key ∧ f.key ≠ Reg.SF_LATCH_WITHDRAW.key := by decide
    unfold State.act
    rw [free]
    exact s.angleRead_rd angle (apart f mem).1 (apart f mem).2
  · unfold State.angleRead State.wrb
    rw [State.rd_wr_ne _ _ _ _ (by decide), State.rd_wr]
    refine Nat.mod_eq_of_lt ?_
    show min 90 angle < 256
    omega
  · unfold State.angleRead State.wrb
    rw [State.rd_wr]
    by_cases wide : 80 ≤ angle
    · rw [if_pos wide, decide_eq_true (by omega)]
      rfl
    · rw [if_neg wide, decide_eq_false (by omega)]
      rfl

/-- What comes after the reading leaves it. -/
theorem State.FaceReads.kept {s t u : State} {angle : Nat} (h : s.FaceReads t angle) (lag : u.lag = t.lag)
    (rd : ∀ g ∈ [Reg.SF_LATCH_ANGLE, Reg.SF_LATCH_WITHDRAW] ++ faceFields, u.rd g = t.rd g) : s.FaceReads u angle := by
  refine ⟨fun f mem => ?_, (rd _ (by simp)).trans h.hinge, (rd _ (by simp)).trans h.withdraw⟩
  rw [← h.settled f mem]
  unfold State.act
  rw [lag, rd f (by simp [mem])]

/-! ### The latch opens and closes (R329) -/

/-- The fields of the latch's opening, and the face's others. -/
def latchFields : List Fld := [Reg.SF_LATCH_OPEN, Reg.SF_LATCH_DRAIN, Reg.SF_LATCH_OPENINGS]

/-- The registers of the latch's opening, before its record. -/
def State.openSet (s : State) : State :=
  { ((s.wr Reg.SF_LATCH_OPEN 1).wr Reg.SF_LATCH_DRAIN 1).bump Reg.SF_LATCH_OPENINGS 1 with openAt := some s.clock }

theorem State.openSet_rd (s : State) :
    s.openSet.rd Reg.SF_LATCH_OPEN = 1 ∧ s.openSet.rd Reg.SF_LATCH_DRAIN = 1
    ∧ s.openSet.rd Reg.SF_LATCH_OPENINGS = min (s.rd Reg.SF_LATCH_OPENINGS + 1) (2 ^ Reg.SF_LATCH_OPENINGS.w - 1)
    ∧ ∀ g : Fld, (∀ f ∈ latchFields, g.key ≠ f.key) → s.openSet.rd g = s.rd g := by
  have regs : ∀ g, s.openSet.rd g = (((s.wr Reg.SF_LATCH_OPEN 1).wr Reg.SF_LATCH_DRAIN 1).bump Reg.SF_LATCH_OPENINGS 1).rd g := fun _ => rfl
  refine ⟨?_, ?_, ?_, fun g apart => ?_⟩
  · rw [regs, State.bump_rd_ne _ _ (by decide), State.rd_wr_ne _ _ _ _ (by decide), State.rd_wr]
    rfl
  · rw [regs, State.bump_rd_ne _ _ (by decide), State.rd_wr]
    rfl
  · rw [regs, State.rd_bump, State.rd_wr_ne _ _ _ _ (by decide), State.rd_wr_ne _ _ _ _ (by decide)]
  · rw [regs, State.bump_rd_ne _ _ (apart _ (by simp [latchFields])), State.rd_wr_ne _ _ _ _ (apart _ (by simp [latchFields])),
      State.rd_wr_ne _ _ _ _ (apart _ (by simp [latchFields]))]

/-- The record and the interrupts of the opening leave every field of the service face. -/
theorem State.latchOpened_notes (s : State) (angle : Nat) :
    s.openSet.OnlyNotes (s.latchOpened angle)
    ∧ ∀ g : Fld, g.BeyondRecords → g.key ≠ Reg.HOST_IRQ_CAUSE_LATCH.key → (s.latchOpened angle).rd g = s.openSet.rd g := by
  have eq : s.latchOpened angle
      = ((s.openSet.raise { Fault_.blank 0 Status.ok 0x0502 with info0 := BitVec.ofNat 64 angle }).svcEvent Reg.HOST_IRQ_CAUSE_LATCH).raiseIbi 1 := rfl
  rw [eq]
  generalize s.openSet = t
  refine ⟨?_, fun g b apart => ?_⟩
  · exact ((State.raise_onlyRecords _ _).trans (State.svcEvent_onlyRecords _ _)).onlyNotes.trans (State.raiseIbi_onlyNotes _ _)
  · rw [State.raiseIbi_rd, State.svcEvent_rd _ b apart, State.raise_rd _ _ b]

/-- What the opening leaves of the rest: the clock's reading is the time that the latch is open since. -/
theorem State.openSet_frame (s : State) : s.openSet = { s with regs := s.openSet.regs, openAt := some s.clock } := by
  have set : s.OnlyRegs (((s.wr Reg.SF_LATCH_OPEN 1).wr Reg.SF_LATCH_DRAIN 1).bump Reg.SF_LATCH_OPENINGS 1) :=
    ((s.wr_onlyRegs Reg.SF_LATCH_OPEN 1).trans (State.wr_onlyRegs _ Reg.SF_LATCH_DRAIN 1)).trans (State.wr_onlyRegs _ Reg.SF_LATCH_OPENINGS _)
  exact congrArg (fun x : State => ({ x with openAt := some s.clock } : State)) set.eq

theorem State.latchClosed_frame (s : State) : s.latchClosed = { s with regs := s.latchClosed.regs, openAt := none } := rfl

theorem State.latchClosed_rd (s : State) : s.latchClosed.rd Reg.SF_LATCH_OPEN = 0 ∧ s.latchClosed.rd Reg.SF_LATCH_DRAIN = 0
    ∧ ∀ g : Fld, (∀ f ∈ latchFields, g.key ≠ f.key) → s.latchClosed.rd g = s.rd g := by
  have regs : ∀ g, s.latchClosed.rd g = ((s.wr Reg.SF_LATCH_OPEN 0).wr Reg.SF_LATCH_DRAIN 0).rd g := fun _ => rfl
  refine ⟨?_, ?_, fun g apart => ?_⟩
  · rw [regs, State.rd_wr_ne _ _ _ _ (by decide), State.rd_wr]
    rfl
  · rw [regs, State.rd_wr]
    rfl
  · rw [regs, State.rd_wr_ne _ _ _ _ (apart _ (by simp [latchFields])), State.rd_wr_ne _ _ _ _ (apart _ (by simp [latchFields]))]

theorem readFields_apart : ∀ g ∈ [Reg.SF_LATCH_ANGLE, Reg.SF_LATCH_WITHDRAW] ++ faceFields,
    (∀ f ∈ latchFields, g.key ≠ f.key) ∧ (∀ f ∈ recordFields, g.key ≠ f.key) ∧ g.key ≠ Reg.HOST_IRQ_CAUSE_LATCH.key := by decide

theorem latchFields_apart : ∀ g ∈ latchFields,
    (∀ f ∈ recordFields, g.key ≠ f.key) ∧ g.key ≠ Reg.HOST_IRQ_CAUSE_LATCH.key ∧ g.key ≠ Reg.SF_LATCH_ANGLE.key ∧ g.key ≠ Reg.SF_LATCH_WITHDRAW.key := by decide

/-! ### The module leaves (R330) -/

/-- What the leaving reads of the state before it. -/
structure State.SameModule (s t : State) : Prop where
  num    : t.modNum = s.modNum
  booted : t.booted = s.booted
  tasks  : t.tasks = s.tasks
  left   : t.rdb Reg.SF_LATCH_LEFT = s.rdb Reg.SF_LATCH_LEFT

/-- Registers that name the module, its boot and its leaving. -/
def moduleFields : List Fld := [Reg.MOD_POSITION_Z, Reg.MOD_POSITION_W, Reg.GLB_BOOT_STAGE, Reg.SF_LATCH_LEFT]

theorem State.modNum_of_rd {s t : State} (straps : t.straps = s.straps) (z : t.rd Reg.MOD_POSITION_Z = s.rd Reg.MOD_POSITION_Z)
    (w : t.rd Reg.MOD_POSITION_W = s.rd Reg.MOD_POSITION_W) : t.modNum = s.modNum := by
  unfold State.modNum State.posW State.posX State.posY State.posZ
  rw [straps, z, w]

theorem State.sameModule_of {s t : State} (straps : t.straps = s.straps) (tasks : t.tasks = s.tasks) (rd : ∀ f ∈ moduleFields, t.rd f = s.rd f) :
    s.SameModule t := by
  refine ⟨State.modNum_of_rd straps (rd _ (by simp [moduleFields])) (rd _ (by simp [moduleFields])), ?_, tasks, ?_⟩
  · exact congrArg (· == 4) (rd Reg.GLB_BOOT_STAGE (by simp [moduleFields]))
  · exact congrArg (· == 1) (rd Reg.SF_LATCH_LEFT (by simp [moduleFields]))

/-- LEFT is set, with its interrupts. -/
def State.leftNoted (s : State) : State := ((s.wr Reg.SF_LATCH_LEFT 1).svcEvent Reg.HOST_IRQ_CAUSE_LEFT).raiseIbi 4

theorem State.leave_eq {s : State} (here : s.rdb Reg.SF_LATCH_LEFT = false) :
    s.leave = if s.leftNoted.booted then (s.leftNoted.sendDeclaration s.leftNoted.modNum 3).endJobs Status.padlocked 0x0503
      else { s.leftNoted with portsOff := true } :=
  if_neg (Bool.eq_false_iff.mp here)

theorem State.leftNoted_rd (s : State) {g : Fld} (b : g.BeyondRecords) (cause : g.key ≠ Reg.HOST_IRQ_CAUSE_LEFT.key) :
    s.leftNoted.rd g = (s.wr Reg.SF_LATCH_LEFT 1).rd g := by
  unfold State.leftNoted
  rw [State.raiseIbi_rd, State.svcEvent_rd _ b cause]

theorem State.leftNoted_onlyNotes (s : State) : s.OnlyNotes s.leftNoted :=
  ((s.wr_onlyRecords _ _).trans (State.svcEvent_onlyRecords _ _)).onlyNotes.trans (State.raiseIbi_onlyNotes _ _)

/-- What the leaving of a module leaves: LEFT; after boot the declaration, and every task ended; before it the ports held. -/
theorem State.leave_effect {s : State} (here : s.rdb Reg.SF_LATCH_LEFT = false) :
    s.leave.rd Reg.SF_LATCH_LEFT = 1
    ∧ (s.booted = true → s.modNum ∈ s.leave.declSent ∧ ∀ x ∈ s.tasks, ∃ y ∈ s.leave.tasks, y.num = x.num ∧ y.abandoned = true)
    ∧ (s.booted = false → s.leave.portsOff = true) := by
  have left : s.leftNoted.rd Reg.SF_LATCH_LEFT = 1 := by
    rw [s.leftNoted_rd ⟨by decide⟩ (by decide), State.rd_wr]
    rfl
  have notes := s.leftNoted_onlyNotes
  have kept : ∀ f ∈ [Reg.MOD_POSITION_Z, Reg.MOD_POSITION_W, Reg.GLB_BOOT_STAGE], s.leftNoted.rd f = s.rd f := by
    have apart : ∀ f ∈ [Reg.MOD_POSITION_Z, Reg.MOD_POSITION_W, Reg.GLB_BOOT_STAGE],
        (∀ g ∈ recordFields, f.key ≠ g.key) ∧ f.key ≠ Reg.HOST_IRQ_CAUSE_LEFT.key ∧ f.key ≠ Reg.SF_LATCH_LEFT.key := by decide
    intro f mem
    obtain ⟨records, cause, self⟩ := apart f mem
    rw [s.leftNoted_rd ⟨records⟩ cause, State.rd_wr_ne _ _ _ _ self]
  have num : s.leftNoted.modNum = s.modNum := State.modNum_of_rd (congrArg State.straps notes.eq :) (kept _ (by simp)) (kept _ (by simp))
  have booted : s.leftNoted.booted = s.booted := congrArg (· == 4) (kept Reg.GLB_BOOT_STAGE (by simp))
  have tasks : s.leftNoted.tasks = s.tasks := (congrArg State.tasks notes.eq :)
  rw [s.leave_eq here, num]
  generalize s.leftNoted = t at left booted tasks ⊢
  by_cases isUp : t.booted = true
  · rw [if_pos isUp]
    obtain ⟨d, hd⟩ : ∃ d, d = t.sendDeclaration s.modNum 3 := ⟨_, rfl⟩
    have sent : d.declSent = t.declSent ++ [s.modNum] ∧ d.tasks = t.tasks ∧ d.regs = t.regs := by rw [hd]; exact ⟨rfl, rfl, rfl⟩
    obtain ⟨declared, same, regs⟩ := sent
    have ends := d.endJobs_onlyEnds Status.padlocked 0x0503
    rw [← hd]
    refine ⟨?_, fun _ => ⟨?_, fun x mem => ?_⟩, fun down => absurd (booted.trans down) (by rw [isUp]; decide)⟩
    · rw [d.endJobs_rd _ _ (show Reg.SF_LATCH_LEFT.key < _ by decide) ⟨by decide⟩, State.rd_congr _ _ _ regs, left]
    · have out : (d.endJobs Status.padlocked 0x0503).declSent = d.declSent := (congrArg State.declSent ends.eq :)
      rw [out, declared]
      exact List.mem_append_right _ (List.mem_singleton_self _)
    · have ended := d.failAll_abandons Status.padlocked (t := x) (by rw [same, tasks]; exact mem)
      have noted : (d.endJobs Status.padlocked 0x0503).tasks = (d.failAll Status.padlocked).tasks :=
        (congrArg State.tasks (State.jobsFatal_onlyRecords (d.failAll Status.padlocked) (Fault_.blank 4 Status.padlocked 0x0503)).eq :)
      rw [noted]
      exact ended
  · rw [if_neg isUp]
    exact ⟨left, fun up => absurd (booted.trans up) isUp, fun _ => rfl⟩

/-- The leaving of a module whose sample has been taken is a leaving of the module before it. -/
theorem State.SameModule.leave {s t : State} (h : s.SameModule t) (here : s.rdb Reg.SF_LATCH_LEFT = false) :
    t.leave.rd Reg.SF_LATCH_LEFT = 1
    ∧ (s.booted = true → s.modNum ∈ t.leave.declSent ∧ ∀ x ∈ s.tasks, ∃ y ∈ t.leave.tasks, y.num = x.num ∧ y.abandoned = true)
    ∧ (s.booted = false → t.leave.portsOff = true) := by
  have effect := State.leave_effect (h.left.trans here)
  rw [h.num, h.booted, h.tasks] at effect
  exact effect

theorem moduleFields_apart : ∀ f ∈ moduleFields, (∀ g ∈ recordFields, f.key ≠ g.key) ∧ (∀ g ∈ latchFields, f.key ≠ g.key)
    ∧ f.key ≠ Reg.HOST_IRQ_CAUSE_LATCH.key ∧ f.key ≠ Reg.SF_LATCH_ANGLE.key ∧ f.key ≠ Reg.SF_LATCH_WITHDRAW.key := by decide

/-- A sample leaves the module's number, its boot, its tasks and LEFT. -/
theorem State.latchMoved_sameModule (s : State) (angle : Nat) : s.SameModule (s.latchMoved angle) := by
  refine iteInduction (motive := s.SameModule) (fun _ => ?_) (fun _ => iteInduction (motive := s.SameModule) (fun _ => ?_) (fun _ => ?_))
  · obtain ⟨notes, rd⟩ := s.latchOpened_notes (min 90 angle)
    have frame := s.openSet_frame
    have straps : s.openSet.straps = s.straps := (congrArg State.straps frame :)
    have tasks : s.openSet.tasks = s.tasks := (congrArg State.tasks frame :)
    refine State.sameModule_of ((congrArg State.straps notes.eq :).trans straps) ((congrArg State.tasks notes.eq :).trans tasks) fun f mem => ?_
    obtain ⟨records, latch, cause, -, -⟩ := moduleFields_apart f mem
    exact (rd f ⟨records⟩ cause).trans (s.openSet_rd.2.2.2 f latch)
  · exact State.sameModule_of rfl rfl fun f mem => s.latchClosed_rd.2.2 f (moduleFields_apart f mem).2.1
  · exact State.sameModule_of rfl rfl fun _ _ => rfl

theorem State.angleRead_sameModule (s : State) (angle : Nat) : s.SameModule (s.angleRead angle) := by
  have frame := s.angleRead_frame angle
  refine State.sameModule_of (congrArg State.straps frame :) (congrArg State.tasks frame :) fun f mem => ?_
  obtain ⟨-, -, -, a, w⟩ := moduleFields_apart f mem
  exact s.angleRead_rd angle a w

/-- Settles O52: a sample by the angle's range, the leaving through `leave_effect`, the ports through `allPortsDown_held`. -/
theorem serviceFaceActs : Obligations.ServiceFaceActs := by
  unfold Obligations.ServiceFaceActs
  intro angle t i s powered alive leaves reads
  have sampled := exec_latchSample powered alive angle
  have read := s.angleRead_reads angle
  have frame := s.angleRead_frame angle
  have opens : (s.angleRead angle).rd Reg.SF_LATCH_OPEN = s.rd Reg.SF_LATCH_OPEN := s.angleRead_rd angle (by decide) (by decide)
  have openings : (s.angleRead angle).rd Reg.SF_LATCH_OPENINGS = s.rd Reg.SF_LATCH_OPENINGS := s.angleRead_rd angle (by decide) (by decide)
  have same := (s.angleRead_sameModule angle)
  obtain ⟨a, ha⟩ : ∃ a, a = s.angleRead angle := ⟨_, rfl⟩
  rw [← ha] at sampled read frame opens openings same
  have shown : ∀ {u : State}, s.FaceReads u angle → reads u := fun h => ⟨h.settled, h.hinge, h.withdraw⟩
  refine ⟨?opening, ?closing, ?between, ?leaving, ?still, ?ports, ?bar⟩
  case opening =>
    intro shut wide narrow
    have stays : ¬ min 90 angle ≥ 80 := by omega
    have moves : a.latchMoved angle = a.latchOpened (min 90 angle) := if_pos ⟨opens.trans shut, by omega⟩
    rw [if_neg stays, moves] at sampled
    obtain ⟨notes, rd⟩ := a.latchOpened_notes (min 90 angle)
    obtain ⟨isOpen, drains, counted, others⟩ := a.openSet_rd
    have before := a.openSet_frame
    have lag : a.openSet.lag = a.lag := (congrArg State.lag before :)
    have since : a.openSet.openAt = some a.clock := (congrArg State.openAt before :)
    have cores : a.openSet.cores = a.cores := (congrArg State.cores before :)
    have clock : a.clock = s.clock := (congrArg State.clock frame :)
    have own : ∀ g ∈ latchFields, (a.latchOpened (min 90 angle)).rd g = a.openSet.rd g := fun g mem =>
      rd g ⟨(latchFields_apart g mem).1⟩ (latchFields_apart g mem).2.1
    refine ⟨_, sampled, shown (read.kept ((congrArg State.lag notes.eq :).trans lag) fun g mem => ?_), ?_, ?_, ?_, ?_, ?_⟩
    · obtain ⟨latch, records, cause⟩ := readFields_apart g mem
      exact (rd g ⟨records⟩ cause).trans (others g latch)
    · rw [own _ (by simp [latchFields]), isOpen]
    · rw [own _ (by simp [latchFields]), drains]
    · exact (congrArg State.openAt notes.eq :).trans (since.trans (congrArg some clock))
    · rw [own _ (by simp [latchFields]), counted, openings]
    · exact (congrArg State.cores notes.eq :).trans (cores.trans (congrArg State.cores frame :))
  case closing =>
    intro isOpen narrow
    have stays : ¬ min 90 angle ≥ 80 := by omega
    have notShut : ¬ (a.rd Reg.SF_LATCH_OPEN = 0 ∧ min 90 angle > 15) := by omega
    have moves : a.latchMoved angle = a.latchClosed := (if_neg notShut).trans (if_pos ⟨opens.trans isOpen, by omega⟩)
    rw [if_neg stays, moves] at sampled
    obtain ⟨shut, drained, others⟩ := a.latchClosed_rd
    have after := a.latchClosed_frame
    refine ⟨_, sampled, shown (read.kept (congrArg State.lag after :) fun g mem => others g (readFields_apart g mem).1), shut, drained, ?_⟩
    have lag : a.latchClosed.lag = a.lag := (congrArg State.lag after :)
    rw [lag]
    generalize a.latchClosed = u at after ⊢
    exact after.trans (congrArg (fun x : State => ({ x with regs := u.regs, openAt := none } : State)) frame)
  case between =>
    intro atLeast atMost
    have stays : ¬ min 90 angle ≥ 80 := by omega
    have notOpened : ¬ (a.rd Reg.SF_LATCH_OPEN = 0 ∧ min 90 angle > 15) := by omega
    have notClosed : ¬ (a.rd Reg.SF_LATCH_OPEN = 1 ∧ min 90 angle < 10) := by omega
    have moves : a.latchMoved angle = a := (if_neg notOpened).trans (if_neg notClosed)
    rw [if_neg stays, moves] at sampled
    exact ⟨_, sampled, shown read, opens, frame⟩
  case leaving =>
    intro here
    refine ⟨fun wide => ?_, fun isOpen => ?_⟩
    · have withdraws : min 90 angle ≥ 80 := by omega
      rw [if_pos withdraws] at sampled
      have moved := a.latchMoved_sameModule angle
      have both : s.SameModule (a.latchMoved angle) :=
        ⟨moved.num.trans same.num, moved.booted.trans same.booted, moved.tasks.trans same.tasks, moved.left.trans same.left⟩
      exact ⟨_, sampled, both.leave here⟩
    · have goes : (s.rdb Reg.SF_LATCH_OPEN && s.powered && !s.failed) = true := by simp [State.rdb, isOpen, powered, alive]
      exact ⟨_, congrArg Host.Outcome.next (if_pos goes), State.leave_effect here⟩
  case still =>
    intro shut
    exact congrArg Host.Outcome.next (if_neg (by simp [State.rdb, shut]))
  case ports =>
    intro left
    have goes : (s.rdb Reg.SF_LATCH_LEFT || s.rdb Reg.FD_STATE_SELF_DECLARED) = true := by simp [State.rdb, left]
    obtain ⟨off, cores, down⟩ := s.allPortsDown_held
    exact ⟨_, congrArg Host.Outcome.next (if_pos goes), off, down, cores⟩
  case bar =>
    refine ⟨?_, ?_⟩
    · simp [State.bar, State.barRow, powered]
    · simp [State.bar]

end Sys2Proof.Machine
end


section
/-! Links go down with their cause and come up through training, keying and the clean second (R255, R264, R265, R283-R286, R288, R290). -/

namespace Sys2Proof.Machine

/-! ### What a notice of a link leaves of the ports -/

/-- The register fields of the links and of the optical engines. -/
def Fld.OfLinks (g : Fld) : Prop := 0x00600000 * 64 ≤ g.key ∧ g.key < 0x00940000 * 64

/-- From s the state comes to t with the same ports and the same registers of the links and the optical engines. -/
structure State.SameLinks (s t : State) : Prop where
  ports : t.ports = s.ports
  rd    : ∀ g : Fld, g.OfLinks → t.rd g = s.rd g

theorem State.SameLinks.refl (s : State) : s.SameLinks s := ⟨rfl, fun _ _ => rfl⟩

theorem State.SameLinks.trans {s t u : State} (a : s.SameLinks t) (b : t.SameLinks u) : s.SameLinks u :=
  ⟨b.ports.trans a.ports, fun g h => (b.rd g h).trans (a.rd g h)⟩

theorem State.SameLinks.port {s t : State} (h : s.SameLinks t) (p : Nat) : t.port p = s.port p := congrArg (fun v => v.getD p Port.reset) h.ports

theorem State.sameLinks_of {s t : State} (ports : t.ports = s.ports) (regs : t.regs = s.regs) : s.SameLinks t :=
  ⟨ports, fun g _ => s.rd_congr t g regs⟩

theorem State.wr_sameLinks (s : State) {f : Fld} (v : Nat) (apart : f.key < 0x00600000 * 64 ∨ 0x00940000 * 64 ≤ f.key) : s.SameLinks (s.wr f v) := by
  refine ⟨rfl, fun g h => s.rd_wr_ne f g v ?_⟩
  obtain ⟨low, high⟩ := h
  omega

theorem State.inject_sameLinks (s : State) (p : Packet) : s.SameLinks (s.inject p) := State.sameLinks_of rfl rfl

theorem State.sendFree_sameLinks (s : State) (c : Nat) (p : Packet) : s.SameLinks (s.sendFree c p) := by
  unfold State.sendFree
  refine iteInduction (motive := s.SameLinks) (fun _ => ?_) (fun _ => s.inject_sameLinks p)
  unfold State.sendC0
  dsimp only
  refine iteInduction (motive := fun r : State × Bool => s.SameLinks r.1) (fun _ => ?_) (fun _ => ?_)
  · exact (s.wr_sameLinks _ (.inl (by decide))).trans (State.inject_sameLinks _ p)
  · refine State.SameLinks.trans (t := { s with c0Held := s.c0Held ++ [(c, tokenCost p, p)] }) (State.sameLinks_of rfl rfl) ?_
    exact State.wr_sameLinks _ _ (.inl (by decide))

theorem State.linkNotice_sameLinks (s : State) (kind p cause : Nat) : s.SameLinks (s.linkNotice kind p cause) := s.sendFree_sameLinks _ _

theorem State.startCompute_sameLinks (s : State) (all : Bool) : s.SameLinks (s.startCompute all) := State.sameLinks_of rfl rfl

theorem State.sendDeclaration_sameLinks (s : State) (m cause : Nat) : s.SameLinks (s.sendDeclaration m cause) := State.sameLinks_of rfl rfl

theorem State.detectDead_sameLinks (s : State) : s.SameLinks s.detectDead :=
  foldl_keeps s.SameLinks _ (fun t m h =>
    iteInduction (motive := s.SameLinks) (fun _ => h.trans (t.sendDeclaration_sameLinks m 1)) (fun _ => h)) _ s (.refl s)

theorem State.failAll_sameLinks (s : State) (st : Nat) : s.SameLinks (s.failAll st) :=
  ⟨(congrArg State.ports (s.failAll_onlyEnds st).eq :), fun g h => (s.failTasks_rdBelow s.tasks st).rd g (Nat.lt_trans h.2 (by decide))⟩

theorem State.selfCheck_sameLinks (s : State) : s.SameLinks s.selfCheck := by
  unfold State.selfCheck
  refine iteInduction (motive := s.SameLinks) (fun _ => ?_) (fun _ => .refl s)
  unfold State.selfDeclare
  refine iteInduction (motive := s.SameLinks) (fun _ => .refl s) (fun _ => ?_)
  exact (s.wr_sameLinks _ (.inr (by decide))).trans (State.failAll_sameLinks _ _)

theorem State.noteDown_sameLinks (s : State) (m p : Nat) : s.SameLinks (s.noteDown m p) :=
  iteInduction (motive := s.SameLinks) (fun _ => .refl s) (fun _ => State.sameLinks_of rfl rfl)

theorem State.linkLost_sameLinks (s : State) (p cause : Nat) : s.SameLinks (s.linkLost p cause) := by
  have noted : s.SameLinks { s.noteDown s.modNum p with routable := s.routable.erase p } :=
    (s.noteDown_sameLinks _ _).trans (State.sameLinks_of rfl rfl)
  unfold State.linkLost
  dsimp only
  refine iteInduction (motive := s.SameLinks) (fun _ => noted) (fun _ => ?_)
  exact (((noted.trans (State.linkNotice_sameLinks ..)).trans (State.startCompute_sameLinks ..)).trans
    (State.detectDead_sameLinks _)).trans (State.selfCheck_sameLinks _)

theorem ofLinks_lk {p : Nat} (known : p < 20) {lo w rst : Nat} (within : lo < 64) :
    (⟨Reg.LK_STATE p, lo, w, rst⟩ : Fld).OfLinks ∧ (⟨Reg.LK_DOWN p, lo, w, rst⟩ : Fld).OfLinks ∧ (⟨Reg.LK_CTL p, lo, w, rst⟩ : Fld).OfLinks := by
  refine ⟨⟨?_, ?_⟩, ⟨?_, ?_⟩, ?_, ?_⟩ <;>
  · simp only [Fld.key, Reg.LK_STATE, Reg.LK_DOWN, Reg.LK_CTL]
    omega

theorem State.SameLinks.lk {s t : State} (h : s.SameLinks t) {p : Nat} (known : p < 20) : t.lk p = s.lk p :=
  h.rd _ (ofLinks_lk known (by decide)).1

/-! ### Going down (R285, R286) -/

/-- What a link's going down leaves of its port, from the state s. -/
structure State.WentDown (s u : State) (p cause : Nat) : Prop where
  named   : u.rd (Reg.LK_DOWN_CAUSE p) = cause
  counted : u.rd (Reg.LK_DOWN_DOWNS p) = min (s.rd (Reg.LK_DOWN_DOWNS p) + 1) (2 ^ (Reg.LK_DOWN_DOWNS p).w - 1)
  state   : u.lk p = if cause = 7 then 5 else if s.canTrain p then 1 else 0
  enable  : u.rd (Reg.LK_CTL_ENABLE p) = s.rd (Reg.LK_CTL_ENABLE p)

theorem State.portDown_wentDown (s : State) {p cause : Nat} (known : p < 20) (code : cause < 16) : s.WentDown (s.portDown p cause) p cause := by
  obtain ⟨named, counted⟩ := s.portDown_count known code
  exact ⟨named, counted, s.portDown_lk known cause, (s.portDown_keepsLinks p cause).rd _ (enable_beside known)⟩

theorem State.WentDown.sameLinks {s t u : State} {p cause : Nat} (h : s.WentDown t p cause) (same : t.SameLinks u) (known : p < 20) : s.WentDown u p cause :=
  ⟨(same.rd _ (ofLinks_lk known (by decide)).2.1).trans h.named, (same.rd _ (ofLinks_lk known (by decide)).2.1).trans h.counted,
    (same.lk known).trans h.state, (same.rd _ (ofLinks_lk known (by decide)).2.2).trans h.enable⟩

theorem State.takeDown_wentDown {s : State} {p cause : Nat} (known : p < 20) (code : cause < 16) (on : s.lk p ≠ 0 ∧ s.lk p ≠ 5) :
    s.WentDown (s.takeDown p cause) p cause := by
  have down := s.portDown_wentDown known code
  rw [State.takeDown_eq on]
  exact iteInduction (motive := fun u : State => s.WentDown u p cause) (fun _ => down.sameLinks (State.linkLost_sameLinks ..) known) (fun _ => down)

/-- An event that takes the link down, before service and in it. -/
theorem downs_of {i : Instr} {s : State} {p cause : Nat} (known : p < 20) (code : cause < 16) (runs : exec i s = .next (s.takeDown p cause)) :
    (s.lk p = 1 ∨ s.lk p = 2 ∨ s.lk p = 3 ∨ s.lk p = 6 → ∃ u : State, exec i s = .next u ∧ u.rd (Reg.LK_DOWN_CAUSE p) = cause
        ∧ u.rd (Reg.LK_DOWN_DOWNS p) = min (s.rd (Reg.LK_DOWN_DOWNS p) + 1) (2 ^ (Reg.LK_DOWN_DOWNS p).w - 1)
        ∧ u.lk p = (if cause = 7 then 5 else if s.canTrain p then 1 else 0) ∧ u.txMask p = 0 ∧ u.rxMask p = 0
        ∧ u.rd (Reg.LK_NBR_SEEN_VALID p) = 0
        ∧ ((∀ r ∈ (s.port p).rxProg, r.total ≤ r.got) → u.held = s.held ++ (s.port p).txq.map (fun x => x.2.2))
        ∧ (u.port p).txq = [] ∧ (u.port p).rxProg = [] ∧ (u.port p).framed = false
        ∧ u.cores = s.cores ∧ u.lm = s.lm)
    ∧ (s.lk p = 4 → ∃ u : State, exec i s = .next u ∧ u.lk p = (if cause = 7 then 5 else if s.canTrain p then 1 else 0)
        ∧ u.rd (Reg.LK_DOWN_CAUSE p) = cause) := by
  rw [runs]
  refine ⟨fun before => ⟨_, rfl, ?_⟩, fun serves => ⟨_, rfl, ?_⟩⟩
  · have on : s.lk p ≠ 0 ∧ s.lk p ≠ 5 := by omega
    have idle : ¬ s.lk p = 4 := by omega
    rw [State.takeDown_eq on, if_neg idle]
    obtain ⟨named, counted⟩ := s.portDown_count known code
    obtain ⟨tx, rx, nbr⟩ := s.portDown_masks known cause
    obtain ⟨queue, progress, framed⟩ := s.portDown_emptied known cause
    have only := (s.portDown_keepsLinks p cause).only
    exact ⟨named, counted, s.portDown_lk known cause, tx, rx, nbr, s.portDown_held known cause,
      queue, progress, framed, (congrArg State.cores only.eq :), (congrArg State.lm only.eq :)⟩
  · have down := s.takeDown_wentDown known code ⟨by omega, by omega⟩
    exact ⟨down.state, down.named⟩

/-! ### A lane that goes dark (R285) -/

/-- A lane that a port hears no signal on, and has no marker lock on. -/
structure Port.DarkAt (t : Port) (l : Nat) : Prop where
  signal : t.signal.getLsbD l = false
  lock   : t.mLock.getLsbD l = false

theorem State.modPort_darkAt {s : State} {p l : Nat} (h : (s.port p).DarkAt l) (q : Nat) {f : Port → Port} (same : ∀ t : Port, t.DarkAt l → (f t).DarkAt l)
    (known : p < 20) : ((s.modPort q f).port p).DarkAt l := by
  by_cases here : p = q
  · subst here
    rw [State.port_modPort _ _ _ known]
    exact same _ h
  · have other : (s.modPort q f).port p = s.port p := getD_set_other _ _ _ _ _ here
    rw [other]
    exact h

theorem State.freeBuf_darkAt {s : State} {p l : Nat} (h : (s.port p).DarkAt l) (known : p < 20) (a b : Nat) : ((s.freeBuf a b).port p).DarkAt l := by
  unfold State.freeBuf
  split
  · exact h
  · exact State.modPort_darkAt h a (fun _ d => ⟨d.signal, d.lock⟩) known

theorem State.dropCopies_darkAt {s : State} {p l : Nat} (h : (s.port p).DarkAt l) (known : p < 20) (a b : Nat) : ((s.dropCopies a b).port p).DarkAt l := by
  unfold State.dropCopies State.port
  dsimp only
  rw [getD_map _ _ p Port.reset Port.reset known]
  exact ⟨h.signal, h.lock⟩

theorem State.abandonRx_darkAt {s : State} {p l : Nat} (h : (s.port p).DarkAt l) (known : p < 20) (q vc : Nat) : ((s.abandonRx q vc).port p).DarkAt l := by
  unfold State.abandonRx
  split
  · dsimp only
    refine State.freeBuf_darkAt ?_ known _ _
    refine State.modPort_darkAt ?_ q (fun _ d => ⟨d.signal, d.lock⟩) known
    exact State.dropCopies_darkAt h known _ _
  · exact h

theorem State.abandonAll_darkAt {s : State} {p l : Nat} (h : (s.port p).DarkAt l) (known : p < 20) (q : Nat) : ((s.abandonAll q).port p).DarkAt l :=
  foldl_keeps (fun t : State => (t.port p).DarkAt l) _ (fun _ r d => State.abandonRx_darkAt d known q r.vc) _ s h

theorem State.requeue_darkAt {s : State} {p l : Nat} (h : (s.port p).DarkAt l) (known : p < 20) (q : Nat) : ((s.requeue q).port p).DarkAt l := by
  unfold State.requeue
  refine State.modPort_darkAt ?_ q (fun _ d => ⟨d.signal, d.lock⟩) known
  exact h

theorem State.bringUp_darkAt {s : State} {p l : Nat} (h : (s.port p).DarkAt l) (known : p < 20) (q : Nat) : ((s.bringUp q).port p).DarkAt l :=
  iteInduction (motive := fun t : State => (t.port p).DarkAt l) (fun _ => by
    have started := State.modPort_darkAt h q (f := fun t => { t with stage := 0, pStage := 0, adapted := 0, pReady := 0, framed := false })
      (fun _ d => ⟨d.signal, d.lock⟩) known
    exact started) (fun _ => h)

theorem State.cutOff_darkAt {s : State} {p l : Nat} (h : (s.port p).DarkAt l) (known : p < 20) (q : Nat) (was : Port) (cause : Nat) :
    ((s.cutOff q was cause).port p).DarkAt l := by
  refine foldl_keeps (fun t : State => (t.port p).DarkAt l) _ (fun _ x d => State.freeBuf_darkAt d known x.1 x.2) _ _ ?_
  refine State.modPort_darkAt h q (fun _ d => ⟨d.signal, BitVec.getLsbD_zero⟩) known

theorem State.SamePorts.darkAt {s t : State} {p l : Nat} (same : s.SamePorts t) (h : (s.port p).DarkAt l) : (t.port p).DarkAt l := by
  have port : t.port p = s.port p := congrArg (fun v => v.getD p Port.reset) same.ports
  rw [port]
  exact h

theorem State.portDown_darkAt {s : State} {p l : Nat} (h : (s.port p).DarkAt l) (known : p < 20) (q cause : Nat) : ((s.portDown q cause).port p).DarkAt l := by
  have sorted := State.cutOff_darkAt (State.abandonAll_darkAt (State.requeue_darkAt ((s.downRecorded_samePorts q cause).darkAt h) known q) known q) known q
    (s.port q) cause
  have cleared := ((State.masksCleared_onlyRegs _ q).samePorts).darkAt sorted
  unfold State.portDown
  generalize State.masksCleared _ q = t at cleared
  exact iteInduction (motive := fun t : State => (t.port p).DarkAt l) (fun _ => cleared)
    (fun _ => State.bringUp_darkAt (s := t.setLk q (if cause = 7 then 5 else 0)) cleared known q)

theorem State.takeDown_darkAt {s : State} {p l : Nat} (h : (s.port p).DarkAt l) (known : p < 20) (q cause : Nat) : ((s.takeDown q cause).port p).DarkAt l := by
  by_cases still : s.lk q = 0 ∨ s.lk q = 5
  · have same : s.takeDown q cause = s := if_pos still
    rwa [same]
  · rw [State.takeDown_eq (not_or.mp still)]
    have down := State.portDown_darkAt h known q cause
    refine iteInduction (motive := fun t : State => (t.port p).DarkAt l) (fun _ => ?_) (fun _ => down)
    rwa [(State.linkLost_sameLinks _ q cause).port p]

theorem State.checkLanes_darkAt {s : State} {p l : Nat} (h : (s.port p).DarkAt l) (known : p < 20) (q : Nat) : ((s.checkLanes q).port p).DarkAt l := by
  refine iteInduction (motive := fun t : State => (t.port p).DarkAt l) (fun _ => h) (fun _ => State.takeDown_darkAt ?_ known q 2)
  exact iteInduction (motive := fun t : State => (t.port p).DarkAt l) (fun _ => h) (fun _ => h)

theorem State.loseLane_darkAt {s : State} {p l : Nat} (h : (s.port p).DarkAt l) (known : p < 20) (q m : Nat) : ((s.loseLane q m).port p).DarkAt l :=
  iteInduction (motive := fun t : State => (t.port p).DarkAt l) (fun _ => h) (fun _ =>
    iteInduction (motive := fun t : State => (t.port p).DarkAt l) (fun _ => State.checkLanes_darkAt h known q)
      (fun _ => State.modPort_darkAt h q (fun _ d => ⟨d.signal, d.lock⟩) known))

/-- A port that has lost the signal of a lane. -/
def Port.darkened (t : Port) (l : Nat) : Port :=
  { t with signal := t.signal &&& ~~~ (laneBit l), mLock := t.mLock &&& ~~~ (laneBit l), adapted := t.adapted &&& ~~~ (laneBit l) }

theorem darkened_bit (m : BitVec 16) (l k : Nat) : (m &&& ~~~ (laneBit l)).getLsbD k = (m.getLsbD k && decide (k ≠ l)) := by
  unfold laneBit
  rw [BitVec.getLsbD_and, BitVec.getLsbD_not, BitVec.getLsbD_twoPow]
  by_cases within : k < 16
  · by_cases same : l = k
    · simp [same, within]
    · simp [same, within, Ne.symm same]
  · simp [BitVec.getLsbD_of_ge m k (by omega)]

theorem Port.darkened_darkAt (t : Port) (l : Nat) : (t.darkened l).DarkAt l := by
  constructor <;>
  · refine (darkened_bit _ l l).trans ?_
    simp

theorem exec_lossOfSignal_darkAt (port : PortId) (lane : Fin 16) (s : State) :
    ∃ u : State, exec (.lossOfSignal port lane) s = .next u ∧ (u.port port.val).DarkAt lane.val := by
  have dark : ((s.modPort port.val (fun t => t.darkened lane.val)).port port.val).DarkAt lane.val := by
    rw [State.port_modPort _ _ _ port.isLt]
    exact Port.darkened_darkAt _ _
  refine ⟨_, rfl, ?_⟩
  refine iteInduction (motive := fun t : State => (t.port port.val).DarkAt lane.val) (fun _ => ?_) (fun _ => ?_)
  · exact iteInduction (motive := fun t : State => (t.port port.val).DarkAt lane.val) (fun _ => State.loseLane_darkAt dark port.isLt _ _) (fun _ => dark)
  · refine iteInduction (motive := fun t : State => (t.port port.val).DarkAt lane.val) (fun _ => ?_) (fun _ => dark)
    refine iteInduction (motive := fun t : State => (t.port port.val).DarkAt lane.val) (fun _ => ?_) (fun _ => dark)
    exact State.takeDown_darkAt (s := (s.modPort port.val (fun t => t.darkened lane.val)).toSafe port.val) dark port.isLt _ _

/-- Taking one element from a list without repetition takes one from its length at most. -/
theorem length_filter_ne (l : List Nat) (distinct : l.Nodup) (a : Nat) : l.length ≤ (l.filter (fun x => decide (x ≠ a))).length + 1 := by
  have erased : l.erase a = l.filter (fun x => decide (x ≠ a)) := by
    rw [distinct.erase_eq_filter a]
    refine List.filter_congr fun x _ => ?_
    rw [decide_not]
    rfl
  rw [← erased, List.length_erase]
  split <;> omega

/-- The working lanes without the one that went dark. -/
theorem State.darkened_working (s : State) {p : Nat} (known : p < 20) (l : Nat) :
    (s.modPort p (fun t => t.darkened l)).working p = (s.working p).filter (fun x => decide (x ≠ l)) := by
  have port := State.port_modPort s p (fun t => t.darkened l) known
  have mask : (s.modPort p (fun t => t.darkened l)).rxMask p = s.rxMask p := rfl
  unfold State.working
  rw [port, mask, List.filter_filter]
  refine List.filter_congr fun x _ => ?_
  dsimp only [Port.darkened]
  rw [darkened_bit, darkened_bit]
  cases (s.port p).signal.getLsbD x <;> cases (s.port p).mLock.getLsbD x <;> simp

theorem State.working_nodup (s : State) (p : Nat) : (s.working p).Nodup :=
  (List.nodup_range.filter _).filter _

/-- While eight lanes still work, the mask is to lose the one that went dark. -/
theorem exec_lossOfSignal_asked {port : PortId} {lane : Fin 16} {s : State} (runs : s.linkRuns port.val = true)
    (used : (s.rxMask port.val).getLsbD lane.val = true) (many : 9 ≤ (s.working port.val).length) :
    exec (.lossOfSignal port lane) s = .next ((s.modPort port.val (fun t => t.darkened lane.val)).linkFlit port.val (.laneReq lane.val false)) := by
  have left := length_filter_ne (s.working port.val) (s.working_nodup _) lane.val
  rw [← s.darkened_working port.isLt] at left
  have framed : (s.modPort port.val (fun t => t.darkened lane.val)).linkRuns port.val = true := by
    have port := State.port_modPort s port.val (fun t => t.darkened lane.val) port.isLt
    unfold State.linkRuns at runs ⊢
    rw [port]
    exact runs
  have inService : ¬ (s.lk port.val ≤ 1 ∨ s.lk port.val = 5) := by
    unfold State.linkRuns at runs
    simp only [Bool.and_eq_true, Bool.or_eq_true, beq_iff_eq] at runs
    omega
  refine congrArg Host.Outcome.next ((if_pos framed).trans ((if_pos used).trans ((if_neg inService).trans (if_neg ?_))))
  change ¬ ((s.modPort port.val (fun t => t.darkened lane.val)).working port.val).length < 8
  omega

/-! ### Bring-up (R264, R283, R290) -/

/-- A port that starts to train. -/
def Port.untrained (t : Port) : Port := { t with stage := 0, pStage := 0, adapted := 0, pReady := 0, framed := false }

theorem State.bringUp_starts {u : State} {p : Nat} (may : u.canTrain p = true) : u.bringUp p = (u.modPort p Port.untrained).setLk p 1 := if_pos may

theorem State.bringUp_trains {u : State} {p : Nat} (may : u.canTrain p = true) : (u.bringUp p).lk p = 1 := by
  rw [State.bringUp_starts may]
  exact State.rd_wr _ _ _

theorem State.bringUp_barred {u : State} {p : Nat} (may : u.canTrain p = false) : u.bringUp p = u := if_neg (by rw [may]; decide)

/-- A port that trains stays in training. -/
theorem State.bringUp_training {u : State} {p : Nat} (trains : u.lk p = 1) : (u.bringUp p).lk p = 1 := by
  cases may : u.canTrain p
  · rwa [State.bringUp_barred may]
  · exact State.bringUp_trains may

/-- A port in which a training mark has come. -/
def Port.marked (t : Port) (lane l : Nat) (ad : Bool) : Port :=
  { t with laneOf := t.laneOf.put lane l, adapted := if ad then t.adapted ||| laneBit l else t.adapted }

/-- A port that knows both ends' stages. -/
def Port.staged (t : Port) (own stage : Nat) (ready : BitVec 16) : Port := { t with stage := own, pStage := stage, pReady := ready }

/-- A port whose stream is framed. -/
def Port.frames (t : Port) : Port := { t with framed := true, cwc := 0, mgen := 0, goodRun := 0 }

/-- The stage of a port: 1 once eight lanes are adapted. -/
def ownStage (adapted : BitVec 16) : Nat := if (lanes adapted).length ≥ 8 then 1 else 0

/-- A training mark noted on a port that is not framed; the framed stream starts once both ends are in stage 1. -/
def State.markNoted (s : State) (p own stage : Nat) (ready : BitVec 16) : State :=
  let s := s.modPort p (fun t => t.staged own stage ready)
  if own = 1 ∧ stage = 1 then
    ((s.modPort p Port.frames).wr (Reg.LK_STATE_TX_MASK p) ready.toNat).wr (Reg.LK_STATE_RX_MASK p) (s.port p).adapted.toNat
  else s

theorem exec_trainingMark {port : PortId} {s : State} (on : s.lk port.val ≠ 0 ∧ s.lk port.val ≠ 5) (fresh : (s.port port.val).framed = false)
    {sync body : List Byte} (mark : leAt (sync ++ body) 0 8 = trainSync) (lane : Fin 16) (ad : Bool) :
    exec (.trainingMarkerRx port lane sync body ad) s = .next
      ((s.modPort port.val (fun t => t.marked lane.val (leAt (sync ++ body) 8 1 % 16) ad)).markNoted port.val
        (ownStage ((s.modPort port.val (fun t => t.marked lane.val (leAt (sync ++ body) 8 1 % 16) ad)).port port.val).adapted)
        (leAt (sync ++ body) 9 1) (BitVec.ofNat 16 (leAt (sync ++ body) 10 2))) := by
  have heard : ¬ (s.lk port.val = 0 ∨ s.lk port.val = 5 ∨ leAt (sync ++ body) 0 8 ≠ trainSync) := by
    rw [mark]
    tauto
  have unframed : ¬ ((s.modPort port.val (fun t => t.marked lane.val (leAt (sync ++ body) 8 1 % 16) ad)).port port.val).framed = true := by
    rw [State.port_modPort _ _ _ port.isLt]
    exact fun h => Bool.false_ne_true (fresh.symm.trans h)
  exact congrArg Host.Outcome.next ((if_neg heard).trans (if_neg unframed))

/-- What a noted mark leaves of the port and its masks. -/
theorem State.markNoted_port (s : State) {p : Nat} (known : p < 20) (fresh : (s.port p).framed = false) (own stage : Nat) (ready : BitVec 16) :
    let u := s.markNoted p own stage ready
    (u.port p).adapted = (s.port p).adapted ∧ (u.port p).pStage = stage ∧ (u.port p).laneOf = (s.port p).laneOf ∧ (u.port p).stage = own
    ∧ (u.port p).framed = (decide (own = 1) && decide (stage = 1))
    ∧ (own = 1 → stage = 1 → u.txMask p = ready ∧ u.rxMask p = (s.port p).adapted) := by
  have staged : (s.modPort p (fun t => t.staged own stage ready)).port p = (s.port p).staged own stage ready := State.port_modPort _ _ _ known
  unfold State.markNoted
  dsimp only
  by_cases both : own = 1 ∧ stage = 1
  · rw [if_pos both]
    have framed : (((((s.modPort p (fun t => t.staged own stage ready)).modPort p Port.frames).wr (Reg.LK_STATE_TX_MASK p) ready.toNat).wr
        (Reg.LK_STATE_RX_MASK p) ((s.modPort p (fun t => t.staged own stage ready)).port p).adapted.toNat).port p) = ((s.port p).staged own stage ready).frames := by
      refine (State.port_modPort _ p Port.frames known).trans ?_
      rw [staged]
    rw [framed, staged]
    have mask : ∀ b : BitVec 16, BitVec.ofNat 16 (b.toNat % 2 ^ 16) = b := fun b => by
      rw [Nat.mod_eq_of_lt b.isLt, BitVec.ofNat_toNat, BitVec.setWidth_eq]
    refine ⟨rfl, rfl, rfl, rfl, ?_, fun _ _ => ⟨?_, ?_⟩⟩
    · rw [decide_eq_true both.1, decide_eq_true both.2]
      rfl
    · have apart : (Reg.LK_STATE_TX_MASK p).key ≠ (Reg.LK_STATE_RX_MASK p).key := by
        simp only [Fld.key, Reg.LK_STATE_TX_MASK, Reg.LK_STATE_RX_MASK]
        omega
      unfold State.txMask
      rw [State.rd_wr_ne _ _ _ _ apart, State.rd_wr]
      exact mask ready
    · unfold State.rxMask
      rw [State.rd_wr]
      exact mask _
  · rw [if_neg both, staged]
    refine ⟨rfl, rfl, rfl, rfl, ?_, fun a b => absurd ⟨a, b⟩ both⟩
    have unframed : ((s.port p).staged own stage ready).framed = false := fresh
    rw [unframed]
    by_cases mine : own = 1
    · have theirs : stage ≠ 1 := fun h => both ⟨mine, h⟩
      simp [theirs]
    · simp [mine]

theorem leAt_two_lt (b : List Byte) (i : Nat) : leAt b i 2 < 2 ^ 16 := by
  have short : ((b.drop i).take 2).length ≤ 2 := List.length_take_le _ _
  unfold leAt
  match h : (b.drop i).take 2 with
  | [] => decide
  | [x] =>
    simp only [leNat]
    have := x.isLt
    omega
  | [x, y] =>
    simp only [leNat]
    have := x.isLt
    have := y.isLt
    omega
  | _ :: _ :: _ :: _ =>
    rw [h] at short
    simp at short

/-- A training mark of 16 lanes' stream. -/
theorem exec_trainingMark_effect {port : PortId} {s : State} (on : s.lk port.val ≠ 0 ∧ s.lk port.val ≠ 5) (fresh : (s.port port.val).framed = false)
    {sync body : List Byte} (mark : leAt (sync ++ body) 0 8 = trainSync) (lane : Fin 16) (ad : Bool) :
    let a := if ad then (s.port port.val).adapted ||| laneBit (leAt (sync ++ body) 8 1 % 16) else (s.port port.val).adapted
    ∃ u : State, exec (.trainingMarkerRx port lane sync body ad) s = .next u ∧ (u.port port.val).adapted = a
      ∧ (u.port port.val).pStage = leAt (sync ++ body) 9 1 ∧ Tab.get (u.port port.val).laneOf 0 lane.val = leAt (sync ++ body) 8 1 % 16
      ∧ (u.port port.val).stage = (if 8 ≤ (lanes a).length then 1 else 0)
      ∧ (u.port port.val).framed = (decide (8 ≤ (lanes a).length) && decide (leAt (sync ++ body) 9 1 = 1))
      ∧ (8 ≤ (lanes a).length → leAt (sync ++ body) 9 1 = 1 → (u.txMask port.val).toNat = leAt (sync ++ body) 10 2 ∧ u.rxMask port.val = a) := by
  intro a
  have marked : (s.modPort port.val (fun t => t.marked lane.val (leAt (sync ++ body) 8 1 % 16) ad)).port port.val
      = (s.port port.val).marked lane.val (leAt (sync ++ body) 8 1 % 16) ad := State.port_modPort _ _ _ port.isLt
  have stage : ownStage a = (if 8 ≤ (lanes a).length then 1 else 0) := rfl
  have first : decide (ownStage a = 1) = decide (8 ≤ (lanes a).length) := by
    rw [stage]
    split <;> simp_all
  obtain ⟨adapted, partner, named, own, framed, masks⟩ :=
    State.markNoted_port (s.modPort port.val (fun t => t.marked lane.val (leAt (sync ++ body) 8 1 % 16) ad)) port.isLt
      (by rw [marked]; exact fresh) (ownStage a) (leAt (sync ++ body) 9 1) (BitVec.ofNat 16 (leAt (sync ++ body) 10 2))
  rw [marked] at adapted named masks
  have runs := exec_trainingMark on fresh mark lane ad
  rw [marked] at runs
  refine ⟨_, runs, adapted, partner, ?_, own.trans stage, ?_, fun wide both => ?_⟩
  · exact (congrArg (fun x : Tab Nat => Tab.get x 0 lane.val) named).trans (Tab.get_put_same ..)
  · rw [← first]
    exact framed
  · obtain ⟨tx, rx⟩ := masks (stage.trans (if_pos wide)) both
    refine ⟨?_, rx⟩
    refine (congrArg BitVec.toNat tx).trans ?_
    rw [BitVec.toNat_ofNat]
    exact Nat.mod_eq_of_lt (leAt_two_lt _ _)

/-! ### Timers and service (R264, R283, R284) -/

/-- A port whose training starts again. -/
def Port.restarted (t : Port) (n : Nat) : Port := { t with restarts := n, adapted := 0, pStage := 0, pReady := 0 }

theorem exec_trainingTimeout {port : PortId} {s : State} (trains : s.lk port.val = 1) (early : (s.port port.val).stage = 0) :
    ∃ u : State, exec (.trainingTimeout port) s = .next u ∧ (u.port port.val).restarts = (s.port port.val).restarts + 1
      ∧ (u.port port.val).adapted = 0 ∧ u.lk port.val = 1 := by
  obtain ⟨n, hn⟩ : ∃ n, n = (s.port port.val).restarts + 1 := ⟨_, rfl⟩
  have port_eq := State.port_modPort s port.val (fun t => t.restarted n) port.isLt
  have runs : exec (.trainingTimeout port) s = .next (if n = 3
      then (s.modPort port.val (fun t => t.restarted n)).raise { Fault_.blank 0 Status.ok 0x0301 with addr := BitVec.ofNat 64 port.val }
      else s.modPort port.val (fun t => t.restarted n)) := by
    rw [hn]
    exact congrArg Host.Outcome.next (if_pos ⟨trains, early⟩)
  have fields : ∀ u : State, s.modPort port.val (fun t => t.restarted n) = u ∨ (s.modPort port.val (fun t => t.restarted n)).OnlyRecords u ∧ u.lk port.val = 1 →
      (u.port port.val).restarts = n ∧ (u.port port.val).adapted = 0 ∧ u.lk port.val = 1 := by
    rintro u (rfl | ⟨records, held⟩)
    · rw [port_eq]
      exact ⟨rfl, rfl, trains⟩
    · have same : u.port port.val = (s.port port.val).restarted n := (congrArg (fun v => v.getD port.val Port.reset) records.samePorts.ports).trans port_eq
      rw [same]
      exact ⟨rfl, rfl, held⟩
  rw [← hn]
  refine ⟨_, runs, fields _ ?_⟩
  split
  · exact .inr ⟨State.raise_onlyRecords _ _, (State.raise_rd _ _ (lkState_beyondRecords port.isLt 0 3 0 (by decide))).trans trains⟩
  · exact .inl rfl

/-- What bring-up leaves of the number of restarts. -/
theorem State.bringUp_restarts (s : State) {p : Nat} (known : p < 20) : ((s.bringUp p).port p).restarts = (s.port p).restarts := by
  cases may : s.canTrain p
  · rw [State.bringUp_barred may]
  · have port := State.port_modPort s p Port.untrained known
    rw [State.bringUp_starts may]
    have same : ((s.modPort p Port.untrained).setLk p 1).port p = (s.modPort p Port.untrained).port p := rfl
    rw [same, port]
    rfl

theorem exec_trainingRetry {port : PortId} {s : State} (trains : s.lk port.val = 1) (often : 3 ≤ (s.port port.val).restarts) :
    ∃ u : State, exec (.trainingRetry port) s = .next u ∧ (u.port port.val).restarts = 0 ∧ u.lk port.val = 1 := by
  have port_eq := State.port_modPort s port.val (fun t => { t with restarts := 0 }) port.isLt
  refine ⟨(s.modPort port.val (fun t => { t with restarts := 0 })).bringUp port.val, congrArg Host.Outcome.next (if_pos ⟨trains, often⟩), ?_,
    State.bringUp_training trains⟩
  rw [State.bringUp_restarts _ port.isLt, port_eq]

/-- A port that begins to key again. -/
def Port.rekeyed (t : Port) : Port := { t with matched := false, pMatch := false, rejected := false, initCr := [], avail := [], keyAt := none }

theorem exec_keyingRepeat {port : PortId} {s : State} (held : s.lk port.val = 6) (framed : (s.port port.val).framed = true) :
    ∃ u : State, exec (.keyingRepeat port) s = .next u ∧ u.lk port.val = 2 ∧ (u.port port.val).matched = false
      ∧ (u.port port.val).initCr = [] ∧ u = { s with ports := u.ports, regs := u.regs } := by
  have port_eq := State.port_modPort s port.val Port.rekeyed port.isLt
  have lk : ((s.modPort port.val Port.rekeyed).setLk port.val 2).lk port.val = 2 := State.rd_wr _ _ _
  have same : ((s.modPort port.val Port.rekeyed).setLk port.val 2).port port.val = (s.modPort port.val Port.rekeyed).port port.val := rfl
  refine ⟨(s.modPort port.val Port.rekeyed).setLk port.val 2, congrArg Host.Outcome.next (if_pos ⟨held, framed⟩), lk, ?_, ?_, rfl⟩ <;>
  · rw [same, port_eq]
    rfl

theorem Port.cleanOver_of {t : Port} {now : Nat} (h : ∃ c, t.clean = some c ∧ c + State.msTicks 1000 ≤ now) : t.cleanOver now = true := by
  obtain ⟨c, clean, done⟩ := h
  unfold Port.cleanOver
  rw [clean]
  exact decide_eq_true done

theorem State.noteUp_sameLinks (s : State) (m p : Nat) : s.SameLinks (s.noteUp m p) := State.sameLinks_of rfl rfl

theorem State.startCompute_isSome (s : State) (all : Bool) : (s.startCompute all).compute.isSome = true := by
  unfold State.startCompute
  dsimp only
  split <;> rfl

/-- The link serves: its port notes it. -/
def State.served (s : State) (p : Nat) : State := { s.setLk p 4 with everUp := s.everUp || decide (p < 14) }

theorem exec_linkEnterService {port : PortId} {s : State} (cleans : s.lk port.val = 3)
    (held : ∃ c, (s.port port.val).clean = some c ∧ c + State.msTicks 1000 ≤ s.clock)
    (partner : (s.port port.val).pState = 3 ∨ (s.port port.val).pState = 4) (matched : (s.port port.val).pMatch = true)
    (alive : s.padlocked (s.rd (Reg.LK_NBR_EXP_MODULE port.val)) = false) :
    ∃ u : State, exec (.linkEnterService port) s = .next u ∧ u.lk port.val = 4 ∧ u.compute.isSome = true ∧ u.cores = s.cores := by
  have cond : s.lk port.val = 3 ∧ (s.port port.val).cleanOver s.clock = true ∧ ((s.port port.val).pState = 3 ∨ (s.port port.val).pState = 4)
      ∧ (s.port port.val).pMatch = true ∧ (!s.padlocked (s.rd (Reg.LK_NBR_EXP_MODULE port.val))) = true :=
    ⟨cleans, Port.cleanOver_of held, partner, matched, by rw [alive]; rfl⟩
  have runs : exec (.linkEnterService port) s = .next ((((s.served port.val).noteUp (s.served port.val).modNum port.val).linkNotice 2 port.val 0).startCompute false) :=
    congrArg Host.Outcome.next (if_pos cond)
  have lk : (s.served port.val).lk port.val = 4 := s.rd_wr (Reg.LK_STATE_STATE port.val) 4
  have links := ((State.noteUp_sameLinks (s.served port.val) (s.served port.val).modNum port.val).trans (State.linkNotice_sameLinks _ 2 port.val 0)).trans
    (State.startCompute_sameLinks _ false)
  refine ⟨_, runs, (links.lk port.isLt).trans lk, State.startCompute_isSome _ _, ?_⟩
  exact State.sendFree_cores ((s.served port.val).noteUp (s.served port.val).modNum port.val) _ _

/-- An ENABLE of 0 takes the link down and holds the port. -/
theorem exec_lkEnable_off {port : PortId} {s : State} (up : s.booted = true) (alive : s.failed = false) :
    ∃ u : State, exec (.lkEnableWrite port false) s = .next u ∧ u.lk port.val = 0 ∧ u.rd (Reg.LK_CTL_ENABLE port.val) = 0 := by
  obtain ⟨t, ht⟩ : ∃ t, t = s.wrb (Reg.LK_CTL_ENABLE port.val) false := ⟨_, rfl⟩
  have off : t.rd (Reg.LK_CTL_ENABLE port.val) = 0 := by
    rw [ht]
    exact State.rd_wr _ _ _
  have kept : (t.takeDown port.val 9).rd (Reg.LK_CTL_ENABLE port.val) = 0 := by
    by_cases still : t.lk port.val = 0 ∨ t.lk port.val = 5
    · have same : t.takeDown port.val 9 = t := if_pos still
      rw [same, off]
    · exact (t.takeDown_wentDown port.isLt (by decide) (not_or.mp still)).enable.trans off
  have apart : (Reg.LK_CTL_ENABLE port.val).key ≠ (Reg.LK_STATE_STATE port.val).key := by
    simp only [Fld.key, Reg.LK_CTL_ENABLE, Reg.LK_CTL, Reg.LK_STATE_STATE, Reg.LK_STATE]
    omega
  have acts : (s.booted && !s.failed) = true := by rw [up, alive]; rfl
  have runs : exec (.lkEnableWrite port false) s = .next ((t.takeDown port.val 9).setLk port.val 0) := by
    rw [ht]
    exact congrArg Host.Outcome.next (if_pos acts)
  exact ⟨_, runs, (State.rd_wr _ _ _).trans (Nat.zero_mod _), (State.rd_wr_ne _ _ _ _ apart).trans kept⟩

/-- RETRAIN and an ENABLE of 1 on a port that is down. -/
theorem exec_released {port : PortId} {s : State} (up : s.booted = true) (alive : s.failed = false) (down : s.lk port.val = 0) :
    exec (.retrain port) s = .next (s.bringUp port.val)
    ∧ exec (.lkEnableWrite port true) s = .next ((s.wr (Reg.LK_CTL_ENABLE port.val) 1).bringUp port.val) := by
  have acts : (s.booted && !s.failed) = true := by rw [up, alive]; rfl
  have still : (s.wr (Reg.LK_CTL_ENABLE port.val) 1).lk port.val = 0 := by
    refine (State.rd_wr_ne _ _ _ _ ?_).trans down
    simp only [Fld.key, Reg.LK_CTL_ENABLE, Reg.LK_CTL, Reg.LK_STATE_STATE, Reg.LK_STATE]
    omega
  exact ⟨congrArg Host.Outcome.next ((if_pos acts).trans (if_pos down)), congrArg Host.Outcome.next ((if_pos acts).trans (if_pos still))⟩

theorem exec_retrain_down {port : PortId} {s : State} (up : s.booted = true) (alive : s.failed = false) (on : s.lk port.val ≠ 0) :
    exec (.retrain port) s = .next (s.takeDown port.val 9) := by
  have acts : (s.booted && !s.failed) = true := by rw [up, alive]; rfl
  exact congrArg Host.Outcome.next ((if_pos acts).trans (if_neg on))

/-- Settles O47: each event is the going down, or the bring-up, of one port, whose effects the lemmas above give piece by piece. -/
theorem linksComeUpAndGoDown : Obligations.LinksComeUpAndGoDown := by
  unfold Obligations.LinksComeUpAndGoDown
  intro port lane s p t downs released
  have retrains (up : s.booted = true) (alive : s.failed = false) : downs (.retrain port) 9 := by
    have on (h : s.lk p ≠ 0) := downs_of port.isLt (by decide) (exec_retrain_down (port := port) up alive h)
    exact ⟨fun h => (on (by omega)).1 h, fun h => (on (by omega)).2 h⟩
  refine ⟨fun runs => ⟨?_, fun cause => ?_⟩, fun cause low high => ?_, fun up alive => ⟨retrains up alive, exec_released up alive, exec_lkEnable_off up alive⟩,
    fun warded => ?_, fun u => ⟨State.bringUp_trains, State.bringUp_barred⟩, fun sync body ad => ?_, fun sync body ad other => ?_,
    exec_trainingTimeout, exec_trainingRetry, exec_keyingRepeat, exec_linkEnterService, rfl, ?_, fun runs used many => ?_⟩
  · exact downs_of port.isLt (by decide) (congrArg Host.Outcome.next (if_pos runs))
  · exact downs_of port.isLt (by decide) (congrArg Host.Outcome.next (if_pos runs))
  · exact downs_of port.isLt (by omega) (congrArg Host.Outcome.next (if_pos ⟨low, high⟩))
  · exact congrArg Host.Outcome.next (if_pos warded)
  · intro b on warded fresh mark l stage a
    exact exec_trainingMark_effect ⟨on, warded⟩ fresh mark lane ad
  · exact congrArg Host.Outcome.next (if_pos (.inr (.inr other)))
  · obtain ⟨u, ran, dark⟩ := exec_lossOfSignal_darkAt port lane s
    exact ⟨u, ran, dark.signal, dark.lock⟩
  · refine ⟨_, exec_lossOfSignal_asked runs used many, ?_, rfl⟩
    unfold State.linkFlit
    rw [State.port_modPort _ _ _ port.isLt, State.port_modPort _ _ _ port.isLt]
    rfl

end Sys2Proof.Machine
end


section
/-! A calibration slot of a port whose engine's status names an emitter that no engine has (R319, R320, R335). -/

namespace Sys2Proof.Machine

/-- Port 0 serves on all its lanes, ring 1 of it is unlocked and ring 0 locked; engine 0 is in a swap of emitter 12, whose register
would be the one of the locks. -/
def swapsBeyondLast : State :=
  ((((((State.reset.wr Reg.GLB_BOOT_STAGE 4).wr (Reg.LK_STATE_STATE 0) 4).wr (Reg.LK_STATE_TX_MASK 0) 0xFFFF).wr (Reg.OE_STATUS_SWAP_STATE 0) 2).wr
    (Reg.OE_STATUS_SWAP_EMITTER 0) 12).wr (Reg.OE_LOCK_LOCKED 0) 1).modPort 0 (fun t => { t with unlocked := [(1, 0)] })

/-- The lane that port 0 calibrates after a step. -/
def calibratesAfter (o : Host.Outcome State Fault Refusal) : Option Nat :=
  match o with
  | .next u => (u.port 0).calLane
  | _ => none

/-- The ring holds, the locks no longer read as port A's role, and the slot is taken. -/
theorem calSlot_takesLane : calibratesAfter (exec (.calSlot ⟨0, 0xFFFF⟩) swapsBeyondLast) = some 0 := by decide +kernel

/-- Refutes O51: the condition to skip a slot is read after the relock, and where SWAP_EMITTER holds 12, the role of that emitter is
read from the register of the locks, which the relock writes: a slot to be skipped by the state before is taken. -/
theorem not_emittersLanesAndConnectors : ¬ Obligations.EmittersLanesAndConnectors := by
  unfold Obligations.EmittersLanesAndConnectors
  rintro ⟨-, lanes_⟩
  obtain ⟨skipped, -⟩ := lanes_ 0 0 0 0xFFFF swapsBeyondLast (by decide +kernel)
  have run := skipped (by decide +kernel) (by decide +kernel)
  have taken := calSlot_takesLane
  rw [run] at taken
  exact absurd taken (by decide +kernel)

end Sys2Proof.Machine
end


section
/-! Held packets are routed, held, answered or dropped as their table entry says (R246, R248, R250, R274, R289, R311, R418). -/

namespace Sys2Proof.Machine

/-! ### What the held packets do not change -/

/-- The state with other held packets. -/
def State.holds (s : State) (held : List Held) : State := { s with held := held }

theorem State.usable_congr {s t : State} (regs : t.regs = s.regs) (routable : t.routable = s.routable) (p : Nat) : t.usable p = s.usable p := by
  have rd (f : Fld) : t.rd f = s.rd f := s.rd_congr t f regs
  unfold State.usable State.fdDead
  rw [rd, rd, rd, routable]

theorem State.lookupDims_congr {s t : State} (regs : t.regs = s.regs) (routable : t.routable = s.routable) (e : Nat) (dt : Bool) (ks : List Nat) :
    t.lookupDims e dt ks = s.lookupDims e dt ks := by
  induction ks with
  | nil => rfl
  | cons k ks ih =>
    unfold State.lookupDims
    simp only [State.usable_congr regs routable, ih]

theorem State.route_congr {s t : State} (regs : t.regs = s.regs) (d : Nat) : t.route d = s.route d := by
  unfold State.route
  rw [s.rd_congr t _ regs, s.rd_congr t _ regs]

theorem State.lookup_congr {s t : State} (regs : t.regs = s.regs) (routable : t.routable = s.routable) (d : Nat) (dt : Bool) :
    t.lookup d dt = s.lookup d dt := by
  unfold State.lookup
  rw [State.route_congr regs]
  dsimp only
  rw [State.lookupDims_congr regs routable]

theorem State.takeSlot_isNone_holds (s : State) (held : List Held) (gid seq chunk : Nat) :
    ((s.holds held).takeSlot gid seq chunk).isNone = (s.takeSlot gid seq chunk).isNone := by
  have slot : (s.holds held).slot? gid (seq % 16) chunk = s.slot? gid (seq % 16) chunk := rfl
  have free : (s.holds held).slotFree gid = s.slotFree gid := rfl
  unfold State.takeSlot
  rw [slot, free]
  split
  · rfl
  · split <;> rfl

/-- Whether a collective data packet finds its slot does not depend on what the router holds. -/
theorem State.wantsSlot_holds (s : State) (held : List Held) (p : Packet) : (s.holds held).wantsSlot p = s.wantsSlot p := by
  have input (x : Coll) : ((s.holds held).collInput x p).isNone = (s.collInput x p).isNone := by
    have num : (s.holds held).modNum = s.modNum := rfl
    unfold State.collInput
    rw [num]
    split
    · rw [Option.isNone_some, Option.isNone_some]
    · split
      · rw [Option.isNone_some, Option.isNone_some]
      · split
        · rw [Option.isNone_some, Option.isNone_some]
        · split
          · rw [Option.isNone_some, Option.isNone_some]
          · rw [Option.isNone_map, Option.isNone_map]
            exact s.takeSlot_isNone_holds held _ _ _
  have arrive : ((s.holds held).collArrive p).isNone = (s.collArrive p).isNone := by
    have found : (s.holds held).collBy (cdGid p) (cdSeq4 p) = s.collBy (cdGid p) (cdSeq4 p) := rfl
    have kept : (s.holds held).triples = s.triples := rfl
    unfold State.collArrive
    rw [found, kept]
    split
    · exact input _
    · split
      · rw [Option.isNone_some, Option.isNone_some]
      · rw [Option.isNone_map, Option.isNone_map]
        exact s.takeSlot_isNone_holds held _ _ _
  unfold State.wantsSlot
  rw [arrive]

/-- The flits of a packet that the hub takes are freed before or after. -/
theorem State.freeFlits_hubIn (s : State) (h : Held) (hubIn : List Packet) :
    ({ s with hubIn := hubIn } : State).freeFlits h = { s.freeFlits h with hubIn := hubIn } := by
  unfold State.freeFlits
  split
  · rfl
  · unfold State.freeBuf
    have port : ∀ a, ({ s with hubIn := hubIn } : State).port a = s.port a := fun _ => rfl
    rw [port]
    split <;> rfl

theorem State.freeFlits_keepsLinks (s : State) (h : Held) : s.KeepsLinks (s.freeFlits h) [] := by
  unfold State.freeFlits
  split
  · exact .refl s
  · exact s.freeBuf_keepsLinks _ _

theorem State.freeFlits_held (s : State) (h : Held) : (s.freeFlits h).held = s.held := by
  unfold State.freeFlits
  split
  · rfl
  · exact s.freeBuf_held _ _

theorem State.freeFlits_hub (s : State) (h : Held) : (s.freeFlits h).hubIn = s.hubIn := (congrArg State.hubIn (s.freeFlits_keepsLinks h).only.eq :)

/-! ### One packet -/

/-- A packet that has been looked up. -/
def Held.start (h : Held) : Held := { h with started := true }

theorem exec_packetRoute {s : State} {h : Held} {arrived : Option PortId}
    (found : s.held.find? (fun (x : Held) => x.pkt == h.pkt && x.arrived == arrived.map Fin.val) = some h) :
    exec (.packetRoute h.pkt arrived) s = .next ((s.holds (s.held.erase h)).routeHeld h) :=
  congrArg (fun o : Option Held => Host.Outcome.next ((s.holds (s.held.erase (o.getD
    { pkt := h.pkt, arrived := arrived.map Fin.val, buf := 0, due := 0, started := false }))).routeHeld (o.getD
    { pkt := h.pkt, arrived := arrived.map Fin.val, buf := 0, due := 0, started := false }))) found

/-- A packet that may go on: one of this module, or one of fewer than 16 hops. -/
theorem State.routeHeld_on (s : State) {h : Held} (few : h.arrived = none ∨ h.pkt.hops < 16) :
    s.routeHeld h = match mcMask h.pkt with
      | some m => (s.routeMc h.start m).freeFlits h
      | none => s.routeUni h.start := by
  have within : ¬ (h.arrived.isSome && decide (h.pkt.hops ≥ 16)) = true := by
    rcases few with own | few
    · rw [own]
      simp
    · simp [few]
  refine (if_neg within).trans ?_
  rfl

/-- A packet whose hops are over is dropped and counted. -/
theorem State.routeHeld_dropped (s : State) {h : Held} (came : h.arrived.isSome = true) (many : 16 ≤ h.pkt.hops) :
    s.routeHeld h = ((s.freeFlits h).bump Reg.RT_STAT_HOP_DROPS 1).raise { Fault_.blank 0 Status.ok 0x0401 with other := h.pkt.dst } :=
  if_pos (by rw [came, decide_eq_true many]; rfl)

/-! ### A packet for one module -/

/-- What a lookup's outcome does with a packet. -/
def State.hopTaken (s : State) (h : Held) (hop : Hop) : State :=
  match hop with
  | .invalid =>
    let s := s.freeFlits h
    if isRequest h.pkt.typ.val then (s.bump Reg.RT_STAT_NO_ROUTE 1).answerStatus h.pkt Status.addrRange else s
  | .padlock => (s.freeFlits h).answerStatus h.pkt Status.padlocked
  | .toHub => if h.due = 0 && !s.wantsSlot h.whole then { s.freeFlits h with hubIn := s.hubIn ++ [h.whole] } else { s with held := s.held ++ [h] }
  | .out port det force => (s.toPort port (s.hopHeader h.pkt h.arrived (s.route h.pkt.dst) port (det || force)) h).countDetour det
  | .hold => { s with held := s.held ++ [h] }

theorem State.routeUni_eq (s : State) (h : Held) : s.routeUni h = s.hopTaken h (s.lookup h.pkt.dst h.pkt.dt) := rfl

theorem rtPrimary_port {e k p : Nat} (h : rtPrimary e k = some p) : p < 20 := by
  unfold rtPrimary at h
  dsimp only at h
  rw [Option.ite_none_right_eq_some, Option.some_inj] at h
  exact h.2 ▸ h.1.1

theorem rtDetour_port {e k p : Nat} (h : rtDetour e k = some p) : p < 20 := by
  unfold rtDetour at h
  dsimp only at h
  rw [Option.ite_none_right_eq_some, Option.some_inj] at h
  have low := h.1.1
  rw [h.2] at low
  omega

/-- A lookup names a port of the module. -/
theorem State.lookupDims_port {s : State} {e port : Nat} {dt det force : Bool} {ks : List Nat} (out : s.lookupDims e dt ks = .out port det force) : port < 20 := by
  induction ks with
  | nil => cases out
  | cons k ks ih =>
    unfold State.lookupDims at out
    split at out
    case h_1 => exact ih out
    case h_2 p primary =>
      split at out
      · cases out
        exact rtPrimary_port primary
      · split at out
        case h_1 d detour =>
          split at out
          · cases out
            exact rtDetour_port detour
          · cases out
        case h_2 => cases out

theorem State.lookup_port {s : State} {d port : Nat} {dt det force : Bool} (out : s.lookup d dt = .out port det force) : port < 20 := by
  unfold State.lookup at out
  dsimp only at out
  split at out
  · cases out
  · split at out
    · cases out
    · split at out
      · cases out
      · exact State.lookupDims_port out

/-- What a port's queue and windows take of a packet. -/
def Port.queued (t : Port) (port : Nat) (q : Packet) (h : Held) : Port :=
  { t with
    txq := t.txq ++ [(pktVc q, q, h)],
    edgeWin :=
      let d := Tab.get t.edgeTag q.src q.tag
      if isEdge port && PT.isReply q.typ.val then t.edgeWin.put d (Tab.get t.edgeWin 0 d - winOf q) else t.edgeWin }

theorem State.toPort_joins (s : State) {port : Nat} {q : Packet} (joins : isEdge port = false ∨ ¬ (q.typ.val = PT.kvUpdate ∨ q.typ.val = PT.collData ∨ q.typ.val = PT.collCtl))
    (h : Held) : s.toPort port q h = s.modPort port (fun t => t.queued port q h) := by
  refine if_neg fun barred => ?_
  simp only [Bool.and_eq_true, Bool.or_eq_true, beq_iff_eq] at barred
  obtain ⟨edge, kind⟩ := barred
  rcases joins with inner | other
  · exact Bool.false_ne_true (inner.symm.trans edge)
  · exact other (by tauto)

theorem State.toPort_barred (s : State) {port : Nat} {q : Packet} (edge : isEdge port = true) (kind : q.typ.val = PT.kvUpdate ∨ q.typ.val = PT.collData ∨ q.typ.val = PT.collCtl)
    (h : Held) : s.toPort port q h = s.freeFlits h := by
  refine if_pos ?_
  simp only [Bool.and_eq_true, Bool.or_eq_true, beq_iff_eq]
  exact ⟨edge, by tauto⟩

/-- The state s with those parts taken from t that a packet's leaving by a port reaches. -/
def State.withPassed (s t : State) : State := { s with ports := t.ports, regs := t.regs, sub := t.sub }

theorem State.countDetour_passed (s : State) (det : Bool) : s.countDetour det = s.withPassed (s.countDetour det) := by
  cases det <;> rfl

/-! ### A multicast packet for one module -/

theorem onesBelow_one {k : Nat} (within : k < 64) : (onesBelow 64 ((0 : Word) ||| BitVec.twoPow 64 k).toNat).length = 1 := by
  have bits : onesBelow 64 ((0 : Word) ||| BitVec.twoPow 64 k).toNat = (List.range 64).filter (fun i => i == k) := by
    refine List.filter_congr fun i mem => ?_
    have low : i < 64 := List.mem_range.mp mem
    have bit : (0 : Word) ||| BitVec.twoPow 64 k = BitVec.twoPow 64 k := BitVec.zero_or
    rw [bit, BitVec.testBit_toNat, BitVec.getLsbD_twoPow]
    by_cases same : i = k
    · simp [same, within]
    · simp [same, Ne.symm same]
  rw [bits, ← List.countP_eq_length_filter]
  exact List.count_eq_one_of_mem List.nodup_range (List.mem_range.mpr within)

theorem cutMasks_one {d : Nat} (known : d < 4096) : cutMasks [d] = [maskFor [d]] := by
  have low : inRackBit d < 64 := Nat.mod_lt _ (by decide)
  have high : rackBit d < 64 := by
    unfold rackBit
    omega
  have places : (onesBelow 64 (maskFor [d]).inRack.toNat).length = 1 := onesBelow_one low
  have racks : (onesBelow 64 (maskFor [d]).racks.toNat).length = 1 := onesBelow_one high
  refine (if_neg Bool.false_ne_true).trans (if_pos ?_)
  rw [places, racks]
  rfl

theorem maskMembers_known {m : MaskPair} {d : Nat} (members : maskMembers m = [d]) : d < 4096 :=
  List.mem_range.mp (List.mem_of_mem_filter (members ▸ List.mem_singleton_self d : d ∈ maskMembers m))

/-- A packet for one module that the hub takes. -/
theorem State.routeMc_toHub (s : State) {h : Held} {m : MaskPair} {d : Nat} (members : maskMembers m = [d]) (here : s.lookup d h.pkt.dt = .toHub) (whole : h.due = 0) :
    s.routeMc h m = { s with hubIn := s.hubIn ++ [setMask h.whole (maskFor [d])] } := by
  have one := cutMasks_one (maskMembers_known members)
  have missed : [d].filter (fun d => s.lookup d h.pkt.dt == .invalid || s.lookup d h.pkt.dt == .padlock) = [] := by
    rw [List.filter_cons, here]
    rfl
  have hops : (([d].map (fun d => s.lookup d h.pkt.dt)).dedup).filter (fun x => x != .invalid && x != .padlock) = [.toHub] := by
    rw [List.map_cons, List.map_nil, here]
    rfl
  have copies : [d].filter (fun d => s.lookup d h.pkt.dt == .toHub) = [d] := by
    rw [List.filter_cons, here]
    rfl
  have sent : s.mcCopies h .toHub [d] = { s with hubIn := s.hubIn ++ [setMask h.whole (maskFor [d])] } := by
    unfold State.mcCopies
    dsimp only
    rw [one]
    exact if_pos whole
  have none_ (u : State) : u.sendMisses h [] = u := by
    unfold State.sendMisses
    split <;> rfl
  unfold State.routeMc
  dsimp only
  rw [members, missed, hops, List.foldl_cons, List.foldl_nil, copies, sent, none_]

/-- A packet for one module that is padlocked or has no entry. -/
theorem State.routeMc_missed (s : State) {h : Held} {m : MaskPair} {d : Nat} (members : maskMembers m = [d])
    (gone : s.lookup d h.pkt.dt = .padlock ∨ s.lookup d h.pkt.dt = .invalid) (multicast : PT.multicast h.pkt.typ.val = true) :
    s.routeMc h m = s.inject (s.replyTo h.pkt PT.mcMiss (leBytes 8 Status.padlocked ++ maskBytes (maskFor [d]))) := by
  have one := cutMasks_one (maskMembers_known members)
  have missed : [d].filter (fun d => s.lookup d h.pkt.dt == .invalid || s.lookup d h.pkt.dt == .padlock) = [d] := by
    rw [List.filter_cons]
    rcases gone with e | e <;>
    · rw [e]
      rfl
  have hops : (([d].map (fun d => s.lookup d h.pkt.dt)).dedup).filter (fun x => x != .invalid && x != .padlock) = [] := by
    rw [List.map_cons, List.map_nil]
    rcases gone with e | e <;>
    · rw [e]
      rfl
  have sent : s.sendMisses h [d] = s.inject (s.replyTo h.pkt PT.mcMiss (leBytes 8 Status.padlocked ++ maskBytes (maskFor [d]))) := by
    unfold State.sendMisses
    have reported : reportsMiss h.pkt = true := multicast
    rw [if_pos reported, one]
    rfl
  unfold State.routeMc
  dsimp only
  rw [members, missed, hops, List.foldl_nil, sent]

/-! ### The statement -/

theorem Held.start_whole (h : Held) : h.start.whole = h.whole := rfl

theorem State.freeFlits_start (s : State) (h : Held) : s.freeFlits h.start = s.freeFlits h := rfl

theorem State.lookup_holds (s : State) (held : List Held) (d : Nat) (dt : Bool) : (s.holds held).lookup d dt = s.lookup d dt := State.lookup_congr rfl rfl d dt

/-- A packet for one module leaves by its lookup's outcome. -/
theorem exec_packetRoute_uni {s : State} {h : Held} {arrived : Option PortId}
    (found : s.held.find? (fun (x : Held) => x.pkt == h.pkt && x.arrived == arrived.map Fin.val) = some h)
    (few : h.arrived = none ∨ h.pkt.hops < 16) (single : mcMask h.pkt = none) :
    exec (.packetRoute h.pkt arrived) s = .next ((s.holds (s.held.erase h)).hopTaken h.start (s.lookup h.pkt.dst h.pkt.dt)) := by
  rw [exec_packetRoute found, State.routeHeld_on _ few, single]
  dsimp only
  rw [State.routeUni_eq]
  exact congrArg (fun hop => Host.Outcome.next ((s.holds (s.held.erase h)).hopTaken h.start hop)) (s.lookup_holds _ _ _)

/-- A packet that leaves by a port. -/
theorem State.hopTaken_out (s : State) (h : Held) {port : Nat} {det force : Bool} (known : port < 20) (q : Packet)
    (header : s.hopHeader h.pkt h.arrived (s.route h.pkt.dst) port (det || force) = q)
    (joins : isEdge port = false ∨ ¬ (q.typ.val = PT.kvUpdate ∨ q.typ.val = PT.collData ∨ q.typ.val = PT.collCtl)) :
    let u := s.hopTaken h (.out port det force)
    u = { s with ports := u.ports, regs := u.regs, sub := u.sub } ∧ (u.port port).txq = (s.port port).txq ++ [(pktVc q, q, h)] := by
  have taken : s.hopTaken h (.out port det force) = (s.modPort port (fun t => t.queued port q h)).countDetour det := by
    refine (congrArg (fun x => (s.toPort port x h).countDetour det) header).trans ?_
    rw [s.toPort_joins joins]
  dsimp only
  rw [taken]
  have counted := (s.modPort port (fun t => t.queued port q h)).countDetour_passed det
  have joined : s.modPort port (fun t => t.queued port q h) = s.withPassed (s.modPort port (fun t => t.queued port q h)) := rfl
  have port_eq : (s.modPort port (fun t => t.queued port q h)).port port = (s.port port).queued port q h := State.port_modPort _ _ _ known
  generalize s.modPort port (fun t => t.queued port q h) = t at counted joined port_eq
  have step := congrArg (fun x => State.withPassed x (t.countDetour det)) joined
  refine ⟨counted.trans step, ?_⟩
  have kept : (t.countDetour det).ports = t.ports := by cases det <;> rfl
  exact ((congrArg (fun v => (v.getD port Port.reset).txq) kept).trans (congrArg Port.txq port_eq))

/-- A packet that may not leave by an edge port. -/
theorem State.hopTaken_barred (s : State) (h : Held) {port : Nat} {det force : Bool} (edge : isEdge port = true)
    (kind : h.pkt.typ.val = PT.kvUpdate ∨ h.pkt.typ.val = PT.collData ∨ h.pkt.typ.val = PT.collCtl) :
    s.hopTaken h (.out port det force) = (s.freeFlits h).countDetour det :=
  congrArg (fun t : State => t.countDetour det)
    (s.toPort_barred (q := s.hopHeader h.pkt h.arrived (s.route h.pkt.dst) port (det || force)) edge kind h)

/-- A head that has waited too long, among the held packets or those queued at the first port. -/
theorem exec_routerHeadTimeout_held {s : State} {h : Held} {i : Nat} (waits : s.held[i]? = some h) :
    exec (.routerHeadTimeout i) s = .next ({ s with held := s.held.eraseIdx i }.freeFlits h) := by
  change execRouterHeadTimeout i s = _
  unfold execRouterHeadTimeout
  rw [waits]

theorem exec_routerHeadTimeout_queued {s : State} {h : Held} {i v : Nat} {q : Packet} (queued : (s.port 0).txq[i]? = some (v, q, h)) :
    exec (.routerHeadTimeout (s.held.length + i)) s = .next ((s.modPort 0 (fun t => { t with txq := t.txq.eraseIdx i })).freeFlits h) := by
  have none_ : s.held[s.held.length + i]? = none := List.getElem?_eq_none (Nat.le_add_right _ _)
  have first : List.range 20 = 0 :: (List.range 20).tail := rfl
  change execRouterHeadTimeout (s.held.length + i) s = _
  unfold execRouterHeadTimeout
  rw [none_, Nat.add_sub_cancel_left, first]
  unfold State.headTimeout
  dsimp only
  rw [queued]

/-- Settles O48: the packet that the search finds leaves the held ones, and what its lookup decides is done with it. -/
theorem packetsAreRouted : Obligations.PacketsAreRouted := by
  unfold Obligations.PacketsAreRouted
  intro arrived h s p h' s0 hop coll
  refine ⟨fun found => ⟨fun few => ⟨fun single => ?_, fun m d mask members => ?_⟩, fun came many => ?_⟩, fun i at_ => ?_, fun i v q queued => ?_⟩
  · have runs (x : Hop) (e : hop = x) : exec (.packetRoute p arrived) s = .next ((s.holds (s.held.erase h)).hopTaken h.start x) :=
      e ▸ exec_packetRoute_uni found few single
    refine ⟨fun here whole free => ?_, fun here waits => ?_, fun port det force out joins => ?_, fun port det force out edge kind => ?_, fun e => ?_, fun e => ?_,
      fun e => ?_⟩
    · have takes : (h.start.due = 0 && !(s.holds (s.held.erase h)).wantsSlot h.start.whole) = true := by
        rw [State.wantsSlot_holds, Held.start_whole, free]
        exact (congrArg (fun b => b && true) (decide_eq_true whole :))
      exact (runs _ here).trans (congrArg Host.Outcome.next (if_pos takes))
    · have stays : ¬ (h.start.due = 0 && !(s.holds (s.held.erase h)).wantsSlot h.start.whole) = true := by
        rw [State.wantsSlot_holds, Held.start_whole]
        rintro both
        simp only [Bool.and_eq_true, decide_eq_true_eq, Bool.not_eq_true'] at both
        rcases waits with due | full
        · exact due both.1
        · exact Bool.false_ne_true (both.2.symm.trans full)
      exact (runs _ here).trans (congrArg Host.Outcome.next (if_neg stays))
    · refine ⟨⟨_, runs _ out, State.hopTaken_out _ _ (State.lookup_port out) _ rfl joins⟩, rfl, rfl, rfl, rfl⟩
    · exact (runs _ out).trans (congrArg Host.Outcome.next (State.hopTaken_barred _ _ edge kind))
    · exact runs _ e
    · exact runs _ e
    · exact runs _ e
  · have mc : exec (.packetRoute p arrived) s = .next (((s.holds (s.held.erase h)).routeMc h.start m).freeFlits h.start) := by
      rw [exec_packetRoute found, State.routeHeld_on _ few, (mask : mcMask h.pkt = some m)]
      rfl
    refine ⟨fun here whole => ?_, fun gone multicast => ?_⟩
    · rw [mc, State.routeMc_toHub (h := h.start) _ members ((s.lookup_holds _ _ _).trans here) whole, State.freeFlits_hubIn]
      rfl
    · have gone' : (s.holds (s.held.erase h)).lookup d h.start.pkt.dt = .padlock ∨ (s.holds (s.held.erase h)).lookup d h.start.pkt.dt = .invalid := by
        rw [State.lookup_holds]
        exact gone
      rw [mc, State.routeMc_missed (h := h.start) _ members gone' multicast]
      exact ⟨_, rfl, State.freeFlits_hub _ _, State.freeFlits_held _ _⟩
  · have dropped := (exec_packetRoute found).trans (congrArg Host.Outcome.next (State.routeHeld_dropped _ came many))
    have freed := (s.holds (s.held.erase h)).freeFlits_keepsLinks h
    have hub := (s.holds (s.held.erase h)).freeFlits_hub h
    have held := (s.holds (s.held.erase h)).freeFlits_held h
    have drops : ((s.holds (s.held.erase h)).freeFlits h).rd Reg.RT_STAT_HOP_DROPS = s.rd Reg.RT_STAT_HOP_DROPS :=
      freed.rd _ ⟨⟨by decide⟩, fun f mem => absurd mem (List.not_mem_nil)⟩
    generalize (s.holds (s.held.erase h)).freeFlits h = t at dropped freed hub held drops
    have records := (t.bump Reg.RT_STAT_HOP_DROPS 1).raise_onlyRecords { Fault_.blank 0 Status.ok 0x0401 with other := h.pkt.dst }
    refine ⟨_, dropped, (congrArg State.held records.eq :).trans held, (congrArg State.hubIn records.eq :).trans hub, ?_⟩
    rw [State.raise_rd _ _ ⟨by decide⟩, State.rd_bump, drops]
  · exact exec_routerHeadTimeout_held at_
  · exact exec_routerHeadTimeout_queued queued

end Sys2Proof.Machine
end


section
/-! Table computations, declarations and readmission (R256, R257, R259, R424-R429, R433). -/

namespace Sys2Proof.Machine

/-! ### What a lost member of a collective leaves -/

theorem State.modSlot_keepsClaims (s : State) (gid seq4 chunk : Nat) (f : CSlot → CSlot) : s.KeepsClaims (s.modSlot gid seq4 chunk f) := s.keepsClaims_tables ..

theorem State.dropSlot_keepsClaims (s : State) (gid seq chunk : Nat) : s.KeepsClaims (s.dropSlot gid seq chunk) := s.keepsClaims_tables ..

theorem State.sendCtl_keepsClaims (s : State) (x : Coll) (dst kind status chunk pkts : Nat) (mask : MaskPair) (gen flags : Nat) :
    s.KeepsClaims (s.sendCtl x dst kind status chunk pkts mask gen flags) := s.sendFree_keepsClaims _ _

theorem State.sendChunk_keepsClaims (s : State) (x : Coll) (dst k : Nat) (down : Bool) (only : Nat) (bs : List Byte) :
    s.KeepsClaims (s.sendChunk x dst k down only bs) :=
  .foldl (fun u _ => iteInduction (motive := u.KeepsClaims) (fun _ => u.inject_keepsClaims _) (fun _ => .refl u)) _

theorem State.noteConsumed_keepsClaims (s : State) (x : Coll) (k m : Nat) : s.KeepsClaims (s.noteConsumed x k m) := by
  unfold State.noteConsumed
  dsimp only
  have noted := s.modSlot_keepsClaims x.gid (x.seq % 16) k (fun z => { z with consumed := if z.consumed.contains m then z.consumed else z.consumed ++ [m] })
  generalize s.modSlot x.gid (x.seq % 16) k _ = t at noted
  split
  · exact noted
  · refine noted.trans (iteInduction (motive := t.KeepsClaims) (fun _ => ?_) (fun _ => .refl t))
    have dropped := t.dropSlot_keepsClaims x.gid x.seq k
    refine iteInduction (motive := t.KeepsClaims) (fun _ => dropped.trans ?_) (fun _ => dropped)
    exact .foldl (fun u d => u.sendCtl_keepsClaims ..) _

theorem State.collReport_keepsClaims (s : State) (x : Coll) (o : CollOpen) : s.KeepsClaims (s.collReport x o) := by
  unfold State.collReport
  split
  · exact iteInduction (motive := s.KeepsClaims) (fun _ => s.spWrite_keepsClaims _ _ _) (fun _ => .refl s)
  · exact .refl s

theorem State.collReap_keepsClaims (s : State) (gid seq : Nat) : s.KeepsClaims (s.collReap gid seq) := by
  unfold State.collReap
  split
  · exact .refl s
  next x _ =>
    dsimp only
    have counted : s.KeepsClaims (if x.allDone ∧ x.counted = false then (s.collStatus x (s.okStatus x)).modColl gid seq (fun y => { y with counted := true }) else s) :=
      iteInduction (motive := s.KeepsClaims) (fun _ => (s.collStatus_keepsClaims x _).trans (State.modColl_keepsClaims ..)) (fun _ => .refl s)
    generalize (if x.allDone ∧ x.counted = false then (s.collStatus x (s.okStatus x)).modColl gid seq (fun y => { y with counted := true }) else s) = t at counted
    exact iteInduction (motive := s.KeepsClaims) (fun _ => counted.trans (State.keepsClaims_tables ..)) (fun _ => counted)

theorem State.collComplete_keepsClaims (s : State) (gid seq : Nat) : s.KeepsClaims (s.collComplete gid seq) := by
  unfold State.collComplete
  split
  · exact .refl s
  · refine State.KeepsClaims.trans ?_ (State.collReap_keepsClaims _ gid seq)
    refine .foldl (fun u o => ?_) _
    exact iteInduction (motive := fun t : State => u.KeepsClaims (t.closeOpen _ o _)) (fun _ => (u.collReport_keepsClaims _ o).trans (State.closeOpen_keepsClaims ..))
      (fun _ => u.closeOpen_keepsClaims ..)

theorem State.castWithout_keepsClaims (s : State) (x : Coll) (m : Nat) : s.KeepsClaims (s.castWithout x m) := by
  unfold State.castWithout
  dsimp only
  have noted : ∀ f : Coll → Coll, s.KeepsClaims (if x.root = s.modNum then s.modColl x.gid x.seq f else s) := fun f =>
    iteInduction (motive := s.KeepsClaims) (fun _ => s.modColl_keepsClaims ..) (fun _ => .refl s)
  refine (noted _).trans (.foldl (fun u k => ?_) _)
  split
  · have passed : ∀ l : List Nat, ∀ bs, u.KeepsClaims (l.foldl (fun (s : State) d => s.sendChunk x d k true allPackets bs) u) := fun l bs =>
      .foldl (fun v d => v.sendChunk_keepsClaims ..) l
    split
    · split
      · exact (passed _ _).trans (State.noteConsumed_keepsClaims ..)
      · exact u.noteConsumed_keepsClaims ..
    · split
      · exact passed _ _
      · exact .refl u
  · exact .refl u

/-- A member's loss leaves the claims of every task, and the registers. -/
theorem State.collMemberLost_keepsClaims (s : State) (m : Nat) : s.KeepsClaims (s.collMemberLost m) := by
  refine .foldl (fun u x => ?_) _
  refine iteInduction (motive := u.KeepsClaims) (fun _ => .refl u) (fun _ => ?_)
  refine iteInduction (motive := u.KeepsClaims) (fun _ => u.collEnd_keepsClaims ..) (fun _ => ?_)
  exact (u.castWithout_keepsClaims x m).trans (State.collComplete_keepsClaims ..)

/-! ### Notices of links (R256, R257) -/

/-- A notice that is taken from the hub changes the hub's packets only. -/
theorem State.takeNotice_eq (s : State) (kind : Nat) : s.takeNotice kind = { s with hubIn := (s.takeNotice kind).hubIn } := by
  unfold State.takeNotice
  split <;> rfl

/-- The state s with those parts taken from t that the notes of links and the declarations that follow reach. -/
def State.withNoted (s t : State) : State :=
  { s with hubIn := t.hubIn, held := t.held, downLinks := t.downLinks, compute := t.compute, declSent := t.declSent }

/-- From s the state comes to t by changing only those parts. -/
structure State.OnlyNoted (s t : State) : Prop where
  eq : t = s.withNoted t

theorem State.OnlyNoted.trans {s t u : State} (a : s.OnlyNoted t) (b : t.OnlyNoted u) : s.OnlyNoted u := by
  have step := congrArg (fun x => State.withNoted x u) a.eq
  exact ⟨b.eq.trans step⟩

theorem State.onlyNoted_lit (s : State) (hubIn : List Packet) (held : List Held) (downLinks : List (Nat × Nat)) (compute : Option Compute) (declSent : List Nat) :
    s.OnlyNoted { s with hubIn := hubIn, held := held, downLinks := downLinks, compute := compute, declSent := declSent } := ⟨rfl⟩

theorem State.takeNotice_onlyNoted (s : State) (kind : Nat) : s.OnlyNoted (s.takeNotice kind) := by
  have lit : s.OnlyNoted { s with hubIn := (s.takeNotice kind).hubIn } := s.onlyNoted_lit ..
  rwa [← s.takeNotice_eq kind] at lit

theorem State.noteDown_onlyNoted (s : State) (m p : Nat) : s.OnlyNoted (s.noteDown m p) :=
  iteInduction (motive := s.OnlyNoted) (fun _ => ⟨rfl⟩) (fun _ => s.onlyNoted_lit ..)

theorem State.startCompute_onlyNoted (s : State) (all : Bool) : s.OnlyNoted (s.startCompute all) := s.onlyNoted_lit ..

theorem State.sendDeclaration_onlyNoted (s : State) (m cause : Nat) : s.OnlyNoted (s.sendDeclaration m cause) := s.onlyNoted_lit ..

/-- Declaring the dead neighbours leaves the known links and the computation. -/
theorem State.detectDead_noted (s : State) : s.OnlyNoted s.detectDead ∧ s.detectDead.downLinks = s.downLinks ∧ s.detectDead.compute = s.compute :=
  foldl_keeps (fun t : State => s.OnlyNoted t ∧ t.downLinks = s.downLinks ∧ t.compute = s.compute) _ (fun t m h =>
    iteInduction (motive := fun u : State => s.OnlyNoted u ∧ u.downLinks = s.downLinks ∧ u.compute = s.compute)
      (fun _ => ⟨h.1.trans (t.sendDeclaration_onlyNoted m 1), h.2⟩) (fun _ => h)) _ s ⟨⟨rfl⟩, rfl, rfl⟩

theorem State.noteDown_links (s : State) (m p : Nat) : (m, p) ∈ (s.noteDown m p).downLinks ∧ ∀ x ∈ s.downLinks, x ∈ (s.noteDown m p).downLinks := by
  unfold State.noteDown
  by_cases known : s.downLinks.contains (m, p) = true
  · rw [if_pos known]
    exact ⟨List.contains_iff_mem.mp known, fun _ mem => mem⟩
  · rw [if_neg known]
    exact ⟨List.mem_append_right _ (List.mem_singleton_self _), fun _ mem => List.mem_append_left _ mem⟩

theorem exec_linkDownNotice {s : State} (alive : s.failed = false) (m port cause : Nat) :
    ∃ u : State, exec (.linkDownNotice m port cause) s = .next u ∧ (m % 4096, port) ∈ u.downLinks ∧ (∀ x ∈ s.downLinks, x ∈ u.downLinks)
      ∧ u.compute.isSome = true ∧ u.cores = s.cores ∧ u.regs = s.regs := by
  have taken := s.takeNotice_onlyNoted 1
  have links : (s.takeNotice 1).downLinks = s.downLinks := by
    rw [State.takeNotice_eq]
  have lives : ¬ (s.takeNotice 1).failed = true := by
    rw [State.takeNotice_eq, alive]
    exact Bool.false_ne_true
  have runs : exec (.linkDownNotice m port cause) s = .next ((((s.takeNotice 1).noteDown (m % 4096) port).startCompute false).detectDead) :=
    congrArg Host.Outcome.next (if_neg lives)
  obtain ⟨here, others⟩ := (s.takeNotice 1).noteDown_links (m % 4096) port
  obtain ⟨only, same, compute⟩ := ((((s.takeNotice 1).noteDown (m % 4096) port).startCompute false)).detectDead_noted
  have all := ((taken.trans (State.noteDown_onlyNoted _ (m % 4096) port)).trans (State.startCompute_onlyNoted _ false)).trans only
  refine ⟨_, runs, ?_, fun x mem => ?_, ?_, (congrArg State.cores all.eq :), (congrArg State.regs all.eq :)⟩
  · rw [same]
    exact here
  · rw [same]
    exact others x (links ▸ mem)
  · rw [compute]
    exact State.startCompute_isSome _ _

theorem exec_linkUpNotice {s : State} (alive : s.failed = false) (m port : Nat) :
    ∃ u : State, exec (.linkUpNotice m port) s = .next u ∧ (m % 4096, port) ∉ u.downLinks ∧ u.compute.isSome = true
      ∧ u = { s with hubIn := u.hubIn, downLinks := u.downLinks, compute := u.compute } := by
  have lives : ¬ (s.takeNotice 2).failed = true := by
    rw [State.takeNotice_eq, alive]
    exact Bool.false_ne_true
  have runs : exec (.linkUpNotice m port) s = .next (((s.takeNotice 2).noteUp (m % 4096) port).startCompute false) := congrArg Host.Outcome.next (if_neg lives)
  refine ⟨_, runs, fun mem => ?_, State.startCompute_isSome _ _, ?_⟩
  · have kept := (List.mem_filter.mp mem).2
    simp at kept
  · rw [State.takeNotice_eq]
    rfl

/-! ### The map (R240, R423) -/

/-- Two states with the same installed map, the same modules declared dead and the same place of this module. -/
structure State.SameMap (s t : State) : Prop where
  rings  : t.rd Reg.RT_CTL_ZLEN = s.rd Reg.RT_CTL_ZLEN ∧ t.rd Reg.RT_CTL_WLEN = s.rd Reg.RT_CTL_WLEN
  mapped : t.rd Reg.RT_LINKS_MAPPED = s.rd Reg.RT_LINKS_MAPPED
  dead   : ∀ i, t.rd (Reg.FD_DEAD_DEAD i) = s.rd (Reg.FD_DEAD_DEAD i)
  num    : t.modNum = s.modNum
  config : t.config = s.config

section
variable {s t : State} (h : s.SameMap t)
include h

theorem State.SameMap.wire (m p : Nat) : t.wire m p = s.wire m p := by
  unfold State.wire
  rw [h.rings.1, h.rings.2]

theorem State.SameMap.present (m : Nat) : t.present m = s.present m := by
  unfold State.present State.cfgByte
  rw [h.config]

theorem State.SameMap.fdDead (m : Nat) : t.fdDead m = s.fdDead m := by
  unfold State.fdDead
  rw [h.dead]

theorem State.SameMap.linkAlive (down : List (Nat × Nat)) (m p : Nat) : t.linkAlive down m p = s.linkAlive down m p := by
  unfold State.linkAlive State.mapped
  simp only [h.wire, h.present, h.fdDead, h.num, h.mapped]

theorem State.SameMap.liveNbrs (down : List (Nat × Nat)) (m : Nat) : t.liveNbrs down m = s.liveNbrs down m := by
  unfold State.liveNbrs
  simp only [h.linkAlive, h.wire]

theorem State.SameMap.distances (down : List (Nat × Nat)) (f : Nat) : ∀ k frontier dist, t.distances down f k frontier dist = s.distances down f k frontier dist := by
  induction f with
  | zero => exact fun _ _ _ => rfl
  | succ f ih =>
    intro k frontier dist
    unfold State.distances
    simp only [h.liveNbrs, ih]

theorem State.SameMap.noRoute (links : t.downLinks = s.downLinks) : t.noRoute = s.noRoute := by
  unfold State.noRoute State.distTo
  simp only [h.distances, h.present, h.fdDead, h.num, links]

end

/-- A register field that a computation reads besides the entries: those of the map and the place. -/
def mapFields : List Fld := [Reg.RT_CTL_ZLEN, Reg.RT_CTL_WLEN, Reg.RT_LINKS_MAPPED, Reg.MOD_POSITION_Z, Reg.MOD_POSITION_W]

theorem State.sameMap_of {s t : State} (rd : ∀ f ∈ mapFields, t.rd f = s.rd f) (dead : ∀ i, t.rd (Reg.FD_DEAD_DEAD i) = s.rd (Reg.FD_DEAD_DEAD i))
    (straps : t.straps = s.straps) (config : t.config = s.config) : s.SameMap t :=
  ⟨⟨rd _ (by simp [mapFields]), rd _ (by simp [mapFields])⟩, rd _ (by simp [mapFields]), dead,
    State.modNum_of_rd straps (rd _ (by simp [mapFields])) (rd _ (by simp [mapFields])), config⟩

/-! ### The flip (R256, R257) -/

/-- A field that no entry of a bank and no record shares. -/
structure Fld.BeyondBank (g : Fld) : Prop where
  records : g.BeyondRecords
  entries : ∀ b d, d < 4096 → b < 2 → g.key ≠ (Reg.RT_ENTRY b d).key

theorem rtEntry_key (b d : Nat) : (Reg.RT_ENTRY b d).key = (0x410000 + b * 0x8000 + d * 8) * 64 := rfl

theorem Fld.beyondBank_of {g : Fld} (records : g.BeyondRecords) (outside : g.key < 0x410000 * 64 ∨ 0x420000 * 64 ≤ g.key) : g.BeyondBank := by
  refine ⟨records, fun b d known bank => ?_⟩
  rw [rtEntry_key]
  omega

theorem rtEntry_beyondRecords {b d : Nat} (bank : b < 2) (known : d < 4096) : (Reg.RT_ENTRY b d).BeyondRecords := by
  refine ⟨fun f mem => ?_⟩
  rw [rtEntry_key]
  simp only [recordFields, List.mem_cons, List.not_mem_nil, or_false] at mem
  rcases mem with rfl | rfl | rfl | rfl | rfl
  all_goals
    simp only [Fld.key, Reg.ERR_STAT_S0_COUNT, Reg.ERR_STAT_LOST, Reg.ERR_STAT, Reg.ERR_PTR_TAIL, Reg.ERR_PTR,
      Reg.HOST_IRQ_CAUSE_ERR, Reg.HOST_IRQ_CAUSE, Reg.MSIX_PBA]
    omega

/-- The entry of a destination that a computation brings about. -/
def State.newEntry (s : State) (all : Bool) (d : Nat) : Nat := if all || s.affected d then s.computeEntry d else s.route d

/-- One entry of the inactive bank is written, and a refused choice of directions is recorded. -/
def State.entryWritten (s : State) (bank : Nat) (all : Bool) (s' : State) (d : Nat) : State :=
  let s'' := s'.wr (Reg.RT_ENTRY bank d) (s.newEntry all d)
  if (all || s.affected d) && s.present (s.viaModule d) && (s.ringPlan (s.rd Reg.RT_ZDIR_DIR) (s.rd Reg.RT_WDIR_DIR) s.modNum (s.viaModule d)).2.2
    then s''.raise { Fault_.blank 0 Status.ok 0x0401 with other := d } else s''

theorem State.writeBank_eq (s : State) (bank : Nat) (all : Bool) : s.writeBank bank all = (List.range 4096).foldl (s.entryWritten bank all) s := rfl

theorem State.entryWritten_onlyRecords (s : State) (bank : Nat) (all : Bool) (s' : State) (d : Nat) : s'.OnlyRecords (s.entryWritten bank all s' d) :=
  iteInduction (motive := s'.OnlyRecords) (fun _ => (s'.wr_onlyRecords _ _).trans (State.raise_onlyRecords _ _)) (fun _ => s'.wr_onlyRecords _ _)

theorem State.entryWritten_rd (s : State) (bank : Nat) (all : Bool) (s' : State) (d : Nat) {g : Fld} (records : g.BeyondRecords) :
    (s.entryWritten bank all s' d).rd g = (s'.wr (Reg.RT_ENTRY bank d) (s.newEntry all d)).rd g :=
  iteInduction (motive := fun t : State => t.rd g = (s'.wr (Reg.RT_ENTRY bank d) (s.newEntry all d)).rd g)
    (fun _ => State.raise_rd _ _ records) (fun _ => rfl)

theorem State.writeBank_onlyRecords (s : State) (bank : Nat) (all : Bool) : s.OnlyRecords (s.writeBank bank all) :=
  foldl_keeps s.OnlyRecords _ (fun t d h => h.trans (s.entryWritten_onlyRecords bank all t d)) _ s (.refl s)

theorem State.writeBank_rd (s : State) {bank : Nat} (known : bank < 2) (all : Bool) {g : Fld} (b : g.BeyondBank) : (s.writeBank bank all).rd g = s.rd g := by
  rw [State.writeBank_eq]
  have steps : ∀ (l : List Nat) (t : State), (∀ d ∈ l, d < 4096) → (l.foldl (s.entryWritten bank all) t).rd g = t.rd g := by
    intro l
    induction l with
    | nil => exact fun _ _ => rfl
    | cons d l ih =>
      intro t bound
      refine (ih _ fun x mem => bound x (List.mem_cons_of_mem _ mem)).trans ?_
      rw [State.entryWritten_rd _ _ _ _ _ b.records]
      exact State.rd_wr_ne _ _ _ _ (b.entries bank d (bound d List.mem_cons_self) known)
  exact steps _ s fun d mem => List.mem_range.mp mem

theorem State.writeBank_entry (s : State) {bank d : Nat} (known : bank < 2) (all : Bool) (within : d < 4096) :
    (s.writeBank bank all).rd (Reg.RT_ENTRY bank d) = s.newEntry all d % 2 ^ 64 := by
  have records := rtEntry_beyondRecords known within
  have brings (t : State) : (s.entryWritten bank all t d).rd (Reg.RT_ENTRY bank d) = s.newEntry all d % 2 ^ 64 := by
    rw [State.entryWritten_rd _ _ _ _ _ records, State.rd_wr]
    rfl
  refine foldl_reaches (P := fun _ => True) (Q := fun t : State => t.rd (Reg.RT_ENTRY bank d) = s.newEntry all d % 2 ^ 64) (m := d)
    (fun _ _ _ _ => trivial) (fun t _ => brings t) (fun t a h => ?_) (List.mem_range.mpr within) trivial
  by_cases same : a = d
  · rw [same]
    exact brings t
  · rw [State.entryWritten_rd _ _ _ _ _ records, State.rd_wr_ne]
    · exact h
    · rw [rtEntry_key, rtEntry_key]
      omega

/-- The inactive bank is written, made active and counted. -/
def State.flipTimed (s : State) (c : Compute) : State :=
  let bank := 1 - s.rd Reg.RT_CTL_ACTIVE_BANK
  let us := (s.clock - c.start) / State.usTicks 1
  let s := ((s.writeBank bank c.all).wr Reg.RT_CTL_ACTIVE_BANK bank).bump Reg.RT_STAT_REPAIRS 1
  (s.wr Reg.RT_REPAIR_TIME_LAST_US us).wr Reg.RT_REPAIR_TIME_MAX_US (max us (s.rd Reg.RT_REPAIR_TIME_MAX_US))

/-- RECOMPUTE reads 0 again. -/
def State.flipped (s : State) (c : Compute) : State := (s.flipTimed c).wr Reg.RT_CTL_RECOMPUTE 0

theorem State.flipped_onlyRecords (s : State) (c : Compute) : s.OnlyRecords (s.flipped c) :=
  (((((s.writeBank_onlyRecords _ c.all).trans (State.wr_onlyRecords _ _ _)).trans (State.wr_onlyRecords _ _ _)).trans (State.wr_onlyRecords _ _ _)).trans
    (State.wr_onlyRecords _ _ _)).trans (State.wr_onlyRecords _ _ _)

/-- The fields that a flip writes besides the bank. -/
def flipFields : List Fld := [Reg.RT_CTL_ACTIVE_BANK, Reg.RT_STAT_REPAIRS, Reg.RT_REPAIR_TIME_LAST_US, Reg.RT_REPAIR_TIME_MAX_US, Reg.RT_CTL_RECOMPUTE]

theorem State.flipped_rd_bank (s : State) (c : Compute) {g : Fld} (apart : ∀ f ∈ flipFields, g.key ≠ f.key) :
    (s.flipped c).rd g = (s.writeBank (1 - s.rd Reg.RT_CTL_ACTIVE_BANK) c.all).rd g := by
  unfold State.flipped State.flipTimed
  dsimp only
  rw [State.rd_wr_ne _ _ _ _ (apart _ (by simp [flipFields])), State.rd_wr_ne _ _ _ _ (apart _ (by simp [flipFields])),
    State.rd_wr_ne _ _ _ _ (apart _ (by simp [flipFields])), State.bump_rd_ne _ _ (apart _ (by simp [flipFields])),
    State.rd_wr_ne _ _ _ _ (apart _ (by simp [flipFields]))]

theorem State.flipped_rd (s : State) (c : Compute) {g : Fld} (b : g.BeyondBank) (apart : ∀ f ∈ flipFields, g.key ≠ f.key) : (s.flipped c).rd g = s.rd g :=
  (s.flipped_rd_bank c apart).trans (s.writeBank_rd (by omega) c.all b)

theorem State.flipped_entry (s : State) (c : Compute) {d : Nat} (within : d < 4096) :
    (s.flipped c).rd (Reg.RT_ENTRY (1 - s.rd Reg.RT_CTL_ACTIVE_BANK) d) = s.newEntry c.all d % 2 ^ 64 := by
  refine (s.flipped_rd_bank c fun f mem => ?_).trans (s.writeBank_entry (by omega) c.all within)
  rw [rtEntry_key]
  simp only [flipFields, List.mem_cons, List.not_mem_nil, or_false] at mem
  rcases mem with rfl | rfl | rfl | rfl | rfl
  all_goals
    simp only [Fld.key, Reg.RT_CTL_ACTIVE_BANK, Reg.RT_STAT_REPAIRS, Reg.RT_REPAIR_TIME_LAST_US, Reg.RT_REPAIR_TIME_MAX_US, Reg.RT_CTL_RECOMPUTE,
      Reg.RT_CTL, Reg.RT_STAT, Reg.RT_REPAIR_TIME]
    omega

theorem State.flipped_counts (s : State) (c : Compute) :
    (s.flipped c).rd Reg.RT_CTL_RECOMPUTE = 0 ∧ (s.flipped c).rd Reg.RT_CTL_ACTIVE_BANK = 1 - s.rd Reg.RT_CTL_ACTIVE_BANK
    ∧ (s.flipped c).rd Reg.RT_STAT_REPAIRS = min (s.rd Reg.RT_STAT_REPAIRS + 1) (2 ^ Reg.RT_STAT_REPAIRS.w - 1) := by
  have repairs := s.writeBank_rd (bank := 1 - s.rd Reg.RT_CTL_ACTIVE_BANK) (by omega) c.all (g := Reg.RT_STAT_REPAIRS)
    (Fld.beyondBank_of ⟨by decide⟩ (.inl (by decide)))
  unfold State.flipped State.flipTimed
  dsimp only
  refine ⟨(State.rd_wr _ _ _).trans (Nat.zero_mod _), ?_, ?_⟩
  · rw [State.rd_wr_ne _ _ _ _ (by decide), State.rd_wr_ne _ _ _ _ (by decide), State.rd_wr_ne _ _ _ _ (by decide),
      State.bump_rd_ne _ _ (by decide), State.rd_wr]
    exact Nat.mod_eq_of_lt (show 1 - s.rd Reg.RT_CTL_ACTIVE_BANK < 2 by omega)
  · rw [State.rd_wr_ne _ _ _ _ (by decide), State.rd_wr_ne _ _ _ _ (by decide), State.rd_wr_ne _ _ _ _ (by decide), State.rd_bump,
      State.rd_wr_ne _ _ _ _ (by decide), repairs]

theorem State.OnlyRecords.cores {s t : State} (h : s.OnlyRecords t) : t.cores = s.cores := (congrArg State.cores h.eq :)

/-- What records leave of the map, the known links and the place. -/
theorem State.OnlyRecords.map {s t : State} (h : s.OnlyRecords t) : t.straps = s.straps ∧ t.config = s.config ∧ t.downLinks = s.downLinks :=
  ⟨(congrArg State.straps h.eq :), (congrArg State.config h.eq :), (congrArg State.downLinks h.eq :)⟩

theorem State.flipped_sameMap (s : State) (c : Compute) : s.SameMap (s.flipped c) := by
  obtain ⟨straps, config, -⟩ := (s.flipped_onlyRecords c).map
  refine State.sameMap_of (fun f mem => ?_) (fun i => ?_) straps config
  · simp only [mapFields, List.mem_cons, List.not_mem_nil, or_false] at mem
    rcases mem with rfl | rfl | rfl | rfl | rfl <;>
    · exact s.flipped_rd c (Fld.beyondBank_of ⟨by decide⟩ (.inl (by decide))) (by decide)
  · refine s.flipped_rd c (Fld.beyondBank_of ⟨fun f mem => ?_⟩ (.inr ?_)) fun f mem => ?_
    · simp only [recordFields, List.mem_cons, List.not_mem_nil, or_false] at mem
      rcases mem with rfl | rfl | rfl | rfl | rfl
      all_goals
        simp only [Fld.key, Reg.FD_DEAD_DEAD, Reg.FD_DEAD, Reg.ERR_STAT_S0_COUNT, Reg.ERR_STAT_LOST, Reg.ERR_STAT, Reg.ERR_PTR_TAIL, Reg.ERR_PTR,
          Reg.HOST_IRQ_CAUSE_ERR, Reg.HOST_IRQ_CAUSE, Reg.MSIX_PBA]
        omega
    · simp only [Fld.key, Reg.FD_DEAD_DEAD, Reg.FD_DEAD]
      omega
    · simp only [flipFields, List.mem_cons, List.not_mem_nil, or_false] at mem
      rcases mem with rfl | rfl | rfl | rfl | rfl
      all_goals
        simp only [Fld.key, Reg.FD_DEAD_DEAD, Reg.FD_DEAD, Reg.RT_CTL_ACTIVE_BANK, Reg.RT_STAT_REPAIRS, Reg.RT_REPAIR_TIME_LAST_US, Reg.RT_REPAIR_TIME_MAX_US,
          Reg.RT_CTL_RECOMPUTE, Reg.RT_CTL, Reg.RT_STAT, Reg.RT_REPAIR_TIME]
        omega

/-- What the flip notes beside the registers, with the state t as it stood before. -/
def State.flipNoted (s t : State) : State :=
  { s with
    compute := none, lastDown := t.downLinks,
    dirBits := (BitVec.ofNat 64 (t.rd Reg.RT_ZDIR_DIR), BitVec.ofNat 64 (t.rd Reg.RT_WDIR_DIR)),
    routable := (List.range 20).filter (fun p => t.rd (Reg.LK_STATE_STATE p) == 4) }

/-- The partition check. -/
def State.partNoted (s : State) : State := { s with partWait := if s.noRoute.isEmpty then s.partWait else s.partWait ++ [(s.clock, s.noRoute)] }

theorem State.flip_eq (s : State) (c : Compute) : s.flip c = ((s.flipped c).flipNoted (s.flipTimed c)).partNoted := rfl

theorem lkState_besideFlip {p : Nat} (known : p < 20) : (Reg.LK_STATE_STATE p).BeyondBank ∧ ∀ f ∈ flipFields, (Reg.LK_STATE_STATE p).key ≠ f.key := by
  refine ⟨Fld.beyondBank_of (lkState_beyondRecords known 0 3 0 (by decide)) (.inr ?_), fun f mem => ?_⟩
  · simp only [Fld.key, Reg.LK_STATE_STATE, Reg.LK_STATE]
    omega
  · simp only [flipFields, List.mem_cons, List.not_mem_nil, or_false] at mem
    rcases mem with rfl | rfl | rfl | rfl | rfl
    all_goals
      simp only [Fld.key, Reg.LK_STATE_STATE, Reg.LK_STATE, Reg.RT_CTL_ACTIVE_BANK, Reg.RT_STAT_REPAIRS, Reg.RT_REPAIR_TIME_LAST_US,
        Reg.RT_REPAIR_TIME_MAX_US, Reg.RT_CTL_RECOMPUTE, Reg.RT_CTL, Reg.RT_STAT, Reg.RT_REPAIR_TIME]
      omega

/-- The links that carry traffic from the flip on are those in service. -/
theorem State.flipTimed_routable (s : State) (c : Compute) (p : Nat) :
    p ∈ (List.range 20).filter (fun p => (s.flipTimed c).rd (Reg.LK_STATE_STATE p) == 4) ↔ p < 20 ∧ s.lk p = 4 := by
  rw [List.mem_filter, List.mem_range, beq_iff_eq]
  refine and_congr_right fun known => ?_
  obtain ⟨bank, apart⟩ := lkState_besideFlip known
  have cleared : (s.flipped c).rd (Reg.LK_STATE_STATE p) = (s.flipTimed c).rd (Reg.LK_STATE_STATE p) := State.rd_wr_ne _ _ _ _ (apart _ (by simp [flipFields]))
  rw [← cleared, s.flipped_rd c bank apart]
  rfl

theorem State.flipNoted_rd (s t : State) (g : Fld) : (s.flipNoted t).rd g = s.rd g := s.rd_congr _ g rfl

/-- The modules to be looked at again 500 µs after a flip. -/
def waitsAfter (gone : List Nat) (now : Nat) (waits : List (Nat × List Nat)) : List (Nat × List Nat) := if gone.isEmpty then waits else waits ++ [(now, gone)]

theorem State.partNoted_partWait (s : State) : s.partNoted.partWait = waitsAfter s.noRoute s.clock s.partWait := by
  unfold State.partNoted waitsAfter
  generalize (if s.noRoute.isEmpty then s.partWait else s.partWait ++ [(s.clock, s.noRoute)]) = waits
  rfl

theorem State.flipNoted_waits (s t : State) : (s.flipNoted t).partWait = s.partWait ∧ (s.flipNoted t).clock = s.clock
    ∧ (s.flipNoted t).downLinks = s.downLinks := by
  unfold State.flipNoted
  generalize (List.range 20).filter (fun p => t.rd (Reg.LK_STATE_STATE p) == 4) = routable
  exact ⟨rfl, rfl, rfl⟩

/-- What the flip notes, and what it leaves. -/
theorem State.noted_parts (t w : State) : let u := (t.flipNoted w).partNoted
    u.compute = none ∧ u.lastDown = w.downLinks ∧ u.routable = (List.range 20).filter (fun p => w.rd (Reg.LK_STATE_STATE p) == 4)
      ∧ u.cores = t.cores ∧ u.held = t.held := by
  unfold State.partNoted
  generalize (if (t.flipNoted w).noRoute.isEmpty then (t.flipNoted w).partWait
    else (t.flipNoted w).partWait ++ [((t.flipNoted w).clock, (t.flipNoted w).noRoute)]) = waits
  exact ⟨rfl, rfl, rfl, rfl, rfl⟩

theorem State.SameMap.flipNoted {s t : State} (h : s.SameMap t) (w : State) : s.SameMap (t.flipNoted w) := by
  have rd := t.flipNoted_rd w
  have place : (t.flipNoted w).modNum = t.modNum := State.modNum_of_rd rfl (rd _) (rd _)
  exact ⟨⟨(rd _).trans h.rings.1, (rd _).trans h.rings.2⟩, (rd _).trans h.mapped, fun i => (rd _).trans (h.dead i), place.trans h.num, h.config⟩

theorem State.partNoted_rd (s : State) (g : Fld) : s.partNoted.rd g = s.rd g := by
  unfold State.partNoted
  generalize (if s.noRoute.isEmpty then s.partWait else s.partWait ++ [(s.clock, s.noRoute)]) = waits
  rfl

theorem State.noted_partWait {s t : State} (map : s.SameMap t) (only : s.OnlyRecords t) (w : State) :
    (t.flipNoted w).partNoted.partWait = waitsAfter s.noRoute s.clock s.partWait := by
  obtain ⟨waits, now, known⟩ := t.flipNoted_waits w
  have same : (t.flipNoted w).noRoute = s.noRoute := (map.flipNoted w).noRoute (known.trans only.map.2.2)
  have waited : t.partWait = s.partWait := (congrArg State.partWait only.eq :)
  have clock : t.clock = s.clock := (congrArg State.clock only.eq :)
  rw [State.partNoted_partWait, same, waits, now, waited, clock]

theorem State.noted_rd (t w : State) (g : Fld) : (t.flipNoted w).partNoted.rd g = t.rd g := (State.partNoted_rd _ g).trans (t.flipNoted_rd w g)

theorem exec_tableFlip {s : State} {c : Compute} (alive : s.failed = false) (runs : s.compute = some c) :
    ∃ u : State, exec .tableFlip s = .next u ∧ u.compute = none ∧ u.rd Reg.RT_CTL_RECOMPUTE = 0
      ∧ u.rd Reg.RT_CTL_ACTIVE_BANK = 1 - s.rd Reg.RT_CTL_ACTIVE_BANK ∧ u.lastDown = s.downLinks
      ∧ (∀ p, p ∈ u.routable ↔ p < 20 ∧ s.lk p = 4)
      ∧ u.rd Reg.RT_STAT_REPAIRS = min (s.rd Reg.RT_STAT_REPAIRS + 1) (2 ^ Reg.RT_STAT_REPAIRS.w - 1)
      ∧ (∀ d, d < 4096 → u.rd (Reg.RT_ENTRY (1 - s.rd Reg.RT_CTL_ACTIVE_BANK) d)
        = (if c.all || s.affected d then s.computeEntry d else s.route d) % 2 ^ 64) ∧ u.cores = s.cores ∧ u.held = s.held
      ∧ u.partWait = if s.noRoute.isEmpty = true then s.partWait else s.partWait ++ [(s.clock, s.noRoute)] := by
  have flips : exec .tableFlip s = .next (s.flip c) := by
    change execTableFlip s = _
    unfold execTableFlip
    rw [runs]
    dsimp only
    rw [if_neg (Bool.eq_false_iff.mp alive)]
  obtain ⟨recompute, bank, repairs⟩ := s.flipped_counts c
  have entries := fun d => s.flipped_entry c (d := d)
  have routable := s.flipTimed_routable c
  have map := s.flipped_sameMap c
  have only := s.flipped_onlyRecords c
  have timed : (s.flipped c).downLinks = (s.flipTimed c).downLinks := State.wr_downLinks ..
  have links := timed.symm.trans only.map.2.2
  rw [State.flip_eq] at flips
  generalize s.flipped c = t, s.flipTimed c = w at *
  have parts := State.noted_partWait map only w
  have rd := t.noted_rd w
  obtain ⟨compute, down, carry, cores, held⟩ := t.noted_parts w
  refine ⟨_, flips, compute, (rd _).trans recompute, (rd _).trans bank, down.trans links, fun p => ?_, (rd _).trans repairs,
    fun d known => (rd _).trans (entries d known), cores.trans only.cores, held.trans only.samePorts.held, parts⟩
  rw [carry]
  exact routable p

/-! ### The partition check (R429) -/

/-- The modules of the checks that are due, which still have no route. -/
def State.partGone (s : State) : List Nat :=
  ((s.partWait.filter (fun w => decide (w.1 + State.usTicks 500 ≤ s.clock))).flatMap (fun w => w.2)).dedup.filter s.noRoute.contains

/-- The checks that are due are over. -/
def State.partChecked (s : State) : State := { s with partWait := s.partWait.filter (fun w => !decide (w.1 + State.usTicks 500 ≤ s.clock)) }

/-- The tasks that need one of some modules. -/
def State.partHit (s : State) (gone : List Nat) : List Task := s.tasks.filter (fun t => t.state != .ended && t.peers.any (fun m => gone.contains m))

/-- The tasks of a list end partitioned, and the fault of each of their jobs is due. -/
def State.partEnd (s : State) (n : Nat) (hit : List Task) : State :=
  ((hit.map Task.job).dedup).foldl (fun s j => s.partitionJob j n)
    (hit.foldl (fun (s : State) (t : Task) => s.failTask t.num Status.partitioned) (s.wr Reg.FD_STATE_PARTITION 1))

theorem exec_partitionTimeout {s : State} (alive : s.failed = false) : exec .partitionTimeout s = .next (if (s.partHit s.partGone).isEmpty then s.partChecked
    else s.partChecked.partEnd s.partGone.length (s.partHit s.partGone)) :=
  congrArg Host.Outcome.next (if_neg (Bool.eq_false_iff.mp alive))

/-- Where no task needs a module without a route, the checks are over. -/
theorem exec_partitionTimeout_none {s : State} (alive : s.failed = false) (none_ : s.partHit s.partGone = []) :
    exec .partitionTimeout s = .next s.partChecked := by
  rw [exec_partitionTimeout alive, none_]
  rfl

theorem State.partGone_early {s : State} (early : ∀ w ∈ s.partWait, s.clock < w.1 + State.usTicks 500) : s.partGone = [] ∧ s.partChecked = s := by
  have none_ : s.partWait.filter (fun w => decide (w.1 + State.usTicks 500 ≤ s.clock)) = [] :=
    List.filter_eq_nil_iff.mpr fun w mem => by simpa using early w mem
  have all : s.partWait.filter (fun w => !decide (w.1 + State.usTicks 500 ≤ s.clock)) = s.partWait :=
    List.filter_eq_self.mpr fun w mem => by simpa using early w mem
  constructor
  · unfold State.partGone
    rw [none_]
    rfl
  · unfold State.partChecked
    rw [all]

theorem State.partHit_nil (s : State) : s.partHit [] = [] := List.filter_eq_nil_iff.mpr fun t _ => by simp

/-- One check that is due. -/
theorem State.partGone_due {s : State} {since : Nat} {ms : List Nat} (waits : s.partWait = [(since, ms)]) (due : since + State.usTicks 500 ≤ s.clock) :
    (∀ n, n ∈ s.partGone ↔ n ∈ ms ∧ n ∈ s.noRoute) ∧ s.partChecked = { s with partWait := [] } := by
  have over_ : decide (since + State.usTicks 500 ≤ s.clock) = true := decide_eq_true due
  constructor
  · intro n
    have one : s.partWait.filter (fun w => decide (w.1 + State.usTicks 500 ≤ s.clock)) = [(since, ms)] := by
      rw [waits, List.filter_cons, over_]
      rfl
    unfold State.partGone
    rw [one, List.flatMap_cons, List.flatMap_nil, List.append_nil, List.mem_filter, List.mem_dedup, List.contains_iff_mem]
  · have none_ : s.partWait.filter (fun w => !decide (w.1 + State.usTicks 500 ≤ s.clock)) = [] := by
      rw [waits, List.filter_cons, over_]
      rfl
    unfold State.partChecked
    rw [none_]

theorem State.mem_partHit {s : State} {gone : List Nat} {t : Task} (mem : t ∈ s.tasks) :
    t ∈ s.partHit gone ↔ t.state ≠ .ended ∧ ∃ n ∈ t.peers, n ∈ gone := by
  unfold State.partHit
  rw [List.mem_filter, Bool.and_eq_true, bne_iff_ne, List.any_eq_true]
  simp only [List.contains_iff_mem]
  exact ⟨And.right, fun h => ⟨mem, h⟩⟩

theorem State.partitionJob_onlyRecords (s : State) (l : List Nat) (n : Nat) :
    s.OnlyRecords (l.foldl (fun s j => s.partitionJob j n) s) ∧ ∀ g : Fld, g.BeyondRecords → (l.foldl (fun s j => s.partitionJob j n) s).rd g = s.rd g :=
  foldl_keeps (fun t : State => s.OnlyRecords t ∧ ∀ g : Fld, g.BeyondRecords → t.rd g = s.rd g) _
    (fun t _ h => ⟨h.1.trans (t.raise_onlyRecords _), fun g b => (t.raise_rd _ b).trans (h.2 g b)⟩) l s ⟨.refl s, fun _ _ => rfl⟩

theorem State.OnlyRecords.tasks {s t : State} (h : s.OnlyRecords t) : t.tasks = s.tasks := (congrArg State.tasks h.eq :)

theorem State.OnlyRecords.partWait {s t : State} (h : s.OnlyRecords t) : t.partWait = s.partWait := (congrArg State.partWait h.eq :)

theorem State.OnlyEnds.partWait {s t : State} (h : s.OnlyEnds t) : t.partWait = s.partWait := (congrArg State.partWait h.eq :)

/-- The tasks of a list end partitioned. -/
theorem State.partEnd_effect (s : State) (n : Nat) {hit : List Task} {t : Task} (listed : t ∈ hit) (mem : t ∈ s.tasks)
    (fresh : t.fatal = none ∧ t.killed = false ∧ t.jobFatal = none) :
    (s.partEnd n hit).rd Reg.FD_STATE_PARTITION = 1 ∧ (s.partEnd n hit).partWait = s.partWait
    ∧ (s.partEnd n hit).HasTask t.num (fun y => y.jobFatal = some Status.partitioned ∧ y.abandoned = true) := by
  have ended := State.failTasks_status (st := Status.partitioned) hit ⟨t, listed, rfl⟩ (s.wr Reg.FD_STATE_PARTITION 1) mem fresh
  have marked : (s.wr Reg.FD_STATE_PARTITION 1).rd Reg.FD_STATE_PARTITION = 1 := State.rd_wr _ _ _
  have below := ((s.wr Reg.FD_STATE_PARTITION 1).failTasks_rdBelow hit Status.partitioned).rd Reg.FD_STATE_PARTITION (by unfold Fld.BelowLeaves; decide)
  have only := (s.wr Reg.FD_STATE_PARTITION 1).failTasks_onlyEnds hit Status.partitioned
  have waits : (s.wr Reg.FD_STATE_PARTITION 1).partWait = s.partWait := State.wr_partWait ..
  unfold State.partEnd
  generalize hit.foldl (fun (s : State) (t : Task) => s.failTask t.num Status.partitioned) (s.wr Reg.FD_STATE_PARTITION 1) = u at ended below only
  obtain ⟨records, rd⟩ := u.partitionJob_onlyRecords ((hit.map Task.job).dedup) n
  refine ⟨(rd _ ⟨by decide⟩).trans (below.trans marked), records.partWait.trans (only.partWait.trans waits), ?_⟩
  obtain ⟨y, there, named, status⟩ := ended
  exact ⟨y, records.tasks.symm ▸ there, named, status⟩

/-! ### Job-fatal notices (R428) -/

/-- A job-fatal notice is applied. -/
def State.jobEnded (s : State) (job status : Nat) : State :=
  { (s.failJob job status).bump Reg.FD_STATE_JOB_FATALS 1 with jobIgnore := s.jobIgnore ++ [job] }

theorem State.jobEnded_effect (s : State) (job status : Nat) :
    job ∈ (s.jobEnded job status).jobIgnore
    ∧ (s.jobEnded job status).rd Reg.FD_STATE_JOB_FATALS = min (s.rd Reg.FD_STATE_JOB_FATALS + 1) (2 ^ Reg.FD_STATE_JOB_FATALS.w - 1)
    ∧ ∀ t ∈ s.tasks, t.job = job → t.fatal = none → t.killed = false → t.jobFatal = none →
        (s.jobEnded job status).HasTask t.num (fun y => y.jobFatal = some status ∧ y.abandoned = true) := by
  have below := (s.failTasks_rdBelow (s.tasks.filter (fun t => t.job == job)) status).rd Reg.FD_STATE_JOB_FATALS (by unfold Fld.BelowLeaves; decide)
  refine ⟨List.mem_append_right _ (List.mem_singleton_self _), ?_, fun t mem mine fatal killed none_ => ?_⟩
  · refine (State.rd_bump _ _ _).trans ?_
    have same : (s.failJob job status).rd Reg.FD_STATE_JOB_FATALS = s.rd Reg.FD_STATE_JOB_FATALS := below
    rw [same]
  · exact State.failTasks_status (st := status) (s.tasks.filter (fun t => t.job == job))
      ⟨t, List.mem_filter.mpr ⟨mem, beq_iff_eq.mpr mine⟩, rfl⟩ s mem ⟨fatal, killed, none_⟩

/-- A task of the job that has not ended by a fault of its own, or by KILL. -/
def State.jobOpen (s : State) (job : Nat) : Bool := s.tasks.any (fun t => t.job == job && t.jobFatal.isNone && !t.killed && t.fatal.isNone)

theorem exec_jobFatalNotice {s : State} (alive : s.failed = false) {job : Nat} (known : job < 65536) (status origin : Nat) :
    exec (.jobFatalNotice job status origin) s = .next (if s.jobIgnore.contains job then s.takeNotice 5
      else if (s.takeNotice 5).jobOpen job
        then ((s.takeNotice 5).jobEnded job (status % 256)).raise (jobFatalRecord job (status % 256) (origin % 4096))
        else (s.takeNotice 5).jobEnded job (status % 256)) := by
  have mod : job % 65536 = job := Nat.mod_eq_of_lt known
  have lives : (s.takeNotice 5).failed = false := by
    rw [State.takeNotice_eq]
    exact alive
  have ignored : (s.takeNotice 5).jobIgnore = s.jobIgnore := by
    rw [State.takeNotice_eq]
  change execJobFatalNotice job status origin s = _
  unfold execJobFatalNotice
  dsimp only
  rw [mod]
  refine congrArg Host.Outcome.next (if_congr ?_ rfl ?_)
  · rw [lives, ignored, Bool.false_or]
  · unfold State.jobOpen State.jobEnded
    rfl

theorem State.takeNotice_rd (s : State) (kind : Nat) (g : Fld) : (s.takeNotice kind).rd g = s.rd g := by
  rw [State.takeNotice_eq]
  rfl

theorem State.takeNotice_tasks (s : State) (kind : Nat) : (s.takeNotice kind).tasks = s.tasks := by
  rw [State.takeNotice_eq]

theorem exec_jobFatalNotice_ends {s : State} (alive : s.failed = false) {job : Nat} (known : job < 65536) (status origin : Nat) (heard : job ∉ s.jobIgnore) :
    ∃ u : State, exec (.jobFatalNotice job status origin) s = .next u ∧ job ∈ u.jobIgnore
      ∧ u.rd Reg.FD_STATE_JOB_FATALS = min (s.rd Reg.FD_STATE_JOB_FATALS + 1) (2 ^ Reg.FD_STATE_JOB_FATALS.w - 1)
      ∧ (∀ t ∈ s.tasks, t.job = job → t.fatal = none → t.killed = false → t.jobFatal = none →
        ∃ y ∈ u.tasks, y.num = t.num ∧ y.jobFatal = some (status % 256) ∧ y.abandoned = true) := by
  have fresh : ¬ s.jobIgnore.contains job = true := mt List.contains_iff_mem.mp heard
  rw [exec_jobFatalNotice alive known, if_neg fresh]
  have ended := (s.takeNotice 5).jobEnded_effect job (status % 256)
  rw [State.takeNotice_rd, State.takeNotice_tasks] at ended
  generalize (s.takeNotice 5).jobEnded job (status % 256) = u at ended ⊢
  obtain ⟨ignores, counted, tasks⟩ := ended
  refine ⟨_, rfl, ?_⟩
  split
  · have records := u.raise_onlyRecords (jobFatalRecord job (status % 256) (origin % 4096))
    refine ⟨(congrArg State.jobIgnore records.eq :) ▸ ignores, (State.raise_rd _ _ ⟨by decide⟩).trans counted, ?_⟩
    rw [records.tasks]
    exact tasks
  · exact ⟨ignores, counted, tasks⟩

/-! ### Declarations (R425, R427) -/

/-- The FD_DEAD register of a module. -/
theorem fdDead_key (i : Nat) : (Reg.FD_DEAD_DEAD i).key = (0x00E00100 + i * 8) * 64 := rfl

theorem fdDead_beyondEnds {i : Nat} (known : i < 64) : (Reg.FD_DEAD_DEAD i).BeyondEnds := by
  refine Fld.beyondEnds_of ⟨fun f mem => ?_⟩ ?_ ?_ ?_ ?_
  · rw [fdDead_key]
    simp only [recordFields, List.mem_cons, List.not_mem_nil, or_false] at mem
    rcases mem with rfl | rfl | rfl | rfl | rfl
    all_goals
      simp only [Fld.key, Reg.ERR_STAT_S0_COUNT, Reg.ERR_STAT_LOST, Reg.ERR_STAT, Reg.ERR_PTR_TAIL, Reg.ERR_PTR,
        Reg.HOST_IRQ_CAUSE_ERR, Reg.HOST_IRQ_CAUSE, Reg.MSIX_PBA]
      omega
  all_goals rw [fdDead_key]
  · simp only [Fld.key, Reg.SCHED_C0_STAT_TOKENS, Reg.SCHED_C0_STAT]
    omega
  · simp only [Fld.key, Reg.SCHED_C0_STAT_HELD_TOTAL, Reg.SCHED_C0_STAT]
    omega
  · simp only [Fld.key, Reg.HOST_STAT_CPL_DROPPED, Reg.HOST_STAT]
    omega
  · omega

theorem State.setDead_fdDead (s : State) (m : Nat) (b : Bool) : (s.setDead m b).fdDead m = b := by
  unfold State.setDead State.fdDead
  dsimp only
  have low : m % 64 < 64 := Nat.mod_lt _ (by decide)
  rw [State.rd_wr, show (Reg.FD_DEAD_DEAD (m / 64)).w = 64 from rfl, Nat.testBit_mod_two_pow, decide_eq_true low, Bool.true_and]
  refine (testBit_setFld _ (m % 64) (w := 1) (n := 0) _ (by decide)).trans ?_
  cases b <;> rfl

theorem State.fdDead_of {s t : State} {m : Nat} (h : t.rd (Reg.FD_DEAD_DEAD (m / 64)) = s.rd (Reg.FD_DEAD_DEAD (m / 64))) : t.fdDead m = s.fdDead m :=
  congrArg (fun x => Nat.testBit x (m % 64)) h

/-- A declaration is noted in the registers. -/
def State.deadNoted (s : State) (m : Nat) : State := ((s.setDead m true).wr Reg.FD_STATE_LAST_DEAD m).bump Reg.FD_STATE_DECLARATIONS 1

/-- A declaration's record, and the ends of tasks and collectives. -/
def State.deadLost (s : State) (m : Nat) : State :=
  ((s.raise { Fault_.blank 0 Status.ok 0x0901 with other := m, info0 := BitVec.ofNat 64 m }).peerLost m Status.targetDead).collMemberLost m

theorem State.peerLost_rd (s : State) (m st : Nat) {g : Fld} (b : g.BeyondRecords) (below : g.BelowLeaves) : (s.peerLost m st).rd g = s.rd g := by
  unfold State.peerLost
  dsimp only
  refine Eq.trans ?_ ((s.failTasks_rdBelow (s.tasks.filter (fun (t : Task) => t.peers.contains m && t.state.reserves && !(t.state == .loading))) st).rd g below)
  exact foldl_same (fun t : State => t.rd g) _ (fun t _ => t.raise_rd _ b) _ _

theorem State.deadLost_rd (s : State) (m : Nat) {g : Fld} (b : g.BeyondEnds) (below : g.BelowLeaves) : (s.deadLost m).rd g = s.rd g :=
  ((State.collMemberLost_keepsClaims _ m).rd g b).trans ((State.peerLost_rd _ m Status.targetDead b.records below).trans (s.raise_rd _ b.records))

theorem State.requeueDead_rd (s : State) (m : Nat) {g : Fld} (b : g.BeyondRecords) : (s.requeueDead m).rd g = s.rd g :=
  foldl_same (fun t : State => t.rd g) _ (fun t p => (t.requeue_keepsLinks p).rd g ⟨b, fun _ mem => absurd mem (List.not_mem_nil)⟩) _ _

/-- What a declaration adds for the computation and the padlocks. -/
def State.deadEnded (s : State) (m : Nat) : State := { (s.requeueDead m).startCompute false with padDue := s.padDue ++ [m] }

theorem State.deadEnded_rd (s : State) (m : Nat) {g : Fld} (b : g.BeyondRecords) : (s.deadEnded m).rd g = s.rd g := by
  refine Eq.trans ?_ (s.requeueDead_rd m b)
  exact State.rd_congr (s.requeueDead m) _ g rfl

/-- The notice of a declaration is taken; the module's place and the modules declared dead stay. -/
theorem State.takeNotice_place (s : State) (kind : Nat) : (s.takeNotice kind).modNum = s.modNum ∧ (∀ m, (s.takeNotice kind).fdDead m = s.fdDead m)
    ∧ (s.takeNotice kind).failed = s.failed ∧ (s.takeNotice kind).portsOff = s.portsOff := by
  rw [State.takeNotice_eq]
  exact ⟨rfl, fun _ => rfl, rfl, rfl⟩

theorem State.deadEnded_notes (s : State) (m : Nat) : m ∈ (s.deadEnded m).padDue ∧ (s.deadEnded m).compute.isSome = true :=
  ⟨List.mem_append_right _ (List.mem_singleton_self _), State.startCompute_isSome (s.requeueDead m) false⟩

theorem exec_declaration {s : State} (alive : s.failed = false) (m : Fin 4096) (cause : Nat) :
    exec (.declaration m.val cause) s = .next (if m.val = s.modNum then (if (s.takeNotice 3).rdb Reg.SF_LATCH_LEFT then s.takeNotice 3 else (s.takeNotice 3).selfDeclare)
      else if s.fdDead m.val then s.takeNotice 3
      else (((s.takeNotice 3).deadNoted m.val).deadLost m.val).deadEnded m.val) := by
  have mod : m.val % 4096 = m.val := Nat.mod_eq_of_lt m.isLt
  obtain ⟨num, dead, failed, -⟩ := s.takeNotice_place 3
  change execDeclaration m.val cause s = _
  unfold execDeclaration
  dsimp only
  rw [mod, failed, alive, num, dead]
  unfold State.deadEnded State.deadLost State.deadNoted
  rfl

theorem exec_declaration_dies {s : State} (alive : s.failed = false) {m : Fin 4096} (other : m.val ≠ s.modNum) (fresh : s.fdDead m.val = false) (cause : Nat) :
    ∃ u : State, exec (.declaration m.val cause) s = .next u ∧ u.fdDead m.val = true ∧ m.val ∈ u.padDue
      ∧ u.rd Reg.FD_STATE_LAST_DEAD = m.val ∧ u.compute.isSome = true
      ∧ u.rd Reg.FD_STATE_DECLARATIONS = min (s.rd Reg.FD_STATE_DECLARATIONS + 1) (2 ^ Reg.FD_STATE_DECLARATIONS.w - 1) := by
  have within : m.val / 64 < 64 := by have := m.isLt; omega
  have rd {g : Fld} (b : g.BeyondEnds) (below : g.BelowLeaves) :
      ((((s.takeNotice 3).deadNoted m.val).deadLost m.val).deadEnded m.val).rd g = ((s.takeNotice 3).deadNoted m.val).rd g :=
    (State.deadEnded_rd _ _ b.records).trans (State.deadLost_rd _ _ b below)
  have last : Reg.FD_STATE_LAST_DEAD.BeyondEnds := Fld.beyondEnds_of ⟨by decide⟩ (by decide) (by decide) (by decide) (by decide)
  have count : Reg.FD_STATE_DECLARATIONS.BeyondEnds := Fld.beyondEnds_of ⟨by decide⟩ (by decide) (by decide) (by decide) (by decide)
  have marked : ((s.takeNotice 3).deadNoted m.val).fdDead m.val = true := by
    refine (State.fdDead_of (s := (s.takeNotice 3).setDead m.val true) ?_).trans (State.setDead_fdDead _ _ _)
    unfold State.deadNoted
    rw [State.bump_rd_ne, State.rd_wr_ne]
    all_goals
      rw [fdDead_key]
      simp only [Fld.key, Reg.FD_STATE_LAST_DEAD, Reg.FD_STATE_DECLARATIONS, Reg.FD_STATE]
      omega
  have named : ((s.takeNotice 3).deadNoted m.val).rd Reg.FD_STATE_LAST_DEAD = m.val := by
    unfold State.deadNoted
    rw [State.bump_rd_ne _ _ (by decide), State.rd_wr]
    exact Nat.mod_eq_of_lt m.isLt
  have counted : ((s.takeNotice 3).deadNoted m.val).rd Reg.FD_STATE_DECLARATIONS = min (s.rd Reg.FD_STATE_DECLARATIONS + 1) (2 ^ Reg.FD_STATE_DECLARATIONS.w - 1) := by
    unfold State.deadNoted State.setDead
    rw [State.rd_bump, State.rd_wr_ne _ _ _ _ (by decide)]
    dsimp only
    rw [State.rd_wr_ne, State.takeNotice_rd]
    rw [fdDead_key]
    simp only [Fld.key, Reg.FD_STATE_DECLARATIONS, Reg.FD_STATE]
    omega
  rw [exec_declaration alive, if_neg other, if_neg (Bool.eq_false_iff.mp fresh)]
  obtain ⟨due, computes⟩ := (((s.takeNotice 3).deadNoted m.val).deadLost m.val).deadEnded_notes m.val
  refine ⟨_, rfl, ?_, due, (rd last (by unfold Fld.BelowLeaves; decide)).trans named, computes, (rd count (by unfold Fld.BelowLeaves; decide)).trans counted⟩
  · refine (State.fdDead_of (rd (fdDead_beyondEnds within) ?_)).trans marked
    unfold Fld.BelowLeaves
    rw [fdDead_key]
    omega

theorem State.failAll_rdBelow (s : State) (st : Nat) : s.RdBelow (s.failAll st) := s.failTasks_rdBelow s.tasks st

theorem State.selfDeclare_marks {s : State} (speaks : s.silent = false) : s.selfDeclare.rd Reg.FD_STATE_SELF_DECLARED = 1 := by
  unfold State.selfDeclare
  cases declared : s.rdb Reg.FD_STATE_SELF_DECLARED
  · rw [speaks, Bool.or_false, if_neg Bool.false_ne_true]
    refine ((State.failAll_rdBelow _ _).rd _ ?_).trans (State.rd_wr _ _ _)
    unfold Fld.BelowLeaves
    decide
  · rw [Bool.true_or, if_pos rfl]
    exact beq_iff_eq.mp declared

/-- A declaration of this module makes it declare itself dead. -/
theorem exec_declaration_self {s : State} (alive : s.failed = false) {m : Fin 4096} (mine : m.val = s.modNum) (here : s.rdb Reg.SF_LATCH_LEFT = false)
    (ports : s.portsOff = false) (cause : Nat) : ∃ u : State, exec (.declaration m.val cause) s = .next u ∧ u.rd Reg.FD_STATE_SELF_DECLARED = 1 := by
  obtain ⟨-, -, failed, off⟩ := s.takeNotice_place 3
  have present : ¬ (s.takeNotice 3).rdb Reg.SF_LATCH_LEFT = true := by
    unfold State.rdb at here ⊢
    rw [State.takeNotice_rd, here]
    exact Bool.false_ne_true
  have speaks : (s.takeNotice 3).silent = false := by
    unfold State.silent
    rw [failed, off, alive, ports]
    rfl
  rw [exec_declaration alive, if_pos mine, if_neg present]
  refine ⟨_, rfl, ?_⟩
  exact State.selfDeclare_marks speaks

/-! ### Readmission (R433) -/

theorem State.setPadlock_eq (s : State) (m : Nat) (b : Bool) : s.setPadlock m b
    = (s.wr (Reg.RT_ENTRY 0 m) (setFld (s.rd (Reg.RT_ENTRY 0 m)) 2 1 b.toNat)).wr (Reg.RT_ENTRY 1 m)
      (setFld ((s.wr (Reg.RT_ENTRY 0 m) (setFld (s.rd (Reg.RT_ENTRY 0 m)) 2 1 b.toNat)).rd (Reg.RT_ENTRY 1 m)) 2 1 b.toNat) := rfl

theorem setFld_padlock (x : Nat) : (setFld x 2 1 false.toNat % 2 ^ 64).testBit 2 = false := by
  rw [Nat.testBit_mod_two_pow]
  have bit := testBit_setFld x 2 (w := 1) (n := 0) 0 (by decide)
  rw [show (2 : Nat) = 2 + 0 from rfl] at bit ⊢
  simp_all

theorem State.setPadlock_rd (s : State) (m : Nat) (b : Bool) {g : Fld} (apart : ∀ k, k < 2 → g.key ≠ (Reg.RT_ENTRY k m).key) : (s.setPadlock m b).rd g = s.rd g := by
  rw [State.setPadlock_eq, State.rd_wr_ne _ _ _ _ (apart 1 (by decide)), State.rd_wr_ne _ _ _ _ (apart 0 (by decide))]

theorem State.setPadlock_clears (s : State) (m : Nat) : ∀ k, k < 2 → ((s.setPadlock m false).rd (Reg.RT_ENTRY k m)).testBit 2 = false := by
  have apart : (Reg.RT_ENTRY 0 m).key ≠ (Reg.RT_ENTRY 1 m).key := by
    rw [rtEntry_key, rtEntry_key]
    omega
  intro k two
  rw [State.setPadlock_eq]
  match k, two with
  | 0, _ =>
    rw [State.rd_wr_ne _ _ _ _ apart, State.rd_wr]
    exact setFld_padlock _
  | 1, _ =>
    rw [State.rd_wr]
    exact setFld_padlock _

theorem State.setPadlock_onlyRegs (s : State) (m : Nat) (b : Bool) : s.OnlyRegs (s.setPadlock m b) := by
  rw [State.setPadlock_eq]
  exact (s.wr_onlyRegs _ _).trans (State.wr_onlyRegs _ _ _)


/-- What readmission notes. -/
def State.readmitted (s : State) (padDue declSent : List Nat) : State := { s.startCompute false with padDue := padDue, declSent := declSent }

/-- The state s with those parts taken from t that readmission reaches. -/
def State.withReadmitted (s t : State) : State := { s with regs := t.regs, compute := t.compute, padDue := t.padDue, declSent := t.declSent }

theorem State.readmitted_frame {s t : State} (h : s.OnlyRegs t) (padDue declSent : List Nat) :
    t.readmitted padDue declSent = s.withReadmitted (t.readmitted padDue declSent) := by
  have step := congrArg (fun x : State => x.withReadmitted (t.readmitted padDue declSent)) h.eq
  have own : t.readmitted padDue declSent = t.withReadmitted (t.readmitted padDue declSent) := rfl
  exact own.trans step

theorem exec_fdRejoinModule {s : State} (up : s.booted = true) (alive : s.failed = false) (m : Fin 4096) :
    ∃ u : State, exec (.fdRejoinModule m) s = .next u ∧ u.fdDead m.val = false ∧ m.val ∉ u.padDue ∧ u.compute.isSome = true
        ∧ (∀ k, k < 2 → (u.rd (Reg.RT_ENTRY k m.val)).testBit 2 = false)
        ∧ u = { s with regs := u.regs, compute := u.compute, padDue := u.padDue, declSent := u.declSent } := by
  have serves : s.serving = true := by
    unfold State.serving
    rw [up, alive]
    rfl
  have runs : exec (.fdRejoinModule m) s = .next (s.rejoin m.val) := congrArg Host.Outcome.next (if_pos serves)
  have regs : s.OnlyRegs ((s.setDead m.val false).setPadlock m.val false) := (s.wr_onlyRegs _ _).trans (State.setPadlock_onlyRegs _ m.val false)
  have pads := (s.setDead m.val false).setPadlock_clears m.val
  have dead : ((s.setDead m.val false).setPadlock m.val false).fdDead m.val = false := by
    refine (State.fdDead_of (State.setPadlock_rd _ _ _ fun k two => ?_)).trans (State.setDead_fdDead _ _ _)
    rw [fdDead_key, rtEntry_key]
    have := m.isLt
    omega
  have form : s.rejoin m.val = ((s.setDead m.val false).setPadlock m.val false).readmitted
      (((s.setDead m.val false).setPadlock m.val false).padDue.filter (fun x => x != m.val))
      (((s.setDead m.val false).setPadlock m.val false).declSent.filter (fun x => x != m.val)) := rfl
  rw [runs, form]
  generalize (s.setDead m.val false).setPadlock m.val false = t at regs pads dead
  refine ⟨_, rfl, dead, fun mem => ?_, State.startCompute_isSome t false, pads, State.readmitted_frame regs _ _⟩
  have kept := (List.mem_filter.mp mem).2
  simp at kept

/-- The registers of dead modules are cleared. -/
def State.deadCleared (s : State) : State := (List.range 64).foldl (fun s i => s.wr (Reg.FD_DEAD_DEAD i) 0) s

/-- The modules with a padlock in a bank. -/
def State.padded (s : State) : List Nat := (List.range 4096).filter (fun m => [0, 1].any (fun k => (s.rd (Reg.RT_ENTRY k m)).testBit 2))

theorem State.deadCleared_onlyRegs (s : State) : s.OnlyRegs s.deadCleared :=
  foldl_keeps s.OnlyRegs _ (fun t _ h => h.trans (t.wr_onlyRegs _ _)) _ s (.refl s)

theorem State.deadCleared_rd (s : State) {i : Nat} (known : i < 64) : s.deadCleared.rd (Reg.FD_DEAD_DEAD i) = 0 := by
  have zero (t : State) : (t.wr (Reg.FD_DEAD_DEAD i) 0).rd (Reg.FD_DEAD_DEAD i) = 0 := (State.rd_wr _ _ _).trans (Nat.zero_mod _)
  refine foldl_reaches (P := fun _ => True) (Q := fun t : State => t.rd (Reg.FD_DEAD_DEAD i) = 0) (m := i) (fun _ _ _ _ => trivial)
    (fun t _ => zero t) (fun t a h => ?_) (List.mem_range.mpr known) trivial
  by_cases same : a = i
  · rw [same]
    exact zero t
  · refine (State.rd_wr_ne _ _ _ _ ?_).trans h
    rw [fdDead_key, fdDead_key]
    omega

/-- The padlocks of a list of modules are cleared. -/
def State.padsCleared (s : State) (l : List Nat) : State := l.foldl (fun s m => s.setPadlock m false) s

theorem State.padsCleared_onlyRegs (s : State) (l : List Nat) : s.OnlyRegs (s.padsCleared l) :=
  foldl_keeps s.OnlyRegs _ (fun t m h => h.trans (t.setPadlock_onlyRegs m false)) l s (.refl s)

theorem State.padsCleared_rd (s : State) (l : List Nat) {g : Fld} (apart : ∀ m ∈ l, ∀ k, k < 2 → g.key ≠ (Reg.RT_ENTRY k m).key) :
    (s.padsCleared l).rd g = s.rd g := by
  induction l generalizing s with
  | nil => rfl
  | cons m l ih =>
    refine (ih (s.setPadlock m false) fun x mem => apart x (List.mem_cons_of_mem _ mem)).trans ?_
    exact s.setPadlock_rd m false (apart m List.mem_cons_self)

/-- A module without a padlock. -/
def State.Unpadded (s : State) (m : Nat) : Prop := ∀ k, k < 2 → (s.rd (Reg.RT_ENTRY k m)).testBit 2 = false

theorem State.setPadlock_unpadded {s : State} {d m : Nat} (known : d < 4096) (inner : m < 4096) (h : s.Unpadded d) : (s.setPadlock m false).Unpadded d := by
  by_cases same : d = m
  · rw [same]
    exact s.setPadlock_clears m
  · intro k two
    rw [State.setPadlock_rd]
    · exact h k two
    · intro j one
      rw [rtEntry_key, rtEntry_key]
      omega

theorem State.padsCleared_unpadded (s : State) (l : List Nat) (bound : ∀ m ∈ l, m < 4096) {d : Nat} (known : d < 4096) (h : d ∈ l ∨ s.Unpadded d) :
    (s.padsCleared l).Unpadded d := by
  induction l generalizing s with
  | nil => exact h.resolve_left (List.not_mem_nil)
  | cons m l ih =>
    have inner := bound m List.mem_cons_self
    refine ih (s.setPadlock m false) (fun x mem => bound x (List.mem_cons_of_mem _ mem)) ?_
    rcases h with mem | clear
    · rcases List.mem_cons.mp mem with rfl | mem
      · exact .inr (s.setPadlock_clears d)
      · exact .inl mem
    · exact .inr (State.setPadlock_unpadded known inner clear)

theorem State.padded_lt (s : State) : ∀ m ∈ s.padded, m < 4096 := by
  intro m mem
  unfold State.padded at mem
  exact List.mem_range.mp (List.mem_filter.mp mem).1

theorem State.padded_or (s : State) {d : Nat} (known : d < 4096) : d ∈ s.padded ∨ s.Unpadded d := by
  by_cases mem : d ∈ s.padded
  · exact .inl mem
  · refine .inr fun k two => ?_
    have none_ : ¬ ([0, 1].any (fun k => (s.rd (Reg.RT_ENTRY k d)).testBit 2)) = true := fun any => mem (List.mem_filter.mpr ⟨List.mem_range.mpr known, any⟩)
    simp only [List.any_cons, List.any_nil, Bool.or_false, Bool.or_eq_true, not_or, Bool.not_eq_true] at none_
    match k, two with
    | 0, _ => exact none_.1
    | 1, _ => exact none_.2

theorem exec_fdRejoinAll {s : State} (up : s.booted = true) (alive : s.failed = false) :
    ∃ u : State, exec .fdRejoinAll s = .next u ∧ (∀ d, d < 4096 → u.fdDead d = false ∧ ∀ k, k < 2 → (u.rd (Reg.RT_ENTRY k d)).testBit 2 = false)
        ∧ u.padDue = [] ∧ u.compute.isSome = true ∧ u = { s with regs := u.regs, compute := u.compute, padDue := u.padDue, declSent := u.declSent } := by
  have serves : s.serving = true := by
    unfold State.serving
    rw [up, alive]
    rfl
  have runs : exec .fdRejoinAll s = .next (s.rejoinAll) := congrArg Host.Outcome.next (if_pos serves)
  have form : s.rejoinAll = (s.deadCleared.padsCleared s.deadCleared.padded).readmitted [] [] := by
    unfold State.rejoinAll State.readmitted State.padsCleared State.padded State.deadCleared
    rfl
  have bound := s.deadCleared.padded_lt
  have regs : s.OnlyRegs (s.deadCleared.padsCleared s.deadCleared.padded) := s.deadCleared_onlyRegs.trans (State.padsCleared_onlyRegs _ _)
  have pads {d : Nat} (known : d < 4096) := s.deadCleared.padsCleared_unpadded _ bound known (s.deadCleared.padded_or known)
  have dead {d : Nat} (known : d < 4096) : (s.deadCleared.padsCleared s.deadCleared.padded).fdDead d = false := by
    have zero : (s.deadCleared.padsCleared s.deadCleared.padded).rd (Reg.FD_DEAD_DEAD (d / 64)) = 0 := by
      refine (State.padsCleared_rd _ _ fun m mem k two => ?_).trans (s.deadCleared_rd (by omega))
      rw [fdDead_key, rtEntry_key]
      have := bound m mem
      omega
    unfold State.fdDead
    rw [zero]
    exact Nat.zero_testBit _
  rw [runs, form]
  generalize s.deadCleared.padsCleared s.deadCleared.padded = t at regs pads dead
  exact ⟨_, rfl, fun d known => ⟨dead known, pads known⟩, rfl, State.startCompute_isSome t false, State.readmitted_frame regs _ _⟩

/-- Settles O49: each event is the change of the known links, of the tables' banks or of the tasks that the lemmas above describe. -/
theorem tablesAndDeclarations : Obligations.TablesAndDeclarations := by
  unfold Obligations.TablesAndDeclarations
  refine ⟨fun m port cause s alive => ⟨exec_linkDownNotice alive m port cause, exec_linkUpNotice alive m port, fun up idle => ?_, fun c runs => exec_tableFlip alive runs,
    fun idle => ?_, fun early => ?_, fun since ms waits due => ?_⟩, fun job status origin cause m s alive => ⟨exec_jobFatalNotice_ends alive (status := status)
    (origin := origin), fun known mem => ?_, rfl, fun other fresh => exec_declaration_dies alive other fresh cause, fun other dead => ?_,
    fun mine here ports => exec_declaration_self alive mine here ports cause, fun up => ⟨exec_fdRejoinModule up alive m, exec_fdRejoinAll up alive⟩⟩⟩
  · have acts : (s.booted && !s.failed) = true := by
      rw [up, alive]
      rfl
    refine congrArg Host.Outcome.next ((if_pos acts).trans ?_)
    have started : (s.wr Reg.RT_CTL_RECOMPUTE 1).compute = none := idle
    unfold State.startCompute
    rw [started]
    rfl
  · change execTableFlip s = _
    unfold execTableFlip
    rw [idle]
  · obtain ⟨gone, same⟩ := State.partGone_early early
    rw [exec_partitionTimeout_none alive (by rw [gone, State.partHit_nil]), same]
  · obtain ⟨gone, checked⟩ := State.partGone_due waits due
    refine ⟨fun routed => ?_, fun t mem stays fatal killed none_ needs => ?_⟩
    · rw [exec_partitionTimeout_none alive ?_, checked]
      refine List.filter_eq_nil_iff.mpr fun t mem hit => ?_
      obtain ⟨-, n, peer, lost⟩ := (State.mem_partHit mem).mp (List.mem_filter.mpr ⟨mem, hit⟩)
      obtain ⟨named, unrouted⟩ := (gone n).mp lost
      exact routed t mem n peer named unrouted
    · obtain ⟨n, peer, named, unrouted⟩ := needs
      have hit : t ∈ s.partHit s.partGone := (State.mem_partHit mem).mpr ⟨stays, n, peer, (gone n).mpr ⟨named, unrouted⟩⟩
      have some_ : ¬ (s.partHit s.partGone).isEmpty = true := fun empty => by
        rw [List.isEmpty_iff.mp empty] at hit
        exact List.not_mem_nil hit
      have there : t ∈ s.partChecked.tasks := mem
      obtain ⟨marked, waited, y, ends, named, status, -⟩ := State.partEnd_effect s.partChecked s.partGone.length hit there ⟨fatal, killed, none_⟩
      rw [exec_partitionTimeout alive, if_neg some_]
      refine ⟨_, rfl, marked, waited.trans ?_, y, ends, named, status⟩
      rw [checked]
  · rw [exec_jobFatalNotice alive known, if_pos (List.contains_iff_mem.mpr mem)]
  · rw [exec_declaration alive, if_neg other, if_pos dead]

end Sys2Proof.Machine
end


section
/-! Each link-control flit of an accepted frame has its effect (R264, R268, R270-R272, R283, R284). -/

namespace Sys2Proof.Machine

/-! ### A flit on a framed link -/

theorem State.flitRow_on {s : State} {p : Nat} (runs : s.linkRuns p = true) (l : LinkFlit) : s.flitRow p l = s.onLink p l := if_pos runs

theorem State.flitRow_off {s : State} {p : Nat} (still : s.linkRuns p = false) (l : LinkFlit) : s.flitRow p l = s := if_neg (Bool.eq_false_iff.mp still)

/-- Two changes of one port are one. -/
theorem State.modPort_modPort (s : State) {p : Nat} (f g : Port → Port) (known : p < 20) : (s.modPort p f).modPort p g = s.modPort p (fun t => g (f t)) := by
  have value : (s.modPort p f).port p = f (s.port p) := s.port_modPort p f known
  have chosen : (s.modPort p f).modPort p g = (s.modPort p f).modPort p (fun _ => g (f (s.port p))) := by
    rw [← value]
    rfl
  have entries : (s.ports.setIfInBounds p (f (s.port p))).setIfInBounds p (g (f (s.port p))) = s.ports.setIfInBounds p (g (f (s.port p))) := by
    ext i hi : 1
    rw [Vector.getElem_setIfInBounds, Vector.getElem_setIfInBounds, Vector.getElem_setIfInBounds]
    split <;> rfl
  exact chosen.trans (congrArg (fun v => { s with ports := v }) entries)

theorem State.modPort_congr (s : State) {p : Nat} {f g : Port → Port} (same : f (s.port p) = g (s.port p)) : s.modPort p f = s.modPort p g :=
  congrArg (fun x => { s with ports := s.ports.setIfInBounds p x }) same

/-! ### The clean second (R284) -/

theorem State.cleanFail_eq (s : State) (p : Nat) : s.cleanFail p = { s with ports := (s.cleanFail p).ports } := by
  unfold State.cleanFail
  split <;> rfl

theorem State.cleanFail_rd (s : State) (p : Nat) (g : Fld) : (s.cleanFail p).rd g = s.rd g := by
  rw [State.cleanFail_eq]
  rfl

/-- A heartbeat's note on the port. -/
def Port.heard (t : Port) (now state : Nat) : Port := { t with beats := true, lastBeat := now, pState := state }

theorem State.onHeartbeat_effect (s : State) {p : Nat} (known : p < 20) (st : Nat) :
    s.onHeartbeat p st = { s with ports := (s.onHeartbeat p st).ports } ∧ ((s.onHeartbeat p st).port p).pState = st
    ∧ ((s.onHeartbeat p st).port p).lastBeat = s.clock ∧ ((s.onHeartbeat p st).port p).beats = true := by
  have cleaned : ∀ u : State, u = { s with ports := u.ports } → 
      u.modPort p (fun t => t.heard u.clock st) = { s with ports := (u.modPort p (fun t => t.heard u.clock st)).ports }
      ∧ (u.modPort p (fun t => t.heard u.clock st)).port p = (u.port p).heard s.clock st := by
    intro u eq
    have now : u.clock = s.clock := (congrArg State.clock eq :)
    refine ⟨?_, ?_⟩
    · have step := congrArg (fun x : State => { x with ports := (u.modPort p (fun t => t.heard u.clock st)).ports }) eq
      exact step
    · rw [State.port_modPort _ _ _ known, now]
  have step : s.onHeartbeat p st = (if (s.port p).beats && decide (s.clock > (s.port p).lastBeat + State.usTicks 2) then s.cleanFail p else s).modPort p
      (fun t => t.heard (if (s.port p).beats && decide (s.clock > (s.port p).lastBeat + State.usTicks 2) then s.cleanFail p else s).clock st) := rfl
  have before : (if (s.port p).beats && decide (s.clock > (s.port p).lastBeat + State.usTicks 2) then s.cleanFail p else s)
      = { s with ports := (if (s.port p).beats && decide (s.clock > (s.port p).lastBeat + State.usTicks 2) then s.cleanFail p else s).ports } :=
    iteInduction (motive := fun u : State => u = { s with ports := u.ports }) (fun _ => s.cleanFail_eq p) (fun _ => rfl)
  generalize (if (s.port p).beats && decide (s.clock > (s.port p).lastBeat + State.usTicks 2) then s.cleanFail p else s) = u at step before
  obtain ⟨frame, port⟩ := cleaned u before
  rw [step, port]
  exact ⟨frame, rfl, rfl, rfl⟩

/-! ### A protocol violation (R288) -/

/-- The register of the violations of a port. -/
theorem lkPv_besideDown {p : Nat} (known : p < 20) {lo w rst : Nat} (within : lo < 64) : (⟨Reg.LK_PV p, lo, w, rst⟩ : Fld).Beside (downFields p) := by
  refine ⟨linkField_beyondRecords ?_ ?_, fun f mem => ?_⟩
  · simp only [Fld.key, Reg.LK_PV]
    omega
  · simp only [Fld.key, Reg.LK_PV]
    omega
  · simp only [downFields, countFields, maskFields, idleFields, List.cons_append, List.nil_append, List.mem_cons, List.not_mem_nil, or_false] at mem
    rcases mem with rfl | rfl | rfl | rfl | rfl | rfl | rfl | rfl | rfl
    all_goals
      simp only [Fld.key, Reg.LK_DOWN_CAUSE, Reg.LK_DOWN_DOWNS, Reg.LK_DOWN_TIME, Reg.LK_DOWN, Reg.LK_STATE_TX_MASK, Reg.LK_STATE_RX_MASK,
        Reg.LK_STATE_STATE, Reg.LK_STATE, Reg.LK_NBR_SEEN_VALID, Reg.LK_NBR, Reg.OE_CAL_ACTIVE, Reg.OE_CAL, Reg.OE_STATUS_SWAP_STATE,
        Reg.OE_STATUS, Reg.LK_PV]
      omega

theorem lkPv_ofLinks {p : Nat} (known : p < 20) {lo w rst : Nat} (within : lo < 64) : (⟨Reg.LK_PV p, lo, w, rst⟩ : Fld).OfLinks := by
  refine ⟨?_, ?_⟩ <;>
  · simp only [Fld.key, Reg.LK_PV]
    omega

theorem State.takeDown_rd_pv (s : State) {p : Nat} (known : p < 20) (cause : Nat) {lo w rst : Nat} (within : lo < 64) :
    (s.takeDown p cause).rd (⟨Reg.LK_PV p, lo, w, rst⟩ : Fld) = s.rd (⟨Reg.LK_PV p, lo, w, rst⟩ : Fld) := by
  by_cases still : s.lk p = 0 ∨ s.lk p = 5
  · have same : s.takeDown p cause = s := if_pos still
    rw [same]
  · rw [State.takeDown_eq (not_or.mp still)]
    have down := (s.portDown_keepsLinks p cause).rd _ (lkPv_besideDown known (lo := lo) (w := w) (rst := rst) within)
    exact iteInduction (motive := fun u : State => u.rd (⟨Reg.LK_PV p, lo, w, rst⟩ : Fld) = s.rd (⟨Reg.LK_PV p, lo, w, rst⟩ : Fld))
      (fun _ => ((State.linkLost_sameLinks _ p cause).rd _ (lkPv_ofLinks known within)).trans down) (fun _ => down)

theorem State.ward_rd_pv (s : State) {p : Nat} (known : p < 20) {lo w rst : Nat} (low : lo < 32) :
    (s.ward p).rd (⟨Reg.LK_PV p, lo, w, rst⟩ : Fld) = s.rd (⟨Reg.LK_PV p, lo, w, rst⟩ : Fld) := by
  unfold State.ward
  rw [State.takeDown_rd_pv _ known 7 (by omega), State.raise_rd _ _ (lkPv_besideDown known (by omega)).records, State.bump_rd_ne]
  simp only [Fld.key, Reg.LK_PV_WARDS]
  omega

/-- The marks of a violation in its register. -/
def State.pvCounted (s : State) (p code vc : Nat) : State := ((s.wr (Reg.LK_PV_LAST_CODE p) code).wr (Reg.LK_PV_LAST_VC p) vc).bump (Reg.LK_PV_COUNT p) 1

theorem State.pvCounted_rd (s : State) {p code : Nat} (small : code < 256) (vc : Nat) : (s.pvCounted p code vc).rd (Reg.LK_PV_LAST_CODE p) = code
    ∧ (s.pvCounted p code vc).rd (Reg.LK_PV_COUNT p) = min (s.rd (Reg.LK_PV_COUNT p) + 1) (2 ^ (Reg.LK_PV_COUNT p).w - 1) := by
  have apart : (Reg.LK_PV_LAST_CODE p).key ≠ (Reg.LK_PV_LAST_VC p).key ∧ (Reg.LK_PV_LAST_CODE p).key ≠ (Reg.LK_PV_COUNT p).key
      ∧ (Reg.LK_PV_COUNT p).key ≠ (Reg.LK_PV_LAST_VC p).key ∧ (Reg.LK_PV_COUNT p).key ≠ (Reg.LK_PV_LAST_CODE p).key := by
    simp only [Fld.key, Reg.LK_PV_LAST_CODE, Reg.LK_PV_LAST_VC, Reg.LK_PV_COUNT]
    omega
  obtain ⟨codeVc, codeCount, countVc, countCode⟩ := apart
  unfold State.pvCounted
  refine ⟨?_, ?_⟩
  · rw [State.bump_rd_ne _ _ codeCount, State.rd_wr_ne _ _ _ _ codeVc, State.rd_wr]
    exact Nat.mod_eq_of_lt small
  · rw [State.rd_bump, State.rd_wr_ne _ _ _ _ countVc, State.rd_wr_ne _ _ _ _ countCode]

/-- A violation without a packet to answer, up to its count. -/
def State.pvNoted (s : State) (p code vc : Nat) (recent : List Nat) : State :=
  (((s.modPort p (fun t => { t with viols := recent })).linkFlit p (.violation code vc recent.length)).raise { Fault_.blank 0 code 0x0303 with
    addr := BitVec.ofNat 64 p, info0 := BitVec.ofNat 64 code, info1 := BitVec.ofNat 64 (vc + 256 * 0) })

theorem State.violate_eq (s : State) (p code vc : Nat) : ∃ recent : List Nat, s.violate p code vc none
    = if recent.length > 64 then (((s.pvNoted p code vc recent).pvCounted p code vc).cleanFail p).ward p
      else ((s.pvNoted p code vc recent).pvCounted p code vc).cleanFail p := ⟨_, rfl⟩

theorem State.violate_counts (s : State) {p code : Nat} (known : p < 20) (small : code < 256) (vc : Nat) :
    (s.violate p code vc none).rd (Reg.LK_PV_LAST_CODE p) = code
    ∧ (s.violate p code vc none).rd (Reg.LK_PV_COUNT p) = min (s.rd (Reg.LK_PV_COUNT p) + 1) (2 ^ (Reg.LK_PV_COUNT p).w - 1) := by
  obtain ⟨recent, form⟩ := s.violate_eq p code vc
  have before : (s.pvNoted p code vc recent).rd (Reg.LK_PV_COUNT p) = s.rd (Reg.LK_PV_COUNT p) :=
    State.raise_rd _ _ (lkPv_besideDown known (lo := 16) (by decide)).records
  obtain ⟨named, counted⟩ := (s.pvNoted p code vc recent).pvCounted_rd (p := p) small vc
  rw [before] at counted
  rw [form]
  generalize (s.pvNoted p code vc recent).pvCounted p code vc = t at named counted
  have named' := (t.cleanFail_rd p (Reg.LK_PV_LAST_CODE p)).trans named
  have counted' := (t.cleanFail_rd p (Reg.LK_PV_COUNT p)).trans counted
  generalize t.cleanFail p = u at named' counted'
  refine iteInduction (motive := fun v : State => v.rd (Reg.LK_PV_LAST_CODE p) = code
    ∧ v.rd (Reg.LK_PV_COUNT p) = min (s.rd (Reg.LK_PV_COUNT p) + 1) (2 ^ (Reg.LK_PV_COUNT p).w - 1)) (fun _ => ⟨?_, ?_⟩) (fun _ => ⟨named', counted'⟩)
  · exact (u.ward_rd_pv known (lo := 0) (by decide)).trans named'
  · exact (u.ward_rd_pv known (lo := 16) (by decide)).trans counted'

/-! ### ABORT (R270, R271) -/

theorem State.abandonRx_none {s : State} {p vc : Nat} (none_ : (s.port p).inProgress vc = none) : s.abandonRx p vc = s := by
  unfold State.abandonRx
  rw [none_]

theorem State.freeBuf_eq (s : State) (a b : Nat) : s.freeBuf a b = { s with ports := (s.freeBuf a b).ports } := by
  unfold State.freeBuf
  split <;> rfl

/-- A packet that is abandoned leaves no copy held. -/
theorem State.abandonRx_some {s : State} {p vc : Nat} {r : RxPkt} (found : (s.port p).inProgress vc = some r) :
    s.abandonRx p vc = { s with held := (s.abandonRx p vc).held, ports := (s.abandonRx p vc).ports }
    ∧ ∀ h ∈ (s.abandonRx p vc).held, h ∈ s.held ∧ ¬ (h.arrived = some p ∧ h.buf = r.id) := by
  have held : (s.dropCopies p r.id).held = s.held.filter (fun h => !(h.arrived == some p && h.buf == r.id)) := rfl
  have dropped : s.dropCopies p r.id = { s with held := (s.dropCopies p r.id).held, ports := (s.dropCopies p r.id).ports } := rfl
  have form : s.abandonRx p vc = ((s.dropCopies p r.id).modPort p
      (fun t => { t with rxProg := t.rxProg.map (fun x => if x.id == r.id then { x with total := x.got } else x) })).freeBuf p r.id := by
    unfold State.abandonRx
    rw [found]
  rw [form]
  generalize s.dropCopies p r.id = u at held dropped
  have freed := State.freeBuf_eq (u.modPort p (fun t => { t with rxProg := t.rxProg.map (fun x => if x.id == r.id then { x with total := x.got } else x) })) p r.id
  have queue := State.freeBuf_held (u.modPort p (fun t => { t with rxProg := t.rxProg.map (fun x => if x.id == r.id then { x with total := x.got } else x) })) p r.id
  generalize State.freeBuf _ p r.id = v at freed queue
  have same : v.held = u.held := queue
  refine ⟨?_, fun h mem => ?_⟩
  · have step := congrArg (fun x : State => { x with held := v.held, ports := v.ports }) dropped
    have own : v = { u with held := v.held, ports := v.ports } := by
      rw [same]
      exact freed
    exact own.trans step
  · rw [same, held, List.mem_filter] at mem
    obtain ⟨there, other⟩ := mem
    refine ⟨there, fun both => ?_⟩
    rw [both.1, both.2] at other
    simp at other

/-! ### SYNC (R270) -/

/-- One channel of a port after SYNC. -/
def Port.synced (t : Port) (counts : List Nat) (vc : Nat) : Port :=
  { t with rxCount := t.rxCount.put vc (Tab.get t.rxCount 0 vc + (counts.getD vc 0 + 8192 - Tab.get t.rxCount 0 vc % 8192) % 8192) }.free vc
    ((counts.getD vc 0 + 8192 - Tab.get t.rxCount 0 vc % 8192) % 8192)

theorem State.onSync_eq (s : State) (p : Nat) (counts : List Nat) :
    s.onSync p counts = (List.range 24).foldl (fun s vc => s.modPort p (fun _ => (s.port p).synced counts vc)) s := rfl

/-- What a channel has gained since a port t: the same in flits received and in flits freed. -/
def Port.Gained (t u : Port) (v : Nat) (good : Nat → Prop) : Prop :=
  ∃ n, Tab.get u.rxCount 0 v = Tab.get t.rxCount 0 v + n ∧ Tab.get u.freed 0 v = Tab.get t.freed 0 v + n ∧ good (Tab.get t.rxCount 0 v + n)

theorem Port.synced_other {t u : Port} {v vc : Nat} {good : Nat → Prop} (counts : List Nat) (other : vc ≠ v) (h : t.Gained u v good) :
    t.Gained (u.synced counts vc) v good := by
  obtain ⟨n, received, freed, ok⟩ := h
  exact ⟨n, (Tab.get_put_other _ _ _ _ _ (Ne.symm other)).trans received, (Tab.get_put_other _ _ _ _ _ (Ne.symm other)).trans freed, ok⟩

theorem Port.synced_here {t u : Port} {v : Nat} {good : Nat → Prop} (counts : List Nat) (h : t.Gained u v good) :
    t.Gained (u.synced counts v) v (fun x => x % 8192 = counts.getD v 0 % 8192) := by
  obtain ⟨n, received, freed, -⟩ := h
  have got : Tab.get (u.synced counts v).rxCount 0 v
      = Tab.get u.rxCount 0 v + (counts.getD v 0 + 8192 - Tab.get u.rxCount 0 v % 8192) % 8192 := Tab.get_put_same ..
  have gone : Tab.get (u.synced counts v).freed 0 v
      = Tab.get u.freed 0 v + (counts.getD v 0 + 8192 - Tab.get u.rxCount 0 v % 8192) % 8192 := Tab.get_put_same ..
  refine ⟨n + (counts.getD v 0 + 8192 - Tab.get u.rxCount 0 v % 8192) % 8192, ?_, ?_, ?_⟩ <;> omega

theorem State.onSync_effect (s : State) {p : Nat} (known : p < 20) (counts : List Nat) :
    s.onSync p counts = { s with ports := (s.onSync p counts).ports }
    ∧ ∀ v, v < 24 → (s.port p).Gained ((s.onSync p counts).port p) v (fun x => x % 8192 = counts.getD v 0 % 8192) := by
  rw [State.onSync_eq]
  have port (u : State) (vc : Nat) : (u.modPort p (fun _ => (u.port p).synced counts vc)).port p = (u.port p).synced counts vc := State.port_modPort _ _ _ known
  refine ⟨?_, fun v within => ?_⟩
  · refine foldl_keeps (fun u : State => u = { s with ports := u.ports }) _ (fun u vc h => ?_) _ s rfl
    exact congrArg (fun x : State => { x with ports := (u.modPort p (fun _ => (u.port p).synced counts vc)).ports }) h
  · refine foldl_reaches (P := fun u : State => (s.port p).Gained (u.port p) v (fun _ => True))
      (Q := fun u : State => (s.port p).Gained (u.port p) v (fun x => x % 8192 = counts.getD v 0 % 8192)) (m := v) (fun u a other h => ?_) (fun u h => ?_) (fun u a h => ?_)
      (List.mem_range.mpr within) ⟨0, rfl, rfl, trivial⟩
    · rw [port]
      exact Port.synced_other counts other h
    · rw [port]
      exact Port.synced_here counts h
    · rw [port]
      by_cases same : a = v
      · subst same
        exact Port.synced_here counts h
      · exact Port.synced_other counts same h

/-! ### Lane requests (R264) -/

/-- A port with one more request to change its mask. -/
def Port.asked (t : Port) (reqs : List (Nat × Bool)) : Port := { t with laneReqs := t.laneReqs ++ reqs }

/-- A port that announces a mask. -/
def Port.announces (t : Port) (m : BitVec 16) : Port :=
  { t with laneReqs := [], newMask := some m, markers := 0, linkq := t.linkq ++ [.laneMask m ((t.mgen + 1) % 256)] }

/-- While a change is announced, a request waits. -/
theorem State.askLanes_waits {s : State} {p : Nat} (known : p < 20) (busy : (s.port p).newMask.isSome = true) (reqs : List (Nat × Bool)) :
    s.askLanes p reqs = s.modPort p (fun t => t.asked reqs) := by
  have port := s.port_modPort p (fun t => t.asked reqs) known
  have waits : (((s.modPort p (fun t => t.asked reqs)).port p).newMask.isSome || ((s.modPort p (fun t => t.asked reqs)).port p).laneReqs.isEmpty
      || !((s.modPort p (fun t => t.asked reqs)).port p).framed) = true := by
    rw [port]
    have mask : ((s.port p).asked reqs).newMask.isSome = true := busy
    rw [mask]
    rfl
  exact if_pos waits

/-- Else the mask that follows is announced, where it is another one. -/
theorem State.askLanes_announces {s : State} {p : Nat} (known : p < 20) (free : (s.port p).newMask = none) (framed : (s.port p).framed = true) (r : Nat × Bool)
    (differs : maskAfter (s.port p).outLanes (s.txMask p) ((s.port p).laneReqs ++ [r]) ≠ s.txMask p) :
    s.askLanes p [r] = s.modPort p (fun t => t.announces (maskAfter (s.port p).outLanes (s.txMask p) ((s.port p).laneReqs ++ [r]))) := by
  have port := s.port_modPort p (fun t => t.asked [r]) known
  have mask : (s.modPort p (fun t => t.asked [r])).txMask p = s.txMask p := rfl
  have acts : ¬ (((s.modPort p (fun t => t.asked [r])).port p).newMask.isSome || ((s.modPort p (fun t => t.asked [r])).port p).laneReqs.isEmpty
      || !((s.modPort p (fun t => t.asked [r])).port p).framed) = true := by
    rw [port]
    have none_ : ((s.port p).asked [r]).newMask = none := free
    have lives : ((s.port p).asked [r]).framed = true := framed
    have some_ : ((s.port p).asked [r]).laneReqs.isEmpty = false := by
      change ((s.port p).laneReqs ++ [r]).isEmpty = false
      simp
    rw [none_, lives, some_]
    decide
  have after : maskAfter ((s.modPort p (fun t => t.asked [r])).port p).outLanes ((s.modPort p (fun t => t.asked [r])).txMask p)
      ((s.modPort p (fun t => t.asked [r])).port p).laneReqs = maskAfter (s.port p).outLanes (s.txMask p) ((s.port p).laneReqs ++ [r]) := by
    rw [port, mask]
    rfl
  unfold State.askLanes State.announce
  refine (if_neg acts).trans ?_
  dsimp only
  refine (if_neg ?_).trans ?_
  · exact fun same => differs (after.symm.trans same)
  · change State.linkFlit (State.modPort (State.modPort (s.modPort p (fun t => t.asked [r])) p _) p _) p _ = _
    unfold State.linkFlit
    rw [State.modPort_modPort _ _ _ known, State.modPort_modPort _ _ _ known, State.modPort_modPort _ _ _ known]
    refine s.modPort_congr ?_
    have wrote : (s.modPort p (fun t => { t with laneReqs := t.laneReqs ++ [r] })) = s.modPort p (fun t => t.asked [r]) := rfl
    rw [wrote, port, mask]
    rfl

/-! ### Keying (R272, R283) -/

/-- The fields of a port's neighbour as its KEY shows it. -/
def seenFields (p : Nat) : List Fld := [Reg.LK_NBR_SEEN_MODULE p, Reg.LK_NBR_SEEN_PORT p, Reg.LK_NBR_SEEN_VALID p]

/-- The partner's KEY is noted. -/
def State.keySeen (s : State) (p m q : Nat) (matched : Bool) : State :=
  (((s.wr (Reg.LK_NBR_SEEN_MODULE p) m).wr (Reg.LK_NBR_SEEN_PORT p) q).wr (Reg.LK_NBR_SEEN_VALID p) 1).modPort p (fun t => { t with pMatch := matched })

theorem State.keySeen_rd (s : State) (p m q : Nat) (matched : Bool) {g : Fld} (apart : ∀ f ∈ seenFields p, g.key ≠ f.key) : (s.keySeen p m q matched).rd g = s.rd g := by
  have noted : (s.keySeen p m q matched).rd g = (((s.wr (Reg.LK_NBR_SEEN_MODULE p) m).wr (Reg.LK_NBR_SEEN_PORT p) q).wr (Reg.LK_NBR_SEEN_VALID p) 1).rd g := rfl
  rw [noted, State.rd_wr_ne _ _ _ _ (apart _ (by simp [seenFields])), State.rd_wr_ne _ _ _ _ (apart _ (by simp [seenFields])),
    State.rd_wr_ne _ _ _ _ (apart _ (by simp [seenFields]))]

/-- A KEY that the installed map and LK_KEY confirm. -/
def State.keyGood (s : State) (p m q : Nat) (key : Word) : Bool :=
  m == s.rd (Reg.LK_NBR_EXP_MODULE p) && (s.rdb (Reg.LK_NBR_EXP_ADAPTER p) || q == s.rd (Reg.LK_NBR_EXP_PORT p)) && key.toNat == s.rd Reg.LK_KEY_KEY

theorem State.keyGood_iff (s : State) (p m q : Nat) (key : Word) : s.keyGood p m q key = true ↔ m = s.rd (Reg.LK_NBR_EXP_MODULE p)
    ∧ (s.rdb (Reg.LK_NBR_EXP_ADAPTER p) = true ∨ q = s.rd (Reg.LK_NBR_EXP_PORT p)) ∧ key.toNat = s.rd Reg.LK_KEY_KEY := by
  unfold State.keyGood
  simp only [Bool.and_eq_true, Bool.or_eq_true, beq_iff_eq]
  tauto

/-- Another field of the links than those that a KEY writes. -/
theorem nbr_apart (p : Nat) :
    (∀ f ∈ seenFields p, (Reg.LK_NBR_EXP_MODULE p).key ≠ f.key) ∧ (∀ f ∈ seenFields p, (Reg.LK_NBR_EXP_PORT p).key ≠ f.key)
    ∧ (∀ f ∈ seenFields p, (Reg.LK_NBR_EXP_ADAPTER p).key ≠ f.key) ∧ (∀ f ∈ seenFields p, Reg.LK_KEY_KEY.key ≠ f.key)
    ∧ (∀ f ∈ seenFields p, (Reg.LK_STATE_STATE p).key ≠ f.key) ∧ (∀ f ∈ seenFields p, (Reg.LK_DOWN_CAUSE p).key ≠ f.key)
    ∧ (∀ f ∈ seenFields p, (Reg.LK_DOWN_DOWNS p).key ≠ f.key) := by
  simp only [seenFields, List.mem_cons, List.not_mem_nil, or_false, forall_eq_or_imp, forall_eq, Fld.key, Reg.LK_NBR_EXP_MODULE, Reg.LK_NBR_EXP_PORT,
    Reg.LK_NBR_EXP_ADAPTER, Reg.LK_KEY_KEY, Reg.LK_KEY, Reg.LK_STATE_STATE, Reg.LK_STATE, Reg.LK_DOWN_CAUSE, Reg.LK_DOWN_DOWNS, Reg.LK_DOWN,
    Reg.LK_NBR_SEEN_MODULE, Reg.LK_NBR_SEEN_PORT, Reg.LK_NBR_SEEN_VALID, Reg.LK_NBR]
  omega

theorem State.keySeen_good (s : State) (p m q : Nat) (matched : Bool) (key : Word) :
    (s.keySeen p m q matched).keyGood p m q key = s.keyGood p m q key := by
  obtain ⟨module, port, adapter, code, -⟩ := nbr_apart p
  unfold State.keyGood State.rdb
  rw [State.keySeen_rd _ _ _ _ _ module, State.keySeen_rd _ _ _ _ _ port, State.keySeen_rd _ _ _ _ _ adapter, State.keySeen_rd _ _ _ _ _ code]

theorem State.keySeen_lk (s : State) (p m q : Nat) (matched : Bool) : (s.keySeen p m q matched).lk p = s.lk p := by
  obtain ⟨-, -, -, -, state, -⟩ := nbr_apart p
  exact State.keySeen_rd _ _ _ _ _ state

theorem State.onKey_eq {s : State} {p : Nat} (keys : s.lk p = 2 ∨ s.lk p = 3) (m q : Nat) (matched : Bool) (key : Word) :
    s.onKey p m q matched key = if s.keyGood p m q key then ((s.keySeen p m q matched).modPort p (fun t => { t with matched := true })).tryClean p
      else ((s.keySeen p m q matched).modPort p (fun t => { t with rejected := false })).keyFail p m q := by
  have takes : ¬ (s.lk p ≠ 2 ∧ s.lk p ≠ 3 ∧ s.lk p ≠ 6) := by omega
  have fresh : ¬ (s.keySeen p m q matched).lk p = 6 := by
    rw [State.keySeen_lk]
    omega
  have step : s.onKey p m q matched key = if (s.keySeen p m q matched).lk p = 6 then s.keySeen p m q matched
      else if (s.keySeen p m q matched).keyGood p m q key then ((s.keySeen p m q matched).modPort p (fun t => { t with matched := true })).tryClean p
      else ((s.keySeen p m q matched).modPort p (fun t => { t with rejected := false })).keyFail p m q := if_neg takes
  rw [step, if_neg fresh, State.keySeen_good]

/-- Where keying and credits are complete, the clean period starts. -/
theorem State.tryClean_effect (s : State) {p : Nat} (known : p < 20) :
    (s.tryClean p).lk p = (if s.lk p = 2 && (s.port p).matched && !(s.port p).initCr.isEmpty then 3 else s.lk p)
    ∧ ((s.tryClean p).port p).matched = (s.port p).matched ∧ ((s.tryClean p).port p).pMatch = (s.port p).pMatch ∧ ((s.tryClean p).port p).avail = (s.port p).avail
    ∧ ∀ g : Fld, g.key ≠ (Reg.LK_STATE_STATE p).key → (s.tryClean p).rd g = s.rd g := by
  unfold State.tryClean
  dsimp only
  by_cases starts : (s.lk p = 2 && (s.port p).matched && !(s.port p).initCr.isEmpty) = true
  · rw [if_pos starts, if_pos starts]
    have port : ((s.modPort p (fun t => { t with clean := some s.clock })).setLk p 3).port p = { s.port p with clean := some s.clock } :=
      State.port_modPort s p (fun t => { t with clean := some s.clock }) known
    rw [port]
    exact ⟨State.rd_wr _ _ _, rfl, rfl, rfl, fun g apart => State.rd_wr_ne _ _ _ _ apart⟩
  · rw [if_neg starts, if_neg starts]
    exact ⟨rfl, rfl, rfl, rfl, fun _ _ => rfl⟩

/-- A link whose keying has failed is held out of service, with DOWN due. -/
structure State.KeyHeld (s u : State) (p : Nat) : Prop where
  state   : u.lk p = 6
  matched : (u.port p).matched = false
  clean   : (u.port p).clean = none
  due     : (u.port p).downAt = some (s.clock, 8)
  named   : u.rd (Reg.LK_DOWN_CAUSE p) = 8
  counted : u.rd (Reg.LK_DOWN_DOWNS p) = min (s.rd (Reg.LK_DOWN_DOWNS p) + 1) (2 ^ (Reg.LK_DOWN_DOWNS p).w - 1)

/-- A link in STATE 6. -/
def State.keyStopped (s : State) (p : Nat) : State := (s.modPort p (fun t => { t with matched := false, clean := none })).setLk p 6

/-- A port on which DOWN is due. -/
def State.downDue (s : State) (p cause : Nat) : State := s.modPort p (fun t => { t with downAt := some (s.clock, cause) })

theorem State.downCounted_port (s : State) (p cause q : Nat) : (s.downCounted p cause).port q = s.port q := rfl

theorem State.downCounted_clock (s : State) (p cause : Nat) : (s.downCounted p cause).clock = s.clock := rfl

theorem State.keyStopped_port (s : State) {p : Nat} (known : p < 20) : (s.keyStopped p).port p = { s.port p with matched := false, clean := none } :=
  State.port_modPort s p (fun t => { t with matched := false, clean := none }) known

theorem State.downDue_port (s : State) {p : Nat} (known : p < 20) (cause : Nat) : (s.downDue p cause).port p = { s.port p with downAt := some (s.clock, cause) } :=
  State.port_modPort s p (fun t => { t with downAt := some (s.clock, cause) }) known

/-- A link held in STATE 6, counted, up to its record. -/
def State.keyHeld (s : State) (p : Nat) : State := ((s.keyStopped p).downCounted p 8).downDue p 8

theorem State.keyHeld_effect (s : State) {p : Nat} (known : p < 20) : s.KeyHeld (s.keyHeld p) p := by
  have port : (s.keyHeld p).port p = { s.port p with matched := false, clean := none, downAt := some (s.clock, 8) } := by
    have now : (s.keyStopped p).clock = s.clock := rfl
    unfold State.keyHeld
    rw [State.downDue_port _ known, State.downCounted_port, State.downCounted_clock, State.keyStopped_port _ known, now]
  have apart : (Reg.LK_DOWN_DOWNS p).key ≠ (Reg.LK_STATE_STATE p).key := by
    simp only [Fld.key, Reg.LK_DOWN_DOWNS, Reg.LK_DOWN, Reg.LK_STATE_STATE, Reg.LK_STATE]
    omega
  obtain ⟨named, counted⟩ := (s.keyStopped p).downCounted_rd (p := p) (cause := 8) (by decide)
  have before : (s.keyStopped p).rd (Reg.LK_DOWN_DOWNS p) = s.rd (Reg.LK_DOWN_DOWNS p) :=
    State.rd_wr_ne _ _ _ _ apart
  rw [before] at counted
  have state : (s.keyHeld p).lk p = 6 := by
    have kept := ((s.keyStopped p).downCounted_keepsLinks p 8).rd (Reg.LK_STATE_STATE p)
      ⟨lkState_beyondRecords known 0 3 0 (by decide), fun f mem => ?_⟩
    · exact kept.trans (State.rd_wr _ _ _)
    · simp only [countFields, List.mem_cons, List.not_mem_nil, or_false] at mem
      rcases mem with rfl | rfl | rfl
      all_goals
        simp only [Fld.key, Reg.LK_DOWN_CAUSE, Reg.LK_DOWN_DOWNS, Reg.LK_DOWN_TIME, Reg.LK_DOWN, Reg.LK_STATE_STATE, Reg.LK_STATE]
        omega
  refine ⟨state, ?_, ?_, ?_, named, counted⟩ <;>
  · rw [port]

theorem State.keyFail_effect {s : State} {p : Nat} (known : p < 20) (first : s.lk p ≠ 6) (m q : Nat) : s.KeyHeld (s.keyFail p m q) p := by
  have held := s.keyHeld_effect known
  have form : ∃ f : Fault_, s.keyFail p m q = (s.keyHeld p).raise f := ⟨_, if_pos (bne_iff_ne.mpr first)⟩
  obtain ⟨f, form⟩ := form
  have records := (s.keyHeld p).raise_onlyRecords f
  have port : ((s.keyHeld p).raise f).port p = (s.keyHeld p).port p := congrArg (fun v => v.getD p Port.reset) records.samePorts.ports
  rw [form]
  exact ⟨(State.raise_rd _ f (lkState_beyondRecords known 0 3 0 (by decide))).trans held.state, by rw [port, held.matched],
    by rw [port, held.clean], by rw [port, held.due],
    (State.raise_rd _ f (lkDown_beyondRecords known 0 4 0 (by decide))).trans held.named,
    (State.raise_rd _ f (lkDown_beyondRecords known 16 16 0 (by decide))).trans held.counted⟩

/-- A KEY that the map confirms. -/
theorem State.onKey_good {s : State} {p : Nat} (known : p < 20) (keys : s.lk p = 2 ∨ s.lk p = 3) {m q : Nat} (matched : Bool) {key : Word}
    (good : s.keyGood p m q key = true) : ((s.onKey p m q matched key).port p).matched = true ∧ ((s.onKey p m q matched key).port p).pMatch = matched
      ∧ (s.onKey p m q matched key).lk p = (if s.lk p = 2 ∧ (s.port p).initCr.isEmpty then 2 else 3) ∧ (s.onKey p m q matched key).rd (Reg.LK_NBR_SEEN_VALID p) = 1 := by
  rw [State.onKey_eq keys, if_pos good]
  have seen : (s.keySeen p m q matched).port p = { s.port p with pMatch := matched } :=
    State.port_modPort (((s.wr (Reg.LK_NBR_SEEN_MODULE p) m).wr (Reg.LK_NBR_SEEN_PORT p) q).wr (Reg.LK_NBR_SEEN_VALID p) 1) p (fun t => { t with pMatch := matched }) known
  have marked : ((s.keySeen p m q matched).modPort p (fun t => { t with matched := true })).port p = { s.port p with pMatch := matched, matched := true } := by
    rw [State.port_modPort _ _ _ known, seen]
  have lk : ((s.keySeen p m q matched).modPort p (fun t => { t with matched := true })).lk p = s.lk p := s.keySeen_lk p m q matched
  have valid : ((s.keySeen p m q matched).modPort p (fun t => { t with matched := true })).rd (Reg.LK_NBR_SEEN_VALID p) = 1 :=
    State.rd_wr ((s.wr (Reg.LK_NBR_SEEN_MODULE p) m).wr (Reg.LK_NBR_SEEN_PORT p) q) _ 1
  generalize (s.keySeen p m q matched).modPort p (fun t => { t with matched := true }) = t at marked lk valid
  obtain ⟨state, own, partner, -, rd⟩ := t.tryClean_effect known
  have apart : (Reg.LK_NBR_SEEN_VALID p).key ≠ (Reg.LK_STATE_STATE p).key := by
    simp only [Fld.key, Reg.LK_NBR_SEEN_VALID, Reg.LK_NBR, Reg.LK_STATE_STATE, Reg.LK_STATE]
    omega
  refine ⟨?_, ?_, ?_, (rd (Reg.LK_NBR_SEEN_VALID p) apart).trans valid⟩
  · rw [own, marked]
  · rw [partner, marked]
  · rw [state, marked, lk]
    rcases keys with keys | keys <;> rw [keys] <;> cases (s.port p).initCr.isEmpty <;> rfl

/-- A KEY that it does not. -/
theorem State.onKey_wrong {s : State} {p : Nat} (known : p < 20) (keys : s.lk p = 2 ∨ s.lk p = 3) {m q : Nat} (matched : Bool) {key : Word}
    (wrong : ¬ s.keyGood p m q key = true) : s.KeyHeld (s.onKey p m q matched key) p := by
  rw [State.onKey_eq keys, if_neg wrong]
  have lk : ((s.keySeen p m q matched).modPort p (fun t => { t with rejected := false })).lk p = s.lk p := s.keySeen_lk p m q matched
  have count : ((s.keySeen p m q matched).modPort p (fun t => { t with rejected := false })).rd (Reg.LK_DOWN_DOWNS p) = s.rd (Reg.LK_DOWN_DOWNS p) :=
    s.keySeen_rd p m q matched (nbr_apart p).2.2.2.2.2.2
  have now : ((s.keySeen p m q matched).modPort p (fun t => { t with rejected := false })).clock = s.clock := rfl
  generalize (s.keySeen p m q matched).modPort p (fun t => { t with rejected := false }) = t at lk count now
  have held := t.keyFail_effect known (by omega) m q
  exact ⟨held.state, held.matched, held.clean, now ▸ held.due, held.named, count ▸ held.counted⟩

theorem State.onReject_held {s : State} {p : Nat} (known : p < 20) (keys : s.lk p = 2 ∨ s.lk p = 3) : s.KeyHeld (s.onReject p) p := by
  have takes : ¬ (s.lk p ≠ 2 ∧ s.lk p ≠ 3) := by omega
  have first : (s.modPort p (fun t => { t with rejected := true })).lk p ≠ 6 := by
    have same : (s.modPort p (fun t => { t with rejected := true })).lk p = s.lk p := rfl
    omega
  have form : s.onReject p = (s.modPort p (fun t => { t with rejected := true })).keyFail p (s.rd (Reg.LK_NBR_SEEN_MODULE p)) (s.rd (Reg.LK_NBR_SEEN_PORT p)) :=
    if_neg takes
  rw [form]
  have held := State.keyFail_effect known first (s.rd (Reg.LK_NBR_SEEN_MODULE p)) (s.rd (Reg.LK_NBR_SEEN_PORT p))
  exact ⟨held.state, held.matched, held.clean, held.due, held.named, held.counted⟩

/-- The credits of the channels as CREDIT_INIT gives them. -/
def initCredits (counts : List Nat) : Tab Nat := (List.range 24).map (fun vc => (vc, min 4096 (counts.getD vc 0)))

theorem initCredits_get (counts : List Nat) {v : Nat} (within : v < 24) : Tab.get (initCredits counts) 0 v = min 4096 (counts.getD v 0) := by
  have walk : ∀ l : List Nat, v ∈ l → (l.map (fun vc => (vc, min 4096 (counts.getD vc 0)))).lookup v = some (min 4096 (counts.getD v 0)) := by
    intro l
    induction l with
    | nil => exact fun mem => absurd mem List.not_mem_nil
    | cons a l ih =>
      intro mem
      rw [List.map_cons, List.lookup_cons]
      by_cases same : v = a
      · rw [same, beq_self_eq_true]
      · rw [beq_false_of_ne same]
        exact ih (List.mem_of_ne_of_mem same mem)
  unfold Tab.get initCredits
  rw [walk _ (List.mem_range.mpr within)]
  rfl

theorem State.onCreditInit_effect {s : State} {p : Nat} (known : p < 20) (keys : s.lk p = 2) (counts : List Nat) :
    (∀ v, v < 24 → Tab.get ((s.onCreditInit p counts).port p).avail 0 v = min 4096 (counts.getD v 0))
    ∧ (s.onCreditInit p counts).lk p = (if (s.port p).matched then 3 else 2) := by
  have form : s.onCreditInit p counts = (s.modPort p (fun x => { x with initCr := initCredits counts, avail := initCredits counts })).tryClean p :=
    if_neg (by omega)
  have port := s.port_modPort p (fun x => { x with initCr := initCredits counts, avail := initCredits counts }) known
  have lk : (s.modPort p (fun x => { x with initCr := initCredits counts, avail := initCredits counts })).lk p = 2 := keys
  rw [form]
  generalize s.modPort p (fun x => { x with initCr := initCredits counts, avail := initCredits counts }) = t at port lk
  obtain ⟨state, -, -, avail, -⟩ := t.tryClean_effect known
  refine ⟨fun v within => ?_, ?_⟩
  · rw [avail, port]
    exact initCredits_get counts within
  · have some_ : (initCredits counts).isEmpty = false := rfl
    rw [state, port, lk]
    dsimp only
    rw [some_]
    cases (s.port p).matched <;> rfl

/-- SYNC_REQ is answered with the flits sent. -/
theorem State.onSyncReq_eq (s : State) (p : Nat) : s.onSyncReq p
    = s.modPort p (fun t => { t with linkq := t.linkq ++ [.sync ((List.range 24).map (fun vc => Tab.get t.sentFl 0 vc % 8192))] }) := by
  unfold State.onSyncReq State.linkFlit
  exact s.modPort_congr rfl

/-- Settles O46: on a port without frame lock a flit changes nothing, and on one with it each kind has its own handler. -/
theorem linkFlitsAct : Obligations.LinkFlitsAct := by
  unfold Obligations.LinkFlitsAct
  intro port m q st vc lane mask counts r a rt mt time key s p t held good
  have known : p < 20 := port.isLt
  have holds {i : Instr} {u : State} (runs : exec i s = .next u) (h : s.KeyHeld u p) : held i :=
    ⟨u, runs, h.state, h.matched, h.clean, h.due, h.named, h.counted⟩
  refine ⟨fun runs => ?_, fun still => ?_⟩
  · have on_ (l : LinkFlit) : (Host.Outcome.next (s.flitRow p l) : Res) = .next (s.onLink p l) := congrArg Host.Outcome.next (State.flitRow_on runs l)
    have framed : t.framed = true := by
      unfold State.linkRuns at runs
      exact (Bool.and_eq_true_iff.mp runs).1
    have lane_ : lane.val % 16 = lane.val := Nat.mod_eq_of_lt lane.isLt
    refine ⟨⟨_, on_ _, s.onHeartbeat_effect known st⟩, fun easy => ?_, fun retry none_ => ?_, fun none_ => ?_, fun x found => ?_, ?_,
      ⟨_, on_ _, ?_⟩, on_ _, ⟨fun busy => ?_, fun free differs => ?_⟩, fun clean => ?_, fun other => ?_, fun keys => ⟨fun ok => ?_, fun wrong => ?_, fun two => ?_⟩,
      fun keys => ?_⟩
    · have chosen : ¬ (hasRetry p && ((s.port p).inProgress vc).isNone) = true := by
        rcases easy with plain | busy
        · rw [plain]
          exact Bool.false_ne_true
        · have some_ : ((s.port p).inProgress vc).isNone = false := by
            rw [Option.isNone_eq_false_iff]
            exact busy
          rw [some_, Bool.and_false]
          exact Bool.false_ne_true
      exact (on_ _).trans (congrArg Host.Outcome.next (if_neg chosen))
    · have violates : (hasRetry p && ((s.port p).inProgress vc).isNone) = true := by
        rw [retry, (none_ : (s.port p).inProgress vc = none)]
        rfl
      exact ⟨_, (on_ _).trans (congrArg Host.Outcome.next (if_pos violates)), s.violate_counts known (by decide) vc⟩
    · exact (on_ _).trans (congrArg Host.Outcome.next (State.abandonRx_none none_))
    · obtain ⟨frame, gone⟩ := State.abandonRx_some (s := s) (p := p) found
      exact ⟨_, on_ _, gone, frame⟩
    · exact (on_ _).trans (congrArg Host.Outcome.next (s.onSyncReq_eq p))
    · obtain ⟨frame, gained⟩ := s.onSync_effect known counts
      refine ⟨frame, fun v within => ?_⟩
      obtain ⟨n, received, freed, equal⟩ := gained v within
      have got : Tab.get ((s.onSync p counts).port p).rxCount 0 v % 8192 = counts.getD v 0 % 8192 := by
        rw [received]
        exact equal
      refine ⟨got, ?_⟩
      change Tab.get ((s.onSync p counts).port p).freed 0 v - Tab.get (s.port p).freed 0 v
        = Tab.get ((s.onSync p counts).port p).rxCount 0 v - Tab.get (s.port p).rxCount 0 v
      omega
    · refine (on_ _).trans (congrArg Host.Outcome.next ?_)
      change s.askLanes p [(lane.val % 16, r)] = _
      rw [lane_]
      exact State.askLanes_waits known busy _
    · refine (on_ _).trans (congrArg Host.Outcome.next ?_)
      change s.askLanes p [(lane.val % 16, r)] = _
      rw [lane_]
      exact State.askLanes_announces known free framed _ differs
    · exact (on_ _).trans (congrArg Host.Outcome.next (if_pos clean))
    · exact (on_ _).trans (congrArg Host.Outcome.next (if_neg other))
    · exact ⟨_, on_ _, State.onKey_good known keys mt ((s.keyGood_iff p m q key).mpr ok)⟩
    · exact holds (on_ _) (State.onKey_wrong known keys mt (fun ok => wrong ((s.keyGood_iff p m q key).mp ok)))
    · exact ⟨_, on_ _, State.onCreditInit_effect known two counts⟩
    · exact holds (on_ _) (State.onReject_held known keys)
  · have off (l : LinkFlit) : (Host.Outcome.next (s.flitRow p l) : Res) = .next s := congrArg Host.Outcome.next (State.flitRow_off still l)
    exact ⟨off _, off _, off _, off _, off _, off _, off _, off _, off _, off _, off _, off _⟩

end Sys2Proof.Machine
end


section
/-! Frames and markers leave, and frames are accepted in order (R261, R263-R270, R274). -/

namespace Sys2Proof.Machine

/-! ### What filling a frame keeps -/

/-- What of a port only a frame's leaving changes. -/
def Port.sent (t : Port) : List Frame × Nat × List (Frame × Nat) := (t.wire, t.nextSeq, t.replay)

/-- Filling a frame keeps what has left its port, and what is not the ports'. -/
structure State.KeepsSent (s t : State) (p : Nat) : Prop where
  port  : (t.port p).sent = (s.port p).sent
  hm    : t.hm = s.hm
  cores : t.cores = s.cores
  held  : t.held = s.held

theorem State.KeepsSent.refl (s : State) (p : Nat) : s.KeepsSent s p := ⟨rfl, rfl, rfl, rfl⟩

theorem State.KeepsSent.trans {s t u : State} {p : Nat} (a : s.KeepsSent t p) (b : t.KeepsSent u p) : s.KeepsSent u p :=
  ⟨b.port.trans a.port, b.hm.trans a.hm, b.cores.trans a.cores, b.held.trans a.held⟩

theorem State.modPort_keepsSent (s : State) {p : Nat} (known : p < 20) (q : Nat) {f : Port → Port} (same : ∀ t : Port, (f t).sent = t.sent) :
    s.KeepsSent (s.modPort q f) p := by
  refine ⟨?_, rfl, rfl, rfl⟩
  by_cases here : p = q
  · subst here
    rw [State.port_modPort _ _ _ known]
    exact same _
  · exact congrArg Port.sent (getD_set_other _ _ _ _ _ here)

theorem State.freeBuf_keepsSent (s : State) {p : Nat} (known : p < 20) (a b : Nat) : s.KeepsSent (s.freeBuf a b) p := by
  unfold State.freeBuf
  split
  · exact .refl s p
  · exact s.modPort_keepsSent known a fun _ => rfl

theorem State.freeFlits_keepsSent (s : State) {p : Nat} (known : p < 20) (h : Held) : s.KeepsSent (s.freeFlits h) p := by
  unfold State.freeFlits
  split
  · exact .refl s p
  · exact s.freeBuf_keepsSent known _ _

theorem State.bumpK_keepsSent (s : State) (p : Nat) (f : Fld) (n : Nat) : s.KeepsSent (s.bumpK f n) p := ⟨rfl, rfl, rfl, rfl⟩

/-- A counter that counts a slot only where a condition holds. -/
def State.bumpIf (s : State) (b : Bool) (f : Fld) : State := if b then s.bumpK f 1 else s

theorem State.bumpIf_keepsSent (s : State) (p : Nat) (b : Bool) (f : Fld) : s.KeepsSent (s.bumpIf b f) p :=
  iteInduction (motive := fun u => s.KeepsSent u p) (fun _ => s.bumpK_keepsSent p f 1) (fun _ => .refl s p)

/-- A slot that carries a transit flit. -/
def transitSlot (vc : Option Nat) : Bool := match vc with | some v => isTransit v | none => false

theorem State.countSlot_keepsSent (s : State) {p : Nat} (known : p < 20) (vc : Option Nat) : s.KeepsSent (s.countSlot p vc) p := by
  have waited : ∀ (t : State) (b : Bool) (f : Port → Port), (∀ x : Port, (f x).sent = x.sent) → t.KeepsSent (if b then t.modPort p f else t) p := fun t b f same =>
    iteInduction (motive := fun u => t.KeepsSent u p) (fun _ => t.modPort_keepsSent known p same) (fun _ => .refl t p)
  have transit : ∀ (t : Port) (b : Bool), ({ t with transit := (b :: t.transit).take 255 } : Port).sent = t.sent := fun _ _ => rfl
  refine iteInduction (motive := fun u => s.KeepsSent u p) (fun _ => .refl s p) (fun _ => ?_)
  obtain ⟨u, hu⟩ : ∃ u, u = s.bumpIf (transitSlot vc) Reg.RT_TRANSIT_STAT_TRANSIT_KFLITS := ⟨_, rfl⟩
  obtain ⟨v, hv⟩ : ∃ v, v = u.bumpIf ((s.port p).transitWaits && (s.port p).waits && u.shareUsed p) Reg.RT_TRANSIT_STAT_SHARE_WAITS := ⟨_, rfl⟩
  have first : s.KeepsSent u p := hu ▸ s.bumpIf_keepsSent p _ _
  have second : u.KeepsSent v p := hv ▸ u.bumpIf_keepsSent p _ _
  have third := waited v (s.port p).waits (fun t => { t with transit := (transitSlot vc :: t.transit).take 255 })
    (fun t => transit t _)
  have whole := (first.trans second).trans third
  subst hu hv
  dsimp only
  exact whole

theorem State.countOther_keepsSent (s : State) {p : Nat} (known : p < 20) (n : Nat) : s.KeepsSent (s.countOther p n) p :=
  foldl_keeps (fun t : State => s.KeepsSent t p) _ (fun t _ h => h.trans (t.countSlot_keepsSent known none)) _ _ (.refl s p)

theorem Port.groupTurn_sent (t : Port) (k : Packet) : (t.groupTurn k).sent = t.sent := by
  unfold Port.groupTurn
  dsimp only
  split <;> rfl

/-- A packet that starts to leave its port. -/
def Port.startSending (t : Port) (vc : Nat) (k : Packet) (h : Held) (turn : Nat × Nat) : Port :=
  let t := { t.sentOne vc with txq := t.txq.erase (vc, k, h), rr := turn }
  let t := if vcClass vc = 1 then t.groupTurn k else t
  if PT.isData k.typ.val then
    { t with txSel := vc, txProg := t.txProg ++ [{ vc := vc, flits := flitsOf (k.len - h.due) k.payload, due := h.due,
                                                   arrived := h.arrived, buf := h.buf, sent := 1 }] }
  else t

theorem Port.startSending_sent (t : Port) (vc : Nat) (k : Packet) (h : Held) (turn : Nat × Nat) : (t.startSending vc k h turn).sent = t.sent := by
  have turned : ∀ x : Port, (if vcClass vc = 1 then x.groupTurn k else x).sent = x.sent := fun x =>
    iteInduction (motive := fun u : Port => u.sent = x.sent) (fun _ => x.groupTurn_sent k) (fun _ => rfl)
  have joined : ∀ (x : Port) (n : Nat) (l : List TxPkt), ({ x with txSel := n, txProg := l } : Port).sent = x.sent := fun _ _ _ => rfl
  refine iteInduction (motive := fun u : Port => u.sent = t.sent) (fun _ => (joined _ _ _).trans ?_) (fun _ => ?_)
  · exact (turned _).trans rfl
  · exact (turned _).trans rfl

/-- One more flit of a channel's packet has left. -/
def Port.sendMore (t : Port) (vc : Nat) (turn : Nat × Nat) (z : TxPkt) : Port :=
  { t.sentOne vc with
    txSel := vc, rr := turn, txProg := (t.txProg.map (fun w => if w.vc == vc then z else w)).filter (fun w => !(w.flits.isEmpty && w.due == 0)) }

theorem State.sendMore_keepsSent (s : State) {p : Nat} (known : p < 20) (n vc : Nat) (z : TxPkt) (turn : State → Nat × Nat) (arrived : Option Nat) (b : Nat) :
    s.KeepsSent (match arrived with
      | some a => (((s.countOther p n).countSlot p (some vc)).modPort p (fun t => t.sendMore vc (turn ((s.countOther p n).countSlot p (some vc))) z)).freeBuf a b
      | none => ((s.countOther p n).countSlot p (some vc)).modPort p (fun t => t.sendMore vc (turn ((s.countOther p n).countSlot p (some vc))) z)) p := by
  have counted := (s.countOther_keepsSent known n).trans (State.countSlot_keepsSent _ known (some vc))
  refine counted.trans ?_
  generalize (s.countOther p n).countSlot p (some vc) = u
  have moved := u.modPort_keepsSent known p (f := fun t => t.sendMore vc (turn u) z) fun _ => rfl
  split
  · exact moved.trans (State.freeBuf_keepsSent _ known _ _)
  · exact moved

theorem State.sendSlot_keepsSent (s : State) {p : Nat} (known : p < 20) (x : Slot_) : s.KeepsSent (s.sendSlot p x).2 p := by
  cases x with
  | start vc k h =>
    have counted := s.countSlot_keepsSent known (some vc)
    have moved := State.modPort_keepsSent (s.countSlot p (some vc)) known p
      (f := fun t => t.startSending vc k h ((s.countSlot p (some vc)).turned p (vcClass vc))) fun t => t.startSending_sent _ _ _ _
    exact (counted.trans moved).trans (State.freeFlits_keepsSent _ known h)
  | more vc =>
    unfold State.sendSlot
    dsimp only
    cases (s.port p).txProg.find? (fun y => y.vc == vc) with
    | none => exact .refl s p
    | some y =>
      obtain ⟨vc', flits, due, arrived, buf, sent⟩ := y
      cases flits with
      | nil => exact .refl s p
      | cons d ds => exact s.sendMore_keepsSent known _ vc _ (fun u => u.turned p (vcClass vc)) arrived buf

theorem State.fillSlots_keepsSent {p : Nat} (known : p < 20) (n : Nat) : ∀ (s : State) (acc : List Flit), s.KeepsSent (s.fillSlots p n acc).2 p := by
  induction n with
  | zero => exact fun s _ => .refl s p
  | succ n more =>
    intro s acc
    have chosen : s.KeepsSent (match s.pickSlot p with | some x => s.sendSlot p x | none => (([] : List Flit), s)).2 p := by
      cases s.pickSlot p with
      | some x => exact s.sendSlot_keepsSent known _
      | none => exact .refl s p
    refine iteInduction (motive := fun r : List Flit × State => s.KeepsSent r.2 p) (fun _ => .refl s p) (fun _ => ?_)
    exact iteInduction (motive := fun r : List Flit × State => s.KeepsSent r.2 p) (fun _ => (s.countSlot_keepsSent known none).trans (more _ _))
      (fun _ => chosen.trans (more _ _))

theorem State.timedFlits_keepsSent (s : State) {p : Nat} (known : p < 20) : s.KeepsSent (s.timedFlits p).2 p := by
  unfold State.timedFlits
  dsimp only
  refine State.modPort_keepsSent s known p ?_
  exact fun _ => rfl

theorem State.creditReports_keepsSent (s : State) {p : Nat} (known : p < 20) : s.KeepsSent (s.creditReports p).2 p := by
  unfold State.creditReports
  dsimp only
  refine State.modPort_keepsSent s known p ?_
  exact fun _ => rfl

theorem State.creditReports_length (s : State) (p : Nat) : (s.creditReports p).1.length = 4 := by
  have four : ∀ l : List (Nat × Nat), l.length ≤ 4 → (l ++ List.replicate (4 - l.length) (31, 0)).length = 4 := by
    intro l short
    rw [List.length_append, List.length_replicate]
    omega
  unfold State.creditReports
  dsimp only
  refine four _ ?_
  rw [List.length_map]
  exact List.length_take_le _ _

/-! ### A frame leaves (R266, R269, R270) -/

/-- The frame that some flits leave in, from a port whose credit reports have been taken. -/
def frameWith (p : Nat) (t : Port) (slots : List Flit) (credits : List (Nat × Nat)) : Frame :=
  { slots := (slots ++ List.replicate 32 Flit.null).take 32, fseq := t.nextSeq, ack := if hasRetry p then t.ackOut else 0,
    nak := hasRetry p && t.nakOut, empty := slots.all flitInEmpty, credits := credits }

/-- What leaves with a frame. -/
structure State.FrameLeft (s u : State) (p : Nat) (f : Frame) : Prop where
  wire     : (u.port p).wire = (s.port p).wire ++ [f]
  slots    : f.slots.length = 32
  fseq     : f.fseq = (s.port p).nextSeq
  credits  : f.credits.length = 4
  free     : f.empty = true → f.slots.all flitInEmpty = true
  unstored : f.empty = true → (u.port p).nextSeq = (s.port p).nextSeq ∧ (u.port p).replay = (s.port p).replay
  stored   : f.empty = false → (u.port p).nextSeq = ((s.port p).nextSeq + 1) % 4096
    ∧ (u.port p).replay = if hasRetry p then (s.port p).replay ++ [(f, 1)] else (s.port p).replay
  hm       : u.hm = s.hm
  cores    : u.cores = s.cores
  held     : u.held = s.held

theorem padded_all {slots : List Flit} (free : slots.all flitInEmpty = true) : ((slots ++ List.replicate 32 Flit.null).take 32).all flitInEmpty = true := by
  refine List.all_eq_true.mpr fun x mem => ?_
  rcases List.mem_append.mp (List.mem_of_mem_take mem) with own | pad
  · exact List.all_eq_true.mp free x own
  · rw [List.eq_of_mem_replicate pad]
    rfl

theorem State.putFrame_leaves (s : State) {p : Nat} (known : p < 20) (slots : List Flit) : ∃ f, s.FrameLeft (s.putFrame p slots) p f := by
  have reports := s.creditReports_keepsSent known
  have four := s.creditReports_length p
  obtain ⟨cr, r, hr⟩ : ∃ cr r, s.creditReports p = (cr, r) := ⟨_, _, rfl⟩
  rw [hr] at reports four
  have port := State.port_modPort r p (fun t => { t with
    wire := t.wire ++ [frameWith p (r.port p) slots cr],
    nextSeq := if slots.all flitInEmpty then t.nextSeq else (t.nextSeq + 1) % 4096,
    replay := if slots.all flitInEmpty || !hasRetry p then t.replay else t.replay ++ [(frameWith p (r.port p) slots cr, 1)] }) known
  have put : s.putFrame p slots = r.modPort p (fun t => { t with
      wire := t.wire ++ [frameWith p (r.port p) slots cr],
      nextSeq := if slots.all flitInEmpty then t.nextSeq else (t.nextSeq + 1) % 4096,
      replay := if slots.all flitInEmpty || !hasRetry p then t.replay else t.replay ++ [(frameWith p (r.port p) slots cr, 1)] }) := by
    unfold State.putFrame
    rw [hr]
    rfl
  obtain ⟨wire, next, replay⟩ : (r.port p).wire = (s.port p).wire ∧ (r.port p).nextSeq = (s.port p).nextSeq ∧ (r.port p).replay = (s.port p).replay := by
    simpa [Port.sent] using reports.port
  refine ⟨frameWith p (r.port p) slots cr, ?_⟩
  rw [put]
  constructor
  case wire => rw [port, ← wire]
  case slots => simp [frameWith]
  case fseq => exact next
  case credits => exact four
  case free => exact padded_all
  case unstored =>
    intro free
    have free' : slots.all flitInEmpty = true := free
    rw [port, ← next, ← replay]
    simp [free']
  case stored =>
    intro full
    have full' : slots.all flitInEmpty = false := full
    rw [port, ← next, ← replay]
    cases hasRetry p <;> simp [full']
  case hm => exact reports.hm
  case cores => exact reports.cores
  case held => exact reports.held

theorem State.KeepsSent.leaves {s t u : State} {p : Nat} {f : Frame} (kept : s.KeepsSent t p) (left : t.FrameLeft u p f) : s.FrameLeft u p f := by
  obtain ⟨wire, next, replay⟩ : (t.port p).wire = (s.port p).wire ∧ (t.port p).nextSeq = (s.port p).nextSeq ∧ (t.port p).replay = (s.port p).replay := by
    simpa [Port.sent] using kept.port
  constructor
  case wire => rw [left.wire, wire]
  case slots => exact left.slots
  case fseq => rw [left.fseq, next]
  case credits => exact left.credits
  case free => exact left.free
  case unstored => rw [← next, ← replay]; exact left.unstored
  case stored => rw [← next, ← replay]; exact left.stored
  case hm => exact left.hm.trans kept.hm
  case cores => exact left.cores.trans kept.cores
  case held => exact left.held.trans kept.held

theorem exec_frameTx_new {port : PortId} {s : State} (framed : (s.port port.val).framed = true) (on : s.lk port.val ≠ 0 ∧ s.lk port.val ≠ 5)
    (fresh : (s.port port.val).resend = []) : ∃ (u : State) (f : Frame), exec (.frameTx port) s = .next u ∧ s.FrameLeft u port.val f := by
  have known := port.isLt
  change ∃ (u : State) (f : Frame), execFrameTx port s = .next u ∧ _
  unfold execFrameTx
  dsimp only
  generalize port.val = p at *
  rw [if_neg (by rw [framed]; decide), if_neg (not_or.mpr on), fresh]
  have timed := s.timedFlits_keepsSent known
  generalize s.timedFlits p = fr at timed ⊢
  obtain ⟨flits, r⟩ := fr
  dsimp only at timed ⊢
  generalize List.take (28 - flits.length) _ = now
  generalize hq : State.modPort r p _ = q
  have queued : r.KeepsSent q p := by
    rw [← hq]
    refine State.modPort_keepsSent r known p ?_
    exact fun _ => rfl
  have counted := (timed.trans queued).trans (State.countOther_keepsSent q known ((flits ++ now).map Flit.link).length)
  generalize q.countOther p _ = c at counted
  split
  · have rest := State.countOther_keepsSent c known (32 - ((flits ++ now).map Flit.link).length)
    obtain ⟨f, left⟩ := State.putFrame_leaves (c.countOther p (32 - ((flits ++ now).map Flit.link).length)) known ((flits ++ now).map Flit.link)
    exact ⟨_, f, rfl, (counted.trans rest).leaves left⟩
  · have filled := State.fillSlots_keepsSent known 32 c ((flits ++ now).map Flit.link)
    obtain ⟨f, left⟩ := State.putFrame_leaves (c.fillSlots p 32 ((flits ++ now).map Flit.link)).2 known (c.fillSlots p 32 ((flits ++ now).map Flit.link)).1
    exact ⟨_, f, rfl, (counted.trans filled).leaves left⟩

/-! ### A frame leaves again, and what leaves before the framed stream (R269, R285) -/

theorem exec_frameTx_again {port : PortId} {s : State} (framed : (s.port port.val).framed = true) (on : s.lk port.val ≠ 0 ∧ s.lk port.val ≠ 5)
    {f : Frame} {rest : List Frame} (asked : (s.port port.val).resend = f :: rest) (few : ∀ x ∈ (s.port port.val).replay, x.2 < 7) :
    ∃ (u : State) (g : Frame), exec (.frameTx port) s = .next u ∧ (u.port port.val).wire = (s.port port.val).wire ++ [g] ∧ g.fseq = f.fseq
      ∧ g.slots = f.slots ∧ (u.port port.val).resend = rest := by
  have known := port.isLt
  change ∃ (u : State) (g : Frame), execFrameTx port s = .next u ∧ _
  unfold execFrameTx
  dsimp only
  generalize port.val = p at *
  rw [if_neg (by rw [framed]; decide), if_neg (not_or.mpr on), asked]
  dsimp only
  unfold State.resendFrame
  have reports := s.creditReports_keepsSent known
  generalize s.creditReports p = cr at reports ⊢
  obtain ⟨credits, r⟩ := cr
  dsimp only at reports ⊢
  obtain ⟨wire, -, replay⟩ : (r.port p).wire = (s.port p).wire ∧ (r.port p).nextSeq = (s.port p).nextSeq ∧ (r.port p).replay = (s.port p).replay := by
    simpa [Port.sent] using reports.port
  have sends : (((r.port p).replay.find? (fun x => x.1.fseq == f.fseq)).map Prod.snd).getD 0 + 1 < 8 := by
    rw [replay]
    cases found : (s.port p).replay.find? (fun x => x.1.fseq == f.fseq) with
    | none => decide
    | some x =>
      have := few x (List.mem_of_find?_eq_some found)
      change x.2 + 1 < 8
      omega
  generalize (((r.port p).replay.find? (fun x => x.1.fseq == f.fseq)).map Prod.snd).getD 0 + 1 = n at sends ⊢
  rw [if_neg (by omega)]
  refine ⟨_, { f with ack := (r.port p).ackOut, nak := (r.port p).nakOut, credits := credits }, rfl, ?_⟩
  generalize hm : State.modPort r p _ = m
  have counted : (m.bumpK (Reg.LK_ERR_REPLAYS p) 1).port p = m.port p := rfl
  rw [counted, ← hm, State.port_modPort _ _ _ known, ← wire]
  exact ⟨rfl, rfl, rfl, rfl⟩

theorem exec_frameTx_idle {port : PortId} {s : State} (unframed : (s.port port.val).framed = false) (up : (s.port port.val).downAt = none) :
    exec (.frameTx port) s = .next s := by
  change execFrameTx port s = _
  unfold execFrameTx
  dsimp only
  rw [if_pos (by rw [unframed]; decide), up]

theorem exec_frameTx_down {port : PortId} {s : State} (unframed : (s.port port.val).framed = false) {c cause : Nat}
    (down : (s.port port.val).downAt = some (c, cause)) (soon : s.clock < c + State.usTicks 10) :
    exec (.frameTx port) s = .next (s.modPort port.val (fun t => { t with wire := t.wire ++ [linkFrame [.down cause] t.nextSeq] })) := by
  change execFrameTx port s = _
  unfold execFrameTx
  dsimp only
  rw [if_pos (by rw [unframed]; decide), down]
  dsimp only
  rw [if_pos soon]

/-! ### Markers leave (R263-R265) -/

theorem exec_markerTx_trains {port : PortId} {s : State} (unframed : (s.port port.val).framed = false) (on : s.lk port.val ≠ 0 ∧ s.lk port.val ≠ 5) :
    exec (.markerTx port) s = .next (s.modPort port.val (fun t => { t with
      marks := t.marks ++ t.trainBlocks (List.range 16) t.stage, blocks := t.blocks + 1 })) := by
  change execMarkerTx port s = _
  unfold execMarkerTx
  dsimp only
  rw [if_neg (by simp [on]), if_pos (by rw [unframed]; decide)]
  exact congrArg Host.Outcome.next (s.modPort_congr rfl)

/-- A port from which some lane blocks have left. -/
def Port.markersSent (t : Port) (blocks : List LaneBlock) : Port := { t with marks := t.marks ++ blocks, blocks := t.blocks + 1 }

/-- A port that counts on. -/
def Port.counted (t : Port) (n : Word32) : Port := { t with cwc := t.cwc + n }

theorem State.modPort_txMask (s : State) (p q : Nat) (f : Port → Port) : (s.modPort q f).txMask p = s.txMask p :=
  congrArg (BitVec.ofNat 16) (s.rd_congr _ _ (s.modPort_regs q f))

/-- What a marker's time does on the framed stream, by the mask that is announced and its markers. -/
def State.markerPeriod (s : State) (p : Nat) (newMask : Option (BitVec 16)) (markers : Nat) : State :=
  let n : Word32 := if hasRetry p then 8192 else 4096
  let cal := (s.port p).trainBlocks (s.calLanes p) 1
  let g := ((s.port p).mgen + 1) % 256
  let old := (s.modPort p (fun t => t.counted n)).txMask p
  match newMask, markers with
  | some m, 1 => (((((s.modPort p (fun t => t.counted n)).modPort p (fun t => { t with newMask := none, markers := 0, mgen := g })).wr
      (Reg.LK_STATE_TX_MASK p) m.toNat).modPort p (fun t => t.markersSent (alignBlocks (old ||| m) g m ((s.port p).cwc + n) ++ cal))).afterMask p m).announce p
  | _, _ => ((s.modPort p (fun t => t.counted n)).modPort p (fun t => { t with markers := t.markers - 1 })).modPort p
      (fun t => t.markersSent (alignBlocks old (s.port p).mgen old ((s.port p).cwc + n) ++ cal))

theorem exec_markerTx_framed {port : PortId} {s : State} (framed : (s.port port.val).framed = true) (on : s.lk port.val ≠ 0 ∧ s.lk port.val ≠ 5) :
    exec (.markerTx port) s = .next (s.markerPeriod port.val (s.port port.val).newMask (s.port port.val).markers) := by
  refine congrArg Host.Outcome.next ?_
  refine (if_neg (by simp [on])).trans ((if_neg (by rw [framed]; decide)).trans ?_)
  dsimp only
  generalize (s.port port.val).newMask = newMask
  generalize (s.port port.val).markers = markers
  cases newMask with
  | none => rfl
  | some m => cases markers with
    | zero => rfl
    | succ k => cases k with
      | zero => rfl
      | succ k => rfl

theorem exec_markerTx_plain {port : PortId} {s : State} (framed : (s.port port.val).framed = true) (on : s.lk port.val ≠ 0 ∧ s.lk port.val ≠ 5)
    (quiet : (s.port port.val).newMask = none ∨ (s.port port.val).markers ≠ 1) :
    exec (.markerTx port) s = .next (s.modPort port.val (fun t => { t with
      cwc := t.cwc + (if hasRetry port.val then 8192 else 4096), markers := t.markers - 1,
      marks := t.marks ++ (alignBlocks (s.txMask port.val) t.mgen (s.txMask port.val) (t.cwc + (if hasRetry port.val then 8192 else 4096))
        ++ (s.port port.val).trainBlocks (s.calLanes port.val) 1),
      blocks := t.blocks + 1 })) := by
  refine (exec_markerTx_framed framed on).trans (congrArg Host.Outcome.next ?_)
  unfold State.markerPeriod
  dsimp only
  split
  · rename_i hm h1
    rcases quiet with h | h
    · rw [h] at hm
      cases hm
    · exact absurd h1 h
  · rw [State.modPort_modPort _ _ _ port.isLt, State.modPort_modPort _ _ _ port.isLt, State.modPort_txMask]
    exact s.modPort_congr rfl

/-! ### An announced mask takes effect (R264) -/

/-- What of a port its markers are made from. -/
def Port.marking (t : Port) : Nat × Word32 × List LaneBlock := (t.mgen, t.cwc, t.marks)

/-- What a port's change of mask keeps of its markers. -/
structure State.KeepsMarks (s t : State) (p : Nat) : Prop where
  port : (t.port p).marking = (s.port p).marking
  mask : t.txMask p = s.txMask p

theorem State.KeepsMarks.refl (s : State) (p : Nat) : s.KeepsMarks s p := ⟨rfl, rfl⟩

theorem State.KeepsMarks.trans {s t u : State} {p : Nat} (a : s.KeepsMarks t p) (b : t.KeepsMarks u p) : s.KeepsMarks u p :=
  ⟨b.port.trans a.port, b.mask.trans a.mask⟩

theorem State.modPort_keepsMarks (s : State) {p : Nat} (known : p < 20) {f : Port → Port} (same : ∀ t : Port, (f t).marking = t.marking) :
    s.KeepsMarks (s.modPort p f) p := by
  refine ⟨?_, rfl⟩
  rw [State.port_modPort _ _ _ known]
  exact same _

theorem State.wr_keepsMarks (s : State) (p : Nat) {f : Fld} (v : Nat) (apart : (Reg.LK_STATE_TX_MASK p).key ≠ f.key) : s.KeepsMarks (s.wr f v) p :=
  ⟨rfl, congrArg (BitVec.ofNat 16) (s.rd_wr_ne f _ v apart)⟩

theorem oeCal_besideMask (p k lo w rst : Nat) (port : k < 2) (within : lo < 64) :
    (Reg.LK_STATE_TX_MASK p).key ≠ (⟨Reg.OE_CAL (p / 2) k, lo, w, rst⟩ : Fld).key := by
  simp only [Fld.key, Reg.LK_STATE_TX_MASK, Reg.LK_STATE, Reg.OE_CAL]
  omega

theorem swapState_besideMask (p : Nat) : (Reg.LK_STATE_TX_MASK p).key ≠ (Reg.OE_STATUS_SWAP_STATE (p / 2)).key := by
  simp only [Fld.key, Reg.LK_STATE_TX_MASK, Reg.LK_STATE, Reg.OE_STATUS_SWAP_STATE, Reg.OE_STATUS]
  omega

/-- A calibration lane has returned. -/
def State.calReturned (s : State) (p : Nat) (m : BitVec 16) : State :=
  match (s.port p).calLane with
  | some l =>
    if m.getLsbD l then
      ((s.modPort p (fun t => { t with calLane := none })).wr (Reg.OE_CAL_ACTIVE (p / 2) (calIdx p)) 0).bump (Reg.OE_CAL_CALS (p / 2) (calIdx p)) 1
    else s
  | none => s

/-- A swap whose lanes have left, or returned, goes on. -/
def State.swapMoved (s : State) (p : Nat) (m : BitVec 16) : State :=
  let k := s.rd (Reg.OE_STATUS_SWAP_EMITTER (p / 2))
  let own := [0, 4, 8, 12].map (· + k / 3)
  if k < 12 && s.rd (Reg.OE_EMIT_ROLE (p / 2) k) == p % 2 + 1 then
    if s.rd (Reg.OE_STATUS_SWAP_STATE (p / 2)) == 2 && own.all (fun l => !m.getLsbD l) then s.wr (Reg.OE_STATUS_SWAP_STATE (p / 2)) 3
    else if s.rd (Reg.OE_STATUS_SWAP_STATE (p / 2)) == 4 && own.all (fun l => m.getLsbD l) then s.wr (Reg.OE_STATUS_SWAP_STATE (p / 2)) 5
    else s
  else s

theorem State.afterMask_eq (s : State) (p : Nat) (m : BitVec 16) : s.afterMask p m = (s.calReturned p m).swapMoved p m := rfl

theorem State.calReturned_keepsMarks (s : State) {p : Nat} (known : p < 20) (m : BitVec 16) : s.KeepsMarks (s.calReturned p m) p := by
  have index : calIdx p < 2 := Nat.mod_lt _ (by decide)
  unfold State.calReturned
  split
  · refine iteInduction (motive := fun t => s.KeepsMarks t p) (fun _ => ?_) (fun _ => .refl s p)
    have cleared := s.modPort_keepsMarks known (f := fun t => { t with calLane := none }) fun _ => rfl
    exact (cleared.trans (State.wr_keepsMarks _ p 0 (oeCal_besideMask p _ _ _ _ index (by decide)))).trans
      (State.wr_keepsMarks _ p _ (oeCal_besideMask p _ _ _ _ index (by decide)))
  · exact .refl s p

theorem State.swapMoved_keepsMarks (s : State) (p : Nat) (m : BitVec 16) : s.KeepsMarks (s.swapMoved p m) p := by
  have moved := fun v => s.wr_keepsMarks p v (swapState_besideMask p)
  refine iteInduction (motive := fun t => s.KeepsMarks t p) (fun _ => ?_) (fun _ => .refl s p)
  refine iteInduction (motive := fun t => s.KeepsMarks t p) (fun _ => moved 3) (fun _ => ?_)
  exact iteInduction (motive := fun t => s.KeepsMarks t p) (fun _ => moved 5) (fun _ => .refl s p)

theorem State.announce_keepsMarks (s : State) {p : Nat} (known : p < 20) : s.KeepsMarks (s.announce p) p := by
  have asked := s.modPort_keepsMarks known (f := fun t => { t with laneReqs := [] }) fun _ => rfl
  refine iteInduction (motive := fun t => s.KeepsMarks t p) (fun _ => .refl s p) (fun _ => ?_)
  refine iteInduction (motive := fun t => s.KeepsMarks t p) (fun _ => asked) (fun _ => ?_)
  refine (asked.trans (State.modPort_keepsMarks _ known fun _ => ?_)).trans (State.modPort_keepsMarks _ known fun _ => ?_)
  · rfl
  · rfl

/-- A port whose announced mask takes effect after some code words. -/
def Port.withMask (t : Port) (n : Word32) : Port := { t with cwc := t.cwc + n, newMask := none, markers := 0, mgen := (t.mgen + 1) % 256 }

/-- The mask is applied, and its markers leave. -/
def State.maskApplied (s : State) (p : Nat) (m : BitVec 16) (n : Word32) (blocks : List LaneBlock) : State :=
  ((s.modPort p (fun t => t.withMask n)).wr (Reg.LK_STATE_TX_MASK p) m.toNat).modPort p (fun t => t.markersSent blocks)

theorem State.maskApplied_marking (s : State) {p : Nat} (known : p < 20) (m : BitVec 16) (n : Word32) (blocks : List LaneBlock) :
    ((s.maskApplied p m n blocks).port p).marking = (((s.port p).mgen + 1) % 256, (s.port p).cwc + n, (s.port p).marks ++ blocks) := by
  have first := State.port_modPort s p (fun t => t.withMask n) known
  have second := State.port_modPort ((s.modPort p (fun t => t.withMask n)).wr (Reg.LK_STATE_TX_MASK p) m.toNat) p (fun t => t.markersSent blocks) known
  have same : ((s.modPort p (fun t => t.withMask n)).wr (Reg.LK_STATE_TX_MASK p) m.toNat).port p = (s.port p).withMask n := first
  rw [same] at second
  exact congrArg Port.marking second

theorem State.maskApplied_txMask (s : State) (p : Nat) (m : BitVec 16) (n : Word32) (blocks : List LaneBlock) : (s.maskApplied p m n blocks).txMask p = m := by
  refine (congrArg (BitVec.ofNat 16) (State.rd_wr _ (Reg.LK_STATE_TX_MASK p) m.toNat)).trans (BitVec.eq_of_toNat_eq ?_)
  have small := m.isLt
  simp only [Reg.LK_STATE_TX_MASK, BitVec.toNat_ofNat]
  omega

theorem exec_markerTx_applies {port : PortId} {s : State} (framed : (s.port port.val).framed = true) (on : s.lk port.val ≠ 0 ∧ s.lk port.val ≠ 5)
    {m : BitVec 16} (announced : (s.port port.val).newMask = some m) (second : (s.port port.val).markers = 1) :
    exec (.markerTx port) s = .next (((s.maskApplied port.val m (if hasRetry port.val then 8192 else 4096)
      (alignBlocks (s.txMask port.val ||| m) (((s.port port.val).mgen + 1) % 256) m ((s.port port.val).cwc + (if hasRetry port.val then 8192 else 4096))
        ++ (s.port port.val).trainBlocks (s.calLanes port.val) 1)).afterMask port.val m).announce port.val) := by
  refine (exec_markerTx_framed framed on).trans (congrArg Host.Outcome.next ?_)
  have chosen := congrArg₂ (s.markerPeriod port.val) announced second
  have same := s.modPort_txMask port.val port.val (fun t => t.counted (if hasRetry port.val then 8192 else 4096))
  unfold State.markerPeriod at chosen
  dsimp only at chosen
  rw [same] at chosen
  refine chosen.trans (congrArg (fun x : State => (((x.wr (Reg.LK_STATE_TX_MASK port.val) m.toNat).modPort port.val
    (fun t => t.markersSent _)).afterMask port.val m).announce port.val) ?_)
  exact (s.modPort_modPort _ _ port.isLt).trans (s.modPort_congr rfl)

/-- What a mask's taking effect leaves. -/
theorem State.maskApplied_effect (s : State) {p : Nat} (known : p < 20) (m : BitVec 16) (n : Word32) (blocks : List LaneBlock) :
    (((s.maskApplied p m n blocks).afterMask p m).announce p).txMask p = m
    ∧ ((((s.maskApplied p m n blocks).afterMask p m).announce p).port p).marking
      = (((s.port p).mgen + 1) % 256, (s.port p).cwc + n, (s.port p).marks ++ blocks) := by
  have kept := ((State.calReturned_keepsMarks (s.maskApplied p m n blocks) known m).trans (State.swapMoved_keepsMarks _ p m)).trans
    (State.announce_keepsMarks _ known)
  rw [← State.afterMask_eq] at kept
  exact ⟨kept.mask.trans (s.maskApplied_txMask p m n blocks), kept.port.trans (s.maskApplied_marking known m n blocks)⟩

/-! ### Markers arrive (R263, R264) -/

theorem exec_markerRx_one {port : PortId} {s : State} (framed : (s.port port.val).framed = true) (on : s.lk port.val ≠ 0 ∧ s.lk port.val ≠ 5) (x : LaneMarker) :
    exec (.markerRx port [x]) s = .next ((s.laneMarker port.val x).checkLanes port.val) := by
  change execMarkerRx port [x] s = _
  unfold execMarkerRx
  dsimp only
  rw [if_neg (by simp [framed, on])]
  exact congrArg (fun t : State => Host.Outcome.next (t.checkLanes port.val)) (if_pos framed)

theorem State.checkLanes_enough {s : State} {p : Nat} (enough : s.lk p = 1 ∨ 8 ≤ (s.working p).length) : s.checkLanes p = s :=
  if_pos (enough.elim (fun h => .inl (by omega)) (fun h => .inr (.inr h)))

/-- A lane whose marker is good. -/
def Port.laneNamed (t : Port) (phys l : Nat) : Port :=
  { t with laneOf := t.laneOf.put phys l, mLock := t.mLock ||| laneBit l, mBad := t.mBad.del l, rxNext := none }

theorem State.laneMarker_good {s : State} (p : Nat) {x : LaneMarker} (good : alignGood x.bytes = true) :
    s.laneMarker p x = (s.modPort p (fun t => t.laneNamed x.phys.val (leAt x.bytes 8 1 % 16))).wr (Reg.LK_STATE_RX_MASK p) (leAt x.bytes 10 2) := if_pos good

theorem exec_markerRx_good {port : PortId} {s : State} (framed : (s.port port.val).framed = true) (on : s.lk port.val ≠ 0 ∧ s.lk port.val ≠ 5) {x : LaneMarker}
    (good : alignGood x.bytes = true)
    (enough : s.lk port.val = 1 ∨ 8 ≤ ((lanes (BitVec.ofNat 16 (leAt x.bytes 10 2))).filter (fun k => (s.port port.val).signal.getLsbD k
      && ((s.port port.val).mLock ||| laneBit (leAt x.bytes 8 1 % 16)).getLsbD k)).length) :
    ∃ u : State, exec (.markerRx port [x]) s = .next u ∧ (u.port port.val).mLock = ((s.port port.val).mLock ||| laneBit (leAt x.bytes 8 1 % 16))
      ∧ u.rxMask port.val = BitVec.ofNat 16 (leAt x.bytes 10 2)
      ∧ Tab.get (u.port port.val).laneOf x.phys.val x.phys.val = leAt x.bytes 8 1 % 16 := by
  rw [exec_markerRx_one framed on, State.laneMarker_good _ good]
  generalize leAt x.bytes 8 1 % 16 = l at *
  generalize leAt x.bytes 10 2 = mask at *
  have known := port.isLt
  generalize port.val = p at *
  have named : ((s.modPort p (fun t => t.laneNamed x.phys.val l)).wr (Reg.LK_STATE_RX_MASK p) mask).port p = (s.port p).laneNamed x.phys.val l :=
    State.port_modPort s p (fun t => t.laneNamed x.phys.val l) known
  have masked : ((s.modPort p (fun t => t.laneNamed x.phys.val l)).wr (Reg.LK_STATE_RX_MASK p) mask).rxMask p = BitVec.ofNat 16 mask := by
    refine (congrArg (BitVec.ofNat 16) (State.rd_wr _ _ _)).trans ?_
    exact BitVec.eq_of_toNat_eq (by simp [Reg.LK_STATE_RX_MASK])
  have state : ((s.modPort p (fun t => t.laneNamed x.phys.val l)).wr (Reg.LK_STATE_RX_MASK p) mask).lk p = s.lk p := by
    refine (State.rd_wr_ne _ _ (Reg.LK_STATE_STATE p) _ ?_).trans rfl
    simp only [Fld.key, Reg.LK_STATE_STATE, Reg.LK_STATE_RX_MASK]
    omega
  generalize (s.modPort p (fun t => t.laneNamed x.phys.val l)).wr (Reg.LK_STATE_RX_MASK p) mask = u at *
  have works : u.working p = (lanes (BitVec.ofNat 16 mask)).filter (fun k => (s.port p).signal.getLsbD k && ((s.port p).mLock ||| laneBit l).getLsbD k) := by
    unfold State.working
    rw [named, masked]
    rfl
  refine ⟨u, ?_, ?_, masked, ?_⟩
  · rw [State.checkLanes_enough (by rwa [state, works])]
  · rw [named]
    rfl
  · rw [named]
    exact Tab.get_put_same _ _ _ _

/-- One more bad marker of a lane. -/
def Port.badMarker (t : Port) (l n : Nat) : Port := { t with mBad := t.mBad.put l n }

theorem State.laneMarker_bad {s : State} (p : Nat) {x : LaneMarker} {l : Nat} (lane : Tab.get (s.port p).laneOf x.phys.val x.phys.val = l) (bad : alignGood x.bytes = false)
    {n : Nat} (count : Tab.get (s.port p).mBad 0 l = n) :
    s.laneMarker p x = if n + 1 = 2 ∧ (s.rxMask p).getLsbD l
      then ((s.modPort p (fun t => t.badMarker l (n + 1))).modPort p (fun t => { t with mLock := t.mLock &&& ~~~ (laneBit l) })).loseLane p l
      else s.modPort p (fun t => t.badMarker l (n + 1)) := by
  subst lane count
  exact if_neg (by rw [bad]; decide)

theorem exec_markerRx_first {port : PortId} {s : State} (framed : (s.port port.val).framed = true) (on : s.lk port.val ≠ 0 ∧ s.lk port.val ≠ 5) {x : LaneMarker} {l : Nat}
    (lane : Tab.get (s.port port.val).laneOf x.phys.val x.phys.val = l) (bad : alignGood x.bytes = false) (count : Tab.get (s.port port.val).mBad 0 l = 0)
    (enough : s.lk port.val = 1 ∨ 8 ≤ (s.working port.val).length) :
    exec (.markerRx port [x]) s = .next (s.modPort port.val (fun t => { t with mBad := t.mBad.put l 1 })) := by
  rw [exec_markerRx_one framed on, State.laneMarker_bad _ lane bad count, if_neg (fun h => absurd h.1 (by decide))]
  have works : (s.modPort port.val (fun t => t.badMarker l (0 + 1))).working port.val = s.working port.val := by
    unfold State.working
    rw [State.port_modPort _ _ _ port.isLt]
    rfl
  have state : (s.modPort port.val (fun t => t.badMarker l (0 + 1))).lk port.val = s.lk port.val := rfl
  rw [State.checkLanes_enough (by rwa [state, works])]
  rfl

theorem State.freeBuf_mLock (s : State) {p : Nat} (known : p < 20) (a b : Nat) : ((s.freeBuf a b).port p).mLock = (s.port p).mLock := by
  unfold State.freeBuf
  split
  · rfl
  · by_cases here : p = a
    · subst here
      dsimp only
      rw [State.port_modPort _ _ _ known]
    · exact congrArg Port.mLock (getD_set_other _ _ _ _ _ here)

theorem State.bringUp_mLock (s : State) {p : Nat} (known : p < 20) : ((s.bringUp p).port p).mLock = (s.port p).mLock := by
  refine iteInduction (motive := fun t : State => (t.port p).mLock = (s.port p).mLock) (fun _ => ?_) (fun _ => rfl)
  have started : ∀ f v, ((s.modPort p f).setLk p v).port p = f (s.port p) := fun f _ => State.port_modPort s p f known
  rw [started]

theorem State.portDown_unlocked (s : State) {p : Nat} (known : p < 20) (cause : Nat) : ((s.portDown p cause).port p).mLock = 0 := by
  obtain ⟨t, ht⟩ : ∃ t, t = (((s.downCounted p cause).downRecorded p cause).requeue p).abandonAll p := ⟨_, rfl⟩
  have eq : s.portDown p cause = ((t.cutOff p (s.port p) cause).masksCleared p).afterDown p cause := by rw [ht]; rfl
  have cut : ((t.cutOff p (s.port p) cause).port p).mLock = 0 := by
    refine foldl_keeps (fun t : State => (t.port p).mLock = 0) _ (fun t x h => (t.freeBuf_mLock known x.1 x.2).trans h) _ _ ?_
    rw [State.port_modPort _ _ _ known]
    rfl
  have cleared : ((t.cutOff p (s.port p) cause).masksCleared p).port p = (t.cutOff p (s.port p) cause).port p :=
    congrArg (fun v => v.getD p Port.reset) ((t.cutOff p (s.port p) cause).masksCleared_onlyRegs p).samePorts.ports
  rw [← cleared] at cut
  rw [eq]
  generalize (t.cutOff p (s.port p) cause).masksCleared p = u at cut
  refine iteInduction (motive := fun t : State => (t.port p).mLock = 0) (fun _ => cut) (fun _ => ?_)
  exact (State.bringUp_mLock _ known).trans cut

theorem State.takeDown_unlocked (s : State) {p l : Nat} (known : p < 20) (cause : Nat) (unlocked : (s.port p).mLock.getLsbD l = false) :
    ((s.takeDown p cause).port p).mLock.getLsbD l = false := by
  by_cases still : s.lk p = 0 ∨ s.lk p = 5
  · have same : s.takeDown p cause = s := if_pos still
    rwa [same]
  · have down : ((s.portDown p cause).port p).mLock.getLsbD l = false := by
      rw [s.portDown_unlocked known cause]
      exact BitVec.getLsbD_zero
    rw [State.takeDown_eq (not_or.mp still)]
    refine iteInduction (motive := fun t : State => (t.port p).mLock.getLsbD l = false) (fun _ => ?_) (fun _ => down)
    rwa [(State.linkLost_sameLinks _ p cause).port p]

theorem State.checkLanes_unlocked (s : State) {p l : Nat} (known : p < 20) (unlocked : (s.port p).mLock.getLsbD l = false) :
    ((s.checkLanes p).port p).mLock.getLsbD l = false := by
  refine iteInduction (motive := fun t : State => (t.port p).mLock.getLsbD l = false) (fun _ => unlocked) (fun _ => State.takeDown_unlocked _ known 2 ?_)
  exact iteInduction (motive := fun t : State => (t.port p).mLock.getLsbD l = false) (fun _ => unlocked) (fun _ => unlocked)

theorem State.loseLane_unlocked (s : State) {p l : Nat} (known : p < 20) (m : Nat) (unlocked : (s.port p).mLock.getLsbD l = false) :
    ((s.loseLane p m).port p).mLock.getLsbD l = false := by
  refine iteInduction (motive := fun t : State => (t.port p).mLock.getLsbD l = false) (fun _ => unlocked) (fun _ => ?_)
  refine iteInduction (motive := fun t : State => (t.port p).mLock.getLsbD l = false) (fun _ => s.checkLanes_unlocked known unlocked) (fun _ => ?_)
  have asked := State.port_modPort s p (fun t => { t with linkq := t.linkq ++ [.laneReq m false] }) known
  exact (congrArg (fun t : Port => t.mLock.getLsbD l) asked).trans unlocked

theorem exec_markerRx_second {port : PortId} {s : State} (framed : (s.port port.val).framed = true) (on : s.lk port.val ≠ 0 ∧ s.lk port.val ≠ 5) {x : LaneMarker} {l : Nat}
    (lane : Tab.get (s.port port.val).laneOf x.phys.val x.phys.val = l) (bad : alignGood x.bytes = false) (count : Tab.get (s.port port.val).mBad 0 l = 1)
    (masked : (s.rxMask port.val).getLsbD l = true) :
    ∃ u : State, exec (.markerRx port [x]) s = .next u ∧ (u.port port.val).mLock.getLsbD l = false := by
  have known := port.isLt
  rw [exec_markerRx_one framed on, State.laneMarker_bad _ lane bad count, if_pos ⟨rfl, masked⟩]
  refine ⟨_, rfl, State.checkLanes_unlocked _ known (State.loseLane_unlocked _ known l ?_)⟩
  rw [State.port_modPort _ _ _ known]
  exact (darkened_bit _ l l).trans (by simp)

end Sys2Proof.Machine
end


section
/-! Frames are accepted in order (R261, R265-R270, R274). -/

namespace Sys2Proof.Machine

/-! ### The counters of the decoder (R261) -/

/-- A frame's codewords have been counted. -/
def State.fecCounted (s : State) (p corrected uncorr : Nat) : State :=
  (s.bumpK (Reg.LK_FEC_CORR_KCW p) corrected).bump (Reg.LK_FEC_UNCORR_CW p) uncorr

theorem State.fecCounted_rd (s : State) (p corrected uncorr : Nat) {g : Fld} (apart : g.key / 64 % 0x10000 ≠ 0x30) :
    (s.fecCounted p corrected uncorr).rd g = s.rd g := by
  have corr : g.key ≠ (Reg.LK_FEC_CORR_KCW p).key := by
    simp only [Fld.key, Reg.LK_FEC_CORR_KCW, Reg.LK_FEC]
    simp only [Fld.key] at apart
    omega
  have unc : g.key ≠ (Reg.LK_FEC_UNCORR_CW p).key := by
    simp only [Fld.key, Reg.LK_FEC_UNCORR_CW, Reg.LK_FEC]
    simp only [Fld.key] at apart
    omega
  exact (State.bump_rd_ne _ _ unc).trans (s.bumpK_rd_ne _ corr)

theorem State.fecCounted_port (s : State) (p corrected uncorr q : Nat) : (s.fecCounted p corrected uncorr).port q = s.port q := rfl

theorem linkField_besideFec (p off lo w rst : Nat) (within : lo < 64) (other : off < 0x10000 ∧ off ≠ 0x30) :
    (⟨0x00600000 + off + p * 0x10000, lo, w, rst⟩ : Fld).key / 64 % 0x10000 ≠ 0x30 := by
  simp only [Fld.key]
  omega

theorem State.fecCounted_lk (s : State) (p corrected uncorr : Nat) : (s.fecCounted p corrected uncorr).lk p = s.lk p :=
  s.fecCounted_rd p corrected uncorr (linkField_besideFec p 8 0 3 0 (by decide) (by decide))

theorem State.fecCounted_rxMask (s : State) (p corrected uncorr : Nat) : (s.fecCounted p corrected uncorr).rxMask p = s.rxMask p :=
  congrArg (BitVec.ofNat 16) (s.fecCounted_rd p corrected uncorr (linkField_besideFec p 8 24 16 0 (by decide) (by decide)))

theorem State.fecCounted_linkRuns (s : State) (p corrected uncorr : Nat) : (s.fecCounted p corrected uncorr).linkRuns p = s.linkRuns p := by
  unfold State.linkRuns
  rw [s.fecCounted_lk, s.fecCounted_port]

theorem State.fecCounted_fails (s : State) (p corrected uncorr : Nat) :
    (s.fecCounted p corrected uncorr).rd (Reg.LK_ERR_CRC_FAILS p) = s.rd (Reg.LK_ERR_CRC_FAILS p) :=
  s.fecCounted_rd p corrected uncorr (linkField_besideFec p 0x20 0 32 0 (by decide) (by decide))

theorem State.fecCounted_discards (s : State) (p corrected uncorr : Nat) :
    (s.fecCounted p corrected uncorr).rd (Reg.LK_ERR_DISCARDS p) = s.rd (Reg.LK_ERR_DISCARDS p) :=
  s.fecCounted_rd p corrected uncorr (linkField_besideFec p 0x20 48 16 0 (by decide) (by decide))

/-- What of a state a HEAD flit is judged by. -/
structure State.JudgesAlike (s t : State) (p : Nat) : Prop where
  lk      : t.lk p = s.lk p
  rxCount : (t.port p).rxCount = (s.port p).rxCount
  freed   : (t.port p).freed = (s.port p).freed
  rxProg  : (t.port p).rxProg = (s.port p).rxProg
  edgeWin : (t.port p).edgeWin = (s.port p).edgeWin
  nbr     : t.rd (Reg.LK_NBR_EXP_MODULE p) = s.rd (Reg.LK_NBR_EXP_MODULE p)
  zlen    : t.rd Reg.RT_CTL_ZLEN = s.rd Reg.RT_CTL_ZLEN
  wlen    : t.rd Reg.RT_CTL_WLEN = s.rd Reg.RT_CTL_WLEN
  window  : t.rd Reg.LK_WINDOW_WINDOW_KIB = s.rd Reg.LK_WINDOW_WINDOW_KIB

theorem State.JudgesAlike.headBad {s t : State} {p : Nat} (h : s.JudgesAlike t p) (k : Packet) : t.headBad p k = s.headBad p k := by
  have masks : ∀ m, t.maskBad m = s.maskBad m := by
    intro m
    unfold State.maskBad
    rw [h.zlen, h.wlen]
  unfold State.headBad Port.inBuffer Port.inProgress
  dsimp only
  rw [h.lk, h.rxCount, h.freed, h.rxProg, h.edgeWin, h.nbr, h.window]
  simp only [masks]

theorem State.fecCounted_judges (s : State) {p : Nat} (known : p < 20) (corrected uncorr : Nat) {f : Port → Port}
    (same : ∀ t : Port, (f t).rxCount = t.rxCount ∧ (f t).freed = t.freed ∧ (f t).rxProg = t.rxProg ∧ (f t).edgeWin = t.edgeWin) :
    s.JudgesAlike ((s.fecCounted p corrected uncorr).modPort p f) p := by
  have port := State.port_modPort (s.fecCounted p corrected uncorr) p f known
  rw [s.fecCounted_port] at port
  obtain ⟨rxCount, freed, rxProg, edgeWin⟩ := same (s.port p)
  have regs := (s.fecCounted p corrected uncorr).modPort_regs p f
  have rd : ∀ g : Fld, g.key / 64 % 0x10000 ≠ 0x30 → ((s.fecCounted p corrected uncorr).modPort p f).rd g = s.rd g :=
    fun g apart => (State.rd_congr _ _ g regs).trans (s.fecCounted_rd p corrected uncorr apart)
  constructor
  case lk => exact rd _ (linkField_besideFec p 8 0 3 0 (by decide) (by decide))
  case rxCount => rw [port, rxCount]
  case freed => rw [port, freed]
  case rxProg => rw [port, rxProg]
  case edgeWin => rw [port, edgeWin]
  case nbr => exact rd _ (linkField_besideFec p 0x10 32 12 0 (by decide) (by decide))
  case zlen => exact rd _ (by decide)
  case wlen => exact rd _ (by decide)
  case window => exact rd _ (by decide)

theorem exec_frameRx_stops {port : PortId} {s : State} (f : RxFrame) (off : (s.port port.val).framed = false ∨ s.lk port.val = 0 ∨ s.lk port.val = 5) :
    exec (.frameRx port f) s = .next s := by
  refine congrArg Host.Outcome.next (if_pos ?_)
  rcases off with h | h | h <;> simp [h]

theorem exec_frameRx_takes {port : PortId} {s : State} (f : RxFrame) (framed : (s.port port.val).framed = true) (on : s.lk port.val ≠ 0 ∧ s.lk port.val ≠ 5) :
    exec (.frameRx port f) s = .next ((s.fecCounted port.val f.corrected f.uncorr).takeFrame port.val (!f.bad && frameCrcOk f.bytes) (frameOf f.bytes)) := by
  refine congrArg Host.Outcome.next (if_neg ?_)
  simp [framed, on]

/-! ### Frame lock (R265) -/

section Locking
variable {s : State} {p : Nat} (training : s.lk p = 1) (framed : (s.port p).framed = true)
include training framed

theorem State.takeFrame_locks (f : Frame) (lanes : ∀ l ∈ lanes (s.rxMask p), (s.port p).mLock.getLsbD l) (good : 3 ≤ (s.port p).goodRun) :
    s.takeFrame p true f = (s.modPort p (fun t => { t with goodRun := 4, restarts := 0, expSeq := if f.empty then f.fseq else (f.fseq + 1) % 4096 })).setLk p 2 :=
  (if_pos ⟨training, framed⟩).trans ((if_pos ⟨rfl, List.all_eq_true.mpr lanes⟩).trans (if_pos good))

theorem State.takeFrame_locking (f : Frame) (lanes : ∀ l ∈ lanes (s.rxMask p), (s.port p).mLock.getLsbD l) (few : (s.port p).goodRun < 3) :
    s.takeFrame p true f = s.modPort p (fun t => { t with goodRun := t.goodRun + 1 }) :=
  (if_pos ⟨training, framed⟩).trans ((if_pos ⟨rfl, List.all_eq_true.mpr lanes⟩).trans (if_neg (by omega)))

theorem State.takeFrame_unlocks (f : Frame) :
    s.takeFrame p false f = (s.modPort p (fun t => { t with goodRun := 0 })).bump (Reg.LK_ERR_CRC_FAILS p) 1 :=
  (if_pos ⟨training, framed⟩).trans ((if_neg (fun h => absurd h.1 (by decide))).trans (if_neg (by decide)))

end Locking

/-! ### Frames that fail (R267, R269, R270) -/

section Running
variable {s : State} {p : Nat} (runs : s.linkRuns p = true)
include runs

theorem State.linkRuns_states : (s.port p).framed = true ∧ (s.lk p = 2 ∨ s.lk p = 3 ∨ s.lk p = 4 ∨ s.lk p = 6) := by
  simpa [State.linkRuns, or_assoc] using runs

theorem State.takeFrame_failed (f : Frame) :
    s.takeFrame p false f = if hasRetry p then ((s.bump (Reg.LK_ERR_CRC_FAILS p) 1).cleanFail p).modPort p (fun t => { t with nakOut := true })
      else ((s.bump (Reg.LK_ERR_CRC_FAILS p) 1).cleanFail p).discardFrame p := by
  obtain ⟨-, state⟩ := State.linkRuns_states runs
  exact (if_neg (fun h => by omega)).trans ((if_neg (by rw [runs]; decide)).trans (if_pos rfl))

/-- The credit reports of VC 31 say nothing. -/
theorem State.credits_plain (credits : List (Nat × Nat)) (plain : ∀ c ∈ credits, c.1 = 31) :
    credits.foldl (fun s c => if s.linkRuns p then s.onCredit p c.1 c.2 else s) s = s := by
  induction credits with
  | nil => rfl
  | cons c rest ih =>
    have one : s.onCredit p c.1 c.2 = s := if_pos (plain c (List.mem_cons_self ..))
    rw [List.foldl_cons, if_pos runs, one]
    exact ih fun x mem => plain x (List.mem_cons_of_mem _ mem)

/-- A frame that has passed, by its place in the order. -/
theorem State.takeFrame_passed (f : Frame)
    (plain : (hasRetry p = true → f.ack = (match (s.port p).replay with | (g, _) :: _ => g.fseq + 4095 | [] => (s.port p).nextSeq + 4095) % 4096 ∧ f.nak = false)
      ∧ ∀ c ∈ f.credits, c.1 = 31) :
    s.takeFrame p true f = if f.empty then (s.modPort p (fun t => if f.fseq = t.expSeq then { t with nakOut := false } else t)).onSlots p f
      else if !hasRetry p then s.onSlots p f
      else if (f.fseq + 4096 - (s.port p).expSeq) % 4096 = 0 then
        (s.modPort p (fun t => { t with expSeq := (t.expSeq + 1) % 4096, ackOut := f.fseq, nakOut := false })).onSlots p f
      else if (f.fseq + 4096 - (s.port p).expSeq) % 4096 ≥ 4032 then s
      else s.modPort p (fun t => { t with nakOut := true }) := by
  obtain ⟨trailer, reports⟩ := plain
  obtain ⟨-, state⟩ := State.linkRuns_states runs
  have acked : (if hasRetry p then (if f.nak then (s.onAck p f.ack).onNak p f.ack else s.onAck p f.ack) else s) = s := by
    cases retry : hasRetry p with
    | false => exact if_neg (by decide)
    | true =>
      obtain ⟨ack, nak⟩ := trailer retry
      have same : s.onAck p f.ack = s := if_pos ack
      rw [if_pos rfl, nak, if_neg (by decide), same]
  unfold State.takeFrame
  dsimp only
  rw [if_neg (fun h => by omega), if_neg (by rw [runs]; decide), if_neg (by decide), acked, State.credits_plain runs _ reports, if_neg (by rw [runs]; decide)]

end Running

/-- A failed frame has been counted, and the clean second starts again. -/
def State.crcFailed (s : State) (p : Nat) : State := (s.bump (Reg.LK_ERR_CRC_FAILS p) 1).cleanFail p

theorem State.crcFailed_rd (s : State) (p : Nat) {g : Fld} (apart : g.key ≠ (Reg.LK_ERR_CRC_FAILS p).key) : (s.crcFailed p).rd g = s.rd g :=
  (State.cleanFail_rd _ p g).trans (State.bump_rd_ne s 1 apart)

theorem State.crcFailed_fails (s : State) (p : Nat) :
    (s.crcFailed p).rd (Reg.LK_ERR_CRC_FAILS p) = min (s.rd (Reg.LK_ERR_CRC_FAILS p) + 1) (2 ^ (Reg.LK_ERR_CRC_FAILS p).w - 1) :=
  (State.cleanFail_rd _ p _).trans (s.rd_bump _ 1)

theorem State.crcFailed_eq (s : State) (p : Nat) : s.crcFailed p = { s with ports := (s.crcFailed p).ports, regs := (s.crcFailed p).regs } := by
  unfold State.crcFailed State.cleanFail
  split <;> rfl

/-- What the clean second's restart keeps of a port. -/
theorem State.cleanFail_port (s : State) {p : Nat} (known : p < 20) : ∃ c, (s.cleanFail p).port p = { s.port p with clean := c } := by
  unfold State.cleanFail
  split
  · exact ⟨some s.clock, State.port_modPort _ _ _ known⟩
  · exact ⟨(s.port p).clean, rfl⟩

theorem State.crcFailed_port (s : State) {p : Nat} (known : p < 20) : ∃ c, (s.crcFailed p).port p = { s.port p with clean := c } :=
  (s.bump (Reg.LK_ERR_CRC_FAILS p) 1).cleanFail_port known

theorem lkErr_beyondRecords {p : Nat} (known : p < 20) (lo w rst : Nat) (within : lo < 64) : (⟨Reg.LK_ERR p, lo, w, rst⟩ : Fld).BeyondRecords := by
  refine linkField_beyondRecords ?_ ?_ <;>
  · simp only [Fld.key, Reg.LK_ERR]
    omega

/-- What a discarded frame leaves. -/
theorem State.discardFrame_effect (s : State) {p : Nat} (known : p < 20)
    (few : ((s.port p).discards.filter (fun t => decide (s.clock < t + State.msTicks 1))).length < 16) :
    .syncReq ∈ ((s.discardFrame p).port p).linkq ∧ (s.discardFrame p).rd (Reg.LK_ERR_CRC_FAILS p) = s.rd (Reg.LK_ERR_CRC_FAILS p)
      ∧ (s.discardFrame p).lk p = s.lk p
      ∧ (s.discardFrame p).rd (Reg.LK_ERR_DISCARDS p) = min (s.rd (Reg.LK_ERR_DISCARDS p) + 1) (2 ^ (Reg.LK_ERR_DISCARDS p).w - 1) := by
  have gone := s.abandonAll_keepsLinks p
  generalize hr : (s.port p).discards.filter (fun t => decide (s.clock < t + State.msTicks 1)) = recent at few
  obtain ⟨d, hd⟩ : ∃ d, d = (((s.abandonAll p).modPort p (fun t => { t with discards := recent ++ [s.clock] })).bump (Reg.LK_ERR_DISCARDS p) 1).linkFlit p .syncReq :=
    ⟨_, rfl⟩
  have eq : s.discardFrame p = d.cleanFail p := by
    rw [hd, ← hr]
    refine if_neg ?_
    rw [hr, List.length_append, List.length_singleton]
    omega
  have rd : ∀ g : Fld, g.BeyondRecords → g.key ≠ (Reg.LK_ERR_DISCARDS p).key → d.rd g = s.rd g := by
    intro g beyond apart
    rw [hd]
    exact (State.bump_rd_ne ((s.abandonAll p).modPort p (fun t => { t with discards := recent ++ [s.clock] })) 1 apart).trans (gone.rd g ⟨beyond, by simp⟩)
  rw [eq]
  refine ⟨?_, ?_, ?_, ?_⟩
  · obtain ⟨c, port⟩ := d.cleanFail_port known
    rw [port]
    change LinkFlit.syncReq ∈ (d.port p).linkq
    rw [hd]
    generalize State.bump _ (Reg.LK_ERR_DISCARDS p) 1 = b
    have queued : ((b.linkFlit p .syncReq).port p).linkq = (b.port p).linkq ++ [.syncReq] :=
      congrArg Port.linkq (State.port_modPort b p (fun t => { t with linkq := t.linkq ++ [LinkFlit.syncReq] }) known)
    rw [queued]
    exact List.mem_append_right _ (List.mem_singleton_self _)
  · refine (State.cleanFail_rd _ p _).trans (rd _ (lkErr_beyondRecords known 0 32 0 (by decide)) ?_)
    simp only [Fld.key, Reg.LK_ERR_CRC_FAILS, Reg.LK_ERR_DISCARDS]
    omega
  · refine (State.cleanFail_rd _ p _).trans (rd (Reg.LK_STATE_STATE p) (lkState_beyondRecords known 0 3 0 (by decide)) ?_)
    simp only [Fld.key, Reg.LK_STATE_STATE, Reg.LK_STATE, Reg.LK_ERR, Reg.LK_ERR_DISCARDS]
    omega
  · refine (State.cleanFail_rd _ p _).trans ?_
    rw [hd]
    refine (State.rd_bump ((s.abandonAll p).modPort p (fun t => { t with discards := recent ++ [s.clock] })) _ 1).trans ?_
    have before := gone.rd (Reg.LK_ERR_DISCARDS p) ⟨lkErr_beyondRecords known 48 16 0 (by decide), by simp⟩
    exact congrArg (fun n => min (n + 1) (2 ^ (Reg.LK_ERR_DISCARDS p).w - 1)) before

/-! ### The flits of a frame that has passed (R268, R274) -/

theorem State.onFlit_null (s : State) (p : Nat) : s.onFlit p .null = s := by
  unfold State.onFlit
  split <;> rfl

theorem State.onFlits_null (s : State) (p : Nat) (slots : List Flit) (nulls : ∀ x ∈ slots, x = Flit.null) : slots.foldl (fun s x => s.onFlit p x) s = s := by
  induction slots with
  | nil => rfl
  | cons x rest ih =>
    rw [List.foldl_cons, nulls x (List.mem_cons_self ..), State.onFlit_null]
    exact ih fun y mem => nulls y (List.mem_cons_of_mem _ mem)

theorem State.onSlots_head (s : State) (p : Nat) {f : Frame} {k : Packet} (slots : f.slots = .head k :: List.replicate 31 .null) (runs : s.linkRuns p = true) :
    s.onSlots p f = s.rxHead p k := by
  have first : s.onFlit p (.head k) = s.rxHead p k := by
    unfold State.onFlit
    rw [if_neg (by rw [runs]; decide)]
  unfold State.onSlots
  rw [slots, List.foldl_cons, first]
  exact State.onFlits_null _ p _ fun x mem => List.eq_of_mem_replicate mem

/-- The packet as the router holds it from its header on. -/
def heldFrom (p buf : Nat) (k : Packet) : Held :=
  { pkt := if PT.isData k.typ.val then { k with payload := [] } else k, arrived := some p, buf := buf, due := if PT.isData k.typ.val then k.len else 0, started := false }

/-- A port in whose buffer a packet has started. -/
def Port.started (t : Port) (buf : Nat) (k : Packet) : Port :=
  let t := t.took (pktVc k)
  let pkt := if PT.isData k.typ.val then { k with payload := [] } else k
  { t with
    rxSel := if PT.isData k.typ.val then pktVc k else t.rxSel,
    rxProg := t.rxProg ++ [{ id := buf, vc := pktVc k, pkt := some pkt, total := if PT.isData k.typ.val then 1 + k.len else 1, got := 1, freed := 0 }] }

/-- A packet has started in a port's buffer. -/
def State.bufferStarted (s : State) (p buf : Nat) (k : Packet) : State := ({ s with nextBuf := buf + 1 } : State).modPort p (fun t => t.started buf k)

theorem State.bufferStarted_port (s : State) {p : Nat} (known : p < 20) (buf : Nat) (k : Packet) : (s.bufferStarted p buf k).port p = (s.port p).started buf k :=
  State.port_modPort { s with nextBuf := buf + 1 } p (fun t => t.started buf k) known

/-- A good header at a link in service is the router's. -/
theorem State.rxHead_good {s : State} {p : Nat} {k : Packet} (service : s.lk p = 4) (good : s.headBad p k = none) :
    s.rxHead p k = ((s.edgeCharge p k).bufferStarted p s.nextBuf k).holds (s.held ++ [heldFrom p s.nextBuf k]) := by
  have buf : (s.edgeCharge p k).nextBuf = s.nextBuf := by
    unfold State.edgeCharge
    split <;> rfl
  unfold State.rxHead
  dsimp only
  rw [good]
  dsimp only
  rw [if_neg (not_not.mpr service)]
  unfold State.startRx
  rw [buf]
  rfl

theorem State.edgeCharge_eq (s : State) (p : Nat) (k : Packet) : s.edgeCharge p k = { s with ports := (s.edgeCharge p k).ports } := by
  unfold State.edgeCharge
  split <;> rfl

theorem State.bufferStarted_only (e s : State) (p buf : Nat) (k : Packet) (held : List Held) (eq : e = { s with ports := e.ports }) :
    (e.bufferStarted p buf k).holds held = { s with ports := ((e.bufferStarted p buf k).holds held).ports, nextBuf := buf + 1, held := held } := by
  obtain ⟨ports, same⟩ : ∃ ports, ports = e.ports := ⟨_, rfl⟩
  rw [← same] at eq
  subst eq
  rfl

/-- What an edge's charge keeps of a port. -/
theorem State.edgeCharge_port (s : State) {p : Nat} (known : p < 20) (k : Packet) :
    ((s.edgeCharge p k).port p).rxCount = (s.port p).rxCount ∧ ((s.edgeCharge p k).port p).ackOut = (s.port p).ackOut
    ∧ ((s.edgeCharge p k).port p).expSeq = (s.port p).expSeq := by
  unfold State.edgeCharge
  split
  · rw [State.port_modPort _ _ _ known]
    exact ⟨rfl, rfl, rfl⟩
  · exact ⟨rfl, rfl, rfl⟩

theorem State.rxHead_effect {s : State} {p : Nat} (known : p < 20) {k : Packet} (service : s.lk p = 4) (good : s.headBad p k = none) :
    s.rxHead p k = { s with ports := (s.rxHead p k).ports, nextBuf := s.nextBuf + 1, held := s.held ++ [heldFrom p s.nextBuf k] }
    ∧ ((s.rxHead p k).port p).ackOut = (s.port p).ackOut ∧ ((s.rxHead p k).port p).expSeq = (s.port p).expSeq
    ∧ Tab.get ((s.rxHead p k).port p).rxCount 0 (pktVc k) = Tab.get (s.port p).rxCount 0 (pktVc k) + 1 := by
  have eq := s.edgeCharge_eq p k
  obtain ⟨rxCount, ackOut, expSeq⟩ := s.edgeCharge_port known k
  rw [State.rxHead_good service good]
  generalize s.edgeCharge p k = e at *
  have port : ∀ held, ((e.bufferStarted p s.nextBuf k).holds held).port p = (e.port p).started s.nextBuf k := fun _ => e.bufferStarted_port known _ k
  rw [port]
  refine ⟨?_, ackOut, expSeq, ?_⟩
  · exact e.bufferStarted_only s p s.nextBuf k _ eq
  · have counted : ((e.port p).started s.nextBuf k).rxCount = (e.port p).rxCount.put (pktVc k) (Tab.get (e.port p).rxCount 0 (pktVc k) + 1) := rfl
    rw [counted, Tab.get_put_same, rxCount]

/-- What an announced mask's taking effect leaves. -/
theorem exec_markerTx_masks {port : PortId} {s : State} (framed : (s.port port.val).framed = true) (on : s.lk port.val ≠ 0 ∧ s.lk port.val ≠ 5)
    {m : BitVec 16} (announced : (s.port port.val).newMask = some m) (second : (s.port port.val).markers = 1) :
    ∃ u : State, exec (.markerTx port) s = .next u ∧ u.txMask port.val = m ∧ (u.port port.val).marking
      = (((s.port port.val).mgen + 1) % 256, (s.port port.val).cwc + (if hasRetry port.val then 8192 else 4096),
        (s.port port.val).marks ++ (alignBlocks (s.txMask port.val ||| m) (((s.port port.val).mgen + 1) % 256) m
          ((s.port port.val).cwc + (if hasRetry port.val then 8192 else 4096)) ++ (s.port port.val).trainBlocks (s.calLanes port.val) 1)) :=
  ⟨_, exec_markerTx_applies framed on announced second, s.maskApplied_effect port.isLt m _ _⟩

/-! ### A frame arrives (R266-R270) -/

section Arrives
variable {port : PortId} {b : List Byte} {corrected uncorr : Nat} {bad : Bool} {s : State}

theorem exec_frameRx_runs (runs : s.linkRuns port.val = true) :
    exec (.frameRx port ⟨b, corrected, uncorr, bad⟩) s
      = .next ((s.fecCounted port.val corrected uncorr).takeFrame port.val (!bad && frameCrcOk b) (frameOf b)) := by
  obtain ⟨framed, state⟩ := State.linkRuns_states runs
  exact exec_frameRx_takes ⟨b, corrected, uncorr, bad⟩ framed ⟨by omega, by omega⟩

theorem exec_frameRx_nak (failed : (!bad && frameCrcOk b) = false) (retry : hasRetry port.val = true) (runs : s.linkRuns port.val = true) :
    ∃ u : State, exec (.frameRx port ⟨b, corrected, uncorr, bad⟩) s = .next u ∧ (u.port port.val).nakOut = true
      ∧ u.rd (Reg.LK_ERR_CRC_FAILS port.val) = min (s.rd (Reg.LK_ERR_CRC_FAILS port.val) + 1) (2 ^ (Reg.LK_ERR_CRC_FAILS port.val).w - 1)
      ∧ (u.port port.val).expSeq = (s.port port.val).expSeq ∧ u = { s.fecCounted port.val corrected uncorr with ports := u.ports, regs := u.regs } := by
  have fails := (s.fecCounted port.val corrected uncorr).crcFailed_fails port.val
  have eq := (s.fecCounted port.val corrected uncorr).crcFailed_eq port.val
  obtain ⟨c, was⟩ := (s.fecCounted port.val corrected uncorr).crcFailed_port port.isLt
  rw [s.fecCounted_fails] at fails
  have taken := State.takeFrame_failed ((s.fecCounted_linkRuns port.val corrected uncorr).trans runs) (frameOf b)
  rw [if_pos retry] at taken
  rw [s.fecCounted_port] at was
  rw [exec_frameRx_runs runs, failed, taken]
  change ∃ u : State, Host.Outcome.next (((s.fecCounted port.val corrected uncorr).crcFailed port.val).modPort port.val (fun t => { t with nakOut := true })) = .next u ∧ _
  generalize (s.fecCounted port.val corrected uncorr).crcFailed port.val = d at fails eq was
  have now := State.port_modPort d port.val (fun t => { t with nakOut := true }) port.isLt
  have seq : (d.port port.val).expSeq = (s.port port.val).expSeq := by rw [was]
  refine ⟨_, rfl, congrArg Port.nakOut now, (State.rd_congr _ _ _ (d.modPort_regs _ _)).trans fails, ?_, ?_⟩
  · rw [now]
    exact seq
  · have step := congrArg (fun x : State => ({ x with ports := (d.modPort port.val (fun t => { t with nakOut := true })).ports } : State)) eq
    exact step

theorem exec_frameRx_discards (failed : (!bad && frameCrcOk b) = false) (plain : hasRetry port.val = false) (runs : s.linkRuns port.val = true)
    (few : ((s.port port.val).discards.filter (fun t => decide (s.clock < t + State.msTicks 1))).length < 16) :
    ∃ u : State, exec (.frameRx port ⟨b, corrected, uncorr, bad⟩) s = .next u ∧ .syncReq ∈ (u.port port.val).linkq
      ∧ u.rd (Reg.LK_ERR_CRC_FAILS port.val) = min (s.rd (Reg.LK_ERR_CRC_FAILS port.val) + 1) (2 ^ (Reg.LK_ERR_CRC_FAILS port.val).w - 1)
      ∧ u.lk port.val = s.lk port.val
      ∧ u.rd (Reg.LK_ERR_DISCARDS port.val) = min (s.rd (Reg.LK_ERR_DISCARDS port.val) + 1) (2 ^ (Reg.LK_ERR_DISCARDS port.val).w - 1) := by
  have fails := (s.fecCounted port.val corrected uncorr).crcFailed_fails port.val
  have discards : ((s.fecCounted port.val corrected uncorr).crcFailed port.val).rd (Reg.LK_ERR_DISCARDS port.val) = s.rd (Reg.LK_ERR_DISCARDS port.val) := by
    refine (State.crcFailed_rd _ _ ?_).trans (s.fecCounted_discards _ _ _)
    simp only [Fld.key, Reg.LK_ERR_CRC_FAILS, Reg.LK_ERR_DISCARDS]
    omega
  have state : ((s.fecCounted port.val corrected uncorr).crcFailed port.val).lk port.val = s.lk port.val := by
    refine (State.crcFailed_rd _ _ (g := Reg.LK_STATE_STATE port.val) ?_).trans (s.fecCounted_lk _ _ _)
    simp only [Fld.key, Reg.LK_ERR_CRC_FAILS, Reg.LK_STATE_STATE, Reg.LK_STATE, Reg.LK_ERR]
    omega
  have eq := (s.fecCounted port.val corrected uncorr).crcFailed_eq port.val
  have now : ((s.fecCounted port.val corrected uncorr).crcFailed port.val).clock = s.clock := by
    rw [eq]
    rfl
  obtain ⟨c, was⟩ := (s.fecCounted port.val corrected uncorr).crcFailed_port port.isLt
  rw [s.fecCounted_fails] at fails
  have taken := State.takeFrame_failed ((s.fecCounted_linkRuns port.val corrected uncorr).trans runs) (frameOf b)
  rw [if_neg (by rw [plain]; decide)] at taken
  rw [s.fecCounted_port] at was
  rw [exec_frameRx_runs runs, failed, taken]
  change ∃ u : State, Host.Outcome.next (((s.fecCounted port.val corrected uncorr).crcFailed port.val).discardFrame port.val) = .next u ∧ _
  generalize (s.fecCounted port.val corrected uncorr).crcFailed port.val = d at fails now was discards state
  obtain ⟨asked, kept, held, counted⟩ := d.discardFrame_effect port.isLt (by rw [was, now]; exact few)
  exact ⟨_, rfl, asked, kept.trans fails, held.trans state, by rw [counted, discards]⟩

theorem exec_frameRx_trains (training : s.lk port.val = 1) (framed : (s.port port.val).framed = true) :
    ((!bad && frameCrcOk b) = true → (∀ l ∈ lanes (s.rxMask port.val), (s.port port.val).mLock.getLsbD l) →
      (3 ≤ (s.port port.val).goodRun → ∃ u : State, exec (.frameRx port ⟨b, corrected, uncorr, bad⟩) s = .next u ∧ u.lk port.val = 2
        ∧ u = { s.fecCounted port.val corrected uncorr with ports := u.ports, regs := u.regs })
      ∧ ((s.port port.val).goodRun < 3 → exec (.frameRx port ⟨b, corrected, uncorr, bad⟩) s
        = .next ((s.fecCounted port.val corrected uncorr).modPort port.val (fun t => { t with goodRun := t.goodRun + 1 }))))
    ∧ ((!bad && frameCrcOk b) = false → ∃ u : State, exec (.frameRx port ⟨b, corrected, uncorr, bad⟩) s = .next u ∧ (u.port port.val).goodRun = 0
      ∧ u.lk port.val = 1
      ∧ u.rd (Reg.LK_ERR_CRC_FAILS port.val) = min (s.rd (Reg.LK_ERR_CRC_FAILS port.val) + 1) (2 ^ (Reg.LK_ERR_CRC_FAILS port.val).w - 1)) := by
  have taken := exec_frameRx_takes (s := s) ⟨b, corrected, uncorr, bad⟩ framed ⟨by omega, by omega⟩
  dsimp only at taken
  have training' : (s.fecCounted port.val corrected uncorr).lk port.val = 1 := (s.fecCounted_lk _ _ _).trans training
  have framed' : ((s.fecCounted port.val corrected uncorr).port port.val).framed = true := framed
  rw [taken]
  refine ⟨fun passed locked => ?_, fun failed => ?_⟩
  · have locked' : ∀ l ∈ lanes ((s.fecCounted port.val corrected uncorr).rxMask port.val), ((s.fecCounted port.val corrected uncorr).port port.val).mLock.getLsbD l := by
      rw [s.fecCounted_rxMask]
      exact locked
    rw [passed]
    refine ⟨fun good => ?_, fun few => ?_⟩
    · rw [State.takeFrame_locks training' framed' _ locked' good]
      refine ⟨_, rfl, (State.rd_wr _ (Reg.LK_STATE_STATE port.val) 2).trans ?_, rfl⟩
      rfl
    · rw [State.takeFrame_locking training' framed' _ locked' few]
  · have fails := s.fecCounted_fails port.val corrected uncorr
    rw [failed, State.takeFrame_unlocks training' framed']
    generalize s.fecCounted port.val corrected uncorr = d at training' fails
    have now := State.port_modPort d port.val (fun t => { t with goodRun := 0 }) port.isLt
    have regs := d.modPort_regs port.val (fun t => { t with goodRun := 0 })
    refine ⟨_, rfl, (congrArg Port.goodRun now : _), ?_, ?_⟩
    · refine (State.bump_rd_ne _ (g := Reg.LK_STATE_STATE port.val) 1 ?_).trans ((State.rd_congr _ _ _ regs).trans training')
      simp only [Fld.key, Reg.LK_ERR_CRC_FAILS, Reg.LK_STATE_STATE, Reg.LK_STATE, Reg.LK_ERR]
      omega
    · rw [State.rd_bump, State.rd_congr _ _ _ regs, fails]

/-- A header arrives in a frame that is accepted, whatever the frame changes of its port's order. -/
theorem State.header_accepted {p : Nat} (known : p < 20) {f : Port → Port} (corrected uncorr : Nat)
    (same : ∀ t : Port, (f t).rxCount = t.rxCount ∧ (f t).freed = t.freed ∧ (f t).rxProg = t.rxProg ∧ (f t).edgeWin = t.edgeWin ∧ (f t).framed = t.framed)
    {g : Frame} {k : Packet} (slots : g.slots = .head k :: List.replicate 31 .null) (service : s.lk p = 4) (good : s.headBad p k = none) (runs : s.linkRuns p = true) :
    (((s.fecCounted p corrected uncorr).modPort p f).onSlots p g) = { s.fecCounted p corrected uncorr with
        ports := (((s.fecCounted p corrected uncorr).modPort p f).onSlots p g).ports, nextBuf := s.nextBuf + 1, held := s.held ++ [heldFrom p s.nextBuf k] }
    ∧ ((((s.fecCounted p corrected uncorr).modPort p f).onSlots p g).port p).ackOut = (f (s.port p)).ackOut
    ∧ ((((s.fecCounted p corrected uncorr).modPort p f).onSlots p g).port p).expSeq = (f (s.port p)).expSeq
    ∧ Tab.get ((((s.fecCounted p corrected uncorr).modPort p f).onSlots p g).port p).rxCount 0 (pktVc k) = Tab.get (s.port p).rxCount 0 (pktVc k) + 1 := by
  have judged := s.fecCounted_judges known corrected uncorr (f := f) fun t => ⟨(same t).1, (same t).2.1, (same t).2.2.1, (same t).2.2.2.1⟩
  have port := State.port_modPort (s.fecCounted p corrected uncorr) p f known
  rw [s.fecCounted_port] at port
  obtain ⟨framed, -⟩ := State.linkRuns_states runs
  have runs' : ((s.fecCounted p corrected uncorr).modPort p f).linkRuns p = true := by
    unfold State.linkRuns
    rw [judged.lk, port, (same _).2.2.2.2, service, framed]
    rfl
  rw [State.onSlots_head _ p slots runs']
  obtain ⟨only, ackOut, expSeq, rxCount⟩ := State.rxHead_effect known (judged.lk.trans service) ((judged.headBad k).trans good)
  rw [port] at ackOut expSeq rxCount
  rw [(same _).1] at rxCount
  exact ⟨only, ackOut, expSeq, rxCount⟩

theorem State.modPort_id (s : State) (p : Nat) : s.modPort p (fun t => t) = s := by
  have entries : s.ports.setIfInBounds p (s.port p) = s.ports := by
    ext i hi : 1
    rw [Vector.getElem_setIfInBounds]
    split
    case isTrue same =>
      subst same
      simp [State.port, Vector.getD, hi]
    case isFalse => rfl
  exact congrArg (fun v => { s with ports := v }) entries

theorem exec_frameRx_header {f : Frame} {k : Packet} (next : hasRetry port.val = true → (f.fseq + 4096 - (s.port port.val).expSeq) % 4096 = 0)
    (slots : f.slots = .head k :: List.replicate 31 .null) (service : s.lk port.val = 4) (good : s.headBad port.val k = none) (runs : s.linkRuns port.val = true) :
    ∃ u : State, (if (!hasRetry port.val) = true then (s.fecCounted port.val corrected uncorr).onSlots port.val f
        else if (f.fseq + 4096 - (s.port port.val).expSeq) % 4096 = 0 then
          ((s.fecCounted port.val corrected uncorr).modPort port.val (fun t => { t with expSeq := (t.expSeq + 1) % 4096, ackOut := f.fseq, nakOut := false })).onSlots port.val f
        else if (f.fseq + 4096 - (s.port port.val).expSeq) % 4096 ≥ 4032 then s.fecCounted port.val corrected uncorr
        else (s.fecCounted port.val corrected uncorr).modPort port.val (fun t => { t with nakOut := true })) = u
      ∧ u = { s.fecCounted port.val corrected uncorr with
          ports := u.ports, nextBuf := s.nextBuf + 1, held := s.held ++ [heldFrom port.val s.nextBuf k] }
      ∧ (hasRetry port.val = true → (u.port port.val).ackOut = f.fseq ∧ (u.port port.val).expSeq = ((s.port port.val).expSeq + 1) % 4096)
      ∧ Tab.get (u.port port.val).rxCount 0 (pktVc k) = Tab.get (s.port port.val).rxCount 0 (pktVc k) + 1 := by
  cases retry : hasRetry port.val with
  | false =>
    obtain ⟨only, ackOut, expSeq, rxCount⟩ := State.header_accepted (s := s) port.isLt (f := fun t => t) corrected uncorr (fun _ => ⟨rfl, rfl, rfl, rfl, rfl⟩) slots service good runs
    have still : (s.fecCounted port.val corrected uncorr).modPort port.val (fun t => t) = s.fecCounted port.val corrected uncorr := State.modPort_id _ _
    rw [still] at only rxCount
    exact ⟨_, if_pos rfl, only, fun h => absurd h (by decide), rxCount⟩
  | true =>
    obtain ⟨only, ackOut, expSeq, rxCount⟩ := State.header_accepted (s := s) port.isLt
      (f := fun t => { t with expSeq := (t.expSeq + 1) % 4096, ackOut := f.fseq, nakOut := false }) corrected uncorr (fun _ => ⟨rfl, rfl, rfl, rfl, rfl⟩) slots service good runs
    exact ⟨_, (if_neg (by decide)).trans (if_pos (next retry)), only, fun _ => ⟨ackOut, expSeq⟩, rxCount⟩

theorem exec_frameRx_accepts (passed : (!bad && frameCrcOk b) = true) (runs : s.linkRuns port.val = true)
    (plain : (hasRetry port.val = true → (frameOf b).ack = (match (s.port port.val).replay with | (g, _) :: _ => g.fseq + 4095 | [] => (s.port port.val).nextSeq + 4095) % 4096
      ∧ (frameOf b).nak = false) ∧ ∀ c ∈ (frameOf b).credits, c.1 = 31) :
    ((frameOf b).empty = false → hasRetry port.val = true → ((frameOf b).fseq + 4096 - (s.port port.val).expSeq) % 4096 = 0 → (∀ x ∈ (frameOf b).slots, x = Flit.null) →
      exec (.frameRx port ⟨b, corrected, uncorr, bad⟩) s = .next ((s.fecCounted port.val corrected uncorr).modPort port.val
        (fun t => { t with expSeq := (t.expSeq + 1) % 4096, ackOut := (frameOf b).fseq, nakOut := false })))
    ∧ (∀ k, (frameOf b).empty = false → (hasRetry port.val = true → ((frameOf b).fseq + 4096 - (s.port port.val).expSeq) % 4096 = 0) →
      (frameOf b).slots = .head k :: List.replicate 31 .null → s.lk port.val = 4 → s.headBad port.val k = none →
      ∃ u : State, exec (.frameRx port ⟨b, corrected, uncorr, bad⟩) s = .next u
        ∧ u = { s.fecCounted port.val corrected uncorr with
            ports := u.ports, nextBuf := s.nextBuf + 1, held := s.held ++ [heldFrom port.val s.nextBuf k] }
        ∧ (hasRetry port.val = true → (u.port port.val).ackOut = (frameOf b).fseq ∧ (u.port port.val).expSeq = ((s.port port.val).expSeq + 1) % 4096)
        ∧ Tab.get (u.port port.val).rxCount 0 (pktVc k) = Tab.get (s.port port.val).rxCount 0 (pktVc k) + 1)
    ∧ ((frameOf b).empty = true → (∀ x ∈ (frameOf b).slots, x = Flit.null) → exec (.frameRx port ⟨b, corrected, uncorr, bad⟩) s
      = .next ((s.fecCounted port.val corrected uncorr).modPort port.val (fun t => if (frameOf b).fseq = t.expSeq then { t with nakOut := false } else t)))
    ∧ ((frameOf b).empty = false → hasRetry port.val = true → 0 < ((frameOf b).fseq + 4096 - (s.port port.val).expSeq) % 4096 →
      ((frameOf b).fseq + 4096 - (s.port port.val).expSeq) % 4096 < 4032 → exec (.frameRx port ⟨b, corrected, uncorr, bad⟩) s
        = .next ((s.fecCounted port.val corrected uncorr).modPort port.val (fun t => { t with nakOut := true })))
    ∧ ((frameOf b).empty = false → hasRetry port.val = true → 4032 ≤ ((frameOf b).fseq + 4096 - (s.port port.val).expSeq) % 4096 →
      exec (.frameRx port ⟨b, corrected, uncorr, bad⟩) s = .next (s.fecCounted port.val corrected uncorr)) := by
  have taken := State.takeFrame_passed ((s.fecCounted_linkRuns port.val corrected uncorr).trans runs) (frameOf b) plain
  rw [s.fecCounted_port] at taken
  rw [exec_frameRx_runs runs, passed, taken]
  refine ⟨fun full retry next nulls => ?_, fun k full next slots service good => ?_, fun empty nulls => ?_, fun full retry ahead near => ?_, fun full retry old => ?_⟩
  · rw [if_neg (by rw [full]; decide), if_neg (by rw [retry]; decide), if_pos next]
    exact congrArg Host.Outcome.next (State.onFlits_null _ _ _ nulls)
  · rw [if_neg (by rw [full]; decide)]
    obtain ⟨u, result, effect⟩ := exec_frameRx_header (corrected := corrected) (uncorr := uncorr) next slots service good runs
    exact ⟨u, congrArg Host.Outcome.next result, effect⟩
  · rw [if_pos empty]
    exact congrArg Host.Outcome.next (State.onFlits_null _ _ _ nulls)
  · rw [if_neg (by rw [full]; decide), if_neg (by rw [retry]; decide), if_neg (by omega), if_neg (by omega)]
  · rw [if_neg (by rw [full]; decide), if_neg (by rw [retry]; decide), if_neg (by omega), if_pos old]

end Arrives

/-! ### Settling the obligation -/

/-- Settles O44: a frame that leaves keeps all but its port while it is filled (`State.KeepsSent`), a change of mask keeps what the
markers are made from (`State.KeepsMarks`), a lane lost stays lost through the link's going down, and a received frame is judged on
the state after its codewords have been counted. -/
theorem framesLeaveAndAreAccepted : Obligations.FramesLeaveAndAreAccepted := by
  unfold Obligations.FramesLeaveAndAreAccepted
  refine ⟨fun port s => ?_, fun port b corrected uncorr bad s => ?_⟩
  · dsimp only
    refine ⟨fun framed up held => ⟨fun fresh => ?_, fun f rest asked few => ?_, fun quiet => ?_, fun m announced second => ?_, fun x => ⟨fun good enough => ?_, fun wrong enough count => ?_, fun wrong count masked => ?_⟩⟩,
      fun unframed up held => ?_, fun unframed none_ => ?_, fun c cause unframed down soon => ?_⟩
    · obtain ⟨u, f, runs, left⟩ := exec_frameTx_new framed ⟨up, held⟩ fresh
      exact ⟨u, f, runs, left.wire, left.slots, left.fseq, left.credits, left.free, left.unstored, left.stored, left.hm, left.cores, left.held⟩
    · exact exec_frameTx_again framed ⟨up, held⟩ asked few
    · exact exec_markerTx_plain framed ⟨up, held⟩ quiet
    · obtain ⟨u, runs, mask, marking⟩ := exec_markerTx_masks framed ⟨up, held⟩ announced second
      simp only [Port.marking, Prod.mk.injEq] at marking
      exact ⟨u, runs, mask, marking⟩
    · exact exec_markerRx_good framed ⟨up, held⟩ good enough
    · exact exec_markerRx_first framed ⟨up, held⟩ rfl wrong count enough
    · exact exec_markerRx_second framed ⟨up, held⟩ rfl wrong count masked
    · exact exec_markerTx_trains unframed ⟨up, held⟩
    · exact exec_frameTx_idle unframed none_
    · exact exec_frameTx_down unframed down soon
  · dsimp only
    refine ⟨fun runs => ⟨fun failed retry => ?_, fun failed plainLink few => ?_, fun passed plain => ?_⟩, fun training framed => ?_, fun off => ?_⟩
    · exact exec_frameRx_nak failed retry runs
    · exact exec_frameRx_discards failed plainLink runs few
    · exact exec_frameRx_accepts passed runs plain
    · exact exec_frameRx_trains training framed
    · exact exec_frameRx_stops _ off

end Sys2Proof.Machine
end


section
/-! Replies close their transactions and complete their instructions (R95, R277, R279, R311). -/

namespace Sys2Proof.Machine

/-! ### What closing a transaction changes (R282, R418) -/

/-- The state `t` after transactions have closed and requests have left. -/
def State.withPumped (s t : State) : State := { s with held := t.held, txns := t.txns, winUse := t.winUse, c0Held := t.c0Held, regs := t.regs }

structure State.OnlyPumped (s t : State) : Prop where
  eq : t = s.withPumped t
  rd : ∀ g : Fld, g.BeyondEnds → t.rd g = s.rd g

theorem State.OnlyPumped.refl (s : State) : s.OnlyPumped s := ⟨rfl, fun _ _ => rfl⟩

theorem State.OnlyPumped.trans {s t u : State} (a : s.OnlyPumped t) (b : t.OnlyPumped u) : s.OnlyPumped u := by
  have step := congrArg (fun x => State.withPumped x u) a.eq
  exact ⟨b.eq.trans step, fun g h => (b.rd g h).trans (a.rd g h)⟩

theorem State.withPumped_cores (s t : State) : (s.withPumped t).cores = s.cores := rfl
theorem State.withPumped_clock (s t : State) : (s.withPumped t).clock = s.clock := rfl
theorem State.withPumped_hubIn (s t : State) : (s.withPumped t).hubIn = s.hubIn := rfl
theorem State.withPumped_padDue (s t : State) : (s.withPumped t).padDue = s.padDue := rfl
theorem State.OnlyPumped.cores {s t : State} (h : s.OnlyPumped t) : t.cores = s.cores := by rw [h.eq, State.withPumped_cores]
theorem State.OnlyPumped.clock {s t : State} (h : s.OnlyPumped t) : t.clock = s.clock := by rw [h.eq, State.withPumped_clock]
theorem State.OnlyPumped.padDue {s t : State} (h : s.OnlyPumped t) : t.padDue = s.padDue := by rw [h.eq, State.withPumped_padDue]

theorem State.onlyPumped_lit (s : State) (held : List Held) (txns : List Txn) (winUse : Tab Nat) (c0Held : List (Nat × Nat × Packet)) :
    s.OnlyPumped { s with held := held, txns := txns, winUse := winUse, c0Held := c0Held } := ⟨rfl, fun _ _ => rfl⟩

theorem State.wr_onlyPumped (s : State) {f : Fld} (v : Nat) (apart : ∀ g : Fld, g.BeyondEnds → g.key ≠ f.key) : s.OnlyPumped (s.wr f v) :=
  ⟨rfl, fun g b => s.rd_wr_ne f g v (apart g b)⟩

theorem State.sendC0_onlyPumped (s : State) (c : Nat) (p : Packet) : s.OnlyPumped (s.sendC0 c p).1 := by
  refine iteInduction (motive := fun r : State × Bool => s.OnlyPumped r.1) (fun _ => ?_) (fun _ => ?_)
  · exact (s.wr_onlyPumped _ fun g b => b.tokens).trans (State.onlyPumped_lit _ _ _ _ _)
  · refine State.OnlyPumped.trans (t := { s with c0Held := s.c0Held ++ [(c, tokenCost p, p)] }) (s.onlyPumped_lit _ _ _ _) ?_
    exact State.wr_onlyPumped _ _ fun g b => b.waits

/-- One held request leaves where its window opens. -/
def State.pumpOne (s : State) (x : Txn) : State :=
  if !x.paid && s.windowOpen x.pkt then
    let s := s.winCharge x.pkt.dst x.charge
    let r := if x.pkt.cls.val = 0 then s.sendC0 x.core x.pkt else (s.inject x.pkt, true)
    { r.1 with txns := r.1.txns.map (fun y => if y.tag == x.tag then { y with held := !r.2, paid := true, first := s.clock, last := s.clock, heard := s.clock } else y) }
  else s

theorem State.pumpWindow_eq (s : State) : s.pumpWindow = s.txns.foldl (fun s x => s.pumpOne x) s := rfl

theorem State.pumpOne_onlyPumped (s : State) (x : Txn) : s.OnlyPumped (s.pumpOne x) := by
  refine iteInduction (motive := s.OnlyPumped) (fun _ => ?_) (fun _ => .refl s)
  have charged : s.OnlyPumped (s.winCharge x.pkt.dst x.charge) := s.onlyPumped_lit _ _ _ _
  refine charged.trans ?_
  dsimp only
  generalize s.winCharge x.pkt.dst x.charge = t
  have sent : t.OnlyPumped (if x.pkt.cls.val = 0 then t.sendC0 x.core x.pkt else (t.inject x.pkt, true)).1 :=
    iteInduction (motive := fun r : State × Bool => t.OnlyPumped r.1) (fun _ => t.sendC0_onlyPumped _ _) (fun _ => t.onlyPumped_lit _ _ _ _)
  exact sent.trans (State.onlyPumped_lit _ _ _ _ _)

theorem State.pumpWindow_onlyPumped (s : State) : s.OnlyPumped s.pumpWindow :=
  foldl_keeps s.OnlyPumped _ (fun t x h => h.trans (t.pumpOne_onlyPumped x)) _ s (.refl s)

/-- The bytes of a paid request are released. -/
def State.released (s : State) (tag win : Nat) : State :=
  match s.txns.find? (fun (x : Txn) => x.tag == tag && !x.spent && x.paid) with
  | some x => s.winRelease x.pkt.dst win
  | none => s

/-- The entries of a table that a closed TAG leaves. -/
def closedTxns (tag : Nat) (l : List Txn) : List Txn :=
  (l.filter (fun (x : Txn) => x.tag != tag || x.resent)).map (fun (x : Txn) => if x.tag == tag then { x with spent := true } else x)

theorem State.closeTxnWin_eq (s : State) (tag win : Nat) :
    s.closeTxnWin tag win = ({ s.released tag win with txns := closedTxns tag (s.released tag win).txns }.purgeTxns).pumpWindow := rfl

theorem State.released_onlyPumped (s : State) (tag win : Nat) : s.OnlyPumped (s.released tag win) := by
  unfold State.released
  split
  · exact s.onlyPumped_lit _ _ _ _
  · exact .refl s

theorem State.closeTxnWin_onlyPumped (s : State) (tag win : Nat) : s.OnlyPumped (s.closeTxnWin tag win) := by
  rw [State.closeTxnWin_eq]
  refine (s.released_onlyPumped tag win).trans ?_
  generalize s.released tag win = t
  exact (t.onlyPumped_lit t.held _ t.winUse t.c0Held).trans ((State.onlyPumped_lit _ _ _ _ _).trans (State.pumpWindow_onlyPumped _))

theorem State.closeTxn_onlyPumped (s : State) (tag : Nat) : s.OnlyPumped (s.closeTxn tag) := s.closeTxnWin_onlyPumped tag _

/-! ### Closing a transaction does not look at the cores -/

/-- Two states whose transactions close alike. -/
structure State.ClosesAlike (s t : State) : Prop where
  txns   : t.txns = s.txns
  winUse : t.winUse = s.winUse
  c0Held : t.c0Held = s.c0Held
  regs   : t.regs = s.regs
  clock  : t.clock = s.clock

theorem State.ClosesAlike.windowOpen {s t : State} (h : s.ClosesAlike t) (p : Packet) : t.windowOpen p = s.windowOpen p := by
  unfold State.windowOpen State.charged
  rw [h.txns, h.winUse, s.rd_congr t _ h.regs]

theorem State.ClosesAlike.sendC0 {s t : State} (h : s.ClosesAlike t) (c : Nat) (p : Packet) :
    (s.sendC0 c p).1.ClosesAlike (t.sendC0 c p).1 ∧ (t.sendC0 c p).2 = (s.sendC0 c p).2 := by
  have tokens := s.rd_congr t Reg.SCHED_C0_STAT_TOKENS h.regs
  have total := s.rd_congr t Reg.SCHED_C0_STAT_HELD_TOTAL h.regs
  have wr : ∀ f v, (t.wr f v).regs = (s.wr f v).regs := by
    intro f v
    unfold State.wr
    rw [h.regs]
  unfold State.sendC0
  dsimp only
  rw [tokens, h.c0Held]
  split
  · exact ⟨⟨h.txns, h.winUse, h.c0Held, wr _ _, h.clock⟩, rfl⟩
  · refine ⟨⟨h.txns, h.winUse, rfl, ?_, h.clock⟩, rfl⟩
    have counted : ∀ held, ({ t with c0Held := held }.bump Reg.SCHED_C0_STAT_HELD_TOTAL 1).regs = (t.wr Reg.SCHED_C0_STAT_HELD_TOTAL
      (min (t.rd Reg.SCHED_C0_STAT_HELD_TOTAL + 1) (2 ^ Reg.SCHED_C0_STAT_HELD_TOTAL.w - 1))).regs := fun _ => rfl
    have counted' : ∀ held, ({ s with c0Held := held }.bump Reg.SCHED_C0_STAT_HELD_TOTAL 1).regs = (s.wr Reg.SCHED_C0_STAT_HELD_TOTAL
      (min (s.rd Reg.SCHED_C0_STAT_HELD_TOTAL + 1) (2 ^ Reg.SCHED_C0_STAT_HELD_TOTAL.w - 1))).regs := fun _ => rfl
    rw [counted, counted', total]
    exact wr _ _

/-- What one held request becomes once it has been sent. -/
def pumpSent (x : Txn) (now : Nat) (r : State × Bool) : State :=
  { r.1 with txns := r.1.txns.map (fun y => if y.tag == x.tag then { y with held := !r.2, paid := true, first := now, last := now, heard := now } else y) }

theorem State.pumpOne_eq (s : State) (x : Txn) : s.pumpOne x = if !x.paid && s.windowOpen x.pkt then
    pumpSent x s.clock (if x.pkt.cls.val = 0 then (s.winCharge x.pkt.dst x.charge).sendC0 x.core x.pkt else ((s.winCharge x.pkt.dst x.charge).inject x.pkt, true))
    else s := rfl

theorem State.ClosesAlike.pumpOne {s t : State} (h : s.ClosesAlike t) (x : Txn) : (s.pumpOne x).ClosesAlike (t.pumpOne x) := by
  rw [State.pumpOne_eq, State.pumpOne_eq, h.windowOpen, h.clock]
  split
  · have charged : (s.winCharge x.pkt.dst x.charge).ClosesAlike (t.winCharge x.pkt.dst x.charge) := by
      refine ⟨h.txns, ?_, h.c0Held, h.regs, h.clock⟩
      unfold State.winCharge State.charged
      dsimp only
      rw [h.winUse]
    generalize s.winCharge x.pkt.dst x.charge = s' at charged
    generalize t.winCharge x.pkt.dst x.charge = t' at charged
    have sent : ∀ (a b : State × Bool), a.1.ClosesAlike b.1 → b.2 = a.2 → (pumpSent x s.clock a).ClosesAlike (pumpSent x s.clock b) := by
      intro a b like same
      refine ⟨?_, like.winUse, like.c0Held, like.regs, like.clock⟩
      unfold pumpSent
      dsimp only
      rw [like.txns, same]
    refine sent _ _ ?_ ?_
    · split
      · exact (charged.sendC0 _ _).1
      · exact ⟨charged.txns, charged.winUse, charged.c0Held, charged.regs, charged.clock⟩
    · split
      · exact (charged.sendC0 _ _).2
      · rfl
  · exact h

theorem State.ClosesAlike.closeTxnWin {s t : State} (h : s.ClosesAlike t) (tag win : Nat) : (s.closeTxnWin tag win).ClosesAlike (t.closeTxnWin tag win) := by
  have released : (s.released tag win).ClosesAlike (t.released tag win) := by
    unfold State.released
    rw [h.txns]
    split
    · refine ⟨h.txns, ?_, h.c0Held, h.regs, h.clock⟩
      unfold State.winRelease State.charged
      dsimp only
      rw [h.winUse]
    · exact h
  rw [State.closeTxnWin_eq, State.closeTxnWin_eq]
  generalize s.released tag win = s' at released
  generalize t.released tag win = t' at released
  obtain ⟨txns, winUse, c0Held, regs, clock⟩ := released
  have purged : ({ s' with txns := closedTxns tag s'.txns } : State).purgeTxns.ClosesAlike ({ t' with txns := closedTxns tag t'.txns } : State).purgeTxns := by
    refine ⟨?_, winUse, c0Held, regs, clock⟩
    unfold State.purgeTxns
    dsimp only
    rw [txns, clock]
  generalize ({ s' with txns := closedTxns tag s'.txns } : State).purgeTxns = a at purged
  generalize ({ t' with txns := closedTxns tag t'.txns } : State).purgeTxns = b at purged
  rw [State.pumpWindow_eq, State.pumpWindow_eq, purged.txns]
  generalize a.txns = l
  induction l generalizing a b with
  | nil => exact purged
  | cons x l ih => exact ih _ _ (purged.pumpOne x)

theorem State.ClosesAlike.closeTxn {s t : State} (h : s.ClosesAlike t) (tag : Nat) : (s.closeTxn tag).ClosesAlike (t.closeTxn tag) := by
  unfold State.closeTxn
  rw [h.txns]
  exact h.closeTxnWin tag _

theorem State.ClosesAlike.lateCopy {s t : State} (h : s.ClosesAlike t) (c id : Nat) : t.lateCopy c id = s.lateCopy c id := by
  unfold State.lateCopy
  rw [h.txns, h.clock]

/-! ### One part of an instruction is answered -/

/-- An instruction lies in the window of a core that there is. -/
theorem State.entry_core {s : State} {c id : Nat} {e : Entry} (found : (s.core c).entry? id = some e) : c < 48 := by
  by_contra out
  have none_ : s.core c = Core.reset := by
    simp [State.core, Vector.getD, out]
  rw [none_] at found
  cases found

theorem State.modEntry_found (t : State) {c id : Nat} {e : Entry} {g : Entry → Entry} (keeps : ∀ y, (g y).id = y.id) (found : (t.core c).entry? id = some e) :
    ((t.modEntry c id g).core c).entry? id = some (g e) := by
  have core := State.entry_core found
  have mapped := t.modEntry_entry ⟨c, core⟩ id keeps
  rw [mapped, found, Option.map_some]

theorem State.modEntry_sp (t : State) (c id d : Nat) (g : Entry → Entry) : ((t.modEntry c id g).core d).sp = (t.core d).sp := by
  unfold State.modEntry
  by_cases known : c < 48
  · by_cases here : d = c
    · subst here
      rw [State.core_modCore _ _ _ known]
      rfl
    · rw [State.core_modCore_ne _ _ _ _ here]
  · rw [State.core_modCore_out _ _ known]

theorem State.modEntry_core_ne (t : State) (c id d : Nat) (g : Entry → Entry) (apart : d ≠ c) : (t.modEntry c id g).core d = t.core d :=
  State.core_modCore_ne _ _ _ _ apart

/-- An entry of which one part has been answered. -/
def Entry.takesPart (e : Entry) (late : Bool) (status : Nat) : Entry :=
  match (e.partDone status).phase with
  | .done _ => if late then { e.partDone status with phase := .waiting, late := true } else e.partDone status
  | _ => e.partDone status

theorem State.answered_eq (s : State) (c id status : Nat) : s.answered c id status = s.modEntry c id (fun e => e.takesPart (s.lateCopy c id) status) := rfl

theorem Entry.partDone_id (e : Entry) (status : Nat) : (e.partDone status).id = e.id := by
  unfold Entry.partDone
  dsimp only
  split <;> rfl

theorem Entry.takesPart_id (e : Entry) (late : Bool) (status : Nat) : (e.takesPart late status).id = e.id := by
  unfold Entry.takesPart
  split
  · split <;> exact e.partDone_id status
  · exact e.partDone_id status

/-- The last part of an instruction without another status completes it. -/
theorem Entry.takesPart_last {e : Entry} (last : e.left ≤ 1) (clean : e.bad = 0) (status : Nat) :
    (e.takesPart false status).phase = .done status ∧ (e.takesPart false status).op = e.op := by
  unfold Entry.takesPart Entry.partDone
  dsimp only
  rw [if_pos last, if_pos clean]
  exact ⟨rfl, rfl⟩

/-- An instruction with more parts waits for them. -/
theorem Entry.takesPart_more {e : Entry} (more : 1 < e.left) (waits : e.phase = .waiting) (late : Bool) (status : Nat) :
    (e.takesPart late status).phase = .waiting ∧ (e.takesPart late status).left = e.left - 1 := by
  have part : e.partDone status = { e with left := e.left - 1, bad := if e.bad = 0 then status else e.bad } := if_neg (by omega)
  unfold Entry.takesPart
  rw [part]
  dsimp only
  rw [waits]
  exact ⟨rfl, rfl⟩

/-- The cause that an uncorrectable word's record will carry. -/
def Entry.blames (e : Entry) (k : Packet) : Entry :=
  if e.bad = 0 then { e with cause := 0x0202, addr := BitVec.ofNat 64 (pktOff k), info := BitVec.ofNat 64 k.space } else e

theorem Entry.blames_keeps (e : Entry) (k : Packet) :
    (e.blames k).id = e.id ∧ (e.blames k).left = e.left ∧ (e.blames k).bad = e.bad ∧ (e.blames k).phase = e.phase ∧ (e.blames k).op = e.op := by
  unfold Entry.blames
  split <;> exact ⟨rfl, rfl, rfl, rfl, rfl⟩

/-- What the answer to one part of an instruction leaves, on a state of which the instruction's core has changed by f. -/
structure State.PartAnswered (s u : State) (c id : Nat) (e : Entry) (status : Nat) (late : Bool) (f : Core → Core) : Prop where
  last   : e.left ≤ 1 → e.bad = 0 → late = false → ∃ g, (u.core c).entry? id = some g ∧ g.phase = .done status ∧ g.op = e.op
  more   : 1 < e.left → e.phase = .waiting → ∃ g, (u.core c).entry? id = some g ∧ g.phase = .waiting ∧ g.left = e.left - 1
  sp     : (u.core c).sp = (f (s.core c)).sp
  others : ∀ d, d ≠ c → u.core d = s.core d

/-- A state of which one core has changed in its scratchpad alone. -/
structure State.Landed (s t : State) (c : Nat) (f : Core → Core) : Prop where
  here   : t.core c = f (s.core c)
  others : ∀ d, d ≠ c → t.core d = s.core d
  window : (f (s.core c)).window = (s.core c).window

theorem State.Landed.entry {s t : State} {c id : Nat} {f : Core → Core} (h : s.Landed t c f) {e : Entry} (found : (s.core c).entry? id = some e) :
    (t.core c).entry? id = some e := by
  unfold Core.entry? at found ⊢
  rw [h.here, h.window, found]

theorem State.Landed.answered {s t : State} {c id : Nat} {f : Core → Core} (h : s.Landed t c f) {e : Entry} (found : (s.core c).entry? id = some e) (status : Nat) :
    s.PartAnswered (t.answered c id status) c id e status (t.lateCopy c id) f := by
  have entry := t.modEntry_found (g := fun e => e.takesPart (t.lateCopy c id) status) (fun y => y.takesPart_id _ _) (h.entry found)
  rw [State.answered_eq]
  refine ⟨fun last clean kept => ?_, fun more waits => ?_, ?_, fun d apart => ?_⟩
  · obtain ⟨phase, op⟩ := Entry.takesPart_last last clean status
    rw [kept] at entry ⊢
    exact ⟨_, entry, phase, op⟩
  · obtain ⟨phase, left⟩ := Entry.takesPart_more more waits (t.lateCopy c id) status
    exact ⟨_, entry, phase, left⟩
  · rw [State.modEntry_sp, h.here]
  · rw [State.modEntry_core_ne _ _ _ _ _ apart, h.others d apart]

theorem State.answeredBad_eq (s : State) (x : Txn) (status : Nat) :
    s.answeredBad x status = (if status = Status.eccUncorrected then s.modEntry x.core x.id (fun e => e.blames x.pkt) else s).answered x.core x.id status := rfl

theorem State.Landed.answeredBad {s t : State} {x : Txn} {f : Core → Core} (h : s.Landed t x.core f) {e : Entry} (found : (s.core x.core).entry? x.id = some e) (status : Nat) :
    s.PartAnswered (t.answeredBad x status) x.core x.id e status (t.lateCopy x.core x.id) f := by
  rw [State.answeredBad_eq]
  by_cases ecc : status = Status.eccUncorrected
  · rw [if_pos ecc]
    obtain ⟨-, left, bad, phase, op⟩ := e.blames_keeps x.pkt
    have late : (t.modEntry x.core x.id (fun e => e.blames x.pkt)).lateCopy x.core x.id = t.lateCopy x.core x.id := rfl
    have entry := t.modEntry_found (g := fun e => e.blames x.pkt) (fun y => (y.blames_keeps x.pkt).1) (h.entry found)
    have sp := t.modEntry_sp x.core x.id x.core (fun e => e.blames x.pkt)
    have others := t.modEntry_core_ne x.core x.id (g := fun e => e.blames x.pkt)
    generalize t.modEntry x.core x.id (fun e => e.blames x.pkt) = b at late entry sp others
    have same : b.Landed b x.core (fun k => k) := ⟨rfl, fun _ _ => rfl, rfl⟩
    obtain ⟨last', more', sp', others'⟩ := same.answered entry status
    rw [late] at last'
    rw [left] at last' more'
    rw [bad, op] at last'
    rw [phase] at more'
    exact ⟨last', more', by rw [sp', sp, h.here], fun d apart => (others' d apart).trans ((others d apart).trans (h.others d apart))⟩
  · rw [if_neg ecc]
    exact h.answered found status

theorem State.landed_id {s t : State} (cores : t.cores = s.cores) (c : Nat) : s.Landed t c (fun k => k) :=
  ⟨State.core_congr cores c, fun d _ => State.core_congr cores d, rfl⟩

theorem State.landed_spWrite {s t : State} (cores : t.cores = s.cores) {c : Nat} (known : c < 48) (off : Nat) (bs : List Byte) :
    s.Landed (t.spWrite c off bs) c (fun k => k.spWrite off bs) := by
  refine ⟨?_, fun d apart => ?_, rfl⟩
  · unfold State.spWrite
    rw [State.core_modCore _ _ _ known, State.core_congr cores]
  · unfold State.spWrite
    rw [State.core_modCore_ne _ _ _ _ apart, State.core_congr cores]

theorem Core.spWrites_window (k : Core) (ds : List (Nat × List Byte)) : (ds.foldl (fun k d => k.spWrite d.1 d.2) k).window = k.window :=
  foldl_same Core.window (fun (k : Core) (d : Nat × List Byte) => k.spWrite d.1 d.2) (fun _ _ => rfl) _ _

theorem State.landed_pieces {s t : State} (cores : t.cores = s.cores) {c : Nat} (known : c < 48) (ds : List (Nat × List Byte)) :
    s.Landed (t.landPieces c ds) c (fun k => ds.foldl (fun k d => k.spWrite d.1 d.2) k) := by
  refine ⟨?_, fun d apart => ?_, Core.spWrites_window _ ds⟩
  · rw [← State.core_congr cores]
    clear cores
    unfold State.landPieces
    induction ds generalizing t with
    | nil => rfl
    | cons d ds ih =>
      rw [List.foldl_cons, List.foldl_cons, ih]
      unfold State.spWrite
      rw [State.core_modCore _ _ _ known]
  · rw [← State.core_congr cores]
    exact foldl_same (fun t : State => t.core d) _ (fun t x => State.core_modCore_ne _ _ _ _ apart) _ _

theorem State.landPieces_lateCopy (s : State) (c : Nat) (ds : List (Nat × List Byte)) (d id : Nat) : (s.landPieces c ds).lateCopy d id = s.lateCopy d id :=
  foldl_same (fun t : State => t.lateCopy d id) (fun t (x : Nat × List Byte) => t.spWrite c x.1 x.2) (fun _ _ => rfl) ds s

/-! ### Destinations missed (R95, R311) -/

/-- An entry that notes some destinations missed. -/
def Entry.misses (e : Entry) (ds : List Nat) : Entry :=
  ds.foldl (fun e m => { e with missed := e.missed.put (rackBit m) (Tab.get e.missed 0 (rackBit m) ||| BitVec.twoPow 64 (inRackBit m)) }) e

/-- What noting destinations leaves of an entry. -/
theorem Entry.misses_keeps (e : Entry) (ds : List Nat) :
    (e.misses ds).id = e.id ∧ (e.misses ds).op = e.op ∧ (e.misses ds).left = e.left ∧ (e.misses ds).bad = e.bad ∧ (e.misses ds).phase = e.phase := by
  induction ds generalizing e with
  | nil => exact ⟨rfl, rfl, rfl, rfl, rfl⟩
  | cons m ds ih => exact ih { e with missed := e.missed.put (rackBit m) (Tab.get e.missed 0 (rackBit m) ||| BitVec.twoPow 64 (inRackBit m)) }

/-- A destination noted stays noted. -/
theorem Entry.misses_bit (e : Entry) (ds : List Nat) (r b : Nat) (noted : (Tab.get e.missed 0 r).getLsbD b = true) :
    (Tab.get (e.misses ds).missed 0 r).getLsbD b = true := by
  induction ds generalizing e with
  | nil => exact noted
  | cons m ds ih =>
    refine ih { e with missed := e.missed.put (rackBit m) (Tab.get e.missed 0 (rackBit m) ||| BitVec.twoPow 64 (inRackBit m)) } ?_
    dsimp only
    by_cases same : r = rackBit m
    · subst same
      rw [Tab.get_put_same, BitVec.getLsbD_or, noted, Bool.true_or]
    · rw [Tab.get_put_other _ _ _ _ _ same]
      exact noted

theorem Entry.misses_mem (e : Entry) {ds : List Nat} {m : Nat} (mem : m ∈ ds) : (Tab.get (e.misses ds).missed 0 (rackBit m)).getLsbD (inRackBit m) = true := by
  induction ds generalizing e with
  | nil => cases mem
  | cons d ds ih =>
    rcases List.mem_cons.mp mem with rfl | later
    · refine Entry.misses_bit { e with missed := e.missed.put (rackBit m) (Tab.get e.missed 0 (rackBit m) ||| BitVec.twoPow 64 (inRackBit m)) } ds _ _ ?_
      have within : inRackBit m < 64 := Nat.mod_lt _ (by decide)
      dsimp only
      rw [Tab.get_put_same, BitVec.getLsbD_or, BitVec.getLsbD_twoPow]
      simp [within]
    · exact ih { e with missed := e.missed.put (rackBit d) (Tab.get e.missed 0 (rackBit d) ||| BitVec.twoPow 64 (inRackBit d)) } later

theorem Entry.misses_any (e : Entry) {ds : List Nat} (some_ : ds ≠ []) : (e.misses ds).missed.any (fun x => x.2 != 0) = true := by
  obtain ⟨m, mem⟩ := List.exists_mem_of_ne_nil ds some_
  have noted := e.misses_mem mem
  unfold Tab.get at noted
  cases found : (e.misses ds).missed.lookup (rackBit m) with
  | none =>
    rw [found] at noted
    simp at noted
  | some w =>
    rw [found, Option.getD_some] at noted
    obtain ⟨before, after, split, -⟩ := List.lookup_eq_some_iff.mp found
    have mem : (rackBit m, w) ∈ (e.misses ds).missed := split ▸ List.mem_append_right _ List.mem_cons_self
    refine List.any_eq_true.mpr ⟨_, mem, ?_⟩
    rw [bne_iff_ne]
    rintro zero
    dsimp only at zero
    rw [zero] at noted
    simp at noted

/-- Some destinations of an instruction are noted missed. -/
def State.noteMisses (s : State) (c id : Nat) (ds : List Nat) : State := ds.foldl (fun s m => s.noteMiss c id m) s

/-- What noting destinations changes. -/
structure State.MissNoted (s t : State) (c id : Nat) (e : Entry) (ds : List Nat) : Prop where
  entry  : (t.core c).entry? id = some (e.misses ds)
  sp     : ∀ d, (t.core d).sp = (s.core d).sp
  others : ∀ d, d ≠ c → t.core d = s.core d
  closes : s.ClosesAlike t

theorem State.noteMisses_noted {s : State} {c id : Nat} {e : Entry} (found : (s.core c).entry? id = some e) (ds : List Nat) :
    s.MissNoted (s.noteMisses c id ds) c id e ds := by
  induction ds generalizing s e with
  | nil => exact ⟨found, fun _ => rfl, fun _ _ => rfl, ⟨rfl, rfl, rfl, rfl, rfl⟩⟩
  | cons m ds ih =>
    have first := s.modEntry_found (g := fun e => { e with missed := e.missed.put (rackBit m) (Tab.get e.missed 0 (rackBit m) ||| BitVec.twoPow 64 (inRackBit m)) })
      (fun _ => rfl) found
    obtain ⟨entry, sp, others, closes⟩ := ih (s := s.noteMiss c id m) first
    refine ⟨entry, fun d => (sp d).trans (s.modEntry_sp _ _ _ _), fun d apart => (others d apart).trans (s.modEntry_core_ne _ _ _ _ apart), ?_⟩
    exact ⟨closes.txns, closes.winUse, closes.c0Held, closes.regs, closes.clock⟩

/-- A multicast that waits for more destinations. -/
theorem State.mcAnswered_more (s : State) {x : Txn} {ds : List Nat} (more : x.mcLeft.filter (fun m => !ds.contains m) ≠ []) :
    s.mcAnswered x ds = { s with txns := s.txns.map (fun (y : Txn) => if y.tag == x.tag then { y with mcLeft := x.mcLeft.filter (fun m => !ds.contains m) } else y) } := by
  refine if_neg fun h => more ?_
  exact List.isEmpty_iff.mp h.1

/-- A PUT.MC that is complete. -/
theorem State.finishMc_found {s : State} {c id : Nat} {e : Entry} (found : (s.core c).entry? id = some e) (rd : Word) :
    s.finishMc c id rd = (s.spWrite c rd.toNat (missReport e.missed)).finish c id
      (if e.bad ≠ 0 then e.bad else if e.missed.any (fun x => x.2 != 0) then Status.partialDelivery else Status.ok) := by
  unfold State.finishMc
  rw [found]

theorem State.mcAnswered_last {s : State} {x : Txn} {ds : List Nat} (none_ : x.mcLeft.filter (fun m => !ds.contains m) = []) (plain : x.pkt.typ.val ≠ PT.kvUpdate)
    {e : Entry} (found : (s.core x.core).entry? x.id = some e) {td : TileWord} {ra rb rc rd : Word} {cls hint : Nat} (op : e.op = .putMc td ra rb rc rd cls hint) (last : e.left ≤ 1)
    (fresh : (s.closeTxn x.tag).lateCopy x.core x.id = false) : s.mcAnswered x ds = (s.closeTxn x.tag).finishMc x.core x.id rd := by
  have cores := (s.closeTxn_onlyPumped x.tag).cores
  have found' : ((s.closeTxn x.tag).core x.core).entry? x.id = some e := by rw [State.core_congr cores, found]
  unfold State.mcAnswered
  dsimp only
  rw [none_, if_pos ⟨rfl, plain⟩, found']
  dsimp only
  rw [op]
  dsimp only
  rw [if_pos last]
  generalize s.closeTxn x.tag = t at fresh found' ⊢
  have late : (t.finishMc x.core x.id rd).lateCopy x.core x.id = t.lateCopy x.core x.id := by
    rw [State.finishMc_found found']
    rfl
  rw [late, fresh]
  exact if_neg (by decide)

/-! ### A reply at its source (R279) -/

theorem State.takeReply_found {s : State} {p : Packet} {x : Txn} (awake : s.failed = false) (good : pcrcOk p = true) (found : s.txnOf p = some x) {types : List Nat}
    (typ : types.contains p.typ.val = true) (f : State → Txn → State) : s.takeReply types p f = f (s.takeHub p) x := by
  have hears : ((s.takeHub p).deaf || !types.contains p.typ.val) = false := by rw [typ]; exact (Bool.or_false _).trans awake
  have closes : (s.takeHub p).txnOf p = some x := found
  unfold State.takeReply
  dsimp only
  rw [hears, good, closes, if_neg (by decide), if_neg (by decide)]

theorem State.takeReply_stray {s : State} {p : Packet} (awake : s.failed = false) (good : pcrcOk p = true) (stray : s.txnOf p = none) {types : List Nat}
    (typ : types.contains p.typ.val = true) (f : State → Txn → State) : s.takeReply types p f = (s.takeHub p).strayReply p := by
  have hears : ((s.takeHub p).deaf || !types.contains p.typ.val) = false := by rw [typ]; exact (Bool.or_false _).trans awake
  have closes : (s.takeHub p).txnOf p = none := stray
  unfold State.takeReply
  dsimp only
  rw [hears, good, closes, if_neg (by decide), if_neg (by decide)]

/-- The step that a reply takes, as the statement of its effect asks for it. -/
theorem ends_of {i : Instr} {s u : State} {c id : Nat} {e : Entry} {status : Nat} {late : Bool} {f : Core → Core} (runs : exec i s = .next u)
    (a : s.PartAnswered u c id e status late f) :
    ∃ u : State, exec i s = .next u
      ∧ (e.left ≤ 1 → e.bad = 0 → late = false → ∃ g, (u.core c).entry? id = some g ∧ g.phase = .done status ∧ g.op = e.op)
      ∧ (1 < e.left → e.phase = .waiting → ∃ g, (u.core c).entry? id = some g ∧ g.phase = .waiting ∧ g.left = e.left - 1)
      ∧ (u.core c).sp = (f (s.core c)).sp ∧ (∀ d, d ≠ c → u.core d = s.core d) :=
  ⟨u, runs, a.last, a.more, a.sp, a.others⟩

section Reply
variable {p : Packet} {x : Txn} {e : Entry} {s : State} (awake : s.failed = false) (good : pcrcOk p = true) (found : s.txnOf p = some x)
include awake good found

theorem exec_ack_one (typ : p.typ.val = PT.ack) (uni : PT.multicast x.pkt.typ.val = false) (own : x.pre = none) :
    exec (.ack p) s = .next (((s.takeHub p).closeTxnWin x.tag (leNat ((p.payload.drop 4).take 4))).answeredBad x (leNat (p.payload.take 1))) := by
  refine congrArg Host.Outcome.next ((State.takeReply_found awake good found (by rw [typ]; rfl) _).trans ?_)
  dsimp only
  rw [if_neg (by rw [uni]; decide), own]

/-- What an ACK of one destination notes. -/
def State.ackNoted (s : State) (x : Txn) (src st : Nat) : State :=
  if !x.mcLeft.contains src then s
  else if st = Status.padlocked then s.noteMiss x.core x.id src
  else if st ≠ 0 then s.modEntry x.core x.id (fun e => { e with bad := if e.bad = 0 then st else e.bad })
  else s

theorem exec_ack_mc (typ : p.typ.val = PT.ack) (multi : PT.multicast x.pkt.typ.val = true) :
    exec (.ack p) s = .next (((s.takeHub p).ackNoted x p.src (leNat (p.payload.take 1))).mcAnswered x [p.src]) := by
  refine congrArg Host.Outcome.next ((State.takeReply_found awake good found (by rw [typ]; rfl) _).trans ?_)
  dsimp only
  exact if_pos multi

theorem exec_getResp_found (typ : p.typ.val = PT.getResp ∨ p.typ.val = PT.getRespData) (own : x.pre = none) (entry : (s.core x.core).entry? x.id = some e) :
    exec (.getResp p) s = .next ((((s.takeHub p).closeTxn x.tag).landPieces x.core (scatter x.dest p.payload)).answered x.core x.id 0) := by
  refine congrArg Host.Outcome.next ((State.takeReply_found awake good found (by rcases typ with h | h <;> rw [h] <;> rfl) _).trans ?_)
  have cores := ((s.takeHub p).closeTxn_onlyPumped x.tag).cores
  have entry' : (((s.takeHub p).closeTxn x.tag).core x.core).entry? x.id = some e := by
    rw [State.core_congr cores]
    exact entry
  dsimp only
  rw [own, entry']
  rfl

theorem exec_atomResp_found (typ : p.typ.val = PT.atomResp) (entry : (s.core x.core).entry? x.id = some e) {ra rb rc rd : Word} {scope cls : Nat} {w64 : Bool} {aop : Nat}
    (op : e.op = .atom ra rb rc rd scope cls w64 false aop) (applied : wasApplied (leNat (p.payload.take 1)) = true) :
    exec (.atomResp p) s = .next ((((s.takeHub p).closeTxn x.tag).spWrite x.core rd.toNat ((p.payload.drop 8).take 8)).answeredBad x (leNat (p.payload.take 1))) := by
  refine congrArg Host.Outcome.next ((State.takeReply_found awake good found (by rw [typ]; rfl) _).trans ?_)
  have cores := ((s.takeHub p).closeTxn_onlyPumped x.tag).cores
  have entry' : (((s.takeHub p).closeTxn x.tag).core x.core).entry? x.id = some e := by
    rw [State.core_congr cores]
    exact entry
  dsimp only
  rw [entry']
  dsimp only
  rw [op]
  dsimp only
  rw [applied]
  rfl

theorem exec_tumResp_found (typ : p.typ.val = PT.tumResp) (entry : (s.core x.core).entry? x.id = some e) {ta : Word} {rb : Word} {cls : Nat}
    (op : e.op = .tumReadG ta rb cls) (ok : leNat (p.payload.take 1) = 0) :
    exec (.tumResp p) s = .next ((((s.takeHub p).closeTxn x.tag).spWrite x.core rb.toNat (leBytes 8 (leNat ((p.payload.drop 4).take 4)))).answeredBad x 0) := by
  refine congrArg Host.Outcome.next ((State.takeReply_found awake good found (by rw [typ]; rfl) _).trans ?_)
  have cores := ((s.takeHub p).closeTxn_onlyPumped x.tag).cores
  have entry' : (((s.takeHub p).closeTxn x.tag).core x.core).entry? x.id = some e := by
    rw [State.core_congr cores]
    exact entry
  dsimp only
  rw [entry']
  dsimp only
  rw [op, ok]
  rfl

theorem exec_mcMiss_found (typ : p.typ.val = PT.mcMiss) {ds : List Nat}
    (missed : (maskMembers (maskOf ((p.payload.drop 8).take 16))).filter (fun m => x.mcLeft.contains m) = ds) :
    exec (.mcMiss p) s = .next (((s.takeHub p).noteMisses x.core x.id ds).mcAnswered x ds) := by
  subst missed
  exact congrArg Host.Outcome.next (State.takeReply_found awake good found (by rw [typ]; rfl) _)

end Reply

/-- The transaction of a multicast that waits for more destinations. -/
theorem State.mcAnswered_waits {s : State} {x : Txn} (mem : x ∈ s.txns) {ds : List Nat} (more : x.mcLeft.filter (fun m => !ds.contains m) ≠ []) :
    ∃ y ∈ (s.mcAnswered x ds).txns, y.tag = x.tag ∧ y.mcLeft = x.mcLeft.filter (fun m => !ds.contains m) := by
  rw [State.mcAnswered_more s more]
  exact ⟨_, List.mem_map_of_mem mem, by simp, by simp⟩

/-! ### Settling the obligation -/

theorem State.takeHub_closes (s : State) (p : Packet) : s.ClosesAlike (s.takeHub p) := ⟨rfl, rfl, rfl, rfl, rfl⟩

section Multicast
variable {p : Packet} {x : Txn} {e : Entry} {s : State} (awake : s.failed = false) (good : pcrcOk p = true) (found : s.txnOf p = some x)
include awake good found

/-- A multicast that has been acknowledged by one destination waits for the others. -/
theorem exec_ack_waits (typ : p.typ.val = PT.ack) (multi : PT.multicast x.pkt.typ.val = true) (more : ∃ m ∈ x.mcLeft, m ≠ p.src) :
    ∃ u : State, exec (.ack p) s = .next u ∧ (∃ y ∈ u.txns, y.tag = x.tag ∧ y.mcLeft = x.mcLeft.filter (fun m => m != p.src))
      ∧ (u.core x.core).sp = (s.core x.core).sp := by
  have rest : x.mcLeft.filter (fun m => !([p.src] : List Nat).contains m) = x.mcLeft.filter (fun m => m != p.src) :=
    List.filter_congr fun m _ => by simp [bne, beq_eq_decide]
  have some_ : x.mcLeft.filter (fun m => !([p.src] : List Nat).contains m) ≠ [] := by
    obtain ⟨m, mem, other⟩ := more
    rw [rest]
    exact List.ne_nil_of_mem (List.mem_filter.mpr ⟨mem, by simpa using other⟩)
  have noted : ((s.takeHub p).ackNoted x p.src (leNat (p.payload.take 1))).txns = s.txns
      ∧ (((s.takeHub p).ackNoted x p.src (leNat (p.payload.take 1))).core x.core).sp = (s.core x.core).sp := by
    unfold State.ackNoted
    split
    · exact ⟨rfl, rfl⟩
    · split
      · exact ⟨rfl, (s.takeHub p).modEntry_sp _ _ _ _⟩
      · split
        · exact ⟨rfl, (s.takeHub p).modEntry_sp _ _ _ _⟩
        · exact ⟨rfl, rfl⟩
  obtain ⟨txns, sp⟩ := noted
  have runs := exec_ack_mc awake good found typ multi
  generalize (s.takeHub p).ackNoted x p.src (leNat (p.payload.take 1)) = t at txns sp runs
  have waits := State.mcAnswered_waits (s := t) (txns ▸ List.mem_of_find?_eq_some found) some_
  rw [rest] at waits
  refine ⟨_, runs, waits, ?_⟩
  rw [State.mcAnswered_more t some_]
  exact sp

variable (typ : p.typ.val = PT.mcMiss) {ds : List Nat} (missed : (maskMembers (maskOf ((p.payload.drop 8).take 16))).filter (fun m => x.mcLeft.contains m) = ds)
  (entry : (s.core x.core).entry? x.id = some e)
include typ missed entry

theorem exec_mcMiss_waits (more : x.mcLeft.filter (fun m => !ds.contains m) ≠ []) :
    ∃ u : State, exec (.mcMiss p) s = .next u ∧ (∃ g, (u.core x.core).entry? x.id = some g ∧ ∀ m ∈ ds, (Tab.get g.missed 0 (rackBit m)).getLsbD (inRackBit m) = true)
      ∧ (∃ y ∈ u.txns, y.tag = x.tag ∧ y.mcLeft = x.mcLeft.filter (fun m => !ds.contains m)) ∧ (u.core x.core).sp = (s.core x.core).sp := by
  have noted := State.noteMisses_noted (s := s.takeHub p) entry ds
  have runs := exec_mcMiss_found awake good found typ missed
  generalize (s.takeHub p).noteMisses x.core x.id ds = t at noted runs
  have waits := State.mcAnswered_waits (s := t) (noted.closes.txns ▸ List.mem_of_find?_eq_some found) more
  have cores : (t.mcAnswered x ds).cores = t.cores := by rw [State.mcAnswered_more t more]
  refine ⟨_, runs, ⟨e.misses ds, ?_, fun m mem => e.misses_mem mem⟩, waits, ?_⟩
  · rw [State.core_congr cores]
    exact noted.entry
  · rw [State.core_congr cores]
    exact noted.sp x.core

theorem exec_mcMiss_last (last : x.mcLeft.filter (fun m => !ds.contains m) = []) (some_ : ds ≠ []) (plain : x.pkt.typ.val ≠ PT.kvUpdate)
    {td : TileWord} {ra rb rc rd : Word} {cls hint : Nat} (op : e.op = .putMc td ra rb rc rd cls hint) (one : e.left ≤ 1) (clean : e.bad = 0)
    (fresh : ((s.takeHub p).closeTxn x.tag).lateCopy x.core x.id = false) :
    ∃ u : State, exec (.mcMiss p) s = .next u ∧ (∃ g, (u.core x.core).entry? x.id = some g ∧ ∀ m ∈ ds, (Tab.get g.missed 0 (rackBit m)).getLsbD (inRackBit m) = true)
      ∧ (∃ g, (u.core x.core).entry? x.id = some g ∧ g.phase = .done Status.partialDelivery
        ∧ (u.core x.core).sp = ((s.core x.core).spWrite rd.toNat (missReport g.missed)).sp) := by
  have core := State.entry_core entry
  have noted := State.noteMisses_noted (s := s.takeHub p) entry ds
  have runs := exec_mcMiss_found awake good found typ missed
  have late := (noted.closes.closeTxn x.tag).lateCopy x.core x.id
  rw [fresh] at late
  obtain ⟨-, op', left', bad', -⟩ := e.misses_keeps ds
  generalize (s.takeHub p).noteMisses x.core x.id ds = t at noted runs late
  have done := State.mcAnswered_last (s := t) last plain noted.entry (op'.trans op) (by omega) late
  have cores := (t.closeTxn_onlyPumped x.tag).cores
  have entry' : ((t.closeTxn x.tag).core x.core).entry? x.id = some (e.misses ds) := by
    rw [State.core_congr cores]
    exact noted.entry
  have sp : ((t.closeTxn x.tag).core x.core).sp = (s.core x.core).sp := by
    rw [State.core_congr cores]
    exact noted.sp x.core
  rw [done, State.finishMc_found entry' rd, bad', clean, e.misses_any some_] at runs
  generalize t.closeTxn x.tag = v at runs entry' sp
  have landed := State.landed_spWrite (s := v) (t := v) rfl core rd.toNat (missReport (e.misses ds).missed)
  have finished := State.modEntry_found (g := fun e => { e with phase := .done Status.partialDelivery }) _ (fun _ => rfl) (landed.entry entry')
  have sp' : ((v.spWrite x.core rd.toNat (missReport (e.misses ds).missed)).core x.core).sp = ((s.core x.core).spWrite rd.toNat (missReport (e.misses ds).missed)).sp := by
    rw [landed.here]
    unfold Core.spWrite
    dsimp only
    rw [sp]
  refine ⟨_, runs, ⟨_, finished, fun m mem => e.misses_mem mem⟩, ⟨_, finished, rfl, ?_⟩⟩
  exact (State.modEntry_sp _ _ _ _ _).trans sp'

end Multicast

/-- Settles O42: closing a transaction touches no core (`State.closeTxn_onlyPumped`) and does not depend on the cores
(`State.ClosesAlike`), so a reply changes its instruction's entry and scratchpad as on the state that it finds. -/
theorem repliesCompleteTheirRequests : Obligations.RepliesCompleteTheirRequests := by
  unfold Obligations.RepliesCompleteTheirRequests
  intro p x e s awake good
  refine ⟨fun found own entry => ?_, fun stray => ⟨fun typ => ?_, fun typ => ?_⟩⟩
  · dsimp only
    have core := State.entry_core entry
    have shut := ((s.takeHub p).closeTxn_onlyPumped x.tag).cores
    refine ⟨fun typ uni => ?_, fun typ multi more => ?_, fun typ => ?_, fun ra rb rc rd scope cls w64 aop typ op applied => ?_, fun ta rb cls typ op ok => ?_,
      fun typ => ⟨fun more => ?_, fun td ra rb rc rd cls hint last some_ plain op one clean fresh => ?_⟩⟩
    · have closed := ((s.takeHub p).closeTxnWin_onlyPumped x.tag (leNat ((p.payload.drop 4).take 4))).cores
      exact ends_of (exec_ack_one awake good found typ uni own) ((State.landed_id (s := s) closed x.core).answeredBad entry _)
    · exact exec_ack_waits awake good found typ multi more
    · have a := (State.landed_pieces (s := s) shut core (scatter x.dest p.payload)).answered entry 0
      rw [State.landPieces_lateCopy] at a
      exact ends_of (exec_getResp_found awake good found typ own entry) a
    · exact ends_of (exec_atomResp_found awake good found typ entry op applied) ((State.landed_spWrite (s := s) shut core _ _).answeredBad entry _)
    · exact ends_of (exec_tumResp_found awake good found typ entry op ok) ((State.landed_spWrite (s := s) shut core _ _).answeredBad entry _)
    · exact exec_mcMiss_waits awake good found typ rfl entry more
    · exact exec_mcMiss_last awake good found typ rfl entry last some_ plain op one clean fresh
  · exact congrArg Host.Outcome.next (State.takeReply_stray awake good stray (by rw [typ]; rfl) _)
  · exact congrArg Host.Outcome.next (State.takeReply_stray awake good stray (by rw [typ]; rfl) _)

end Sys2Proof.Machine
end


section
/-! Requests are held, sent again and given up; rows, counts and padlocks come and go (R258, R417-R422, R424-R426). -/

namespace Sys2Proof.Machine

/-! ### What ending a request changes -/

/-- The state `t` after requests of the cores have ended. -/
def State.withClosed (s t : State) : State :=
  { s with held := t.held, txns := t.txns, winUse := t.winUse, c0Held := t.c0Held, regs := t.regs, cores := t.cores }

structure State.OnlyClosed (s t : State) : Prop where
  eq : t = s.withClosed t
  rd : ∀ g : Fld, g.BeyondEnds → t.rd g = s.rd g

theorem State.OnlyClosed.refl (s : State) : s.OnlyClosed s := ⟨rfl, fun _ _ => rfl⟩

theorem State.OnlyClosed.trans {s t u : State} (a : s.OnlyClosed t) (b : t.OnlyClosed u) : s.OnlyClosed u := by
  have step := congrArg (fun x => State.withClosed x u) a.eq
  exact ⟨b.eq.trans step, fun g h => (b.rd g h).trans (a.rd g h)⟩

theorem State.withClosed_padDue (s t : State) : (s.withClosed t).padDue = s.padDue := rfl
theorem State.OnlyClosed.padDue {s t : State} (h : s.OnlyClosed t) : t.padDue = s.padDue := by rw [h.eq, State.withClosed_padDue]

theorem State.onlyClosed_pumped (s t : State) : s.withPumped t = s.withClosed (s.withPumped t) := rfl

theorem State.OnlyPumped.onlyClosed {s t : State} (h : s.OnlyPumped t) : s.OnlyClosed t := by
  refine ⟨?_, h.rd⟩
  have lit := s.onlyClosed_pumped t
  rwa [← h.eq] at lit

theorem State.modCore_onlyClosed (s : State) (c : Nat) (f : Core → Core) : s.OnlyClosed (s.modCore c f) := ⟨rfl, fun _ _ => rfl⟩

theorem State.spWrite_onlyClosed (s : State) (c off : Nat) (bs : List Byte) : s.OnlyClosed (s.spWrite c off bs) := s.modCore_onlyClosed c _

theorem State.modEntry_onlyClosed (s : State) (c id : Nat) (f : Entry → Entry) : s.OnlyClosed (s.modEntry c id f) := s.modCore_onlyClosed c _

theorem State.cutTxn_onlyPumped (s : State) (x : Txn) : s.OnlyPumped (s.cutTxn x) :=
  (s.onlyPumped_lit s.held s.txns s.winUse _).trans (State.closeTxn_onlyPumped _ _)

/-- The transactions of some requests are cut. -/
def State.cutAll (s : State) (xs : List Txn) : State := xs.foldl (fun s x => s.cutTxn x) s

theorem State.cutAll_onlyPumped (s : State) (xs : List Txn) : s.OnlyPumped (s.cutAll xs) :=
  foldl_keeps s.OnlyPumped _ (fun t x h => h.trans (t.cutTxn_onlyPumped x)) xs s (.refl s)

theorem State.landPieces_onlyClosed (s : State) (c : Nat) (ds : List (Nat × List Byte)) : s.OnlyClosed (s.landPieces c ds) :=
  foldl_keeps s.OnlyClosed _ (fun t d h => h.trans (t.spWrite_onlyClosed c d.1 d.2)) ds s (.refl s)

theorem State.poison_onlyClosed (s : State) (c : Nat) (e : Entry) : s.OnlyClosed (s.poison c e) := by
  unfold State.poison
  split
  · exact foldl_keeps s.OnlyClosed _ (fun t r h => h.trans (t.spWrite_onlyClosed c _ _)) _ s (.refl s)
  · split
    · exact .refl s
    · exact s.spWrite_onlyClosed c _ _
  · exact s.spWrite_onlyClosed c _ _
  · exact .refl s

/-- The instruction's other requests whose target is dead. -/
def State.mates (s : State) (c id : Nat) : List Txn := s.txns.filter (fun (x : Txn) => x.core == c && x.id == id && x.pre.isNone && !x.spent)

/-- An entry whose target is dead. -/
def Entry.targetDead (e : Entry) : Entry := { e with phase := .done Status.targetDead, bad := Status.targetDead, left := 0, sigDue := none }

theorem State.targetDead_eq (s : State) (c id : Nat) : s.targetDead c id = match ((s.cutAll (s.mates c id)).core c).entry? id with
    | some e => ((s.cutAll (s.mates c id)).poison c e).modEntry c id Entry.targetDead
    | none => s.cutAll (s.mates c id) := rfl

theorem State.targetDead_onlyClosed (s : State) (c id : Nat) : s.OnlyClosed (s.targetDead c id) := by
  rw [State.targetDead_eq]
  have cut := (s.cutAll_onlyPumped (s.mates c id)).onlyClosed
  split
  · exact cut.trans ((State.poison_onlyClosed _ c _).trans (State.modEntry_onlyClosed _ c id _))
  · exact cut

theorem State.finish_onlyClosed (s : State) (c id st : Nat) : s.OnlyClosed (s.finish c id st) := s.modEntry_onlyClosed c id _

theorem State.OnlyClosed.modCore {s t : State} (h : s.OnlyClosed t) (c : Nat) (f : Core → Core) : s.OnlyClosed (t.modCore c f) := h.trans (t.modCore_onlyClosed c f)
theorem State.OnlyClosed.finish {s t : State} (h : s.OnlyClosed t) (c id st : Nat) : s.OnlyClosed (t.finish c id st) := h.trans (t.finish_onlyClosed c id st)
theorem State.OnlyClosed.modEntry {s t : State} (h : s.OnlyClosed t) (c id : Nat) (f : Entry → Entry) : s.OnlyClosed (t.modEntry c id f) :=
  h.trans (t.modEntry_onlyClosed c id f)

theorem State.OnlyClosed.preReturn {s t : State} (h : s.OnlyClosed t) (c : Nat) (p : PreRead) (st : Nat) : s.OnlyClosed (t.preReturn c p st) := by
  unfold State.preReturn
  split
  · dsimp only
    refine State.OnlyClosed.finish (iteInduction (motive := s.OnlyClosed) (fun _ => ?_) (fun _ => ?_)) c _ st
    · exact (h.modCore c _).trans (State.landPieces_onlyClosed _ c _)
    · exact h.modCore c _
  · exact h.modCore c _

theorem State.preAnswered_onlyClosed (s : State) (x : Txn) (pid st : Nat) (ds : List (Nat × List Byte)) : s.OnlyClosed (s.preAnswered x pid st ds) := by
  unfold State.preAnswered
  split
  · exact .refl s
  · dsimp only
    refine iteInduction (motive := s.OnlyClosed) (fun _ => ?_) (fun _ => s.modCore_onlyClosed _ _)
    split
    · refine State.OnlyClosed.preReturn ?_ _ _ _
      split
      · exact (s.modCore_onlyClosed _ _).trans (State.poison_onlyClosed _ _ _)
      · exact s.modCore_onlyClosed _ _
    · exact (s.modCore_onlyClosed _ _).preReturn _ _ _

theorem State.finishMc_onlyClosed (s : State) (c id : Nat) (rd : Word) : s.OnlyClosed (s.finishMc c id rd) := by
  unfold State.finishMc
  split
  · exact .refl s
  · exact (s.spWrite_onlyClosed c _ _).finish c id _

theorem State.onlyClosed_txns (s : State) (txns : List Txn) : s.OnlyClosed { s with txns := txns } := ⟨rfl, fun _ _ => rfl⟩

theorem State.mcAnswered_onlyClosed (s : State) (x : Txn) (ds : List Nat) : s.OnlyClosed (s.mcAnswered x ds) := by
  have closed := (s.closeTxn_onlyPumped x.tag).onlyClosed
  refine iteInduction (motive := s.OnlyClosed) (fun _ => ?_) (fun _ => s.onlyClosed_txns _)
  dsimp only
  split
  · split
    · refine iteInduction (motive := s.OnlyClosed) (fun _ => ?_) (fun _ => closed.modEntry _ _ _)
      refine iteInduction (motive := s.OnlyClosed) (fun _ => State.OnlyClosed.modEntry ?_ _ _ _) (fun _ => ?_)
      · exact closed.trans (State.finishMc_onlyClosed _ _ _ _)
      · exact closed.trans (State.finishMc_onlyClosed _ _ _ _)
    · exact closed
  · exact closed

theorem State.deadTxn_onlyClosed (s : State) (x : Txn) (m : Nat) : s.OnlyClosed (s.deadTxn x m) := by
  unfold State.deadTxn
  refine iteInduction (motive := s.OnlyClosed) (fun _ => ?_) (fun _ => ?_)
  · exact iteInduction (motive := s.OnlyClosed) (fun _ => (s.modEntry_onlyClosed _ _ _).trans (State.mcAnswered_onlyClosed _ x _)) (fun _ => .refl s)
  · split
    · exact (s.cutTxn_onlyPumped x).onlyClosed.trans (State.preAnswered_onlyClosed _ x _ _ _)
    · exact s.targetDead_onlyClosed _ _

theorem State.deadSignals_onlyClosed (s : State) (m : Nat) : s.OnlyClosed (s.deadSignals m) :=
  foldl_keeps s.OnlyClosed _ (fun t c h => foldl_keeps s.OnlyClosed _ (fun u e k => k.trans (u.targetDead_onlyClosed c e.id)) _ t h) _ s (.refl s)

theorem State.deadTarget_onlyClosed (s : State) (m : Nat) : s.OnlyClosed (s.deadTarget m) := by
  unfold State.deadTarget
  refine foldl_keeps s.OnlyClosed _ (fun t x h => ?_) _ _ (s.deadSignals_onlyClosed m)
  split
  · exact h.trans (t.deadTxn_onlyClosed _ m)
  · exact h

/-! ### A declared module's entry is padlocked (R258, R425) -/

theorem setFld_padlocked (x : Nat) : (setFld x 2 1 true.toNat % 2 ^ 64).testBit 2 = true := by
  rw [Nat.testBit_mod_two_pow]
  have bit := testBit_setFld x 2 (w := 1) (n := 0) 1 (by decide)
  rw [show (2 : Nat) = 2 + 0 from rfl] at bit ⊢
  simp_all

theorem State.setPadlock_sets (s : State) (m k : Nat) (two : k < 2) : ((s.setPadlock m true).rd (Reg.RT_ENTRY k m)).testBit 2 = true := by
  have apart : (Reg.RT_ENTRY 0 m).key ≠ (Reg.RT_ENTRY 1 m).key := by
    rw [rtEntry_key, rtEntry_key]
    omega
  rw [State.setPadlock_eq]
  match k, two with
  | 0, _ =>
    rw [State.rd_wr_ne _ _ _ _ apart, State.rd_wr]
    exact setFld_padlocked _
  | 1, _ =>
    rw [State.rd_wr]
    exact setFld_padlocked _

theorem rtEntry_beyondEnds {b d : Nat} (bank : b < 2) (known : d < 4096) : (Reg.RT_ENTRY b d).BeyondEnds := by
  refine Fld.beyondEnds_of (rtEntry_beyondRecords bank known) ?_ ?_ ?_ ?_
  all_goals rw [rtEntry_key]
  · simp only [Fld.key, Reg.SCHED_C0_STAT_TOKENS, Reg.SCHED_C0_STAT]
    omega
  · simp only [Fld.key, Reg.SCHED_C0_STAT_HELD_TOTAL, Reg.SCHED_C0_STAT]
    omega
  · simp only [Fld.key, Reg.HOST_STAT_CPL_DROPPED, Reg.HOST_STAT]
    omega
  · omega

theorem exec_padlockSet_due {s : State} {m : Nat} (known : m < 4096) (awake : s.failed = false) (due : m ∈ s.padDue) :
    ∃ u : State, exec (.padlockSet m) s = .next u ∧ m ∉ u.padDue
      ∧ (u.rd (Reg.RT_ENTRY 0 m)).testBit 2 = true ∧ (u.rd (Reg.RT_ENTRY 1 m)).testBit 2 = true := by
  obtain ⟨v, hv⟩ : ∃ v : State, v = { s with padDue := s.padDue.filter (fun x => x != m) } := ⟨_, rfl⟩
  have runs : exec (.padlockSet m) s = .next ((v.setPadlock m true).deadTarget m) := by
    rw [hv]
    refine congrArg Host.Outcome.next (if_neg ?_)
    rw [awake, List.contains_iff_mem.mpr due]
    decide
  have ended := (v.setPadlock m true).deadTarget_onlyClosed m
  have kept : (v.setPadlock m true).padDue = v.padDue := by
    rw [State.setPadlock_eq]
    rfl
  refine ⟨_, runs, ?_, ?_, ?_⟩
  · rw [ended.padDue, kept, hv]
    simp
  · rw [ended.rd _ (rtEntry_beyondEnds (by decide) known)]
    exact v.setPadlock_sets m 0 (by decide)
  · rw [ended.rd _ (rtEntry_beyondEnds (by decide) known)]
    exact v.setPadlock_sets m 1 (by decide)

/-! ### What is left of a table when requests end (R418) -/

/-- A transaction as it is left when others close: another transaction's times and payment aside. -/
structure Txn.From (y z : Txn) : Prop where
  tag  : y.tag = z.tag
  core : y.core = z.core
  id   : y.id = z.id
  pre  : y.pre = z.pre

/-- What is left of a table: entries of it, none of them open again, and none open with a TAG that was closed. -/
def TxnsLeft (shut : List Nat) (l l' : List Txn) : Prop :=
  ∀ y ∈ l', ∃ z ∈ l, y.From z ∧ (y.spent = false → z.spent = false ∧ z.tag ∉ shut)

theorem TxnsLeft.refl (l : List Txn) : TxnsLeft [] l l := fun y mem => ⟨y, mem, ⟨rfl, rfl, rfl, rfl⟩, fun kept => ⟨kept, List.not_mem_nil⟩⟩

theorem TxnsLeft.trans {a b : List Nat} {l m n : List Txn} (h : TxnsLeft a l m) (k : TxnsLeft b m n) : TxnsLeft (a ++ b) l n := by
  intro y mem
  obtain ⟨z, zmem, same, kept⟩ := k y mem
  obtain ⟨w, wmem, same', kept'⟩ := h z zmem
  refine ⟨w, wmem, ⟨same.tag.trans same'.tag, same.core.trans same'.core, same.id.trans same'.id, same.pre.trans same'.pre⟩, fun fresh => ?_⟩
  obtain ⟨fresh', away⟩ := kept fresh
  obtain ⟨fresh'', away'⟩ := kept' fresh'
  exact ⟨fresh'', fun mem => (List.mem_append.mp mem).elim away' (fun mem => away (same'.tag ▸ mem))⟩

theorem State.pumpOne_left (s : State) (x : Txn) : TxnsLeft [] s.txns (s.pumpOne x).txns := by
  rw [State.pumpOne_eq]
  refine iteInduction (motive := fun t : State => TxnsLeft [] s.txns t.txns) (fun _ => ?_) (fun _ => .refl _)
  have sent : (if x.pkt.cls.val = 0 then (s.winCharge x.pkt.dst x.charge).sendC0 x.core x.pkt else ((s.winCharge x.pkt.dst x.charge).inject x.pkt, true)).1.txns = s.txns := by
    split
    · unfold State.sendC0
      dsimp only
      split <;> rfl
    · rfl
  unfold pumpSent
  dsimp only
  rw [sent]
  intro y mem
  obtain ⟨z, zmem, rfl⟩ := List.mem_map.mp mem
  refine ⟨z, zmem, ?_, fun fresh => ⟨?_, List.not_mem_nil⟩⟩
  · split <;> exact ⟨rfl, rfl, rfl, rfl⟩
  · revert fresh
    split <;> exact id

theorem State.pumpWindow_left (s : State) : TxnsLeft [] s.txns s.pumpWindow.txns := by
  rw [State.pumpWindow_eq]
  exact foldl_keeps (fun t : State => TxnsLeft [] s.txns t.txns) _ (fun t x h => h.trans (t.pumpOne_left x)) _ s (.refl _)

theorem closedTxns_left (tag : Nat) (l : List Txn) : TxnsLeft [tag] l (closedTxns tag l) := by
  intro y mem
  obtain ⟨z, zmem, rfl⟩ := List.mem_map.mp mem
  refine ⟨z, List.mem_of_mem_filter zmem, ?_, ?_⟩
  · split <;> exact ⟨rfl, rfl, rfl, rfl⟩
  · by_cases same : z.tag = tag
    · rw [if_pos (by simpa using same)]
      exact fun fresh => by cases fresh
    · rw [if_neg (by simpa using same)]
      exact fun fresh => ⟨fresh, by simpa using same⟩

theorem State.closeTxnWin_left (s : State) (tag win : Nat) : TxnsLeft [tag] s.txns (s.closeTxnWin tag win).txns := by
  have released : (s.released tag win).txns = s.txns := by
    unfold State.released
    split <;> rfl
  rw [State.closeTxnWin_eq]
  have closed := closedTxns_left tag (s.released tag win).txns
  rw [released] at closed ⊢
  have purged : TxnsLeft [] (closedTxns tag s.txns) ({ s.released tag win with txns := closedTxns tag s.txns } : State).purgeTxns.txns :=
    fun y mem => ⟨y, List.mem_of_mem_filter mem, ⟨rfl, rfl, rfl, rfl⟩, fun fresh => ⟨fresh, List.not_mem_nil⟩⟩
  exact (closed.trans purged).trans (State.pumpWindow_left _)

theorem State.cutAll_left (s : State) (xs : List Txn) : TxnsLeft (xs.map Txn.tag) s.txns (s.cutAll xs).txns := by
  induction xs generalizing s with
  | nil => exact .refl _
  | cons x xs ih =>
    have first : TxnsLeft [x.tag] s.txns (s.cutTxn x).txns := State.closeTxnWin_left _ _ _
    exact first.trans (ih (s.cutTxn x))

/-- An instruction's requests have all been cut. -/
theorem State.mates_cut (s : State) (c id : Nat) : ∀ y ∈ (s.cutAll (s.mates c id)).txns, y.core = c → y.id = id → y.pre = none → y.spent = true := by
  intro y mem core named own
  obtain ⟨z, zmem, same, kept⟩ := s.cutAll_left _ y mem
  by_contra fresh
  obtain ⟨zfresh, away⟩ := kept (by simpa using fresh)
  refine away (List.mem_map.mpr ⟨z, List.mem_filter.mpr ⟨zmem, ?_⟩, rfl⟩)
  rw [← same.core, ← same.id, ← same.pre, core, named, own, zfresh]
  simp

/-! ### A target that does not answer (R98, R421) -/

theorem State.spWrite_congr {s t : State} (cores : t.cores = s.cores) (c off : Nat) (bs : List Byte) : (t.spWrite c off bs).cores = (s.spWrite c off bs).cores := by
  unfold State.spWrite State.modCore
  dsimp only
  rw [cores, State.core_congr cores]

/-- What poison fills depends on the cores alone. -/
theorem State.poison_congr {s t : State} (cores : t.cores = s.cores) (c : Nat) (e : Entry) : (t.poison c e).cores = (s.poison c e).cores := by
  unfold State.poison
  split
  · unfold State.poisonTile
    dsimp only
    generalize Tile.ranges _ = l
    induction l generalizing s t with
    | nil => exact cores
    | cons r l ih => exact ih (State.spWrite_congr cores c r.1 _)
  · split
    · exact cores
    · exact State.spWrite_congr cores c _ _
  · exact State.spWrite_congr cores c _ _
  · exact cores

/-- A write to a core's scratchpad that keeps its window and the other cores. -/
structure State.SpWritten (s t : State) (c : Nat) : Prop where
  window : (t.core c).window = (s.core c).window
  others : ∀ d, d ≠ c → t.core d = s.core d

theorem State.SpWritten.refl (s : State) (c : Nat) : s.SpWritten s c := ⟨rfl, fun _ _ => rfl⟩

theorem State.SpWritten.trans {s t u : State} {c : Nat} (a : s.SpWritten t c) (b : t.SpWritten u c) : s.SpWritten u c :=
  ⟨b.window.trans a.window, fun d apart => (b.others d apart).trans (a.others d apart)⟩

theorem State.spWrite_written (s : State) {c : Nat} (known : c < 48) (off : Nat) (bs : List Byte) : s.SpWritten (s.spWrite c off bs) c := by
  refine ⟨?_, fun d apart => State.core_modCore_ne _ _ _ _ apart⟩
  unfold State.spWrite
  rw [State.core_modCore _ _ _ known]
  rfl

theorem State.poison_written (s : State) {c : Nat} (known : c < 48) (e : Entry) : s.SpWritten (s.poison c e) c := by
  unfold State.poison
  split
  · exact foldl_keeps (fun t => s.SpWritten t c) _ (fun t r h => h.trans (t.spWrite_written known _ _)) _ s (.refl s c)
  · split
    · exact .refl s c
    · exact s.spWrite_written known _ _
  · exact s.spWrite_written known _ _
  · exact .refl s c

theorem State.poison_txns (s : State) (c : Nat) (e : Entry) : (s.poison c e).txns = s.txns := by
  unfold State.poison
  split
  · exact foldl_same State.txns (fun (t : State) (r : Nat × Nat) => t.spWrite c r.1 _) (fun _ _ => rfl) _ s
  · split <;> rfl
  · rfl
  · rfl

/-- The effect of a dead target on an instruction. -/
theorem State.targetDead_effect {s : State} {c id : Nat} {e : Entry} (found : (s.core c).entry? id = some e) :
    (∃ g, ((s.targetDead c id).core c).entry? id = some g ∧ g.phase = .done Status.targetDead ∧ g.op = e.op)
    ∧ (∀ y ∈ (s.targetDead c id).txns, y.core = c → y.id = id → y.pre = none → y.spent = true)
    ∧ ((s.targetDead c id).core c).sp = ((s.poison c e).core c).sp ∧ (∀ d, d ≠ c → (s.targetDead c id).core d = s.core d) := by
  have known := State.entry_core found
  have cut := s.mates_cut c id
  have cores := (s.cutAll_onlyPumped (s.mates c id)).cores
  rw [State.targetDead_eq]
  generalize s.cutAll (s.mates c id) = t at cut cores
  have found' : (t.core c).entry? id = some e := by rw [State.core_congr cores, found]
  rw [found']
  dsimp only
  have written := t.poison_written known e
  have poisoned := State.poison_congr cores c e
  have txns := t.poison_txns c e
  generalize t.poison c e = v at written poisoned txns
  have entry : (v.core c).entry? id = some e := by
    unfold Core.entry? at found' ⊢
    rw [written.window, found']
  refine ⟨⟨_, State.modEntry_found _ (fun _ => rfl) entry, rfl, rfl⟩, ?_, ?_, fun d apart => ?_⟩
  · have same : (v.modEntry c id Entry.targetDead).txns = t.txns := txns
    rw [same]
    exact cut
  · rw [State.modEntry_sp, State.core_congr poisoned]
  · rw [State.modEntry_core_ne _ _ _ _ _ apart, written.others d apart, State.core_congr cores]

theorem State.outstanding_some {s : State} {tag : Nat} {x : Txn} (found : s.outstanding tag = some x) : x.pkt.typ.val ≠ PT.kvUpdate := by
  have h := List.find?_some found
  simp only [Bool.and_eq_true, bne_iff_ne] at h
  exact h.2

/-- The record of a request that has had no reply. -/
def State.deadRecorded (s : State) (x : Txn) (tag : Nat) : State :=
  s.raise { Fault_.blank 0 Status.targetDead 0x0904 with core := x.core, job := x.pkt.job, other := x.pkt.dst, info0 := BitVec.ofNat 64 tag }

theorem State.deadRecorded_cores (s : State) (x : Txn) (tag : Nat) : (s.deadRecorded x tag).cores = s.cores := (s.raise_onlyRecords _).cores

/-- A multicast that is complete keeps the destinations that it has noted. -/
theorem State.mcAnswered_all {s : State} {x : Txn} (plain : x.pkt.typ.val ≠ PT.kvUpdate) {e : Entry} (found : (s.core x.core).entry? x.id = some e) :
    ∃ g, ((s.mcAnswered x x.mcLeft).core x.core).entry? x.id = some g ∧ g.missed = e.missed := by
  have cores := (s.closeTxn_onlyPumped x.tag).cores
  have found' : ((s.closeTxn x.tag).core x.core).entry? x.id = some e := by rw [State.core_congr cores, found]
  have none_ : x.mcLeft.filter (fun m => !x.mcLeft.contains m) = [] := by
    refine List.filter_eq_nil_iff.mpr fun m mem => ?_
    simp [mem]
  have known := State.entry_core found
  unfold State.mcAnswered
  dsimp only
  rw [none_, if_pos ⟨rfl, plain⟩, found']
  dsimp only
  generalize s.closeTxn x.tag = t at found' ⊢
  have kept : ∀ (u : State) (f : Entry → Entry), (∀ y, (f y).id = y.id ∧ (f y).missed = y.missed) → (∃ g, (u.core x.core).entry? x.id = some g ∧ g.missed = e.missed) →
      ∃ g, ((u.modEntry x.core x.id f).core x.core).entry? x.id = some g ∧ g.missed = e.missed := by
    rintro u f same ⟨g, entry, missed⟩
    exact ⟨f g, u.modEntry_found (fun y => (same y).1) entry, ((same g).2).trans missed⟩
  split
  · rename_i rd _ _ _
    split
    · have finished : ∃ g, ((t.finishMc x.core x.id rd).core x.core).entry? x.id = some g ∧ g.missed = e.missed := by
        rw [State.finishMc_found found']
        refine kept _ _ (fun _ => ⟨rfl, rfl⟩) ⟨e, ?_, rfl⟩
        have written := t.spWrite_written known rd.toNat (missReport e.missed)
        unfold Core.entry? at found' ⊢
        rw [written.window, found']
      split
      · refine kept _ _ (fun y => ?_) finished
        split <;> exact ⟨rfl, rfl⟩
      · exact finished
    · exact kept t _ (fun _ => ⟨rfl, rfl⟩) ⟨e, found', rfl⟩
  · exact ⟨e, found', rfl⟩

section Timeout
variable {s : State} {tag : Nat} {x : Txn} {e : Entry} (awake : s.failed = false) (found : s.outstanding tag = some x)
  (entry : (s.core x.core).entry? x.id = some e)

theorem exec_requestTimeout_due (awake : s.failed = false) (found : s.outstanding tag = some x) (late : x.heard + State.msTicks 10 ≤ s.clock) :
    exec (.requestTimeout tag) s = .next (if PT.multicast x.pkt.typ.val
      then ((s.deadRecorded x tag).noteMisses x.core x.id x.mcLeft).mcAnswered x x.mcLeft else (s.deadRecorded x tag).deadTxn x x.pkt.dst) := by
  change execRequestTimeout tag s = _
  unfold execRequestTimeout
  rw [found]
  refine congrArg Host.Outcome.next (if_neg ?_)
  simp only [awake, Bool.false_or, decide_eq_true_eq]
  omega

include awake found entry

theorem exec_requestTimeout_one (late : x.heard + State.msTicks 10 ≤ s.clock) (own : x.pre = none) (uni : PT.multicast x.pkt.typ.val = false) :
    ∃ u : State, exec (.requestTimeout tag) s = .next u
      ∧ (∃ g, (u.core x.core).entry? x.id = some g ∧ g.phase = .done Status.targetDead ∧ g.op = e.op)
      ∧ (∀ y ∈ u.txns, y.core = x.core → y.id = x.id → y.pre = none → y.spent = true)
      ∧ (u.core x.core).sp = ((s.poison x.core e).core x.core).sp ∧ (∀ c, c ≠ x.core → u.core c = s.core c) := by
  have runs := exec_requestTimeout_due awake found late
  have cores := s.deadRecorded_cores x tag
  rw [if_neg (by rw [uni]; decide)] at runs
  generalize s.deadRecorded x tag = t at runs cores
  have dead : t.deadTxn x x.pkt.dst = t.targetDead x.core x.id := by
    unfold State.deadTxn
    rw [uni, own]
    rfl
  rw [dead] at runs
  have entry' : (t.core x.core).entry? x.id = some e := by rw [State.core_congr cores, entry]
  obtain ⟨done, spent, sp, others⟩ := State.targetDead_effect entry'
  refine ⟨_, runs, done, spent, ?_, fun c apart => (others c apart).trans (State.core_congr cores c)⟩
  rw [sp, State.core_congr (State.poison_congr cores x.core e)]

theorem exec_requestTimeout_mc (late : x.heard + State.msTicks 10 ≤ s.clock) (multi : PT.multicast x.pkt.typ.val = true) :
    ∃ (u : State) (g : Entry), exec (.requestTimeout tag) s = .next u ∧ (u.core x.core).entry? x.id = some g
      ∧ ∀ m ∈ x.mcLeft, (Tab.get g.missed 0 (rackBit m)).getLsbD (inRackBit m) = true := by
  have runs := exec_requestTimeout_due awake found late
  have cores := s.deadRecorded_cores x tag
  rw [if_pos multi] at runs
  generalize s.deadRecorded x tag = t at runs cores
  have noted := State.noteMisses_noted (s := t) (by rw [State.core_congr cores, entry]) x.mcLeft
  obtain ⟨g, entry', missed⟩ := State.mcAnswered_all (State.outstanding_some found) noted.entry
  refine ⟨_, g, runs, entry', fun m mem => ?_⟩
  rw [missed]
  exact e.misses_mem mem

end Timeout

theorem exec_requestTimeout_early {s : State} {tag : Nat} {x : Txn} (found : s.outstanding tag = some x) (early : s.clock < x.heard + State.msTicks 10) :
    exec (.requestTimeout tag) s = .next s := by
  change execRequestTimeout tag s = _
  unfold execRequestTimeout
  rw [found]
  exact congrArg Host.Outcome.next (if_pos (by rw [decide_eq_true early, Bool.or_true]))

theorem exec_request_none {s : State} {tag : Nat} (none_ : s.outstanding tag = none) :
    exec (.requestResend tag) s = .next s ∧ exec (.requestTimeout tag) s = .next s := by
  constructor
  · change execRequestResend tag s = _
    unfold execRequestResend
    rw [none_]
  · change execRequestTimeout tag s = _
    unfold execRequestTimeout
    rw [none_]

/-! ### A request leaves again (R418) -/

/-- A replay's note changes no packet, no transaction and no core. -/
structure State.Noted (s t : State) : Prop where
  held   : t.held = s.held
  c0Held : t.c0Held = s.c0Held
  txns   : t.txns = s.txns
  cores  : t.cores = s.cores

theorem State.raise_noted (s : State) (f : Fault_) : s.Noted (s.raise f) := by
  have records := s.raise_onlyRecords f
  exact ⟨(congrArg State.held records.eq :), (congrArg State.c0Held records.eq :), (congrArg State.txns records.eq :), records.cores⟩

theorem State.noteReplay_noted (s : State) (c dst : Nat) : s.Noted (s.noteReplay c dst) := by
  have counted : s.Noted (s.bumpK Reg.ERR_STAT_REPLAY_K 1) := ⟨rfl, rfl, rfl, rfl⟩
  have with_ : ∀ (t : State) (l : Tab (Nat × Nat)), s.Noted t → s.Noted { t with replays := l } := fun t l h => ⟨h.held, h.c0Held, h.txns, h.cores⟩
  have raised : ∀ (t : State) (f : Fault_), s.Noted t → s.Noted (t.raise f) := by
    intro t f h
    have r := t.raise_noted f
    exact ⟨r.held.trans h.held, r.c0Held.trans h.c0Held, r.txns.trans h.txns, r.cores.trans h.cores⟩
  unfold State.noteReplay
  dsimp only
  generalize s.bumpK Reg.ERR_STAT_REPLAY_K 1 = t at counted
  split
  · exact raised _ _ (with_ _ _ counted)
  · split
    · exact with_ _ _ counted
    · exact counted

/-- The transactions of a TAG whose request has left again. -/
def State.resentAt (s : State) (tag : Nat) : State :=
  { s with txns := s.txns.map (fun (y : Txn) => if y.tag == tag then { y with resent := true, last := s.clock } else y) }

theorem State.sendFree_kept (s : State) (c : Nat) (p : Packet) : (s.sendFree c p).txns = s.txns ∧ (s.sendFree c p).cores = s.cores := by
  unfold State.sendFree State.sendC0
  dsimp only
  split
  · split <;> exact ⟨rfl, rfl⟩
  · exact ⟨rfl, rfl⟩

theorem State.again_cls (s : State) (x : Txn) : (s.again x).cls = x.pkt.cls := by
  unfold State.again
  split <;> rfl

section Resend
variable {s : State} {tag : Nat} {x : Txn} (awake : s.failed = false) (found : s.outstanding tag = some x)
include awake found

theorem exec_requestResend_due (due : x.last + State.usTicks 300 ≤ s.clock) (clean : (s.core x.core).badIn x.source = none) :
    exec (.requestResend tag) s = .next (((s.resentAt tag).sendFree x.core (s.again x)).noteReplay x.core x.pkt.dst) := by
  change execRequestResend tag s = _
  unfold execRequestResend
  rw [found]
  dsimp only
  rw [clean]
  refine congrArg Host.Outcome.next (if_neg ?_)
  simp only [awake, Bool.false_or, decide_eq_true_eq]
  omega

theorem exec_requestResend_sends (due : x.last + State.usTicks 300 ≤ s.clock) (clean : (s.core x.core).badIn x.source = none) :
    ∃ u : State, exec (.requestResend tag) s = .next u
      ∧ u.held = ((s.resentAt tag).sendFree x.core (s.again x)).held ∧ u.c0Held = ((s.resentAt tag).sendFree x.core (s.again x)).c0Held
      ∧ u.txns = (s.resentAt tag).txns ∧ u.cores = s.cores
      ∧ (x.pkt.cls.val ≠ 0 → u.held = s.held ++ [{ pkt := s.again x, arrived := none, buf := 0, due := 0, started := false }]) := by
  obtain ⟨txns, cores⟩ := (s.resentAt tag).sendFree_kept x.core (s.again x)
  have noted := ((s.resentAt tag).sendFree x.core (s.again x)).noteReplay_noted x.core x.pkt.dst
  refine ⟨_, exec_requestResend_due awake found due clean, noted.held, noted.c0Held, noted.txns.trans txns, noted.cores.trans cores, fun notC0 => ?_⟩
  rw [noted.held]
  have sent : (s.resentAt tag).sendFree x.core (s.again x) = (s.resentAt tag).inject (s.again x) := if_neg (by rw [s.again_cls]; exact notC0)
  rw [sent]
  rfl

theorem exec_requestResend_bad {e : Entry} (due : x.last + State.usTicks 300 ≤ s.clock) (bad : (s.core x.core).badIn x.source ≠ none)
    (uni : PT.multicast x.pkt.typ.val = false) (entry : (s.core x.core).entry? x.id = some e) (clean : e.bad = 0) :
    ∃ (u : State) (g : Entry), exec (.requestResend tag) s = .next u ∧ (u.core x.core).entry? x.id = some g ∧ g.bad = Status.eccUncorrected := by
  obtain ⟨w, hw⟩ := Option.ne_none_iff_exists'.mp bad
  have runs : exec (.requestResend tag) s = .next (s.againBad x w) := by
    change execRequestResend tag s = _
    unfold execRequestResend
    rw [found]
    dsimp only
    rw [hw]
    refine congrArg Host.Outcome.next (if_neg ?_)
    simp only [awake, Bool.false_or, decide_eq_true_eq]
    omega
  have cores := (s.cutTxn_onlyPumped x).cores
  unfold State.againBad at runs
  dsimp only at runs
  rw [if_neg (by rw [uni]; decide)] at runs
  generalize s.cutTxn x = t at runs cores
  have entry' : (t.core x.core).entry? x.id = some e := by rw [State.core_congr cores, entry]
  have marked := t.modEntry_found (g := fun e => if e.bad = 0 then
    { e with cause := 0x0202, addr := BitVec.ofNat 64 w, info := BitVec.ofNat 64 spSP, bad := Status.eccUncorrected } else e) (fun y => by split <;> rfl) entry'
  rw [if_pos clean] at marked
  generalize State.modEntry t x.core x.id _ = v at runs marked
  have answered := v.modEntry_found (g := fun e => e.takesPart (v.lateCopy x.core x.id) Status.eccUncorrected) (fun y => y.takesPart_id _ _) marked
  refine ⟨_, _, runs, answered, ?_⟩
  have kept : ∀ (y : Entry) (late : Bool) (st : Nat), (y.takesPart late st).bad = (y.partDone st).bad := by
    intro y late st
    unfold Entry.takesPart
    split
    · split <;> rfl
    · rfl
  have part : ∀ (y : Entry) (st : Nat), y.bad ≠ 0 → (y.partDone st).bad = y.bad := by
    intro y st ne
    unfold Entry.partDone
    rw [if_neg ne]
    dsimp only
    split <;> rfl
  rw [kept]
  exact part _ _ (show Status.eccUncorrected ≠ 0 by decide)

omit awake in
theorem exec_requestResend_early (early : s.clock < x.last + State.usTicks 300) : exec (.requestResend tag) s = .next s := by
  change execRequestResend tag s = _
  unfold execRequestResend
  rw [found]
  exact congrArg Host.Outcome.next (if_pos (by rw [decide_eq_true early, Bool.or_true]))

end Resend

/-! ### Holds, rows and counts (R419, R420, R424) -/

theorem exec_holdNotice_marks (tag : Nat) (s : State) : ∃ u : State, exec (.holdNotice tag) s = .next u ∧ u = { s with txns := u.txns, hubIn := u.hubIn }
    ∧ u.txns = s.txns.map (fun (x : Txn) => if x.tag == tag && !x.held && !x.spent then { x with heard := s.clock, last := s.clock } else x) := by
  have taken := s.takeNotice_eq 6
  have runs : exec (.holdNotice tag) s = .next { s.takeNotice 6 with
      txns := (s.takeNotice 6).txns.map (fun (x : Txn) => if x.tag == tag && !x.held && !x.spent then { x with heard := (s.takeNotice 6).clock, last := (s.takeNotice 6).clock } else x) } := rfl
  generalize (s.takeNotice 6).hubIn = hub at taken
  rw [taken] at runs
  exact ⟨_, runs, rfl, rfl⟩

/-- A packet as the hub hands it to the router. -/
def hubHeld (p : Packet) : Held := { pkt := p, arrived := none, buf := 0, due := 0, started := false }

theorem State.inject_many (s : State) {α : Type} (l : List α) (f : State → α → Packet) (same : ∀ (t : State) (held : List Held) a, f { t with held := held } a = f t a) :
    l.foldl (fun s a => s.inject (f s a)) s = { s with held := s.held ++ l.map (fun a => hubHeld (f s a)) } := by
  induction l generalizing s with
  | nil => simp
  | cons a l ih =>
    rw [List.foldl_cons, ih]
    have step : ∀ b, f (s.inject (f s a)) b = f s b := fun b => same s _ b
    simp only [step]
    have joined : (s.inject (f s a)).held ++ l.map (fun a => hubHeld (f s a)) = s.held ++ (a :: l).map (fun a => hubHeld (f s a)) := by
      change (s.held ++ [hubHeld (f s a)]) ++ _ = _
      rw [List.append_assoc]
      rfl
    exact congrArg (fun h : List Held => { s with held := h }) joined

theorem exec_holdNoticeSend_sends {s : State} (awake : s.failed = false) : ∃ u : State, exec .holdNoticeSend s = .next u ∧ u = { s with held := u.held }
    ∧ u.held = s.held ++ s.heldFor.map (fun h => hubHeld (s.ctl PT.notice 1 h.1 0 0 0 (leBytes 10 6 ++ leBytes 2 h.2))) := by
  have runs : exec .holdNoticeSend s = .next (s.heldFor.foldl (fun s h => s.inject (s.ctl PT.notice 1 h.1 0 0 0 (leBytes 10 6 ++ leBytes 2 h.2))) s) :=
    congrArg Host.Outcome.next (if_neg (by rw [awake]; decide))
  rw [State.inject_many s s.heldFor (fun s h => s.ctl PT.notice 1 h.1 0 0 0 (leBytes 10 6 ++ leBytes 2 h.2))
    (fun t held a => State.ctl_congr (s := t) (t := { t with held := held }) (State.modNum_congr rfl rfl) _ _ _ _ _ _ _)] at runs
  exact ⟨_, runs, rfl, rfl⟩

theorem exec_dedupRowGrant_one {s : State} {src : Nat} {p : Packet} (awake : s.failed = false) (waits : s.dedupWait = [p]) (own : p.src = src)
    (room : (s.dedupRow src).isSome = true ∨ s.dedup.length < 512) :
    exec (.dedupRowGrant src) s = .next ({ s with dedupWait := [] }.serveOp p) := by
  have hears : ¬ (s.deaf || (s.dedupRow src).isNone && decide (s.dedup.length ≥ 512)) = true := by
    have deaf : s.deaf = false := awake
    rw [deaf]
    rcases room with row | few
    · rw [← Option.not_isSome, row]
      simp
    · simp [few]
  change execDedupRowGrant src s = _
  unfold execDedupRowGrant
  rw [if_neg hears, waits]
  have mine : ([p].filter (fun (p : Packet) => p.src == src)) = [p] := by simp [own]
  have rest : ([p].filter (fun (p : Packet) => p.src != src)) = [] := by simp [own]
  dsimp only
  rw [mine, rest]
  rfl

theorem exec_padlockSet_none {s : State} {m : Nat} (none_ : m ∉ s.padDue) : exec (.padlockSet m) s = .next s := by
  refine congrArg Host.Outcome.next (if_pos ?_)
  have absent : s.padDue.contains m = false := by simpa using none_
  rw [absent]
  exact Bool.or_true _

/-! ### Settling the obligation -/

/-- Settles O43: ending requests touches packets, transactions, windows and cores alone (`State.OnlyClosed`), and what is left of the
table of transactions is followed entry by entry (`TxnsLeft`). -/
theorem requestsAreKeptUntilAnswered : Obligations.RequestsAreKeptUntilAnswered := by
  unfold Obligations.RequestsAreKeptUntilAnswered
  intro tag src sigref m s
  refine ⟨exec_holdNotice_marks tag s, exec_holdNoticeSend_sends, fun x awake found => ?_, exec_request_none, fun p awake waits own room => exec_dedupRowGrant_one awake waits own room, rfl, rfl,
    fun known awake due => exec_padlockSet_due known awake due, exec_padlockSet_none⟩
  dsimp only
  refine ⟨fun due clean => exec_requestResend_sends awake found due clean, fun e due bad uni entry clean => exec_requestResend_bad awake found due bad uni entry clean,
    exec_requestResend_early found, fun e late own uni entry => exec_requestTimeout_one awake found entry late own uni,
    fun e late multi entry => exec_requestTimeout_mc awake found entry late multi, exec_requestTimeout_early found⟩

end Sys2Proof.Machine
end


section
/-! An atomic operation of another module that comes again while the LPDDR channel of its word is out of service (R94, R362, R419). -/

namespace Sys2Proof.Machine

/-- An atomic operation of module 0 on the first word of LM, with operation identifier 0. -/
def atomOnLm : Packet := { blankPkt with typ := 8 }

/-- The first channel of LM retrains, and module 0's operation 0 has been applied with old value 0. -/
def retrainsApplied : State :=
  { State.reset.wr (Reg.LMC_CH_STATE 0 0) 1 with dedup := [{ src := 0, ids := [(0, 0, 0)], last := 0 }] }

/-- How many requests the hub holds after a step. -/
def heldAfter (o : Host.Outcome State Fault Refusal) : Nat :=
  match o with
  | .next u => u.heldReqs.length
  | _ => 0

/-- The request is held for its channel before its identifier is looked up. -/
theorem atomPacket_waits : heldAfter (exec (.atomPacket atomOnLm []) retrainsApplied) = 1 := by decide +kernel

/-- Refutes O41: an ATOM on a word of LM whose channel is out of service is held before its OPID is looked up, so that an operation
already applied is not answered at once. -/
theorem not_requestsAreServedAtTheirHome : ¬ Obligations.RequestsAreServedAtTheirHome := by
  unfold Obligations.RequestsAreServedAtTheirHome
  intro served
  obtain ⟨-, -, -, -, -, again⟩ := served atomOnLm 0 retrainsApplied (by decide +kernel) (by decide +kernel)
  have answered := again 0 0 (by decide +kernel) (by decide +kernel)
  have held := atomPacket_waits
  rw [answered] at held
  exact absurd held (by decide +kernel)

end Sys2Proof.Machine
end


section
/-! A boot in which the two ends of every leaf link disagree on the widths of three of its modules (R344, R386, R388). -/

namespace Sys2Proof.Machine

/-! ### Training of one leaf leaves the state of the others -/

/-- From the one state to the other no task has come or gone, and only leaf `l` has changed the state of its link. -/
structure State.TrainsOnly (l : Nat) (s t : State) : Prop where
  tasks : t.tasks = s.tasks
  state : ∀ j < 4, j ≠ l → t.rd (Reg.LL_STATE_STATE j) = s.rd (Reg.LL_STATE_STATE j)

theorem State.TrainsOnly.refl (l : Nat) (s : State) : s.TrainsOnly l s := ⟨rfl, fun _ _ _ => rfl⟩

theorem State.TrainsOnly.trans {l : Nat} {s t u : State} (a : State.TrainsOnly l s t) (b : State.TrainsOnly l t u) : State.TrainsOnly l s u :=
  ⟨b.tasks.trans a.tasks, fun j known apart => (b.state j known apart).trans (a.state j known apart)⟩

theorem State.trainsOnly_of {s t : State} (l : Nat) (tasks : t.tasks = s.tasks) (regs : t.regs = s.regs) : State.TrainsOnly l s t :=
  ⟨tasks, fun _ _ _ => s.rd_congr t _ regs⟩

/-- Register fields of the other leaves' link states. -/
theorem State.wr_trainsOnly (l : Nat) (s : State) {f : Fld} (v : Nat) (apart : ∀ j < 4, j ≠ l → (Reg.LL_STATE_STATE j).key ≠ f.key) : State.TrainsOnly l s (s.wr f v) :=
  ⟨rfl, fun j known other => s.rd_wr_ne _ _ _ (apart j known other)⟩

/-- A field of the link registers of leaf `l`. -/
theorem State.wrLink_trainsOnly (l : Nat) (s : State) {r lo w rst : Nat} (v : Nat) (low : lo < 64) (link : r < 0x800000) :
    State.TrainsOnly l s (s.wr ⟨0x02300000 + r + l * 0x800000, lo, w, rst⟩ v) :=
  State.wr_trainsOnly l s v fun j known other => by
    simp only [Reg.LL_STATE_STATE, Reg.LL_STATE, Fld.key]
    omega

theorem State.raise_trainsOnly (l : Nat) (s : State) (f : Fault_) : State.TrainsOnly l s (s.raise f) :=
  ⟨s.raise_tasks f, fun _ _ _ => s.raise_rd f (leafField_beyondRecords (r := 8) (by decide))⟩

theorem State.modUcie_trainsOnly (l : Nat) (s : State) (m : Nat) (f : Ucie → Ucie) : State.TrainsOnly l s (s.modUcie l m f) := State.trainsOnly_of l rfl rfl

theorem State.recountSpares_trainsOnly (l : Nat) (s : State) (m : Nat) : State.TrainsOnly l s (s.recountSpares l m) :=
  s.wrLink_trainsOnly l (r := 0x18) _ (by decide) (by decide)

theorem State.recountLeaf_trainsOnly (l : Nat) (s : State) : State.TrainsOnly l s (s.recountLeaf l) :=
  (((s.wrLink_trainsOnly l (r := 8) _ (by decide) (by decide)).trans (State.wrLink_trainsOnly l _ (r := 8) _ (by decide) (by decide))).trans
    (State.wrLink_trainsOnly l _ (r := 8) _ (by decide) (by decide))).trans (State.wrLink_trainsOnly l _ (r := 8) _ (by decide) (by decide))

theorem State.degradeRecord_trainsOnly (l : Nat) (s : State) (m old new : Nat) : State.TrainsOnly l s (s.degradeRecord l m old new) :=
  iteInduction (motive := State.TrainsOnly l s) (fun _ => .refl l s) (fun _ => s.raise_trainsOnly l _)

theorem State.repairLanes_trainsOnly (l : Nat) (s : State) (m : Nat) (ls : List Nat) : State.TrainsOnly l s (s.repairLanes l m ls) :=
  foldl_keeps (State.TrainsOnly l s) _
    (fun t _ h => h.trans ((t.wrLink_trainsOnly l (r := 0x18) _ (by decide) (by decide)).trans (State.raise_trainsOnly l _ _))) ls s (.refl l s)

theorem State.width_trainsOnly (l : Nat) (s : State) {m : Nat} (v : Nat) (one : m < 32) : State.TrainsOnly l s (s.wr (Reg.LL_WIDTH_MOD l m) v) :=
  s.wrLink_trainsOnly l (r := 0x10) v (by omega) (by decide)

theorem State.applyTest_trainsOnly (l : Nat) (s : State) {m : Nat} (t : LaneTest) (one : m < 32) : State.TrainsOnly l s (s.applyTest l m t) := by
  rw [State.applyTest_eq]
  have tested : State.TrainsOnly l s (s.testedAt l m t) := (s.modUcie_trainsOnly l m _).trans (State.width_trainsOnly l _ _ one)
  exact (((tested.trans (State.repairLanes_trainsOnly l _ m _)).trans (State.degradeRecord_trainsOnly l _ m _ _)).trans
    (State.recountSpares_trainsOnly l _ m)).trans (State.recountLeaf_trainsOnly l _)

/-- The second training of a module whose two ends disagree. -/
def State.trainedAgain (s : State) (l m : Nat) (r : ModuleReport) : State :=
  (((s.wr (Reg.LL_STATE_DISAGREE l) (min 3 (s.rd (Reg.LL_STATE_DISAGREE l) + 1))).modUcie l m (fun _ => Ucie.reset)).wr (Reg.LL_WIDTH_MOD l m) 0).applyTest l m r.again

/-- The module runs at the narrower of the widths that the ends then report. -/
def State.narrowed (s : State) (l m new : Nat) : State :=
  (((((s.wr (Reg.LL_WIDTH_MOD l m) new).modUcie l m (fun u => { u with disabled := new == 3 })).degradeRecord l m (s.width l m) new).recountSpares l m).recountLeaf l)

theorem State.disagree_eq (s : State) (l m : Nat) (r : ModuleReport) :
    s.disagree l m r = (s.trainedAgain l m r).narrowed l m (narrower (narrower r.hubNext r.leafNext) ((s.trainedAgain l m r).width l m)) := rfl

theorem State.disagree_trainsOnly (l : Nat) (s : State) {m : Nat} (r : ModuleReport) (one : m < 32) : State.TrainsOnly l s (s.disagree l m r) := by
  rw [State.disagree_eq]
  have again : State.TrainsOnly l s (s.trainedAgain l m r) :=
    (((s.wrLink_trainsOnly l (r := 8) _ (by decide) (by decide)).trans (State.modUcie_trainsOnly l _ m _)).trans (State.width_trainsOnly l _ _ one)).trans
      (State.applyTest_trainsOnly l _ _ one)
  generalize s.trainedAgain l m r = a at again ⊢
  exact ((((again.trans (State.width_trainsOnly l _ _ one)).trans (State.modUcie_trainsOnly l _ m _)).trans (State.degradeRecord_trainsOnly l _ m _ _)).trans
    (State.recountSpares_trainsOnly l _ m)).trans (State.recountLeaf_trainsOnly l _)

/-! ### Every disagreement counts, until the leaf is withdrawn -/

/-- The field that counts a leaf link's disagreements lies apart from the fields of a lane test. -/
theorem disagree_apart (l m : Nat) : ∀ f ∈ testFields l m, (Reg.LL_STATE_DISAGREE l).key ≠ f.key := by
  simp only [testFields, List.forall_mem_cons, List.not_mem_nil, false_implies, implies_true, and_true, Fld.key, Reg.LL_WIDTH_MOD, Reg.LL_WIDTH, Reg.LL_STATE_FULL, Reg.LL_STATE_HALF,
    Reg.LL_STATE_DISABLED, Reg.LL_STATE_RATE_64THS, Reg.LL_STATE, Reg.LL_SPARE_REPAIRS, Reg.LL_SPARE_EXHAUSTED, Reg.LL_SPARE, Reg.LL_STATE_DISAGREE]
  omega

theorem disagree_beyondRecords (l : Nat) : (Reg.LL_STATE_DISAGREE l).BeyondRecords := leafField_beyondRecords (r := 8) (by decide)

theorem State.applyTest_disagree (s : State) {l m : Nat} (t : LaneTest) (leaf : l < 4) (one : m < 32) :
    (s.applyTest l m t).rd (Reg.LL_STATE_DISAGREE l) = s.rd (Reg.LL_STATE_DISAGREE l) :=
  (s.applyTest_tested t leaf one).rd _ (disagree_beyondRecords l) (disagree_apart l m)

theorem State.narrowed_disagree (s : State) (l m new : Nat) : (s.narrowed l m new).rd (Reg.LL_STATE_DISAGREE l) = s.rd (Reg.LL_STATE_DISAGREE l) := by
  have apart := disagree_apart l m
  simp only [testFields, List.forall_mem_cons, List.not_mem_nil, false_implies, implies_true, and_true] at apart
  obtain ⟨width, -, exhausted, full, half, off, rate⟩ := apart
  unfold State.narrowed
  rw [(State.recountLeaf_counted _ l).rd _ (by simp only [List.forall_mem_cons, List.not_mem_nil, false_implies, implies_true, and_true]; exact ⟨full, half, off, rate⟩)]
  refine (State.rd_wr_ne _ _ _ _ exhausted).trans ((State.degradeRecord_rd _ l m _ _ (disagree_beyondRecords l)).trans ?_)
  exact (State.rd_congr _ _ _ rfl).trans (State.rd_wr_ne _ _ _ _ width)

theorem State.disagree_counts (s : State) {l m : Nat} (r : ModuleReport) (leaf : l < 4) (one : m < 32) :
    (s.disagree l m r).rd (Reg.LL_STATE_DISAGREE l) = min 3 (s.rd (Reg.LL_STATE_DISAGREE l) + 1) := by
  have apart := disagree_apart l m
  simp only [testFields, List.forall_mem_cons, List.not_mem_nil, false_implies, implies_true, and_true] at apart
  obtain ⟨width, -⟩ := apart
  rw [State.disagree_eq, State.narrowed_disagree]
  unfold State.trainedAgain
  rw [State.applyTest_disagree _ _ leaf one, State.rd_wr_ne _ _ _ _ width]
  refine (State.rd_congr _ _ _ rfl).trans ((State.rd_wr _ _ _).trans (Nat.mod_eq_of_lt ?_))
  show _ < 4
  omega

/-! ### A withdrawn leaf -/

theorem State.leafFatal_trainsOnly (l : Nat) (s : State) (replace : Bool) (idle : s.tasks = []) : State.TrainsOnly l s (s.leafFatal l replace) := by
  have none_ : s.leafJobs l = [] := by
    unfold State.leafJobs
    rw [idle]
    rfl
  have fresh : State.TrainsOnly l s s.free.2 := State.trainsOnly_of l rfl rfl
  have jobs : s.free.2.leafJobs l = [] := none_
  unfold State.leafFatal
  dsimp only
  rw [jobs]
  exact fresh.trans (State.raise_trainsOnly l _ _)

theorem lookup_filter_kept {α : Type} (t : Tab α) (p : Nat → Bool) {k : Nat} (kept : p k = true) : (t.filter (fun r => p r.1)).lookup k = t.lookup k := by
  induction t with
  | nil => rfl
  | cons r t ih =>
    obtain ⟨n, v⟩ := r
    by_cases same : k = n
    · subst same
      simp only [List.filter_cons, kept, if_true, List.lookup_cons, beq_self_eq_true]
    · have other : (k == n) = false := beq_eq_false_iff_ne.mpr same
      rw [List.filter_cons, List.lookup_cons, other, ← ih]
      split
      · rw [List.lookup_cons, other]
      · rfl

theorem State.dieLost_trainsOnly (l : Nat) (s : State) : State.TrainsOnly l s (s.dieLost l) := by
  refine ⟨rfl, fun j known apart => ?_⟩
  have survives : (!leafDieReg l ((Reg.LL_STATE_STATE j).key / 64)) = true := by
    have place : (Reg.LL_STATE_STATE j).key / 64 = 0x02300008 + j * 0x800000 := by
      simp only [Reg.LL_STATE_STATE, Reg.LL_STATE, Fld.key]
      omega
    rw [place, Bool.not_eq_true', ← Bool.not_eq_true]
    intro die
    simp only [leafDieReg, Reg.LEAF_FILL_CTL, Reg.LEAF_FILL_STAT, Bool.or_eq_true, Bool.and_eq_true, decide_eq_true_eq, beq_iff_eq] at die
    omega
  unfold State.rd Tab.get State.dieLost
  rw [lookup_filter_kept s.regs (fun n => !leafDieReg l (n / 64)) survives]

theorem State.wipeLeaf_trainsOnly (l : Nat) (s : State) : State.TrainsOnly l s (s.wipeLeaf l) := by
  rw [State.wipeLeaf_eq]
  have fresh : State.TrainsOnly l s s.freshJunk.2 := State.trainsOnly_of l rfl rfl
  have wiped : State.TrainsOnly l s (s.freshJunk.2.modCores (leafCores l) (fun k => k.wiped s.freshJunk.1)) :=
    foldl_keeps (State.TrainsOnly l s) (fun t c => t.modCore c (fun k => k.wiped s.freshJunk.1)) (fun t c h => h.trans (State.trainsOnly_of l rfl rfl)) _ _ fresh
  generalize s.freshJunk.2.modCores (leafCores l) (fun k => k.wiped s.freshJunk.1) = v at wiped ⊢
  have lost : State.TrainsOnly l s ((v.dieLost l).modLeaf l (fun _ => Leaf.reset)) := (wiped.trans (v.dieLost_trainsOnly l)).trans (State.trainsOnly_of l rfl rfl)
  generalize (v.dieLost l).modLeaf l (fun _ => Leaf.reset) = w at lost ⊢
  have off : State.TrainsOnly l s (w.leafDomains l false) := lost.trans (w.wr_trainsOnly l _ fun j _ _ => by
    simp only [Reg.LL_STATE_STATE, Reg.LL_STATE, Fld.key, Reg.POW_DOMAINS_ON, Reg.POW_DOMAINS]
    omega)
  exact off.trans (State.trainsOnly_of l rfl rfl)

theorem State.withdraw_trainsOnly (l : Nat) (s : State) (idle : s.tasks = []) : State.TrainsOnly l s (s.withdraw l) := by
  unfold State.withdraw
  refine iteInduction (motive := State.TrainsOnly l s) (fun _ => .refl l s) (fun _ => ?_)
  have wiped := (s.leafFatal_trainsOnly l true idle).trans (State.wipeLeaf_trainsOnly l _)
  generalize (s.leafFatal l true).wipeLeaf l = w at wiped ⊢
  have mods (v : Vector Ucie 32) : State.TrainsOnly l w (w.modLeaf l (fun k => { k with mods := v })) := State.trainsOnly_of l rfl rfl
  refine ((((((wiped.trans (mods _)).trans (State.wrLink_trainsOnly l _ (r := 8) _ (by decide) (by decide))).trans
    (State.wrLink_trainsOnly l _ (r := 0) _ (by decide) (by decide))).trans (State.wrLink_trainsOnly l _ (r := 0x28) _ (by decide) (by decide))).trans
    (State.wr_trainsOnly l _ _ fun j _ _ => ?_)).trans (State.wr_trainsOnly l _ _ fun j known _ => ?_))
  · simp only [Reg.LL_STATE_STATE, Reg.LL_STATE, Fld.key, Reg.MOD_IDENT_CORE_COUNT, Reg.MOD_IDENT]
    omega
  · simp only [Reg.LL_STATE_STATE, Reg.LL_STATE, Fld.key, Reg.LEAF_ARRAY_FAIL_REPLACE, Reg.LEAF_ARRAY_FAIL]
    omega

theorem State.withdraw_gone (s : State) (l : Nat) : (s.withdraw l).leafGone l = true := by
  unfold State.withdraw
  cases gone : s.leafGone l with
  | true => exact gone
  | false =>
    rw [if_neg Bool.false_ne_true]
    dsimp only
    generalize ((s.leafFatal l true).wipeLeaf l).modLeaf l (fun k => { k with mods := (s.leaf l).mods }) = w
    have keys : (Reg.LL_CTL_RESET l).key = (0x02300000 + l * 0x800000) * 64 + 0 ∧ (Reg.LL_STATE_STATE l).key = (0x02300008 + l * 0x800000) * 64 + 0
        ∧ (Reg.LL_BUDGET_STALE l).key = (0x02300028 + l * 0x800000) * 64 + 38 := ⟨rfl, rfl, rfl⟩
    obtain ⟨reset, state, stale⟩ := keys
    have three : ((((w.wr (Reg.LL_STATE_STATE l) 3).wr (Reg.LL_CTL_RESET l) 0).wr (Reg.LL_BUDGET_STALE l) 0)).rd (Reg.LL_STATE_STATE l) = 3 := by
      rw [State.rd_wr_ne _ _ _ _ (by omega), State.rd_wr_ne _ _ _ _ (by omega), State.rd_wr]
      rfl
    have count : (Reg.LL_STATE_STATE l).key ≠ Reg.MOD_IDENT_CORE_COUNT.key := by
      simp only [Reg.LL_STATE_STATE, Reg.LL_STATE, Fld.key, Reg.MOD_IDENT_CORE_COUNT, Reg.MOD_IDENT]
      omega
    have replaced : (Reg.LL_STATE_STATE l).key ≠ (Reg.LEAF_ARRAY_FAIL_REPLACE l).key := by
      simp only [Reg.LL_STATE_STATE, Reg.LL_STATE, Fld.key, Reg.LEAF_ARRAY_FAIL_REPLACE, Reg.LEAF_ARRAY_FAIL]
      omega
    generalize (((w.wr (Reg.LL_STATE_STATE l) 3).wr (Reg.LL_CTL_RESET l) 0).wr (Reg.LL_BUDGET_STALE l) 0) = v at three ⊢
    unfold State.leafGone
    rw [State.rd_wr_ne _ _ _ _ replaced, State.rd_wr_ne _ _ _ _ count, three]
    rfl

/-! ### Training with three disagreements -/

/-- The ends report the widths of a trained module. -/
def State.compared (s : State) (l : Nat) (rs : List ModuleReport) (m : Nat) : State :=
  match rs[m]? with
  | some r => if r.hub % 4 = r.leaf % 4 then s.applyTest l m cleanTest else (s.applyTest l m cleanTest).disagree l m r
  | none => s.applyTest l m cleanTest

/-- The first `n` modules of a leaf are trained in turn. -/
def State.trainedTo (s : State) (l : Nat) (rs : List ModuleReport) (n : Nat) : State := (List.range n).foldl (fun s m => s.compared l rs m) (s.trainingFrom l)

theorem State.trainLeaf_reports (s : State) (l : Nat) (rs : List ModuleReport) : s.trainLeaf l [] rs
    = if (s.trainedTo l rs 32).rd (Reg.LL_STATE_DISAGREE l) ≥ 3 then (s.trainedTo l rs 32).withdraw l else (s.trainedTo l rs 32).checkLeaf l := rfl

/-- A leaf module whose two ends report different widths. -/
def widthsDiffer : ModuleReport :=
  { hub := 0, leaf := 1, again := { failedTx := [], failedRx := [], clockBad := false }, hubNext := 0, leafNext := 0 }

theorem State.compared_trainsOnly (l : Nat) (s : State) (rs : List ModuleReport) {m : Nat} (one : m < 32) : State.TrainsOnly l s (s.compared l rs m) := by
  have tested := s.applyTest_trainsOnly l cleanTest one
  unfold State.compared
  cases rs[m]? with
  | none => exact tested
  | some r => exact iteInduction (motive := State.TrainsOnly l s) (fun _ => tested) (fun _ => tested.trans (State.disagree_trainsOnly l _ r one))

theorem State.compared_differs (s : State) {l m : Nat} (leaf : l < 4) (early : m < 3) :
    (s.compared l (List.replicate 3 widthsDiffer) m).rd (Reg.LL_STATE_DISAGREE l) = min 3 (s.rd (Reg.LL_STATE_DISAGREE l) + 1) := by
  have one : m < 32 := by omega
  have reported : (List.replicate 3 widthsDiffer)[m]? = some widthsDiffer := List.getElem?_replicate_of_lt early
  unfold State.compared
  rw [reported]
  dsimp only
  rw [if_neg (by decide), State.disagree_counts _ _ leaf one, State.applyTest_disagree _ _ leaf one]

theorem State.compared_same (s : State) {l m : Nat} (leaf : l < 4) (late : 3 ≤ m) (one : m < 32) :
    (s.compared l (List.replicate 3 widthsDiffer) m).rd (Reg.LL_STATE_DISAGREE l) = s.rd (Reg.LL_STATE_DISAGREE l) := by
  have quiet : (List.replicate 3 widthsDiffer)[m]? = none := List.getElem?_eq_none late
  unfold State.compared
  rw [quiet]
  exact State.applyTest_disagree _ _ leaf one

/-- By the end of its training the leaf has counted the disagreements of its first three modules. -/
theorem State.trainedTo_differs (s : State) {l : Nat} (leaf : l < 4) : ∀ n ≤ 32, min 3 n ≤ (s.trainedTo l (List.replicate 3 widthsDiffer) n).rd (Reg.LL_STATE_DISAGREE l)
  | 0, _ => Nat.zero_le _
  | n + 1, within => by
    have before := s.trainedTo_differs leaf n (by omega)
    have step : s.trainedTo l (List.replicate 3 widthsDiffer) (n + 1) = (s.trainedTo l (List.replicate 3 widthsDiffer) n).compared l (List.replicate 3 widthsDiffer) n := by
      unfold State.trainedTo
      rw [List.range_succ, List.foldl_append]
      rfl
    rw [step]
    generalize s.trainedTo l (List.replicate 3 widthsDiffer) n = v at before ⊢
    by_cases early : n < 3
    · rw [v.compared_differs leaf early]
      omega
    · rw [v.compared_same leaf (by omega) (by omega)]
      omega

theorem State.trainingFrom_trainsOnly (l : Nat) (s : State) : State.TrainsOnly l s (s.trainingFrom l) := by
  have begun : State.TrainsOnly l s (s.modLeaf l (fun k => { k with mods := Vector.replicate 32 Ucie.reset })) := State.trainsOnly_of l rfl rfl
  have cleared := ((begun.trans (State.wrLink_trainsOnly l _ (r := 8) (lo := 0) (w := 2) (rst := 0) 1 (by decide) (by decide))).trans
    (State.wrLink_trainsOnly l _ (r := 0x18) (lo := 32) (w := 16) (rst := 0) 0 (by decide) (by decide))).trans
    (State.wrLink_trainsOnly l _ (r := 0x18) (lo := 0) (w := 32) (rst := 0) 0 (by decide) (by decide))
  exact List.foldlRecOn (motive := State.TrainsOnly l s) _ _ cleared fun u h m mem => h.trans (u.width_trainsOnly l 0 (List.mem_range.mp mem))

/-- A leaf whose ends disagree on three modules is withdrawn (R344); the others stay as they are. -/
theorem State.trainLeaf_withdraws (s : State) {l : Nat} (leaf : l < 4) (idle : s.tasks = []) :
    (s.trainLeaf l [] (List.replicate 3 widthsDiffer)).leafGone l = true ∧ State.TrainsOnly l s (s.trainLeaf l [] (List.replicate 3 widthsDiffer)) := by
  have differs := s.trainedTo_differs leaf 32 (by decide)
  have trained : State.TrainsOnly l s (s.trainedTo l (List.replicate 3 widthsDiffer) 32) :=
    List.foldlRecOn (motive := State.TrainsOnly l s) _ _ (s.trainingFrom_trainsOnly l) fun u h m mem => h.trans (u.compared_trainsOnly l _ (List.mem_range.mp mem))
  rw [State.trainLeaf_reports]
  generalize s.trainedTo l (List.replicate 3 widthsDiffer) 32 = v at differs trained ⊢
  rw [if_pos (show v.rd (Reg.LL_STATE_DISAGREE l) ≥ 3 from differs)]
  exact ⟨v.withdraw_gone l, trained.trans (v.withdraw_trainsOnly l (trained.tasks.trans idle))⟩

/-! ### The boot -/

/-- Every test passes, and the ends of each leaf link disagree on three modules. -/
def leavesDisagree : BootFind :=
  { straps := 0, channelsFailed := [], memoryOk := true, domainsOk := true, leaves := [],
    leafReports := List.replicate 4 (List.replicate 3 widthsDiffer), arraysFailed := [] }

/-- The training of a leaf in a boot, after which it is in service unless it has been withdrawn. -/
def State.bootLeaf (s : State) (f : BootFind) (l : Nat) : State :=
  let s := s.trainLeaf l (f.leaves.getD l []) (f.leafReports.getD l [])
  if s.leafGone l then s else s.leafActive l

theorem State.bootLeaf_withdraws (s : State) {l : Nat} (leaf : l < 4) (idle : s.tasks = []) :
    (s.bootLeaf leavesDisagree l).leafGone l = true ∧ State.TrainsOnly l s (s.bootLeaf leavesDisagree l) := by
  have reports : leavesDisagree.leafReports.getD l [] = List.replicate 3 widthsDiffer := by
    show (List.replicate 4 (List.replicate 3 widthsDiffer)).getD l [] = _
    rw [List.getD_eq_getElem?_getD, List.getElem?_replicate_of_lt leaf]
    rfl
  obtain ⟨gone, only⟩ := s.trainLeaf_withdraws leaf idle
  have kept : s.bootLeaf leavesDisagree l = s.trainLeaf l [] (List.replicate 3 widthsDiffer) := by
    unfold State.bootLeaf
    rw [reports]
    exact if_pos gone
  rw [kept]
  exact ⟨gone, only⟩

/-- After the boot's trainings every leaf is withdrawn. -/
theorem State.bootLeaves_gone (s : State) (idle : s.tasks = []) : ∀ n ≤ 4,
    ((List.range n).foldl (fun s l => s.bootLeaf leavesDisagree l) s).tasks = []
      ∧ ∀ j < n, ((List.range n).foldl (fun s l => s.bootLeaf leavesDisagree l) s).leafGone j = true
  | 0, _ => ⟨idle, fun j none_ => absurd none_ (Nat.not_lt_zero j)⟩
  | n + 1, within => by
    obtain ⟨still, gone⟩ := s.bootLeaves_gone idle n (by omega)
    rw [List.range_succ, List.foldl_append]
    generalize (List.range n).foldl (fun s l => s.bootLeaf leavesDisagree l) s = v at still gone ⊢
    obtain ⟨last, only⟩ := v.bootLeaf_withdraws (l := n) (by omega) still
    refine ⟨only.tasks.trans still, fun j early => ?_⟩
    by_cases same : j = n
    · rw [same]
      exact last
    · have before := gone j (by omega)
      unfold State.leafGone at before ⊢
      rw [← before]
      exact congrArg (· == 3) (only.state j (by omega) same)

/-- The S5 record of a failed boot. -/
def State.bootRecord (s : State) (code : Nat) : Fault_ := { Fault_.blank 5 Status.ok 0x0A01 with info0 := BitVec.ofNat 64 code, time := s.rackTime }

/-- The module holds its fabric ports down. -/
def State.portsBarred (s : State) : State := { s with portsOff := true }

theorem State.portsBarred_rd (s : State) (g : Fld) : s.portsBarred.rd g = s.rd g := rfl

/-- The slot's failure count rises, and the record is written. -/
def State.failRecorded (s : State) (code : Nat) : State := s.bumpFail.writeRecord (s.bumpFail.bootRecord code)

theorem State.bootFail_eq (s : State) (code : Nat) :
    s.bootFail code = ((((s.wr Reg.GLB_BOOT_STAGE 5).wr Reg.GLB_BOOT_FAIL_CODE code).failRecorded code).raiseIbi 3).portsBarred := rfl

/-- A failed boot ends in STAGE 5 (R388). -/
theorem State.bootFail_stage (s : State) (code : Nat) : (s.bootFail code).rd Reg.GLB_BOOT_STAGE = 5 := by
  have stage : Reg.GLB_BOOT_STAGE.BeyondRecords := ⟨by decide⟩
  have five : ((s.wr Reg.GLB_BOOT_STAGE 5).wr Reg.GLB_BOOT_FAIL_CODE code).rd Reg.GLB_BOOT_STAGE = 5 := by
    rw [State.rd_wr_ne _ _ _ _ (by decide), State.rd_wr]
    rfl
  rw [State.bootFail_eq, State.portsBarred_rd, State.raiseIbi_rd]
  generalize (s.wr Reg.GLB_BOOT_STAGE 5).wr Reg.GLB_BOOT_FAIL_CODE code = v at five ⊢
  unfold State.failRecorded
  rw [State.writeRecord_rd _ _ stage]
  unfold State.bumpFail
  exact iteInduction (motive := fun u : State => u.rd Reg.GLB_BOOT_STAGE = 5) (fun _ => five) (fun _ => five)

/-- The SVN of the stage 2 that runs. -/
def State.svnRun (s : State) (slot : Nat) : Nat := match s.image? slot 2 with | some i => i.svn | none => 0

/-- Stage 2 as its trainings begin. -/
def State.beforeTraining (s : State) (slot : Nat) : State :=
  (((s.wr Reg.GLB_BOOT_STAGE 3).wr Reg.GLB_BOOT_SLOT slot).wr Reg.GLB_BOOT_SVN_IMAGE (s.svnRun slot)).readConfig

/-- A boot whose trainings leave no leaf in service fails. -/
theorem State.stage2_fails (s : State) (slot : Nat) (idle : (s.beforeTraining slot).tasks = []) : (s.stage2 slot leavesDisagree).rd Reg.GLB_BOOT_STAGE = 5 := by
  obtain ⟨-, gone⟩ := (s.beforeTraining slot).bootLeaves_gone idle 4 (by decide)
  have all : (List.range 4).all ((List.range 4).foldl (fun s l => s.bootLeaf leavesDisagree l) (s.beforeTraining slot)).leafGone = true :=
    List.all_eq_true.mpr fun j mem => gone j (List.mem_range.mp mem)
  have run : s.stage2 slot leavesDisagree = ((List.range 4).foldl (fun s l => s.bootLeaf leavesDisagree l) (s.beforeTraining slot)).bootFail 0x12 := by
    unfold State.beforeTraining at all ⊢
    unfold State.stage2
    generalize State.readConfig = configured at all ⊢
    refine of_have ?_
    rw [if_neg (by decide), if_neg (by decide), if_neg (by decide)]
    exact if_pos all
  rw [run, State.bootFail_stage]

/-- A sound image of a stage. -/
def soundImage (stage : Nat) : FwImage :=
  { magic := 0x4B533753#32, stage := stage, body := 0, svn := 64, build := 0, keyOk := true, sigOk := true, digest := 0 }

/-- The module has power and stands before its boot, with a sound image of each stage in slot A. -/
def readyToBoot : State :=
  { State.reset with powered := true, failed := false, flash := { State.reset.flash with images := [(0, soundImage 1), (1, soundImage 2)] } }

/-- The module as PERST_N is released, with its straps sampled. -/
def State.strapped (s : State) (found : Tab FwImage) (straps : BitVec 7) : State :=
  ({ s with perst := false, rackTime := 0, rackHold := 0, rackSlew := 0, flash := { s.flash with images := s.flash.images ++ found } } : State).sampleStraps straps

/-- The module in STAGE 1. -/
def State.inStage1 (s : State) (straps : BitVec 7) : State := ((s.strapped [] straps).linkTrained.wr Reg.GLB_BOOT_STAGE 1).movePref

theorem exec_boot_slot {f : BootFind} {s : State} {n : Nat} (waits : ¬ (!s.powered ∨ s.stage ≠ 0 ∨ s.failed))
    (slot : (s.inStage1 f.straps).bootSlot = .slot n) : exec (.boot [] f) s = .next ((s.inStage1 f.straps).stage2 n f) := by
  have none_ : (List.range 4).filterMap (fun k => if (s.flash.images.lookup k).isSome then none else (([] : List FwImage)[k]?).map (fun i => (k, i))) = [] :=
    List.filterMap_eq_nil_iff.mpr fun k _ => by
      rw [List.getElem?_nil, Option.map_none]
      exact ite_self none
  have run : exec (.boot [] f) s = execBoot [] f s := rfl
  rw [run]
  unfold execBoot
  rw [if_neg waits, none_]
  unfold State.inStage1 State.strapped at slot ⊢
  dsimp only
  rw [slot]

theorem inStage1_slot : (readyToBoot.inStage1 0).bootSlot = .slot 0 := by decide +kernel

theorem inStage1_idle : ((readyToBoot.inStage1 0).beforeTraining 0).tasks = [] := List.isEmpty_iff.mp (by decide +kernel)

/-- Refutes O56: a boot that passes its tests ends in STAGE 5 where the ends of every leaf link disagree three times, and so withdraw
every leaf. -/
theorem not_moduleBootsAndResets : ¬ Obligations.ModuleBootsAndResets := by
  unfold Obligations.ModuleBootsAndResets
  intro boots
  obtain ⟨fromReset, -⟩ := boots leavesDisagree readyToBoot
  obtain ⟨-, -, sound, -⟩ := fromReset (by decide +kernel) (by decide +kernel) (by decide +kernel)
  obtain ⟨u, run, four, -⟩ := sound (by decide +kernel) (by decide +kernel) (by decide +kernel) rfl rfl rfl rfl (by decide +kernel)
  have five : u.rd Reg.GLB_BOOT_STAGE = 5 := by
    rw [← Host.Outcome.next.inj ((exec_boot_slot (f := leavesDisagree) (by decide +kernel) inStage1_slot).symm.trans run)]
    exact (readyToBoot.inStage1 0).stage2_fails 0 inStage1_idle
  exact absurd (four.symm.trans five) (by decide)

end Sys2Proof.Machine
end


section
/-! The host's ways into the module: MSI-X, BAR2, registers of one field, and the exceptions of the control cores (R6, R7, R237, R370, R371, R376, R387). -/

namespace Sys2Proof.Machine

/-! ### MSI-X (R371) -/

theorem exec_msixUnmask {s : State} {v : Fin 64} (powered : s.powered = true) : exec (.msixUnmask v) s = .next (s.unmask v.val) :=
  congrArg Host.Outcome.next (if_pos powered)

/-- A vector whose mask bit has been cleared. -/
def State.maskCleared (s : State) (v : Nat) : State := s.wr (Reg.MSIX_CTRL v) (setFld (s.rd (Reg.MSIX_CTRL v)) 0 1 0)

/-- No message of the vector is pending any more. -/
def State.pendingTaken (s : State) (v : Nat) : State := s.wr Reg.MSIX_PBA (setFld (s.rd Reg.MSIX_PBA) v 1 0)

theorem State.unmask_eq (s : State) (v : Nat) : s.unmask v
    = if ((s.maskCleared v).rd Reg.MSIX_PBA).testBit v then ((s.maskCleared v).pendingTaken v).raiseVec v else s.maskCleared v := rfl

theorem State.maskCleared_rd (s : State) {v : Nat} (known : v < 64) : (s.maskCleared v).rd Reg.MSIX_PBA = s.rd Reg.MSIX_PBA
    ∧ (s.maskCleared v).rd (Reg.MSIX_ADDR v) = s.rd (Reg.MSIX_ADDR v) ∧ (s.maskCleared v).rd (Reg.MSIX_DATA v) = s.rd (Reg.MSIX_DATA v) := by
  refine ⟨State.rd_wr_ne _ _ _ _ ?_, State.rd_wr_ne _ _ _ _ ?_, State.rd_wr_ne _ _ _ _ ?_⟩ <;>
    simp only [Fld.key, Reg.MSIX_PBA, Reg.MSIX_CTRL, Reg.MSIX_ADDR, Reg.MSIX_DATA] <;> omega

theorem State.maskCleared_unmasked (s : State) (v : Nat) : (s.maskCleared v).vecMasked v = false := by
  have bit : (setFld (s.rd (Reg.MSIX_CTRL v)) 0 1 0).testBit 0 = false := (testBit_setFld (n := 0) _ 0 0 (by decide)).trans (Nat.zero_testBit 0)
  have even : setFld (s.rd (Reg.MSIX_CTRL v)) 0 1 0 % 2 = 0 := by
    rw [Nat.testBit_zero] at bit
    have notOdd := of_decide_eq_false bit
    omega
  have value : (s.maskCleared v).rd (Reg.MSIX_CTRL v) = setFld (s.rd (Reg.MSIX_CTRL v)) 0 1 0 % 2 ^ 32 := State.rd_wr _ _ _
  unfold State.vecMasked
  rw [value, beq_eq_false_iff_ne]
  omega

/-- An unmasked vector's message leaves. -/
theorem State.raiseVec_leaves {s : State} {v : Nat} (clear : s.vecMasked v = false) : s.raiseVec v
    = { s with hostOut := s.hostOut ++ [.msix v (BitVec.ofNat 64 (s.rd (Reg.MSIX_ADDR v))) (BitVec.ofNat 32 (s.rd (Reg.MSIX_DATA v)))] } :=
  if_neg (Bool.eq_false_iff.mp clear)

theorem State.unmask_idle {s : State} {v : Nat} (known : v < 64) (idle : (s.rd Reg.MSIX_PBA).testBit v = false) : s.unmask v = s.maskCleared v := by
  rw [State.unmask_eq, (s.maskCleared_rd known).1, idle]
  rfl

/-- A pending message leaves when its vector is unmasked. -/
theorem State.unmask_pending {s : State} {v : Nat} (known : v < 64) (waits : (s.rd Reg.MSIX_PBA).testBit v = true) :
    ((s.unmask v).rd Reg.MSIX_PBA).testBit v = false ∧ (s.unmask v).vecMasked v = false
      ∧ (s.unmask v).hostOut = s.hostOut ++ [.msix v (BitVec.ofNat 64 (s.rd (Reg.MSIX_ADDR v))) (BitVec.ofNat 32 (s.rd (Reg.MSIX_DATA v)))] := by
  obtain ⟨pba, addr, data⟩ := s.maskCleared_rd known
  have clear := s.maskCleared_unmasked v
  have out : (s.maskCleared v).hostOut = s.hostOut := rfl
  rw [State.unmask_eq, pba, if_pos waits]
  generalize s.maskCleared v = a at pba addr data clear out ⊢
  have keys : (Reg.MSIX_CTRL v).key ≠ Reg.MSIX_PBA.key ∧ (Reg.MSIX_ADDR v).key ≠ Reg.MSIX_PBA.key ∧ (Reg.MSIX_DATA v).key ≠ Reg.MSIX_PBA.key := by
    simp only [Fld.key, Reg.MSIX_PBA, Reg.MSIX_CTRL, Reg.MSIX_ADDR, Reg.MSIX_DATA]
    omega
  obtain ⟨ctrlKey, addrKey, dataKey⟩ := keys
  have taken : ((a.pendingTaken v).rd Reg.MSIX_PBA).testBit v = false := by
    have value : (a.pendingTaken v).rd Reg.MSIX_PBA = setFld (a.rd Reg.MSIX_PBA) v 1 0 % 2 ^ 64 := State.rd_wr _ _ _
    have cleared : (setFld (a.rd Reg.MSIX_PBA) v 1 0).testBit v = false := (testBit_setFld (n := 0) (w := 1) _ v 0 (by decide)).trans (Nat.zero_testBit 0)
    rw [value, Nat.testBit_mod_two_pow, cleared, Bool.and_false]
  have still : (a.pendingTaken v).vecMasked v = false := by
    unfold State.vecMasked at clear ⊢
    rw [State.pendingTaken, State.rd_wr_ne _ _ _ _ ctrlKey, clear]
  have addr' : (a.pendingTaken v).rd (Reg.MSIX_ADDR v) = s.rd (Reg.MSIX_ADDR v) := (State.rd_wr_ne _ _ _ _ addrKey).trans addr
  have data' : (a.pendingTaken v).rd (Reg.MSIX_DATA v) = s.rd (Reg.MSIX_DATA v) := (State.rd_wr_ne _ _ _ _ dataKey).trans data
  have out' : (a.pendingTaken v).hostOut = s.hostOut := out
  generalize a.pendingTaken v = b at taken still addr' data' out' ⊢
  rw [State.raiseVec_leaves still, ← addr', ← data', ← out']
  exact ⟨taken, still, rfl⟩

/-! ### BAR2 (R370, R383, R387) -/

/-- Bytes that are all enabled form one run. -/
theorem enabledRuns_all : ∀ (bs : List Byte) (off : Nat), bs ≠ [] → enabledRuns off bs [] = [(off, bs)]
  | [], _, some_ => absurd rfl some_
  | [_], _, _ => rfl
  | b :: c :: bs, off, _ => by
    have rest := enabledRuns_all (c :: bs) (off + 1) (List.cons_ne_nil _ _)
    rw [enabledRuns]
    dsimp only [List.tail_nil, List.headD_nil]
    rw [rest]
    exact (if_pos rfl).trans (if_pos rfl)

/-- A read is answered with what was read, and an uncorrectable word of it recorded. -/
def State.bar2Answer (s : State) (r : List Byte × Bad) : State :=
  let u := { s with hostOut := s.hostOut ++ [.read r.1 r.2.isBad] }
  match r.2 with
  | .none => u
  | .old o => u.raise { Fault_.blank 0 Status.eccUncorrected 0x0202 with addr := BitVec.ofNat 64 o, info0 := BitVec.ofNat 64 spHM }
  | .found o => u.raise { Fault_.blank 0 Status.eccUncorrected 0x0202 with addr := BitVec.ofNat 64 o, info0 := BitVec.ofNat 64 spHM }

theorem State.bar2Read {s : State} {off len : Nat} (powered : s.powered = true) (alive : s.failed = false) (stage : s.stage = 4 ∨ s.stage = 6)
    (inside : off + len ≤ if s.stage = 6 then 0x4000000 else s.directBytes) (sound : (s.hmRead off len).2.isBad = false) :
    exec (.bar2Access off none len [] []) s = .next { s with hostOut := s.hostOut ++ [.read (s.hm.readN off len) false] } := by
  have serves : ¬ (!s.powered || s.failed || !(s.stage == 4 || s.stage == 6)) = true := by
    rcases stage with four | six
    · simp [powered, alive, four]
    · simp [powered, alive, six]
  refine congrArg Host.Outcome.next ((if_neg serves).trans ((if_neg (Nat.not_lt.mpr inside)).trans ?_))
  have clean : (s.hmRead off len).2 = .none := by
    cases found : (s.hmRead off len).2 with
    | none => rfl
    | old o => exact absurd (found ▸ sound : Bad.isBad (.old o) = false) (by simp [Bad.isBad])
    | found o => exact absurd (found ▸ sound : Bad.isBad (.found o) = false) (by simp [Bad.isBad])
  have read : s.hmRead off len = (s.hm.readN off len, .none) := Prod.ext rfl clean
  have answers : s.bar2Answer (s.hmRead off len) = { s with hostOut := s.hostOut ++ [.read (s.hm.readN off len) false] } := by
    rw [read]
    rfl
  exact answers

theorem State.bar2Write {s : State} {off len : Nat} {bs : List Byte} (powered : s.powered = true) (alive : s.failed = false) (stage : s.stage = 4) (some_ : bs ≠ [])
    (inside : off + bs.length ≤ s.directBytes) : exec (.bar2Access off (some bs) len [] []) s = .next (s.hmStore off bs) := by
  have serves : ¬ (!s.powered || s.failed || !(s.stage == 4 || s.stage == 6)) = true := by simp [powered, alive, stage]
  have within : ¬ off + bs.length > if s.stage = 6 then 0x4000000 else s.directBytes := by
    rw [stage, if_neg (by decide)]
    omega
  refine congrArg Host.Outcome.next ((if_neg serves).trans ((if_neg within).trans ?_))
  show (enabledRuns off bs []).foldl (fun (t : State) r => t.hmStore r.1 r.2) s = _
  rw [enabledRuns_all bs off some_]
  rfl

theorem State.bar2Past {s : State} {off len : Nat} {bs : List Byte} (powered : s.powered = true) (alive : s.failed = false) (stage : s.stage = 4)
    (past : s.directBytes < off + bs.length) : exec (.bar2Access off (some bs) len [] []) s = .next (s.logS0 Status.addrRange 0x0A03 off) := by
  have serves : ¬ (!s.powered || s.failed || !(s.stage == 4 || s.stage == 6)) = true := by simp [powered, alive, stage]
  have beyond : off + bs.length > if s.stage = 6 then 0x4000000 else s.directBytes := by
    rw [stage, if_neg (by decide)]
    omega
  exact congrArg Host.Outcome.next ((if_neg serves).trans (if_pos beyond))

theorem State.bar2Closed {s : State} (off len : Nat) (w : Option (List Byte)) (shut : s.stage < 4 ∨ s.stage = 5 ∨ s.failed = true) :
    exec (.bar2Access off w len [] []) s = .next (if w.isNone then { s with hostOut := s.hostOut ++ [.read (List.replicate len 0) false] } else s) := by
  have refuses : (!s.powered || s.failed || !(s.stage == 4 || s.stage == 6)) = true := by
    rcases shut with early | five | dead
    · have four : (s.stage == 4) = false := beq_eq_false_iff_ne.mpr (by omega)
      have six : (s.stage == 6) = false := beq_eq_false_iff_ne.mpr (by omega)
      simp [four, six]
    · simp [five]
    · simp [dead]
  exact congrArg Host.Outcome.next (if_pos refuses)

/-! ### Registers of one field (R7, R237) -/

/-- A register of one field that no other action belongs to. -/
structure PlainReg (off : Nat) (f : FieldSpec) (k : RegKind) : Prop where
  row     : regAt off = some (k, 0)
  fields  : k.fields = [f]
  msix    : ¬ (0x8000 ≤ off ∧ off < 0x8400)
  entry   : ¬ (0x410000 ≤ off ∧ off < 0x420000)
  mailbox : ¬ (0x100000 ≤ off ∧ off < 0x100400)
  quiet   : ∀ (old s : State) (mask bits : Nat), old.regAction s off mask bits = s

theorem PlainReg.putReg {off : Nat} {f : FieldSpec} {k : RegKind} (plain : PlainReg off f k) (s : State) (mask v : Nat) :
    s.putReg off mask v = (let u := s.putField off 0 mask (v &&& mask) (s.regVal off - (s.regVal off &&& mask) + (v &&& mask)) f
      if s.dropsRwl mask k then u.logDropped off else u) := by
  have free : s.mbxLocked off = false := by
    unfold State.mbxLocked
    by_cases low : 0x100000 ≤ off
    · have high : ¬ off < 0x100400 := fun below => plain.mailbox ⟨low, below⟩
      simp [high]
    · simp [low]
  unfold State.putReg
  rw [if_neg plain.msix, if_neg plain.entry, free, plain.row]
  dsimp only
  rw [plain.quiet, plain.fields]
  rfl

theorem tumDlCtl_plain : PlainReg Reg.TUM_DL_CTL ⟨0, 20, .rw, 1000, false⟩ ⟨Reg.TUM_DL_CTL, 1, 0, 1, 0, [⟨0, 20, .rw, 1000, false⟩]⟩ :=
  ⟨rfl, rfl, by decide, by decide, by decide, fun old s mask bits => by
    simp [State.regAction, instOf, Reg.TUM_DL_CTL, Reg.HM_CACHE_CTL, Reg.HM_KEEP_QUOTA, Reg.LK_WINDOW, Reg.KV_CTL, Reg.RT_CTL, Reg.GLB_CTL,
      Reg.POW_CAP, Reg.ERR_RING, Reg.FD_REJOIN, Reg.TUM_HOST_ADD]⟩

theorem rtTransit_plain : PlainReg Reg.RT_TRANSIT ⟨0, 7, .rw, 25, false⟩ ⟨Reg.RT_TRANSIT, 1, 0, 1, 0, [⟨0, 7, .rw, 25, false⟩]⟩ :=
  ⟨rfl, rfl, by decide, by decide, by decide, fun old s mask bits => by
    simp [State.regAction, instOf, Reg.RT_TRANSIT, Reg.HM_CACHE_CTL, Reg.HM_KEEP_QUOTA, Reg.LK_WINDOW, Reg.KV_CTL, Reg.RT_CTL, Reg.GLB_CTL,
      Reg.POW_CAP, Reg.ERR_RING, Reg.FD_REJOIN, Reg.TUM_HOST_ADD]⟩

theorem lkKey_plain : PlainReg Reg.LK_KEY ⟨0, 64, .rwl, 0, false⟩ ⟨Reg.LK_KEY, 1, 0, 1, 0, [⟨0, 64, .rwl, 0, false⟩]⟩ :=
  ⟨rfl, rfl, by decide, by decide, by decide, fun old s mask bits => by
    simp [State.regAction, instOf, Reg.LK_KEY, Reg.HM_CACHE_CTL, Reg.HM_KEEP_QUOTA, Reg.LK_WINDOW, Reg.KV_CTL, Reg.RT_CTL, Reg.GLB_CTL,
      Reg.POW_CAP, Reg.ERR_RING, Reg.FD_REJOIN, Reg.TUM_HOST_ADD]⟩

/-- The host's write of the low half or the whole of a register. -/
theorem exec_registerWrite_wide {s : State} {off : Nat} {w : Width} {v : Word} (wide : w ≠ .other) (whole : off / 8 * 8 = off) (isOpen : s.regOpen off = true)
    (here : regHere off = true) (noWindow : s.windowGone off = false) (notPba : off ≠ 0x9000) :
    exec (.registerWrite off w v) s = .next (s.putReg off (Width.bits w v.toNat).1 (Width.bits w v.toNat).2) := by
  have aligned : off % 8 = 0 := by omega
  show execRegisterWrite off w v s = _
  simp [execRegisterWrite, State.writeReg, wide, whole, isOpen, here, noWindow, aligned, notPba]

/-- The host's write of a register that answers, with no width that it has. -/
theorem exec_registerWrite_other {s : State} {off : Nat} {v : Word} (whole : off / 8 * 8 = off) (isOpen : s.regOpen off = true)
    (here : regHere off = true) (noWindow : s.windowGone off = false) : exec (.registerWrite off .other v) s = .next (s.logDropped off) := by
  show execRegisterWrite off .other v s = _
  simp [execRegisterWrite, State.writeReg, whole, isOpen, here, noWindow]

/-- The host's write where no register answers. -/
theorem exec_registerWrite_none {s : State} {off : Nat} (w : Width) (v : Word) (silent : s.regOpen (off / 8 * 8) = false ∨ regHere (off / 8 * 8) = false) :
    exec (.registerWrite off w v) s = .next s := by
  show execRegisterWrite off w v s = _
  rcases silent with shut | gone
  · simp [execRegisterWrite, State.writeReg, shut]
  · simp [execRegisterWrite, State.writeReg, gone]

/-- The low half of a register holds the written bits in each field that lies in it. -/
theorem fld_lowWritten (old v lo w : Nat) (within : lo + w ≤ 32) :
    fld (old - (old &&& (2 ^ 32 - 1)) + (v &&& (2 ^ 32 - 1))) lo w = fld v lo w := by
  have cleared : old - (old &&& (2 ^ 32 - 1)) = 2 ^ 32 * (old / 2 ^ 32) := by
    rw [Nat.and_two_pow_sub_one_eq_mod]
    omega
  rw [cleared, Nat.and_two_pow_sub_one_eq_mod]
  refine Nat.eq_of_testBit_eq fun i => ?_
  by_cases hi : i < w
  · have inside : lo + i < 32 := by omega
    have low : v % 2 ^ 32 < 2 ^ 32 := Nat.mod_lt v (by decide)
    simp only [fld, Nat.testBit_mod_two_pow, Nat.testBit_div_two_pow, Nat.testBit_two_pow_mul_add _ low]
    simp [hi, Nat.add_comm i lo, inside]
  · simp [fld, Nat.testBit_mod_two_pow, hi]

/-- The field of a register that is written whole or in its low half takes the written bits. -/
theorem fld_written (old : Nat) {v : Nat} {w : Width} {n : Nat} (wide : w = .full ∨ w = .low) (within : n ≤ 32) :
    fld (old - (old &&& (Width.bits w v).1) + ((Width.bits w v).2 &&& (Width.bits w v).1)) 0 n = v % 2 ^ n := by
  rcases wide with rfl | rfl
  · refine (fld_allWritten old (v % 2 ^ 64) 0 n (by omega)).trans ?_
    simp only [fld, Nat.pow_zero, Nat.div_one]
    exact Nat.mod_mod_of_dvd v (Nat.pow_dvd_pow 2 (by omega))
  · refine (fld_lowWritten old (v % 2 ^ 32) 0 n (by omega)).trans ?_
    simp only [fld, Nat.pow_zero, Nat.div_one]
    exact Nat.mod_mod_of_dvd v (Nat.pow_dvd_pow 2 within)

theorem State.clampFld_window (s : State) (new v : Nat) : s.clampFld Reg.TUM_DL_CTL 0 new v = max 10 (min 1000000 v) := by
  simp [State.clampFld, instOf, Reg.TUM_DL_CTL, Reg.HM_KEEP_QUOTA, clampTo]

theorem State.clampFld_transit (s : State) (new v : Nat) : s.clampFld Reg.RT_TRANSIT 0 new v = max 1 (min 100 v) := by
  simp [State.clampFld, instOf, Reg.TUM_DL_CTL, Reg.HM_KEEP_QUOTA, clampTo, Reg.KV_CTL, Reg.SCHED_RES, Reg.SCHED_PRE_CTL, Reg.RT_TRANSIT]

/-- Every block of a booted module that runs is open. -/
theorem State.regOpen_booted {s : State} (powered : s.powered = true) (noReset : s.perst = false) (booted : s.booted = true) (alive : s.failed = false) (off : Nat) :
    s.regOpen off = true := by simp [State.regOpen, powered, noReset, booted, alive]

/-- A register that answers in no core's window. -/
theorem PlainReg.here {off : Nat} {f : FieldSpec} {k : RegKind} (plain : PlainReg off f k) (apart : ¬ (0x300000 ≤ off ∧ off < 0x330000)) : regHere off = true := by
  have row : (regAt off).isSome = true := by rw [plain.row]; rfl
  simp [regHere, apart, row]

theorem windowGone_below {s : State} {off : Nat} (below : off < 0x2000000) : s.windowGone off = false := by
  have low : decide (0x2000000 ≤ off) = false := decide_eq_false (by omega)
  simp [State.windowGone, low]

/-- WINDOW_US takes the value, within its range, for the detector's next sample (R7, R197). -/
theorem State.putReg_window (s : State) {w : Width} (v : Nat) (wide : w = .full ∨ w = .low) :
    s.putReg Reg.TUM_DL_CTL (Width.bits w v).1 (Width.bits w v).2 = s.wrLater Reg.TUM_DL_CTL_WINDOW_US (max 10 (min 1000000 (v % 2 ^ 20))) := by
  have named : fld (Width.bits w v).1 0 20 ≠ 0 := by
    rcases wide with rfl | rfl
    · exact (by decide : fld (2 ^ 64 - 1) 0 20 ≠ 0)
    · exact (by decide : fld (2 ^ 32 - 1) 0 20 ≠ 0)
  have late : Reg.TUM_DL_CTL_WINDOW_US ∈ lateFields := List.mem_cons_self
  have runs (mask : Nat) : s.dropsRwl mask ⟨Reg.TUM_DL_CTL, 1, 0, 1, 0, [⟨0, 20, .rw, 1000, false⟩]⟩ = false := by simp [State.dropsRwl]
  have value := fld_written (s.regVal Reg.TUM_DL_CTL) (v := v) wide (n := 20) (by decide)
  rw [tumDlCtl_plain.putReg, runs]
  dsimp only
  rw [if_neg Bool.false_ne_true]
  refine (if_neg named).trans ?_
  show s.putRw Reg.TUM_DL_CTL_WINDOW_US (s.clampFld Reg.TUM_DL_CTL 0 _ (fld _ 0 20)) = _
  rw [State.clampFld_window, s.putRw_late _ late, value]

/-- SHARE_PCT takes the value, within its range, at once (R7, R259). -/
theorem State.putReg_transit (s : State) (v : Nat) :
    s.putReg Reg.RT_TRANSIT (Width.bits .full v).1 (Width.bits .full v).2 = s.wr Reg.RT_TRANSIT_SHARE_PCT (max 1 (min 100 (v % 2 ^ 7))) := by
  have named : fld (Width.bits .full v).1 0 7 ≠ 0 := (by decide : fld (2 ^ 64 - 1) 0 7 ≠ 0)
  have now : lateFields.any (fun f => f.key == Reg.RT_TRANSIT_SHARE_PCT.key) = false := by decide
  have runs (mask : Nat) : s.dropsRwl mask ⟨Reg.RT_TRANSIT, 1, 0, 1, 0, [⟨0, 7, .rw, 25, false⟩]⟩ = false := by simp [State.dropsRwl]
  have value := fld_written (s.regVal Reg.RT_TRANSIT) (v := v) (w := .full) (.inl rfl) (n := 7) (by decide)
  rw [rtTransit_plain.putReg, runs]
  dsimp only
  rw [if_neg Bool.false_ne_true]
  refine (if_neg named).trans ?_
  show s.putRw Reg.RT_TRANSIT_SHARE_PCT (s.clampFld Reg.RT_TRANSIT 0 _ (fld _ 0 7)) = _
  rw [State.clampFld_transit, value]
  exact if_neg (Bool.eq_false_iff.mp now)

/-- A write of KEY, an RWL field, is dropped on a booted module (R7). -/
theorem State.putReg_key {s : State} (booted : s.booted = true) (v : Nat) :
    s.putReg Reg.LK_KEY (Width.bits .full v).1 (Width.bits .full v).2 = s.logDropped Reg.LK_KEY := by
  have named : fld (Width.bits .full v).1 0 64 ≠ 0 := (by decide : fld (2 ^ 64 - 1) 0 64 ≠ 0)
  have drops : s.dropsRwl (Width.bits .full v).1 ⟨Reg.LK_KEY, 1, 0, 1, 0, [⟨0, 64, .rwl, 0, false⟩]⟩ = true := by
    unfold State.dropsRwl
    rw [booted, show (Width.bits .full v).1 = 2 ^ 64 - 1 from rfl]
    decide
  rw [lkKey_plain.putReg, drops]
  dsimp only
  rw [if_pos rfl]
  refine congrArg (fun u : State => u.logDropped Reg.LK_KEY) ((if_neg named).trans ?_)
  exact if_pos booted

/-- The host's writes of registers of a booted module (R6, R7, R237). -/
theorem registerWrites {s : State} (x : Word) (powered : s.powered = true) (noReset : s.perst = false) (booted : s.booted = true) (alive : s.failed = false) :
    exec (.registerWrite Reg.TUM_DL_CTL .full x) s = .next (s.wrLater Reg.TUM_DL_CTL_WINDOW_US (max 10 (min 1000000 (x.toNat % 2 ^ 20))))
      ∧ exec (.registerWrite Reg.TUM_DL_CTL .low x) s = .next (s.wrLater Reg.TUM_DL_CTL_WINDOW_US (max 10 (min 1000000 (x.toNat % 2 ^ 20))))
      ∧ exec (.registerWrite Reg.RT_TRANSIT .full x) s = .next (s.wr Reg.RT_TRANSIT_SHARE_PCT (max 1 (min 100 (x.toNat % 2 ^ 7))))
      ∧ exec (.registerWrite Reg.TUM_DL_CTL .other x) s = .next (s.logS0 Status.ok 0x0801 Reg.TUM_DL_CTL)
      ∧ exec (.registerWrite Reg.LK_KEY .full x) s = .next (s.logS0 Status.ok 0x0801 Reg.LK_KEY)
      ∧ exec (.registerWrite 0x40 .full x) s = .next s := by
  have isOpen := State.regOpen_booted powered noReset booted alive
  have window : regHere Reg.TUM_DL_CTL = true := tumDlCtl_plain.here (by decide)
  have transit : regHere Reg.RT_TRANSIT = true := rtTransit_plain.here (by decide)
  have key : regHere Reg.LK_KEY = true := lkKey_plain.here (by decide)
  refine ⟨?_, ?_, ?_, ?_, ?_, exec_registerWrite_none _ _ (.inr (by decide))⟩
  · rw [exec_registerWrite_wide (by decide) (by decide) (isOpen _) window (windowGone_below (by decide)) (by decide), s.putReg_window _ (.inl rfl)]
  · rw [exec_registerWrite_wide (by decide) (by decide) (isOpen _) window (windowGone_below (by decide)) (by decide), s.putReg_window _ (.inr rfl)]
  · rw [exec_registerWrite_wide (by decide) (by decide) (isOpen _) transit (windowGone_below (by decide)) (by decide), State.putReg_transit]
  · exact exec_registerWrite_other (by decide) (isOpen _) window (windowGone_below (by decide))
  · rw [exec_registerWrite_wide (by decide) (by decide) (isOpen _) key (windowGone_below (by decide)) (by decide), State.putReg_key booted]
    rfl

/-- Before its boot has ended the block of the tumblers is shut (R387). -/
theorem registerWrite_unbooted {s : State} (x : Word) (booted : s.booted = false) : exec (.registerWrite Reg.TUM_DL_CTL .full x) s = .next s := by
  refine exec_registerWrite_none _ _ (.inl ?_)
  have failed : failedBlock (Reg.TUM_DL_CTL / 8 * 8) = false := by decide
  have early : earlyBlock (Reg.TUM_DL_CTL / 8 * 8) = false := by decide
  simp [State.regOpen, failed, early, booted]

/-! ### Control cores (R376) -/

/-- The slot that runs. -/
def State.slotRun (s : State) : Nat := if s.rdb Reg.GLB_BOOT_SLOT then 1 else 0

theorem State.bumpFail_counts (s : State) : s.bumpFail.failCount s.slotRun = s.failCount s.slotRun + 1 := by
  unfold State.bumpFail State.slotRun
  cases s.rdb Reg.GLB_BOOT_SLOT <;> rfl

theorem State.stopRecorded_same (s : State) (f : Fault_) : (s.stopRecorded f).flash = s.flash
    ∧ ∀ g : Fld, g.BelowLeaves → g.BeyondRecords → (s.stopRecorded f).rd g = s.rd g := by
  have ended := s.failAll_onlyEnds Status.ok
  have flash : (s.failAll Status.ok).flash = s.flash := (congrArg State.flash ended.eq :)
  have rd (g : Fld) (below : g.BelowLeaves) : (s.failAll Status.ok).rd g = s.rd g := (s.failTasks_rdBelow s.tasks Status.ok).rd g below
  unfold State.stopRecorded
  generalize s.failAll Status.ok = a at flash rd ⊢
  have recorded := ({ a with failed := true } : State).writeRecord_onlyRecords f
  have marked (g : Fld) : ({ a with failed := true } : State).rd g = a.rd g := rfl
  have markedFlash : ({ a with failed := true } : State).flash = a.flash := rfl
  have noted (g : Fld) (b : g.BeyondRecords) := ({ a with failed := true } : State).writeRecord_rd f b
  generalize ({ a with failed := true } : State) = m at recorded marked markedFlash noted ⊢
  have written := recorded.flash
  generalize m.writeRecord f = w at written noted ⊢
  have told : (w.raiseIbi 3).flash = w.flash := (congrArg State.flash (w.raiseIbi_frame 3) :)
  exact ⟨((told.trans written).trans markedFlash).trans flash,
    fun g below b => (((w.raiseIbi_rd 3 g).trans (noted g b)).trans (marked g)).trans (rd g below)⟩

theorem State.failCount_congr {s t : State} (flash : t.flash = s.flash) (slot : Nat) : t.failCount slot = s.failCount slot := by
  unfold State.failCount
  rw [flash]

theorem State.slotRun_congr {s t : State} (slot : t.rd Reg.GLB_BOOT_SLOT = s.rd Reg.GLB_BOOT_SLOT) : t.slotRun = s.slotRun := by
  unfold State.slotRun State.rdb
  rw [slot]

theorem State.sendDeclaration_flash (s : State) (m cause : Nat) : (s.sendDeclaration m cause).flash = s.flash := rfl

theorem State.sendDeclaration_rd (s : State) (m cause : Nat) (g : Fld) : (s.sendDeclaration m cause).rd g = s.rd g := rfl

/-- Before its boot has ended a module that fail-stops counts against the slot that runs; after it, it does not. -/
theorem State.failStop_counts {s : State} (alive : s.failed = false) (f : Fault_) :
    (s.booted = false → (s.failStop f).failCount s.slotRun = s.failCount s.slotRun + 1)
      ∧ (s.booted = true → (s.failStop f).failCount s.slotRun = s.failCount s.slotRun ∧ (s.failStop f).slotRun = s.slotRun) := by
  have below : Reg.GLB_BOOT_SLOT.BelowLeaves ∧ Reg.GLB_BOOT_STAGE.BelowLeaves := by
    unfold Fld.BelowLeaves
    decide
  rw [State.failStop_eq alive]
  generalize ({ f with sev := 5, time := (s.failAll Status.ok).rackTime, nested := s.handlingFault } : Fault_) = f
  obtain ⟨flash, rd⟩ := s.stopRecorded_same f
  have slot := State.slotRun_congr (rd _ below.1 ⟨by decide⟩)
  have stage := rd _ below.2 ⟨by decide⟩
  generalize s.stopRecorded f = u at flash slot stage ⊢
  have booted : u.booted = s.booted := by
    unfold State.booted
    rw [stage]
  unfold State.stopDeclared
  rw [booted]
  refine ⟨fun early => ?_, fun late => ?_⟩
  · have counted := u.bumpFail_counts
    rw [slot, State.failCount_congr flash] at counted
    rw [early, if_neg Bool.false_ne_true, counted]
  · rw [late, if_pos rfl]
    exact ⟨(State.failCount_congr (u.sendDeclaration_flash _ _) _).trans (State.failCount_congr flash _), (State.slotRun_congr (u.sendDeclaration_rd _ _ _)).trans slot⟩

/-- The record of a control core's exception. -/
def controlRecord (core : Nat) : Fault_ := { Fault_.blank 5 Status.ok 0x0A02 with info0 := BitVec.ofNat 64 core }

theorem State.controlFault_eq (s : State) (core : Nat) (watchdog : Bool) : s.controlFault core watchdog
    = if s.booted && watchdog && !s.failed then (s.failStop (controlRecord core)).bumpFail else s.failStop (controlRecord core) := rfl

/-- A watchdog counts once against the slot that runs (R381). -/
theorem State.controlFault_counts {s : State} (alive : s.failed = false) (core : Nat) : (s.controlFault core true).failCount s.slotRun = s.failCount s.slotRun + 1 := by
  obtain ⟨early, late⟩ := State.failStop_counts alive (controlRecord core)
  rw [State.controlFault_eq, alive]
  generalize s.failStop (controlRecord core) = u at early late ⊢
  cases booted : s.booted with
  | false =>
    rw [if_neg (by decide)]
    exact early booted
  | true =>
    rw [if_pos (by decide)]
    obtain ⟨same, slot⟩ := late booted
    have counted := u.bumpFail_counts
    rw [slot, same] at counted
    exact counted

theorem State.bumpFail_failed (s : State) : s.bumpFail.failed = s.failed := by
  unfold State.bumpFail
  exact iteInduction (motive := fun t : State => t.failed = s.failed) (fun _ => rfl) (fun _ => rfl)

theorem State.controlFault_failed (s : State) (core : Nat) (watchdog : Bool) : (s.controlFault core watchdog).failed = true := by
  rw [State.controlFault_eq]
  exact iteInduction (motive := fun u : State => u.failed = true) (fun _ => (State.bumpFail_failed _).trans (s.failStop_failed _)) (fun _ => s.failStop_failed _)

theorem exec_controlFaults {s : State} (core : Fin 4) (powered : s.powered = true) (noReset : s.perst = false) :
    exec (.watchdogExpiry core) s = .next (s.controlFault core.val true) ∧ exec (.controlCoreException core) s = .next (s.controlFault core.val false) := by
  have runs : (s.powered && !s.perst) = true := by rw [powered, noReset]; rfl
  exact ⟨congrArg Host.Outcome.next (if_pos runs), congrArg Host.Outcome.next (if_pos runs)⟩

/-- Settles O57, one way of the host into the module at a time. -/
theorem hostReachesRegistersAndMemory : Obligations.HostReachesRegistersAndMemory := by
  unfold Obligations.HostReachesRegistersAndMemory
  intro v off len bs x core s powered
  have booted_stage (booted : s.booted = true) : s.stage = 4 := of_decide_eq_true booted
  refine ⟨fun idle => ?_, fun waits => ?_, fun booted alive => ⟨fun inside sound => ?_, fun some_ inside => ?_, fun past => ?_⟩, fun six alive inside sound => ?_, fun shut => ⟨?_, ?_⟩,
    fun noReset booted alive => registerWrites x powered noReset booted alive, fun _ booted => registerWrite_unbooted x booted, fun noReset alive => ⟨?_, ?_⟩⟩
  · rw [exec_msixUnmask powered, State.unmask_idle v.isLt idle]
    rfl
  · exact ⟨_, exec_msixUnmask powered, State.unmask_pending v.isLt waits⟩
  · exact State.bar2Read powered alive (.inl (booted_stage booted)) (by rw [booted_stage booted, if_neg (by decide)]; exact inside) sound
  · exact State.bar2Write powered alive (booted_stage booted) some_ inside
  · exact State.bar2Past powered alive (booted_stage booted) past
  · have stage : s.stage = 6 := six
    exact State.bar2Read powered alive (.inr stage) (by rw [stage, if_pos rfl]; exact inside) sound
  · exact State.bar2Closed off len none shut
  · exact State.bar2Closed off len (some bs) shut
  · exact ⟨_, (exec_controlFaults core powered noReset).1, s.controlFault_failed core.val true, State.controlFault_counts alive core.val⟩
  · exact ⟨_, (exec_controlFaults core powered noReset).2, s.controlFault_failed core.val false⟩

end Sys2Proof.Machine
end


section
/-! A request for LM that waits while a core pair is switched on (R362, R399, R424). -/

namespace Sys2Proof.Machine

/-- Leaf 0 is in service, its core pair 0 is being switched on, and a request for the first word of LM waits for its channel. -/
def pairOnLmWaits : State :=
  { (State.reset.wr Reg.GLB_BOOT_STAGE 4).wr (Reg.LL_STATE_STATE 0) 2 with
    failed := false, pairsOn := [0], heldReqs := [{ src := 0, tag := 0, pkt := atomOnLm }] }

/-- Whether a step leaves no request at the hub. -/
def noneAtHub (o : Host.Outcome State Fault Refusal) : Bool :=
  match o with
  | .next u => u.hubIn.isEmpty
  | _ => false

/-- Only the requests for the pair's scratchpads come back to the hub. -/
theorem corePairOnDone_lmWaits : noneAtHub (exec (.corePairOnDone 0 0) pairOnLmWaits) = true := by decide +kernel

/-- Refutes O55: a request for LM whose offset, read as one of the scratchpads, would lie in a core of the pair goes on waiting when the
pair is on. -/
theorem not_powerClocksHeatAndTime : ¬ Obligations.PowerClocksHeatAndTime := by
  unfold Obligations.PowerClocksHeatAndTime
  rintro ⟨-, heat⟩
  obtain ⟨-, -, -, done, -⟩ := heat 0 0 (.hub 0) 0 0 pairOnLmWaits (by decide +kernel) (by decide +kernel)
  obtain ⟨u, run, -, -, -, served, -⟩ := done (by decide +kernel) (by decide +kernel)
  have back : atomOnLm ∈ u.hubIn := served { src := 0, tag := 0, pkt := atomOnLm } (by decide +kernel) (by decide +kernel)
  have empty := corePairOnDone_lmWaits
  rw [run] at empty
  exact absurd back (List.isEmpty_iff.mp empty ▸ List.not_mem_nil)

end Sys2Proof.Machine
end


section
/-! A multicast KV.COMMIT where the count of C0 tokens stands above what its field holds (R118, R235). -/

namespace Sys2Proof.Machine

/-- A KV.COMMIT of sequence 0 with multicast to one module. -/
def commitAll : Entry :=
  { id := 0, ip := 0, q := 8, dw := 0, cs := 0, slotEn := false, slot := 0, inc := 0, uses := 0, sat := false, word := 0,
    op := .kvCommit 0 0 1 1 true, phase := .dispatched, left := 0, bad := 0, cause := 0, addr := 0, info := 0, sent := false,
    missed := [], time := 0, sigDue := none, late := false, landed := [] }

/-- Sequence 0 with a detent at its length of 0. -/
def atDetent : KvSeq := { geom := 0, policy := 0, len := 0, detent := some (0, 0), epoch := 0, key := 0, counter := 0 }

/-- The instruction is dispatched on core 0, and 64 tokens are counted. -/
def manyTokens : State :=
  { State.reset.modCore 0 (fun k => { k with window := [commitAll] }) with
    regs := [(Reg.SCHED_C0_STAT_TOKENS.key, 64)], kvSeqs := [(0, atDetent)], failed := false }

theorem manyTokens_serves : manyTokens.Serves 0 0 commitAll where
  alive := by decide +kernel
  ready := by decide +kernel
  slot := by decide +kernel
  array := by decide +kernel
  link := by decide +kernel
  served := by decide +kernel

/-- The tokens counted after a step. -/
def tokensAfter (o : Host.Outcome State Fault Refusal) : Nat :=
  match o with
  | .next u => u.rd Reg.SCHED_C0_STAT_TOKENS
  | _ => 0

/-- The field of five bits holds 63 modulo 32. -/
theorem kvCommit_tokens : tokensAfter (exec (.kvCommit 0 (.run 0 [])) manyTokens) = 31 := by decide +kernel

/-- Refutes O29: where the count of C0 tokens stands above the range of its field, the KV_UPDATE's token does not leave it 1 lower. -/
theorem not_kvSequencesAndLengths : ¬ Obligations.KvSequencesAndLengths := by
  unfold Obligations.KvSequencesAndLengths
  rintro ⟨-, -, update⟩
  obtain ⟨sends, -⟩ := update 0 0 0 commitAll 0 0 1 1 manyTokens
  obtain ⟨commits, -⟩ := sends atDetent 0 0 manyTokens_serves (by decide +kernel) rfl (by decide +kernel) rfl (by decide +kernel) (by decide +kernel) (by decide) (by decide)
    (by decide +kernel) (by decide +kernel) (by decide +kernel)
  obtain ⟨u, p, run, -, -, -, -, -, -, -, tokens⟩ := commits rfl
  have left := kvCommit_tokens
  rw [run] at left
  have counted : u.rd Reg.SCHED_C0_STAT_TOKENS = 31 := left
  have before : manyTokens.rd Reg.SCHED_C0_STAT_TOKENS = 64 := by decide +kernel
  omega

end Sys2Proof.Machine
end


section
/-! Packets of collectives: data and control packets act on slots, chunks and kept triples (R299-R301, R305-R307, R311). -/

namespace Sys2Proof.Machine

/-! ### A collective whose handles go on waiting -/

/-- Some handle of the collective is open, none has completed, and none has met its completion. -/
def Coll.Quiet (x : Coll) (here : Nat) : Prop := x.opens ≠ [] ∧ ∀ o ∈ x.opens, o.fin = false ∧ x.met here o = false

theorem Coll.Quiet.isOpen {x : Coll} {here : Nat} (h : x.Quiet here) : x.isOpen = true := by
  obtain ⟨o, mem⟩ := List.exists_mem_of_ne_nil x.opens h.1
  exact List.any_eq_true.mpr ⟨o, mem, by rw [(h.2 o mem).1]; rfl⟩

theorem Coll.Quiet.waits {x : Coll} {here : Nat} (h : x.Quiet here) : x.opens.filter (fun o => !o.fin && x.met here o) = [] :=
  List.filter_eq_nil_iff.mpr fun o mem => by
    rw [(h.2 o mem).2, Bool.and_false]
    exact Bool.false_ne_true

/-- A collective with an open handle has not been completed by all its cores. -/
theorem Coll.allDone_of_isOpen {x : Coll} (h : x.isOpen = true) : x.allDone = false := by
  unfold Coll.allDone
  rw [h]
  exact Bool.and_false _

theorem State.collReap_open {s : State} {gid seq : Nat} {x : Coll} (found : s.coll? gid seq = some x) (h : x.isOpen = true) : s.collReap gid seq = s := by
  unfold State.collReap
  rw [found]
  dsimp only
  rw [Coll.allDone_of_isOpen h, Bool.false_and, Bool.false_and, if_neg Bool.false_ne_true]
  exact if_neg (fun both => Bool.false_ne_true both.1)

theorem State.collComplete_quiet {s : State} {gid seq : Nat} {x : Coll} (found : s.coll? gid seq = some x) (h : x.Quiet s.modNum) : s.collComplete gid seq = s := by
  unfold State.collComplete
  rw [found]
  dsimp only
  rw [h.waits]
  exact State.collReap_open found h.isOpen

/-- The collective that a module's record names after a change of it that keeps its name. -/
theorem State.coll?_modColl {s : State} {gid seq : Nat} {x : Coll} (found : s.coll? gid seq = some x) {f : Coll → Coll}
    (name : ∀ y, (f y).gid = y.gid ∧ (f y).seq = y.seq) : (s.modColl gid seq f).coll? gid seq = some (f x) := by
  unfold State.coll? at found ⊢
  unfold State.modColl
  dsimp only
  rw [List.find?_map]
  have same : ((fun x : Coll => x.gid == gid && x.seq == seq) ∘ fun x => if (x.gid == gid && x.seq == seq) = true then f x else x)
      = fun x : Coll => x.gid == gid && x.seq == seq := by
    funext y
    dsimp only [Function.comp]
    split
    · rw [(name y).1, (name y).2]
    · rfl
  rw [same, found, Option.map_some, if_pos (List.find?_some found)]

theorem State.modColl_modNum (s : State) (gid seq : Nat) (f : Coll → Coll) : (s.modColl gid seq f).modNum = s.modNum := rfl

/-! ### Data packets (R299-R301) -/

/-- What the hub does with a data packet that arrived. -/
def State.collTaken (s : State) (p : Packet) : State :=
  match s.collArrive p with
  | some u => u
  | none => { s with storeWait := s.storeWait ++ [p] }

theorem exec_collDataPacket_good {s : State} {p : Packet} (alive : s.failed = false) (good : BitVec.ofNat 32 (crc32c p.payload) = p.pcrc) :
    exec (.collDataPacket p) s = .next ((s.takeHub p).collTaken p) := by
  have up : ¬ (s.takeHub p).failed = true := Bool.eq_false_iff.mp alive
  exact congrArg Host.Outcome.next ((if_neg up).trans (if_neg (not_not_intro good)))

theorem State.collTaken_some {s u : State} {p : Packet} (taken : s.collArrive p = some u) : s.collTaken p = u := by
  unfold State.collTaken
  rw [taken]

theorem State.collTaken_none {s : State} {p : Packet} (waits : s.collArrive p = none) : s.collTaken p = { s with storeWait := s.storeWait ++ [p] } := by
  unfold State.collTaken
  rw [waits]

theorem State.collArrive_open {s : State} {p : Packet} {x : Coll} (found : s.collBy (cdGid p) (cdSeq4 p) = some x) : s.collArrive p = s.collInput x p := by
  unfold State.collArrive
  rw [found]

/-- No kept triple is one of the packet's. -/
theorem noTriple {s : State} {p : Packet} (none_ : ∀ t ∈ s.triples, t.coll.gid ≠ cdGid p ∨ t.coll.seq % 16 ≠ cdSeq4 p) :
    ¬ s.triples.any (fun t => t.coll.gid == cdGid p && t.coll.seq % 16 == cdSeq4 p) = true := by
  intro some_
  obtain ⟨t, mem, is⟩ := List.any_eq_true.mp some_
  rw [Bool.and_eq_true, beq_iff_eq, beq_iff_eq] at is
  rcases none_ t mem with other | other
  · exact other is.1
  · exact other is.2

theorem State.collArrive_early {s : State} {p : Packet} (closed : s.collBy (cdGid p) (cdSeq4 p) = none)
    (none_ : ∀ t ∈ s.triples, t.coll.gid ≠ cdGid p ∨ t.coll.seq % 16 ≠ cdSeq4 p) :
    s.collArrive p = (s.takeSlot (cdGid p) (cdSeq4 p) (cdChunk p)).map (fun s =>
      s.modSlot (cdGid p) (cdSeq4 p) (cdChunk p) (fun z => { z with held := z.held ++ [p] })) := by
  unfold State.collArrive
  rw [closed]
  exact if_neg (noTriple none_)

/-- An input of a child, of a chunk in its present generation. -/
theorem State.collInput_child {s : State} {x : Coll} {p : Packet} (digest : p.digest = x.digest) (chunk : cdChunk p < x.chunks.length)
    (gen : cdGen p = Tab.get x.gens 0 (cdChunk p)) (up : cdDown p = false) (child : (x.children (x.rootOf (cdChunk p)) s.modNum).contains p.src = true) :
    s.collInput x p = (s.takeSlot x.gid x.seq (cdChunk p)).map (fun s => s.addInput x p) := by
  have known : ¬ (cdChunk p ≥ x.chunks.length ∨ cdGen p ≠ Tab.get x.gens 0 (cdChunk p)) := fun h => h.elim (Nat.not_le.mpr chunk) (fun other => other gen)
  unfold State.collInput
  rw [if_neg (not_not_intro digest), if_neg known, up, child]
  rfl

/-- An input of a module that is no child is discarded. -/
theorem State.collInput_stray {s : State} {x : Coll} {p : Packet} (digest : p.digest = x.digest) (up : cdDown p = false)
    (stray : (x.children (x.rootOf (cdChunk p)) s.modNum).contains p.src = false) : s.collInput x p = some s := by
  unfold State.collInput
  rw [if_neg (not_not_intro digest), up, stray]
  exact ite_self _

theorem State.takeSlot_held {s : State} {gid seq chunk : Nat} {z : CSlot} (found : s.slot? gid (seq % 16) chunk = some z) : s.takeSlot gid seq chunk = some s := by
  unfold State.takeSlot
  rw [found]
  rfl

theorem State.takeSlot_full {s : State} {gid seq chunk : Nat} (none_ : s.slot? gid (seq % 16) chunk = none) (full : s.slotFree gid = false) : s.takeSlot gid seq chunk = none := by
  unfold State.takeSlot
  rw [none_, full]
  rfl

/-- A packet that does not make its source's input whole joins the slot. -/
theorem State.addInput_joins {s : State} {x : Coll} {p : Packet} {z : CSlot} (found : s.slot? x.gid (x.seq % 16) (cdChunk p) = some z) (going : z.out = none)
    (fresh : ∀ i ∈ z.inputs, i.1 ≠ p.src ∨ i.2.1 ≠ cdPkt p)
    (part : x.inputWhole (cdChunk p) (z.inputs ++ [(p.src, cdPkt p, p.payload)]) p.src = false) :
    s.addInput x p = s.modSlot x.gid (x.seq % 16) (cdChunk p) (fun w => { w with inputs := z.inputs ++ [(p.src, cdPkt p, p.payload)] }) := by
  have new : ¬ (z.out.isSome = true ∨ z.inputs.any (fun i => i.1 == p.src && i.2.1 == cdPkt p) = true) := by
    rintro (out | again)
    · rw [going] at out
      exact Bool.false_ne_true out
    · obtain ⟨i, mem, is⟩ := List.any_eq_true.mp again
      rw [Bool.and_eq_true, beq_iff_eq, beq_iff_eq] at is
      exact (fresh i mem).elim (fun other => other is.1) (fun other => other is.2)
  unfold State.addInput
  dsimp only
  rw [found]
  dsimp only
  rw [if_neg new, part]
  exact if_neg Bool.false_ne_true

/-- An uncorrectable packet is discarded with a record. -/
theorem exec_collDataPacket_bad {s : State} {p : Packet} (alive : s.failed = false) (bad : BitVec.ofNat 32 (crc32c p.payload) ≠ p.pcrc)
    (closed : s.collBy (cdGid p) (cdSeq4 p) = none) :
    exec (.collDataPacket p) s = .next ((s.takeHub p).raise { Fault_.blank 1 Status.ok 0x0305 with other := p.src, info0 := 0x0E }) := by
  have up : ¬ (s.takeHub p).failed = true := Bool.eq_false_iff.mp alive
  have recorded := (s.takeHub p).raise_onlyRecords { Fault_.blank 1 Status.ok 0x0305 with other := p.src, info0 := 0x0E }
  have colls := (congrArg State.colls recorded.eq :)
  refine congrArg Host.Outcome.next ((if_neg up).trans ((if_pos bad).trans ?_))
  generalize (s.takeHub p).raise { Fault_.blank 1 Status.ok 0x0305 with other := p.src, info0 := 0x0E } = u at colls ⊢
  have none_ : u.collBy (cdGid p) (cdSeq4 p) = none := by
    unfold State.collBy at closed ⊢
    rw [colls]
    exact closed
  dsimp only
  rw [none_]

/-! ### A slot that comes free (R300) -/

/-- Where a slot is free the first packet that waits goes into it. -/
theorem State.takeSlot_free {s : State} {gid chunk : Nat} {seq : Nat} (few : seq % 16 = seq) (free : s.slotFree gid = true) :
    ∃ t : State, s.takeSlot gid seq chunk = some t ∧ t = { s with store := t.store } ∧ ∃ z ∈ t.store, z.gid = gid ∧ z.seq % 16 = seq ∧ z.chunk = chunk := by
  unfold State.takeSlot
  cases found : s.slot? gid (seq % 16) chunk with
  | some z =>
    have is := List.find?_some found
    rw [Bool.and_eq_true, Bool.and_eq_true, beq_iff_eq, beq_iff_eq, beq_iff_eq] at is
    obtain ⟨⟨group, number⟩, part⟩ := is
    exact ⟨s, rfl, rfl, z, List.mem_of_find?_eq_some found, group, number.trans few, part⟩
  | none =>
    refine ⟨_, if_pos free, rfl, _, List.mem_append_right _ (List.mem_singleton.mpr rfl), rfl, few, rfl⟩

theorem cdSeq4_small (p : Packet) : cdSeq4 p % 16 = cdSeq4 p := Nat.mod_mod_of_dvd _ (by decide)

/-- With no collective open, a packet that finds a slot is held in it. -/
theorem State.collArrive_held {s : State} {p : Packet} (closed : s.colls = []) (none_ : ∀ t ∈ s.triples, t.coll.gid ≠ cdGid p ∨ t.coll.seq % 16 ≠ cdSeq4 p)
    (free : s.slotFree (cdGid p) = true) :
    ∃ u : State, s.collArrive p = some u ∧ u = { s with store := u.store } ∧ ∃ z ∈ u.store, z.gid = cdGid p ∧ z.chunk = cdChunk p ∧ p ∈ z.held := by
  have unknown : s.collBy (cdGid p) (cdSeq4 p) = none := by
    unfold State.collBy
    rw [closed]
    rfl
  obtain ⟨t, taken, only, z, mem, group, number, part⟩ := State.takeSlot_free (chunk := cdChunk p) (cdSeq4_small p) free
  refine ⟨_, (State.collArrive_early unknown none_).trans (by rw [taken, Option.map_some]), ?_, { z with held := z.held ++ [p] }, ?_, group, part,
    List.mem_append_right _ (List.mem_singleton.mpr rfl)⟩
  · rw [only]
    rfl
  · refine List.mem_map.mpr ⟨z, mem, ?_⟩
    exact if_pos (by rw [group, number, part]; simp)

theorem storeSlotGrant_serves {s : State} {p : Packet} {ws : List Packet} (alive : s.failed = false) (closed : s.colls = []) (first : s.storeWait = p :: ws)
    (none_ : ∀ t ∈ s.triples, t.coll.gid ≠ cdGid p ∨ t.coll.seq % 16 ≠ cdSeq4 p) (free : s.slotFree (cdGid p) = true) :
    ∃ u : State, exec .storeSlotGrant s = .next u ∧ u = { s with storeWait := ws, store := u.store } ∧ ∃ z ∈ u.store, z.gid = cdGid p ∧ z.chunk = cdChunk p ∧ p ∈ z.held := by
  obtain ⟨now, taken, -⟩ := State.collArrive_held closed none_ free
  have next : s.storeWait.find? (fun q => (s.collArrive q).isSome) = some p := by
    rw [first, List.find?_cons_of_pos]
    rw [taken]
    rfl
  have rest : s.storeWait.erase p = ws := by rw [first, List.erase_cons_head]
  obtain ⟨u, arrives, only, held⟩ := State.collArrive_held (s := { s with storeWait := s.storeWait.erase p }) closed none_ free
  refine ⟨u, ?_, ?_, held⟩
  · have none_ : u.colls = [] := (congrArg State.colls only :).trans closed
    have up : ¬ s.failed = true := Bool.eq_false_iff.mp alive
    refine congrArg Host.Outcome.next ((if_neg up).trans ?_)
    rw [next]
    dsimp only
    rw [arrives]
    dsimp only [Option.getD_some]
    rw [none_]
    rfl
  · rw [rest] at only
    exact only

/-! ### Control packets (R306, R307, R311) -/

theorem exec_receipt_frees {s : State} {p : Packet} {x : Coll} {z : CSlot} {b : List Byte} (alive : s.failed = false) (found : s.coll? (ccGid p) (ccSeq p) = some x)
    (slot : s.slot? x.gid (x.seq % 16) (ccChunk p) = some z) (out : z.out = some b) (early : z.final = none) (open_ : x.isOpen = true) :
    exec (.receipt p) s = .next ((s.takeHub p).dropSlot x.gid x.seq (ccChunk p)) := by
  have up : ¬ (s.takeHub p).failed = true := Bool.eq_false_iff.mp alive
  have there : (s.takeHub p).coll? (ccGid p) (ccSeq p) = some x := found
  have holds : (s.takeHub p).slot? x.gid (x.seq % 16) (ccChunk p) = some z := slot
  obtain ⟨group, number⟩ := State.coll?_name found
  have still : ((s.takeHub p).dropSlot x.gid x.seq (ccChunk p)).coll? x.gid x.seq = some x := by
    rw [group, number]
    exact found
  refine congrArg Host.Outcome.next ((if_neg up).trans ?_)
  rw [there]
  dsimp only
  rw [holds]
  dsimp only
  rw [out, early]
  exact (if_pos ⟨rfl, rfl⟩).trans (State.collReap_open still open_)

/-! ### What the end of a chunk leaves of the store (R306) -/

theorem State.sendFree_store (s : State) (c : Nat) (p : Packet) : (s.sendFree c p).store = s.store := by
  unfold State.sendFree
  refine iteInduction (motive := fun u : State => u.store = s.store) (fun _ => ?_) (fun _ => rfl)
  unfold State.sendC0
  exact iteInduction (motive := fun r : State × Bool => r.1.store = s.store) (fun _ => rfl) (fun _ => rfl)

theorem State.modColl_store (s : State) (gid seq : Nat) (f : Coll → Coll) : (s.modColl gid seq f).store = s.store := rfl

theorem State.collStatus_store (s : State) (x : Coll) (st : Nat) : (s.collStatus x st).store = s.store := by
  unfold State.collStatus
  refine (State.hmStore_store _ _ _).trans ?_
  refine iteInduction (motive := fun u : State => u.store = s.store) (fun _ => s.hmStore_store _ _) (fun _ => ?_)
  exact iteInduction (motive := fun u : State => u.store = s.store) (fun _ => s.hmStore_store _ _) (fun _ => s.hmStore_store _ _)

theorem State.spoilTd_store (s : State) (x : Coll) (o : CollOpen) (st : Nat) : (s.spoilTd x o st).store = s.store := by
  unfold State.spoilTd
  refine iteInduction (motive := fun u : State => u.store = s.store) (fun _ => ?_) (fun _ => rfl)
  exact foldl_same State.store (fun (t : State) (r : Nat × Nat) => t.modCore o.core (fun k => { k with sp := k.sp.smudge r.1 r.2 s.freshJunk.1 })) (fun _ _ => rfl) _ s.freshJunk.2

theorem State.closeOpen_store (s : State) (x : Coll) (o : CollOpen) (st : Nat) : (s.closeOpen x o st).store = s.store := by
  unfold State.closeOpen
  dsimp only
  refine iteInduction (motive := fun u : State => u.store = s.store) (fun _ => rfl) (fun _ => ?_)
  have spoilt (t : State) (f : Core → Core) : (((t.spoilTd x o st).modCore o.core f).finishBad o.core o.id st 0x0802 0 x.name).store = t.store := t.spoilTd_store x o st
  exact (spoilt _ _).trans rfl

theorem State.collReport_store (s : State) (x : Coll) (o : CollOpen) : (s.collReport x o).store = s.store := by
  unfold State.collReport
  cases (s.core o.core).entry? o.id with
  | none => rfl
  | some e => exact iteInduction (motive := fun u : State => u.store = s.store) (fun _ => rfl) (fun _ => rfl)

theorem State.collReap_store (s : State) (gid seq : Nat) : (s.collReap gid seq).store = s.store := by
  unfold State.collReap
  cases s.coll? gid seq with
  | none => rfl
  | some x =>
    dsimp only
    have counted : (if x.allDone ∧ x.counted = false then (s.collStatus x (s.okStatus x)).modColl gid seq (fun y => { y with counted := true }) else s).store = s.store :=
      iteInduction (motive := fun u : State => u.store = s.store) (fun _ => (State.modColl_store _ _ _ _).trans (s.collStatus_store x _)) (fun _ => rfl)
    generalize (if x.allDone ∧ x.counted = false then (s.collStatus x (s.okStatus x)).modColl gid seq (fun y => { y with counted := true }) else s) = t at counted ⊢
    exact iteInduction (motive := fun u : State => u.store = s.store) (fun _ => counted) (fun _ => counted)

theorem State.collComplete_store (s : State) (gid seq : Nat) : (s.collComplete gid seq).store = s.store := by
  unfold State.collComplete
  cases s.coll? gid seq with
  | none => rfl
  | some x =>
    refine (State.collReap_store _ gid seq).trans (foldl_same State.store _ (fun u o => ?_) _ s)
    refine (State.closeOpen_store _ x o _).trans ?_
    exact iteInduction (motive := fun t : State => t.store = u.store) (fun _ => u.collReport_store x o) (fun _ => rfl)

/-- The last CONSUMED frees the slot. -/
theorem State.noteConsumed_frees {s : State} {x : Coll} {k m : Nat} {z : CSlot} {f : Nat} (slot : s.slot? x.gid (x.seq % 16) k = some z) (final : z.final = some f)
    (all : ∀ d ∈ s.consumers x k, d = m ∨ d ∈ z.consumed) : ∀ y ∈ (s.noteConsumed x k m).store, ¬ (y.gid == x.gid && y.seq % 16 == x.seq % 16 && y.chunk == k) = true := by
  have noted : (s.modSlot x.gid (x.seq % 16) k (fun z => { z with consumed := if z.consumed.contains m then z.consumed else z.consumed ++ [m] })).slot? x.gid (x.seq % 16) k
      = some { z with consumed := if z.consumed.contains m then z.consumed else z.consumed ++ [m] } := by
    unfold State.slot? at slot ⊢
    unfold State.modSlot
    dsimp only
    have same : ((fun y : CSlot => y.gid == x.gid && y.seq % 16 == x.seq % 16 && y.chunk == k) ∘ fun y : CSlot =>
        if (y.gid == x.gid && y.seq % 16 == x.seq % 16 && y.chunk == k) = true then { y with consumed := if y.consumed.contains m then y.consumed else y.consumed ++ [m] } else y)
        = fun y : CSlot => y.gid == x.gid && y.seq % 16 == x.seq % 16 && y.chunk == k := by
      funext y
      dsimp only [Function.comp]
      split <;> rfl
    rw [List.find?_map, same, slot, Option.map_some, if_pos (List.find?_some slot)]
  have whole : ∀ d ∈ s.consumers x k, d ∈ (if z.consumed.contains m then z.consumed else z.consumed ++ [m]) := by
    intro d mem
    by_cases known : z.consumed.contains m = true
    · rw [if_pos known]
      rcases all d mem with rfl | before
      · exact List.contains_iff_mem.mp known
      · exact before
    · rw [if_neg known]
      rcases all d mem with rfl | before
      · exact List.mem_append_right _ (List.mem_singleton.mpr rfl)
      · exact List.mem_append_left _ before
  have dues : (s.modSlot x.gid (x.seq % 16) k (fun z => { z with consumed := if z.consumed.contains m then z.consumed else z.consumed ++ [m] })).consumers x k = s.consumers x k := rfl
  unfold State.noteConsumed
  dsimp only
  rw [noted]
  dsimp only
  rw [if_pos ⟨final ▸ rfl, List.all_eq_true.mpr fun d mem => List.contains_iff_mem.mpr (whole d (dues ▸ mem))⟩]
  generalize s.modSlot x.gid (x.seq % 16) k _ = t
  have freed : ∀ y ∈ (t.dropSlot x.gid x.seq k).store, ¬ (y.gid == x.gid && y.seq % 16 == x.seq % 16 && y.chunk == k) = true := by
    intro y mem
    have kept := (List.mem_filter.mp mem).2
    rw [Bool.not_eq_true'] at kept
    exact Bool.eq_false_iff.mp kept
  refine iteInduction (motive := fun u : State => ∀ y ∈ u.store, ¬ (y.gid == x.gid && y.seq % 16 == x.seq % 16 && y.chunk == k) = true) (fun _ => ?_) (fun _ => freed)
  rw [foldl_same State.store (fun s d => s.sendCtl x d CKind.done 0 k 0 noMask 0 0) (fun u d => u.sendFree_store _ _)]
  exact freed

theorem exec_consumed_frees {s : State} {p : Packet} {x : Coll} {z : CSlot} {f : Nat} (alive : s.failed = false) (found : s.coll? (ccGid p) (ccSeq p) = some x)
    (slot : s.slot? x.gid (x.seq % 16) (ccChunk p) = some z) (final : z.final = some f) (all : ∀ m ∈ s.consumers x (ccChunk p), m = p.src ∨ m ∈ z.consumed) :
    ∃ u : State, exec (.consumed p) s = .next u ∧ u.slot? x.gid (x.seq % 16) (ccChunk p) = none := by
  have up : ¬ (s.takeHub p).failed = true := Bool.eq_false_iff.mp alive
  have there : (s.takeHub p).coll? (ccGid p) (ccSeq p) = some x := found
  have holds : (s.takeHub p).slot? x.gid (x.seq % 16) (ccChunk p) = some z := slot
  have run : exec (.consumed p) s = .next (((s.takeHub p).noteConsumed x (ccChunk p) p.src).collComplete x.gid x.seq) := by
    refine congrArg Host.Outcome.next ((if_neg up).trans ?_)
    rw [there]
  refine ⟨_, run, List.find?_eq_none.mpr ?_⟩
  rw [State.collComplete_store]
  exact State.noteConsumed_frees holds final all

theorem exec_done_noted {s : State} {p : Packet} {x : Coll} (alive : s.failed = false) (found : s.coll? (ccGid p) (ccSeq p) = some x) (leaf : x.children x.root s.modNum = [])
    (new : ccChunk p ∉ x.dones) (quiet : ({ x with dones := x.dones ++ [ccChunk p] } : Coll).Quiet s.modNum) :
    exec (.done p) s = .next ((s.takeHub p).modColl x.gid x.seq (fun y => { y with dones := if y.dones.contains (ccChunk p) then y.dones else y.dones ++ [ccChunk p] })) := by
  have up : ¬ (s.takeHub p).failed = true := Bool.eq_false_iff.mp alive
  have there : (s.takeHub p).coll? (ccGid p) (ccSeq p) = some x := found
  have kids : x.children x.root (s.takeHub p).modNum = [] := leaf
  obtain ⟨group, number⟩ := State.coll?_name found
  have named : (s.takeHub p).coll? x.gid x.seq = some x := by
    rw [group, number]
    exact found
  have noted := State.coll?_modColl named (f := fun y => { y with dones := if y.dones.contains (ccChunk p) then y.dones else y.dones ++ [ccChunk p] }) (fun _ => ⟨rfl, rfl⟩)
  have absent : ¬ x.dones.contains (ccChunk p) = true := fun known => new (List.contains_iff_mem.mp known)
  rw [if_neg absent] at noted
  refine congrArg Host.Outcome.next ((if_neg up).trans ?_)
  rw [there]
  dsimp only
  rw [kids, List.foldl_nil]
  exact State.collComplete_quiet noted quiet

/-- The destinations that a MISS names are noted. -/
def Coll.missing (x : Coll) (ds : List Nat) : Coll :=
  { x with missed := ds.foldl (fun (t : Tab Word) d => t.put (rackBit d) (Tab.get t 0 (rackBit d) ||| BitVec.twoPow 64 (inRackBit d))) x.missed }

theorem Coll.missing_name (x : Coll) (ds : List Nat) : (x.missing ds).gid = x.gid ∧ (x.missing ds).seq = x.seq := ⟨rfl, rfl⟩

theorem Coll.missing_quiet {x : Coll} {here : Nat} (h : x.Quiet here) (ds : List Nat) : (x.missing ds).Quiet here := h

theorem Coll.missing_eq (x : Coll) (ds : List Nat) : x.missing ds = { x with missed := (x.missing ds).missed } := rfl

theorem mem_maskMembers {mask : MaskPair} {m : Nat} (small : m < 4096) (names : maskNames mask m = true) : m ∈ maskMembers mask := by
  unfold maskMembers
  exact List.mem_filter.mpr ⟨List.mem_range.mpr small, names⟩

theorem Coll.missing_bit (x : Coll) (ds : List Nat) (r b : Nat) (noted : (Tab.get x.missed 0 r).getLsbD b = true) : (Tab.get (x.missing ds).missed 0 r).getLsbD b = true := by
  refine foldl_keeps (fun t : Tab Word => (Tab.get t 0 r).getLsbD b = true) _ (fun t d h => ?_) ds x.missed noted
  by_cases same : r = rackBit d
  · subst same
    rw [Tab.get_put_same, BitVec.getLsbD_or, h, Bool.true_or]
  · rw [Tab.get_put_other _ _ _ _ _ same]
    exact h

theorem Coll.missing_mem (x : Coll) {ds : List Nat} {m : Nat} (mem : m ∈ ds) : (Tab.get (x.missing ds).missed 0 (rackBit m)).getLsbD (inRackBit m) = true := by
  induction ds generalizing x with
  | nil => cases mem
  | cons d ds ih =>
    rcases List.mem_cons.mp mem with rfl | later
    · refine Coll.missing_bit { x with missed := x.missed.put (rackBit m) (Tab.get x.missed 0 (rackBit m) ||| BitVec.twoPow 64 (inRackBit m)) } ds _ _ ?_
      have within : inRackBit m < 64 := Nat.mod_lt _ (by decide)
      rw [Tab.get_put_same, BitVec.getLsbD_or, BitVec.getLsbD_twoPow]
      simp [within]
    · exact ih { x with missed := x.missed.put (rackBit d) (Tab.get x.missed 0 (rackBit d) ||| BitVec.twoPow 64 (inRackBit d)) } later

theorem exec_miss_noted {s : State} {p : Packet} {x : Coll} (alive : s.failed = false) (found : s.coll? (ccGid p) (ccSeq p) = some x) (quiet : x.Quiet s.modNum) :
    exec (.miss p) s = .next ((s.takeHub p).modColl x.gid x.seq (fun y => y.missing (maskMembers (ccMask p))))
      ∧ ((s.takeHub p).modColl x.gid x.seq (fun y => y.missing (maskMembers (ccMask p)))).coll? x.gid x.seq = some (x.missing (maskMembers (ccMask p))) := by
  have up : ¬ (s.takeHub p).failed = true := Bool.eq_false_iff.mp alive
  have there : (s.takeHub p).coll? (ccGid p) (ccSeq p) = some x := found
  obtain ⟨group, number⟩ := State.coll?_name found
  have named : (s.takeHub p).coll? x.gid x.seq = some x := by
    rw [group, number]
    exact found
  have noted := State.coll?_modColl named (f := fun y => y.missing (maskMembers (ccMask p))) (fun y => y.missing_name _)
  refine ⟨congrArg Host.Outcome.next ((if_neg up).trans ?_), noted⟩
  rw [there]
  exact State.collComplete_quiet noted (Coll.missing_quiet quiet _)

/-! ### RESEND (R307) -/

/-- What a RESEND of a chunk in its present generation does. -/
def State.sendsAgain (s : State) (p : Packet) (copy : ScrubFind) (x : Coll) : State :=
  match s.slot? x.gid (x.seq % 16) (ccChunk p) with
  | some z => match z.out, copy with
    | none, _ => s
    | some _, .uncorrectable => s.copyLost x (ccChunk p) z
    | some bs, .clean => s.resendChunk x p.src (ccChunk p) z.final.isSome (ccPkts p) bs
    | some bs, .corrected =>
      (s.raise { Fault_.blank 1 Status.ok 0x0201 with info0 := 0xFF }).resendChunk x p.src (ccChunk p) z.final.isSome (ccPkts p) bs
  | none =>
    if x.sent.contains (ccChunk p) ∧ x.reduces then
      if (s.contribution x (ccChunk p)).2 then s.collFail x Status.collAborted
      else s.resendChunk x p.src (ccChunk p) false (ccPkts p) (s.contribution x (ccChunk p)).1
    else s

theorem exec_resend_present {s : State} {p : Packet} {x : Coll} (copy : ScrubFind) (alive : s.failed = false) (found : s.coll? (ccGid p) (ccSeq p) = some x)
    (known : ccChunk p < x.chunks.length) (same : (ccFlags p).testBit 0 = false) (gen : ccGen p = Tab.get x.gens 0 (ccChunk p)) :
    exec (.resend p copy []) s = .next ((s.takeHub p).sendsAgain p copy x) := by
  have up : ¬ (s.takeHub p).failed = true := Bool.eq_false_iff.mp alive
  have there : (s.takeHub p).coll? (ccGid p) (ccSeq p) = some x := found
  refine congrArg Host.Outcome.next ((if_neg up).trans ?_)
  rw [there]
  exact (if_neg (Nat.not_le.mpr known)).trans ((if_neg (Bool.eq_false_iff.mp same)).trans (if_neg (not_not_intro gen)))

theorem State.sendsAgain_slot {s : State} {p : Packet} {x : Coll} {z : CSlot} (slot : s.slot? x.gid (x.seq % 16) (ccChunk p) = some z) {b : List Byte} (out : z.out = some b) :
    s.sendsAgain p .clean x = s.resendChunk x p.src (ccChunk p) z.final.isSome (ccPkts p) b
      ∧ s.sendsAgain p .corrected x = (s.raise { Fault_.blank 1 Status.ok 0x0201 with info0 := 0xFF }).resendChunk x p.src (ccChunk p) z.final.isSome (ccPkts p) b
      ∧ s.sendsAgain p .uncorrectable x = s.copyLost x (ccChunk p) z := by
  refine ⟨?_, ?_, ?_⟩
  all_goals
    unfold State.sendsAgain
    rw [slot]
    dsimp only
    rw [out]

theorem State.sendsAgain_sent {s : State} {p : Packet} {x : Coll} (f : ScrubFind) (none_ : s.slot? x.gid (x.seq % 16) (ccChunk p) = none) (sent : ccChunk p ∈ x.sent)
    (reduces : x.reduces = true) (sound : (s.contribution x (ccChunk p)).2 = false) :
    s.sendsAgain p f x = s.resendChunk x p.src (ccChunk p) false (ccPkts p) (s.contribution x (ccChunk p)).1 := by
  unfold State.sendsAgain
  rw [none_]
  dsimp only
  rw [if_pos ⟨List.contains_iff_mem.mpr sent, reduces⟩, sound]
  exact if_neg Bool.false_ne_true

/-- Settles O32, one packet at a time. -/
theorem collectivePacketsAct : Obligations.CollectivePacketsAct := by
  unfold Obligations.CollectivePacketsAct
  refine ⟨fun p s alive => ⟨?joins, ?stray, ?waits, ?bad, ?grant⟩, fun p x s alive found => ⟨?receipt, ?consumed, ?done, ?miss, ?resend, fun _ _ => rfl⟩⟩
  case joins =>
    intro x z good open_ digest chunk gen up child slot going fresh part
    obtain taken := State.takeSlot_held (s := s.takeHub p) (gid := x.gid) slot
    rw [exec_collDataPacket_good alive good]
    refine congrArg Host.Outcome.next (State.collTaken_some ?_)
    rw [State.collArrive_open (s := s.takeHub p) open_, State.collInput_child (s := s.takeHub p) digest chunk gen up child, taken, Option.map_some,
      State.addInput_joins (s := s.takeHub p) slot going fresh part]
  case stray =>
    intro x good open_ digest up stray
    rw [exec_collDataPacket_good alive good]
    refine congrArg Host.Outcome.next (State.collTaken_some ?_)
    rw [State.collArrive_open (s := s.takeHub p) open_, State.collInput_stray (s := s.takeHub p) digest up stray]
  case waits =>
    intro good closed none_ empty full
    rw [exec_collDataPacket_good alive good]
    refine congrArg Host.Outcome.next (State.collTaken_none ?_)
    have absent : (s.takeHub p).slot? (cdGid p) (cdSeq4 p % 16) (cdChunk p) = none := by
      rw [cdSeq4_small]
      exact empty
    rw [State.collArrive_early (s := s.takeHub p) closed none_, State.takeSlot_full absent full, Option.map_none]
  case bad => exact fun wrong closed => exec_collDataPacket_bad alive wrong closed
  case grant => exact fun ws closed first none_ free => storeSlotGrant_serves alive closed first none_ free
  case receipt => exact fun z b slot out early open_ => exec_receipt_frees alive found slot out early open_
  case consumed => exact fun z f slot final all => exec_consumed_frees alive found slot final all
  case done => exact fun leaf new quiet => exec_done_noted alive found leaf new quiet
  case miss =>
    intro quiet
    obtain ⟨run, noted⟩ := exec_miss_noted alive found quiet
    exact ⟨_, run, rfl, _, noted, x.missing_eq _, fun m small names => x.missing_mem (mem_maskMembers small names)⟩
  case resend =>
    intro known same gen
    refine ⟨fun z b slot out => ?_, fun f none_ sent reduces sound => ?_⟩
    · obtain ⟨clean, corrected, lost⟩ := State.sendsAgain_slot (s := s.takeHub p) slot out
      refine ⟨?_, ?_, fun early => ?_⟩
      · rw [exec_resend_present .clean alive found known same gen, clean]
        rfl
      · rw [exec_resend_present .corrected alive found known same gen, corrected]
        rfl
      · rw [exec_resend_present .uncorrectable alive found known same gen, lost]
        exact congrArg Host.Outcome.next (if_pos (by rw [early]; rfl))
    · rw [exec_resend_present f alive found known same gen, State.sendsAgain_sent (s := s.takeHub p) f none_ sent reduces sound]
      rfl

end Sys2Proof.Machine
end


section
/-! COLL.OPEN and COLL.PUB: handles register and close, publications add up to chunks, and chunks leave (R120-R122, R293-R301, R304, R305, R309, R340). -/

namespace Sys2Proof.Machine

/-! ### An instruction that has begun crosses its leaf's link (R340) -/

theorem State.Runs.crossesLink {s v : State} {c : CoreId} {id : Nat} {e : Entry} {i : Instr} (r : s.Runs c id e) (leaves : s.crosses c.val e.op = true)
    {f : State → Entry → State} (run : exec i s = .next (s.runEntry c.val id [] f)) (effect : f s e = v)
    (begun : ∀ x, (v.core c.val).entry? id = some x → x.phase ≠ .dispatched) : exec i s = .next (v.crossLink (c.val / 12)) := by
  rw [run, r.run_crossing f, effect, State.crossed, if_pos leaves]
  intro x found
  rw [effect, r.id_eq] at found
  exact begun x found

/-! ### A handle registers (R293) -/

/-- A handle names its collective, and its instruction waits. -/
def State.handleOpened (s : State) (c id h : Nat) (x : Coll) : State :=
  (s.modEntry c id (fun e => { e with phase := .waiting })).modCore c (fun k => { k with handles := k.handles.setIfInBounds h (some (x.gid, x.seq)) })

/-- A collective's record joins the module's. -/
def State.collJoined (s : State) (y : Coll) : State := { s with colls := s.colls ++ [y] }

/-- The handle of a COLL.OPEN. -/
def openOf (c id h : Nat) (td : TileWord) : CollOpen := { core := c, id := id, handle := h, td := td, got := [], fin := false }

/-- The module knows nothing yet of the collective, which asks for something of this module. -/
structure State.Unknown (s : State) (x : Coll) (o : CollOpen) : Prop where
  record : s.coll? x.gid x.seq = none
  slots  : ∀ z ∈ s.store, z.gid ≠ x.gid ∨ z.seq % 16 ≠ x.seq % 16
  waits  : ({ x with opens := [o] } : Coll).met s.modNum o = false

theorem Coll.quiet_of_one {x : Coll} {here : Nat} {o : CollOpen} (fin : o.fin = false) (waits : ({ x with opens := [o] } : Coll).met here o = false) :
    ({ x with opens := [o] } : Coll).Quiet here := by
  refine ⟨List.cons_ne_nil _ _, fun p mem => ?_⟩
  rw [List.mem_singleton.mp mem]
  exact ⟨fin, waits⟩

theorem State.collJoined_coll? {s : State} {y : Coll} (new : s.coll? y.gid y.seq = none) : (s.collJoined y).coll? y.gid y.seq = some y := by
  unfold State.coll? at new ⊢
  unfold State.collJoined
  rw [List.find?_append, new, Option.none_or, List.find?_cons_of_pos]
  simp

/-- The registered state. -/
def State.registered (s : State) (c id h : Nat) (td : TileWord) (x : Coll) : State :=
  (s.handleOpened c id h x).collJoined { x with opens := [openOf c id h td] }

theorem State.registered_coll? {s : State} {c id h : Nat} {td : TileWord} {x : Coll} (u : s.Unknown x (openOf c id h td)) :
    (s.registered c id h td x).coll? x.gid x.seq = some { x with opens := [openOf c id h td] } :=
  State.collJoined_coll? (s := s.handleOpened c id h x) (y := { x with opens := [openOf c id h td] }) u.record

theorem State.registered_regs (s : State) (c id h : Nat) (td : TileWord) (x : Coll) : (s.registered c id h td x).regs = s.regs ∧ (s.registered c id h td x).straps = s.straps := by
  have joined (t : State) (y : Coll) : (t.collJoined y).regs = t.regs ∧ (t.collJoined y).straps = t.straps := ⟨rfl, rfl⟩
  obtain ⟨regs, straps⟩ := joined (s.handleOpened c id h x) { x with opens := [openOf c id h td] }
  exact ⟨regs.trans ((State.modCore_regs ..).trans (State.modCore_regs ..)), straps.trans ((State.modCore_straps ..).trans (State.modCore_straps ..))⟩

theorem State.registered_modNum (s : State) (c id h : Nat) (td : TileWord) (x : Coll) : (s.registered c id h td x).modNum = s.modNum := by
  obtain ⟨regs, straps⟩ := s.registered_regs c id h td x
  exact State.modNum_congr regs straps

theorem Coll.lost_congr {s t : State} (regs : t.regs = s.regs) (straps : t.straps = s.straps) (x : Coll) : x.lost t = x.lost s := by
  unfold Coll.lost State.padlocked State.fdDead
  simp only [State.modNum_congr regs straps, State.route_congr regs, State.rd_congr s t _ regs]

theorem State.registered_lost (s : State) (c id h : Nat) (td : TileWord) (x : Coll) : x.lost (s.registered c id h td x) = x.lost s := by
  obtain ⟨regs, straps⟩ := s.registered_regs c id h td x
  exact Coll.lost_congr regs straps x

theorem State.registered_store (s : State) (c id h : Nat) (td : TileWord) (x : Coll) : (s.registered c id h td x).store = s.store := by
  have joined (t : State) (y : Coll) : (t.collJoined y).store = t.store := rfl
  exact (joined _ _).trans ((State.modCore_store ..).trans (State.modCore_store ..))

theorem State.registered_only (s : State) (c id h : Nat) (td : TileWord) (x : Coll) :
    s.registered c id h td x = { s with cores := (s.registered c id h td x).cores, colls := s.colls ++ [{ x with opens := [openOf c id h td] }] } := by
  have joined (t : State) (cores : Vector Core 48) (y : Coll) : ({ t with cores := cores } : State).collJoined y
      = { t with cores := (({ t with cores := cores } : State).collJoined y).cores, colls := t.colls ++ [y] } := rfl
  exact joined s (s.handleOpened c id h x).cores { x with opens := [openOf c id h td] }

theorem State.registered_core {s : State} {c : CoreId} {id h : Nat} {e : Entry} (entry : (s.core c.val).entry? id = some e) (small : h < 8) (td : TileWord) (x : Coll) :
    ((s.registered c.val id h td x).core c.val).handles.getD h none = some (x.gid, x.seq)
      ∧ ((s.registered c.val id h td x).core c.val).entry? id = some { e with phase := .waiting } := by
  have core : (s.registered c.val id h td x).core c.val = (s.handleOpened c.val id h x).core c.val := rfl
  have waiting := s.modEntry_entry c id (g := fun e => { e with phase := .waiting }) (fun _ => rfl)
  rw [entry, Option.map_some] at waiting
  rw [core]
  unfold State.handleOpened
  generalize s.modEntry c.val id (fun e => { e with phase := .waiting }) = a at waiting ⊢
  rw [State.core_modCore _ _ _ c.isLt]
  exact ⟨getD_set_same _ _ _ _ small, waiting⟩

/-- The inputs that waited for a new collective are taken; it ends at once where it needs a lost member. -/
def State.inputsTaken (s : State) (x : Coll) : State :=
  let t := (((s.store.filter (fun k => k.gid == x.gid && k.seq % 16 == x.seq % 16)).flatMap CSlot.held).foldl (fun (s : State) p => match s.collArrive p with
    | some s => s
    | none => { s with storeWait := s.storeWait ++ [p] }) { s with store := s.store.filter (fun k => !(k.gid == x.gid && k.seq % 16 == x.seq % 16)) })
  if x.lost t then (match t.coll? x.gid x.seq with | some y => t.collEnd y Status.collAborted true | none => t) else t.collComplete x.gid x.seq

theorem State.registerOpen_new {s : State} {c id h : Nat} {td : TileWord} {x : Coll} (new : (s.handleOpened c id h x).coll? x.gid x.seq = none) :
    s.registerOpen c id h td x = (s.registered c id h td x).inputsTaken x := by
  unfold State.handleOpened at new
  unfold State.registerOpen
  dsimp only
  rw [new]
  rfl

theorem State.registerOpen_unknown {s : State} {c id h : Nat} {td : TileWord} {x : Coll} (u : s.Unknown x (openOf c id h td)) : s.registerOpen c id h td x
    = if x.lost s then (s.registered c id h td x).collEnd { x with opens := [openOf c id h td] } Status.collAborted true else s.registered c id h td x := by
  have new : (s.handleOpened c id h x).coll? x.gid x.seq = none := u.record
  have joined := State.registered_coll? u
  have quiet : ({ x with opens := [openOf c id h td] } : Coll).Quiet (s.registered c id h td x).modNum := by
    rw [State.registered_modNum]
    exact Coll.quiet_of_one rfl u.waits
  have stays := State.collComplete_quiet joined quiet
  have lost := s.registered_lost c id h td x
  have store := s.registered_store c id h td x
  have none_ : (s.registered c id h td x).store.filter (fun k => k.gid == x.gid && k.seq % 16 == x.seq % 16) = [] := by
    rw [store]
    refine List.filter_eq_nil_iff.mpr fun z mem is => ?_
    rw [Bool.and_eq_true, beq_iff_eq, beq_iff_eq] at is
    exact (u.slots z mem).elim (fun other => other is.1) (fun other => other is.2)
  have all : (s.registered c id h td x).store.filter (fun k => !(k.gid == x.gid && k.seq % 16 == x.seq % 16)) = (s.registered c id h td x).store := by
    rw [store]
    refine List.filter_eq_self.mpr fun z mem => ?_
    rw [Bool.not_eq_true', Bool.and_eq_false_iff, beq_eq_false_iff_ne, beq_eq_false_iff_ne]
    exact u.slots z mem
  have same : ({ s.registered c id h td x with store := (s.registered c id h td x).store.filter (fun k => !(k.gid == x.gid && k.seq % 16 == x.seq % 16)) } : State)
      = s.registered c id h td x := by
    rw [all]
  rw [State.registerOpen_new new]
  generalize s.registered c id h td x = v at joined stays lost none_ same ⊢
  unfold State.inputsTaken
  rw [none_, same]
  rw [List.flatMap_nil, List.foldl_nil]
  dsimp only
  rw [lost, joined, stays]

/-! ### A COLL.OPEN that ends at once (R305, R309) -/

/-- The instruction has completed with a status, and no collective of the name is open. -/
structure State.OpenEnds (c : CoreId) (id : Nat) (x : Coll) (st : Nat) (u : State) : Prop where
  done : ∃ f, (u.core c.val).entry? id = some f ∧ f.phase = .done st
  none : u.coll? x.gid x.seq = none

theorem State.registered_ends {s : State} {c : CoreId} {id h : Nat} {td : TileWord} {x : Coll} {e : Entry} (entry : (s.core c.val).entry? id = some e) (small : h < 8)
    (st : Nat) : State.OpenEnds c id x st ((s.registered c.val id h td x).collEnd { x with opens := [openOf c.val id h td] } st true) := by
  obtain ⟨-, waiting⟩ := State.registered_core entry small td x
  generalize s.registered c.val id h td x = v at waiting ⊢
  obtain ⟨gone, -, -, handles⟩ := State.collEnd_ended (s := v) rfl { x with opens := [openOf c.val id h td] } st true
  obtain ⟨-, done⟩ := handles (openOf c.val id h td) (List.mem_singleton.mpr rfl) rfl c.isLt
  exact ⟨done _ waiting, gone⟩

theorem State.coll?_of_colls {s t : State} (same : t.colls = s.colls) (gid seq : Nat) : t.coll? gid seq = s.coll? gid seq := by
  unfold State.coll?
  rw [same]

theorem State.spoilTd_colls (s : State) (x : Coll) (o : CollOpen) (st : Nat) : (s.spoilTd x o st).colls = s.colls := by
  unfold State.spoilTd
  refine iteInduction (motive := fun u : State => u.colls = s.colls) (fun _ => ?_) (fun _ => rfl)
  exact foldl_same State.colls (fun (t : State) (r : Nat × Nat) => t.modCore o.core (fun k => { k with sp := k.sp.smudge r.1 r.2 s.freshJunk.1 })) (fun _ _ => rfl) _ s.freshJunk.2

/-- A kept triple completes the instruction with its status. -/
theorem State.openNow_kept {s : State} {c : CoreId} {id h : Nat} {td : TileWord} {x : Coll} {e : Entry} {t : Aborted} (entry : (s.core c.val).entry? id = some e)
    (kept : s.triples.find? (fun t => t.coll.gid == x.gid && t.coll.seq == x.seq) = some t) (new : s.coll? x.gid x.seq = none) :
    State.OpenEnds c id x t.status (s.openNow c.val id h td x) := by
  unfold State.openNow
  rw [kept]
  dsimp only
  have spoilt := s.spoilTd_endsTo x { core := c.val, id := id, handle := h, td := td, got := [], fin := true } t.status
  have colls := s.spoilTd_colls x { core := c.val, id := id, handle := h, td := td, got := [], fin := true } t.status
  generalize s.spoilTd x { core := c.val, id := id, handle := h, td := td, got := [], fin := true } t.status = v at spoilt colls ⊢
  have told := spoilt.trans (.modCore v c.val fun k => k.pubsEnd_endsTo t.status { core := c.val, id := id, handle := h, td := td, got := [], fin := true } x.name)
  have same : (v.modCore c.val (fun k => k.pubsEnd { core := c.val, id := id, handle := h, td := td, got := [], fin := true } t.status x.name)).colls = v.colls := rfl
  generalize v.modCore c.val (fun k => k.pubsEnd { core := c.val, id := id, handle := h, td := td, got := [], fin := true } t.status x.name) = w at told same ⊢
  obtain ⟨g, left, -⟩ := (told.core c.val c.isLt).left id e entry
  have done := w.modEntry_entry c id (g := fun e => { e with phase := .done t.status, cause := 0x0802, addr := 0, info := x.name }) (fun _ => rfl)
  rw [left, Option.map_some] at done
  exact ⟨⟨_, done, rfl⟩, (State.coll?_of_colls (same.trans colls) _ _).trans new⟩

/-! ### What COLL.OPEN comes to once its group may be active -/

/-- From s the handle has registered, with the instructions `waiting` for a place. -/
structure State.Registers (s : State) (c : CoreId) (id h : Nat) (e : Entry) (y : Coll) (waiting : List (Nat × Nat)) (u : State) : Prop where
  only   : u = { s with cores := u.cores, colls := s.colls ++ [y], collWait := waiting, leaves := u.leaves }
  handle : (u.core c.val).handles.getD h none = some (y.gid, y.seq)
  entry  : (u.core c.val).entry? id = some { e with phase := .waiting }

/-- What the group's admission comes to: no triple and no lost member, a lost member, or a triple. -/
theorem State.openNow_comes {s : State} {c : CoreId} {id h : Nat} {td : TileWord} {x : Coll} {e : Entry} (entry : (s.core c.val).entry? id = some e) (small : h < 8)
    (unknown : s.Unknown x (openOf c.val id h td)) :
    (s.triples.find? (fun t => t.coll.gid == x.gid && t.coll.seq == x.seq) = none →
        (x.lost s = false → s.Registers c id h e { x with opens := [openOf c.val id h td] } s.collWait (s.openNow c.val id h td x))
        ∧ (x.lost s = true → State.OpenEnds c id x Status.collAborted (s.openNow c.val id h td x)))
      ∧ ∀ t, s.triples.find? (fun t => t.coll.gid == x.gid && t.coll.seq == x.seq) = some t → State.OpenEnds c id x t.status (s.openNow c.val id h td x) := by
  refine ⟨fun none_ => ?_, fun t kept => State.openNow_kept entry kept unknown.record⟩
  have run : s.openNow c.val id h td x = s.registerOpen c.val id h td x := by
    unfold State.openNow
    rw [none_]
  rw [run, State.registerOpen_unknown unknown]
  refine ⟨fun present => ?_, fun lost => ?_⟩
  · rw [present, if_neg Bool.false_ne_true]
    obtain ⟨handle, waits⟩ := State.registered_core entry small td x
    have only := s.registered_only c.val id h td x
    generalize s.registered c.val id h td x = v at only handle waits ⊢
    exact ⟨by rw [only], handle, waits⟩
  · rw [if_pos lost]
    exact State.registered_ends entry small Status.collAborted

/-! ### COLL.OPEN and COLL_GROUP_ADMIT (R120, R293, R294) -/

/-- COLL.OPEN with its group's record. -/
def State.openGroupOf (s : State) (c id h : Nat) (td : TileWord) (x : Coll) : State :=
  if !(s.groupOk c x) then s.finishRange c id
  else if s.activeGroups.length ≥ 64 ∧ ¬ s.activeGroups.contains x.gid then
    { s with collWait := s.collWait ++ [(c, id)] }.modEntry c id (fun e => { e with phase := .waiting })
  else s.openNow c id h td x

theorem State.hmRead_sound {s : State} {off n : Nat} (sound : (s.hmRead off n).2.isBad = false) : s.hmRead off n = (s.hm.readN off n, .none) := by
  refine Prod.ext rfl ?_
  cases found : (s.hmRead off n).2 with
  | none => rfl
  | old o => exact absurd (found ▸ sound : Bad.isBad (.old o) = false) (by simp [Bad.isBad])
  | found o => exact absurd (found ▸ sound : Bad.isBad (.found o) = false) (by simp [Bad.isBad])

theorem State.openGroup_sound {s : State} (c id h : Nat) (td : TileWord) {ra : Word} (rb : Word) (sound : (s.hmRead (gOff ra) 64).2.isBad = false) :
    s.openGroup c id h td ra rb
      = s.openGroupOf c id h td (s.newColl c (s.hm.readN (gOff ra) 64) (gOff ra) rb ((Tile.of td).rows * (Tile.of td).cols)) := by
  unfold State.openGroup
  rw [State.hmRead_sound sound]
  rfl

/-- The effect of a COLL.OPEN that its engine runs. -/
def openEffect (c : CoreId) (id : Nat) (s : State) (e : Entry) : State :=
  match e.op with
  | .collOpen td ra rb h =>
    let k := s.core c.val
    let t := Tile.of td
    if !(k.handleReady id h) then s
    else if openUndef t rb then s.finishUndef c.val id e
    else if t.check.isSome ∨ (k.handles.getD h none).isSome ∨ s.descOk ra = false then s.finishRange c.val id
    else s.openGroup c.val id h td ra rb
  | _ => s

theorem exec_collOpen_run (c : CoreId) (id : Nat) (s : State) : exec (.collOpen c (.run id [])) s = .next (s.runEntry c.val id [] (openEffect c id)) := rfl

section
variable {c : CoreId} {id h : Nat} {td : TileWord} {ra rb : Word} {e : Entry} {s : State}

theorem openEffect_opens (op : e.op = .collOpen td ra rb h) (ready : (s.core c.val).handleReady id h = true) (defined : openUndef (Tile.of td) rb = false)
    (whole : (Tile.of td).check = none) (free : (s.core c.val).handles.getD h none = none) (desc : s.descOk ra = true) :
    openEffect c id s e = s.openGroup c.val id h td ra rb := by
  unfold openEffect
  rw [op]
  dsimp only
  rw [ready, defined, whole, free, desc]
  simp

theorem openEffect_refused (op : e.op = .collOpen td ra rb h) (ready : (s.core c.val).handleReady id h = true) (defined : openUndef (Tile.of td) rb = false)
    (bad : ((s.core c.val).handles.getD h none).isSome = true ∨ s.descOk ra = false) : openEffect c id s e = s.completed c id Status.addrRange := by
  unfold openEffect
  rw [op]
  dsimp only
  rw [ready, defined]
  exact (if_neg Bool.false_ne_true).trans ((if_neg Bool.false_ne_true).trans (if_pos (.inr bad)))

end

/-! ### What the link leaves of an opened handle -/

theorem State.Registers.crossed {s u : State} {c : CoreId} {id h : Nat} {e : Entry} {y : Coll} {waiting : List (Nat × Nat)} (r : s.Registers c id h e y waiting u) (n : Nat) :
    s.Registers c id h e y waiting (u.crossLink n) := by
  obtain ⟨only, handle, entry⟩ := r
  have left : u.crossLink n = { u with leaves := (u.crossLink n).leaves } := rfl
  have cores : (u.crossLink n).core c.val = u.core c.val := rfl
  refine ⟨left.trans ?_, cores ▸ handle, cores ▸ entry⟩
  rw [only]
  rfl

theorem State.OpenEnds.crossed {u : State} {c : CoreId} {id st : Nat} {x : Coll} (r : State.OpenEnds c id x st u) (n : Nat) : State.OpenEnds c id x st (u.crossLink n) := by
  obtain ⟨done, none⟩ := r
  exact ⟨done, none⟩

theorem State.Registers.begun {s u : State} {c : CoreId} {id h : Nat} {e : Entry} {y : Coll} {waiting : List (Nat × Nat)} (r : s.Registers c id h e y waiting u) :
    ∀ x, (u.core c.val).entry? id = some x → x.phase ≠ .dispatched := by
  intro x found is
  rw [r.entry] at found
  rw [← Option.some.inj found] at is
  cases is

theorem State.OpenEnds.begun {u : State} {c : CoreId} {id st : Nat} {x : Coll} (r : State.OpenEnds c id x st u) :
    ∀ x, (u.core c.val).entry? id = some x → x.phase ≠ .dispatched := by
  intro x found is
  obtain ⟨f, entry, done⟩ := r.done
  rw [entry] at found
  rw [← Option.some.inj found, done] at is
  cases is

/-- What a COLL.OPEN comes to from s, with the instructions `waiting` for a place. -/
structure State.OpenComes (s : State) (c : CoreId) (id h : Nat) (td : TileWord) (e : Entry) (x : Coll) (waiting : List (Nat × Nat)) (u : State) : Prop where
  registers : s.triples.find? (fun t => t.coll.gid == x.gid && t.coll.seq == x.seq) = none → x.lost s = false →
    s.Registers c id h e { x with opens := [openOf c.val id h td] } waiting u
  loses     : s.triples.find? (fun t => t.coll.gid == x.gid && t.coll.seq == x.seq) = none → x.lost s = true → State.OpenEnds c id x Status.collAborted u
  kept      : ∀ t, s.triples.find? (fun t => t.coll.gid == x.gid && t.coll.seq == x.seq) = some t → State.OpenEnds c id x t.status u

theorem State.OpenComes.crossed {s u : State} {c : CoreId} {id h : Nat} {td : TileWord} {e : Entry} {x : Coll} {waiting : List (Nat × Nat)}
    (r : s.OpenComes c id h td e x waiting u) (n : Nat) : s.OpenComes c id h td e x waiting (u.crossLink n) := by
  obtain ⟨registers, loses, kept⟩ := r
  exact ⟨fun a b => (registers a b).crossed n, fun a b => (loses a b).crossed n, fun t a => (kept t a).crossed n⟩

theorem State.OpenComes.begun {s u : State} {c : CoreId} {id h : Nat} {td : TileWord} {e : Entry} {x : Coll} {waiting : List (Nat × Nat)}
    (r : s.OpenComes c id h td e x waiting u) : ∀ x, (u.core c.val).entry? id = some x → x.phase ≠ .dispatched := by
  obtain ⟨registers, loses, kept⟩ := r
  cases triple : s.triples.find? (fun t => t.coll.gid == x.gid && t.coll.seq == x.seq) with
  | some t => exact (kept t triple).begun
  | none =>
    cases lost : x.lost s with
    | true => exact (loses triple lost).begun
    | false => exact (registers triple lost).begun

section
variable {c : CoreId} {id h : Nat} {td : TileWord} {ra rb : Word} {e : Entry} {x : Coll} {s : State}

theorem State.openGroupOf_openNow (ok : s.groupOk c.val x = true) (room : s.activeGroups.length < 64) : s.openGroupOf c.val id h td x = s.openNow c.val id h td x := by
  unfold State.openGroupOf
  rw [ok]
  exact (if_neg Bool.false_ne_true).trans (if_neg fun full => absurd full.1 (by omega))

theorem State.openGroupOf_waits (ok : s.groupOk c.val x = true) (full : 64 ≤ s.activeGroups.length) (new : s.activeGroups.contains x.gid = false) :
    s.openGroupOf c.val id h td x = { s with collWait := s.collWait ++ [(c.val, id)] }.modEntry c.val id (fun e => { e with phase := .waiting }) := by
  unfold State.openGroupOf
  rw [ok]
  exact (if_neg Bool.false_ne_true).trans (if_pos ⟨full, by rw [new]; exact Bool.false_ne_true⟩)

/-- The instructions that wait for a place. -/
def State.waitingAs (s : State) (l : List (Nat × Nat)) : State := { s with collWait := l }

theorem State.waitingAs_regs (s : State) (l : List (Nat × Nat)) : (s.waitingAs l).regs = s.regs ∧ (s.waitingAs l).straps = s.straps := ⟨rfl, rfl⟩

theorem State.openNow_waitingAs (entry : (s.core c.val).entry? id = some e) (small : h < 8) (unknown : s.Unknown x (openOf c.val id h td)) (l : List (Nat × Nat)) :
    s.OpenComes c id h td e x l ((s.waitingAs l).openNow c.val id h td x) := by
  obtain ⟨regs, straps⟩ := s.waitingAs_regs l
  have num := State.modNum_congr regs straps
  have lost := Coll.lost_congr regs straps x
  have still : (s.waitingAs l).Unknown x (openOf c.val id h td) := ⟨unknown.record, unknown.slots, num ▸ unknown.waits⟩
  obtain ⟨new, kept⟩ := State.openNow_comes (s := s.waitingAs l) (td := td) entry small still
  rw [lost] at new
  refine ⟨fun none_ present => ?_, fun none_ gone => (new none_).2 gone, kept⟩
  obtain ⟨only, handle, waits⟩ := (new none_).1 present
  exact ⟨only, handle, waits⟩

theorem exec_collOpen_comes (r : s.Runs c id e) (op : e.op = .collOpen td ra rb h) (small : h < 8) (ready : (s.core c.val).handleReady id h = true)
    (defined : openUndef (Tile.of td) rb = false) (whole : (Tile.of td).check = none) (free : (s.core c.val).handles.getD h none = none) (desc : s.descOk ra = true)
    (room : s.activeGroups.length < 64) (named : s.newColl c.val (s.hm.readN (gOff ra) 64) (gOff ra) rb ((Tile.of td).rows * (Tile.of td).cols) = x)
    (unknown : s.Unknown x (openOf c.val id h td)) (ok : s.groupOk c.val x = true) (sound : (s.hmRead (gOff ra) 64).2.isBad = false) :
    ∃ u, exec (.collOpen c (.run id [])) s = .next u ∧ s.OpenComes c id h td e x s.collWait u := by
  have comes := State.openNow_waitingAs r.entry small unknown s.collWait
  have same : s.waitingAs s.collWait = s := rfl
  rw [same] at comes
  have effect : openEffect c id s e = s.openNow c.val id h td x := by
    rw [openEffect_opens op ready defined whole free desc, State.openGroup_sound _ _ _ _ _ sound, named, State.openGroupOf_openNow ok room]
  have crosses : s.crosses c.val e.op = true := by rw [op]; rfl
  exact ⟨_, r.crossesLink crosses (exec_collOpen_run c id s) effect comes.begun, comes.crossed _⟩

theorem exec_collOpen_waits (r : s.Runs c id e) (op : e.op = .collOpen td ra rb h) (ready : (s.core c.val).handleReady id h = true)
    (defined : openUndef (Tile.of td) rb = false) (whole : (Tile.of td).check = none) (free : (s.core c.val).handles.getD h none = none) (desc : s.descOk ra = true)
    (full : 64 ≤ s.activeGroups.length) (named : s.newColl c.val (s.hm.readN (gOff ra) 64) (gOff ra) rb ((Tile.of td).rows * (Tile.of td).cols) = x)
    (new : s.activeGroups.contains x.gid = false) (ok : s.groupOk c.val x = true) (sound : (s.hmRead (gOff ra) 64).2.isBad = false) :
    exec (.collOpen c (.run id [])) s
      = .next (({ s with collWait := s.collWait ++ [(c.val, id)] }.modEntry c.val id (fun e => { e with phase := .waiting })).crossLink (c.val / 12)) := by
  have effect : openEffect c id s e = { s with collWait := s.collWait ++ [(c.val, id)] }.modEntry c.val id (fun e => { e with phase := .waiting }) := by
    rw [openEffect_opens op ready defined whole free desc, State.openGroup_sound _ _ _ _ _ sound, named, State.openGroupOf_waits ok full new]
  have crosses : s.crosses c.val e.op = true := by rw [op]; rfl
  refine r.crossesLink crosses (exec_collOpen_run c id s) effect fun f found is => ?_
  rw [State.modEntry_entry _ c id (g := fun e => { e with phase := .waiting }) (fun _ => rfl)] at found
  obtain ⟨g, -, became⟩ := Option.map_eq_some_iff.mp found
  rw [← became] at is
  cases is

theorem exec_collOpen_refused (r : s.Runs c id e) (op : e.op = .collOpen td ra rb h) (ready : (s.core c.val).handleReady id h = true)
    (defined : openUndef (Tile.of td) rb = false) (bad : ((s.core c.val).handles.getD h none).isSome = true ∨ s.descOk ra = false) :
    exec (.collOpen c (.run id [])) s = .next ((s.completed c id Status.addrRange).crossLink (c.val / 12)) := by
  refine (r.completes r.id_eq (exec_collOpen_run c id s) (openEffect_refused op ready defined bad)).trans (congrArg Host.Outcome.next ?_)
  have crosses : s.crosses c.val e.op = true := by rw [op]; rfl
  unfold State.crossed
  rw [if_pos crosses]

/-- The admission of an instruction that waits. -/
theorem exec_collGroupAdmit {w : Nat × Nat} (found : s.collWait.find? (fun w => w == (c.val, id)) = some w) (entry : (s.core c.val).entry? id = some e)
    (op : e.op = .collOpen td ra rb h) : exec (.collGroupAdmit c id) s = .next ((s.waitingAs (s.collWait.erase w)).openGroup c.val id h td ra rb) := by
  have run : exec (.collGroupAdmit c id) s = execCollGroupAdmit c id s := rfl
  rw [run]
  unfold execCollGroupAdmit
  rw [found, entry]
  dsimp only
  rw [op]
  rfl

theorem exec_collGroupAdmit_comes (entry : (s.core c.val).entry? id = some e) (op : e.op = .collOpen td ra rb h) (small : h < 8) (mem : (c.val, id) ∈ s.collWait)
    (room : s.activeGroups.length < 64) (named : s.newColl c.val (s.hm.readN (gOff ra) 64) (gOff ra) rb ((Tile.of td).rows * (Tile.of td).cols) = x)
    (unknown : s.Unknown x (openOf c.val id h td)) (ok : s.groupOk c.val x = true) (sound : (s.hmRead (gOff ra) 64).2.isBad = false) :
    ∃ u, exec (.collGroupAdmit c id) s = .next u ∧ s.OpenComes c id h td e x (s.collWait.erase (c.val, id)) u := by
  obtain ⟨w, found⟩ : ∃ w, s.collWait.find? (fun w => w == (c.val, id)) = some w := by
    cases is : s.collWait.find? (fun w => w == (c.val, id)) with
    | some w => exact ⟨w, rfl⟩
    | none => exact absurd (List.find?_eq_none.mp is _ mem) (by simp)
  have is : w = (c.val, id) := beq_iff_eq.mp (List.find?_some (p := fun w => w == (c.val, id)) found)
  subst is
  refine ⟨_, exec_collGroupAdmit found entry op, ?_⟩
  have open_ : (s.waitingAs (s.collWait.erase (c.val, id))).openGroup c.val id h td ra rb = (s.waitingAs (s.collWait.erase (c.val, id))).openNow c.val id h td x := by
    have read : ((s.waitingAs (s.collWait.erase (c.val, id))).hmRead (gOff ra) 64).2.isBad = false := sound
    have same : (s.waitingAs (s.collWait.erase (c.val, id))).newColl c.val ((s.waitingAs (s.collWait.erase (c.val, id))).hm.readN (gOff ra) 64) (gOff ra) rb
        ((Tile.of td).rows * (Tile.of td).cols) = x := named
    have good : (s.waitingAs (s.collWait.erase (c.val, id))).groupOk c.val x = true := ok
    have free : (s.waitingAs (s.collWait.erase (c.val, id))).activeGroups.length < 64 := room
    rw [State.openGroup_sound _ _ _ _ _ read, same, State.openGroupOf_openNow good free]
  rw [open_]
  exact State.openNow_waitingAs entry small unknown _

end

/-! ### COLL.PUB (R121, R296) -/

/-- The effect of a COLL.PUB that its engine runs. -/
def pubEffect (c : CoreId) (id : Nat) (s : State) (e : Entry) : State :=
  match e.op with
  | .collPub ts ra h =>
    if e.bad ≠ 0 then s.finishBad c.val id e.bad 0x0802 0 e.info
    else if !((s.core c.val).handleReady id h) then s
    else match s.handleType c.val h with
      | none => s.finishRange c.val id
      | some ty =>
        let t := Tile.of ts
        if t.fmt ≠ ty then s.finishUndef c.val id e
        else if t.check.isSome then s.finishRange c.val id
        else
          let (st, s) := s.publish c.val h ts ra.toNat
          s.finishPub c.val id st
  | _ => s

theorem exec_collPub_run (c : CoreId) (id : Nat) (s : State) : exec (.collPub c (.run id [])) s = .next (s.runEntry c.val id [] (pubEffect c id)) := rfl

/-- The publication of a whole tile. -/
def pubOf (c h : Nat) (ts : TileWord) (first : Nat) : CollPub := { core := c, handle := h, ts := ts, first := first, num := (Tile.of ts).rows * (Tile.of ts).cols }

/-- A collective with one publication more. -/
def Coll.with (x : Coll) (p : CollPub) : Coll := { x with pubs := x.pubs ++ [p] }

theorem Coll.with_eq (x : Coll) (p : CollPub) : x.with p = { x with pubs := x.pubs ++ [p] } := rfl

section
variable {c : CoreId} {id gid seq h : Nat} {ts : TileWord} {ra : Word} {e : Entry} {x : Coll} {s : State}

theorem pubEffect_bad (op : e.op = .collPub ts ra h) (bad : e.bad ≠ 0) : pubEffect c id s e = s.finishBad c.val id e.bad 0x0802 0 e.info := by
  unfold pubEffect
  rw [op]
  exact if_pos bad

theorem pubEffect_publishes (op : e.op = .collPub ts ra h) (good : e.bad = 0) (ready : (s.core c.val).handleReady id h = true)
    (handle : (s.core c.val).handles.getD h none = some (gid, seq)) (known : s.coll? gid seq = some x) (typ : (Tile.of ts).fmt = x.typ) (whole : (Tile.of ts).check = none)
    {st : Nat} {u : State} (publishes : s.publish c.val h ts ra.toNat = (st, u)) : pubEffect c id s e = u.finishPub c.val id st := by
  have type : s.handleType c.val h = some x.typ := by
    unfold State.handleType
    rw [handle]
    dsimp only
    rw [known, Option.map_some]
  unfold pubEffect
  rw [op]
  dsimp only
  rw [ready, type, whole]
  refine (if_neg (not_not_intro good)).trans ((if_neg Bool.false_ne_true).trans ?_)
  refine (if_neg (not_not_intro typ)).trans ((if_neg Bool.false_ne_true).trans ?_)
  rw [publishes]

theorem State.publish_beyond (handle : (s.core c.val).handles.getD h none = some (gid, seq)) (known : s.coll? gid seq = some x) {first : Nat}
    (beyond : x.count < first + (Tile.of ts).rows * (Tile.of ts).cols) : s.publish c.val h ts first = (Status.addrRange, s) := by
  unfold State.publish
  dsimp only
  rw [handle]
  dsimp only
  rw [known]
  exact if_pos (.inr beyond)

/-- A publication to a reducing collective that publishes no element a second time. -/
theorem State.publish_joins (handle : (s.core c.val).handles.getD h none = some (gid, seq)) (known : s.coll? gid seq = some x) {first : Nat}
    (inside : first + (Tile.of ts).rows * (Tile.of ts).cols ≤ x.count) (fresh : ∀ p ∈ x.pubs, p.hits first ((Tile.of ts).rows * (Tile.of ts).cols) = false)
    (kind : x.kind = 0 ∨ x.kind = 4) :
    s.publish c.val h ts first = (Status.ok, State.advanceColl maxChunks (s.modColl gid seq (fun z => z.with (pubOf c.val h ts first))) gid seq) := by
  have none_ : x.pubs.any (fun p => p.hits first ((Tile.of ts).rows * (Tile.of ts).cols)) = false :=
    List.any_eq_false.mpr fun p mem => by rw [fresh p mem]; exact Bool.false_ne_true
  have own : x.pubs.any (fun p => p.core == c.val && p.handle == h && p.hits first ((Tile.of ts).rows * (Tile.of ts).cols)) = false :=
    List.any_eq_false.mpr fun p mem => by rw [fresh p mem, Bool.and_false]; exact Bool.false_ne_true
  have two : (x.kind == 2) = false := by rcases kind with is | is <;> rw [is] <;> rfl
  have three : (x.kind == 3) = false := by rcases kind with is | is <;> rw [is] <;> rfl
  unfold State.publish
  dsimp only
  rw [handle]
  dsimp only
  rw [known]
  dsimp only
  rw [own, none_, two, three, Bool.false_and, Bool.false_and]
  refine (if_neg fun bad => ?_).trans ((if_neg fun bad => ?_).trans rfl)
  · rcases bad with bad | bad
    · exact Bool.false_ne_true bad
    · omega
  · rcases bad with bad | bad <;> exact Bool.false_ne_true bad

/-! ### What leaves once publications are whole (R296, R299, R301) -/

theorem State.advanceColl_none (n : Nat) {y : Coll} (known : s.coll? gid seq = some y) (quiet : y.Quiet s.modNum)
    (stop : ((List.range y.chunks.length).find? (fun k => !(y.sent.contains k) && y.contributes s.modNum k)).filter y.published = none) :
    State.advanceColl (n + 1) s gid seq = s := by
  unfold State.advanceColl
  rw [known]
  dsimp only
  rw [stop]
  exact State.collComplete_quiet known quiet

theorem State.advanceColl_one (n : Nat) {y : Coll} {k : Nat} {v : State} (known : s.coll? gid seq = some y)
    (goes : ((List.range y.chunks.length).find? (fun k => !(y.sent.contains k) && y.contributes s.modNum k)).filter y.published = some k)
    (sends : s.contribute y k = some v) : State.advanceColl (n + 1) s gid seq = State.advanceColl n v gid seq := by
  rw [State.advanceColl, known]
  dsimp only
  rw [goes]
  dsimp only
  rw [sends]

/-- A leaf of the tree sends its contribution to its parent. -/
theorem State.contribute_leaf {y : Coll} {k p : Nat} (sound : (s.contribution y k).2 = false) (reduces : y.reduces = true) (away : y.rootOf k ≠ s.modNum)
    (leaf : y.children (y.rootOf k) s.modNum = []) (parent : treeParent (dMask y.desc) (y.rootOf k) s.modNum = some p) :
    s.contribute y k = some ((s.sendChunk y p k false allPackets (s.contribution y k).1).modColl y.gid y.seq (fun z => { z with sent := z.sent ++ [k] })) := by
  unfold State.contribute
  dsimp only
  rw [sound, reduces, leaf, parent, bne_iff_ne.mpr away]
  exact (if_neg Bool.false_ne_true).trans (if_pos rfl)

end

/-! ### The packets of a chunk (R298, R299) -/

/-- A chunk of a collective whose chunks are no shares fits 16 packets. -/
theorem Coll.packets_le {x : Coll} (kind : x.kind = 0 ∨ x.kind = 4) (k : Nat) : x.packets k ≤ 16 := by
  have size : x.bytesOf k ≤ dChunk x.desc := by
    have elements : (x.chunk k).2.1 ≤ x.ce := by
      have whole : x.chunks = pieces x.ce 0 x.count x.root := by
        unfold Coll.chunks
        refine if_neg ?_
        rcases kind with is | is <;> rw [is] <;> decide
      unfold Coll.chunk
      rw [whole, List.getD_eq_getElem?_getD]
      cases piece : (pieces x.ce 0 x.count x.root)[k]? with
      | none => exact Nat.zero_le _
      | some q =>
        obtain ⟨i, -, is⟩ := List.mem_map.mp (List.mem_of_getElem? piece)
        rw [Option.getD_some, ← is]
        exact Nat.min_le_left _ _
    unfold Coll.bytesOf
    exact (Nat.mul_le_mul_right _ elements).trans (Nat.div_mul_le_self _ _)
  have chunk : dChunk x.desc ≤ 64 * 1024 := Nat.mul_le_mul_right _ (Nat.min_le_left _ _)
  unfold Coll.packets
  omega

/-- The packets of a whole chunk enter the router. -/
theorem State.sendChunk_held (s : State) {x : Coll} (kind : x.kind = 0 ∨ x.kind = 4) (dst k : Nat) (down : Bool) (bs : List Byte) :
    s.sendChunk x dst k down allPackets bs = { s with held := s.held ++ (List.range (x.packets k)).map (fun p =>
      hubHeld (s.collData x dst k p (Tab.get x.gens 0 k) down (BitVec.ofNat 32 (crc32c bs)) ((bs.drop (4096 * p)).take 4096))) } := by
  rw [← State.inject_many s (List.range (x.packets k))
    (fun s p => s.collData x dst k p (Tab.get x.gens 0 k) down (BitVec.ofNat 32 (crc32c bs)) ((bs.drop (4096 * p)).take 4096)) (fun _ _ _ => rfl)]
  unfold State.sendChunk
  refine List.foldl_ext _ _ s fun t p mem => if_pos ?_
  have small : p < 16 := lt_of_lt_of_le (List.mem_range.mp mem) (Coll.packets_le kind k)
  have bits : allPackets = 2 ^ 16 - 1 := rfl
  rw [bits, Nat.testBit_two_pow_sub_one]
  exact decide_eq_true small

theorem State.collData_dst (s : State) (x : Coll) (dst k p gen : Nat) (down : Bool) (ccrc : Word32) (bs : List Byte) :
    (s.collData x dst k p gen down ccrc bs).dst = dst ∧ (s.collData x dst k p gen down ccrc bs).typ.val = PT.collData := ⟨rfl, rfl⟩

section
variable {c : CoreId} {id gid seq h : Nat} {ts : TileWord} {ra : Word} {e : Entry} {x : Coll} {s : State}

/-- A collective whose elements are the chunk's only ones contributes to it once. -/
theorem State.advanceColl_leaf (n : Nat) {y : Coll} {p : Nat} (known : s.coll? gid seq = some y) (quiet : y.Quiet s.modNum) (kind : y.kind = 0 ∨ y.kind = 4)
    (one : y.chunks.length = 1) (unsent : y.sent = []) (published : y.published 0 = true) (sound : (s.contribution y 0).2 = false) (away : y.rootOf 0 ≠ s.modNum)
    (leaf : y.children (y.rootOf 0) s.modNum = []) (parent : treeParent (dMask y.desc) (y.rootOf 0) s.modNum = some p) :
    State.advanceColl (n + 2) s gid seq
      = (s.sendChunk y p 0 false allPackets (s.contribution y 0).1).modColl gid seq (fun z => { z with sent := z.sent ++ [0] }) := by
  have reduces : y.reduces = true := by
    unfold Coll.reduces
    rcases kind with is | is <;> rw [is] <;> rfl
  have named := List.find?_some (p := fun x : Coll => x.gid == gid && x.seq == seq) known
  rw [Bool.and_eq_true, beq_iff_eq, beq_iff_eq] at named
  have sends := State.contribute_leaf sound reduces away leaf parent
  have goes : ((List.range y.chunks.length).find? (fun k => !(y.sent.contains k) && y.contributes s.modNum k)).filter y.published = some 0 := by
    unfold Coll.contributes
    rw [one, unsent, reduces]
    exact Option.filter_eq_some_iff.mpr ⟨rfl, published⟩
  rw [named.1, named.2] at sends
  rw [State.advanceColl_one (n + 1) known goes sends]
  have sent : (s.sendChunk y p 0 false allPackets (s.contribution y 0).1).coll? gid seq = some y ∧ (s.sendChunk y p 0 false allPackets (s.contribution y 0).1).modNum = s.modNum := by
    rw [State.sendChunk_held s kind]
    exact ⟨known, rfl⟩
  generalize s.sendChunk y p 0 false allPackets (s.contribution y 0).1 = v at sent ⊢
  have marked := State.coll?_modColl sent.1 (f := fun z => { z with sent := z.sent ++ [0] }) (fun _ => ⟨rfl, rfl⟩)
  have still : ({ y with sent := y.sent ++ [0] } : Coll).Quiet (v.modColl gid seq (fun z => { z with sent := z.sent ++ [0] })).modNum := by
    rw [State.modColl_modNum, sent.2]
    exact quiet
  refine State.advanceColl_none n marked still ?_
  have all : ({ y with sent := y.sent ++ [0] } : Coll).chunks.length = 1 := one
  rw [all, unsent]
  rfl

end

section
variable {c : CoreId} {id gid seq h : Nat} {ts : TileWord} {ra : Word} {e : Entry} {x : Coll} {s : State}

theorem exec_collPub_bad (r : s.Runs c id e) (op : e.op = .collPub ts ra h) (bad : e.bad ≠ 0) : exec (.collPub c (.run id [])) s
    = .next ((s.modEntry c.val id (fun f => { f with phase := .done e.bad, cause := 0x0802, addr := 0, info := e.info })).crossLink (c.val / 12)) := by
  have crosses : s.crosses c.val e.op = true := by rw [op]; rfl
  refine r.crossesLink crosses (exec_collPub_run c id s) (pubEffect_bad op bad) fun f found is => ?_
  rw [State.modEntry_entry _ c id (g := fun f => { f with phase := .done e.bad, cause := 0x0802, addr := 0, info := e.info }) (fun _ => rfl)] at found
  obtain ⟨g, -, became⟩ := Option.map_eq_some_iff.mp found
  rw [← became] at is
  cases is

/-- A COLL.PUB completes with the status of its publication. -/
theorem exec_collPub_completes (r : s.Runs c id e) (op : e.op = .collPub ts ra h) (good : e.bad = 0) (ready : (s.core c.val).handleReady id h = true)
    (handle : (s.core c.val).handles.getD h none = some (gid, seq)) (known : s.coll? gid seq = some x) (typ : (Tile.of ts).fmt = x.typ) (whole : (Tile.of ts).check = none)
    {st : Nat} {u : State} (publishes : s.publish c.val h ts ra.toNat = (st, u)) (ends : st ≠ Status.collMismatch) :
    exec (.collPub c (.run id [])) s = .next ((u.completed c id st).crossLink (c.val / 12)) := by
  have effect : pubEffect c id s e = u.completed c id st :=
    (pubEffect_publishes op good ready handle known typ whole publishes).trans (if_neg ends)
  refine (r.completes r.id_eq (exec_collPub_run c id s) effect).trans (congrArg Host.Outcome.next ?_)
  have crosses : s.crosses c.val e.op = true := by rw [op]; rfl
  unfold State.crossed
  rw [if_pos crosses]

/-- The chunks of a collective as fuel. -/
theorem maxChunks_succ : maxChunks = 65535 + 1 := rfl

/-- What a contribution that leaves changes. -/
theorem State.published_leaves {y : Coll} (kind : y.kind = 0 ∨ y.kind = 4) (f g : Coll → Coll) (p : Nat) (bs : List Byte) : ∃ u : State,
    (((s.modColl gid seq f).sendChunk y p 0 false allPackets bs).modColl gid seq g) = u ∧ u = { s with colls := u.colls, held := u.held }
      ∧ u.held.length = s.held.length + y.packets 0
      ∧ (∀ i, s.held.length ≤ i → ∀ z, u.held[i]? = some z → z.pkt.dst = p ∧ z.pkt.typ.val = PT.collData) := by
  refine ⟨_, rfl, ?_⟩
  rw [State.sendChunk_held _ kind]
  refine ⟨rfl, ?_, fun i beyond z found => ?_⟩
  · refine List.length_append.trans (congrArg (s.held.length + ·) ?_)
    rw [List.length_map, List.length_range]
  · have tail := (List.getElem?_append_right beyond).symm.trans found
    obtain ⟨q, -, is⟩ := List.mem_map.mp (List.mem_of_getElem? tail)
    rw [← is]
    exact State.collData_dst _ _ _ _ _ _ _ _ _

end

/-- Settles O31: the admission's four ends (a place to wait for, a triple, a lost member, a handle that registers) and the publication's, with what leaves a leaf of the tree. -/
theorem collectivesOpenAndPublish : Obligations.CollectivesOpenAndPublish := by
  unfold Obligations.CollectivesOpenAndPublish
  refine ⟨fun c id e td ra rb h s => ?_, fun c id gid seq e ts ra h x s runs op => ?_⟩
  · intro t k d x o y first kept registers ends opens
    have all : ∀ (i : Instr) (waiting : List (Nat × Nat)) (u : State), exec i s = .next u → s.OpenComes c id h.val td e x waiting u →
        (kept = none → x.lost s = false → registers i waiting) ∧ (kept = none → x.lost s = true → ends i Status.collAborted) ∧ (∀ t, kept = some t → ends i t.status) := by
      rintro i waiting u run ⟨opened, loses, old⟩
      have ended : ∀ st, State.OpenEnds c id x st u → ends i st := by
        rintro st ⟨⟨f, entry, done⟩, gone⟩
        exact ⟨u, f, run, entry, done, gone⟩
      refine ⟨fun none_ present => ?_, fun none_ lost => ended _ (loses none_ lost), fun t is => ended _ (old t is)⟩
      obtain ⟨only, handle, entry⟩ := opened none_ present
      exact ⟨u, run, only, handle, entry⟩
    refine ⟨fun runs op ready defined whole => ⟨fun free desc => ⟨fun room first ok sound => ?_, fun full new ok sound => ?_⟩, fun bad => ?_⟩, fun entry op mem room first ok sound => ?_⟩
    · obtain ⟨record, slots, waits⟩ := first
      obtain ⟨u, run, comes⟩ := exec_collOpen_comes runs op h.isLt ready defined whole free desc room rfl ⟨record, slots, waits⟩ ok sound
      exact all _ _ u run comes
    · exact exec_collOpen_waits runs op ready defined whole free desc full rfl new ok sound
    · exact exec_collOpen_refused runs op ready defined bad
    · obtain ⟨record, slots, waits⟩ := first
      obtain ⟨u, run, comes⟩ := exec_collGroupAdmit_comes entry op h.isLt mem room rfl ⟨record, slots, waits⟩ ok sound
      exact all _ _ u run comes
  · intro t n y quiet ready handle known typ whole ends
    refine ⟨fun bad => exec_collPub_bad runs op bad, fun good beyond => ?_, fun good inside fresh kind still => ?_⟩
    · exact exec_collPub_completes runs op good ready handle known typ whole (State.publish_beyond handle known beyond) (by decide)
    · have joins := State.publish_joins handle known inside fresh kind
      have joined := State.coll?_modColl known (f := fun z => z.with (pubOf c.val h.val ts ra.toNat)) (fun _ => ⟨rfl, rfl⟩)
      have waits : (x.with (pubOf c.val h.val ts ra.toNat)).Quiet (s.modColl gid seq (fun z => z.with (pubOf c.val h.val ts ra.toNat))).modNum := ⟨still.1, fun o mem => still.2 o mem⟩
      refine ⟨fun none_ => ?_, fun p one unsent published away leaf parent sound => ?_⟩
      · have stays := State.advanceColl_none 65535 joined waits (Option.filter_eq_none_iff.mpr fun k found => ?_)
        · rw [maxChunks_succ, stays] at joins
          exact exec_collPub_completes runs op good ready handle known typ whole joins (by decide)
        · have mem := List.mem_range.mp (List.mem_of_find?_eq_some found)
          exact (none_ k mem).symm ▸ Bool.false_ne_true
      · have leaves := State.advanceColl_leaf 65534 joined waits kind one unsent published sound away leaf parent
        obtain ⟨u, is, facts⟩ := State.published_leaves (s := s) (gid := gid) (seq := seq) (y := x.with (pubOf c.val h.val ts ra.toNat)) kind
          (fun z => z.with (pubOf c.val h.val ts ra.toNat)) (fun z => { z with sent := z.sent ++ [0] }) p
          ((s.modColl gid seq (fun z => z.with (pubOf c.val h.val ts ra.toNat))).contribution (x.with (pubOf c.val h.val ts ra.toNat)) 0).1
        refine ⟨u, ?_, facts⟩
        rw [maxChunks_succ, leaves, is] at joins
        exact exec_collPub_completes runs op good ready handle known typ whole joins (by decide)

end Sys2Proof.Machine
end

section
/-! The KV page manager's housekeeping: page moves, clears, applies and remote updates (R206, R207, R209, R215). -/

namespace Sys2Proof.Machine

/-! ### Hub memory beside the manager's region -/

theorem Mem.read_smudge_other (m : Mem) {a n x : Nat} (g : Nat) (apart : x < a ∨ a + n ≤ x) : (m.smudge a n g).read x = m.read x := by
  have kept : (decide (x < a) || decide (a + n ≤ x)) = true := by rcases apart with h | h <;> simp [h]
  unfold Mem.read Tab.get
  rw [m.smudge_default a n g x apart]
  unfold Mem.smudge
  rw [lookup_filter_kept m.cells (fun k => decide (k < a) || decide (a + n ≤ k)) kept]

theorem Mem.readN_congr {m k : Mem} {a n : Nat} (same : ∀ x, a ≤ x → x < a + n → k.read x = m.read x) : k.readN a n = m.readN a n := by
  unfold Mem.readN
  refine List.map_congr_left fun i mem => same _ (Nat.le_add_right _ _) ?_
  exact Nat.add_lt_add_left (List.mem_range.mp mem) a

theorem Mem.readN_writeN_same (m : Mem) (a : Nat) (bs : List Byte) : (m.writeN a bs).readN a bs.length = bs := by
  unfold Mem.readN
  refine List.ext_getElem (by rw [List.length_map, List.length_range]) fun i _ inside => ?_
  rw [List.getElem_map, List.getElem_range]
  exact m.read_writeN_inside a i bs inside

/-- A range lies beside the manager's region. -/
def State.BesideRegion (s : State) (off n : Nat) : Prop := off + n ≤ s.kvRegion.1 ∨ s.kvRegion.1 + s.kvRegion.2 ≤ off

theorem State.hmStore_beside {s : State} {off : Nat} {bs : List Byte} (apart : s.BesideRegion off bs.length) :
    s.hmStore off bs = { s with hm := s.hm.writeN off bs, hmBad := s.hmBad.filter (fun w => !(off ≤ 8 * w && 8 * w + 8 ≤ off + bs.length)) } := by
  have inert : s.kvSpoil off bs.length = s := by
    unfold State.kvSpoil
    dsimp only
    refine if_pos ?_
    unfold State.BesideRegion at apart
    omega
  unfold State.hmStore
  rw [inert]

theorem State.kvTouch_eq (s : State) : s.kvTouch = { s with hm := s.hm.smudge s.kvRegion.1 s.kvRegion.2 (s.freeCtr + 1), freeCtr := s.freeCtr + 1 } := rfl

theorem State.kvTouch_readN {s : State} {off n : Nat} (apart : s.BesideRegion off n) : s.kvTouch.hm.readN off n = s.hm.readN off n := by
  have hm : s.kvTouch.hm = s.hm.smudge s.kvRegion.1 s.kvRegion.2 (s.freeCtr + 1) := rfl
  rw [hm]
  refine Mem.readN_congr fun x low high => s.hm.read_smudge_other _ ?_
  unfold State.BesideRegion at apart
  omega

theorem State.readSpace_hm (s : State) (us : List Upset) (off n hint uses : Nat) : s.readSpace us 1 off n hint uses = ((s.hmRead off n).1, (s.hmRead off n).2, s) := rfl

theorem State.writeSpace_hm (s : State) (us : List Upset) (off hint uses : Nat) (bs : List Byte) : s.writeSpace us 1 off hint uses bs = (.none, s.hmStore off bs) := rfl

/-! ### Records that only join the queue (R415) -/

theorem length_enqueueFault (q : List Fault_) (f : Fault_) : (enqueueFault q f).length = q.length + 1 := by
  unfold enqueueFault
  split
  · rfl
  · split
    · rfl
    · exact List.length_append

/-- From s only `n` records at most have joined the queue. -/
structure State.Queued (s : State) (n : Nat) (t : State) : Prop where
  only   : t = { s with faultq := t.faultq }
  length : t.faultq.length ≤ s.faultq.length + n

theorem State.Queued.refl (s : State) (n : Nat) : s.Queued n s := ⟨rfl, Nat.le_add_right _ _⟩

theorem State.Queued.trans {s t u : State} {m n : Nat} (a : s.Queued m t) (b : t.Queued n u) : s.Queued (m + n) u := by
  obtain ⟨onlyA, lengthA⟩ := a
  obtain ⟨onlyB, lengthB⟩ := b
  exact ⟨by rw [onlyB, onlyA], by omega⟩

theorem State.raise_queued {s : State} (f : Fault_) (room : s.faultq.length < 256) : s.Queued 1 (s.raise f) := by
  have run : s.raise f = { s with faultq := enqueueFault s.faultq { f with time := s.rackTime, nested := s.handlingFault } } := if_pos room
  rw [run]
  exact ⟨rfl, (length_enqueueFault _ _).le⟩

theorem State.logPools_queued (old s : State) (room : s.faultq.length + 16 ≤ 256) : s.Queued 16 (old.logPools s) := by
  have all : ∀ (l : List Nat) (t : State), t.faultq.length + l.length ≤ 256 →
      t.Queued l.length (l.foldl (fun (s : State) p => if s.poolBad p && !old.poolBad p then s.logS0 Status.ok 0x0801 (Reg.KV_POOL_LO p) else s) t) := by
    intro l
    induction l with
    | nil => exact fun t _ => .refl t 0
    | cons p l ih =>
      intro t room
      rw [List.length_cons] at room ⊢
      have step : t.Queued 1 (if t.poolBad p && !old.poolBad p then t.logS0 Status.ok 0x0801 (Reg.KV_POOL_LO p) else t) :=
        iteInduction (motive := fun u : State => t.Queued 1 u) (fun _ => t.raise_queued _ (by omega)) (fun _ => .refl t 1)
      rw [List.foldl_cons, Nat.add_comm]
      exact step.trans (ih _ (by have := step.length; omega))
  have queued := all (List.range 16) s (by rw [List.length_range]; exact room)
  rw [List.length_range] at queued
  exact queued

/-! ### Geometries and pools that nothing uses (R215) -/

/-- Only the geometries and pools in use stay latched. -/
def State.unlatched (s : State) : State :=
  { s with
    kvGeom := s.kvGeom.filter (fun e => s.kvSeqs.any (fun q => q.2.geom == e.1)),
    kvPoolLo := s.kvPoolLo.filter (fun e => s.poolBusy e.1 != 0),
    kvPoolHi := s.kvPoolHi.filter (fun e => s.poolBusy e.1 != 0) }

theorem State.kvApply_eq (s : State) : s.kvApply = s.logPools s.unlatched := rfl

theorem State.kvApply_queued {s : State} (room : s.faultq.length + 16 ≤ 256) : s.unlatched.Queued 16 s.kvApply := by
  rw [s.kvApply_eq]
  exact State.logPools_queued s s.unlatched room

/-! ### Moves that start (R206) -/

/-- The page is the same but for its move. -/
def KvPage.SameButMove (p q : KvPage) : Prop := q.seq = p.seq ∧ q.block = p.block ∧ q.group = p.group ∧ q.pool = p.pool ∧ q.index = p.index ∧ q.scales = p.scales

theorem KvPage.SameButMove.refl (p : KvPage) : p.SameButMove p := ⟨rfl, rfl, rfl, rfl, rfl, rfl⟩

theorem KvPage.SameButMove.trans {p q r : KvPage} (a : p.SameButMove q) (b : q.SameButMove r) : p.SameButMove r := by
  obtain ⟨seqA, blockA, groupA, poolA, indexA, scalesA⟩ := a
  obtain ⟨seqB, blockB, groupB, poolB, indexB, scalesB⟩ := b
  exact ⟨seqB.trans seqA, blockB.trans blockA, groupB.trans groupA, poolB.trans poolA, indexB.trans indexA, scalesB.trans scalesA⟩

/-- From s only pages' moves and latched pools have changed. -/
structure State.MovesStarted (s t : State) : Prop where
  only  : t = { s with kvPages := t.kvPages, kvPoolLo := t.kvPoolLo, kvPoolHi := t.kvPoolHi }
  pages : ∀ x ∈ s.kvPages, ∃ y ∈ t.kvPages, x.SameButMove y

theorem State.MovesStarted.refl (s : State) : s.MovesStarted s := ⟨rfl, fun x mem => ⟨x, mem, .refl x⟩⟩

theorem State.MovesStarted.trans {s t u : State} (a : s.MovesStarted t) (b : t.MovesStarted u) : s.MovesStarted u := by
  obtain ⟨onlyA, pagesA⟩ := a
  obtain ⟨onlyB, pagesB⟩ := b
  refine ⟨by rw [onlyB, onlyA], fun x mem => ?_⟩
  obtain ⟨y, kept, same⟩ := pagesA x mem
  obtain ⟨z, left, again⟩ := pagesB y kept
  exact ⟨z, left, same.trans again⟩

theorem State.movesStarted_map (s : State) {f : KvPage → KvPage} (same : ∀ x : KvPage, x.SameButMove (f x)) : s.MovesStarted { s with kvPages := s.kvPages.map f } :=
  ⟨rfl, fun x mem => ⟨f x, List.mem_map_of_mem mem, same x⟩⟩

theorem State.latchPool_movesStarted (s : State) (p : Nat) : s.MovesStarted (s.latchPool p) := by
  unfold State.latchPool
  refine iteInduction (motive := fun u : State => s.MovesStarted u) (fun _ => .refl s) (fun _ => ?_)
  exact ⟨rfl, fun x mem => ⟨x, mem, .refl x⟩⟩

theorem State.startMoves_movesStarted (n : Nat) (s : State) : s.MovesStarted (s.startMoves n) := by
  induction n generalizing s with
  | zero => exact .refl s
  | succ n ih =>
    have moving (p : KvPage) (dest : Nat × Nat) : ∀ x : KvPage, x.SameButMove (if x == p then { x with move := some dest } else x) := fun x =>
      iteInduction (motive := fun y => x.SameButMove y) (fun _ => ⟨rfl, rfl, rfl, rfl, rfl, rfl⟩) (fun _ => .refl x)
    have sticking : ∀ x : KvPage, x.SameButMove (if s.mayMove x then { x with stuck := true } else x) := fun x =>
      iteInduction (motive := fun y => x.SameButMove y) (fun _ => ⟨rfl, rfl, rfl, rfl, rfl, rfl⟩) (fun _ => .refl x)
    rw [State.startMoves]
    refine iteInduction (motive := fun u : State => s.MovesStarted u) (fun _ => .refl s) (fun _ => ?_)
    split
    · exact .refl s
    · next p found =>
      split
      · next c i free =>
        have marked := s.movesStarted_map (moving p (c, i))
        generalize ({ s with kvPages := s.kvPages.map (fun x => if x == p then { x with move := some (c, i) } else x) } : State) = t at marked ⊢
        exact (marked.trans (t.latchPool_movesStarted c)).trans (ih _)
      · exact s.movesStarted_map sticking

/-! ### What follows a change of the page table (R206, R207, R215) -/

/-- From s the table has been written, unused latches have gone and due moves have started. -/
structure State.HouseKept (s t : State) : Prop where
  only  : t = { s with hm := s.kvTouch.hm, freeCtr := s.freeCtr + 1, kvGeom := t.kvGeom, kvPoolLo := t.kvPoolLo, kvPoolHi := t.kvPoolHi, kvPages := t.kvPages,
                       faultq := t.faultq }
  pages : ∀ x ∈ s.kvPages, ∃ y ∈ t.kvPages, x.SameButMove y

/-- The steps of `State.HouseKept` one after the other. -/
theorem State.houseKept_only {s a w v t : State} {hm : Mem} {ctr : Nat} {geom lo hi lo' hi' : Tab Word} {faultq : List Fault_} {pages : List KvPage}
    (touched : a = { s with hm := hm, freeCtr := ctr }) (latches : w = { a with kvGeom := geom, kvPoolLo := lo, kvPoolHi := hi }) (queued : v = { w with faultq := faultq })
    (moves : t = { v with kvPages := pages, kvPoolLo := lo', kvPoolHi := hi' }) :
    t = { s with hm := hm, freeCtr := ctr, kvGeom := t.kvGeom, kvPoolLo := t.kvPoolLo, kvPoolHi := t.kvPoolHi, kvPages := t.kvPages, faultq := t.faultq } := by
  subst touched latches queued moves
  rfl

theorem State.houseKept {s : State} (room : s.faultq.length + 16 ≤ 256) (n : Nat) : s.HouseKept (s.kvTouch.kvApply.startMoves n) := by
  have touched : s.kvTouch = { s with hm := s.kvTouch.hm, freeCtr := s.freeCtr + 1 } := rfl
  have same : s.kvTouch.faultq = s.faultq := rfl
  have pages : s.kvTouch.unlatched.kvPages = s.kvPages := rfl
  obtain ⟨queued, -⟩ := State.kvApply_queued (s := s.kvTouch) (same.symm ▸ room)
  obtain ⟨moved, left⟩ := s.kvTouch.kvApply.startMoves_movesStarted n
  refine ⟨State.houseKept_only touched (w := s.kvTouch.unlatched) rfl queued moved, fun x mem => left x ?_⟩
  rw [queued]
  exact pages ▸ mem

/-! ### Page moves that are done (R206) -/

/-- The page is at the place to which it moves. -/
def KvPage.movedTo (p : KvPage) (c j : Nat) : KvPage := { p with pool := c, index := j, move := none }

/-- A page's bytes are at the new place, and its table entry names it. -/
def State.moveSwitched (s : State) (p : KvPage) (c j : Nat) (bs : List Byte) : State :=
  let t := s.hmStore (s.pageAt c j).2 bs
  { t with kvPages := t.kvPages.map (fun x => if x == p then { x with pool := c, index := j, move := none } else x) }.bump Reg.KV_STAT_MOVES 1

section
variable {i c j : Nat} {p : KvPage} {s : State}

theorem exec_pageMoveDone (found : (s.kvPages.filter (fun p => p.move.isSome))[i]? = some p) (move : p.move = some (c, j)) (here : (s.pool p.pool).space = 1)
    (there : (s.pool c).space = 1) (sound : (s.hmRead (s.pageAt p.pool p.index).2 65536).2.isBad = false) :
    exec (.pageMoveDone i []) s
      = .next ((s.moveSwitched p c j (s.hm.readN (s.pageAt p.pool p.index).2 65536)).kvTouch.kvApply.startMoves 4) := by
  have run : exec (.pageMoveDone i []) s = execPageMoveDone i [] s := rfl
  have quiet : s.sramUpsets [] = s := rfl
  have src : (s.pageAt p.pool p.index).1 = 1 := here
  have dst : (s.pageAt c j).1 = 1 := there
  have read := State.hmRead_sound sound
  rw [run]
  unfold execPageMoveDone
  dsimp only
  rw [found]
  dsimp only
  rw [move]
  dsimp only
  rw [quiet, src, dst]
  have free (off : Nat) : s.memWaits 1 off 65536 = false := rfl
  rw [free, free]
  refine congrArg Host.Outcome.next ((if_neg Bool.false_ne_true).trans ?_)
  rw [State.readSpace_hm, read]
  dsimp only
  generalize s.hm.readN (s.pageAt p.pool p.index).2 65536 = bs
  have good : Bad.none.isBad = false := rfl
  rw [good]
  refine (if_neg Bool.false_ne_true).trans ?_
  rw [State.writeSpace_hm]
  unfold State.moveSwitched
  rfl

end

/-- The new place holds the bytes, the entry names it, and the move counts. -/
structure State.MoveDone (s : State) (p : KvPage) (c j : Nat) (bs : List Byte) (v : State) : Prop where
  counted : v.rd Reg.KV_STAT_MOVES = min (s.rd Reg.KV_STAT_MOVES + 1) (2 ^ Reg.KV_STAT_MOVES.w - 1)
  region  : v.kvRegion = s.kvRegion
  held    : v.hm.readN (s.pageAt c j).2 bs.length = bs
  seqs    : v.kvSeqs = s.kvSeqs
  pages   : p.movedTo c j ∈ v.kvPages
  faultq  : v.faultq = s.faultq

theorem State.moveSwitched_done {s : State} {p : KvPage} {c j : Nat} {bs : List Byte} (mem : p ∈ s.kvPages) (apart : s.BesideRegion (s.pageAt c j).2 bs.length) :
    s.MoveDone p c j bs (s.moveSwitched p c j bs) := by
  unfold State.moveSwitched
  rw [State.hmStore_beside apart]
  dsimp only
  have read := s.hm.readN_writeN_same (s.pageAt c j).2 bs
  have moved : p.movedTo c j ∈ s.kvPages.map (fun x => if x == p then { x with pool := c, index := j, move := none } else x) :=
    List.mem_map.mpr ⟨p, mem, if_pos (beq_self_eq_true p)⟩
  generalize s.hm.writeN (s.pageAt c j).2 bs = hm at read ⊢
  generalize s.kvPages.map (fun x => if x == p then { x with pool := c, index := j, move := none } else x) = pages at moved ⊢
  generalize s.hmBad.filter _ = hmBad
  refine ⟨State.rd_bump _ _ _, ?_, read, rfl, moved, rfl⟩
  have base : ∀ (t : State), (t.bump Reg.KV_STAT_MOVES 1).rd Reg.KV_CTL_TABLE_BASE_MIB = t.rd Reg.KV_CTL_TABLE_BASE_MIB := fun t => t.bump_rd_ne 1 (by decide)
  have size : ∀ (t : State), (t.bump Reg.KV_STAT_MOVES 1).rd Reg.KV_CTL_TABLE_MIB = t.rd Reg.KV_CTL_TABLE_MIB := fun t => t.bump_rd_ne 1 (by decide)
  unfold State.kvRegion
  rw [base, size]
  rfl

/-- The housekeeping that follows leaves what a page move has done. -/
theorem State.MoveDone.kept {s v u : State} {p : KvPage} {c j : Nat} {bs : List Byte} (done : s.MoveDone p c j bs v) (apart : s.BesideRegion (s.pageAt c j).2 bs.length)
    (h : v.HouseKept u) : u.rd Reg.KV_STAT_MOVES = min (s.rd Reg.KV_STAT_MOVES + 1) (2 ^ Reg.KV_STAT_MOVES.w - 1)
      ∧ (∃ x ∈ u.kvPages, x.seq = p.seq ∧ x.block = p.block ∧ x.group = p.group ∧ x.pool = c ∧ x.index = j ∧ x.scales = p.scales)
      ∧ u.hm.readN (s.pageAt c j).2 bs.length = bs ∧ u.kvSeqs = s.kvSeqs := by
  obtain ⟨counted, region, held, seqs, pages, -⟩ := done
  obtain ⟨only, left⟩ := h
  have regs : u.regs = v.regs := (congrArg State.regs only :)
  have hm : u.hm = v.kvTouch.hm := (congrArg State.hm only :)
  have kept : u.kvSeqs = v.kvSeqs := (congrArg State.kvSeqs only :)
  have beside : v.BesideRegion (s.pageAt c j).2 bs.length := by
    unfold State.BesideRegion at apart ⊢
    rw [region]
    exact apart
  obtain ⟨y, mem, seq, block, group, pool, index, scales⟩ := left _ pages
  refine ⟨(State.rd_congr v u _ regs).trans counted, ⟨y, mem, seq, block, group, pool, index, scales⟩, ?_, kept.trans seqs⟩
  rw [hm, State.kvTouch_readN beside]
  exact held

/-! ### KV_CTL.CLEAR and an apply (R215) -/

/-- No sequence and no page is left. -/
def State.kvEmptied (s : State) : State :=
  { s with kvSeqs := [], kvPages := [], kvLazy := s.kvLazy ++ s.kvPages.map (fun (p : KvPage) => (p.pool, p.index)) }

theorem State.kvClearAll_eq (s : State) : s.kvClearAll = s.kvEmptied.kvTouch.kvApply.wr Reg.KV_CTL_CLEAR 1 := rfl

theorem State.kvClearAll_clears {s : State} (room : s.faultq.length + 16 ≤ 256) :
    s.kvClearAll.kvSeqs = [] ∧ s.kvClearAll.kvPages = [] ∧ s.kvClearAll.rd Reg.KV_CTL_CLEAR = 1 ∧ s.kvClearAll.cores = s.cores := by
  have emptied : s.kvEmptied.kvTouch.unlatched.kvSeqs = [] ∧ s.kvEmptied.kvTouch.unlatched.kvPages = [] ∧ s.kvEmptied.kvTouch.unlatched.cores = s.cores := ⟨rfl, rfl, rfl⟩
  obtain ⟨queued, -⟩ := State.kvApply_queued (s := s.kvEmptied.kvTouch) room
  obtain ⟨seqs, pages, cores⟩ := emptied
  rw [s.kvClearAll_eq]
  generalize s.kvEmptied.kvTouch.kvApply = v at queued ⊢
  generalize s.kvEmptied.kvTouch.unlatched = w at queued seqs pages cores
  have written := v.rd_wr Reg.KV_CTL_CLEAR 1
  refine ⟨?_, ?_, written, ?_⟩
  · exact ((congrArg State.kvSeqs queued :) : v.kvSeqs = w.kvSeqs).trans seqs
  · exact ((congrArg State.kvPages queued :) : v.kvPages = w.kvPages).trans pages
  · exact ((congrArg State.cores queued :) : v.cores = w.cores).trans cores

theorem exec_kvClear {s : State} (awake : s.failed = false) (booted : s.rd Reg.GLB_BOOT_STAGE = 4) : exec .kvClear s = .next s.kvClearAll := by
  have run : exec .kvClear s = execKvClear s := rfl
  rw [run]
  unfold execKvClear
  refine congrArg Host.Outcome.next (if_neg ?_)
  rintro (failed | stage)
  · rw [awake] at failed
    cases failed
  · exact stage booted

theorem State.kvApply_applies {s : State} (room : s.faultq.length + 16 ≤ 256) : s.kvApply.kvGeom = s.kvGeom.filter (fun g => s.kvSeqs.any (fun q => q.2.geom == g.1))
    ∧ s.kvApply.kvPoolLo = s.kvPoolLo.filter (fun p => s.poolBusy p.1 != 0) ∧ s.kvApply.kvPoolHi = s.kvPoolHi.filter (fun p => s.poolBusy p.1 != 0)
    ∧ s.kvApply.kvSeqs = s.kvSeqs ∧ s.kvApply.kvPages = s.kvPages ∧ s.kvApply.cores = s.cores := by
  obtain ⟨queued, -⟩ := State.kvApply_queued room
  exact ⟨(congrArg State.kvGeom queued :), (congrArg State.kvPoolLo queued :), (congrArg State.kvPoolHi queued :), (congrArg State.kvSeqs queued :),
    (congrArg State.kvPages queued :), (congrArg State.cores queued :)⟩

/-! ### Remote updates (R209) -/

/-- From s a stale update has been counted. -/
structure State.Stale (s u : State) : Prop where
  counted : u.rd Reg.KV_STAT_MC_STALE = min (s.rd Reg.KV_STAT_MC_STALE + 1) (2 ^ Reg.KV_STAT_MC_STALE.w - 1)
  seqs    : u.kvSeqs = s.kvSeqs
  pages   : u.kvPages = s.kvPages
  cores   : u.cores = s.cores

theorem State.kvStale_stale {s : State} (room : s.faultq.length < 256) (p : Packet) (q epoch : Nat) : s.Stale ((s.takeHub p).kvStale q epoch) := by
  unfold State.kvStale
  have bumped : ((s.takeHub p).bump Reg.KV_STAT_MC_STALE 1).rd Reg.KV_STAT_MC_STALE = min (s.rd Reg.KV_STAT_MC_STALE + 1) (2 ^ Reg.KV_STAT_MC_STALE.w - 1) :=
    State.rd_bump _ _ _
  have kept : ((s.takeHub p).bump Reg.KV_STAT_MC_STALE 1).faultq = s.faultq ∧ ((s.takeHub p).bump Reg.KV_STAT_MC_STALE 1).kvSeqs = s.kvSeqs
      ∧ ((s.takeHub p).bump Reg.KV_STAT_MC_STALE 1).kvPages = s.kvPages ∧ ((s.takeHub p).bump Reg.KV_STAT_MC_STALE 1).cores = s.cores := ⟨rfl, rfl, rfl, rfl⟩
  generalize (s.takeHub p).bump Reg.KV_STAT_MC_STALE 1 = v at bumped kept ⊢
  obtain ⟨faultq, seqs, pages, cores⟩ := kept
  obtain ⟨queued, -⟩ := v.raise_queued { Fault_.blank 0 Status.ok 0x0803 with info0 := BitVec.ofNat 64 q, info1 := BitVec.ofNat 64 epoch } (faultq ▸ room)
  generalize v.raise _ = u at queued ⊢
  exact ⟨(State.rd_congr v u _ (congrArg State.regs queued :)).trans bumped, (congrArg State.kvSeqs queued :).trans seqs, (congrArg State.kvPages queued :).trans pages,
    (congrArg State.cores queued :).trans cores⟩

/-- The sequence has its detent resolved, and the pages beyond are in no table. -/
def State.resolving (s : State) (q len : Nat) (counter : Word) (x : KvSeq) : State :=
  let t := s.setSeq q { x with len := len, counter := counter, detent := none }
  { t with kvPages := t.kvPages.filter (fun p => !(p.seq == q && decide (blocksOf len ≤ p.block))),
           kvLazy := t.kvLazy ++ (t.kvPages.filter (fun p => p.seq == q && decide (blocksOf len ≤ p.block))).map (fun (p : KvPage) => (p.pool, p.index)) }

theorem State.resolve_eq {s : State} {q : Nat} {x : KvSeq} (known : s.seq? q = some x) (len : Nat) (counter : Word) :
    s.resolve q len counter = (s.resolving q len counter x).kvTouch.kvApply.startMoves 4 := by
  unfold State.resolve
  rw [known]
  rfl

theorem State.resolve_seq {s : State} {q : Nat} {x : KvSeq} (room : s.faultq.length + 16 ≤ 256) (known : s.seq? q = some x) (len : Nat) (counter : Word) :
    (s.resolve q len counter).seq? q = some { x with len := len, counter := counter, detent := none } ∧ (s.resolve q len counter).hubIn = s.hubIn
      ∧ (s.resolve q len counter).cores = s.cores := by
  rw [State.resolve_eq known]
  have set : (s.resolving q len counter x).seq? q = some { x with len := len, counter := counter, detent := none } := s.setSeq_seq q _
  have kept : (s.resolving q len counter x).hubIn = s.hubIn ∧ (s.resolving q len counter x).cores = s.cores := ⟨rfl, rfl⟩
  obtain ⟨only, -⟩ := State.houseKept (s := s.resolving q len counter x) room 4
  obtain ⟨hub, cores⟩ := kept
  generalize (s.resolving q len counter x).kvTouch.kvApply.startMoves 4 = u at only ⊢
  generalize s.resolving q len counter x = v at set hub cores only
  have seqs : u.kvSeqs = v.kvSeqs := (congrArg State.kvSeqs only :)
  refine ⟨?_, (congrArg State.hubIn only :).trans hub, (congrArg State.cores only :).trans cores⟩
  unfold State.seq? at set ⊢
  rw [seqs]
  exact set

/-- What a KV_UPDATE does to the module that has taken it from the hub. -/
def State.kvUpdated (s : State) (q ep len : Nat) (ctr : Word) : State :=
  match s.seq? q with
  | none => s.kvStale q ep
  | some x =>
    if x.epoch.toNat ≠ ep then s.kvStale q ep
    else match x.detent with
      | some _ => if len ≤ x.len then s.resolve q len ctr else s.kvStale q ep
      | none => if x.len = len ∧ x.counter = ctr then s else s.kvStale q ep

theorem exec_kvUpdate {s : State} {p : Packet} (awake : s.failed = false) : exec (.kvUpdate p) s
    = .next ((s.takeHub p).kvUpdated (leNat ((p.payload.drop 16).take 2)) (leNat ((p.payload.drop 18).take 2)) (leNat ((p.payload.drop 24).take 8))
        (BitVec.ofNat 64 (leNat ((p.payload.drop 32).take 8)))) := by
  have run : exec (.kvUpdate p) s = execKvUpdate p s := rfl
  have still : (s.takeHub p).failed = false := awake
  rw [run]
  unfold execKvUpdate
  dsimp only
  rw [still]
  exact congrArg Host.Outcome.next ((if_neg Bool.false_ne_true).trans rfl)

section
variable {s : State} {p : Packet} {q ep len : Nat} {ctr : Word} {x : KvSeq}

theorem State.kvUpdated_unknown (gone : s.seq? q = none) : (s.takeHub p).kvUpdated q ep len ctr = (s.takeHub p).kvStale q ep := by
  have still : (s.takeHub p).seq? q = none := gone
  unfold State.kvUpdated
  rw [still]

theorem State.kvUpdated_epoch (known : s.seq? q = some x) (other : x.epoch.toNat ≠ ep) : (s.takeHub p).kvUpdated q ep len ctr = (s.takeHub p).kvStale q ep := by
  have still : (s.takeHub p).seq? q = some x := known
  unfold State.kvUpdated
  rw [still]
  exact if_pos other

theorem State.kvUpdated_repeat (known : s.seq? q = some x) (same : x.epoch.toNat = ep) (resolved : x.detent = none) :
    (s.takeHub p).kvUpdated q ep len ctr = if x.len = len ∧ x.counter = ctr then s.takeHub p else (s.takeHub p).kvStale q ep := by
  have still : (s.takeHub p).seq? q = some x := known
  unfold State.kvUpdated
  rw [still]
  refine (if_neg (not_not_intro same)).trans ?_
  rw [resolved]

theorem State.kvUpdated_detent {d : Nat × Word} (known : s.seq? q = some x) (same : x.epoch.toNat = ep) (detent : x.detent = some d) :
    (s.takeHub p).kvUpdated q ep len ctr = if len ≤ x.len then (s.takeHub p).resolve q len ctr else (s.takeHub p).kvStale q ep := by
  have still : (s.takeHub p).seq? q = some x := known
  unfold State.kvUpdated
  rw [still]
  refine (if_neg (not_not_intro same)).trans ?_
  rw [detent]

end

end Sys2Proof.Machine
end

section
/-! KV.PUT and KV.GET: rows of pages in direct HM, and their scales (R42, R117, R200-R203). -/

namespace Sys2Proof.Machine

/-! ### Instructions that the page manager serves -/

theorem State.Serves.completes {s t : State} {c : CoreId} {id st : Nat} {e : Entry} {i : Instr} (r : s.Serves c id e) (enabled : s.kvDisabled = false)
    (leaves : s.crosses c.val e.op = true) {f : State → Entry → State} (run : exec i s = .next (s.serveKv c.val id [] f)) (effect : f s e = t.completed c id st) :
    exec i s = .next ((t.completed c id st).crossLink (c.val / 12)) := by
  have served : (fun (s : State) (e : Entry) => if s.kvWaits c.val e then s else if s.kvDisabled then s.finishRange c.val id else f s e) s e = t.completed c id st := by
    dsimp only
    rw [r.served, enabled, ← effect]
    exact (if_neg Bool.false_ne_true).trans (if_neg Bool.false_ne_true)
  have runs : exec i s = .next (s.runEntry c.val id [] (fun s e => if s.kvWaits c.val e then s else if s.kvDisabled then s.finishRange c.val id else f s e)) := run
  refine (r.toRuns.completes r.toRuns.id_eq runs served).trans (congrArg Host.Outcome.next ?_)
  unfold State.crossed
  rw [if_pos leaves]

/-! ### The shape of a geometry (R199, R200) -/

theorem clampHeads_pos (h : Nat) : 0 < clampHeads h := by
  unfold clampHeads pow2Floor
  have := Nat.two_pow_pos (Nat.log2 (max h 1))
  omega

theorem clampHeads_le (h : Nat) : clampHeads h ≤ 32 := Nat.min_le_left _ _

theorem clampWidth_pos {h : Nat} (w : Nat) (pos : 0 < h) (le : h ≤ 32) : 0 < clampWidth h w := by
  have share : 64 ≤ 2048 / h := (Nat.le_div_iff_mul_le pos).mpr (by omega)
  unfold clampWidth
  omega

theorem State.geom_heads (s : State) (n : Nat) : 0 < (s.geom n).heads := clampHeads_pos _

theorem State.geom_width (s : State) (n : Nat) : 0 < (s.geom n).width := clampWidth_pos _ (clampHeads_pos _) (clampHeads_le _)

theorem KvGeom.headOf_lt {g : KvGeom} (heads : 0 < g.heads) (width : 0 < g.width) (j : Nat) : g.headOf j < g.heads :=
  (Nat.div_lt_iff_lt_mul width).mpr (Nat.mod_lt j (Nat.mul_pos heads width))

/-! ### The scales of a layer (R202) -/

theorem lookup_put_other {α : Type} (t : Tab α) {k j : Nat} (v : α) (other : j ≠ k) : (t.put k v).lookup j = t.lookup j := by
  have apart : (j == k) = false := beq_eq_false_iff_ne.mpr other
  induction t with
  | nil => rw [Tab.put, List.lookup_cons, apart]
  | cons r t ih =>
    obtain ⟨a, b⟩ := r
    rw [Tab.put]
    split
    · rw [List.lookup_cons, apart]
    · split
      · next same =>
        subst same
        rw [List.lookup_cons, List.lookup_cons, apart]
      · rw [List.lookup_cons, List.lookup_cons, ih]

/-- The scales of n heads from key k on that are not set yet take the values of `first`. -/
def scalesFrom (k : Nat) (first : Nat → Word32) (n : Nat) (t : Tab Word32) : Tab Word32 :=
  (List.range n).foldl (fun (t : Tab Word32) h => if (t.lookup (k + h)).isSome then t else t.put (k + h) (first h)) t

theorem scalesFrom_lookup (k : Nat) (first : Nat → Word32) (t : Tab Word32) (n : Nat) :
    (∀ h, h < n → (scalesFrom k first n t).lookup (k + h) = some ((t.lookup (k + h)).getD (first h))) ∧ ∀ j, k + n ≤ j → (scalesFrom k first n t).lookup j = t.lookup j := by
  induction n with
  | zero => exact ⟨fun h none_ => absurd none_ (Nat.not_lt_zero h), fun _ _ => rfl⟩
  | succ n ih =>
    obtain ⟨below, above⟩ := ih
    have step : scalesFrom k first (n + 1) t
        = if ((scalesFrom k first n t).lookup (k + n)).isSome then scalesFrom k first n t else (scalesFrom k first n t).put (k + n) (first n) := by
      unfold scalesFrom
      rw [List.range_succ, List.foldl_append]
      rfl
    have now := above (k + n) (Nat.le_refl _)
    rw [step]
    generalize scalesFrom k first n t = v at below above now ⊢
    cases was : t.lookup (k + n) with
    | some w =>
      rw [now, was]
      refine ⟨fun h lt => ?_, fun j beyond => above j (by omega)⟩
      rcases Nat.lt_succ_iff_lt_or_eq.mp lt with lt | rfl
      · exact below h lt
      · rw [was]
        exact now.trans was
    | none =>
      rw [now, was]
      refine ⟨fun h lt => ?_, fun j beyond => ?_⟩
      · rcases Nat.lt_succ_iff_lt_or_eq.mp lt with lt | rfl
        · exact (lookup_put_other v (first n) (by omega)).trans (below h lt)
        · rw [was]
          exact lookup_put_same v (k + h) (first h)
      · exact (lookup_put_other v (first n) (by omega)).trans (above j (by omega))

/-- The scales of a page's layer once rows have been written. -/
def KvPage.scaled (pg : KvPage) (g : KvGeom) (layer : Nat) (rows : List (List Num)) : Tab Word32 :=
  scalesFrom (layer % g.perPage * g.heads) (fun h => g.firstScale (rows.flatMap (fun r => (r.zipIdx.filter (fun p => g.headOf p.2 == h)).map Prod.fst))) g.heads pg.scales

theorem State.setScales_eq (s : State) (pg : KvPage) (g : KvGeom) (layer : Nat) (rows : List (List Num)) : s.setScales pg g layer rows
    = State.kvTouch { s with kvPages := s.kvPages.map (fun (x : KvPage) =>
        if x.seq == pg.seq && x.block == pg.block && x.group == pg.group then { x with scales := pg.scaled g layer rows } else x) } := rfl

theorem State.setScales_pageOf (s : State) (pg : KvPage) (g : KvGeom) (layer : Nat) (rows : List (List Num)) (q : Nat) (k : KvGeom) (l p : Nat) :
    (s.setScales pg g layer rows).pageOf q k l p = (s.pageOf q k l p).map (fun (x : KvPage) =>
      if x.seq == pg.seq && x.block == pg.block && x.group == pg.group then { x with scales := pg.scaled g layer rows } else x) := by
  have pages : (s.setScales pg g layer rows).kvPages = s.kvPages.map (fun (x : KvPage) =>
      if x.seq == pg.seq && x.block == pg.block && x.group == pg.group then { x with scales := pg.scaled g layer rows } else x) := rfl
  unfold State.pageOf
  rw [pages, List.find?_map]
  refine congrArg (Option.map _) (congrArg (fun f => List.find? f s.kvPages) (funext fun x => ?_))
  exact iteInduction (motive := fun y : KvPage => (y.seq == q && y.block == p / 16 && y.group == l / k.perPage) = (x.seq == q && x.block == p / 16 && x.group == l / k.perPage))
    (fun _ => rfl) (fun _ => rfl)

/-! ### What rows that are written leave of the module -/

/-- From s only hub memory and the scales of pages have changed. -/
structure State.RowsWritten (s t : State) : Prop where
  only  : t = { s with hm := t.hm, hmBad := t.hmBad, kvPages := t.kvPages, freeCtr := t.freeCtr }
  pages : ∀ q g layer p pg, s.pageOf q g layer p = some pg → ∃ y, t.pageOf q g layer p = some y ∧ y = { pg with scales := y.scales }

theorem State.RowsWritten.refl (s : State) : s.RowsWritten s := ⟨rfl, fun _ _ _ _ pg found => ⟨pg, found, rfl⟩⟩

theorem State.RowsWritten.trans {s t u : State} (a : s.RowsWritten t) (b : t.RowsWritten u) : s.RowsWritten u := by
  obtain ⟨onlyA, pagesA⟩ := a
  obtain ⟨onlyB, pagesB⟩ := b
  refine ⟨by rw [onlyB, onlyA], fun q g layer p pg found => ?_⟩
  obtain ⟨y, first, same⟩ := pagesA q g layer p pg found
  obtain ⟨z, second, again⟩ := pagesB q g layer p y first
  exact ⟨z, second, by rw [again, same]⟩

theorem State.RowsWritten.region {s t : State} (h : s.RowsWritten t) : t.kvRegion = s.kvRegion := (congrArg State.kvRegion h.only :)

theorem State.RowsWritten.pool {s t : State} (h : s.RowsWritten t) (p : Nat) : t.pool p = s.pool p := (congrArg (fun u : State => u.pool p) h.only :)

theorem State.RowsWritten.pageAt {s t : State} (h : s.RowsWritten t) (p i : Nat) : t.pageAt p i = s.pageAt p i := (congrArg (fun u : State => u.pageAt p i) h.only :)

theorem State.setScales_written (s : State) (pg : KvPage) (g : KvGeom) (layer : Nat) (rows : List (List Num)) : s.RowsWritten (s.setScales pg g layer rows) := by
  refine ⟨rfl, fun q k l p x found => ?_⟩
  rw [State.setScales_pageOf, found, Option.map_some]
  refine ⟨_, rfl, ?_⟩
  exact iteInduction (motive := fun y : KvPage => y = { x with scales := y.scales }) (fun _ => rfl) (fun _ => rfl)

theorem State.hmStore_written {s : State} {off : Nat} {bs : List Byte} (apart : s.BesideRegion off bs.length) : s.RowsWritten (s.hmStore off bs) := by
  rw [State.hmStore_beside apart]
  exact ⟨rfl, fun _ _ _ _ pg found => ⟨pg, found, rfl⟩⟩

/-! ### KV.PUT (R117, R200-R202) -/

/-- The scales of the blocks that rows reach are set. -/
def State.blocksScaled (s : State) (q : Nat) (g : KvGeom) (layer : Nat) (rows : List (Nat × List Num)) (blocks : List Nat) : State :=
  blocks.foldl (fun s b =>
    match s.pageOf q g layer (16 * b) with
    | some pg => s.setScales pg g layer ((rows.filter (fun r => r.1 / 16 == b)).map Prod.snd)
    | none => s) s

/-- The bytes of a row under the scales of its page. -/
def KvPage.rowBytes (pg : KvPage) (g : KvGeom) (layer : Nat) (vs : List Num) : List Byte := vs.zipIdx.map (fun v => kvEnc (pg.scale g layer (g.headOf v.2)) v.1)

/-- One row is stored in its page. -/
def storeRow (q : Nat) (g : KvGeom) (layer : Nat) (x : State × Option (Nat × Nat)) (r : Nat × List Num) : State × Option (Nat × Nat) :=
  match x.1.pageOf q g layer r.1 with
  | some pg =>
    let (sp, off) := x.1.pageAt pg.pool pg.index
    let bs := r.2.zipIdx.map (fun v => kvEnc (pg.scale g layer (g.headOf v.2)) v.1)
    let (b, s) := x.1.writeSpace [] sp (off + g.rowAt layer r.1) (x.1.pool pg.pool).hint 1 bs
    (s, x.2.orElse (fun _ => b.at?.map (fun w => (sp, w))))
  | none => x

/-- The rows of a tile with their positions. -/
def rowsOf (m : Mem) (t : Tile) (ps : List Nat) : List (Nat × List Num) := ps.zipIdx.map (fun p => (p.1, (List.range t.cols).map (fun j => t.elem m p.2 j)))

/-- Rows to write: scales first, then the rows. -/
def State.putRows (s : State) (q : Nat) (g : KvGeom) (layer : Nat) (rows : List (Nat × List Num)) (blocks : List Nat) : State × Option (Nat × Nat) :=
  rows.foldl (storeRow q g layer) (s.blocksScaled q g layer rows blocks, none)

/-- The effect of a KV.PUT that the manager serves. -/
def kvPutEffect (c : CoreId) (id : Nat) (s : State) (e : Entry) : State :=
  match e.op with
  | .kvPut ts ra rb rc =>
    let t := Tile.of ts
    let q := ra.toNat
    let layer := rb.toNat
    if t.fmt > 2 then s.finishUndef c.val id e
    else match s.seq? q, t.check with
      | some x, none =>
        let g := s.geom x.geom
        match (if t.cols = g.rowLen then s.kvRun x rb rc t.rows else none) with
        | none => s.finishRange c.val id
        | some ps =>
          match (s.core c.val).badIn t.ranges with
          | some w => s.finishEcc c.val id 2 w
          | none =>
            if ps.any (fun p => match s.pageOf q g layer p with | some pg => pg.move.isSome | none => false)
              || (s.kvPutRows ts ra rb rc).any (fun w => s.memWaits w.1 w.2.1 w.2.2) then s
            else
              let rs := s.putRows q g layer (rowsOf (s.core c.val).sp t ps) (ps.map (fun p => p / 16)).dedup
              match rs.2 with
              | some (sp, w) => rs.1.finishEcc c.val id sp w
              | none => rs.1.finish c.val id 0
      | _, _ => s.finishRange c.val id
  | _ => s

theorem exec_kvPut_run (c : CoreId) (id : Nat) (s : State) : exec (.kvPut c (.run id [])) s = .next (s.serveKv c.val id [] (kvPutEffect c id)) := rfl

/-- The position's row lies in a page of direct HM that does not move, beside the manager's own region. -/
def State.RowIn (s : State) (q : Nat) (g : KvGeom) (layer i : Nat) : Prop :=
  ∃ p, s.pageOf q g layer i = some p ∧ p.move = none ∧ (s.pool p.pool).space = 1 ∧ s.BesideRegion ((s.pageAt p.pool p.index).2 + g.rowAt layer i) g.rowLen

section
variable {s : State} {q layer : Nat} {g : KvGeom}

theorem State.RowIn.still {ps : List Nat} (rows : ∀ i ∈ ps, s.RowIn q g layer i) :
    ps.any (fun p => match s.pageOf q g layer p with | some pg => pg.move.isSome | none => false) = false := by
  refine List.any_eq_false.mpr fun i mem => ?_
  obtain ⟨p, found, still, -⟩ := rows i mem
  rw [found]
  dsimp only
  rw [still]
  exact Bool.false_ne_true

theorem State.RowIn.ready {ts : TileWord} {ra rb rc : Word} {x : KvSeq} {ps : List Nat} (known : s.seq? ra.toNat = some x)
    (run : s.kvRun x rb rc (Tile.of ts).rows = some ps) (rows : ∀ i ∈ ps, s.RowIn ra.toNat (s.geom x.geom) rb.toNat i) :
    (s.kvPutRows ts ra rb rc).any (fun w => s.memWaits w.1 w.2.1 w.2.2) = false := by
  refine List.any_eq_false.mpr fun w mem => ?_
  unfold State.kvPutRows at mem
  rw [known] at mem
  dsimp only at mem
  rw [run, Option.getD_some] at mem
  obtain ⟨i, inside, is⟩ := List.mem_filterMap.mp mem
  obtain ⟨p, found, -, space, -⟩ := rows i inside
  rw [found] at is
  have direct : w.1 = 1 := (congrArg Prod.fst (Option.some.inj is)).symm.trans space
  unfold State.memWaits
  rw [direct]
  exact Bool.false_ne_true

theorem kvPutEffect_puts {c : CoreId} {id : Nat} {e : Entry} {ts : TileWord} {ra rb rc : Word} {x : KvSeq} {ps : List Nat} {u : State} (op : e.op = .kvPut ts ra rb rc)
    (known : s.seq? ra.toNat = some x) (whole : (Tile.of ts).check = none) (cols : (Tile.of ts).cols = (s.geom x.geom).rowLen) (fmt : (Tile.of ts).fmt ≤ 2)
    (run : s.kvRun x rb rc (Tile.of ts).rows = some ps) (sound : (s.core c.val).badIn (Tile.of ts).ranges = none)
    (rows : ∀ i ∈ ps, s.RowIn ra.toNat (s.geom x.geom) rb.toNat i)
    (puts : s.putRows ra.toNat (s.geom x.geom) rb.toNat (rowsOf (s.core c.val).sp (Tile.of ts) ps) (ps.map (fun p => p / 16)).dedup = (u, none)) :
    kvPutEffect c id s e = u.completed c id 0 := by
  unfold kvPutEffect
  rw [op]
  dsimp only
  rw [known, whole]
  refine (if_neg (Nat.not_lt.mpr fmt)).trans ?_
  dsimp only
  rw [if_pos cols, run]
  dsimp only
  rw [sound]
  dsimp only
  rw [State.RowIn.still rows, State.RowIn.ready known run rows, puts]
  exact if_neg Bool.false_ne_true

/-! ### Any number of rows -/

theorem State.blocksScaled_written (s : State) (q : Nat) (g : KvGeom) (layer : Nat) (rows : List (Nat × List Num)) (blocks : List Nat) :
    s.RowsWritten (s.blocksScaled q g layer rows blocks) := by
  unfold State.blocksScaled
  refine foldl_keeps s.RowsWritten _ (fun t b kept => ?_) blocks s (.refl s)
  cases t.pageOf q g layer (16 * b) with
  | none => exact kept
  | some pg => exact kept.trans (t.setScales_written pg g layer _)

theorem storeRow_hm {t : State} {pg : KvPage} {r : Nat × List Num} (found : t.pageOf q g layer r.1 = some pg) (direct : (t.pool pg.pool).space = 1) :
    storeRow q g layer (t, none) r = (t.hmStore ((t.pageAt pg.pool pg.index).2 + g.rowAt layer r.1) (pg.rowBytes g layer r.2), none) := by
  have space : (t.pageAt pg.pool pg.index).1 = 1 := direct
  unfold storeRow
  dsimp only
  rw [found]
  dsimp only
  rw [space, State.writeSpace_hm]
  rfl

theorem KvPage.length_rowBytes (pg : KvPage) (g : KvGeom) (layer : Nat) (vs : List Num) : (pg.rowBytes g layer vs).length = vs.length := by
  unfold KvPage.rowBytes
  rw [List.length_map, List.length_zipIdx]

theorem storeRows_written (l : List (Nat × List Num)) : ∀ t : State, s.RowsWritten t → (∀ r ∈ l, r.2.length = g.rowLen ∧ s.RowIn q g layer r.1) →
    ∃ u, l.foldl (storeRow q g layer) (t, none) = (u, none) ∧ s.RowsWritten u := by
  induction l with
  | nil => exact fun t kept _ => ⟨t, rfl, kept⟩
  | cons r l ih =>
    intro t kept rows
    obtain ⟨len, p, found, -, direct, apart⟩ := rows r List.mem_cons_self
    obtain ⟨y, now, same⟩ := kept.pages q g layer r.1 p found
    have pool : y.pool = p.pool := by rw [same]
    have index : y.index = p.index := by rw [same]
    have beside : t.BesideRegion ((t.pageAt y.pool y.index).2 + g.rowAt layer r.1) (y.rowBytes g layer r.2).length := by
      unfold State.BesideRegion at apart ⊢
      rw [y.length_rowBytes, len, kept.region, kept.pageAt, pool, index]
      exact apart
    rw [List.foldl_cons, storeRow_hm now (by rw [kept.pool, pool]; exact direct)]
    exact ih _ (kept.trans (State.hmStore_written beside)) fun z mem => rows z (List.mem_cons_of_mem r mem)

theorem State.putRows_written {m : Mem} {t : Tile} {ps : List Nat} (cols : t.cols = g.rowLen) (rows : ∀ i ∈ ps, s.RowIn q g layer i) (blocks : List Nat) :
    ∃ u, s.putRows q g layer (rowsOf m t ps) blocks = (u, none) ∧ s.RowsWritten u := by
  refine storeRows_written (rowsOf m t ps) _ (s.blocksScaled_written q g layer (rowsOf m t ps) blocks) fun r mem => ?_
  obtain ⟨z, inside, is⟩ := List.mem_map.mp mem
  rw [← is]
  refine ⟨by rw [List.length_map, List.length_range, cols], rows z.1 ?_⟩
  exact (List.mem_zipIdx' inside).2 ▸ List.getElem_mem _

end

/-! ### One row -/

theorem State.kvRun_one {s : State} {x : KvSeq} {layer start : Word} (inside : layer.toNat < (s.geom x.geom).layers) (below : start.toNat < x.len)
    (holds : (s.geom x.geom).holds (start.toNat / 16) = true) : s.kvRun x layer start 1 = some [start.toNat] := by
  have one : min 1 (x.len + 1) = 0 + 1 := by omega
  unfold State.kvRun
  dsimp only
  rw [holds, one]
  refine (if_neg ?_).trans ?_
  · rintro (bad | bad | bad)
    · omega
    · omega
    · cases bad
  · have run : (s.geom x.geom).run (0 + 1) start.toNat = [start.toNat] := by
      rw [KvGeom.run, holds]
      rfl
    rw [run]
    refine if_neg ?_
    rintro (bad | bad)
    · omega
    · rw [List.any_cons, List.any_nil, Bool.or_false, decide_eq_true_eq] at bad
      omega

theorem dedup_one (b : Nat) : ([b] : List Nat).dedup = [b] := List.Nodup.dedup (List.nodup_singleton b)

theorem State.pageOf_block (s : State) (q : Nat) (g : KvGeom) (layer p : Nat) : s.pageOf q g layer (16 * (p / 16)) = s.pageOf q g layer p := by
  unfold State.pageOf
  rw [Nat.mul_div_cancel_left _ (by decide : 0 < 16)]

section
variable {s : State} {q layer pos : Nat} {g : KvGeom} {pg : KvPage}

theorem State.pageOf_named (found : s.pageOf q g layer pos = some pg) : (pg.seq == q && pg.block == pos / 16 && pg.group == layer / g.perPage) = true :=
  List.find?_some (p := fun x : KvPage => x.seq == q && x.block == pos / 16 && x.group == layer / g.perPage) found

/-- The page once the row's scales are set. -/
def KvPage.withRow (pg : KvPage) (g : KvGeom) (layer : Nat) (row : List Num) : KvPage := { pg with scales := pg.scaled g layer [row] }

theorem State.setScales_found (found : s.pageOf q g layer pos = some pg) (row : List Num) :
    (s.setScales pg g layer [row]).pageOf q g layer pos = some (pg.withRow g layer row) := by
  rw [State.setScales_pageOf, found, Option.map_some]
  refine congrArg some (if_pos ?_)
  rw [beq_self_eq_true, beq_self_eq_true, beq_self_eq_true]
  rfl

theorem State.putRows_one (found : s.pageOf q g layer pos = some pg) (direct : (s.pool pg.pool).space = 1) (row : List Num) :
    s.putRows q g layer [(pos, row)] [pos / 16]
      = ((s.setScales pg g layer [row]).hmStore ((s.pageAt pg.pool pg.index).2 + g.rowAt layer pos) ((pg.withRow g layer row).rowBytes g layer row), none) := by
  have scaled : s.blocksScaled q g layer [(pos, row)] [pos / 16] = s.setScales pg g layer [row] := by
    have mine : ([(pos, row)] : List (Nat × List Num)).filter (fun r => r.1 / 16 == pos / 16) = [(pos, row)] := by
      rw [List.filter_cons_of_pos (p := fun r : Nat × List Num => r.1 / 16 == pos / 16) (beq_self_eq_true (pos / 16)), List.filter_nil]
    unfold State.blocksScaled
    rw [List.foldl_cons, List.foldl_nil, State.pageOf_block, found]
    dsimp only
    rw [mine]
    rfl
  unfold State.putRows
  rw [scaled, List.foldl_cons, List.foldl_nil]
  have written := s.setScales_written pg g layer [row]
  have stored := storeRow_hm (r := (pos, row)) (State.setScales_found found row) (by rw [written.pool]; exact direct)
  rw [stored, written.pageAt]
  rfl

/-- The scale of a head once the row's scales are set. -/
def KvPage.rowScale (pg : KvPage) (g : KvGeom) (layer : Nat) (row : List Num) (h : Nat) : Word32 :=
  (pg.scales.lookup (g.scaleKey layer h)).getD (g.firstScale ((row.zipIdx.filter (fun p => g.headOf p.2 == h)).map Prod.fst))

theorem KvPage.withRow_lookup (pg : KvPage) (g : KvGeom) (layer : Nat) (row : List Num) {h : Nat} (known : h < g.heads) :
    (pg.withRow g layer row).scales.lookup (g.scaleKey layer h) = some (pg.rowScale g layer row h) := by
  have first : (fun h => g.firstScale ([row].flatMap (fun r => (r.zipIdx.filter (fun p => g.headOf p.2 == h)).map Prod.fst)))
      = fun h => g.firstScale ((row.zipIdx.filter (fun p => g.headOf p.2 == h)).map Prod.fst) := by
    funext h
    rw [List.flatMap_singleton]
  have scales : (pg.withRow g layer row).scales = pg.scaled g layer [row] := rfl
  have key : g.scaleKey layer h = layer % g.perPage * g.heads + h := rfl
  rw [scales]
  unfold KvPage.rowScale KvPage.scaled
  rw [first, key]
  have set := (scalesFrom_lookup (layer % g.perPage * g.heads) (fun h => g.firstScale ((row.zipIdx.filter (fun p => g.headOf p.2 == h)).map Prod.fst)) pg.scales g.heads).1 h known
  rw [set]

theorem KvPage.withRow_bytes (pg : KvPage) {g : KvGeom} (heads : 0 < g.heads) (width : 0 < g.width) (layer : Nat) (row : List Num) :
    (pg.withRow g layer row).rowBytes g layer row = row.zipIdx.map (fun v => kvEnc (pg.rowScale g layer row (g.headOf v.2)) v.1) := by
  unfold KvPage.rowBytes
  refine List.map_congr_left fun v _ => congrArg (fun w => kvEnc w v.1) ?_
  unfold KvPage.scale
  rw [pg.withRow_lookup g layer row (KvGeom.headOf_lt heads width v.2), Option.getD_some]

/-- From s the row's bytes stand in hub memory at `a`, and the page has the row's scales. -/
structure State.RowPut (s : State) (q : Nat) (g : KvGeom) (layer pos : Nat) (pg : KvPage) (row : List Num) (a : Nat) (u : State) : Prop where
  only  : u = { s with hm := u.hm, hmBad := u.hmBad, kvPages := u.kvPages, freeCtr := u.freeCtr }
  bytes : u.hm.readN a row.length = (pg.withRow g layer row).rowBytes g layer row
  rest  : ∀ b, b < a ∨ a + row.length ≤ b → b < s.kvRegion.1 ∨ s.kvRegion.1 + s.kvRegion.2 ≤ b → u.hm.read b = s.hm.read b
  page  : u.pageOf q g layer pos = some (pg.withRow g layer row)

theorem State.putRow_put (found : s.pageOf q g layer pos = some pg) {row : List Num} {a : Nat} (apart : s.BesideRegion a row.length) :
    s.RowPut q g layer pos pg row a ((s.setScales pg g layer [row]).hmStore a ((pg.withRow g layer row).rowBytes g layer row)) := by
  have scaled := s.setScales_written pg g layer [row]
  have page := State.setScales_found found row
  have hm : (s.setScales pg g layer [row]).hm = s.hm.smudge s.kvRegion.1 s.kvRegion.2 (s.freeCtr + 1) := rfl
  have len := (pg.withRow g layer row).length_rowBytes g layer row
  obtain ⟨bs, is⟩ : ∃ bs, (pg.withRow g layer row).rowBytes g layer row = bs := ⟨_, rfl⟩
  rw [is] at len ⊢
  generalize s.setScales pg g layer [row] = t at scaled page hm
  have beside : t.BesideRegion a bs.length := by
    unfold State.BesideRegion at apart ⊢
    rw [scaled.region, len]
    exact apart
  have stored := State.hmStore_written beside
  have bytes : (t.hmStore a bs).hm = t.hm.writeN a bs := rfl
  refine ⟨(scaled.trans stored).only, ?_, fun b outside clear => ?_, ?_⟩
  · rw [bytes, ← len]
    exact (t.hm.readN_writeN_same a bs).trans is.symm
  · rw [bytes, t.hm.read_writeN_other a b bs (len ▸ outside), hm]
    exact s.hm.read_smudge_other _ clear
  · rw [State.hmStore_beside beside]
    exact page

end

/-! ### KV.GET (R117, R200-R202) -/

/-- One row is read from its page. -/
def readRow (q : Nat) (g : KvGeom) (layer : Nat) (r : List (Nat × KvPage × List Byte) × Option (Nat × Nat) × State) (p : Nat) :
    List (Nat × KvPage × List Byte) × Option (Nat × Nat) × State :=
  match r.2.2.pageOf q g layer p with
  | some pg =>
    let (sp, off) := r.2.2.pageAt pg.pool pg.index
    let (bs, b, s) := r.2.2.readSpace [] sp (off + g.rowAt layer p) g.rowLen (r.2.2.pool pg.pool).hint 1
    (r.1 ++ [(p, pg, bs)], r.2.1.orElse (fun _ => b.at?.map (fun w => (sp, w))), s)
  | none => r

/-- One row that has been read lands in SP. -/
def landRow (c : Nat) (t : Tile) (sat : Bool) (g : KvGeom) (layer : Nat) (s : State) (r : (Nat × KvPage × List Byte) × Nat) : State :=
  let (row, i) := r
  if t.fmt = Fmt.e4m3 then s.spWrite c (t.rowAt i) row.2.2
  else s.storeWords c t i 0 false sat (row.2.2.zipIdx.map (fun v => kvDec (row.2.1.scale g layer (g.headOf v.2)) v.1))

/-- The scales of blocks as they land. -/
def State.scaleBytes (s : State) (q : Nat) (g : KvGeom) (layer : Nat) (blocks : List Nat) : List Byte :=
  blocks.flatMap (fun b => (List.range g.heads).flatMap (fun h =>
    leBytes 4 (match s.pageOf q g layer (16 * b) with | some pg => (pg.scale g layer h).toNat | none => 0)))

/-- Rows that have been read land in SP, in E4M3 with their scales. -/
def State.landRows (s : State) (c : Nat) (t : Tile) (sat : Bool) (q : Nat) (g : KvGeom) (layer : Nat) (rows : List (Nat × KvPage × List Byte)) (blocks : List Nat) : State :=
  let s := rows.zipIdx.foldl (landRow c t sat g layer) s
  let scales := s.scaleBytes q g layer blocks
  if t.fmt = Fmt.e4m3 then s.spWrite c t.scale scales else s

/-- The effect of a KV.GET that the manager serves. -/
def kvGetEffect (c : CoreId) (id : Nat) (s : State) (e : Entry) : State :=
  match e.op with
  | .kvGet td ra rb rc rd =>
    let t := Tile.of td
    let q := ra.toNat
    let layer := rb.toNat
    let n := rd.toNat
    if !(t.fmt == Fmt.e4m3 || t.fmt ≤ 1) then s.finishUndef c.val id e
    else match s.seq? q, t.check with
      | some x, none =>
        let g := s.geom x.geom
        match (if t.cols = g.rowLen ∧ n ≤ t.rows then s.kvRun x rb rc n else none) with
        | none => s.finishRange c.val id
        | some ps =>
          let blocks := (ps.map (fun p => p / 16)).dedup
          if t.fmt = Fmt.e4m3 ∧ t.scale + 4 * blocks.length * g.heads > spSize then s.finishRange c.val id
          else if ps.any (fun p => match s.pageOf q g layer p with
              | some pg => s.memWaits (s.pageAt pg.pool pg.index).1 ((s.pageAt pg.pool pg.index).2 + g.rowAt layer p) g.rowLen
              | none => false) then s
          else
            let rs := ps.foldl (readRow q g layer) ([], none, s)
            match rs.2.1 with
            | some (sp, w) => rs.2.2.finishEcc c.val id sp w
            | none => (rs.2.2.landRows c.val t e.sat q g layer rs.1 blocks).finish c.val id 0
      | _, _ => s.finishRange c.val id
  | _ => s

theorem exec_kvGet_run (c : CoreId) (id : Nat) (s : State) : exec (.kvGet c (.run id [])) s = .next (s.serveKv c.val id [] (kvGetEffect c id)) := rfl

/-- The position's row lies in a page of direct HM that holds no uncorrectable word there. -/
def State.RowReads (s : State) (q : Nat) (g : KvGeom) (layer i : Nat) : Prop :=
  ∃ p, s.pageOf q g layer i = some p ∧ (s.pool p.pool).space = 1 ∧ (s.hmRead ((s.pageAt p.pool p.index).2 + g.rowAt layer i) g.rowLen).2.isBad = false

section
variable {s : State} {q layer : Nat} {g : KvGeom}

theorem State.RowReads.ready {ps : List Nat} (rows : ∀ i ∈ ps, s.RowReads q g layer i) :
    ps.any (fun p => match s.pageOf q g layer p with
      | some pg => s.memWaits (s.pageAt pg.pool pg.index).1 ((s.pageAt pg.pool pg.index).2 + g.rowAt layer p) g.rowLen
      | none => false) = false := by
  refine List.any_eq_false.mpr fun i mem => ?_
  obtain ⟨p, found, direct, -⟩ := rows i mem
  have space : (s.pageAt p.pool p.index).1 = 1 := direct
  rw [found]
  dsimp only
  unfold State.memWaits
  rw [space]
  exact Bool.false_ne_true

theorem readRow_hm {i : Nat} {pg : KvPage} (found : s.pageOf q g layer i = some pg) (direct : (s.pool pg.pool).space = 1)
    (sound : (s.hmRead ((s.pageAt pg.pool pg.index).2 + g.rowAt layer i) g.rowLen).2.isBad = false) (l : List (Nat × KvPage × List Byte)) :
    readRow q g layer (l, none, s) i = (l ++ [(i, pg, s.hm.readN ((s.pageAt pg.pool pg.index).2 + g.rowAt layer i) g.rowLen)], none, s) := by
  have space : (s.pageAt pg.pool pg.index).1 = 1 := direct
  have read := State.hmRead_sound sound
  unfold readRow
  dsimp only
  rw [found]
  dsimp only
  rw [space, State.readSpace_hm, read]
  rfl

theorem readRows_hm (ps : List Nat) : (∀ i ∈ ps, s.RowReads q g layer i) → ∀ l, ∃ k, ps.foldl (readRow q g layer) (l, none, s) = (k, none, s) := by
  induction ps with
  | nil => exact fun _ l => ⟨l, rfl⟩
  | cons i ps ih =>
    intro rows l
    obtain ⟨p, found, direct, sound⟩ := rows i List.mem_cons_self
    rw [List.foldl_cons, readRow_hm found direct sound]
    exact ih (fun j mem => rows j (List.mem_cons_of_mem i mem)) _

theorem kvGetEffect_gets {c : CoreId} {id : Nat} {e : Entry} {td : TileWord} {ra rb rc rd : Word} {x : KvSeq} {ps : List Nat} {l : List (Nat × KvPage × List Byte)}
    (op : e.op = .kvGet td ra rb rc rd) (known : s.seq? ra.toNat = some x) (whole : (Tile.of td).check = none) (cols : (Tile.of td).cols = (s.geom x.geom).rowLen)
    (fmt : (Tile.of td).fmt = Fmt.e4m3 ∨ (Tile.of td).fmt ≤ 1) (fits : rd.toNat ≤ (Tile.of td).rows) (run : s.kvRun x rb rc rd.toNat = some ps)
    (scales : (Tile.of td).fmt = Fmt.e4m3 → (Tile.of td).scale + 4 * (ps.map (fun p => p / 16)).dedup.length * (s.geom x.geom).heads ≤ spSize)
    (rows : ∀ i ∈ ps, s.RowReads ra.toNat (s.geom x.geom) rb.toNat i) (reads : ps.foldl (readRow ra.toNat (s.geom x.geom) rb.toNat) ([], none, s) = (l, none, s)) :
    kvGetEffect c id s e = (s.landRows c.val (Tile.of td) e.sat ra.toNat (s.geom x.geom) rb.toNat l (ps.map (fun p => p / 16)).dedup).completed c id 0 := by
  have defined : (!((Tile.of td).fmt == Fmt.e4m3 || decide ((Tile.of td).fmt ≤ 1))) = false := by
    rcases fmt with is | is <;> simp [is]
  unfold kvGetEffect
  rw [op]
  dsimp only
  rw [defined, known, whole]
  refine (if_neg Bool.false_ne_true).trans ?_
  dsimp only
  rw [if_pos ⟨cols, fits⟩, run]
  dsimp only
  rw [State.RowReads.ready rows, reads]
  refine (if_neg fun bad => ?_).trans ((if_neg Bool.false_ne_true).trans rfl)
  exact absurd bad.2 (Nat.not_lt.mpr (scales bad.1))

theorem State.landRows_kept (c : Nat) {t : Tile} (sat : Bool) (wide : t.fmt ≤ 1) (l : List (Nat × KvPage × List Byte)) (blocks : List Nat) :
    (s.landRows c t sat q g layer l blocks).kvSeqs = s.kvSeqs ∧ (s.landRows c t sat q g layer l blocks).kvPages = s.kvPages ∧ (s.landRows c t sat q g layer l blocks).hm = s.hm := by
  have other : t.fmt ≠ Fmt.e4m3 := fun is => absurd (is ▸ wide) (by decide)
  have all : s.landRows c t sat q g layer l blocks = l.zipIdx.foldl (landRow c t sat g layer) s := if_neg other
  have one (u : State) (r : (Nat × KvPage × List Byte) × Nat) :
      (landRow c t sat g layer u r).kvSeqs = u.kvSeqs ∧ (landRow c t sat g layer u r).kvPages = u.kvPages ∧ (landRow c t sat g layer u r).hm = u.hm := by
    unfold landRow
    dsimp only
    rw [if_neg other]
    exact ⟨rfl, rfl, rfl⟩
  rw [all]
  exact ⟨foldl_same State.kvSeqs _ (fun u r => (one u r).1) _ s, foldl_same State.kvPages _ (fun u r => (one u r).2.1) _ s, foldl_same State.hm _ (fun u r => (one u r).2.2) _ s⟩

end

section
variable {s : State} {c q layer pos : Nat} {g : KvGeom} {pg : KvPage} {t : Tile} {sat : Bool} {bs : List Byte}

theorem State.landRows_e4m3 (fmt : t.fmt = Fmt.e4m3) : s.landRows c t sat q g layer [(pos, pg, bs)] [pos / 16]
    = (s.spWrite c (t.rowAt 0) bs).spWrite c t.scale ((List.range g.heads).flatMap (fun h =>
        leBytes 4 (match s.pageOf q g layer (16 * (pos / 16)) with | some y => (y.scale g layer h).toNat | none => 0))) := by
  have one : ([(pos, pg, bs)] : List (Nat × KvPage × List Byte)).zipIdx.foldl (landRow c t sat g layer) s = s.spWrite c (t.rowAt 0) bs := if_pos fmt
  have scales : (s.spWrite c (t.rowAt 0) bs).scaleBytes q g layer [pos / 16] = s.scaleBytes q g layer [pos / 16] := rfl
  have single : s.scaleBytes q g layer [pos / 16] = (List.range g.heads).flatMap (fun h =>
      leBytes 4 (match s.pageOf q g layer (16 * (pos / 16)) with | some y => (y.scale g layer h).toNat | none => 0)) := List.flatMap_singleton ..
  unfold State.landRows
  dsimp only
  rw [one, scales, single]
  exact if_pos fmt

theorem State.landRows_wide (wide : t.fmt ≤ 1) : s.landRows c t sat q g layer [(pos, pg, bs)] [pos / 16]
    = s.storeWords c t 0 0 false sat (bs.zipIdx.map (fun v => kvDec (pg.scale g layer (g.headOf v.2)) v.1)) := by
  have other : t.fmt ≠ Fmt.e4m3 := fun is => absurd (is ▸ wide) (by decide)
  have one : ([(pos, pg, bs)] : List (Nat × KvPage × List Byte)).zipIdx.foldl (landRow c t sat g layer) s
      = s.storeWords c t 0 0 false sat (bs.zipIdx.map (fun v => kvDec (pg.scale g layer (g.headOf v.2)) v.1)) := if_neg other
  unfold State.landRows
  dsimp only
  rw [one]
  exact if_neg other

end

/-! ### What the instructions complete with -/

section
variable {c : CoreId} {id : Nat} {e : Entry} {ts : TileWord} {ra rb rc rd : Word} {x : KvSeq} {pg : KvPage} {s : State}

/-- KV.PUT of one row. -/
theorem exec_kvPut_row (r : s.Serves c id e) (enabled : s.kvDisabled = false) (known : s.seq? ra.toNat = some x) (whole : (Tile.of ts).check = none)
    (cols : (Tile.of ts).cols = (s.geom x.geom).rowLen) (inside : rb.toNat < (s.geom x.geom).layers) (below : rc.toNat < x.len)
    (holds : (s.geom x.geom).holds (rc.toNat / 16) = true) (found : s.pageOf ra.toNat (s.geom x.geom) rb.toNat rc.toNat = some pg) (direct : (s.pool pg.pool).space = 1)
    (op : e.op = .kvPut ts ra rb rc) (fmt : (Tile.of ts).fmt ≤ 2) (one : (Tile.of ts).rows = 1) (sound : (s.core c.val).badIn (Tile.of ts).ranges = none) (still : pg.move = none)
    (apart : s.BesideRegion ((s.pageAt pg.pool pg.index).2 + (s.geom x.geom).rowAt rb.toNat rc.toNat) (s.geom x.geom).rowLen) :
    ∃ u : State, exec (.kvPut c (.run id [])) s = .next ((u.completed c id 0).crossLink (c.val / 12))
      ∧ s.RowPut ra.toNat (s.geom x.geom) rb.toNat rc.toNat pg ((List.range (Tile.of ts).cols).map (fun j => (Tile.of ts).elem (s.core c.val).sp 0 j))
          ((s.pageAt pg.pool pg.index).2 + (s.geom x.geom).rowAt rb.toNat rc.toNat) u := by
  have leaves : s.crosses c.val e.op = true := by rw [op]; rfl
  have run := State.kvRun_one inside below holds
  have rows : ∀ i ∈ [rc.toNat], s.RowIn ra.toNat (s.geom x.geom) rb.toNat i := by
    intro i mem
    rw [List.mem_singleton.mp mem]
    exact ⟨pg, found, still, direct, apart⟩
  have puts := State.putRows_one found direct ((List.range (Tile.of ts).cols).map (fun j => (Tile.of ts).elem (s.core c.val).sp 0 j))
  have effect := kvPutEffect_puts (id := id) op known whole cols fmt (one.symm ▸ run) sound rows (by
    rw [List.map_singleton, dedup_one]
    exact puts)
  refine ⟨_, r.completes enabled leaves (exec_kvPut_run c id s) effect, State.putRow_put found ?_⟩
  rw [List.length_map, List.length_range, cols]
  exact apart

/-- KV.PUT of any number of rows. -/
theorem exec_kvPut_rows {ps : List Nat} (r : s.Serves c id e) (enabled : s.kvDisabled = false) (known : s.seq? ra.toNat = some x) (whole : (Tile.of ts).check = none)
    (cols : (Tile.of ts).cols = (s.geom x.geom).rowLen) (op : e.op = .kvPut ts ra rb rc) (fmt : (Tile.of ts).fmt ≤ 2) (run : s.kvRun x rb rc (Tile.of ts).rows = some ps)
    (sound : (s.core c.val).badIn (Tile.of ts).ranges = none) (rows : ∀ i ∈ ps, s.RowIn ra.toNat (s.geom x.geom) rb.toNat i) :
    ∃ u : State, exec (.kvPut c (.run id [])) s = .next ((u.completed c id 0).crossLink (c.val / 12)) ∧ s.RowsWritten u := by
  have leaves : s.crosses c.val e.op = true := by rw [op]; rfl
  obtain ⟨u, puts, written⟩ := State.putRows_written (m := (s.core c.val).sp) cols rows (ps.map (fun p => p / 16)).dedup
  exact ⟨u, r.completes enabled leaves (exec_kvPut_run c id s) (kvPutEffect_puts op known whole cols fmt run sound rows puts), written⟩

/-- KV.GET of rows that are read. -/
theorem exec_kvGet_rows {ps : List Nat} {l : List (Nat × KvPage × List Byte)} (r : s.Serves c id e) (enabled : s.kvDisabled = false) (known : s.seq? ra.toNat = some x)
    (whole : (Tile.of ts).check = none) (cols : (Tile.of ts).cols = (s.geom x.geom).rowLen) (op : e.op = .kvGet ts ra rb rc rd)
    (fmt : (Tile.of ts).fmt = Fmt.e4m3 ∨ (Tile.of ts).fmt ≤ 1) (fits : rd.toNat ≤ (Tile.of ts).rows) (run : s.kvRun x rb rc rd.toNat = some ps)
    (scales : (Tile.of ts).fmt = Fmt.e4m3 → (Tile.of ts).scale + 4 * (ps.map (fun p => p / 16)).dedup.length * (s.geom x.geom).heads ≤ spSize)
    (rows : ∀ i ∈ ps, s.RowReads ra.toNat (s.geom x.geom) rb.toNat i) (reads : ps.foldl (readRow ra.toNat (s.geom x.geom) rb.toNat) ([], none, s) = (l, none, s)) :
    exec (.kvGet c (.run id [])) s
      = .next (((s.landRows c.val (Tile.of ts) e.sat ra.toNat (s.geom x.geom) rb.toNat l (ps.map (fun p => p / 16)).dedup).completed c id 0).crossLink (c.val / 12)) := by
  have leaves : s.crosses c.val e.op = true := by rw [op]; rfl
  exact r.completes enabled leaves (exec_kvGet_run c id s) (kvGetEffect_gets op known whole cols fmt fits run scales rows reads)

/-- KV.GET of one row. -/
theorem exec_kvGet_row (r : s.Serves c id e) (enabled : s.kvDisabled = false) (known : s.seq? ra.toNat = some x) (whole : (Tile.of ts).check = none)
    (cols : (Tile.of ts).cols = (s.geom x.geom).rowLen) (inside : rb.toNat < (s.geom x.geom).layers) (below : rc.toNat < x.len)
    (holds : (s.geom x.geom).holds (rc.toNat / 16) = true) (found : s.pageOf ra.toNat (s.geom x.geom) rb.toNat rc.toNat = some pg) (direct : (s.pool pg.pool).space = 1)
    (op : e.op = .kvGet ts ra rb rc rd) (one : rd.toNat = 1) (room : 1 ≤ (Tile.of ts).rows)
    (sound : (s.hmRead ((s.pageAt pg.pool pg.index).2 + (s.geom x.geom).rowAt rb.toNat rc.toNat) (s.geom x.geom).rowLen).2.isBad = false)
    (fmt : (Tile.of ts).fmt = Fmt.e4m3 ∨ (Tile.of ts).fmt ≤ 1) (scales : (Tile.of ts).fmt = Fmt.e4m3 → (Tile.of ts).scale + 4 * (s.geom x.geom).heads ≤ spSize) :
    exec (.kvGet c (.run id [])) s
      = .next (((s.landRows c.val (Tile.of ts) e.sat ra.toNat (s.geom x.geom) rb.toNat
          [(rc.toNat, pg, s.hm.readN ((s.pageAt pg.pool pg.index).2 + (s.geom x.geom).rowAt rb.toNat rc.toNat) (s.geom x.geom).rowLen)]
          [rc.toNat / 16]).completed c id 0).crossLink (c.val / 12)) := by
  have run := State.kvRun_one inside below holds
  have blocks : ([rc.toNat].map (fun p => p / 16)).dedup = [rc.toNat / 16] := by rw [List.map_singleton, dedup_one]
  have rows : ∀ i ∈ [rc.toNat], s.RowReads ra.toNat (s.geom x.geom) rb.toNat i := by
    intro i mem
    rw [List.mem_singleton.mp mem]
    exact ⟨pg, found, direct, sound⟩
  have reads := readRow_hm found direct sound []
  rw [← blocks]
  refine exec_kvGet_rows r enabled known whole cols op fmt (one ▸ room) (one.symm ▸ run) (fun is => ?_) rows reads
  rw [blocks, List.length_singleton, Nat.mul_one]
  exact scales is

end

/-- The bytes and scales of a written row, with the scale that its statement names. -/
theorem State.RowPut.scaled {s u : State} {q layer pos a : Nat} {g : KvGeom} {pg : KvPage} {row : List Num} (put : s.RowPut q g layer pos pg row a u) (heads : 0 < g.heads)
    (width : 0 < g.width) : u.hm.readN a row.length = row.zipIdx.map (fun v => kvEnc (pg.rowScale g layer row (g.headOf v.2)) v.1)
      ∧ ∃ y : KvPage, u.pageOf q g layer pos = some y ∧ y = { pg with scales := y.scales }
        ∧ ∀ h, h < g.heads → y.scales.lookup (g.scaleKey layer h) = some (pg.rowScale g layer row h) :=
  ⟨put.bytes.trans (pg.withRow_bytes heads width layer row), pg.withRow g layer row, put.page, rfl, fun _ known => pg.withRow_lookup g layer row known⟩

/-- Settles O30: one row and many are written and read in the page that holds them, and the manager's housekeeping keeps what the table names. -/
theorem kvRowsAndHousekeeping : Obligations.KvRowsAndHousekeeping := by
  unfold Obligations.KvRowsAndHousekeeping
  refine ⟨fun c id q e ts ra rb rc rd x pg s serves enabled named known => ?_, fun s room => ⟨?_, rfl, ?_, rfl, ?_, ?_⟩⟩
  · subst named
    intro t g layer pos place at_ m row scale ends whole cols
    refine ⟨fun inside below holds found direct => ⟨fun op fmt one sound still apart => ?_, fun op one rows sound => ⟨fun fmt scales => ?_, fun fmt => ?_⟩⟩,
      fun ps op fmt run sound rows => ?_, fun ps op fmt run fits rows => ?_⟩
    · obtain ⟨u, run, put⟩ := exec_kvPut_row serves enabled known whole cols inside below holds found direct op fmt one sound still apart
      have len : row.length = g.rowLen := by
        have cells : row.length = t.cols := (List.length_map _).trans List.length_range
        rw [cells, cols]
      obtain ⟨bytes, page⟩ := put.scaled (s.geom_heads _) (s.geom_width _)
      refine ⟨u, run, put.only, len ▸ bytes, fun a outside clear => put.rest a ?_ clear, page⟩
      have same : ((List.range (Tile.of ts).cols).map (fun j => (Tile.of ts).elem (s.core c.val).sp 0 j)).length = g.rowLen := len
      rw [same]
      exact outside
    · have run := exec_kvGet_row serves enabled known whole cols inside below holds found direct op one rows sound (.inl fmt) (fun _ => scales)
      rw [State.landRows_e4m3 fmt] at run
      exact run
    · have run := exec_kvGet_row serves enabled known whole cols inside below holds found direct op one rows sound (.inr fmt)
        (fun is => absurd (is ▸ fmt) (by decide))
      rw [State.landRows_wide fmt] at run
      exact run
    · obtain ⟨u, runs, written⟩ := exec_kvPut_rows serves enabled known whole cols op fmt run sound rows
      have only := written.only
      exact ⟨u, runs, (congrArg State.cores only :), (congrArg State.kvSeqs only :)⟩
    · obtain ⟨l, reads⟩ := readRows_hm ps rows []
      exact ⟨_, exec_kvGet_rows serves enabled known whole cols op (.inr fmt) fits run (fun is => absurd (is ▸ fmt) (by decide)) rows reads,
        State.landRows_kept c.val e.sat fmt l _⟩
  · intro i c j p found move here there sound apart
    have mem : p ∈ s.kvPages := (List.mem_filter.mp (List.mem_of_getElem? found)).1
    have len := s.hm.length_readN (s.pageAt p.pool p.index).2 65536
    have run := exec_pageMoveDone found move here there sound
    generalize s.hm.readN (s.pageAt p.pool p.index).2 65536 = bs at len run ⊢
    have beside : s.BesideRegion (s.pageAt c j).2 bs.length := len.symm ▸ apart
    have done := State.moveSwitched_done mem beside
    obtain ⟨moves, page, bytes, seqs⟩ := done.kept beside (State.houseKept (by rw [done.faultq]; omega) 4)
    exact ⟨_, run, moves, page, len ▸ bytes, seqs⟩
  · exact fun awake booted => ⟨_, exec_kvClear awake booted, State.kvClearAll_clears (by omega)⟩
  · exact ⟨s.kvApply, rfl, State.kvApply_applies (by omega)⟩
  · intro p q awake named epoch len counter stale
    subst named
    have run := exec_kvUpdate (p := p) awake
    have stales : exec (.kvUpdate p) s = .next ((s.takeHub p).kvStale (leNat ((p.payload.drop 16).take 2)) epoch) → stale := fun run => by
      obtain ⟨counted, seqs, pages, cores⟩ := State.kvStale_stale (by omega : s.faultq.length < 256) p (leNat ((p.payload.drop 16).take 2)) epoch
      exact ⟨_, run, counted, seqs, pages, cores⟩
    refine ⟨fun gone => stales ?_, fun x known => ⟨fun other => stales ?_, fun same resolved => ⟨fun again => ?_, fun differs => stales ?_⟩,
      fun d same detent => ⟨fun below => ?_, fun above => stales ?_⟩⟩⟩
    · rw [run, State.kvUpdated_unknown gone]
    · rw [run, State.kvUpdated_epoch known other]
    · rw [run, State.kvUpdated_repeat known same resolved]
      exact congrArg Host.Outcome.next (if_pos again)
    · rw [run, State.kvUpdated_repeat known same resolved]
      exact congrArg Host.Outcome.next (if_neg differs)
    · rw [State.kvUpdated_detent known same detent] at run
      obtain ⟨seq, hub, cores⟩ := State.resolve_seq (s := s.takeHub p) (by show s.faultq.length + 16 ≤ 256; omega) known len counter
      exact ⟨_, run.trans (congrArg Host.Outcome.next (if_pos below)), seq, hub, cores⟩
    · rw [run, State.kvUpdated_detent known same detent]
      exact congrArg Host.Outcome.next (if_neg (Nat.not_le.mpr above))

end Sys2Proof.Machine
end
